-- ==== Sys2Proof/Word.lean ====
section
/-! DEFINITION. The word types of the block: every register is 32 bits (R5), frame contents are bytes (R6). -/

namespace Sys2Proof

/-- A register word (R5). -/
abbrev Word := BitVec 32

/-- A byte of a frame, a key or a flit (R6). -/
abbrev Byte := BitVec 8

end Sys2Proof
end

