-- ==== Sys2Proof/Syntax.lean ====
section
/-! DEFINITION. The commands of the block: one constructor of `Instr` for each row of spec/opcode_table.json.
An operand is what the row's command carries from outside: which unit it addresses, the word a CFG write brings,
the bytes that arrive, and the outcome of what lies outside the block (a partner's answer, a channel's training). -/

namespace Sys2Proof

/-- A bed window or bed, 0 to 16; 16 is the fallow bed (R3, R46). -/
abbrev BedIx := Fin 17

/-- A local port or lane index inside a bed (R3). -/
abbrev LocalIx := Fin 16

/-- The islands and sub-islands that follow R67: every one of R65 but the wake island. -/
inductive Island where
  | host | line | bed (b : BedIx) | silt (k : Fin 8)
  deriving DecidableEq, Repr

/-- A serial lane: lane l of a bed window (R47), or a silt lane S0 to S63. -/
inductive LaneId where
  | net (b : BedIx) (l : LocalIx)
  | silt (n : Fin 64)
  deriving DecidableEq, Repr

/-- What training asks of one lane (R84): the receiver's CTLE peaking and its four DFE trims, and the six transmit
taps the partner's requests ask for (C_M3, C_M2, C_M1, C0, C_P1, C_P2), all before the bounds of R84 are applied. -/
structure EqAsk where
  ctle : Int
  dfe : List Int
  fir : List Int
  deriving DecidableEq, Repr

/-- A MAC: local port p of bed window b, or the management port. -/
inductive MacId where
  | net (b : BedIx) (p : LocalIx)
  | mgmt
  deriving DecidableEq, Repr

/-- What stands before a frame or fragment on the wire: the SFD, the start-of-frame SMD of a preemptable frame with its number, the
SMD of a continuation with the frame's number and its fragment count, or nothing of these (R102, R122). -/
inductive Smd where
  | sfd
  | start (number : Fin 4)
  | cont (number count : Fin 4)
  | other
  deriving DecidableEq, Repr

/-- A frame or fragment as a MAC receives it, its last four bytes its FCS or mCRC. -/
structure RxPiece where
  smd : Smd
  bytes : List Byte
  deriving DecidableEq, Repr

/-- A scheduled port's register block: a network port's, or SCHED.HOST[q] (q = 0 port 256, q = 1 port 258). -/
inductive SchedId where
  | net (b : BedIx) (p : LocalIx)
  | host (q : Fin 2)
  deriving DecidableEq, Repr

/-- A host ring: transmit ring t, receive ring r, or the event ring of vector v (R325). -/
inductive RingId where
  | tx (t : Fin 512)
  | rx (r : Fin 512)
  | ev (v : Fin 256)
  deriving DecidableEq, Repr

/-- What a harm class counts for (R435, R443): no target, a port or a bed. -/
inductive HarmAt where
  | none
  | port (p : Fin 256)
  | bed (b : BedIx)
  deriving DecidableEq, Repr

/-- Where an uncorrectable subsoil error lies (R457): a grain of a frame, a flow record, a copy of the marl. -/
inductive MemAt where
  | grain (f : Nat)
  | flow (id : BitVec 26)
  | marl (copy : Fin 2)
  deriving DecidableEq, Repr


/-- The commands, one constructor for each row of spec/opcode_table.json, in the table's order.
Each docstring gives the row's rule and summary. -/
inductive Instr where
  /-- R11: A CFG write to a register that has no row of its own sets its fields according to their access codes. -/
  | registerWrite (addr : BitVec 26) (v : Word) (be : BitVec 4)
  /-- R15: A write to a counter sets its base value, and an increment in the same cycle is applied after it. -/
  | counterWrite (addr : BitVec 26) (v : Word)
  /-- R102: A MAC receives a frame, checks preamble, FCS and length, and passes it on or discards it. -/
  | macReceiveFrame (b : BedIx) (p : LocalIx) (smd : Smd) (bytes : List Byte) (rest : List RxPiece) (pcsErr cut : Bool) (gapPs : Nat)
      (fecCorr fecUncorr : Nat) (fecSym : List Nat)
  /-- R137: A completed parse window is parsed and classified, and the action word is ready seven cycles later. -/
  | parseWindow (f : Nat) (pslot : Fin 4) (recheck : Option (Fin 5 × Bool × List Nat)) (start : Fin 8192)
  /-- R167: The payload matcher's bitmap for a pass becomes final once the needed bytes have arrived. -/
  | payloadMatchFinal (f : Nat)
  /-- R138: A pending tail check completes three cycles after the frame's last byte reaches the parser. -/
  | tailCheck (f : Nat)
  /-- R174: A waiting key is sent on its FHI channel once the channel holds a key credit. -/
  | keySend (b : BedIx) (c : Fin 4)
  /-- R175: The chip returns a key credit on a channel's credit line. -/
  | keyCreditReturn (b : BedIx) (c : Fin 4)
  /-- R178: A verdict message is received and matched to its outstanding handle. -/
  | verdictReceive (b : BedIx) (c : Fin 4) (msg : List Byte)
  /-- R180: A handle's timeout expires and the frame takes the TO_ACTION action. -/
  | handoffTimeout (b : BedIx) (slot : Fin 8192)
  /-- R28: Once the last grain is written and the verdict is admitted, the frame is enqueued on its flow queue. -/
  | enqueue (c : Nat)
  /-- R39: The replicator reads the group entry and creates one enqueue descriptor per member. -/
  | multicastReplicate (f : Nat)
  /-- R186: A mirror copy is created once both the last grain and the final action word are ready. -/
  | mirrorCopy (f : Nat)
  /-- R35: A recirculated frame's first grains are read back and presented to the parser as port 257 when credits allow. -/
  | recirculate (f : Nat) (grainBad : Bool)
  /-- R222: A scheduling engine starts a selection for a ready port and descends port, class, clod and flow. -/
  | selection (port : Fin 259)
  /-- R187: The egress editor reads the frame from topsoil and applies rewrite, fixup, truncation, PTP and trailer stages. -/
  | egressEdit (c : Nat) (grainBad : Bool)
  /-- R103: MAC transmit sends an edited frame with preamble, padding, FCS and gap. -/
  | macTransmitFrame (c : Option Nat) (lane : Option Nat) (tagBad : Bool)
  /-- R31: A frame selected on port 256 or 258 crosses the sieve to the host side against FRAME-out credits. -/
  | sieveFrameOut (c : Nat) (grainBad : Bool)
  /-- R70: LOT_POR_N low resets all islands, and on release the wake island, fuses and host island come up in order. -/
  | powerOnReset (level : Bool)
  /-- R69: LOT_HOST_RST_N low resets the host island. -/
  | hostResetPin (level : Bool)
  /-- R69: LOT_LINE_RST_N low resets the line island and its sub-islands. -/
  | lineResetPin (level : Bool)
  /-- R495: A rail leaving tolerance makes the supervisor assert LOT_POR_N within 10 µs. -/
  | railFault (rail : Fin 7)
  /-- R72: Writing HOST_SELF completes the write and then resets the host island. -/
  | rstCtlHostSelf (lineHold : Bool)
  /-- R69: Writing LINE_HOLD holds or releases the line island. -/
  | rstCtlLineHold (hold : Bool)
  /-- R68: A write to RST.BED holds or releases bed sub-islands, subject to refusal. -/
  | rstBedWrite (v : Word)
  /-- R68: A write to PWR.ISLAND_CTL enables or disables island power, subject to refusal. -/
  | pwrIslandCtlWrite (v : Word)
  /-- R67: An island's rail becomes good and the island goes to HELD. -/
  | railGood (i : Island)
  /-- R67: The ramp timer expires without rail good and the island returns to OFF with a fault. -/
  | rampTimeout (i : Island)
  /-- R67: With hold clear, PLL locked and parent ON, the island releases reset and centres its bridges. -/
  | islandResetRelease (i : Island)
  /-- R63: The bridges have centred, and the island goes ON, releases isolation and grants credits. -/
  | bridgeCentred (i : Island)
  /-- R64: Loss of root PLL lock stops the domains, raises the alarm and holds the islands. -/
  | pllLockLoss
  /-- R64: The root PLL relocks and the islands may come back up. -/
  | pllRelock
  /-- R75: A write with START clears the monitor and starts a 1,024-cycle count on the selected domain. -/
  | clkMonStart (v : Word)
  /-- R75: The monitor window ends, and DONE and OUT_OF_RANGE are set from COUNT. -/
  | clkMonWindowEnd (count : BitVec 20)
  /-- R79: A write to PORT[p].FORM is checked and, if it changes FORM or FEC, restarts the port. -/
  | portFormWrite (b : BedIx) (p : LocalIx) (v : Word)
  /-- R86: Every lane of the span detects a receiver and the port moves to TRAIN or LOCK. -/
  | portDetectDone (b : BedIx) (p : LocalIx)
  /-- R86: Every lane is trained and the port moves to LOCK. -/
  | portTrainDone (b : BedIx) (p : LocalIx) (asks : List EqAsk)
  /-- R87: Every lane holds alignment and the span is deskewed, and the port moves to EXCHANGE or ACTIVE. -/
  | portLockDone (b : BedIx) (p : LocalIx) (skewNs : Nat)
  /-- R86: The partner confirms the configured form and FEC and the port goes ACTIVE. -/
  | portExchangeConfirm (b : BedIx) (p : LocalIx) (form fec : BitVec 4)
  /-- R86: The partner advertises another form or FEC and the port goes to GAP. -/
  | portExchangeMismatch (b : BedIx) (p : LocalIx) (form fec : BitVec 4)
  /-- R86: A bring-up stage timer expires and the port goes to GAP. -/
  | portStageTimeout (b : BedIx) (p : LocalIx)
  /-- R86: A lane's loss of lock is declared and the port re-forms or goes to GAP. -/
  | laneLockLoss (b : BedIx) (lost : BitVec 16)
  /-- R90: The fallback span reaches ACTIVE and the port reports FELL_BACK. -/
  | reformDone (b : BedIx) (p : LocalIx) (asks : List EqAsk)
  /-- R86: The re-form limit timer expires and the port goes to GAP. -/
  | reformLimitExpire (b : BedIx) (p : LocalIx)
  /-- R86: RETRY_GAP_MS elapses and the port retries from DETECT or goes to FAILED. -/
  | gapRetry (b : BedIx) (p : LocalIx)
  /-- R94: Two milliseconds after a Dormant wake the port goes to LOCK. -/
  | dormantWakeDone (b : BedIx) (p : LocalIx)
  /-- R90: A lost lane that holds lock for 1 ms raises RECOVERED. -/
  | laneRecovered (b : BedIx) (l : LocalIx)
  /-- R93: FAULT_HOLD_MS expires and held frames start being selected and discarded. -/
  | faultHoldExpire (b : BedIx) (p : LocalIx)
  /-- R497: Writing MODE OFF powers the lane off, acting as a loss of lock on an active port. -/
  | laneModeOff (l : LaneId) (v : Word)
  /-- R497: Writing MODE PORT to a lane in OFF powers it again. -/
  | laneModePort (l : LaneId) (v : Word)
  /-- R95: Writing MODE TEST puts a lane outside any enabled span into TEST, or is refused. -/
  | laneModeTest (l : LaneId) (v : Word)
  /-- R498: Writing RESET takes the lane out of lock and clears its stored coefficients. -/
  | laneReset (l : LaneId) (v : Word)
  /-- R83: A board table write is validated and clears the lane's stored coefficients. -/
  | boardTableWrite (l : LaneId) (word : Fin 3) (v : Word)
  /-- R96: CHK_CLEAR zeroes the PRBS counters and restarts checker sync. -/
  | prbsChkClear (l : LaneId) (v : Word)
  /-- R96: The checker declares sync after 128 error-free bits. -/
  | prbsSyncAcquire (l : LaneId)
  /-- R96: The checker declares loss of sync at 128 errors in 1,024 bits. -/
  | prbsSyncLoss (l : LaneId) (errors : Nat)
  /-- R97: Every N bits the injector places one error event in the transmit stream. -/
  | prbsErrorInject (l : LaneId)
  /-- R114: A received PAUSE frame is consumed and pauses every class, or is discarded. -/
  | pauseFrameReceive (m : MacId) (da sa : BitVec 48) (quanta : BitVec 16)
  /-- R114: A received PFC frame loads the timers of its enabled priorities, or is discarded. -/
  | pfcFrameReceive (b : BedIx) (p : LocalIx) (enable : BitVec 8) (quanta : List (BitVec 16))
  /-- R114: A priority's pause timer reaches zero and its class is released. -/
  | pauseTimerExpire (m : MacId) (i : Fin 8)
  /-- R117: A pause run reaches WD_LIMIT_MS, and the timer clears and a hold begins. -/
  | pauseWatchdogTrip (b : BedIx) (p : LocalIx) (i : Fin 8)
  /-- R118: The watchdog hold ends and received pause is honoured again. -/
  | watchdogHoldEnd (b : BedIx) (p : LocalIx) (i : Fin 8)
  /-- R116: At the next frame boundary the MAC sends PAUSE or PFC for a raised or cleared request. -/
  | pauseSend (bed : Option BedIx) (p : LocalIx)
  /-- R116: While a request stays raised, the MAC resends every REFRESH_QUANTA quanta. -/
  | pauseRefresh (bed : Option BedIx) (p : LocalIx) (c : Fin 8)
  /-- R112: The link fault state changes between NONE, LOCAL and REMOTE. -/
  | remoteFaultChange (b : BedIx) (p : LocalIx) (remote : Bool)
  /-- R120: With MM_EN set and the port ACTIVE, merge verify starts or preemption becomes active unverified. -/
  | mergeVerifyStart (b : BedIx) (p : LocalIx)
  /-- R120: A respond frame received in VERIFYING makes preemption active. -/
  | mergeRespondReceive (b : BedIx) (p : LocalIx)
  /-- R120: The verify timer expires and a new verify frame is sent or the verify fails. -/
  | mergeVerifyTimeout (b : BedIx) (p : LocalIx)
  /-- R120: Writing VERIFY_RESTART moves the merge state from FAILED to VERIFYING. -/
  | mergeVerifyRestart (b : BedIx) (p : LocalIx) (v : Word)
  /-- R120: A verify frame from the partner is answered with a respond frame. -/
  | mergeVerifyFrameReceive (b : BedIx) (p : LocalIx)
  /-- R123: A preemptable frame is cut at the first permitted point after an express frame or hold. -/
  | preemptFragment (c : Nat) (ready : Nat)
  /-- R127: SNAP copies all 64 port counters into the snapshot bank. -/
  | statSnap (m : MacId)
  /-- R127: SNAP_CLEAR copies the counters and zeroes the live counters in the same cycle. -/
  | statSnapClear (m : MacId)
  /-- R128: The management port filters a received frame and passes it across the sieve or discards it. -/
  | mgmtFrameReceive (bytes : List Byte) (part rxEr : Bool)
  /-- R131: A half-duplex collision jams and schedules a backoff, or ends the frame as late or excessive. -/
  | mgmtCollision (bits : Nat)
  /-- R131: The backoff wait ends and the management port retries the frame. -/
  | mgmtBackoffEnd
  /-- R101: START runs one MDIO transaction, or is refused with ERR. -/
  | mdioStart (v : Word)
  /-- R101: An MDIO transaction ends and BUSY clears. -/
  | mdioDone (data : BitVec 16)
  /-- R133: A matching frame in FALLOW sets WOKE and CAUSE and sends a wake request. -/
  | wakeFrame (frame : List Byte) (fcsGood : Bool)
  /-- R139: A write to PIPE_MAP changes the slot pipes, or is rejected. -/
  | pipeMapWrite (b : BedIx) (v : Word)
  /-- R140: A pipe parity error faults the pipe and discards its held windows. -/
  | pipeParityError (b : BedIx) (pipe : Fin 5) (held : List Nat)
  /-- R446: A pipe on trial that has matched 1,024 windows becomes eligible. -/
  | pipeTrialPass (b : BedIx) (pipe : Fin 5)
  /-- R171: A write or trigger pulse commits the standby rule bank, or is rejected. -/
  | meshCommit (b : BedIx) (v : Word)
  /-- R171: The last old-bank frame leaves flight, STANDBY_BUSY clears and EVT_MESH_DRAINED is raised. -/
  | meshDrained (b : BedIx)
  /-- R194: TBL_CMD OP 0 reads a rule entry into TBL_DATA. -/
  | meshTblRead (b : BedIx)
  /-- R194: TBL_CMD OP 1 writes a rule entry to the standby bank, or is refused. -/
  | meshTblWrite (b : BedIx)
  /-- R194: TBL_CMD OP 2 clears the VALID bit of a rule entry. -/
  | meshTblClear (b : BedIx)
  /-- R193: A write or pulse commits the standby program and template bank. -/
  | rewriteCommit (b : BedIx) (v : Word)
  /-- R193: Twelve cycles after the last old-bank edit starts, the rewrite STANDBY_BUSY clears. -/
  | rewriteDrained (b : BedIx)
  /-- R195: REPL.CMD OP 0 reads a group or member entry. -/
  | replRead
  /-- R195: REPL.CMD OP 1 writes a group or member entry. -/
  | replWrite
  /-- R195: REPL.CMD OP 2 clears a group's VALID bit or zeroes a member. -/
  | replClear
  /-- R202: METER.CMD OP 0 reads a meter record. -/
  | meterRead
  /-- R202: METER.CMD OP 1 writes a meter record with full buckets. -/
  | meterWriteFull
  /-- R202: METER.CMD OP 2 writes a meter record, keeping tokens clipped to the new sizes. -/
  | meterWriteKeep
  /-- R202: The meter refresher brings a meter record up to date. -/
  | meterRefresh (id : BitVec 20)
  /-- R214: The tier mover issues a frame's move down to subsoil or hardpan against spill credits. -/
  | spillMove (f : Nat) (link : Fin 8) (grainBad : Bool)
  /-- R29: A move to a lower tier is acknowledged and the frame's topsoil grains are freed. -/
  | moveAck (f : Nat)
  /-- R215: The tier mover issues a prefetch of a frame against free topsoil grains. -/
  | prefetchIssue (f : Nat)
  /-- R215: All of a prefetched frame's grains are written to topsoil and its lower-tier grains are freed. -/
  | prefetchComplete (f : Nat) (grainBad : Bool)
  /-- R243: A write to an SH register lands in the pending generation of its port. -/
  | shadowWrite (p : SchedId) (r : Fin 19) (v : Word)
  /-- R244: At a hand-over with HOLD 0, the pending generation's writes take effect together. -/
  | handover (p : SchedId)
  /-- R239: FLOW.CMD OP 0 reads a flow record. -/
  | flowRead
  /-- R246: FLOW.CMD OP 1 writes a flow's QUANTUM as a shadowed write. -/
  | flowWriteQuantum (hport : BitVec 9)
  /-- R15: FLOW.CMD OP 2 zeroes a flow's dequeue counters. -/
  | flowZeroDeq
  /-- R234: CLOD.CMD OP 0 brings a clod record up to date and reads it. -/
  | clodRead
  /-- R246: CLOD.CMD OP 1 writes clod words 0–3 as a shadowed write. -/
  | clodWrite (hport : BitVec 9)
  /-- R246: CLOD.CMD OP 2 writes clod words 0–3 and sets both buckets full at commit. -/
  | clodWriteFull (hport : BitVec 9)
  /-- R242: After the line island reaches ON, the block initialises flow and clod records and lists. -/
  | schedInit
  /-- R242: Initialisation ends, DONE is set and EVT_SCHED_INIT_DONE is raised. -/
  | schedInitDone
  /-- R238: The clod refresher brings a clod record up to date. -/
  | clodRefresh (id : BitVec 20)
  /-- R235: A held clod whose Tp becomes positive rejoins the tail of its tier. -/
  | clodRejoin (id : BitVec 20)
  /-- R240: A flow record fetch into the active-flow cache completes. -/
  | cacheFetchDone (pos : Fin 17) (flow : BitVec 26)
  /-- R263: A write or pulse commits the shadow gate list and computes the adoption instant, or is rejected. -/
  | gateCommit (b : BedIx) (p : LocalIx) (v : Word)
  /-- R265: ABORT cancels a pending adoption. -/
  | gateAbort (b : BedIx) (p : LocalIx) (v : Word)
  /-- R264: Time reaches the adoption instant and the shadow list becomes active. -/
  | gateAdopt (b : BedIx) (p : LocalIx)
  /-- R252: A gate list entry boundary is reached and the new gate states apply. -/
  | gateBoundary (b : BedIx) (p : LocalIx)
  /-- R254: Hold is asserted HOLD_ADVANCE before an entry whose HOLD is 1. -/
  | gateHoldAdvance (b : BedIx) (p : LocalIx)
  /-- R260: An open preemptable frame whose gate does not reopen is abandoned and discarded. -/
  | gateAbandon (b : BedIx) (p : LocalIx)
  /-- R250: GATE.CMD OP 0 reads a gate list entry. -/
  | gateListRead (b : BedIx)
  /-- R265: GATE.CMD OP 1 writes a shadow gate list entry, or is refused. -/
  | gateListWrite (b : BedIx)
  /-- R271: A write to ADDEND_FRAC commits the addend pair at the next tick, or is refused. -/
  | addendWrite (k : Fin 10) (v : Word)
  /-- R273: A read of NOW_NS captures the whole time-base value. -/
  | tbNowRead (k : Fin 10)
  /-- R273: GO captures all eight time bases in one tick. -/
  | captureAll
  /-- R275: OP SET gives the time base a new value at the next tick, subject to the jump limit. -/
  | tbSet (k : Fin 10) (v : Word)
  /-- R275: OP STEP adds an offset to the time base at the next tick, subject to the jump limit. -/
  | tbStep (k : Fin 10) (v : Word)
  /-- R275: OP SLEW adds an offset to SLEW_LEFT, to be slewed out at SLEW_PPM. -/
  | tbSlew (k : Fin 10) (v : Word)
  /-- R275: SLEW_LEFT is spent and the slew ends. -/
  | slewEnd (k : Fin 10)
  /-- R277: A write to UNLOCK arms or disarms unlock. -/
  | unlockWrite (k : Fin 10) (v : Word)
  /-- R277: An unconsumed unlock expires after 1 ms. -/
  | unlockExpire (k : Fin 10)
  /-- R293: ACT.CMD OP 0 reads a timed-action slot. -/
  | actRead
  /-- R293: ACT.CMD OP 1 writes a slot, or is refused on an armed slot. -/
  | actWrite
  /-- R291: OP 2 or an ARM_LINE pulse arms a slot at the next tick. -/
  | actArm
  /-- R293: ACT.CMD OP 3 disarms a slot. -/
  | actDisarm
  /-- R290: An armed slot fires at its time, pulsing its line, output or event. -/
  | actFire (k : Fin 8) (slot : Fin 256)
  /-- R289: POP removes the head entry of a transmit timestamp queue. -/
  | tsqPop (b : BedIx) (p : LocalIx) (v : Word)
  /-- R296: A PPS input edge is captured into its queue, or lost if full. -/
  | ppsInEdge (i : Fin 2) (falling : Bool)
  /-- R296: POP removes the head PPS capture. -/
  | ppsInPop (i : Fin 2)
  /-- R297: A PPS output pulse ends after WIDTH ns. -/
  | ppsOutEnd (j : Fin 2)
  /-- R298: GO starts a frequency measurement against the 10 MHz reference. -/
  | ref10Go (v : Word)
  /-- R298: The measurement over 2^N periods ends, or NO_SIGNAL is found. -/
  | ref10Done (elapsed : BitVec 64) (noSignal : Bool)
  /-- R299: A time monitor samples its bases or PPS edge and judges the bound. -/
  | timeMonSample (m : Fin 4) (noEdge : Bool)
  /-- R295: SWITCH or a trigger pulse moves a paired base to its tracker, or is refused. -/
  | pairSwitch (k : Fin 2) (v : Word)
  /-- R295: RETURN or clearing PAIR_EN returns the paired base to PRIMARY. -/
  | pairReturn (k : Fin 2) (v : Word)
  /-- R295: The slewed difference reaches zero and the base follows its tracker. -/
  | pairSwitchDone (k : Fin 2)
  /-- R309: A class interval record becomes final 4 µs after its interval ends and is written. -/
  | intervalSettle
  /-- R313: A telemetry record write is acknowledged and the ring's WR count advances. -/
  | archiveWriteAck (classRing : Bool)
  /-- R317: An event record crosses the sieve as EVENT once credit allows. -/
  | eventRecordSend (evt : BitVec 26)
  /-- R316: Clearing a mask bit whose status bit is set sends an event record. -/
  | evtMaskClear (evt : BitVec 26) (v : Word)
  /-- R330: A write to the doorbell page nudges a ring to fetch its doorbell record. -/
  | nudge (v : Word)
  /-- R328: The poll fetches a polling ring's doorbell record. -/
  | doorbellPoll (r : RingId)
  /-- R329: A fetched doorbell record is judged torn, stale, bad or accepted. -/
  | doorbellRecordArrive (r : RingId) (words : List Word)
  /-- R322: A master read with no response for RD_TIMEOUT_US times out and faults its ring. -/
  | hostReadTimeout (r : RingId)
  /-- R322: A master read or write answered with an error faults the issuing ring. -/
  | hostErrorResponse (r : RingId) (write : Bool)
  /-- R331: Writing EN 1 starts a ring RUNNING with zero counts. -/
  | ringEnable (r : RingId) (v : Word)
  /-- R331: Writing EN 0 moves a running ring to DRAINING. -/
  | ringDisable (r : RingId) (v : Word)
  /-- R331: Writing RESET returns a ring to DISABLED, discarding work in progress. -/
  | ringReset (r : RingId) (v : Word)
  /-- R331: A draining ring has written back everything and becomes DISABLED. -/
  | ringDrained (r : RingId)
  /-- R334: Fetched transmit descriptors arrive and are assembled into sends. -/
  | txDescArrive (t : Fin 512) (descs : List (List Word × List Byte))
  /-- R336: A frame of a send crosses the sieve and is delivered directly or into the recirculation slot. -/
  | txFrameCross (grainBad : Bool)
  /-- R341: A completed send's descriptors are written back in descending order. -/
  | txWriteback (t : Fin 512)
  /-- R341: The line side reports the fate of a TS_REQ frame. -/
  | txFateReport
  /-- R341: TS_WAIT_MS passes without a fate report and the send is written back with TS_EXPIRED. -/
  | tsWaitExpire (t : Fin 512)
  /-- R345: A frame lies whole in the host store and reserves its descriptors, or waits. -/
  | rxFrameArrive
  /-- R345: The short wait expires and the frame is discarded under DROP_RING_EMPTY. -/
  | rxShortWaitExpire (r : Fin 512)
  /-- R346: After the frame's buffer writes, its descriptors are written back and credits returned. -/
  | rxWriteback (r : Fin 512) (addrs : List (BitVec 64))
  /-- R353: Writing ARM arms an interrupt vector. -/
  | vectorArmWrite (v : Fin 256) (w : Word)
  /-- R353: With EN, PENDING and ARMED and MOD_US elapsed, the vector's interrupt message is sent. -/
  | vectorMessage (v : Fin 256)
  /-- R370: A DOORBELL write starts, resumes or marks pending an Auger chain. -/
  | augDoorbell (c : Fin 32) (v : Word)
  /-- R368: PAUSE 1 stops new reads and the channel drains to PAUSED. -/
  | augPause (c : Fin 32) (v : Word)
  /-- R368: PAUSE 0 resumes the channel at CUR and POS. -/
  | augUnpause (c : Fin 32) (v : Word)
  /-- R369: RESUME continues a faulted channel as after a pause. -/
  | augResume (c : Fin 32) (v : Word)
  /-- R370: ABORT drains the channel and leaves it IDLE, not parked. -/
  | augAbort (c : Fin 32) (v : Word)
  /-- R361: A fetched Auger descriptor arrives and is checked and executed. -/
  | augDescArrive (c : Fin 32) (words index : List Word) (err : Bool)
  /-- R355: Export-region data arrives in the staging buffer and is written to the import window. -/
  | augSourceRead (c : Fin 32) (read : List Byte) (err : Bool)
  /-- R366: A write response returns and may complete a descriptor and send its pulse. -/
  | augWriteResponse (c : Fin 32) (i : Nat) (err : Bool)
  /-- R371: A pulse on an event-fabric line reaches every bound consumer. -/
  | fabricPulse (line : Fin 64)
  /-- R377: COMMIT puts a unit's parameter set in force, or is rejected. -/
  | assayCommit (u : Fin 16) (v : Word)
  /-- R378: A parity error in the committed set puts the unit in the fixed fallback. -/
  | assayParityError (u : Fin 16)
  /-- R382: RESYNC zeroes all alive counters and unsyncs all slots. -/
  | assayResync (u : Fin 16) (v : Word)
  /-- R388: A periodic, written or triggered start begins an Assay scan pass. -/
  | scanStart (written : Option Word)
  /-- R387: A scan entry ends, and its check value is learned or compared. -/
  | scanEntryEnd (data : List Byte)
  /-- R404: Writing EN 1 brings up a silt link from DETECT. -/
  | siltEnable (k : Fin 8) (v : Word)
  /-- R414: Writing EN 0 disables a link, or is refused while the module holds grains. -/
  | siltDisable (k : Fin 8) (v : Word)
  /-- R404: A link bring-up stage completes on enough lanes and the link moves on. -/
  | siltStageDone (k : Fin 8) (lanes : BitVec 8) (asks : List EqAsk)
  /-- R404: A link stage timer expires with too few lanes, or an EXCHANGE timeout sends it to GAP. -/
  | siltStageTimeout (k : Fin 8) (lanes : BitVec 8) (asks : List EqAsk)
  /-- R404: In EXCHANGE the block sends CAP every 10 µs. -/
  | siltCapSend (k : Fin 8)
  /-- R405: A received CAP is validated and answered with CAP_ACK. -/
  | siltCapReceive (k : Fin 8) (words : List Word)
  /-- R404: A received CAP_ACK acknowledges the block's CAP and may take the link ACTIVE. -/
  | siltCapAckReceive (k : Fin 8)
  /-- R402: A READ_DATA flit returns a grain to topsoil, or reports ERR. -/
  | readDataReceive (k : Fin 8) (seq ack : BitVec 12) (addr : BitVec 30) (wack : BitVec 5) (err grainBad : Bool)
  /-- R403: A WRITE_ACK acknowledges writes and frees topsoil grains. -/
  | writeAckReceive (k : Fin 8) (seq ack : BitVec 12) (count : BitVec 16)
  /-- R401: A CREDIT flit returns write and read credits. -/
  | creditReceive (k : Fin 8) (seq ack : BitVec 12) (wcred rcred : BitVec 18)
  /-- R400: A NAK makes the transmitter resend from the expected SEQ. -/
  | nakReceive (k : Fin 8) (ack expected : BitVec 12)
  /-- R407: A LANE_FAIL from the module declares a lane lost. -/
  | laneFailReceive (k : Fin 8) (ack : BitVec 12) (i : Fin 8)
  /-- R408: A LANE_MAP_ACK switches the block's transmit to the new lane map. -/
  | laneMapAckReceive (k : Fin 8) (ack : BitVec 12) (map : BitVec 21)
  /-- R410: A MODULE_STATUS flit updates status, raising ATTENTION or faulting the link. -/
  | moduleStatusReceive (k : Fin 8) (seq ack : BitVec 12) (words : List Word)
  /-- R400: REPLAY_NS expires without ACK and the oldest unacknowledged flit is resent. -/
  | replayTimeout (k : Fin 8)
  /-- R409: No progress for LOSS_US faults the link. -/
  | siltLossTimeout (k : Fin 8)
  /-- R407: A lane is lost, and a spare takes its place or the link degrades or faults. -/
  | siltLaneLost (k i : Fin 8)
  /-- R407: LANE_MAP is resent every 1 µs until acknowledged. -/
  | laneMapResend (k : Fin 8)
  /-- R408: An OUT lane holding lock for 1 ms becomes SPARE. -/
  | siltSpareRecover (k i : Fin 8)
  /-- R399: After 64 frames without a flit the transmitter sends a NULL flit. -/
  | siltNullSend (k : Fin 8)
  /-- R404: RETRY_GAP_MS elapses and the link retries or goes to FAILED. -/
  | siltGapRetry (k : Fin 8)
  /-- R411: DETACH starts a planned drain of the module. -/
  | siltDetach (k : Fin 8) (v : Word)
  /-- R411: DRAIN_FORCE discards the frames left in a draining module and completes the detach. -/
  | siltDrainForce (k : Fin 8) (v : Word)
  /-- R411: The draining module holds no grain, and it becomes DETACHED. -/
  | siltDetachDone (k : Fin 8)
  /-- R423: Load START clears the target store and begins a load, or is refused. -/
  | loadStart (v : Word)
  /-- R420: A write to LOAD.DATA delivers the next four image bytes. -/
  | loadData (v : Word)
  /-- R421: FINISH starts the checks of the received image. -/
  | loadFinish (v : Word)
  /-- R423: Load ABORT discards the load and leaves the target EMPTY. -/
  | loadAbort (v : Word)
  /-- R421: The image checks end and the target becomes READY or EMPTY with RESULT set. -/
  | loadCheckDone (storeOk : Bool)
  /-- R425: ASSIGN starts an unserved role on a READY engine, or is refused. -/
  | roleAssign (r : Fin 24) (v : Word)
  /-- R431: HANDOVER sets PENDING_HANDOVER for the role's next safe point. -/
  | roleHandover (r : Fin 24) (v : Word)
  /-- R432: ABORT ends the running routine at its next safe point. -/
  | roleAbort (r : Fin 24) (v : Word)
  /-- R423: CLEAR returns a READY engine to EMPTY. -/
  | engineClear (e : Fin 26)
  /-- R426: An engine halts on parity, illegal word or access error, and its writes since the last safe point are discarded. -/
  | machineCheck (e : Fin 26) (addr : BitVec 14) (flips : BitVec 100) (cfgErr : Bool)
  /-- R426: No safe point within 65,536 cycles raises a watchdog machine check. -/
  | tilthWatchdog (e : Fin 26) (addr : BitVec 14)
  /-- R429: An engine reaches a safe point, commits shadowed settings and writes its resume record. -/
  | safePoint (e : Fin 26) (addr : BitVec 14) (routine : Byte) (record : List Byte) (sets : List (LocalIx × EqAsk))
  /-- R430: The takeover engine starts from the last resume record and the role is served again. -/
  | takeoverDone (r : Fin 24) (storeOk : Bool)
  /-- R439: Every 1,024 cycles the cross sends heartbeat markers into every ON bed. -/
  | heartbeatSend
  /-- R439: No marker returns from a bed path for HB_LIMIT_US, a class 6 detection. -/
  | heartbeatTimeout (b : BedIx)
  /-- R440: A threshold window ends without a declaration and its count restarts. -/
  | harmWindowEnd (cls : Fin 7) (at_ : HarmAt)
  /-- R443: A write to HARM.ACK acknowledges records and may deassert the alarm. -/
  | harmAck (v : Word)
  /-- R442: Writing 1 to a FENCE bit releases a port or bed. -/
  | fenceRelease (w : Fin 9) (v : Word)
  /-- R488: A LOT_HARM_TAKE pulse takes the presented harm record. -/
  | harmTake
  /-- R447: WARM powers BED16 and keeps it ready. -/
  | swapWarm (v : Word)
  /-- R447: START begins a planned swap by reseeding BED16 for the position, or is refused. -/
  | swapStart (v : Word)
  /-- R447: ABORT in RESEED or SHADOW ends the swap with bed b still serving. -/
  | swapAbort (v : Word)
  /-- R447: RETURN starts handing the position back from BED16 to bed b. -/
  | swapReturn (v : Word)
  /-- R454: A reseed pass finds no change and the unit's generation matches. -/
  | reseedMatched (b : BedIx)
  /-- R448: MATCH_MIN consecutive matched frames take the swap to TAKEOVER. -/
  | shadowMatched
  /-- R448: A frame or gate mismatch in SHADOW returns the swap to RESEED or aborts it. -/
  | shadowMismatch
  /-- R449: A port switches receive and transmit from bed b to BED16. -/
  | portSwitch (p : LocalIx)
  /-- R449: Every port has switched and bed b is drained, so BED16 is SERVING. -/
  | bedDrained
  /-- R453: MEM0 has rewritten a bad marl copy and its bad mark clears. -/
  | marlRewriteDone (copy : Fin 2)
  /-- R455: The SAFETY role samples a weathering monitor and compares it with the thresholds. -/
  | wearSample (m : Fin 40) (slow : Nat)
  /-- R456: A failing pseudo-channel starts being copied to a spare channel. -/
  | subsoilRepairStart (stack : Fin 8) (chan : Fin 34) (corrected : Nat) (uncorrectable : Bool)
  /-- R456: The repair copy ends and the old channel is mapped out at run time. -/
  | subsoilRepairDone (stack : Fin 8) (chan : Fin 34)
  /-- R457: An uncorrectable subsoil error discards frames or resets a flow, or marks a marl copy bad. -/
  | uncorrectableError (at_ : MemAt)
  /-- R459: GO starts blowing the lowest empty fuse ledger entry. -/
  | fuseProgGo (v : Word)
  /-- R459: The ledger blow ends and its read-back sets RESULT. -/
  | fuseBlowDone (missed : Word)
  /-- R460: A write to MAP.RT adds a run-time map-out, or is refused for a unit in service. -/
  | mapRtWrite (i : Fin 64) (v : Word)
  /-- R464: LC.REQ GO requests a lifecycle transition, wiping first for RETURNED, or is refused. -/
  | lcRequest (v : Word)
  /-- R464: The lifecycle blow ends and its read-back sets the new state or RESULT BAD. -/
  | lcBlowDone (good : Bool)
  /-- R466: KEY.REVOKE GO blows the revocation fuse of a key slot. -/
  | keyRevoke (v : Word)
  /-- R471: CHAL_REQ issues a new challenge and restarts the token count. -/
  | dbgChalReq (port : Bool) (v : Word)
  /-- R470: A write to DBG.TOKEN or DP.TOKEN delivers the next token word. -/
  | dbgTokenWrite (port : Bool) (v : Word)
  /-- R470: SUBMIT starts the checks of the received debug token. -/
  | dbgSubmit (port : Bool) (v : Word)
  /-- R470: The token checks end, and a session opens, return is armed, or the submission fails. -/
  | tokenCheckDone
  /-- R472: The wipe of topsoil and subsoil ends and the grant or blow follows. -/
  | wipeDone
  /-- R473: CLOSE returns the path's session to CLOSED. -/
  | dbgClose (port : Bool) (v : Word)
  /-- R473: A session's DURATION_S expires and it closes. -/
  | sessionExpire (port : Bool)
  /-- R471: A challenge expires 60 s after issue. -/
  | challengeExpire (port : Bool)
  /-- R470: RETURN_ARMED clears 1 s after it was set. -/
  | returnArmExpire
  /-- R468: A debug port DP.ADDR GO performs a block-window access at the session's level. -/
  | dpAccess (addr data : Word)
  /-- R468: A DP.MEM_CTL GO reads or writes topsoil, subsoil or a control store. -/
  | dpMemAccess (addr : BitVec 64) (ctl : Word) (data : List Word) (grain : Option Nat)
  /-- R468: DP.CTL LINE_REL clears LINE_HOLD for a PORT session at CONTROL or FULL. -/
  | dpLineRelease (v : Word)
  /-- R477: Writing STATE 1 makes sub-islands follow PWR.ISLAND_CTL. -/
  | pwrStateTrim
  /-- R477: Writing STATE 0 powers all sub-islands, each returning fresh. -/
  | pwrStateRun
  /-- R478: Writing STATE 2 closes sessions, holds the line island and powers the block down to the wake island. -/
  | fallowEntry
  /-- R479: A wake request or host reset pin restarts the PLL and the host island in RUN. -/
  | fallowExit
  /-- R400: The silt receiver discards a flit whose CRC fails, whose symbols lie in errored content, or whose SEQ is not the one expected, and sends NAK at the first discard. -/
  | flitDiscard (k lane : Fin 8) (errored : Bool) (bytes : List Byte)
  /-- R399: A received NULL flit carries ACK progress that frees entries from the block's replay buffer. -/
  | nullFlitReceive (k : Fin 8) (ack : BitVec 12)
  /-- R394: After 31 equal content symbols the following symbol equals them, so the receiver counts STUFF_ERR, treats the rest of the frame as errored and resynchronises at the next pointer. -/
  | stuffError (k i : Fin 8) (symbols : List (Fin 4))
  /-- R131: In half duplex, 96 bit times after carrier sense drops, the management port may start its deferred transmission. -/
  | mgmtDeferEnd
  /-- R308: At the end instant of a telemetry interval, END_DEPTH is taken for each recorded port and class and the next interval's record opens. -/
  | intervalEnd
  /-- R328: Within POLL_NS of a torn doorbell record, the block fetches the ring's record again, whatever POLL_EN is. -/
  | tornRecordRefetch (r : RingId)
  /-- R466: The revocation fuse blow ends within 20 ms, BUSY clears and the slot never verifies again. -/
  | keyRevokeDone
  deriving DecidableEq, Repr

end Sys2Proof
end

