-- ==== Sys2Proof/Decode.lean ====
section
/-! DEFINITION. The commands that words spell. No row of spec/opcode_table.json gives bits: its rows are commands that come to
the block on its ports and pins, not words, so no word spells one. -/

namespace Sys2Proof

/-- The command that a word of nbits bits spells by the table's bits: none, for the table gives no row any. -/
def decodeTableWord (_nbits _w : Nat) : Option Instr := none

end Sys2Proof
end

