-- ==== Sys2Proof/Machine/Bits.lean ====
section
/-! DEFINITION. Bit fields of register words (ranges are written [hi:lo], R5 to R7), and byte orders (R6). -/

namespace Sys2Proof.Machine

/-- The mask of the bits [hi:lo]. -/
def fieldMask (hi lo : Nat) : Word := BitVec.ofNat 32 ((2 ^ (hi + 1 - lo) - 1) * 2 ^ lo)

/-- The value of the field [hi:lo]. -/
def fld (hi lo : Nat) (w : Word) : Nat := w.toNat / 2 ^ lo % 2 ^ (hi + 1 - lo)

/-- The word with the field [hi:lo] set to n, taken modulo the field's width. -/
def setFld (hi lo n : Nat) (w : Word) : Word :=
  (w &&& ~~~ fieldMask hi lo) ||| (BitVec.ofNat 32 (n % 2 ^ (hi + 1 - lo) * 2 ^ lo))

/-- One bit of a word. -/
def bit (i : Nat) (w : Word) : Bool := w.getLsbD i

/-- The word with one bit set to a value. -/
def setBit (i : Nat) (v : Bool) (w : Word) : Word :=
  if v then w ||| BitVec.ofNat 32 (2 ^ i) else w &&& ~~~ BitVec.ofNat 32 (2 ^ i)

/-- A truth value as a field's number. -/
def b2n (b : Bool) : Nat := if b then 1 else 0

/-- A word from a number, modulo 2^32. -/
def w32 (n : Nat) : Word := BitVec.ofNat 32 n

/-- A number held to a range. The value of a register field outside its range acts as the nearest bound (R119). -/
def clampTo (lo hi n : Nat) : Nat := max lo (min hi n)

/-- The number a list of bytes spells in network byte order (R6). -/
def beNat : List Byte → Nat
  | bs => bs.foldl (fun a b => a * 256 + b.toNat) 0

/-- The n bytes of a number in network byte order. -/
def beBytes : Nat → Nat → List Byte
  | 0, _ => []
  | n + 1, v => BitVec.ofNat 8 (v / 256 ^ n) :: beBytes n v

/-- The number a list of bytes spells in little-endian order (R6). -/
def leNat : List Byte → Nat
  | [] => 0
  | b :: bs => b.toNat + 256 * leNat bs

/-- The n bytes of a number in little-endian order. -/
def leBytes : Nat → Nat → List Byte
  | 0, _ => []
  | n + 1, v => BitVec.ofNat 8 v :: leBytes n (v / 256)

/-- Byte i of a list, zero beyond its end. -/
def byteAt (bs : List Byte) (i : Nat) : Nat := (bs.getD i 0).toNat

/-- The n bytes from position i; a byte beyond the end reads zero. -/
def bytesAt (bs : List Byte) (i n : Nat) : List Byte :=
  (bs.drop i).take n ++ List.replicate (n - ((bs.drop i).take n).length) 0

/-- The big-endian number in the n bytes from position i. -/
def beAt (bs : List Byte) (i n : Nat) : Nat := beNat (bytesAt bs i n)

/-- The words of a byte list, little-endian, four bytes each (R6). -/
def leWords : List Byte → List Word
  | a :: b :: c :: d :: rest => (d ++ c ++ b ++ a : BitVec 32) :: leWords rest
  | [] => []
  | bs => [BitVec.ofNat 32 (leNat bs)]

/-- The bytes of a word list, little-endian (R6). -/
def wordBytes (ws : List Word) : List Byte := ws.flatMap fun w => leBytes 4 w.toNat

end Sys2Proof.Machine
end

