-- ==== Sys2Proof/Machine/RegMap.lean ====
section
/-! DEFINITION. The register map of the block window (R43, R46 and the register tables of chapters 02 to 19):
for every register its offset, its array strides, its reset value and the access code of its bits (R11).
Bits under no mask are RO or reserved. -/

namespace Sys2Proof.Machine

/-- One register, or one array of registers of one layout, of the spec's register tables.
`dims` lists (stride, count) from the widest stride to the narrowest.
`step` is added to the reset value once for each index of the first array dimension.
The masks name the bits of each access code of R11; `cnt` marks the two words of a 48-bit counter (R99, R302), `evt` an event status register (R315).
`bank` is 1 for a register of the mesh's rule banks (R172), 2 for one of the rewrite banks (R193). -/
structure RegRow where
  base : Nat
  dims : List (Nat × Nat) := []
  reset : Nat := 0
  step : Nat := 0
  rw : Word := 0
  w1c : Word := 0
  w1s : Word := 0
  wo : Word := 0
  sh : Word := 0
  rc : Word := 0
  cnt : Bool := false
  evt : Bool := false
  bank : Nat := 0
  deriving DecidableEq, Repr

/-- The distance r beyond a row's base is a sum of multiples of its strides, each index below its count. -/
def dimsHit : List (Nat × Nat) → Nat → Bool
  | [], r => r == 0
  | (st, ct) :: ds, r => decide (r / st < ct) && dimsHit ds (r % st)

/-- The row holds the register at this offset. -/
def RegRow.hit (row : RegRow) (off : Nat) : Bool :=
  decide (row.base ≤ off) && dimsHit row.dims (off - row.base)

/-- Reset value of the register of a row at an offset (R8). -/
def RegRow.resetAt (row : RegRow) (off : Nat) : Word :=
  match row.dims with
  | [] => BitVec.ofNat 32 row.reset
  | (st, _) :: _ => BitVec.ofNat 32 (row.reset + row.step * ((off - row.base) / st))

/-- Registers at 0x0 to 0xFFFFF: chapters 02, 03, 12, 18, 19 of spec/ (part 0) -/
def rowsHostLow0 : List RegRow := [
  { base := 0, reset := 0x8010001 },  -- ID.HDR0
  { base := 0x4, reset := 0x20 },  -- ID.HDR1
  { base := 0x8, reset := 0x4F4C4B59 },  -- ID.VENDOR
  { base := 0xC, reset := 0x55544F4C },  -- ID.BLOCK0
  { base := 0x10, reset := 0x4D },  -- ID.BLOCK1
  { base := 0x14, reset := 0x20100 },  -- ID.RELEASE
  { base := 0x18, reset := 0x1400 },  -- ID.ORDER
  { base := 0x1C, reset := 0x1F },  -- ID.OPTIONS
  { base := 0x1000, reset := 0x28, w1c := 0x40000000 },  -- CLK.PLL
  { base := 0x1004, reset := 0x1000000 },  -- CLK.RUNNING
  { base := 0x1008, rw := 0x1F, wo := 0x80000000 },  -- CLK.MON_SEL
  { base := 0x100C },  -- CLK.MON_COUNT
  { base := 0x1010, reset := 0x1, rw := 0x1, wo := 0x2 },  -- RST.CTL
  { base := 0x1014, reset := 0x10000, rw := 0x1FFFF },  -- RST.BED
  { base := 0x1018, reset := 0x1, w1c := 0x7F },  -- RST.CAUSE
  { base := 0x101C, rw := 0xFFFFFFFF },  -- RST.LINE_LOSS_LO
  { base := 0x1020, rw := 0xFFFF },  -- RST.LINE_LOSS_HI
  { base := 0x1040, w1c := 0x7, evt := true },  -- BLK.EVT
  { base := 0x1044, rw := 0x7 },  -- BLK.EVT_MASK
  { base := 0x1048, rw := 0xFF },  -- BLK.EVT_ROUTE
  { base := 0x2000, rw := 0x3 },  -- PWR.STATE
  { base := 0x2004, reset := 0x81FEFFFF, rw := 0x81FFFFFF },  -- PWR.ISLAND_CTL
  { base := 0x2008, reset := 0x40000000 },  -- PWR.ISLAND_ON
  { base := 0x200C, w1c := 0xE1FFFFFF },  -- PWR.FAULT
  { base := 0x3000, dims := [(0x4, 64)] },  -- FUSE.ENTRY
  { base := 0x3100, wo := 0x8FFFF000 },  -- FUSE.PROG
  { base := 0x3104 },  -- FUSE.STATUS
  { base := 0x3200, dims := [(0x4, 64)], rw := 0xFFFFFFFF },  -- MAP.RT
  { base := 0x3300, w1c := 0x1, evt := true },  -- FUSE.EVT
  { base := 0x3304, rw := 0x1 }  -- FUSE.EVT_MASK
]

/-- Registers at 0x0 to 0xFFFFF: chapters 02, 03, 12, 18, 19 of spec/ (part 1) -/
def rowsHostLow1 : List RegRow := [
  { base := 0x3308, rw := 0xFF },  -- FUSE.EVT_ROUTE
  { base := 0x4000 },  -- LC.STATE
  { base := 0x4004, rw := 0x3, wo := 0x80000000 },  -- LC.REQ
  { base := 0x4010, wo := 0xE0000000 },  -- DBG.CTL
  { base := 0x4020, dims := [(0x4, 4)] },  -- DBG.CHAL
  { base := 0x4030, wo := 0xFFFFFFFF },  -- DBG.TOKEN
  { base := 0x4034 },  -- DBG.COUNT
  { base := 0x4038 },  -- DBG.LEFT_S
  { base := 0x4040 },  -- KEY.STATUS
  { base := 0x4048, wo := 0x80000107 },  -- KEY.REVOKE
  { base := 0x4050, dims := [(0x30, 8), (0x4, 12)] },  -- KEY.DBG_HASH
  { base := 0x4200, dims := [(0x30, 8), (0x4, 12)] },  -- KEY.IMG_HASH
  { base := 0x4400, dims := [(0x4, 12)] },  -- MEAS
  { base := 0x4430 },  -- MEAS_COUNT
  { base := 0x4480, w1c := 0x3F, evt := true },  -- SEC.EVT
  { base := 0x4484, rw := 0x3F },  -- SEC.EVT_MASK
  { base := 0x4488, rw := 0xFF },  -- SEC.EVT_ROUTE
  { base := 0x4490, rw := 0xFFFFFFFF, cnt := true },  -- CNT_WMAP_REFUSED
  { base := 0x4494, rw := 0xFFFF, cnt := true },  -- CNT_WMAP_REFUSED#HI
  { base := 0x4498 }  -- WMAP_LAST
]

/-- Registers at 0x0 to 0xFFFFF: chapters 02, 03, 12, 18, 19 of spec/. -/
def rowsHostLow : List RegRow := rowsHostLow0 ++ rowsHostLow1

/-- Registers at 0x100000 to 0x1FFFFF: chapter 11 of spec/ (part 0) -/
def rowsTime0 : List RegRow := [
  { base := 0x100000, wo := 0x80000000 },  -- TIME.CAPTURE_ALL
  { base := 0x100040, w1c := 0x7FF, evt := true },  -- TIME.EVT
  { base := 0x100044, rw := 0x7FF },  -- TIME.EVT_MASK
  { base := 0x100048, rw := 0xFF },  -- TIME.EVT_ROUTE
  { base := 0x100100, dims := [(0x10, 8), (0x4, 4)] },  -- TIME.CAP
  { base := 0x101000, dims := [(0x100, 8)], reset := 0xC0000000, rw := 0x80000000, w1c := 0x68000000 },  -- TB.CTL
  { base := 0x101004, dims := [(0x100, 8)], reset := 0x1, rw := 0xF },  -- TB.ADDEND_INT
  { base := 0x101008, dims := [(0x100, 8)], reset := 0x9999999A, rw := 0xFFFFFFFF },  -- TB.ADDEND_FRAC
  { base := 0x10100C, dims := [(0x100, 8)], reset := 0x3E8, rw := 0xFFFFFFFF },  -- TB.JUMP_LIMIT
  { base := 0x101010, dims := [(0x100, 8)], reset := 0xA0000, rw := 0x3FF0007, wo := 0x80000000 },  -- TB.CMD
  { base := 0x101014, dims := [(0x100, 8), (0x4, 4)], rw := 0xFFFFFFFF },  -- TB.ARG
  { base := 0x101024, dims := [(0x100, 8)], wo := 0xFFFFFFFF },  -- TB.UNLOCK
  { base := 0x101028, dims := [(0x100, 8)] },  -- TB.REFUSED_NS
  { base := 0x10102C, dims := [(0x100, 8)] },  -- TB.SLEW_LEFT
  { base := 0x101030, dims := [(0x100, 8), (0x4, 4)] },  -- TB.NOW
  { base := 0x102000, dims := [(0x40, 2)], rw := 0xF800FFFF, w1c := 0x4000000 },  -- PPS.IN.CTL
  { base := 0x102004, dims := [(0x40, 2)], wo := 0x80000000 },  -- PPS.IN.POP
  { base := 0x102008, dims := [(0x40, 2), (0x4, 4)] },  -- PPS.IN.HEAD
  { base := 0x102100, dims := [(0x10, 2)], reset := 0x5F5E100, rw := 0xFFFFFFFF },  -- PPS.OUT.CTL
  { base := 0x102200, reset := 0x14, rw := 0x1C00001F, wo := 0x80000000 },  -- REF10.CTL
  { base := 0x102204 },  -- REF10.MEAS
  { base := 0x103000, rw := 0x700FF },  -- ACT.ADDR
  { base := 0x103004, rw := 0x3, w1c := 0x20000000, wo := 0x80000000 },  -- ACT.CMD
  { base := 0x103010, rw := 0x3FFFFFFF },  -- ACT.DATA0
  { base := 0x103014, dims := [(0x4, 3)], rw := 0xFFFFFFFF },  -- ACT.DATA1
  { base := 0x103020, rw := 0xBFE000 },  -- ACT.DATA4
  { base := 0x103024, rw := 0xBF000000 },  -- ACT.DATA5
  { base := 0x103028, dims := [(0x4, 2)] },  -- ACT.DATA6
  { base := 0x104000, dims := [(0x10, 4)], rw := 0xFF800000 },  -- MON.CTL
  { base := 0x104004, dims := [(0x10, 4)], reset := 0x64, rw := 0xFFFFFFFF }  -- MON.BOUND
]

/-- Registers at 0x100000 to 0x1FFFFF: chapter 11 of spec/ (part 1) -/
def rowsTime1 : List RegRow := [
  { base := 0x104008, dims := [(0x10, 4)], rw := 0xFFFFFFFF },  -- MON.OFFSET
  { base := 0x10400C, dims := [(0x10, 4)] },  -- MON.LAST_DIFF
  { base := 0x180000, dims := [(0x100, 2)], reset := 0xC0000000, rw := 0x80000000, w1c := 0x68000000 },  -- TRK.CTL
  { base := 0x180004, dims := [(0x100, 2)], reset := 0x1, rw := 0xF },  -- TRK.ADDEND_INT
  { base := 0x180008, dims := [(0x100, 2)], reset := 0x9999999A, rw := 0xFFFFFFFF },  -- TRK.ADDEND_FRAC
  { base := 0x18000C, dims := [(0x100, 2)], reset := 0x3E8, rw := 0xFFFFFFFF },  -- TRK.JUMP_LIMIT
  { base := 0x180010, dims := [(0x100, 2)], reset := 0xA0000, rw := 0x3FF0007, wo := 0x80000000 },  -- TRK.CMD
  { base := 0x180014, dims := [(0x100, 2), (0x4, 4)], rw := 0xFFFFFFFF },  -- TRK.ARG
  { base := 0x180024, dims := [(0x100, 2)], wo := 0xFFFFFFFF },  -- TRK.UNLOCK
  { base := 0x180028, dims := [(0x100, 2)] },  -- TRK.REFUSED_NS
  { base := 0x18002C, dims := [(0x100, 2)] },  -- TRK.SLEW_LEFT
  { base := 0x180030, dims := [(0x100, 2), (0x4, 4)] },  -- TRK.NOW
  { base := 0x181000, dims := [(0x10, 2)], reset := 0xA, rw := 0x9FE0000F, wo := 0x60000000 },  -- PAIR.CTL
  { base := 0x181004, dims := [(0x10, 2)], w1c := 0x30000000 },  -- PAIR.STATUS
  { base := 0x181008, dims := [(0x10, 2)] },  -- PAIR.D
  { base := 0x18100C, dims := [(0x10, 2)] }  -- PAIR.LEFT
]

/-- Registers at 0x100000 to 0x1FFFFF: chapter 11 of spec/. -/
def rowsTime : List RegRow := rowsTime0 ++ rowsTime1

/-- Registers at 0x200000 to 0x2FFFFF: chapter 13 of spec/ (part 0) -/
def rowsRings0 : List RegRow := [
  { base := 0x200000, dims := [(0x40, 512)], rw := 0xFFFFFFC0 },  -- TX.BASE
  { base := 0x200004, dims := [(0x40, 512)], rw := 0xFFFFFFFF },  -- TX.BASE#HI
  { base := 0x200008, dims := [(0x40, 512)], rw := 0xFFFFFFF0 },  -- TX.DB
  { base := 0x20000C, dims := [(0x40, 512)], rw := 0xFFFFFFFF },  -- TX.DB#HI
  { base := 0x200010, dims := [(0x40, 512)], reset := 0x40009000, rw := 0xDFFFF000, wo := 0x20000000 },  -- TX.CTL
  { base := 0x200014, dims := [(0x40, 512)], rw := 0x7FFFFF },  -- TX.PARAM
  { base := 0x200018, dims := [(0x40, 512)] },  -- TX.SEEN
  { base := 0x20001C, dims := [(0x40, 512)] },  -- TX.CONS
  { base := 0x200020, dims := [(0x40, 512)] },  -- TX.NEXT
  { base := 0x200024, dims := [(0x40, 512)] },  -- TX.STATUS
  { base := 0x200028, dims := [(0x40, 512)], rw := 0xFFFFFFFF, cnt := true },  -- TX.CNT_RING_DROP
  { base := 0x20002C, dims := [(0x40, 512)], rw := 0xFFFF, cnt := true },  -- TX.CNT_RING_DROP#HI
  { base := 0x208000, dims := [(0x40, 512)], rw := 0xFFFFFFC0 },  -- RX.BASE
  { base := 0x208004, dims := [(0x40, 512)], rw := 0xFFFFFFFF },  -- RX.BASE#HI
  { base := 0x208008, dims := [(0x40, 512)], rw := 0xFFFFFFF0 },  -- RX.DB
  { base := 0x20800C, dims := [(0x40, 512)], rw := 0xFFFFFFFF },  -- RX.DB#HI
  { base := 0x208010, dims := [(0x40, 512)], reset := 0x40009000, rw := 0xD0FFF000, wo := 0x20000000 },  -- RX.CTL
  { base := 0x208014, dims := [(0x40, 512)], rw := 0x7FFF },  -- RX.PARAM
  { base := 0x208018, dims := [(0x40, 512)] },  -- RX.SEEN
  { base := 0x20801C, dims := [(0x40, 512)] },  -- RX.CONS
  { base := 0x208020, dims := [(0x40, 512)] },  -- RX.NEXT
  { base := 0x208024, dims := [(0x40, 512)] },  -- RX.STATUS
  { base := 0x208028, dims := [(0x40, 512)], rw := 0xFFFFFFFF, cnt := true },  -- RX.CNT_RING_DROP
  { base := 0x20802C, dims := [(0x40, 512)], rw := 0xFFFF, cnt := true },  -- RX.CNT_RING_DROP#HI
  { base := 0x210000, dims := [(0x40, 256)], rw := 0xFFFFFFC0 },  -- VEC.BASE
  { base := 0x210004, dims := [(0x40, 256)], rw := 0xFFFFFFFF },  -- VEC.BASE#HI
  { base := 0x210008, dims := [(0x40, 256)], rw := 0xFFFFFFF0 },  -- VEC.DB
  { base := 0x21000C, dims := [(0x40, 256)], rw := 0xFFFFFFFF },  -- VEC.DB#HI
  { base := 0x210010, dims := [(0x40, 256)], reset := 0x40008008, rw := 0xD000F3FF, w1s := 0x8000000, wo := 0x20000000 },  -- VEC.CTL
  { base := 0x210014, dims := [(0x40, 256)] }  -- VEC.PARAM
]

/-- Registers at 0x200000 to 0x2FFFFF: chapter 13 of spec/ (part 1) -/
def rowsRings1 : List RegRow := [
  { base := 0x210018, dims := [(0x40, 256)] },  -- VEC.SEEN
  { base := 0x21001C, dims := [(0x40, 256)] },  -- VEC.WR
  { base := 0x210020, dims := [(0x40, 256)] },  -- VEC.NEXT
  { base := 0x210024, dims := [(0x40, 256)] },  -- VEC.STATUS
  { base := 0x210028, dims := [(0x40, 256)], rw := 0xFFFFFFFF, cnt := true },  -- VEC.CNT_RING_DROP
  { base := 0x21002C, dims := [(0x40, 256)], rw := 0xFFFF, cnt := true },  -- VEC.CNT_RING_DROP#HI
  { base := 0x220000, reset := 0x6403E8, rw := 0xFFFFFFFF },  -- RING.CTL
  { base := 0x220004, reset := 0x6407D0, rw := 0xFFFFFFFF },  -- RING.WAIT
  { base := 0x220040, w1c := 0x7F, evt := true },  -- RING.EVT
  { base := 0x220044, rw := 0x7F },  -- RING.EVT_MASK
  { base := 0x220048, rw := 0xFF },  -- RING.EVT_ROUTE
  { base := 0x220050 },  -- RING.LAST
  { base := 0x220100, dims := [(0x8, 13)], rw := 0xFFFFFFFF, cnt := true },  -- RING.CNT
  { base := 0x220104, dims := [(0x8, 13)], rw := 0xFFFF, cnt := true }  -- RING.CNT#HI
]

/-- Registers at 0x200000 to 0x2FFFFF: chapter 13 of spec/. -/
def rowsRings : List RegRow := rowsRings0 ++ rowsRings1

/-- Registers at 0x300000 to 0x37FFFF: chapter 14 of spec/ -/
def rowsAuger : List RegRow := [
  { base := 0x300000, dims := [(0x40, 32)], rw := 0x8000007F, wo := 0x60000000 },  -- CH.CTL
  { base := 0x300004, dims := [(0x40, 32)], rw := 0xFFFFFFE0 },  -- CH.HEAD_LO
  { base := 0x300008, dims := [(0x40, 32)], rw := 0xFFFFFFFF },  -- CH.HEAD_HI
  { base := 0x30000C, dims := [(0x40, 32)], wo := 0x80000000 },  -- CH.DOORBELL
  { base := 0x300010, dims := [(0x40, 32)] },  -- CH.STATE
  { base := 0x300014, dims := [(0x40, 32), (0x4, 2)] },  -- CH.CUR
  { base := 0x30001C, dims := [(0x40, 32)] },  -- CH.POS
  { base := 0x301000, rw := 0x3 },  -- AUG.EXPORT
  { base := 0x301040, w1c := 0x3, evt := true },  -- AUG.EVT
  { base := 0x301044, rw := 0x3 },  -- AUG.EVT_MASK
  { base := 0x301048, rw := 0xFF },  -- AUG.EVT_ROUTE
  { base := 0x301100, dims := [(0x10, 16)], rw := 0xFFFF0000 },  -- IMPORT.BASE_LO
  { base := 0x301104, dims := [(0x10, 16)], rw := 0xFFFFFFFF },  -- IMPORT.BASE_HI
  { base := 0x301108, dims := [(0x10, 16)], rw := 0xFFFFFFFF },  -- IMPORT.SIZE
  { base := 0x30110C, dims := [(0x10, 16)], rw := 0x80000000 },  -- IMPORT.CTL
  { base := 0x301200, dims := [(0x4, 16)], rw := 0xBF00C1FF },  -- AUG.NUDGE
  { base := 0x301300, rw := 0xFFFFFFFF, cnt := true },  -- CNT_AUG_FAULT
  { base := 0x301304, rw := 0xFFFF, cnt := true }  -- CNT_AUG_FAULT#HI
]

/-- Registers at 0x380000 to 0x3FFFFF: chapter 15 of spec/ -/
def rowsAssay : List RegRow := [
  { base := 0x380000, dims := [(0x40, 16)], reset := 0x1EDC6F41, rw := 0xFFFFFFFF },  -- UNIT.POLY_LO
  { base := 0x380004, dims := [(0x40, 16)], rw := 0xFFFFFFFF },  -- UNIT.POLY_HI
  { base := 0x380008, dims := [(0x40, 16)], reset := 0xFFFFFFFF, rw := 0xFFFFFFFF },  -- UNIT.INIT_LO
  { base := 0x38000C, dims := [(0x40, 16)], rw := 0xFFFFFFFF },  -- UNIT.INIT_HI
  { base := 0x380010, dims := [(0x40, 16)], reset := 0xFFFFFFFF, rw := 0xFFFFFFFF },  -- UNIT.XOROUT_LO
  { base := 0x380014, dims := [(0x40, 16)], rw := 0xFFFFFFFF },  -- UNIT.XOROUT_HI
  { base := 0x380018, dims := [(0x40, 16)], reset := 0x30000020, rw := 0x70FF007F, w1c := 0xA000000, wo := 0x80000000 },  -- UNIT.CFG
  { base := 0x38001C, dims := [(0x40, 16)], wo := 0x80000000 },  -- UNIT.RESYNC
  { base := 0x380800, dims := [(0x40, 16), (0x8, 7)], rw := 0xFFFFFFFF, cnt := true },  -- ASSAY.CNT
  { base := 0x380804, dims := [(0x40, 16), (0x8, 7)], rw := 0xFFFF, cnt := true },  -- ASSAY.CNT#HI
  { base := 0x382000, reset := 0x1D4C, rw := 0xBF80FFFF, w1c := 0x400000, wo := 0x40000000 },  -- SCAN.CTL
  { base := 0x382100, dims := [(0x20, 32)], rw := 0xE30F0000, w1c := 0x10000000 },  -- SCAN.ENTRY.CTL
  { base := 0x382104, dims := [(0x20, 32)], rw := 0xFFFFFFC0 },  -- SCAN.ENTRY.START
  { base := 0x382108, dims := [(0x20, 32)], reset := 0x40, rw := 0xFFFFFFC0 },  -- SCAN.ENTRY.LEN
  { base := 0x38210C, dims := [(0x20, 32), (0x4, 2)], rw := 0xFFFFFFFF },  -- SCAN.ENTRY.REF
  { base := 0x382114, dims := [(0x20, 32), (0x4, 2)] },  -- SCAN.ENTRY.LAST
  { base := 0x383000, w1c := 0x1FF, evt := true },  -- ASSAY.EVT
  { base := 0x383004, rw := 0x1FF },  -- ASSAY.EVT_MASK
  { base := 0x383008, rw := 0xFF },  -- ASSAY.EVT_ROUTE
  { base := 0x384000, dims := [(0x4, 256)], rw := 0x8F0100FF }  -- ASSAY.RX
]

/-- Registers at 0x400000 to 0x47FFFF: chapters 08, 18 of spec/ (part 0) -/
def rowsTiers0 : List RegRow := [
  { base := 0x400000, reset := 0xC0000000, rw := 0xC0000000 },  -- TIER.CTL
  { base := 0x400004, reset := 0x800, rw := 0xFFFFFFFF },  -- TIER.SPILL_DEPTH
  { base := 0x400008, reset := 0x40000, rw := 0xFFFFFFFF },  -- TIER.HARDPAN_DEPTH
  { base := 0x40000C, reset := 0x200, rw := 0xFFFFFFFF },  -- TIER.PREFETCH_AHEAD
  { base := 0x400010, reset := 0x4 },  -- TIER.STATUS
  { base := 0x400040, w1c := 0xF, evt := true },  -- TIER.EVT
  { base := 0x400044, rw := 0xF },  -- TIER.EVT_MASK
  { base := 0x400048, rw := 0xFF },  -- TIER.EVT_ROUTE
  { base := 0x400100, dims := [(0x20, 3), (0x4, 2)] },  -- TIER.OCC
  { base := 0x400108, reset := 0x120000, rw := 0xFFFFFFFF },  -- TIER.LIMIT_LO0
  { base := 0x40010C, rw := 0xFFFF },  -- TIER.LIMIT_HI0
  { base := 0x400128, dims := [(0x20, 2)], reset := 0xFFFFFFFF, rw := 0xFFFFFFFF },  -- TIER.LIMIT_LO
  { base := 0x40012C, dims := [(0x20, 2)], reset := 0xFFFF, rw := 0xFFFF },  -- TIER.LIMIT_HI
  { base := 0x400110, reset := 0x140000 },  -- TIER.CAP_LO0
  { base := 0x400114 },  -- TIER.CAP_HI0
  { base := 0x400130, reset := 0x7CE00000 },  -- TIER.CAP_LO1
  { base := 0x400134 },  -- TIER.CAP_HI1
  { base := 0x400150, dims := [(0x4, 2)] },  -- TIER.CAP2
  { base := 0x400200, dims := [(0x8, 6)], rw := 0xFFFFFFFF, cnt := true },  -- TIER.CNT
  { base := 0x400204, dims := [(0x8, 6)], rw := 0xFFFF, cnt := true },  -- TIER.CNT#HI
  { base := 0x404000, dims := [(0x4, 17)] },  -- MARL.GEN
  { base := 0x404080 },  -- MARL.STATUS
  { base := 0x404084, reset := 0x40, rw := 0xFFFF },  -- MEM.CFG
  { base := 0x410000, dims := [(0x10, 8)], reset := 0x100000, rw := 0xFFFFFFFF },  -- ADM.CLASS.FLOW_LIMIT
  { base := 0x410004, dims := [(0x10, 8)], reset := 0x200000, rw := 0xFFFFFFFF },  -- ADM.CLASS.CLOD_LIMIT
  { base := 0x410008, dims := [(0x10, 8)], reset := 0xC0008, rw := 0x1F001F },  -- ADM.CLASS.FRAC
  { base := 0x418000, rw := 0xFFFFF },  -- METER.ADDR
  { base := 0x418004, rw := 0x3, wo := 0x80000000 },  -- METER.CMD
  { base := 0x418010, dims := [(0x4, 2)], rw := 0xFFFFFFFF },  -- METER.DATA0
  { base := 0x418018, rw := 0xE0FFFFFF }  -- METER.DATA2
]

/-- Registers at 0x400000 to 0x47FFFF: chapters 08, 18 of spec/ (part 1) -/
def rowsTiers1 : List RegRow := [
  { base := 0x41801C, rw := 0xFFFFFF },  -- METER.DATA3
  { base := 0x418020, dims := [(0x4, 3)], rw := 0xFFFFFFFF },  -- METER.DATA4
  { base := 0x41802C },  -- METER.DATA7
  { base := 0x420000, dims := [(0x100, 257), (0x20, 8)], reset := 0x40000, rw := 0xFFFFFFFF },  -- ADM.PCLASS.STATIC
  { base := 0x430200, dims := [(0x20, 8)], reset := 0x40000, rw := 0xFFFFFFFF },  -- ADM.PCLASS.STATIC#258
  { base := 0x420004, dims := [(0x100, 257), (0x20, 8)], reset := 0x8, rw := 0xF },  -- ADM.PCLASS.ALPHA
  { base := 0x430204, dims := [(0x20, 8)], reset := 0x8, rw := 0xF },  -- ADM.PCLASS.ALPHA#258
  { base := 0x420008, dims := [(0x100, 257), (0x20, 8)], rw := 0xFFFFFFFF },  -- ADM.PCLASS.ECN_MIN
  { base := 0x430208, dims := [(0x20, 8)], rw := 0xFFFFFFFF },  -- ADM.PCLASS.ECN_MIN#258
  { base := 0x42000C, dims := [(0x100, 257), (0x20, 8)], rw := 0xFFFFFFFF },  -- ADM.PCLASS.ECN_MAX
  { base := 0x43020C, dims := [(0x20, 8)], rw := 0xFFFFFFFF },  -- ADM.PCLASS.ECN_MAX#258
  { base := 0x420010, dims := [(0x100, 257), (0x20, 8)], reset := 0xFFFF, rw := 0xC000FFFF },  -- ADM.PCLASS.ECN
  { base := 0x430210, dims := [(0x20, 8)], reset := 0xFFFF, rw := 0xC000FFFF },  -- ADM.PCLASS.ECN#258
  { base := 0x420014, dims := [(0x100, 259), (0x20, 8), (0x4, 2)] },  -- ADM.PCLASS.OCC
  { base := 0x440000, dims := [(0x10, 256)], reset := 0x10000, rw := 0xFFFFFFFF },  -- ADM.INGRESS.XOFF
  { base := 0x440004, dims := [(0x10, 256)], reset := 0xC000, rw := 0xFFFFFFFF },  -- ADM.INGRESS.XON
  { base := 0x440008, dims := [(0x10, 256)], rw := 0xFF },  -- ADM.INGRESS.CTL
  { base := 0x450000, dims := [(0x8, 11)], rw := 0xFFFFFFFF, cnt := true },  -- ADM.CNT
  { base := 0x450004, dims := [(0x8, 11)], rw := 0xFFFF, cnt := true },  -- ADM.CNT#HI
  { base := 0x450100, w1c := 0x3FF, evt := true },  -- ADM.EVT
  { base := 0x450104, rw := 0x3FF },  -- ADM.EVT_MASK
  { base := 0x450108, rw := 0xFF }  -- ADM.EVT_ROUTE
]

/-- Registers at 0x400000 to 0x47FFFF: chapters 08, 18 of spec/. -/
def rowsTiers : List RegRow := rowsTiers0 ++ rowsTiers1

/-- Registers at 0x480000 to 0x4FFFFF: chapter 16 of spec/ (part 0) -/
def rowsSilt0 : List RegRow := [
  { base := 0x480000, dims := [(0x1000, 8)], reset := 0x64, rw := 0x8000FFFF, w1c := 0x10000000, wo := 0x60000000 },  -- SILT.CTL
  { base := 0x480004, dims := [(0x1000, 8)], reset := 0x1F400C8, rw := 0xFFFFFFFF },  -- SILT.TIMEOUT0
  { base := 0x480008, dims := [(0x1000, 8)], reset := 0x32000A, rw := 0xFFFFFFFF },  -- SILT.TIMEOUT1
  { base := 0x48000C, dims := [(0x1000, 8)], reset := 0xA, rw := 0xFFFF },  -- SILT.RETRY
  { base := 0x480010, dims := [(0x1000, 8)] },  -- SILT.STATUS
  { base := 0x480014, dims := [(0x1000, 8)] },  -- SILT.MAP
  { base := 0x480018, dims := [(0x1000, 8)], reset := 0x800007D0, rw := 0xF000FFFF },  -- SILT.REPLAY
  { base := 0x48001C, dims := [(0x1000, 8)], reset := 0x3E80010, rw := 0xFFFF00FF },  -- SILT.SPARE_CFG
  { base := 0x480020, dims := [(0x1000, 8)], reset := 0x10000, rw := 0xFFFFFFFF },  -- SILT.DRAIN
  { base := 0x480030, dims := [(0x1000, 8), (0x4, 4)] },  -- SILT.MOD_CAP
  { base := 0x480040, dims := [(0x1000, 8), (0x4, 3)] },  -- SILT.MOD_STATUS
  { base := 0x480050, dims := [(0x1000, 8), (0x4, 2)] },  -- SILT.HELD
  { base := 0x480080, dims := [(0x1000, 8), (0x8, 7)], rw := 0xFFFFFFFF, cnt := true },  -- SILT.CNT
  { base := 0x480084, dims := [(0x1000, 8), (0x8, 7)], rw := 0xFFFF, cnt := true },  -- SILT.CNT#HI
  { base := 0x480100, dims := [(0x1000, 8)], w1c := 0xFFF, evt := true },  -- SILT.EVT
  { base := 0x480104, dims := [(0x1000, 8)], rw := 0xFFF },  -- SILT.EVT_MASK
  { base := 0x480108, dims := [(0x1000, 8)], rw := 0xFF },  -- SILT.EVT_ROUTE
  { base := 0x490000, dims := [(0x1000, 64)], rw := 0xF000073, wo := 0x80000000 },  -- SLANE.CTL
  { base := 0x490004, dims := [(0x1000, 64)] },  -- SLANE.STATUS
  { base := 0x490010, dims := [(0x1000, 64)], reset := 0x100304, rw := 0x1F070F },  -- SLANE.BOARD_EQ
  { base := 0x490014, dims := [(0x1000, 64)], rw := 0xFFFFFF },  -- SLANE.BOARD_FIR0
  { base := 0x490018, dims := [(0x1000, 64)], reset := 0x3F, rw := 0xFFFFFF },  -- SLANE.BOARD_FIR1
  { base := 0x490020, dims := [(0x1000, 64)] },  -- SLANE.EQ_NOW
  { base := 0x490024, dims := [(0x1000, 64)] },  -- SLANE.FIR_NOW0
  { base := 0x490028, dims := [(0x1000, 64)], reset := 0x3F },  -- SLANE.FIR_NOW1
  { base := 0x490040, dims := [(0x1000, 64)], w1c := 0x7F, evt := true },  -- SLANE.EVT
  { base := 0x490044, dims := [(0x1000, 64)], rw := 0x7F },  -- SLANE.EVT_MASK
  { base := 0x490048, dims := [(0x1000, 64)], rw := 0xFF },  -- SLANE.EVT_ROUTE
  { base := 0x490080, dims := [(0x1000, 64)], rw := 0x30107, wo := 0x80000000 },  -- SLANE.PRBS_CTL
  { base := 0x490084, dims := [(0x1000, 64)], rw := 0x8FF0FF00 }  -- SLANE.PRBS_INJ
]

/-- Registers at 0x480000 to 0x4FFFFF: chapter 16 of spec/ (part 1) -/
def rowsSilt1 : List RegRow := [
  { base := 0x490088, dims := [(0x1000, 64), (0x4, 2)], rw := 0xFFFFFFFF },  -- SLANE.PRBS_USER
  { base := 0x490090, dims := [(0x1000, 64)], w1c := 0x40000000 },  -- SLANE.PRBS_STAT
  { base := 0x490098, dims := [(0x1000, 64), (0x8, 3)], rw := 0xFFFFFFFF, cnt := true },  -- SLANE.CNTA
  { base := 0x49009C, dims := [(0x1000, 64), (0x8, 3)], rw := 0xFFFF, cnt := true },  -- SLANE.CNTA#HI
  { base := 0x4900E0, dims := [(0x1000, 64), (0x8, 3)], rw := 0xFFFFFFFF, cnt := true },  -- SLANE.CNTS
  { base := 0x4900E4, dims := [(0x1000, 64), (0x8, 3)], rw := 0xFFFF, cnt := true }  -- SLANE.CNTS#HI
]

/-- Registers at 0x480000 to 0x4FFFFF: chapter 16 of spec/. -/
def rowsSilt : List RegRow := rowsSilt0 ++ rowsSilt1

/-- Registers at 0x500000 to 0x5FFFFF: chapters 07, 09 of spec/ -/
def rowsSched : List RegRow := [
  { base := 0x500000 },  -- SCHED.INIT
  { base := 0x500100, rw := 0x3FFFFFF },  -- FLOW.ADDR
  { base := 0x500104, rw := 0x19FF0000, w1c := 0x20000000, wo := 0x80000000 },  -- FLOW.CMD
  { base := 0x500140, dims := [(0x4, 1)], rw := 0xFFFFFFFF },  -- FLOW.DATA
  { base := 0x500144, rw := 0xE0FFFFFF },  -- FLOW.DATA#1
  { base := 0x500148, dims := [(0x4, 14)], rw := 0xFFFFFFFF },  -- FLOW.DATA#2
  { base := 0x500200, rw := 0xFFFFF },  -- CLOD.ADDR
  { base := 0x500204, rw := 0x19FF0000, w1c := 0x20000000, wo := 0x80000000 },  -- CLOD.CMD
  { base := 0x500240, dims := [(0x4, 3)], rw := 0xFFFFFFFF },  -- CLOD.DATA
  { base := 0x50024C, rw := 0x80FFFFFF },  -- CLOD.DATA#3
  { base := 0x500250, dims := [(0x4, 4)], rw := 0xFFFFFFFF },  -- CLOD.DATA#4
  { base := 0x501000, reset := 0x61A80, sh := 0x3FFFFF },  -- HSCHED.RATE0
  { base := 0x501100, reset := 0x3E8, sh := 0x3FFFFF },  -- HSCHED.RATE1
  { base := 0x501004, dims := [(0x100, 2)], reset := 0x4000, sh := 0xFFFF },  -- HSCHED.BURST
  { base := 0x501008, dims := [(0x100, 2)], rw := 0x80000000 },  -- HSCHED.GEN
  { base := 0x50100C, dims := [(0x100, 2)], sh := 0x3F },  -- HSCHED.DRR
  { base := 0x501010, dims := [(0x100, 2), (0x4, 8)], reset := 0x1000800, sh := 0xFFFFFFFF },  -- HSCHED.CLASS
  { base := 0x501050, dims := [(0x100, 2), (0x4, 8)] },  -- HSCHED.ROUND
  { base := 0x501F00 },  -- SCHED.HOST_SH_ACK
  { base := 0x502000, dims := [(0x40, 17), (0x8, 6)], rw := 0xFFFFFFFF, cnt := true },  -- SCHED.POSCNT
  { base := 0x502004, dims := [(0x40, 17), (0x8, 6)], rw := 0xFFFF, cnt := true },  -- SCHED.POSCNT#HI
  { base := 0x503000, w1c := 0x1F, evt := true },  -- SCHED.GEVT
  { base := 0x503004, rw := 0x1F },  -- SCHED.GEVT_MASK
  { base := 0x503008, rw := 0xFF },  -- SCHED.GEVT_ROUTE
  { base := 0x5C0000, rw := 0x8000FFFF },  -- REPL.ADDR
  { base := 0x5C0004, rw := 0x3, w1c := 0x20000000, wo := 0x80000000 },  -- REPL.CMD
  { base := 0x5C0010, dims := [(0x4, 4)], rw := 0xFFFFFFFF }  -- REPL.DATA
]

/-- Registers at 0x600000 to 0x6FFFFF: chapter 17 of spec/ -/
def rowsTilth : List RegRow := [
  { base := 0x600000, dims := [(0x20, 26)], reset := 0x1F000000 },  -- ENG.STATUS
  { base := 0x600004, dims := [(0x20, 26)] },  -- ENG.MC
  { base := 0x600008, dims := [(0x20, 26)] },  -- ENG.VERSION
  { base := 0x60000C, dims := [(0x20, 26)] },  -- ENG.ROLE_MASK
  { base := 0x601000, dims := [(0x20, 24)], reset := 0x8000, step := 0x1000000, rw := 0x1FBF8000, wo := 0xE0000000 },  -- ROLE.CTL
  { base := 0x601004, dims := [(0x20, 24)], reset := 0x1F000000, w1c := 0x20000000 },  -- ROLE.STATUS
  { base := 0x602000, rw := 0x1F0000, wo := 0xE0000000 },  -- LOAD.CTL
  { base := 0x602004, wo := 0xFFFFFFFF },  -- LOAD.DATA
  { base := 0x602008 },  -- LOAD.COUNT
  { base := 0x60200C, rw := 0xFFFFFFFF },  -- MIN_VERSION
  { base := 0x603000, w1c := 0xFF, evt := true },  -- TILTH.EVT
  { base := 0x603004, rw := 0xFF },  -- TILTH.EVT_MASK
  { base := 0x603008, rw := 0xFF },  -- TILTH.EVT_ROUTE
  { base := 0x603100, dims := [(0x8, 4)], rw := 0xFFFFFFFF, cnt := true },  -- TILTH.CNT
  { base := 0x603104, dims := [(0x8, 4)], rw := 0xFFFF, cnt := true }  -- TILTH.CNT#HI
]

/-- Registers at 0x700000 to 0x73FFFF: chapter 18 of spec/ -/
def rowsSafety : List RegRow := [
  { base := 0x700004, reset := 0x83E80010, rw := 0xFFFF00FF },  -- HARM.CTL1
  { base := 0x700008, reset := 0x83E80001, rw := 0xFFFF00FF },  -- HARM.CTL2
  { base := 0x70000C, dims := [(0x4, 2)], reset := 0x43E80001, rw := 0xFFFF00FF },  -- HARM.CTL34
  { base := 0x700014, dims := [(0x4, 2)], reset := 0x83E80001, rw := 0xFFFF00FF },  -- HARM.CTL56
  { base := 0x700040, w1c := 0x40000000 },  -- HARM.STATUS
  { base := 0x700044, wo := 0xFFFF },  -- HARM.ACK
  { base := 0x700050, reset := 0x64, rw := 0x3FFF },  -- HB.CTL
  { base := 0x700080, w1c := 0x3FF, evt := true },  -- SAFE.EVT
  { base := 0x700084, rw := 0x3FF },  -- SAFE.EVT_MASK
  { base := 0x700088, rw := 0xFF },  -- SAFE.EVT_ROUTE
  { base := 0x700100, dims := [(0x10, 16), (0x4, 4)] },  -- HARM.LOG
  { base := 0x700200, dims := [(0x4, 8)], w1c := 0xFFFFFFFF },  -- FENCE.PORT
  { base := 0x700220, w1c := 0x1FFFF },  -- FENCE.BED
  { base := 0x700300, dims := [(0x8, 6)], rw := 0xFFFFFFFF, cnt := true },  -- SAFE.CNT
  { base := 0x700304, dims := [(0x8, 6)], rw := 0xFFFF, cnt := true },  -- SAFE.CNT#HI
  { base := 0x701000, dims := [(0x4, 40)] },  -- WEAR
  { base := 0x701100, reset := 0x3C, rw := 0xFFFF },  -- WEAR.CFG
  { base := 0x701104, reset := 0x1E320000, rw := 0xFFFF0000 }  -- WEAR.THRESH
]

/-- Registers at 0x740000 to 0x7FFFFF: chapter 12 of spec/ -/
def rowsTel : List RegRow := [
  { base := 0x740000, rw := 0xFC000000 },  -- TEL.CTL
  { base := 0x740004, reset := 0x3E8, rw := 0xFFFFF },  -- TEL.INTERVAL
  { base := 0x740008, reset := 0x404, rw := 0x3F3F },  -- TEL.ARCH_CFG
  { base := 0x74000C, reset := 0x404 },  -- TEL.ARCH_NOW
  { base := 0x740010, dims := [(0x4, 2)] },  -- TEL.FLOW_WR
  { base := 0x740018, dims := [(0x4, 2)] },  -- TEL.CLASS_WR
  { base := 0x740020, dims := [(0x4, 2)] },  -- TEL.CLASS_LAST
  { base := 0x740040, dims := [(0x4, 8)], reset := 0x6, rw := 0x8000000F },  -- TEL.FLOW_SAMPLE
  { base := 0x740080, w1c := 0x7, evt := true },  -- TEL.EVT
  { base := 0x740084, rw := 0x7 },  -- TEL.EVT_MASK
  { base := 0x740088, rw := 0xFF },  -- TEL.EVT_ROUTE
  { base := 0x740100, dims := [(0x8, 3)], rw := 0xFFFFFFFF, cnt := true },  -- TEL.CNT
  { base := 0x740104, dims := [(0x8, 3)], rw := 0xFFFF, cnt := true },  -- TEL.CNT#HI
  { base := 0x741000, dims := [(0x4, 257)], rw := 0xFF },  -- TEL.CLASS_MASK
  { base := 0x741408, rw := 0xFF },  -- TEL.CLASS_MASK#258
  { base := 0x742000, dims := [(0x100, 17), (0x8, 12)], rw := 0xFFFFFFFF, cnt := true },  -- TEL.DROP
  { base := 0x742004, dims := [(0x100, 17), (0x8, 12)], rw := 0xFFFF, cnt := true },  -- TEL.DROP#HI
  { base := 0x780000, dims := [(0x4, 64)], rw := 0x801F00FF },  -- PMU.LINE
  { base := 0x780100, dims := [(0x4, 8)], rw := 0x8FFFFFFF },  -- PMU.OCC
  { base := 0x780200, dims := [(0x4, 2)], w1c := 0xFFFFFFFF }  -- PMU.OVF
]

/-- Registers at 0x800000 to 0xFFFFFF: chapter 05 of spec/ -/
def rowsMgmt : List RegRow := [
  { base := 0x800000, reset := 0x8A005F2, rw := 0xFFEF3FFF },  -- MGMT.CTL
  { base := 0x800004 },  -- MGMT.STATUS
  { base := 0x800008, rw := 0x1FF },  -- MGMT.BAD_RING
  { base := 0x800040, w1c := 0xFF, evt := true },  -- MGMT.EVT
  { base := 0x800044, rw := 0xFF },  -- MGMT.EVT_MASK
  { base := 0x800048, rw := 0xFF },  -- MGMT.EVT_ROUTE
  { base := 0x800100, dims := [(0x8, 32)], rw := 0xFFFFFFFF },  -- MGMT.DAF_LO
  { base := 0x800104, dims := [(0x8, 32)], rw := 0x8000FFFF },  -- MGMT.DAF_HI
  { base := 0x800200, rw := 0x3FFEFFFF, wo := 0x80000000 },  -- MDIO.CTL
  { base := 0x800204 },  -- MDIO.RDATA
  { base := 0x800208, reset := 0x19, rw := 0xFF },  -- MDIO.CLK
  { base := 0x800400, rw := 0x800000FF },  -- WAKE.CTL
  { base := 0x800404, rw := 0xFFFFFFFF },  -- WAKE.ADDR_LO
  { base := 0x800408, rw := 0xFFFF },  -- WAKE.ADDR_HI
  { base := 0x80040C, w1c := 0xC0000000 },  -- WAKE.STATUS
  { base := 0x800500, dims := [(0x80, 8)], rw := 0x7F7F },  -- WAKE.PAT.CTL
  { base := 0x800508, dims := [(0x80, 8), (0x4, 2)], rw := 0xFFFFFFFF },  -- WAKE.PAT.MASK
  { base := 0x800540, dims := [(0x80, 8), (0x4, 16)], rw := 0xFFFFFFFF },  -- WAKE.PAT.BYTE
  { base := 0x808048, dims := [(0x4, 2)] },  -- MGMT.STAT.CNT[9]
  { base := 0x8080E0, dims := [(0x4, 2)] },  -- MGMT.STAT.CNT[28]
  { base := 0x8080F8, dims := [(0x4, 2)] },  -- MGMT.STAT.CNT[31]
  { base := 0x808148, dims := [(0x4, 2)] },  -- MGMT.STAT.CNT[41]
  { base := 0x8081D8, dims := [(0x4, 2)] },  -- MGMT.STAT.CNT[59]
  { base := 0x8081E0, dims := [(0x4, 2)] },  -- MGMT.STAT.CNT[60]
  { base := 0x8081F0, dims := [(0x4, 2)] },  -- MGMT.STAT.CNT[62]
  { base := 0x808000, dims := [(0x8, 64)], rw := 0xFFFFFFFF, cnt := true },  -- MGMT.STAT.CNT
  { base := 0x808004, dims := [(0x8, 64)], rw := 0xFFFF, cnt := true },  -- MGMT.STAT.CNT#HI
  { base := 0x808200, dims := [(0x4, 128)], rc := 0xFFFFFFFF },  -- MGMT.STAT.SNAP
  { base := 0x808400, wo := 0xC0000000 },  -- MGMT.STAT.CTL
  { base := 0x808408, dims := [(0x4, 2)], w1c := 0xFFFFFFFF },  -- MGMT.STAT.HALF
  { base := 0x808410, dims := [(0x4, 2)], w1c := 0xFFFFFFFF }  -- MGMT.STAT.WRAP
]

/-- Registers at 0x2000000 to 0x2000007: chapter 18 of spec/ -/
def rowsSwap : List RegRow := [
  { base := 0x2000000, reset := 0x8001000, rw := 0x180FFFFF, wo := 0xE0000000 },  -- SWAP.CTL
  { base := 0x2000004, w1c := 0x80000 }  -- SWAP.STATUS
]

/-- Bed window, offsets +0x0 to +0xFFFF (R46): chapters 04, 12 of spec/ -/
def rowsBedCtl : List RegRow := [
  { base := 0x1001000, dims := [(0x100000, 17), (0x40, 16)], reset := 0x60640000, rw := 0xEFFF0FFF },  -- PORT.FORM
  { base := 0x1001004, dims := [(0x100000, 17), (0x40, 16)], reset := 0x1F400C8, rw := 0xFFFFFFFF },  -- PORT.TIMEOUT0
  { base := 0x1001008, dims := [(0x100000, 17), (0x40, 16)], reset := 0x32000A, rw := 0xFFFFFFFF },  -- PORT.TIMEOUT1
  { base := 0x100100C, dims := [(0x100000, 17), (0x40, 16)], reset := 0xC8000A, rw := 0xFFFFFFFF },  -- PORT.RETRY
  { base := 0x1001010, dims := [(0x100000, 17), (0x40, 16)], w1c := 0x100 },  -- PORT.STATUS
  { base := 0x1001014, dims := [(0x100000, 17), (0x40, 16)], rw := 0xFFFFFFFF },  -- PORT.COUNT
  { base := 0x1001018, dims := [(0x100000, 17), (0x40, 16)], w1c := 0x7F, evt := true },  -- PORT.EVT
  { base := 0x100101C, dims := [(0x100000, 17), (0x40, 16)], rw := 0x7F },  -- PORT.EVT_MASK
  { base := 0x1001020, dims := [(0x100000, 17), (0x40, 16)], rw := 0xFF }  -- PORT.EVT_ROUTE
]

/-- Bed window, offsets +0x10000 to +0x1FFFF (R46): chapters 04, 12 of spec/ -/
def rowsBedLane : List RegRow := [
  { base := 0x1010000, dims := [(0x100000, 17), (0x1000, 16)], rw := 0xF000073, wo := 0x80000000 },  -- LANE.CTL
  { base := 0x1010004, dims := [(0x100000, 17), (0x1000, 16)] },  -- LANE.STATUS
  { base := 0x1010010, dims := [(0x100000, 17), (0x1000, 16)], reset := 0x100304, rw := 0x1F070F },  -- LANE.BOARD_EQ
  { base := 0x1010014, dims := [(0x100000, 17), (0x1000, 16)], rw := 0xFFFFFF },  -- LANE.BOARD_FIR0
  { base := 0x1010018, dims := [(0x100000, 17), (0x1000, 16)], reset := 0x3F, rw := 0xFFFFFF },  -- LANE.BOARD_FIR1
  { base := 0x1010020, dims := [(0x100000, 17), (0x1000, 16)] },  -- LANE.EQ_NOW
  { base := 0x1010024, dims := [(0x100000, 17), (0x1000, 16)] },  -- LANE.FIR_NOW0
  { base := 0x1010028, dims := [(0x100000, 17), (0x1000, 16)], reset := 0x3F },  -- LANE.FIR_NOW1
  { base := 0x1010040, dims := [(0x100000, 17), (0x1000, 16)], w1c := 0x7F, evt := true },  -- LANE.EVT
  { base := 0x1010044, dims := [(0x100000, 17), (0x1000, 16)], rw := 0x7F },  -- LANE.EVT_MASK
  { base := 0x1010048, dims := [(0x100000, 17), (0x1000, 16)], rw := 0xFF },  -- LANE.EVT_ROUTE
  { base := 0x1010080, dims := [(0x100000, 17), (0x1000, 16)], rw := 0x30107, wo := 0x80000000 },  -- LANE.PRBS_CTL
  { base := 0x1010084, dims := [(0x100000, 17), (0x1000, 16)], rw := 0x8FF0FF00 },  -- LANE.PRBS_INJ
  { base := 0x1010088, dims := [(0x100000, 17), (0x1000, 16), (0x4, 2)], rw := 0xFFFFFFFF },  -- LANE.PRBS_USER
  { base := 0x1010090, dims := [(0x100000, 17), (0x1000, 16)], w1c := 0x40000000 },  -- LANE.PRBS_STAT
  { base := 0x1010098, dims := [(0x100000, 17), (0x1000, 16), (0x8, 3)], rw := 0xFFFFFFFF, cnt := true },  -- LANE.CNTA
  { base := 0x101009C, dims := [(0x100000, 17), (0x1000, 16), (0x8, 3)], rw := 0xFFFF, cnt := true },  -- LANE.CNTA#HI
  { base := 0x10100C0, dims := [(0x100000, 17), (0x1000, 16), (0x8, 3)], rw := 0xFFFFFFFF, cnt := true },  -- LANE.CNTF
  { base := 0x10100C4, dims := [(0x100000, 17), (0x1000, 16), (0x8, 3)], rw := 0xFFFF, cnt := true }  -- LANE.CNTF#HI
]

/-- Bed window, offsets +0x20000 to +0x2FFFF (R46): chapters 05, 12 of spec/ -/
def rowsBedMac : List RegRow := [
  { base := 0x1020000, dims := [(0x100000, 17), (0x1000, 16)], reset := 0xC00C2400, rw := 0xEC3F3FFF },  -- MAC.CTL
  { base := 0x1020004, dims := [(0x100000, 17), (0x1000, 16)], reset := 0xFFFF7FFF, rw := 0xFFFFFFFF },  -- MAC.FC_TX
  { base := 0x1020008, dims := [(0x100000, 17), (0x1000, 16)], reset := 0xFF00FF, rw := 0xFF00FF },  -- MAC.FC_MASK
  { base := 0x102000C, dims := [(0x100000, 17), (0x1000, 16)], reset := 0x3E800C8, rw := 0xFFFFFFFF },  -- MAC.WD
  { base := 0x1020010, dims := [(0x100000, 17), (0x1000, 16)] },  -- MAC.PAUSE_STAT
  { base := 0x1020020, dims := [(0x100000, 17), (0x1000, 16)], reset := 0x4000300A, rw := 0xC0FFF3FF, wo := 0x20000000 },  -- MAC.MM_CTL
  { base := 0x1020024, dims := [(0x100000, 17), (0x1000, 16)] },  -- MAC.MM_STATUS
  { base := 0x1020028, dims := [(0x100000, 17), (0x1000, 16)], reset := 0x40000000 },  -- MAC.FAULT
  { base := 0x1020030, dims := [(0x100000, 17), (0x1000, 16)], rw := 0xFFFFFFFF },  -- MAC.BAD_DEST
  { base := 0x1020034, dims := [(0x100000, 17), (0x1000, 16)], rw := 0x3FFFFFF },  -- MAC.BAD_FLOW
  { base := 0x1020040, dims := [(0x100000, 17), (0x1000, 16)], w1c := 0xFF, evt := true },  -- MAC.EVT
  { base := 0x1020044, dims := [(0x100000, 17), (0x1000, 16)], rw := 0xFF },  -- MAC.EVT_MASK
  { base := 0x1020048, dims := [(0x100000, 17), (0x1000, 16)], rw := 0xFF }  -- MAC.EVT_ROUTE
]

/-- Bed window, offsets +0x30000 to +0x3FFFF (R46): chapters 06, 12 of spec/ -/
def rowsBedParse : List RegRow := [
  { base := 0x1030000, dims := [(0x100000, 17)], reset := 0x4039100, rw := 0x8F0FFFFF },  -- PARSE.CTL
  { base := 0x1030004, dims := [(0x100000, 17)], reset := 0x12B517C1, rw := 0xFFFFFFFF },  -- PARSE.UDP_PORT0
  { base := 0x1030008, dims := [(0x100000, 17)], reset := 0x8680000, rw := 0xFFFF0000 },  -- PARSE.UDP_PORT1
  { base := 0x103000C, dims := [(0x100000, 17)], rw := 0xFFFF80FF },  -- PARSE.GENEVE_OPT
  { base := 0x1030010, dims := [(0x100000, 17)], reset := 0x13210, rw := 0x17777 },  -- PARSE.PIPE_MAP
  { base := 0x1030014, dims := [(0x100000, 17)], reset := 0xF, w1c := 0x1F1F20 },  -- PARSE.PIPE_STATUS
  { base := 0x1030020, dims := [(0x100000, 17)], reset := 0x22800002, rw := 0xFFFFFFFF },  -- PARSE.MF_ACTION
  { base := 0x1030024, dims := [(0x100000, 17)], rw := 0xFFFFFFFF },  -- PARSE.MF_PUNT_DEST
  { base := 0x1030028, dims := [(0x100000, 17)], rw := 0x3FFFFFF },  -- PARSE.MF_PUNT_FLOW
  { base := 0x1030030, dims := [(0x100000, 17)], w1c := 0xFFFF },  -- PARSE.MF_SEEN
  { base := 0x1030040, dims := [(0x100000, 17)], w1c := 0x7F, evt := true },  -- PARSE.EVT
  { base := 0x1030044, dims := [(0x100000, 17)], rw := 0x7F },  -- PARSE.EVT_MASK
  { base := 0x1030048, dims := [(0x100000, 17)], rw := 0xFF },  -- PARSE.EVT_ROUTE
  { base := 0x1030100, dims := [(0x100000, 17), (0x8, 16)], rw := 0xFFFFFFFF, cnt := true },  -- PARSE.CNT_MF
  { base := 0x1030104, dims := [(0x100000, 17), (0x8, 16)], rw := 0xFFFF, cnt := true },  -- PARSE.CNT_MF#HI
  { base := 0x1030180, dims := [(0x100000, 17), (0x8, 4)], rw := 0xFFFFFFFF, cnt := true },  -- PARSE.CNT
  { base := 0x1030184, dims := [(0x100000, 17), (0x8, 4)], rw := 0xFFFF, cnt := true },  -- PARSE.CNT#HI
  { base := 0x1030200, dims := [(0x100000, 17)], rw := 0x8000011F, w1c := 0x40000000 },  -- PARSE.TRACE_CTL
  { base := 0x1030210, dims := [(0x100000, 17), (0x4, 9)] }  -- PARSE.TRACE_RESULT
]

/-- Bed window, offsets +0x40000 to +0x47FFF (R46): chapters 07, 12 of spec/ (part 0) -/
def rowsBedMesh0 : List RegRow := [
  { base := 0x1040000, dims := [(0x100000, 17)], rw := 0x7F0CFFFF, wo := 0x80000000 },  -- MESH.CTL
  { base := 0x1040004, dims := [(0x100000, 17)], w1c := 0x200000 },  -- MESH.EPOCH
  { base := 0x1040008, dims := [(0x100000, 17)], reset := 0xFFFF, rw := 0xFFFF },  -- MESH.SHAPE_AUTO
  { base := 0x104000C, dims := [(0x100000, 17)], rw := 0xFFFFFFFF },  -- MESH.SHAPE_FIX
  { base := 0x1040010, dims := [(0x100000, 17)], reset := 0x5A5A5A5A, rw := 0xFFFFFFFF, bank := 1 },  -- MESH.HASH_SEED
  { base := 0x1040014, dims := [(0x100000, 17)], rw := 0xFFFFFFFF },  -- MESH.PUNT_DEST
  { base := 0x1040018, dims := [(0x100000, 17)], rw := 0x3FFFFFF },  -- MESH.PUNT_FLOW
  { base := 0x1040040, dims := [(0x100000, 17)], w1c := 0xF, evt := true },  -- MESH.EVT
  { base := 0x1040044, dims := [(0x100000, 17)], rw := 0xF },  -- MESH.EVT_MASK
  { base := 0x1040048, dims := [(0x100000, 17)], rw := 0xFF },  -- MESH.EVT_ROUTE
  { base := 0x1040080, dims := [(0x100000, 17), (0x10, 4)], rw := 0xFF8FFFFF, bank := 1 },  -- MESH.DEFAULT
  { base := 0x1040084, dims := [(0x100000, 17), (0x10, 4)], rw := 0xFFFC01FF, bank := 1 },  -- MESH.DEFAULT#1
  { base := 0x1040088, dims := [(0x100000, 17), (0x10, 4)], rw := 0xFFFF0000, bank := 1 },  -- MESH.DEFAULT#2
  { base := 0x104008C, dims := [(0x100000, 17), (0x10, 4)], bank := 1 },  -- MESH.DEFAULT#3
  { base := 0x1040100, dims := [(0x100000, 17)], rw := 0xE0003FFF },  -- MESH.TBL_ADDR
  { base := 0x1040104, dims := [(0x100000, 17)], rw := 0x3, w1c := 0x20000000, wo := 0x80000000 },  -- MESH.TBL_CMD
  { base := 0x1040180, dims := [(0x100000, 17), (0x4, 28)], rw := 0xFFFFFFFF },  -- MESH.TBL_DATA
  { base := 0x10401F0, dims := [(0x100000, 17)], rw := 0xC0000000 },  -- MESH.TBL_DATA#28
  { base := 0x1040300, dims := [(0x100000, 17), (0x10, 16)], rw := 0xFFFFFFFF },  -- MIRROR.W0
  { base := 0x1040304, dims := [(0x100000, 17), (0x10, 16)], rw := 0x3FFFFFF },  -- MIRROR.W1
  { base := 0x1040308, dims := [(0x100000, 17), (0x10, 16)], rw := 0x1FF3FFF },  -- MIRROR.W2
  { base := 0x1040400, dims := [(0x100000, 17), (0x8, 7)], rw := 0xFFFFFFFF, cnt := true },  -- MESH.CNT
  { base := 0x1040404, dims := [(0x100000, 17), (0x8, 7)], rw := 0xFFFF, cnt := true },  -- MESH.CNT#HI
  { base := 0x1041000, dims := [(0x100000, 17)], reset := 0xC8, rw := 0x1FF3FFFF },  -- FHI.CTL
  { base := 0x1041004, dims := [(0x100000, 17)], rw := 0xFFFFFFFF },  -- FHI.TO_DEST
  { base := 0x1041008, dims := [(0x100000, 17)], rw := 0x3FFFFFF },  -- FHI.TO_FLOW
  { base := 0x104100C, dims := [(0x100000, 17)], rw := 0x7 },  -- FHI.KEY_TB
  { base := 0x1041010, dims := [(0x100000, 17), (0x4, 4)] },  -- FHI.CHAN
  { base := 0x1041040, dims := [(0x100000, 17)], w1c := 0x1F, evt := true },  -- FHI.EVT
  { base := 0x1041044, dims := [(0x100000, 17)], rw := 0x1F }  -- FHI.EVT_MASK
]

/-- Bed window, offsets +0x40000 to +0x47FFF (R46): chapters 07, 12 of spec/ (part 1) -/
def rowsBedMesh1 : List RegRow := [
  { base := 0x1041048, dims := [(0x100000, 17)], rw := 0xFF },  -- FHI.EVT_ROUTE
  { base := 0x1041100, dims := [(0x100000, 17), (0x8, 7)], rw := 0xFFFFFFFF, cnt := true },  -- FHI.CNT
  { base := 0x1041104, dims := [(0x100000, 17), (0x8, 7)], rw := 0xFFFF, cnt := true },  -- FHI.CNT#HI
  { base := 0x1042000, dims := [(0x100000, 17)], rw := 0x7F000000, w1c := 0x10000, wo := 0x80000000 },  -- REWRITE.CTL
  { base := 0x1042040, dims := [(0x100000, 17)], w1c := 0x7, evt := true },  -- REWRITE.EVT
  { base := 0x1042044, dims := [(0x100000, 17)], rw := 0x7 },  -- REWRITE.EVT_MASK
  { base := 0x1042048, dims := [(0x100000, 17)], rw := 0xFF },  -- REWRITE.EVT_ROUTE
  { base := 0x1042100, dims := [(0x100000, 17)], rw := 0xFFFFFFFF, cnt := true },  -- REWRITE.CNT_DROP_REWRITE
  { base := 0x1042104, dims := [(0x100000, 17)], rw := 0xFFFF, cnt := true },  -- REWRITE.CNT_DROP_REWRITE#HI
  { base := 0x1043000, dims := [(0x100000, 17), (0x40, 64), (0x4, 16)], rw := 0xFFFFFFFF, bank := 2 },  -- REWRITE.TEMPLATE
  { base := 0x1044000, dims := [(0x100000, 17), (0x100, 64), (0x8, 32)], rw := 0xFFFFFFFF, bank := 2 },  -- REWRITE.PROGRAM.W0
  { base := 0x1044004, dims := [(0x100000, 17), (0x100, 64), (0x8, 32)], rw := 0xFFFFFFFF, bank := 2 }  -- REWRITE.PROGRAM.W1
]

/-- Bed window, offsets +0x40000 to +0x47FFF (R46): chapters 07, 12 of spec/. -/
def rowsBedMesh : List RegRow := rowsBedMesh0 ++ rowsBedMesh1

/-- Bed window, offsets +0x48000 to +0x4FFFF (R46): chapter 07 of spec/ -/
def rowsBedPattern : List RegRow := [
  { base := 0x1048000, dims := [(0x100000, 17), (0x40, 512), (0x4, 8)], rw := 0xFFFFFFFF, bank := 1 },  -- PATTERN.BYTES
  { base := 0x1048020, dims := [(0x100000, 17), (0x40, 512)], rw := 0xFFFFFFFF, bank := 1 },  -- PATTERN.MASK
  { base := 0x1048024, dims := [(0x100000, 17), (0x40, 512)], rw := 0xCF3F0000, bank := 1 },  -- PATTERN.CTL
  { base := 0x1048028, dims := [(0x100000, 17), (0x40, 512)], rw := 0x7FF07FF, bank := 1 }  -- PATTERN.OFF
]

/-- Bed window, offsets +0x50000 to +0x5FFFF (R46): chapter 08 of spec/ -/
def rowsBedMeter : List RegRow := [
  { base := 0x1050000, dims := [(0x100000, 17), (0x4, 16)], reset := 0x140000, rw := 0xE0FFFFFF },  -- METER.PORT
  { base := 0x1050040, dims := [(0x100000, 17), (0x4, 4)], rw := 0xFFFFFFFF },  -- METER.DSCP_MAP
  { base := 0x1050080, dims := [(0x100000, 17), (0x8, 3)], rw := 0xFFFFFFFF, cnt := true },  -- METER.CNT
  { base := 0x1050084, dims := [(0x100000, 17), (0x8, 3)], rw := 0xFFFF, cnt := true }  -- METER.CNT#HI
]

/-- Bed window, offsets +0x60000 to +0x6FFFF (R46): chapters 09, 12 of spec/ -/
def rowsBedSched : List RegRow := [
  { base := 0x1060000, dims := [(0x100000, 17), (0x100, 16)], sh := 0x3FFFFF },  -- SCHED.PORT.RATE
  { base := 0x1060004, dims := [(0x100000, 17), (0x100, 16)], reset := 0x4000, sh := 0xFFFF },  -- SCHED.PORT.BURST
  { base := 0x1060008, dims := [(0x100000, 17), (0x100, 16)], rw := 0x80000000 },  -- SCHED.PORT.GEN
  { base := 0x106000C, dims := [(0x100000, 17), (0x100, 16)], sh := 0x3F },  -- SCHED.PORT.DRR
  { base := 0x1060010, dims := [(0x100000, 17), (0x100, 16), (0x4, 8)], reset := 0x1000800, sh := 0xFFFFFFFF },  -- SCHED.PORT.CLASS
  { base := 0x1060030, dims := [(0x100000, 17), (0x100, 16), (0x4, 8)], reset := 0x1000010, sh := 0xFFFFFFFF },  -- SCHED.PORT.CLODQ
  { base := 0x1060050, dims := [(0x100000, 17), (0x100, 16), (0x4, 8)] },  -- SCHED.PORT.ROUND
  { base := 0x106F000, dims := [(0x100000, 17)] },  -- SCHED.SH_ACK
  { base := 0x106F004, dims := [(0x100000, 17)], reset := 0x20, rw := 0x3F },  -- SCHED.CTL
  { base := 0x106F040, dims := [(0x100000, 17)], w1c := 0x3, evt := true },  -- SCHED.EVT
  { base := 0x106F044, dims := [(0x100000, 17)], rw := 0x3 },  -- SCHED.EVT_MASK
  { base := 0x106F048, dims := [(0x100000, 17)], rw := 0xFF },  -- SCHED.EVT_ROUTE
  { base := 0x106F100, dims := [(0x100000, 17), (0x8, 4)], rw := 0xFFFFFFFF, cnt := true },  -- SCHED.CNT
  { base := 0x106F104, dims := [(0x100000, 17), (0x8, 4)], rw := 0xFFFF, cnt := true }  -- SCHED.CNT#HI
]

/-- Bed window, offsets +0x70000 to +0x7FFFF (R46): chapters 10, 12 of spec/ -/
def rowsBedGate : List RegRow := [
  { base := 0x1070000, dims := [(0x100000, 17), (0x80, 16)], rw := 0x3FC00000, wo := 0xC0000000 },  -- GATE.CTL
  { base := 0x1070004, dims := [(0x100000, 17), (0x80, 16)], reset := 0x3FC0000, w1c := 0x1C000000 },  -- GATE.STATUS
  { base := 0x1070008, dims := [(0x100000, 17), (0x80, 16)], reset := 0xF4240, rw := 0xFFFFFFFF },  -- GATE.SH_CYCLE
  { base := 0x107000C, dims := [(0x100000, 17), (0x80, 16)], reset := 0x10000, rw := 0xE7FFFFFF },  -- GATE.SH_CFG
  { base := 0x1070010, dims := [(0x100000, 17), (0x80, 16)], rw := 0x3FFFFFFF },  -- GATE.SH_BASE_NS
  { base := 0x1070014, dims := [(0x100000, 17), (0x80, 16), (0x4, 2)], rw := 0xFFFFFFFF },  -- GATE.SH_BASE_S
  { base := 0x107001C, dims := [(0x100000, 17), (0x80, 16)], reset := 0x80000002, rw := 0x800000FF },  -- GATE.MON
  { base := 0x1070020, dims := [(0x100000, 17), (0x80, 16), (0x4, 5)] },  -- GATE.ACT
  { base := 0x1070034, dims := [(0x100000, 17), (0x80, 16), (0x4, 3)] },  -- GATE.ADOPT
  { base := 0x1070040, dims := [(0x100000, 17), (0x80, 16), (0x8, 4)], rw := 0xFFFFFFFF, cnt := true },  -- GATE.CNT
  { base := 0x1070044, dims := [(0x100000, 17), (0x80, 16), (0x8, 4)], rw := 0xFFFF, cnt := true },  -- GATE.CNT#HI
  { base := 0x1071000, dims := [(0x100000, 17)], rw := 0x800F03FF },  -- GATE.ADDR
  { base := 0x1071004, dims := [(0x100000, 17)], rw := 0x3, wo := 0x80000000 },  -- GATE.CMD
  { base := 0x1071008, dims := [(0x100000, 17)], rw := 0xFFFFFFFF },  -- GATE.DATA0
  { base := 0x107100C, dims := [(0x100000, 17)], reset := 0xFF, rw := 0x1FF },  -- GATE.DATA1
  { base := 0x1071040, dims := [(0x100000, 17)], w1c := 0xFF, evt := true },  -- GATE.EVT
  { base := 0x1071044, dims := [(0x100000, 17)], rw := 0xFF },  -- GATE.EVT_MASK
  { base := 0x1071048, dims := [(0x100000, 17)], rw := 0xFF }  -- GATE.EVT_ROUTE
]

/-- Bed window, offsets +0x80000 to +0x8FFFF (R46): chapter 05 of spec/ -/
def rowsBedStat : List RegRow := [
  { base := 0x1080000, dims := [(0x100000, 17), (0x800, 16), (0x8, 64)], rw := 0xFFFFFFFF, cnt := true },  -- STAT.CNT
  { base := 0x1080004, dims := [(0x100000, 17), (0x800, 16), (0x8, 64)], rw := 0xFFFF, cnt := true },  -- STAT.CNT#HI
  { base := 0x1080200, dims := [(0x100000, 17), (0x800, 16), (0x4, 128)], rc := 0xFFFFFFFF },  -- STAT.SNAP
  { base := 0x1080400, dims := [(0x100000, 17), (0x800, 16)], wo := 0xC0000000 },  -- STAT.CTL
  { base := 0x1080408, dims := [(0x100000, 17), (0x800, 16), (0x4, 2)], w1c := 0xFFFFFFFF },  -- STAT.HALF
  { base := 0x1080410, dims := [(0x100000, 17), (0x800, 16), (0x4, 2)], w1c := 0xFFFFFFFF }  -- STAT.WRAP
]

/-- Bed window, offsets +0x90000 to +0xFFFFF (R46): chapters 11, 12 of spec/ -/
def rowsBedTs : List RegRow := [
  { base := 0x1090000, dims := [(0x100000, 17), (0x100, 16)], rw := 0xF8000000 },  -- PTP.CTL
  { base := 0x1090004, dims := [(0x100000, 17), (0x100, 16)], rw := 0xFFFFFFFF },  -- PTP.DELAY
  { base := 0x1090008, dims := [(0x100000, 17), (0x100, 16)], w1c := 0x40000000, wo := 0x80000000 },  -- TSQ.STATUS
  { base := 0x1090010, dims := [(0x100000, 17), (0x100, 16), (0x4, 8)] },  -- TSQ.ENTRY
  { base := 0x1090040, dims := [(0x100000, 17), (0x100, 16), (0x8, 3)], rw := 0xFFFFFFFF, cnt := true },  -- TS.CNT
  { base := 0x1090044, dims := [(0x100000, 17), (0x100, 16), (0x8, 3)], rw := 0xFFFF, cnt := true },  -- TS.CNT#HI
  { base := 0x109F000, dims := [(0x100000, 17)], w1c := 0xF, evt := true },  -- TS.EVT
  { base := 0x109F004, dims := [(0x100000, 17)], rw := 0xF },  -- TS.EVT_MASK
  { base := 0x109F008, dims := [(0x100000, 17)], rw := 0xFF }  -- TS.EVT_ROUTE
]

/-- The rows of the region an offset lies in (R43, R46). -/
def regionRows (off : Nat) : List RegRow :=
  if off < 0x100000 then rowsHostLow
  else if off < 0x200000 then rowsTime
  else if off < 0x300000 then rowsRings
  else if off < 0x380000 then rowsAuger
  else if off < 0x400000 then rowsAssay
  else if off < 0x480000 then rowsTiers
  else if off < 0x500000 then rowsSilt
  else if off < 0x600000 then rowsSched
  else if off < 0x700000 then rowsTilth
  else if off < 0x740000 then rowsSafety
  else if off < 0x800000 then rowsTel
  else if off < 0x1000000 then rowsMgmt
  else if off < 0x2000000 + 8 ∧ 0x2000000 ≤ off then rowsSwap
  else
    let r := off % 0x100000
    if r < 0x10000 then rowsBedCtl
    else if r < 0x20000 then rowsBedLane
    else if r < 0x30000 then rowsBedMac
    else if r < 0x40000 then rowsBedParse
    else if r < 0x48000 then rowsBedMesh
    else if r < 0x50000 then rowsBedPattern
    else if r < 0x60000 then rowsBedMeter
    else if r < 0x70000 then rowsBedSched
    else if r < 0x80000 then rowsBedGate
    else if r < 0x90000 then rowsBedStat
    else rowsBedTs

/-- The block window spans 2^26 bytes (R43); a banked register keeps its second bank's copy at offset + bankSpan. -/
def bankSpan : Nat := 0x4000000

/-- The row of a register, none at a reserved offset (R9, R44). -/
def regRow (off : Nat) : Option RegRow := (regionRows off).find? fun r => r.hit off

/-- The place of METER.PORT[16] or [17] of a bed in the register file: their offsets are those of METER.DSCP_MAP[0] and [1],
so they are kept beyond `bankSpan` (DESIGN CHOICE, assumption 11). -/
def meterHostKey (b i : Nat) : Nat := bankSpan + (0x1050000 + 0x100000 * b + 0x4 * i)

/-- A key is the place of a METER.PORT[16] or [17]. -/
def isMeterHost (key : Nat) : Bool :=
  decide (bankSpan + 0x1000000 ≤ key) && (key % 0x100000 == 0x50040 || key % 0x100000 == 0x50044)

/-- The reset value of a register-file key (R8): the row's, and zero at a reserved offset (R9).
The two banks of a banked register have the same reset value (chapter 07, chapter registers). -/
def regReset (key : Nat) : Word :=
  if isMeterHost key then 0x00140000 else
  match regRow (key % bankSpan) with
  | some row => row.resetAt (key % bankSpan)
  | none => 0

/-! Offsets of the registers, by name. -/

/-- ID.HDR0 (R57). -/
def offIdHdr0 : Nat := 0x0
/-- ID.HDR1 (R57). -/
def offIdHdr1 : Nat := 0x4
/-- ID.VENDOR (R57). -/
def offIdVendor : Nat := 0x8
/-- ID.BLOCK0 (R57). -/
def offIdBlock0 : Nat := 0xC
/-- ID.BLOCK1 (R57). -/
def offIdBlock1 : Nat := 0x10
/-- ID.RELEASE (R57). -/
def offIdRelease : Nat := 0x14
/-- ID.ORDER (R58). -/
def offIdOrder : Nat := 0x18
/-- ID.OPTIONS (R59). -/
def offIdOptions : Nat := 0x1C
/-- CLK.PLL (R64). -/
def offClkPll : Nat := 0x1000
/-- CLK.RUNNING (R61). -/
def offClkRunning : Nat := 0x1004
/-- CLK.MON_SEL (R75). -/
def offClkMonSel : Nat := 0x1008
/-- CLK.MON_COUNT (R75). -/
def offClkMonCount : Nat := 0x100C
/-- RST.CTL (R69). -/
def offRstCtl : Nat := 0x1010
/-- RST.BED (R68). -/
def offRstBed : Nat := 0x1014
/-- RST.CAUSE (R69). -/
def offRstCause : Nat := 0x1018
/-- RST.LINE_LOSS_LO (R71). -/
def offRstLineLossLo : Nat := 0x101C
/-- RST.LINE_LOSS_HI (R71). -/
def offRstLineLossHi : Nat := 0x1020
/-- BLK.EVT (R315). -/
def offBlkEvt : Nat := 0x1040
/-- BLK.EVT_MASK (R315). -/
def offBlkEvtMask : Nat := 0x1044
/-- BLK.EVT_ROUTE (R315). -/
def offBlkEvtRoute : Nat := 0x1048
/-- PWR.STATE (R504). -/
def offPwrState : Nat := 0x2000
/-- PWR.ISLAND_CTL (R68). -/
def offPwrIslandCtl : Nat := 0x2004
/-- PWR.ISLAND_ON (R67). -/
def offPwrIslandOn : Nat := 0x2008
/-- PWR.FAULT (R67). -/
def offPwrFault : Nat := 0x200C
/-- FUSE.ENTRY (R458). -/
def offFuseEntry (i : Nat) : Nat := 0x3000 + 0x4 * i
/-- FUSE.PROG (R459). -/
def offFuseProg : Nat := 0x3100
/-- FUSE.STATUS (R459). -/
def offFuseStatus : Nat := 0x3104
/-- MAP.RT (R460). -/
def offMapRt (i : Nat) : Nat := 0x3200 + 0x4 * i
/-- FUSE.EVT (R460). -/
def offFuseEvt : Nat := 0x3300
/-- FUSE.EVT_MASK (R315). -/
def offFuseEvtMask : Nat := 0x3304
/-- FUSE.EVT_ROUTE (R315). -/
def offFuseEvtRoute : Nat := 0x3308
/-- LC.STATE (R463). -/
def offLcState : Nat := 0x4000
/-- LC.REQ (R464). -/
def offLcReq : Nat := 0x4004
/-- DBG.CTL (R470). -/
def offDbgCtl : Nat := 0x4010
/-- DBG.CHAL (R470). -/
def offDbgChal (i : Nat) : Nat := 0x4020 + 0x4 * i
/-- DBG.TOKEN (R470). -/
def offDbgToken : Nat := 0x4030
/-- DBG.COUNT (R470). -/
def offDbgCount : Nat := 0x4034
/-- DBG.LEFT_S (R473). -/
def offDbgLeftS : Nat := 0x4038
/-- KEY.STATUS (R466). -/
def offKeyStatus : Nat := 0x4040
/-- KEY.REVOKE (R466). -/
def offKeyRevoke : Nat := 0x4048
/-- KEY.DBG_HASH (R466). -/
def offKeyDbgHash (i j : Nat) : Nat := 0x4050 + 0x30 * i + 0x4 * j
/-- KEY.IMG_HASH (R466). -/
def offKeyImgHash (i j : Nat) : Nat := 0x4200 + 0x30 * i + 0x4 * j
/-- MEAS (R481). -/
def offMeas (i : Nat) : Nat := 0x4400 + 0x4 * i
/-- MEAS_COUNT (R481). -/
def offMeasCount : Nat := 0x4430
/-- SEC.EVT (R475). -/
def offSecEvt : Nat := 0x4480
/-- SEC.EVT_MASK (R315). -/
def offSecEvtMask : Nat := 0x4484
/-- SEC.EVT_ROUTE (R315). -/
def offSecEvtRoute : Nat := 0x4488
/-- CNT_WMAP_REFUSED (R475). -/
def offCntWmapRefused : Nat := 0x4490
/-- WMAP_LAST (R475). -/
def offWmapLast : Nat := 0x4498
/-- TIME.CAPTURE_ALL (R273). -/
def offTimeCaptureAll : Nat := 0x100000
/-- TIME.EVT (R301). -/
def offTimeEvt : Nat := 0x100040
/-- TIME.EVT_MASK (R315). -/
def offTimeEvtMask : Nat := 0x100044
/-- TIME.EVT_ROUTE (R315). -/
def offTimeEvtRoute : Nat := 0x100048
/-- TIME.CAP (R273). -/
def offTimeCap (i j : Nat) : Nat := 0x100100 + 0x10 * i + 0x4 * j
/-- TB.CTL (R278). -/
def offTbCtl (i : Nat) : Nat := 0x101000 + 0x100 * i
/-- TB.ADDEND_INT (R271). -/
def offTbAddendInt (i : Nat) : Nat := 0x101004 + 0x100 * i
/-- TB.ADDEND_FRAC (R271). -/
def offTbAddendFrac (i : Nat) : Nat := 0x101008 + 0x100 * i
/-- TB.JUMP_LIMIT (R276). -/
def offTbJumpLimit (i : Nat) : Nat := 0x10100C + 0x100 * i
/-- TB.CMD (R275). -/
def offTbCmd (i : Nat) : Nat := 0x101010 + 0x100 * i
/-- TB.ARG (R275). -/
def offTbArg (i j : Nat) : Nat := 0x101014 + 0x100 * i + 0x4 * j
/-- TB.UNLOCK (R277). -/
def offTbUnlock (i : Nat) : Nat := 0x101024 + 0x100 * i
/-- TB.REFUSED_NS (R276). -/
def offTbRefusedNs (i : Nat) : Nat := 0x101028 + 0x100 * i
/-- TB.SLEW_LEFT (R275). -/
def offTbSlewLeft (i : Nat) : Nat := 0x10102C + 0x100 * i
/-- TB.NOW (R273). -/
def offTbNow (i j : Nat) : Nat := 0x101030 + 0x100 * i + 0x4 * j
/-- PPS.IN.CTL (R296). -/
def offPpsInCtl (i : Nat) : Nat := 0x102000 + 0x40 * i
/-- PPS.IN.POP (R296). -/
def offPpsInPop (i : Nat) : Nat := 0x102004 + 0x40 * i
/-- PPS.IN.HEAD (R296). -/
def offPpsInHead (i j : Nat) : Nat := 0x102008 + 0x40 * i + 0x4 * j
/-- PPS.OUT.CTL (R297). -/
def offPpsOutCtl (i : Nat) : Nat := 0x102100 + 0x10 * i
/-- REF10.CTL (R298). -/
def offRef10Ctl : Nat := 0x102200
/-- REF10.MEAS (R298). -/
def offRef10Meas : Nat := 0x102204
/-- ACT.ADDR (R293). -/
def offActAddr : Nat := 0x103000
/-- ACT.CMD (R293). -/
def offActCmd : Nat := 0x103004
/-- ACT.DATA0 (R290). -/
def offActData0 : Nat := 0x103010
/-- ACT.DATA1 (R290). -/
def offActData1 (i : Nat) : Nat := 0x103014 + 0x4 * i
/-- ACT.DATA4 (R290). -/
def offActData4 : Nat := 0x103020
/-- ACT.DATA5 (R291). -/
def offActData5 : Nat := 0x103024
/-- ACT.DATA6 (R291). -/
def offActData6 (i : Nat) : Nat := 0x103028 + 0x4 * i
/-- MON.CTL (R299). -/
def offMonCtl (i : Nat) : Nat := 0x104000 + 0x10 * i
/-- MON.BOUND (R299). -/
def offMonBound (i : Nat) : Nat := 0x104004 + 0x10 * i
/-- MON.OFFSET (R299). -/
def offMonOffset (i : Nat) : Nat := 0x104008 + 0x10 * i
/-- MON.LAST_DIFF (R299). -/
def offMonLastDiff (i : Nat) : Nat := 0x10400C + 0x10 * i
/-- TRK.CTL (R294). -/
def offTrkCtl (i : Nat) : Nat := 0x180000 + 0x100 * i
/-- TRK.ADDEND_INT (R294). -/
def offTrkAddendInt (i : Nat) : Nat := 0x180004 + 0x100 * i
/-- TRK.ADDEND_FRAC (R294). -/
def offTrkAddendFrac (i : Nat) : Nat := 0x180008 + 0x100 * i
/-- TRK.JUMP_LIMIT (R294). -/
def offTrkJumpLimit (i : Nat) : Nat := 0x18000C + 0x100 * i
/-- TRK.CMD (R294). -/
def offTrkCmd (i : Nat) : Nat := 0x180010 + 0x100 * i
/-- TRK.ARG (R294). -/
def offTrkArg (i j : Nat) : Nat := 0x180014 + 0x100 * i + 0x4 * j
/-- TRK.UNLOCK (R294). -/
def offTrkUnlock (i : Nat) : Nat := 0x180024 + 0x100 * i
/-- TRK.REFUSED_NS (R294). -/
def offTrkRefusedNs (i : Nat) : Nat := 0x180028 + 0x100 * i
/-- TRK.SLEW_LEFT (R294). -/
def offTrkSlewLeft (i : Nat) : Nat := 0x18002C + 0x100 * i
/-- TRK.NOW (R294). -/
def offTrkNow (i j : Nat) : Nat := 0x180030 + 0x100 * i + 0x4 * j
/-- PAIR.CTL (R295). -/
def offPairCtl (i : Nat) : Nat := 0x181000 + 0x10 * i
/-- PAIR.STATUS (R295). -/
def offPairStatus (i : Nat) : Nat := 0x181004 + 0x10 * i
/-- PAIR.D (R295). -/
def offPairD (i : Nat) : Nat := 0x181008 + 0x10 * i
/-- PAIR.LEFT (R295). -/
def offPairLeft (i : Nat) : Nat := 0x18100C + 0x10 * i
/-- TX.BASE (R332). -/
def offTxBase (i : Nat) : Nat := 0x200000 + 0x40 * i
/-- TX.DB (R332). -/
def offTxDb (i : Nat) : Nat := 0x200008 + 0x40 * i
/-- TX.CTL (R331). -/
def offTxCtl (i : Nat) : Nat := 0x200010 + 0x40 * i
/-- TX.PARAM (R332). -/
def offTxParam (i : Nat) : Nat := 0x200014 + 0x40 * i
/-- TX.SEEN (R326). -/
def offTxSeen (i : Nat) : Nat := 0x200018 + 0x40 * i
/-- TX.CONS (R326). -/
def offTxCons (i : Nat) : Nat := 0x20001C + 0x40 * i
/-- TX.NEXT (R326). -/
def offTxNext (i : Nat) : Nat := 0x200020 + 0x40 * i
/-- TX.STATUS (R331). -/
def offTxStatus (i : Nat) : Nat := 0x200024 + 0x40 * i
/-- TX.CNT_RING_DROP (R331). -/
def offTxCntRingDrop (i : Nat) : Nat := 0x200028 + 0x40 * i
/-- RX.BASE (R332). -/
def offRxBase (i : Nat) : Nat := 0x208000 + 0x40 * i
/-- RX.DB (R332). -/
def offRxDb (i : Nat) : Nat := 0x208008 + 0x40 * i
/-- RX.CTL (R331). -/
def offRxCtl (i : Nat) : Nat := 0x208010 + 0x40 * i
/-- RX.PARAM (R332). -/
def offRxParam (i : Nat) : Nat := 0x208014 + 0x40 * i
/-- RX.SEEN (R326). -/
def offRxSeen (i : Nat) : Nat := 0x208018 + 0x40 * i
/-- RX.CONS (R326). -/
def offRxCons (i : Nat) : Nat := 0x20801C + 0x40 * i
/-- RX.NEXT (R326). -/
def offRxNext (i : Nat) : Nat := 0x208020 + 0x40 * i
/-- RX.STATUS (R331). -/
def offRxStatus (i : Nat) : Nat := 0x208024 + 0x40 * i
/-- RX.CNT_RING_DROP (R331). -/
def offRxCntRingDrop (i : Nat) : Nat := 0x208028 + 0x40 * i
/-- VEC.BASE (R332). -/
def offVecBase (i : Nat) : Nat := 0x210000 + 0x40 * i
/-- VEC.DB (R332). -/
def offVecDb (i : Nat) : Nat := 0x210008 + 0x40 * i
/-- VEC.CTL (R353). -/
def offVecCtl (i : Nat) : Nat := 0x210010 + 0x40 * i
/-- VEC.PARAM (R332). -/
def offVecParam (i : Nat) : Nat := 0x210014 + 0x40 * i
/-- VEC.SEEN (R326). -/
def offVecSeen (i : Nat) : Nat := 0x210018 + 0x40 * i
/-- VEC.WR (R326). -/
def offVecWr (i : Nat) : Nat := 0x21001C + 0x40 * i
/-- VEC.NEXT (R326). -/
def offVecNext (i : Nat) : Nat := 0x210020 + 0x40 * i
/-- VEC.STATUS (R353). -/
def offVecStatus (i : Nat) : Nat := 0x210024 + 0x40 * i
/-- VEC.CNT_RING_DROP (R331). -/
def offVecCntRingDrop (i : Nat) : Nat := 0x210028 + 0x40 * i
/-- RING.CTL (R322). -/
def offRingCtl : Nat := 0x220000
/-- RING.WAIT (R345). -/
def offRingWait : Nat := 0x220004
/-- RING.EVT (R331). -/
def offRingEvt : Nat := 0x220040
/-- RING.EVT_MASK (R315). -/
def offRingEvtMask : Nat := 0x220044
/-- RING.EVT_ROUTE (R315). -/
def offRingEvtRoute : Nat := 0x220048
/-- RING.LAST (R331). -/
def offRingLast : Nat := 0x220050
/-- RING.CNT (R331). -/
def offRingCnt (i : Nat) : Nat := 0x220100 + 0x8 * i
/-- CH.CTL (R368). -/
def offChCtl (i : Nat) : Nat := 0x300000 + 0x40 * i
/-- CH.HEAD_LO (R370). -/
def offChHeadLo (i : Nat) : Nat := 0x300004 + 0x40 * i
/-- CH.HEAD_HI (R370). -/
def offChHeadHi (i : Nat) : Nat := 0x300008 + 0x40 * i
/-- CH.DOORBELL (R370). -/
def offChDoorbell (i : Nat) : Nat := 0x30000C + 0x40 * i
/-- CH.STATE (R370). -/
def offChState (i : Nat) : Nat := 0x300010 + 0x40 * i
/-- CH.CUR (R367). -/
def offChCur (i j : Nat) : Nat := 0x300014 + 0x40 * i + 0x4 * j
/-- CH.POS (R367). -/
def offChPos (i : Nat) : Nat := 0x30001C + 0x40 * i
/-- AUG.EXPORT (R356). -/
def offAugExport : Nat := 0x301000
/-- AUG.EVT (R369). -/
def offAugEvt : Nat := 0x301040
/-- AUG.EVT_MASK (R315). -/
def offAugEvtMask : Nat := 0x301044
/-- AUG.EVT_ROUTE (R315). -/
def offAugEvtRoute : Nat := 0x301048
/-- IMPORT.BASE_LO (R357). -/
def offImportBaseLo (i : Nat) : Nat := 0x301100 + 0x10 * i
/-- IMPORT.BASE_HI (R357). -/
def offImportBaseHi (i : Nat) : Nat := 0x301104 + 0x10 * i
/-- IMPORT.SIZE (R357). -/
def offImportSize (i : Nat) : Nat := 0x301108 + 0x10 * i
/-- IMPORT.CTL (R357). -/
def offImportCtl (i : Nat) : Nat := 0x30110C + 0x10 * i
/-- AUG.NUDGE (R373). -/
def offAugNudge (i : Nat) : Nat := 0x301200 + 0x4 * i
/-- CNT_AUG_FAULT (R369). -/
def offCntAugFault : Nat := 0x301300
/-- UNIT.POLY_LO (R375). -/
def offUnitPolyLo (i : Nat) : Nat := 0x380000 + 0x40 * i
/-- UNIT.POLY_HI (R375). -/
def offUnitPolyHi (i : Nat) : Nat := 0x380004 + 0x40 * i
/-- UNIT.INIT_LO (R375). -/
def offUnitInitLo (i : Nat) : Nat := 0x380008 + 0x40 * i
/-- UNIT.INIT_HI (R375). -/
def offUnitInitHi (i : Nat) : Nat := 0x38000C + 0x40 * i
/-- UNIT.XOROUT_LO (R375). -/
def offUnitXoroutLo (i : Nat) : Nat := 0x380010 + 0x40 * i
/-- UNIT.XOROUT_HI (R375). -/
def offUnitXoroutHi (i : Nat) : Nat := 0x380014 + 0x40 * i
/-- UNIT.CFG (R377). -/
def offUnitCfg (i : Nat) : Nat := 0x380018 + 0x40 * i
/-- UNIT.RESYNC (R382). -/
def offUnitResync (i : Nat) : Nat := 0x38001C + 0x40 * i
/-- ASSAY.CNT (R384). -/
def offAssayCnt (i j : Nat) : Nat := 0x380800 + 0x40 * i + 0x8 * j
/-- SCAN.CTL (R388). -/
def offScanCtl : Nat := 0x382000
/-- SCAN.ENTRY.CTL (R386). -/
def offScanEntryCtl (i : Nat) : Nat := 0x382100 + 0x20 * i
/-- SCAN.ENTRY.START (R386). -/
def offScanEntryStart (i : Nat) : Nat := 0x382104 + 0x20 * i
/-- SCAN.ENTRY.LEN (R386). -/
def offScanEntryLen (i : Nat) : Nat := 0x382108 + 0x20 * i
/-- SCAN.ENTRY.REF (R387). -/
def offScanEntryRef (i j : Nat) : Nat := 0x38210C + 0x20 * i + 0x4 * j
/-- SCAN.ENTRY.LAST (R387). -/
def offScanEntryLast (i j : Nat) : Nat := 0x382114 + 0x20 * i + 0x4 * j
/-- ASSAY.EVT (R384). -/
def offAssayEvt : Nat := 0x383000
/-- ASSAY.EVT_MASK (R315). -/
def offAssayEvtMask : Nat := 0x383004
/-- ASSAY.EVT_ROUTE (R315). -/
def offAssayEvtRoute : Nat := 0x383008
/-- ASSAY.RX (R383). -/
def offAssayRx (i : Nat) : Nat := 0x384000 + 0x4 * i
/-- TIER.CTL (R211). -/
def offTierCtl : Nat := 0x400000
/-- TIER.SPILL_DEPTH (R213). -/
def offTierSpillDepth : Nat := 0x400004
/-- TIER.HARDPAN_DEPTH (R213). -/
def offTierHardpanDepth : Nat := 0x400008
/-- TIER.PREFETCH_AHEAD (R213). -/
def offTierPrefetchAhead : Nat := 0x40000C
/-- TIER.STATUS (R213). -/
def offTierStatus : Nat := 0x400010
/-- TIER.EVT (R217). -/
def offTierEvt : Nat := 0x400040
/-- TIER.EVT_MASK (R315). -/
def offTierEvtMask : Nat := 0x400044
/-- TIER.EVT_ROUTE (R315). -/
def offTierEvtRoute : Nat := 0x400048
/-- TIER.OCC (R198). -/
def offTierOcc (i j : Nat) : Nat := 0x400100 + 0x20 * i + 0x4 * j
/-- TIER.LIMIT_LO0 (R205). -/
def offTierLimitLo0 : Nat := 0x400108
/-- TIER.LIMIT_HI0 (R205). -/
def offTierLimitHi0 : Nat := 0x40010C
/-- TIER.LIMIT_LO (R205). -/
def offTierLimitLo (i : Nat) : Nat := 0x400128 + 0x20 * i
/-- TIER.LIMIT_HI (R205). -/
def offTierLimitHi (i : Nat) : Nat := 0x40012C + 0x20 * i
/-- TIER.CAP_LO0 (R213). -/
def offTierCapLo0 : Nat := 0x400110
/-- TIER.CAP_HI0 (R213). -/
def offTierCapHi0 : Nat := 0x400114
/-- TIER.CAP_LO1 (R213). -/
def offTierCapLo1 : Nat := 0x400130
/-- TIER.CAP_HI1 (R213). -/
def offTierCapHi1 : Nat := 0x400134
/-- TIER.CAP2 (R213). -/
def offTierCap2 (i : Nat) : Nat := 0x400150 + 0x4 * i
/-- TIER.CNT (R214). -/
def offTierCnt (i : Nat) : Nat := 0x400200 + 0x8 * i
/-- MARL.GEN (R451). -/
def offMarlGen (i : Nat) : Nat := 0x404000 + 0x4 * i
/-- MARL.STATUS (R453). -/
def offMarlStatus : Nat := 0x404080
/-- MEM.CFG (R456). -/
def offMemCfg : Nat := 0x404084
/-- ADM.CLASS.FLOW_LIMIT (R205). -/
def offAdmClassFlowLimit (i : Nat) : Nat := 0x410000 + 0x10 * i
/-- ADM.CLASS.CLOD_LIMIT (R205). -/
def offAdmClassClodLimit (i : Nat) : Nat := 0x410004 + 0x10 * i
/-- ADM.CLASS.FRAC (R205). -/
def offAdmClassFrac (i : Nat) : Nat := 0x410008 + 0x10 * i
/-- METER.ADDR (R202). -/
def offMeterAddr : Nat := 0x418000
/-- METER.CMD (R202). -/
def offMeterCmd : Nat := 0x418004
/-- METER.DATA0 (R202). -/
def offMeterData0 (i : Nat) : Nat := 0x418010 + 0x4 * i
/-- METER.DATA2 (R202). -/
def offMeterData2 : Nat := 0x418018
/-- METER.DATA3 (R202). -/
def offMeterData3 : Nat := 0x41801C
/-- METER.DATA4 (R202). -/
def offMeterData4 (i : Nat) : Nat := 0x418020 + 0x4 * i
/-- METER.DATA7 (R202). -/
def offMeterData7 : Nat := 0x41802C
/-- ADM.PCLASS.STATIC (R205). -/
def offAdmPclassStatic (i j : Nat) : Nat := 0x420000 + 0x100 * i + 0x20 * j
/-- ADM.PCLASS.ALPHA (R205). -/
def offAdmPclassAlpha (i j : Nat) : Nat := 0x420004 + 0x100 * i + 0x20 * j
/-- ADM.PCLASS.ECN_MIN (R208). -/
def offAdmPclassEcnMin (i j : Nat) : Nat := 0x420008 + 0x100 * i + 0x20 * j
/-- ADM.PCLASS.ECN_MAX (R208). -/
def offAdmPclassEcnMax (i j : Nat) : Nat := 0x42000C + 0x100 * i + 0x20 * j
/-- ADM.PCLASS.ECN (R208). -/
def offAdmPclassEcn (i j : Nat) : Nat := 0x420010 + 0x100 * i + 0x20 * j
/-- ADM.PCLASS.OCC (R198). -/
def offAdmPclassOcc (i j k : Nat) : Nat := 0x420014 + 0x100 * i + 0x20 * j + 0x4 * k
/-- ADM.INGRESS.XOFF (R210). -/
def offAdmIngressXoff (i : Nat) : Nat := 0x440000 + 0x10 * i
/-- ADM.INGRESS.XON (R210). -/
def offAdmIngressXon (i : Nat) : Nat := 0x440004 + 0x10 * i
/-- ADM.INGRESS.CTL (R210). -/
def offAdmIngressCtl (i : Nat) : Nat := 0x440008 + 0x10 * i
/-- ADM.CNT (R220). -/
def offAdmCnt (i : Nat) : Nat := 0x450000 + 0x8 * i
/-- ADM.EVT (R220). -/
def offAdmEvt : Nat := 0x450100
/-- ADM.EVT_MASK (R220). -/
def offAdmEvtMask : Nat := 0x450104
/-- ADM.EVT_ROUTE (R315). -/
def offAdmEvtRoute : Nat := 0x450108
/-- SILT.CTL (R404). -/
def offSiltCtl (i : Nat) : Nat := 0x480000 + 0x1000 * i
/-- SILT.TIMEOUT0 (R404). -/
def offSiltTimeout0 (i : Nat) : Nat := 0x480004 + 0x1000 * i
/-- SILT.TIMEOUT1 (R404). -/
def offSiltTimeout1 (i : Nat) : Nat := 0x480008 + 0x1000 * i
/-- SILT.RETRY (R404). -/
def offSiltRetry (i : Nat) : Nat := 0x48000C + 0x1000 * i
/-- SILT.STATUS (R404). -/
def offSiltStatus (i : Nat) : Nat := 0x480010 + 0x1000 * i
/-- SILT.MAP (R390). -/
def offSiltMap (i : Nat) : Nat := 0x480014 + 0x1000 * i
/-- SILT.REPLAY (R400). -/
def offSiltReplay (i : Nat) : Nat := 0x480018 + 0x1000 * i
/-- SILT.SPARE_CFG (R407). -/
def offSiltSpareCfg (i : Nat) : Nat := 0x48001C + 0x1000 * i
/-- SILT.DRAIN (R411). -/
def offSiltDrain (i : Nat) : Nat := 0x480020 + 0x1000 * i
/-- SILT.MOD_CAP (R398). -/
def offSiltModCap (i j : Nat) : Nat := 0x480030 + 0x1000 * i + 0x4 * j
/-- SILT.MOD_STATUS (R398). -/
def offSiltModStatus (i j : Nat) : Nat := 0x480040 + 0x1000 * i + 0x4 * j
/-- SILT.HELD (R411). -/
def offSiltHeld (i j : Nat) : Nat := 0x480050 + 0x1000 * i + 0x4 * j
/-- SILT.CNT (R400). -/
def offSiltCnt (i j : Nat) : Nat := 0x480080 + 0x1000 * i + 0x8 * j
/-- SILT.EVT (R404). -/
def offSiltEvt (i : Nat) : Nat := 0x480100 + 0x1000 * i
/-- SILT.EVT_MASK (R315). -/
def offSiltEvtMask (i : Nat) : Nat := 0x480104 + 0x1000 * i
/-- SILT.EVT_ROUTE (R315). -/
def offSiltEvtRoute (i : Nat) : Nat := 0x480108 + 0x1000 * i
/-- SLANE.CTL (R391). -/
def offSlaneCtl (i : Nat) : Nat := 0x490000 + 0x1000 * i
/-- SLANE.STATUS (R391). -/
def offSlaneStatus (i : Nat) : Nat := 0x490004 + 0x1000 * i
/-- SLANE.BOARD_EQ (R391). -/
def offSlaneBoardEq (i : Nat) : Nat := 0x490010 + 0x1000 * i
/-- SLANE.BOARD_FIR0 (R391). -/
def offSlaneBoardFir0 (i : Nat) : Nat := 0x490014 + 0x1000 * i
/-- SLANE.BOARD_FIR1 (R391). -/
def offSlaneBoardFir1 (i : Nat) : Nat := 0x490018 + 0x1000 * i
/-- SLANE.EQ_NOW (R391). -/
def offSlaneEqNow (i : Nat) : Nat := 0x490020 + 0x1000 * i
/-- SLANE.FIR_NOW0 (R391). -/
def offSlaneFirNow0 (i : Nat) : Nat := 0x490024 + 0x1000 * i
/-- SLANE.FIR_NOW1 (R391). -/
def offSlaneFirNow1 (i : Nat) : Nat := 0x490028 + 0x1000 * i
/-- SLANE.EVT (R391). -/
def offSlaneEvt (i : Nat) : Nat := 0x490040 + 0x1000 * i
/-- SLANE.EVT_MASK (R391). -/
def offSlaneEvtMask (i : Nat) : Nat := 0x490044 + 0x1000 * i
/-- SLANE.EVT_ROUTE (R315). -/
def offSlaneEvtRoute (i : Nat) : Nat := 0x490048 + 0x1000 * i
/-- SLANE.PRBS_CTL (R391). -/
def offSlanePrbsCtl (i : Nat) : Nat := 0x490080 + 0x1000 * i
/-- SLANE.PRBS_INJ (R391). -/
def offSlanePrbsInj (i : Nat) : Nat := 0x490084 + 0x1000 * i
/-- SLANE.PRBS_USER (R391). -/
def offSlanePrbsUser (i j : Nat) : Nat := 0x490088 + 0x1000 * i + 0x4 * j
/-- SLANE.PRBS_STAT (R391). -/
def offSlanePrbsStat (i : Nat) : Nat := 0x490090 + 0x1000 * i
/-- SLANE.CNTA (R391). -/
def offSlaneCnta (i j : Nat) : Nat := 0x490098 + 0x1000 * i + 0x8 * j
/-- SLANE.CNTS (R391). -/
def offSlaneCnts (i j : Nat) : Nat := 0x4900E0 + 0x1000 * i + 0x8 * j
/-- SCHED.INIT (R242). -/
def offSchedInit : Nat := 0x500000
/-- FLOW.ADDR (R239). -/
def offFlowAddr : Nat := 0x500100
/-- FLOW.CMD (R245). -/
def offFlowCmd : Nat := 0x500104
/-- FLOW.DATA (R239). -/
def offFlowData (i : Nat) : Nat := 0x500140 + 0x4 * i
/-- CLOD.ADDR (R234). -/
def offClodAddr : Nat := 0x500200
/-- CLOD.CMD (R245). -/
def offClodCmd : Nat := 0x500204
/-- CLOD.DATA (R234). -/
def offClodData (i : Nat) : Nat := 0x500240 + 0x4 * i
/-- HSCHED.RATE0 (R247). -/
def offHschedRate0 : Nat := 0x501000
/-- HSCHED.RATE1 (R247). -/
def offHschedRate1 : Nat := 0x501100
/-- HSCHED.BURST (R247). -/
def offHschedBurst (i : Nat) : Nat := 0x501004 + 0x100 * i
/-- HSCHED.GEN (R247). -/
def offHschedGen (i : Nat) : Nat := 0x501008 + 0x100 * i
/-- HSCHED.DRR (R247). -/
def offHschedDrr (i : Nat) : Nat := 0x50100C + 0x100 * i
/-- HSCHED.CLASS (R247). -/
def offHschedClass (i j : Nat) : Nat := 0x501010 + 0x100 * i + 0x4 * j
/-- HSCHED.ROUND (R247). -/
def offHschedRound (i j : Nat) : Nat := 0x501050 + 0x100 * i + 0x4 * j
/-- SCHED.HOST_SH_ACK (R245). -/
def offSchedHostShAck : Nat := 0x501F00
/-- SCHED.POSCNT (R224). -/
def offSchedPoscnt (i j : Nat) : Nat := 0x502000 + 0x40 * i + 0x8 * j
/-- SCHED.GEVT (R224). -/
def offSchedGevt : Nat := 0x503000
/-- SCHED.GEVT_MASK (R315). -/
def offSchedGevtMask : Nat := 0x503004
/-- SCHED.GEVT_ROUTE (R315). -/
def offSchedGevtRoute : Nat := 0x503008
/-- REPL.ADDR (R195). -/
def offReplAddr : Nat := 0x5C0000
/-- REPL.CMD (R195). -/
def offReplCmd : Nat := 0x5C0004
/-- REPL.DATA (R195). -/
def offReplData (i : Nat) : Nat := 0x5C0010 + 0x4 * i
/-- ENG.STATUS (R423). -/
def offEngStatus (i : Nat) : Nat := 0x600000 + 0x20 * i
/-- ENG.MC (R426). -/
def offEngMc (i : Nat) : Nat := 0x600004 + 0x20 * i
/-- ENG.VERSION (R421). -/
def offEngVersion (i : Nat) : Nat := 0x600008 + 0x20 * i
/-- ENG.ROLE_MASK (R421). -/
def offEngRoleMask (i : Nat) : Nat := 0x60000C + 0x20 * i
/-- ROLE.CTL (R425). -/
def offRoleCtl (i : Nat) : Nat := 0x601000 + 0x20 * i
/-- ROLE.STATUS (R424). -/
def offRoleStatus (i : Nat) : Nat := 0x601004 + 0x20 * i
/-- LOAD.CTL (R423). -/
def offLoadCtl : Nat := 0x602000
/-- LOAD.DATA (R420). -/
def offLoadData : Nat := 0x602004
/-- LOAD.COUNT (R421). -/
def offLoadCount : Nat := 0x602008
/-- MIN_VERSION (R421). -/
def offMinVersion : Nat := 0x60200C
/-- TILTH.EVT (R426). -/
def offTilthEvt : Nat := 0x603000
/-- TILTH.EVT_MASK (R315). -/
def offTilthEvtMask : Nat := 0x603004
/-- TILTH.EVT_ROUTE (R315). -/
def offTilthEvtRoute : Nat := 0x603008
/-- TILTH.CNT (R426). -/
def offTilthCnt (i : Nat) : Nat := 0x603100 + 0x8 * i
/-- HARM.CTL1 (R440). -/
def offHarmCtl1 : Nat := 0x700004
/-- HARM.CTL2 (R440). -/
def offHarmCtl2 : Nat := 0x700008
/-- HARM.CTL34 (R440). -/
def offHarmCtl34 (i : Nat) : Nat := 0x70000C + 0x4 * i
/-- HARM.CTL56 (R440). -/
def offHarmCtl56 (i : Nat) : Nat := 0x700014 + 0x4 * i
/-- HARM.STATUS (R443). -/
def offHarmStatus : Nat := 0x700040
/-- HARM.ACK (R443). -/
def offHarmAck : Nat := 0x700044
/-- HB.CTL (R439). -/
def offHbCtl : Nat := 0x700050
/-- SAFE.EVT (R441). -/
def offSafeEvt : Nat := 0x700080
/-- SAFE.EVT_MASK (R315). -/
def offSafeEvtMask : Nat := 0x700084
/-- SAFE.EVT_ROUTE (R315). -/
def offSafeEvtRoute : Nat := 0x700088
/-- HARM.LOG (R443). -/
def offHarmLog (i j : Nat) : Nat := 0x700100 + 0x10 * i + 0x4 * j
/-- FENCE.PORT (R442). -/
def offFencePort (i : Nat) : Nat := 0x700200 + 0x4 * i
/-- FENCE.BED (R442). -/
def offFenceBed : Nat := 0x700220
/-- SAFE.CNT (R437). -/
def offSafeCnt (i : Nat) : Nat := 0x700300 + 0x8 * i
/-- WEAR (R455). -/
def offWear (i : Nat) : Nat := 0x701000 + 0x4 * i
/-- WEAR.CFG (R455). -/
def offWearCfg : Nat := 0x701100
/-- WEAR.THRESH (R455). -/
def offWearThresh : Nat := 0x701104
/-- TEL.CTL (R304). -/
def offTelCtl : Nat := 0x740000
/-- TEL.INTERVAL (R307). -/
def offTelInterval : Nat := 0x740004
/-- TEL.ARCH_CFG (R312). -/
def offTelArchCfg : Nat := 0x740008
/-- TEL.ARCH_NOW (R312). -/
def offTelArchNow : Nat := 0x74000C
/-- TEL.FLOW_WR (R313). -/
def offTelFlowWr (i : Nat) : Nat := 0x740010 + 0x4 * i
/-- TEL.CLASS_WR (R313). -/
def offTelClassWr (i : Nat) : Nat := 0x740018 + 0x4 * i
/-- TEL.CLASS_LAST (R313). -/
def offTelClassLast (i : Nat) : Nat := 0x740020 + 0x4 * i
/-- TEL.FLOW_SAMPLE (R304). -/
def offTelFlowSample (i : Nat) : Nat := 0x740040 + 0x4 * i
/-- TEL.EVT (R309). -/
def offTelEvt : Nat := 0x740080
/-- TEL.EVT_MASK (R315). -/
def offTelEvtMask : Nat := 0x740084
/-- TEL.EVT_ROUTE (R315). -/
def offTelEvtRoute : Nat := 0x740088
/-- TEL.CNT (R309). -/
def offTelCnt (i : Nat) : Nat := 0x740100 + 0x8 * i
/-- TEL.CLASS_MASK (R307). -/
def offTelClassMask (i : Nat) : Nat := 0x741000 + 0x4 * i
/-- TEL.DROP (R303). -/
def offTelDrop (i j : Nat) : Nat := 0x742000 + 0x100 * i + 0x8 * j
/-- PMU.LINE (R319). -/
def offPmuLine (i : Nat) : Nat := 0x780000 + 0x4 * i
/-- PMU.OCC (R320). -/
def offPmuOcc (i : Nat) : Nat := 0x780100 + 0x4 * i
/-- PMU.OVF (R319). -/
def offPmuOvf (i : Nat) : Nat := 0x780200 + 0x4 * i
/-- MGMT.CTL (R128). -/
def offMgmtCtl : Nat := 0x800000
/-- MGMT.STATUS (R132). -/
def offMgmtStatus : Nat := 0x800004
/-- MGMT.BAD_RING (R129). -/
def offMgmtBadRing : Nat := 0x800008
/-- MGMT.EVT (R134). -/
def offMgmtEvt : Nat := 0x800040
/-- MGMT.EVT_MASK (R315). -/
def offMgmtEvtMask : Nat := 0x800044
/-- MGMT.EVT_ROUTE (R315). -/
def offMgmtEvtRoute : Nat := 0x800048
/-- MGMT.DAF_LO (R128). -/
def offMgmtDafLo (i : Nat) : Nat := 0x800100 + 0x8 * i
/-- MGMT.DAF_HI (R128). -/
def offMgmtDafHi (i : Nat) : Nat := 0x800104 + 0x8 * i
/-- MDIO.CTL (R101). -/
def offMdioCtl : Nat := 0x800200
/-- MDIO.RDATA (R101). -/
def offMdioRdata : Nat := 0x800204
/-- MDIO.CLK (R101). -/
def offMdioClk : Nat := 0x800208
/-- WAKE.CTL (R133). -/
def offWakeCtl : Nat := 0x800400
/-- WAKE.ADDR_LO (R133). -/
def offWakeAddrLo : Nat := 0x800404
/-- WAKE.ADDR_HI (R133). -/
def offWakeAddrHi : Nat := 0x800408
/-- WAKE.STATUS (R133). -/
def offWakeStatus : Nat := 0x80040C
/-- WAKE.PAT.CTL (R133). -/
def offWakePatCtl (i : Nat) : Nat := 0x800500 + 0x80 * i
/-- WAKE.PAT.MASK (R133). -/
def offWakePatMask (i j : Nat) : Nat := 0x800508 + 0x80 * i + 0x4 * j
/-- WAKE.PAT.BYTE (R133). -/
def offWakePatByte (i j : Nat) : Nat := 0x800540 + 0x80 * i + 0x4 * j
/-- MGMT.STAT.CNT (R125). -/
def offMgmtStatCnt (i : Nat) : Nat := 0x808000 + 0x8 * i
/-- MGMT.STAT.SNAP (R127). -/
def offMgmtStatSnap (i : Nat) : Nat := 0x808200 + 0x4 * i
/-- MGMT.STAT.CTL (R127). -/
def offMgmtStatCtl : Nat := 0x808400
/-- MGMT.STAT.HALF (R126). -/
def offMgmtStatHalf (i : Nat) : Nat := 0x808408 + 0x4 * i
/-- MGMT.STAT.WRAP (R126). -/
def offMgmtStatWrap (i : Nat) : Nat := 0x808410 + 0x4 * i
/-- PORT.FORM (R79). -/
def offPortForm (b i : Nat) : Nat := 0x1001000 + 0x100000 * b + 0x40 * i
/-- PORT.TIMEOUT0 (R98). -/
def offPortTimeout0 (b i : Nat) : Nat := 0x1001004 + 0x100000 * b + 0x40 * i
/-- PORT.TIMEOUT1 (R98). -/
def offPortTimeout1 (b i : Nat) : Nat := 0x1001008 + 0x100000 * b + 0x40 * i
/-- PORT.RETRY (R98). -/
def offPortRetry (b i : Nat) : Nat := 0x100100C + 0x100000 * b + 0x40 * i
/-- PORT.STATUS (R86). -/
def offPortStatus (b i : Nat) : Nat := 0x1001010 + 0x100000 * b + 0x40 * i
/-- PORT.COUNT (R86). -/
def offPortCount (b i : Nat) : Nat := 0x1001014 + 0x100000 * b + 0x40 * i
/-- PORT.EVT (R86). -/
def offPortEvt (b i : Nat) : Nat := 0x1001018 + 0x100000 * b + 0x40 * i
/-- PORT.EVT_MASK (R86). -/
def offPortEvtMask (b i : Nat) : Nat := 0x100101C + 0x100000 * b + 0x40 * i
/-- PORT.EVT_ROUTE (R315). -/
def offPortEvtRoute (b i : Nat) : Nat := 0x1001020 + 0x100000 * b + 0x40 * i
/-- LANE.CTL (R497). -/
def offLaneCtl (b i : Nat) : Nat := 0x1010000 + 0x100000 * b + 0x1000 * i
/-- LANE.STATUS (R85). -/
def offLaneStatus (b i : Nat) : Nat := 0x1010004 + 0x100000 * b + 0x1000 * i
/-- LANE.BOARD_EQ (R83). -/
def offLaneBoardEq (b i : Nat) : Nat := 0x1010010 + 0x100000 * b + 0x1000 * i
/-- LANE.BOARD_FIR0 (R83). -/
def offLaneBoardFir0 (b i : Nat) : Nat := 0x1010014 + 0x100000 * b + 0x1000 * i
/-- LANE.BOARD_FIR1 (R83). -/
def offLaneBoardFir1 (b i : Nat) : Nat := 0x1010018 + 0x100000 * b + 0x1000 * i
/-- LANE.EQ_NOW (R84). -/
def offLaneEqNow (b i : Nat) : Nat := 0x1010020 + 0x100000 * b + 0x1000 * i
/-- LANE.FIR_NOW0 (R84). -/
def offLaneFirNow0 (b i : Nat) : Nat := 0x1010024 + 0x100000 * b + 0x1000 * i
/-- LANE.FIR_NOW1 (R84). -/
def offLaneFirNow1 (b i : Nat) : Nat := 0x1010028 + 0x100000 * b + 0x1000 * i
/-- LANE.EVT (R90). -/
def offLaneEvt (b i : Nat) : Nat := 0x1010040 + 0x100000 * b + 0x1000 * i
/-- LANE.EVT_MASK (R90). -/
def offLaneEvtMask (b i : Nat) : Nat := 0x1010044 + 0x100000 * b + 0x1000 * i
/-- LANE.EVT_ROUTE (R315). -/
def offLaneEvtRoute (b i : Nat) : Nat := 0x1010048 + 0x100000 * b + 0x1000 * i
/-- LANE.PRBS_CTL (R96). -/
def offLanePrbsCtl (b i : Nat) : Nat := 0x1010080 + 0x100000 * b + 0x1000 * i
/-- LANE.PRBS_INJ (R97). -/
def offLanePrbsInj (b i : Nat) : Nat := 0x1010084 + 0x100000 * b + 0x1000 * i
/-- LANE.PRBS_USER (R95). -/
def offLanePrbsUser (b i j : Nat) : Nat := 0x1010088 + 0x100000 * b + 0x1000 * i + 0x4 * j
/-- LANE.PRBS_STAT (R96). -/
def offLanePrbsStat (b i : Nat) : Nat := 0x1010090 + 0x100000 * b + 0x1000 * i
/-- LANE.CNTA (R99). -/
def offLaneCnta (b i j : Nat) : Nat := 0x1010098 + 0x100000 * b + 0x1000 * i + 0x8 * j
/-- LANE.CNTF (R99). -/
def offLaneCntf (b i j : Nat) : Nat := 0x10100C0 + 0x100000 * b + 0x1000 * i + 0x8 * j
/-- MAC.CTL (R106). -/
def offMacCtl (b i : Nat) : Nat := 0x1020000 + 0x100000 * b + 0x1000 * i
/-- MAC.FC_TX (R116). -/
def offMacFcTx (b i : Nat) : Nat := 0x1020004 + 0x100000 * b + 0x1000 * i
/-- MAC.FC_MASK (R114). -/
def offMacFcMask (b i : Nat) : Nat := 0x1020008 + 0x100000 * b + 0x1000 * i
/-- MAC.WD (R117). -/
def offMacWd (b i : Nat) : Nat := 0x102000C + 0x100000 * b + 0x1000 * i
/-- MAC.PAUSE_STAT (R117). -/
def offMacPauseStat (b i : Nat) : Nat := 0x1020010 + 0x100000 * b + 0x1000 * i
/-- MAC.MM_CTL (R120). -/
def offMacMmCtl (b i : Nat) : Nat := 0x1020020 + 0x100000 * b + 0x1000 * i
/-- MAC.MM_STATUS (R120). -/
def offMacMmStatus (b i : Nat) : Nat := 0x1020024 + 0x100000 * b + 0x1000 * i
/-- MAC.FAULT (R112). -/
def offMacFault (b i : Nat) : Nat := 0x1020028 + 0x100000 * b + 0x1000 * i
/-- MAC.BAD_DEST (R110). -/
def offMacBadDest (b i : Nat) : Nat := 0x1020030 + 0x100000 * b + 0x1000 * i
/-- MAC.BAD_FLOW (R110). -/
def offMacBadFlow (b i : Nat) : Nat := 0x1020034 + 0x100000 * b + 0x1000 * i
/-- MAC.EVT (R113). -/
def offMacEvt (b i : Nat) : Nat := 0x1020040 + 0x100000 * b + 0x1000 * i
/-- MAC.EVT_MASK (R113). -/
def offMacEvtMask (b i : Nat) : Nat := 0x1020044 + 0x100000 * b + 0x1000 * i
/-- MAC.EVT_ROUTE (R315). -/
def offMacEvtRoute (b i : Nat) : Nat := 0x1020048 + 0x100000 * b + 0x1000 * i
/-- PARSE.CTL (R143). -/
def offParseCtl (b : Nat) : Nat := 0x1030000 + 0x100000 * b
/-- PARSE.UDP_PORT0 (R144). -/
def offParseUdpPort0 (b : Nat) : Nat := 0x1030004 + 0x100000 * b
/-- PARSE.UDP_PORT1 (R144). -/
def offParseUdpPort1 (b : Nat) : Nat := 0x1030008 + 0x100000 * b
/-- PARSE.GENEVE_OPT (R148). -/
def offParseGeneveOpt (b : Nat) : Nat := 0x103000C + 0x100000 * b
/-- PARSE.PIPE_MAP (R139). -/
def offParsePipeMap (b : Nat) : Nat := 0x1030010 + 0x100000 * b
/-- PARSE.PIPE_STATUS (R140). -/
def offParsePipeStatus (b : Nat) : Nat := 0x1030014 + 0x100000 * b
/-- PARSE.MF_ACTION (R152). -/
def offParseMfAction (b : Nat) : Nat := 0x1030020 + 0x100000 * b
/-- PARSE.MF_PUNT_DEST (R152). -/
def offParseMfPuntDest (b : Nat) : Nat := 0x1030024 + 0x100000 * b
/-- PARSE.MF_PUNT_FLOW (R152). -/
def offParseMfPuntFlow (b : Nat) : Nat := 0x1030028 + 0x100000 * b
/-- PARSE.MF_SEEN (R156). -/
def offParseMfSeen (b : Nat) : Nat := 0x1030030 + 0x100000 * b
/-- PARSE.EVT (R156). -/
def offParseEvt (b : Nat) : Nat := 0x1030040 + 0x100000 * b
/-- PARSE.EVT_MASK (R156). -/
def offParseEvtMask (b : Nat) : Nat := 0x1030044 + 0x100000 * b
/-- PARSE.EVT_ROUTE (R315). -/
def offParseEvtRoute (b : Nat) : Nat := 0x1030048 + 0x100000 * b
/-- PARSE.CNT_MF (R155). -/
def offParseCntMf (b i : Nat) : Nat := 0x1030100 + 0x100000 * b + 0x8 * i
/-- PARSE.CNT (R155). -/
def offParseCnt (b i : Nat) : Nat := 0x1030180 + 0x100000 * b + 0x8 * i
/-- PARSE.TRACE_CTL (R147). -/
def offParseTraceCtl (b : Nat) : Nat := 0x1030200 + 0x100000 * b
/-- PARSE.TRACE_RESULT (R147). -/
def offParseTraceResult (b i : Nat) : Nat := 0x1030210 + 0x100000 * b + 0x4 * i
/-- MESH.CTL (R171). -/
def offMeshCtl (b : Nat) : Nat := 0x1040000 + 0x100000 * b
/-- MESH.EPOCH (R170). -/
def offMeshEpoch (b : Nat) : Nat := 0x1040004 + 0x100000 * b
/-- MESH.SHAPE_AUTO (R159). -/
def offMeshShapeAuto (b : Nat) : Nat := 0x1040008 + 0x100000 * b
/-- MESH.SHAPE_FIX (R159). -/
def offMeshShapeFix (b : Nat) : Nat := 0x104000C + 0x100000 * b
/-- MESH.HASH_SEED (R161). -/
def offMeshHashSeed (b : Nat) : Nat := 0x1040010 + 0x100000 * b
/-- MESH.PUNT_DEST (R165). -/
def offMeshPuntDest (b : Nat) : Nat := 0x1040014 + 0x100000 * b
/-- MESH.PUNT_FLOW (R165). -/
def offMeshPuntFlow (b : Nat) : Nat := 0x1040018 + 0x100000 * b
/-- MESH.EVT (R171). -/
def offMeshEvt (b : Nat) : Nat := 0x1040040 + 0x100000 * b
/-- MESH.EVT_MASK (R171). -/
def offMeshEvtMask (b : Nat) : Nat := 0x1040044 + 0x100000 * b
/-- MESH.EVT_ROUTE (R315). -/
def offMeshEvtRoute (b : Nat) : Nat := 0x1040048 + 0x100000 * b
/-- MESH.DEFAULT (R162). -/
def offMeshDefault (b i j : Nat) : Nat := 0x1040080 + 0x100000 * b + 0x10 * i + 0x4 * j
/-- MESH.TBL_ADDR (R194). -/
def offMeshTblAddr (b : Nat) : Nat := 0x1040100 + 0x100000 * b
/-- MESH.TBL_CMD (R194). -/
def offMeshTblCmd (b : Nat) : Nat := 0x1040104 + 0x100000 * b
/-- MESH.TBL_DATA (R194). -/
def offMeshTblData (b i : Nat) : Nat := 0x1040180 + 0x100000 * b + 0x4 * i
/-- MIRROR.W0 (R186). -/
def offMirrorW0 (b i : Nat) : Nat := 0x1040300 + 0x100000 * b + 0x10 * i
/-- MIRROR.W1 (R186). -/
def offMirrorW1 (b i : Nat) : Nat := 0x1040304 + 0x100000 * b + 0x10 * i
/-- MIRROR.W2 (R186). -/
def offMirrorW2 (b i : Nat) : Nat := 0x1040308 + 0x100000 * b + 0x10 * i
/-- MESH.CNT (R165). -/
def offMeshCnt (b i : Nat) : Nat := 0x1040400 + 0x100000 * b + 0x8 * i
/-- FHI.CTL (R180). -/
def offFhiCtl (b : Nat) : Nat := 0x1041000 + 0x100000 * b
/-- FHI.TO_DEST (R180). -/
def offFhiToDest (b : Nat) : Nat := 0x1041004 + 0x100000 * b
/-- FHI.TO_FLOW (R180). -/
def offFhiToFlow (b : Nat) : Nat := 0x1041008 + 0x100000 * b
/-- FHI.KEY_TB (R176). -/
def offFhiKeyTb (b : Nat) : Nat := 0x104100C + 0x100000 * b
/-- FHI.CHAN (R174). -/
def offFhiChan (b i : Nat) : Nat := 0x1041010 + 0x100000 * b + 0x4 * i
/-- FHI.EVT (R178). -/
def offFhiEvt (b : Nat) : Nat := 0x1041040 + 0x100000 * b
/-- FHI.EVT_MASK (R178). -/
def offFhiEvtMask (b : Nat) : Nat := 0x1041044 + 0x100000 * b
/-- FHI.EVT_ROUTE (R315). -/
def offFhiEvtRoute (b : Nat) : Nat := 0x1041048 + 0x100000 * b
/-- FHI.CNT (R178). -/
def offFhiCnt (b i : Nat) : Nat := 0x1041100 + 0x100000 * b + 0x8 * i
/-- REWRITE.CTL (R193). -/
def offRewriteCtl (b : Nat) : Nat := 0x1042000 + 0x100000 * b
/-- REWRITE.EVT (R191). -/
def offRewriteEvt (b : Nat) : Nat := 0x1042040 + 0x100000 * b
/-- REWRITE.EVT_MASK (R191). -/
def offRewriteEvtMask (b : Nat) : Nat := 0x1042044 + 0x100000 * b
/-- REWRITE.EVT_ROUTE (R315). -/
def offRewriteEvtRoute (b : Nat) : Nat := 0x1042048 + 0x100000 * b
/-- REWRITE.CNT_DROP_REWRITE (R191). -/
def offRewriteCntDropRewrite (b : Nat) : Nat := 0x1042100 + 0x100000 * b
/-- REWRITE.TEMPLATE (R193). -/
def offRewriteTemplate (b i j : Nat) : Nat := 0x1043000 + 0x100000 * b + 0x40 * i + 0x4 * j
/-- REWRITE.PROGRAM.W0 (R188). -/
def offRewriteProgramW0 (b i j : Nat) : Nat := 0x1044000 + 0x100000 * b + 0x100 * i + 0x8 * j
/-- REWRITE.PROGRAM.W1 (R188). -/
def offRewriteProgramW1 (b i j : Nat) : Nat := 0x1044004 + 0x100000 * b + 0x100 * i + 0x8 * j
/-- PATTERN.BYTES (R167). -/
def offPatternBytes (b i j : Nat) : Nat := 0x1048000 + 0x100000 * b + 0x40 * i + 0x4 * j
/-- PATTERN.MASK (R167). -/
def offPatternMask (b i : Nat) : Nat := 0x1048020 + 0x100000 * b + 0x40 * i
/-- PATTERN.CTL (R167). -/
def offPatternCtl (b i : Nat) : Nat := 0x1048024 + 0x100000 * b + 0x40 * i
/-- PATTERN.OFF (R167). -/
def offPatternOff (b i : Nat) : Nat := 0x1048028 + 0x100000 * b + 0x40 * i
/-- METER.PORT (R199). -/
def offMeterPort (b i : Nat) : Nat := 0x1050000 + 0x100000 * b + 0x4 * i
/-- METER.DSCP_MAP (R201). -/
def offMeterDscpMap (b i : Nat) : Nat := 0x1050040 + 0x100000 * b + 0x4 * i
/-- METER.CNT (R202). -/
def offMeterCnt (b i : Nat) : Nat := 0x1050080 + 0x100000 * b + 0x8 * i
/-- SCHED.PORT.RATE (R226). -/
def offSchedPortRate (b i : Nat) : Nat := 0x1060000 + 0x100000 * b + 0x100 * i
/-- SCHED.PORT.BURST (R226). -/
def offSchedPortBurst (b i : Nat) : Nat := 0x1060004 + 0x100000 * b + 0x100 * i
/-- SCHED.PORT.GEN (R243). -/
def offSchedPortGen (b i : Nat) : Nat := 0x1060008 + 0x100000 * b + 0x100 * i
/-- SCHED.PORT.DRR (R225). -/
def offSchedPortDrr (b i : Nat) : Nat := 0x106000C + 0x100000 * b + 0x100 * i
/-- SCHED.PORT.CLASS (R225). -/
def offSchedPortClass (b i j : Nat) : Nat := 0x1060010 + 0x100000 * b + 0x100 * i + 0x4 * j
/-- SCHED.PORT.CLODQ (R233). -/
def offSchedPortClodq (b i j : Nat) : Nat := 0x1060030 + 0x100000 * b + 0x100 * i + 0x4 * j
/-- SCHED.PORT.ROUND (R230). -/
def offSchedPortRound (b i j : Nat) : Nat := 0x1060050 + 0x100000 * b + 0x100 * i + 0x4 * j
/-- SCHED.SH_ACK (R245). -/
def offSchedShAck (b : Nat) : Nat := 0x106F000 + 0x100000 * b
/-- SCHED.CTL (R239). -/
def offSchedCtl (b : Nat) : Nat := 0x106F004 + 0x100000 * b
/-- SCHED.EVT (R240). -/
def offSchedEvt (b : Nat) : Nat := 0x106F040 + 0x100000 * b
/-- SCHED.EVT_MASK (R240). -/
def offSchedEvtMask (b : Nat) : Nat := 0x106F044 + 0x100000 * b
/-- SCHED.EVT_ROUTE (R315). -/
def offSchedEvtRoute (b : Nat) : Nat := 0x106F048 + 0x100000 * b
/-- SCHED.CNT (R240). -/
def offSchedCnt (b i : Nat) : Nat := 0x106F100 + 0x100000 * b + 0x8 * i
/-- GATE.CTL (R263). -/
def offGateCtl (b i : Nat) : Nat := 0x1070000 + 0x100000 * b + 0x80 * i
/-- GATE.STATUS (R265). -/
def offGateStatus (b i : Nat) : Nat := 0x1070004 + 0x100000 * b + 0x80 * i
/-- GATE.SH_CYCLE (R263). -/
def offGateShCycle (b i : Nat) : Nat := 0x1070008 + 0x100000 * b + 0x80 * i
/-- GATE.SH_CFG (R263). -/
def offGateShCfg (b i : Nat) : Nat := 0x107000C + 0x100000 * b + 0x80 * i
/-- GATE.SH_BASE_NS (R263). -/
def offGateShBaseNs (b i : Nat) : Nat := 0x1070010 + 0x100000 * b + 0x80 * i
/-- GATE.SH_BASE_S (R263). -/
def offGateShBaseS (b i j : Nat) : Nat := 0x1070014 + 0x100000 * b + 0x80 * i + 0x4 * j
/-- GATE.MON (R267). -/
def offGateMon (b i : Nat) : Nat := 0x107001C + 0x100000 * b + 0x80 * i
/-- GATE.ACT (R264). -/
def offGateAct (b i j : Nat) : Nat := 0x1070020 + 0x100000 * b + 0x80 * i + 0x4 * j
/-- GATE.ADOPT (R264). -/
def offGateAdopt (b i j : Nat) : Nat := 0x1070034 + 0x100000 * b + 0x80 * i + 0x4 * j
/-- GATE.CNT (R268). -/
def offGateCnt (b i j : Nat) : Nat := 0x1070040 + 0x100000 * b + 0x80 * i + 0x8 * j
/-- GATE.ADDR (R250). -/
def offGateAddr (b : Nat) : Nat := 0x1071000 + 0x100000 * b
/-- GATE.CMD (R250). -/
def offGateCmd (b : Nat) : Nat := 0x1071004 + 0x100000 * b
/-- GATE.DATA0 (R250). -/
def offGateData0 (b : Nat) : Nat := 0x1071008 + 0x100000 * b
/-- GATE.DATA1 (R250). -/
def offGateData1 (b : Nat) : Nat := 0x107100C + 0x100000 * b
/-- GATE.EVT (R265). -/
def offGateEvt (b : Nat) : Nat := 0x1071040 + 0x100000 * b
/-- GATE.EVT_MASK (R265). -/
def offGateEvtMask (b : Nat) : Nat := 0x1071044 + 0x100000 * b
/-- GATE.EVT_ROUTE (R315). -/
def offGateEvtRoute (b : Nat) : Nat := 0x1071048 + 0x100000 * b
/-- STAT.CNT (R125). -/
def offStatCnt (b i j : Nat) : Nat := 0x1080000 + 0x100000 * b + 0x800 * i + 0x8 * j
/-- STAT.SNAP (R127). -/
def offStatSnap (b i j : Nat) : Nat := 0x1080200 + 0x100000 * b + 0x800 * i + 0x4 * j
/-- STAT.CTL (R127). -/
def offStatCtl (b i : Nat) : Nat := 0x1080400 + 0x100000 * b + 0x800 * i
/-- STAT.HALF (R126). -/
def offStatHalf (b i j : Nat) : Nat := 0x1080408 + 0x100000 * b + 0x800 * i + 0x4 * j
/-- STAT.WRAP (R126). -/
def offStatWrap (b i j : Nat) : Nat := 0x1080410 + 0x100000 * b + 0x800 * i + 0x4 * j
/-- PTP.CTL (R282). -/
def offPtpCtl (b i : Nat) : Nat := 0x1090000 + 0x100000 * b + 0x100 * i
/-- PTP.DELAY (R280). -/
def offPtpDelay (b i : Nat) : Nat := 0x1090004 + 0x100000 * b + 0x100 * i
/-- TSQ.STATUS (R288). -/
def offTsqStatus (b i : Nat) : Nat := 0x1090008 + 0x100000 * b + 0x100 * i
/-- TSQ.ENTRY (R287). -/
def offTsqEntry (b i j : Nat) : Nat := 0x1090010 + 0x100000 * b + 0x100 * i + 0x4 * j
/-- TS.CNT (R288). -/
def offTsCnt (b i j : Nat) : Nat := 0x1090040 + 0x100000 * b + 0x100 * i + 0x8 * j
/-- TS.EVT (R288). -/
def offTsEvt (b : Nat) : Nat := 0x109F000 + 0x100000 * b
/-- TS.EVT_MASK (R288). -/
def offTsEvtMask (b : Nat) : Nat := 0x109F004 + 0x100000 * b
/-- TS.EVT_ROUTE (R315). -/
def offTsEvtRoute (b : Nat) : Nat := 0x109F008 + 0x100000 * b
/-- SWAP.CTL (R447). -/
def offSwapCtl : Nat := 0x2000000
/-- SWAP.STATUS (R447). -/
def offSwapStatus : Nat := 0x2000004

end Sys2Proof.Machine
end

