-- ==== Sys2Proof/Machine/Clamps.lean ====
section
/-! DEFINITION. The ranges of the timeout and limit fields: such a field stores and reads back the nearest bound of a value
outside its range, but 0 where the range begins at 1 (R98, R119). -/

namespace Sys2Proof.Machine

/-- By the first register of an array: its fields with a range, each as its top and bottom bit and its bounds. -/
def clampTable : List (Nat × List (Nat × Nat × Nat × Nat)) := [
  (0x220000, [(31, 16, 1, 10000), (15, 0, 250, 65535)]),  -- RING.CTL
  (0x382000, [(15, 0, 1000, 65535)]),  -- SCAN.CTL
  (0x480000, [(15, 0, 10, 10000)]),  -- SILT.CTL
  (0x480004, [(31, 16, 10, 5000), (15, 0, 10, 2000)]),  -- SILT.TIMEOUT0
  (0x480008, [(31, 16, 1, 500), (15, 0, 1, 100)]),  -- SILT.TIMEOUT1
  (0x480018, [(31, 28, 1, 15), (15, 0, 500, 65535)]),  -- SILT.REPLAY
  (0x480020, [(31, 0, 1024, 1048576)]),  -- SILT.DRAIN
  (0x700004, [(29, 16, 1, 16383)]),  -- HARM.CTL1
  (0x700008, [(29, 16, 1, 16383)]),  -- HARM.CTL2
  (0x70000C, [(29, 16, 1, 16383)]),  -- HARM.CTL34
  (0x700014, [(29, 16, 1, 16383)]),  -- HARM.CTL56
  (0x700050, [(13, 0, 10, 10000)]),  -- HB.CTL
  (0x740004, [(19, 0, 1000, 1000000)]),  -- TEL.INTERVAL
  (0x800000, [(13, 0, 64, 16383)]),  -- MGMT.CTL
  (0x800500, [(14, 8, 1, 64)]),  -- WAKE.PAT.CTL
  (0x1001000, [(25, 16, 1, 1023)]),  -- PORT.FORM
  (0x1001004, [(31, 16, 10, 5000), (15, 0, 10, 2000)]),  -- PORT.TIMEOUT0
  (0x1001008, [(31, 16, 1, 500), (15, 0, 1, 100)]),  -- PORT.TIMEOUT1
  (0x100100C, [(31, 16, 50, 2000), (7, 0, 1, 255)]),  -- PORT.RETRY
  (0x1020000, [(13, 0, 64, 16383)]),  -- MAC.CTL
  (0x1020004, [(31, 16, 1, 65535), (15, 0, 1, 65535)]),  -- MAC.FC_TX
  (0x102000C, [(31, 16, 1, 10000), (15, 0, 1, 10000)]),  -- MAC.WD
  (0x1020020, [(15, 12, 1, 15), (7, 0, 1, 128)]),  -- MAC.MM_CTL
  (0x1041000, [(15, 0, 20, 65535)]),  -- FHI.CTL
  (0x2000000, [(15, 0, 256, 65535)])  -- SWAP.CTL
]

/-- A word with one field brought into its range. -/
def clampField (w : Word) : Nat × Nat × Nat × Nat → Word
  | (hi, lo, least, most) =>
    let n := fld hi lo w
    if least = 1 ∧ n = 0 then w else setFld hi lo (clampTo least most n) w

/-- A word as the register at an offset stores it. -/
def clampReg (off : Nat) (w : Word) : Word :=
  match regRow off with
  | some row => ((clampTable.find? fun e => e.1 == row.base).map (·.2)).getD [] |>.foldl clampField w
  | none => w

end Sys2Proof.Machine
end

