-- ==== Sys2Proof/Machine/Sparse.lean ====
section
/-! DEFINITION. Sparse tables: a list of (key, value) pairs with keys strictly rising and no value equal to what an
unlisted key reads as. Equal tables are equal lists. -/

namespace Sys2Proof.Machine

/-- Read of a key; a key that is not listed reads as the default gives it. -/
def sget {V : Type} (d : Nat → V) : List (Nat × V) → Nat → V
  | [], k => d k
  | (k', v) :: m, k => if k' = k then v else sget d m k

/-- Put a pair at its place in key order, in place of the key's earlier pair. -/
def sput {V : Type} (k : Nat) (v : V) : List (Nat × V) → List (Nat × V)
  | [] => [(k, v)]
  | (k', v') :: m =>
    if k' < k then (k', v') :: sput k v m
    else if k' = k then (k, v) :: m
    else (k, v) :: (k', v') :: m

/-- Write of a key: a value equal to the default removes the key's pair. -/
def sset {V : Type} [DecidableEq V] (d : Nat → V) (m : List (Nat × V)) (k : Nat) (v : V) : List (Nat × V) :=
  if v = d k then m.filter (fun e => e.1 ≠ k) else sput k v m

/-- Change of the value at a key. -/
def smod {V : Type} [DecidableEq V] (d : Nat → V) (m : List (Nat × V)) (k : Nat) (f : V → V) : List (Nat × V) :=
  sset d m k (f (sget d m k))

/-- Removal of every key that a test names: those keys read as the default again. -/
def sdrop {V : Type} (p : Nat → Bool) (m : List (Nat × V)) : List (Nat × V) :=
  m.filter (fun e => !p e.1)

/-- The canonical form of a sparse table. -/
def swf {V : Type} [DecidableEq V] (d : Nat → V) : List (Nat × V) → Bool
  | [] => true
  | (k, v) :: m => decide (v ≠ d k) && m.all (fun e => decide (k < e.1)) && swf d m

end Sys2Proof.Machine
end

