-- ==== Sys2Proof/Config.lean ====
section
/-! DEFINITION. What the integration of the block fixes, and the free values: constants without a body for the
values the spec leaves open. A statement about one of them holds for every value it may have. -/

namespace Sys2Proof.Config

/-- DESIGN CHOICE (assumption 2). The options the block is built with, in the bit order of ID.OPTIONS (R59):
a block built with every option, the one whose reset value the spec prints. -/
def builtOptions : BitVec 5 := 0x1F

/-- DESIGN CHOICE (assumption 2). The silt links the block is built with (R53, LINK_MASK): all eight. -/
def builtLinks : BitVec 8 := 0xFF

/-- Free value (assumption 3): draw number n of the pseudo-random sources whose start or use the spec leaves open:
the telemetry LFSR value of R304, the backoff of R131, what a lost blow leaves. -/
opaque freeValue : Nat → Nat

/-- Free value (assumption 8): the 16-bit pseudo-random value that the ECN LFSR's 32 bits give (R208). -/
opaque ecnValue : BitVec 32 → BitVec 16

/-- Free value (assumption 4): the 128-bit challenge number n that CHAL_REQ issues (R471). -/
opaque freeChallenge : Nat → BitVec 128

/-- Free value (assumption 5): an opaque frame reference of the flow record's words 6 and 7 (chapter 09). -/
opaque freeFrameRef : Nat → BitVec 32

/-- Free value (assumption 17): word n of the key hashes that the fuses hold, 12 words for each debug slot and then for each
image slot (R466). -/
opaque keyHash : Nat → BitVec 32

/-- Free value (assumption 80): the bit errors that the channel of a lane puts into the bits a checker in sync takes in at a
root tick (R96). -/
opaque channelErrors : Nat → Nat → Nat

/-- Free value (assumption 81): which lanes of a port's span, by bit, have completed a stage that is not complete, as a read of
LANES_DONE at a root tick shows it (R86). -/
opaque lanesDone : Nat → Nat → BitVec 8

/-- Free values (assumption 83): whether the management port asks its partner to pause at a root tick, and its pause quanta. -/
opaque mgmtPause : Nat → Bool
opaque mgmtQuanta : BitVec 16

/-- Free value (assumption 82): whether the in-band link status of the management port reports up at a root tick. -/
opaque mgmtLink : Nat → Bool

/-- Free value (assumption 24): the key of 256 bits that decrypts tilth images, which the fuses and the lifecycle state sensed
at power-on reset give (R421, R465). -/
opaque imageKey : Nat → BitVec 256

end Sys2Proof.Config
end

