-- ==== Sys2Proof/Machine/Crc.lean ====
section
/-! DEFINITION. Check values (R375, R376): the parametrised cyclic redundancy check of the Assay units, which the mesh
hashes (R161) and the key channels (R174) also use. -/

namespace Sys2Proof.Machine

/-- The low n bits of a number in reverse order. -/
def reflect : Nat → Nat → Nat
  | 0, _ => 0
  | n + 1, v => v % 2 * 2 ^ n + reflect n (v / 2)

/-- A parameter set of R375. Bits of the values at or above the width are ignored where the set is used. -/
structure CrcSet where
  width : Nat
  poly : Nat
  init : Nat
  xorOut : Nat
  refIn : Bool
  refOut : Bool
  deriving DecidableEq, Repr

/-- One shift of the register. -/
def crcShift (w poly : Nat) (reg : Nat) : Nat :=
  if 2 ^ (w - 1) ≤ reg then (reg * 2 % 2 ^ w) ^^^ poly else reg * 2 % 2 ^ w

/-- n shifts of the register. -/
def crcShifts (w poly : Nat) : Nat → Nat → Nat
  | 0, reg => reg
  | n + 1, reg => crcShifts w poly n (crcShift w poly reg)

/-- One byte enters the register. -/
def crcByte (c : CrcSet) (reg : Nat) (b : Byte) : Nat :=
  let v := if c.refIn then reflect 8 b.toNat else b.toNat
  crcShifts c.width (c.poly % 2 ^ c.width) 8 (reg ^^^ (v * 2 ^ (c.width - 8)))

/-- The check value of a byte sequence (R375). -/
def crc (c : CrcSet) (bs : List Byte) : Nat :=
  let reg := bs.foldl (crcByte c) (c.init % 2 ^ c.width)
  (if c.refOut then reflect c.width reg else reg) ^^^ (c.xorOut % 2 ^ c.width)

/-- The bytes of a check value, most significant first (R376). -/
def crcBytes (c : CrcSet) (v : Nat) : List Byte := beBytes ((c.width + 7) / 8) v

/-- The parameter set of the mesh hashes with an initial value (R161). -/
def meshCrc (init : Nat) : CrcSet :=
  { width := 32, poly := 0x1EDC6F41, init := init, xorOut := 0xFFFFFFFF, refIn := true, refOut := true }

/-- CRC-32C with initial value and final XOR of ones (R161, R174). -/
def crc32c (bs : List Byte) : Nat := crc (meshCrc 0xFFFFFFFF) bs

/-- The FCS of a frame, first byte on the wire first: the Ethernet CRC-32 (PRESUMED, assumption 21). -/
def ethFcs (bs : List Byte) : List Byte :=
  leBytes 4 (crc { width := 32, poly := 0x04C11DB7, init := 0xFFFFFFFF, xorOut := 0xFFFFFFFF, refIn := true, refOut := true } bs)

/-- The mCRC that ends a fragment: the FCS of the frame up to there, its last two bytes inverted (PRESUMED, assumption 86). -/
def fragCrc (bs : List Byte) : List Byte := (ethFcs bs).take 2 ++ ((ethFcs bs).drop 2).map fun x => ~~~x

end Sys2Proof.Machine
end

