-- ==== Sys2Proof/Machine/Loam.lean ====
section
/-! DEFINITION. The Loam parser as a function of the frame's bytes (R135, R138, R142 to R151): the header walk, its
checks, and the parse result of R147. -/

namespace Sys2Proof.Machine

/-- The parser's settings (PARSE.CTL, UDP_PORT0, UDP_PORT1, GENEVE_OPT). -/
structure ParseCfg where
  tpidExtra : Nat
  mplsPayload : Nat
  geneveWalk : Bool
  csum : Bool
  vxlan : Nat
  geneve : Nat
  gtpu : Nat
  opt : Option (Nat × Nat)
  deriving DecidableEq, Repr

/-- A header the parser knows (R142), with the selector that tells its kinds apart where one walk serves several. -/
inductive Hdr where
  | eth | tag (code : Nat) | mpls | cw | pppoe | ip4 | ip6
  | ext (proto : Nat) | ah | esp | udp | tcp | icmp | icmp6
  | gre | vxlan | geneve | gtpu | arp | llc | ptpEth | ptpUdp
  deriving DecidableEq, Repr

/-- Header type codes of R148. -/
def hdrCode : Hdr → Nat
  | .eth => 0x01 | .tag c => c | .mpls => 0x05 | .cw => 0x06 | .pppoe => 0x07 | .arp => 0x08 | .ptpEth => 0x09
  | .llc => 0x0A | .ip4 => 0x10 | .ip6 => 0x11
  | .ext p => if p = 0 then 0x12 else if p = 43 then 0x13 else if p = 44 then 0x14 else 0x15
  | .ah => 0x16 | .esp => 0x17 | .udp => 0x20 | .tcp => 0x21 | .icmp => 0x22 | .icmp6 => 0x23
  | .gre => 0x24 | .vxlan => 0x25 | .geneve => 0x26 | .gtpu => 0x27 | .ptpUdp => 0x28

/-- The length code of a header that runs past the frame's end (R150). -/
def lengthCode : Hdr → Nat
  | .eth | .tag _ | .llc | .arp | .mpls | .cw | .ptpEth => 2
  | .pppoe => 14
  | .ip4 => 6
  | .ip6 => 8
  | .ext _ | .ah | .esp => 9
  | .udp | .tcp | .icmp | .icmp6 | .ptpUdp => 10
  | .gre | .vxlan | .geneve | .gtpu => 12

/-- A recorded stack entry: header type code and offset (R147), and for Geneve the offset of the option of PARSE.GENEVE_OPT, 0 for
none, which goes to the mesh as a hint (R148). -/
structure Entry where
  code : Nat
  off : Nat
  hint : Nat := 0
  deriving DecidableEq, Repr

/-- What the parse result says of the headers up to one of them, beside the entries (R147). -/
structure Flags where
  fragFirst : Bool := false
  fragLater : Bool := false
  ip4Opt : Bool := false
  padded : Bool := false
  tunnels : Nat := 0
  deriving DecidableEq, Repr

/-- A length claim that reaches beyond the window, to be checked against the frame's length: the entry's index, the
code it fails under, the byte after the last it claims (R138), and the flags of the headers up to it, which stand where it
fails (R149). -/
structure Claim where
  index : Nat
  code : Nat
  stop : Nat
  flags : Flags
  deriving DecidableEq, Repr

/-- What the walk has found so far. `ipEnd` is the end of the innermost IP header's declared payload, `encl` the least
end any enclosing header declares, `udpEnd` the end of the innermost UDP header's payload, 2^32 while none does. -/
structure Walk where
  entries : List Entry := []
  claims : List Claim := []
  off : Nat := 0
  tags : Nat := 0
  labels : Nat := 0
  exts : Nat := 0
  tunnels : Nat := 0
  fragSeen : Bool := false
  firstFrag : Bool := false
  ipEnd : Nat := 2 ^ 32
  encl : Nat := 2 ^ 32
  udpEnd : Nat := 2 ^ 32
  ipOuter : Bool := false
  fragFirst : Bool := false
  fragLater : Bool := false
  ip4Opt : Bool := false
  padded : Bool := false
  endWindow : Bool := false
  code : Nat := 0
  index : Nat := 0
  deriving DecidableEq, Repr

/-- The parse of a frame: the walk's end, whether a tail check is outstanding, and the payload offset (R147). -/
structure Parse where
  entries : List Entry := []
  claims : List Claim := []
  code : Nat := 0
  index : Nat := 0
  endWindow : Bool := false
  fragFirst : Bool := false
  fragLater : Bool := false
  ip4Opt : Bool := false
  padded : Bool := false
  tunnels : Nat := 0
  payload : Nat := 0
  deriving DecidableEq, Repr

/-- The flags of the headers that a walk has passed. -/
def Walk.flags (w : Walk) : Flags :=
  { fragFirst := w.fragFirst, fragLater := w.fragLater, ip4Opt := w.ip4Opt, padded := w.padded, tunnels := w.tunnels }

/-! ## One header -/

/-- What the checks of one header found: the codes that its triggers and its lengths give, its length, the header that
follows (none: the parse ends), the walk with its flags and bounds, a claim it makes, and its hint (R148). -/
structure Seen where
  codes : List Nat := []
  len : Nat := 0
  next : Option Hdr := none
  walk : Walk := {}
  claim : Option (Nat × Nat) := none
  hint : Nat := 0

/-- A TPID that R143 recognises as another type acts as 0 (R144). -/
def tpidBad (t : Nat) : Bool :=
  t < 0x600 || [0x8100, 0x88A8, 0x0800, 0x86DD, 0x8847, 0x8848, 0x8864, 0x0806, 0x88F7].contains t

/-- The header type a type field selects (R143). -/
def typeNext (c : ParseCfg) (t : Nat) : Option Hdr :=
  if t = 0x8100 then some (.tag 0x02)
  else if t = 0x88A8 then some (.tag 0x03)
  else if t = 0x0800 then some .ip4
  else if t = 0x86DD then some .ip6
  else if t = 0x8847 ∨ t = 0x8848 then some .mpls
  else if t = 0x8864 then some .pppoe
  else if t = 0x0806 then some .arp
  else if t = 0x88F7 then some .ptpEth
  else if t ≤ 0x05DC then some .llc
  else if t = c.tpidExtra ∧ ¬ tpidBad t then some (.tag 0x04)
  else none

/-- Does a header selection name a tag? -/
def isTag : Option Hdr → Bool
  | some (.tag _) => true
  | _ => false

/-- The header an IP protocol number selects; extension headers follow only IPv6 (R143). -/
def protoNext (v6 : Bool) (p : Nat) : Option Hdr :=
  if p = 1 then some .icmp
  else if p = 6 then some .tcp
  else if p = 17 then some .udp
  else if p = 47 then some .gre
  else if p = 50 then some .esp
  else if p = 51 then some .ah
  else if p = 58 then some .icmp6
  else if v6 ∧ (p = 0 ∨ p = 43 ∨ p = 44 ∨ p = 60) then some (.ext p)
  else none

/-- The header a first payload nibble selects. -/
def nibbleNext (n : Nat) : Option Hdr := if n = 4 then some .ip4 else if n = 6 then some .ip6 else none

/-- The header a UDP destination port selects: VXLAN before Geneve before GTP-U before PTP (R143, R144). -/
def udpNext (c : ParseCfg) (port : Nat) : Option Hdr :=
  if port = c.vxlan ∧ port ≠ 0 then some .vxlan
  else if port = c.geneve ∧ port ≠ 0 then some .geneve
  else if port = c.gtpu ∧ port ≠ 0 then some .gtpu
  else if port = 319 ∨ port = 320 then some .ptpUdp
  else none

/-- A list with a code in it when a trigger applies. -/
def trig (p : Bool) (code : Nat) : List Nat := if p then [code] else []

/-- IPv4 options from position i to the header's end: an option other than EOL or NOP has a length below 2 or runs past
(MF_IP4_OPT). Only options whose bytes lie below `lim` are judged. -/
def ip4OptBad (bs : List Byte) (lim stop : Nat) : Nat → Nat → Bool
  | 0, _ => false
  | fuel + 1, i =>
    if stop ≤ i ∨ lim ≤ i then false
    else if byteAt bs i = 0 then false
    else if byteAt bs i = 1 then ip4OptBad bs lim stop fuel (i + 1)
    else if stop ≤ i + 1 then true
    else if lim ≤ i + 1 then false
    else if byteAt bs (i + 1) < 2 ∨ stop < i + byteAt bs (i + 1) then true
    else ip4OptBad bs lim stop fuel (i + byteAt bs (i + 1))

/-- Geneve options from position i: an option runs past, or they do not sum to the end (MF_GENEVE_OPT). Only options
whose four bytes lie below `lim` are judged. -/
def geneveOptBad (bs : List Byte) (lim stop : Nat) : Nat → Nat → Bool
  | 0, i => i != stop
  | fuel + 1, i =>
    if stop ≤ i then i != stop
    else if lim < i + 4 then false
    else if stop < i + 4 + byteAt bs (i + 3) % 32 * 4 then true
    else geneveOptBad bs lim stop fuel (i + 4 + byteAt bs (i + 3) % 32 * 4)

/-- The offset of the Geneve option of a class and type, 0 when the header has none (R148). -/
def geneveFind (bs : List Byte) (stop cls ty : Nat) : Nat → Nat → Nat
  | 0, _ => 0
  | fuel + 1, i =>
    if stop < i + 4 then 0
    else if beAt bs i 2 = cls ∧ byteAt bs (i + 2) = ty then i
    else geneveFind bs stop cls ty fuel (i + 4 + byteAt bs (i + 3) % 32 * 4)

/-- The GTP-U extension chain from position i with the type of the next extension: its end, and the codes of a length
of 0 (12) or a fifth extension header (1). An extension whose length lies at or beyond `lim` ends beyond it too, and nothing more of
it is judged. -/
def gtpuChain (bs : List Byte) (lim : Nat) : Nat → Nat → Nat → Nat × List Nat
  | 0, i, ty => (i, trig (ty != 0) 1)
  | fuel + 1, i, ty =>
    if ty = 0 then (i, [])
    else if lim ≤ i then (i + 4, [])
    else if byteAt bs i = 0 then (i + 4, [12])
    else
      let n := byteAt bs i * 4
      gtpuChain bs lim fuel (i + n) (byteAt bs (i + n - 1))

/-- The sum of big-endian 16-bit words, folded to 16 bits in one's complement. -/
def onesSum (bs : List Byte) : Nat :=
  let rec go : List Byte → Nat → Nat
    | a :: b :: rest, acc => go rest (acc + a.toNat * 256 + b.toNat)
    | [a], acc => acc + a.toNat * 256
    | [], acc => acc
  let s := go bs 0
  let s := s / 65536 + s % 65536
  let s := s / 65536 + s % 65536
  s / 65536 + s % 65536

/-- A fragment is malformed (MF_FRAG): MF set with a payload that is no multiple of 8, an end above 65,535, or a first
fragment too short for its L4 header. `at4` is where the fragment's payload begins, `n` its length. -/
def fragBad (bs : List Byte) (mf : Bool) (fragOff n proto at4 : Nat) : Bool :=
  let need := if proto = 6 then (if n < 13 then 20 else byteAt bs (at4 + 12) / 16 * 4)
    else if proto = 17 ∨ proto = 1 ∨ proto = 58 then 8 else 0
  (mf || fragOff != 0) && ((mf && n % 8 != 0) || 65535 < fragOff * 8 + n || (mf && fragOff == 0 && n < need))

/-- The checks of one header at the walk's offset. `bs` are the frame's bytes of the window (a byte beyond reads zero),
`len` the frame's length. Triggers read only fields inside the window. Two points that the spec leaves open are settled here (DESIGN
CHOICE, assumption 92): an AH under IPv4 that runs past the total length gets MF_IP6_EXT, the code of an extension header past the
payload length; and an ARP of another form than Ethernet/IPv4 is recorded as ARP of 28 bytes, since nothing of its form is looked
at. -/
def seeHdr (c : ParseCfg) (bs : List Byte) (len : Nat) (w : Walk) (h : Hdr) : Seen :=
  let o := w.off
  let has := fun n => o + n ≤ min len 256
  match h with
  | .eth | .tag _ =>
    let tag := h != .eth
    let at2 := if tag then o + 4 else o + 12
    let t := beAt bs at2 2
    let nx := if at2 + 2 ≤ min len 256 then typeNext c t else none
    let w := if tag then w else { w with tags := 0 }
    let isLen := at2 + 2 ≤ min len 256 && t ≤ 0x05DC
    { codes := trig (at2 + 2 ≤ min len 256 && 0x05DD ≤ t && t ≤ 0x05FF) 2
      len := if isTag nx then at2 - o else at2 + 2 - o
      next := nx, walk := w
      claim := if isLen then some (2, at2 + 2 + t) else none }
  | .mpls =>
    let s := byteAt bs (o + 2) % 2 = 1
    let nib := byteAt bs (o + 4) / 16
    let nx := if ¬ s then some .mpls
      else if o + 4 < min len 256 ∧ (nibbleNext nib).isSome then nibbleNext nib
      else if c.mplsPayload = 1 then some .eth
      else if c.mplsPayload = 2 then some .cw
      else none
    { len := 4, next := nx, walk := if s ∧ o + 4 = 256 ∧ 256 < len then { w with endWindow := true } else w }
  | .cw => { len := 4, next := some .eth, walk := w }
  | .pppoe =>
    let p := beAt bs (o + 6) 2
    { codes := trig (has 1 && byteAt bs o != 0x11) 14 ++ trig (has 2 && byteAt bs (o + 1) != 0) 14
      len := 8
      next := if p = 0x0021 then some .ip4 else if p = 0x0057 then some .ip6 else none
      walk := { w with encl := if has 6 then min w.encl (o + 6 + beAt bs (o + 4) 2) else w.encl }
      claim := if has 6 then some (14, o + beAt bs (o + 4) 2) else none }
  | .ip4 =>
    let ihl := byteAt bs o % 16
    let hl := ihl * 4
    let tot := beAt bs (o + 2) 2
    let fo := beAt bs (o + 6) 2
    let mf := fo / 0x2000 % 2 = 1
    let fragOff := fo % 0x2000
    let proto := byteAt bs (o + 9)
    let pay := tot - hl
    { codes := trig (has 1 && byteAt bs o / 16 != 4) 3
        ++ trig ((has 1 && ihl < 5) || (has 4 && tot < hl)) 4
        ++ trig (ip4OptBad bs (min len 256) (o + hl) 40 (o + 20)) 5
        ++ trig (has 4 && w.encl < o + tot) 6
        ++ trig (c.csum && has hl && has 20 && onesSum (bytesAt bs o hl) != 0xFFFF) 7
        ++ trig (has 10 && fragBad bs mf fragOff pay proto (o + hl)) 11
      len := max 20 hl
      next := if fragOff ≠ 0 then none else protoNext false proto
      walk := { w with
        ip4Opt := w.ip4Opt || decide (5 < ihl)
        fragFirst := w.fragFirst || (mf && fragOff == 0)
        fragLater := w.fragLater || fragOff != 0
        firstFrag := mf && fragOff == 0
        exts := 0, fragSeen := false
        ipEnd := o + tot, encl := min w.encl (o + tot)
        padded := if w.ipOuter then w.padded else o + tot < len
        ipOuter := true }
      claim := if has 4 then some (6, o + tot) else none }
  | .ip6 =>
    let pl := beAt bs (o + 4) 2
    let stop := o + 40 + pl
    { codes := trig (has 1 && byteAt bs o / 16 != 6) 3
        ++ trig (has 6 && (pl == 0 || w.encl < stop)) 8
      len := 40
      next := protoNext true (byteAt bs (o + 6))
      walk := { w with
        firstFrag := false, exts := 0, fragSeen := false
        ipEnd := stop, encl := min w.encl stop
        padded := if w.ipOuter then w.padded else stop < len
        ipOuter := true }
      claim := if has 6 then some (8, stop) else none }
  | .ext p =>
    let n := if p = 44 then 8 else (byteAt bs (o + 1) + 1) * 8
    let fo := beAt bs (o + 2) 2
    let mf := fo % 2 = 1
    let fragOff := fo / 8
    let pay := w.ipEnd - (o + 8)
    { codes := trig (has 2 && w.ipEnd < o + n) 9 ++ trig (p == 0 && w.exts != 0) 9 ++ trig (p == 44 && w.fragSeen) 9
        ++ trig (p == 44 && has 8 && fragBad bs mf fragOff pay (byteAt bs o) (o + 8)) 11
      len := n
      next := if p = 44 ∧ fragOff ≠ 0 then none else protoNext true (byteAt bs o)
      walk := { w with
        exts := w.exts + 1
        fragSeen := w.fragSeen || p == 44
        fragFirst := w.fragFirst || (p == 44 && mf && fragOff == 0)
        fragLater := w.fragLater || (p == 44 && fragOff != 0)
        firstFrag := w.firstFrag || (p == 44 && mf && fragOff == 0) } }
  | .ah =>
    let n := (byteAt bs (o + 1) + 2) * 4
    let v6 := match w.entries with | [] => false | e :: _ => e.code = 0x11 ∨ (0x12 ≤ e.code ∧ e.code ≤ 0x16 ∧ w.exts ≠ 0)
    { codes := trig (has 2 && w.ipEnd < o + n) 9
      len := n
      next := protoNext v6 (byteAt bs o)
      walk := if v6 then { w with exts := w.exts + 1 } else w }
  | .esp => { len := 8, walk := w }
  | .udp =>
    let ul := beAt bs (o + 4) 2
    { codes := trig (has 6 && (ul < 8 || (!w.firstFrag && w.ipEnd < o + ul))) 10
      len := 8
      next := udpNext c (beAt bs (o + 2) 2)
      walk := { w with encl := min w.encl (o + ul), udpEnd := o + ul } }
  | .tcp =>
    let d := byteAt bs (o + 12) / 16
    { codes := trig (has 13 && (d < 5 || w.ipEnd < o + d * 4)) 10, len := max 20 (d * 4), walk := w }
  | .icmp | .icmp6 => { codes := trig (w.ipEnd < o + 8) 10, len := 8, walk := w }
  | .gre =>
    let f := beAt bs o 2
    let n := 4 + 4 * (f / 0x8000 % 2) + 4 * (f / 0x2000 % 2) + 4 * (f / 0x1000 % 2)
    let t := beAt bs (o + 2) 2
    { codes := trig (has 2 && (f % 8 != 0 || f / 0x4000 % 2 == 1)) 12
      len := n
      next := if t = 0x6558 then some .eth else if t = 0x0800 then some .ip4 else if t = 0x86DD then some .ip6
        else if t = 0x8847 then some .mpls else none
      walk := { w with tunnels := w.tunnels + 1 } }
  | .vxlan =>
    { codes := trig (has 1 && byteAt bs o / 8 % 2 == 0) 12, len := 8, next := some .eth
      walk := { w with tunnels := w.tunnels + 1 } }
  | .geneve =>
    let n := 8 + byteAt bs o % 64 * 4
    let t := beAt bs (o + 2) 2
    { codes := trig (has 1 && byteAt bs o / 64 != 0) 12
        ++ trig (c.geneveWalk && has 8 && geneveOptBad bs (min len 256) (o + n) 64 (o + 8)) 13
      len := n
      next := if t = 0x6558 then some .eth else if t = 0x0800 then some .ip4 else if t = 0x86DD then some .ip6 else none
      walk := { w with tunnels := w.tunnels + 1 }
      hint := match c.opt with
        | some (cl, ty) => if c.geneveWalk then geneveFind bs (o + n) cl ty 64 (o + 8) else 0
        | none => 0 }
  | .gtpu =>
    let f := byteAt bs o
    let l := beAt bs (o + 2) 2
    let opt := f % 8 ≠ 0
    let (stop, chain) := if f / 4 % 2 = 1 then gtpuChain bs (min len 256) 4 (o + 12) (byteAt bs (o + 11))
      else (if opt then o + 12 else o + 8, [])
    { codes := trig (has 1 && (f / 32 != 1 || f / 16 % 2 == 0)) 12 ++ trig (has 4 && w.udpEnd < o + 8 + l) 12 ++ chain
      len := stop - o
      next := if byteAt bs (o + 1) = 0xFF ∧ stop < min len 256 then nibbleNext (byteAt bs stop / 16) else none
      walk := { w with
        tunnels := w.tunnels + 1, encl := min w.encl (o + 8 + l)
        endWindow := w.endWindow || (byteAt bs (o + 1) == 0xFF && stop == 256 && 256 < len) } }
  | .arp => { len := 28, walk := w }
  | .llc => { len := 3, walk := w }
  | .ptpEth | .ptpUdp => { len := 34, walk := w }

/-- The header is one too many: a 17th entry, a 4th tag, a 9th label, a 5th extension header of one IPv6 header, a 3rd
tunnel (R146). -/
def tooDeep (w : Walk) (h : Hdr) : Bool :=
  w.entries.length == 16 ||
  match h with
  | .tag _ => w.tags == 3
  | .mpls => w.labels == 8
  | .ext _ => w.exts == 4
  | .ah => w.exts == 4
  | .gre | .vxlan | .geneve | .gtpu => w.tunnels == 2
  | _ => false

/-- A PTP header whose versionPTP is not 2 is not recorded (R145). -/
def ptpSkip (bs : List Byte) (len : Nat) (w : Walk) (h : Hdr) : Bool :=
  (h == .ptpEth || h == .ptpUdp) && w.off + 2 ≤ min len 256 && byteAt bs (w.off + 1) % 16 != 2

/-- The least code of a list, 0 for none (R151). -/
def leastCode (cs : List Nat) : Nat := cs.foldl (fun a c => if a = 0 then c else min a c) 0

/-- The header walk (R143 to R150): at most 17 headers are looked at. -/
def walkHdrs (c : ParseCfg) (bs : List Byte) (len : Nat) : Nat → Walk → Hdr → Walk
  | 0, w, _ => w
  | fuel + 1, w, h =>
    if 256 ≤ w.off then { w with endWindow := true }
    else if ptpSkip bs len w h then w
    else if tooDeep w h then
      let idx := w.entries.length
      { w with code := 1, index := idx
               entries := if idx = 16 then w.entries else { code := hdrCode h, off := w.off } :: w.entries }
    else
      let s := seeHdr c bs len w h
      let stop := w.off + s.len
      let past := if len ≤ 256 then trig (decide (len < stop)) (lengthCode h) else trig (decide (256 < stop)) 15
      let claimBad := match s.claim with
        | some (code, e) => if len < e ∧ (len ≤ 256 ∨ e ≤ 256) then [code] else []
        | none => []
      let code := leastCode (s.codes ++ past ++ claimBad)
      let idx := w.entries.length
      let e : Entry := { code := hdrCode h, off := w.off, hint := s.hint }
      if code ≠ 0 then { s.walk with code := code, index := idx, entries := e :: w.entries, off := w.off }
      else
        let claims := match s.claim with
          | some (code, e) => if 256 < len ∧ 256 < e then
              { index := idx, code := code, stop := e, flags := s.walk.flags } :: w.claims
            else w.claims
          | none => w.claims
        let w' := { s.walk with
          entries := e :: w.entries, claims := claims, off := stop
          tags := s.walk.tags + (match h with | .tag _ => 1 | _ => 0)
          labels := s.walk.labels + (match h with | .mpls => 1 | _ => 0) }
        match s.next with
        | none => w'
        | some h' => walkHdrs c bs len fuel w' h'

/-- The parse of a frame's first window (R135, R147): `bs` are the frame's bytes. -/
def parseFrame (c : ParseCfg) (bs : List Byte) : Parse :=
  let w := walkHdrs c (bs.take 256) bs.length 17 {} .eth
  { entries := w.entries.reverse, claims := w.claims.reverse, code := w.code, index := w.index
    endWindow := w.endWindow, fragFirst := w.fragFirst, fragLater := w.fragLater, ip4Opt := w.ip4Opt
    padded := w.padded, tunnels := w.tunnels, payload := w.off }

/-- A tail check is outstanding: the frame is longer than its window, no code was found and a claim reaches beyond
byte 255 (R138, R151). -/
def Parse.tailPending (p : Parse) : Bool := p.code == 0 && !p.claims.isEmpty

/-- The parse after its tail check against the frame's length: the outermost claim that fails gives the code, and no
entry after it stands (R151, R154). -/
def Parse.tailDone (p : Parse) (len : Nat) : Parse :=
  match p.claims.find? fun c => decide (len < c.stop) with
  | some c =>
    { p with code := c.code, index := c.index, entries := p.entries.take (c.index + 1), claims := [], endWindow := false
             fragFirst := c.flags.fragFirst, fragLater := c.flags.fragLater, ip4Opt := c.flags.ip4Opt
             padded := c.flags.padded, tunnels := c.flags.tunnels
             payload := ((p.entries[c.index]?).map (·.off)).getD 0 }
  | none => { p with claims := [] }

/-- The parse result as nine words (R147). -/
def Parse.words (p : Parse) : List Word :=
  let w0 := p.code * 2 ^ 27 + p.index * 2 ^ 22 + p.entries.length * 2 ^ 17 + b2n p.tailPending * 2 ^ 16
    + b2n p.endWindow * 2 ^ 15 + b2n p.fragFirst * 2 ^ 14 + b2n p.fragLater * 2 ^ 13 + b2n p.ip4Opt * 2 ^ 12
    + b2n p.padded * 2 ^ 11 + min 3 p.tunnels * 2 ^ 9 + p.payload % 512
  let e := fun i => match p.entries[i]? with | some e => e.code * 1024 + e.off | none => 0
  w32 w0 :: (List.range 8).map fun i => w32 (e (2 * i + 1) * 65536 + e (2 * i))

/-- The recirculated pass's result from the first pass's (R154): its code, entries up to MF_INDEX, no tail check. -/
def Parse.laterPass (p : Parse) : Parse :=
  if p.code = 0 then { p with claims := [] }
  else { p with claims := [], entries := p.entries.take (p.index + 1) }

end Sys2Proof.Machine
end

