-- ==== Sys2Proof/Machine/Editor.lean ====
section
/-! DEFINITION. The egress editor as a function of the frame (R188 to R192, R209, R503): micro-ops, anchors, and the
incremental update of checksums. -/

namespace Sys2Proof.Machine

/-- A micro-op's fields (R188). -/
structure MicroOp where
  op : Nat
  anchor : Nat
  offset : Nat
  len : Nat
  src : Nat
  sel : Nat
  imm : Nat
  deriving DecidableEq, Repr

/-- The micro-op of the words W0 and W1. -/
def microOp (w0 w1 : Word) : MicroOp :=
  { op := fld 31 28 w0, anchor := fld 27 23 w0, offset := fld 22 15 w0, len := fld 14 8 w0, src := fld 7 6 w0
    sel := fld 5 0 w0, imm := w1.toNat }

/-- A frame under edit: its bytes; the headers of its final-pass stack with their current offsets, none once removed;
the outer headers that GTPU_ENCAP inserted; the bytes ops changed, with what they held before; the offsets ops wrote; the
bytes INSERT inserted; the points at which REMOVE took bytes; and the bytes inserted and removed so far. -/
structure Edit where
  bytes : List Byte
  stack : List (Nat × Option Nat) := []
  outer : List (Nat × Nat) := []
  old : List (Nat × Byte) := []
  inserted : List Nat := []
  cuts : List Nat := []
  insCount : Nat := 0
  remCount : Nat := 0
  deriving DecidableEq, Repr

/-- The edit of a frame as its final-pass parse result leaves it (R190: unused entries and those beyond the malformed
header are no anchors). -/
def Edit.start (bytes : List Byte) (p : Parse) : Edit :=
  { bytes := bytes, stack := p.entries.map fun e => (e.code, some e.off) }

/-- Current offset of an anchor: byte 0 for 16 and above, none where the anchor is invalid. -/
def Edit.anchor (e : Edit) (a : Nat) : Option Nat :=
  if 16 ≤ a then some 0 else match e.stack[a]? with | some (_, o) => o | none => none

/-- An offset is some anchor's current offset. -/
def Edit.atAnchor (e : Edit) (t : Nat) : Bool := t == 0 || e.stack.any fun h => h.2 == some t

/-! ## Moving bytes -/

/-- Bytes go in at an offset; every anchor at or after it moves (R188). -/
def Edit.insertAt (e : Edit) (t : Nat) (bs : List Byte) (mark : Bool) : Edit :=
  let n := bs.length
  let mv := fun o => if t ≤ o then o + n else o
  { bytes := e.bytes.take t ++ bs ++ e.bytes.drop t
    stack := e.stack.map fun h => (h.1, h.2.map mv)
    outer := e.outer.map fun h => (h.1, mv h.2)
    old := e.old.map fun c => (mv c.1, c.2)
    inserted := e.inserted.map mv ++ if mark then (List.range n).map (· + t) else []
    cuts := e.cuts.map fun c => if t < c then c + n else c
    insCount := e.insCount + n
    remCount := e.remCount }

/-- Bytes come out at an offset; anchors in them become invalid, those after them move back (R188). -/
def Edit.removeAt (e : Edit) (t n : Nat) (mark : Bool) : Edit :=
  let gone := fun o => decide (t ≤ o ∧ o < t + n)
  let mv := fun o => if t + n ≤ o then o - n else o
  { bytes := e.bytes.take t ++ e.bytes.drop (t + n)
    stack := e.stack.map fun h => (h.1, match h.2 with
      | some o => if gone o then none else some (mv o)
      | none => none)
    outer := (e.outer.filter fun h => !gone h.2).map fun h => (h.1, mv h.2)
    old := (e.old.filter fun c => !gone c.1).map fun c => (mv c.1, c.2)
    inserted := (e.inserted.filter fun i => !gone i).map mv
    cuts := (e.cuts.map fun c => if t + n ≤ c then c - n else min c t) ++ if mark then [t] else []
    insCount := e.insCount
    remCount := e.remCount + n }

/-- Bytes are overwritten without a record. -/
def Edit.poke (e : Edit) (t : Nat) (bs : List Byte) : Edit :=
  { e with bytes := e.bytes.take t ++ bs ++ e.bytes.drop (t + bs.length) }

/-- Bytes are overwritten by SET, ADD or SUB; what each held before the program is kept. -/
def Edit.write (e : Edit) (t : Nat) (bs : List Byte) : Edit :=
  let fresh := (List.range bs.length).filter fun i => !e.old.any fun c => c.1 == t + i
  { e.poke t bs with old := e.old ++ fresh.map fun i => (t + i, e.bytes.getD (t + i) 0) }

/-! ## Ops -/

/-- The bytes a source supplies, most significant first; none where LEN or the source is outside R189. -/
def opSource (o : MicroOp) (operands : List Byte) (template : Nat → List Byte) : Option (List Byte) :=
  if o.src = 1 then (if o.sel + o.len ≤ 16 then some (bytesAt operands o.sel o.len) else none)
  else if o.src = 2 then some (bytesAt (template o.sel) 0 o.len)
  else if o.len ≤ 4 then some (beBytes o.len o.imm) else none

/-- The type field that the stack entry directly before header i holds takes the value for an IP version (R503). An
outer header that an earlier GTPU_ENCAP put between the two leaves no entry directly before. -/
def Edit.setType (e : Edit) (i : Nat) (v6 : Bool) : Edit :=
  match i with
  | 0 => e
  | j + 1 =>
    match e.stack[j]? with
    | some (c, some o) =>
      let here := match e.stack[i]? with | some (_, some t) => t | _ => o
      if e.outer.any fun h => o < h.2 && h.2 < here then e else
      let ety := if v6 then 0x86DD else 0x0800
      if c = 1 then e.poke (o + 12) (beBytes 2 ety)
      else if c = 2 ∨ c = 3 ∨ c = 4 then e.poke (o + 4) (beBytes 2 ety)
      else if c = 7 then e.poke (o + 6) (beBytes 2 (if v6 then 0x0057 else 0x0021))
      else if c = 0x24 then e.poke (o + 2) (beBytes 2 ety)
      else e
    | _ => e

/-- One's complement of a 16-bit sum. -/
def csum16 (bs : List Byte) : Nat := 0xFFFF - onesSum bs

/-- The stack index of the valid IP header at an offset. -/
def Edit.ipAt (e : Edit) (t : Nat) : Option Nat :=
  (List.range e.stack.length).find? fun i => match e.stack[i]? with
    | some (c, o) => (c == 0x10 || c == 0x11) && o == some t
    | none => false

/-- GTPU_ENCAP (R189, R191). The outer UDP checksum of 0 is the value that the op wrote and stands (R192); the outer IPv4 header
checksum, which the op computes, follows later changes of its header like any other (DEDUCED, assumption 91). -/
def Edit.encap (e : Edit) (t : Nat) (o : MicroOp) (tmpl : List Byte) : Option Edit :=
  let head := bytesAt tmpl 0 o.len
  let v := byteAt head 0 / 16
  let hl := if v = 4 then byteAt head 0 % 16 * 4 else 40
  if ¬ ((v = 4 ∧ 20 ≤ hl) ∨ v = 6) ∨ o.len < hl + 16 then none
  else match e.ipAt t with
  | none => none
  | some i =>
    let inner := match e.stack[i]? with
      | some (c, _) => if c = 0x10 then beAt e.bytes (t + 2) 2 else 40 + beAt e.bytes (t + 4) 2
      | none => 0
    let e' := (e.insertAt t head false).poke (t + if v = 4 then 2 else 4)
      (beBytes 2 (if v = 4 then o.len + inner else o.len - 40 + inner))
    let e' := e'.poke (t + hl + 4) (beBytes 2 (o.len - hl + inner) ++ [0, 0])
    let e' := (e'.poke (t + hl + 10) (beBytes 2 (o.len - hl - 16 + inner))).poke (t + hl + 12) (beBytes 4 o.imm)
    let e' := if v = 4 then
        let z := e'.poke (t + 10) [0, 0]
        z.poke (t + 10) (beBytes 2 (csum16 (bytesAt z.bytes t hl)))
      else e'
    let e' := e'.setType i (v = 6)
    some { e' with old := e'.old ++ [(t + hl + 6, 0), (t + hl + 7, 0)], outer := e'.outer ++ [(if v = 4 then 0x10 else 0x11, t), (0x20, t + hl)] }

/-- GTPU_DECAP (R189, R191). -/
def Edit.decap (e : Edit) (a : Nat) : Option Edit :=
  match e.stack[a]?, e.stack[a + 1]?, e.stack[a + 2]?, e.stack[a + 3]? with
  | some (c, some t), some (0x20, some _), some (0x27, some g), some (ci, some _) =>
    if ¬ (c = 0x10 ∨ c = 0x11) ∨ ¬ (ci = 0x10 ∨ ci = 0x11) ∨ 16 ≤ a then none
    else
      let f := byteAt e.bytes g
      let stop := if f / 4 % 2 = 1 then (gtpuChain e.bytes e.bytes.length 4 (g + 12) (byteAt e.bytes (g + 11))).1
        else if f % 8 ≠ 0 then g + 12 else g + 8
      if 512 < stop ∨ stop ≤ t then none
      else some ((e.removeAt t (stop - t) false).setType a (ci = 0x11))
  | _, _, _, _ => none

/-- One op (R188, R189); none where it breaks a rule of R191. -/
def Edit.step (e : Edit) (o : MicroOp) (operands : List Byte) (template : Nat → List Byte) : Option Edit :=
  if o.op = 7 then e.decap o.anchor
  else
    match e.anchor o.anchor with
    | none => none
    | some base =>
      let t := base + o.offset
      if o.len = 0 ∨ 64 < o.len ∨ 512 < t + o.len then none
      else if o.op = 6 then e.encap t o (template o.sel)
      else if o.op = 5 then
        (if e.bytes.length < t + o.len ∨ ¬ e.atAnchor t then none else some (e.removeAt t o.len true))
      else
        match opSource o operands template with
        | none => none
        | some bs =>
          if o.op = 4 then (if e.bytes.length < t ∨ ¬ e.atAnchor t then none else some (e.insertAt t bs true))
          else if e.bytes.length < t + o.len then none
          else if o.op = 1 then some (e.write t bs)
          else if o.len = 1 ∨ o.len = 2 ∨ o.len = 4 then
            let cur := beAt e.bytes t o.len
            let m := 256 ^ o.len
            some (e.write t (beBytes o.len (if o.op = 2 then (cur + beNat bs) % m else (cur + m - beNat bs % m) % m)))
          else none

/-- The ops up to the first END (R188), with the totals of R191. -/
def Edit.run (operands : List Byte) (template : Nat → List Byte) : List MicroOp → Edit → Option Edit
  | [], e => some e
  | o :: os, e =>
    if o.op = 0 ∨ 8 ≤ o.op then some e
    else match e.step o operands template with
      | none => none
      | some e' => if 128 < e'.insCount ∨ 256 < e'.remCount then none else Edit.run operands template os e'

/-! ## Checksums (R192) -/

/-- A checksum of the frame: where its field lies, the bytes it covers as (first, end) ranges each summed from an even
alignment, whether it is UDP's, whether an UDP value of 0 means none, and the end of what its header declares. -/
structure Csum where
  at2 : Nat
  covers : List (Nat × Nat)
  udp : Bool
  zeroNone : Bool
  deriving DecidableEq, Repr

/-- The valid headers of the stack and the outer headers inserted, innermost first. -/
def Edit.headers (e : Edit) : List (Nat × Nat) :=
  let hs := (e.stack.filterMap fun h => h.2.map fun o => (h.1, o)) ++ e.outer
  hs.foldl (fun acc h => (acc.filter fun x => h.2 < x.2) ++ [h] ++ acc.filter fun x => x.2 ≤ h.2) []

/-- The innermost IP header that begins before an offset. -/
def Edit.ipBefore (e : Edit) (o : Nat) : Option (Nat × Nat) :=
  e.headers.find? fun h => (h.1 == 0x10 || h.1 == 0x11) && h.2 < o

/-- The protocol byte that names the L4 header at an offset: its IPv4 header's, or the last next-header byte. -/
def Edit.protoByte (e : Edit) (ip : Nat × Nat) (o : Nat) : Nat :=
  if ip.1 = 0x10 then ip.2 + 9
  else match e.headers.find? fun h => 0x12 ≤ h.1 && h.1 ≤ 0x16 && ip.2 < h.2 && h.2 < o with
    | some h => h.2
    | none => ip.2 + 6

/-- The checksum a header holds, if it holds one. -/
def Edit.csumOf (e : Edit) (h : Nat × Nat) : Option Csum :=
  let (c, o) := h
  if c = 0x10 then
    some { at2 := o + 10, covers := [(o, o + byteAt e.bytes o % 16 * 4)], udp := false, zeroNone := false }
  else if c = 0x20 ∨ c = 0x21 then
    match e.ipBefore o with
    | none => none
    | some ip =>
      let addrs := if ip.1 = 0x10 then (ip.2 + 12, ip.2 + 20) else (ip.2 + 8, ip.2 + 40)
      let pb := e.protoByte ip o
      let proto := (pb - 1, pb + 1)
      let ipEnd := if ip.1 = 0x10 then ip.2 + beAt e.bytes (ip.2 + 2) 2 else ip.2 + 40 + beAt e.bytes (ip.2 + 4) 2
      if c = 0x20 then
        some { at2 := o + 6, covers := [(o, o + beAt e.bytes (o + 4) 2), addrs, proto]
               udp := true, zeroNone := ip.1 == 0x10 }
      else some { at2 := o + 16, covers := [(o, ipEnd), addrs, proto], udp := false, zeroNone := false }
  else none

/-- One byte of a checksum's coverage changes from m to m' at an even or odd place (RFC 1624 equation 3). -/
def csumByte (hc : Nat) (even : Bool) (m m' : Nat) : Nat :=
  let k := if even then 256 else 1
  let s := (0xFFFF - hc) + (0xFFFF - m * k) + m' * k
  let s := s / 65536 + s % 65536
  0xFFFF - (s / 65536 + s % 65536)

/-- One coverage range takes the changes in. The protocol range covers only its second byte. -/
def csumRange (bs : List Byte) (changes : List (Nat × Byte)) (r : Nat × Nat) (protoOnly : Bool) (hc : Nat) : Nat :=
  changes.foldl (fun hc c =>
    let i := c.1
    if r.1 ≤ i ∧ i < r.2 ∧ (bs.getD i 0) ≠ c.2 ∧ (¬ protoOnly ∨ i + 1 = r.2) then
      csumByte hc ((i - r.1) % 2 = 0) c.2.toNat (bs.getD i 0).toNat
    else hc) hc

/-- A change lies in a checksum's coverage; of the protocol range, the last of several, only the second byte counts. -/
def csumCovers (bs : List Byte) (c : Csum) (x : Nat × Byte) : Bool :=
  let n := c.covers.length
  x.1 != c.at2 && x.1 != c.at2 + 1 && bs.getD x.1 0 != x.2 && (List.range n).any fun k =>
    let r := c.covers.getD k (0, 0)
    (if k + 1 = n ∧ 1 < n then x.1 + 1 == r.2 else r.1 ≤ x.1 && x.1 < r.2)

/-- The new value of a checksum after the changes. -/
def csumNew (bs : List Byte) (changes : List (Nat × Byte)) (c : Csum) : Nat :=
  let changes := changes.filter fun x => x.1 ≠ c.at2 ∧ x.1 ≠ c.at2 + 1
  let n := c.covers.length
  let v := (List.range n).foldl (fun hc k =>
    csumRange bs changes (c.covers.getD k (0, 0)) (k + 1 = n ∧ 1 < n) hc) (beAt bs c.at2 2)
  if c.udp ∧ v = 0 then 0xFFFF else v

/-- One checksum is brought up to date, unless an op wrote its field or it is UDP's none; the change of its field is a
change for the checksums further out. -/
def Edit.fixOne (e : Edit) (c : Csum) : Edit :=
  let cur := beAt e.bytes c.at2 2
  let opWrote := e.old.any fun x => x.1 == c.at2 || x.1 == c.at2 + 1
  if opWrote ∨ (c.udp ∧ c.zeroNone ∧ cur = 0) ∨ e.bytes.length < c.at2 + 2 then e
  else if e.old.any (csumCovers e.bytes c) then e.write c.at2 (beBytes 2 (csumNew e.bytes e.old c))
  else e

/-- Every checksum that covers a changed byte is updated, from the innermost outward (R192). -/
def Edit.fixup (e : Edit) : Edit :=
  e.headers.foldl (fun e h => match e.csumOf h with | some c => e.fixOne c | none => e) e

/-- At the program's end an L4 checksum covers an inserted byte, or a point inside its coverage at which bytes were
removed (R191). -/
def Edit.l4Broken (e : Edit) : Bool :=
  e.headers.any fun h =>
    (h.1 == 0x20 || h.1 == 0x21) && match e.csumOf h with
      | some c =>
        let r := c.covers.getD 0 (0, 0)
        let stop := min r.2 e.bytes.length
        !(c.udp && c.zeroNone && beAt e.bytes c.at2 2 == 0) &&
          (e.inserted.any (fun i => r.1 ≤ i && i < stop) || e.cuts.any (fun p => r.1 < p && p < stop))
      | none => false

/-- Sets the ECN bits of the frame's first IP header to 11 where they are 01 or 10 (R209). -/
def Edit.ecnMark (e : Edit) : Edit :=
  match (e.headers.filter fun h => h.1 == 0x10 || h.1 == 0x11).getLast? with
  | none => e
  | some (c, o) =>
    if c = 0x10 then
      let t := byteAt e.bytes (o + 1)
      if t % 4 = 1 ∨ t % 4 = 2 then e.write (o + 1) [BitVec.ofNat 8 (t / 4 * 4 + 3)] else e
    else
      let t := byteAt e.bytes (o + 1)
      let ecn := t / 16 % 4
      if ecn = 1 ∨ ecn = 2 then e.write (o + 1) [BitVec.ofNat 8 (t / 64 * 64 + 48 + t % 16)] else e

/-- The rewrite-program stage (R187, R209): the program if there is one, the ECN mark, the fixup; none where the program
breaks a rule. -/
def editFrame (bytes : List Byte) (p : Parse) (prog : Option (List MicroOp)) (operands : List Byte)
    (template : Nat → List Byte) (mark : Bool) : Option Edit :=
  let start := Edit.start bytes p
  match (match prog with | some ops => Edit.run operands template ops start | none => some start) with
  | none => none
  | some e =>
    if e.l4Broken then none else some ((if mark then e.ecnMark else e).fixup)

end Sys2Proof.Machine
end

