-- ==== Sys2Proof/Machine/State.lean ====
section
/-! DEFINITION. The state of the block, as plain data: every register of the register map in one sparse register
file, and beside it the state the spec gives the block that no register shows whole. -/

namespace Sys2Proof.Machine

/-- States of an island or sub-island (R67). -/
inductive IslandSt where
  | off | ramp | held | sync | on
  deriving DecidableEq, Repr

/-- What the wake island holds beside its registers (R61 to R75): pin levels, the root PLL, the island states by
island index (host 0, line 1, bed b at 2 + b, silt link k at 19 + k), the option fuses that are blown, by bit of ID.OPTIONS
and by link, which no command of the block blows (assumption 2), and what the capability list shows since the host island's
last release (R52, R59), the clock monitor's window (R75; `monRan`: its domain ran at some time in it), whether the block is in
FALLOW (R476) or waits for a blow to enter it (R478), whether a wake is requested (R133), its wake detector armed, and armed where it hears nothing (R132), the fuse ledger (R458), the map-outs
in force as (kind, index) (R461), the lifecycle fuses T (R463), and as they were sensed at the last power-on reset (R465), and the revoked key slots (bit 8 set + slot, R466). -/
structure Pwr where
  porN : Bool := true
  hostRstN : Bool := true
  lineRstN : Bool := true
  pllOn : Bool := true
  pllLocked : Bool := false
  fusesSensed : Bool := false
  isl : List (Nat × IslandSt) := []
  optBlown : BitVec 5 := 0
  linkBlown : BitVec 8 := 0
  options : BitVec 5 := Config.builtOptions
  links : BitVec 8 := Config.builtLinks
  monRun : Option Nat := none
  monRan : Bool := false
  fallow : Bool := false
  fallowWait : Bool := false
  wakeReq : Bool := false
  wakeArmed : Bool := false
  wakeDeaf : Bool := false
  ledger : List (Nat × Word) := []
  applied : List (Nat × Nat) := []
  life : BitVec 3 := 0
  lifeSensed : BitVec 3 := 0
  revoked : BitVec 16 := 0
  deriving DecidableEq, Repr

/-- One serial lane macro beside its registers (chapter 04; silt lanes share the design, R391): whether the lane has an
equalizer setting for its port's current bring-up, its stored coefficients as CTLE, DFE word and the two FIR words (R85),
whether it was lost and retries on its own (R90), whether it came out of OFF within a stage and waits for its port's next
DETECT (R497), the thousandths of bits checked since the last unit of 256 bits that PRBS_CHK counted (R99), the generator's
shift register, or its place in the user pattern, with the thousandths of bits it owes the transmitter (R95), and the
thousandths of bits sent since the last error event (R97). -/
structure LaneSt where
  trained : Bool := false
  coef : Option (Nat × Word × Word × Word) := none
  lost : Bool := false
  out : Bool := false
  bits : Nat := 0
  gen : Nat := 0
  genOwed : Nat := 0
  injBits : Nat := 0
  deriving DecidableEq, Repr

/-- One network port's bring-up beside PORT[p].STATUS and COUNT (R86): the retries since DISABLED that RETRY_MAX is
compared with (R98), the FORM and FEC it left DISABLED with (R79, R100), the form and the first lane of the fallback span
chosen last (R89), whether the partner has agreed to it in the exchange of a re-form (R90), whether FAULT_HOLD_MS has run out
(R93), the frames a FORM write marked for discard under FAULT_ACTION 2 (R93), and the lanes of the span that a FORM write has
still to take to DISABLED at the engine's next safe point, or once the bed's role is served (R100, R417). -/
structure PortSt where
  retries : Nat := 0
  form : Nat := 0
  fec : Nat := 0
  formChosen : Nat := 0
  spanChosen : Nat := 0
  agreed : Bool := false
  holdOver : Bool := false
  marked : List Nat := []
  owed : Option (List Nat) := none
  deriving DecidableEq, Repr

/-- The preemptable frame that a MAC has cut and not yet sent to its end (R122, R123): its copy, the bytes of it sent, the
fragments sent, its frame number on the wire, and the settings it started with (R106): the minimum fragment and TX_IPG. -/
structure OpenTx where
  copy : Nat
  sent : Nat
  frags : Nat
  number : Nat
  minFrag : Nat
  ipg : Nat
  deriving DecidableEq, Repr

/-- One MAC beside its registers (chapter 05): the tick at which some class of the port was first paused, the classes
whose pause requests it last signalled to the partner (R116), the preemptable frame that is cut
and not yet sent to its end, the number the next preemptable frame takes on the wire (R122), and whether preemption becomes
inactive at the next frame boundary (R120). -/
structure MacSt where
  pausedSince : Option Nat := none
  signalled : BitVec 8 := 0
  openTx : Option OpenTx := none
  number : Nat := 0
  mmEnding : Bool := false
  deriving DecidableEq, Repr

/-- The management port beside its registers (R128 to R133): the frames that wait to be sent, the attempts of the first
of them that met a collision, whether a deferral or a backoff holds it, and whether the MDIO transaction in progress
reads. -/
structure MgmtSt where
  txq : List (List Byte) := []
  attempts : Nat := 0
  deferring : Bool := false
  backingOff : Bool := false
  mdioRead : Bool := false
  deriving DecidableEq, Repr

/-- How far a frame's own path has come (R22 to R40). -/
inductive FramePath where
  /-- In its port's MAC receive FIFO, its window waiting for a slot (R136). -/
  | fifo
  /-- In topsoil, the parse window of its pass waiting to be parsed. -/
  | window
  /-- In topsoil, waiting for its position's recirculation slot (R34, R37). -/
  | slot
  /-- Its action word was RECIRCULATE: it waits for its next pass (R35, R169). -/
  | recirc
  /-- It holds a handle and waits for its verdict (R173). -/
  | handoff
  /-- What admission is to do is known; its tail check is outstanding (R138, R153). -/
  | settle
  /-- Passed to the multicast replicator (R39). -/
  | repl
  /-- Its path has ended; its copies hold its grains. -/
  | copies
  deriving DecidableEq, Repr

/-- What admission acts on once nothing of the frame is outstanding: a verdict message, the HANDOFF_TIMEOUT action after
a timeout or for want of a handle slot (R173), or the PUNT of its final action word. -/
inductive Fate where
  | verdict (msg : List Byte)
  | timeout
  | exhausted
  | punt
  deriving DecidableEq, Repr

/-- A frame in topsoil or a lower tier. `src` is its source port (0 to 255, 256, 258), `pos` its ingress position, `bed`
the bed whose pipeline handles it, `held` tells that its grains still wait in the buffer before topsoil (R25), `err` its MAC error code (R108), 16 for an Assay mismatch (R384), `mf` the malformed code it carries; `rx` the values of
the eight time bases at its receive timestamp, in units of 2^-32 ns, and `rxTb` the base it was stamped on (R282);
`send` the TS_REQ transmit send it belongs to, `tag` that send's TAG (R287), `txOf` the transmit ring and first descriptor of its send; `epoch` and `bank` its stamp (R170); `groups` the pattern groups of the pass
before and `bitmap` those of this pass once final (R168); `tail` tells an outstanding tail check, `tailCode` the code that a finished one found, 0 for none; `verdict` the place of its
verdict among those that have arrived, with its channel (R182); `act` the four words of its action;
`group` the multicast group's entry as read at its admission (R185); `refs` its reference
count (R40), its own path and a mirror copy to come counting one each; `ingress` the class its ingress count holds
(R198); `tier` where its grains rest, `unit` the stack or link that holds them there, `dest` its destination tier,
`moving` the stack (n) or link (8 + n) a move to which is issued, `fetching` a prefetch issued (R211 to R215), `moved` how many of its grains lie, by such a move or prefetch in progress, in both tiers, `drain` the link that a planned detach has read it back from, while it waits
to move down again (R411), `spoiled` that the debug port has written over one of its grains (R468). -/
structure Frame where
  bytes : List Byte
  src : Nat
  pos : Option Nat := none
  bed : Nat := 0
  held : Bool := false
  err : Nat := 0
  mf : Nat := 0
  rx : List Nat := []
  rxTb : Nat := 0
  send : Option Nat := none
  tag : Nat := 0
  txOf : Option (Nat × Nat) := none
  path : FramePath := .window
  pass : Nat := 0
  epoch : Nat := 0
  bank : Nat := 0
  groups : Nat := 0
  bitmap : Option Nat := none
  nextShape : Option Nat := none
  parse : Parse := {}
  tail : Bool := false
  tailCode : Nat := 0
  verdict : Option (Nat × Nat) := none
  fate : Option Fate := none
  group : Word := 0
  key : List Byte := []
  act : List Word := []
  hit : Nat := 0
  rule : Nat := 0
  handle : Option Nat := none
  colour : Nat := 0
  redDrop : Bool := false
  refs : Nat := 1
  mirror : Option Nat := none
  ingress : Option Nat := none
  tier : Nat := 0
  unit : Nat := 0
  dest : Nat := 0
  moving : Option Nat := none
  fetching : Bool := false
  moved : Nat := 0
  drain : Option Nat := none
  spoiled : Bool := false
  deriving DecidableEq, Repr

/-- How far a copy has come. -/
inductive CopyStage where
  /-- Admitted, not yet enqueued (R28). -/
  | admitted
  | queued
  | selected
  /-- Edited, waiting for the MAC or the sieve. -/
  | edited
  deriving DecidableEq, Repr

/-- A copy of a frame on its way to a port: the enqueue descriptor's fields (R39, R183), its REASON for a host ring (R344), the enqueue stamp on TEL.TB with the steps that base had taken (R304, R310), and
the frame as the egress editor leaves it. `mark` is admission's ECN mark; `trunc` a mirror copy's TRUNC;
`wireFrom` the idle start of R256 in ps once it is selected and `seq` its place in the order of enqueue, from its selection on in that of selection; `was` the frame, kept once the editor has read its last grain
and the frame itself may be gone (R29); `wire` the bytes on the wire of a frame that is cut and not yet sent to its end,
`lost` that its timestamp capture was lost (R288). -/
structure Copy where
  frame : Nat
  port : Nat
  cls : Nat
  clod : Nat
  flow : Nat
  ring : Nat := 0
  reason : Nat := 0
  prog : Option Nat := none
  operands : List Byte := []
  tsReq : Bool := false
  assay : Option Nat := none
  trunc : Nat := 0
  mark : Bool := false
  stage : CopyStage := .admitted
  enq : Nat := 0
  enqStep : Nat := 0
  wireFrom : Nat := 0
  seq : Nat := 0
  edit : Option Edit := none
  was : Option Frame := none
  wire : List Byte := []
  lost : Bool := false
  deriving DecidableEq, Repr

/-- A rule of the mesh (R162, R194): key and mask words, action words, OVERRIDE. An entry is listed while VALID is 1. -/
structure MeshRule where
  key : List Word
  mask : List Word
  act : List Word
  valid : Bool
  override : Bool
  deriving DecidableEq, Repr

/-- An outstanding handle (R173): its frame, its channel, and whether its key has been sent. -/
structure Handle where
  frame : Nat
  chan : Nat
  sent : Bool := false
  deriving DecidableEq, Repr

/-- Mesh and handoff state that no register shows: the rules by (bed, bank, table, index), the replication tables, the
handles in use and the slots' generations by 8192 bed + slot, and by 4 bed + channel the slots whose keys wait and the
key credits in use; how many verdicts have been used; by bed the tick of the last edit, by which a rewrite commit finds edits in
progress (R193); the pipes on trial by 8 bed + pipe with the windows they have matched (R446); by bed the cycle in which it last
issued windows and how many in it (R136), the windows since the last audit with the slot whose turn is next (R141), and the cycle
of the last map change (R139); by 2 bed, and 2 bed + 1 for rewrites, the cycle of the last commit with its source, a pulse (true) or
a write (R171, R193). -/
structure Mesh where
  rules : List (Nat × Option MeshRule) := []
  groups : List (Nat × Word) := []
  members : List (Nat × List Word) := []
  handles : List (Nat × Option Handle) := []
  gens : List (Nat × Nat) := []
  keyq : List (Nat × List Nat) := []
  used : List (Nat × Nat) := []
  lastEdit : List (Nat × Option Nat) := []
  trial : List (Nat × Option Nat) := []
  verdicts : Nat := 0
  beat : List (Nat × (Nat × Nat)) := []
  audit : List (Nat × (Nat × Nat)) := []
  mapAt : List (Nat × Option Nat) := []
  commits : List (Nat × Option (Nat × Bool)) := []
  deriving DecidableEq, Repr

/-- A meter record (R202): rates in kbit/s, bursts in bytes, tokens in 1/256 byte with the fractions carried, and the
CK_CROSS cycle of its last update. -/
structure Meter where
  cir : Nat := 0
  pir : Nat := 0
  en : Bool := false
  aware : Bool := false
  redDrop : Bool := false
  cbs : Nat := 0
  pbs : Nat := 0
  tc : Nat := 0
  tp : Nat := 0
  fracC : Nat := 0
  fracP : Nat := 0
  stamp : Nat := 0
  deriving DecidableEq, Repr

/-- Admission and tier state that no register shows: the meters, the ingress counts by 8 port + class (R198), the ECN
LFSR (R208), the stack the next spill begins its choice at (R214), and moves and prefetches in progress by stack or link
in grains (R25). -/
structure Adm where
  meters : List (Nat × Meter) := []
  ingress : List (Nat × Nat) := []
  lfsr : BitVec 32 := 0xFFFFFFFF
  nextStack : Nat := 0
  spilling : List (Nat × Nat) := []
  fetching : List (Nat × Nat) := []
  deriving DecidableEq, Repr

/-- A flow (R224, R239): its copies in order, its binding, QUANTUM, DEFICIT, GRANT_ROUND, depth in grains, its dequeue
counters and sampling words (R305). -/
structure Flow where
  q : List Nat := []
  port : Nat := 0
  cls : Nat := 0
  clod : Nat := 0
  quantum : Nat := 0
  deficit : Nat := 0
  grant : Nat := 0
  depth : Nat := 0
  deqFrames : Nat := 0
  deqBytes : Nat := 0
  sample : List Word := [0, 0, 0, 0]
  deriving DecidableEq, Repr

/-- A clod (R232 to R238): rates in rate units, bursts in bytes, signed tokens in 1/16 byte with refill remainders, the
cycle of the last update, and the grains counted under it (R198). -/
structure Clod where
  cir : Nat := 0
  pir : Nat := 0
  weight : Nat := 0
  cbs : Nat := 0
  en : Bool := false
  pbs : Nat := 0
  tc : Int := 0
  tp : Int := 0
  stamp : Nat := 0
  remC : Nat := 0
  remP : Nat := 0
  count : Nat := 0
  deriving DecidableEq, Repr

/-- A list of clods with its pointer, and whether the clod at the pointer has had this turn's quantum (R233). -/
structure ClodList where
  ids : List Nat := []
  ptr : Nat := 0
  granted : Bool := false
  deriving DecidableEq, Repr

/-- A port's scheduling state in the cross (R241): the pacer credit in 1/12,500 byte and the cycle it was brought up to,
the DRR group's pointer and whether the class at it has had its quantum, and the class deficits. -/
structure PortSch where
  pacer : Int := 16384 * 12500
  stamp : Nat := 0
  ptr : Nat := 0
  granted : Bool := false
  deficits : List Nat := List.replicate 8 0
  deriving DecidableEq, Repr

/-- An indirect shadow write that waits for its port's hand-over (R243, R246). -/
inductive ShadowOp where
  | quantum (flow quantum : Nat)
  | clod (clod : Nat) (words : List Word) (full : Bool)
  deriving DecidableEq, Repr

/-- The turn of the engines of a position, or of the cross for 16 (R227, R247): the cycle it is about, the engines handed out
in it, and the place in the round from which the next is. -/
structure EngineTurn where
  cycle : Nat := 0
  used : Nat := 0
  next : Nat := 0
  deriving DecidableEq, Repr

/-- The scheduler's state in the cross: flows, clods, ports; by 8 port + class the committed (2 n) and excess (2 n + 1)
clod lists and the rounds; by (8 port + class) 2^20 + clod the flow lists and the clod deficits; the indirect writes that
wait, with their ports; the flows in the active-flow caches, most recently used first; the fetches in progress (R239); the
engines' turns by position. -/
structure Sched where
  flows : List (Nat × Flow) := []
  clods : List (Nat × Clod) := []
  ports : List (Nat × PortSch) := []
  lists : List (Nat × ClodList) := []
  rounds : List (Nat × Nat) := []
  flowLists : List (Nat × List Nat) := []
  clodDef : List (Nat × Nat) := []
  indirect : List (Nat × ShadowOp) := []
  cache : List Nat := []
  fetches : List Nat := []
  turns : List (Nat × EngineTurn) := []
  deriving DecidableEq, Repr

/-- A frame or fragment that the gate monitor has still to judge: its class, its transmit start timestamp and its end, in ps
(R267). -/
structure WireSpan where
  cls : Nat
  start : Nat
  stop : Nat
  deriving DecidableEq, Repr

/-- The gate engine of a port beside its registers: the last 64 changes of its gate states, newest first, each with the
instant it was made at in ps, and what the monitor has still to judge (R267); the end of the last fragment of an open preemptable
frame in ps, and whether a continuation of it has passed R259 since (R260); the instant in ps at which the port's wire is free
(R256); and the cycle of the last commit with its source, a pulse (true) or a write, which are one commit within a cycle
(R263). -/
structure GateSt where
  record : List (Nat × BitVec 8) := []
  spans : List WireSpan := []
  fragEnd : Nat := 0
  passed : Bool := false
  busy : Nat := 0
  commit : Option (Nat × Bool) := none
  deriving DecidableEq, Repr

/-- Gate state that no register shows: entries as their two words, by ((16 bed + port) 2 + store) 1,024 + entry (R250),
and the engines by 16 bed + port. -/
structure Gates where
  entries : List (Nat × (Word × Word)) := []
  ports : List (Nat × GateSt) := []
  deriving DecidableEq, Repr

/-- An operation of TB[k].CMD that waits for the first tick after its write (R275): none of those named, the value of a SET, the
offset of a STEP, the offset of a SLEW with its SLEW_PPM. -/
inductive TbOp where
  | nothing
  | set (v : Nat)
  | step (d : Int)
  | slew (d : Int) (ppm : Nat)
  deriving DecidableEq, Repr

/-- A time base or a tracker (R270, R294), in units of 2^-32 ns: its value, the addend committed to it, SLEW_LEFT with
the SLEW_PPM of that slew; the operation that waits for the next tick (R275); `ticked` tells that the next CK_TIME tick's
addend is in the value already, because the slew ended at that tick; `valid` that a SET has been applied to it (R294). -/
structure TimeBase where
  val : Nat := 0
  addend : Nat := 0x19999999A
  slew : Int := 0
  ppm : Nat := 10
  cmd : Option TbOp := none
  ticked : Bool := false
  valid : Bool := false
  deriving DecidableEq, Repr

/-- A timed-action slot (R290 to R293): T as written in seconds and ns, P, W4 and W5 as written, ARMED, LATE, LATENESS,
RUNS. -/
structure ActSlot where
  sec : Nat := 0
  ns : Nat := 0
  period : Nat := 0
  w4 : Word := 0
  w5 : Word := 0
  armed : Bool := false
  late : Bool := false
  lateness : Nat := 0
  runs : Nat := 0
  deriving DecidableEq, Repr

/-- The time unit beside its registers: bases (0 to 7) and trackers (8, 9), action slots by 256 base + slot, the
transmit timestamp queues and sequences of the ports by 16 bed + port (R287), the PPS captures that wait by input (R296),
the level each PPS output is driven to by a pulse (R297), a frequency measurement in progress (R298), and by
monitor the run of samples out of bound (R299). -/
structure TimeSt where
  bases : List (Nat × TimeBase) := []
  slots : List (Nat × ActSlot) := []
  tsq : List (Nat × List (List Word)) := []
  tseq : List (Nat × Nat) := []
  pps : List (Nat × List Nat) := []
  measuring : Bool := false
  monBad : List (Nat × Nat) := []
  deriving DecidableEq, Repr

/-- One class interval record while it is open (R308, R311). -/
structure ClassRec where
  late : Bool := false
  endDepth : Nat := 0
  maxDepth : Nat := 0
  frames : Nat := 0
  bytes : Nat := 0
  maxSojourn : Nat := 0
  deriving DecidableEq, Repr

/-- An interval whose records are not final (R307 to R310): its index and end in ns, whether END_DEPTH has been taken,
whether its records say STEP, whether a step has closed it to happenings, its records by 8 port + class. -/
structure TelInterval where
  idx : Nat
  stop : Nat
  ended : Bool := false
  step : Bool := false
  closed : Bool := false
  recs : List (Nat × Option ClassRec) := []
  deriving DecidableEq, Repr

/-- Telemetry state beside its registers: the open intervals, oldest first; the end in ns of the last interval that became final
since TEL.TB last stepped, and that of the latest interval opened (0: none); how often TEL.TB has stepped; the two archive rings by record number modulo capacity (R312); the flow records whose writes
are not acknowledged, oldest first, and the class records likewise, interval by interval with how many of the interval's
are acknowledged (R313); whether a ring has wrapped since EN was set; the sizes written to TEL.ARCH_CFG that take effect when
the line island next reaches ON (R312). -/
structure Tel where
  opened : List TelInterval := []
  lastFinal : Nat := 0
  reached : Nat := 0
  steps : Nat := 0
  flowRing : List (Nat × List Word) := []
  classRing : List (Nat × List Word) := []
  flowOut : List (List Word) := []
  classOut : List (Nat × Nat × List (List Word)) := []
  wrapped : Bool := false
  archNext : Option Word := none
  deriving DecidableEq, Repr

/-- A frame on the host side (R344, R347): its bytes, its receive ring and REASON, the fields of its writeback (`rx` its
receive record's value and base), and whether it holds FRAME-out credits (R349). -/
structure HostFrame where
  bytes : List Byte
  ring : Nat
  reason : Nat
  flow : Nat := 0
  src : Nat := 0
  cls : Nat := 0
  clod : Nat := 0
  rx : Option (Nat × Nat) := none
  tag : Nat := 0
  err : Nat := 0
  mf : Nat := 0
  credit : Bool := true
  deriving DecidableEq, Repr

/-- A transmit send (R334, R341): the count of its first descriptor; its descriptors as read; STATUS; the frames still to
cross and the number that have crossed; whether its one frame's fate is awaited, under the number the line side reports it
by; the report (0 dropped, 1 captured, 2 capture lost, 3 expired); whether it has been written back. -/
structure Send where
  first : Nat
  descs : List (List Word)
  status : Nat := 0
  frames : List (List Byte) := []
  crossed : Nat := 0
  tsReq : Bool := false
  id : Option Nat := none
  report : Option Nat := none
  written : Bool := false
  deriving DecidableEq, Repr

/-- A ring beside its registers (R325 to R353): BASE, DB, CTL and PARAM as read on entry to RUNNING (R332); whether a record
fetch is in flight and another is to follow; a transmit ring's open run of descriptors, each with its buffer's bytes and
the count of the first, and its sends in order; a receive ring's frames that wait and those that have reserved, each with
its first descriptor and their number; a vector's last message in ps. -/
structure RingSt where
  base : Nat := 0
  db : Nat := 0
  ctl : Word := 0
  param : Word := 0
  fetching : Bool := false
  again : Bool := false
  open_ : List (List Word × List Byte) := []
  openAt : Nat := 0
  sends : List Send := []
  waiting : List HostFrame := []
  reserved : List (HostFrame × Nat × Nat) := []
  lastMsg : Option Nat := none
  deriving DecidableEq, Repr

/-- The ring engine beside the registers: rings by 512 kind + number (transmit 0, receive 1, event 2), the host receive
store, the transmit ring that the round robin begins at (R340), the ring that the poll's begins at (R328), and the record
fetches (by ring) and Auger fetches (2048 + channel) that wait for one of the 512 reads to end (R322, R365). -/
structure Rings where
  rings : List (Nat × RingSt) := []
  store : List HostFrame := []
  turn : Nat := 0
  pollTurn : Nat := 0
  readQ : List Nat := []
  deriving DecidableEq, Repr

/-- A descriptor of an Auger channel in execution (R358, R359): its number in its channel, its host address, its words, its
index table, whether its ranges have been checked, and the bytes whose reads have been issued. -/
structure AugDesc where
  num : Nat
  addr : Nat
  words : List Word
  index : List Word
  started : Bool := false
  issued : Nat := 0
  deriving DecidableEq, Repr

/-- What a descriptor fetch of a channel is for: the head or next descriptor of a chain, the re-read of the parked one
(R362), or a resumption at CUR and POS (R368). -/
inductive AugFetch where
  | next
  | reread
  | resume
  deriving DecidableEq, Repr

/-- An Auger channel beside its registers (R361 to R370): the descriptors read, in chain order; the fetch in flight with its
address; the writes whose responses are awaited, as descriptor number and first byte; the number the next descriptor takes;
the cause of a fault for which it drains; whether it drains for an ABORT; whether it was IDLE when it was paused; and whether
its last fetch was a re-read that has not come. -/
structure AugCh where
  descs : List AugDesc := []
  fetch : Option (AugFetch × Nat) := none
  out : List (Nat × Nat) := []
  nextNum : Nat := 0
  fault : Option Nat := none
  abort : Bool := false
  wasIdle : Bool := false
  rereading : Bool := false
  deriving DecidableEq, Repr

/-- An entry of a scan pass as it stood at the pass's start (R386, R387): its index, its CTL, START and LEN in bytes, REF. -/
structure ScanEntry where
  index : Nat
  ctl : Word
  start : Nat
  len : Nat
  ref : Nat
  deriving DecidableEq, Repr

/-- Assay state beside the registers (chapter 15): the committed parameter sets by unit, the units whose committed set has a
parity error, the egress alive counters by 256 unit + port and the last accepted value of each synced ingress slot by 256
unit + stream (R382, R385), the entries that the running pass has still to read (R387), the set that the one being read
computes with (R377), and whether a start is pending (R388). -/
structure Assay where
  sets : List (Nat × CrcSet) := []
  parity : List Nat := []
  alive : List (Nat × Nat) := []
  slots : List (Nat × Option Nat) := []
  pass : Option (List ScanEntry) := none
  entrySet : CrcSet := ⟨32, 0, 0, 0, false, false⟩
  held : Bool := false
  deriving DecidableEq, Repr

/-- A sequenced flit (R397): its type, ARG and the start of its body, whose other bytes are 0. -/
structure SiltFlit where
  type : Nat
  arg : Nat
  body : List Byte := []
  deriving DecidableEq, Repr

/-- A sequenced flit of a module (R397). -/
inductive ModFlit where
  | readData (addr wack : Nat) (err bad : Bool)
  | writeAck (count : Nat)
  | credit (wcred rcred : Nat)
  | status (words : List Word)
  deriving DecidableEq, Repr

/-- A silt link beside its registers (chapter 16): the retries since DISABLED; the physical lanes still in the bring-up stage;
whether a valid CAP has come and whether the block's own is acknowledged; the flits that wait for room or credit; the SEQ the
next takes; the replay buffer with how often each was resent without progress; the SEQ expected, the last accepted, and
whether a NAK was sent since; write and read credits; the LANE_MAP not yet acknowledged; the writes and the reads that the
module has still to answer, in order, as frame and address; the module addresses given to frames; by lane the times in ps
of its late CRC errors; the logical lane whose turn to send is next; the physical lanes that the transmitter uses, in logical
order, which are the map's once LANE_MAP is acknowledged (R408); the flits that came early, as SEQ, ACK and flit (R399);
whether an ABORT of the MEM1 role has paused a planned detach (R432). -/
structure SiltSt where
  retries : Nat := 0
  stage : BitVec 8 := 0
  capGot : Bool := false
  capAcked : Bool := false
  txq : List SiltFlit := []
  nextSeq : Nat := 0
  replay : List (Nat × SiltFlit × Nat) := []
  expect : Nat := 0
  ack : Nat := 0xFFF
  naked : Bool := false
  wcred : Nat := 0
  rcred : Nat := 0
  mapPending : Option Nat := none
  writes : List (Nat × Nat) := []
  reads : List (Nat × Nat) := []
  addrs : List (Nat × Nat) := []
  crcErr : List (Nat × List Nat) := []
  turn : Nat := 0
  txMap : List Nat := []
  early : List (Nat × Nat × ModFlit) := []
  paused : Bool := false
  deriving DecidableEq, Repr

/-- A tilth engine beside its registers (R418, R421): the image it holds, header and ciphertext as they were loaded, and the
words of its control store from address 0 on; the words beyond them are 0. -/
structure EngSt where
  image : Option (List Byte) := none
  store : List (BitVec 96) := []
  deriving DecidableEq, Repr

/-- A tilth role beside its registers (R422, R428 to R432): its resume record with the record's RR_FORMAT, its recall image,
the engine that a pending handover names, the engine that takes it over, and whether an ABORT and a wake wait for the next
safe point. -/
structure RoleSt where
  record : Option (Nat × List Byte) := none
  recallImg : Option (List Byte) := none
  target : Nat := 0
  takeover : Option Nat := none
  abort : Bool := false
  wake : Bool := false
  deriving DecidableEq, Repr

/-- The tilth engines, the roles, and the load in progress: its target and the bytes received. -/
structure Tilth where
  engines : List (Nat × EngSt) := []
  roles : List (Nat × RoleSt) := []
  load : Option (Nat × List Byte) := none
  deriving DecidableEq, Repr

/-- What a marl region holds of a bed (R451): its registers by their offset in the bed's window (with those of the second
bank beyond `bankSpan`), its rules and its gate list entries, both by key within the bed. -/
structure BedImage where
  regs : List (Nat × Word) := []
  rules : List (Nat × Option MeshRule) := []
  entries : List (Nat × (Word × Word)) := []
  deriving DecidableEq, Repr

/-- Harm detection, swap and marl state beside the registers: detections counted in the open windows by
1,024 class + target (R440), the next record's sequence number (R443), the report lines' queue, the presented record
first, as word 0 of each (R488), whether HARM_ALARM is asserted for a PLL loss and whether that record is still to be
written (R64, R443), the beds that must come back fresh (R454), the marl regions of beds that are not ON (R451), whether
the swap in progress hands its position back, the frames matched in SHADOW (R447, R448), and pseudo-channels by
34 stack + channel: those in repair with the spare that takes each over, those mapped out at run time (R456), the positions whose
ports stay fenced until their own bed is fresh again (R447), and the weathering monitor to be sampled next (R455). -/
structure Harm where
  counts : List (Nat × Nat) := []
  seq : Nat := 0
  reports : List Word := []
  pllAlarm : Bool := false
  pllOwed : Bool := false
  stale : List Nat := []
  marl : List (Nat × Option BedImage) := []
  returning : Bool := false
  matched : Nat := 0
  repairs : List (Nat × Nat) := []
  worn : List Nat := []
  waiting : List Nat := []
  wearTurn : Nat := 0
  deriving DecidableEq, Repr

/-- One path's debug side (R467 to R473): its level, its challenge and whether that is still valid, the token words
received since CHAL_REQ, how many bytes they were, RESULT, the session's DURATION_S and the tick it opened at. -/
structure DbgPath where
  level : Nat := 0
  chal : Nat := 0
  chalOk : Bool := false
  token : List Word := []
  count : Nat := 0
  result : Nat := 0
  duration : Nat := 0
  opened : Nat := 0
  deriving DecidableEq, Repr

/-- What follows a wipe (R472): a FULL session on a path (true: the port's) with its token, or the blow of lifecycle bit
`t` for the LC.REQ value written. -/
inductive AfterWipe where
  | grant (port : Bool) (token : List Word)
  | blow (t : Nat) (req : Word)
  deriving DecidableEq, Repr

/-- Security state beside the registers: the two paths, the token check in progress with its path, its token and whether
its challenge was valid, the wipe in progress, the blow asked for while a FULL session's wipe runs, the lifecycle blow in progress as its bit and the LC.REQ value, the key
slot whose revocation fuse is being blown (8 set + slot), the ledger entry being blown with its word, FAILS and LOCKED (R471), the debug port's
registers by address (R468), the 64-byte lines that the debug port has written to topsoil and subsoil, by 2^40 space +
line, with what told the memories' state when it last wrote (`linesAt`), and the same for when a wipe zeroed them: the lines,
or the zeros, stand while nothing of the block has written since. -/
structure Sec where
  host : DbgPath := {}
  port : DbgPath := {}
  check : Option (Bool × List Word × Bool) := none
  wipe : Option AfterWipe := none
  lcNext : Option (Nat × Word) := none
  lcBlow : Option (Nat × Word) := none
  keyBlow : Option Nat := none
  fuseBlow : Option (Nat × Word) := none
  fails : Nat := 0
  locked : Bool := false
  dp : List (Nat × Word) := []
  lines : List (Nat × Option (List Word)) := []
  linesAt : List Nat := []
  zeroed : Option (List Nat) := none
  deriving DecidableEq, Repr

/-- The timers of the block that a command of the table waits for; each is listed while it runs, with its length. -/
inductive Timer where
  /-- R67: an island's ramp timer. -/
  | ramp (island : Nat)
  /-- R75: the clock monitor's window. -/
  | clkMon
  /-- R86: a port's bring-up stage timer. -/
  | portStage (port : Nat)
  /-- R86: REFORM_LIMIT. -/
  | reformLimit (port : Nat)
  /-- R86: RETRY_GAP_MS of a port. -/
  | gap (port : Nat)
  /-- R93: FAULT_HOLD_MS. -/
  | faultHold (port : Nat)
  /-- R86: the 2 ms of WAKE. -/
  | dormantWake (port : Nat)
  /-- R90, R408: a lost lane must hold lock for 1 ms. -/
  | laneRelock (lane : Nat)
  /-- R114: a priority's pause timer. -/
  | pauseLeft (mac prio : Nat)
  /-- R117: WD_LIMIT_MS of a pause run. -/
  | wdRun (mac prio : Nat)
  /-- R118: a watchdog hold. -/
  | wdHold (mac prio : Nat)
  /-- R116: REFRESH_QUANTA of a raised request. -/
  | pauseRefresh (mac cls : Nat)
  /-- R120: VERIFY_TIME_MS. -/
  | mmVerify (mac : Nat)
  /-- R101: the MDIO transaction in progress. -/
  | mdio
  /-- R131: the backoff wait of the management port. -/
  | backoff
  /-- R131: 96 bit times after carrier sense drops. -/
  | defer
  /-- R180: a handle's timeout, by 8192 bed + slot. -/
  | handoff (handle : Nat)
  /-- R242: the initialisation of the scheduler's records. -/
  | schedInit
  /-- R277: an armed unlock, by base (0 to 7) and tracker (8, 9). -/
  | unlock (base : Nat)
  /-- R297: a pulse on a PPS output. -/
  | ppsOut (out : Nat)
  /-- R440: a threshold window, by 1,024 class + target. -/
  | harmWindow (key : Nat)
  /-- R439: a marker of a bed is out. -/
  | heartbeat (bed : Nat)
  /-- R388: CYCLE_US of periodic Assay scan passes. -/
  | scan
  /-- R341: TS_WAIT_MS of a TS_REQ send. -/
  | tsWait (send : Nat)
  /-- R345: RX_SHORT_WAIT_NS of a short receive ring. -/
  | rxShort (ring : Nat)
  /-- R328: POLL_NS after a torn record, by 512 kind + ring. -/
  | torn (ring : Nat)
  /-- R404: a link's bring-up stage timer. -/
  | siltStage (link : Nat)
  /-- R404: RETRY_GAP_MS of a link. -/
  | siltGap (link : Nat)
  /-- R404: 10 µs to the next CAP. -/
  | siltCap (link : Nat)
  /-- R407: 1 µs to the next LANE_MAP. -/
  | siltMap (link : Nat)
  /-- R399: 64 frames without a flit. -/
  | siltNull (link : Nat)
  /-- R400: REPLAY_NS of the oldest unacknowledged flit. -/
  | siltReplay (link : Nat)
  /-- R409: LOSS_US without progress. -/
  | siltLoss (link : Nat)
  /-- R426: 65,536 CK_TILTH cycles since an engine's last safe point. -/
  | tilthWd (engine : Nat)
  /-- R473: DURATION_S of a path's session. -/
  | session (port : Bool)
  /-- R471: the 60 s of a path's challenge. -/
  | challenge (port : Bool)
  /-- R470: the 1 s of RETURN_ARMED. -/
  | returnArm
  deriving DecidableEq, Repr

/-- What leaves the block at its edge (R483), recorded in the order it leaves. -/
inductive Output where
  /-- R5, R487: a slave response on the host port. -/
  | busResponse (error : Bool) (data : Word)
  /-- R319: a single-cycle assertion of a PMU line in a CK_CROSS cycle. -/
  | pmuPulse (line cycle : Nat)
  /-- R116: a PAUSE or PFC frame with its enabled priorities, quanta for those in xoff and 0 for the released ones; port 258
  sends PAUSE alone. -/
  | pauseFrame (port : Nat) (pfc : Bool) (enable xoff : BitVec 8) (quanta : Nat)
  /-- R120: a verify or respond frame of the merge sublayer. -/
  | mergeVerify (port : Nat) (respond : Bool)
  /-- R101: an MDIO transaction starts. -/
  | mdioFrame (clause45 : Bool) (op phyad regad data : Nat)
  /-- R97: an error event placed in the transmit stream. -/
  | prbsInject (lane : Nat) (kind len : Nat)
  /-- R95: the symbols that a lane's generator sends in one root tick, first first: PAM4 levels 0 to 3, or bits. -/
  | laneSymbols (lane : Nat) (pam4 : Bool) (symbols : List Nat)
  /-- R84: the answer to a link partner's coefficient requests: by tap, in the order of the board preset, "at limit". -/
  | coefAnswer (lane : Nat) (atLimit : List Bool)
  /-- R112: a port's MAC sends remote-fault sequences (or, with `idle`, idle) on these powered lanes of its span. -/
  | faultSignal (port : Nat) (idle : Bool) (lanes : List Nat)
  /-- R442: the lane ring drives remote-fault sequences on every lane of a position whose bed is fenced. -/
  | ringFault (pos : Nat)
  /-- R93: the bytes of a frame, or of its last fragment, that had left when a lane was lost; the wire then breaks off. -/
  | wireCut (port start : Nat) (bytes : List Byte)
  /-- R131: the 32-bit jam after a collision. -/
  | mgmtJam
  /-- R133: the wake detector's request to the power controller. -/
  | wakeRequest
  /-- R176: a key message on a key channel of a bed. -/
  | fhiKey (bed chan : Nat) (msg : List Byte)
  /-- R297: a PPS output goes to a level. -/
  | ppsLevel (out : Nat) (level : Bool)
  /-- R103: a frame with its FCS leaves on a network port or port 258. -/
  | wireFrame (port : Nat) (bytes : List Byte)
  /-- R122: a fragment of a preemptable frame, its bytes from `start` on with its mCRC, or with the FCS in the last one. The
  frame's number stands in the SMD of each, and a continuation's fragment count after it. -/
  | wireFragment (port start number : Nat) (count : Option Nat) (bytes : List Byte)
  /-- R328: a master read of a ring's doorbell record. -/
  | doorbellFetch (addr : Nat)
  /-- R321: a master write of a received frame's bytes to a buffer. -/
  | hostWrite (addr : Nat) (bytes : List Byte)
  /-- R341, R346: a descriptor writeback. -/
  | descriptorWrite (addr : Nat) (words : List Word)
  /-- R350: an event record is written. -/
  | eventWrite (addr : Nat) (words : List Word)
  /-- R353: a vector's interrupt message. -/
  | interrupt (vector : Nat)
  /-- R417: the loss of redundancy is reported to the chip's safety controller: a role stays unserved. -/
  | redundancyLost (role : Nat)
  /-- R361: a master read of an Auger descriptor. -/
  | augFetch (chan addr : Nat)
  /-- R396: a flit of 268 bytes is sent on a link. -/
  | siltFlit (link : Nat) (bytes : List Byte)
  /-- R468: an access on the debug port completes. -/
  | dpResponse (error : Bool) (data : Word)
  deriving DecidableEq, Repr

/-- Why a step stops with a fault. No command of the block stops it: an error is an answer on a port, an event or a
counter (inventory, Faults). The one constructor is raised by nothing; it is safe. -/
inductive Fault where
  /-- Raised by no command. Safe. -/
  | none
  deriving DecidableEq, Repr

/-- Why a step is refused. -/
inductive Refusal where
  /-- Raised by an arm of exec whose command has no meaning yet. Safe: no state follows. -/
  | notModelled (mnemonic : String)
  deriving DecidableEq, Repr

/-- The state of the block. -/
structure State where
  /-- MODEL'S OWN: the commands that wait, first in, first out. -/
  pending : List Instr := []
  /-- MODEL'S OWN (assumption 6): root-PLL ticks of 160 ps since reset, the clock of every stamp below. -/
  now : Nat := 0
  /-- MODEL'S OWN (assumption 3): how many free values have been drawn. -/
  draws : Nat := 0
  /-- Every register of the register map, by block-window offset; sparse against `regReset`. -/
  regs : List (Nat × Word) := []
  /-- MODEL'S OWN: what has left the block at its edge, newest first. -/
  outbox : List Output := []
  /-- The timers that run, with their lengths in ns. -/
  timers : List (Timer × Nat) := []
  /-- Event records waiting to be sent, by EVT register (R316, R317). -/
  evWait : List (Nat × Word) := []
  /-- Next free CK_CROSS cycle of each PMU line (R319). -/
  pmuNext : List (Nat × Nat) := []
  pwr : Pwr := {}
  lanes : List (Nat × LaneSt) := []
  ports : List (Nat × PortSt) := []
  macs : List (Nat × MacSt) := []
  mgmt : MgmtSt := {}
  /-- Pending generations: the values written to SH registers since the last hand-over of their ports (R243). -/
  shadow : List (Nat × Option Word) := []
  frames : List (Nat × Option Frame) := []
  copies : List (Nat × Option Copy) := []
  /-- MODEL'S OWN: the number the next frame or copy takes. -/
  nextId : Nat := 1
  mesh : Mesh := {}
  adm : Adm := {}
  sched : Sched := {}
  gates : Gates := {}
  time : TimeSt := {}
  tel : Tel := {}
  /-- Pulses waiting on the lines of the event fabric, as counts (R371). -/
  fabric : List (Nat × Nat) := []
  assay : Assay := {}
  rings : Rings := {}
  /-- The Auger channels. -/
  aug : List (Nat × AugCh) := []
  /-- The Auger channel at which the engines' round robin begins (R364). -/
  augTurn : Nat := 0
  /-- The silt links. -/
  silt : List (Nat × SiltSt) := []
  tilth : Tilth := {}
  harm : Harm := {}
  sec : Sec := {}
  /-- Fates of frames of TS_REQ sends that the line side has still to report, as (send, report) (R341). -/
  fates : List (Nat × Nat) := []
  deriving DecidableEq, Repr

/-- The islands whose power enable is 1 at reset: host, line, BED0 to BED15, silt links 0 to 7 (R70). -/
def rampsAtReset : List Nat := [0, 1] ++ (List.range 16).map (2 + ·) ++ (List.range 8).map (19 + ·)

/-- The block right after LOT_POR_N is released (R70): the wake island is out of reset and has sensed the fuses, the root
PLL has not locked, and every island whose power is enabled ramps, its ramp timer of 100 µs running (R67). -/
def State.reset : State where
  timers := rampsAtReset.reverse.map fun i => (.ramp i, 100000)
  pwr := { fusesSensed := true, isl := rampsAtReset.map fun i => (i, .ramp) }

end Sys2Proof.Machine
end

