-- ==== Sys2Proof/Machine/Ops.lean ====
section
/-! DEFINITION. The named operations over the state that every command's meaning is built from: the register file,
counters, events, timers, PMU pulses and outputs. -/

namespace Sys2Proof.Machine

/-! ## The register file -/

/-- Value of a register, or of a bank's copy of a banked register. -/
def State.rd (s : State) (off : Nat) : Word := sget regReset s.regs off

/-- The block sets a register. -/
def State.wr (s : State) (off : Nat) (w : Word) : State := { s with regs := sset regReset s.regs off w }

/-- A field of a register. -/
def State.rdf (s : State) (off hi lo : Nat) : Nat := fld hi lo (s.rd off)

/-- The block sets a field of a register. -/
def State.wrf (s : State) (off hi lo n : Nat) : State := s.wr off (setFld hi lo n (s.rd off))

/-- One bit of a register. -/
def State.rdb (s : State) (off i : Nat) : Bool := bit i (s.rd off)

/-- The block sets one bit of a register. -/
def State.wrb (s : State) (off i : Nat) (v : Bool) : State := s.wr off (setBit i v (s.rd off))

/-- The value of a register pair, low word first (R7). -/
def State.rd2 (s : State) (off : Nat) : Nat := (s.rd off).toNat + 2 ^ 32 * (s.rd (off + 4)).toNat

/-- The block sets a register pair, low word first (R7). -/
def State.wr2 (s : State) (off n : Nat) : State := (s.wr off (w32 n)).wr (off + 4) (w32 (n / 2 ^ 32))

/-- The block sets consecutive registers from a list of words. -/
def State.wrs (s : State) (off : Nat) : List Word → State
  | [] => s
  | w :: ws => (s.wr off w).wrs (off + 4) ws

/-- The words of n consecutive registers. -/
def State.rds (s : State) (off n : Nat) : List Word := (List.range n).map fun i => s.rd (off + 4 * i)

/-! ## Outputs, free values, timers -/

/-- Something leaves the block at its edge. -/
def State.emit (s : State) (o : Output) : State := { s with outbox := o :: s.outbox }

/-- The next free value, and the state that has drawn it (assumption 3). -/
def State.draw (s : State) : Nat × State := (Config.freeValue s.draws, { s with draws := s.draws + 1 })

/-- Does a timer run? -/
def State.timerOn (s : State) (t : Timer) : Bool := s.timers.any fun e => e.1 == t

/-- A timer stops. -/
def State.stopTimer (s : State) (t : Timer) : State := { s with timers := s.timers.filter fun e => e.1 != t }

/-- A timer starts, or starts afresh, for a length in ns. -/
def State.startTimer (s : State) (t : Timer) (ns : Nat) : State :=
  { s with timers := (t, ns) :: s.timers.filter fun e => e.1 != t }

/-- Milliseconds in ns. -/
def ms (n : Nat) : Nat := n * 1000000

/-- Microseconds in ns. -/
def us (n : Nat) : Nat := n * 1000

/-- The CK_CROSS cycle of the present tick (R61: root ÷ 4). -/
def State.cycle (s : State) : Nat := s.now / 4

/-! ## Events and counters -/

/-- An event raises its status bit. When the bit was 0 and its mask bit is 0, the event record of its register takes
it in (R316, R317). -/
def State.raiseEvt (s : State) (evt i : Nat) : State :=
  if s.rdb evt i then s
  else
    let s' := s.wrb evt i true
    if s.rdb (evt + 4) i then s'
    else { s' with evWait := smod (fun _ => 0) s'.evWait evt (setBit i true) }

/-- Two to the 48, where a counter wraps (R99). -/
def cntMod : Nat := 2 ^ 48

/-- SCHED.SH_ACK of a bed reports the generation that a shadow write of a local port landed in (R245). -/
def State.shAck (s : State) (b p gen : Nat) : State := s.wr (offSchedShAck b) (w32 (2 ^ 31 + p * 65536 + gen % 65536))

/-- A 48-bit counter of two registers (R99). -/
def State.cnt (s : State) (off : Nat) : Nat := (s.rd off).toNat + 2 ^ 32 * (s.rdf (off + 4) 15 0)

/-- A 48-bit counter takes a value modulo 2^48. -/
def State.setCnt (s : State) (off n : Nat) : State :=
  (s.wr off (w32 n)).wr (off + 4) (w32 (n % cntMod / 2 ^ 32))

/-- A counter adds n; passing 2^48 - 1 wraps it and raises its unit's CNT_WRAP event (R99, R302). -/
def State.addCnt (s : State) (off n evt wrapBit : Nat) : State :=
  let s' := s.setCnt off (s.cnt off + n)
  if cntMod ≤ s.cnt off + n then s'.raiseEvt evt wrapBit else s'

/-- A counter counts one. -/
def State.inc (s : State) (off evt wrapBit : Nat) : State := s.addCnt off 1 evt wrapBit

/-- A drop cause counted in TEL.DROP of a position, 16 for the cross and the sieve (R303). -/
def State.dropTel (s : State) (n cause : Nat) : State := s.inc (offTelDrop n cause) offTelEvt 2

/-- A MAC statistics counter at `cnt` adds n: taking bit 47 from 0 to 1 sets its HALF bit, passing 2^48 - 1 its WRAP
bit (R126). `half` and `wrap` are the LO registers of the two bit vectors, `evt` the MAC's EVT register. -/
def State.statAt (s : State) (cnt half wrap evt i n : Nat) : State :=
  let old := s.cnt cnt
  let new := (old + n) % cntMod
  let s := s.setCnt cnt (old + n)
  let s := if old < 2 ^ 47 ∧ 2 ^ 47 ≤ new then (s.wrb (half + 4 * (i / 32)) (i % 32) true).raiseEvt evt 5 else s
  if cntMod ≤ old + n then (s.wrb (wrap + 4 * (i / 32)) (i % 32) true).raiseEvt evt 6 else s

/-- Statistics counter i of local port p of bed window b adds n (R125). -/
def State.stat (s : State) (b p i n : Nat) : State :=
  s.statAt (offStatCnt b p i) (offStatHalf b p 0) (offStatWrap b p 0) (offMacEvt b p) i n

/-- Statistics counter i of the management port adds n (R125). -/
def State.mgmtStat (s : State) (i n : Nat) : State :=
  s.statAt (offMgmtStatCnt i) (offMgmtStatHalf 0) (offMgmtStatWrap 0) offMgmtEvt i n

/-! ## Shadow registers -/

/-- A write to an SH register lands in the pending generation (R243). -/
def State.shadowSet (s : State) (off : Nat) (v : Word) : State :=
  { s with shadow := sset (fun _ => none) s.shadow off (some v) }

/-- The value a pending generation holds for an SH register, if it holds one. -/
def State.shadowGet (s : State) (off : Nat) : Option Word := sget (fun _ => none) s.shadow off

/-- The copies queued on a port, in the order they were made. -/
def State.copiesOn (s : State) (port : Nat) : List Nat :=
  s.copies.filterMap fun e => match e.2 with
    | some c => if c.port == port && c.stage == .queued then some e.1 else none
    | none => none

/-- The line side reports the fate of a TS_REQ send's frame: 0 discarded, 1 transmitted and its capture recorded,
2 transmitted and its capture lost (R341). -/
def State.sendFate (s : State) (send fate : Nat) : State := { s with fates := s.fates ++ [(send, fate)] }

/-! ## PMU lines -/

/-- One occurrence on PMU line i: it is asserted in the first free cycle, up to a backlog of 255 (R319). -/
def State.pmuLine (s : State) (i : Nat) : State :=
  let next := max s.cycle (sget (fun _ => 0) s.pmuNext i)
  if 255 < next - s.cycle then s.wrb (offPmuOvf (i / 32)) (i % 32) true
  else { s.emit (.pmuPulse i next) with pmuNext := sset (fun _ => 0) s.pmuNext i (next + 1) }

/-- An occurrence of a source at a position reaches every PMU line that selects it (R319). -/
def State.pmuOcc (s : State) (src pos : Nat) : State :=
  (List.range 64).foldl (fun s i =>
    let w := s.rd (offPmuLine i)
    if bit 31 w && fld 7 0 w == src && (16 ≤ fld 20 16 w || fld 20 16 w == pos) then s.pmuLine i else s) s

end Sys2Proof.Machine
end

