-- ==== Sys2Proof/Machine/Positions.lean ====
section
/-! DEFINITION. Islands, map-outs and bed positions: which island serves a register, which bed serves a position and
which lanes a bed window reaches (R19, R43, R47, R56, R65, R460). -/

namespace Sys2Proof.Machine

/-! ## Islands -/

/-- The index of an island in the state's table. -/
def islIx : Island → Nat
  | .host => 0
  | .line => 1
  | .bed b => 2 + b.val
  | .silt k => 19 + k.val

/-- The state of an island by its index. -/
def State.islAt (s : State) (i : Nat) : IslandSt := sget (fun _ => .off) s.pwr.isl i

/-- The state of an island (R67). -/
def State.isl (s : State) (i : Island) : IslandSt := s.islAt (islIx i)

/-- An island or sub-island whose clock has been started. -/
def IslandSt.lit (st : IslandSt) : Bool := st == .held || st == .sync || st == .on

/-- The domain with this index of R61 has a running clock: CK_WAKE always, the others while the PLL is locked and the
clock of their island, or of one of their sub-islands, has been started (R61, R65). -/
def State.clkRuns (s : State) (d : Nat) : Bool :=
  if d = 24 then true
  else s.pwr.pllLocked && (
    if d < 17 then (s.islAt (2 + d)).lit
    else if d = 19 then (List.range 8).any fun k => (s.islAt (19 + k)).lit
    else if d = 20 || d = 23 then (s.islAt 0).lit
    else if d < 24 then (s.islAt 1).lit
    else false)

/-- The clock that the monitor's open window counts runs (R75). -/
def State.monSees (s : State) : Bool := match s.pwr.monRun with | some d => s.clkRuns d | none => false

/-- The clock monitor's window notes that its domain runs (R75). -/
def State.monSee (s : State) : State := { s with pwr := { s.pwr with monRan := s.pwr.monRan || s.monSees } }

/-- An island goes to a state. -/
def State.setIslAt (s : State) (i : Nat) (v : IslandSt) : State :=
  ({ s with pwr := { s.pwr with isl := sset (fun _ => .off) s.pwr.isl i v } }).monSee

/-- The line island is ON. -/
def State.lineOn (s : State) : Bool := s.islAt 1 == .on

/-- The host island is ON. -/
def State.hostOn (s : State) : Bool := s.islAt 0 == .on

/-- Bed sub-island b is ON. -/
def State.bedOn (s : State) (b : Nat) : Bool := s.islAt (2 + b) == .on

/-- Silt sub-island k is ON. -/
def State.siltOn (s : State) (k : Nat) : Bool := s.islAt (19 + k) == .on

/-! ## Options (R53 to R56, R59) -/

/-- HARDPAN is present. -/
def State.hasHardpan (s : State) : Bool := s.pwr.options.getLsbD 0
/-- PAIRED_TIME is present. -/
def State.hasPaired (s : State) : Bool := s.pwr.options.getLsbD 1
/-- FALLOW_BED is present. -/
def State.hasFallow (s : State) : Bool := s.pwr.options.getLsbD 2
/-- PAYLOAD_MATCHER is present. -/
def State.hasMatcher (s : State) : Bool := s.pwr.options.getLsbD 3
/-- SAFETY_PACK is present. -/
def State.hasSafety (s : State) : Bool := s.pwr.options.getLsbD 4
/-- Silt link k is built (R55). -/
def State.hasLink (s : State) (k : Nat) : Bool := s.hasHardpan && s.pwr.links.getLsbD k

/-- An event of the SAFETY_PACK, which never asserts where that is absent (R54). -/
def State.safeEvt (s : State) (i : Nat) : State := if s.hasSafety then s.raiseEvt offSafeEvt i else s

/-- Counter i of the SAFETY_PACK adds n (R54). -/
def State.safeInc (s : State) (i n : Nat) : State := if s.hasSafety then s.addCnt (offSafeCnt i) n offSafeEvt 9 else s

/-! ## Map-outs (R458, R460, R461) -/

/-- The largest index of each kind of map-out (R458). -/
def mapMax (kind : Nat) : Nat :=
  match kind with
  | 1 => 16
  | 2 => 84
  | 3 => 63
  | 4 => 271
  | 5 => 25
  | _ => 0

/-- The (kind, index) an entry of the ledger maps out: none for an empty or BAD entry (R458). -/
def ledgerMap (w : Word) : Option (Nat × Nat) :=
  let k := fld 31 28 w
  let i := fld 27 16 w
  if 1 ≤ k ∧ k ≤ 5 ∧ i ≤ mapMax k ∧ fld 15 0 w = 65535 - fld 31 16 w then some (k, i) else none

/-- The (kind, index) a MAP.RT entry maps out (R460): laid out as a ledger entry; one with a wrong CHECK is ignored. -/
def rtMap (w : Word) : Option (Nat × Nat) := ledgerMap w

/-- The map-outs of the ledger and of MAP.RT together, as R461 applies them. -/
def State.allMaps (s : State) : List (Nat × Nat) :=
  (s.pwr.ledger.filterMap fun e => ledgerMap e.2) ++
    ((List.range 64).filterMap fun i => rtMap (s.rd (offMapRt i)))

/-- A unit is mapped out: by the map-outs applied at the last line-island release or by MAP.RT (R460). -/
def State.mapped (s : State) (kind i : Nat) : Bool :=
  s.pwr.applied.contains (kind, i) ||
    ((List.range 64).any fun n => rtMap (s.rd (offMapRt n)) == some (kind, i))

/-! ## Bed positions (R19, R47) -/

/-- SWAP.STATUS.STATE (R447): 0 IDLE, 1 WARM, 2 RESEED, 3 FRESEED, 4 SHADOW, 5 TAKEOVER, 6 SERVING, 7 ABORTED. -/
def State.swapState (s : State) : Nat := s.rdf offSwapStatus 31 28

/-- The position BED16 serves or is taking. -/
def State.swapPos (s : State) : Nat := s.rdf offSwapStatus 27 24

/-- BED16 alone serves its position: SERVING, or handing it back with the take-over still to come (R19, R447). -/
def State.swapHolds (s : State) : Bool :=
  s.swapState == 6 || (s.harm.returning && (s.swapState == 2 || s.swapState == 4))

/-- BED16 serves some position: it does alone, or in TAKEOVER (R19). -/
def State.swapServes (s : State) : Bool := s.swapHolds || s.swapState == 5

/-- BED16 serves position p (R19). -/
def State.fallowServes (s : State) (p : Nat) : Bool := s.swapServes && s.swapPos == p

/-- Bed b (0 to 15) serves its position: it is not mapped out, and BED16 does not serve it alone (R19). -/
def State.homeServes (s : State) (b : Nat) : Bool := !s.mapped 1 b && !(s.swapHolds && s.swapPos == b)

/-- The bed that serves a position; in TAKEOVER, where both serve, the position's own bed (assumption 9). -/
def State.bedOf (s : State) (p : Nat) : Option Nat :=
  if s.homeServes p then some p else if s.fallowServes p then some 16 else none

/-- Bed b serves some bed position. -/
def State.servesAny (s : State) (b : Nat) : Bool :=
  if b = 16 then s.swapServes else s.homeServes b

/-- The position a bed window stands for: bed b's own, and for BED16 the one its swap names while it serves one. -/
def State.posOf (s : State) (b : Nat) : Option Nat :=
  if b < 16 then (if s.homeServes b then some b else none)
  else if s.swapServes then some s.swapPos else none

/-- A bed is fenced (R442). -/
def State.bedFenced (s : State) (b : Nat) : Bool := s.rdb offFenceBed b

/-- A bed can carry traffic: its sub-island is ON, its generation has matched and no fence is on it (R19). -/
def State.bedUsable (s : State) (b : Nat) : Bool := s.bedOn b && !s.bedFenced b && !s.harm.stale.contains b

/-- A position is served usably (R19). -/
def State.posUsable (s : State) (p : Nat) : Bool :=
  match s.bedOf p with | some b => s.bedUsable b | none => false

/-- A network port is fenced (R442). -/
def State.portFenced (s : State) (port : Nat) : Bool := s.rdb (offFencePort (port / 32)) (port % 32)

/-- The first register of lane l of a bed window, none where the window's lane region reaches no lane (R47). In TAKEOVER,
where both beds serve the position, R47 gives the lanes to both windows and takes them from bed b's: the model takes them from
bed b's (DESIGN CHOICE, assumption 9). -/
def State.laneReg (s : State) (b l : Nat) : Option Nat :=
  if 16 ≤ l then none
  else if b < 16 then (if s.homeServes b && !s.fallowServes b then some (offLaneCtl b l) else none)
  else if s.swapServes then some (offLaneCtl s.swapPos l) else none

/-- The first register of the lane that a bed has as its lane l: the registers' own reach, but that in TAKEOVER both beds have
the position's lanes (R449). -/
def State.laneBase (s : State) (b l : Nat) : Option Nat :=
  if s.swapState == 5 && s.swapPos == b && l < 16 then some (offLaneCtl b l) else s.laneReg b l

/-- A tilth engine serves a role (R417): the work of an unserved role stops at its last safe point. -/
def State.roleServed (s : State) (r : Nat) : Bool := s.rdb (offRoleStatus r) 31

/-! ## The island of a register (R43, R65) -/

/-- Which island holds a register. -/
inductive Home where
  | wake | host | line | bed (b : Nat) | silt (k : Nat) | swap
  deriving DecidableEq, Repr

/-- The wake island holds these of the registers that the host window serves: the clock monitor, RST.*, BLK.EVT,
PWR.*, MAP.RT, MEAS and WAKE.* (chapters 03, 05, 12, 18 and 19). CLK.PLL and the DBG.CTL lock bits are treated where
they are reset. -/
def wakeHeld (off : Nat) : Bool :=
  (0x1000 ≤ off && off < 0x1100) || (0x2000 ≤ off && off < 0x3000) || (0x3200 ≤ off && off < 0x330C) ||
  (0x4400 ≤ off && off < 0x4480) || (0x800400 ≤ off && off < 0x801000)

/-- The island that holds the register at an offset; a reserved region answers whatever runs (R44). -/
def homeOf (off : Nat) : Home :=
  if wakeHeld off then .wake
  else if off < 0x100000 then .host
  else if off < 0x200000 then .line
  else if off < 0x380000 then .host
  else if off < 0x480000 then .line
  else if off < 0x488000 then .silt ((off - 0x480000) / 0x1000)
  else if off < 0x800000 then .line
  else if off < 0x1000000 then .host
  else if off < 0x2100000 then
    let b := (off - 0x1000000) / 0x100000
    let r := off % 0x100000
    if 0x10000 ≤ r && r < 0x20000 then .line
    else if b = 16 && r < 0x1000 then .line
    else .bed b
  else .host

end Sys2Proof.Machine
end

