-- ==== Sys2Proof/Machine/Marl.lean ====
section
/-! DEFINITION. The marl copy: what a region holds of a bed, its generation, and how a bed is loaded from it or takes a
position's state over from another bed (chapter 18, R447 to R454). -/

namespace Sys2Proof.Machine

/-! ## A bed's image (R451) -/

/-- The first offset of a bed's window. -/
def bedBase (b : Nat) : Nat := 0x1000000 + 0x100000 * b

/-- The register at an offset r of a bed window is state that a marl region holds: not its control region, a lane (R20),
a statistics counter, another counter or an event status register. -/
def imgReg (r : Nat) : Bool :=
  0x1000 ≤ r && r < 0x100000 && !(0x10000 ≤ r && r < 0x20000) && !(0x80000 ≤ r && r < 0x90000) &&
    match regRow (0x1000000 + r) with
    | some row => !row.cnt && !row.evt
    | none => false

/-- A key of the register file is image state of bed b. -/
def inImage (b k : Nat) : Bool := bedBase b ≤ k % bankSpan && imgReg (k % bankSpan - bedBase b)

/-- What bed b holds now of what its region holds. -/
def State.bedImage (s : State) (b : Nat) : BedImage :=
  { regs := s.regs.filterMap fun e => if inImage b e.1 then some (e.1 - bedBase b, e.2) else none
    rules := s.mesh.rules.filterMap fun e => if e.1 / 65536 = b then some (e.1 % 65536, e.2) else none
    entries := s.gates.entries.filterMap fun e => if e.1 / 32768 = b then some (e.1 % 32768, e.2) else none }

/-- Gate list entries that nothing has written: INTERVAL_NS 0, every gate open (R250). -/
def gateDefault : Nat → Word × Word := fun _ => (0, 0xFF)

/-- Bed b holds an image. -/
def State.loadImage (s : State) (b : Nat) (img : BedImage) : State :=
  let rules := img.rules.foldl (fun m e => sset (fun _ => none) m (65536 * b + e.1) e.2)
    (sdrop (fun k => k / 65536 == b) s.mesh.rules)
  let entries := img.entries.foldl (fun m e => sset gateDefault m (32768 * b + e.1) e.2)
    (sdrop (fun k => k / 32768 == b) s.gates.entries)
  { s with
    regs := img.regs.foldl (fun m e => sset regReset m (bedBase b + e.1) e.2) (sdrop (inImage b) s.regs)
    mesh := { s.mesh with rules := rules }
    gates := { s.gates with entries := entries } }

/-! ## Regions and generations (R451 to R453) -/

/-- The harm and swap state is changed. -/
def State.harmMod (s : State) (f : Harm → Harm) : State := { s with harm := f s.harm }

/-- The bed whose state region p follows: BED16 while it serves position p alone, else bed p. -/
def State.regionBed (s : State) (p : Nat) : Nat := if s.swapHolds && s.swapPos == p then 16 else p

/-- What marl region p holds: what its bed holds while that bed is ON, else what was kept of it. -/
def State.region (s : State) (p : Nat) : BedImage :=
  if s.bedOn (s.regionBed p) then s.bedImage (s.regionBed p)
  else (sget (fun _ => none) s.harm.marl p).getD {}

/-- Region p keeps an image for the time its bed is not ON. -/
def State.keepRegion (s : State) (p : Nat) (img : BedImage) : State :=
  s.harmMod fun h => { h with marl := sset (fun _ => none) h.marl p (some img) }

/-- A region's generation increments (R452). -/
def State.marlBump (s : State) (r : Nat) : State := s.wr (offMarlGen r) (s.rd (offMarlGen r) + 1)

/-- The block-wide line state of region 16 that registers show: Assay units, tiers and admission (R451). -/
def blockImage (off : Nat) : Bool :=
  (0x380000 ≤ off && off < 0x380800) || (0x382000 ≤ off && off < 0x383000) || (0x400000 ≤ off && off < 0x400010) ||
  (0x400108 ≤ off && off < 0x400130) || (0x410000 ≤ off && off < 0x418000) ||
  (0x420000 ≤ off && off < 0x450000 && off % 32 != 0x14 && off % 32 != 0x18)

/-- The region that the state at an offset belongs to. -/
def State.regionOf (s : State) (off : Nat) : Option Nat :=
  if 0x1000000 ≤ off && off < 0x2100000 then
    let b := (off - 0x1000000) / 0x100000
    if b < 16 then (if s.regionBed b == b then some b else none)
    else if s.swapHolds then some s.swapPos else none
  else if blockImage off || off == offReplCmd then some 16
  else none

/-- The write of an offset changed state that a region holds. -/
def State.regionChanged (s t : State) (off r : Nat) : Bool :=
  if r = 16 then s.rd off != t.rd off || s.mesh.groups != t.mesh.groups || s.mesh.members != t.mesh.members
  else s.bedImage ((off - 0x1000000) / 0x100000) != t.bedImage ((off - 0x1000000) / 0x100000)

/-- The bed that takes a position over from bed b in the swap in progress: it follows what is written to bed b (R454). -/
def State.swapMirror (s : State) (b : Nat) : Option Nat :=
  let st := s.swapState
  if !(st == 4 || st == 5) then none
  else if s.harm.returning then (if b == 16 then some s.swapPos else none)
  else if b == s.swapPos then some 16 else none

/-- A write has turned `s` into `t`: it is written through to its region, whose generation increments, and the bed that is
taking the position over picks it up (R452, R454). -/
def State.writeThrough (s t : State) (off : Nat) : State :=
  match s.regionOf off with
  | none => t
  | some r =>
    if !s.regionChanged t off r then t
    else
      let t := t.marlBump r
      if r = 16 then t
      else match s.swapMirror ((off - 0x1000000) / 0x100000) with
        | some dst => t.loadImage dst (t.bedImage ((off - 0x1000000) / 0x100000))
        | none => t

/-- A change that the block has made on its own to state of bed window b: its region's generation increments (R452), and the
bed that is taking the position over picks it up (R454). -/
def State.ownChange (s : State) (b : Nat) : State :=
  match s.regionOf (bedBase b + 0x1000) with
  | some r =>
    let s := s.marlBump r
    match s.swapMirror b with
    | some dst => s.loadImage dst (s.bedImage b)
    | none => s
  | none => s

/-- Both marl copies are bad (R453). -/
def State.marlBad (s : State) : Bool := s.rdb offMarlStatus 0 && s.rdb offMarlStatus 1

/-! ## A position changes beds (R447, R449) -/

/-- Entries with one key take another key in place of what was there. -/
def rekey {V : Type} (src dst : Nat → Bool) (at_ : Nat → Nat) (m : List (Nat × V)) : List (Nat × V) :=
  (m.filter fun e => src e.1).foldl (fun m e => sput (at_ e.1) e.2 m) (sdrop (fun k => src k || dst k) m)

/-- The key of a timer that belongs to a port of a bed window. -/
def Timer.rePort (a b : Nat) (t : Timer) : Timer :=
  let k := fun (x : Nat) => if x = a then b else x
  match t with
  | .portStage x => .portStage (k x)
  | .reformLimit x => .reformLimit (k x)
  | .gap x => .gap (k x)
  | .faultHold x => .faultHold (k x)
  | .dormantWake x => .dormantWake (k x)
  | .pauseLeft x i => .pauseLeft (k x) i
  | .wdRun x i => .wdRun (k x) i
  | .wdHold x i => .wdHold (k x) i
  | .pauseRefresh x i => .pauseRefresh (k x) i
  | .mmVerify x => .mmVerify (k x)
  | t => t

/-- The offset of a bed window belongs to local port p: its bring-up, MAC, scheduler, gates, statistics or timestamps. -/
def portReg (p r : Nat) : Bool :=
  (0x1000 ≤ r && r < 0x1400 && (r - 0x1000) / 0x40 == p) || (0x20000 ≤ r && r < 0x30000 && (r - 0x20000) / 0x1000 == p) ||
  (0x60000 ≤ r && r < 0x61000 && (r - 0x60000) / 0x100 == p) || (0x70000 ≤ r && r < 0x70800 && (r - 0x70000) / 0x80 == p) ||
  (0x80000 ≤ r && r < 0x88000 && (r - 0x80000) / 0x800 == p) || (0x90000 ≤ r && r < 0x91000 && (r - 0x90000) / 0x100 == p)

/-- The registers of port p go to the values that bed a's have, `stats` with its statistics counters. -/
def State.copyPortRegs (s : State) (a b p : Nat) (stats : Bool) : State :=
  let mine := fun (w k : Nat) => k < bankSpan && decide (bedBase w ≤ k) && portReg p (k - bedBase w) &&
    (stats || !(0x80000 ≤ k - bedBase w && k - bedBase w < 0x88000))
  let regs := (s.regs.filter fun e => mine a e.1).foldl (fun m e => sset regReset m (bedBase b + (e.1 - bedBase a)) e.2)
    (sdrop (mine b) s.regs)
  { s with regs := regs }

/-- The entry of key x takes the key y. -/
def rekeyAt {V : Type} (x y : Nat) (m : List (Nat × V)) : List (Nat × V) := rekey (· == x) (· == y) (fun _ => y) m

/-- Port p of a position goes from bed a to bed b with what its bed holds of it (R449). -/
def State.carryPort (s : State) (a b p : Nat) (stats : Bool) : State :=
  let x := 16 * a + p
  let y := 16 * b + p
  let s := s.copyPortRegs a b p stats
  let s := { s with
    timers := s.timers.map fun (e : Timer × Nat) => (e.1.rePort x y, e.2)
    shadow := rekey (fun k => decide (offSchedPortRate a p ≤ k) && decide (k < offSchedPortRate a p + 0x100))
      (fun k => decide (offSchedPortRate b p ≤ k) && decide (k < offSchedPortRate b p + 0x100))
      (fun k => offSchedPortRate b p + (k - offSchedPortRate a p)) s.shadow
    ports := rekeyAt x y s.ports
    macs := rekeyAt x y s.macs
    gates := { s.gates with ports := rekeyAt x y s.gates.ports } }
  { s with time := { s.time with tsq := rekeyAt x y s.time.tsq, tseq := rekeyAt x y s.time.tseq } }

/-- SWAP.STATUS.STATE goes to a value. -/
def State.setSwap (s : State) (st : Nat) : State := s.wrf offSwapStatus 31 28 st

/-- A port of the position in a swap has switched. -/
def State.portDone (s : State) (p : Nat) : Bool := s.rdb offSwapStatus p

/-- The beds of the swap in progress: from and to. -/
def State.swapBeds (s : State) : Nat × Nat := if s.harm.returning then (16, s.swapPos) else (s.swapPos, 16)

/-- The bed that carries a port: in TAKEOVER the one it has switched to or the one it has not yet left (R449). -/
def State.bedOfPort (s : State) (port : Nat) : Option Nat :=
  if s.swapState == 5 && s.swapPos == port / 16 then
    some (if s.portDone (port % 16) then s.swapBeds.2 else s.swapBeds.1)
  else s.bedOf (port / 16)

/-- The swap ends with the position served by its new bed: SERVING, or IDLE after a return (R447). -/
def State.swapDone (s : State) : State :=
  if s.harm.returning then
    ((s.setSwap 0).harmMod fun h => { h with returning := false, matched := 0 }).safeEvt 4
  else
    let s := (s.setSwap 6).harmMod fun h => { h with matched := 0 }
    (s.safeInc 5 1).safeEvt 4

/-- A swap ends without a takeover: ABORTED, and on to WARM, with its cause (R447); one that was handing the position back
goes on in SERVING. -/
def State.swapAbort (s : State) (cause : Nat) : State :=
  let s := (s.setSwap (if s.harm.returning then 6 else 1)).harmMod fun h => { h with returning := false, matched := 0 }
  (s.wrf offSwapStatus 21 20 cause).safeEvt 5

/-- BED16 and the bed it shadows differ in a frame or a gate state: a further reseed, or at the fourth the end of the swap
(R447, R448). -/
def State.shadowMiss (s : State) : State :=
  let n := s.rdf offSwapStatus 23 22
  if s.swapState ≠ 4 then s
  else if n = 3 then s.swapAbort 2
  else ((s.setSwap 2).wrf offSwapStatus 23 22 (n + 1)).harmMod fun h => { h with matched := 0 }

/-- A swap for position p begins in a state: RESEED, or FRESEED with EVT_SWAP_START (R447). -/
def State.swapBegin (s : State) (p st : Nat) : State :=
  let s := s.wr offSwapStatus (setFld 31 28 st (setFld 27 24 p (s.rd offSwapStatus &&& 0x00380000)))
  let s := s.harmMod fun h => { h with matched := 0, returning := false }
  if st = 3 then s.safeEvt 3 else s

end Sys2Proof.Machine
end

