-- ==== Sys2Proof/Machine/Access.lean ====
section
/-! DEFINITION. Which registers an access reaches (R43 to R45, R54 to R56, R65, R476) and the shared form of a command
that is a write of one register. -/

namespace Sys2Proof.Machine

/-- The island that serves an offset answers: the host side carries the access, and the island that holds the register
is ON. An access to a line-side register whose island is not ON ends with an error response (R45, R476). -/
def State.reach (s : State) (off : Nat) : Bool :=
  s.hostOn && match homeOf off with
    | .wake | .host => true
    | .line | .swap => s.lineOn
    | .bed b => s.lineOn && s.bedOn b
    | .silt k => s.lineOn && s.siltOn k

/-- The register is not part of an absent feature (R54 to R56). -/
def State.present (s : State) (off : Nat) : Bool :=
  if off < 0x180000 then true
  else if off < 0x200000 then s.hasPaired
  else if off < 0x480000 then true
  else if off < 0x488000 then s.hasLink ((off - 0x480000) / 0x1000)
  else if off < 0x490000 then s.hasHardpan
  else if off < 0x4D0000 then s.hasLink ((off - 0x490000) / 0x8000)
  else if off < 0x500000 then s.hasHardpan
  else if off < 0x700000 then true
  else if off < 0x740000 then s.hasSafety
  else if off < 0x1000000 then true
  else if off < 0x2100000 then
    (off < 0x2000000 || s.hasFallow) &&
      (s.hasMatcher || off % 0x100000 < 0x48000 || 0x50000 ≤ off % 0x100000)
  else true

/-- The slave response that ends an access. -/
def State.answer (s : State) (error : Bool) (data : Word) : State := s.emit (.busResponse error data)

/-- How an access to an aligned word ends before its register has a part in it: none reaches a host island that is not ON
(R66, R480), an absent feature's window answers with no error and no effect (R54, R56), and a register whose island is not
ON answers with an error (R45, R476). -/
inductive Door where
  | shut | absent | down | through
  deriving DecidableEq, Repr

/-- How an access to an offset ends. -/
def State.door (s : State) (off : Nat) : Door :=
  if !s.hostOn then .shut else if !s.present off then .absent else if !s.reach off then .down else .through

/-- A write through CFG that has the effect f on the register's unit; one that goes through completes and is written through
to the marl copy. -/
def State.cfg (s : State) (off : Nat) (f : State → State) : State :=
  match s.door off with
  | .shut => s
  | .absent => s.answer false 0
  | .down => s.answer true 0
  | .through => (s.writeThrough (f s) off).answer false 0

/-! ## The lifecycle write map (R463, R474, R475) -/

/-- The lifecycle state that the fuses decode to: 0 BLANK, 1 SECURED, 2 RETURNED (R463). -/
def lifecycleOf (t : BitVec 3) : Nat := if t = 0 then 0 else if t = 1 then 1 else 2

/-- The lifecycle state. -/
def State.lifecycle (s : State) : Nat := lifecycleOf s.pwr.life

/-- The debug level of a path: the port's or the host's (R467). -/
def State.dbgLevel (s : State) (port : Bool) : Nat := if port then s.sec.port.level else s.sec.host.level

/-- The groups of LK fields (R474). -/
inductive LkGroup where
  | load | ledger | keys | life | time | exportF | exportM
  deriving DecidableEq, Repr

/-- The write map permits a group to a path. -/
def State.lkOk (s : State) (port : Bool) (g : LkGroup) : Bool :=
  match s.lifecycle, g with
  | 0, _ => true
  | 1, .time | 1, .exportM => 2 ≤ s.dbgLevel port
  | 1, _ => true
  | _, .ledger | _, .keys | _, .life => false
  | _, _ => true

/-- A write that the map refuses: counted once, recorded, reported (R475). -/
def State.wmapRefuse (s : State) (port : Bool) (off : Nat) : State :=
  ((s.inc offCntWmapRefused offSecEvt 5).wr offWmapLast (w32 (b2n port * 2 ^ 31 + off % 2 ^ 26))).raiseEvt offSecEvt 0

/-- A write that would act on a field of a group acts only where the map permits it. -/
def State.lk (s : State) (port : Bool) (off : Nat) (g : LkGroup) (f : State → State) : State :=
  if s.lkOk port g then f s else s.wmapRefuse port off

end Sys2Proof.Machine
end

