-- ==== Sys2Proof/Machine/Ports.lean ====
section
/-! DEFINITION. Port forms, lanes and their equalization (chapter 04, R77 to R85, R99). A port is named by its bed
window b and local index p; its key in the state's tables is 16 b + p. -/

namespace Sys2Proof.Machine

/-! ## Forms (R77) -/

/-- The lanes of a form. -/
def formLanes (f : Nat) : Nat :=
  if f = 0 then 0 else if f ≤ 5 then 1 else if f = 6 then 2 else if f = 7 then 4 else if f = 8 then 8 else 0

/-- The MAC rate of a form in Mbit/s. -/
def formRate (f : Nat) : Nat :=
  match f with
  | 1 => 10000 | 2 => 25000 | 3 => 50000 | 4 => 100000 | 5 => 200000
  | 6 => 400000 | 7 => 800000 | 8 => 1600000 | _ => 0

/-- The FEC values a form allows, as written to PORT.FORM.FEC: 0 is the form's default (R77, R79). -/
def fecAllowed (f fec : Nat) : Bool :=
  match f with
  | 0 => fec ≤ 4
  | 1 => fec == 0 || fec == 1 || fec == 2
  | 2 => fec == 0 || fec == 3 || fec == 2 || fec == 1
  | _ => f ≤ 8 && (fec == 0 || fec == 4)

/-- The FEC a form runs with: the value written, or the form's default for 0 (R77). -/
def fecRun (f fec : Nat) : Nat := if fec = 0 then (if f = 1 then 1 else if f = 2 then 3 else 4) else fec

/-- The local lanes of a form started at a local index. -/
def spanLanes (first f : Nat) : List Nat := (List.range (formLanes f)).map (· + first)

/-- Configured FORM and FEC of a port. -/
def State.pForm (s : State) (b p : Nat) : Nat := s.rdf (offPortForm b p) 3 0
/-- Configured FEC of a port. -/
def State.pFec (s : State) (b p : Nat) : Nat := s.rdf (offPortForm b p) 7 4

/-- A FORM and FEC that R79 accepts at a port: a known form, an allowed FEC, an aligned start, no overlap with another
enabled port of the bed. -/
def State.formOk (s : State) (b p f fec : Nat) : Bool :=
  fecAllowed f fec && (f = 0 || (
    p % formLanes f == 0 &&
    (List.range 16).all fun q => q == p || s.pForm b q == 0 ||
      p + formLanes f ≤ q || q + formLanes (s.pForm b q) ≤ p))

/-! ## Status fields (R86) -/

/-- PORT.STATUS.STATE: 0 DISABLED, 1 DETECT, 2 TRAIN, 3 LOCK, 4 EXCHANGE, 5 ACTIVE, 6 GAP, 7 FAILED, 8 REFORM,
9 DORMANT, 10 WAKE. -/
def State.pState (s : State) (b p : Nat) : Nat := s.rdf (offPortStatus b p) 31 28

/-- A port is ACTIVE. -/
def State.pActive (s : State) (b p : Nat) : Bool := s.pState b p == 5

/-- A field of PORT.STATUS is set. -/
def State.pStat (s : State) (b p hi lo n : Nat) : State := s.wrf (offPortStatus b p) hi lo n

/-- A MAC's state beside its registers, by its key: 16 b + p, or 272 for the management port. -/
def State.mac (s : State) (m : Nat) : MacSt := sget (fun _ => {}) s.macs m

/-- A MAC's state beside its registers is changed. -/
def State.macMod (s : State) (m : Nat) (f : MacSt → MacSt) : State :=
  { s with macs := smod (fun _ => {}) s.macs m f }

/-- The merge state goes to DISABLED: preemption is inactive at the next frame boundary, at once where no frame is cut
(R120). -/
def State.mmDisable (s : State) (b p : Nat) : State :=
  let s := (s.wrf (offMacMmStatus b p) 31 29 0 |>.wrf (offMacMmStatus b p) 19 16 0).stopTimer (.mmVerify (16 * b + p))
  if (s.mac (16 * b + p)).openTx.isSome then s.macMod (16 * b + p) fun x => { x with mmEnding := true }
  else s.wrb (offMacMmStatus b p) 28 false

/-- The cut frame of a MAC is over: preemption that was to end at its boundary ends (R106, R120). -/
def State.openEnd (s : State) (b p : Nat) : State :=
  let s := if (s.mac (16 * b + p)).mmEnding then s.wrb (offMacMmStatus b p) 28 false else s
  s.macMod (16 * b + p) fun x => { x with openTx := none, mmEnding := false }

/-- A frame that has left in part, some bytes of it, is not transmitted to its end (R93, R125). -/
def State.cutCount (s : State) (b p sent : Nat) : State := ((s.stat b p 33 sent).stat b p 35 1).stat b p 53 1

/-- The port signals no pause to its partner any more and resends none (R116). -/
def State.unsignal (s : State) (b p : Nat) : State :=
  let m := 16 * b + p
  (List.range 8).foldl (fun s c => s.stopTimer (.pauseRefresh m c)) (s.macMod m fun x => { x with signalled := 0 })

/-- A port goes to a state, no lane having completed its stage; leaving ACTIVE ends its merge state (R120). -/
def State.pGo (s : State) (b p st : Nat) : State :=
  let s := if s.pActive b p && st != 5 then s.mmDisable b p else s
  (s.pStat b p 31 28 st).pStat b p 23 16 0

/-- A port's state beside its registers. -/
def State.port (s : State) (b p : Nat) : PortSt := sget (fun _ => {}) s.ports (16 * b + p)

/-- A port's state beside its registers is changed. -/
def State.portMod (s : State) (b p : Nat) (f : PortSt → PortSt) : State :=
  { s with ports := smod (fun _ => {}) s.ports (16 * b + p) f }

/-- The form a port brings up or runs: SPAN_FORM, or while it re-forms the fallback form chosen (R86, R89). -/
def State.runForm (s : State) (b p : Nat) : Nat :=
  if s.pState b p = 8 then (s.port b p).formChosen else s.rdf (offPortStatus b p) 3 0

/-- The first lane of the span a port brings up or runs. -/
def State.runFirst (s : State) (b p : Nat) : Nat :=
  if s.pState b p = 8 then (s.port b p).spanChosen else s.rdf (offPortStatus b p) 7 4

/-- The local lanes of the span a port brings up or runs. -/
def State.runLanes (s : State) (b p : Nat) : List Nat := spanLanes (s.runFirst b p) (s.runForm b p)

/-- The local lanes of the span a port left DISABLED with: a fallen-back port runs on a part of it (R90). -/
def State.fullLanes (s : State) (b p : Nat) : List Nat :=
  if s.pState b p = 0 then [] else spanLanes p (s.port b p).form

/-- The FEC that a port runs: the one it left DISABLED with where the form it runs allows that, else the form's default. -/
def State.runFec (s : State) (b p : Nat) : Nat :=
  let f := s.runForm b p
  let fec := (s.port b p).fec
  if fecAllowed f fec then fecRun f fec else fecRun f 0

/-! ## Lanes -/

/-- A lane's state beside its registers, by its first register. -/
def State.lane (s : State) (base : Nat) : LaneSt := sget (fun _ => {}) s.lanes base

/-- A lane's state beside its registers is changed. -/
def State.laneMod (s : State) (base : Nat) (f : LaneSt → LaneSt) : State :=
  { s with lanes := smod (fun _ => {}) s.lanes base f }

/-- Registers of a lane, from its first register: STATUS, BOARD_EQ, BOARD_FIR0, EQ_NOW, EVT. -/
def lnStatus (base : Nat) : Nat := base + 0x4
def lnBoardEq (base : Nat) : Nat := base + 0x10
def lnBoardFir (base i : Nat) : Nat := base + 0x14 + 4 * i
def lnEqNow (base : Nat) : Nat := base + 0x20
def lnFirNow (base i : Nat) : Nat := base + 0x24 + 4 * i
def lnEvt (base : Nat) : Nat := base + 0x40

/-- LANE.CTL.MODE is OFF: 2, or 3 acting as 2. -/
def State.laneOff (s : State) (base : Nat) : Bool := 2 ≤ s.rdf base 1 0

/-- A lane holds PMA lock. -/
def State.laneLocked (s : State) (base : Nat) : Bool := s.rdb (lnStatus base) 2

/-- A lane is powered. -/
def State.laneOn (s : State) (base : Nat) : Bool := s.rdb (lnStatus base) 0

/-- A lane is Dormant: by its port, or with every network lane in FALLOW (R65, R94). -/
def State.laneAsleep (s : State) (base : Nat) : Bool := s.pwr.fallow || s.rdb (lnStatus base) 6

/-- A lane loses lock: its lock bits clear. -/
def State.laneUnlock (s : State) (base : Nat) : State := s.wrf (lnStatus base) 4 1 0

/-- A lane holds bit, symbol or block and FEC alignment. -/
def State.laneLockAll (s : State) (base : Nat) : State := s.wrf (lnStatus base) 4 1 0xF

/-- A lane has no equalizer setting for its port's bring-up any more. -/
def State.laneUntrain (s : State) (base : Nat) : State := s.laneMod base fun l => { l with trained := false }

/-- A lane macro is powered (unless its MODE is OFF) or powered off; powered off it holds no lock (R78, R497). -/
def State.lanePower (s : State) (base : Nat) (on : Bool) : State :=
  if on && !s.laneOff base then (s.wrb (lnStatus base) 0 true).wrb (lnStatus base) 6 false
  else (((s.wrb (lnStatus base) 0 false).wrb (lnStatus base) 6 false).laneUnlock base).laneUntrain base

/-- A powered lane goes Dormant: CDR, PLL and adaptation off, transmitter idle (R94). -/
def State.laneDormant (s : State) (base : Nat) : State :=
  if s.laneOn base then ((s.wrb (lnStatus base) 6 true).laneUnlock base).laneUntrain base else s

/-- A lane discards its stored coefficients (R85). -/
def State.laneForget (s : State) (base : Nat) : State :=
  (s.wrb (lnStatus base) 5 false).laneMod base fun l => { l with coef := none }

/-- A lane stores the values it runs with as its coefficients (R85). -/
def State.laneStore (s : State) (base : Nat) : State :=
  let eq := s.rd (lnEqNow base)
  (s.wrb (lnStatus base) 5 true).laneMod base fun l =>
    { l with coef := some (fld 28 24 eq, w32 (fld 19 0 eq), s.rd (lnFirNow base 0), s.rd (lnFirNow base 1)) }

/-- An operation on every lane of a list of local lanes of a bed window that reaches lanes. -/
def State.onLanes (s : State) (b : Nat) (ls : List Nat) (f : State → Nat → State) : State :=
  ls.foldl (fun s l => match s.laneBase b l with | some base => f s base | none => s) s

/-- A test holds on every lane of a list, and the window reaches them all. -/
def State.allLanes (s : State) (b : Nat) (ls : List Nat) (f : Nat → Bool) : Bool :=
  ls.all fun l => match s.laneBase b l with | some base => f base | none => false

/-- The number of a lane from its first register: bed lanes, then the silt lanes from 1,024 on. -/
def laneNo (base : Nat) : Nat :=
  if base < 0x1000000 then 1024 + (base - 0x490000) / 0x1000
  else (base - 0x1000000) / 0x100000 * 16 + base % 0x100000 / 0x1000 % 16

/-! ## Board tables and training (R83, R84) -/

/-- A signed byte. -/
def sbyte (n : Nat) : Int := if n < 128 then n else (n : Int) - 256

/-- The six taps of a FIR word pair: C_M3, C_M2, C_M1, C0, C_P1, C_P2. -/
def firTaps (f0 f1 : Word) : List Int :=
  [sbyte (fld 7 0 f0), sbyte (fld 15 8 f0), sbyte (fld 23 16 f0), sbyte (fld 7 0 f1), sbyte (fld 15 8 f1), sbyte (fld 23 16 f1)]

/-- The FIR word pair of six taps. -/
def firWords (t : List Int) : Word × Word :=
  let b := fun i => (t.getD i 0 % 256).toNat
  (w32 (b 2 * 65536 + b 1 * 256 + b 0), w32 (b 5 * 65536 + b 4 * 256 + b 3))

/-- A FIR preset is valid: C0 positive and the taps' magnitudes at most 63 together (R83). -/
def firValid (t : List Int) : Bool := 0 < t.getD 3 0 && (t.map Int.natAbs).sum ≤ 63

/-- The preset a lane uses: its board preset, or C0 = 63 alone while that is invalid (R83). -/
def State.lanePreset (s : State) (base : Nat) : List Int :=
  let t := firTaps (s.rd (lnBoardFir base 0)) (s.rd (lnBoardFir base 1))
  if firValid t then t else [0, 0, 0, 63, 0, 0]

/-- An integer held to a range. -/
def iclamp (lo hi n : Int) : Int := max lo (min hi n)

/-- The taps the transmitter honours of those asked for: each is held within FIR_ADAPT of the preset, and they go in only while
the sum rule of R83 holds (R84). Where all of them together break that rule, which of them are honoured is left open: the
model takes them one by one from the preset, in the order C_M3 to C_P2, each where the rule holds with it (DESIGN CHOICE,
assumption 73). -/
def firGrant (preset ask : List Int) (bound : Int) : List Int :=
  let near := (List.range 6).map fun i =>
    iclamp (preset.getD i 0 - bound) (preset.getD i 0 + bound) (ask.getD i (preset.getD i 0))
  if firValid near then near
  else (List.range 6).foldl (fun t i => let t' := t.set i (near.getD i 0); if firValid t' then t' else t) preset

/-- By tap, the request is answered "at limit": the transmitter does not honour it (R84). -/
def firAtLimit (preset ask : List Int) (bound : Int) : List Bool :=
  (List.range 6).map fun i => (firGrant preset ask bound).getD i 0 != ask.getD i (preset.getD i 0)

/-- One lane's training ends within the bounds of R84; the partner's requests are answered. -/
def State.laneTrain (s : State) (base : Nat) (a : EqAsk) : State :=
  let eq := s.rd (lnBoardEq base)
  let board : Int := fld 20 16 eq
  let ca : Int := min 3 (fld 10 8 eq)
  let ctle := iclamp 0 31 (iclamp (board - ca) (board + ca) a.ctle)
  let dfe := (List.range 4).map fun i => iclamp (-15) 15 (a.dfe.getD i 0)
  let askedDfe := (List.range 4).map fun i => a.dfe.getD i 0
  let taps := firGrant (s.lanePreset base) a.fir (min 4 (fld 3 0 eq))
  let atLimit := firAtLimit (s.lanePreset base) a.fir (min 4 (fld 3 0 eq))
  let met := atLimit.any id || ctle != a.ctle || dfe != askedDfe
  let d := fun i => (dfe.getD i 0 % 32).toNat
  let now := (if met then 2 ^ 31 else 0) + ctle.toNat * 2 ^ 24 + d 3 * 32768 + d 2 * 1024 + d 1 * 32 + d 0
  let s := (s.wr (lnEqNow base) (w32 now)).wr (lnFirNow base 0) (firWords taps).1
  let s := (s.wr (lnFirNow base 1) (firWords taps).2).laneMod base fun l => { l with trained := true }
  let s := s.emit (.coefAnswer (laneNo base) atLimit)
  if met then s.raiseEvt (lnEvt base) 2 else s

/-- A lane runs with a CTLE value, DFE trims and FIR words; AT_LIMIT stays as the last training left it. -/
def State.laneLoad (s : State) (base ctle : Nat) (dfe f0 f1 : Word) : State :=
  let s := s.wr (lnEqNow base) ((s.rd (lnEqNow base) &&& 0x80000000) ||| w32 (ctle * 2 ^ 24) ||| (dfe &&& 0xFFFFF))
  ((s.wr (lnFirNow base 0) f0).wr (lnFirNow base 1) f1).laneMod base fun l => { l with trained := true }

/-- A lane runs its board table (R86, R88, R498). -/
def State.laneUseBoard (s : State) (base : Nat) : State :=
  let w := firWords (s.lanePreset base)
  s.laneLoad base (s.rdf (lnBoardEq base) 20 16) 0 w.1 w.2

/-- A lane runs its stored coefficients, or its board table where it holds none (R90, R94, R95). -/
def State.laneUseStored (s : State) (base : Nat) : State :=
  match (s.lane base).coef with
  | some (ctle, dfe, f0, f1) => s.laneLoad base ctle dfe f0 f1
  | none => s.laneUseBoard base

/-- A timeout field in ms: 0 acts as 1 (R98). -/
def State.tmo (s : State) (off hi lo : Nat) : Nat := ms (max 1 (s.rdf off hi lo))

/-! ## FEC counters (R80, R99) -/

/-- Codewords received by a port since its last frame: corrected and uncorrectable ones count in its span's first lane, the
corrected symbols on each lane. A form without FEC has none. -/
def State.laneFec (s : State) (b p corr uncorr : Nat) (sym : List Nat) : State :=
  let first := s.runFirst b p
  let s := s.onLanes b [first] fun s base =>
    let s := (s.addCnt (base + 0xC0) corr (lnEvt base) 6).addCnt (base + 0xC8) uncorr (lnEvt base) 6
    if uncorr = 0 then s else s.raiseEvt (lnEvt base) 5
  ((s.runLanes b p).zip sym).foldl (fun s e => s.onLanes b [e.1] fun s base => s.addCnt (base + 0xD0) e.2 (lnEvt base) 6) s

end Sys2Proof.Machine
end

