-- ==== Sys2Proof/Machine/Macs.lean ====
section
/-! DEFINITION. MAC control: flow control and its watchdog, the merge sublayer, statistics snapshots, the management
port's half-duplex and MDIO sides and the wake detector (chapter 05, R106 to R133). A MAC's key is 16 b + p for local
port p of bed window b, and 272 for the management port. -/

namespace Sys2Proof.Machine

/-! ## Both kinds of MAC -/

/-- The key of the management port's MAC. -/
def mgmtMac : Nat := 272

/-- The key of a MAC. -/
def macKey : MacId → Nat
  | .net b p => 16 * b.val + p.val
  | .mgmt => mgmtMac

/-- The key of local port p's MAC in a bed window; without one, of the management port's MAC. -/
def macAt (bed : Option BedIx) (p : LocalIx) : Nat :=
  match bed with | some b => 16 * b.val + p.val | none => mgmtMac

/-- A statistics counter of a MAC adds n (R125). -/
def State.mst (s : State) (m i n : Nat) : State := if m = mgmtMac then s.mgmtStat i n else s.stat (m / 16) (m % 16) i n

/-- The bed position a bed window's drops are counted under: the one it serves, else its own number. -/
def State.posN (s : State) (b : Nat) : Nat := (s.posOf b).getD b

/-- The port number a MAC carries. -/
def State.portNo (s : State) (m : Nat) : Nat := if m = mgmtMac then 258 else 16 * s.posN (m / 16) + m % 16

/-- The MAC of a port number: in the bed that carries it (R4, R449). -/
def State.macOf (s : State) (port : Nat) : Option Nat :=
  if port = 258 then some mgmtMac
  else if port < 256 then (s.bedOfPort port).map fun b => 16 * b + port % 16
  else none

/-- A bed's MAC receives from its lanes: the bed carries the port and the lane ring delivers to it (R19, R442). -/
def State.macHears (s : State) (b p : Nat) : Bool := s.macOf (s.portNo (16 * b + p)) == some (16 * b + p) && s.bedUsable b

/-- MGMT.CTL's speed in Mbit/s. -/
def State.mgmtRate (s : State) : Nat :=
  match s.rdf offMgmtCtl 23 22 with | 0 => 10 | 1 => 100 | _ => 1000

/-- Half duplex is in force on the management port (R131). -/
def State.halfDuplex (s : State) : Bool := !s.rdb offMgmtCtl 21 && s.mgmtRate != 1000

/-- The MAC rate of a port's running form, or of the management port, in Mbit/s; at least 1. -/
def State.macRate (s : State) (m : Nat) : Nat :=
  max 1 (if m = mgmtMac then s.mgmtRate else formRate (s.rdf (offPortStatus (m / 16) (m % 16)) 3 0))

/-- MAC.CTL.FC_MODE: 3 acts as 0. -/
def State.fcMode (s : State) (b p : Nat) : Nat :=
  let v := s.rdf (offMacCtl b p) 27 26
  if v = 3 then 0 else v

/-- The flow-control mode of a MAC: the management port has PAUSE with PAUSE_EN in full duplex, and nothing else. -/
def State.macFc (s : State) (m : Nat) : Nat :=
  if m = mgmtMac then (if s.rdb offMgmtCtl 25 && !s.halfDuplex then 1 else 0) else s.fcMode (m / 16) (m % 16)

/-! ## The wire (R81, R103, R256, R257) -/

/-- The present instant in ps of the model's clock. -/
def State.ps (s : State) : Nat := s.now * 160

/-- The gate state is changed. -/
def State.gatesMod (s : State) (f : Gates → Gates) : State := { s with gates := f s.gates }

/-- The gate engine of a port beside its registers. -/
def State.gate (s : State) (b p : Nat) : GateSt := sget (fun _ => {}) s.gates.ports (16 * b + p)

/-- The gate engine of a port is changed. -/
def State.gateMod (s : State) (b p : Nat) (f : GateSt → GateSt) : State :=
  s.gatesMod fun g => { g with ports := smod (fun _ => {}) g.ports (16 * b + p) f }

/-- The wire time of some bytes at a rate in Mbit/s, in 1/1,024 ns, rounded up (R257). -/
def wireTime (bytes rate : Nat) : Nat := (bytes * 8 * 1000 * 1024 + rate - 1) / rate

/-- A time in 1/1,024 ns as units of 2^-32 ns, and as ps rounded up. -/
def tickUnits (t : Nat) : Nat := t * 2 ^ 22
def tickPs (t : Nat) : Nat := (t * 1000 + 1023) / 1024

/-- The transmit latency of R81 in cycles for a form and FEC. -/
def txLatency (form fec : Nat) : Nat :=
  match form, fec with
  | 8, _ => 104 | 7, _ => 102 | 6, _ => 100 | 5, _ => 100 | 4, _ => 170 | 3, _ => 300
  | 2, 3 => 200 | 2, 2 => 120 | 2, _ => 40
  | 1, 2 => 160 | _, _ => 60

/-- The receive latency of R81 in cycles for a form and FEC, from the last bit at the PMA to the last byte at the MAC. -/
def rxLatency (form fec : Nat) : Nat :=
  match form, fec with
  | 8, _ => 160 | 7, _ => 156 | 6, _ => 152 | 5, _ => 150 | 4, _ => 260 | 3, _ => 470
  | 2, 3 => 560 | 2, 2 => 240 | 2, _ => 60
  | 1, 2 => 480 | _, _ => 90

/-- The ps from a MAC's start of a frame to the lane timestamp point, for the port's running form and FEC. -/
def State.latencyPs (s : State) (b p : Nat) : Nat := 640 * txLatency (s.rdf (offPortStatus b p) 3 0) (s.runFec b p)

/-- TX_IPG in force. -/
def State.txIpg (s : State) (b p : Nat) : Nat := max 12 (s.rdf (offMacCtl b p) 21 16)

/-- The actual wire time in ps of some bytes, at the MAC rate. -/
def State.sendPs (s : State) (b p bytes : Nat) : Nat := tickPs (wireTime bytes (s.macRate (16 * b + p)))

/-- The earliest instant in ps at which a frame that starts now is on the wire. -/
def State.txStart (s : State) (b p : Nat) : Nat := max (s.ps + s.latencyPs b p) (s.gate b p).busy

/-- The wire is taken for some bytes, with the gap after them, from an instant in ps. -/
def State.wireTake (s : State) (b p start bytes : Nat) : State :=
  s.gateMod b p fun g => { g with busy := start + s.sendPs b p (bytes + s.txIpg b p) }

/-- A MAC control frame, or a verify or respond frame, goes out at the next frame boundary: 64 bytes with their preamble and
gap, ahead of every class (R116, R256). -/
def State.wireControl (s : State) (b p : Nat) : State := s.wireTake b p (s.txStart b p) 72

/-! ## Received pause (R114 to R118) -/

/-- A priority's pause timer runs. -/
def State.paused (s : State) (m i : Nat) : Bool := s.timerOn (.pauseLeft m i)

/-- The priorities paused on a MAC. -/
def State.pausedAny (s : State) (m : Nat) : Bool := (List.range 8).any fun i => s.paused m i

/-- PAUSE_STAT.PAUSED bit i takes a value; the management port has no such register. -/
def State.pauseBit (s : State) (m i : Nat) (v : Bool) : State :=
  if m = mgmtMac then s else s.wrb (offMacPauseStat (m / 16) (m % 16)) i v

/-- A priority is released: its pause timer and its watchdog run end. -/
def State.pauseEnd (s : State) (m i : Nat) : State :=
  ((s.pauseBit m i false).stopTimer (.pauseLeft m i)).stopTimer (.wdRun m i)

/-- TX_PAUSED_QUANTA takes in the pause that a change f ended: the quanta that passed with some class paused. -/
def State.pauseChange (s : State) (m : Nat) (f : State → State) : State :=
  let s' := f s
  match s.pausedAny m, s'.pausedAny m with
  | false, true => s'.macMod m fun x => { x with pausedSince := some s'.now }
  | true, false =>
    let t := s'.now - ((s'.mac m).pausedSince.getD s'.now)
    (s'.mst m 61 (t * 16 * s'.macRate m / 51200000)).macMod m fun x => { x with pausedSince := none }
  | _, _ => s'

/-- A priority's timer loads quanta; 0 is a release (R114). A run of the watchdog begins with the pause (R117). -/
def State.pauseLoad (s : State) (m i quanta : Nat) : State :=
  if quanta = 0 then s.pauseEnd m i
  else
    let was := s.paused m i
    let s := (s.pauseBit m i true).startTimer (.pauseLeft m i) (quanta * 512000 / s.macRate m)
    if was || m = mgmtMac then s
    else s.startTimer (.wdRun m i) (ms (max 1 (s.rdf (offMacWd (m / 16) (m % 16)) 15 0)))

/-- A priority is in a watchdog hold (R117). -/
def State.wdHolding (s : State) (m i : Nat) : Bool :=
  m != mgmtMac && s.rdb (offMacPauseStat (m / 16) (m % 16)) (16 + i)

/-- A consumed PAUSE or PFC frame acts on priorities, each with its quanta; a frame with a priority in a watchdog hold
counts once in RX_PAUSE_IGNORED (R117). -/
def State.pauseApply (s : State) (m : Nat) (prios : List Nat) (quanta : Nat → Nat) : State :=
  let s' := s.pauseChange m fun s =>
    prios.foldl (fun s i => if s.wdHolding m i then s else s.pauseLoad m i (quanta i)) s
  if prios.any fun i => s.wdHolding m i then s'.mst m 29 1 else s'

/-- What every received MAC control frame counts: its octets, itself, and by its opcode RX_PAUSE or RX_PFC (R502). -/
def State.ctlCount (s : State) (m octets : Nat) (pfc : Bool) : State :=
  ((s.mst m 1 octets).mst m 3 1).mst m (if pfc then 9 else 8) 1

/-- A network MAC discards a received frame under a drop cause of R303 and counts RX_DISCARD. -/
def State.rxDiscard (s : State) (m cause : Nat) : State := (s.dropTel (s.posN (m / 16)) cause).mst m 63 1

/-- A PAUSE or PFC frame of some octets is received on a network port (R107, R114). -/
def State.ctlFrame (s : State) (b p octets : Nat) (pfc : Bool) (prios : List Nat) (quanta : Nat → Nat) : State :=
  let m := 16 * b + p
  if !s.macHears b p || !s.pActive b p then s
  else
    let s := s.ctlCount m octets pfc
    if !s.rdb (offMacCtl b p) 31 then s.rxDiscard m 1
    else if s.fcMode b p = (if pfc then 2 else 1) then s.pauseApply m prios quanta
    else s.rxDiscard m 4

/-- R114: a PFC frame is received: its enable vector and its eight quanta. -/
def execPfcFrameReceive (b : BedIx) (p : LocalIx) (enable : BitVec 8) (quanta : List (BitVec 16)) (s : State) :
    Host.Outcome State Fault Refusal :=
  let on := (List.range 8).filter fun i => enable.getLsbD i && s.rdb (offMacFcMask b p) i
  .next (s.ctlFrame b p 64 true on fun i => (quanta.getD i 0).toNat)

/-- The priorities that move together with priority i: all eight under PAUSE (R114, R117). -/
def State.prioGroup (s : State) (m i : Nat) : List Nat := if s.macFc m = 1 then List.range 8 else [i]

/-- R114: a priority's pause timer reaches zero. -/
def execPauseTimerExpire (m : MacId) (i : Fin 8) (s : State) : Host.Outcome State Fault Refusal :=
  let k := macKey m
  if s.paused k i then
    .next (s.pauseChange k fun s => (s.prioGroup k i).foldl (fun s i => s.pauseEnd k i) s)
  else .next s

/-- R117: a pause run of a priority reaches WD_LIMIT_MS. -/
def execPauseWatchdogTrip (b : BedIx) (p : LocalIx) (i : Fin 8) (s : State) : Host.Outcome State Fault Refusal :=
  let m := 16 * b.val + p.val
  if s.timerOn (.wdRun m i) then
    let s := s.pauseChange m fun s => (s.prioGroup m i).foldl (fun s i =>
      ((s.pauseEnd m i).wrb (offMacPauseStat b p) (16 + i) true).startTimer (.wdHold m i)
        (ms (max 1 (s.rdf (offMacWd b p) 31 16)))) s
    .next ((s.stat b p 58 1).raiseEvt (offMacEvt b p) 0)
  else .next s

/-- R118: a watchdog hold ends. -/
def execWatchdogHoldEnd (b : BedIx) (p : LocalIx) (i : Fin 8) (s : State) : Host.Outcome State Fault Refusal :=
  let m := 16 * b.val + p.val
  if s.timerOn (.wdHold m i) then
    .next ((s.prioGroup m i).foldl (fun s i =>
      (s.wrb (offMacPauseStat b p) (16 + i) false).stopTimer (.wdHold m i)) s)
  else .next s

/-! ## Sent pause (R116) -/

/-- A port sends: it is ACTIVE with no link fault (R112). -/
def State.mayTransmit (s : State) (b p : Nat) : Bool := s.pActive b p && s.rdf (offMacFault b p) 31 30 == 0

/-- A MAC sends control frames: a network port that transmits, or the management port with TX_EN. -/
def State.fcMay (s : State) (m : Nat) : Bool :=
  if m = mgmtMac then s.hostOn && s.rdb offMgmtCtl 30 else s.mayTransmit (m / 16) (m % 16)

/-- The classes whose requests a MAC signals. Admission raises requests for network ports alone (R210); what makes the management
port ask its partner to pause, as PAUSE_EN says it may, is left open, and is a free value (assumption 83). -/
def State.fcWanted (s : State) (m : Nat) : BitVec 8 :=
  if m = mgmtMac then (if s.macFc m = 1 && Config.mgmtPause s.now then 0xFF else 0)
  else
    let req := BitVec.ofNat 8 (s.rdf (offAdmIngressCtl (s.portNo m)) 23 16)
    match s.macFc m with
    | 1 => if req = 0 then 0 else 0xFF
    | 2 => req &&& BitVec.ofNat 8 (s.rdf (offMacFcMask (m / 16) (m % 16)) 23 16)
    | _ => 0

/-- A network port has a change of its requests to signal, which goes ahead of every class. -/
def State.fcDue (s : State) (b p : Nat) : Bool :=
  let m := 16 * b + p
  s.macFc m != 0 && s.mayTransmit b p && s.fcWanted m != (s.mac m).signalled

/-- TX_QUANTA of a MAC, and REFRESH_QUANTA, at most TX_QUANTA; 0 acts as 1. The management port has neither register: its values
are free (assumption 83). -/
def State.txQuanta (s : State) (m : Nat) : Nat :=
  if m = mgmtMac then max 1 Config.mgmtQuanta.toNat else max 1 (s.rdf (offMacFcTx (m / 16) (m % 16)) 31 16)
def State.refreshQuanta (s : State) (m : Nat) : Nat :=
  if m = mgmtMac then s.txQuanta m else min (max 1 (s.rdf (offMacFcTx (m / 16) (m % 16)) 15 0)) (s.txQuanta m)

/-- A PAUSE or PFC frame for some classes leaves: XOFF for those in `xoff`, quanta 0 for the others (R116, R502). -/
def State.fcSend (s : State) (m : Nat) (enable xoff : BitVec 8) : State :=
  let pfc := s.macFc m == 2
  let s := (s.emit (.pauseFrame (s.portNo m) pfc enable xoff (s.txQuanta m))).mst m (if pfc then 41 else 40) 1
  if m = mgmtMac then s else s.wireControl (m / 16) (m % 16)

/-- The resend interval of a MAC in ns. -/
def State.refreshNs (s : State) (m : Nat) : Nat := s.refreshQuanta m * 512000 / s.macRate m

/-- R116: at a frame boundary the MAC signals what has changed in its requests. Under FC_MODE 1 the eight classes have
one signal, whose resend timer is class 0's. -/
def execPauseSend (bed : Option BedIx) (p : LocalIx) (s : State) : Host.Outcome State Fault Refusal :=
  let m := macAt bed p
  let want := s.fcWanted m
  let changed := want ^^^ (s.mac m).signalled
  if s.macFc m = 0 || !s.fcMay m || changed = 0 then .next s
  else
    let ns := s.refreshNs m
    let classes := if s.macFc m = 1 then [0] else (List.range 8).filter fun c => changed.getLsbD c
    let s := (s.fcSend m changed (changed &&& want)).macMod m fun x => { x with signalled := want }
    .next (classes.foldl (fun s c =>
      if want.getLsbD c then s.startTimer (.pauseRefresh m c) ns else s.stopTimer (.pauseRefresh m c)) s)

/-- R116: REFRESH_QUANTA have passed and the request is still raised. -/
def execPauseRefresh (bed : Option BedIx) (p : LocalIx) (c : Fin 8) (s : State) : Host.Outcome State Fault Refusal :=
  let m := macAt bed p
  let group : BitVec 8 := if s.macFc m = 1 then 0xFF else 1 <<< c.val
  if s.timerOn (.pauseRefresh m c) && s.fcMay m && (s.fcWanted m).getLsbD c then
    .next ((s.fcSend m group group).startTimer (.pauseRefresh m c) (s.refreshNs m))
  else .next s

/-! ## The merge sublayer (R120 to R123) -/

/-- The merge state: 0 DISABLED, 1 VERIFYING, 2 SUCCEEDED, 3 FAILED, 4 UNVERIFIED. -/
def State.mmState (s : State) (b p : Nat) : Nat := s.rdf (offMacMmStatus b p) 31 29

/-- Preemption is active on a port. -/
def State.preempting (s : State) (b p : Nat) : Bool := s.rdb (offMacMmStatus b p) 28

/-- The merge state takes a value, with what it says of preemption, which a cut frame no longer ends. -/
def State.mmSet (s : State) (b p st : Nat) : State :=
  ((s.wrf (offMacMmStatus b p) 31 29 st).wrb (offMacMmStatus b p) 28 (st == 2 || st == 4)).macMod (16 * b + p) fun x =>
    { x with mmEnding := false }

/-- A verify or respond frame leaves while the port transmits (R112, R502). -/
def State.mmSend (s : State) (b p : Nat) (respond : Bool) : State :=
  if s.mayTransmit b p then
    ((s.emit (.mergeVerify (s.portNo (16 * b + p)) respond)).stat b p 57 1).wireControl b p
  else s

/-- The verify timer starts. -/
def State.mmTimer (s : State) (b p : Nat) : State :=
  s.startTimer (.mmVerify (16 * b + p)) (ms (max 1 (s.rdf (offMacMmCtl b p) 7 0)))

/-- The merge state enters VERIFYING (R120). -/
def State.mmVerifying (s : State) (b p : Nat) : State :=
  (((s.mmSet b p 1).wrf (offMacMmStatus b p) 19 16 1).mmSend b p false).mmTimer b p

/-- R120: with MM_EN set and the port ACTIVE, the merge sublayer leaves DISABLED. -/
def execMergeVerifyStart (b : BedIx) (p : LocalIx) (s : State) : Host.Outcome State Fault Refusal :=
  if s.mmState b p = 0 && s.rdb (offMacMmCtl b p) 31 && s.pActive b p then
    .next (if s.rdb (offMacMmCtl b p) 30 then s.mmVerifying b p else s.mmSet b p 4)
  else .next s

/-- A verify or respond frame is received on an ACTIVE port: it counts in RX_MM_VERIFY alone (R502), and acts while RX_EN is 1
(R107; that with RX_EN 0 it acts on nothing is DEDUCED, assumption 84). -/
def State.mmReceive (s : State) (b p : Nat) (f : State → State) : State :=
  if !s.pActive b p then s
  else
    let s := s.stat b p 31 1
    if s.rdb (offMacCtl b p) 31 then f s else s

/-- R120: a respond frame is received. -/
def execMergeRespondReceive (b : BedIx) (p : LocalIx) (s : State) : Host.Outcome State Fault Refusal :=
  .next (s.mmReceive b p fun s =>
    if s.mmState b p = 1 then
      ((s.mmSet b p 2).stopTimer (.mmVerify (16 * b.val + p.val))).raiseEvt (offMacEvt b p) 1
    else s)

/-- R120: the verify timer expires. -/
def execMergeVerifyTimeout (b : BedIx) (p : LocalIx) (s : State) : Host.Outcome State Fault Refusal :=
  let n := s.rdf (offMacMmStatus b p) 19 16
  if s.mmState b p = 1 && s.timerOn (.mmVerify (16 * b.val + p.val)) then
    if n < max 1 (s.rdf (offMacMmCtl b p) 15 12) then
      .next (((s.wrf (offMacMmStatus b p) 19 16 (n + 1)).mmSend b p false).mmTimer b p)
    else .next (((s.mmSet b p 3).stopTimer (.mmVerify (16 * b.val + p.val))).raiseEvt (offMacEvt b p) 2)
  else .next s

/-- A write of MAC.MM_CTL: MM_EN 0 disables the merge sublayer, VERIFY_RESTART leaves FAILED (R120). -/
def State.mmCtlWrite (s : State) (b p : Nat) (v : Word) : State :=
  let v := clampReg (offMacMmCtl b p) v
  let s := s.wr (offMacMmCtl b p) (v &&& 0xC0FFF3FF)
  if !bit 31 v then s.mmDisable b p
  else if bit 29 v && s.mmState b p == 3 && s.pActive b p then s.mmVerifying b p else s

/-- R120: MAC.MM_CTL is written with VERIFY_RESTART 1. -/
def execMergeVerifyRestart (b : BedIx) (p : LocalIx) (v : Word) (s : State) : Host.Outcome State Fault Refusal :=
  .next (s.cfg (offMacMmCtl b p) fun s => s.mmCtlWrite b p (setBit 29 true v))

/-- R120: a verify frame is received and, while MM_EN is 1, answered. -/
def execMergeVerifyFrameReceive (b : BedIx) (p : LocalIx) (s : State) : Host.Outcome State Fault Refusal :=
  .next (s.mmReceive b p fun s => if s.rdb (offMacMmCtl b p) 31 then s.mmSend b p true else s)

/-! ## Snapshots (R127) -/

/-- The statistics block of a MAC. -/
def macStatBase (m : Nat) : Nat := if m = mgmtMac then offMgmtStatCnt 0 else offStatCnt (m / 16) (m % 16) 0

/-- All 64 counters are copied into the snapshot bank, and zeroed with `clear`. -/
def State.snap (s : State) (m : Nat) (clear : Bool) : State :=
  let base := macStatBase m
  let s := s.wrs (base + 0x200) (s.rds base 128)
  if clear then s.wrs base (List.replicate 128 0) else s

/-- R127: STAT.CTL is written with SNAP. -/
def execStatSnap (m : MacId) (s : State) : Host.Outcome State Fault Refusal :=
  .next (s.cfg (macStatBase (macKey m) + 0x400) fun s => s.snap (macKey m) false)

/-- R127: STAT.CTL is written with SNAP_CLEAR. -/
def execStatSnapClear (m : MacId) (s : State) : Host.Outcome State Fault Refusal :=
  .next (s.cfg (macStatBase (macKey m) + 0x400) fun s => s.snap (macKey m) true)

/-! ## The management port in half duplex (R131) -/

/-- The management port's state is changed. -/
def State.mgmtMod (s : State) (f : MgmtSt → MgmtSt) : State := { s with mgmt := f s.mgmt }

/-- The frame being sent is given up. -/
def State.mgmtGiveUp (s : State) : State :=
  (s.mgmtMod fun g => { g with txq := g.txq.tail, attempts := 0, backingOff := false }).stopTimer .backoff

/-- The frame being sent is given up after some bit times from its preamble's start: it counts as a frame whose transmission
started, with the octets of it that this attempt has sent (R125; that octets of earlier attempts do not count is DEDUCED,
assumption 85). -/
def State.mgmtBroken (s : State) (bits : Nat) : State :=
  let n := match s.mgmt.txq with | f :: _ => max 60 f.length + 4 | [] => 0
  ((s.mgmtStat 33 (min n (bits / 8 - 8))).mgmtStat 35 1).mgmtGiveUp

/-- The management port transmits its first waiting frame now. -/
def State.mgmtSending (s : State) : Bool :=
  s.hostOn && s.rdb offMgmtCtl 30 && s.mgmt.txq != [] && !s.mgmt.backingOff && !(s.halfDuplex && s.mgmt.deferring)

/-- R131: a collision is detected some bit times after the first preamble bit of the frame being sent. -/
def execMgmtCollision (bits : Nat) (s : State) : Host.Outcome State Fault Refusal :=
  if !s.halfDuplex || !s.mgmtSending then .next s
  else
    let s := s.emit .mgmtJam
    let k := s.mgmt.attempts + 1
    if 512 ≤ bits then .next ((s.mgmtBroken bits).mgmtStat 56 1)
    else if k = 16 then .next ((s.mgmtBroken bits).mgmtStat 57 1)
    else
      let (v, s) := s.draw
      let slots := v % 2 ^ min k 10
      .next ((s.mgmtMod fun g => { g with attempts := k, backingOff := true }).startTimer .backoff
        (slots * 512 * 1000 / s.mgmtRate))

/-- R131: the backoff wait ends. -/
def execMgmtBackoffEnd (s : State) : Host.Outcome State Fault Refusal :=
  if s.timerOn .backoff then .next ((s.mgmtMod fun g => { g with backingOff := false }).stopTimer .backoff) else .next s

/-- R131: 96 bit times have passed since carrier sense dropped. -/
def execMgmtDeferEnd (s : State) : Host.Outcome State Fault Refusal :=
  if s.timerOn .defer then .next ((s.mgmtMod fun g => { g with deferring := false }).stopTimer .defer) else .next s

/-! ## MDIO (R101) -/

/-- A write of MDIO.CTL: its fields are set, and START runs a transaction unless one is in progress or the operation is
refused. -/
def State.mdioWrite (s : State) (v : Word) : State :=
  let busy := s.rdb offMdioCtl 30
  let c45 := bit 29 v
  let op := fld 28 27 v
  let s := s.wr offMdioCtl ((v &&& 0x3FFEFFFF) ||| (s.rd offMdioCtl &&& 0x40010000))
  if !bit 31 v || busy then s
  else if !c45 && (op == 0 || op == 3) then s.wrb offMdioCtl 16 true
  else
    let s := (s.wrb offMdioCtl 16 false).wrb offMdioCtl 30 true
    let s := s.mgmtMod fun g => { g with mdioRead := if c45 then 2 ≤ op else op = 2 }
    (s.emit (.mdioFrame c45 op (fld 26 22 v) (fld 21 17 v) (fld 15 0 v))).startTimer .mdio
      (64 * 16 * max 13 (s.rdf offMdioClk 7 0))

/-- R101: MDIO.CTL is written with START. -/
def execMdioStart (v : Word) (s : State) : Host.Outcome State Fault Refusal :=
  .next (s.cfg offMdioCtl fun s => s.mdioWrite (setBit 31 true v))

/-- R101: the transaction ends; a read brings its data. -/
def execMdioDone (data : BitVec 16) (s : State) : Host.Outcome State Fault Refusal :=
  if s.timerOn .mdio then
    let s := (s.stopTimer .mdio).wrb offMdioCtl 30 false
    .next (if s.mgmt.mdioRead then s.wr offMdioRdata (w32 data.toNat) else s)
  else .next s

/-! ## The wake detector (R132, R133) -/

/-- WAKE.ADDR as six bytes, first byte on the wire first. -/
def State.wakeAddr (s : State) : List Byte :=
  (List.range 6).map fun i =>
    BitVec.ofNat 8 (if i < 4 then fld (8 * i + 7) (8 * i) (s.rd offWakeAddrLo)
      else fld (8 * (i - 4) + 7) (8 * (i - 4)) (s.rd offWakeAddrHi))

/-- Six 0xFF and sixteen copies of the station address, anywhere after the source address. -/
def State.magicFrame (s : State) (frame : List Byte) : Bool :=
  let pat := List.replicate 6 (BitVec.ofNat 8 0xFF) ++ (List.replicate 16 s.wakeAddr).flatten
  (List.range (frame.length + 1)).any fun i => 12 ≤ i && (frame.drop i).take pat.length == pat

/-- LENGTH of pattern filter k: 0 acts as 1. -/
def State.patLen (s : State) (k : Nat) : Nat := max 1 (s.rdf (offWakePatCtl k) 14 8)

/-- A pattern filter that can never match (R133). -/
def State.patBad (s : State) (k : Nat) : Bool := 128 < s.rdf (offWakePatCtl k) 6 0 + s.patLen k

/-- Pattern filter k matches a frame. -/
def State.patMatch (s : State) (k : Nat) (frame : List Byte) : Bool :=
  let off := s.rdf (offWakePatCtl k) 6 0
  !s.patBad k && (List.range (s.patLen k)).all fun j =>
    !s.rdb (offWakePatMask k (j / 32)) (j % 32) ||
      (frame[off + j]?).map BitVec.toNat == some (s.rdf (offWakePatByte k (j / 4)) (8 * (j % 4) + 7) (8 * (j % 4)))

/-- What a frame wakes the block by: 1 magic, 2 + k pattern k (R133). -/
def State.wakeCause (s : State) (frame : List Byte) : Option Nat :=
  if s.rdb offWakeCtl 31 && s.magicFrame frame then some 1
  else ((List.range 8).find? fun k => s.rdb offWakeCtl k && s.patMatch k frame).map (· + 2)

/-- R133: a frame, without its FCS, reaches the armed wake detector. A detector armed over SGMII or at 1000 Mb/s sees
none (R132). -/
def execWakeFrame (frame : List Byte) (fcsGood : Bool) (s : State) : Host.Outcome State Fault Refusal :=
  if !s.pwr.wakeArmed || s.pwr.wakeDeaf || !fcsGood then .next s
  else match s.wakeCause frame with
    | some c =>
      let s := ((s.wrb offWakeStatus 31 true).wrf offWakeStatus 3 0 c).emit .wakeRequest
      .next { s with pwr := { s.pwr with wakeReq := true } }
    | none => .next s

end Sys2Proof.Machine
end

