-- ==== Sys2Proof/Machine/Clock.lean ====
section
/-! DEFINITION. Time bases and trackers: their values, rates and ticks (chapter 11, R270 to R273, R294, R295). Bases are
numbered 0 to 7 and trackers 8 and 9; values are in units of 2^-32 ns. -/

namespace Sys2Proof.Machine

/-- One ns. -/
def nsUnit : Nat := 2 ^ 32

/-- A time as a record of S, NS and FRAC holds it: without the hidden bits (R270, R282). -/
def fracTime (v : Nat) : Nat := v / 2 ^ 16 * 2 ^ 16

/-- A register of a base or tracker by its offset in the block of TB[k]. -/
def tbReg (k off : Nat) : Nat := (if k < 8 then offTbCtl k else offTrkCtl (k - 8)) + off

/-- A base. -/
def State.tb (s : State) (k : Nat) : TimeBase := sget (fun _ => {}) s.time.bases k

/-- The time unit's state is changed. -/
def State.timeMod (s : State) (f : TimeSt → TimeSt) : State := { s with time := f s.time }

/-- A base is changed. -/
def State.tbMod (s : State) (k : Nat) (f : TimeBase → TimeBase) : State :=
  s.timeMod fun t => { t with bases := smod (fun _ => {}) t.bases k f }

/-- RUN of a base. -/
def State.tbRun (s : State) (k : Nat) : Bool := s.rdb (tbReg k 0) 31

/-- PAIR[k].STATUS.STATE of a paired base: 0 PRIMARY, 1 SLEW, 2 FOLLOW. -/
def State.pairState (s : State) (k : Nat) : Nat := if k < 2 then s.rdf (offPairStatus k) 31 30 else 0

/-- A tracker that copies the other paired base (SRC 1, R294). -/
def State.trkCopies (s : State) (k : Nat) : Bool := 8 ≤ k && s.rdb (offPairCtl (k - 8)) 21

/-- The addend of a base or tracker by its own commands. -/
def State.ownAddend (s : State) (k : Nat) : Nat := (s.tb k).addend

/-- The addend of tracker k: its own, or that of the base it copies. -/
def State.trkAddend (s : State) (k : Nat) : Nat :=
  if s.trkCopies (8 + k) then s.ownAddend (1 - k) else s.ownAddend (8 + k)

/-- The change that slewing at some ppm makes to one tick's addend, in the direction of a sign: addend × (1 ± ppm / 10^6)
rounded down. -/
def slewShare (addend ppm : Nat) (up : Bool) : Nat :=
  if up then addend * (1000000 + ppm) / 1000000 - addend else addend - addend * (1000000 - ppm) / 1000000

/-- D of a paired base: its tracker less the base. -/
def State.pairDiff (s : State) (k : Nat) : Int := (s.tb (8 + k)).val - (s.tb k).val

/-- PAIR[k].CTL.SLEW_PPM in force. -/
def State.pairPpm (s : State) (k : Nat) : Nat := clampTo 1 10 (s.rdf (offPairCtl k) 3 0)

/-- One tick of a base on its own: its addend with what the slew takes, and the last of the slew whole (R275). -/
def TimeBase.tick (b : TimeBase) : TimeBase :=
  let share : Nat := max 1 (slewShare b.addend b.ppm (0 < b.slew))
  let take : Int := if b.slew.natAbs ≤ share then b.slew else if 0 < b.slew then share else -share
  { b with val := ((b.val : Int) + b.addend + take).toNat, slew := b.slew - take }

/-- What the next tick adds to a base, slewing apart. -/
def State.tickAdd (s : State) (k : Nat) : Nat := if s.tbRun k && !(s.tb k).ticked then (s.tb k).addend else 0

/-- One tick of a base or tracker without an operation. -/
def State.ownTick (s : State) (k : Nat) : State :=
  if (s.tb k).ticked then s.tbMod k fun b => { b with ticked := false }
  else if s.tbRun k then s.tbMod k TimeBase.tick else s

/-- A paired base reaches its tracker: it follows it from now (R295). -/
def State.pairFollow (s : State) (k : Nat) : State :=
  ((s.tbMod k fun b => { b with val := (s.tb (8 + k)).val }).wrf (offPairStatus k) 31 30 2).raiseEvt offTimeEvt 9

/-- What the slew of a paired base adds to the tracker's addend in one tick at most. -/
def State.pairShare (s : State) (k : Nat) : Nat := s.trkAddend k * s.pairPpm k / 1000000

/-- The value a base's next tick gives it with no operation (R275: the magnitude of SET). -/
def State.tickVal (s : State) (k : Nat) : Nat :=
  if (s.tb k).ticked || !s.tbRun k then (s.tb k).val else (s.tb k).tick.val

/-- The value a base has after its next tick, the operation that waits for it included (R291: the arming tick's value). -/
def State.armVal (s : State) (k : Nat) : Nat :=
  match (s.tb k).cmd with
  | some (.set v) => v
  | some (.step d) => ((s.tb k).val + s.tickAdd k + d).toNat
  | _ => s.tickVal k

/-- A base interpolated to this root tick of the CK_TIME tick (R280). -/
def State.tbNow (s : State) (k : Nat) : Nat :=
  if s.tbRun k && !(s.tb k).ticked then (s.tb k).val + s.now % 10 * (s.tb k).addend / 10 else (s.tb k).val

/-- The eight bases at this instant. -/
def State.tbAll (s : State) : List Nat := (List.range 8).map s.tbNow

/-- The parts of a value: NS, FRAC, and the seconds. -/
def tbNs (v : Nat) : Nat := v / nsUnit % 1000000000
def tbFrac (v : Nat) : Nat := v / 65536 % 65536
def tbSec (v : Nat) : Nat := v / nsUnit / 1000000000

/-- A value in the four words of NOW. -/
def nowWords (v : Nat) : List Word :=
  [w32 (tbNs v), w32 (tbFrac v * 65536), w32 (tbSec v), w32 (tbSec v / 2 ^ 32)]

/-- A signed number of units as signed ns, saturating. -/
def signedNs (d : Int) : Word :=
  let n : Int := d.natAbs / nsUnit
  BitVec.ofInt 32 (max (-(2 ^ 31)) (min (2 ^ 31 - 1) (if d < 0 then -n else n)))

end Sys2Proof.Machine
end

