-- ==== Sys2Proof/Machine/Tel.lean ====
section
/-! DEFINITION. Telemetry: enqueue stamps, class intervals and their records, the archive rings (chapter 12, R304 to
R314). -/

namespace Sys2Proof.Machine

/-- The telemetry state is changed. -/
def State.telMod (s : State) (f : Tel → Tel) : State := { s with tel := f s.tel }

/-- TEL.CTL.TB. -/
def State.telTb (s : State) : Nat := s.rdf offTelCtl 28 26

/-- The enqueue stamp of a copy: the time on TEL.TB and the steps it has taken (R304, R310). -/
def State.telStamp (s : State) : Nat × Nat := (s.tbNow s.telTb, s.tel.steps)

/-- A sojourn in ns: 0 when negative or when it spans a step, saturating (R304, R310). -/
def State.sojourn (s : State) (enq enqStep : Nat) : Nat :=
  if enqStep ≠ s.tel.steps then 0 else min 0xFFFFFFFF ((s.tbNow s.telTb - enq) / nsUnit)

/-- INTERVAL in force, in ns. -/
def State.telLen (s : State) : Nat := clampTo 1000 1000000 (s.rdf offTelInterval 19 0)

/-- Is class c of a port recorded? -/
def State.telOn (s : State) (port cls : Nat) : Bool :=
  s.rdb offTelCtl 31 && s.rdb offTelCtl 29 && s.rdb (offTelClassMask port) cls

/-- The interval that a happening now belongs to is open: it is opened when it is not (R307, R310). -/
def State.telOpen (s : State) : State :=
  let t := s.tbNow s.telTb / nsUnit
  let j := t / s.telLen
  if s.tel.opened.any fun i => !i.closed && !i.ended && decide (t < i.stop) then s
  else if decide (t < s.tel.lastFinal) && s.tel.opened != [] then s
  else
    let stop := (j + 1) * s.telLen
    s.telMod fun e =>
      { e with
        opened := e.opened ++ [{ idx := j, stop := stop, step := decide (t < e.reached) }],
        reached := max stop e.reached }

/-- Where a happening now is attributed: its own interval, or late the oldest open one (R309); the Bool tells late. -/
def State.telWhere (s : State) : Option (Nat × Bool) :=
  let t := s.tbNow s.telTb / nsUnit
  match s.tel.opened.findIdx? fun i => !i.closed && !i.ended && decide (t < i.stop) with
  | some i => some (i, false)
  | none => if s.tel.opened = [] then none else some (0, true)

/-- A happening changes the record of a port and class; a record that was not there begins at the class count `depth`. -/
def State.telHappen (s : State) (port cls depth : Nat) (f : ClassRec → ClassRec) : State :=
  if !s.telOn port cls then s
  else
    let s := s.telOpen
    match s.telWhere with
    | none => s
    | some (i, late) =>
      let upd := fun (r : Option ClassRec) =>
        let r := f (r.getD { maxDepth := depth })
        some { r with late := r.late || late }
      let change := fun (v : TelInterval) =>
        { v with recs := smod (fun _ => none) v.recs (8 * port + cls) upd }
      let s := s.telMod fun e => { e with opened := e.opened.modify i change }
      if late then (s.inc (offTelCnt 0) offTelEvt 2).raiseEvt offTelEvt 0 else s

/-- The class count of a port and class has changed from `old` to `new` (R308). -/
def State.telDepth (s : State) (port cls old new : Nat) : State :=
  s.telHappen port cls old fun r => { r with maxDepth := max r.maxDepth new }

/-- A copy of a port and class is selected (R308). -/
def State.telSelect (s : State) (port cls depth charged sojourn : Nat) : State :=
  s.telHappen port cls depth fun r =>
    { r with
      frames := min 0xFFFFFFFF (r.frames + 1), bytes := min 0xFFFFFFFF (r.bytes + charged)
      maxSojourn := max r.maxSojourn sojourn }

/-- The instant in ns at which an interval begins. -/
def TelInterval.start (i : TelInterval) : Nat := i.stop - i.stop / (i.idx + 1)

/-- TEL.TB is set or stepped: the open records say STEP, and those whose interval the new time is not in take no further
happening (R310). -/
def State.telStep (s : State) (k : Nat) : State :=
  let t := s.tbNow s.telTb / nsUnit
  if k = s.telTb then
    s.telMod fun e =>
      { e with
        steps := e.steps + 1, lastFinal := 0
        opened := e.opened.map fun i =>
          { i with step := true, closed := i.closed || i.ended || !(decide (i.start ≤ t) && decide (t < i.stop)) } }
  else s

/-- The words of a class interval record (R311). -/
def ClassRec.words (r : ClassRec) (i : TelInterval) (key : Nat) : List Word :=
  [w32 i.idx, w32 (i.idx / 2 ^ 32), w32 (key * 2 ^ 20 + b2n r.late * 2 ^ 19 + b2n i.step * 2 ^ 18), w32 r.endDepth,
   w32 r.maxDepth, w32 r.frames, w32 r.bytes, w32 r.maxSojourn]

/-- The records a ring of some GiB holds. -/
def ringCap (gib : Nat) : Nat := min 32 gib * 2 ^ 25

/-- The capacities in force of the flow ring and of the class ring (R312). -/
def State.flowCap (s : State) : Nat := ringCap (s.rdf offTelArchNow 5 0)
def State.classCap (s : State) : Nat := ringCap (s.rdf offTelArchNow 13 8)

/-- The first overwrite of a ring since EN was set raises EVT_TEL_ARCH_WRAP (R313). -/
def State.telWrap (s : State) (k cap : Nat) : State :=
  if cap ≤ k && !s.tel.wrapped then (s.telMod fun e => { e with wrapped := true }).raiseEvt offTelEvt 1 else s

/-- A flow sample record is written to its ring; its first word is its position (R306, R313). -/
def State.telFlowRecord (s : State) (words : List Word) : State :=
  if s.flowCap = 0 then s
  else
    let k := s.cnt (offTelFlowWr 0) + s.tel.flowOut.length
    let s := s.inc (offTelCnt 1) offTelEvt 2
    (s.telMod fun e => { e with flowOut := e.flowOut ++ [w32 k :: words] }).telWrap k s.flowCap

/-! ## The commands -/

/-- R308: the end instant of the oldest interval that has not ended: END_DEPTH is taken for every recorded port and
class, and the next interval opens. -/
def execIntervalEnd (s : State) : Host.Outcome State Fault Refusal :=
  let on := s.rdb offTelCtl 31 && s.rdb offTelCtl 29
  let s := if on then s.telOpen else s
  let t := s.tbNow s.telTb / nsUnit
  match s.tel.opened.findIdx? fun i => !i.ended && (i.closed || decide (i.stop ≤ t)) with
  | none => .next s
  | some i =>
    let depth := fun k => s.rd2 (offAdmPclassOcc (k / 8) (k % 8) 0)
    let keys := (List.range (8 * 259)).filter fun k => s.telOn (k / 8) (k % 8)
    let close := fun (v : TelInterval) =>
      let recs := keys.foldl (fun m k => smod (fun _ => none) m k fun r =>
        some (r.getD { maxDepth := depth k })) v.recs
      { v with ended := true, recs := recs.map fun r => (r.1, r.2.map fun c => { c with endDepth := depth r.1 }) }
    let s := s.telMod fun e => { e with opened := e.opened.modify i close }
    .next (if on then s.telOpen else s)

/-- R309: 4 µs after its end, an interval's records become final and are written. -/
def execIntervalSettle (s : State) : Host.Outcome State Fault Refusal :=
  let t := s.tbNow s.telTb / nsUnit
  match s.tel.opened with
  | [] => .next s
  | i :: rest =>
    if !i.ended || !(i.closed || decide (i.stop + 4000 ≤ t)) then .next s
    else
      let recs := i.recs.filterMap fun r => r.2.map fun c => c.words i r.1
      let s := s.telMod fun e =>
        { e with opened := rest, lastFinal := if i.closed then e.lastFinal else i.stop }
      if recs = [] || s.classCap = 0 then .next s
      else
        let first := s.cnt (offTelClassWr 0) + (s.tel.classOut.map fun o => o.2.2.length).sum
        let s := s.addCnt (offTelCnt 2) recs.length offTelEvt 2
        .next ((s.telMod fun e => { e with classOut := e.classOut ++ [(i.idx, 0, recs)] }).telWrap
          (first + recs.length - 1) s.classCap)

/-- The oldest flow record's write is acknowledged: the record exists from now (R313). -/
def State.flowAck (s : State) : State :=
  match s.tel.flowOut with
  | [] => s
  | r :: rest =>
    let k := s.cnt (offTelFlowWr 0)
    (s.telMod fun e => { e with flowOut := rest, flowRing := sset (fun _ => []) e.flowRing (k % s.flowCap) r }).setCnt
      (offTelFlowWr 0) (k + 1)

/-- A class record's write is acknowledged: CLASS_WR advances past an interval's records when all of them are (R313). -/
def State.classAck (s : State) : State :=
  match s.tel.classOut with
  | [] => s
  | (j, n, recs) :: rest =>
    let k := s.cnt (offTelClassWr 0)
    let s := s.telMod fun e =>
      { e with classRing := sset (fun _ => []) e.classRing ((k + n) % s.classCap) (recs.getD n []) }
    if n + 1 < recs.length then s.telMod fun e => { e with classOut := (j, n + 1, recs) :: rest }
    else
      let s := s.telMod fun e => { e with classOut := rest }
      (s.setCnt (offTelClassWr 0) (k + recs.length)).wr2 (offTelClassLast 0) j

/-- R313: the oldest outstanding write of a record to a ring, the class ring or the flow ring, is acknowledged. -/
def execArchiveWriteAck (classRing : Bool) (s : State) : Host.Outcome State Fault Refusal :=
  .next (if classRing then s.classAck else s.flowAck)

end Sys2Proof.Machine
end

