-- ==== Sys2Proof/Machine/Frames.lean ====
section
/-! DEFINITION. Frames and copies: their grains, the occupancy counts of R198, and how they are discarded and freed
(R12, R29, R40, R197, R198, R210). -/

namespace Sys2Proof.Machine

/-! ## Frames and copies -/

/-- A frame by its number. -/
def State.frame (s : State) (f : Nat) : Option Frame := sget (fun _ => none) s.frames f

/-- A copy by its number. -/
def State.copy (s : State) (c : Nat) : Option Copy := sget (fun _ => none) s.copies c

/-- A frame takes a value, or is gone. -/
def State.setFrame (s : State) (f : Nat) (x : Option Frame) : State :=
  { s with frames := sset (fun _ => none) s.frames f x }

/-- A copy takes a value, or is gone. -/
def State.setCopy (s : State) (c : Nat) (x : Option Copy) : State :=
  { s with copies := sset (fun _ => none) s.copies c x }

/-- A frame that is there is changed. -/
def State.frameMod (s : State) (f : Nat) (g : Frame → Frame) : State := s.setFrame f ((s.frame f).map g)

/-- A copy that is there is changed. -/
def State.copyMod (s : State) (c : Nat) (g : Copy → Copy) : State := s.setCopy c ((s.copy c).map g)

/-- The copies that a test names, in the order they were made. -/
def State.copiesWhere (s : State) (p : Copy → Bool) : List Nat :=
  s.copies.filterMap fun e => match e.2 with | some c => if p c then some e.1 else none | none => none

/-- The frames that a test names, in the order they came in. -/
def State.framesWhere (s : State) (p : Frame → Bool) : List Nat :=
  s.frames.filterMap fun e => match e.2 with | some x => if p x then some e.1 else none | none => none

/-- The grains that N bytes take (R197). -/
def grainsOf (n : Nat) : Nat := (n + 255) / 256

/-- The grains of a frame. -/
def Frame.grains (x : Frame) : Nat := grainsOf x.bytes.length

/-- The grains of a copy's frame. -/
def State.copyGrains (s : State) (c : Copy) : Nat := match s.frame c.frame with | some x => x.grains | none => 0

/-! ## Occupancy (R198) -/

/-- OCC of a tier. -/
def State.occ (s : State) (t : Nat) : Nat := s.rd2 (offTierOcc t 0)

/-- A tier gains grains. -/
def State.occAdd (s : State) (t g : Nat) : State := s.wr2 (offTierOcc t 0) (s.occ t + g)

/-- CAP of topsoil in grains (R22). -/
def topsoilCap : Nat := 0x140000

/-- Grains that prefetches in progress will take in topsoil. -/
def State.fetchingAll (s : State) : Nat := (s.adm.fetching.map (·.2)).sum

/-- Topsoil has room for some more grains, prefetches in progress having theirs (R215, R501). -/
def State.topsoilRoom (s : State) (g : Nat) : Bool := decide (s.occ 0 + s.fetchingAll + g ≤ topsoilCap)

/-- A frame's grains are written to topsoil; the wait for a TS_REQ send's report runs from then (R341). -/
def State.writeNow (s : State) (f : Nat) (x : Frame) : State :=
  let s := (s.occAdd 0 x.grains).setFrame f (some { x with held := false })
  match x.send with
  | some i => s.startTimer (.tsWait i) (ms (clampTo 1 10000 (s.rdf offRingWait 31 16)))
  | none => s

/-- A frame whose grains wait in the buffer before topsoil is written, if there is room. -/
def State.writeHeld (s : State) (f : Nat) : State :=
  match s.frame f with
  | some x => if x.held && s.topsoilRoom x.grains then s.writeNow f x else s
  | none => s

/-- The frames that wait for room in topsoil are written as far as there is room, in the order they came in (R26). -/
def State.writeWaiting (s : State) : State := (s.framesWhere (·.held)).foldl (fun s f => s.writeHeld f) s

/-- A tier loses grains. -/
def State.occSub (s : State) (t g : Nat) : State :=
  let s := s.wr2 (offTierOcc t 0) (s.occ t - g)
  if t = 0 then s.writeWaiting else s

/-- The class count of an egress port and class. -/
def State.classCount (s : State) (port cls : Nat) : Nat := s.rd2 (offAdmPclassOcc port cls 0)

/-- A class count takes a value, which the telemetry sees (R308). -/
def State.setClassCount (s : State) (port cls n : Nat) : State :=
  (s.wr2 (offAdmPclassOcc port cls 0) n).telDepth port cls (s.classCount port cls) n

/-- A flow. -/
def State.flow (s : State) (f : Nat) : Flow := sget (fun _ => {}) s.sched.flows f

/-- A flow is changed. -/
def State.flowMod (s : State) (f : Nat) (g : Flow → Flow) : State :=
  { s with sched := { s.sched with flows := smod (fun _ => {}) s.sched.flows f g } }

/-- A clod. -/
def State.clod (s : State) (c : Nat) : Clod := sget (fun _ => {}) s.sched.clods c

/-- A clod is changed. -/
def State.clodMod (s : State) (c : Nat) (g : Clod → Clod) : State :=
  { s with sched := { s.sched with clods := smod (fun _ => {}) s.sched.clods c g } }

/-- The ingress count of a network port and class. -/
def State.ingressCount (s : State) (port cls : Nat) : Nat := sget (fun _ => 0) s.adm.ingress (8 * port + cls)

/-- XON of a port in force: at or above XOFF it acts as XOFF - 1 (R210). -/
def State.xon (s : State) (port : Nat) : Nat :=
  min (s.rd (offAdmIngressXon port)).toNat ((s.rd (offAdmIngressXoff port)).toNat - 1)

/-- The ingress count of a port and class takes a value, and its flow-control request follows (R210). -/
def State.setIngress (s : State) (port cls n : Nat) (rising : Bool) : State :=
  let s := { s with adm := { s.adm with ingress := sset (fun _ => 0) s.adm.ingress (8 * port + cls) n } }
  if rising && (s.rd (offAdmIngressXoff port)).toNat ≤ n then s.wrb (offAdmIngressCtl port) (16 + cls) true
  else if !rising && n ≤ s.xon port then s.wrb (offAdmIngressCtl port) (16 + cls) false
  else s

/-- The copy's grains join the flow depth, the clod count and the class count. -/
def State.countCopy (s : State) (c : Copy) (g : Nat) : State :=
  let s := (s.flowMod c.flow fun f => { f with depth := f.depth + g }).clodMod c.clod fun k => { k with count := k.count + g }
  s.setClassCount c.port c.cls (s.classCount c.port c.cls + g)

/-- The copy's grains leave those counts. -/
def State.uncountCopy (s : State) (c : Copy) (g : Nat) : State :=
  let s := (s.flowMod c.flow fun f => { f with depth := f.depth - g }).clodMod c.clod fun k => { k with count := k.count - g }
  s.setClassCount c.port c.cls (s.classCount c.port c.cls - g)

/-! ## Free and discard -/

/-- The tier into which a move or a prefetch of a frame, in progress, brings its grains (R214, R215). -/
def Frame.toTier (x : Frame) : Nat :=
  match x.moving with
  | some u => if u < 8 then 1 else 2
  | none => 0

/-- The grains that a move or a prefetch has brought to its tier are freed there. -/
def State.freeMoved (s : State) (x : Frame) : State := if x.moved = 0 then s else s.occSub x.toTier x.moved

/-- A frame's grains are freed, in both tiers where it lies in two, and every count that covers them falls (R29, R40, R198). -/
def State.freeFrame (s : State) (f : Nat) (x : Frame) : State :=
  let s := if x.held then s.setFrame f none else ((s.setFrame f none).freeMoved x).occSub x.tier x.grains
  match x.ingress with
  | some c => if x.src < 256 then s.setIngress x.src c (s.ingressCount x.src c - x.grains) false else s
  | none => s

/-- A frame loses one reference; with the last its grains are freed, at once or, while a move or a prefetch of it is in
progress, when that ends (R29, R40). -/
def State.unref (s : State) (f : Nat) : State :=
  match s.frame f with
  | none => s
  | some x =>
    if 1 < x.refs then s.setFrame f (some { x with refs := x.refs - 1 })
    else if x.moving.isSome || x.fetching then s.setFrame f (some { x with refs := 0, path := .copies })
    else s.freeFrame f x

/-- A frame's own path ends. One that is still in its FIFO has none of topsoil's grains (R136). -/
def State.pathEnd (s : State) (f : Nat) : State :=
  (s.frameMod f fun x => { x with path := .copies, held := x.held || x.path == .fifo }).unref f

/-- A frame is discarded whole with everything that was to come of it: a mirror copy still to be made is not made. -/
def State.discardAll (s : State) (f : Nat) : State :=
  let s := match (s.frame f).bind (·.mirror) with
    | some _ => (s.frameMod f fun x => { x with mirror := none }).unref f
    | none => s
  s.pathEnd f

/-- The fate of a frame's transmit send is reported: discarded. -/
def State.reportDrop (s : State) (f : Nat) : State :=
  match (s.frame f).bind (·.send) with
  | some send => s.sendFate send 0
  | none => s

/-- A frame is discarded whole by its own path; a mirror copy of it is still made (R186). -/
def State.discard (s : State) (f : Nat) : State := (s.reportDrop f).pathEnd f

/-- A copy leaves the block's queues: its counts fall and its frame loses its reference, unless the egress editor has read
its last grain already (R29, R40). -/
def State.endCopy (s : State) (c : Nat) : State :=
  match s.copy c with
  | none => s
  | some x =>
    if x.was.isSome then s.setCopy c none
    else ((s.uncountCopy x (s.copyGrains x)).setCopy c none).unref x.frame

/-- The egress editor has read a copy's last grain: its counts fall and its frame loses its reference; what the MAC needs
of the frame stays with the copy. -/
def State.readOut (s : State) (c : Nat) : State :=
  match s.copy c with
  | none => s
  | some x =>
    match s.frame x.frame with
    | none => s
    | some f => ((s.uncountCopy x f.grains).setCopy c (some { x with was := some f })).unref x.frame

/-- The frame of a copy. -/
def State.frameOf (s : State) (x : Copy) : Option Frame := match x.was with | some f => some f | none => s.frame x.frame

/-- The fate of the transmit send that a copy's frame belongs to is reported (R341). -/
def State.copyFate (s : State) (x : Copy) (fate : Nat) : State :=
  match (s.frameOf x).bind (·.send) with
  | some send => s.sendFate send fate
  | none => s

/-- A copy is discarded. -/
def State.discardCopy (s : State) (c : Nat) : State :=
  match s.copy c with
  | none => s
  | some x => (s.copyFate x 0).endCopy c

/-! ## Frames that come in -/

/-- Two frames come to topsoil through one buffer: the sieve's, or their ingress position's (R25). -/
def Frame.sameGate (x y : Frame) : Bool := if x.src < 256 then y.src < 256 && y.pos == x.pos else 256 ≤ y.src

/-- The grains that wait in the buffer through which a frame comes. -/
def State.gateGrains (s : State) (x : Frame) : Nat :=
  ((s.framesWhere fun y => y.held && x.sameGate y).filterMap fun f => (s.frame f).map Frame.grains).sum

/-- A frame's grains are written to topsoil as they come: there is room, and none waits before them. -/
def State.mayWrite (s : State) (x : Frame) : Bool := s.topsoilRoom x.grains && s.gateGrains x == 0

/-- The grains of a frame are written to topsoil, or wait in its buffer (R22, R26, R198). -/
def State.writeFrame (s : State) (f : Nat) (x : Frame) : State :=
  if s.mayWrite x then s.writeNow f x
  else s.setFrame f (some { x with held := true })

/-- A frame comes into topsoil, or waits in its FIFO (R136). -/
def State.addFrame (s : State) (x : Frame) : Nat × State :=
  let s' := { s with nextId := s.nextId + 1 }
  (s.nextId, if x.path == .fifo then s'.setFrame s.nextId (some x) else s'.writeFrame s.nextId x)

/-- A new copy of a frame; it adds one to the frame's reference count (R40). -/
def State.addCopy (s : State) (c : Copy) : Nat × State :=
  (s.nextId, ({ s.setCopy s.nextId (some c) with nextId := s.nextId + 1 }).frameMod c.frame
    fun x => { x with refs := x.refs + 1 })

end Sys2Proof.Machine
end

