-- ==== Sys2Proof/Machine/Credits.lean ====
section
/-! DEFINITION. The credit pools of the internal crossings (R24 to R27): what each holds, who holds it, and when its receiver
grants it. Work that a command hands over and that is taken up within that command holds its entry no longer. -/

namespace Sys2Proof.Machine

/-! ## What is in use -/

/-- Grains of a frame of n bytes on the host side. -/
def HostFrame.grains (f : HostFrame) : Nat := if f.credit then grainsOf f.bytes.length else 0

/-- Frames of the rings that wait or have reserved. -/
def RingSt.held (r : RingSt) : List HostFrame := r.waiting ++ r.reserved.map (·.1)

/-- Every frame the host side holds for a ring. -/
def State.hostFrames (s : State) : List HostFrame := s.rings.store ++ (s.rings.rings.map fun e => e.2.held).flatten

/-- FRAME-out credits in use: ring frames, and the frames of port 258 until it has sent them. -/
def State.frameOut (s : State) : Nat :=
  (s.hostFrames.map HostFrame.grains).sum + (s.mgmt.txq.map fun b => grainsOf b.length).sum

/-- Grains on the way to a stack (n) or a link (8 + n). -/
def State.spillingTo (s : State) (u : Nat) : Nat := sget (fun _ => 0) s.adm.spilling u

/-- Grains on the way back from a stack or link. -/
def State.fetchingFrom (s : State) (u : Nat) : Nat := sget (fun _ => 0) s.adm.fetching u

/-- Grains of the frames that a test names. -/
def State.grainsWhere (s : State) (p : Frame → Bool) : Nat :=
  ((s.framesWhere p).filterMap fun f => (s.frame f).map Frame.grains).sum

/-- The grains of a copy's frame, which the copy keeps once the editor has read it. -/
def State.sentGrains (s : State) (c : Copy) : Nat := match s.frameOf c with | some x => x.grains | none => 0

/-- Ports 256 and 258, which the cross schedules without a clod level (R247). -/
def isHost (port : Nat) : Bool := 256 ≤ port

/-- The position whose state a port's is: its own, or 16 for ports 256 and 258. -/
def portPos (port : Nat) : Nat := if isHost port then 16 else port / 16

/-- The bytes that the recirculation path presents to the parser, in grains: the first 8, or all of a shorter frame (R35). -/
def Frame.window (x : Frame) : Nat := min 8 x.grains

/-- A frame is in the recirculation slot of a position: recirculated, or injected through it (R34, R35, R37). -/
def Frame.inSlot (x : Frame) (pos : Nat) : Bool :=
  x.path == .window && x.pos == some pos && (x.pass != 0 || 256 ≤ x.src)

/-! ## The crossings (R25) -/

/-- The crossings of R25, in the table's order; the verdict channels have the key channels' credits. -/
inductive Crossing where
  | ingressWrite (pos : Nat)
  | key (bed chan : Nat)
  | admission (pos : Nat)
  | enqueue (pos : Nat)
  | replication
  | dequeue (pos : Nat)
  | egressRead (pos : Nat)
  | transmit (port : Nat)
  | recirculation (pos : Nat)
  | spill (stack : Nat)
  | prefetch (stack : Nat)
  | hardpanOut (link : Nat)
  | hardpanIn (link : Nat)
  | frameOut
  | frameIn
  | bulk
  | cfg
  | event
  | time (toHost : Bool)
  deriving DecidableEq, Repr

/-- The size of a pool (R25). -/
def Crossing.pool : Crossing → Nat
  | .ingressWrite _ => 1024
  | .key _ _ => 1024
  | .admission _ => 1024
  | .enqueue _ => 2048
  | .replication => 4096
  | .dequeue _ => 1024
  | .egressRead _ => 512
  | .transmit _ => 96
  | .recirculation _ => 256
  | .spill _ => 2048
  | .prefetch _ => 2048
  | .hardpanOut _ => 1024
  | .hardpanIn _ => 1024
  | .frameOut => 2048
  | .frameIn => 2048
  | .bulk => 16384
  | .cfg => 32
  | .event => 512
  | .time _ => 16

/-- The credits of a crossing that are held. A copy for the MAC holds its transmit credits from its selection on (R226). CFG,
TIME, EVENT and BULK messages, enqueue descriptors and the editor's reads are taken up within their command. -/
def State.inUse (s : State) : Crossing → Nat
  | .ingressWrite p => s.grainsWhere fun x => x.held && x.src < 256 && x.pos == some p
  | .key b c => sget (fun _ => 0) s.mesh.used (4 * b + c)
  | .admission p => (s.framesWhere fun x => x.path == .settle && x.pos == some p).length
  | .replication => (s.framesWhere fun x => x.path == .repl).length
  | .dequeue p => (s.copiesWhere fun c => portPos c.port == p && c.stage == .selected).length
  | .transmit port =>
    ((s.copiesWhere fun c => c.port == port && (c.stage == .selected || c.stage == .edited)).map fun i =>
      match s.copy i with | some c => s.sentGrains c | none => 0).sum
  | .recirculation p =>
    ((s.framesWhere fun x => x.inSlot p).filterMap fun f => (s.frame f).map Frame.window).sum
  | .spill n => s.spillingTo n
  | .prefetch n => s.fetchingFrom n
  | .hardpanOut k => s.spillingTo (8 + k)
  | .hardpanIn k => s.fetchingFrom (8 + k)
  | .frameOut => s.frameOut
  | .frameIn => s.grainsWhere fun x => x.held && 256 ≤ x.src
  | .enqueue _ | .egressRead _ | .bulk | .cfg | .event | .time _ => 0

/-- The bed that serves a position is ON; position 16 is the cross itself. -/
def State.posOn (s : State) (p : Nat) : Bool := s.lineOn && (p == 16 || match s.bedOf p with | some b => s.bedOn b | none => false)

/-- The islands that a crossing touches are ON: an island's reset zeroes the crossing's pool, and the receiver grants it anew
when the island is ON again (R27, R67). -/
def State.granted (s : State) : Crossing → Bool
  | .ingressWrite p | .admission p | .enqueue p | .dequeue p | .egressRead p | .recirculation p => s.posOn p
  | .key b _ => s.lineOn && s.bedOn b
  | .transmit port => s.posOn (portPos port)
  | .replication | .spill _ | .prefetch _ => s.lineOn
  | .hardpanOut k | .hardpanIn k => s.lineOn && s.siltOn k
  | .frameOut | .frameIn | .bulk | .cfg | .event | .time _ => s.lineOn && s.hostOn

/-- The sender holds n credits of a crossing (R24). -/
def State.mayCross (s : State) (x : Crossing) (n : Nat) : Bool := s.granted x && decide (s.inUse x + n ≤ x.pool)

/-- The crossing to, or back from, a stack (n) or a link (8 + n). -/
def spillCrossing (u : Nat) : Crossing := if u < 8 then .spill u else .hardpanOut (u - 8)
def fetchCrossing (u : Nat) : Crossing := if u < 8 then .prefetch u else .hardpanIn (u - 8)

/-- A frame may be taken in: written at once, or against the credits of its buffer (R26, R336). -/
def State.mayTake (s : State) (x : Frame) : Bool :=
  s.mayWrite x ||
    (match x.pos with
    | some p => if x.src < 256 then s.mayCross (.ingressWrite p) x.grains else s.mayCross .frameIn x.grains
    | none => s.mayCross .frameIn x.grains)

/-- The path of a frame that enters a position's recirculation slot from the sieve: presented at once where the slot has the
credits and no other waits, else waiting in topsoil (R34, R37). -/
def State.slotPath (s : State) (x : Frame) : FramePath :=
  match x.pos with
  | some p =>
    if (s.framesWhere fun y => y.path == .slot && y.pos == some p) == [] && s.mayCross (.recirculation p) x.window
    then .window else .slot
  | none => .window

/-- A frame that waits for the slot is the first to, and the slot has the credits. -/
def State.slotTurn (s : State) (f : Nat) (x : Frame) : Bool :=
  match x.pos with
  | some p => (s.framesWhere fun y => y.path == .slot && y.pos == some p).head? == some f &&
      s.mayCross (.recirculation p) x.window
  | none => false

end Sys2Proof.Machine
end

