-- ==== Sys2Proof/Machine/MeshKey.lean ====
section
/-! DEFINITION. The mesh key of a pass (R158 to R160): its shape and its 48 bytes. -/

namespace Sys2Proof.Machine

/-- A byte of the frame as the key may draw on it: zero beyond the frame's last byte and beyond byte 255 (R160). -/
def winBytes (bs : List Byte) : List Byte := bs.take 256

/-- An IP header's type code. -/
def isIp (c : Nat) : Bool := c == 0x10 || c == 0x11
/-- A tunnel header's type code. -/
def isTunnel (c : Nat) : Bool := 0x24 ≤ c && c ≤ 0x27
/-- An L4 header's type code. -/
def isL4 (c : Nat) : Bool := 0x20 ≤ c && c ≤ 0x23
/-- A tag's type code. -/
def isTagCode (c : Nat) : Bool := 2 ≤ c && c ≤ 4

/-- The entries from the first that a test names. -/
def fromFirst (p : Nat → Bool) : List Entry → List Entry
  | [] => []
  | e :: es => if p e.code then e :: es else fromFirst p es

/-- The entries from the last tunnel header, if there is one. -/
def fromLastTunnel (es : List Entry) : List Entry :=
  es.foldl (fun acc e => if isTunnel e.code then [e] else if acc.isEmpty then [] else acc ++ [e]) []

/-- The entries from the outermost IP header. -/
def outerIp (p : Parse) : List Entry := fromFirst isIp p.entries

/-- The entries from the IP header that follows the last tunnel header. -/
def innerIp (p : Parse) : List Entry := fromFirst isIp (fromLastTunnel p.entries)

/-- The shape chosen from the parse result (R159). -/
def autoShape (p : Parse) : Nat :=
  if 1 ≤ p.tunnels ∧ ¬ (innerIp p).isEmpty then 3
  else match outerIp p with
    | e :: _ => if e.code = 0x11 then 2 else 1
    | [] => 0

/-- The L4 header of the IP header that heads a list of entries: the first before another IP header. -/
def l4Of : List Entry → Option Entry
  | [] => none
  | _ :: es => ((es.takeWhile fun e => !isIp e.code).find? fun e => isL4 e.code)

/-- The protocol, or the last next-header value, of the IP header that heads a list of entries. -/
def lastProto (bs : List Byte) : List Entry → Nat
  | [] => 0
  | e :: es =>
    if e.code = 0x10 then byteAt bs (e.off + 9)
    else match (es.takeWhile fun x => 0x12 ≤ x.code && x.code ≤ 0x16).getLast? with
      | some x => byteAt bs x.off
      | none => byteAt bs (e.off + 6)

/-- TOS or traffic class of an IP header. -/
def ipTos (bs : List Byte) (e : Entry) : Nat :=
  if e.code = 0x10 then byteAt bs (e.off + 1) else byteAt bs e.off % 16 * 16 + byteAt bs (e.off + 1) / 16

/-- Source and destination port fields of an L4 header, ICMP's type and code in the source field (R160); zero in a later
fragment. -/
def l4Ports (bs : List Byte) (p : Parse) (l4 : Option Entry) : List Byte :=
  match l4 with
  | some e =>
    if p.fragLater then List.replicate 4 0
    else if e.code = 0x20 ∨ e.code = 0x21 then bytesAt bs e.off 4
    else bytesAt bs e.off 2 ++ [0, 0]
  | none => List.replicate 4 0

/-- Low 8 bits of the TCP flags. -/
def tcpFlags (bs : List Byte) (p : Parse) (l4 : Option Entry) : Nat :=
  match l4 with
  | some e => if e.code = 0x21 ∧ ¬ p.fragLater then byteAt bs (e.off + 13) else 0
  | none => 0

/-- TCI of tag number i, zero where there is none. -/
def tagTci (bs : List Byte) (p : Parse) (i : Nat) : List Byte :=
  match (p.entries.filter fun e => isTagCode e.code)[i]? with
  | some e => bytesAt bs (e.off + 2) 2
  | none => [0, 0]

/-- The first MPLS label entry. -/
def firstLabel (bs : List Byte) (p : Parse) : List Byte :=
  match p.entries.find? fun e => e.code = 5 with
  | some e => bytesAt bs e.off 4
  | none => [0, 0, 0, 0]

/-- Tunnel id of a tunnel header: VNI, TEID or GRE key (R160). -/
def tunnelId (bs : List Byte) (e : Entry) : List Byte :=
  if e.code = 0x25 ∨ e.code = 0x26 then 0 :: bytesAt bs (e.off + 4) 3
  else if e.code = 0x27 then bytesAt bs (e.off + 4) 4
  else
    let f := beAt bs e.off 2
    if f / 0x2000 % 2 = 1 then bytesAt bs (e.off + 4 + 4 * (f / 0x8000)) 4 else [0, 0, 0, 0]

/-- A byte from a number. -/
def b8 (n : Nat) : Byte := BitVec.ofNat 8 n

/-- Address field of 16 bytes: an IPv4 address fills the first 4. -/
def addr16 (bs : List Byte) (e : Entry) (dst : Bool) : List Byte :=
  if e.code = 0x10 then bytesAt bs (e.off + if dst then 16 else 12) 4 ++ List.replicate 12 0
  else bytesAt bs (e.off + if dst then 24 else 8) 16

/-- Bytes 4 to 47 of a key of a shape (R160), without the zero bytes that fill it up. -/
def keyFields (bs : List Byte) (p : Parse) (shape : Nat) : List Byte :=
  let tcis := tagTci bs p 0 ++ tagTci bs p 1
  match shape with
  | 0 =>
    let ty := match (p.entries.filter fun e => isTagCode e.code).getLast? with
      | some e => bytesAt bs (e.off + 4) 2
      | none => bytesAt bs 12 2
    bytesAt bs 0 12 ++ tcis ++ ty ++ firstLabel bs p
  | 1 =>
    let es := fromFirst (· == 0x10) p.entries
    match es with
    | [] => List.replicate 16 0 ++ tcis ++ firstLabel bs p
    | e :: _ =>
      let l4 := l4Of es
      bytesAt bs (e.off + 12) 8 ++ bytesAt bs (e.off + 9) 1 ++ bytesAt bs (e.off + 1) 1 ++ l4Ports bs p l4
        ++ [b8 (tcpFlags bs p l4)] ++ bytesAt bs (e.off + 8) 1 ++ tcis ++ firstLabel bs p
  | 2 =>
    let es := fromFirst (· == 0x11) p.entries
    match es with
    | [] => []
    | e :: _ =>
      let l4 := l4Of es
      bytesAt bs (e.off + 8) 32 ++ [b8 (lastProto bs es), b8 (ipTos bs e)] ++ l4Ports bs p l4
        ++ [b8 (tcpFlags bs p l4)] ++ bytesAt bs (e.off + 7) 1
        ++ [b8 (byteAt bs (e.off + 1) % 16)] ++ bytesAt bs (e.off + 2) 2
  | _ =>
    match fromLastTunnel p.entries with
    | [] => []
    | t :: _ =>
      let es := innerIp p
      match es with
      | [] => tunnelId bs t ++ [b8 t.code]
      | e :: _ =>
        tunnelId bs t ++ [b8 t.code, b8 (lastProto bs es)] ++ l4Ports bs p (l4Of es)
          ++ [b8 (ipTos bs e), if e.code = 0x10 then 4 else 6] ++ addr16 bs e false ++ addr16 bs e true

/-- The mesh key of a pass: source code, pass index, pattern groups and the fields of the shape (R158). -/
def meshKey (frame : List Byte) (p : Parse) (shape src pass groups : Nat) : List Byte :=
  let bs := winBytes frame
  let k1 := pass % 4 * 64 + b2n (p.code != 0) * 32 + b2n p.fragFirst * 16 + b2n p.fragLater * 8 + b2n p.ip4Opt * 4
    + min 3 p.tunnels
  let body := keyFields bs p shape
  [b8 (shape % 4 * 64 + src % 32), b8 k1] ++ beBytes 2 groups ++ body ++ List.replicate (44 - body.length) 0

end Sys2Proof.Machine
end

