-- ==== Sys2Proof/Machine/Admission.lean ====
section
/-! DEFINITION. Ingress meters and admission (chapter 08, R199 to R213). -/

namespace Sys2Proof.Machine

/-! ## Meters (R199 to R204) -/

/-- A meter. -/
def State.meter (s : State) (id : Nat) : Meter := sget (fun _ => {}) s.adm.meters id

/-- A meter takes a value. -/
def State.setMeter (s : State) (id : Nat) (m : Meter) : State :=
  { s with adm := { s.adm with meters := sset (fun _ => {}) s.adm.meters id m } }

/-- One bucket refilled: `rate` kbit/s is rate × 8 / 390,625 units of 1/256 byte in a CK_CROSS cycle. The tokens and the
fraction carried. -/
def meterFill (rate size dt tokens frac : Nat) : Nat × Nat :=
  let n := rate * dt * 8 + frac
  let t := tokens + n / 390625
  if size * 256 ≤ t then (size * 256, 0) else (t, n % 390625)

/-- A meter brought up to a cycle (R202). -/
def Meter.upTo (m : Meter) (t : Nat) : Meter :=
  let dt := (t % 2 ^ 32 + 2 ^ 32 - m.stamp % 2 ^ 32) % 2 ^ 32
  let c := meterFill m.cir m.cbs dt m.tc m.fracC
  let p := meterFill (max m.pir m.cir) m.pbs dt m.tp m.fracP
  { m with tc := c.1, fracC := c.2, tp := p.1, fracP := p.2, stamp := t % 2 ^ 32 }

/-- The test of RFC 2698 as R202 states it: the colour (0 green, 1 yellow, 2 red) and the meter with its tokens taken. -/
def Meter.test (m : Meter) (pre b : Nat) : Nat × Meter :=
  let n := b * 256
  if m.aware && pre == 2 then (2, m)
  else if m.tp < n then (2, m)
  else if m.aware && pre == 1 then (1, { m with tp := m.tp - n })
  else if m.tc < n then (1, { m with tp := m.tp - n })
  else (0, { m with tp := m.tp - n, tc := m.tc - n })

/-- Index of a frame's source in METER.PORT: 16 for port 256, 17 for port 258 (R158). -/
def srcIx (src : Nat) : Nat := if src < 256 then src % 16 else if src = 256 then 16 else 17

/-- METER.PORT of a source in a bed. A write at the offset that [16] and [17] share with METER.DSCP_MAP[0] and [1] sets both;
a read gives METER.DSCP_MAP (DESIGN CHOICE, assumption 11). -/
def State.meterPort (s : State) (b src : Nat) : Word :=
  s.rd (if src < 256 then offMeterPort b (src % 16) else meterHostKey b (srcIx src))

/-- A write of METER.DSCP_MAP[w], w 0 or 1, reaches METER.PORT[16 + w] too. -/
def State.meterHostWrite (s : State) (b w : Nat) (v : Word) : State := s.wr (meterHostKey b (16 + w)) (v &&& 0xE0FFFFFF)

/-- The metered length of N stored bytes (R199), which is also their charged length (R223); at least 1. -/
def chargedLen (n : Nat) (port : Word) : Nat := ((n : Int) + 4 + sbyte (fld 23 16 port)).toNat.max 1

/-- The outermost IP header's TOS or traffic class. -/
def outerTos (x : Frame) : Option Nat := (outerIp x.parse).head?.map fun e => ipTos x.bytes e

/-- A frame's pre-colour (R201). -/
def State.preColour (s : State) (x : Frame) : Nat :=
  match fld 30 29 (s.meterPort x.bed x.src) with
  | 1 => if byteAt (tagTci x.bytes x.parse 0) 0 / 16 % 2 = 1 then 1 else 0
  | 2 => match outerTos x with
    | some t => min 2 (s.rdf (offMeterDscpMap x.bed (t / 4 / 16)) (2 * (t / 4 % 16) + 1) (2 * (t / 4 % 16)))
    | none => 0
  | _ => 0

/-- A meter that is EN meters B bytes of a pre-colour: the colour, its RED_DROP and the state; none where EN is 0. -/
def State.meterRun (s : State) (id pre b : Nat) : Option (Nat × Bool × State) :=
  let m := (s.meter id).upTo s.cycle
  if m.en then
    let r := m.test pre b
    some (r.1, m.redDrop, s.setMeter id r.2)
  else none

/-- What the ingress meter makes of a frame at cycle 9 of its final pass, where one meters it: its colour, RED_DROP and the
state with the meter's tokens taken (R199 to R202). -/
def State.meterOf (s : State) (x : Frame) : Option (Nat × Bool × State) :=
  let cfg := s.meterPort x.bed x.src
  let a0 := x.act.getD 0 0
  let id := 65536 * (x.pos.getD 0) + (if bit 23 a0 then fld 15 0 a0 else fld 15 0 cfg)
  if bit 31 cfg then s.meterRun id (s.preColour x) (chargedLen x.bytes.length cfg) else none

/-- The colour of a frame at cycle 9 of its final pass. -/
def State.colourOf (s : State) (x : Frame) : Nat := match s.meterOf x with | some (c, _, _) => c | none => s.preColour x

/-- The ingress meter colours a frame (R199 to R202). -/
def State.meterFrame (s : State) (f : Nat) : State :=
  match s.frame f with
  | none => s
  | some x =>
    match s.meterOf x with
    | some (c, rd, s) =>
      (s.setCnt (offMeterCnt x.bed c) (s.cnt (offMeterCnt x.bed c) + 1)).frameMod f
        fun x => { x with colour := c, redDrop := rd }
    | none => s.frameMod f fun x => { x with colour := s.preColour x, redDrop := false }

/-- The override meter of a verdict meters the frame again at admission (R203). -/
def State.meterOverride (s : State) (f id : Nat) : State :=
  match s.frame f with
  | none => s
  | some x =>
    match s.meterRun id x.colour (chargedLen x.bytes.length (s.meterPort x.bed x.src)) with
    | some (c, rd, s) => s.frameMod f fun x => { x with colour := c, redDrop := rd }
    | none => s

/-! ## Meter records (R202) -/

/-- METER.DATA words of a record. -/
def Meter.words (m : Meter) : List Word :=
  [w32 m.cir, w32 m.pir, w32 (b2n m.en * 2 ^ 31 + b2n m.aware * 2 ^ 30 + b2n m.redDrop * 2 ^ 29 + m.cbs), w32 m.pbs,
   w32 m.tc, w32 m.tp, w32 m.stamp, 0]

/-- A record from METER.DATA: its buckets full, or with tokens kept and clipped to the new sizes. -/
def State.meterFrom (s : State) (old : Meter) (full : Bool) : Meter :=
  let d := fun i => s.rd (offMeterData0 i)
  let cbs := fld 23 0 (s.rd offMeterData2)
  let pbs := fld 23 0 (s.rd offMeterData3)
  { cir := (d 0).toNat, pir := (d 1).toNat
    en := s.rdb offMeterData2 31, aware := s.rdb offMeterData2 30, redDrop := s.rdb offMeterData2 29
    cbs := cbs, pbs := pbs
    tc := if full then cbs * 256 else min old.tc (cbs * 256)
    tp := if full then pbs * 256 else min old.tp (pbs * 256)
    fracC := if full then 0 else old.fracC, fracP := if full then 0 else old.fracP, stamp := s.cycle % 2 ^ 32 }

/-- METER.ADDR.ID. -/
def State.meterId (s : State) : Nat := s.rdf offMeterAddr 19 0

/-- A METER.CMD takes a written value, GO apart. -/
def State.meterOp (s : State) (op : Nat) : State := s.wr offMeterCmd (w32 op)

/-- METER.CMD reads the record, brought up to date, into METER.DATA. -/
def State.meterRead (s : State) : State :=
  let m := (s.meter s.meterId).upTo s.cycle
  (s.setMeter s.meterId m).wrs (offMeterData0 0) m.words

/-- METER.CMD writes the record from METER.DATA. -/
def State.meterWrite (s : State) (full : Bool) : State :=
  s.setMeter s.meterId (s.meterFrom ((s.meter s.meterId).upTo s.cycle) full)

/-- R202: METER.CMD is written with GO and OP 0 or 3. -/
def execMeterRead (s : State) : Host.Outcome State Fault Refusal :=
  .next (s.cfg offMeterCmd fun s => (s.meterOp 0).meterRead)

/-- R202: METER.CMD is written with GO and OP 1. -/
def execMeterWriteFull (s : State) : Host.Outcome State Fault Refusal :=
  .next (s.cfg offMeterCmd fun s => (s.meterOp 1).meterWrite true)

/-- R202: METER.CMD is written with GO and OP 2. -/
def execMeterWriteKeep (s : State) : Host.Outcome State Fault Refusal :=
  .next (s.cfg offMeterCmd fun s => (s.meterOp 2).meterWrite false)

/-- R202: the refresher brings a record up to date. -/
def execMeterRefresh (id : BitVec 20) (s : State) : Host.Outcome State Fault Refusal :=
  .next (if s.lineOn then s.setMeter id.toNat ((s.meter id.toNat).upTo s.cycle) else s)

/-! ## Tiers' thresholds (R211, R213) -/

/-- PREFETCH_AHEAD in force. -/
def State.prefetchAhead (s : State) : Nat := max 128 (s.rd offTierPrefetchAhead).toNat
/-- SPILL_DEPTH in force. -/
def State.spillDepth (s : State) : Nat := max s.prefetchAhead (s.rd offTierSpillDepth).toNat
/-- HARDPAN_DEPTH in force. -/
def State.hardpanDepth (s : State) : Nat := max s.spillDepth (s.rd offTierHardpanDepth).toNat

/-- Subsoil's spill region in grains: 512 GiB less flow state, the two marl copies and the archive in force (R22, R312). -/
def State.subsoilCap (s : State) : Nat :=
  2128609280 - 4194304 * (s.rdf offTelArchNow 13 8 + s.rdf offTelArchNow 5 0)

/-- A tier's CAP. -/
def State.tierCap (s : State) (t : Nat) : Nat :=
  if t = 0 then topsoilCap else if t = 1 then s.subsoilCap else s.rd2 (offTierCap2 0)

/-- A tier's LIMIT as written. -/
def State.tierLimitReg (s : State) (t : Nat) : Nat :=
  if t = 0 then (s.rd offTierLimitLo0).toNat + 2 ^ 32 * s.rdf offTierLimitHi0 15 0
  else (s.rd (offTierLimitLo (t - 1))).toNat + 2 ^ 32 * s.rdf (offTierLimitHi (t - 1)) 15 0

/-- A tier's LIMIT in force (R213). -/
def State.tierLimit (s : State) (t : Nat) : Nat := min (s.tierLimitReg t) (s.tierCap t)

/-- The tiers present. -/
def State.tiers (s : State) : List Nat := if s.hasHardpan then [0, 1, 2] else [0, 1]

/-- TIER.STATUS, judged on the values the registers hold (R213). -/
def State.tierStatus (s : State) : Word :=
  w32 (4 * b2n (s.tiers.any fun t => s.tierCap t < s.tierLimitReg t)
    + 2 * b2n (s.hasHardpan && (s.rd offTierHardpanDepth |>.toNat.blt s.spillDepth))
    + b2n (s.rd offTierSpillDepth |>.toNat.blt s.prefetchAhead))

/-- Test 2 of a tier for a frame: the grains it has already in that tier are not added again (R198, R205). -/
def State.tierFits (s : State) (t : Nat) (x : Frame) : Bool :=
  s.occ t + (if x.tier = t && !x.held then 0 else x.grains) ≤ s.tierLimit t

/-- The destination tier of a frame at an index, not pinned (R211); the Bool tells a fall-back from hardpan. -/
def State.placeAt (s : State) (x : Frame) (i : Nat) : Nat × Bool :=
  if !s.rdb offTierCtl 31 || i < s.spillDepth then (0, false)
  else if i < s.hardpanDepth || !s.hasHardpan || !s.rdb offTierCtl 30 then (1, false)
  else if s.tierFits 2 x then (2, false) else (1, true)

/-! ## Admission (R205 to R210) -/

/-- An admission cause is counted, with its event (R220). -/
def State.admCount (s : State) (i : Nat) : State :=
  let s := s.inc (offAdmCnt i) offAdmEvt 9
  if i < 9 then s.raiseEvt offAdmEvt i else s

/-- The position that a frame's admission counts for on the PMU lines: the one it came in at; 16 is every position's. -/
def Frame.pmuPos (x : Frame) : Nat := x.pos.getD 16

/-- A frame or copy is discarded at admission under a cause (R205, R319). -/
def State.admFail (s : State) (x : Frame) (i : Nat) : State := (s.admCount i).pmuOcc 2 x.pmuPos

/-- The free store of test 4. -/
def State.freeStore (s : State) : Nat :=
  (s.tiers.map s.tierLimit).sum - (s.tiers.map s.occ).sum

/-- Sixteenths that a colour scales a class's limits by. -/
def State.colourFrac (s : State) (cls colour : Nat) : Nat :=
  let w := s.rd (offAdmClassFrac cls)
  if colour = 0 then 16 else if colour = 1 then min 16 (fld 20 16 w) else min 16 (fld 4 0 w)

/-- One step of the ECN LFSR, x^32 + x^22 + x^2 + x + 1 (R208). -/
def ecnStep (v : BitVec 32) : BitVec 32 :=
  let b := (v.getLsbD 31 ^^ v.getLsbD 21) ^^ (v.getLsbD 1 ^^ v.getLsbD 0)
  v <<< 1 ||| (if b then 1 else 0)

/-- The ECN decision for a port and class at a class count: a mark is drawn (R208). The 16-bit value is a free function of the
LFSR (assumption 8). -/
def State.ecnDraw (s : State) (port cls q : Nat) : Bool × State :=
  let w := s.rd (offAdmPclassEcn port cls)
  if !bit 31 w then (false, s)
  else
    let lo := (s.rd (offAdmPclassEcnMin port cls)).toNat
    let hi := (s.rd (offAdmPclassEcnMax port cls)).toNat
    let v := ecnStep s.adm.lfsr
    let s := { s with adm := { s.adm with lfsr := v } }
    if q < lo then (false, s)
    else if hi ≤ q || hi ≤ lo then (true, s)
    else ((Config.ecnValue v).toNat.blt (fld 15 0 w * (q - lo) / (hi - lo)), s)

/-- A frame is ECN-capable by its outermost IP header (R208). -/
def ecnCapable (x : Frame) : Bool := match outerTos x with | some t => t % 4 != 0 | none => false

/-- The first of tests 3 to 6 that a copy fails, by its cause; none where it passes them. `lossless` skips 4 to 6 (R207). -/
def State.limitTest (s : State) (c : Copy) (g colour : Nat) (lossless : Bool) : Option Nat :=
  let scaled := fun l => l * s.colourFrac c.cls colour / 16
  let q := s.classCount c.port c.cls
  let alpha := s.rdf (offAdmPclassAlpha c.port c.cls) 3 0
  if scaled (s.rd (offAdmPclassStatic c.port c.cls)).toNat < q + g then some 3
  else if lossless then none
  else if alpha ≠ 0 ∧ scaled (s.freeStore * 2 ^ alpha / 256) < q + g then some 4
  else if scaled (s.rd (offAdmClassClodLimit c.cls)).toNat < (s.clod c.clod).count + g then some 5
  else if scaled (s.rd (offAdmClassFlowLimit c.cls)).toNat < (s.flow c.flow).depth + g then some 6
  else none

/-- Tests 3 to 7 of a copy: admitted with its mark, or the cause it fails under. -/
def State.admitTests (s : State) (x : Frame) (c : Copy) (colour : Nat) (lossless : Bool) :
    (Option Nat × Bool) × State :=
  match s.limitTest c x.grains colour lossless with
  | some cause => ((some cause, false), s)
  | none =>
    let r := s.ecnDraw c.port c.cls (s.classCount c.port c.cls)
    if r.1 && !ecnCapable x then
      (if s.rdb (offAdmPclassEcn c.port c.cls) 30 then (some 7, false) else (none, false), r.2)
    else ((none, r.1), r.2)

/-- A copy is admitted: it joins its counts, the frame its ingress count once (R198, R210). -/
def State.admitNow (s : State) (f : Nat) (c : Copy) (mark : Bool) : State :=
  match s.frame f with
  | none => s
  | some x =>
    let s := (s.addCopy { c with mark := mark }).2
    let s := ((s.countCopy c x.grains).admCount 10).pmuOcc 1 x.pmuPos
    let s := if mark then (s.admCount 9).pmuOcc 11 (if c.port < 256 then c.port / 16 else 16) else s
    if x.src < 256 && x.ingress.isNone then
      (s.frameMod f fun x => { x with ingress := some c.cls }).setIngress x.src c.cls
        (s.ingressCount x.src c.cls + x.grains) true
    else s

/-- A copy of a frame runs tests 3 to 7 and is admitted or counted under its cause. -/
def State.admitCopy (s : State) (f : Nat) (c : Copy) (colour : Nat) (lossless : Bool) : State :=
  match s.frame f with
  | none => s
  | some x =>
    match s.admitTests x c colour lossless with
    | ((some cause, _), s) => (s.admFail x cause).reportDrop f
    | ((none, mark), s) => s.admitNow f c mark

/-- Test 2 for a frame that would rest in a tier: none where it passes, else the cause. -/
def State.tierTest (s : State) (x : Frame) (t : Nat) : Option Nat :=
  if s.tierFits t x then none else some (if t = 0 then 1 else 2)

/-- A frame whose one copy is c runs tests 2 to 7 (R205, R211). -/
def State.admitOne (s : State) (f : Nat) (c : Copy) (colour : Nat) (lossless : Bool) : State :=
  match s.frame f with
  | none => s
  | some x =>
    let place := if 1 < x.refs then (0, false) else s.placeAt x (s.flow c.flow).depth
    let s := if place.2 then s.raiseEvt offTierEvt 1 else s
    match s.tierTest x place.1 with
    | some cause => (s.admFail x cause).reportDrop f
    | none => (s.frameMod f fun x => { x with dest := place.1 }).admitCopy f c colour lossless

/-- The port and class a frame was received in is lossless (R207). -/
def State.lossless (s : State) (x : Frame) (cls : Nat) : Bool := x.src < 256 && s.rdb (offAdmIngressCtl x.src) cls

/-- A direct delivery (R33, R110, R152, R165, R180, R186): admitted green, every test from test 2 on (R199, R207). -/
def State.direct (s : State) (f : Nat) (c : Copy) : State := s.admitOne f c 0 false

end Sys2Proof.Machine
end

