-- ==== Sys2Proof/Machine/Mesh.lean ====
section
/-! DEFINITION. The mesh: payload matcher, rule tables, lookup, rule-set commits, and the replication tables
(chapter 07, R159 to R172, R184, R193 to R195). -/

namespace Sys2Proof.Machine

/-! ## Banks -/

/-- The state beside the mesh registers is changed. -/
def State.meshMod (s : State) (f : Mesh → Mesh) : State := { s with mesh := f s.mesh }

/-- A banked register of a bed as a bank holds it. -/
def State.bankRd (s : State) (bank off : Nat) : Word := s.rd (off + bank * bankSpan)

/-- The active mesh bank of a bed. -/
def State.meshBank (s : State) (b : Nat) : Nat := s.rdf (offMeshEpoch b) 23 23

/-- The standby bank is busy (R171). -/
def State.meshBusy (s : State) (b : Nat) : Bool := s.rdb (offMeshEpoch b) 22

/-- A frame is in flight between its pass-0 window and its final action word (R170). -/
def Frame.inFlight (x : Frame) : Bool := x.path == .recirc || (x.path == .window && 0 < x.pass)

/-- MESH.EPOCH.OLD_IN_FLIGHT (R170). -/
def State.oldInFlight (s : State) (b : Nat) : Nat :=
  (s.framesWhere fun x => x.bed == b && x.inFlight && x.bank != s.meshBank b).length

/-- A commit of the standby rule bank (R171, R172). -/
def State.meshCommit (s : State) (b : Nat) : State :=
  if s.meshBusy b then (s.wrb (offMeshEpoch b) 21 true).raiseEvt (offMeshEvt b) 1
  else
    let s := s.wrf (offMeshEpoch b) 31 23 ((s.rdf (offMeshEpoch b) 31 24 + 1) % 256 * 2 + (1 - s.meshBank b))
    if s.oldInFlight b = 0 then s.raiseEvt (offMeshEvt b) 0 else s.wrb (offMeshEpoch b) 22 true

/-- A commit arrives from one of its sources, a pulse or a write: both in the same cycle are one commit (R171). `k` is where the last
one is kept. -/
def State.commitOnce (s : State) (k : Nat) (pulse : Bool) (f : State → State) : State :=
  if sget (fun _ => none) s.mesh.commits k = some (s.cycle, !pulse) then s
  else (f s).meshMod fun m => { m with commits := sset (fun _ => none) m.commits k (some (s.cycle, pulse)) }

/-- A commit of the standby rule bank from a source. -/
def State.meshCommitBy (s : State) (b : Nat) (pulse : Bool) : State := s.commitOnce (2 * b) pulse fun s => s.meshCommit b

/-- A write of MESH.CTL. -/
def State.meshCtlWrite (s : State) (b : Nat) (v : Word) : State :=
  let s := s.wr (offMeshCtl b) (v &&& 0x7F0CFFFF)
  if bit 31 v then s.meshCommitBy b false else s

/-- R171: MESH.CTL is written with COMMIT. -/
def execMeshCommit (b : BedIx) (v : Word) (s : State) : Host.Outcome State Fault Refusal :=
  .next (s.cfg (offMeshCtl b) fun s => s.meshCtlWrite b (setBit 31 true v))

/-- R171: no frame of the old bank is in flight any more. -/
def execMeshDrained (b : BedIx) (s : State) : Host.Outcome State Fault Refusal :=
  if s.meshBusy b && s.oldInFlight b = 0 then
    .next ((s.wrb (offMeshEpoch b) 22 false).raiseEvt (offMeshEvt b) 0)
  else .next s

/-! ## Rule tables (R161, R162, R194) -/

/-- The key of a rule in the state's table: bed, bank, table (0 exact, 1 masked), index. -/
def ruleKey (b bank table i : Nat) : Nat := ((2 * b + bank) * 2 + table) * 16384 + i

/-- A rule. -/
def State.rule (s : State) (k : Nat) : Option MeshRule := sget (fun _ => none) s.mesh.rules k

/-- A rule takes a value. -/
def State.setRule (s : State) (k : Nat) (r : Option MeshRule) : State :=
  s.meshMod fun m => { m with rules := sset (fun _ => none) m.rules k r }

/-- The slot a key hashes to in a way: H0, or H1 with the bank's seed (R161). -/
def State.keySlot (s : State) (b bank way : Nat) (key : List Byte) : Nat :=
  crc (meshCrc (if way = 0 then 0xFFFFFFFF else (s.bankRd bank (offMeshHashSeed b)).toNat)) key % 8192

/-- A masked rule's key agrees with a key where the mask has ones. -/
def maskHit (key rkey mask : List Word) : Bool :=
  (List.range 12).all fun i => (key.getD i 0 ^^^ rkey.getD i 0) &&& mask.getD i 0 == 0

/-- What a lookup used: 0 default, 1 exact, 2 masked; its RULE and its action words (R162, R176). -/
def State.meshLookup (s : State) (b bank shape : Nat) (key : List Byte) : Nat × Nat × List Word :=
  let kw := leWords key
  let exact := [0, 1].findSome? fun way =>
    let i := way * 8192 + s.keySlot b bank way key
    match s.rule (ruleKey b bank 0 i) with
    | some r => if r.valid && r.key == kw then some (1, i, r.act) else none
    | none => none
  let masked := s.mesh.rules.findSome? fun e =>
    match e.2 with
    | some r =>
      if ruleKey b bank 1 0 ≤ e.1 && e.1 < ruleKey b bank 1 2048 && r.valid && maskHit kw r.key r.mask then
        some (r.override, (2, e.1 - ruleKey b bank 1 0, r.act))
      else none
    | none => none
  match exact, masked with
  | _, some (true, r) => r
  | some r, _ => r
  | none, some (_, r) => r
  | none, none => (0, shape, (List.range 4).map fun w => s.bankRd bank (offMeshDefault b shape w))

/-- Action words with their reserved bits zero (R9, R164). -/
def actWords (ws : List Word) : List Word :=
  [ws.getD 0 0 &&& 0xFF8FFFFF, ws.getD 1 0 &&& 0xFFFC01FF, ws.getD 2 0 &&& 0xFFFF0000, 0]

/-- MESH.TBL_ADDR: the table and the index in it. -/
def State.tblAddr (s : State) (b : Nat) : Nat × Nat :=
  let a := s.rd (offMeshTblAddr b)
  if fld 31 30 a = 1 then (1, fld 10 0 a) else (0, fld 13 0 a)

/-- TBL_DATA takes an entry. -/
def State.tblShow (s : State) (b : Nat) (r : Option MeshRule) : State :=
  let r := r.getD { key := [], mask := [], act := [], valid := false, override := false }
  let pad := fun (n : Nat) (ws : List Word) => ws ++ List.replicate (n - ws.length) 0
  s.wrs (offMeshTblData b 0) (pad 12 r.key ++ pad 12 r.mask ++ pad 4 r.act
    ++ [w32 (b2n r.valid * 2 ^ 31 + b2n r.override * 2 ^ 30)])

/-- MESH.TBL_CMD takes an OP. -/
def State.tblOp (s : State) (b op : Nat) : State := s.wrf (offMeshTblCmd b) 1 0 op

/-- A table write is refused (R161, R172). -/
def State.tblRefuse (s : State) (b : Nat) : State :=
  (s.wrb (offMeshTblCmd b) 29 true).raiseEvt (offMeshEvt b) 2

/-- R194: TBL_CMD OP 0: an entry is read, of the standby bank or with READ_ACTIVE of the active one. -/
def State.tblRead (s : State) (b : Nat) : State :=
  let bank := if s.rdb (offMeshTblAddr b) 29 then s.meshBank b else 1 - s.meshBank b
  s.tblShow b (s.rule (ruleKey b bank (s.tblAddr b).1 (s.tblAddr b).2))

/-- R194: TBL_CMD OP 1: an entry of the standby bank is written, or the write refused. -/
def State.tblWrite (s : State) (b : Nat) : State :=
  let bank := 1 - s.meshBank b
  let (table, i) := s.tblAddr b
  let d := fun at0 n => s.rds (offMeshTblData b at0) n
  let flags := s.rd (offMeshTblData b 28)
  let r : MeshRule :=
    { key := d 0 12, mask := if table = 1 then d 12 12 else [], act := actWords (d 24 4), valid := bit 31 flags
      override := table = 1 && bit 30 flags }
  let homeless := table = 0 && r.valid && s.keySlot b bank (i / 8192) (wordBytes r.key) != i % 8192
  if s.meshBusy b || homeless then s.tblRefuse b
  else s.setRule (ruleKey b bank table i) (some r)

/-- R194: TBL_CMD OP 2: an entry's VALID is cleared, or the command refused. -/
def State.tblClear (s : State) (b : Nat) : State :=
  let k := ruleKey b (1 - s.meshBank b) (s.tblAddr b).1 (s.tblAddr b).2
  if s.meshBusy b then s.tblRefuse b
  else s.setRule k ((s.rule k).map fun r => { r with valid := false })

/-- R194: MESH.TBL_CMD is written with GO and OP 0 or 3. -/
def execMeshTblRead (b : BedIx) (s : State) : Host.Outcome State Fault Refusal :=
  .next (s.cfg (offMeshTblCmd b) fun s => (s.tblOp b 0).tblRead b)

/-- R194: MESH.TBL_CMD is written with GO and OP 1. -/
def execMeshTblWrite (b : BedIx) (s : State) : Host.Outcome State Fault Refusal :=
  .next (s.cfg (offMeshTblCmd b) fun s => (s.tblOp b 1).tblWrite b)

/-- R194: MESH.TBL_CMD is written with GO and OP 2. -/
def execMeshTblClear (b : BedIx) (s : State) : Host.Outcome State Fault Refusal :=
  .next (s.cfg (offMeshTblCmd b) fun s => (s.tblOp b 2).tblClear b)

/-! ## The payload matcher (R167, R168) -/

/-- The matcher runs for a source. -/
def State.pmRuns (s : State) (b src : Nat) : Bool :=
  s.hasMatcher && s.rdb (offMeshCtl b) (if src < 256 then src % 16 else if src = 256 then 18 else 19)

/-- Pattern k of a bank matches a frame whose first pass's PAYLOAD_OFF is given. -/
def State.patternHit (s : State) (b bank k payload : Nat) (bs : List Byte) : Bool :=
  let ctl := s.bankRd bank (offPatternCtl b k)
  let off := s.bankRd bank (offPatternOff b k)
  let mask := s.bankRd bank (offPatternMask b k)
  let len := min 32 (max 1 (fld 21 16 ctl))
  let base := if bit 30 ctl then payload else 0
  bit 31 ctl && (List.range (fld 26 16 off + 1 - fld 10 0 off)).any fun i =>
    let st := base + fld 10 0 off + i
    st + len ≤ min bs.length 2048 && (List.range len).all fun j =>
      !bit j mask || byteAt bs (st + j) == fld (8 * (j % 4) + 7) (8 * (j % 4)) (s.bankRd bank (offPatternBytes b k (j / 4)))

/-- The pattern groups that match a frame. -/
def State.pmGroups (s : State) (b bank payload : Nat) (bs : List Byte) : Nat :=
  ((List.range 512).foldl (fun (g : Word) k =>
    if s.patternHit b bank k payload bs then setBit (fld 27 24 (s.bankRd bank (offPatternCtl b k))) true g else g) 0).toNat

/-- R167: the pass's match bitmap is final: of a frame that waits for its next pass. -/
def execPayloadMatchFinal (f : Nat) (s : State) : Host.Outcome State Fault Refusal :=
  match s.frame f with
  | some x =>
    if x.path == .recirc && x.bitmap == none then
      let g := if s.pmRuns x.bed x.src then s.pmGroups x.bed x.bank x.parse.payload x.bytes else 0
      .next (s.frameMod f fun x => { x with bitmap := some g })
    else .next s
  | none => .next s

/-! ## Rewrite commits (R193) -/

/-- The active rewrite bank of a bed. -/
def State.rewBank (s : State) (b : Nat) : Nat := s.rdf (offRewriteCtl b) 15 15

/-- The rewrite standby bank is busy. -/
def State.rewBusy (s : State) (b : Nat) : Bool := s.rdb (offRewriteCtl b) 14

/-- An edit of the bed has started less than 12 cycles ago. -/
def State.editing (s : State) (b : Nat) : Bool :=
  match sget (fun _ => none) s.mesh.lastEdit b with | some t => s.now < t + 48 | none => false

/-- A commit of programs and templates (R193). -/
def State.rewCommit (s : State) (b : Nat) : State :=
  if s.rewBusy b then (s.wrb (offRewriteCtl b) 16 true).raiseEvt (offRewriteEvt b) 1
  else (s.wrf (offRewriteCtl b) 15 15 (1 - s.rewBank b)).wrb (offRewriteCtl b) 14 (s.editing b)

/-- A commit of programs and templates from a source. -/
def State.rewCommitBy (s : State) (b : Nat) (pulse : Bool) : State := s.commitOnce (2 * b + 1) pulse fun s => s.rewCommit b

/-- A write of REWRITE.CTL. -/
def State.rewCtlWrite (s : State) (b : Nat) (v : Word) : State :=
  let old := s.rd (offRewriteCtl b)
  let keep := old &&& 0x0001C000 &&& ~~~ (v &&& 0x00010000)
  let s := s.wr (offRewriteCtl b) ((v &&& 0x7F000000) ||| keep)
  if bit 31 v then s.rewCommitBy b false else s

/-- R193: REWRITE.CTL is written with COMMIT. -/
def execRewriteCommit (b : BedIx) (v : Word) (s : State) : Host.Outcome State Fault Refusal :=
  .next (s.cfg (offRewriteCtl b) fun s => s.rewCtlWrite b (setBit 31 true v))

/-- R193: twelve cycles have passed since the last edit under the old bank started. -/
def execRewriteDrained (b : BedIx) (s : State) : Host.Outcome State Fault Refusal :=
  if s.rewBusy b then .next (s.wrb (offRewriteCtl b) 14 false) else .next s

/-! ## Replication tables (R184, R195) -/

/-- A group entry. -/
def State.replGroup (s : State) (g : Nat) : Word := sget (fun _ => 0) s.mesh.groups (g % 4096)

/-- A member entry. -/
def State.replMember (s : State) (m : Nat) : List Word := sget (fun _ => [0, 0, 0]) s.mesh.members (m % 65536)

/-- REPL.CMD takes an OP. -/
def State.replOp (s : State) (op : Nat) : State := s.wrf offReplCmd 1 0 op

/-- REPL.ADDR: a member is addressed, and which entry. -/
def State.replAddr (s : State) : Bool × Nat := (s.rdb offReplAddr 31, s.rdf offReplAddr 15 0)

/-- R195: REPL.CMD OP 0. -/
def State.replRead (s : State) : State :=
  let (member, i) := s.replAddr
  s.wrs (offReplData 0) (if member then s.replMember i ++ [0] else [s.replGroup i, 0, 0, 0])

/-- A group entry takes a value. -/
def State.setGroup (s : State) (g : Nat) (w : Word) : State :=
  s.meshMod fun m => { m with groups := sset (fun _ => 0) m.groups (g % 4096) w }

/-- A member entry takes a value. -/
def State.setMember (s : State) (i : Nat) (ws : List Word) : State :=
  s.meshMod fun m => { m with members := sset (fun _ => [0, 0, 0]) m.members (i % 65536) ws }

/-- R195: REPL.CMD OP 1. -/
def State.replWrite (s : State) : State :=
  let (member, i) := s.replAddr
  let d := fun w => s.rd (offReplData w)
  if member then s.setMember i [d 0, d 1 &&& 0x03FFFFFF, d 2 &&& 0xFE0001FF] else s.setGroup i (d 0 &&& 0x81FFFFFF)

/-- R195: REPL.CMD OP 2. -/
def State.replClear (s : State) : State :=
  let (member, i) := s.replAddr
  if member then s.setMember i [0, 0, 0] else s.setGroup i (setBit 31 false (s.replGroup i))

/-- R195: REPL.CMD is written with GO and OP 0 or 3. -/
def execReplRead (s : State) : Host.Outcome State Fault Refusal :=
  .next (s.cfg offReplCmd fun s => (s.replOp 0).replRead)

/-- R195: REPL.CMD is written with GO and OP 1. -/
def execReplWrite (s : State) : Host.Outcome State Fault Refusal :=
  .next (s.cfg offReplCmd fun s => (s.replOp 1).replWrite)

/-- R195: REPL.CMD is written with GO and OP 2. -/
def execReplClear (s : State) : Host.Outcome State Fault Refusal :=
  .next (s.cfg offReplCmd fun s => (s.replOp 2).replClear)

end Sys2Proof.Machine
end

