-- ==== Sys2Proof/Machine/Handoff.lean ====
section
/-! DEFINITION. The pass of a frame through the bed and the flow handoff interface: parser pipes, action words, handles,
keys, verdicts, timeouts, multicast and mirror copies, recirculation (chapters 06 and 07, R135 to R186). -/

namespace Sys2Proof.Machine

/-! ## Parser pipes (R139 to R141, R446) -/

/-- Pipe k of a bed is mapped out (R446, R460). -/
def State.pipeMapped (s : State) (b k : Nat) : Bool := s.mapped 2 (5 * b + k)

/-- Pipe k of a bed is FAULTED: by its bit, or because it is mapped out. -/
def State.pipeFaulted (s : State) (b k : Nat) : Bool := s.rdb (offParsePipeStatus b) (16 + k) || s.pipeMapped b k

/-- Pipe k of a bed is on trial (R446). -/
def State.pipeTrial (s : State) (b k : Nat) : Option Nat := sget (fun _ => none) s.mesh.trial (8 * b + k)

/-- A pipe's trial changes. -/
def State.setTrial (s : State) (b k : Nat) (v : Option Nat) : State :=
  s.meshMod fun m => { m with trial := sset (fun _ => none) m.trial (8 * b + k) v }

/-- The pipe in slot i of a map word: 7 for an empty slot. -/
def slotPipe (w : Word) (i : Nat) : Nat := fld (4 * i + 2) (4 * i) w

/-- The pipe in slot i of a bed. -/
def State.slot (s : State) (b i : Nat) : Nat := slotPipe (s.rd (offParsePipeMap b)) i

/-- Pipe k is in a slot of a map word. -/
def inMap (w : Word) (k : Nat) : Bool := (List.range 4).any fun i => slotPipe w i == k

/-- PARSE.PIPE_MAP takes a map, and IN_USE follows. -/
def State.setPipeMap (s : State) (b : Nat) (w : Word) : State :=
  let s := s.wr (offParsePipeMap b) w
  (List.range 5).foldl (fun s k => s.wrb (offParsePipeStatus b) k (inMap w k)) s

/-- A map word names a pipe twice, a reserved pipe, or one that is FAULTED or on trial (R139, R446). -/
def State.pipeMapBad (s : State) (b : Nat) (w : Word) : Bool :=
  (List.range 4).any fun i =>
    let k := slotPipe w i
    k == 5 || k == 6 || (k != 7 && ((s.pipeFaulted b k || (s.pipeTrial b k).isSome) ||
      (List.range i).any fun j => slotPipe w j == k))

/-- A write of PARSE.PIPE_MAP (R139). A pipe that leaves the map finishes its windows within the command; BUSY runs from a write that
changes a slot. -/
def State.pipeMapWrite (s : State) (b : Nat) (v : Word) : State :=
  let w := v &&& 0x00017777
  if s.pipeMapBad b w then (s.wrb (offParsePipeStatus b) 5 true).raiseEvt (offParseEvt b) 4
  else
    let changed := (w ^^^ s.rd (offParsePipeMap b)) &&& 0x7777 != 0
    let s := s.setPipeMap b w
    if changed then s.meshMod fun m => { m with mapAt := sset (fun _ => none) m.mapAt b (some s.cycle) } else s

/-- PARSE.PIPE_MAP.BUSY: for 8 cycles after a map change (R139). -/
def State.mapBusy (s : State) (b : Nat) : Bool :=
  match sget (fun _ => none) s.mesh.mapAt b with | some c => decide (s.cycle < c + 8) | none => false

/-- A write of PARSE.CTL: a TPID_EXTRA that R143 recognises as another type raises TPID_BAD; 0, which disables the third tag, does not
(R144; DEDUCED, assumption 93). -/
def State.parseCtlWrite (s : State) (b : Nat) (v : Word) : State :=
  let s := s.wr (offParseCtl b) (v &&& 0x8F0FFFFF)
  if fld 15 0 v != 0 && tpidBad (fld 15 0 v) then s.raiseEvt (offParseEvt b) 5 else s

/-- R139: PARSE.PIPE_MAP is written. -/
def execPipeMapWrite (b : BedIx) (v : Word) (s : State) : Host.Outcome State Fault Refusal :=
  .next (s.cfg (offParsePipeMap b) fun s => s.pipeMapWrite b v)

/-- A frame is discarded under DROP_PARSE_FAULT (R140, R141). -/
def State.parseFault (s : State) (f b : Nat) : State :=
  ((s.inc (offParseCnt b 0) (offParseEvt b) 6).reportDrop f).discardAll f

/-- A spare that can take a slot: outside the map, not FAULTED, not on trial. Where several can, the lowest numbered does, which the spec
leaves open (DESIGN CHOICE, assumption 94). -/
def State.spare (s : State) (b : Nat) : Option Nat :=
  (List.range 5).find? fun k =>
    !inMap (s.rd (offParsePipeMap b)) k && !s.pipeFaulted b k && (s.pipeTrial b k).isNone

/-- A pipe faults (R140). -/
def State.pipeFault (s : State) (b k : Nat) : State :=
  let s := (s.wrb (offParsePipeStatus b) (16 + k) true).raiseEvt (offParseEvt b) 1
  match (List.range 4).find? fun i => s.slot b i == k with
  | none => s
  | some i =>
    let w := s.rd (offParsePipeMap b)
    match (if bit 16 w then s.spare b else none) with
    | some sp => (s.setPipeMap b (setFld (4 * i + 2) (4 * i) sp w)).raiseEvt (offParseEvt b) 3
    | none => s.setPipeMap b (setFld (4 * i + 2) (4 * i) 7 w)

/-- R446: a pipe on trial has matched 1,024 windows. -/
def execPipeTrialPass (b : BedIx) (pipe : Fin 5) (s : State) : Host.Outcome State Fault Refusal :=
  match s.pipeTrial b pipe with
  | some n => if 1024 ≤ n then .next (s.setTrial b pipe none) else .next s
  | none => .next s

/-- The slot whose turn to be audited is next: the first filled one from a slot on, cyclically (R141). -/
def State.auditSlot (s : State) (b turn : Nat) : Option Nat :=
  ((List.range 4).map fun i => (turn + i) % 4).find? fun i => s.slot b i != 7

/-- A window passes a bed's audit: it is counted, and once 2^(AUDIT_RATE + 6) have passed, the next window of the slot whose turn it
is is audited (R141). -/
def State.auditDue (s : State) (b pslot : Nat) : Bool × State :=
  if !s.rdb (offParseCtl b) 31 || (s.spare b).isNone then (false, s)
  else
    let (n, turn) := sget (fun _ => (0, 0)) s.mesh.audit b
    let due := decide (2 ^ (s.rdf (offParseCtl b) 27 24 + 6) ≤ n + 1) && s.auditSlot b turn == some pslot
    let v := if due then (0, (pslot + 1) % 4) else (n + 1, turn)
    (due, s.meshMod fun m => { m with audit := sset (fun _ => (0, 0)) m.audit b v })

/-- The windows of some frames, at most 7, that a pipe of a bed holds: their frames are discarded (R140). -/
def State.dropWindows (s : State) (b : Nat) (held : List Nat) : State :=
  let mine := (held.take 7).filter fun f => match s.frame f with
    | some x => x.bed == b && x.path == .window
    | none => false
  mine.foldl (fun s f => s.parseFault f b) s

/-- A pipe outside the map re-parses a window that a slot's pipe has parsed. On trial it counts the window, or faults again where its
result differs (R446). -/
def State.trialWindow (s : State) (b pipe : Nat) (bad : Bool) : State :=
  match s.pipeTrial b pipe with
  | some n =>
    if inMap (s.rd (offParsePipeMap b)) pipe then s
    else if bad then ((s.setTrial b pipe none).wrb (offParsePipeStatus b) (16 + pipe) true).raiseEvt (offParseEvt b) 1
    else s.setTrial b pipe (some (n + 1))
  | none => s

/-- The spare audits a window of frame f whose turn it is, and its result differs or not. The Bool tells that the frame is discarded. A
second mismatch faults the slot's pipe, and the other windows it holds, `held`, are lost (R141). -/
def State.auditWindow (s : State) (f b pslot : Nat) (bad : Bool) (held : List Nat) : Bool × State :=
  let k := s.slot b pslot
  match s.auditDue b pslot with
  | (false, s) => (false, s)
  | (true, s) =>
    let s := s.inc (offParseCnt b 2) (offParseEvt b) 6
    if !bad then (false, s)
    else
      let again := s.rdb (offParsePipeStatus b) (8 + k)
      let s := (s.wrb (offParsePipeStatus b) (8 + k) true).raiseEvt (offParseEvt b) 2
      (true, if again then (s.dropWindows b (held.filter (· != f))).pipeFault b k else s)

/-- What the pipes outside the map make of a window: `recheck` names one and tells whether its result differs. -/
def State.recheck (s : State) (f b pslot : Nat) (recheck : Option (Fin 5 × Bool × List Nat)) : Bool × State :=
  let bad := match recheck with | some (k, bad, _) => bad && s.spare b == some k.val | none => false
  let held := match recheck with | some (_, _, held) => held | none => []
  let s := match recheck with | some (k, bad, _) => s.trialWindow b k bad | none => s
  s.auditWindow f b pslot bad held

/-! ## Direct deliveries and malformed actions -/

/-- A copy whose fields come from a DEST and a FLOW register (layout of MAC.BAD_DEST and BAD_FLOW). -/
def destCopy (f port : Nat) (dest flow : Word) : Copy :=
  { frame := f, port := port, cls := fld 31 29 dest, clod := fld 19 0 dest, flow := fld 25 0 flow, ring := fld 28 20 dest }

/-- A frame is delivered directly, and its path ends. -/
def State.deliver (s : State) (f : Nat) (c : Copy) : State := (s.direct f c).pathEnd f

/-- A malformed code is found: counted, with its MF_SEEN bit and event (R155, R156). -/
def State.mfFound (s : State) (b c : Nat) : State :=
  let s := s.inc (offParseCntMf b (c - 1)) (offParseEvt b) 6
  if s.rdb (offParseMfSeen b) (c - 1) then s else (s.wrb (offParseMfSeen b) (c - 1) true).raiseEvt (offParseEvt b) 0

/-- A code's action: 0 DROP (3 acts as it), 1 PUNT, 2 FORWARD_FLAGGED (R152). -/
def State.mfAction (s : State) (b c : Nat) : Nat :=
  let a := s.rdf (offParseMfAction b) (2 * c - 1) (2 * c - 2)
  if a = 3 then 0 else a

/-- A frame's finished tail check found a code under DROP: admission discards the frame whatever else it is told (R153). -/
def State.tailDrop (s : State) (x : Frame) : Bool := x.tailCode != 0 && s.mfAction x.bed x.tailCode == 0

/-- A frame takes its code's DROP or PUNT (R152); with FORWARD_FLAGGED it carries the code and goes on, with `k`. -/
def State.mfApply (s : State) (f b c : Nat) (k : State → State) : State :=
  let drop := match s.frame f with | some x => s.tailDrop x | none => false
  let s := s.frameMod f fun x => { x with mf := c }
  match (if drop then 0 else s.mfAction b c) with
  | 0 => (s.reportDrop f).discardAll f
  | 1 => s.deliver f { destCopy f 256 (s.rd (offParseMfPuntDest b)) (s.rd (offParseMfPuntFlow b)) with reason := 2 }
  | _ => k s

/-! ## Admission of what a frame's path ends in -/

/-- The HANDOFF_TIMEOUT action (R180); only a timeout is counted as one. -/
def State.timeoutAction (s : State) (f b : Nat) (counted : Bool) : State :=
  let s := if counted then (s.inc (offFhiCnt b 2) (offFhiEvt b) 4).raiseEvt (offFhiEvt b) 0 else s
  let ctl := s.rd (offFhiCtl b)
  let port := fld 28 20 ctl
  let send := fun p => s.deliver f { destCopy f p (s.rd (offFhiToDest b)) (s.rd (offFhiToFlow b)) with reason := 5 }
  match fld 17 16 ctl with
  | 1 => send 256
  | 2 => if port < 256 || port = 258 then send port else (s.dropTel (s.posN b) 8).discard f
  | _ => (s.dropTel (s.posN b) 8).discard f

/-- The PUNT of a final action word (R165). -/
def State.meshPunt (s : State) (f : Nat) (x : Frame) : State :=
  let a0 := x.act.getD 0 0
  let c := destCopy f 256 (s.rd (offMeshPuntDest x.bed)) (s.rd (offMeshPuntFlow x.bed))
  s.deliver f { c with reason := 1, ring := fld 8 0 (x.act.getD 1 0), cls := if bit 27 a0 then fld 26 24 a0 else c.cls }

/-- Word i of a message. -/
def msgWord (m : List Byte) (i : Nat) : Word := w32 (leNat (bytesAt m (4 * i) 4))

/-- The copy that a verdict describes for a port (R177, R183). -/
def verdictCopy (f : Nat) (x : Frame) (m : List Byte) (port : Nat) : Copy :=
  let w0 := msgWord m 0
  let w1 := msgWord m 1
  let w2 := msgWord m 2
  let a0 := x.act.getD 0 0
  let a1 := x.act.getD 1 0
  { frame := f, port := port
    cls := if bit 4 w0 && bit 27 a0 then fld 26 24 a0 else fld 22 20 w1
    clod := fld 19 0 w1, flow := fld 25 0 w2, ring := fld 31 23 w1
    prog := if bit 8 w0 then some (fld 31 26 w2) else none
    operands := bytesAt m 16 16
    tsReq := bit 7 w0 || bit 21 a1
    assay := if bit 6 w0 then some (fld 3 0 w0) else if bit 26 a1 then some (fld 25 22 a1) else none }

/-- The members of a group entry: 0 stands for 256, and so does what is above (R184). -/
def groupCount (w : Word) : Nat := let n := fld 24 16 w; if n = 0 || 256 < n then 256 else n

/-- A frame goes to the replicator, after test 2 (R184, R206). -/
def State.toReplicator (s : State) (f : Nat) (x : Frame) (g : Nat) : State :=
  let w := s.replGroup g
  if !bit 31 w then (s.dropTel 16 10).discard f
  else
    let first := s.replMember (fld 15 0 w)
    let place := if groupCount w = 1 && x.refs ≤ 1 then s.placeAt x (s.flow (fld 25 0 (first.getD 1 0))).depth else (0, false)
    let s := if place.2 then s.raiseEvt offTierEvt 1 else s
    match s.tierTest x place.1 with
    | some cause => (s.admFail x cause).discard f
    | none => s.frameMod f fun x => { x with path := .repl, group := w, dest := place.1 }

/-- Admission acts on a matched verdict: the override meter and the red discard first, then its action (R179, R203 to
R207). -/
def State.verdictAction (s : State) (f : Nat) (m : List Byte) : State :=
  match s.frame f with
  | none => s
  | some x =>
    let w0 := msgWord m 0
    let act := fld 11 9 w0
    let dest := fld 31 23 (msgWord m 1)
    let b := x.bed
    let s := if bit 5 w0 then s.meterOverride f (fld 19 0 (msgWord m 3)) else s
    match s.frame f with
    | none => s
    | some x =>
      if x.colour = 2 && x.redDrop then (s.admFail x 0).discard f
      else if 4 ≤ act || (act = 0 && 256 ≤ dest && dest ≠ 258) then
        ((s.inc (offFhiCnt b 5) (offFhiEvt b) 4).raiseEvt (offFhiEvt b) 2).discard f
      else if act = 2 then (s.inc (offFhiCnt b 4) (offFhiEvt b) 4).discard f
      else
        if act = 1 then s.toReplicator f x (fld 31 20 (msgWord m 3))
        else
          let c := verdictCopy f x m (if act = 3 then 256 else dest)
          (s.admitOne f c x.colour (s.lossless x c.cls)).pathEnd f

/-- A frame whose fate is known and whose tail check is done is acted on (R153, R179, R180). A frame that carries a code already and
goes on under a tail code keeps the one it carries (DEDUCED, assumption 95). -/
def State.settleNow (s : State) (f : Nat) : State :=
  match s.frame f with
  | none => s
  | some x =>
    let go := fun (s : State) => match x.fate with
      | some (.verdict m) => s.verdictAction f m
      | some .timeout => s.timeoutAction f x.bed true
      | some .exhausted => s.timeoutAction f x.bed false
      | some .punt => s.meshPunt f x
      | none => s
    if x.tailCode = 0 then go s
    else s.mfApply f x.bed x.tailCode fun s => go (if x.mf = 0 then s else s.frameMod f fun y => { y with mf := x.mf })

/-- Admission of a frame of the bed that takes a position over is held while the bed that gives it up has a frame not yet
admitted (R449). -/
def State.takeHeld (s : State) (x : Frame) : Bool :=
  s.swapState == 5 && x.bed == s.swapBeds.2 &&
    (s.framesWhere fun y => y.bed == s.swapBeds.1 && y.path != .repl && y.path != .copies) != []

/-- A frame waits in its bed for an admission entry: earlier frames of its position hold them all (R24, R25). -/
def State.admitHeld (s : State) (f : Nat) (x : Frame) : Bool :=
  match x.pos with
  | some p => !s.granted (.admission p) ||
      Crossing.pool (.admission p) ≤ ((s.framesWhere fun y => y.path == .settle && y.pos == some p).filter (· < f)).length
  | none => false

/-- A frame that its verdict sends to the replicator waits for an entry of it (R24, R25). -/
def State.replHeld (s : State) (x : Frame) : Bool :=
  match x.fate with
  | some (.verdict m) => fld 11 9 (msgWord m 0) == 1 && (x.tailCode == 0 || s.mfAction x.bed x.tailCode == 2) && !s.mayCross .replication 1
  | _ => false

/-- A frame is acted on, unless its admission is held. -/
def State.settleFate (s : State) (f : Nat) : State :=
  match s.frame f with
  | some x => if s.takeHeld x || s.admitHeld f x || s.replHeld x then s else s.settleNow f
  | none => s

/-- Frames whose admission was held are acted on where it no longer is, in the order they came in. -/
def State.releaseHeld (s : State) : State :=
  (s.framesWhere fun x => x.path == .settle && !x.tail).foldl (fun s f => s.settleFate f) s

/-- A frame's fate becomes known: it is acted on now, or after its tail check. -/
def State.fateKnown (s : State) (f : Nat) (v : Fate) : State :=
  match s.frame f with
  | none => s
  | some x =>
    let s := s.setFrame f (some { x with fate := some v, path := .settle })
    if x.tail then s else s.settleFate f

/-! ## Handles (R173, R174) -/

/-- A handle. -/
def State.handle (s : State) (k : Nat) : Option Handle := sget (fun _ => none) s.mesh.handles k

/-- A handle changes. -/
def State.setHandle (s : State) (k : Nat) (h : Option Handle) : State :=
  s.meshMod fun m => { m with handles := sset (fun _ => none) m.handles k h }

/-- The generation of a slot. -/
def State.slotGen (s : State) (k : Nat) : Nat := sget (fun _ => 0) s.mesh.gens k

/-- The slots whose keys wait on a channel. -/
def State.keyQueue (s : State) (b c : Nat) : List Nat := sget (fun _ => []) s.mesh.keyq (4 * b + c)

/-- The keys that wait on a channel change. -/
def State.setKeyQueue (s : State) (b c : Nat) (q : List Nat) : State :=
  s.meshMod fun m => { m with keyq := sset (fun _ => []) m.keyq (4 * b + c) q }

/-- The first free slot of a bed from a slot on, cyclically: which slot a new handle takes is not fixed, and the command
names where the search begins. -/
def State.freeSlot (s : State) (b start : Nat) : Option Nat :=
  ((List.range 8192).map fun i => 8192 * b + (start + i) % 8192).find? fun k => (s.handle k).isNone

/-- A slot is freed: its generation moves on and its timeout stops (R173). -/
def State.freeHandle (s : State) (k : Nat) : State :=
  let s := (s.setHandle k none).stopTimer (.handoff k)
  s.meshMod fun m => { m with gens := smod (fun _ => 0) m.gens k fun g => (g + 1) % 128 }

/-- A frame's final action word is FORWARD: it takes a handle, is coloured and queues its key (R165, R173, R174). One that finds no
handle free is not metered: its path ends in a direct delivery or a discard (R199). -/
def State.handOff (s : State) (f start : Nat) : State :=
  match s.frame f with
  | none => s
  | some x =>
    match s.freeSlot x.bed start with
    | none => ((s.inc (offFhiCnt x.bed 6) (offFhiEvt x.bed) 4).raiseEvt (offFhiEvt x.bed) 3).fateKnown f .exhausted
    | some k =>
      let s := s.meterFrame f
      let c := crc32c (x.key.drop 4) % 4
      let s := (s.setHandle k (some { frame := f, chan := c })).setKeyQueue x.bed c (s.keyQueue x.bed c ++ [k])
      let s := s.frameMod f fun x => { x with handle := some k, path := .handoff }
      s.startTimer (.handoff k) (10 * max 20 (s.rdf (offFhiCtl x.bed) 15 0))

/-! ## A pass (R137, R154, R159, R162 to R171) -/

/-- The parser's settings of a bed. -/
def State.parseCfg (s : State) (b : Nat) : ParseCfg :=
  let c := s.rd (offParseCtl b)
  let u := s.rd (offParseUdpPort0 b)
  let o := s.rd (offParseGeneveOpt b)
  { tpidExtra := fld 15 0 c, mplsPayload := fld 19 18 c, geneveWalk := bit 17 c, csum := bit 16 c
    vxlan := fld 31 16 u, geneve := fld 15 0 u, gtpu := s.rdf (offParseUdpPort1 b) 31 16
    opt := if bit 15 o then some (fld 31 16 o, fld 7 0 o) else none }

/-- The original source in the key (R158). -/
def keySrc (src : Nat) : Nat := if src < 256 then src % 16 else if src = 256 then 16 else 17

/-- The shape of a pass (R159). -/
def State.passShape (s : State) (x : Frame) : Nat :=
  match x.nextShape with
  | some n => n
  | none =>
    let p := x.src % 16
    if x.src < 256 && !s.rdb (offMeshShapeAuto x.bed) p then s.rdf (offMeshShapeFix x.bed) (2 * p + 1) (2 * p)
    else autoShape x.parse

/-- A trace capture of a first pass (R147). -/
def State.trace (s : State) (x : Frame) : State :=
  let t := s.rd (offParseTraceCtl x.bed)
  let src := fld 4 0 t
  if bit 31 t && (!bit 8 t || x.parse.code != 0) && (17 ≤ src || src == (if x.src < 256 then x.src % 16 else 16)) then
    ((s.wrs (offParseTraceResult x.bed 0) x.parse.words).wrb (offParseTraceCtl x.bed) 31 false).wrb
      (offParseTraceCtl x.bed) 30 true
  else s

/-- The final action word of a frame is ready (R165, R186). -/
def State.finalAction (s : State) (f op start : Nat) : State :=
  match s.frame f with
  | none => s
  | some x =>
    let a1 := x.act.getD 1 0
    let s := if bit 31 a1 then
        s.frameMod f fun x => { x with mirror := some (fld 30 27 a1), refs := x.refs + 1 }
      else s
    match op with
    | 0 => s.handOff f start
    | 2 => (s.inc (offMeshCnt x.bed 4) (offMeshEvt x.bed) 3).fateKnown f .punt
    | _ => (s.inc (offMeshCnt x.bed 3) (offMeshEvt x.bed) 3).discard f

/-- The mesh classifies a pass (R162 to R165, R169). -/
def State.classify (s : State) (f start : Nat) : State :=
  match s.frame f with
  | none => s
  | some x =>
    let shape := s.passShape x
    let key := meshKey x.bytes x.parse shape (keySrc x.src) x.pass x.groups
    let (hit, rule, act) := s.meshLookup x.bed x.bank shape key
    let s := s.inc (offMeshCnt x.bed (if hit = 0 then 2 else hit - 1)) (offMeshEvt x.bed) 3
    let a1 := act.getD 1 0
    let op := fld 31 28 (act.getD 0 0)
    let s := s.frameMod f fun x =>
      { x with
        key := key, hit := hit, rule := rule, act := act
        nextShape := if bit 20 a1 then some (fld 19 18 a1) else none }
    if op = 3 then
      if x.pass < 2 then s.frameMod f fun x => { x with path := .recirc, bitmap := none }
      else
        let s := (s.mfFound x.bed 16).frameMod f fun x =>
          { x with act := setFld 31 28 0 (x.act.getD 0 0) :: x.act.drop 1, nextShape := none }
        s.mfApply f x.bed 16 fun s => s.finalAction f 0 start
    else s.finalAction f op start

/-- What bed b makes of a frame that its lanes deliver to it: the parse result, the first-pass epoch, the action word and the
colour (R137, R170, R199). -/
def State.bedView (s : State) (b : Nat) (x : Frame) : Parse × Nat × List Word × Nat :=
  let x := { x with bed := b, parse := parseFrame (s.parseCfg b) x.bytes }
  let shape := s.passShape x
  let (_, _, act) := s.meshLookup b (s.meshBank b) shape (meshKey x.bytes x.parse shape (keySrc x.src) 0 0)
  (x.parse, s.rdf (offMeshEpoch b) 31 24, act, s.colourOf { x with act := act })

/-- In SHADOW the position's lanes deliver a frame to both beds (R20), and the new bed compares what both make of it: it counts
as matched, or ends the shadow (R448). -/
def State.shadowSeen (s : State) (x : Frame) : State :=
  if s.swapState == 4 && x.src < 256 && x.bed == s.swapBeds.1 then
    if s.bedView s.swapBeds.1 x = s.bedView s.swapBeds.2 x then s.harmMod fun h => { h with matched := h.matched + 1 }
    else s.shadowMiss
  else s

/-- A pass-0 window is complete: parsed, stamped, its code counted and acted on (R152 to R156, R170). -/
def State.firstPass (s : State) (f start : Nat) : State :=
  match s.frame f with
  | none => s
  | some x =>
    let p := parseFrame (s.parseCfg x.bed) x.bytes
    let x := { x with
      parse := p, tail := p.tailPending
      epoch := s.rdf (offMeshEpoch x.bed) 31 24, bank := s.meshBank x.bed }
    let s := ((s.setFrame f (some x)).trace x).shadowSeen x
    if p.code = 0 then s.classify f start
    else (s.mfFound x.bed p.code).mfApply f x.bed p.code fun s => s.classify f start

/-- A later pass's window is complete (R154). -/
def State.laterPass (s : State) (f start : Nat) : State :=
  (s.frameMod f fun x => { x with parse := x.parse.laterPass }).classify f start

/-- The filled slots of a bed's pipe map. -/
def State.filled (s : State) (b : Nat) : Nat := ((List.range 4).filter fun i => s.slot b i != 7).length

/-- The windows that a bed has issued in the present beat, a CK_BED cycle (R136). -/
def State.beatUsed (s : State) (b : Nat) : Nat :=
  let (c, n) := sget (fun _ => (0, 0)) s.mesh.beat b
  if c = s.cycle then n else 0

/-- A bed can complete another window in the present beat: at most as many as slots are filled; four are enough for every frame that
the ports bring (R41, R136). -/
def State.beatRoom (s : State) (b : Nat) : Bool := s.filled b = 4 || s.beatUsed b < s.filled b

/-- A bed issues a window. -/
def State.beatTake (s : State) (b : Nat) : State :=
  s.meshMod fun m => { m with beat := sset (fun _ => (0, 0)) m.beat b (s.cycle, s.beatUsed b + 1) }

/-- A frame whose window is complete leaves where it waited: its FIFO for topsoil (R136), topsoil for the recirculation slot
of the bed that serves its position by then (R34, R37). -/
def State.toWindow (s : State) (f : Nat) (x : Frame) : State :=
  match x.path with
  | .fifo => (s.beatTake x.bed).writeFrame f { x with path := .window }
  | .slot => s.setFrame f (some { x with path := .window, bed := (x.pos.bind s.bedOf).getD x.bed })
  | _ => s

/-- A frame's parse window can be complete: it is in its bed, or the first that the bed can take. -/
def State.windowDue (s : State) (f : Nat) (x : Frame) : Bool :=
  x.path == .window || (x.path == .fifo && s.beatRoom x.bed) || (x.path == .slot && s.slotTurn f x)

/-- R137: a parse window is complete in a slot of the pipe map. A frame that waited in its FIFO first goes to topsoil
(R136), or is lost for want of a grain (R26); one that waited for a slot of an unserved position is discarded (R38). `recheck` is a pipe
outside the map that re-parses the window, with whether its result differs and the other windows that the slot's pipe holds (R141,
R446); `start` is where the search for a handle slot begins. -/
def execParseWindow (f : Nat) (pslot : Fin 4) (recheck : Option (Fin 5 × Bool × List Nat)) (start : Fin 8192) (s : State) :
    Host.Outcome State Fault Refusal :=
  match s.frame f with
  | none => .next s
  | some x =>
    if x.path == .slot && !(match x.pos with | some p => s.posUsable p | none => true) then
      .next ((s.dropTel 16 11).discard f)
    else if s.slot x.bed pslot = 7 || !s.windowDue f x then .next s
    else if x.path == .fifo && !s.mayTake x then .next ((s.rxDiscard (16 * x.bed + x.src % 16) 0).setFrame f none)
    else
      let s := s.toWindow f x
      let r := s.recheck f x.bed pslot recheck
      if r.1 then .next (r.2.parseFault f x.bed).releaseHeld
      else if x.pass = 0 then .next (r.2.firstPass f start).releaseHeld
      else .next (r.2.laterPass f start).releaseHeld

/-- R138: the tail check of a frame completes. Of a frame that is gone, its final action word having discarded it, none is done and none
counted, which the spec leaves open (DESIGN CHOICE, assumption 96). -/
def execTailCheck (f : Nat) (s : State) : Host.Outcome State Fault Refusal :=
  match s.frame f with
  | none => .next s
  | some x =>
    if !x.tail then .next s
    else
      let p := x.parse.tailDone x.bytes.length
      let s := s.inc (offParseCnt x.bed 3) (offParseEvt x.bed) 6
      let s := s.setFrame f (some { x with
        parse := p, tail := false, tailCode := p.code })
      let s := if p.code = 0 then s else s.mfFound x.bed p.code
      .next (if x.path == .settle then (s.settleFate f).releaseHeld else s)

/-- R140: a parity error of a pipe, with the frames whose windows it holds, at most 7. -/
def execPipeParityError (b : BedIx) (pipe : Fin 5) (held : List Nat) (s : State) : Host.Outcome State Fault Refusal :=
  .next ((s.dropWindows b held).pipeFault b pipe).releaseHeld

/-! ## Keys and verdicts (R174 to R180) -/

/-- MF_CODE of a key: the code that the frame carries, or on a later pass, which sees the first pass's result as it stands after its tail
check (R154), the tail code. -/
def State.keyCode (s : State) (x : Frame) : Nat :=
  if x.mf = 0 && x.pass != 0 && s.mfAction x.bed x.tailCode == 2 then x.tailCode else x.mf

/-- The key message of a frame (R176). -/
def State.keyMsg (s : State) (x : Frame) (k : Nat) : List Byte :=
  let a0 := x.act.getD 0 0
  let w0 := (s.slotGen k * 8192 + k % 8192) * 4096 + x.epoch * 16 + b2n (bit 27 a0) * 8 + fld 26 24 a0
  let w1 := x.src * 2 ^ 23 + x.pass * 2 ^ 21 + s.keyCode x * 2 ^ 16 + x.bytes.length
  let w2 := x.hit * 2 ^ 30 + x.rule * 2 ^ 16 + fld 31 16 (x.act.getD 2 0)
  let ts := match x.rx[s.rdf (offFhiKeyTb x.bed) 2 0]? with | some v => v / 2 ^ 32 % 1000000000 | none => 0
  wordBytes [w32 w0, w32 w1, w32 w2, w32 ts] ++ x.key

/-- R174: the first key that waits on a channel is sent against a key credit. -/
def execKeySend (b : BedIx) (c : Fin 4) (s : State) : Host.Outcome State Fault Refusal :=
  let i := 4 * b.val + c.val
  match s.keyQueue b c with
  | [] => .next s
  | k :: rest =>
    match s.handle k with
    | none => .next s
    | some h =>
      if !s.mayCross (.key b c) 1 then .next s
      else
        let s := (s.setKeyQueue b c rest).setHandle k (some { h with sent := true })
        let s := s.meshMod fun m => { m with used := smod (fun _ => 0) m.used i (· + 1) }
        let s := (s.inc (offFhiCnt b 0) (offFhiEvt b) 4).pmuOcc 8 ((s.posOf b).getD 16)
        match s.frame h.frame with
        | some x => .next (s.emit (.fhiKey b c (s.keyMsg x k)))
        | none => .next s

/-- R175: the chip returns a key credit on a channel; the pool never exceeds its size. -/
def execKeyCreditReturn (b : BedIx) (c : Fin 4) (s : State) : Host.Outcome State Fault Refusal :=
  .next (s.meshMod fun m => { m with used := smod (fun _ => 0) m.used (4 * b.val + c.val) (· - 1) })

/-- R178: a verdict message arrives on a channel of a bed. -/
def execVerdictReceive (b : BedIx) (c : Fin 4) (msg : List Byte) (s : State) : Host.Outcome State Fault Refusal :=
  let hd := fld 31 12 (msgWord msg 0)
  let k := 8192 * b.val + hd % 8192
  let late := ((s.inc (offFhiCnt b 3) (offFhiEvt b) 4).raiseEvt (offFhiEvt b) 1).pmuOcc 9 ((s.posOf b).getD 16)
  match s.handle k with
  | none => .next late
  | some h =>
    if s.slotGen k ≠ hd / 8192 || h.chan ≠ c.val || !h.sent then .next late
    else
      let s := (s.freeHandle k).inc (offFhiCnt b 1) (offFhiEvt b) 4
      match s.frame h.frame with
      | some x =>
        if x.path != .handoff then .next s
        else
          let s := (s.meshMod fun m => { m with verdicts := m.verdicts + 1 }).frameMod h.frame fun x =>
            { x with verdict := some (s.mesh.verdicts, c.val) }
          .next ((s.fateKnown h.frame (.verdict msg)).releaseHeld)
      | none => .next s

/-- R180: the timeout of a handle expires: an unsent key is withdrawn. -/
def execHandoffTimeout (b : BedIx) (slot : Fin 8192) (s : State) : Host.Outcome State Fault Refusal :=
  let k := 8192 * b.val + slot.val
  match s.handle k with
  | none => .next s
  | some h =>
    if !s.timerOn (.handoff k) then .next s
    else
      let s := (s.setKeyQueue b h.chan ((s.keyQueue b h.chan).filter (· != k))).freeHandle k
      let s := s.pmuOcc 10 ((s.posOf b).getD 16)
      match s.frame h.frame with
      | some x => .next (if x.path == .handoff then (s.fateKnown h.frame .timeout).releaseHeld else s)
      | none => .next s

/-! ## Multicast and mirror copies (R39, R184 to R186) -/

/-- A port that a copy cannot go to (R184, R186). -/
def badPort (p : Nat) : Bool := p == 257 || 259 ≤ p

/-- The copy of one member entry. -/
def memberCopy (base : Copy) (m : List Word) : Copy :=
  let w0 := m.getD 0 0
  let w2 := m.getD 2 0
  { base with
    port := fld 31 23 w0, cls := fld 22 20 w0, clod := fld 19 0 w0, flow := fld 25 0 (m.getD 1 0), ring := fld 8 0 w2, reason := 7
    prog := if bit 31 w2 then some (fld 30 25 w2) else base.prog }

/-- One member's copy is made, admitted or counted under its cause. -/
def State.replicateOne (s : State) (f : Nat) (base : Copy) (m : List Word) : State :=
  let c := memberCopy base m
  if badPort c.port then s.dropTel 16 10
  else match s.frame f with
    | some x => s.admitCopy f c x.colour (s.lossless x c.cls)
    | none => s

/-- R39: the replicator makes the copies of a frame's group. -/
def execMulticastReplicate (f : Nat) (s : State) : Host.Outcome State Fault Refusal :=
  match s.frame f with
  | none => .next s
  | some x =>
    match x.path, x.fate with
    | .repl, some (.verdict m) =>
      let base := verdictCopy f x m 0
      let first := fld 15 0 x.group
      .next (((List.range (groupCount x.group)).foldl (fun s i =>
        s.replicateOne f base (s.replMember (first + i))) s).pathEnd f).releaseHeld
    | _, _ => .next s

/-- R186: the mirror copy of a frame is made: its last grain is written and its final action word is ready. -/
def execMirrorCopy (f : Nat) (s : State) : Host.Outcome State Fault Refusal :=
  match s.frame f with
  | none => .next s
  | some x =>
    match x.mirror with
    | none => .next s
    | some m =>
      if x.tail || x.held || (x.path != .copies && s.tailDrop x) then .next s
      else
        let w0 := s.rd (offMirrorW0 x.bed m)
        let w2 := s.rd (offMirrorW2 x.bed m)
        let t := fld 13 0 w2
        let c : Copy :=
          { frame := f, port := fld 31 23 w0, cls := fld 22 20 w0, clod := fld 19 0 w0
            flow := s.rdf (offMirrorW1 x.bed m) 25 0, ring := fld 24 16 w2, reason := 6, trunc := if t = 0 then 0 else max 64 t }
        let s := s.frameMod f fun x => { x with mirror := none }
        let s := if badPort c.port then s.dropTel 16 10
          else (s.inc (offMeshCnt x.bed 6) (offMeshEvt x.bed) 3).direct f c
        .next (s.unref f)

end Sys2Proof.Machine
end

