-- ==== Sys2Proof/Machine/Queues.lean ====
section
/-! DEFINITION. Flow queues, clods and their lists, enqueue, shadow sets and hand-overs, and the record commands
(chapter 09, R224 to R246). A scheduled port is named by its number, 0 to 255, 256 or 258. -/

namespace Sys2Proof.Machine

/-! ## Ports and their parameters -/

/-- The scheduler's state is changed. -/
def State.schedMod (s : State) (f : Sched → Sched) : State := { s with sched := f s.sched }

/-- A number that names a port: 0 to 255, 256, 258. -/
def isPort (n : Nat) : Bool := n ≤ 256 || n == 258

/-- The first register of a scheduled port's block: in the bed that serves its position, or SCHED.HOST. -/
def State.schedBase (s : State) (port : Nat) : Nat :=
  if port = 256 then offHschedRate0
  else if port = 258 then offHschedRate1
  else offSchedPortRate ((s.bedOfPort port).getD (port / 16)) (port % 16)

/-- The first register of a block named by a command. -/
def schedIdBase : SchedId → Nat
  | .net b p => offSchedPortRate b p
  | .host q => if q = 0 then offHschedRate0 else offHschedRate1

/-- The port of a block. -/
def State.schedIdPort (s : State) : SchedId → Nat
  | .net b p => 16 * s.posN b + p.val
  | .host q => if q = 0 then 256 else 258

/-- Offsets in a block: GEN, DRR, CLASS[c], CLODQ[c]. -/
def shGen : Nat := 0x8
def shDrr : Nat := 0xC
def shClass (c : Nat) : Nat := 0x10 + 4 * c
def shClodq (c : Nat) : Nat := 0x30 + 4 * c

/-- An SH register of a block by its index: RATE, BURST, DRR, CLASS[0–7], CLODQ[0–7]. -/
def shOff (r : Nat) : Nat :=
  if r = 0 then 0 else if r = 1 then 4 else if r = 2 then shDrr else if r < 11 then shClass (r - 3) else shClodq (r - 11)

/-- The list key of a port and class. -/
def clsKey (port cls : Nat) : Nat := 8 * port + cls

/-- The key of a clod on a port and class; the flows of ports 256 and 258 are in one list per class. -/
def clodKey (port cls clod : Nat) : Nat := clsKey port cls * 2 ^ 20 + (if isHost port then 0 else clod)

/-- The first register of SCHED.PORT of a port. -/
def State.schedReg (s : State) (port off : Nat) : Word := s.rd (s.schedBase port + off)

/-- RATE in force in Mbit/s (R226). -/
def State.paceRate (s : State) (port : Nat) : Nat := clampTo 1 1600000 (fld 21 0 (s.schedReg port 0))

/-- BURST in force in bytes. -/
def State.paceBurst (s : State) (port : Nat) : Nat := max 64 (fld 15 0 (s.schedReg port 4))

/-- A port's scheduling state. -/
def State.portSch (s : State) (port : Nat) : PortSch := sget (fun _ => {}) s.sched.ports port

/-- A port's scheduling state takes a value. -/
def State.setPortSch (s : State) (port : Nat) (x : PortSch) : State :=
  s.schedMod fun h => { h with ports := sset (fun _ => {}) h.ports port x }

/-- A pacer brought up to a cycle: RATE Mbit/s is RATE units of 1/12,500 byte in a cycle. -/
def PortSch.upTo (x : PortSch) (rate burst cycle : Nat) : PortSch :=
  { x with pacer := min (x.pacer + (rate * (cycle - x.stamp) : Nat)) (burst * 12500 : Nat), stamp := cycle }

/-- The pacer of a port now. -/
def State.pacerNow (s : State) (port : Nat) : PortSch :=
  (s.portSch port).upTo (s.paceRate port) (s.paceBurst port) s.cycle

/-- Round counter R of a port's class (R228). -/
def State.round (s : State) (port cls : Nat) : Nat := sget (fun _ => 0) s.sched.rounds (clsKey port cls)

/-- R advances. -/
def State.nextRound (s : State) (port cls : Nat) : State :=
  s.schedMod fun h => { h with rounds := smod (fun _ => 0) h.rounds (clsKey port cls) fun r => (r + 1) % 2 ^ 32 }

/-! ## Lists -/

/-- The flows of a clod on a port and class, the pointer at the head. -/
def State.flowList (s : State) (k : Nat) : List Nat := sget (fun _ => []) s.sched.flowLists k

/-- A flow list takes a value. -/
def State.setFlowList (s : State) (k : Nat) (l : List Nat) : State :=
  s.schedMod fun h => { h with flowLists := sset (fun _ => []) h.flowLists k l }

/-- A clod list: the committed tier's (0) or the excess tier's (1) of a port and class. -/
def State.clodList (s : State) (port cls tier : Nat) : ClodList :=
  sget (fun _ => {}) s.sched.lists (2 * clsKey port cls + tier)

/-- A clod list takes a value. -/
def State.setClodList (s : State) (port cls tier : Nat) (l : ClodList) : State :=
  s.schedMod fun h => { h with lists := sset (fun _ => {}) h.lists (2 * clsKey port cls + tier) l }

/-- The clod deficit of a clod on a port and class. -/
def State.clodDef (s : State) (k : Nat) : Nat := sget (fun _ => 0) s.sched.clodDef k

/-- A clod deficit takes a value. -/
def State.setClodDef (s : State) (k n : Nat) : State :=
  s.schedMod fun h => { h with clodDef := sset (fun _ => 0) h.clodDef k n }

/-- The pointer of a clod list moves on; passing from the last clod back to the first it advances R (R230). -/
def State.clodNext (s : State) (port cls tier : Nat) : State :=
  let l := s.clodList port cls tier
  if l.ptr + 1 < l.ids.length then s.setClodList port cls tier { l with ptr := l.ptr + 1, granted := false }
  else (s.setClodList port cls tier { l with ptr := 0, granted := false }).nextRound port cls

/-- A clod leaves a list. Where the pointer was at it, it is at the next; where that was the last, back at the first. -/
def State.clodLeave (s : State) (port cls tier clod : Nat) : State :=
  let l := s.clodList port cls tier
  match l.ids.findIdx? (· == clod) with
  | none => s
  | some i =>
    let ids := l.ids.eraseIdx i
    let wrap := i = l.ptr && i = ids.length && ids != []
    let l' : ClodList :=
      if ids = [] then {}
      else if i < l.ptr then { l with ids := ids, ptr := l.ptr - 1 }
      else if i = l.ptr then { ids := ids, ptr := if wrap then 0 else l.ptr, granted := false }
      else { l with ids := ids }
    let s := s.setClodList port cls tier l'
    if wrap then s.nextRound port cls else s

/-- A clod joins the tail of a list with a clod deficit of 0 (R233). -/
def State.clodJoin (s : State) (port cls tier clod : Nat) : State :=
  let l := s.clodList port cls tier
  (s.setClodDef (clodKey port cls clod) 0).setClodList port cls tier { l with ids := l.ids ++ [clod] }

/-! ## Clods (R232 to R238) -/

/-- One bucket's refill, clipped at its size: tokens and remainder. -/
def clodFill (rate size dt : Nat) (tokens : Int) (rem : Nat) : Int × Nat :=
  let n := rate * dt + 16 * rem
  (min (tokens + (n / 2 ^ 20 : Nat)) (16 * size : Nat), n % 2 ^ 20 / 16)

/-- A clod's PIR is unlimited. -/
def Clod.unlimited (k : Clod) : Bool := k.pir == 0xFFFFFFFF

/-- A clod brought up to a cycle (R234). -/
def Clod.upTo (k : Clod) (t : Nat) : Clod :=
  let dt := (t % 2 ^ 32 + 2 ^ 32 - k.stamp % 2 ^ 32) % 2 ^ 32
  let c := clodFill (min k.cir k.pir) k.cbs dt k.tc k.remC
  let p := if k.unlimited then (((16 * k.pbs : Nat) : Int), 0) else clodFill k.pir k.pbs dt k.tp k.remP
  { k with tc := c.1, remC := c.2, tp := p.1, remP := p.2, stamp := t % 2 ^ 32 }

/-- The tier of a clod: 0 committed, 1 excess, 2 held (R232). -/
def Clod.tier (k : Clod) : Nat := if !k.en then 0 else if k.tp ≤ 0 then 2 else if 0 < k.tc then 0 else 1

/-- A clod is brought up to the present cycle. -/
def State.clodNow (s : State) (c : Nat) : State := s.clodMod c fun k => k.upTo s.cycle

/-- The port and class pairs on which a clod has active flows. -/
def State.clodPlaces (s : State) (c : Nat) : List (Nat × Nat) :=
  s.sched.flowLists.filterMap fun e =>
    let k := e.1 / 2 ^ 20
    if e.1 % 2 ^ 20 == c && !isHost (k / 8) then some (k / 8, k % 8) else none

/-- On one port and class a clod takes the list its buckets dictate; a held clod rejoins only with `rejoin` (R235). -/
def State.retierAt (s : State) (c port cls : Nat) (rejoin : Bool) : State :=
  let t := (s.clod c).tier
  let here := [0, 1].find? fun i => (s.clodList port cls i).ids.contains c
  if here == some t then s
  else
    let s' := match here with | some i => s.clodLeave port cls i c | none => s
    if t < 2 && (here.isSome || rejoin) then s'.clodJoin port cls t c else s'

/-- On every port and class a clod takes the list its buckets dictate. -/
def State.retier (s : State) (c : Nat) (rejoin : Bool) : State :=
  (s.clodPlaces c).foldl (fun s e => s.retierAt c e.1 e.2 rejoin) s

/-- R238: the refresher brings a clod record up to date. -/
def execClodRefresh (id : BitVec 20) (s : State) : Host.Outcome State Fault Refusal :=
  .next (if s.lineOn then (s.clodNow id.toNat).retier id.toNat false else s)

/-- R235: a held clod whose peak bucket is positive again rejoins. -/
def execClodRejoin (id : BitVec 20) (s : State) : Host.Outcome State Fault Refusal :=
  let s' := s.clodNow id.toNat
  .next (if (s'.clod id.toNat).tier < 2 then s'.retier id.toNat true else s)

/-! ## The active-flow cache (R239, R240) -/

/-- The name of a flow's entry in a position's cache. -/
def cacheKey (pos flow : Nat) : Nat := pos * 2 ^ 26 + flow

/-- A position's cache holds a flow. -/
def State.inCache (s : State) (pos flow : Nat) : Bool := s.sched.cache.contains (cacheKey pos flow)

/-- A cached flow becomes the most recently used. -/
def State.touch (s : State) (pos flow : Nat) : State :=
  if s.inCache pos flow then
    s.schedMod fun h => { h with cache := cacheKey pos flow :: h.cache.filter (· != cacheKey pos flow) }
  else s

/-- A flow's record is fetched: a miss of its position's cache. -/
def State.fetchFlow (s : State) (pos flow : Nat) : State :=
  if s.inCache pos flow || s.sched.fetches.contains (cacheKey pos flow) then s
  else ((s.inc (offSchedPoscnt pos 3) offSchedGevt 4).pmuOcc 4 pos).schedMod fun h => { h with fetches := cacheKey pos flow :: h.fetches }

/-- RUNAHEAD of a port (R239): below 8 acts as 8; the cross schedules ports 256 and 258 with the reset value. -/
def State.runAhead (s : State) (port : Nat) : Nat :=
  if isHost port then 32 else max 8 (s.rdf (offSchedCtl ((s.bedOfPort port).getD (port / 16))) 5 0)

/-- A flow lies in the run-ahead window of its list. -/
def State.nearHead (s : State) (flow : Nat) : Bool :=
  let f := s.flow flow
  f.q != [] && ((s.flowList (clodKey f.port f.cls f.clod)).take (s.runAhead f.port)).contains flow

/-- The least recently used entry of a full cache leaves it (R239). -/
def State.evict (s : State) (pos : Nat) : State :=
  let mine := s.sched.cache.filter fun k => k / 2 ^ 26 == pos
  if mine.length ≤ 131072 then s
  else match mine.reverse.find? fun k => !s.nearHead (k % 2 ^ 26) with
    | some k => (s.inc (offSchedPoscnt pos 4) offSchedGevt 4).schedMod fun h => { h with cache := h.cache.filter (· != k) }
    | none => s

/-- R240: the fetch of a flow record completes. -/
def execCacheFetchDone (pos : Fin 17) (flow : BitVec 26) (s : State) : Host.Outcome State Fault Refusal :=
  let k := cacheKey pos flow.toNat
  if s.sched.fetches.contains k then
    .next ((s.schedMod fun h =>
      { h with fetches := h.fetches.filter (· != k), cache := k :: h.cache.filter (· != k) }).evict pos)
  else .next s

/-! ## Enqueue (R28, R182, R224, R229) -/

/-- SCHED.INIT.DONE. -/
def State.schedReady (s : State) : Bool := s.rdb offSchedInit 31

/-- The check of R224 a copy fails first, as its position counter. -/
def State.bindTest (s : State) (c : Copy) : Option Nat :=
  let f := s.flow c.flow
  if !isHost c.port && c.clod / 65536 != c.port / 16 then some 1
  else if f.q != [] && (f.port != c.port || f.cls != c.cls || (!isHost c.port && f.clod != c.clod)) then some 0
  else if !s.schedReady then some 2
  else none

/-- The sampling words of a flow that becomes bound: COUNTDOWN below 2^LOG2, by the telemetry LFSR, whose values are
free (assumption 3; R304, R305). -/
def State.sampleBind (s : State) (flow cls : Nat) : State :=
  let (v, s) := s.draw
  s.flowMod flow fun f => { f with sample := [w32 (v % 2 ^ s.rdf (offTelFlowSample cls) 3 0), 0, 0, 0] }

/-- A flow that becomes non-empty is bound and joins its list (R224, R229). -/
def State.bindFlow (s : State) (c : Copy) : State :=
  let k := clodKey c.port c.cls c.clod
  let r := s.round c.port c.cls
  let first := (s.flowList k).isEmpty
  let s := s.flowMod c.flow fun f =>
    { f with
      port := c.port, cls := c.cls, clod := c.clod, deficit := 0
      grant := if f.grant = r then r else (r + 2 ^ 32 - 1) % 2 ^ 32 }
  let s := (s.setFlowList k (s.flowList k ++ [c.flow])).sampleBind c.flow c.cls
  if !first then s
  else if isHost c.port then s.clodJoin c.port c.cls 0 0
  else (s.clodNow c.clod).retierAt c.clod c.port c.cls true

/-- Frame y's verdict came on the channel of x's in the same bed, and before it. -/
def Frame.verdictBefore (y x : Frame) : Bool :=
  match y.verdict, x.verdict with
  | some (m, c), some (n, d) => y.bed == x.bed && c == d && decide (m < n)
  | _, _ => false

/-- The flow id that a frame's verdict carries, while admission has still to act on it. -/
def Frame.flowDue (y : Frame) : Option Nat :=
  match y.path, y.fate with
  | .settle, some (.verdict m) => if fld 11 9 (msgWord m 0) = 2 then none else some (fld 25 0 (msgWord m 2))
  | _, _ => none

/-- A frame that carries a flow id has its turn: none of the flow whose verdict came before its own, on the same channel, is still to be
admitted or to be enqueued (R182). -/
def State.verdictTurn (s : State) (x : Frame) (flow : Nat) : Bool :=
  (s.framesWhere fun y => y.flowDue == some flow && y.verdictBefore x) == [] &&
    (s.copiesWhere fun d => d.flow == flow && d.stage == .admitted &&
      match s.frame d.frame with | some y => y.verdictBefore x | none => false) == []

/-- A copy may be enqueued: its frame lies whole in topsoil with its tail check done, and it has its turn in its flow (R28, R182). -/
def State.mayEnqueue (s : State) (c : Copy) : Bool :=
  c.stage == .admitted && match s.frame c.frame with
    | some x => !x.tail && !x.held && x.path != .fifo && x.path != .window && x.path != .slot && s.verdictTurn x c.flow
    | none => false

/-- A copy is discarded by the destination position (R224). -/
def State.bindDrop (s : State) (i : Nat) (c : Copy) (cause : Nat) : State :=
  let s := s.inc (offSchedPoscnt (portPos c.port) cause) offSchedGevt 4
  (if cause < 2 then s.raiseEvt offSchedGevt cause else s).discardCopy i

/-- A copy joins its flow's queue. -/
def State.enqueue (s : State) (i : Nat) (c : Copy) : State :=
  match s.bindTest c with
  | some cause => s.bindDrop i c cause
  | none =>
    let s := if (s.flow c.flow).q = [] then s.bindFlow c else s
    let s := s.flowMod c.flow fun f => { f with q := f.q ++ [i] }
    let s := s.copyMod i fun c => { c with stage := .queued, enq := s.telStamp.1, enqStep := s.telStamp.2, seq := s.nextId }
    let s := { s with nextId := s.nextId + 1 }
    (s.fetchFlow (portPos c.port) c.flow).touch (portPos c.port) c.flow

/-- R28: a copy is enqueued on its flow queue. -/
def execEnqueue (c : Nat) (s : State) : Host.Outcome State Fault Refusal :=
  match s.copy c with
  | some x => .next (if s.mayEnqueue x && s.mayCross (.enqueue (portPos x.port)) 1 then s.enqueue c x else s)
  | none => .next s

/-! ## A copy leaves its queue -/

/-- A flow that has emptied leaves its list with DEFICIT 0, and its clod the class's lists when it was the last (R228). -/
def State.flowEmptied (s : State) (flow : Nat) : State :=
  let f := s.flow flow
  let k := clodKey f.port f.cls f.clod
  let s := (s.flowMod flow fun f => { f with deficit := 0 }).setFlowList k ((s.flowList k).filter (· != flow))
  if s.flowList k = [] then
    let c := if isHost f.port then 0 else f.clod
    (s.clodLeave f.port f.cls 0 c).clodLeave f.port f.cls 1 c |>.setClodDef k 0
  else s

/-- A class's deficit returns to 0 when the class holds no queued frame (R225). -/
def State.classDrained (s : State) (port cls : Nat) : State :=
  if s.copiesWhere (fun c => c.port == port && c.cls == cls && c.stage == .queued) = [] then
    let x := s.portSch port
    s.setPortSch port { x with deficits := x.deficits.set cls 0 }
  else s

/-- A copy is taken out of its flow's queue, wherever in it. -/
def State.unqueue (s : State) (i : Nat) : State :=
  match s.copy i with
  | none => s
  | some c =>
    if c.stage != .queued then s
    else
      let s := (s.flowMod c.flow fun f => { f with q := f.q.filter (· != i) }).copyMod i fun c => { c with stage := .admitted }
      let s := if (s.flow c.flow).q == [] then s.flowEmptied c.flow else s
      s.classDrained c.port c.cls

/-- Every copy of a frame is discarded, each with the count that k adds (R219, R437). -/
def State.discardCopies (s : State) (f : Nat) (k : State → State) : State :=
  (s.copiesWhere fun c => c.frame == f).foldl (fun s i => ((k s).unqueue i).discardCopy i) s

/-! ## Shadow sets and hand-overs (R243 to R246) -/

/-- The writable bits of an SH register (by its index). -/
def shMask (r : Nat) : Word :=
  if r = 0 then 0x003FFFFF else if r = 1 then 0x0000FFFF else if r = 2 then 0x3F else 0xFFFFFFFF

/-- A write to an SH register of a port lands in the pending generation, and SH_ACK reports it. SCHED.HOST has no CLODQ. -/
def State.shWrite (s : State) (p : SchedId) (r : Nat) (v : Word) : State :=
  let base := schedIdBase p
  let noReg := match p with | .host _ => decide (11 ≤ r) | .net _ _ => false
  if noReg then s
  else
    let gen := (s.rdf (base + shGen) 15 0 + 1) % 65536
    let s := (s.shadowSet (base + shOff r) (v &&& shMask r)).wrb (base + shGen) 30 true
    match p with
    | .net b l => s.shAck b l gen
    | .host q => s.wr offSchedHostShAck (w32 (2 ^ 31 + q.val * 65536 + gen))

/-- R243: an SH register of a port is written. -/
def execShadowWrite (p : SchedId) (r : Fin 19) (v : Word) (s : State) : Host.Outcome State Fault Refusal :=
  .next (s.cfg (schedIdBase p + shOff r) fun s => s.shWrite p r v)

/-- An indirect write takes effect at its hand-over (R236, R237, R243). -/
def State.applyShadow (s : State) : ShadowOp → State
  | .quantum flow q => s.flowMod flow fun f => { f with quantum := q }
  | .clod c ws full =>
    let w := fun i => ws.getD i 0
    let s := (s.clodNow c).clodMod c fun k =>
      let cbs := fld 23 0 (w 2)
      let pbs := fld 23 0 (w 3)
      let unlimited := w 1 == 0xFFFFFFFF
      { k with
        cir := (w 0).toNat, pir := (w 1).toNat, weight := fld 31 24 (w 2), cbs := cbs, en := bit 31 (w 3), pbs := pbs
        tc := if full then (16 * cbs : Nat) else min k.tc (16 * cbs : Nat)
        tp := if full || unlimited then (16 * pbs : Nat) else min k.tp (16 * pbs : Nat) }
    s.retier c (!bit 31 (w 3))

/-- Two indirect writes are to the same parameter of the same port (R243). -/
def sameParameter (a b : Nat × ShadowOp) : Bool :=
  a.1 == b.1 && match a.2, b.2 with
    | .quantum f _, .quantum g _ => f == g
    | .clod c _ _, .clod d _ _ => c == d
    | _, _ => false

/-- A port's pacer is brought up to the present cycle at the RATE and BURST in force (R226). -/
def State.pacerUp (s : State) (port : Nat) : State := s.setPortSch port (s.pacerNow port)

/-- A hand-over of a port whose pending generation holds writes and whose HOLD is 0 (R244). The pacer has risen at the old RATE
until now. -/
def State.handOver (s : State) (p : SchedId) : State :=
  let base := schedIdBase p
  let port := s.schedIdPort p
  if s.rdb (base + shGen) 31 || !s.rdb (base + shGen) 30 then s
  else
    let s := (List.range 19).foldl (fun s r => match s.shadowGet (base + shOff r) with
      | some v => s.wr (base + shOff r) v
      | none => s) (s.pacerUp port)
    let s := { s with shadow := sdrop (fun k => base ≤ k && k < base + 0x100) s.shadow }
    let mine := s.sched.indirect.filter (·.1 == port)
    let s := mine.foldl (fun s e => s.applyShadow e.2) s
    let s := s.schedMod fun h => { h with indirect := h.indirect.filter (·.1 != port) }
    let s := (s.wrf (base + shGen) 15 0 ((s.rdf (base + shGen) 15 0 + 1) % 65536)).wrb (base + shGen) 30 false
    match p with
    | .net b _ => (s.inc (offSchedCnt b 3) (offSchedEvt b) 1).ownChange b
    | .host _ => s

/-- R244: a hand-over of a port. -/
def execHandover (p : SchedId) (s : State) : Host.Outcome State Fault Refusal :=
  .next (if s.lineOn then s.handOver p else s)

/-! ## The record commands (R234, R239, R245, R246) -/

/-- A command register takes OP and HPORT. -/
def State.recOp (s : State) (cmd op hport : Nat) : State := (s.wrf cmd 28 27 op).wrf cmd 24 16 hport

/-- A record command is refused. -/
def State.recRefuse (s : State) (cmd : Nat) : State := s.wrb cmd 29 true

/-- An indirect shadow write of a record at a position (none: anywhere) is taken in, or refused (R246). It replaces one to the
same parameter that still waits (R243). -/
def State.indirectWrite (s : State) (cmd hport : Nat) (pos : Option Nat) (op : ShadowOp) : State :=
  let n := portPos hport
  if !s.schedReady then s.recRefuse cmd
  else if !isPort hport || (pos.isSome && pos != some n) then (s.recRefuse cmd).raiseEvt offSchedGevt 2
  else if 1024 ≤ (s.sched.indirect.filter fun e => portPos e.1 == n).length then
    ((s.recRefuse cmd).inc (offSchedPoscnt n 5) offSchedGevt 4).raiseEvt offSchedGevt 2
  else
    let gen := s.schedBase hport + shGen
    let s := s.schedMod fun h => { h with indirect := (h.indirect.filter fun e => !sameParameter e (hport, op)) ++ [(hport, op)] }
    (s.wrf cmd 15 0 ((s.rdf gen 15 0 + 1) % 65536)).wrb gen 30 true

/-- FLOW.ADDR. -/
def State.flowId (s : State) : Nat := s.rdf offFlowAddr 25 0

/-- A frame of a queue waits in a lower tier. -/
def State.lowerTier (s : State) (i : Nat) : Bool :=
  match (s.copy i).bind fun c => s.frame c.frame with | some x => x.tier != 0 | none => false

/-- A flow is held: for its record, or for prefetch, its head frame or the one after it being in a lower tier (R217,
R231, R240). -/
def State.prefetchHeld (s : State) (f : Flow) : Bool := (f.q.take 2).any fun i => s.lowerTier i

/-- A 48-bit counter as its two words (R99). -/
def cntWords (n : Nat) : List Word := [w32 n, w32 (n % cntMod / 2 ^ 32)]

/-- FLOW.DATA of a record. -/
def State.flowWords (s : State) (flow : Nat) : List Word :=
  let f := s.flow flow
  let bound := f.q != []
  let pos := portPos f.port
  let held := bound && (s.prefetchHeld f || !s.inCache pos flow)
  let ref := fun (i : Option Nat) => match i with | some i => Config.freeFrameRef i | none => 0
  [ w32 (b2n bound * 2 ^ 31 + b2n held * 2 ^ 30 + b2n (s.inCache pos flow) * 2 ^ 29
      + (if bound then f.port * 2 ^ 20 + f.clod else 0)),
    w32 ((if bound then f.cls * 2 ^ 29 else 0) + f.quantum), w32 f.deficit, w32 f.grant, w32 f.depth,
    w32 f.q.length, ref f.q.head?, ref f.q.getLast? ] ++ cntWords f.deqFrames ++ cntWords f.deqBytes ++ f.sample

/-- FLOW.CMD GO with OP 0 or 3: the record is read. -/
def State.flowRead (s : State) : State :=
  if s.schedReady then s.wrs (offFlowData 0) (s.flowWords s.flowId) else s.recRefuse offFlowCmd

/-- R239: FLOW.CMD is written with GO and OP 0 or 3. -/
def execFlowRead (s : State) : Host.Outcome State Fault Refusal :=
  .next (s.cfg offFlowCmd fun s => (s.wrf offFlowCmd 28 27 0).flowRead)

/-- FLOW.CMD GO with OP 1. -/
def State.flowQuantum (s : State) (hport : Nat) : State :=
  let f := s.flow s.flowId
  s.indirectWrite offFlowCmd hport (if f.q = [] then none else some (portPos f.port))
    (.quantum s.flowId (s.rdf (offFlowData 1) 23 0))

/-- R246: FLOW.CMD is written with GO and OP 1: a shadowed write of QUANTUM, committed by the hand-over of HPORT. -/
def execFlowWriteQuantum (hport : BitVec 9) (s : State) : Host.Outcome State Fault Refusal :=
  .next (s.cfg offFlowCmd fun s => (s.recOp offFlowCmd 1 hport.toNat).flowQuantum hport.toNat)

/-- FLOW.CMD GO with OP 2. -/
def State.flowZero (s : State) : State :=
  if s.schedReady then s.flowMod s.flowId fun f => { f with deqFrames := 0, deqBytes := 0 } else s.recRefuse offFlowCmd

/-- R15: FLOW.CMD is written with GO and OP 2: the dequeue counters are zeroed at once. -/
def execFlowZeroDeq (s : State) : Host.Outcome State Fault Refusal :=
  .next (s.cfg offFlowCmd fun s => (s.wrf offFlowCmd 28 27 2).flowZero)

/-- CLOD.ADDR. -/
def State.clodId (s : State) : Nat := s.rdf offClodAddr 19 0

/-- CLOD.DATA of a record. -/
def Clod.words (k : Clod) : List Word :=
  [ w32 k.cir, w32 k.pir, w32 (k.weight * 2 ^ 24 + k.cbs), w32 (b2n k.en * 2 ^ 31 + k.pbs), BitVec.ofInt 32 k.tc,
    BitVec.ofInt 32 k.tp, w32 k.stamp, w32 (k.remC * 65536 + k.remP) ]

/-- CLOD.CMD GO with OP 0 or 3: the record is brought up to date and read. -/
def State.clodRead (s : State) : State :=
  if s.schedReady then
    let s := s.clodNow s.clodId
    s.wrs (offClodData 0) (s.clod s.clodId).words
  else s.recRefuse offClodCmd

/-- R234: CLOD.CMD is written with GO and OP 0 or 3. -/
def execClodRead (s : State) : Host.Outcome State Fault Refusal :=
  .next (s.cfg offClodCmd fun s => (s.wrf offClodCmd 28 27 0).clodRead)

/-- A shadowed write of words 0 to 3 of the clod record at CLOD.ADDR. -/
def State.clodWrite (s : State) (hport : Nat) (full : Bool) : State :=
  let s := s.recOp offClodCmd (if full then 2 else 1) hport
  let ws := [s.rd (offClodData 0), s.rd (offClodData 1), s.rd (offClodData 2), s.rd (offClodData 3) &&& 0x80FFFFFF]
  s.indirectWrite offClodCmd hport (some (s.clodId / 65536)) (.clod s.clodId ws full)

/-- R246: CLOD.CMD is written with GO and OP 1. -/
def execClodWrite (hport : BitVec 9) (s : State) : Host.Outcome State Fault Refusal :=
  .next (s.cfg offClodCmd fun s => s.clodWrite hport.toNat false)

/-- R246: CLOD.CMD is written with GO and OP 2. -/
def execClodWriteFull (hport : BitVec 9) (s : State) : Host.Outcome State Fault Refusal :=
  .next (s.cfg offClodCmd fun s => s.clodWrite hport.toNat true)

/-! ## Initialisation (R242) -/

/-- Every flow and clod record, list and cache is cleared. The grains that admitted copies count stay counted. -/
def State.schedClear (s : State) : State :=
  let flows := s.sched.flows.foldl (fun m e => sset (fun _ => {}) m e.1 { depth := e.2.depth }) ([] : List (Nat × Flow))
  let clods := s.sched.clods.foldl (fun m e => sset (fun _ => {}) m e.1 { count := e.2.count }) ([] : List (Nat × Clod))
  { s with sched := { flows := flows, clods := clods, ports := s.sched.ports, rounds := s.sched.rounds } }

/-- R242: the line island is ON, and the block begins to initialise the records and lists. -/
def execSchedInit (s : State) : Host.Outcome State Fault Refusal :=
  if s.lineOn && !s.schedReady && !s.timerOn .schedInit then .next (s.schedClear.startTimer .schedInit (ms 2)) else .next s

/-- R242: the initialisation ends. -/
def execSchedInitDone (s : State) : Host.Outcome State Fault Refusal :=
  if s.timerOn .schedInit then
    .next (((s.stopTimer .schedInit).wrb offSchedInit 31 true).raiseEvt offSchedGevt 3)
  else .next s

end Sys2Proof.Machine
end

