-- ==== Sys2Proof/Machine/Flits.lean ====
section
/-! DEFINITION. Silt links: flits, replay, credits, and the grains a module holds (chapter 16, R396 to R403, R409 to R412). -/

namespace Sys2Proof.Machine

/-! ## Links -/

/-- A link beside its registers. -/
def State.siltSt (s : State) (k : Nat) : SiltSt := sget (fun _ => {}) s.silt k

/-- A link beside its registers is changed. -/
def State.siltMod (s : State) (k : Nat) (f : SiltSt → SiltSt) : State := { s with silt := smod (fun _ => {}) s.silt k f }

/-- STATE: 0 DISABLED, 1 DETECT, 2 TRAIN, 3 LOCK, 4 EXCHANGE, 5 ACTIVE, 6 GAP, 7 FAILED. -/
def State.siltState (s : State) (k : Nat) : Nat := s.rdf (offSiltStatus k) 31 28

/-- STATE goes to a value. -/
def State.siltGo (s : State) (k st : Nat) : State := s.wrf (offSiltStatus k) 31 28 st

/-- MSTATE: 0 NONE, 1 ATTACHED, 2 DRAINING, 3 DETACHED, 4 LOST. -/
def State.modState (s : State) (k : Nat) : Nat := s.rdf (offSiltStatus k) 23 21

/-- The link is ACTIVE. -/
def State.siltActive (s : State) (k : Nat) : Bool := s.siltOn k && s.siltState k == 5

/-- The tier mover may place frames on the link (R410, R411). -/
def State.linkPlaces (s : State) (k : Nat) : Bool := s.siltActive k && s.modState k == 1

/-- Frames may be read from the link's module. -/
def State.linkReads (s : State) (k : Nat) : Bool := s.siltActive k && (s.modState k == 1 || s.modState k == 2)

/-- The first register of physical lane i of a link (R391). -/
def siltLane (k i : Nat) : Nat := 0x490000 + 0x1000 * (8 * k + i)

/-- A link counter counts n, and a link event is raised. -/
def State.siltCnt (s : State) (k i n : Nat) : State := s.addCnt (offSiltCnt k i) n (offSiltEvt k) 11
def State.siltEvent (s : State) (k i : Nat) : State := s.raiseEvt (offSiltEvt k) i

/-- N, and the physical lane of a logical lane, of SILT[k].MAP. -/
def State.siltN (s : State) (k : Nat) : Nat := s.rdf (offSiltMap k) 26 24
def State.siltPhys (s : State) (k j : Nat) : Nat := s.rdf (offSiltMap k) (3 * j + 2) (3 * j)

/-! ## Flits (R396 to R399) -/

/-- The 268 bytes of a flit. -/
def flitBytes (type seq ack arg : Nat) (body : List Byte) : List Byte :=
  let h := beBytes 8 (type * 2 ^ 60 + seq % 4096 * 2 ^ 48 + ack % 4096 * 2 ^ 36 + arg % 2 ^ 36) ++ bytesAt body 0 256
  h ++ ethFcs h

/-- A flit leaves on the logical lane whose turn it is. How many stuff symbols it costs depends on where it falls in its
frame, which the model does not hold: STUFF_TX takes a free number of them (assumption 23). -/
def State.siltEmit (s : State) (k type seq arg : Nat) (body : List Byte) : State :=
  let x := s.siltSt k
  let base := siltLane k (x.txMap.getD x.turn (s.siltPhys k x.turn))
  let s := s.emit (.siltFlit k (flitBytes type seq x.ack arg body))
  let (v, s) := s.draw
  let s := s.addCnt (base + 0xE0) (v % 35) (lnEvt base) 6
  let s := s.siltMod k fun y => { y with turn := (y.turn + 1) % max 1 y.txMap.length }
  if s.siltState k = 5 then s.startTimer (.siltNull k) 655 else s

/-- An unsequenced flit is sent: it carries the next SEQ not yet used. -/
def State.siltUnseq (s : State) (k type arg : Nat) (body : List Byte) : State :=
  s.siltEmit k type (s.siltSt k).nextSeq arg body

/-- LINK_MGMT with an operation and its operand. -/
def State.siltMgmt (s : State) (k op operand : Nat) (body : List Byte) : State :=
  s.siltUnseq k 7 (op * 2 ^ 32 + operand) body

/-- Something of the link is outstanding (R409). -/
def SiltSt.busy (x : SiltSt) : Bool := x.replay != [] || x.reads != [] || x.writes != []

/-- REPLAY_NS and LOSS_US. -/
def State.replayNs (s : State) (k : Nat) : Nat := clampTo 500 65535 (s.rdf (offSiltReplay k) 15 0)
def State.lossNs (s : State) (k : Nat) : Nat := us (clampTo 10 10000 (s.rdf (offSiltCtl k) 15 0))

/-- The replay and loss timers run while what they watch is outstanding. -/
def State.siltTimers (s : State) (k : Nat) : State :=
  let x := s.siltSt k
  let s := if x.replay = [] then s.stopTimer (.siltReplay k)
    else if s.timerOn (.siltReplay k) then s else s.startTimer (.siltReplay k) (s.replayNs k)
  if !x.busy then s.stopTimer (.siltLoss k)
  else if s.timerOn (.siltLoss k) then s else s.startTimer (.siltLoss k) (s.lossNs k)

/-- Read addresses of a READ_REQ. -/
def SiltFlit.count (f : SiltFlit) : Nat := f.arg % 128

/-- The room and the credit for a flit are there (R400, R401). -/
def SiltSt.maySend (x : SiltSt) (f : SiltFlit) : Bool :=
  x.replay.length < 512 && (f.type != 3 || 0 < x.wcred) && (f.type != 2 || f.count ≤ x.rcred)

/-- The first flit that waits is sent. -/
def State.siltSendOne (s : State) (k : Nat) (f : SiltFlit) : State :=
  let q := (s.siltSt k).nextSeq
  let s := (s.siltEmit k f.type q f.arg f.body).siltCnt k 0 1
  s.siltMod k fun x =>
    { x with
      txq := x.txq.tail, nextSeq := (q + 1) % 4096, replay := x.replay ++ [(q, f, 0)]
      wcred := if f.type = 3 then x.wcred - 1 else x.wcred
      rcred := if f.type = 2 then x.rcred - f.count else x.rcred }

/-- Flits that wait are sent, in order, as far as room and credit reach. -/
def State.siltPump (s : State) (k : Nat) : Nat → State
  | 0 => s
  | n + 1 =>
    match (s.siltSt k).txq with
    | [] => s
    | f :: _ => if (s.siltSt k).maySend f then (s.siltSendOne k f).siltPump k n else s

/-- All flits that may go are sent. -/
def State.siltPumpAll (s : State) (k : Nat) : State := (s.siltPump k (s.siltSt k).txq.length).siltTimers k

/-- Sequenced flits join those that wait. -/
def State.siltPut (s : State) (k : Nat) (fs : List SiltFlit) : State :=
  (s.siltMod k fun x => { x with txq := x.txq ++ fs }).siltPumpAll k

/-! ## Grains in a module (R401 to R403) -/

/-- A frame is alive in the link's module, or on its way there. -/
def State.siltLives (s : State) (k f : Nat) : Bool :=
  match s.frame f with
  | some x => (x.tier == 2 && x.unit == k) || x.moving == some (8 + k)
  | none => false

/-- The module addresses in use. -/
def State.siltUsed (s : State) (k : Nat) : List (Nat × Nat) := (s.siltSt k).addrs.filter fun e => s.siltLives k e.2

/-- HELD: the grains that the module holds. -/
def State.siltHeld (s : State) (k : Nat) : Nat :=
  ((s.siltUsed k).filter fun e => !(s.siltSt k).writes.contains (e.2, e.1)).length

/-- The lowest n free module addresses: the block allocates them itself (R397). -/
def State.siltFree (s : State) (k n : Nat) : List Nat :=
  let used := (s.siltUsed k).map (·.1)
  ((List.range (used.length + n)).filter fun a => !used.contains a).take n

/-- A frame's grains are written to the link's module (R397, R401). -/
def State.siltWrites (s : State) (k f : Nat) (x : Frame) : State :=
  let as := s.siltFree k x.grains
  let used := s.siltUsed k
  let s := s.siltMod k fun y =>
    { y with addrs := used ++ as.map (fun a => (a, f)), writes := y.writes ++ as.map (fun a => (f, a)) }
  s.siltPut k (as.mapIdx fun i a => { type := 3, arg := a, body := bytesAt x.bytes (256 * i) 256 })

/-- A frame's grains are requested from the link's module. -/
def State.siltReads (s : State) (k f : Nat) : State :=
  let as := ((s.siltUsed k).filter fun e => e.2 == f).map (·.1)
  let s := s.siltMod k fun y => { y with reads := y.reads ++ as.map (fun a => (f, a)) }
  s.siltPut k [{ type := 2, arg := as.length, body := (as.map (beBytes 4)).flatten }]

/-! ## Frames that leave a link (R219, R411, R412) -/

/-- A frame is discarded whole under DROP_TIER_LOSS. -/
def State.tierLoss (s : State) (f : Nat) : State := s.discardCopies f fun s => s.admCount 8

/-- Where a queued frame goes whose place on link k is gone: by R211 from its index, with the link excluded; it stays in
topsoil where no tier below has room. -/
def State.placeWithout (s : State) (k : Nat) (x : Frame) (i : Nat) : Nat :=
  let x := { x with tier := 0 }
  let t := (s.placeAt x i).1
  let t := if t = 2 && !((List.range 8).any fun j => j != k && s.linkPlaces j) then 1 else t
  if t ≠ 0 ∧ s.tierFits t x then t else 0

/-- The index of a frame's queued copy in its flow. -/
def State.frameIndex (s : State) (f : Nat) : Nat :=
  match (s.copiesWhere fun c => c.frame == f && c.stage == .queued).head? with
  | some i => match s.copy i with
    | some c => (((s.flow c.flow).q.takeWhile (· != i)).filterMap fun j => (s.copy j).map s.copyGrains).sum
    | none => 0
  | none => 0

/-- A frame is in its flow's queue. -/
def State.isQueued (s : State) (f : Nat) : Bool := (s.copiesWhere fun c => c.frame == f && c.stage == .queued) != []

/-- A frame on its way to link k whose module is gone: one with no grain in the module keeps its topsoil grains and is placed
again; one that is partly in it is lost, unless it has been selected, for it is then read from topsoil (R221, R412). -/
def State.moveBack (s : State) (k f : Nat) : State :=
  match s.frame f with
  | none => s
  | some x =>
    let back := { x with moving := none, moved := 0 }
    if x.refs = 0 then s.freeFrame f x
    else if x.moved = 0 then s.setFrame f (some { back with dest := s.placeWithout k x (s.frameIndex f) })
    else if s.isQueued f then ((s.setFrame f (some back)).freeMoved x).tierLoss f
    else (s.setFrame f (some back)).freeMoved x

/-- A frame that lies in link k's module, a read of which may be in progress, is lost with it (R219, R411). -/
def State.moduleLoss (s : State) (f : Nat) : State :=
  match s.frame f with
  | none => s
  | some x =>
    if x.refs = 0 then s.freeFrame f x
    else ((s.setFrame f (some { x with fetching := false, moved := 0 })).freeMoved x).tierLoss f

/-- The grains of a module's capacity. -/
def State.modGrains (s : State) (k : Nat) : Nat := min 192 (s.rdf (offSiltModCap k 0) 15 0) * 4194304

/-- Hardpan CAP takes in, or loses, a module's capacity. -/
def State.capJoin (s : State) (k : Nat) : State := s.wr2 (offTierCap2 0) (s.rd2 (offTierCap2 0) + s.modGrains k)
def State.capLeave (s : State) (k : Nat) : State :=
  if s.modState k = 1 ∨ s.modState k = 2 then s.wr2 (offTierCap2 0) (s.rd2 (offTierCap2 0) - s.modGrains k) else s

/-- The timers of a link. -/
def siltTimer (k : Nat) : Timer → Bool
  | .siltStage l | .siltGap l | .siltCap l | .siltMap l | .siltNull l | .siltReplay l | .siltLoss l => l == k
  | _ => false

/-- A module's capacity leaves, and the state of its link's flits is void. -/
def State.siltUnlink (s : State) (k : Nat) : State :=
  let s := (s.capLeave k).siltMod k fun x => { retries := x.retries }
  { s with timers := s.timers.filter fun e => !siltTimer k e.1 }

/-- Everything a link carries ends: frames with grains in the module are lost, others are placed again, its capacity
leaves, and the state of its flits is void. -/
def State.siltVoid (s : State) (k : Nat) : State :=
  let s := s.siltUnlink k
  let s := { s with adm := { s.adm with
                      spilling := sset (fun _ => 0) s.adm.spilling (8 + k) 0
                      fetching := sset (fun _ => 0) s.adm.fetching (8 + k) 0 } }
  let lost := s.framesWhere fun x => x.tier == 2 && x.unit == k
  let partly := (s.framesWhere fun x => x.moving == some (8 + k) && x.moved != 0).filter s.isQueued
  let s := if lost ++ partly = [] then s else s.raiseEvt offTierEvt 2
  let s := lost.foldl (fun s f => s.moduleLoss f) s
  (s.framesWhere fun x => x.moving == some (8 + k)).foldl (fun s f => s.moveBack k f) s

end Sys2Proof.Machine
end

