-- ==== Sys2Proof/Machine/Resets.lean ====
section
/-! DEFINITION. What a reset of each island leaves (R8, R69), unit by unit. -/

namespace Sys2Proof.Machine

/-- Registers of the islands a test names take their reset values (R8). -/
def State.resetRegs (s : State) (p : Home → Bool) : State :=
  { s with regs := sdrop (fun k => p (homeOf (k % bankSpan))) s.regs }

/-- The timers a test names stop. -/
def State.dropTimers (s : State) (p : Timer → Bool) : State :=
  { s with timers := s.timers.filter fun e => !p e.1 }

/-! ## Frames held (R71, R349) -/

/-- Frames held in the line side: those whose own path has not ended, and every copy (R71). -/
def State.heldFrames (s : State) : Nat :=
  (s.framesWhere fun x => x.path != .copies).length + (s.copiesWhere fun _ => true).length

/-! ## Auger channels -/

/-- A channel beside its registers. -/
def State.augCh (s : State) (c : Nat) : AugCh := sget (fun _ => {}) s.aug c

/-- A channel beside its registers is changed. -/
def State.augMod (s : State) (c : Nat) (f : AugCh → AugCh) : State := { s with aug := smod (fun _ => {}) s.aug c f }

/-- STATE: 0 IDLE, 1 BUSY, 2 PAUSED, 3 FAULT. -/
def State.augState (s : State) (c : Nat) : Nat := s.rdf (offChState c) 31 30

/-- STATE goes to a value. -/
def State.augGo (s : State) (c st : Nat) : State := s.wrf (offChState c) 31 30 st

/-- A channel enters FAULT with a cause (R369). -/
def State.augFaulted (s : State) (c cause : Nat) : State :=
  let s := s.augMod c fun x => { nextNum := x.nextNum, wasIdle := x.wasIdle, rereading := x.rereading }
  let s := { s with rings := { s.rings with readQ := s.rings.readQ.filter (· != 2048 + c) } }
  (((s.augGo c 3).wrf (offChState c) 27 24 cause).inc offCntAugFault offAugEvt 1).raiseEvt offAugEvt 0

/-- The line island leaves ON: BUSY and PAUSED channels fault with LINE_DOWN (R365). -/
def State.augLineDown (s : State) : State :=
  (List.range 32).foldl (fun s c => if s.augState c = 1 || s.augState c = 2 then s.augFaulted c 9 else s) s

/-! ## Debug sessions (R473) -/

/-- A path's debug side. -/
def State.dbg (s : State) (port : Bool) : DbgPath := if port then s.sec.port else s.sec.host

/-- The security state, or a path's debug side, is changed. -/
def State.secMod (s : State) (f : Sec → Sec) : State := { s with sec := f s.sec }
def State.dbgMod (s : State) (port : Bool) (f : DbgPath → DbgPath) : State :=
  s.secMod fun x => if port then { x with port := f x.port } else { x with host := f x.host }

/-- A path's session closes. -/
def State.dbgClose (s : State) (port : Bool) : State :=
  if (s.dbg port).level = 0 then s
  else ((s.dbgMod port fun d => { d with level := 0, duration := 0 }).stopTimer (.session port)).raiseEvt offSecEvt 3

/-! ## PPS outputs (R66, R297) -/

/-- The level of PPS output j: INV of its CTL while no pulse is on it, and the other while one is. -/
def State.ppsAt (s : State) (j : Nat) : Bool := s.timerOn (.ppsOut j) != s.rdb (offPpsOutCtl j) 30

/-- The line island's isolation holds every PPS output at 0 (R66). -/
def State.ppsClamp (s : State) : State :=
  [0, 1].foldl (fun s j => if s.ppsAt j then s.emit (.ppsLevel j false) else s) s

/-! ## The resets of the islands -/

/-- A timer belongs to the line side. -/
def lineTimer : Timer → Bool
  | .portStage _ | .reformLimit _ | .gap _ | .faultHold _ | .dormantWake _ | .laneRelock _ | .mmVerify _ | .handoff _
  | .schedInit | .unlock _ | .ppsOut _ | .harmWindow _ | .heartbeat _ | .scan | .siltStage _ | .siltGap _ | .siltCap _
  | .siltMap _ | .siltNull _ | .siltReplay _ | .siltLoss _ | .tilthWd _ => true
  | .pauseLeft m _ | .wdRun m _ | .wdHold m _ | .pauseRefresh m _ => decide (m < 272)
  | _ => false

/-- A timer belongs to the host side. -/
def hostTimer : Timer → Bool
  | .mdio | .backoff | .defer | .tsWait _ | .rxShort _ | .torn _ => true
  | .pauseLeft m _ | .wdRun m _ | .wdHold m _ | .pauseRefresh m _ => m == 272
  | .session port | .challenge port => !port
  | .returnArm => true
  | _ => false

/-- A register's island is of the line side. -/
def Home.isLine : Home → Bool
  | .line | .swap | .bed _ | .silt _ => true
  | _ => false

/-- The line island's reset: every line-side unit that is in no sub-island (R17, R65). Sizes written to TEL.ARCH_CFG wait for the
island's next ON (R312), though the register has its reset value again (R8; DEDUCED, assumption 98). -/
def State.resetLine (s : State) : State :=
  let s := (s.resetRegs fun h => h == .line || h == .swap).dropTimers lineTimer
  { s with
    lanes := [], ports := [], macs := s.macs.filter fun e => e.1 == 272, shadow := [], frames := [], copies := []
    mesh := {}, adm := {}, sched := {}, gates := {}, time := {}, tel := { archNext := s.tel.archNext }, fabric := [], assay := {}, silt := [], tilth := {}
    fates := [], pmuNext := [], evWait := s.evWait.filter fun e => !(homeOf e.1).isLine
    harm := { reports := s.harm.reports, pllAlarm := s.harm.pllAlarm, pllOwed := s.harm.pllOwed, worn := s.harm.worn } }

/-- Frames that crossed to the host side and that it has not let go of are counted under DROP_HOST_DOWN (R349). -/
def State.countHostDown (s : State) : State :=
  let n := (s.hostFrames.filter HostFrame.credit).length + s.mgmt.txq.length
  if s.lineOn && n != 0 then s.addCnt (offTelDrop 16 9) n offTelEvt 2 else s

/-- The host island's reset: every host-side unit (R72, R473). CLK.PLL.LOCK_LOST, FAILS and LOCKED are held in the wake
island. -/
def State.resetHost (s : State) : State :=
  let s := ((s.dbgClose false).dbgClose true).countHostDown
  let lost := s.rdb offClkPll 30
  let s := ((s.resetRegs fun h => h == .host).dropTimers hostTimer).wrb offClkPll 30 lost
  { s with
    rings := {}, mgmt := {}, aug := [], augTurn := 0, macs := s.macs.filter fun e => e.1 != 272
    evWait := s.evWait.filter fun e => homeOf e.1 != .host
    sec := { s.sec with host := {}, check := none, wipe := none, lcNext := none } }

/-- What bed n's own logic holds is gone. -/
def State.clearBed (s : State) (n : Nat) : State :=
  let mine := fun (k : Nat) => k / 16 == n
  let s := s.dropTimers fun
    | .portStage k | .reformLimit k | .gap k | .faultHold k | .dormantWake k | .mmVerify k => mine k
    | .pauseLeft m _ | .wdRun m _ | .wdHold m _ | .pauseRefresh m _ => mine m
    | .handoff k => k / 8192 == n
    | .heartbeat b => b == n
    | _ => false
  let s := (s.resetRegs fun h => h == .bed n).loadImage n {}
  let m := s.mesh
  { s with
    ports := sdrop mine s.ports, macs := sdrop mine s.macs
    shadow := sdrop (fun k => homeOf k == .bed n) s.shadow
    gates := { s.gates with ports := sdrop mine s.gates.ports }
    time := { s.time with tsq := sdrop mine s.time.tsq, tseq := sdrop mine s.time.tseq }
    mesh := { m with
      handles := sdrop (· / 8192 == n) m.handles, gens := sdrop (· / 8192 == n) m.gens, keyq := sdrop (· / 4 == n) m.keyq
      used := sdrop (· / 4 == n) m.used, lastEdit := sdrop (· == n) m.lastEdit, trial := sdrop (· / 8 == n) m.trial
      beat := sdrop (· == n) m.beat, audit := sdrop (· == n) m.audit, mapAt := sdrop (· == n) m.mapAt
      commits := sdrop (· / 2 == n) m.commits }
    evWait := s.evWait.filter fun e => homeOf e.1 != .bed n }

/-- The swap when a bed that it uses, and that serves no position, leaves ON: BED16's swap is over; a return goes back to
SERVING. -/
def State.swapCut (s : State) (n : Nat) : State :=
  let st := s.swapState
  if n = 16 && 1 ≤ st && st ≤ 4 && !s.harm.returning then (s.setSwap 0).harmMod fun h => { h with matched := 0 }
  else if s.harm.returning && n == s.swapPos then (s.setSwap 6).harmMod fun h => { h with returning := false, matched := 0 }
  else s

/-- The reset of bed sub-island n: the bed's own logic; the lane ring, the cross and the position state stay (R69). While the
line island stays ON its marl region keeps what the bed held, and the bed must come back fresh (R451, R454). -/
def State.resetBed (s : State) (n : Nat) : State :=
  if !s.lineOn || !s.bedOn n then s.clearBed n
  else
    let s := if s.regionBed n = n && n < 16 then s.keepRegion n (s.bedImage n) else s
    let s := s.harmMod fun h => { h with stale := if h.stale.contains n then h.stale else n :: h.stale }
    (s.swapCut n).clearBed n

/-- The reset of silt sub-island k: the link layer of link Lk. -/
def State.resetSilt (s : State) (k : Nat) : State :=
  let s := (List.range 8).foldl (fun s i => s.lanePower (siltLane k i) false) (s.siltVoid k)
  { s.resetRegs fun h => h == .silt k with
    silt := sdrop (· == k) s.silt, evWait := s.evWait.filter fun e => homeOf e.1 != .silt k }

end Sys2Proof.Machine
end

