-- ==== Sys2Proof/Machine/Islands.lean ====
section
/-! DEFINITION. Clocks, resets and power islands (chapter 03): the island state machine of R67, the resets of R69, the
root PLL of R64 and the clock monitor of R75. -/

namespace Sys2Proof.Machine

/-! ## Power enables and holds -/

/-- PWR.STATE reads RUN (R476). -/
def State.isRun (s : State) : Bool := s.rdf offPwrState 31 30 == 0

/-- An island's power enable (R65, R476); by island index. A mapped-out bed is never powered (R476), an absent bed or
link never (R54, R56). -/
def State.enabled (s : State) (i : Nat) : Bool :=
  !s.pwr.fallow && (
    if i = 0 then true
    else if i = 1 then s.rdb offPwrIslandCtl 31
    else if i < 19 then
      !s.mapped 1 (i - 2) && (i != 18 || s.hasFallow) && ((s.isRun && i != 18) || s.rdb offPwrIslandCtl (i - 2))
    else s.hasLink (i - 19) && (s.isRun || s.rdb offPwrIslandCtl (17 + (i - 19))))

/-- The line island's reset hold: the pin or RST.CTL.LINE_HOLD (R67), or a wipe, which leaves it in HELD (R472). -/
def State.lineHold (s : State) : Bool := !s.pwr.lineRstN || s.rdb offRstCtl 0 || s.sec.wipe.isSome

/-- An island's reset hold (R67). The host island waits for the fuses to be sensed (R70); a silt sub-island's hold is
the line island's. -/
def State.held (s : State) (i : Nat) : Bool :=
  if i = 0 then !s.pwr.hostRstN || !s.pwr.fusesSensed
  else if i = 1 then s.lineHold
  else if i < 19 then s.rdb offRstBed (i - 2)
  else s.lineHold

/-- The parent island is powered: a sub-island can be powered off only then (R65). -/
def State.parentPowered (s : State) (i : Nat) : Bool := i ≤ 1 || (s.islAt 1).lit

/-- The parent island is ON; the host and line islands have none (R65). -/
def State.parentOn (s : State) (i : Nat) : Bool := i ≤ 1 || s.lineOn

/-! ## Leaving ON -/

/-- The reset of an island by its index. -/
def State.resetIsland (s : State) (i : Nat) : State :=
  if i = 0 then s.resetHost else if i = 1 then s.resetLine
  else if i < 19 then s.resetBed (i - 2) else s.resetSilt (i - 19)

/-- An island goes to HELD with its reset asserted, and on to OFF when its power enable is clear (R67). -/
def State.toHeld (s : State) (i : Nat) : State :=
  let s := (s.resetIsland i).setIslAt i .held
  if s.enabled i then s else s.setIslAt i .off

/-- The frames the line side holds are added to RST.LINE_LOSS as the line island leaves ON (R71). -/
def State.countLineLoss (s : State) : State :=
  s.setCnt offRstLineLossLo (s.cnt offRstLineLossLo + s.heldFrames)

/-- The sub-islands of the line island. -/
def subIslands : List Nat := (List.range 25).map (· + 2)

/-- The line island leaves ON: its loss is counted, MEAS is zeroed (R481), and every sub-island follows (R67). -/
def State.lineDown (s : State) : State :=
  let s := ((s.countLineLoss).ppsClamp.augLineDown.dbgClose true).wrs (offMeas 0) (List.replicate 12 0)
  let s := s.toHeld 1
  subIslands.foldl (fun s i => s.toHeld i) s

/-- The host island leaves ON (R32, R72, R473). -/
def State.hostDown (s : State) : State := s.toHeld 0

/-- An island leaves ON (R67). -/
def State.islandDown (s : State) (i : Nat) : State :=
  if i = 0 then s.hostDown else if i = 1 then s.lineDown else s.toHeld i

/-- An island takes the transitions its enable, its hold and the PLL now call for (R67). `was` is its power enable
before the change: only a rising enable leaves OFF. -/
def State.settle (s : State) (i : Nat) (was : Bool) : State :=
  match s.islAt i with
  | .off => if s.enabled i && !was then (s.setIslAt i .ramp).startTimer (.ramp i) (us 100) else s
  | .ramp => s
  | .held => if s.enabled i || !s.parentPowered i then s else s.setIslAt i .off
  | .sync => if s.held i || !s.pwr.pllLocked then (s.resetIsland i).setIslAt i .held else s
  | .on => if s.held i || !s.enabled i || !s.pwr.pllLocked then s.islandDown i else s

/-- Every island settles after a change of the controls made in `s`, judged against the enables before it; a sub-island in
HELD first, while its parent is still powered (R65). -/
def State.settleAll (s before : State) : State :=
  let s := subIslands.foldl (fun s i => if s.islAt i == .held then s.settle i true else s) s
  (List.range 27).foldl (fun s i => s.settle i (before.enabled i)) s

/-! ## R68: what a write may not take out of ON -/

/-- The block refuses to take bed n out of ON: it is ON, serves a position and is not fenced (R68). -/
def State.bedGuarded (s : State) (n : Nat) : Bool := s.bedOn n && s.servesAny n && !s.bedFenced n

/-- Silt link k's module holds grains (R411). -/
def State.siltHolds (s : State) (k : Nat) : Bool := s.siltHeld k != 0

/-- The block refuses to take silt sub-island k out of ON while its module holds grains (R68). -/
def State.siltGuarded (s : State) (k : Nat) : Bool := s.siltOn k && s.siltHolds k

/-- A refusal under R68 is reported. -/
def State.pwrRefused (s : State) : State := (s.wrb offPwrFault 31 true).raiseEvt offBlkEvt 2

/-- The word with the bits i (of those below n) that a test names kept from the old word. -/
def keepBits (n : Nat) (p : Nat → Bool) (old new : Word) : Word :=
  (List.range n).foldl (fun w i => if p i then setBit i (bit i old) w else w) new

/-- A write of RST.BED: bits that would hold a guarded bed keep their values (R68). -/
def State.rstBedWrite (s : State) (v : Word) : State :=
  let old := s.rd offRstBed
  let refuse := fun i => decide (i < 17) && !bit i old && bit i v && s.bedGuarded i
  let new := keepBits 17 refuse old (v &&& 0x1FFFF)
  let s' := (s.wr offRstBed new).settleAll s
  if (List.range 17).any refuse then s'.pwrRefused else s'

/-- The bits of PWR.ISLAND_CTL that R54 and R56 make absent read 0. -/
def State.islandCtlMask (s : State) : Word :=
  keepBits 25 (fun i => (i == 16 && (!s.hasFallow || s.mapped 1 16)) || (17 ≤ i && !s.hasLink (i - 17))) 0 0x81FFFFFF

/-- A write of PWR.ISLAND_CTL: bits that would power off a guarded sub-island keep their values. A write that clears
LINE_ON is never refused (R68). -/
def State.islandCtlWrite (s : State) (v : Word) : State :=
  let old := s.rd offPwrIslandCtl
  let lineOff := !bit 31 v
  let refuse := fun i => !lineOff && bit i old && !bit i v &&
    (if i < 17 then s.bedGuarded i else s.siltGuarded (i - 17))
  let new := keepBits 25 refuse old (v &&& s.islandCtlMask)
  let s' := (s.wr offPwrIslandCtl new).settleAll s
  if (List.range 25).any refuse then s'.pwrRefused else s'

/-! ## Coming up -/

/-- BED16 is powered and its hold released, so that it can come to ON (R447; DEDUCED, assumption 12). -/
def State.bed16Up (s : State) : State :=
  ((s.wrb offPwrIslandCtl 16 true).wrb offRstBed 16 false).settle 18 (s.enabled 18)

/-- The lowest bed that a map-out takes out of service, where BED16 is there to serve its position (R460). -/
def State.mappedBed (s : State) : Option Nat :=
  if s.hasFallow && !s.mapped 1 16 then (List.range 16).find? fun b => s.mapped 1 b else none

/-- A harm record is written to HARM.LOG (R443): `head` is word 0 without its SEQ, `count` the detections it counts. -/
def State.harmRecord (s : State) (head count : Nat) : State :=
  let q := s.harm.seq
  let v := s.tbNow 0
  let words := [w32 (head + q), w32 (tbNs v), w32 (tbSec v), w32 (min 0xFFFF count * 65536 + tbSec v / 2 ^ 32 % 65536)]
  let full := s.rdf offHarmStatus 20 16 = 16
  let s := s.wrs (offHarmLog (q % 16) 0) words
  let s := (s.wrf offHarmStatus 20 16 (min 16 (s.rdf offHarmStatus 20 16 + 1))).wrf offHarmStatus 15 0 q
  let s := (s.wrb offHarmStatus 31 true).harmMod fun h => { h with seq := (q + 1) % 65536 }
  if full then s.wrb offHarmStatus 30 true else s

/-- A harm record joins the harm report lines' queue, 16 deep; the oldest that is not yet presented gives way, and OVF is
set (R488). -/
def State.harmReport (s : State) (word0 : Word) : State :=
  let q := s.harm.reports ++ [word0]
  if 16 < q.length then (s.harmMod fun h => { h with reports := q.take 1 ++ q.drop 2 }).wrb offHarmStatus 30 true
  else s.harmMod fun h => { h with reports := q }

/-- The record of a PLL loss: CLASS 8, KIND 0 (R443). -/
def State.pllRecord (s : State) : State :=
  let s := s.harmMod fun h => { h with pllOwed := false }
  if s.hasSafety then (s.harmMod fun h => { h with pllAlarm := false }).harmRecord (8 * 2 ^ 28) 1 else s

/-- An island reaches ON: isolation is released and credits are granted. The line island raises EVT_TIME_UNSYNC (R300),
puts the archive sizes in force (R312) and has BED16 loaded for the position of a mapped-out bed (R460); a bed that comes
back holds what its marl region kept (R454); the host island has one event record sent for every EVT register with
unmasked status bits at 1 (R317), and the record of a PLL loss is written (R443). -/
def State.reachOn (s : State) (i : Nat) : State :=
  let s := s.setIslAt i .on
  if i = 1 then
    let cfg := s.tel.archNext.getD (s.rd offTelArchCfg)
    let now := min 32 (fld 13 8 cfg) * 256 + min 32 (fld 5 0 cfg)
    let s := { (s.raiseEvt offTimeEvt 3).wr offTelArchNow (w32 now) with tel := { s.tel with archNext := none } }
    match s.mappedBed with | some b => (s.swapBegin b 3).bed16Up | none => s
  else if 2 ≤ i && i < 18 then
    match sget (fun _ => none) s.harm.marl (i - 2) with
    | some img => (s.loadImage (i - 2) img).harmMod fun h => { h with marl := sdrop (· == i - 2) h.marl }
    | none => s
  else if i = 0 then
    s.regs.foldl (fun s e =>
      let live := e.2 &&& ~~~ s.rd (e.1 + 4)
      match regRow e.1 with
      | some row => if row.evt && live != 0 then { s with evWait := sset (fun _ => 0) s.evWait e.1 live } else s
      | none => s) (if s.harm.pllOwed then s.pllRecord else s)
  else s

/-- R67: an island's rail becomes good in RAMP. With the line island powered again, a sub-island whose enable was cleared
meanwhile goes to OFF (R65). -/
def execRailGood (i : Island) (s : State) : Host.Outcome State Fault Refusal :=
  let n := islIx i
  if s.islAt n = .ramp then
    let s := ((s.setIslAt n .held).stopTimer (.ramp n)).settle n true
    .next (if n = 1 then subIslands.foldl (fun s i => s.settle i true) s else s)
  else .next s

/-- R67: the ramp timer expires without rail good: the island returns to OFF with its PWR.FAULT bit set. -/
def execRampTimeout (i : Island) (s : State) : Host.Outcome State Fault Refusal :=
  let n := islIx i
  if s.islAt n = .ramp && s.timerOn (.ramp n) then
    let faultBit := if n = 0 then 29 else if n = 1 then 30 else n - 2
    .next ((((s.setIslAt n .off).stopTimer (.ramp n)).wrb offPwrFault faultBit true).raiseEvt offBlkEvt 1)
  else .next s

/-- R67: hold clear, PLL locked and parent ON: reset is released and the bridges centre themselves. The line island
applies the map-outs first (R461), the host island forms the capability list (R52). -/
def execIslandResetRelease (i : Island) (s : State) : Host.Outcome State Fault Refusal :=
  let n := islIx i
  if s.islAt n = .held && s.enabled n && !s.held n && s.pwr.pllLocked && s.parentOn n then
    let s := s.setIslAt n .sync
    if n = 1 then .next { s with pwr := { s.pwr with applied := s.allMaps } }
    else if n = 0 then
      .next { s with pwr := { s.pwr with
        options := Config.builtOptions &&& ~~~s.pwr.optBlown, links := Config.builtLinks &&& ~~~s.pwr.linkBlown } }
    else .next s
  else .next s

/-- R63, R67: the bridges have centred; the island goes ON, unless its hold or the PLL has meanwhile changed. -/
def execBridgeCentred (i : Island) (s : State) : Host.Outcome State Fault Refusal :=
  let n := islIx i
  if s.islAt n = .sync then .next ((s.reachOn n).settle n true) else .next s

/-! ## Resets (R69, R70) -/

/-- A cause bit of RST.CAUSE is set (R69). -/
def State.cause (s : State) (i : Nat) : State := s.wrb offRstCause i true

/-- Power goes while fuses are being blown: a ledger entry is left empty, BAD or correct (R459), a lifecycle bit or a key
slot blown or not; which of these is a free value (assumption 3). -/
def State.blowCut (s : State) : State :=
  let v := Config.freeValue s.draws
  let p := s.pwr
  let p := match s.sec.fuseBlow with
    | some (i, w) => { p with ledger := sset (fun _ => 0) p.ledger i (w &&& w32 v) }
    | none => p
  let p := match s.sec.lcBlow with
    | some (t, _) => if v % 2 = 1 then { p with life := p.life ||| BitVec.ofNat 3 (2 ^ t) } else p
    | none => p
  let p := match s.sec.keyBlow with
    | some k => if v % 2 = 1 then { p with revoked := p.revoked ||| BitVec.ofNat 16 (2 ^ k) } else p
    | none => p
  { s with pwr := p, draws := s.draws + 1 }

/-- LOT_POR_N is low: every island is reset and held off. The fuses, and what has left the block, stay (R69, R70). -/
def State.powerLost (s : State) : State :=
  let s := s.blowCut
  { State.reset with
    pending := s.pending, now := s.now, draws := s.draws, outbox := s.outbox, timers := [],
    pwr := { s.pwr with
      porN := false, pllOn := false, pllLocked := false, fusesSensed := false, isl := []
      monRun := none, monRan := false, fallow := false, fallowWait := false, wakeReq := false, wakeArmed := false
      wakeDeaf := false, applied := [] } }

/-- LOT_POR_N rises: the wake island leaves reset, the fuses are sensed, the PLL is enabled and every enabled island
ramps (R64, R67, R70). -/
def State.powerReleased (s : State) : State :=
  let s := { s with pwr := { s.pwr with porN := true, pllOn := true, fusesSensed := true, lifeSensed := s.pwr.life } }
  (List.range 27).foldl (fun s i =>
    if s.enabled i then (s.setIslAt i .ramp).startTimer (.ramp i) (us 100) else s) s

/-- R70: LOT_POR_N at a level. -/
def execPowerOnReset (level : Bool) (s : State) : Host.Outcome State Fault Refusal :=
  if level then (if s.pwr.porN then .next s else .next s.powerReleased)
  else .next s.powerLost

/-- R495: a rail leaves its tolerance, and the supervisor asserts LOT_POR_N; nothing is counted. -/
def execRailFault (_rail : Fin 7) (s : State) : Host.Outcome State Fault Refusal := .next s.powerLost

/-- R69: LOT_LINE_RST_N at a level: low holds the line island and its sub-islands in reset. -/
def execLineResetPin (level : Bool) (s : State) : Host.Outcome State Fault Refusal :=
  let s' := { s with pwr := { s.pwr with lineRstN := level } }
  if level then .next s' else .next ((s'.cause 3).settleAll s)

/-- RST.CTL.LINE_HOLD takes a value (R69). -/
def State.setLineHold (s : State) (hold : Bool) : State :=
  let s' := s.wrb offRstCtl 0 hold
  if hold && !s.rdb offRstCtl 0 then (s'.cause 4).settleAll s else s'

/-- R69: a write of RST.CTL.LINE_HOLD holds or releases the line island. -/
def execRstCtlLineHold (hold : Bool) (s : State) : Host.Outcome State Fault Refusal := .next (s.cfg offRstCtl fun s => s.setLineHold hold)

/-- R68: a write of RST.BED. -/
def execRstBedWrite (v : Word) (s : State) : Host.Outcome State Fault Refusal := .next (s.cfg offRstBed fun s => s.rstBedWrite v)

/-- R68: a write of PWR.ISLAND_CTL. -/
def execPwrIslandCtlWrite (v : Word) (s : State) : Host.Outcome State Fault Refusal := .next (s.cfg offPwrIslandCtl fun s => s.islandCtlWrite v)

/-! ## The root PLL (R64) -/

/-- R64: the root PLL loses lock: every domain but CK_WAKE stops and every island goes to HELD. -/
def State.pllLost (s : State) : State :=
  let s' := { s with pwr := { s.pwr with pllLocked := false } }
  let s' := (s'.wrb offClkPll 30 true).raiseEvt offBlkEvt 0
  (s'.cause 5).settleAll s

/-- R64, R70: the root PLL locks; the islands may come up. -/
def execPllRelock (s : State) : Host.Outcome State Fault Refusal :=
  if s.pwr.pllOn then .next ({ s with pwr := { s.pwr with pllLocked := true, fusesSensed := true } }).monSee else .next s

/-! ## The clock monitor (R61, R75) -/

/-- The accepted counts of a domain in 1,024 CK_WAKE cycles (R75). -/
def monRange (d : Nat) : Nat × Nat :=
  if d ≤ 17 then (654720, 656000)
  else if d ≤ 19 then (523776, 524800)
  else if d = 20 then (436480, 437333)
  else if d = 21 then (261888, 262400)
  else if d = 22 then (163680, 164000)
  else (52378, 52480)

/-- R75: a write of CLK.MON_SEL stores DOMAIN; with START it ends a running window and starts a new one on it. -/
def State.monSel (s : State) (v : Word) : State :=
  let s := s.wrf offClkMonSel 4 0 (fld 4 0 v)
  if bit 31 v then
    if fld 4 0 v ≤ 23 then
      { (s.wr offClkMonCount 0).startTimer .clkMon 419430 with
        pwr := { s.pwr with monRun := some (fld 4 0 v), monRan := s.clkRuns (fld 4 0 v) } }
    else
      { (s.wr offClkMonCount 0xA0000000).stopTimer .clkMon with pwr := { s.pwr with monRun := none } }
  else s

/-- R75: CLK.MON_SEL is written. -/
def execClkMonStart (v : Word) (s : State) : Host.Outcome State Fault Refusal := .next (s.cfg offClkMonSel fun s => s.monSel v)

/-- R75: the window ends with the cycles counted; a domain gated throughout gives COUNT 0. -/
def execClkMonWindowEnd (count : BitVec 20) (s : State) : Host.Outcome State Fault Refusal :=
  match s.pwr.monRun with
  | none => .next s
  | some d =>
    let n := if s.pwr.monRan then count.toNat else 0
    let out := n < (monRange d).1 || (monRange d).2 < n
    let s := (s.stopTimer .clkMon).wr offClkMonCount (w32 (2 ^ 31 + (if out then 2 ^ 30 else 0) + n))
    .next { s with pwr := { s.pwr with monRun := none } }

end Sys2Proof.Machine
end

