-- ==== Sys2Proof/Machine/Harm.lean ====
section
/-! DEFINITION. Harm: detections, declarations, records, fences and the faulted swap they start (chapter 18, R434 to
R443, R447, R450). -/

namespace Sys2Proof.Machine

/-! ## Fence targets -/

/-- What a harm's fence acts on (R435). -/
inductive Target where
  | none
  | port (p : Nat)
  | bed (b : Nat)
  | engine (e : Nat)
  deriving DecidableEq, Repr

/-- TARGET_KIND and TARGET of a record, in place (R443). -/
def Target.word : Target → Nat
  | .none => 0
  | .port p => 2 ^ 26 + p * 2 ^ 17
  | .bed b => 2 * 2 ^ 26 + b * 2 ^ 17
  | .engine e => 3 * 2 ^ 26 + e * 2 ^ 17

/-- The number of a target among the counts of a class. -/
def Target.key : Target → Nat
  | .none => 0
  | .port p => 1 + p
  | .bed b => 512 + b
  | .engine e => 600 + e

/-- The count and window of a class and target. -/
def harmKey (cls : Nat) (t : Target) : Nat := 1024 * cls + t.key

/-- HARM[h].CTL. -/
def harmCtl (h : Nat) : Nat := 0x700000 + 4 * h

/-! ## Discards under a fence -/

/-- CNT_DROP_FENCED counts. -/
def State.countFenced (s : State) : State := s.safeInc 2 1

/-- CNT_DROP_GRAIN_CRC counts. -/
def State.countGrain (s : State) : State := s.safeInc 0 1

/-- A frame's handle, if it has one, is freed and its key withdrawn. -/
def State.dropHandle (s : State) (f : Nat) : State :=
  match (s.frame f).bind (·.handle) with
  | some k =>
    match s.handle k with
    | some h =>
      if h.frame = f then
        (s.setKeyQueue (k / 8192) h.chan ((s.keyQueue (k / 8192) h.chan).filter (· != k))).freeHandle k
      else s
    | none => s
  | none => s

/-- A frame's own path is still under way in its bed, before admission. -/
def Frame.inBed (x : Frame) : Bool := x.path != .repl && x.path != .copies

/-- Frames of bed b not yet admitted are discarded under DROP_FENCED (R442, R450). -/
def State.fenceFrames (s : State) (b : Nat) : State :=
  (s.framesWhere fun x => x.bed == b && x.inBed).foldl (fun s f =>
    ((s.countFenced.reportDrop f).dropHandle f).discardAll f) s

/-- A copy of a network port is selected by a bed and its frame has not left whole. -/
def State.selectedBy (s : State) (b : Nat) (c : Copy) : Bool :=
  (c.stage == .selected || c.stage == .edited) && c.port < 256 && s.bedOfPort c.port == some b

/-- Copies that a test names are discarded under DROP_FENCED. -/
def State.fenceCopies (s : State) (p : Copy → Bool) : State :=
  (s.copiesWhere p).foldl (fun s i => s.countFenced.discardCopy i) s

/-- The frame of a port that is cut and still to be continued goes no further (R125, R442). -/
def State.portCut (s : State) (b p : Nat) : State :=
  match (s.mac (16 * b + p)).openTx with
  | some o => (s.cutCount b p o.sent).openEnd b p
  | none => s

/-- No frame of a bed's ports is cut and still to be continued. -/
def State.closeTx (s : State) (b : Nat) : State := (List.range 16).foldl (fun s p => s.portCut b p) s

/-- A copy of the marl is marked bad (R453). -/
def State.marlMark (s : State) (copy : Nat) : State :=
  let s := (s.wrb offMarlStatus copy true).safeEvt 6
  if s.marlBad then s.wrb offMarlStatus 2 true else s

/-! ## Fences (R442) -/

/-- Port p is fenced: what its MAC has of its frames is cut. -/
def State.fencePort (s : State) (p : Nat) : State :=
  let s := s.wrb (offFencePort (p / 32)) (p % 32) true
  match s.macOf p with
  | some m => match (s.mac m).openTx with
    | some o => (s.countFenced.portCut (m / 16) (m % 16)).discardCopy o.copy
    | none => s
  | none => s

/-- The sixteen ports of a position are fenced, or released. -/
def State.fencePosition (s : State) (p : Nat) (on : Bool) : State :=
  s.wrf (offFencePort (p / 2)) (16 * (p % 2) + 15) (16 * (p % 2)) (if on then 0xFFFF else 0)

/-- MAC state of a bed's ports starts afresh: no pause, merge DISABLED (R454). -/
def State.freshMacs (s : State) (b : Nat) : State :=
  (List.range 16).foldl (fun s p =>
    let s := (s.mmDisable b p).wr (offMacPauseStat b p) 0
    { s with
      macs := sdrop (· == 16 * b + p) s.macs
      timers := s.timers.filter fun e => match e.1 with
        | .pauseLeft m _ | .wdRun m _ | .wdHold m _ | .pauseRefresh m _ => m != 16 * b + p
        | _ => true }) s

/-- Every port that has not switched goes to the swap's new bed, with its counters while they read cleanly (R449). -/
def State.switchAll (s : State) (stats : Bool) : State :=
  (List.range 16).foldl (fun s p =>
    if s.portDone p then s
    else
      let s := (s.carryPort s.swapBeds.1 s.swapBeds.2 p stats).wrb offSwapStatus p true
      if stats then s else s.wrb offSwapStatus 16 true) s

/-- The swap in progress is finished at once: its new bed serves the position (R447). -/
def State.finishSwap (s : State) (stats : Bool) : State :=
  let s := s.switchAll stats
  (s.freshMacs s.swapBeds.2).swapDone

/-- BED16 is fenced while it serves position p: the swap is IDLE, and the position's ports stay fenced until its own bed is
fresh again. That bed holds what BED16 held, as the marl copy does. -/
def State.fallowLost (s : State) : State :=
  let p := s.swapPos
  let img := s.bedImage 16
  let s := (s.setSwap 0).harmMod fun h =>
    { h with returning := false, matched := 0, stale := if h.stale.contains p then h.stale else p :: h.stale }
  let s := if s.bedOn p then s.loadImage p img else s.keepRegion p img
  (s.fencePosition p true).harmMod fun h => { h with waiting := p :: h.waiting }

/-- What the swap does when bed b is fenced (R447). -/
def State.swapOnFence (s : State) (b : Nat) : State :=
  let st := s.swapState
  let mine := s.swapPos = b
  if b = 16 then
    if s.swapHolds then s.fallowLost
    else if st = 5 && s.harm.returning then s.finishSwap (s.bedOn 16)
    else if st = 2 || st = 3 || st = 4 then s.swapAbort 0
    else if st = 5 then s.swapAbort 0
    else s
  else if s.harm.returning && mine then s.swapAbort 0
  else if (st = 4 || st = 5) && mine then s.finishSwap (s.bedOn b)
  else if st = 2 && mine then (s.setSwap 3).safeEvt 3
  else if st ≤ 1 && s.rdb offSwapCtl 27 && s.hasFallow && !s.mapped 1 16 && !s.mapped 1 b then
    if s.marlBad then s.wrf offSwapStatus 21 20 3 else (s.swapBegin b 3).bed16Up
  else s

/-- Bed b is fenced: every frame it holds is discarded, it must come back fresh, and the swap takes note. -/
def State.fenceBed (s : State) (b : Nat) : State :=
  if s.bedFenced b then s
  else
    let s := (s.fenceFrames b).fenceCopies (s.selectedBy b)
    let s := (s.closeTx b).wrb offFenceBed b true
    let s := match s.posOf b with | some p => s.emit (.ringFault p) | none => s
    let s := s.harmMod fun h => { h with stale := if h.stale.contains b then h.stale else b :: h.stale }
    s.swapOnFence b

/-- The ports whose active gate list runs on TB_A, lowest first (R435). -/
def State.tbAPorts (s : State) (k : Nat) : List Nat :=
  (List.range 256).filter fun p =>
    match s.bedOfPort p with
    | some b => decide (2 ≤ s.rdf (offGateStatus b (p % 16)) 31 30) && s.rdf (offGateAct b (p % 16) 1) 31 29 == k
    | none => false

/-- The fence that a class selects acts on a target: 0 none, 1 port, 2 and 3 bed. A bed target under a port fence has every
port of its position fenced (assumption 13). -/
def State.fence (s : State) (cls : Nat) (t : Target) (ports : List Nat) : State :=
  let f := s.rdf (harmCtl cls) 31 30
  if f = 0 then s
  else if cls = 4 then ports.foldl (fun s p => s.fencePort p) s
  else match t with
  | .port p =>
    if f = 1 then s.fencePort p
    else match s.bedOfPort p with | some b => s.fenceBed b | none => s.fencePort p
  | .bed b =>
    if f = 1 then (match s.posOf b with | some p => (List.range 16).foldl (fun s q => s.fencePort (16 * p + q)) s | none => s)
    else s.fenceBed b
  | _ => s

/-! ## Detection and declaration (R440, R441) -/

/-- A harm is declared: record, counter, event, alarm, report, fence. -/
def State.declare (s : State) (cls : Nat) (t : Target) (count : Nat) (ports : List Nat) : State :=
  let head := cls * 2 ^ 28 + t.word
  let word0 := w32 (head + s.harm.seq)
  let s := ((s.harmRecord head count).safeInc 4 1).safeEvt 0
  (s.harmReport word0).fence cls t ports

/-- A detection of a class counts for its target; the one that reaches THRESH in its window declares the harm. Without
SAFETY_PACK nothing is recorded (R434). -/
def State.detectOn (s : State) (cls : Nat) (t : Target) (ports : List Nat) : State :=
  if !s.hasSafety then s
  else
    let k := harmKey cls t
    let n := sget (fun _ => 0) s.harm.counts k + 1
    if max 1 (s.rdf (harmCtl cls) 7 0) ≤ n then
      ((s.harmMod fun h => { h with counts := sset (fun _ => 0) h.counts k 0 }).stopTimer (.harmWindow k)).declare
        cls t n ports
    else
      let s := s.harmMod fun h => { h with counts := sset (fun _ => 0) h.counts k n }
      if s.timerOn (.harmWindow k) then s
      else s.startTimer (.harmWindow k) (us (max 1 (s.rdf (harmCtl cls) 29 16)))

/-- A detection of a class other than 4. -/
def State.detect (s : State) (cls : Nat) (t : Target) : State := s.detectOn cls t []

/-- A time monitor's detection: the record names the lowest of the ports that TB_A drives (assumption 13). -/
def State.detectTime (s : State) (k : Nat) : State :=
  let ports := s.tbAPorts k
  s.detectOn 4 (match ports with | p :: _ => .port p | [] => .none) ports

/-- A class 7 detection is declared at once; its fence is R427's (R440). -/
def State.detectEngine (s : State) (e : Nat) : State :=
  if !s.hasSafety then s
  else
    let head := 7 * 2 ^ 28 + (Target.engine e).word
    let word0 := w32 (head + s.harm.seq)
    (((s.harmRecord head 1).safeInc 4 1).safeEvt 0).harmReport word0

/-! ## Grain checks (R437) -/

/-- The copies of a frame of which part has gone on the wire go no further: the MAC ends the frame (R437). -/
def State.cutCopies (s : State) (f : Nat) : State :=
  (s.copiesWhere fun c => c.frame == f).foldl (fun s i =>
    match (s.copy i).bind fun c => s.macOf c.port with
    | some m => if (s.mac m).openTx.any fun o => o.copy == i then s.portCut (m / 16) (m % 16) else s
    | none => s) s

/-- A frame is lost whole, with every copy of it that is not fully transmitted: its own path, while it has not ended, and
each copy count under DROP_GRAIN_CRC. -/
def State.loseFrame (s : State) (f : Nat) : State :=
  let s := (s.cutCopies f).discardCopies f State.countGrain
  match s.frame f with
  | some x =>
    if x.path != .copies && x.refs != 0 then ((s.countGrain.reportDrop f).dropHandle f).discardAll f else s
  | none => s

/-- A grain of a frame fails its check at a hand-off: the frame is lost, and the failure counts toward class 1 of the bed
position it was found in, if it was found in one. -/
def State.grainFail (s : State) (t : Target) (f : Nat) : State := (s.loseFrame f).detect 1 t

end Sys2Proof.Machine
end

