-- ==== Sys2Proof/Machine/Assay.lean ====
section
/-! DEFINITION. The Assay units: parameter sets, trailers on egress, checks on ingress, the start of scan passes
(chapter 15, R375 to R388). -/

namespace Sys2Proof.Machine

/-! ## Parameter sets (R375 to R378) -/

/-- The Assay state is changed. -/
def State.assayMod (s : State) (f : Assay → Assay) : State := { s with assay := f s.assay }

/-- The committed set of a unit; at reset the one its registers hold, CRC-32C. -/
def State.assaySet (s : State) (u : Nat) : CrcSet := sget (fun _ => meshCrc 0xFFFFFFFF) s.assay.sets u

/-- A unit runs the fixed fallback. -/
def State.assayFallback (s : State) (u : Nat) : Bool := s.rdb (offUnitCfg u) 30 || s.assay.parity.contains u

/-- The set a unit computes with. -/
def State.assayInForce (s : State) (u : Nat) : CrcSet :=
  if s.assayFallback u then meshCrc 0xFFFFFFFF else s.assaySet u

/-- C, the bytes of a check value (R376). -/
def CrcSet.bytes (c : CrcSet) : Nat := (c.width + 7) / 8

/-- The trailer length that the guard band uses for a unit (R380). -/
def State.assayBound (s : State) (u : Nat) : Nat := 4 + max (s.assaySet u).bytes 4

/-- The set that a unit's parameter registers hold. -/
def State.assayRegs (s : State) (u : Nat) : CrcSet :=
  { width := s.rdf (offUnitCfg u) 6 0, poly := s.rd2 (offUnitPolyLo u), init := s.rd2 (offUnitInitLo u)
    xorOut := s.rd2 (offUnitXoroutLo u), refIn := s.rdb (offUnitCfg u) 29, refOut := s.rdb (offUnitCfg u) 28 }

/-- A commit of a unit's set, or its rejection (R377). -/
def State.assayCommit (s : State) (u : Nat) : State :=
  let c := s.assayRegs u
  if 8 ≤ c.width ∧ c.width ≤ 64 then
    s.assayMod fun a =>
      { a with sets := sset (fun _ => meshCrc 0xFFFFFFFF) a.sets u c, parity := a.parity.filter (· != u) }
  else (s.wrb (offUnitCfg u) 25 true).raiseEvt offAssayEvt 4

/-- A write of UNIT[u].CFG. -/
def State.unitCfgWrite (s : State) (u : Nat) (v : Word) : State :=
  let keep := s.rd (offUnitCfg u) &&& 0x0A000000 &&& ~~~ v
  let s := s.wr (offUnitCfg u) ((v &&& 0x70FF007F) ||| keep)
  if bit 31 v then s.assayCommit u else s

/-- R377: UNIT[u].CFG is written with COMMIT. -/
def execAssayCommit (u : Fin 16) (v : Word) (s : State) : Host.Outcome State Fault Refusal :=
  .next (s.cfg (offUnitCfg u) fun s => s.unitCfgWrite u (setBit 31 true v))

/-- R378: a parity error is found in a unit's committed set. -/
def execAssayParityError (u : Fin 16) (s : State) : Host.Outcome State Fault Refusal :=
  if s.lineOn then
    let s := (s.wrb (offUnitCfg u) 27 true).raiseEvt offAssayEvt 3
    .next ((s.assayMod fun a => { a with parity := if a.parity.contains u then a.parity else u :: a.parity }).marlBump 16)
  else .next s

/-- RESYNC of a unit (R382, R385). -/
def State.assayResync (s : State) (u : Nat) : State :=
  s.assayMod fun a => { a with alive := sdrop (fun k => k / 256 == u) a.alive, slots := sdrop (fun k => k / 256 == u) a.slots }

/-- R382: UNIT[u].RESYNC is written. -/
def execAssayResync (u : Fin 16) (v : Word) (s : State) : Host.Outcome State Fault Refusal :=
  .next (s.cfg (offUnitResync u) fun s => if bit 31 v then s.assayResync u else s)

/-- A counter of a unit counts n. -/
def State.assayCnt (s : State) (u i n : Nat) : State := s.addCnt (offAssayCnt u i) n offAssayEvt 8

/-! ## The trailer (R379, R381, R382) -/

/-- The frame with its trailer for an egress port, and the state whose alive counter has moved on. -/
def State.assayAppend (s : State) (u port : Nat) (bytes : List Byte) : List Byte × State :=
  let c := s.assayInForce u
  let k := 256 * u + port
  let a := sget (fun _ => 0) s.assay.alive k
  let pad := 60 - (bytes.length + 4 + c.bytes)
  let body := bytes ++ List.replicate pad 0 ++ [b8 port, b8 (s.rdf (offUnitCfg u) 23 16)] ++ beBytes 2 a
  let out := body ++ crcBytes c (crc c body)
  let s := (s.assayMod fun x => { x with alive := sset (fun _ => 0) x.alive k ((a + 1) % 65536) }).assayCnt u 0 1
  (out, if s.assayFallback u then s.assayCnt u 6 1 else s)

/-! ## Ingress (R383 to R385) -/

/-- What the ingress check makes of a frame. -/
inductive AssayRx where
  | unchecked
  | accepted (bytes : List Byte)
  | mismatch (unit : Nat)
  | stale (unit : Nat)
  deriving DecidableEq, Repr

/-- A frame of a network port is Assay-checked (R383). -/
def State.assayChecked (s : State) (cfg : ParseCfg) (port : Nat) (bytes : List Byte) : Bool :=
  let r := s.rd (offAssayRx port)
  let tagged := isTag (typeNext cfg (beAt bytes 12 2))
  bit 31 r && (if tagged then bit (byteAt bytes 14 / 32) r else bit 16 r)

/-- The frame passes the tests of R384 under a set. -/
def assayMatch (c : CrcSet) (tag : Nat) (bytes : List Byte) : Bool :=
  let n := bytes.length
  let a := 4 + c.bytes
  14 + a ≤ n && byteAt bytes (n - a + 1) == tag && beAt bytes (n - c.bytes) c.bytes == crc c (bytes.take (n - c.bytes))

/-- The ingress check of a frame, without its FCS, on a network port (R383 to R385). -/
def State.assayIngress (s : State) (cfg : ParseCfg) (port : Nat) (bytes : List Byte) : AssayRx × State :=
  if !s.assayChecked cfg port bytes then (.unchecked, s)
  else
    let u := s.rdf (offAssayRx port) 27 24
    let c := s.assayInForce u
    let n := bytes.length
    let s := if s.assayFallback u then s.assayCnt u 6 1 else s
    if !assayMatch c (s.rdf (offUnitCfg u) 23 16) bytes then
      (.mismatch u, (s.assayCnt u 2 1).raiseEvt offAssayEvt 0)
    else
      let t := n - (4 + c.bytes)
      let k := 256 * u + byteAt bytes t
      let a := beAt bytes (t + 2) 2
      let ok := fun (s : State) =>
        (AssayRx.accepted (bytes.take t),
          (s.assayMod fun x => { x with slots := sset (fun _ => none) x.slots k (some a) }).assayCnt u 1 1)
      match sget (fun _ => none) s.assay.slots k with
      | none => ok s
      | some e =>
        let d := (a + 65536 - e) % 65536
        if d = 1 then ok s
        else if 2 ≤ d ∧ d < 32768 then ok ((s.assayCnt u 5 (d - 1)).raiseEvt offAssayEvt 2)
        else (.stale u, (s.assayCnt u 4 1).raiseEvt offAssayEvt 1)

/-! ## Scan passes (R386 to R388) -/

/-- LEN of an entry in bytes: 0 acts as 64. -/
def scanLen (w : Word) : Nat := max 64 (w.toNat / 64 * 64)

/-- START of an entry in bytes. -/
def scanStart (w : Word) : Nat := w.toNat / 64 * 64

/-- A range of the block window lies in line-island regions (R43). -/
def lineRange (a n : Nat) : Bool :=
  (0x100000 ≤ a && a + n ≤ 0x200000) || (0x380000 ≤ a && a + n ≤ 0x800000) || (0x1000000 ≤ a && a + n ≤ 0x2100000)

/-- An entry is BAD (R386). -/
def scanBad (e : ScanEntry) : Bool :=
  match fld 25 24 e.ctl with
  | 0 => !lineRange e.start e.len
  | 3 => true
  | _ => decide (268435456 < e.start + e.len)

/-- An entry as it stands. -/
def State.scanEntry (s : State) (e : Nat) : ScanEntry :=
  { index := e, ctl := s.rd (offScanEntryCtl e), start := scanStart (s.rd (offScanEntryStart e))
    len := scanLen (s.rd (offScanEntryLen e)), ref := s.rd2 (offScanEntryRef e 0) }

/-- The entry in front of a pass begins: it keeps the set in force now to its end (R377). -/
def State.scanRead (s : State) (run : List ScanEntry) : State :=
  s.assayMod fun a =>
    { a with
      pass := some run
      entrySet := match run with | e :: _ => s.assayInForce (fld 19 16 e.ctl) | [] => a.entrySet }

/-- The period of scheduled passes starts anew. -/
def State.scanTimer (s : State) : State := s.startTimer .scan (us (clampTo 1000 65535 (s.rdf offScanCtl 15 0)))

/-- A pass starts: BAD bits are judged, the enabled entries that are not BAD are taken as they stand; a pass of none ends at
once. While RUN is 1 the next one is due CYCLE_US later (R388). -/
def State.scanBegin (s : State) : State :=
  let es := (List.range 32).map s.scanEntry
  let s := if s.rdb offScanCtl 31 then s.scanTimer else s
  let s := es.foldl (fun s e => s.wrb (offScanEntryCtl e.index) 27 (scanBad e)) s
  let run := es.filter fun e => bit 31 e.ctl && !scanBad e
  if run = [] then s.raiseEvt offAssayEvt 7
  else (s.scanRead run).wrb offScanCtl 21 true

/-- A start arrives: a pass begins, or is held while one runs. -/
def State.scanGo (s : State) : State :=
  if s.assay.pass.isSome then s.assayMod fun a => { a with held := true } else s.scanBegin

/-- A write of SCAN.CTL: its fields, and with START a pass. RUN going to 1 begins the periods. -/
def State.scanCtlWrite (s : State) (v : Word) : State :=
  let v := clampReg offScanCtl v
  let old := s.rd offScanCtl
  let s := s.wr offScanCtl ((v &&& 0xBF80FFFF) ||| (old &&& 0x00600000 &&& ~~~ (v &&& 0x00400000)))
  let s := if !bit 31 v then s.stopTimer .scan else if bit 31 old then s else s.scanTimer
  if bit 30 v then s.scanGo else s

/-- A scheduled start (R388). One that finds a pass running is late. -/
def State.scanPeriod (s : State) : State :=
  let s := s.stopTimer .scan
  (if s.assay.pass.isSome then (s.wrb offScanCtl 22 true).raiseEvt offAssayEvt 6 else s).scanGo

/-- R388: SCAN.CTL is written with START, or CYCLE_US has passed since the last scheduled start while RUN is 1. -/
def execScanStart (written : Option Word) (s : State) : Host.Outcome State Fault Refusal :=
  match written with
  | some v => .next (s.cfg offScanCtl fun s => s.scanCtlWrite (setBit 30 true v))
  | none => if s.timerOn .scan then .next s.scanPeriod else .next s

/-- The pass goes on after an entry: it ends with EVT_ASSAY_SCAN_DONE, and a start that was held begins the next. -/
def State.scanNext (s : State) (rest : List ScanEntry) : State :=
  if rest ≠ [] then s.scanRead rest
  else
    let again := s.assay.held
    let s := ((s.assayMod fun a => { a with pass := none, held := false }).wrb offScanCtl 21 false).raiseEvt offAssayEvt 7
    if again then s.scanBegin else s

/-- The check value of an entry is learned or compared (R387, R453). -/
def State.scanJudge (s : State) (e : ScanEntry) (check : Nat) : State :=
  let s := s.wr2 (offScanEntryLast e.index 0) check
  if bit 29 e.ctl then (s.wr2 (offScanEntryRef e.index 0) check).wrb (offScanEntryCtl e.index) 29 false
  else if e.ref = check then s
  else
    let s := (s.wrb (offScanEntryCtl e.index) 28 true).raiseEvt offAssayEvt 5
    let space := fld 25 24 e.ctl
    let s := if space = 1 ∨ space = 2 then s.marlMark (space - 1) else s
    if !bit 30 e.ctl then s
    else s.detect 5 (if space = 0 && 0x1000000 ≤ e.start then .bed ((e.start - 0x1000000) / 0x100000) else .none)

end Sys2Proof.Machine
end

