-- ==== Sys2Proof/Machine/Bringup.lean ====
section
/-! DEFINITION. Link fault and the bring-up, loss, re-form and Dormant of the network ports (chapter 04, R86 to R94, with R79,
R100, R112, R113 and R497). -/

namespace Sys2Proof.Machine

/-! ## Link fault toward the MAC (R93, R112, R113) -/

/-- The powered lanes of the span of a port send remote-fault sequences under LOCAL and idle under REMOTE (R112). -/
def State.signalFault (s : State) (b p : Nat) : State :=
  let v := s.rdf (offMacFault b p) 31 30
  let lanes := (s.runLanes b p).filter fun l => s.allLanes b [l] s.laneOn
  if v = 0 then s else s.emit (.faultSignal (s.portNo (16 * b + p)) (v == 2) lanes)

/-- A frame that a lost lane cut after some bytes of it: truncated on the wire, not transmitted (R93). -/
def State.frameCut (s : State) (b p i sent : Nat) : State :=
  let s := s.cutCount b p sent
  let s := if (s.mac (16 * b + p)).openTx.map (·.copy) = some i then s.openEnd b p else s
  (s.dropTel (s.posN b) 6).discardCopy i

/-- The frame that a port has sent in part is truncated where it stands (R93). -/
def State.cutOpen (s : State) (b p : Nat) : State :=
  match (s.mac (16 * b + p)).openTx with
  | some o => s.frameCut b p o.copy o.sent
  | none => s

/-- MAC.FAULT.LINK_FAULT goes to a value. Each transition to LOCAL or REMOTE raises its event and counts; from REMOTE to LOCAL
too, where R113 speaks of leaving NONE alone and the counter of every transition (DESIGN CHOICE, assumption 74). The return to
NONE raises EVT_MAC_FAULT_CLEAR. Leaving NONE starts FAULT_HOLD_MS under FAULT_ACTION 0 and 3 (R93, R113); under LOCAL a frame
sent in part is truncated. -/
def State.linkFault (s : State) (b p v : Nat) : State :=
  let old := s.rdf (offMacFault b p) 31 30
  if old = v then s else
  let s := s.wrf (offMacFault b p) 31 30 v
  if v = 0 then
    ((s.raiseEvt (offMacEvt b p) 7).stopTimer (.faultHold (16 * b + p))).portMod b p fun q => { q with holdOver := false }
  else
    let s := if v = 1 then s.cutOpen b p else s
    let s := (s.unsignal b p).raiseEvt (offMacEvt b p) (if v = 1 then 3 else 4)
    let s := (s.stat b p (if v = 1 then 59 else 60) 1).signalFault b p
    let fa := s.rdf (offPortForm b p) 27 26
    if old = 0 ∧ (fa = 0 ∨ fa = 3) then
      s.startTimer (.faultHold (16 * b + p)) (ms (max 1 (s.rdf (offPortForm b p) 25 16)))
    else s

/-- R112: an ACTIVE port begins or ceases to receive remote-fault sequences. -/
def execRemoteFaultChange (b : BedIx) (p : LocalIx) (remote : Bool) (s : State) : Host.Outcome State Fault Refusal :=
  if s.pActive b p then .next (s.linkFault b p (if remote then 2 else 0)) else .next s

/-! ## Transitions of R86 -/

/-- A port enters DETECT: its span's lanes are powered, those that waited for it among them, and the DETECT timer starts. -/
def State.toDetect (s : State) (b p : Nat) : State :=
  let s := s.pGo b p 1
  let s := s.onLanes b (s.runLanes b p) fun s base =>
    ((s.lanePower base true).laneUntrain base).laneMod base fun l => { l with out := false }
  (s.startTimer (.portStage (16 * b + p)) (s.tmo (offPortTimeout1 b p) 15 0)).signalFault b p

/-- A port enters LOCK. -/
def State.toLock (s : State) (b p : Nat) : State :=
  (s.pGo b p 3).startTimer (.portStage (16 * b + p)) (s.tmo (offPortTimeout1 b p) 31 16)

/-- A port goes Dormant as a whole: every lane of the span it left DISABLED with. Leaving ACTIVE it takes link fault (R94). -/
def State.toDormant (s : State) (b p : Nat) : State :=
  let s := ((s.pGo b p 9).stopTimer (.portStage (16 * b + p))).stopTimer (.gap (16 * b + p))
  let s := (s.stopTimer (.reformLimit (16 * b + p))).linkFault b p 1
  s.onLanes b (s.fullLanes b p) fun s base => s.laneDormant base

/-- DISABLED is left when the line island is ON and FORM is valid and nonzero (R86). A lane of the span that is in TEST stays in
it and counts as any other powered lane of the span: the spec gives TEST no end there (DESIGN CHOICE, assumption 75). -/
def State.leaveDisabled (s : State) (b p : Nat) : State :=
  let f := s.pForm b p
  if s.pState b p = 0 ∧ f ≠ 0 ∧ s.lineOn then
    let s := s.portMod b p fun q => { q with form := f, fec := s.pFec b p }
    let s := (s.pStat b p 3 0 f).pStat b p 7 4 p
    if s.rdb (offPortForm b p) 31 then
      (s.pGo b p 9).onLanes b (spanLanes p f) fun s base => (s.lanePower base true).laneDormant base
    else s.toDetect b p
  else s

/-- A port goes to DISABLED: its lanes are off, RETRIES, FELL_BACK and the fault fields clear (R86, R89). Its lanes discard their
stored coefficients whenever the port comes here, by a write that changes FEC alone and by an ABORT of the bed's role too, of
which R85 does not speak (DESIGN CHOICE, assumption 76). -/
def State.toDisabled (s : State) (b p : Nat) (lanes : List Nat) : State :=
  let k := 16 * b + p
  let s := s.onLanes b lanes fun s base => (s.lanePower base false).laneForget base
  let s := (((s.stopTimer (.portStage k)).stopTimer (.gap k)).stopTimer (.reformLimit k)).stopTimer (.dormantWake k)
  let s := (s.pGo b p 0).linkFault b p 1
  let s := (s.wr (offPortStatus b p) (s.rd (offPortStatus b p) &&& 0x0F00F100)).wrf (offPortCount b p) 15 0 0
  s.portMod b p fun q => { q with retries := 0, formChosen := 0, spanChosen := 0, agreed := false }

/-- A saturating 16-bit field counts one. -/
def State.satInc16 (s : State) (off hi lo : Nat) : State := s.wrf off hi lo (min 0xFFFF (s.rdf off hi lo + 1))

/-- A port enters GAP: LAST_FAIL is set and RETRIES counts one (R86). -/
def State.toGap (s : State) (b p lastFail : Nat) : State :=
  let k := 16 * b + p
  let s := ((s.pGo b p 6).pStat b p 27 24 lastFail).stopTimer (.portStage k)
  let s := (s.stopTimer (.reformLimit k)).satInc16 (offPortCount b p) 15 0
  let s := s.portMod b p fun q => { q with retries := q.retries + 1 }
  s.startTimer (.gap k) (ms (max 1 (s.rdf (offPortRetry b p) 7 0)))

/-- A re-forming port gives up to GAP: it stays on the fallback span chosen last (R86, R88). -/
def State.reformToGap (s : State) (b p lastFail : Nat) : State :=
  let q := s.port b p
  (((s.toGap b p lastFail).wrb (offPortStatus b p) 10 true).pStat b p 7 4 q.spanChosen).pStat b p 3 0 q.formChosen

/-- A port enters ACTIVE (R92): its lanes store their coefficients, link fault clears, the running form's rate goes to
the shadow set, which SH_ACK reports (R245), EVT_PORT_UP is raised. -/
def State.toActive (s : State) (b p : Nat) : State :=
  let k := 16 * b + p
  let form := s.runForm b p
  let first := s.runFirst b p
  let s := s.onLanes b (spanLanes first form) fun s base => s.laneStore base
  let s := (((s.pGo b p 5).pStat b p 3 0 form).pStat b p 7 4 first).stopTimer (.portStage k)
  let s := (s.stopTimer (.reformLimit k)).linkFault b p 0
  let gen := s.rdf (offSchedPortGen b p) 15 0 + 1
  let s := (s.shadowSet (offSchedPortRate b p) (w32 (formRate form))).wrb (offSchedPortGen b p) 30 true
  (s.shAck b p gen).raiseEvt (offPortEvt b p) 0

/-- After LOCK, the next stage of the port begins. -/
def State.lockDone (s : State) (b p : Nat) : State :=
  if s.rdb (offPortForm b p) 30 then
    (s.pGo b p 4).startTimer (.portStage (16 * b + p)) (s.tmo (offPortTimeout0 b p) 15 0)
  else s.toActive b p

/-! ## FORM writes (R79) -/

/-- Every lane of the span a port runs holds stored coefficients. -/
def State.allStored (s : State) (b p : Nat) : Bool :=
  s.allLanes b (s.runLanes b p) fun base => s.rdb (lnStatus base) 5

/-- The lanes of a port wake from Dormant: those of the span it runs start with their stored coefficients (R86, R94). -/
def State.wakeLanes (s : State) (b p : Nat) : State :=
  let run := s.runLanes b p
  let s := s.onLanes b (s.fullLanes b p) fun s base => s.lanePower base true
  s.onLanes b run fun s base => s.laneUseStored base

/-- DORMANT acts after a write of FORM that leaves FORM and FEC as they are (R86, R94); where a frame is sent in part, once it
has been sent to its end. -/
def State.formDormant (s : State) (b p : Nat) : State :=
  let st := s.pState b p
  if !s.roleServed b then s
  else if s.rdb (offPortForm b p) 31 then
    (if ((1 ≤ st ∧ st ≤ 6) ∨ st = 8) ∧ (s.mac (16 * b + p)).openTx = none then s.toDormant b p else s)
  else if st = 9 then
    (if s.allStored b p then
      ((s.pGo b p 10).wakeLanes b p).startTimer (.dormantWake (16 * b + p)) (ms 2)
    else s.toDetect b p)
  else s

/-- The cut frame of a port has been sent to its end, or is given up: preemption and a DORMANT that waited for it act. -/
def State.openDone (s : State) (b p : Nat) : State := (s.openEnd b p).formDormant b p

/-- The port is in a bring-up stage, in a wake or in a re-form: its bed's engine runs it, and a write of FORM waits for that
engine's next safe point (R100; that WAKE is among them is DEDUCED, assumption 77). -/
def State.midStage (s : State) (b p : Nat) : Bool :=
  let st := s.pState b p
  decide (1 ≤ st ∧ st ≤ 4) || st == 8 || st == 10

/-- What a write of FORM asked of a port is done: DISABLED, and evaluated afresh (R86, R100). -/
def State.formDue (s : State) (b p : Nat) : State :=
  match (s.port b p).owed with
  | some lanes => ((s.portMod b p fun q => { q with owed := none }).toDisabled b p lanes).leaveDisabled b p
  | none => s

/-- A write of PORT.FORM: FORM and FEC are checked and, when they change, restart the port. On rejection FORM and FEC
keep their values and the other fields take the write (DEDUCED, assumption 10). Under FAULT_ACTION 2 the copies queued
on the port at an accepted change are marked for discard (R93). -/
def State.formWrite (s : State) (b p : Nat) (v : Word) : State :=
  let off := offPortForm b p
  let v := clampReg off v
  let old := s.rd off
  let f := fld 3 0 v
  let fec := fld 7 4 v
  let others := v &&& 0xEFFF0F00
  if ¬ s.formOk b p f fec then
    let s := s.wr off (others ||| (old &&& 0xFF))
    ((s.wrb (offPortStatus b p) 8 true).raiseEvt (offPortEvt b p) 6).formDormant b p
  else if f ≠ fld 3 0 old ∨ fec ≠ fld 7 4 old then
    let s := s.portMod b p fun q =>
      { q with
        marked := if fld 27 26 old = 2 then s.copiesOn (16 * (s.posOf b).getD 0 + p) else q.marked
        owed := some (q.owed.getD (s.runLanes b p ++ s.fullLanes b p)) }
    let s := s.wr off (others ||| w32 (fec * 16 + f))
    if s.roleServed b && !s.midStage b p then s.formDue b p else s
  else (s.wr off (others ||| w32 (fec * 16 + f))).formDormant b p

/-- The bed's role is served: what a write of FORM asked of it while it was not is done, and the port is evaluated afresh
(R416, R432). -/
def State.portWake (s : State) (b p : Nat) : State :=
  if (s.port b p).owed.isSome then s.formDue b p
  else if s.pState b p = 0 then s.leaveDisabled b p else s.formDormant b p

/-- R79: PORT[p].FORM is written. -/
def execPortFormWrite (b : BedIx) (p : LocalIx) (v : Word) (s : State) : Host.Outcome State Fault Refusal :=
  .next (s.cfg (offPortForm b p) fun s => s.formWrite b p v)

/-! ## Bring-up -/

/-- A lane takes part in its port's stage: powered, and not come out of OFF since the port's last DETECT (R497). -/
def State.laneIn (s : State) (base : Nat) : Bool := s.laneOn base && !(s.lane base).out

/-- Every lane of the span a port runs takes part in its stage. -/
def State.allPowered (s : State) (b p : Nat) : Bool := s.allLanes b (s.runLanes b p) s.laneIn

/-- Every lane of the span a port runs holds lock. -/
def State.allLocked (s : State) (b p : Nat) : Bool := s.allLanes b (s.runLanes b p) s.laneLocked

/-- R86: every lane of the span detects a receiver; its board table is loaded, and TRAIN begins, or LOCK where TRAIN_EN is 0. -/
def execPortDetectDone (b : BedIx) (p : LocalIx) (s : State) : Host.Outcome State Fault Refusal :=
  if s.roleServed b && s.pState b p = 1 && s.allPowered b p then
    let s := s.onLanes b (s.runLanes b p) fun s base => s.laneUseBoard base
    if s.rdb (offPortForm b p) 29 then
      .next ((s.pGo b p 2).startTimer (.portStage (16 * b.val + p.val)) (s.tmo (offPortTimeout0 b p) 31 16))
    else .next (s.toLock b p)
  else .next s

/-- The lanes of a port train, each with what it asked for (R84). -/
def State.trainLanes (s : State) (b p : Nat) (asks : List EqAsk) : State :=
  ((s.runLanes b p).zip asks).foldl (fun s e => match s.laneBase b e.1 with
    | some base => s.laneTrain base e.2
    | none => s) s

/-- R86: every lane is trained. -/
def execPortTrainDone (b : BedIx) (p : LocalIx) (asks : List EqAsk) (s : State) : Host.Outcome State Fault Refusal :=
  if s.roleServed b && s.pState b p = 2 && s.allPowered b p && asks.length = formLanes (s.runForm b p) then
    .next ((s.trainLanes b p asks).toLock b p)
  else .next s

/-- The lanes of the span a port runs hold alignment. -/
def State.lockSpan (s : State) (b p : Nat) : State := s.onLanes b (s.runLanes b p) fun s base => s.laneLockAll base

/-- R87: every lane holds alignment in one cycle and the span is deskewed; a multi-lane port tolerates 200 ns of skew (R82). In
EXCHANGE this tells that a lane which a RESET put out of lock, and which started that stage again, holds it once more (R498). -/
def execPortLockDone (b : BedIx) (p : LocalIx) (skewNs : Nat) (s : State) : Host.Outcome State Fault Refusal :=
  if s.roleServed b && s.allPowered b p && (formLanes (s.runForm b p) = 1 || skewNs ≤ 200) then
    if s.pState b p = 3 && s.allLanes b (s.runLanes b p) (fun base => (s.lane base).trained) then
      .next ((s.lockSpan b p).lockDone b p)
    else if s.pState b p = 4 then .next (s.lockSpan b p)
    else .next s
  else .next s

/-- The partner's advertised ability is the form and FEC the port runs. -/
def State.exchangeMatch (s : State) (b p : Nat) (form fec : BitVec 4) : Bool :=
  form.toNat == s.runForm b p && fecRun form.toNat fec.toNat == s.runFec b p

/-- The port runs its exchange in a re-form: AN_EN is 1 (R90). -/
def State.reformAsks (s : State) (b p : Nat) : Bool := s.pState b p == 8 && s.rdb (offPortForm b p) 30

/-- R86, R90: the partner confirms the form and FEC that the port runs, in EXCHANGE or in the exchange of a re-form. -/
def execPortExchangeConfirm (b : BedIx) (p : LocalIx) (form fec : BitVec 4) (s : State) :
    Host.Outcome State Fault Refusal :=
  if s.roleServed b && s.allPowered b p && s.allLocked b p && s.exchangeMatch b p form fec then
    if s.pState b p = 4 then .next (s.toActive b p)
    else if s.reformAsks b p then .next (s.portMod b p fun q => { q with agreed := true })
    else .next s
  else .next s

/-- R86: the partner advertises another form or FEC, in EXCHANGE or in the exchange of a re-form. -/
def execPortExchangeMismatch (b : BedIx) (p : LocalIx) (form fec : BitVec 4) (s : State) :
    Host.Outcome State Fault Refusal :=
  if !s.roleServed b || s.exchangeMatch b p form fec then .next s
  else if s.pState b p = 4 then .next ((s.toGap b p 5).raiseEvt (offPortEvt b p) 4)
  else if s.reformAsks b p then .next ((s.reformToGap b p 5).raiseEvt (offPortEvt b p) 4)
  else .next s

/-- R86: the timer of DETECT, TRAIN, LOCK or EXCHANGE expires. -/
def execPortStageTimeout (b : BedIx) (p : LocalIx) (s : State) : Host.Outcome State Fault Refusal :=
  let st := s.pState b p
  if s.roleServed b && 1 ≤ st && st ≤ 4 && s.timerOn (.portStage (16 * b.val + p.val)) then
    .next ((s.toGap b p st).raiseEvt (offPortEvt b p) 3)
  else .next s

/-! ## Lane loss and re-form (R89 to R91) -/

/-- FALLBACK names a narrower form than the port's (R89). -/
def State.fallbackUsable (s : State) (b p : Nat) : Bool :=
  let fb := s.rdf (offPortForm b p) 11 8
  1 ≤ fb && fb ≤ 8 && formLanes fb < formLanes (s.port b p).form

/-- The first aligned span of a form inside the port's full span whose lanes all hold PMA lock (R89). -/
def State.goodSpan (s : State) (b p form : Nat) : Option Nat :=
  let n := formLanes form
  (List.range (formLanes (s.port b p).form / n)).map (fun i => p + n * i) |>.find? fun first =>
    s.allLanes b ((List.range n).map (· + first)) s.laneLocked

/-- The fields every loss of lock of a running port sets: FAULT_LANE, LOCK_LOSS (R86). -/
def State.lossFields (s : State) (b p lane : Nat) : State :=
  ((s.pStat b p 15 12 lane).wrb (offPortStatus b p) 11 true).satInc16 (offPortCount b p) 31 16

/-- A fallback form and the first lane of its span are chosen (R89); the lanes start from their stored coefficients (R90). -/
def State.choose (s : State) (b p form first : Nat) : State :=
  let s := s.portMod b p fun q => { q with formChosen := form, spanChosen := first, agreed := false }
  s.onLanes b (spanLanes first form) fun s base => s.laneUseStored base

/-- Loss of lock of lanes of a port's span, `lane` the lowest of them (R86, R89). -/
def State.portLoss (s : State) (b p lane : Nat) : State :=
  if s.pState b p = 5 then
    let s := ((s.lossFields b p lane).raiseEvt (offPortEvt b p) 1)
    let usable := s.fallbackUsable b p
    let fb := s.rdf (offPortForm b p) 11 8
    let s := if !usable && fb != 0 then s.wrb (offPortStatus b p) 9 true else s
    match (if usable && !s.rdb (offPortStatus b p) 10 then s.goodSpan b p fb else none) with
    | some first =>
      let s := ((s.pGo b p 8).choose b p fb first).linkFault b p 1
      s.startTimer (.reformLimit (16 * b + p)) (s.tmo (offPortRetry b p) 31 16)
    | none => (s.toGap b p 6).linkFault b p 1
  else if s.pState b p = 8 then
    let s := s.lossFields b p lane
    let fb := (s.port b p).formChosen
    match s.goodSpan b p fb with
    | some first => s.choose b p fb first
    | none => (s.reformToGap b p 6).raiseEvt (offPortEvt b p) 1
  else s

/-- Lanes of a bed window lose lock: each retries on its own, and every port whose running span holds one of them takes
the loss. -/
def State.lanesLost (s : State) (b : Nat) (lost : List Nat) : State :=
  let s := s.onLanes b lost fun s base => (s.laneUnlock base).laneMod base fun l => { l with lost := true }
  (List.range 16).foldl (fun s p =>
    match (s.runLanes b p).find? fun l => lost.contains l with
    | some lane => s.portLoss b p lane
    | none => s) s

/-- R86: the loss of lock of lanes of a bed is declared. -/
def execLaneLockLoss (b : BedIx) (lost : BitVec 16) (s : State) : Host.Outcome State Fault Refusal :=
  .next (if s.lineOn then s.lanesLost b ((List.range 16).filter fun l => lost.getLsbD l) else s)

/-- R90: the chosen fallback span has trained and locked, and with AN_EN 1 its exchange has agreed: the port reaches ACTIVE. -/
def execReformDone (b : BedIx) (p : LocalIx) (asks : List EqAsk) (s : State) : Host.Outcome State Fault Refusal :=
  if s.roleServed b && s.pState b p = 8 && s.allPowered b p && asks.length = formLanes (s.runForm b p) &&
      (!s.rdb (offPortForm b p) 30 || (s.port b p).agreed) then
    .next ((((s.trainLanes b p asks).lockSpan b p).toActive b p |>.wrb (offPortStatus b p) 10 true).raiseEvt (offPortEvt b p) 2)
  else .next s

/-- R86: the re-form limit timer expires. -/
def execReformLimitExpire (b : BedIx) (p : LocalIx) (s : State) : Host.Outcome State Fault Refusal :=
  if s.roleServed b && s.pState b p = 8 && s.timerOn (.reformLimit (16 * b.val + p.val)) then .next (s.reformToGap b p 7) else .next s

/-- R86: RETRY_GAP_MS elapses: DETECT again, or FAILED when the retries since DISABLED reach RETRY_MAX. -/
def execGapRetry (b : BedIx) (p : LocalIx) (s : State) : Host.Outcome State Fault Refusal :=
  if s.roleServed b && s.pState b p = 6 && s.timerOn (.gap (16 * b.val + p.val)) then
    let s := s.stopTimer (.gap (16 * b.val + p.val))
    let m := s.rdf (offPortRetry b p) 15 8
    if m = 0 || (s.port b p).retries < m then .next (s.toDetect b p)
    else
      let lanes := s.fullLanes b p
      .next (((s.pGo b p 7).onLanes b lanes fun s base => s.lanePower base false).raiseEvt (offPortEvt b p) 5)
  else .next s

/-- R94: two milliseconds after a wake from Dormant the port goes to LOCK, its lanes on their stored coefficients; a DORMANT
written meanwhile acts there. -/
def execDormantWakeDone (b : BedIx) (p : LocalIx) (s : State) : Host.Outcome State Fault Refusal :=
  if s.roleServed b && s.pState b p = 10 && s.timerOn (.dormantWake (16 * b.val + p.val)) then
    .next (((s.stopTimer (.dormantWake (16 * b.val + p.val))).toLock b p).formDormant b p)
  else .next s

/-- The port, by its local index, in whose span a lane of a bed lies that is out of DISABLED. -/
def State.spanPort (s : State) (b l : Nat) : Option Nat := (List.range 16).find? fun p => (s.fullLanes b p).contains l

/-- A lane may come to hold lock by itself: it is powered and awake, and no port brings it up before LOCK. -/
def State.mayRelock (s : State) (b l base : Nat) : Bool :=
  s.lineOn && s.laneOn base && !s.laneAsleep base && match s.spanPort b l with
    | some p => s.pState b p != 1 && s.pState b p != 2
    | none => true

/-- R90, R498: a lost lane has held lock for 1 ms. -/
def execLaneRecovered (b : BedIx) (l : LocalIx) (s : State) : Host.Outcome State Fault Refusal :=
  match s.laneBase b l with
  | some base =>
    if (s.lane base).lost && s.mayRelock b l base then
      .next (((s.laneLockAll base).laneMod base fun x => { x with lost := false }).raiseEvt (lnEvt base) 1)
    else .next s
  | none => .next s

/-- R93, R113: FAULT_HOLD_MS runs out while the port has link fault: its frames are selected and discarded from now. -/
def execFaultHoldExpire (b : BedIx) (p : LocalIx) (s : State) : Host.Outcome State Fault Refusal :=
  let fa := s.rdf (offPortForm b p) 27 26
  if s.timerOn (.faultHold (16 * b.val + p.val)) && s.rdf (offMacFault b p) 31 30 != 0 && (fa = 0 || fa = 3) then
    .next ((s.stopTimer (.faultHold (16 * b.val + p.val))).portMod b p fun q => { q with holdOver := true })
  else .next s

end Sys2Proof.Machine
end

