-- ==== Sys2Proof/Machine/Gates.lean ====
section
/-! DEFINITION. Gate lists, their adoption, the guard band and the gate monitor (chapter 10, R249 to R268). A port is named
by its bed window b and local index p. Instants on the wire are given as a delay in ps from the present instant. -/

namespace Sys2Proof.Machine

/-! ## Lists (R250, R251) -/

/-- An entry as it lies in a cycle, in ns from the cycle start, half-open. -/
structure GateWin where
  start : Nat
  stop : Nat
  idx : Nat
  hold : Bool
  gates : Nat
  deriving DecidableEq, Repr

/-- A list that runs: its base, its base time and cycle in units of 2^-32 ns, its hold advance in ns, its entries. -/
structure GateList where
  tb : Nat
  base : Nat
  cycle : Nat
  adv : Nat
  wins : List GateWin
  deriving DecidableEq, Repr

/-- The entries of a cycle of some ns: those with an interval that begin before its end, the last one to its end. -/
def gateWins (cycle : Nat) : Nat → Nat → List (Word × Word) → List GateWin
  | _, _, [] => []
  | i, at0, (w0, w1) :: es =>
    if w0 = 0 then gateWins cycle (i + 1) at0 es
    else if cycle ≤ at0 then []
    else
      let stop := min cycle (at0 + w0.toNat)
      let rest := gateWins cycle (i + 1) (at0 + w0.toNat) es
      { start := at0, stop := if rest = [] then cycle else stop, idx := i, hold := bit 8 w1, gates := fld 7 0 w1 } :: rest

/-- The key of a gate list entry: port, store, index (R250). -/
def gateKey (b p store e : Nat) : Nat := ((16 * b + p) * 2 + store) * 1024 + e

/-- A gate list entry. -/
def State.gateEntry (s : State) (k : Nat) : Word × Word := sget gateDefault s.gates.entries k

/-- An entry takes a value. -/
def State.setGateEntry (s : State) (k : Nat) (e : Word × Word) : State :=
  s.gatesMod fun g => { g with entries := sset gateDefault g.entries k e }

/-- STATE: 0 NONE, 1 PENDING, 2 RUNNING, 3 RUNNING_PENDING. -/
def State.gateState (s : State) (b p : Nat) : Nat := s.rdf (offGateStatus b p) 31 30

/-- The store of the active list. -/
def State.actStore (s : State) (b p : Nat) : Nat := s.rdf (offGateStatus b p) 29 29

/-- A time from a nanoseconds word and two seconds words, in units of 2^-32 ns. -/
def timeOf (ns lo hi : Word) : Nat := ((fld 29 0 ns) + (lo.toNat + 2 ^ 32 * hi.toNat) * 1000000000) * nsUnit

/-- The list of some settings over a store. -/
def State.gateListOf (s : State) (b p store cycle : Nat) (cfg : Word) (base : Nat) : GateList :=
  { tb := fld 31 29 cfg, base := base, cycle := cycle * nsUnit, adv := fld 15 0 cfg
    wins := gateWins cycle 0 0 ((List.range (fld 26 16 cfg)).map fun e => s.gateEntry (gateKey b p store e)) }

/-- The active list. -/
def State.actList (s : State) (b p : Nat) : GateList :=
  s.gateListOf b p (s.actStore b p) (s.rd (offGateAct b p 0)).toNat (s.rd (offGateAct b p 1))
    (timeOf (s.rd (offGateAct b p 2)) (s.rd (offGateAct b p 3)) (s.rd (offGateAct b p 4)))

/-- The list of the shadow store. -/
def State.shList (s : State) (b p : Nat) : GateList :=
  s.gateListOf b p (1 - s.actStore b p) (s.rd (offGateShCycle b p)).toNat (s.rd (offGateShCfg b p))
    (timeOf (s.rd (offGateShBaseNs b p)) (s.rd (offGateShBaseS b p 0)) (s.rd (offGateShBaseS b p 1)))

/-- The adoption instant A. -/
def State.adoptAt (s : State) (b p : Nat) : Nat :=
  timeOf (s.rd (offGateAdopt b p 0)) (s.rd (offGateAdopt b p 1)) (s.rd (offGateAdopt b p 2))

/-! ## Where a list stands -/

/-- A base's value some ps from now. -/
def State.tbIn (s : State) (k ps : Nat) : Nat :=
  s.tbNow k + (if s.tbRun k then ps * (s.tb k).addend / 1600 else 0)

/-- The position in its cycle of a list at a time. -/
def GateList.pos (l : GateList) (t : Nat) : Nat := (((t : Int) - l.base) % l.cycle).toNat

/-- The entry in force at a position. -/
def GateList.win (l : GateList) (pos : Nat) : Option GateWin := l.wins.find? fun w => pos < w.stop * nsUnit

/-- Each entry with the one before it, the last before the first. -/
def GateList.pairs (l : GateList) : List (GateWin × GateWin) :=
  match l.wins.getLast? with
  | some z => (z :: l.wins).zip l.wins
  | none => []

/-- The distance from a position forward to a place in the cycle. -/
def GateList.ahead (l : GateList) (pos ns : Nat) : Nat := (ns * nsUnit + l.cycle - pos) % l.cycle

/-- Hold at a position: the entry's own, or an entry with HOLD is less than HOLD_ADVANCE ahead (R254). -/
def GateList.hold (l : GateList) (pos : Nat) : Bool :=
  (match l.win pos with | some w => w.hold | none => false) ||
    l.pairs.any fun e => e.2.hold && !e.1.hold && l.ahead pos e.2.start ≤ l.adv * nsUnit

/-- The next closing of a class from a position on, as a distance (R255). -/
def GateList.closing (l : GateList) (pos cls : Nat) : Option Nat :=
  let ends := l.pairs.filterMap fun e =>
    if e.1.gates.testBit cls && !e.2.gates.testBit cls then some (l.ahead pos e.2.start) else none
  ends.foldl (fun m d => some (match m with | some x => min x d | none => d)) none

/-- The gates of a port some ps from now, as the list in force there (none: all open) and the distance in units to a
pending adoption (R253, R264). A list whose adoption instant has come by then is in force. -/
def State.gateView (s : State) (b p ps : Nat) : Option (GateList × Nat) × Option Nat :=
  if !s.rdb (offGateCtl b p) 29 then (none, none)
  else
    let st := s.gateState b p
    let sh := s.shList b p
    let a := s.adoptAt b p
    let now := s.tbIn sh.tb ps
    let act := fun (l : GateList) => some (l, l.pos (s.tbIn l.tb ps))
    if st % 2 = 1 && a ≤ now then (act sh, none)
    else (if 2 ≤ st then act (s.actList b p) else none, if st % 2 = 1 then some (a - now) else none)

/-- The gates open on a port some ps from now. -/
def State.gatesAt (s : State) (b p ps : Nat) : Nat :=
  match (s.gateView b p ps).1 with
  | some (l, pos) => (match l.win pos with | some w => w.gates | none => 0xFF)
  | none => 0xFF

/-- The next closing of a class some ps from now, as a distance in units (R255). -/
def State.closingAt (s : State) (b p cls ps : Nat) : Option Nat :=
  let v := s.gateView b p ps
  match v.1.bind (fun e => e.1.closing e.2 cls), v.2 with
  | some x, some y => some (min x y)
  | some x, none => some x
  | none, y => y

/-! ## Gate states in force -/

/-- The gate states in force follow their list: STATUS, the MAC's HOLD, and the monitor's record of changes (R252 to R254,
R267). -/
def State.gateRefresh (s : State) (b p : Nat) : State :=
  let v := (s.gateView b p 0).1
  let g := s.gatesAt b p 0
  let h := match v with | some (l, pos) => l.hold pos | none => false
  let e := match v.bind fun x => x.1.win x.2 with | some w => w.idx | none => 0
  let old := s.rdf (offGateStatus b p) 25 18
  let oldHold := s.rdb (offGateStatus b p) 17
  let s := ((s.wrf (offGateStatus b p) 25 18 g).wrb (offGateStatus b p) 17 h).wrf (offGateStatus b p) 9 0 e
  let s := s.wrb (offMacMmStatus b p) 27 h
  let s := if h && !oldHold && s.preempting b p then s.stat b p 56 1 else s
  if g = old then s
  else s.gateMod b p fun x => { x with record := ((s.ps, BitVec.ofNat 8 g) :: x.record).take 64 }

/-- The time has reached the adoption instant. -/
def State.adoptDue (s : State) (b p : Nat) : Bool :=
  s.gateState b p % 2 == 1 && decide (s.adoptAt b p ≤ s.tbNow (s.rdf (offGateShCfg b p) 31 29))

/-! ## Commit and adoption (R263 to R265) -/

/-- The shadow list is refused (R263). -/
def State.commitBad (s : State) (b p : Nat) : Bool :=
  let len := s.rdf (offGateShCfg b p) 26 16
  let cycle := (s.rd (offGateShCycle b p)).toNat
  len = 0 || 1024 < len || cycle < 1000 || 4000000000 < cycle || 1000000000 ≤ s.rdf (offGateShBaseNs b p) 29 0 ||
    ((List.range len).all fun e => (s.gateEntry (gateKey b p (1 - s.actStore b p) e)).1 == 0) ||
    s.gateState b p % 2 == 1

/-- A commit arrives (R263, R264). -/
def State.gateCommit (s : State) (b p : Nat) : State :=
  if s.commitBad b p then (s.wrb (offGateStatus b p) 27 true).raiseEvt (offGateEvt b) 2
  else
    let l := s.shList b p
    let lead := s.tbNow l.tb + 1600 * nsUnit
    let late := l.base < lead
    let a := if late then l.base + (lead - l.base + l.cycle - 1) / l.cycle * l.cycle else l.base
    let s := s.wrs (offGateAdopt b p 0) [w32 (tbNs a), w32 (tbSec a), w32 (tbSec a / 2 ^ 32)]
    let s := s.wrf (offGateStatus b p) 31 30 (s.gateState b p + 1)
    if late then
      ((s.wrb (offGateStatus b p) 28 true).inc (offGateCnt b p 2) (offGateEvt b) 7).raiseEvt (offGateEvt b) 1
    else s

/-- A commit from one of its two sources; a pulse and a write in the same cycle are one (R263). -/
def State.gateCommitBy (s : State) (b p : Nat) (pulse : Bool) : State :=
  if (s.gate b p).commit = some (s.cycle, !pulse) then s
  else (s.gateCommit b p).gateMod b p fun g => { g with commit := some (s.cycle, pulse) }

/-- ABORT cancels a pending adoption whose instant has not come (R265). -/
def State.gateAbort (s : State) (b p : Nat) : State :=
  let st := s.gateState b p
  if st % 2 = 1 && !s.adoptDue b p then s.wrf (offGateStatus b p) 31 30 (st - 1) else s

/-- A write of GATE.CTL: its fields, then ABORT, then COMMIT (assumption 14). -/
def State.gateCtlWrite (s : State) (b p : Nat) (v : Word) : State :=
  let s := (s.wr (offGateCtl b p) (v &&& 0x3FC00000)).gateRefresh b p
  let s := if bit 30 v then s.gateAbort b p else s
  if bit 31 v then s.gateCommitBy b p false else s

/-- The shadow list becomes active (R264). -/
def State.gateAdopt (s : State) (b p : Nat) : State :=
  let sh := [s.rd (offGateShCycle b p), s.rd (offGateShCfg b p), s.rd (offGateShBaseNs b p), s.rd (offGateShBaseS b p 0),
    s.rd (offGateShBaseS b p 1)]
  let s := (s.wrs (offGateAct b p 0) sh).wrf (offGateStatus b p) 31 29 (4 + (1 - s.actStore b p))
  ((s.gateRefresh b p).raiseEvt (offGateEvt b) 0).ownChange b

/-- R263: GATE.CTL is written with COMMIT. -/
def execGateCommit (b : BedIx) (p : LocalIx) (v : Word) (s : State) : Host.Outcome State Fault Refusal :=
  .next (s.cfg (offGateCtl b p) fun s => s.gateCtlWrite b p (setBit 31 true v))

/-- R265: GATE.CTL is written with ABORT. -/
def execGateAbort (b : BedIx) (p : LocalIx) (v : Word) (s : State) : Host.Outcome State Fault Refusal :=
  .next (s.cfg (offGateCtl b p) fun s => s.gateCtlWrite b p (setBit 30 true v))

/-- R264: the time reaches the adoption instant. -/
def execGateAdopt (b : BedIx) (p : LocalIx) (s : State) : Host.Outcome State Fault Refusal :=
  .next (if s.adoptDue b p then s.gateAdopt b p else s)

/-- R252: the time reaches an entry's boundary, and the entry in force there applies. -/
def execGateBoundary (b : BedIx) (p : LocalIx) (s : State) : Host.Outcome State Fault Refusal :=
  .next (s.gateRefresh b p)

/-- R254: HOLD_ADVANCE before an entry that holds, hold is asserted. -/
def execGateHoldAdvance (b : BedIx) (p : LocalIx) (s : State) : Host.Outcome State Fault Refusal :=
  let ahead := match (s.gateView b p 0).1 with | some (l, pos) => l.hold pos | none => false
  .next (if ahead then s.gateRefresh b p else s)

/-! ## Wire times and the guard band (R256 to R259) -/

/-- The rate r of R257: the lower of the committed RATE and the MAC rate of the running form, in Mbit/s. -/
def State.wireRate (s : State) (b p : Nat) : Nat :=
  max 1 (min (s.rdf (offSchedPortRate b p) 21 0) (s.macRate (16 * b + p)))

/-- A class of a port is preemptable while preemption is active (R121). -/
def State.preemptable (s : State) (b p cls : Nat) : Bool :=
  s.preempting b p && s.rdb (offMacMmCtl b p) (16 + cls)

/-- The minimum fragment F of R122. -/
def State.minFrag (s : State) (b p : Nat) : Nat := 64 + 64 * s.rdf (offMacMmCtl b p) 9 8

/-- The fragments of a copy: none where its class is sent in whole frames (R121), else what has gone of it and the settings it
started with, which are those in force where it has not started (R106, R122). -/
def State.fragsOf (s : State) (b p i cls : Nat) : Option OpenTx :=
  let x := s.mac (16 * b + p)
  let fresh : Option OpenTx :=
    if s.preemptable b p cls then
      some { copy := i, sent := 0, frags := 0, number := x.number, minFrag := s.minFrag b p, ipg := s.txIpg b p }
    else none
  match x.openTx with
  | some o => if o.copy = i then some o else fresh
  | none => fresh

/-- The bytes of a frame that have gone, and the gap after it. -/
def sentOf (o : Option OpenTx) : Nat := match o with | some o => o.sent | none => 0
def State.gapOf (s : State) (b p : Nat) (o : Option OpenTx) : Nat := match o with | some o => o.ipg | none => s.txIpg b p

/-- The guard band of a frame of a class that starts some ps from now: `w` bytes to the end of its gap, of which `l` are
the frame with its FCS (R258), or where it may be sent in fragments the least fragment (R259). -/
def State.guardFits (s : State) (b p cls ps w l : Nat) (o : Option OpenTx) : Bool :=
  let fits := fun bytes => match s.closingAt b p cls ps with
    | none => true
    | some d => decide (tickUnits (wireTime bytes (s.wireRate b p)) ≤ d)
  (s.gatesAt b p ps).testBit cls &&
    (fits w || match o with
      | some o => decide (o.minFrag + 64 ≤ l) && fits (8 + o.minFrag + 4 + o.ipg)
      | none => false)

/-- The gate of a frame's class lets it, or with r bytes left its next fragment, start at an instant in ps (R258, R259, R261). -/
def State.gateLets (s : State) (b p cls start r : Nat) (o : Option OpenTx) : Bool :=
  s.guardFits b p cls (start - s.ps) (8 + r + s.gapOf b p o) r o

/-! ## Discards and the monitor (R260, R261, R266 to R268) -/

/-- DROP_GATE_MISS is counted with its event. -/
def State.gateMiss (s : State) (b p : Nat) : State :=
  (s.inc (offGateCnt b p 1) (offGateEvt b) 7).raiseEvt (offGateEvt b) 5

/-- The gates of a port at a past instant in ps, by the monitor's record: all open before its first change. -/
def gatesPast (r : List (Nat × BitVec 8)) (t : Nat) : Nat :=
  match r.find? fun e => e.1 ≤ t with | some e => e.2.toNat | none => 0xFF

/-- The gate of a class was open throughout [t0, t1) in ps, by the monitor's record. -/
def gateHeld (r : List (Nat × BitVec 8)) (cls t0 t1 : Nat) : Bool :=
  (gatesPast r t0).testBit cls && r.all fun e => decide (e.1 ≤ t0) || decide (t1 ≤ e.1) || e.2.getLsbD cls

/-- The monitor judges a frame or fragment that has ended, while EN and MON_EN are 1 (R267, R268). -/
def State.gateJudge (s : State) (b p : Nat) (w : WireSpan) : State :=
  let tol := 1000 * s.rdf (offGateMon b p) 7 0
  if !s.rdb (offGateCtl b p) 29 || !s.rdb (offGateMon b p) 31 ||
      gateHeld (s.gate b p).record w.cls (w.start - tol) (w.stop - tol) then s
  else
    let s := ((s.inc (offGateCnt b p 0) (offGateEvt b) 7).raiseEvt (offGateEvt b) 4).pmuOcc 12 (s.portNo (16 * b + p) / 16)
    s.detect 3 (.port (s.portNo (16 * b + p)))

/-- A time base has stepped: the ports whose active list runs on it take up the position the new time gives, and what is on the
wire is not judged (R266). -/
def State.gateStep (s : State) (k : Nat) : State :=
  (List.range 272).foldl (fun s i =>
    let b := i / 16
    let p := i % 16
    if 2 ≤ s.gateState b p && s.rdf (offGateAct b p 1) 31 29 == k then
      let s := s.gateRefresh b p
      let across := fun (w : WireSpan) => decide (w.start < s.ps) && decide (s.ps < w.stop)
      if (s.gate b p).spans.any across then
        let s := s.gateMod b p fun g => { g with spans := g.spans.filter fun w => !across w }
        if s.rdb (offGateCtl b p) 29 && s.rdb (offGateMon b p) 31 then
          (s.inc (offGateCnt b p 3) (offGateEvt b) 7).raiseEvt (offGateEvt b) 6
        else s
      else s
    else s) s

/-- A class's gate is never open in the entries a list uses in a cycle. -/
def GateList.never (l : GateList) (cls : Nat) : Bool := l.wins.all fun w => !w.gates.testBit cls

/-- The bytes with their FCS that a cut frame has still to send. -/
def OpenTx.left (o : OpenTx) (c : Copy) : Nat := c.wire.length + 4 - o.sent

/-- A continuation of a cut frame passes R259 now. -/
def State.contFits (s : State) (b p : Nat) (o : OpenTx) (c : Copy) : Bool :=
  s.gateLets b p c.cls (s.txStart b p) (o.left c) (some o)

/-- An open preemptable frame whose continuation waits for its gate is given up (R260): its list never opens its class's gate, or
a whole cycle has passed since its last fragment in which no continuation of it passed R259. -/
def State.abandonDue (s : State) (b p : Nat) (o : OpenTx) (c : Copy) : Bool :=
  let g := s.gate b p
  match (s.gateView b p 0).1 with
  | some (l, _) => !s.contFits b p o c &&
      (l.never c.cls || (!g.passed && decide (g.fragEnd + l.cycle * 1000 / nsUnit ≤ s.ps)))
  | none => false

/-- R260: an open preemptable frame is abandoned: discarded whole, counted in TX_FRAMES_ALL and TX_TRUNCATED. -/
def execGateAbandon (b : BedIx) (p : LocalIx) (s : State) : Host.Outcome State Fault Refusal :=
  match (s.mac (16 * b.val + p.val)).openTx with
  | none => .next s
  | some o =>
    match s.copy o.copy with
    | none => .next s
    | some c =>
      if s.abandonDue b p o c then .next ((((s.gateMiss b p).cutCount b p o.sent).openDone b p).discardCopy o.copy)
      else .next s

/-- What a port's gate engine does at a tick: the monitor judges what has ended, and it is noted when the continuation of an open
frame passes R259. -/
def State.gateWatch (s : State) (b p : Nat) : State :=
  let ended := fun (w : WireSpan) => decide (w.stop ≤ s.ps)
  let done := (s.gate b p).spans.filter ended
  let s := if done = [] then s else
    done.foldl (fun s w => s.gateJudge b p w) (s.gateMod b p fun g => { g with spans := g.spans.filter fun w => !ended w })
  let passes := match (s.mac (16 * b + p)).openTx with
    | some o => (match s.copy o.copy with | some c => s.contFits b p o c | none => false)
    | none => false
  if passes && !(s.gate b p).passed then s.gateMod b p fun g => { g with passed := true } else s

/-- A tick of the gate engines. -/
def State.gateTick (s : State) : State :=
  (s.gates.ports.map (·.1)).foldl (fun s k => s.gateWatch (k / 16) (k % 16)) s

/-! ## List access (R250, R265) -/

/-- A write of the shadow list is refused (R265). -/
def State.shadowListRefused (s : State) (b p : Nat) : State :=
  (s.wrb (offGateStatus b p) 26 true).raiseEvt (offGateEvt b) 3

/-- The entry GATE.ADDR names: its port and key. -/
def State.gateAddr (s : State) (b : Nat) : Nat × Nat :=
  let a := s.rd (offGateAddr b)
  let p := fld 19 16 a
  (p, gateKey b p (if bit 31 a then s.actStore b p else 1 - s.actStore b p) (fld 9 0 a))

/-- GATE.CMD GO with OP 0, 2 or 3. -/
def State.gateListRead (s : State) (b : Nat) : State :=
  let e := s.gateEntry (s.gateAddr b).2
  ((s.wrf (offGateCmd b) 1 0 0).wr (offGateData0 b) e.1).wr (offGateData1 b) e.2

/-- R250: GATE.CMD is written with GO and OP 0, 2 or 3. -/
def execGateListRead (b : BedIx) (s : State) : Host.Outcome State Fault Refusal :=
  .next (s.cfg (offGateCmd b) fun s => s.gateListRead b)

/-- GATE.CMD GO with OP 1: an entry of a shadow list is written, or the write refused. -/
def State.gateListWrite (s : State) (b : Nat) : State :=
  let s := s.wrf (offGateCmd b) 1 0 1
  let (p, k) := s.gateAddr b
  if s.rdb (offGateAddr b) 31 || s.gateState b p % 2 == 1 then s.shadowListRefused b p
  else s.setGateEntry k (s.rd (offGateData0 b), s.rd (offGateData1 b) &&& 0x1FF)

/-- R265: GATE.CMD is written with GO and OP 1. -/
def execGateListWrite (b : BedIx) (s : State) : Host.Outcome State Fault Refusal :=
  .next (s.cfg (offGateCmd b) fun s => s.gateListWrite b)

end Sys2Proof.Machine
end

