-- ==== Sys2Proof/Machine/Time.lean ====
section
/-! DEFINITION. Time-base commands, timed actions, time inputs and outputs, monitors, paired bases and the transmit
timestamp queues (chapter 11, R271 to R299), and the tick of the time unit (R270). Bases are numbered 0 to 7, trackers 8 and 9. -/

namespace Sys2Proof.Machine

/-- Registers of a base or tracker. -/
def tbCtl (k : Nat) : Nat := tbReg k 0
def tbInt (k : Nat) : Nat := tbReg k 0x4
def tbFracReg (k : Nat) : Nat := tbReg k 0x8
def tbLimit (k : Nat) : Nat := tbReg k 0xC
def tbCmd (k : Nat) : Nat := tbReg k 0x10
def tbArg (k i : Nat) : Nat := tbReg k (0x14 + 4 * i)
def tbUnlock (k : Nat) : Nat := tbReg k 0x24
def tbRefused (k : Nat) : Nat := tbReg k 0x28
def tbNowReg (k : Nat) : Nat := tbReg k 0x30

/-! ## Addends and captures (R271, R273) -/

/-- An addend lies within 1.6 ns × (1 ± 10^-3). -/
def addendOk (a : Nat) : Bool := decide (15984 * 2 ^ 32 ≤ 10000 * a) && decide (10000 * a ≤ 16016 * 2 ^ 32)

/-- A write of ADDEND_FRAC commits the pair, or is refused; the two registers then read the addend in force. -/
def State.addendWrite (s : State) (k : Nat) (v : Word) : State :=
  let a := s.rdf (tbInt k) 3 0 * 2 ^ 32 + v.toNat
  let s := if addendOk a then s.tbMod k fun b => { b with addend := a }
    else (s.wrb (tbCtl k) 27 true).raiseEvt offTimeEvt 2
  (s.wr (tbInt k) (w32 ((s.tb k).addend / 2 ^ 32))).wr (tbFracReg k) (w32 (s.tb k).addend)

/-- R271: ADDEND_FRAC is written. -/
def execAddendWrite (k : Fin 10) (v : Word) (s : State) : Host.Outcome State Fault Refusal :=
  .next (s.cfg (tbFracReg k) fun s => s.addendWrite k v)

/-- A read of NOW_NS captures the base's value. -/
def State.nowCapture (s : State) (k : Nat) : State := s.wrs (tbNowReg k) (nowWords (s.tb k).val)

/-- CAPTURE_ALL.GO: DONE clears and, the capture made, sets. -/
def State.captureAll (s : State) : State :=
  ((List.range 8).foldl (fun s k => s.wrs (offTimeCap k 0) (nowWords (s.tb k).val)) s).wrb offTimeCaptureAll 30 true

/-- R273: CAPTURE_ALL.GO is written. -/
def execCaptureAll (s : State) : Host.Outcome State Fault Refusal :=
  .next (s.cfg offTimeCaptureAll fun s => s.captureAll)

/-! ## Timed actions (R290 to R293) -/

/-- The key of an action slot. -/
def actKey (k slot : Nat) : Nat := 256 * k + slot

/-- An action slot. -/
def State.act (s : State) (a : Nat) : ActSlot := sget (fun _ => {}) s.time.slots a

/-- An action slot is changed. -/
def State.actMod (s : State) (a : Nat) (f : ActSlot → ActSlot) : State :=
  s.timeMod fun t => { t with slots := smod (fun _ => {}) t.slots a f }

/-- T of a slot. -/
def ActSlot.time (a : ActSlot) : Nat := (a.sec * 1000000000 + a.ns) * nsUnit

/-- A slot with another T. -/
def ActSlot.setTime (a : ActSlot) (t : Nat) : ActSlot := { a with sec := tbSec t, ns := tbNs t }

/-- A pulse is put on an event-fabric line. -/
def State.pulse (s : State) (line : Nat) : State :=
  { s with fabric := smod (fun _ => 0) s.fabric line (· + 1) }

/-- A pulse starts on a PPS output whose EN is 1: WIDTH from now (R297). -/
def State.ppsPulse (s : State) (j : Nat) : State :=
  let c := s.rd (offPpsOutCtl j)
  if !bit 31 c then s
  else (s.emit (.ppsLevel j (!bit 30 c))).startTimer (.ppsOut j) (max 16 (fld 29 0 c))

/-- What a slot does when it fires (R290). -/
def State.actDo (s : State) (a : Nat) : State :=
  let w := (s.act a).w4
  let s := if bit 23 w then s.pulse (fld 21 16 w) else s
  let s := if bit 15 w then s.ppsPulse (fld 14 14 w) else s
  let s := if bit 13 w then s.raiseEvt offTimeEvt 4 else s
  s.actMod a fun x => { x with runs := (x.runs + 1) % 2 ^ 32 }

/-- A slot fires on time: a one-shot disarms, a periodic slot takes T + P. -/
def State.actFire (s : State) (a : Nat) : State :=
  (s.actDo a).actMod a fun x =>
    if x.period = 0 then { x with armed := false } else x.setTime (x.time + x.period * nsUnit)

/-- A slot fires late at a tick of value v: LATE, LATENESS; a periodic slot takes the first T + n P after v (R291). -/
def State.actLate (s : State) (a v : Nat) : State :=
  let x := s.act a
  let s := ((s.actDo a).raiseEvt offTimeEvt 5).actMod a fun x =>
    { x with late := true, lateness := min 0xFFFFFFFF ((v - x.time) / nsUnit) }
  s.actMod a fun y =>
    if x.period = 0 then { y with armed := false }
    else
      let p := x.period * nsUnit
      y.setTime (x.time + ((v - x.time) / p + 1) * p)

/-- A slot is armed at the next tick (R291). -/
def State.actArm (s : State) (a : Nat) : State :=
  let v := s.armVal (a / 256)
  let s := s.actMod a fun x => { x with armed := true, late := false, lateness := 0 }
  if (s.act a).time < v then s.actLate a v else s

/-- A base has been moved: armed slots whose T it has passed fire late (R292). -/
def State.actStep (s : State) (k : Nat) : State :=
  let v := (s.tb k).val
  (s.time.slots.filter fun e => e.1 / 256 == k && e.2.armed && decide (e.2.time < v)).foldl
    (fun s e => s.actLate e.1 v) s

/-- The slot that ACT.ADDR names. -/
def State.actAddr (s : State) : Nat := actKey (s.rdf offActAddr 18 16) (s.rdf offActAddr 7 0)

/-- A slot's words. -/
def ActSlot.words (a : ActSlot) : List Word :=
  [ w32 a.ns, w32 a.sec, w32 (a.sec / 2 ^ 32), w32 a.period, setBit 31 a.armed (setBit 30 a.late a.w4), a.w5,
    w32 a.lateness, w32 a.runs ]

/-- ACT.CMD GO with an OP: 0 read, 1 write, 2 arm, 3 disarm (R293). -/
def State.actOp (s : State) (op : Nat) : State :=
  let s := s.wrf offActCmd 1 0 op
  match op with
  | 0 => s.wrs offActData0 (s.act s.actAddr).words
  | 1 =>
    if (s.act s.actAddr).armed then s.wrb offActCmd 29 true
    else s.actMod s.actAddr fun x =>
      { x with
        ns := s.rdf offActData0 29 0, sec := (s.rd (offActData1 0)).toNat + 2 ^ 32 * (s.rd (offActData1 1)).toNat
        period := (s.rd (offActData1 2)).toNat, w4 := s.rd offActData4 &&& 0x00BFE000, w5 := s.rd offActData5 &&& 0xBF000000 }
  | 2 => s.actArm s.actAddr
  | _ => s.actMod s.actAddr fun x => { x with armed := false }

/-- R293: ACT.CMD is written with GO and OP 0. -/
def execActRead (s : State) : Host.Outcome State Fault Refusal := .next (s.cfg offActCmd fun s => s.actOp 0)

/-- R293: ACT.CMD is written with GO and OP 1. -/
def execActWrite (s : State) : Host.Outcome State Fault Refusal := .next (s.cfg offActCmd fun s => s.actOp 1)

/-- R291: ACT.CMD is written with GO and OP 2. -/
def execActArm (s : State) : Host.Outcome State Fault Refusal := .next (s.cfg offActCmd fun s => s.actOp 2)

/-- R293: ACT.CMD is written with GO and OP 3. -/
def execActDisarm (s : State) : Host.Outcome State Fault Refusal := .next (s.cfg offActCmd fun s => s.actOp 3)

/-- R290: an armed slot's time has come. -/
def execActFire (k : Fin 8) (slot : Fin 256) (s : State) : Host.Outcome State Fault Refusal :=
  let a := actKey k slot
  .next (if (s.act a).armed && decide ((s.act a).time ≤ s.tbNow k) then s.actFire a else s)

/-! ## Commands and the jump limit (R275 to R279) -/

/-- UNSYNC of a base; a tracker's reads 1 until it is valid (R278, R294). -/
def State.unsync (s : State) (k : Nat) : Bool :=
  if k < 8 then s.rdb (tbCtl k) 30 else !(s.trkCopies k || (s.tb k).valid)

/-- Unlock is armed. -/
def State.unlocked (s : State) (k : Nat) : Bool := s.timerOn (.unlock k)

/-- Unlock ends. -/
def State.unlockOff (s : State) (k : Nat) : State := (s.stopTimer (.unlock k)).wrb (tbCtl k) 28 false

/-- An operation of a magnitude, in units, passes the jump limit (R276). -/
def State.jumpOk (s : State) (k mag : Nat) (unlocked : Bool) : Bool :=
  let limit := (s.rd (tbLimit k)).toNat
  limit = 0 || unlocked || s.unsync k || decide (mag ≤ limit * nsUnit)

/-- A refused operation (R276). -/
def State.jumpRefused (s : State) (k mag : Nat) : State :=
  ((s.wrb (tbCtl k) 29 true).wr (tbRefused k) (w32 (min 0xFFFFFFFF (mag / nsUnit)))).raiseEvt offTimeEvt 0

/-- The 64-bit signed offset in ARG0 and ARG1, in units. -/
def State.tbOffset (s : State) (k : Nat) : Int :=
  ((s.rd (tbArg k 1) ++ s.rd (tbArg k 0) : BitVec 64)).toInt * nsUnit

/-- The value that SET gives. -/
def State.setValue (s : State) (k : Nat) : Nat :=
  let sec := (s.rd (tbArg k 1)).toNat + 2 ^ 32 * (s.rd (tbArg k 2)).toNat
  (sec * 1000000000 + s.rdf (tbArg k 0) 29 0 % 1000000000) * nsUnit + s.rdf (tbArg k 3) 31 16 * 65536

/-- What a SET or STEP brings with it at its tick: everything that runs on the base takes the step, and the base that follows a
tracker slews the new D (R266, R279, R292, R295, R310). -/
def State.stepped (s : State) (k : Nat) : State :=
  if 8 ≤ k then
    if s.pairState (k - 8) = 2 then s.wrf (offPairStatus (k - 8)) 31 30 1 else s
  else ((s.actStep k).telStep k).gateStep k

/-- A GO of TB[k].CMD with an operation: ignored while BUSY is 1; else its write fields, the refusal of R295, unlock consumed,
the check, and the operation waits for the next tick (R275; the check is made at the write, assumption 15). -/
def State.tbGo (s : State) (k : Nat) (v : Word) (mag : State → Nat) (op : State → TbOp) : State :=
  let s := s.wr (tbCmd k) (v &&& 0x03FF0007)
  if (s.tb k).cmd.isSome then s
  else if s.pairState k ≠ 0 then s.wrb (offPairStatus k) 29 true
  else
    let un := s.unlocked k
    let s := s.unlockOff k
    if s.jumpOk k (mag s) un then s.tbMod k fun b => { b with cmd := some (op s) } else s.jumpRefused k (mag s)

/-- A word with its OP field set, and GO. -/
def goOp (op : Nat) (v : Word) : Word := setBit 31 true (setFld 2 0 op v)

/-- SET. -/
def State.tbSet (s : State) (k : Nat) (v : Word) : State :=
  s.tbGo k v (fun s => ((s.setValue k : Int) - s.tickVal k).natAbs) fun s => .set (s.setValue k)

/-- STEP. -/
def State.tbStep (s : State) (k : Nat) (v : Word) : State :=
  s.tbGo k v (fun s => (s.tbOffset k).natAbs) fun s => .step (s.tbOffset k)

/-- SLEW. -/
def State.tbSlew (s : State) (k : Nat) (v : Word) : State :=
  s.tbGo k v (fun s => ((s.tb k).slew + s.tbOffset k).natAbs) fun s => .slew (s.tbOffset k) (clampTo 1 1000 (fld 25 16 v))

/-- OP 0 and 4 to 7: nothing, at the next tick. -/
def State.tbNothing (s : State) (k : Nat) (v : Word) : State := s.tbGo k v (fun _ => 0) fun _ => .nothing

/-- R275: TB[k].CMD is written with GO and OP 1. -/
def execTbSet (k : Fin 10) (v : Word) (s : State) : Host.Outcome State Fault Refusal :=
  .next (s.cfg (tbCmd k) fun s => s.tbSet k (goOp 1 v))

/-- R275: TB[k].CMD is written with GO and OP 2. -/
def execTbStep (k : Fin 10) (v : Word) (s : State) : Host.Outcome State Fault Refusal :=
  .next (s.cfg (tbCmd k) fun s => s.tbStep k (goOp 2 v))

/-- R275: TB[k].CMD is written with GO and OP 3. -/
def execTbSlew (k : Fin 10) (v : Word) (s : State) : Host.Outcome State Fault Refusal :=
  .next (s.cfg (tbCmd k) fun s => s.tbSlew k (goOp 3 v))

/-- R275: the last of SLEW_LEFT goes in one tick. -/
def execSlewEnd (k : Fin 10) (s : State) : Host.Outcome State Fault Refusal :=
  let b := s.tb k
  if b.slew ≠ 0 && b.cmd.isNone && !b.ticked && s.tbRun k && decide (b.slew.natAbs ≤ max 1 (slewShare b.addend b.ppm (0 < b.slew))) then
    .next (s.tbMod k fun b => { b.tick with ticked := true })
  else .next s

/-- A write of UNLOCK: 0x0F0C arms for 1 ms, anything else disarms (R277). -/
def State.unlockWrite (s : State) (port : Bool) (k : Nat) (v : Word) : State :=
  s.lk port (tbUnlock k) .time fun s =>
    if v = 0x00000F0C then (s.startTimer (.unlock k) (ms 1)).wrb (tbCtl k) 28 true else s.unlockOff k

/-- R277: UNLOCK is written. -/
def execUnlockWrite (k : Fin 10) (v : Word) (s : State) : Host.Outcome State Fault Refusal :=
  .next (s.cfg (tbUnlock k) fun s => s.unlockWrite false k v)

/-- R277: 1 ms has passed with unlock not consumed. -/
def execUnlockExpire (k : Fin 10) (s : State) : Host.Outcome State Fault Refusal :=
  if s.unlocked k then .next ((s.unlockOff k).raiseEvt offTimeEvt 1) else .next s

/-! ## Paired bases (R295) -/

/-- SWITCH, or a trigger pulse. -/
def State.pairSwitch (s : State) (k : Nat) : State :=
  if !s.rdb (offPairCtl k) 31 || s.pairState k ≠ 0 then s
  else if s.trkCopies (8 + k) || (s.tb (8 + k)).valid then
    (s.wr (offPairD k) (signedNs (s.pairDiff k))).wrf (offPairStatus k) 31 30 1
  else (s.wrb (offPairStatus k) 28 true).raiseEvt offTimeEvt 10

/-- RETURN, or PAIR_EN cleared. -/
def State.pairReturn (s : State) (k : Nat) : State := s.wrf (offPairStatus k) 31 30 0

/-- A write of PAIR[k].CTL: SWITCH, then RETURN. -/
def State.pairCtlWrite (s : State) (k : Nat) (v : Word) : State :=
  let s := s.wr (offPairCtl k) (v &&& 0x9FE0000F)
  let s := if bit 30 v then s.pairSwitch k else s
  if bit 29 v || !bit 31 v then s.pairReturn k else s

/-- R295: PAIR[k].CTL is written with SWITCH. -/
def execPairSwitch (k : Fin 2) (v : Word) (s : State) : Host.Outcome State Fault Refusal :=
  .next (s.cfg (offPairCtl k) fun s => s.pairCtlWrite k (setBit 30 true v))

/-- R295: PAIR[k].CTL is written with RETURN, or with PAIR_EN 0. -/
def execPairReturn (k : Fin 2) (v : Word) (s : State) : Host.Outcome State Fault Refusal :=
  .next (s.cfg (offPairCtl k) fun s => s.pairCtlWrite k (setBit 30 false (if bit 31 v then setBit 29 true v else v)))

/-- R295: what is left of D goes in one tick. -/
def execPairSwitchDone (k : Fin 2) (s : State) : Host.Outcome State Fault Refusal :=
  if s.pairState k = 1 && decide ((s.pairDiff k).natAbs ≤ s.pairShare k) then .next (s.pairFollow k) else .next s

/-- The tick of a paired base in SLEW or FOLLOW, its tracker having ticked (R295): in FOLLOW it equals its tracker; in SLEW it
adds the tracker's addend with the slew while RUN is 1 (R270). An operation that waits is ignored. -/
def State.pairTick (s : State) (k : Nat) : State :=
  let s := if (s.tb k).cmd.isSome then (s.tbMod k fun b => { b with cmd := none }).wrb (offPairStatus k) 29 true else s
  if s.pairState k = 2 then s.tbMod k fun b => { b with val := (s.tb (8 + k)).val }
  else if !s.tbRun k then s
  else
    let s := s.tbMod k fun b => { b with val := b.val + s.trkAddend k }
    let d := s.pairDiff k
    if d.natAbs ≤ s.pairShare k then s.pairFollow k
    else s.tbMod k fun b => { b with val := if 0 < d then b.val + s.pairShare k else b.val - s.pairShare k }

/-! ## The tick (R270, R275) -/

/-- An operation is applied at its tick. SET gives its value in place of the addend, STEP adds its offset to it; both cancel
a slew in progress (R279). SLEW adds to SLEW_LEFT, and that tick slews already. A base never falls below zero. -/
def State.tbApply (s : State) (k : Nat) (op : TbOp) : State :=
  let s := s.tbMod k fun b => { b with cmd := none }
  match op with
  | .nothing => s.ownTick k
  | .set v => (s.tbMod k fun b => { b with val := v, slew := 0, ticked := false, valid := true }).stepped k
  | .step d =>
    let v := ((s.tb k).val + s.tickAdd k + d).toNat
    (s.tbMod k fun b => { b with val := v, slew := 0, ticked := false }).stepped k
  | .slew d ppm => (s.tbMod k fun b => { b with slew := b.slew + d, ppm := ppm }).ownTick k

/-- One tick of a base or tracker. -/
def State.tbTick (s : State) (k : Nat) : State :=
  match (s.tb k).cmd with
  | some op => s.tbApply k op
  | none => s.ownTick k

/-- One CK_TIME tick of the time unit (R270). -/
def State.timeTick (s : State) : State :=
  let s := [2, 3, 4, 5, 6, 7].foldl (fun s k => s.tbTick k) s
  let alone := [0, 1].filter fun k => s.pairState k = 0
  let s := alone.foldl (fun s k => s.tbTick k) s
  if !s.hasPaired then s
  else
    let s := [8, 9].foldl (fun s k => if s.trkCopies k then s else s.tbTick k) s
    let s := [0, 1].foldl (fun s k =>
      if s.trkCopies (8 + k) then s.tbMod (8 + k) fun b => { b with val := (s.tb (1 - k)).val, cmd := none } else s) s
    [0, 1].foldl (fun s k => if s.pairState k = 0 then s else s.pairTick k) s

/-! ## Transmit timestamp queues (R287 to R289) -/

/-- A port's queue. -/
def State.tsq (s : State) (m : Nat) : List (List Word) := sget (fun _ => []) s.time.tsq m

/-- A port's queue takes a value, which TSQ.STATUS and ENTRY show. -/
def State.setTsq (s : State) (b p : Nat) (q : List (List Word)) : State :=
  let s := s.timeMod fun t => { t with tsq := sset (fun _ => []) t.tsq (16 * b + p) q }
  (s.wrf (offTsqStatus b p) 6 0 q.length).wrs (offTsqEntry b p 0) (q.headD (List.replicate 8 0))

/-- A write of TSQ.STATUS: LOST clears, POP removes the head. -/
def State.tsqWrite (s : State) (b p : Nat) (v : Word) : State :=
  let s := if bit 30 v then s.wrb (offTsqStatus b p) 30 false else s
  if bit 31 v then s.setTsq b p (s.tsq (16 * b + p)).tail else s

/-- R289: TSQ.STATUS is written with POP. -/
def execTsqPop (b : BedIx) (p : LocalIx) (v : Word) (s : State) : Host.Outcome State Fault Refusal :=
  .next (s.cfg (offTsqStatus b p) fun s => s.tsqWrite b p (setBit 31 true v))

/-- A capture enters a port's queue, or is lost where the queue is full (R288); the Bool tells that it was recorded. -/
def State.tsCapture (s : State) (b p : Nat) (words : Nat → List Word) : Bool × State :=
  let m := 16 * b + p
  let seq := sget (fun _ => 0) s.time.tseq m
  let s := s.timeMod fun t => { t with tseq := sset (fun _ => 0) t.tseq m ((seq + 1) % 65536) }
  let q := s.tsq m
  if 64 ≤ q.length then
    (false, ((s.inc (offTsCnt b p 1) (offTsEvt b) 3).wrb (offTsqStatus b p) 30 true).raiseEvt (offTsEvt b) 1)
  else
    let s := (s.setTsq b p (q ++ [words seq])).inc (offTsCnt b p 0) (offTsEvt b) 3
    (true, if q = [] then s.raiseEvt (offTsEvt b) 0 else s)

/-! ## Time inputs and outputs (R296 to R299) -/

/-- A PPS input's captures that wait. -/
def State.ppsQ (s : State) (i : Nat) : List Nat := sget (fun _ => []) s.time.pps i

/-- A PPS input's queue takes a value, which COUNT and the head registers show. -/
def State.setPpsQ (s : State) (i : Nat) (q : List Nat) : State :=
  let s := s.timeMod fun t => { t with pps := sset (fun _ => []) t.pps i q }
  (s.wrf (offPpsInCtl i) 20 16 q.length).wrs (offPpsInHead i 0) (match q with | v :: _ => nowWords v | [] => [0, 0, 0, 0])

/-- A 16-bit number as signed. -/
def sword (n : Nat) : Int := if n < 32768 then n else (n : Int) - 65536

/-- A value in units with a signed number of ps added. -/
def addPs (v : Nat) (d : Int) : Nat := ((v : Int) + d * nsUnit / 1000).toNat

/-- R296: an edge on a PPS input; IN_DELAY is added to the captured time (assumption 16). -/
def execPpsInEdge (i : Fin 2) (falling : Bool) (s : State) : Host.Outcome State Fault Refusal :=
  let c := s.rd (offPpsInCtl i)
  if !s.lineOn || !bit 31 c || bit 30 c != falling then .next s
  else if 16 ≤ (s.ppsQ i).length then .next ((s.wrb (offPpsInCtl i) 26 true).raiseEvt offTimeEvt 7)
  else
    let v := addPs (s.tbNow (fld 29 27 c)) (sword (fld 15 0 c))
    .next ((s.setPpsQ i (s.ppsQ i ++ [v])).raiseEvt offTimeEvt 6)

/-- R296: PPS.IN[i].POP is written. -/
def execPpsInPop (i : Fin 2) (s : State) : Host.Outcome State Fault Refusal :=
  .next (s.cfg (offPpsInPop i) fun s => s.setPpsQ i (s.ppsQ i).tail)

/-- R297: a pulse on a PPS output ends. -/
def execPpsOutEnd (j : Fin 2) (s : State) : Host.Outcome State Fault Refusal :=
  if s.timerOn (.ppsOut j) then .next ((s.stopTimer (.ppsOut j)).emit (.ppsLevel j (s.rdb (offPpsOutCtl j) 30))) else .next s

/-- A write of REF10.CTL: TB, LOG2_PERIODS, and with GO a measurement. -/
def State.ref10Write (s : State) (v : Word) : State :=
  let s := s.wr offRef10Ctl ((v &&& 0x1C00001F) ||| (s.rd offRef10Ctl &&& 0x60000000))
  if bit 31 v then (s.wrf offRef10Ctl 30 29 0).timeMod fun t => { t with measuring := true } else s

/-- R298: REF10.CTL is written with GO. -/
def execRef10Go (v : Word) (s : State) : Host.Outcome State Fault Refusal :=
  .next (s.cfg offRef10Ctl fun s => s.ref10Write (setBit 31 true v))

/-- R298: the measurement ends: the time that elapsed on base TB over 2^N periods, in units of 2^-16 ns, or no signal. -/
def execRef10Done (elapsed : BitVec 64) (noSignal : Bool) (s : State) : Host.Outcome State Fault Refusal :=
  if !s.time.measuring || !s.roleServed 17 then .next s
  else
    let n := clampTo 10 24 (s.rdf offRef10Ctl 4 0)
    let s := (s.wrb offRef10Ctl 30 true).timeMod fun t => { t with measuring := false }
    .next (if noSignal then s.wrb offRef10Ctl 29 true
      else s.wr offRef10Meas (BitVec.ofInt 32 ((elapsed.toNat : Int) - 2 ^ n * 100 * 65536)))

/-- TB_A's distance from the nearest whole second, in units. -/
def nearSecond (v : Nat) : Int :=
  let m := v % (1000000000 * nsUnit)
  if m < 500000000 * nsUnit then m else (m : Int) - 1000000000 * nsUnit

/-- A monitor's sample is judged (R299). -/
def State.monJudge (s : State) (m : Nat) (bad : Bool) : State :=
  let run := if bad then sget (fun _ => 0) s.time.monBad m + 1 else 0
  let s := s.timeMod fun t => { t with monBad := sset (fun _ => 0) t.monBad m run }
  if 2 ≤ run then (s.raiseEvt offTimeEvt 8).detectTime (s.rdf (offMonCtl m) 28 26) else s

/-- R299: a time monitor samples its bases or the PPS edge that has come, or in PPS mode no edge has come in time. -/
def execTimeMonSample (m : Fin 4) (noEdge : Bool) (s : State) : Host.Outcome State Fault Refusal :=
  let c := s.rd (offMonCtl m)
  if !s.roleServed 17 || !bit 31 c then .next s
  else if noEdge then .next (if bit 30 c then s.monJudge m true else s)
  else
    let a := s.tbNow (fld 28 26 c)
    let d : Int := if bit 30 c then nearSecond a else (a : Int) - s.tbNow (fld 25 23 c)
    let d := d - (s.rd (offMonOffset m)).toInt * nsUnit
    let s := s.wr (offMonLastDiff m) (signedNs d)
    .next (s.monJudge m (decide ((s.rd (offMonBound m)).toNat * nsUnit < d.natAbs)))

end Sys2Proof.Machine
end

