-- ==== Sys2Proof/Machine/Receive.lean ====
section
/-! DEFINITION. MAC receive on the network ports (chapter 05, R102 to R114, with R26, R136, R282 and R383 to R385).
A frame is its bytes without the FCS; its length counts the FCS's four bytes. -/

namespace Sys2Proof.Machine

/-! ## What the MAC makes of the pieces of a frame (R102, R108, R124) -/

/-- A piece without its last four bytes, and these. -/
def pieceBody (x : RxPiece) : List Byte := x.bytes.take (x.bytes.length - 4)
def pieceEnd (x : RxPiece) : List Byte := x.bytes.drop (x.bytes.length - 4)

/-- The frame that pieces make, without its FCS. -/
def joined (ps : List RxPiece) : List Byte := (ps.map pieceBody).flatten

/-- After `acc` bytes of the frame, each piece but the last ends in the mCRC of the frame up to there, and the last does not. -/
def endsOk : List Byte → List RxPiece → Bool
  | _, [] => true
  | acc, x :: xs => ((pieceEnd x == fragCrc (acc ++ pieceBody x)) == !xs.isEmpty) && endsOk (acc ++ pieceBody x) xs

/-- Continuations of frame n with their fragment counts in sequence from k on. -/
def contsOk (n : Fin 4) : Nat → List RxPiece → Bool
  | _, [] => true
  | k, x :: xs => x.smd == .cont n (Fin.ofNat 4 k) && contsOk n (k + 1) xs

/-- The pieces are one frame: an express frame, or a start and its continuations in sequence, ended by the frame's FCS. An mCRC
that fails counts as a piece out of sequence (DEDUCED, assumption 88). -/
def piecesOk : List RxPiece → Bool
  | [] => false
  | x :: xs => match x.smd with
    | .sfd => xs.isEmpty
    | .start n => contsOk n 0 xs && endsOk [] (x :: xs)
    | _ => false

/-- The preemption fragments that RX_MM_FRAG counts: a frame that came in one piece, from its start to its FCS, counts none (DESIGN
CHOICE, assumption 87). -/
def fragsOfPieces (ps : List RxPiece) : Nat := if ps.length = 1 && piecesOk ps then 0 else ps.length

/-- What began with neither SFD nor SMD is received as no frame (R102; DESIGN CHOICE, assumption 88). -/
def heard (ps : List RxPiece) : Bool := match ps with | x :: _ => x.smd != .other | [] => false

/-- The FCS of a frame that is whole fails; a frame that is not has none that could be checked (DEDUCED, assumption 88). -/
def fcsFails (ps : List RxPiece) : Bool :=
  piecesOk ps && match ps.getLast? with | some x => pieceEnd x != ethFcs (joined ps) | none => false

/-! ## Statistics of a frame (R125) -/

/-- The place of a frame length among the ten size bins. -/
def sizeBin (n : Nat) : Nat :=
  if n ≤ 64 then 0 else if n ≤ 127 then 1 else if n ≤ 255 then 2 else if n ≤ 511 then 3 else if n ≤ 1023 then 4
  else if n ≤ 1518 then 5 else if n ≤ 2047 then 6 else if n ≤ 4095 then 7 else if n ≤ 9216 then 8 else 9

/-- Unicast, multicast or broadcast, by the destination address: 0, 1, 2. -/
def castOf (bytes : List Byte) : Nat :=
  if byteAt bytes 0 % 2 = 0 then 0 else if beAt bytes 0 6 = 2 ^ 48 - 1 then 2 else 1

/-- The frame begins with a VLAN tag of the settings. -/
def vlanTagged (cfg : ParseCfg) (bytes : List Byte) : Bool := isTag (typeNext cfg (beAt bytes 12 2))

/-- The type and size counters of a good frame from counter `at0` on for types and `bins` for sizes. -/
def State.typeCount (s : State) (m at0 bins : Nat) (cfg : ParseCfg) (bytes : List Byte) (length : Nat) : State :=
  let s := s.mst m (at0 + castOf bytes) 1
  let s := if vlanTagged cfg bytes then s.mst m (at0 + 3) 1 else s
  s.mst m (bins + sizeBin length) 1

/-- MAX_FRAME of a MAC. -/
def State.maxFrame (s : State) (m : Nat) : Nat :=
  if m = mgmtMac then s.rdf offMgmtCtl 13 0 else s.rdf (offMacCtl (m / 16) (m % 16)) 13 0

/-- What the MAC finds wrong with a frame beside its length. -/
structure RxFlaws where
  pcs : Bool := false
  fcs : Bool := false
  mm : Bool := false
  align : Bool := false
  rxEr : Bool := false
  deriving DecidableEq, Repr

/-- The MAC error code of a frame: the lowest that applies (R108). -/
def State.rxCode (s : State) (m length : Nat) (e : RxFlaws) : Nat :=
  if e.pcs then 1
  else if e.fcs then 2
  else if length < 64 then 3
  else if s.maxFrame m < length then 4
  else if e.mm then 5
  else if e.align then 6
  else if e.rxEr then 7
  else 0

/-- The counters of a received frame with an error code (R125). -/
def State.rxCount (s : State) (m code : Nat) (cfg : ParseCfg) (bytes : List Byte) (e : RxFlaws) : State :=
  let length := bytes.length + 4
  let s := (s.mst m 1 length).mst m 3 1
  let s := if code = 0 then (((s.mst m 0 length).mst m 2 1).typeCount m 4 10 cfg bytes length) else s
  let s := if length < 64 then s.mst m (if e.fcs then 21 else 20) 1
    else if s.maxFrame m < length then s.mst m (if e.fcs then 23 else 22) 1 else s
  match code with
  | 1 => s.mst m 25 1
  | 2 => s.mst m 24 1
  | 5 => s.mst m 26 1
  | _ => s

/-! ## Into topsoil (R26, R136, R282) -/

/-- PTP.DELAY's RX_DELAY and TX_DELAY in ps. -/
def State.rxDelay (s : State) (b p : Nat) : Int := sword (s.rdf (offPtpDelay b p) 15 0)
def State.txDelay (s : State) (b p : Nat) : Int := sword (s.rdf (offPtpDelay b p) 31 16)

/-- The ps from the instant at which the first bit of a frame's SFD crossed the pad to the MAC's last byte of it: the wire time of
its bytes with the SFD, what lay between its fragments, and the receive latency of R81 (R105, R280). -/
def State.rxAgo (s : State) (b p : Nat) (ps : List RxPiece) (gapPs : Nat) : Nat :=
  640 * rxLatency (s.rdf (offPortStatus b p) 3 0) (s.runFec b p) + s.sendPs b p ((joined ps).length + 5) + gapPs

/-- The eight bases some ps ago, at the addends they tick by now (DEDUCED, assumption 89). -/
def State.tbAgo (s : State) (ago : Nat) : List Nat :=
  (List.range 8).map fun k => s.tbNow k - (if s.tbRun k then ago * (s.tb k).addend / 1600 else 0)

/-- A frame as a port's MAC passes it on, `ago` ps after its timestamp point. -/
def State.rxFrame (s : State) (b p err : Nat) (bytes : List Byte) (ago : Nat) : Frame :=
  let d := s.rxDelay b p
  { bytes := bytes, src := s.portNo (16 * b + p), pos := some (s.posN b), bed := b, err := err
    rx := (s.tbAgo ago).map fun v => fracTime (addPs v d), rxTb := s.rdf (offPtpCtl b p) 31 29 }

/-- A frame's position holds no ingress-write credit for it (R26). -/
def State.rxOverrun (s : State) (b : Nat) (bytes : List Byte) : Bool :=
  !s.mayTake { bytes := bytes, src := 0, pos := some (s.posN b) }

/-- The bytes of a port's frames that wait in its MAC receive FIFO. -/
def State.fifoBytes (s : State) (port : Nat) : Nat :=
  ((s.framesWhere fun x => x.src == port && x.path == .fifo).map fun f =>
    match s.frame f with | some x => x.bytes.length | none => 0).sum

/-- A good frame goes on to the parser: its window is issued, or it waits in the FIFO while no slot can complete it or earlier
frames of the port wait; a frame that overfills the FIFO is discarded (R136). -/
def State.toParser (s : State) (b p : Nat) (bytes : List Byte) (ago : Nat) : State :=
  let m := 16 * b + p
  let waits := s.fifoBytes (s.portNo m)
  if s.beatRoom b && waits = 0 then
    if s.rxOverrun b bytes then s.rxDiscard m 0 else ((s.beatTake b).addFrame (s.rxFrame b p 0 bytes ago)).2
  else if 2048 < waits + bytes.length then s.inc (offParseCnt b 1) (offParseEvt b) 6
  else (s.addFrame { s.rxFrame b p 0 bytes ago with path := .fifo }).2

/-- A bad frame is delivered to port 256 (R110): its bytes up to MAX_FRAME, with its code. -/
def State.deliverBad (s : State) (b p err : Nat) (bytes : List Byte) (ago : Nat) : State :=
  let m := 16 * b + p
  let bytes := bytes.take (s.maxFrame m)
  if s.rxOverrun b bytes then s.rxDiscard m 0
  else
    let (f, s) := (s.mst m 30 1).addFrame (s.rxFrame b p err bytes ago)
    s.deliver f { destCopy f 256 (s.rd (offMacBadDest b p)) (s.rd (offMacBadFlow b p)) with reason := 3 }

/-- DELIVER_BAD of a port applies to a frame of some length. -/
def State.badGoes (s : State) (b p length : Nat) : Bool := s.rdb (offMacCtl b p) 29 && decide (18 ≤ length)

/-- A MAC control frame of code 0 (R114, R502). -/
def State.rxControl (s : State) (b p : Nat) (bytes : List Byte) : State :=
  let m := 16 * b + p
  let length := bytes.length + 4
  match beAt bytes 14 2 with
  | 0x0001 => s.ctlFrame b p length false (List.range 8) fun _ => beAt bytes 16 2
  | 0x0101 =>
    let on := (List.range 8).filter fun i => (beAt bytes 16 2).testBit i && s.rdb (offMacFcMask b p) i
    s.ctlFrame b p length true on fun i => beAt bytes (18 + 2 * i) 2
  | _ => ((s.mst m 1 length).mst m 3 1).rxDiscard m (if s.rdb (offMacCtl b p) 31 then 4 else 1)

/-- A frame of code 0 that is no control frame: Assay-checked where its port says so (R383 to R385), then parsed. -/
def State.rxGood (s : State) (b p : Nat) (bytes : List Byte) (ago : Nat) : State :=
  match s.assayIngress (s.parseCfg b) (s.portNo (16 * b + p)) bytes with
  | (.unchecked, s) => s.toParser b p bytes ago
  | (.accepted out, s) => s.toParser b p out ago
  | (.mismatch u, s) => if s.badGoes b p (bytes.length + 4) then s.deliverBad b p 16 bytes ago else s.assayCnt u 3 1
  | (.stale _, s) => s

/-- A frame that a MAC has whole is counted, and consumed, passed on, delivered as bad or discarded (R102, R107, R109, R110). -/
def State.rxWhole (s : State) (b p : Nat) (bytes : List Byte) (e : RxFlaws) (ago : Nat) : State :=
  let m := 16 * b + p
  let length := bytes.length + 4
  let code := s.rxCode m length e
  if code = 0 && beAt bytes 12 2 = 0x8808 then s.rxControl b p bytes
  else
    let s := s.rxCount m code (s.parseCfg b) bytes e
    if !s.rdb (offMacCtl b p) 31 then s.rxDiscard m 1
    else if code = 0 then s.rxGood b p bytes ago
    else if s.badGoes b p length then s.deliverBad b p code bytes ago
    else s.rxDiscard m (if code = 5 then 3 else 2)

/-- R102: a MAC receives a frame: what stood before it and its bytes, the continuations of one that came in fragments, each piece with
its last four bytes; what the PCS found wrong with it, the ps between its pieces, and what FEC has corrected and not corrected meanwhile. A frame in reception when its port lost lock is `cut` (R93): it is
counted in RX_DISCARD alone, not among the frames and octets received (DESIGN CHOICE, assumption 90). -/
def execMacReceiveFrame (b : BedIx) (p : LocalIx) (smd : Smd) (bytes : List Byte) (rest : List RxPiece) (pcsErr cut : Bool)
    (gapPs fecCorr fecUncorr : Nat) (fecSym : List Nat) (s : State) : Host.Outcome State Fault Refusal :=
  let pieces := ({ smd := smd, bytes := bytes } : RxPiece) :: rest
  let m := 16 * b.val + p.val
  if !s.macHears b p then .next s
  else if cut then .next (s.rxDiscard m 5)
  else if !s.pActive b p then .next s
  else
    let fec := s.runFec b p != 1
    let s := if fec then s.laneFec b p fecCorr fecUncorr fecSym else s
    if !heard pieces then .next s
    else
      let n := fragsOfPieces pieces
      let s := if n = 0 then s else s.mst m 27 n
      let s := if 2 ≤ n && piecesOk pieces then s.mst m 28 1 else s
      let e : RxFlaws := { pcs := pcsErr || (fec && fecUncorr != 0), fcs := fcsFails pieces, mm := !piecesOk pieces }
      .next (s.rxWhole b p (joined pieces) e (s.rxAgo b p pieces gapPs))

end Sys2Proof.Machine
end

