-- ==== Sys2Proof/Machine/Tiers.lean ====
section
/-! DEFINITION. The tier mover: moves to the lower tiers and prefetches back (chapter 08, R211 to R219, R501), and the read-back of a
recirculated frame (R35). -/

namespace Sys2Proof.Machine

/-- The admission and tier state is changed. -/
def State.admMod (s : State) (f : Adm → Adm) : State := { s with adm := f s.adm }

/-- Grains leave for a stack or link. -/
def State.spillMod (s : State) (u : Nat) (f : Nat → Nat) : State :=
  s.admMod fun a => { a with spilling := smod (fun _ => 0) a.spilling u f }

/-- Grains come back from a stack or link. -/
def State.fetchMod (s : State) (u : Nat) (f : Nat → Nat) : State :=
  s.admMod fun a => { a with fetching := smod (fun _ => 0) a.fetching u f }

/-- The queued copy of a frame, when it has one. -/
def State.queuedCopy (s : State) (f : Nat) : Option (Nat × Copy) :=
  (s.copiesWhere fun c => c.frame == f && c.stage == .queued).head?.bind fun i => (s.copy i).map fun c => (i, c)

/-- The index of a queued copy: the grains queued ahead of it in its flow. -/
def State.indexOf (s : State) (i : Nat) (c : Copy) : Nat :=
  (((s.flow c.flow).q.takeWhile (· != i)).filterMap fun j => (s.copy j).map s.copyGrains).sum

/-- A queued frame's index is below PREFETCH_AHEAD. -/
def State.nearFront (s : State) (f : Nat) : Bool :=
  match s.queuedCopy f with
  | some (i, c) => s.indexOf i c < s.prefetchAhead
  | none => false

/-- CNT_MOVE_CANCEL. -/
def State.moveCancel (s : State) (f : Nat) : State :=
  (s.frameMod f fun x => { x with dest := 0, drain := none }).inc (offTierCnt 4) offTierEvt 3

/-- A spill's stack: the first from `nextStack` on that holds the credit (R214). -/
def State.spillStack (s : State) (g : Nat) : Option Nat :=
  ((List.range 8).map fun k => (s.adm.nextStack + k) % 8).find? fun k => s.mayCross (.spill k) g

/-- Where a move of a frame goes: the stack in turn, or the named link. -/
def State.moveUnit (s : State) (x : Frame) (link : Nat) : Option Nat :=
  if x.dest = 1 then s.spillStack x.grains
  else if s.linkPlaces link && s.mayCross (.hardpanOut link) x.grains then some (8 + link)
  else none

/-- An occurrence for a queued frame, at the position of its egress port (R319). -/
def State.pmuQueued (s : State) (src f : Nat) : State :=
  match s.queuedCopy f with
  | some (_, c) => s.pmuOcc src (portPos c.port)
  | none => s

/-- A move of a frame is issued. -/
def State.issueMove (s : State) (f u : Nat) (x : Frame) : State :=
  let s := ((s.pmuQueued 6 f).spillMod u (· + x.grains)).frameMod f fun x => { x with moving := some u }
  if u < 8 then s.admMod fun a => { a with nextStack := (u + 1) % 8 } else s.siltWrites (u - 8) f x

/-- A frame's move to a lower tier is pending: its destination is lower, and it still lies in topsoil with no move issued. -/
def Frame.movePending (x : Frame) : Bool := x.dest != 0 && x.tier == 0 && x.moving.isNone

/-- A frame is the first in enqueue order of those whose moves to its tier are pending. The mover takes the frames for each of
the two lower tiers in that order, which keeps it for each stack and each link (R214; assumption 60). -/
def State.moveTurn (s : State) (f : Nat) (x : Frame) : Bool :=
  match s.queuedCopy f with
  | none => false
  | some (_, c) => s.copiesWhere (fun d => d.stage == .queued && decide (d.seq < c.seq) && match s.frame d.frame with
      | some y => y.movePending && y.dest == x.dest
      | none => false) == []

/-- R214: the mover's turn comes for a frame whose destination is a lower tier. A failing grain read discards the frame
(R437). -/
def execSpillMove (f : Nat) (link : Fin 8) (grainBad : Bool) (s : State) : Host.Outcome State Fault Refusal :=
  match s.frame f with
  | none => .next s
  | some x =>
    if !x.movePending || !s.moveTurn f x then .next s
    else if 1 < x.refs || s.nearFront f then .next (s.moveCancel f)
    else match s.moveUnit x link with
      | none => .next s
      | some u => .next (if grainBad || x.spoiled then s.grainFail .none f else s.issueMove f u x)

/-- A move to stack or link u has been acknowledged: the frame's grains rest there, and its topsoil grains are freed (R29,
R198, R214). -/
def State.movedTo (s : State) (f u : Nat) (x : Frame) : State :=
  let t := if u < 8 then 1 else 2
  let s := (s.occSub 0 x.grains).inc (offTierCnt (t - 1)) offTierEvt 3
  s.frameMod f fun x => { x with tier := t, unit := u % 8, dest := 0, moved := 0, drain := none }

/-- The move of a frame to stack or link u is acknowledged whole: the last of its grains are there. A frame selected meanwhile
is read from topsoil and keeps its grains there until its read ends; so does one whose index has fallen below PREFETCH_AHEAD,
for a flow's head is always in topsoil (R22, R415; DEDUCED for a stack, assumption 60). The grains of one that stays are freed
in the lower tier. -/
def State.moveAcked (s : State) (f u : Nat) (x : Frame) : State :=
  let left := x.grains - x.moved
  let s := (s.spillMod u (· - left)).occAdd x.toTier left
  let y := { x with moved := x.grains }
  let stay := { x with moving := none, moved := 0 }
  if x.refs = 0 then s.freeFrame f y
  else if !s.isQueued f then (s.setFrame f (some stay)).freeMoved y
  else if s.nearFront f then (s.setFrame f (some { stay with dest := 0, drain := none })).freeMoved y
  else (s.setFrame f (some stay)).movedTo f u x

/-- R29: a move to a stack is acknowledged. A link's module acknowledges its writes itself (R403). -/
def execMoveAck (f : Nat) (s : State) : Host.Outcome State Fault Refusal :=
  match s.frame f with
  | none => .next s
  | some x =>
    match x.moving with
    | some u => .next (if u < 8 then s.moveAcked f u x else s)
    | none => .next s

/-- The stack or link that holds a frame in a lower tier. -/
def Frame.home (x : Frame) : Nat := if x.tier = 1 then x.unit else 8 + x.unit

/-- Grains that a planned detach of link k has read back and that wait to move down again. -/
def State.drainedGrains (s : State) (k : Nat) : Nat :=
  ((s.framesWhere fun x => x.drain == some k).filterMap fun f => (s.frame f).map Frame.grains).sum

/-- DRAIN_STALL: the drain of a DRAINING module is paused, because its window is full (R411), its role is unserved (R417) or
its routine was aborted (R432). -/
def State.drainStall (s : State) (k : Nat) : Bool :=
  s.modState k == 2 && (!s.roleServed 22 || (s.siltSt k).paused ||
    decide (clampTo 1024 1048576 (s.rd (offSiltDrain k)).toNat ≤ s.drainedGrains k))

/-- A frame in a DRAINING module may be read back: the window has room (R411). -/
def State.mayDrain (s : State) (x : Frame) : Bool := x.tier == 2 && s.modState x.unit == 2 && !s.drainStall x.unit

/-- A prefetch of a queued frame may be issued: its index is below PREFETCH_AHEAD, or its module is draining; no frame of
its flow ahead of it still waits for its own, topsoil has free grains and the credit is there (R215, R411, R501). -/
def State.mayFetch (s : State) (f : Nat) (x : Frame) : Bool :=
  match s.queuedCopy f with
  | none => false
  | some (i, c) =>
    x.tier != 0 && !x.fetching && (s.nearFront f || s.mayDrain x) &&
    ((s.flow c.flow).q.takeWhile (· != i)).all (fun j => match (s.copy j).bind fun c => s.frame c.frame with
      | some y => y.tier == 0 || y.fetching || (!s.nearFront f && y.home != x.home)
      | none => true) &&
    s.topsoilRoom x.grains && s.mayCross (fetchCrossing x.home) x.grains &&
    (x.tier == 1 || s.linkReads x.unit)

/-- R215: the mover prefetches a frame. -/
def execPrefetchIssue (f : Nat) (s : State) : Host.Outcome State Fault Refusal :=
  match s.frame f with
  | none => .next s
  | some x =>
    .next (if s.mayFetch f x then
      let s := ((s.pmuQueued 7 f).fetchMod x.home (· + x.grains)).frameMod f fun x => { x with fetching := true }
      if x.tier = 2 then s.siltReads x.unit f else s
    else s)

/-- A prefetched frame is in topsoil: the last of its grains are written, and those of the lower tier freed (R198, R215). One
that a planned detach reads back is placed again (R411). -/
def State.fetched (s : State) (f : Nat) (x : Frame) : State :=
  let d := if x.tier = 2 && s.modState x.unit = 2 then s.placeWithout x.unit x (s.frameIndex f) else 0
  let s := ((s.occSub x.tier x.grains).occAdd 0 (x.grains - x.moved)).inc (offTierCnt (1 + x.tier)) offTierEvt 3
  s.frameMod f fun y =>
    { y with tier := 0, unit := 0, moved := 0, dest := d, drain := if d = 0 then none else some x.unit }

/-- A prefetch of a frame ends: its grains are in topsoil, or one of them failed its check (R437). -/
def State.fetchDone (s : State) (f : Nat) (x : Frame) (grainBad : Bool) : State :=
  let s := s.fetchMod x.home (· - (x.grains - x.moved))
  if x.refs = 0 then (s.freeFrame f x).writeWaiting
  else
    let s := s.frameMod f fun x => { x with fetching := false }
    if grainBad || x.spoiled then s.grainFail .none f else s.fetched f x

/-- R215: all the grains of a frame prefetched from subsoil are written to topsoil. A link's module returns its grains
itself (R402). -/
def execPrefetchComplete (f : Nat) (grainBad : Bool) (s : State) : Host.Outcome State Fault Refusal :=
  match s.frame f with
  | none => .next s
  | some x => .next (if x.fetching && x.tier == 1 then s.fetchDone f x grainBad else s)

/-! ## Recirculation (R35) -/

/-- R35: a frame is presented to its parser again as port 257, once its bitmap is final and it lies whole in topsoil. Its
position must be served; a read-back grain may fail its CRC (R437). -/
def execRecirculate (f : Nat) (grainBad : Bool) (s : State) : Host.Outcome State Fault Refusal :=
  match s.frame f with
  | none => .next s
  | some x =>
    if x.path != .recirc || x.tail || x.held || !s.mayCross (.recirculation (x.pos.getD 16)) x.window || (s.pmRuns x.bed x.src && x.bitmap.isNone) then .next s
    else if grainBad || x.spoiled then .next (s.grainFail (.bed x.bed) f).releaseHeld
    else .next ((s.inc (offMeshCnt x.bed 5) (offMeshEvt x.bed) 3).setFrame f (some { x with
      path := .window, pass := x.pass + 1, groups := x.bitmap.getD 0, bitmap := none }))

end Sys2Proof.Machine
end

