-- ==== Sys2Proof/Machine/Sched.lean ====
section
/-! DEFINITION. Selection: the descent through port, class, clod and flow, and what a selection charges (chapter 09, R222
to R241, with R93, R217, R304 to R306 and R442). -/

namespace Sys2Proof.Machine

/-! ## Ports (R223, R226) -/

/-- What a selection of a port does with its frame: none is made; it is sent; it is discarded under DROP_LINK_DOWN, all or
those marked at a FORM write (R93), under DROP_FENCED (R442), or under DROP_HOST_DOWN (R32). -/
inductive SelMode where
  | hold | send | drop | dropMarked | fenced | hostDown
  deriving DecidableEq, Repr

/-- What becomes of the frames of a network port of bed b: sent, or handled under a fence or FAULT_ACTION (R93, R113,
R442). -/
def State.outMode (s : State) (b p : Nat) : SelMode :=
  if s.portFenced (s.portNo (16 * b + p)) then .fenced
  else if s.mayTransmit b p then .send
  else match s.rdf (offPortForm b p) 27 26 with
  | 1 => .drop
  | 2 => .dropMarked
  | _ => if (s.port b p).holdOver then .drop else .hold

/-- The mode of a port's selections. -/
def State.selMode (s : State) (port : Nat) : SelMode :=
  if isHost port then
    if !s.hostOn then .hostDown
    else if port = 258 && !s.rdb offMgmtCtl 30 then .hold
    else .send
  else match s.bedOfPort port with
  | none => .hold
  | some b =>
    let p := port % 16
    if !s.bedUsable b || !s.rdb (offMacCtl b p) 30 then .hold else s.outMode b p

/-- TX_IPG of a port: 12 on ports 256 and 258. -/
def State.portIpg (s : State) (port : Nat) : Nat :=
  match s.macOf port with
  | some m => if m = mgmtMac then 12 else s.txIpg (m / 16) (m % 16)
  | none => 12

/-- A port holds 64 of its 96 transmit-credit grains (R25, R226). -/
def State.txCredit (s : State) (port : Nat) : Bool := s.mayCross (.transmit port) 64

/-- A position holds a dequeue credit (R25). -/
def State.dequeueCredit (s : State) (pos : Nat) : Bool := s.mayCross (.dequeue pos) 1

/-- A port is ready for a selection in some mode, its classes apart (R226). -/
def State.portReady (s : State) (port : Nat) (mode : SelMode) : Bool :=
  mode != .hold && 0 ≤ (s.pacerNow port).pacer && s.dequeueCredit (portPos port) &&
    (mode != .send || isHost port || s.txCredit port)

/-- The bed whose METER.PORT has the OVERHEAD of an egress port: the one that serves its position; for a frame to port 256
or 258 the bed that parsed it, for every bed has those entries (DESIGN CHOICE, assumption 11). -/
def State.overheadBed (s : State) (port : Nat) (x : Frame) : Nat :=
  if isHost port then x.bed else (s.bedOfPort port).getD (port / 16)

/-- The charged length C of a frame of a port (R223). -/
def State.charge (s : State) (port : Nat) (x : Frame) : Nat :=
  chargedLen x.bytes.length (s.meterPort (s.overheadBed port x) port)

/-! ## Flows (R217, R228, R240) -/

/-- The copy at the head of a flow. -/
def State.headCopy (s : State) (flow : Nat) : Option (Nat × Copy) :=
  (s.flow flow).q.head?.bind fun i => (s.copy i).map fun c => (i, c)

/-- A flow is not held, and in the marked discard its head is a marked frame. -/
def State.flowReady (s : State) (port : Nat) (mode : SelMode) (flow : Nat) : Bool :=
  let marks := match s.bedOfPort port with | some b => (s.port b (port % 16)).marked | none => []
  s.inCache (portPos port) flow && !s.prefetchHeld (s.flow flow) &&
    (mode != .dropMarked || match (s.flow flow).q.head? with | some i => marks.contains i | none => false)

/-- The charge of a flow's head frame. -/
def State.headCharge (s : State) (port flow : Nat) : Nat :=
  match s.headCopy flow with
  | some (_, c) => match s.frame c.frame with | some x => s.charge port x | none => 0
  | none => 0

/-- q of a flow in a class of a port: QUANTUM, or DEFAULT_QUANTUM; below 256 acts as 256. -/
def State.quantumOf (s : State) (port cls flow : Nat) : Nat :=
  let q := (s.flow flow).quantum
  max 256 (if q = 0 then fld 23 0 (s.schedReg port (shClass cls)) else q)

/-- The visit of a flow list (R228): the flow whose head frame its deficit covers and whose clod may send it, if there is one
before every flow that is not held has had its quantum of the round. -/
def State.visit (ready : Nat → Bool) (charge : Nat → Nat) (may : Nat → Bool) (port cls key : Nat) : Nat → State → Option Nat × State
  | 0, s => (none, s)
  | n + 1, s =>
    let l := s.flowList key
    match l.find? ready with
    | none => (none, s)
    | some f =>
      let r := s.round port cls
      let s := if (s.flow f).grant = r then s
        else s.flowMod f fun x => { x with deficit := x.deficit + s.quantumOf port cls f, grant := r }
      if decide (charge f ≤ (s.flow f).deficit) && may (charge f) then (some f, s)
      else if l.any fun g => ready g && (s.flow g).grant != r then
        State.visit ready charge may port cls key n (s.setFlowList key (l.filter (· != f) ++ [f]))
      else (none, s)

/-! ## Clods (R230 to R233) -/

/-- What a clod receives at its turn in a tier of a class (R233). -/
def State.clodTurn (s : State) (port cls tier clod : Nat) : Nat :=
  let w := s.schedReg port (shClodq cls)
  if tier = 0 then max 1 (fld 31 16 w) * 64 else max 1 (s.clod clod).weight * max 1 (fld 15 0 w) * 64

/-- Clod deficits are not kept for ports 256 and 258 (R247). -/
def State.clodCovers (s : State) (port key c : Nat) : Bool := isHost port || decide (c ≤ s.clodDef key)

/-- What a walk of a class's lists comes to: the clod and flow it chooses, the held flows it passes over, the flow lists it
comes by, and the state it leaves. -/
structure Walked where
  pick : Option (Nat × Nat)
  passed : List Nat
  keys : List Nat
  after : State

/-- The walk has come by a flow list, and has passed over the held flows of it that are not behind f. -/
def Walked.came (w : Walked) (held : List Nat) (key : Nat) : Walked :=
  { w with passed := held ++ w.passed, keys := key :: w.keys }

/-- The walk of a clod list from its pointer. A clod that has no flow that is not held ends its turn (R231); `can` are the
others. Within its turn a clod may send what its deficit covers (R233). -/
def State.clodWalk (ready : Nat → Bool) (charge : Nat → Nat) (port cls tier : Nat) (can : List Nat) : Nat → State → Walked
  | 0, s => { pick := none, passed := [], keys := [], after := s }
  | n + 1, s =>
    let l := s.clodList port cls tier
    let k := l.ids.getD l.ptr 0
    let key := clodKey port cls k
    let held := fun (l : List Nat) => l.filter fun f => !ready f
    if !can.contains k then
      (State.clodWalk ready charge port cls tier can n (s.clodNext port cls tier)).came (held (s.flowList key)) key
    else
      let s := if l.granted || isHost port then s
        else (s.setClodDef key (s.clodDef key + s.clodTurn port cls tier k)).setClodList port cls tier { l with granted := true }
      let may := fun c => s.clodCovers port key c
      match State.visit ready charge may port cls key (2 * (s.flowList key).length + 2) s with
      | (some f, s') =>
        { pick := some (k, f), passed := held ((s'.flowList key).takeWhile (· != f)), keys := [key], after := s' }
      | (none, s') =>
        (State.clodWalk ready charge port cls tier can n (s'.clodNext port cls tier)).came (held (s'.flowList key)) key

/-- The clods of a list with a flow that is not held. -/
def State.clodsReady (s : State) (ready : Nat → Bool) (port cls tier : Nat) : List Nat :=
  (s.clodList port cls tier).ids.filter fun k => (s.flowList (clodKey port cls k)).any ready

/-- The flow lists of a list of clods. -/
def State.keysOf (s : State) (port cls tier : Nat) : List Nat := (s.clodList port cls tier).ids.map (clodKey port cls)

/-- A selection that finds no eligible clod in a tier has passed over every flow of it. -/
def State.wholeTier (s : State) (port cls tier : Nat) : List Nat := (s.keysOf port cls tier).flatMap s.flowList

/-- Bounds the turns of a walk: every deficit covers every frame well before it. -/
def walkFuel (n : Nat) : Nat := 512 * (n + 1)

/-- The walk of a class: of the committed tier while it has an eligible clod, else of the excess tier (R232). -/
def State.classWalk (s : State) (ready : Nat → Bool) (port cls : Nat) : Walked :=
  let charge := s.headCharge port
  let go := fun tier can => State.clodWalk ready charge port cls tier can (walkFuel (s.clodList port cls tier).ids.length) s
  let can0 := s.clodsReady ready port cls 0
  if can0 ≠ [] then go 0 can0
  else
    let can1 := s.clodsReady ready port cls 1
    let none0 : Walked := { pick := none, passed := s.wholeTier port cls 0, keys := s.keysOf port cls 0, after := s }
    let w := if can1 ≠ [] then go 1 can1
      else { pick := none, passed := s.wholeTier port cls 1, keys := s.keysOf port cls 1, after := s }
    { w with passed := none0.passed ++ w.passed, keys := none0.keys ++ w.keys }

/-- A candidate of a class: its copy, and the tier, clod, flow and charge that selecting it takes; and the state its walk
leaves. -/
structure Pick where
  copy : Nat
  cls : Nat
  clod : Nat
  flow : Nat
  charge : Nat
  after : State

/-- What a selection finds in a class: its candidate, the held flows it passes over, and the flow lists it comes by. -/
structure Look where
  pick : Option Pick
  passed : List Nat
  keys : List Nat

/-- A class that a selection does not look into. -/
def Look.none : Look := { pick := .none, passed := [], keys := [] }

/-- The frame that the lower levels choose in a class. -/
def State.candidate (s : State) (ready : Nat → Bool) (port cls : Nat) : Look :=
  let w := s.classWalk ready port cls
  let pick := match w.pick with
    | some (k, f) => (s.headCopy f).map fun e =>
        { copy := e.1, cls := cls, clod := k, flow := f, charge := s.headCharge port f, after := w.after }
    | none => none
  { pick := pick, passed := w.passed, keys := w.keys }

/-! ## The guard band at selection (R255 to R259, R262) -/

/-- The growth bound G of a program of a bed (R257). -/
def State.growth (s : State) (b prog : Nat) : Nat :=
  let at0 := fun j => s.rd (offRewriteProgramW0 b prog j + bankSpan * s.rewBank b)
  let ops := ((List.range 32).map at0).takeWhile fun w => fld 31 28 w != 0 && fld 31 28 w < 8
  min 128 ((ops.filter fun w => fld 31 28 w == 4 || fld 31 28 w == 6).map fun w => fld 14 8 w).sum

/-- The bound of a copy's edited length without its FCS: N + G + A, or that at most TRUNC (R257). -/
def State.lenBound (s : State) (b : Nat) (c : Copy) : Nat :=
  let n := match s.frameOf c with | some x => x.bytes.length | none => 0
  let g := match c.prog with | some k => s.growth b k | none => 0
  let a := match c.assay with | some u => if c.trunc = 0 then s.assayBound u else 0 | none => 0
  if c.trunc = 0 then n + g + a else min (n + g + a) c.trunc

/-- The wire length bound W (R257). -/
def State.wireBound (s : State) (b p : Nat) (c : Copy) : Nat := max (s.lenBound b c) 60 + 12 + s.txIpg b p

/-- The wire time in ps of some bytes on a port. -/
def State.wirePs (s : State) (b p bytes : Nat) : Nat := tickPs (wireTime bytes (s.wireRate b p))

/-- The wire time of one MAC control frame while FC_MODE is not 0 (R256). -/
def State.ctlPs (s : State) (b p : Nat) : Nat := if s.fcMode b p = 0 then 0 else s.wirePs b p (72 + s.txIpg b p)

/-- The idle start of a selection made now, in ps (R256). -/
def State.idleStart (s : State) (b p : Nat) : Nat := s.ps + 16000 + s.latencyPs b p

/-- The instant in ps at which a port finishes every frame selected and not yet transmitted (R256). -/
def State.horizon (s : State) (b p : Nat) : Nat :=
  let port := s.portNo (16 * b + p)
  let jobs := (s.copiesWhere fun c => c.port == port && (c.stage == .selected || c.stage == .edited)).filterMap fun i =>
    (s.copy i).map fun c =>
      let gap := if s.preemptable b p c.cls then s.txIpg b p + 8 else 0
      (c.wireFrom, s.wirePs b p (s.wireBound b p c + gap) + s.ctlPs b p)
  let all := (s.gate b p).busy + (jobs.map (·.2)).sum
  jobs.foldl (fun h j => max h (j.1 + ((jobs.filter fun k => j.1 ≤ k.1).map (·.2)).sum)) all

/-- The predicted wire start of a selection made now, in ps (R256). -/
def State.wireStart (s : State) (b p : Nat) : Nat := max (s.idleStart b p) (s.horizon b p) + s.ctlPs b p

/-- A candidate passes the gate part of the class condition (R222, R258, R259). -/
def State.gateEligible (s : State) (b p : Nat) (c : Copy) : Bool :=
  s.guardFits b p c.cls (s.wireStart b p - s.ps) (s.wireBound b p c) (s.lenBound b c + 4) (s.fragsOf b p 0 c.cls)

/-! ## Classes (R225) -/

/-- A class is not paused (R115), and no other preemptable frame of the port is open (R259). -/
def State.classFree (s : State) (port cls : Nat) : Bool :=
  match s.macOf port with
  | none => true
  | some m => !s.paused m cls &&
      (m == mgmtMac || !s.preemptable (m / 16) (m % 16) cls || (s.mac m).openTx.isNone)

/-- A candidate is eligible by its class's gate (R222); a selection that discards does not look at gates (R262). -/
def State.pickOk (s : State) (port : Nat) (mode : SelMode) (k : Pick) : Bool :=
  mode != .send || isHost port || match s.bedOfPort port, s.copy k.copy with
    | some b, some c => s.gateEligible b (port % 16) c
    | _, _ => false

/-- What a selection finds in a class, its candidate where that is eligible; a selection that discards does not look at pause
(R262). -/
def State.classPick (s : State) (port : Nat) (mode : SelMode) (cls : Nat) : Look :=
  if mode = .send && !s.classFree port cls then Look.none
  else
    let l := s.candidate (s.flowReady port mode) port cls
    { l with pick := l.pick.filter (s.pickOk port mode) }

/-- The next class of the group from a class on. -/
def groupNext (group : List Nat) (c : Nat) : Nat := (group.find? (c ≤ ·)).getD (group.headD 0)

/-- The DRR of the group (R225) over its classes' candidates: the one it takes, and the classes its pointer reaches. -/
def groupWalk (group : List Nat) (weight : Nat → Nat) (cand : Nat → Option Pick) :
    Nat → PortSch → Option (Pick × PortSch) × List Nat
  | 0, _ => (none, [])
  | n + 1, x =>
    let c := groupNext group x.ptr
    let x := if c = x.ptr then x else { x with ptr := c, granted := false }
    let on := { x with ptr := c + 1, granted := false }
    let next := fun y => let r := groupWalk group weight cand n y; (r.1, c :: r.2)
    match cand c with
    | none => next on
    | some k =>
      let x := if x.granted then x
        else { x with granted := true, deficits := x.deficits.set c (x.deficits.getD c 0 + weight c) }
      if k.charge ≤ x.deficits.getD c 0 then
        (some (k, { x with deficits := x.deficits.set c (x.deficits.getD c 0 - k.charge) }), [c])
      else next { on with deficits := x.deficits }

/-- The DRR group of a port, and the quantum of a class in it. -/
def State.drrGroup (s : State) (port : Nat) : List Nat := (List.range 6).filter fun c => bit c (s.schedReg port shDrr)
def State.classWeight (s : State) (port c : Nat) : Nat := max 1 (fld 31 24 (s.schedReg port (shClass c))) * 64

/-- The descent of a selection: strict priority, 7 highest, the group at its highest member (R222, R225); what it takes, and
what it found in the classes it came to. -/
def State.descend (s : State) (port : Nat) (mode : SelMode) : List Nat → Option (Pick × PortSch) × List Look
  | [] => (none, [])
  | c :: rest =>
    let x := s.pacerNow port
    let group := s.drrGroup port
    let below := fun (ls : List Look) => let r := s.descend port mode rest; (r.1, ls ++ r.2)
    if !group.contains c then
      let l := s.classPick port mode c
      match l.pick with
      | some k => (some (k, x), [l])
      | none => below [l]
    else if group.getLast? != some c then below []
    else
      let looks := group.map fun g => (g, s.classPick port mode g)
      let cand := fun g => (looks.lookup g).bind Look.pick
      if looks.all fun e => e.2.pick.isNone then below (looks.map (·.2))
      else
        let r := groupWalk group (s.classWeight port) cand (walkFuel 8) x
        (r.1, (looks.filter fun e => r.2.contains e.1).map (·.2))

/-! ## What a selection leaves -/

/-- A flow is passed over: held for its record, which is fetched (R240), or for prefetch (R217). -/
def State.passFlow (s : State) (port flow : Nat) : State :=
  let pos := portPos port
  if !s.inCache pos flow then
    let s := s.fetchFlow pos flow
    match s.bedOfPort port with
    | some b => if isHost port then s else (s.inc (offSchedCnt b 1) (offSchedEvt b) 1).raiseEvt (offSchedEvt b) 0
    | none => s
  else if s.prefetchHeld (s.flow flow) then
    ((s.inc (offTierCnt 5) offTierEvt 3).raiseEvt offTierEvt 0).pmuOcc 5 pos
  else s

/-- The next RUNAHEAD flows of the list that is served are fetched (R239). -/
def State.fetchAhead (s : State) (port key : Nat) : State :=
  ((s.flowList key).take (s.runAhead port)).foldl (fun s f => s.fetchFlow (portPos port) f) s

/-- The flow sample of a selection (R304 to R306). -/
def State.sampleFlow (s : State) (k : Pick) (c : Copy) : State :=
  let cfg := s.rd (offTelFlowSample k.cls)
  if !s.rdb offTelCtl 31 || !s.rdb offTelCtl 30 || !bit 31 cfg then s
  else
    let f := s.flow k.flow
    let w := fun i => f.sample.getD i 0
    let left := (w 0).toNat - 1
    if left ≠ 0 then s.flowMod k.flow fun f => { f with sample := [w32 left, w 1, w 2, w 3] }
    else
      let soj := s.sojourn c.enq c.enqStep
      let t := s.tbNow s.telTb
      let n := match s.frame c.frame with | some x => x.bytes.length | none => 0
      let s := s.flowMod k.flow fun f =>
        { f with sample := [w32 (2 ^ fld 3 0 cfg - 1), w32 soj, w32 (max (w 2).toNat soj), w 3 + 1] }
      s.telFlowRecord [w32 k.flow, w32 (c.port * 2 ^ 23 + k.cls * 2 ^ 20 + c.clod),
        w32 (b2n (c.enqStep != s.tel.steps) * 2 ^ 31 + tbNs t), w32 (tbSec t), w32 (n * 2 ^ 18 + tbSec t / 2 ^ 32 % 65536),
        w32 soj, w32 (f.depth - grainsOf n)]

/-- A clod is charged for a selection in whichever tier it was served (R235). -/
def State.clodCharge (s : State) (port clod c : Nat) : State :=
  if !(s.clod clod).en then s
  else
    let s := (s.clodNow clod).clodMod clod fun k =>
      { k with tc := k.tc - (16 * c : Nat), tp := if k.unlimited then k.tp else k.tp - (16 * c : Nat) }
    let s := match s.bedOfPort port with
      | some b => if (s.clod clod).tier = 2 then s.inc (offSchedCnt b 2) (offSchedEvt b) 1 else s
      | none => s
    s.retier clod false

/-- The charges and counts of a selection. -/
def State.chargeAll (s : State) (port : Nat) (k : Pick) (c : Copy) (n : Nat) : State :=
  let key := clodKey port k.cls k.clod
  let s := s.telSelect port k.cls (s.classCount port k.cls) k.charge (s.sojourn c.enq c.enqStep)
  let s := (s.sampleFlow k c).flowMod k.flow fun f =>
    { f with deficit := f.deficit - k.charge, deqFrames := (f.deqFrames + 1) % cntMod
             deqBytes := (f.deqBytes + k.charge) % cntMod }
  let s := if isHost port then s else (s.setClodDef key (s.clodDef key - k.charge)).clodCharge port k.clod k.charge
  let x := s.portSch port
  let s := s.setPortSch port { x with pacer := x.pacer - ((n + 12 + s.portIpg port) * 12500 : Nat) }
  let s := match s.bedOfPort port with
    | some b => if isHost port then s else s.inc (offSchedCnt b 0) (offSchedEvt b) 1
    | none => s
  s.pmuOcc 3 (portPos port)

/-- What becomes of the copy a selection took. -/
def State.takeCopy (s : State) (port : Nat) (mode : SelMode) (i : Nat) : State :=
  match mode with
  | .send =>
    let t := match s.bedOfPort port with | some b => if isHost port then 0 else s.idleStart b (port % 16) | none => 0
    { s.copyMod i fun c => { c with stage := .selected, wireFrom := t, seq := s.nextId } with nextId := s.nextId + 1 }
  | .fenced => s.countFenced.discardCopy i
  | .hostDown => (s.dropTel 16 9).discardCopy i
  | _ => (s.dropTel (port / 16) 6).discardCopy i

/-- A selection of a port with its candidate. A move of its frame that is still pending is cancelled: its index has fallen below
PREFETCH_AHEAD, and a frame to port 256 or 258 is pinned from now on (R212, R214, R221). -/
def State.select (s : State) (port : Nat) (mode : SelMode) (k : Pick) (x : PortSch) : State :=
  match s.copy k.copy with
  | none => s
  | some c =>
    let n := match s.frame c.frame with | some f => f.bytes.length | none => 0
    let s := ((k.after.setPortSch port x).chargeAll port k c n).touch (portPos port) k.flow
    let s := match s.frame c.frame with
      | some f => if f.movePending then s.moveCancel c.frame else s
      | none => s
    (s.unqueue k.copy).takeCopy port mode k.copy

/-- The clods of a port's lists are brought up to the present cycle and take the lists their buckets dictate (R232,
R234). -/
def State.clodsNow (s : State) (port : Nat) : State :=
  if isHost port then s
  else ((List.range 16).flatMap fun i => (s.clodList port (i / 2) (i % 2)).ids).eraseDups.foldl
    (fun s c => (s.clodNow c).retier c false) s

/-- The block name of a port. -/
def State.schedId (s : State) (port : Nat) : SchedId :=
  if port = 256 then .host 0
  else if port = 258 then .host 1
  else .net (Fin.ofNat 17 ((s.bedOfPort port).getD (port / 16))) (Fin.ofNat 16 (port % 16))

/-! ## Engines (R227) -/

/-- The eight classes, highest first. -/
def classesDown : List Nat := [7, 6, 5, 4, 3, 2, 1, 0]

/-- A port as a selection that starts in this cycle sees it: after its hand-over (R244), its clods brought up. -/
def State.atSelection (s : State) (port : Nat) : State := (s.handOver (s.schedId port)).clodsNow port

/-- A port is ready for a selection: R226, with an eligible class. -/
def State.readyNow (s : State) (port : Nat) : Bool :=
  let t := s.atSelection port
  t.portReady port (t.selMode port) && (t.descend port (t.selMode port) classesDown).1.isSome

/-- A port may take two engines in one cycle: its form is 800G or 1.6T. -/
def State.takesTwo (s : State) (port : Nat) : Bool :=
  !isHost port && match s.bedOfPort port with | some b => 800000 ≤ formRate (s.runForm b (port % 16)) | none => false

/-- The round of a cycle at a position: its ports from one further on than in the cycle before, then those that may take a
second engine in the same order. Where the round starts in the first cycle is the cycle's number (DESIGN CHOICE,
assumption 97). -/
def State.engineRound (s : State) (pos : Nat) : List Nat :=
  let ports := if pos = 16 then [256, 258] else (List.range 16).map (16 * pos + ·)
  let order := ports.rotateLeft s.cycle
  order ++ order.filter s.takesTwo

/-- The engines of a position's bed, and of the cross for ports 256 and 258 (R227, R247). -/
def enginesOf (pos : Nat) : Nat := if pos = 16 then 1 else 4

/-- The engines' turn at a position in the present cycle. -/
def State.engineTurn (s : State) (pos : Nat) : EngineTurn :=
  let t := sget (fun _ => {}) s.sched.turns pos
  if t.cycle = s.cycle then t else { cycle := s.cycle }

/-- The turn after an engine has been handed to a port: the port is the next ready one of the round, and an engine is free. -/
def State.handEngine (s : State) (port : Nat) : Option EngineTurn :=
  let t := s.engineTurn (portPos port)
  let left := (s.engineRound (portPos port)).drop t.next
  if enginesOf (portPos port) ≤ t.used then none
  else (left.findIdx? s.readyNow).bind fun i =>
    if left[i]? = some port then some { t with used := t.used + 1, next := t.next + i + 1 } else none

/-- A selection of a port with what the descent comes to. -/
def State.selection (s : State) (port : Nat) : State :=
  let s := s.atSelection port
  let mode := s.selMode port
  let r := s.descend port mode classesDown
  let s := match r.1 with
    | some (k, x) => s.select port mode k x
    | none => s
  let s := ((r.2.flatMap Look.keys).eraseDups).foldl (fun s k => s.fetchAhead port k) s
  ((r.2.flatMap Look.passed).eraseDups).foldl (fun s f => s.passFlow port f) s

/-- R222, R227: an engine is handed to a port and starts a selection; the port must be the next ready one of its bed's round. -/
def execSelection (port : Fin 259) (s : State) : Host.Outcome State Fault Refusal :=
  let p := port.val
  if !s.lineOn || p = 257 then .next s
  else match s.handEngine p with
    | some t => .next ((s.selection p).schedMod fun h => { h with turns := sset (fun _ => {}) h.turns (portPos p) t })
    | none => .next s

end Sys2Proof.Machine
end

