-- ==== Sys2Proof/Machine/Transmit.lean ====
section
/-! DEFINITION. The egress editor, one-step edits, and MAC transmit (R103 to R105, R122 to R124, R187, R256 to R261, R284 to
R288, R381, R438, R500). -/

namespace Sys2Proof.Machine

/-! ## The egress editor (R187, R500) -/

/-- The micro-ops of a program and the bytes of a template, of the active rewrite bank of a bed. -/
def State.rewProgram (s : State) (b k : Nat) : List MicroOp :=
  let bank := bankSpan * s.rewBank b
  (List.range 32).map fun j => microOp (s.rd (offRewriteProgramW0 b k j + bank)) (s.rd (offRewriteProgramW1 b k j + bank))
def State.rewTemplate (s : State) (b k : Nat) : List Byte :=
  wordBytes ((List.range 16).map fun j => s.rd (offRewriteTemplate b k j + bankSpan * s.rewBank b))

/-- The bed whose editor edits a copy: the egress position's, or for ports 256 and 258 that of the ingress position; none
where the position is not served. -/
def State.editBed (s : State) (c : Copy) (x : Frame) : Option Nat :=
  if c.port < 256 then s.bedOfPort c.port else x.pos.bind s.bedOf

/-- A copy whose frame has no ingress position, or that the editor of bed b edits, as it leaves the editor; none where the
program breaks a rule (R191). -/
def State.edited (s : State) (b : Option Nat) (c : Copy) (x : Frame) : Option Edit :=
  let e := match b with
    | some b => editFrame x.bytes x.parse (c.prog.map (s.rewProgram b)) c.operands (s.rewTemplate b) c.mark
    | none => some (Edit.start x.bytes x.parse)
  e.map fun e => if c.trunc = 0 then e else { e with bytes := e.bytes.take c.trunc }

/-- The edit of a selected copy starts in bed b (none: it has no ingress position). -/
def State.editCopy (s : State) (i : Nat) (b : Option Nat) (c : Copy) (x : Frame) : State :=
  let s := match b with
    | some b => s.meshMod fun m => { m with lastEdit := sset (fun _ => none) m.lastEdit b (some s.now) }
    | none => s
  match s.edited b c x, b with
  | some e, _ => (s.readOut i).copyMod i fun c => { c with stage := .edited, edit := some e }
  | none, some b => ((s.inc (offRewriteCntDropRewrite b) (offRewriteEvt b) 2).raiseEvt (offRewriteEvt b) 0).discardCopy i
  | none, none => s.discardCopy i

/-- R187: the egress editor reads a selected copy's frame and edits it. A read grain may fail its check (R437). -/
def execEgressEdit (c : Nat) (grainBad : Bool) (s : State) : Host.Outcome State Fault Refusal :=
  match s.copy c with
  | none => .next s
  | some x =>
    match s.frame x.frame with
    | none => .next s
    | some f =>
      let b := s.editBed x f
      if x.stage != .selected then .next s
      else if x.port < 256 && !(match b with | some b => s.bedUsable b | none => false) then .next s
      else if isHost x.port && f.pos.isSome && !(match f.pos with | some n => s.posUsable n | none => false) then
        .next ((s.dropTel 16 11).discardCopy c)
      else if grainBad || f.spoiled then .next (s.grainFail (match b with | some b => .bed b | none => .none) x.frame)
      else .next (s.editCopy c b x f)

/-! ## One-step edits (R284, R285) -/

/-- The PTP entry of a parse: its place in the stack and its offset. -/
def ptpEntry (p : Parse) : Option (Nat × Nat) :=
  let es := p.entries.map fun e => (e.code, e.off)
  (es.findIdx? fun e => e.1 == 0x09 || e.1 == 0x28).bind fun i => es[i]?.map fun e => (i, e.2)

/-- Where the edit has left that entry, if it is still there. -/
def ptpNow (e : Edit) (x : Frame) : Option Nat := (ptpEntry x.parse).bind fun p => match e.stack[p.1]? with
  | some (_, o) => o
  | none => none

/-- A change of a correctionField, in units of 2^-16 ns from a difference in units of 2^-32 ns. -/
def corrAdd (bytes : List Byte) (o : Nat) (d : Int) : List Byte :=
  beBytes 8 (((beAt bytes (o + 8) 8 : Int) + d / 65536) % (2 ^ 64 : Nat)).toNat

/-- The row of R284 that a PTP message falls under by its type and flags: 0 none, 1 Sync, 2 Pdelay_Resp, 3 residence. -/
def State.oneStepRow (s : State) (b p : Nat) (x : Frame) (o : Nat) : Nat :=
  let t := byteAt x.bytes o % 16
  let one := s.rdb (offPtpCtl b p) 28
  let tc := s.rdb (offPtpCtl b p) 27
  let oneStep := byteAt x.bytes (o + 6) / 2 % 2 = 0
  if one && oneStep && t == 0 && x.rx == [] then 1
  else if one && oneStep && t == 3 && x.rx == [] then 2
  else if tc && t ≤ 3 then 3
  else if one && oneStep && (t == 0 || t == 3) then 3
  else 0

/-- The edit of a row at a header offset, for a transmit timestamp; none where the row's other conditions do not hold. -/
def State.oneStepAt (s : State) (b p row stamp o : Nat) (e : Edit) (x : Frame) : Option Edit :=
  let n := min 256 e.bytes.length
  let tb := s.rdf (offPtpCtl b p) 31 29
  match row with
  | 1 =>
    if n < o + 44 then none
    else
      let e := e.write (o + 34) (beBytes 6 (tbSec stamp) ++ beBytes 4 (tbNs stamp))
      some (e.write (o + 8) (corrAdd e.bytes o (stamp % nsUnit)))
  | 2 =>
    if n < o + 44 then none
    else
      let t2 := (beAt e.bytes (o + 34) 6 * 1000000000 + beAt e.bytes (o + 40) 4) * nsUnit
      let e := e.write (o + 8) (corrAdd e.bytes o ((stamp : Int) - t2))
      some (e.write (o + 34) (List.replicate 10 0))
  | 3 =>
    if n < o + 34 || x.rx = [] || x.rxTb ≠ tb || !s.rdb (offPtpCtl b p) 27 then none
    else some (e.write (o + 8) (corrAdd e.bytes o ((stamp : Int) - x.rx.getD tb 0)))
  | _ => none

/-- The one-step edit of a frame as it starts: the frame, and 0 for no PTP message of R284, 1 for an edit, 2 for a skip. -/
def State.oneStep (s : State) (b p stamp : Nat) (c : Copy) (e : Edit) (x : Frame) : Edit × Nat :=
  match (if c.trunc = 0 then ptpEntry x.parse else none) with
  | none => (e, 0)
  | some (_, o0) =>
    let row := s.oneStepRow b p x o0
    if row = 0 then (e, 0)
    else match (ptpNow e x).bind fun o => s.oneStepAt b p row stamp o { e with old := [] } x with
    | some e' => (e'.fixup, 1)
    | none => (e, 2)

/-! ## Transmit (R103, R104, R122, R261) -/

/-- A frame as it is on the wire, without its FCS, with its one-step edit's outcome; the state whose Assay unit has given
it its trailer (R381, R382). -/
def State.wireFrame (s : State) (b p stamp : Nat) (c : Copy) (e : Edit) (x : Frame) : List Byte × Nat × State :=
  let (e, how) := s.oneStep b p stamp c e x
  let (bytes, s) := match c.assay with
    | some u => if c.trunc = 0 then s.assayAppend u c.port e.bytes else (e.bytes, s)
    | none => (e.bytes, s)
  (bytes ++ List.replicate (60 - bytes.length) 0, how, s)

/-- Room in bytes before the next closing of a class some ps from now (R258). -/
def State.roomBytes (s : State) (b p cls ps : Nat) : Option Nat :=
  (s.closingAt b p cls ps).map fun d => d / 2 ^ 22 * s.wireRate b p / 8192000

/-- Where a fragment of a frame with r bytes left ends, if it is cut: at the first permitted point at or after `cut` (R123), or at
the last that still ends before the closing when the rest does not fit (R259). -/
def State.cutPoint (s : State) (b p cls ps r : Nat) (o : OpenTx) (cut : Option Nat) : Option Nat :=
  let closing := match s.roomBytes b p cls ps with
    | some room => if 8 + r + o.ipg ≤ room then none else some (min (r - 64) (room - (12 + o.ipg)))
    | none => none
  let asked := match cut with
    | some n => if max n o.minFrag + 64 ≤ r then some (max n o.minFrag) else none
    | none => none
  match asked, closing with
  | some a, some z => some (min a z)
  | some a, none => some a
  | none, z => z

/-- A frame or fragment of n bytes with its FCS or mCRC is on the wire from an instant in ps, the gap after it `ipg` bytes; the
monitor is to judge it (R267). -/
def State.onWire (s : State) (b p cls start n ipg : Nat) : State :=
  let t0 := start + s.sendPs b p 7
  let stop := start + s.sendPs b p (8 + n)
  let busy := stop + s.sendPs b p ipg
  let w : WireSpan := { cls := cls, start := t0, stop := t0 + s.sendPs b p n }
  s.gateMod b p fun g => { g with busy := busy, fragEnd := stop, passed := false, spans := g.spans ++ [w] }

/-- The words of a transmit capture (R287). -/
def captureWords (tag tb stamp how : Nat) (ptp : Option Nat) (bytes : List Byte) (seq : Nat) : List Word :=
  let w1 := match ptp with
    | some o => byteAt bytes o % 16 * 2 ^ 24 + 2 ^ 23 + beAt bytes (o + 30) 2
    | none => 0
  [w32 (tag * 65536 + seq), w32 (b2n (how == 1) * 2 ^ 31 + tb * 2 ^ 28 + w1), w32 (tbNs stamp), w32 (tbFrac stamp * 65536),
   w32 (tbSec stamp), w32 (tbSec stamp / 2 ^ 32 % 65536), 0, 0]

/-- What the start of a frame does: its one-step edit is counted and its timestamp captured (R284 to R288). A lost capture
is marked in the copy's send. -/
def State.startFrame (s : State) (b p i stamp how : Nat) (c : Copy) (x : Frame) (e : Edit) (bytes : List Byte) : State :=
  let s := if how = 1 then s.stat b p 62 1
    else if how = 2 then (s.inc (offTsCnt b p 2) (offTsEvt b) 3).raiseEvt (offTsEvt b) 2
    else s
  if !c.tsReq then s
  else
    let tb := s.rdf (offPtpCtl b p) 31 29
    let (ok, s) := s.tsCapture b p (captureWords x.tag tb stamp how (ptpNow e x) bytes)
    if ok then s else s.copyMod i fun c => { c with lost := true }

/-- A frame has been sent to its end (R124, R125). -/
def State.frameSent (s : State) (b p i : Nat) (c : Copy) (bytes : List Byte) : State :=
  let m := 16 * b + p
  let n := bytes.length + 4
  let s := (((s.stat b p 32 n).stat b p 33 n).stat b p 34 1).stat b p 35 1
  let s := s.typeCount m 36 42 (s.parseCfg b) bytes n
  let lost := match s.copy i with | some c => c.lost | none => false
  let s := (s.copyFate c (if lost then 2 else 1)).endCopy i
  if (s.mac m).openTx.map (·.copy) = some i then s.openDone b p else s

/-- A fragment of a frame leaves: its number, and after the first the fragment count, from 0 on (R122; both modulo 4, PRESUMED,
assumption 86). -/
def State.emitFrag (s : State) (c : Copy) (o : OpenTx) (bytes : List Byte) : State :=
  s.emit (.wireFragment c.port o.sent (o.number % 4) (if o.frags = 0 then none else some ((o.frags - 1) % 4)) bytes)

/-- A frame that starts takes the port's next frame number. -/
def State.takeNumber (s : State) (b p : Nat) (o : OpenTx) : State :=
  if o.frags = 0 then s.macMod (16 * b + p) fun x => { x with number := (o.number + 1) % 4 } else s

/-- The next fragment, or the whole, of a frame that may go: `bytes` it is without its FCS, `o` what has gone of it where it may be
sent in fragments. A frame that is sent in one piece counts no fragment (DESIGN CHOICE, assumption 87). -/
def State.sendPiece (s : State) (b p i start : Nat) (o : Option OpenTx) (c : Copy) (bytes : List Byte) (cut : Option Nat) : State :=
  let m := 16 * b + p
  let out := bytes ++ ethFcs bytes
  let r := out.length - sentOf o
  let ipg := s.gapOf b p o
  match o with
  | none => ((s.onWire b p c.cls start r ipg).emit (.wireFrame c.port out)).frameSent b p i c bytes
  | some o =>
    let s := s.takeNumber b p o
    match s.cutPoint b p c.cls (start - s.ps) r o cut with
    | some n =>
      let piece := (bytes.drop o.sent).take n
      let s := (s.onWire b p c.cls start (n + 4) ipg).emitFrag c o (piece ++ fragCrc (bytes.take (o.sent + n)))
      let s := s.stat b p 54 1
      let s := if o.frags = 0 then s.stat b p 55 1 else s
      (s.macMod m fun x => { x with openTx := some { o with sent := o.sent + n, frags := o.frags + 1 } }).copyMod i fun c =>
        { c with wire := bytes }
    | none =>
      let s := (s.onWire b p c.cls start r ipg).emitFrag c o (out.drop o.sent)
      (if o.frags = 0 then s else s.stat b p 54 1).frameSent b p i c bytes

/-- A lane is lost after some bytes of a frame or fragment: what had left of it is on the wire, which then breaks off, and the frame
is not transmitted (R93); no timestamp of it is captured and no one-step edit counted. -/
def State.pieceCut (s : State) (b p i : Nat) (o : Option OpenTx) (c : Copy) (bytes : List Byte) (n : Nat) : State :=
  let piece := ((bytes ++ ethFcs bytes).drop (sentOf o)).take n
  (s.emit (.wireCut c.port (sentOf o) piece)).frameCut b p i (sentOf o + piece.length)

/-- The transmit timestamp of a frame that is on the wire from an instant in ps: its SFD, with TX_DELAY (R280). -/
def State.txStamp (s : State) (b p start : Nat) : Nat :=
  fracTime (addPs (s.tbIn (s.rdf (offPtpCtl b p) 31 29) (start - s.ps + s.sendPs b p 7)) (s.txDelay b p))

/-- A frame starts: trailer, gate, length (R104, R261), then the wire. -/
def State.firstPiece (s : State) (b p i : Nat) (c : Copy) (x : Frame) (e : Edit) (cut lane : Option Nat) : State :=
  let start := s.txStart b p
  let stamp := s.txStamp b p start
  let o := s.fragsOf b p i c.cls
  let (bytes, how, s) := s.wireFrame b p stamp c e x
  let n := bytes.length + 4
  if !s.gateLets b p c.cls start n o then (s.gateMiss b p).discardCopy i
  else if s.maxFrame (16 * b + p) < n then ((s.dropTel (s.posN b) 7).stat b p 52 1).discardCopy i
  else match lane with
    | some k => s.pieceCut b p i o c bytes k
    | none => (s.startFrame b p i stamp how c x e bytes).sendPiece b p i start o c bytes cut

/-- The open frame of a port goes on with its next fragment, if its gate lets it. -/
def State.nextPiece (s : State) (b p i : Nat) (o : OpenTx) (c : Copy) (cut lane : Option Nat) : State :=
  if !s.contFits b p o c then s
  else match lane with
    | some k => s.pieceCut b p i (some o) c c.wire k
    | none => s.sendPiece b p i (s.txStart b p) (some o) c c.wire cut

/-- A frame may start or go on: no MAC control frame waits to go before it (R116), and where it is preemptable there is no hold, and
no other is open (R123, R259). -/
def State.mayStart (s : State) (b p i cls : Nat) : Bool :=
  let m := s.mac (16 * b + p)
  !s.fcDue b p && match m.openTx with
    | some o => (o.copy == i || !s.preemptable b p cls) &&
        (!s.rdb (offMacMmStatus b p) 27 || (o.copy != i && !s.preemptable b p cls))
    | none => !s.preemptable b p cls || !s.rdb (offMacMmStatus b p) 27

/-- A copy is the first edited one of its port in the order of selection, among those that are preemptable or among those
that are not. -/
def State.firstOut (s : State) (b p i : Nat) (c : Copy) : Bool :=
  (s.copiesWhere fun d => d.port == c.port && (d.stage == .selected || d.stage == .edited) &&
    s.preemptable b p d.cls == s.preemptable b p c.cls && d.seq < c.seq).all (· == i)

/-- A frame that is not sent is discarded in one way, or where part of it has gone in another. -/
def State.unless (s : State) (b p i : Nat) (whole : State → State) (part : OpenTx → State → State) : State :=
  match (s.mac (16 * b + p)).openTx with
  | some o => if o.copy = i then part o s else whole s
  | none => whole s

/-- A frame is discarded under DROP_LINK_DOWN (R93, R113). -/
def State.linkDrop (s : State) (b p i : Nat) : State :=
  s.unless b p i (fun s => (s.dropTel (s.posN b) 6).discardCopy i) fun o s => s.frameCut b p i o.sent

/-- A frame is discarded under DROP_FENCED (R442). -/
def State.fenceDrop (s : State) (b p i : Nat) : State :=
  s.unless b p i (fun s => s.countFenced.discardCopy i) fun _ s => (s.countFenced.portCut b p).discardCopy i

/-- An edited copy for a network port reaches its MAC. `lane` tells that a lane is lost after so many of its bytes. -/
def State.transmit (s : State) (i : Nat) (c : Copy) (cut lane : Option Nat) (tagBad : Bool) : State :=
  match s.bedOfPort c.port, c.edit, c.was with
  | some b, some e, some x =>
    let p := c.port % 16
    let marked := (s.port b p).marked.contains i
    if !s.bedUsable b || c.stage != .edited || !s.firstOut b p i c then s
    else if tagBad then
      let s := s.safeInc 1 1
      (s.unless b p i (fun s => s.discardCopy i) fun _ s => (s.portCut b p).discardCopy i).detect 2 (.bed b)
    else match s.outMode b p with
    | .fenced => s.fenceDrop b p i
    | .hold => s
    | .dropMarked => if marked then s.linkDrop b p i else s
    | .send =>
      if !s.mayStart b p i c.cls then s
      else s.unless b p i (fun s => s.firstPiece b p i c x e cut lane) fun o s => s.nextPiece b p i o c cut lane
    | _ => s.linkDrop b p i
  | _, _, _ => s

/-- The management port sends its first waiting frame (R103, R104, R131). -/
def State.mgmtSend (s : State) : State :=
  match s.mgmt.txq with
  | [] => s
  | f :: _ =>
    let bytes := f ++ List.replicate (60 - f.length) 0
    let n := bytes.length + 4
    let k := s.mgmt.attempts
    let s := s.mgmtGiveUp
    if s.maxFrame mgmtMac < n then s.mgmtStat 52 1
    else
      let s := s.emit (.wireFrame 258 (bytes ++ ethFcs bytes))
      let s := (((s.mgmtStat 32 n).mgmtStat 33 n).mgmtStat 34 1).mgmtStat 35 1
      let s := s.typeCount mgmtMac 36 42 { tpidExtra := 0, mplsPayload := 0, geneveWalk := false, csum := false, vxlan := 0
                                           geneve := 0, gtpu := 0, opt := none } bytes n
      if k = 1 then s.mgmtStat 54 1 else if 1 < k then s.mgmtStat 55 1 else s

/-- R103: a MAC sends the frame of an edited copy, or its next fragment; without a copy, the management port its first
waiting frame. `lane` tells that a lane is lost after so many bytes of it (R93), `tagBad` that its destination tag does not
match (R438). -/
def execMacTransmitFrame (c : Option Nat) (lane : Option Nat) (tagBad : Bool) (s : State) :
    Host.Outcome State Fault Refusal :=
  match c with
  | none => .next (if s.mgmtSending then s.mgmtSend else s)
  | some i =>
    match s.copy i with
    | some x => .next (if x.port < 256 then s.transmit i x none lane tagBad else s)
    | none => .next s

/-- R123: a preemptable frame is sent until the first permitted point after `ready` of its remaining bytes, an express frame
being ready or hold asserted then. -/
def execPreemptFragment (c : Nat) (ready : Nat) (s : State) : Host.Outcome State Fault Refusal :=
  match s.copy c with
  | some x => .next (if x.port < 256 then s.transmit c x (some ready) none false else s)
  | none => .next s

end Sys2Proof.Machine
end

