-- ==== Sys2Proof/Machine/Rings.lean ====
section
/-! DEFINITION. Host rings: doorbell records and ring states, and event rings with their vectors (chapter 13, R321 to R332
and R350 to R353, with R317). -/

namespace Sys2Proof.Machine

/-! ## Rings and their registers -/

/-- A ring's key: 512 kind + number. -/
def ringKey : RingId → Nat
  | .tx t => t.val
  | .rx r => 512 + r.val
  | .ev v => 1024 + v.val

/-- The first register of a ring. -/
def ringBase (k : Nat) : Nat :=
  (if k < 512 then offTxBase k else if k < 1024 then offRxBase (k - 512) else offVecBase (k - 1024))

/-- Registers of a ring: CTL, PARAM, SEEN, CONS (a vector's WR), NEXT, STATUS, CNT_RING_DROP. -/
def rgCtl (k : Nat) : Nat := ringBase k + 0x10
def rgParam (k : Nat) : Nat := ringBase k + 0x14
def rgSeen (k : Nat) : Nat := ringBase k + 0x18
def rgCons (k : Nat) : Nat := ringBase k + 0x1C
def rgNext (k : Nat) : Nat := ringBase k + 0x20
def rgStatus (k : Nat) : Nat := ringBase k + 0x24
def rgDrop (k : Nat) : Nat := ringBase k + 0x28

/-- A ring beside its registers. -/
def State.ring (s : State) (k : Nat) : RingSt := sget (fun _ => {}) s.rings.rings k

/-- The ring engine's state is changed. -/
def State.ringsMod (s : State) (f : Rings → Rings) : State := { s with rings := f s.rings }

/-- A ring beside its registers is changed. -/
def State.ringMod (s : State) (k : Nat) (f : RingSt → RingSt) : State :=
  s.ringsMod fun r => { r with rings := smod (fun _ => {}) r.rings k f }

/-- STATE: 0 DISABLED, 1 RUNNING, 2 DRAINING, 3 FAULT. -/
def State.ringState (s : State) (k : Nat) : Nat := s.rdf (rgStatus k) 31 30

/-- A ring works: RUNNING or DRAINING. -/
def State.ringWorks (s : State) (k : Nat) : Bool := s.ringState k == 1 || s.ringState k == 2

/-- SIZE in entries, as read on entry to RUNNING: 6 to 15 as a power of 2, to 12 on event rings. -/
def State.ringSize (s : State) (k : Nat) : Nat :=
  let n := max 6 (fld 15 12 (s.ring k).ctl)
  2 ^ (if k < 1024 then n else min 12 n)

/-- Counts of a ring, and a difference modulo 2^32 (R326). -/
def State.seen (s : State) (k : Nat) : Nat := (s.rd (rgSeen k)).toNat
def State.cons (s : State) (k : Nat) : Nat := (s.rd (rgCons k)).toNat
def State.nextOf (s : State) (k : Nat) : Nat := (s.rd (rgNext k)).toNat
def cntDiff (a b : Nat) : Nat := (a + 2 ^ 32 - b % 2 ^ 32) % 2 ^ 32

/-- The address of entry k of a ring (R326). -/
def State.entryAddr (s : State) (k n : Nat) : Nat :=
  ((s.ring k).base + n % s.ringSize k * (if k < 1024 then 32 else 16)) % 2 ^ 64

/-- A ring engine counter. -/
def State.ringCnt (s : State) (i : Nat) : State := s.inc (offRingCnt i) offRingEvt 6

/-- A ring event: RING.LAST names its ring. -/
def State.ringEvent (s : State) (k i : Nat) : State :=
  (s.wr offRingLast (w32 (k / 512 * 2 ^ 30 + k % 512))).raiseEvt offRingEvt i

/-- A frame or send of a ring is discarded under a counter. -/
def State.ringDrop (s : State) (k i : Nat) : State := (s.ringCnt i).inc (rgDrop k) offRingEvt 6

/-! ## Doorbell fetches (R327 to R330) -/

/-- The record and Auger fetches outstanding or waiting: not more than 512 reads are outstanding at a time (R322, R365). -/
def State.readsAsked (s : State) : Nat :=
  (s.rings.rings.filter fun e => e.2.fetching).length + (s.aug.filter fun e => e.2.fetch.isSome).length

/-- Those outstanding. -/
def State.readsOut (s : State) : Nat := s.readsAsked - s.rings.readQ.length

/-- A read is issued: of a ring's record, or of a descriptor for Auger channel j - 2048. -/
def State.readGo (s : State) (j : Nat) : State :=
  if j < 2048 then s.emit (.doorbellFetch (s.ring j).db)
  else match (s.augCh (j - 2048)).fetch with
  | some (_, addr) => s.emit (.augFetch (j - 2048) addr)
  | none => s

/-- A read that has just been asked for is issued, or waits for one of the 512 to end. -/
def State.readAsk (s : State) (j : Nat) : State :=
  if s.readsOut ≤ 512 then s.readGo j else s.ringsMod fun r => { r with readQ := r.readQ ++ [j] }

/-- A read is over, or given up: one that waits is issued. -/
def State.readOver (s : State) (j : Nat) : State :=
  let s := s.ringsMod fun r => { r with readQ := r.readQ.filter (· != j) }
  match s.rings.readQ with
  | [] => s
  | i :: rest => if s.readsOut < 512 then (s.ringsMod fun r => { r with readQ := rest }).readGo i else s

/-- A record fetch: at most one in flight; a nudge during it causes one more (R328). With 512 reads outstanding it waits. -/
def State.fetchDb (s : State) (k : Nat) (nudge : Bool) : State :=
  if (s.ring k).fetching then (if nudge then s.ringMod k fun r => { r with again := true } else s)
  else (s.ringMod k fun r => { r with fetching := true }).readAsk k

/-- A ring's record fetch is over, or given up. -/
def State.fetchOver (s : State) (k : Nat) : State :=
  (s.ringMod k fun r => { r with fetching := false, again := false }).readOver k

/-- A ring's record fetch is in flight. -/
def State.fetchOut (s : State) (k : Nat) : Bool := (s.ring k).fetching && !s.rings.readQ.contains k

/-- The ring a nudge's data names. -/
def nudgeRing (v : Word) : Option Nat :=
  let n := fld 8 0 v
  match fld 15 14 v with
  | 0 => some n
  | 1 => some (512 + n)
  | 2 => if n < 256 then some (1024 + n) else none
  | _ => none

/-- A nudge that is ignored: RING.LAST names the ring it spells, where it spells one. -/
def State.nudgeBad (s : State) (v : Word) : State :=
  let s := s.ringCnt 8
  if fld 15 14 v = 3 then s.raiseEvt offRingEvt 4 else s.ringEvent (fld 15 14 v * 512 + fld 8 0 v) 4

/-- A nudge (R330). -/
def State.nudge (s : State) (v : Word) : State :=
  match nudgeRing v with
  | some k => if s.ringState k = 1 then s.fetchDb k true else s.nudgeBad v
  | none => s.nudgeBad v

/-- R330: a word is written to the doorbell page. -/
def execNudge (v : Word) (s : State) : Host.Outcome State Fault Refusal :=
  .next (s.cfg 0x2F0000 fun s => s.nudge v)

/-- A ring is polled: it is RUNNING with POLL_EN 1. -/
def State.polled (s : State) (k : Nat) : Bool := s.ringState k == 1 && s.rdb (rgCtl k) 30

/-- The ring to which the poll comes next, in round robin (R328). -/
def State.pollNext (s : State) : Option Nat := ((List.range 1280).map fun i => (s.rings.pollTurn + i) % 1280).find? s.polled

/-- R328: the poll comes to a ring. -/
def execDoorbellPoll (r : RingId) (s : State) : Host.Outcome State Fault Refusal :=
  let k := ringKey r
  .next (if s.pollNext = some k then
    (s.ringsMod fun r => { r with pollTurn := (k + 1) % 1280 }).fetchDb k false else s)

/-- R328: POLL_NS after a torn record it is fetched again. -/
def execTornRecordRefetch (r : RingId) (s : State) : Host.Outcome State Fault Refusal :=
  let k := ringKey r
  .next (if s.timerOn (.torn k) then (if s.ringWorks k then (s.stopTimer (.torn k)).fetchDb k false else s.stopTimer (.torn k)) else s)

/-! ## Ring states (R331) -/

/-- A TS_REQ send of a ring awaits its report. -/
def Send.awaits (x : Send) : Bool := x.tsReq && x.status == 0 && x.id.isSome && x.report.isNone

/-- STATUS.TS_WAITING follows a transmit ring's sends. -/
def State.tsWaiting (s : State) (k : Nat) : State :=
  if k < 512 then s.wrb (rgStatus k) 25 ((s.ring k).sends.any Send.awaits) else s

/-- Frames and sends in progress of a ring are discarded under DROP_RING_FAULT, once each; FRAME-out credits return. -/
def State.dropWork (s : State) (k : Nat) : State :=
  let r := s.ring k
  let n := r.waiting.length + r.reserved.length + (r.sends.filter fun x => !x.written).length + (if r.open_ = [] then 0 else 1)
  let s := (List.range n).foldl (fun s _ => s.ringDrop k 2) s
  let s := { s with timers := s.timers.filter fun e => match e.1 with
    | .rxShort i => k != 512 + i
    | .torn i => k != i
    | .tsWait id => !(r.sends.any fun x => x.id == some id)
    | _ => true }
  (s.ringMod k fun r => { r with open_ := [], sends := [], waiting := [], reserved := [] }).fetchOver k

/-- A ring faults with a cause. -/
def State.ringFault (s : State) (k cause : Nat) : State :=
  if !s.ringWorks k then s
  else
    let s := s.dropWork k
    (s.wr (rgStatus k) (setFld 31 27 (3 * 8 + cause) (s.rd (rgStatus k) &&& 0x06000000 &&& (if k < 1024 then 0 else 0xFFFFFFFF)))).ringEvent k 1

/-- A ring is DISABLED with its counts 0. -/
def State.ringReset (s : State) (k : Nat) : State :=
  let s := (s.dropWork k).wrb (rgCtl k) 31 false
  let keep := if k < 1024 then 0 else s.rd (rgStatus k) &&& 0x06000000
  let s := s.wrs (rgSeen k) [0, 0, 0, keep]
  s.ringMod k fun r => { lastMsg := r.lastMsg }

/-- A ring starts RUNNING (R331, R332). -/
def State.ringStart (s : State) (k : Nat) : State :=
  let b := ringBase k
  let keep := if k < 1024 then 0 else s.rd (rgStatus k) &&& 0x06000000
  let s := s.wrs (rgSeen k) [0, 0, 0, setFld 31 30 1 keep]
  let s := (s.fetchOver k).ringMod k fun r =>
    { base := s.rd2 b, db := s.rd2 (b + 8), ctl := s.rd (rgCtl k), param := s.rd (rgParam k), lastMsg := r.lastMsg }
  s.fetchDb k false

/-- A ring goes to DRAINING: frames held for it are discarded under DROP_RING_OFF. -/
def State.ringDrain (s : State) (k : Nat) : State :=
  let s := (s.ring k).waiting.foldl (fun s _ => (s.ringDrop k 1).ringEvent k 2) s
  let s := if k < 512 || 1024 ≤ k then s else s.stopTimer (.rxShort (k - 512))
  (s.ringMod k fun r => { r with waiting := [] }).wrf (rgStatus k) 31 30 2

/-- ARMED of a vector: STATUS and CTL show it. -/
def State.setArmed (s : State) (v : Nat) (on : Bool) : State :=
  (s.wrb (offVecStatus v) 26 on).wrb (offVecCtl v) 27 on

/-- A write of a ring's CTL (R331, R353). -/
def State.ringCtlWrite (s : State) (k : Nat) (v : Word) : State :=
  let s := if k < 1024 then s.wr (rgCtl k) (v &&& (if k < 512 then 0xDFFFF000 else 0xD0FFF000))
    else s.wr (rgCtl k) ((v &&& 0xD000F3FF) ||| (s.rd (rgCtl k) &&& 0x08000000))
  let s := if 1024 ≤ k && (bit 27 v || bit 28 v) then s.setArmed (k - 1024) true else s
  let st := s.ringState k
  if bit 29 v then s.ringReset k
  else if st = 0 && bit 31 v then s.ringStart k
  else if st = 1 && !bit 31 v then s.ringDrain k
  else s

/-- R331: CTL is written with EN 1. -/
def execRingEnable (r : RingId) (v : Word) (s : State) : Host.Outcome State Fault Refusal :=
  .next (s.cfg (rgCtl (ringKey r)) fun s => s.ringCtlWrite (ringKey r) (setBit 31 true v))

/-- R331: CTL is written with EN 0. -/
def execRingDisable (r : RingId) (v : Word) (s : State) : Host.Outcome State Fault Refusal :=
  .next (s.cfg (rgCtl (ringKey r)) fun s => s.ringCtlWrite (ringKey r) (setBit 31 false v))

/-- R331: CTL is written with RESET. -/
def execRingReset (r : RingId) (v : Word) (s : State) : Host.Outcome State Fault Refusal :=
  .next (s.cfg (rgCtl (ringKey r)) fun s => s.ringCtlWrite (ringKey r) (setBit 29 true v))

/-- R331: a draining ring has written back everything. -/
def execRingDrained (r : RingId) (s : State) : Host.Outcome State Fault Refusal :=
  let k := ringKey r
  let x := s.ring k
  .next (if s.ringState k = 2 && x.reserved = [] && x.sends = [] then
    (s.ringMod k fun x => { x with open_ := [] }).wrf (rgStatus k) 31 30 0 else s)

/-- A ring has a read outstanding: of its record, of posted descriptors and their buffers, or of reserved descriptors. -/
def State.ringReads (s : State) (k : Nat) : Bool :=
  s.fetchOut k || (decide (k < 512) && s.ringState k == 1 && s.seen k != s.nextOf k) || (s.ring k).reserved != []

/-- R322: a master read that a ring issued has had no response for RD_TIMEOUT_US. -/
def execHostReadTimeout (r : RingId) (s : State) : Host.Outcome State Fault Refusal :=
  .next (if s.ringReads (ringKey r) then s.ringFault (ringKey r) 3 else s)

/-- R322: a master read or write that a ring issued is answered with an error. -/
def execHostErrorResponse (r : RingId) (write : Bool) (s : State) : Host.Outcome State Fault Refusal :=
  .next (if write || s.ringReads (ringKey r) then s.ringFault (ringKey r) (if write then 2 else 1) else s)

/-! ## Receive reservations (R345) -/

/-- BUF_SIZE as read on entry to RUNNING. -/
def State.bufSize (s : State) (k : Nat) : Nat := clampTo 256 16384 (fld 14 0 (s.ring k).param / 64 * 64)

/-- The descriptors a frame needs. -/
def State.descsFor (s : State) (k : Nat) (f : HostFrame) : Nat := (f.bytes.length + s.bufSize k - 1) / s.bufSize k

/-- A frame reserves its descriptors in one step, if enough are posted. -/
def State.rxReserve (s : State) (k : Nat) (f : HostFrame) : Option State :=
  let n := s.descsFor k f
  if n ≤ cntDiff (s.seen k) (s.nextOf k) then
    some ((s.ringMod k fun r => { r with reserved := r.reserved ++ [(f, s.nextOf k, n)] }).wr (rgNext k) (w32 (s.nextOf k + n)))
  else none

/-- A frame that stays short is discarded under DROP_RING_EMPTY, and SHORT is set. -/
def State.rxEmpty (s : State) (k : Nat) : State := ((s.ringDrop k 0).ringEvent k 0).wrb (rgStatus k) 26 true

/-- A frame falls short: discarded at once on a short ring or with no wait, else held while the record is fetched. -/
def State.rxFallShort (s : State) (k : Nat) (f : HostFrame) (behind : List HostFrame) : Bool × State :=
  let wait := s.rdf offRingWait 15 0
  if s.rdb (rgStatus k) 26 || wait = 0 then (false, s.rxEmpty k)
  else (true, ((s.ringMod k fun r => { r with waiting := f :: behind }).startTimer (.rxShort (k - 512)) wait).fetchDb k false)

/-- Frames of a ring are handled in order until one has to wait. -/
def State.rxServe (s : State) (k : Nat) : List HostFrame → State
  | [] => s.ringMod k fun r => { r with waiting := [] }
  | f :: fs =>
    match s.rxReserve k f with
    | some s' => State.rxServe s' k fs
    | none => match s.rxFallShort k f fs with
      | (true, s') => s'
      | (false, s') => State.rxServe s' k fs

/-- An accepted record lets the frames that wait try again; the first's wait goes on while it is still short. -/
def State.rxRetry (s : State) (k : Nat) : State :=
  match (s.ring k).waiting with
  | [] => s
  | f :: fs => match s.rxReserve k f with
    | some s' => State.rxServe (s'.stopTimer (.rxShort (k - 512))) k fs
    | none => s

/-- R345: the short wait of a receive ring expires. -/
def execRxShortWaitExpire (r : Fin 512) (s : State) : Host.Outcome State Fault Refusal :=
  let k := 512 + r.val
  match (s.ring k).waiting with
  | [] => .next s
  | _ :: fs =>
    .next (if s.timerOn (.rxShort r) then State.rxServe ((s.stopTimer (.rxShort r)).rxEmpty k) k fs else s)

/-! ## Records arrive (R329) -/

/-- An accepted record. -/
def State.dbAccept (s : State) (k count : Nat) (arm : Bool) : State :=
  let rise := s.seen k != count
  let s := s.wr (rgSeen k) (w32 count)
  if 1024 ≤ k then (if arm then s.setArmed (k - 1024) true else s)
  else if 512 ≤ k then (if rise then s.wrb (rgStatus k) 26 false else s).rxRetry k
  else s

/-- A record is judged. -/
def State.dbJudge (s : State) (k : Nat) (w : List Word) : State :=
  let count := (w.getD 0 0).toNat
  if w.getD 3 0 != ~~~ (w.getD 0 0) then
    ((s.ringCnt 9).ringEvent k 5).startTimer (.torn k) (clampTo 250 65535 (s.rdf offRingCtl 15 0))
  else if 2 ^ 31 ≤ cntDiff count (s.seen k) then s
  else if s.ringSize k < (if k < 1024 then cntDiff count (s.cons k) else cntDiff (s.cons k) count) then s.ringFault k 4
  else s.dbAccept k count (bit 0 (w.getD 1 0))

/-- R329: the four words of a ring's doorbell record arrive. -/
def execDoorbellRecordArrive (r : RingId) (words : List Word) (s : State) : Host.Outcome State Fault Refusal :=
  let k := ringKey r
  if !s.fetchOut k then .next s
  else
    let more := (s.ring k).again
    let s := s.fetchOver k
    let s := if s.ringWorks k then s.dbJudge k words else s
    .next (if more && s.ringWorks k then s.fetchDb k false else s)

/-! ## Events and vectors (R315 to R317, R350 to R353) -/

/-- PENDING of a vector is set. -/
def State.setPending (s : State) (v : Nat) : State := s.wrb (offVecStatus v) 25 true

/-- A ring with IRQ_EN has written back a descriptor. -/
def State.ringIrq (s : State) (k : Nat) : State :=
  if s.rdb (rgCtl k) 28 then s.setPending (s.rdf (rgCtl k) 23 16) else s

/-- The record of an EVT register is written to its vector's event ring, or waits while that stalls (R351, R352). -/
def State.eventRecord (s : State) (evt : Nat) (bits : Word) : State :=
  let v := s.rdf (evt + 8) 7 0
  let k := 1024 + v
  let n := s.cons k
  if s.ringState k = 1 && cntDiff n (s.seen k) < s.ringSize k then
    let phase := b2n (n / s.ringSize k % 2 = 0)
    let s := s.emit (.eventWrite (s.entryAddr k n) [w32 (phase * 2 ^ 31 + evt / 4 % 2 ^ 24), bits, w32 n, 0])
    let s := ((s.wr (rgCons k) (w32 (n + 1))).wrb (rgStatus k) 24 false).setPending v
    { s with evWait := sset (fun _ => 0) s.evWait evt 0 }
  else if s.rdb (rgStatus k) 24 then s
  else
    let s := (s.wrb (rgStatus k) 24 true).ringCnt 10
    if s.ringState k = 1 then s.fetchDb k false else s

/-- R317: the record of an EVT register that waits reaches the host side, credit allowing. -/
def execEventRecordSend (evt : BitVec 26) (s : State) : Host.Outcome State Fault Refusal :=
  let bits := sget (fun _ => 0) s.evWait evt.toNat
  .next (if s.hostOn && bits != 0 then s.eventRecord evt.toNat bits else s)

/-- R353: a vector's CTL is written with ARM. -/
def execVectorArmWrite (v : Fin 256) (w : Word) (s : State) : Host.Outcome State Fault Refusal :=
  .next (s.cfg (offVecCtl v) fun s => s.ringCtlWrite (1024 + v.val) (setBit 27 true w))

/-- R353: EN, PENDING and ARMED are set and MOD_US has passed since the vector's previous message. -/
def execVectorMessage (v : Fin 256) (s : State) : Host.Outcome State Fault Refusal :=
  let c := s.rd (offVecCtl v)
  let due := match (s.ring (1024 + v.val)).lastMsg with
    | some t => decide (t + fld 9 0 c * 1000000 ≤ s.ps)
    | none => true
  if s.hostOn && bit 31 c && bit 27 c && s.rdb (offVecStatus v) 25 && due then
    let s := ((s.emit (.interrupt v)).ringCnt 11).wrb (offVecStatus v) 25 false
    let s := if bit 28 c then s else s.setArmed v false
    .next (s.ringMod (1024 + v.val) fun r => { r with lastMsg := some s.ps })
  else .next s

end Sys2Proof.Machine
end

