-- ==== Sys2Proof/Machine/HostFrames.lean ====
section
/-! DEFINITION. Frames on the host side: the crossing of the sieve both ways, transmit sends, receive writebacks, and the
management port's receive side (chapter 13, R333 to R349, with R31 to R34, R38, R128 and R129). -/

namespace Sys2Proof.Machine

/-! ## Out of the line side (R31, R32, R349) -/

/-- An edited copy of port 256 as it reaches the ring engine. -/
def hostFrame (c : Copy) (x : Frame) (bytes : List Byte) : HostFrame :=
  { bytes := bytes, ring := c.ring, reason := c.reason, flow := c.flow, src := x.src, cls := c.cls, clod := c.clod
    rx := x.rx[x.rxTb]?.map fun v => (v, x.rxTb), tag := fld 31 16 (x.act.getD 2 0), err := x.err, mf := x.mf }

/-- The copy is the first of its port still to leave. -/
def State.firstCopy (s : State) (i : Nat) (c : Copy) : Bool :=
  (s.copiesWhere fun d => d.port == c.port && (d.stage == .selected || d.stage == .edited) && d.seq < c.seq).all (· == i)

/-- R31: an edited frame of port 256 or 258 crosses the sieve against FRAME-out credits. A grain may fail its check
(R437). -/
def execSieveFrameOut (c : Nat) (grainBad : Bool) (s : State) : Host.Outcome State Fault Refusal :=
  match s.copy c with
  | none => .next s
  | some x =>
    match x.edit, s.frameOf x with
    | some e, some f =>
      if x.stage != .edited || !isHost x.port || !s.firstCopy c x then .next s
      else if !s.hostOn then .next ((s.dropTel 16 9).discardCopy c)
      else if !s.mayCross .frameOut (grainsOf e.bytes.length) then .next s
      else if grainBad || f.spoiled then .next (s.grainFail .none x.frame)
      else if x.port = 258 then
        .next ((s.mgmtMod fun g => { g with txq := g.txq ++ [e.bytes] }).endCopy c)
      else .next ((s.ringsMod fun r => { r with store := r.store ++ [hostFrame x f e.bytes] }).endCopy c)
    | _, _ => .next s

/-! ## Transmit sends (R333 to R339) -/

/-- Words of a send's SOP descriptor. -/
def Send.sop (x : Send) : List Word := x.descs.getD 0 []
def txWord (d : List Word) (i : Nat) : Word := d.getD i 0

/-- Bytes in a descriptor's buffer. -/
def descLen (d : List Word) : Nat := let n := fld 15 0 (txWord d 2); if n = 0 then 65536 else n

/-- SOP and EOP of a descriptor. -/
def isSop (d : List Word) : Bool := bit 31 (txWord d 2)
def isEop (d : List Word) : Bool := bit 30 (txWord d 2)

/-- A list of bytes with others in place from an offset on, as far as it reaches. -/
def putBytes (bs : List Byte) (at0 : Nat) (new : List Byte) : List Byte :=
  bs.take at0 ++ (new.take (bs.length - at0)) ++ bs.drop (at0 + new.length)

/-- The protocol that follows the L3 headers which begin at h2 and end at `stop`: IPv4's protocol, or the next header of
the last of an IPv6 header chain that ends exactly there; 255 where none does (DEDUCED, assumption 20). -/
def lastNext (bs : List Byte) (stop : Nat) : Nat → Nat → Nat → Nat
  | 0, _, _ => 255
  | fuel + 1, i, nh =>
    if i = stop then nh
    else if stop < i then 255
    else
      let nx := byteAt bs i
      if nh = 0 ∨ nh = 43 ∨ nh = 60 then lastNext bs stop fuel (i + (byteAt bs (i + 1) + 1) * 8) nx
      else if nh = 44 then lastNext bs stop fuel (i + 8) nx
      else if nh = 51 then lastNext bs stop fuel (i + (byteAt bs (i + 1) + 2) * 4) nx
      else 255
def txProto (bs : List Byte) (h2 h3 : Nat) : Nat :=
  if byteAt bs h2 / 16 = 4 then byteAt bs (h2 + 9) else lastNext bs (h2 + h3) 16 (h2 + 40) (byteAt bs (h2 + 6))

/-- The request of a send: words 3, 5 and 6 of its SOP descriptor. -/
structure TxAsk where
  direct : Bool
  tsReq : Bool
  seg : Nat
  ip4 : Bool
  l4 : Bool
  dest : Nat
  mss : Nat
  h2 : Nat
  h3 : Nat
  h4 : Nat
  deriving DecidableEq, Repr

def txAsk (d : List Word) : TxAsk :=
  let w := txWord d 3
  { direct := bit 31 w, tsReq := bit 30 w, seg := fld 29 28 w, ip4 := bit 27 w, l4 := bit 26 w, dest := fld 20 12 w
    mss := fld 13 0 (txWord d 5), h2 := fld 31 24 (txWord d 6), h3 := fld 23 16 (txWord d 6), h4 := fld 15 8 (txWord d 6) }

/-- H. -/
def TxAsk.h (a : TxAsk) : Nat := a.h2 + a.h3 + a.h4
/-- An offload is requested. -/
def TxAsk.offload (a : TxAsk) : Bool := a.seg != 0 || a.ip4 || a.l4

/-- The checks of R335 that find DESC_BAD: `head` the SOP buffer, `sopLen` its LEN, `n` the send's length S. -/
def TxAsk.bad (a : TxAsk) (head : List Byte) (sopLen n : Nat) : Bool :=
  let v := byteAt head a.h2 / 16
  let p := txProto head a.h2 a.h3
  n < 14 || a.seg == 3
    || (a.direct && (a.dest == 256 || a.dest == 257 || 259 ≤ a.dest))
    || (a.tsReq && (!a.direct || a.dest == 258 || a.seg != 0))
    || (a.offload && (!(14 ≤ a.h2 && a.h2 ≤ 64) || !(20 ≤ a.h3 && a.h3 ≤ 120) || !(8 ≤ a.h4 && a.h4 ≤ 60) || sopLen < a.h
      || (v != 4 && v != 6)))
    || (a.ip4 && v != 4)
    || ((a.l4 || a.seg != 0) && (!(p == 6 || p == 17) || (a.seg == 1 && p == 17) || (a.seg == 2 && p == 6)
      || (p == 17 && a.h4 != 8)))
    || (a.seg != 0 && (a.mss < 64 || 16379 < a.h + a.mss || n ≤ a.h))

/-- STATUS of a run of descriptors with their buffers, its own form apart (R334, R335). -/
def txStatus (run : List (List Word × List Byte)) : Nat :=
  let d := (run.getD 0 ([], [])).1
  let a := txAsk d
  let n := (run.map fun e => descLen e.1).sum
  if !isSop d then 1
  else if 32 < run.length then 3
  else if a.bad (bytesAt (run.getD 0 ([], [])).2 0 a.h) (descLen d) n then 1
  else if (if a.seg = 0 then 16379 else 262144) < n then 2
  else 0

/-- The pseudo-header of the IP header at h2 for n bytes of protocol p. -/
def pseudo (bs : List Byte) (h2 p n : Nat) : List Byte :=
  if byteAt bs h2 / 16 = 4 then bytesAt bs (h2 + 12) 8 ++ beBytes 2 p ++ beBytes 2 n
  else bytesAt bs (h2 + 8) 32 ++ beBytes 4 n ++ beBytes 4 p

/-- Checksum insertion (R337). -/
def txCsum (a : TxAsk) (bs : List Byte) : List Byte :=
  let v4 := byteAt bs a.h2 / 16 = 4
  let bs := if a.ip4 || (a.seg != 0 && v4) then
      let z := putBytes bs (a.h2 + 10) [0, 0]
      putBytes z (a.h2 + 10) (beBytes 2 (csum16 (bytesAt z a.h2 (byteAt z a.h2 % 16 * 4))))
    else bs
  if !(a.l4 || a.seg != 0) then bs
  else
    let p := txProto bs a.h2 a.h3
    let l4 := a.h2 + a.h3
    let f := l4 + (if p = 6 then 16 else 6)
    let z := putBytes bs f [0, 0]
    let c := csum16 (pseudo z a.h2 p (z.length - l4) ++ z.drop l4)
    putBytes z f (beBytes 2 (if p = 17 ∧ c = 0 then 0xFFFF else c))

/-- Segment k of a send: the template with its lengths, identification, sequence number and flags, and its payload (R338). -/
def txSegment (a : TxAsk) (head payload : List Byte) (k : Nat) (last : Bool) : List Byte :=
  let bs := head ++ payload
  let v4 := byteAt bs a.h2 / 16 = 4
  let bs := if v4 then
      putBytes (putBytes bs (a.h2 + 2) (beBytes 2 (bs.length - a.h2))) (a.h2 + 4) (beBytes 2 (beAt bs (a.h2 + 4) 2 + k))
    else putBytes bs (a.h2 + 4) (beBytes 2 (bs.length - a.h2 - 40))
  let l4 := a.h2 + a.h3
  let bs := if a.seg = 1 then
      let flags := BitVec.ofNat 8 (byteAt bs (l4 + 13)) &&& (if last then 0xFF else 0xF6) &&& (if k = 0 then 0xFF else 0x7F)
      putBytes (putBytes bs (l4 + 4) (beBytes 4 (beAt bs (l4 + 4) 4 + k * a.mss))) (l4 + 13) [flags]
    else putBytes bs (l4 + 4) (beBytes 2 (bs.length - l4))
  txCsum a bs

/-- The frames of a send (R337, R338). -/
def txFrames (a : TxAsk) (data : List Byte) : List (List Byte) :=
  if a.seg = 0 then [txCsum a data]
  else
    let p := data.length - a.h
    let n := (p + a.mss - 1) / a.mss
    (List.range n).map fun k =>
      txSegment a (data.take a.h) ((data.drop (a.h + k * a.mss)).take a.mss) k (k + 1 == n)

/-- A run of descriptors ends: it is a send, complete at once with an error status (R334 to R339). The Bool tells that a
SOP has ended it. -/
def State.closeRun (s : State) (k first : Nat) (run : List (List Word × List Byte)) (cut : Bool) : State :=
  let d := (run.getD 0 ([], [])).1
  let a := txAsk d
  let st := if !s.lineOn then 4 else if cut then 1 else txStatus run
  let s := if st = 0 then s else if st = 4 then s.ringDrop k 4 else (s.ringDrop k 3).ringEvent k 3
  let data := (run.map fun e => bytesAt e.2 0 (descLen e.1)).flatten
  let x : Send := { first := first, descs := run.map (·.1), status := st, tsReq := a.tsReq
                    frames := if st = 0 then txFrames a data else [] }
  s.ringMod k fun r => { r with open_ := [], sends := r.sends ++ [x] }

/-- One descriptor joins the open run (R334). -/
def State.takeDesc (s : State) (k count : Nat) (e : List Word × List Byte) : State :=
  let r := s.ring k
  let good := match r.open_ with | h :: _ => isSop h.1 | [] => false
  let s := if good && isSop e.1 then s.closeRun k r.openAt r.open_ true else s
  let s := s.ringMod k fun r =>
    { r with open_ := r.open_ ++ [e], openAt := if r.open_ = [] then count else r.openAt }
  if isEop e.1 then s.closeRun k (s.ring k).openAt (s.ring k).open_ false else s

/-- R334: the engine fetches the next posted descriptors of a transmit ring, one to eight of them (R321), with their buffers. -/
def execTxDescArrive (t : Fin 512) (descs : List (List Word × List Byte)) (s : State) :
    Host.Outcome State Fault Refusal :=
  let k := t.val
  if s.ringState k ≠ 1 then .next s
  else
    .next ((descs.take (min 8 (cntDiff (s.seen k) (s.nextOf k)))).foldl (fun s e =>
      let n := s.nextOf k
      (s.takeDesc k n e).wr (rgNext k) (w32 (n + 1))) s)

/-! ## Into the line side (R33, R34, R336, R340) -/

/-- A send has a frame still to cross. -/
def Send.crosses (x : Send) : Bool := x.status == 0 && x.frames != []

/-- A ring has one. -/
def State.hasFrame (s : State) (k : Nat) : Bool := s.ringWorks k && (s.ring k).sends.any Send.crosses

/-- The transmit ring whose turn it is (R340). -/
def State.txTurn (s : State) : Option Nat :=
  ((List.range 512).map fun i => (s.rings.turn + i) % 512).find? fun k => s.hasFrame k

/-- The first send of a ring with a frame to cross is changed. -/
def sendFirst (f : Send → Send) : List Send → List Send
  | [] => []
  | x :: xs => if x.crosses then f x :: xs else x :: sendFirst f xs

/-- A frame of a send has crossed: its own path begins (R33, R34, R38). `id` is the send's number on the line side, if it is a
TS_REQ send, `first` its first descriptor. -/
def State.hostIn (s : State) (k first : Nat) (d : List Word) (bytes : List Byte) (id : Option Nat) : State :=
  let w := txWord d 3
  let ctl := (s.ring k).ctl
  let home := fld 27 24 ctl
  if bit 31 w then
    let (f, s) := s.addFrame { bytes := bytes, src := 256, send := id, tag := fld 31 16 (txWord d 5), txOf := some (k, first) }
    s.deliver f
      { frame := f, port := fld 20 12 w, cls := if bit 25 w then fld 24 22 w else fld 22 20 (s.ring k).param
        clod := fld 19 0 (s.ring k).param, flow := fld 25 0 (txWord d 4), tsReq := bit 30 w }
  else
    let x : Frame := { bytes := bytes, src := 256, pos := some home, bed := (s.bedOf home).getD home, txOf := some (k, first) }
    let (f, s) := s.addFrame { x with path := s.slotPath x }
    if s.posUsable home then s else (s.dropTel 16 11).discard f

/-- The first frame of a ring's send in progress has crossed the sieve; `id` is the number that a TS_REQ send takes. -/
def State.txCrossed (s : State) (k : Nat) (id : Option Nat) : State :=
  let s := match id with | some i => { s with nextId := i + 1 } | none => s
  let s := (s.ringCnt 6).ringMod k fun r =>
    { r with sends := sendFirst (fun x => { x with frames := x.frames.tail, crossed := x.crossed + 1, id := id }) r.sends }
  match id with
  | some _ => s.tsWaiting k
  | none => s

/-- A frame whose grain fails its check is lost on the way (R437). -/
def State.txGrainBad (s : State) (id : Option Nat) : State :=
  let s := match id with | some i => s.sendFate i 0 | none => s
  s.countGrain.detect 1 .none

/-- R336: the next frame of the transmit rings crosses the sieve. A grain may fail its check (R437). -/
def execTxFrameCross (grainBad : Bool) (s : State) : Host.Outcome State Fault Refusal :=
  match (if s.hostOn then s.txTurn else none) with
  | none => .next s
  | some k =>
    match (s.ring k).sends.find? Send.crosses with
    | none => .next s
    | some x =>
      let s0 := s.ringsMod fun r => { r with turn := (k + 1) % 512 }
      if !s.lineOn then
        .next ((s0.ringDrop k 4).ringMod k fun r =>
          { r with sends := sendFirst (fun x => { x with status := 4, frames := [] }) r.sends })
      else
        let bytes := x.frames.headD []
        if !s.mayTake { bytes := bytes, src := 256 } then .next s
        else
          let id := if x.tsReq then some s.nextId else none
          let s := s0.txCrossed k id
          .next (if grainBad then s.txGrainBad id else s.hostIn k x.first x.sop bytes id)

/-! ## Reports and writebacks (R341, R342) -/

/-- The transmit ring of the TS_REQ send that the line side knows by a number. -/
def State.sendRing (s : State) (id : Nat) : Option Nat :=
  (s.rings.rings.find? fun e => e.2.sends.any fun x => x.id == some id && x.awaits).map (·.1)

/-- The report of a send is used. -/
def State.reportSend (s : State) (k id report : Nat) : State :=
  ((s.ringMod k fun r =>
    { r with sends := r.sends.map fun x => if x.id = some id then { x with report := some report } else x }).stopTimer
      (.tsWait id)).tsWaiting k

/-- R341: the line side reports the fate of a TS_REQ send's frame; a later report is discarded. -/
def execTxFateReport (s : State) : Host.Outcome State Fault Refusal :=
  match s.fates with
  | [] => .next s
  | (id, fate) :: rest =>
    let s := { s with fates := rest }
    match s.sendRing id with
    | some k => .next (s.reportSend k id fate)
    | none => .next s

/-- R341: TS_WAIT_MS has passed since the frame of a ring's TS_REQ send was written to topsoil. -/
def execTsWaitExpire (t : Fin 512) (s : State) : Host.Outcome State Fault Refusal :=
  let k := t.val
  match ((s.ring k).sends.find? Send.awaits).bind (·.id) with
  | some id => .next (if s.timerOn (.tsWait id) then (s.ringCnt 12).reportSend k id 3 else s)
  | none => .next s

/-- A send is complete on the host side. -/
def Send.complete (x : Send) : Bool :=
  !x.written && (x.status != 0 || (x.frames == [] && (!x.tsReq || x.report.isSome)))

/-- Word 7 of a descriptor's writeback. -/
def Send.word7 (x : Send) (d : List Word) : Word :=
  let r := x.report.getD 4
  w32 (2 ^ 31 + b2n (isSop d) * 2 ^ 30 + b2n (isEop d) * 2 ^ 29 + x.status * 2 ^ 25 + b2n (r == 2) * 2 ^ 24
    + b2n (r == 1) * 2 ^ 23 + b2n (r == 0) * 2 ^ 22 + b2n (r == 3) * 2 ^ 21 + x.crossed)

/-- Descriptors are written back, the last first. -/
def State.writeDescs (s : State) (k first : Nat) (ds : List (List Word)) : State :=
  ((List.range ds.length).reverse).foldl (fun s i => s.emit (.descriptorWrite (s.entryAddr k (first + i)) (ds.getD i []))) s

/-- The send that starts at a descriptor is marked written. -/
def markWritten (first : Nat) (l : List Send) : List Send :=
  l.map fun x => if x.first = first then { x with written := true } else x

/-- CONS passes the sends in front that are written back. -/
def State.passSends (s : State) (k : Nat) : State :=
  let front := (s.ring k).sends.takeWhile (·.written)
  (s.ringMod k fun r => { r with sends := r.sends.dropWhile (·.written) }).wr (rgCons k)
    (w32 (s.cons k + (front.map fun x => x.descs.length).sum))

/-- A send may be written back: it is complete, and every frame of it that has crossed lies whole in topsoil (R341). -/
def State.sendDone (s : State) (k : Nat) (x : Send) : Bool :=
  x.complete && (s.framesWhere fun f => f.held && f.txOf == some (k, x.first)) == []

/-- R341: the first complete send of a ring is written back. -/
def execTxWriteback (t : Fin 512) (s : State) : Host.Outcome State Fault Refusal :=
  let k := t.val
  match (if s.ringWorks k then (s.ring k).sends.find? (s.sendDone k) else none) with
  | none => .next s
  | some x =>
    let s := s.writeDescs k x.first (x.descs.map fun d => ((List.range 7).map fun i => txWord d i) ++ [x.word7 d])
    let s := (s.ringCnt 5).ringMod k fun r => { r with sends := markWritten x.first r.sends }
    .next ((s.ringIrq k).passSends k)

/-! ## Receive (R344 to R348) -/

/-- R345: a frame lies whole in the host receive store: its ring takes it, or it is discarded (R331). -/
def execRxFrameArrive (s : State) : Host.Outcome State Fault Refusal :=
  match s.rings.store with
  | [] => .next s
  | f :: rest =>
    let k := 512 + f.ring
    let s := s.ringsMod fun r => { r with store := rest }
    if s.ringState k ≠ 1 then .next ((s.ringDrop k 1).ringEvent k 2)
    else if (s.ring k).waiting ≠ [] then .next (s.ringMod k fun r => { r with waiting := r.waiting ++ [f] })
    else .next (s.rxServe k [f])

/-- The L4 verdict of a segment of protocol p between a and `stop`, under the IP header at h: 0 none, 1 good, 2 bad, 3 UDP
over IPv4 with checksum 0. -/
def l4Verdict (bs : List Byte) (h p a stop : Nat) : Nat :=
  let n := if p = 17 then beAt bs (a + 4) 2 else stop - a
  if p = 17 ∧ (stop < a + 8 ∨ n < 8 ∨ stop < a + n) then 0
  else if p = 6 ∧ stop < a + 20 then 0
  else if p ≠ 6 ∧ p ≠ 17 then 0
  else if p = 17 ∧ byteAt bs h / 16 = 4 ∧ beAt bs (a + 6) 2 = 0 then 3
  else if onesSum (pseudo bs h p n ++ bytesAt bs a n) = 0xFFFF then 1 else 2

/-- L3_CSUM and L4_CSUM of a frame without a MAC error (R348). -/
def csumVerdict (bs : List Byte) : Nat × Nat :=
  let tag := fun i => beAt bs i 2 == 0x8100 || beAt bs i 2 == 0x88A8
  let i := if tag 12 then (if tag 16 then 20 else 16) else 12
  let h := i + 2
  let len := bs.length
  if beAt bs i 2 = 0x0800 then
    let hl := byteAt bs h % 16 * 4
    if byteAt bs h / 16 ≠ 4 ∨ hl < 20 ∨ len < h + hl then (0, 0)
    else
      let l3 := if onesSum (bytesAt bs h hl) = 0xFFFF then 1 else 2
      let tot := beAt bs (h + 2) 2
      if beAt bs (h + 6) 2 % 16384 ≠ 0 ∨ tot < hl ∨ len < h + tot then (l3, 0)
      else (l3, l4Verdict bs h (byteAt bs (h + 9)) (h + hl) (h + tot))
  else if beAt bs i 2 = 0x86DD then
    if byteAt bs h / 16 ≠ 6 ∨ len < h + 40 + beAt bs (h + 4) 2 then (0, 0)
    else (0, l4Verdict bs h (byteAt bs (h + 6)) (h + 40) (h + 40 + beAt bs (h + 4) 2))
  else (0, 0)

/-- The eight words of a receive writeback (R347) for descriptor i of n, with so many bytes in its buffer. -/
def HostFrame.words (f : HostFrame) (i n bytes : Nat) : List Word :=
  let bad := f.err == 16
  let mac := if bad then 0 else f.err
  let (l3, l4) := if mac = 0 then csumVerdict f.bytes else (0, 0)
  let v := match f.rx with | some (v, _) => v | none => 0
  let tb := match f.rx with | some (_, t) => t | none => 0
  [w32 (f.bytes.length * 2 ^ 18 + bytes), w32 f.flow, w32 (f.src * 2 ^ 23 + f.cls * 2 ^ 20 + f.clod), w32 (tbNs v),
   w32 (tbSec v), w32 (tbFrac v * 65536 + tbSec v / 2 ^ 32 % 65536),
   w32 (f.tag * 65536 + f.reason * 4096 + mac * 256 + f.mf * 8 + b2n bad * 4),
   w32 (2 ^ 31 + b2n (i == 0) * 2 ^ 30 + b2n (i + 1 == n) * 2 ^ 29 + b2n f.rx.isSome * 2 ^ 28 + tb * 2 ^ 25 + l3 * 2 ^ 23
     + l4 * 2 ^ 21 + n)]

/-- R346: the first frame that has reserved descriptors is written to their buffers, which lie at `addrs`, and the
descriptors are written back. -/
def execRxWriteback (r : Fin 512) (addrs : List (BitVec 64)) (s : State) : Host.Outcome State Fault Refusal :=
  let k := 512 + r.val
  match (if s.ringWorks k then (s.ring k).reserved else []) with
  | [] => .next s
  | (f, first, n) :: rest =>
    let size := s.bufSize k
    let part := fun i => (f.bytes.drop (i * size)).take size
    let s := (List.range n).foldl (fun s i => s.emit (.hostWrite (addrs.getD i 0).toNat (part i))) s
    let s := s.writeDescs k first ((List.range n).map fun i => f.words i n (part i).length)
    let s := (s.ringMod k fun r => { r with reserved := rest }).wr (rgCons k) (w32 (s.cons k + n))
    .next ((s.ringCnt 7).ringIrq k)

/-! ## The management port's receive side (R114, R128, R129, R34, R38) -/

/-- Statistics settings of the management port: the tags it knows. -/
def mgmtParse : ParseCfg :=
  { tpidExtra := 0, mplsPayload := 0, geneveWalk := false, csum := false, vxlan := 0, geneve := 0, gtpu := 0, opt := none }

/-- A destination address filter's address, first byte on the wire first. -/
def State.dafAddr (s : State) (i : Nat) : List Byte :=
  leBytes 4 (s.rd (offMgmtDafLo i)).toNat ++ leBytes 2 (s.rdf (offMgmtDafHi i) 15 0)

/-- The filters let a frame pass (R128). -/
def State.mgmtAccepts (s : State) (bytes : List Byte) : Bool :=
  let ctl := s.rd offMgmtCtl
  bit 28 ctl || ((List.range 32).any fun i => s.rdb (offMgmtDafHi i) 31 && s.dafAddr i == bytesAt bytes 0 6)
    || (castOf bytes == 2 && bit 27 ctl) || (castOf bytes == 1 && bit 26 ctl)

/-- A frame that has passed the filters crosses the sieve into the recirculation slot of HOME_BED (R34, R38, R129). -/
def State.mgmtIn (s : State) (bytes : List Byte) : State :=
  let home := s.rdf offMgmtCtl 19 16
  let x : Frame := { bytes := bytes, src := 258, pos := some home, bed := (s.bedOf home).getD home }
  if !s.lineOn || !s.mayTake x then s.mgmtStat 27 1
  else
    let (f, s) := s.addFrame { x with path := s.slotPath x }
    if s.posUsable home then s else (s.dropTel 16 11).discard f

/-- A bad frame of the management port (R109, R129). -/
def State.mgmtBad (s : State) (bytes : List Byte) (code : Nat) : State :=
  if s.rdb offMgmtCtl 29 && 18 ≤ bytes.length + 4 then
    let f : HostFrame :=
      { bytes := bytes.take (s.maxFrame mgmtMac), ring := s.rdf offMgmtBadRing 8 0, reason := 4, src := 258, err := code
        credit := false }
    (s.mgmtStat 30 1).ringsMod fun r => { r with store := r.store ++ [f] }
  else s.mgmtStat 63 1

/-- A MAC control frame of code 0 at the management port: consumed PAUSE, filtered PAUSE, or discarded (R114, R128, R502). -/
def State.mgmtControl (s : State) (bytes : List Byte) : State :=
  let n := bytes.length + 4
  if beAt bytes 14 2 = 1 then
    let s := s.ctlCount mgmtMac n false
    if !s.rdb offMgmtCtl 31 then s.mgmtStat 63 1
    else if s.macFc mgmtMac = 1 then s.pauseApply mgmtMac (List.range 8) fun _ => beAt bytes 16 2
    else if s.mgmtAccepts bytes then s.mgmtIn bytes else s.mgmtStat 26 1
  else ((s.mgmtStat 1 n).mgmtStat 3 1).mgmtStat 63 1

/-- The management port receives a frame: its bytes without the FCS, and what is wrong with it. -/
def State.mgmtReceive (s : State) (bytes : List Byte) (fcsBad part rxEr : Bool) : State :=
  let e : RxFlaws := { fcs := fcsBad, align := part && fcsBad && decide (s.mgmtRate ≤ 100), rxEr := rxEr }
  let code := s.rxCode mgmtMac (bytes.length + 4) e
  let s := if s.halfDuplex then
      (s.mgmtMod fun g => { g with deferring := true }).startTimer .defer (96 * 1000 / s.mgmtRate)
    else s
  if code = 0 && beAt bytes 12 2 = 0x8808 then s.mgmtControl bytes
  else
    let s := s.rxCount mgmtMac code mgmtParse bytes e
    if !s.rdb offMgmtCtl 31 then s.mgmtStat 63 1
    else if code ≠ 0 then s.mgmtBad bytes code
    else if s.mgmtAccepts bytes then s.mgmtIn bytes else s.mgmtStat 26 1

/-- R128: the management port receives a frame, its last four bytes its FCS, with or without a trailing part of a byte. -/
def execMgmtFrameReceive (bytes : List Byte) (part rxEr : Bool) (s : State) : Host.Outcome State Fault Refusal :=
  let x : RxPiece := { smd := .sfd, bytes := bytes }
  .next (if s.hostOn then s.mgmtReceive (pieceBody x) (fcsFails [x]) part rxEr else s)

/-- R114: a PAUSE frame is received by a MAC. -/
def execPauseFrameReceive (m : MacId) (da sa : BitVec 48) (quanta : BitVec 16) (s : State) :
    Host.Outcome State Fault Refusal :=
  match m with
  | .net b p => .next (s.ctlFrame b p 64 false (List.range 8) fun _ => quanta.toNat)
  | .mgmt =>
    let bytes := beBytes 6 da.toNat ++ beBytes 6 sa.toNat ++ beBytes 2 0x8808 ++ beBytes 2 1 ++ beBytes 2 quanta.toNat
      ++ List.replicate 42 0
    .next (if s.hostOn then s.mgmtReceive bytes false false false else s)

end Sys2Proof.Machine
end

