-- ==== Sys2Proof/Machine/Auger.lean ====
section
/-! DEFINITION. The Auger copy engine (chapter 14, R355 to R370). -/

namespace Sys2Proof.Machine

/-! ## Channels -/

/-- PARKED, DB_PEND and PAUSE of a channel. -/
def State.augParked (s : State) (c : Nat) : Bool := s.rdb (offChState c) 29
def State.augDbPend (s : State) (c : Nat) : Bool := s.rdb (offChState c) 28
def State.augPause (s : State) (c : Nat) : Bool := s.rdb (offChCtl c) 31

/-- CUR takes an address, with nothing of its descriptor confirmed. -/
def State.augAt (s : State) (c addr : Nat) : State := (s.wr2 (offChCur c 0) addr).wr (offChPos c) 0

/-! ## Descriptors (R358, R359) -/

/-- Fields of a descriptor. -/
def AugDesc.word (d : AugDesc) (i : Nat) : Word := d.words.getD i 0
def AugDesc.last (d : AugDesc) : Bool := bit 31 (d.word 0)
def AugDesc.pulse (d : AugDesc) : Bool := bit 30 (d.word 0)
def AugDesc.mode (d : AugDesc) : Nat := fld 29 28 (d.word 0)
def AugDesc.region (d : AugDesc) : Nat := fld 27 24 (d.word 0)
def AugDesc.window (d : AugDesc) : Nat := fld 23 20 (d.word 0)
def AugDesc.elem (d : AugDesc) : Nat := 2 ^ fld 4 0 (d.word 0)
def AugDesc.count (d : AugDesc) : Nat := fld 16 0 (d.word 3)
def AugDesc.next (d : AugDesc) : Nat := (d.word 4).toNat + 2 ^ 32 * (d.word 5).toNat
def AugDesc.table (d : AugDesc) : Nat := (d.word 6).toNat + 2 ^ 32 * (d.word 7).toNat

/-- The bytes a descriptor copies. -/
def AugDesc.total (d : AugDesc) : Nat := if d.mode = 0 then (d.word 3).toNat else d.count * d.elem

/-- Where byte p of a descriptor is read, and where it is written. -/
def AugDesc.src (d : AugDesc) (p : Nat) : Nat :=
  if d.mode = 1 then (d.index.getD (p / d.elem) 0).toNat * 64 + p % d.elem else (d.word 1).toNat * 64 + p
def AugDesc.dst (d : AugDesc) (p : Nat) : Nat :=
  if d.mode = 2 then (d.index.getD (p / d.elem) 0).toNat * 64 + p % d.elem else (d.word 2).toNat * 64 + p

/-- A descriptor is malformed (R360). -/
def AugDesc.bad (d : AugDesc) : Bool :=
  d.mode == 3 || (d.mode == 0 && ((d.word 3).toNat == 0 || (d.word 3).toNat % 64 != 0))
    || (d.mode != 0 && (d.count == 0 || 65536 < d.count || fld 4 0 (d.word 0) < 6 || 16 < fld 4 0 (d.word 0)
      || d.table % 64 != 0))
    || d.next % 32 != 0

/-! ## Regions and windows (R356, R357, R360) -/

/-- A region is exported. -/
def State.exported (s : State) (r : Nat) : Bool :=
  r ≤ 1 || (r == 2 && s.rdb offAugExport 0) || (r == 3 && s.rdb offAugExport 1)

/-- The size of a region in bytes. -/
def State.regionSize (s : State) (r : Nat) : Nat :=
  match r with | 0 => s.flowCap * 32 | 1 => s.classCap * 32 | 2 => 2 ^ 28 | _ => 2 ^ 32

/-- An import window is open, and its size in bytes. -/
def State.windowOpen (s : State) (w : Nat) : Bool := s.rdb (offImportCtl w) 31 && s.rd (offImportSize w) != 0
def State.windowSize (s : State) (w : Nat) : Nat := (s.rd (offImportSize w)).toNat * 65536

/-- The cause that a source range, or a destination range, of a descriptor faults with. -/
def State.augSrcBad (s : State) (d : AugDesc) (a n : Nat) : Option Nat :=
  if !s.exported d.region then some 3 else if s.regionSize d.region < a + n then some 4 else none
def State.augDstBad (s : State) (d : AugDesc) (a n : Nat) : Option Nat :=
  if !s.windowOpen d.window then some 5 else if s.windowSize d.window < a + n then some 6 else none

/-- The checks as a descriptor starts: its region and window, and its contiguous ranges whole. -/
def State.augStartBad (s : State) (d : AugDesc) : Option Nat :=
  match s.augSrcBad d (d.src 0) (if d.mode = 1 then 0 else d.total) with
  | some 4 => if d.mode = 1 then s.augDstBad d (d.dst 0) d.total else some 4
  | some c => some c
  | none =>
    if d.mode = 2 then (if s.windowOpen d.window then none else some 5) else s.augDstBad d (d.dst 0) d.total

/-- The checks of the element that byte p begins. -/
def State.augElemBad (s : State) (d : AugDesc) (p : Nat) : Option Nat :=
  if d.mode = 1 && p % d.elem == 0 then s.augSrcBad d (d.src p) d.elem
  else if d.mode = 2 && p % d.elem == 0 then s.augDstBad d (d.dst p) d.elem
  else none

/-- What an export region holds from an offset on: the record there, where the model holds it, else what subsoil is read
to hold (assumption 22). -/
def State.exportBytes (s : State) (r off n : Nat) (read : List Byte) : List Byte :=
  let record := fun (size k : Nat) => bytesAt read (k * size - off) size
  let pick := fun (ring : List (Nat × List Word)) (k : Nat) =>
    match ring.find? fun e => e.1 == k with | some e => wordBytes e.2 | none => record 32 k
  match r with
  | 0 => ((List.range (n / 32)).map fun i => pick s.tel.flowRing (off / 32 + i)).flatten
  | 1 => ((List.range (n / 32)).map fun i => pick s.tel.classRing (off / 32 + i)).flatten
  | 3 => ((List.range (n / 64)).map fun i =>
      let f := off / 64 + i
      if s.sched.cache.any fun k => k % 2 ^ 26 == f then record 64 f else wordBytes (s.flowWords f)).flatten
  | _ => read

/-! ## Fetches, faults and drains (R361 to R363, R365 to R370) -/

/-- A descriptor is asked for. -/
def State.augFetch (s : State) (c : Nat) (what : AugFetch) (addr : Nat) : State :=
  (s.augMod c fun x =>
    { x with fetch := some (what, addr), rereading := what == .reread || (what == .resume && x.rereading) }).readAsk (2048 + c)

/-- A channel's fetch still waits for one of the 512 reads to end. -/
def State.augWaits (s : State) (c : Nat) : Bool := s.rings.readQ.contains (2048 + c)

/-- A channel issues no new request. -/
def State.augHalted (s : State) (c : Nat) : Bool :=
  (s.augCh c).abort || (s.augCh c).fault.isSome || s.augPause c

/-- A halted channel gives up a fetch that has not been issued. -/
def State.augGiveUp (s : State) (c : Nat) : State :=
  if s.augHalted c && s.augWaits c then (s.augMod c fun x => { x with fetch := none }).readOver (2048 + c) else s

/-- POS is what is confirmed of the descriptor in execution, as a prefix (R367). -/
def State.augPos (s : State) (c : Nat) : State :=
  match (s.augCh c).descs with
  | [] => s
  | d :: _ =>
    let n := (s.augCh c).out.foldl (fun n o => if o.1 = d.num then min n o.2 else n) d.issued
    s.wr (offChPos c) (w32 (if d.mode = 0 then n else n / d.elem))

/-- A channel that is not BUSY any more: IDLE, or PAUSED from there while PAUSE is 1. -/
def State.augIdle (s : State) (c : Nat) (parked : Bool) : State :=
  let s := (s.augMod c fun x => { nextNum := x.nextNum, wasIdle := s.augPause c }).wrb (offChState c) 29 parked
  s.augGo c (if s.augPause c then 2 else 0)

/-- A channel whose requests have all ended takes the state it drains for. -/
def State.augDrain (s : State) (c : Nat) : State :=
  let s := s.augGiveUp c
  let x := s.augCh c
  if x.out ≠ [] ∨ x.fetch.isSome ∨ s.augState c ≠ 1 then s
  else if x.abort then (s.wrb (offChState c) 28 false).augIdle c false
  else match x.fault with
  | some cause => s.augFaulted c cause
  | none =>
    if s.augPause c then
      (s.augMod c fun x => { nextNum := x.nextNum, rereading := x.rereading }).augGo c 2
    else s

/-- A channel faults: it issues nothing more, and enters FAULT when nothing is outstanding. -/
def State.augFail (s : State) (c cause : Nat) : State :=
  (s.augMod c fun x => { x with fault := if x.fault.isNone then some cause else x.fault }).augDrain c

/-- The parked descriptor is re-read (R362). -/
def State.augReread (s : State) (c : Nat) : State :=
  ((s.wrb (offChState c) 29 false).augGo c 1).augFetch c .reread (s.rd2 (offChCur c 0))

/-- The descriptor in front completes while every write response for it has returned: its pulse is sent, and CUR moves to
the next, or the channel parks on it (R362, R363, R366). -/
def State.augComplete (s : State) (c : Nat) : Nat → State
  | 0 => s
  | fuel + 1 =>
    let x := s.augCh c
    match x.descs with
    | [] => s
    | d :: rest =>
      if d.issued ≠ d.total ∨ x.out.any (fun o => o.1 = d.num) then s
      else
        let s := if d.pulse && s.rdb (offChCtl c) 6 && !x.abort then s.pulse (s.rdf (offChCtl c) 5 0) else s
        if d.last then
          if x.abort || x.fault.isSome then s.augMod c fun x => { x with descs := [] }
          else if s.augDbPend c && !s.augPause c then
            ((s.wrb (offChState c) 28 false).augMod c fun x => { x with descs := [] }).augReread c
          else s.augIdle c true
        else
          let s := (s.augAt c d.next).augMod c fun x => { x with descs := rest }
          (s.augPos c).augComplete c fuel

/-- The first descriptor whose reads are not all issued. -/
def AugCh.active (x : AugCh) : Option AugDesc := x.descs.find? fun d => d.issued != d.total

/-- That descriptor starts: its ranges are checked, once. -/
def State.augStart (s : State) (c : Nat) : State :=
  match (s.augCh c).active with
  | none => s
  | some d =>
    if d.started || s.augHalted c then s
    else match s.augStartBad d with
      | some cause => s.augFail c cause
      | none => s.augMod c fun x =>
          { x with descs := x.descs.map fun e => if e.num = d.num then { e with started := true } else e }

/-- The descriptor after the last one read is fetched while that one executes (R361). -/
def State.augAhead (s : State) (c : Nat) : State :=
  let x := s.augCh c
  match x.descs.getLast? with
  | some d => if d.started && !d.last && x.fetch.isNone && !s.augHalted c then s.augFetch c .next d.next else s
  | none => s

/-- What follows every change of a BUSY channel. -/
def State.augSettle (s : State) (c : Nat) : State :=
  ((((s.augPos c).augComplete c ((s.augCh c).descs.length + 1)).augStart c).augAhead c).augDrain c

/-! ## Commands -/

/-- A channel is told to go on: at the head of a chain or from what it is parked on (R370). -/
def State.augGoOn (s : State) (c : Nat) (new : Bool) : State :=
  if s.augParked c && !new then s.augReread c
  else
    let h := s.rd2 (offChHeadLo c)
    (((s.wrb (offChState c) 29 false).augGo c 1).augAt c h).augFetch c .next h

/-- A write of DOORBELL (R363, R370). -/
def State.augDoorbell (s : State) (c : Nat) (v : Word) : State :=
  match s.augState c with
  | 0 => s.augGoOn c (bit 31 v)
  | 3 => s
  | _ => s.wrb (offChState c) 28 true

/-- A channel resumes at CUR and POS, or is IDLE as it was before (R368). -/
def State.augResume (s : State) (c : Nat) : State :=
  let s := s.wrf (offChState c) 27 24 0
  let x := s.augCh c
  if x.wasIdle then
    let s := (s.augGo c 0).augMod c fun x => { x with wasIdle := false }
    if s.augDbPend c then (s.wrb (offChState c) 28 false).augGoOn c false else s
  else if x.rereading then s.augReread c
  else (s.augGo c 1).augFetch c .resume (s.rd2 (offChCur c 0))

/-- A channel is aborted (R370). -/
def State.augAbort (s : State) (c : Nat) : State :=
  let s := (s.wrb (offChState c) 28 false).wrf (offChState c) 27 24 0
  if s.augState c = 1 then (s.augMod c fun x => { x with abort := true }).augDrain c
  else s.augIdle c false

/-- A write of CH[c].CTL. PAUSE and RESUME together act as PAUSE (R370). -/
def State.augCtlWrite (s : State) (c : Nat) (v : Word) : State :=
  let s := s.wr (offChCtl c) (v &&& 0x8000007F)
  if bit 30 v then s.augAbort c
  else match s.augState c, bit 31 v with
  | 0, true => (s.augMod c fun x => { x with wasIdle := true }).augGo c 2
  | 1, true => s.augDrain c
  | 1, false => s.augSettle c
  | 2, false => s.augResume c
  | 3, false => if bit 29 v then s.augResume c else s
  | _, _ => s

/-- R370: DOORBELL of a channel is written. -/
def execAugDoorbell (c : Fin 32) (v : Word) (s : State) : Host.Outcome State Fault Refusal :=
  .next (s.cfg (offChDoorbell c) fun s => s.augDoorbell c v)

/-- R368: CTL of a channel is written with PAUSE 1. -/
def execAugPause (c : Fin 32) (v : Word) (s : State) : Host.Outcome State Fault Refusal :=
  .next (s.cfg (offChCtl c) fun s => s.augCtlWrite c (setBit 31 true v))

/-- R368: CTL of a channel is written with PAUSE 0. -/
def execAugUnpause (c : Fin 32) (v : Word) (s : State) : Host.Outcome State Fault Refusal :=
  .next (s.cfg (offChCtl c) fun s => s.augCtlWrite c (setBit 31 false v))

/-- R369: CTL of a channel is written with RESUME. -/
def execAugResume (c : Fin 32) (v : Word) (s : State) : Host.Outcome State Fault Refusal :=
  .next (s.cfg (offChCtl c) fun s => s.augCtlWrite c (setBit 29 true v))

/-- R370: CTL of a channel is written with ABORT. -/
def execAugAbort (c : Fin 32) (v : Word) (s : State) : Host.Outcome State Fault Refusal :=
  .next (s.cfg (offChCtl c) fun s => s.augCtlWrite c (setBit 30 true v))

/-- The bytes of a descriptor that CUR and POS say are confirmed. -/
def State.augResumeAt (s : State) (c : Nat) (d : AugDesc) : Nat :=
  let n := (s.rd (offChPos c)).toNat
  min d.total (if d.mode = 0 then n else n * d.elem)

/-- A descriptor that has arrived joins its channel's chain. -/
def State.augTake (s : State) (c : Nat) (what : AugFetch) (d : AugDesc) : State :=
  match what with
  | .reread =>
    if d.next % 32 != 0 then s.augFail c 2
    else
      let s := s.augMod c fun x => { x with rereading := false }
      if d.last then s.augIdle c true
      else
        let s := (s.wrb (offChState c) 29 false).augAt c d.next
        if s.augHalted c then s.augDrain c else s.augFetch c .next d.next
  | .next =>
    if d.bad then s.augFail c 2 else (s.augMod c fun x => { x with descs := x.descs ++ [d], nextNum := x.nextNum + 1 }).augSettle c
  | .resume =>
    if d.bad then s.augFail c 2
    else
      let n := s.augResumeAt c d
      (s.augMod c fun x => { x with descs := [{ d with issued := n }], nextNum := x.nextNum + 1 }).augSettle c

/-- R361: a fetched descriptor arrives with its index table, or with an error or a timeout of one of the reads. -/
def execAugDescArrive (c : Fin 32) (words index : List Word) (err : Bool) (s : State) :
    Host.Outcome State Fault Refusal :=
  match (s.augCh c).fetch with
  | none => .next s
  | some (what, addr) =>
    if s.augWaits c then .next s
    else
      let s := (s.augMod c fun x => { x with fetch := none }).readOver (2048 + c)
      let d : AugDesc := { num := (s.augCh c).nextNum, addr := addr, words := words, index := index }
      if (s.augCh c).abort || (s.augCh c).fault.isSome then .next (s.augDrain c)
      else if err then .next (s.augFail c 1)
      else .next (s.augTake c what d)

/-- A channel has a request to make. -/
def State.augReady (s : State) (c : Nat) : Bool := s.augState c == 1 && !s.augHalted c && (s.augCh c).active.isSome

/-- The channel whose turn it is: the engines serve the BUSY channels in round robin (R364). -/
def State.augNext (s : State) : Option Nat := ((List.range 32).map fun i => (s.augTurn + i) % 32).find? s.augReady

/-- R355: the next request of a channel, of at most 512 bytes, is read from its export region into staging and written to
its import window. `read` is what subsoil is read to hold there, `err` an uncorrectable error of the read (R365). -/
def execAugSourceRead (c : Fin 32) (read : List Byte) (err : Bool) (s : State) : Host.Outcome State Fault Refusal :=
  if s.augNext ≠ some c.val then .next s
  else
    let s := { s with augTurn := (c + 1) % 32 }
    match (s.augCh c).active with
    | none => .next s
    | some d =>
      if !d.started then .next (s.augStart c)
      else
        let p := d.issued
        let n := min (min 512 (d.total - p)) (if d.mode = 0 then 512 else d.elem - p % d.elem)
        if !s.lineOn then .next (s.augFail c 9)
        else match s.augElemBad d p, s.augSrcBad d (d.src p) n, err, s.augDstBad d (d.dst p) n with
        | some cause, _, _, _ => .next (s.augFail c cause)
        | none, some cause, _, _ => .next (s.augFail c cause)
        | none, none, true, _ => .next (s.augFail c 8)
        | none, none, false, some cause => .next (s.augFail c cause)
        | none, none, false, none =>
          let bytes := bytesAt (s.exportBytes d.region (d.src p) n read) 0 n
          let s := s.emit (.hostWrite ((s.rd2 (offImportBaseLo d.window) + d.dst p) % 2 ^ 64) bytes)
          let s := s.augMod c fun x =>
            { x with
              out := x.out ++ [(d.num, p)]
              descs := x.descs.map fun e => if e.num = d.num then { e with issued := p + n } else e }
          .next (s.augSettle c)

/-- R366: the response of a channel's outstanding write i returns. -/
def execAugWriteResponse (c : Fin 32) (i : Nat) (err : Bool) (s : State) : Host.Outcome State Fault Refusal :=
  if (s.augCh c).out.length ≤ i then .next s
  else if err then
    let o := (s.augCh c).out.getD i (0, 0)
    -- What failed, and all that is behind it, is no longer confirmed.
    let s := s.augMod c fun x =>
      { x with
        out := x.out.eraseIdx i
        descs := x.descs.map fun e => if e.num = o.1 then { e with issued := min e.issued o.2 } else e }
    .next ((s.augPos c).augFail c 7)
  else .next ((s.augMod c fun x => { x with out := x.out.eraseIdx i }).augSettle c)

end Sys2Proof.Machine
end

