-- ==== Sys2Proof/Machine/Sheore.lean ====
section
/-! DEFINITION. The Sheore line code of a silt lane (R392 to R394): sync marker, pointer, scrambler, Gray code and stuffing.
A symbol is a level 0 to 3. -/

namespace Sys2Proof.Machine

/-- The symbols of the sync marker. -/
def syncMarker : List Nat := [0, 3, 3, 0, 3, 0, 0, 3]

/-- Two bits to a level and back, Gray-coded: 00, 01, 11, 10 are 0, 1, 2, 3. -/
def grayLevel (hi lo : Bool) : Nat :=
  match hi, lo with
  | false, false => 0
  | false, true => 1
  | true, true => 2
  | true, false => 3
def levelBits (v : Nat) : List Bool :=
  match v with
  | 0 => [false, false]
  | 1 => [false, true]
  | 2 => [true, true]
  | _ => [true, false]

/-- Bits as symbols, two each. -/
def graySymbols : List Bool → List Nat
  | a :: b :: rest => grayLevel a b :: graySymbols rest
  | _ => []

/-- The bits of a byte, most significant first. -/
def byteBits (b : Byte) : List Bool := (List.range 8).map fun i => b.getLsbD (7 - i)

/-- The pointer of a frame: the offset of the first item that starts in it, 0x7FF for none. -/
def pointerSymbols (off : Nat) : List Nat := graySymbols ((beBytes 2 (off % 2048)).flatMap byteBits)

/-- The scrambler's register at the first content symbol of a frame on physical lane i of a link. -/
def scramSeed (i : Nat) : BitVec 58 := BitVec.ofNat 58 (0x2AAAAAAAAAAAAA8 + i)

/-- Bits XORed with the scrambler's. The same step scrambles and descrambles. -/
def scramble : BitVec 58 → List Bool → List Bool
  | _, [] => []
  | s, b :: bs =>
    let o := s.getLsbD 57 ^^ s.getLsbD 38
    (b ^^ o) :: scramble (s <<< 1 ||| (if o then 1 else 0)) bs

/-- Stuffing: `v` is the last level and `n` how often it came in a row (R394). -/
def stuffFrom : Nat → Nat → List Nat → List Nat
  | _, _, [] => []
  | v, n, x :: xs =>
    let n' := if x = v then n + 1 else 1
    if n' = 31 then x :: (3 - x) :: stuffFrom 4 0 xs else x :: stuffFrom x n' xs
def stuff (xs : List Nat) : List Nat := stuffFrom 4 0 xs

/-- Removal of stuff symbols; none where the symbol after 31 equal ones equals them (R394). -/
def unstuffFrom : Nat → Nat → List Nat → Option (List Nat)
  | _, _, [] => some []
  | v, n, x :: xs =>
    if n = 31 then (if x = v then none else unstuffFrom 4 0 xs)
    else (unstuffFrom x (if x = v then n + 1 else 1) xs).map (x :: ·)
def unstuff (xs : List Nat) : Option (List Nat) := unstuffFrom 4 0 xs

/-- The content symbols of bytes that begin at the first content symbol of a frame of physical lane i (R393). -/
def sheoreContent (i : Nat) (bytes : List Byte) : List Nat :=
  stuff (graySymbols (scramble (scramSeed i) (bytes.flatMap byteBits)))

/-- A Sheore frame: marker, pointer, and 1,072 symbols of content (R392). -/
def sheoreFrame (off : Nat) (content : List Nat) : List Nat := syncMarker ++ pointerSymbols off ++ content.take 1072

end Sys2Proof.Machine
end

