-- ==== Sys2Proof/Machine/Silt.lean ====
section
/-! DEFINITION. Silt links and hardpan modules: bring-up, flits received, lane sparing, faults and detach (chapter 16, R390 to
R415). -/

namespace Sys2Proof.Machine

/-! ## Bring-up (R404 to R406) -/

/-- A lane whose MODE is PORT is powered. -/
def State.siltPowered (s : State) (k i : Nat) : Bool := s.rdb (lnStatus (siltLane k i)) 0

/-- Something is done to every physical lane of a link that a mask names. -/
def State.siltLanes (s : State) (k : Nat) (m : BitVec 8) (f : State → Nat → State) : State :=
  (List.range 8).foldl (fun s i => if m.getLsbD i then f s (siltLane k i) else s) s

/-- The lanes of a mask, counted. -/
def popcount (m : BitVec 8) : Nat := ((List.range 8).filter fun i => m.getLsbD i).length

/-- A stage of the bring-up begins with its timer. -/
def State.siltStage (s : State) (k st off hi lo : Nat) : State := (s.siltGo k st).startTimer (.siltStage k) (s.tmo off hi lo)

/-- A link enters DETECT: its lanes are powered. -/
def State.siltDetect (s : State) (k : Nat) : State :=
  let s := s.siltLanes k 0xFF fun s base => (s.lanePower base true).laneUnlock base
  let s := (s.wrf (offSiltStatus k) 15 0 0).siltMod k fun x => { retries := x.retries, stage := 0xFF }
  s.siltStage k 1 (offSiltTimeout1 k) 15 0

/-- A link's STATUS keeps LAST_FAIL and MSTATE only; its lanes are no longer in use. -/
def State.siltClear (s : State) (k : Nat) : State :=
  (s.wr (offSiltStatus k) (s.rd (offSiltStatus k) &&& 0xFFE00000)).wr (offSiltMap k) 0

/-- A link enters GAP. -/
def State.siltGap (s : State) (k lastFail : Nat) : State :=
  let s := ((s.siltGo k 6).wrf (offSiltStatus k) 27 24 lastFail).siltClear k
  ((s.stopTimer (.siltStage k)).stopTimer (.siltCap k)).startTimer (.siltGap k) (ms (max 1 (s.rdf (offSiltRetry k) 7 0)))

/-- A stage fails on too few lanes: RETRIES counts (R404). -/
def State.siltFailed (s : State) (k : Nat) : State :=
  (s.siltGap k (s.siltState k)).siltMod k fun x => { x with retries := x.retries + 1 }

/-- The block's own CAP. -/
def ownCap : List Byte := beBytes 4 (1 * 2 ^ 24 + 8 * 2 ^ 16)

/-- CAP is sent, and again in 10 µs. -/
def State.siltSendCap (s : State) (k : Nat) : State := (s.siltMgmt k 1 0 ownCap).startTimer (.siltCap k) (us 10)

/-- The next stage begins on the lanes that completed this one; the others become OUT. Each lane that trained has asked for
its equalisation (R84). -/
def State.siltNext (s : State) (k : Nat) (m : BitVec 8) (asks : List EqAsk) : State :=
  let s := s.siltMod k fun x => { x with stage := m }
  match s.siltState k with
  | 1 => (s.siltLanes k m fun s base => s.laneUseBoard base).siltStage k 2 (offSiltTimeout0 k) 31 16
  | 2 =>
    let ls := (List.range 8).filter fun i => m.getLsbD i
    ((ls.zip asks).foldl (fun s e => s.laneTrain (siltLane k e.1) e.2) s).siltStage k 3 (offSiltTimeout1 k) 31 16
  | _ =>
    let s := (s.siltLanes k m fun s base => s.laneLockAll base).siltStage k 4 (offSiltTimeout0 k) 15 0
    let s := s.siltMod k fun x => { x with txMap := ((List.range 8).filter fun i => m.getLsbD i).take 6 }
    s.siltSendCap k

/-- Every lane that has trained has asked. -/
def State.siltAsked (s : State) (k : Nat) (m : BitVec 8) (asks : List EqAsk) : Bool :=
  s.siltState k != 2 || asks.length == popcount m

/-- The lanes, of those named, that may complete the stage a link is in. -/
def State.siltCan (s : State) (k : Nat) (lanes : BitVec 8) : BitVec 8 :=
  (List.range 8).foldl (fun m i => if s.siltPowered k i && !s.mapped 3 (8 * k + i) then m else m &&& ~~~ BitVec.ofNat 8 (2 ^ i)) (lanes &&& (s.siltSt k).stage)

/-- A link is in DETECT, TRAIN or LOCK. -/
def State.siltStaging (s : State) (k : Nat) : Bool := s.roleServed 22 && s.siltOn k && 1 ≤ s.siltState k && s.siltState k ≤ 3

/-- R404: a stage ends on the named lanes, at their completion or at the timer's expiry. -/
def execSiltStageDone (k : Fin 8) (lanes : BitVec 8) (asks : List EqAsk) (s : State) : Host.Outcome State Fault Refusal :=
  let m := s.siltCan k lanes
  .next (if s.siltStaging k && 3 ≤ popcount m && s.siltAsked k m asks then s.siltNext k m asks else s)

/-- R404: a stage's timer expires, with the named lanes complete; or EXCHANGE's does. -/
def execSiltStageTimeout (k : Fin 8) (lanes : BitVec 8) (asks : List EqAsk) (s : State) :
    Host.Outcome State Fault Refusal :=
  let m := s.siltCan k lanes
  if !s.timerOn (.siltStage k) then .next s
  else if s.siltStaging k then
    .next (if popcount m < 3 then s.siltFailed k else if s.siltAsked k m asks then s.siltNext k m asks else s)
  else .next (if s.roleServed 22 && s.siltState k = 4 then s.siltGap k 4 else s)

/-- R404: 10 µs have passed since the last CAP. -/
def execSiltCapSend (k : Fin 8) (s : State) : Host.Outcome State Fault Refusal :=
  .next (if s.roleServed 22 && s.siltState k = 4 && s.timerOn (.siltCap k) then s.siltSendCap k else s)

/-- MAP, ACTIVE and SPARE show lanes in use: `ls` the physical lanes in logical order, `spare` the others that hold lock. -/
def State.siltUse (s : State) (k : Nat) (ls spare : List Nat) : State :=
  let mask := fun (xs : List Nat) => xs.foldl (fun n i => n + 2 ^ i) 0
  let map := (ls.mapIdx fun j i => i * 8 ^ j).sum
  let s := s.wr (offSiltMap k) (w32 (ls.length * 2 ^ 24 + map))
  ((s.wrf (offSiltStatus k) 15 8 (mask spare)).wrf (offSiltStatus k) 7 0 (mask ls)).wrb (offSiltStatus k) 20
    (decide (ls.length < 6))

/-- The lanes of a link in bring-up that hold lock. -/
def State.siltLocked (s : State) (k : Nat) : List Nat :=
  (List.range 8).filter fun i => (s.siltSt k).stage.getLsbD i && s.laneLocked (siltLane k i)

/-- The link becomes ACTIVE and its module is attached, empty (R404, R406, R410). -/
def State.siltToActive (s : State) (k : Nat) : State :=
  let ls := s.siltLocked k
  let s := ((s.stopTimer (.siltStage k)).stopTimer (.siltCap k)).siltGo k 5
  let s := (s.siltUse k (ls.take 6) (ls.drop 6)).siltLanes k (s.siltSt k).stage fun s base => s.laneStore base
  let depth := s.rd (offSiltModCap k 1)
  let s := s.siltMod k fun x => { retries := x.retries, wcred := fld 31 16 depth, rcred := fld 15 0 depth, txMap := ls.take 6 }
  let s := ((s.siltEvent k 0).wrf (offSiltStatus k) 23 21 1).capJoin k
  (s.siltEvent k 2).startTimer (.siltNull k) 655

/-- A link that was ACTIVE goes to GAP, and a module attached to it is LOST. -/
def State.siltEnd (s : State) (k code : Nat) (had : Bool) : State :=
  let s := (s.siltGap k code).siltEvent k 1
  if had then (s.wrf (offSiltStatus k) 23 21 4).siltEvent k 4 else s

/-- An ACTIVE link faults (R409, R412). -/
def State.siltFault (s : State) (k code : Nat) : State :=
  if !s.siltActive k then s
  else
    (s.siltVoid k).siltEnd k code (s.modState k = 1 || s.modState k = 2)

/-- Both CAPs have been exchanged: the link becomes ACTIVE, and with fewer than 3 lanes left to it faults, its module still
empty (R404, R409; DEDUCED, assumption 62). -/
def State.siltExchanged (s : State) (k : Nat) : State :=
  if !(s.siltSt k).capGot || !(s.siltSt k).capAcked then s
  else
    let few := (s.siltLocked k).length < 3
    let s := s.siltToActive k
    if few then (s.siltUnlink k).siltEnd k 6 true else s

/-- A CAP is valid (R405). -/
def capValid (w : List Word) : Bool :=
  let a := w.getD 0 0
  let b := w.getD 1 0
  fld 31 24 a == 1 && fld 23 16 a == 8 && 1 ≤ fld 15 0 a && 512 ≤ fld 31 16 b && 1024 ≤ fld 15 0 b

/-- R405: the module's CAP is received: its four words. -/
def execSiltCapReceive (k : Fin 8) (words : List Word) (s : State) : Host.Outcome State Fault Refusal :=
  if s.siltState k ≠ 4 || !s.roleServed 22 then .next s
  else
    let s := (s.siltMgmt k 2 0 []).wrs (offSiltModCap k 0) ((List.range 4).map fun i => words.getD i 0)
    if capValid words then .next ((s.siltMod k fun x => { x with capGot := true }).siltExchanged k)
    else .next ((s.siltGap k 5).siltEvent k 9)

/-- R404: the module acknowledges the block's CAP. -/
def execSiltCapAckReceive (k : Fin 8) (s : State) : Host.Outcome State Fault Refusal :=
  .next (if s.roleServed 22 && s.siltState k = 4 then (s.siltMod k fun x => { x with capAcked := true }).siltExchanged k else s)

/-! ## Faults and writes of CTL (R409, R411, R412, R414) -/

/-- The link goes to DISABLED: lanes off, RETRIES cleared. -/
def State.siltDown (s : State) (k : Nat) : State :=
  let s := (s.siltVoid k).wrf (offSiltStatus k) 23 21 0
  let s := (s.siltGo k 0).siltClear k
  (s.siltLanes k 0xFF fun s base => (s.lanePower base false).laneForget base).siltMod k fun _ => {}

/-- A planned detach starts (R411). -/
def State.siltDetach (s : State) (k : Nat) : State :=
  let s := s.siltMod k fun x => { x with paused := false }
  if s.modState k = 1 then (s.wrf (offSiltStatus k) 23 21 2).siltPut k [{ type := 7, arg := 6 * 2 ^ 32 }] else s

/-- A DRAINING module holds nothing any more: it is DETACHED (R411). -/
def State.siltDetached (s : State) (k : Nat) : State :=
  let s := (s.capLeave k).wrf (offSiltStatus k) 23 21 3
  (s.siltPut k [{ type := 7, arg := 7 * 2 ^ 32 }]).siltEvent k 3

/-- A write of DRAIN_FORCE: the frames still in a DRAINING module, wholly or partly, are discarded. Those on their way to it
with no grain in it are placed again. -/
def State.siltForce (s : State) (k : Nat) : State :=
  if s.modState k ≠ 2 then s
  else
    let s := s.admMod fun a => { a with fetching := sset (fun _ => 0) a.fetching (8 + k) 0 }
    let s := (s.framesWhere fun x => x.tier == 2 && x.unit == k).foldl (fun s f => s.moduleLoss f) s
    let s := s.admMod fun a => { a with spilling := sset (fun _ => 0) a.spilling (8 + k) 0 }
    let s := (s.framesWhere fun x => x.moving == some (8 + k)).foldl (fun s f => s.moveBack k f) s
    s.siltDetached k

/-- An enabled link leaves DISABLED once the MEM1 role is served (R404, R417). -/
def State.siltBegin (s : State) (k : Nat) : State :=
  if s.roleServed 22 && s.siltState k == 0 && s.rdb (offSiltCtl k) 31 then s.siltDetect k else s

/-- A write of SILT[k].CTL. -/
def State.siltCtlWrite (s : State) (k : Nat) (v : Word) : State :=
  let v := clampReg (offSiltCtl k) v
  let old := s.rd (offSiltCtl k)
  let s := s.wr (offSiltCtl k) ((v &&& 0x0000FFFF) ||| (old &&& 0x90000000 &&& ~~~ (v &&& 0x10000000)))
  let s := if bit 30 v then s.siltDetach k else s
  let s := if bit 29 v then s.siltForce k else s
  if bit 31 v && !bit 31 old then (s.wrb (offSiltCtl k) 31 true).siltBegin k
  else if !bit 31 v && bit 31 old then
    if s.siltHolds k then (s.wrb (offSiltCtl k) 28 true).siltEvent k 10
    else (s.wrb (offSiltCtl k) 31 false).siltDown k
  else s

/-- R404: SILT[k].CTL is written with EN 1. -/
def execSiltEnable (k : Fin 8) (v : Word) (s : State) : Host.Outcome State Fault Refusal :=
  .next (s.cfg (offSiltCtl k) fun s => s.siltCtlWrite k (setBit 31 true v))

/-- R414: SILT[k].CTL is written with EN 0. -/
def execSiltDisable (k : Fin 8) (v : Word) (s : State) : Host.Outcome State Fault Refusal :=
  .next (s.cfg (offSiltCtl k) fun s => s.siltCtlWrite k (setBit 31 false v))

/-- R411: SILT[k].CTL is written with DETACH 1. -/
def execSiltDetach (k : Fin 8) (v : Word) (s : State) : Host.Outcome State Fault Refusal :=
  .next (s.cfg (offSiltCtl k) fun s => s.siltCtlWrite k (setBit 30 true v))

/-- R411: SILT[k].CTL is written with DRAIN_FORCE 1. -/
def execSiltDrainForce (k : Fin 8) (v : Word) (s : State) : Host.Outcome State Fault Refusal :=
  .next (s.cfg (offSiltCtl k) fun s => s.siltCtlWrite k (setBit 29 true v))

/-- R411: the draining module holds no grain. -/
def execSiltDetachDone (k : Fin 8) (s : State) : Host.Outcome State Fault Refusal :=
  let empty := (s.framesWhere fun x => (x.tier == 2 && x.unit == k.val) || x.moving == some (8 + k.val)) = []
  .next (if s.roleServed 22 && s.siltActive k && s.modState k = 2 && empty then s.siltDetached k else s)

/-- R404: RETRY_GAP_MS elapses. -/
def execSiltGapRetry (k : Fin 8) (s : State) : Host.Outcome State Fault Refusal :=
  if s.roleServed 22 && s.siltState k = 6 && s.timerOn (.siltGap k) then
    let s := s.stopTimer (.siltGap k)
    let m := s.rdf (offSiltRetry k) 15 8
    if m = 0 || (s.siltSt k).retries < m then .next (s.siltDetect k)
    else .next ((s.siltGo k 7).siltLanes k 0xFF fun s base => s.lanePower base false)
  else .next s

/-! ## Acknowledgement and order (R396, R399, R400) -/

/-- The far end's ACK covers flits of the replay buffer (R400). -/
def State.siltAck (s : State) (k ack : Nat) : State :=
  match (s.siltSt k).replay.findIdx? fun e => e.1 == ack with
  | none => s
  | some i =>
    let s := s.siltMod k fun x => { x with replay := (x.replay.drop (i + 1)).map fun e => (e.1, e.2.1, 0) }
    ((s.stopTimer (.siltReplay k)).stopTimer (.siltLoss k)).siltPumpAll k

/-- Flits from the replay buffer are resent from a place on; one that is resent REPLAY_MAX times without progress faults the
link (R400). -/
def State.siltResend (s : State) (k i : Nat) : State :=
  let again := (s.siltSt k).replay.drop i
  let s := again.foldl (fun s e => s.siltEmit k e.2.1.type e.1 e.2.1.arg e.2.1.body) s
  let s := (s.siltCnt k 3 again.length).siltMod k fun x =>
    { x with replay := x.replay.mapIdx fun j e => if i ≤ j then (e.1, e.2.1, e.2.2 + 1) else e }
  let s := if again = [] then s else s.startTimer (.siltReplay k) (s.replayNs k)
  if (s.siltSt k).replay.any fun e => max 1 (s.rdf (offSiltReplay k) 31 28) ≤ e.2.2 then s.siltFault k 7 else s

/-- The receiver discards a flit: NAK at the first discard after an in-order acceptance (R400). The module resends all that
was held behind it. -/
def State.siltDiscard (s : State) (k : Nat) : State :=
  let s := (s.siltCnt k 2 1).siltMod k fun x => { x with early := [] }
  if (s.siltSt k).naked then s
  else (s.siltMod k fun x => { x with naked := true }).siltMgmt k 0 (s.siltSt k).expect []

/-- An unsequenced flit arrives and acts. -/
def State.siltHear (s : State) (k ack : Nat) (f : State → State) : State :=
  if s.siltActive k then f (s.siltAck k ack) else s

/-! ## Flits received (R397 to R403) -/

/-- The module acknowledges its oldest writes: each is a grain more in hardpan, whose credit comes back (R24, R198); a frame
whose last write that is has moved (R403). -/
def State.writeAcked (s : State) (k : Nat) : Nat → State
  | 0 => s
  | n + 1 =>
    match (s.siltSt k).writes with
    | [] => s
    | (f, _) :: rest =>
      let s := s.siltMod k fun x => { x with writes := rest }
      let s := match s.frame f with
        | some x =>
          if x.moving ≠ some (8 + k) then s
          else if rest.any fun e => e.1 == f then
            ((s.occAdd 2 1).spillMod (8 + k) (· - 1)).setFrame f (some { x with moved := x.moved + 1 })
          else s.moveAcked f (8 + k) x
        | none => s
      s.writeAcked k n

/-- A grain of a frame comes back and is written to topsoil (R198), or cannot be read (R402). -/
def State.readBack (s : State) (k addr : Nat) (err grainBad : Bool) : State :=
  match (s.siltSt k).reads with
  | [] => s
  | (f, a) :: rest =>
    if a ≠ addr then s
    else
      let s := s.siltMod k fun x => { x with reads := rest }
      let more := rest.any fun e => e.1 == f
      match s.frame f with
      | none => if err then s.siltCnt k 6 1 else s
      | some x =>
        if !x.fetching || x.tier != 2 then (if err then s.siltCnt k 6 1 else s)
        else if err then
          ((s.siltCnt k 6 1).fetchMod x.home (· - (x.grains - x.moved))).moduleLoss f
        else if grainBad then s.fetchDone f x true
        else if more then
          ((s.occAdd 0 1).fetchMod x.home (· - 1)).setFrame f (some { x with moved := x.moved + 1 })
        else s.fetchDone f x false

/-- What a sequenced flit of the module does (R397, R401 to R403, R410). -/
def State.siltAct (s : State) (k : Nat) : ModFlit → State
  | .readData addr wack err bad => (s.writeAcked k (min wack (s.siltSt k).writes.length)).readBack k addr err bad
  | .writeAck count => s.writeAcked k (min count (s.siltSt k).writes.length)
  | .credit w r => (s.siltMod k fun x => { x with wcred := x.wcred + w, rcred := x.rcred + r }).siltPumpAll k
  | .status words =>
    let s := s.wrs (offSiltModStatus k 0) ((List.range 3).map fun i => words.getD i 0)
    match fld 31 30 (words.getD 0 0) with
    | 0 => s
    | 1 => s.siltEvent k 8
    | _ => s.siltFault k 10

/-- The flit with the SEQ expected is accepted and acts. -/
def State.siltAccept (s : State) (k seq ack : Nat) (m : ModFlit) : State :=
  let s := (s.siltAck k ack).siltCnt k 1 1
  let s := s.siltMod k fun x => { x with expect := (seq + 1) % 4096, ack := seq, naked := false }
  let s := (s.stopTimer (.siltLoss k)).siltAct k m
  if s.siltActive k then s.siltTimers k else s

/-- Flits that came early are accepted as their turn comes. -/
def State.siltRelease (s : State) (k : Nat) : Nat → State
  | 0 => s
  | n + 1 =>
    match (s.siltSt k).early.find? fun e => e.1 == (s.siltSt k).expect with
    | none => s
    | some e =>
      ((s.siltMod k fun x => { x with early := x.early.filter fun d => d.1 != e.1 }).siltAccept k e.1 e.2.1 e.2.2).siltRelease k n

/-- A sequenced flit arrives: it is accepted in order, held where it comes early (R399), or discarded (R400). -/
def State.siltTake (s : State) (k seq ack : Nat) (m : ModFlit) : State :=
  let x := s.siltSt k
  let d := (seq + 4096 - x.expect) % 4096
  if !s.siltActive k then s
  else if d = 0 then (s.siltAccept k seq ack m).siltRelease k x.early.length
  else if d < 512 && !x.naked then
    s.siltMod k fun x => { x with early := (x.early.filter fun e => e.1 != seq) ++ [(seq, ack, m)] }
  else s.siltDiscard k

/-- R403: a WRITE_ACK flit. -/
def execWriteAckReceive (k : Fin 8) (seq ack : BitVec 12) (count : BitVec 16) (s : State) :
    Host.Outcome State Fault Refusal :=
  .next (s.siltTake k seq.toNat ack.toNat (.writeAck count.toNat))

/-- R402: a READ_DATA flit, with its WACK. A grain may fail its check (R437). -/
def execReadDataReceive (k : Fin 8) (seq ack : BitVec 12) (addr : BitVec 30) (wack : BitVec 5) (err grainBad : Bool)
    (s : State) : Host.Outcome State Fault Refusal :=
  .next (s.siltTake k seq.toNat ack.toNat (.readData addr.toNat wack.toNat err grainBad))

/-- R401: a CREDIT flit. -/
def execCreditReceive (k : Fin 8) (seq ack : BitVec 12) (wcred rcred : BitVec 18) (s : State) :
    Host.Outcome State Fault Refusal :=
  .next (s.siltTake k seq.toNat ack.toNat (.credit wcred.toNat rcred.toNat))

/-- R410: a MODULE_STATUS flit. -/
def execModuleStatusReceive (k : Fin 8) (seq ack : BitVec 12) (words : List Word) (s : State) :
    Host.Outcome State Fault Refusal :=
  .next (s.siltTake k seq.toNat ack.toNat (.status words))

/-- R400: a NAK with the SEQ that the module expects. -/
def execNakReceive (k : Fin 8) (ack expected : BitVec 12) (s : State) : Host.Outcome State Fault Refusal :=
  .next (s.siltHear k ack.toNat fun s =>
    match (s.siltSt k).replay.findIdx? fun e => e.1 == expected.toNat with
    | some i => s.siltResend k i
    | none => s)

/-- R399: a NULL flit. -/
def execNullFlitReceive (k : Fin 8) (ack : BitVec 12) (s : State) : Host.Outcome State Fault Refusal :=
  .next (s.siltHear k ack.toNat fun s => s)

/-- R400: REPLAY_NS has passed without the oldest flit's ACK. -/
def execReplayTimeout (k : Fin 8) (s : State) : Host.Outcome State Fault Refusal :=
  .next (if s.siltActive k && s.timerOn (.siltReplay k) then s.siltResend k 0 else s)

/-- R409: LOSS_US have passed without progress. -/
def execSiltLossTimeout (k : Fin 8) (s : State) : Host.Outcome State Fault Refusal :=
  .next (if s.siltActive k && s.timerOn (.siltLoss k) then s.siltFault k 8 else s)

/-- R399: the transmitter has sent no flit for 64 frames. -/
def execSiltNullSend (k : Fin 8) (s : State) : Host.Outcome State Fault Refusal :=
  .next (if s.siltActive k && s.timerOn (.siltNull k) then s.siltUnseq k 1 0 [] else s)

/-! ## Lane sparing (R407, R408) -/

/-- The physical lanes in logical order, and the spares. -/
def State.siltInUse (s : State) (k : Nat) : List Nat := (List.range (s.siltN k)).map fun j => s.siltPhys k j
def State.siltSpares (s : State) (k : Nat) : List Nat := (List.range 8).filter fun i => s.rdb (offSiltStatus k) (8 + i)

/-- LANE_MAP is sent, and again in 1 µs until it is acknowledged. -/
def State.siltSendMap (s : State) (k : Nat) : State :=
  match (s.siltSt k).mapPending with
  | some m => (s.siltMgmt k 3 m []).startTimer (.siltMap k) (us 1)
  | none => s

/-- A new lane map takes the place of the old. -/
def State.siltRemap (s : State) (k : Nat) (ls spare : List Nat) : State :=
  let s := s.siltUse k ls spare
  let m := ls.length * 2 ^ 18 + (ls.mapIdx fun j i => i * 8 ^ j).sum
  (s.siltMod k fun x => { x with mapPending := some m }).siltSendMap k

/-- Physical lane i of an ACTIVE link is lost: a spare takes its logical lane, or the link runs on fewer, or it faults. -/
def State.siltLost (s : State) (k i : Nat) : State :=
  let ls := s.siltInUse k
  let spare := (s.siltSpares k).filter (· != i)
  let s := (s.laneUnlock (siltLane k i)).laneMod (siltLane k i) fun l => { l with lost := true }
  let s := s.siltMod k fun x => { x with txMap := x.txMap.filter (· != i), turn := 0 }
  if !ls.contains i then s.wrb (offSiltStatus k) (8 + i) false
  else if !s.roleServed 22 then s
  else
    let s := s.siltCnt k 4 1
    match spare with
    | sp :: more => (s.siltRemap k (ls.map fun p => if p = i then sp else p) more).siltEvent k 5
    | [] =>
      if 3 < ls.length then (s.siltRemap k (ls.filter (· != i)) []).siltEvent k 6 else s.siltFault k 6

/-- The MEM1 role is served again: enabled links begin, and lanes lost meanwhile are replaced (R407, R417). -/
def State.siltWake (s : State) : State :=
  (List.range 8).foldl (fun s k =>
    let s := if s.siltOn k then s.siltBegin k else s
    (List.range 8).foldl (fun s i =>
      if s.siltActive k && (s.siltInUse k).contains i && !s.laneLocked (siltLane k i) then s.siltLost k i else s) s) s

/-- R407: the block's receiver on a lane loses lock. -/
def execSiltLaneLost (k i : Fin 8) (s : State) : Host.Outcome State Fault Refusal :=
  .next (if s.siltActive k && (s.siltInUse k ++ s.siltSpares k).contains i.val then s.siltLost k i else s)

/-- R407: the module has lost a lane at its receiver. -/
def execLaneFailReceive (k : Fin 8) (ack : BitVec 12) (i : Fin 8) (s : State) : Host.Outcome State Fault Refusal :=
  .next (s.siltHear k ack.toNat fun s =>
    if (s.siltInUse k ++ s.siltSpares k).contains i.val then s.siltLost k i else s)

/-- R407: LANE_MAP is due again. -/
def execLaneMapResend (k : Fin 8) (s : State) : Host.Outcome State Fault Refusal :=
  .next (if s.siltActive k && s.timerOn (.siltMap k) then s.siltSendMap k else s)

/-- R408: the module has switched to a lane map. The latest map wins (R415). -/
def execLaneMapAckReceive (k : Fin 8) (ack : BitVec 12) (map : BitVec 21) (s : State) : Host.Outcome State Fault Refusal :=
  .next (s.siltHear k ack.toNat fun s =>
    if (s.siltSt k).mapPending = some map.toNat then
      (s.siltMod k fun x => { x with mapPending := none, txMap := s.siltInUse k, turn := 0 }).stopTimer (.siltMap k)
    else s)

/-- R408: an OUT lane has held lock for 1 ms: it is a spare, or a DEGRADED link takes it back. -/
def execSiltSpareRecover (k i : Fin 8) (s : State) : Host.Outcome State Fault Refusal :=
  let ls := s.siltInUse k
  if !s.roleServed 22 || !s.siltActive k || (ls ++ s.siltSpares k).contains i.val || s.laneOff (siltLane k i) || s.mapped 3 (8 * k.val + i.val) then .next s
  else
    let s := ((s.lanePower (siltLane k i) true).laneLockAll (siltLane k i)).laneMod (siltLane k i) fun l => { l with lost := false }
    let s := s.siltEvent k 7
    if ls.length < 6 then .next (s.siltRemap k (ls ++ [i.val]) (s.siltSpares k))
    else .next (s.wrb (offSiltStatus k) (8 + i.val) true)

/-! ## Errors (R394, R397, R400, R407) -/

/-- A flit whose bytes and form are in order is a protocol error (R397): a type that does not exist or that only the block
sends, or an operation of LINK_MGMT of that kind. -/
def flitProto (bytes : List Byte) : Bool :=
  let h := beAt bytes 0 8
  let type := h / 2 ^ 60
  let op := h / 2 ^ 32 % 16
  type == 0 || type == 2 || type == 3 || 9 ≤ type || (type == 7 && (op == 3 || op == 6 || op == 7 || 8 ≤ op))

/-- A flit is sequenced. -/
def flitSeq (bytes : List Byte) : Bool :=
  let type := beAt bytes 0 8 / 2 ^ 60
  2 ≤ type && type != 7

/-- A CRC error of a lane; ERR_THRESH of them within ERR_WINDOW_US lose an active lane (R407). -/
def State.siltCrcError (s : State) (k i : Nat) : State :=
  let s := s.inc (siltLane k i + 0xF0) (lnEvt (siltLane k i)) 6
  let w := max 1 (s.rdf (offSiltSpareCfg k) 31 16) * 1000000
  let ts := s.ps :: (sget (fun _ => []) (s.siltSt k).crcErr i).filter fun t => s.ps < t + w
  if max 1 (s.rdf (offSiltSpareCfg k) 7 0) ≤ ts.length && (s.siltInUse k).contains i then
    (s.siltMod k fun x => { x with crcErr := sset (fun _ => []) x.crcErr i [] }).siltLost k i
  else s.siltMod k fun x => { x with crcErr := sset (fun _ => []) x.crcErr i ts }

/-- R400: the receiver has a flit of 268 bytes from a physical lane, in content that is errored (R394) or not, and discards
it: for that, for its CRC, for its SEQ, or as a protocol error. -/
def execFlitDiscard (k lane : Fin 8) (errored : Bool) (bytes : List Byte) (s : State) : Host.Outcome State Fault Refusal :=
  let bad := ethFcs (bytesAt bytes 0 264) != bytesAt bytes 264 4
  if !s.siltActive k then .next s
  else if errored then .next (s.siltDiscard k)
  else if bad then
    .next ((s.siltDiscard k).siltCrcError k lane)
  else if flitProto bytes then .next ((s.siltCnt k 5 1).siltFault k 9)
  else if flitSeq bytes && beAt bytes 0 8 / 2 ^ 48 % 4096 != (s.siltSt k).expect then .next (s.siltDiscard k)
  else .next s

/-- R394: content symbols arrive on a silt lane, in which 31 equal ones are followed by one that equals them. -/
def execStuffError (k i : Fin 8) (symbols : List (Fin 4)) (s : State) : Host.Outcome State Fault Refusal :=
  .next (if s.siltOn k && s.laneLocked (siltLane k i) && (unstuff (symbols.map (·.val))).isNone then
    s.inc (siltLane k i + 0xE8) (lnEvt (siltLane k i)) 6 else s)

end Sys2Proof.Machine
end

