-- ==== Sys2Proof/Machine/Lanes.lean ====
section
/-! DEFINITION. Serial lanes: MODE, RESET, board tables, test patterns and error injection (chapter 04, R83 to R97, R497, R498;
for the silt lanes R391). -/

namespace Sys2Proof.Machine

/-! ## Which lane (R47, R391) -/

/-- The window offset of a lane's first register, and of the lane it reaches. -/
def laneWindow : LaneId → Nat
  | .net b l => offLaneCtl b l
  | .silt n => 0x490000 + 0x1000 * n.val
def State.laneAt (s : State) : LaneId → Option Nat
  | .net b l => s.laneReg b l
  | .silt n => some (0x490000 + 0x1000 * n.val)

/-- The bed that has a network lane, and its local index there. -/
def State.laneOwner (s : State) (base : Nat) : Option (Nat × Nat) :=
  if base < 0x1000000 then none
  else (s.bedOf ((base - 0x1000000) / 0x100000)).map fun b => (b, base % 0x100000 / 0x1000 % 16)

/-- A lane lies in the span of an enabled port; of a silt lane, its link is enabled (R95, R391). -/
def State.laneSpanned (s : State) (base : Nat) : Bool :=
  if base < 0x1000000 then s.rdb (offSiltCtl ((base - 0x490000) / 0x8000)) 31
  else match s.laneOwner base with
    | some (b, l) => (s.spanPort b l).isSome ||
        (List.range 16).any fun p => s.pForm b p != 0 && (spanLanes p (s.pForm b p)).contains l
    | none => false

/-- The port state that a network lane's port is in, 0 for none (R497). -/
def State.lanePort (s : State) (base : Nat) : Nat :=
  match s.laneOwner base with
  | some (b, l) => (match s.spanPort b l with | some p => s.pState b p | none => 0)
  | none => 0

/-- A lane's port is ACTIVE or in REFORM, or its link is ACTIVE with it. -/
def State.laneLive (s : State) (base : Nat) : Bool :=
  if base < 0x1000000 then
    let k := (base - 0x490000) / 0x8000
    s.siltActive k && (s.siltInUse k ++ s.siltSpares k).contains ((base - 0x490000) / 0x1000 % 8)
  else s.lanePort base == 5 || s.lanePort base == 8

/-- A lane carries the traffic of an ACTIVE port's running span, or of an ACTIVE link (R97). -/
def State.laneCarries (s : State) (base : Nat) : Bool :=
  if base < 0x1000000 then
    let k := (base - 0x490000) / 0x8000
    s.siltActive k && (s.siltInUse k).contains ((base - 0x490000) / 0x1000 % 8)
  else match s.laneOwner base with
    | some (b, l) => (List.range 16).any fun p => s.pActive b p && (s.runLanes b p).contains l
    | none => false

/-- A lane that is taken out of lock: a loss of lock where it is live, else it starts its stage again (R497, R498). -/
def State.laneDropped (s : State) (base : Nat) : State :=
  if !s.laneLive base then s.laneUnlock base
  else if base < 0x1000000 then s.siltLost ((base - 0x490000) / 0x8000) ((base - 0x490000) / 0x1000 % 8)
  else match s.laneOwner base with
    | some (b, l) => s.lanesLost b [l]
    | none => s.laneUnlock base

/-! ## LANE.CTL (R95, R497, R498) -/

/-- A lane leaves TEST: neither generator nor checker runs, and the lane is off. -/
def State.testEnd (s : State) (base : Nat) : State :=
  if s.rdb (lnStatus base) 7 then
    ((s.wrb (lnStatus base) 7 false).wrb (base + 0x90) 31 false).lanePower base false
  else s

/-- The generator of a lane starts: the user pattern at its bit 0, any other at a state that is left open (R95). -/
def State.genStart (s : State) (base : Nat) : State :=
  if s.rdf (base + 0x80) 2 0 = 6 then s.laneMod base fun x => { x with gen := 0, genOwed := 0 }
  else
    let (v, s) := s.draw
    s.laneMod base fun x => { x with gen := max 1 (v % 2 ^ 31), genOwed := 0 }

/-- A lane enters TEST on its stored coefficients, or on its board table. -/
def State.testBegin (s : State) (base : Nat) : State :=
  (((s.laneUseStored base).wrb (lnStatus base) 0 true).wrb (lnStatus base) 7 true).genStart base

/-- A lane comes back to MODE PORT from OFF or TEST (R78, R497): in no enabled span, or with its port FAILED, it stays off; in a
Dormant port it is Dormant; while its port is ACTIVE or in REFORM it retries as a lost lane does; in a stage of the bring-up it
is powered and takes part from the port's next DETECT on. That a lane of a FAILED port stays off and that WAKE counts as a
stage are DEDUCED (assumption 46). -/
def State.laneToPort (s : State) (base : Nat) : State :=
  if base < 0x1000000 then
    let s := s.lanePower base true
    if s.laneLive base then s.laneMod base fun x => { x with lost := true } else s
  else
    let st := s.lanePort base
    if st = 0 || st = 7 then s
    else
      let s := s.lanePower base true
      if st = 9 then s.laneDormant base
      else if st = 5 || st = 8 then s.laneMod base fun x => { x with lost := true }
      else if st = 6 then s
      else s.laneMod base fun x => { x with out := true }

/-- MODE takes effect: 0 PORT, 1 TEST, 2 and 3 OFF. A request for TEST that is refused sets MODE to PORT. -/
def State.laneMode (s : State) (base old mode : Nat) : State :=
  let refused := mode = 1 && s.laneSpanned base
  let s := if refused then (s.wrf base 1 0 0).raiseEvt (lnEvt base) 4 else s
  if mode = 1 && !refused then (if old = 1 then s else s.testBegin base)
  else if 2 ≤ mode then ((s.testEnd base).laneDropped base).lanePower base false
  else if old = 0 then s
  else
    let s := if old = 1 then s.laneDropped base else s
    (s.testEnd base).laneToPort base

/-- A lane in a bring-up stage of its port starts that stage again, or its retry, from its board table (R498). -/
def State.laneRestart (s : State) (base : Nat) : State :=
  if s.laneOn base && !s.rdb (lnStatus base) 7 then s.laneUseBoard base else s

/-- A write of LANE.CTL. -/
def State.laneCtlWrite (s : State) (base : Nat) (v : Word) : State :=
  let old := s.rdf base 1 0
  let s := (s.wr base (v &&& 0x0F000073)).laneMode base old (fld 1 0 v)
  if bit 31 v then ((s.laneDropped base).laneForget base).laneRestart base else s

/-- A write of a register of a lane, where its window reaches the lane. -/
def State.laneCfg (s : State) (l : LaneId) (r : Nat) (f : State → Nat → State) : State :=
  s.cfg (laneWindow l + r) fun s => match s.laneAt l with
    | some base => f s base
    | none => s

/-- R497: LANE.CTL is written with MODE OFF. -/
def execLaneModeOff (l : LaneId) (v : Word) (s : State) : Host.Outcome State Fault Refusal :=
  .next (s.laneCfg l 0 fun s base => s.laneCtlWrite base (setBit 1 true v))

/-- R497: LANE.CTL is written with MODE PORT. -/
def execLaneModePort (l : LaneId) (v : Word) (s : State) : Host.Outcome State Fault Refusal :=
  .next (s.laneCfg l 0 fun s base => s.laneCtlWrite base (setFld 1 0 0 v))

/-- R95: LANE.CTL is written with MODE TEST. -/
def execLaneModeTest (l : LaneId) (v : Word) (s : State) : Host.Outcome State Fault Refusal :=
  .next (s.laneCfg l 0 fun s base => s.laneCtlWrite base (setFld 1 0 1 v))

/-- R498: LANE.CTL is written with RESET. -/
def execLaneReset (l : LaneId) (v : Word) (s : State) : Host.Outcome State Fault Refusal :=
  .next (s.laneCfg l 0 fun s base => s.laneCtlWrite base (setBit 31 true v))

/-! ## Board tables (R83) -/

/-- The preset of the board table is valid. -/
def State.boardOk (s : State) (base : Nat) : Bool := firValid (firTaps (s.rd (lnBoardFir base 0)) (s.rd (lnBoardFir base 1)))

/-- A write of a board table word: 0 BOARD_EQ, 1 and 2 the FIR preset. The stored coefficients are discarded. -/
def State.boardWrite (s : State) (base word : Nat) (v : Word) : State :=
  let keep := s.rd (lnBoardEq base) &&& 0x80000000
  let s := if word = 0 then s.wr (lnBoardEq base) ((v &&& 0x001F070F) ||| keep)
    else s.wr (lnBoardFir base (word - 1)) (v &&& 0x00FFFFFF)
  let s := (s.laneForget base).wrb (lnBoardEq base) 31 (!s.boardOk base)
  if word = 0 || s.boardOk base then s else s.raiseEvt (lnEvt base) 0

/-- R83: a word of a lane's board table is written. -/
def execBoardTableWrite (l : LaneId) (word : Fin 3) (v : Word) (s : State) : Host.Outcome State Fault Refusal :=
  .next (s.laneCfg l (0x10 + 4 * word.val) fun s base => s.boardWrite base word v)

/-! ## The generator (R95) -/

/-- The stages of a PRBS pattern and the taps of its feedback. The spec names the patterns alone; the polynomials are those of
IEEE 802.3 and ITU-T O.150 (PRESUMED, assumption 78). -/
def prbsTaps (pattern : Nat) : Nat × List Nat :=
  match pattern with
  | 0 => (7, [7, 6])
  | 1 => (9, [9, 5])
  | 2 => (13, [13, 12, 2, 1])
  | 3 => (15, [15, 14])
  | 4 => (23, [23, 18])
  | _ => (31, [31, 28])

/-- The next bit of a pattern from the generator's state, and its next state: for the user pattern the place in it. -/
def genBit (pattern user gen : Nat) : Bool × Nat :=
  if pattern = 6 then (user.testBit (gen % 64), (gen + 1) % 64)
  else
    let (n, taps) := prbsTaps pattern
    let fb := taps.foldl (fun x i => x != gen.testBit (i - 1)) false
    (fb, (2 * gen + b2n fb) % 2 ^ n)

/-- The next n bits of a pattern, first first, and the state after them. -/
def genBits (pattern user : Nat) : Nat → Nat → List Bool × Nat
  | 0, gen => ([], gen)
  | n + 1, gen =>
    let (x, gen) := genBit pattern user gen
    let (xs, gen) := genBits pattern user n gen
    (x :: xs, gen)

/-- The PAM4 levels of bits: two a symbol, the most significant first, Gray-coded. -/
def grayLevels : List Bool → List Nat
  | x :: y :: rest => (if x then (if y then 2 else 3) else (if y then 1 else 0)) :: grayLevels rest
  | _ => []

/-- TEST_RATE of a lane in thousandths of a bit in one root tick of 160 ps; a silt lane has one rate (R391). -/
def State.testBits (s : State) (base : Nat) : Nat :=
  if base < 0x1000000 then 34000
  else match s.rdf base 6 4 with | 1 => 17000 | 2 => 8500 | 3 => 4125 | 4 => 1650 | _ => 34000

/-- The form that a network lane carries, 0 for none. -/
def State.laneForm (s : State) (base : Nat) : Nat :=
  match s.laneOwner base with
  | some (b, l) => (((List.range 16).find? fun p => (s.runLanes b p).contains l).map fun p => s.runForm b p).getD 0
  | none => 0

/-- The rate of a lane in the same unit: TEST_RATE in TEST, else the lane rate of the form it carries (R77). -/
def State.laneBits (s : State) (base : Nat) : Nat :=
  if base < 0x1000000 || s.rdb (lnStatus base) 7 then s.testBits base
  else match s.laneForm base with | 1 => 1650 | 2 => 4125 | 3 => 8500 | 4 => 17000 | _ => 34000

/-- The lane runs PAM4: in TEST by its rate, else by the lane rate of the form it carries (R77). -/
def State.lanePam4 (s : State) (base : Nat) : Bool := decide (8500 ≤ s.laneBits base)

/-- The generator of a lane in TEST with GEN_EN sends the symbols of one root tick, inverted by INVERT and by POL_TX. -/
def State.genTick (s : State) (base : Nat) : State :=
  let ctl := s.rd (base + 0x80)
  let pam4 := s.lanePam4 base
  let unit := if pam4 then 2000 else 1000
  let owed := (s.lane base).genOwed + s.testBits base
  let n := owed / unit * (unit / 1000)
  let (bits, gen) := genBits (fld 2 0 ctl) ((s.rd (base + 0x88)).toNat + 2 ^ 32 * (s.rd (base + 0x8C)).toNat) n (s.lane base).gen
  let bits := bits.map (· != bit 17 ctl)
  let pol := s.rdb base 25
  let symbols := if pam4 then (grayLevels bits).map fun v => if pol then 3 - v else v else bits.map fun x => b2n (x != pol)
  (s.laneMod base fun x => { x with gen := gen, genOwed := owed % unit }).emit (.laneSymbols (laneNo base) pam4 symbols)

/-! ## The checker (R96, R99) -/

/-- A write of PRBS_CTL; CHK_CLEAR zeroes the test counters and restarts sync. A checker that CHK_EN stops is out of sync, so
that SYNC reads 0 then: the spec gives no value there (DESIGN CHOICE, assumption 79). A write starts the pattern afresh. -/
def State.prbsCtlWrite (s : State) (base : Nat) (v : Word) : State :=
  let s := (s.wr (base + 0x80) (v &&& 0x00030107)).genStart base
  let s := if bit 8 v then s else s.wrb (base + 0x90) 31 false
  if bit 31 v then
    let s := ((s.setCnt (base + 0x98) 0).setCnt (base + 0xA0) 0).setCnt (base + 0xA8) 0
    (s.wrb (base + 0x90) 31 false).laneMod base fun x => { x with bits := 0 }
  else s

/-- R96: PRBS_CTL is written with CHK_CLEAR. -/
def execPrbsChkClear (l : LaneId) (v : Word) (s : State) : Host.Outcome State Fault Refusal :=
  .next (s.laneCfg l 0x80 fun s base => s.prbsCtlWrite base (setBit 31 true v))

/-- A lane's checker runs. -/
def State.prbsRuns (s : State) (base : Nat) : Bool := s.lineOn && s.rdb (lnStatus base) 7 && s.rdb (base + 0x80) 8

/-- A lane's checker is in sync. -/
def State.prbsSync (s : State) (base : Nat) : Bool := s.prbsRuns base && s.rdb (base + 0x90) 31

/-- R96: 128 bits in succession were free of error. -/
def execPrbsSyncAcquire (l : LaneId) (s : State) : Host.Outcome State Fault Refusal :=
  match s.laneAt l with
  | some base => .next (if s.prbsRuns base then s.wrb (base + 0x90) 31 true else s)
  | none => .next s

/-- R96: 128 or more of 1,024 bits are in error; `errors` of them were found in sync and not yet counted. -/
def execPrbsSyncLoss (l : LaneId) (errors : Nat) (s : State) : Host.Outcome State Fault Refusal :=
  match s.laneAt l with
  | some base =>
    .next (if s.prbsSync base then
      let s := s.addCnt (base + 0x98) errors (lnEvt base) 6
      ((s.wrb (base + 0x90) 31 false).wrb (base + 0x90) 30 true).raiseEvt (lnEvt base) 3
    else s)
  | none => .next s

/-- A checker in sync over one root tick: PRBS_CHK counts units of 256 bits, and PRBS_ERR the channel's bit errors, which are
free: fewer than 128, since more of them are a loss of sync (assumption 80). -/
def State.chkTick (s : State) (base : Nat) : State :=
  let n := (s.lane base).bits + s.testBits base
  let errors := min (s.testBits base / 1000) (Config.channelErrors (laneNo base) s.now)
  let s := (s.laneMod base fun x => { x with bits := n % 256000 }).addCnt (base + 0x98) errors (lnEvt base) 6
  if n < 256000 then s else s.addCnt (base + 0xA0) (n / 256000) (lnEvt base) 6

/-! ## Error injection (R97) -/

/-- The injector of a lane acts: INJ_EN is 1 and MANT nonzero, in TEST or while the lane carries an ACTIVE port. -/
def State.injecting (s : State) (base : Nat) : Bool :=
  let w := s.rd (base + 0x84)
  s.lineOn && bit 31 w && fld 15 12 w != 0 && (s.rdb (lnStatus base) 7 || s.laneCarries base)

/-- N: 10^EXP ÷ MANT rounded down, EXP held to 3 to 12 and MANT to at most 9, the rate at most 10^-3. -/
def injEvery (w : Word) : Nat := max 1000 (10 ^ max 3 (min 12 (fld 11 8 w)) / max 1 (min 9 (fld 15 12 w)))

/-- An error event's type in force and its length in bits: on an NRZ lane a symbol event acts as a single bit. -/
def injKind (w : Word) (pam4 : Bool) : Nat × Nat :=
  match fld 27 26 w with
  | 1 => (1, max 2 (fld 25 20 w))
  | 2 => if pam4 then (2, 1) else (0, 1)
  | _ => (0, 1)

/-- A write of PRBS_INJ: with INJ_EN 0 the count of bits between events starts again. -/
def State.prbsInjWrite (s : State) (base : Nat) (v : Word) : State :=
  let s := s.wr (base + 0x84) (v &&& 0x8FF0FF00)
  if bit 31 v then s else s.laneMod base fun x => { x with injBits := 0 }

/-- R97: N bits after the last, the injector places an error event. With near-end loopback the lane's own checker finds it. -/
def execPrbsErrorInject (l : LaneId) (s : State) : Host.Outcome State Fault Refusal :=
  match s.laneAt l with
  | none => .next s
  | some base =>
    let w := s.rd (base + 0x84)
    let due := 1000 * injEvery w
    if !s.injecting base || (s.lane base).injBits < due then .next s
    else
      let (kind, len) := injKind w (s.lanePam4 base)
      let s := s.laneMod base fun x => { x with injBits := x.injBits - due }
      let s := (s.inc (base + 0xA8) (lnEvt base) 6).emit (.prbsInject (laneNo base) kind len)
      .next (if s.prbsSync base && s.rdf base 27 26 = 1 && s.rdb (base + 0x80) 16 then s.addCnt (base + 0x98) len (lnEvt base) 6 else s)

/-! ## A root tick of the lanes -/

/-- The first registers of all lanes. -/
def allLaneRegs : List Nat :=
  (List.range 256).map (fun i => offLaneCtl (i / 16) (i % 16)) ++ (List.range 64).map fun n => 0x490000 + 0x1000 * n

/-- A root tick of one lane: its generator, its injector's count and its checker. -/
def State.laneTick (s : State) (base : Nat) : State :=
  let s := if s.rdb (lnStatus base) 7 && s.rdb (base + 0x80) 16 then s.genTick base else s
  let s := if s.rdb (base + 0x84) 31 && s.injecting base then
    s.laneMod base fun x => { x with injBits := x.injBits + s.laneBits base } else s
  if s.prbsSync base then s.chkTick base else s

/-- A root tick of the lanes, which run while the line island is ON. -/
def State.prbsTick (s : State) : State :=
  if s.lineOn then allLaneRegs.foldl (fun s base => s.laneTick base) s else s

end Sys2Proof.Machine
end

