-- ==== Sys2Proof/Machine/Crypto.lean ====
section
/-! DEFINITION. The algorithms that the spec calls by their names: SHA-384, ECDSA over P-384 and AES-256-GCM (R421, R466,
R469, R481). The spec does not print them; they are taken from their standards (PRESUMED, assumption 24). -/

namespace Sys2Proof.Machine

/-! ## SHA-384 -/

/-- The eighty round constants of SHA-384. -/
def shaK : List (BitVec 64) :=
  [0x428A2F98D728AE22, 0x7137449123EF65CD, 0xB5C0FBCFEC4D3B2F, 0xE9B5DBA58189DBBC,
    0x3956C25BF348B538, 0x59F111F1B605D019, 0x923F82A4AF194F9B, 0xAB1C5ED5DA6D8118,
    0xD807AA98A3030242, 0x12835B0145706FBE, 0x243185BE4EE4B28C, 0x550C7DC3D5FFB4E2,
    0x72BE5D74F27B896F, 0x80DEB1FE3B1696B1, 0x9BDC06A725C71235, 0xC19BF174CF692694,
    0xE49B69C19EF14AD2, 0xEFBE4786384F25E3, 0x0FC19DC68B8CD5B5, 0x240CA1CC77AC9C65] ++
  [0x2DE92C6F592B0275, 0x4A7484AA6EA6E483, 0x5CB0A9DCBD41FBD4, 0x76F988DA831153B5,
    0x983E5152EE66DFAB, 0xA831C66D2DB43210, 0xB00327C898FB213F, 0xBF597FC7BEEF0EE4,
    0xC6E00BF33DA88FC2, 0xD5A79147930AA725, 0x06CA6351E003826F, 0x142929670A0E6E70,
    0x27B70A8546D22FFC, 0x2E1B21385C26C926, 0x4D2C6DFC5AC42AED, 0x53380D139D95B3DF,
    0x650A73548BAF63DE, 0x766A0ABB3C77B2A8, 0x81C2C92E47EDAEE6, 0x92722C851482353B] ++
  [0xA2BFE8A14CF10364, 0xA81A664BBC423001, 0xC24B8B70D0F89791, 0xC76C51A30654BE30,
    0xD192E819D6EF5218, 0xD69906245565A910, 0xF40E35855771202A, 0x106AA07032BBD1B8,
    0x19A4C116B8D2D0C8, 0x1E376C085141AB53, 0x2748774CDF8EEB99, 0x34B0BCB5E19B48A8,
    0x391C0CB3C5C95A63, 0x4ED8AA4AE3418ACB, 0x5B9CCA4F7763E373, 0x682E6FF3D6B2B8A3,
    0x748F82EE5DEFB2FC, 0x78A5636F43172F60, 0x84C87814A1F0AB72, 0x8CC702081A6439EC] ++
  [0x90BEFFFA23631E28, 0xA4506CEBDE82BDE9, 0xBEF9A3F7B2C67915, 0xC67178F2E372532B,
    0xCA273ECEEA26619C, 0xD186B8C721C0C207, 0xEADA7DD6CDE0EB1E, 0xF57D4F7FEE6ED178,
    0x06F067AA72176FBA, 0x0A637DC5A2C898A6, 0x113F9804BEF90DAE, 0x1B710B35131C471B,
    0x28DB77F523047D84, 0x32CAAB7B40C72493, 0x3C9EBE0A15C9BEBC, 0x431D67C49C100D4C,
    0x4CC5D4BECB3E42B6, 0x597F299CFC657E2A, 0x5FCB6FAB3AD6FAEC, 0x6C44198C4A475817]

/-- The hash value that SHA-384 starts from. -/
def shaInit : List (BitVec 64) :=
  [0xCBBB9D5DC1059ED8, 0x629A292A367CD507, 0x9159015A3070DD17, 0x152FECD8F70E5939,
    0x67332667FFC00B31, 0x8EB44A8768581511, 0xDB0C2E0D64F98FA7, 0x47B5481DBEFA4FA4]

/-- Rotation and shift mixes of SHA-384. -/
def shaMix (a b c : Nat) (x : BitVec 64) : BitVec 64 := x.rotateRight a ^^^ x.rotateRight b ^^^ x.rotateRight c
def shaSmall (a b c : Nat) (x : BitVec 64) : BitVec 64 := x.rotateRight a ^^^ x.rotateRight b ^^^ (x >>> c)

/-- The message schedule, latest word first. -/
def shaSchedule (ws : List (BitVec 64)) : List (BitVec 64) :=
  (List.range 64).foldl (fun w _ =>
    (shaSmall 19 61 6 (w.getD 1 0) + w.getD 6 0 + shaSmall 1 8 7 (w.getD 14 0) + w.getD 15 0) :: w) ws.reverse

/-- One round on the eight working words. -/
def shaRound (v : List (BitVec 64)) (kw : BitVec 64) : List (BitVec 64) :=
  match v with
  | [a, b, c, d, e, f, g, h] =>
    let t1 := h + shaMix 14 18 41 e + ((e &&& f) ^^^ (~~~ e &&& g)) + kw
    let t2 := shaMix 28 34 39 a + ((a &&& b) ^^^ (a &&& c) ^^^ (b &&& c))
    [t1 + t2, a, b, c, d + t1, e, f, g]
  | v => v

/-- One 128-byte block. -/
def shaBlock (h : List (BitVec 64)) (block : List Byte) : List (BitVec 64) :=
  let ws := (List.range 16).map fun i => BitVec.ofNat 64 (beAt block (8 * i) 8)
  let kw := (shaK.zip (shaSchedule ws).reverse).map fun e => e.1 + e.2
  (h.zip (kw.foldl shaRound h)).map fun e => e.1 + e.2

/-- A message padded to whole blocks. -/
def shaPad (m : List Byte) : List Byte :=
  m ++ [0x80] ++ List.replicate ((239 - m.length % 128) % 128) 0 ++ beBytes 16 (8 * m.length)

/-- The 48 bytes of SHA-384. -/
def sha384 (m : List Byte) : List Byte :=
  let p := shaPad m
  let h := (List.range (p.length / 128)).foldl (fun h i => shaBlock h (bytesAt p (128 * i) 128)) shaInit
  (h.take 6).flatMap fun x => beBytes 8 x.toNat

/-! ## ECDSA over P-384 -/

/-- The prime, the second coefficient and the order of P-384; the first coefficient is -3. -/
def p384P : Nat := 2 ^ 384 - 2 ^ 128 - 2 ^ 96 + 2 ^ 32 - 1
def p384B : Nat := 0xB3312FA7E23EE7E4988E056BE3F82D19181D9C6EFE8141120314088F5013875AC656398D8A2ED19D2A85C8EDD3EC2AEF
def p384N : Nat := 0xFFFFFFFFFFFFFFFFFFFFFFFFFFFFFFFFFFFFFFFFFFFFFFFFC7634D81F4372DDF581A0DB248B0A77AECEC196ACCC52973

/-- The base point. -/
def p384G : Nat × Nat :=
  (0xAA87CA22BE8B05378EB1C71EF320AD746E1D3B628BA79B9859F741E082542A385502F25DBF55296C3A545E3872760AB7,
   0x3617DE4A96262C6F5D9E98BF9292DC29F8F41DBD289A147CE9DA3113B5F0B8C00A60B1CE1D7E819D7A431D7C90EA0E5F)

/-- b to the e modulo m, for e of n bits. -/
def powMod (m b e n : Nat) : Nat :=
  (List.range n).foldr (fun i acc => acc * acc % m * (if e.testBit i then b else 1) % m) (1 % m)

/-- The inverse modulo a prime of 384 bits. -/
def invMod (m a : Nat) : Nat := powMod m (a % m) (m - 2) 384

/-- The point of a chord or tangent of slope l through two points. -/
def chord (l : Nat) (a b : Nat × Nat) : Nat × Nat :=
  let x := (l * l + 2 * p384P - a.1 - b.1) % p384P
  (x, (l * (a.1 + p384P - x) + p384P - a.2) % p384P)

/-- The sum of two points; none is the neutral one. -/
def pointAdd (a b : Option (Nat × Nat)) : Option (Nat × Nat) :=
  match a, b with
  | none, b => b
  | a, none => a
  | some a, some b =>
    if a.1 = b.1 then
      if (a.2 + b.2) % p384P = 0 then none
      else some (chord ((3 * a.1 * a.1 + p384P - 3) * invMod p384P (2 * a.2) % p384P) a b)
    else some (chord ((b.2 + p384P - a.2) * invMod p384P (b.1 + p384P - a.1) % p384P) a b)

/-- A multiple of a point. -/
def pointMul (n : Nat) (a : Option (Nat × Nat)) : Option (Nat × Nat) :=
  (List.range 384).foldr (fun i acc =>
    let d := pointAdd acc acc
    if n.testBit i then pointAdd d a else d) none

/-- A public key is a point of the curve. -/
def onCurve (q : Nat × Nat) : Bool :=
  q.1 < p384P && q.2 < p384P &&
    (q.2 * q.2 % p384P == (q.1 * q.1 * q.1 + (p384P - 3) * q.1 + p384B) % p384P)

/-- The signature (r, s) of a message verifies under a public key. -/
def ecdsaVerify (q : Nat × Nat) (r s : Nat) (m : List Byte) : Bool :=
  if !onCurve q || r = 0 || s = 0 || p384N ≤ r || p384N ≤ s then false
  else
    let w := invMod p384N s
    let z := beNat (sha384 m)
    match pointAdd (pointMul (z * w % p384N) (some p384G)) (pointMul (r * w % p384N) (some q)) with
    | some x => x.1 % p384N == r
    | none => false

/-- The signature check of R421 and R470 on the bytes of r, s and of x, y, each a value of 48 bytes laid out as R6 and R7 have
it, least significant byte first (DEDUCED, assumption 24). -/
def sigVerify (key sig m : List Byte) : Bool :=
  let n := fun (bs : List Byte) (i : Nat) => leNat (bytesAt bs (48 * i) 48)
  ecdsaVerify (n key 0, n key 1) (n sig 0) (n sig 1) m

/-! ## AES-256-GCM -/

/-- Twice an element of the field of AES, and a product in it. -/
def aesX2 (a : Byte) : Byte := (a <<< 1) ^^^ (if a.msb then 0x1B else 0)
def aesMul (a b : Byte) : Byte :=
  (List.range 8).foldr (fun i acc => aesX2 acc ^^^ (if b.getLsbD i then a else 0)) 0

/-- The substitution of AES: the inverse (the 254th power), then the affine map. -/
def aesSub (a : Byte) : Byte :=
  let sq := fun x => aesMul x x
  let a2 := sq a
  let a4 := sq a2
  let a8 := sq a4
  let a16 := sq a8
  let a32 := sq a16
  let a64 := sq a32
  let i := aesMul (aesMul (aesMul a2 a4) (aesMul a8 a16)) (aesMul (aesMul a32 a64) (sq a64))
  i ^^^ i.rotateLeft 1 ^^^ i.rotateLeft 2 ^^^ i.rotateLeft 3 ^^^ i.rotateLeft 4 ^^^ 0x63

/-- Bytes added in the field. -/
def xorBytes (a b : List Byte) : List Byte := (a.zip b).map fun e => e.1 ^^^ e.2

/-- The next eight words of the key schedule, in bytes, from the last eight. -/
def aesKeyStep (prev : List Byte) (rcon : Byte) : List Byte :=
  let w := fun i => bytesAt prev (4 * i) 4
  let rot := (bytesAt prev 29 3 ++ bytesAt prev 28 1).map aesSub
  let w0 := xorBytes (w 0) (xorBytes rot [rcon, 0, 0, 0])
  let w1 := xorBytes (w 1) w0
  let w2 := xorBytes (w 2) w1
  let w3 := xorBytes (w 3) w2
  let w4 := xorBytes (w 4) (w3.map aesSub)
  let w5 := xorBytes (w 5) w4
  let w6 := xorBytes (w 6) w5
  w0 ++ w1 ++ w2 ++ w3 ++ w4 ++ w5 ++ w6 ++ xorBytes (w 7) w6

/-- The fifteen round keys of a key of 32 bytes, in a row. -/
def aesKeys (key : List Byte) : List Byte :=
  ((List.range 7).foldl (fun (a : List Byte × List Byte) i =>
    let n := aesKeyStep a.2 (BitVec.ofNat 8 (2 ^ i))
    (a.1 ++ n, n)) (key, key)).1

/-- One column of a round mixed. -/
def aesMixCol (c : List Byte) : List Byte :=
  (List.range 4).map fun i =>
    aesX2 (c.getD i 0) ^^^ aesX2 (c.getD ((i + 1) % 4) 0) ^^^ c.getD ((i + 1) % 4) 0 ^^^ c.getD ((i + 2) % 4) 0 ^^^
      c.getD ((i + 3) % 4) 0

/-- Substitution and row shift of a state of 16 bytes, column by column. -/
def aesShift (b : List Byte) : List Byte :=
  let t := b.map aesSub
  (List.range 16).map fun i => t.getD ((i + 4 * (i % 4)) % 16) 0

/-- One block enciphered under the round keys. -/
def aesBlock (keys b : List Byte) : List Byte :=
  let k := fun i => bytesAt keys (16 * i) 16
  let mid := (List.range 13).foldl (fun b i =>
    let t := aesShift b
    xorBytes ((List.range 4).flatMap fun c => aesMixCol (bytesAt t (4 * c) 4)) (k (i + 1))) (xorBytes b (k 0))
  xorBytes (aesShift mid) (k 14)

/-- The product of GHASH. -/
def gcmMul (x y : BitVec 128) : BitVec 128 :=
  ((List.range 128).foldl (fun (a : BitVec 128 × BitVec 128) i =>
    let z := if x.getMsbD i then a.1 ^^^ a.2 else a.1
    (z, (a.2 >>> 1) ^^^ (if a.2.getLsbD 0 then 0xE1 <<< 120 else 0))) (0, y)).1

/-- GHASH of whole blocks. -/
def ghash (h : BitVec 128) (m : List Byte) : BitVec 128 :=
  (List.range (m.length / 16)).foldl (fun y i => gcmMul (y ^^^ BitVec.ofNat 128 (beAt m (16 * i) 16)) h) 0

/-- Bytes padded with zeros to whole blocks. -/
def pad16 (m : List Byte) : List Byte := m ++ List.replicate ((16 - m.length % 16) % 16) 0

/-- AES-256-GCM with a nonce of 12 bytes and no further data: the plaintext, where the tag authenticates it. -/
def gcmOpen (key nonce tag cipher : List Byte) : Option (List Byte) :=
  let keys := aesKeys key
  let block := fun i => aesBlock keys (nonce ++ beBytes 4 i)
  let h := BitVec.ofNat 128 (beNat (aesBlock keys (List.replicate 16 0)))
  let sum := ghash h (pad16 cipher ++ beBytes 16 (8 * cipher.length))
  if xorBytes (beBytes 16 sum.toNat) (block 1) = tag then
    some ((List.range ((cipher.length + 15) / 16)).flatMap fun i => xorBytes ((cipher.drop (16 * i)).take 16) (block (i + 2)))
  else none

end Sys2Proof.Machine
end

