-- ==== Sys2Proof/Machine/Tilth.lean ====
section
/-! DEFINITION. Tilth engines: the load port, roles, safe points, machine checks, takeover and handover (chapter 17, R416 to
R433). -/

namespace Sys2Proof.Machine

/-! ## Engines and roles -/

/-- An engine, and a role, beside its registers. -/
def State.eng (s : State) (e : Nat) : EngSt := sget (fun _ => {}) s.tilth.engines e
def State.role (s : State) (r : Nat) : RoleSt := sget (fun _ => {}) s.tilth.roles r

/-- The tilth state, an engine's or a role's part of it, is changed. -/
def State.tilthMod (s : State) (f : Tilth → Tilth) : State := { s with tilth := f s.tilth }
def State.engMod (s : State) (e : Nat) (f : EngSt → EngSt) : State :=
  s.tilthMod fun t => { t with engines := smod (fun _ => {}) t.engines e f }
def State.roleMod (s : State) (r : Nat) (f : RoleSt → RoleSt) : State :=
  s.tilthMod fun t => { t with roles := smod (fun _ => {}) t.roles r f }

/-- STATE of an engine: 0 EMPTY, 1 LOADING, 2 READY, 3 RUNNING, 4 HALTED, 5 MAPPED (R423). -/
def State.engState (s : State) (e : Nat) : Nat := if s.mapped 5 e then 5 else s.rdf (offEngStatus e) 31 29

/-- STATE goes to a value. -/
def State.engGo (s : State) (e st : Nat) : State := s.wrf (offEngStatus e) 31 29 st

/-- Events and counters of the tilth unit. -/
def State.tilthEvt (s : State) (i : Nat) : State := s.raiseEvt offTilthEvt i
def State.tilthCnt (s : State) (i : Nat) : State := s.inc (offTilthCnt i) offTilthEvt 7

/-- An engine is EMPTY: it holds no image, and no store. -/
def State.engEmpty (s : State) (e : Nat) : State :=
  let s := (s.wr (offEngStatus e) 0x1F000000).stopTimer (.tilthWd e)
  ((s.wr (offEngVersion e) 0).wr (offEngRoleMask e) 0).engMod e fun _ => {}

/-- An engine's store is cleared for a load (R423). -/
def State.engLoading (s : State) (e : Nat) : State := (s.engEmpty e).engGo e 1

/-! ## Images (R420, R421) -/

/-- Word i of an image's header. -/
def imgWord (img : List Byte) (i : Nat) : Word := BitVec.ofNat 32 (leNat (bytesAt img (4 * i) 4))

/-- Fields of the header. -/
def imgWords (img : List Byte) : Nat := fld 30 16 (imgWord img 4)
def imgEntry (img : List Byte) : Nat := fld 13 0 (imgWord img 4)
def imgFormat (img : List Byte) : Nat := fld 31 24 (imgWord img 5)
def imgKey (img : List Byte) : Nat := fld 7 0 (imgWord img 5)

/-- The image may serve a role. -/
def imgServes (img : List Byte) (r : Nat) : Bool := (imgWord img 2).getLsbD r

/-- An engine can start from a record of a format with an image (R429). -/
def imgReads (img : List Byte) (fmt : Nat) : Bool :=
  fld 23 16 (imgWord img 5) ≤ fmt && fmt ≤ fld 15 8 (imgWord img 5)

/-- Slot i of a set of keys verifies a public key: its fuse hash is the key's SHA-384 and it is not revoked (R466). Set 0 is
the debug keys, set 1 the image keys. -/
def State.keyOk (s : State) (set slot : Nat) (key : List Byte) : Bool :=
  slot ≤ 7 && !s.pwr.revoked.getLsbD (8 * set + slot) &&
    leWords (sha384 key) == (List.range 12).map fun i => Config.keyHash ((8 * set + slot) * 12 + i)

/-- The plaintext of an image's body, where its tag authenticates it. -/
def State.imgPlain (s : State) (img : List Byte) : Option (List Byte) :=
  gcmOpen (leBytes 32 (Config.imageKey (lifecycleOf s.pwr.lifeSensed)).toNat) (bytesAt img 24 12) (bytesAt img 36 16)
    (img.drop 256)

/-- The words of a control store from an image's plaintext. -/
def storeWords (plain : List Byte) : List (BitVec 96) :=
  (List.range (plain.length / 12)).map fun i => BitVec.ofNat 96 (leNat (bytesAt plain (12 * i) 12))

/-- The RESULT of the checks of R421 on an image, 1 where it passes; `storeOk` tells that the store read back clean. -/
def State.imgCheck (s : State) (img : List Byte) (storeOk : Bool) : Nat :=
  if img.length ≠ 256 + 12 * imgWords img then 8
  else if imgWord img 0 ≠ 0x48544C54 || fld 31 24 (imgWord img 1) ≠ 1 || imgWords img = 0 || 16384 < imgWords img ||
    imgWords img ≤ imgEntry img then 2
  else if !s.keyOk 1 (imgKey img) (bytesAt img 148 96) then 3
  else if !sigVerify (bytesAt img 148 96) (bytesAt img 52 96) (img.take 52 ++ img.drop 256) then 4
  else if (imgWord img 3).toNat < (s.rd offMinVersion).toNat then 6
  else if fld 23 0 (imgWord img 2) = 0 then 7
  else if (s.imgPlain img).isNone then 5
  else if !storeOk then 10
  else 1

/-- MEAS is extended with a digest of a type (R481). -/
def State.measExtend (s : State) (type : Byte) (digest : List Byte) : State :=
  let old := wordBytes (s.rds (offMeas 0) 12)
  (s.wrs (offMeas 0) (leWords (sha384 (old ++ type :: digest)))).wr offMeasCount (s.rd offMeasCount + 1)

/-- An image has passed: its engine is READY. -/
def State.engReady (s : State) (e : Nat) (img : List Byte) : State :=
  let plain := (s.imgPlain img).getD []
  let s := (s.engGo e 2).engMod e fun _ => { image := some img, store := storeWords plain }
  let s := (s.wr (offEngVersion e) (imgWord img 3)).wr (offEngRoleMask e) (w32 (fld 23 0 (imgWord img 2)))
  (s.tilthEvt 3).tilthCnt 2

/-- An image has failed, or its load was given up: its engine is EMPTY. -/
def State.engFailed (s : State) (e : Nat) : State := ((s.engEmpty e).tilthEvt 4).tilthCnt 3

/-! ## The load port (R420, R421, R423, R424) -/

/-- RESULT of the load port. -/
def State.loadResult (s : State) (n : Nat) : State := s.wrf offLoadCtl 27 24 n

/-- START: the target's store is cleared and a load begins, or the target is busy. A load under way is given up; while its
checks run a START has no effect. -/
def State.loadStart (s : State) : State :=
  let e := s.rdf offLoadCtl 20 16
  let mine := s.tilth.load.map (·.1) == some e
  if s.rdb offLoadCtl 28 then s
  else if 26 ≤ e || s.engState e = 3 || s.engState e = 5 || (s.engState e = 1 && !mine) then s.loadResult 9
  else
    let s := match s.tilth.load with
      | some (old, _) => s.engEmpty old
      | none => s
    (((s.engLoading e).tilthMod fun t => { t with load := some (e, []) }).wr offLoadCount 0).loadResult 0

/-- FINISH: the checks begin. -/
def State.loadFinish (s : State) : State := if s.tilth.load.isSome then s.wrb offLoadCtl 28 true else s

/-- ABORT: the load is discarded. -/
def State.loadAbort (s : State) : State :=
  match s.tilth.load with
  | some (e, _) => (((s.engFailed e).tilthMod fun t => { t with load := none }).wrb offLoadCtl 28 false).loadResult 11
  | none => s

/-- A write of LOAD.CTL by a path; START and FINISH are judged by the write map (R475). -/
def State.loadCtlWrite (s : State) (port : Bool) (v : Word) : State :=
  let s := s.wrf offLoadCtl 20 16 (fld 20 16 v)
  let act := fun (s : State) =>
    let s := if bit 31 v then s.loadStart else s
    if bit 30 v then s.loadFinish else s
  let s := if bit 31 v || bit 30 v then s.lk port offLoadCtl .load act else s
  if bit 29 v then s.loadAbort else s

/-- A write of LOAD.DATA by a path: the next four bytes. -/
def State.loadDataWrite (s : State) (port : Bool) (v : Word) : State :=
  s.lk port offLoadData .load fun s =>
    match s.tilth.load with
    | some (e, bs) =>
      if s.rdb offLoadCtl 28 then s
      else
        (s.tilthMod fun t => { t with load := some (e, bs ++ leBytes 4 v.toNat) }).wr offLoadCount (s.rd offLoadCount + 4)
    | none => s

/-- R423: LOAD.CTL is written with START. -/
def execLoadStart (v : Word) (s : State) : Host.Outcome State Fault Refusal :=
  .next (s.cfg offLoadCtl fun s => s.loadCtlWrite false (setBit 31 true v))

/-- R421: LOAD.CTL is written with FINISH. -/
def execLoadFinish (v : Word) (s : State) : Host.Outcome State Fault Refusal :=
  .next (s.cfg offLoadCtl fun s => s.loadCtlWrite false (setBit 30 true v))

/-- R423: LOAD.CTL is written with ABORT. -/
def execLoadAbort (v : Word) (s : State) : Host.Outcome State Fault Refusal :=
  .next (s.cfg offLoadCtl fun s => s.loadCtlWrite false (setBit 29 true v))

/-- R420: LOAD.DATA is written. -/
def execLoadData (v : Word) (s : State) : Host.Outcome State Fault Refusal :=
  .next (s.cfg offLoadData fun s => s.loadDataWrite false v)

/-- R421: the checks of the received image end. -/
def execLoadCheckDone (storeOk : Bool) (s : State) : Host.Outcome State Fault Refusal :=
  match s.tilth.load with
  | some (e, img) =>
    if !s.rdb offLoadCtl 28 then .next s
    else
      let n := s.imgCheck img storeOk
      let s := ((s.tilthMod fun t => { t with load := none }).wrb offLoadCtl 28 false).loadResult n
      if n = 1 then .next (((s.engReady e img).measExtend 1 (sha384 (img.take 256))).marlBump 16)
      else .next (s.engFailed e)
  | none => .next s

/-! ## Serving a role (R417, R425, R429) -/

/-- Work of a role that waited while no engine served it goes on. -/
def State.roleWork (s : State) (r : Nat) : State :=
  if r ≤ 16 then (List.range 16).foldl (fun s p => s.portWake r p) s
  else if r = 22 then s.siltWake
  else s

/-- An engine starts serving a role, at its image's ENTRY with the role's resume record. -/
def State.roleServe (s : State) (r e : Nat) : State :=
  let entry := imgEntry ((s.eng e).image.getD [])
  let s := (s.wr (offEngStatus e) (w32 (3 * 2 ^ 29 + r * 2 ^ 24 + entry))).startTimer (.tilthWd e) 167772
  let s := s.wr (offRoleStatus r) (setFld 28 24 e (setBit 31 true (s.rd (offRoleStatus r))))
  (s.roleMod r fun x => { x with takeover := none }).roleWork r

/-- No engine serves a role. -/
def State.roleIdle (s : State) (r : Nat) : State :=
  s.wr (offRoleStatus r) (setFld 28 24 31 (setFld 31 30 0 (s.rd (offRoleStatus r))))

/-- An engine is READY with an image that may serve a role. -/
def State.engFit (s : State) (r e : Nat) : Bool :=
  e < 26 && s.engState e == 2 && match (s.eng e).image with | some img => imgServes img r | none => false

/-- An engine's image can start from a role's resume record; any image starts from an empty one. -/
def State.recordFit (s : State) (r e : Nat) : Bool :=
  match (s.role r).record with
  | some (fmt, _) => imgReads ((s.eng e).image.getD []) fmt
  | none => true

/-- An ASSIGN or a HANDOVER is refused (R424). -/
def State.roleRefuse (s : State) (r : Nat) : State := (s.wrb (offRoleStatus r) 29 true).tilthEvt 6

/-- ASSIGN of an engine to an unserved role; a takeover that was under way is given up. -/
def State.roleAssign (s : State) (r e : Nat) : State :=
  if s.roleServed r || !s.engFit r e then s.roleRefuse r
  else
    let s := match (s.role r).takeover with
      | some o => if s.engState o = 1 then s.engEmpty o else s
      | none => s
    let s := s.wrf (offRoleStatus r) 23 0 0
    (s.roleMod r fun _ => { recallImg := (s.eng e).image }).roleServe r e

/-- HANDOVER of a served role to an engine waits for the next safe point. -/
def State.roleHandover (s : State) (r e : Nat) : State :=
  if !s.roleServed r || !s.engFit r e then s.roleRefuse r
  else (s.wrb (offRoleStatus r) 30 true).roleMod r fun x => { x with target := e }

/-- A write of ROLE[r].CTL. -/
def State.roleCtlWrite (s : State) (r : Nat) (v : Word) : State :=
  let s := s.wr (offRoleCtl r) (v &&& 0x1FBF8000)
  let e := fld 28 24 v
  let s := if bit 31 v then s.roleAssign r e else s
  let s := if bit 30 v then s.roleHandover r e else s
  if bit 29 v && s.roleServed r then s.roleMod r fun x => { x with abort := true } else s

/-- R425: ROLE[r].CTL is written with ASSIGN. -/
def execRoleAssign (r : Fin 24) (v : Word) (s : State) : Host.Outcome State Fault Refusal :=
  .next (s.cfg (offRoleCtl r) fun s => s.roleCtlWrite r (setBit 31 true v))

/-- R431: ROLE[r].CTL is written with HANDOVER. -/
def execRoleHandover (r : Fin 24) (v : Word) (s : State) : Host.Outcome State Fault Refusal :=
  .next (s.cfg (offRoleCtl r) fun s => s.roleCtlWrite r (setBit 30 true v))

/-- R432: ROLE[r].CTL is written with ABORT. -/
def execRoleAbort (r : Fin 24) (v : Word) (s : State) : Host.Outcome State Fault Refusal :=
  .next (s.cfg (offRoleCtl r) fun s => s.roleCtlWrite r (setBit 29 true v))

/-- R423: CLEAR returns a READY engine to EMPTY. -/
def execEngineClear (e : Fin 26) (s : State) : Host.Outcome State Fault Refusal :=
  .next (if s.lineOn && s.engState e = 2 then s.engEmpty e else s)

/-! ## Safe points (R428, R429, R432) -/

/-- ABORT of a bed role: ports in bring-up, re-form or wake go to DISABLED; a reseed of BED16 ends. -/
def State.abortBed (s : State) (r : Nat) : State :=
  let s := (List.range 16).foldl (fun s p =>
    if s.midStage r p then
      s.toDisabled r p (s.runLanes r p ++ s.fullLanes r p) else s) s
  if r = 16 && !s.harm.returning && (s.swapState == 2 || s.swapState == 3) then s.swapAbort 1 else s

/-- ABORT of the MEM1 role: links in bring-up or sparing go to GAP, drains pause. -/
def State.abortSilt (s : State) : State :=
  (List.range 8).foldl (fun s k =>
    let st := s.siltState k
    let last := s.rdf (offSiltStatus k) 27 24
    if 1 ≤ st && st ≤ 4 then s.siltGap k last
    else if s.siltActive k && (s.siltSt k).mapPending.isSome then s.siltFault k last
    else if s.modState k = 2 then s.siltMod k fun x => { x with paused := true }
    else s) s

/-- The running routines of a role end (R432). A scrub pass and a weathering sample hold nothing that shows. -/
def State.roleAborted (s : State) (r : Nat) : State :=
  if r ≤ 16 then s.abortBed r
  else if r = 21 then s.harmMod fun h => { h with repairs := [] }
  else if r = 22 then s.abortSilt
  else s

/-- An equalizer set that an engine commits for a lane, within R84. -/
def State.laneRetune (s : State) (base : Nat) (ask : EqAsk) : State :=
  (s.laneTrain base ask).laneMod base fun l => { l with trained := (s.lane base).trained }

/-- The pending handover of a role at its serving engine's safe point. -/
def State.handOverRole (s : State) (r e : Nat) : State :=
  let n := (s.role r).target
  let s := s.wrb (offRoleStatus r) 30 false
  if !s.engFit r n || !s.recordFit r n then s.roleRefuse r
  else
    let s := (s.engEmpty e).roleMod r fun x => { x with recallImg := (s.eng n).image }
    (s.roleServe r n).tilthEvt 5

/-- An engine's safe point: its settings take effect, its record is written, and what waits for it is taken: the writes of FORM
that came in a stage (R100), then ABORT, then a handover. -/
def State.safePoint (s : State) (r e addr id routine : Nat) (record : List Byte) (sets : List (LocalIx × EqAsk)) : State :=
  let fmt := imgFormat ((s.eng e).image.getD [])
  let s := (s.wrf (offEngStatus e) 13 0 addr).startTimer (.tilthWd e) 167772
  let s := if r ≤ 16 then sets.foldl (fun s a => s.onLanes r [a.1.val] fun s base => s.laneRetune base a.2) s else s
  let s := s.wrf (offRoleStatus r) 23 0 (routine * 65536 + id * 256 + fmt)
  let x := s.role r
  let s := s.roleMod r fun y => { y with record := some (fmt, bytesAt record 0 256), abort := false, wake := false }
  let s := if r ≤ 16 then (List.range 16).foldl (fun s p => s.formDue r p) s else s
  let s := if x.abort then s.roleAborted r else s
  let s := if s.rdb (offRoleStatus r) 30 then s.handOverRole r e else s
  if x.wake then s.roleWork r else s

/-- R429: an engine executes the CLASS 3 word at an address, which marks a safe point. -/
def execSafePoint (e : Fin 26) (addr : BitVec 14) (routine : Byte) (record : List Byte) (sets : List (LocalIx × EqAsk))
    (s : State) : Host.Outcome State Fault Refusal :=
  let w := (s.eng e).store.getD addr.toNat 0
  if s.engState e = 3 && w.toNat / 2 ^ 91 = 7 then
    .next (s.safePoint (s.rdf (offEngStatus e) 28 24) e addr.toNat (w.toNat / 2 ^ 85 % 64) routine.toNat record sets)
  else .next s

/-! ## Machine checks and takeover (R426, R427, R430) -/

/-- An engine that another role's takeover has chosen. -/
def State.engTaken (s : State) (r e : Nat) : Bool :=
  s.tilth.roles.any fun x => x.1 != r && x.2.takeover == some e

/-- A role stays unserved: the loss of redundancy is reported (R417). -/
def State.roleUnserved (s : State) (r : Nat) : State :=
  ((s.roleMod r fun x => { x with takeover := none }).tilthEvt 2).emit (.redundancyLost r)

/-- The engine that takes a role over is chosen, or the role stays unserved. -/
def State.chooseTakeover (s : State) (r : Nat) : State :=
  let recallImg := (s.role r).recallImg
  let ready := (List.range 26).find? fun e =>
    s.engState e == 2 && recallImg.isSome && (s.eng e).image == recallImg && !s.engTaken r e
  let empty := (List.range 26).find? fun e => s.engState e == 0
  if !s.rdb (offRoleCtl r) 15 || recallImg.isNone then s.roleUnserved r
  else match ready, empty with
  | some e, _ => s.roleMod r fun x => { x with takeover := some e }
  | none, some e => (s.engLoading e).roleMod r fun x => { x with takeover := some e }
  | none, none => s.roleUnserved r

/-- The engine of a role has halted: the takeover falls to a pending handover's target or to an engine that holds or can be
given the recall image. -/
def State.roleLost (s : State) (r : Nat) : State :=
  let pend := s.rdb (offRoleStatus r) 30
  let n := (s.role r).target
  let s := s.roleIdle r
  if pend && s.engFit r n && s.recordFit r n then s.roleMod r fun x => { x with takeover := some n }
  else (if pend then s.roleRefuse r else s).chooseTakeover r

/-- A machine check halts an engine. What it wrote since its last safe point was never visible, and is discarded (R427). -/
def State.machineCheck (s : State) (e cause groups addr : Nat) : State :=
  let r := s.rdf (offEngStatus e) 28 24
  let s := (s.wr (offEngStatus e) (w32 (4 * 2 ^ 29 + 31 * 2 ^ 24 + addr))).stopTimer (.tilthWd e)
  let s := s.wr (offEngMc e) (w32 (cause * 2 ^ 28 + groups * 2 ^ 24 + addr))
  let s := (s.tilthCnt 0).tilthEvt 0
  (if cause = 1 then s.detectEngine e else s).roleLost r

/-- The parity groups of a fetched word that fail: its 96 data bits with parity bits 99 to 96 (R418). -/
def parityGroups (w : BitVec 100) : Nat :=
  ((List.range 4).filter fun k =>
    ((List.range 24).foldl (fun p i => p ^^ w.getLsbD (24 * k + i)) (w.getLsbD (96 + k)))).foldl (fun n k => n + 2 ^ k) 0

/-- A store's word with its parity. -/
def withParity (w : BitVec 96) : BitVec 100 :=
  (List.range 4).foldl (fun (a : BitVec 100) k =>
    if (List.range 24).foldl (fun p i => p ^^ w.getLsbD (24 * k + i)) false then a ||| BitVec.ofNat 100 (2 ^ (96 + k)) else a)
    (w.setWidth 100)

/-- R426: an engine fetches the word at an address, of which the bits of `flips` have changed, or an access that it makes
there answers with an error: it halts on the first of a parity error, an illegal word and that error. -/
def execMachineCheck (e : Fin 26) (addr : BitVec 14) (flips : BitVec 100) (cfgErr : Bool) (s : State) :
    Host.Outcome State Fault Refusal :=
  let w := withParity ((s.eng e).store.getD addr.toNat 0) ^^^ flips
  let g := parityGroups w
  if s.engState e ≠ 3 then .next s
  else if g ≠ 0 then .next (s.machineCheck e 1 g addr.toNat)
  else if 5 ≤ w.toNat / 2 ^ 92 % 16 then .next (s.machineCheck e 2 0 addr.toNat)
  else if cfgErr && w.toNat / 2 ^ 92 % 16 = 1 then .next (s.machineCheck e 4 0 addr.toNat)
  else .next s

/-- R426: an engine reaches no safe point in 65,536 CK_TILTH cycles; it halts at the address it is at. -/
def execTilthWatchdog (e : Fin 26) (addr : BitVec 14) (s : State) : Host.Outcome State Fault Refusal :=
  .next (if s.engState e = 3 && s.timerOn (.tilthWd e) then s.machineCheck e 3 0 addr.toNat else s)

/-- R430: the engine that takes a role over is ready to start, loaded where it was EMPTY. -/
def execTakeoverDone (r : Fin 24) (storeOk : Bool) (s : State) : Host.Outcome State Fault Refusal :=
  match (s.role r).takeover with
  | none => .next s
  | some e =>
    let img := (s.role r).recallImg.getD []
    let start := fun (s : State) => ((s.roleServe r e).tilthCnt 1).tilthEvt 1
    let again := fun (s : State) => (s.roleMod r fun x => { x with takeover := none }).chooseTakeover r
    if s.engState e = 2 then
      .next (if s.engFit r e && s.recordFit r e then start s
        else if (s.eng e).image = some img then s.roleUnserved r else again s)
    else if s.engState e = 1 && s.tilth.load.map (·.1) != some e then
      if s.imgCheck img storeOk = 1 then
        let s := s.engReady e img
        .next (if s.recordFit r e then start s else s.roleUnserved r)
      else .next ((s.engFailed e).roleUnserved r)
    else .next (again s)

/-! ## Wakes (R432) -/

/-- A pulse on a line of the event fabric wakes the roles that are bound to it. -/
def State.tilthWake (s : State) (line : Nat) : State :=
  (List.range 24).foldl (fun s r =>
    if s.rdb (offRoleCtl r) 23 && s.rdf (offRoleCtl r) 21 16 == line then s.roleMod r fun x => { x with wake := true } else s) s

end Sys2Proof.Machine
end

