-- ==== Sys2Proof/Machine/Swap.lean ====
section
/-! DEFINITION. Heartbeats, harm records and fence releases, and the bed swap (chapter 18, R439 to R443, R447 to R454, R488). -/

namespace Sys2Proof.Machine

/-! ## Heartbeats (R439) -/

/-- A bed is checked: its sub-island is ON, its generation has matched, and it is not BED16 in IDLE. -/
def State.heartChecked (s : State) (b : Nat) : Bool :=
  s.bedOn b && !s.harm.stale.contains b && !(b == 16 && s.swapState == 0)

/-- HB_LIMIT_US in ns. -/
def State.hbLimit (s : State) : Nat := us (clampTo 10 10000 (s.rdf offHbCtl 13 0))

/-- R439: markers go into every bed that is checked; from the first of them on one must return within HB_LIMIT_US. -/
def execHeartbeatSend (s : State) : Host.Outcome State Fault Refusal :=
  .next (if s.lineOn && s.hasSafety then
    (List.range 17).foldl (fun s b =>
      if !s.heartChecked b then s.stopTimer (.heartbeat b)
      else if s.timerOn (.heartbeat b) then s else s.startTimer (.heartbeat b) s.hbLimit) s
  else s)

/-- R439: no marker has returned from one of a bed's paths for HB_LIMIT_US. -/
def execHeartbeatTimeout (b : BedIx) (s : State) : Host.Outcome State Fault Refusal :=
  .next (if s.heartChecked b && s.timerOn (.heartbeat b) then (s.stopTimer (.heartbeat b)).detect 6 (.bed b) else s)

/-! ## Records and releases (R440 to R443) -/

/-- The target that a command names. -/
def harmTarget : HarmAt → Target
  | .none => .none
  | .port p => .port p
  | .bed b => .bed b

/-- R440: a threshold window ends without a declaration. -/
def execHarmWindowEnd (cls : Fin 7) (at_ : HarmAt) (s : State) : Host.Outcome State Fault Refusal :=
  let k := harmKey cls (harmTarget at_)
  .next (if s.timerOn (.harmWindow k) then
    (s.stopTimer (.harmWindow k)).harmMod fun h => { h with counts := sset (fun _ => 0) h.counts k 0 }
  else s)

/-- A write of HARM.ACK: every record up to and including the sequence number is acknowledged; with the last the alarm ends. -/
def State.harmAck (s : State) (seq : Nat) : State :=
  let left := (s.rdf offHarmStatus 15 0 + 65536 - seq) % 65536
  let n := s.rdf offHarmStatus 20 16
  if n ≤ left then s
  else
    let s := s.wrf offHarmStatus 20 16 left
    if left = 0 then s.wrb offHarmStatus 31 false else s

/-- R443: HARM.ACK is written. -/
def execHarmAck (v : Word) (s : State) : Host.Outcome State Fault Refusal :=
  .next (s.cfg offHarmAck fun s => s.harmAck (fld 15 0 v))

/-- FENCE.PORT[w], or FENCE.BED for w = 8. -/
def fenceReg (w : Nat) : Nat := if w < 8 then offFencePort w else offFenceBed

/-- R442: bits of a FENCE register are written 1. A released bed still has to come back fresh (R454). -/
def execFenceRelease (w : Fin 9) (v : Word) (s : State) : Host.Outcome State Fault Refusal :=
  .next (s.cfg (fenceReg w) fun s => s.wr (fenceReg w) (s.rd (fenceReg w) &&& ~~~v))

/-- R488: the safety controller takes the presented record; the next follows. -/
def execHarmTake (s : State) : Host.Outcome State Fault Refusal :=
  .next (s.harmMod fun h => { h with reports := h.reports.tail })

/-! ## Writes of SWAP.CTL (R447) -/

/-- WARM in IDLE powers BED16. -/
def State.swapWarm (s : State) : State :=
  if s.swapState = 0 && s.hasFallow && !s.mapped 1 16 then (s.setSwap 1).bed16Up else s

/-- START in IDLE or WARM for the position that POSITION names. -/
def State.swapStart (s : State) : State :=
  let p := s.rdf offSwapCtl 19 16
  let refuse := s.wrb offSwapStatus 19 true
  if 2 ≤ s.swapState || !s.hasFallow || s.mapped 1 16 || !s.homeServes p || !s.bedUsable p then refuse
  else if s.marlBad then (refuse.wrf offSwapStatus 21 20 3).safeEvt 6
  else (s.swapBegin p 2).bed16Up

/-- ABORT in RESEED or SHADOW. -/
def State.swapStop (s : State) : State := if s.swapState = 2 || s.swapState = 4 then s.swapAbort 1 else s

/-- RETURN in SERVING, once the position's own bed is fresh. -/
def State.swapReturn (s : State) : State :=
  let p := s.swapPos
  if s.swapState = 6 && s.bedUsable p && !s.mapped 1 p then
    (s.swapBegin p 2).harmMod fun h => { h with returning := true }
  else s

/-- A write of SWAP.CTL. -/
def State.swapCtlWrite (s : State) (v : Word) : State :=
  let v := clampReg offSwapCtl v
  let s := s.wr offSwapCtl (v &&& 0x180FFFFF)
  let s := if bit 28 v then s.swapWarm else s
  let s := if bit 31 v then s.swapStart else s
  let s := if bit 30 v then s.swapStop else s
  if bit 29 v then s.swapReturn else s

/-- R447: SWAP.CTL is written with WARM 1. -/
def execSwapWarm (v : Word) (s : State) : Host.Outcome State Fault Refusal :=
  .next (s.cfg offSwapCtl fun s => s.swapCtlWrite (setBit 28 true v))

/-- R447: SWAP.CTL is written with START 1. -/
def execSwapStart (v : Word) (s : State) : Host.Outcome State Fault Refusal :=
  .next (s.cfg offSwapCtl fun s => s.swapCtlWrite (setBit 31 true v))

/-- R447: SWAP.CTL is written with ABORT 1. -/
def execSwapAbort (v : Word) (s : State) : Host.Outcome State Fault Refusal :=
  .next (s.cfg offSwapCtl fun s => s.swapCtlWrite (setBit 30 true v))

/-- R447: SWAP.CTL is written with RETURN 1. -/
def execSwapReturn (v : Word) (s : State) : Host.Outcome State Fault Refusal :=
  .next (s.cfg offSwapCtl fun s => s.swapCtlWrite (setBit 29 true v))

/-! ## Reseeds (R447, R454) -/

/-- The image that a bed is reseeded with: what its region holds; in a swap, that of the position that changes beds. -/
def State.reseedImage (s : State) (b : Nat) : BedImage :=
  if b = 16 then s.region s.swapPos else s.region b

/-- A bed outside any swap is fresh: it serves again, and the ports of a position that waited for it are released. -/
def State.bedFresh (s : State) (b : Nat) : State :=
  let s := ((s.loadImage b (s.reseedImage b)).freshMacs b).harmMod fun h => { h with stale := h.stale.filter (· != b) }
  if s.harm.waiting.contains b then
    (s.fencePosition b false).harmMod fun h => { h with waiting := h.waiting.filter (· != b) }
  else s

/-- R454: a reseed of a bed has found no change in its last pass. BED16's reseed is its role's work (R417). -/
def execReseedMatched (b : BedIx) (s : State) : Host.Outcome State Fault Refusal :=
  let st := s.swapState
  if !s.bedOn b || s.bedFenced b || s.marlBad || (b.val = 16 && !s.roleServed 16) then .next s
  else
    let fresh := s.harmMod fun h => { h with stale := h.stale.filter (· != b.val) }
    if st = 2 && b.val = s.swapBeds.2 then
      .next (((fresh.loadImage b (s.bedImage s.swapBeds.1)).setSwap 4).harmMod fun h => { h with matched := 0 })
    else if st = 3 && b.val = 16 then
      .next ((fresh.loadImage 16 (s.region s.swapPos)).finishSwap (s.bedOn s.swapPos))
    else if s.harm.stale.contains b.val then .next (s.bedFresh b)
    else .next s

/-! ## Shadow and takeover (R448, R449) -/

/-- Port p of the position goes to its new bed. -/
def State.switchPort (s : State) (p : Nat) : State :=
  (s.carryPort s.swapBeds.1 s.swapBeds.2 p true).wrb offSwapStatus p true

/-- A port of the position that need not wait for a frame boundary: neither ACTIVE nor being re-formed (R449). -/
def State.switchNow (s : State) (p : Nat) : Bool :=
  let b := s.swapBeds.1
  s.pState b p != 5 && s.pState b p != 8

/-- Every port below p that must be waited for has switched. -/
def State.portTurn (s : State) (p : Nat) : Bool := (List.range p).all fun q => s.portDone q || s.switchNow q

/-- Ports that need not wait switch. -/
def State.switchIdle (s : State) : State :=
  (List.range 16).foldl (fun s p => if !s.portDone p && s.switchNow p then s.switchPort p else s) s

/-- R448: MATCH_MIN frames in succession have matched, and the gate states agree. -/
def execShadowMatched (s : State) : Host.Outcome State Fault Refusal :=
  let min_ := clampTo 256 65535 (s.rdf offSwapCtl 15 0)
  .next (if s.swapState = 4 && min_ ≤ s.harm.matched && s.bedOn s.swapBeds.2 then
    (((s.loadImage s.swapBeds.2 (s.bedImage s.swapBeds.1)).setSwap 5).wrf offSwapStatus 15 0 0).switchIdle
  else s)

/-- R448: a frame or a gate state does not match: a further reseed, or at the fourth the end of the swap. -/
def execShadowMismatch (s : State) : Host.Outcome State Fault Refusal :=
  .next s.shadowMiss

/-- Nothing that the old bed has selected for a port is still to be transmitted. -/
def State.portIdle (s : State) (p : Nat) : Bool :=
  (s.copiesWhere fun c => c.port == 16 * s.swapPos + p && (c.stage == .selected || c.stage == .edited)) == [] &&
    (s.mac (16 * s.swapBeds.1 + p)).openTx == none

/-- R449: a port reaches its frame boundaries and switches, in ascending order of the enabled ports. -/
def execPortSwitch (p : LocalIx) (s : State) : Host.Outcome State Fault Refusal :=
  .next (if s.swapState = 5 && !s.portDone p && s.portTurn p && s.portIdle p && s.pState s.swapBeds.1 p != 8 then
    s.switchPort p
  else s)

/-- R449: every port has switched and the old bed holds no frame: the new one serves the position, and frames whose
admission was held go on. -/
def execBedDrained (s : State) : Host.Outcome State Fault Refusal :=
  let held := s.framesWhere fun x => x.bed == s.swapBeds.1 && x.inBed
  .next (if s.swapState = 5 && s.rdf offSwapStatus 15 0 = 0xFFFF && held == [] then s.swapDone.releaseHeld else s)

end Sys2Proof.Machine
end

