-- ==== Sys2Proof/Machine/Service.lean ====
section
/-! DEFINITION. The marl copy's repair, weathering, subsoil repair, the fuse ledger and run-time map-outs (chapter 18, R453 to
R461). -/

namespace Sys2Proof.Machine

/-! ## Marl copies and weathering (R453, R455) -/

/-- R453: MEM0 has rewritten a bad copy from the good one. -/
def execMarlRewriteDone (copy : Fin 2) (s : State) : Host.Outcome State Fault Refusal :=
  .next (if s.roleServed 21 && s.rdb offMarlStatus copy && !s.rdb offMarlStatus (1 - copy.val) then
    s.wrb offMarlStatus copy false
  else s)

/-- A weathering monitor's threshold is reached for the first time: its bit and its event. -/
def State.wearReach (s : State) (m i evt level : Nat) : State :=
  if 10 * level ≤ s.rdf (offWear m) 15 0 && !s.rdb (offWear m) i then (s.wrb (offWear m) i true).safeEvt evt else s

/-- R455: the SAFETY role samples the monitor whose turn it is: its slowdown in units of 0.01 %. -/
def execWearSample (m : Fin 40) (slow : Nat) (s : State) : Host.Outcome State Fault Refusal :=
  .next (if s.roleServed 23 && s.hasSafety && s.harm.wearTurn == m.val then
    let s := (s.harmMod fun h => { h with wearTurn := (m + 1) % 40 }).wrf (offWear m) 15 0 (min 0xFFFF slow)
    (s.wearReach m 31 1 (s.rdf offWearThresh 31 24)).wearReach m 30 2 (s.rdf offWearThresh 23 16)
  else s)

/-! ## Subsoil (R456, R457) -/

/-- A pseudo-channel, 34 stack + channel, is out of service: mapped out, now or at the last repair. -/
def State.chanOut (s : State) (k : Nat) : Bool := s.mapped 4 k || s.harm.worn.contains k

/-- Spare channels of a stack that are taken or out of service themselves. -/
def State.sparesUsed (s : State) (stack : Nat) : Nat :=
  ((List.range 34).filter fun c => s.chanOut (34 * stack + c)).length +
    (s.harm.repairs.filter fun e => e.1 / 34 == stack).length

/-- R456: MEM0's pass over a pseudo-channel ends with a number of corrected errors, or the channel returns an uncorrectable
one: a failing channel is copied to a spare of its stack, or stays in service when there is none (R457). -/
def execSubsoilRepairStart (stack : Fin 8) (chan : Fin 34) (corrected : Nat) (uncorrectable : Bool) (s : State) :
    Host.Outcome State Fault Refusal :=
  let k := 34 * stack.val + chan.val
  if !s.roleServed 21 || s.chanOut k || s.harm.repairs.any (fun e => e.1 == k) then .next s
  else
    let s := s.safeInc 3 corrected
    if !uncorrectable && corrected < max 1 (s.rdf offMemCfg 15 0) then .next s
    else if 2 ≤ s.sparesUsed stack then .next (s.safeEvt 8)
    else .next (s.harmMod fun h => { h with repairs := h.repairs ++ [(k, 32 + s.sparesUsed stack)] })

/-- R456: the copy ends: the spare serves, and the old channel is mapped out. -/
def execSubsoilRepairDone (stack : Fin 8) (chan : Fin 34) (s : State) : Host.Outcome State Fault Refusal :=
  let k := 34 * stack.val + chan.val
  .next (if s.roleServed 21 && s.harm.repairs.any (fun e => e.1 == k) then
    (s.harmMod fun h => { h with repairs := h.repairs.filter (fun e => e.1 != k), worn := k :: h.worn }).safeEvt 7
  else s)

/-- A flow record is lost: its frames are discarded under DROP_GRAIN_CRC, and the flow starts afresh (R242, R457). -/
def State.flowLost (s : State) (id : Nat) : State :=
  let s := (s.flow id).q.foldl (fun s i => (s.countGrain.unqueue i).discardCopy i) s
  s.schedMod fun h => { h with flows := sdrop (· == id) h.flows }

/-- R457: an uncorrectable subsoil error. -/
def execUncorrectableError (at_ : MemAt) (s : State) : Host.Outcome State Fault Refusal :=
  if !s.lineOn then .next s
  else match at_ with
  | .grain f => .next (s.grainFail .none f)
  | .flow id => .next (s.flowLost id.toNat)
  | .marl copy => .next (s.marlMark copy)

/-! ## The fuse ledger (R458, R459) -/

/-- An entry of the ledger as it reads. -/
def State.fuseEntry (s : State) (i : Nat) : Word := sget (fun _ => 0) s.pwr.ledger i

/-- The word that KIND and INDEX make: CHECK is the complement of the bits above it. -/
def fuseWord (kind index : Nat) : Word :=
  let hi := kind * 4096 + index
  w32 (hi * 65536 + (65535 - hi))

/-- GO: the lowest empty entry is blown. -/
def State.fuseGo (s : State) (v : Word) : State :=
  if s.sec.fuseBlow.isSome then s
  else match (List.range 64).find? fun i => s.fuseEntry i == 0 with
    | none => s.wrf offFuseStatus 30 29 3
    | some i =>
      let s := (s.wrf offFuseStatus 30 29 0).wrb offFuseStatus 31 true
      { s with sec := { s.sec with fuseBlow := some (i, fuseWord (fld 27 24 v) (fld 23 12 v)) } }

/-- A write of FUSE.PROG by a path. -/
def State.fuseProgWrite (s : State) (port : Bool) (v : Word) : State :=
  if bit 31 v then s.lk port offFuseProg .ledger fun s => s.fuseGo v else s

/-- R459: FUSE.PROG is written with GO. -/
def execFuseProgGo (v : Word) (s : State) : Host.Outcome State Fault Refusal :=
  .next (s.cfg offFuseProg fun s => s.fuseProgWrite false (setBit 31 true v))

/-! ## Run-time map-outs (R460) -/

/-- A unit is in service: it serves, and is not fenced or halted. -/
def State.inService (s : State) (kind i : Nat) : Bool :=
  match kind with
  | 1 => s.bedOn i && s.servesAny i && !s.bedFenced i
  | 2 => s.bedOn (i / 5) && inMap (s.rd (offParsePipeMap (i / 5))) (i % 5)
  | 3 => s.siltActive (i / 8) && (s.siltInUse (i / 8)).contains (i % 8)
  | 4 => s.lineOn && !s.chanOut i && i % 34 < 32
  | 5 => s.engState i == 3
  | _ => false

/-- A unit is mapped out. -/
def State.mapOut (s : State) (kind i : Nat) : State :=
  match kind with
  | 2 => (s.wrb (offParsePipeStatus (i / 5)) (16 + i % 5) true).setTrial (i / 5) (i % 5) none
  | 3 => (s.wrb (offSiltStatus (i / 8)) (8 + i % 8) false).lanePower (siltLane (i / 8) (i % 8)) false
  | 5 => s.engEmpty i
  | _ => s

/-- A write of MAP.RT[i]: refused for a unit in service, else the entry maps out what it names. The power enables of the
beds follow. -/
def State.mapRtWrite (s : State) (i : Nat) (v : Word) : State :=
  match rtMap v with
  | some (kind, n) =>
    if s.inService kind n && !s.mapped kind n then s.raiseEvt offFuseEvt 0
    else ((s.mapOut kind n).wr (offMapRt i) v).settleAll s
  | none => (s.wr (offMapRt i) v).settleAll s

/-- R460: MAP.RT[i] is written. -/
def execMapRtWrite (i : Fin 64) (v : Word) (s : State) : Host.Outcome State Fault Refusal :=
  .next (s.cfg (offMapRt i) fun s => s.mapRtWrite i v)

end Sys2Proof.Machine
end

