-- ==== Sys2Proof/Machine/Lifecycle.lean ====
section
/-! DEFINITION. Lifecycle, keys, debug sessions and power states (chapter 19, R463 to R482), and the host island's resets and
the loss of the root PLL (chapter 03, R64, R69, R72). -/

namespace Sys2Proof.Machine

/-! ## FALLOW (R476 to R479) -/

/-- A fuse blow is in progress. -/
def State.blowing (s : State) : Bool := s.sec.lcBlow.isSome || s.sec.keyBlow.isSome || s.sec.fuseBlow.isSome

/-- A path's RESULT. -/
def State.dbgResult (s : State) (port : Bool) (n : Nat) : State := s.dbgMod port fun d => { d with result := n }

/-- A check in progress, and what would have followed a wipe, are given up: their results read so after the exit. -/
def State.secAborted (s before : State) : State :=
  let s := match before.sec.check with
    | some (port, _, _) => s.dbgResult port 10
    | none => s
  let s := match before.sec.wipe with
    | some (.grant port _) => s.dbgResult port 10
    | some (.blow _ _) => (s.wrb offLcReq 30 false).wrf offLcReq 29 28 2
    | none => s
  let s := if before.sec.lcNext.isSome then (s.wrb offLcReq 30 false).wrf offLcReq 29 28 2 else s
  s.secMod fun x => { x with check := none, wipe := none, lcNext := none }

/-- The block goes into FALLOW: sessions close, the line island leaves ON with LINE_HOLD 1, the host island goes to OFF, the
root PLL stops, and the wake detector is armed (R132, R478). -/
def State.fallowEnter (s : State) : State :=
  let c := s.rd offMgmtCtl
  let deaf := bit 24 c || 2 ≤ fld 23 22 c
  let t := (s.dbgClose false).dbgClose true
  let t := { t.wrb offRstCtl 0 true with pwr := { t.pwr with fallow := true, fallowWait := false, wakeReq := false } }
  let t := t.settle 1 true
  let t := (List.range 27).foldl (fun t i => if i = 1 then t else t.settle i true) t
  let t := (t.dropTimers fun x => match x with | .ramp _ => true | _ => false).secAborted s
  let t := if deaf then t.wrb offWakeStatus 30 true else t
  { t with pwr := { t.pwr with isl := [], pllOn := false, pllLocked := false, wakeArmed := true, wakeDeaf := deaf } }

/-- An entry into FALLOW that waited for a blow takes place when none is left. -/
def State.fallowIfDue (s : State) : State := if s.pwr.fallowWait && !s.blowing then s.fallowEnter else s

/-- A sub-island that R68 protects keeps its power on entry into TRIM: its bit is set back to 1 (R477). -/
def State.trimEnter (s : State) : State :=
  let bad := (List.range 25).filter fun i =>
    !s.rdb offPwrIslandCtl i && (if i < 17 then s.bedGuarded i else s.siltGuarded (i - 17))
  let t := bad.foldl (fun t i => t.wrb offPwrIslandCtl i true) (s.wr offPwrState 0x40000001)
  let t := t.settleAll s
  if bad = [] then t else t.pwrRefused

/-- A write of PWR.STATE. -/
def State.pwrStateWrite (s : State) (n : Nat) : State :=
  if n = 1 && s.isRun then s.trimEnter
  else if n = 0 && !s.isRun then (s.wr offPwrState 0).settleAll s
  else if n = 2 then
    let s := (s.dbgClose false).dbgClose true
    if s.blowing then { s with pwr := { s.pwr with fallowWait := true } } else s.fallowEnter
  else s

/-- R477: PWR.STATE is written with STATE 1. -/
def execPwrStateTrim (s : State) : Host.Outcome State Fault Refusal := .next (s.cfg offPwrState fun s => s.pwrStateWrite 1)

/-- R477: PWR.STATE is written with STATE 0. -/
def execPwrStateRun (s : State) : Host.Outcome State Fault Refusal := .next (s.cfg offPwrState fun s => s.pwrStateWrite 0)

/-- R478: PWR.STATE is written with STATE 2. -/
def execFallowEntry (s : State) : Host.Outcome State Fault Refusal := .next (s.cfg offPwrState fun s => s.pwrStateWrite 2)

/-- R479: a wake request, or LOT_HOST_RST_N low, ends FALLOW: the root PLL and the enabled islands start. -/
def execFallowExit (s : State) : Host.Outcome State Fault Refusal :=
  if s.pwr.fallow && (s.pwr.wakeReq || !s.pwr.hostRstN) then
    let t := { s with pwr := { s.pwr with fallow := false, wakeReq := false, wakeArmed := false, wakeDeaf := false, pllOn := true } }
    .next (((t.wr offPwrState 0).cause 6).settleAll s)
  else .next s

/-! ## The host island's resets and the PLL (R64, R69, R72) -/

/-- R69: LOT_HOST_RST_N at a level: low holds the host island in reset. -/
def execHostResetPin (level : Bool) (s : State) : Host.Outcome State Fault Refusal :=
  let t := { s with pwr := { s.pwr with hostRstN := level } }
  if level then .next t else .next ((t.cause 1).settleAll s)

/-- R72: RST.CTL is written with HOST_SELF and a value of LINE_HOLD: the write completes, and the host island is reset. -/
def execRstCtlHostSelf (lineHold : Bool) (s : State) : Host.Outcome State Fault Refusal :=
  let t := s.cfg offRstCtl fun s => s.setLineHold lineHold
  .next (if s.reach offRstCtl then ((t.cause 2).hostDown) else t)

/-- R64: the root PLL loses lock: its record is presented at once (R488), and HARM_ALARM asserted. -/
def execPllLockLoss (s : State) : Host.Outcome State Fault Refusal :=
  if !s.pwr.pllLocked then .next s
  else
    let word0 := w32 (8 * 2 ^ 28 + s.harm.seq)
    .next ((s.pllLost.harmReport word0).harmMod fun h => { h with pllAlarm := true, pllOwed := true })

/-! ## Lifecycle (R463 to R465) -/

/-- A wipe begins: LINE_HOLD is set and the line island goes to HELD (R472). -/
def State.wipeBegin (s : State) (next : AfterWipe) : State :=
  (s.secMod fun x => { x with wipe := some next }).setLineHold true

/-- The blow of lifecycle bit t begins. -/
def State.lcBlowBegin (s : State) (t : Nat) (req : Word) : State := s.secMod fun x => { x with lcBlow := some (t, req) }

/-- The wipe of a move to RETURNED begins; one that runs for a FULL session serves it too (R472). -/
def State.lcWipe (s : State) (t : Nat) (req : Word) : State :=
  if s.sec.wipe.isSome then s.secMod fun x => { x with lcNext := some (t, req) } else s.wipeBegin (.blow t req)

/-- A transition is requested with the LC.REQ value written (R464). -/
def State.lcGo (s : State) (v : Word) : State :=
  let busy := ((s.wrb offLcReq 30 true).wrf offLcReq 29 28 0)
  let refuse := s.wrf offLcReq 29 28 2
  match s.lifecycle, fld 1 0 v with
    | 0, 1 => busy.lcBlowBegin 0 v
    | 0, 2 => busy.lcWipe 2 v
    | 1, 2 => if s.timerOn .returnArm then busy.lcWipe 1 v else refuse
    | _, _ => refuse

/-- A write of LC.REQ by a path; while BUSY a GO is ignored. -/
def State.lcReqWrite (s : State) (port : Bool) (v : Word) : State :=
  let s := s.wrf offLcReq 1 0 (fld 1 0 v)
  if bit 31 v && !s.rdb offLcReq 30 then s.lk port offLcReq .life fun s => s.lcGo v else s

/-- R464: LC.REQ is written with GO. -/
def execLcRequest (v : Word) (s : State) : Host.Outcome State Fault Refusal :=
  .next (s.cfg offLcReq fun s => s.lcReqWrite false (setBit 31 true v))

/-- A lifecycle fuse bit is blown (R463). -/
def State.blowLife (s : State) (t : Nat) : State :=
  { s with pwr := { s.pwr with life := s.pwr.life ||| BitVec.ofNat 3 (2 ^ t) } }

/-- The revocation fuse of a key slot is blown (R466). -/
def State.blowRevoked (s : State) (k : Nat) : State :=
  { s with pwr := { s.pwr with revoked := s.pwr.revoked ||| BitVec.ofNat 16 (2 ^ k) } }

/-- R464: a lifecycle blow ends, and the bit reads back or not. -/
def execLcBlowDone (good : Bool) (s : State) : Host.Outcome State Fault Refusal :=
  match s.sec.lcBlow with
  | none => .next s
  | some (t, req) =>
    let s := (s.secMod fun x => { x with lcBlow := none }).wrb offLcReq 30 false
    if good then
      let s := (((((s.blowLife t).dbgClose false).dbgClose true).stopTimer .returnArm).wrf offLcReq 29 28 1).raiseEvt offSecEvt 4
      .next (s.measExtend 3 (sha384 (wordBytes [req]))).fallowIfDue
    else .next (s.wrf offLcReq 29 28 3).fallowIfDue

/-! ## Keys (R466) -/

/-- A write of KEY.REVOKE by a path. -/
def State.keyRevokeWrite (s : State) (port : Bool) (v : Word) : State :=
  let k := 8 * fld 8 8 v + fld 2 0 v
  if !bit 31 v then s
  else s.lk port offKeyRevoke .keys fun s =>
    if s.sec.keyBlow.isSome || s.pwr.revoked.getLsbD k then s
    else (s.secMod fun x => { x with keyBlow := some k }).wrb offKeyRevoke 30 true

/-- R466: KEY.REVOKE is written with GO. -/
def execKeyRevoke (v : Word) (s : State) : Host.Outcome State Fault Refusal :=
  .next (s.cfg offKeyRevoke fun s => s.keyRevokeWrite false (setBit 31 true v))

/-- R466: the blow of a revocation fuse ends. -/
def execKeyRevokeDone (s : State) : Host.Outcome State Fault Refusal :=
  match s.sec.keyBlow with
  | none => .next s
  | some k =>
    let s := (s.secMod fun x => { x with keyBlow := none }).wrb offKeyRevoke 30 false
    .next (s.blowRevoked k).fallowIfDue

/-- R459: the blow of a ledger entry ends and the entry is read back; `missed` are fuses that have not blown. -/
def execFuseBlowDone (missed : Word) (s : State) : Host.Outcome State Fault Refusal :=
  match s.sec.fuseBlow with
  | none => .next s
  | some (i, w) =>
    let read := w &&& ~~~missed
    let s := (s.wrf offFuseStatus 30 29 (if read = w then 1 else 2)).wrb offFuseStatus 31 false
    .next { s with
      sec := { s.sec with fuseBlow := none }
      pwr := { s.pwr with ledger := sset (fun _ => 0) s.pwr.ledger i read } }.fallowIfDue

/-! ## Debug sessions (R467 to R473) -/

/-- CHAL_REQ: a new challenge, valid for 60 s; the token count starts again (R470, R471). -/
def State.chalReq (s : State) (port : Bool) : State :=
  let c := (Config.freeChallenge s.draws).toNat
  let s := { s with draws := s.draws + 1 }
  (s.dbgMod port fun d => { d with chal := c, chalOk := true, token := [], count := 0 }).startTimer (.challenge port) (ms 60000)

/-- Word i of a token, and the challenge it carries. -/
def tokWord (t : List Word) (i : Nat) : Word := t.getD i 0
def tokChal (t : List Word) : Nat := leNat (wordBytes ((List.range 4).map fun i => tokWord t (2 + i)))

/-- A submission fails (R471). -/
def State.dbgFail (s : State) (port : Bool) (n : Nat) : State :=
  let s := (s.dbgResult port n).raiseEvt offSecEvt 2
  if 4 ≤ n && n ≤ 7 then
    s.secMod fun x => { x with fails := min 8 (x.fails + 1), locked := x.locked || decide (7 ≤ x.fails) }
  else s

/-- SUBMIT: the checks begin; the challenge is consumed. While a check or a wipe is in progress it has no effect. -/
def State.dbgSubmit (s : State) (port : Bool) : State :=
  if s.sec.check.isSome || s.sec.wipe.isSome then s
  else
    let d := s.dbg port
    let ok := d.chalOk && tokChal d.token == d.chal
    let s := (s.dbgMod port fun d => { d with chalOk := false }).stopTimer (.challenge port)
    if s.sec.locked then s.dbgFail port 9
    else (s.dbgResult port 0).secMod fun x => { x with check := some (port, d.token, ok) }

/-- A write of DBG.CTL, or of DP.CTL, by its path. -/
def State.dbgCtlWrite (s : State) (port : Bool) (v : Word) : State :=
  let s := if bit 31 v then s.chalReq port else s
  let s := if bit 30 v then s.dbgSubmit port else s
  if bit 29 v then s.dbgClose port else s

/-- A write of DBG.TOKEN or DP.TOKEN: the next token word. -/
def State.dbgTokenWrite (s : State) (port : Bool) (v : Word) : State :=
  s.dbgMod port fun d => { d with token := d.token ++ [v], count := d.count + 4 }

/-- A write of DP.CTL: one with LINE_REL that the level does not grant has no effect at all. -/
def State.dpCtlWrite (s : State) (v : Word) : State :=
  if !bit 0 v then (s.dbgCtlWrite true v).emit (.dpResponse false 0)
  else if s.sec.port.level < 2 then s.emit (.dpResponse true 0)
  else ((s.setLineHold false).dbgCtlWrite true v).emit (.dpResponse false 0)

/-- A write on a path: the host's through CFG, the debug port's on its own registers, which answer but in FALLOW (R468, R480). -/
def State.onPath (s : State) (port : Bool) (off : Nat) (host dp : State → State) : State :=
  if port then (if s.pwr.porN && !s.pwr.fallow then dp s else s) else s.cfg off host

/-- R471: CHAL_REQ is written on a path. -/
def execDbgChalReq (port : Bool) (v : Word) (s : State) : Host.Outcome State Fault Refusal :=
  let v := setBit 31 true v
  .next (s.onPath port offDbgCtl (fun s => s.dbgCtlWrite false v) fun s => s.dpCtlWrite v)

/-- R470: SUBMIT is written on a path. -/
def execDbgSubmit (port : Bool) (v : Word) (s : State) : Host.Outcome State Fault Refusal :=
  let v := setBit 30 true v
  .next (s.onPath port offDbgCtl (fun s => s.dbgCtlWrite false v) fun s => s.dpCtlWrite v)

/-- R473: CLOSE is written on a path. -/
def execDbgClose (port : Bool) (v : Word) (s : State) : Host.Outcome State Fault Refusal :=
  let v := setBit 29 true v
  .next (s.onPath port offDbgCtl (fun s => s.dbgCtlWrite false v) fun s => s.dpCtlWrite v)

/-- R468: DP.CTL is written with LINE_REL. -/
def execDpLineRelease (v : Word) (s : State) : Host.Outcome State Fault Refusal :=
  .next (s.onPath true offDbgCtl id fun s => s.dpCtlWrite (setBit 0 true v))

/-- R470: a token word is written on a path. -/
def execDbgTokenWrite (port : Bool) (v : Word) (s : State) : Host.Outcome State Fault Refusal :=
  .next (s.onPath port offDbgToken (fun s => s.dbgTokenWrite false v)
    fun s => (s.dbgTokenWrite true v).emit (.dpResponse false 0))

/-- The RESULT of the checks of R470 on a token, 1 where it passes. -/
def State.tokenCheck (s : State) (port : Bool) (t : List Word) (chalOk : Bool) : Nat :=
  let w1 := tokWord t 1
  let purpose := fld 7 0 w1
  let level := fld 23 16 w1
  let bytes := wordBytes t
  if t.length ≠ 56 then 2
  else if tokWord t 0 ≠ 0x4B4F5444 || fld 31 24 w1 ≠ 1 || 1 < purpose || (purpose = 0 && (level = 0 || 3 < level)) then 3
  else if !s.keyOk 0 (fld 15 8 w1) (bytesAt bytes 128 96) then 4
  else if !chalOk then 5
  else if !sigVerify (bytesAt bytes 128 96) (bytesAt bytes 32 96) (bytes.take 32) then 6
  else if (purpose = 1 && s.lifecycle ≠ 1) || (purpose = 0 && level = 3 && s.lifecycle = 1) then 7
  else if (s.dbg (!port)).level ≠ 0 then 8
  else 1

/-- A session opens at the level of its token (R470, R481). -/
def State.dbgGrant (s : State) (port : Bool) (t : List Word) : State :=
  let secs := (tokWord t 6).toNat
  let s := s.dbgMod port fun d =>
    { d with level := fld 23 16 (tokWord t 1), duration := secs, opened := s.now, result := 1 }
  let s := if secs = 0 then s.stopTimer (.session port) else s.startTimer (.session port) (ms (1000 * secs))
  (s.raiseEvt offSecEvt 1).measExtend 2 (sha384 (wordBytes (t.take 8)))

/-- A token has passed (R470 to R472). -/
def State.tokenPass (s : State) (port : Bool) (t : List Word) : State :=
  let s := s.secMod fun x => { x with fails := 0 }
  if fld 7 0 (tokWord t 1) = 1 then (s.dbgResult port 1).startTimer .returnArm (ms 1000)
  else if fld 23 16 (tokWord t 1) = 3 then s.wipeBegin (.grant port t)
  else s.dbgGrant port t

/-- R470: the checks of a token end. With the host island not ON no session can open. -/
def execTokenCheckDone (s : State) : Host.Outcome State Fault Refusal :=
  match s.sec.check with
  | none => .next s
  | some (port, t, ok) =>
    if s.sec.wipe.isSome then .next s
    else
      let s := s.secMod fun x => { x with check := none }
      if !s.hostOn then .next (s.dbgResult port 10)
      else match s.tokenCheck port t ok with
        | 1 => .next (s.tokenPass port t)
        | n => .next (s.dbgFail port n)

/-- What tells that nothing of the block has written topsoil or subsoil since (R472): the number the next frame takes, the marl
generations and the archive's record counts. -/
def State.memStamp (s : State) : List Nat :=
  s.nextId :: s.rd2 (offTelFlowWr 0) :: s.rd2 (offTelClassWr 0) :: (s.rds (offMarlGen 0) 17).map (·.toNat)

/-- R472: topsoil and subsoil hold zeros, the marl copy and the archive with them; what the wipe was for follows. -/
def execWipeDone (s : State) : Host.Outcome State Fault Refusal :=
  match s.sec.wipe with
  | none => .next s
  | some next =>
    let due := s.sec.lcNext
    let s := (s.setLineHold true).secMod fun x => { x with wipe := none, lcNext := none, lines := [], zeroed := some s.memStamp }
    let s := s.harmMod fun h => { h with marl := [] }
    match next with
    | .blow t req => .next (s.lcBlowBegin t req)
    | .grant port t =>
      let s := if s.lifecycle = 1 then s.dbgFail port 7 else s.dbgGrant port t
      .next (match due with | some (t, req) => s.lcBlowBegin t req | none => s)

/-- R473: a session's DURATION_S expires. -/
def execSessionExpire (port : Bool) (s : State) : Host.Outcome State Fault Refusal :=
  .next (if s.timerOn (.session port) then s.dbgClose port else s)

/-- R471: a challenge expires. -/
def execChallengeExpire (port : Bool) (s : State) : Host.Outcome State Fault Refusal :=
  .next (if s.timerOn (.challenge port) then
    (s.dbgMod port fun d => { d with chalOk := false }).stopTimer (.challenge port)
  else s)

/-- R470: RETURN_ARMED clears. -/
def execReturnArmExpire (s : State) : Host.Outcome State Fault Refusal := .next (s.stopTimer .returnArm)

end Sys2Proof.Machine
end

