-- ==== Sys2Proof/Machine/Views.lean ====
section
/-! DEFINITION. What each register reads as (R5 to R11): most show what the register file holds; the rest show state that
the block keeps elsewhere, or a value that follows from other state. -/

namespace Sys2Proof.Machine

/-! ## The capability list (R49 to R59) -/

/-- An entry of the capability list beside IDENTITY (R53). -/
structure CapEntry where
  id : Nat
  version : Nat
  window : Nat
  span : Nat
  perBed : Bool := false
  body : List Nat := []
  deriving DecidableEq, Repr

/-- The entries present, in their order (R53, R54, R59). -/
def State.capEntries (s : State) : List CapEntry :=
  let opt := fun (b : Bool) (e : CapEntry) => if b then [e] else []
  [ { id := 0x0002, version := 1, window := 0x1000, span := 0x1000 }, { id := 0x0003, version := 1, window := 0x2000, span := 0x1000 },
    { id := 0x0004, version := 1, window := 0x3000, span := 0x1000 }, { id := 0x0005, version := 1, window := 0x4000, span := 0x1000 },
    { id := 0x0010, version := 2, window := 0x100000, span := 0x80000 } ]
  ++ opt s.hasPaired { id := 0x0011, version := 1, window := 0x180000, span := 0x80000 }
  ++ [ { id := 0x0020, version := 1, window := 0x200000, span := 0x100000 },
    { id := 0x0030, version := 1, window := 0x300000, span := 0x80000 }, { id := 0x0031, version := 1, window := 0x380000, span := 0x80000 },
    { id := 0x0040, version := 1, window := 0x400000, span := 0x80000 } ]
  ++ opt s.hasHardpan { id := 0x0041, version := 2, window := 0x480000, span := 0x80000, body := [s.pwr.links.toNat] }
  ++ [ { id := 0x0050, version := 1, window := 0x500000, span := 0x100000 },
    { id := 0x0060, version := 1, window := 0x600000, span := 0x100000 } ]
  ++ opt s.hasSafety { id := 0x0070, version := 1, window := 0x700000, span := 0x40000 }
  ++ [ { id := 0x0071, version := 1, window := 0x740000, span := 0xC0000 },
    { id := 0x0080, version := 1, window := 0x800000, span := 0x100000 },
    { id := 0x0100, version := 2, window := 0x1000000, span := 0x1000000, body := [0xFFFF] } ]
  ++ opt s.hasFallow { id := 0x0101, version := 1, window := 0x2000000, span := 0x100000 }
  ++ opt s.hasMatcher { id := 0x0102, version := 1, window := 0x48000, span := 0x8000, perBed := true }

/-- The words of entries from an offset on; NEXT is 0 at the last (R49). -/
def capWords : List CapEntry → Nat → List Word
  | [], _ => []
  | e :: es, off =>
    let len := 4 + e.body.length
    let next := if es.isEmpty then 0 else off + 4 * len
    [ w32 (len * 2 ^ 24 + e.version * 65536 + e.id), w32 next, w32 e.window, w32 (b2n e.perBed * 2 ^ 31 + e.span) ]
      ++ e.body.map w32 ++ capWords es (off + 4 * len)

/-- A word of the first 4 KiB: the identity entry, then the list. -/
def State.viewId (s : State) (off : Nat) : Word :=
  if off = 0x1C then w32 s.pwr.options.toNat
  else if off < 0x20 then s.rd off
  else (capWords s.capEntries 0x20).getD ((off - 0x20) / 4) 0

/-! ## Index arithmetic -/

/-- The index of an offset in an array of n registers with a stride, whatever the offset within the stride. -/
def slotOf (base stride n off : Nat) : Option Nat :=
  if base ≤ off ∧ (off - base) / stride < n then some ((off - base) / stride) else none

/-- The index of a register in an array of n registers with a stride. -/
def regIx (base stride n off : Nat) : Option Nat :=
  if (off - base) % stride = 0 then slotOf base stride n off else none

/-- The first register of a base's or tracker's block that an offset lies in: its number and the offset within. -/
def tbAt (off : Nat) : Option (Nat × Nat) :=
  match slotOf 0x101000 0x100 8 off with
  | some k => some (k, (off - 0x101000) % 0x100)
  | none => (slotOf 0x180000 0x100 2 off).map fun k => (8 + k, (off - 0x180000) % 0x100)

/-- The lane that an offset of a lane region names, with the offset within its block: a network lane's window, or a silt lane. -/
def State.laneWord (s : State) (off : Nat) : Option (Option Nat × Nat) :=
  if 0x490000 ≤ off ∧ off < 0x4D0000 then some (some (off - (off - 0x490000) % 0x1000), (off - 0x490000) % 0x1000)
  else if 0x1000000 ≤ off ∧ off < 0x2100000 ∧ 0x10000 ≤ off % 0x100000 ∧ off % 0x100000 < 0x20000 then
    some (s.laneReg ((off - 0x1000000) / 0x100000) (off % 0x100000 / 0x1000 % 16), off % 0x1000)
  else none

/-! ## Reads -/

/-- Seconds that a path's session has left: 0 with none, all ones where it has no end (R473). -/
def State.dbgLeft (s : State) (port : Bool) : Word :=
  let d := s.dbg port
  if d.level = 0 then 0
  else if d.duration = 0 then 0xFFFFFFFF
  else w32 (d.duration - (s.now - d.opened) / 6250000000)

/-- DBG.CTL, or DP.CTL, of a path. -/
def State.dbgCtlView (s : State) (port : Bool) : Word :=
  let d := s.dbg port
  let checking := match s.sec.check with | some (p, _, _) => p == port | none => false
  w32 (b2n (checking || s.sec.wipe.isSome) * 2 ^ 28 + d.result * 2 ^ 24 + d.level * 2 ^ 22 + b2n s.sec.wipe.isSome * 2 ^ 21
    + b2n s.sec.locked * 2 ^ 20 + s.sec.fails * 2 ^ 16)

/-- The bits of a word that a test names set, of those below n. -/
def bitsOf (n : Nat) (p : Nat → Bool) : Word := (List.range n).foldl (fun w i => setBit i (p i) w) 0

/-- Registers of the first 32 KiB that show state kept elsewhere (chapters 02, 03, 18, 19). -/
def State.viewLow (s : State) (off : Nat) : Word :=
  if off < 0x1000 then s.viewId off
  else if off = offClkPll then setBit 31 s.pwr.pllLocked (s.rd off)
  else if off = offClkRunning then bitsOf 25 s.clkRuns
  else if off = offPwrIslandCtl then s.rd off &&& s.islandCtlMask
  else if off = offPwrIslandOn then
    setBit 31 s.lineOn (setBit 30 s.hostOn (bitsOf 25 fun i => if i < 17 then s.bedOn i else s.siltOn (i - 17)))
  else if off = offFuseStatus then setFld 6 0 ((List.range 64).filter fun i => s.fuseEntry i == 0).length (s.rd off)
  else if off = offLcState then w32 (s.lifecycle * 2 ^ 30 + b2n (s.timerOn .returnArm) * 2 ^ 29 + s.pwr.life.toNat)
  else if off = offDbgCtl then s.dbgCtlView false
  else if off = offDbgCount then w32 s.sec.host.count
  else if off = offDbgLeftS then s.dbgLeft false
  else if off = offKeyStatus then w32 s.pwr.revoked.toNat
  else match regIx 0x3000 4 64 off, regIx 0x4020 4 4 off, regIx 0x4050 4 96 off, regIx 0x4200 4 96 off with
    | some i, _, _, _ => s.fuseEntry i
    | _, some i, _, _ => w32 (s.sec.host.chal / 2 ^ (32 * i))
    | _, _, some i, _ => Config.keyHash i
    | _, _, _, some i => Config.keyHash (96 + i)
    | _, _, _, _ => s.rd off

/-- Registers of the time unit that show state kept elsewhere (chapter 11). -/
def State.viewTime (s : State) (off : Nat) : Word :=
  match tbAt off with
  | some (k, r) =>
    if r = 0 then setBit 26 ((s.tb k).slew != 0) (s.rd off)
    else if r = 0x10 then setBit 30 (s.tb k).cmd.isSome (s.rd off)
    else if r = 0x2C then signedNs (s.tb k).slew
    else if r = 0x30 then (nowWords (s.tb k).val).headD 0
    else s.rd off
  | none =>
    match regIx 0x18100C 0x10 2 off with
    | some k => signedNs (s.pairDiff k)
    | none => s.rd off

/-- LANES_DONE of a port: while it is in a stage of bring-up, some of its span's lanes, by bit; a stage that every lane has completed
is over at once, so that which have is a free value (R86; assumption 81). -/
def State.lanesDone (s : State) (b p : Nat) : Nat :=
  let st := s.pState b p
  if (1 ≤ st ∧ st ≤ 4) ∨ st = 8 then (Config.lanesDone (16 * b + p) s.now).toNat % 2 ^ formLanes (s.runForm b p) else 0

/-- A lane is another than the first of a multi-lane port's span: its codeword counters read zero (R99). -/
def State.laneSecond (s : State) (b l : Nat) : Bool :=
  (List.range 16).any fun p => (s.runLanes b p).contains l && s.runFirst b p != l

/-- A register of a lane as a bed window shows it. -/
def State.viewLane (s : State) (off base r : Nat) : Word :=
  if 0x1000000 ≤ off && 0xC0 ≤ r && r < 0xD0 && s.laneSecond ((off - 0x1000000) / 0x100000) (off % 0x100000 / 0x1000 % 16) then 0
  else s.rd (base + r)

/-- Registers of a bed window that show state kept elsewhere. -/
def State.viewBed (s : State) (off : Nat) : Word :=
  let b := (off - 0x1000000) / 0x100000
  let w := s.rd off
  if off = offMeshEpoch b then setFld 15 0 (s.oldInFlight b) w
  else if off = offParsePipeMap b then setBit 31 (s.mapBusy b) w
  else if off = offParsePipeStatus b then (List.range 5).foldl (fun w k => setBit (16 + k) (s.pipeFaulted b k) w) w
  else match regIx (offFhiChan b 0) 4 4 off with
    | some c =>
      let sent := s.mesh.handles.filter fun e => e.1 / 8192 == b && match e.2 with | some h => h.chan == c && h.sent | none => false
      w32 ((s.keyQueue b c).length * 65536 + sent.length)
    | none =>
      let r := off % 0x100000 % 0x100
      match regIx 0x1010 0x40 16 (off % 0x100000) with
      | some p => setFld 23 16 (s.lanesDone b p) w
      | none =>
      if 0x60000 ≤ off % 0x100000 ∧ off % 0x100000 < 0x61000 ∧ 0x50 ≤ r ∧ r < 0x70 then
        w32 (s.round (16 * s.posN b + (off % 0x100000 - 0x60000) / 0x100) ((r - 0x50) / 4))
      else w

/-- Registers of the rest of the window that show state kept elsewhere (chapters 05, 08, 09, 15, 16, 17). -/
def State.viewMid (s : State) (off : Nat) : Word :=
  let w := s.rd off
  if off = offTierStatus then s.tierStatus
  else if off = 0x400130 then w32 s.subsoilCap
  else if off = offMgmtStatus then setBit 31 (Config.mgmtLink s.now) (setBit 30 s.pwr.wakeArmed 0)
  else if off = offWakeStatus then (List.range 8).foldl (fun w k => setBit (8 + k) (s.patBad k) w) w
  else if 0x380000 ≤ off ∧ off < 0x380400 ∧ off % 0x40 = 0x18 then setBit 26 (s.assayFallback ((off - 0x380000) / 0x40)) w
  else if 0x480000 ≤ off ∧ off < 0x488000 then
    let k := (off - 0x480000) / 0x1000
    match off % 0x1000 with
    | 0x10 => setBit 19 (s.drainStall k) w
    | 0x50 => (cntWords (s.siltHeld k)).headD 0
    | 0x54 => (cntWords (s.siltHeld k)).getD 1 0
    | _ => w
  else if 0x501050 ≤ off ∧ off < 0x501170 ∧ 0x50 ≤ off % 0x100 ∧ off % 0x100 < 0x70 then
    w32 (s.round (if off < 0x501100 then 256 else 258) ((off % 0x100 - 0x50) / 4))
  else match regIx 0x600000 0x20 26 off with
    | some e => setFld 31 29 (s.engState e) w
    | none => w

/-- What a register reads as, side effects apart. A register of an absent feature, a reserved offset and a lane region that
reaches no lane read zero; a banked register shows the standby bank (R9, R44, R47, R54, chapter 07). -/
def State.view (s : State) (off : Nat) : Word :=
  if !s.present off then 0
  else match s.laneWord off with
    | some (some base, r) => s.viewLane off base r
    | some (none, _) => 0
    | none =>
      match regRow off with
      | none => if 0x20 ≤ off ∧ off < 0x1000 then s.viewId off else 0
      | some row =>
        let b := (off - 0x1000000) / 0x100000
        if row.bank = 1 then s.bankRd (1 - s.meshBank b) off
        else if row.bank = 2 then s.bankRd (1 - s.rewBank b) off
        else if off < 0x8000 then s.viewLow off
        else if off < 0x100000 then s.rd off
        else if off < 0x200000 then s.viewTime off
        else if 0x1000000 ≤ off ∧ off < 0x2100000 then s.viewBed off
        else s.viewMid off

/-- What a read does beside answering: a read of NOW_NS captures the base (R273), an RC field clears (R11). -/
def State.readEffect (s : State) (off : Nat) : State :=
  if !s.present off then s
  else match tbAt off with
    | some (k, 0x30) => s.nowCapture k
    | _ => match regRow off with
      | some row => if row.rc = 0 then s else s.wr off (s.rd off &&& ~~~row.rc)
      | none => s

/-- R5, R11, R45: a slave read request. A narrow or misaligned one errs and has no other effect; a register whose island is
not ON errs; any other is answered with what the register reads as, and has its effect. -/
def State.hostRead (s : State) (addr : BitVec 26) (be : BitVec 4) : State :=
  let off := addr.toNat
  if be ≠ 0xF || off % 4 ≠ 0 then (if s.hostOn then s.answer true 0 else s)
  else match s.door off with
    | .shut => s
    | .absent => s.answer false 0
    | .down => s.answer true 0
    | .through => (s.readEffect off).answer false (s.view off)

/-- R273: NOW_NS is read. -/
def execTbNowRead (k : Fin 10) (s : State) : Host.Outcome State Fault Refusal :=
  .next (s.hostRead (BitVec.ofNat 26 (tbNowReg k)) 0xF)

/-! ## The occupancy buses (R320) -/

/-- The value of an occupancy source. -/
def State.occSource (s : State) (src ix : Nat) : Nat :=
  let at_ := fun (p : Nat) => (s.bedOf p).getD p
  match src with
  | 1 => s.occ 0
  | 2 => s.occ 1
  | 3 => s.occ 2
  | 4 => if ix / 8 < 259 then s.classCount (ix / 8) (ix % 8) else 0
  | 5 => (s.mesh.handles.filter fun e => e.1 / 8192 == at_ (ix % 16) && match e.2 with | some h => h.sent | none => false).length
  | 6 => (s.sched.cache.filter fun k => k / 2 ^ 26 == ix % 16).length
  | 7 => (s.sched.indirect.filter fun e => portPos e.1 == ix % 16).length
  | _ => 0

/-- What occupancy bus j carries; isolated, it holds 0 (R66). -/
def State.occBus (s : State) (j : Nat) : Nat :=
  let w := s.rd (offPmuOcc j)
  if s.lineOn && bit 31 w then min 0xFFFF (s.occSource (fld 23 16 w) (fld 15 0 w) / 2 ^ fld 27 24 w) else 0

end Sys2Proof.Machine
end

