-- ==== Sys2Proof/Machine/Registers.lean ====
section
/-! DEFINITION. Writes through CFG (R5 to R15, R43 to R47, R54, R475): every register's write, whether it has a row of its own in
the command table or not. -/

namespace Sys2Proof.Machine

/-! ## A register without an action (R11) -/

/-- Clearing a mask bit whose status bit is 1 sends an event record (R316). `evt` is the EVT register. -/
def State.maskWrite (s : State) (evt : Nat) (v rw : Word) : State :=
  let due := s.rd evt &&& s.rd (evt + 4) &&& ~~~v &&& rw
  let s := s.wr (evt + 4) (v &&& rw)
  if due = 0 then s else { s with evWait := smod (fun _ => 0) s.evWait evt (· ||| due) }

/-- The register is the mask of an event register. -/
def isMask (off : Nat) : Bool :=
  decide (4 ≤ off) && match regRow (off - 4) with | some row => row.evt | none => false

/-- The word that a register holds after a write: RW fields take the value, in their ranges, W1C bits written 1 clear, W1S
bits written 1 set, and the rest stays. -/
def RegRow.written (row : RegRow) (old v : Word) : Word :=
  (v &&& row.rw) ||| (old &&& ~~~row.rw &&& ~~~(v &&& row.w1c)) ||| (v &&& row.w1s)

/-- A register takes a write by its access codes; `key` is its place in the register file. -/
def State.codeWrite (s : State) (off key : Nat) (v : Word) : State :=
  match regRow off with
  | some row => s.wr key (row.written (s.rd key) (clampReg off v))
  | none => s

/-- A banked register takes a write in the standby bank; while that is busy the write is discarded (R172, R193). -/
def State.bankWrite (s : State) (off bank : Nat) (v : Word) : State :=
  let b := (off - 0x1000000) / 0x100000
  if bank = 1 then
    if s.meshBusy b then (s.wrb (offMeshEpoch b) 21 true).raiseEvt (offMeshEvt b) 2
    else s.codeWrite off (off + (1 - s.meshBank b) * bankSpan) v
  else if s.rewBusy b then (s.wrb (offRewriteCtl b) 16 true).raiseEvt (offRewriteEvt b) 1
  else s.codeWrite off (off + (1 - s.rewBank b) * bankSpan) v

/-- A write of a register that has no action: by its access codes, to its bank, or to its mask. -/
def State.plainWrite (s : State) (off : Nat) (v : Word) : State :=
  match regRow off with
  | none => s
  | some row =>
    if row.bank ≠ 0 then s.bankWrite off row.bank v
    else if isMask off then s.maskWrite (off - 4) v row.rw
    else s.codeWrite off off v

/-- A command register: its fields, then with GO the command. -/
def State.cmdWrite (s : State) (off : Nat) (v : Word) (go : State → State) : State :=
  let s := s.plainWrite off v
  if bit 31 v then go s else s

/-! ## Registers with an action -/

/-- CLK.PLL: clearing LOCK_LOST ends HARM_ALARM for a PLL loss where no SAFETY_PACK can acknowledge it (R64). -/
def State.pllWrite (s : State) (v : Word) : State :=
  let s := s.plainWrite offClkPll v
  if bit 30 v && !s.hasSafety then s.harmMod fun h => { h with pllAlarm := false } else s

/-- RST.CTL: LINE_HOLD, then HOST_SELF (R69, R72). -/
def State.rstCtlWrite (s : State) (v : Word) : State :=
  let s := s.setLineHold (bit 0 v)
  if bit 1 v then (s.cause 2).hostDown else s

/-- Registers at 0x1000 to 0x4FFF (chapters 03, 18, 19). -/
def State.lowWrite (s : State) (port : Bool) (off : Nat) (v : Word) : State :=
  if off = offClkPll then s.pllWrite v
  else if off = offClkMonSel then s.monSel v
  else if off = offRstCtl then s.rstCtlWrite v
  else if off = offRstBed then s.rstBedWrite v
  else if off = offPwrState then s.pwrStateWrite (fld 1 0 v)
  else if off = offPwrIslandCtl then s.islandCtlWrite v
  else if off = offFuseProg then s.fuseProgWrite port v
  else if off = offLcReq then s.lcReqWrite port v
  else if off = offDbgCtl then s.dbgCtlWrite false v
  else if off = offDbgToken then s.dbgTokenWrite false v
  else if off = offKeyRevoke then s.keyRevokeWrite port v
  else match regIx 0x3200 4 64 off with
    | some i => s.mapRtWrite i v
    | none => s.plainWrite off v

/-- TB[k].CMD: GO runs the operation; an OP that names none does nothing but consume unlock (R275, R277). -/
def State.tbCmdWrite (s : State) (k : Nat) (v : Word) : State :=
  if !bit 31 v then s.plainWrite (tbCmd k) v
  else match fld 2 0 v with
    | 1 => s.tbSet k v
    | 2 => s.tbStep k v
    | 3 => s.tbSlew k v
    | _ => s.tbNothing k v

/-- PPS.OUT[j].CTL: the output holds its inactive level while EN is 0, and a pulse ends with EN (R297). -/
def State.ppsOutWrite (s : State) (j : Nat) (v : Word) : State :=
  let off := offPpsOutCtl j
  let t := s.plainWrite off v
  let t := if bit 31 v then t else t.stopTimer (.ppsOut j)
  if s.ppsAt j = t.ppsAt j then t else t.emit (.ppsLevel j (t.ppsAt j))

/-- Registers of the time unit (chapter 11). -/
def State.timeWrite (s : State) (port : Bool) (off : Nat) (v : Word) : State :=
  match tbAt off with
  | some (k, r) =>
    if r = 0x8 then s.addendWrite k v
    else if r = 0x10 then s.tbCmdWrite k v
    else if r = 0x24 then s.unlockWrite port k v
    else s.plainWrite off v
  | none =>
    if off = offTimeCaptureAll then (if bit 31 v then s.captureAll else s)
    else if off = offRef10Ctl then s.ref10Write v
    else if off = offActCmd then s.cmdWrite off v fun s => s.actOp (fld 1 0 v)
    else match regIx 0x102004 0x40 2 off, regIx 0x102100 0x10 2 off, regIx 0x181000 0x10 2 off with
      | some i, _, _ => if bit 31 v then s.setPpsQ i (s.ppsQ i).tail else s
      | _, some j, _ => s.ppsOutWrite j v
      | _, _, some k => s.pairCtlWrite k v
      | _, _, _ => s.plainWrite off v

/-- Registers of the rings, and the doorbell page (chapter 13). -/
def State.ringWrite (s : State) (off : Nat) (v : Word) : State :=
  if 0x2F0000 ≤ off then s.nudge v
  else match regIx 0x200010 0x40 512 off, regIx 0x208010 0x40 512 off, regIx 0x210010 0x40 256 off with
    | some k, _, _ => s.ringCtlWrite k v
    | _, some k, _ => s.ringCtlWrite (512 + k) v
    | _, _, some k => s.ringCtlWrite (1024 + k) v
    | _, _, _ => s.plainWrite off v

/-- AUG.EXPORT: each changed field takes its value where the write map permits it; a write with a refused field counts once
(R474, R475). -/
def State.exportWrite (s : State) (port : Bool) (v : Word) : State :=
  let off := offAugExport
  let differs := fun i => bit i v != s.rdb off i
  let f := differs 0 && !s.lkOk port .exportF
  let m := differs 1 && !s.lkOk port .exportM
  let t := if f then s else s.wrb off 0 (bit 0 v)
  let t := if m then t else t.wrb off 1 (bit 1 v)
  if f || m then t.wmapRefuse port off else t

/-- Registers of the Auger channels (chapter 14). -/
def State.augWrite (s : State) (port : Bool) (off : Nat) (v : Word) : State :=
  if off = offAugExport then s.exportWrite port v
  else match regIx 0x300000 0x40 32 off, regIx 0x30000C 0x40 32 off with
    | some c, _ => s.augCtlWrite c v
    | _, some c => s.augDoorbell c v
    | _, _ => s.plainWrite off v

/-- Registers of the Assay units (chapter 15). -/
def State.assayWrite (s : State) (off : Nat) (v : Word) : State :=
  if off = offScanCtl then s.scanCtlWrite v
  else match regIx 0x380018 0x40 16 off, regIx 0x38001C 0x40 16 off with
    | some u, _ => s.unitCfgWrite u v
    | _, some u => if bit 31 v then s.assayResync u else s
    | _, _ => s.plainWrite off v

/-- METER.CMD, MESH.TBL_CMD and REPL.CMD: the operation of an OP, 3 acting as 0. -/
def State.meterGo (s : State) (op : Nat) : State :=
  match op with | 1 => s.meterWrite true | 2 => s.meterWrite false | _ => s.meterRead
def State.tblGo (s : State) (b op : Nat) : State := match op with | 1 => s.tblWrite b | 2 => s.tblClear b | _ => s.tblRead b
def State.replGo (s : State) (op : Nat) : State := match op with | 1 => s.replWrite | 2 => s.replClear | _ => s.replRead

/-- FLOW.CMD and CLOD.CMD: the operation of an OP, 3 acting as 0. -/
def State.flowGo (s : State) (v : Word) : State :=
  match fld 28 27 v with | 1 => s.flowQuantum (fld 24 16 v) | 2 => s.flowZero | _ => s.flowRead
def State.clodGo (s : State) (v : Word) : State :=
  match fld 28 27 v with | 1 => s.clodWrite (fld 24 16 v) false | 2 => s.clodWrite (fld 24 16 v) true | _ => s.clodRead

/-- The index of an SH register by its offset in its port's block (R243). -/
def shIx (r : Nat) : Option Nat := (List.range 19).find? fun i => shOff i == r

/-- Registers of the scheduler's global window (chapters 07, 09). -/
def State.schedWrite (s : State) (off : Nat) (v : Word) : State :=
  if off = offFlowCmd then s.cmdWrite off v fun s => s.flowGo v
  else if off = offClodCmd then s.cmdWrite off v fun s => s.clodGo v
  else if off = offReplCmd then s.cmdWrite off v fun s => s.replGo (fld 1 0 v)
  else match slotOf 0x501000 0x100 2 off with
    | some q => match shIx (off % 0x100) with
      | some r => s.shWrite (.host (if q = 0 then 0 else 1)) r v
      | none => s.plainWrite off v
    | none => s.plainWrite off v

/-- MIN_VERSION: a value below the current one is ignored; a change is judged by the write map (chapter 17, registers). -/
def State.minVersionWrite (s : State) (port : Bool) (v : Word) : State :=
  if v = s.rd offMinVersion then s
  else s.lk port offMinVersion .load fun s => if v.toNat < (s.rd offMinVersion).toNat then s else s.wr offMinVersion v

/-- Registers of the tilth engines (chapter 17). -/
def State.tilthWrite (s : State) (port : Bool) (off : Nat) (v : Word) : State :=
  if off = offLoadCtl then s.loadCtlWrite port v
  else if off = offLoadData then s.loadDataWrite port v
  else if off = offMinVersion then s.minVersionWrite port v
  else match regIx 0x601000 0x20 24 off with
    | some r => s.roleCtlWrite r v
    | none => s.plainWrite off v

/-- TEL.CTL: with EN going to 1 the next wrap of a ring raises its event again (R313). -/
def State.telCtlWrite (s : State) (v : Word) : State :=
  let old := s.rdb offTelCtl 31
  let s := s.plainWrite offTelCtl v
  if bit 31 v && !old then s.telMod fun t => { t with wrapped := false } else s

/-- TEL.ARCH_CFG: the sizes wait for the line island's next ON (R312). -/
def State.archCfgWrite (s : State) (v : Word) : State :=
  let s := s.plainWrite offTelArchCfg v
  s.telMod fun t => { t with archNext := some (s.rd offTelArchCfg) }

/-- Registers of a lane, from its first register. -/
def State.laneWrite (s : State) (base r : Nat) (v : Word) : State :=
  if r = 0 then s.laneCtlWrite base v
  else if r = 0x10 || r = 0x14 || r = 0x18 then s.boardWrite base ((r - 0x10) / 4) v
  else if r = 0x80 then s.prbsCtlWrite base v
  else if r = 0x84 then s.prbsInjWrite base v
  else s.plainWrite (base + r) v

/-- PARSE.PIPE_STATUS: a pipe whose FAULTED bit is cleared is on trial (R446). -/
def State.pipeStatusWrite (s : State) (b : Nat) (v : Word) : State :=
  let off := offParsePipeStatus b
  let freed := (List.range 5).filter fun k => s.rdb off (16 + k) && bit (16 + k) v && !s.pipeMapped b k
  freed.foldl (fun s k => s.setTrial b k (some 0)) (s.plainWrite off v)

/-- The shadow registers of a port's gate list are refused while an adoption is pending (R265). -/
def State.gateShWrite (s : State) (b p off : Nat) (v : Word) : State :=
  if s.gateState b p % 2 = 1 then s.shadowListRefused b p else s.plainWrite off v

/-- Registers of bed window b (chapters 04 to 11), of its local port p where the offset names one. -/
def State.bedWrite (s : State) (b : BedIx) (off : Nat) (v : Word) : State :=
  let r := off % 0x100000
  if off = offParsePipeMap b then s.pipeMapWrite b v
  else if off = offParseCtl b then s.parseCtlWrite b v
  else if off = offParsePipeStatus b then s.pipeStatusWrite b v
  else if off = offMeshCtl b then s.meshCtlWrite b v
  else if off = offMeshTblCmd b then s.cmdWrite off v fun s => s.tblGo b (fld 1 0 v)
  else if off = offRewriteCtl b then s.rewCtlWrite b v
  else if off = offMeterDscpMap b 0 then (s.plainWrite off v).meterHostWrite b 0 v
  else if off = offMeterDscpMap b 1 then (s.plainWrite off v).meterHostWrite b 1 v
  else if off = offGateCmd b then
    s.cmdWrite off v fun s => if fld 1 0 v = 1 then s.gateListWrite b else s.gateListRead b
  else match regIx 0x1000 0x40 16 r, regIx 0x20020 0x1000 16 r, slotOf 0x60000 0x100 16 r, slotOf 0x70000 0x80 16 r,
      regIx 0x80400 0x800 16 r, regIx 0x90008 0x100 16 r with
    | some p, _, _, _, _, _ => s.formWrite b p v
    | _, some p, _, _, _, _ => s.mmCtlWrite b p v
    | _, _, some p, _, _, _ => match shIx (r % 0x100) with
      | some i => s.shWrite (.net b (BitVec.ofNat 4 p).toFin) i v
      | none => s.plainWrite off v
    | _, _, _, some p, _, _ =>
      let q := r % 0x80
      if q = 0 then s.gateCtlWrite b p v
      else if 0x8 ≤ q && q < 0x1C then s.gateShWrite b p off v
      else s.plainWrite off v
    | _, _, _, _, some p, _ =>
      if bit 30 v then s.snap (16 * b.val + p) true else if bit 31 v then s.snap (16 * b.val + p) false else s
    | _, _, _, _, _, some p => s.tsqWrite b p v
    | _, _, _, _, _, _ => s.plainWrite off v

/-- The rest of the block window (chapters 05, 08, 12, 16, 18). -/
def State.restWrite (s : State) (off : Nat) (v : Word) : State :=
  if off = offMeterCmd then s.cmdWrite off v fun s => s.meterGo (fld 1 0 v)
  else if off = offHarmAck then s.harmAck (fld 15 0 v)
  else if off = offTelCtl then s.telCtlWrite v
  else if off = offTelArchCfg then s.archCfgWrite v
  else if off = offMdioCtl then s.mdioWrite v
  else if off = offMgmtStatCtl then
    (if bit 30 v then s.snap mgmtMac true else if bit 31 v then s.snap mgmtMac false else s)
  else if off = offSwapCtl then s.swapCtlWrite v
  else match regIx 0x480000 0x1000 8 off with
    | some k => s.siltCtlWrite k v
    | none => s.plainWrite off v

/-- The effect of a write of a register that the access reaches, by the host port or by the debug port. -/
def State.regWrite (s : State) (port : Bool) (off : Nat) (v : Word) : State :=
  match s.laneWord off with
  | some (some base, r) => s.laneWrite base r v
  | some (none, _) => s
  | none =>
    if off < 0x100000 then s.lowWrite port off v
    else if off < 0x200000 then s.timeWrite port off v
    else if off < 0x300000 then s.ringWrite off v
    else if off < 0x380000 then s.augWrite port off v
    else if off < 0x400000 then s.assayWrite off v
    else if 0x500000 ≤ off ∧ off < 0x600000 then s.schedWrite off v
    else if 0x600000 ≤ off ∧ off < 0x700000 then s.tilthWrite port off v
    else if h : 0x1000000 ≤ off ∧ off < 0x2100000 ∧ off ≠ offSwapCtl then
      s.bedWrite ⟨(off - 0x1000000) / 0x100000, by omega⟩ off v
    else s.restWrite off v

/-- R5, R11: a slave write request: one that is narrow or misaligned errs, and any other has its register's effect. -/
def execRegisterWrite (addr : BitVec 26) (v : Word) (be : BitVec 4) (s : State) : Host.Outcome State Fault Refusal :=
  let off := addr.toNat
  if be ≠ 0xF || off % 4 ≠ 0 then .next (if s.hostOn then s.answer true 0 else s)
  else .next (s.cfg off fun s => s.regWrite false off v)

/-- The register is a word of a counter (R15, R99). -/
def isCounter (off : Nat) : Bool :=
  off == offRstLineLossLo || off == offRstLineLossHi || match regRow off with | some row => row.cnt | none => false

/-- R15: a word of a counter is written: it sets the base value. -/
def execCounterWrite (addr : BitVec 26) (v : Word) (s : State) : Host.Outcome State Fault Refusal :=
  let off := addr.toNat
  .next (if isCounter off then s.cfg off fun s => s.regWrite false off v else s)

/-- R316: the mask of an event register is written. -/
def execEvtMaskClear (evt : BitVec 26) (v : Word) (s : State) : Host.Outcome State Fault Refusal :=
  let off := evt.toNat + 4
  .next (if isMask off then s.cfg off fun s => s.regWrite false off v else s)

end Sys2Proof.Machine
end

