-- ==== Sys2Proof/Machine/Debug.lean ====
section
/-! DEFINITION. The debug access port's accesses (chapter 19, R467, R468). -/

namespace Sys2Proof.Machine

/-- A register of the debug port takes a value. -/
def State.dpSet (s : State) (a : Nat) (v : Word) : State :=
  s.secMod fun x => { x with dp := sset (fun _ => 0) x.dp a v }

/-- Registers of the debug port take the words of a list. -/
def State.dpSets (s : State) (a : Nat) : List Word → State
  | [] => s
  | w :: ws => (s.dpSet a w).dpSets (a + 4) ws

/-- What a register of the debug port reads as (R468): at CLOSED only DP.ID, DP.CTL and DP.CHAL are read. -/
def State.dpView (s : State) (a : Nat) : Option Word :=
  if a = 0 then some 0x4C540001
  else if a = 0x04 then some (s.dbgCtlView true)
  else match regIx 0x10 4 4 a with
    | some i => some (w32 (s.sec.port.chal / 2 ^ (32 * i)))
    | none =>
      if a = 0x20 then some 0
      else if s.sec.port.level = 0 || 0x90 ≤ a then none
      else some (sget (fun _ => 0) s.sec.dp a)

/-- The debug port answers: the wake island has power and is not in FALLOW (R489). -/
def State.dpAnswers (s : State) : Bool := s.pwr.porN && !s.pwr.fallow

/-- An offset lies in a line-side region (R43). -/
def lineSide (off : Nat) : Bool :=
  (0x100000 ≤ off && off < 0x200000) || (0x380000 ≤ off && off < 0x800000) || (0x1000000 ≤ off && off < 0x2100000)

/-- The access a GO asks for is one the session grants and the line side can answer (R467, R468). -/
def State.dpGrants (s : State) (off : Nat) (write : Bool) : Bool :=
  (if write then 2 ≤ s.sec.port.level else 1 ≤ s.sec.port.level) && lineSide off && off % 4 == 0 && s.lineOn && s.reach off

/-- R468: DP.DATA and then DP.ADDR are written, with GO. At CLOSED the registers themselves err. -/
def execDpAccess (addr data : Word) (s : State) : Host.Outcome State Fault Refusal :=
  let off := fld 25 0 addr
  let write := bit 31 addr
  if !s.dpAnswers then .next s
  else if s.sec.port.level = 0 then .next (s.emit (.dpResponse true 0))
  else
    let s := (s.dpSet 0x34 data).dpSet 0x30 (addr &&& 0x83FFFFFF)
    if !s.dpGrants off write then .next ((s.dpSet 0x30 (setBit 29 true (addr &&& 0x83FFFFFF))).emit (.dpResponse true 0))
    else if write then
      .next ((if s.present off then s.writeThrough (s.regWrite true off data) off else s).emit (.dpResponse false 0))
    else
      let v := s.view off
      .next (((s.readEffect off).dpSet 0x34 v).emit (.dpResponse false v))

/-- n free words (assumption 3). -/
def State.freeWords (s : State) : Nat → List Word × State
  | 0 => ([], s)
  | n + 1 =>
    let (v, s) := s.draw
    let (ws, s) := s.freeWords n
    (w32 v :: ws, s)

/-- The key of a 64-byte line of a space: 0 topsoil, 1 subsoil. -/
def lineKey (space addr : Nat) : Nat := space * 2 ^ 40 + addr / 64

/-- A byte address lies in a space (R468). -/
def spaceHas (space addr : Nat) : Bool :=
  if space = 0 then decide (addr < 335544320) else if space = 1 then decide (addr < 549755813888) else false

/-- What a 64-byte line of topsoil or subsoil reads as: what the port wrote there, or the zeros of a wipe, while nothing of the
block has written since; else a free value. -/
def State.memLine (s : State) (space addr : Nat) : List Word × State :=
  let stamp := s.memStamp
  let kept := if s.sec.linesAt = stamp then sget (fun _ => none) s.sec.lines (lineKey space addr) else none
  match kept with
  | some ws => (ws, s)
  | none => if s.sec.zeroed = some stamp then (List.replicate 16 0, s) else s.freeWords 16

/-- A 64-byte line of topsoil or subsoil is written. -/
def State.memStore (s : State) (space addr : Nat) (ws : List Word) : State :=
  let stamp := s.memStamp
  s.secMod fun x =>
    let old := if x.linesAt = stamp then x.lines else []
    { x with lines := sset (fun _ => none) old (lineKey space addr) (some ws), linesAt := stamp }

/-- A line that holds a grain of a frame is written: no grain check is recomputed, so the grain fails its check when it is next
used (R437, R468). -/
def State.grainSpoil (s : State) (space : Nat) (grain : Option Nat) : State :=
  match grain with
  | some f => s.frameMod f fun x => { x with spoiled := x.spoiled || x.tier == space }
  | none => s

/-- A DP.MEM access ends: ERR in MEM_CTL, and the port's answer. -/
def State.memEnd (s : State) (ctl : Word) (err : Bool) : State :=
  (s.dpSet 0x48 (setBit 29 err (ctl &&& 0x40000003))).emit (.dpResponse err 0)

/-- R468: DP.MEM_ADDR, the DP.MEM_DATA words and then DP.MEM_CTL are written, with GO. `grain` is the frame that has a grain in
the line, where the block has put one there. -/
def execDpMemAccess (addr64 : BitVec 64) (ctl : Word) (data : List Word) (grain : Option Nat) (s : State) : Host.Outcome State Fault Refusal :=
  let addr := addr64.toNat
  let write := bit 30 ctl
  let space := fld 1 0 ctl
  if !s.dpAnswers then .next s
  else if s.sec.port.level = 0 then .next (s.emit (.dpResponse true 0))
  else
    let ws := (data ++ List.replicate 16 0).take 16
    let s := ((s.dpSet 0x40 (addr64.truncate 32)).dpSet 0x44 (w32 (addr64.toNat / 2 ^ 32))).dpSets 0x50 ws
    if s.sec.port.level ≠ 3 || !s.lineOn then .next (s.memEnd ctl true)
    else if space = 2 then
      let e := addr / 2 ^ 40 % 64
      if write || 26 ≤ e then .next (s.memEnd ctl true)
      else
        let w := (s.eng e).store.getD (addr % 16384) 0
        .next ((s.dpSets 0x50 [w32 w.toNat, w32 (w.toNat / 2 ^ 32), w32 (w.toNat / 2 ^ 64)]).memEnd ctl false)
    else if !spaceHas space addr then .next (s.memEnd ctl true)
    else if write then .next (((s.memStore space addr ws).grainSpoil space grain).memEnd ctl false)
    else
      let (out, s) := s.memLine space addr
      .next ((s.dpSets 0x50 out).memEnd ctl false)

end Sys2Proof.Machine
end

