-- ==== Sys2Proof/Machine/Fabric.lean ====
section
/-! DEFINITION. The event fabric's pulses and the consumers they reach (R371 to R373), and the end of an Assay scan entry, which
reads the block window (R386, R387). -/

namespace Sys2Proof.Machine

/-- A command on a bed that the block itself issues, written through to the marl copy as a write of `off` would be. -/
def State.onBed (s : State) (off : Nat) (f : State → State) : State := s.writeThrough (f s) off

/-- The consumers in bed b: rule-set, rewrite and gate list commits (R372). -/
def State.bedPulse (s : State) (b : BedIx) (line : Nat) : State :=
  let bound := fun (s : State) (off en hi lo : Nat) => s.rdb off en && s.rdf off hi lo == line
  if !s.bedOn b then s
  else
    let s := if bound s (offMeshCtl b) 30 29 24 then s.onBed (offMeshCtl b) fun s => s.meshCommitBy b true else s
    let s := if bound s (offRewriteCtl b) 30 29 24 then s.onBed (offRewriteCtl b) fun s => s.rewCommitBy b true else s
    (List.range 16).foldl (fun s p =>
      if bound s (offGateCtl b p) 28 27 22 then s.onBed (offGateCtl b p) fun s => s.gateCommitBy b p true else s) s

/-- The timed actions whose ARM_LINE is the line (R291). -/
def State.actPulse (s : State) (line : Nat) : State :=
  (s.time.slots.filter fun e => bit 31 e.2.w5 && fld 29 24 e.2.w5 == line).foldl (fun s e => s.actArm e.1) s

/-- The line-side consumers of a pulse. -/
def State.linePulse (s : State) (line : Nat) : State :=
  let s := (List.finRange 17).foldl (fun s b => s.bedPulse b line) s
  let s := s.actPulse line
  let s := (List.range 2).foldl (fun s k =>
    if s.rdb (offPairCtl k) 28 && s.rdf (offPairCtl k) 27 22 == line then s.pairSwitch k else s) s
  let s := if s.rdb offScanCtl 29 && s.rdf offScanCtl 28 23 == line then s.scanGo else s
  s.tilthWake line

/-- The ring nudges bound to a line (R373). -/
def State.nudgePulse (s : State) (line : Nat) : State :=
  (List.range 16).foldl (fun s i =>
    let w := s.rd (offAugNudge i)
    if bit 31 w && fld 29 24 w == line then s.nudge w else s) s

/-- R371: a pulse that waits on a line is delivered to every consumer bound to it, on both sides of the sieve. -/
def execFabricPulse (line : Fin 64) (s : State) : Host.Outcome State Fault Refusal :=
  let n := sget (fun _ => 0) s.fabric line.val
  if n = 0 then .next s
  else
    let s := { s with fabric := sset (fun _ => 0) s.fabric line.val (n - 1) }
    let s := if s.lineOn then s.linePulse line else s
    .next (if s.hostOn then s.nudgePulse line else s)

/-- The bytes of the block window that a scan entry of SPACE 0 reads (R386). -/
def State.windowBytes (s : State) (start len : Nat) : List Byte :=
  wordBytes ((List.range (len / 4)).map fun i => s.view (start + 4 * i))

/-- R387: the scan entry in front ends. SPACE 0 reads the block window; `data` is what the marl copy is read to hold. -/
def execScanEntryEnd (data : List Byte) (s : State) : Host.Outcome State Fault Refusal :=
  match s.assay.pass with
  | some (e :: rest) =>
    if !s.lineOn then .next s
    else
      let bytes :=
        if fld 25 24 e.ctl = 0 then s.windowBytes e.start e.len
        else (data ++ List.replicate (e.len - data.length) 0).take e.len
      .next ((s.scanJudge e (crc s.assay.entrySet bytes)).scanNext rest)
  | _ => .next s

end Sys2Proof.Machine
end

