-- ==== Sys2Proof/Machine/Dispatch.lean ====
section
/-! DEFINITION. The commands' meanings, one arm for each constructor of `Instr`. -/

namespace Sys2Proof.Machine

def exec (i : Instr) (s : State) : Host.Outcome State Fault Refusal :=
  match i with
  | .registerWrite addr v be => Sys2Proof.Machine.execRegisterWrite addr v be s
  | .counterWrite addr v => Sys2Proof.Machine.execCounterWrite addr v s
  | .macReceiveFrame b p smd bytes rest pcsErr cut gapPs fecCorr fecUncorr fecSym => Sys2Proof.Machine.execMacReceiveFrame b p smd bytes rest pcsErr cut gapPs fecCorr fecUncorr fecSym s
  | .parseWindow f pslot recheck start => Sys2Proof.Machine.execParseWindow f pslot recheck start s
  | .payloadMatchFinal f => Sys2Proof.Machine.execPayloadMatchFinal f s
  | .tailCheck f => Sys2Proof.Machine.execTailCheck f s
  | .keySend b c => Sys2Proof.Machine.execKeySend b c s
  | .keyCreditReturn b c => Sys2Proof.Machine.execKeyCreditReturn b c s
  | .verdictReceive b c msg => Sys2Proof.Machine.execVerdictReceive b c msg s
  | .handoffTimeout b slot => Sys2Proof.Machine.execHandoffTimeout b slot s
  | .enqueue c => Sys2Proof.Machine.execEnqueue c s
  | .multicastReplicate f => Sys2Proof.Machine.execMulticastReplicate f s
  | .mirrorCopy f => Sys2Proof.Machine.execMirrorCopy f s
  | .recirculate f grainBad => Sys2Proof.Machine.execRecirculate f grainBad s
  | .selection port => Sys2Proof.Machine.execSelection port s
  | .egressEdit c grainBad => Sys2Proof.Machine.execEgressEdit c grainBad s
  | .macTransmitFrame c lane tagBad => Sys2Proof.Machine.execMacTransmitFrame c lane tagBad s
  | .sieveFrameOut c grainBad => Sys2Proof.Machine.execSieveFrameOut c grainBad s
  | .powerOnReset level => Sys2Proof.Machine.execPowerOnReset level s
  | .hostResetPin level => Sys2Proof.Machine.execHostResetPin level s
  | .lineResetPin level => Sys2Proof.Machine.execLineResetPin level s
  | .railFault rail => Sys2Proof.Machine.execRailFault rail s
  | .rstCtlHostSelf lineHold => Sys2Proof.Machine.execRstCtlHostSelf lineHold s
  | .rstCtlLineHold hold => Sys2Proof.Machine.execRstCtlLineHold hold s
  | .rstBedWrite v => Sys2Proof.Machine.execRstBedWrite v s
  | .pwrIslandCtlWrite v => Sys2Proof.Machine.execPwrIslandCtlWrite v s
  | .railGood ix => Sys2Proof.Machine.execRailGood ix s
  | .rampTimeout ix => Sys2Proof.Machine.execRampTimeout ix s
  | .islandResetRelease ix => Sys2Proof.Machine.execIslandResetRelease ix s
  | .bridgeCentred ix => Sys2Proof.Machine.execBridgeCentred ix s
  | .pllLockLoss => Sys2Proof.Machine.execPllLockLoss s
  | .pllRelock => Sys2Proof.Machine.execPllRelock s
  | .clkMonStart v => Sys2Proof.Machine.execClkMonStart v s
  | .clkMonWindowEnd count => Sys2Proof.Machine.execClkMonWindowEnd count s
  | .portFormWrite b p v => Sys2Proof.Machine.execPortFormWrite b p v s
  | .portDetectDone b p => Sys2Proof.Machine.execPortDetectDone b p s
  | .portTrainDone b p asks => Sys2Proof.Machine.execPortTrainDone b p asks s
  | .portLockDone b p skewNs => Sys2Proof.Machine.execPortLockDone b p skewNs s
  | .portExchangeConfirm b p form fec => Sys2Proof.Machine.execPortExchangeConfirm b p form fec s
  | .portExchangeMismatch b p form fec => Sys2Proof.Machine.execPortExchangeMismatch b p form fec s
  | .portStageTimeout b p => Sys2Proof.Machine.execPortStageTimeout b p s
  | .laneLockLoss b lost => Sys2Proof.Machine.execLaneLockLoss b lost s
  | .reformDone b p asks => Sys2Proof.Machine.execReformDone b p asks s
  | .reformLimitExpire b p => Sys2Proof.Machine.execReformLimitExpire b p s
  | .gapRetry b p => Sys2Proof.Machine.execGapRetry b p s
  | .dormantWakeDone b p => Sys2Proof.Machine.execDormantWakeDone b p s
  | .laneRecovered b l => Sys2Proof.Machine.execLaneRecovered b l s
  | .faultHoldExpire b p => Sys2Proof.Machine.execFaultHoldExpire b p s
  | .laneModeOff l v => Sys2Proof.Machine.execLaneModeOff l v s
  | .laneModePort l v => Sys2Proof.Machine.execLaneModePort l v s
  | .laneModeTest l v => Sys2Proof.Machine.execLaneModeTest l v s
  | .laneReset l v => Sys2Proof.Machine.execLaneReset l v s
  | .boardTableWrite l word v => Sys2Proof.Machine.execBoardTableWrite l word v s
  | .prbsChkClear l v => Sys2Proof.Machine.execPrbsChkClear l v s
  | .prbsSyncAcquire l => Sys2Proof.Machine.execPrbsSyncAcquire l s
  | .prbsSyncLoss l errors => Sys2Proof.Machine.execPrbsSyncLoss l errors s
  | .prbsErrorInject l => Sys2Proof.Machine.execPrbsErrorInject l s
  | .pauseFrameReceive m da sa quanta => Sys2Proof.Machine.execPauseFrameReceive m da sa quanta s
  | .pfcFrameReceive b p enable quanta => Sys2Proof.Machine.execPfcFrameReceive b p enable quanta s
  | .pauseTimerExpire m ix => Sys2Proof.Machine.execPauseTimerExpire m ix s
  | .pauseWatchdogTrip b p ix => Sys2Proof.Machine.execPauseWatchdogTrip b p ix s
  | .watchdogHoldEnd b p ix => Sys2Proof.Machine.execWatchdogHoldEnd b p ix s
  | .pauseSend bed p => Sys2Proof.Machine.execPauseSend bed p s
  | .pauseRefresh bed p c => Sys2Proof.Machine.execPauseRefresh bed p c s
  | .remoteFaultChange b p remote => Sys2Proof.Machine.execRemoteFaultChange b p remote s
  | .mergeVerifyStart b p => Sys2Proof.Machine.execMergeVerifyStart b p s
  | .mergeRespondReceive b p => Sys2Proof.Machine.execMergeRespondReceive b p s
  | .mergeVerifyTimeout b p => Sys2Proof.Machine.execMergeVerifyTimeout b p s
  | .mergeVerifyRestart b p v => Sys2Proof.Machine.execMergeVerifyRestart b p v s
  | .mergeVerifyFrameReceive b p => Sys2Proof.Machine.execMergeVerifyFrameReceive b p s
  | .preemptFragment c ready => Sys2Proof.Machine.execPreemptFragment c ready s
  | .statSnap m => Sys2Proof.Machine.execStatSnap m s
  | .statSnapClear m => Sys2Proof.Machine.execStatSnapClear m s
  | .mgmtFrameReceive bytes part rxEr => Sys2Proof.Machine.execMgmtFrameReceive bytes part rxEr s
  | .mgmtCollision bits => Sys2Proof.Machine.execMgmtCollision bits s
  | .mgmtBackoffEnd => Sys2Proof.Machine.execMgmtBackoffEnd s
  | .mdioStart v => Sys2Proof.Machine.execMdioStart v s
  | .mdioDone data => Sys2Proof.Machine.execMdioDone data s
  | .wakeFrame frame fcsGood => Sys2Proof.Machine.execWakeFrame frame fcsGood s
  | .pipeMapWrite b v => Sys2Proof.Machine.execPipeMapWrite b v s
  | .pipeParityError b pipe held => Sys2Proof.Machine.execPipeParityError b pipe held s
  | .pipeTrialPass b pipe => Sys2Proof.Machine.execPipeTrialPass b pipe s
  | .meshCommit b v => Sys2Proof.Machine.execMeshCommit b v s
  | .meshDrained b => Sys2Proof.Machine.execMeshDrained b s
  | .meshTblRead b => Sys2Proof.Machine.execMeshTblRead b s
  | .meshTblWrite b => Sys2Proof.Machine.execMeshTblWrite b s
  | .meshTblClear b => Sys2Proof.Machine.execMeshTblClear b s
  | .rewriteCommit b v => Sys2Proof.Machine.execRewriteCommit b v s
  | .rewriteDrained b => Sys2Proof.Machine.execRewriteDrained b s
  | .replRead => Sys2Proof.Machine.execReplRead s
  | .replWrite => Sys2Proof.Machine.execReplWrite s
  | .replClear => Sys2Proof.Machine.execReplClear s
  | .meterRead => Sys2Proof.Machine.execMeterRead s
  | .meterWriteFull => Sys2Proof.Machine.execMeterWriteFull s
  | .meterWriteKeep => Sys2Proof.Machine.execMeterWriteKeep s
  | .meterRefresh id => Sys2Proof.Machine.execMeterRefresh id s
  | .spillMove f link grainBad => Sys2Proof.Machine.execSpillMove f link grainBad s
  | .moveAck f => Sys2Proof.Machine.execMoveAck f s
  | .prefetchIssue f => Sys2Proof.Machine.execPrefetchIssue f s
  | .prefetchComplete f grainBad => Sys2Proof.Machine.execPrefetchComplete f grainBad s
  | .shadowWrite p r v => Sys2Proof.Machine.execShadowWrite p r v s
  | .handover p => Sys2Proof.Machine.execHandover p s
  | .flowRead => Sys2Proof.Machine.execFlowRead s
  | .flowWriteQuantum hport => Sys2Proof.Machine.execFlowWriteQuantum hport s
  | .flowZeroDeq => Sys2Proof.Machine.execFlowZeroDeq s
  | .clodRead => Sys2Proof.Machine.execClodRead s
  | .clodWrite hport => Sys2Proof.Machine.execClodWrite hport s
  | .clodWriteFull hport => Sys2Proof.Machine.execClodWriteFull hport s
  | .schedInit => Sys2Proof.Machine.execSchedInit s
  | .schedInitDone => Sys2Proof.Machine.execSchedInitDone s
  | .clodRefresh id => Sys2Proof.Machine.execClodRefresh id s
  | .clodRejoin id => Sys2Proof.Machine.execClodRejoin id s
  | .cacheFetchDone pos flow => Sys2Proof.Machine.execCacheFetchDone pos flow s
  | .gateCommit b p v => Sys2Proof.Machine.execGateCommit b p v s
  | .gateAbort b p v => Sys2Proof.Machine.execGateAbort b p v s
  | .gateAdopt b p => Sys2Proof.Machine.execGateAdopt b p s
  | .gateBoundary b p => Sys2Proof.Machine.execGateBoundary b p s
  | .gateHoldAdvance b p => Sys2Proof.Machine.execGateHoldAdvance b p s
  | .gateAbandon b p => Sys2Proof.Machine.execGateAbandon b p s
  | .gateListRead b => Sys2Proof.Machine.execGateListRead b s
  | .gateListWrite b => Sys2Proof.Machine.execGateListWrite b s
  | .addendWrite k v => Sys2Proof.Machine.execAddendWrite k v s
  | .tbNowRead k => Sys2Proof.Machine.execTbNowRead k s
  | .captureAll => Sys2Proof.Machine.execCaptureAll s
  | .tbSet k v => Sys2Proof.Machine.execTbSet k v s
  | .tbStep k v => Sys2Proof.Machine.execTbStep k v s
  | .tbSlew k v => Sys2Proof.Machine.execTbSlew k v s
  | .slewEnd k => Sys2Proof.Machine.execSlewEnd k s
  | .unlockWrite k v => Sys2Proof.Machine.execUnlockWrite k v s
  | .unlockExpire k => Sys2Proof.Machine.execUnlockExpire k s
  | .actRead => Sys2Proof.Machine.execActRead s
  | .actWrite => Sys2Proof.Machine.execActWrite s
  | .actArm => Sys2Proof.Machine.execActArm s
  | .actDisarm => Sys2Proof.Machine.execActDisarm s
  | .actFire k slot => Sys2Proof.Machine.execActFire k slot s
  | .tsqPop b p v => Sys2Proof.Machine.execTsqPop b p v s
  | .ppsInEdge ix falling => Sys2Proof.Machine.execPpsInEdge ix falling s
  | .ppsInPop ix => Sys2Proof.Machine.execPpsInPop ix s
  | .ppsOutEnd j => Sys2Proof.Machine.execPpsOutEnd j s
  | .ref10Go v => Sys2Proof.Machine.execRef10Go v s
  | .ref10Done elapsed noSignal => Sys2Proof.Machine.execRef10Done elapsed noSignal s
  | .timeMonSample m noEdge => Sys2Proof.Machine.execTimeMonSample m noEdge s
  | .pairSwitch k v => Sys2Proof.Machine.execPairSwitch k v s
  | .pairReturn k v => Sys2Proof.Machine.execPairReturn k v s
  | .pairSwitchDone k => Sys2Proof.Machine.execPairSwitchDone k s
  | .intervalSettle => Sys2Proof.Machine.execIntervalSettle s
  | .archiveWriteAck classRing => Sys2Proof.Machine.execArchiveWriteAck classRing s
  | .eventRecordSend evt => Sys2Proof.Machine.execEventRecordSend evt s
  | .evtMaskClear evt v => Sys2Proof.Machine.execEvtMaskClear evt v s
  | .nudge v => Sys2Proof.Machine.execNudge v s
  | .doorbellPoll r => Sys2Proof.Machine.execDoorbellPoll r s
  | .doorbellRecordArrive r words => Sys2Proof.Machine.execDoorbellRecordArrive r words s
  | .hostReadTimeout r => Sys2Proof.Machine.execHostReadTimeout r s
  | .hostErrorResponse r write => Sys2Proof.Machine.execHostErrorResponse r write s
  | .ringEnable r v => Sys2Proof.Machine.execRingEnable r v s
  | .ringDisable r v => Sys2Proof.Machine.execRingDisable r v s
  | .ringReset r v => Sys2Proof.Machine.execRingReset r v s
  | .ringDrained r => Sys2Proof.Machine.execRingDrained r s
  | .txDescArrive t descs => Sys2Proof.Machine.execTxDescArrive t descs s
  | .txFrameCross grainBad => Sys2Proof.Machine.execTxFrameCross grainBad s
  | .txWriteback t => Sys2Proof.Machine.execTxWriteback t s
  | .txFateReport => Sys2Proof.Machine.execTxFateReport s
  | .tsWaitExpire t => Sys2Proof.Machine.execTsWaitExpire t s
  | .rxFrameArrive => Sys2Proof.Machine.execRxFrameArrive s
  | .rxShortWaitExpire r => Sys2Proof.Machine.execRxShortWaitExpire r s
  | .rxWriteback r addrs => Sys2Proof.Machine.execRxWriteback r addrs s
  | .vectorArmWrite v w => Sys2Proof.Machine.execVectorArmWrite v w s
  | .vectorMessage v => Sys2Proof.Machine.execVectorMessage v s
  | .augDoorbell c v => Sys2Proof.Machine.execAugDoorbell c v s
  | .augPause c v => Sys2Proof.Machine.execAugPause c v s
  | .augUnpause c v => Sys2Proof.Machine.execAugUnpause c v s
  | .augResume c v => Sys2Proof.Machine.execAugResume c v s
  | .augAbort c v => Sys2Proof.Machine.execAugAbort c v s
  | .augDescArrive c words index err => Sys2Proof.Machine.execAugDescArrive c words index err s
  | .augSourceRead c read err => Sys2Proof.Machine.execAugSourceRead c read err s
  | .augWriteResponse c ix err => Sys2Proof.Machine.execAugWriteResponse c ix err s
  | .fabricPulse line => Sys2Proof.Machine.execFabricPulse line s
  | .assayCommit u v => Sys2Proof.Machine.execAssayCommit u v s
  | .assayParityError u => Sys2Proof.Machine.execAssayParityError u s
  | .assayResync u v => Sys2Proof.Machine.execAssayResync u v s
  | .scanStart written => Sys2Proof.Machine.execScanStart written s
  | .scanEntryEnd data => Sys2Proof.Machine.execScanEntryEnd data s
  | .siltEnable k v => Sys2Proof.Machine.execSiltEnable k v s
  | .siltDisable k v => Sys2Proof.Machine.execSiltDisable k v s
  | .siltStageDone k lanes asks => Sys2Proof.Machine.execSiltStageDone k lanes asks s
  | .siltStageTimeout k lanes asks => Sys2Proof.Machine.execSiltStageTimeout k lanes asks s
  | .siltCapSend k => Sys2Proof.Machine.execSiltCapSend k s
  | .siltCapReceive k words => Sys2Proof.Machine.execSiltCapReceive k words s
  | .siltCapAckReceive k => Sys2Proof.Machine.execSiltCapAckReceive k s
  | .readDataReceive k seq ack addr wack err grainBad => Sys2Proof.Machine.execReadDataReceive k seq ack addr wack err grainBad s
  | .writeAckReceive k seq ack count => Sys2Proof.Machine.execWriteAckReceive k seq ack count s
  | .creditReceive k seq ack wcred rcred => Sys2Proof.Machine.execCreditReceive k seq ack wcred rcred s
  | .nakReceive k ack expected => Sys2Proof.Machine.execNakReceive k ack expected s
  | .laneFailReceive k ack ix => Sys2Proof.Machine.execLaneFailReceive k ack ix s
  | .laneMapAckReceive k ack map => Sys2Proof.Machine.execLaneMapAckReceive k ack map s
  | .moduleStatusReceive k seq ack words => Sys2Proof.Machine.execModuleStatusReceive k seq ack words s
  | .replayTimeout k => Sys2Proof.Machine.execReplayTimeout k s
  | .siltLossTimeout k => Sys2Proof.Machine.execSiltLossTimeout k s
  | .siltLaneLost k ix => Sys2Proof.Machine.execSiltLaneLost k ix s
  | .laneMapResend k => Sys2Proof.Machine.execLaneMapResend k s
  | .siltSpareRecover k ix => Sys2Proof.Machine.execSiltSpareRecover k ix s
  | .siltNullSend k => Sys2Proof.Machine.execSiltNullSend k s
  | .siltGapRetry k => Sys2Proof.Machine.execSiltGapRetry k s
  | .siltDetach k v => Sys2Proof.Machine.execSiltDetach k v s
  | .siltDrainForce k v => Sys2Proof.Machine.execSiltDrainForce k v s
  | .siltDetachDone k => Sys2Proof.Machine.execSiltDetachDone k s
  | .loadStart v => Sys2Proof.Machine.execLoadStart v s
  | .loadData v => Sys2Proof.Machine.execLoadData v s
  | .loadFinish v => Sys2Proof.Machine.execLoadFinish v s
  | .loadAbort v => Sys2Proof.Machine.execLoadAbort v s
  | .loadCheckDone storeOk => Sys2Proof.Machine.execLoadCheckDone storeOk s
  | .roleAssign r v => Sys2Proof.Machine.execRoleAssign r v s
  | .roleHandover r v => Sys2Proof.Machine.execRoleHandover r v s
  | .roleAbort r v => Sys2Proof.Machine.execRoleAbort r v s
  | .engineClear e => Sys2Proof.Machine.execEngineClear e s
  | .machineCheck e addr flips cfgErr => Sys2Proof.Machine.execMachineCheck e addr flips cfgErr s
  | .tilthWatchdog e addr => Sys2Proof.Machine.execTilthWatchdog e addr s
  | .safePoint e addr routine record sets => Sys2Proof.Machine.execSafePoint e addr routine record sets s
  | .takeoverDone r storeOk => Sys2Proof.Machine.execTakeoverDone r storeOk s
  | .heartbeatSend => Sys2Proof.Machine.execHeartbeatSend s
  | .heartbeatTimeout b => Sys2Proof.Machine.execHeartbeatTimeout b s
  | .harmWindowEnd cls at_ => Sys2Proof.Machine.execHarmWindowEnd cls at_ s
  | .harmAck v => Sys2Proof.Machine.execHarmAck v s
  | .fenceRelease w v => Sys2Proof.Machine.execFenceRelease w v s
  | .harmTake => Sys2Proof.Machine.execHarmTake s
  | .swapWarm v => Sys2Proof.Machine.execSwapWarm v s
  | .swapStart v => Sys2Proof.Machine.execSwapStart v s
  | .swapAbort v => Sys2Proof.Machine.execSwapAbort v s
  | .swapReturn v => Sys2Proof.Machine.execSwapReturn v s
  | .reseedMatched b => Sys2Proof.Machine.execReseedMatched b s
  | .shadowMatched => Sys2Proof.Machine.execShadowMatched s
  | .shadowMismatch => Sys2Proof.Machine.execShadowMismatch s
  | .portSwitch p => Sys2Proof.Machine.execPortSwitch p s
  | .bedDrained => Sys2Proof.Machine.execBedDrained s
  | .marlRewriteDone copy => Sys2Proof.Machine.execMarlRewriteDone copy s
  | .wearSample m slow => Sys2Proof.Machine.execWearSample m slow s
  | .subsoilRepairStart stack chan corrected uncorrectable => Sys2Proof.Machine.execSubsoilRepairStart stack chan corrected uncorrectable s
  | .subsoilRepairDone stack chan => Sys2Proof.Machine.execSubsoilRepairDone stack chan s
  | .uncorrectableError at_ => Sys2Proof.Machine.execUncorrectableError at_ s
  | .fuseProgGo v => Sys2Proof.Machine.execFuseProgGo v s
  | .fuseBlowDone missed => Sys2Proof.Machine.execFuseBlowDone missed s
  | .mapRtWrite ix v => Sys2Proof.Machine.execMapRtWrite ix v s
  | .lcRequest v => Sys2Proof.Machine.execLcRequest v s
  | .lcBlowDone good => Sys2Proof.Machine.execLcBlowDone good s
  | .keyRevoke v => Sys2Proof.Machine.execKeyRevoke v s
  | .dbgChalReq port v => Sys2Proof.Machine.execDbgChalReq port v s
  | .dbgTokenWrite port v => Sys2Proof.Machine.execDbgTokenWrite port v s
  | .dbgSubmit port v => Sys2Proof.Machine.execDbgSubmit port v s
  | .tokenCheckDone => Sys2Proof.Machine.execTokenCheckDone s
  | .wipeDone => Sys2Proof.Machine.execWipeDone s
  | .dbgClose port v => Sys2Proof.Machine.execDbgClose port v s
  | .sessionExpire port => Sys2Proof.Machine.execSessionExpire port s
  | .challengeExpire port => Sys2Proof.Machine.execChallengeExpire port s
  | .returnArmExpire => Sys2Proof.Machine.execReturnArmExpire s
  | .dpAccess addr data => Sys2Proof.Machine.execDpAccess addr data s
  | .dpMemAccess addr ctl data grain => Sys2Proof.Machine.execDpMemAccess addr ctl data grain s
  | .dpLineRelease v => Sys2Proof.Machine.execDpLineRelease v s
  | .pwrStateTrim => Sys2Proof.Machine.execPwrStateTrim s
  | .pwrStateRun => Sys2Proof.Machine.execPwrStateRun s
  | .fallowEntry => Sys2Proof.Machine.execFallowEntry s
  | .fallowExit => Sys2Proof.Machine.execFallowExit s
  | .flitDiscard k lane errored bytes => Sys2Proof.Machine.execFlitDiscard k lane errored bytes s
  | .nullFlitReceive k ack => Sys2Proof.Machine.execNullFlitReceive k ack s
  | .stuffError k ix symbols => Sys2Proof.Machine.execStuffError k ix symbols s
  | .mgmtDeferEnd => Sys2Proof.Machine.execMgmtDeferEnd s
  | .intervalEnd => Sys2Proof.Machine.execIntervalEnd s
  | .tornRecordRefetch r => Sys2Proof.Machine.execTornRecordRefetch r s
  | .keyRevokeDone => Sys2Proof.Machine.execKeyRevokeDone s

end Sys2Proof.Machine
end

