-- ==== Sys2Proof/Machine/Step.lean ====
section
/-! DEFINITION. One step of the block: the command at the front of the queue, or a tick of the clock. -/

namespace Sys2Proof.Machine

/-- One tick of the root PLL, 160 ps: the model's clock moves on, the test checkers in sync count bits, and at every tenth the
time unit ticks while the line island is ON (R61, R99, R270; assumption 6). -/
def State.idleTick (s : State) : State :=
  let s := ({ s with now := s.now + 1 } : State).prbsTick.gateTick
  if s.now % 10 = 0 && s.lineOn then s.timeTick else s

/-- One step: exec of the command at the front of the queue with the queue's rest; on an empty queue a tick (assumption 1). -/
def step (s : State) : Host.Outcome State Fault Refusal :=
  match s.pending with
  | [] => .next s.idleTick
  | c :: rest => exec c { s with pending := rest }

/-- The state with the command that a word spells put at the front of its queue; no word spells one. -/
def State.withFetchWord (s : State) (nbits w : Nat) : State :=
  match decodeTableWord nbits w with
  | some c => { s with pending := c :: s.pending }
  | none => s

end Sys2Proof.Machine
end

