-- ==== Sys2Proof/Safety.lean ====
section
/-! DEFINITION. What counts as a sound state of the block, in the terms the statements use. -/

namespace Sys2Proof

open Sys2Proof.Machine

/-- The register file is in its canonical form: keys strictly rising, and no value listed that equals its reset value. -/
abbrev Machine.State.regsWf (s : State) : Prop := swf regReset s.regs = true

/-- An access to a register completes: the islands it goes through are ON and the register is not part of an absent
feature (R45, R54 to R56). -/
abbrev Machine.State.serves (s : State) (off : Nat) : Prop := s.reach off = true ∧ s.present off = true

/-- A command answers a next state, of which P holds. -/
def Machine.State.completes (s : State) (c : Instr) (P : State → Prop) : Prop := ∃ t, exec c s = .next t ∧ P t

/-- A step answers a next state. -/
def Machine.State.steps (s : State) : Prop := ∃ t, step s = .next t

/-! ## Parts of the state, and which commands the frame statements name -/

/-- The parts of the state beside the registers, the queue and the clock: one per field. -/
inductive Machine.Part where
  | draws | outbox | timers | evWait | pmuNext | pwr | lanes | ports | macs | mgmt | shadow | frames | copies | nextId | mesh | adm | sched | gates | time | tel | fabric | assay | rings | aug | augTurn | silt | tilth | harm | sec | fates
  deriving DecidableEq, Repr

/-- Two states agree in a part. -/
def Machine.State.samePart (s t : State) : Part → Prop
  | .draws => t.draws = s.draws
  | .outbox => t.outbox = s.outbox
  | .timers => t.timers = s.timers
  | .evWait => t.evWait = s.evWait
  | .pmuNext => t.pmuNext = s.pmuNext
  | .pwr => t.pwr = s.pwr
  | .lanes => t.lanes = s.lanes
  | .ports => t.ports = s.ports
  | .macs => t.macs = s.macs
  | .mgmt => t.mgmt = s.mgmt
  | .shadow => t.shadow = s.shadow
  | .frames => t.frames = s.frames
  | .copies => t.copies = s.copies
  | .nextId => t.nextId = s.nextId
  | .mesh => t.mesh = s.mesh
  | .adm => t.adm = s.adm
  | .sched => t.sched = s.sched
  | .gates => t.gates = s.gates
  | .time => t.time = s.time
  | .tel => t.tel = s.tel
  | .fabric => t.fabric = s.fabric
  | .assay => t.assay = s.assay
  | .rings => t.rings = s.rings
  | .aug => t.aug = s.aug
  | .augTurn => t.augTurn = s.augTurn
  | .silt => t.silt = s.silt
  | .tilth => t.tilth = s.tilth
  | .harm => t.harm = s.harm
  | .sec => t.sec = s.sec
  | .fates => t.fates = s.fates

/-- Two states agree in every part but some. -/
def Machine.State.sameBut (s t : State) (ps : List Part) : Prop := ∀ p, p ∉ ps → s.samePart t p

/-- An offset lies in the 1 MiB window of bed b (R43). -/
def inBed (b x : Nat) : Prop := 0x1000000 + b * 0x100000 ≤ x ∧ x < 0x1000000 + (b + 1) * 0x100000

/-- An offset lies in some bed's window (R43). -/
def inBeds (x : Nat) : Prop := 0x1000000 ≤ x ∧ x < 0x2100000

/-- A port, pause or merge event of bed b. -/
def Instr.bedEvent : Instr → Option BedIx
  | .portDetectDone b _ | .portTrainDone b _ _ | .portLockDone b _ _ | .portExchangeConfirm b _ _ _
  | .portExchangeMismatch b _ _ _ | .portStageTimeout b _ | .laneLockLoss b _ | .reformDone b _ _ | .reformLimitExpire b _
  | .gapRetry b _ | .dormantWakeDone b _ | .laneRecovered b _ | .faultHoldExpire b _ | .pauseWatchdogTrip b _ _
  | .watchdogHoldEnd b _ _ | .pauseSend (some b) _ | .pauseRefresh (some b) _ _ | .remoteFaultChange b _ _ | .mergeVerifyStart b _
  | .mergeRespondReceive b _ | .mergeVerifyTimeout b _ | .mergeVerifyFrameReceive b _ | .gateAbandon b _ => some b
  | _ => none

/-- A command on a bed's tables, its gate lists, the multicast lists or the meters. -/
def Instr.tableCommand : Instr → Bool
  | .pipeMapWrite _ _ | .pipeTrialPass _ _ | .meshCommit _ _ | .meshDrained _ | .meshTblRead _ | .meshTblWrite _
  | .meshTblClear _ | .rewriteCommit _ _ | .rewriteDrained _ | .replRead | .replWrite | .replClear | .meterRead
  | .meterWriteFull | .meterWriteKeep | .meterRefresh _ | .mergeVerifyRestart _ _ _ | .gateCommit _ _ _ | .gateAbort _ _ _
  | .gateAdopt _ _ | .gateBoundary _ _ | .gateHoldAdvance _ _ | .gateListRead _ | .gateListWrite _ => true
  | _ => false

/-- A command on the scheduler's records. -/
def Instr.schedCommand : Instr → Bool
  | .shadowWrite _ _ _ | .handover _ | .flowRead | .flowWriteQuantum _ | .flowZeroDeq | .clodRead | .clodWrite _
  | .clodWriteFull _ | .schedInit | .schedInitDone | .clodRefresh _ | .clodRejoin _ | .cacheFetchDone _ _ => true
  | _ => false

/-- A command on the time unit. -/
def Instr.timeCommand : Instr → Bool
  | .addendWrite _ _ | .tbNowRead _ | .captureAll | .tbSet _ _ | .tbStep _ _ | .tbSlew _ _ | .slewEnd _ | .unlockExpire _
  | .actRead | .actWrite | .actArm | .actDisarm | .actFire _ _ | .ppsInEdge _ _ | .ppsInPop _ | .ppsOutEnd _ | .ref10Go _
  | .ref10Done _ _ | .pairSwitch _ _ | .pairReturn _ _ | .pairSwitchDone _ => true
  | _ => false

/-- A command on the host rings. -/
def Instr.ringCommand : Instr → Bool
  | .nudge _ | .doorbellPoll _ | .doorbellRecordArrive _ _ | .hostReadTimeout _ | .hostErrorResponse _ _ | .ringEnable _ _
  | .ringDisable _ _ | .ringReset _ _ | .ringDrained _ | .txDescArrive _ _ | .txWriteback _ | .tsWaitExpire _
  | .rxShortWaitExpire _ | .rxWriteback _ _ | .vectorArmWrite _ _ | .vectorMessage _ | .tornRecordRefetch _ => true
  | _ => false

/-- A command on the Auger channels. -/
def Instr.augerCommand : Instr → Bool
  | .augDoorbell _ _ | .augPause _ _ | .augUnpause _ _ | .augResume _ _ | .augAbort _ _ | .augDescArrive _ _ _ _
  | .augSourceRead _ _ _ | .augWriteResponse _ _ _ => true
  | _ => false

/-- A command on the Assay units that reports no harm. -/
def Instr.assayCommand : Instr → Bool
  | .assayCommit _ _ | .assayParityError _ | .assayResync _ _ | .scanStart _ => true
  | _ => false

/-- A command on a Silt link that loses no frame. -/
def Instr.siltCommand : Instr → Bool
  | .siltStageDone _ _ _ | .siltStageTimeout _ _ _ | .siltCapSend _ | .siltCapReceive _ _ | .siltCapAckReceive _
  | .creditReceive _ _ _ _ _ | .laneMapAckReceive _ _ _ | .laneMapResend _ | .siltSpareRecover _ _ | .siltNullSend _
  | .siltGapRetry _ | .siltDetachDone _ | .nullFlitReceive _ _ | .stuffError _ _ _ => true
  | _ => false

/-- A command on the load port or on one tilth engine. -/
def Instr.engineCommand : Instr → Bool
  | .loadStart _ | .loadData _ | .loadFinish _ | .loadAbort _ | .loadCheckDone _ | .engineClear _ | .machineCheck _ _ _ _
  | .tilthWatchdog _ _ => true
  | _ => false

/-- A command on the clock monitor, the harm records, the wear monitors, the fuse writer or the keys. -/
def Instr.serviceCommand : Instr → Bool
  | .clkMonStart _ | .clkMonWindowEnd _ | .harmWindowEnd _ _ | .harmAck _ | .fenceRelease _ _ | .harmTake | .wearSample _ _
  | .subsoilRepairStart _ _ _ _ | .subsoilRepairDone _ _ | .marlRewriteDone _ | .fuseProgGo _ | .keyRevoke _
  | .dbgTokenWrite _ _ | .sessionExpire _ | .challengeExpire _ | .returnArmExpire => true
  | _ => false

/-- An event of the management port beside a frame. -/
def Instr.mgmtCommand : Instr → Bool
  | .mgmtCollision _ | .mgmtBackoffEnd | .mgmtDeferEnd | .mdioStart _ | .mdioDone _ | .wakeFrame _ _ => true
  | _ => false

/-- A command on frames inside the block. -/
def Instr.trafficCommand : Instr → Bool
  | .macReceiveFrame _ _ _ _ _ _ _ _ _ _ _ | .parseWindow _ _ _ _ | .payloadMatchFinal _ | .tailCheck _ | .keySend _ _
  | .keyCreditReturn _ _ | .verdictReceive _ _ _ | .handoffTimeout _ _ | .enqueue _ | .multicastReplicate _ | .mirrorCopy _
  | .selection _ | .moveAck _ | .prefetchIssue _ => true
  | _ => false

end Sys2Proof
end

