-- ==== Sys2Proof/Certificates/Slice0/Obligations.lean ====
section
/-! DEFINITION. The statements for the provers, from the spec's numbered rules. First the block as a whole and rules of one
operation; then what each group of commands leaves unchanged; then, for every command, where it completes and what the next
state holds. -/

open Sys2Proof Sys2Proof.Machine

/-- A step with a command at the front of the queue is exec of that command on the state with the queue's rest. -/
def Obligations.StepRunsTheFrontCommand : Prop := ∀ (s : State) (c : Instr) (rest : List Instr),
    s.pending = c :: rest → step s = exec c { s with pending := rest }

/-- On an empty queue a step is one tick of the root PLL: the model's choice (assumption 1). The clock moves on by one and the
queue stays empty. While no gate monitor is enabled nothing moves but registers, waiting events and messages, the test checkers,
the gate engines, the time unit, the telemetry and what a time base's step sets going; with the line island not ON, only
registers and the gate engines. A monitor's fence reaches further, but no tilth engine and nothing of the lifecycle. -/
def Obligations.EmptyQueueTicks : Prop := ∀ s : State, s.pending = [] →
    ∃ t, step s = .next t ∧ t.now = s.now + 1 ∧ t.pending = [] ∧ t.tilth = s.tilth ∧ t.sec = s.sec ∧
      ((∀ k ∈ s.gates.ports.map (·.1), s.rdb (offGateMon (k / 16) (k % 16)) 31 = false) →
        s.sameBut t [.outbox, .timers, .evWait, .lanes, .gates, .time, .tel, .fabric] ∧
        (s.lineOn = false → s.sameBut t [.gates]))

/-- Right after power-on reset no command waits, every register reads its reset value, the only timers are the ramp timers of the
islands that ramp, nothing has left the block, and no island but the wake island is ON (R8, R67, R70). -/
def Obligations.ResetState : Prop :=
    State.reset.pending = [] ∧ (∀ off, State.reset.rd off = regReset off) ∧ State.reset.regsWf ∧
      (∀ t, State.reset.timerOn t = true ↔ ∃ i, t = .ramp i ∧ State.reset.islAt i = .ramp) ∧
      State.reset.outbox = [] ∧ State.reset.hostOn = false ∧ State.reset.lineOn = false ∧
      (∀ b, State.reset.bedOn b = false) ∧ ∀ k, State.reset.siltOn k = false

/-- The register file keeps its canonical form over every step: keys strictly rising and no reset value listed, so that
equal register files are equal data. -/
def Obligations.EveryStepKeepsRegsWf : Prop := ∀ s t : State, s.regsWf → step s = .next t → t.regsWf

/-- No command stops the block: every command answers a next state in every state, and in it the queue and the clock are as
they were, what has left the block stays outside, and free values have been drawn in order (R10, R12). -/
def Obligations.EveryCommandAnswers : Prop := ∀ (c : Instr) (s : State), ∃ t, exec c s = .next t ∧
    t.pending = s.pending ∧ t.now = s.now ∧ s.outbox <:+ t.outbox ∧ s.draws ≤ t.draws

/-- Over every step a blown lifecycle or revocation fuse stays blown, so the lifecycle only advances and a revoked key slot
never verifies again (R463, R464, R466). -/
def Obligations.FusesNeverClear : Prop := ∀ s t : State, step s = .next t →
    (∀ i, s.pwr.life.getLsbD i = true → t.pwr.life.getLsbD i = true) ∧ s.lifecycle ≤ t.lifecycle ∧
      ∀ set slot : Nat, slot ≤ 7 → s.pwr.revoked.getLsbD (8 * set + slot) = true → ∀ key, t.keyOk set slot key = false

/-- FAILS stays at 8 or below and LOCKED goes with it, over every step; LOCKED, once set, stays set until power is lost (R471). -/
def Obligations.LockOutHolds : Prop := ∀ s t : State, step s = .next t →
    (s.sec.fails ≤ 8 ∧ (s.sec.fails = 8 → s.sec.locked = true) → t.sec.fails ≤ 8 ∧ (t.sec.fails = 8 → t.sec.locked = true)) ∧
    (s.sec.locked = true → (∀ rest, s.pending ≠ .powerOnReset false :: rest) →
      (∀ r rest, s.pending ≠ .railFault r :: rest) → t.sec.locked = true)

/-- The engine that the load port loads is one of the 26, over every step: EngineFrame rests on it (R420, R423). -/
def Obligations.LoadEngineInRange : Prop := ∀ s t : State, step s = .next t →
    (∀ e bs, s.tilth.load = some (e, bs) → e < 26) → ∀ e bs, t.tilth.load = some (e, bs) → e < 26

/-- The receiver's removal of stuff symbols undoes the transmitter's stuffing, for every sequence of symbols (R394). -/
def Obligations.UnstuffUndoesStuff : Prop := ∀ xs : List Nat, unstuff (stuff xs) = some xs

/-- A frame occupies its length over 256, rounded up, in grains (R197). -/
def Obligations.GrainsRoundUp : Prop := ∀ f : Frame,
    f.bytes.length ≤ 256 * f.grains ∧ ∀ k, f.bytes.length ≤ 256 * k → f.grains ≤ k

/-- A statistics counter keeps the low 48 bits of the sum; taking bit 47 from 0 to 1 sets its HALF bit and event, passing
2^48 - 1 its WRAP bit and event; and a write of a counter sets its value and no HALF or WRAP bit; the counters of port 258 that
the chapter names read as zero whatever is written (R126). -/
def Obligations.StatCounterHalfAndWrap : Prop := ∀ (s : State) (i : Fin 64) (n : Nat),
    (∀ (b : BedIx) (p : LocalIx) (t : State), t = s.stat b p i n →
      t.cnt (offStatCnt b p i) = (s.cnt (offStatCnt b p i) + n) % 2 ^ 48 ∧
      (s.cnt (offStatCnt b p i) < 2 ^ 47 → 2 ^ 47 ≤ t.cnt (offStatCnt b p i) →
        t.rdb (offStatHalf b p (i / 32)) (i % 32) = true ∧ t.rdb (offMacEvt b p) 5 = true) ∧
      (2 ^ 48 ≤ s.cnt (offStatCnt b p i) + n →
        t.rdb (offStatWrap b p (i / 32)) (i % 32) = true ∧ t.rdb (offMacEvt b p) 6 = true)) ∧
    (∀ t : State, t = s.mgmtStat i n →
      t.cnt (offMgmtStatCnt i) = (s.cnt (offMgmtStatCnt i) + n) % 2 ^ 48 ∧
      (s.cnt (offMgmtStatCnt i) < 2 ^ 47 → 2 ^ 47 ≤ t.cnt (offMgmtStatCnt i) →
        t.rdb (offMgmtStatHalf (i / 32)) (i % 32) = true ∧ t.rdb offMgmtEvt 5 = true) ∧
      (2 ^ 48 ≤ s.cnt (offMgmtStatCnt i) + n →
        t.rdb (offMgmtStatWrap (i / 32)) (i % 32) = true ∧ t.rdb offMgmtEvt 6 = true)) ∧
    (∀ (b : BedIx) (p : LocalIx) (v : Word), s.serves (offStatCnt b p i) →
      s.completes (.counterWrite (BitVec.ofNat 26 (offStatCnt b p i)) v) fun t => t.rd (offStatCnt b p i) = v ∧
        ∀ k : Fin 2, t.rd (offStatHalf b p k) = s.rd (offStatHalf b p k) ∧ t.rd (offStatWrap b p k) = s.rd (offStatWrap b p k)) ∧
    (∀ v : Word, s.serves (offMgmtStatCnt i) →
      s.completes (.counterWrite (BitVec.ofNat 26 (offMgmtStatCnt i)) v) fun t =>
        t.rd (offMgmtStatCnt i) = (if i.val ∈ [9, 28, 31, 41, 59, 60, 62] then 0 else v) ∧
        ∀ k : Fin 2, t.rd (offMgmtStatHalf k) = s.rd (offMgmtStatHalf k) ∧ t.rd (offMgmtStatWrap k) = s.rd (offMgmtStatWrap k))

/-- A reserved region of the block window reads zero, ignores writes and completes without an error response (R44). -/
def Obligations.ReservedRegions : Prop := ∀ (s : State) (a : BitVec 26) (v : Word),
    (0x5000 ≤ a.toNat ∧ a.toNat < 0x100000) ∨ (0x900000 ≤ a.toNat ∧ a.toNat < 0x1000000) ∨ 0x2100000 ≤ a.toNat →
    s.view a.toNat = 0 ∧ (s.hostOn = true → a.toNat % 4 = 0 → exec (.registerWrite a v 0xF) s = .next (s.answer false 0))

/-- A code's MF_SEEN bit going from 0 to 1 raises EVT_PARSE_MF; while it is set, further frames with the code raise no event (R156). -/
def Obligations.MalformedCodeRaisesOnce : Prop := ∀ (s : State) (b : BedIx) (c : Fin 16),
    (s.rdb (offParseMfSeen b) c = false → (s.mfFound b (c + 1)).rdb (offParseMfSeen b) c = true ∧
      (s.mfFound b (c + 1)).rdb (offParseEvt b) 0 = true) ∧
    (s.rdb (offParseMfSeen b) c = true → (s.mfFound b (c + 1)).rdb (offParseEvt b) 0 = s.rdb (offParseEvt b) 0)

/-- A board FIR preset is valid when C0 is positive and the six magnitudes sum to 63 at most; a write that leaves it invalid
sets BOARD_BAD and raises the lane's event; and a lane with an invalid preset uses C0 = 63 alone (R83). -/
def Obligations.BoardPresetValidity : Prop :=
    (∀ m3 m2 m1 c0 p1 p2 : Int, firValid [m3, m2, m1, c0, p1, p2] = true ↔
      0 < c0 ∧ m3.natAbs + m2.natAbs + m1.natAbs + c0.natAbs + p1.natAbs + p2.natAbs ≤ 63) ∧
    ∀ (s : State) (base : Nat) (k : Fin 2) (v : Word), let t := s.boardWrite base (k + 1) v
      let taps := firTaps (t.rd (lnBoardFir base 0)) (t.rd (lnBoardFir base 1))
      t.rd (lnBoardFir base k) = v &&& 0x00FFFFFF ∧ t.rdb (lnBoardEq base) 31 = !firValid taps ∧
      (firValid taps = false → t.rdb (lnEvt base) 0 = true ∧ t.lanePreset base = [0, 0, 0, 63, 0, 0]) ∧
      (firValid taps = true → t.lanePreset base = taps)

/-- A committed write of CBS or PBS clips the bucket to the new size if it holds more and leaves a bucket in debt unchanged;
the balance is brought up to the commit cycle at the old rates first, and with an unlimited PIR Tp stays at its size (R234,
R236, R237). -/
def Obligations.CommittedBucketSizesClip : Prop := ∀ (s : State) (c : Nat) (ws : List Word),
    let k := (s.clod c).upTo s.cycle
    let k' := (s.applyShadow (.clod c ws false)).clod c
    k'.cir = (ws.getD 0 0).toNat ∧ k'.pir = (ws.getD 1 0).toNat ∧
    k'.cbs = fld 23 0 (ws.getD 2 0) ∧ k'.pbs = fld 23 0 (ws.getD 3 0) ∧ k'.stamp = s.cycle % 2 ^ 32 ∧
    (k.tc ≤ 16 * (k'.cbs : Int) → k'.tc = k.tc) ∧ (16 * (k'.cbs : Int) < k.tc → k'.tc = 16 * (k'.cbs : Int)) ∧
    (ws.getD 1 0 ≠ 0xFFFFFFFF → k.tp ≤ 16 * (k'.pbs : Int) → k'.tp = k.tp) ∧
    (ws.getD 1 0 ≠ 0xFFFFFFFF → 16 * (k'.pbs : Int) < k.tp → k'.tp = 16 * (k'.pbs : Int)) ∧
    (ws.getD 1 0 = 0xFFFFFFFF → k'.tp = 16 * (k'.pbs : Int))

/-- How a write and a read of a register end: no effect while the host island is not ON; an error response for a narrow or
misaligned access; no error and no effect, and a read of zero, for an absent feature; an error response for an island that is not
ON; and else a response without error, a read's with what the register reads as (R5, R45, R54, R66). -/
def Obligations.AccessOutcomes : Prop := ∀ (s t : State) (a : BitVec 26) (v : Word) (be : BitVec 4),
    (exec (.registerWrite a v be) s = .next t →
      (s.hostOn = false → t = s) ∧
      (s.hostOn = true → be ≠ 0xF ∨ a.toNat % 4 ≠ 0 → t = s.answer true 0) ∧
      (s.hostOn = true → be = 0xF → a.toNat % 4 = 0 → s.present a.toNat = false → t = s.answer false 0) ∧
      (s.hostOn = true → be = 0xF → a.toNat % 4 = 0 → s.present a.toNat = true → s.reach a.toNat = false →
        t = s.answer true 0) ∧
      (s.serves a.toNat → be = 0xF → a.toNat % 4 = 0 → t.outbox.head? = some (.busResponse false 0))) ∧
    (t = s.hostRead a be →
      (s.hostOn = false → t = s) ∧
      (s.hostOn = true → be ≠ 0xF ∨ a.toNat % 4 ≠ 0 → t = s.answer true 0) ∧
      (s.hostOn = true → be = 0xF → a.toNat % 4 = 0 → s.present a.toNat = false → t = s.answer false 0) ∧
      (s.hostOn = true → be = 0xF → a.toNat % 4 = 0 → s.present a.toNat = true → s.reach a.toNat = false →
        t = s.answer true 0) ∧
      (s.serves a.toNat → be = 0xF → a.toNat % 4 = 0 → t.outbox = .busResponse false (s.view a.toNat) :: s.outbox))

/-- A register takes its reset value on the reset of its island: the line pin's for the line side, the host pin's for the host
side but CLK.PLL, whose LOCK_LOST the wake island holds, and the power-on reset and a rail fault for all (R8, R69, R70, R72). -/
def Obligations.ResetsRestoreRegisters : Prop := ∀ (s : State) (off : Nat), off < 0x4000000 →
    (s.lineOn = true → (homeOf off).isLine = true →
      s.completes (.lineResetPin false) fun t => t.rd off = regReset off) ∧
    (s.hostOn = true → s.pwr.fallow = false → homeOf off = .host → off ≠ offClkPll →
      s.completes (.hostResetPin false) fun t => t.rd off = regReset off) ∧
    s.completes (.powerOnReset false) (fun t => t.rd off = regReset off) ∧
    ∀ rail : Fin 7, s.completes (.railFault rail) fun t => t.rd off = regReset off

/-- A port, pause or merge event of bed b, while none of the bed's ports has sent a frame in part, changes no register outside bed
b's window and, for BED16, outside that of the bed whose lanes it has; and of the rest of the state only the output, the timers,
the waiting events, the lanes, the ports, the MACs, the shadow sets and the gate engines. Where a frame sent in part is
truncated, what a discarded frame gives back changes too, but not the power state, the management port, the time unit, the
fabric, the rings, the Auger channels, the Assay units, the engines, the harm records or the security state (R43, R46, R47,
R86 to R94, R114 to R120). -/
def Obligations.BedEventFrame : Prop := ∀ (s t : State) (c : Instr) (b : BedIx), c.bedEvent = some b → exec c s = .next t →
    ((∀ p, p < 16 → (s.mac (16 * b.val + p)).openTx = none) →
      s.sameBut t [.outbox, .timers, .evWait, .lanes, .ports, .macs, .shadow, .gates] ∧
        ∀ x, ¬ inBed b x → (b.val = 16 → ¬ inBed s.swapPos x) → t.rd x = s.rd x) ∧
    s.sameBut t [.draws, .outbox, .timers, .evWait, .pmuNext, .lanes, .ports, .macs, .shadow, .frames, .copies, .nextId, .mesh,
      .adm, .sched, .gates, .tel, .silt, .fates]

/-- A command on the rule tables, the gate lists, the multicast lists or the meters changes no register outside the bed windows,
the tiers' block and the scheduler's block, and of the rest only the output, the timers, the waiting events, the MACs, the
tables, the meters and the gate lists (R43, R161, R193, R195, R202, R250). -/
def Obligations.TableFrame : Prop := ∀ (s t : State) (c : Instr), c.tableCommand = true → exec c s = .next t →
    s.sameBut t [.outbox, .timers, .evWait, .macs, .mesh, .adm, .gates] ∧
      ∀ x, ¬ inBeds x → x < 0x400000 ∨ 0x480000 ≤ x → x < 0x500000 ∨ 0x600000 ≤ x → t.rd x = s.rd x

/-- A command on the scheduler's records changes no register outside the bed windows, the tiers' block and the scheduler's block,
and of the rest only the output, the timers, the waiting events, the shadow sets, the scheduler and the copies of tables that a
write-through keeps (R43, R242 to R246, R452). -/
def Obligations.SchedFrame : Prop := ∀ (s t : State) (c : Instr), c.schedCommand = true → exec c s = .next t →
    s.sameBut t [.outbox, .timers, .evWait, .shadow, .mesh, .sched, .gates] ∧
      ∀ x, ¬ inBeds x → x < 0x400000 ∨ 0x480000 ≤ x → x < 0x500000 ∨ 0x600000 ≤ x → t.rd x = s.rd x

/-- A command on the time unit changes no register outside the time unit, the bed windows and the security block, where a write
that the map refuses is counted; and of the rest only the output, the timers, the waiting events, the gate lists, the bases,
telemetry and the fabric (R43, R270 to R301, R475). -/
def Obligations.TimeFrame : Prop := ∀ (s t : State) (c : Instr), c.timeCommand = true → exec c s = .next t →
    s.sameBut t [.outbox, .timers, .evWait, .gates, .time, .tel, .fabric] ∧
      ∀ x, ¬ inBeds x → x < 0x100000 ∨ 0x200000 ≤ x → x < 0x4000 ∨ 0x5000 ≤ x → t.rd x = s.rd x

/-- A command on the host rings changes no register outside the host port's block and the doorbell page, and of the rest only the
output, the timers, the waiting events and the rings: no frame, no queue, no bed (R43, R321 to R354). -/
def Obligations.RingFrame : Prop := ∀ (s t : State) (c : Instr), c.ringCommand = true → exec c s = .next t →
    s.sameBut t [.outbox, .timers, .evWait, .rings] ∧
      ∀ x, x < 0x200000 ∨ 0x300000 ≤ x → t.rd x = s.rd x

/-- A command on an Auger channel changes no register outside the Auger block, and of the rest only the output, the waiting events,
the pulses of the fabric, the reads that wait and the channels (R43, R355 to R374). -/
def Obligations.AugerFrame : Prop := ∀ (s t : State) (c : Instr), c.augerCommand = true → exec c s = .next t →
    s.sameBut t [.outbox, .evWait, .fabric, .rings, .aug, .augTurn] ∧
      ∀ x, x < 0x300000 ∨ 0x380000 ≤ x → t.rd x = s.rd x

/-- A command on an Assay unit changes no register outside the Assay block and the tiers' block, and of the rest only the output,
the timers, the waiting events and the units (R43, R375 to R389). -/
def Obligations.AssayFrame : Prop := ∀ (s t : State) (c : Instr), c.assayCommand = true → exec c s = .next t →
    s.sameBut t [.outbox, .timers, .evWait, .assay] ∧
      ∀ x, x < 0x380000 ∨ 0x480000 ≤ x → t.rd x = s.rd x

/-- A command on a Silt link that loses no frame changes no register outside the tiers' block and the Silt block, and of the rest
only the free values drawn, the output, the timers, the waiting events, the lanes and the links (R43, R390 to R415). -/
def Obligations.SiltFrame : Prop := ∀ (s t : State) (c : Instr), c.siltCommand = true → exec c s = .next t →
    s.sameBut t [.draws, .outbox, .timers, .evWait, .lanes, .silt] ∧
      ∀ x, x < 0x400000 ∨ 0x500000 ≤ x → t.rd x = s.rd x

/-- A command on the load port or on one engine changes no register outside the tilth block and the safety monitors while the load
port's engine is one of the 26, and of the rest only the output, the timers, the waiting events, the engines and the harm
records (R43, R420 to R432, R442). -/
def Obligations.EngineFrame : Prop := ∀ (s t : State) (c : Instr), c.engineCommand = true → (∀ e bs, s.tilth.load = some (e, bs) → e < 26) →
    exec c s = .next t →
    s.sameBut t [.outbox, .timers, .evWait, .tilth, .harm] ∧
      ∀ x, x < 0x600000 ∨ 0x740000 ≤ x → t.rd x = s.rd x

/-- A command on frames inside the block leaves the power state, the lanes, the ports, the management port, the gate lists, the
time bases, the fabric, the rings, the Auger channels, the engines and the security state unchanged (R17 to R42, R135 to R221). -/
def Obligations.TrafficFrame : Prop := ∀ (s t : State) (c : Instr), c.trafficCommand = true → exec c s = .next t →
    s.sameBut t [.draws, .outbox, .timers, .evWait, .pmuNext, .macs, .shadow, .frames, .copies, .nextId, .mesh, .adm,
        .sched, .tel, .assay, .silt, .harm, .fates]

/-- A command on the clock monitor, the harm records, the wear monitors, the marl copies, the fuse writer, the keys or the timers
of debug sessions changes no register outside the first five blocks of the window, the tiers' block and the safety monitors, and
an event of the management port beside a frame none outside that port's block. Of the rest both change only the output, the
timers, the waiting events and the power state, the first also the harm records and the security state, the second the free
values drawn and the management port (R43, R75, R101, R128 to R133, R441 to R443, R453 to R460, R466 to R473). -/
def Obligations.HostSideFrame : Prop := ∀ (s t : State) (c : Instr), exec c s = .next t →
    (c.serviceCommand = true → s.sameBut t [.outbox, .timers, .evWait, .pwr, .harm, .sec] ∧
      ∀ x, 0x5000 ≤ x → x < 0x400000 ∨ 0x480000 ≤ x → x < 0x700000 ∨ 0x740000 ≤ x → t.rd x = s.rd x) ∧
    (c.mgmtCommand = true → s.sameBut t [.draws, .outbox, .timers, .evWait, .pwr, .mgmt] ∧
      ∀ x, x < 0x800000 ∨ 0x900000 ≤ x → t.rd x = s.rd x)

/-- The first half of a network port's bring-up (R79, R86, R87). -/
def Obligations.PortBringUpAdvances : Prop := ∀ (s : State) (b : BedIx) (p : LocalIx),
    (∀ v, s.serves (offPortForm b p) → s.formOk b p (fld 3 0 v) (fld 7 4 v) = true →
      s.completes (.portFormWrite b p v) fun t => t.pForm b p = fld 3 0 v ∧ t.pFec b p = fld 7 4 v) ∧
    (∀ v, s.serves (offPortForm b p) → s.formOk b p (fld 3 0 v) (fld 7 4 v) = true →
      fld 3 0 v ≠ s.pForm b p ∨ fld 7 4 v ≠ s.pFec b p → s.roleServed b = true → s.midStage b p = false →
      s.completes (.portFormWrite b p v) fun t =>
        t.pState b p = if fld 3 0 v = 0 ∨ s.lineOn = false then 0 else if bit 31 v then 9 else 1) ∧
    (∀ v, s.serves (offPortForm b p) → s.formOk b p (fld 3 0 v) (fld 7 4 v) = false →
      s.completes (.portFormWrite b p v) fun t => t.pForm b p = s.pForm b p ∧ t.pFec b p = s.pFec b p ∧
        t.rdb (offPortStatus b p) 8 = true ∧ t.rdb (offPortEvt b p) 6 = true) ∧
    (s.roleServed b = true → s.pState b p = 1 → s.allPowered b p = true →
      s.completes (.portDetectDone b p) fun t => t.pState b p = (if s.rdb (offPortForm b p) 29 then 2 else 3) ∧
        t.timerOn (.portStage (16 * b.val + p.val)) = true) ∧
    (∀ asks, s.roleServed b = true → s.pState b p = 2 → s.allPowered b p = true →
      asks.length = formLanes (s.runForm b p) →
      s.completes (.portTrainDone b p asks) fun t => t.pState b p = 3 ∧
        t.timerOn (.portStage (16 * b.val + p.val)) = true) ∧
    (∀ skew, s.roleServed b = true → s.pState b p = 3 → s.allPowered b p = true →
      s.allLanes b (s.runLanes b p) (fun base => (s.lane base).trained) = true →
      formLanes (s.runForm b p) = 1 ∨ skew ≤ 200 →
      s.completes (.portLockDone b p skew) fun t => t.pState b p = if s.rdb (offPortForm b p) 30 then 4 else 5) ∧
    (∀ form fec, s.roleServed b = true → s.pState b p = 4 → s.allPowered b p = true → s.allLocked b p = true →
      s.exchangeMatch b p form fec = true →
      s.completes (.portExchangeConfirm b p form fec) fun t => t.pState b p = 5 ∧
        t.rdf (offMacFault b p) 31 30 = 0 ∧ t.rdb (offPortEvt b p) 0 = true)

/-- Loss of lock, re-form, retries and the timers of a network port (R86, R88 to R91, R93, R94). -/
def Obligations.PortLossAndRetry : Prop := ∀ (s : State) (b : BedIx) (p : LocalIx),
    (∀ form fec, s.roleServed b = true → s.exchangeMatch b p form fec = false → s.pState b p = 4 ∨ s.reformAsks b p = true →
      s.completes (.portExchangeMismatch b p form fec) fun t => t.pState b p = 6 ∧
        t.rdf (offPortStatus b p) 27 24 = 5 ∧ t.rdb (offPortEvt b p) 4 = true) ∧
    (s.roleServed b = true → 1 ≤ s.pState b p → s.pState b p ≤ 4 →
      s.timerOn (.portStage (16 * b.val + p.val)) = true →
      s.completes (.portStageTimeout b p) fun t => t.pState b p = 6 ∧
        t.rdf (offPortStatus b p) 27 24 = s.pState b p ∧ t.rdb (offPortEvt b p) 3 = true) ∧
    (∀ (lost : BitVec 16) (l : LocalIx), lost.getLsbD l = true → s.pState b p = 5 → l.val ∈ s.runLanes b p →
      s.completes (.laneLockLoss b lost) fun t => (t.pState b p = 8 ∨ t.pState b p = 6) ∧
        ∀ base, s.laneBase b l = some base → (t.lane base).lost = true) ∧
    (∀ form fec, s.roleServed b = true → s.reformAsks b p = true → s.allPowered b p = true → s.allLocked b p = true →
      s.exchangeMatch b p form fec = true →
      s.completes (.portExchangeConfirm b p form fec) fun t => (t.port b p).agreed = true ∧ t.pState b p = 8) ∧
    (∀ asks, s.roleServed b = true → s.pState b p = 8 → s.allPowered b p = true →
      asks.length = formLanes (s.runForm b p) → s.rdb (offPortForm b p) 30 = false ∨ (s.port b p).agreed = true →
      s.completes (.reformDone b p asks) fun t => t.pState b p = 5 ∧ t.rdb (offPortStatus b p) 10 = true ∧
        t.rdb (offPortEvt b p) 2 = true) ∧
    (s.roleServed b = true → s.pState b p = 8 → s.timerOn (.reformLimit (16 * b.val + p.val)) = true →
      s.completes (.reformLimitExpire b p) fun t => t.pState b p = 6 ∧ t.rdf (offPortStatus b p) 27 24 = 7 ∧
        t.rdb (offPortStatus b p) 10 = true) ∧
    (s.roleServed b = true → s.pState b p = 6 → s.timerOn (.gap (16 * b.val + p.val)) = true →
      s.completes (.gapRetry b p) fun t => t.pState b p =
        if s.rdf (offPortRetry b p) 15 8 = 0 ∨ (s.port b p).retries < s.rdf (offPortRetry b p) 15 8 then 1 else 7) ∧
    (s.roleServed b = true → s.pState b p = 10 → s.timerOn (.dormantWake (16 * b.val + p.val)) = true →
      s.rdb (offPortForm b p) 31 = false → s.completes (.dormantWakeDone b p) fun t => t.pState b p = 3) ∧
    (∀ (l : LocalIx) base, s.laneBase b l = some base → (s.lane base).lost = true → s.mayRelock b l base = true →
      s.completes (.laneRecovered b l) fun t => t.laneLocked base = true ∧ (t.lane base).lost = false ∧
        t.rdb (lnEvt base) 1 = true) ∧
    (s.timerOn (.faultHold (16 * b.val + p.val)) = true → s.rdf (offMacFault b p) 31 30 ≠ 0 →
      s.rdf (offPortForm b p) 27 26 = 0 ∨ s.rdf (offPortForm b p) 27 26 = 3 →
      s.completes (.faultHoldExpire b p) fun t => (t.port b p).holdOver = true ∧
        t.timerOn (.faultHold (16 * b.val + p.val)) = false)

/-- LANE.CTL, board tables and test patterns, of a network lane and of a silt lane (R83, R95 to R97, R391, R497, R498). -/
def Obligations.LaneCommandsAct : Prop := ∀ (s : State) (l : LaneId) (base : Nat), s.laneAt l = some base →
    (∀ v, s.serves (laneWindow l) → bit 31 v = false →
      s.completes (.laneModeOff l v) fun t => t.rdb (lnStatus base) 0 = false ∧ t.laneLocked base = false) ∧
    (∀ v, s.serves (laneWindow l) → bit 31 v = false → s.laneOff base = true →
      s.completes (.laneModePort l v) fun t => t.rdf base 1 0 = 0 ∧
        (base < 0x1000000 ∨ (s.lanePort base ≠ 0 ∧ s.lanePort base ≠ 7) → t.rdb (lnStatus base) 0 = true)) ∧
    (∀ v, s.serves (laneWindow l) → bit 31 v = false → s.laneSpanned base = true →
      s.completes (.laneModeTest l v) fun t => t.rdf base 1 0 = 0 ∧ t.rdb (lnEvt base) 4 = true) ∧
    (∀ v, s.serves (laneWindow l) → bit 31 v = false → s.laneSpanned base = false → s.rdf base 1 0 ≠ 1 →
      s.completes (.laneModeTest l v) fun t => t.rdf base 1 0 = 1 ∧ t.rdb (lnStatus base) 7 = true) ∧
    (∀ v, s.serves (laneWindow l) →
      s.completes (.laneReset l v) fun t => t.rdb (lnStatus base) 5 = false ∧ (t.lane base).coef = none) ∧
    (∀ (word : Fin 3) v, s.serves (laneWindow l + (0x10 + 4 * word.val)) →
      s.completes (.boardTableWrite l word v) fun t => t.rdb (lnStatus base) 5 = false ∧ (t.lane base).coef = none ∧
        t.rdb (lnBoardEq base) 31 = !t.boardOk base ∧
        (word.val ≠ 0 → t.rd (lnBoardFir base (word.val - 1)) = v &&& 0x00FFFFFF)) ∧
    (∀ v, s.serves (laneWindow l + 0x80) →
      s.completes (.prbsChkClear l v) fun t => t.cnt (base + 0x98) = 0 ∧ t.cnt (base + 0xA0) = 0 ∧
        t.cnt (base + 0xA8) = 0 ∧ t.rdb (base + 0x90) 31 = false) ∧
    (s.prbsRuns base = true → s.completes (.prbsSyncAcquire l) fun t => t.rdb (base + 0x90) 31 = true) ∧
    (∀ n, s.prbsSync base = true → s.completes (.prbsSyncLoss l n) fun t => t.rdb (base + 0x90) 31 = false ∧
        t.rdb (base + 0x90) 30 = true ∧ t.rdb (lnEvt base) 3 = true ∧
        t.cnt (base + 0x98) = (s.cnt (base + 0x98) + n) % cntMod) ∧
    (s.injecting base = true → 1000 * injEvery (s.rd (base + 0x84)) ≤ (s.lane base).injBits →
      s.completes (.prbsErrorInject l) fun t => t.cnt (base + 0xA8) = (s.cnt (base + 0xA8) + 1) % cntMod ∧
        t.outbox = .prbsInject (laneNo base) (injKind (s.rd (base + 0x84)) (s.lanePam4 base)).1
          (injKind (s.rd (base + 0x84)) (s.lanePam4 base)).2 :: s.outbox)

/-- Received and sent pause: what consumes and discards a frame, the timers, the watchdog, the signals and the resends
(R112, R114, R116 to R118). -/
def Obligations.PauseActs : Prop := ∀ (s : State) (b : BedIx) (p : LocalIx),
    (∀ da sa quanta, s.macHears b p = true → s.pActive b p = true → s.rdb (offMacCtl b p) 31 = true → s.fcMode b p = 1 →
      s.completes (.pauseFrameReceive (.net b p) da sa quanta) fun t => ∀ i : Fin 8,
        t.paused (16 * b.val + p.val) i = if s.wdHolding (16 * b.val + p.val) i then s.paused (16 * b.val + p.val) i
          else quanta != 0) ∧
    (∀ da sa quanta, s.macHears b p = true → s.pActive b p = true → s.rdb (offMacCtl b p) 31 = true → s.fcMode b p ≠ 1 →
      s.completes (.pauseFrameReceive (.net b p) da sa quanta) fun t =>
        t.cnt (offTelDrop (s.posN b) 4) = (s.cnt (offTelDrop (s.posN b) 4) + 1) % cntMod ∧
        ∀ i : Fin 8, t.paused (16 * b.val + p.val) i = s.paused (16 * b.val + p.val) i) ∧
    (∀ da sa quanta, s.hostOn = true → s.rdb offMgmtCtl 31 = true → s.rdb offMgmtCtl 25 = true → s.rdb offMgmtCtl 21 = true →
      64 ≤ s.maxFrame mgmtMac →
      s.completes (.pauseFrameReceive .mgmt da sa quanta) fun t => ∀ i : Fin 8, t.paused mgmtMac i = (quanta != 0)) ∧
    (∀ enable quanta, s.macHears b p = true → s.pActive b p = true → s.rdb (offMacCtl b p) 31 = true → s.fcMode b p = 2 →
      s.completes (.pfcFrameReceive b p enable quanta) fun t => ∀ i : Fin 8,
        t.paused (16 * b.val + p.val) i =
          if enable.getLsbD i && s.rdb (offMacFcMask b p) i && !s.wdHolding (16 * b.val + p.val) i then quanta.getD i 0 != 0
          else s.paused (16 * b.val + p.val) i) ∧
    (∀ (m : MacId) (i : Fin 8), s.paused (macKey m) i = true →
      s.completes (.pauseTimerExpire m i) fun t => ∀ j : Fin 8,
        t.paused (macKey m) j = if s.macFc (macKey m) = 1 ∨ j = i then false else s.paused (macKey m) j) ∧
    (∀ i : Fin 8, s.timerOn (.wdRun (16 * b.val + p.val) i) = true →
      s.completes (.pauseWatchdogTrip b p i) fun t => t.paused (16 * b.val + p.val) i = false ∧
        t.wdHolding (16 * b.val + p.val) i = true ∧ t.timerOn (.wdHold (16 * b.val + p.val) i) = true ∧
        t.rdb (offMacEvt b p) 0 = true) ∧
    (∀ i : Fin 8, s.timerOn (.wdHold (16 * b.val + p.val) i) = true →
      s.completes (.watchdogHoldEnd b p i) fun t => t.wdHolding (16 * b.val + p.val) i = false ∧
        t.timerOn (.wdHold (16 * b.val + p.val) i) = false) ∧
    (∀ (bed : Option BedIx) (q : LocalIx) (m : Nat), m = macAt bed q → s.macFc m ≠ 0 → s.fcMay m = true →
      s.fcWanted m ≠ (s.mac m).signalled →
      s.completes (.pauseSend bed q) fun t => (t.mac m).signalled = s.fcWanted m ∧
        t.outbox = .pauseFrame (s.portNo m) (s.macFc m == 2) (s.fcWanted m ^^^ (s.mac m).signalled)
          (s.fcWanted m &&& ~~~(s.mac m).signalled) (s.txQuanta m) :: s.outbox) ∧
    (∀ (bed : Option BedIx) (q : LocalIx) (c : Fin 8) (m : Nat), m = macAt bed q → s.timerOn (.pauseRefresh m c) = true →
      s.fcMay m = true → (s.fcWanted m).getLsbD c = true →
      s.completes (.pauseRefresh bed q c) fun t => t.timerOn (.pauseRefresh m c) = true ∧
        t.outbox = .pauseFrame (s.portNo m) (s.macFc m == 2) (if s.macFc m = 1 then 0xFF else 1 <<< c.val)
          (if s.macFc m = 1 then 0xFF else 1 <<< c.val) (s.txQuanta m) :: s.outbox) ∧
    (∀ remote, s.pActive b p = true →
      s.completes (.remoteFaultChange b p remote) fun t => t.rdf (offMacFault b p) 31 30 = if remote then 2 else 0)

/-- The merge sublayer's states and the statistics snapshots (R120, R127). -/
def Obligations.MergeAndSnapshotsAct : Prop := ∀ (s : State) (b : BedIx) (p : LocalIx),
    (s.mmState b p = 0 → s.rdb (offMacMmCtl b p) 31 = true → s.pActive b p = true →
      s.completes (.mergeVerifyStart b p) fun t => t.mmState b p = (if s.rdb (offMacMmCtl b p) 30 then 1 else 4) ∧
        t.preempting b p = !s.rdb (offMacMmCtl b p) 30) ∧
    (s.mmState b p = 1 → s.pActive b p = true → s.rdb (offMacCtl b p) 31 = true →
      s.completes (.mergeRespondReceive b p) fun t => t.mmState b p = 2 ∧ t.preempting b p = true ∧
        t.rdb (offMacEvt b p) 1 = true ∧ t.timerOn (.mmVerify (16 * b.val + p.val)) = false) ∧
    (s.mmState b p = 1 → s.timerOn (.mmVerify (16 * b.val + p.val)) = true →
      s.rdf (offMacMmStatus b p) 19 16 < max 1 (s.rdf (offMacMmCtl b p) 15 12) →
      s.completes (.mergeVerifyTimeout b p) fun t => t.mmState b p = 1 ∧
        t.rdf (offMacMmStatus b p) 19 16 = s.rdf (offMacMmStatus b p) 19 16 + 1) ∧
    (s.mmState b p = 1 → s.timerOn (.mmVerify (16 * b.val + p.val)) = true →
      max 1 (s.rdf (offMacMmCtl b p) 15 12) ≤ s.rdf (offMacMmStatus b p) 19 16 →
      s.completes (.mergeVerifyTimeout b p) fun t => t.mmState b p = 3 ∧ t.preempting b p = false ∧
        t.rdb (offMacEvt b p) 2 = true) ∧
    (∀ v, s.serves (offMacMmCtl b p) → bit 31 v = true → s.mmState b p = 3 → s.pActive b p = true →
      s.completes (.mergeVerifyRestart b p v) fun t => t.mmState b p = 1 ∧ t.rdf (offMacMmStatus b p) 19 16 = 1 ∧
        t.timerOn (.mmVerify (16 * b.val + p.val)) = true) ∧
    (s.pActive b p = true → s.rdb (offMacCtl b p) 31 = true → s.rdb (offMacMmCtl b p) 31 = true →
      s.rdf (offMacFault b p) 31 30 = 0 →
      s.completes (.mergeVerifyFrameReceive b p) fun t =>
        t.outbox = .mergeVerify (s.portNo (16 * b.val + p.val)) true :: s.outbox) ∧
    (∀ m : MacId, s.serves (macStatBase (macKey m) + 0x400) →
      s.completes (.statSnap m) fun t => ∀ i : Fin 128,
        t.rd (macStatBase (macKey m) + 0x200 + 4 * i.val) = s.rd (macStatBase (macKey m) + 4 * i.val) ∧
        t.rd (macStatBase (macKey m) + 4 * i.val) = s.rd (macStatBase (macKey m) + 4 * i.val)) ∧
    (∀ m : MacId, s.serves (macStatBase (macKey m) + 0x400) →
      s.completes (.statSnapClear m) fun t => ∀ i : Fin 128,
        t.rd (macStatBase (macKey m) + 0x200 + 4 * i.val) = s.rd (macStatBase (macKey m) + 4 * i.val) ∧
        t.rd (macStatBase (macKey m) + 4 * i.val) = 0)

/-- The management port: what it receives, half duplex, MDIO and the wake detector (R101, R128, R131, R133). -/
def Obligations.ManagementPortActs : Prop := ∀ (s : State),
    (∀ bytes part, s.hostOn = true → s.rdb offMgmtCtl 31 = true → s.rxCode mgmtMac (bytes.length + 4) {} = 0 →
      beAt bytes 12 2 ≠ 0x8808 → s.mgmtAccepts bytes = true → s.lineOn = true →
      s.posUsable (s.rdf offMgmtCtl 19 16) = true →
      s.mayTake { bytes := bytes, src := 258, pos := some (s.rdf offMgmtCtl 19 16) } = true →
      s.completes (.mgmtFrameReceive (bytes ++ ethFcs bytes) part false) fun t => t.nextId = s.nextId + 1 ∧
        (t.frame s.nextId).map (·.src) = some 258 ∧ (t.frame s.nextId).map (·.bytes) = some bytes) ∧
    (∀ bytes part, s.hostOn = true → s.rdb offMgmtCtl 31 = true → s.rxCode mgmtMac (bytes.length + 4) {} = 0 →
      beAt bytes 12 2 ≠ 0x8808 → s.mgmtAccepts bytes = false →
      s.completes (.mgmtFrameReceive (bytes ++ ethFcs bytes) part false) fun t => t.nextId = s.nextId ∧ t.frames = s.frames ∧
        t.cnt (offMgmtStatCnt 26) = (s.cnt (offMgmtStatCnt 26) + 1) % cntMod) ∧
    (∀ bits, s.halfDuplex = true → s.mgmtSending = true → 512 ≤ bits →
      s.completes (.mgmtCollision bits) fun t => t.mgmt.txq = s.mgmt.txq.tail ∧ t.mgmt.attempts = 0 ∧
        t.outbox = .mgmtJam :: s.outbox) ∧
    (∀ bits, s.halfDuplex = true → s.mgmtSending = true → bits < 512 → s.mgmt.attempts ≠ 15 →
      s.completes (.mgmtCollision bits) fun t => t.mgmt.attempts = s.mgmt.attempts + 1 ∧ t.mgmt.txq = s.mgmt.txq ∧
        t.mgmt.backingOff = true ∧ t.timerOn .backoff = true ∧ t.draws = s.draws + 1 ∧ t.outbox = .mgmtJam :: s.outbox) ∧
    (∀ bits, s.halfDuplex = true → s.mgmtSending = true → bits < 512 → s.mgmt.attempts = 15 →
      s.completes (.mgmtCollision bits) fun t => t.mgmt.txq = s.mgmt.txq.tail ∧ t.mgmt.attempts = 0 ∧
        t.cnt (offMgmtStatCnt 57) = (s.cnt (offMgmtStatCnt 57) + 1) % cntMod) ∧
    (s.timerOn .backoff = true → s.completes .mgmtBackoffEnd fun t => t.mgmt.backingOff = false ∧ t.timerOn .backoff = false) ∧
    (s.timerOn .defer = true → s.completes .mgmtDeferEnd fun t => t.mgmt.deferring = false ∧ t.timerOn .defer = false) ∧
    (∀ v, s.serves offMdioCtl → s.rdb offMdioCtl 30 = false → bit 29 v = true ∨ fld 28 27 v = 1 ∨ fld 28 27 v = 2 →
      s.completes (.mdioStart v) fun t => t.rdb offMdioCtl 30 = true ∧ t.rdb offMdioCtl 16 = false ∧
        t.timerOn .mdio = true ∧ t.mgmt.mdioRead = if bit 29 v then decide (2 ≤ fld 28 27 v) else decide (fld 28 27 v = 2)) ∧
    (∀ v, s.serves offMdioCtl → s.rdb offMdioCtl 30 = false → bit 29 v = false → fld 28 27 v = 0 ∨ fld 28 27 v = 3 →
      s.completes (.mdioStart v) fun t => t.rdb offMdioCtl 30 = false ∧ t.rdb offMdioCtl 16 = true) ∧
    (∀ data : BitVec 16, s.timerOn .mdio = true →
      s.completes (.mdioDone data) fun t => t.rdb offMdioCtl 30 = false ∧ t.timerOn .mdio = false ∧
        t.rd offMdioRdata = if s.mgmt.mdioRead then w32 data.toNat else s.rd offMdioRdata) ∧
    (∀ frame c, s.pwr.wakeArmed = true → s.pwr.wakeDeaf = false → s.wakeCause frame = some c →
      s.completes (.wakeFrame frame true) fun t => t.rdb offWakeStatus 31 = true ∧ t.rdf offWakeStatus 3 0 = c ∧
        t.pwr.wakeReq = true ∧ t.outbox = .wakeRequest :: s.outbox)

/-- Frames on their way in: MAC receive, the parse window, the tail check, the payload matcher and the parser's pipes
(R102, R107, R125, R137 to R140, R167, R446). -/
def Obligations.ReceiveAndParseAct : Prop := ∀ (s : State),
    (∀ (b : BedIx) (p : LocalIx) smd bytes rest pieces gap corr sym, pieces = ⟨smd, bytes⟩ :: rest →
      s.macHears b p = true → s.pActive b p = true →
      heard pieces = true → piecesOk pieces = true → fcsFails pieces = false →
      s.rxCode (16 * b.val + p.val) ((joined pieces).length + 4) {} = 0 → beAt (joined pieces) 12 2 ≠ 0x8808 →
      s.rdb (offMacCtl b p) 31 = true →
      s.completes (.macReceiveFrame b p smd bytes rest false false gap corr 0 sym) fun t =>
        t.cnt (offStatCnt b p 2) = (s.cnt (offStatCnt b p 2) + 1) % cntMod ∧
        t.cnt (offStatCnt b p 0) = (s.cnt (offStatCnt b p 0) + (joined pieces).length + 4) % cntMod) ∧
    (∀ (b : BedIx) (p : LocalIx) smd bytes rest pieces gap corr sym, pieces = ⟨smd, bytes⟩ :: rest →
      s.macHears b p = true → s.pActive b p = true →
      heard pieces = true → piecesOk pieces = true → fcsFails pieces = false →
      s.rxCode (16 * b.val + p.val) ((joined pieces).length + 4) {} = 0 → beAt (joined pieces) 12 2 ≠ 0x8808 →
      s.rdb (offMacCtl b p) 31 = true →
      s.assayChecked (s.parseCfg b) (s.portNo (16 * b.val + p.val)) (joined pieces) = false →
      s.beatRoom b = true → s.fifoBytes (s.portNo (16 * b.val + p.val)) = 0 → s.rxOverrun b (joined pieces) = false →
      s.completes (.macReceiveFrame b p smd bytes rest false false gap corr 0 sym) fun t => t.nextId = s.nextId + 1 ∧
        (t.frame s.nextId).map (·.bytes) = some (joined pieces) ∧ (t.frame s.nextId).map (·.bed) = some b.val ∧
        (t.frame s.nextId).map (·.path) = some .window ∧
        (t.frame s.nextId).map (·.src) = some (s.portNo (16 * b.val + p.val))) ∧
    (∀ (b : BedIx) (p : LocalIx) smd bytes rest pieces pcs gap, pieces = ⟨smd, bytes⟩ :: rest →
      s.macHears b p = true → s.pActive b p = true → heard pieces = true →
      s.rxCode (16 * b.val + p.val) ((joined pieces).length + 4)
        { pcs := pcs, fcs := fcsFails pieces, mm := !piecesOk pieces } ≠ 0 →
      s.badGoes b p ((joined pieces).length + 4) = false →
      s.completes (.macReceiveFrame b p smd bytes rest pcs false gap 0 0 []) fun t => t.frames = s.frames ∧
        t.copies = s.copies ∧ t.cnt (offStatCnt b p 63) = (s.cnt (offStatCnt b p 63) + 1) % cntMod) ∧
    (∀ (b : BedIx) (p : LocalIx) smd bytes rest pcs gap corr unc sym, s.macHears b p = true →
      s.completes (.macReceiveFrame b p smd bytes rest pcs true gap corr unc sym) fun t => t.frames = s.frames ∧
        t.copies = s.copies ∧ t.cnt (offStatCnt b p 63) = (s.cnt (offStatCnt b p 63) + 1) % cntMod) ∧
    (∀ (f : Nat) (pslot : Fin 4) (start : Fin 8192) (x : Frame), s.frame f = some x → s.slot x.bed pslot ≠ 7 →
      x.path = .window → x.pass = 0 → (parseFrame (s.parseCfg x.bed) x.bytes).code = 0 →
      fld 31 28 ((s.meshLookup x.bed (s.meshBank x.bed)
        (s.passShape { x with parse := parseFrame (s.parseCfg x.bed) x.bytes })
        (meshKey x.bytes (parseFrame (s.parseCfg x.bed) x.bytes)
          (s.passShape { x with parse := parseFrame (s.parseCfg x.bed) x.bytes }) (keySrc x.src) 0 x.groups)).2.2.getD 0 0) = 3 →
      s.completes (.parseWindow f pslot none start) fun t =>
        (t.frame f).map (·.path) = some .recirc ∧ (t.frame f).map (·.bitmap) = some none ∧
        (t.frame f).map (·.parse) = some (parseFrame (s.parseCfg x.bed) x.bytes) ∧
        (t.frame f).map (·.epoch) = some (s.rdf (offMeshEpoch x.bed) 31 24) ∧
        (t.frame f).map (·.bank) = some (s.meshBank x.bed)) ∧
    (∀ (f : Nat) (pslot : Fin 4) (start : Fin 8192) (x : Frame), s.frame f = some x → s.slot x.bed pslot ≠ 7 →
      x.path = .window → x.pass = 0 → x.refs = 1 → x.moving = none → x.fetching = false → x.mirror = none →
      (parseFrame (s.parseCfg x.bed) x.bytes).code ≠ 0 →
      s.mfAction x.bed (parseFrame (s.parseCfg x.bed) x.bytes).code = 0 →
      s.completes (.parseWindow f pslot none start) fun t => t.frame f = none) ∧
    (∀ (f : Nat) (x : Frame), s.frame f = some x → x.tail = true → x.path ≠ .settle →
      s.completes (.tailCheck f) fun t => (t.frame f).map (·.tail) = some false ∧
        (t.frame f).map (·.parse) = some (x.parse.tailDone x.bytes.length) ∧
        (t.frame f).map (·.tailCode) = some (x.parse.tailDone x.bytes.length).code ∧
        t.cnt (offParseCnt x.bed 3) = (s.cnt (offParseCnt x.bed 3) + 1) % cntMod) ∧
    (∀ (f : Nat) (x : Frame), s.frame f = some x → x.path = .recirc → x.bitmap = none →
      s.completes (.payloadMatchFinal f) fun t => t.frame f = some { x with
        bitmap := some (if s.pmRuns x.bed x.src then s.pmGroups x.bed x.bank x.parse.payload x.bytes else 0) }) ∧
    (∀ (b : BedIx) v, s.serves (offParsePipeMap b) → s.pipeMapBad b (v &&& 0x00017777) = false →
      s.completes (.pipeMapWrite b v) fun t => t.rd (offParsePipeMap b) = v &&& 0x00017777 ∧
        ∀ k : Fin 5, t.rdb (offParsePipeStatus b) k = inMap v k) ∧
    (∀ (b : BedIx) v, s.serves (offParsePipeMap b) → s.pipeMapBad b (v &&& 0x00017777) = true →
      s.completes (.pipeMapWrite b v) fun t => t.rd (offParsePipeMap b) = s.rd (offParsePipeMap b) ∧
        t.rdb (offParsePipeStatus b) 5 = true ∧ t.rdb (offParseEvt b) 4 = true) ∧
    (∀ (b : BedIx) (pipe : Fin 5) (f : Nat) (x : Frame), s.frame f = some x → x.bed = b.val → x.path = .window →
      x.refs = 1 → x.moving = none → x.fetching = false → x.mirror = none →
      s.completes (.pipeParityError b pipe [f]) fun t => t.rdb (offParsePipeStatus b) (16 + pipe.val) = true ∧
        t.rdb (offParseEvt b) 1 = true ∧ t.frame f = none) ∧
    (∀ (b : BedIx) (pipe : Fin 5) (n : Nat), s.pipeTrial b pipe = some n → 1024 ≤ n →
      s.completes (.pipeTrialPass b pipe) fun t => t.pipeTrial b pipe = none)

/-- The flow handoff interface and the copies and passes that follow it: keys, credits, verdicts, timeouts, the
replicator, mirror copies and recirculation (R35, R39, R173 to R180, R186). -/
def Obligations.HandoffActs : Prop := ∀ (s : State),
    (∀ (b : BedIx) (c : Fin 4) (k : Nat) (rest : List Nat) (h : Handle) (x : Frame), s.keyQueue b c = k :: rest →
      s.handle k = some h → s.frame h.frame = some x → s.mayCross (.key b c) 1 = true →
      s.completes (.keySend b c) fun t => t.keyQueue b c = rest ∧ t.handle k = some { h with sent := true } ∧
        sget (fun _ => 0) t.mesh.used (4 * b.val + c.val) = sget (fun _ => 0) s.mesh.used (4 * b.val + c.val) + 1 ∧
        t.outbox.head? = some (.fhiKey b c (s.keyMsg x k)) ∧
        t.cnt (offFhiCnt b 0) = (s.cnt (offFhiCnt b 0) + 1) % cntMod) ∧
    (∀ (b : BedIx) (c : Fin 4),
      s.completes (.keyCreditReturn b c) fun t => sget (fun _ => 0) t.mesh.used (4 * b.val + c.val) =
        sget (fun _ => 0) s.mesh.used (4 * b.val + c.val) - 1) ∧
    (∀ (b : BedIx) (c : Fin 4) msg (h : Handle),
      s.handle (8192 * b.val + fld 31 12 (msgWord msg 0) % 8192) = some h →
      s.slotGen (8192 * b.val + fld 31 12 (msgWord msg 0) % 8192) = fld 31 12 (msgWord msg 0) / 8192 → h.chan = c.val →
      h.sent = true →
      s.completes (.verdictReceive b c msg) fun t =>
        t.handle (8192 * b.val + fld 31 12 (msgWord msg 0) % 8192) = none ∧
        t.slotGen (8192 * b.val + fld 31 12 (msgWord msg 0) % 8192) = (fld 31 12 (msgWord msg 0) / 8192 + 1) % 128 ∧
        t.timerOn (.handoff (8192 * b.val + fld 31 12 (msgWord msg 0) % 8192)) = false ∧
        t.cnt (offFhiCnt b 1) = (s.cnt (offFhiCnt b 1) + 1) % cntMod) ∧
    (∀ (b : BedIx) (c : Fin 4) msg, s.handle (8192 * b.val + fld 31 12 (msgWord msg 0) % 8192) = none →
      s.completes (.verdictReceive b c msg) fun t => t.frames = s.frames ∧ t.rdb (offFhiEvt b) 1 = true ∧
        t.cnt (offFhiCnt b 3) = (s.cnt (offFhiCnt b 3) + 1) % cntMod) ∧
    (∀ (b : BedIx) (slot : Fin 8192) (h : Handle), s.handle (8192 * b.val + slot.val) = some h →
      s.timerOn (.handoff (8192 * b.val + slot.val)) = true →
      s.completes (.handoffTimeout b slot) fun t => t.handle (8192 * b.val + slot.val) = none ∧
        (t.keyQueue b h.chan).contains (8192 * b.val + slot.val) = false ∧
        t.slotGen (8192 * b.val + slot.val) = (s.slotGen (8192 * b.val + slot.val) + 1) % 128) ∧
    (∀ (f : Nat) (x : Frame) m, s.frame f = some x → x.path = .repl → x.fate = some (.verdict m) →
      s.completes (.multicastReplicate f) fun t => s.nextId ≤ t.nextId ∧
        (s.framesWhere (fun y => y.path == .settle) = [] → t.nextId ≤ s.nextId + groupCount x.group) ∧
        (t.frame f).all (fun y => y.path == .copies) = true) ∧
    (∀ (f m : Nat) (x : Frame), s.frame f = some x → x.mirror = some m → x.tail = false → x.held = false →
      x.path = .copies ∨ s.tailDrop x = false →
      badPort (s.rdf (offMirrorW0 x.bed m) 31 23) = true →
      s.completes (.mirrorCopy f) fun t => (t.frame f).bind (·.mirror) = none ∧ t.nextId = s.nextId ∧
        t.cnt (offTelDrop 16 10) = (s.cnt (offTelDrop 16 10) + 1) % cntMod) ∧
    (∀ (f m : Nat) (x : Frame), s.frame f = some x → x.mirror = some m → x.tail = false → x.held = false →
      x.path = .copies ∨ s.tailDrop x = false →
      badPort (s.rdf (offMirrorW0 x.bed m) 31 23) = false →
      s.completes (.mirrorCopy f) fun t => (t.frame f).bind (·.mirror) = none ∧
        t.cnt (offMeshCnt x.bed 6) = (s.cnt (offMeshCnt x.bed 6) + 1) % cntMod) ∧
    (∀ (f : Nat) (x : Frame), s.frame f = some x → x.path = .recirc → x.tail = false → x.held = false → x.spoiled = false →
      s.mayCross (.recirculation (x.pos.getD 16)) x.window = true → s.pmRuns x.bed x.src = false ∨ x.bitmap.isSome = true →
      s.completes (.recirculate f false) fun t => t.frame f = some { x with
          path := .window, pass := x.pass + 1, groups := x.bitmap.getD 0, bitmap := none } ∧
        t.cnt (offMeshCnt x.bed 5) = (s.cnt (offMeshCnt x.bed 5) + 1) % cntMod)

/-- Commits of rules and rewrite programs and the rule tables (R161, R171, R193, R194). -/
def Obligations.CommitsAndRulesAct : Prop := ∀ (s : State) (b : BedIx),
    (∀ v, s.serves (offMeshCtl b) → s.meshBusy b = false →
      sget (fun _ => none) s.mesh.commits (2 * b.val) ≠ some (s.cycle, true) →
      s.completes (.meshCommit b v) fun t => t.meshBank b = 1 - s.meshBank b ∧
        t.rdf (offMeshEpoch b) 31 24 = (s.rdf (offMeshEpoch b) 31 24 + 1) % 256 ∧
        t.rd (offMeshCtl b) = v &&& 0x7F0CFFFF ∧
        (t.meshBusy b = true ∨ t.meshBusy b = false ∧ t.rdb (offMeshEvt b) 0 = true)) ∧
    (∀ v, s.serves (offMeshCtl b) → s.meshBusy b = true →
      sget (fun _ => none) s.mesh.commits (2 * b.val) ≠ some (s.cycle, true) →
      s.completes (.meshCommit b v) fun t => t.meshBank b = s.meshBank b ∧ t.meshBusy b = true ∧
        t.rdb (offMeshEpoch b) 21 = true ∧ t.rdb (offMeshEvt b) 1 = true) ∧
    (∀ v, s.serves (offMeshCtl b) → sget (fun _ => none) s.mesh.commits (2 * b.val) = some (s.cycle, true) →
      s.completes (.meshCommit b v) fun t => t.rd (offMeshEpoch b) = s.rd (offMeshEpoch b) ∧
        t.rd (offMeshCtl b) = v &&& 0x7F0CFFFF) ∧
    (s.meshBusy b = true → s.oldInFlight b = 0 →
      s.completes (.meshDrained b) fun t => t.meshBusy b = false ∧ t.rdb (offMeshEvt b) 0 = true) ∧
    (∀ r, s.serves (offMeshTblCmd b) → s.rule (ruleKey b (if s.rdb (offMeshTblAddr b) 29 then s.meshBank b else 1 - s.meshBank b)
        (s.tblAddr b).1 (s.tblAddr b).2) = some r → r.key.length = 12 → r.mask.length = 12 → r.act.length = 4 →
      s.completes (.meshTblRead b) fun t => t.rds (offMeshTblData b 0) 12 = r.key ∧
        t.rds (offMeshTblData b 12) 12 = r.mask ∧ t.rds (offMeshTblData b 24) 4 = r.act ∧
        t.rdb (offMeshTblData b 28) 31 = r.valid ∧ t.rdb (offMeshTblData b 28) 30 = r.override) ∧
    (s.serves (offMeshTblCmd b) → s.rule (ruleKey b (if s.rdb (offMeshTblAddr b) 29 then s.meshBank b else 1 - s.meshBank b)
        (s.tblAddr b).1 (s.tblAddr b).2) = none →
      s.completes (.meshTblRead b) fun t => t.rds (offMeshTblData b 0) 29 = List.replicate 29 0) ∧
    (s.serves (offMeshTblCmd b) → s.meshBusy b = false → (s.tblAddr b).1 = 0 →
      s.rdb (offMeshTblData b 28) 31 = false ∨ s.keySlot b (1 - s.meshBank b) ((s.tblAddr b).2 / 8192)
        (wordBytes (s.rds (offMeshTblData b 0) 12)) = (s.tblAddr b).2 % 8192 →
      s.completes (.meshTblWrite b) fun t => t.rule (ruleKey b (1 - s.meshBank b) 0 (s.tblAddr b).2) = some {
        key := s.rds (offMeshTblData b 0) 12, mask := [], act := actWords (s.rds (offMeshTblData b 24) 4),
        valid := s.rdb (offMeshTblData b 28) 31, override := false }) ∧
    (s.serves (offMeshTblCmd b) → (s.tblAddr b).1 = 0 → s.rdb (offMeshTblData b 28) 31 = true →
      s.keySlot b (1 - s.meshBank b) ((s.tblAddr b).2 / 8192) (wordBytes (s.rds (offMeshTblData b 0) 12)) ≠
        (s.tblAddr b).2 % 8192 →
      s.completes (.meshTblWrite b) fun t => t.mesh.rules = s.mesh.rules ∧ t.rdb (offMeshTblCmd b) 29 = true ∧
        t.rdb (offMeshEvt b) 2 = true) ∧
    (s.serves (offMeshTblCmd b) → s.meshBusy b = false → (s.tblAddr b).1 = 1 →
      s.completes (.meshTblWrite b) fun t => t.rule (ruleKey b (1 - s.meshBank b) 1 (s.tblAddr b).2) = some {
        key := s.rds (offMeshTblData b 0) 12, mask := s.rds (offMeshTblData b 12) 12,
        act := actWords (s.rds (offMeshTblData b 24) 4), valid := s.rdb (offMeshTblData b 28) 31,
        override := s.rdb (offMeshTblData b 28) 30 }) ∧
    (s.serves (offMeshTblCmd b) → s.meshBusy b = true →
      s.completes (.meshTblWrite b) fun t => t.mesh.rules = s.mesh.rules ∧ t.rdb (offMeshTblCmd b) 29 = true ∧
        t.rdb (offMeshEvt b) 2 = true) ∧
    (s.serves (offMeshTblCmd b) → s.meshBusy b = false →
      s.completes (.meshTblClear b) fun t =>
        t.rule (ruleKey b (1 - s.meshBank b) (s.tblAddr b).1 (s.tblAddr b).2) =
          (s.rule (ruleKey b (1 - s.meshBank b) (s.tblAddr b).1 (s.tblAddr b).2)).map fun r => { r with valid := false }) ∧
    (s.serves (offMeshTblCmd b) → s.meshBusy b = true →
      s.completes (.meshTblClear b) fun t => t.mesh.rules = s.mesh.rules ∧ t.rdb (offMeshTblCmd b) 29 = true ∧
        t.rdb (offMeshEvt b) 2 = true) ∧
    (∀ v, s.serves (offRewriteCtl b) → s.rewBusy b = false →
      sget (fun _ => none) s.mesh.commits (2 * b.val + 1) ≠ some (s.cycle, true) →
      s.completes (.rewriteCommit b v) fun t => t.rewBank b = 1 - s.rewBank b ∧ t.rewBusy b = s.editing b) ∧
    (∀ v, s.serves (offRewriteCtl b) → s.rewBusy b = true →
      sget (fun _ => none) s.mesh.commits (2 * b.val + 1) ≠ some (s.cycle, true) →
      s.completes (.rewriteCommit b v) fun t => t.rewBank b = s.rewBank b ∧ t.rdb (offRewriteCtl b) 16 = true ∧
        t.rdb (offRewriteEvt b) 1 = true) ∧
    (s.rewBusy b = true → s.completes (.rewriteDrained b) fun t => t.rewBusy b = false)

/-- The replication tables and the meters (R195, R202). -/
def Obligations.ReplicationAndMetersAct : Prop := ∀ (s : State),
    (s.serves offReplCmd → s.replAddr.1 = false →
      s.completes .replRead fun t => t.rds (offReplData 0) 4 = [s.replGroup s.replAddr.2, 0, 0, 0]) ∧
    (s.serves offReplCmd → s.replAddr.1 = true → (s.replMember s.replAddr.2).length = 3 →
      s.completes .replRead fun t => t.rds (offReplData 0) 4 = s.replMember s.replAddr.2 ++ [0]) ∧
    (s.serves offReplCmd → s.replAddr.1 = false →
      s.completes .replWrite fun t => t.replGroup s.replAddr.2 = s.rd (offReplData 0) &&& 0x81FFFFFF) ∧
    (s.serves offReplCmd → s.replAddr.1 = true →
      s.completes .replWrite fun t => t.replMember s.replAddr.2 = [s.rd (offReplData 0),
        s.rd (offReplData 1) &&& 0x03FFFFFF, s.rd (offReplData 2) &&& 0xFE0001FF]) ∧
    (s.serves offReplCmd → s.replAddr.1 = false →
      s.completes .replClear fun t => t.replGroup s.replAddr.2 = setBit 31 false (s.replGroup s.replAddr.2)) ∧
    (s.serves offReplCmd → s.replAddr.1 = true →
      s.completes .replClear fun t => t.replMember s.replAddr.2 = [0, 0, 0]) ∧
    (s.serves offMeterCmd →
      s.completes .meterRead fun t => t.meter s.meterId = (s.meter s.meterId).upTo s.cycle ∧
        t.rds (offMeterData0 0) 8 = (t.meter s.meterId).words) ∧
    (s.serves offMeterCmd →
      s.completes .meterWriteFull fun t => (t.meter s.meterId).tc = (t.meter s.meterId).cbs * 256 ∧
        (t.meter s.meterId).tp = (t.meter s.meterId).pbs * 256 ∧ (t.meter s.meterId).fracC = 0 ∧
        (t.meter s.meterId).fracP = 0 ∧ (t.meter s.meterId).stamp = s.cycle % 2 ^ 32 ∧
        (t.meter s.meterId).cir = (s.rd (offMeterData0 0)).toNat ∧ (t.meter s.meterId).pir = (s.rd (offMeterData0 1)).toNat ∧
        (t.meter s.meterId).en = s.rdb offMeterData2 31 ∧ (t.meter s.meterId).cbs = s.rdf offMeterData2 23 0) ∧
    (s.serves offMeterCmd →
      s.completes .meterWriteKeep fun t =>
        (t.meter s.meterId).tc = min ((s.meter s.meterId).upTo s.cycle).tc ((t.meter s.meterId).cbs * 256) ∧
        (t.meter s.meterId).tp = min ((s.meter s.meterId).upTo s.cycle).tp ((t.meter s.meterId).pbs * 256) ∧
        (t.meter s.meterId).fracC = ((s.meter s.meterId).upTo s.cycle).fracC ∧
        (t.meter s.meterId).cir = (s.rd (offMeterData0 0)).toNat ∧ (t.meter s.meterId).pir = (s.rd (offMeterData0 1)).toNat) ∧
    (∀ id : BitVec 20, s.lineOn = true →
      s.completes (.meterRefresh id) fun t => t.meter id.toNat = (s.meter id.toNat).upTo s.cycle)

/-- The tier mover: moves to subsoil and prefetches back (R29, R211 to R215). -/
def Obligations.TierMoverActs : Prop := ∀ (s : State) (f : Nat) (x : Frame), s.frame f = some x →
    (∀ (link : Fin 8) (u : Nat), x.movePending = true → s.moveTurn f x = true → x.refs ≤ 1 → x.spoiled = false →
      s.nearFront f = false → s.moveUnit x link = some u →
      s.completes (.spillMove f link false) fun t => t.frame f = some { x with moving := some u } ∧
        t.spillingTo u = s.spillingTo u + x.grains ∧
        t.adm.nextStack = if u < 8 then (u + 1) % 8 else s.adm.nextStack) ∧
    (∀ link : Fin 8, x.movePending = true → s.moveTurn f x = true → 1 < x.refs ∨ s.nearFront f = true →
      s.completes (.spillMove f link false) fun t => t.frame f = some { x with dest := 0, drain := none } ∧
        t.cnt (offTierCnt 4) = (s.cnt (offTierCnt 4) + 1) % cntMod) ∧
    (∀ u : Nat, x.moving = some u → u < 8 → x.refs ≠ 0 → x.held = false → s.isQueued f = true → s.nearFront f = false →
      s.completes (.moveAck f) fun t => t.frame f = some { x with
          moving := none, moved := 0, tier := 1, unit := u, dest := 0, drain := none } ∧
        t.cnt (offTierCnt 0) = (s.cnt (offTierCnt 0) + 1) % cntMod) ∧
    (∀ u : Nat, x.moving = some u → u < 8 → x.refs ≠ 0 → s.isQueued f = true → s.nearFront f = true →
      s.completes (.moveAck f) fun t => t.frame f = some { x with moving := none, moved := 0, dest := 0, drain := none }) ∧
    (s.mayFetch f x = true → s.completes (.prefetchIssue f) fun t => (t.frame f).map (·.fetching) = some true ∧
        t.fetchingFrom x.home = s.fetchingFrom x.home + x.grains) ∧
    (x.fetching = true → x.tier = 1 → x.refs ≠ 0 → x.spoiled = false →
      s.completes (.prefetchComplete f false) fun t => t.frame f = some { x with
          fetching := false, moved := 0, tier := 0, unit := 0, dest := 0, drain := none } ∧
        t.cnt (offTierCnt 2) = (s.cnt (offTierCnt 2) + 1) % cntMod)

/-- Enqueue, shadow sets and their hand-overs, the record commands and the scheduler's initialisation (R15, R28, R224,
R234, R239, R242 to R246). -/
def Obligations.QueuesAndRecordsAct : Prop := ∀ (s : State),
    (∀ (c : Nat) (x : Copy), s.copy c = some x → s.mayEnqueue x = true →
      s.mayCross (.enqueue (portPos x.port)) 1 = true → s.bindTest x = none →
      s.completes (.enqueue c) fun t => (t.copy c).map (·.stage) = some .queued ∧
        (t.flow x.flow).q = (s.flow x.flow).q ++ [c]) ∧
    (∀ (c : Nat) (x : Copy) (cause : Nat), s.copy c = some x → s.mayEnqueue x = true →
      s.mayCross (.enqueue (portPos x.port)) 1 = true → s.bindTest x = some cause →
      s.completes (.enqueue c) fun t => t.copy c = none ∧
        t.cnt (offSchedPoscnt (portPos x.port) cause) = (s.cnt (offSchedPoscnt (portPos x.port) cause) + 1) % cntMod) ∧
    (∀ (b : BedIx) (p : LocalIx) (r : Fin 19) v, s.serves (schedIdBase (.net b p) + shOff r) →
      s.completes (.shadowWrite (.net b p) r v) fun t =>
        t.shadowGet (schedIdBase (.net b p) + shOff r) = some (v &&& shMask r) ∧
        t.rdb (schedIdBase (.net b p) + shGen) 30 = true ∧
        t.rd (schedIdBase (.net b p) + shOff r) = s.rd (schedIdBase (.net b p) + shOff r)) ∧
    (∀ (q : Fin 2) (r : Fin 19) v, s.serves (schedIdBase (.host q) + shOff r) →
      s.completes (.shadowWrite (.host q) r v) fun t => t.shadowGet (schedIdBase (.host q) + shOff r) =
        if 11 ≤ r.val then s.shadowGet (schedIdBase (.host q) + shOff r) else some (v &&& shMask r)) ∧
    (∀ p : SchedId, s.lineOn = true → s.rdb (schedIdBase p + shGen) 31 = false → s.rdb (schedIdBase p + shGen) 30 = true →
      s.completes (.handover p) fun t => t.rdb (schedIdBase p + shGen) 30 = false ∧
        t.rdf (schedIdBase p + shGen) 15 0 = (s.rdf (schedIdBase p + shGen) 15 0 + 1) % 65536 ∧
        ∀ r : Fin 19, t.shadowGet (schedIdBase p + shOff r) = none ∧
          t.rd (schedIdBase p + shOff r) = (s.shadowGet (schedIdBase p + shOff r)).getD (s.rd (schedIdBase p + shOff r))) ∧
    (s.serves offFlowCmd → s.schedReady = true →
      s.completes .flowRead fun t => t.rds (offFlowData 0) 12 = (s.flowWords s.flowId).take 12) ∧
    (∀ hport : BitVec 9, s.serves offFlowCmd → s.schedReady = true → isPort hport.toNat = true →
      (s.flow s.flowId).q = [] ∨ portPos (s.flow s.flowId).port = portPos hport.toNat →
      (s.sched.indirect.filter fun e => portPos e.1 == portPos hport.toNat).length < 1024 →
      s.completes (.flowWriteQuantum hport) fun t =>
        t.sched.indirect =
          (s.sched.indirect.filter fun e => !sameParameter e (hport.toNat, .quantum s.flowId (s.rdf (offFlowData 1) 23 0))) ++
            [(hport.toNat, .quantum s.flowId (s.rdf (offFlowData 1) 23 0))] ∧
        t.rdb (s.schedBase hport.toNat + shGen) 30 = true) ∧
    (s.serves offFlowCmd → s.schedReady = true →
      s.completes .flowZeroDeq fun t => t.flow s.flowId = { s.flow s.flowId with deqFrames := 0, deqBytes := 0 }) ∧
    (s.serves offClodCmd → s.schedReady = true →
      s.completes .clodRead fun t => t.clod s.clodId = (s.clod s.clodId).upTo s.cycle ∧
        t.rds (offClodData 0) 8 = (t.clod s.clodId).words) ∧
    (∀ hport : BitVec 9, s.serves offClodCmd → s.schedReady = true → isPort hport.toNat = true →
      s.clodId / 65536 = portPos hport.toNat →
      (s.sched.indirect.filter fun e => portPos e.1 == portPos hport.toNat).length < 1024 →
      s.completes (.clodWrite hport) fun t => t.sched.indirect =
        (s.sched.indirect.filter fun e => !sameParameter e (hport.toNat, .clod s.clodId [] false)) ++ [(hport.toNat, .clod s.clodId
          [s.rd (offClodData 0), s.rd (offClodData 1), s.rd (offClodData 2), s.rd (offClodData 3) &&& 0x80FFFFFF] false)] ∧
        t.rdb (s.schedBase hport.toNat + shGen) 30 = true) ∧
    (∀ hport : BitVec 9, s.serves offClodCmd → s.schedReady = true → isPort hport.toNat = true →
      s.clodId / 65536 = portPos hport.toNat →
      (s.sched.indirect.filter fun e => portPos e.1 == portPos hport.toNat).length < 1024 →
      s.completes (.clodWriteFull hport) fun t => t.sched.indirect =
        (s.sched.indirect.filter fun e => !sameParameter e (hport.toNat, .clod s.clodId [] true)) ++ [(hport.toNat, .clod s.clodId
          [s.rd (offClodData 0), s.rd (offClodData 1), s.rd (offClodData 2), s.rd (offClodData 3) &&& 0x80FFFFFF] true)] ∧
        t.rdb (s.schedBase hport.toNat + shGen) 30 = true) ∧
    (∀ hport : BitVec 9, s.serves offClodCmd → s.schedReady = true → isPort hport.toNat = true →
      s.clodId / 65536 = portPos hport.toNat →
      1024 ≤ (s.sched.indirect.filter fun e => portPos e.1 == portPos hport.toNat).length →
      s.completes (.clodWrite hport) fun t => t.sched.indirect = s.sched.indirect ∧ t.rdb offClodCmd 29 = true ∧
        t.rdb offSchedGevt 2 = true ∧ t.cnt (offSchedPoscnt (portPos hport.toNat) 5) =
          (s.cnt (offSchedPoscnt (portPos hport.toNat) 5) + 1) % cntMod) ∧
    (s.serves offFlowCmd → s.schedReady = false →
      s.completes .flowRead fun t => t.rdb offFlowCmd 29 = true ∧ t.rds (offFlowData 0) 12 = s.rds (offFlowData 0) 12) ∧
    (s.lineOn = true → s.schedReady = false → s.timerOn .schedInit = false →
      s.completes .schedInit fun t => t.timerOn .schedInit = true ∧ t.sched.flowLists = [] ∧ t.sched.lists = [] ∧
        t.sched.cache = []) ∧
    (s.timerOn .schedInit = true →
      s.completes .schedInitDone fun t => t.schedReady = true ∧ t.timerOn .schedInit = false ∧ t.rdb offSchedGevt 3 = true)

/-- Clod refills and rejoins, the cache, selection, the egress editor, MAC transmit and the way out to the host (R31, R103,
R122, R123, R187, R191, R222, R234, R235, R240). -/
def Obligations.SelectionAndTransmitAct : Prop := ∀ (s : State),
    (∀ id : BitVec 20, s.lineOn = true →
      s.completes (.clodRefresh id) fun t => t.clod id.toNat = (s.clod id.toNat).upTo s.cycle) ∧
    (∀ id : BitVec 20, ((s.clod id.toNat).upTo s.cycle).tier < 2 →
      s.completes (.clodRejoin id) fun t => t.clod id.toNat = (s.clod id.toNat).upTo s.cycle ∧
        (s.clodPlaces id.toNat).all (fun e =>
          (t.clodList e.1 e.2 ((s.clod id.toNat).upTo s.cycle).tier).ids.contains id.toNat) = true) ∧
    (∀ (pos : Fin 17) (flow : BitVec 26), s.sched.fetches.contains (cacheKey pos flow.toNat) = true →
      s.completes (.cacheFetchDone pos flow) fun t => t.sched.fetches.contains (cacheKey pos flow.toNat) = false ∧
        (s.sched.cache.length < 131072 → t.inCache pos flow.toNat = true)) ∧
    (∀ (port : Fin 259) (i : Nat) (turn : EngineTurn) (u : State), s.lineOn = true → port.val ≠ 257 →
      s.handEngine port = some turn → u = s.atSelection port → u.selMode port = .send →
      (u.descend port .send classesDown).1.map (·.1.copy) = some i → (u.copy i).isSome = true →
      s.completes (.selection port) fun t => (t.copy i).map (·.stage) = some .selected ∧
        sget (fun _ => {}) t.sched.turns (portPos port) = turn) ∧
    (∀ (port : Fin 259) (i : Nat) (turn : EngineTurn) (u : State), s.lineOn = true → port.val ≠ 257 →
      s.handEngine port = some turn → u = s.atSelection port → u.selMode port ≠ .send →
      (u.descend port (u.selMode port) classesDown).1.map (·.1.copy) = some i →
      s.completes (.selection port) fun t => t.copy i = none ∧
        sget (fun _ => {}) t.sched.turns (portPos port) = turn) ∧
    (∀ port : Fin 259, s.lineOn = false ∨ port.val = 257 ∨ s.handEngine port = none →
      s.completes (.selection port) fun t => t = s) ∧
    (∀ (c : Nat) (b : Option Nat) (x : Copy) (f : Frame) (e : Edit), s.copy c = some x → s.frame x.frame = some f →
      x.stage = .selected → s.editBed x f = b → f.spoiled = false →
      (x.port < 256 ∧ b.any s.bedUsable = true) ∨ (isHost x.port = true ∧ f.pos.all s.posUsable = true) →
      s.edited b x f = some e →
      s.completes (.egressEdit c false) fun t => (t.copy c).map (·.stage) = some .edited ∧
        (t.copy c).map (·.edit) = some (some e) ∧ (t.copy c).map (·.was) = some (some f)) ∧
    (∀ (c b : Nat) (x : Copy) (f : Frame), s.copy c = some x → s.frame x.frame = some f → x.stage = .selected →
      s.editBed x f = some b → f.spoiled = false →
      (x.port < 256 ∧ s.bedUsable b = true) ∨ (isHost x.port = true ∧ f.pos.all s.posUsable = true) →
      s.edited (some b) x f = none →
      s.completes (.egressEdit c false) fun t => t.copy c = none ∧ t.rdb (offRewriteEvt b) 0 = true ∧
        t.cnt (offRewriteCntDropRewrite b) = (s.cnt (offRewriteCntDropRewrite b) + 1) % cntMod) ∧
    (∀ (f : List Byte) (rest : List (List Byte)), s.mgmtSending = true → s.mgmt.txq = f :: rest →
      (f ++ List.replicate (60 - f.length) 0).length + 4 ≤ s.maxFrame mgmtMac →
      s.completes (.macTransmitFrame none none false) fun t => t.mgmt.txq = rest ∧
        t.outbox = .wireFrame 258 (f ++ List.replicate (60 - f.length) 0 ++ ethFcs (f ++ List.replicate (60 - f.length) 0))
          :: s.outbox) ∧
    (∀ (i b p : Nat) (x : Copy) (e : Edit) (y : Frame) (bytes : List Byte), s.copy i = some x → x.port < 256 →
      s.bedOfPort x.port = some b → p = x.port % 16 → x.edit = some e → x.was = some y → s.bedUsable b = true →
      x.stage = .edited → s.firstOut b p i x = true → s.outMode b p = .send → s.mayStart b p i x.cls = true →
      s.fragsOf b p i x.cls = none → x.assay = none → ptpEntry y.parse = none → x.tsReq = false →
      bytes = e.bytes ++ List.replicate (60 - e.bytes.length) 0 → bytes.length + 4 ≤ s.maxFrame (16 * b + p) →
      s.gateLets b p x.cls (s.txStart b p) (bytes.length + 4) none = true →
      s.completes (.macTransmitFrame (some i) none false) fun t => t.copy i = none ∧
        t.outbox = .wireFrame x.port (bytes ++ ethFcs bytes) :: s.outbox) ∧
    (∀ (i b p k : Nat) (x : Copy) (e : Edit) (y : Frame) (bytes : List Byte), s.copy i = some x → x.port < 256 →
      s.bedOfPort x.port = some b → p = x.port % 16 → x.edit = some e → x.was = some y → s.bedUsable b = true →
      x.stage = .edited → s.firstOut b p i x = true → s.outMode b p = .send → s.mayStart b p i x.cls = true →
      s.fragsOf b p i x.cls = none → x.assay = none → ptpEntry y.parse = none → x.tsReq = false →
      bytes = e.bytes ++ List.replicate (60 - e.bytes.length) 0 → bytes.length + 4 ≤ s.maxFrame (16 * b + p) →
      s.gateLets b p x.cls (s.txStart b p) (bytes.length + 4) none = true →
      s.completes (.macTransmitFrame (some i) (some k) false) fun t => t.copy i = none ∧
        t.outbox = .wireCut x.port 0 ((bytes ++ ethFcs bytes).take k) :: s.outbox) ∧
    (∀ (i b p cut ready : Nat) (x : Copy) (e : Edit) (y : Frame) (o : OpenTx) (bytes : List Byte),
      s.copy i = some x → x.port < 256 →
      s.bedOfPort x.port = some b → p = x.port % 16 → x.edit = some e → x.was = some y → s.bedUsable b = true →
      x.stage = .edited → s.firstOut b p i x = true → s.outMode b p = .send → s.mayStart b p i x.cls = true →
      (s.mac (16 * b + p)).openTx = none → s.fragsOf b p i x.cls = some o → x.assay = none → ptpEntry y.parse = none →
      x.tsReq = false → bytes = e.bytes ++ List.replicate (60 - e.bytes.length) 0 →
      bytes.length + 4 ≤ s.maxFrame (16 * b + p) →
      s.gateLets b p x.cls (s.txStart b p) (bytes.length + 4) (some o) = true →
      s.cutPoint b p x.cls (s.txStart b p - s.ps) (bytes.length + 4) o (some ready) = some cut →
      s.completes (.preemptFragment i ready) fun t =>
        (t.mac (16 * b + p)).openTx = some { o with sent := cut, frags := 1 } ∧
        t.outbox = .wireFragment x.port 0 (o.number % 4) none (bytes.take cut ++ fragCrc (bytes.take cut)) :: s.outbox) ∧
    (∀ (i b p : Nat) (x : Copy) (e : Edit) (y : Frame) (o : OpenTx), s.copy i = some x → x.port < 256 →
      s.bedOfPort x.port = some b → p = x.port % 16 → x.edit = some e → x.was = some y → s.bedUsable b = true →
      x.stage = .edited → s.firstOut b p i x = true → s.outMode b p = .send → s.mayStart b p i x.cls = true →
      (s.mac (16 * b + p)).openTx = some o → o.copy = i → s.contFits b p o x = true →
      s.cutPoint b p x.cls (s.txStart b p - s.ps) (o.left x) o none = none →
      s.completes (.macTransmitFrame (some i) none false) fun t => t.copy i = none ∧
        (t.mac (16 * b + p)).openTx = none ∧
        .wireFragment x.port o.sent (o.number % 4) (if o.frags = 0 then none else some ((o.frags - 1) % 4))
          ((x.wire ++ ethFcs x.wire).drop o.sent) ∈ t.outbox.take (t.outbox.length - s.outbox.length)) ∧
    (∀ (c : Nat) (x : Copy) (e : Edit) (f : Frame), s.copy c = some x → x.edit = some e → s.frameOf x = some f →
      f.spoiled = false → x.stage = .edited → x.port = 256 → s.firstCopy c x = true → s.hostOn = true →
      s.mayCross .frameOut (grainsOf e.bytes.length) = true →
      s.completes (.sieveFrameOut c false) fun t => t.copy c = none ∧
        t.rings.store = s.rings.store ++ [hostFrame x f e.bytes]) ∧
    (∀ (c : Nat) (x : Copy) (e : Edit) (f : Frame), s.copy c = some x → x.edit = some e → s.frameOf x = some f →
      f.spoiled = false → x.stage = .edited → x.port = 258 → s.firstCopy c x = true → s.hostOn = true →
      s.mayCross .frameOut (grainsOf e.bytes.length) = true →
      s.completes (.sieveFrameOut c false) fun t => t.copy c = none ∧ t.mgmt.txq = s.mgmt.txq ++ [e.bytes])

/-- Gate lists: commit, abort, adoption, boundaries, hold, abandonment and list access (R250, R252, R254, R260, R263 to R265). -/
def Obligations.GatesAct : Prop := ∀ (s : State) (b : BedIx) (p : LocalIx),
    (∀ v, s.serves (offGateCtl b p) → bit 30 v = false → (s.gate b p).commit ≠ some (s.cycle, true) →
      s.commitBad b p = false →
      s.completes (.gateCommit b p v) fun t => t.gateState b p = s.gateState b p + 1 ∧ t.actStore b p = s.actStore b p) ∧
    (∀ v, s.serves (offGateCtl b p) → bit 30 v = false → (s.gate b p).commit ≠ some (s.cycle, true) →
      s.commitBad b p = true →
      s.completes (.gateCommit b p v) fun t => t.gateState b p = s.gateState b p ∧ t.rdb (offGateStatus b p) 27 = true ∧
        t.rdb (offGateEvt b) 2 = true) ∧
    (∀ v, s.serves (offGateCtl b p) → bit 30 v = false → (s.gate b p).commit = some (s.cycle, true) →
      s.completes (.gateCommit b p v) fun t => t.gateState b p = s.gateState b p ∧ t.actStore b p = s.actStore b p) ∧
    (∀ v, s.serves (offGateCtl b p) → bit 31 v = false → s.gateState b p % 2 = 1 → s.adoptDue b p = false →
      s.completes (.gateAbort b p v) fun t => t.gateState b p = s.gateState b p - 1) ∧
    (∀ v, s.serves (offGateCtl b p) → bit 31 v = false → s.gateState b p % 2 = 0 ∨ s.adoptDue b p = true →
      s.completes (.gateAbort b p v) fun t => t.gateState b p = s.gateState b p) ∧
    (s.adoptDue b p = true →
      s.completes (.gateAdopt b p) fun t => t.gateState b p = 2 ∧ t.actStore b p = 1 - s.actStore b p ∧
        t.rds (offGateAct b p 0) 5 = [s.rd (offGateShCycle b p), s.rd (offGateShCfg b p), s.rd (offGateShBaseNs b p),
          s.rd (offGateShBaseS b p 0), s.rd (offGateShBaseS b p 1)] ∧ t.rdb (offGateEvt b) 0 = true) ∧
    (s.adoptDue b p = false → s.completes (.gateAdopt b p) fun t => t = s) ∧
    (s.completes (.gateBoundary b p) fun t => t.rdf (offGateStatus b p) 25 18 = s.gatesAt b p 0 ∧
        t.rdb (offMacMmStatus b p) 27 = t.rdb (offGateStatus b p) 17) ∧
    (∀ (l : GateList) (pos : Nat), (s.gateView b p 0).1 = some (l, pos) → l.hold pos = true →
      s.completes (.gateHoldAdvance b p) fun t => t.rdb (offGateStatus b p) 17 = true ∧
        t.rdb (offMacMmStatus b p) 27 = true) ∧
    (∀ (o : OpenTx) (c : Copy), (s.mac (16 * b.val + p.val)).openTx = some o → s.copy o.copy = some c →
      s.abandonDue b p o c = true →
      s.completes (.gateAbandon b p) fun t => (t.mac (16 * b.val + p.val)).openTx = none ∧ t.copy o.copy = none ∧
        t.cnt (offStatCnt b p 53) = (s.cnt (offStatCnt b p 53) + 1) % cntMod ∧ t.rdb (offGateEvt b) 5 = true) ∧
    (s.serves (offGateCmd b) →
      s.completes (.gateListRead b) fun t => t.rd (offGateData0 b) = (s.gateEntry (s.gateAddr b).2).1 ∧
        t.rd (offGateData1 b) = (s.gateEntry (s.gateAddr b).2).2) ∧
    (s.serves (offGateCmd b) → s.rdb (offGateAddr b) 31 = false → s.gateState b (s.gateAddr b).1 % 2 = 0 →
      s.completes (.gateListWrite b) fun t => t.gateEntry (s.gateAddr b).2 =
        (s.rd (offGateData0 b), s.rd (offGateData1 b) &&& 0x1FF)) ∧
    (s.serves (offGateCmd b) → s.rdb (offGateAddr b) 31 = true ∨ s.gateState b (s.gateAddr b).1 % 2 = 1 →
      s.completes (.gateListWrite b) fun t => t.gates.entries = s.gates.entries ∧
        t.rdb (offGateStatus b (s.gateAddr b).1) 26 = true ∧ t.rdb (offGateEvt b) 3 = true)

/-- Time bases: addends, captures, commands with their jump limit and unlock, and timed actions (R271, R273, R275 to R277,
R290 to R293). -/
def Obligations.TimeBasesAct : Prop := ∀ (s : State) (k : Fin 10),
    (∀ v : Word, s.serves (tbFracReg k) → addendOk (s.rdf (tbInt k) 3 0 * 2 ^ 32 + v.toNat) = true →
      s.completes (.addendWrite k v) fun t => (t.tb k).addend = s.rdf (tbInt k) 3 0 * 2 ^ 32 + v.toNat ∧
        t.rd (tbFracReg k) = v ∧ t.rd (tbInt k) = w32 (s.rdf (tbInt k) 3 0)) ∧
    (∀ v : Word, s.serves (tbFracReg k) → addendOk (s.rdf (tbInt k) 3 0 * 2 ^ 32 + v.toNat) = false →
      s.completes (.addendWrite k v) fun t => (t.tb k).addend = (s.tb k).addend ∧ t.rdb (tbCtl k) 27 = true ∧
        t.rdb offTimeEvt 2 = true) ∧
    (s.serves (tbNowReg k) →
      s.completes (.tbNowRead k) fun t => t.rds (tbNowReg k) 4 = nowWords (s.tb k).val ∧
        t.outbox = .busResponse false (w32 (tbNs (s.tb k).val)) :: s.outbox) ∧
    (s.serves offTimeCaptureAll →
      s.completes .captureAll fun t => t.rdb offTimeCaptureAll 30 = true ∧
        ∀ j : Fin 8, t.rds (offTimeCap j 0) 4 = nowWords (s.tb j).val) ∧
    (s.serves offActCmd → s.completes .actRead fun t => t.rds offActData0 8 = (s.act s.actAddr).words) ∧
    (s.serves offActCmd → (s.act s.actAddr).armed = false →
      s.completes .actWrite fun t => t.act s.actAddr = { s.act s.actAddr with
        ns := s.rdf offActData0 29 0, sec := (s.rd (offActData1 0)).toNat + 2 ^ 32 * (s.rd (offActData1 1)).toNat,
        period := (s.rd (offActData1 2)).toNat, w4 := s.rd offActData4 &&& 0x00BFE000,
        w5 := s.rd offActData5 &&& 0xBF000000 }) ∧
    (s.serves offActCmd → (s.act s.actAddr).armed = true →
      s.completes .actWrite fun t => t.act s.actAddr = s.act s.actAddr ∧ t.rdb offActCmd 29 = true) ∧
    (s.serves offActCmd → s.armVal (s.actAddr / 256) ≤ (s.act s.actAddr).time →
      s.completes .actArm fun t => t.act s.actAddr = { s.act s.actAddr with armed := true, late := false, lateness := 0 }) ∧
    (s.serves offActCmd → (s.act s.actAddr).time < s.armVal (s.actAddr / 256) →
      s.completes .actArm fun t => (t.act s.actAddr).late = true ∧ t.rdb offTimeEvt 5 = true ∧
        (t.act s.actAddr).runs = ((s.act s.actAddr).runs + 1) % 2 ^ 32 ∧
        (t.act s.actAddr).armed = ((s.act s.actAddr).period != 0)) ∧
    (s.serves offActCmd →
      s.completes .actDisarm fun t => t.act s.actAddr = { s.act s.actAddr with armed := false }) ∧
    (∀ (j : Fin 8) (slot : Fin 256), (s.act (actKey j slot)).armed = true → (s.act (actKey j slot)).time ≤ s.tbNow j →
      s.completes (.actFire j slot) fun t => (t.act (actKey j slot)).runs = ((s.act (actKey j slot)).runs + 1) % 2 ^ 32 ∧
        (t.act (actKey j slot)).armed = ((s.act (actKey j slot)).period != 0) ∧
        (t.act (actKey j slot)).time = (s.act (actKey j slot)).time + (s.act (actKey j slot)).period * nsUnit) ∧
    (∀ v, s.serves (tbCmd k) → (s.tb k).cmd = none → s.pairState k = 0 →
      s.jumpOk k ((s.setValue k : Int) - s.tickVal k).natAbs (s.unlocked k) = true →
      s.completes (.tbSet k v) fun t => t.tb k = { s.tb k with cmd := some (.set (s.setValue k)) } ∧
        t.unlocked k = false) ∧
    (∀ v, s.serves (tbCmd k) → (s.tb k).cmd = none → s.pairState k = 0 →
      s.jumpOk k ((s.setValue k : Int) - s.tickVal k).natAbs (s.unlocked k) = false →
      s.completes (.tbSet k v) fun t => t.tb k = s.tb k ∧ t.rdb (tbCtl k) 29 = true ∧ t.rdb offTimeEvt 0 = true ∧
        t.rd (tbRefused k) = w32 (min 0xFFFFFFFF (((s.setValue k : Int) - s.tickVal k).natAbs / nsUnit))) ∧
    (∀ v, s.serves (tbCmd k) → (s.tb k).cmd = none → s.pairState k = 0 →
      s.jumpOk k (s.tbOffset k).natAbs (s.unlocked k) = false →
      s.completes (.tbStep k v) fun t => t.tb k = s.tb k ∧ t.rdb (tbCtl k) 29 = true ∧ t.rdb offTimeEvt 0 = true ∧
        t.rd (tbRefused k) = w32 (min 0xFFFFFFFF ((s.tbOffset k).natAbs / nsUnit))) ∧
    (∀ v, s.serves (tbCmd k) → (s.tb k).cmd = none → s.pairState k = 0 →
      s.jumpOk k ((s.tb k).slew + s.tbOffset k).natAbs (s.unlocked k) = false →
      s.completes (.tbSlew k v) fun t => t.tb k = s.tb k ∧ t.rdb (tbCtl k) 29 = true ∧ t.rdb offTimeEvt 0 = true ∧
        t.rd (tbRefused k) = w32 (min 0xFFFFFFFF (((s.tb k).slew + s.tbOffset k).natAbs / nsUnit))) ∧
    (∀ v, s.serves (tbCmd k) → (s.tb k).cmd = none → s.pairState k = 0 →
      s.jumpOk k (s.tbOffset k).natAbs (s.unlocked k) = true →
      s.completes (.tbStep k v) fun t => t.tb k = { s.tb k with cmd := some (.step (s.tbOffset k)) } ∧
        t.unlocked k = false) ∧
    (∀ v, s.serves (tbCmd k) → (s.tb k).cmd = none → s.pairState k = 0 →
      s.jumpOk k ((s.tb k).slew + s.tbOffset k).natAbs (s.unlocked k) = true →
      s.completes (.tbSlew k v) fun t =>
        t.tb k = { s.tb k with cmd := some (.slew (s.tbOffset k) (clampTo 1 1000 (fld 25 16 v))) } ∧
        t.unlocked k = false) ∧
    (∀ v, s.serves (tbCmd k) → (s.tb k).cmd.isSome = true →
      (s.completes (.tbSet k v) fun t => t.tb k = s.tb k) ∧ (s.completes (.tbStep k v) fun t => t.tb k = s.tb k) ∧
        s.completes (.tbSlew k v) fun t => t.tb k = s.tb k) ∧
    (∀ v, s.serves (tbCmd k) → (s.tb k).cmd = none → s.pairState k ≠ 0 →
      (s.completes (.tbSet k v) fun t => t.tb k = s.tb k ∧ t.rdb (offPairStatus k) 29 = true) ∧
      (s.completes (.tbStep k v) fun t => t.tb k = s.tb k ∧ t.rdb (offPairStatus k) 29 = true) ∧
        s.completes (.tbSlew k v) fun t => t.tb k = s.tb k ∧ t.rdb (offPairStatus k) 29 = true) ∧
    (∀ (v : Nat) (t : State), (s.tb k).cmd = some (.set v) → t = s.tbTick k →
      (t.tb k).val = v ∧ (t.tb k).slew = 0 ∧ (t.tb k).cmd = none) ∧
    (∀ (d : Int) (t : State), (s.tb k).cmd = some (.step d) → t = s.tbTick k →
      (t.tb k).val = ((s.tb k).val + (s.tickAdd k : Int) + d).toNat ∧ (t.tb k).slew = 0 ∧ (t.tb k).cmd = none) ∧
    (∀ (d : Int) (ppm : Nat) (t : State), (s.tb k).cmd = some (.slew d ppm) → s.tbRun k = true → (s.tb k).ticked = false →
      t = s.tbTick k → t.tb k = TimeBase.tick { s.tb k with cmd := none, slew := (s.tb k).slew + d, ppm := ppm }) ∧
    ((s.tb k).slew ≠ 0 → (s.tb k).cmd = none → (s.tb k).ticked = false → s.tbRun k = true →
      (s.tb k).slew.natAbs ≤ max 1 (slewShare (s.tb k).addend (s.tb k).ppm (0 < (s.tb k).slew)) →
      s.completes (.slewEnd k) fun t => (t.tb k).slew = 0 ∧
        (t.tb k).val = (((s.tb k).val : Int) + (s.tb k).addend + (s.tb k).slew).toNat) ∧
    (∀ v, s.serves (tbUnlock k) → s.lkOk false .time = true →
      s.completes (.unlockWrite k v) fun t => t.unlocked k = (v == 0x00000F0C) ∧ t.rdb (tbCtl k) 28 = (v == 0x00000F0C)) ∧
    (∀ v, s.serves (tbUnlock k) → s.lkOk false .time = false →
      s.completes (.unlockWrite k v) fun t => t.unlocked k = s.unlocked k ∧ t.rdb offSecEvt 0 = true ∧
        t.rd offWmapLast = w32 (tbUnlock k)) ∧
    (s.unlocked k = true → s.completes (.unlockExpire k) fun t => t.unlocked k = false ∧ t.rdb (tbCtl k) 28 = false ∧
        t.rdb offTimeEvt 1 = true)

/-- Paired bases, timestamp queues, time inputs and outputs, and monitors (R289, R295 to R299). -/
def Obligations.TimeInputsAndPairsAct : Prop := ∀ (s : State) (k : Fin 2),
    (∀ v, s.serves (offPairCtl k) → bit 31 v = true → bit 29 v = false → s.pairState k = 0 →
      bit 21 v = true ∨ (s.tb (8 + k.val)).valid = true →
      s.completes (.pairSwitch k v) fun t => t.pairState k = 1 ∧ t.rd (offPairD k) = signedNs (s.pairDiff k)) ∧
    (∀ v, s.serves (offPairCtl k) → bit 31 v = true → bit 29 v = false → s.pairState k = 0 →
      bit 21 v = false → (s.tb (8 + k.val)).valid = false →
      s.completes (.pairSwitch k v) fun t => t.pairState k = 0 ∧ t.rdb (offPairStatus k) 28 = true ∧
        t.rdb offTimeEvt 10 = true) ∧
    (∀ v, s.serves (offPairCtl k) → s.completes (.pairReturn k v) fun t => t.pairState k = 0) ∧
    (s.pairState k = 1 → (s.pairDiff k).natAbs ≤ s.pairShare k →
      s.completes (.pairSwitchDone k) fun t => t.pairState k = 2 ∧ (t.tb k).val = (s.tb (8 + k.val)).val ∧
        t.rdb offTimeEvt 9 = true) ∧
    (∀ (b : BedIx) (p : LocalIx) v, s.serves (offTsqStatus b p) → (s.tsq (16 * b.val + p.val)).length ≤ 64 →
      s.completes (.tsqPop b p v) fun t => t.tsq (16 * b.val + p.val) = (s.tsq (16 * b.val + p.val)).tail ∧
        t.rdf (offTsqStatus b p) 6 0 = (s.tsq (16 * b.val + p.val)).length - 1) ∧
    (s.lineOn = true → s.rdb (offPpsInCtl k) 31 = true → (s.ppsQ k).length < 16 →
      s.completes (.ppsInEdge k (s.rdb (offPpsInCtl k) 30)) fun t => t.ppsQ k = s.ppsQ k ++
          [addPs (s.tbNow (s.rdf (offPpsInCtl k) 29 27)) (sword (s.rdf (offPpsInCtl k) 15 0))] ∧
        t.rdb offTimeEvt 6 = true) ∧
    (s.lineOn = true → s.rdb (offPpsInCtl k) 31 = true → 16 ≤ (s.ppsQ k).length →
      s.completes (.ppsInEdge k (s.rdb (offPpsInCtl k) 30)) fun t => t.ppsQ k = s.ppsQ k ∧
        t.rdb (offPpsInCtl k) 26 = true ∧ t.rdb offTimeEvt 7 = true) ∧
    (s.serves (offPpsInPop k) → s.completes (.ppsInPop k) fun t => t.ppsQ k = (s.ppsQ k).tail) ∧
    (s.timerOn (.ppsOut k) = true → s.completes (.ppsOutEnd k) fun t => t.timerOn (.ppsOut k) = false ∧
        t.outbox = .ppsLevel k (s.rdb (offPpsOutCtl k) 30) :: s.outbox) ∧
    (∀ v, s.serves offRef10Ctl → s.completes (.ref10Go v) fun t => t.time.measuring = true ∧
        t.rdf offRef10Ctl 30 29 = 0 ∧ t.rdf offRef10Ctl 4 0 = fld 4 0 v) ∧
    (∀ elapsed : BitVec 64, s.time.measuring = true → s.roleServed 17 = true →
      s.completes (.ref10Done elapsed false) fun t => t.time.measuring = false ∧ t.rdb offRef10Ctl 30 = true ∧
        t.rd offRef10Meas = BitVec.ofInt 32
          ((elapsed.toNat : Int) - 2 ^ clampTo 10 24 (s.rdf offRef10Ctl 4 0) * 100 * 65536)) ∧
    (∀ elapsed, s.time.measuring = true → s.roleServed 17 = true →
      s.completes (.ref10Done elapsed true) fun t => t.time.measuring = false ∧ t.rdf offRef10Ctl 30 29 = 3) ∧
    (∀ m : Fin 4, s.roleServed 17 = true → s.rdb (offMonCtl m) 31 = true → s.rdb (offMonCtl m) 30 = false →
      s.completes (.timeMonSample m false) fun t => t.rd (offMonLastDiff m) = signedNs
        ((s.tbNow (s.rdf (offMonCtl m) 28 26) : Int) - s.tbNow (s.rdf (offMonCtl m) 25 23) -
          (s.rd (offMonOffset m)).toInt * nsUnit))

/-- Telemetry's intervals and archive, event records and masks, and plain register and counter writes (R5, R11, R15, R308,
R309, R313, R316, R317, R351). -/
def Obligations.TelemetryEventsAndRegistersAct : Prop := ∀ (s : State),
    (∀ (v : TelInterval) (rest : List TelInterval), s.tel.opened = v :: rest → v.ended = false →
      v.closed = true ∨ v.stop ≤ s.tbNow s.telTb / nsUnit →
      s.completes .intervalEnd fun t => t.tel.opened.head?.map (·.ended) = some true ∧
        (t.tel.opened.head?.all fun i => i.recs.all fun r => r.2.all fun c =>
          c.endDepth == s.rd2 (offAdmPclassOcc (r.1 / 8) (r.1 % 8) 0)) = true) ∧
    (∀ (i : TelInterval) (rest : List TelInterval), s.tel.opened = i :: rest → i.ended = true →
      i.closed = true ∨ i.stop + 4000 ≤ s.tbNow s.telTb / nsUnit →
      i.recs.filterMap (fun r => r.2.map fun c => c.words i r.1) ≠ [] → s.classCap ≠ 0 →
      s.completes .intervalSettle fun t => t.tel.opened = rest ∧ t.tel.classOut = s.tel.classOut ++
        [(i.idx, 0, i.recs.filterMap fun r => r.2.map fun c => c.words i r.1)]) ∧
    (∀ (r : List Word) (rest : List (List Word)), s.tel.flowOut = r :: rest →
      s.completes (.archiveWriteAck false) fun t => t.tel.flowOut = rest ∧
        sget (fun _ => []) t.tel.flowRing (s.cnt (offTelFlowWr 0) % s.flowCap) = r ∧
        t.cnt (offTelFlowWr 0) = (s.cnt (offTelFlowWr 0) + 1) % cntMod) ∧
    (∀ (j last : Nat) (recs : List (List Word)) (rest : List (Nat × Nat × List (List Word))),
      s.tel.classOut = (j, last, recs) :: rest → recs.length ≤ last + 1 →
      s.completes (.archiveWriteAck true) fun t => t.tel.classOut = rest ∧
        t.cnt (offTelClassWr 0) = (s.cnt (offTelClassWr 0) + recs.length) % cntMod ∧
        t.rd2 (offTelClassLast 0) = j % 2 ^ 64) ∧
    (∀ evt : BitVec 26, s.hostOn = true → sget (fun _ => 0) s.evWait evt.toNat ≠ 0 →
      s.ringState (1024 + s.rdf (evt.toNat + 8) 7 0) = 1 →
      cntDiff (s.cons (1024 + s.rdf (evt.toNat + 8) 7 0)) (s.seen (1024 + s.rdf (evt.toNat + 8) 7 0)) <
        s.ringSize (1024 + s.rdf (evt.toNat + 8) 7 0) →
      s.completes (.eventRecordSend evt) fun t => sget (fun _ => 0) t.evWait evt.toNat = 0 ∧
        t.cons (1024 + s.rdf (evt.toNat + 8) 7 0) = (s.cons (1024 + s.rdf (evt.toNat + 8) 7 0) + 1) % 2 ^ 32 ∧
        t.rdb (offVecStatus (s.rdf (evt.toNat + 8) 7 0)) 25 = true ∧ t.outbox.length = s.outbox.length + 1) ∧
    (∀ (evt : BitVec 26) (v : Word) (row : RegRow), isMask (evt.toNat + 4) = true → s.serves (evt.toNat + 4) →
      s.laneWord (evt.toNat + 4) = none → regRow (evt.toNat + 4) = some row →
      s.completes (.evtMaskClear evt v) fun t => t.rd (evt.toNat + 4) = v &&& row.rw ∧
        sget (fun _ => 0) t.evWait evt.toNat = sget (fun _ => 0) s.evWait evt.toNat |||
          (s.rd evt.toNat &&& s.rd (evt.toNat + 4) &&& ~~~v &&& row.rw)) ∧
    (∀ (addr : BitVec 26) (v : Word) (row : RegRow), isCounter addr.toNat = true → s.serves addr.toNat →
      s.laneWord addr.toNat = none → regRow addr.toNat = some row →
      s.completes (.counterWrite addr v) fun t => t.rd addr.toNat = row.written (s.rd addr.toNat) (clampReg addr.toNat v)) ∧
    (∀ (addr : BitVec 26) v, addr.toNat % 4 = 0 → s.serves addr.toNat →
      s.completes (.registerWrite addr v 0xF) fun t => t.outbox.head? = some (.busResponse false 0)) ∧
    (∀ (addr : BitVec 26) v (be : BitVec 4), be ≠ 0xF ∨ addr.toNat % 4 ≠ 0 → s.hostOn = true →
      s.completes (.registerWrite addr v be) fun t => t = { s with outbox := .busResponse true 0 :: s.outbox }) ∧
    (∀ (addr : BitVec 26) (v : Word) (row : RegRow),
      addr.toNat = offBlkEvt ∨ addr.toNat = offBlkEvtRoute ∨ addr.toNat = offTierPrefetchAhead ∨ addr.toNat = offWakeStatus →
      s.serves addr.toNat → regRow addr.toNat = some row →
      s.completes (.registerWrite addr v 0xF) fun t =>
        t.rd addr.toNat = row.written (s.rd addr.toNat) (clampReg addr.toNat v))

/-- Rings and vectors: doorbells, ring states, faults and interrupt messages (R322, R328 to R331, R353). -/
def Obligations.RingsAndVectorsAct : Prop := ∀ (s : State) (r : RingId),
    (∀ v, s.serves 0x2F0000 → nudgeRing v = some (ringKey r) → s.ringState (ringKey r) = 1 →
      (s.ring (ringKey r)).fetching = false → s.readsOut < 512 →
      s.completes (.nudge v) fun t => (t.ring (ringKey r)).fetching = true ∧
        t.outbox = .busResponse false 0 :: .doorbellFetch (s.ring (ringKey r)).db :: s.outbox) ∧
    (∀ v, s.serves 0x2F0000 → nudgeRing v = some (ringKey r) → s.ringState (ringKey r) = 1 →
      (s.ring (ringKey r)).fetching = false → 512 ≤ s.readsOut →
      s.completes (.nudge v) fun t => (t.ring (ringKey r)).fetching = true ∧
        t.rings.readQ = s.rings.readQ ++ [ringKey r] ∧ t.outbox = .busResponse false 0 :: s.outbox) ∧
    (∀ v, s.serves 0x2F0000 → nudgeRing v = some (ringKey r) → s.ringState (ringKey r) = 1 →
      (s.ring (ringKey r)).fetching = true →
      s.completes (.nudge v) fun t => t.ring (ringKey r) = { s.ring (ringKey r) with again := true } ∧
        t.outbox = .busResponse false 0 :: s.outbox) ∧
    (∀ v, s.serves 0x2F0000 → nudgeRing v = none ∨ nudgeRing v = some (ringKey r) → s.ringState (ringKey r) ≠ 1 →
      s.completes (.nudge v) fun t => t.rings = s.rings ∧ t.rdb offRingEvt 4 = true ∧
        t.cnt (offRingCnt 8) = (s.cnt (offRingCnt 8) + 1) % cntMod) ∧
    (s.pollNext ≠ some (ringKey r) → s.completes (.doorbellPoll r) fun t => t = s) ∧
    (s.pollNext = some (ringKey r) → (s.ring (ringKey r)).fetching = false → s.readsOut < 512 →
      s.completes (.doorbellPoll r) fun t => (t.ring (ringKey r)).fetching = true ∧
        t.rings.pollTurn = (ringKey r + 1) % 1280 ∧
        t.outbox = .doorbellFetch (s.ring (ringKey r)).db :: s.outbox) ∧
    (s.timerOn (.torn (ringKey r)) = true → s.ringWorks (ringKey r) = true → (s.ring (ringKey r)).fetching = false →
      s.readsOut < 512 →
      s.completes (.tornRecordRefetch r) fun t => t.timerOn (.torn (ringKey r)) = false ∧
        t.outbox = .doorbellFetch (s.ring (ringKey r)).db :: s.outbox) ∧
    (∀ words : List Word, s.fetchOut (ringKey r) = true → s.ringWorks (ringKey r) = true →
      words.getD 3 0 = ~~~ words.getD 0 0 → cntDiff (words.getD 0 0).toNat (s.seen (ringKey r)) < 2 ^ 31 →
      (if ringKey r < 1024 then cntDiff (words.getD 0 0).toNat (s.cons (ringKey r))
        else cntDiff (s.cons (ringKey r)) (words.getD 0 0).toNat) ≤ s.ringSize (ringKey r) →
      s.completes (.doorbellRecordArrive r words) fun t => t.seen (ringKey r) = (words.getD 0 0).toNat) ∧
    (∀ words : List Word, s.fetchOut (ringKey r) = true → s.ringWorks (ringKey r) = true →
      words.getD 3 0 ≠ ~~~ words.getD 0 0 →
      s.completes (.doorbellRecordArrive r words) fun t => t.seen (ringKey r) = s.seen (ringKey r) ∧
        t.timerOn (.torn (ringKey r)) = true ∧ t.rdb offRingEvt 5 = true) ∧
    (s.ringWorks (ringKey r) = true → s.ringReads (ringKey r) = true →
      s.completes (.hostReadTimeout r) fun t => t.ringState (ringKey r) = 3 ∧ t.rdf (rgStatus (ringKey r)) 29 27 = 3 ∧
        t.rdb offRingEvt 1 = true) ∧
    (∀ write, s.ringWorks (ringKey r) = true → write = true ∨ s.ringReads (ringKey r) = true →
      s.completes (.hostErrorResponse r write) fun t => t.ringState (ringKey r) = 3 ∧
        t.rdf (rgStatus (ringKey r)) 29 27 = (if write then 2 else 1) ∧ t.rdb offRingEvt 1 = true) ∧
    (∀ v, s.serves (rgCtl (ringKey r)) → bit 29 v = false → s.ringState (ringKey r) = 0 →
      s.completes (.ringEnable r v) fun t => t.ringState (ringKey r) = 1 ∧ t.seen (ringKey r) = 0 ∧
        t.cons (ringKey r) = 0 ∧ t.nextOf (ringKey r) = 0 ∧ (t.ring (ringKey r)).fetching = true ∧
        (t.ring (ringKey r)).base = s.rd2 (ringBase (ringKey r))) ∧
    (∀ v, s.serves (rgCtl (ringKey r)) → bit 29 v = false → s.ringState (ringKey r) = 1 →
      s.completes (.ringDisable r v) fun t => t.ringState (ringKey r) = 2 ∧ (t.ring (ringKey r)).waiting = []) ∧
    (∀ v, s.serves (rgCtl (ringKey r)) →
      s.completes (.ringReset r v) fun t => t.ringState (ringKey r) = 0 ∧ t.seen (ringKey r) = 0 ∧
        t.cons (ringKey r) = 0 ∧ t.nextOf (ringKey r) = 0 ∧ t.rdb (rgCtl (ringKey r)) 31 = false ∧
        (t.ring (ringKey r)).sends = [] ∧ (t.ring (ringKey r)).reserved = []) ∧
    (s.ringState (ringKey r) = 2 → (s.ring (ringKey r)).reserved = [] → (s.ring (ringKey r)).sends = [] →
      s.completes (.ringDrained r) fun t => t.ringState (ringKey r) = 0 ∧ (t.ring (ringKey r)).open_ = []) ∧
    (∀ (v : Fin 256) w, s.serves (offVecCtl v) →
      s.completes (.vectorArmWrite v w) fun t => t.rdb (offVecStatus v) 26 = true ∧ t.rdb (offVecCtl v) 27 = true) ∧
    (∀ v : Fin 256, s.hostOn = true → s.rdb (offVecCtl v) 31 = true → s.rdb (offVecCtl v) 27 = true →
      s.rdb (offVecStatus v) 25 = true → (s.ring (1024 + v.val)).lastMsg = none →
      s.completes (.vectorMessage v) fun t => t.outbox = .interrupt v :: s.outbox ∧ t.rdb (offVecStatus v) 25 = false ∧
        t.rdb (offVecCtl v) 27 = s.rdb (offVecCtl v) 28 ∧ (t.ring (1024 + v.val)).lastMsg = some s.ps)

/-- The host data path: transmit descriptors, sends, reports and writebacks, and receive frames and writebacks (R334, R336,
R340, R341, R345 to R347). -/
def Obligations.HostDataPathActs : Prop := ∀ (s : State) (x : Fin 512),
    (∀ descs : List (List Word × List Byte), s.ringState x = 1 → descs.length ≤ cntDiff (s.seen x) (s.nextOf x) →
      s.completes (.txDescArrive x descs) fun t => t.nextOf x = (s.nextOf x + descs.length) % 2 ^ 32) ∧
    (∀ (d : List Word) (buf : List Byte), s.ringState x = 1 → s.lineOn = true → (s.ring x).open_ = [] →
      0 < cntDiff (s.seen x) (s.nextOf x) → isEop d = true → txStatus [(d, buf)] = 0 →
      s.completes (.txDescArrive x [(d, buf)]) fun t => (t.ring x).open_ = [] ∧
        (t.ring x).sends = (s.ring x).sends ++
          [{ first := s.nextOf x, descs := [d], tsReq := (txAsk d).tsReq, frames := txFrames (txAsk d) (bytesAt buf 0 (descLen d)) }]) ∧
    (∀ (d : List Word) (buf : List Byte), s.ringState x = 1 → s.lineOn = true → (s.ring x).open_ = [] →
      0 < cntDiff (s.seen x) (s.nextOf x) → isEop d = true → txStatus [(d, buf)] ≠ 0 →
      s.completes (.txDescArrive x [(d, buf)]) fun t => t.rdb offRingEvt 3 = true ∧
        t.cnt (offRingCnt 3) = (s.cnt (offRingCnt 3) + 1) % cntMod ∧
        (t.ring x).sends = (s.ring x).sends ++
          [{ first := s.nextOf x, descs := [d], tsReq := (txAsk d).tsReq, status := txStatus [(d, buf)] }]) ∧
    (∀ y : Send, s.hostOn = true → s.lineOn = true → s.txTurn = some x.val →
      (s.ring x).sends.find? Send.crosses = some y → s.mayTake { bytes := y.frames.headD [], src := 256 } = true →
      s.completes (.txFrameCross false) fun t => t.rings.turn = (x.val + 1) % 512 ∧
        t.cnt (offRingCnt 6) = (s.cnt (offRingCnt 6) + 1) % cntMod ∧
        ((t.ring x).sends.map (·.crossed)).sum = ((s.ring x).sends.map (·.crossed)).sum + 1 ∧
        ((t.ring x).sends.map (·.frames.length)).sum + 1 = ((s.ring x).sends.map (·.frames.length)).sum) ∧
    (∀ y : Send, s.hostOn = true → s.lineOn = true → s.txTurn = some x.val →
      (s.ring x).sends.find? Send.crosses = some y → s.mayTake { bytes := y.frames.headD [], src := 256 } = false →
      s.completes (.txFrameCross false) fun t => t = s) ∧
    (s.hostOn = true → s.lineOn = false → s.txTurn = some x.val →
      s.completes (.txFrameCross false) fun t => t.rings.turn = (x.val + 1) % 512 ∧
        t.cnt (offRingCnt 4) = (s.cnt (offRingCnt 4) + 1) % cntMod ∧
        (t.ring x).sends = sendFirst (fun y => { y with status := 4, frames := [] }) (s.ring x).sends) ∧
    (∀ y : Send, s.ringWorks x = true → (s.ring x).sends.find? (s.sendDone x.val) = some y →
      s.completes (.txWriteback x) fun t =>
        (t.ring x).sends = (markWritten y.first (s.ring x).sends).dropWhile (·.written) ∧
        t.cons x = (s.cons x + (((markWritten y.first (s.ring x).sends).takeWhile (·.written)).map (·.descs.length)).sum) % 2 ^ 32 ∧
        t.cnt (offRingCnt 5) = (s.cnt (offRingCnt 5) + 1) % cntMod ∧
        t.outbox = ((List.range y.descs.length).map fun i => Output.descriptorWrite (s.entryAddr x (y.first + i))
          (((List.range 7).map fun j => (y.descs.getD i []).getD j 0) ++ [y.word7 (y.descs.getD i [])])) ++ s.outbox) ∧
    (∀ (id fate : Nat) (rest : List (Nat × Nat)), s.fates = (id, fate) :: rest → s.sendRing id = some x.val →
      s.completes .txFateReport fun t => t.fates = rest ∧ t.timerOn (.tsWait id) = false ∧
        (t.ring x).sends = (s.ring x).sends.map fun y => if y.id = some id then { y with report := some fate } else y) ∧
    (∀ id : Nat, ((s.ring x).sends.find? Send.awaits).bind (·.id) = some id → s.timerOn (.tsWait id) = true →
      s.completes (.tsWaitExpire x) fun t => t.timerOn (.tsWait id) = false ∧
        t.cnt (offRingCnt 12) = (s.cnt (offRingCnt 12) + 1) % cntMod ∧
        (t.ring x).sends = (s.ring x).sends.map fun y => if y.id = some id then { y with report := some 3 } else y) ∧
    (∀ (f : HostFrame) (rest : List HostFrame), s.rings.store = f :: rest → f.ring = x.val →
      s.ringState (512 + x.val) = 1 → (s.ring (512 + x.val)).waiting = [] →
      s.descsFor (512 + x.val) f ≤ cntDiff (s.seen (512 + x.val)) (s.nextOf (512 + x.val)) →
      s.completes .rxFrameArrive fun t => t.rings.store = rest ∧
        t.nextOf (512 + x.val) = (s.nextOf (512 + x.val) + s.descsFor (512 + x.val) f) % 2 ^ 32 ∧
        (t.ring (512 + x.val)).reserved = (s.ring (512 + x.val)).reserved ++
          [(f, s.nextOf (512 + x.val), s.descsFor (512 + x.val) f)]) ∧
    (∀ (f : HostFrame) (rest : List HostFrame), s.rings.store = f :: rest → f.ring = x.val →
      s.ringState (512 + x.val) ≠ 1 →
      s.completes .rxFrameArrive fun t => t.rings.store = rest ∧ t.rdb offRingEvt 2 = true ∧
        t.cnt (offRingCnt 1) = (s.cnt (offRingCnt 1) + 1) % cntMod) ∧
    (∀ f : HostFrame, (s.ring (512 + x.val)).waiting = [f] → s.timerOn (.rxShort x.val) = true →
      s.completes (.rxShortWaitExpire x) fun t => (t.ring (512 + x.val)).waiting = [] ∧
        t.timerOn (.rxShort x.val) = false ∧ t.rdb (rgStatus (512 + x.val)) 26 = true ∧
        t.cnt (offRingCnt 0) = (s.cnt (offRingCnt 0) + 1) % cntMod ∧ t.rdb offRingEvt 0 = true) ∧
    (∀ (addrs : List (BitVec 64)) (f : HostFrame) (first cnt : Nat) (rest : List (HostFrame × Nat × Nat)),
      s.ringWorks (512 + x.val) = true → (s.ring (512 + x.val)).reserved = (f, first, cnt) :: rest →
      s.completes (.rxWriteback x addrs) fun t => (t.ring (512 + x.val)).reserved = rest ∧
        t.cons (512 + x.val) = (s.cons (512 + x.val) + cnt) % 2 ^ 32 ∧
        t.cnt (offRingCnt 7) = (s.cnt (offRingCnt 7) + 1) % cntMod ∧
        t.outbox = ((List.range cnt).map fun i => Output.descriptorWrite (s.entryAddr (512 + x.val) (first + i))
            (f.words i cnt ((f.bytes.drop (i * s.bufSize (512 + x.val))).take (s.bufSize (512 + x.val))).length)) ++
          ((List.range cnt).reverse.map fun i => Output.hostWrite (addrs.getD i 0).toNat
            ((f.bytes.drop (i * s.bufSize (512 + x.val))).take (s.bufSize (512 + x.val)))) ++ s.outbox)

/-- The Auger channels: doorbells, pause and resume, abort, descriptors, source reads and write responses (R355, R359 to R363,
R365 to R370). -/
def Obligations.AugerChannelsAct : Prop := ∀ (s : State) (c : Fin 32),
    (∀ v, s.serves (offChDoorbell c) → s.augState c = 0 → bit 31 v = true ∨ s.augParked c = false → s.readsOut < 512 →
      s.completes (.augDoorbell c v) fun t => t.augState c = 1 ∧ t.augParked c = false ∧
        t.rd2 (offChCur c 0) = s.rd2 (offChHeadLo c) ∧ t.rd (offChPos c) = 0 ∧
        (t.augCh c).fetch = some (.next, s.rd2 (offChHeadLo c)) ∧
        t.outbox = .busResponse false 0 :: .augFetch c (s.rd2 (offChHeadLo c)) :: s.outbox) ∧
    (∀ v, s.serves (offChDoorbell c) → s.augState c = 0 → bit 31 v = false → s.augParked c = true →
      s.readsOut < 512 →
      s.completes (.augDoorbell c v) fun t => t.augState c = 1 ∧ t.augParked c = false ∧
        (t.augCh c).fetch = some (.reread, s.rd2 (offChCur c 0)) ∧
        t.outbox = .busResponse false 0 :: .augFetch c (s.rd2 (offChCur c 0)) :: s.outbox) ∧
    (∀ v, s.serves (offChDoorbell c) → s.augState c = 1 ∨ s.augState c = 2 →
      s.completes (.augDoorbell c v) fun t => t.augState c = s.augState c ∧ t.augDbPend c = true ∧ t.augCh c = s.augCh c) ∧
    (∀ v, s.serves (offChDoorbell c) → s.augState c = 3 →
      s.completes (.augDoorbell c v) fun t => t = { s with outbox := .busResponse false 0 :: s.outbox }) ∧
    (∀ v, s.serves (offChCtl c) → bit 30 v = false → s.augState c = 0 →
      s.completes (.augPause c v) fun t => t.augState c = 2 ∧ t.augPause c = true ∧ (t.augCh c).wasIdle = true) ∧
    (∀ v, s.serves (offChCtl c) → bit 30 v = false → s.augState c = 1 → (s.augCh c).out = [] →
      (s.augCh c).fetch = none → (s.augCh c).abort = false → (s.augCh c).fault = none →
      s.completes (.augPause c v) fun t => t.augState c = 2 ∧ t.augPause c = true ∧ (t.augCh c).descs = [] ∧
        t.rd2 (offChCur c 0) = s.rd2 (offChCur c 0) ∧ t.rd (offChPos c) = s.rd (offChPos c)) ∧
    (∀ v, s.serves (offChCtl c) → bit 30 v = false → s.augState c = 2 → (s.augCh c).wasIdle = true →
      s.augDbPend c = false →
      s.completes (.augUnpause c v) fun t => t.augState c = 0 ∧ t.augPause c = false) ∧
    (∀ v, s.serves (offChCtl c) → bit 30 v = false → s.augState c = 2 → (s.augCh c).wasIdle = false →
      (s.augCh c).rereading = false → s.readsOut < 512 →
      s.completes (.augUnpause c v) fun t => t.augState c = 1 ∧ t.augPause c = false ∧
        (t.augCh c).fetch = some (.resume, s.rd2 (offChCur c 0)) ∧
        t.outbox = .busResponse false 0 :: .augFetch c (s.rd2 (offChCur c 0)) :: s.outbox) ∧
    (∀ v, s.serves (offChCtl c) → bit 30 v = false → bit 31 v = false → s.augState c = 3 →
      (s.augCh c).wasIdle = false → (s.augCh c).rereading = false →
      s.completes (.augResume c v) fun t => t.augState c = 1 ∧ t.rdf (offChState c) 27 24 = 0 ∧
        (t.augCh c).fetch = some (.resume, s.rd2 (offChCur c 0)) ∧
        t.rd2 (offChCur c 0) = s.rd2 (offChCur c 0) ∧ t.rd (offChPos c) = s.rd (offChPos c)) ∧
    (∀ v, s.serves (offChCtl c) → s.augState c ≠ 1 →
      s.completes (.augAbort c v) fun t => t.augState c = (if bit 31 v then 2 else 0) ∧ t.augParked c = false ∧
        t.augDbPend c = false ∧ t.rdf (offChState c) 27 24 = 0 ∧ (t.augCh c).descs = []) ∧
    (∀ v, s.serves (offChCtl c) → s.augState c = 1 → (s.augCh c).out ≠ [] →
      s.completes (.augAbort c v) fun t => t.augState c = 1 ∧ (t.augCh c).abort = true ∧ t.augDbPend c = false ∧
        (t.augCh c).out = (s.augCh c).out) ∧
    (∀ (words index : List Word) (what : AugFetch) (addr : Nat), s.augState c = 1 →
      (s.augCh c).fetch = some (what, addr) → (s.augCh c).abort = false → (s.augCh c).fault = none →
      (s.augCh c).out = [] → s.augWaits c = false →
      s.completes (.augDescArrive c words index true) fun t => t.augState c = 3 ∧ t.rdf (offChState c) 27 24 = 1 ∧
        t.rdb offAugEvt 0 = true ∧ t.cnt offCntAugFault = (s.cnt offCntAugFault + 1) % cntMod) ∧
    (∀ (words index : List Word) (addr : Nat) (d : AugDesc), s.augState c = 1 →
      (s.augCh c).fetch = some (.next, addr) → (s.augCh c).abort = false → (s.augCh c).fault = none →
      s.augPause c = false → (s.augCh c).descs = [] →
      d = { num := (s.augCh c).nextNum, addr := addr, words := words, index := index } →
      d.bad = false → d.last = false → s.augStartBad d = none → s.rings.readQ = [] → s.readsOut ≤ 512 →
      s.completes (.augDescArrive c words index false) fun t => t.augState c = 1 ∧
        (t.augCh c).descs = [{ d with started := true }] ∧ (t.augCh c).fetch = some (.next, d.next) ∧
        t.outbox = .augFetch c d.next :: s.outbox) ∧
    (∀ (words index : List Word) (addr : Nat) (d : AugDesc), s.augState c = 1 →
      (s.augCh c).fetch = some (.next, addr) → (s.augCh c).abort = false → (s.augCh c).fault = none →
      (s.augCh c).out = [] → s.augWaits c = false →
      d = { num := (s.augCh c).nextNum, addr := addr, words := words, index := index } → d.bad = true →
      s.completes (.augDescArrive c words index false) fun t => t.augState c = 3 ∧ t.rdf (offChState c) 27 24 = 2) ∧
    (∀ (read : List Byte) (err : Bool), s.augNext ≠ some c.val → s.completes (.augSourceRead c read err) fun t => t = s) ∧
    (∀ (read : List Byte) (d : AugDesc), s.lineOn = true → s.augNext = some c.val →
      (s.augCh c).active = some d → d.started = true → d.mode = 0 → d.region = 2 → d.issued < d.total →
      s.augSrcBad d (d.src d.issued) (min 512 (d.total - d.issued)) = none →
      s.augDstBad d (d.dst d.issued) (min 512 (d.total - d.issued)) = none → (s.augCh c).descs.head? = some d →
      s.completes (.augSourceRead c read false) fun t =>
        t.augTurn = (c.val + 1) % 32 ∧ (t.augCh c).out = (s.augCh c).out ++ [(d.num, d.issued)] ∧
        Output.hostWrite ((s.rd2 (offImportBaseLo d.window) + d.dst d.issued) % 2 ^ 64)
          (bytesAt (bytesAt read 0 (min 512 (d.total - d.issued))) 0 (min 512 (d.total - d.issued))) ∈ t.outbox) ∧
    (∀ (read : List Byte) (d : AugDesc), s.lineOn = true → s.augNext = some c.val →
      (s.augCh c).active = some d → d.started = true → d.mode = 0 → d.issued < d.total → (s.augCh c).out = [] →
      (s.augCh c).fetch = none → s.augSrcBad d (d.src d.issued) (min 512 (d.total - d.issued)) = some 4 →
      s.completes (.augSourceRead c read false) fun t => t.augState c = 3 ∧ t.rdf (offChState c) 27 24 = 4) ∧
    (∀ (d : AugDesc) (p : Nat), s.augState c = 1 → (s.augCh c).out = [(d.num, p)] → (s.augCh c).descs = [d] →
      (s.augCh c).fetch = none → (s.augCh c).abort = false → (s.augCh c).fault = none → s.augPause c = false →
      s.augDbPend c = false → d.last = true → d.issued = d.total →
      s.completes (.augWriteResponse c 0 false) fun t => t.augState c = 0 ∧ t.augParked c = true ∧
        (t.augCh c).descs = [] ∧ (t.augCh c).out = [] ∧
        t.fabric = (if d.pulse && s.rdb (offChCtl c) 6 then (s.pulse (s.rdf (offChCtl c) 5 0)).fabric else s.fabric)) ∧
    (∀ (num p : Nat), s.augState c = 1 → (s.augCh c).out = [(num, p)] → (s.augCh c).fetch = none →
      (s.augCh c).abort = false → (s.augCh c).fault = none →
      s.completes (.augWriteResponse c 0 true) fun t => t.augState c = 3 ∧ t.rdf (offChState c) 27 24 = 7 ∧
        (t.augCh c).out = [])

/-- The event fabric's pulses and the Assay units: commits, parity, resync and scan passes (R371 to R373, R377, R378, R382,
R386 to R388). -/
def Obligations.FabricAndAssayAct : Prop := ∀ (s : State),
    (∀ line : Fin 64, sget (fun _ => 0) s.fabric line.val ≠ 0 → s.lineOn = true → s.time.slots = [] →
      s.completes (.fabricPulse line) fun t =>
        sget (fun _ => 0) t.fabric line.val + 1 = sget (fun _ => 0) s.fabric line.val ∧
        ((List.range 24).all fun r => (t.role r).wake == ((s.role r).wake ||
          (s.rdb (offRoleCtl r) 23 && s.rdf (offRoleCtl r) 21 16 == line.val))) = true) ∧
    (∀ (line : Fin 64) (b : BedIx), sget (fun _ => 0) s.fabric line.val ≠ 0 → s.lineOn = true → s.time.slots = [] →
      s.bedOn b = true → s.rdb (offMeshCtl b) 30 = true → s.rdf (offMeshCtl b) 29 24 = line.val → s.meshBusy b = false →
      sget (fun _ => none) s.mesh.commits (2 * b.val) ≠ some (s.cycle, false) →
      s.completes (.fabricPulse line) fun t => t.meshBank b = 1 - s.meshBank b) ∧
    (∀ (line : Fin 64) (a : Nat) (x : ActSlot), sget (fun _ => 0) s.fabric line.val ≠ 0 → s.lineOn = true →
      s.time.slots = [(a, x)] → bit 31 x.w5 = true → fld 29 24 x.w5 = line.val → s.armVal (a / 256) ≤ x.time →
      s.completes (.fabricPulse line) fun t => (t.act a).armed = true) ∧
    (∀ (line : Fin 64) (i : Fin 16) (k : Nat), sget (fun _ => 0) s.fabric line.val ≠ 0 → s.lineOn = false → s.hostOn = true →
      s.rdb (offAugNudge i) 31 = true → s.rdf (offAugNudge i) 29 24 = line.val → nudgeRing (s.rd (offAugNudge i)) = some k →
      s.ringState k = 1 →
      s.completes (.fabricPulse line) fun t => (t.ring k).fetching = true) ∧
    (∀ (u : Fin 16) v, s.serves (offUnitCfg u) → 8 ≤ fld 6 0 v → fld 6 0 v ≤ 64 →
      s.completes (.assayCommit u v) fun t => t.assaySet u = t.assayRegs u ∧ (t.assaySet u).width = fld 6 0 v ∧
        t.assay.parity.contains u.val = false) ∧
    (∀ (u : Fin 16) v, s.serves (offUnitCfg u) → fld 6 0 v < 8 ∨ 64 < fld 6 0 v →
      s.completes (.assayCommit u v) fun t => t.assaySet u = s.assaySet u ∧ t.rdb (offUnitCfg u) 25 = true ∧
        t.rdb offAssayEvt 4 = true) ∧
    (∀ u : Fin 16, s.lineOn = true →
      s.completes (.assayParityError u) fun t => t.rdb (offUnitCfg u) 27 = true ∧ t.rdb offAssayEvt 3 = true ∧
        t.assayInForce u = meshCrc 0xFFFFFFFF) ∧
    (∀ (u : Fin 16) v, s.serves (offUnitResync u) → bit 31 v = true →
      s.completes (.assayResync u v) fun t =>
        (t.assay.alive.all fun e => e.1 / 256 != u.val) = true ∧ (t.assay.slots.all fun e => e.1 / 256 != u.val) = true) ∧
    (∀ v, s.serves offScanCtl → s.assay.pass = none →
      ((List.range 32).any fun e => bit 31 (s.rd (offScanEntryCtl e)) && !scanBad (s.scanEntry e)) = true →
      s.completes (.scanStart (some v)) fun t => t.rdb offScanCtl 21 = true ∧
        t.assay.pass = some (((List.range 32).map s.scanEntry).filter fun e => bit 31 e.ctl && !scanBad e)) ∧
    (∀ v, s.serves offScanCtl → s.assay.pass.isSome = true →
      s.completes (.scanStart (some v)) fun t => t.assay.pass = s.assay.pass ∧ t.assay.held = true) ∧
    (s.timerOn .scan = true → s.assay.pass.isSome = true →
      s.completes (.scanStart none) fun t => t.assay.pass = s.assay.pass ∧ t.assay.held = true ∧
        t.rdb offScanCtl 22 = true ∧ t.rdb offAssayEvt 6 = true ∧ t.timerOn .scan = false) ∧
    (∀ (data : List Byte) (e : ScanEntry) (rest : List ScanEntry),
      s.assay.pass = some (e :: rest) → s.lineOn = true → rest ≠ [] → fld 25 24 e.ctl ≠ 0 → data.length = e.len →
      e.index < 32 → bit 29 e.ctl = true →
      s.completes (.scanEntryEnd data) fun t => t.assay.pass = some rest ∧ t.rdb (offScanEntryCtl e.index) 29 = false ∧
        t.rd2 (offScanEntryLast e.index 0) = crc s.assay.entrySet data % 2 ^ 64 ∧
        t.rd2 (offScanEntryRef e.index 0) = crc s.assay.entrySet data % 2 ^ 64) ∧
    (∀ (data : List Byte) (e : ScanEntry) (rest : List ScanEntry),
      s.assay.pass = some (e :: rest) → s.lineOn = true → rest ≠ [] → fld 25 24 e.ctl ≠ 0 → data.length = e.len →
      e.index < 32 → bit 29 e.ctl = false → e.ref ≠ crc s.assay.entrySet data →
      s.completes (.scanEntryEnd data) fun t => t.assay.pass = some rest ∧ t.rdb (offScanEntryCtl e.index) 28 = true ∧
        t.rdb offAssayEvt 5 = true ∧ t.rd2 (offScanEntryRef e.index 0) = s.rd2 (offScanEntryRef e.index 0) ∧
        t.rd2 (offScanEntryLast e.index 0) = crc s.assay.entrySet data % 2 ^ 64) ∧
    (∀ (data : List Byte) (e f : ScanEntry) (rest : List ScanEntry), s.assay.pass = some (e :: f :: rest) → s.lineOn = true →
      s.completes (.scanEntryEnd data) fun t => t.assay.pass = some (f :: rest) ∧
        t.assay.entrySet = s.assayInForce (fld 19 16 f.ctl)) ∧
    (∀ (data : List Byte) (e : ScanEntry), s.assay.pass = some [e] → s.lineOn = true → s.assay.held = false →
      s.completes (.scanEntryEnd data) fun t => t.assay.pass = none ∧ t.rdb offScanCtl 21 = false ∧
        t.rdb offAssayEvt 7 = true)

/-- Silt links: bring-up, lane sparing, detach and drain (R404 to R408, R411, R414, R415). -/
def Obligations.SiltLinksAct : Prop := ∀ (s : State) (k : Fin 8),
    (∀ v, s.serves (offSiltCtl k) → bit 30 v = false → bit 29 v = false → s.roleServed 22 = true → s.siltState k = 0 →
      s.rdb (offSiltCtl k) 31 = false →
      s.completes (.siltEnable k v) fun t => t.siltState k = 1 ∧ t.rdb (offSiltCtl k) 31 = true ∧
        t.timerOn (.siltStage k) = true ∧ (t.siltSt k).stage = 0xFF) ∧
    (∀ v, s.serves (offSiltCtl k) → bit 30 v = false → bit 29 v = false → s.rdb (offSiltCtl k) 31 = true →
      s.siltHolds k = false →
      s.completes (.siltDisable k v) fun t => t.siltState k = 0 ∧ t.rdb (offSiltCtl k) 31 = false ∧ t.modState k = 0 ∧
        t.rd (offSiltMap k) = 0 ∧ (t.siltSt k) = {}) ∧
    (∀ v, s.serves (offSiltCtl k) → bit 30 v = false → bit 29 v = false → s.rdb (offSiltCtl k) 31 = true →
      s.siltHolds k = true →
      s.completes (.siltDisable k v) fun t => t.siltState k = s.siltState k ∧ t.rdb (offSiltCtl k) 31 = true ∧
        t.rdb (offSiltCtl k) 28 = true ∧ t.rdb (offSiltEvt k) 10 = true ∧ t.siltSt k = s.siltSt k) ∧
    (∀ (lanes : BitVec 8) (asks : List EqAsk), s.siltStaging k = true → 3 ≤ popcount (s.siltCan k lanes) →
      s.siltAsked k (s.siltCan k lanes) asks = true →
      s.completes (.siltStageDone k lanes asks) fun t => t.siltState k = s.siltState k + 1 ∧
        (t.siltSt k).stage = s.siltCan k lanes ∧ t.timerOn (.siltStage k) = true) ∧
    (∀ (lanes : BitVec 8) (asks : List EqAsk), s.timerOn (.siltStage k) = true → s.siltStaging k = true →
      3 ≤ popcount (s.siltCan k lanes) → s.siltAsked k (s.siltCan k lanes) asks = true →
      s.completes (.siltStageTimeout k lanes asks) fun t => t.siltState k = s.siltState k + 1 ∧
        (t.siltSt k).stage = s.siltCan k lanes ∧ t.timerOn (.siltStage k) = true) ∧
    (∀ (lanes : BitVec 8) (asks : List EqAsk), s.timerOn (.siltStage k) = true → s.siltStaging k = true →
      popcount (s.siltCan k lanes) < 3 →
      s.completes (.siltStageTimeout k lanes asks) fun t => t.siltState k = 6 ∧
        t.rdf (offSiltStatus k) 27 24 = s.siltState k ∧ (t.siltSt k).retries = (s.siltSt k).retries + 1 ∧
        t.timerOn (.siltGap k) = true ∧ t.timerOn (.siltStage k) = false) ∧
    (∀ (lanes : BitVec 8) (asks : List EqAsk), s.timerOn (.siltStage k) = true → s.roleServed 22 = true →
      s.siltState k = 4 →
      s.completes (.siltStageTimeout k lanes asks) fun t => t.siltState k = 6 ∧
        t.rdf (offSiltStatus k) 27 24 = 4 ∧ t.timerOn (.siltGap k) = true) ∧
    (s.roleServed 22 = true → s.siltState k = 4 → s.timerOn (.siltCap k) = true →
      s.completes (.siltCapSend k) fun t => t.timerOn (.siltCap k) = true ∧ t.siltState k = 4 ∧
        t.outbox = .siltFlit k (flitBytes 7 (s.siltSt k).nextSeq (s.siltSt k).ack (2 ^ 32) ownCap) :: s.outbox) ∧
    (∀ words : List Word, s.siltState k = 4 → s.roleServed 22 = true → capValid words = true →
      s.completes (.siltCapReceive k words) fun t => t.rd (offSiltModCap k 0) = words.getD 0 0 ∧
        t.rd (offSiltModCap k 1) = words.getD 1 0 ∧ t.rd (offSiltModCap k 2) = words.getD 2 0 ∧
        t.rd (offSiltModCap k 3) = words.getD 3 0 ∧
        (if (s.siltSt k).capAcked then
          if (s.siltLocked k).length < 3 then t.siltState k = 6 ∧ t.rdf (offSiltStatus k) 27 24 = 6 ∧ t.modState k = 4 ∧
            t.rdb (offSiltEvt k) 1 = true
          else t.siltState k = 5 ∧ t.modState k = 1 ∧
            (t.siltSt k).wcred = fld 31 16 (words.getD 1 0) ∧ (t.siltSt k).rcred = fld 15 0 (words.getD 1 0) ∧
            t.rdb (offSiltEvt k) 0 = true ∧ t.rdb (offSiltEvt k) 2 = true
          else t.siltState k = 4 ∧ (t.siltSt k).capGot = true)) ∧
    (∀ words : List Word, s.siltState k = 4 → s.roleServed 22 = true → capValid words = false →
      s.completes (.siltCapReceive k words) fun t => t.siltState k = 6 ∧ t.rdf (offSiltStatus k) 27 24 = 5 ∧
        t.rdb (offSiltEvt k) 9 = true) ∧
    (s.roleServed 22 = true → s.siltState k = 4 →
      s.completes (.siltCapAckReceive k) fun t =>
        if (s.siltSt k).capGot then
          if (s.siltLocked k).length < 3 then t.siltState k = 6 ∧ t.rdf (offSiltStatus k) 27 24 = 6
          else t.siltState k = 5 ∧ t.modState k = 1 ∧ t.rdb (offSiltEvt k) 0 = true
        else t.siltState k = 4 ∧ (t.siltSt k).capAcked = true) ∧
    (s.roleServed 22 = true → s.siltState k = 6 → s.timerOn (.siltGap k) = true →
      s.completes (.siltGapRetry k) fun t => t.timerOn (.siltGap k) = false ∧ t.siltState k =
        if s.rdf (offSiltRetry k) 15 8 = 0 ∨ (s.siltSt k).retries < s.rdf (offSiltRetry k) 15 8 then 1 else 7) ∧
    (∀ v, s.serves (offSiltCtl k) → bit 29 v = false → bit 31 v = s.rdb (offSiltCtl k) 31 → s.modState k = 1 →
      s.completes (.siltDetach k v) fun t => t.modState k = 2 ∧ (t.siltSt k).paused = false ∧
        t.siltState k = s.siltState k) ∧
    (∀ v, s.serves (offSiltCtl k) → bit 30 v = false → bit 31 v = s.rdb (offSiltCtl k) 31 → s.modState k = 2 →
      s.completes (.siltDrainForce k v) fun t => t.modState k = 3 ∧ t.rdb (offSiltEvt k) 3 = true) ∧
    (s.roleServed 22 = true → s.siltActive k = true → s.modState k = 2 →
      (s.framesWhere fun x => (x.tier == 2 && x.unit == k.val) || x.moving == some (8 + k.val)) = [] →
      s.completes (.siltDetachDone k) fun t => t.modState k = 3 ∧ t.rdb (offSiltEvt k) 3 = true ∧
        t.rd2 (offTierCap2 0) = (s.rd2 (offTierCap2 0) - s.modGrains k) % 2 ^ 64) ∧
    (∀ i sp : Fin 8, s.siltActive k = true → s.roleServed 22 = true → (s.siltInUse k).contains i.val = true →
      ((s.siltSpares k).filter (· != i.val)).head? = some sp.val →
      s.completes (.siltLaneLost k i) fun t => t.siltInUse k = ((s.siltInUse k).map fun p => if p = i.val then sp.val else p) ∧
        t.rdb (offSiltEvt k) 5 = true ∧ (t.siltSt k).mapPending.isSome = true ∧ t.timerOn (.siltMap k) = true) ∧
    (∀ i : Fin 8, s.siltActive k = true → s.roleServed 22 = true → (s.siltInUse k).contains i.val = true →
      (s.siltSpares k).filter (· != i.val) = [] →
      s.completes (.siltLaneLost k i) fun t => if 3 < (s.siltInUse k).length then
          t.siltInUse k = (s.siltInUse k).filter (· != i.val) ∧ t.rdb (offSiltEvt k) 6 = true
        else t.siltState k = 6 ∧ t.rdf (offSiltStatus k) 27 24 = 6 ∧ t.rdb (offSiltEvt k) 1 = true) ∧
    (∀ m : Nat, s.siltActive k = true → s.timerOn (.siltMap k) = true → (s.siltSt k).mapPending = some m →
      s.completes (.laneMapResend k) fun t => t.timerOn (.siltMap k) = true ∧
        t.outbox = .siltFlit k (flitBytes 7 (s.siltSt k).nextSeq (s.siltSt k).ack (3 * 2 ^ 32 + m) []) :: s.outbox) ∧
    (∀ i : Fin 8, s.roleServed 22 = true → s.siltActive k = true →
      (s.siltInUse k ++ s.siltSpares k).contains i.val = false → s.laneOff (siltLane k i) = false →
      s.mapped 3 (8 * k.val + i.val) = false →
      s.completes (.siltSpareRecover k i) fun t => t.rdb (offSiltEvt k) 7 = true ∧
        t.laneLocked (siltLane k i) = true ∧
        (if (s.siltInUse k).length < 6 then t.siltInUse k = s.siltInUse k ++ [i.val]
          else t.rdb (offSiltStatus k) (8 + i.val) = true)) ∧
    (s.siltActive k = true → s.timerOn (.siltNull k) = true →
      s.completes (.siltNullSend k) fun t => t.timerOn (.siltNull k) = true ∧
        t.outbox = .siltFlit k (flitBytes 1 (s.siltSt k).nextSeq (s.siltSt k).ack 0 []) :: s.outbox)

/-- Flits of a silt link: acceptance in order, discards, replay, credits, reads and writes answered, lane failures, module
status and faults (R394, R397, R399 to R403, R407 to R410). -/
def Obligations.SiltFlitsAct : Prop := ∀ (s : State) (k : Fin 8), s.siltActive k = true →
    (∀ (seq ack : BitVec 12) (a : BitVec 30) (f : Nat) (rest : List (Nat × Nat)), seq.toNat = (s.siltSt k).expect →
      (s.siltSt k).reads = (f, a.toNat) :: rest → rest.any (fun e => e.1 == f) = true → (s.siltSt k).txq = [] →
      (s.siltSt k).early = [] →
      s.completes (.readDataReceive k seq ack a 0 false false) fun t => (t.siltSt k).reads = rest ∧
        (t.siltSt k).expect = (seq.toNat + 1) % 4096 ∧ (t.siltSt k).ack = seq.toNat ∧ (t.siltSt k).naked = false ∧
        t.cnt (offSiltCnt k 1) = (s.cnt (offSiltCnt k 1) + 1) % cntMod) ∧
    (∀ (seq ack : BitVec 12) (a : BitVec 30) (w : BitVec 5) err bad, seq.toNat ≠ (s.siltSt k).expect →
      (seq.toNat + 4096 - (s.siltSt k).expect) % 4096 < 512 → (s.siltSt k).expect < 4096 → (s.siltSt k).naked = false →
      s.completes (.readDataReceive k seq ack a w err bad) fun t => t.outbox = s.outbox ∧
        t.siltSt k = { s.siltSt k with early := ((s.siltSt k).early.filter fun e => e.1 != seq.toNat) ++
          [(seq.toNat, ack.toNat, .readData a.toNat w.toNat err bad)] }) ∧
    (∀ (seq ack : BitVec 12) (a : BitVec 30) (w : BitVec 5) err bad, seq.toNat ≠ (s.siltSt k).expect →
      (s.siltSt k).expect < 4096 → 512 ≤ (seq.toNat + 4096 - (s.siltSt k).expect) % 4096 ∨ (s.siltSt k).naked = true →
      s.completes (.readDataReceive k seq ack a w err bad) fun t => (t.siltSt k).expect = (s.siltSt k).expect ∧
        (t.siltSt k).reads = (s.siltSt k).reads ∧ (t.siltSt k).naked = true ∧ (t.siltSt k).early = [] ∧
        t.cnt (offSiltCnt k 2) = (s.cnt (offSiltCnt k 2) + 1) % cntMod ∧
        t.outbox.length = s.outbox.length + (if (s.siltSt k).naked then 0 else 1)) ∧
    (∀ (seq ack : BitVec 12) (cnt : BitVec 16), seq.toNat = (s.siltSt k).expect → s.frames = [] → (s.siltSt k).txq = [] →
      (s.siltSt k).early = [] →
      s.completes (.writeAckReceive k seq ack cnt) fun t => (t.siltSt k).writes = (s.siltSt k).writes.drop cnt.toNat ∧
        (t.siltSt k).expect = (seq.toNat + 1) % 4096) ∧
    (∀ (seq ack ack' : BitVec 12) (w r w' r' : BitVec 18), seq.toNat = (s.siltSt k).expect → (s.siltSt k).txq = [] →
      (s.siltSt k).early = [((seq.toNat + 1) % 4096, ack'.toNat, .credit w'.toNat r'.toNat)] →
      s.completes (.creditReceive k seq ack w r) fun t => (t.siltSt k).wcred = (s.siltSt k).wcred + w.toNat + w'.toNat ∧
        (t.siltSt k).rcred = (s.siltSt k).rcred + r.toNat + r'.toNat ∧ (t.siltSt k).expect = (seq.toNat + 2) % 4096 ∧
        (t.siltSt k).early = []) ∧
    (∀ (seq ack : BitVec 12) (w r : BitVec 18), seq.toNat = (s.siltSt k).expect → (s.siltSt k).txq = [] →
      (s.siltSt k).early = [] →
      s.completes (.creditReceive k seq ack w r) fun t => (t.siltSt k).wcred = (s.siltSt k).wcred + w.toNat ∧
        (t.siltSt k).rcred = (s.siltSt k).rcred + r.toNat ∧ (t.siltSt k).expect = (seq.toNat + 1) % 4096) ∧
    (∀ (ack expected : BitVec 12) (i : Nat), ((s.siltSt k).replay.findIdx? fun e => e.1 == ack.toNat) = none →
      ((s.siltSt k).replay.findIdx? fun e => e.1 == expected.toNat) = some i →
      (s.siltSt k).replay.all (fun e => decide (e.2.2 + 1 < s.rdf (offSiltReplay k) 31 28)) = true →
      s.completes (.nakReceive k ack expected) fun t => t.siltState k = 5 ∧
        t.outbox.length = s.outbox.length + ((s.siltSt k).replay.length - i) ∧
        t.cnt (offSiltCnt k 3) = (s.cnt (offSiltCnt k 3) + ((s.siltSt k).replay.length - i)) % cntMod ∧
        (t.siltSt k).replay.map (·.1) = (s.siltSt k).replay.map (·.1)) ∧
    (∀ (ack : BitVec 12) (i sp : Fin 8), ((s.siltSt k).replay.findIdx? fun e => e.1 == ack.toNat) = none →
      s.roleServed 22 = true → (s.siltInUse k).contains i.val = true →
      ((s.siltSpares k).filter (· != i.val)).head? = some sp.val →
      s.completes (.laneFailReceive k ack i) fun t =>
        t.siltInUse k = ((s.siltInUse k).map fun p => if p = i.val then sp.val else p) ∧ t.rdb (offSiltEvt k) 5 = true) ∧
    (∀ (ack : BitVec 12) (map : BitVec 21), (s.siltSt k).mapPending = some map.toNat →
      s.completes (.laneMapAckReceive k ack map) fun t => (t.siltSt k).mapPending = none ∧ t.timerOn (.siltMap k) = false ∧
        (t.siltSt k).txMap = s.siltInUse k) ∧
    (∀ (seq ack : BitVec 12) (words : List Word), seq.toNat = (s.siltSt k).expect → fld 31 30 (words.getD 0 0) = 1 →
      (s.siltSt k).early = [] →
      s.completes (.moduleStatusReceive k seq ack words) fun t => t.rdb (offSiltEvt k) 8 = true ∧ t.siltState k = 5 ∧
        t.rd (offSiltModStatus k 0) = words.getD 0 0 ∧ t.rd (offSiltModStatus k 1) = words.getD 1 0 ∧
        t.rd (offSiltModStatus k 2) = words.getD 2 0) ∧
    (∀ (seq ack : BitVec 12) (words : List Word), seq.toNat = (s.siltSt k).expect → 2 ≤ fld 31 30 (words.getD 0 0) →
      s.completes (.moduleStatusReceive k seq ack words) fun t => t.siltState k = 6 ∧
        t.rdf (offSiltStatus k) 27 24 = 10 ∧ t.rdb (offSiltEvt k) 1 = true ∧
        (if s.modState k = 1 ∨ s.modState k = 2 then t.modState k = 4 ∧ t.rdb (offSiltEvt k) 4 = true
          else t.modState k = s.modState k)) ∧
    (s.timerOn (.siltReplay k) = true →
      (s.siltSt k).replay.all (fun e => decide (e.2.2 + 1 < s.rdf (offSiltReplay k) 31 28)) = true →
      s.completes (.replayTimeout k) fun t => t.siltState k = 5 ∧
        t.outbox.length = s.outbox.length + (s.siltSt k).replay.length ∧
        t.cnt (offSiltCnt k 3) = (s.cnt (offSiltCnt k 3) + (s.siltSt k).replay.length) % cntMod) ∧
    (s.timerOn (.siltReplay k) = true →
      (s.siltSt k).replay.any (fun e => decide (s.rdf (offSiltReplay k) 31 28 ≤ e.2.2 + 1)) = true →
      s.completes (.replayTimeout k) fun t => t.siltState k = 6 ∧ t.rdf (offSiltStatus k) 27 24 = 7 ∧
        t.rdb (offSiltEvt k) 1 = true) ∧
    (s.timerOn (.siltLoss k) = true →
      s.completes (.siltLossTimeout k) fun t => t.siltState k = 6 ∧ t.rdf (offSiltStatus k) 27 24 = 8 ∧
        t.rdb (offSiltEvt k) 1 = true ∧ (t.siltSt k) = { retries := (s.siltSt k).retries }) ∧
    (∀ (lane : Fin 8) (bytes : List Byte),
      s.completes (.flitDiscard k lane true bytes) fun t => (t.siltSt k).naked = true ∧
        (t.siltSt k).expect = (s.siltSt k).expect ∧ t.cnt (offSiltCnt k 2) = (s.cnt (offSiltCnt k 2) + 1) % cntMod) ∧
    (∀ (lane : Fin 8) (bytes : List Byte), ethFcs (bytesAt bytes 0 264) = bytesAt bytes 264 4 → flitProto bytes = true →
      s.completes (.flitDiscard k lane false bytes) fun t => t.siltState k = 6 ∧
        t.rdf (offSiltStatus k) 27 24 = 9 ∧ t.cnt (offSiltCnt k 5) = (s.cnt (offSiltCnt k 5) + 1) % cntMod) ∧
    (∀ (lane : Fin 8) (bytes : List Byte), ethFcs (bytesAt bytes 0 264) ≠ bytesAt bytes 264 4 →
      (s.siltInUse k).contains lane.val = false →
      s.completes (.flitDiscard k lane false bytes) fun t => (t.siltSt k).naked = true ∧
        t.cnt (siltLane k lane + 0xF0) = (s.cnt (siltLane k lane + 0xF0) + 1) % cntMod) ∧
    (∀ (ack : BitVec 12) (i : Nat), ((s.siltSt k).replay.findIdx? fun e => e.1 == ack.toNat) = some i →
      (s.siltSt k).txq = [] →
      s.completes (.nullFlitReceive k ack) fun t =>
        (t.siltSt k).replay = ((s.siltSt k).replay.drop (i + 1)).map fun e => (e.1, e.2.1, 0)) ∧
    (∀ ack : BitVec 12, ((s.siltSt k).replay.findIdx? fun e => e.1 == ack.toNat) = none →
      s.completes (.nullFlitReceive k ack) fun t => t = s) ∧
    (∀ (i : Fin 8) (symbols : List (Fin 4)), s.laneLocked (siltLane k i) = true → unstuff (symbols.map (·.val)) = none →
      s.completes (.stuffError k i symbols) fun t =>
        t.cnt (siltLane k i + 0xE8) = (s.cnt (siltLane k i + 0xE8) + 1) % cntMod)

/-- The load port of the tilth engines (R420, R421, R423, R424). -/
def Obligations.LoadPortActs : Prop := ∀ (s : State),
    (∀ (v : Word) (e : Fin 26), s.serves offLoadCtl → bit 30 v = false → bit 29 v = false →
      fld 20 16 v = e.val → s.rdb offLoadCtl 28 = false → s.tilth.load = none →
      s.engState e = 0 ∨ s.engState e = 2 ∨ s.engState e = 4 →
      s.completes (.loadStart v) fun t => t.engState e = 1 ∧ t.tilth.load = some (e.val, []) ∧ t.rd offLoadCount = 0 ∧
        t.rdf offLoadCtl 27 24 = 0 ∧ t.eng e = {}) ∧
    (∀ v : Word, s.serves offLoadCtl → bit 30 v = false → bit 29 v = false →
      s.rdb offLoadCtl 28 = false → 26 ≤ fld 20 16 v ∨ s.engState (fld 20 16 v) = 3 ∨ s.engState (fld 20 16 v) = 5 →
      s.completes (.loadStart v) fun t => t.rdf offLoadCtl 27 24 = 9 ∧ t.tilth = s.tilth ∧
        t.engState (fld 20 16 v) = s.engState (fld 20 16 v)) ∧
    (∀ (v : Word) (e : Nat) (bs : List Byte), s.serves offLoadData →
      s.tilth.load = some (e, bs) → s.rdb offLoadCtl 28 = false →
      s.completes (.loadData v) fun t => t.tilth.load = some (e, bs ++ leBytes 4 v.toNat) ∧
        t.rd offLoadCount = s.rd offLoadCount + 4) ∧
    (∀ v : Word, s.serves offLoadCtl → bit 31 v = false → bit 29 v = false →
      s.tilth.load.isSome = true →
      s.completes (.loadFinish v) fun t => t.rdb offLoadCtl 28 = true ∧ t.tilth = s.tilth) ∧
    (∀ (v : Word) (e : Fin 26) (bs : List Byte), s.serves offLoadCtl → bit 31 v = false → bit 30 v = false →
      s.tilth.load = some (e.val, bs) → s.mapped 5 e = false →
      s.completes (.loadAbort v) fun t => t.engState e = 0 ∧ t.eng e = {} ∧ t.tilth.load = none ∧
        t.rdb offLoadCtl 28 = false ∧ t.rdf offLoadCtl 27 24 = 11 ∧ t.rdb offTilthEvt 4 = true ∧
        t.cnt (offTilthCnt 3) = (s.cnt (offTilthCnt 3) + 1) % cntMod) ∧
    (∀ (ok : Bool) (e : Fin 26) (img : List Byte), s.tilth.load = some (e.val, img) → s.rdb offLoadCtl 28 = true →
      s.mapped 5 e = false →
      s.completes (.loadCheckDone ok) fun t => t.tilth.load = none ∧ t.rdb offLoadCtl 28 = false ∧
        t.rdf offLoadCtl 27 24 = s.imgCheck img ok ∧
        (if s.imgCheck img ok = 1 then t.engState e = 2 ∧ (t.eng e).image = some img ∧
            t.rd (offEngVersion e) = imgWord img 3 ∧ t.rdb offTilthEvt 3 = true
          else t.engState e = 0 ∧ t.eng e = {} ∧ t.rdb offTilthEvt 4 = true))

/-- Roles and engines: assignment, handover, abort, clear, machine checks, safe points and takeover (R423, R425 to R427,
R429 to R432). -/
def Obligations.RolesAndEnginesAct : Prop := ∀ (s : State) (e : Fin 26) (r : Fin 24),
    (∀ v : Word, s.serves (offRoleCtl r) → bit 30 v = false → bit 29 v = false → fld 28 24 v = e.val →
      s.roleServed r = false → s.engFit r e = true →
      s.completes (.roleAssign r v) fun t => t.roleServed r = true ∧ t.rdf (offRoleStatus r) 28 24 = e.val ∧
        t.engState e = 3 ∧ t.rdf (offEngStatus e) 28 24 = r.val ∧ t.rdf (offEngStatus e) 23 0 =
          imgEntry ((s.eng e).image.getD []) ∧ (t.role r).recallImg = (s.eng e).image ∧ (t.role r).record = none) ∧
    (∀ v : Word, s.serves (offRoleCtl r) → bit 30 v = false → bit 29 v = false → fld 28 24 v = e.val →
      s.roleServed r = true ∨ s.engFit r e = false →
      s.completes (.roleAssign r v) fun t => t.roleServed r = s.roleServed r ∧ t.tilth = s.tilth ∧
        t.rdb (offRoleStatus r) 29 = true ∧ t.rdb offTilthEvt 6 = true) ∧
    (∀ v : Word, s.serves (offRoleCtl r) → bit 31 v = false → bit 29 v = false → fld 28 24 v = e.val →
      s.roleServed r = true → s.engFit r e = true →
      s.completes (.roleHandover r v) fun t => t.rdb (offRoleStatus r) 30 = true ∧ (t.role r).target = e.val ∧
        t.rdf (offRoleStatus r) 28 24 = s.rdf (offRoleStatus r) 28 24) ∧
    (∀ v : Word, s.serves (offRoleCtl r) → bit 31 v = false → bit 30 v = false → s.roleServed r = true →
      s.completes (.roleAbort r v) fun t => (t.role r).abort = true) ∧
    (s.lineOn = true → s.engState e = 2 →
      s.completes (.engineClear e) fun t => t.engState e = 0 ∧ t.eng e = {} ∧ t.rd (offEngVersion e) = 0 ∧
        t.rd (offEngRoleMask e) = 0) ∧
    (∀ (addr : BitVec 14) (flips : BitVec 100), s.engState e = 3 → s.rdf (offEngStatus e) 28 24 = r.val →
      s.rdb (offRoleStatus r) 30 = false →
      parityGroups (withParity ((s.eng e).store.getD addr.toNat 0) ^^^ flips) ≠ 0 →
      s.completes (.machineCheck e addr flips false) fun t => t.engState e = 4 ∧ t.roleServed r = false ∧
        t.rdf (offEngMc e) 31 28 = 1 ∧ t.rdf (offEngMc e) 13 0 = addr.toNat ∧
        t.rdf (offEngMc e) 27 24 = parityGroups (withParity ((s.eng e).store.getD addr.toNat 0) ^^^ flips) ∧
        t.rdb offTilthEvt 0 = true ∧ t.cnt (offTilthCnt 0) = (s.cnt (offTilthCnt 0) + 1) % cntMod) ∧
    (∀ addr : BitVec 14, s.engState e = 3 → s.rdf (offEngStatus e) 28 24 = r.val → s.rdb (offRoleStatus r) 30 = false →
      s.rdb (offRoleCtl r) 15 = false → s.timerOn (.tilthWd e) = true →
      s.completes (.tilthWatchdog e addr) fun t => t.engState e = 4 ∧ t.roleServed r = false ∧
        t.rdf (offEngMc e) 31 28 = 3 ∧ t.rdf (offEngMc e) 13 0 = addr.toNat ∧ t.rdb offTilthEvt 2 = true ∧
        (t.role r).takeover = none ∧ t.timerOn (.tilthWd e) = false ∧ t.outbox = .redundancyLost r :: s.outbox) ∧
    (∀ (addr : BitVec 14) (routine : Byte) (record : List Byte) (sets : List (LocalIx × EqAsk)), s.engState e = 3 →
      s.rdf (offEngStatus e) 28 24 = r.val → ((s.eng e).store.getD addr.toNat 0).toNat / 2 ^ 91 = 7 →
      (s.role r).abort = false → (s.role r).wake = false → s.rdb (offRoleStatus r) 30 = false →
      s.completes (.safePoint e addr routine record sets) fun t => t.engState e = 3 ∧
        t.rdf (offEngStatus e) 13 0 = addr.toNat ∧ t.timerOn (.tilthWd e) = true ∧
        (t.role r).record = some (imgFormat ((s.eng e).image.getD []), bytesAt record 0 256) ∧
        t.rdf (offRoleStatus r) 23 16 = routine.toNat ∧
        t.rdf (offRoleStatus r) 15 8 = ((s.eng e).store.getD addr.toNat 0).toNat / 2 ^ 85 % 64) ∧
    (∀ (addr : BitVec 14) (routine : Byte) (record : List Byte) (f : Fin 26), s.engState e = 3 →
      s.rdf (offEngStatus e) 28 24 = r.val → ((s.eng e).store.getD addr.toNat 0).toNat / 2 ^ 91 = 7 →
      (s.role r).abort = false → (s.role r).wake = false → s.rdb (offRoleStatus r) 30 = true →
      (s.role r).target = f.val → s.engFit r f = true →
      imgReads ((s.eng f).image.getD []) (imgFormat ((s.eng e).image.getD [])) = true →
      s.completes (.safePoint e addr routine record []) fun t => t.engState e = 0 ∧ t.engState f = 3 ∧
        t.rdf (offRoleStatus r) 28 24 = f.val ∧ t.rdb (offRoleStatus r) 30 = false ∧ t.roleServed r = true ∧
        t.rdb offTilthEvt 5 = true) ∧
    (∀ ok : Bool, (s.role r).takeover = some e.val → s.engState e = 2 → s.engFit r e = true → s.recordFit r e = true →
      s.completes (.takeoverDone r ok) fun t => t.roleServed r = true ∧ t.rdf (offRoleStatus r) 28 24 = e.val ∧
        t.engState e = 3 ∧ t.rdf (offEngStatus e) 28 24 = r.val ∧ (t.role r).takeover = none ∧
        (t.role r).record = (s.role r).record ∧ t.rdb offTilthEvt 1 = true ∧
        t.cnt (offTilthCnt 1) = (s.cnt (offTilthCnt 1) + 1) % cntMod)

/-- Heartbeats, harm thresholds and windows, acknowledgements, fence releases and the report lines (R439 to R443, R488). -/
def Obligations.HarmActs : Prop := ∀ (s : State) (b : BedIx),
    (s.lineOn = true → s.hasSafety = true →
      s.completes .heartbeatSend fun t => t.timerOn (.heartbeat b) = s.heartChecked b) ∧
    (s.heartChecked b = true → s.timerOn (.heartbeat b) = true → s.hasSafety = true →
      sget (fun _ => 0) s.harm.counts (harmKey 6 (.bed b)) + 1 < max 1 (s.rdf (harmCtl 6) 7 0) →
      s.completes (.heartbeatTimeout b) fun t => t.timerOn (.heartbeat b) = false ∧
        sget (fun _ => 0) t.harm.counts (harmKey 6 (.bed b)) = sget (fun _ => 0) s.harm.counts (harmKey 6 (.bed b)) + 1 ∧
        t.timerOn (.harmWindow (harmKey 6 (.bed b))) = true ∧ t.harm.seq = s.harm.seq) ∧
    (s.heartChecked b = true → s.timerOn (.heartbeat b) = true → s.hasSafety = true →
      max 1 (s.rdf (harmCtl 6) 7 0) ≤ sget (fun _ => 0) s.harm.counts (harmKey 6 (.bed b)) + 1 →
      s.completes (.heartbeatTimeout b) fun t => t.timerOn (.heartbeat b) = false ∧
        sget (fun _ => 0) t.harm.counts (harmKey 6 (.bed b)) = 0 ∧
        t.timerOn (.harmWindow (harmKey 6 (.bed b))) = false ∧ t.harm.seq = (s.harm.seq + 1) % 65536 ∧
        t.rd (offHarmLog (s.harm.seq % 16) 0) = w32 (6 * 2 ^ 28 + (Target.bed b).word + s.harm.seq) ∧
        t.rdf offHarmStatus 15 0 = s.harm.seq % 65536 ∧ t.rdb offHarmStatus 31 = true ∧ t.rdb offSafeEvt 0 = true ∧
        t.cnt (offSafeCnt 4) = (s.cnt (offSafeCnt 4) + 1) % cntMod ∧
        (2 ≤ s.rdf (harmCtl 6) 31 30 → t.bedFenced b = true)) ∧
    (∀ (cls : Fin 7) (a : HarmAt), s.timerOn (.harmWindow (harmKey cls (harmTarget a))) = true →
      s.completes (.harmWindowEnd cls a) fun t => t.timerOn (.harmWindow (harmKey cls (harmTarget a))) = false ∧
        sget (fun _ => 0) t.harm.counts (harmKey cls (harmTarget a)) = 0) ∧
    (∀ v : Word, s.serves offHarmAck →
      (s.rdf offHarmStatus 15 0 + 65536 - fld 15 0 v) % 65536 < s.rdf offHarmStatus 20 16 →
      s.completes (.harmAck v) fun t =>
        t.rdf offHarmStatus 20 16 = (s.rdf offHarmStatus 15 0 + 65536 - fld 15 0 v) % 65536 ∧
        t.rdb offHarmStatus 31 = (s.rdb offHarmStatus 31 && s.rdf offHarmStatus 15 0 != fld 15 0 v)) ∧
    (∀ v : Word, s.serves offHarmAck →
      s.rdf offHarmStatus 20 16 ≤ (s.rdf offHarmStatus 15 0 + 65536 - fld 15 0 v) % 65536 →
      s.completes (.harmAck v) fun t => t = { s with outbox := .busResponse false 0 :: s.outbox }) ∧
    (∀ (w : Fin 9) (v : Word), s.serves (fenceReg w) →
      s.completes (.fenceRelease w v) fun t => t.rd (fenceReg w) = s.rd (fenceReg w) &&& ~~~v ∧ t.harm = s.harm) ∧
    (∀ (w : Word) (rest : List Word), s.harm.reports = w :: rest →
      s.completes .harmTake fun t => t.harm.reports = rest ∧ t.regs = s.regs)

/-- The bed swap: WARM, START, ABORT and RETURN, reseeds, shadow, port switches and the end of the takeover (R447 to R449,
R454). -/
def Obligations.SwapActs : Prop := ∀ (s : State),
    (∀ v : Word, s.serves offSwapCtl → bit 31 v = false → bit 30 v = false → bit 29 v = false → s.swapState = 0 →
      s.pwr.fallow = false → s.pwr.pllLocked = true →
      s.hasFallow = true → s.mapped 1 16 = false →
      s.completes (.swapWarm v) fun t => t.swapState = 1 ∧ t.rdb offPwrIslandCtl 16 = true) ∧
    (∀ v : Word, s.serves offSwapCtl → bit 30 v = false → bit 29 v = false → bit 28 v = false → s.swapState ≤ 1 →
      s.hasFallow = true → s.mapped 1 16 = false → s.homeServes (fld 19 16 v) = true → s.bedUsable (fld 19 16 v) = true →
      s.marlBad = false → s.pwr.fallow = false → s.pwr.pllLocked = true →
      s.completes (.swapStart v) fun t => t.swapState = 2 ∧ t.swapPos = fld 19 16 v ∧ t.harm.returning = false ∧
        t.rdb offPwrIslandCtl 16 = true) ∧
    (∀ v : Word, s.serves offSwapCtl → bit 30 v = false → bit 29 v = false → bit 28 v = false →
      2 ≤ s.swapState ∨ s.hasFallow = false ∨ s.mapped 1 16 = true ∨ s.bedUsable (fld 19 16 v) = false →
      s.completes (.swapStart v) fun t => t.swapState = s.swapState ∧ t.rdb offSwapStatus 19 = true ∧ t.harm = s.harm) ∧
    (∀ v : Word, s.serves offSwapCtl → bit 31 v = false → bit 29 v = false → bit 28 v = false →
      s.swapState = 2 ∨ s.swapState = 4 →
      s.completes (.swapAbort v) fun t => t.swapState = (if s.harm.returning then 6 else 1) ∧
        t.rdf offSwapStatus 21 20 = 1 ∧ t.rdb offSafeEvt 5 = true ∧ t.harm.returning = false) ∧
    (∀ v : Word, s.serves offSwapCtl → bit 31 v = false → bit 30 v = false → bit 28 v = false → s.swapState = 6 →
      s.bedUsable s.swapPos = true → s.mapped 1 s.swapPos = false →
      s.completes (.swapReturn v) fun t => t.swapState = 2 ∧ t.swapPos = s.swapPos ∧ t.harm.returning = true) ∧
    (∀ b : BedIx, s.swapState = 2 → b.val = s.swapBeds.2 → s.bedOn b = true → s.bedFenced b = false → s.marlBad = false →
      s.roleServed 16 = true →
      s.completes (.reseedMatched b) fun t => t.swapState = 4 ∧ t.harm.stale.contains b.val = false ∧ t.harm.matched = 0) ∧
    (∀ b : BedIx, s.swapState ≤ 1 → s.harm.stale.contains b.val = true → s.bedOn b = true → s.bedFenced b = false →
      s.marlBad = false → s.roleServed 16 = true →
      s.completes (.reseedMatched b) fun t => t.swapState = s.swapState ∧ t.harm.stale.contains b.val = false ∧
        t.harm.waiting.contains b.val = false) ∧
    (s.swapState = 4 → clampTo 256 65535 (s.rdf offSwapCtl 15 0) ≤ s.harm.matched → s.bedOn s.swapBeds.2 = true →
      s.completes .shadowMatched fun t => t.swapState = 5 ∧ t.swapPos = s.swapPos) ∧
    (s.swapState = 4 → s.rdf offSwapStatus 23 22 < 3 →
      s.completes .shadowMismatch fun t => t.swapState = 2 ∧ t.harm.matched = 0 ∧
        t.rdf offSwapStatus 23 22 = s.rdf offSwapStatus 23 22 + 1) ∧
    (s.swapState = 4 → s.rdf offSwapStatus 23 22 = 3 →
      s.completes .shadowMismatch fun t => t.swapState = (if s.harm.returning then 6 else 1) ∧
        t.rdf offSwapStatus 21 20 = 2 ∧ t.rdb offSafeEvt 5 = true) ∧
    (∀ p : LocalIx, s.swapState = 5 → s.portDone p = false → s.portTurn p = true → s.portIdle p = true →
      s.pState s.swapBeds.1 p ≠ 8 →
      s.completes (.portSwitch p) fun t => t.portDone p = true ∧ t.swapState = 5 ∧
        t.pState s.swapBeds.2 p = s.pState s.swapBeds.1 p ∧ t.pForm s.swapBeds.2 p = s.pForm s.swapBeds.1 p) ∧
    (s.swapState = 5 → s.rdf offSwapStatus 15 0 = 0xFFFF →
      (s.framesWhere fun x => x.bed == s.swapBeds.1 && x.inBed) = [] →
      s.completes .bedDrained fun t => t.swapState = (if s.harm.returning then 0 else 6) ∧ t.harm.returning = false ∧
        t.rdb offSafeEvt 4 = true)

/-- Marl repair, weathering, subsoil repair and errors, the fuse ledger and run-time map-outs (R453, R455 to R460). -/
def Obligations.ServiceActs : Prop := ∀ (s : State),
    (∀ copy : Fin 2, s.roleServed 21 = true → s.rdb offMarlStatus copy = true →
      s.rdb offMarlStatus (1 - copy.val) = false →
      s.completes (.marlRewriteDone copy) fun t => t.rdb offMarlStatus copy = false) ∧
    (∀ (m : Fin 40) (slow : Nat), s.roleServed 23 = false ∨ s.hasSafety = false ∨ s.harm.wearTurn ≠ m.val →
      s.completes (.wearSample m slow) fun t => t = s) ∧
    (∀ (m : Fin 40) (slow : Nat), s.roleServed 23 = true → s.hasSafety = true → s.harm.wearTurn = m.val →
      s.completes (.wearSample m slow) fun t => t.harm.wearTurn = (m.val + 1) % 40 ∧
        t.rdf (offWear m) 15 0 = min 0xFFFF slow ∧
        t.rdb (offWear m) 31 = (s.rdb (offWear m) 31 || decide (10 * s.rdf offWearThresh 31 24 ≤ min 0xFFFF slow)) ∧
        t.rdb (offWear m) 30 = (s.rdb (offWear m) 30 || decide (10 * s.rdf offWearThresh 23 16 ≤ min 0xFFFF slow)) ∧
        (10 * s.rdf offWearThresh 31 24 ≤ min 0xFFFF slow → s.rdb (offWear m) 31 = false → t.rdb offSafeEvt 1 = true)) ∧
    (∀ (stack : Fin 8) (chan : Fin 34) (corrected : Nat), s.roleServed 21 = true →
      s.chanOut (34 * stack.val + chan.val) = false →
      s.harm.repairs.any (fun e => e.1 == 34 * stack.val + chan.val) = false →
      s.sparesUsed stack < 2 →
      s.completes (.subsoilRepairStart stack chan corrected true) fun t =>
        t.harm.repairs = s.harm.repairs ++ [(34 * stack.val + chan.val, 32 + s.sparesUsed stack)] ∧
        t.cnt (offSafeCnt 3) = (s.cnt (offSafeCnt 3) + corrected) % cntMod) ∧
    (∀ (stack : Fin 8) (chan : Fin 34) (corrected : Nat), s.roleServed 21 = true →
      s.chanOut (34 * stack.val + chan.val) = false →
      s.harm.repairs.any (fun e => e.1 == 34 * stack.val + chan.val) = false → 2 ≤ s.sparesUsed stack →
      max 1 (s.rdf offMemCfg 15 0) ≤ corrected →
      s.completes (.subsoilRepairStart stack chan corrected false) fun t => t.harm.repairs = s.harm.repairs ∧
        t.rdb offSafeEvt 8 = true) ∧
    (∀ (stack : Fin 8) (chan : Fin 34), s.roleServed 21 = true →
      s.harm.repairs.any (fun e => e.1 == 34 * stack.val + chan.val) = true →
      s.completes (.subsoilRepairDone stack chan) fun t =>
        t.harm.repairs.any (fun e => e.1 == 34 * stack.val + chan.val) = false ∧
        t.chanOut (34 * stack.val + chan.val) = true ∧ t.rdb offSafeEvt 7 = true) ∧
    (∀ copy : Fin 2, s.lineOn = true →
      s.completes (.uncorrectableError (.marl copy)) fun t => t.rdb offMarlStatus copy = true ∧
        t.rdb offSafeEvt 6 = true ∧ (s.rdb offMarlStatus (1 - copy.val) = true → t.rdb offMarlStatus 2 = true)) ∧
    (∀ id : BitVec 26, s.lineOn = true →
      s.completes (.uncorrectableError (.flow id)) fun t => (t.flow id.toNat).q = [] ∧
        t.cnt (offSafeCnt 0) = (s.cnt (offSafeCnt 0) + (s.flow id.toNat).q.length) % cntMod) ∧
    (∀ (v : Word) (i : Nat), s.serves offFuseProg → s.lkOk false .ledger = true → s.sec.fuseBlow = none →
      ((List.range 64).find? fun i => s.fuseEntry i == 0) = some i →
      s.completes (.fuseProgGo v) fun t => t.sec.fuseBlow = some (i, fuseWord (fld 27 24 v) (fld 23 12 v)) ∧
        t.rdb offFuseStatus 31 = true ∧ t.rdf offFuseStatus 30 29 = 0 ∧ t.pwr = s.pwr) ∧
    (∀ v : Word, s.serves offFuseProg → s.lkOk false .ledger = true → s.sec.fuseBlow = none →
      ((List.range 64).find? fun i => s.fuseEntry i == 0) = none →
      s.completes (.fuseProgGo v) fun t => t.rdf offFuseStatus 30 29 = 3 ∧ t.sec = s.sec ∧ t.pwr = s.pwr) ∧
    (∀ v : Word, s.serves offFuseProg → s.lkOk false .ledger = false →
      s.completes (.fuseProgGo v) fun t => t.sec = s.sec ∧ t.pwr = s.pwr ∧ t.rdb offSecEvt 0 = true ∧
        t.cnt offCntWmapRefused = (s.cnt offCntWmapRefused + 1) % cntMod ∧ t.rd offWmapLast = w32 offFuseProg) ∧
    (∀ (i : Fin 64) (v : Word) (kind k : Nat), s.serves (offMapRt i) → rtMap v = some (kind, k) →
      s.inService kind k = true → s.mapped kind k = false →
      s.completes (.mapRtWrite i v) fun t => t.rd (offMapRt i) = s.rd (offMapRt i) ∧ t.mapped kind k = false ∧
        t.rdb offFuseEvt 0 = true) ∧
    (∀ (i : Fin 64) (v : Word) (kind k : Nat), s.serves (offMapRt i) → rtMap v = some (kind, k) →
      s.inService kind k = false →
      s.completes (.mapRtWrite i v) fun t => t.rd (offMapRt i) = v ∧ t.mapped kind k = true)

/-- Lifecycle requests and blows, key revocation and the ledger's blow (R459, R463, R464, R466, R472, R474, R475). -/
def Obligations.LifecycleAndFusesAct : Prop := ∀ (s : State),
    (∀ v : Word, s.serves offLcReq → s.rdb offLcReq 30 = false → s.sec.wipe = none → s.sec.lcBlow = none →
      s.lifecycle = 0 → fld 1 0 v = 1 →
      s.completes (.lcRequest v) fun t => t.sec.lcBlow = some (0, setBit 31 true v) ∧ t.rdb offLcReq 30 = true ∧
        t.rdf offLcReq 29 28 = 0 ∧ t.pwr = s.pwr) ∧
    (∀ v : Word, s.serves offLcReq → s.rdb offLcReq 30 = false → s.sec.wipe = none → s.sec.lcBlow = none →
      fld 1 0 v = 2 → s.lifecycle = 0 ∨ (s.lifecycle = 1 ∧ s.timerOn .returnArm = true) →
      s.pwr.fallow = false → s.pwr.pllLocked = true → s.held 0 = false →
      s.completes (.lcRequest v) fun t =>
        t.sec.wipe = some (.blow (if s.lifecycle = 0 then 2 else 1) (setBit 31 true v)) ∧ t.rdb offLcReq 30 = true ∧
        t.rdb offRstCtl 0 = true ∧ t.pwr.life = s.pwr.life) ∧
    (∀ v : Word, s.serves offLcReq → s.rdb offLcReq 30 = false → s.lifecycle = 1 →
      fld 1 0 v ≠ 2 ∨ s.timerOn .returnArm = false →
      s.completes (.lcRequest v) fun t => t.rdf offLcReq 29 28 = 2 ∧ t.sec = s.sec ∧ t.pwr = s.pwr) ∧
    (∀ v : Word, s.serves offLcReq → s.rdb offLcReq 30 = false → s.lifecycle = 2 →
      s.completes (.lcRequest v) fun t => t.rdb offSecEvt 0 = true ∧ t.rd offWmapLast = w32 offLcReq ∧
        t.cnt offCntWmapRefused = (s.cnt offCntWmapRefused + 1) % cntMod ∧ t.sec = s.sec ∧ t.pwr = s.pwr) ∧
    (∀ (k : Fin 3) (req : Word), s.sec.lcBlow = some (k.val, req) → s.pwr.fallowWait = false →
      s.completes (.lcBlowDone true) fun t => t.pwr.life = s.pwr.life ||| BitVec.ofNat 3 (2 ^ k.val) ∧
        t.sec.lcBlow = none ∧ t.rdb offLcReq 30 = false ∧ t.rdf offLcReq 29 28 = 1 ∧ t.rdb offSecEvt 4 = true ∧
        t.sec.host.level = 0 ∧ t.sec.port.level = 0 ∧ t.timerOn .returnArm = false) ∧
    (∀ (k : Fin 3) (req : Word), s.sec.lcBlow = some (k.val, req) → s.pwr.fallowWait = false →
      s.completes (.lcBlowDone false) fun t => t.pwr = s.pwr ∧ t.sec.lcBlow = none ∧ t.rdb offLcReq 30 = false ∧
        t.rdf offLcReq 29 28 = 3) ∧
    (∀ v : Word, s.serves offKeyRevoke → s.lifecycle ≠ 2 → s.sec.keyBlow = none →
      s.pwr.revoked.getLsbD (8 * fld 8 8 v + fld 2 0 v) = false →
      s.completes (.keyRevoke v) fun t => t.sec.keyBlow = some (8 * fld 8 8 v + fld 2 0 v) ∧
        t.rdb offKeyRevoke 30 = true ∧ t.pwr = s.pwr) ∧
    (∀ v : Word, s.serves offKeyRevoke → s.lifecycle = 2 →
      s.completes (.keyRevoke v) fun t => t.sec = s.sec ∧ t.pwr = s.pwr ∧ t.rdb offSecEvt 0 = true ∧
        t.rd offWmapLast = w32 offKeyRevoke) ∧
    (∀ k : Fin 16, s.sec.keyBlow = some k.val → s.pwr.fallowWait = false →
      s.completes .keyRevokeDone fun t => t.pwr.revoked = s.pwr.revoked ||| BitVec.ofNat 16 (2 ^ k.val) ∧
        t.sec.keyBlow = none ∧ t.rdb offKeyRevoke 30 = false) ∧
    (∀ (missed w : Word) (i : Nat), s.sec.fuseBlow = some (i, w) → s.pwr.fallowWait = false →
      s.completes (.fuseBlowDone missed) fun t => t.fuseEntry i = w &&& ~~~missed ∧ t.sec.fuseBlow = none ∧
        t.rdb offFuseStatus 31 = false ∧ t.rdf offFuseStatus 30 29 = if w &&& ~~~missed = w then 1 else 2)

/-- Debug sessions on both paths, and the debug port's accesses (R467, R468, R470 to R473, R480). -/
def Obligations.DebugSessionsAct : Prop := ∀ (s : State) (port : Bool),
    (∀ v : Word, (if port then s.dpAnswers = true else s.serves offDbgCtl) → bit 30 v = false → bit 29 v = false →
      s.completes (.dbgChalReq port v) fun t => (t.dbg port).chalOk = true ∧ (t.dbg port).token = [] ∧
        (t.dbg port).count = 0 ∧ (t.dbg port).level = (s.dbg port).level ∧ t.timerOn (.challenge port) = true) ∧
    (∀ v : Word, (if port then s.dpAnswers = true else s.serves offDbgToken) →
      s.completes (.dbgTokenWrite port v) fun t => (t.dbg port).token = (s.dbg port).token ++ [v] ∧
        (t.dbg port).count = (s.dbg port).count + 4) ∧
    (∀ v : Word, (if port then s.dpAnswers = true else s.serves offDbgCtl) → bit 31 v = false → bit 29 v = false →
      bit 0 v = false → s.sec.check = none → s.sec.wipe = none → s.sec.locked = false →
      s.completes (.dbgSubmit port v) fun t => (t.dbg port).chalOk = false ∧ (t.dbg port).result = 0 ∧
        t.sec.check = some (port, (s.dbg port).token,
          (s.dbg port).chalOk && tokChal (s.dbg port).token == (s.dbg port).chal)) ∧
    (∀ v : Word, (if port then s.dpAnswers = true else s.serves offDbgCtl) → bit 31 v = false → bit 29 v = false →
      bit 0 v = false → s.sec.check = none → s.sec.wipe = none → s.sec.locked = true →
      s.completes (.dbgSubmit port v) fun t => (t.dbg port).chalOk = false ∧ (t.dbg port).result = 9 ∧
        t.sec.check = none ∧ t.rdb offSecEvt 2 = true) ∧
    (∀ (tok : List Word) (ok : Bool), s.sec.check = some (port, tok, ok) → s.sec.wipe = none → s.hostOn = true →
      s.pwr.fallow = false → s.pwr.pllLocked = true → s.held 0 = false →
      s.completes .tokenCheckDone fun t => t.sec.check = none ∧
        (if s.tokenCheck port tok ok ≠ 1 then
          (t.dbg port).result = s.tokenCheck port tok ok ∧ t.rdb offSecEvt 2 = true ∧
            (t.dbg port).level = (s.dbg port).level
        else t.sec.fails = 0 ∧
          (if fld 7 0 (tokWord tok 1) = 1 then t.timerOn .returnArm = true
          else if fld 23 16 (tokWord tok 1) = 3 then t.sec.wipe = some (.grant port tok) ∧ t.rdb offRstCtl 0 = true
          else (t.dbg port).level = fld 23 16 (tokWord tok 1) ∧ t.rdb offSecEvt 1 = true))) ∧
    (∀ tok : List Word, s.sec.wipe = some (.grant port tok) → s.lifecycle = 1 →
      s.completes .wipeDone fun t => t.sec.wipe = none ∧ ((t.dbg port).level = (s.dbg port).level ∨ (t.dbg port).level = 0) ∧
        (t.dbg port).result = 7 ∧ t.rdb offSecEvt 2 = true ∧ t.harm.marl = []) ∧
    (∀ tok : List Word, s.sec.wipe = some (.grant port tok) → s.lifecycle ≠ 1 →
      s.completes .wipeDone fun t => t.sec.wipe = none ∧ (t.dbg port).level = fld 23 16 (tokWord tok 1) ∧
        (t.dbg port).duration = (tokWord tok 6).toNat ∧ t.rdb offSecEvt 1 = true ∧ t.harm.marl = []) ∧
    (∀ (k : Nat) (req : Word), s.sec.wipe = some (.blow k req) →
      s.completes .wipeDone fun t => t.sec.wipe = none ∧ t.sec.lcBlow = some (k, req) ∧ t.harm.marl = [] ∧
        t.sec.zeroed = some s.memStamp) ∧
    (∀ v : Word, (if port then s.dpAnswers = true else s.serves offDbgCtl) → bit 31 v = false → bit 30 v = false →
      bit 0 v = false → (s.dbg port).level ≠ 0 →
      s.completes (.dbgClose port v) fun t => (t.dbg port).level = 0 ∧ t.rdb offSecEvt 3 = true ∧
        t.timerOn (.session port) = false ∧ t.dbg (!port) = s.dbg (!port)) ∧
    (s.timerOn (.session port) = true → (s.dbg port).level ≠ 0 →
      s.completes (.sessionExpire port) fun t => (t.dbg port).level = 0 ∧ t.rdb offSecEvt 3 = true ∧
        t.timerOn (.session port) = false) ∧
    (s.timerOn (.challenge port) = true →
      s.completes (.challengeExpire port) fun t => (t.dbg port).chalOk = false ∧ t.timerOn (.challenge port) = false ∧
        (t.dbg port).chal = (s.dbg port).chal) ∧
    (s.completes .returnArmExpire fun t => t.timerOn .returnArm = false ∧ t.sec = s.sec ∧ t.regs = s.regs) ∧
    (∀ addr data : Word, s.dpAnswers = true → bit 31 addr = false → s.dpGrants (fld 25 0 addr) false = true →
      fld 25 0 addr ≠ offTimeCaptureAll →
      s.completes (.dpAccess addr data) fun t => t.outbox.head? = some (.dpResponse false (s.view (fld 25 0 addr))) ∧
        sget (fun _ => 0) t.sec.dp 0x34 = s.view (fld 25 0 addr)) ∧
    (∀ addr data : Word, s.dpAnswers = true → bit 31 addr = true → s.dpGrants (fld 25 0 addr) true = true →
      s.completes (.dpAccess addr data) fun t => t.outbox.head? = some (.dpResponse false 0) ∧
        sget (fun _ => 0) t.sec.dp 0x34 = data) ∧
    (∀ addr data : Word, s.dpAnswers = true → s.sec.port.level ≠ 0 → s.dpGrants (fld 25 0 addr) (bit 31 addr) = false →
      s.completes (.dpAccess addr data) fun t => t.outbox = .dpResponse true 0 :: s.outbox ∧ t.regs = s.regs ∧
        bit 29 (sget (fun _ => 0) t.sec.dp 0x30) = true) ∧
    (∀ (addr : BitVec 64) (ctl : Word) (data : List Word) (grain : Option Nat), s.dpAnswers = true →
      s.sec.port.level = 3 → s.lineOn = true → bit 30 ctl = true →
      spaceHas (fld 1 0 ctl) addr.toNat = true → data.length = 16 →
      s.completes (.dpMemAccess addr ctl data grain) fun t => t.outbox = .dpResponse false 0 :: s.outbox ∧
        (t.memLine (fld 1 0 ctl) addr.toNat).1 = data ∧ t.regs = s.regs ∧
        t.frames = (s.grainSpoil (fld 1 0 ctl) grain).frames) ∧
    (∀ (addr : BitVec 64) (ctl : Word) (data : List Word) (grain : Option Nat), s.dpAnswers = true →
      s.sec.port.level = 3 → s.lineOn = true → bit 30 ctl = false →
      spaceHas (fld 1 0 ctl) addr.toNat = true →
      s.completes (.dpMemAccess addr ctl data grain) fun t => t.outbox = .dpResponse false 0 :: s.outbox ∧
        (List.range 16).map (fun i => sget (fun _ => 0) t.sec.dp (0x50 + 4 * i)) =
          (s.memLine (fld 1 0 ctl) addr.toNat).1) ∧
    (∀ (addr : BitVec 64) (ctl : Word) (data : List Word) (grain : Option Nat), s.dpAnswers = true →
      s.sec.port.level ≠ 3 ∨ s.lineOn = false →
      s.completes (.dpMemAccess addr ctl data grain) fun t => t.outbox = .dpResponse true 0 :: s.outbox ∧ t.regs = s.regs) ∧
    (∀ (addr : BitVec 64) (ctl : Word) (data : List Word) (grain : Option Nat), s.dpAnswers = true → s.sec.port.level = 3 →
      s.lineOn = true → (if fld 1 0 ctl = 2 then bit 30 ctl = true ∨ 26 ≤ addr.toNat / 2 ^ 40 % 64
        else spaceHas (fld 1 0 ctl) addr.toNat = false) →
      s.completes (.dpMemAccess addr ctl data grain) fun t => t.outbox = .dpResponse true 0 :: s.outbox ∧
        t.regs = s.regs ∧ t.sec.lines = s.sec.lines) ∧
    (∀ (addr : BitVec 64) (ctl : Word) (data : List Word) (grain : Option Nat) (e : Fin 26) (w : BitVec 96),
      s.dpAnswers = true → s.sec.port.level = 3 → s.lineOn = true → bit 30 ctl = false → fld 1 0 ctl = 2 →
      addr.toNat / 2 ^ 40 % 64 = e.val →
      w = (s.eng e).store.getD (addr.toNat % 16384) 0 →
      s.completes (.dpMemAccess addr ctl data grain) fun t => t.outbox = .dpResponse false 0 :: s.outbox ∧
        (List.range 3).map (fun i => sget (fun _ => 0) t.sec.dp (0x50 + 4 * i)) =
          [w32 w.toNat, w32 (w.toNat / 2 ^ 32), w32 (w.toNat / 2 ^ 64)]) ∧
    (∀ v : Word, s.dpAnswers = true → bit 31 v = false → bit 30 v = false → bit 29 v = false → 2 ≤ s.sec.port.level →
      s.completes (.dpLineRelease v) fun t => t.rdb offRstCtl 0 = false ∧ t.outbox = .dpResponse false 0 :: s.outbox) ∧
    (∀ v : Word, s.dpAnswers = true → bit 31 v = false → bit 30 v = false → bit 29 v = false → s.sec.port.level < 2 →
      s.completes (.dpLineRelease v) fun t => t = { s with outbox := .dpResponse true 0 :: s.outbox })

/-- Resets and power states (R67 to R72, R476 to R479, R495). -/
def Obligations.ResetsAndPowerStatesAct : Prop := ∀ (s : State),
    (s.completes (.powerOnReset false) fun t => t.regs = [] ∧ t.pwr.porN = false ∧ t.pwr.isl = [] ∧ t.pwr.pllOn = false ∧
        t.pwr.fallow = false ∧ t.frames = [] ∧ t.copies = [] ∧ t.timers = [] ∧ t.outbox = s.outbox ∧
        (s.sec.fuseBlow = none → t.pwr.ledger = s.pwr.ledger) ∧ (s.sec.lcBlow = none → t.pwr.life = s.pwr.life) ∧
        (s.sec.keyBlow = none → t.pwr.revoked = s.pwr.revoked)) ∧
    (∀ rail : Fin 7, s.completes (.railFault rail) fun t => t.regs = [] ∧ t.pwr.porN = false ∧ t.pwr.isl = [] ∧
        t.frames = [] ∧ t.timers = [] ∧ t.outbox = s.outbox) ∧
    (∀ i : Fin 27, s.pwr.porN = false →
      s.completes (.powerOnReset true) fun t => t.pwr.porN = true ∧ t.pwr.pllOn = true ∧ t.pwr.fusesSensed = true ∧
        t.pwr.lifeSensed = s.pwr.life ∧ (s.enabled i = true → t.islAt i = .ramp ∧ t.timerOn (.ramp i.val) = true)) ∧
    (s.hostOn = true → s.pwr.fallow = false →
      s.completes (.hostResetPin false) fun t => t.pwr.hostRstN = false ∧ t.islAt 0 = .held ∧ t.rdb offRstCause 1 = true ∧
        t.rings = {} ∧ t.mgmt = {} ∧ t.sec.host.level = 0 ∧ t.sec.port.level = 0) ∧
    (s.completes (.hostResetPin true) fun t => t = { s with pwr := { s.pwr with hostRstN := true } }) ∧
    (∀ i : Fin 25, s.lineOn = true → s.enabled 1 = true →
      s.completes (.lineResetPin false) fun t => t.pwr.lineRstN = false ∧ t.islAt 1 = .held ∧ t.islAt (2 + i.val) ≠ .on ∧
        t.rdb offRstCause 3 = true ∧ t.frames = [] ∧ t.copies = [] ∧ t.rds (offMeas 0) 12 = List.replicate 12 0) ∧
    (s.completes (.lineResetPin true) fun t => t = { s with pwr := { s.pwr with lineRstN := true } }) ∧
    (∀ hold, s.serves offRstCtl → s.pwr.fallow = false →
      s.completes (.rstCtlHostSelf hold) fun t => t.islAt 0 = .held ∧ t.rdb offRstCause 2 = true ∧
        t.rdb offRstCtl 0 = hold ∧ t.rings = {} ∧ t.mgmt = {}) ∧
    (∀ i : Fin 25, s.serves offRstCtl → s.lineOn = true → s.rdb offRstCtl 0 = false →
      s.completes (.rstCtlLineHold true) fun t => t.rdb offRstCtl 0 = true ∧ t.rdb offRstCause 4 = true ∧
        t.islAt 1 ≠ .on ∧ t.islAt (2 + i.val) ≠ .on) ∧
    (s.serves offRstCtl →
      s.completes (.rstCtlLineHold false) fun t => t.rdb offRstCtl 0 = false ∧ t.pwr = s.pwr) ∧
    (∀ (i : Fin 17) (v : Word), s.serves offRstBed → s.rdb offRstBed i = false → bit i v = true → s.bedGuarded i = true →
      s.completes (.rstBedWrite v) fun t => t.rdb offRstBed i = false ∧ t.rdb offPwrFault 31 = true ∧
        t.rdb offBlkEvt 2 = true) ∧
    (∀ (i : Fin 17) (v : Word), s.serves offRstBed → s.rdb offRstBed i = true ∨ bit i v = false ∨ s.bedGuarded i = false →
      s.completes (.rstBedWrite v) fun t => t.rdb offRstBed i = bit i v ∧ (bit i v = true → t.islAt (2 + i.val) ≠ .on)) ∧
    (∀ (i : Fin 17) (v : Word), s.serves offPwrIslandCtl → bit 31 v = true → s.rdb offPwrIslandCtl i = true →
      bit i v = false → s.bedGuarded i = true →
      s.completes (.pwrIslandCtlWrite v) fun t => t.rdb offPwrIslandCtl i = true ∧ t.rdb offPwrFault 31 = true ∧
        t.rdb offBlkEvt 2 = true) ∧
    (∀ (i : Fin 17) (v : Word), s.serves offPwrIslandCtl → i.val ≠ 16 → bit 31 v = true → bit i v = true →
      s.completes (.pwrIslandCtlWrite v) fun t => t.rdb offPwrIslandCtl i = true ∧ t.rdb offPwrIslandCtl 31 = true) ∧
    (∀ v : Word, s.serves offPwrIslandCtl → bit 31 v = false → s.lineOn = true →
      s.completes (.pwrIslandCtlWrite v) fun t => t.rdb offPwrIslandCtl 31 = false ∧ t.islAt 1 = .off ∧
        t.frames = [] ∧ t.copies = []) ∧
    (∀ i : Fin 17, s.serves offPwrState → s.isRun = true → s.pwr.fallow = false → s.pwr.pllLocked = true →
      s.held 0 = false →
      s.completes .pwrStateTrim fun t => t.rdf offPwrState 31 30 = 1 ∧
        (s.bedGuarded i = true → t.rdb offPwrIslandCtl i = true)) ∧
    (s.serves offPwrState → s.isRun = false →
      s.completes .pwrStateRun fun t => t.rdf offPwrState 31 30 = 0) ∧
    (s.serves offPwrState → s.blowing = false →
      s.completes .fallowEntry fun t => t.pwr.fallow = true ∧ t.pwr.isl = [] ∧ t.pwr.pllOn = false ∧
        t.pwr.pllLocked = false ∧ t.pwr.wakeArmed = true ∧ t.rdb offRstCtl 0 = true ∧ t.sec.host.level = 0 ∧
        t.sec.port.level = 0) ∧
    (s.serves offPwrState → s.blowing = true →
      s.completes .fallowEntry fun t => t.pwr.fallowWait = true ∧ t.pwr.isl = s.pwr.isl ∧ t.pwr.fallow = s.pwr.fallow ∧
        t.frames = s.frames ∧ t.sec.host.level = 0 ∧ t.sec.port.level = 0) ∧
    (s.pwr.fallow = true → s.pwr.wakeReq = true ∨ s.pwr.hostRstN = false → s.islAt 0 = .off →
      s.completes .fallowExit fun t => t.pwr.fallow = false ∧ t.pwr.pllOn = true ∧ t.rdf offPwrState 31 30 = 0 ∧
        t.rdb offRstCause 6 = true ∧ t.islAt 0 = .ramp ∧ t.timerOn (.ramp 0) = true)

/-- Islands coming up, the root PLL and the clock monitor (R61, R63, R64, R67, R75). -/
def Obligations.IslandsAndClocksAct : Prop := ∀ (s : State) (i : Island),
    (s.islAt (islIx i) = .ramp → s.enabled (islIx i) = true →
      s.completes (.railGood i) fun t => t.islAt (islIx i) = .held ∧ t.timerOn (.ramp (islIx i)) = false) ∧
    (s.islAt (islIx i) = .ramp → s.timerOn (.ramp (islIx i)) = true →
      s.completes (.rampTimeout i) fun t => t.islAt (islIx i) = .off ∧ t.timerOn (.ramp (islIx i)) = false ∧
        t.rdb offPwrFault (if islIx i = 0 then 29 else if islIx i = 1 then 30 else islIx i - 2) = true ∧
        t.rdb offBlkEvt 1 = true) ∧
    (s.islAt (islIx i) = .held → s.enabled (islIx i) = true → s.held (islIx i) = false → s.pwr.pllLocked = true →
      s.parentOn (islIx i) = true →
      s.completes (.islandResetRelease i) fun t => t.islAt (islIx i) = .sync ∧
        (islIx i = 1 → t.pwr.applied = s.allMaps)) ∧
    (s.islAt (islIx i) = .sync → s.enabled (islIx i) = true → s.held (islIx i) = false → s.pwr.pllLocked = true →
      s.completes (.bridgeCentred i) fun t => t.islAt (islIx i) = .on) ∧
    (s.islAt (islIx i) = .sync → s.held (islIx i) = true ∨ s.enabled (islIx i) = false ∨ s.pwr.pllLocked = false →
      s.completes (.bridgeCentred i) fun t => t.islAt (islIx i) ≠ .on) ∧
    (s.pwr.pllLocked = true →
      s.completes .pllLockLoss fun t => t.pwr.pllLocked = false ∧ t.rdb offClkPll 30 = true ∧ t.rdb offBlkEvt 0 = true ∧
        t.rdb offRstCause 5 = true ∧ t.islAt (islIx i) ≠ .on ∧ t.harm.pllAlarm = true ∧ t.harm.pllOwed = true) ∧
    (s.pwr.pllOn = true →
      s.completes .pllRelock fun t => t = { s with pwr :=
        { s.pwr with pllLocked := true, fusesSensed := true, monRan := t.pwr.monRan } }) ∧
    (∀ v : Word, s.serves offClkMonSel → bit 31 v = true → fld 4 0 v ≤ 23 →
      s.completes (.clkMonStart v) fun t => t.rdf offClkMonSel 4 0 = fld 4 0 v ∧ t.rd offClkMonCount = 0 ∧
        t.timerOn .clkMon = true ∧ t.pwr.monRun = some (fld 4 0 v) ∧ t.pwr.monRan = s.clkRuns (fld 4 0 v)) ∧
    (∀ v : Word, s.serves offClkMonSel → bit 31 v = true → 23 < fld 4 0 v →
      s.completes (.clkMonStart v) fun t => t.rd offClkMonCount = 0xA0000000 ∧ t.timerOn .clkMon = false ∧
        t.pwr.monRun = none) ∧
    (∀ (d : Nat) (cnt : BitVec 20), s.pwr.monRun = some d → s.pwr.monRan = true ∨ s.clkRuns d = true →
      s.completes (.clkMonWindowEnd cnt) fun t => t.pwr.monRun = none ∧ t.timerOn .clkMon = false ∧
        t.rdf offClkMonCount 19 0 = cnt.toNat ∧ t.rdb offClkMonCount 31 = true ∧
        t.rdb offClkMonCount 30 = (decide (cnt.toNat < (monRange d).1) || decide ((monRange d).2 < cnt.toNat))) ∧
    (∀ (d : Nat) (cnt : BitVec 20), s.pwr.monRun = some d → s.pwr.monRan = false → s.clkRuns d = false →
      s.completes (.clkMonWindowEnd cnt) fun t => t.rdf offClkMonCount 19 0 = 0 ∧ t.rdb offClkMonCount 30 = true)
end

