-- ==== Sys2Proof/Laws/Bits.lean ====
section
/-! SUPPORT. Bit fields of register words: what a field or a bit reads after a field or a bit is set. -/

namespace Sys2Proof.Machine

theorem bit_fieldMask (hi lo i : Nat) (h : lo ≤ hi) (h32 : i < 32) :
    bit i (fieldMask hi lo) = decide (lo ≤ i ∧ i ≤ hi) := by
  unfold bit fieldMask
  rw [BitVec.getLsbD_ofNat, Nat.mul_comm, Nat.testBit_two_pow_mul, Nat.testBit_two_pow_sub_one]
  simp only [h32, decide_true, Bool.true_and]
  by_cases h1 : lo ≤ i <;> by_cases h2 : i ≤ hi <;> simp [h1, h2] <;> omega

theorem fld_testBit (hi lo k : Nat) (w : Word) :
    (fld hi lo w).testBit k = (decide (k < hi + 1 - lo) && bit (lo + k) w) := by
  unfold fld bit
  rw [Nat.testBit_mod_two_pow, Nat.testBit_div_two_pow]
  simp only [BitVec.getLsbD, Nat.add_comm]

/-- A bit of a word with a field set: the field's number in it, the word's own outside it. -/
theorem bit_setFld (hi lo n i : Nat) (w : Word) (h : lo ≤ hi) (h32 : i < 32) :
    bit i (setFld hi lo n w) = if lo ≤ i ∧ i ≤ hi then n.testBit (i - lo) else bit i w := by
  have hm := bit_fieldMask hi lo i h h32
  unfold bit at hm ⊢
  unfold setFld
  rw [BitVec.getLsbD_or, BitVec.getLsbD_and, BitVec.getLsbD_not, BitVec.getLsbD_ofNat, hm, Nat.mul_comm,
    Nat.testBit_two_pow_mul, Nat.testBit_mod_two_pow]
  by_cases h1 : lo ≤ i <;> by_cases h2 : i ≤ hi <;> simp [h1, h2, h32]
  · omega
  · omega

theorem bit_setBit (j i : Nat) (v : Bool) (w : Word) (h : i < 32) :
    bit i (setBit j v w) = if i = j then v else bit i w := by
  have hp : (BitVec.ofNat 32 (2 ^ j)).getLsbD i = decide (i = j) := by
    rw [BitVec.getLsbD_ofNat, Nat.testBit_two_pow]
    simp [h, eq_comm]
  unfold setBit bit
  cases v
  · simp only [Bool.false_eq_true, if_false, BitVec.getLsbD_and, BitVec.getLsbD_not, hp, h]
    by_cases e : i = j <;> simp [e]
  · simp only [if_true, BitVec.getLsbD_or, hp]
    by_cases e : i = j <;> simp [e]

/-- A field that is set reads what it was set to, modulo its width. -/
theorem fld_setFld (hi lo n : Nat) (w : Word) (h : lo ≤ hi) (hi32 : hi < 32) :
    fld hi lo (setFld hi lo n w) = n % 2 ^ (hi + 1 - lo) := by
  refine Nat.eq_of_testBit_eq fun k => ?_
  rw [fld_testBit, Nat.testBit_mod_two_pow]
  by_cases hk : k < hi + 1 - lo
  · rw [bit_setFld hi lo n (lo + k) w h (by omega), if_pos (by omega), Nat.add_sub_cancel_left]
  · simp [hk]

/-- A field apart from the one that is set reads as before. -/
theorem fld_setFld_ne (hi lo hi' lo' n : Nat) (w : Word) (h : lo ≤ hi) (h32 : hi' < 32)
    (hd : hi' < lo ∨ hi < lo') : fld hi' lo' (setFld hi lo n w) = fld hi' lo' w := by
  refine Nat.eq_of_testBit_eq fun k => ?_
  rw [fld_testBit, fld_testBit]
  by_cases hk : k < hi' + 1 - lo'
  · rw [bit_setFld hi lo n (lo' + k) w h (by omega), if_neg (by omega)]
  · simp [hk]

/-- A field apart from the bit that is set reads as before. -/
theorem fld_setBit_ne (hi lo j : Nat) (v : Bool) (w : Word) (h32 : hi < 32) (hd : j < lo ∨ hi < j) :
    fld hi lo (setBit j v w) = fld hi lo w := by
  refine Nat.eq_of_testBit_eq fun k => ?_
  rw [fld_testBit, fld_testBit]
  by_cases hk : k < hi + 1 - lo
  · rw [bit_setBit j (lo + k) v w (by omega), if_neg (by omega)]
  · simp [hk]

theorem fld_lt (hi lo : Nat) (w : Word) : fld hi lo w < 2 ^ (hi + 1 - lo) := Nat.mod_lt _ (Nat.two_pow_pos _)

/-- A word's number from a number below 2^32. -/
theorem w32_toNat (n : Nat) (h : n < 2 ^ 32) : (w32 n).toNat = n := by
  rw [w32, BitVec.toNat_ofNat, Nat.mod_eq_of_lt h]

theorem fld_w32 (hi lo n : Nat) (h : hi < 32) : fld hi lo (w32 n) = n / 2 ^ lo % 2 ^ (hi + 1 - lo) := by
  refine Nat.eq_of_testBit_eq fun k => ?_
  rw [fld_testBit, Nat.testBit_mod_two_pow, Nat.testBit_div_two_pow, w32, bit, BitVec.getLsbD_ofNat]
  by_cases hk : k < hi + 1 - lo
  · have : lo + k < 32 := by omega
    simp [hk, this, Nat.add_comm]
  · simp [hk]

end Sys2Proof.Machine
end

