-- ==== Sys2Proof/Laws/Sparse.lean ====
section
/-! SUPPORT. Sparse tables: a read after a write, and every operation keeps the canonical form. -/

namespace Sys2Proof.Machine

section
variable {V : Type}

@[simp] theorem sget_nil (d : Nat → V) (k : Nat) : sget d [] k = d k := rfl

theorem sget_cons (d : Nat → V) (k' : Nat) (v : V) (m : List (Nat × V)) (k : Nat) :
    sget d ((k', v) :: m) k = if k' = k then v else sget d m k := rfl

/-- A key reads what was put at it, and every other key reads as before. -/
theorem sget_sput (d : Nat → V) (k : Nat) (v : V) (m : List (Nat × V)) (k' : Nat) :
    sget d (sput k v m) k' = if k' = k then v else sget d m k' := by
  induction m with
  | nil => simp only [sput, sget, eq_comm]
  | cons e m ih =>
    obtain ⟨a, b⟩ := e
    simp only [sput]
    split
    · rename_i h
      rw [sget_cons, sget_cons, ih]
      by_cases h1 : a = k'
      · subst h1
        rw [if_pos rfl, if_pos rfl, if_neg (Nat.ne_of_lt h)]
      · rw [if_neg h1, if_neg h1]
    · split
      · rename_i h
        subst h
        rw [sget_cons, sget_cons]
        by_cases h1 : a = k'
        · rw [if_pos h1, if_pos h1.symm]
        · rw [if_neg h1, if_neg h1, if_neg (Ne.symm h1)]
      · rw [sget_cons]
        by_cases h1 : k = k'
        · rw [if_pos h1, if_pos h1.symm]
        · rw [if_neg h1, if_neg (Ne.symm h1)]

/-- What remains after a removal of keys: those read as the default, the others as before. -/
theorem sget_filter (d : Nat → V) (p : Nat → Bool) (m : List (Nat × V)) (k : Nat) :
    sget d (m.filter fun e => p e.1) k = if p k then sget d m k else d k := by
  induction m with
  | nil => simp [sget]
  | cons e m ih =>
    obtain ⟨a, b⟩ := e
    by_cases ha : p a = true
    · rw [List.filter_cons_of_pos (by simpa using ha), sget_cons, sget_cons, ih]
      by_cases h1 : a = k
      · subst h1
        rw [if_pos rfl, if_pos ha, if_pos rfl]
      · rw [if_neg h1, if_neg h1]
    · rw [List.filter_cons_of_neg (by simpa using ha), sget_cons, ih]
      by_cases h1 : a = k
      · subst h1
        rw [if_neg ha, if_neg ha]
      · rw [if_neg h1]

/-- A dropped key reads as the default, every other key as before. -/
theorem sget_sdrop (d : Nat → V) (p : Nat → Bool) (m : List (Nat × V)) (k : Nat) :
    sget d (sdrop p m) k = if p k then d k else sget d m k := by
  rw [sdrop, sget_filter d (fun k => !p k)]
  cases p k <;> rfl

/-- A read after a write: the key reads what was written, and every other key reads as before. -/
theorem sget_sset [DecidableEq V] (d : Nat → V) (m : List (Nat × V)) (k : Nat) (v : V) (k' : Nat) :
    sget d (sset d m k v) k' = if k' = k then v else sget d m k' := by
  unfold sset
  split
  · rename_i h
    have := sget_filter d (fun x => decide (x ≠ k)) m k'
    simp only [ne_eq, decide_not, Bool.not_eq_true', decide_eq_false_iff_not] at this ⊢
    rw [this]
    by_cases h1 : k' = k
    · subst h1
      simp [h]
    · simp [h1]
  · exact sget_sput d k v m k'

theorem sget_smod [DecidableEq V] (d : Nat → V) (m : List (Nat × V)) (k : Nat) (f : V → V) (k' : Nat) :
    sget d (smod d m k f) k' = if k' = k then f (sget d m k) else sget d m k' := sget_sset d m k _ k'

/-! ## The canonical form -/

theorem swf_cons [DecidableEq V] (d : Nat → V) (e : Nat × V) (m : List (Nat × V)) :
    swf d (e :: m) = true ↔ e.2 ≠ d e.1 ∧ (∀ x ∈ m, e.1 < x.1) ∧ swf d m = true := by
  obtain ⟨a, b⟩ := e
  simp [swf, and_assoc]

theorem mem_sput {k : Nat} {v : V} {m : List (Nat × V)} {e : Nat × V} (h : e ∈ sput k v m) :
    e = (k, v) ∨ e ∈ m := by
  induction m with
  | nil => simpa [sput] using h
  | cons x m ih =>
    obtain ⟨a, b⟩ := x
    simp only [sput] at h
    split at h
    · rcases List.mem_cons.1 h with h | h
      · exact .inr (h ▸ List.mem_cons_self)
      · exact (ih h).imp id (List.mem_cons_of_mem _)
    · split at h
      · rcases List.mem_cons.1 h with h | h
        · exact .inl h
        · exact .inr (List.mem_cons_of_mem _ h)
      · exact List.mem_cons.1 h

theorem sput_wf [DecidableEq V] {d : Nat → V} {k : Nat} {v : V} {m : List (Nat × V)} (hv : v ≠ d k)
    (h : swf d m = true) : swf d (sput k v m) = true := by
  induction m with
  | nil => simp [sput, swf, hv]
  | cons e m ih =>
    obtain ⟨a, b⟩ := e
    obtain ⟨h1, h2, h3⟩ := (swf_cons d _ m).1 h
    simp only [sput]
    split
    · rename_i hk
      refine (swf_cons d _ _).2 ⟨h1, fun x hx => ?_, ih h3⟩
      rcases mem_sput hx with rfl | hx
      · exact hk
      · exact h2 x hx
    · split
      · rename_i hk
        subst hk
        exact (swf_cons d _ _).2 ⟨hv, h2, h3⟩
      · rename_i hk hne
        have hlt : k < a := Nat.lt_of_le_of_ne (Nat.le_of_not_lt hk) (Ne.symm hne)
        refine (swf_cons d _ _).2 ⟨hv, fun x hx => ?_, h⟩
        rcases List.mem_cons.1 hx with rfl | hx
        · exact hlt
        · exact Nat.lt_trans hlt (h2 x hx)

theorem filter_wf [DecidableEq V] {d : Nat → V} (p : Nat × V → Bool) {m : List (Nat × V)} (h : swf d m = true) :
    swf d (m.filter p) = true := by
  induction m with
  | nil => rfl
  | cons e m ih =>
    obtain ⟨h1, h2, h3⟩ := (swf_cons d e m).1 h
    by_cases hp : p e = true
    · rw [List.filter_cons_of_pos hp]
      exact (swf_cons d _ _).2 ⟨h1, fun x hx => h2 x (List.mem_filter.1 hx).1, ih h3⟩
    · rw [List.filter_cons_of_neg hp]
      exact ih h3

theorem sset_wf [DecidableEq V] {d : Nat → V} {m : List (Nat × V)} (k : Nat) (v : V) (h : swf d m = true) :
    swf d (sset d m k v) = true := by
  unfold sset
  split
  · exact filter_wf _ h
  · rename_i hv
    exact sput_wf hv h

theorem smod_wf [DecidableEq V] {d : Nat → V} {m : List (Nat × V)} (k : Nat) (f : V → V) (h : swf d m = true) :
    swf d (smod d m k f) = true := sset_wf k _ h

theorem sdrop_wf [DecidableEq V] {d : Nat → V} {m : List (Nat × V)} (p : Nat → Bool) (h : swf d m = true) :
    swf d (sdrop p m) = true := filter_wf _ h

theorem foldl_sset_wf [DecidableEq V] {d : Nat → V} {α : Type} (key : α → Nat) (val : α → V) (l : List α)
    {m : List (Nat × V)} (h : swf d m = true) : swf d (l.foldl (fun m e => sset d m (key e) (val e)) m) = true := by
  induction l generalizing m with
  | nil => exact h
  | cons e l ih => exact ih (sset_wf _ _ h)

/-- Two tables of canonical form that read alike are equal. -/
theorem swf_ext [DecidableEq V] {d : Nat → V} {m n : List (Nat × V)} (hm : swf d m = true) (hn : swf d n = true)
    (h : ∀ k, sget d m k = sget d n k) : m = n := by
  have low : ∀ {l : List (Nat × V)} {k : Nat}, (∀ x ∈ l, k < x.1) → sget d l k = d k := by
    intro l k hl
    induction l with
    | nil => rfl
    | cons e l ih =>
      obtain ⟨a, b⟩ := e
      rw [sget_cons, if_neg (Nat.ne_of_gt (hl _ List.mem_cons_self))]
      exact ih fun x hx => hl x (List.mem_cons_of_mem _ hx)
  induction m generalizing n with
  | nil =>
    cases n with
    | nil => rfl
    | cons e n =>
      obtain ⟨h1, -, -⟩ := (swf_cons d e n).1 hn
      have := h e.1
      obtain ⟨a, b⟩ := e
      rw [sget_cons, if_pos rfl] at this
      exact absurd this.symm h1
  | cons e m ih =>
    obtain ⟨a, b⟩ := e
    obtain ⟨h1, h2, h3⟩ := (swf_cons d _ m).1 hm
    cases n with
    | nil =>
      have := h a
      rw [sget_cons, if_pos rfl] at this
      exact absurd this h1
    | cons e' n =>
      obtain ⟨a', b'⟩ := e'
      obtain ⟨g1, g2, g3⟩ := (swf_cons d _ n).1 hn
      have haa : a = a' := by
        rcases Nat.lt_trichotomy a a' with hlt | heq | hgt
        · have := h a
          rw [sget_cons, if_pos rfl, sget_cons, if_neg (Nat.ne_of_gt hlt), low fun x hx => Nat.lt_trans hlt (g2 x hx)] at this
          exact absurd this h1
        · exact heq
        · have := h a'
          rw [sget_cons, if_neg (Nat.ne_of_gt hgt), sget_cons, if_pos rfl, low fun x hx => Nat.lt_trans hgt (h2 x hx)] at this
          exact absurd this.symm g1
      subst haa
      have hb : b = b' := by simpa [sget_cons] using h a
      subst hb
      rw [ih h3 g3 fun k => ?_]
      by_cases hk : k = a
      · subst hk
        rw [low h2, low g2]
      · simpa [sget_cons, Ne.symm hk] using h k

end

end Sys2Proof.Machine
end

