-- ==== Sys2Proof/Laws/State.lean ====
section
/-! SUPPORT. The named updates of the state: each field after each update, and what a register reads after the updates
that leave the register file alone. -/

namespace Sys2Proof.Machine

@[simp] theorem State.wr_fields (s : State) (off : Nat) (w : Word) :
    ((s.wr off w).pending = s.pending) ∧ ((s.wr off w).now = s.now) ∧ ((s.wr off w).draws = s.draws) ∧
    ((s.wr off w).regs = sset regReset s.regs off w) ∧ ((s.wr off w).outbox = s.outbox) ∧
    ((s.wr off w).timers = s.timers) ∧ ((s.wr off w).evWait = s.evWait) ∧ ((s.wr off w).pmuNext = s.pmuNext) ∧
    ((s.wr off w).pwr = s.pwr) ∧ ((s.wr off w).lanes = s.lanes) ∧ ((s.wr off w).ports = s.ports) ∧
    ((s.wr off w).macs = s.macs) ∧ ((s.wr off w).mgmt = s.mgmt) ∧ ((s.wr off w).shadow = s.shadow) ∧
    ((s.wr off w).frames = s.frames) ∧ ((s.wr off w).copies = s.copies) ∧ ((s.wr off w).nextId = s.nextId) ∧
    ((s.wr off w).mesh = s.mesh) ∧ ((s.wr off w).adm = s.adm) ∧ ((s.wr off w).sched = s.sched) ∧
    ((s.wr off w).gates = s.gates) ∧ ((s.wr off w).time = s.time) ∧ ((s.wr off w).tel = s.tel) ∧
    ((s.wr off w).fabric = s.fabric) ∧ ((s.wr off w).assay = s.assay) ∧ ((s.wr off w).rings = s.rings) ∧
    ((s.wr off w).aug = s.aug) ∧ ((s.wr off w).augTurn = s.augTurn) ∧ ((s.wr off w).silt = s.silt) ∧
    ((s.wr off w).tilth = s.tilth) ∧ ((s.wr off w).harm = s.harm) ∧ ((s.wr off w).sec = s.sec) ∧
    ((s.wr off w).fates = s.fates) :=
  ⟨rfl, rfl, rfl, rfl, rfl, rfl, rfl, rfl, rfl, rfl, rfl, rfl, rfl, rfl, rfl, rfl,
    rfl, rfl, rfl, rfl, rfl, rfl, rfl, rfl, rfl, rfl, rfl, rfl, rfl, rfl, rfl, rfl, rfl⟩

@[simp] theorem State.emit_fields (s : State) (o : Output) :
    ((s.emit o).pending = s.pending) ∧ ((s.emit o).now = s.now) ∧ ((s.emit o).draws = s.draws) ∧
    ((s.emit o).regs = s.regs) ∧ ((s.emit o).outbox = o :: s.outbox) ∧ ((s.emit o).timers = s.timers) ∧
    ((s.emit o).evWait = s.evWait) ∧ ((s.emit o).pmuNext = s.pmuNext) ∧ ((s.emit o).pwr = s.pwr) ∧
    ((s.emit o).lanes = s.lanes) ∧ ((s.emit o).ports = s.ports) ∧ ((s.emit o).macs = s.macs) ∧
    ((s.emit o).mgmt = s.mgmt) ∧ ((s.emit o).shadow = s.shadow) ∧ ((s.emit o).frames = s.frames) ∧
    ((s.emit o).copies = s.copies) ∧ ((s.emit o).nextId = s.nextId) ∧ ((s.emit o).mesh = s.mesh) ∧
    ((s.emit o).adm = s.adm) ∧ ((s.emit o).sched = s.sched) ∧ ((s.emit o).gates = s.gates) ∧
    ((s.emit o).time = s.time) ∧ ((s.emit o).tel = s.tel) ∧ ((s.emit o).fabric = s.fabric) ∧
    ((s.emit o).assay = s.assay) ∧ ((s.emit o).rings = s.rings) ∧ ((s.emit o).aug = s.aug) ∧
    ((s.emit o).augTurn = s.augTurn) ∧ ((s.emit o).silt = s.silt) ∧ ((s.emit o).tilth = s.tilth) ∧
    ((s.emit o).harm = s.harm) ∧ ((s.emit o).sec = s.sec) ∧ ((s.emit o).fates = s.fates) :=
  ⟨rfl, rfl, rfl, rfl, rfl, rfl, rfl, rfl, rfl, rfl, rfl, rfl, rfl, rfl, rfl, rfl,
    rfl, rfl, rfl, rfl, rfl, rfl, rfl, rfl, rfl, rfl, rfl, rfl, rfl, rfl, rfl, rfl, rfl⟩

@[simp] theorem State.emit_rd (s : State) (o : Output) (x : Nat) : (s.emit o).rd x = s.rd x := rfl

@[simp] theorem State.stopTimer_fields (s : State) (t : Timer) :
    ((s.stopTimer t).pending = s.pending) ∧ ((s.stopTimer t).now = s.now) ∧ ((s.stopTimer t).draws = s.draws) ∧
    ((s.stopTimer t).regs = s.regs) ∧ ((s.stopTimer t).outbox = s.outbox) ∧
    ((s.stopTimer t).timers = s.timers.filter fun e => e.1 != t) ∧ ((s.stopTimer t).evWait = s.evWait) ∧
    ((s.stopTimer t).pmuNext = s.pmuNext) ∧ ((s.stopTimer t).pwr = s.pwr) ∧ ((s.stopTimer t).lanes = s.lanes) ∧
    ((s.stopTimer t).ports = s.ports) ∧ ((s.stopTimer t).macs = s.macs) ∧ ((s.stopTimer t).mgmt = s.mgmt) ∧
    ((s.stopTimer t).shadow = s.shadow) ∧ ((s.stopTimer t).frames = s.frames) ∧ ((s.stopTimer t).copies = s.copies) ∧
    ((s.stopTimer t).nextId = s.nextId) ∧ ((s.stopTimer t).mesh = s.mesh) ∧ ((s.stopTimer t).adm = s.adm) ∧
    ((s.stopTimer t).sched = s.sched) ∧ ((s.stopTimer t).gates = s.gates) ∧ ((s.stopTimer t).time = s.time) ∧
    ((s.stopTimer t).tel = s.tel) ∧ ((s.stopTimer t).fabric = s.fabric) ∧ ((s.stopTimer t).assay = s.assay) ∧
    ((s.stopTimer t).rings = s.rings) ∧ ((s.stopTimer t).aug = s.aug) ∧ ((s.stopTimer t).augTurn = s.augTurn) ∧
    ((s.stopTimer t).silt = s.silt) ∧ ((s.stopTimer t).tilth = s.tilth) ∧ ((s.stopTimer t).harm = s.harm) ∧
    ((s.stopTimer t).sec = s.sec) ∧ ((s.stopTimer t).fates = s.fates) :=
  ⟨rfl, rfl, rfl, rfl, rfl, rfl, rfl, rfl, rfl, rfl, rfl, rfl, rfl, rfl, rfl, rfl,
    rfl, rfl, rfl, rfl, rfl, rfl, rfl, rfl, rfl, rfl, rfl, rfl, rfl, rfl, rfl, rfl, rfl⟩

@[simp] theorem State.stopTimer_rd (s : State) (t : Timer) (x : Nat) : (s.stopTimer t).rd x = s.rd x := rfl

@[simp] theorem State.startTimer_fields (s : State) (t : Timer) (ns : Nat) :
    ((s.startTimer t ns).pending = s.pending) ∧ ((s.startTimer t ns).now = s.now) ∧
    ((s.startTimer t ns).draws = s.draws) ∧ ((s.startTimer t ns).regs = s.regs) ∧
    ((s.startTimer t ns).outbox = s.outbox) ∧
    ((s.startTimer t ns).timers = (t, ns) :: s.timers.filter fun e => e.1 != t) ∧
    ((s.startTimer t ns).evWait = s.evWait) ∧ ((s.startTimer t ns).pmuNext = s.pmuNext) ∧
    ((s.startTimer t ns).pwr = s.pwr) ∧ ((s.startTimer t ns).lanes = s.lanes) ∧
    ((s.startTimer t ns).ports = s.ports) ∧ ((s.startTimer t ns).macs = s.macs) ∧
    ((s.startTimer t ns).mgmt = s.mgmt) ∧ ((s.startTimer t ns).shadow = s.shadow) ∧
    ((s.startTimer t ns).frames = s.frames) ∧ ((s.startTimer t ns).copies = s.copies) ∧
    ((s.startTimer t ns).nextId = s.nextId) ∧ ((s.startTimer t ns).mesh = s.mesh) ∧
    ((s.startTimer t ns).adm = s.adm) ∧ ((s.startTimer t ns).sched = s.sched) ∧
    ((s.startTimer t ns).gates = s.gates) ∧ ((s.startTimer t ns).time = s.time) ∧ ((s.startTimer t ns).tel = s.tel) ∧
    ((s.startTimer t ns).fabric = s.fabric) ∧ ((s.startTimer t ns).assay = s.assay) ∧
    ((s.startTimer t ns).rings = s.rings) ∧ ((s.startTimer t ns).aug = s.aug) ∧
    ((s.startTimer t ns).augTurn = s.augTurn) ∧ ((s.startTimer t ns).silt = s.silt) ∧
    ((s.startTimer t ns).tilth = s.tilth) ∧ ((s.startTimer t ns).harm = s.harm) ∧ ((s.startTimer t ns).sec = s.sec) ∧
    ((s.startTimer t ns).fates = s.fates) :=
  ⟨rfl, rfl, rfl, rfl, rfl, rfl, rfl, rfl, rfl, rfl, rfl, rfl, rfl, rfl, rfl, rfl,
    rfl, rfl, rfl, rfl, rfl, rfl, rfl, rfl, rfl, rfl, rfl, rfl, rfl, rfl, rfl, rfl, rfl⟩

@[simp] theorem State.startTimer_rd (s : State) (t : Timer) (ns : Nat) (x : Nat) : (s.startTimer t ns).rd x = s.rd x := rfl

@[simp] theorem State.shadowSet_fields (s : State) (off : Nat) (v : Word) :
    ((s.shadowSet off v).pending = s.pending) ∧ ((s.shadowSet off v).now = s.now) ∧
    ((s.shadowSet off v).draws = s.draws) ∧ ((s.shadowSet off v).regs = s.regs) ∧
    ((s.shadowSet off v).outbox = s.outbox) ∧ ((s.shadowSet off v).timers = s.timers) ∧
    ((s.shadowSet off v).evWait = s.evWait) ∧ ((s.shadowSet off v).pmuNext = s.pmuNext) ∧
    ((s.shadowSet off v).pwr = s.pwr) ∧ ((s.shadowSet off v).lanes = s.lanes) ∧
    ((s.shadowSet off v).ports = s.ports) ∧ ((s.shadowSet off v).macs = s.macs) ∧
    ((s.shadowSet off v).mgmt = s.mgmt) ∧ ((s.shadowSet off v).shadow = sset (fun _ => none) s.shadow off (some v)) ∧
    ((s.shadowSet off v).frames = s.frames) ∧ ((s.shadowSet off v).copies = s.copies) ∧
    ((s.shadowSet off v).nextId = s.nextId) ∧ ((s.shadowSet off v).mesh = s.mesh) ∧
    ((s.shadowSet off v).adm = s.adm) ∧ ((s.shadowSet off v).sched = s.sched) ∧
    ((s.shadowSet off v).gates = s.gates) ∧ ((s.shadowSet off v).time = s.time) ∧ ((s.shadowSet off v).tel = s.tel) ∧
    ((s.shadowSet off v).fabric = s.fabric) ∧ ((s.shadowSet off v).assay = s.assay) ∧
    ((s.shadowSet off v).rings = s.rings) ∧ ((s.shadowSet off v).aug = s.aug) ∧
    ((s.shadowSet off v).augTurn = s.augTurn) ∧ ((s.shadowSet off v).silt = s.silt) ∧
    ((s.shadowSet off v).tilth = s.tilth) ∧ ((s.shadowSet off v).harm = s.harm) ∧ ((s.shadowSet off v).sec = s.sec) ∧
    ((s.shadowSet off v).fates = s.fates) :=
  ⟨rfl, rfl, rfl, rfl, rfl, rfl, rfl, rfl, rfl, rfl, rfl, rfl, rfl, rfl, rfl, rfl,
    rfl, rfl, rfl, rfl, rfl, rfl, rfl, rfl, rfl, rfl, rfl, rfl, rfl, rfl, rfl, rfl, rfl⟩

@[simp] theorem State.shadowSet_rd (s : State) (off : Nat) (v : Word) (x : Nat) : (s.shadowSet off v).rd x = s.rd x := rfl

@[simp] theorem State.sendFate_fields (s : State) (send fate : Nat) :
    ((s.sendFate send fate).pending = s.pending) ∧ ((s.sendFate send fate).now = s.now) ∧
    ((s.sendFate send fate).draws = s.draws) ∧ ((s.sendFate send fate).regs = s.regs) ∧
    ((s.sendFate send fate).outbox = s.outbox) ∧ ((s.sendFate send fate).timers = s.timers) ∧
    ((s.sendFate send fate).evWait = s.evWait) ∧ ((s.sendFate send fate).pmuNext = s.pmuNext) ∧
    ((s.sendFate send fate).pwr = s.pwr) ∧ ((s.sendFate send fate).lanes = s.lanes) ∧
    ((s.sendFate send fate).ports = s.ports) ∧ ((s.sendFate send fate).macs = s.macs) ∧
    ((s.sendFate send fate).mgmt = s.mgmt) ∧ ((s.sendFate send fate).shadow = s.shadow) ∧
    ((s.sendFate send fate).frames = s.frames) ∧ ((s.sendFate send fate).copies = s.copies) ∧
    ((s.sendFate send fate).nextId = s.nextId) ∧ ((s.sendFate send fate).mesh = s.mesh) ∧
    ((s.sendFate send fate).adm = s.adm) ∧ ((s.sendFate send fate).sched = s.sched) ∧
    ((s.sendFate send fate).gates = s.gates) ∧ ((s.sendFate send fate).time = s.time) ∧
    ((s.sendFate send fate).tel = s.tel) ∧ ((s.sendFate send fate).fabric = s.fabric) ∧
    ((s.sendFate send fate).assay = s.assay) ∧ ((s.sendFate send fate).rings = s.rings) ∧
    ((s.sendFate send fate).aug = s.aug) ∧ ((s.sendFate send fate).augTurn = s.augTurn) ∧
    ((s.sendFate send fate).silt = s.silt) ∧ ((s.sendFate send fate).tilth = s.tilth) ∧
    ((s.sendFate send fate).harm = s.harm) ∧ ((s.sendFate send fate).sec = s.sec) ∧
    ((s.sendFate send fate).fates = s.fates ++ [(send, fate)]) :=
  ⟨rfl, rfl, rfl, rfl, rfl, rfl, rfl, rfl, rfl, rfl, rfl, rfl, rfl, rfl, rfl, rfl,
    rfl, rfl, rfl, rfl, rfl, rfl, rfl, rfl, rfl, rfl, rfl, rfl, rfl, rfl, rfl, rfl, rfl⟩

@[simp] theorem State.sendFate_rd (s : State) (send fate : Nat) (x : Nat) : (s.sendFate send fate).rd x = s.rd x := rfl

@[simp] theorem State.setIslAt_fields (s : State) (i : Nat) (v : IslandSt) :
    ((s.setIslAt i v).pending = s.pending) ∧ ((s.setIslAt i v).now = s.now) ∧ ((s.setIslAt i v).draws = s.draws) ∧
    ((s.setIslAt i v).regs = s.regs) ∧ ((s.setIslAt i v).outbox = s.outbox) ∧ ((s.setIslAt i v).timers = s.timers) ∧
    ((s.setIslAt i v).evWait = s.evWait) ∧ ((s.setIslAt i v).pmuNext = s.pmuNext) ∧
    ((s.setIslAt i v).pwr = ({ s with pwr := { s.pwr with isl := sset (fun _ => .off) s.pwr.isl i v } } : State).monSee.pwr) ∧
    ((s.setIslAt i v).lanes = s.lanes) ∧ ((s.setIslAt i v).ports = s.ports) ∧ ((s.setIslAt i v).macs = s.macs) ∧
    ((s.setIslAt i v).mgmt = s.mgmt) ∧ ((s.setIslAt i v).shadow = s.shadow) ∧ ((s.setIslAt i v).frames = s.frames) ∧
    ((s.setIslAt i v).copies = s.copies) ∧ ((s.setIslAt i v).nextId = s.nextId) ∧ ((s.setIslAt i v).mesh = s.mesh) ∧
    ((s.setIslAt i v).adm = s.adm) ∧ ((s.setIslAt i v).sched = s.sched) ∧ ((s.setIslAt i v).gates = s.gates) ∧
    ((s.setIslAt i v).time = s.time) ∧ ((s.setIslAt i v).tel = s.tel) ∧ ((s.setIslAt i v).fabric = s.fabric) ∧
    ((s.setIslAt i v).assay = s.assay) ∧ ((s.setIslAt i v).rings = s.rings) ∧ ((s.setIslAt i v).aug = s.aug) ∧
    ((s.setIslAt i v).augTurn = s.augTurn) ∧ ((s.setIslAt i v).silt = s.silt) ∧ ((s.setIslAt i v).tilth = s.tilth) ∧
    ((s.setIslAt i v).harm = s.harm) ∧ ((s.setIslAt i v).sec = s.sec) ∧ ((s.setIslAt i v).fates = s.fates) :=
  ⟨rfl, rfl, rfl, rfl, rfl, rfl, rfl, rfl, rfl, rfl, rfl, rfl, rfl, rfl, rfl, rfl,
    rfl, rfl, rfl, rfl, rfl, rfl, rfl, rfl, rfl, rfl, rfl, rfl, rfl, rfl, rfl, rfl, rfl⟩

@[simp] theorem State.setIslAt_rd (s : State) (i : Nat) (v : IslandSt) (x : Nat) : (s.setIslAt i v).rd x = s.rd x := rfl

@[simp] theorem State.laneMod_fields (s : State) (base : Nat) (f : LaneSt → LaneSt) :
    ((s.laneMod base f).pending = s.pending) ∧ ((s.laneMod base f).now = s.now) ∧
    ((s.laneMod base f).draws = s.draws) ∧ ((s.laneMod base f).regs = s.regs) ∧
    ((s.laneMod base f).outbox = s.outbox) ∧ ((s.laneMod base f).timers = s.timers) ∧
    ((s.laneMod base f).evWait = s.evWait) ∧ ((s.laneMod base f).pmuNext = s.pmuNext) ∧
    ((s.laneMod base f).pwr = s.pwr) ∧ ((s.laneMod base f).lanes = smod (fun _ => {}) s.lanes base f) ∧
    ((s.laneMod base f).ports = s.ports) ∧ ((s.laneMod base f).macs = s.macs) ∧ ((s.laneMod base f).mgmt = s.mgmt) ∧
    ((s.laneMod base f).shadow = s.shadow) ∧ ((s.laneMod base f).frames = s.frames) ∧
    ((s.laneMod base f).copies = s.copies) ∧ ((s.laneMod base f).nextId = s.nextId) ∧
    ((s.laneMod base f).mesh = s.mesh) ∧ ((s.laneMod base f).adm = s.adm) ∧ ((s.laneMod base f).sched = s.sched) ∧
    ((s.laneMod base f).gates = s.gates) ∧ ((s.laneMod base f).time = s.time) ∧ ((s.laneMod base f).tel = s.tel) ∧
    ((s.laneMod base f).fabric = s.fabric) ∧ ((s.laneMod base f).assay = s.assay) ∧
    ((s.laneMod base f).rings = s.rings) ∧ ((s.laneMod base f).aug = s.aug) ∧
    ((s.laneMod base f).augTurn = s.augTurn) ∧ ((s.laneMod base f).silt = s.silt) ∧
    ((s.laneMod base f).tilth = s.tilth) ∧ ((s.laneMod base f).harm = s.harm) ∧ ((s.laneMod base f).sec = s.sec) ∧
    ((s.laneMod base f).fates = s.fates) :=
  ⟨rfl, rfl, rfl, rfl, rfl, rfl, rfl, rfl, rfl, rfl, rfl, rfl, rfl, rfl, rfl, rfl,
    rfl, rfl, rfl, rfl, rfl, rfl, rfl, rfl, rfl, rfl, rfl, rfl, rfl, rfl, rfl, rfl, rfl⟩

@[simp] theorem State.laneMod_rd (s : State) (base : Nat) (f : LaneSt → LaneSt) (x : Nat) : (s.laneMod base f).rd x = s.rd x := rfl

@[simp] theorem State.portMod_fields (s : State) (b p : Nat) (f : PortSt → PortSt) :
    ((s.portMod b p f).pending = s.pending) ∧ ((s.portMod b p f).now = s.now) ∧ ((s.portMod b p f).draws = s.draws) ∧
    ((s.portMod b p f).regs = s.regs) ∧ ((s.portMod b p f).outbox = s.outbox) ∧
    ((s.portMod b p f).timers = s.timers) ∧ ((s.portMod b p f).evWait = s.evWait) ∧
    ((s.portMod b p f).pmuNext = s.pmuNext) ∧ ((s.portMod b p f).pwr = s.pwr) ∧ ((s.portMod b p f).lanes = s.lanes) ∧
    ((s.portMod b p f).ports = smod (fun _ => {}) s.ports (16 * b + p) f) ∧ ((s.portMod b p f).macs = s.macs) ∧
    ((s.portMod b p f).mgmt = s.mgmt) ∧ ((s.portMod b p f).shadow = s.shadow) ∧
    ((s.portMod b p f).frames = s.frames) ∧ ((s.portMod b p f).copies = s.copies) ∧
    ((s.portMod b p f).nextId = s.nextId) ∧ ((s.portMod b p f).mesh = s.mesh) ∧ ((s.portMod b p f).adm = s.adm) ∧
    ((s.portMod b p f).sched = s.sched) ∧ ((s.portMod b p f).gates = s.gates) ∧ ((s.portMod b p f).time = s.time) ∧
    ((s.portMod b p f).tel = s.tel) ∧ ((s.portMod b p f).fabric = s.fabric) ∧ ((s.portMod b p f).assay = s.assay) ∧
    ((s.portMod b p f).rings = s.rings) ∧ ((s.portMod b p f).aug = s.aug) ∧ ((s.portMod b p f).augTurn = s.augTurn) ∧
    ((s.portMod b p f).silt = s.silt) ∧ ((s.portMod b p f).tilth = s.tilth) ∧ ((s.portMod b p f).harm = s.harm) ∧
    ((s.portMod b p f).sec = s.sec) ∧ ((s.portMod b p f).fates = s.fates) :=
  ⟨rfl, rfl, rfl, rfl, rfl, rfl, rfl, rfl, rfl, rfl, rfl, rfl, rfl, rfl, rfl, rfl,
    rfl, rfl, rfl, rfl, rfl, rfl, rfl, rfl, rfl, rfl, rfl, rfl, rfl, rfl, rfl, rfl, rfl⟩

@[simp] theorem State.portMod_rd (s : State) (b p : Nat) (f : PortSt → PortSt) (x : Nat) : (s.portMod b p f).rd x = s.rd x := rfl

@[simp] theorem State.macMod_fields (s : State) (m : Nat) (f : MacSt → MacSt) :
    ((s.macMod m f).pending = s.pending) ∧ ((s.macMod m f).now = s.now) ∧ ((s.macMod m f).draws = s.draws) ∧
    ((s.macMod m f).regs = s.regs) ∧ ((s.macMod m f).outbox = s.outbox) ∧ ((s.macMod m f).timers = s.timers) ∧
    ((s.macMod m f).evWait = s.evWait) ∧ ((s.macMod m f).pmuNext = s.pmuNext) ∧ ((s.macMod m f).pwr = s.pwr) ∧
    ((s.macMod m f).lanes = s.lanes) ∧ ((s.macMod m f).ports = s.ports) ∧
    ((s.macMod m f).macs = smod (fun _ => {}) s.macs m f) ∧ ((s.macMod m f).mgmt = s.mgmt) ∧
    ((s.macMod m f).shadow = s.shadow) ∧ ((s.macMod m f).frames = s.frames) ∧ ((s.macMod m f).copies = s.copies) ∧
    ((s.macMod m f).nextId = s.nextId) ∧ ((s.macMod m f).mesh = s.mesh) ∧ ((s.macMod m f).adm = s.adm) ∧
    ((s.macMod m f).sched = s.sched) ∧ ((s.macMod m f).gates = s.gates) ∧ ((s.macMod m f).time = s.time) ∧
    ((s.macMod m f).tel = s.tel) ∧ ((s.macMod m f).fabric = s.fabric) ∧ ((s.macMod m f).assay = s.assay) ∧
    ((s.macMod m f).rings = s.rings) ∧ ((s.macMod m f).aug = s.aug) ∧ ((s.macMod m f).augTurn = s.augTurn) ∧
    ((s.macMod m f).silt = s.silt) ∧ ((s.macMod m f).tilth = s.tilth) ∧ ((s.macMod m f).harm = s.harm) ∧
    ((s.macMod m f).sec = s.sec) ∧ ((s.macMod m f).fates = s.fates) :=
  ⟨rfl, rfl, rfl, rfl, rfl, rfl, rfl, rfl, rfl, rfl, rfl, rfl, rfl, rfl, rfl, rfl,
    rfl, rfl, rfl, rfl, rfl, rfl, rfl, rfl, rfl, rfl, rfl, rfl, rfl, rfl, rfl, rfl, rfl⟩

@[simp] theorem State.macMod_rd (s : State) (m : Nat) (f : MacSt → MacSt) (x : Nat) : (s.macMod m f).rd x = s.rd x := rfl

@[simp] theorem State.mgmtMod_fields (s : State) (f : MgmtSt → MgmtSt) :
    ((s.mgmtMod f).pending = s.pending) ∧ ((s.mgmtMod f).now = s.now) ∧ ((s.mgmtMod f).draws = s.draws) ∧
    ((s.mgmtMod f).regs = s.regs) ∧ ((s.mgmtMod f).outbox = s.outbox) ∧ ((s.mgmtMod f).timers = s.timers) ∧
    ((s.mgmtMod f).evWait = s.evWait) ∧ ((s.mgmtMod f).pmuNext = s.pmuNext) ∧ ((s.mgmtMod f).pwr = s.pwr) ∧
    ((s.mgmtMod f).lanes = s.lanes) ∧ ((s.mgmtMod f).ports = s.ports) ∧ ((s.mgmtMod f).macs = s.macs) ∧
    ((s.mgmtMod f).mgmt = f s.mgmt) ∧ ((s.mgmtMod f).shadow = s.shadow) ∧ ((s.mgmtMod f).frames = s.frames) ∧
    ((s.mgmtMod f).copies = s.copies) ∧ ((s.mgmtMod f).nextId = s.nextId) ∧ ((s.mgmtMod f).mesh = s.mesh) ∧
    ((s.mgmtMod f).adm = s.adm) ∧ ((s.mgmtMod f).sched = s.sched) ∧ ((s.mgmtMod f).gates = s.gates) ∧
    ((s.mgmtMod f).time = s.time) ∧ ((s.mgmtMod f).tel = s.tel) ∧ ((s.mgmtMod f).fabric = s.fabric) ∧
    ((s.mgmtMod f).assay = s.assay) ∧ ((s.mgmtMod f).rings = s.rings) ∧ ((s.mgmtMod f).aug = s.aug) ∧
    ((s.mgmtMod f).augTurn = s.augTurn) ∧ ((s.mgmtMod f).silt = s.silt) ∧ ((s.mgmtMod f).tilth = s.tilth) ∧
    ((s.mgmtMod f).harm = s.harm) ∧ ((s.mgmtMod f).sec = s.sec) ∧ ((s.mgmtMod f).fates = s.fates) :=
  ⟨rfl, rfl, rfl, rfl, rfl, rfl, rfl, rfl, rfl, rfl, rfl, rfl, rfl, rfl, rfl, rfl,
    rfl, rfl, rfl, rfl, rfl, rfl, rfl, rfl, rfl, rfl, rfl, rfl, rfl, rfl, rfl, rfl, rfl⟩

@[simp] theorem State.mgmtMod_rd (s : State) (f : MgmtSt → MgmtSt) (x : Nat) : (s.mgmtMod f).rd x = s.rd x := rfl

@[simp] theorem State.setFrame_fields (s : State) (f : Nat) (fr : Option Frame) :
    ((s.setFrame f fr).pending = s.pending) ∧ ((s.setFrame f fr).now = s.now) ∧ ((s.setFrame f fr).draws = s.draws) ∧
    ((s.setFrame f fr).regs = s.regs) ∧ ((s.setFrame f fr).outbox = s.outbox) ∧
    ((s.setFrame f fr).timers = s.timers) ∧ ((s.setFrame f fr).evWait = s.evWait) ∧
    ((s.setFrame f fr).pmuNext = s.pmuNext) ∧ ((s.setFrame f fr).pwr = s.pwr) ∧ ((s.setFrame f fr).lanes = s.lanes) ∧
    ((s.setFrame f fr).ports = s.ports) ∧ ((s.setFrame f fr).macs = s.macs) ∧ ((s.setFrame f fr).mgmt = s.mgmt) ∧
    ((s.setFrame f fr).shadow = s.shadow) ∧ ((s.setFrame f fr).frames = sset (fun _ => none) s.frames f fr) ∧
    ((s.setFrame f fr).copies = s.copies) ∧ ((s.setFrame f fr).nextId = s.nextId) ∧
    ((s.setFrame f fr).mesh = s.mesh) ∧ ((s.setFrame f fr).adm = s.adm) ∧ ((s.setFrame f fr).sched = s.sched) ∧
    ((s.setFrame f fr).gates = s.gates) ∧ ((s.setFrame f fr).time = s.time) ∧ ((s.setFrame f fr).tel = s.tel) ∧
    ((s.setFrame f fr).fabric = s.fabric) ∧ ((s.setFrame f fr).assay = s.assay) ∧
    ((s.setFrame f fr).rings = s.rings) ∧ ((s.setFrame f fr).aug = s.aug) ∧ ((s.setFrame f fr).augTurn = s.augTurn) ∧
    ((s.setFrame f fr).silt = s.silt) ∧ ((s.setFrame f fr).tilth = s.tilth) ∧ ((s.setFrame f fr).harm = s.harm) ∧
    ((s.setFrame f fr).sec = s.sec) ∧ ((s.setFrame f fr).fates = s.fates) :=
  ⟨rfl, rfl, rfl, rfl, rfl, rfl, rfl, rfl, rfl, rfl, rfl, rfl, rfl, rfl, rfl, rfl,
    rfl, rfl, rfl, rfl, rfl, rfl, rfl, rfl, rfl, rfl, rfl, rfl, rfl, rfl, rfl, rfl, rfl⟩

@[simp] theorem State.setFrame_rd (s : State) (f : Nat) (fr : Option Frame) (x : Nat) : (s.setFrame f fr).rd x = s.rd x := rfl

@[simp] theorem State.setCopy_fields (s : State) (c : Nat) (cp : Option Copy) :
    ((s.setCopy c cp).pending = s.pending) ∧ ((s.setCopy c cp).now = s.now) ∧ ((s.setCopy c cp).draws = s.draws) ∧
    ((s.setCopy c cp).regs = s.regs) ∧ ((s.setCopy c cp).outbox = s.outbox) ∧ ((s.setCopy c cp).timers = s.timers) ∧
    ((s.setCopy c cp).evWait = s.evWait) ∧ ((s.setCopy c cp).pmuNext = s.pmuNext) ∧ ((s.setCopy c cp).pwr = s.pwr) ∧
    ((s.setCopy c cp).lanes = s.lanes) ∧ ((s.setCopy c cp).ports = s.ports) ∧ ((s.setCopy c cp).macs = s.macs) ∧
    ((s.setCopy c cp).mgmt = s.mgmt) ∧ ((s.setCopy c cp).shadow = s.shadow) ∧ ((s.setCopy c cp).frames = s.frames) ∧
    ((s.setCopy c cp).copies = sset (fun _ => none) s.copies c cp) ∧ ((s.setCopy c cp).nextId = s.nextId) ∧
    ((s.setCopy c cp).mesh = s.mesh) ∧ ((s.setCopy c cp).adm = s.adm) ∧ ((s.setCopy c cp).sched = s.sched) ∧
    ((s.setCopy c cp).gates = s.gates) ∧ ((s.setCopy c cp).time = s.time) ∧ ((s.setCopy c cp).tel = s.tel) ∧
    ((s.setCopy c cp).fabric = s.fabric) ∧ ((s.setCopy c cp).assay = s.assay) ∧ ((s.setCopy c cp).rings = s.rings) ∧
    ((s.setCopy c cp).aug = s.aug) ∧ ((s.setCopy c cp).augTurn = s.augTurn) ∧ ((s.setCopy c cp).silt = s.silt) ∧
    ((s.setCopy c cp).tilth = s.tilth) ∧ ((s.setCopy c cp).harm = s.harm) ∧ ((s.setCopy c cp).sec = s.sec) ∧
    ((s.setCopy c cp).fates = s.fates) :=
  ⟨rfl, rfl, rfl, rfl, rfl, rfl, rfl, rfl, rfl, rfl, rfl, rfl, rfl, rfl, rfl, rfl,
    rfl, rfl, rfl, rfl, rfl, rfl, rfl, rfl, rfl, rfl, rfl, rfl, rfl, rfl, rfl, rfl, rfl⟩

@[simp] theorem State.setCopy_rd (s : State) (c : Nat) (cp : Option Copy) (x : Nat) : (s.setCopy c cp).rd x = s.rd x := rfl

@[simp] theorem State.meshMod_fields (s : State) (f : Mesh → Mesh) :
    ((s.meshMod f).pending = s.pending) ∧ ((s.meshMod f).now = s.now) ∧ ((s.meshMod f).draws = s.draws) ∧
    ((s.meshMod f).regs = s.regs) ∧ ((s.meshMod f).outbox = s.outbox) ∧ ((s.meshMod f).timers = s.timers) ∧
    ((s.meshMod f).evWait = s.evWait) ∧ ((s.meshMod f).pmuNext = s.pmuNext) ∧ ((s.meshMod f).pwr = s.pwr) ∧
    ((s.meshMod f).lanes = s.lanes) ∧ ((s.meshMod f).ports = s.ports) ∧ ((s.meshMod f).macs = s.macs) ∧
    ((s.meshMod f).mgmt = s.mgmt) ∧ ((s.meshMod f).shadow = s.shadow) ∧ ((s.meshMod f).frames = s.frames) ∧
    ((s.meshMod f).copies = s.copies) ∧ ((s.meshMod f).nextId = s.nextId) ∧ ((s.meshMod f).mesh = f s.mesh) ∧
    ((s.meshMod f).adm = s.adm) ∧ ((s.meshMod f).sched = s.sched) ∧ ((s.meshMod f).gates = s.gates) ∧
    ((s.meshMod f).time = s.time) ∧ ((s.meshMod f).tel = s.tel) ∧ ((s.meshMod f).fabric = s.fabric) ∧
    ((s.meshMod f).assay = s.assay) ∧ ((s.meshMod f).rings = s.rings) ∧ ((s.meshMod f).aug = s.aug) ∧
    ((s.meshMod f).augTurn = s.augTurn) ∧ ((s.meshMod f).silt = s.silt) ∧ ((s.meshMod f).tilth = s.tilth) ∧
    ((s.meshMod f).harm = s.harm) ∧ ((s.meshMod f).sec = s.sec) ∧ ((s.meshMod f).fates = s.fates) :=
  ⟨rfl, rfl, rfl, rfl, rfl, rfl, rfl, rfl, rfl, rfl, rfl, rfl, rfl, rfl, rfl, rfl,
    rfl, rfl, rfl, rfl, rfl, rfl, rfl, rfl, rfl, rfl, rfl, rfl, rfl, rfl, rfl, rfl, rfl⟩

@[simp] theorem State.meshMod_rd (s : State) (f : Mesh → Mesh) (x : Nat) : (s.meshMod f).rd x = s.rd x := rfl

@[simp] theorem State.admMod_fields (s : State) (f : Adm → Adm) :
    ((s.admMod f).pending = s.pending) ∧ ((s.admMod f).now = s.now) ∧ ((s.admMod f).draws = s.draws) ∧
    ((s.admMod f).regs = s.regs) ∧ ((s.admMod f).outbox = s.outbox) ∧ ((s.admMod f).timers = s.timers) ∧
    ((s.admMod f).evWait = s.evWait) ∧ ((s.admMod f).pmuNext = s.pmuNext) ∧ ((s.admMod f).pwr = s.pwr) ∧
    ((s.admMod f).lanes = s.lanes) ∧ ((s.admMod f).ports = s.ports) ∧ ((s.admMod f).macs = s.macs) ∧
    ((s.admMod f).mgmt = s.mgmt) ∧ ((s.admMod f).shadow = s.shadow) ∧ ((s.admMod f).frames = s.frames) ∧
    ((s.admMod f).copies = s.copies) ∧ ((s.admMod f).nextId = s.nextId) ∧ ((s.admMod f).mesh = s.mesh) ∧
    ((s.admMod f).adm = f s.adm) ∧ ((s.admMod f).sched = s.sched) ∧ ((s.admMod f).gates = s.gates) ∧
    ((s.admMod f).time = s.time) ∧ ((s.admMod f).tel = s.tel) ∧ ((s.admMod f).fabric = s.fabric) ∧
    ((s.admMod f).assay = s.assay) ∧ ((s.admMod f).rings = s.rings) ∧ ((s.admMod f).aug = s.aug) ∧
    ((s.admMod f).augTurn = s.augTurn) ∧ ((s.admMod f).silt = s.silt) ∧ ((s.admMod f).tilth = s.tilth) ∧
    ((s.admMod f).harm = s.harm) ∧ ((s.admMod f).sec = s.sec) ∧ ((s.admMod f).fates = s.fates) :=
  ⟨rfl, rfl, rfl, rfl, rfl, rfl, rfl, rfl, rfl, rfl, rfl, rfl, rfl, rfl, rfl, rfl,
    rfl, rfl, rfl, rfl, rfl, rfl, rfl, rfl, rfl, rfl, rfl, rfl, rfl, rfl, rfl, rfl, rfl⟩

@[simp] theorem State.admMod_rd (s : State) (f : Adm → Adm) (x : Nat) : (s.admMod f).rd x = s.rd x := rfl

@[simp] theorem State.setMeter_fields (s : State) (id : Nat) (m : Meter) :
    ((s.setMeter id m).pending = s.pending) ∧ ((s.setMeter id m).now = s.now) ∧ ((s.setMeter id m).draws = s.draws) ∧
    ((s.setMeter id m).regs = s.regs) ∧ ((s.setMeter id m).outbox = s.outbox) ∧
    ((s.setMeter id m).timers = s.timers) ∧ ((s.setMeter id m).evWait = s.evWait) ∧
    ((s.setMeter id m).pmuNext = s.pmuNext) ∧ ((s.setMeter id m).pwr = s.pwr) ∧ ((s.setMeter id m).lanes = s.lanes) ∧
    ((s.setMeter id m).ports = s.ports) ∧ ((s.setMeter id m).macs = s.macs) ∧ ((s.setMeter id m).mgmt = s.mgmt) ∧
    ((s.setMeter id m).shadow = s.shadow) ∧ ((s.setMeter id m).frames = s.frames) ∧
    ((s.setMeter id m).copies = s.copies) ∧ ((s.setMeter id m).nextId = s.nextId) ∧
    ((s.setMeter id m).mesh = s.mesh) ∧
    ((s.setMeter id m).adm = { s.adm with meters := sset (fun _ => {}) s.adm.meters id m }) ∧
    ((s.setMeter id m).sched = s.sched) ∧ ((s.setMeter id m).gates = s.gates) ∧ ((s.setMeter id m).time = s.time) ∧
    ((s.setMeter id m).tel = s.tel) ∧ ((s.setMeter id m).fabric = s.fabric) ∧ ((s.setMeter id m).assay = s.assay) ∧
    ((s.setMeter id m).rings = s.rings) ∧ ((s.setMeter id m).aug = s.aug) ∧ ((s.setMeter id m).augTurn = s.augTurn) ∧
    ((s.setMeter id m).silt = s.silt) ∧ ((s.setMeter id m).tilth = s.tilth) ∧ ((s.setMeter id m).harm = s.harm) ∧
    ((s.setMeter id m).sec = s.sec) ∧ ((s.setMeter id m).fates = s.fates) :=
  ⟨rfl, rfl, rfl, rfl, rfl, rfl, rfl, rfl, rfl, rfl, rfl, rfl, rfl, rfl, rfl, rfl,
    rfl, rfl, rfl, rfl, rfl, rfl, rfl, rfl, rfl, rfl, rfl, rfl, rfl, rfl, rfl, rfl, rfl⟩

@[simp] theorem State.setMeter_rd (s : State) (id : Nat) (m : Meter) (x : Nat) : (s.setMeter id m).rd x = s.rd x := rfl

@[simp] theorem State.schedMod_fields (s : State) (f : Sched → Sched) :
    ((s.schedMod f).pending = s.pending) ∧ ((s.schedMod f).now = s.now) ∧ ((s.schedMod f).draws = s.draws) ∧
    ((s.schedMod f).regs = s.regs) ∧ ((s.schedMod f).outbox = s.outbox) ∧ ((s.schedMod f).timers = s.timers) ∧
    ((s.schedMod f).evWait = s.evWait) ∧ ((s.schedMod f).pmuNext = s.pmuNext) ∧ ((s.schedMod f).pwr = s.pwr) ∧
    ((s.schedMod f).lanes = s.lanes) ∧ ((s.schedMod f).ports = s.ports) ∧ ((s.schedMod f).macs = s.macs) ∧
    ((s.schedMod f).mgmt = s.mgmt) ∧ ((s.schedMod f).shadow = s.shadow) ∧ ((s.schedMod f).frames = s.frames) ∧
    ((s.schedMod f).copies = s.copies) ∧ ((s.schedMod f).nextId = s.nextId) ∧ ((s.schedMod f).mesh = s.mesh) ∧
    ((s.schedMod f).adm = s.adm) ∧ ((s.schedMod f).sched = f s.sched) ∧ ((s.schedMod f).gates = s.gates) ∧
    ((s.schedMod f).time = s.time) ∧ ((s.schedMod f).tel = s.tel) ∧ ((s.schedMod f).fabric = s.fabric) ∧
    ((s.schedMod f).assay = s.assay) ∧ ((s.schedMod f).rings = s.rings) ∧ ((s.schedMod f).aug = s.aug) ∧
    ((s.schedMod f).augTurn = s.augTurn) ∧ ((s.schedMod f).silt = s.silt) ∧ ((s.schedMod f).tilth = s.tilth) ∧
    ((s.schedMod f).harm = s.harm) ∧ ((s.schedMod f).sec = s.sec) ∧ ((s.schedMod f).fates = s.fates) :=
  ⟨rfl, rfl, rfl, rfl, rfl, rfl, rfl, rfl, rfl, rfl, rfl, rfl, rfl, rfl, rfl, rfl,
    rfl, rfl, rfl, rfl, rfl, rfl, rfl, rfl, rfl, rfl, rfl, rfl, rfl, rfl, rfl, rfl, rfl⟩

@[simp] theorem State.schedMod_rd (s : State) (f : Sched → Sched) (x : Nat) : (s.schedMod f).rd x = s.rd x := rfl

@[simp] theorem State.flowMod_fields (s : State) (f : Nat) (g : Flow → Flow) :
    ((s.flowMod f g).pending = s.pending) ∧ ((s.flowMod f g).now = s.now) ∧ ((s.flowMod f g).draws = s.draws) ∧
    ((s.flowMod f g).regs = s.regs) ∧ ((s.flowMod f g).outbox = s.outbox) ∧ ((s.flowMod f g).timers = s.timers) ∧
    ((s.flowMod f g).evWait = s.evWait) ∧ ((s.flowMod f g).pmuNext = s.pmuNext) ∧ ((s.flowMod f g).pwr = s.pwr) ∧
    ((s.flowMod f g).lanes = s.lanes) ∧ ((s.flowMod f g).ports = s.ports) ∧ ((s.flowMod f g).macs = s.macs) ∧
    ((s.flowMod f g).mgmt = s.mgmt) ∧ ((s.flowMod f g).shadow = s.shadow) ∧ ((s.flowMod f g).frames = s.frames) ∧
    ((s.flowMod f g).copies = s.copies) ∧ ((s.flowMod f g).nextId = s.nextId) ∧ ((s.flowMod f g).mesh = s.mesh) ∧
    ((s.flowMod f g).adm = s.adm) ∧
    ((s.flowMod f g).sched = { s.sched with flows := smod (fun _ => {}) s.sched.flows f g }) ∧
    ((s.flowMod f g).gates = s.gates) ∧ ((s.flowMod f g).time = s.time) ∧ ((s.flowMod f g).tel = s.tel) ∧
    ((s.flowMod f g).fabric = s.fabric) ∧ ((s.flowMod f g).assay = s.assay) ∧ ((s.flowMod f g).rings = s.rings) ∧
    ((s.flowMod f g).aug = s.aug) ∧ ((s.flowMod f g).augTurn = s.augTurn) ∧ ((s.flowMod f g).silt = s.silt) ∧
    ((s.flowMod f g).tilth = s.tilth) ∧ ((s.flowMod f g).harm = s.harm) ∧ ((s.flowMod f g).sec = s.sec) ∧
    ((s.flowMod f g).fates = s.fates) :=
  ⟨rfl, rfl, rfl, rfl, rfl, rfl, rfl, rfl, rfl, rfl, rfl, rfl, rfl, rfl, rfl, rfl,
    rfl, rfl, rfl, rfl, rfl, rfl, rfl, rfl, rfl, rfl, rfl, rfl, rfl, rfl, rfl, rfl, rfl⟩

@[simp] theorem State.flowMod_rd (s : State) (f : Nat) (g : Flow → Flow) (x : Nat) : (s.flowMod f g).rd x = s.rd x := rfl

@[simp] theorem State.clodMod_fields (s : State) (c : Nat) (g : Clod → Clod) :
    ((s.clodMod c g).pending = s.pending) ∧ ((s.clodMod c g).now = s.now) ∧ ((s.clodMod c g).draws = s.draws) ∧
    ((s.clodMod c g).regs = s.regs) ∧ ((s.clodMod c g).outbox = s.outbox) ∧ ((s.clodMod c g).timers = s.timers) ∧
    ((s.clodMod c g).evWait = s.evWait) ∧ ((s.clodMod c g).pmuNext = s.pmuNext) ∧ ((s.clodMod c g).pwr = s.pwr) ∧
    ((s.clodMod c g).lanes = s.lanes) ∧ ((s.clodMod c g).ports = s.ports) ∧ ((s.clodMod c g).macs = s.macs) ∧
    ((s.clodMod c g).mgmt = s.mgmt) ∧ ((s.clodMod c g).shadow = s.shadow) ∧ ((s.clodMod c g).frames = s.frames) ∧
    ((s.clodMod c g).copies = s.copies) ∧ ((s.clodMod c g).nextId = s.nextId) ∧ ((s.clodMod c g).mesh = s.mesh) ∧
    ((s.clodMod c g).adm = s.adm) ∧
    ((s.clodMod c g).sched = { s.sched with clods := smod (fun _ => {}) s.sched.clods c g }) ∧
    ((s.clodMod c g).gates = s.gates) ∧ ((s.clodMod c g).time = s.time) ∧ ((s.clodMod c g).tel = s.tel) ∧
    ((s.clodMod c g).fabric = s.fabric) ∧ ((s.clodMod c g).assay = s.assay) ∧ ((s.clodMod c g).rings = s.rings) ∧
    ((s.clodMod c g).aug = s.aug) ∧ ((s.clodMod c g).augTurn = s.augTurn) ∧ ((s.clodMod c g).silt = s.silt) ∧
    ((s.clodMod c g).tilth = s.tilth) ∧ ((s.clodMod c g).harm = s.harm) ∧ ((s.clodMod c g).sec = s.sec) ∧
    ((s.clodMod c g).fates = s.fates) :=
  ⟨rfl, rfl, rfl, rfl, rfl, rfl, rfl, rfl, rfl, rfl, rfl, rfl, rfl, rfl, rfl, rfl,
    rfl, rfl, rfl, rfl, rfl, rfl, rfl, rfl, rfl, rfl, rfl, rfl, rfl, rfl, rfl, rfl, rfl⟩

@[simp] theorem State.clodMod_rd (s : State) (c : Nat) (g : Clod → Clod) (x : Nat) : (s.clodMod c g).rd x = s.rd x := rfl

@[simp] theorem State.gatesMod_fields (s : State) (f : Gates → Gates) :
    ((s.gatesMod f).pending = s.pending) ∧ ((s.gatesMod f).now = s.now) ∧ ((s.gatesMod f).draws = s.draws) ∧
    ((s.gatesMod f).regs = s.regs) ∧ ((s.gatesMod f).outbox = s.outbox) ∧ ((s.gatesMod f).timers = s.timers) ∧
    ((s.gatesMod f).evWait = s.evWait) ∧ ((s.gatesMod f).pmuNext = s.pmuNext) ∧ ((s.gatesMod f).pwr = s.pwr) ∧
    ((s.gatesMod f).lanes = s.lanes) ∧ ((s.gatesMod f).ports = s.ports) ∧ ((s.gatesMod f).macs = s.macs) ∧
    ((s.gatesMod f).mgmt = s.mgmt) ∧ ((s.gatesMod f).shadow = s.shadow) ∧ ((s.gatesMod f).frames = s.frames) ∧
    ((s.gatesMod f).copies = s.copies) ∧ ((s.gatesMod f).nextId = s.nextId) ∧ ((s.gatesMod f).mesh = s.mesh) ∧
    ((s.gatesMod f).adm = s.adm) ∧ ((s.gatesMod f).sched = s.sched) ∧ ((s.gatesMod f).gates = f s.gates) ∧
    ((s.gatesMod f).time = s.time) ∧ ((s.gatesMod f).tel = s.tel) ∧ ((s.gatesMod f).fabric = s.fabric) ∧
    ((s.gatesMod f).assay = s.assay) ∧ ((s.gatesMod f).rings = s.rings) ∧ ((s.gatesMod f).aug = s.aug) ∧
    ((s.gatesMod f).augTurn = s.augTurn) ∧ ((s.gatesMod f).silt = s.silt) ∧ ((s.gatesMod f).tilth = s.tilth) ∧
    ((s.gatesMod f).harm = s.harm) ∧ ((s.gatesMod f).sec = s.sec) ∧ ((s.gatesMod f).fates = s.fates) :=
  ⟨rfl, rfl, rfl, rfl, rfl, rfl, rfl, rfl, rfl, rfl, rfl, rfl, rfl, rfl, rfl, rfl,
    rfl, rfl, rfl, rfl, rfl, rfl, rfl, rfl, rfl, rfl, rfl, rfl, rfl, rfl, rfl, rfl, rfl⟩

@[simp] theorem State.gatesMod_rd (s : State) (f : Gates → Gates) (x : Nat) : (s.gatesMod f).rd x = s.rd x := rfl

@[simp] theorem State.timeMod_fields (s : State) (f : TimeSt → TimeSt) :
    ((s.timeMod f).pending = s.pending) ∧ ((s.timeMod f).now = s.now) ∧ ((s.timeMod f).draws = s.draws) ∧
    ((s.timeMod f).regs = s.regs) ∧ ((s.timeMod f).outbox = s.outbox) ∧ ((s.timeMod f).timers = s.timers) ∧
    ((s.timeMod f).evWait = s.evWait) ∧ ((s.timeMod f).pmuNext = s.pmuNext) ∧ ((s.timeMod f).pwr = s.pwr) ∧
    ((s.timeMod f).lanes = s.lanes) ∧ ((s.timeMod f).ports = s.ports) ∧ ((s.timeMod f).macs = s.macs) ∧
    ((s.timeMod f).mgmt = s.mgmt) ∧ ((s.timeMod f).shadow = s.shadow) ∧ ((s.timeMod f).frames = s.frames) ∧
    ((s.timeMod f).copies = s.copies) ∧ ((s.timeMod f).nextId = s.nextId) ∧ ((s.timeMod f).mesh = s.mesh) ∧
    ((s.timeMod f).adm = s.adm) ∧ ((s.timeMod f).sched = s.sched) ∧ ((s.timeMod f).gates = s.gates) ∧
    ((s.timeMod f).time = f s.time) ∧ ((s.timeMod f).tel = s.tel) ∧ ((s.timeMod f).fabric = s.fabric) ∧
    ((s.timeMod f).assay = s.assay) ∧ ((s.timeMod f).rings = s.rings) ∧ ((s.timeMod f).aug = s.aug) ∧
    ((s.timeMod f).augTurn = s.augTurn) ∧ ((s.timeMod f).silt = s.silt) ∧ ((s.timeMod f).tilth = s.tilth) ∧
    ((s.timeMod f).harm = s.harm) ∧ ((s.timeMod f).sec = s.sec) ∧ ((s.timeMod f).fates = s.fates) :=
  ⟨rfl, rfl, rfl, rfl, rfl, rfl, rfl, rfl, rfl, rfl, rfl, rfl, rfl, rfl, rfl, rfl,
    rfl, rfl, rfl, rfl, rfl, rfl, rfl, rfl, rfl, rfl, rfl, rfl, rfl, rfl, rfl, rfl, rfl⟩

@[simp] theorem State.timeMod_rd (s : State) (f : TimeSt → TimeSt) (x : Nat) : (s.timeMod f).rd x = s.rd x := rfl

@[simp] theorem State.telMod_fields (s : State) (f : Tel → Tel) :
    ((s.telMod f).pending = s.pending) ∧ ((s.telMod f).now = s.now) ∧ ((s.telMod f).draws = s.draws) ∧
    ((s.telMod f).regs = s.regs) ∧ ((s.telMod f).outbox = s.outbox) ∧ ((s.telMod f).timers = s.timers) ∧
    ((s.telMod f).evWait = s.evWait) ∧ ((s.telMod f).pmuNext = s.pmuNext) ∧ ((s.telMod f).pwr = s.pwr) ∧
    ((s.telMod f).lanes = s.lanes) ∧ ((s.telMod f).ports = s.ports) ∧ ((s.telMod f).macs = s.macs) ∧
    ((s.telMod f).mgmt = s.mgmt) ∧ ((s.telMod f).shadow = s.shadow) ∧ ((s.telMod f).frames = s.frames) ∧
    ((s.telMod f).copies = s.copies) ∧ ((s.telMod f).nextId = s.nextId) ∧ ((s.telMod f).mesh = s.mesh) ∧
    ((s.telMod f).adm = s.adm) ∧ ((s.telMod f).sched = s.sched) ∧ ((s.telMod f).gates = s.gates) ∧
    ((s.telMod f).time = s.time) ∧ ((s.telMod f).tel = f s.tel) ∧ ((s.telMod f).fabric = s.fabric) ∧
    ((s.telMod f).assay = s.assay) ∧ ((s.telMod f).rings = s.rings) ∧ ((s.telMod f).aug = s.aug) ∧
    ((s.telMod f).augTurn = s.augTurn) ∧ ((s.telMod f).silt = s.silt) ∧ ((s.telMod f).tilth = s.tilth) ∧
    ((s.telMod f).harm = s.harm) ∧ ((s.telMod f).sec = s.sec) ∧ ((s.telMod f).fates = s.fates) :=
  ⟨rfl, rfl, rfl, rfl, rfl, rfl, rfl, rfl, rfl, rfl, rfl, rfl, rfl, rfl, rfl, rfl,
    rfl, rfl, rfl, rfl, rfl, rfl, rfl, rfl, rfl, rfl, rfl, rfl, rfl, rfl, rfl, rfl, rfl⟩

@[simp] theorem State.telMod_rd (s : State) (f : Tel → Tel) (x : Nat) : (s.telMod f).rd x = s.rd x := rfl

@[simp] theorem State.pulse_fields (s : State) (line : Nat) :
    ((s.pulse line).pending = s.pending) ∧ ((s.pulse line).now = s.now) ∧ ((s.pulse line).draws = s.draws) ∧
    ((s.pulse line).regs = s.regs) ∧ ((s.pulse line).outbox = s.outbox) ∧ ((s.pulse line).timers = s.timers) ∧
    ((s.pulse line).evWait = s.evWait) ∧ ((s.pulse line).pmuNext = s.pmuNext) ∧ ((s.pulse line).pwr = s.pwr) ∧
    ((s.pulse line).lanes = s.lanes) ∧ ((s.pulse line).ports = s.ports) ∧ ((s.pulse line).macs = s.macs) ∧
    ((s.pulse line).mgmt = s.mgmt) ∧ ((s.pulse line).shadow = s.shadow) ∧ ((s.pulse line).frames = s.frames) ∧
    ((s.pulse line).copies = s.copies) ∧ ((s.pulse line).nextId = s.nextId) ∧ ((s.pulse line).mesh = s.mesh) ∧
    ((s.pulse line).adm = s.adm) ∧ ((s.pulse line).sched = s.sched) ∧ ((s.pulse line).gates = s.gates) ∧
    ((s.pulse line).time = s.time) ∧ ((s.pulse line).tel = s.tel) ∧
    ((s.pulse line).fabric = smod (fun _ => 0) s.fabric line fun n => n + 1) ∧ ((s.pulse line).assay = s.assay) ∧
    ((s.pulse line).rings = s.rings) ∧ ((s.pulse line).aug = s.aug) ∧ ((s.pulse line).augTurn = s.augTurn) ∧
    ((s.pulse line).silt = s.silt) ∧ ((s.pulse line).tilth = s.tilth) ∧ ((s.pulse line).harm = s.harm) ∧
    ((s.pulse line).sec = s.sec) ∧ ((s.pulse line).fates = s.fates) :=
  ⟨rfl, rfl, rfl, rfl, rfl, rfl, rfl, rfl, rfl, rfl, rfl, rfl, rfl, rfl, rfl, rfl,
    rfl, rfl, rfl, rfl, rfl, rfl, rfl, rfl, rfl, rfl, rfl, rfl, rfl, rfl, rfl, rfl, rfl⟩

@[simp] theorem State.pulse_rd (s : State) (line : Nat) (x : Nat) : (s.pulse line).rd x = s.rd x := rfl

@[simp] theorem State.assayMod_fields (s : State) (f : Assay → Assay) :
    ((s.assayMod f).pending = s.pending) ∧ ((s.assayMod f).now = s.now) ∧ ((s.assayMod f).draws = s.draws) ∧
    ((s.assayMod f).regs = s.regs) ∧ ((s.assayMod f).outbox = s.outbox) ∧ ((s.assayMod f).timers = s.timers) ∧
    ((s.assayMod f).evWait = s.evWait) ∧ ((s.assayMod f).pmuNext = s.pmuNext) ∧ ((s.assayMod f).pwr = s.pwr) ∧
    ((s.assayMod f).lanes = s.lanes) ∧ ((s.assayMod f).ports = s.ports) ∧ ((s.assayMod f).macs = s.macs) ∧
    ((s.assayMod f).mgmt = s.mgmt) ∧ ((s.assayMod f).shadow = s.shadow) ∧ ((s.assayMod f).frames = s.frames) ∧
    ((s.assayMod f).copies = s.copies) ∧ ((s.assayMod f).nextId = s.nextId) ∧ ((s.assayMod f).mesh = s.mesh) ∧
    ((s.assayMod f).adm = s.adm) ∧ ((s.assayMod f).sched = s.sched) ∧ ((s.assayMod f).gates = s.gates) ∧
    ((s.assayMod f).time = s.time) ∧ ((s.assayMod f).tel = s.tel) ∧ ((s.assayMod f).fabric = s.fabric) ∧
    ((s.assayMod f).assay = f s.assay) ∧ ((s.assayMod f).rings = s.rings) ∧ ((s.assayMod f).aug = s.aug) ∧
    ((s.assayMod f).augTurn = s.augTurn) ∧ ((s.assayMod f).silt = s.silt) ∧ ((s.assayMod f).tilth = s.tilth) ∧
    ((s.assayMod f).harm = s.harm) ∧ ((s.assayMod f).sec = s.sec) ∧ ((s.assayMod f).fates = s.fates) :=
  ⟨rfl, rfl, rfl, rfl, rfl, rfl, rfl, rfl, rfl, rfl, rfl, rfl, rfl, rfl, rfl, rfl,
    rfl, rfl, rfl, rfl, rfl, rfl, rfl, rfl, rfl, rfl, rfl, rfl, rfl, rfl, rfl, rfl, rfl⟩

@[simp] theorem State.assayMod_rd (s : State) (f : Assay → Assay) (x : Nat) : (s.assayMod f).rd x = s.rd x := rfl

@[simp] theorem State.ringsMod_fields (s : State) (f : Rings → Rings) :
    ((s.ringsMod f).pending = s.pending) ∧ ((s.ringsMod f).now = s.now) ∧ ((s.ringsMod f).draws = s.draws) ∧
    ((s.ringsMod f).regs = s.regs) ∧ ((s.ringsMod f).outbox = s.outbox) ∧ ((s.ringsMod f).timers = s.timers) ∧
    ((s.ringsMod f).evWait = s.evWait) ∧ ((s.ringsMod f).pmuNext = s.pmuNext) ∧ ((s.ringsMod f).pwr = s.pwr) ∧
    ((s.ringsMod f).lanes = s.lanes) ∧ ((s.ringsMod f).ports = s.ports) ∧ ((s.ringsMod f).macs = s.macs) ∧
    ((s.ringsMod f).mgmt = s.mgmt) ∧ ((s.ringsMod f).shadow = s.shadow) ∧ ((s.ringsMod f).frames = s.frames) ∧
    ((s.ringsMod f).copies = s.copies) ∧ ((s.ringsMod f).nextId = s.nextId) ∧ ((s.ringsMod f).mesh = s.mesh) ∧
    ((s.ringsMod f).adm = s.adm) ∧ ((s.ringsMod f).sched = s.sched) ∧ ((s.ringsMod f).gates = s.gates) ∧
    ((s.ringsMod f).time = s.time) ∧ ((s.ringsMod f).tel = s.tel) ∧ ((s.ringsMod f).fabric = s.fabric) ∧
    ((s.ringsMod f).assay = s.assay) ∧ ((s.ringsMod f).rings = f s.rings) ∧ ((s.ringsMod f).aug = s.aug) ∧
    ((s.ringsMod f).augTurn = s.augTurn) ∧ ((s.ringsMod f).silt = s.silt) ∧ ((s.ringsMod f).tilth = s.tilth) ∧
    ((s.ringsMod f).harm = s.harm) ∧ ((s.ringsMod f).sec = s.sec) ∧ ((s.ringsMod f).fates = s.fates) :=
  ⟨rfl, rfl, rfl, rfl, rfl, rfl, rfl, rfl, rfl, rfl, rfl, rfl, rfl, rfl, rfl, rfl,
    rfl, rfl, rfl, rfl, rfl, rfl, rfl, rfl, rfl, rfl, rfl, rfl, rfl, rfl, rfl, rfl, rfl⟩

@[simp] theorem State.ringsMod_rd (s : State) (f : Rings → Rings) (x : Nat) : (s.ringsMod f).rd x = s.rd x := rfl

@[simp] theorem State.augMod_fields (s : State) (c : Nat) (f : AugCh → AugCh) :
    ((s.augMod c f).pending = s.pending) ∧ ((s.augMod c f).now = s.now) ∧ ((s.augMod c f).draws = s.draws) ∧
    ((s.augMod c f).regs = s.regs) ∧ ((s.augMod c f).outbox = s.outbox) ∧ ((s.augMod c f).timers = s.timers) ∧
    ((s.augMod c f).evWait = s.evWait) ∧ ((s.augMod c f).pmuNext = s.pmuNext) ∧ ((s.augMod c f).pwr = s.pwr) ∧
    ((s.augMod c f).lanes = s.lanes) ∧ ((s.augMod c f).ports = s.ports) ∧ ((s.augMod c f).macs = s.macs) ∧
    ((s.augMod c f).mgmt = s.mgmt) ∧ ((s.augMod c f).shadow = s.shadow) ∧ ((s.augMod c f).frames = s.frames) ∧
    ((s.augMod c f).copies = s.copies) ∧ ((s.augMod c f).nextId = s.nextId) ∧ ((s.augMod c f).mesh = s.mesh) ∧
    ((s.augMod c f).adm = s.adm) ∧ ((s.augMod c f).sched = s.sched) ∧ ((s.augMod c f).gates = s.gates) ∧
    ((s.augMod c f).time = s.time) ∧ ((s.augMod c f).tel = s.tel) ∧ ((s.augMod c f).fabric = s.fabric) ∧
    ((s.augMod c f).assay = s.assay) ∧ ((s.augMod c f).rings = s.rings) ∧
    ((s.augMod c f).aug = smod (fun _ => {}) s.aug c f) ∧ ((s.augMod c f).augTurn = s.augTurn) ∧
    ((s.augMod c f).silt = s.silt) ∧ ((s.augMod c f).tilth = s.tilth) ∧ ((s.augMod c f).harm = s.harm) ∧
    ((s.augMod c f).sec = s.sec) ∧ ((s.augMod c f).fates = s.fates) :=
  ⟨rfl, rfl, rfl, rfl, rfl, rfl, rfl, rfl, rfl, rfl, rfl, rfl, rfl, rfl, rfl, rfl,
    rfl, rfl, rfl, rfl, rfl, rfl, rfl, rfl, rfl, rfl, rfl, rfl, rfl, rfl, rfl, rfl, rfl⟩

@[simp] theorem State.augMod_rd (s : State) (c : Nat) (f : AugCh → AugCh) (x : Nat) : (s.augMod c f).rd x = s.rd x := rfl

@[simp] theorem State.siltMod_fields (s : State) (k : Nat) (f : SiltSt → SiltSt) :
    ((s.siltMod k f).pending = s.pending) ∧ ((s.siltMod k f).now = s.now) ∧ ((s.siltMod k f).draws = s.draws) ∧
    ((s.siltMod k f).regs = s.regs) ∧ ((s.siltMod k f).outbox = s.outbox) ∧ ((s.siltMod k f).timers = s.timers) ∧
    ((s.siltMod k f).evWait = s.evWait) ∧ ((s.siltMod k f).pmuNext = s.pmuNext) ∧ ((s.siltMod k f).pwr = s.pwr) ∧
    ((s.siltMod k f).lanes = s.lanes) ∧ ((s.siltMod k f).ports = s.ports) ∧ ((s.siltMod k f).macs = s.macs) ∧
    ((s.siltMod k f).mgmt = s.mgmt) ∧ ((s.siltMod k f).shadow = s.shadow) ∧ ((s.siltMod k f).frames = s.frames) ∧
    ((s.siltMod k f).copies = s.copies) ∧ ((s.siltMod k f).nextId = s.nextId) ∧ ((s.siltMod k f).mesh = s.mesh) ∧
    ((s.siltMod k f).adm = s.adm) ∧ ((s.siltMod k f).sched = s.sched) ∧ ((s.siltMod k f).gates = s.gates) ∧
    ((s.siltMod k f).time = s.time) ∧ ((s.siltMod k f).tel = s.tel) ∧ ((s.siltMod k f).fabric = s.fabric) ∧
    ((s.siltMod k f).assay = s.assay) ∧ ((s.siltMod k f).rings = s.rings) ∧ ((s.siltMod k f).aug = s.aug) ∧
    ((s.siltMod k f).augTurn = s.augTurn) ∧ ((s.siltMod k f).silt = smod (fun _ => {}) s.silt k f) ∧
    ((s.siltMod k f).tilth = s.tilth) ∧ ((s.siltMod k f).harm = s.harm) ∧ ((s.siltMod k f).sec = s.sec) ∧
    ((s.siltMod k f).fates = s.fates) :=
  ⟨rfl, rfl, rfl, rfl, rfl, rfl, rfl, rfl, rfl, rfl, rfl, rfl, rfl, rfl, rfl, rfl,
    rfl, rfl, rfl, rfl, rfl, rfl, rfl, rfl, rfl, rfl, rfl, rfl, rfl, rfl, rfl, rfl, rfl⟩

@[simp] theorem State.siltMod_rd (s : State) (k : Nat) (f : SiltSt → SiltSt) (x : Nat) : (s.siltMod k f).rd x = s.rd x := rfl

@[simp] theorem State.tilthMod_fields (s : State) (f : Tilth → Tilth) :
    ((s.tilthMod f).pending = s.pending) ∧ ((s.tilthMod f).now = s.now) ∧ ((s.tilthMod f).draws = s.draws) ∧
    ((s.tilthMod f).regs = s.regs) ∧ ((s.tilthMod f).outbox = s.outbox) ∧ ((s.tilthMod f).timers = s.timers) ∧
    ((s.tilthMod f).evWait = s.evWait) ∧ ((s.tilthMod f).pmuNext = s.pmuNext) ∧ ((s.tilthMod f).pwr = s.pwr) ∧
    ((s.tilthMod f).lanes = s.lanes) ∧ ((s.tilthMod f).ports = s.ports) ∧ ((s.tilthMod f).macs = s.macs) ∧
    ((s.tilthMod f).mgmt = s.mgmt) ∧ ((s.tilthMod f).shadow = s.shadow) ∧ ((s.tilthMod f).frames = s.frames) ∧
    ((s.tilthMod f).copies = s.copies) ∧ ((s.tilthMod f).nextId = s.nextId) ∧ ((s.tilthMod f).mesh = s.mesh) ∧
    ((s.tilthMod f).adm = s.adm) ∧ ((s.tilthMod f).sched = s.sched) ∧ ((s.tilthMod f).gates = s.gates) ∧
    ((s.tilthMod f).time = s.time) ∧ ((s.tilthMod f).tel = s.tel) ∧ ((s.tilthMod f).fabric = s.fabric) ∧
    ((s.tilthMod f).assay = s.assay) ∧ ((s.tilthMod f).rings = s.rings) ∧ ((s.tilthMod f).aug = s.aug) ∧
    ((s.tilthMod f).augTurn = s.augTurn) ∧ ((s.tilthMod f).silt = s.silt) ∧ ((s.tilthMod f).tilth = f s.tilth) ∧
    ((s.tilthMod f).harm = s.harm) ∧ ((s.tilthMod f).sec = s.sec) ∧ ((s.tilthMod f).fates = s.fates) :=
  ⟨rfl, rfl, rfl, rfl, rfl, rfl, rfl, rfl, rfl, rfl, rfl, rfl, rfl, rfl, rfl, rfl,
    rfl, rfl, rfl, rfl, rfl, rfl, rfl, rfl, rfl, rfl, rfl, rfl, rfl, rfl, rfl, rfl, rfl⟩

@[simp] theorem State.tilthMod_rd (s : State) (f : Tilth → Tilth) (x : Nat) : (s.tilthMod f).rd x = s.rd x := rfl

@[simp] theorem State.harmMod_fields (s : State) (f : Harm → Harm) :
    ((s.harmMod f).pending = s.pending) ∧ ((s.harmMod f).now = s.now) ∧ ((s.harmMod f).draws = s.draws) ∧
    ((s.harmMod f).regs = s.regs) ∧ ((s.harmMod f).outbox = s.outbox) ∧ ((s.harmMod f).timers = s.timers) ∧
    ((s.harmMod f).evWait = s.evWait) ∧ ((s.harmMod f).pmuNext = s.pmuNext) ∧ ((s.harmMod f).pwr = s.pwr) ∧
    ((s.harmMod f).lanes = s.lanes) ∧ ((s.harmMod f).ports = s.ports) ∧ ((s.harmMod f).macs = s.macs) ∧
    ((s.harmMod f).mgmt = s.mgmt) ∧ ((s.harmMod f).shadow = s.shadow) ∧ ((s.harmMod f).frames = s.frames) ∧
    ((s.harmMod f).copies = s.copies) ∧ ((s.harmMod f).nextId = s.nextId) ∧ ((s.harmMod f).mesh = s.mesh) ∧
    ((s.harmMod f).adm = s.adm) ∧ ((s.harmMod f).sched = s.sched) ∧ ((s.harmMod f).gates = s.gates) ∧
    ((s.harmMod f).time = s.time) ∧ ((s.harmMod f).tel = s.tel) ∧ ((s.harmMod f).fabric = s.fabric) ∧
    ((s.harmMod f).assay = s.assay) ∧ ((s.harmMod f).rings = s.rings) ∧ ((s.harmMod f).aug = s.aug) ∧
    ((s.harmMod f).augTurn = s.augTurn) ∧ ((s.harmMod f).silt = s.silt) ∧ ((s.harmMod f).tilth = s.tilth) ∧
    ((s.harmMod f).harm = f s.harm) ∧ ((s.harmMod f).sec = s.sec) ∧ ((s.harmMod f).fates = s.fates) :=
  ⟨rfl, rfl, rfl, rfl, rfl, rfl, rfl, rfl, rfl, rfl, rfl, rfl, rfl, rfl, rfl, rfl,
    rfl, rfl, rfl, rfl, rfl, rfl, rfl, rfl, rfl, rfl, rfl, rfl, rfl, rfl, rfl, rfl, rfl⟩

@[simp] theorem State.harmMod_rd (s : State) (f : Harm → Harm) (x : Nat) : (s.harmMod f).rd x = s.rd x := rfl

@[simp] theorem State.secMod_fields (s : State) (f : Sec → Sec) :
    ((s.secMod f).pending = s.pending) ∧ ((s.secMod f).now = s.now) ∧ ((s.secMod f).draws = s.draws) ∧
    ((s.secMod f).regs = s.regs) ∧ ((s.secMod f).outbox = s.outbox) ∧ ((s.secMod f).timers = s.timers) ∧
    ((s.secMod f).evWait = s.evWait) ∧ ((s.secMod f).pmuNext = s.pmuNext) ∧ ((s.secMod f).pwr = s.pwr) ∧
    ((s.secMod f).lanes = s.lanes) ∧ ((s.secMod f).ports = s.ports) ∧ ((s.secMod f).macs = s.macs) ∧
    ((s.secMod f).mgmt = s.mgmt) ∧ ((s.secMod f).shadow = s.shadow) ∧ ((s.secMod f).frames = s.frames) ∧
    ((s.secMod f).copies = s.copies) ∧ ((s.secMod f).nextId = s.nextId) ∧ ((s.secMod f).mesh = s.mesh) ∧
    ((s.secMod f).adm = s.adm) ∧ ((s.secMod f).sched = s.sched) ∧ ((s.secMod f).gates = s.gates) ∧
    ((s.secMod f).time = s.time) ∧ ((s.secMod f).tel = s.tel) ∧ ((s.secMod f).fabric = s.fabric) ∧
    ((s.secMod f).assay = s.assay) ∧ ((s.secMod f).rings = s.rings) ∧ ((s.secMod f).aug = s.aug) ∧
    ((s.secMod f).augTurn = s.augTurn) ∧ ((s.secMod f).silt = s.silt) ∧ ((s.secMod f).tilth = s.tilth) ∧
    ((s.secMod f).harm = s.harm) ∧ ((s.secMod f).sec = f s.sec) ∧ ((s.secMod f).fates = s.fates) :=
  ⟨rfl, rfl, rfl, rfl, rfl, rfl, rfl, rfl, rfl, rfl, rfl, rfl, rfl, rfl, rfl, rfl,
    rfl, rfl, rfl, rfl, rfl, rfl, rfl, rfl, rfl, rfl, rfl, rfl, rfl, rfl, rfl, rfl, rfl⟩

@[simp] theorem State.secMod_rd (s : State) (f : Sec → Sec) (x : Nat) : (s.secMod f).rd x = s.rd x := rfl

end Sys2Proof.Machine
end

