-- ==== Sys2Proof/Laws/Ops.lean ====
section
/-! SUPPORT. The named operations over the register file: what a register reads after each, and the fields each leaves
alone. -/

namespace Sys2Proof.Machine

/-! ## Reads of registers -/

theorem State.rd_of_regs {s t : State} (h : t.regs = s.regs) (x : Nat) : t.rd x = s.rd x := by
  unfold State.rd
  rw [h]

/-- A register reads what was written to it, and every other register reads as before. -/
theorem State.rd_wr (s : State) (off : Nat) (w : Word) (x : Nat) :
    (s.wr off w).rd x = if x = off then w else s.rd x := sget_sset _ _ _ _ _

@[simp] theorem State.rd_wr_same (s : State) (off : Nat) (w : Word) : (s.wr off w).rd off = w := by
  rw [State.rd_wr, if_pos rfl]

theorem State.rd_wr_ne (s : State) {off x : Nat} (w : Word) (h : x ≠ off) : (s.wr off w).rd x = s.rd x := by
  rw [State.rd_wr, if_neg h]

theorem State.rd_wrf (s : State) (off hi lo n x : Nat) :
    (s.wrf off hi lo n).rd x = if x = off then setFld hi lo n (s.rd off) else s.rd x := State.rd_wr _ _ _ _

theorem State.rd_wrb (s : State) (off i : Nat) (v : Bool) (x : Nat) :
    (s.wrb off i v).rd x = if x = off then setBit i v (s.rd off) else s.rd x := State.rd_wr _ _ _ _

/-- A field reads what the block sets it to, modulo its width. -/
theorem State.rdf_wrf (s : State) (off hi lo n : Nat) (h : lo ≤ hi) (h32 : hi < 32) :
    (s.wrf off hi lo n).rdf off hi lo = n % 2 ^ (hi + 1 - lo) := by
  rw [State.rdf, State.rd_wrf, if_pos rfl, fld_setFld hi lo n _ h h32]

/-- A bit reads what the block sets it to. -/
theorem State.rdb_wrb (s : State) (off i : Nat) (v : Bool) (h : i < 32) : (s.wrb off i v).rdb off i = v := by
  rw [State.rdb, State.rd_wrb, if_pos rfl, bit_setBit i i v _ h, if_pos rfl]

theorem State.rd_raiseEvt (s : State) (evt i x : Nat) :
    (s.raiseEvt evt i).rd x = if x = evt ∧ s.rdb evt i = false then setBit i true (s.rd evt) else s.rd x := by
  unfold State.raiseEvt
  split
  · rename_i h
    simp [h]
  · rename_i h
    dsimp only
    split
    · simp [State.rd_wrb, h]
    · refine (State.rd_of_regs (s := s.wrb evt i true) (by rfl) x).trans ?_
      simp [State.rd_wrb, h]

theorem State.rd_raiseEvt_ne (s : State) {evt x : Nat} (i : Nat) (h : x ≠ evt) : (s.raiseEvt evt i).rd x = s.rd x := by
  rw [State.rd_raiseEvt, if_neg fun c => h c.1]

/-- An event that is raised reads 1. -/
theorem State.rdb_raiseEvt (s : State) (evt i : Nat) (h : i < 32) : (s.raiseEvt evt i).rdb evt i = true := by
  rw [State.rdb, State.rd_raiseEvt]
  by_cases c : s.rdb evt i = true
  · rw [if_neg (by simp [c])]
    exact c
  · rw [if_pos (by simpa using c), bit_setBit i i true _ h, if_pos rfl]

/-- Raising an event clears none. -/
theorem State.rdb_raiseEvt_keeps (s : State) (evt i j : Nat) (h : j < 32) (c : s.rdb evt j = true) :
    (s.raiseEvt evt i).rdb evt j = true := by
  rw [State.rdb, State.rd_raiseEvt]
  split
  · rw [bit_setBit i j true _ h]
    split
    · rfl
    · exact c
  · exact c

theorem State.rd_setCnt_ne (s : State) {off x : Nat} (n : Nat) (h : x ≠ off) (g : x ≠ off + 4) :
    (s.setCnt off n).rd x = s.rd x := by
  unfold State.setCnt
  rw [State.rd_wr_ne _ _ g, State.rd_wr_ne _ _ h]

/-- A counter reads what it is set to, modulo 2^48. -/
theorem State.cnt_setCnt (s : State) (off n : Nat) : (s.setCnt off n).cnt off = n % cntMod := by
  unfold State.setCnt State.cnt State.rdf
  rw [State.rd_wr_same, State.rd_wr_ne _ _ (by omega : off ≠ off + 4), State.rd_wr_same, fld_w32 _ _ _ (by omega)]
  unfold w32 cntMod
  rw [BitVec.toNat_ofNat]
  omega

theorem State.cnt_setCnt_ne (s : State) {off x : Nat} (n : Nat) (h : x + 4 ≤ off ∨ off + 8 ≤ x) (h4 : x + 4 ≠ off)
    (g4 : x ≠ off + 4) : (s.setCnt off n).cnt x = s.cnt x := by
  unfold State.cnt State.rdf
  rw [State.rd_setCnt_ne s n (by omega) g4, State.rd_setCnt_ne s n h4 (by omega)]

theorem State.rd_addCnt_ne (s : State) {off evt x : Nat} (n wrapBit : Nat) (h : x ≠ off) (g : x ≠ off + 4)
    (e : x ≠ evt) : (s.addCnt off n evt wrapBit).rd x = s.rd x := by
  unfold State.addCnt
  dsimp only
  split
  · rw [State.rd_raiseEvt_ne _ _ e, State.rd_setCnt_ne _ _ h g]
  · exact State.rd_setCnt_ne _ _ h g

/-- A counter that adds n holds the sum modulo 2^48. -/
theorem State.cnt_addCnt (s : State) {off evt : Nat} (n wrapBit : Nat) (h : off ≠ evt) (g : off + 4 ≠ evt) :
    (s.addCnt off n evt wrapBit).cnt off = (s.cnt off + n) % cntMod := by
  unfold State.addCnt
  dsimp only
  split
  · rw [← State.cnt_setCnt s off (s.cnt off + n)]
    unfold State.cnt State.rdf
    rw [State.rd_raiseEvt_ne _ _ h, State.rd_raiseEvt_ne _ _ g]
  · exact State.cnt_setCnt _ _ _

/-- A counter that passes 2^48 - 1 raises its CNT_WRAP event. -/
theorem State.rdb_addCnt_wrap (s : State) {off evt : Nat} (n wrapBit : Nat) (h : wrapBit < 32)
    (w : cntMod ≤ s.cnt off + n) : (s.addCnt off n evt wrapBit).rdb evt wrapBit = true := by
  unfold State.addCnt
  rw [if_pos w]
  exact State.rdb_raiseEvt _ _ _ h

theorem State.rd_pmuLine_ne (s : State) (i : Nat) {x : Nat} (h : x ≠ offPmuOvf (i / 32)) : (s.pmuLine i).rd x = s.rd x := by
  unfold State.pmuLine
  dsimp only
  split
  · rw [State.rd_wrb, if_neg h]
  · exact State.rd_of_regs rfl _

/-- PMU occurrences change no register but PMU.OVF. -/
theorem State.rd_pmuOcc (s : State) (src pos : Nat) {x : Nat} (h : x < offPmuOvf 0 ∨ offPmuOvf 2 ≤ x) :
    (s.pmuOcc src pos).rd x = s.rd x := by
  unfold State.pmuOcc
  have hl : ∀ i ∈ List.range 64, x ≠ offPmuOvf (i / 32) := fun i hi => by
    have := List.mem_range.1 hi
    simp only [offPmuOvf] at h ⊢
    omega
  revert hl
  generalize List.range 64 = l
  intro hl
  induction l generalizing s with
  | nil => rfl
  | cons i l ih =>
    have hr : ∀ t : State, (List.foldl (fun (s : State) i =>
        let w := s.rd (offPmuLine i)
        if bit 31 w && fld 7 0 w == src && (16 ≤ fld 20 16 w || fld 20 16 w == pos) then s.pmuLine i else s) t l).rd x = t.rd x :=
      fun t => ih t fun j hj => hl j (List.mem_cons_of_mem _ hj)
    rw [List.foldl_cons, hr]
    dsimp only
    split
    · exact State.rd_pmuLine_ne s i (hl i List.mem_cons_self)
    · rfl

/-! ## The fields that register operations leave alone -/

@[simp] theorem State.wrf_fields (s : State) (off hi lo n : Nat) :
    ((s.wrf off hi lo n).pending = s.pending) ∧ ((s.wrf off hi lo n).now = s.now) ∧
    ((s.wrf off hi lo n).draws = s.draws) ∧ ((s.wrf off hi lo n).outbox = s.outbox) ∧
    ((s.wrf off hi lo n).timers = s.timers) ∧ ((s.wrf off hi lo n).evWait = s.evWait) ∧
    ((s.wrf off hi lo n).pmuNext = s.pmuNext) ∧ ((s.wrf off hi lo n).pwr = s.pwr) ∧
    ((s.wrf off hi lo n).lanes = s.lanes) ∧ ((s.wrf off hi lo n).ports = s.ports) ∧
    ((s.wrf off hi lo n).macs = s.macs) ∧ ((s.wrf off hi lo n).mgmt = s.mgmt) ∧
    ((s.wrf off hi lo n).shadow = s.shadow) ∧ ((s.wrf off hi lo n).frames = s.frames) ∧
    ((s.wrf off hi lo n).copies = s.copies) ∧ ((s.wrf off hi lo n).nextId = s.nextId) ∧
    ((s.wrf off hi lo n).mesh = s.mesh) ∧ ((s.wrf off hi lo n).adm = s.adm) ∧ ((s.wrf off hi lo n).sched = s.sched) ∧
    ((s.wrf off hi lo n).gates = s.gates) ∧ ((s.wrf off hi lo n).time = s.time) ∧ ((s.wrf off hi lo n).tel = s.tel) ∧
    ((s.wrf off hi lo n).fabric = s.fabric) ∧ ((s.wrf off hi lo n).assay = s.assay) ∧
    ((s.wrf off hi lo n).rings = s.rings) ∧ ((s.wrf off hi lo n).aug = s.aug) ∧
    ((s.wrf off hi lo n).augTurn = s.augTurn) ∧ ((s.wrf off hi lo n).silt = s.silt) ∧
    ((s.wrf off hi lo n).tilth = s.tilth) ∧ ((s.wrf off hi lo n).harm = s.harm) ∧ ((s.wrf off hi lo n).sec = s.sec) ∧
    ((s.wrf off hi lo n).fates = s.fates) :=
  ⟨rfl, rfl, rfl, rfl, rfl, rfl, rfl, rfl, rfl, rfl, rfl, rfl, rfl, rfl, rfl, rfl,
    rfl, rfl, rfl, rfl, rfl, rfl, rfl, rfl, rfl, rfl, rfl, rfl, rfl, rfl, rfl, rfl⟩

@[simp] theorem State.wrb_fields (s : State) (off i : Nat) (v : Bool) :
    ((s.wrb off i v).pending = s.pending) ∧ ((s.wrb off i v).now = s.now) ∧ ((s.wrb off i v).draws = s.draws) ∧
    ((s.wrb off i v).outbox = s.outbox) ∧ ((s.wrb off i v).timers = s.timers) ∧ ((s.wrb off i v).evWait = s.evWait) ∧
    ((s.wrb off i v).pmuNext = s.pmuNext) ∧ ((s.wrb off i v).pwr = s.pwr) ∧ ((s.wrb off i v).lanes = s.lanes) ∧
    ((s.wrb off i v).ports = s.ports) ∧ ((s.wrb off i v).macs = s.macs) ∧ ((s.wrb off i v).mgmt = s.mgmt) ∧
    ((s.wrb off i v).shadow = s.shadow) ∧ ((s.wrb off i v).frames = s.frames) ∧ ((s.wrb off i v).copies = s.copies) ∧
    ((s.wrb off i v).nextId = s.nextId) ∧ ((s.wrb off i v).mesh = s.mesh) ∧ ((s.wrb off i v).adm = s.adm) ∧
    ((s.wrb off i v).sched = s.sched) ∧ ((s.wrb off i v).gates = s.gates) ∧ ((s.wrb off i v).time = s.time) ∧
    ((s.wrb off i v).tel = s.tel) ∧ ((s.wrb off i v).fabric = s.fabric) ∧ ((s.wrb off i v).assay = s.assay) ∧
    ((s.wrb off i v).rings = s.rings) ∧ ((s.wrb off i v).aug = s.aug) ∧ ((s.wrb off i v).augTurn = s.augTurn) ∧
    ((s.wrb off i v).silt = s.silt) ∧ ((s.wrb off i v).tilth = s.tilth) ∧ ((s.wrb off i v).harm = s.harm) ∧
    ((s.wrb off i v).sec = s.sec) ∧ ((s.wrb off i v).fates = s.fates) :=
  ⟨rfl, rfl, rfl, rfl, rfl, rfl, rfl, rfl, rfl, rfl, rfl, rfl, rfl, rfl, rfl, rfl,
    rfl, rfl, rfl, rfl, rfl, rfl, rfl, rfl, rfl, rfl, rfl, rfl, rfl, rfl, rfl, rfl⟩

@[simp] theorem State.wr2_fields (s : State) (off n : Nat) :
    ((s.wr2 off n).pending = s.pending) ∧ ((s.wr2 off n).now = s.now) ∧ ((s.wr2 off n).draws = s.draws) ∧
    ((s.wr2 off n).outbox = s.outbox) ∧ ((s.wr2 off n).timers = s.timers) ∧ ((s.wr2 off n).evWait = s.evWait) ∧
    ((s.wr2 off n).pmuNext = s.pmuNext) ∧ ((s.wr2 off n).pwr = s.pwr) ∧ ((s.wr2 off n).lanes = s.lanes) ∧
    ((s.wr2 off n).ports = s.ports) ∧ ((s.wr2 off n).macs = s.macs) ∧ ((s.wr2 off n).mgmt = s.mgmt) ∧
    ((s.wr2 off n).shadow = s.shadow) ∧ ((s.wr2 off n).frames = s.frames) ∧ ((s.wr2 off n).copies = s.copies) ∧
    ((s.wr2 off n).nextId = s.nextId) ∧ ((s.wr2 off n).mesh = s.mesh) ∧ ((s.wr2 off n).adm = s.adm) ∧
    ((s.wr2 off n).sched = s.sched) ∧ ((s.wr2 off n).gates = s.gates) ∧ ((s.wr2 off n).time = s.time) ∧
    ((s.wr2 off n).tel = s.tel) ∧ ((s.wr2 off n).fabric = s.fabric) ∧ ((s.wr2 off n).assay = s.assay) ∧
    ((s.wr2 off n).rings = s.rings) ∧ ((s.wr2 off n).aug = s.aug) ∧ ((s.wr2 off n).augTurn = s.augTurn) ∧
    ((s.wr2 off n).silt = s.silt) ∧ ((s.wr2 off n).tilth = s.tilth) ∧ ((s.wr2 off n).harm = s.harm) ∧
    ((s.wr2 off n).sec = s.sec) ∧ ((s.wr2 off n).fates = s.fates) :=
  ⟨rfl, rfl, rfl, rfl, rfl, rfl, rfl, rfl, rfl, rfl, rfl, rfl, rfl, rfl, rfl, rfl,
    rfl, rfl, rfl, rfl, rfl, rfl, rfl, rfl, rfl, rfl, rfl, rfl, rfl, rfl, rfl, rfl⟩

@[simp] theorem State.setCnt_fields (s : State) (off n : Nat) :
    ((s.setCnt off n).pending = s.pending) ∧ ((s.setCnt off n).now = s.now) ∧ ((s.setCnt off n).draws = s.draws) ∧
    ((s.setCnt off n).outbox = s.outbox) ∧ ((s.setCnt off n).timers = s.timers) ∧
    ((s.setCnt off n).evWait = s.evWait) ∧ ((s.setCnt off n).pmuNext = s.pmuNext) ∧ ((s.setCnt off n).pwr = s.pwr) ∧
    ((s.setCnt off n).lanes = s.lanes) ∧ ((s.setCnt off n).ports = s.ports) ∧ ((s.setCnt off n).macs = s.macs) ∧
    ((s.setCnt off n).mgmt = s.mgmt) ∧ ((s.setCnt off n).shadow = s.shadow) ∧ ((s.setCnt off n).frames = s.frames) ∧
    ((s.setCnt off n).copies = s.copies) ∧ ((s.setCnt off n).nextId = s.nextId) ∧ ((s.setCnt off n).mesh = s.mesh) ∧
    ((s.setCnt off n).adm = s.adm) ∧ ((s.setCnt off n).sched = s.sched) ∧ ((s.setCnt off n).gates = s.gates) ∧
    ((s.setCnt off n).time = s.time) ∧ ((s.setCnt off n).tel = s.tel) ∧ ((s.setCnt off n).fabric = s.fabric) ∧
    ((s.setCnt off n).assay = s.assay) ∧ ((s.setCnt off n).rings = s.rings) ∧ ((s.setCnt off n).aug = s.aug) ∧
    ((s.setCnt off n).augTurn = s.augTurn) ∧ ((s.setCnt off n).silt = s.silt) ∧ ((s.setCnt off n).tilth = s.tilth) ∧
    ((s.setCnt off n).harm = s.harm) ∧ ((s.setCnt off n).sec = s.sec) ∧ ((s.setCnt off n).fates = s.fates) :=
  ⟨rfl, rfl, rfl, rfl, rfl, rfl, rfl, rfl, rfl, rfl, rfl, rfl, rfl, rfl, rfl, rfl,
    rfl, rfl, rfl, rfl, rfl, rfl, rfl, rfl, rfl, rfl, rfl, rfl, rfl, rfl, rfl, rfl⟩

@[simp] theorem State.wrs_fields (s : State) (off : Nat) (ws : List Word) :
    ((s.wrs off ws).pending = s.pending) ∧ ((s.wrs off ws).now = s.now) ∧ ((s.wrs off ws).draws = s.draws) ∧
    ((s.wrs off ws).outbox = s.outbox) ∧ ((s.wrs off ws).timers = s.timers) ∧ ((s.wrs off ws).evWait = s.evWait) ∧
    ((s.wrs off ws).pmuNext = s.pmuNext) ∧ ((s.wrs off ws).pwr = s.pwr) ∧ ((s.wrs off ws).lanes = s.lanes) ∧
    ((s.wrs off ws).ports = s.ports) ∧ ((s.wrs off ws).macs = s.macs) ∧ ((s.wrs off ws).mgmt = s.mgmt) ∧
    ((s.wrs off ws).shadow = s.shadow) ∧ ((s.wrs off ws).frames = s.frames) ∧ ((s.wrs off ws).copies = s.copies) ∧
    ((s.wrs off ws).nextId = s.nextId) ∧ ((s.wrs off ws).mesh = s.mesh) ∧ ((s.wrs off ws).adm = s.adm) ∧
    ((s.wrs off ws).sched = s.sched) ∧ ((s.wrs off ws).gates = s.gates) ∧ ((s.wrs off ws).time = s.time) ∧
    ((s.wrs off ws).tel = s.tel) ∧ ((s.wrs off ws).fabric = s.fabric) ∧ ((s.wrs off ws).assay = s.assay) ∧
    ((s.wrs off ws).rings = s.rings) ∧ ((s.wrs off ws).aug = s.aug) ∧ ((s.wrs off ws).augTurn = s.augTurn) ∧
    ((s.wrs off ws).silt = s.silt) ∧ ((s.wrs off ws).tilth = s.tilth) ∧ ((s.wrs off ws).harm = s.harm) ∧
    ((s.wrs off ws).sec = s.sec) ∧ ((s.wrs off ws).fates = s.fates) := by
  induction ws generalizing s off with
  | nil => and_intros <;> rfl
  | cons w ws ih => exact ih (s.wr off w) (off + 4)

@[simp] theorem State.raiseEvt_fields (s : State) (evt i : Nat) :
    ((s.raiseEvt evt i).pending = s.pending) ∧ ((s.raiseEvt evt i).now = s.now) ∧
    ((s.raiseEvt evt i).draws = s.draws) ∧ ((s.raiseEvt evt i).outbox = s.outbox) ∧
    ((s.raiseEvt evt i).timers = s.timers) ∧ ((s.raiseEvt evt i).pmuNext = s.pmuNext) ∧
    ((s.raiseEvt evt i).pwr = s.pwr) ∧ ((s.raiseEvt evt i).lanes = s.lanes) ∧ ((s.raiseEvt evt i).ports = s.ports) ∧
    ((s.raiseEvt evt i).macs = s.macs) ∧ ((s.raiseEvt evt i).mgmt = s.mgmt) ∧
    ((s.raiseEvt evt i).shadow = s.shadow) ∧ ((s.raiseEvt evt i).frames = s.frames) ∧
    ((s.raiseEvt evt i).copies = s.copies) ∧ ((s.raiseEvt evt i).nextId = s.nextId) ∧
    ((s.raiseEvt evt i).mesh = s.mesh) ∧ ((s.raiseEvt evt i).adm = s.adm) ∧ ((s.raiseEvt evt i).sched = s.sched) ∧
    ((s.raiseEvt evt i).gates = s.gates) ∧ ((s.raiseEvt evt i).time = s.time) ∧ ((s.raiseEvt evt i).tel = s.tel) ∧
    ((s.raiseEvt evt i).fabric = s.fabric) ∧ ((s.raiseEvt evt i).assay = s.assay) ∧
    ((s.raiseEvt evt i).rings = s.rings) ∧ ((s.raiseEvt evt i).aug = s.aug) ∧
    ((s.raiseEvt evt i).augTurn = s.augTurn) ∧ ((s.raiseEvt evt i).silt = s.silt) ∧
    ((s.raiseEvt evt i).tilth = s.tilth) ∧ ((s.raiseEvt evt i).harm = s.harm) ∧ ((s.raiseEvt evt i).sec = s.sec) ∧
    ((s.raiseEvt evt i).fates = s.fates) := by
  unfold State.raiseEvt
  split
  · simp
  · dsimp only
    split <;> simp

@[simp] theorem State.addCnt_fields (s : State) (off n evt wrapBit : Nat) :
    ((s.addCnt off n evt wrapBit).pending = s.pending) ∧ ((s.addCnt off n evt wrapBit).now = s.now) ∧
    ((s.addCnt off n evt wrapBit).draws = s.draws) ∧ ((s.addCnt off n evt wrapBit).outbox = s.outbox) ∧
    ((s.addCnt off n evt wrapBit).timers = s.timers) ∧ ((s.addCnt off n evt wrapBit).pmuNext = s.pmuNext) ∧
    ((s.addCnt off n evt wrapBit).pwr = s.pwr) ∧ ((s.addCnt off n evt wrapBit).lanes = s.lanes) ∧
    ((s.addCnt off n evt wrapBit).ports = s.ports) ∧ ((s.addCnt off n evt wrapBit).macs = s.macs) ∧
    ((s.addCnt off n evt wrapBit).mgmt = s.mgmt) ∧ ((s.addCnt off n evt wrapBit).shadow = s.shadow) ∧
    ((s.addCnt off n evt wrapBit).frames = s.frames) ∧ ((s.addCnt off n evt wrapBit).copies = s.copies) ∧
    ((s.addCnt off n evt wrapBit).nextId = s.nextId) ∧ ((s.addCnt off n evt wrapBit).mesh = s.mesh) ∧
    ((s.addCnt off n evt wrapBit).adm = s.adm) ∧ ((s.addCnt off n evt wrapBit).sched = s.sched) ∧
    ((s.addCnt off n evt wrapBit).gates = s.gates) ∧ ((s.addCnt off n evt wrapBit).time = s.time) ∧
    ((s.addCnt off n evt wrapBit).tel = s.tel) ∧ ((s.addCnt off n evt wrapBit).fabric = s.fabric) ∧
    ((s.addCnt off n evt wrapBit).assay = s.assay) ∧ ((s.addCnt off n evt wrapBit).rings = s.rings) ∧
    ((s.addCnt off n evt wrapBit).aug = s.aug) ∧ ((s.addCnt off n evt wrapBit).augTurn = s.augTurn) ∧
    ((s.addCnt off n evt wrapBit).silt = s.silt) ∧ ((s.addCnt off n evt wrapBit).tilth = s.tilth) ∧
    ((s.addCnt off n evt wrapBit).harm = s.harm) ∧ ((s.addCnt off n evt wrapBit).sec = s.sec) ∧
    ((s.addCnt off n evt wrapBit).fates = s.fates) := by
  unfold State.addCnt
  dsimp only
  split <;> simp

@[simp] theorem State.inc_fields (s : State) (off evt wrapBit : Nat) :
    ((s.inc off evt wrapBit).pending = s.pending) ∧ ((s.inc off evt wrapBit).now = s.now) ∧
    ((s.inc off evt wrapBit).draws = s.draws) ∧ ((s.inc off evt wrapBit).outbox = s.outbox) ∧
    ((s.inc off evt wrapBit).timers = s.timers) ∧ ((s.inc off evt wrapBit).pmuNext = s.pmuNext) ∧
    ((s.inc off evt wrapBit).pwr = s.pwr) ∧ ((s.inc off evt wrapBit).lanes = s.lanes) ∧
    ((s.inc off evt wrapBit).ports = s.ports) ∧ ((s.inc off evt wrapBit).macs = s.macs) ∧
    ((s.inc off evt wrapBit).mgmt = s.mgmt) ∧ ((s.inc off evt wrapBit).shadow = s.shadow) ∧
    ((s.inc off evt wrapBit).frames = s.frames) ∧ ((s.inc off evt wrapBit).copies = s.copies) ∧
    ((s.inc off evt wrapBit).nextId = s.nextId) ∧ ((s.inc off evt wrapBit).mesh = s.mesh) ∧
    ((s.inc off evt wrapBit).adm = s.adm) ∧ ((s.inc off evt wrapBit).sched = s.sched) ∧
    ((s.inc off evt wrapBit).gates = s.gates) ∧ ((s.inc off evt wrapBit).time = s.time) ∧
    ((s.inc off evt wrapBit).tel = s.tel) ∧ ((s.inc off evt wrapBit).fabric = s.fabric) ∧
    ((s.inc off evt wrapBit).assay = s.assay) ∧ ((s.inc off evt wrapBit).rings = s.rings) ∧
    ((s.inc off evt wrapBit).aug = s.aug) ∧ ((s.inc off evt wrapBit).augTurn = s.augTurn) ∧
    ((s.inc off evt wrapBit).silt = s.silt) ∧ ((s.inc off evt wrapBit).tilth = s.tilth) ∧
    ((s.inc off evt wrapBit).harm = s.harm) ∧ ((s.inc off evt wrapBit).sec = s.sec) ∧
    ((s.inc off evt wrapBit).fates = s.fates) :=
  State.addCnt_fields s off 1 evt wrapBit

@[simp] theorem State.dropTel_fields (s : State) (n cause : Nat) :
    ((s.dropTel n cause).pending = s.pending) ∧ ((s.dropTel n cause).now = s.now) ∧
    ((s.dropTel n cause).draws = s.draws) ∧ ((s.dropTel n cause).outbox = s.outbox) ∧
    ((s.dropTel n cause).timers = s.timers) ∧ ((s.dropTel n cause).pmuNext = s.pmuNext) ∧
    ((s.dropTel n cause).pwr = s.pwr) ∧ ((s.dropTel n cause).lanes = s.lanes) ∧
    ((s.dropTel n cause).ports = s.ports) ∧ ((s.dropTel n cause).macs = s.macs) ∧
    ((s.dropTel n cause).mgmt = s.mgmt) ∧ ((s.dropTel n cause).shadow = s.shadow) ∧
    ((s.dropTel n cause).frames = s.frames) ∧ ((s.dropTel n cause).copies = s.copies) ∧
    ((s.dropTel n cause).nextId = s.nextId) ∧ ((s.dropTel n cause).mesh = s.mesh) ∧
    ((s.dropTel n cause).adm = s.adm) ∧ ((s.dropTel n cause).sched = s.sched) ∧
    ((s.dropTel n cause).gates = s.gates) ∧ ((s.dropTel n cause).time = s.time) ∧ ((s.dropTel n cause).tel = s.tel) ∧
    ((s.dropTel n cause).fabric = s.fabric) ∧ ((s.dropTel n cause).assay = s.assay) ∧
    ((s.dropTel n cause).rings = s.rings) ∧ ((s.dropTel n cause).aug = s.aug) ∧
    ((s.dropTel n cause).augTurn = s.augTurn) ∧ ((s.dropTel n cause).silt = s.silt) ∧
    ((s.dropTel n cause).tilth = s.tilth) ∧ ((s.dropTel n cause).harm = s.harm) ∧ ((s.dropTel n cause).sec = s.sec) ∧
    ((s.dropTel n cause).fates = s.fates) :=
  State.inc_fields s _ _ _

@[simp] theorem State.statAt_fields (s : State) (cnt half wrap evt i n : Nat) :
    ((s.statAt cnt half wrap evt i n).pending = s.pending) ∧ ((s.statAt cnt half wrap evt i n).now = s.now) ∧
    ((s.statAt cnt half wrap evt i n).draws = s.draws) ∧ ((s.statAt cnt half wrap evt i n).outbox = s.outbox) ∧
    ((s.statAt cnt half wrap evt i n).timers = s.timers) ∧ ((s.statAt cnt half wrap evt i n).pmuNext = s.pmuNext) ∧
    ((s.statAt cnt half wrap evt i n).pwr = s.pwr) ∧ ((s.statAt cnt half wrap evt i n).lanes = s.lanes) ∧
    ((s.statAt cnt half wrap evt i n).ports = s.ports) ∧ ((s.statAt cnt half wrap evt i n).macs = s.macs) ∧
    ((s.statAt cnt half wrap evt i n).mgmt = s.mgmt) ∧ ((s.statAt cnt half wrap evt i n).shadow = s.shadow) ∧
    ((s.statAt cnt half wrap evt i n).frames = s.frames) ∧ ((s.statAt cnt half wrap evt i n).copies = s.copies) ∧
    ((s.statAt cnt half wrap evt i n).nextId = s.nextId) ∧ ((s.statAt cnt half wrap evt i n).mesh = s.mesh) ∧
    ((s.statAt cnt half wrap evt i n).adm = s.adm) ∧ ((s.statAt cnt half wrap evt i n).sched = s.sched) ∧
    ((s.statAt cnt half wrap evt i n).gates = s.gates) ∧ ((s.statAt cnt half wrap evt i n).time = s.time) ∧
    ((s.statAt cnt half wrap evt i n).tel = s.tel) ∧ ((s.statAt cnt half wrap evt i n).fabric = s.fabric) ∧
    ((s.statAt cnt half wrap evt i n).assay = s.assay) ∧ ((s.statAt cnt half wrap evt i n).rings = s.rings) ∧
    ((s.statAt cnt half wrap evt i n).aug = s.aug) ∧ ((s.statAt cnt half wrap evt i n).augTurn = s.augTurn) ∧
    ((s.statAt cnt half wrap evt i n).silt = s.silt) ∧ ((s.statAt cnt half wrap evt i n).tilth = s.tilth) ∧
    ((s.statAt cnt half wrap evt i n).harm = s.harm) ∧ ((s.statAt cnt half wrap evt i n).sec = s.sec) ∧
    ((s.statAt cnt half wrap evt i n).fates = s.fates) := by
  unfold State.statAt
  dsimp only
  split <;> split <;> simp

@[simp] theorem State.stat_fields (s : State) (b p i n : Nat) :
    ((s.stat b p i n).pending = s.pending) ∧ ((s.stat b p i n).now = s.now) ∧ ((s.stat b p i n).draws = s.draws) ∧
    ((s.stat b p i n).outbox = s.outbox) ∧ ((s.stat b p i n).timers = s.timers) ∧
    ((s.stat b p i n).pmuNext = s.pmuNext) ∧ ((s.stat b p i n).pwr = s.pwr) ∧ ((s.stat b p i n).lanes = s.lanes) ∧
    ((s.stat b p i n).ports = s.ports) ∧ ((s.stat b p i n).macs = s.macs) ∧ ((s.stat b p i n).mgmt = s.mgmt) ∧
    ((s.stat b p i n).shadow = s.shadow) ∧ ((s.stat b p i n).frames = s.frames) ∧
    ((s.stat b p i n).copies = s.copies) ∧ ((s.stat b p i n).nextId = s.nextId) ∧ ((s.stat b p i n).mesh = s.mesh) ∧
    ((s.stat b p i n).adm = s.adm) ∧ ((s.stat b p i n).sched = s.sched) ∧ ((s.stat b p i n).gates = s.gates) ∧
    ((s.stat b p i n).time = s.time) ∧ ((s.stat b p i n).tel = s.tel) ∧ ((s.stat b p i n).fabric = s.fabric) ∧
    ((s.stat b p i n).assay = s.assay) ∧ ((s.stat b p i n).rings = s.rings) ∧ ((s.stat b p i n).aug = s.aug) ∧
    ((s.stat b p i n).augTurn = s.augTurn) ∧ ((s.stat b p i n).silt = s.silt) ∧ ((s.stat b p i n).tilth = s.tilth) ∧
    ((s.stat b p i n).harm = s.harm) ∧ ((s.stat b p i n).sec = s.sec) ∧ ((s.stat b p i n).fates = s.fates) :=
  State.statAt_fields s _ _ _ _ _ _

@[simp] theorem State.mgmtStat_fields (s : State) (i n : Nat) :
    ((s.mgmtStat i n).pending = s.pending) ∧ ((s.mgmtStat i n).now = s.now) ∧ ((s.mgmtStat i n).draws = s.draws) ∧
    ((s.mgmtStat i n).outbox = s.outbox) ∧ ((s.mgmtStat i n).timers = s.timers) ∧
    ((s.mgmtStat i n).pmuNext = s.pmuNext) ∧ ((s.mgmtStat i n).pwr = s.pwr) ∧ ((s.mgmtStat i n).lanes = s.lanes) ∧
    ((s.mgmtStat i n).ports = s.ports) ∧ ((s.mgmtStat i n).macs = s.macs) ∧ ((s.mgmtStat i n).mgmt = s.mgmt) ∧
    ((s.mgmtStat i n).shadow = s.shadow) ∧ ((s.mgmtStat i n).frames = s.frames) ∧
    ((s.mgmtStat i n).copies = s.copies) ∧ ((s.mgmtStat i n).nextId = s.nextId) ∧ ((s.mgmtStat i n).mesh = s.mesh) ∧
    ((s.mgmtStat i n).adm = s.adm) ∧ ((s.mgmtStat i n).sched = s.sched) ∧ ((s.mgmtStat i n).gates = s.gates) ∧
    ((s.mgmtStat i n).time = s.time) ∧ ((s.mgmtStat i n).tel = s.tel) ∧ ((s.mgmtStat i n).fabric = s.fabric) ∧
    ((s.mgmtStat i n).assay = s.assay) ∧ ((s.mgmtStat i n).rings = s.rings) ∧ ((s.mgmtStat i n).aug = s.aug) ∧
    ((s.mgmtStat i n).augTurn = s.augTurn) ∧ ((s.mgmtStat i n).silt = s.silt) ∧ ((s.mgmtStat i n).tilth = s.tilth) ∧
    ((s.mgmtStat i n).harm = s.harm) ∧ ((s.mgmtStat i n).sec = s.sec) ∧ ((s.mgmtStat i n).fates = s.fates) :=
  State.statAt_fields s _ _ _ _ _ _

@[simp] theorem State.pmuLine_fields (s : State) (i : Nat) :
    ((s.pmuLine i).pending = s.pending) ∧ ((s.pmuLine i).now = s.now) ∧ ((s.pmuLine i).draws = s.draws) ∧
    ((s.pmuLine i).timers = s.timers) ∧ ((s.pmuLine i).evWait = s.evWait) ∧ ((s.pmuLine i).pwr = s.pwr) ∧
    ((s.pmuLine i).lanes = s.lanes) ∧ ((s.pmuLine i).ports = s.ports) ∧ ((s.pmuLine i).macs = s.macs) ∧
    ((s.pmuLine i).mgmt = s.mgmt) ∧ ((s.pmuLine i).shadow = s.shadow) ∧ ((s.pmuLine i).frames = s.frames) ∧
    ((s.pmuLine i).copies = s.copies) ∧ ((s.pmuLine i).nextId = s.nextId) ∧ ((s.pmuLine i).mesh = s.mesh) ∧
    ((s.pmuLine i).adm = s.adm) ∧ ((s.pmuLine i).sched = s.sched) ∧ ((s.pmuLine i).gates = s.gates) ∧
    ((s.pmuLine i).time = s.time) ∧ ((s.pmuLine i).tel = s.tel) ∧ ((s.pmuLine i).fabric = s.fabric) ∧
    ((s.pmuLine i).assay = s.assay) ∧ ((s.pmuLine i).rings = s.rings) ∧ ((s.pmuLine i).aug = s.aug) ∧
    ((s.pmuLine i).augTurn = s.augTurn) ∧ ((s.pmuLine i).silt = s.silt) ∧ ((s.pmuLine i).tilth = s.tilth) ∧
    ((s.pmuLine i).harm = s.harm) ∧ ((s.pmuLine i).sec = s.sec) ∧ ((s.pmuLine i).fates = s.fates) := by
  unfold State.pmuLine
  dsimp only
  split <;> simp

@[simp] theorem State.pmuOcc_fields (s : State) (src pos : Nat) :
    ((s.pmuOcc src pos).pending = s.pending) ∧ ((s.pmuOcc src pos).now = s.now) ∧
    ((s.pmuOcc src pos).draws = s.draws) ∧ ((s.pmuOcc src pos).timers = s.timers) ∧
    ((s.pmuOcc src pos).evWait = s.evWait) ∧ ((s.pmuOcc src pos).pwr = s.pwr) ∧
    ((s.pmuOcc src pos).lanes = s.lanes) ∧ ((s.pmuOcc src pos).ports = s.ports) ∧
    ((s.pmuOcc src pos).macs = s.macs) ∧ ((s.pmuOcc src pos).mgmt = s.mgmt) ∧
    ((s.pmuOcc src pos).shadow = s.shadow) ∧ ((s.pmuOcc src pos).frames = s.frames) ∧
    ((s.pmuOcc src pos).copies = s.copies) ∧ ((s.pmuOcc src pos).nextId = s.nextId) ∧
    ((s.pmuOcc src pos).mesh = s.mesh) ∧ ((s.pmuOcc src pos).adm = s.adm) ∧ ((s.pmuOcc src pos).sched = s.sched) ∧
    ((s.pmuOcc src pos).gates = s.gates) ∧ ((s.pmuOcc src pos).time = s.time) ∧ ((s.pmuOcc src pos).tel = s.tel) ∧
    ((s.pmuOcc src pos).fabric = s.fabric) ∧ ((s.pmuOcc src pos).assay = s.assay) ∧
    ((s.pmuOcc src pos).rings = s.rings) ∧ ((s.pmuOcc src pos).aug = s.aug) ∧
    ((s.pmuOcc src pos).augTurn = s.augTurn) ∧ ((s.pmuOcc src pos).silt = s.silt) ∧
    ((s.pmuOcc src pos).tilth = s.tilth) ∧ ((s.pmuOcc src pos).harm = s.harm) ∧ ((s.pmuOcc src pos).sec = s.sec) ∧
    ((s.pmuOcc src pos).fates = s.fates) := by
  unfold State.pmuOcc
  generalize List.range 64 = l
  induction l generalizing s with
  | nil => simp
  | cons i l ih =>
    rw [List.foldl_cons]
    dsimp only
    split
    · simpa using ih (s.pmuLine i)
    · exact ih s

end Sys2Proof.Machine
end

