-- ==== Sys2Proof/Laws/Access.lean ====
section
/-! SUPPORT. A write through CFG: what it leaves of the effect on its unit, after its write-through to the marl copy. -/

namespace Sys2Proof.Machine

theorem sget_foldl_sset {V : Type} [DecidableEq V] (d : Nat → V) (base : Nat) (l : List (Nat × V)) (m : List (Nat × V))
    (k : Nat) (h : ∀ e ∈ l, base + e.1 ≠ k) :
    sget d (l.foldl (fun m e => sset d m (base + e.1) e.2) m) k = sget d m k := by
  induction l generalizing m with
  | nil => rfl
  | cons e l ih =>
    rw [List.foldl_cons, ih _ fun x hx => h x (List.mem_cons_of_mem _ hx), sget_sset,
      if_neg (Ne.symm (h e List.mem_cons_self))]

/-- The registers in a bed's image lie in that bed's window. -/
theorem inImage_window {b k : Nat} (h : inImage b k = true) : (k % bankSpan - 0x1000000) / 0x100000 = b := by
  unfold inImage imgReg at h
  simp only [Bool.and_eq_true, decide_eq_true_eq] at h
  obtain ⟨h1, ⟨⟨⟨h2, h3⟩, -⟩, -⟩, -⟩ := h
  unfold bedBase at *
  omega

theorem bedImage_key {s : State} {b : Nat} {e : Nat × Word} (h : e ∈ (s.bedImage b).regs) :
    ∃ k, e.1 = k - bedBase b ∧ inImage b k = true := by
  unfold State.bedImage at h
  simp only [List.mem_filterMap] at h
  obtain ⟨x, -, hx⟩ := h
  split at hx
  · rename_i hi
    cases hx
    exact ⟨x.1, rfl, hi⟩
  · cases hx

/-- A register outside the window of the bed that takes an image reads as before. -/
theorem State.loadImage_rd (s t : State) {a b x : Nat} (hb : b < 17)
    (h : x % bankSpan < 0x1000000 ∨ (x % bankSpan - 0x1000000) / 0x100000 ≠ b) : (s.loadImage b (t.bedImage a)).rd x = s.rd x := by
  have hx : inImage b x = false := by
    cases hi : inImage b x with
    | false => rfl
    | true =>
      have hw := inImage_window hi
      unfold inImage bedBase at hi
      simp only [Bool.and_eq_true, decide_eq_true_eq] at hi
      omega
  unfold State.loadImage State.rd
  dsimp only
  rw [sget_foldl_sset, sget_sdrop, hx]
  · rfl
  · intro e he hk
    obtain ⟨k, hk1, hk2⟩ := bedImage_key he
    have hw := inImage_window hk2
    unfold inImage imgReg at hk2
    simp only [Bool.and_eq_true, decide_eq_true_eq] at hk2
    obtain ⟨h1, ⟨⟨⟨h2, h3⟩, -⟩, -⟩, -⟩ := hk2
    unfold bedBase bankSpan at *
    omega

/-- A register that no bed image holds: those of the lanes, and the counters and events. -/
def noImage (x : Nat) : Prop := x < bankSpan ∧ 0x1000000 ≤ x ∧ imgReg (x % 0x100000) = false

/-- A register that no image holds reads as before. -/
theorem State.loadImage_rd_lane (s t : State) {a b x : Nat} (h : noImage x) :
    (s.loadImage b (t.bedImage a)).rd x = s.rd x := by
  obtain ⟨h1, h2, h3⟩ := h
  have hm : x % bankSpan = x := Nat.mod_eq_of_lt h1
  have hx : inImage b x = false := by
    cases hi : inImage b x with
    | false => rfl
    | true =>
      have hw := inImage_window hi
      unfold inImage at hi
      rw [hm] at hi hw
      simp only [Bool.and_eq_true, decide_eq_true_eq] at hi
      have e : x - bedBase b = x % 0x100000 := by
        have := hi.1
        have h4 := hi.2
        unfold imgReg at h4
        simp only [Bool.and_eq_true, decide_eq_true_eq] at h4
        unfold bedBase at *
        omega
      rw [e, h3] at hi
      exact absurd hi.2 (by simp)
  unfold State.loadImage State.rd
  dsimp only
  rw [sget_foldl_sset, sget_sdrop, hx]
  · rfl
  · intro e he hk
    obtain ⟨k, hk1, hk2⟩ := bedImage_key he
    unfold inImage at hk2
    simp only [Bool.and_eq_true, decide_eq_true_eq] at hk2
    obtain ⟨g1, g2⟩ := hk2
    have g3 := g2
    unfold imgReg at g3
    simp only [Bool.and_eq_true, decide_eq_true_eq] at g3
    obtain ⟨⟨⟨⟨g4, g5⟩, -⟩, -⟩, -⟩ := g3
    have e2 : k % bankSpan - bedBase a = x % 0x100000 := by
      unfold bedBase bankSpan at *
      omega
    rw [e2, h3] at g2
    exact absurd g2 (by simp)

/-- What is taken over from one bed goes to another bed. -/
theorem State.swapMirror_ne {s : State} {b dst : Nat} (h : s.swapMirror b = some dst) : dst ≠ b ∧ dst < 17 := by
  have hp : s.swapPos < 16 := fld_lt 27 24 _
  unfold State.swapMirror at h
  simp only [Bool.not_eq_true', beq_iff_eq] at h
  split at h
  · cases h
  · split at h <;> split at h
    · rename_i hb
      cases h
      exact ⟨by omega, by omega⟩
    · cases h
    · rename_i hb
      cases h
      exact ⟨by omega, by omega⟩
    · cases h

/-- After its write-through, a write outside the bed windows leaves what it did, but for the generation of region 16. -/
theorem State.writeThrough_line (s t : State) {off : Nat} (h : off < 0x1000000 ∨ 0x2100000 ≤ off) :
    s.writeThrough t off = t ∨ s.writeThrough t off = t.marlBump 16 := by
  generalize e : s.writeThrough t off = u
  unfold State.writeThrough State.regionOf at e
  rw [if_neg (show ¬(decide (0x1000000 ≤ off) && decide (off < 0x2100000)) = true by
    simp only [Bool.and_eq_true, decide_eq_true_eq]; omega)] at e
  split at e
  · exact .inl e.symm
  · rename_i r hr
    split at hr
    · cases hr
      split at e
      · exact .inl e.symm
      · exact .inr e.symm
    · cases hr

/-- After its write-through, a write in a bed window leaves what it did, or what it did with a generation that has gone on
and perhaps an image of that bed loaded into another. -/
theorem State.writeThrough_bed (s t : State) {off : Nat} (h : 0x1000000 ≤ off) (h2 : off < 0x2100000) :
    s.writeThrough t off = t ∨ ∃ r, r < 17 ∧ (s.writeThrough t off = t.marlBump r ∨
      ∃ dst, dst < 17 ∧ dst ≠ (off - 0x1000000) / 0x100000 ∧ s.writeThrough t off =
        (t.marlBump r).loadImage dst ((t.marlBump r).bedImage ((off - 0x1000000) / 0x100000))) := by
  have hp : s.swapPos < 16 := fld_lt 27 24 _
  generalize e : s.writeThrough t off = u
  unfold State.writeThrough at e
  split at e
  · exact .inl e.symm
  · rename_i r hr
    have hr17 : r < 17 := by
      unfold State.regionOf at hr
      rw [if_pos (by simp [h, h2])] at hr
      dsimp only at hr
      split at hr
      · split at hr
        · cases hr; omega
        · cases hr
      · split at hr
        · cases hr; omega
        · cases hr
    split at e
    · exact .inl e.symm
    · refine .inr ⟨r, hr17, ?_⟩
      dsimp only at e
      split at e
      · exact .inl e.symm
      · split at e
        · rename_i dst hd
          exact .inr ⟨dst, (State.swapMirror_ne hd).2, (State.swapMirror_ne hd).1, e.symm⟩
        · exact .inl e.symm

/-- A register is not a generation of a marl region. -/
def notGen (x : Nat) : Prop := x < 0x404000 ∨ 0x404044 ≤ x

theorem State.marlBump_rd (s : State) {r x : Nat} (hr : r < 17) (h : notGen x) : (s.marlBump r).rd x = s.rd x := by
  unfold State.marlBump
  refine State.rd_wr_ne _ _ ?_
  unfold notGen at h
  unfold offMarlGen
  omega

/-- A register of the window that is written, or outside all bed windows, reads after the write-through as before it. -/
theorem State.writeThrough_rd (s t : State) {off x : Nat} (h : notGen x)
    (hw : x % bankSpan < 0x1000000 ∨ (x % bankSpan - 0x1000000) / 0x100000 = (off - 0x1000000) / 0x100000) :
    (s.writeThrough t off).rd x = t.rd x := by
  by_cases hb : 0x1000000 ≤ off ∧ off < 0x2100000
  · rcases State.writeThrough_bed s t hb.1 hb.2 with e | ⟨r, hr, e | ⟨dst, hd, hne, e⟩⟩
    · rw [e]
    · rw [e, State.marlBump_rd t hr h]
    · rw [e, State.loadImage_rd _ _ hd (by omega), State.marlBump_rd t hr h]
  · rcases State.writeThrough_line s t (off := off) (by omega) with e | e
    · rw [e]
    · rw [e, State.marlBump_rd t (by omega) h]

/-- A register that no image holds reads after a write-through as before it. -/
theorem State.writeThrough_rd_noImage (s t : State) {off x : Nat} (h : noImage x) :
    (s.writeThrough t off).rd x = t.rd x := by
  have hg : notGen x := by
    have := h.2.1
    unfold notGen
    omega
  by_cases hb : 0x1000000 ≤ off ∧ off < 0x2100000
  · rcases State.writeThrough_bed s t hb.1 hb.2 with e | ⟨r, hr, e | ⟨dst, hd, hne, e⟩⟩
    · rw [e]
    · rw [e, State.marlBump_rd t hr hg]
    · rw [e, State.loadImage_rd_lane _ _ h, State.marlBump_rd t hr hg]
  · rcases State.writeThrough_line s t (off := off) (by omega) with e | e
    · rw [e]
    · rw [e, State.marlBump_rd t (by omega) hg]

/-- What no write-through changes: every field but the register file, the rules and the gate entries. -/
theorem State.writeThrough_same (s t : State) (off : Nat) : ∃ regs rules entries, s.writeThrough t off =
    { t with regs := regs, mesh := { t.mesh with rules := rules }, gates := { t.gates with entries := entries } } := by
  by_cases hb : 0x1000000 ≤ off ∧ off < 0x2100000
  · rcases State.writeThrough_bed s t hb.1 hb.2 with e | ⟨r, hr, e | ⟨dst, hd, hne, e⟩⟩
    · exact ⟨t.regs, t.mesh.rules, t.gates.entries, e⟩
    · exact ⟨_, t.mesh.rules, t.gates.entries, e⟩
    · exact ⟨_, _, _, e⟩
  · rcases State.writeThrough_line s t (off := off) (by omega) with e | e
    · exact ⟨t.regs, t.mesh.rules, t.gates.entries, e⟩
    · exact ⟨_, t.mesh.rules, t.gates.entries, e⟩

/-! ## A write through CFG -/

theorem State.cfg_serves {s : State} {off : Nat} (h : s.serves off) (f : State → State) :
    s.cfg off f = (s.writeThrough (f s) off).answer false 0 := by
  have hh : s.hostOn = true := by
    have := h.1
    unfold State.reach at this
    exact (Bool.and_eq_true_iff.mp this).1
  unfold State.cfg State.door
  rw [hh, h.1, h.2]
  rfl

/-- A register of the window that is written, or outside all bed windows, reads as the unit's own effect leaves it. -/
theorem State.cfg_rd {s : State} {off x : Nat} (hs : s.serves off) (f : State → State) (h : notGen x)
    (hw : x % bankSpan < 0x1000000 ∨ (x % bankSpan - 0x1000000) / 0x100000 = (off - 0x1000000) / 0x100000) :
    (s.cfg off f).rd x = (f s).rd x := by
  rw [State.cfg_serves hs]
  exact State.writeThrough_rd s (f s) h hw

/-- A register that no image holds, of a lane above all, reads as the unit's own effect leaves it. -/
theorem State.cfg_rd_noImage {s : State} {off x : Nat} (hs : s.serves off) (f : State → State) (h : noImage x) :
    (s.cfg off f).rd x = (f s).rd x := by
  rw [State.cfg_serves hs]
  exact State.writeThrough_rd_noImage s (f s) h

/-- The registers of a lane are in no image. -/
theorem noImage_lane {b l r : Nat} (hb : b < 17) (hl : l < 16) (hr : r < 0x1000) : noImage (offLaneCtl b l + r) := by
  have e : (offLaneCtl b l + r) % 0x100000 = 0x10000 + 0x1000 * l + r := by
    unfold offLaneCtl
    omega
  refine ⟨by unfold offLaneCtl bankSpan; omega, by unfold offLaneCtl; omega, ?_⟩
  rw [e]
  unfold imgReg
  have h1 : 0x10000 ≤ 0x10000 + 0x1000 * l + r := by omega
  have h2 : 0x10000 + 0x1000 * l + r < 0x20000 := by omega
  simp [h1, h2]

/-- The rest of the state is as the unit's own effect leaves it, and a response leaves the block. -/
theorem State.cfg_same {s : State} {off : Nat} (hs : s.serves off) (f : State → State) : ∃ regs rules entries,
    s.cfg off f = { f s with
      regs := regs
      mesh := { (f s).mesh with rules := rules }
      gates := { (f s).gates with entries := entries }
      outbox := .busResponse false 0 :: (f s).outbox } := by
  obtain ⟨regs, rules, entries, e⟩ := State.writeThrough_same s (f s) off
  refine ⟨regs, rules, entries, ?_⟩
  rw [State.cfg_serves hs, e]
  rfl

/-- The fields that a write through CFG leaves as the unit's own effect leaves them. -/
theorem State.cfg_fields {s : State} {off : Nat} (hs : s.serves off) (f : State → State) :
    ((s.cfg off f).pending = (f s).pending) ∧ ((s.cfg off f).now = (f s).now) ∧ ((s.cfg off f).draws = (f s).draws) ∧
    ((s.cfg off f).timers = (f s).timers) ∧ ((s.cfg off f).evWait = (f s).evWait) ∧
    ((s.cfg off f).pmuNext = (f s).pmuNext) ∧ ((s.cfg off f).pwr = (f s).pwr) ∧ ((s.cfg off f).lanes = (f s).lanes) ∧
    ((s.cfg off f).ports = (f s).ports) ∧ ((s.cfg off f).macs = (f s).macs) ∧ ((s.cfg off f).mgmt = (f s).mgmt) ∧
    ((s.cfg off f).shadow = (f s).shadow) ∧ ((s.cfg off f).frames = (f s).frames) ∧
    ((s.cfg off f).copies = (f s).copies) ∧ ((s.cfg off f).nextId = (f s).nextId) ∧ ((s.cfg off f).adm = (f s).adm) ∧
    ((s.cfg off f).sched = (f s).sched) ∧ ((s.cfg off f).time = (f s).time) ∧ ((s.cfg off f).tel = (f s).tel) ∧
    ((s.cfg off f).fabric = (f s).fabric) ∧ ((s.cfg off f).assay = (f s).assay) ∧
    ((s.cfg off f).rings = (f s).rings) ∧ ((s.cfg off f).aug = (f s).aug) ∧
    ((s.cfg off f).augTurn = (f s).augTurn) ∧ ((s.cfg off f).silt = (f s).silt) ∧
    ((s.cfg off f).tilth = (f s).tilth) ∧ ((s.cfg off f).harm = (f s).harm) ∧ ((s.cfg off f).sec = (f s).sec) ∧
    ((s.cfg off f).fates = (f s).fates) ∧ ((s.cfg off f).outbox = .busResponse false 0 :: (f s).outbox) ∧
    ((s.cfg off f).gates.ports = (f s).gates.ports) ∧ ((s.cfg off f).mesh.groups = (f s).mesh.groups) ∧
    ((s.cfg off f).mesh.members = (f s).mesh.members) ∧ ((s.cfg off f).mesh.handles = (f s).mesh.handles) ∧
    ((s.cfg off f).mesh.gens = (f s).mesh.gens) ∧ ((s.cfg off f).mesh.keyq = (f s).mesh.keyq) ∧
    ((s.cfg off f).mesh.used = (f s).mesh.used) ∧ ((s.cfg off f).mesh.lastEdit = (f s).mesh.lastEdit) ∧
    ((s.cfg off f).mesh.trial = (f s).mesh.trial) := by
  obtain ⟨regs, rules, entries, e⟩ := State.cfg_same hs f
  rw [e]
  exact ⟨rfl, rfl, rfl, rfl, rfl, rfl, rfl, rfl, rfl, rfl, rfl, rfl, rfl, rfl, rfl, rfl, rfl, rfl, rfl, rfl,
    rfl, rfl, rfl, rfl, rfl, rfl, rfl, rfl, rfl, rfl, rfl, rfl, rfl, rfl, rfl, rfl, rfl, rfl, rfl⟩

end Sys2Proof.Machine
end

