-- ==== Sys2Proof/Laws/Clamps.lean ====
section
/-! SUPPORT. Fields with a range: what a word reads once a register has brought its fields into their ranges (R98). -/

namespace Sys2Proof.Machine

/-- The fields with a range of the register at an offset. -/
def clampsOf (off : Nat) : List (Nat × Nat × Nat × Nat) :=
  match regRow off with
  | some row => ((clampTable.find? fun e => e.1 == row.base).map (·.2)).getD []
  | none => []

theorem clampReg_eq (off : Nat) (w : Word) : clampReg off w = (clampsOf off).foldl clampField w := by
  unfold clampReg clampsOf
  cases regRow off <;> rfl

/-- A field apart from those with a range keeps its value. -/
theorem fld_clampField_ne (w : Word) (e : Nat × Nat × Nat × Nat) (hi lo : Nat) (h : e.2.1 ≤ e.1) (h32 : hi < 32)
    (hd : hi < e.2.1 ∨ e.1 < lo) : fld hi lo (clampField w e) = fld hi lo w := by
  obtain ⟨a, b, c, d⟩ := e
  unfold clampField
  dsimp only at *
  split
  · rfl
  · exact fld_setFld_ne a b hi lo _ w h h32 hd

/-- A bit outside the fields with a range keeps its value. -/
theorem bit_clampField_ne (w : Word) (e : Nat × Nat × Nat × Nat) (i : Nat) (h : e.2.1 ≤ e.1) (h32 : i < 32)
    (hd : i < e.2.1 ∨ e.1 < i) : bit i (clampField w e) = bit i w := by
  obtain ⟨a, b, c, d⟩ := e
  unfold clampField
  dsimp only at *
  split
  · rfl
  · rw [bit_setFld a b _ i w h h32, if_neg (by omega)]

theorem clampsOf_portForm : ∀ (b : Fin 17) (p : Fin 16), clampsOf (offPortForm b p) = [(25, 16, 1, 1023)] := by decide +kernel

end Sys2Proof.Machine
end

