-- ==== Sys2Proof/Laws/Dispatch.lean ====
section
/-! SUPPORT. exec, arm by arm: what each command's arm calls. -/

namespace Sys2Proof.Machine

@[simp] theorem exec_registerWrite {addr} {v} {be} (s : State) : exec (.registerWrite addr v be) s =
    execRegisterWrite addr v be s := rfl
@[simp] theorem exec_counterWrite {addr} {v} (s : State) : exec (.counterWrite addr v) s =
    execCounterWrite addr v s := rfl
@[simp] theorem exec_macReceiveFrame {b} {p} {smd} {bytes} {rest} {pcsErr} {cut} {gapPs} {fecCorr} {fecUncorr} {fecSym} (s : State) : exec (.macReceiveFrame b p smd bytes rest pcsErr cut gapPs fecCorr fecUncorr fecSym) s =
    execMacReceiveFrame b p smd bytes rest pcsErr cut gapPs fecCorr fecUncorr fecSym s := rfl
@[simp] theorem exec_parseWindow {f} {pslot} {recheck} {start} (s : State) : exec (.parseWindow f pslot recheck start) s =
    execParseWindow f pslot recheck start s := rfl
@[simp] theorem exec_payloadMatchFinal {f} (s : State) : exec (.payloadMatchFinal f) s =
    execPayloadMatchFinal f s := rfl
@[simp] theorem exec_tailCheck {f} (s : State) : exec (.tailCheck f) s =
    execTailCheck f s := rfl
@[simp] theorem exec_keySend {b} {c} (s : State) : exec (.keySend b c) s =
    execKeySend b c s := rfl
@[simp] theorem exec_keyCreditReturn {b} {c} (s : State) : exec (.keyCreditReturn b c) s =
    execKeyCreditReturn b c s := rfl
@[simp] theorem exec_verdictReceive {b} {c} {msg} (s : State) : exec (.verdictReceive b c msg) s =
    execVerdictReceive b c msg s := rfl
@[simp] theorem exec_handoffTimeout {b} {slot} (s : State) : exec (.handoffTimeout b slot) s =
    execHandoffTimeout b slot s := rfl
@[simp] theorem exec_enqueue {c} (s : State) : exec (.enqueue c) s =
    execEnqueue c s := rfl
@[simp] theorem exec_multicastReplicate {f} (s : State) : exec (.multicastReplicate f) s =
    execMulticastReplicate f s := rfl
@[simp] theorem exec_mirrorCopy {f} (s : State) : exec (.mirrorCopy f) s =
    execMirrorCopy f s := rfl
@[simp] theorem exec_recirculate {f} {grainBad} (s : State) : exec (.recirculate f grainBad) s =
    execRecirculate f grainBad s := rfl
@[simp] theorem exec_selection {port} (s : State) : exec (.selection port) s =
    execSelection port s := rfl
@[simp] theorem exec_egressEdit {c} {grainBad} (s : State) : exec (.egressEdit c grainBad) s =
    execEgressEdit c grainBad s := rfl
@[simp] theorem exec_macTransmitFrame {c} {lane} {tagBad} (s : State) : exec (.macTransmitFrame c lane tagBad) s =
    execMacTransmitFrame c lane tagBad s := rfl
@[simp] theorem exec_sieveFrameOut {c} {grainBad} (s : State) : exec (.sieveFrameOut c grainBad) s =
    execSieveFrameOut c grainBad s := rfl
@[simp] theorem exec_powerOnReset {level} (s : State) : exec (.powerOnReset level) s =
    execPowerOnReset level s := rfl
@[simp] theorem exec_hostResetPin {level} (s : State) : exec (.hostResetPin level) s =
    execHostResetPin level s := rfl
@[simp] theorem exec_lineResetPin {level} (s : State) : exec (.lineResetPin level) s =
    execLineResetPin level s := rfl
@[simp] theorem exec_railFault {rail} (s : State) : exec (.railFault rail) s =
    execRailFault rail s := rfl
@[simp] theorem exec_rstCtlHostSelf {lineHold} (s : State) : exec (.rstCtlHostSelf lineHold) s =
    execRstCtlHostSelf lineHold s := rfl
@[simp] theorem exec_rstCtlLineHold {hold} (s : State) : exec (.rstCtlLineHold hold) s =
    execRstCtlLineHold hold s := rfl
@[simp] theorem exec_rstBedWrite {v} (s : State) : exec (.rstBedWrite v) s =
    execRstBedWrite v s := rfl
@[simp] theorem exec_pwrIslandCtlWrite {v} (s : State) : exec (.pwrIslandCtlWrite v) s =
    execPwrIslandCtlWrite v s := rfl
@[simp] theorem exec_railGood {ix} (s : State) : exec (.railGood ix) s =
    execRailGood ix s := rfl
@[simp] theorem exec_rampTimeout {ix} (s : State) : exec (.rampTimeout ix) s =
    execRampTimeout ix s := rfl
@[simp] theorem exec_islandResetRelease {ix} (s : State) : exec (.islandResetRelease ix) s =
    execIslandResetRelease ix s := rfl
@[simp] theorem exec_bridgeCentred {ix} (s : State) : exec (.bridgeCentred ix) s =
    execBridgeCentred ix s := rfl
@[simp] theorem exec_pllLockLoss (s : State) : exec (.pllLockLoss) s =
    execPllLockLoss s := rfl
@[simp] theorem exec_pllRelock (s : State) : exec (.pllRelock) s =
    execPllRelock s := rfl
@[simp] theorem exec_clkMonStart {v} (s : State) : exec (.clkMonStart v) s =
    execClkMonStart v s := rfl
@[simp] theorem exec_clkMonWindowEnd {count} (s : State) : exec (.clkMonWindowEnd count) s =
    execClkMonWindowEnd count s := rfl
@[simp] theorem exec_portFormWrite {b} {p} {v} (s : State) : exec (.portFormWrite b p v) s =
    execPortFormWrite b p v s := rfl
@[simp] theorem exec_portDetectDone {b} {p} (s : State) : exec (.portDetectDone b p) s =
    execPortDetectDone b p s := rfl
@[simp] theorem exec_portTrainDone {b} {p} {asks} (s : State) : exec (.portTrainDone b p asks) s =
    execPortTrainDone b p asks s := rfl
@[simp] theorem exec_portLockDone {b} {p} {skewNs} (s : State) : exec (.portLockDone b p skewNs) s =
    execPortLockDone b p skewNs s := rfl
@[simp] theorem exec_portExchangeConfirm {b} {p} {form} {fec} (s : State) : exec (.portExchangeConfirm b p form fec) s =
    execPortExchangeConfirm b p form fec s := rfl
@[simp] theorem exec_portExchangeMismatch {b} {p} {form} {fec} (s : State) : exec (.portExchangeMismatch b p form fec) s =
    execPortExchangeMismatch b p form fec s := rfl
@[simp] theorem exec_portStageTimeout {b} {p} (s : State) : exec (.portStageTimeout b p) s =
    execPortStageTimeout b p s := rfl
@[simp] theorem exec_laneLockLoss {b} {lost} (s : State) : exec (.laneLockLoss b lost) s =
    execLaneLockLoss b lost s := rfl
@[simp] theorem exec_reformDone {b} {p} {asks} (s : State) : exec (.reformDone b p asks) s =
    execReformDone b p asks s := rfl
@[simp] theorem exec_reformLimitExpire {b} {p} (s : State) : exec (.reformLimitExpire b p) s =
    execReformLimitExpire b p s := rfl
@[simp] theorem exec_gapRetry {b} {p} (s : State) : exec (.gapRetry b p) s =
    execGapRetry b p s := rfl
@[simp] theorem exec_dormantWakeDone {b} {p} (s : State) : exec (.dormantWakeDone b p) s =
    execDormantWakeDone b p s := rfl
@[simp] theorem exec_laneRecovered {b} {l} (s : State) : exec (.laneRecovered b l) s =
    execLaneRecovered b l s := rfl
@[simp] theorem exec_faultHoldExpire {b} {p} (s : State) : exec (.faultHoldExpire b p) s =
    execFaultHoldExpire b p s := rfl
@[simp] theorem exec_laneModeOff {l} {v} (s : State) : exec (.laneModeOff l v) s =
    execLaneModeOff l v s := rfl
@[simp] theorem exec_laneModePort {l} {v} (s : State) : exec (.laneModePort l v) s =
    execLaneModePort l v s := rfl
@[simp] theorem exec_laneModeTest {l} {v} (s : State) : exec (.laneModeTest l v) s =
    execLaneModeTest l v s := rfl
@[simp] theorem exec_laneReset {l} {v} (s : State) : exec (.laneReset l v) s =
    execLaneReset l v s := rfl
@[simp] theorem exec_boardTableWrite {l} {word} {v} (s : State) : exec (.boardTableWrite l word v) s =
    execBoardTableWrite l word v s := rfl
@[simp] theorem exec_prbsChkClear {l} {v} (s : State) : exec (.prbsChkClear l v) s =
    execPrbsChkClear l v s := rfl
@[simp] theorem exec_prbsSyncAcquire {l} (s : State) : exec (.prbsSyncAcquire l) s =
    execPrbsSyncAcquire l s := rfl
@[simp] theorem exec_prbsSyncLoss {l} {errors} (s : State) : exec (.prbsSyncLoss l errors) s =
    execPrbsSyncLoss l errors s := rfl
@[simp] theorem exec_prbsErrorInject {l} (s : State) : exec (.prbsErrorInject l) s =
    execPrbsErrorInject l s := rfl
@[simp] theorem exec_pauseFrameReceive {m} {da} {sa} {quanta} (s : State) : exec (.pauseFrameReceive m da sa quanta) s =
    execPauseFrameReceive m da sa quanta s := rfl
@[simp] theorem exec_pfcFrameReceive {b} {p} {enable} {quanta} (s : State) : exec (.pfcFrameReceive b p enable quanta) s =
    execPfcFrameReceive b p enable quanta s := rfl
@[simp] theorem exec_pauseTimerExpire {m} {ix} (s : State) : exec (.pauseTimerExpire m ix) s =
    execPauseTimerExpire m ix s := rfl
@[simp] theorem exec_pauseWatchdogTrip {b} {p} {ix} (s : State) : exec (.pauseWatchdogTrip b p ix) s =
    execPauseWatchdogTrip b p ix s := rfl
@[simp] theorem exec_watchdogHoldEnd {b} {p} {ix} (s : State) : exec (.watchdogHoldEnd b p ix) s =
    execWatchdogHoldEnd b p ix s := rfl
@[simp] theorem exec_pauseSend {bed} {p} (s : State) : exec (.pauseSend bed p) s =
    execPauseSend bed p s := rfl
@[simp] theorem exec_pauseRefresh {bed} {p} {c} (s : State) : exec (.pauseRefresh bed p c) s =
    execPauseRefresh bed p c s := rfl
@[simp] theorem exec_remoteFaultChange {b} {p} {remote} (s : State) : exec (.remoteFaultChange b p remote) s =
    execRemoteFaultChange b p remote s := rfl
@[simp] theorem exec_mergeVerifyStart {b} {p} (s : State) : exec (.mergeVerifyStart b p) s =
    execMergeVerifyStart b p s := rfl
@[simp] theorem exec_mergeRespondReceive {b} {p} (s : State) : exec (.mergeRespondReceive b p) s =
    execMergeRespondReceive b p s := rfl
@[simp] theorem exec_mergeVerifyTimeout {b} {p} (s : State) : exec (.mergeVerifyTimeout b p) s =
    execMergeVerifyTimeout b p s := rfl
@[simp] theorem exec_mergeVerifyRestart {b} {p} {v} (s : State) : exec (.mergeVerifyRestart b p v) s =
    execMergeVerifyRestart b p v s := rfl
@[simp] theorem exec_mergeVerifyFrameReceive {b} {p} (s : State) : exec (.mergeVerifyFrameReceive b p) s =
    execMergeVerifyFrameReceive b p s := rfl
@[simp] theorem exec_preemptFragment {c} {ready} (s : State) : exec (.preemptFragment c ready) s =
    execPreemptFragment c ready s := rfl
@[simp] theorem exec_statSnap {m} (s : State) : exec (.statSnap m) s =
    execStatSnap m s := rfl
@[simp] theorem exec_statSnapClear {m} (s : State) : exec (.statSnapClear m) s =
    execStatSnapClear m s := rfl
@[simp] theorem exec_mgmtFrameReceive {bytes} {part} {rxEr} (s : State) : exec (.mgmtFrameReceive bytes part rxEr) s =
    execMgmtFrameReceive bytes part rxEr s := rfl
@[simp] theorem exec_mgmtCollision {bits} (s : State) : exec (.mgmtCollision bits) s =
    execMgmtCollision bits s := rfl
@[simp] theorem exec_mgmtBackoffEnd (s : State) : exec (.mgmtBackoffEnd) s =
    execMgmtBackoffEnd s := rfl
@[simp] theorem exec_mdioStart {v} (s : State) : exec (.mdioStart v) s =
    execMdioStart v s := rfl
@[simp] theorem exec_mdioDone {data} (s : State) : exec (.mdioDone data) s =
    execMdioDone data s := rfl
@[simp] theorem exec_wakeFrame {frame} {fcsGood} (s : State) : exec (.wakeFrame frame fcsGood) s =
    execWakeFrame frame fcsGood s := rfl
@[simp] theorem exec_pipeMapWrite {b} {v} (s : State) : exec (.pipeMapWrite b v) s =
    execPipeMapWrite b v s := rfl
@[simp] theorem exec_pipeParityError {b} {pipe} {held} (s : State) : exec (.pipeParityError b pipe held) s =
    execPipeParityError b pipe held s := rfl
@[simp] theorem exec_pipeTrialPass {b} {pipe} (s : State) : exec (.pipeTrialPass b pipe) s =
    execPipeTrialPass b pipe s := rfl
@[simp] theorem exec_meshCommit {b} {v} (s : State) : exec (.meshCommit b v) s =
    execMeshCommit b v s := rfl
@[simp] theorem exec_meshDrained {b} (s : State) : exec (.meshDrained b) s =
    execMeshDrained b s := rfl
@[simp] theorem exec_meshTblRead {b} (s : State) : exec (.meshTblRead b) s =
    execMeshTblRead b s := rfl
@[simp] theorem exec_meshTblWrite {b} (s : State) : exec (.meshTblWrite b) s =
    execMeshTblWrite b s := rfl
@[simp] theorem exec_meshTblClear {b} (s : State) : exec (.meshTblClear b) s =
    execMeshTblClear b s := rfl
@[simp] theorem exec_rewriteCommit {b} {v} (s : State) : exec (.rewriteCommit b v) s =
    execRewriteCommit b v s := rfl
@[simp] theorem exec_rewriteDrained {b} (s : State) : exec (.rewriteDrained b) s =
    execRewriteDrained b s := rfl
@[simp] theorem exec_replRead (s : State) : exec (.replRead) s =
    execReplRead s := rfl
@[simp] theorem exec_replWrite (s : State) : exec (.replWrite) s =
    execReplWrite s := rfl
@[simp] theorem exec_replClear (s : State) : exec (.replClear) s =
    execReplClear s := rfl
@[simp] theorem exec_meterRead (s : State) : exec (.meterRead) s =
    execMeterRead s := rfl
@[simp] theorem exec_meterWriteFull (s : State) : exec (.meterWriteFull) s =
    execMeterWriteFull s := rfl
@[simp] theorem exec_meterWriteKeep (s : State) : exec (.meterWriteKeep) s =
    execMeterWriteKeep s := rfl
@[simp] theorem exec_meterRefresh {id} (s : State) : exec (.meterRefresh id) s =
    execMeterRefresh id s := rfl
@[simp] theorem exec_spillMove {f} {link} {grainBad} (s : State) : exec (.spillMove f link grainBad) s =
    execSpillMove f link grainBad s := rfl
@[simp] theorem exec_moveAck {f} (s : State) : exec (.moveAck f) s =
    execMoveAck f s := rfl
@[simp] theorem exec_prefetchIssue {f} (s : State) : exec (.prefetchIssue f) s =
    execPrefetchIssue f s := rfl
@[simp] theorem exec_prefetchComplete {f} {grainBad} (s : State) : exec (.prefetchComplete f grainBad) s =
    execPrefetchComplete f grainBad s := rfl
@[simp] theorem exec_shadowWrite {p} {r} {v} (s : State) : exec (.shadowWrite p r v) s =
    execShadowWrite p r v s := rfl
@[simp] theorem exec_handover {p} (s : State) : exec (.handover p) s =
    execHandover p s := rfl
@[simp] theorem exec_flowRead (s : State) : exec (.flowRead) s =
    execFlowRead s := rfl
@[simp] theorem exec_flowWriteQuantum {hport} (s : State) : exec (.flowWriteQuantum hport) s =
    execFlowWriteQuantum hport s := rfl
@[simp] theorem exec_flowZeroDeq (s : State) : exec (.flowZeroDeq) s =
    execFlowZeroDeq s := rfl
@[simp] theorem exec_clodRead (s : State) : exec (.clodRead) s =
    execClodRead s := rfl
@[simp] theorem exec_clodWrite {hport} (s : State) : exec (.clodWrite hport) s =
    execClodWrite hport s := rfl
@[simp] theorem exec_clodWriteFull {hport} (s : State) : exec (.clodWriteFull hport) s =
    execClodWriteFull hport s := rfl
@[simp] theorem exec_schedInit (s : State) : exec (.schedInit) s =
    execSchedInit s := rfl
@[simp] theorem exec_schedInitDone (s : State) : exec (.schedInitDone) s =
    execSchedInitDone s := rfl
@[simp] theorem exec_clodRefresh {id} (s : State) : exec (.clodRefresh id) s =
    execClodRefresh id s := rfl
@[simp] theorem exec_clodRejoin {id} (s : State) : exec (.clodRejoin id) s =
    execClodRejoin id s := rfl
@[simp] theorem exec_cacheFetchDone {pos} {flow} (s : State) : exec (.cacheFetchDone pos flow) s =
    execCacheFetchDone pos flow s := rfl
@[simp] theorem exec_gateCommit {b} {p} {v} (s : State) : exec (.gateCommit b p v) s =
    execGateCommit b p v s := rfl
@[simp] theorem exec_gateAbort {b} {p} {v} (s : State) : exec (.gateAbort b p v) s =
    execGateAbort b p v s := rfl
@[simp] theorem exec_gateAdopt {b} {p} (s : State) : exec (.gateAdopt b p) s =
    execGateAdopt b p s := rfl
@[simp] theorem exec_gateBoundary {b} {p} (s : State) : exec (.gateBoundary b p) s =
    execGateBoundary b p s := rfl
@[simp] theorem exec_gateHoldAdvance {b} {p} (s : State) : exec (.gateHoldAdvance b p) s =
    execGateHoldAdvance b p s := rfl
@[simp] theorem exec_gateAbandon {b} {p} (s : State) : exec (.gateAbandon b p) s =
    execGateAbandon b p s := rfl
@[simp] theorem exec_gateListRead {b} (s : State) : exec (.gateListRead b) s =
    execGateListRead b s := rfl
@[simp] theorem exec_gateListWrite {b} (s : State) : exec (.gateListWrite b) s =
    execGateListWrite b s := rfl
@[simp] theorem exec_addendWrite {k} {v} (s : State) : exec (.addendWrite k v) s =
    execAddendWrite k v s := rfl
@[simp] theorem exec_tbNowRead {k} (s : State) : exec (.tbNowRead k) s =
    execTbNowRead k s := rfl
@[simp] theorem exec_captureAll (s : State) : exec (.captureAll) s =
    execCaptureAll s := rfl
@[simp] theorem exec_tbSet {k} {v} (s : State) : exec (.tbSet k v) s =
    execTbSet k v s := rfl
@[simp] theorem exec_tbStep {k} {v} (s : State) : exec (.tbStep k v) s =
    execTbStep k v s := rfl
@[simp] theorem exec_tbSlew {k} {v} (s : State) : exec (.tbSlew k v) s =
    execTbSlew k v s := rfl
@[simp] theorem exec_slewEnd {k} (s : State) : exec (.slewEnd k) s =
    execSlewEnd k s := rfl
@[simp] theorem exec_unlockWrite {k} {v} (s : State) : exec (.unlockWrite k v) s =
    execUnlockWrite k v s := rfl
@[simp] theorem exec_unlockExpire {k} (s : State) : exec (.unlockExpire k) s =
    execUnlockExpire k s := rfl
@[simp] theorem exec_actRead (s : State) : exec (.actRead) s =
    execActRead s := rfl
@[simp] theorem exec_actWrite (s : State) : exec (.actWrite) s =
    execActWrite s := rfl
@[simp] theorem exec_actArm (s : State) : exec (.actArm) s =
    execActArm s := rfl
@[simp] theorem exec_actDisarm (s : State) : exec (.actDisarm) s =
    execActDisarm s := rfl
@[simp] theorem exec_actFire {k} {slot} (s : State) : exec (.actFire k slot) s =
    execActFire k slot s := rfl
@[simp] theorem exec_tsqPop {b} {p} {v} (s : State) : exec (.tsqPop b p v) s =
    execTsqPop b p v s := rfl
@[simp] theorem exec_ppsInEdge {ix} {falling} (s : State) : exec (.ppsInEdge ix falling) s =
    execPpsInEdge ix falling s := rfl
@[simp] theorem exec_ppsInPop {ix} (s : State) : exec (.ppsInPop ix) s =
    execPpsInPop ix s := rfl
@[simp] theorem exec_ppsOutEnd {j} (s : State) : exec (.ppsOutEnd j) s =
    execPpsOutEnd j s := rfl
@[simp] theorem exec_ref10Go {v} (s : State) : exec (.ref10Go v) s =
    execRef10Go v s := rfl
@[simp] theorem exec_ref10Done {elapsed} {noSignal} (s : State) : exec (.ref10Done elapsed noSignal) s =
    execRef10Done elapsed noSignal s := rfl
@[simp] theorem exec_timeMonSample {m} {noEdge} (s : State) : exec (.timeMonSample m noEdge) s =
    execTimeMonSample m noEdge s := rfl
@[simp] theorem exec_pairSwitch {k} {v} (s : State) : exec (.pairSwitch k v) s =
    execPairSwitch k v s := rfl
@[simp] theorem exec_pairReturn {k} {v} (s : State) : exec (.pairReturn k v) s =
    execPairReturn k v s := rfl
@[simp] theorem exec_pairSwitchDone {k} (s : State) : exec (.pairSwitchDone k) s =
    execPairSwitchDone k s := rfl
@[simp] theorem exec_intervalSettle (s : State) : exec (.intervalSettle) s =
    execIntervalSettle s := rfl
@[simp] theorem exec_archiveWriteAck {classRing} (s : State) : exec (.archiveWriteAck classRing) s =
    execArchiveWriteAck classRing s := rfl
@[simp] theorem exec_eventRecordSend {evt} (s : State) : exec (.eventRecordSend evt) s =
    execEventRecordSend evt s := rfl
@[simp] theorem exec_evtMaskClear {evt} {v} (s : State) : exec (.evtMaskClear evt v) s =
    execEvtMaskClear evt v s := rfl
@[simp] theorem exec_nudge {v} (s : State) : exec (.nudge v) s =
    execNudge v s := rfl
@[simp] theorem exec_doorbellPoll {r} (s : State) : exec (.doorbellPoll r) s =
    execDoorbellPoll r s := rfl
@[simp] theorem exec_doorbellRecordArrive {r} {words} (s : State) : exec (.doorbellRecordArrive r words) s =
    execDoorbellRecordArrive r words s := rfl
@[simp] theorem exec_hostReadTimeout {r} (s : State) : exec (.hostReadTimeout r) s =
    execHostReadTimeout r s := rfl
@[simp] theorem exec_hostErrorResponse {r} {write} (s : State) : exec (.hostErrorResponse r write) s =
    execHostErrorResponse r write s := rfl
@[simp] theorem exec_ringEnable {r} {v} (s : State) : exec (.ringEnable r v) s =
    execRingEnable r v s := rfl
@[simp] theorem exec_ringDisable {r} {v} (s : State) : exec (.ringDisable r v) s =
    execRingDisable r v s := rfl
@[simp] theorem exec_ringReset {r} {v} (s : State) : exec (.ringReset r v) s =
    execRingReset r v s := rfl
@[simp] theorem exec_ringDrained {r} (s : State) : exec (.ringDrained r) s =
    execRingDrained r s := rfl
@[simp] theorem exec_txDescArrive {t} {descs} (s : State) : exec (.txDescArrive t descs) s =
    execTxDescArrive t descs s := rfl
@[simp] theorem exec_txFrameCross {grainBad} (s : State) : exec (.txFrameCross grainBad) s =
    execTxFrameCross grainBad s := rfl
@[simp] theorem exec_txWriteback {t} (s : State) : exec (.txWriteback t) s =
    execTxWriteback t s := rfl
@[simp] theorem exec_txFateReport (s : State) : exec (.txFateReport) s =
    execTxFateReport s := rfl
@[simp] theorem exec_tsWaitExpire {t} (s : State) : exec (.tsWaitExpire t) s =
    execTsWaitExpire t s := rfl
@[simp] theorem exec_rxFrameArrive (s : State) : exec (.rxFrameArrive) s =
    execRxFrameArrive s := rfl
@[simp] theorem exec_rxShortWaitExpire {r} (s : State) : exec (.rxShortWaitExpire r) s =
    execRxShortWaitExpire r s := rfl
@[simp] theorem exec_rxWriteback {r} {addrs} (s : State) : exec (.rxWriteback r addrs) s =
    execRxWriteback r addrs s := rfl
@[simp] theorem exec_vectorArmWrite {v} {w} (s : State) : exec (.vectorArmWrite v w) s =
    execVectorArmWrite v w s := rfl
@[simp] theorem exec_vectorMessage {v} (s : State) : exec (.vectorMessage v) s =
    execVectorMessage v s := rfl
@[simp] theorem exec_augDoorbell {c} {v} (s : State) : exec (.augDoorbell c v) s =
    execAugDoorbell c v s := rfl
@[simp] theorem exec_augPause {c} {v} (s : State) : exec (.augPause c v) s =
    execAugPause c v s := rfl
@[simp] theorem exec_augUnpause {c} {v} (s : State) : exec (.augUnpause c v) s =
    execAugUnpause c v s := rfl
@[simp] theorem exec_augResume {c} {v} (s : State) : exec (.augResume c v) s =
    execAugResume c v s := rfl
@[simp] theorem exec_augAbort {c} {v} (s : State) : exec (.augAbort c v) s =
    execAugAbort c v s := rfl
@[simp] theorem exec_augDescArrive {c} {words} {index} {err} (s : State) : exec (.augDescArrive c words index err) s =
    execAugDescArrive c words index err s := rfl
@[simp] theorem exec_augSourceRead {c} {read} {err} (s : State) : exec (.augSourceRead c read err) s =
    execAugSourceRead c read err s := rfl
@[simp] theorem exec_augWriteResponse {c} {ix} {err} (s : State) : exec (.augWriteResponse c ix err) s =
    execAugWriteResponse c ix err s := rfl
@[simp] theorem exec_fabricPulse {line} (s : State) : exec (.fabricPulse line) s =
    execFabricPulse line s := rfl
@[simp] theorem exec_assayCommit {u} {v} (s : State) : exec (.assayCommit u v) s =
    execAssayCommit u v s := rfl
@[simp] theorem exec_assayParityError {u} (s : State) : exec (.assayParityError u) s =
    execAssayParityError u s := rfl
@[simp] theorem exec_assayResync {u} {v} (s : State) : exec (.assayResync u v) s =
    execAssayResync u v s := rfl
@[simp] theorem exec_scanStart {written} (s : State) : exec (.scanStart written) s =
    execScanStart written s := rfl
@[simp] theorem exec_scanEntryEnd {data} (s : State) : exec (.scanEntryEnd data) s =
    execScanEntryEnd data s := rfl
@[simp] theorem exec_siltEnable {k} {v} (s : State) : exec (.siltEnable k v) s =
    execSiltEnable k v s := rfl
@[simp] theorem exec_siltDisable {k} {v} (s : State) : exec (.siltDisable k v) s =
    execSiltDisable k v s := rfl
@[simp] theorem exec_siltStageDone {k} {lanes} {asks} (s : State) : exec (.siltStageDone k lanes asks) s =
    execSiltStageDone k lanes asks s := rfl
@[simp] theorem exec_siltStageTimeout {k} {lanes} {asks} (s : State) : exec (.siltStageTimeout k lanes asks) s =
    execSiltStageTimeout k lanes asks s := rfl
@[simp] theorem exec_siltCapSend {k} (s : State) : exec (.siltCapSend k) s =
    execSiltCapSend k s := rfl
@[simp] theorem exec_siltCapReceive {k} {words} (s : State) : exec (.siltCapReceive k words) s =
    execSiltCapReceive k words s := rfl
@[simp] theorem exec_siltCapAckReceive {k} (s : State) : exec (.siltCapAckReceive k) s =
    execSiltCapAckReceive k s := rfl
@[simp] theorem exec_readDataReceive {k} {seq} {ack} {addr} {wack} {err} {grainBad} (s : State) : exec (.readDataReceive k seq ack addr wack err grainBad) s =
    execReadDataReceive k seq ack addr wack err grainBad s := rfl
@[simp] theorem exec_writeAckReceive {k} {seq} {ack} {count} (s : State) : exec (.writeAckReceive k seq ack count) s =
    execWriteAckReceive k seq ack count s := rfl
@[simp] theorem exec_creditReceive {k} {seq} {ack} {wcred} {rcred} (s : State) : exec (.creditReceive k seq ack wcred rcred) s =
    execCreditReceive k seq ack wcred rcred s := rfl
@[simp] theorem exec_nakReceive {k} {ack} {expected} (s : State) : exec (.nakReceive k ack expected) s =
    execNakReceive k ack expected s := rfl
@[simp] theorem exec_laneFailReceive {k} {ack} {ix} (s : State) : exec (.laneFailReceive k ack ix) s =
    execLaneFailReceive k ack ix s := rfl
@[simp] theorem exec_laneMapAckReceive {k} {ack} {map} (s : State) : exec (.laneMapAckReceive k ack map) s =
    execLaneMapAckReceive k ack map s := rfl
@[simp] theorem exec_moduleStatusReceive {k} {seq} {ack} {words} (s : State) : exec (.moduleStatusReceive k seq ack words) s =
    execModuleStatusReceive k seq ack words s := rfl
@[simp] theorem exec_replayTimeout {k} (s : State) : exec (.replayTimeout k) s =
    execReplayTimeout k s := rfl
@[simp] theorem exec_siltLossTimeout {k} (s : State) : exec (.siltLossTimeout k) s =
    execSiltLossTimeout k s := rfl
@[simp] theorem exec_siltLaneLost {k} {ix} (s : State) : exec (.siltLaneLost k ix) s =
    execSiltLaneLost k ix s := rfl
@[simp] theorem exec_laneMapResend {k} (s : State) : exec (.laneMapResend k) s =
    execLaneMapResend k s := rfl
@[simp] theorem exec_siltSpareRecover {k} {ix} (s : State) : exec (.siltSpareRecover k ix) s =
    execSiltSpareRecover k ix s := rfl
@[simp] theorem exec_siltNullSend {k} (s : State) : exec (.siltNullSend k) s =
    execSiltNullSend k s := rfl
@[simp] theorem exec_siltGapRetry {k} (s : State) : exec (.siltGapRetry k) s =
    execSiltGapRetry k s := rfl
@[simp] theorem exec_siltDetach {k} {v} (s : State) : exec (.siltDetach k v) s =
    execSiltDetach k v s := rfl
@[simp] theorem exec_siltDrainForce {k} {v} (s : State) : exec (.siltDrainForce k v) s =
    execSiltDrainForce k v s := rfl
@[simp] theorem exec_siltDetachDone {k} (s : State) : exec (.siltDetachDone k) s =
    execSiltDetachDone k s := rfl
@[simp] theorem exec_loadStart {v} (s : State) : exec (.loadStart v) s =
    execLoadStart v s := rfl
@[simp] theorem exec_loadData {v} (s : State) : exec (.loadData v) s =
    execLoadData v s := rfl
@[simp] theorem exec_loadFinish {v} (s : State) : exec (.loadFinish v) s =
    execLoadFinish v s := rfl
@[simp] theorem exec_loadAbort {v} (s : State) : exec (.loadAbort v) s =
    execLoadAbort v s := rfl
@[simp] theorem exec_loadCheckDone {storeOk} (s : State) : exec (.loadCheckDone storeOk) s =
    execLoadCheckDone storeOk s := rfl
@[simp] theorem exec_roleAssign {r} {v} (s : State) : exec (.roleAssign r v) s =
    execRoleAssign r v s := rfl
@[simp] theorem exec_roleHandover {r} {v} (s : State) : exec (.roleHandover r v) s =
    execRoleHandover r v s := rfl
@[simp] theorem exec_roleAbort {r} {v} (s : State) : exec (.roleAbort r v) s =
    execRoleAbort r v s := rfl
@[simp] theorem exec_engineClear {e} (s : State) : exec (.engineClear e) s =
    execEngineClear e s := rfl
@[simp] theorem exec_machineCheck {e} {addr} {flips} {cfgErr} (s : State) : exec (.machineCheck e addr flips cfgErr) s =
    execMachineCheck e addr flips cfgErr s := rfl
@[simp] theorem exec_tilthWatchdog {e} {addr} (s : State) : exec (.tilthWatchdog e addr) s =
    execTilthWatchdog e addr s := rfl
@[simp] theorem exec_safePoint {e} {addr} {routine} {record} {sets} (s : State) : exec (.safePoint e addr routine record sets) s =
    execSafePoint e addr routine record sets s := rfl
@[simp] theorem exec_takeoverDone {r} {storeOk} (s : State) : exec (.takeoverDone r storeOk) s =
    execTakeoverDone r storeOk s := rfl
@[simp] theorem exec_heartbeatSend (s : State) : exec (.heartbeatSend) s =
    execHeartbeatSend s := rfl
@[simp] theorem exec_heartbeatTimeout {b} (s : State) : exec (.heartbeatTimeout b) s =
    execHeartbeatTimeout b s := rfl
@[simp] theorem exec_harmWindowEnd {cls} {at_} (s : State) : exec (.harmWindowEnd cls at_) s =
    execHarmWindowEnd cls at_ s := rfl
@[simp] theorem exec_harmAck {v} (s : State) : exec (.harmAck v) s =
    execHarmAck v s := rfl
@[simp] theorem exec_fenceRelease {w} {v} (s : State) : exec (.fenceRelease w v) s =
    execFenceRelease w v s := rfl
@[simp] theorem exec_harmTake (s : State) : exec (.harmTake) s =
    execHarmTake s := rfl
@[simp] theorem exec_swapWarm {v} (s : State) : exec (.swapWarm v) s =
    execSwapWarm v s := rfl
@[simp] theorem exec_swapStart {v} (s : State) : exec (.swapStart v) s =
    execSwapStart v s := rfl
@[simp] theorem exec_swapAbort {v} (s : State) : exec (.swapAbort v) s =
    execSwapAbort v s := rfl
@[simp] theorem exec_swapReturn {v} (s : State) : exec (.swapReturn v) s =
    execSwapReturn v s := rfl
@[simp] theorem exec_reseedMatched {b} (s : State) : exec (.reseedMatched b) s =
    execReseedMatched b s := rfl
@[simp] theorem exec_shadowMatched (s : State) : exec (.shadowMatched) s =
    execShadowMatched s := rfl
@[simp] theorem exec_shadowMismatch (s : State) : exec (.shadowMismatch) s =
    execShadowMismatch s := rfl
@[simp] theorem exec_portSwitch {p} (s : State) : exec (.portSwitch p) s =
    execPortSwitch p s := rfl
@[simp] theorem exec_bedDrained (s : State) : exec (.bedDrained) s =
    execBedDrained s := rfl
@[simp] theorem exec_marlRewriteDone {copy} (s : State) : exec (.marlRewriteDone copy) s =
    execMarlRewriteDone copy s := rfl
@[simp] theorem exec_wearSample {m} {slow} (s : State) : exec (.wearSample m slow) s =
    execWearSample m slow s := rfl
@[simp] theorem exec_subsoilRepairStart {stack} {chan} {corrected} {uncorrectable} (s : State) : exec (.subsoilRepairStart stack chan corrected uncorrectable) s =
    execSubsoilRepairStart stack chan corrected uncorrectable s := rfl
@[simp] theorem exec_subsoilRepairDone {stack} {chan} (s : State) : exec (.subsoilRepairDone stack chan) s =
    execSubsoilRepairDone stack chan s := rfl
@[simp] theorem exec_uncorrectableError {at_} (s : State) : exec (.uncorrectableError at_) s =
    execUncorrectableError at_ s := rfl
@[simp] theorem exec_fuseProgGo {v} (s : State) : exec (.fuseProgGo v) s =
    execFuseProgGo v s := rfl
@[simp] theorem exec_fuseBlowDone {missed} (s : State) : exec (.fuseBlowDone missed) s =
    execFuseBlowDone missed s := rfl
@[simp] theorem exec_mapRtWrite {ix} {v} (s : State) : exec (.mapRtWrite ix v) s =
    execMapRtWrite ix v s := rfl
@[simp] theorem exec_lcRequest {v} (s : State) : exec (.lcRequest v) s =
    execLcRequest v s := rfl
@[simp] theorem exec_lcBlowDone {good} (s : State) : exec (.lcBlowDone good) s =
    execLcBlowDone good s := rfl
@[simp] theorem exec_keyRevoke {v} (s : State) : exec (.keyRevoke v) s =
    execKeyRevoke v s := rfl
@[simp] theorem exec_dbgChalReq {port} {v} (s : State) : exec (.dbgChalReq port v) s =
    execDbgChalReq port v s := rfl
@[simp] theorem exec_dbgTokenWrite {port} {v} (s : State) : exec (.dbgTokenWrite port v) s =
    execDbgTokenWrite port v s := rfl
@[simp] theorem exec_dbgSubmit {port} {v} (s : State) : exec (.dbgSubmit port v) s =
    execDbgSubmit port v s := rfl
@[simp] theorem exec_tokenCheckDone (s : State) : exec (.tokenCheckDone) s =
    execTokenCheckDone s := rfl
@[simp] theorem exec_wipeDone (s : State) : exec (.wipeDone) s =
    execWipeDone s := rfl
@[simp] theorem exec_dbgClose {port} {v} (s : State) : exec (.dbgClose port v) s =
    execDbgClose port v s := rfl
@[simp] theorem exec_sessionExpire {port} (s : State) : exec (.sessionExpire port) s =
    execSessionExpire port s := rfl
@[simp] theorem exec_challengeExpire {port} (s : State) : exec (.challengeExpire port) s =
    execChallengeExpire port s := rfl
@[simp] theorem exec_returnArmExpire (s : State) : exec (.returnArmExpire) s =
    execReturnArmExpire s := rfl
@[simp] theorem exec_dpAccess {addr} {data} (s : State) : exec (.dpAccess addr data) s =
    execDpAccess addr data s := rfl
@[simp] theorem exec_dpMemAccess {addr} {ctl} {data} {grain} (s : State) : exec (.dpMemAccess addr ctl data grain) s =
    execDpMemAccess addr ctl data grain s := rfl
@[simp] theorem exec_dpLineRelease {v} (s : State) : exec (.dpLineRelease v) s =
    execDpLineRelease v s := rfl
@[simp] theorem exec_pwrStateTrim (s : State) : exec (.pwrStateTrim) s =
    execPwrStateTrim s := rfl
@[simp] theorem exec_pwrStateRun (s : State) : exec (.pwrStateRun) s =
    execPwrStateRun s := rfl
@[simp] theorem exec_fallowEntry (s : State) : exec (.fallowEntry) s =
    execFallowEntry s := rfl
@[simp] theorem exec_fallowExit (s : State) : exec (.fallowExit) s =
    execFallowExit s := rfl
@[simp] theorem exec_flitDiscard {k} {lane} {errored} {bytes} (s : State) : exec (.flitDiscard k lane errored bytes) s =
    execFlitDiscard k lane errored bytes s := rfl
@[simp] theorem exec_nullFlitReceive {k} {ack} (s : State) : exec (.nullFlitReceive k ack) s =
    execNullFlitReceive k ack s := rfl
@[simp] theorem exec_stuffError {k} {ix} {symbols} (s : State) : exec (.stuffError k ix symbols) s =
    execStuffError k ix symbols s := rfl
@[simp] theorem exec_mgmtDeferEnd (s : State) : exec (.mgmtDeferEnd) s =
    execMgmtDeferEnd s := rfl
@[simp] theorem exec_intervalEnd (s : State) : exec (.intervalEnd) s =
    execIntervalEnd s := rfl
@[simp] theorem exec_tornRecordRefetch {r} (s : State) : exec (.tornRecordRefetch r) s =
    execTornRecordRefetch r s := rfl
@[simp] theorem exec_keyRevokeDone (s : State) : exec (.keyRevokeDone) s =
    execKeyRevokeDone s := rfl

end Sys2Proof.Machine
end

