-- ==== Sys2Proof/Laws/Keeps.lean ====
section
/-! SUPPORT. What every operation of the block keeps: the queue, the clock, the canonical form of the register file,
what has left the block, the free values drawn, and the fuses. One relation, its rules, and one lemma per operation
(here and in the KeepsX files). -/

namespace Sys2Proof.Machine

/-- State t follows from s by operations of the block: the queue and the clock are as before, a register file of
canonical form stays so, what has left the block stays outside, free values are drawn in order, and no lifecycle or
revocation fuse is blown back. -/
structure Keeps (s t : State) : Prop where
  pending : t.pending = s.pending
  now : t.now = s.now
  regs : s.regsWf → t.regsWf
  outbox : s.outbox <:+ t.outbox
  draws : s.draws ≤ t.draws
  life : ∀ i, s.pwr.life.getLsbD i = true → t.pwr.life.getLsbD i = true
  revoked : ∀ i, s.pwr.revoked.getLsbD i = true → t.pwr.revoked.getLsbD i = true

theorem Keeps.refl (s : State) : Keeps s s := ⟨rfl, rfl, id, List.suffix_refl _, Nat.le_refl _, fun _ h => h, fun _ h => h⟩

theorem Keeps.trans {s t u : State} (h : Keeps s t) (g : Keeps t u) : Keeps s u :=
  ⟨g.pending.trans h.pending, g.now.trans h.now, fun w => g.regs (h.regs w), h.outbox.trans g.outbox,
    Nat.le_trans h.draws g.draws, fun i w => g.life i (h.life i w), fun i w => g.revoked i (h.revoked i w)⟩

/-- The same, with the later part first: what it works on is read from it. -/
theorem Keeps.after {s t u : State} (g : Keeps t u) (h : Keeps s t) : Keeps s u := h.trans g

/-- An operation that touches none of these. -/
theorem Keeps.same {s t : State} (h1 : t.pending = s.pending) (h2 : t.now = s.now) (h3 : t.regs = s.regs)
    (h4 : t.outbox = s.outbox) (h5 : t.draws = s.draws) (h6 : t.pwr.life = s.pwr.life)
    (h7 : t.pwr.revoked = s.pwr.revoked) : Keeps s t :=
  ⟨h1, h2, by rw [State.regsWf, State.regsWf, h3]; exact id, h4 ▸ List.suffix_refl _, h5 ▸ Nat.le_refl _,
    fun _ => by rw [h6]; exact id, fun _ => by rw [h7]; exact id⟩

/-- The same for a record update of what an earlier part of an operation leaves. -/
theorem Keeps.upd {s v : State} {timers : List (Timer × Nat)} {evWait : List (Nat × Word)} {pmuNext : List (Nat ×
    Nat)} {pwr : Pwr} {lanes : List (Nat × LaneSt)} {ports : List (Nat × PortSt)} {macs : List (Nat × MacSt)} {mgmt :
    MgmtSt} {shadow : List (Nat × Option Word)} {frames : List (Nat × Option Frame)} {copies : List (Nat × Option
    Copy)} {nextId : Nat} {mesh : Mesh} {adm : Adm} {sched : Sched} {gates : Gates} {time : TimeSt} {tel : Tel}
    {fabric : List (Nat × Nat)} {assay : Assay} {rings : Rings} {aug : List (Nat × AugCh)} {augTurn : Nat} {silt : List (Nat ×
    SiltSt)} {tilth : Tilth} {harm : Harm} {sec : Sec} {fates : List (Nat × Nat)} (h6 : pwr.life = v.pwr.life) (h7 :
    pwr.revoked = v.pwr.revoked) (h : Keeps s v) : Keeps s (State.mk v.pending v.now v.draws v.regs v.outbox timers
    evWait pmuNext pwr lanes ports macs mgmt shadow frames copies nextId mesh adm sched gates time tel fabric assay
    rings aug augTurn silt tilth harm sec fates) :=
  h.trans (Keeps.same rfl rfl rfl rfl rfl h6 h7)

/-- An operation that changes only the register file, and keeps its form. -/
theorem Keeps.regsOnly (s : State) (r : List (Nat × Word)) (h : swf regReset s.regs = true → swf regReset r = true) :
    Keeps s { s with regs := r } :=
  ⟨rfl, rfl, h, List.suffix_refl _, Nat.le_refl _, fun _ => id, fun _ => id⟩

/-- What an earlier part of an operation keeps, used for the rest of it. -/
theorem Keeps.cut {s t v : State} (g : Keeps s v → Keeps s t) (h : Keeps s v) : Keeps s t := g h

theorem Keeps.ite {s t u : State} {c : Prop} [Decidable c] (h : Keeps s t) (g : Keeps s u) :
    Keeps s (if c then t else u) := by
  split
  · exact h
  · exact g

theorem Keeps.matchP {α : Type} {s : State} {v : α × State} {b : α → State → State} (h : Keeps s v.2)
    (g : ∀ a t, Keeps s t → Keeps s (b a t)) : Keeps s (match v with | (a, t) => b a t) := g v.1 v.2 h

theorem Keeps.foldl {α : Type} {s t : State} {f : State → α → State} {l : List α} (h : Keeps s t)
    (g : ∀ u a, Keeps u (f u a)) : Keeps s (l.foldl f t) := by
  induction l generalizing t with
  | nil => exact h
  | cons a l ih => exact ih (h.trans (g t a))

theorem Keeps.foldlP {α β : Type} {s : State} {t : β × State} {f : β × State → α → β × State} {l : List α}
    (h : Keeps s t.2) (g : ∀ u a, Keeps u.2 (f u a).2) : Keeps s (l.foldl f t).2 := by
  induction l generalizing t with
  | nil => exact h
  | cons a l ih => exact ih (h.trans (g t a))

theorem Keeps.iteP {α : Type} {s : State} {t u : α × State} {c : Prop} [Decidable c] (h : Keeps s t.2)
    (g : Keeps s u.2) : Keeps s (if c then t else u).2 := by
  split
  · exact h
  · exact g

theorem Keeps.matchPP {α β : Type} {s : State} {v : β × State} {b : β → State → α × State} (h : Keeps s v.2)
    (g : ∀ a t, Keeps s t → Keeps s (b a t).2) : Keeps s (match v with | (a, t) => b a t).2 := g v.1 v.2 h

/-! ## For a command's answer -/

/-- If the answer is a next state, it keeps what Keeps says. -/
def KeepsO (s : State) (o : Host.Outcome State Fault Refusal) : Prop := ∀ t, o = .next t → Keeps s t

theorem KeepsO.next {s t : State} (h : Keeps s t) : KeepsO s (.next t) := fun _ e => by cases e; exact h

theorem KeepsO.cut {s v : State} {o : Host.Outcome State Fault Refusal} (g : Keeps s v → KeepsO s o) (h : Keeps s v) :
    KeepsO s o := g h

theorem KeepsO.ite {s : State} {o p : Host.Outcome State Fault Refusal} {c : Prop} [Decidable c] (h : KeepsO s o)
    (g : KeepsO s p) : KeepsO s (if c then o else p) := by
  split
  · exact h
  · exact g

theorem KeepsO.trans {s t : State} {o : Host.Outcome State Fault Refusal} (h : Keeps s t) (g : KeepsO t o) :
    KeepsO s o := fun u e => h.trans (g u e)

theorem KeepsO.matchP {α : Type} {s : State} {v : α × State} {b : α → State → Host.Outcome State Fault Refusal}
    (h : Keeps s v.2) (g : ∀ a t, Keeps s t → KeepsO s (b a t)) : KeepsO s (match v with | (a, t) => b a t) :=
  g v.1 v.2 h

end Sys2Proof.Machine
end

