-- ==== Sys2Proof/Laws/KeepsOps.lean ====
section
/-! SUPPORT. What each operation of Machine/Ops.lean keeps (Keeps). -/

namespace Sys2Proof.Machine

theorem State.wr_keeps (s : State) (off) (w) : Keeps s (State.wr s off w) := by
  exact Keeps.regsOnly s _ (sset_wf _ _)

theorem State.wrf_keeps (s : State) (off) (hi) (lo) (n) : Keeps s (State.wrf s off hi lo n) := by
  unfold State.wrf
  exact State.wr_keeps _ _ _

theorem State.wrb_keeps (s : State) (off) (i) (v) : Keeps s (State.wrb s off i v) := by
  unfold State.wrb
  exact State.wr_keeps _ _ _

theorem State.wr2_keeps (s : State) (off) (n) : Keeps s (State.wr2 s off n) := by
  unfold State.wr2
  exact (State.wr_keeps _ _ _).trans (State.wr_keeps _ _ _)

theorem State.wrs_keeps (s : State) (off) (u2) : Keeps s (State.wrs s off u2) := by
  induction u2 generalizing s off with
  | nil => exact Keeps.refl _
  | cons w ws ih => exact (State.wr_keeps _ _ _).trans (ih _ _)

theorem State.emit_keeps (s : State) (o) : Keeps s (State.emit s o) := by
  exact ⟨rfl, rfl, id, List.suffix_cons _ _, Nat.le_refl _, fun _ => id, fun _ => id⟩

theorem State.draw_keeps (s : State) : Keeps s (State.draw s).2 := by
  exact ⟨rfl, rfl, id, List.suffix_refl _, Nat.le_succ _, fun _ => id, fun _ => id⟩

theorem State.stopTimer_keeps (s : State) (t) : Keeps s (State.stopTimer s t) := by
  unfold State.stopTimer
  exact Keeps.same rfl rfl rfl rfl rfl rfl rfl

theorem State.startTimer_keeps (s : State) (t) (ns) : Keeps s (State.startTimer s t ns) := by
  unfold State.startTimer
  exact Keeps.same rfl rfl rfl rfl rfl rfl rfl

theorem State.raiseEvt_keeps (s : State) (evt) (i) : Keeps s (State.raiseEvt s evt i) := by
  unfold State.raiseEvt
  exact Keeps.ite (Keeps.refl _) (Keeps.cut (fun h1 => Keeps.ite (h1) (Keeps.upd rfl rfl (h1))) (State.wrb_keeps _ _ _
    _))

theorem State.shAck_keeps (s : State) (b) (p) (gen) : Keeps s (State.shAck s b p gen) := by
  unfold State.shAck
  exact State.wr_keeps _ _ _

theorem State.setCnt_keeps (s : State) (off) (n) : Keeps s (State.setCnt s off n) := by
  unfold State.setCnt
  exact (State.wr_keeps _ _ _).trans (State.wr_keeps _ _ _)

theorem State.addCnt_keeps (s : State) (off) (n) (evt) (wrapBit) : Keeps s (State.addCnt s off n evt wrapBit) := by
  unfold State.addCnt
  exact Keeps.cut (fun h1 => Keeps.ite ((h1).trans (State.raiseEvt_keeps _ _ _)) (h1)) (State.setCnt_keeps _ _ _)

theorem State.inc_keeps (s : State) (off) (evt) (wrapBit) : Keeps s (State.inc s off evt wrapBit) := by
  unfold State.inc
  exact State.addCnt_keeps _ _ _ _ _

theorem State.dropTel_keeps (s : State) (n) (cause) : Keeps s (State.dropTel s n cause) := by
  unfold State.dropTel
  exact State.inc_keeps _ _ _ _

theorem State.statAt_keeps (s : State) (cnt) (half) (wrap) (evt) (i) (n) : Keeps s (State.statAt s cnt half wrap evt i
  n) := by
  unfold State.statAt
  exact Keeps.cut (fun h1 => Keeps.cut (fun h2 => Keeps.ite (((h2).trans (State.wrb_keeps _ _ _ _)).trans
    (State.raiseEvt_keeps _ _ _)) (h2)) (Keeps.ite (((h1).trans (State.wrb_keeps _ _ _ _)).trans (State.raiseEvt_keeps
    _ _ _)) (h1))) (State.setCnt_keeps _ _ _)

theorem State.stat_keeps (s : State) (b) (p) (i) (n) : Keeps s (State.stat s b p i n) := by
  unfold State.stat
  exact State.statAt_keeps _ _ _ _ _ _ _

theorem State.mgmtStat_keeps (s : State) (i) (n) : Keeps s (State.mgmtStat s i n) := by
  unfold State.mgmtStat
  exact State.statAt_keeps _ _ _ _ _ _ _

theorem State.shadowSet_keeps (s : State) (off) (v) : Keeps s (State.shadowSet s off v) := by
  unfold State.shadowSet
  exact Keeps.same rfl rfl rfl rfl rfl rfl rfl

theorem State.sendFate_keeps (s : State) (send) (fate) : Keeps s (State.sendFate s send fate) := by
  unfold State.sendFate
  exact Keeps.same rfl rfl rfl rfl rfl rfl rfl

theorem State.pmuLine_keeps (s : State) (i) : Keeps s (State.pmuLine s i) := by
  unfold State.pmuLine
  exact Keeps.ite (State.wrb_keeps _ _ _ _) (Keeps.cut (fun h1 => Keeps.upd rfl rfl (h1)) (State.emit_keeps _ _))

theorem State.pmuOcc_keeps (s : State) (src) (pos) : Keeps s (State.pmuOcc s src pos) := by
  unfold State.pmuOcc
  exact Keeps.foldl (Keeps.refl _) (fun _ _ => Keeps.ite (State.pmuLine_keeps _ _) (Keeps.refl _))

end Sys2Proof.Machine
end

