-- ==== Sys2Proof/Laws/KeepsPositions.lean ====
section
/-! SUPPORT. What each operation of Machine/Positions.lean keeps (Keeps). -/

namespace Sys2Proof.Machine

theorem State.monSee_keeps (s : State) : Keeps s (State.monSee s) := by
  unfold State.monSee
  exact Keeps.same rfl rfl rfl rfl rfl rfl rfl

theorem State.setIslAt_keeps (s : State) (i) (v) : Keeps s (State.setIslAt s i v) := by
  unfold State.setIslAt
  have h : Keeps s { s with pwr := { s.pwr with isl := sset (fun _ => .off) s.pwr.isl i v } } :=
    Keeps.same rfl rfl rfl rfl rfl rfl rfl
  exact h.trans (State.monSee_keeps _)

theorem State.safeEvt_keeps (s : State) (i) : Keeps s (State.safeEvt s i) := by
  unfold State.safeEvt
  exact Keeps.ite (State.raiseEvt_keeps _ _ _) (Keeps.refl _)

theorem State.safeInc_keeps (s : State) (i) (n) : Keeps s (State.safeInc s i n) := by
  unfold State.safeInc
  exact Keeps.ite (State.addCnt_keeps _ _ _ _ _) (Keeps.refl _)

end Sys2Proof.Machine
end

