-- ==== Sys2Proof/Laws/KeepsMarl.lean ====
section
/-! SUPPORT. What each operation of Machine/Marl.lean keeps (Keeps). -/

namespace Sys2Proof.Machine

theorem State.loadImage_keeps (s : State) (b) (img) : Keeps s (State.loadImage s b img) := by
  unfold State.loadImage
  exact ⟨rfl, rfl, fun h => foldl_sset_wf _ _ _ (sdrop_wf _ h), List.suffix_refl _, Nat.le_refl _, fun _ => id, fun _ => id⟩

theorem State.harmMod_keeps (s : State) (f) : Keeps s (State.harmMod s f) := by
  unfold State.harmMod
  exact Keeps.same rfl rfl rfl rfl rfl rfl rfl

theorem State.keepRegion_keeps (s : State) (p) (img) : Keeps s (State.keepRegion s p img) := by
  unfold State.keepRegion
  exact State.harmMod_keeps _ _

theorem State.marlBump_keeps (s : State) (r) : Keeps s (State.marlBump s r) := by
  unfold State.marlBump
  exact State.wr_keeps _ _ _

theorem State.writeThrough_keeps (s : State) (t : State) (off) : Keeps t (State.writeThrough s t off) := by
  unfold State.writeThrough
  exact (by split; exact Keeps.refl _; exact Keeps.ite (Keeps.refl _) (Keeps.cut (fun h1 => Keeps.ite (h1) ((by split; exact (h1).trans (State.loadImage_keeps _ _ _); exact h1))) (State.marlBump_keeps _ _)))

theorem State.ownChange_keeps (s : State) (b) : Keeps s (State.ownChange s b) := by
  unfold State.ownChange
  exact (by split; exact Keeps.cut (fun h1 => (by (try extract_lets); split; exact (h1).trans (State.loadImage_keeps _ _ _); exact h1)) (State.marlBump_keeps _ _); exact Keeps.refl _)

theorem State.copyPortRegs_keeps (s : State) (a) (b) (p) (stats) : Keeps s (State.copyPortRegs s a b p stats) := by
  unfold State.copyPortRegs
  exact Keeps.regsOnly s _ fun h => foldl_sset_wf _ _ _ (sdrop_wf _ h)

theorem State.carryPort_keeps (s : State) (a) (b) (p) (stats) : Keeps s (State.carryPort s a b p stats) := by
  unfold State.carryPort
  exact Keeps.cut (fun h1 => Keeps.cut (fun h2 => Keeps.upd rfl rfl (h2)) (Keeps.upd rfl rfl (h1)))
    (State.copyPortRegs_keeps _ _ _ _ _)

theorem State.setSwap_keeps (s : State) (st) : Keeps s (State.setSwap s st) := by
  unfold State.setSwap
  exact State.wrf_keeps _ _ _ _ _

theorem State.swapDone_keeps (s : State) : Keeps s (State.swapDone s) := by
  unfold State.swapDone
  exact Keeps.ite (((State.setSwap_keeps _ _).trans (State.harmMod_keeps _ _)).trans (State.safeEvt_keeps _ _))
    (Keeps.cut (fun h1 => ((h1).trans (State.safeInc_keeps _ _ _)).trans (State.safeEvt_keeps _ _))
    ((State.setSwap_keeps _ _).trans (State.harmMod_keeps _ _)))

theorem State.swapAbort_keeps (s : State) (cause) : Keeps s (State.swapAbort s cause) := by
  unfold State.swapAbort
  exact Keeps.cut (fun h1 => ((h1).trans (State.wrf_keeps _ _ _ _ _)).trans (State.safeEvt_keeps _ _))
    ((State.setSwap_keeps _ _).trans (State.harmMod_keeps _ _))

theorem State.shadowMiss_keeps (s : State) : Keeps s (State.shadowMiss s) := by
  unfold State.shadowMiss
  exact Keeps.ite (Keeps.refl _) (Keeps.ite (State.swapAbort_keeps _ _) (((State.setSwap_keeps _ _).trans
    (State.wrf_keeps _ _ _ _ _)).trans (State.harmMod_keeps _ _)))

theorem State.swapBegin_keeps (s : State) (p) (st) : Keeps s (State.swapBegin s p st) := by
  unfold State.swapBegin
  exact Keeps.cut (fun h1 => Keeps.cut (fun h2 => Keeps.ite ((h2).trans (State.safeEvt_keeps _ _)) (h2)) ((h1).trans
    (State.harmMod_keeps _ _))) (State.wr_keeps _ _ _)

end Sys2Proof.Machine
end

