-- ==== Sys2Proof/Laws/KeepsAccess.lean ====
section
/-! SUPPORT. What each operation of Machine/Access.lean keeps (Keeps). -/

namespace Sys2Proof.Machine

theorem State.answer_keeps (s : State) (error) (data) : Keeps s (State.answer s error data) := by
  unfold State.answer
  exact State.emit_keeps _ _

theorem State.cfg_keeps (s : State) (off) (f) (hf : ∀ x, Keeps x (f x)) : Keeps s (State.cfg s off f) := by
  unfold State.cfg
  exact (by split; exact Keeps.refl _; exact State.answer_keeps _ _ _; exact State.answer_keeps _ _ _; exact ((hf _).trans (State.writeThrough_keeps _ _ _)).trans (State.answer_keeps _ _ _))

theorem State.wmapRefuse_keeps (s : State) (port) (off) : Keeps s (State.wmapRefuse s port off) := by
  unfold State.wmapRefuse
  exact ((State.inc_keeps _ _ _ _).trans (State.wr_keeps _ _ _)).trans (State.raiseEvt_keeps _ _ _)

theorem State.lk_keeps (s : State) (port) (off) (g) (f) (hf : ∀ x, Keeps x (f x)) : Keeps s (State.lk s port off g f)
  := by
  unfold State.lk
  exact Keeps.ite (hf _) (State.wmapRefuse_keeps _ _ _)

end Sys2Proof.Machine
end

