-- ==== Sys2Proof/Laws/KeepsPorts.lean ====
section
/-! SUPPORT. What each operation of Machine/Ports.lean keeps (Keeps). -/

namespace Sys2Proof.Machine

theorem State.pStat_keeps (s : State) (b) (p) (hi) (lo) (n) : Keeps s (State.pStat s b p hi lo n) := by
  unfold State.pStat
  exact State.wrf_keeps _ _ _ _ _

theorem State.macMod_keeps (s : State) (m) (f) : Keeps s (State.macMod s m f) := by
  unfold State.macMod
  exact Keeps.same rfl rfl rfl rfl rfl rfl rfl

theorem State.mmDisable_keeps (s : State) (b) (p) : Keeps s (State.mmDisable s b p) := by
  unfold State.mmDisable
  exact Keeps.cut (fun h1 => Keeps.ite ((h1).trans (State.macMod_keeps _ _ _)) ((h1).trans (State.wrb_keeps _ _ _ _)))
    (((State.wrf_keeps _ _ _ _ _).trans (State.wrf_keeps _ _ _ _ _)).trans (State.stopTimer_keeps _ _))

theorem State.openEnd_keeps (s : State) (b) (p) : Keeps s (State.openEnd s b p) := by
  unfold State.openEnd
  exact Keeps.cut (fun h1 => (h1).trans (State.macMod_keeps _ _ _)) (Keeps.ite (State.wrb_keeps _ _ _ _) (Keeps.refl
    _))

theorem State.cutCount_keeps (s : State) (b) (p) (sent) : Keeps s (State.cutCount s b p sent) := by
  unfold State.cutCount
  exact ((State.stat_keeps _ _ _ _ _).trans (State.stat_keeps _ _ _ _ _)).trans (State.stat_keeps _ _ _ _ _)

theorem State.unsignal_keeps (s : State) (b) (p) : Keeps s (State.unsignal s b p) := by
  unfold State.unsignal
  exact Keeps.foldl (State.macMod_keeps _ _ _) (fun _ _ => State.stopTimer_keeps _ _)

theorem State.pGo_keeps (s : State) (b) (p) (st) : Keeps s (State.pGo s b p st) := by
  unfold State.pGo
  exact Keeps.cut (fun h1 => ((h1).trans (State.pStat_keeps _ _ _ _ _ _)).trans (State.pStat_keeps _ _ _ _ _ _))
    (Keeps.ite (State.mmDisable_keeps _ _ _) (Keeps.refl _))

theorem State.portMod_keeps (s : State) (b) (p) (f) : Keeps s (State.portMod s b p f) := by
  unfold State.portMod
  exact Keeps.same rfl rfl rfl rfl rfl rfl rfl

theorem State.laneMod_keeps (s : State) (base) (f) : Keeps s (State.laneMod s base f) := by
  unfold State.laneMod
  exact Keeps.same rfl rfl rfl rfl rfl rfl rfl

theorem State.laneUnlock_keeps (s : State) (base) : Keeps s (State.laneUnlock s base) := by
  unfold State.laneUnlock
  exact State.wrf_keeps _ _ _ _ _

theorem State.laneLockAll_keeps (s : State) (base) : Keeps s (State.laneLockAll s base) := by
  unfold State.laneLockAll
  exact State.wrf_keeps _ _ _ _ _

theorem State.laneUntrain_keeps (s : State) (base) : Keeps s (State.laneUntrain s base) := by
  unfold State.laneUntrain
  exact State.laneMod_keeps _ _ _

theorem State.lanePower_keeps (s : State) (base) (on) : Keeps s (State.lanePower s base on) := by
  unfold State.lanePower
  exact Keeps.ite ((State.wrb_keeps _ _ _ _).trans (State.wrb_keeps _ _ _ _)) ((((State.wrb_keeps _ _ _ _).trans
    (State.wrb_keeps _ _ _ _)).trans (State.laneUnlock_keeps _ _)).trans (State.laneUntrain_keeps _ _))

theorem State.laneDormant_keeps (s : State) (base) : Keeps s (State.laneDormant s base) := by
  unfold State.laneDormant
  exact Keeps.ite (((State.wrb_keeps _ _ _ _).trans (State.laneUnlock_keeps _ _)).trans (State.laneUntrain_keeps _ _))
    (Keeps.refl _)

theorem State.laneForget_keeps (s : State) (base) : Keeps s (State.laneForget s base) := by
  unfold State.laneForget
  exact (State.wrb_keeps _ _ _ _).trans (State.laneMod_keeps _ _ _)

theorem State.laneStore_keeps (s : State) (base) : Keeps s (State.laneStore s base) := by
  unfold State.laneStore
  exact (State.wrb_keeps _ _ _ _).trans (State.laneMod_keeps _ _ _)

theorem State.onLanes_keeps (s : State) (b) (ls) (f) (hf : ∀ x y, Keeps x (f x y)) : Keeps s (State.onLanes s b ls f)
  := by
  unfold State.onLanes
  exact Keeps.foldl (Keeps.refl _) (fun _ _ => (by split; exact hf _ _; exact Keeps.refl _))

theorem State.laneTrain_keeps (s : State) (base) (a) : Keeps s (State.laneTrain s base a) := by
  unfold State.laneTrain
  exact Keeps.cut (fun h1 => Keeps.cut (fun h2 => Keeps.cut (fun h3 => Keeps.ite ((h3).trans (State.raiseEvt_keeps _ _
    _)) (h3)) ((h2).trans (State.emit_keeps _ _))) (((h1).trans (State.wr_keeps _ _ _)).trans (State.laneMod_keeps _ _
    _))) ((State.wr_keeps _ _ _).trans (State.wr_keeps _ _ _))

theorem State.laneLoad_keeps (s : State) (base) (ctle) (dfe) (f0) (f1) : Keeps s (State.laneLoad s base ctle dfe f0
  f1) := by
  unfold State.laneLoad
  exact Keeps.cut (fun h1 => (((h1).trans (State.wr_keeps _ _ _)).trans (State.wr_keeps _ _ _)).trans
    (State.laneMod_keeps _ _ _)) (State.wr_keeps _ _ _)

theorem State.laneUseBoard_keeps (s : State) (base) : Keeps s (State.laneUseBoard s base) := by
  unfold State.laneUseBoard
  exact State.laneLoad_keeps _ _ _ _ _ _

theorem State.laneUseStored_keeps (s : State) (base) : Keeps s (State.laneUseStored s base) := by
  unfold State.laneUseStored
  exact (by split; exact State.laneLoad_keeps _ _ _ _ _ _; exact State.laneUseBoard_keeps _ _)

theorem State.laneFec_keeps (s : State) (b) (p) (corr) (uncorr) (sym) : Keeps s (State.laneFec s b p corr uncorr sym)
  := by
  unfold State.laneFec
  exact Keeps.cut (fun h2 => Keeps.foldl (h2) (fun _ _ => State.onLanes_keeps _ _ _ _ (fun _ _ => State.addCnt_keeps _
    _ _ _ _))) (State.onLanes_keeps _ _ _ _ (fun _ _ => Keeps.cut (fun h1 => Keeps.ite (h1) ((h1).trans
    (State.raiseEvt_keeps _ _ _))) ((State.addCnt_keeps _ _ _ _ _).trans (State.addCnt_keeps _ _ _ _ _))))

end Sys2Proof.Machine
end

