-- ==== Sys2Proof/Laws/KeepsMacs.lean ====
section
/-! SUPPORT. What each operation of Machine/Macs.lean keeps (Keeps). -/

namespace Sys2Proof.Machine

theorem State.mst_keeps (s : State) (m) (i) (n) : Keeps s (State.mst s m i n) := by
  unfold State.mst
  exact Keeps.ite (State.mgmtStat_keeps _ _ _) (State.stat_keeps _ _ _ _ _)

theorem State.gatesMod_keeps (s : State) (f) : Keeps s (State.gatesMod s f) := by
  unfold State.gatesMod
  exact Keeps.same rfl rfl rfl rfl rfl rfl rfl

theorem State.gateMod_keeps (s : State) (b) (p) (f) : Keeps s (State.gateMod s b p f) := by
  unfold State.gateMod
  exact State.gatesMod_keeps _ _

theorem State.wireTake_keeps (s : State) (b) (p) (start) (bytes) : Keeps s (State.wireTake s b p start bytes) := by
  unfold State.wireTake
  exact State.gateMod_keeps _ _ _ _

theorem State.wireControl_keeps (s : State) (b) (p) : Keeps s (State.wireControl s b p) := by
  unfold State.wireControl
  exact State.wireTake_keeps _ _ _ _ _

theorem State.pauseBit_keeps (s : State) (m) (i) (v) : Keeps s (State.pauseBit s m i v) := by
  unfold State.pauseBit
  exact Keeps.ite (Keeps.refl _) (State.wrb_keeps _ _ _ _)

theorem State.pauseEnd_keeps (s : State) (m) (i) : Keeps s (State.pauseEnd s m i) := by
  unfold State.pauseEnd
  exact ((State.pauseBit_keeps _ _ _ _).trans (State.stopTimer_keeps _ _)).trans (State.stopTimer_keeps _ _)

theorem State.pauseChange_keeps (s : State) (m) (f) (hf : ∀ x, Keeps x (f x)) : Keeps s (State.pauseChange s m f) :=
  by
  unfold State.pauseChange
  exact Keeps.cut (fun h1 => (by (try extract_lets); split; exact (h1).trans (State.macMod_keeps _ _ _); exact ((h1).trans (State.mst_keeps _ _ _ _)).trans (State.macMod_keeps _ _ _); exact h1)) (hf _)

theorem State.pauseLoad_keeps (s : State) (m) (i) (quanta) : Keeps s (State.pauseLoad s m i quanta) := by
  unfold State.pauseLoad
  exact Keeps.ite (State.pauseEnd_keeps _ _ _) (Keeps.cut (fun h1 => Keeps.ite (h1) ((h1).trans
    (State.startTimer_keeps _ _ _))) ((State.pauseBit_keeps _ _ _ _).trans (State.startTimer_keeps _ _ _)))

theorem State.pauseApply_keeps (s : State) (m) (prios) (quanta) : Keeps s (State.pauseApply s m prios quanta) := by
  unfold State.pauseApply
  exact Keeps.cut (fun h1 => Keeps.ite ((h1).trans (State.mst_keeps _ _ _ _)) (h1)) (State.pauseChange_keeps _ _ _
    (fun _ => Keeps.foldl (Keeps.refl _) (fun _ _ => Keeps.ite (Keeps.refl _) (State.pauseLoad_keeps _ _ _ _))))

theorem State.ctlCount_keeps (s : State) (m) (octets) (pfc) : Keeps s (State.ctlCount s m octets pfc) := by
  unfold State.ctlCount
  exact ((State.mst_keeps _ _ _ _).trans (State.mst_keeps _ _ _ _)).trans (State.mst_keeps _ _ _ _)

theorem State.rxDiscard_keeps (s : State) (m) (cause) : Keeps s (State.rxDiscard s m cause) := by
  unfold State.rxDiscard
  exact (State.dropTel_keeps _ _ _).trans (State.mst_keeps _ _ _ _)

theorem State.ctlFrame_keeps (s : State) (b) (p) (octets) (pfc) (prios) (quanta) : Keeps s (State.ctlFrame s b p
  octets pfc prios quanta) := by
  unfold State.ctlFrame
  exact Keeps.ite (Keeps.refl _) (Keeps.cut (fun h1 => Keeps.ite ((h1).trans (State.rxDiscard_keeps _ _ _)) (Keeps.ite
    ((h1).trans (State.pauseApply_keeps _ _ _ _)) ((h1).trans (State.rxDiscard_keeps _ _ _)))) (State.ctlCount_keeps _
    _ _ _))

theorem execPfcFrameReceive_keeps (b) (p) (enable) (quanta) (s : State) : KeepsO s (execPfcFrameReceive b p enable
  quanta s) := by
  unfold execPfcFrameReceive
  exact KeepsO.next (State.ctlFrame_keeps _ _ _ _ _ _ _)

theorem execPauseTimerExpire_keeps (m) (i) (s : State) : KeepsO s (execPauseTimerExpire m i s) := by
  unfold execPauseTimerExpire
  exact KeepsO.ite (KeepsO.next (State.pauseChange_keeps _ _ _ (fun _ => Keeps.foldl (Keeps.refl _) (fun _ _ =>
    State.pauseEnd_keeps _ _ _)))) (KeepsO.next (Keeps.refl _))

theorem execPauseWatchdogTrip_keeps (b) (p) (i) (s : State) : KeepsO s (execPauseWatchdogTrip b p i s) := by
  unfold execPauseWatchdogTrip
  exact KeepsO.ite (KeepsO.cut (fun h1 => KeepsO.next (((h1).trans (State.stat_keeps _ _ _ _ _)).trans
    (State.raiseEvt_keeps _ _ _))) (State.pauseChange_keeps _ _ _ (fun _ => Keeps.foldl (Keeps.refl _) (fun _ _ =>
    ((State.pauseEnd_keeps _ _ _).trans (State.wrb_keeps _ _ _ _)).trans (State.startTimer_keeps _ _ _)))))
    (KeepsO.next (Keeps.refl _))

theorem execWatchdogHoldEnd_keeps (b) (p) (i) (s : State) : KeepsO s (execWatchdogHoldEnd b p i s) := by
  unfold execWatchdogHoldEnd
  exact KeepsO.ite (KeepsO.next (Keeps.foldl (Keeps.refl _) (fun _ _ => (State.wrb_keeps _ _ _ _).trans
    (State.stopTimer_keeps _ _)))) (KeepsO.next (Keeps.refl _))

theorem State.fcSend_keeps (s : State) (m) (enable) (xoff) : Keeps s (State.fcSend s m enable xoff) := by
  unfold State.fcSend
  exact Keeps.cut (fun h1 => Keeps.ite (h1) ((h1).trans (State.wireControl_keeps _ _ _))) ((State.emit_keeps _
    _).trans (State.mst_keeps _ _ _ _))

theorem execPauseSend_keeps (bed) (p) (s : State) : KeepsO s (execPauseSend bed p s) := by
  unfold execPauseSend
  exact KeepsO.ite (KeepsO.next (Keeps.refl _)) (KeepsO.cut (fun h1 => KeepsO.next (Keeps.foldl (h1) (fun _ _ =>
    Keeps.ite (State.startTimer_keeps _ _ _) (State.stopTimer_keeps _ _)))) ((State.fcSend_keeps _ _ _ _).trans
    (State.macMod_keeps _ _ _)))

theorem execPauseRefresh_keeps (bed) (p) (c) (s : State) : KeepsO s (execPauseRefresh bed p c s) := by
  unfold execPauseRefresh
  exact KeepsO.ite (KeepsO.next ((State.fcSend_keeps _ _ _ _).trans (State.startTimer_keeps _ _ _))) (KeepsO.next
    (Keeps.refl _))

theorem State.mmSet_keeps (s : State) (b) (p) (st) : Keeps s (State.mmSet s b p st) := by
  unfold State.mmSet
  exact ((State.wrf_keeps _ _ _ _ _).trans (State.wrb_keeps _ _ _ _)).trans (State.macMod_keeps _ _ _)

theorem State.mmSend_keeps (s : State) (b) (p) (respond) : Keeps s (State.mmSend s b p respond) := by
  unfold State.mmSend
  exact Keeps.ite (((State.emit_keeps _ _).trans (State.stat_keeps _ _ _ _ _)).trans (State.wireControl_keeps _ _ _))
    (Keeps.refl _)

theorem State.mmTimer_keeps (s : State) (b) (p) : Keeps s (State.mmTimer s b p) := by
  unfold State.mmTimer
  exact State.startTimer_keeps _ _ _

theorem State.mmVerifying_keeps (s : State) (b) (p) : Keeps s (State.mmVerifying s b p) := by
  unfold State.mmVerifying
  exact (((State.mmSet_keeps _ _ _ _).trans (State.wrf_keeps _ _ _ _ _)).trans (State.mmSend_keeps _ _ _ _)).trans
    (State.mmTimer_keeps _ _ _)

theorem execMergeVerifyStart_keeps (b) (p) (s : State) : KeepsO s (execMergeVerifyStart b p s) := by
  unfold execMergeVerifyStart
  exact KeepsO.ite (KeepsO.next (Keeps.ite (State.mmVerifying_keeps _ _ _) (State.mmSet_keeps _ _ _ _))) (KeepsO.next
    (Keeps.refl _))

theorem State.mmReceive_keeps (s : State) (b) (p) (f) (hf : ∀ x, Keeps x (f x)) : Keeps s (State.mmReceive s b p f) :=
  by
  unfold State.mmReceive
  exact Keeps.ite (Keeps.refl _) (Keeps.cut (fun h1 => Keeps.ite ((h1).trans (hf _)) (h1)) (State.stat_keeps _ _ _ _
    _))

theorem execMergeRespondReceive_keeps (b) (p) (s : State) : KeepsO s (execMergeRespondReceive b p s) := by
  unfold execMergeRespondReceive
  exact KeepsO.next (State.mmReceive_keeps _ _ _ _ (fun _ => Keeps.ite (((State.mmSet_keeps _ _ _ _).trans
    (State.stopTimer_keeps _ _)).trans (State.raiseEvt_keeps _ _ _)) (Keeps.refl _)))

theorem execMergeVerifyTimeout_keeps (b) (p) (s : State) : KeepsO s (execMergeVerifyTimeout b p s) := by
  unfold execMergeVerifyTimeout
  exact KeepsO.ite (KeepsO.ite (KeepsO.next (((State.wrf_keeps _ _ _ _ _).trans (State.mmSend_keeps _ _ _ _)).trans
    (State.mmTimer_keeps _ _ _))) (KeepsO.next (((State.mmSet_keeps _ _ _ _).trans (State.stopTimer_keeps _ _)).trans
    (State.raiseEvt_keeps _ _ _)))) (KeepsO.next (Keeps.refl _))

theorem State.mmCtlWrite_keeps (s : State) (b) (p) (v) : Keeps s (State.mmCtlWrite s b p v) := by
  unfold State.mmCtlWrite
  exact Keeps.cut (fun h1 => Keeps.ite ((h1).trans (State.mmDisable_keeps _ _ _)) (Keeps.ite ((h1).trans
    (State.mmVerifying_keeps _ _ _)) (h1))) (State.wr_keeps _ _ _)

theorem execMergeVerifyRestart_keeps (b) (p) (v) (s : State) : KeepsO s (execMergeVerifyRestart b p v s) := by
  unfold execMergeVerifyRestart
  exact KeepsO.next (State.cfg_keeps _ _ _ (fun _ => State.mmCtlWrite_keeps _ _ _ _))

theorem execMergeVerifyFrameReceive_keeps (b) (p) (s : State) : KeepsO s (execMergeVerifyFrameReceive b p s) := by
  unfold execMergeVerifyFrameReceive
  exact KeepsO.next (State.mmReceive_keeps _ _ _ _ (fun _ => Keeps.ite (State.mmSend_keeps _ _ _ _) (Keeps.refl _)))

theorem State.snap_keeps (s : State) (m) (clear) : Keeps s (State.snap s m clear) := by
  unfold State.snap
  exact Keeps.cut (fun h1 => Keeps.ite ((h1).trans (State.wrs_keeps _ _ _)) (h1)) (State.wrs_keeps _ _ _)

theorem execStatSnap_keeps (m) (s : State) : KeepsO s (execStatSnap m s) := by
  unfold execStatSnap
  exact KeepsO.next (State.cfg_keeps _ _ _ (fun _ => State.snap_keeps _ _ _))

theorem execStatSnapClear_keeps (m) (s : State) : KeepsO s (execStatSnapClear m s) := by
  unfold execStatSnapClear
  exact KeepsO.next (State.cfg_keeps _ _ _ (fun _ => State.snap_keeps _ _ _))

theorem State.mgmtMod_keeps (s : State) (f) : Keeps s (State.mgmtMod s f) := by
  unfold State.mgmtMod
  exact Keeps.same rfl rfl rfl rfl rfl rfl rfl

theorem State.mgmtGiveUp_keeps (s : State) : Keeps s (State.mgmtGiveUp s) := by
  unfold State.mgmtGiveUp
  exact (State.mgmtMod_keeps _ _).trans (State.stopTimer_keeps _ _)

theorem State.mgmtBroken_keeps (s : State) (bits) : Keeps s (State.mgmtBroken s bits) := by
  unfold State.mgmtBroken
  exact ((State.mgmtStat_keeps _ _ _).trans (State.mgmtStat_keeps _ _ _)).trans (State.mgmtGiveUp_keeps _)

theorem execMgmtCollision_keeps (bits) (s : State) : KeepsO s (execMgmtCollision bits s) := by
  unfold execMgmtCollision
  exact KeepsO.ite (KeepsO.next (Keeps.refl _)) (KeepsO.cut (fun h1 => KeepsO.ite (KeepsO.next (((h1).trans
    (State.mgmtBroken_keeps _ _)).trans (State.mgmtStat_keeps _ _ _))) (KeepsO.ite (KeepsO.next (((h1).trans
    (State.mgmtBroken_keeps _ _)).trans (State.mgmtStat_keeps _ _ _))) (KeepsO.matchP ((h1).trans (State.draw_keeps
    _)) fun _ _ h2 => KeepsO.next (((h2).trans (State.mgmtMod_keeps _ _)).trans (State.startTimer_keeps _ _ _)))))
    (State.emit_keeps _ _))

theorem execMgmtBackoffEnd_keeps (s : State) : KeepsO s (execMgmtBackoffEnd s) := by
  unfold execMgmtBackoffEnd
  exact KeepsO.ite (KeepsO.next ((State.mgmtMod_keeps _ _).trans (State.stopTimer_keeps _ _))) (KeepsO.next
    (Keeps.refl _))

theorem execMgmtDeferEnd_keeps (s : State) : KeepsO s (execMgmtDeferEnd s) := by
  unfold execMgmtDeferEnd
  exact KeepsO.ite (KeepsO.next ((State.mgmtMod_keeps _ _).trans (State.stopTimer_keeps _ _))) (KeepsO.next
    (Keeps.refl _))

theorem State.mdioWrite_keeps (s : State) (v) : Keeps s (State.mdioWrite s v) := by
  unfold State.mdioWrite
  exact Keeps.cut (fun h1 => Keeps.ite (h1) (Keeps.ite ((h1).trans (State.wrb_keeps _ _ _ _)) (Keeps.cut (fun h2 =>
    Keeps.cut (fun h3 => ((h3).trans (State.emit_keeps _ _)).trans (State.startTimer_keeps _ _ _)) ((h2).trans
    (State.mgmtMod_keeps _ _))) (((h1).trans (State.wrb_keeps _ _ _ _)).trans (State.wrb_keeps _ _ _ _)))))
    (State.wr_keeps _ _ _)

theorem execMdioStart_keeps (v) (s : State) : KeepsO s (execMdioStart v s) := by
  unfold execMdioStart
  exact KeepsO.next (State.cfg_keeps _ _ _ (fun _ => State.mdioWrite_keeps _ _))

theorem execMdioDone_keeps (data) (s : State) : KeepsO s (execMdioDone data s) := by
  unfold execMdioDone
  exact KeepsO.ite (KeepsO.cut (fun h1 => KeepsO.next (Keeps.ite ((h1).trans (State.wr_keeps _ _ _)) (h1)))
    ((State.stopTimer_keeps _ _).trans (State.wrb_keeps _ _ _ _))) (KeepsO.next (Keeps.refl _))

theorem execWakeFrame_keeps (frame) (fcsGood) (s : State) : KeepsO s (execWakeFrame frame fcsGood s) := by
  unfold execWakeFrame
  exact KeepsO.ite (KeepsO.next (Keeps.refl _)) ((by split; exact KeepsO.cut (fun h1 => KeepsO.next (Keeps.upd rfl rfl (h1))) (((State.wrb_keeps _ _ _ _).trans (State.wrf_keeps _ _ _ _ _)).trans (State.emit_keeps _ _)); exact KeepsO.next (Keeps.refl _)))

end Sys2Proof.Machine
end

