-- ==== Sys2Proof/Laws/KeepsClock.lean ====
section
/-! SUPPORT. What each operation of Machine/Clock.lean keeps (Keeps). -/

namespace Sys2Proof.Machine

theorem State.timeMod_keeps (s : State) (f) : Keeps s (State.timeMod s f) := by
  unfold State.timeMod
  exact Keeps.same rfl rfl rfl rfl rfl rfl rfl

theorem State.tbMod_keeps (s : State) (k) (f) : Keeps s (State.tbMod s k f) := by
  unfold State.tbMod
  exact State.timeMod_keeps _ _

theorem State.ownTick_keeps (s : State) (k) : Keeps s (State.ownTick s k) := by
  unfold State.ownTick
  exact Keeps.ite (State.tbMod_keeps _ _ _) (Keeps.ite (State.tbMod_keeps _ _ _) (Keeps.refl _))

theorem State.pairFollow_keeps (s : State) (k) : Keeps s (State.pairFollow s k) := by
  unfold State.pairFollow
  exact ((State.tbMod_keeps _ _ _).trans (State.wrf_keeps _ _ _ _ _)).trans (State.raiseEvt_keeps _ _ _)

end Sys2Proof.Machine
end

