-- ==== Sys2Proof/Laws/KeepsTel.lean ====
section
/-! SUPPORT. What each operation of Machine/Tel.lean keeps (Keeps). -/

namespace Sys2Proof.Machine

theorem State.telMod_keeps (s : State) (f) : Keeps s (State.telMod s f) := by
  unfold State.telMod
  exact Keeps.same rfl rfl rfl rfl rfl rfl rfl

theorem State.telOpen_keeps (s : State) : Keeps s (State.telOpen s) := by
  unfold State.telOpen
  exact Keeps.ite (Keeps.refl _) (Keeps.ite (Keeps.refl _) (State.telMod_keeps _ _))

theorem State.telHappen_keeps (s : State) (port) (cls) (depth) (f) : Keeps s (State.telHappen s port cls depth f) :=
  by
  unfold State.telHappen
  exact Keeps.ite (Keeps.refl _) (Keeps.cut (fun h1 => (by (try extract_lets); split; exact h1; exact Keeps.cut (fun h2 => Keeps.ite (((h2).trans (State.inc_keeps _ _ _ _)).trans (State.raiseEvt_keeps _ _ _)) (h2)) ((h1).trans (State.telMod_keeps _ _)))) (State.telOpen_keeps _))

theorem State.telDepth_keeps (s : State) (port) (cls) (old) (new) : Keeps s (State.telDepth s port cls old new) := by
  unfold State.telDepth
  exact State.telHappen_keeps _ _ _ _ _

theorem State.telSelect_keeps (s : State) (port) (cls) (depth) (charged) (sojourn) : Keeps s (State.telSelect s port
  cls depth charged sojourn) := by
  unfold State.telSelect
  exact State.telHappen_keeps _ _ _ _ _

theorem State.telStep_keeps (s : State) (k) : Keeps s (State.telStep s k) := by
  unfold State.telStep
  exact Keeps.ite (State.telMod_keeps _ _) (Keeps.refl _)

theorem State.telWrap_keeps (s : State) (k) (cap) : Keeps s (State.telWrap s k cap) := by
  unfold State.telWrap
  exact Keeps.ite ((State.telMod_keeps _ _).trans (State.raiseEvt_keeps _ _ _)) (Keeps.refl _)

theorem State.telFlowRecord_keeps (s : State) (words) : Keeps s (State.telFlowRecord s words) := by
  unfold State.telFlowRecord
  exact Keeps.ite (Keeps.refl _) (Keeps.cut (fun h1 => ((h1).trans (State.telMod_keeps _ _)).trans
    (State.telWrap_keeps _ _ _)) (State.inc_keeps _ _ _ _))

theorem execIntervalEnd_keeps (s : State) : KeepsO s (execIntervalEnd s) := by
  unfold execIntervalEnd
  exact KeepsO.cut (fun h1 => (by (try extract_lets); split; exact KeepsO.next (h1); exact KeepsO.cut (fun h2 => KeepsO.next (Keeps.ite ((h2).trans (State.telOpen_keeps _)) (h2))) ((h1).trans (State.telMod_keeps _ _)))) (Keeps.ite (State.telOpen_keeps _) (Keeps.refl _))

theorem execIntervalSettle_keeps (s : State) : KeepsO s (execIntervalSettle s) := by
  unfold execIntervalSettle
  exact (by (try extract_lets); split; exact KeepsO.next (Keeps.refl _); exact KeepsO.ite (KeepsO.next (Keeps.refl _)) (KeepsO.cut (fun h1 => KeepsO.ite (KeepsO.next (h1)) (KeepsO.cut (fun h2 => KeepsO.next (((h2).trans (State.telMod_keeps _ _)).trans (State.telWrap_keeps _ _ _))) ((h1).trans (State.addCnt_keeps _ _ _ _ _)))) (State.telMod_keeps _ _)))

theorem State.flowAck_keeps (s : State) : Keeps s (State.flowAck s) := by
  unfold State.flowAck
  exact (by split; exact Keeps.refl _; exact (State.telMod_keeps _ _).trans (State.setCnt_keeps _ _ _))

theorem State.classAck_keeps (s : State) : Keeps s (State.classAck s) := by
  unfold State.classAck
  exact (by split; exact Keeps.refl _; exact Keeps.cut (fun h1 => Keeps.ite ((h1).trans (State.telMod_keeps _ _)) (Keeps.cut (fun h2 => ((h2).trans (State.setCnt_keeps _ _ _)).trans (State.wr2_keeps _ _ _)) ((h1).trans (State.telMod_keeps _ _)))) (State.telMod_keeps _ _))

theorem execArchiveWriteAck_keeps (classRing) (s : State) : KeepsO s (execArchiveWriteAck classRing s) := by
  unfold execArchiveWriteAck
  exact KeepsO.next (Keeps.ite (State.classAck_keeps _) (State.flowAck_keeps _))

end Sys2Proof.Machine
end

