-- ==== Sys2Proof/Laws/KeepsFrames.lean ====
section
/-! SUPPORT. What each operation of Machine/Frames.lean keeps (Keeps). -/

namespace Sys2Proof.Machine

theorem State.setFrame_keeps (s : State) (f) (x) : Keeps s (State.setFrame s f x) := by
  unfold State.setFrame
  exact Keeps.same rfl rfl rfl rfl rfl rfl rfl

theorem State.setCopy_keeps (s : State) (c) (x) : Keeps s (State.setCopy s c x) := by
  unfold State.setCopy
  exact Keeps.same rfl rfl rfl rfl rfl rfl rfl

theorem State.frameMod_keeps (s : State) (f) (g) : Keeps s (State.frameMod s f g) := by
  unfold State.frameMod
  exact State.setFrame_keeps _ _ _

theorem State.copyMod_keeps (s : State) (c) (g) : Keeps s (State.copyMod s c g) := by
  unfold State.copyMod
  exact State.setCopy_keeps _ _ _

theorem State.occAdd_keeps (s : State) (t) (g) : Keeps s (State.occAdd s t g) := by
  unfold State.occAdd
  exact State.wr2_keeps _ _ _

theorem State.writeNow_keeps (s : State) (f) (x) : Keeps s (State.writeNow s f x) := by
  unfold State.writeNow
  exact Keeps.cut (fun h1 => (by (try extract_lets); split; exact (h1).trans (State.startTimer_keeps _ _ _); exact h1)) ((State.occAdd_keeps _ _ _).trans (State.setFrame_keeps _ _ _))

theorem State.writeHeld_keeps (s : State) (f) : Keeps s (State.writeHeld s f) := by
  unfold State.writeHeld
  exact (by split; exact Keeps.ite (State.writeNow_keeps _ _ _) (Keeps.refl _); exact Keeps.refl _)

theorem State.writeWaiting_keeps (s : State) : Keeps s (State.writeWaiting s) := by
  unfold State.writeWaiting
  exact Keeps.foldl (Keeps.refl _) (fun _ _ => State.writeHeld_keeps _ _)

theorem State.occSub_keeps (s : State) (t) (g) : Keeps s (State.occSub s t g) := by
  unfold State.occSub
  exact Keeps.cut (fun h1 => Keeps.ite ((h1).trans (State.writeWaiting_keeps _)) (h1)) (State.wr2_keeps _ _ _)

theorem State.setClassCount_keeps (s : State) (port) (cls) (n) : Keeps s (State.setClassCount s port cls n) := by
  unfold State.setClassCount
  exact (State.wr2_keeps _ _ _).trans (State.telDepth_keeps _ _ _ _ _)

theorem State.flowMod_keeps (s : State) (f) (g) : Keeps s (State.flowMod s f g) := by
  unfold State.flowMod
  exact Keeps.same rfl rfl rfl rfl rfl rfl rfl

theorem State.clodMod_keeps (s : State) (c) (g) : Keeps s (State.clodMod s c g) := by
  unfold State.clodMod
  exact Keeps.same rfl rfl rfl rfl rfl rfl rfl

theorem State.setIngress_keeps (s : State) (port) (cls) (n) (rising) : Keeps s (State.setIngress s port cls n rising)
  := by
  unfold State.setIngress
  exact Keeps.cut (fun h1 => Keeps.ite ((h1).trans (State.wrb_keeps _ _ _ _)) (Keeps.ite ((h1).trans (State.wrb_keeps
    _ _ _ _)) (h1))) (Keeps.same rfl rfl rfl rfl rfl rfl rfl)

theorem State.countCopy_keeps (s : State) (c) (g) : Keeps s (State.countCopy s c g) := by
  unfold State.countCopy
  exact Keeps.cut (fun h1 => (h1).trans (State.setClassCount_keeps _ _ _ _)) ((State.flowMod_keeps _ _ _).trans
    (State.clodMod_keeps _ _ _))

theorem State.uncountCopy_keeps (s : State) (c) (g) : Keeps s (State.uncountCopy s c g) := by
  unfold State.uncountCopy
  exact Keeps.cut (fun h1 => (h1).trans (State.setClassCount_keeps _ _ _ _)) ((State.flowMod_keeps _ _ _).trans
    (State.clodMod_keeps _ _ _))

theorem State.freeMoved_keeps (s : State) (x) : Keeps s (State.freeMoved s x) := by
  unfold State.freeMoved
  exact Keeps.ite (Keeps.refl _) (State.occSub_keeps _ _ _)

theorem State.freeFrame_keeps (s : State) (f) (x) : Keeps s (State.freeFrame s f x) := by
  unfold State.freeFrame
  exact Keeps.cut (fun h1 => (by (try extract_lets); split; exact Keeps.ite ((h1).trans (State.setIngress_keeps _ _ _ _ _)) (h1); exact h1)) (Keeps.ite (State.setFrame_keeps _ _ _) (((State.setFrame_keeps _ _ _).trans (State.freeMoved_keeps _ _)).trans (State.occSub_keeps _ _ _)))

theorem State.unref_keeps (s : State) (f) : Keeps s (State.unref s f) := by
  unfold State.unref
  exact (by split; exact Keeps.refl _; exact Keeps.ite (State.setFrame_keeps _ _ _) (Keeps.ite (State.setFrame_keeps _ _ _) (State.freeFrame_keeps _ _ _)))

theorem State.pathEnd_keeps (s : State) (f) : Keeps s (State.pathEnd s f) := by
  unfold State.pathEnd
  exact (State.frameMod_keeps _ _ _).trans (State.unref_keeps _ _)

theorem State.discardAll_keeps (s : State) (f) : Keeps s (State.discardAll s f) := by
  unfold State.discardAll
  exact Keeps.cut (fun h1 => (h1).trans (State.pathEnd_keeps _ _)) ((by split; exact (State.frameMod_keeps _ _ _).trans (State.unref_keeps _ _); exact Keeps.refl _))

theorem State.reportDrop_keeps (s : State) (f) : Keeps s (State.reportDrop s f) := by
  unfold State.reportDrop
  exact (by split; exact State.sendFate_keeps _ _ _; exact Keeps.refl _)

theorem State.discard_keeps (s : State) (f) : Keeps s (State.discard s f) := by
  unfold State.discard
  exact (State.reportDrop_keeps _ _).trans (State.pathEnd_keeps _ _)

theorem State.endCopy_keeps (s : State) (c) : Keeps s (State.endCopy s c) := by
  unfold State.endCopy
  exact (by split; exact Keeps.refl _; exact Keeps.ite (State.setCopy_keeps _ _ _) (((State.uncountCopy_keeps _ _ _).trans (State.setCopy_keeps _ _ _)).trans (State.unref_keeps _ _)))

theorem State.readOut_keeps (s : State) (c) : Keeps s (State.readOut s c) := by
  unfold State.readOut
  exact (by split; exact Keeps.refl _; exact (by split; exact Keeps.refl _; exact ((State.uncountCopy_keeps _ _ _).trans (State.setCopy_keeps _ _ _)).trans (State.unref_keeps _ _)))

theorem State.copyFate_keeps (s : State) (x) (fate) : Keeps s (State.copyFate s x fate) := by
  unfold State.copyFate
  exact (by split; exact State.sendFate_keeps _ _ _; exact Keeps.refl _)

theorem State.discardCopy_keeps (s : State) (c) : Keeps s (State.discardCopy s c) := by
  unfold State.discardCopy
  exact (by split; exact Keeps.refl _; exact (State.copyFate_keeps _ _ _).trans (State.endCopy_keeps _ _))

theorem State.writeFrame_keeps (s : State) (f) (x) : Keeps s (State.writeFrame s f x) := by
  unfold State.writeFrame
  exact Keeps.ite (State.writeNow_keeps _ _ _) (State.setFrame_keeps _ _ _)

theorem State.addFrame_keeps (s : State) (x) : Keeps s (State.addFrame s x).2 := by
  unfold State.addFrame
  exact Keeps.cut (fun h1 => Keeps.ite ((h1).trans (State.setFrame_keeps _ _ _)) ((h1).trans (State.writeFrame_keeps _
    _ _))) (Keeps.same rfl rfl rfl rfl rfl rfl rfl)

theorem State.addCopy_keeps (s : State) (c) : Keeps s (State.addCopy s c).2 := by
  unfold State.addCopy
  exact (Keeps.cut (fun h1 => Keeps.upd rfl rfl (h1)) (State.setCopy_keeps _ _ _)).trans (State.frameMod_keeps _ _ _)

end Sys2Proof.Machine
end

