-- ==== Sys2Proof/Laws/KeepsAdmission.lean ====
section
/-! SUPPORT. What each operation of Machine/Admission.lean keeps (Keeps). -/

namespace Sys2Proof.Machine

theorem State.setMeter_keeps (s : State) (id) (m) : Keeps s (State.setMeter s id m) := by
  unfold State.setMeter
  exact Keeps.same rfl rfl rfl rfl rfl rfl rfl

theorem State.meterHostWrite_keeps (s : State) (b) (w) (v) : Keeps s (State.meterHostWrite s b w v) := by
  unfold State.meterHostWrite
  exact State.wr_keeps _ _ _

theorem State.meterRun_keeps {s t : State} {id pre b c : Nat} {rd : Bool} (h : s.meterRun id pre b = some (c, rd, t)) :
    Keeps s t := by
  unfold State.meterRun at h
  dsimp only at h
  split at h
  · cases h
    exact State.setMeter_keeps _ _ _
  · cases h

theorem State.meterOf_keeps {s t : State} {x : Frame} {c : Nat} {rd : Bool} (h : s.meterOf x = some (c, rd, t)) :
    Keeps s t := by
  unfold State.meterOf at h
  extract_lets cfg a0 id at h
  split at h
  · exact State.meterRun_keeps h
  · cases h

theorem State.meterFrame_keeps (s : State) (f) : Keeps s (State.meterFrame s f) := by
  unfold State.meterFrame
  split
  · exact Keeps.refl _
  · split
    · rename_i h
      exact ((State.meterOf_keeps h).trans (State.setCnt_keeps _ _ _)).trans (State.frameMod_keeps _ _ _)
    · exact State.frameMod_keeps _ _ _

theorem State.meterOverride_keeps (s : State) (f) (id) : Keeps s (State.meterOverride s f id) := by
  unfold State.meterOverride
  split
  · exact Keeps.refl _
  · split
    · rename_i h
      exact (State.meterRun_keeps h).trans (State.frameMod_keeps _ _ _)
    · exact Keeps.refl _

theorem State.meterOp_keeps (s : State) (op) : Keeps s (State.meterOp s op) := by
  unfold State.meterOp
  exact State.wr_keeps _ _ _

theorem State.meterRead_keeps (s : State) : Keeps s (State.meterRead s) := by
  unfold State.meterRead
  exact (State.setMeter_keeps _ _ _).trans (State.wrs_keeps _ _ _)

theorem State.meterWrite_keeps (s : State) (full) : Keeps s (State.meterWrite s full) := by
  unfold State.meterWrite
  exact State.setMeter_keeps _ _ _

theorem execMeterRead_keeps (s : State) : KeepsO s (execMeterRead s) := by
  unfold execMeterRead
  exact KeepsO.next (State.cfg_keeps _ _ _ (fun _ => (State.meterOp_keeps _ _).trans (State.meterRead_keeps _)))

theorem execMeterWriteFull_keeps (s : State) : KeepsO s (execMeterWriteFull s) := by
  unfold execMeterWriteFull
  exact KeepsO.next (State.cfg_keeps _ _ _ (fun _ => (State.meterOp_keeps _ _).trans (State.meterWrite_keeps _ _)))

theorem execMeterWriteKeep_keeps (s : State) : KeepsO s (execMeterWriteKeep s) := by
  unfold execMeterWriteKeep
  exact KeepsO.next (State.cfg_keeps _ _ _ (fun _ => (State.meterOp_keeps _ _).trans (State.meterWrite_keeps _ _)))

theorem execMeterRefresh_keeps (id) (s : State) : KeepsO s (execMeterRefresh id s) := by
  unfold execMeterRefresh
  exact KeepsO.next (Keeps.ite (State.setMeter_keeps _ _ _) (Keeps.refl _))

theorem State.admCount_keeps (s : State) (i) : Keeps s (State.admCount s i) := by
  unfold State.admCount
  exact Keeps.cut (fun h1 => Keeps.ite ((h1).trans (State.raiseEvt_keeps _ _ _)) (h1)) (State.inc_keeps _ _ _ _)

theorem State.admFail_keeps (s : State) (x) (i) : Keeps s (State.admFail s x i) := by
  unfold State.admFail
  exact (State.admCount_keeps _ _).trans (State.pmuOcc_keeps _ _ _)

theorem State.ecnDraw_keeps (s : State) (port) (cls) (q) : Keeps s (State.ecnDraw s port cls q).2 := by
  unfold State.ecnDraw
  exact Keeps.iteP (Keeps.refl _) (Keeps.cut (fun h1 => Keeps.iteP (h1) (Keeps.iteP (h1) (h1))) (Keeps.same rfl rfl
    rfl rfl rfl rfl rfl))

theorem State.admitTests_keeps (s : State) (x) (c) (colour) (lossless) : Keeps s (State.admitTests s x c colour
  lossless).2 := by
  unfold State.admitTests
  exact (by split; exact Keeps.refl _; exact Keeps.cut (fun h1 => Keeps.iteP (h1) (h1)) (State.ecnDraw_keeps _ _ _ _))

theorem State.admitNow_keeps (s : State) (f) (c) (mark) : Keeps s (State.admitNow s f c mark) := by
  unfold State.admitNow
  exact (by split; exact Keeps.refl _; exact Keeps.cut (fun h1 => Keeps.cut (fun h2 => Keeps.cut (fun h3 => Keeps.ite (((h3).trans (State.frameMod_keeps _ _ _)).trans (State.setIngress_keeps _ _ _ _ _)) (h3)) (Keeps.ite (((h2).trans (State.admCount_keeps _ _)).trans (State.pmuOcc_keeps _ _ _)) (h2))) ((((h1).trans (State.countCopy_keeps _ _ _)).trans (State.admCount_keeps _ _)).trans (State.pmuOcc_keeps _ _ _))) (State.addCopy_keeps _ _))

theorem State.admitCopy_keeps (s : State) (f) (c) (colour) (lossless) : Keeps s (State.admitCopy s f c colour
  lossless) := by
  unfold State.admitCopy
  split
  · exact Keeps.refl _
  · have h := fun x => State.admitTests_keeps s x c colour lossless
    split
    · rename_i e
      exact ((Prod.mk.inj e).2 ▸ h _ : Keeps s _).trans ((State.admFail_keeps _ _ _).trans (State.reportDrop_keeps _ _))
    · rename_i e
      exact ((Prod.mk.inj e).2 ▸ h _ : Keeps s _).trans (State.admitNow_keeps _ _ _ _)

theorem State.admitOne_keeps (s : State) (f) (c) (colour) (lossless) : Keeps s (State.admitOne s f c colour lossless)
  := by
  unfold State.admitOne
  exact (by split; exact Keeps.refl _; exact Keeps.cut (fun h1 => (by (try extract_lets); split; exact ((h1).trans (State.admFail_keeps _ _ _)).trans (State.reportDrop_keeps _ _); exact ((h1).trans (State.frameMod_keeps _ _ _)).trans (State.admitCopy_keeps _ _ _ _ _))) (Keeps.ite (State.raiseEvt_keeps _ _ _) (Keeps.refl _)))

theorem State.direct_keeps (s : State) (f) (c) : Keeps s (State.direct s f c) := by
  unfold State.direct
  exact State.admitOne_keeps _ _ _ _ _

end Sys2Proof.Machine
end

