-- ==== Sys2Proof/Laws/KeepsMesh.lean ====
section
/-! SUPPORT. What each operation of Machine/Mesh.lean keeps (Keeps). -/

namespace Sys2Proof.Machine

theorem State.meshMod_keeps (s : State) (f) : Keeps s (State.meshMod s f) := by
  unfold State.meshMod
  exact Keeps.same rfl rfl rfl rfl rfl rfl rfl

theorem State.meshCommit_keeps (s : State) (b) : Keeps s (State.meshCommit s b) := by
  unfold State.meshCommit
  exact Keeps.ite ((State.wrb_keeps _ _ _ _).trans (State.raiseEvt_keeps _ _ _)) (Keeps.cut (fun h1 => Keeps.ite
    ((h1).trans (State.raiseEvt_keeps _ _ _)) ((h1).trans (State.wrb_keeps _ _ _ _))) (State.wrf_keeps _ _ _ _ _))

theorem State.commitOnce_keeps (s : State) (k) (pulse) (f) (hf : ∀ x, Keeps x (f x)) : Keeps s (State.commitOnce s k
  pulse f) := by
  unfold State.commitOnce
  exact Keeps.ite (Keeps.refl _) ((hf _).trans (State.meshMod_keeps _ _))

theorem State.meshCommitBy_keeps (s : State) (b) (pulse) : Keeps s (State.meshCommitBy s b pulse) := by
  unfold State.meshCommitBy
  exact State.commitOnce_keeps _ _ _ _ (fun _ => State.meshCommit_keeps _ _)

theorem State.meshCtlWrite_keeps (s : State) (b) (v) : Keeps s (State.meshCtlWrite s b v) := by
  unfold State.meshCtlWrite
  exact Keeps.cut (fun h1 => Keeps.ite ((h1).trans (State.meshCommitBy_keeps _ _ _)) (h1)) (State.wr_keeps _ _ _)

theorem execMeshCommit_keeps (b) (v) (s : State) : KeepsO s (execMeshCommit b v s) := by
  unfold execMeshCommit
  exact KeepsO.next (State.cfg_keeps _ _ _ (fun _ => State.meshCtlWrite_keeps _ _ _))

theorem execMeshDrained_keeps (b) (s : State) : KeepsO s (execMeshDrained b s) := by
  unfold execMeshDrained
  exact KeepsO.ite (KeepsO.next ((State.wrb_keeps _ _ _ _).trans (State.raiseEvt_keeps _ _ _))) (KeepsO.next
    (Keeps.refl _))

theorem State.setRule_keeps (s : State) (k) (r) : Keeps s (State.setRule s k r) := by
  unfold State.setRule
  exact State.meshMod_keeps _ _

theorem State.tblShow_keeps (s : State) (b) (r) : Keeps s (State.tblShow s b r) := by
  unfold State.tblShow
  exact State.wrs_keeps _ _ _

theorem State.tblOp_keeps (s : State) (b) (op) : Keeps s (State.tblOp s b op) := by
  unfold State.tblOp
  exact State.wrf_keeps _ _ _ _ _

theorem State.tblRefuse_keeps (s : State) (b) : Keeps s (State.tblRefuse s b) := by
  unfold State.tblRefuse
  exact (State.wrb_keeps _ _ _ _).trans (State.raiseEvt_keeps _ _ _)

theorem State.tblRead_keeps (s : State) (b) : Keeps s (State.tblRead s b) := by
  unfold State.tblRead
  exact State.tblShow_keeps _ _ _

theorem State.tblWrite_keeps (s : State) (b) : Keeps s (State.tblWrite s b) := by
  unfold State.tblWrite
  exact (by (try extract_lets); split <;> exact Keeps.ite (State.tblRefuse_keeps _ _) (State.setRule_keeps _ _ _))

theorem State.tblClear_keeps (s : State) (b) : Keeps s (State.tblClear s b) := by
  unfold State.tblClear
  exact Keeps.ite (State.tblRefuse_keeps _ _) (State.setRule_keeps _ _ _)

theorem execMeshTblRead_keeps (b) (s : State) : KeepsO s (execMeshTblRead b s) := by
  unfold execMeshTblRead
  exact KeepsO.next (State.cfg_keeps _ _ _ (fun _ => (State.tblOp_keeps _ _ _).trans (State.tblRead_keeps _ _)))

theorem execMeshTblWrite_keeps (b) (s : State) : KeepsO s (execMeshTblWrite b s) := by
  unfold execMeshTblWrite
  exact KeepsO.next (State.cfg_keeps _ _ _ (fun _ => (State.tblOp_keeps _ _ _).trans (State.tblWrite_keeps _ _)))

theorem execMeshTblClear_keeps (b) (s : State) : KeepsO s (execMeshTblClear b s) := by
  unfold execMeshTblClear
  exact KeepsO.next (State.cfg_keeps _ _ _ (fun _ => (State.tblOp_keeps _ _ _).trans (State.tblClear_keeps _ _)))

theorem execPayloadMatchFinal_keeps (f) (s : State) : KeepsO s (execPayloadMatchFinal f s) := by
  unfold execPayloadMatchFinal
  exact (by split; exact KeepsO.ite (KeepsO.next (State.frameMod_keeps _ _ _)) (KeepsO.next (Keeps.refl _)); exact KeepsO.next (Keeps.refl _))

theorem State.rewCommit_keeps (s : State) (b) : Keeps s (State.rewCommit s b) := by
  unfold State.rewCommit
  exact Keeps.ite ((State.wrb_keeps _ _ _ _).trans (State.raiseEvt_keeps _ _ _)) ((State.wrf_keeps _ _ _ _ _).trans
    (State.wrb_keeps _ _ _ _))

theorem State.rewCommitBy_keeps (s : State) (b) (pulse) : Keeps s (State.rewCommitBy s b pulse) := by
  unfold State.rewCommitBy
  exact State.commitOnce_keeps _ _ _ _ (fun _ => State.rewCommit_keeps _ _)

theorem State.rewCtlWrite_keeps (s : State) (b) (v) : Keeps s (State.rewCtlWrite s b v) := by
  unfold State.rewCtlWrite
  exact Keeps.cut (fun h1 => Keeps.ite ((h1).trans (State.rewCommitBy_keeps _ _ _)) (h1)) (State.wr_keeps _ _ _)

theorem execRewriteCommit_keeps (b) (v) (s : State) : KeepsO s (execRewriteCommit b v s) := by
  unfold execRewriteCommit
  exact KeepsO.next (State.cfg_keeps _ _ _ (fun _ => State.rewCtlWrite_keeps _ _ _))

theorem execRewriteDrained_keeps (b) (s : State) : KeepsO s (execRewriteDrained b s) := by
  unfold execRewriteDrained
  exact KeepsO.ite (KeepsO.next (State.wrb_keeps _ _ _ _)) (KeepsO.next (Keeps.refl _))

theorem State.replOp_keeps (s : State) (op) : Keeps s (State.replOp s op) := by
  unfold State.replOp
  exact State.wrf_keeps _ _ _ _ _

theorem State.replRead_keeps (s : State) : Keeps s (State.replRead s) := by
  unfold State.replRead
  exact (by split <;> exact State.wrs_keeps _ _ _)

theorem State.setGroup_keeps (s : State) (g) (w) : Keeps s (State.setGroup s g w) := by
  unfold State.setGroup
  exact State.meshMod_keeps _ _

theorem State.setMember_keeps (s : State) (i) (ws) : Keeps s (State.setMember s i ws) := by
  unfold State.setMember
  exact State.meshMod_keeps _ _

theorem State.replWrite_keeps (s : State) : Keeps s (State.replWrite s) := by
  unfold State.replWrite
  exact (by split <;> exact Keeps.ite (State.setMember_keeps _ _ _) (State.setGroup_keeps _ _ _))

theorem State.replClear_keeps (s : State) : Keeps s (State.replClear s) := by
  unfold State.replClear
  exact (by split <;> exact Keeps.ite (State.setMember_keeps _ _ _) (State.setGroup_keeps _ _ _))

theorem execReplRead_keeps (s : State) : KeepsO s (execReplRead s) := by
  unfold execReplRead
  exact KeepsO.next (State.cfg_keeps _ _ _ (fun _ => (State.replOp_keeps _ _).trans (State.replRead_keeps _)))

theorem execReplWrite_keeps (s : State) : KeepsO s (execReplWrite s) := by
  unfold execReplWrite
  exact KeepsO.next (State.cfg_keeps _ _ _ (fun _ => (State.replOp_keeps _ _).trans (State.replWrite_keeps _)))

theorem execReplClear_keeps (s : State) : KeepsO s (execReplClear s) := by
  unfold execReplClear
  exact KeepsO.next (State.cfg_keeps _ _ _ (fun _ => (State.replOp_keeps _ _).trans (State.replClear_keeps _)))

end Sys2Proof.Machine
end

