-- ==== Sys2Proof/Laws/KeepsHandoff.lean ====
section
/-! SUPPORT. What each operation of Machine/Handoff.lean keeps (Keeps). -/

namespace Sys2Proof.Machine

theorem State.setTrial_keeps (s : State) (b) (k) (v) : Keeps s (State.setTrial s b k v) := by
  unfold State.setTrial
  exact State.meshMod_keeps _ _

theorem State.setPipeMap_keeps (s : State) (b) (w) : Keeps s (State.setPipeMap s b w) := by
  unfold State.setPipeMap
  exact Keeps.cut (fun h1 => Keeps.foldl (h1) (fun _ _ => State.wrb_keeps _ _ _ _)) (State.wr_keeps _ _ _)

theorem State.pipeMapWrite_keeps (s : State) (b) (v) : Keeps s (State.pipeMapWrite s b v) := by
  unfold State.pipeMapWrite
  exact Keeps.ite ((State.wrb_keeps _ _ _ _).trans (State.raiseEvt_keeps _ _ _)) (Keeps.cut (fun h1 => Keeps.ite
    ((h1).trans (State.meshMod_keeps _ _)) (h1)) (State.setPipeMap_keeps _ _ _))

theorem State.parseCtlWrite_keeps (s : State) (b) (v) : Keeps s (State.parseCtlWrite s b v) := by
  unfold State.parseCtlWrite
  exact Keeps.cut (fun h1 => Keeps.ite ((h1).trans (State.raiseEvt_keeps _ _ _)) (h1)) (State.wr_keeps _ _ _)

theorem execPipeMapWrite_keeps (b) (v) (s : State) : KeepsO s (execPipeMapWrite b v s) := by
  unfold execPipeMapWrite
  exact KeepsO.next (State.cfg_keeps _ _ _ (fun _ => State.pipeMapWrite_keeps _ _ _))

theorem State.parseFault_keeps (s : State) (f) (b) : Keeps s (State.parseFault s f b) := by
  unfold State.parseFault
  exact ((State.inc_keeps _ _ _ _).trans (State.reportDrop_keeps _ _)).trans (State.discardAll_keeps _ _)

theorem State.pipeFault_keeps (s : State) (b) (k) : Keeps s (State.pipeFault s b k) := by
  unfold State.pipeFault
  exact Keeps.cut (fun h1 => (by (try extract_lets); split; exact h1; exact (by (try extract_lets); split; exact ((h1).trans (State.setPipeMap_keeps _ _ _)).trans (State.raiseEvt_keeps _ _ _); exact (h1).trans (State.setPipeMap_keeps _ _ _)))) ((State.wrb_keeps _ _ _ _).trans (State.raiseEvt_keeps _ _ _))

theorem execPipeTrialPass_keeps (b) (pipe) (s : State) : KeepsO s (execPipeTrialPass b pipe s) := by
  unfold execPipeTrialPass
  exact (by split; exact KeepsO.ite (KeepsO.next (State.setTrial_keeps _ _ _ _)) (KeepsO.next (Keeps.refl _)); exact KeepsO.next (Keeps.refl _))

theorem State.auditDue_keeps (s : State) (b) (pslot) : Keeps s (State.auditDue s b pslot).2 := by
  unfold State.auditDue
  refine Keeps.iteP (Keeps.refl _) ?_
  split
  dsimp only
  exact State.meshMod_keeps _ _

theorem State.dropWindows_keeps (s : State) (b) (held) : Keeps s (State.dropWindows s b held) := by
  unfold State.dropWindows
  exact Keeps.foldl (Keeps.refl _) (fun _ _ => State.parseFault_keeps _ _ _)

theorem State.trialWindow_keeps (s : State) (b) (pipe) (bad) : Keeps s (State.trialWindow s b pipe bad) := by
  unfold State.trialWindow
  exact (by split; exact Keeps.ite (Keeps.refl _) (Keeps.ite (((State.setTrial_keeps _ _ _ _).trans (State.wrb_keeps _ _ _ _)).trans (State.raiseEvt_keeps _ _ _)) (State.setTrial_keeps _ _ _ _)); exact Keeps.refl _)

theorem State.auditWindow_keeps (s : State) (f) (b) (pslot) (bad) (held) : Keeps s (State.auditWindow s f b pslot bad
  held).2 := by
  have hd : ∀ v t, s.auditDue b pslot = (v, t) → Keeps s t := fun v t h => by
    have := State.auditDue_keeps s b pslot
    rwa [h] at this
  unfold State.auditWindow
  extract_lets k
  split
  · exact hd _ _ ‹_›
  · have h := (hd _ _ ‹_›).trans (State.inc_keeps _ (offParseCnt b 2) (offParseEvt b) 6)
    refine Keeps.iteP h ?_
    have g := (h.trans (State.wrb_keeps _ (offParsePipeStatus b) (8 + k) true)).trans
      (State.raiseEvt_keeps _ (offParseEvt b) 2)
    exact Keeps.ite ((g.trans (State.dropWindows_keeps _ _ _)).trans (State.pipeFault_keeps _ _ _)) g

theorem State.recheck_keeps (s : State) (f) (b) (pslot) (recheck) : Keeps s (State.recheck s f b pslot recheck).2 :=
  by
  unfold State.recheck
  exact Keeps.cut (fun h1 => (h1).trans (State.auditWindow_keeps _ _ _ _ _ _)) ((by split; exact State.trialWindow_keeps _ _ _ _; exact Keeps.refl _))

theorem State.deliver_keeps (s : State) (f) (c) : Keeps s (State.deliver s f c) := by
  unfold State.deliver
  exact (State.direct_keeps _ _ _).trans (State.pathEnd_keeps _ _)

theorem State.mfFound_keeps (s : State) (b) (c) : Keeps s (State.mfFound s b c) := by
  unfold State.mfFound
  exact Keeps.cut (fun h1 => Keeps.ite (h1) (((h1).trans (State.wrb_keeps _ _ _ _)).trans (State.raiseEvt_keeps _ _
    _))) (State.inc_keeps _ _ _ _)

theorem State.mfApply_keeps (s : State) (f) (b) (c) (k) (hk : ∀ x, Keeps x (k x)) : Keeps s (State.mfApply s f b c k)
  := by
  unfold State.mfApply
  exact Keeps.cut (fun h1 => (by (try extract_lets); split; exact ((h1).trans (State.reportDrop_keeps _ _)).trans (State.discardAll_keeps _ _); exact (h1).trans (State.deliver_keeps _ _ _); exact (h1).trans (hk _))) (State.frameMod_keeps _ _ _)

theorem State.timeoutAction_keeps (s : State) (f) (b) (counted) : Keeps s (State.timeoutAction s f b counted) := by
  unfold State.timeoutAction
  exact Keeps.cut (fun h1 => id ((by (try extract_lets); split; exact (h1).trans (State.deliver_keeps _ _ _); exact Keeps.ite ((h1).trans (State.deliver_keeps _ _ _)) (((h1).trans (State.dropTel_keeps _ _ _)).trans (State.discard_keeps _ _)); exact ((h1).trans (State.dropTel_keeps _ _ _)).trans (State.discard_keeps _ _)))) (Keeps.ite ((State.inc_keeps _ _ _ _).trans (State.raiseEvt_keeps _ _ _)) (Keeps.refl _))

theorem State.meshPunt_keeps (s : State) (f) (x) : Keeps s (State.meshPunt s f x) := by
  unfold State.meshPunt
  exact State.deliver_keeps _ _ _

theorem State.toReplicator_keeps (s : State) (f) (x) (g) : Keeps s (State.toReplicator s f x g) := by
  unfold State.toReplicator
  exact Keeps.ite ((State.dropTel_keeps _ _ _).trans (State.discard_keeps _ _)) (Keeps.cut (fun h1 => (by (try extract_lets); split; exact ((h1).trans (State.admFail_keeps _ _ _)).trans (State.discard_keeps _ _); exact (h1).trans (State.frameMod_keeps _ _ _))) (Keeps.ite (State.raiseEvt_keeps _ _ _) (Keeps.refl _)))

theorem State.verdictAction_keeps (s : State) (f) (m) : Keeps s (State.verdictAction s f m) := by
  unfold State.verdictAction
  exact (by split; exact Keeps.refl _; exact Keeps.cut (fun h1 => (by (try extract_lets); split; exact h1; exact Keeps.ite (((h1).trans (State.admFail_keeps _ _ _)).trans (State.discard_keeps _ _)) (Keeps.ite ((((h1).trans (State.inc_keeps _ _ _ _)).trans (State.raiseEvt_keeps _ _ _)).trans (State.discard_keeps _ _)) (Keeps.ite (((h1).trans (State.inc_keeps _ _ _ _)).trans (State.discard_keeps _ _)) (Keeps.ite ((h1).trans (State.toReplicator_keeps _ _ _ _)) (((h1).trans (State.admitOne_keeps _ _ _ _ _)).trans (State.pathEnd_keeps _ _))))))) (Keeps.ite (State.meterOverride_keeps _ _ _) (Keeps.refl _)))

theorem State.settleNow_keeps (s : State) (f) : Keeps s (State.settleNow s f) := by
  unfold State.settleNow
  split
  · exact Keeps.refl _
  · extract_lets go
    have hgo : ∀ v, Keeps v (go v) := fun v => by
      dsimp only [go]
      split
      · exact State.verdictAction_keeps _ _ _
      · exact State.timeoutAction_keeps _ _ _ _
      · exact State.timeoutAction_keeps _ _ _ _
      · exact State.meshPunt_keeps _ _ _
      · exact Keeps.refl _
    exact Keeps.ite (hgo _) (State.mfApply_keeps _ _ _ _ _ fun _ =>
      (Keeps.ite (Keeps.refl _) (State.frameMod_keeps _ _ _)).trans (hgo _))

theorem State.settleFate_keeps (s : State) (f) : Keeps s (State.settleFate s f) := by
  unfold State.settleFate
  exact (by split; exact Keeps.ite (Keeps.refl _) (State.settleNow_keeps _ _); exact Keeps.refl _)

theorem State.releaseHeld_keeps (s : State) : Keeps s (State.releaseHeld s) := by
  unfold State.releaseHeld
  exact Keeps.foldl (Keeps.refl _) (fun _ _ => State.settleFate_keeps _ _)

theorem State.fateKnown_keeps (s : State) (f) (v) : Keeps s (State.fateKnown s f v) := by
  unfold State.fateKnown
  exact (by split; exact Keeps.refl _; exact Keeps.cut (fun h1 => Keeps.ite (h1) ((h1).trans (State.settleFate_keeps _ _))) (State.setFrame_keeps _ _ _))

theorem State.setHandle_keeps (s : State) (k) (h) : Keeps s (State.setHandle s k h) := by
  unfold State.setHandle
  exact State.meshMod_keeps _ _

theorem State.setKeyQueue_keeps (s : State) (b) (c) (q) : Keeps s (State.setKeyQueue s b c q) := by
  unfold State.setKeyQueue
  exact State.meshMod_keeps _ _

theorem State.freeHandle_keeps (s : State) (k) : Keeps s (State.freeHandle s k) := by
  unfold State.freeHandle
  exact Keeps.cut (fun h1 => (h1).trans (State.meshMod_keeps _ _)) ((State.setHandle_keeps _ _ _).trans
    (State.stopTimer_keeps _ _))

theorem State.handOff_keeps (s : State) (f) (start) : Keeps s (State.handOff s f start) := by
  unfold State.handOff
  exact (by split; exact Keeps.refl _; exact (by split; exact ((State.inc_keeps _ _ _ _).trans (State.raiseEvt_keeps _ _ _)).trans (State.fateKnown_keeps _ _ _); exact Keeps.cut (fun h1 => Keeps.cut (fun h2 => Keeps.cut (fun h3 => (h3).trans (State.startTimer_keeps _ _ _)) ((h2).trans (State.frameMod_keeps _ _ _))) (((h1).trans (State.setHandle_keeps _ _ _)).trans (State.setKeyQueue_keeps _ _ _ _))) (State.meterFrame_keeps _ _)))

theorem State.trace_keeps (s : State) (x) : Keeps s (State.trace s x) := by
  unfold State.trace
  exact Keeps.ite (((State.wrs_keeps _ _ _).trans (State.wrb_keeps _ _ _ _)).trans (State.wrb_keeps _ _ _ _))
    (Keeps.refl _)

theorem State.finalAction_keeps (s : State) (f) (op) (start) : Keeps s (State.finalAction s f op start) := by
  unfold State.finalAction
  exact (by split; exact Keeps.refl _; exact Keeps.cut (fun h1 => (by (try extract_lets); split; exact (h1).trans (State.handOff_keeps _ _ _); exact ((h1).trans (State.inc_keeps _ _ _ _)).trans (State.fateKnown_keeps _ _ _); exact ((h1).trans (State.inc_keeps _ _ _ _)).trans (State.discard_keeps _ _))) (Keeps.ite (State.frameMod_keeps _ _ _) (Keeps.refl _)))

theorem State.classify_keeps (s : State) (f) (start) : Keeps s (State.classify s f start) := by
  unfold State.classify
  exact (by split; exact Keeps.refl _; exact (by (try extract_lets); split <;> exact Keeps.cut (fun h1 => Keeps.cut (fun h2 => Keeps.ite (Keeps.ite ((h2).trans (State.frameMod_keeps _ _ _)) (Keeps.cut (fun h3 => (h3).trans (State.mfApply_keeps _ _ _ _ _ (fun _ => State.finalAction_keeps _ _ _ _))) (((h2).trans (State.mfFound_keeps _ _ _)).trans (State.frameMod_keeps _ _ _)))) ((h2).trans (State.finalAction_keeps _ _ _ _))) ((h1).trans (State.frameMod_keeps _ _ _))) (State.inc_keeps _ _ _ _)))

theorem State.shadowSeen_keeps (s : State) (x) : Keeps s (State.shadowSeen s x) := by
  unfold State.shadowSeen
  exact Keeps.ite (Keeps.ite (State.harmMod_keeps _ _) (State.shadowMiss_keeps _)) (Keeps.refl _)

theorem State.firstPass_keeps (s : State) (f) (start) : Keeps s (State.firstPass s f start) := by
  unfold State.firstPass
  exact (by split; exact Keeps.refl _; exact Keeps.cut (fun h1 => Keeps.ite ((h1).trans (State.classify_keeps _ _ _)) (((h1).trans (State.mfFound_keeps _ _ _)).trans (State.mfApply_keeps _ _ _ _ _ (fun _ => State.classify_keeps _ _ _)))) (((State.setFrame_keeps _ _ _).trans (State.trace_keeps _ _)).trans (State.shadowSeen_keeps _ _)))

theorem State.laterPass_keeps (s : State) (f) (start) : Keeps s (State.laterPass s f start) := by
  unfold State.laterPass
  exact (State.frameMod_keeps _ _ _).trans (State.classify_keeps _ _ _)

theorem State.beatTake_keeps (s : State) (b) : Keeps s (State.beatTake s b) := by
  unfold State.beatTake
  exact State.meshMod_keeps _ _

theorem State.toWindow_keeps (s : State) (f) (x) : Keeps s (State.toWindow s f x) := by
  unfold State.toWindow
  exact (by split; exact (State.beatTake_keeps _ _).trans (State.writeFrame_keeps _ _ _); exact State.setFrame_keeps _ _ _; exact Keeps.refl _)

theorem execParseWindow_keeps (f) (pslot) (recheck) (start) (s : State) : KeepsO s (execParseWindow f pslot recheck
  start s) := by
  unfold execParseWindow
  exact (by split; exact KeepsO.next (Keeps.refl _); exact KeepsO.ite (KeepsO.next ((State.dropTel_keeps _ _ _).trans (State.discard_keeps _ _))) (KeepsO.ite (KeepsO.next (Keeps.refl _)) (KeepsO.ite (KeepsO.next ((State.rxDiscard_keeps _ _ _).trans (State.setFrame_keeps _ _ _))) (KeepsO.cut (fun h1 => KeepsO.cut (fun h2 => KeepsO.ite (KeepsO.next (((h2).trans (State.parseFault_keeps _ _ _)).trans (State.releaseHeld_keeps _))) (KeepsO.ite (KeepsO.next (((h2).trans (State.firstPass_keeps _ _ _)).trans (State.releaseHeld_keeps _))) (KeepsO.next (((h2).trans (State.laterPass_keeps _ _ _)).trans (State.releaseHeld_keeps _))))) ((h1).trans (State.recheck_keeps _ _ _ _ _))) (State.toWindow_keeps _ _ _)))))

theorem execTailCheck_keeps (f) (s : State) : KeepsO s (execTailCheck f s) := by
  unfold execTailCheck
  exact (by split; exact KeepsO.next (Keeps.refl _); exact KeepsO.ite (KeepsO.next (Keeps.refl _)) (KeepsO.cut (fun h1 => KeepsO.cut (fun h2 => KeepsO.cut (fun h3 => KeepsO.next (Keeps.ite (((h3).trans (State.settleFate_keeps _ _)).trans (State.releaseHeld_keeps _)) (h3))) (Keeps.ite (h2) ((h2).trans (State.mfFound_keeps _ _ _)))) ((h1).trans (State.setFrame_keeps _ _ _))) (State.inc_keeps _ _ _ _)))

theorem execPipeParityError_keeps (b) (pipe) (held) (s : State) : KeepsO s (execPipeParityError b pipe held s) := by
  unfold execPipeParityError
  exact KeepsO.next (((State.dropWindows_keeps _ _ _).trans (State.pipeFault_keeps _ _ _)).trans
    (State.releaseHeld_keeps _))

theorem execKeySend_keeps (b) (c) (s : State) : KeepsO s (execKeySend b c s) := by
  unfold execKeySend
  exact (by (try extract_lets); split; exact KeepsO.next (Keeps.refl _); exact (by split; exact KeepsO.next (Keeps.refl _); exact KeepsO.ite (KeepsO.next (Keeps.refl _)) (KeepsO.cut (fun h1 => KeepsO.cut (fun h2 => KeepsO.cut (fun h3 => (by (try extract_lets); split; exact KeepsO.next ((h3).trans (State.emit_keeps _ _)); exact KeepsO.next (h3))) (((h2).trans (State.inc_keeps _ _ _ _)).trans (State.pmuOcc_keeps _ _ _))) ((h1).trans (State.meshMod_keeps _ _))) ((State.setKeyQueue_keeps _ _ _ _).trans (State.setHandle_keeps _ _ _)))))

theorem execKeyCreditReturn_keeps (b) (c) (s : State) : KeepsO s (execKeyCreditReturn b c s) := by
  unfold execKeyCreditReturn
  exact KeepsO.next (State.meshMod_keeps _ _)

theorem execVerdictReceive_keeps (b) (c) (msg) (s : State) : KeepsO s (execVerdictReceive b c msg s) := by
  unfold execVerdictReceive
  exact KeepsO.cut (fun h1 => (by (try extract_lets); split; exact KeepsO.next (h1); exact KeepsO.ite (KeepsO.next (h1)) (KeepsO.cut (fun h2 => (by (try extract_lets); split; exact KeepsO.ite (KeepsO.next (h2)) (KeepsO.cut (fun h3 => KeepsO.next (((h3).trans (State.fateKnown_keeps _ _ _)).trans (State.releaseHeld_keeps _))) (((h2).trans (State.meshMod_keeps _ _)).trans (State.frameMod_keeps _ _ _))); exact KeepsO.next (h2))) ((State.freeHandle_keeps _ _).trans (State.inc_keeps _ _ _ _))))) (((State.inc_keeps _ _ _ _).trans (State.raiseEvt_keeps _ _ _)).trans (State.pmuOcc_keeps _ _ _))

theorem execHandoffTimeout_keeps (b) (slot) (s : State) : KeepsO s (execHandoffTimeout b slot s) := by
  unfold execHandoffTimeout
  exact (by (try extract_lets); split; exact KeepsO.next (Keeps.refl _); exact KeepsO.ite (KeepsO.next (Keeps.refl _)) (KeepsO.cut (fun h1 => KeepsO.cut (fun h2 => (by (try extract_lets); split; exact KeepsO.next (Keeps.ite (((h2).trans (State.fateKnown_keeps _ _ _)).trans (State.releaseHeld_keeps _)) (h2)); exact KeepsO.next (h2))) ((h1).trans (State.pmuOcc_keeps _ _ _))) ((State.setKeyQueue_keeps _ _ _ _).trans (State.freeHandle_keeps _ _))))

theorem State.replicateOne_keeps (s : State) (f) (base) (m) : Keeps s (State.replicateOne s f base m) := by
  unfold State.replicateOne
  exact Keeps.ite (State.dropTel_keeps _ _ _) ((by split; exact State.admitCopy_keeps _ _ _ _ _; exact Keeps.refl _))

theorem execMulticastReplicate_keeps (f) (s : State) : KeepsO s (execMulticastReplicate f s) := by
  unfold execMulticastReplicate
  exact (by split; exact KeepsO.next (Keeps.refl _); exact (by split; exact KeepsO.next (((Keeps.foldl (Keeps.refl _) (fun _ _ => State.replicateOne_keeps _ _ _ _)).trans (State.pathEnd_keeps _ _)).trans (State.releaseHeld_keeps _)); exact KeepsO.next (Keeps.refl _)))

theorem execMirrorCopy_keeps (f) (s : State) : KeepsO s (execMirrorCopy f s) := by
  unfold execMirrorCopy
  exact (by split; exact KeepsO.next (Keeps.refl _); exact (by split; exact KeepsO.next (Keeps.refl _); exact KeepsO.ite (KeepsO.next (Keeps.refl _)) (KeepsO.cut (fun h1 => KeepsO.cut (fun h2 => KeepsO.next ((h2).trans (State.unref_keeps _ _))) (Keeps.ite ((h1).trans (State.dropTel_keeps _ _ _)) (((h1).trans (State.inc_keeps _ _ _ _)).trans (State.direct_keeps _ _ _)))) (State.frameMod_keeps _ _ _))))

end Sys2Proof.Machine
end

