-- ==== Sys2Proof/Laws/KeepsQueues.lean ====
section
/-! SUPPORT. What each operation of Machine/Queues.lean keeps (Keeps). -/

namespace Sys2Proof.Machine

theorem State.schedMod_keeps (s : State) (f) : Keeps s (State.schedMod s f) := by
  unfold State.schedMod
  exact Keeps.same rfl rfl rfl rfl rfl rfl rfl

theorem State.setPortSch_keeps (s : State) (port) (x) : Keeps s (State.setPortSch s port x) := by
  unfold State.setPortSch
  exact State.schedMod_keeps _ _

theorem State.nextRound_keeps (s : State) (port) (cls) : Keeps s (State.nextRound s port cls) := by
  unfold State.nextRound
  exact State.schedMod_keeps _ _

theorem State.setFlowList_keeps (s : State) (k) (l) : Keeps s (State.setFlowList s k l) := by
  unfold State.setFlowList
  exact State.schedMod_keeps _ _

theorem State.setClodList_keeps (s : State) (port) (cls) (tier) (l) : Keeps s (State.setClodList s port cls tier l) :=
  by
  unfold State.setClodList
  exact State.schedMod_keeps _ _

theorem State.setClodDef_keeps (s : State) (k) (n) : Keeps s (State.setClodDef s k n) := by
  unfold State.setClodDef
  exact State.schedMod_keeps _ _

theorem State.clodNext_keeps (s : State) (port) (cls) (tier) : Keeps s (State.clodNext s port cls tier) := by
  unfold State.clodNext
  exact Keeps.ite (State.setClodList_keeps _ _ _ _ _) ((State.setClodList_keeps _ _ _ _ _).trans
    (State.nextRound_keeps _ _ _))

theorem State.clodLeave_keeps (s : State) (port) (cls) (tier) (clod) : Keeps s (State.clodLeave s port cls tier clod)
  := by
  unfold State.clodLeave
  exact (by (try extract_lets); split; exact Keeps.refl _; exact Keeps.cut (fun h1 => Keeps.ite ((h1).trans (State.nextRound_keeps _ _ _)) (h1)) (State.setClodList_keeps _ _ _ _ _))

theorem State.clodJoin_keeps (s : State) (port) (cls) (tier) (clod) : Keeps s (State.clodJoin s port cls tier clod) :=
  by
  unfold State.clodJoin
  exact (State.setClodDef_keeps _ _ _).trans (State.setClodList_keeps _ _ _ _ _)

theorem State.clodNow_keeps (s : State) (c) : Keeps s (State.clodNow s c) := by
  unfold State.clodNow
  exact State.clodMod_keeps _ _ _

theorem State.retierAt_keeps (s : State) (c) (port) (cls) (rejoin) : Keeps s (State.retierAt s c port cls rejoin) :=
  by
  unfold State.retierAt
  exact Keeps.ite (Keeps.refl _) (Keeps.cut (fun h1 => Keeps.ite ((h1).trans (State.clodJoin_keeps _ _ _ _ _)) (h1)) ((by split; exact State.clodLeave_keeps _ _ _ _ _; exact Keeps.refl _)))

theorem State.retier_keeps (s : State) (c) (rejoin) : Keeps s (State.retier s c rejoin) := by
  unfold State.retier
  exact Keeps.foldl (Keeps.refl _) (fun _ _ => State.retierAt_keeps _ _ _ _ _)

theorem execClodRefresh_keeps (id) (s : State) : KeepsO s (execClodRefresh id s) := by
  unfold execClodRefresh
  exact KeepsO.next (Keeps.ite ((State.clodNow_keeps _ _).trans (State.retier_keeps _ _ _)) (Keeps.refl _))

theorem execClodRejoin_keeps (id) (s : State) : KeepsO s (execClodRejoin id s) := by
  unfold execClodRejoin
  exact KeepsO.cut (fun h1 => KeepsO.next (Keeps.ite ((h1).trans (State.retier_keeps _ _ _)) (Keeps.refl _)))
    (State.clodNow_keeps _ _)

theorem State.touch_keeps (s : State) (pos) (flow) : Keeps s (State.touch s pos flow) := by
  unfold State.touch
  exact Keeps.ite (State.schedMod_keeps _ _) (Keeps.refl _)

theorem State.fetchFlow_keeps (s : State) (pos) (flow) : Keeps s (State.fetchFlow s pos flow) := by
  unfold State.fetchFlow
  exact Keeps.ite (Keeps.refl _) (((State.inc_keeps _ _ _ _).trans (State.pmuOcc_keeps _ _ _)).trans
    (State.schedMod_keeps _ _))

theorem State.evict_keeps (s : State) (pos) : Keeps s (State.evict s pos) := by
  unfold State.evict
  exact Keeps.ite (Keeps.refl _) ((by split; exact (State.inc_keeps _ _ _ _).trans (State.schedMod_keeps _ _); exact Keeps.refl _))

theorem execCacheFetchDone_keeps (pos) (flow) (s : State) : KeepsO s (execCacheFetchDone pos flow s) := by
  unfold execCacheFetchDone
  exact KeepsO.ite (KeepsO.next ((State.schedMod_keeps _ _).trans (State.evict_keeps _ _))) (KeepsO.next (Keeps.refl
    _))

theorem State.sampleBind_keeps (s : State) (flow) (cls) : Keeps s (State.sampleBind s flow cls) := by
  unfold State.sampleBind
  exact Keeps.matchP (State.draw_keeps _) fun _ _ h1 => (h1).trans (State.flowMod_keeps _ _ _)

theorem State.bindFlow_keeps (s : State) (c) : Keeps s (State.bindFlow s c) := by
  unfold State.bindFlow
  exact Keeps.cut (fun h1 => Keeps.cut (fun h2 => Keeps.ite (h2) (Keeps.ite ((h2).trans (State.clodJoin_keeps _ _ _ _
    _)) (((h2).trans (State.clodNow_keeps _ _)).trans (State.retierAt_keeps _ _ _ _ _)))) (((h1).trans
    (State.setFlowList_keeps _ _ _)).trans (State.sampleBind_keeps _ _ _))) (State.flowMod_keeps _ _ _)

theorem State.bindDrop_keeps (s : State) (i) (c) (cause) : Keeps s (State.bindDrop s i c cause) := by
  unfold State.bindDrop
  exact Keeps.cut (fun h1 => (Keeps.ite ((h1).trans (State.raiseEvt_keeps _ _ _)) (h1)).trans (State.discardCopy_keeps
    _ _)) (State.inc_keeps _ _ _ _)

theorem State.enqueue_keeps (s : State) (i) (c) : Keeps s (State.enqueue s i c) := by
  unfold State.enqueue
  exact (by split; exact State.bindDrop_keeps _ _ _ _; exact Keeps.cut (fun h1 => Keeps.cut (fun h2 => Keeps.cut (fun h3 => Keeps.cut (fun h4 => ((h4).trans (State.fetchFlow_keeps _ _ _)).trans (State.touch_keeps _ _ _)) (Keeps.upd rfl rfl (h3))) ((h2).trans (State.copyMod_keeps _ _ _))) ((h1).trans (State.flowMod_keeps _ _ _))) (Keeps.ite (State.bindFlow_keeps _ _) (Keeps.refl _)))

theorem execEnqueue_keeps (c) (s : State) : KeepsO s (execEnqueue c s) := by
  unfold execEnqueue
  exact (by split; exact KeepsO.next (Keeps.ite (State.enqueue_keeps _ _ _) (Keeps.refl _)); exact KeepsO.next (Keeps.refl _))

theorem State.flowEmptied_keeps (s : State) (flow) : Keeps s (State.flowEmptied s flow) := by
  unfold State.flowEmptied
  exact Keeps.cut (fun h1 => Keeps.ite ((((h1).trans (State.clodLeave_keeps _ _ _ _ _)).trans (State.clodLeave_keeps _
    _ _ _ _)).trans (State.setClodDef_keeps _ _ _)) (h1)) ((State.flowMod_keeps _ _ _).trans (State.setFlowList_keeps
    _ _ _))

theorem State.classDrained_keeps (s : State) (port) (cls) : Keeps s (State.classDrained s port cls) := by
  unfold State.classDrained
  exact Keeps.ite (State.setPortSch_keeps _ _ _) (Keeps.refl _)

theorem State.unqueue_keeps (s : State) (i) : Keeps s (State.unqueue s i) := by
  unfold State.unqueue
  exact (by split; exact Keeps.refl _; exact Keeps.ite (Keeps.refl _) (Keeps.cut (fun h1 => Keeps.cut (fun h2 => (h2).trans (State.classDrained_keeps _ _ _)) (Keeps.ite ((h1).trans (State.flowEmptied_keeps _ _)) (h1))) ((State.flowMod_keeps _ _ _).trans (State.copyMod_keeps _ _ _))))

theorem State.discardCopies_keeps (s : State) (f) (k) (hk : ∀ x, Keeps x (k x)) : Keeps s (State.discardCopies s f k)
  := by
  unfold State.discardCopies
  exact Keeps.foldl (Keeps.refl _) (fun _ _ => ((hk _).trans (State.unqueue_keeps _ _)).trans (State.discardCopy_keeps
    _ _))

theorem State.shWrite_keeps (s : State) (p) (r) (v) : Keeps s (State.shWrite s p r v) := by
  unfold State.shWrite
  refine Keeps.ite (Keeps.refl _) ?_
  extract_lets gen t
  have h : Keeps s t := (State.shadowSet_keeps _ _ _).trans (State.wrb_keeps _ _ _ _)
  split <;> exact h.trans (State.wr_keeps _ _ _)

theorem execShadowWrite_keeps (p) (r) (v) (s : State) : KeepsO s (execShadowWrite p r v s) := by
  unfold execShadowWrite
  exact KeepsO.next (State.cfg_keeps _ _ _ (fun _ => State.shWrite_keeps _ _ _ _))

theorem State.applyShadow_keeps (s : State) (u1) : Keeps s (State.applyShadow s u1) := by
  unfold State.applyShadow
  exact (by split; exact State.flowMod_keeps _ _ _; exact Keeps.cut (fun h1 => (h1).trans (State.retier_keeps _ _ _)) ((State.clodNow_keeps _ _).trans (State.clodMod_keeps _ _ _)))

theorem State.pacerUp_keeps (s : State) (port) : Keeps s (State.pacerUp s port) := by
  unfold State.pacerUp
  exact State.setPortSch_keeps _ _ _

theorem State.handOver_keeps (s : State) (p) : Keeps s (State.handOver s p) := by
  unfold State.handOver
  refine Keeps.ite (Keeps.refl _) ?_
  extract_lets t1 t2 mine t3 t4 t5
  have h1 : Keeps s t1 := Keeps.foldl (State.pacerUp_keeps _ _) fun _ _ => by
    split
    · exact State.wr_keeps _ _ _
    · exact Keeps.refl _
  have h2 : Keeps s t2 := Keeps.upd rfl rfl h1
  have h3 : Keeps s t3 := Keeps.foldl h2 fun _ _ => State.applyShadow_keeps _ _
  have h5 : Keeps s t5 :=
    ((h3.trans (State.schedMod_keeps _ _)).trans (State.wrf_keeps _ _ _ _ _)).trans (State.wrb_keeps _ _ _ _)
  split
  · exact (h5.trans (State.inc_keeps _ _ _ _)).trans (State.ownChange_keeps _ _)
  · exact h5

theorem execHandover_keeps (p) (s : State) : KeepsO s (execHandover p s) := by
  unfold execHandover
  exact KeepsO.next (Keeps.ite (State.handOver_keeps _ _) (Keeps.refl _))

theorem State.recOp_keeps (s : State) (cmd) (op) (hport) : Keeps s (State.recOp s cmd op hport) := by
  unfold State.recOp
  exact (State.wrf_keeps _ _ _ _ _).trans (State.wrf_keeps _ _ _ _ _)

theorem State.recRefuse_keeps (s : State) (cmd) : Keeps s (State.recRefuse s cmd) := by
  unfold State.recRefuse
  exact State.wrb_keeps _ _ _ _

theorem State.indirectWrite_keeps (s : State) (cmd) (hport) (pos) (op) : Keeps s (State.indirectWrite s cmd hport pos
  op) := by
  unfold State.indirectWrite
  exact Keeps.ite (State.recRefuse_keeps _ _) (Keeps.ite ((State.recRefuse_keeps _ _).trans (State.raiseEvt_keeps _ _
    _)) (Keeps.ite (((State.recRefuse_keeps _ _).trans (State.inc_keeps _ _ _ _)).trans (State.raiseEvt_keeps _ _ _))
    (Keeps.cut (fun h1 => ((h1).trans (State.wrf_keeps _ _ _ _ _)).trans (State.wrb_keeps _ _ _ _))
    (State.schedMod_keeps _ _))))

theorem State.flowRead_keeps (s : State) : Keeps s (State.flowRead s) := by
  unfold State.flowRead
  exact Keeps.ite (State.wrs_keeps _ _ _) (State.recRefuse_keeps _ _)

theorem execFlowRead_keeps (s : State) : KeepsO s (execFlowRead s) := by
  unfold execFlowRead
  exact KeepsO.next (State.cfg_keeps _ _ _ (fun _ => (State.wrf_keeps _ _ _ _ _).trans (State.flowRead_keeps _)))

theorem State.flowQuantum_keeps (s : State) (hport) : Keeps s (State.flowQuantum s hport) := by
  unfold State.flowQuantum
  exact State.indirectWrite_keeps _ _ _ _ _

theorem execFlowWriteQuantum_keeps (hport) (s : State) : KeepsO s (execFlowWriteQuantum hport s) := by
  unfold execFlowWriteQuantum
  exact KeepsO.next (State.cfg_keeps _ _ _ (fun _ => (State.recOp_keeps _ _ _ _).trans (State.flowQuantum_keeps _ _)))

theorem State.flowZero_keeps (s : State) : Keeps s (State.flowZero s) := by
  unfold State.flowZero
  exact Keeps.ite (State.flowMod_keeps _ _ _) (State.recRefuse_keeps _ _)

theorem execFlowZeroDeq_keeps (s : State) : KeepsO s (execFlowZeroDeq s) := by
  unfold execFlowZeroDeq
  exact KeepsO.next (State.cfg_keeps _ _ _ (fun _ => (State.wrf_keeps _ _ _ _ _).trans (State.flowZero_keeps _)))

theorem State.clodRead_keeps (s : State) : Keeps s (State.clodRead s) := by
  unfold State.clodRead
  exact Keeps.ite (Keeps.cut (fun h1 => (h1).trans (State.wrs_keeps _ _ _)) (State.clodNow_keeps _ _))
    (State.recRefuse_keeps _ _)

theorem execClodRead_keeps (s : State) : KeepsO s (execClodRead s) := by
  unfold execClodRead
  exact KeepsO.next (State.cfg_keeps _ _ _ (fun _ => (State.wrf_keeps _ _ _ _ _).trans (State.clodRead_keeps _)))

theorem State.clodWrite_keeps (s : State) (hport) (full) : Keeps s (State.clodWrite s hport full) := by
  unfold State.clodWrite
  exact Keeps.cut (fun h1 => (h1).trans (State.indirectWrite_keeps _ _ _ _ _)) (State.recOp_keeps _ _ _ _)

theorem execClodWrite_keeps (hport) (s : State) : KeepsO s (execClodWrite hport s) := by
  unfold execClodWrite
  exact KeepsO.next (State.cfg_keeps _ _ _ (fun _ => State.clodWrite_keeps _ _ _))

theorem execClodWriteFull_keeps (hport) (s : State) : KeepsO s (execClodWriteFull hport s) := by
  unfold execClodWriteFull
  exact KeepsO.next (State.cfg_keeps _ _ _ (fun _ => State.clodWrite_keeps _ _ _))

theorem State.schedClear_keeps (s : State) : Keeps s (State.schedClear s) := by
  unfold State.schedClear
  exact Keeps.same rfl rfl rfl rfl rfl rfl rfl

theorem execSchedInit_keeps (s : State) : KeepsO s (execSchedInit s) := by
  unfold execSchedInit
  exact KeepsO.ite (KeepsO.next ((State.schedClear_keeps _).trans (State.startTimer_keeps _ _ _))) (KeepsO.next
    (Keeps.refl _))

theorem execSchedInitDone_keeps (s : State) : KeepsO s (execSchedInitDone s) := by
  unfold execSchedInitDone
  exact KeepsO.ite (KeepsO.next (((State.stopTimer_keeps _ _).trans (State.wrb_keeps _ _ _ _)).trans
    (State.raiseEvt_keeps _ _ _))) (KeepsO.next (Keeps.refl _))

end Sys2Proof.Machine
end

