-- ==== Sys2Proof/Laws/KeepsFlits.lean ====
section
/-! SUPPORT. What each operation of Machine/Flits.lean keeps (Keeps). -/

namespace Sys2Proof.Machine

theorem State.siltMod_keeps (s : State) (k) (f) : Keeps s (State.siltMod s k f) := by
  unfold State.siltMod
  exact Keeps.same rfl rfl rfl rfl rfl rfl rfl

theorem State.siltGo_keeps (s : State) (k) (st) : Keeps s (State.siltGo s k st) := by
  unfold State.siltGo
  exact State.wrf_keeps _ _ _ _ _

theorem State.siltCnt_keeps (s : State) (k) (i) (n) : Keeps s (State.siltCnt s k i n) := by
  unfold State.siltCnt
  exact State.addCnt_keeps _ _ _ _ _

theorem State.siltEvent_keeps (s : State) (k) (i) : Keeps s (State.siltEvent s k i) := by
  unfold State.siltEvent
  exact State.raiseEvt_keeps _ _ _

theorem State.siltEmit_keeps (s : State) (k) (type) (seq) (arg) (body) : Keeps s (State.siltEmit s k type seq arg
  body) := by
  unfold State.siltEmit
  exact Keeps.cut (fun h1 => Keeps.matchP ((h1).trans (State.draw_keeps _)) fun _ _ h2 => Keeps.cut (fun h3 =>
    Keeps.cut (fun h4 => Keeps.ite ((h4).trans (State.startTimer_keeps _ _ _)) (h4)) ((h3).trans (State.siltMod_keeps
    _ _ _))) ((h2).trans (State.addCnt_keeps _ _ _ _ _))) (State.emit_keeps _ _)

theorem State.siltUnseq_keeps (s : State) (k) (type) (arg) (body) : Keeps s (State.siltUnseq s k type arg body) := by
  unfold State.siltUnseq
  exact State.siltEmit_keeps _ _ _ _ _ _

theorem State.siltMgmt_keeps (s : State) (k) (op) (operand) (body) : Keeps s (State.siltMgmt s k op operand body) :=
  by
  unfold State.siltMgmt
  exact State.siltUnseq_keeps _ _ _ _ _

theorem State.siltTimers_keeps (s : State) (k) : Keeps s (State.siltTimers s k) := by
  unfold State.siltTimers
  exact Keeps.cut (fun h1 => Keeps.ite ((h1).trans (State.stopTimer_keeps _ _)) (Keeps.ite (h1) ((h1).trans
    (State.startTimer_keeps _ _ _)))) (Keeps.ite (State.stopTimer_keeps _ _) (Keeps.ite (Keeps.refl _)
    (State.startTimer_keeps _ _ _)))

theorem State.siltSendOne_keeps (s : State) (k) (f) : Keeps s (State.siltSendOne s k f) := by
  unfold State.siltSendOne
  exact Keeps.cut (fun h1 => (h1).trans (State.siltMod_keeps _ _ _)) ((State.siltEmit_keeps _ _ _ _ _ _).trans
    (State.siltCnt_keeps _ _ _ _))

theorem State.siltPump_keeps (s : State) (k) (u2) : Keeps s (State.siltPump s k u2) := by
  induction u2 generalizing s with
  | zero => exact Keeps.refl _
  | succ n ih =>
    unfold State.siltPump
    split
    · exact Keeps.refl _
    · exact Keeps.ite ((State.siltSendOne_keeps _ _ _).trans (ih _)) (Keeps.refl _)

theorem State.siltPumpAll_keeps (s : State) (k) : Keeps s (State.siltPumpAll s k) := by
  unfold State.siltPumpAll
  exact (State.siltPump_keeps _ _ _).trans (State.siltTimers_keeps _ _)

theorem State.siltPut_keeps (s : State) (k) (fs) : Keeps s (State.siltPut s k fs) := by
  unfold State.siltPut
  exact (State.siltMod_keeps _ _ _).trans (State.siltPumpAll_keeps _ _)

theorem State.siltWrites_keeps (s : State) (k) (f) (x) : Keeps s (State.siltWrites s k f x) := by
  unfold State.siltWrites
  exact Keeps.cut (fun h1 => (h1).trans (State.siltPut_keeps _ _ _)) (State.siltMod_keeps _ _ _)

theorem State.siltReads_keeps (s : State) (k) (f) : Keeps s (State.siltReads s k f) := by
  unfold State.siltReads
  exact Keeps.cut (fun h1 => (h1).trans (State.siltPut_keeps _ _ _)) (State.siltMod_keeps _ _ _)

theorem State.tierLoss_keeps (s : State) (f) : Keeps s (State.tierLoss s f) := by
  unfold State.tierLoss
  exact State.discardCopies_keeps _ _ _ (fun _ => State.admCount_keeps _ _)

theorem State.moveBack_keeps (s : State) (k) (f) : Keeps s (State.moveBack s k f) := by
  unfold State.moveBack
  exact (by split; exact Keeps.refl _; exact Keeps.ite (State.freeFrame_keeps _ _ _) (Keeps.ite (State.setFrame_keeps _ _ _) (Keeps.ite (((State.setFrame_keeps _ _ _).trans (State.freeMoved_keeps _ _)).trans (State.tierLoss_keeps _ _)) ((State.setFrame_keeps _ _ _).trans (State.freeMoved_keeps _ _)))))

theorem State.moduleLoss_keeps (s : State) (f) : Keeps s (State.moduleLoss s f) := by
  unfold State.moduleLoss
  exact (by split; exact Keeps.refl _; exact Keeps.ite (State.freeFrame_keeps _ _ _) (((State.setFrame_keeps _ _ _).trans (State.freeMoved_keeps _ _)).trans (State.tierLoss_keeps _ _)))

theorem State.capJoin_keeps (s : State) (k) : Keeps s (State.capJoin s k) := by
  unfold State.capJoin
  exact State.wr2_keeps _ _ _

theorem State.capLeave_keeps (s : State) (k) : Keeps s (State.capLeave s k) := by
  unfold State.capLeave
  exact Keeps.ite (State.wr2_keeps _ _ _) (Keeps.refl _)

theorem State.siltUnlink_keeps (s : State) (k) : Keeps s (State.siltUnlink s k) := by
  unfold State.siltUnlink
  exact Keeps.cut (fun h1 => Keeps.upd rfl rfl (h1)) ((State.capLeave_keeps _ _).trans (State.siltMod_keeps _ _ _))

theorem State.siltVoid_keeps (s : State) (k) : Keeps s (State.siltVoid s k) := by
  unfold State.siltVoid
  exact Keeps.cut (fun h1 => Keeps.cut (fun h2 => Keeps.cut (fun h3 => Keeps.cut (fun h4 => Keeps.foldl (h4) (fun _ _
    => State.moveBack_keeps _ _ _)) (Keeps.foldl (h3) (fun _ _ => State.moduleLoss_keeps _ _))) (Keeps.ite (h2)
    ((h2).trans (State.raiseEvt_keeps _ _ _)))) (Keeps.upd rfl rfl (h1))) (State.siltUnlink_keeps _ _)

end Sys2Proof.Machine
end

