-- ==== Sys2Proof/Laws/KeepsResets.lean ====
section
/-! SUPPORT. What each operation of Machine/Resets.lean keeps (Keeps). -/

namespace Sys2Proof.Machine

theorem State.resetRegs_keeps (s : State) (p) : Keeps s (State.resetRegs s p) := by
  exact Keeps.regsOnly s _ fun h => sdrop_wf _ h

theorem State.dropTimers_keeps (s : State) (p) : Keeps s (State.dropTimers s p) := by
  unfold State.dropTimers
  exact Keeps.same rfl rfl rfl rfl rfl rfl rfl

theorem State.augMod_keeps (s : State) (c) (f) : Keeps s (State.augMod s c f) := by
  unfold State.augMod
  exact Keeps.same rfl rfl rfl rfl rfl rfl rfl

theorem State.augGo_keeps (s : State) (c) (st) : Keeps s (State.augGo s c st) := by
  unfold State.augGo
  exact State.wrf_keeps _ _ _ _ _

theorem State.augFaulted_keeps (s : State) (c) (cause) : Keeps s (State.augFaulted s c cause) := by
  unfold State.augFaulted
  exact Keeps.cut (fun h1 => Keeps.cut (fun h2 => ((((h2).trans (State.augGo_keeps _ _ _)).trans (State.wrf_keeps _ _
    _ _ _)).trans (State.inc_keeps _ _ _ _)).trans (State.raiseEvt_keeps _ _ _)) (Keeps.upd rfl rfl (h1)))
    (State.augMod_keeps _ _ _)

theorem State.augLineDown_keeps (s : State) : Keeps s (State.augLineDown s) := by
  unfold State.augLineDown
  exact Keeps.foldl (Keeps.refl _) (fun _ _ => Keeps.ite (State.augFaulted_keeps _ _ _) (Keeps.refl _))

theorem State.secMod_keeps (s : State) (f) : Keeps s (State.secMod s f) := by
  unfold State.secMod
  exact Keeps.same rfl rfl rfl rfl rfl rfl rfl

theorem State.dbgMod_keeps (s : State) (port) (f) : Keeps s (State.dbgMod s port f) := by
  unfold State.dbgMod
  exact State.secMod_keeps _ _

theorem State.dbgClose_keeps (s : State) (port) : Keeps s (State.dbgClose s port) := by
  unfold State.dbgClose
  exact Keeps.ite (Keeps.refl _) (((State.dbgMod_keeps _ _ _).trans (State.stopTimer_keeps _ _)).trans
    (State.raiseEvt_keeps _ _ _))

theorem State.ppsClamp_keeps (s : State) : Keeps s (State.ppsClamp s) := by
  unfold State.ppsClamp
  exact Keeps.foldl (Keeps.refl _) (fun _ _ => Keeps.ite (State.emit_keeps _ _) (Keeps.refl _))

theorem State.resetLine_keeps (s : State) : Keeps s (State.resetLine s) := by
  unfold State.resetLine
  exact Keeps.cut (fun h1 => Keeps.upd rfl rfl (h1)) ((State.resetRegs_keeps _ _).trans (State.dropTimers_keeps _ _))

theorem State.countHostDown_keeps (s : State) : Keeps s (State.countHostDown s) := by
  unfold State.countHostDown
  exact Keeps.ite (State.addCnt_keeps _ _ _ _ _) (Keeps.refl _)

theorem State.resetHost_keeps (s : State) : Keeps s (State.resetHost s) := by
  unfold State.resetHost
  exact Keeps.cut (fun h1 => Keeps.cut (fun h2 => Keeps.upd rfl rfl (h2)) ((((h1).trans (State.resetRegs_keeps _
    _)).trans (State.dropTimers_keeps _ _)).trans (State.wrb_keeps _ _ _ _))) (((State.dbgClose_keeps _ _).trans
    (State.dbgClose_keeps _ _)).trans (State.countHostDown_keeps _))

theorem State.clearBed_keeps (s : State) (n) : Keeps s (State.clearBed s n) := by
  unfold State.clearBed
  exact Keeps.cut (fun h1 => Keeps.cut (fun h2 => Keeps.upd rfl rfl (h2)) (((h1).trans (State.resetRegs_keeps _
    _)).trans (State.loadImage_keeps _ _ _))) (State.dropTimers_keeps _ _)

theorem State.swapCut_keeps (s : State) (n) : Keeps s (State.swapCut s n) := by
  unfold State.swapCut
  exact Keeps.ite ((State.setSwap_keeps _ _).trans (State.harmMod_keeps _ _)) (Keeps.ite ((State.setSwap_keeps _
    _).trans (State.harmMod_keeps _ _)) (Keeps.refl _))

theorem State.resetBed_keeps (s : State) (n) : Keeps s (State.resetBed s n) := by
  unfold State.resetBed
  exact Keeps.ite (State.clearBed_keeps _ _) (Keeps.cut (fun h1 => Keeps.cut (fun h2 => ((h2).trans
    (State.swapCut_keeps _ _)).trans (State.clearBed_keeps _ _)) ((h1).trans (State.harmMod_keeps _ _))) (Keeps.ite
    (State.keepRegion_keeps _ _ _) (Keeps.refl _)))

theorem State.resetSilt_keeps (s : State) (k) : Keeps s (State.resetSilt s k) := by
  unfold State.resetSilt
  exact Keeps.cut (fun h1 => Keeps.cut (fun h2 => Keeps.upd rfl rfl (h2)) ((h1).trans (State.resetRegs_keeps _ _)))
    (Keeps.foldl (State.siltVoid_keeps _ _) (fun _ _ => State.lanePower_keeps _ _ _))

end Sys2Proof.Machine
end

