-- ==== Sys2Proof/Laws/KeepsIslands.lean ====
section
/-! SUPPORT. What each operation of Machine/Islands.lean keeps (Keeps). -/

namespace Sys2Proof.Machine

theorem State.resetIsland_keeps (s : State) (i) : Keeps s (State.resetIsland s i) := by
  unfold State.resetIsland
  exact Keeps.ite (State.resetHost_keeps _) (Keeps.ite (State.resetLine_keeps _) (Keeps.ite (State.resetBed_keeps _ _)
    (State.resetSilt_keeps _ _)))

theorem State.toHeld_keeps (s : State) (i) : Keeps s (State.toHeld s i) := by
  unfold State.toHeld
  exact Keeps.cut (fun h1 => Keeps.ite (h1) ((h1).trans (State.setIslAt_keeps _ _ _))) ((State.resetIsland_keeps _
    _).trans (State.setIslAt_keeps _ _ _))

theorem State.countLineLoss_keeps (s : State) : Keeps s (State.countLineLoss s) := by
  unfold State.countLineLoss
  exact State.setCnt_keeps _ _ _

theorem State.lineDown_keeps (s : State) : Keeps s (State.lineDown s) := by
  unfold State.lineDown
  exact Keeps.cut (fun h1 => Keeps.cut (fun h2 => Keeps.foldl (h2) (fun _ _ => State.toHeld_keeps _ _)) ((h1).trans
    (State.toHeld_keeps _ _))) (((((State.countLineLoss_keeps _).trans (State.ppsClamp_keeps _)).trans
    (State.augLineDown_keeps _)).trans (State.dbgClose_keeps _ _)).trans (State.wrs_keeps _ _ _))

theorem State.hostDown_keeps (s : State) : Keeps s (State.hostDown s) := by
  unfold State.hostDown
  exact State.toHeld_keeps _ _

theorem State.islandDown_keeps (s : State) (i) : Keeps s (State.islandDown s i) := by
  unfold State.islandDown
  exact Keeps.ite (State.hostDown_keeps _) (Keeps.ite (State.lineDown_keeps _) (State.toHeld_keeps _ _))

theorem State.settle_keeps (s : State) (i) (was) : Keeps s (State.settle s i was) := by
  unfold State.settle
  exact (by split; exact Keeps.ite ((State.setIslAt_keeps _ _ _).trans (State.startTimer_keeps _ _ _)) (Keeps.refl _); exact Keeps.refl _; exact Keeps.ite (Keeps.refl _) (State.setIslAt_keeps _ _ _); exact Keeps.ite ((State.resetIsland_keeps _ _).trans (State.setIslAt_keeps _ _ _)) (Keeps.refl _); exact Keeps.ite (State.islandDown_keeps _ _) (Keeps.refl _))

theorem State.settleAll_keeps (s : State) (before : State) : Keeps s (State.settleAll s before) := by
  unfold State.settleAll
  exact Keeps.cut (fun h1 => Keeps.foldl (h1) (fun _ _ => State.settle_keeps _ _ _)) (Keeps.foldl (Keeps.refl _) (fun
    _ _ => Keeps.ite (State.settle_keeps _ _ _) (Keeps.refl _)))

theorem State.pwrRefused_keeps (s : State) : Keeps s (State.pwrRefused s) := by
  unfold State.pwrRefused
  exact (State.wrb_keeps _ _ _ _).trans (State.raiseEvt_keeps _ _ _)

theorem State.rstBedWrite_keeps (s : State) (v) : Keeps s (State.rstBedWrite s v) := by
  unfold State.rstBedWrite
  exact Keeps.cut (fun h1 => Keeps.ite ((h1).trans (State.pwrRefused_keeps _)) (h1)) ((State.wr_keeps _ _ _).trans
    (State.settleAll_keeps _ _))

theorem State.islandCtlWrite_keeps (s : State) (v) : Keeps s (State.islandCtlWrite s v) := by
  unfold State.islandCtlWrite
  exact Keeps.cut (fun h1 => Keeps.ite ((h1).trans (State.pwrRefused_keeps _)) (h1)) ((State.wr_keeps _ _ _).trans
    (State.settleAll_keeps _ _))

theorem State.bed16Up_keeps (s : State) : Keeps s (State.bed16Up s) := by
  unfold State.bed16Up
  exact ((State.wrb_keeps _ _ _ _).trans (State.wrb_keeps _ _ _ _)).trans (State.settle_keeps _ _ _)

theorem State.harmRecord_keeps (s : State) (head) (count) : Keeps s (State.harmRecord s head count) := by
  unfold State.harmRecord
  exact Keeps.cut (fun h1 => Keeps.cut (fun h2 => Keeps.cut (fun h3 => Keeps.ite ((h3).trans (State.wrb_keeps _ _ _
    _)) (h3)) (((h2).trans (State.wrb_keeps _ _ _ _)).trans (State.harmMod_keeps _ _))) (((h1).trans (State.wrf_keeps
    _ _ _ _ _)).trans (State.wrf_keeps _ _ _ _ _))) (State.wrs_keeps _ _ _)

theorem State.harmReport_keeps (s : State) (word0) : Keeps s (State.harmReport s word0) := by
  unfold State.harmReport
  exact Keeps.ite ((State.harmMod_keeps _ _).trans (State.wrb_keeps _ _ _ _)) (State.harmMod_keeps _ _)

theorem State.pllRecord_keeps (s : State) : Keeps s (State.pllRecord s) := by
  unfold State.pllRecord
  exact Keeps.cut (fun h1 => Keeps.ite (((h1).trans (State.harmMod_keeps _ _)).trans (State.harmRecord_keeps _ _ _))
    (h1)) (State.harmMod_keeps _ _)

theorem State.reachOn_keeps (s : State) (i) : Keeps s (State.reachOn s i) := by
  unfold State.reachOn
  exact Keeps.cut (fun h1 => Keeps.ite (Keeps.cut (fun h3 => (by (try extract_lets); split; exact ((h3).trans (State.swapBegin_keeps _ _ _)).trans (State.bed16Up_keeps _); exact h3)) (Keeps.cut (fun h2 => Keeps.upd rfl rfl (h2)) (((h1).trans (State.raiseEvt_keeps _ _ _)).trans (State.wr_keeps _ _ _)))) (Keeps.ite ((by split; exact ((h1).trans (State.loadImage_keeps _ _ _)).trans (State.harmMod_keeps _ _); exact h1)) (Keeps.ite (Keeps.foldl (Keeps.ite ((h1).trans (State.pllRecord_keeps _)) (h1)) (fun _ _ => (by (try extract_lets); split; exact Keeps.ite (Keeps.same rfl rfl rfl rfl rfl rfl rfl) (Keeps.refl _); exact Keeps.refl _))) (h1)))) (State.setIslAt_keeps _ _ _)

theorem execRailGood_keeps (i) (s : State) : KeepsO s (execRailGood i s) := by
  unfold execRailGood
  exact KeepsO.ite (KeepsO.cut (fun h1 => KeepsO.next (Keeps.ite (Keeps.foldl (h1) (fun _ _ => State.settle_keeps _ _
    _)) (h1))) (((State.setIslAt_keeps _ _ _).trans (State.stopTimer_keeps _ _)).trans (State.settle_keeps _ _ _)))
    (KeepsO.next (Keeps.refl _))

theorem execRampTimeout_keeps (i) (s : State) : KeepsO s (execRampTimeout i s) := by
  unfold execRampTimeout
  exact KeepsO.ite (KeepsO.next ((((State.setIslAt_keeps _ _ _).trans (State.stopTimer_keeps _ _)).trans
    (State.wrb_keeps _ _ _ _)).trans (State.raiseEvt_keeps _ _ _))) (KeepsO.next (Keeps.refl _))

theorem execIslandResetRelease_keeps (i) (s : State) : KeepsO s (execIslandResetRelease i s) := by
  unfold execIslandResetRelease
  exact KeepsO.ite (KeepsO.cut (fun h1 => KeepsO.ite (KeepsO.next (Keeps.upd rfl rfl (h1))) (KeepsO.ite (KeepsO.next
    (Keeps.upd rfl rfl (h1))) (KeepsO.next (h1)))) (State.setIslAt_keeps _ _ _)) (KeepsO.next (Keeps.refl _))

theorem execBridgeCentred_keeps (i) (s : State) : KeepsO s (execBridgeCentred i s) := by
  unfold execBridgeCentred
  exact KeepsO.ite (KeepsO.next ((State.reachOn_keeps _ _).trans (State.settle_keeps _ _ _))) (KeepsO.next (Keeps.refl
    _))

theorem State.cause_keeps (s : State) (i) : Keeps s (State.cause s i) := by
  unfold State.cause
  exact State.wrb_keeps _ _ _ _

theorem State.blowCut_keeps (s : State) : Keeps s (State.blowCut s) := by
  unfold State.blowCut
  extract_lets v p p1 p2 p3
  have l1 : p1.life = p.life ∧ p1.revoked = p.revoked := by
    dsimp only [p1]
    split <;> exact ⟨rfl, rfl⟩
  have l2 : (∀ i, p.life.getLsbD i = true → p2.life.getLsbD i = true) ∧ p2.revoked = p.revoked := by
    dsimp only [p2]
    split
    · split
      · exact ⟨fun i h => by simp [l1.1, h], l1.2⟩
      · exact ⟨fun i h => by rw [l1.1]; exact h, l1.2⟩
    · exact ⟨fun i h => by rw [l1.1]; exact h, l1.2⟩
  have l3 : p3.life = p2.life ∧ (∀ i, p.revoked.getLsbD i = true → p3.revoked.getLsbD i = true) := by
    dsimp only [p3]
    split
    · split
      · exact ⟨rfl, fun i h => by simp [l2.2, h]⟩
      · exact ⟨rfl, fun i h => by rw [l2.2]; exact h⟩
    · exact ⟨rfl, fun i h => by rw [l2.2]; exact h⟩
  exact ⟨rfl, rfl, id, List.suffix_refl _, Nat.le_succ _, fun i h => by rw [l3.1]; exact l2.1 i h, l3.2⟩

theorem State.powerLost_keeps (s : State) : Keeps s (State.powerLost s) := by
  unfold State.powerLost
  extract_lets t
  have h : Keeps s t := State.blowCut_keeps s
  exact ⟨h.pending, h.now, fun _ => rfl, h.outbox, h.draws, h.life, h.revoked⟩

theorem State.powerReleased_keeps (s : State) : Keeps s (State.powerReleased s) := by
  unfold State.powerReleased
  exact Keeps.cut (fun h1 => Keeps.foldl (h1) (fun _ _ => Keeps.ite ((State.setIslAt_keeps _ _ _).trans
    (State.startTimer_keeps _ _ _)) (Keeps.refl _))) (Keeps.same rfl rfl rfl rfl rfl rfl rfl)

theorem execPowerOnReset_keeps (level) (s : State) : KeepsO s (execPowerOnReset level s) := by
  unfold execPowerOnReset
  exact KeepsO.ite (KeepsO.ite (KeepsO.next (Keeps.refl _)) (KeepsO.next (State.powerReleased_keeps _))) (KeepsO.next
    (State.powerLost_keeps _))

theorem execRailFault_keeps (u0) (s : State) : KeepsO s (execRailFault u0 s) := by
  unfold execRailFault
  exact KeepsO.next (State.powerLost_keeps _)

theorem execLineResetPin_keeps (level) (s : State) : KeepsO s (execLineResetPin level s) := by
  unfold execLineResetPin
  exact KeepsO.cut (fun h1 => KeepsO.ite (KeepsO.next (h1)) (KeepsO.next (((h1).trans (State.cause_keeps _ _)).trans
    (State.settleAll_keeps _ _)))) (Keeps.same rfl rfl rfl rfl rfl rfl rfl)

theorem State.setLineHold_keeps (s : State) (hold) : Keeps s (State.setLineHold s hold) := by
  unfold State.setLineHold
  exact Keeps.cut (fun h1 => Keeps.ite (((h1).trans (State.cause_keeps _ _)).trans (State.settleAll_keeps _ _)) (h1))
    (State.wrb_keeps _ _ _ _)

theorem execRstCtlLineHold_keeps (hold) (s : State) : KeepsO s (execRstCtlLineHold hold s) := by
  unfold execRstCtlLineHold
  exact KeepsO.next (State.cfg_keeps _ _ _ (fun _ => State.setLineHold_keeps _ _))

theorem execRstBedWrite_keeps (v) (s : State) : KeepsO s (execRstBedWrite v s) := by
  unfold execRstBedWrite
  exact KeepsO.next (State.cfg_keeps _ _ _ (fun _ => State.rstBedWrite_keeps _ _))

theorem execPwrIslandCtlWrite_keeps (v) (s : State) : KeepsO s (execPwrIslandCtlWrite v s) := by
  unfold execPwrIslandCtlWrite
  exact KeepsO.next (State.cfg_keeps _ _ _ (fun _ => State.islandCtlWrite_keeps _ _))

theorem State.pllLost_keeps (s : State) : Keeps s (State.pllLost s) := by
  unfold State.pllLost
  exact Keeps.cut (fun h1 => Keeps.cut (fun h2 => ((h2).trans (State.cause_keeps _ _)).trans (State.settleAll_keeps _
    _)) (((h1).trans (State.wrb_keeps _ _ _ _)).trans (State.raiseEvt_keeps _ _ _))) (Keeps.same rfl rfl rfl rfl rfl
    rfl rfl)

theorem execPllRelock_keeps (s : State) : KeepsO s (execPllRelock s) := by
  unfold execPllRelock
  exact KeepsO.ite (KeepsO.next (Keeps.after (State.monSee_keeps _) (Keeps.same rfl rfl rfl rfl rfl rfl rfl)))
    (KeepsO.next (Keeps.refl _))

theorem State.monSel_keeps (s : State) (v) : Keeps s (State.monSel s v) := by
  unfold State.monSel
  exact Keeps.cut (fun h1 => Keeps.ite (Keeps.ite (Keeps.cut (fun h2 => Keeps.upd rfl rfl (h2)) (((h1).trans
    (State.wr_keeps _ _ _)).trans (State.startTimer_keeps _ _ _))) (Keeps.cut (fun h3 => Keeps.upd rfl rfl (h3))
    (((h1).trans (State.wr_keeps _ _ _)).trans (State.stopTimer_keeps _ _)))) (h1)) (State.wrf_keeps _ _ _ _ _)

theorem execClkMonStart_keeps (v) (s : State) : KeepsO s (execClkMonStart v s) := by
  unfold execClkMonStart
  exact KeepsO.next (State.cfg_keeps _ _ _ (fun _ => State.monSel_keeps _ _))

theorem execClkMonWindowEnd_keeps (count) (s : State) : KeepsO s (execClkMonWindowEnd count s) := by
  unfold execClkMonWindowEnd
  exact (by split; exact KeepsO.next (Keeps.refl _); exact KeepsO.cut (fun h1 => KeepsO.next (Keeps.upd rfl rfl (h1))) ((State.stopTimer_keeps _ _).trans (State.wr_keeps _ _ _)))

end Sys2Proof.Machine
end

