-- ==== Sys2Proof/Laws/KeepsHarm.lean ====
section
/-! SUPPORT. What each operation of Machine/Harm.lean keeps (Keeps). -/

namespace Sys2Proof.Machine

theorem State.countFenced_keeps (s : State) : Keeps s (State.countFenced s) := by
  unfold State.countFenced
  exact State.safeInc_keeps _ _ _

theorem State.countGrain_keeps (s : State) : Keeps s (State.countGrain s) := by
  unfold State.countGrain
  exact State.safeInc_keeps _ _ _

theorem State.dropHandle_keeps (s : State) (f) : Keeps s (State.dropHandle s f) := by
  unfold State.dropHandle
  exact (by split; exact (by split; exact Keeps.ite ((State.setKeyQueue_keeps _ _ _ _).trans (State.freeHandle_keeps _ _)) (Keeps.refl _); exact Keeps.refl _); exact Keeps.refl _)

theorem State.fenceFrames_keeps (s : State) (b) : Keeps s (State.fenceFrames s b) := by
  unfold State.fenceFrames
  exact Keeps.foldl (Keeps.refl _) (fun _ _ => (((State.countFenced_keeps _).trans (State.reportDrop_keeps _ _)).trans
    (State.dropHandle_keeps _ _)).trans (State.discardAll_keeps _ _))

theorem State.fenceCopies_keeps (s : State) (p) : Keeps s (State.fenceCopies s p) := by
  unfold State.fenceCopies
  exact Keeps.foldl (Keeps.refl _) (fun _ _ => (State.countFenced_keeps _).trans (State.discardCopy_keeps _ _))

theorem State.portCut_keeps (s : State) (b) (p) : Keeps s (State.portCut s b p) := by
  unfold State.portCut
  exact (by split; exact (State.cutCount_keeps _ _ _ _).trans (State.openEnd_keeps _ _ _); exact Keeps.refl _)

theorem State.closeTx_keeps (s : State) (b) : Keeps s (State.closeTx s b) := by
  unfold State.closeTx
  exact Keeps.foldl (Keeps.refl _) (fun _ _ => State.portCut_keeps _ _ _)

theorem State.marlMark_keeps (s : State) (copy) : Keeps s (State.marlMark s copy) := by
  unfold State.marlMark
  exact Keeps.cut (fun h1 => Keeps.ite ((h1).trans (State.wrb_keeps _ _ _ _)) (h1)) ((State.wrb_keeps _ _ _ _).trans
    (State.safeEvt_keeps _ _))

theorem State.fencePort_keeps (s : State) (p) : Keeps s (State.fencePort s p) := by
  unfold State.fencePort
  exact Keeps.cut (fun h1 => (by (try extract_lets); split; exact (by split; exact (((h1).trans (State.countFenced_keeps _)).trans (State.portCut_keeps _ _ _)).trans (State.discardCopy_keeps _ _); exact h1); exact h1)) (State.wrb_keeps _ _ _ _)

theorem State.fencePosition_keeps (s : State) (p) (on) : Keeps s (State.fencePosition s p on) := by
  unfold State.fencePosition
  exact State.wrf_keeps _ _ _ _ _

theorem State.freshMacs_keeps (s : State) (b) : Keeps s (State.freshMacs s b) := by
  unfold State.freshMacs
  exact Keeps.foldl (Keeps.refl _) (fun _ _ => Keeps.cut (fun h1 => Keeps.upd rfl rfl (h1)) ((State.mmDisable_keeps _
    _ _).trans (State.wr_keeps _ _ _)))

theorem State.switchAll_keeps (s : State) (stats) : Keeps s (State.switchAll s stats) := by
  unfold State.switchAll
  exact Keeps.foldl (Keeps.refl _) (fun _ _ => Keeps.ite (Keeps.refl _) (Keeps.cut (fun h1 => Keeps.ite (h1)
    ((h1).trans (State.wrb_keeps _ _ _ _))) ((State.carryPort_keeps _ _ _ _ _).trans (State.wrb_keeps _ _ _ _))))

theorem State.finishSwap_keeps (s : State) (stats) : Keeps s (State.finishSwap s stats) := by
  unfold State.finishSwap
  exact Keeps.cut (fun h1 => ((h1).trans (State.freshMacs_keeps _ _)).trans (State.swapDone_keeps _))
    (State.switchAll_keeps _ _)

theorem State.fallowLost_keeps (s : State) : Keeps s (State.fallowLost s) := by
  unfold State.fallowLost
  exact Keeps.cut (fun h1 => Keeps.cut (fun h2 => ((h2).trans (State.fencePosition_keeps _ _ _)).trans
    (State.harmMod_keeps _ _)) (Keeps.ite ((h1).trans (State.loadImage_keeps _ _ _)) ((h1).trans
    (State.keepRegion_keeps _ _ _)))) ((State.setSwap_keeps _ _).trans (State.harmMod_keeps _ _))

theorem State.swapOnFence_keeps (s : State) (b) : Keeps s (State.swapOnFence s b) := by
  unfold State.swapOnFence
  exact Keeps.ite (Keeps.ite (State.fallowLost_keeps _) (Keeps.ite (State.finishSwap_keeps _ _) (Keeps.ite
    (State.swapAbort_keeps _ _) (Keeps.ite (State.swapAbort_keeps _ _) (Keeps.refl _))))) (Keeps.ite
    (State.swapAbort_keeps _ _) (Keeps.ite (State.finishSwap_keeps _ _) (Keeps.ite ((State.setSwap_keeps _ _).trans
    (State.safeEvt_keeps _ _)) (Keeps.ite (Keeps.ite (State.wrf_keeps _ _ _ _ _) ((State.swapBegin_keeps _ _ _).trans
    (State.bed16Up_keeps _))) (Keeps.refl _)))))

theorem State.fenceBed_keeps (s : State) (b) : Keeps s (State.fenceBed s b) := by
  unfold State.fenceBed
  exact Keeps.ite (Keeps.refl _) (Keeps.cut (fun h1 => Keeps.cut (fun h2 => Keeps.cut (fun h3 => Keeps.cut (fun h4 => (h4).trans (State.swapOnFence_keeps _ _)) ((h3).trans (State.harmMod_keeps _ _))) ((by split; exact (h2).trans (State.emit_keeps _ _); exact h2))) (((h1).trans (State.closeTx_keeps _ _)).trans (State.wrb_keeps _ _ _ _))) ((State.fenceFrames_keeps _ _).trans (State.fenceCopies_keeps _ _)))

theorem State.fence_keeps (s : State) (cls) (t) (ports) : Keeps s (State.fence s cls t ports) := by
  unfold State.fence
  exact Keeps.ite (Keeps.refl _) (Keeps.ite (Keeps.foldl (Keeps.refl _) (fun _ _ => State.fencePort_keeps _ _)) ((by split; exact Keeps.ite (State.fencePort_keeps _ _) ((by split; exact State.fenceBed_keeps _ _; exact State.fencePort_keeps _ _)); exact Keeps.ite ((by split; exact Keeps.foldl (Keeps.refl _) (fun _ _ => State.fencePort_keeps _ _); exact Keeps.refl _)) (State.fenceBed_keeps _ _); exact Keeps.refl _)))

theorem State.declare_keeps (s : State) (cls) (t) (count) (ports) : Keeps s (State.declare s cls t count ports) := by
  unfold State.declare
  exact Keeps.cut (fun h1 => ((h1).trans (State.harmReport_keeps _ _)).trans (State.fence_keeps _ _ _ _))
    (((State.harmRecord_keeps _ _ _).trans (State.safeInc_keeps _ _ _)).trans (State.safeEvt_keeps _ _))

theorem State.detectOn_keeps (s : State) (cls) (t) (ports) : Keeps s (State.detectOn s cls t ports) := by
  unfold State.detectOn
  exact Keeps.ite (Keeps.refl _) (Keeps.ite (((State.harmMod_keeps _ _).trans (State.stopTimer_keeps _ _)).trans
    (State.declare_keeps _ _ _ _ _)) (Keeps.cut (fun h1 => Keeps.ite (h1) ((h1).trans (State.startTimer_keeps _ _ _)))
    (State.harmMod_keeps _ _)))

theorem State.detect_keeps (s : State) (cls) (t) : Keeps s (State.detect s cls t) := by
  unfold State.detect
  exact State.detectOn_keeps _ _ _ _

theorem State.detectTime_keeps (s : State) (k) : Keeps s (State.detectTime s k) := by
  unfold State.detectTime
  exact State.detectOn_keeps _ _ _ _

theorem State.detectEngine_keeps (s : State) (e) : Keeps s (State.detectEngine s e) := by
  unfold State.detectEngine
  exact Keeps.ite (Keeps.refl _) ((((State.harmRecord_keeps _ _ _).trans (State.safeInc_keeps _ _ _)).trans
    (State.safeEvt_keeps _ _)).trans (State.harmReport_keeps _ _))

theorem State.cutCopies_keeps (s : State) (f) : Keeps s (State.cutCopies s f) := by
  unfold State.cutCopies
  exact Keeps.foldl (Keeps.refl _) (fun _ _ => (by split; exact Keeps.ite (State.portCut_keeps _ _ _) (Keeps.refl _); exact Keeps.refl _))

theorem State.loseFrame_keeps (s : State) (f) : Keeps s (State.loseFrame s f) := by
  unfold State.loseFrame
  exact Keeps.cut (fun h1 => (by (try extract_lets); split; exact Keeps.ite (((((h1).trans (State.countGrain_keeps _)).trans (State.reportDrop_keeps _ _)).trans (State.dropHandle_keeps _ _)).trans (State.discardAll_keeps _ _)) (h1); exact h1)) ((State.cutCopies_keeps _ _).trans (State.discardCopies_keeps _ _ _ (fun _ => State.countGrain_keeps _)))

theorem State.grainFail_keeps (s : State) (t) (f) : Keeps s (State.grainFail s t f) := by
  unfold State.grainFail
  exact (State.loseFrame_keeps _ _).trans (State.detect_keeps _ _ _)

end Sys2Proof.Machine
end

