-- ==== Sys2Proof/Laws/KeepsAssay.lean ====
section
/-! SUPPORT. What each operation of Machine/Assay.lean keeps (Keeps). -/

namespace Sys2Proof.Machine

theorem State.assayMod_keeps (s : State) (f) : Keeps s (State.assayMod s f) := by
  unfold State.assayMod
  exact Keeps.same rfl rfl rfl rfl rfl rfl rfl

theorem State.assayCommit_keeps (s : State) (u1) : Keeps s (State.assayCommit s u1) := by
  unfold State.assayCommit
  exact Keeps.ite (State.assayMod_keeps _ _) ((State.wrb_keeps _ _ _ _).trans (State.raiseEvt_keeps _ _ _))

theorem State.unitCfgWrite_keeps (s : State) (u1) (v) : Keeps s (State.unitCfgWrite s u1 v) := by
  unfold State.unitCfgWrite
  exact Keeps.cut (fun h1 => Keeps.ite ((h1).trans (State.assayCommit_keeps _ _)) (h1)) (State.wr_keeps _ _ _)

theorem execAssayCommit_keeps (u0) (v) (s : State) : KeepsO s (execAssayCommit u0 v s) := by
  unfold execAssayCommit
  exact KeepsO.next (State.cfg_keeps _ _ _ (fun _ => State.unitCfgWrite_keeps _ _ _))

theorem execAssayParityError_keeps (u0) (s : State) : KeepsO s (execAssayParityError u0 s) := by
  unfold execAssayParityError
  exact KeepsO.ite (KeepsO.cut (fun h1 => KeepsO.next (((h1).trans (State.assayMod_keeps _ _)).trans
    (State.marlBump_keeps _ _))) ((State.wrb_keeps _ _ _ _).trans (State.raiseEvt_keeps _ _ _))) (KeepsO.next
    (Keeps.refl _))

theorem State.assayResync_keeps (s : State) (u1) : Keeps s (State.assayResync s u1) := by
  unfold State.assayResync
  exact State.assayMod_keeps _ _

theorem execAssayResync_keeps (u0) (v) (s : State) : KeepsO s (execAssayResync u0 v s) := by
  unfold execAssayResync
  exact KeepsO.next (State.cfg_keeps _ _ _ (fun _ => Keeps.ite (State.assayResync_keeps _ _) (Keeps.refl _)))

theorem State.assayCnt_keeps (s : State) (u1) (i) (n) : Keeps s (State.assayCnt s u1 i n) := by
  unfold State.assayCnt
  exact State.addCnt_keeps _ _ _ _ _

theorem State.assayAppend_keeps (s : State) (u1) (port) (bytes) : Keeps s (State.assayAppend s u1 port bytes).2 := by
  unfold State.assayAppend
  exact Keeps.cut (fun h1 => Keeps.ite ((h1).trans (State.assayCnt_keeps _ _ _ _)) (h1)) ((State.assayMod_keeps _
    _).trans (State.assayCnt_keeps _ _ _ _))

theorem State.assayIngress_keeps (s : State) (cfg) (port) (bytes) : Keeps s (State.assayIngress s cfg port bytes).2 :=
  by
  unfold State.assayIngress
  refine Keeps.iteP (Keeps.refl _) ?_
  extract_lets u c n t m k a ok
  have h : Keeps s t := Keeps.ite (State.assayCnt_keeps _ _ _ _) (Keeps.refl _)
  refine Keeps.iteP ((h.trans (State.assayCnt_keeps _ _ _ _)).trans (State.raiseEvt_keeps _ _ _)) ?_
  have hok : ∀ v, Keeps v (ok v).2 := fun v => (State.assayMod_keeps _ _).trans (State.assayCnt_keeps _ _ _ _)
  split
  · exact h.trans (hok _)
  · extract_lets d
    refine Keeps.iteP (h.trans (hok _)) (Keeps.iteP ?_ ?_)
    · exact (h.trans ((State.assayCnt_keeps _ _ _ _).trans (State.raiseEvt_keeps _ _ _))).trans (hok _)
    · exact h.trans ((State.assayCnt_keeps _ _ _ _).trans (State.raiseEvt_keeps _ _ _))

theorem State.scanRead_keeps (s : State) (run) : Keeps s (State.scanRead s run) := by
  unfold State.scanRead
  exact State.assayMod_keeps _ _

theorem State.scanTimer_keeps (s : State) : Keeps s (State.scanTimer s) := by
  unfold State.scanTimer
  exact State.startTimer_keeps _ _ _

theorem State.scanBegin_keeps (s : State) : Keeps s (State.scanBegin s) := by
  unfold State.scanBegin
  exact Keeps.cut (fun h1 => Keeps.cut (fun h2 => Keeps.ite ((h2).trans (State.raiseEvt_keeps _ _ _)) (((h2).trans
    (State.scanRead_keeps _ _)).trans (State.wrb_keeps _ _ _ _))) (Keeps.foldl (h1) (fun _ _ => State.wrb_keeps _ _ _
    _))) (Keeps.ite (State.scanTimer_keeps _) (Keeps.refl _))

theorem State.scanGo_keeps (s : State) : Keeps s (State.scanGo s) := by
  unfold State.scanGo
  exact Keeps.ite (State.assayMod_keeps _ _) (State.scanBegin_keeps _)

theorem State.scanCtlWrite_keeps (s : State) (v) : Keeps s (State.scanCtlWrite s v) := by
  unfold State.scanCtlWrite
  exact Keeps.cut (fun h1 => Keeps.cut (fun h2 => Keeps.ite ((h2).trans (State.scanGo_keeps _)) (h2)) (Keeps.ite
    ((h1).trans (State.stopTimer_keeps _ _)) (Keeps.ite (h1) ((h1).trans (State.scanTimer_keeps _))))) (State.wr_keeps
    _ _ _)

theorem State.scanPeriod_keeps (s : State) : Keeps s (State.scanPeriod s) := by
  unfold State.scanPeriod
  exact Keeps.cut (fun h1 => (Keeps.ite (((h1).trans (State.wrb_keeps _ _ _ _)).trans (State.raiseEvt_keeps _ _ _))
    (h1)).trans (State.scanGo_keeps _)) (State.stopTimer_keeps _ _)

theorem execScanStart_keeps (written) (s : State) : KeepsO s (execScanStart written s) := by
  unfold execScanStart
  exact (by split; exact KeepsO.next (State.cfg_keeps _ _ _ (fun _ => State.scanCtlWrite_keeps _ _)); exact KeepsO.ite (KeepsO.next (State.scanPeriod_keeps _)) (KeepsO.next (Keeps.refl _)))

theorem State.scanNext_keeps (s : State) (rest) : Keeps s (State.scanNext s rest) := by
  unfold State.scanNext
  exact Keeps.ite (State.scanRead_keeps _ _) (Keeps.cut (fun h1 => Keeps.ite ((h1).trans (State.scanBegin_keeps _))
    (h1)) (((State.assayMod_keeps _ _).trans (State.wrb_keeps _ _ _ _)).trans (State.raiseEvt_keeps _ _ _)))

theorem State.scanJudge_keeps (s : State) (e) (check) : Keeps s (State.scanJudge s e check) := by
  unfold State.scanJudge
  exact Keeps.cut (fun h1 => Keeps.ite (((h1).trans (State.wr2_keeps _ _ _)).trans (State.wrb_keeps _ _ _ _))
    (Keeps.ite (h1) (Keeps.cut (fun h2 => Keeps.cut (fun h3 => Keeps.ite (h3) ((h3).trans (State.detect_keeps _ _ _)))
    (Keeps.ite ((h2).trans (State.marlMark_keeps _ _)) (h2))) (((h1).trans (State.wrb_keeps _ _ _ _)).trans
    (State.raiseEvt_keeps _ _ _))))) (State.wr2_keeps _ _ _)

end Sys2Proof.Machine
end

