-- ==== Sys2Proof/Laws/KeepsBringup.lean ====
section
/-! SUPPORT. What each operation of Machine/Bringup.lean keeps (Keeps). -/

namespace Sys2Proof.Machine

theorem State.signalFault_keeps (s : State) (b) (p) : Keeps s (State.signalFault s b p) := by
  unfold State.signalFault
  exact Keeps.ite (Keeps.refl _) (State.emit_keeps _ _)

theorem State.frameCut_keeps (s : State) (b) (p) (i) (sent) : Keeps s (State.frameCut s b p i sent) := by
  unfold State.frameCut
  exact Keeps.cut (fun h1 => Keeps.cut (fun h2 => ((h2).trans (State.dropTel_keeps _ _ _)).trans
    (State.discardCopy_keeps _ _)) (Keeps.ite ((h1).trans (State.openEnd_keeps _ _ _)) (h1))) (State.cutCount_keeps _
    _ _ _)

theorem State.cutOpen_keeps (s : State) (b) (p) : Keeps s (State.cutOpen s b p) := by
  unfold State.cutOpen
  exact (by split; exact State.frameCut_keeps _ _ _ _ _; exact Keeps.refl _)

theorem State.linkFault_keeps (s : State) (b) (p) (v) : Keeps s (State.linkFault s b p v) := by
  unfold State.linkFault
  exact Keeps.ite (Keeps.refl _) (Keeps.cut (fun h1 => Keeps.ite ((((h1).trans (State.raiseEvt_keeps _ _ _)).trans
    (State.stopTimer_keeps _ _)).trans (State.portMod_keeps _ _ _ _)) (Keeps.cut (fun h2 => Keeps.cut (fun h3 =>
    Keeps.cut (fun h4 => Keeps.ite ((h4).trans (State.startTimer_keeps _ _ _)) (h4)) (((h3).trans (State.stat_keeps _
    _ _ _ _)).trans (State.signalFault_keeps _ _ _))) (((h2).trans (State.unsignal_keeps _ _ _)).trans
    (State.raiseEvt_keeps _ _ _))) (Keeps.ite ((h1).trans (State.cutOpen_keeps _ _ _)) (h1)))) (State.wrf_keeps _ _ _
    _ _))

theorem execRemoteFaultChange_keeps (b) (p) (remote) (s : State) : KeepsO s (execRemoteFaultChange b p remote s) := by
  unfold execRemoteFaultChange
  exact KeepsO.ite (KeepsO.next (State.linkFault_keeps _ _ _ _)) (KeepsO.next (Keeps.refl _))

theorem State.toDetect_keeps (s : State) (b) (p) : Keeps s (State.toDetect s b p) := by
  unfold State.toDetect
  exact Keeps.cut (fun h1 => Keeps.cut (fun h2 => ((h2).trans (State.startTimer_keeps _ _ _)).trans
    (State.signalFault_keeps _ _ _)) ((h1).trans (State.onLanes_keeps _ _ _ _ (fun _ _ => ((State.lanePower_keeps _ _
    _).trans (State.laneUntrain_keeps _ _)).trans (State.laneMod_keeps _ _ _))))) (State.pGo_keeps _ _ _ _)

theorem State.toLock_keeps (s : State) (b) (p) : Keeps s (State.toLock s b p) := by
  unfold State.toLock
  exact (State.pGo_keeps _ _ _ _).trans (State.startTimer_keeps _ _ _)

theorem State.toDormant_keeps (s : State) (b) (p) : Keeps s (State.toDormant s b p) := by
  unfold State.toDormant
  exact Keeps.cut (fun h1 => Keeps.cut (fun h2 => (h2).trans (State.onLanes_keeps _ _ _ _ (fun _ _ =>
    State.laneDormant_keeps _ _))) (((h1).trans (State.stopTimer_keeps _ _)).trans (State.linkFault_keeps _ _ _ _)))
    (((State.pGo_keeps _ _ _ _).trans (State.stopTimer_keeps _ _)).trans (State.stopTimer_keeps _ _))

theorem State.leaveDisabled_keeps (s : State) (b) (p) : Keeps s (State.leaveDisabled s b p) := by
  unfold State.leaveDisabled
  exact Keeps.ite (Keeps.cut (fun h1 => Keeps.cut (fun h2 => Keeps.ite (((h2).trans (State.pGo_keeps _ _ _ _)).trans
    (State.onLanes_keeps _ _ _ _ (fun _ _ => (State.lanePower_keeps _ _ _).trans (State.laneDormant_keeps _ _))))
    ((h2).trans (State.toDetect_keeps _ _ _))) (((h1).trans (State.pStat_keeps _ _ _ _ _ _)).trans (State.pStat_keeps
    _ _ _ _ _ _))) (State.portMod_keeps _ _ _ _)) (Keeps.refl _)

theorem State.toDisabled_keeps (s : State) (b) (p) (lanes) : Keeps s (State.toDisabled s b p lanes) := by
  unfold State.toDisabled
  exact Keeps.cut (fun h1 => Keeps.cut (fun h2 => Keeps.cut (fun h3 => Keeps.cut (fun h4 => (h4).trans
    (State.portMod_keeps _ _ _ _)) (((h3).trans (State.wr_keeps _ _ _)).trans (State.wrf_keeps _ _ _ _ _)))
    (((h2).trans (State.pGo_keeps _ _ _ _)).trans (State.linkFault_keeps _ _ _ _))) (((((h1).trans
    (State.stopTimer_keeps _ _)).trans (State.stopTimer_keeps _ _)).trans (State.stopTimer_keeps _ _)).trans
    (State.stopTimer_keeps _ _))) (State.onLanes_keeps _ _ _ _ (fun _ _ => (State.lanePower_keeps _ _ _).trans
    (State.laneForget_keeps _ _)))

theorem State.satInc16_keeps (s : State) (off) (hi) (lo) : Keeps s (State.satInc16 s off hi lo) := by
  unfold State.satInc16
  exact State.wrf_keeps _ _ _ _ _

theorem State.toGap_keeps (s : State) (b) (p) (lastFail) : Keeps s (State.toGap s b p lastFail) := by
  unfold State.toGap
  exact Keeps.cut (fun h1 => Keeps.cut (fun h2 => Keeps.cut (fun h3 => (h3).trans (State.startTimer_keeps _ _ _))
    ((h2).trans (State.portMod_keeps _ _ _ _))) (((h1).trans (State.stopTimer_keeps _ _)).trans (State.satInc16_keeps
    _ _ _ _))) (((State.pGo_keeps _ _ _ _).trans (State.pStat_keeps _ _ _ _ _ _)).trans (State.stopTimer_keeps _ _))

theorem State.reformToGap_keeps (s : State) (b) (p) (lastFail) : Keeps s (State.reformToGap s b p lastFail) := by
  unfold State.reformToGap
  exact (((State.toGap_keeps _ _ _ _).trans (State.wrb_keeps _ _ _ _)).trans (State.pStat_keeps _ _ _ _ _ _)).trans
    (State.pStat_keeps _ _ _ _ _ _)

theorem State.toActive_keeps (s : State) (b) (p) : Keeps s (State.toActive s b p) := by
  unfold State.toActive
  exact Keeps.cut (fun h1 => Keeps.cut (fun h2 => Keeps.cut (fun h3 => Keeps.cut (fun h4 => ((h4).trans
    (State.shAck_keeps _ _ _ _)).trans (State.raiseEvt_keeps _ _ _)) (((h3).trans (State.shadowSet_keeps _ _ _)).trans
    (State.wrb_keeps _ _ _ _))) (((h2).trans (State.stopTimer_keeps _ _)).trans (State.linkFault_keeps _ _ _ _)))
    (((((h1).trans (State.pGo_keeps _ _ _ _)).trans (State.pStat_keeps _ _ _ _ _ _)).trans (State.pStat_keeps _ _ _ _
    _ _)).trans (State.stopTimer_keeps _ _))) (State.onLanes_keeps _ _ _ _ (fun _ _ => State.laneStore_keeps _ _))

theorem State.lockDone_keeps (s : State) (b) (p) : Keeps s (State.lockDone s b p) := by
  unfold State.lockDone
  exact Keeps.ite ((State.pGo_keeps _ _ _ _).trans (State.startTimer_keeps _ _ _)) (State.toActive_keeps _ _ _)

theorem State.wakeLanes_keeps (s : State) (b) (p) : Keeps s (State.wakeLanes s b p) := by
  unfold State.wakeLanes
  exact Keeps.cut (fun h1 => (h1).trans (State.onLanes_keeps _ _ _ _ (fun _ _ => State.laneUseStored_keeps _ _)))
    (State.onLanes_keeps _ _ _ _ (fun _ _ => State.lanePower_keeps _ _ _))

theorem State.formDormant_keeps (s : State) (b) (p) : Keeps s (State.formDormant s b p) := by
  unfold State.formDormant
  exact Keeps.ite (Keeps.refl _) (Keeps.ite (Keeps.ite (State.toDormant_keeps _ _ _) (Keeps.refl _)) (Keeps.ite
    (Keeps.ite (((State.pGo_keeps _ _ _ _).trans (State.wakeLanes_keeps _ _ _)).trans (State.startTimer_keeps _ _ _))
    (State.toDetect_keeps _ _ _)) (Keeps.refl _)))

theorem State.openDone_keeps (s : State) (b) (p) : Keeps s (State.openDone s b p) := by
  unfold State.openDone
  exact (State.openEnd_keeps _ _ _).trans (State.formDormant_keeps _ _ _)

theorem State.formDue_keeps (s : State) (b) (p) : Keeps s (State.formDue s b p) := by
  unfold State.formDue
  exact (by split; exact ((State.portMod_keeps _ _ _ _).trans (State.toDisabled_keeps _ _ _ _)).trans (State.leaveDisabled_keeps _ _ _); exact Keeps.refl _)

theorem State.formWrite_keeps (s : State) (b) (p) (v) : Keeps s (State.formWrite s b p v) := by
  unfold State.formWrite
  exact Keeps.ite (Keeps.cut (fun h1 => (((h1).trans (State.wrb_keeps _ _ _ _)).trans (State.raiseEvt_keeps _ _
    _)).trans (State.formDormant_keeps _ _ _)) (State.wr_keeps _ _ _)) (Keeps.ite (Keeps.cut (fun h2 => Keeps.cut (fun
    h3 => Keeps.ite ((h3).trans (State.formDue_keeps _ _ _)) (h3)) ((h2).trans (State.wr_keeps _ _ _)))
    (State.portMod_keeps _ _ _ _)) ((State.wr_keeps _ _ _).trans (State.formDormant_keeps _ _ _)))

theorem State.portWake_keeps (s : State) (b) (p) : Keeps s (State.portWake s b p) := by
  unfold State.portWake
  exact Keeps.ite (State.formDue_keeps _ _ _) (Keeps.ite (State.leaveDisabled_keeps _ _ _) (State.formDormant_keeps _
    _ _))

theorem execPortFormWrite_keeps (b) (p) (v) (s : State) : KeepsO s (execPortFormWrite b p v s) := by
  unfold execPortFormWrite
  exact KeepsO.next (State.cfg_keeps _ _ _ (fun _ => State.formWrite_keeps _ _ _ _))

theorem execPortDetectDone_keeps (b) (p) (s : State) : KeepsO s (execPortDetectDone b p s) := by
  unfold execPortDetectDone
  exact KeepsO.ite (KeepsO.cut (fun h1 => KeepsO.ite (KeepsO.next (((h1).trans (State.pGo_keeps _ _ _ _)).trans
    (State.startTimer_keeps _ _ _))) (KeepsO.next ((h1).trans (State.toLock_keeps _ _ _)))) (State.onLanes_keeps _ _ _
    _ (fun _ _ => State.laneUseBoard_keeps _ _))) (KeepsO.next (Keeps.refl _))

theorem State.trainLanes_keeps (s : State) (b) (p) (asks) : Keeps s (State.trainLanes s b p asks) := by
  unfold State.trainLanes
  exact Keeps.foldl (Keeps.refl _) (fun _ _ => (by split; exact State.laneTrain_keeps _ _ _; exact Keeps.refl _))

theorem execPortTrainDone_keeps (b) (p) (asks) (s : State) : KeepsO s (execPortTrainDone b p asks s) := by
  unfold execPortTrainDone
  exact KeepsO.ite (KeepsO.next ((State.trainLanes_keeps _ _ _ _).trans (State.toLock_keeps _ _ _))) (KeepsO.next
    (Keeps.refl _))

theorem State.lockSpan_keeps (s : State) (b) (p) : Keeps s (State.lockSpan s b p) := by
  unfold State.lockSpan
  exact State.onLanes_keeps _ _ _ _ (fun _ _ => State.laneLockAll_keeps _ _)

theorem execPortLockDone_keeps (b) (p) (skewNs) (s : State) : KeepsO s (execPortLockDone b p skewNs s) := by
  unfold execPortLockDone
  exact KeepsO.ite (KeepsO.ite (KeepsO.next ((State.lockSpan_keeps _ _ _).trans (State.lockDone_keeps _ _ _)))
    (KeepsO.ite (KeepsO.next (State.lockSpan_keeps _ _ _)) (KeepsO.next (Keeps.refl _)))) (KeepsO.next (Keeps.refl _))

theorem execPortExchangeConfirm_keeps (b) (p) (form) (fec) (s : State) : KeepsO s (execPortExchangeConfirm b p form
  fec s) := by
  unfold execPortExchangeConfirm
  exact KeepsO.ite (KeepsO.ite (KeepsO.next (State.toActive_keeps _ _ _)) (KeepsO.ite (KeepsO.next
    (State.portMod_keeps _ _ _ _)) (KeepsO.next (Keeps.refl _)))) (KeepsO.next (Keeps.refl _))

theorem execPortExchangeMismatch_keeps (b) (p) (form) (fec) (s : State) : KeepsO s (execPortExchangeMismatch b p form
  fec s) := by
  unfold execPortExchangeMismatch
  exact KeepsO.ite (KeepsO.next (Keeps.refl _)) (KeepsO.ite (KeepsO.next ((State.toGap_keeps _ _ _ _).trans
    (State.raiseEvt_keeps _ _ _))) (KeepsO.ite (KeepsO.next ((State.reformToGap_keeps _ _ _ _).trans
    (State.raiseEvt_keeps _ _ _))) (KeepsO.next (Keeps.refl _))))

theorem execPortStageTimeout_keeps (b) (p) (s : State) : KeepsO s (execPortStageTimeout b p s) := by
  unfold execPortStageTimeout
  exact KeepsO.ite (KeepsO.next ((State.toGap_keeps _ _ _ _).trans (State.raiseEvt_keeps _ _ _))) (KeepsO.next
    (Keeps.refl _))

theorem State.lossFields_keeps (s : State) (b) (p) (lane) : Keeps s (State.lossFields s b p lane) := by
  unfold State.lossFields
  exact ((State.pStat_keeps _ _ _ _ _ _).trans (State.wrb_keeps _ _ _ _)).trans (State.satInc16_keeps _ _ _ _)

theorem State.choose_keeps (s : State) (b) (p) (form) (first) : Keeps s (State.choose s b p form first) := by
  unfold State.choose
  exact Keeps.cut (fun h1 => (h1).trans (State.onLanes_keeps _ _ _ _ (fun _ _ => State.laneUseStored_keeps _ _)))
    (State.portMod_keeps _ _ _ _)

theorem State.portLoss_keeps (s : State) (b) (p) (lane) : Keeps s (State.portLoss s b p lane) := by
  unfold State.portLoss
  exact Keeps.ite (Keeps.cut (fun h1 => Keeps.cut (fun h2 => (by (try extract_lets); split; exact Keeps.cut (fun h3 => (h3).trans (State.startTimer_keeps _ _ _)) ((((h2).trans (State.pGo_keeps _ _ _ _)).trans (State.choose_keeps _ _ _ _ _)).trans (State.linkFault_keeps _ _ _ _)); exact ((h2).trans (State.toGap_keeps _ _ _ _)).trans (State.linkFault_keeps _ _ _ _))) (Keeps.ite ((h1).trans (State.wrb_keeps _ _ _ _)) (h1))) ((State.lossFields_keeps _ _ _ _).trans (State.raiseEvt_keeps _ _ _))) (Keeps.ite (Keeps.cut (fun h4 => (by (try extract_lets); split; exact (h4).trans (State.choose_keeps _ _ _ _ _); exact ((h4).trans (State.reformToGap_keeps _ _ _ _)).trans (State.raiseEvt_keeps _ _ _))) (State.lossFields_keeps _ _ _ _)) (Keeps.refl _))

theorem State.lanesLost_keeps (s : State) (b) (lost) : Keeps s (State.lanesLost s b lost) := by
  unfold State.lanesLost
  exact Keeps.cut (fun h1 => Keeps.foldl (h1) (fun _ _ => (by split; exact State.portLoss_keeps _ _ _ _; exact Keeps.refl _))) (State.onLanes_keeps _ _ _ _ (fun _ _ => (State.laneUnlock_keeps _ _).trans (State.laneMod_keeps _ _ _)))

theorem execLaneLockLoss_keeps (b) (lost) (s : State) : KeepsO s (execLaneLockLoss b lost s) := by
  unfold execLaneLockLoss
  exact KeepsO.next (Keeps.ite (State.lanesLost_keeps _ _ _) (Keeps.refl _))

theorem execReformDone_keeps (b) (p) (asks) (s : State) : KeepsO s (execReformDone b p asks s) := by
  unfold execReformDone
  exact KeepsO.ite (KeepsO.next (((((State.trainLanes_keeps _ _ _ _).trans (State.lockSpan_keeps _ _ _)).trans
    (State.toActive_keeps _ _ _)).trans (State.wrb_keeps _ _ _ _)).trans (State.raiseEvt_keeps _ _ _))) (KeepsO.next
    (Keeps.refl _))

theorem execReformLimitExpire_keeps (b) (p) (s : State) : KeepsO s (execReformLimitExpire b p s) := by
  unfold execReformLimitExpire
  exact KeepsO.ite (KeepsO.next (State.reformToGap_keeps _ _ _ _)) (KeepsO.next (Keeps.refl _))

theorem execGapRetry_keeps (b) (p) (s : State) : KeepsO s (execGapRetry b p s) := by
  unfold execGapRetry
  exact KeepsO.ite (KeepsO.cut (fun h1 => KeepsO.ite (KeepsO.next ((h1).trans (State.toDetect_keeps _ _ _)))
    (KeepsO.next ((((h1).trans (State.pGo_keeps _ _ _ _)).trans (State.onLanes_keeps _ _ _ _ (fun _ _ =>
    State.lanePower_keeps _ _ _))).trans (State.raiseEvt_keeps _ _ _)))) (State.stopTimer_keeps _ _)) (KeepsO.next
    (Keeps.refl _))

theorem execDormantWakeDone_keeps (b) (p) (s : State) : KeepsO s (execDormantWakeDone b p s) := by
  unfold execDormantWakeDone
  exact KeepsO.ite (KeepsO.next (((State.stopTimer_keeps _ _).trans (State.toLock_keeps _ _ _)).trans
    (State.formDormant_keeps _ _ _))) (KeepsO.next (Keeps.refl _))

theorem execLaneRecovered_keeps (b) (l) (s : State) : KeepsO s (execLaneRecovered b l s) := by
  unfold execLaneRecovered
  exact (by split; exact KeepsO.ite (KeepsO.next (((State.laneLockAll_keeps _ _).trans (State.laneMod_keeps _ _ _)).trans (State.raiseEvt_keeps _ _ _))) (KeepsO.next (Keeps.refl _)); exact KeepsO.next (Keeps.refl _))

theorem execFaultHoldExpire_keeps (b) (p) (s : State) : KeepsO s (execFaultHoldExpire b p s) := by
  unfold execFaultHoldExpire
  exact KeepsO.ite (KeepsO.next ((State.stopTimer_keeps _ _).trans (State.portMod_keeps _ _ _ _))) (KeepsO.next
    (Keeps.refl _))

end Sys2Proof.Machine
end

