-- ==== Sys2Proof/Laws/KeepsGates.lean ====
section
/-! SUPPORT. What each operation of Machine/Gates.lean keeps (Keeps). -/

namespace Sys2Proof.Machine

theorem State.setGateEntry_keeps (s : State) (k) (e) : Keeps s (State.setGateEntry s k e) := by
  unfold State.setGateEntry
  exact State.gatesMod_keeps _ _

theorem State.gateRefresh_keeps (s : State) (b) (p) : Keeps s (State.gateRefresh s b p) := by
  unfold State.gateRefresh
  exact Keeps.cut (fun h1 => Keeps.cut (fun h2 => Keeps.cut (fun h3 => Keeps.ite (h3) ((h3).trans (State.gateMod_keeps
    _ _ _ _))) (Keeps.ite ((h2).trans (State.stat_keeps _ _ _ _ _)) (h2))) ((h1).trans (State.wrb_keeps _ _ _ _)))
    (((State.wrf_keeps _ _ _ _ _).trans (State.wrb_keeps _ _ _ _)).trans (State.wrf_keeps _ _ _ _ _))

theorem State.gateCommit_keeps (s : State) (b) (p) : Keeps s (State.gateCommit s b p) := by
  unfold State.gateCommit
  exact Keeps.ite ((State.wrb_keeps _ _ _ _).trans (State.raiseEvt_keeps _ _ _)) (Keeps.cut (fun h1 => Keeps.cut (fun
    h2 => Keeps.ite ((((h2).trans (State.wrb_keeps _ _ _ _)).trans (State.inc_keeps _ _ _ _)).trans
    (State.raiseEvt_keeps _ _ _)) (h2)) ((h1).trans (State.wrf_keeps _ _ _ _ _))) (State.wrs_keeps _ _ _))

theorem State.gateCommitBy_keeps (s : State) (b) (p) (pulse) : Keeps s (State.gateCommitBy s b p pulse) := by
  unfold State.gateCommitBy
  exact Keeps.ite (Keeps.refl _) ((State.gateCommit_keeps _ _ _).trans (State.gateMod_keeps _ _ _ _))

theorem State.gateAbort_keeps (s : State) (b) (p) : Keeps s (State.gateAbort s b p) := by
  unfold State.gateAbort
  exact Keeps.ite (State.wrf_keeps _ _ _ _ _) (Keeps.refl _)

theorem State.gateCtlWrite_keeps (s : State) (b) (p) (v) : Keeps s (State.gateCtlWrite s b p v) := by
  unfold State.gateCtlWrite
  exact Keeps.cut (fun h1 => Keeps.cut (fun h2 => Keeps.ite ((h2).trans (State.gateCommitBy_keeps _ _ _ _)) (h2))
    (Keeps.ite ((h1).trans (State.gateAbort_keeps _ _ _)) (h1))) ((State.wr_keeps _ _ _).trans
    (State.gateRefresh_keeps _ _ _))

theorem State.gateAdopt_keeps (s : State) (b) (p) : Keeps s (State.gateAdopt s b p) := by
  unfold State.gateAdopt
  exact Keeps.cut (fun h1 => (((h1).trans (State.gateRefresh_keeps _ _ _)).trans (State.raiseEvt_keeps _ _ _)).trans
    (State.ownChange_keeps _ _)) ((State.wrs_keeps _ _ _).trans (State.wrf_keeps _ _ _ _ _))

theorem execGateCommit_keeps (b) (p) (v) (s : State) : KeepsO s (execGateCommit b p v s) := by
  unfold execGateCommit
  exact KeepsO.next (State.cfg_keeps _ _ _ (fun _ => State.gateCtlWrite_keeps _ _ _ _))

theorem execGateAbort_keeps (b) (p) (v) (s : State) : KeepsO s (execGateAbort b p v s) := by
  unfold execGateAbort
  exact KeepsO.next (State.cfg_keeps _ _ _ (fun _ => State.gateCtlWrite_keeps _ _ _ _))

theorem execGateAdopt_keeps (b) (p) (s : State) : KeepsO s (execGateAdopt b p s) := by
  unfold execGateAdopt
  exact KeepsO.next (Keeps.ite (State.gateAdopt_keeps _ _ _) (Keeps.refl _))

theorem execGateBoundary_keeps (b) (p) (s : State) : KeepsO s (execGateBoundary b p s) := by
  unfold execGateBoundary
  exact KeepsO.next (State.gateRefresh_keeps _ _ _)

theorem execGateHoldAdvance_keeps (b) (p) (s : State) : KeepsO s (execGateHoldAdvance b p s) := by
  unfold execGateHoldAdvance
  exact KeepsO.next (Keeps.ite (State.gateRefresh_keeps _ _ _) (Keeps.refl _))

theorem State.gateMiss_keeps (s : State) (b) (p) : Keeps s (State.gateMiss s b p) := by
  unfold State.gateMiss
  exact (State.inc_keeps _ _ _ _).trans (State.raiseEvt_keeps _ _ _)

theorem State.gateJudge_keeps (s : State) (b) (p) (w) : Keeps s (State.gateJudge s b p w) := by
  unfold State.gateJudge
  exact Keeps.ite (Keeps.refl _) (Keeps.cut (fun h1 => (h1).trans (State.detect_keeps _ _ _)) (((State.inc_keeps _ _ _
    _).trans (State.raiseEvt_keeps _ _ _)).trans (State.pmuOcc_keeps _ _ _)))

theorem State.gateStep_keeps (s : State) (k) : Keeps s (State.gateStep s k) := by
  unfold State.gateStep
  exact Keeps.foldl (Keeps.refl _) (fun _ _ => Keeps.ite (Keeps.cut (fun h1 => Keeps.ite (Keeps.cut (fun h2 =>
    Keeps.ite (((h2).trans (State.inc_keeps _ _ _ _)).trans (State.raiseEvt_keeps _ _ _)) (h2)) ((h1).trans
    (State.gateMod_keeps _ _ _ _))) (h1)) (State.gateRefresh_keeps _ _ _)) (Keeps.refl _))

theorem execGateAbandon_keeps (b) (p) (s : State) : KeepsO s (execGateAbandon b p s) := by
  unfold execGateAbandon
  exact (by split; exact KeepsO.next (Keeps.refl _); exact (by split; exact KeepsO.next (Keeps.refl _); exact KeepsO.ite (KeepsO.next ((((State.gateMiss_keeps _ _ _).trans (State.cutCount_keeps _ _ _ _)).trans (State.openDone_keeps _ _ _)).trans (State.discardCopy_keeps _ _))) (KeepsO.next (Keeps.refl _))))

theorem State.gateWatch_keeps (s : State) (b) (p) : Keeps s (State.gateWatch s b p) := by
  unfold State.gateWatch
  exact Keeps.cut (fun h1 => Keeps.ite ((h1).trans (State.gateMod_keeps _ _ _ _)) (h1)) (Keeps.ite (Keeps.refl _)
    (Keeps.foldl (State.gateMod_keeps _ _ _ _) (fun _ _ => State.gateJudge_keeps _ _ _ _)))

theorem State.gateTick_keeps (s : State) : Keeps s (State.gateTick s) := by
  unfold State.gateTick
  exact Keeps.foldl (Keeps.refl _) (fun _ _ => State.gateWatch_keeps _ _ _)

theorem State.shadowListRefused_keeps (s : State) (b) (p) : Keeps s (State.shadowListRefused s b p) := by
  unfold State.shadowListRefused
  exact (State.wrb_keeps _ _ _ _).trans (State.raiseEvt_keeps _ _ _)

theorem State.gateListRead_keeps (s : State) (b) : Keeps s (State.gateListRead s b) := by
  unfold State.gateListRead
  exact ((State.wrf_keeps _ _ _ _ _).trans (State.wr_keeps _ _ _)).trans (State.wr_keeps _ _ _)

theorem execGateListRead_keeps (b) (s : State) : KeepsO s (execGateListRead b s) := by
  unfold execGateListRead
  exact KeepsO.next (State.cfg_keeps _ _ _ (fun _ => State.gateListRead_keeps _ _))

theorem State.gateListWrite_keeps (s : State) (b) : Keeps s (State.gateListWrite s b) := by
  unfold State.gateListWrite
  exact Keeps.cut (fun h1 => (by (try extract_lets); split <;> exact Keeps.ite ((h1).trans (State.shadowListRefused_keeps _ _ _)) ((h1).trans (State.setGateEntry_keeps _ _ _)))) (State.wrf_keeps _ _ _ _ _)

theorem execGateListWrite_keeps (b) (s : State) : KeepsO s (execGateListWrite b s) := by
  unfold execGateListWrite
  exact KeepsO.next (State.cfg_keeps _ _ _ (fun _ => State.gateListWrite_keeps _ _))

end Sys2Proof.Machine
end

