-- ==== Sys2Proof/Laws/KeepsTime.lean ====
section
/-! SUPPORT. What each operation of Machine/Time.lean keeps (Keeps). -/

namespace Sys2Proof.Machine

theorem State.addendWrite_keeps (s : State) (k) (v) : Keeps s (State.addendWrite s k v) := by
  unfold State.addendWrite
  exact Keeps.cut (fun h1 => ((h1).trans (State.wr_keeps _ _ _)).trans (State.wr_keeps _ _ _)) (Keeps.ite
    (State.tbMod_keeps _ _ _) ((State.wrb_keeps _ _ _ _).trans (State.raiseEvt_keeps _ _ _)))

theorem execAddendWrite_keeps (k) (v) (s : State) : KeepsO s (execAddendWrite k v s) := by
  unfold execAddendWrite
  exact KeepsO.next (State.cfg_keeps _ _ _ (fun _ => State.addendWrite_keeps _ _ _))

theorem State.nowCapture_keeps (s : State) (k) : Keeps s (State.nowCapture s k) := by
  unfold State.nowCapture
  exact State.wrs_keeps _ _ _

theorem State.captureAll_keeps (s : State) : Keeps s (State.captureAll s) := by
  unfold State.captureAll
  exact (Keeps.foldl (Keeps.refl _) (fun _ _ => State.wrs_keeps _ _ _)).trans (State.wrb_keeps _ _ _ _)

theorem execCaptureAll_keeps (s : State) : KeepsO s (execCaptureAll s) := by
  unfold execCaptureAll
  exact KeepsO.next (State.cfg_keeps _ _ _ (fun _ => State.captureAll_keeps _))

theorem State.actMod_keeps (s : State) (a) (f) : Keeps s (State.actMod s a f) := by
  unfold State.actMod
  exact State.timeMod_keeps _ _

theorem State.pulse_keeps (s : State) (line) : Keeps s (State.pulse s line) := by
  unfold State.pulse
  exact Keeps.same rfl rfl rfl rfl rfl rfl rfl

theorem State.ppsPulse_keeps (s : State) (j) : Keeps s (State.ppsPulse s j) := by
  unfold State.ppsPulse
  exact Keeps.ite (Keeps.refl _) ((State.emit_keeps _ _).trans (State.startTimer_keeps _ _ _))

theorem State.actDo_keeps (s : State) (a) : Keeps s (State.actDo s a) := by
  unfold State.actDo
  exact Keeps.cut (fun h1 => Keeps.cut (fun h2 => Keeps.cut (fun h3 => (h3).trans (State.actMod_keeps _ _ _))
    (Keeps.ite ((h2).trans (State.raiseEvt_keeps _ _ _)) (h2))) (Keeps.ite ((h1).trans (State.ppsPulse_keeps _ _))
    (h1))) (Keeps.ite (State.pulse_keeps _ _) (Keeps.refl _))

theorem State.actFire_keeps (s : State) (a) : Keeps s (State.actFire s a) := by
  unfold State.actFire
  exact (State.actDo_keeps _ _).trans (State.actMod_keeps _ _ _)

theorem State.actLate_keeps (s : State) (a) (v) : Keeps s (State.actLate s a v) := by
  unfold State.actLate
  exact Keeps.cut (fun h1 => (h1).trans (State.actMod_keeps _ _ _)) (((State.actDo_keeps _ _).trans
    (State.raiseEvt_keeps _ _ _)).trans (State.actMod_keeps _ _ _))

theorem State.actArm_keeps (s : State) (a) : Keeps s (State.actArm s a) := by
  unfold State.actArm
  exact Keeps.cut (fun h1 => Keeps.ite ((h1).trans (State.actLate_keeps _ _ _)) (h1)) (State.actMod_keeps _ _ _)

theorem State.actStep_keeps (s : State) (k) : Keeps s (State.actStep s k) := by
  unfold State.actStep
  exact Keeps.foldl (Keeps.refl _) (fun _ _ => State.actLate_keeps _ _ _)

theorem State.actOp_keeps (s : State) (op) : Keeps s (State.actOp s op) := by
  unfold State.actOp
  have h : Keeps s (s.wrf offActCmd 1 0 op) := State.wrf_keeps _ _ _ _ _
  generalize s.wrf offActCmd 1 0 op = t at h
  dsimp only
  split
  · exact h.trans (State.wrs_keeps _ _ _)
  · exact Keeps.ite (h.trans (State.wrb_keeps _ _ _ _)) (h.trans (State.actMod_keeps _ _ _))
  · exact h.trans (State.actArm_keeps _ _)
  · exact h.trans (State.actMod_keeps _ _ _)

theorem execActRead_keeps (s : State) : KeepsO s (execActRead s) := by
  unfold execActRead
  exact KeepsO.next (State.cfg_keeps _ _ _ (fun _ => State.actOp_keeps _ _))

theorem execActWrite_keeps (s : State) : KeepsO s (execActWrite s) := by
  unfold execActWrite
  exact KeepsO.next (State.cfg_keeps _ _ _ (fun _ => State.actOp_keeps _ _))

theorem execActArm_keeps (s : State) : KeepsO s (execActArm s) := by
  unfold execActArm
  exact KeepsO.next (State.cfg_keeps _ _ _ (fun _ => State.actOp_keeps _ _))

theorem execActDisarm_keeps (s : State) : KeepsO s (execActDisarm s) := by
  unfold execActDisarm
  exact KeepsO.next (State.cfg_keeps _ _ _ (fun _ => State.actOp_keeps _ _))

theorem execActFire_keeps (k) (slot) (s : State) : KeepsO s (execActFire k slot s) := by
  unfold execActFire
  exact KeepsO.next (Keeps.ite (State.actFire_keeps _ _) (Keeps.refl _))

theorem State.unlockOff_keeps (s : State) (k) : Keeps s (State.unlockOff s k) := by
  unfold State.unlockOff
  exact (State.stopTimer_keeps _ _).trans (State.wrb_keeps _ _ _ _)

theorem State.jumpRefused_keeps (s : State) (k) (mag) : Keeps s (State.jumpRefused s k mag) := by
  unfold State.jumpRefused
  exact ((State.wrb_keeps _ _ _ _).trans (State.wr_keeps _ _ _)).trans (State.raiseEvt_keeps _ _ _)

theorem State.stepped_keeps (s : State) (k) : Keeps s (State.stepped s k) := by
  unfold State.stepped
  exact Keeps.ite (Keeps.ite (State.wrf_keeps _ _ _ _ _) (Keeps.refl _)) (((State.actStep_keeps _ _).trans
    (State.telStep_keeps _ _)).trans (State.gateStep_keeps _ _))

theorem State.tbGo_keeps (s : State) (k) (v) (mag) (op) : Keeps s (State.tbGo s k v mag op) := by
  unfold State.tbGo
  exact Keeps.cut (fun h1 => Keeps.ite (h1) (Keeps.ite ((h1).trans (State.wrb_keeps _ _ _ _)) (Keeps.cut (fun h2 =>
    Keeps.ite ((h2).trans (State.tbMod_keeps _ _ _)) ((h2).trans (State.jumpRefused_keeps _ _ _))) ((h1).trans
    (State.unlockOff_keeps _ _))))) (State.wr_keeps _ _ _)

theorem State.tbSet_keeps (s : State) (k) (v) : Keeps s (State.tbSet s k v) := by
  unfold State.tbSet
  exact State.tbGo_keeps _ _ _ _ _

theorem State.tbStep_keeps (s : State) (k) (v) : Keeps s (State.tbStep s k v) := by
  unfold State.tbStep
  exact State.tbGo_keeps _ _ _ _ _

theorem State.tbSlew_keeps (s : State) (k) (v) : Keeps s (State.tbSlew s k v) := by
  unfold State.tbSlew
  exact State.tbGo_keeps _ _ _ _ _

theorem State.tbNothing_keeps (s : State) (k) (v) : Keeps s (State.tbNothing s k v) := by
  unfold State.tbNothing
  exact State.tbGo_keeps _ _ _ _ _

theorem execTbSet_keeps (k) (v) (s : State) : KeepsO s (execTbSet k v s) := by
  unfold execTbSet
  exact KeepsO.next (State.cfg_keeps _ _ _ (fun _ => State.tbSet_keeps _ _ _))

theorem execTbStep_keeps (k) (v) (s : State) : KeepsO s (execTbStep k v s) := by
  unfold execTbStep
  exact KeepsO.next (State.cfg_keeps _ _ _ (fun _ => State.tbStep_keeps _ _ _))

theorem execTbSlew_keeps (k) (v) (s : State) : KeepsO s (execTbSlew k v s) := by
  unfold execTbSlew
  exact KeepsO.next (State.cfg_keeps _ _ _ (fun _ => State.tbSlew_keeps _ _ _))

theorem execSlewEnd_keeps (k) (s : State) : KeepsO s (execSlewEnd k s) := by
  unfold execSlewEnd
  exact KeepsO.ite (KeepsO.next (State.tbMod_keeps _ _ _)) (KeepsO.next (Keeps.refl _))

theorem State.unlockWrite_keeps (s : State) (port) (k) (v) : Keeps s (State.unlockWrite s port k v) := by
  unfold State.unlockWrite
  exact State.lk_keeps _ _ _ _ _ (fun _ => Keeps.ite ((State.startTimer_keeps _ _ _).trans (State.wrb_keeps _ _ _ _))
    (State.unlockOff_keeps _ _))

theorem execUnlockWrite_keeps (k) (v) (s : State) : KeepsO s (execUnlockWrite k v s) := by
  unfold execUnlockWrite
  exact KeepsO.next (State.cfg_keeps _ _ _ (fun _ => State.unlockWrite_keeps _ _ _ _))

theorem execUnlockExpire_keeps (k) (s : State) : KeepsO s (execUnlockExpire k s) := by
  unfold execUnlockExpire
  exact KeepsO.ite (KeepsO.next ((State.unlockOff_keeps _ _).trans (State.raiseEvt_keeps _ _ _))) (KeepsO.next
    (Keeps.refl _))

theorem State.pairSwitch_keeps (s : State) (k) : Keeps s (State.pairSwitch s k) := by
  unfold State.pairSwitch
  exact Keeps.ite (Keeps.refl _) (Keeps.ite ((State.wr_keeps _ _ _).trans (State.wrf_keeps _ _ _ _ _))
    ((State.wrb_keeps _ _ _ _).trans (State.raiseEvt_keeps _ _ _)))

theorem State.pairReturn_keeps (s : State) (k) : Keeps s (State.pairReturn s k) := by
  unfold State.pairReturn
  exact State.wrf_keeps _ _ _ _ _

theorem State.pairCtlWrite_keeps (s : State) (k) (v) : Keeps s (State.pairCtlWrite s k v) := by
  unfold State.pairCtlWrite
  exact Keeps.cut (fun h1 => Keeps.cut (fun h2 => Keeps.ite ((h2).trans (State.pairReturn_keeps _ _)) (h2)) (Keeps.ite
    ((h1).trans (State.pairSwitch_keeps _ _)) (h1))) (State.wr_keeps _ _ _)

theorem execPairSwitch_keeps (k) (v) (s : State) : KeepsO s (execPairSwitch k v s) := by
  unfold execPairSwitch
  exact KeepsO.next (State.cfg_keeps _ _ _ (fun _ => State.pairCtlWrite_keeps _ _ _))

theorem execPairReturn_keeps (k) (v) (s : State) : KeepsO s (execPairReturn k v s) := by
  unfold execPairReturn
  exact KeepsO.next (State.cfg_keeps _ _ _ (fun _ => State.pairCtlWrite_keeps _ _ _))

theorem execPairSwitchDone_keeps (k) (s : State) : KeepsO s (execPairSwitchDone k s) := by
  unfold execPairSwitchDone
  exact KeepsO.ite (KeepsO.next (State.pairFollow_keeps _ _)) (KeepsO.next (Keeps.refl _))

theorem State.pairTick_keeps (s : State) (k) : Keeps s (State.pairTick s k) := by
  unfold State.pairTick
  exact Keeps.cut (fun h1 => Keeps.ite ((h1).trans (State.tbMod_keeps _ _ _)) (Keeps.ite (h1) (Keeps.cut (fun h2 =>
    Keeps.ite ((h2).trans (State.pairFollow_keeps _ _)) ((h2).trans (State.tbMod_keeps _ _ _))) ((h1).trans
    (State.tbMod_keeps _ _ _))))) (Keeps.ite ((State.tbMod_keeps _ _ _).trans (State.wrb_keeps _ _ _ _)) (Keeps.refl
    _))

theorem State.tbApply_keeps (s : State) (k) (op) : Keeps s (State.tbApply s k op) := by
  unfold State.tbApply
  exact Keeps.cut (fun h1 => (by (try extract_lets); split; exact (h1).trans (State.ownTick_keeps _ _); exact ((h1).trans (State.tbMod_keeps _ _ _)).trans (State.stepped_keeps _ _); exact ((h1).trans (State.tbMod_keeps _ _ _)).trans (State.stepped_keeps _ _); exact ((h1).trans (State.tbMod_keeps _ _ _)).trans (State.ownTick_keeps _ _))) (State.tbMod_keeps _ _ _)

theorem State.tbTick_keeps (s : State) (k) : Keeps s (State.tbTick s k) := by
  unfold State.tbTick
  exact (by split; exact State.tbApply_keeps _ _ _; exact State.ownTick_keeps _ _)

theorem State.timeTick_keeps (s : State) : Keeps s (State.timeTick s) := by
  unfold State.timeTick
  exact Keeps.cut (fun h1 => Keeps.cut (fun h2 => Keeps.ite (h2) (Keeps.cut (fun h3 => Keeps.cut (fun h4 =>
    Keeps.foldl (h4) (fun _ _ => Keeps.ite (Keeps.refl _) (State.pairTick_keeps _ _))) (Keeps.foldl (h3) (fun _ _ =>
    Keeps.ite (State.tbMod_keeps _ _ _) (Keeps.refl _)))) (Keeps.foldl (h2) (fun _ _ => Keeps.ite (Keeps.refl _)
    (State.tbTick_keeps _ _))))) (Keeps.foldl (h1) (fun _ _ => State.tbTick_keeps _ _))) (Keeps.foldl (Keeps.refl _)
    (fun _ _ => State.tbTick_keeps _ _))

theorem State.setTsq_keeps (s : State) (b) (p) (q) : Keeps s (State.setTsq s b p q) := by
  unfold State.setTsq
  exact Keeps.cut (fun h1 => ((h1).trans (State.wrf_keeps _ _ _ _ _)).trans (State.wrs_keeps _ _ _))
    (State.timeMod_keeps _ _)

theorem State.tsqWrite_keeps (s : State) (b) (p) (v) : Keeps s (State.tsqWrite s b p v) := by
  unfold State.tsqWrite
  exact Keeps.cut (fun h1 => Keeps.ite ((h1).trans (State.setTsq_keeps _ _ _ _)) (h1)) (Keeps.ite (State.wrb_keeps _ _
    _ _) (Keeps.refl _))

theorem execTsqPop_keeps (b) (p) (v) (s : State) : KeepsO s (execTsqPop b p v s) := by
  unfold execTsqPop
  exact KeepsO.next (State.cfg_keeps _ _ _ (fun _ => State.tsqWrite_keeps _ _ _ _))

theorem State.tsCapture_keeps (s : State) (b) (p) (words) : Keeps s (State.tsCapture s b p words).2 := by
  unfold State.tsCapture
  exact Keeps.cut (fun h1 => Keeps.iteP ((((h1).trans (State.inc_keeps _ _ _ _)).trans (State.wrb_keeps _ _ _
    _)).trans (State.raiseEvt_keeps _ _ _)) (Keeps.cut (fun h2 => Keeps.ite ((h2).trans (State.raiseEvt_keeps _ _ _))
    (h2)) (((h1).trans (State.setTsq_keeps _ _ _ _)).trans (State.inc_keeps _ _ _ _)))) (State.timeMod_keeps _ _)

theorem State.setPpsQ_keeps (s : State) (i) (q) : Keeps s (State.setPpsQ s i q) := by
  unfold State.setPpsQ
  exact Keeps.cut (fun h1 => ((h1).trans (State.wrf_keeps _ _ _ _ _)).trans (State.wrs_keeps _ _ _))
    (State.timeMod_keeps _ _)

theorem execPpsInEdge_keeps (i) (falling) (s : State) : KeepsO s (execPpsInEdge i falling s) := by
  unfold execPpsInEdge
  exact KeepsO.ite (KeepsO.next (Keeps.refl _)) (KeepsO.ite (KeepsO.next ((State.wrb_keeps _ _ _ _).trans
    (State.raiseEvt_keeps _ _ _))) (KeepsO.next ((State.setPpsQ_keeps _ _ _).trans (State.raiseEvt_keeps _ _ _))))

theorem execPpsInPop_keeps (i) (s : State) : KeepsO s (execPpsInPop i s) := by
  unfold execPpsInPop
  exact KeepsO.next (State.cfg_keeps _ _ _ (fun _ => State.setPpsQ_keeps _ _ _))

theorem execPpsOutEnd_keeps (j) (s : State) : KeepsO s (execPpsOutEnd j s) := by
  unfold execPpsOutEnd
  exact KeepsO.ite (KeepsO.next ((State.stopTimer_keeps _ _).trans (State.emit_keeps _ _))) (KeepsO.next (Keeps.refl
    _))

theorem State.ref10Write_keeps (s : State) (v) : Keeps s (State.ref10Write s v) := by
  unfold State.ref10Write
  exact Keeps.cut (fun h1 => Keeps.ite (((h1).trans (State.wrf_keeps _ _ _ _ _)).trans (State.timeMod_keeps _ _))
    (h1)) (State.wr_keeps _ _ _)

theorem execRef10Go_keeps (v) (s : State) : KeepsO s (execRef10Go v s) := by
  unfold execRef10Go
  exact KeepsO.next (State.cfg_keeps _ _ _ (fun _ => State.ref10Write_keeps _ _))

theorem execRef10Done_keeps (elapsed) (noSignal) (s : State) : KeepsO s (execRef10Done elapsed noSignal s) := by
  unfold execRef10Done
  exact KeepsO.ite (KeepsO.next (Keeps.refl _)) (KeepsO.cut (fun h1 => KeepsO.next (Keeps.ite ((h1).trans
    (State.wrb_keeps _ _ _ _)) ((h1).trans (State.wr_keeps _ _ _)))) ((State.wrb_keeps _ _ _ _).trans
    (State.timeMod_keeps _ _)))

theorem State.monJudge_keeps (s : State) (m) (bad) : Keeps s (State.monJudge s m bad) := by
  unfold State.monJudge
  exact Keeps.cut (fun h1 => Keeps.ite (((h1).trans (State.raiseEvt_keeps _ _ _)).trans (State.detectTime_keeps _ _))
    (h1)) (State.timeMod_keeps _ _)

theorem execTimeMonSample_keeps (m) (noEdge) (s : State) : KeepsO s (execTimeMonSample m noEdge s) := by
  unfold execTimeMonSample
  exact KeepsO.ite (KeepsO.next (Keeps.refl _)) (KeepsO.ite (KeepsO.next (Keeps.ite (State.monJudge_keeps _ _ _)
    (Keeps.refl _))) (KeepsO.cut (fun h1 => KeepsO.next ((h1).trans (State.monJudge_keeps _ _ _))) (State.wr_keeps _ _
    _)))

end Sys2Proof.Machine
end

