-- ==== Sys2Proof/Laws/KeepsReceive.lean ====
section
/-! SUPPORT. What each operation of Machine/Receive.lean keeps (Keeps). -/

namespace Sys2Proof.Machine

theorem State.typeCount_keeps (s : State) (m) (at0) (bins) (cfg) (bytes) (length) : Keeps s (State.typeCount s m at0
  bins cfg bytes length) := by
  unfold State.typeCount
  exact Keeps.cut (fun h1 => Keeps.cut (fun h2 => (h2).trans (State.mst_keeps _ _ _ _)) (Keeps.ite ((h1).trans
    (State.mst_keeps _ _ _ _)) (h1))) (State.mst_keeps _ _ _ _)

theorem State.rxCount_keeps (s : State) (m) (code) (cfg) (bytes) (e) : Keeps s (State.rxCount s m code cfg bytes e) :=
  by
  unfold State.rxCount
  extract_lets length t1 t2 t3
  have h1 : Keeps s t1 := (State.mst_keeps _ _ _ _).trans (State.mst_keeps _ _ _ _)
  have h2 : Keeps s t2 := Keeps.ite
    (((h1.trans (State.mst_keeps _ _ _ _)).trans (State.mst_keeps _ _ _ _)).trans (State.typeCount_keeps ..)) h1
  have h3 : Keeps s t3 := Keeps.ite (h2.trans (State.mst_keeps _ _ _ _)) (Keeps.ite (h2.trans (State.mst_keeps _ _ _ _)) h2)
  clear_value t3
  split
  · exact h3.trans (State.mst_keeps _ _ _ _)
  · exact h3.trans (State.mst_keeps _ _ _ _)
  · exact h3.trans (State.mst_keeps _ _ _ _)
  · exact h3

theorem State.toParser_keeps (s : State) (b) (p) (bytes) (ago) : Keeps s (State.toParser s b p bytes ago) := by
  unfold State.toParser
  exact Keeps.ite (Keeps.ite (State.rxDiscard_keeps _ _ _) ((State.beatTake_keeps _ _).trans (State.addFrame_keeps _
    _))) (Keeps.ite (State.inc_keeps _ _ _ _) (State.addFrame_keeps _ _))

theorem State.deliverBad_keeps (s : State) (b) (p) (err) (bytes) (ago) : Keeps s (State.deliverBad s b p err bytes
  ago) := by
  unfold State.deliverBad
  exact Keeps.ite (State.rxDiscard_keeps _ _ _) (Keeps.matchP ((State.mst_keeps _ _ _ _).trans (State.addFrame_keeps _
    _)) fun _ _ h1 => (h1).trans (State.deliver_keeps _ _ _))

theorem State.rxControl_keeps (s : State) (b) (p) (bytes) : Keeps s (State.rxControl s b p bytes) := by
  unfold State.rxControl
  exact (by (try extract_lets); split; exact State.ctlFrame_keeps _ _ _ _ _ _ _; exact State.ctlFrame_keeps _ _ _ _ _ _ _; exact ((State.mst_keeps _ _ _ _).trans (State.mst_keeps _ _ _ _)).trans (State.rxDiscard_keeps _ _ _))

theorem State.rxGood_keeps (s : State) (b) (p) (bytes) (ago) : Keeps s (State.rxGood s b p bytes ago) := by
  unfold State.rxGood
  have h := State.assayIngress_keeps s (s.parseCfg b) (s.portNo (16 * b + p)) bytes
  split <;> rename_i e <;> rw [e] at h
  · exact h.trans (State.toParser_keeps _ _ _ _ _)
  · exact h.trans (State.toParser_keeps _ _ _ _ _)
  · exact Keeps.ite (h.trans (State.deliverBad_keeps _ _ _ _ _ _)) (h.trans (State.assayCnt_keeps _ _ _ _))
  · exact h

theorem State.rxWhole_keeps (s : State) (b) (p) (bytes) (e) (ago) : Keeps s (State.rxWhole s b p bytes e ago) := by
  unfold State.rxWhole
  exact Keeps.ite (State.rxControl_keeps _ _ _ _) (Keeps.cut (fun h1 => Keeps.ite ((h1).trans (State.rxDiscard_keeps _
    _ _)) (Keeps.ite ((h1).trans (State.rxGood_keeps _ _ _ _ _)) (Keeps.ite ((h1).trans (State.deliverBad_keeps _ _ _
    _ _ _)) ((h1).trans (State.rxDiscard_keeps _ _ _))))) (State.rxCount_keeps _ _ _ _ _ _))

theorem execMacReceiveFrame_keeps (b) (p) (smd) (bytes) (rest) (pcsErr) (cut) (gapPs) (fecCorr) (fecUncorr) (fecSym)
  (s : State) : KeepsO s (execMacReceiveFrame b p smd bytes rest pcsErr cut gapPs fecCorr fecUncorr fecSym s) := by
  unfold execMacReceiveFrame
  exact KeepsO.ite (KeepsO.next (Keeps.refl _)) (KeepsO.ite (KeepsO.next (State.rxDiscard_keeps _ _ _)) (KeepsO.ite
    (KeepsO.next (Keeps.refl _)) (KeepsO.cut (fun h1 => KeepsO.ite (KeepsO.next (h1)) (KeepsO.cut (fun h2 =>
    KeepsO.cut (fun h3 => KeepsO.next ((h3).trans (State.rxWhole_keeps _ _ _ _ _ _))) (Keeps.ite ((h2).trans
    (State.mst_keeps _ _ _ _)) (h2))) (Keeps.ite (h1) ((h1).trans (State.mst_keeps _ _ _ _))))) (Keeps.ite
    (State.laneFec_keeps _ _ _ _ _ _) (Keeps.refl _)))))

end Sys2Proof.Machine
end

