-- ==== Sys2Proof/Laws/KeepsTiers.lean ====
section
/-! SUPPORT. What each operation of Machine/Tiers.lean keeps (Keeps). -/

namespace Sys2Proof.Machine

theorem State.admMod_keeps (s : State) (f) : Keeps s (State.admMod s f) := by
  unfold State.admMod
  exact Keeps.same rfl rfl rfl rfl rfl rfl rfl

theorem State.spillMod_keeps (s : State) (u1) (f) : Keeps s (State.spillMod s u1 f) := by
  unfold State.spillMod
  exact State.admMod_keeps _ _

theorem State.fetchMod_keeps (s : State) (u1) (f) : Keeps s (State.fetchMod s u1 f) := by
  unfold State.fetchMod
  exact State.admMod_keeps _ _

theorem State.moveCancel_keeps (s : State) (f) : Keeps s (State.moveCancel s f) := by
  unfold State.moveCancel
  exact (State.frameMod_keeps _ _ _).trans (State.inc_keeps _ _ _ _)

theorem State.pmuQueued_keeps (s : State) (src) (f) : Keeps s (State.pmuQueued s src f) := by
  unfold State.pmuQueued
  exact (by split; exact State.pmuOcc_keeps _ _ _; exact Keeps.refl _)

theorem State.issueMove_keeps (s : State) (f) (u2) (x) : Keeps s (State.issueMove s f u2 x) := by
  unfold State.issueMove
  exact Keeps.cut (fun h1 => Keeps.ite ((h1).trans (State.admMod_keeps _ _)) ((h1).trans (State.siltWrites_keeps _ _ _
    _))) (((State.pmuQueued_keeps _ _ _).trans (State.spillMod_keeps _ _ _)).trans (State.frameMod_keeps _ _ _))

theorem execSpillMove_keeps (f) (link) (grainBad) (s : State) : KeepsO s (execSpillMove f link grainBad s) := by
  unfold execSpillMove
  exact (by split; exact KeepsO.next (Keeps.refl _); exact KeepsO.ite (KeepsO.next (Keeps.refl _)) (KeepsO.ite (KeepsO.next (State.moveCancel_keeps _ _)) ((by split; exact KeepsO.next (Keeps.refl _); exact KeepsO.next (Keeps.ite (State.grainFail_keeps _ _ _) (State.issueMove_keeps _ _ _ _))))))

theorem State.movedTo_keeps (s : State) (f) (u2) (x) : Keeps s (State.movedTo s f u2 x) := by
  unfold State.movedTo
  exact Keeps.cut (fun h1 => (h1).trans (State.frameMod_keeps _ _ _)) ((State.occSub_keeps _ _ _).trans
    (State.inc_keeps _ _ _ _))

theorem State.moveAcked_keeps (s : State) (f) (u2) (x) : Keeps s (State.moveAcked s f u2 x) := by
  unfold State.moveAcked
  exact Keeps.cut (fun h1 => Keeps.ite ((h1).trans (State.freeFrame_keeps _ _ _)) (Keeps.ite (((h1).trans
    (State.setFrame_keeps _ _ _)).trans (State.freeMoved_keeps _ _)) (Keeps.ite (((h1).trans (State.setFrame_keeps _ _
    _)).trans (State.freeMoved_keeps _ _)) (((h1).trans (State.setFrame_keeps _ _ _)).trans (State.movedTo_keeps _ _ _
    _))))) ((State.spillMod_keeps _ _ _).trans (State.occAdd_keeps _ _ _))

theorem execMoveAck_keeps (f) (s : State) : KeepsO s (execMoveAck f s) := by
  unfold execMoveAck
  exact (by split; exact KeepsO.next (Keeps.refl _); exact (by split; exact KeepsO.next (Keeps.ite (State.moveAcked_keeps _ _ _ _) (Keeps.refl _)); exact KeepsO.next (Keeps.refl _)))

theorem execPrefetchIssue_keeps (f) (s : State) : KeepsO s (execPrefetchIssue f s) := by
  unfold execPrefetchIssue
  exact (by split; exact KeepsO.next (Keeps.refl _); exact KeepsO.next (Keeps.ite (Keeps.cut (fun h1 => Keeps.ite ((h1).trans (State.siltReads_keeps _ _ _)) (h1)) (((State.pmuQueued_keeps _ _ _).trans (State.fetchMod_keeps _ _ _)).trans (State.frameMod_keeps _ _ _))) (Keeps.refl _)))

theorem State.fetched_keeps (s : State) (f) (x) : Keeps s (State.fetched s f x) := by
  unfold State.fetched
  exact Keeps.cut (fun h1 => (h1).trans (State.frameMod_keeps _ _ _)) (((State.occSub_keeps _ _ _).trans
    (State.occAdd_keeps _ _ _)).trans (State.inc_keeps _ _ _ _))

theorem State.fetchDone_keeps (s : State) (f) (x) (grainBad) : Keeps s (State.fetchDone s f x grainBad) := by
  unfold State.fetchDone
  exact Keeps.cut (fun h1 => Keeps.ite (((h1).trans (State.freeFrame_keeps _ _ _)).trans (State.writeWaiting_keeps _))
    (Keeps.cut (fun h2 => Keeps.ite ((h2).trans (State.grainFail_keeps _ _ _)) ((h2).trans (State.fetched_keeps _ _
    _))) ((h1).trans (State.frameMod_keeps _ _ _)))) (State.fetchMod_keeps _ _ _)

theorem execPrefetchComplete_keeps (f) (grainBad) (s : State) : KeepsO s (execPrefetchComplete f grainBad s) := by
  unfold execPrefetchComplete
  exact (by split; exact KeepsO.next (Keeps.refl _); exact KeepsO.next (Keeps.ite (State.fetchDone_keeps _ _ _ _) (Keeps.refl _)))

theorem execRecirculate_keeps (f) (grainBad) (s : State) : KeepsO s (execRecirculate f grainBad s) := by
  unfold execRecirculate
  exact (by split; exact KeepsO.next (Keeps.refl _); exact KeepsO.ite (KeepsO.next (Keeps.refl _)) (KeepsO.ite (KeepsO.next ((State.grainFail_keeps _ _ _).trans (State.releaseHeld_keeps _))) (KeepsO.next ((State.inc_keeps _ _ _ _).trans (State.setFrame_keeps _ _ _)))))

end Sys2Proof.Machine
end

