-- ==== Sys2Proof/Laws/KeepsSched.lean ====
section
/-! SUPPORT. What each operation of Machine/Sched.lean keeps (Keeps). -/

namespace Sys2Proof.Machine

theorem State.visit_keeps (ready) (charge) (may) (port) (cls) (key) (u6) (u7 : State) : Keeps u7 (State.visit ready
  charge may port cls key u6 u7).2 := by
  induction u6 generalizing u7 with
  | zero => exact Keeps.refl _
  | succ n ih =>
    unfold State.visit
    extract_lets l r
    split
    · exact Keeps.refl _
    · extract_lets t
      have h : Keeps u7 t := Keeps.ite (Keeps.refl _) (State.flowMod_keeps _ _ _)
      exact Keeps.iteP h (Keeps.iteP ((h.trans (State.setFlowList_keeps _ _ _)).trans (ih _)) h)

theorem State.passFlow_keeps (s : State) (port) (flow) : Keeps s (State.passFlow s port flow) := by
  unfold State.passFlow
  exact Keeps.ite (Keeps.cut (fun h1 => (by (try extract_lets); split; exact Keeps.ite (h1) (((h1).trans (State.inc_keeps _ _ _ _)).trans (State.raiseEvt_keeps _ _ _)); exact h1)) (State.fetchFlow_keeps _ _ _)) (Keeps.ite (((State.inc_keeps _ _ _ _).trans (State.raiseEvt_keeps _ _ _)).trans (State.pmuOcc_keeps _ _ _)) (Keeps.refl _))

theorem State.fetchAhead_keeps (s : State) (port) (key) : Keeps s (State.fetchAhead s port key) := by
  unfold State.fetchAhead
  exact Keeps.foldl (Keeps.refl _) (fun _ _ => State.fetchFlow_keeps _ _ _)

theorem State.sampleFlow_keeps (s : State) (k) (c) : Keeps s (State.sampleFlow s k c) := by
  unfold State.sampleFlow
  exact Keeps.ite (Keeps.refl _) (Keeps.ite (State.flowMod_keeps _ _ _) (Keeps.cut (fun h1 => (h1).trans
    (State.telFlowRecord_keeps _ _)) (State.flowMod_keeps _ _ _)))

theorem State.clodCharge_keeps (s : State) (port) (clod) (c) : Keeps s (State.clodCharge s port clod c) := by
  unfold State.clodCharge
  exact Keeps.ite (Keeps.refl _) (Keeps.cut (fun h1 => Keeps.cut (fun h2 => (h2).trans (State.retier_keeps _ _ _)) ((by split; exact Keeps.ite ((h1).trans (State.inc_keeps _ _ _ _)) (h1); exact h1))) ((State.clodNow_keeps _ _).trans (State.clodMod_keeps _ _ _)))

theorem State.chargeAll_keeps (s : State) (port) (k) (c) (n) : Keeps s (State.chargeAll s port k c n) := by
  unfold State.chargeAll
  exact Keeps.cut (fun h1 => Keeps.cut (fun h2 => Keeps.cut (fun h3 => Keeps.cut (fun h4 => Keeps.cut (fun h5 => (h5).trans (State.pmuOcc_keeps _ _ _)) ((by split; exact Keeps.ite (h4) ((h4).trans (State.inc_keeps _ _ _ _)); exact h4))) ((h3).trans (State.setPortSch_keeps _ _ _))) (Keeps.ite (h2) (((h2).trans (State.setClodDef_keeps _ _ _)).trans (State.clodCharge_keeps _ _ _ _)))) (((h1).trans (State.sampleFlow_keeps _ _ _)).trans (State.flowMod_keeps _ _ _))) (State.telSelect_keeps _ _ _ _ _ _)

theorem State.takeCopy_keeps (s : State) (port) (mode) (i) : Keeps s (State.takeCopy s port mode i) := by
  unfold State.takeCopy
  exact (by split; exact Keeps.cut (fun h1 => Keeps.upd rfl rfl (h1)) (State.copyMod_keeps _ _ _); exact (State.countFenced_keeps _).trans (State.discardCopy_keeps _ _); exact (State.dropTel_keeps _ _ _).trans (State.discardCopy_keeps _ _); exact (State.dropTel_keeps _ _ _).trans (State.discardCopy_keeps _ _))

theorem State.clodWalk_keeps (ready) (charge) (port cls tier) (can) (n : Nat) (s : State) :
    Keeps s (State.clodWalk ready charge port cls tier can n s).after := by
  induction n generalizing s with
  | zero => exact Keeps.refl _
  | succ n ih =>
    unfold State.clodWalk
    extract_lets l k key held t may
    split
    · exact (State.clodNext_keeps _ _ _ _).trans (ih _)
    · have h : Keeps s t :=
        Keeps.ite (Keeps.refl _) ((State.setClodDef_keeps _ _ _).trans (State.setClodList_keeps _ _ _ _ _))
      have hv := h.trans (State.visit_keeps ready charge may port cls key (2 * (t.flowList key).length + 2) t)
      split <;> rename_i e <;> rw [e] at hv
      · exact hv
      · exact (hv.trans (State.clodNext_keeps _ _ _ _)).trans (ih _)

theorem State.classWalk_keeps (s : State) (ready) (port cls) : Keeps s (State.classWalk s ready port cls).after := by
  unfold State.classWalk
  extract_lets charge go can0 can1 none0 w
  have hg : ∀ t c, Keeps s (go t c).after := fun t c => State.clodWalk_keeps ..
  split
  · exact hg _ _
  · show Keeps s w.after
    by_cases h : can1 ≠ []
    · have : w = go 1 can1 := if_pos h
      exact this ▸ hg _ _
    · have : w.after = s := by simp only [w, if_neg h]
      exact this ▸ Keeps.refl _

theorem State.candidate_keeps {s : State} {ready : Nat → Bool} {port cls : Nat} {k : Pick}
    (h : (s.candidate ready port cls).pick = some k) : Keeps s k.after := by
  unfold State.candidate at h
  extract_lets w pick at h
  have hw := State.classWalk_keeps s ready port cls
  change pick = some k at h
  cases e : w.pick with
  | none => simp [pick, e] at h
  | some a =>
    simp only [pick, e] at h
    obtain ⟨x, -, rfl⟩ := Option.map_eq_some_iff.1 h
    exact hw

theorem State.classPick_keeps {s : State} {port : Nat} {mode : SelMode} {cls : Nat} {k : Pick}
    (h : (s.classPick port mode cls).pick = some k) : Keeps s k.after := by
  unfold State.classPick at h
  split at h
  · cases h
  · exact State.candidate_keeps (Option.filter_eq_some_iff.1 h).1

theorem groupWalk_cand {group : List Nat} {weight : Nat → Nat} {cand : Nat → Option Pick} {n : Nat} {x y : PortSch}
    {k : Pick} (h : (groupWalk group weight cand n x).1 = some (k, y)) : ∃ c, cand c = some k := by
  induction n generalizing x with
  | zero => cases h
  | succ n ih =>
    unfold groupWalk at h
    extract_lets c x1 on next x2 at h
    split at h
    · exact ih h
    · rename_i e
      split at h
      · cases h
        exact ⟨_, e⟩
      · exact ih h

theorem List.lookup_map_self {α β : Type} [BEq α] [LawfulBEq α] {f : α → β} {l : List α} {a : α} {b : β}
    (h : (l.map fun g => (g, f g)).lookup a = some b) : f a = b := by
  induction l with
  | nil => cases h
  | cons x l ih =>
    simp only [List.map_cons, List.lookup_cons] at h
    split at h
    · rename_i hb
      simpa [beq_iff_eq.1 hb] using h
    · exact ih h

theorem State.descend_keeps {s : State} {port : Nat} {mode : SelMode} {l : List Nat} {k : Pick} {y : PortSch}
    (h : (s.descend port mode l).1 = some (k, y)) : Keeps s k.after := by
  induction l with
  | nil => cases h
  | cons c rest ih =>
    unfold State.descend at h
    extract_lets x group below one looks cand r at h
    split at h
    · split at h
      · rename_i e
        have hk := congrArg Prod.fst (Option.some.inj h)
        subst hk
        exact State.classPick_keeps e
      · exact ih h
    · split at h
      · exact ih h
      · split at h
        · exact ih h
        · obtain ⟨g, hg⟩ := groupWalk_cand h
          obtain ⟨v, hv, hk⟩ := Option.bind_eq_some_iff.1 hg
          exact State.classPick_keeps ((List.lookup_map_self hv).symm ▸ hk)

theorem State.select_keeps {s : State} (t : State) (port) (mode) (k) (x) (hk : Keeps s k.after) (ht : Keeps s t) :
    Keeps s (State.select t port mode k x) := by
  unfold State.select
  split
  · exact ht
  · extract_lets n t1 t2
    have h1 : Keeps s t1 :=
      ((hk.trans (State.setPortSch_keeps _ _ _)).trans (State.chargeAll_keeps ..)).trans (State.touch_keeps _ _ _)
    have h2 : Keeps s t2 := by
      simp only [t2]
      split
      · exact Keeps.ite (h1.trans (State.moveCancel_keeps _ _)) h1
      · exact h1
    exact (h2.trans (State.unqueue_keeps _ _)).trans (State.takeCopy_keeps ..)

theorem State.clodsNow_keeps (s : State) (port) : Keeps s (State.clodsNow s port) := by
  unfold State.clodsNow
  exact Keeps.ite (Keeps.refl _) (Keeps.foldl (Keeps.refl _) (fun _ _ => (State.clodNow_keeps _ _).trans
    (State.retier_keeps _ _ _)))

theorem State.atSelection_keeps (s : State) (port) : Keeps s (State.atSelection s port) := by
  unfold State.atSelection
  exact (State.handOver_keeps _ _).trans (State.clodsNow_keeps _ _)

theorem State.selection_keeps (s : State) (port) : Keeps s (State.selection s port) := by
  unfold State.selection
  extract_lets t mode r t2 t3
  have h1 : Keeps s t := State.atSelection_keeps _ _
  have h2 : Keeps s t2 := by
    simp only [t2]
    split
    · rename_i e
      exact State.select_keeps _ _ _ _ _ (h1.trans (State.descend_keeps e)) h1
    · exact h1
  exact Keeps.foldl (Keeps.foldl h2 fun _ _ => State.fetchAhead_keeps _ _ _) fun _ _ => State.passFlow_keeps _ _ _

theorem execSelection_keeps (port) (s : State) : KeepsO s (execSelection port s) := by
  unfold execSelection
  exact KeepsO.ite (KeepsO.next (Keeps.refl _)) ((by split; exact KeepsO.next ((State.selection_keeps _ _).trans (State.schedMod_keeps _ _)); exact KeepsO.next (Keeps.refl _)))

end Sys2Proof.Machine
end

