-- ==== Sys2Proof/Laws/KeepsTransmit.lean ====
section
/-! SUPPORT. What each operation of Machine/Transmit.lean keeps (Keeps). -/

namespace Sys2Proof.Machine

theorem State.editCopy_keeps (s : State) (i) (b) (c) (x) : Keeps s (State.editCopy s i b c x) := by
  unfold State.editCopy
  exact Keeps.cut (fun h1 => (by (try extract_lets); split; exact ((h1).trans (State.readOut_keeps _ _)).trans (State.copyMod_keeps _ _ _); exact (((h1).trans (State.inc_keeps _ _ _ _)).trans (State.raiseEvt_keeps _ _ _)).trans (State.discardCopy_keeps _ _); exact (h1).trans (State.discardCopy_keeps _ _))) ((by split; exact State.meshMod_keeps _ _; exact Keeps.refl _))

theorem execEgressEdit_keeps (c) (grainBad) (s : State) : KeepsO s (execEgressEdit c grainBad s) := by
  unfold execEgressEdit
  exact (by split; exact KeepsO.next (Keeps.refl _); exact (by split; exact KeepsO.next (Keeps.refl _); exact KeepsO.ite (KeepsO.next (Keeps.refl _)) (KeepsO.ite (KeepsO.next (Keeps.refl _)) (KeepsO.ite (KeepsO.next ((State.dropTel_keeps _ _ _).trans (State.discardCopy_keeps _ _))) (KeepsO.ite (KeepsO.next (State.grainFail_keeps _ _ _)) (KeepsO.next (State.editCopy_keeps _ _ _ _ _)))))))

theorem State.onWire_keeps (s : State) (b) (p) (cls) (start) (n) (ipg) : Keeps s (State.onWire s b p cls start n ipg)
  := by
  unfold State.onWire
  exact State.gateMod_keeps _ _ _ _

theorem State.startFrame_keeps (s : State) (b) (p) (i) (stamp) (how) (c) (x) (e) (bytes) : Keeps s (State.startFrame s
  b p i stamp how c x e bytes) := by
  unfold State.startFrame
  exact Keeps.cut (fun h1 => Keeps.ite (h1) (Keeps.matchP ((h1).trans (State.tsCapture_keeps _ _ _ _)) fun _ _ h2 =>
    Keeps.ite (h2) ((h2).trans (State.copyMod_keeps _ _ _)))) (Keeps.ite (State.stat_keeps _ _ _ _ _) (Keeps.ite
    ((State.inc_keeps _ _ _ _).trans (State.raiseEvt_keeps _ _ _)) (Keeps.refl _)))

theorem State.frameSent_keeps (s : State) (b) (p) (i) (c) (bytes) : Keeps s (State.frameSent s b p i c bytes) := by
  unfold State.frameSent
  exact Keeps.cut (fun h1 => Keeps.cut (fun h2 => Keeps.cut (fun h3 => Keeps.ite ((h3).trans (State.openDone_keeps _ _
    _)) (h3)) (((h2).trans (State.copyFate_keeps _ _ _)).trans (State.endCopy_keeps _ _))) ((h1).trans
    (State.typeCount_keeps _ _ _ _ _ _ _))) ((((State.stat_keeps _ _ _ _ _).trans (State.stat_keeps _ _ _ _ _)).trans
    (State.stat_keeps _ _ _ _ _)).trans (State.stat_keeps _ _ _ _ _))

theorem State.emitFrag_keeps (s : State) (c) (o) (bytes) : Keeps s (State.emitFrag s c o bytes) := by
  unfold State.emitFrag
  exact State.emit_keeps _ _

theorem State.takeNumber_keeps (s : State) (b) (p) (o) : Keeps s (State.takeNumber s b p o) := by
  unfold State.takeNumber
  exact Keeps.ite (State.macMod_keeps _ _ _) (Keeps.refl _)

theorem State.sendPiece_keeps (s : State) (b) (p) (i) (start) (o) (c) (bytes) (cut) : Keeps s (State.sendPiece s b p i
  start o c bytes cut) := by
  unfold State.sendPiece
  exact (by (try extract_lets); split; exact ((State.onWire_keeps _ _ _ _ _ _ _).trans (State.emit_keeps _ _)).trans (State.frameSent_keeps _ _ _ _ _ _); exact Keeps.cut (fun h1 => (by (try extract_lets); split; exact Keeps.cut (fun h2 => Keeps.cut (fun h3 => Keeps.cut (fun h4 => ((h4).trans (State.macMod_keeps _ _ _)).trans (State.copyMod_keeps _ _ _)) (Keeps.ite ((h3).trans (State.stat_keeps _ _ _ _ _)) (h3))) ((h2).trans (State.stat_keeps _ _ _ _ _))) (((h1).trans (State.onWire_keeps _ _ _ _ _ _ _)).trans (State.emitFrag_keeps _ _ _ _)); exact Keeps.cut (fun h5 => (Keeps.ite (h5) ((h5).trans (State.stat_keeps _ _ _ _ _))).trans (State.frameSent_keeps _ _ _ _ _ _)) (((h1).trans (State.onWire_keeps _ _ _ _ _ _ _)).trans (State.emitFrag_keeps _ _ _ _)))) (State.takeNumber_keeps _ _ _ _))

theorem State.pieceCut_keeps (s : State) (b) (p) (i) (o) (c) (bytes) (n) : Keeps s (State.pieceCut s b p i o c bytes
  n) := by
  unfold State.pieceCut
  exact (State.emit_keeps _ _).trans (State.frameCut_keeps _ _ _ _ _)

theorem State.wireFrame_keeps (s : State) (b p stamp : Nat) (c : Copy) (e : Edit) (x : Frame) :
    Keeps s (s.wireFrame b p stamp c e x).2.2 := by
  unfold State.wireFrame
  generalize s.oneStep b p stamp c e x = r
  cases c.assay with
  | none => exact Keeps.refl _
  | some u =>
    dsimp only
    split
    · exact State.assayAppend_keeps _ _ _ _
    · exact Keeps.refl _

theorem State.firstPiece_keeps (s : State) (b) (p) (i) (c) (x) (e) (cut) (lane) :
    Keeps s (State.firstPiece s b p i c x e cut lane) := by
  unfold State.firstPiece
  extract_lets start stamp o
  have h := State.wireFrame_keeps s b p stamp c e x
  generalize s.wireFrame b p stamp c e x = r at h
  obtain ⟨bytes, how, t⟩ := r
  dsimp only
  refine Keeps.ite ((h.trans (State.gateMiss_keeps _ _ _)).trans (State.discardCopy_keeps _ _)) (Keeps.ite
    ((h.trans (State.dropTel_keeps _ _ _)).trans ((State.stat_keeps _ _ _ _ _).trans (State.discardCopy_keeps _ _))) ?_)
  split
  · exact h.trans (State.pieceCut_keeps ..)
  · exact (h.trans (State.startFrame_keeps ..)).trans (State.sendPiece_keeps ..)

theorem State.nextPiece_keeps (s : State) (b) (p) (i) (o) (c) (cut) (lane) : Keeps s (State.nextPiece s b p i o c cut
  lane) := by
  unfold State.nextPiece
  exact Keeps.ite (Keeps.refl _) ((by split; exact State.pieceCut_keeps _ _ _ _ _ _ _ _; exact State.sendPiece_keeps _ _ _ _ _ _ _ _ _))

theorem State.unless_keeps (s : State) (b p i : Nat) {whole : State → State} {part : OpenTx → State → State}
    (hw : ∀ t, Keeps t (whole t)) (hp : ∀ o t, Keeps t (part o t)) : Keeps s (s.unless b p i whole part) := by
  unfold State.unless
  split
  · exact Keeps.ite (hp _ _) (hw _)
  · exact hw _

theorem State.linkDrop_keeps (s : State) (b) (p) (i) : Keeps s (State.linkDrop s b p i) := by
  unfold State.linkDrop
  exact State.unless_keeps _ _ _ _ (fun _ => (State.dropTel_keeps _ _ _).trans (State.discardCopy_keeps _ _))
    fun _ _ => State.frameCut_keeps _ _ _ _ _

theorem State.fenceDrop_keeps (s : State) (b) (p) (i) : Keeps s (State.fenceDrop s b p i) := by
  unfold State.fenceDrop
  exact State.unless_keeps _ _ _ _ (fun _ => (State.countFenced_keeps _).trans (State.discardCopy_keeps _ _))
    fun _ _ => ((State.countFenced_keeps _).trans (State.portCut_keeps _ _ _)).trans (State.discardCopy_keeps _ _)

theorem State.transmit_keeps (s : State) (i) (c) (cut) (lane) (tagBad) : Keeps s (State.transmit s i c cut lane
  tagBad) := by
  unfold State.transmit
  split
  · extract_lets p marked t
    refine Keeps.ite (Keeps.refl _) (Keeps.ite ?_ ?_)
    · exact ((State.safeInc_keeps _ _ _).trans (State.unless_keeps _ _ _ _ (fun _ => State.discardCopy_keeps _ _)
        fun _ _ => (State.portCut_keeps _ _ _).trans (State.discardCopy_keeps _ _))).trans (State.detect_keeps _ _ _)
    · split
      · exact State.fenceDrop_keeps ..
      · exact Keeps.refl _
      · exact Keeps.ite (State.linkDrop_keeps ..) (Keeps.refl _)
      · exact Keeps.ite (Keeps.refl _) (State.unless_keeps _ _ _ _ (fun _ => State.firstPiece_keeps ..)
          fun _ _ => State.nextPiece_keeps ..)
      · exact State.linkDrop_keeps ..
  · exact Keeps.refl _

theorem State.mgmtSend_keeps (s : State) : Keeps s (State.mgmtSend s) := by
  unfold State.mgmtSend
  exact (by split; exact Keeps.refl _; exact Keeps.cut (fun h1 => Keeps.ite ((h1).trans (State.mgmtStat_keeps _ _ _)) (Keeps.cut (fun h2 => Keeps.cut (fun h3 => Keeps.cut (fun h4 => Keeps.ite ((h4).trans (State.mgmtStat_keeps _ _ _)) (Keeps.ite ((h4).trans (State.mgmtStat_keeps _ _ _)) (h4))) ((h3).trans (State.typeCount_keeps _ _ _ _ _ _ _))) (((((h2).trans (State.mgmtStat_keeps _ _ _)).trans (State.mgmtStat_keeps _ _ _)).trans (State.mgmtStat_keeps _ _ _)).trans (State.mgmtStat_keeps _ _ _))) ((h1).trans (State.emit_keeps _ _)))) (State.mgmtGiveUp_keeps _))

theorem execMacTransmitFrame_keeps (c) (lane) (tagBad) (s : State) : KeepsO s (execMacTransmitFrame c lane tagBad s)
  := by
  unfold execMacTransmitFrame
  exact (by split; exact KeepsO.next (Keeps.ite (State.mgmtSend_keeps _) (Keeps.refl _)); exact (by split; exact KeepsO.next (Keeps.ite (State.transmit_keeps _ _ _ _ _ _) (Keeps.refl _)); exact KeepsO.next (Keeps.refl _)))

theorem execPreemptFragment_keeps (c) (ready) (s : State) : KeepsO s (execPreemptFragment c ready s) := by
  unfold execPreemptFragment
  exact (by split; exact KeepsO.next (Keeps.ite (State.transmit_keeps _ _ _ _ _ _) (Keeps.refl _)); exact KeepsO.next (Keeps.refl _))

end Sys2Proof.Machine
end

