-- ==== Sys2Proof/Laws/KeepsRings.lean ====
section
/-! SUPPORT. What each operation of Machine/Rings.lean keeps (Keeps). -/

namespace Sys2Proof.Machine

theorem State.ringsMod_keeps (s : State) (f) : Keeps s (State.ringsMod s f) := by
  unfold State.ringsMod
  exact Keeps.same rfl rfl rfl rfl rfl rfl rfl

theorem State.ringMod_keeps (s : State) (k) (f) : Keeps s (State.ringMod s k f) := by
  unfold State.ringMod
  exact State.ringsMod_keeps _ _

theorem State.ringCnt_keeps (s : State) (i) : Keeps s (State.ringCnt s i) := by
  unfold State.ringCnt
  exact State.inc_keeps _ _ _ _

theorem State.ringEvent_keeps (s : State) (k) (i) : Keeps s (State.ringEvent s k i) := by
  unfold State.ringEvent
  exact (State.wr_keeps _ _ _).trans (State.raiseEvt_keeps _ _ _)

theorem State.ringDrop_keeps (s : State) (k) (i) : Keeps s (State.ringDrop s k i) := by
  unfold State.ringDrop
  exact (State.ringCnt_keeps _ _).trans (State.inc_keeps _ _ _ _)

theorem State.readGo_keeps (s : State) (j) : Keeps s (State.readGo s j) := by
  unfold State.readGo
  exact Keeps.ite (State.emit_keeps _ _) ((by split; exact State.emit_keeps _ _; exact Keeps.refl _))

theorem State.readAsk_keeps (s : State) (j) : Keeps s (State.readAsk s j) := by
  unfold State.readAsk
  exact Keeps.ite (State.readGo_keeps _ _) (State.ringsMod_keeps _ _)

theorem State.readOver_keeps (s : State) (j) : Keeps s (State.readOver s j) := by
  unfold State.readOver
  exact Keeps.cut (fun h1 => (by (try extract_lets); split; exact h1; exact Keeps.ite (((h1).trans (State.ringsMod_keeps _ _)).trans (State.readGo_keeps _ _)) (h1))) (State.ringsMod_keeps _ _)

theorem State.fetchDb_keeps (s : State) (k) (nudge) : Keeps s (State.fetchDb s k nudge) := by
  unfold State.fetchDb
  exact Keeps.ite (Keeps.ite (State.ringMod_keeps _ _ _) (Keeps.refl _)) ((State.ringMod_keeps _ _ _).trans
    (State.readAsk_keeps _ _))

theorem State.fetchOver_keeps (s : State) (k) : Keeps s (State.fetchOver s k) := by
  unfold State.fetchOver
  exact (State.ringMod_keeps _ _ _).trans (State.readOver_keeps _ _)

theorem State.nudgeBad_keeps (s : State) (v) : Keeps s (State.nudgeBad s v) := by
  unfold State.nudgeBad
  exact Keeps.cut (fun h1 => Keeps.ite ((h1).trans (State.raiseEvt_keeps _ _ _)) ((h1).trans (State.ringEvent_keeps _
    _ _))) (State.ringCnt_keeps _ _)

theorem State.nudge_keeps (s : State) (v) : Keeps s (State.nudge s v) := by
  unfold State.nudge
  exact (by split; exact Keeps.ite (State.fetchDb_keeps _ _ _) (State.nudgeBad_keeps _ _); exact State.nudgeBad_keeps _ _)

theorem execNudge_keeps (v) (s : State) : KeepsO s (execNudge v s) := by
  unfold execNudge
  exact KeepsO.next (State.cfg_keeps _ _ _ (fun _ => State.nudge_keeps _ _))

theorem execDoorbellPoll_keeps (r) (s : State) : KeepsO s (execDoorbellPoll r s) := by
  unfold execDoorbellPoll
  exact KeepsO.next (Keeps.ite ((State.ringsMod_keeps _ _).trans (State.fetchDb_keeps _ _ _)) (Keeps.refl _))

theorem execTornRecordRefetch_keeps (r) (s : State) : KeepsO s (execTornRecordRefetch r s) := by
  unfold execTornRecordRefetch
  exact KeepsO.next (Keeps.ite (Keeps.ite ((State.stopTimer_keeps _ _).trans (State.fetchDb_keeps _ _ _))
    (State.stopTimer_keeps _ _)) (Keeps.refl _))

theorem State.tsWaiting_keeps (s : State) (k) : Keeps s (State.tsWaiting s k) := by
  unfold State.tsWaiting
  exact Keeps.ite (State.wrb_keeps _ _ _ _) (Keeps.refl _)

theorem State.dropWork_keeps (s : State) (k) : Keeps s (State.dropWork s k) := by
  unfold State.dropWork
  exact Keeps.cut (fun h1 => Keeps.cut (fun h2 => ((h2).trans (State.ringMod_keeps _ _ _)).trans
    (State.fetchOver_keeps _ _)) (Keeps.upd rfl rfl (h1))) (Keeps.foldl (Keeps.refl _) (fun _ _ =>
    State.ringDrop_keeps _ _ _))

theorem State.ringFault_keeps (s : State) (k) (cause) : Keeps s (State.ringFault s k cause) := by
  unfold State.ringFault
  exact Keeps.ite (Keeps.refl _) (Keeps.cut (fun h1 => ((h1).trans (State.wr_keeps _ _ _)).trans
    (State.ringEvent_keeps _ _ _)) (State.dropWork_keeps _ _))

theorem State.ringReset_keeps (s : State) (k) : Keeps s (State.ringReset s k) := by
  unfold State.ringReset
  exact Keeps.cut (fun h1 => Keeps.cut (fun h2 => (h2).trans (State.ringMod_keeps _ _ _)) ((h1).trans (State.wrs_keeps
    _ _ _))) ((State.dropWork_keeps _ _).trans (State.wrb_keeps _ _ _ _))

theorem State.ringStart_keeps (s : State) (k) : Keeps s (State.ringStart s k) := by
  unfold State.ringStart
  exact Keeps.cut (fun h1 => Keeps.cut (fun h2 => (h2).trans (State.fetchDb_keeps _ _ _)) (((h1).trans
    (State.fetchOver_keeps _ _)).trans (State.ringMod_keeps _ _ _))) (State.wrs_keeps _ _ _)

theorem State.ringDrain_keeps (s : State) (k) : Keeps s (State.ringDrain s k) := by
  unfold State.ringDrain
  exact Keeps.cut (fun h1 => Keeps.cut (fun h2 => ((h2).trans (State.ringMod_keeps _ _ _)).trans (State.wrf_keeps _ _
    _ _ _)) (Keeps.ite (h1) ((h1).trans (State.stopTimer_keeps _ _)))) (Keeps.foldl (Keeps.refl _) (fun _ _ =>
    (State.ringDrop_keeps _ _ _).trans (State.ringEvent_keeps _ _ _)))

theorem State.setArmed_keeps (s : State) (v) (on) : Keeps s (State.setArmed s v on) := by
  unfold State.setArmed
  exact (State.wrb_keeps _ _ _ _).trans (State.wrb_keeps _ _ _ _)

theorem State.ringCtlWrite_keeps (s : State) (k) (v) : Keeps s (State.ringCtlWrite s k v) := by
  unfold State.ringCtlWrite
  exact Keeps.cut (fun h1 => Keeps.cut (fun h2 => Keeps.ite ((h2).trans (State.ringReset_keeps _ _)) (Keeps.ite
    ((h2).trans (State.ringStart_keeps _ _)) (Keeps.ite ((h2).trans (State.ringDrain_keeps _ _)) (h2)))) (Keeps.ite
    ((h1).trans (State.setArmed_keeps _ _ _)) (h1))) (Keeps.ite (State.wr_keeps _ _ _) (State.wr_keeps _ _ _))

theorem execRingEnable_keeps (r) (v) (s : State) : KeepsO s (execRingEnable r v s) := by
  unfold execRingEnable
  exact KeepsO.next (State.cfg_keeps _ _ _ (fun _ => State.ringCtlWrite_keeps _ _ _))

theorem execRingDisable_keeps (r) (v) (s : State) : KeepsO s (execRingDisable r v s) := by
  unfold execRingDisable
  exact KeepsO.next (State.cfg_keeps _ _ _ (fun _ => State.ringCtlWrite_keeps _ _ _))

theorem execRingReset_keeps (r) (v) (s : State) : KeepsO s (execRingReset r v s) := by
  unfold execRingReset
  exact KeepsO.next (State.cfg_keeps _ _ _ (fun _ => State.ringCtlWrite_keeps _ _ _))

theorem execRingDrained_keeps (r) (s : State) : KeepsO s (execRingDrained r s) := by
  unfold execRingDrained
  exact KeepsO.next (Keeps.ite ((State.ringMod_keeps _ _ _).trans (State.wrf_keeps _ _ _ _ _)) (Keeps.refl _))

theorem execHostReadTimeout_keeps (r) (s : State) : KeepsO s (execHostReadTimeout r s) := by
  unfold execHostReadTimeout
  exact KeepsO.next (Keeps.ite (State.ringFault_keeps _ _ _) (Keeps.refl _))

theorem execHostErrorResponse_keeps (r) (write) (s : State) : KeepsO s (execHostErrorResponse r write s) := by
  unfold execHostErrorResponse
  exact KeepsO.next (Keeps.ite (State.ringFault_keeps _ _ _) (Keeps.refl _))

theorem State.rxEmpty_keeps (s : State) (k) : Keeps s (State.rxEmpty s k) := by
  unfold State.rxEmpty
  exact ((State.ringDrop_keeps _ _ _).trans (State.ringEvent_keeps _ _ _)).trans (State.wrb_keeps _ _ _ _)

theorem State.rxFallShort_keeps (s : State) (k) (f) (behind) : Keeps s (State.rxFallShort s k f behind).2 := by
  unfold State.rxFallShort
  exact Keeps.iteP (State.rxEmpty_keeps _ _) (((State.ringMod_keeps _ _ _).trans (State.startTimer_keeps _ _ _)).trans
    (State.fetchDb_keeps _ _ _))

theorem State.rxReserve_keeps {s t : State} {k : Nat} {f : HostFrame} (h : s.rxReserve k f = some t) : Keeps s t := by
  unfold State.rxReserve at h
  dsimp only at h
  split at h
  · cases h
    exact (State.ringMod_keeps _ _ _).trans (State.wr_keeps _ _ _)
  · cases h

theorem State.rxServe_keeps (s : State) (k) (u2) : Keeps s (State.rxServe s k u2) := by
  induction u2 generalizing s with
  | nil => exact State.ringMod_keeps _ _ _
  | cons f fs ih =>
    unfold State.rxServe
    split
    · rename_i e
      exact (State.rxReserve_keeps e).trans (ih _)
    · have h := State.rxFallShort_keeps s k f fs
      split <;> rename_i e <;> rw [e] at h
      · exact h
      · exact h.trans (ih _)

theorem State.rxRetry_keeps (s : State) (k) : Keeps s (State.rxRetry s k) := by
  unfold State.rxRetry
  split
  · exact Keeps.refl _
  · split
    · rename_i e
      exact ((State.rxReserve_keeps e).trans (State.stopTimer_keeps _ _)).trans (State.rxServe_keeps _ _ _)
    · exact Keeps.refl _

theorem execRxShortWaitExpire_keeps (r) (s : State) : KeepsO s (execRxShortWaitExpire r s) := by
  unfold execRxShortWaitExpire
  exact (by (try extract_lets); split; exact KeepsO.next (Keeps.refl _); exact KeepsO.next (Keeps.ite (((State.stopTimer_keeps _ _).trans (State.rxEmpty_keeps _ _)).trans (State.rxServe_keeps _ _ _)) (Keeps.refl _)))

theorem State.dbAccept_keeps (s : State) (k) (count) (arm) : Keeps s (State.dbAccept s k count arm) := by
  unfold State.dbAccept
  exact Keeps.cut (fun h1 => Keeps.ite (Keeps.ite ((h1).trans (State.setArmed_keeps _ _ _)) (h1)) (Keeps.ite
    ((Keeps.ite ((h1).trans (State.wrb_keeps _ _ _ _)) (h1)).trans (State.rxRetry_keeps _ _)) (h1))) (State.wr_keeps _
    _ _)

theorem State.dbJudge_keeps (s : State) (k) (w) : Keeps s (State.dbJudge s k w) := by
  unfold State.dbJudge
  exact Keeps.ite (((State.ringCnt_keeps _ _).trans (State.ringEvent_keeps _ _ _)).trans (State.startTimer_keeps _ _
    _)) (Keeps.ite (Keeps.refl _) (Keeps.ite (State.ringFault_keeps _ _ _) (State.dbAccept_keeps _ _ _ _)))

theorem execDoorbellRecordArrive_keeps (r) (words) (s : State) : KeepsO s (execDoorbellRecordArrive r words s) := by
  unfold execDoorbellRecordArrive
  exact KeepsO.ite (KeepsO.next (Keeps.refl _)) (KeepsO.cut (fun h1 => KeepsO.cut (fun h2 => KeepsO.next (Keeps.ite
    ((h2).trans (State.fetchDb_keeps _ _ _)) (h2))) (Keeps.ite ((h1).trans (State.dbJudge_keeps _ _ _)) (h1)))
    (State.fetchOver_keeps _ _))

theorem State.setPending_keeps (s : State) (v) : Keeps s (State.setPending s v) := by
  unfold State.setPending
  exact State.wrb_keeps _ _ _ _

theorem State.ringIrq_keeps (s : State) (k) : Keeps s (State.ringIrq s k) := by
  unfold State.ringIrq
  exact Keeps.ite (State.setPending_keeps _ _) (Keeps.refl _)

theorem State.eventRecord_keeps (s : State) (evt) (bits) : Keeps s (State.eventRecord s evt bits) := by
  unfold State.eventRecord
  exact Keeps.ite (Keeps.cut (fun h1 => Keeps.cut (fun h2 => Keeps.upd rfl rfl (h2)) ((((h1).trans (State.wr_keeps _ _
    _)).trans (State.wrb_keeps _ _ _ _)).trans (State.setPending_keeps _ _))) (State.emit_keeps _ _)) (Keeps.ite
    (Keeps.refl _) (Keeps.cut (fun h3 => Keeps.ite ((h3).trans (State.fetchDb_keeps _ _ _)) (h3)) ((State.wrb_keeps _
    _ _ _).trans (State.ringCnt_keeps _ _))))

theorem execEventRecordSend_keeps (evt) (s : State) : KeepsO s (execEventRecordSend evt s) := by
  unfold execEventRecordSend
  exact KeepsO.next (Keeps.ite (State.eventRecord_keeps _ _ _) (Keeps.refl _))

theorem execVectorArmWrite_keeps (v) (w) (s : State) : KeepsO s (execVectorArmWrite v w s) := by
  unfold execVectorArmWrite
  exact KeepsO.next (State.cfg_keeps _ _ _ (fun _ => State.ringCtlWrite_keeps _ _ _))

theorem execVectorMessage_keeps (v) (s : State) : KeepsO s (execVectorMessage v s) := by
  unfold execVectorMessage
  exact KeepsO.ite (KeepsO.cut (fun h1 => KeepsO.cut (fun h2 => KeepsO.next ((h2).trans (State.ringMod_keeps _ _ _)))
    (Keeps.ite (h1) ((h1).trans (State.setArmed_keeps _ _ _)))) (((State.emit_keeps _ _).trans (State.ringCnt_keeps _
    _)).trans (State.wrb_keeps _ _ _ _))) (KeepsO.next (Keeps.refl _))

end Sys2Proof.Machine
end

