-- ==== Sys2Proof/Laws/KeepsHostFrames.lean ====
section
/-! SUPPORT. What each operation of Machine/HostFrames.lean keeps (Keeps). -/

namespace Sys2Proof.Machine

theorem execSieveFrameOut_keeps (c) (grainBad) (s : State) : KeepsO s (execSieveFrameOut c grainBad s) := by
  unfold execSieveFrameOut
  exact (by split; exact KeepsO.next (Keeps.refl _); exact (by split; exact KeepsO.ite (KeepsO.next (Keeps.refl _)) (KeepsO.ite (KeepsO.next ((State.dropTel_keeps _ _ _).trans (State.discardCopy_keeps _ _))) (KeepsO.ite (KeepsO.next (Keeps.refl _)) (KeepsO.ite (KeepsO.next (State.grainFail_keeps _ _ _)) (KeepsO.ite (KeepsO.next ((State.mgmtMod_keeps _ _).trans (State.endCopy_keeps _ _))) (KeepsO.next ((State.ringsMod_keeps _ _).trans (State.endCopy_keeps _ _))))))); exact KeepsO.next (Keeps.refl _)))

theorem State.closeRun_keeps (s : State) (k) (first) (run) (cut) : Keeps s (State.closeRun s k first run cut) := by
  unfold State.closeRun
  exact Keeps.cut (fun h1 => (h1).trans (State.ringMod_keeps _ _ _)) (Keeps.ite (Keeps.refl _) (Keeps.ite
    (State.ringDrop_keeps _ _ _) ((State.ringDrop_keeps _ _ _).trans (State.ringEvent_keeps _ _ _))))

theorem State.takeDesc_keeps (s : State) (k) (count) (e) : Keeps s (State.takeDesc s k count e) := by
  unfold State.takeDesc
  exact Keeps.cut (fun h1 => Keeps.cut (fun h2 => Keeps.ite ((h2).trans (State.closeRun_keeps _ _ _ _ _)) (h2))
    ((h1).trans (State.ringMod_keeps _ _ _))) (Keeps.ite (State.closeRun_keeps _ _ _ _ _) (Keeps.refl _))

theorem execTxDescArrive_keeps (t) (descs) (s : State) : KeepsO s (execTxDescArrive t descs s) := by
  unfold execTxDescArrive
  exact KeepsO.ite (KeepsO.next (Keeps.refl _)) (KeepsO.next (Keeps.foldl (Keeps.refl _) (fun _ _ =>
    (State.takeDesc_keeps _ _ _ _).trans (State.wr_keeps _ _ _))))

theorem State.hostIn_keeps (s : State) (k) (first) (d) (bytes) (id) : Keeps s (State.hostIn s k first d bytes id) :=
  by
  unfold State.hostIn
  exact Keeps.ite (Keeps.matchP (State.addFrame_keeps _ _) fun _ _ h1 => (h1).trans (State.deliver_keeps _ _ _))
    (Keeps.matchP (State.addFrame_keeps _ _) fun _ _ h2 => Keeps.ite (h2) (((h2).trans (State.dropTel_keeps _ _
    _)).trans (State.discard_keeps _ _)))

theorem State.txCrossed_keeps (s : State) (k) (id) : Keeps s (State.txCrossed s k id) := by
  unfold State.txCrossed
  cases id with
  | none => exact (State.ringCnt_keeps _ _).trans (State.ringMod_keeps _ _ _)
  | some i =>
    have h : Keeps s { s with nextId := i + 1 } := Keeps.same rfl rfl rfl rfl rfl rfl rfl
    exact ((h.trans (State.ringCnt_keeps _ _)).trans (State.ringMod_keeps _ _ _)).trans (State.tsWaiting_keeps _ _)

theorem State.txGrainBad_keeps (s : State) (id) : Keeps s (State.txGrainBad s id) := by
  unfold State.txGrainBad
  cases id with
  | none => exact (State.countGrain_keeps _).trans (State.detect_keeps _ _ _)
  | some i => exact ((State.sendFate_keeps _ _ _).trans (State.countGrain_keeps _)).trans (State.detect_keeps _ _ _)

theorem execTxFrameCross_keeps (grainBad) (s : State) : KeepsO s (execTxFrameCross grainBad s) := by
  unfold execTxFrameCross
  exact (by split; exact KeepsO.next (Keeps.refl _); exact (by split; exact KeepsO.next (Keeps.refl _); exact KeepsO.cut (fun h1 => KeepsO.ite (KeepsO.next (((h1).trans (State.ringDrop_keeps _ _ _)).trans (State.ringMod_keeps _ _ _))) (KeepsO.ite (KeepsO.next (Keeps.refl _)) (KeepsO.cut (fun h2 => KeepsO.next (Keeps.ite ((h2).trans (State.txGrainBad_keeps _ _)) ((h2).trans (State.hostIn_keeps _ _ _ _ _ _)))) ((h1).trans (State.txCrossed_keeps _ _ _))))) (State.ringsMod_keeps _ _)))

theorem State.reportSend_keeps (s : State) (k) (id) (report) : Keeps s (State.reportSend s k id report) := by
  unfold State.reportSend
  exact ((State.ringMod_keeps _ _ _).trans (State.stopTimer_keeps _ _)).trans (State.tsWaiting_keeps _ _)

theorem execTxFateReport_keeps (s : State) : KeepsO s (execTxFateReport s) := by
  unfold execTxFateReport
  split
  · exact KeepsO.next (Keeps.refl _)
  · rename_i id fate rest e
    have h : Keeps s { s with fates := rest } := Keeps.same rfl rfl rfl rfl rfl rfl rfl
    dsimp only
    split
    · exact KeepsO.next (h.trans (State.reportSend_keeps _ _ _ _))
    · exact KeepsO.next h

theorem execTsWaitExpire_keeps (t) (s : State) : KeepsO s (execTsWaitExpire t s) := by
  unfold execTsWaitExpire
  exact (by (try extract_lets); split; exact KeepsO.next (Keeps.ite ((State.ringCnt_keeps _ _).trans (State.reportSend_keeps _ _ _ _)) (Keeps.refl _)); exact KeepsO.next (Keeps.refl _))

theorem State.writeDescs_keeps (s : State) (k) (first) (ds) : Keeps s (State.writeDescs s k first ds) := by
  unfold State.writeDescs
  exact Keeps.foldl (Keeps.refl _) (fun _ _ => State.emit_keeps _ _)

theorem State.passSends_keeps (s : State) (k) : Keeps s (State.passSends s k) := by
  unfold State.passSends
  exact (State.ringMod_keeps _ _ _).trans (State.wr_keeps _ _ _)

theorem execTxWriteback_keeps (t) (s : State) : KeepsO s (execTxWriteback t s) := by
  unfold execTxWriteback
  exact (by (try extract_lets); split; exact KeepsO.next (Keeps.refl _); exact KeepsO.cut (fun h1 => KeepsO.cut (fun h2 => KeepsO.next (((h2).trans (State.ringIrq_keeps _ _)).trans (State.passSends_keeps _ _))) (((h1).trans (State.ringCnt_keeps _ _)).trans (State.ringMod_keeps _ _ _))) (State.writeDescs_keeps _ _ _ _))

theorem execRxFrameArrive_keeps (s : State) : KeepsO s (execRxFrameArrive s) := by
  unfold execRxFrameArrive
  exact (by split; exact KeepsO.next (Keeps.refl _); exact KeepsO.cut (fun h1 => KeepsO.ite (KeepsO.next (((h1).trans (State.ringDrop_keeps _ _ _)).trans (State.ringEvent_keeps _ _ _))) (KeepsO.ite (KeepsO.next ((h1).trans (State.ringMod_keeps _ _ _))) (KeepsO.next ((h1).trans (State.rxServe_keeps _ _ _))))) (State.ringsMod_keeps _ _))

theorem execRxWriteback_keeps (r) (addrs) (s : State) : KeepsO s (execRxWriteback r addrs s) := by
  unfold execRxWriteback
  exact (by (try extract_lets); split; exact KeepsO.next (Keeps.refl _); exact KeepsO.cut (fun h1 => KeepsO.cut (fun h2 => KeepsO.cut (fun h3 => KeepsO.next (((h3).trans (State.ringCnt_keeps _ _)).trans (State.ringIrq_keeps _ _))) (((h2).trans (State.ringMod_keeps _ _ _)).trans (State.wr_keeps _ _ _))) ((h1).trans (State.writeDescs_keeps _ _ _ _))) (Keeps.foldl (Keeps.refl _) (fun _ _ => State.emit_keeps _ _)))

theorem State.mgmtIn_keeps (s : State) (bytes) : Keeps s (State.mgmtIn s bytes) := by
  unfold State.mgmtIn
  exact Keeps.ite (State.mgmtStat_keeps _ _ _) (Keeps.matchP (State.addFrame_keeps _ _) fun _ _ h1 => Keeps.ite (h1)
    (((h1).trans (State.dropTel_keeps _ _ _)).trans (State.discard_keeps _ _)))

theorem State.mgmtBad_keeps (s : State) (bytes) (code) : Keeps s (State.mgmtBad s bytes code) := by
  unfold State.mgmtBad
  exact Keeps.ite ((State.mgmtStat_keeps _ _ _).trans (State.ringsMod_keeps _ _)) (State.mgmtStat_keeps _ _ _)

theorem State.mgmtControl_keeps (s : State) (bytes) : Keeps s (State.mgmtControl s bytes) := by
  unfold State.mgmtControl
  exact Keeps.ite (Keeps.cut (fun h1 => Keeps.ite ((h1).trans (State.mgmtStat_keeps _ _ _)) (Keeps.ite ((h1).trans
    (State.pauseApply_keeps _ _ _ _)) (Keeps.ite ((h1).trans (State.mgmtIn_keeps _ _)) ((h1).trans
    (State.mgmtStat_keeps _ _ _))))) (State.ctlCount_keeps _ _ _ _)) (((State.mgmtStat_keeps _ _ _).trans
    (State.mgmtStat_keeps _ _ _)).trans (State.mgmtStat_keeps _ _ _))

theorem State.mgmtReceive_keeps (s : State) (bytes) (fcsBad) (part) (rxEr) : Keeps s (State.mgmtReceive s bytes fcsBad
  part rxEr) := by
  unfold State.mgmtReceive
  exact Keeps.cut (fun h1 => Keeps.ite ((h1).trans (State.mgmtControl_keeps _ _)) (Keeps.cut (fun h2 => Keeps.ite
    ((h2).trans (State.mgmtStat_keeps _ _ _)) (Keeps.ite ((h2).trans (State.mgmtBad_keeps _ _ _)) (Keeps.ite
    ((h2).trans (State.mgmtIn_keeps _ _)) ((h2).trans (State.mgmtStat_keeps _ _ _))))) ((h1).trans
    (State.rxCount_keeps _ _ _ _ _ _)))) (Keeps.ite ((State.mgmtMod_keeps _ _).trans (State.startTimer_keeps _ _ _))
    (Keeps.refl _))

theorem execMgmtFrameReceive_keeps (bytes) (part) (rxEr) (s : State) : KeepsO s (execMgmtFrameReceive bytes part rxEr
  s) := by
  unfold execMgmtFrameReceive
  exact KeepsO.next (Keeps.ite (State.mgmtReceive_keeps _ _ _ _ _) (Keeps.refl _))

theorem execPauseFrameReceive_keeps (m) (da) (sa) (quanta) (s : State) : KeepsO s (execPauseFrameReceive m da sa
  quanta s) := by
  unfold execPauseFrameReceive
  exact (by split; exact KeepsO.next (State.ctlFrame_keeps _ _ _ _ _ _ _); exact KeepsO.next (Keeps.ite (State.mgmtReceive_keeps _ _ _ _ _) (Keeps.refl _)))

end Sys2Proof.Machine
end

