-- ==== Sys2Proof/Laws/KeepsAuger.lean ====
section
/-! SUPPORT. What each operation of Machine/Auger.lean keeps (Keeps). -/

namespace Sys2Proof.Machine

theorem State.augAt_keeps (s : State) (c) (addr) : Keeps s (State.augAt s c addr) := by
  unfold State.augAt
  exact (State.wr2_keeps _ _ _).trans (State.wr_keeps _ _ _)

theorem State.augFetch_keeps (s : State) (c) (what) (addr) : Keeps s (State.augFetch s c what addr) := by
  unfold State.augFetch
  exact (State.augMod_keeps _ _ _).trans (State.readAsk_keeps _ _)

theorem State.augGiveUp_keeps (s : State) (c) : Keeps s (State.augGiveUp s c) := by
  unfold State.augGiveUp
  exact Keeps.ite ((State.augMod_keeps _ _ _).trans (State.readOver_keeps _ _)) (Keeps.refl _)

theorem State.augPos_keeps (s : State) (c) : Keeps s (State.augPos s c) := by
  unfold State.augPos
  exact (by split; exact Keeps.refl _; exact State.wr_keeps _ _ _)

theorem State.augIdle_keeps (s : State) (c) (parked) : Keeps s (State.augIdle s c parked) := by
  unfold State.augIdle
  exact Keeps.cut (fun h1 => (h1).trans (State.augGo_keeps _ _ _)) ((State.augMod_keeps _ _ _).trans (State.wrb_keeps
    _ _ _ _))

theorem State.augDrain_keeps (s : State) (c) : Keeps s (State.augDrain s c) := by
  unfold State.augDrain
  exact Keeps.cut (fun h1 => Keeps.ite (h1) (Keeps.ite (((h1).trans (State.wrb_keeps _ _ _ _)).trans (State.augIdle_keeps _ _ _)) ((by split; exact (h1).trans (State.augFaulted_keeps _ _ _); exact Keeps.ite (((h1).trans (State.augMod_keeps _ _ _)).trans (State.augGo_keeps _ _ _)) (h1))))) (State.augGiveUp_keeps _ _)

theorem State.augFail_keeps (s : State) (c) (cause) : Keeps s (State.augFail s c cause) := by
  unfold State.augFail
  exact (State.augMod_keeps _ _ _).trans (State.augDrain_keeps _ _)

theorem State.augReread_keeps (s : State) (c) : Keeps s (State.augReread s c) := by
  unfold State.augReread
  exact ((State.wrb_keeps _ _ _ _).trans (State.augGo_keeps _ _ _)).trans (State.augFetch_keeps _ _ _ _)

theorem State.augComplete_keeps (s : State) (c) (u2) : Keeps s (State.augComplete s c u2) := by
  induction u2 generalizing s with
  | zero => exact Keeps.refl _
  | succ n ih =>
    unfold State.augComplete
    extract_lets x
    split
    · exact Keeps.refl _
    · refine Keeps.ite (Keeps.refl _) ?_
      extract_lets t
      have h : Keeps s t := Keeps.ite (State.pulse_keeps _ _) (Keeps.refl _)
      refine Keeps.ite (Keeps.ite (h.trans (State.augMod_keeps _ _ _)) (Keeps.ite ?_ (h.trans (State.augIdle_keeps _ _ _)))) ?_
      · exact ((h.trans (State.wrb_keeps _ _ _ _)).trans (State.augMod_keeps _ _ _)).trans (State.augReread_keeps _ _)
      · exact (((h.trans (State.augAt_keeps _ _ _)).trans (State.augMod_keeps _ _ _)).trans (State.augPos_keeps _ _)).trans (ih _)

theorem State.augStart_keeps (s : State) (c) : Keeps s (State.augStart s c) := by
  unfold State.augStart
  exact (by split; exact Keeps.refl _; exact Keeps.ite (Keeps.refl _) ((by split; exact State.augFail_keeps _ _ _; exact State.augMod_keeps _ _ _)))

theorem State.augAhead_keeps (s : State) (c) : Keeps s (State.augAhead s c) := by
  unfold State.augAhead
  exact (by (try extract_lets); split; exact Keeps.ite (State.augFetch_keeps _ _ _ _) (Keeps.refl _); exact Keeps.refl _)

theorem State.augSettle_keeps (s : State) (c) : Keeps s (State.augSettle s c) := by
  unfold State.augSettle
  exact ((((State.augPos_keeps _ _).trans (State.augComplete_keeps _ _ _)).trans (State.augStart_keeps _ _)).trans
    (State.augAhead_keeps _ _)).trans (State.augDrain_keeps _ _)

theorem State.augGoOn_keeps (s : State) (c) (new) : Keeps s (State.augGoOn s c new) := by
  unfold State.augGoOn
  exact Keeps.ite (State.augReread_keeps _ _) ((((State.wrb_keeps _ _ _ _).trans (State.augGo_keeps _ _ _)).trans
    (State.augAt_keeps _ _ _)).trans (State.augFetch_keeps _ _ _ _))

theorem State.augDoorbell_keeps (s : State) (c) (v) : Keeps s (State.augDoorbell s c v) := by
  unfold State.augDoorbell
  exact (by split; exact State.augGoOn_keeps _ _ _; exact Keeps.refl _; exact State.wrb_keeps _ _ _ _)

theorem State.augResume_keeps (s : State) (c) : Keeps s (State.augResume s c) := by
  unfold State.augResume
  exact Keeps.cut (fun h1 => Keeps.ite (Keeps.cut (fun h2 => Keeps.ite (((h2).trans (State.wrb_keeps _ _ _ _)).trans
    (State.augGoOn_keeps _ _ _)) (h2)) (((h1).trans (State.augGo_keeps _ _ _)).trans (State.augMod_keeps _ _ _)))
    (Keeps.ite ((h1).trans (State.augReread_keeps _ _)) (((h1).trans (State.augGo_keeps _ _ _)).trans
    (State.augFetch_keeps _ _ _ _)))) (State.wrf_keeps _ _ _ _ _)

theorem State.augAbort_keeps (s : State) (c) : Keeps s (State.augAbort s c) := by
  unfold State.augAbort
  exact Keeps.cut (fun h1 => Keeps.ite (((h1).trans (State.augMod_keeps _ _ _)).trans (State.augDrain_keeps _ _))
    ((h1).trans (State.augIdle_keeps _ _ _))) ((State.wrb_keeps _ _ _ _).trans (State.wrf_keeps _ _ _ _ _))

theorem State.augCtlWrite_keeps (s : State) (c) (v) : Keeps s (State.augCtlWrite s c v) := by
  unfold State.augCtlWrite
  exact Keeps.cut (fun h1 => Keeps.ite ((h1).trans (State.augAbort_keeps _ _)) ((by split; exact ((h1).trans (State.augMod_keeps _ _ _)).trans (State.augGo_keeps _ _ _); exact (h1).trans (State.augDrain_keeps _ _); exact (h1).trans (State.augSettle_keeps _ _); exact (h1).trans (State.augResume_keeps _ _); exact Keeps.ite ((h1).trans (State.augResume_keeps _ _)) (h1); exact h1))) (State.wr_keeps _ _ _)

theorem execAugDoorbell_keeps (c) (v) (s : State) : KeepsO s (execAugDoorbell c v s) := by
  unfold execAugDoorbell
  exact KeepsO.next (State.cfg_keeps _ _ _ (fun _ => State.augDoorbell_keeps _ _ _))

theorem execAugPause_keeps (c) (v) (s : State) : KeepsO s (execAugPause c v s) := by
  unfold execAugPause
  exact KeepsO.next (State.cfg_keeps _ _ _ (fun _ => State.augCtlWrite_keeps _ _ _))

theorem execAugUnpause_keeps (c) (v) (s : State) : KeepsO s (execAugUnpause c v s) := by
  unfold execAugUnpause
  exact KeepsO.next (State.cfg_keeps _ _ _ (fun _ => State.augCtlWrite_keeps _ _ _))

theorem execAugResume_keeps (c) (v) (s : State) : KeepsO s (execAugResume c v s) := by
  unfold execAugResume
  exact KeepsO.next (State.cfg_keeps _ _ _ (fun _ => State.augCtlWrite_keeps _ _ _))

theorem execAugAbort_keeps (c) (v) (s : State) : KeepsO s (execAugAbort c v s) := by
  unfold execAugAbort
  exact KeepsO.next (State.cfg_keeps _ _ _ (fun _ => State.augCtlWrite_keeps _ _ _))

theorem State.augTake_keeps (s : State) (c) (what) (d) : Keeps s (State.augTake s c what d) := by
  unfold State.augTake
  exact (by split; exact Keeps.ite (State.augFail_keeps _ _ _) (Keeps.cut (fun h1 => Keeps.ite ((h1).trans (State.augIdle_keeps _ _ _)) (Keeps.cut (fun h2 => Keeps.ite ((h2).trans (State.augDrain_keeps _ _)) ((h2).trans (State.augFetch_keeps _ _ _ _))) (((h1).trans (State.wrb_keeps _ _ _ _)).trans (State.augAt_keeps _ _ _)))) (State.augMod_keeps _ _ _)); exact Keeps.ite (State.augFail_keeps _ _ _) ((State.augMod_keeps _ _ _).trans (State.augSettle_keeps _ _)); exact Keeps.ite (State.augFail_keeps _ _ _) ((State.augMod_keeps _ _ _).trans (State.augSettle_keeps _ _)))

theorem execAugDescArrive_keeps (c) (words) (index) (err) (s : State) : KeepsO s (execAugDescArrive c words index err
  s) := by
  unfold execAugDescArrive
  exact (by split; exact KeepsO.next (Keeps.refl _); exact KeepsO.ite (KeepsO.next (Keeps.refl _)) (KeepsO.cut (fun h1 => KeepsO.ite (KeepsO.next ((h1).trans (State.augDrain_keeps _ _))) (KeepsO.ite (KeepsO.next ((h1).trans (State.augFail_keeps _ _ _))) (KeepsO.next ((h1).trans (State.augTake_keeps _ _ _ _))))) ((State.augMod_keeps _ _ _).trans (State.readOver_keeps _ _))))

theorem execAugSourceRead_keeps (c) (read) (err) (s : State) : KeepsO s (execAugSourceRead c read err s) := by
  unfold execAugSourceRead
  refine KeepsO.ite (KeepsO.next (Keeps.refl _)) ?_
  have h : Keeps s { s with augTurn := (c.val + 1) % 32 } := Keeps.same rfl rfl rfl rfl rfl rfl rfl
  have hf : ∀ n, Keeps s (State.augFail { s with augTurn := (c.val + 1) % 32 } c n) := fun _ =>
    h.trans (State.augFail_keeps _ _ _)
  dsimp only
  split
  · exact KeepsO.next h
  · refine KeepsO.ite (KeepsO.next (h.trans (State.augStart_keeps _ _))) (KeepsO.ite (KeepsO.next (hf _)) ?_)
    split
    · exact KeepsO.next (hf _)
    · exact KeepsO.next (hf _)
    · exact KeepsO.next (hf _)
    · exact KeepsO.next (hf _)
    · exact KeepsO.next (((h.trans (State.emit_keeps _ _)).trans (State.augMod_keeps _ _ _)).trans
        (State.augSettle_keeps _ _))

theorem execAugWriteResponse_keeps (c) (i) (err) (s : State) : KeepsO s (execAugWriteResponse c i err s) := by
  unfold execAugWriteResponse
  exact KeepsO.ite (KeepsO.next (Keeps.refl _)) (KeepsO.ite (KeepsO.cut (fun h1 => KeepsO.next (((h1).trans
    (State.augPos_keeps _ _)).trans (State.augFail_keeps _ _ _))) (State.augMod_keeps _ _ _)) (KeepsO.next
    ((State.augMod_keeps _ _ _).trans (State.augSettle_keeps _ _))))

end Sys2Proof.Machine
end

