-- ==== Sys2Proof/Laws/KeepsSilt.lean ====
section
/-! SUPPORT. What each operation of Machine/Silt.lean keeps (Keeps). -/

namespace Sys2Proof.Machine

theorem State.siltLanes_keeps (s : State) (k) (m) (f) (hf : ∀ x y, Keeps x (f x y)) : Keeps s (State.siltLanes s k m
  f) := by
  unfold State.siltLanes
  exact Keeps.foldl (Keeps.refl _) (fun _ _ => Keeps.ite (hf _ _) (Keeps.refl _))

theorem State.siltStage_keeps (s : State) (k) (st) (off) (hi) (lo) : Keeps s (State.siltStage s k st off hi lo) := by
  unfold State.siltStage
  exact (State.siltGo_keeps _ _ _).trans (State.startTimer_keeps _ _ _)

theorem State.siltDetect_keeps (s : State) (k) : Keeps s (State.siltDetect s k) := by
  unfold State.siltDetect
  exact Keeps.cut (fun h1 => Keeps.cut (fun h2 => (h2).trans (State.siltStage_keeps _ _ _ _ _ _)) (((h1).trans
    (State.wrf_keeps _ _ _ _ _)).trans (State.siltMod_keeps _ _ _))) (State.siltLanes_keeps _ _ _ _ (fun _ _ =>
    (State.lanePower_keeps _ _ _).trans (State.laneUnlock_keeps _ _)))

theorem State.siltClear_keeps (s : State) (k) : Keeps s (State.siltClear s k) := by
  unfold State.siltClear
  exact (State.wr_keeps _ _ _).trans (State.wr_keeps _ _ _)

theorem State.siltGap_keeps (s : State) (k) (lastFail) : Keeps s (State.siltGap s k lastFail) := by
  unfold State.siltGap
  exact Keeps.cut (fun h1 => (((h1).trans (State.stopTimer_keeps _ _)).trans (State.stopTimer_keeps _ _)).trans
    (State.startTimer_keeps _ _ _)) (((State.siltGo_keeps _ _ _).trans (State.wrf_keeps _ _ _ _ _)).trans
    (State.siltClear_keeps _ _))

theorem State.siltFailed_keeps (s : State) (k) : Keeps s (State.siltFailed s k) := by
  unfold State.siltFailed
  exact (State.siltGap_keeps _ _ _).trans (State.siltMod_keeps _ _ _)

theorem State.siltSendCap_keeps (s : State) (k) : Keeps s (State.siltSendCap s k) := by
  unfold State.siltSendCap
  exact (State.siltMgmt_keeps _ _ _ _ _).trans (State.startTimer_keeps _ _ _)

theorem State.siltNext_keeps (s : State) (k) (m) (asks) : Keeps s (State.siltNext s k m asks) := by
  unfold State.siltNext
  exact Keeps.cut (fun h1 => (by (try extract_lets); split; exact ((h1).trans (State.siltLanes_keeps _ _ _ _ (fun _ _ => State.laneUseBoard_keeps _ _))).trans (State.siltStage_keeps _ _ _ _ _ _); exact (Keeps.foldl (h1) (fun _ _ => State.laneTrain_keeps _ _ _)).trans (State.siltStage_keeps _ _ _ _ _ _); exact Keeps.cut (fun h2 => Keeps.cut (fun h3 => (h3).trans (State.siltSendCap_keeps _ _)) ((h2).trans (State.siltMod_keeps _ _ _))) (((h1).trans (State.siltLanes_keeps _ _ _ _ (fun _ _ => State.laneLockAll_keeps _ _))).trans (State.siltStage_keeps _ _ _ _ _ _)))) (State.siltMod_keeps _ _ _)

theorem execSiltStageDone_keeps (k) (lanes) (asks) (s : State) : KeepsO s (execSiltStageDone k lanes asks s) := by
  unfold execSiltStageDone
  exact KeepsO.next (Keeps.ite (State.siltNext_keeps _ _ _ _) (Keeps.refl _))

theorem execSiltStageTimeout_keeps (k) (lanes) (asks) (s : State) : KeepsO s (execSiltStageTimeout k lanes asks s) :=
  by
  unfold execSiltStageTimeout
  exact KeepsO.ite (KeepsO.next (Keeps.refl _)) (KeepsO.ite (KeepsO.next (Keeps.ite (State.siltFailed_keeps _ _)
    (Keeps.ite (State.siltNext_keeps _ _ _ _) (Keeps.refl _)))) (KeepsO.next (Keeps.ite (State.siltGap_keeps _ _ _)
    (Keeps.refl _))))

theorem execSiltCapSend_keeps (k) (s : State) : KeepsO s (execSiltCapSend k s) := by
  unfold execSiltCapSend
  exact KeepsO.next (Keeps.ite (State.siltSendCap_keeps _ _) (Keeps.refl _))

theorem State.siltUse_keeps (s : State) (k) (ls) (spare) : Keeps s (State.siltUse s k ls spare) := by
  unfold State.siltUse
  exact Keeps.cut (fun h1 => (((h1).trans (State.wrf_keeps _ _ _ _ _)).trans (State.wrf_keeps _ _ _ _ _)).trans
    (State.wrb_keeps _ _ _ _)) (State.wr_keeps _ _ _)

theorem State.siltToActive_keeps (s : State) (k) : Keeps s (State.siltToActive s k) := by
  unfold State.siltToActive
  exact Keeps.cut (fun h1 => Keeps.cut (fun h2 => Keeps.cut (fun h3 => Keeps.cut (fun h4 => ((h4).trans
    (State.siltEvent_keeps _ _ _)).trans (State.startTimer_keeps _ _ _)) ((((h3).trans (State.siltEvent_keeps _ _
    _)).trans (State.wrf_keeps _ _ _ _ _)).trans (State.capJoin_keeps _ _))) ((h2).trans (State.siltMod_keeps _ _ _)))
    (((h1).trans (State.siltUse_keeps _ _ _ _)).trans (State.siltLanes_keeps _ _ _ _ (fun _ _ => State.laneStore_keeps
    _ _)))) (((State.stopTimer_keeps _ _).trans (State.stopTimer_keeps _ _)).trans (State.siltGo_keeps _ _ _))

theorem State.siltEnd_keeps (s : State) (k) (code) (had) : Keeps s (State.siltEnd s k code had) := by
  unfold State.siltEnd
  exact Keeps.cut (fun h1 => Keeps.ite (((h1).trans (State.wrf_keeps _ _ _ _ _)).trans (State.siltEvent_keeps _ _ _))
    (h1)) ((State.siltGap_keeps _ _ _).trans (State.siltEvent_keeps _ _ _))

theorem State.siltFault_keeps (s : State) (k) (code) : Keeps s (State.siltFault s k code) := by
  unfold State.siltFault
  exact Keeps.ite (Keeps.refl _) ((State.siltVoid_keeps _ _).trans (State.siltEnd_keeps _ _ _ _))

theorem State.siltExchanged_keeps (s : State) (k) : Keeps s (State.siltExchanged s k) := by
  unfold State.siltExchanged
  exact Keeps.ite (Keeps.refl _) (Keeps.cut (fun h1 => Keeps.ite (((h1).trans (State.siltUnlink_keeps _ _)).trans
    (State.siltEnd_keeps _ _ _ _)) (h1)) (State.siltToActive_keeps _ _))

theorem execSiltCapReceive_keeps (k) (words) (s : State) : KeepsO s (execSiltCapReceive k words s) := by
  unfold execSiltCapReceive
  exact KeepsO.ite (KeepsO.next (Keeps.refl _)) (KeepsO.cut (fun h1 => KeepsO.ite (KeepsO.next (((h1).trans
    (State.siltMod_keeps _ _ _)).trans (State.siltExchanged_keeps _ _))) (KeepsO.next (((h1).trans
    (State.siltGap_keeps _ _ _)).trans (State.siltEvent_keeps _ _ _)))) ((State.siltMgmt_keeps _ _ _ _ _).trans
    (State.wrs_keeps _ _ _)))

theorem execSiltCapAckReceive_keeps (k) (s : State) : KeepsO s (execSiltCapAckReceive k s) := by
  unfold execSiltCapAckReceive
  exact KeepsO.next (Keeps.ite ((State.siltMod_keeps _ _ _).trans (State.siltExchanged_keeps _ _)) (Keeps.refl _))

theorem State.siltDown_keeps (s : State) (k) : Keeps s (State.siltDown s k) := by
  unfold State.siltDown
  exact Keeps.cut (fun h1 => Keeps.cut (fun h2 => ((h2).trans (State.siltLanes_keeps _ _ _ _ (fun _ _ =>
    (State.lanePower_keeps _ _ _).trans (State.laneForget_keeps _ _)))).trans (State.siltMod_keeps _ _ _))
    (((h1).trans (State.siltGo_keeps _ _ _)).trans (State.siltClear_keeps _ _))) ((State.siltVoid_keeps _ _).trans
    (State.wrf_keeps _ _ _ _ _))

theorem State.siltDetach_keeps (s : State) (k) : Keeps s (State.siltDetach s k) := by
  unfold State.siltDetach
  exact Keeps.cut (fun h1 => Keeps.ite (((h1).trans (State.wrf_keeps _ _ _ _ _)).trans (State.siltPut_keeps _ _ _))
    (h1)) (State.siltMod_keeps _ _ _)

theorem State.siltDetached_keeps (s : State) (k) : Keeps s (State.siltDetached s k) := by
  unfold State.siltDetached
  exact Keeps.cut (fun h1 => ((h1).trans (State.siltPut_keeps _ _ _)).trans (State.siltEvent_keeps _ _ _))
    ((State.capLeave_keeps _ _).trans (State.wrf_keeps _ _ _ _ _))

theorem State.siltForce_keeps (s : State) (k) : Keeps s (State.siltForce s k) := by
  unfold State.siltForce
  exact Keeps.ite (Keeps.refl _) (Keeps.cut (fun h1 => Keeps.cut (fun h2 => Keeps.cut (fun h3 => Keeps.cut (fun h4 =>
    (h4).trans (State.siltDetached_keeps _ _)) (Keeps.foldl (h3) (fun _ _ => State.moveBack_keeps _ _ _))) ((h2).trans
    (State.admMod_keeps _ _))) (Keeps.foldl (h1) (fun _ _ => State.moduleLoss_keeps _ _))) (State.admMod_keeps _ _))

theorem State.siltBegin_keeps (s : State) (k) : Keeps s (State.siltBegin s k) := by
  unfold State.siltBegin
  exact Keeps.ite (State.siltDetect_keeps _ _) (Keeps.refl _)

theorem State.siltCtlWrite_keeps (s : State) (k) (v) : Keeps s (State.siltCtlWrite s k v) := by
  unfold State.siltCtlWrite
  exact Keeps.cut (fun h1 => Keeps.cut (fun h2 => Keeps.cut (fun h3 => Keeps.ite (((h3).trans (State.wrb_keeps _ _ _
    _)).trans (State.siltBegin_keeps _ _)) (Keeps.ite (Keeps.ite (((h3).trans (State.wrb_keeps _ _ _ _)).trans
    (State.siltEvent_keeps _ _ _)) (((h3).trans (State.wrb_keeps _ _ _ _)).trans (State.siltDown_keeps _ _))) (h3)))
    (Keeps.ite ((h2).trans (State.siltForce_keeps _ _)) (h2))) (Keeps.ite ((h1).trans (State.siltDetach_keeps _ _))
    (h1))) (State.wr_keeps _ _ _)

theorem execSiltEnable_keeps (k) (v) (s : State) : KeepsO s (execSiltEnable k v s) := by
  unfold execSiltEnable
  exact KeepsO.next (State.cfg_keeps _ _ _ (fun _ => State.siltCtlWrite_keeps _ _ _))

theorem execSiltDisable_keeps (k) (v) (s : State) : KeepsO s (execSiltDisable k v s) := by
  unfold execSiltDisable
  exact KeepsO.next (State.cfg_keeps _ _ _ (fun _ => State.siltCtlWrite_keeps _ _ _))

theorem execSiltDetach_keeps (k) (v) (s : State) : KeepsO s (execSiltDetach k v s) := by
  unfold execSiltDetach
  exact KeepsO.next (State.cfg_keeps _ _ _ (fun _ => State.siltCtlWrite_keeps _ _ _))

theorem execSiltDrainForce_keeps (k) (v) (s : State) : KeepsO s (execSiltDrainForce k v s) := by
  unfold execSiltDrainForce
  exact KeepsO.next (State.cfg_keeps _ _ _ (fun _ => State.siltCtlWrite_keeps _ _ _))

theorem execSiltDetachDone_keeps (k) (s : State) : KeepsO s (execSiltDetachDone k s) := by
  unfold execSiltDetachDone
  exact KeepsO.next (Keeps.ite (State.siltDetached_keeps _ _) (Keeps.refl _))

theorem execSiltGapRetry_keeps (k) (s : State) : KeepsO s (execSiltGapRetry k s) := by
  unfold execSiltGapRetry
  exact KeepsO.ite (KeepsO.cut (fun h1 => KeepsO.ite (KeepsO.next ((h1).trans (State.siltDetect_keeps _ _)))
    (KeepsO.next (((h1).trans (State.siltGo_keeps _ _ _)).trans (State.siltLanes_keeps _ _ _ _ (fun _ _ =>
    State.lanePower_keeps _ _ _))))) (State.stopTimer_keeps _ _)) (KeepsO.next (Keeps.refl _))

theorem State.siltAck_keeps (s : State) (k) (ack) : Keeps s (State.siltAck s k ack) := by
  unfold State.siltAck
  exact (by split; exact Keeps.refl _; exact Keeps.cut (fun h1 => (((h1).trans (State.stopTimer_keeps _ _)).trans (State.stopTimer_keeps _ _)).trans (State.siltPumpAll_keeps _ _)) (State.siltMod_keeps _ _ _))

theorem State.siltResend_keeps (s : State) (k) (i) : Keeps s (State.siltResend s k i) := by
  unfold State.siltResend
  exact Keeps.cut (fun h1 => Keeps.cut (fun h2 => Keeps.cut (fun h3 => Keeps.ite ((h3).trans (State.siltFault_keeps _
    _ _)) (h3)) (Keeps.ite (h2) ((h2).trans (State.startTimer_keeps _ _ _)))) (((h1).trans (State.siltCnt_keeps _ _ _
    _)).trans (State.siltMod_keeps _ _ _))) (Keeps.foldl (Keeps.refl _) (fun _ _ => State.siltEmit_keeps _ _ _ _ _ _))

theorem State.siltDiscard_keeps (s : State) (k) : Keeps s (State.siltDiscard s k) := by
  unfold State.siltDiscard
  exact Keeps.cut (fun h1 => Keeps.ite (h1) (((h1).trans (State.siltMod_keeps _ _ _)).trans (State.siltMgmt_keeps _ _
    _ _ _))) ((State.siltCnt_keeps _ _ _ _).trans (State.siltMod_keeps _ _ _))

theorem State.siltHear_keeps (s : State) (k) (ack) (f) (hf : ∀ x, Keeps x (f x)) : Keeps s (State.siltHear s k ack f)
  := by
  unfold State.siltHear
  exact Keeps.ite ((State.siltAck_keeps _ _ _).trans (hf _)) (Keeps.refl _)

theorem State.writeAcked_keeps (s : State) (k) (u2) : Keeps s (State.writeAcked s k u2) := by
  induction u2 generalizing s with
  | zero => exact Keeps.refl _
  | succ n ih =>
    unfold State.writeAcked
    split
    · exact Keeps.refl _
    · extract_lets t1 t2
      have h1 : Keeps s t1 := State.siltMod_keeps _ _ _
      have h2 : Keeps s t2 := by
        refine h1.trans ?_
        dsimp only [t2]
        split
        · exact Keeps.ite (Keeps.refl _) (Keeps.ite (((State.occAdd_keeps _ _ _).trans (State.spillMod_keeps _ _ _)).trans
            (State.setFrame_keeps _ _ _)) (State.moveAcked_keeps _ _ _ _))
        · exact Keeps.refl _
      exact h2.trans (ih _)

theorem State.readBack_keeps (s : State) (k) (addr) (err) (grainBad) : Keeps s (State.readBack s k addr err grainBad)
  := by
  unfold State.readBack
  exact (by split; exact Keeps.refl _; exact Keeps.ite (Keeps.refl _) (Keeps.cut (fun h1 => (by (try extract_lets); split; exact Keeps.ite ((h1).trans (State.siltCnt_keeps _ _ _ _)) (h1); exact Keeps.ite (Keeps.ite ((h1).trans (State.siltCnt_keeps _ _ _ _)) (h1)) (Keeps.ite ((((h1).trans (State.siltCnt_keeps _ _ _ _)).trans (State.fetchMod_keeps _ _ _)).trans (State.moduleLoss_keeps _ _)) (Keeps.ite ((h1).trans (State.fetchDone_keeps _ _ _ _)) (Keeps.ite ((((h1).trans (State.occAdd_keeps _ _ _)).trans (State.fetchMod_keeps _ _ _)).trans (State.setFrame_keeps _ _ _)) ((h1).trans (State.fetchDone_keeps _ _ _ _))))))) (State.siltMod_keeps _ _ _)))

theorem State.siltAct_keeps (s : State) (k) (u2) : Keeps s (State.siltAct s k u2) := by
  unfold State.siltAct
  exact (by split; exact (State.writeAcked_keeps _ _ _).trans (State.readBack_keeps _ _ _ _ _); exact State.writeAcked_keeps _ _ _; exact (State.siltMod_keeps _ _ _).trans (State.siltPumpAll_keeps _ _); exact Keeps.cut (fun h1 => (by (try extract_lets); split; exact h1; exact (h1).trans (State.siltEvent_keeps _ _ _); exact (h1).trans (State.siltFault_keeps _ _ _))) (State.wrs_keeps _ _ _))

theorem State.siltAccept_keeps (s : State) (k) (seq) (ack) (m) : Keeps s (State.siltAccept s k seq ack m) := by
  unfold State.siltAccept
  exact Keeps.cut (fun h1 => Keeps.cut (fun h2 => Keeps.cut (fun h3 => Keeps.ite ((h3).trans (State.siltTimers_keeps _
    _)) (h3)) (((h2).trans (State.stopTimer_keeps _ _)).trans (State.siltAct_keeps _ _ _))) ((h1).trans
    (State.siltMod_keeps _ _ _))) ((State.siltAck_keeps _ _ _).trans (State.siltCnt_keeps _ _ _ _))

theorem State.siltRelease_keeps (s : State) (k) (u2) : Keeps s (State.siltRelease s k u2) := by
  induction u2 generalizing s with
  | zero => exact Keeps.refl _
  | succ n ih =>
    unfold State.siltRelease
    split
    · exact Keeps.refl _
    · exact ((State.siltMod_keeps _ _ _).trans (State.siltAccept_keeps _ _ _ _ _)).trans (ih _)

theorem State.siltTake_keeps (s : State) (k) (seq) (ack) (m) : Keeps s (State.siltTake s k seq ack m) := by
  unfold State.siltTake
  exact Keeps.ite (Keeps.refl _) (Keeps.ite ((State.siltAccept_keeps _ _ _ _ _).trans (State.siltRelease_keeps _ _ _))
    (Keeps.ite (State.siltMod_keeps _ _ _) (State.siltDiscard_keeps _ _)))

theorem execWriteAckReceive_keeps (k) (seq) (ack) (count) (s : State) : KeepsO s (execWriteAckReceive k seq ack count
  s) := by
  unfold execWriteAckReceive
  exact KeepsO.next (State.siltTake_keeps _ _ _ _ _)

theorem execReadDataReceive_keeps (k) (seq) (ack) (addr) (wack) (err) (grainBad) (s : State) : KeepsO s
  (execReadDataReceive k seq ack addr wack err grainBad s) := by
  unfold execReadDataReceive
  exact KeepsO.next (State.siltTake_keeps _ _ _ _ _)

theorem execCreditReceive_keeps (k) (seq) (ack) (wcred) (rcred) (s : State) : KeepsO s (execCreditReceive k seq ack
  wcred rcred s) := by
  unfold execCreditReceive
  exact KeepsO.next (State.siltTake_keeps _ _ _ _ _)

theorem execModuleStatusReceive_keeps (k) (seq) (ack) (words) (s : State) : KeepsO s (execModuleStatusReceive k seq
  ack words s) := by
  unfold execModuleStatusReceive
  exact KeepsO.next (State.siltTake_keeps _ _ _ _ _)

theorem execNakReceive_keeps (k) (ack) (expected) (s : State) : KeepsO s (execNakReceive k ack expected s) := by
  unfold execNakReceive
  exact KeepsO.next (State.siltHear_keeps _ _ _ _ (fun _ => (by split; exact State.siltResend_keeps _ _ _; exact Keeps.refl _)))

theorem execNullFlitReceive_keeps (k) (ack) (s : State) : KeepsO s (execNullFlitReceive k ack s) := by
  unfold execNullFlitReceive
  exact KeepsO.next (State.siltHear_keeps _ _ _ _ (fun _ => Keeps.refl _))

theorem execReplayTimeout_keeps (k) (s : State) : KeepsO s (execReplayTimeout k s) := by
  unfold execReplayTimeout
  exact KeepsO.next (Keeps.ite (State.siltResend_keeps _ _ _) (Keeps.refl _))

theorem execSiltLossTimeout_keeps (k) (s : State) : KeepsO s (execSiltLossTimeout k s) := by
  unfold execSiltLossTimeout
  exact KeepsO.next (Keeps.ite (State.siltFault_keeps _ _ _) (Keeps.refl _))

theorem execSiltNullSend_keeps (k) (s : State) : KeepsO s (execSiltNullSend k s) := by
  unfold execSiltNullSend
  exact KeepsO.next (Keeps.ite (State.siltUnseq_keeps _ _ _ _ _) (Keeps.refl _))

theorem State.siltSendMap_keeps (s : State) (k) : Keeps s (State.siltSendMap s k) := by
  unfold State.siltSendMap
  exact (by split; exact (State.siltMgmt_keeps _ _ _ _ _).trans (State.startTimer_keeps _ _ _); exact Keeps.refl _)

theorem State.siltRemap_keeps (s : State) (k) (ls) (spare) : Keeps s (State.siltRemap s k ls spare) := by
  unfold State.siltRemap
  exact Keeps.cut (fun h1 => ((h1).trans (State.siltMod_keeps _ _ _)).trans (State.siltSendMap_keeps _ _))
    (State.siltUse_keeps _ _ _ _)

theorem State.siltLost_keeps (s : State) (k) (i) : Keeps s (State.siltLost s k i) := by
  unfold State.siltLost
  exact Keeps.cut (fun h1 => Keeps.cut (fun h2 => Keeps.ite ((h2).trans (State.wrb_keeps _ _ _ _)) (Keeps.ite (h2) (Keeps.cut (fun h3 => (by (try extract_lets); split; exact ((h3).trans (State.siltRemap_keeps _ _ _ _)).trans (State.siltEvent_keeps _ _ _); exact Keeps.ite (((h3).trans (State.siltRemap_keeps _ _ _ _)).trans (State.siltEvent_keeps _ _ _)) ((h3).trans (State.siltFault_keeps _ _ _)))) ((h2).trans (State.siltCnt_keeps _ _ _ _))))) ((h1).trans (State.siltMod_keeps _ _ _))) ((State.laneUnlock_keeps _ _).trans (State.laneMod_keeps _ _ _))

theorem State.siltWake_keeps (s : State) : Keeps s (State.siltWake s) := by
  unfold State.siltWake
  exact Keeps.foldl (Keeps.refl _) (fun _ _ => Keeps.cut (fun h1 => Keeps.foldl (h1) (fun _ _ => Keeps.ite
    (State.siltLost_keeps _ _ _) (Keeps.refl _))) (Keeps.ite (State.siltBegin_keeps _ _) (Keeps.refl _)))

theorem execSiltLaneLost_keeps (k) (i) (s : State) : KeepsO s (execSiltLaneLost k i s) := by
  unfold execSiltLaneLost
  exact KeepsO.next (Keeps.ite (State.siltLost_keeps _ _ _) (Keeps.refl _))

theorem execLaneFailReceive_keeps (k) (ack) (i) (s : State) : KeepsO s (execLaneFailReceive k ack i s) := by
  unfold execLaneFailReceive
  exact KeepsO.next (State.siltHear_keeps _ _ _ _ (fun _ => Keeps.ite (State.siltLost_keeps _ _ _) (Keeps.refl _)))

theorem execLaneMapResend_keeps (k) (s : State) : KeepsO s (execLaneMapResend k s) := by
  unfold execLaneMapResend
  exact KeepsO.next (Keeps.ite (State.siltSendMap_keeps _ _) (Keeps.refl _))

theorem execLaneMapAckReceive_keeps (k) (ack) (map) (s : State) : KeepsO s (execLaneMapAckReceive k ack map s) := by
  unfold execLaneMapAckReceive
  exact KeepsO.next (State.siltHear_keeps _ _ _ _ (fun _ => Keeps.ite ((State.siltMod_keeps _ _ _).trans
    (State.stopTimer_keeps _ _)) (Keeps.refl _)))

theorem execSiltSpareRecover_keeps (k) (i) (s : State) : KeepsO s (execSiltSpareRecover k i s) := by
  unfold execSiltSpareRecover
  exact KeepsO.ite (KeepsO.next (Keeps.refl _)) (KeepsO.cut (fun h1 => KeepsO.cut (fun h2 => KeepsO.ite (KeepsO.next
    ((h2).trans (State.siltRemap_keeps _ _ _ _))) (KeepsO.next ((h2).trans (State.wrb_keeps _ _ _ _)))) ((h1).trans
    (State.siltEvent_keeps _ _ _))) (((State.lanePower_keeps _ _ _).trans (State.laneLockAll_keeps _ _)).trans
    (State.laneMod_keeps _ _ _)))

theorem State.siltCrcError_keeps (s : State) (k) (i) : Keeps s (State.siltCrcError s k i) := by
  unfold State.siltCrcError
  exact Keeps.cut (fun h1 => Keeps.ite (((h1).trans (State.siltMod_keeps _ _ _)).trans (State.siltLost_keeps _ _ _))
    ((h1).trans (State.siltMod_keeps _ _ _))) (State.inc_keeps _ _ _ _)

theorem execFlitDiscard_keeps (k) (lane) (errored) (bytes) (s : State) : KeepsO s (execFlitDiscard k lane errored
  bytes s) := by
  unfold execFlitDiscard
  exact KeepsO.ite (KeepsO.next (Keeps.refl _)) (KeepsO.ite (KeepsO.next (State.siltDiscard_keeps _ _)) (KeepsO.ite
    (KeepsO.next ((State.siltDiscard_keeps _ _).trans (State.siltCrcError_keeps _ _ _))) (KeepsO.ite (KeepsO.next
    ((State.siltCnt_keeps _ _ _ _).trans (State.siltFault_keeps _ _ _))) (KeepsO.ite (KeepsO.next
    (State.siltDiscard_keeps _ _)) (KeepsO.next (Keeps.refl _))))))

theorem execStuffError_keeps (k) (i) (symbols) (s : State) : KeepsO s (execStuffError k i symbols s) := by
  unfold execStuffError
  exact KeepsO.next (Keeps.ite (State.inc_keeps _ _ _ _) (Keeps.refl _))

end Sys2Proof.Machine
end

