-- ==== Sys2Proof/Laws/KeepsLanes.lean ====
section
/-! SUPPORT. What each operation of Machine/Lanes.lean keeps (Keeps). -/

namespace Sys2Proof.Machine

theorem State.laneDropped_keeps (s : State) (base) : Keeps s (State.laneDropped s base) := by
  unfold State.laneDropped
  exact Keeps.ite (State.laneUnlock_keeps _ _) (Keeps.ite (State.siltLost_keeps _ _ _) ((by split; exact State.lanesLost_keeps _ _ _; exact State.laneUnlock_keeps _ _)))

theorem State.testEnd_keeps (s : State) (base) : Keeps s (State.testEnd s base) := by
  unfold State.testEnd
  exact Keeps.ite (((State.wrb_keeps _ _ _ _).trans (State.wrb_keeps _ _ _ _)).trans (State.lanePower_keeps _ _ _))
    (Keeps.refl _)

theorem State.genStart_keeps (s : State) (base) : Keeps s (State.genStart s base) := by
  unfold State.genStart
  exact Keeps.ite (State.laneMod_keeps _ _ _) (Keeps.matchP (State.draw_keeps _) fun _ _ h1 => (h1).trans
    (State.laneMod_keeps _ _ _))

theorem State.testBegin_keeps (s : State) (base) : Keeps s (State.testBegin s base) := by
  unfold State.testBegin
  exact (((State.laneUseStored_keeps _ _).trans (State.wrb_keeps _ _ _ _)).trans (State.wrb_keeps _ _ _ _)).trans
    (State.genStart_keeps _ _)

theorem State.laneToPort_keeps (s : State) (base) : Keeps s (State.laneToPort s base) := by
  unfold State.laneToPort
  exact Keeps.ite (Keeps.cut (fun h1 => Keeps.ite ((h1).trans (State.laneMod_keeps _ _ _)) (h1))
    (State.lanePower_keeps _ _ _)) (Keeps.ite (Keeps.refl _) (Keeps.cut (fun h2 => Keeps.ite ((h2).trans
    (State.laneDormant_keeps _ _)) (Keeps.ite ((h2).trans (State.laneMod_keeps _ _ _)) (Keeps.ite (h2) ((h2).trans
    (State.laneMod_keeps _ _ _))))) (State.lanePower_keeps _ _ _)))

theorem State.laneMode_keeps (s : State) (base) (old) (mode) : Keeps s (State.laneMode s base old mode) := by
  unfold State.laneMode
  exact Keeps.cut (fun h1 => Keeps.ite (Keeps.ite (h1) ((h1).trans (State.testBegin_keeps _ _))) (Keeps.ite
    ((((h1).trans (State.testEnd_keeps _ _)).trans (State.laneDropped_keeps _ _)).trans (State.lanePower_keeps _ _ _))
    (Keeps.ite (h1) (Keeps.cut (fun h2 => ((h2).trans (State.testEnd_keeps _ _)).trans (State.laneToPort_keeps _ _))
    (Keeps.ite ((h1).trans (State.laneDropped_keeps _ _)) (h1)))))) (Keeps.ite ((State.wrf_keeps _ _ _ _ _).trans
    (State.raiseEvt_keeps _ _ _)) (Keeps.refl _))

theorem State.laneRestart_keeps (s : State) (base) : Keeps s (State.laneRestart s base) := by
  unfold State.laneRestart
  exact Keeps.ite (State.laneUseBoard_keeps _ _) (Keeps.refl _)

theorem State.laneCtlWrite_keeps (s : State) (base) (v) : Keeps s (State.laneCtlWrite s base v) := by
  unfold State.laneCtlWrite
  exact Keeps.cut (fun h1 => Keeps.ite ((((h1).trans (State.laneDropped_keeps _ _)).trans (State.laneForget_keeps _
    _)).trans (State.laneRestart_keeps _ _)) (h1)) ((State.wr_keeps _ _ _).trans (State.laneMode_keeps _ _ _ _))

theorem State.laneCfg_keeps (s : State) (l) (r) (f) (hf : ∀ x y, Keeps x (f x y)) : Keeps s (State.laneCfg s l r f) :=
  by
  unfold State.laneCfg
  exact State.cfg_keeps _ _ _ (fun _ => (by split; exact hf _ _; exact Keeps.refl _))

theorem execLaneModeOff_keeps (l) (v) (s : State) : KeepsO s (execLaneModeOff l v s) := by
  unfold execLaneModeOff
  exact KeepsO.next (State.laneCfg_keeps _ _ _ _ (fun _ _ => State.laneCtlWrite_keeps _ _ _))

theorem execLaneModePort_keeps (l) (v) (s : State) : KeepsO s (execLaneModePort l v s) := by
  unfold execLaneModePort
  exact KeepsO.next (State.laneCfg_keeps _ _ _ _ (fun _ _ => State.laneCtlWrite_keeps _ _ _))

theorem execLaneModeTest_keeps (l) (v) (s : State) : KeepsO s (execLaneModeTest l v s) := by
  unfold execLaneModeTest
  exact KeepsO.next (State.laneCfg_keeps _ _ _ _ (fun _ _ => State.laneCtlWrite_keeps _ _ _))

theorem execLaneReset_keeps (l) (v) (s : State) : KeepsO s (execLaneReset l v s) := by
  unfold execLaneReset
  exact KeepsO.next (State.laneCfg_keeps _ _ _ _ (fun _ _ => State.laneCtlWrite_keeps _ _ _))

theorem State.boardWrite_keeps (s : State) (base) (word) (v) : Keeps s (State.boardWrite s base word v) := by
  unfold State.boardWrite
  exact Keeps.cut (fun h1 => Keeps.cut (fun h2 => Keeps.ite (h2) ((h2).trans (State.raiseEvt_keeps _ _ _)))
    (((h1).trans (State.laneForget_keeps _ _)).trans (State.wrb_keeps _ _ _ _))) (Keeps.ite (State.wr_keeps _ _ _)
    (State.wr_keeps _ _ _))

theorem execBoardTableWrite_keeps (l) (word) (v) (s : State) : KeepsO s (execBoardTableWrite l word v s) := by
  unfold execBoardTableWrite
  exact KeepsO.next (State.laneCfg_keeps _ _ _ _ (fun _ _ => State.boardWrite_keeps _ _ _ _))

theorem State.genTick_keeps (s : State) (base) : Keeps s (State.genTick s base) := by
  unfold State.genTick
  exact (by (try extract_lets); split <;> exact (State.laneMod_keeps _ _ _).trans (State.emit_keeps _ _))

theorem State.prbsCtlWrite_keeps (s : State) (base) (v) : Keeps s (State.prbsCtlWrite s base v) := by
  unfold State.prbsCtlWrite
  exact Keeps.cut (fun h1 => Keeps.cut (fun h2 => Keeps.ite (Keeps.cut (fun h3 => ((h3).trans (State.wrb_keeps _ _ _
    _)).trans (State.laneMod_keeps _ _ _)) ((((h2).trans (State.setCnt_keeps _ _ _)).trans (State.setCnt_keeps _ _
    _)).trans (State.setCnt_keeps _ _ _))) (h2)) (Keeps.ite (h1) ((h1).trans (State.wrb_keeps _ _ _ _))))
    ((State.wr_keeps _ _ _).trans (State.genStart_keeps _ _))

theorem execPrbsChkClear_keeps (l) (v) (s : State) : KeepsO s (execPrbsChkClear l v s) := by
  unfold execPrbsChkClear
  exact KeepsO.next (State.laneCfg_keeps _ _ _ _ (fun _ _ => State.prbsCtlWrite_keeps _ _ _))

theorem execPrbsSyncAcquire_keeps (l) (s : State) : KeepsO s (execPrbsSyncAcquire l s) := by
  unfold execPrbsSyncAcquire
  exact (by split; exact KeepsO.next (Keeps.ite (State.wrb_keeps _ _ _ _) (Keeps.refl _)); exact KeepsO.next (Keeps.refl _))

theorem execPrbsSyncLoss_keeps (l) (errors) (s : State) : KeepsO s (execPrbsSyncLoss l errors s) := by
  unfold execPrbsSyncLoss
  exact (by split; exact KeepsO.next (Keeps.ite (Keeps.cut (fun h1 => (((h1).trans (State.wrb_keeps _ _ _ _)).trans (State.wrb_keeps _ _ _ _)).trans (State.raiseEvt_keeps _ _ _)) (State.addCnt_keeps _ _ _ _ _)) (Keeps.refl _)); exact KeepsO.next (Keeps.refl _))

theorem State.chkTick_keeps (s : State) (base) : Keeps s (State.chkTick s base) := by
  unfold State.chkTick
  exact Keeps.cut (fun h1 => Keeps.ite (h1) ((h1).trans (State.addCnt_keeps _ _ _ _ _))) ((State.laneMod_keeps _ _
    _).trans (State.addCnt_keeps _ _ _ _ _))

theorem State.prbsInjWrite_keeps (s : State) (base) (v) : Keeps s (State.prbsInjWrite s base v) := by
  unfold State.prbsInjWrite
  exact Keeps.cut (fun h1 => Keeps.ite (h1) ((h1).trans (State.laneMod_keeps _ _ _))) (State.wr_keeps _ _ _)

theorem execPrbsErrorInject_keeps (l) (s : State) : KeepsO s (execPrbsErrorInject l s) := by
  unfold execPrbsErrorInject
  exact (by split; exact KeepsO.next (Keeps.refl _); exact KeepsO.ite (KeepsO.next (Keeps.refl _)) ((by split <;> exact KeepsO.cut (fun h1 => KeepsO.cut (fun h2 => KeepsO.next (Keeps.ite ((h2).trans (State.addCnt_keeps _ _ _ _ _)) (h2))) (((h1).trans (State.inc_keeps _ _ _ _)).trans (State.emit_keeps _ _))) (State.laneMod_keeps _ _ _))))

theorem State.laneTick_keeps (s : State) (base) : Keeps s (State.laneTick s base) := by
  unfold State.laneTick
  exact Keeps.cut (fun h1 => Keeps.cut (fun h2 => Keeps.ite ((h2).trans (State.chkTick_keeps _ _)) (h2)) (Keeps.ite
    ((h1).trans (State.laneMod_keeps _ _ _)) (h1))) (Keeps.ite (State.genTick_keeps _ _) (Keeps.refl _))

theorem State.prbsTick_keeps (s : State) : Keeps s (State.prbsTick s) := by
  unfold State.prbsTick
  exact Keeps.ite (Keeps.foldl (Keeps.refl _) (fun _ _ => State.laneTick_keeps _ _)) (Keeps.refl _)

end Sys2Proof.Machine
end

