-- ==== Sys2Proof/Laws/KeepsTilth.lean ====
section
/-! SUPPORT. What each operation of Machine/Tilth.lean keeps (Keeps). -/

namespace Sys2Proof.Machine

theorem State.tilthMod_keeps (s : State) (f) : Keeps s (State.tilthMod s f) := by
  unfold State.tilthMod
  exact Keeps.same rfl rfl rfl rfl rfl rfl rfl

theorem State.engMod_keeps (s : State) (e) (f) : Keeps s (State.engMod s e f) := by
  unfold State.engMod
  exact State.tilthMod_keeps _ _

theorem State.roleMod_keeps (s : State) (r) (f) : Keeps s (State.roleMod s r f) := by
  unfold State.roleMod
  exact State.tilthMod_keeps _ _

theorem State.engGo_keeps (s : State) (e) (st) : Keeps s (State.engGo s e st) := by
  unfold State.engGo
  exact State.wrf_keeps _ _ _ _ _

theorem State.tilthEvt_keeps (s : State) (i) : Keeps s (State.tilthEvt s i) := by
  unfold State.tilthEvt
  exact State.raiseEvt_keeps _ _ _

theorem State.tilthCnt_keeps (s : State) (i) : Keeps s (State.tilthCnt s i) := by
  unfold State.tilthCnt
  exact State.inc_keeps _ _ _ _

theorem State.engEmpty_keeps (s : State) (e) : Keeps s (State.engEmpty s e) := by
  unfold State.engEmpty
  exact Keeps.cut (fun h1 => (((h1).trans (State.wr_keeps _ _ _)).trans (State.wr_keeps _ _ _)).trans
    (State.engMod_keeps _ _ _)) ((State.wr_keeps _ _ _).trans (State.stopTimer_keeps _ _))

theorem State.engLoading_keeps (s : State) (e) : Keeps s (State.engLoading s e) := by
  unfold State.engLoading
  exact (State.engEmpty_keeps _ _).trans (State.engGo_keeps _ _ _)

theorem State.measExtend_keeps (s : State) (type) (digest) : Keeps s (State.measExtend s type digest) := by
  unfold State.measExtend
  exact (State.wrs_keeps _ _ _).trans (State.wr_keeps _ _ _)

theorem State.engReady_keeps (s : State) (e) (img) : Keeps s (State.engReady s e img) := by
  unfold State.engReady
  exact Keeps.cut (fun h1 => Keeps.cut (fun h2 => ((h2).trans (State.tilthEvt_keeps _ _)).trans (State.tilthCnt_keeps
    _ _)) (((h1).trans (State.wr_keeps _ _ _)).trans (State.wr_keeps _ _ _))) ((State.engGo_keeps _ _ _).trans
    (State.engMod_keeps _ _ _))

theorem State.engFailed_keeps (s : State) (e) : Keeps s (State.engFailed s e) := by
  unfold State.engFailed
  exact ((State.engEmpty_keeps _ _).trans (State.tilthEvt_keeps _ _)).trans (State.tilthCnt_keeps _ _)

theorem State.loadResult_keeps (s : State) (n) : Keeps s (State.loadResult s n) := by
  unfold State.loadResult
  exact State.wrf_keeps _ _ _ _ _

theorem State.loadStart_keeps (s : State) : Keeps s (State.loadStart s) := by
  unfold State.loadStart
  exact Keeps.ite (Keeps.refl _) (Keeps.ite (State.loadResult_keeps _ _) (Keeps.cut (fun h1 => ((((h1).trans (State.engLoading_keeps _ _)).trans (State.tilthMod_keeps _ _)).trans (State.wr_keeps _ _ _)).trans (State.loadResult_keeps _ _)) ((by split; exact State.engEmpty_keeps _ _; exact Keeps.refl _))))

theorem State.loadFinish_keeps (s : State) : Keeps s (State.loadFinish s) := by
  unfold State.loadFinish
  exact Keeps.ite (State.wrb_keeps _ _ _ _) (Keeps.refl _)

theorem State.loadAbort_keeps (s : State) : Keeps s (State.loadAbort s) := by
  unfold State.loadAbort
  exact (by split; exact (((State.engFailed_keeps _ _).trans (State.tilthMod_keeps _ _)).trans (State.wrb_keeps _ _ _ _)).trans (State.loadResult_keeps _ _); exact Keeps.refl _)

theorem State.loadCtlWrite_keeps (s : State) (port) (v) : Keeps s (State.loadCtlWrite s port v) := by
  unfold State.loadCtlWrite
  exact Keeps.cut (fun h1 => id (Keeps.cut (fun h3 => Keeps.ite ((h3).trans (State.loadAbort_keeps _)) (h3))
    (Keeps.ite ((h1).trans (State.lk_keeps _ _ _ _ _ (fun _ => Keeps.cut (fun h2 => Keeps.ite ((h2).trans
    (State.loadFinish_keeps _)) (h2)) (Keeps.ite (State.loadStart_keeps _) (Keeps.refl _))))) (h1)))) (State.wrf_keeps
    _ _ _ _ _)

theorem State.loadDataWrite_keeps (s : State) (port) (v) : Keeps s (State.loadDataWrite s port v) := by
  unfold State.loadDataWrite
  exact State.lk_keeps _ _ _ _ _ (fun _ => (by split; exact Keeps.ite (Keeps.refl _) ((State.tilthMod_keeps _ _).trans (State.wr_keeps _ _ _)); exact Keeps.refl _))

theorem execLoadStart_keeps (v) (s : State) : KeepsO s (execLoadStart v s) := by
  unfold execLoadStart
  exact KeepsO.next (State.cfg_keeps _ _ _ (fun _ => State.loadCtlWrite_keeps _ _ _))

theorem execLoadFinish_keeps (v) (s : State) : KeepsO s (execLoadFinish v s) := by
  unfold execLoadFinish
  exact KeepsO.next (State.cfg_keeps _ _ _ (fun _ => State.loadCtlWrite_keeps _ _ _))

theorem execLoadAbort_keeps (v) (s : State) : KeepsO s (execLoadAbort v s) := by
  unfold execLoadAbort
  exact KeepsO.next (State.cfg_keeps _ _ _ (fun _ => State.loadCtlWrite_keeps _ _ _))

theorem execLoadData_keeps (v) (s : State) : KeepsO s (execLoadData v s) := by
  unfold execLoadData
  exact KeepsO.next (State.cfg_keeps _ _ _ (fun _ => State.loadDataWrite_keeps _ _ _))

theorem execLoadCheckDone_keeps (storeOk) (s : State) : KeepsO s (execLoadCheckDone storeOk s) := by
  unfold execLoadCheckDone
  exact (by split; exact KeepsO.ite (KeepsO.next (Keeps.refl _)) (KeepsO.cut (fun h1 => KeepsO.ite (KeepsO.next ((((h1).trans (State.engReady_keeps _ _ _)).trans (State.measExtend_keeps _ _ _)).trans (State.marlBump_keeps _ _))) (KeepsO.next ((h1).trans (State.engFailed_keeps _ _)))) (((State.tilthMod_keeps _ _).trans (State.wrb_keeps _ _ _ _)).trans (State.loadResult_keeps _ _))); exact KeepsO.next (Keeps.refl _))

theorem State.roleWork_keeps (s : State) (r) : Keeps s (State.roleWork s r) := by
  unfold State.roleWork
  exact Keeps.ite (Keeps.foldl (Keeps.refl _) (fun _ _ => State.portWake_keeps _ _ _)) (Keeps.ite
    (State.siltWake_keeps _) (Keeps.refl _))

theorem State.roleServe_keeps (s : State) (r) (e) : Keeps s (State.roleServe s r e) := by
  unfold State.roleServe
  exact Keeps.cut (fun h1 => Keeps.cut (fun h2 => ((h2).trans (State.roleMod_keeps _ _ _)).trans (State.roleWork_keeps
    _ _)) ((h1).trans (State.wr_keeps _ _ _))) ((State.wr_keeps _ _ _).trans (State.startTimer_keeps _ _ _))

theorem State.roleIdle_keeps (s : State) (r) : Keeps s (State.roleIdle s r) := by
  unfold State.roleIdle
  exact State.wr_keeps _ _ _

theorem State.roleRefuse_keeps (s : State) (r) : Keeps s (State.roleRefuse s r) := by
  unfold State.roleRefuse
  exact (State.wrb_keeps _ _ _ _).trans (State.tilthEvt_keeps _ _)

theorem State.roleAssign_keeps (s : State) (r) (e) : Keeps s (State.roleAssign s r e) := by
  unfold State.roleAssign
  exact Keeps.ite (State.roleRefuse_keeps _ _) (Keeps.cut (fun h1 => Keeps.cut (fun h2 => ((h2).trans (State.roleMod_keeps _ _ _)).trans (State.roleServe_keeps _ _ _)) ((h1).trans (State.wrf_keeps _ _ _ _ _))) ((by split; exact Keeps.ite (State.engEmpty_keeps _ _) (Keeps.refl _); exact Keeps.refl _)))

theorem State.roleHandover_keeps (s : State) (r) (e) : Keeps s (State.roleHandover s r e) := by
  unfold State.roleHandover
  exact Keeps.ite (State.roleRefuse_keeps _ _) ((State.wrb_keeps _ _ _ _).trans (State.roleMod_keeps _ _ _))

theorem State.roleCtlWrite_keeps (s : State) (r) (v) : Keeps s (State.roleCtlWrite s r v) := by
  unfold State.roleCtlWrite
  exact Keeps.cut (fun h1 => Keeps.cut (fun h2 => Keeps.cut (fun h3 => Keeps.ite ((h3).trans (State.roleMod_keeps _ _
    _)) (h3)) (Keeps.ite ((h2).trans (State.roleHandover_keeps _ _ _)) (h2))) (Keeps.ite ((h1).trans
    (State.roleAssign_keeps _ _ _)) (h1))) (State.wr_keeps _ _ _)

theorem execRoleAssign_keeps (r) (v) (s : State) : KeepsO s (execRoleAssign r v s) := by
  unfold execRoleAssign
  exact KeepsO.next (State.cfg_keeps _ _ _ (fun _ => State.roleCtlWrite_keeps _ _ _))

theorem execRoleHandover_keeps (r) (v) (s : State) : KeepsO s (execRoleHandover r v s) := by
  unfold execRoleHandover
  exact KeepsO.next (State.cfg_keeps _ _ _ (fun _ => State.roleCtlWrite_keeps _ _ _))

theorem execRoleAbort_keeps (r) (v) (s : State) : KeepsO s (execRoleAbort r v s) := by
  unfold execRoleAbort
  exact KeepsO.next (State.cfg_keeps _ _ _ (fun _ => State.roleCtlWrite_keeps _ _ _))

theorem execEngineClear_keeps (e) (s : State) : KeepsO s (execEngineClear e s) := by
  unfold execEngineClear
  exact KeepsO.next (Keeps.ite (State.engEmpty_keeps _ _) (Keeps.refl _))

theorem State.abortBed_keeps (s : State) (r) : Keeps s (State.abortBed s r) := by
  unfold State.abortBed
  exact Keeps.cut (fun h1 => Keeps.ite ((h1).trans (State.swapAbort_keeps _ _)) (h1)) (Keeps.foldl (Keeps.refl _) (fun
    _ _ => Keeps.ite (State.toDisabled_keeps _ _ _ _) (Keeps.refl _)))

theorem State.abortSilt_keeps (s : State) : Keeps s (State.abortSilt s) := by
  unfold State.abortSilt
  exact Keeps.foldl (Keeps.refl _) (fun _ _ => Keeps.ite (State.siltGap_keeps _ _ _) (Keeps.ite (State.siltFault_keeps
    _ _ _) (Keeps.ite (State.siltMod_keeps _ _ _) (Keeps.refl _))))

theorem State.roleAborted_keeps (s : State) (r) : Keeps s (State.roleAborted s r) := by
  unfold State.roleAborted
  exact Keeps.ite (State.abortBed_keeps _ _) (Keeps.ite (State.harmMod_keeps _ _) (Keeps.ite (State.abortSilt_keeps _)
    (Keeps.refl _)))

theorem State.laneRetune_keeps (s : State) (base) (ask) : Keeps s (State.laneRetune s base ask) := by
  unfold State.laneRetune
  exact (State.laneTrain_keeps _ _ _).trans (State.laneMod_keeps _ _ _)

theorem State.handOverRole_keeps (s : State) (r) (e) : Keeps s (State.handOverRole s r e) := by
  unfold State.handOverRole
  exact Keeps.cut (fun h1 => Keeps.ite ((h1).trans (State.roleRefuse_keeps _ _)) (Keeps.cut (fun h2 => ((h2).trans
    (State.roleServe_keeps _ _ _)).trans (State.tilthEvt_keeps _ _)) (((h1).trans (State.engEmpty_keeps _ _)).trans
    (State.roleMod_keeps _ _ _)))) (State.wrb_keeps _ _ _ _)

theorem State.safePoint_keeps (s : State) (r) (e) (addr) (id) (routine) (record) (sets) : Keeps s (State.safePoint s r
  e addr id routine record sets) := by
  unfold State.safePoint
  exact Keeps.cut (fun h1 => Keeps.cut (fun h2 => Keeps.cut (fun h3 => Keeps.cut (fun h4 => Keeps.cut (fun h5 =>
    Keeps.cut (fun h6 => Keeps.cut (fun h7 => Keeps.ite ((h7).trans (State.roleWork_keeps _ _)) (h7)) (Keeps.ite
    ((h6).trans (State.handOverRole_keeps _ _ _)) (h6))) (Keeps.ite ((h5).trans (State.roleAborted_keeps _ _)) (h5)))
    (Keeps.ite (Keeps.foldl (h4) (fun _ _ => State.formDue_keeps _ _ _)) (h4))) ((h3).trans (State.roleMod_keeps _ _
    _))) ((h2).trans (State.wrf_keeps _ _ _ _ _))) (Keeps.ite (Keeps.foldl (h1) (fun _ _ => State.onLanes_keeps _ _ _
    _ (fun _ _ => State.laneRetune_keeps _ _ _))) (h1))) ((State.wrf_keeps _ _ _ _ _).trans (State.startTimer_keeps _
    _ _))

theorem execSafePoint_keeps (e) (addr) (routine) (record) (sets) (s : State) : KeepsO s (execSafePoint e addr routine
  record sets s) := by
  unfold execSafePoint
  exact KeepsO.ite (KeepsO.next (State.safePoint_keeps _ _ _ _ _ _ _ _)) (KeepsO.next (Keeps.refl _))

theorem State.roleUnserved_keeps (s : State) (r) : Keeps s (State.roleUnserved s r) := by
  unfold State.roleUnserved
  exact ((State.roleMod_keeps _ _ _).trans (State.tilthEvt_keeps _ _)).trans (State.emit_keeps _ _)

theorem State.chooseTakeover_keeps (s : State) (r) : Keeps s (State.chooseTakeover s r) := by
  unfold State.chooseTakeover
  exact Keeps.ite (State.roleUnserved_keeps _ _) ((by split; exact State.roleMod_keeps _ _ _; exact (State.engLoading_keeps _ _).trans (State.roleMod_keeps _ _ _); exact State.roleUnserved_keeps _ _))

theorem State.roleLost_keeps (s : State) (r) : Keeps s (State.roleLost s r) := by
  unfold State.roleLost
  exact Keeps.cut (fun h1 => Keeps.ite ((h1).trans (State.roleMod_keeps _ _ _)) ((Keeps.ite ((h1).trans
    (State.roleRefuse_keeps _ _)) (h1)).trans (State.chooseTakeover_keeps _ _))) (State.roleIdle_keeps _ _)

theorem State.machineCheck_keeps (s : State) (e) (cause) (groups) (addr) : Keeps s (State.machineCheck s e cause
  groups addr) := by
  unfold State.machineCheck
  exact Keeps.cut (fun h1 => Keeps.cut (fun h2 => Keeps.cut (fun h3 => (Keeps.ite ((h3).trans
    (State.detectEngine_keeps _ _)) (h3)).trans (State.roleLost_keeps _ _)) (((h2).trans (State.tilthCnt_keeps _
    _)).trans (State.tilthEvt_keeps _ _))) ((h1).trans (State.wr_keeps _ _ _))) ((State.wr_keeps _ _ _).trans
    (State.stopTimer_keeps _ _))

theorem execMachineCheck_keeps (e) (addr) (flips) (cfgErr) (s : State) : KeepsO s (execMachineCheck e addr flips
  cfgErr s) := by
  unfold execMachineCheck
  exact KeepsO.ite (KeepsO.next (Keeps.refl _)) (KeepsO.ite (KeepsO.next (State.machineCheck_keeps _ _ _ _ _))
    (KeepsO.ite (KeepsO.next (State.machineCheck_keeps _ _ _ _ _)) (KeepsO.ite (KeepsO.next (State.machineCheck_keeps
    _ _ _ _ _)) (KeepsO.next (Keeps.refl _)))))

theorem execTilthWatchdog_keeps (e) (addr) (s : State) : KeepsO s (execTilthWatchdog e addr s) := by
  unfold execTilthWatchdog
  exact KeepsO.next (Keeps.ite (State.machineCheck_keeps _ _ _ _ _) (Keeps.refl _))

theorem execTakeoverDone_keeps (r) (storeOk) (s : State) : KeepsO s (execTakeoverDone r storeOk s) := by
  unfold execTakeoverDone
  exact (by split; exact KeepsO.next (Keeps.refl _); exact id (id (KeepsO.ite (KeepsO.next (Keeps.ite (((State.roleServe_keeps _ _ _).trans (State.tilthCnt_keeps _ _)).trans (State.tilthEvt_keeps _ _)) (Keeps.ite (State.roleUnserved_keeps _ _) ((State.roleMod_keeps _ _ _).trans (State.chooseTakeover_keeps _ _))))) (KeepsO.ite (KeepsO.ite (KeepsO.cut (fun h1 => KeepsO.next (Keeps.ite ((((h1).trans (State.roleServe_keeps _ _ _)).trans (State.tilthCnt_keeps _ _)).trans (State.tilthEvt_keeps _ _)) ((h1).trans (State.roleUnserved_keeps _ _)))) (State.engReady_keeps _ _ _)) (KeepsO.next ((State.engFailed_keeps _ _).trans (State.roleUnserved_keeps _ _)))) (KeepsO.next ((State.roleMod_keeps _ _ _).trans (State.chooseTakeover_keeps _ _)))))))

theorem State.tilthWake_keeps (s : State) (line) : Keeps s (State.tilthWake s line) := by
  unfold State.tilthWake
  exact Keeps.foldl (Keeps.refl _) (fun _ _ => Keeps.ite (State.roleMod_keeps _ _ _) (Keeps.refl _))

end Sys2Proof.Machine
end

