-- ==== Sys2Proof/Laws/KeepsSwap.lean ====
section
/-! SUPPORT. What each operation of Machine/Swap.lean keeps (Keeps). -/

namespace Sys2Proof.Machine

theorem execHeartbeatSend_keeps (s : State) : KeepsO s (execHeartbeatSend s) := by
  unfold execHeartbeatSend
  exact KeepsO.next (Keeps.ite (Keeps.foldl (Keeps.refl _) (fun _ _ => Keeps.ite (State.stopTimer_keeps _ _)
    (Keeps.ite (Keeps.refl _) (State.startTimer_keeps _ _ _)))) (Keeps.refl _))

theorem execHeartbeatTimeout_keeps (b) (s : State) : KeepsO s (execHeartbeatTimeout b s) := by
  unfold execHeartbeatTimeout
  exact KeepsO.next (Keeps.ite ((State.stopTimer_keeps _ _).trans (State.detect_keeps _ _ _)) (Keeps.refl _))

theorem execHarmWindowEnd_keeps (cls) (at_) (s : State) : KeepsO s (execHarmWindowEnd cls at_ s) := by
  unfold execHarmWindowEnd
  exact KeepsO.next (Keeps.ite ((State.stopTimer_keeps _ _).trans (State.harmMod_keeps _ _)) (Keeps.refl _))

theorem State.harmAck_keeps (s : State) (seq) : Keeps s (State.harmAck s seq) := by
  unfold State.harmAck
  exact Keeps.ite (Keeps.refl _) (Keeps.cut (fun h1 => Keeps.ite ((h1).trans (State.wrb_keeps _ _ _ _)) (h1))
    (State.wrf_keeps _ _ _ _ _))

theorem execHarmAck_keeps (v) (s : State) : KeepsO s (execHarmAck v s) := by
  unfold execHarmAck
  exact KeepsO.next (State.cfg_keeps _ _ _ (fun _ => State.harmAck_keeps _ _))

theorem execFenceRelease_keeps (w) (v) (s : State) : KeepsO s (execFenceRelease w v s) := by
  unfold execFenceRelease
  exact KeepsO.next (State.cfg_keeps _ _ _ (fun _ => State.wr_keeps _ _ _))

theorem execHarmTake_keeps (s : State) : KeepsO s (execHarmTake s) := by
  unfold execHarmTake
  exact KeepsO.next (State.harmMod_keeps _ _)

theorem State.swapWarm_keeps (s : State) : Keeps s (State.swapWarm s) := by
  unfold State.swapWarm
  exact Keeps.ite ((State.setSwap_keeps _ _).trans (State.bed16Up_keeps _)) (Keeps.refl _)

theorem State.swapStart_keeps (s : State) : Keeps s (State.swapStart s) := by
  unfold State.swapStart
  exact Keeps.cut (fun h1 => Keeps.ite (h1) (Keeps.ite (((h1).trans (State.wrf_keeps _ _ _ _ _)).trans
    (State.safeEvt_keeps _ _)) ((State.swapBegin_keeps _ _ _).trans (State.bed16Up_keeps _)))) (State.wrb_keeps _ _ _
    _)

theorem State.swapStop_keeps (s : State) : Keeps s (State.swapStop s) := by
  unfold State.swapStop
  exact Keeps.ite (State.swapAbort_keeps _ _) (Keeps.refl _)

theorem State.swapReturn_keeps (s : State) : Keeps s (State.swapReturn s) := by
  unfold State.swapReturn
  exact Keeps.ite ((State.swapBegin_keeps _ _ _).trans (State.harmMod_keeps _ _)) (Keeps.refl _)

theorem State.swapCtlWrite_keeps (s : State) (v) : Keeps s (State.swapCtlWrite s v) := by
  unfold State.swapCtlWrite
  exact Keeps.cut (fun h1 => Keeps.cut (fun h2 => Keeps.cut (fun h3 => Keeps.cut (fun h4 => Keeps.ite ((h4).trans
    (State.swapReturn_keeps _)) (h4)) (Keeps.ite ((h3).trans (State.swapStop_keeps _)) (h3))) (Keeps.ite ((h2).trans
    (State.swapStart_keeps _)) (h2))) (Keeps.ite ((h1).trans (State.swapWarm_keeps _)) (h1))) (State.wr_keeps _ _ _)

theorem execSwapWarm_keeps (v) (s : State) : KeepsO s (execSwapWarm v s) := by
  unfold execSwapWarm
  exact KeepsO.next (State.cfg_keeps _ _ _ (fun _ => State.swapCtlWrite_keeps _ _))

theorem execSwapStart_keeps (v) (s : State) : KeepsO s (execSwapStart v s) := by
  unfold execSwapStart
  exact KeepsO.next (State.cfg_keeps _ _ _ (fun _ => State.swapCtlWrite_keeps _ _))

theorem execSwapAbort_keeps (v) (s : State) : KeepsO s (execSwapAbort v s) := by
  unfold execSwapAbort
  exact KeepsO.next (State.cfg_keeps _ _ _ (fun _ => State.swapCtlWrite_keeps _ _))

theorem execSwapReturn_keeps (v) (s : State) : KeepsO s (execSwapReturn v s) := by
  unfold execSwapReturn
  exact KeepsO.next (State.cfg_keeps _ _ _ (fun _ => State.swapCtlWrite_keeps _ _))

theorem State.bedFresh_keeps (s : State) (b) : Keeps s (State.bedFresh s b) := by
  unfold State.bedFresh
  exact Keeps.cut (fun h1 => Keeps.ite (((h1).trans (State.fencePosition_keeps _ _ _)).trans (State.harmMod_keeps _
    _)) (h1)) (((State.loadImage_keeps _ _ _).trans (State.freshMacs_keeps _ _)).trans (State.harmMod_keeps _ _))

theorem execReseedMatched_keeps (b) (s : State) : KeepsO s (execReseedMatched b s) := by
  unfold execReseedMatched
  exact KeepsO.ite (KeepsO.next (Keeps.refl _)) (KeepsO.cut (fun h1 => KeepsO.ite (KeepsO.next ((((h1).trans
    (State.loadImage_keeps _ _ _)).trans (State.setSwap_keeps _ _)).trans (State.harmMod_keeps _ _))) (KeepsO.ite
    (KeepsO.next (((h1).trans (State.loadImage_keeps _ _ _)).trans (State.finishSwap_keeps _ _))) (KeepsO.ite
    (KeepsO.next (State.bedFresh_keeps _ _)) (KeepsO.next (Keeps.refl _))))) (State.harmMod_keeps _ _))

theorem State.switchPort_keeps (s : State) (p) : Keeps s (State.switchPort s p) := by
  unfold State.switchPort
  exact (State.carryPort_keeps _ _ _ _ _).trans (State.wrb_keeps _ _ _ _)

theorem State.switchIdle_keeps (s : State) : Keeps s (State.switchIdle s) := by
  unfold State.switchIdle
  exact Keeps.foldl (Keeps.refl _) (fun _ _ => Keeps.ite (State.switchPort_keeps _ _) (Keeps.refl _))

theorem execShadowMatched_keeps (s : State) : KeepsO s (execShadowMatched s) := by
  unfold execShadowMatched
  exact KeepsO.next (Keeps.ite ((((State.loadImage_keeps _ _ _).trans (State.setSwap_keeps _ _)).trans
    (State.wrf_keeps _ _ _ _ _)).trans (State.switchIdle_keeps _)) (Keeps.refl _))

theorem execShadowMismatch_keeps (s : State) : KeepsO s (execShadowMismatch s) := by
  unfold execShadowMismatch
  exact KeepsO.next (State.shadowMiss_keeps _)

theorem execPortSwitch_keeps (p) (s : State) : KeepsO s (execPortSwitch p s) := by
  unfold execPortSwitch
  exact KeepsO.next (Keeps.ite (State.switchPort_keeps _ _) (Keeps.refl _))

theorem execBedDrained_keeps (s : State) : KeepsO s (execBedDrained s) := by
  unfold execBedDrained
  exact KeepsO.next (Keeps.ite ((State.swapDone_keeps _).trans (State.releaseHeld_keeps _)) (Keeps.refl _))

end Sys2Proof.Machine
end

