-- ==== Sys2Proof/Laws/KeepsService.lean ====
section
/-! SUPPORT. What each operation of Machine/Service.lean keeps (Keeps). -/

namespace Sys2Proof.Machine

theorem execMarlRewriteDone_keeps (copy) (s : State) : KeepsO s (execMarlRewriteDone copy s) := by
  unfold execMarlRewriteDone
  exact KeepsO.next (Keeps.ite (State.wrb_keeps _ _ _ _) (Keeps.refl _))

theorem State.wearReach_keeps (s : State) (m) (i) (evt) (level) : Keeps s (State.wearReach s m i evt level) := by
  unfold State.wearReach
  exact Keeps.ite ((State.wrb_keeps _ _ _ _).trans (State.safeEvt_keeps _ _)) (Keeps.refl _)

theorem execWearSample_keeps (m) (slow) (s : State) : KeepsO s (execWearSample m slow s) := by
  unfold execWearSample
  exact KeepsO.next (Keeps.ite (Keeps.cut (fun h1 => ((h1).trans (State.wearReach_keeps _ _ _ _ _)).trans
    (State.wearReach_keeps _ _ _ _ _)) ((State.harmMod_keeps _ _).trans (State.wrf_keeps _ _ _ _ _))) (Keeps.refl _))

theorem execSubsoilRepairStart_keeps (stack) (chan) (corrected) (uncorrectable) (s : State) : KeepsO s
  (execSubsoilRepairStart stack chan corrected uncorrectable s) := by
  unfold execSubsoilRepairStart
  exact KeepsO.ite (KeepsO.next (Keeps.refl _)) (KeepsO.cut (fun h1 => KeepsO.ite (KeepsO.next (h1)) (KeepsO.ite
    (KeepsO.next ((h1).trans (State.safeEvt_keeps _ _))) (KeepsO.next ((h1).trans (State.harmMod_keeps _ _)))))
    (State.safeInc_keeps _ _ _))

theorem execSubsoilRepairDone_keeps (stack) (chan) (s : State) : KeepsO s (execSubsoilRepairDone stack chan s) := by
  unfold execSubsoilRepairDone
  exact KeepsO.next (Keeps.ite ((State.harmMod_keeps _ _).trans (State.safeEvt_keeps _ _)) (Keeps.refl _))

theorem State.flowLost_keeps (s : State) (id) : Keeps s (State.flowLost s id) := by
  unfold State.flowLost
  exact Keeps.cut (fun h1 => (h1).trans (State.schedMod_keeps _ _)) (Keeps.foldl (Keeps.refl _) (fun _ _ =>
    ((State.countGrain_keeps _).trans (State.unqueue_keeps _ _)).trans (State.discardCopy_keeps _ _)))

theorem execUncorrectableError_keeps (at_) (s : State) : KeepsO s (execUncorrectableError at_ s) := by
  unfold execUncorrectableError
  exact KeepsO.ite (KeepsO.next (Keeps.refl _)) ((by split; exact KeepsO.next (State.grainFail_keeps _ _ _); exact KeepsO.next (State.flowLost_keeps _ _); exact KeepsO.next (State.marlMark_keeps _ _)))

theorem State.fuseGo_keeps (s : State) (v) : Keeps s (State.fuseGo s v) := by
  unfold State.fuseGo
  exact Keeps.ite (Keeps.refl _) ((by split; exact State.wrf_keeps _ _ _ _ _; exact Keeps.cut (fun h1 => Keeps.upd rfl rfl (h1)) ((State.wrf_keeps _ _ _ _ _).trans (State.wrb_keeps _ _ _ _))))

theorem State.fuseProgWrite_keeps (s : State) (port) (v) : Keeps s (State.fuseProgWrite s port v) := by
  unfold State.fuseProgWrite
  exact Keeps.ite (State.lk_keeps _ _ _ _ _ (fun _ => State.fuseGo_keeps _ _)) (Keeps.refl _)

theorem execFuseProgGo_keeps (v) (s : State) : KeepsO s (execFuseProgGo v s) := by
  unfold execFuseProgGo
  exact KeepsO.next (State.cfg_keeps _ _ _ (fun _ => State.fuseProgWrite_keeps _ _ _))

theorem State.mapOut_keeps (s : State) (kind) (i) : Keeps s (State.mapOut s kind i) := by
  unfold State.mapOut
  exact (by split; exact (State.wrb_keeps _ _ _ _).trans (State.setTrial_keeps _ _ _ _); exact (State.wrb_keeps _ _ _ _).trans (State.lanePower_keeps _ _ _); exact State.engEmpty_keeps _ _; exact Keeps.refl _)

theorem State.mapRtWrite_keeps (s : State) (i) (v) : Keeps s (State.mapRtWrite s i v) := by
  unfold State.mapRtWrite
  exact (by split; exact Keeps.ite (State.raiseEvt_keeps _ _ _) (((State.mapOut_keeps _ _ _).trans (State.wr_keeps _ _ _)).trans (State.settleAll_keeps _ _)); exact (State.wr_keeps _ _ _).trans (State.settleAll_keeps _ _))

theorem execMapRtWrite_keeps (i) (v) (s : State) : KeepsO s (execMapRtWrite i v s) := by
  unfold execMapRtWrite
  exact KeepsO.next (State.cfg_keeps _ _ _ (fun _ => State.mapRtWrite_keeps _ _ _))

end Sys2Proof.Machine
end

