-- ==== Sys2Proof/Laws/KeepsLifecycle.lean ====
section
/-! SUPPORT. What each operation of Machine/Lifecycle.lean keeps (Keeps). -/

namespace Sys2Proof.Machine

theorem State.dbgResult_keeps (s : State) (port) (n) : Keeps s (State.dbgResult s port n) := by
  unfold State.dbgResult
  exact State.dbgMod_keeps _ _ _

theorem State.secAborted_keeps (s : State) (before : State) : Keeps s (State.secAborted s before) := by
  unfold State.secAborted
  exact Keeps.cut (fun h1 => Keeps.cut (fun h2 => Keeps.cut (fun h3 => (h3).trans (State.secMod_keeps _ _)) (Keeps.ite (((h2).trans (State.wrb_keeps _ _ _ _)).trans (State.wrf_keeps _ _ _ _ _)) (h2))) ((by split; exact (h1).trans (State.dbgResult_keeps _ _ _); exact ((h1).trans (State.wrb_keeps _ _ _ _)).trans (State.wrf_keeps _ _ _ _ _); exact h1))) ((by split; exact State.dbgResult_keeps _ _ _; exact Keeps.refl _))

theorem State.fallowEnter_keeps (s : State) : Keeps s (State.fallowEnter s) := by
  unfold State.fallowEnter
  exact Keeps.cut (fun h1 => Keeps.cut (fun h3 => Keeps.cut (fun h4 => Keeps.cut (fun h5 => Keeps.cut (fun h6 =>
    Keeps.cut (fun h7 => Keeps.upd rfl rfl (h7)) (Keeps.ite ((h6).trans (State.wrb_keeps _ _ _ _)) (h6))) (((h5).trans
    (State.dropTimers_keeps _ _)).trans (State.secAborted_keeps _ _))) (Keeps.foldl (h4) (fun _ _ => Keeps.ite
    (Keeps.refl _) (State.settle_keeps _ _ _)))) ((h3).trans (State.settle_keeps _ _ _))) (Keeps.cut (fun h2 =>
    Keeps.upd rfl rfl (h2)) ((h1).trans (State.wrb_keeps _ _ _ _)))) ((State.dbgClose_keeps _ _).trans
    (State.dbgClose_keeps _ _))

theorem State.fallowIfDue_keeps (s : State) : Keeps s (State.fallowIfDue s) := by
  unfold State.fallowIfDue
  exact Keeps.ite (State.fallowEnter_keeps _) (Keeps.refl _)

theorem State.trimEnter_keeps (s : State) : Keeps s (State.trimEnter s) := by
  unfold State.trimEnter
  exact Keeps.cut (fun h1 => Keeps.cut (fun h2 => Keeps.ite (h2) ((h2).trans (State.pwrRefused_keeps _))) ((h1).trans
    (State.settleAll_keeps _ _))) (Keeps.foldl (State.wr_keeps _ _ _) (fun _ _ => State.wrb_keeps _ _ _ _))

theorem State.pwrStateWrite_keeps (s : State) (n) : Keeps s (State.pwrStateWrite s n) := by
  unfold State.pwrStateWrite
  exact Keeps.ite (State.trimEnter_keeps _) (Keeps.ite ((State.wr_keeps _ _ _).trans (State.settleAll_keeps _ _))
    (Keeps.ite (Keeps.cut (fun h1 => Keeps.ite (Keeps.upd rfl rfl (h1)) ((h1).trans (State.fallowEnter_keeps _)))
    ((State.dbgClose_keeps _ _).trans (State.dbgClose_keeps _ _))) (Keeps.refl _)))

theorem execPwrStateTrim_keeps (s : State) : KeepsO s (execPwrStateTrim s) := by
  unfold execPwrStateTrim
  exact KeepsO.next (State.cfg_keeps _ _ _ (fun _ => State.pwrStateWrite_keeps _ _))

theorem execPwrStateRun_keeps (s : State) : KeepsO s (execPwrStateRun s) := by
  unfold execPwrStateRun
  exact KeepsO.next (State.cfg_keeps _ _ _ (fun _ => State.pwrStateWrite_keeps _ _))

theorem execFallowEntry_keeps (s : State) : KeepsO s (execFallowEntry s) := by
  unfold execFallowEntry
  exact KeepsO.next (State.cfg_keeps _ _ _ (fun _ => State.pwrStateWrite_keeps _ _))

theorem execFallowExit_keeps (s : State) : KeepsO s (execFallowExit s) := by
  unfold execFallowExit
  exact KeepsO.ite (KeepsO.cut (fun h1 => KeepsO.next ((((h1).trans (State.wr_keeps _ _ _)).trans (State.cause_keeps _
    _)).trans (State.settleAll_keeps _ _))) (Keeps.same rfl rfl rfl rfl rfl rfl rfl)) (KeepsO.next (Keeps.refl _))

theorem execHostResetPin_keeps (level) (s : State) : KeepsO s (execHostResetPin level s) := by
  unfold execHostResetPin
  exact KeepsO.cut (fun h1 => KeepsO.ite (KeepsO.next (h1)) (KeepsO.next (((h1).trans (State.cause_keeps _ _)).trans
    (State.settleAll_keeps _ _)))) (Keeps.same rfl rfl rfl rfl rfl rfl rfl)

theorem execRstCtlHostSelf_keeps (lineHold) (s : State) : KeepsO s (execRstCtlHostSelf lineHold s) := by
  unfold execRstCtlHostSelf
  exact KeepsO.cut (fun h1 => KeepsO.next (Keeps.ite (((h1).trans (State.cause_keeps _ _)).trans (State.hostDown_keeps
    _)) (h1))) (State.cfg_keeps _ _ _ (fun _ => State.setLineHold_keeps _ _))

theorem execPllLockLoss_keeps (s : State) : KeepsO s (execPllLockLoss s) := by
  unfold execPllLockLoss
  exact KeepsO.ite (KeepsO.next (Keeps.refl _)) (KeepsO.next (((State.pllLost_keeps _).trans (State.harmReport_keeps _
    _)).trans (State.harmMod_keeps _ _)))

theorem State.wipeBegin_keeps (s : State) (next) : Keeps s (State.wipeBegin s next) := by
  unfold State.wipeBegin
  exact (State.secMod_keeps _ _).trans (State.setLineHold_keeps _ _)

theorem State.lcBlowBegin_keeps (s : State) (t) (req) : Keeps s (State.lcBlowBegin s t req) := by
  unfold State.lcBlowBegin
  exact State.secMod_keeps _ _

theorem State.lcWipe_keeps (s : State) (t) (req) : Keeps s (State.lcWipe s t req) := by
  unfold State.lcWipe
  exact Keeps.ite (State.secMod_keeps _ _) (State.wipeBegin_keeps _ _)

theorem State.lcGo_keeps (s : State) (v) : Keeps s (State.lcGo s v) := by
  unfold State.lcGo
  exact Keeps.cut (fun h1 => Keeps.cut (fun h2 => (by (try extract_lets); split; exact (h1).trans (State.lcBlowBegin_keeps _ _ _); exact (h1).trans (State.lcWipe_keeps _ _ _); exact Keeps.ite ((h1).trans (State.lcWipe_keeps _ _ _)) (h2); exact h2)) (State.wrf_keeps _ _ _ _ _)) ((State.wrb_keeps _ _ _ _).trans (State.wrf_keeps _ _ _ _ _))

theorem State.lcReqWrite_keeps (s : State) (port) (v) : Keeps s (State.lcReqWrite s port v) := by
  unfold State.lcReqWrite
  exact Keeps.cut (fun h1 => Keeps.ite ((h1).trans (State.lk_keeps _ _ _ _ _ (fun _ => State.lcGo_keeps _ _))) (h1))
    (State.wrf_keeps _ _ _ _ _)

theorem execLcRequest_keeps (v) (s : State) : KeepsO s (execLcRequest v s) := by
  unfold execLcRequest
  exact KeepsO.next (State.cfg_keeps _ _ _ (fun _ => State.lcReqWrite_keeps _ _ _))

theorem State.blowLife_keeps (s : State) (t) : Keeps s (State.blowLife s t) := by
  exact ⟨rfl, rfl, id, List.suffix_refl _, Nat.le_refl _, fun i h => by simp [State.blowLife, h], fun _ => id⟩

theorem State.blowRevoked_keeps (s : State) (k) : Keeps s (State.blowRevoked s k) := by
  exact ⟨rfl, rfl, id, List.suffix_refl _, Nat.le_refl _, fun _ => id, fun i h => by simp [State.blowRevoked, h]⟩

theorem execLcBlowDone_keeps (good) (s : State) : KeepsO s (execLcBlowDone good s) := by
  unfold execLcBlowDone
  exact (by split; exact KeepsO.next (Keeps.refl _); exact KeepsO.cut (fun h1 => KeepsO.ite (KeepsO.cut (fun h2 => KeepsO.next (((h2).trans (State.measExtend_keeps _ _ _)).trans (State.fallowIfDue_keeps _))) (((((((h1).trans (State.blowLife_keeps _ _)).trans (State.dbgClose_keeps _ _)).trans (State.dbgClose_keeps _ _)).trans (State.stopTimer_keeps _ _)).trans (State.wrf_keeps _ _ _ _ _)).trans (State.raiseEvt_keeps _ _ _))) (KeepsO.next (((h1).trans (State.wrf_keeps _ _ _ _ _)).trans (State.fallowIfDue_keeps _)))) ((State.secMod_keeps _ _).trans (State.wrb_keeps _ _ _ _)))

theorem State.keyRevokeWrite_keeps (s : State) (port) (v) : Keeps s (State.keyRevokeWrite s port v) := by
  unfold State.keyRevokeWrite
  exact Keeps.ite (Keeps.refl _) (State.lk_keeps _ _ _ _ _ (fun _ => Keeps.ite (Keeps.refl _) ((State.secMod_keeps _
    _).trans (State.wrb_keeps _ _ _ _))))

theorem execKeyRevoke_keeps (v) (s : State) : KeepsO s (execKeyRevoke v s) := by
  unfold execKeyRevoke
  exact KeepsO.next (State.cfg_keeps _ _ _ (fun _ => State.keyRevokeWrite_keeps _ _ _))

theorem execKeyRevokeDone_keeps (s : State) : KeepsO s (execKeyRevokeDone s) := by
  unfold execKeyRevokeDone
  exact (by split; exact KeepsO.next (Keeps.refl _); exact KeepsO.cut (fun h1 => KeepsO.next (((h1).trans (State.blowRevoked_keeps _ _)).trans (State.fallowIfDue_keeps _))) ((State.secMod_keeps _ _).trans (State.wrb_keeps _ _ _ _)))

theorem execFuseBlowDone_keeps (missed) (s : State) : KeepsO s (execFuseBlowDone missed s) := by
  unfold execFuseBlowDone
  split
  · exact KeepsO.next (Keeps.refl _)
  · refine KeepsO.next (Keeps.trans ?_ (State.fallowIfDue_keeps _))
    exact Keeps.upd rfl rfl ((State.wrf_keeps _ _ _ _ _).trans (State.wrb_keeps _ _ _ _))

theorem State.chalReq_keeps (s : State) (port) : Keeps s (State.chalReq s port) := by
  have h : Keeps s { s with draws := s.draws + 1 } :=
    ⟨rfl, rfl, id, List.suffix_refl _, Nat.le_succ _, fun _ => id, fun _ => id⟩
  exact (h.trans (State.dbgMod_keeps _ _ _)).trans (State.startTimer_keeps _ _ _)

theorem State.dbgFail_keeps (s : State) (port) (n) : Keeps s (State.dbgFail s port n) := by
  unfold State.dbgFail
  exact Keeps.cut (fun h1 => Keeps.ite ((h1).trans (State.secMod_keeps _ _)) (h1)) ((State.dbgResult_keeps _ _
    _).trans (State.raiseEvt_keeps _ _ _))

theorem State.dbgSubmit_keeps (s : State) (port) : Keeps s (State.dbgSubmit s port) := by
  unfold State.dbgSubmit
  exact Keeps.ite (Keeps.refl _) (Keeps.cut (fun h1 => Keeps.ite ((h1).trans (State.dbgFail_keeps _ _ _)) (((h1).trans
    (State.dbgResult_keeps _ _ _)).trans (State.secMod_keeps _ _))) ((State.dbgMod_keeps _ _ _).trans
    (State.stopTimer_keeps _ _)))

theorem State.dbgCtlWrite_keeps (s : State) (port) (v) : Keeps s (State.dbgCtlWrite s port v) := by
  unfold State.dbgCtlWrite
  exact Keeps.cut (fun h1 => Keeps.cut (fun h2 => Keeps.ite ((h2).trans (State.dbgClose_keeps _ _)) (h2)) (Keeps.ite
    ((h1).trans (State.dbgSubmit_keeps _ _)) (h1))) (Keeps.ite (State.chalReq_keeps _ _) (Keeps.refl _))

theorem State.dbgTokenWrite_keeps (s : State) (port) (v) : Keeps s (State.dbgTokenWrite s port v) := by
  unfold State.dbgTokenWrite
  exact State.dbgMod_keeps _ _ _

theorem State.dpCtlWrite_keeps (s : State) (v) : Keeps s (State.dpCtlWrite s v) := by
  unfold State.dpCtlWrite
  exact Keeps.ite ((State.dbgCtlWrite_keeps _ _ _).trans (State.emit_keeps _ _)) (Keeps.ite (State.emit_keeps _ _)
    (((State.setLineHold_keeps _ _).trans (State.dbgCtlWrite_keeps _ _ _)).trans (State.emit_keeps _ _)))

theorem State.onPath_keeps (s : State) (port) (off) (host) (dp) (hhost : ∀ x, Keeps x (host x)) (hdp : ∀ x, Keeps x
  (dp x)) : Keeps s (State.onPath s port off host dp) := by
  unfold State.onPath
  exact Keeps.ite (Keeps.ite (hdp _) (Keeps.refl _)) (State.cfg_keeps _ _ _ (hhost))

theorem execDbgChalReq_keeps (port) (v) (s : State) : KeepsO s (execDbgChalReq port v s) := by
  unfold execDbgChalReq
  exact KeepsO.next (State.onPath_keeps _ _ _ _ _ (fun _ => State.dbgCtlWrite_keeps _ _ _) (fun _ =>
    State.dpCtlWrite_keeps _ _))

theorem execDbgSubmit_keeps (port) (v) (s : State) : KeepsO s (execDbgSubmit port v s) := by
  unfold execDbgSubmit
  exact KeepsO.next (State.onPath_keeps _ _ _ _ _ (fun _ => State.dbgCtlWrite_keeps _ _ _) (fun _ =>
    State.dpCtlWrite_keeps _ _))

theorem execDbgClose_keeps (port) (v) (s : State) : KeepsO s (execDbgClose port v s) := by
  unfold execDbgClose
  exact KeepsO.next (State.onPath_keeps _ _ _ _ _ (fun _ => State.dbgCtlWrite_keeps _ _ _) (fun _ =>
    State.dpCtlWrite_keeps _ _))

theorem execDpLineRelease_keeps (v) (s : State) : KeepsO s (execDpLineRelease v s) := by
  exact KeepsO.next (State.onPath_keeps _ _ _ _ _ (fun _ => Keeps.refl _) fun _ => State.dpCtlWrite_keeps _ _)

theorem execDbgTokenWrite_keeps (port) (v) (s : State) : KeepsO s (execDbgTokenWrite port v s) := by
  unfold execDbgTokenWrite
  exact KeepsO.next (State.onPath_keeps _ _ _ _ _ (fun _ => State.dbgTokenWrite_keeps _ _ _) (fun _ =>
    (State.dbgTokenWrite_keeps _ _ _).trans (State.emit_keeps _ _)))

theorem State.dbgGrant_keeps (s : State) (port) (t) : Keeps s (State.dbgGrant s port t) := by
  unfold State.dbgGrant
  exact Keeps.cut (fun h1 => Keeps.cut (fun h2 => ((h2).trans (State.raiseEvt_keeps _ _ _)).trans
    (State.measExtend_keeps _ _ _)) (Keeps.ite ((h1).trans (State.stopTimer_keeps _ _)) ((h1).trans
    (State.startTimer_keeps _ _ _)))) (State.dbgMod_keeps _ _ _)

theorem State.tokenPass_keeps (s : State) (port) (t) : Keeps s (State.tokenPass s port t) := by
  unfold State.tokenPass
  exact Keeps.cut (fun h1 => Keeps.ite (((h1).trans (State.dbgResult_keeps _ _ _)).trans (State.startTimer_keeps _ _
    _)) (Keeps.ite ((h1).trans (State.wipeBegin_keeps _ _)) ((h1).trans (State.dbgGrant_keeps _ _ _))))
    (State.secMod_keeps _ _)

theorem execTokenCheckDone_keeps (s : State) : KeepsO s (execTokenCheckDone s) := by
  unfold execTokenCheckDone
  exact (by split; exact KeepsO.next (Keeps.refl _); exact KeepsO.ite (KeepsO.next (Keeps.refl _)) (KeepsO.cut (fun h1 => KeepsO.ite (KeepsO.next ((h1).trans (State.dbgResult_keeps _ _ _))) ((by split; exact KeepsO.next ((h1).trans (State.tokenPass_keeps _ _ _)); exact KeepsO.next ((h1).trans (State.dbgFail_keeps _ _ _))))) (State.secMod_keeps _ _)))

theorem execWipeDone_keeps (s : State) : KeepsO s (execWipeDone s) := by
  unfold execWipeDone
  split
  · exact KeepsO.next (Keeps.refl _)
  · extract_lets due t t2
    clear_value due
    have h : Keeps s t2 :=
      ((State.setLineHold_keeps _ _).trans (State.secMod_keeps _ _)).trans (State.harmMod_keeps _ _)
    split
    · exact KeepsO.next (h.trans (State.lcBlowBegin_keeps _ _ _))
    · have h3 : ∀ port tk, Keeps s (if t2.lifecycle = 1 then t2.dbgFail port 7 else t2.dbgGrant port tk) := fun _ _ =>
        Keeps.ite (h.trans (State.dbgFail_keeps _ _ _)) (h.trans (State.dbgGrant_keeps _ _ _))
      refine KeepsO.next ?_
      split
      · exact (h3 _ _).trans (State.lcBlowBegin_keeps _ _ _)
      · exact h3 _ _

theorem execSessionExpire_keeps (port) (s : State) : KeepsO s (execSessionExpire port s) := by
  unfold execSessionExpire
  exact KeepsO.next (Keeps.ite (State.dbgClose_keeps _ _) (Keeps.refl _))

theorem execChallengeExpire_keeps (port) (s : State) : KeepsO s (execChallengeExpire port s) := by
  unfold execChallengeExpire
  exact KeepsO.next (Keeps.ite ((State.dbgMod_keeps _ _ _).trans (State.stopTimer_keeps _ _)) (Keeps.refl _))

theorem execReturnArmExpire_keeps (s : State) : KeepsO s (execReturnArmExpire s) := by
  unfold execReturnArmExpire
  exact KeepsO.next (State.stopTimer_keeps _ _)

end Sys2Proof.Machine
end

