-- ==== Sys2Proof/Laws/KeepsViews.lean ====
section
/-! SUPPORT. What each operation of Machine/Views.lean keeps (Keeps). -/

namespace Sys2Proof.Machine

theorem State.readEffect_keeps (s : State) (off) : Keeps s (State.readEffect s off) := by
  unfold State.readEffect
  exact Keeps.ite (Keeps.refl _) ((by split; exact State.nowCapture_keeps _ _; exact (by split; exact Keeps.ite (Keeps.refl _) (State.wr_keeps _ _ _); exact Keeps.refl _)))

theorem State.hostRead_keeps (s : State) (addr) (be) : Keeps s (State.hostRead s addr be) := by
  unfold State.hostRead
  exact Keeps.ite (Keeps.ite (State.answer_keeps _ _ _) (Keeps.refl _)) ((by split; exact Keeps.refl _; exact State.answer_keeps _ _ _; exact State.answer_keeps _ _ _; exact (State.readEffect_keeps _ _).trans (State.answer_keeps _ _ _)))

theorem execTbNowRead_keeps (k) (s : State) : KeepsO s (execTbNowRead k s) := by
  unfold execTbNowRead
  exact KeepsO.next (State.hostRead_keeps _ _ _)

end Sys2Proof.Machine
end

