-- ==== Sys2Proof/Laws/KeepsRegisters.lean ====
section
/-! SUPPORT. What each operation of Machine/Registers.lean keeps (Keeps). -/

namespace Sys2Proof.Machine

theorem State.maskWrite_keeps (s : State) (evt) (v) (rw) : Keeps s (State.maskWrite s evt v rw) := by
  unfold State.maskWrite
  exact Keeps.cut (fun h1 => Keeps.ite (h1) (Keeps.upd rfl rfl (h1))) (State.wr_keeps _ _ _)

theorem State.codeWrite_keeps (s : State) (off) (key) (v) : Keeps s (State.codeWrite s off key v) := by
  unfold State.codeWrite
  exact (by split; exact State.wr_keeps _ _ _; exact Keeps.refl _)

theorem State.bankWrite_keeps (s : State) (off) (bank) (v) : Keeps s (State.bankWrite s off bank v) := by
  unfold State.bankWrite
  exact Keeps.ite (Keeps.ite ((State.wrb_keeps _ _ _ _).trans (State.raiseEvt_keeps _ _ _)) (State.codeWrite_keeps _ _
    _ _)) (Keeps.ite ((State.wrb_keeps _ _ _ _).trans (State.raiseEvt_keeps _ _ _)) (State.codeWrite_keeps _ _ _ _))

theorem State.plainWrite_keeps (s : State) (off) (v) : Keeps s (State.plainWrite s off v) := by
  unfold State.plainWrite
  exact (by split; exact Keeps.refl _; exact Keeps.ite (State.bankWrite_keeps _ _ _ _) (Keeps.ite (State.maskWrite_keeps _ _ _ _) (State.codeWrite_keeps _ _ _ _)))

theorem State.cmdWrite_keeps (s : State) (off) (v) (go) (hgo : ∀ x, Keeps x (go x)) : Keeps s (State.cmdWrite s off v
  go) := by
  unfold State.cmdWrite
  exact Keeps.cut (fun h1 => Keeps.ite ((h1).trans (hgo _)) (h1)) (State.plainWrite_keeps _ _ _)

theorem State.pllWrite_keeps (s : State) (v) : Keeps s (State.pllWrite s v) := by
  unfold State.pllWrite
  exact Keeps.cut (fun h1 => Keeps.ite ((h1).trans (State.harmMod_keeps _ _)) (h1)) (State.plainWrite_keeps _ _ _)

theorem State.rstCtlWrite_keeps (s : State) (v) : Keeps s (State.rstCtlWrite s v) := by
  unfold State.rstCtlWrite
  exact Keeps.cut (fun h1 => Keeps.ite (((h1).trans (State.cause_keeps _ _)).trans (State.hostDown_keeps _)) (h1))
    (State.setLineHold_keeps _ _)

theorem State.lowWrite_keeps (s : State) (port) (off) (v) : Keeps s (State.lowWrite s port off v) := by
  unfold State.lowWrite
  exact Keeps.ite (State.pllWrite_keeps _ _) (Keeps.ite (State.monSel_keeps _ _) (Keeps.ite (State.rstCtlWrite_keeps _ _) (Keeps.ite (State.rstBedWrite_keeps _ _) (Keeps.ite (State.pwrStateWrite_keeps _ _) (Keeps.ite (State.islandCtlWrite_keeps _ _) (Keeps.ite (State.fuseProgWrite_keeps _ _ _) (Keeps.ite (State.lcReqWrite_keeps _ _ _) (Keeps.ite (State.dbgCtlWrite_keeps _ _ _) (Keeps.ite (State.dbgTokenWrite_keeps _ _ _) (Keeps.ite (State.keyRevokeWrite_keeps _ _ _) ((by split; exact State.mapRtWrite_keeps _ _ _; exact State.plainWrite_keeps _ _ _))))))))))))

theorem State.tbCmdWrite_keeps (s : State) (k) (v) : Keeps s (State.tbCmdWrite s k v) := by
  unfold State.tbCmdWrite
  exact Keeps.ite (State.plainWrite_keeps _ _ _) ((by split; exact State.tbSet_keeps _ _ _; exact State.tbStep_keeps _ _ _; exact State.tbSlew_keeps _ _ _; exact State.tbNothing_keeps _ _ _))

theorem State.ppsOutWrite_keeps (s : State) (j) (v) : Keeps s (State.ppsOutWrite s j v) := by
  unfold State.ppsOutWrite
  exact Keeps.cut (fun h1 => Keeps.cut (fun h2 => Keeps.ite (h2) ((h2).trans (State.emit_keeps _ _))) (Keeps.ite (h1)
    ((h1).trans (State.stopTimer_keeps _ _)))) (State.plainWrite_keeps _ _ _)

theorem State.timeWrite_keeps (s : State) (port) (off) (v) : Keeps s (State.timeWrite s port off v) := by
  unfold State.timeWrite
  exact (by split; exact Keeps.ite (State.addendWrite_keeps _ _ _) (Keeps.ite (State.tbCmdWrite_keeps _ _ _) (Keeps.ite (State.unlockWrite_keeps _ _ _ _) (State.plainWrite_keeps _ _ _))); exact Keeps.ite (Keeps.ite (State.captureAll_keeps _) (Keeps.refl _)) (Keeps.ite (State.ref10Write_keeps _ _) (Keeps.ite (State.cmdWrite_keeps _ _ _ _ (fun _ => State.actOp_keeps _ _)) ((by split; exact Keeps.ite (State.setPpsQ_keeps _ _ _) (Keeps.refl _); exact State.ppsOutWrite_keeps _ _ _; exact State.pairCtlWrite_keeps _ _ _; exact State.plainWrite_keeps _ _ _)))))

theorem State.ringWrite_keeps (s : State) (off) (v) : Keeps s (State.ringWrite s off v) := by
  unfold State.ringWrite
  exact Keeps.ite (State.nudge_keeps _ _) ((by split; exact State.ringCtlWrite_keeps _ _ _; exact State.ringCtlWrite_keeps _ _ _; exact State.ringCtlWrite_keeps _ _ _; exact State.plainWrite_keeps _ _ _))

theorem State.exportWrite_keeps (s : State) (port) (v) : Keeps s (State.exportWrite s port v) := by
  unfold State.exportWrite
  exact Keeps.cut (fun h1 => Keeps.cut (fun h2 => Keeps.ite ((h2).trans (State.wmapRefuse_keeps _ _ _)) (h2))
    (Keeps.ite (h1) ((h1).trans (State.wrb_keeps _ _ _ _)))) (Keeps.ite (Keeps.refl _) (State.wrb_keeps _ _ _ _))

theorem State.augWrite_keeps (s : State) (port) (off) (v) : Keeps s (State.augWrite s port off v) := by
  unfold State.augWrite
  exact Keeps.ite (State.exportWrite_keeps _ _ _) ((by split; exact State.augCtlWrite_keeps _ _ _; exact State.augDoorbell_keeps _ _ _; exact State.plainWrite_keeps _ _ _))

theorem State.assayWrite_keeps (s : State) (off) (v) : Keeps s (State.assayWrite s off v) := by
  unfold State.assayWrite
  exact Keeps.ite (State.scanCtlWrite_keeps _ _) ((by split; exact State.unitCfgWrite_keeps _ _ _; exact Keeps.ite (State.assayResync_keeps _ _) (Keeps.refl _); exact State.plainWrite_keeps _ _ _))

theorem State.meterGo_keeps (s : State) (op) : Keeps s (State.meterGo s op) := by
  unfold State.meterGo
  exact (by split; exact State.meterWrite_keeps _ _; exact State.meterWrite_keeps _ _; exact State.meterRead_keeps _)

theorem State.tblGo_keeps (s : State) (b) (op) : Keeps s (State.tblGo s b op) := by
  unfold State.tblGo
  exact (by split; exact State.tblWrite_keeps _ _; exact State.tblClear_keeps _ _; exact State.tblRead_keeps _ _)

theorem State.replGo_keeps (s : State) (op) : Keeps s (State.replGo s op) := by
  unfold State.replGo
  exact (by split; exact State.replWrite_keeps _; exact State.replClear_keeps _; exact State.replRead_keeps _)

theorem State.flowGo_keeps (s : State) (v) : Keeps s (State.flowGo s v) := by
  unfold State.flowGo
  exact (by split; exact State.flowQuantum_keeps _ _; exact State.flowZero_keeps _; exact State.flowRead_keeps _)

theorem State.clodGo_keeps (s : State) (v) : Keeps s (State.clodGo s v) := by
  unfold State.clodGo
  exact (by split; exact State.clodWrite_keeps _ _ _; exact State.clodWrite_keeps _ _ _; exact State.clodRead_keeps _)

theorem State.schedWrite_keeps (s : State) (off) (v) : Keeps s (State.schedWrite s off v) := by
  unfold State.schedWrite
  exact Keeps.ite (State.cmdWrite_keeps _ _ _ _ (fun _ => State.flowGo_keeps _ _)) (Keeps.ite (State.cmdWrite_keeps _ _ _ _ (fun _ => State.clodGo_keeps _ _)) (Keeps.ite (State.cmdWrite_keeps _ _ _ _ (fun _ => State.replGo_keeps _ _)) ((by split; exact (by split; exact State.shWrite_keeps _ _ _ _; exact State.plainWrite_keeps _ _ _); exact State.plainWrite_keeps _ _ _))))

theorem State.minVersionWrite_keeps (s : State) (port) (v) : Keeps s (State.minVersionWrite s port v) := by
  unfold State.minVersionWrite
  exact Keeps.ite (Keeps.refl _) (State.lk_keeps _ _ _ _ _ (fun _ => Keeps.ite (Keeps.refl _) (State.wr_keeps _ _ _)))

theorem State.tilthWrite_keeps (s : State) (port) (off) (v) : Keeps s (State.tilthWrite s port off v) := by
  unfold State.tilthWrite
  exact Keeps.ite (State.loadCtlWrite_keeps _ _ _) (Keeps.ite (State.loadDataWrite_keeps _ _ _) (Keeps.ite (State.minVersionWrite_keeps _ _ _) ((by split; exact State.roleCtlWrite_keeps _ _ _; exact State.plainWrite_keeps _ _ _))))

theorem State.telCtlWrite_keeps (s : State) (v) : Keeps s (State.telCtlWrite s v) := by
  unfold State.telCtlWrite
  exact Keeps.cut (fun h1 => Keeps.ite ((h1).trans (State.telMod_keeps _ _)) (h1)) (State.plainWrite_keeps _ _ _)

theorem State.archCfgWrite_keeps (s : State) (v) : Keeps s (State.archCfgWrite s v) := by
  unfold State.archCfgWrite
  exact Keeps.cut (fun h1 => (h1).trans (State.telMod_keeps _ _)) (State.plainWrite_keeps _ _ _)

theorem State.laneWrite_keeps (s : State) (base) (r) (v) : Keeps s (State.laneWrite s base r v) := by
  unfold State.laneWrite
  exact Keeps.ite (State.laneCtlWrite_keeps _ _ _) (Keeps.ite (State.boardWrite_keeps _ _ _ _) (Keeps.ite
    (State.prbsCtlWrite_keeps _ _ _) (Keeps.ite (State.prbsInjWrite_keeps _ _ _) (State.plainWrite_keeps _ _ _))))

theorem State.pipeStatusWrite_keeps (s : State) (b) (v) : Keeps s (State.pipeStatusWrite s b v) := by
  unfold State.pipeStatusWrite
  exact Keeps.foldl (State.plainWrite_keeps _ _ _) (fun _ _ => State.setTrial_keeps _ _ _ _)

theorem State.gateShWrite_keeps (s : State) (b) (p) (off) (v) : Keeps s (State.gateShWrite s b p off v) := by
  unfold State.gateShWrite
  exact Keeps.ite (State.shadowListRefused_keeps _ _ _) (State.plainWrite_keeps _ _ _)

theorem State.bedWrite_keeps (s : State) (b) (off) (v) : Keeps s (State.bedWrite s b off v) := by
  unfold State.bedWrite
  exact Keeps.ite (State.pipeMapWrite_keeps _ _ _) (Keeps.ite (State.parseCtlWrite_keeps _ _ _) (Keeps.ite (State.pipeStatusWrite_keeps _ _ _) (Keeps.ite (State.meshCtlWrite_keeps _ _ _) (Keeps.ite (State.cmdWrite_keeps _ _ _ _ (fun _ => State.tblGo_keeps _ _ _)) (Keeps.ite (State.rewCtlWrite_keeps _ _ _) (Keeps.ite ((State.plainWrite_keeps _ _ _).trans (State.meterHostWrite_keeps _ _ _ _)) (Keeps.ite ((State.plainWrite_keeps _ _ _).trans (State.meterHostWrite_keeps _ _ _ _)) (Keeps.ite (State.cmdWrite_keeps _ _ _ _ (fun _ => Keeps.ite (State.gateListWrite_keeps _ _) (State.gateListRead_keeps _ _))) ((by split; exact State.formWrite_keeps _ _ _ _; exact State.mmCtlWrite_keeps _ _ _ _; exact (by split; exact State.shWrite_keeps _ _ _ _; exact State.plainWrite_keeps _ _ _); exact Keeps.ite (State.gateCtlWrite_keeps _ _ _ _) (Keeps.ite (State.gateShWrite_keeps _ _ _ _ _) (State.plainWrite_keeps _ _ _)); exact Keeps.ite (State.snap_keeps _ _ _) (Keeps.ite (State.snap_keeps _ _ _) (Keeps.refl _)); exact State.tsqWrite_keeps _ _ _ _; exact State.plainWrite_keeps _ _ _))))))))))

theorem State.restWrite_keeps (s : State) (off) (v) : Keeps s (State.restWrite s off v) := by
  unfold State.restWrite
  exact Keeps.ite (State.cmdWrite_keeps _ _ _ _ (fun _ => State.meterGo_keeps _ _)) (Keeps.ite (State.harmAck_keeps _ _) (Keeps.ite (State.telCtlWrite_keeps _ _) (Keeps.ite (State.archCfgWrite_keeps _ _) (Keeps.ite (State.mdioWrite_keeps _ _) (Keeps.ite (Keeps.ite (State.snap_keeps _ _ _) (Keeps.ite (State.snap_keeps _ _ _) (Keeps.refl _))) (Keeps.ite (State.swapCtlWrite_keeps _ _) ((by split; exact State.siltCtlWrite_keeps _ _ _; exact State.plainWrite_keeps _ _ _))))))))

theorem State.regWrite_keeps (s : State) (port) (off) (v) : Keeps s (State.regWrite s port off v) := by
  unfold State.regWrite
  split
  · exact State.laneWrite_keeps _ _ _ _
  · exact Keeps.refl _
  · refine Keeps.ite (State.lowWrite_keeps _ _ _ _) (Keeps.ite (State.timeWrite_keeps _ _ _ _)
      (Keeps.ite (State.ringWrite_keeps _ _ _) (Keeps.ite (State.augWrite_keeps _ _ _ _)
        (Keeps.ite (State.assayWrite_keeps _ _ _) (Keeps.ite (State.schedWrite_keeps _ _ _)
          (Keeps.ite (State.tilthWrite_keeps _ _ _ _) ?_))))))
    split
    · exact State.bedWrite_keeps _ _ _ _
    · exact State.restWrite_keeps _ _ _

theorem execRegisterWrite_keeps (addr) (v) (be) (s : State) : KeepsO s (execRegisterWrite addr v be s) := by
  unfold execRegisterWrite
  exact KeepsO.ite (KeepsO.next (Keeps.ite (State.answer_keeps _ _ _) (Keeps.refl _))) (KeepsO.next (State.cfg_keeps _
    _ _ (fun _ => State.regWrite_keeps _ _ _ _)))

theorem execCounterWrite_keeps (addr) (v) (s : State) : KeepsO s (execCounterWrite addr v s) := by
  unfold execCounterWrite
  exact KeepsO.next (Keeps.ite (State.cfg_keeps _ _ _ (fun _ => State.regWrite_keeps _ _ _ _)) (Keeps.refl _))

theorem execEvtMaskClear_keeps (evt) (v) (s : State) : KeepsO s (execEvtMaskClear evt v s) := by
  unfold execEvtMaskClear
  exact KeepsO.next (Keeps.ite (State.cfg_keeps _ _ _ (fun _ => State.regWrite_keeps _ _ _ _)) (Keeps.refl _))

end Sys2Proof.Machine
end

