-- ==== Sys2Proof/Laws/KeepsDebug.lean ====
section
/-! SUPPORT. What each operation of Machine/Debug.lean keeps (Keeps). -/

namespace Sys2Proof.Machine

theorem State.dpSet_keeps (s : State) (a) (v) : Keeps s (State.dpSet s a v) := by
  unfold State.dpSet
  exact State.secMod_keeps _ _

theorem State.dpSets_keeps (s : State) (a) (u2) : Keeps s (State.dpSets s a u2) := by
  induction u2 generalizing s a with
  | nil => exact Keeps.refl _
  | cons w ws ih => exact (State.dpSet_keeps _ _ _).trans (ih _ _)

theorem execDpAccess_keeps (addr) (data) (s : State) : KeepsO s (execDpAccess addr data s) := by
  unfold execDpAccess
  exact KeepsO.ite (KeepsO.next (Keeps.refl _)) (KeepsO.ite (KeepsO.next (State.emit_keeps _ _)) (KeepsO.cut (fun h1
    => KeepsO.ite (KeepsO.next (((h1).trans (State.dpSet_keeps _ _ _)).trans (State.emit_keeps _ _))) (KeepsO.ite
    (KeepsO.next ((Keeps.ite (((h1).trans (State.regWrite_keeps _ _ _ _)).trans (State.writeThrough_keeps _ _ _))
    (h1)).trans (State.emit_keeps _ _))) (KeepsO.next ((((h1).trans (State.readEffect_keeps _ _)).trans
    (State.dpSet_keeps _ _ _)).trans (State.emit_keeps _ _))))) ((State.dpSet_keeps _ _ _).trans (State.dpSet_keeps _
    _ _))))

theorem State.freeWords_keeps (s : State) (u1) : Keeps s (State.freeWords s u1).2 := by
  induction u1 generalizing s with
  | zero => exact Keeps.refl _
  | succ n ih => exact (State.draw_keeps s).trans (ih _)

theorem State.memLine_keeps (s : State) (space) (addr) : Keeps s (State.memLine s space addr).2 := by
  unfold State.memLine
  dsimp only
  generalize (if s.sec.linesAt = s.memStamp then sget (fun _ => none) s.sec.lines (lineKey space addr) else none) = o
  cases o with
  | some ws => exact Keeps.refl _
  | none =>
    dsimp only
    split
    · exact Keeps.refl _
    · exact State.freeWords_keeps _ _

theorem State.memStore_keeps (s : State) (space) (addr) (ws) : Keeps s (State.memStore s space addr ws) := by
  unfold State.memStore
  exact State.secMod_keeps _ _

theorem State.grainSpoil_keeps (s : State) (space) (grain) : Keeps s (State.grainSpoil s space grain) := by
  unfold State.grainSpoil
  exact (by split; exact State.frameMod_keeps _ _ _; exact Keeps.refl _)

theorem State.memEnd_keeps (s : State) (ctl) (err) : Keeps s (State.memEnd s ctl err) := by
  unfold State.memEnd
  exact (State.dpSet_keeps _ _ _).trans (State.emit_keeps _ _)

theorem execDpMemAccess_keeps (addr64) (ctl) (data) (grain) (s : State) : KeepsO s (execDpMemAccess addr64 ctl data
  grain s) := by
  unfold execDpMemAccess
  exact KeepsO.ite (KeepsO.next (Keeps.refl _)) (KeepsO.ite (KeepsO.next (State.emit_keeps _ _)) (KeepsO.cut (fun h1
    => KeepsO.ite (KeepsO.next ((h1).trans (State.memEnd_keeps _ _ _))) (KeepsO.ite (KeepsO.ite (KeepsO.next
    ((h1).trans (State.memEnd_keeps _ _ _))) (KeepsO.next (((h1).trans (State.dpSets_keeps _ _ _)).trans
    (State.memEnd_keeps _ _ _)))) (KeepsO.ite (KeepsO.next ((h1).trans (State.memEnd_keeps _ _ _))) (KeepsO.ite
    (KeepsO.next ((((h1).trans (State.memStore_keeps _ _ _ _)).trans (State.grainSpoil_keeps _ _ _)).trans
    (State.memEnd_keeps _ _ _))) (KeepsO.matchP ((h1).trans (State.memLine_keeps _ _ _)) fun _ _ h2 => KeepsO.next
    (((h2).trans (State.dpSets_keeps _ _ _)).trans (State.memEnd_keeps _ _ _))))))) (((State.dpSet_keeps _ _ _).trans
    (State.dpSet_keeps _ _ _)).trans (State.dpSets_keeps _ _ _))))

end Sys2Proof.Machine
end

