-- ==== Sys2Proof/Laws/KeepsFabric.lean ====
section
/-! SUPPORT. What each operation of Machine/Fabric.lean keeps (Keeps). -/

namespace Sys2Proof.Machine

theorem State.onBed_keeps (s : State) (off) (f) (hf : ∀ x, Keeps x (f x)) : Keeps s (State.onBed s off f) := by
  unfold State.onBed
  exact (hf _).trans (State.writeThrough_keeps _ _ _)

theorem State.bedPulse_keeps (s : State) (b) (line) : Keeps s (State.bedPulse s b line) := by
  unfold State.bedPulse
  exact Keeps.ite (Keeps.refl _) (Keeps.cut (fun h1 => Keeps.cut (fun h2 => Keeps.foldl (h2) (fun _ _ => Keeps.ite
    (State.onBed_keeps _ _ _ (fun _ => State.gateCommitBy_keeps _ _ _ _)) (Keeps.refl _))) (Keeps.ite ((h1).trans
    (State.onBed_keeps _ _ _ (fun _ => State.rewCommitBy_keeps _ _ _))) (h1))) (Keeps.ite (State.onBed_keeps _ _ _
    (fun _ => State.meshCommitBy_keeps _ _ _)) (Keeps.refl _)))

theorem State.actPulse_keeps (s : State) (line) : Keeps s (State.actPulse s line) := by
  unfold State.actPulse
  exact Keeps.foldl (Keeps.refl _) (fun _ _ => State.actArm_keeps _ _)

theorem State.linePulse_keeps (s : State) (line) : Keeps s (State.linePulse s line) := by
  unfold State.linePulse
  exact Keeps.cut (fun h1 => Keeps.cut (fun h2 => Keeps.cut (fun h3 => Keeps.cut (fun h4 => (h4).trans
    (State.tilthWake_keeps _ _)) (Keeps.ite ((h3).trans (State.scanGo_keeps _)) (h3))) (Keeps.foldl (h2) (fun _ _ =>
    Keeps.ite (State.pairSwitch_keeps _ _) (Keeps.refl _)))) ((h1).trans (State.actPulse_keeps _ _))) (Keeps.foldl
    (Keeps.refl _) (fun _ _ => State.bedPulse_keeps _ _ _))

theorem State.nudgePulse_keeps (s : State) (line) : Keeps s (State.nudgePulse s line) := by
  unfold State.nudgePulse
  exact Keeps.foldl (Keeps.refl _) (fun _ _ => Keeps.ite (State.nudge_keeps _ _) (Keeps.refl _))

theorem execFabricPulse_keeps (line) (s : State) : KeepsO s (execFabricPulse line s) := by
  unfold execFabricPulse
  exact KeepsO.ite (KeepsO.next (Keeps.refl _)) (KeepsO.cut (fun h1 => KeepsO.cut (fun h2 => KeepsO.next (Keeps.ite
    ((h2).trans (State.nudgePulse_keeps _ _)) (h2))) (Keeps.ite ((h1).trans (State.linePulse_keeps _ _)) (h1)))
    (Keeps.same rfl rfl rfl rfl rfl rfl rfl))

theorem execScanEntryEnd_keeps (data) (s : State) : KeepsO s (execScanEntryEnd data s) := by
  unfold execScanEntryEnd
  exact (by split; exact KeepsO.ite (KeepsO.next (Keeps.refl _)) (KeepsO.next ((State.scanJudge_keeps _ _ _).trans (State.scanNext_keeps _ _))); exact KeepsO.next (Keeps.refl _))

end Sys2Proof.Machine
end

