-- ==== Sys2Proof/Laws/Step.lean ====
section
/-! SUPPORT. The step: what it takes from the queue, and what its tick on an empty queue keeps. -/

namespace Sys2Proof.Machine

theorem step_nil {s : State} (h : s.pending = []) : step s = .next s.idleTick := by
  unfold step
  rw [h]

theorem step_cons {s : State} {c : Instr} {rest : List Instr} (h : s.pending = c :: rest) :
    step s = exec c { s with pending := rest } := by
  unfold step
  rw [h]

/-- After its clock has moved on, a tick keeps what every operation keeps. -/
theorem State.idleTick_keeps (s : State) : Keeps { s with now := s.now + 1 } s.idleTick := by
  have h : Keeps { s with now := s.now + 1 } ({ s with now := s.now + 1 } : State).prbsTick.gateTick :=
    (State.prbsTick_keeps _).trans (State.gateTick_keeps _)
  exact Keeps.ite (h.trans (State.timeTick_keeps _)) h

end Sys2Proof.Machine
end

