-- ==== Sys2Proof/WellFormed.lean ====
section
/-! DEFINITION. Which commands are well formed: those whose operands have the lengths that the spec gives what they carry.
Exec has a meaning for every command; a command that is not well formed is one that nothing outside the block can send. -/

namespace Sys2Proof

/-- What training asks of a lane names four DFE trims and six transmit taps (R84). -/
def EqAsk.wf (a : EqAsk) : Bool := a.dfe.length == 4 && a.fir.length == 6

/-- The operands of a command have the lengths of what they carry. -/
def Instr.wf : Instr → Bool
  | .portTrainDone _ _ asks | .reformDone _ _ asks => decide (asks.length ≤ 16) && asks.all EqAsk.wf
  | .siltStageDone _ _ asks | .siltStageTimeout _ _ asks => decide (asks.length ≤ 8) && asks.all EqAsk.wf
  | .safePoint _ _ _ record sets => record.length == 256 && sets.all fun e => e.2.wf
  | .pfcFrameReceive _ _ _ quanta => quanta.length == 8
  | .verdictReceive _ _ msg => msg.length == 32
  | .pipeParityError _ _ held => decide (held.length ≤ 7)
  | .doorbellRecordArrive _ words => words.length == 4
  | .txDescArrive _ descs => descs.all fun d => d.1.length == 8
  | .augDescArrive _ words index _ => words.length == 8 && decide (index.length ≤ 65536)
  | .augSourceRead _ read _ => decide (read.length ≤ 512)
  | .siltCapReceive _ words => words.length == 4
  | .moduleStatusReceive _ _ _ words => words.length == 3
  | .flitDiscard _ _ _ bytes => bytes.length == 268
  | .dpMemAccess _ _ data _ => data.length == 16
  | _ => true

end Sys2Proof
end

