-- ==== Sys2Proof/Tests/Slice0.lean ====
section
/-! SUPPORT. The model's own tests: commands that are not well formed, the spec's worked examples, single steps, and for every
statement with hypotheses a state and operands that meet them, clause by clause. -/

namespace Sys2Proof.Tests
open Sys2Proof.Machine

set_option Elab.async false

/-- The state a test starts from. -/
def start : State := { State.reset with now := 7 }

/-- Every island ON, the root PLL locked. -/
def up (s : State) : State :=
  let p := { s.pwr with pllOn := true, pllLocked := true, fusesSensed := true, porN := true, hostRstN := true, lineRstN := true }
  { s with pwr := { p with isl := (List.range 27).map (fun i => (i, IslandSt.on)), options := 31, links := 255, applied := [] } }

/-! ## Commands that are not well formed -/

/-- One ill-formed command for each check of `Instr.wf`. -/
theorem test_wf_refuses :
    (([ .portTrainDone 0 0 [{ ctle := 0, dfe := [], fir := [] }], .reformDone 0 0 (List.replicate 17 ⟨0, [0, 0, 0, 0], [0, 0, 0, 0, 0, 0]⟩),
      .siltStageDone 0 0 [⟨0, [0], []⟩], .siltStageTimeout 0 0 (List.replicate 9 ⟨0, [0, 0, 0, 0], [0, 0, 0, 0, 0, 0]⟩),
      .safePoint 0 0 0 [] [], .pfcFrameReceive 0 0 0 [1], .verdictReceive 0 0 [], .pipeParityError 0 0 (List.replicate 8 0),
      .doorbellRecordArrive (.tx 0) [1], .txDescArrive 0 [([], [])], .augDescArrive 0 [] [] false,
      .augSourceRead 0 (List.replicate 513 0) false, .siltCapReceive 0 [], .moduleStatusReceive 0 0 0 [], .flitDiscard 0 0 false [],
      .dpMemAccess 0 0 [] none ] : List Instr).all fun c => !c.wf) = true := by
  decide +kernel
theorem test_wf_accepts : Instr.wf (.verdictReceive 0 0 (List.replicate 32 0)) = true := by decide +kernel

/-! ## The spec's worked examples -/

/-- The MAC block of port 183 and of its bed's stand-in (chapter 02, worked example of R46). -/
theorem test_mac_windows : offMacCtl 11 7 = 0x1B27000 ∧ offMacCtl 16 7 = 0x2027000 := by decide

/-- The walk of a block without paired bases and with links L0 to L3 only (chapter 02, worked example of R59). -/
def smallBlock : State := { start with pwr := { start.pwr with options := 0x1D, links := 0x0F } }
theorem test_capability_walk : (List.range 12).map (fun i => smallBlock.view (if i = 0 then 0 else 0x10 + 0x10 * i)) =
    [0x08010001, 0x04010002, 0x04010003, 0x04010004, 0x04010005, 0x04020010, 0x04010020, 0x04010030, 0x04010031, 0x04010040,
      0x05020041, 0x0F] ∧ smallBlock.view 0x1C = 0x1D := by decide +kernel

/-- 437,500 counts of CK_HOST are out of range (chapter 03, worked example of R75). -/
theorem test_clock_monitor : ∃ t, exec (.clkMonWindowEnd 437500)
    { start with pwr := { start.pwr with monRun := some 20, monRan := true } } = .next t ∧ t.rd offClkMonCount = 0xC006ACFC :=
  ⟨_, rfl, by decide +kernel⟩

/-- Training of a lane with board CTLE 30 and CTLE_ADAPT 3 ends at 31 (chapter 04, worked example of R84). -/
theorem test_training_clips :
    ((start.wr (lnBoardEq (offLaneCtl 5 9)) 0x001E0300).laneTrain (offLaneCtl 5 9) ⟨40, [0, 0, 0, 0], [0, 0, 0, 63, 0, 0]⟩).rdf
      (lnEqNow (offLaneCtl 5 9)) 28 24 = 31 := by decide +kernel

/-- The bytes of 16-bit words, most significant first. -/
def netBytes (ws : List Nat) : List Byte := (ws.map fun w => beBytes 2 w).flatten

/-- A metering report in a GTP-U tunnel, of 152 bytes (chapter 06, worked example). -/
def report : List Byte := netBytes ([1, 2, 3, 4, 5, 6, 0x88A8, 0x0001, 0x8100, 0x0002, 0x0800,
    0x4500, 0x0082, 0x0001, 0x4000, 0x4011, 0x2668, 0x0A00, 0x0001, 0x0A00, 0x0002,
    0x0868, 0x0868, 0x006E, 0x0000, 0x34FF, 0x005E, 0x0000, 0x0001, 0x0000, 0x0085, 0x0100, 0x0000,
    0x4500, 0x0056, 0x1C46, 0x4000, 0x4011, 0x0027, 0x0A14, 0x0001, 0x0A14, 0x0A02, 0x0400, 0x0400, 0x0042, 0x0000]
    ++ List.replicate 29 0)
def resetParse : ParseCfg :=
  { tpidExtra := 0, mplsPayload := 0, geneveWalk := false, csum := true, vxlan := 4789, geneve := 6081, gtpu := 2152, opt := none }
theorem test_parse_report : (parseFrame resetParse report).words =
    [0x0010025E, 0x0C0C0400, 0x40160810, 0x9C32802A, 0x80564042, 0, 0, 0, 0] := by decide +kernel

/-- With 96 as the inner total length the code is 6 at entry 6 (the same example). -/
theorem test_parse_bad_length : (parseFrame resetParse (report.take 68 ++ beBytes 2 96 ++ report.drop 70)).words.headD 0 = 0x318E0242 := by
  decide +kernel

/-- Program 5 strips the tunnel, marks the inner packet and fixes its header checksum (chapter 07, worked example). -/
def program5 : List MicroOp := [microOp 0x71800000 0, microOp 0x13008100 0xB8, microOp 0x33040100 1, microOp 0 0]
theorem test_rewrite_report :
    (editFrame report (parseFrame resetParse report) (some program5) [] (fun _ => []) false).map
      (fun e => (e.bytes.length, beAt e.bytes 22 2, beAt e.bytes 30 2, beAt e.bytes 32 2)) = some (108, 0x45B8, 0x3F11, 0x006F) := by
  decide +kernel

/-- A yellow frame of 5 grains fails the class's static limit, a green one passes (chapter 08, worked example of R205). -/
def class3 : State :=
  (((start.wr (offAdmPclassStatic 40 3) 65536).wr (offAdmClassClodLimit 3) 0xFFFFFFFF).wr (offAdmClassFlowLimit 3)
    0xFFFFFFFF).setClassCount 40 3 49150
theorem test_static_limit :
    class3.limitTest { frame := 1, port := 40, cls := 3, clod := 0, flow := 0 } 5 1 true = some 3 ∧
      class3.limitTest { frame := 1, port := 40, cls := 3, clod := 0, flow := 0 } 5 0 true = none := by decide +kernel

/-- The buckets of clod 0x2_0007 after its first frame and at the commit of the new PIR and PBS (chapter 09, worked example). -/
def metering : Clod :=
  { cir := 0x80000, pir := 0x100000, cbs := 1500, pbs := 3000, tc := -120000, tp := -96000, en := true }
theorem test_clod_refill : ((metering.upTo 50000).tc, (metering.upTo 50000).tp) = (-95000, -46000) := by decide +kernel
theorem test_clod_commit :
    (((({ start with now := 200000 } : State).clodMod 0x20007 fun _ => metering).applyShadow
      (.clod 0x20007 [0x80000, 0x80000, 1500, 0x80000000 ||| 1000] false)).clod 0x20007).tp = -46000 := by decide +kernel

/-- The slew offset of the reset addend at 10 ppm (chapter 11, worked example of R286). -/
theorem test_slew_offset : slewShare 6871947674 10 true = 68719 := by decide

/-- A slot armed after its T fires at once, late, and moves on to the thirteenth period (chapter 11, worked example of R292). -/
def lateBase : State :=
  (start.tbMod 0 fun b => { b with val := (1000 * 1000000000 + 3100401) * nsUnit + 6 * nsUnit / 10 }).actMod 5
    fun a => { a with sec := 1000, ns := 0, period := 250000, w4 := 0xC000 }
theorem test_act_late : let a := (lateBase.actLate 5 (lateBase.tb 0).val).act 5
    (a.late, a.lateness, a.sec, a.ns, a.runs) = (true, 0x002F4EF1, 1000, 3250000, 1) := by decide +kernel

/-- CRC-16 of "123456789" (chapter 15, worked example). -/
theorem test_crc16 : crc { width := 16, poly := 0x1021, init := 0xFFFF, xorOut := 0, refIn := false, refOut := false }
    [0x31, 0x32, 0x33, 0x34, 0x35, 0x36, 0x37, 0x38, 0x39] = 0x29B1 := by decide +kernel

/-! ## Rules of one operation -/

/-- After 31 equal symbols a symbol of level 3 - v is inserted, and a 32nd equal one is an error (R394). -/
theorem test_stuffing : (stuff (List.replicate 31 2)).drop 30 = [2, 1] ∧ unstuff (List.replicate 32 2) = none := by decide +kernel

/-- The lifecycle of each value of T2, T1, T0 (R463). -/
theorem test_lifecycle : (List.range 8).map (fun i => lifecycleOf (BitVec.ofNat 3 i)) = [0, 1, 2, 2, 2, 2, 2, 2] := by decide

/-- A write of CLK.PLL's neighbour in a reserved region changes nothing and answers without an error (R44). -/
theorem test_reserved_write : ∃ t, exec (.registerWrite 0x5000 0xFFFFFFFF 0xF) (up start) = .next t ∧
    t = (up start).answer false 0 := ⟨_, rfl, by decide +kernel⟩

/-- A narrow write answers with an error and does nothing else (R5). -/
theorem test_narrow_write : ∃ t, exec (.registerWrite 0x1B27000 0xFFFFFFFF 0x3) (up start) = .next t ∧
    t = (up start).answer true 0 := ⟨_, rfl, by decide +kernel⟩

/-- A narrow or misaligned read answers with an error and does nothing else (R5). -/
theorem test_narrow_read : (up start).hostRead 0x1B27000 0x3 = (up start).answer true 0 ∧
    (up start).hostRead 0x1B27002 0xF = (up start).answer true 0 := by decide +kernel

/-- A block with only its host island ON: a write to the line side answers with an error (R45). -/
def hostOnly : State := { up start with pwr := { (up start).pwr with isl := [(0, .on)] } }
theorem test_line_down_write : ∃ t, exec (.registerWrite 0x1B27000 0 0xF) hostOnly = .next t ∧ t = hostOnly.answer true 0 :=
  ⟨_, rfl, by decide +kernel⟩

/-- BED16's lane region reaches no lane while BED16 serves no position (R47). -/
theorem test_lane_region : (start.laneReg 16 3, start.laneReg 5 3) = (none, some 0x1513000) := by decide +kernel

/-- A step on an empty queue moves the clock; a queued command runs first (assumption 1). -/
theorem test_idle_step : ∃ t, step start = .next t ∧ t.now = 8 := ⟨_, rfl, by decide +kernel⟩
theorem test_queued_step : ∃ t, step { start with pending := [.pllRelock], pwr := { start.pwr with pllOn := true, pllLocked := false } } =
    .next t ∧ t.pending = [] ∧ t.now = 7 := ⟨_, rfl, by decide +kernel⟩

/-! ## Witnesses: states and operands that meet the hypotheses of each statement

One theorem per statement with hypotheses, a conjunct per clause. The statements without hypotheses (ResetState,
EveryCommandAnswers, UnstuffUndoesStuff, GrainsRoundUp) need none. -/

def queued : State := { start with pending := [.pllRelock] }
theorem witness_StepRunsTheFrontCommand : queued.pending = .pllRelock :: [] := rfl
theorem witness_EmptyQueueTicks : (∃ s : State, s.pending = [] ∧ s.lineOn = true ∧ s.gates.ports.map (·.1) = [271] ∧
      s.rdb (offGateMon 16 15) 31 = false) ∧
    ∃ s : State, s.pending = [] ∧ s.lineOn = false ∧ s.gates.ports = [] :=
  ⟨⟨((up start).wrb (offGateMon 16 15) 31 false).gateMod 16 15 fun g => { g with passed := true }, by decide +kernel⟩, ⟨start, by decide +kernel⟩⟩
theorem witness_EveryStepKeepsRegsWf : start.regsWf ∧ start.steps ∧ queued.steps := ⟨by decide +kernel, ⟨_, rfl⟩, ⟨_, rfl⟩⟩
theorem witness_FusesNeverClear :
    ∃ s : State, s.steps ∧ s.pwr.life.getLsbD 2 = true ∧ s.pwr.revoked.getLsbD (8 * 1 + 7) = true :=
  ⟨{ start with pwr := { start.pwr with life := 4, revoked := 0x8000 } }, ⟨_, rfl⟩, by decide +kernel⟩
theorem witness_LockOutHolds :
    ∃ s : State, s.steps ∧ s.sec.fails ≤ 8 ∧ (s.sec.fails = 8 → s.sec.locked = true) ∧ s.sec.locked = true ∧ s.pending = [] :=
  ⟨{ start with sec := { start.sec with fails := 8, locked := true } }, ⟨_, rfl⟩, by decide +kernel⟩
theorem witness_LoadEngineInRange : ∃ s : State, s.steps ∧ s.tilth.load = some (25, []) :=
  ⟨{ start with tilth := { start.tilth with load := some (25, []) } }, ⟨_, rfl⟩, rfl⟩
theorem witness_StatCounterHalfAndWrap :
    (∃ (s : State) (i : Fin 64) (n : Nat), s.cnt (offStatCnt 16 15 i) < 2 ^ 47 ∧
      2 ^ 47 ≤ (s.stat 16 15 i n).cnt (offStatCnt 16 15 i) ∧ s.serves (offStatCnt 16 15 i) ∧ s.serves (offMgmtStatCnt i)) ∧
    (∃ (s : State) (i : Fin 64) (n : Nat), 2 ^ 48 ≤ s.cnt (offStatCnt 0 0 i) + n) ∧
    (∃ (s : State) (i : Fin 64) (n : Nat), s.cnt (offMgmtStatCnt i) < 2 ^ 47 ∧
      2 ^ 47 ≤ (s.mgmtStat i n).cnt (offMgmtStatCnt i)) ∧
    (∃ (s : State) (i : Fin 64) (n : Nat), 2 ^ 48 ≤ s.cnt (offMgmtStatCnt i) + n) ∧
    (∃ s : State, s.serves (offMgmtStatCnt 62) ∧ s.serves (offMgmtStatCnt 63)) :=
  ⟨⟨up start, 63, 2 ^ 47, by decide +kernel⟩, ⟨start, 0, 2 ^ 48, by decide +kernel⟩, ⟨start, 63, 2 ^ 47, by decide +kernel⟩,
    ⟨start, 0, 2 ^ 48, by decide +kernel⟩, ⟨up start, by decide +kernel⟩⟩
theorem witness_ReservedRegions :
    (∃ a : BitVec 26, 0x5000 ≤ a.toNat ∧ a.toNat < 0x100000) ∧ (∃ a : BitVec 26, 0x900000 ≤ a.toNat ∧ a.toNat < 0x1000000) ∧
    (∃ a : BitVec 26, 0x2100000 ≤ a.toNat ∧ a.toNat % 4 = 0) ∧ (up start).hostOn = true :=
  ⟨⟨0x5000, by decide⟩, ⟨0xFFFFFC, by decide⟩, ⟨0x3FFFFFC, by decide⟩, by decide +kernel⟩
theorem witness_MalformedCodeRaisesOnce :
    (∃ (s : State) (b : BedIx) (c : Fin 16), s.rdb (offParseMfSeen b) c = false) ∧
    (∃ (s : State) (b : BedIx) (c : Fin 16), s.rdb (offParseMfSeen b) c = true) :=
  ⟨⟨start, 16, 15, by decide +kernel⟩, ⟨start.wr (offParseMfSeen 0) 1, 0, 0, by decide +kernel⟩⟩
theorem witness_BoardPresetValidity :
    (∃ v : Word, firValid (firTaps 0 v) = false) ∧ (∃ v : Word, firValid (firTaps 0 v) = true) :=
  ⟨⟨64, by decide⟩, ⟨63, by decide⟩⟩
theorem witness_CommittedBucketSizesClip :
    (∃ (k : Clod) (ws : List Word), k.tc ≤ 16 * (fld 23 0 (ws.getD 2 0) : Int) ∧ ws.getD 1 0 ≠ 0xFFFFFFFF ∧
      k.tp ≤ 16 * (fld 23 0 (ws.getD 3 0) : Int) ∧ (start.clod 7).upTo start.cycle = k) ∧
    (∃ (k : Clod) (ws : List Word), 16 * (fld 23 0 (ws.getD 2 0) : Int) < k.tc ∧ ws.getD 1 0 ≠ 0xFFFFFFFF ∧
      16 * (fld 23 0 (ws.getD 3 0) : Int) < k.tp ∧
      ((start.clodMod 7 fun _ => { tc := 16, tp := 16, cbs := 1, pbs := 1 }).clod 7).upTo start.cycle = k) ∧
    (∃ ws : List Word, ws.getD 1 0 = 0xFFFFFFFF) :=
  ⟨⟨_, [0, 0, 0, 0], by decide +kernel, by decide, by decide +kernel, rfl⟩,
    ⟨_, [0, 0, 0, 0], by decide +kernel, by decide, by decide +kernel, rfl⟩, ⟨[0, 0xFFFFFFFF], rfl⟩⟩
theorem witness_AccessOutcomes :
    (∃ s : State, s.hostOn = false) ∧ (∃ (s : State) (a : BitVec 26), s.hostOn = true ∧ a.toNat % 4 ≠ 0) ∧
    (∃ (s : State) (a : BitVec 26), s.hostOn = true ∧ a.toNat % 4 = 0 ∧ s.present a.toNat = true ∧ s.reach a.toNat = false) ∧
    (∃ (s : State) (a : BitVec 26), s.hostOn = true ∧ a.toNat % 4 = 0 ∧ s.present a.toNat = false) ∧
    (∃ (s : State) (a : BitVec 26), s.serves a.toNat ∧ a.toNat % 4 = 0) :=
  ⟨⟨start, by decide +kernel⟩, ⟨up start, 0x3FFFFFF, by decide +kernel⟩, ⟨hostOnly, 0x1000000, by decide +kernel⟩,
    ⟨{ up start with pwr := { (up start).pwr with options := 0 } }, 0x180000, by decide +kernel⟩,
    ⟨up start, 0x1B27000, by decide +kernel⟩⟩
theorem witness_ResetsRestoreRegisters :
    (∃ (s : State) (off : Nat), off < 0x4000000 ∧ s.lineOn = true ∧ (homeOf off).isLine = true) ∧
    (∃ (s : State) (off : Nat), off < 0x4000000 ∧ s.hostOn = true ∧ s.pwr.fallow = false ∧ homeOf off = .host ∧ off ≠ offClkPll) :=
  ⟨⟨up start, 0x20FFFFC, by decide +kernel⟩, ⟨up start, 0x3FFFFFC, by decide +kernel⟩⟩

theorem witness_BedEventFrame : (Instr.remoteFaultChange 16 15 true).bedEvent = some 16 ∧
    (∃ s t : State, (∀ p, p < 16 → (s.mac (16 * 16 + p)).openTx = none) ∧ exec (.remoteFaultChange 16 15 true) s = .next t) ∧
    ∃ s t : State, ((s.mac 271).openTx).isSome = true ∧ exec (.remoteFaultChange 16 15 true) s = .next t :=
  ⟨rfl, ⟨up start, _, by decide +kernel, rfl⟩, ⟨{ up start with macs := [(271, { openTx := some { copy := 1, sent := 0, frags := 0, number := 0, minFrag := 64, ipg := 12 } })] }, _, rfl, rfl⟩⟩
theorem witness_TableFrame : (Instr.meshDrained 3).tableCommand = true ∧ ∃ t, exec (.meshDrained 3) (up start) = .next t :=
  ⟨rfl, ⟨_, rfl⟩⟩
theorem witness_SchedFrame : Instr.flowRead.schedCommand = true ∧ ∃ t, exec .flowRead (up start) = .next t := ⟨rfl, ⟨_, rfl⟩⟩
theorem witness_TimeFrame : (Instr.slewEnd 9).timeCommand = true ∧ ∃ t, exec (.slewEnd 9) (up start) = .next t := ⟨rfl, ⟨_, rfl⟩⟩
theorem witness_RingFrame : (Instr.nudge 0).ringCommand = true ∧ ∃ t, exec (.nudge 0) (up start) = .next t := ⟨rfl, ⟨_, rfl⟩⟩
theorem witness_AugerFrame : (Instr.augPause 31 0).augerCommand = true ∧ ∃ t, exec (.augPause 31 0) (up start) = .next t :=
  ⟨rfl, ⟨_, rfl⟩⟩
theorem witness_AssayFrame : (Instr.assayResync 15 0).assayCommand = true ∧ ∃ t, exec (.assayResync 15 0) (up start) = .next t :=
  ⟨rfl, ⟨_, rfl⟩⟩
theorem witness_SiltFrame : (Instr.siltCapSend 7).siltCommand = true ∧ ∃ t, exec (.siltCapSend 7) (up start) = .next t :=
  ⟨rfl, ⟨_, rfl⟩⟩
theorem witness_EngineFrame : (Instr.loadData 1).engineCommand = true ∧
    ∃ s t : State, s.tilth.load = some (25, []) ∧ exec (.loadData 1) s = .next t :=
  ⟨rfl, ⟨{ up start with tilth := { start.tilth with load := some (25, []) } }, _, rfl, rfl⟩⟩
theorem witness_HostSideFrame : (Instr.harmAck 1).serviceCommand = true ∧ Instr.mgmtBackoffEnd.mgmtCommand = true ∧
    (∃ t, exec (.harmAck 1) (up start) = .next t) ∧ ∃ t, exec .mgmtBackoffEnd (up start) = .next t := ⟨rfl, rfl, ⟨_, rfl⟩, ⟨_, rfl⟩⟩
theorem witness_TrafficFrame : (Instr.payloadMatchFinal 1).trafficCommand = true ∧
    ∃ t, exec (.payloadMatchFinal 1) (up start) = .next t := ⟨rfl, ⟨_, rfl⟩⟩

/-! ### Of the statements that cover every command -/

/-- A served role, a running timer, a swap at rest. -/
def sv (s : State) (r : Nat) : State := s.wrb (offRoleStatus r) 31 true
def tm (s : State) (t : Timer) : State := s.startTimer t 100
def pos (s : State) : State := s.wr offSwapStatus 0
def mx (n : Nat) (a b : Nat) : Nat := if n % 2 = 0 then a else b

def pst1 (s : State) (n : Nat) : State := ((s.wrf (offPortStatus 1 2) 31 28 n).wrf (offPortStatus 1 2) 3 0 6).wrf (offPortStatus 1 2) 7 4 2
def lit1 (s : State) : State := (List.range 16).foldl (fun s l => (((s.wrf (offLaneCtl 1 l) 1 0 0).wrb (lnStatus (offLaneCtl 1 l)) 0 true).laneLockAll (offLaneCtl 1 l)).laneMod (offLaneCtl 1 l) fun x => { x with out := false, trained := true }) s
def ru1 (s : State) : State := sv (pos (up s)) 1
def st1_5 : State := (fun s => lit1 (pst1 (ru1 s) 2)) start
def st1_7 : State := (fun s => lit1 (pst1 (ru1 s) 4)) start
theorem witness_PortBringUpAdvances :
    (∃ (s : State) (b : BedIx) (p : LocalIx) (v : Word), s.serves (offPortForm b p) ∧
      s.formOk b p (fld 3 0 v) (fld 7 4 v) = true) ∧
    (∃ (s : State) (b : BedIx) (p : LocalIx) (v : Word), s.serves (offPortForm b p) ∧
      s.formOk b p (fld 3 0 v) (fld 7 4 v) = true ∧ (fld 3 0 v ≠ s.pForm b p ∨ fld 7 4 v ≠ s.pFec b p) ∧
      s.roleServed b = true ∧ s.midStage b p = false) ∧
    (∃ (s : State) (b : BedIx) (p : LocalIx) (v : Word), s.serves (offPortForm b p) ∧
      s.formOk b p (fld 3 0 v) (fld 7 4 v) = false) ∧
    (∃ (s : State) (b : BedIx) (p : LocalIx), s.roleServed b = true ∧ s.pState b p = 1 ∧ s.allPowered b p = true) ∧
    (∃ (s : State) (b : BedIx) (p : LocalIx) (asks : List EqAsk), s.roleServed b = true ∧ s.pState b p = 2 ∧
      s.allPowered b p = true ∧ asks.length = formLanes (s.runForm b p)) ∧
    (∃ (s : State) (b : BedIx) (p : LocalIx) (skew : Nat), s.roleServed b = true ∧ s.pState b p = 3 ∧
      s.allPowered b p = true ∧ (s.allLanes b (s.runLanes b p) (fun base => (s.lane base).trained) = true) ∧
      (formLanes (s.runForm b p) = 1 ∨ skew ≤ 200)) ∧
    (∃ (s : State) (b : BedIx) (p : LocalIx) (form : BitVec 4) (fec : BitVec 4), s.roleServed b = true ∧ s.pState b p = 4 ∧
      s.allPowered b p = true ∧ s.allLocked b p = true ∧ s.exchangeMatch b p form fec = true) :=
  ⟨⟨(fun s => (ru1 s).wrf (offPortForm 1 3) 3 0 0 |>.wrf (offPortForm 1 0) 3 0 0 |>.wrf (offPortForm 1 1) 3 0 0) start, 1, 2,
      w32 ([0x21, 0x11, 0x01, 0x20, 0x10].getD (0 % 5) 0 + 16 * 0), by decide +kernel⟩,
    ⟨(fun s => (pst1 (ru1 s) (0 % 11)).wrf (offPortForm 1 3) 3 0 0 |>.wrf (offPortForm 1 0) 3 0 0 |>.wrf (offPortForm 1 1) 3 0 0) start,
      1, 2, w32 ([0x21, 0x11, 0x01, 0x20, 0x10].getD (0 % 5) 0 + 16 * 0), by decide +kernel⟩,
    ⟨(fun s => (ru1 s)) start, 1, 2, w32 (1 * 7919), by decide +kernel⟩,
    ⟨(fun s => lit1 (pst1 (ru1 s) 1)) start, 1, 2, by decide +kernel⟩,
    ⟨st1_5, 1, 2, List.replicate (formLanes (st1_5.runForm 1 2)) { ctle := 3, dfe := [1,2,3,4], fir := [0,0,0,40,0,0] },
      by decide +kernel⟩,
    ⟨(fun s => lit1 (pst1 (ru1 s) 3)) start, 1, 2, 0 * 3, by decide +kernel⟩,
    ⟨st1_7, 1, 2, BitVec.ofNat 4 (st1_7.runForm 1 2), BitVec.ofNat 4 (st1_7.runFec 1 2), by decide +kernel⟩⟩

def pst2 (s : State) (n : Nat) : State := ((s.wrf (offPortStatus 1 2) 31 28 n).wrf (offPortStatus 1 2) 3 0 6 |>.portMod 1 2 fun q => { q with form := 7, formChosen := 6, spanChosen := 2 }).wrf (offPortStatus 1 2) 7 4 2
def lit2 (s : State) : State := (List.range 16).foldl (fun s l => (((s.wrf (offLaneCtl 1 l) 1 0 0).wrb (lnStatus (offLaneCtl 1 l)) 0 true).laneLockAll (offLaneCtl 1 l)).laneMod (offLaneCtl 1 l) fun x => { x with out := false, trained := true }) s
def ru2 (s : State) : State := sv (pos (up s)) 1
def st2_4 : State := (fun s => lit2 ((pst2 (ru2 s) 8).wrb (offPortForm 1 2) 30 true)) start
def st2_5 : State := (fun s => lit2 ((pst2 (ru2 s) 8).portMod 1 2 fun q => { q with agreed := true })) start
theorem witness_PortLossAndRetry :
    (∃ (s : State) (b : BedIx) (p : LocalIx) (form : BitVec 4) (fec : BitVec 4), s.roleServed b = true ∧
      s.exchangeMatch b p form fec = false ∧ (s.pState b p = 4 ∨ s.reformAsks b p = true)) ∧
    (∃ (s : State) (b : BedIx) (p : LocalIx), s.roleServed b = true ∧ 1 ≤ s.pState b p ∧ s.pState b p ≤ 4 ∧
      s.timerOn (.portStage (16 * b.val + p.val)) = true) ∧
    (∃ (s : State) (b : BedIx) (p : LocalIx) (lost : BitVec 16) (l : LocalIx), lost.getLsbD l = true ∧ s.pState b p = 5 ∧
      l.val ∈ s.runLanes b p) ∧
    (∃ (s : State) (b : BedIx) (p : LocalIx) (form : BitVec 4) (fec : BitVec 4), s.roleServed b = true ∧
      s.reformAsks b p = true ∧ s.allPowered b p = true ∧ s.allLocked b p = true ∧ s.exchangeMatch b p form fec = true) ∧
    (∃ (s : State) (b : BedIx) (p : LocalIx) (asks : List EqAsk), s.roleServed b = true ∧ s.pState b p = 8 ∧
      s.allPowered b p = true ∧ asks.length = formLanes (s.runForm b p) ∧
      (s.rdb (offPortForm b p) 30 = false ∨ (s.port b p).agreed = true)) ∧
    (∃ (s : State) (b : BedIx) (p : LocalIx), s.roleServed b = true ∧ s.pState b p = 8 ∧
      s.timerOn (.reformLimit (16 * b.val + p.val)) = true) ∧
    (∃ (s : State) (b : BedIx) (p : LocalIx), s.roleServed b = true ∧ s.pState b p = 6 ∧
      s.timerOn (.gap (16 * b.val + p.val)) = true) ∧
    (∃ (s : State) (b : BedIx) (p : LocalIx), s.roleServed b = true ∧ s.pState b p = 10 ∧
      s.timerOn (.dormantWake (16 * b.val + p.val)) = true ∧ s.rdb (offPortForm b p) 31 = false) ∧
    (∃ (s : State) (b : BedIx) (l : LocalIx) (base : _), s.laneBase b l = some base ∧ (s.lane base).lost = true ∧
      s.mayRelock b l base = true) ∧
    (∃ (s : State) (b : BedIx) (p : LocalIx), s.timerOn (.faultHold (16 * b.val + p.val)) = true ∧
      s.rdf (offMacFault b p) 31 30 ≠ 0 ∧ (s.rdf (offPortForm b p) 27 26 = 0 ∨ s.rdf (offPortForm b p) 27 26 = 3)) :=
  ⟨⟨(fun s => pst2 (ru2 s) (4 + 0 % 2 * 4)) start, 1, 2, BitVec.ofNat 4 0, BitVec.ofNat 4 (0 / 16), by decide +kernel⟩,
    ⟨(fun s => tm (pst2 (ru2 s) (1 + 0 % 4)) (.portStage 18)) start, 1, 2, by decide +kernel⟩,
    ⟨(fun s => pst2 (ru2 s) 5) start, 1, 2, BitVec.ofNat 16 (0 * 4 + 4), 2, by decide +kernel⟩,
    ⟨st2_4, 1, 2, BitVec.ofNat 4 (st2_4.runForm 1 2), BitVec.ofNat 4 (st2_4.runFec 1 2), by decide +kernel⟩,
    ⟨st2_5, 1, 2, List.replicate (formLanes (st2_5.runForm 1 2)) { ctle := 3, dfe := [1,2,3,4], fir := [0,0,0,40,0,0] },
      by decide +kernel⟩,
    ⟨(fun s => tm (pst2 (ru2 s) 8) (.reformLimit 18)) start, 1, 2, by decide +kernel⟩,
    ⟨(fun s => tm (pst2 (ru2 s) 6) (.gap 18)) start, 1, 2, by decide +kernel⟩,
    ⟨(fun s => tm (pst2 (ru2 s) 10) (.dormantWake 18)) start, 1, 2, by decide +kernel⟩,
    ⟨(fun s => ((lit2 (pst2 (ru2 s) (0 % 11))).laneMod (offLaneCtl 1 3) fun l => { l with lost := true }).wrb (lnStatus (offLaneCtl 1 3)) 6 false) start,
      1, 3, offLaneCtl 1 3, by decide +kernel⟩,
    ⟨(fun s => tm (((ru2 s).wrf (offMacFault 1 2) 31 30 (1 + 0 % 2)).wrf (offPortForm 1 2) 27 26 (0 % 2 * 3)) (.faultHold 18)) start,
      1, 2, by decide +kernel⟩⟩

def li3 (n : Nat) : LaneId := if n % 2 = 0 then .net 1 2 else .silt (Fin.ofNat 64 n)
def lb3 (n : Nat) : Nat := if n % 2 = 0 then offLaneCtl 1 2 else 0x490000 + 0x1000 * (n % 64)
def nl3 (s : State) (n : Nat) : State := (((List.range 16).foldl (fun s p => s.wrf (offPortForm 1 p) 3 0 0) (pos (up s))).wrb (offSiltCtl (n % 64 / 8)) 31 false)
theorem witness_LaneCommandsAct :
    (∃ (s : State) (l : LaneId) (base : Nat) (v : Word), s.laneAt l = some base ∧ s.serves (laneWindow l) ∧ bit 31 v = false) ∧
    (∃ (s : State) (l : LaneId) (base : Nat) (v : Word), s.laneAt l = some base ∧ s.serves (laneWindow l) ∧ bit 31 v = false ∧
      s.laneOff base = true) ∧
    (∃ (s : State) (l : LaneId) (base : Nat) (v : Word), s.laneAt l = some base ∧ s.serves (laneWindow l) ∧ bit 31 v = false ∧
      s.laneSpanned base = true) ∧
    (∃ (s : State) (l : LaneId) (base : Nat) (v : Word), s.laneAt l = some base ∧ s.serves (laneWindow l) ∧ bit 31 v = false ∧
      s.laneSpanned base = false ∧ s.rdf base 1 0 ≠ 1) ∧
    (∃ (s : State) (l : LaneId) (base : Nat), s.laneAt l = some base ∧ s.serves (laneWindow l)) ∧
    (∃ (s : State) (l : LaneId) (base : Nat) (word : Fin 3), s.laneAt l = some base ∧
      s.serves (laneWindow l + (0x10 + 4 * word.val))) ∧
    (∃ (s : State) (l : LaneId) (base : Nat), s.laneAt l = some base ∧ s.serves (laneWindow l + 0x80)) ∧
    (∃ (s : State) (l : LaneId) (base : Nat), s.laneAt l = some base ∧ s.prbsRuns base = true) ∧
    (∃ (s : State) (l : LaneId) (base : Nat), s.laneAt l = some base ∧ s.prbsSync base = true) ∧
    (∃ (s : State) (l : LaneId) (base : Nat), s.laneAt l = some base ∧ s.injecting base = true ∧
      1000 * injEvery (s.rd (base + 0x84)) ≤ (s.lane base).injBits) :=
  ⟨⟨(fun s => pos (up s)) start, li3 0, lb3 0, w32 (0 * 987654321) &&& 0x7FFFFFFF, by decide +kernel⟩,
    ⟨(fun s => (pos (up s)).wrf (lb3 0) 1 0 (2 + 0 % 2)) start, li3 0, lb3 0, w32 (0 * 987654321) &&& 0x7FFFFFFF,
      by decide +kernel⟩,
    ⟨(fun s => ((pos (up s)).wrf (offPortForm 1 2) 3 0 1).wrb (offSiltCtl (0 % 64 / 8)) 31 true) start, li3 0, lb3 0,
      w32 (0 * 987654321) &&& 0x7FFFFFFF, by decide +kernel⟩,
    ⟨(fun s => (nl3 s 0).wrf (lb3 0) 1 0 (0 % 3 * 2)) start, li3 0, lb3 0, w32 (0 * 987654321) &&& 0x7FFFFFFF,
      by decide +kernel⟩,
    ⟨(fun s => pos (up s)) start, li3 0, lb3 0, by decide +kernel⟩,
    ⟨(fun s => pos (up s)) start, li3 0, lb3 0, Fin.ofNat 3 0, by decide +kernel⟩,
    ⟨(fun s => pos (up s)) start, li3 0, lb3 0, by decide +kernel⟩,
    ⟨(fun s => ((pos (up s)).wrb (lnStatus (lb3 0)) 7 true).wrb (lb3 0 + 0x80) 8 true) start, li3 0, lb3 0, by decide +kernel⟩,
    ⟨(fun s => (((pos (up s)).wrb (lnStatus (lb3 0)) 7 true).wrb (lb3 0 + 0x80) 8 true).wrb (lb3 0 + 0x90) 31 true) start,
      li3 0, lb3 0, by decide +kernel⟩,
    ⟨(fun s => (((pos (up s)).wrb (lnStatus (lb3 0)) 7 true).wrb (lb3 0 + 0x84) 31 true).wrf (lb3 0 + 0x84) 15 12 (1 + 0 % 15) |>.laneMod (lb3 0) fun x => { x with injBits := 10 ^ 16 }) start,
      li3 0, lb3 0, by decide +kernel⟩⟩

def act4 (s : State) : State := ((s.wrf (offPortStatus 1 2) 31 28 5).wrb (offMacCtl 1 2) 31 true).wrf (offMacFault 1 2) 31 30 0
theorem witness_PauseActs :
    (∃ (s : State) (b : BedIx) (p : LocalIx), s.macHears b p = true ∧ s.pActive b p = true ∧ s.rdb (offMacCtl b p) 31 = true ∧
      s.fcMode b p = 1) ∧
    (∃ (s : State) (b : BedIx) (p : LocalIx), s.macHears b p = true ∧ s.pActive b p = true ∧ s.rdb (offMacCtl b p) 31 = true ∧
      s.fcMode b p ≠ 1) ∧
    (∃ (s : State), s.hostOn = true ∧ s.rdb offMgmtCtl 31 = true ∧ s.rdb offMgmtCtl 25 = true ∧ s.rdb offMgmtCtl 21 = true ∧
      64 ≤ s.maxFrame mgmtMac) ∧
    (∃ (s : State) (b : BedIx) (p : LocalIx), s.macHears b p = true ∧ s.pActive b p = true ∧ s.rdb (offMacCtl b p) 31 = true ∧
      s.fcMode b p = 2) ∧
    (∃ (s : State) (m : MacId) (i : Fin 8), s.paused (macKey m) i = true) ∧
    (∃ (s : State) (b : BedIx) (p : LocalIx) (i : Fin 8), s.timerOn (.wdRun (16 * b.val + p.val) i) = true) ∧
    (∃ (s : State) (b : BedIx) (p : LocalIx) (i : Fin 8), s.timerOn (.wdHold (16 * b.val + p.val) i) = true) ∧
    (∃ (s : State) (bed : Option BedIx) (q : LocalIx) (m : Nat), m = macAt bed q ∧ s.macFc m ≠ 0 ∧ s.fcMay m = true ∧
      s.fcWanted m ≠ (s.mac m).signalled) ∧
    (∃ (s : State) (bed : Option BedIx) (q : LocalIx) (c : Fin 8) (m : Nat), m = macAt bed q ∧
      s.timerOn (.pauseRefresh m c) = true ∧ s.fcMay m = true ∧ (s.fcWanted m).getLsbD c = true) ∧
    (∃ (s : State) (b : BedIx) (p : LocalIx), s.pActive b p = true) :=
  ⟨⟨(fun s => (act4 (up s)).wrf (offMacCtl 1 2) 27 26 1) start, 1, 2, by decide +kernel⟩,
    ⟨(fun s => (act4 (up s)).wrf (offMacCtl 1 2) 27 26 (if 0 % 3 = 0 then 0 else 1 + 0 % 3)) start, 1, 2, by decide +kernel⟩,
    ⟨(fun s => ((up s).wr offMgmtCtl (0x82200000 ||| (s.rd offMgmtCtl)))) start, by decide +kernel⟩,
    ⟨(fun s => (act4 (up s)).wrf (offMacCtl 1 2) 27 26 2) start, 1, 2, by decide +kernel⟩,
    ⟨(fun s => ((act4 (up s)).startTimer (.pauseLeft 18 (0 % 8)) 5).startTimer (.pauseLeft 272 (0 % 8)) 5) start,
      (if 0 % 2 = 0 then .net 1 2 else .mgmt), Fin.ofNat 8 0, by decide +kernel⟩,
    ⟨(fun s => (act4 (up s)).startTimer (.wdRun 18 (0 % 8)) 5) start, 1, 2, Fin.ofNat 8 0, by decide +kernel⟩,
    ⟨(fun s => (act4 (up s)).startTimer (.wdHold 18 (0 % 8)) 5) start, 1, 2, Fin.ofNat 8 0, by decide +kernel⟩,
    ⟨(fun s => (((act4 (up s)).wrf (offMacCtl 1 2) 27 26 (1 + 0 % 2)).wrf (offAdmIngressCtl 18) 23 16 (0*77+1)).wrf (offMacFcMask 1 2) 23 16 255) start,
      some 1, 2, 18, by decide +kernel⟩,
    ⟨(fun s => ((((act4 (up s)).wrf (offMacCtl 1 2) 27 26 (1 + 0 % 2)).wrf (offAdmIngressCtl 18) 23 16 255).wrf (offMacFcMask 1 2) 23 16 255).startTimer (.pauseRefresh 18 (0%8)) 5) start,
      some 1, 2, Fin.ofNat 8 0, 18, by decide +kernel⟩,
    ⟨(fun s => act4 (up s)) start, 1, 2, by decide +kernel⟩⟩

def act5 (s : State) : State := ((s.wrf (offPortStatus 1 2) 31 28 5).wrb (offMacCtl 1 2) 31 true).wrf (offMacFault 1 2) 31 30 0
theorem witness_MergeAndSnapshotsAct :
    (∃ (s : State) (b : BedIx) (p : LocalIx), s.mmState b p = 0 ∧ s.rdb (offMacMmCtl b p) 31 = true ∧ s.pActive b p = true) ∧
    (∃ (s : State) (b : BedIx) (p : LocalIx), s.mmState b p = 1 ∧ s.pActive b p = true ∧ s.rdb (offMacCtl b p) 31 = true) ∧
    (∃ (s : State) (b : BedIx) (p : LocalIx), s.mmState b p = 1 ∧ s.timerOn (.mmVerify (16 * b.val + p.val)) = true ∧
      s.rdf (offMacMmStatus b p) 19 16 < max 1 (s.rdf (offMacMmCtl b p) 15 12)) ∧
    (∃ (s : State) (b : BedIx) (p : LocalIx), s.mmState b p = 1 ∧ s.timerOn (.mmVerify (16 * b.val + p.val)) = true ∧
      max 1 (s.rdf (offMacMmCtl b p) 15 12) ≤ s.rdf (offMacMmStatus b p) 19 16) ∧
    (∃ (s : State) (b : BedIx) (p : LocalIx) (v : Word), s.serves (offMacMmCtl b p) ∧ bit 31 v = true ∧ s.mmState b p = 3 ∧
      s.pActive b p = true) ∧
    (∃ (s : State) (b : BedIx) (p : LocalIx), s.pActive b p = true ∧ s.rdb (offMacCtl b p) 31 = true ∧
      s.rdb (offMacMmCtl b p) 31 = true ∧ s.rdf (offMacFault b p) 31 30 = 0) ∧
    (∃ (s : State) (m : MacId), s.serves (macStatBase (macKey m) + 0x400)) ∧
    (∃ (s : State) (m : MacId), s.serves (macStatBase (macKey m) + 0x400)) :=
  ⟨⟨(fun s => ((act5 (up s)).wrf (offMacMmStatus 1 2) 31 29 0).wrb (offMacMmCtl 1 2) 31 true) start, 1, 2, by decide +kernel⟩,
    ⟨(fun s => ((act5 (up s)).wrf (offMacMmStatus 1 2) 31 29 1)) start, 1, 2, by decide +kernel⟩,
    ⟨(fun s => (((up s).wrf (offMacMmStatus 1 2) 31 29 1).wrf (offMacMmStatus 1 2) 19 16 (0 % 6)).startTimer (.mmVerify 18) 5) start,
      1, 2, by decide +kernel⟩,
    ⟨(fun s => (((up s).wrf (offMacMmStatus 1 2) 31 29 1).wrf (offMacMmStatus 1 2) 19 16 (2 % 6 + 1)).startTimer (.mmVerify 18) 5) start,
      1, 2, by decide +kernel⟩,
    ⟨(fun s => ((act5 (up s)).wrf (offMacMmStatus 1 2) 31 29 3)) start, 1, 2, 0x80000000 + w32 (0*7777), by decide +kernel⟩,
    ⟨(fun s => (act5 (up s)).wrb (offMacMmCtl 1 2) 31 true) start, 1, 2, by decide +kernel⟩,
    ⟨(fun s => up s) start, if 0 % 2 = 0 then .net 1 2 else .mgmt, by decide +kernel⟩,
    ⟨(fun s => up s) start, if 0 % 2 = 0 then .net 1 2 else .mgmt, by decide +kernel⟩⟩

def fr6 (n : Nat) : List Byte := List.replicate 12 0xFF ++ [8, 0] ++ List.replicate (46 + n) 7
def mg6 (s : State) : State := ((up s).wrb offMgmtCtl 31 true)
def st6_11 : State := (fun s => { (s.wrb offWakeCtl 31 true) with pwr := { s.pwr with wakeArmed := true, wakeDeaf := false } }) start
theorem witness_ManagementPortActs :
    (∃ (s : State) (bytes : _), s.hostOn = true ∧ s.rdb offMgmtCtl 31 = true ∧ s.rxCode mgmtMac (bytes.length + 4) {} = 0 ∧
      beAt bytes 12 2 ≠ 0x8808 ∧ s.mgmtAccepts bytes = true ∧ s.lineOn = true ∧ s.posUsable (s.rdf offMgmtCtl 19 16) = true ∧
      s.mayTake { bytes := bytes, src := 258, pos := some (s.rdf offMgmtCtl 19 16) } = true) ∧
    (∃ (s : State) (bytes : _), s.hostOn = true ∧ s.rdb offMgmtCtl 31 = true ∧ s.rxCode mgmtMac (bytes.length + 4) {} = 0 ∧
      beAt bytes 12 2 ≠ 0x8808 ∧ s.mgmtAccepts bytes = false) ∧
    (∃ (s : State) (bits : Nat), s.halfDuplex = true ∧ s.mgmtSending = true ∧ 512 ≤ bits) ∧
    (∃ (s : State) (bits : Nat), s.halfDuplex = true ∧ s.mgmtSending = true ∧ bits < 512 ∧ s.mgmt.attempts ≠ 15) ∧
    (∃ (s : State) (bits : Nat), s.halfDuplex = true ∧ s.mgmtSending = true ∧ bits < 512 ∧ s.mgmt.attempts = 15) ∧
    (∃ (s : State), s.timerOn .backoff = true) ∧
    (∃ (s : State), s.timerOn .defer = true) ∧
    (∃ (s : State) (v : Word), s.serves offMdioCtl ∧ s.rdb offMdioCtl 30 = false ∧
      (bit 29 v = true ∨ fld 28 27 v = 1 ∨ fld 28 27 v = 2)) ∧
    (∃ (s : State) (v : Word), s.serves offMdioCtl ∧ s.rdb offMdioCtl 30 = false ∧ bit 29 v = false ∧
      (fld 28 27 v = 0 ∨ fld 28 27 v = 3)) ∧
    (∃ (s : State), s.timerOn .mdio = true) ∧
    (∃ (s : State) (frame : List Byte) (c : _), s.pwr.wakeArmed = true ∧ s.pwr.wakeDeaf = false ∧ s.wakeCause frame = some c) :=
  ⟨⟨(fun s => { ((((mg6 s).wrb offMgmtCtl 28 true).wr offSwapStatus 0).wr (offTierOcc 0 0) 0).wr (offTierOcc 0 4) 0 with harm := { s.harm with stale := [] }, frames := if 0 % 2 = 0 then [] else s.frames, adm := {} }) start,
      fr6 0, by decide +kernel⟩,
    ⟨(fun s => (mg6 s).wrf offMgmtCtl 28 26 0) start, fr6 0, by decide +kernel⟩,
    ⟨(fun s => (((up s).wrf offMgmtCtl 23 21 0).wrb offMgmtCtl 30 true).mgmtMod fun g => { g with txq := [fr6 0], backingOff := false, deferring := false }) start,
      512 + 0, by decide +kernel⟩,
    ⟨(fun s => (((up s).wrf offMgmtCtl 23 21 0).wrb offMgmtCtl 30 true).mgmtMod fun g => { g with txq := [fr6 0], backingOff := false, deferring := false }) start,
      0, by decide +kernel⟩,
    ⟨(fun s => (((up s).wrf offMgmtCtl 23 21 0).wrb offMgmtCtl 30 true).mgmtMod fun g => { g with attempts := 15, txq := [fr6 0], backingOff := false, deferring := false }) start,
      0, by decide +kernel⟩,
    ⟨(fun s => s.startTimer .backoff 4) start, by decide +kernel⟩,
    ⟨(fun s => s.startTimer .defer 4) start, by decide +kernel⟩,
    ⟨(fun s => (up s).wrb offMdioCtl 30 false) start, (if 0 = 0 then 0x08000000 else w32 (0 * 123456789)), by decide +kernel⟩,
    ⟨(fun s => (up s).wrb offMdioCtl 30 false) start, w32 (0 % 2 * 0x18000000 + 0), by decide +kernel⟩,
    ⟨(fun s => s.startTimer .mdio 3) start, by decide +kernel⟩,
    ⟨st6_11, (List.replicate 12 0 ++ List.replicate 6 0xFF ++ (List.replicate 16 st6_11.wakeAddr).flatten), 1,
      by decide +kernel⟩⟩

def act7 (s : State) : State := ((s.wrf (offPortStatus 1 2) 31 28 5).wrb (offMacCtl 1 2) 31 true).wrf (offMacFault 1 2) 31 30 0
def hear7 (s : State) : State := ((((act7 (up s)).wr offSwapStatus 0).wr offFenceBed 0).harmMod fun h => { h with stale := [] }).wrf (offMacCtl 1 2) 13 0 9216
def fr7 (n : Nat) : List Byte := List.replicate 12 0xFF ++ [8, 6] ++ List.replicate (46 + n) 7
def ip7 (n : Nat) : List Byte := List.replicate 12 0xFE ++ [8, 0] ++ [0x15] ++ List.replicate (45 + n) 7
def putF7 (s : State) (x : Frame) : State := s.setFrame 5 (some x)
def fx7 (n : Nat) : Frame := { bytes := if n % 2 = 0 then fr7 n else fr7 n, src := 18, pos := some 1, bed := 1, path := .window, refs := 1 }
def recW7 (s : State) : State := ((List.range 4).foldl (fun s i => (s.wrf (offMeshDefault 1 i 0) 31 28 3).wrf (offMeshDefault 1 i 0 + bankSpan) 31 28 3) s).meshMod fun m => { m with rules := [] }
def pc7 (n : Nat) (bs : List Byte) : List RxPiece := if n % 2 = 0 then [{ smd := .sfd, bytes := bs ++ ethFcs bs }] else
  let k := 60
  [{ smd := .start (Fin.ofNat 4 n), bytes := bs.take k ++ fragCrc (bs.take k) }, { smd := .cont (Fin.ofNat 4 n) 0, bytes := (bs.drop k) ++ ethFcs bs }]
def bad7 (n : Nat) : List RxPiece := if n % 3 = 0 then pc7 (n+1) (fr7 40) ++ [{ smd := .other, bytes := [] }] else [{ smd := .sfd, bytes := fr7 n ++ [1,2,3,4] }]
def hd7 (l : List RxPiece) : RxPiece := l.headD { smd := .other, bytes := [] }
theorem witness_ReceiveAndParseAct :
    (∃ (s : State) (b : BedIx) (p : LocalIx) (smd : Smd) (bytes : List Byte) (rest : List RxPiece) (pieces : _),
      pieces = ⟨smd, bytes⟩ :: rest ∧ s.macHears b p = true ∧ s.pActive b p = true ∧ heard pieces = true ∧
      piecesOk pieces = true ∧ fcsFails pieces = false ∧ s.rxCode (16 * b.val + p.val) ((joined pieces).length + 4) {} = 0 ∧
      beAt (joined pieces) 12 2 ≠ 0x8808 ∧ s.rdb (offMacCtl b p) 31 = true) ∧
    (∃ (s : State) (b : BedIx) (p : LocalIx) (smd : Smd) (bytes : List Byte) (rest : List RxPiece) (pieces : _),
      pieces = ⟨smd, bytes⟩ :: rest ∧ s.macHears b p = true ∧ s.pActive b p = true ∧ heard pieces = true ∧
      piecesOk pieces = true ∧ fcsFails pieces = false ∧ s.rxCode (16 * b.val + p.val) ((joined pieces).length + 4) {} = 0 ∧
      beAt (joined pieces) 12 2 ≠ 0x8808 ∧ s.rdb (offMacCtl b p) 31 = true ∧
      s.assayChecked (s.parseCfg b) (s.portNo (16 * b.val + p.val)) (joined pieces) = false ∧ s.beatRoom b = true ∧
      s.fifoBytes (s.portNo (16 * b.val + p.val)) = 0 ∧ s.rxOverrun b (joined pieces) = false) ∧
    (∃ (s : State) (b : BedIx) (p : LocalIx) (smd : Smd) (bytes : List Byte) (rest : List RxPiece) (pieces : _) (pcs : Bool),
      pieces = ⟨smd, bytes⟩ :: rest ∧ s.macHears b p = true ∧ s.pActive b p = true ∧ heard pieces = true ∧
      s.rxCode (16 * b.val + p.val) ((joined pieces).length + 4) { pcs := pcs, fcs := fcsFails pieces, mm := !piecesOk pieces } ≠ 0 ∧
      s.badGoes b p ((joined pieces).length + 4) = false) ∧
    (∃ (s : State) (b : BedIx) (p : LocalIx), s.macHears b p = true) ∧
    (∃ (s : State) (f : Nat) (pslot : Fin 4) (x : Frame), s.frame f = some x ∧ s.slot x.bed pslot ≠ 7 ∧ x.path = .window ∧
      x.pass = 0 ∧ (parseFrame (s.parseCfg x.bed) x.bytes).code = 0 ∧
      fld 31 28 ((s.meshLookup x.bed (s.meshBank x.bed) (s.passShape { x with parse := parseFrame (s.parseCfg x.bed) x.bytes }) (meshKey x.bytes (parseFrame (s.parseCfg x.bed) x.bytes) (s.passShape { x with parse := parseFrame (s.parseCfg x.bed) x.bytes }) (keySrc x.src) 0 x.groups)).2.2.getD 0 0) = 3) ∧
    (∃ (s : State) (f : Nat) (pslot : Fin 4) (x : Frame), s.frame f = some x ∧ s.slot x.bed pslot ≠ 7 ∧ x.path = .window ∧
      x.pass = 0 ∧ x.refs = 1 ∧ x.moving = none ∧ x.fetching = false ∧ x.mirror = none ∧
      (parseFrame (s.parseCfg x.bed) x.bytes).code ≠ 0 ∧ s.mfAction x.bed (parseFrame (s.parseCfg x.bed) x.bytes).code = 0) ∧
    (∃ (s : State) (f : Nat) (x : Frame), s.frame f = some x ∧ x.tail = true ∧ x.path ≠ .settle) ∧
    (∃ (s : State) (f : Nat) (x : Frame), s.frame f = some x ∧ x.path = .recirc ∧ x.bitmap = none) ∧
    (∃ (s : State) (b : BedIx) (v : Word), s.serves (offParsePipeMap b) ∧ s.pipeMapBad b (v &&& 0x00017777) = false) ∧
    (∃ (s : State) (b : BedIx) (v : Word), s.serves (offParsePipeMap b) ∧ s.pipeMapBad b (v &&& 0x00017777) = true) ∧
    (∃ (s : State) (b : BedIx) (f : Nat) (x : Frame), s.frame f = some x ∧ x.bed = b.val ∧ x.path = .window ∧ x.refs = 1 ∧
      x.moving = none ∧ x.fetching = false ∧ x.mirror = none) ∧
    (∃ (s : State) (b : BedIx) (pipe : Fin 5) (n : Nat), s.pipeTrial b pipe = some n ∧ 1024 ≤ n) :=
  ⟨⟨(fun s => hear7 s) start, 1, 2, (hd7 (pc7 0 (fr7 0))).smd, (hd7 (pc7 0 (fr7 0))).bytes, (pc7 0 (fr7 0)).tail,
      (pc7 0 (fr7 0)), by decide +kernel⟩,
    ⟨(fun s => { (((hear7 s).wr (offTierOcc 0 4) 0 |>.wr (offParsePipeMap 1) 0x3210).wr (offTierOcc 0 0) 0).wr (offTierOcc 0 0 + 4) 0 with frames := if 0 % 2 = 0 then [] else s.frames }) start,
      1, 2, (hd7 (pc7 0 (fr7 0))).smd, (hd7 (pc7 0 (fr7 0))).bytes, (pc7 0 (fr7 0)).tail, (pc7 0 (fr7 0)), by decide +kernel⟩,
    ⟨(fun s => (hear7 s).wrb (offMacCtl 1 2) 29 false) start, 1, 2, (hd7 (bad7 0)).smd, (hd7 (bad7 0)).bytes, (bad7 0).tail,
      bad7 0, (0 % 2 == 0), by decide +kernel⟩,
    ⟨(fun s => hear7 s) start, 1, 2, by decide +kernel⟩,
    ⟨(fun s => recW7 ((putF7 (up s) (fx7 0)).wr (offParsePipeMap 1) 0x3210)) start, 5, 0, fx7 0, by decide +kernel⟩,
    ⟨(fun s => ((putF7 (up s) {fx7 0 with bytes := ip7 0}).wr (offParsePipeMap 1) 0x3210).wr (offParseMfAction 1) 0) start, 5,
      0, {fx7 0 with bytes := ip7 0}, by decide +kernel⟩,
    ⟨(fun s => putF7 s {fx7 0 with tail := true}) start, 5, {fx7 0 with tail := true}, by decide +kernel⟩,
    ⟨(fun s => putF7 (up s) {fx7 0 with path := .recirc}) start, 5, {fx7 0 with path := .recirc}, by decide +kernel⟩,
    ⟨(fun s => ((up s).wr (offParsePipeStatus 1) 0).meshMod fun m => { m with trial := [] }) start, 1,
      (if 0 % 2 = 0 then 0x13210 else 0x4217), by decide +kernel⟩,
    ⟨(fun s => up s) start, 1, (if 0 % 2 = 0 then 0x13211 else 0x4257), by decide +kernel⟩,
    ⟨(fun s => putF7 (up s) (fx7 0)) start, 1, 5, fx7 0, by decide +kernel⟩,
    ⟨(fun s => s.setTrial 1 (0 % 5) (some (1024 + 0))) start, 1, Fin.ofNat 5 0, 1024 + 0, by decide +kernel⟩⟩

def fx8 (n : Nat) : Frame := { bytes := List.replicate (60 + n) 5, src := 18, pos := some 1, bed := 1, path := .handoff, handle := some (8192 + 7), refs := 1 + n % 2 }
def putF8 (s : State) (x : Frame) : State := s.setFrame 5 (some x)
def msg8 (n : Nat) (g : Nat) : List Byte := wordBytes ((List.range 8).map fun i => if i = 0 then w32 ((g * 8192 + 7) * 4096 + (n % 4) * 512 + n * 77 % 512) else w32 (n * 987654321))
def h18 : Handle := { frame := 5, chan := 2, sent := true }
theorem witness_HandoffActs :
    (∃ (s : State) (b : BedIx) (c : Fin 4) (k : Nat) (rest : List Nat) (h : Handle) (x : Frame), s.keyQueue b c = k :: rest ∧
      s.handle k = some h ∧ s.frame h.frame = some x ∧ s.mayCross (.key b c) 1 = true) ∧
    (∃ (s : State) (b : BedIx) (c : Fin 4) (msg : List Byte) (h : Handle),
      s.handle (8192 * b.val + fld 31 12 (msgWord msg 0) % 8192) = some h ∧
      s.slotGen (8192 * b.val + fld 31 12 (msgWord msg 0) % 8192) = fld 31 12 (msgWord msg 0) / 8192 ∧ h.chan = c.val ∧
      h.sent = true) ∧
    (∃ (s : State) (b : BedIx) (msg : List Byte), s.handle (8192 * b.val + fld 31 12 (msgWord msg 0) % 8192) = none) ∧
    (∃ (s : State) (b : BedIx) (slot : Fin 8192) (h : Handle), s.handle (8192 * b.val + slot.val) = some h ∧
      s.timerOn (.handoff (8192 * b.val + slot.val)) = true) ∧
    (∃ (s : State) (f : Nat) (x : Frame) (m : _), s.frame f = some x ∧ x.path = .repl ∧ x.fate = some (.verdict m)) ∧
    (∃ (s : State) (f : Nat) (m : Nat) (x : Frame), s.frame f = some x ∧ x.mirror = some m ∧ x.tail = false ∧ x.held = false ∧
      (x.path = .copies ∨ s.tailDrop x = false) ∧ badPort (s.rdf (offMirrorW0 x.bed m) 31 23) = true) ∧
    (∃ (s : State) (f : Nat) (m : Nat) (x : Frame), s.frame f = some x ∧ x.mirror = some m ∧ x.tail = false ∧ x.held = false ∧
      (x.path = .copies ∨ s.tailDrop x = false) ∧ badPort (s.rdf (offMirrorW0 x.bed m) 31 23) = false) ∧
    (∃ (s : State) (f : Nat) (x : Frame), s.frame f = some x ∧ x.path = .recirc ∧ x.tail = false ∧ x.held = false ∧
      x.spoiled = false ∧ s.mayCross (.recirculation (x.pos.getD 16)) x.window = true ∧
      (s.pmRuns x.bed x.src = false ∨ x.bitmap.isSome = true)) :=
  ⟨⟨(fun s => (((putF8 (pos (up s)) (fx8 0)).setKeyQueue 1 2 [8192+7,
      0]).setHandle (8192+7) (some h18)).meshMod fun m => { m with used := [(6, 10)] }) start, 1, 2, 8192 + 7, [0], h18,
      fx8 0, by decide +kernel⟩,
    ⟨(fun s => ((putF8 (up s) (fx8 0)).setHandle (8192+7) (some h18)).meshMod fun m => { m with gens := [(8192 + 7, 0 % 128)] }) start,
      1, 2, msg8 0 (0 % 128), h18, by decide +kernel⟩,
    ⟨(fun s => (s.setHandle (8192+7) none)) start, 1, msg8 0 3, by decide +kernel⟩,
    ⟨(fun s => tm ((putF8 (up s) (fx8 0)).setHandle (8192+7) (some h18)) (.handoff (8192+7))) start, 1, 7, h18,
      by decide +kernel⟩,
    ⟨(fun s => putF8 (up s) {fx8 0 with path := .repl, fate := some (.verdict (msg8 0 1)), group := w32 (0 % 4 * 65536 + 65536 + 0)}) start,
      5, {fx8 0 with path := .repl, fate := some (.verdict (msg8 0 1)), group := w32 (0 % 4 * 65536 + 65536 + 0)}, msg8 0 1,
      by decide +kernel⟩,
    ⟨(fun s => (putF8 (up s) {fx8 0 with mirror := some (0 % 4)}).wrf (offMirrorW0 1 (0 % 4)) 31 23 (if 0 % 2 = 0 then 257 else 300)) start,
      5, 0 % 4, {fx8 0 with mirror := some (0 % 4)}, by decide +kernel⟩,
    ⟨(fun s => (putF8 (up s) {fx8 0 with mirror := some (0 % 4)}).wrf (offMirrorW0 1 (0 % 4)) 31 23 (0 % 257)) start, 5,
      0 % 4, {fx8 0 with mirror := some (0 % 4)}, by decide +kernel⟩,
    ⟨(fun s => putF8 (pos (up { s with frames := [] })) {fx8 0 with path := .recirc, bitmap := some 0}) start, 5,
      {fx8 0 with path := .recirc, bitmap := some 0}, by decide +kernel⟩⟩

def rr9 (n : Nat) : MeshRule := { key := (List.range 12).map fun i => w32 (i * n + 3), mask := (List.range 12).map fun i => w32 (i * n + 4), act := (List.range 4).map fun i => w32 (i * n + 5), valid := n % 2 == 0, override := n % 3 == 0 }
theorem witness_CommitsAndRulesAct :
    (∃ (s : State) (b : BedIx), s.serves (offMeshCtl b) ∧ s.meshBusy b = false ∧
      (sget (fun _ => none) s.mesh.commits (2 * b.val) ≠ some (s.cycle, true))) ∧
    (∃ (s : State) (b : BedIx), s.serves (offMeshCtl b) ∧ s.meshBusy b = true ∧
      (sget (fun _ => none) s.mesh.commits (2 * b.val) ≠ some (s.cycle, true))) ∧
    (∃ (s : State) (b : BedIx), s.serves (offMeshCtl b) ∧ (sget (fun _ => none) s.mesh.commits (2 * b.val) = some (s.cycle,
      true))) ∧
    (∃ (s : State) (b : BedIx), s.meshBusy b = true ∧ s.oldInFlight b = 0) ∧
    (∃ (s : State) (b : BedIx) (r : _), s.serves (offMeshTblCmd b) ∧
      (s.rule (ruleKey b (if s.rdb (offMeshTblAddr b) 29 then s.meshBank b else 1 - s.meshBank b) (s.tblAddr b).1 (s.tblAddr b).2) = some r) ∧
      r.key.length = 12 ∧ r.mask.length = 12 ∧ r.act.length = 4) ∧
    (∃ (s : State) (b : BedIx), s.serves (offMeshTblCmd b) ∧
      (s.rule (ruleKey b (if s.rdb (offMeshTblAddr b) 29 then s.meshBank b else 1 - s.meshBank b) (s.tblAddr b).1 (s.tblAddr b).2) = none)) ∧
    (∃ (s : State) (b : BedIx), s.serves (offMeshTblCmd b) ∧ s.meshBusy b = false ∧ (s.tblAddr b).1 = 0 ∧
      (s.rdb (offMeshTblData b 28) 31 = false ∨ s.keySlot b (1 - s.meshBank b) ((s.tblAddr b).2 / 8192) (wordBytes (s.rds (offMeshTblData b 0) 12)) = (s.tblAddr b).2 % 8192)) ∧
    (∃ (s : State) (b : BedIx), s.serves (offMeshTblCmd b) ∧ (s.tblAddr b).1 = 0 ∧ s.rdb (offMeshTblData b 28) 31 = true ∧
      s.keySlot b (1 - s.meshBank b) ((s.tblAddr b).2 / 8192) (wordBytes (s.rds (offMeshTblData b 0) 12)) ≠ (s.tblAddr b).2 % 8192) ∧
    (∃ (s : State) (b : BedIx), s.serves (offMeshTblCmd b) ∧ s.meshBusy b = false ∧ (s.tblAddr b).1 = 1) ∧
    (∃ (s : State) (b : BedIx), s.serves (offMeshTblCmd b) ∧ s.meshBusy b = true) ∧
    (∃ (s : State) (b : BedIx), s.serves (offMeshTblCmd b) ∧ s.meshBusy b = false) ∧
    (∃ (s : State) (b : BedIx), s.serves (offMeshTblCmd b) ∧ s.meshBusy b = true) ∧
    (∃ (s : State) (b : BedIx), s.serves (offRewriteCtl b) ∧ s.rewBusy b = false ∧
      (sget (fun _ => none) s.mesh.commits (2 * b.val + 1) ≠ some (s.cycle, true))) ∧
    (∃ (s : State) (b : BedIx), s.serves (offRewriteCtl b) ∧ s.rewBusy b = true ∧
      (sget (fun _ => none) s.mesh.commits (2 * b.val + 1) ≠ some (s.cycle, true))) ∧
    (∃ (s : State) (b : BedIx), s.rewBusy b = true) :=
  ⟨⟨(fun s => (up s).wrb (offMeshEpoch 1) 22 false) start, 1, by decide +kernel⟩,
    ⟨(fun s => (up s).wrb (offMeshEpoch 1) 22 true) start, 1, by decide +kernel⟩,
    ⟨(fun s => (up s).meshMod fun m => { m with commits := [(2, some (s.cycle, true))] }) start, 1, by decide +kernel⟩,
    ⟨(fun s => ((up s).wrb (offMeshEpoch 1) 22 true).meshMod fun m => m) start, 1, by decide +kernel⟩,
    ⟨(fun s => (up s).setRule (ruleKey 1 (if s.rdb (offMeshTblAddr 1) 29 then s.meshBank 1 else 1 - s.meshBank 1) (s.tblAddr 1).1 (s.tblAddr 1).2) (some (rr9 0))) start,
      1, rr9 0, by decide +kernel⟩,
    ⟨(fun s => (up s).setRule (ruleKey 1 (if s.rdb (offMeshTblAddr 1) 29 then s.meshBank 1 else 1 - s.meshBank 1) (s.tblAddr 1).1 (s.tblAddr 1).2) none) start,
      1, by decide +kernel⟩,
    ⟨(fun s => (((up s).wrb (offMeshEpoch 1) 22 false).wrf (offMeshTblAddr 1) 31 30 0).wrb (offMeshTblData 1 28) 31 false) start,
      1, by decide +kernel⟩,
    ⟨(fun s => ((up s).wrf (offMeshTblAddr 1) 31 30 0).wrb (offMeshTblData 1 28) 31 true) start, 1, by decide +kernel⟩,
    ⟨(fun s => ((up s).wrb (offMeshEpoch 1) 22 false).wrf (offMeshTblAddr 1) 31 30 1) start, 1, by decide +kernel⟩,
    ⟨(fun s => ((up s).wrb (offMeshEpoch 1) 22 true)) start, 1, by decide +kernel⟩,
    ⟨(fun s => ((up s).wrb (offMeshEpoch 1) 22 false)) start, 1, by decide +kernel⟩,
    ⟨(fun s => ((up s).wrb (offMeshEpoch 1) 22 true)) start, 1, by decide +kernel⟩,
    ⟨(fun s => ((up s).wrb (offRewriteCtl 1) 14 false).meshMod fun m => { m with lastEdit := [(1, some (s.now - 0 % 60))] }) start,
      1, by decide +kernel⟩,
    ⟨(fun s => ((up s).wrb (offRewriteCtl 1) 14 true)) start, 1, by decide +kernel⟩,
    ⟨(fun s => ((up s).wrb (offRewriteCtl 1) 14 true)) start, 1, by decide +kernel⟩⟩

theorem witness_ReplicationAndMetersAct :
    (∃ (s : State), s.serves offReplCmd ∧ s.replAddr.1 = false) ∧
    (∃ (s : State), s.serves offReplCmd ∧ s.replAddr.1 = true ∧ (s.replMember s.replAddr.2).length = 3) ∧
    (∃ (s : State), s.serves offReplCmd ∧ s.replAddr.1 = false) ∧
    (∃ (s : State), s.serves offReplCmd ∧ s.replAddr.1 = true) ∧
    (∃ (s : State), s.serves offReplCmd ∧ s.replAddr.1 = false) ∧
    (∃ (s : State), s.serves offReplCmd ∧ s.replAddr.1 = true) ∧
    (∃ (s : State), s.serves offMeterCmd) ∧
    (∃ (s : State), s.serves offMeterCmd) ∧
    (∃ (s : State), s.serves offMeterCmd) ∧
    (∃ (s : State), s.lineOn = true) :=
  ⟨⟨(fun s => (up s).wrb offReplAddr 31 false) start, by decide +kernel⟩,
    ⟨(fun s => ((up s).wrb offReplAddr 31 true).setMember (s.rdf offReplAddr 15 0) [1, w32 0, 3]) start, by decide +kernel⟩,
    ⟨(fun s => (up s).wrb offReplAddr 31 false) start, by decide +kernel⟩,
    ⟨(fun s => (up s).wrb offReplAddr 31 true) start, by decide +kernel⟩,
    ⟨(fun s => ((up s).wrb offReplAddr 31 false).setGroup (s.rdf offReplAddr 15 0) 0xFFFFFFFF) start, by decide +kernel⟩,
    ⟨(fun s => (up s).wrb offReplAddr 31 true) start, by decide +kernel⟩,
    ⟨(fun s => (up s).setMeter s.meterId { cir := 0 * 1000, cbs := 0 * 8, tc := 0, pbs := 5 }) start, by decide +kernel⟩,
    ⟨(fun s => (up s).setMeter s.meterId { cir := 0 * 1000, cbs := 0 * 8, tc := 0, pbs := 5 }) start, by decide +kernel⟩,
    ⟨(fun s => (up s).setMeter s.meterId { cir := 0 * 1000, cbs := 0 * 8, tc := 0, pbs := 5 }) start, by decide +kernel⟩,
    ⟨(fun s => (up s).setMeter 0 { cir := 0 * 1000, cbs := 0 * 8, tc := 0, pbs := 5 }) start, by decide +kernel⟩⟩

def q111 (s : State) (_n : Nat) (x : Frame) : State :=
  let s := { s with copies := [(6, some { frame := 5, port := 18, cls := 2, clod := 65536 + 1, flow := 9, stage := .queued })] }
  let s := { s with sched := { s.sched with flows := [(9, { q := [6], port := 18, cls := 2, clod := 65537 })] } }
  (s.setFrame 5 (some x))
def big11 (s : State) (n : Nat) (x : Frame) : State :=
  let s := q111 s n x
  let s := s.setFrame 4 (some { bytes := List.replicate (129 * 256) 0, src := 3 })
  let s : State := { s with copies := s.copies ++ [(7, some { frame := 4, port := 18, cls := 2, clod := 65537, flow := 9, stage := .queued })] }
  let s : State := { s with sched := { s.sched with flows := [(9, { q := [7, 6], port := 18, cls := 2, clod := 65537 })] } }
  s.wr offTierPrefetchAhead 0
def fx11 (n : Nat) : Frame := { bytes := List.replicate (60 + n) 5, src := 18, pos := some 1, bed := 1, path := .copies, refs := 1, dest := 1 }
theorem witness_TierMoverActs :
    (∃ (s : State) (f : Nat) (x : Frame) (link : Fin 8) (u : Nat), s.frame f = some x ∧ x.movePending = true ∧
      s.moveTurn f x = true ∧ x.refs ≤ 1 ∧ x.spoiled = false ∧ s.nearFront f = false ∧ s.moveUnit x link = some u) ∧
    (∃ (s : State) (f : Nat) (x : Frame), s.frame f = some x ∧ x.movePending = true ∧ s.moveTurn f x = true ∧
      (1 < x.refs ∨ s.nearFront f = true)) ∧
    (∃ (s : State) (f : Nat) (x : Frame) (u : Nat), s.frame f = some x ∧ x.moving = some u ∧ u < 8 ∧ x.refs ≠ 0 ∧
      x.held = false ∧ s.isQueued f = true ∧ s.nearFront f = false) ∧
    (∃ (s : State) (f : Nat) (x : Frame) (u : Nat), s.frame f = some x ∧ x.moving = some u ∧ u < 8 ∧ x.refs ≠ 0 ∧
      s.isQueued f = true ∧ s.nearFront f = true) ∧
    (∃ (s : State) (f : Nat) (x : Frame), s.frame f = some x ∧ s.mayFetch f x = true) ∧
    (∃ (s : State) (f : Nat) (x : Frame), s.frame f = some x ∧ x.fetching = true ∧ x.tier = 1 ∧ x.refs ≠ 0 ∧
      x.spoiled = false) :=
  ⟨⟨(fun s => { big11 (up s) 0 (fx11 0) with adm := { s.adm with nextStack := 3, spilling := [] } }) start, 5, fx11 0, 0, 3,
      by decide +kernel⟩,
    ⟨(fun s => q111 (up s) 0 {fx11 0 with refs := 1 + 0 % 2}) start, 5, {fx11 0 with refs := 1 + 0 % 2}, by decide +kernel⟩,
    ⟨(fun s => big11 (up s) 0 {fx11 0 with moving := some (0 % 8), refs := 1 + 0 % 2}) start, 5,
      {fx11 0 with moving := some (0 % 8), refs := 1 + 0 % 2}, 0 % 8, by decide +kernel⟩,
    ⟨(fun s => (q111 (up s) 0 {fx11 0 with moving := some (0 % 8), refs := 1 + 0 % 2}).wr offTierPrefetchAhead 4) start, 5,
      {fx11 0 with moving := some (0 % 8), refs := 1 + 0 % 2}, 0 % 8, by decide +kernel⟩,
    ⟨(fun s => ((({ q111 (up s) 0 {fx11 0 with tier := 1, unit := 0 % 8} with adm := { s.adm with fetching := [] } }).wr (offTierOcc 0 0) 0).wr (offTierOcc 0 0 + 4) 0)) start,
      5, {fx11 0 with tier := 1, unit := 0 % 8}, by decide +kernel⟩,
    ⟨(fun s => q111 (up s) 0 {fx11 0 with tier := 1, unit := 0 % 8, fetching := true, refs := 1 + 0 % 3}) start, 5,
      {fx11 0 with tier := 1, unit := 0 % 8, fetching := true, refs := 1 + 0 % 3}, by decide +kernel⟩⟩

def fx12 (n : Nat) : Frame := { bytes := List.replicate (60 + n) 5, src := 18, pos := some 1, bed := 1, path := .copies, refs := 1 + n % 2}
def cp12 (n : Nat) : Copy := { frame := 5, port := mx (n / 2) 18 256, cls := 2, clod := 65536 + 1, flow := 9 }
def one12 (s : State) (n : Nat) : State := { (s.setFrame 5 (some (fx12 n))) with copies := [(6, some (cp12 n))] }
theorem witness_QueuesAndRecordsAct :
    (∃ (s : State) (c : Nat) (x : Copy), s.copy c = some x ∧ s.mayEnqueue x = true ∧
      s.mayCross (.enqueue (portPos x.port)) 1 = true ∧ s.bindTest x = none) ∧
    (∃ (s : State) (c : Nat) (x : Copy) (cause : Nat), s.copy c = some x ∧ s.mayEnqueue x = true ∧
      s.mayCross (.enqueue (portPos x.port)) 1 = true ∧ s.bindTest x = some cause) ∧
    (∃ (s : State) (b : BedIx) (p : LocalIx) (r : Fin 19), s.serves (schedIdBase (.net b p) + shOff r)) ∧
    (∃ (s : State) (q : Fin 2) (r : Fin 19), s.serves (schedIdBase (.host q) + shOff r)) ∧
    (∃ (s : State) (p : SchedId), s.lineOn = true ∧ s.rdb (schedIdBase p + shGen) 31 = false ∧
      s.rdb (schedIdBase p + shGen) 30 = true) ∧
    (∃ (s : State), s.serves offFlowCmd ∧ s.schedReady = true) ∧
    (∃ (s : State) (hport : BitVec 9), s.serves offFlowCmd ∧ s.schedReady = true ∧ isPort hport.toNat = true ∧
      ((s.flow s.flowId).q = [] ∨ portPos (s.flow s.flowId).port = portPos hport.toNat) ∧
      ((s.sched.indirect.filter fun e => portPos e.1 == portPos hport.toNat).length < 1024)) ∧
    (∃ (s : State), s.serves offFlowCmd ∧ s.schedReady = true) ∧
    (∃ (s : State), s.serves offClodCmd ∧ s.schedReady = true) ∧
    (∃ (s : State) (hport : BitVec 9), s.serves offClodCmd ∧ s.schedReady = true ∧ isPort hport.toNat = true ∧
      s.clodId / 65536 = portPos hport.toNat ∧
      ((s.sched.indirect.filter fun e => portPos e.1 == portPos hport.toNat).length < 1024)) ∧
    (∃ (s : State) (hport : BitVec 9), s.serves offClodCmd ∧ s.schedReady = true ∧ isPort hport.toNat = true ∧
      s.clodId / 65536 = portPos hport.toNat ∧
      ((s.sched.indirect.filter fun e => portPos e.1 == portPos hport.toNat).length < 1024)) ∧
    (∃ (s : State) (hport : BitVec 9), s.serves offClodCmd ∧ s.schedReady = true ∧ isPort hport.toNat = true ∧
      s.clodId / 65536 = portPos hport.toNat ∧
      (1024 ≤ (s.sched.indirect.filter fun e => portPos e.1 == portPos hport.toNat).length)) ∧
    (∃ (s : State), s.serves offFlowCmd ∧ s.schedReady = false) ∧
    (∃ (s : State), s.lineOn = true ∧ s.schedReady = false ∧ s.timerOn .schedInit = false) ∧
    (∃ (s : State), s.timerOn .schedInit = true) :=
  ⟨⟨(fun s => (pos (one12 (up s) 0)).wrb offSchedInit 31 true) start, 6, cp12 0, by decide +kernel⟩,
    ⟨(fun s => (({ ((pos (up s)).setFrame 5 (some (fx12 0))) with copies := [(6, some {cp12 0 with clod := if 0 % 2 = 0 then 77 else 65537, port := 18})] }).wrb offSchedInit 31 false).flowMod 9 fun f => { f with q := [] }) start,
      6, {cp12 0 with clod := if 0 % 2 = 0 then 77 else 65537, port := 18}, (if 0 % 2 = 0 then 1 else 2), by decide +kernel⟩,
    ⟨(fun s => up s) start, 1, 2, Fin.ofNat 19 0, by decide +kernel⟩,
    ⟨(fun s => up s) start, Fin.ofNat 2 0, Fin.ofNat 19 (0 / 2), by decide +kernel⟩,
    ⟨(fun s => ((((up s).wrf (schedIdBase (if 0 % 3 = 0 then .net 1 2 else .host (Fin.ofNat 2 0)) + shGen) 31 30 1).shadowSet (schedIdBase (if 0 % 3 = 0 then .net 1 2 else .host (Fin.ofNat 2 0)) + shOff (0 % 19)) (w32 (0 * 77))).shadowSet (schedIdBase (if 0 % 3 = 0 then .net 1 2 else .host (Fin.ofNat 2 0)) + shOff (0 * 7 % 19)) (w32 (0 * 99)))) start,
      if 0 % 3 = 0 then .net 1 2 else .host (Fin.ofNat 2 0), by decide +kernel⟩,
    ⟨(fun s => ((up s).wrb offSchedInit 31 true).flowMod (s.rdf offFlowAddr 25 0) fun f => { f with q := [1,2,3], port := 0, deqFrames := 0 }) start,
      by decide +kernel⟩,
    ⟨(fun s => (((up s).wrb offSchedInit 31 true).flowMod (s.rdf offFlowAddr 25 0) fun f => { f with q := [] }) |>.schedMod fun h => { h with indirect := [(0 % 257, .quantum (s.rdf offFlowAddr 25 0) 9), (0 % 257, .clod 4 [] true)] }) start,
      BitVec.ofNat 9 (0 % 257), by decide +kernel⟩,
    ⟨(fun s => ((up s).wrb offSchedInit 31 true).flowMod (s.rdf offFlowAddr 25 0) fun f => { f with q := [1,2,3], port := 0, deqFrames := 0, deqBytes := 0 }) start,
      by decide +kernel⟩,
    ⟨(fun s => ((up s).wrb offSchedInit 31 true).clodMod (s.rdf offClodAddr 19 0) fun k => { k with cir := 0 * 100, cbs := 0 * 9 }) start,
      by decide +kernel⟩,
    ⟨(fun s => ((up s).wrb offSchedInit 31 true).wr offClodAddr (w32 (0 % 256 / 16 * 65536 + 5)) |>.schedMod fun h => { h with indirect := [(0 % 256, .quantum (s.rdf offFlowAddr 25 0) 9), (0 % 256, .clod (0 % 256 / 16 * 65536 + 5) [1] true)] }) start,
      BitVec.ofNat 9 (0 % 256), by decide +kernel⟩,
    ⟨(fun s => ((up s).wrb offSchedInit 31 true).wr offClodAddr (w32 (0 % 256 / 16 * 65536 + 5)) |>.schedMod fun h => { h with indirect := [(0 % 256, .quantum (s.rdf offFlowAddr 25 0) 9), (0 % 256, .clod (0 % 256 / 16 * 65536 + 5) [1] true)] }) start,
      BitVec.ofNat 9 (0 % 256), by decide +kernel⟩,
    ⟨(fun s => ((up s).wrb offSchedInit 31 true).wr offClodAddr (w32 (0 % 256 / 16 * 65536 + 5)) |>.schedMod fun h => { h with indirect := (List.range 1024).map fun i => (0 % 256, .quantum i 9) }) start,
      BitVec.ofNat 9 (0 % 256), by decide +kernel⟩,
    ⟨(fun s => ((up s).wrb offSchedInit 31 false)) start, by decide +kernel⟩,
    ⟨(fun s => ((up s).wrb offSchedInit 31 false).stopTimer .schedInit) start, by decide +kernel⟩,
    ⟨(fun s => tm s .schedInit) start, by decide +kernel⟩⟩

def fx13 (n : Nat) : Frame := { bytes := List.replicate (60 + n) 5, src := 18, pos := some 1, bed := 1, path := .copies, refs := 1 + n % 2}
def cp13 (n port : Nat) : Copy := { frame := 5, port := port, cls := n % 8, clod := 65536 + 1, flow := 9, stage := .queued }
def act13 (s : State) : State := (((s.wrf (offPortStatus 1 2) 31 28 5).wrb (offMacCtl 1 2) 31 true).wrb (offMacCtl 1 2) 30 true).wrf (offMacFault 1 2) 31 30 0
def hear13 (s : State) : State := { ((((((act13 (up s)).wr offSwapStatus 0).wr offFenceBed 0).wr (offFencePort 0) 0).harmMod fun h => { h with stale := [] }).wrf (offMacCtl 1 2) 13 0 9216).wr (offGateCtl 1 2) 0 with timers := [] }
def scen13 (s : State) (n port : Nat) : State :=
  let c := cp13 n port
  let ck := clodKey port c.cls c.clod
  let s := { (s.setFrame 5 (some (fx13 n))) with copies := [(6, some c)], macs := [] }
  { s with sched := { flows := [(9, { q := [6], port := port, cls := c.cls, clod := c.clod, deficit := n % 3 * 5000 })], clods := [(65537, { en := n % 2 == 0, tp := 10000, tc := 5, pbs := 1000, cbs := 1000 })], lists := [(2 * clsKey port c.cls, { ids := [if port < 256 then 65537 else 0] })], flowLists := [(ck, [9])], cache := [cacheKey (portPos port) 9], clodDef := [(ck, 4000)] } } |>.wr (s.schedBase port + shGen) 0
def rnd13 (s : State) (port : Nat) : State := { s with now := 0 } |>.schedMod fun h => { h with turns := [(portPos port, { cycle := 0, used := 0, next := (if port = 256 then 0 else port % 16) })] }
def st13_4 : State := (fun s => rnd13 (scen13 (hear13 s) 0 (mx 0 18 256)) (mx 0 18 256)) start
def st13_5 : State := (fun s => rnd13 ((scen13 (hear13 s) 0 18).wr (offFencePort 0) 0xFFFFFFFF) 18) start
def st13_7 : State := (fun s => ({ ((hear13 s).setFrame 5 (some (fx13 0))) with copies := [(6, some {cp13 0 (mx 0 18 256) with stage := .selected, cls := 3})] })) start
def st13_12 : State := (fun s => (({ ((hear13 s).setFrame 5 none) with copies := [(6, some {cp13 3 18 with stage := .edited, edit := some { bytes := List.replicate 300 4 }, was := some (fx13 0)})], macs := [] }).wr (offMacMmStatus 1 2) 0x50000000).wr (offMacMmCtl 1 2) 0x80FF0000) start
theorem witness_SelectionAndTransmitAct :
    (∃ (s : State), s.lineOn = true) ∧
    (∃ (s : State) (id : BitVec 20), ((s.clod id.toNat).upTo s.cycle).tier < 2) ∧
    (∃ (s : State) (pos : Fin 17) (flow : BitVec 26), s.sched.fetches.contains (cacheKey pos flow.toNat) = true) ∧
    (∃ (s : State) (port : Fin 259) (i : Nat) (turn : EngineTurn) (u : State), s.lineOn = true ∧ port.val ≠ 257 ∧
      s.handEngine port = some turn ∧ u = s.atSelection port ∧ u.selMode port = .send ∧
      (u.descend port .send classesDown).1.map (·.1.copy) = some i ∧ (u.copy i).isSome = true) ∧
    (∃ (s : State) (port : Fin 259) (i : Nat) (turn : EngineTurn) (u : State), s.lineOn = true ∧ port.val ≠ 257 ∧
      s.handEngine port = some turn ∧ u = s.atSelection port ∧ u.selMode port ≠ .send ∧
      (u.descend port (u.selMode port) classesDown).1.map (·.1.copy) = some i) ∧
    (∃ (s : State) (port : Fin 259), (s.lineOn = false ∨ port.val = 257 ∨ s.handEngine port = none)) ∧
    (∃ (s : State) (c : Nat) (b : Option Nat) (x : Copy) (f : Frame) (e : Edit), s.copy c = some x ∧
      s.frame x.frame = some f ∧ x.stage = .selected ∧ s.editBed x f = b ∧ f.spoiled = false ∧ ((x.port < 256 ∧
      b.any s.bedUsable = true) ∨ (isHost x.port = true ∧ f.pos.all s.posUsable = true)) ∧ s.edited b x f = some e) ∧
    (∃ (s : State) (c : Nat) (b : Nat) (x : Copy) (f : Frame), s.copy c = some x ∧ s.frame x.frame = some f ∧
      x.stage = .selected ∧ s.editBed x f = some b ∧ f.spoiled = false ∧ ((x.port < 256 ∧
      s.bedUsable b = true) ∨ (isHost x.port = true ∧ f.pos.all s.posUsable = true)) ∧ s.edited (some b) x f = none) ∧
    (∃ (s : State) (f : List Byte) (rest : List (List Byte)), s.mgmtSending = true ∧ s.mgmt.txq = f :: rest ∧
      (f ++ List.replicate (60 - f.length) 0).length + 4 ≤ s.maxFrame mgmtMac) ∧
    (∃ (s : State) (i : Nat) (b : Nat) (p : Nat) (x : Copy) (e : Edit) (y : Frame) (bytes : List Byte), s.copy i = some x ∧
      x.port < 256 ∧ s.bedOfPort x.port = some b ∧ p = x.port % 16 ∧ x.edit = some e ∧ x.was = some y ∧ s.bedUsable b = true ∧
      x.stage = .edited ∧ s.firstOut b p i x = true ∧ s.outMode b p = .send ∧ s.mayStart b p i x.cls = true ∧
      s.fragsOf b p i x.cls = none ∧ x.assay = none ∧ ptpEntry y.parse = none ∧ x.tsReq = false ∧
      bytes = e.bytes ++ List.replicate (60 - e.bytes.length) 0 ∧ bytes.length + 4 ≤ s.maxFrame (16 * b + p) ∧
      s.gateLets b p x.cls (s.txStart b p) (bytes.length + 4) none = true) ∧
    (∃ (s : State) (i : Nat) (b : Nat) (p : Nat) (x : Copy) (e : Edit) (y : Frame) (bytes : List Byte), s.copy i = some x ∧
      x.port < 256 ∧ s.bedOfPort x.port = some b ∧ p = x.port % 16 ∧ x.edit = some e ∧ x.was = some y ∧ s.bedUsable b = true ∧
      x.stage = .edited ∧ s.firstOut b p i x = true ∧ s.outMode b p = .send ∧ s.mayStart b p i x.cls = true ∧
      s.fragsOf b p i x.cls = none ∧ x.assay = none ∧ ptpEntry y.parse = none ∧ x.tsReq = false ∧
      bytes = e.bytes ++ List.replicate (60 - e.bytes.length) 0 ∧ bytes.length + 4 ≤ s.maxFrame (16 * b + p) ∧
      s.gateLets b p x.cls (s.txStart b p) (bytes.length + 4) none = true) ∧
    (∃ (s : State) (i : Nat) (b : Nat) (p : Nat) (cut : Nat) (ready : Nat) (x : Copy) (e : Edit) (y : Frame) (o : OpenTx) (bytes : List Byte),
      s.copy i = some x ∧ x.port < 256 ∧ s.bedOfPort x.port = some b ∧ p = x.port % 16 ∧ x.edit = some e ∧ x.was = some y ∧
      s.bedUsable b = true ∧ x.stage = .edited ∧ s.firstOut b p i x = true ∧ s.outMode b p = .send ∧
      s.mayStart b p i x.cls = true ∧ (s.mac (16 * b + p)).openTx = none ∧ s.fragsOf b p i x.cls = some o ∧ x.assay = none ∧
      ptpEntry y.parse = none ∧ x.tsReq = false ∧ bytes = e.bytes ++ List.replicate (60 - e.bytes.length) 0 ∧
      bytes.length + 4 ≤ s.maxFrame (16 * b + p) ∧ s.gateLets b p x.cls (s.txStart b p) (bytes.length + 4) (some o) = true ∧
      s.cutPoint b p x.cls (s.txStart b p - s.ps) (bytes.length + 4) o (some ready) = some cut) ∧
    (∃ (s : State) (i : Nat) (b : Nat) (p : Nat) (x : Copy) (e : Edit) (y : Frame) (o : OpenTx), s.copy i = some x ∧
      x.port < 256 ∧ s.bedOfPort x.port = some b ∧ p = x.port % 16 ∧ x.edit = some e ∧ x.was = some y ∧ s.bedUsable b = true ∧
      x.stage = .edited ∧ s.firstOut b p i x = true ∧ s.outMode b p = .send ∧ s.mayStart b p i x.cls = true ∧
      (s.mac (16 * b + p)).openTx = some o ∧ o.copy = i ∧ s.contFits b p o x = true ∧
      s.cutPoint b p x.cls (s.txStart b p - s.ps) (o.left x) o none = none) ∧
    (∃ (s : State) (c : Nat) (x : Copy) (e : Edit) (f : Frame), s.copy c = some x ∧ x.edit = some e ∧ s.frameOf x = some f ∧
      f.spoiled = false ∧ x.stage = .edited ∧ x.port = 256 ∧ s.firstCopy c x = true ∧ s.hostOn = true ∧
      s.mayCross .frameOut (grainsOf e.bytes.length) = true) ∧
    (∃ (s : State) (c : Nat) (x : Copy) (e : Edit) (f : Frame), s.copy c = some x ∧ x.edit = some e ∧ s.frameOf x = some f ∧
      f.spoiled = false ∧ x.stage = .edited ∧ x.port = 258 ∧ s.firstCopy c x = true ∧ s.hostOn = true ∧
      s.mayCross .frameOut (grainsOf e.bytes.length) = true) :=
  ⟨⟨(fun s => (up s).clodMod (0 % 5) fun k => { k with cir := 10000 * 0, cbs := 0 * 100 }) start, by decide +kernel⟩,
    ⟨(fun s => ((scen13 (up s) 0 18).clodMod 65537 fun k => { k with en := true, tp := if 0 % 2 = 0 then 5 else -5, tc := 0, cir := 10000000 * 0, pir := 10000000 * 0, pbs := 1000, cbs := 0 }).schedMod fun h => { h with lists := [] }) start,
      65537, by decide +kernel⟩,
    ⟨(fun s => s.schedMod fun h => { h with fetches := [cacheKey 1 9, 3], cache := [cacheKey 1 9, 8] }) start, 1, 9,
      by decide +kernel⟩,
    ⟨st13_4, Fin.ofNat 259 (mx 0 18 256), 6, (st13_4.handEngine (mx 0 18 256)).getD {}, st13_4.atSelection (mx 0 18 256),
      by decide +kernel⟩,
    ⟨st13_5, 18, 6, (st13_5.handEngine 18).getD {}, st13_5.atSelection 18, by decide +kernel⟩,
    ⟨(fun s => (scen13 (hear13 s) 1 (mx 1 18 256))) start, Fin.ofNat 259 (mx 1 18 257), by decide +kernel⟩,
    ⟨st13_7, 6, st13_7.editBed {cp13 0 (mx 0 18 256) with stage := .selected, cls := 3} (fx13 0),
      {cp13 0 (mx 0 18 256) with stage := .selected, cls := 3}, fx13 0, Edit.start (fx13 0).bytes (fx13 0).parse,
      by decide +kernel⟩,
    ⟨(fun s => ({ ((hear13 s).setFrame 5 (some (fx13 0))) with copies := [(6, some {cp13 0 (mx 0 18 256) with stage := .selected, prog := some 0})] }).wrf (offRewriteCtl 1) 15 15 0 |>.wr (offRewriteProgramW0 1 0 0) 0x10000000) start,
      6, 1, {cp13 0 (mx 0 18 256) with stage := .selected, prog := some 0}, fx13 0, by decide +kernel⟩,
    ⟨(fun s => (((up s).wrb offMgmtCtl 30 true).wrf offMgmtCtl 13 0 1518).mgmtMod fun g => { g with txq := [List.replicate (40 + 0) 7, [1]], backingOff := false, deferring := false }) start,
      List.replicate (40 + 0) 7, [[1]], by decide +kernel⟩,
    ⟨(fun s => ({ ((hear13 s).setFrame 5 none) with copies := [(6, some {cp13 0 18 with stage := .edited, edit := some { bytes := (fx13 0).bytes }, was := some (fx13 0)})], macs := [] }).wr (offMacMmStatus 1 2) 0) start,
      6, 1, 2, {cp13 0 18 with stage := .edited, edit := some { bytes := (fx13 0).bytes }, was := some (fx13 0)},
      { bytes := (fx13 0).bytes }, fx13 0, (fx13 0).bytes ++ List.replicate (60 - (fx13 0).bytes.length) 0, by decide +kernel⟩,
    ⟨(fun s => ({ ((hear13 s).setFrame 5 none) with copies := [(6, some {cp13 0 18 with stage := .edited, edit := some { bytes := (fx13 0).bytes }, was := some (fx13 0)})], macs := [] }).wr (offMacMmStatus 1 2) 0) start,
      6, 1, 2, {cp13 0 18 with stage := .edited, edit := some { bytes := (fx13 0).bytes }, was := some (fx13 0)},
      { bytes := (fx13 0).bytes }, fx13 0, (fx13 0).bytes ++ List.replicate (60 - (fx13 0).bytes.length) 0, by decide +kernel⟩,
    ⟨st13_12, 6, 1, 2, max 0 (st13_12.minFrag 1 2), 0,
      {cp13 3 18 with stage := .edited, edit := some { bytes := List.replicate 300 4 }, was := some (fx13 0)},
      { bytes := List.replicate 300 4 }, fx13 0,
      (st13_12.fragsOf 1 2 6 3).getD { copy := 0, sent := 0, frags := 0, number := 0, minFrag := 0, ipg := 0 },
      List.replicate 300 4, by decide +kernel⟩,
    ⟨(fun s => (({ ((hear13 s).setFrame 5 none) with copies := [(6, some {cp13 3 18 with stage := .edited, edit := some { bytes := List.replicate 300 4 }, was := some (fx13 0), wire := List.replicate 300 4})], macs := [(18, { openTx := some { copy := 6, sent := 64 + 0, frags := 0 % 7, number := 0 % 4, minFrag := 64, ipg := 12 } })] }).wr (offMacMmStatus 1 2) 0x50000000).wr (offMacMmCtl 1 2) 0x80FF0000) start,
      6, 1, 2,
      {cp13 3 18 with stage := .edited, edit := some { bytes := List.replicate 300 4 }, was := some (fx13 0), wire := List.replicate 300 4},
      { bytes := List.replicate 300 4 }, fx13 0,
      { copy := 6, sent := 64 + 0, frags := 0 % 7, number := 0 % 4, minFrag := 64, ipg := 12 }, by decide +kernel⟩,
    ⟨(fun s => ({ ((hear13 s)) with copies := [(6, some {cp13 0 256 with stage := .edited, edit := some { bytes := (fx13 0).bytes }, was := some (fx13 0)})], rings := {} })) start,
      6, {cp13 0 256 with stage := .edited, edit := some { bytes := (fx13 0).bytes }, was := some (fx13 0)},
      { bytes := (fx13 0).bytes }, fx13 0, by decide +kernel⟩,
    ⟨(fun s => ({ ((hear13 s)) with copies := [(6, some {cp13 0 258 with stage := .edited, edit := some { bytes := (fx13 0).bytes }, was := some (fx13 0)})], rings := {} })) start,
      6, {cp13 0 258 with stage := .edited, edit := some { bytes := (fx13 0).bytes }, was := some (fx13 0)},
      { bytes := (fx13 0).bytes }, fx13 0, by decide +kernel⟩⟩

def gl14 (s : State) (n : Nat) : State := ((((((s.wr (offGateShCfg 1 2) 0x20000).wr (offGateShCycle 1 2) (w32 (5000 + n))).wr (offGateShBaseNs 1 2) (w32 n)).wrf (offGateStatus 1 2) 31 30 (n % 2 * 2)).setGateEntry (gateKey 1 2 0 0) (w32 (n * 10), w32 (n * 77 % 512))).setGateEntry (gateKey 1 2 1 0) (1000, 0x1AA)).setGateEntry (gateKey 1 2 0 1) (3000, 0x155)
def run14 (s : State) (n : Nat) : State := (((((gl14 s n).wrf (offGateStatus 1 2) 31 30 2).wrb (offGateCtl 1 2) 29 true).wr (offGateAct 1 2 0) (w32 (5000+n))).wr (offGateAct 1 2 1) (0x20000)).wr (offGateAct 1 2 2) 0
def st14_9 : State := (fun s => ((run14 s 0).setGateEntry (gateKey 1 2 0 0) (2000,
  0x1AA)).setGateEntry (gateKey 1 2 0 1) (3000, 0x155) |>.setGateEntry (gateKey 1 2 1 1) (3000, 0x155)) start
theorem witness_GatesAct :
    (∃ (s : State) (b : BedIx) (p : LocalIx) (v : Word), s.serves (offGateCtl b p) ∧ bit 30 v = false ∧
      (s.gate b p).commit ≠ some (s.cycle, true) ∧ s.commitBad b p = false) ∧
    (∃ (s : State) (b : BedIx) (p : LocalIx) (v : Word), s.serves (offGateCtl b p) ∧ bit 30 v = false ∧
      (s.gate b p).commit ≠ some (s.cycle, true) ∧ s.commitBad b p = true) ∧
    (∃ (s : State) (b : BedIx) (p : LocalIx) (v : Word), s.serves (offGateCtl b p) ∧ bit 30 v = false ∧
      (s.gate b p).commit = some (s.cycle, true)) ∧
    (∃ (s : State) (b : BedIx) (p : LocalIx) (v : Word), s.serves (offGateCtl b p) ∧ bit 31 v = false ∧
      s.gateState b p % 2 = 1 ∧ s.adoptDue b p = false) ∧
    (∃ (s : State) (b : BedIx) (p : LocalIx) (v : Word), s.serves (offGateCtl b p) ∧ bit 31 v = false ∧
      (s.gateState b p % 2 = 0 ∨ s.adoptDue b p = true)) ∧
    (∃ (s : State) (b : BedIx) (p : LocalIx), s.adoptDue b p = true) ∧
    (∃ (s : State) (b : BedIx) (p : LocalIx), s.adoptDue b p = false) ∧
    (∃ (s : State) (b : BedIx) (p : LocalIx) (l : GateList) (pos : Nat), (s.gateView b p 0).1 = some (l, pos) ∧
      l.hold pos = true) ∧
    (∃ (s : State) (b : BedIx) (p : LocalIx) (o : OpenTx) (c : Copy), (s.mac (16 * b.val + p.val)).openTx = some o ∧
      s.copy o.copy = some c ∧ s.abandonDue b p o c = true) ∧
    (∃ (s : State) (b : BedIx), s.serves (offGateCmd b)) ∧
    (∃ (s : State) (b : BedIx), s.serves (offGateCmd b) ∧ s.rdb (offGateAddr b) 31 = false ∧
      s.gateState b (s.gateAddr b).1 % 2 = 0) ∧
    (∃ (s : State) (b : BedIx), s.serves (offGateCmd b) ∧
      (s.rdb (offGateAddr b) 31 = true ∨ s.gateState b (s.gateAddr b).1 % 2 = 1)) :=
  ⟨⟨(fun s => gl14 (up s) 0) start, 1, 2, (w32 (0 * 12345)) &&& 0x3FFFFFFF, by decide +kernel⟩,
    ⟨(fun s => if 0 % 2 = 0 then (gl14 (up s) 0).wrf (offGateStatus 1 2) 31 30 (0 % 4 + 1) else (gl14 (up s) 0).wr (offGateShCycle 1 2) 9) start,
      1, 2, (w32 (0 * 12345)) &&& 0x3FFFFFFF, by decide +kernel⟩,
    ⟨(fun s => (gl14 (up s) 0).gateMod 1 2 fun g => { g with commit := some (s.cycle, true) }) start, 1, 2,
      (w32 (0 * 12345)) &&& 0x3FFFFFFF, by decide +kernel⟩,
    ⟨(fun s => (gl14 (up s) 0).wrf (offGateStatus 1 2) 31 30 (0 % 2 * 2 + 1) |>.wrs (offGateAdopt 1 2 0) [5, 0xFFFFFFFF,
      0xFFFF]) start, 1, 2, (w32 (0 * 12345)) &&& 0x7FFFFFFF, by decide +kernel⟩,
    ⟨(fun s => (((gl14 (up s) 0).wrf (offGateStatus 1 2) 31 30 (0 % 4)).wr (offGateAdopt 1 2 0) (w32 (0 % 7))).wrs (offGateAdopt 1 2 1) [0,
      0] |>.tbMod 0 fun b => { b with val := 0 * nsUnit }) start, 1, 2, (w32 (0 * 12345)) &&& 0x7FFFFFFF, by decide +kernel⟩,
    ⟨(fun s => (((gl14 (up s) 0).wrf (offGateStatus 1 2) 31 30 (0 % 2 * 2 + 1)).wr (offGateAdopt 1 2 0) (w32 (0 % 7))).wrs (offGateAdopt 1 2 1) [0,
      0] |>.tbMod 0 fun b => { b with val := 0 * nsUnit }) start, 1, 2, by decide +kernel⟩,
    ⟨(fun s => (gl14 (up s) 0).wrf (offGateStatus 1 2) 31 30 2) start, 1, 2, by decide +kernel⟩,
    ⟨st14_9, 1, 2, ((st14_9.gateView 1 2 0).1.getD ({tb := 0, base := 0, cycle := 0, adv := 0, wins := []}, 0)).1,
      ((st14_9.gateView 1 2 0).1.getD ({tb := 0, base := 0, cycle := 0, adv := 0, wins := []}, 0)).2, by decide +kernel⟩,
    ⟨(fun s => ({ (((run14 s 0).setGateEntry (gateKey 1 2 0 0) (2000, 0x1AA)).setGateEntry (gateKey 1 2 1 1) (3000, 0x154) |>.setGateEntry (gateKey 1 2 0 1) (3000, 0x154)) with macs := [(18, { openTx := some { copy := 6, sent := 0, frags := 1, number := 0, minFrag := 64, ipg := 12 } })] }).setCopy 6 (some { frame := 5, port := 18, cls := 0, clod := 0, flow := 3 })) start,
      1, 2, { copy := 6, sent := 0, frags := 1, number := 0, minFrag := 64, ipg := 12 },
      { frame := 5, port := 18, cls := 0, clod := 0, flow := 3 }, by decide +kernel⟩,
    ⟨(fun s => (up s).setGateEntry ((up s).gateAddr 1).2 (w32 0, w32 (0 * 3))) start, 1, by decide +kernel⟩,
    ⟨(fun s => ((up s).wr (offGateAddr 1) (w32 ((0 % 16) * 65536 + 0))) |>.wrf (offGateStatus 1 (0 % 16)) 31 30 (0 % 2 * 2)) start,
      1, by decide +kernel⟩,
    ⟨(fun s => ((up s).wr (offGateAddr 1) (w32 (0 % 2 * 2147483648 + (0 % 16) * 65536 + 0))) |>.wrf (offGateStatus 1 (0 % 16)) 31 30 1) start,
      1, by decide +kernel⟩⟩

def tb115 (s : State) (n : Nat) : State := (((s.tbMod (n % 10) fun b => { b with ticked := false, val := n * nsUnit * 100, slew := 5 })).wr (tbLimit (n % 10)) (if n % 2 = 0 then 0 else 5)).wrf (offPairStatus (n % 2)) 31 30 0 |>.wrf (offPairStatus (1 - n % 2)) 31 30 0
def slot15 (s : State) (n : Nat) (a : ActSlot) : State := (s.wr offActAddr (w32 (n % 8 * 65536 + n % 256))).actMod (actKey (n % 8) (n % 256)) fun _ => a
def st15_20 : State := (fun s => (tb115 (up s) 0).tbMod (0 % 10) fun b => { b with cmd := some (.set (0 * 12345)) }) start
def st15_21 : State := (fun s => (tb115 (up s) 0).tbMod (0 % 10) fun b => { b with cmd := some (.step ((0 : Int) * 12345 - 100000)) }) start
def st15_22 : State := (fun s => ((tb115 (up s) 0).wrb (tbCtl (0 % 10)) 31 true).tbMod (0 % 10) fun b => { b with cmd := some (.slew ((0 : Int) * 12345 - 100000) 0) }) start
theorem witness_TimeBasesAct :
    (∃ (s : State) (k : Fin 10) (v : Word), s.serves (tbFracReg k) ∧ addendOk (s.rdf (tbInt k) 3 0 * 2 ^ 32 + v.toNat) = true) ∧
    (∃ (s : State) (k : Fin 10) (v : Word), s.serves (tbFracReg k) ∧
      addendOk (s.rdf (tbInt k) 3 0 * 2 ^ 32 + v.toNat) = false) ∧
    (∃ (s : State) (k : Fin 10), s.serves (tbNowReg k)) ∧
    (∃ (s : State), s.serves offTimeCaptureAll) ∧
    (∃ (s : State), s.serves offActCmd) ∧
    (∃ (s : State), s.serves offActCmd ∧ (s.act s.actAddr).armed = false) ∧
    (∃ (s : State), s.serves offActCmd ∧ (s.act s.actAddr).armed = true) ∧
    (∃ (s : State), s.serves offActCmd ∧ s.armVal (s.actAddr / 256) ≤ (s.act s.actAddr).time) ∧
    (∃ (s : State), s.serves offActCmd ∧ (s.act s.actAddr).time < s.armVal (s.actAddr / 256)) ∧
    (∃ (s : State), s.serves offActCmd) ∧
    (∃ (s : State) (j : Fin 8) (slot : Fin 256), (s.act (actKey j slot)).armed = true ∧
      (s.act (actKey j slot)).time ≤ s.tbNow j) ∧
    (∃ (s : State) (k : Fin 10), s.serves (tbCmd k) ∧ (s.tb k).cmd = none ∧ s.pairState k = 0 ∧
      s.jumpOk k ((s.setValue k : Int) - s.tickVal k).natAbs (s.unlocked k) = true) ∧
    (∃ (s : State) (k : Fin 10), s.serves (tbCmd k) ∧ (s.tb k).cmd = none ∧ s.pairState k = 0 ∧
      s.jumpOk k ((s.setValue k : Int) - s.tickVal k).natAbs (s.unlocked k) = false) ∧
    (∃ (s : State) (k : Fin 10), s.serves (tbCmd k) ∧ (s.tb k).cmd = none ∧ s.pairState k = 0 ∧
      s.jumpOk k (s.tbOffset k).natAbs (s.unlocked k) = false) ∧
    (∃ (s : State) (k : Fin 10), s.serves (tbCmd k) ∧ (s.tb k).cmd = none ∧ s.pairState k = 0 ∧
      s.jumpOk k ((s.tb k).slew + s.tbOffset k).natAbs (s.unlocked k) = false) ∧
    (∃ (s : State) (k : Fin 10), s.serves (tbCmd k) ∧ (s.tb k).cmd = none ∧ s.pairState k = 0 ∧
      s.jumpOk k (s.tbOffset k).natAbs (s.unlocked k) = true) ∧
    (∃ (s : State) (k : Fin 10), s.serves (tbCmd k) ∧ (s.tb k).cmd = none ∧ s.pairState k = 0 ∧
      s.jumpOk k ((s.tb k).slew + s.tbOffset k).natAbs (s.unlocked k) = true) ∧
    (∃ (s : State) (k : Fin 10), s.serves (tbCmd k) ∧ (s.tb k).cmd.isSome = true) ∧
    (∃ (s : State) (k : Fin 10), s.serves (tbCmd k) ∧ (s.tb k).cmd = none ∧ s.pairState k ≠ 0) ∧
    (∃ (s : State) (k : Fin 10) (v : Nat) (t : State), (s.tb k).cmd = some (.set v) ∧ t = s.tbTick k) ∧
    (∃ (s : State) (k : Fin 10) (d : Int) (t : State), (s.tb k).cmd = some (.step d) ∧ t = s.tbTick k) ∧
    (∃ (s : State) (k : Fin 10) (d : Int) (ppm : Nat) (t : State), (s.tb k).cmd = some (.slew d ppm) ∧ s.tbRun k = true ∧
      (s.tb k).ticked = false ∧ t = s.tbTick k) ∧
    (∃ (s : State) (k : Fin 10), (s.tb k).slew ≠ 0 ∧ (s.tb k).cmd = none ∧ (s.tb k).ticked = false ∧ s.tbRun k = true ∧
      (s.tb k).slew.natAbs ≤ max 1 (slewShare (s.tb k).addend (s.tb k).ppm (0 < (s.tb k).slew))) ∧
    (∃ (s : State) (k : Fin 10), s.serves (tbUnlock k) ∧ s.lkOk false .time = true) ∧
    (∃ (s : State) (k : Fin 10), s.serves (tbUnlock k) ∧ s.lkOk false .time = false) ∧
    (∃ (s : State) (k : Fin 10), s.unlocked k = true) :=
  ⟨⟨(fun s => (up s).wrf (tbInt (0 % 10)) 3 0 1) start, Fin.ofNat 10 0, w32 (0x99999900 + 0), by decide +kernel⟩,
    ⟨(fun s => (up s)) start, Fin.ofNat 10 0, w32 (0x19999900 + 0), by decide +kernel⟩,
    ⟨(fun s => (up s).tbMod (0 % 10) fun b => { b with val := 0 * 123456789123456789 }) start, Fin.ofNat 10 0,
      by decide +kernel⟩,
    ⟨(fun s => (up s).tbMod (0 % 10) fun b => { b with val := 0 * 123456789123456789 }) start, by decide +kernel⟩,
    ⟨(fun s => slot15 (up s) 0 { sec := 0 * 123456789, ns := 0, period := 0, w4 := w32 0, armed := 0 % 2 == 0 }) start,
      by decide +kernel⟩,
    ⟨(fun s => slot15 (up s) 0 { sec := 0 * 123456789, ns := 0, period := 0, w4 := w32 0, armed := false }) start,
      by decide +kernel⟩,
    ⟨(fun s => slot15 (up s) 0 { sec := 0 * 123456789, ns := 0, period := 0, w4 := w32 0, armed := true }) start,
      by decide +kernel⟩,
    ⟨(fun s => slot15 (up s) 0 { sec := 0 * 123456789 + 1000000000000, ns := 0, period := 0 % 2, w4 := w32 (0 * 98765432), armed := 0 % 2 == 0 }) start,
      by decide +kernel⟩,
    ⟨(fun s => (slot15 (up s) 0 { sec := 0, ns := 0, period := 0 % 3, w4 := w32 (0 * 98765432), armed := 0 % 2 == 0 }).tbMod (0 % 8) fun b => { b with val := 0 * nsUnit * 100 + nsUnit }) start,
      by decide +kernel⟩,
    ⟨(fun s => slot15 (up s) 0 { sec := 0, ns := 0, period := 0 % 3, w4 := w32 (0 * 98765432), armed := 0 % 2 == 0 }) start,
      by decide +kernel⟩,
    ⟨(fun s => (slot15 (up s) 0 { sec := 0, ns := 0, period := 0 % 3, w4 := w32 (0 * 98765432), armed := true }).tbMod (0 % 8) fun b => { b with val := 0 * nsUnit * 100 + nsUnit }) start,
      Fin.ofNat 8 0, Fin.ofNat 256 0, by decide +kernel⟩,
    ⟨(fun s => tb115 (up s) 0) start, Fin.ofNat 10 0, by decide +kernel⟩,
    ⟨(fun s => ((tb115 (up s) 0).wr (tbLimit (0 % 10)) 1).wrb (tbCtl (0 % 10)) 30 false |>.stopTimer (.unlock (0 % 10)) |>.tbMod (0 % 10) fun b => { b with valid := true, val := 0 * nsUnit * 100 + nsUnit * 1000000 }) start,
      Fin.ofNat 10 0, by decide +kernel⟩,
    ⟨(fun s => (((tb115 (up s) 0).wr (tbLimit (0 % 10)) 1).wrb (tbCtl (0 % 10)) 30 false |>.stopTimer (.unlock (0 % 10)) |>.wrs (tbArg (0 % 10) 0) [w32 (0 * 1000 + 5000),
      0]).tbMod (0 % 10) fun b => { b with valid := true, val := 0 * nsUnit * 100 + nsUnit * 1000000 }) start, Fin.ofNat 10 0,
      by decide +kernel⟩,
    ⟨(fun s => (((tb115 (up s) 0).wr (tbLimit (0 % 10)) 1).wrb (tbCtl (0 % 10)) 30 false |>.stopTimer (.unlock (0 % 10)) |>.wrs (tbArg (0 % 10) 0) [w32 (0 * 1000 + 5000),
      0]).tbMod (0 % 10) fun b => { b with valid := true, val := 0 * nsUnit * 100 + nsUnit * 1000000 }) start, Fin.ofNat 10 0,
      by decide +kernel⟩,
    ⟨(fun s => tb115 (up s) 0) start, Fin.ofNat 10 0, by decide +kernel⟩,
    ⟨(fun s => tb115 (up s) 0) start, Fin.ofNat 10 0, by decide +kernel⟩,
    ⟨(fun s => (tb115 (up s) 0).tbMod (0 % 10) fun b => { b with cmd := some (if 0 % 3 = 0 then .nothing else .set 0) }) start,
      Fin.ofNat 10 0, by decide +kernel⟩,
    ⟨(fun s => (tb115 (up s) 0).wrf (offPairStatus (0 % 2)) 31 30 (0 % 2 + 1)) start, Fin.ofNat 10 0, by decide +kernel⟩,
    ⟨st15_20, Fin.ofNat 10 0, 0 * 12345, st15_20.tbTick (0 % 10), by decide +kernel⟩,
    ⟨st15_21, Fin.ofNat 10 0, (0 : Int) * 12345 - 100000, st15_21.tbTick (0 % 10), by decide +kernel⟩,
    ⟨st15_22, Fin.ofNat 10 0, (0 : Int) * 12345 - 100000, 0, st15_22.tbTick (0 % 10), by decide +kernel⟩,
    ⟨(fun s => ((tb115 (up s) 0).wrb (tbCtl (0 % 10)) 31 true).tbMod (0 % 10) fun b => { b with slew := if 0 % 2 = 0 then 3 else -3 , ppm := 10, addend := 0x19999999A }) start,
      Fin.ofNat 10 0, by decide +kernel⟩,
    ⟨(fun s => { (up s) with pwr := { (up s).pwr with life := 0 } }) start, Fin.ofNat 10 0, by decide +kernel⟩,
    ⟨(fun s => { (up s) with pwr := { (up s).pwr with life := 1 }, sec := { s.sec with host := { s.sec.host with level := 0 % 2 } } }) start,
      Fin.ofNat 10 0, by decide +kernel⟩,
    ⟨(fun s => tm s (.unlock (0 % 10))) start, Fin.ofNat 10 0, by decide +kernel⟩⟩

theorem witness_TimeInputsAndPairsAct :
    (∃ (s : State) (k : Fin 2) (v : Word), s.serves (offPairCtl k) ∧ bit 31 v = true ∧ bit 29 v = false ∧ s.pairState k = 0 ∧
      (bit 21 v = true ∨ (s.tb (8 + k.val)).valid = true)) ∧
    (∃ (s : State) (k : Fin 2) (v : Word), s.serves (offPairCtl k) ∧ bit 31 v = true ∧ bit 29 v = false ∧ s.pairState k = 0 ∧
      bit 21 v = false ∧ (s.tb (8 + k.val)).valid = false) ∧
    (∃ (s : State) (k : Fin 2), s.serves (offPairCtl k)) ∧
    (∃ (s : State) (k : Fin 2), s.pairState k = 1 ∧ (s.pairDiff k).natAbs ≤ s.pairShare k) ∧
    (∃ (s : State) (b : BedIx) (p : LocalIx), s.serves (offTsqStatus b p) ∧ (s.tsq (16 * b.val + p.val)).length ≤ 64) ∧
    (∃ (s : State) (k : Fin 2), s.lineOn = true ∧ s.rdb (offPpsInCtl k) 31 = true ∧ (s.ppsQ k).length < 16) ∧
    (∃ (s : State) (k : Fin 2), s.lineOn = true ∧ s.rdb (offPpsInCtl k) 31 = true ∧ 16 ≤ (s.ppsQ k).length) ∧
    (∃ (s : State) (k : Fin 2), s.serves (offPpsInPop k)) ∧
    (∃ (s : State) (k : Fin 2), s.timerOn (.ppsOut k) = true) ∧
    (∃ (s : State), s.serves offRef10Ctl) ∧
    (∃ (s : State), s.time.measuring = true ∧ s.roleServed 17 = true) ∧
    (∃ (s : State), s.time.measuring = true ∧ s.roleServed 17 = true) ∧
    (∃ (s : State) (m : Fin 4), s.roleServed 17 = true ∧ s.rdb (offMonCtl m) 31 = true ∧ s.rdb (offMonCtl m) 30 = false) :=
  ⟨⟨(fun s => ((up s).wrf (offPairStatus (0 % 2)) 31 30 0).tbMod (8 + 0 % 2) fun b => { b with valid := true, val := 0 * 99999999999 }) start,
      Fin.ofNat 2 0, 0x80000000 + (w32 (0 * 9876543) &&& 0x1FFFFFFF), by decide +kernel⟩,
    ⟨(fun s => ((up s).wrf (offPairStatus (0 % 2)) 31 30 0).tbMod (8 + 0 % 2) fun b => { b with valid := false, val := 0 * 99999999999 }) start,
      Fin.ofNat 2 0, 0x80000000 + (w32 (0 * 9876543) &&& 0x1FDFFFFF), by decide +kernel⟩,
    ⟨(fun s => up s) start, Fin.ofNat 2 0, by decide +kernel⟩,
    ⟨(fun s => ((((up s).wrf (offPairStatus (0 % 2)) 31 30 1).tbMod (8 + 0 % 2) fun b => { b with val := 100000 + 0, addend := 0x19999999A }).tbMod (0 % 2) fun b => { b with val := 100000, addend := 0x19999999A }).wrb (offPairCtl (0 % 2)) 21 false) start,
      Fin.ofNat 2 0, by decide +kernel⟩,
    ⟨(fun s => (up s).setTsq 1 2 ((List.range (0 % 60)).map fun i => [w32 i, w32 0])) start, 1, 2, by decide +kernel⟩,
    ⟨(fun s => ((up s).wrb (offPpsInCtl (0 % 2)) 31 true).setPpsQ (0 % 2) (List.range (0 % 16))) start, Fin.ofNat 2 0,
      by decide +kernel⟩,
    ⟨(fun s => ((up s).wrb (offPpsInCtl (0 % 2)) 31 true).setPpsQ (0 % 2) (List.range 16)) start, Fin.ofNat 2 0,
      by decide +kernel⟩,
    ⟨(fun s => (up s).setPpsQ (0 % 2) (List.range (0 % 17))) start, Fin.ofNat 2 0, by decide +kernel⟩,
    ⟨(fun s => tm s (.ppsOut (0 % 2))) start, Fin.ofNat 2 0, by decide +kernel⟩,
    ⟨(fun s => up s) start, by decide +kernel⟩,
    ⟨(fun s => (sv s 17).timeMod fun t => { t with measuring := true }) start, by decide +kernel⟩,
    ⟨(fun s => (sv s 17).timeMod fun t => { t with measuring := true }) start, by decide +kernel⟩,
    ⟨(fun s => ((sv s 17).wrf (offMonCtl (0 % 4)) 31 30 2).wrf (offMonCtl (0 % 4)) 28 23 (0 * 7 + 1)) start, Fin.ofNat 4 0,
      by decide +kernel⟩⟩

def rr017 : RegRow := { base := 0 }
def iv17 (n : Nat) (e : Bool) : TelInterval := { idx := n, stop := n * 10, ended := e, recs := [(18 * 8 + 2, some { maxDepth := 4 })] }
def evts17 : List Nat := [offBlkEvt, offTelEvt, offTimeEvt, offRingEvt, offSchedEvt 1, offGateEvt 1, offMeshEvt 16, offSecEvt, offSafeEvt, offAdmEvt]
def ctrs17 : List Nat := [offRingCnt 2, offTierCnt 0, offTierCnt 1 + 4, offStatCnt 1 2 7, offStatCnt 1 2 7 + 4, offMgmtStatCnt 3, offSchedCnt 1 2, offRstLineLossLo, offRstLineLossHi, offAdmCnt 1]
theorem witness_TelemetryEventsAndRegistersAct :
    (∃ (s : State) (v : TelInterval) (rest : List TelInterval), s.tel.opened = v :: rest ∧ v.ended = false ∧
      (v.closed = true ∨ v.stop ≤ s.tbNow s.telTb / nsUnit)) ∧
    (∃ (s : State) (i : TelInterval) (rest : List TelInterval), s.tel.opened = i :: rest ∧ i.ended = true ∧
      (i.closed = true ∨ i.stop + 4000 ≤ s.tbNow s.telTb / nsUnit) ∧
      (i.recs.filterMap (fun r => r.2.map fun c => c.words i r.1) ≠ []) ∧ s.classCap ≠ 0) ∧
    (∃ (s : State) (r : List Word) (rest : List (List Word)), s.tel.flowOut = r :: rest) ∧
    (∃ (s : State) (j : Nat) (last : Nat) (recs : List (List Word)) (rest : List (Nat × Nat × List (List Word))),
      s.tel.classOut = (j, last, recs) :: rest ∧ recs.length ≤ last + 1) ∧
    (∃ (s : State) (evt : BitVec 26), s.hostOn = true ∧ (sget (fun _ => 0) s.evWait evt.toNat ≠ 0) ∧
      s.ringState (1024 + s.rdf (evt.toNat + 8) 7 0) = 1 ∧
      cntDiff (s.cons (1024 + s.rdf (evt.toNat + 8) 7 0)) (s.seen (1024 + s.rdf (evt.toNat + 8) 7 0)) < s.ringSize (1024 + s.rdf (evt.toNat + 8) 7 0)) ∧
    (∃ (s : State) (evt : BitVec 26) (row : RegRow), isMask (evt.toNat + 4) = true ∧ s.serves (evt.toNat + 4) ∧
      s.laneWord (evt.toNat + 4) = none ∧ regRow (evt.toNat + 4) = some row) ∧
    (∃ (s : State) (addr : BitVec 26) (row : RegRow), isCounter addr.toNat = true ∧ s.serves addr.toNat ∧
      s.laneWord addr.toNat = none ∧ regRow addr.toNat = some row) ∧
    (∃ (s : State) (addr : BitVec 26), addr.toNat % 4 = 0 ∧ s.serves addr.toNat) ∧
    (∃ (s : State) (addr : BitVec 26) (be : BitVec 4), (be ≠ 0xF ∨ addr.toNat % 4 ≠ 0) ∧ s.hostOn = true) ∧
    (∃ (s : State) (addr : BitVec 26) (row : RegRow),
      (addr.toNat = offBlkEvt ∨ addr.toNat = offBlkEvtRoute ∨ addr.toNat = offTierPrefetchAhead ∨ addr.toNat = offWakeStatus) ∧
      s.serves addr.toNat ∧ regRow addr.toNat = some row) :=
  ⟨⟨(fun s => ({ (up s) with tel := { s.tel with opened := [iv17 0 false, iv17 (0 + 5) (0 % 2 == 0)] } }).tbMod (s.rdf offTelCtl 28 26) fun b => { b with val := (0 * 10 + 5) * nsUnit }) start,
      iv17 0 false, [iv17 (0 + 5) (0 % 2 == 0)], by decide +kernel⟩,
    ⟨(fun s => ({ (up s) with tel := { s.tel with opened := [iv17 0 true, iv17 (0 + 5) (0 % 2 == 0)] } }).tbMod (s.rdf offTelCtl 28 26) (fun b => { b with val := (0 * 10 + 5000) * nsUnit }) |>.wrf offTelArchNow 13 8 (1 + 0 % 5)) start,
      iv17 0 true, [iv17 (0 + 5) (0 % 2 == 0)], by decide +kernel⟩,
    ⟨(fun s => ({ (up s) with tel := { s.tel with flowOut := [[w32 0, 4], [5]] } })) start, [w32 0, 4], [[5]],
      by decide +kernel⟩,
    ⟨(fun s => ({ (up s) with tel := { s.tel with classOut := [(0, 0 % 3, [[w32 0, 4]]), (3, 2, [[5]])] } })) start, 0, 0 % 3,
      [[w32 0, 4]], [(3, 2, [[5]])], by decide +kernel⟩,
    ⟨(fun s => let v := s.rdf (evts17.getD (0 % 10) 0 + 8) 7 0; ({ (up s) with evWait := [(evts17.getD (0 % 10) 0, w32 (0 + 1))] }.wrf (rgStatus (1024 + v)) 31 30 1).wr (rgCons (1024 + v)) (w32 (0 * 99999999)) |>.wr (rgSeen (1024 + v)) (w32 (0 * 99999999 + 4294967296 - 0 % 50))) start,
      BitVec.ofNat 26 (evts17.getD (0 % 10) 0), by decide +kernel⟩,
    ⟨(fun s => up s) start, BitVec.ofNat 26 (evts17.getD (0 % 10) 0), (regRow (evts17.getD (0 % 10) 0 + 4)).getD rr017,
      by decide +kernel⟩,
    ⟨(fun s => up s) start, BitVec.ofNat 26 (ctrs17.getD (0 % 10) 0), (regRow (ctrs17.getD (0 % 10) 0)).getD rr017,
      by decide +kernel⟩,
    ⟨(fun s => up s) start, BitVec.ofNat 26 (offMacCtl (0 % 17) (0 % 16)), by decide +kernel⟩,
    ⟨(fun s => up s) start, BitVec.ofNat 26 (offMacCtl (0 % 17) (0 % 16) + 0 % 3), if 0 % 3 = 0 then BitVec.ofNat 4 0 else 15,
      by decide +kernel⟩,
    ⟨(fun s => up s) start, BitVec.ofNat 26 ([offBlkEvt, offBlkEvtRoute, offTierPrefetchAhead, offWakeStatus].getD (0 % 4) 0),
      (regRow ([offBlkEvt, offBlkEvtRoute, offTierPrefetchAhead, offWakeStatus].getD (0 % 4) 0)).getD rr017,
      by decide +kernel⟩⟩

def rk18 (n : Nat) : RingId := match n % 3 with | 0 => .tx (Fin.ofNat 512 n) | 1 => .rx (Fin.ofNat 512 n) | _ => .ev (Fin.ofNat 256 n)
def kk18 (n : Nat) : Nat := ringKey (rk18 n)
def rs18 (s : State) (n st : Nat) (f : RingSt) : State := ((s.wrf (rgStatus (kk18 n)) 31 30 st).ringMod (kk18 n) fun _ => f)
def nv18 (n : Nat) : Word := w32 (n % 3 * 16384 + kk18 n % 512)
theorem witness_RingsAndVectorsAct :
    (∃ (s : State) (r : RingId) (v : Word), s.serves 0x2F0000 ∧ nudgeRing v = some (ringKey r) ∧ s.ringState (ringKey r) = 1 ∧
      (s.ring (ringKey r)).fetching = false ∧ s.readsOut < 512) ∧
    (∃ (s : State) (r : RingId) (v : Word), s.serves 0x2F0000 ∧ nudgeRing v = some (ringKey r) ∧ s.ringState (ringKey r) = 1 ∧
      (s.ring (ringKey r)).fetching = false ∧ 512 ≤ s.readsOut) ∧
    (∃ (s : State) (r : RingId) (v : Word), s.serves 0x2F0000 ∧ nudgeRing v = some (ringKey r) ∧ s.ringState (ringKey r) = 1 ∧
      (s.ring (ringKey r)).fetching = true) ∧
    (∃ (s : State) (r : RingId) (v : Word), s.serves 0x2F0000 ∧ (nudgeRing v = none ∨ nudgeRing v = some (ringKey r)) ∧
      s.ringState (ringKey r) ≠ 1) ∧
    (∃ (s : State) (r : RingId), s.pollNext ≠ some (ringKey r)) ∧
    (∃ (s : State) (r : RingId), s.pollNext = some (ringKey r) ∧ (s.ring (ringKey r)).fetching = false ∧ s.readsOut < 512) ∧
    (∃ (s : State) (r : RingId), s.timerOn (.torn (ringKey r)) = true ∧ s.ringWorks (ringKey r) = true ∧
      (s.ring (ringKey r)).fetching = false ∧ s.readsOut < 512) ∧
    (∃ (s : State) (r : RingId) (words : List Word), s.fetchOut (ringKey r) = true ∧ s.ringWorks (ringKey r) = true ∧
      words.getD 3 0 = ~~~ words.getD 0 0 ∧ cntDiff (words.getD 0 0).toNat (s.seen (ringKey r)) < 2 ^ 31 ∧
      ((if ringKey r < 1024 then cntDiff (words.getD 0 0).toNat (s.cons (ringKey r)) else cntDiff (s.cons (ringKey r)) (words.getD 0 0).toNat) ≤ s.ringSize (ringKey r))) ∧
    (∃ (s : State) (r : RingId) (words : List Word), s.fetchOut (ringKey r) = true ∧ s.ringWorks (ringKey r) = true ∧
      words.getD 3 0 ≠ ~~~ words.getD 0 0) ∧
    (∃ (s : State) (r : RingId), s.ringWorks (ringKey r) = true ∧ s.ringReads (ringKey r) = true) ∧
    (∃ (s : State) (r : RingId) (write : Bool), s.ringWorks (ringKey r) = true ∧
      (write = true ∨ s.ringReads (ringKey r) = true)) ∧
    (∃ (s : State) (r : RingId) (v : Word), s.serves (rgCtl (ringKey r)) ∧ bit 29 v = false ∧ s.ringState (ringKey r) = 0) ∧
    (∃ (s : State) (r : RingId) (v : Word), s.serves (rgCtl (ringKey r)) ∧ bit 29 v = false ∧ s.ringState (ringKey r) = 1) ∧
    (∃ (s : State) (r : RingId), s.serves (rgCtl (ringKey r))) ∧
    (∃ (s : State) (r : RingId), s.ringState (ringKey r) = 2 ∧ (s.ring (ringKey r)).reserved = [] ∧
      (s.ring (ringKey r)).sends = []) ∧
    (∃ (s : State) (v : Fin 256), s.serves (offVecCtl v)) ∧
    (∃ (s : State) (v : Fin 256), s.hostOn = true ∧ s.rdb (offVecCtl v) 31 = true ∧ s.rdb (offVecCtl v) 27 = true ∧
      s.rdb (offVecStatus v) 25 = true ∧ (s.ring (1024 + v.val)).lastMsg = none) :=
  ⟨⟨(fun s => rs18 { (up s) with aug := [], rings := {} } 0 1 { db := 0 }) start, rk18 0, nv18 0, by decide +kernel⟩,
    ⟨(fun s => (rs18 { (up s) with aug := (List.range 512).map fun i => (i, { fetch := some (.next, i) }) } 0 1 { db := 0 }).ringsMod fun r => { r with readQ := [] }) start,
      rk18 0, nv18 0, by decide +kernel⟩,
    ⟨(fun s => rs18 (up s) 0 1 { db := 0, fetching := true }) start, rk18 0, nv18 0, by decide +kernel⟩,
    ⟨(fun s => rs18 (up s) 0 (0 % 2 * 2) { db := 0 }) start, rk18 0, if 0 % 5 = 0 then w32 (49152 + 0) else nv18 0,
      by decide +kernel⟩,
    ⟨(fun s => (rs18 ({ (up s) with rings := { pollTurn := kk18 0 }, aug := [] }) 0 2 { db := 0 }).wrb (rgCtl (kk18 0)) 30 true) start,
      rk18 0, by decide +kernel⟩,
    ⟨(fun s => (rs18 ({ (up s) with rings := { pollTurn := kk18 0 }, aug := [] }) 0 1 { db := 0 }).wrb (rgCtl (kk18 0)) 30 true) start,
      rk18 0, by decide +kernel⟩,
    ⟨(fun s => tm ((rs18 ({ (up s) with rings := {}, aug := [] }) 0 (1 + 0 % 2) { db := 0 })) (.torn (kk18 0))) start, rk18 0,
      by decide +kernel⟩,
    ⟨(fun s => ((((rs18 (up s) 0 (1 + 0 % 2) { db := 0, fetching := true, again := 0 % 2 == 0, waiting := [{ bytes := [1,2,3], ring := 1, reason := 2 }] })).wr (rgSeen (kk18 0)) (w32 (0 * 5))).wr (rgCons (kk18 0)) (w32 (0 * 5 + (if 0 % 3 = 2 then 5 else 0)))).ringsMod fun r => { r with readQ := if 0 % 4 = 0 then [5000] else [] }) start,
      rk18 0, [w32 (0 * 5 + 3), w32 0, 0, ~~~ w32 (0 * 5 + 3)], by decide +kernel⟩,
    ⟨(fun s => ((((rs18 (up s) 0 (1 + 0 % 2) { db := 0, fetching := true, again := 0 % 2 == 0 })).wr (rgSeen (kk18 0)) (w32 (0 * 5)))).ringsMod fun r => { r with readQ := if 0 % 4 = 0 then [5000] else [] }) start,
      rk18 0, [w32 (0 * 5 + 3), w32 0, 0, w32 (0 * 5 + 3)], by decide +kernel⟩,
    ⟨(fun s => (rs18 (up s) 0 (1 + 0 % 2) { db := 0, fetching := true, sends := [{ first := 1, descs := [] }] }).ringsMod fun r => { r with readQ := [] }) start,
      rk18 0, by decide +kernel⟩,
    ⟨(fun s => (rs18 (up s) 0 (1 + 0 % 2) { db := 0, fetching := true, sends := [{ first := 1, descs := [] }] }).ringsMod fun r => { r with readQ := [] }) start,
      rk18 0, 0 % 2 == 0, by decide +kernel⟩,
    ⟨(fun s => rs18 (up s) 0 0 { db := 0 }) start, rk18 0, w32 (0 * 987654321) &&& 0xDFFFFFFF, by decide +kernel⟩,
    ⟨(fun s => rs18 (up s) 0 1 { db := 0 , waiting := [{ bytes := [1,2,3], ring := 1, reason := 2 }] }) start, rk18 0,
      w32 (0 * 987654321) &&& 0xDFFFFFFF, by decide +kernel⟩,
    ⟨(fun s => rs18 (up s) 0 (0 % 4) { db := 0 , waiting := [{ bytes := [1,2,3], ring := 1, reason := 2 }] }) start, rk18 0,
      by decide +kernel⟩,
    ⟨(fun s => rs18 (up s) 0 2 { db := 0, open_ := [([1], [2])] }) start, rk18 0, by decide +kernel⟩,
    ⟨(fun s => up s) start, Fin.ofNat 256 0, by decide +kernel⟩,
    ⟨(fun s => (((up s).wrb (offVecCtl (0 % 256)) 31 true).wrb (offVecCtl (0 % 256)) 27 true).wrb (offVecStatus (0 % 256)) 25 true |>.ringMod (1024 + 0 % 256) fun r => { r with lastMsg := none }) start,
      Fin.ofNat 256 0, by decide +kernel⟩⟩

def xx19 (n : Nat) : Fin 512 := Fin.ofNat 512 (n * 37)
def rn19 (s : State) (k : Nat) (st : Nat) (f : RingSt) : State := (((up s).wrf (rgStatus k) 31 30 st).ringMod k fun _ => f)
def dsc19 (n : Nat) : List Word := [0, 0, w32 (0xC0000000 + 64 + n % 50), w32 (n % 3 * 0x80000000 + 4096 * (n % 40)), 0, 0, 0, 0]
def bf19 (n : Nat) : List Byte := (List.range (64 + n % 50)).map fun i => BitVec.ofNat 8 (i * n)
def sn19 (n : Nat) : Send := { first := n, descs := [dsc19 n], frames := [bf19 n, bf19 (n + 1)], crossed := n % 3 }
def hf19 (n : Nat) : HostFrame := { bytes := bf19 n, ring := (xx19 n).val, reason := 2, flow := n }
def rn019 (s : State) (k : Nat) (st : Nat) (f : RingSt) : State := let z := rn19 s k st f; { z with pwr := { z.pwr with isl := [(0, .on)] } }
theorem witness_HostDataPathActs :
    (∃ (s : State) (x : Fin 512) (descs : List (List Word × List Byte)), s.ringState x = 1 ∧
      descs.length ≤ cntDiff (s.seen x) (s.nextOf x)) ∧
    (∃ (s : State) (x : Fin 512) (d : List Word) (buf : List Byte), s.ringState x = 1 ∧ s.lineOn = true ∧
      (s.ring x).open_ = [] ∧ 0 < cntDiff (s.seen x) (s.nextOf x) ∧ isEop d = true ∧ txStatus [(d, buf)] = 0) ∧
    (∃ (s : State) (x : Fin 512) (d : List Word) (buf : List Byte), s.ringState x = 1 ∧ s.lineOn = true ∧
      (s.ring x).open_ = [] ∧ 0 < cntDiff (s.seen x) (s.nextOf x) ∧ isEop d = true ∧ txStatus [(d, buf)] ≠ 0) ∧
    (∃ (s : State) (x : Fin 512) (y : Send), s.hostOn = true ∧ s.lineOn = true ∧ s.txTurn = some x.val ∧
      (s.ring x).sends.find? Send.crosses = some y ∧ s.mayTake { bytes := y.frames.headD [], src := 256 } = true) ∧
    (∃ (s : State) (x : Fin 512) (y : Send), s.hostOn = true ∧ s.lineOn = true ∧ s.txTurn = some x.val ∧
      (s.ring x).sends.find? Send.crosses = some y ∧ s.mayTake { bytes := y.frames.headD [], src := 256 } = false) ∧
    (∃ (s : State) (x : Fin 512), s.hostOn = true ∧ s.lineOn = false ∧ s.txTurn = some x.val) ∧
    (∃ (s : State) (x : Fin 512) (y : Send), s.ringWorks x = true ∧ (s.ring x).sends.find? (s.sendDone x.val) = some y) ∧
    (∃ (s : State) (x : Fin 512) (id : Nat) (fate : Nat) (rest : List (Nat × Nat)), s.fates = (id, fate) :: rest ∧
      s.sendRing id = some x.val) ∧
    (∃ (s : State) (x : Fin 512) (id : Nat), ((s.ring x).sends.find? Send.awaits).bind (·.id) = some id ∧
      s.timerOn (.tsWait id) = true) ∧
    (∃ (s : State) (x : Fin 512) (f : HostFrame) (rest : List HostFrame), s.rings.store = f :: rest ∧ f.ring = x.val ∧
      s.ringState (512 + x.val) = 1 ∧ (s.ring (512 + x.val)).waiting = [] ∧
      s.descsFor (512 + x.val) f ≤ cntDiff (s.seen (512 + x.val)) (s.nextOf (512 + x.val))) ∧
    (∃ (s : State) (x : Fin 512) (f : HostFrame) (rest : List HostFrame), s.rings.store = f :: rest ∧ f.ring = x.val ∧
      s.ringState (512 + x.val) ≠ 1) ∧
    (∃ (s : State) (x : Fin 512) (f : HostFrame), (s.ring (512 + x.val)).waiting = [f] ∧ s.timerOn (.rxShort x.val) = true) ∧
    (∃ (s : State) (x : Fin 512) (f : HostFrame) (first : Nat) (cnt : Nat) (rest : List (HostFrame × Nat × Nat)),
      s.ringWorks (512 + x.val) = true ∧ (s.ring (512 + x.val)).reserved = (f, first, cnt) :: rest) :=
  ⟨⟨(fun s => ((rn19 s (xx19 0) 1 {}).wr (rgSeen (xx19 0)) (w32 (0 + 5))).wr (rgNext (xx19 0)) (w32 0)) start, xx19 0,
      [(dsc19 0, bf19 0), ([0, 0, w32 (0x80000000 + 64), 0, 0, 0, 0, 0], bf19 3)], by decide +kernel⟩,
    ⟨(fun s => ((rn19 s (xx19 0) 1 {}).wr (rgSeen (xx19 0)) (w32 (0 + 5))).wr (rgNext (xx19 0)) (w32 0)) start, xx19 0,
      dsc19 0, bf19 0, by decide +kernel⟩,
    ⟨(fun s => ((rn19 s (xx19 0) 1 {}).wr (rgSeen (xx19 0)) (w32 (0 + 5))).wr (rgNext (xx19 0)) (w32 0)) start, xx19 0, [0, 0,
      w32 (0xC0000000 + 10), 0, 0, 0, 0, 0], bf19 0, by decide +kernel⟩,
    ⟨(fun s => let z := rn19 s (xx19 0) 1 { sends := [{ first := 1, descs := [], written := false }, sn19 0, sn19 (0 + 1)] }; { z with frames := [], copies := [], rings := { z.rings with turn := (xx19 0).val } }) start,
      xx19 0, sn19 0, by decide +kernel⟩,
    ⟨(fun s => let z := rn19 s (xx19 0) 1 { sends := [sn19 0, sn19 (0 + 1)] }; { z with frames := (List.range 128).map fun i => (i, some { bytes := List.replicate 4096 0, src := 256, held := true }), copies := [], rings := { z.rings with turn := (xx19 0).val } }) start,
      xx19 0, sn19 0, by decide +kernel⟩,
    ⟨(fun s => let z := rn019 s (xx19 0) 1 { sends := [{ first := 1, descs := [], written := false }, sn19 0, sn19 (0 + 1)] }; { z with frames := [], copies := [], rings := { z.rings with turn := (xx19 0).val } }) start,
      xx19 0, by decide +kernel⟩,
    ⟨(fun s => rn19 s (xx19 0) (1 + 0 % 2) { sends := [{ first := 1, descs := [[1],[2]], written := true }, { sn19 0 with frames := [], descs := [dsc19 0, dsc19 (0 + 1)], written := 0 % 3 == 9 }, sn19 (0 + 1)] }) start,
      xx19 0, { sn19 0 with frames := [], descs := [dsc19 0, dsc19 (0 + 1)], written := false }, by decide +kernel⟩,
    ⟨(fun s => let z := rn19 s (xx19 0) (1 + 0 % 2) { sends := [{ sn19 0 with frames := [], id := some 0, tsReq := true }, sn19 (0 + 1)] }; { z with fates := [(0, 0 % 4), (3, 1)], rings := { z.rings with rings := [((xx19 0).val, z.ring (xx19 0))] } }) start,
      xx19 0, 0, 0 % 4, [(3, 1)], by decide +kernel⟩,
    ⟨(fun s => tm (rn19 s (xx19 0) (1 + 0 % 2) { sends := [{ sn19 0 with frames := [], id := some 0, tsReq := true }, sn19 (0 + 1)] }) (.tsWait 0)) start,
      xx19 0, 0, by decide +kernel⟩,
    ⟨(fun s => let z := ((rn19 s (512 + xx19 0) 1 {}).wr (rgSeen (512 + xx19 0)) (w32 (0 + 5))).wr (rgNext (512 + xx19 0)) (w32 0); { z with rings := { z.rings with store := [hf19 0, hf19 (0 + 1)] } }) start,
      xx19 0, hf19 0, [hf19 (0 + 1)], by decide +kernel⟩,
    ⟨(fun s => let z := rn19 s (512 + xx19 0) (0 % 2 * 2) {}; { z with rings := { z.rings with store := [hf19 0, hf19 (0 + 1)] } }) start,
      xx19 0, hf19 0, [hf19 (0 + 1)], by decide +kernel⟩,
    ⟨(fun s => tm (rn19 s (512 + xx19 0) (1 + 0 % 2) { waiting := [hf19 0] }) (.rxShort (xx19 0))) start, xx19 0, hf19 0,
      by decide +kernel⟩,
    ⟨(fun s => rn19 s (512 + xx19 0) (1 + 0 % 2) { reserved := [(hf19 0, 0, 1 + 0 % 3), (hf19 (0 + 2), 0 + 1, 1)] }) start,
      xx19 0, hf19 0, 0, 1 + 0 % 3, [(hf19 (0 + 2), 0 + 1, 1)], by decide +kernel⟩⟩

def cc20 (n : Nat) : Fin 32 := Fin.ofNat 32 n
def ch20 (s : State) (n st : Nat) (x : AugCh) : State := ((up s).wrf (offChState (cc20 n)) 31 30 st).augMod (cc20 n) fun _ => x
def dw20 (n : Nat) (m : Nat) : List Word := [w32 (n % 2 * 0x40000000 + 2 * 0x1000000 + 3 * 0x100000 + m * 0x80000000), w32 (n * 3), w32 (n * 5), w32 (64 * (1 + n % 20)), w32 (n * 32), 0, 0, 0]
def ad20 (n m i : Nat) : AugDesc := { num := 5 + n, addr := n * 32, words := dw20 n m, index := [], started := true, issued := i }
def opn20 (s : State) : State := ((s.wrb offAugExport 0 true).wrb (offImportCtl 3) 31 true).wr (offImportSize 3) 100
theorem witness_AugerChannelsAct :
    (∃ (s : State) (c : Fin 32) (v : Word), s.serves (offChDoorbell c) ∧ s.augState c = 0 ∧
      (bit 31 v = true ∨ s.augParked c = false) ∧ s.readsOut < 512) ∧
    (∃ (s : State) (c : Fin 32) (v : Word), s.serves (offChDoorbell c) ∧ s.augState c = 0 ∧ bit 31 v = false ∧
      s.augParked c = true ∧ s.readsOut < 512) ∧
    (∃ (s : State) (c : Fin 32), s.serves (offChDoorbell c) ∧ (s.augState c = 1 ∨ s.augState c = 2)) ∧
    (∃ (s : State) (c : Fin 32), s.serves (offChDoorbell c) ∧ s.augState c = 3) ∧
    (∃ (s : State) (c : Fin 32) (v : Word), s.serves (offChCtl c) ∧ bit 30 v = false ∧ s.augState c = 0) ∧
    (∃ (s : State) (c : Fin 32) (v : Word), s.serves (offChCtl c) ∧ bit 30 v = false ∧ s.augState c = 1 ∧
      (s.augCh c).out = [] ∧ (s.augCh c).fetch = none ∧ (s.augCh c).abort = false ∧ (s.augCh c).fault = none) ∧
    (∃ (s : State) (c : Fin 32) (v : Word), s.serves (offChCtl c) ∧ bit 30 v = false ∧ s.augState c = 2 ∧
      (s.augCh c).wasIdle = true ∧ s.augDbPend c = false) ∧
    (∃ (s : State) (c : Fin 32) (v : Word), s.serves (offChCtl c) ∧ bit 30 v = false ∧ s.augState c = 2 ∧
      (s.augCh c).wasIdle = false ∧ (s.augCh c).rereading = false ∧ s.readsOut < 512) ∧
    (∃ (s : State) (c : Fin 32) (v : Word), s.serves (offChCtl c) ∧ bit 30 v = false ∧ bit 31 v = false ∧ s.augState c = 3 ∧
      (s.augCh c).wasIdle = false ∧ (s.augCh c).rereading = false) ∧
    (∃ (s : State) (c : Fin 32), s.serves (offChCtl c) ∧ s.augState c ≠ 1) ∧
    (∃ (s : State) (c : Fin 32), s.serves (offChCtl c) ∧ s.augState c = 1 ∧ (s.augCh c).out ≠ []) ∧
    (∃ (s : State) (c : Fin 32) (what : AugFetch) (addr : Nat), s.augState c = 1 ∧ (s.augCh c).fetch = some (what, addr) ∧
      (s.augCh c).abort = false ∧ (s.augCh c).fault = none ∧ (s.augCh c).out = [] ∧ s.augWaits c = false) ∧
    (∃ (s : State) (c : Fin 32) (words : List Word) (index : List Word) (addr : Nat) (d : AugDesc), s.augState c = 1 ∧
      (s.augCh c).fetch = some (.next, addr) ∧ (s.augCh c).abort = false ∧ (s.augCh c).fault = none ∧ s.augPause c = false ∧
      (s.augCh c).descs = [] ∧ d = { num := (s.augCh c).nextNum, addr := addr, words := words, index := index } ∧
      d.bad = false ∧ d.last = false ∧ s.augStartBad d = none ∧ s.rings.readQ = [] ∧ s.readsOut ≤ 512) ∧
    (∃ (s : State) (c : Fin 32) (words : List Word) (index : List Word) (addr : Nat) (d : AugDesc), s.augState c = 1 ∧
      (s.augCh c).fetch = some (.next, addr) ∧ (s.augCh c).abort = false ∧ (s.augCh c).fault = none ∧ (s.augCh c).out = [] ∧
      s.augWaits c = false ∧ d = { num := (s.augCh c).nextNum, addr := addr, words := words, index := index } ∧ d.bad = true) ∧
    (∃ (s : State) (c : Fin 32), s.augNext ≠ some c.val) ∧
    (∃ (s : State) (c : Fin 32) (d : AugDesc), s.lineOn = true ∧ s.augNext = some c.val ∧ (s.augCh c).active = some d ∧
      d.started = true ∧ d.mode = 0 ∧ d.region = 2 ∧ d.issued < d.total ∧
      s.augSrcBad d (d.src d.issued) (min 512 (d.total - d.issued)) = none ∧
      s.augDstBad d (d.dst d.issued) (min 512 (d.total - d.issued)) = none ∧ (s.augCh c).descs.head? = some d) ∧
    (∃ (s : State) (c : Fin 32) (d : AugDesc), s.lineOn = true ∧ s.augNext = some c.val ∧ (s.augCh c).active = some d ∧
      d.started = true ∧ d.mode = 0 ∧ d.issued < d.total ∧ (s.augCh c).out = [] ∧ (s.augCh c).fetch = none ∧
      s.augSrcBad d (d.src d.issued) (min 512 (d.total - d.issued)) = some 4) ∧
    (∃ (s : State) (c : Fin 32) (d : AugDesc) (p : Nat), s.augState c = 1 ∧ (s.augCh c).out = [(d.num, p)] ∧
      (s.augCh c).descs = [d] ∧ (s.augCh c).fetch = none ∧ (s.augCh c).abort = false ∧ (s.augCh c).fault = none ∧
      s.augPause c = false ∧ s.augDbPend c = false ∧ d.last = true ∧ d.issued = d.total) ∧
    (∃ (s : State) (c : Fin 32) (num : Nat) (p : Nat), s.augState c = 1 ∧ (s.augCh c).out = [(num, p)] ∧
      (s.augCh c).fetch = none ∧ (s.augCh c).abort = false ∧ (s.augCh c).fault = none) :=
  ⟨⟨(fun s => ch20 s 0 0 { wasIdle := 0 % 2 == 0 }) start, cc20 0, w32 (0 * 987654321) ||| 0x80000000, by decide +kernel⟩,
    ⟨(fun s => (ch20 s 0 0 { wasIdle := 0 % 2 == 0 }).wrb (offChState (cc20 0)) 29 true) start, cc20 0,
      w32 (0 * 987654321) &&& 0x7FFFFFFF, by decide +kernel⟩,
    ⟨(fun s => (ch20 s 0 (1 + 0 % 2) { wasIdle := 0 % 2 == 0 })) start, cc20 0, by decide +kernel⟩,
    ⟨(fun s => (ch20 s 0 3 { wasIdle := 0 % 2 == 0 })) start, cc20 0, by decide +kernel⟩,
    ⟨(fun s => (ch20 s 0 0 {})) start, cc20 0, w32 (0 * 987654321) &&& 0xBFFFFFFF, by decide +kernel⟩,
    ⟨(fun s => (ch20 s 0 1 { descs := [ad20 0 0 0], rereading := 0 % 2 == 0 })) start, cc20 0,
      w32 (0 * 987654321) &&& 0xBFFFFFFF, by decide +kernel⟩,
    ⟨(fun s => (ch20 s 0 2 { wasIdle := true, rereading := 0 % 2 == 0 }).wrb (offChState (cc20 0)) 28 false) start, cc20 0,
      w32 (0 * 987654321) &&& 0xBFFFFFFF, by decide +kernel⟩,
    ⟨(fun s => (ch20 s 0 2 { })) start, cc20 0, w32 (0 * 987654321) &&& 0xBFFFFFFF, by decide +kernel⟩,
    ⟨(fun s => (ch20 s 0 3 { })) start, cc20 0, w32 (0 * 987654321) &&& 0x3FFFFFFF, by decide +kernel⟩,
    ⟨(fun s => (ch20 s 0 (0 % 2 * 2 + 0 % 3 / 2 * (1 - 0 % 2) * 3) { descs := [ad20 0 0 0] })) start, cc20 0,
      by decide +kernel⟩,
    ⟨(fun s => (ch20 s 0 1 { descs := [ad20 0 0 0], out := [(1, 2)] })) start, cc20 0, by decide +kernel⟩,
    ⟨(fun s => (ch20 s 0 1 { fetch := some (if 0 % 2 = 0 then .next else .reread, 0) })) start, cc20 0,
      (if 0 % 2 = 0 then .next else .reread), 0, by decide +kernel⟩,
    ⟨(fun s => (opn20 ((ch20 s 0 1 { fetch := some (.next, 0), nextNum := 4 }).wrb (offChCtl (cc20 0)) 31 false)).ringsMod fun r => { r with readQ := [] }) start,
      cc20 0, dw20 0 0, [], 0, { num := 4, addr := 0, words := dw20 0 0, index := [] }, by decide +kernel⟩,
    ⟨(fun s => opn20 ((ch20 s 0 1 { fetch := some (.next, 0), nextNum := 4 }).wrb (offChCtl (cc20 0)) 31 false)) start,
      cc20 0, [1,2,3,4], [], 0, { num := 4, addr := 0, words := [1,2,3,4], index := [] }, by decide +kernel⟩,
    ⟨(fun s => { (up s) with aug := [(3, { descs := [ad20 0 0 0] })], augTurn := 40 }) start, cc20 0, by decide +kernel⟩,
    ⟨(fun s => { ((opn20 ((ch20 s 0 1 { descs := [ad20 0 (0 % 3 / 2) (0 % 4 * 64), { ad20 0 0 0 with num := 6 + 0 }], nextNum := 4, fetch := if 0 % 5 = 0 then some (.next, 4) else none }).wrb (offChCtl (cc20 0)) 31 false)) : State) with aug := [((cc20 0).val, (opn20 ((ch20 s 0 1 { descs := [ad20 0 (0 % 3 / 2) (0 % 4 * 64), { ad20 0 0 0 with num := 6 + 0 }], nextNum := 4, fetch := if 0 % 5 = 0 then some (.next, 4) else none }).wrb (offChCtl (cc20 0)) 31 false)).augCh (cc20 0))], augTurn := 0 * 7 % 32 }) start,
      cc20 0, ad20 0 (0 % 3 / 2) (0 % 4 * 64), by decide +kernel⟩,
    ⟨(fun s => { ((opn20 ((ch20 s 0 1 { descs := [{ ad20 0 (0 % 3 / 2) 0 with words := [0x01000000, 0xFFFFFFFF, 0, 64] }], nextNum := 4 }).wrb (offChCtl (cc20 0)) 31 false)) : State) with aug := [((cc20 0).val, (opn20 ((ch20 s 0 1 { descs := [{ ad20 0 (0 % 3 / 2) 0 with words := [0x01000000, 0xFFFFFFFF, 0, 64] }], nextNum := 4 }).wrb (offChCtl (cc20 0)) 31 false)).augCh (cc20 0))], augTurn := 0 * 7 % 32 }) start,
      cc20 0, { ad20 0 (0 % 3 / 2) 0 with words := [0x01000000, 0xFFFFFFFF, 0, 64] }, by decide +kernel⟩,
    ⟨(fun s => ((ch20 s 0 1 { descs := [ad20 0 1 (64 * (1 + 0 % 20))], out := [(5 + 0, 0)] }).wrb (offChCtl (cc20 0)) 31 false).wrb (offChState (cc20 0)) 28 false) start,
      cc20 0, { ad20 0 1 (64 * (1 + 0 % 20)) with num := 5 + 0 }, 0, by decide +kernel⟩,
    ⟨(fun s => ((ch20 s 0 1 { descs := [ad20 0 1 (64 * (1 + 0 % 20))], out := [(5 + 0, 0)] }))) start, cc20 0, 5 + 0, 0,
      by decide +kernel⟩⟩

def ln21 (n : Nat) : Fin 64 := Fin.ofNat 64 n
def fb21 (s : State) (n : Nat) : State := { (up s) with fabric := [((ln21 n).val, 1 + n % 3)], time := { s.time with slots := [] } }
def ac21 (n : Nat) : ActSlot := { ns := 0, sec := 2 ^ 40, period := n, w4 := 0, w5 := 0x80000000 + BitVec.ofNat 32 ((ln21 n).val * 0x1000000), armed := n % 2 == 0 }
def ps21 (s : State) (p : List ScanEntry) (h : Bool) : State := { (up s) with assay := { s.assay with pass := some p, held := h } }
def dt21 (n : Nat) : List Byte := (List.range 64).map fun i => BitVec.ofNat 8 (i * n)
theorem witness_FabricAndAssayAct :
    (∃ (s : State) (line : Fin 64), (sget (fun _ => 0) s.fabric line.val ≠ 0) ∧ s.lineOn = true ∧ s.time.slots = []) ∧
    (∃ (s : State) (line : Fin 64) (b : BedIx), (sget (fun _ => 0) s.fabric line.val ≠ 0) ∧ s.lineOn = true ∧
      s.time.slots = [] ∧ s.bedOn b = true ∧ s.rdb (offMeshCtl b) 30 = true ∧ s.rdf (offMeshCtl b) 29 24 = line.val ∧
      s.meshBusy b = false ∧ (sget (fun _ => none) s.mesh.commits (2 * b.val) ≠ some (s.cycle, false))) ∧
    (∃ (s : State) (line : Fin 64) (a : Nat) (x : ActSlot), (sget (fun _ => 0) s.fabric line.val ≠ 0) ∧ s.lineOn = true ∧
      s.time.slots = [(a, x)] ∧ bit 31 x.w5 = true ∧ fld 29 24 x.w5 = line.val ∧ s.armVal (a / 256) ≤ x.time) ∧
    (∃ (s : State) (line : Fin 64) (i : Fin 16) (k : Nat), (sget (fun _ => 0) s.fabric line.val ≠ 0) ∧ s.lineOn = false ∧
      s.hostOn = true ∧ s.rdb (offAugNudge i) 31 = true ∧ s.rdf (offAugNudge i) 29 24 = line.val ∧
      nudgeRing (s.rd (offAugNudge i)) = some k ∧ s.ringState k = 1) ∧
    (∃ (s : State) (u : Fin 16) (v : Word), s.serves (offUnitCfg u) ∧ 8 ≤ fld 6 0 v ∧ fld 6 0 v ≤ 64) ∧
    (∃ (s : State) (u : Fin 16) (v : Word), s.serves (offUnitCfg u) ∧ (fld 6 0 v < 8 ∨ 64 < fld 6 0 v)) ∧
    (∃ (s : State), s.lineOn = true) ∧
    (∃ (s : State) (u : Fin 16) (v : Word), s.serves (offUnitResync u) ∧ bit 31 v = true) ∧
    (∃ (s : State), s.serves offScanCtl ∧ s.assay.pass = none ∧
      (((List.range 32).any fun e => bit 31 (s.rd (offScanEntryCtl e)) && !scanBad (s.scanEntry e)) = true)) ∧
    (∃ (s : State), s.serves offScanCtl ∧ s.assay.pass.isSome = true) ∧
    (∃ (s : State), s.timerOn .scan = true ∧ s.assay.pass.isSome = true) ∧
    (∃ (s : State) (data : List Byte) (e : ScanEntry) (rest : List ScanEntry), s.assay.pass = some (e :: rest) ∧
      s.lineOn = true ∧ rest ≠ [] ∧ fld 25 24 e.ctl ≠ 0 ∧ data.length = e.len ∧ e.index < 32 ∧ bit 29 e.ctl = true) ∧
    (∃ (s : State) (data : List Byte) (e : ScanEntry) (rest : List ScanEntry), s.assay.pass = some (e :: rest) ∧
      s.lineOn = true ∧ rest ≠ [] ∧ fld 25 24 e.ctl ≠ 0 ∧ data.length = e.len ∧ e.index < 32 ∧ bit 29 e.ctl = false ∧
      e.ref ≠ crc s.assay.entrySet data) ∧
    (∃ (s : State) (e : ScanEntry) (f : ScanEntry) (rest : List ScanEntry), s.assay.pass = some (e :: f :: rest) ∧
      s.lineOn = true) ∧
    (∃ (s : State) (e : ScanEntry), s.assay.pass = some [e] ∧ s.lineOn = true ∧ s.assay.held = false) :=
  ⟨⟨(fun s => fb21 s 0) start, ln21 0, by decide +kernel⟩,
    ⟨(fun s => (((fb21 s 0).wrb (offMeshCtl (Fin.ofNat 17 0).val) 30 true).wrf (offMeshCtl (Fin.ofNat 17 0).val) 29 24 (ln21 0)).wrb (offMeshEpoch (Fin.ofNat 17 0).val) 22 false) start,
      ln21 0, Fin.ofNat 17 0, by decide +kernel⟩,
    ⟨(fun s => { (fb21 s 0) with time := { s.time with slots := [(5 + 0 % 1000, ac21 0)] } }) start, ln21 0, 5 + 0 % 1000,
      ac21 0, by decide +kernel⟩,
    ⟨(fun s => let z := ((fb21 s 0).wr (offAugNudge (0 % 16)) (w32 (0x80000000 + (ln21 0).val * 0x1000000 + 0 % 512))).wrf (rgStatus (0 % 512)) 31 30 1; { z with pwr := { z.pwr with isl := [(0, .on)] } }) start,
      ln21 0, Fin.ofNat 16 0, 0 % 512, by decide +kernel⟩,
    ⟨(fun s => up s) start, Fin.ofNat 16 0, w32 (0 * 987654321 * 128 + 8 + 0 % 57), by decide +kernel⟩,
    ⟨(fun s => up s) start, Fin.ofNat 16 0, w32 (0 * 987654321 * 128 + 65 + 0 % 57), by decide +kernel⟩,
    ⟨(fun s => up s) start, by decide +kernel⟩,
    ⟨(fun s => { (up s) with assay := { s.assay with alive := [(256 * (0 % 16) + 4, 1), (700, 4)], slots := [(256 * (0 % 16) + 4, some 1), (700, some 4)] } }) start,
      Fin.ofNat 16 0, w32 (0 * 987654321 ||| 0x80000000), by decide +kernel⟩,
    ⟨(fun s => (((up s).wr (offScanEntryCtl (0 % 32)) 0x81000000).wr (offScanEntryStart (0 % 32)) (w32 0)) |> fun s => { s with assay := { s.assay with pass := none } }) start,
      by decide +kernel⟩,
    ⟨(fun s => ps21 s [⟨3, 5, 64, 64, 9⟩] false) start, by decide +kernel⟩,
    ⟨(fun s => tm (ps21 s [⟨3, 5, 64, 64, 9⟩] false) .scan) start, by decide +kernel⟩,
    ⟨(fun s => (ps21 s [⟨0 % 32, w32 (0xa1000000 + 0 * 65536), 64, 64, 0⟩, ⟨4, 5, 64, 64, 1⟩] false)) start, dt21 0, ⟨0 % 32,
      w32 (0xa1000000 + 0 * 65536), 64, 64, 0⟩, [⟨4, 5, 64, 64, 1⟩], by decide +kernel⟩,
    ⟨(fun s => (ps21 s [⟨1 % 32, w32 (0x81000000 + 1 * 65536), 64, 64, 1⟩, ⟨4, 5, 64, 64, 1⟩] false)) start, dt21 1, ⟨1 % 32,
      w32 (0x81000000 + 1 * 65536), 64, 64, 1⟩, [⟨4, 5, 64, 64, 1⟩], by decide +kernel⟩,
    ⟨(fun s => (ps21 s [⟨0 % 32, w32 (0x81000000 + 0 * 65536), 64, 64, 0⟩, ⟨4, w32 (0 * 65536), 64, 64, 1⟩] false)) start,
      ⟨0 % 32, w32 (0x81000000 + 0 * 65536), 64, 64, 0⟩, ⟨4, w32 (0 * 65536), 64, 64, 1⟩, [], by decide +kernel⟩,
    ⟨(fun s => (ps21 s [⟨0 % 32, w32 (0x80000000 + 0 * 65536), 0x380000, 64, 0⟩] false)) start, ⟨0 % 32,
      w32 (0x80000000 + 0 * 65536), 0x380000, 64, 0⟩, by decide +kernel⟩⟩

def kf22 (n : Nat) : Fin 8 := Fin.ofNat 8 n
def u222 (s : State) : State := sv (up s) 22
def ss22 (s : State) (n st : Nat) : State := (u222 s).wrf (offSiltStatus (kf22 n)) 31 28 st
def ms22 (s : State) (n st : Nat) : State := s.wrf (offSiltStatus (kf22 n)) 23 21 st
def pwl22 (s : State) (n : Nat) : State := (List.range 8).foldl (fun s i => s.wrb (lnStatus (siltLane (kf22 n) i)) 0 (i != n % 3)) s
def cpw22 (n : Nat) : List Word := [w32 (0x01080000 + 1 + n), w32 (0x02000400 + n), w32 n, w32 (n * 3)]
def capm22 (s : State) (n : Nat) (g a : Bool) : State := s.siltMod (kf22 n) fun x => { x with capGot := g, capAcked := a }
def cln22 (s : State) : State := { s with frames := [], copies := [] }
def use22 (s : State) (n c : Nat) (sp : Nat) : State := (s.wr (offSiltMap (kf22 n)) (w32 (c * 2 ^ 24 + (((List.range c).mapIdx fun j i => ((i + n) % 8) * 8 ^ j).sum)))).wrf (offSiltStatus (kf22 n)) 15 8 sp
def st22_13 : State := (fun s => ms22 (ss22 s 0 (0 % 8)) 0 1) start
def st22_14 : State := (fun s => ms22 (ss22 s 0 (0 % 8)) 0 2) start
theorem witness_SiltLinksAct :
    (∃ (s : State) (k : Fin 8) (v : Word), s.serves (offSiltCtl k) ∧ bit 30 v = false ∧ bit 29 v = false ∧
      s.roleServed 22 = true ∧ s.siltState k = 0 ∧ s.rdb (offSiltCtl k) 31 = false) ∧
    (∃ (s : State) (k : Fin 8) (v : Word), s.serves (offSiltCtl k) ∧ bit 30 v = false ∧ bit 29 v = false ∧
      s.rdb (offSiltCtl k) 31 = true ∧ s.siltHolds k = false) ∧
    (∃ (s : State) (k : Fin 8) (v : Word), s.serves (offSiltCtl k) ∧ bit 30 v = false ∧ bit 29 v = false ∧
      s.rdb (offSiltCtl k) 31 = true ∧ s.siltHolds k = true) ∧
    (∃ (s : State) (k : Fin 8) (lanes : BitVec 8) (asks : List EqAsk), s.siltStaging k = true ∧
      3 ≤ popcount (s.siltCan k lanes) ∧ s.siltAsked k (s.siltCan k lanes) asks = true) ∧
    (∃ (s : State) (k : Fin 8) (lanes : BitVec 8) (asks : List EqAsk), s.timerOn (.siltStage k) = true ∧
      s.siltStaging k = true ∧ 3 ≤ popcount (s.siltCan k lanes) ∧ s.siltAsked k (s.siltCan k lanes) asks = true) ∧
    (∃ (s : State) (k : Fin 8) (lanes : BitVec 8), s.timerOn (.siltStage k) = true ∧ s.siltStaging k = true ∧
      popcount (s.siltCan k lanes) < 3) ∧
    (∃ (s : State) (k : Fin 8), s.timerOn (.siltStage k) = true ∧ s.roleServed 22 = true ∧ s.siltState k = 4) ∧
    (∃ (s : State) (k : Fin 8), s.roleServed 22 = true ∧ s.siltState k = 4 ∧ s.timerOn (.siltCap k) = true) ∧
    (∃ (s : State) (k : Fin 8) (words : List Word), s.siltState k = 4 ∧ s.roleServed 22 = true ∧ capValid words = true) ∧
    (∃ (s : State) (k : Fin 8) (words : List Word), s.siltState k = 4 ∧ s.roleServed 22 = true ∧ capValid words = false) ∧
    (∃ (s : State) (k : Fin 8), s.roleServed 22 = true ∧ s.siltState k = 4) ∧
    (∃ (s : State) (k : Fin 8), s.roleServed 22 = true ∧ s.siltState k = 6 ∧ s.timerOn (.siltGap k) = true) ∧
    (∃ (s : State) (k : Fin 8) (v : Word), s.serves (offSiltCtl k) ∧ bit 29 v = false ∧ bit 31 v = s.rdb (offSiltCtl k) 31 ∧
      s.modState k = 1) ∧
    (∃ (s : State) (k : Fin 8) (v : Word), s.serves (offSiltCtl k) ∧ bit 30 v = false ∧ bit 31 v = s.rdb (offSiltCtl k) 31 ∧
      s.modState k = 2) ∧
    (∃ (s : State) (k : Fin 8), s.roleServed 22 = true ∧ s.siltActive k = true ∧ s.modState k = 2 ∧
      ((s.framesWhere fun x => (x.tier == 2 && x.unit == k.val) || x.moving == some (8 + k.val)) = [])) ∧
    (∃ (s : State) (k : Fin 8) (i : Fin 8) (sp : Fin 8), s.siltActive k = true ∧ s.roleServed 22 = true ∧
      (s.siltInUse k).contains i.val = true ∧ ((s.siltSpares k).filter (· != i.val)).head? = some sp.val) ∧
    (∃ (s : State) (k : Fin 8) (i : Fin 8), s.siltActive k = true ∧ s.roleServed 22 = true ∧
      (s.siltInUse k).contains i.val = true ∧ (s.siltSpares k).filter (· != i.val) = []) ∧
    (∃ (s : State) (k : Fin 8) (m : Nat), s.siltActive k = true ∧ s.timerOn (.siltMap k) = true ∧
      (s.siltSt k).mapPending = some m) ∧
    (∃ (s : State) (k : Fin 8) (i : Fin 8), s.roleServed 22 = true ∧ s.siltActive k = true ∧
      (s.siltInUse k ++ s.siltSpares k).contains i.val = false ∧ s.laneOff (siltLane k i) = false ∧
      s.mapped 3 (8 * k.val + i.val) = false) ∧
    (∃ (s : State) (k : Fin 8), s.siltActive k = true ∧ s.timerOn (.siltNull k) = true) :=
  ⟨⟨(fun s => ((ss22 s 0 0).wrb (offSiltCtl (kf22 0)) 31 false)) start, kf22 0, w32 (0 * 987654321) &&& 0x9FFFFFFF,
      by decide +kernel⟩,
    ⟨(fun s => (cln22 (ss22 s 0 (0 % 8))).wrb (offSiltCtl (kf22 0)) 31 true |>.siltMod (kf22 0) fun x => { x with addrs := [] }) start,
      kf22 0, w32 (0 * 987654321) &&& 0x9FFFFFFF, by decide +kernel⟩,
    ⟨(fun s => let z := ((u222 s).addFrame { bytes := List.replicate 64 0, src := 3, tier := 2, unit := (kf22 0).val, refs := 1 }).2; let f := ((u222 s).addFrame { bytes := List.replicate 64 0, src := 3, tier := 2, unit := (kf22 0).val, refs := 1 }).1; ((z.wrf (offSiltStatus (kf22 0)) 31 28 5).wrb (offSiltCtl (kf22 0)) 31 true).siltMod (kf22 0) fun x => { x with addrs := [(3, f)], writes := [] }) start,
      kf22 0, w32 (0 * 987654321) &&& 0x9FFFFFFF, by decide +kernel⟩,
    ⟨(fun s => (pwl22 (ss22 s 0 (1 + 0 % 3)) 0).siltMod (kf22 0) fun x => { x with stage := 0xFF }) start, kf22 0,
      BitVec.ofNat 8 (0xFF - 0 % 8), List.replicate 5 { ctle := 3, dfe := [1,2,3,4], fir := [0,0,0,40,0,0] },
      by decide +kernel⟩,
    ⟨(fun s => tm ((pwl22 (ss22 s 0 (1 + 0 % 3)) 0).siltMod (kf22 0) fun x => { x with stage := 0xFF }) (.siltStage (kf22 0).val)) start,
      kf22 0, BitVec.ofNat 8 (0xFF - 0 % 8), List.replicate 5 { ctle := 3, dfe := [1,2,3,4], fir := [0,0,0,40,0,0] },
      by decide +kernel⟩,
    ⟨(fun s => tm (pwl22 (ss22 s 0 (1 + 0 % 3)) 0) (.siltStage (kf22 0).val)) start, kf22 0, BitVec.ofNat 8 (0 % 4),
      by decide +kernel⟩,
    ⟨(fun s => tm (pwl22 (ss22 s 0 4) 0) (.siltStage (kf22 0).val)) start, kf22 0, by decide +kernel⟩,
    ⟨(fun s => tm (ss22 s 0 4) (.siltCap (kf22 0).val)) start, kf22 0, by decide +kernel⟩,
    ⟨(fun s => capm22 (ss22 s 0 4) 0 (0 % 3 == 0) (0 % 2 == 0)) start, kf22 0, cpw22 0, by decide +kernel⟩,
    ⟨(fun s => capm22 (ss22 s 0 4) 0 (0 % 3 == 0) (0 % 2 == 0)) start, kf22 0, w32 (0 % 2) :: cpw22 0, by decide +kernel⟩,
    ⟨(fun s => capm22 (ss22 s 0 4) 0 (0 % 2 == 0) (0 % 3 == 0)) start, kf22 0, by decide +kernel⟩,
    ⟨(fun s => tm (ss22 s 0 6) (.siltGap (kf22 0).val)) start, kf22 0, by decide +kernel⟩,
    ⟨st22_13, kf22 0, w32 (0 * 987654321) &&& 0x5FFFFFFF ||| (if st22_13.rdb (offSiltCtl (kf22 0)) 31 then 0x80000000 else 0),
      by decide +kernel⟩,
    ⟨st22_14, kf22 0, w32 (0 * 987654321) &&& 0x3FFFFFFF ||| (if st22_14.rdb (offSiltCtl (kf22 0)) 31 then 0x80000000 else 0),
      by decide +kernel⟩,
    ⟨(fun s => cln22 (ms22 (ss22 s 0 5) 0 2)) start, kf22 0, by decide +kernel⟩,
    ⟨(fun s => use22 (ss22 s 0 5) 0 (4 + 0 % 3) (0x80 + 0 % 3 * 0x40) |> fun s => use22 s 0 (4 + 0 % 3) (if 0 % 3 = 0 then 0x80 else 0x40)) start,
      kf22 0, kf22 (0 * 2 + 0 / 7), (if 0 % 3 = 0 then 7 else 6), by decide +kernel⟩,
    ⟨(fun s => use22 (ss22 s 0 5) 0 (2 + 0 % 5) (2 ^ (kf22 (0 * 2 + 0 / 7)).val * (0 % 2))) start, kf22 0,
      kf22 (0 * 2 + 0 / 7), by decide +kernel⟩,
    ⟨(fun s => tm ((ss22 s 0 5).siltMod (kf22 0) fun x => { x with mapPending := some 0 }) (.siltMap (kf22 0).val)) start,
      kf22 0, 0, by decide +kernel⟩,
    ⟨(fun s => let z := use22 (ss22 s 0 5) 0 (3 + 0 % 4) 0; z.wrf (siltLane (kf22 0) (kf22 (0 + 6))) 1 0 0) start, kf22 0,
      kf22 (0 + 6), by decide +kernel⟩,
    ⟨(fun s => tm (ss22 s 0 5) (.siltNull (kf22 0).val)) start, kf22 0, by decide +kernel⟩⟩

def kf23 (n : Nat) : Fin 8 := Fin.ofNat 8 n
def u223 (s : State) : State := sv (up s) 22
def ac23 (s : State) (n : Nat) (f : SiltSt → SiltSt) : State := ((u223 s).wrf (offSiltStatus (kf23 n)) 31 28 5).siltMod (kf23 n) f
def use23 (s : State) (n c : Nat) (sp : Nat) : State := (s.wr (offSiltMap (kf23 n)) (w32 (c * 2 ^ 24 + (((List.range c).mapIdx fun j i => ((i + n) % 8) * 8 ^ j).sum)))).wrf (offSiltStatus (kf23 n)) 15 8 sp
def rp23 (n : Nat) : List (Nat × SiltFlit × Nat) := [(5, { type := 3, arg := n }, n % 2), (6, { type := 2, arg := n }, n % 3), (7, { type := 3, arg := 1 }, 0)]
def fl23 (n : Nat) : List Byte := let h := beBytes 8 ((if n % 2 = 0 then 9 else 2) * 2 ^ 60 + n) ++ bytesAt [] 0 256 ; h ++ ethFcs h
def md23 (s : State) (n : Nat) : State := s.wrf (offSiltStatus (kf23 n)) 23 21 (n % 5)
set_option maxRecDepth 1000000 in
theorem witness_SiltFlitsAct :
    (∃ (s : State) (k : Fin 8) (seq : BitVec 12) (a : BitVec 30) (f : Nat) (rest : List (Nat × Nat)), s.siltActive k = true ∧
      seq.toNat = (s.siltSt k).expect ∧ (s.siltSt k).reads = (f, a.toNat) :: rest ∧ (rest.any (fun e => e.1 == f) = true) ∧
      (s.siltSt k).txq = [] ∧ (s.siltSt k).early = []) ∧
    (∃ (s : State) (k : Fin 8) (seq : BitVec 12), s.siltActive k = true ∧ seq.toNat ≠ (s.siltSt k).expect ∧
      (seq.toNat + 4096 - (s.siltSt k).expect) % 4096 < 512 ∧ (s.siltSt k).expect < 4096 ∧ (s.siltSt k).naked = false) ∧
    (∃ (s : State) (k : Fin 8) (seq : BitVec 12), s.siltActive k = true ∧ seq.toNat ≠ (s.siltSt k).expect ∧
      (s.siltSt k).expect < 4096 ∧ (512 ≤ (seq.toNat + 4096 - (s.siltSt k).expect) % 4096 ∨ (s.siltSt k).naked = true)) ∧
    (∃ (s : State) (k : Fin 8) (seq : BitVec 12), s.siltActive k = true ∧ seq.toNat = (s.siltSt k).expect ∧ s.frames = [] ∧
      (s.siltSt k).txq = [] ∧ (s.siltSt k).early = []) ∧
    (∃ (s : State) (k : Fin 8) (seq : BitVec 12) (ack' : BitVec 12) (w' : BitVec 18) (r' : BitVec 18), s.siltActive k = true ∧
      seq.toNat = (s.siltSt k).expect ∧ (s.siltSt k).txq = [] ∧ (s.siltSt k).early = [((seq.toNat + 1) % 4096, ack'.toNat,
      .credit w'.toNat r'.toNat)]) ∧
    (∃ (s : State) (k : Fin 8) (seq : BitVec 12), s.siltActive k = true ∧ seq.toNat = (s.siltSt k).expect ∧
      (s.siltSt k).txq = [] ∧ (s.siltSt k).early = []) ∧
    (∃ (s : State) (k : Fin 8) (ack : BitVec 12) (expected : BitVec 12) (i : Nat), s.siltActive k = true ∧
      (((s.siltSt k).replay.findIdx? fun e => e.1 == ack.toNat) = none) ∧
      (((s.siltSt k).replay.findIdx? fun e => e.1 == expected.toNat) = some i) ∧
      ((s.siltSt k).replay.all (fun e => decide (e.2.2 + 1 < s.rdf (offSiltReplay k) 31 28)) = true)) ∧
    (∃ (s : State) (k : Fin 8) (ack : BitVec 12) (i : Fin 8) (sp : Fin 8), s.siltActive k = true ∧
      (((s.siltSt k).replay.findIdx? fun e => e.1 == ack.toNat) = none) ∧ s.roleServed 22 = true ∧
      (s.siltInUse k).contains i.val = true ∧ ((s.siltSpares k).filter (· != i.val)).head? = some sp.val) ∧
    (∃ (s : State) (k : Fin 8) (map : BitVec 21), s.siltActive k = true ∧ (s.siltSt k).mapPending = some map.toNat) ∧
    (∃ (s : State) (k : Fin 8) (seq : BitVec 12) (words : List Word), s.siltActive k = true ∧
      seq.toNat = (s.siltSt k).expect ∧ fld 31 30 (words.getD 0 0) = 1 ∧ (s.siltSt k).early = []) ∧
    (∃ (s : State) (k : Fin 8) (seq : BitVec 12) (words : List Word), s.siltActive k = true ∧
      seq.toNat = (s.siltSt k).expect ∧ 2 ≤ fld 31 30 (words.getD 0 0)) ∧
    (∃ (s : State) (k : Fin 8), s.siltActive k = true ∧ s.timerOn (.siltReplay k) = true ∧
      ((s.siltSt k).replay.all (fun e => decide (e.2.2 + 1 < s.rdf (offSiltReplay k) 31 28)) = true)) ∧
    (∃ (s : State) (k : Fin 8), s.siltActive k = true ∧ s.timerOn (.siltReplay k) = true ∧
      ((s.siltSt k).replay.any (fun e => decide (s.rdf (offSiltReplay k) 31 28 ≤ e.2.2 + 1)) = true)) ∧
    (∃ (s : State) (k : Fin 8), s.siltActive k = true ∧ s.timerOn (.siltLoss k) = true) ∧
    (∃ (s : State) (k : Fin 8), s.siltActive k = true) ∧
    (∃ (s : State) (k : Fin 8) (bytes : List Byte), s.siltActive k = true ∧
      ethFcs (bytesAt bytes 0 264) = bytesAt bytes 264 4 ∧ flitProto bytes = true) ∧
    (∃ (s : State) (k : Fin 8) (lane : Fin 8) (bytes : List Byte), s.siltActive k = true ∧
      ethFcs (bytesAt bytes 0 264) ≠ bytesAt bytes 264 4 ∧ (s.siltInUse k).contains lane.val = false) ∧
    (∃ (s : State) (k : Fin 8) (ack : BitVec 12) (i : Nat), s.siltActive k = true ∧
      (((s.siltSt k).replay.findIdx? fun e => e.1 == ack.toNat) = some i) ∧ (s.siltSt k).txq = []) ∧
    (∃ (s : State) (k : Fin 8) (ack : BitVec 12), s.siltActive k = true ∧
      (((s.siltSt k).replay.findIdx? fun e => e.1 == ack.toNat) = none)) ∧
    (∃ (s : State) (k : Fin 8) (i : Fin 8) (symbols : List (Fin 4)), s.siltActive k = true ∧
      s.laneLocked (siltLane k i) = true ∧ unstuff (symbols.map (·.val)) = none) :=
  ⟨⟨(fun s => ac23 s 0 fun x => { x with expect := 0 % 4096, reads := [(3, 0), (4, 5), (3, 0 + 1)], txq := [], replay := rp23 0 }) start,
      kf23 0, BitVec.ofNat 12 0, BitVec.ofNat 30 0, 3, [(4, 5), (3, 0 + 1)], by decide +kernel⟩,
    ⟨(fun s => ac23 s 0 fun x => { x with expect := 0 % 4096, reads := [(3, 0), (4, 5), (3, 0 + 1)], txq := [], replay := rp23 0, naked := false, early := [(0 + 5, 3, .credit 1 2), (0 + 1, 3, .writeAck 1)] }) start,
      kf23 0, BitVec.ofNat 12 (0 + 1 + 0 % 300), by decide +kernel⟩,
    ⟨(fun s => ac23 s 0 fun x => { x with expect := 0 % 4096, reads := [(3, 0), (4, 5), (3, 0 + 1)], txq := [], replay := rp23 0, naked := 0 % 2 == 0 || 0 % 5 == 0, early := [(0 + 5, 3, .credit 1 2)] }) start,
      kf23 0, BitVec.ofNat 12 (0 + 1 + 0 % 2 * 600), by decide +kernel⟩,
    ⟨(fun s => { (ac23 s 0 fun x => { x with expect := 0 % 4096, writes := [(3, 0), (4, 5), (3, 0 + 1)], txq := [], replay := rp23 0 }) with frames := [] }) start,
      kf23 0, BitVec.ofNat 12 0, by decide +kernel⟩,
    ⟨(fun s => ac23 s 0 fun x => { x with expect := 0 % 4096, txq := [], replay := rp23 0, early := [((0 + 1) % 4096, 6, .credit 5 9)] }) start,
      kf23 0, BitVec.ofNat 12 0, BitVec.ofNat 12 6, 5, 9, by decide +kernel⟩,
    ⟨(fun s => ac23 s 0 fun x => { x with expect := 0 % 4096, txq := [], replay := rp23 0 }) start, kf23 0, BitVec.ofNat 12 0,
      by decide +kernel⟩,
    ⟨(fun s => (ac23 s 0 fun x => { x with replay := rp23 0 }).wrf (offSiltReplay (kf23 0)) 31 28 (4 + 0 % 4)) start, kf23 0,
      4000, BitVec.ofNat 12 (5 + 0 % 3), 0 % 3, by decide +kernel⟩,
    ⟨(fun s => use23 (ac23 s 0 fun x => { x with replay := rp23 0 }) 0 (4 + 0 % 3) (if 0 % 3 = 0 then 0x80 else 0x40)) start,
      kf23 0, 4000, kf23 (0 * 2 + 0 / 7), (if 0 % 3 = 0 then 7 else 6), by decide +kernel⟩,
    ⟨(fun s => tm (ac23 s 0 fun x => { x with mapPending := some (0 * 777), replay := rp23 0 }) (.siltMap (kf23 0))) start,
      kf23 0, BitVec.ofNat 21 (0 * 777), by decide +kernel⟩,
    ⟨(fun s => ac23 s 0 fun x => { x with expect := 0 % 4096, txq := [], replay := rp23 0 }) start, kf23 0, BitVec.ofNat 12 0,
      [w32 (0x40000000 + 0), w32 0, w32 (0 * 3)], by decide +kernel⟩,
    ⟨(fun s => md23 (ac23 s 0 fun x => { x with expect := 0 % 4096, txq := [], replay := rp23 0 }) 0) start, kf23 0,
      BitVec.ofNat 12 0, [w32 (0x80000000 + 0), w32 0, w32 (0 * 3)], by decide +kernel⟩,
    ⟨(fun s => (tm (ac23 s 0 fun x => { x with replay := rp23 0 }) (.siltReplay (kf23 0))).wrf (offSiltReplay (kf23 0)) 31 28 (4 + 0 % 4)) start,
      kf23 0, by decide +kernel⟩,
    ⟨(fun s => (tm (ac23 s 0 fun x => { x with replay := rp23 0 }) (.siltReplay (kf23 0))).wrf (offSiltReplay (kf23 0)) 31 28 (0 % 2)) start,
      kf23 0, by decide +kernel⟩,
    ⟨(fun s => md23 (tm (ac23 s 0 fun x => { x with replay := rp23 0 }) (.siltLoss (kf23 0))) 0) start, kf23 0,
      by decide +kernel⟩,
    ⟨(fun s => ac23 s 0 fun x => { x with naked := 0 % 2 == 0 }) start, kf23 0, by decide +kernel⟩,
    ⟨(fun s => ac23 s 0 fun x => { x with naked := 0 % 2 == 0 }) start, kf23 0, fl23 0, by decide +kernel⟩,
    ⟨(fun s => (use23 (ac23 s 0 fun x => { x with naked := 0 % 2 == 0 }) 0 (3 + 0 % 4) 0)) start, kf23 0, kf23 7, [3, 4],
      by decide +kernel⟩,
    ⟨(fun s => ac23 s 0 fun x => { x with replay := rp23 0, txq := [] }) start, kf23 0, BitVec.ofNat 12 (5 + 0 % 3), 0 % 3,
      by decide +kernel⟩,
    ⟨(fun s => ac23 s 0 fun x => { x with replay := rp23 0 }) start, kf23 0, 4000, by decide +kernel⟩,
    ⟨(fun s => (ac23 s 0 fun x => x).wrb (lnStatus (siltLane (kf23 0) (kf23 (0 * 3)))) 2 true) start, kf23 0, kf23 (0 * 3),
      List.replicate (32 + 0 % 5) 2, by decide +kernel⟩⟩

def ef24 (n : Nat) : Fin 26 := Fin.ofNat 26 n
def lc24 (s : State) (b : Nat) : State := { (up s) with pwr := { (up s).pwr with lifeSensed := b } }
def nm24 (s : State) : State := (List.range 64).foldl (fun s i => s.wr (offMapRt i) 0) s
def es24 (s : State) (n st : Nat) : State := (nm24 s).wrf (offEngStatus (ef24 n)) 31 29 st
def ldn24 (s : State) : State := { s with tilth := { s.tilth with load := none } }
def lds24 (s : State) (n : Nat) : State := { s with tilth := { s.tilth with load := some ((ef24 n).val, [1, 2, 3, BitVec.ofNat 8 n]) } }
theorem witness_LoadPortActs :
    (∃ (s : State) (v : Word) (e : Fin 26), s.serves offLoadCtl ∧ bit 30 v = false ∧ bit 29 v = false ∧ fld 20 16 v = e.val ∧
      s.rdb offLoadCtl 28 = false ∧ s.tilth.load = none ∧ (s.engState e = 0 ∨ s.engState e = 2 ∨ s.engState e = 4)) ∧
    (∃ (s : State) (v : Word), s.serves offLoadCtl ∧ bit 30 v = false ∧ bit 29 v = false ∧ s.rdb offLoadCtl 28 = false ∧
      (26 ≤ fld 20 16 v ∨ s.engState (fld 20 16 v) = 3 ∨ s.engState (fld 20 16 v) = 5)) ∧
    (∃ (s : State) (e : Nat) (bs : List Byte), s.serves offLoadData ∧ s.tilth.load = some (e, bs) ∧
      s.rdb offLoadCtl 28 = false) ∧
    (∃ (s : State) (v : Word), s.serves offLoadCtl ∧ bit 31 v = false ∧ bit 29 v = false ∧ s.tilth.load.isSome = true) ∧
    (∃ (s : State) (v : Word) (e : Fin 26) (bs : List Byte), s.serves offLoadCtl ∧ bit 31 v = false ∧ bit 30 v = false ∧
      s.tilth.load = some (e.val, bs) ∧ s.mapped 5 e = false) ∧
    (∃ (s : State) (e : Fin 26) (img : List Byte), s.tilth.load = some (e.val, img) ∧ s.rdb offLoadCtl 28 = true ∧
      s.mapped 5 e = false) :=
  ⟨⟨(fun s => (ldn24 (es24 (lc24 s 0) 0 (0 % 3 * 2))).wrb offLoadCtl 28 false) start,
      (w32 (0 * 987654321 * 0x200000) ||| w32 ((ef24 0).val * 0x10000 + 0)) &&& 0x9FFFFFFF, ef24 0, by decide +kernel⟩,
    ⟨(fun s => (ldn24 (es24 (lc24 s 0) 0 3)).wrb offLoadCtl 28 false) start,
      (w32 (0 * 987654321 * 0x200000) ||| w32 ((ef24 0).val * 0x10000 + 0)) &&& 0x9FFFFFFF, by decide +kernel⟩,
    ⟨(fun s => (lds24 (es24 (lc24 s 0) 0 1) 0).wrb offLoadCtl 28 false) start, (ef24 0).val, [1, 2, 3, BitVec.ofNat 8 0],
      by decide +kernel⟩,
    ⟨(fun s => (lds24 (es24 (lc24 s 0) 0 1) 0)) start, w32 (0 * 987654321) &&& 0x5FFFFFFF, by decide +kernel⟩,
    ⟨(fun s => (lds24 (es24 (lc24 s (0 % 2 * 255)) 0 1) 0)) start, w32 (0 * 987654321) &&& 0x3FFFFFFF, ef24 0, [1, 2, 3,
      BitVec.ofNat 8 0], by decide +kernel⟩,
    ⟨(fun s => (lds24 (es24 (lc24 s (0 % 2 * 255)) 0 1) 0).wrb offLoadCtl 28 true) start, ef24 0, [1, 2, 3, BitVec.ofNat 8 0],
      by decide +kernel⟩⟩

def ef25 (n : Nat) : Fin 26 := Fin.ofNat 26 n
def rf25 (n : Nat) : Fin 24 := Fin.ofNat 24 (n * 7)
def e225 (n : Nat) : Fin 26 := Fin.ofNat 26 (n + 5)
def nm25 (s : State) : State := (List.range 64).foldl (fun s i => s.wr (offMapRt i) 0) (up s)
def im25 (n : Nat) : List Byte := leBytes 4 0x48544C54 ++ leBytes 4 0x1000000 ++ leBytes 4 0xFFFFFF ++ leBytes 4 n ++ leBytes 4 (n % 100) ++ leBytes 4 (n % 4 * 0x1000000 + 0x0000FF00)
def st25 (n : Nat) : List (BitVec 96) := [0, BitVec.ofNat 96 (7 * 2 ^ 91 + (n % 64) * 2 ^ 85), BitVec.ofNat 96 (9 * 2 ^ 92)]
def en25 (s : State) (e x : Nat) (n : Nat) : State := (s.wrf (offEngStatus e) 31 29 x).engMod e fun _ => { image := some (im25 n), store := st25 n }
def rn25 (s : State) (n : Nat) : State := (en25 (nm25 s) (ef25 n) 3 n).wrf (offEngStatus (ef25 n)) 28 24 (rf25 n) |>.wrb (offRoleStatus (rf25 n)) 31 true
def ro25 (s : State) (n : Nat) (f : RoleSt → RoleSt) : State := s.roleMod (rf25 n) f
theorem witness_RolesAndEnginesAct :
    (∃ (s : State) (e : Fin 26) (r : Fin 24) (v : Word), s.serves (offRoleCtl r) ∧ bit 30 v = false ∧ bit 29 v = false ∧
      fld 28 24 v = e.val ∧ s.roleServed r = false ∧ s.engFit r e = true) ∧
    (∃ (s : State) (e : Fin 26) (r : Fin 24) (v : Word), s.serves (offRoleCtl r) ∧ bit 30 v = false ∧ bit 29 v = false ∧
      fld 28 24 v = e.val ∧ (s.roleServed r = true ∨ s.engFit r e = false)) ∧
    (∃ (s : State) (e : Fin 26) (r : Fin 24) (v : Word), s.serves (offRoleCtl r) ∧ bit 31 v = false ∧ bit 29 v = false ∧
      fld 28 24 v = e.val ∧ s.roleServed r = true ∧ s.engFit r e = true) ∧
    (∃ (s : State) (r : Fin 24) (v : Word), s.serves (offRoleCtl r) ∧ bit 31 v = false ∧ bit 30 v = false ∧
      s.roleServed r = true) ∧
    (∃ (s : State) (e : Fin 26), s.lineOn = true ∧ s.engState e = 2) ∧
    (∃ (s : State) (e : Fin 26) (r : Fin 24) (addr : BitVec 14) (flips : BitVec 100), s.engState e = 3 ∧
      s.rdf (offEngStatus e) 28 24 = r.val ∧ s.rdb (offRoleStatus r) 30 = false ∧
      parityGroups (withParity ((s.eng e).store.getD addr.toNat 0) ^^^ flips) ≠ 0) ∧
    (∃ (s : State) (e : Fin 26) (r : Fin 24), s.engState e = 3 ∧ s.rdf (offEngStatus e) 28 24 = r.val ∧
      s.rdb (offRoleStatus r) 30 = false ∧ s.rdb (offRoleCtl r) 15 = false ∧ s.timerOn (.tilthWd e) = true) ∧
    (∃ (s : State) (e : Fin 26) (r : Fin 24) (addr : BitVec 14), s.engState e = 3 ∧ s.rdf (offEngStatus e) 28 24 = r.val ∧
      ((s.eng e).store.getD addr.toNat 0).toNat / 2 ^ 91 = 7 ∧ (s.role r).abort = false ∧ (s.role r).wake = false ∧
      s.rdb (offRoleStatus r) 30 = false) ∧
    (∃ (s : State) (e : Fin 26) (r : Fin 24) (addr : BitVec 14) (f : Fin 26), s.engState e = 3 ∧
      s.rdf (offEngStatus e) 28 24 = r.val ∧ ((s.eng e).store.getD addr.toNat 0).toNat / 2 ^ 91 = 7 ∧
      (s.role r).abort = false ∧ (s.role r).wake = false ∧ s.rdb (offRoleStatus r) 30 = true ∧ (s.role r).target = f.val ∧
      s.engFit r f = true ∧ imgReads ((s.eng f).image.getD []) (imgFormat ((s.eng e).image.getD [])) = true) ∧
    (∃ (s : State) (e : Fin 26) (r : Fin 24), (s.role r).takeover = some e.val ∧ s.engState e = 2 ∧ s.engFit r e = true ∧
      s.recordFit r e = true) :=
  ⟨⟨(fun s => (en25 (nm25 s) (ef25 0) 2 0).wrb (offRoleStatus (rf25 0)) 31 false) start, ef25 0, rf25 0,
      w32 (0 * 987654321) &&& 0x80FFFFFF ||| w32 ((ef25 0).val * 0x1000000), by decide +kernel⟩,
    ⟨(fun s => (en25 (nm25 s) (ef25 0) (0 % 4) 0).wrb (offRoleStatus (rf25 0)) 31 (0 % 4 == 2)) start, ef25 0, rf25 0,
      w32 (0 * 987654321) &&& 0x80FFFFFF ||| w32 ((ef25 0).val * 0x1000000), by decide +kernel⟩,
    ⟨(fun s => (en25 (nm25 s) (ef25 0) 2 0).wrb (offRoleStatus (rf25 0)) 31 true) start, ef25 0, rf25 0,
      w32 (0 * 987654321) &&& 0x40FFFFFF ||| w32 ((ef25 0).val * 0x1000000), by decide +kernel⟩,
    ⟨(fun s => (en25 (nm25 s) (ef25 0) 2 0).wrb (offRoleStatus (rf25 0)) 31 true) start, rf25 0,
      w32 (0 * 987654321) &&& 0x3FFFFFFF, by decide +kernel⟩,
    ⟨(fun s => en25 (nm25 s) (ef25 0) 2 0) start, ef25 0, by decide +kernel⟩,
    ⟨(fun s => (rn25 s 0).wrb (offRoleStatus (rf25 0)) 30 false) start, ef25 0, rf25 0, BitVec.ofNat 14 (0 % 4),
      BitVec.ofNat 100 (2 ^ (0 % 100)), by decide +kernel⟩,
    ⟨(fun s => tm (((rn25 s 0).wrb (offRoleStatus (rf25 0)) 30 false).wrb (offRoleCtl (rf25 0)) 15 false) (.tilthWd (ef25 0).val)) start,
      ef25 0, rf25 0, by decide +kernel⟩,
    ⟨(fun s => (ro25 (rn25 s 0) 0 fun x => { x with abort := false, wake := false }).wrb (offRoleStatus (rf25 0)) 30 false) start,
      ef25 0, rf25 0, 1, by decide +kernel⟩,
    ⟨(fun s => (ro25 (en25 (rn25 s 0) (e225 0) 2 (0 + 3)) 0 fun x => { x with abort := false, wake := false, target := (e225 0).val }).wrb (offRoleStatus (rf25 0)) 30 true) start,
      ef25 0, rf25 0, 1, e225 0, by decide +kernel⟩,
    ⟨(fun s => (ro25 (en25 (nm25 s) (ef25 0) 2 0) 0 fun x => { x with takeover := some (ef25 0).val, record := if 0 % 2 = 0 then none else some (5, [1]) })) start,
      ef25 0, rf25 0, by decide +kernel⟩⟩

def bf26 (n : Nat) : BedIx := Fin.ofNat 17 n
def hk26 (s : State) (n : Nat) : State := let z := ((up s).wrf (offSwapStatus) 31 28 (1 + n % 6)).wrf offHarmStatus 20 16 (n % 17) ; { z with harm := { s.harm with stale := [3, 40] } }
def hh26 (s : State) (n c t : Nat) : State := let z := (tm (hk26 s n) (.heartbeat (bf26 n))).wrf (harmCtl 6) 7 0 t ; { z with harm := { z.harm with counts := [(harmKey 6 (.bed (bf26 n)), c)], seq := n * 991 % 65536 } }
theorem witness_HarmActs :
    (∃ (s : State), s.lineOn = true ∧ s.hasSafety = true) ∧
    (∃ (s : State) (b : BedIx), s.heartChecked b = true ∧ s.timerOn (.heartbeat b) = true ∧ s.hasSafety = true ∧
      (sget (fun _ => 0) s.harm.counts (harmKey 6 (.bed b)) + 1 < max 1 (s.rdf (harmCtl 6) 7 0))) ∧
    (∃ (s : State) (b : BedIx), s.heartChecked b = true ∧ s.timerOn (.heartbeat b) = true ∧ s.hasSafety = true ∧
      (max 1 (s.rdf (harmCtl 6) 7 0) ≤ sget (fun _ => 0) s.harm.counts (harmKey 6 (.bed b)) + 1)) ∧
    (∃ (s : State) (cls : Fin 7) (a : HarmAt), s.timerOn (.harmWindow (harmKey cls (harmTarget a))) = true) ∧
    (∃ (s : State) (v : Word), s.serves offHarmAck ∧
      (s.rdf offHarmStatus 15 0 + 65536 - fld 15 0 v) % 65536 < s.rdf offHarmStatus 20 16) ∧
    (∃ (s : State) (v : Word), s.serves offHarmAck ∧
      s.rdf offHarmStatus 20 16 ≤ (s.rdf offHarmStatus 15 0 + 65536 - fld 15 0 v) % 65536) ∧
    (∃ (s : State) (w : Fin 9), s.serves (fenceReg w)) ∧
    (∃ (s : State) (w : Word) (rest : List Word), s.harm.reports = w :: rest) :=
  ⟨⟨(fun s => hk26 s 0) start, by decide +kernel⟩,
    ⟨(fun s => hh26 s 0 (0 % 5) (0 % 5 + 2 + 0 % 7)) start, bf26 0, by decide +kernel⟩,
    ⟨(fun s => hh26 s 0 (0 % 5 + 3) (0 % 5)) start, bf26 0, by decide +kernel⟩,
    ⟨(fun s => tm (up s) (.harmWindow (harmKey (0 % 7) (match 0 % 3 with | 0 => .none | 1 => .port 5 | _ => .bed 4)))) start,
      Fin.ofNat 7 0, (match 0 % 3 with | 0 => .none | 1 => .port 5 | _ => .bed 4), by decide +kernel⟩,
    ⟨(fun s => ((up s).wrf offHarmStatus 15 0 (0 * 1000 % 65536 + 0 % 3)).wrf offHarmStatus 20 16 (3 + 0 % 14)) start,
      w32 (0 * 65536 + 0 * 1000 % 65536), by decide +kernel⟩,
    ⟨(fun s => ((up s).wrf offHarmStatus 15 0 (0 * 1000 % 65536 + 0 % 3 + 16)).wrf offHarmStatus 20 16 (0 % 16)) start,
      w32 (0 * 65536 + 0 * 1000 % 65536), by decide +kernel⟩,
    ⟨(fun s => up s) start, Fin.ofNat 9 0, by decide +kernel⟩,
    ⟨(fun s => { (up s) with harm := { s.harm with reports := [w32 0, 5, 6] } }) start, w32 0, [5, 6], by decide +kernel⟩⟩

def nm27 (s : State) : State := (List.range 64).foldl (fun s i => s.wr (offMapRt i) 0) (up s) |>.wr offFenceBed 0 |>.wr offMarlStatus 0 |> fun s => { s with pwr := { s.pwr with fallow := false } }
def sw27 (s : State) (n st : Nat) (r : Bool) : State := let z := ((nm27 s).wr offSwapStatus (w32 (st * 2 ^ 28 + n % 16 * 2 ^ 24 + n % 4 * 2 ^ 22 + n % 4 * 2 ^ 20))) ; sv { z with harm := { s.harm with returning := r, stale := [], matched := 70000 } } 16
def bf27 (n : Nat) : BedIx := Fin.ofNat 17 n
theorem witness_SwapActs :
    (∃ (s : State) (v : Word), s.serves offSwapCtl ∧ bit 31 v = false ∧ bit 30 v = false ∧ bit 29 v = false ∧
      s.swapState = 0 ∧ s.pwr.fallow = false ∧ s.pwr.pllLocked = true ∧ s.hasFallow = true ∧ s.mapped 1 16 = false) ∧
    (∃ (s : State) (v : Word), s.serves offSwapCtl ∧ bit 30 v = false ∧ bit 29 v = false ∧ bit 28 v = false ∧
      s.swapState ≤ 1 ∧ s.hasFallow = true ∧ s.mapped 1 16 = false ∧ s.homeServes (fld 19 16 v) = true ∧
      s.bedUsable (fld 19 16 v) = true ∧ s.marlBad = false ∧ s.pwr.fallow = false ∧ s.pwr.pllLocked = true) ∧
    (∃ (s : State) (v : Word), s.serves offSwapCtl ∧ bit 30 v = false ∧ bit 29 v = false ∧ bit 28 v = false ∧
      (2 ≤ s.swapState ∨ s.hasFallow = false ∨ s.mapped 1 16 = true ∨ s.bedUsable (fld 19 16 v) = false)) ∧
    (∃ (s : State) (v : Word), s.serves offSwapCtl ∧ bit 31 v = false ∧ bit 29 v = false ∧ bit 28 v = false ∧
      (s.swapState = 2 ∨ s.swapState = 4)) ∧
    (∃ (s : State) (v : Word), s.serves offSwapCtl ∧ bit 31 v = false ∧ bit 30 v = false ∧ bit 28 v = false ∧
      s.swapState = 6 ∧ s.bedUsable s.swapPos = true ∧ s.mapped 1 s.swapPos = false) ∧
    (∃ (s : State) (b : BedIx), s.swapState = 2 ∧ b.val = s.swapBeds.2 ∧ s.bedOn b = true ∧ s.bedFenced b = false ∧
      s.marlBad = false ∧ s.roleServed 16 = true) ∧
    (∃ (s : State) (b : BedIx), s.swapState ≤ 1 ∧ s.harm.stale.contains b.val = true ∧ s.bedOn b = true ∧
      s.bedFenced b = false ∧ s.marlBad = false ∧ s.roleServed 16 = true) ∧
    (∃ (s : State), s.swapState = 4 ∧ clampTo 256 65535 (s.rdf offSwapCtl 15 0) ≤ s.harm.matched ∧
      s.bedOn s.swapBeds.2 = true) ∧
    (∃ (s : State), s.swapState = 4 ∧ s.rdf offSwapStatus 23 22 < 3) ∧
    (∃ (s : State), s.swapState = 4 ∧ s.rdf offSwapStatus 23 22 = 3) ∧
    (∃ (s : State) (p : LocalIx), s.swapState = 5 ∧ s.portDone p = false ∧ s.portTurn p = true ∧ s.portIdle p = true ∧
      s.pState s.swapBeds.1 p ≠ 8) ∧
    (∃ (s : State), s.swapState = 5 ∧ s.rdf offSwapStatus 15 0 = 0xFFFF ∧
      ((s.framesWhere fun x => x.bed == s.swapBeds.1 && x.inBed) = [])) :=
  ⟨⟨(fun s => sw27 s 0 0 false) start, w32 (0 * 987654321) &&& 0x1FFFFFFF, by decide +kernel⟩,
    ⟨(fun s => sw27 s 0 (0 % 2) false) start, w32 (0 * 987654321) &&& 0x8FFFFFFF, by decide +kernel⟩,
    ⟨(fun s => let z := sw27 s 0 (0 % 3 * 2) (0 % 2 == 0) ; if 0 % 3 = 0 then { z with harm := { z.harm with stale := List.range 17 } } else z) start,
      w32 (0 * 987654321) &&& 0x8FFFFFFF, by decide +kernel⟩,
    ⟨(fun s => sw27 s 0 (2 + 0 % 2 * 2) (0 % 3 == 0)) start, w32 (0 * 987654321) &&& 0x4FFFFFFF, by decide +kernel⟩,
    ⟨(fun s => sw27 s 0 6 false) start, w32 (0 * 987654321) &&& 0x2FFFFFFF, by decide +kernel⟩,
    ⟨(fun s => sw27 s 0 2 (0 % 2 == 0)) start, if 0 % 2 = 0 then bf27 (0 % 16) else 16, by decide +kernel⟩,
    ⟨(fun s => let z := sw27 s 0 (0 % 2) false ; { z with harm := { z.harm with stale := [(bf27 0).val, 20, 3], waiting := [3, 4, 5, (bf27 0).val] } }) start,
      bf27 0, by decide +kernel⟩,
    ⟨(fun s => sw27 s 0 4 (0 % 2 == 0)) start, by decide +kernel⟩,
    ⟨(fun s => (sw27 s 0 4 (0 % 2 == 0)).wrf offSwapStatus 23 22 (0 % 3)) start, by decide +kernel⟩,
    ⟨(fun s => (sw27 s 0 4 (0 % 2 == 0)).wrf offSwapStatus 23 22 3) start, by decide +kernel⟩,
    ⟨(fun s => let z := (sw27 s 0 5 (0 % 3 == 0)).wrf offSwapStatus 15 0 (2 ^ (0 * 5 % 16) - 1) ; { z with copies := [], macs := [] }) start,
      Fin.ofNat 16 (0 * 5), by decide +kernel⟩,
    ⟨(fun s => { (sw27 s 0 5 (0 % 2 == 0)).wrf offSwapStatus 15 0 65535 with frames := [] }) start, by decide +kernel⟩⟩

def nm28 (s : State) : State := (List.range 64).foldl (fun s i => s.wr (offMapRt i) 0) (up s) |>.wr offFenceBed 0 |>.wr offMarlStatus 0 |> fun s => { s with pwr := { s.pwr with fallow := false } }
def u2128 (s : State) : State := sv (sv (nm28 s) 21) 23
def lf28 (s : State) (n : Nat) : State := { (u2128 s) with pwr := { (u2128 s).pwr with life := BitVec.ofNat 3 n } }
def sk28 (n : Nat) : Fin 8 := Fin.ofNat 8 n
def ck28 (n : Nat) : Fin 34 := Fin.ofNat 34 (n * 5)
def kk28 (n : Nat) : Nat := 34 * (sk28 n).val + (ck28 n).val
def hr28 (s : State) (_n : Nat) (r : List (Nat × Nat)) (w : List Nat) : State := { (u2128 s) with harm := { s.harm with repairs := r, worn := w } }
def fw28 (n : Nat) : Word := fuseWord (1 + n % 5) (n % 17)
theorem witness_ServiceActs :
    (∃ (s : State) (copy : Fin 2), s.roleServed 21 = true ∧ s.rdb offMarlStatus copy = true ∧
      s.rdb offMarlStatus (1 - copy.val) = false) ∧
    (∃ (s : State) (m : Fin 40), (s.roleServed 23 = false ∨ s.hasSafety = false ∨ s.harm.wearTurn ≠ m.val)) ∧
    (∃ (s : State) (m : Fin 40), s.roleServed 23 = true ∧ s.hasSafety = true ∧ s.harm.wearTurn = m.val) ∧
    (∃ (s : State) (stack : Fin 8) (chan : Fin 34), s.roleServed 21 = true ∧ s.chanOut (34 * stack.val + chan.val) = false ∧
      (s.harm.repairs.any (fun e => e.1 == 34 * stack.val + chan.val) = false) ∧ s.sparesUsed stack < 2) ∧
    (∃ (s : State) (stack : Fin 8) (chan : Fin 34) (corrected : Nat), s.roleServed 21 = true ∧
      s.chanOut (34 * stack.val + chan.val) = false ∧
      (s.harm.repairs.any (fun e => e.1 == 34 * stack.val + chan.val) = false) ∧ 2 ≤ s.sparesUsed stack ∧
      max 1 (s.rdf offMemCfg 15 0) ≤ corrected) ∧
    (∃ (s : State) (stack : Fin 8) (chan : Fin 34), s.roleServed 21 = true ∧
      (s.harm.repairs.any (fun e => e.1 == 34 * stack.val + chan.val) = true)) ∧
    (∃ (s : State), s.lineOn = true) ∧
    (∃ (s : State), s.lineOn = true) ∧
    (∃ (s : State) (i : Nat), s.serves offFuseProg ∧ s.lkOk false .ledger = true ∧ s.sec.fuseBlow = none ∧
      (((List.range 64).find? fun i => s.fuseEntry i == 0) = some i)) ∧
    (∃ (s : State), s.serves offFuseProg ∧ s.lkOk false .ledger = true ∧ s.sec.fuseBlow = none ∧
      (((List.range 64).find? fun i => s.fuseEntry i == 0) = none)) ∧
    (∃ (s : State), s.serves offFuseProg ∧ s.lkOk false .ledger = false) ∧
    (∃ (s : State) (i : Fin 64) (v : Word) (kind : Nat) (k : Nat), s.serves (offMapRt i) ∧ rtMap v = some (kind, k) ∧
      s.inService kind k = true ∧ s.mapped kind k = false) ∧
    (∃ (s : State) (i : Fin 64) (v : Word) (kind : Nat) (k : Nat), s.serves (offMapRt i) ∧ rtMap v = some (kind, k) ∧
      s.inService kind k = false) :=
  ⟨⟨(fun s => ((u2128 s).wrb offMarlStatus (0 % 2) true).wrb offMarlStatus (1 - 0 % 2) false) start, Fin.ofNat 2 0,
      by decide +kernel⟩,
    ⟨(fun s => let z := (u2128 s).wr offWearThresh (w32 (0 * 0x1000000 + 0 * 0x20000)); { z with harm := { z.harm with wearTurn := (0 + 1) % 40 } }) start,
      Fin.ofNat 40 0, by decide +kernel⟩,
    ⟨(fun s => let z := (u2128 s).wr offWearThresh (w32 (0 * 0x1000000 + 0 * 0x20000)); { z with harm := { z.harm with wearTurn := 0 % 40 } }) start,
      Fin.ofNat 40 0, by decide +kernel⟩,
    ⟨(fun s => hr28 s 0 [(kk28 0 + 1, 32)] []) start, sk28 0, ck28 0, by decide +kernel⟩,
    ⟨(fun s => hr28 s 0 [] [(34 * (sk28 0).val + ((ck28 0).val + 1) % 34),
      (34 * (sk28 0).val + ((ck28 0).val + 2) % 34)]) start, sk28 0, ck28 0, 65535, by decide +kernel⟩,
    ⟨(fun s => hr28 s 0 [(kk28 0, 32), (2, 4)] [3]) start, sk28 0, ck28 0, by decide +kernel⟩,
    ⟨(fun s => ((u2128 s).wrb offMarlStatus (1 - 0 % 2) (0 % 3 == 0))) start, by decide +kernel⟩,
    ⟨(fun s => let z := u2128 s ; { z with sched := { s.sched with flows := [(0, { q := [1, 2] }), (0 + 1, { q := [4] })] }, copies := [(1, some { frame := 1, port := 3, cls := 0, clod := 0, flow := 0 }), (2, some { frame := 2, port := 4, cls := 0, clod := 0, flow := 0 })], frames := [] }) start,
      by decide +kernel⟩,
    ⟨(fun s => let z := lf28 s (0 % 2) ; { z with pwr := { z.pwr with ledger := (List.range (1 + 0 % 2)).map fun i => (i, 5) }, sec := { s.sec with fuseBlow := none } }) start,
      1 + 0 % 2, by decide +kernel⟩,
    ⟨(fun s => let z := lf28 s (0 % 2) ; { z with pwr := { z.pwr with ledger := (List.range 64).map fun i => (i, 5) }, sec := { s.sec with fuseBlow := none } }) start,
      by decide +kernel⟩,
    ⟨(fun s => lf28 s (2 + 0 % 3)) start, by decide +kernel⟩,
    ⟨(fun s => hr28 s 0 [] []) start, Fin.ofNat 64 0, fuseWord 4 (0 % 17), 4, 0 % 17, by decide +kernel⟩,
    ⟨(fun s => let z := hr28 s 0 [] [] ; let z := (z.wr offFenceBed (w32 (2 ^ 17 - 1))).wr (offParsePipeMap ((0 % 17) / 5)) 0 ; let z := (List.range 8).foldl (fun s k => s.wr (offSiltStatus k) 0) z ; let z := (List.range 26).foldl (fun s k => s.wr (offEngStatus k) 0) z ; { z with harm := { z.harm with worn := List.range 20 } }) start,
      Fin.ofNat 64 0, fw28 0, 1 + 0 % 5, 0 % 17, by decide +kernel⟩⟩

def lf29 (s : State) (n : Nat) : State := { (up s) with pwr := { (up s).pwr with life := BitVec.ofNat 3 n, fallowWait := false } }
def sc29 (s : State) (n : Nat) (f : Sec → Sec) : State := { (lf29 s n) with sec := f { s.sec with wipe := none, lcBlow := none, keyBlow := none, fuseBlow := none } }
theorem witness_LifecycleAndFusesAct :
    (∃ (s : State) (v : Word), s.serves offLcReq ∧ s.rdb offLcReq 30 = false ∧ s.sec.wipe = none ∧ s.sec.lcBlow = none ∧
      s.lifecycle = 0 ∧ fld 1 0 v = 1) ∧
    (∃ (s : State) (v : Word), s.serves offLcReq ∧ s.rdb offLcReq 30 = false ∧ s.sec.wipe = none ∧ s.sec.lcBlow = none ∧
      fld 1 0 v = 2 ∧ (s.lifecycle = 0 ∨ (s.lifecycle = 1 ∧ s.timerOn .returnArm = true)) ∧ s.pwr.fallow = false ∧
      s.pwr.pllLocked = true ∧ s.held 0 = false) ∧
    (∃ (s : State) (v : Word), s.serves offLcReq ∧ s.rdb offLcReq 30 = false ∧ s.lifecycle = 1 ∧
      (fld 1 0 v ≠ 2 ∨ s.timerOn .returnArm = false)) ∧
    (∃ (s : State), s.serves offLcReq ∧ s.rdb offLcReq 30 = false ∧ s.lifecycle = 2) ∧
    (∃ (s : State) (k : Fin 3) (req : Word), s.sec.lcBlow = some (k.val, req) ∧ s.pwr.fallowWait = false) ∧
    (∃ (s : State) (k : Fin 3) (req : Word), s.sec.lcBlow = some (k.val, req) ∧ s.pwr.fallowWait = false) ∧
    (∃ (s : State) (v : Word), s.serves offKeyRevoke ∧ s.lifecycle ≠ 2 ∧ s.sec.keyBlow = none ∧
      s.pwr.revoked.getLsbD (8 * fld 8 8 v + fld 2 0 v) = false) ∧
    (∃ (s : State), s.serves offKeyRevoke ∧ s.lifecycle = 2) ∧
    (∃ (s : State) (k : Fin 16), s.sec.keyBlow = some k.val ∧ s.pwr.fallowWait = false) ∧
    (∃ (s : State) (w : Word) (i : Nat), s.sec.fuseBlow = some (i, w) ∧ s.pwr.fallowWait = false) :=
  ⟨⟨(fun s => (sc29 s 0 id).wrb offLcReq 30 false) start, w32 (0 * 987654321 * 4 + 1), by decide +kernel⟩,
    ⟨(fun s => let z := ((sc29 s (0 % 2) id).wrb offLcReq 30 false).startTimer .returnArm 4 ; { z with pwr := { z.pwr with fallow := false } }) start,
      w32 (0 * 987654321 * 4 + 2), by decide +kernel⟩,
    ⟨(fun s => ((sc29 s 1 id).wrb offLcReq 30 false).stopTimer .returnArm) start, w32 (0 * 987654321), by decide +kernel⟩,
    ⟨(fun s => ((sc29 s (2 + 0 % 4) id).wrb offLcReq 30 false).stopTimer .returnArm) start, by decide +kernel⟩,
    ⟨(fun s => sc29 s (0 % 2) fun x => { x with lcBlow := some (0 % 3, w32 (0 * 987654321)) }) start, Fin.ofNat 3 0,
      w32 (0 * 987654321), by decide +kernel⟩,
    ⟨(fun s => sc29 s (0 % 2) fun x => { x with lcBlow := some (0 % 3, w32 (0 * 987654321)) }) start, Fin.ofNat 3 0,
      w32 (0 * 987654321), by decide +kernel⟩,
    ⟨(fun s => let z := sc29 s (0 % 2) id ; { z with pwr := { z.pwr with revoked := 0 } }) start, w32 (0 * 987654321),
      by decide +kernel⟩,
    ⟨(fun s => sc29 s (2 + 0 % 4) id) start, by decide +kernel⟩,
    ⟨(fun s => sc29 s (0 % 2) fun x => { x with keyBlow := some (0 % 16) }) start, Fin.ofNat 16 0, by decide +kernel⟩,
    ⟨(fun s => sc29 s (0 % 2) fun x => { x with fuseBlow := some (0 % 64, fuseWord (0 % 6) 0) }) start, fuseWord (0 % 6) 0,
      0 % 64, by decide +kernel⟩⟩

def dp30 (s : State) (n : Nat) (f : Sec → Sec) : State := { (up s) with pwr := { (up s).pwr with fallow := false }, sec := f { s.sec with wipe := none, check := none, locked := n % 5 == 0 } }
def lv30 (s : State) (n : Nat) (l : Nat) : State := (dp30 s n id).dbgMod (n % 2 == 0) fun d => { d with level := l }
def pl30 (s : State) (n : Nat) (l : Nat) : State := (dp30 s n id).dbgMod true fun d => { d with level := l }
def ofs30 (_ : Nat) : Word := w32 (offMacCtl 1 2)
def st30_20 : State := (fun s => pl30 s 0 3) start
theorem witness_DebugSessionsAct :
    (∃ (s : State) (port : Bool) (v : Word), ((if port then s.dpAnswers = true else s.serves offDbgCtl)) ∧ bit 30 v = false ∧
      bit 29 v = false) ∧
    (∃ (s : State) (port : Bool), ((if port then s.dpAnswers = true else s.serves offDbgToken))) ∧
    (∃ (s : State) (port : Bool) (v : Word), ((if port then s.dpAnswers = true else s.serves offDbgCtl)) ∧ bit 31 v = false ∧
      bit 29 v = false ∧ bit 0 v = false ∧ s.sec.check = none ∧ s.sec.wipe = none ∧ s.sec.locked = false) ∧
    (∃ (s : State) (port : Bool) (v : Word), ((if port then s.dpAnswers = true else s.serves offDbgCtl)) ∧ bit 31 v = false ∧
      bit 29 v = false ∧ bit 0 v = false ∧ s.sec.check = none ∧ s.sec.wipe = none ∧ s.sec.locked = true) ∧
    (∃ (s : State) (port : Bool) (tok : List Word) (ok : Bool), s.sec.check = some (port, tok, ok) ∧ s.sec.wipe = none ∧
      s.hostOn = true ∧ s.pwr.fallow = false ∧ s.pwr.pllLocked = true ∧ s.held 0 = false) ∧
    (∃ (s : State) (port : Bool) (tok : List Word), s.sec.wipe = some (.grant port tok) ∧ s.lifecycle = 1) ∧
    (∃ (s : State) (port : Bool) (tok : List Word), s.sec.wipe = some (.grant port tok) ∧ s.lifecycle ≠ 1) ∧
    (∃ (s : State) (k : Nat) (req : Word), s.sec.wipe = some (.blow k req)) ∧
    (∃ (s : State) (port : Bool) (v : Word), ((if port then s.dpAnswers = true else s.serves offDbgCtl)) ∧ bit 31 v = false ∧
      bit 30 v = false ∧ bit 0 v = false ∧ (s.dbg port).level ≠ 0) ∧
    (∃ (s : State) (port : Bool), s.timerOn (.session port) = true ∧ (s.dbg port).level ≠ 0) ∧
    (∃ (s : State) (port : Bool), s.timerOn (.challenge port) = true) ∧
    (∃ (s : State) (addr : Word), s.dpAnswers = true ∧ bit 31 addr = false ∧ s.dpGrants (fld 25 0 addr) false = true ∧
      fld 25 0 addr ≠ offTimeCaptureAll) ∧
    (∃ (s : State) (addr : Word), s.dpAnswers = true ∧ bit 31 addr = true ∧ s.dpGrants (fld 25 0 addr) true = true) ∧
    (∃ (s : State) (addr : Word), s.dpAnswers = true ∧ s.sec.port.level ≠ 0 ∧
      s.dpGrants (fld 25 0 addr) (bit 31 addr) = false) ∧
    (∃ (s : State) (addr : BitVec 64) (ctl : Word) (data : List Word), s.dpAnswers = true ∧ s.sec.port.level = 3 ∧
      s.lineOn = true ∧ bit 30 ctl = true ∧ spaceHas (fld 1 0 ctl) addr.toNat = true ∧ data.length = 16) ∧
    (∃ (s : State) (addr : BitVec 64) (ctl : Word), s.dpAnswers = true ∧ s.sec.port.level = 3 ∧ s.lineOn = true ∧
      bit 30 ctl = false ∧ spaceHas (fld 1 0 ctl) addr.toNat = true) ∧
    (∃ (s : State), s.dpAnswers = true ∧ (s.sec.port.level ≠ 3 ∨ s.lineOn = false)) ∧
    (∃ (s : State) (addr : BitVec 64) (ctl : Word), s.dpAnswers = true ∧ s.sec.port.level = 3 ∧ s.lineOn = true ∧
      ((if fld 1 0 ctl = 2 then bit 30 ctl = true ∨ 26 ≤ addr.toNat / 2 ^ 40 % 64 else spaceHas (fld 1 0 ctl) addr.toNat = false))) ∧
    (∃ (s : State) (addr : BitVec 64) (ctl : Word) (e : Fin 26) (w : BitVec 96), s.dpAnswers = true ∧ s.sec.port.level = 3 ∧
      s.lineOn = true ∧ bit 30 ctl = false ∧ fld 1 0 ctl = 2 ∧ addr.toNat / 2 ^ 40 % 64 = e.val ∧
      w = (s.eng e).store.getD (addr.toNat % 16384) 0) ∧
    (∃ (s : State) (v : Word), s.dpAnswers = true ∧ bit 31 v = false ∧ bit 30 v = false ∧ bit 29 v = false ∧
      2 ≤ s.sec.port.level) ∧
    (∃ (s : State) (v : Word), s.dpAnswers = true ∧ bit 31 v = false ∧ bit 30 v = false ∧ bit 29 v = false ∧
      s.sec.port.level < 2) :=
  ⟨⟨(fun s => dp30 s 0 id) start, 0 % 2 == 0, w32 (0 * 987654321) &&& 0x9FFFFFFF, by decide +kernel⟩,
    ⟨(fun s => dp30 s 0 id) start, 0 % 2 == 0, by decide +kernel⟩,
    ⟨(fun s => dp30 s 1 id) start, 0 % 2 == 0, w32 (0 * 987654321) &&& 0x5FFFFFFE, by decide +kernel⟩,
    ⟨(fun s => dp30 s 0 id) start, 0 % 2 == 0, w32 (0 * 987654321) &&& 0x5FFFFFFE, by decide +kernel⟩,
    ⟨(fun s => dp30 s 0 fun x => { x with check := some (0 % 2 == 0, [0x4B4F5444, w32 (0x01020000 + 0)] ++ List.replicate (54 * (0 % 2)) 4, 0 % 3 == 0) }) start,
      0 % 2 == 0, [0x4B4F5444, w32 (0x01020000 + 0)] ++ List.replicate (54 * (0 % 2)) 4, 0 % 3 == 0, by decide +kernel⟩,
    ⟨(fun s => let z := dp30 s 0 fun x => { x with wipe := some (.grant (0 % 2 == 0) ([0x4B4F5444, w32 (0x01020000 + 0)] ++ List.replicate 54 (w32 (0 % 3)))) }; { z with pwr := { z.pwr with life := 1 } }) start,
      0 % 2 == 0, [0x4B4F5444, w32 (0x01020000 + 0)] ++ List.replicate 54 (w32 (0 % 3)), by decide +kernel⟩,
    ⟨(fun s => let z := dp30 s 0 fun x => { x with wipe := some (.grant (0 % 2 == 0) ([0x4B4F5444, w32 (0x01020000 + 0)] ++ List.replicate 54 (w32 (0 % 3)))) }; { z with pwr := { z.pwr with life := 0 } }) start,
      0 % 2 == 0, [0x4B4F5444, w32 (0x01020000 + 0)] ++ List.replicate 54 (w32 (0 % 3)), by decide +kernel⟩,
    ⟨(fun s => dp30 s 0 fun x => { x with wipe := some (.blow (0 % 3) (w32 0)) }) start, 0 % 3, w32 0, by decide +kernel⟩,
    ⟨(fun s => lv30 s 0 (1 + 0 % 3)) start, 0 % 2 == 0, w32 (0 * 987654321) &&& 0x3FFFFFFE, by decide +kernel⟩,
    ⟨(fun s => tm (lv30 s 0 (1 + 0 % 3)) (.session (0 % 2 == 0))) start, 0 % 2 == 0, by decide +kernel⟩,
    ⟨(fun s => tm (lv30 s 0 (1 + 0 % 3)) (.challenge (0 % 2 == 0))) start, 0 % 2 == 0, by decide +kernel⟩,
    ⟨(fun s => pl30 s 1 (1 + 1 % 3)) start, ofs30 1, by decide +kernel⟩,
    ⟨(fun s => pl30 s 0 (2 + 0 % 2)) start, ofs30 0 ||| 0x80000000, by decide +kernel⟩,
    ⟨(fun s => pl30 s 0 1) start, ofs30 0 + (if 0 % 2 = 0 then 0x80000000 else w32 (1 + 0 % 3)), by decide +kernel⟩,
    ⟨(fun s => pl30 s 0 3) start, BitVec.ofNat 64 ((w32 (0 * 987654)).toNat + 2 ^ 32 * (w32 (0 % 100 * (0 % 2))).toNat),
      w32 (0 * 4 + 0 % 2 + 0x40000000), (List.range 16).map (fun i => w32 (i * 0)), by decide +kernel⟩,
    ⟨(fun s => let z := pl30 s 0 3 ; if 0 % 3 = 0 then z else let z := { z with sec := { z.sec with zeroed := some z.memStamp } } ; if 0 % 3 = 1 then z else z.memStore (0 % 2) (0 * 987654 % 2 ^ 32 + 2 ^ 32 * (0 % 100 * (0 % 2))) (List.replicate 16 (w32 0))) start,
      BitVec.ofNat 64 ((w32 (0 * 987654)).toNat + 2 ^ 32 * (w32 (0 % 100 * (0 % 2))).toNat),
      w32 (0 * 4 + 0 % 2) &&& 0xBFFFFFFF, by decide +kernel⟩,
    ⟨(fun s => pl30 s 0 (0 % 3)) start, by decide +kernel⟩,
    ⟨(fun s => pl30 s 2 3) start,
      BitVec.ofNat 64 ((w32 (2 * 987654)).toNat + 2 ^ 32 * (w32 (2 % 100 * (2 % 2) + (if 2 % 4 = 3 then 100000 else 0))).toNat),
      w32 (2 % 4) ||| (if 2 % 4 = 2 then 0x40000000 else 0), by decide +kernel⟩,
    ⟨st30_20, BitVec.ofNat 64 ((w32 (0 % 40)).toNat + 2 ^ 32 * (w32 (0 % 26 * 256)).toNat), 2, Fin.ofNat 26 (0 % 26),
      ((st30_20.eng (0 % 26)).store.getD (0 % 40) 0), by decide +kernel⟩,
    ⟨(fun s => pl30 s 0 (2 + 0 % 2)) start, w32 (0 * 987654321) &&& 0x1FFFFFFF, by decide +kernel⟩,
    ⟨(fun s => pl30 s 0 (0 % 2)) start, w32 (0 * 987654321) &&& 0x1FFFFFFF, by decide +kernel⟩⟩

def nf31 (s : State) : State := { (up s) with pwr := { (up s).pwr with fallow := false } }
def upm31 (s : State) : State := (List.range 64).foldl (fun s i => s.wr (offMapRt i) 0) (nf31 s) |>.wr offFenceBed 0
theorem witness_ResetsAndPowerStatesAct :
    (∃ (s : State), s.pwr.porN = false) ∧
    (∃ (s : State), s.hostOn = true ∧ s.pwr.fallow = false) ∧
    (∃ (s : State), s.lineOn = true ∧ s.enabled 1 = true) ∧
    (∃ (s : State), s.serves offRstCtl ∧ s.pwr.fallow = false) ∧
    (∃ (s : State), s.serves offRstCtl ∧ s.lineOn = true ∧ s.rdb offRstCtl 0 = false) ∧
    (∃ (s : State), s.serves offRstCtl) ∧
    (∃ (s : State) (i : Fin 17) (v : Word), s.serves offRstBed ∧ s.rdb offRstBed i = false ∧ bit i v = true ∧
      s.bedGuarded i = true) ∧
    (∃ (s : State) (i : Fin 17) (v : Word), s.serves offRstBed ∧
      (s.rdb offRstBed i = true ∨ bit i v = false ∨ s.bedGuarded i = false)) ∧
    (∃ (s : State) (i : Fin 17) (v : Word), s.serves offPwrIslandCtl ∧ bit 31 v = true ∧ s.rdb offPwrIslandCtl i = true ∧
      bit i v = false ∧ s.bedGuarded i = true) ∧
    (∃ (s : State) (i : Fin 17) (v : Word), s.serves offPwrIslandCtl ∧ i.val ≠ 16 ∧ bit 31 v = true ∧ bit i v = true) ∧
    (∃ (s : State) (v : Word), s.serves offPwrIslandCtl ∧ bit 31 v = false ∧ s.lineOn = true) ∧
    (∃ (s : State), s.serves offPwrState ∧ s.isRun = true ∧ s.pwr.fallow = false ∧ s.pwr.pllLocked = true ∧ s.held 0 = false) ∧
    (∃ (s : State), s.serves offPwrState ∧ s.isRun = false) ∧
    (∃ (s : State), s.serves offPwrState ∧ s.blowing = false) ∧
    (∃ (s : State), s.serves offPwrState ∧ s.blowing = true) ∧
    (∃ (s : State), s.pwr.fallow = true ∧ (s.pwr.wakeReq = true ∨ s.pwr.hostRstN = false) ∧ s.islAt 0 = .off) :=
  ⟨⟨(fun s => { s with pwr := { s.pwr with porN := false } }) start, by decide +kernel⟩,
    ⟨(fun s => nf31 s) start, by decide +kernel⟩,
    ⟨(fun s => (nf31 s).wrb offPwrIslandCtl 31 true) start, by decide +kernel⟩,
    ⟨(fun s => nf31 s) start, by decide +kernel⟩,
    ⟨(fun s => (up s).wrb offRstCtl 0 false) start, by decide +kernel⟩,
    ⟨(fun s => up s) start, by decide +kernel⟩,
    ⟨(fun s => ((upm31 s).wr offSwapStatus 0x63000000).wrb offRstBed (0 % 17) false) start, Fin.ofNat 17 0,
      w32 (0 * 987654321) ||| w32 (2 ^ (0 % 17)), by decide +kernel⟩,
    ⟨(fun s => ((up s).wr offFenceBed (w32 (2 ^ (0 % 17) * (0 % 2))))) start, Fin.ofNat 17 0, w32 (0 * 987654321),
      by decide +kernel⟩,
    ⟨(fun s => ((upm31 s).wr offSwapStatus 0x63000000).wrb offPwrIslandCtl (0 % 17) true) start, Fin.ofNat 17 0,
      (w32 (0 * 987654321) &&& ~~~ w32 (2 ^ (0 % 17))) ||| 0x80000000, by decide +kernel⟩,
    ⟨(fun s => up s) start, Fin.ofNat 17 0, w32 (0 * 987654321) ||| w32 (2 ^ (0 % 17)) ||| 0x80000000, by decide +kernel⟩,
    ⟨(fun s => up s) start, w32 (0 * 987654321) &&& 0x7FFFFFFF, by decide +kernel⟩,
    ⟨(fun s => ((upm31 s).wr offSwapStatus 0x63000000).wrf offPwrState 31 30 0) start, by decide +kernel⟩,
    ⟨(fun s => (up s).wrf offPwrState 31 30 1) start, by decide +kernel⟩,
    ⟨(fun s => { (up s) with sec := { s.sec with fuseBlow := none, lcBlow := none, keyBlow := none } }) start,
      by decide +kernel⟩,
    ⟨(fun s => { (up s) with sec := { s.sec with fuseBlow := some (2, 4) } }) start, by decide +kernel⟩,
    ⟨(fun s => { s with pwr := { s.pwr with fallow := true, wakeReq := 0 % 2 == 0, hostRstN := 0 % 2 == 0, isl := [] } }) start,
      by decide +kernel⟩⟩

def ii32 (n : Nat) : Island := match n % 4 with | 0 => .host | 1 => .line | 2 => .bed (Fin.ofNat 17 n) | _ => .silt (Fin.ofNat 8 n)
def ue032 (s : State) : State := { (up s) with pwr := { (up s).pwr with fallow := false } }
def ue32 (s : State) (_ : Nat) : State := ((((List.range 64).foldl (fun s i => s.wr (offMapRt i) 0) (ue032 s)).wr offPwrIslandCtl 0x81FFFFFF).wr offRstBed 0).wrb offRstCtl 0 false
def at_32 (s : State) (n : Nat) (x : IslandSt) : State := (ue32 s n).setIslAt (islIx (ii32 n)) x
theorem witness_IslandsAndClocksAct :
    (∃ (s : State) (i : Island), s.islAt (islIx i) = .ramp ∧ s.enabled (islIx i) = true) ∧
    (∃ (s : State) (i : Island), s.islAt (islIx i) = .ramp ∧ s.timerOn (.ramp (islIx i)) = true) ∧
    (∃ (s : State) (i : Island), s.islAt (islIx i) = .held ∧ s.enabled (islIx i) = true ∧ s.held (islIx i) = false ∧
      s.pwr.pllLocked = true ∧ s.parentOn (islIx i) = true) ∧
    (∃ (s : State) (i : Island), s.islAt (islIx i) = .sync ∧ s.enabled (islIx i) = true ∧ s.held (islIx i) = false ∧
      s.pwr.pllLocked = true) ∧
    (∃ (s : State) (i : Island), s.islAt (islIx i) = .sync ∧
      (s.held (islIx i) = true ∨ s.enabled (islIx i) = false ∨ s.pwr.pllLocked = false)) ∧
    (∃ (s : State), s.pwr.pllLocked = true) ∧
    (∃ (s : State), s.pwr.pllOn = true) ∧
    (∃ (s : State) (v : Word), s.serves offClkMonSel ∧ bit 31 v = true ∧ fld 4 0 v ≤ 23) ∧
    (∃ (s : State) (v : Word), s.serves offClkMonSel ∧ bit 31 v = true ∧ 23 < fld 4 0 v) ∧
    (∃ (s : State) (d : Nat), s.pwr.monRun = some d ∧ (s.pwr.monRan = true ∨ s.clkRuns d = true)) ∧
    (∃ (s : State) (d : Nat), s.pwr.monRun = some d ∧ s.pwr.monRan = false ∧ s.clkRuns d = false) :=
  ⟨⟨(fun s => tm (at_32 s 0 .ramp) (.ramp (islIx (ii32 0)))) start, ii32 0, by decide +kernel⟩,
    ⟨(fun s => tm (at_32 s 0 .ramp) (.ramp (islIx (ii32 0)))) start, ii32 0, by decide +kernel⟩,
    ⟨(fun s => at_32 s 0 .held) start, ii32 0, by decide +kernel⟩,
    ⟨(fun s => at_32 s 0 .sync) start, ii32 0, by decide +kernel⟩,
    ⟨(fun s => let z := at_32 s 0 .sync ; let z := if 0 % 3 = 0 then { z with pwr := { z.pwr with pllLocked := false } } else if 0 % 3 = 1 then { z with pwr := { z.pwr with lineRstN := false } } else z ; if 0 % 3 = 2 then { z with pwr := { z.pwr with fallow := true } } else z.wr offRstBed 0xFFFFFFFF |> fun z => { z with pwr := { z.pwr with hostRstN := false } }) start,
      ii32 0, by decide +kernel⟩,
    ⟨(fun s => (if 0 % 2 = 0 then ue32 s 0 else up s)) start, by decide +kernel⟩,
    ⟨(fun s => { s with pwr := { s.pwr with pllOn := true } }) start, by decide +kernel⟩,
    ⟨(fun s => up s) start, w32 (0 * 987654321 * 32 + 0 % 24) ||| 0x80000000, by decide +kernel⟩,
    ⟨(fun s => up s) start, w32 (0 * 987654321 * 32 + 24 + 0 % 8) ||| 0x80000000, by decide +kernel⟩,
    ⟨(fun s => { (up s) with pwr := { (up s).pwr with monRun := some (0 % 30), monRan := true } }) start, 0 % 30,
      by decide +kernel⟩,
    ⟨(fun s => { s with pwr := { s.pwr with monRun := some (0 % 24), monRan := false, pllLocked := false } }) start, 0 % 24,
      by decide +kernel⟩⟩

end Sys2Proof.Tests
end

section
/-! SUPPORT. The board table of a lane (R83): what a write of one of its words leaves in the lane's registers, and the statement
about the validity of the FIR preset. -/

namespace Sys2Proof.Machine

/-- The validity rule of R83 on six named taps. -/
theorem firValid_iff (m3 m2 m1 c0 p1 p2 : Int) : firValid [m3, m2, m1, c0, p1, p2] = true ↔
    0 < c0 ∧ m3.natAbs + m2.natAbs + m1.natAbs + c0.natAbs + p1.natAbs + p2.natAbs ≤ 63 := by
  simp [firValid, Nat.add_assoc]

theorem State.lanePreset_eq (s : State) (base : Nat) : s.lanePreset base =
    if s.boardOk base then firTaps (s.rd (lnBoardFir base 0)) (s.rd (lnBoardFir base 1)) else [0, 0, 0, 63, 0, 0] := rfl

/-- Whether the preset is valid depends on the two words of the FIR preset alone. -/
theorem State.boardOk_congr {s t : State} {base : Nat} (h : ∀ i < 2, t.rd (lnBoardFir base i) = s.rd (lnBoardFir base i)) :
    t.boardOk base = s.boardOk base := by
  rw [State.boardOk, State.boardOk, h 0 (by decide), h 1 (by decide)]

/-! ## The stages of a write -/

/-- The first stage of a write of a board table word: the word is stored in its register, BOARD_BAD left as it was. -/
def State.boardStore (s : State) (base word : Nat) (v : Word) : State :=
  if word = 0 then s.wr (lnBoardEq base) ((v &&& 0x001F070F) ||| (s.rd (lnBoardEq base) &&& 0x80000000))
  else s.wr (lnBoardFir base (word - 1)) (v &&& 0x00FFFFFF)

/-- The second stage: the stored coefficients are discarded, and BOARD_BAD says whether the preset is invalid. -/
def State.boardJudge (s : State) (base : Nat) : State :=
  (s.laneForget base).wrb (lnBoardEq base) 31 (!s.boardOk base)

/-- A write of a board table word is its two stages, and then the lane's event where a word of the FIR preset leaves the preset
invalid. -/
theorem State.boardWrite_eq (s : State) (base word : Nat) (v : Word) : s.boardWrite base word v =
    if word = 0 || ((s.boardStore base word v).boardJudge base).boardOk base then (s.boardStore base word v).boardJudge base
    else ((s.boardStore base word v).boardJudge base).raiseEvt (lnEvt base) 0 := rfl

/-- Storing word i + 1 changes word i of the FIR preset, and storing any other word leaves it. -/
theorem State.rd_boardStore_fir (s : State) (base word i : Nat) (v : Word) :
    (s.boardStore base word v).rd (lnBoardFir base i) =
      if word = i + 1 then v &&& 0x00FFFFFF else s.rd (lnBoardFir base i) := by
  unfold State.boardStore
  split
  · next h => rw [State.rd_wr_ne _ _ (by simp only [lnBoardFir, lnBoardEq]; omega), if_neg (by omega)]
  · next h =>
    rw [State.rd_wr]
    by_cases hi : word = i + 1
    · rw [if_pos hi, if_pos (by simp only [lnBoardFir]; omega)]
    · rw [if_neg hi, if_neg (by simp only [lnBoardFir]; omega)]

/-- Discarding the stored coefficients changes no register but the lane's STATUS. -/
theorem State.rd_laneForget_ne (s : State) {base x : Nat} (h : x ≠ lnStatus base) : (s.laneForget base).rd x = s.rd x := by
  rw [State.laneForget, State.laneMod_rd, State.rd_wrb, if_neg h]

@[simp] theorem State.rd_boardJudge_fir (s : State) (base i : Nat) :
    (s.boardJudge base).rd (lnBoardFir base i) = s.rd (lnBoardFir base i) := by
  rw [State.boardJudge, State.rd_wrb, if_neg (by simp only [lnBoardFir, lnBoardEq]; omega),
    State.rd_laneForget_ne _ (by simp only [lnBoardFir, lnStatus]; omega)]

theorem State.rdb_boardJudge_bad (s : State) (base : Nat) :
    (s.boardJudge base).rdb (lnBoardEq base) 31 = !(s.boardJudge base).boardOk base := by
  rw [State.boardOk_congr fun i _ => s.rd_boardJudge_fir base i]
  exact State.rdb_wrb _ _ _ _ (by decide)

/-! ## What a write leaves -/

/-- Outside the lane's event register a write leaves what its two stages leave. -/
theorem State.rd_boardWrite_of_ne_evt (s : State) {base x : Nat} (word : Nat) (v : Word) (h : x ≠ lnEvt base) :
    (s.boardWrite base word v).rd x = ((s.boardStore base word v).boardJudge base).rd x := by
  rw [State.boardWrite_eq]
  split
  · rfl
  · exact State.rd_raiseEvt_ne _ _ h

theorem State.rd_boardWrite_fir (s : State) (base word : Nat) (v : Word) {i : Nat} (h : i < 2) :
    (s.boardWrite base word v).rd (lnBoardFir base i) =
      if word = i + 1 then v &&& 0x00FFFFFF else s.rd (lnBoardFir base i) := by
  rw [State.rd_boardWrite_of_ne_evt _ _ _ (by simp only [lnBoardFir, lnEvt]; omega), State.rd_boardJudge_fir,
    State.rd_boardStore_fir]

theorem State.boardOk_boardWrite (s : State) (base word : Nat) (v : Word) :
    (s.boardWrite base word v).boardOk base = ((s.boardStore base word v).boardJudge base).boardOk base :=
  State.boardOk_congr fun i hi =>
    State.rd_boardWrite_of_ne_evt s word v (by simp only [lnBoardFir, lnEvt]; omega)

/-- After a write of any word of the board table, BOARD_BAD says whether the preset is invalid (R83). -/
theorem State.rdb_boardWrite_bad (s : State) (base word : Nat) (v : Word) :
    (s.boardWrite base word v).rdb (lnBoardEq base) 31 = !(s.boardWrite base word v).boardOk base := by
  rw [State.boardOk_boardWrite, ← State.rdb_boardJudge_bad, State.rdb,
    State.rd_boardWrite_of_ne_evt _ _ _ (by simp only [lnBoardEq, lnEvt]; omega), State.rdb]

/-- A write of a word of the FIR preset that leaves the preset invalid raises the lane's BOARD_BAD event (R83). -/
theorem State.rdb_boardWrite_evt (s : State) (base : Nat) {word : Nat} (v : Word) (hw : word ≠ 0)
    (hbad : (s.boardWrite base word v).boardOk base = false) : (s.boardWrite base word v).rdb (lnEvt base) 0 = true := by
  rw [State.boardOk_boardWrite] at hbad
  rw [State.boardWrite_eq, if_neg (by simp [hw, hbad])]
  exact State.rdb_raiseEvt _ _ _ (by decide)

/-- Settles O14: the validity rule on the taps, then what a write of a word of the FIR preset leaves, by the stages of the
write. -/
theorem boardPresetValidity : Obligations.BoardPresetValidity := by
  refine ⟨firValid_iff, fun s base k v => ⟨?word, s.rdb_boardWrite_bad base (k + 1) v, ?invalid, ?valid⟩⟩
  case word => rw [State.rd_boardWrite_fir _ _ _ _ k.isLt, if_pos rfl]
  case invalid =>
    intro hbad
    refine ⟨s.rdb_boardWrite_evt base v (Nat.succ_ne_zero k) hbad, ?_⟩
    rw [State.lanePreset_eq, State.boardOk, if_neg (by simp [hbad])]
  case valid =>
    intro hok
    rw [State.lanePreset_eq, State.boardOk, if_pos hok]

end Sys2Proof.Machine
end

section
/-! SUPPORT. The counters of port 258 that chapter 05 says read zero: what COUNTER_WRITE does to them, and the statement about
statistics counters. -/

namespace Sys2Proof.Machine

/-- The statistics counters of port 258 whose events the management port does not have. -/
def mgmtStatZeros : List (Fin 64) := [9, 28, 31, 41, 59, 60, 62]

/-- The registers of those counters are not words of a counter: their rows have no field at all. -/
theorem isCounter_mgmtStatZeros : ∀ i ∈ mgmtStatZeros, isCounter (offMgmtStatCnt i) = false := by decide +kernel

/-- COUNTER_WRITE of a register that is no word of a counter has no effect (R15). -/
theorem exec_counterWrite_of_not_isCounter {addr : BitVec 26} (v : Word) (s : State) (h : isCounter addr.toNat = false) :
    exec (.counterWrite addr v) s = .next s := by
  rw [exec_counterWrite, execCounterWrite, if_neg (by simp [h])]

/-- COUNTER_WRITE of one of those counters keeps whatever its register holds. -/
theorem exec_counterWrite_mgmtStatZeros {i : Fin 64} (hi : i ∈ mgmtStatZeros) (v : Word) (s : State) :
    exec (.counterWrite (BitVec.ofNat 26 (offMgmtStatCnt i)) v) s = .next s := by
  refine exec_counterWrite_of_not_isCounter v s ?_
  rw [BitVec.toNat_ofNat, Nat.mod_eq_of_lt (by simp only [offMgmtStatCnt]; omega)]
  exact isCounter_mgmtStatZeros i hi

/-- So after COUNTER_WRITE of one of them holds just what held before. -/
theorem State.completes_counterWrite_mgmtStatZeros {i : Fin 64} (hi : i ∈ mgmtStatZeros) (v : Word) (s : State)
    (P : State → Prop) : s.completes (.counterWrite (BitVec.ofNat 26 (offMgmtStatCnt i)) v) P ↔ P s := by
  unfold State.completes
  rw [exec_counterWrite_mgmtStatZeros hi]
  simp

/-- The host island ON, and the register of counter 9 of port 258 at 1, as an increment of that counter leaves it. -/
def zeroCounterCounted : State :=
  ({ State.reset with pwr := { State.reset.pwr with isl := [(0, .on)] } } : State).mgmtStat 9 1

theorem zeroCounterCounted_serves : zeroCounterCounted.serves (offMgmtStatCnt 9) := by decide +kernel

theorem zeroCounterCounted_rd : zeroCounterCounted.rd (offMgmtStatCnt 9) = 1 := by decide +kernel

/-- Refutes O11: of every state the statement asks that a counter of port 258 that the chapter names read zero after COUNTER_WRITE,
but the command leaves the counter's register as it was, and in `zeroCounterCounted` counter 9 holds 1. The statement has no
premise that these registers read zero before the write; no command of the model counts them up. -/
theorem not_statCounterHalfAndWrap : ¬ Obligations.StatCounterHalfAndWrap := by
  unfold Obligations.StatCounterHalfAndWrap
  intro h
  obtain ⟨-, -, -, write⟩ := h zeroCounterCounted 9 0
  have kept := (State.completes_counterWrite_mgmtStatZeros (by decide) 0 _ _).1 (write 0 zeroCounterCounted_serves)
  obtain ⟨zero, -⟩ := kept
  exact absurd (zeroCounterCounted_rd.symm.trans zero) (by decide)

end Sys2Proof.Machine
end

section
/-! SUPPORT. A malformed code that is found (R155, R156): its count, its MF_SEEN bit and its event, and the statement about them. -/

namespace Sys2Proof.Machine

/-- Raising an event leaves the other events of its register as they were. -/
theorem State.rdb_raiseEvt_of_ne (s : State) (evt : Nat) {i j : Nat} (hj : j < 32) (hne : j ≠ i) :
    (s.raiseEvt evt i).rdb evt j = s.rdb evt j := by
  rw [State.rdb, State.rd_raiseEvt]
  split
  · rw [bit_setBit i j true _ hj, if_neg hne, State.rdb]
  · rfl

/-- A counter that counts one touches at most the CNT_WRAP bit of its unit's events. -/
theorem State.rdb_inc_evt_of_ne (s : State) {off evt : Nat} {wrapBit j : Nat} (hlo : evt ≠ off) (hhi : evt ≠ off + 4)
    (hj : j < 32) (hne : j ≠ wrapBit) : (s.inc off evt wrapBit).rdb evt j = s.rdb evt j := by
  have hset : (s.setCnt off (s.cnt off + 1)).rdb evt j = s.rdb evt j := by
    rw [State.rdb, State.rd_setCnt_ne _ _ hlo hhi, State.rdb]
  unfold State.inc State.addCnt
  dsimp only
  split
  · rw [State.rdb_raiseEvt_of_ne _ _ hj hne, hset]
  · exact hset

/-- The count of a frame in which code i + 1 is found (R155). -/
def State.mfCount (s : State) (b i : Nat) : State := s.inc (offParseCntMf b i) (offParseEvt b) 6

theorem State.rdb_mfCount_seen (s : State) (b i j : Nat) :
    (s.mfCount b i).rdb (offParseMfSeen b) j = s.rdb (offParseMfSeen b) j := by
  rw [State.rdb, State.mfCount, State.inc,
    State.rd_addCnt_ne _ _ _ (by simp only [offParseMfSeen, offParseCntMf]; omega)
      (by simp only [offParseMfSeen, offParseCntMf]; omega) (by simp only [offParseMfSeen, offParseEvt]; omega), State.rdb]

theorem State.rdb_mfCount_evt (s : State) (b i : Nat) {j : Nat} (hj : j < 32) (hne : j ≠ 6) :
    (s.mfCount b i).rdb (offParseEvt b) j = s.rdb (offParseEvt b) j :=
  State.rdb_inc_evt_of_ne _ (by simp only [offParseEvt, offParseCntMf]; omega)
    (by simp only [offParseEvt, offParseCntMf]; omega) hj hne

/-- A code that is found is counted; where its MF_SEEN bit was 0, the bit is set and EVT_PARSE_MF raised. -/
theorem State.mfFound_eq (s : State) (b i : Nat) : s.mfFound b (i + 1) =
    if s.rdb (offParseMfSeen b) i then s.mfCount b i
    else ((s.mfCount b i).wrb (offParseMfSeen b) i true).raiseEvt (offParseEvt b) 0 := by
  rw [← State.rdb_mfCount_seen s b i i]
  rfl

/-- Settles O13: by the two cases of the code's MF_SEEN bit; the count itself touches neither that bit nor EVT_PARSE_MF. -/
theorem malformedCodeRaisesOnce : Obligations.MalformedCodeRaisesOnce := by
  refine fun s b c => ⟨fun first => ?_, fun seen => ?_⟩
  · rw [State.mfFound_eq, if_neg (by simp [first])]
    refine ⟨?_, State.rdb_raiseEvt _ _ _ (by decide)⟩
    rw [State.rdb, State.rd_raiseEvt_ne _ _ (by simp only [offParseMfSeen, offParseEvt]; omega)]
    exact State.rdb_wrb _ _ _ _ (by omega)
  · rw [State.mfFound_eq, if_pos seen]
    exact State.rdb_mfCount_evt _ _ _ (by decide) (by decide)

end Sys2Proof.Machine
end

section
/-! SUPPORT. Grains of a frame (R197): when a count of grains holds its bytes, and the statement about them. -/

namespace Sys2Proof.Machine

/-- A count of grains is enough for N bytes exactly when it reaches the grains that they take: ⌈N ÷ 256⌉ is the least. -/
theorem grainsOf_le_iff {n k : Nat} : grainsOf n ≤ k ↔ n ≤ 256 * k := by
  rw [grainsOf, Nat.div_le_iff_le_mul_add_pred (by decide), Nat.add_le_add_iff_right]

/-- Settles O10: the grains of a frame are the least count that holds its bytes, by `grainsOf_le_iff` read at the count itself
and at any other that holds them. -/
theorem grainsRoundUp : Obligations.GrainsRoundUp :=
  fun f => ⟨grainsOf_le_iff.mp (Nat.le_refl f.grains), fun _ holds => grainsOf_le_iff.mpr holds⟩

end Sys2Proof.Machine
end

section
/-! SUPPORT. The state right after power-on reset (R70): the islands that ramp and their timers. -/

set_option Elab.async false

namespace Sys2Proof.Machine

theorem sget_map_const {V : Type} (d : Nat → V) (keys : List Nat) (v : V) (k : Nat) :
    sget d (keys.map fun i => (i, v)) k = if k ∈ keys then v else d k := by
  induction keys with
  | nil => rfl
  | cons i rest ih =>
    rw [List.map_cons, sget, ih]
    by_cases hi : i = k
    · simp [hi]
    · simp [hi, Ne.symm hi]

/-- After reset an island ramps or is OFF. -/
theorem islAt_reset (i : Nat) : State.reset.islAt i = if i ∈ rampsAtReset then .ramp else .off :=
  sget_map_const _ _ _ i

theorem islAt_reset_ramp_iff (i : Nat) : State.reset.islAt i = .ramp ↔ i ∈ rampsAtReset := by
  rw [islAt_reset]
  split <;> simp_all

/-- After reset no island but the wake island is ON. -/
theorem islAt_reset_on (i : Nat) : (State.reset.islAt i == .on) = false := by
  rw [islAt_reset]
  split <;> rfl

theorem timerOn_reset_iff (t : Timer) : State.reset.timerOn t = true ↔ ∃ i, t = .ramp i ∧ i ∈ rampsAtReset := by
  rw [State.timerOn, State.reset, List.any_map, List.any_reverse, List.any_eq_true]
  exact exists_congr fun i => and_comm.trans (and_congr_left' (beq_iff_eq.trans eq_comm))

/-- Settles O3. -/
theorem resetState : Obligations.ResetState := by
  refine ⟨rfl, fun _ => rfl, rfl, fun t => ?_, rfl, islAt_reset_on 0, islAt_reset_on 1, fun b => islAt_reset_on (2 + b),
    fun k => islAt_reset_on (19 + k)⟩
  simp only [timerOn_reset_iff, islAt_reset_ramp_iff]

end Sys2Proof.Machine
end

section
/-! SUPPORT. Commands and steps as a whole: every command answers, and every step keeps the register file's form, the fuses and
what has left the block. -/

set_option Elab.async false

namespace Sys2Proof.Machine

/-- Every command answers a next state: no branch of an operation refuses or faults (R10, R12). -/
theorem exec_answers (c : Instr) (s : State) : ∃ t, exec c s = .next t := by
  cases c
  case keyCreditReturn | railFault | rstCtlLineHold | rstBedWrite | pwrIslandCtlWrite | clkMonStart | portFormWrite |
      laneModeOff | laneModePort | laneModeTest | laneReset | boardTableWrite | prbsChkClear | pfcFrameReceive |
      mergeRespondReceive | mergeVerifyRestart | mergeVerifyFrameReceive | statSnap | statSnapClear | mdioStart |
      pipeMapWrite | pipeParityError | meshCommit | meshTblRead | meshTblWrite | meshTblClear | rewriteCommit |
      replRead | replWrite | replClear | meterRead | meterWriteFull | meterWriteKeep | shadowWrite | flowRead |
      flowWriteQuantum | flowZeroDeq | clodRead | clodWrite | clodWriteFull | gateCommit | gateAbort | gateBoundary |
      gateListRead | gateListWrite | addendWrite | tbNowRead | captureAll | tbSet | tbStep | tbSlew | unlockWrite |
      actRead | actWrite | actArm | actDisarm | tsqPop | ppsInPop | ref10Go | pairSwitch | nudge | ringEnable |
      ringDisable | ringReset | vectorArmWrite | augDoorbell | augPause | augUnpause | augResume | augAbort |
      assayCommit | siltEnable | siltDisable | readDataReceive | writeAckReceive | creditReceive | nakReceive |
      laneFailReceive | laneMapAckReceive | moduleStatusReceive | siltDetach | siltDrainForce | loadStart | loadData |
      loadFinish | loadAbort | roleAssign | roleHandover | roleAbort | harmAck | fenceRelease | harmTake | swapWarm |
      swapStart | swapAbort | swapReturn | shadowMismatch | fuseProgGo | mapRtWrite | lcRequest | keyRevoke |
      dbgChalReq | dbgTokenWrite | dbgSubmit | dbgClose | returnArmExpire | dpLineRelease | pwrStateTrim |
      pwrStateRun | fallowEntry | nullFlitReceive =>
    exact ⟨_, rfl⟩
  case registerWrite =>
    dsimp only [exec_registerWrite, execRegisterWrite]
    (repeat' split) <;> exact ⟨_, rfl⟩
  case counterWrite =>
    dsimp only [exec_counterWrite, execCounterWrite]
    (repeat' split) <;> exact ⟨_, rfl⟩
  case macReceiveFrame =>
    dsimp only [exec_macReceiveFrame, execMacReceiveFrame]
    (repeat' split) <;> exact ⟨_, rfl⟩
  case parseWindow =>
    dsimp only [exec_parseWindow, execParseWindow]
    (repeat' split) <;> exact ⟨_, rfl⟩
  case payloadMatchFinal =>
    dsimp only [exec_payloadMatchFinal, execPayloadMatchFinal]
    (repeat' split) <;> exact ⟨_, rfl⟩
  case tailCheck =>
    dsimp only [exec_tailCheck, execTailCheck]
    (repeat' split) <;> exact ⟨_, rfl⟩
  case keySend =>
    dsimp only [exec_keySend, execKeySend]
    (repeat' split) <;> exact ⟨_, rfl⟩
  case verdictReceive =>
    dsimp only [exec_verdictReceive, execVerdictReceive]
    (repeat' split) <;> exact ⟨_, rfl⟩
  case handoffTimeout =>
    dsimp only [exec_handoffTimeout, execHandoffTimeout]
    (repeat' split) <;> exact ⟨_, rfl⟩
  case enqueue =>
    dsimp only [exec_enqueue, execEnqueue]
    (repeat' split) <;> exact ⟨_, rfl⟩
  case multicastReplicate =>
    dsimp only [exec_multicastReplicate, execMulticastReplicate]
    (repeat' split) <;> exact ⟨_, rfl⟩
  case mirrorCopy =>
    dsimp only [exec_mirrorCopy, execMirrorCopy]
    (repeat' split) <;> exact ⟨_, rfl⟩
  case recirculate =>
    dsimp only [exec_recirculate, execRecirculate]
    (repeat' split) <;> exact ⟨_, rfl⟩
  case selection =>
    dsimp only [exec_selection, execSelection]
    (repeat' split) <;> exact ⟨_, rfl⟩
  case egressEdit =>
    dsimp only [exec_egressEdit, execEgressEdit]
    (repeat' split) <;> exact ⟨_, rfl⟩
  case macTransmitFrame =>
    dsimp only [exec_macTransmitFrame, execMacTransmitFrame]
    (repeat' split) <;> exact ⟨_, rfl⟩
  case sieveFrameOut =>
    dsimp only [exec_sieveFrameOut, execSieveFrameOut]
    (repeat' split) <;> exact ⟨_, rfl⟩
  case powerOnReset =>
    dsimp only [exec_powerOnReset, execPowerOnReset]
    (repeat' split) <;> exact ⟨_, rfl⟩
  case hostResetPin =>
    dsimp only [exec_hostResetPin, execHostResetPin]
    (repeat' split) <;> exact ⟨_, rfl⟩
  case lineResetPin =>
    dsimp only [exec_lineResetPin, execLineResetPin]
    (repeat' split) <;> exact ⟨_, rfl⟩
  case rstCtlHostSelf =>
    dsimp only [exec_rstCtlHostSelf, execRstCtlHostSelf]
    (repeat' split) <;> exact ⟨_, rfl⟩
  case railGood =>
    dsimp only [exec_railGood, execRailGood]
    (repeat' split) <;> exact ⟨_, rfl⟩
  case rampTimeout =>
    dsimp only [exec_rampTimeout, execRampTimeout]
    (repeat' split) <;> exact ⟨_, rfl⟩
  case islandResetRelease =>
    dsimp only [exec_islandResetRelease, execIslandResetRelease]
    (repeat' split) <;> exact ⟨_, rfl⟩
  case bridgeCentred =>
    dsimp only [exec_bridgeCentred, execBridgeCentred]
    (repeat' split) <;> exact ⟨_, rfl⟩
  case pllLockLoss =>
    dsimp only [exec_pllLockLoss, execPllLockLoss]
    (repeat' split) <;> exact ⟨_, rfl⟩
  case pllRelock =>
    dsimp only [exec_pllRelock, execPllRelock]
    (repeat' split) <;> exact ⟨_, rfl⟩
  case clkMonWindowEnd =>
    dsimp only [exec_clkMonWindowEnd, execClkMonWindowEnd]
    (repeat' split) <;> exact ⟨_, rfl⟩
  case portDetectDone =>
    dsimp only [exec_portDetectDone, execPortDetectDone]
    (repeat' split) <;> exact ⟨_, rfl⟩
  case portTrainDone =>
    dsimp only [exec_portTrainDone, execPortTrainDone]
    (repeat' split) <;> exact ⟨_, rfl⟩
  case portLockDone =>
    dsimp only [exec_portLockDone, execPortLockDone]
    (repeat' split) <;> exact ⟨_, rfl⟩
  case portExchangeConfirm =>
    dsimp only [exec_portExchangeConfirm, execPortExchangeConfirm]
    (repeat' split) <;> exact ⟨_, rfl⟩
  case portExchangeMismatch =>
    dsimp only [exec_portExchangeMismatch, execPortExchangeMismatch]
    (repeat' split) <;> exact ⟨_, rfl⟩
  case portStageTimeout =>
    dsimp only [exec_portStageTimeout, execPortStageTimeout]
    (repeat' split) <;> exact ⟨_, rfl⟩
  case laneLockLoss =>
    dsimp only [exec_laneLockLoss, execLaneLockLoss]
    (repeat' split) <;> exact ⟨_, rfl⟩
  case reformDone =>
    dsimp only [exec_reformDone, execReformDone]
    (repeat' split) <;> exact ⟨_, rfl⟩
  case reformLimitExpire =>
    dsimp only [exec_reformLimitExpire, execReformLimitExpire]
    (repeat' split) <;> exact ⟨_, rfl⟩
  case gapRetry =>
    dsimp only [exec_gapRetry, execGapRetry]
    (repeat' split) <;> exact ⟨_, rfl⟩
  case dormantWakeDone =>
    dsimp only [exec_dormantWakeDone, execDormantWakeDone]
    (repeat' split) <;> exact ⟨_, rfl⟩
  case laneRecovered =>
    dsimp only [exec_laneRecovered, execLaneRecovered]
    (repeat' split) <;> exact ⟨_, rfl⟩
  case faultHoldExpire =>
    dsimp only [exec_faultHoldExpire, execFaultHoldExpire]
    (repeat' split) <;> exact ⟨_, rfl⟩
  case prbsSyncAcquire =>
    dsimp only [exec_prbsSyncAcquire, execPrbsSyncAcquire]
    (repeat' split) <;> exact ⟨_, rfl⟩
  case prbsSyncLoss =>
    dsimp only [exec_prbsSyncLoss, execPrbsSyncLoss]
    (repeat' split) <;> exact ⟨_, rfl⟩
  case prbsErrorInject =>
    dsimp only [exec_prbsErrorInject, execPrbsErrorInject]
    (repeat' split) <;> exact ⟨_, rfl⟩
  case pauseFrameReceive =>
    dsimp only [exec_pauseFrameReceive, execPauseFrameReceive]
    (repeat' split) <;> exact ⟨_, rfl⟩
  case pauseTimerExpire =>
    dsimp only [exec_pauseTimerExpire, execPauseTimerExpire]
    (repeat' split) <;> exact ⟨_, rfl⟩
  case pauseWatchdogTrip =>
    dsimp only [exec_pauseWatchdogTrip, execPauseWatchdogTrip]
    (repeat' split) <;> exact ⟨_, rfl⟩
  case watchdogHoldEnd =>
    dsimp only [exec_watchdogHoldEnd, execWatchdogHoldEnd]
    (repeat' split) <;> exact ⟨_, rfl⟩
  case pauseSend =>
    dsimp only [exec_pauseSend, execPauseSend]
    (repeat' split) <;> exact ⟨_, rfl⟩
  case pauseRefresh =>
    dsimp only [exec_pauseRefresh, execPauseRefresh]
    (repeat' split) <;> exact ⟨_, rfl⟩
  case remoteFaultChange =>
    dsimp only [exec_remoteFaultChange, execRemoteFaultChange]
    (repeat' split) <;> exact ⟨_, rfl⟩
  case mergeVerifyStart =>
    dsimp only [exec_mergeVerifyStart, execMergeVerifyStart]
    (repeat' split) <;> exact ⟨_, rfl⟩
  case mergeVerifyTimeout =>
    dsimp only [exec_mergeVerifyTimeout, execMergeVerifyTimeout]
    (repeat' split) <;> exact ⟨_, rfl⟩
  case preemptFragment =>
    dsimp only [exec_preemptFragment, execPreemptFragment]
    (repeat' split) <;> exact ⟨_, rfl⟩
  case mgmtFrameReceive =>
    dsimp only [exec_mgmtFrameReceive, execMgmtFrameReceive]
    (repeat' split) <;> exact ⟨_, rfl⟩
  case mgmtCollision =>
    dsimp only [exec_mgmtCollision, execMgmtCollision]
    (repeat' split) <;> exact ⟨_, rfl⟩
  case mgmtBackoffEnd =>
    dsimp only [exec_mgmtBackoffEnd, execMgmtBackoffEnd]
    (repeat' split) <;> exact ⟨_, rfl⟩
  case mdioDone =>
    dsimp only [exec_mdioDone, execMdioDone]
    (repeat' split) <;> exact ⟨_, rfl⟩
  case wakeFrame =>
    dsimp only [exec_wakeFrame, execWakeFrame]
    (repeat' split) <;> exact ⟨_, rfl⟩
  case pipeTrialPass =>
    dsimp only [exec_pipeTrialPass, execPipeTrialPass]
    (repeat' split) <;> exact ⟨_, rfl⟩
  case meshDrained =>
    dsimp only [exec_meshDrained, execMeshDrained]
    (repeat' split) <;> exact ⟨_, rfl⟩
  case rewriteDrained =>
    dsimp only [exec_rewriteDrained, execRewriteDrained]
    (repeat' split) <;> exact ⟨_, rfl⟩
  case meterRefresh =>
    dsimp only [exec_meterRefresh, execMeterRefresh]
    (repeat' split) <;> exact ⟨_, rfl⟩
  case spillMove =>
    dsimp only [exec_spillMove, execSpillMove]
    (repeat' split) <;> exact ⟨_, rfl⟩
  case moveAck =>
    dsimp only [exec_moveAck, execMoveAck]
    (repeat' split) <;> exact ⟨_, rfl⟩
  case prefetchIssue =>
    dsimp only [exec_prefetchIssue, execPrefetchIssue]
    (repeat' split) <;> exact ⟨_, rfl⟩
  case prefetchComplete =>
    dsimp only [exec_prefetchComplete, execPrefetchComplete]
    (repeat' split) <;> exact ⟨_, rfl⟩
  case handover =>
    dsimp only [exec_handover, execHandover]
    (repeat' split) <;> exact ⟨_, rfl⟩
  case schedInit =>
    dsimp only [exec_schedInit, execSchedInit]
    (repeat' split) <;> exact ⟨_, rfl⟩
  case schedInitDone =>
    dsimp only [exec_schedInitDone, execSchedInitDone]
    (repeat' split) <;> exact ⟨_, rfl⟩
  case clodRefresh =>
    dsimp only [exec_clodRefresh, execClodRefresh]
    (repeat' split) <;> exact ⟨_, rfl⟩
  case clodRejoin =>
    dsimp only [exec_clodRejoin, execClodRejoin]
    (repeat' split) <;> exact ⟨_, rfl⟩
  case cacheFetchDone =>
    dsimp only [exec_cacheFetchDone, execCacheFetchDone]
    (repeat' split) <;> exact ⟨_, rfl⟩
  case gateAdopt =>
    dsimp only [exec_gateAdopt, execGateAdopt]
    (repeat' split) <;> exact ⟨_, rfl⟩
  case gateHoldAdvance =>
    dsimp only [exec_gateHoldAdvance, execGateHoldAdvance]
    (repeat' split) <;> exact ⟨_, rfl⟩
  case gateAbandon =>
    dsimp only [exec_gateAbandon, execGateAbandon]
    (repeat' split) <;> exact ⟨_, rfl⟩
  case slewEnd =>
    dsimp only [exec_slewEnd, execSlewEnd]
    (repeat' split) <;> exact ⟨_, rfl⟩
  case unlockExpire =>
    dsimp only [exec_unlockExpire, execUnlockExpire]
    (repeat' split) <;> exact ⟨_, rfl⟩
  case actFire =>
    dsimp only [exec_actFire, execActFire]
    (repeat' split) <;> exact ⟨_, rfl⟩
  case ppsInEdge =>
    dsimp only [exec_ppsInEdge, execPpsInEdge]
    (repeat' split) <;> exact ⟨_, rfl⟩
  case ppsOutEnd =>
    dsimp only [exec_ppsOutEnd, execPpsOutEnd]
    (repeat' split) <;> exact ⟨_, rfl⟩
  case ref10Done =>
    dsimp only [exec_ref10Done, execRef10Done]
    (repeat' split) <;> exact ⟨_, rfl⟩
  case timeMonSample =>
    dsimp only [exec_timeMonSample, execTimeMonSample]
    (repeat' split) <;> exact ⟨_, rfl⟩
  case pairReturn =>
    dsimp only [exec_pairReturn, execPairReturn]
    (repeat' split) <;> exact ⟨_, rfl⟩
  case pairSwitchDone =>
    dsimp only [exec_pairSwitchDone, execPairSwitchDone]
    (repeat' split) <;> exact ⟨_, rfl⟩
  case intervalSettle =>
    dsimp only [exec_intervalSettle, execIntervalSettle]
    (repeat' split) <;> exact ⟨_, rfl⟩
  case archiveWriteAck =>
    dsimp only [exec_archiveWriteAck, execArchiveWriteAck]
    (repeat' split) <;> exact ⟨_, rfl⟩
  case eventRecordSend =>
    dsimp only [exec_eventRecordSend, execEventRecordSend]
    (repeat' split) <;> exact ⟨_, rfl⟩
  case evtMaskClear =>
    dsimp only [exec_evtMaskClear, execEvtMaskClear]
    (repeat' split) <;> exact ⟨_, rfl⟩
  case doorbellPoll =>
    dsimp only [exec_doorbellPoll, execDoorbellPoll]
    (repeat' split) <;> exact ⟨_, rfl⟩
  case doorbellRecordArrive =>
    dsimp only [exec_doorbellRecordArrive, execDoorbellRecordArrive]
    (repeat' split) <;> exact ⟨_, rfl⟩
  case hostReadTimeout =>
    dsimp only [exec_hostReadTimeout, execHostReadTimeout]
    (repeat' split) <;> exact ⟨_, rfl⟩
  case hostErrorResponse =>
    dsimp only [exec_hostErrorResponse, execHostErrorResponse]
    (repeat' split) <;> exact ⟨_, rfl⟩
  case ringDrained =>
    dsimp only [exec_ringDrained, execRingDrained]
    (repeat' split) <;> exact ⟨_, rfl⟩
  case txDescArrive =>
    dsimp only [exec_txDescArrive, execTxDescArrive]
    (repeat' split) <;> exact ⟨_, rfl⟩
  case txFrameCross =>
    dsimp only [exec_txFrameCross, execTxFrameCross]
    (repeat' split) <;> exact ⟨_, rfl⟩
  case txWriteback =>
    dsimp only [exec_txWriteback, execTxWriteback]
    (repeat' split) <;> exact ⟨_, rfl⟩
  case txFateReport =>
    dsimp only [exec_txFateReport, execTxFateReport]
    (repeat' split) <;> exact ⟨_, rfl⟩
  case tsWaitExpire =>
    dsimp only [exec_tsWaitExpire, execTsWaitExpire]
    (repeat' split) <;> exact ⟨_, rfl⟩
  case rxFrameArrive =>
    dsimp only [exec_rxFrameArrive, execRxFrameArrive]
    (repeat' split) <;> exact ⟨_, rfl⟩
  case rxShortWaitExpire =>
    dsimp only [exec_rxShortWaitExpire, execRxShortWaitExpire]
    (repeat' split) <;> exact ⟨_, rfl⟩
  case rxWriteback =>
    dsimp only [exec_rxWriteback, execRxWriteback]
    (repeat' split) <;> exact ⟨_, rfl⟩
  case vectorMessage =>
    dsimp only [exec_vectorMessage, execVectorMessage]
    (repeat' split) <;> exact ⟨_, rfl⟩
  case augDescArrive =>
    dsimp only [exec_augDescArrive, execAugDescArrive]
    (repeat' split) <;> exact ⟨_, rfl⟩
  case augSourceRead =>
    dsimp only [exec_augSourceRead, execAugSourceRead]
    (repeat' split) <;> exact ⟨_, rfl⟩
  case augWriteResponse =>
    dsimp only [exec_augWriteResponse, execAugWriteResponse]
    (repeat' split) <;> exact ⟨_, rfl⟩
  case fabricPulse =>
    dsimp only [exec_fabricPulse, execFabricPulse]
    (repeat' split) <;> exact ⟨_, rfl⟩
  case assayParityError =>
    dsimp only [exec_assayParityError, execAssayParityError]
    (repeat' split) <;> exact ⟨_, rfl⟩
  case assayResync =>
    dsimp only [exec_assayResync, execAssayResync]
    (repeat' split) <;> exact ⟨_, rfl⟩
  case scanStart =>
    dsimp only [exec_scanStart, execScanStart]
    (repeat' split) <;> exact ⟨_, rfl⟩
  case scanEntryEnd =>
    dsimp only [exec_scanEntryEnd, execScanEntryEnd]
    (repeat' split) <;> exact ⟨_, rfl⟩
  case siltStageDone =>
    dsimp only [exec_siltStageDone, execSiltStageDone]
    (repeat' split) <;> exact ⟨_, rfl⟩
  case siltStageTimeout =>
    dsimp only [exec_siltStageTimeout, execSiltStageTimeout]
    (repeat' split) <;> exact ⟨_, rfl⟩
  case siltCapSend =>
    dsimp only [exec_siltCapSend, execSiltCapSend]
    (repeat' split) <;> exact ⟨_, rfl⟩
  case siltCapReceive =>
    dsimp only [exec_siltCapReceive, execSiltCapReceive]
    (repeat' split) <;> exact ⟨_, rfl⟩
  case siltCapAckReceive =>
    dsimp only [exec_siltCapAckReceive, execSiltCapAckReceive]
    (repeat' split) <;> exact ⟨_, rfl⟩
  case replayTimeout =>
    dsimp only [exec_replayTimeout, execReplayTimeout]
    (repeat' split) <;> exact ⟨_, rfl⟩
  case siltLossTimeout =>
    dsimp only [exec_siltLossTimeout, execSiltLossTimeout]
    (repeat' split) <;> exact ⟨_, rfl⟩
  case siltLaneLost =>
    dsimp only [exec_siltLaneLost, execSiltLaneLost]
    (repeat' split) <;> exact ⟨_, rfl⟩
  case laneMapResend =>
    dsimp only [exec_laneMapResend, execLaneMapResend]
    (repeat' split) <;> exact ⟨_, rfl⟩
  case siltSpareRecover =>
    dsimp only [exec_siltSpareRecover, execSiltSpareRecover]
    (repeat' split) <;> exact ⟨_, rfl⟩
  case siltNullSend =>
    dsimp only [exec_siltNullSend, execSiltNullSend]
    (repeat' split) <;> exact ⟨_, rfl⟩
  case siltGapRetry =>
    dsimp only [exec_siltGapRetry, execSiltGapRetry]
    (repeat' split) <;> exact ⟨_, rfl⟩
  case siltDetachDone =>
    dsimp only [exec_siltDetachDone, execSiltDetachDone]
    (repeat' split) <;> exact ⟨_, rfl⟩
  case loadCheckDone =>
    dsimp only [exec_loadCheckDone, execLoadCheckDone]
    (repeat' split) <;> exact ⟨_, rfl⟩
  case engineClear =>
    dsimp only [exec_engineClear, execEngineClear]
    (repeat' split) <;> exact ⟨_, rfl⟩
  case machineCheck =>
    dsimp only [exec_machineCheck, execMachineCheck]
    (repeat' split) <;> exact ⟨_, rfl⟩
  case tilthWatchdog =>
    dsimp only [exec_tilthWatchdog, execTilthWatchdog]
    (repeat' split) <;> exact ⟨_, rfl⟩
  case safePoint =>
    dsimp only [exec_safePoint, execSafePoint]
    (repeat' split) <;> exact ⟨_, rfl⟩
  case takeoverDone =>
    dsimp only [exec_takeoverDone, execTakeoverDone]
    (repeat' split) <;> exact ⟨_, rfl⟩
  case heartbeatSend =>
    dsimp only [exec_heartbeatSend, execHeartbeatSend]
    (repeat' split) <;> exact ⟨_, rfl⟩
  case heartbeatTimeout =>
    dsimp only [exec_heartbeatTimeout, execHeartbeatTimeout]
    (repeat' split) <;> exact ⟨_, rfl⟩
  case harmWindowEnd =>
    dsimp only [exec_harmWindowEnd, execHarmWindowEnd]
    (repeat' split) <;> exact ⟨_, rfl⟩
  case reseedMatched =>
    dsimp only [exec_reseedMatched, execReseedMatched]
    (repeat' split) <;> exact ⟨_, rfl⟩
  case shadowMatched =>
    dsimp only [exec_shadowMatched, execShadowMatched]
    (repeat' split) <;> exact ⟨_, rfl⟩
  case portSwitch =>
    dsimp only [exec_portSwitch, execPortSwitch]
    (repeat' split) <;> exact ⟨_, rfl⟩
  case bedDrained =>
    dsimp only [exec_bedDrained, execBedDrained]
    (repeat' split) <;> exact ⟨_, rfl⟩
  case marlRewriteDone =>
    dsimp only [exec_marlRewriteDone, execMarlRewriteDone]
    (repeat' split) <;> exact ⟨_, rfl⟩
  case wearSample =>
    dsimp only [exec_wearSample, execWearSample]
    (repeat' split) <;> exact ⟨_, rfl⟩
  case subsoilRepairStart =>
    dsimp only [exec_subsoilRepairStart, execSubsoilRepairStart]
    (repeat' split) <;> exact ⟨_, rfl⟩
  case subsoilRepairDone =>
    dsimp only [exec_subsoilRepairDone, execSubsoilRepairDone]
    (repeat' split) <;> exact ⟨_, rfl⟩
  case uncorrectableError =>
    dsimp only [exec_uncorrectableError, execUncorrectableError]
    (repeat' split) <;> exact ⟨_, rfl⟩
  case fuseBlowDone =>
    dsimp only [exec_fuseBlowDone, execFuseBlowDone]
    (repeat' split) <;> exact ⟨_, rfl⟩
  case lcBlowDone =>
    dsimp only [exec_lcBlowDone, execLcBlowDone]
    (repeat' split) <;> exact ⟨_, rfl⟩
  case tokenCheckDone =>
    dsimp only [exec_tokenCheckDone, execTokenCheckDone]
    (repeat' split) <;> exact ⟨_, rfl⟩
  case wipeDone =>
    dsimp only [exec_wipeDone, execWipeDone]
    (repeat' split) <;> exact ⟨_, rfl⟩
  case sessionExpire =>
    dsimp only [exec_sessionExpire, execSessionExpire]
    (repeat' split) <;> exact ⟨_, rfl⟩
  case challengeExpire =>
    dsimp only [exec_challengeExpire, execChallengeExpire]
    (repeat' split) <;> exact ⟨_, rfl⟩
  case dpAccess =>
    dsimp only [exec_dpAccess, execDpAccess]
    (repeat' split) <;> exact ⟨_, rfl⟩
  case dpMemAccess =>
    dsimp only [exec_dpMemAccess, execDpMemAccess]
    (repeat' split) <;> exact ⟨_, rfl⟩
  case fallowExit =>
    dsimp only [exec_fallowExit, execFallowExit]
    (repeat' split) <;> exact ⟨_, rfl⟩
  case flitDiscard =>
    dsimp only [exec_flitDiscard, execFlitDiscard]
    (repeat' split) <;> exact ⟨_, rfl⟩
  case stuffError =>
    dsimp only [exec_stuffError, execStuffError]
    (repeat' split) <;> exact ⟨_, rfl⟩
  case mgmtDeferEnd =>
    dsimp only [exec_mgmtDeferEnd, execMgmtDeferEnd]
    (repeat' split) <;> exact ⟨_, rfl⟩
  case intervalEnd =>
    dsimp only [exec_intervalEnd, execIntervalEnd]
    (repeat' split) <;> exact ⟨_, rfl⟩
  case tornRecordRefetch =>
    dsimp only [exec_tornRecordRefetch, execTornRecordRefetch]
    (repeat' split) <;> exact ⟨_, rfl⟩
  case keyRevokeDone =>
    dsimp only [exec_keyRevokeDone, execKeyRevokeDone]
    (repeat' split) <;> exact ⟨_, rfl⟩

/-- Every command keeps what every operation keeps: its own rule, by the command. -/
theorem exec_keeps (c : Instr) (s : State) : KeepsO s (exec c s) :=
  match c with
  | .registerWrite .. => execRegisterWrite_keeps _ _ _ s
  | .counterWrite .. => execCounterWrite_keeps _ _ s
  | .macReceiveFrame .. => execMacReceiveFrame_keeps _ _ _ _ _ _ _ _ _ _ _ s
  | .parseWindow .. => execParseWindow_keeps _ _ _ _ s
  | .payloadMatchFinal .. => execPayloadMatchFinal_keeps _ s
  | .tailCheck .. => execTailCheck_keeps _ s
  | .keySend .. => execKeySend_keeps _ _ s
  | .keyCreditReturn .. => execKeyCreditReturn_keeps _ _ s
  | .verdictReceive .. => execVerdictReceive_keeps _ _ _ s
  | .handoffTimeout .. => execHandoffTimeout_keeps _ _ s
  | .enqueue .. => execEnqueue_keeps _ s
  | .multicastReplicate .. => execMulticastReplicate_keeps _ s
  | .mirrorCopy .. => execMirrorCopy_keeps _ s
  | .recirculate .. => execRecirculate_keeps _ _ s
  | .selection .. => execSelection_keeps _ s
  | .egressEdit .. => execEgressEdit_keeps _ _ s
  | .macTransmitFrame .. => execMacTransmitFrame_keeps _ _ _ s
  | .sieveFrameOut .. => execSieveFrameOut_keeps _ _ s
  | .powerOnReset .. => execPowerOnReset_keeps _ s
  | .hostResetPin .. => execHostResetPin_keeps _ s
  | .lineResetPin .. => execLineResetPin_keeps _ s
  | .railFault r => execRailFault_keeps r s
  | .rstCtlHostSelf .. => execRstCtlHostSelf_keeps _ s
  | .rstCtlLineHold .. => execRstCtlLineHold_keeps _ s
  | .rstBedWrite .. => execRstBedWrite_keeps _ s
  | .pwrIslandCtlWrite .. => execPwrIslandCtlWrite_keeps _ s
  | .railGood .. => execRailGood_keeps _ s
  | .rampTimeout .. => execRampTimeout_keeps _ s
  | .islandResetRelease .. => execIslandResetRelease_keeps _ s
  | .bridgeCentred .. => execBridgeCentred_keeps _ s
  | .pllLockLoss .. => execPllLockLoss_keeps s
  | .pllRelock .. => execPllRelock_keeps s
  | .clkMonStart .. => execClkMonStart_keeps _ s
  | .clkMonWindowEnd .. => execClkMonWindowEnd_keeps _ s
  | .portFormWrite .. => execPortFormWrite_keeps _ _ _ s
  | .portDetectDone .. => execPortDetectDone_keeps _ _ s
  | .portTrainDone .. => execPortTrainDone_keeps _ _ _ s
  | .portLockDone .. => execPortLockDone_keeps _ _ _ s
  | .portExchangeConfirm .. => execPortExchangeConfirm_keeps _ _ _ _ s
  | .portExchangeMismatch .. => execPortExchangeMismatch_keeps _ _ _ _ s
  | .portStageTimeout .. => execPortStageTimeout_keeps _ _ s
  | .laneLockLoss .. => execLaneLockLoss_keeps _ _ s
  | .reformDone .. => execReformDone_keeps _ _ _ s
  | .reformLimitExpire .. => execReformLimitExpire_keeps _ _ s
  | .gapRetry .. => execGapRetry_keeps _ _ s
  | .dormantWakeDone .. => execDormantWakeDone_keeps _ _ s
  | .laneRecovered .. => execLaneRecovered_keeps _ _ s
  | .faultHoldExpire .. => execFaultHoldExpire_keeps _ _ s
  | .laneModeOff .. => execLaneModeOff_keeps _ _ s
  | .laneModePort .. => execLaneModePort_keeps _ _ s
  | .laneModeTest .. => execLaneModeTest_keeps _ _ s
  | .laneReset .. => execLaneReset_keeps _ _ s
  | .boardTableWrite .. => execBoardTableWrite_keeps _ _ _ s
  | .prbsChkClear .. => execPrbsChkClear_keeps _ _ s
  | .prbsSyncAcquire .. => execPrbsSyncAcquire_keeps _ s
  | .prbsSyncLoss .. => execPrbsSyncLoss_keeps _ _ s
  | .prbsErrorInject .. => execPrbsErrorInject_keeps _ s
  | .pauseFrameReceive .. => execPauseFrameReceive_keeps _ _ _ _ s
  | .pfcFrameReceive .. => execPfcFrameReceive_keeps _ _ _ _ s
  | .pauseTimerExpire .. => execPauseTimerExpire_keeps _ _ s
  | .pauseWatchdogTrip .. => execPauseWatchdogTrip_keeps _ _ _ s
  | .watchdogHoldEnd .. => execWatchdogHoldEnd_keeps _ _ _ s
  | .pauseSend .. => execPauseSend_keeps _ _ s
  | .pauseRefresh .. => execPauseRefresh_keeps _ _ _ s
  | .remoteFaultChange .. => execRemoteFaultChange_keeps _ _ _ s
  | .mergeVerifyStart .. => execMergeVerifyStart_keeps _ _ s
  | .mergeRespondReceive .. => execMergeRespondReceive_keeps _ _ s
  | .mergeVerifyTimeout .. => execMergeVerifyTimeout_keeps _ _ s
  | .mergeVerifyRestart .. => execMergeVerifyRestart_keeps _ _ _ s
  | .mergeVerifyFrameReceive .. => execMergeVerifyFrameReceive_keeps _ _ s
  | .preemptFragment .. => execPreemptFragment_keeps _ _ s
  | .statSnap .. => execStatSnap_keeps _ s
  | .statSnapClear .. => execStatSnapClear_keeps _ s
  | .mgmtFrameReceive .. => execMgmtFrameReceive_keeps _ _ _ s
  | .mgmtCollision .. => execMgmtCollision_keeps _ s
  | .mgmtBackoffEnd .. => execMgmtBackoffEnd_keeps s
  | .mdioStart .. => execMdioStart_keeps _ s
  | .mdioDone .. => execMdioDone_keeps _ s
  | .wakeFrame .. => execWakeFrame_keeps _ _ s
  | .pipeMapWrite .. => execPipeMapWrite_keeps _ _ s
  | .pipeParityError .. => execPipeParityError_keeps _ _ _ s
  | .pipeTrialPass .. => execPipeTrialPass_keeps _ _ s
  | .meshCommit .. => execMeshCommit_keeps _ _ s
  | .meshDrained .. => execMeshDrained_keeps _ s
  | .meshTblRead .. => execMeshTblRead_keeps _ s
  | .meshTblWrite .. => execMeshTblWrite_keeps _ s
  | .meshTblClear .. => execMeshTblClear_keeps _ s
  | .rewriteCommit .. => execRewriteCommit_keeps _ _ s
  | .rewriteDrained .. => execRewriteDrained_keeps _ s
  | .replRead .. => execReplRead_keeps s
  | .replWrite .. => execReplWrite_keeps s
  | .replClear .. => execReplClear_keeps s
  | .meterRead .. => execMeterRead_keeps s
  | .meterWriteFull .. => execMeterWriteFull_keeps s
  | .meterWriteKeep .. => execMeterWriteKeep_keeps s
  | .meterRefresh .. => execMeterRefresh_keeps _ s
  | .spillMove .. => execSpillMove_keeps _ _ _ s
  | .moveAck .. => execMoveAck_keeps _ s
  | .prefetchIssue .. => execPrefetchIssue_keeps _ s
  | .prefetchComplete .. => execPrefetchComplete_keeps _ _ s
  | .shadowWrite .. => execShadowWrite_keeps _ _ _ s
  | .handover .. => execHandover_keeps _ s
  | .flowRead .. => execFlowRead_keeps s
  | .flowWriteQuantum .. => execFlowWriteQuantum_keeps _ s
  | .flowZeroDeq .. => execFlowZeroDeq_keeps s
  | .clodRead .. => execClodRead_keeps s
  | .clodWrite .. => execClodWrite_keeps _ s
  | .clodWriteFull .. => execClodWriteFull_keeps _ s
  | .schedInit .. => execSchedInit_keeps s
  | .schedInitDone .. => execSchedInitDone_keeps s
  | .clodRefresh .. => execClodRefresh_keeps _ s
  | .clodRejoin .. => execClodRejoin_keeps _ s
  | .cacheFetchDone .. => execCacheFetchDone_keeps _ _ s
  | .gateCommit .. => execGateCommit_keeps _ _ _ s
  | .gateAbort .. => execGateAbort_keeps _ _ _ s
  | .gateAdopt .. => execGateAdopt_keeps _ _ s
  | .gateBoundary .. => execGateBoundary_keeps _ _ s
  | .gateHoldAdvance .. => execGateHoldAdvance_keeps _ _ s
  | .gateAbandon .. => execGateAbandon_keeps _ _ s
  | .gateListRead .. => execGateListRead_keeps _ s
  | .gateListWrite .. => execGateListWrite_keeps _ s
  | .addendWrite .. => execAddendWrite_keeps _ _ s
  | .tbNowRead .. => execTbNowRead_keeps _ s
  | .captureAll .. => execCaptureAll_keeps s
  | .tbSet .. => execTbSet_keeps _ _ s
  | .tbStep .. => execTbStep_keeps _ _ s
  | .tbSlew .. => execTbSlew_keeps _ _ s
  | .slewEnd .. => execSlewEnd_keeps _ s
  | .unlockWrite .. => execUnlockWrite_keeps _ _ s
  | .unlockExpire .. => execUnlockExpire_keeps _ s
  | .actRead .. => execActRead_keeps s
  | .actWrite .. => execActWrite_keeps s
  | .actArm .. => execActArm_keeps s
  | .actDisarm .. => execActDisarm_keeps s
  | .actFire .. => execActFire_keeps _ _ s
  | .tsqPop .. => execTsqPop_keeps _ _ _ s
  | .ppsInEdge .. => execPpsInEdge_keeps _ _ s
  | .ppsInPop .. => execPpsInPop_keeps _ s
  | .ppsOutEnd .. => execPpsOutEnd_keeps _ s
  | .ref10Go .. => execRef10Go_keeps _ s
  | .ref10Done .. => execRef10Done_keeps _ _ s
  | .timeMonSample .. => execTimeMonSample_keeps _ _ s
  | .pairSwitch .. => execPairSwitch_keeps _ _ s
  | .pairReturn .. => execPairReturn_keeps _ _ s
  | .pairSwitchDone .. => execPairSwitchDone_keeps _ s
  | .intervalSettle .. => execIntervalSettle_keeps s
  | .archiveWriteAck .. => execArchiveWriteAck_keeps _ s
  | .eventRecordSend .. => execEventRecordSend_keeps _ s
  | .evtMaskClear .. => execEvtMaskClear_keeps _ _ s
  | .nudge .. => execNudge_keeps _ s
  | .doorbellPoll .. => execDoorbellPoll_keeps _ s
  | .doorbellRecordArrive .. => execDoorbellRecordArrive_keeps _ _ s
  | .hostReadTimeout .. => execHostReadTimeout_keeps _ s
  | .hostErrorResponse .. => execHostErrorResponse_keeps _ _ s
  | .ringEnable .. => execRingEnable_keeps _ _ s
  | .ringDisable .. => execRingDisable_keeps _ _ s
  | .ringReset .. => execRingReset_keeps _ _ s
  | .ringDrained .. => execRingDrained_keeps _ s
  | .txDescArrive .. => execTxDescArrive_keeps _ _ s
  | .txFrameCross .. => execTxFrameCross_keeps _ s
  | .txWriteback .. => execTxWriteback_keeps _ s
  | .txFateReport .. => execTxFateReport_keeps s
  | .tsWaitExpire .. => execTsWaitExpire_keeps _ s
  | .rxFrameArrive .. => execRxFrameArrive_keeps s
  | .rxShortWaitExpire .. => execRxShortWaitExpire_keeps _ s
  | .rxWriteback .. => execRxWriteback_keeps _ _ s
  | .vectorArmWrite .. => execVectorArmWrite_keeps _ _ s
  | .vectorMessage .. => execVectorMessage_keeps _ s
  | .augDoorbell .. => execAugDoorbell_keeps _ _ s
  | .augPause .. => execAugPause_keeps _ _ s
  | .augUnpause .. => execAugUnpause_keeps _ _ s
  | .augResume .. => execAugResume_keeps _ _ s
  | .augAbort .. => execAugAbort_keeps _ _ s
  | .augDescArrive .. => execAugDescArrive_keeps _ _ _ _ s
  | .augSourceRead .. => execAugSourceRead_keeps _ _ _ s
  | .augWriteResponse .. => execAugWriteResponse_keeps _ _ _ s
  | .fabricPulse .. => execFabricPulse_keeps _ s
  | .assayCommit .. => execAssayCommit_keeps _ _ s
  | .assayParityError .. => execAssayParityError_keeps _ s
  | .assayResync .. => execAssayResync_keeps _ _ s
  | .scanStart .. => execScanStart_keeps _ s
  | .scanEntryEnd .. => execScanEntryEnd_keeps _ s
  | .siltEnable .. => execSiltEnable_keeps _ _ s
  | .siltDisable .. => execSiltDisable_keeps _ _ s
  | .siltStageDone .. => execSiltStageDone_keeps _ _ _ s
  | .siltStageTimeout .. => execSiltStageTimeout_keeps _ _ _ s
  | .siltCapSend .. => execSiltCapSend_keeps _ s
  | .siltCapReceive .. => execSiltCapReceive_keeps _ _ s
  | .siltCapAckReceive .. => execSiltCapAckReceive_keeps _ s
  | .readDataReceive .. => execReadDataReceive_keeps _ _ _ _ _ _ _ s
  | .writeAckReceive .. => execWriteAckReceive_keeps _ _ _ _ s
  | .creditReceive .. => execCreditReceive_keeps _ _ _ _ _ s
  | .nakReceive .. => execNakReceive_keeps _ _ _ s
  | .laneFailReceive .. => execLaneFailReceive_keeps _ _ _ s
  | .laneMapAckReceive .. => execLaneMapAckReceive_keeps _ _ _ s
  | .moduleStatusReceive .. => execModuleStatusReceive_keeps _ _ _ _ s
  | .replayTimeout .. => execReplayTimeout_keeps _ s
  | .siltLossTimeout .. => execSiltLossTimeout_keeps _ s
  | .siltLaneLost .. => execSiltLaneLost_keeps _ _ s
  | .laneMapResend .. => execLaneMapResend_keeps _ s
  | .siltSpareRecover .. => execSiltSpareRecover_keeps _ _ s
  | .siltNullSend .. => execSiltNullSend_keeps _ s
  | .siltGapRetry .. => execSiltGapRetry_keeps _ s
  | .siltDetach .. => execSiltDetach_keeps _ _ s
  | .siltDrainForce .. => execSiltDrainForce_keeps _ _ s
  | .siltDetachDone .. => execSiltDetachDone_keeps _ s
  | .loadStart .. => execLoadStart_keeps _ s
  | .loadData .. => execLoadData_keeps _ s
  | .loadFinish .. => execLoadFinish_keeps _ s
  | .loadAbort .. => execLoadAbort_keeps _ s
  | .loadCheckDone .. => execLoadCheckDone_keeps _ s
  | .roleAssign .. => execRoleAssign_keeps _ _ s
  | .roleHandover .. => execRoleHandover_keeps _ _ s
  | .roleAbort .. => execRoleAbort_keeps _ _ s
  | .engineClear .. => execEngineClear_keeps _ s
  | .machineCheck .. => execMachineCheck_keeps _ _ _ _ s
  | .tilthWatchdog .. => execTilthWatchdog_keeps _ _ s
  | .safePoint .. => execSafePoint_keeps _ _ _ _ _ s
  | .takeoverDone .. => execTakeoverDone_keeps _ _ s
  | .heartbeatSend .. => execHeartbeatSend_keeps s
  | .heartbeatTimeout .. => execHeartbeatTimeout_keeps _ s
  | .harmWindowEnd .. => execHarmWindowEnd_keeps _ _ s
  | .harmAck .. => execHarmAck_keeps _ s
  | .fenceRelease .. => execFenceRelease_keeps _ _ s
  | .harmTake .. => execHarmTake_keeps s
  | .swapWarm .. => execSwapWarm_keeps _ s
  | .swapStart .. => execSwapStart_keeps _ s
  | .swapAbort .. => execSwapAbort_keeps _ s
  | .swapReturn .. => execSwapReturn_keeps _ s
  | .reseedMatched .. => execReseedMatched_keeps _ s
  | .shadowMatched .. => execShadowMatched_keeps s
  | .shadowMismatch .. => execShadowMismatch_keeps s
  | .portSwitch .. => execPortSwitch_keeps _ s
  | .bedDrained .. => execBedDrained_keeps s
  | .marlRewriteDone .. => execMarlRewriteDone_keeps _ s
  | .wearSample .. => execWearSample_keeps _ _ s
  | .subsoilRepairStart .. => execSubsoilRepairStart_keeps _ _ _ _ s
  | .subsoilRepairDone .. => execSubsoilRepairDone_keeps _ _ s
  | .uncorrectableError .. => execUncorrectableError_keeps _ s
  | .fuseProgGo .. => execFuseProgGo_keeps _ s
  | .fuseBlowDone .. => execFuseBlowDone_keeps _ s
  | .mapRtWrite .. => execMapRtWrite_keeps _ _ s
  | .lcRequest .. => execLcRequest_keeps _ s
  | .lcBlowDone .. => execLcBlowDone_keeps _ s
  | .keyRevoke .. => execKeyRevoke_keeps _ s
  | .dbgChalReq .. => execDbgChalReq_keeps _ _ s
  | .dbgTokenWrite .. => execDbgTokenWrite_keeps _ _ s
  | .dbgSubmit .. => execDbgSubmit_keeps _ _ s
  | .tokenCheckDone .. => execTokenCheckDone_keeps s
  | .wipeDone .. => execWipeDone_keeps s
  | .dbgClose .. => execDbgClose_keeps _ _ s
  | .sessionExpire .. => execSessionExpire_keeps _ s
  | .challengeExpire .. => execChallengeExpire_keeps _ s
  | .returnArmExpire .. => execReturnArmExpire_keeps s
  | .dpAccess .. => execDpAccess_keeps _ _ s
  | .dpMemAccess .. => execDpMemAccess_keeps _ _ _ _ s
  | .dpLineRelease .. => execDpLineRelease_keeps _ s
  | .pwrStateTrim .. => execPwrStateTrim_keeps s
  | .pwrStateRun .. => execPwrStateRun_keeps s
  | .fallowEntry .. => execFallowEntry_keeps s
  | .fallowExit .. => execFallowExit_keeps s
  | .flitDiscard .. => execFlitDiscard_keeps _ _ _ _ s
  | .nullFlitReceive .. => execNullFlitReceive_keeps _ _ s
  | .stuffError .. => execStuffError_keeps _ _ _ s
  | .mgmtDeferEnd .. => execMgmtDeferEnd_keeps s
  | .intervalEnd .. => execIntervalEnd_keeps s
  | .tornRecordRefetch .. => execTornRecordRefetch_keeps _ s
  | .keyRevokeDone .. => execKeyRevokeDone_keeps s

/-- Settles O5: a command answers, by its case, and what it answers keeps the queue, the clock, the outbox and the draws. -/
theorem everyCommandAnswers : Obligations.EveryCommandAnswers := by
  intro c s
  obtain ⟨t, ht⟩ := exec_answers c s
  obtain ⟨hpending, hnow, -, houtbox, hdraws, -, -⟩ := exec_keeps c s t ht
  exact ⟨t, ht, hpending, hnow, houtbox, hdraws⟩

/-- Settles O1. -/
theorem stepRunsTheFrontCommand : Obligations.StepRunsTheFrontCommand := fun _ _ _ h => step_cons h

/-- A step runs an operation or a tick, on a state that differs from the one before in the queue or the clock alone. -/
theorem step_keeps_rest {s t : State} (h : step s = .next t) :
    ∃ s' : State, s'.regs = s.regs ∧ s'.pwr = s.pwr ∧ Keeps s' t := by
  cases hq : s.pending with
  | nil =>
    rw [step_nil hq] at h
    cases h
    exact ⟨{ s with now := s.now + 1 }, rfl, rfl, s.idleTick_keeps⟩
  | cons c rest =>
    rw [step_cons hq] at h
    exact ⟨{ s with pending := rest }, rfl, rfl, exec_keeps c _ t h⟩

/-- Settles O4: the form is a part of what every operation and the tick keep. -/
theorem everyStepKeepsRegsWf : Obligations.EveryStepKeepsRegsWf := by
  intro s t hwf hstep
  obtain ⟨s', hregs, -, hkeeps⟩ := step_keeps_rest hstep
  exact hkeeps.regs (by rwa [State.regsWf, hregs])

/-! ## Fuses -/

theorem lifecycleOf_mono_of_and : ∀ a b : BitVec 3, a &&& b = a → lifecycleOf a ≤ lifecycleOf b := by decide

/-- The lifecycle state only rises with the fuses blown: 0 is none, 1 the first alone (R463). -/
theorem lifecycleOf_mono {a b : BitVec 3} (h : ∀ i, a.getLsbD i = true → b.getLsbD i = true) :
    lifecycleOf a ≤ lifecycleOf b := by
  refine lifecycleOf_mono_of_and a b (BitVec.eq_of_getLsbD_eq fun i _ => ?_)
  rw [BitVec.getLsbD_and]
  cases ha : a.getLsbD i with
  | false => rfl
  | true => exact h i ha

/-- A revoked key slot verifies no key (R466). -/
theorem State.keyOk_of_revoked {s : State} {set slot : Nat} (h : s.pwr.revoked.getLsbD (8 * set + slot) = true)
    (key : List Byte) : s.keyOk set slot key = false := by
  simp [State.keyOk, h]

/-- Settles O6: blown fuses are a part of what every operation and the tick keep; the lifecycle rises with them, and a revoked
slot verifies nothing. -/
theorem fusesNeverClear : Obligations.FusesNeverClear := by
  intro s t hstep
  obtain ⟨s', -, hpwr, hkeeps⟩ := step_keeps_rest hstep
  have hlife := hkeeps.life
  have hrevoked := hkeeps.revoked
  rw [hpwr] at hlife hrevoked
  exact ⟨hlife, lifecycleOf_mono hlife, fun set slot _ hrev key => State.keyOk_of_revoked (hrevoked _ hrev) key⟩

end Sys2Proof.Machine
end

section
/-! SUPPORT. Stuffing of the Sheore line code (R394): its removal gives back what was stuffed. -/

set_option Elab.async false

namespace Sys2Proof.Machine

/-- The symbol after 31 equal ones, put in by the transmitter, is not one of them. -/
theorem stuffSymbol_ne (x : Nat) : 3 - x ≠ x := by omega

/-- Where transmitter and receiver have seen the same run of fewer than 31 symbols, removal undoes stuffing. -/
theorem unstuffFrom_stuffFrom (xs : List Nat) : ∀ v n, n < 31 → unstuffFrom v n (stuffFrom v n xs) = some xs := by
  induction xs with
  | nil => intro v n _; rfl
  | cons x xs ih =>
    intro v n hn
    have hrun : (if x = v then n + 1 else 1) ≤ 31 := by split <;> omega
    rw [stuffFrom]
    by_cases hfull : (if x = v then n + 1 else 1) = 31
    · simp only [if_pos hfull]
      rw [unstuffFrom, if_neg (by omega), hfull, unstuffFrom, if_pos rfl, if_neg (stuffSymbol_ne x), ih 4 0 (by decide)]
      rfl
    · simp only [if_neg hfull]
      rw [unstuffFrom, if_neg (by omega), ih _ _ (by omega)]
      rfl

/-- Settles O9: both sides start with no run. -/
theorem unstuffUndoesStuff : Obligations.UnstuffUndoesStuff := fun xs => unstuffFrom_stuffFrom xs 4 0 (by decide)

end Sys2Proof.Machine
end

section
/-! SUPPORT. Which parts of the state an operation can change, and what no operation but a loss of power breaks: the lock-out of
debug sessions (R471) and the range of the load port's engine (R420). One relation, its rules, and one lemma per operation. -/

set_option Elab.async false

namespace Sys2Proof.Machine

theorem State.sameBut_refl (s : State) (ps : List Part) : s.sameBut s ps := fun p _ => by cases p <;> exact rfl

theorem State.sameBut.trans {s t u : State} {ps : List Part} (h : s.sameBut t ps) (g : t.sameBut u ps) : s.sameBut u ps :=
  fun p hp => by cases p <;> exact (g _ hp).trans (h _ hp)

theorem State.sameBut.mono {s t : State} {ps qs : List Part} (h : s.sameBut t ps) (hs : ps ⊆ qs) : s.sameBut t qs :=
  fun p hp => h p fun hm => hp (hs hm)

/-- A list of parts as the bits of a number. -/
def partBits (ps : List Part) : Nat := ps.foldr (fun p n => 2 ^ p.ctorIdx ||| n) 0

theorem testBit_partBits {p : Part} {ps : List Part} : (partBits ps).testBit p.ctorIdx = true ↔ p ∈ ps := by
  have inj : ∀ q : Part, q.ctorIdx = p.ctorIdx ↔ p = q := fun q => by cases p <;> cases q <;> decide
  induction ps with
  | nil => simp [partBits]
  | cons q ps ih =>
    rw [partBits, List.foldr_cons, Nat.testBit_or, Nat.testBit_two_pow, Bool.or_eq_true, decide_eq_true_iff, inj, List.mem_cons]
    exact or_congr Iff.rfl ih

/-- Parts all of which are among others, compared as numbers. -/
def partSub (ps qs : List Part) : Bool := partBits ps ||| partBits qs == partBits qs

theorem subset_of_partSub {ps qs : List Part} (h : partSub ps qs = true) : ps ⊆ qs := fun p hp => by
  rw [← testBit_partBits, ← beq_iff_eq.1 h, Nat.testBit_or, testBit_partBits.2 hp, Bool.true_or]

/-- Every part. -/
def allParts : List Part := [.draws, .outbox, .timers, .evWait, .pmuNext, .pwr, .lanes, .ports, .macs, .mgmt, .shadow, .frames, .copies, .nextId, .mesh,
  .adm, .sched, .gates, .time, .tel, .fabric, .assay, .rings, .aug, .augTurn, .silt, .tilth, .harm, .sec, .fates]

/-- Two states with their lock-out registers in one step: FAILS within 8 and LOCKED with it stay so, and LOCKED stays (R471). -/
structure Sec.LockStep (x y : Sec) : Prop where
  bound : x.fails ≤ 8 ∧ (x.fails = 8 → x.locked = true) → y.fails ≤ 8 ∧ (y.fails = 8 → y.locked = true)
  locked : x.locked = true → y.locked = true

theorem Sec.LockStep.refl (x : Sec) : Sec.LockStep x x := ⟨id, id⟩

theorem Sec.LockStep.same {x y : Sec} (hf : y.fails = x.fails) (hl : y.locked = x.locked) : Sec.LockStep x y := by
  constructor <;> rw [hl]
  · rw [hf]
    exact id
  · exact id

theorem Sec.LockStep.trans {x y z : Sec} (h : Sec.LockStep x y) (g : Sec.LockStep y z) : Sec.LockStep x z :=
  ⟨fun w => g.bound (h.bound w), fun w => g.locked (h.locked w)⟩

/-- The engine that the load port loads is one of the 26 (R420, R423). -/
def Tilth.loadOk (x : Tilth) : Prop := ∀ e bs, x.load = some (e, bs) → e < 26

/-- State t follows from s by operations that change no part of the state but some, and of which none loses power: the lock-out
goes on as R471 says, and the load port's engine stays in range. -/
structure Within (ps : List Part) (s t : State) : Prop where
  same : s.sameBut t ps
  lock : Sec.LockStep s.sec t.sec
  load : s.tilth.loadOk → t.tilth.loadOk

theorem Within.refl {ps : List Part} (s : State) : Within ps s s := ⟨s.sameBut_refl ps, .refl _, id⟩

theorem Within.trans {ps : List Part} {s t u : State} (h : Within ps s t) (g : Within ps t u) : Within ps s u :=
  ⟨h.same.trans g.same, h.lock.trans g.lock, fun w => g.load (h.load w)⟩

/-- The same, with the later part first: what it works on is read from it. -/
theorem Within.after {ps : List Part} {s t u : State} (g : Within ps t u) (h : Within ps s t) : Within ps s u := h.trans g

theorem Within.mono {ps qs : List Part} {s t : State} (h : Within ps s t) (hs : partSub ps qs = true := by rfl) : Within qs s t :=
  ⟨h.same.mono (subset_of_partSub hs), h.lock, h.load⟩

/-- The same in two steps, for an operation that runs another one given to it. -/
theorem Within.monoOf {ps own qs : List Part} {s t : State} (h : Within ps s t) (hq : partSub own qs = true)
    (hs : partSub ps own = true := by rfl) : Within qs s t := (h.mono hs).mono hq

/-- What an earlier part of an operation can change, used for the rest of it. -/
theorem Within.cut {ps : List Part} {s t v : State} (g : Within ps s v → Within ps s t) (h : Within ps s v) : Within ps s t := g h

theorem Within.ite {ps : List Part} {s t u : State} {c : Prop} [Decidable c] (h : Within ps s t) (g : Within ps s u) :
    Within ps s (if c then t else u) := by
  split
  · exact h
  · exact g

theorem Within.matchP {ps : List Part} {α : Type} {s : State} {v : α × State} {b : α → State → State} (h : Within ps s v.2)
    (g : ∀ a t, Within ps s t → Within ps s (b a t)) : Within ps s (match v with | (a, t) => b a t) := g v.1 v.2 h

theorem Within.foldl {ps : List Part} {α : Type} {s t : State} {f : State → α → State} {l : List α} (h : Within ps s t)
    (g : ∀ u a, Within ps u (f u a)) : Within ps s (l.foldl f t) := by
  induction l generalizing t with
  | nil => exact h
  | cons a l ih => exact ih (h.trans (g t a))

theorem Within.foldlP {ps : List Part} {α β : Type} {s : State} {t : β × State} {f : β × State → α → β × State} {l : List α}
    (h : Within ps s t.2) (g : ∀ u a, Within ps u.2 (f u a).2) : Within ps s (l.foldl f t).2 := by
  induction l generalizing t with
  | nil => exact h
  | cons a l ih => exact ih (h.trans (g t a))

theorem Within.iteP {ps : List Part} {α : Type} {s : State} {t u : α × State} {c : Prop} [Decidable c] (h : Within ps s t.2)
    (g : Within ps s u.2) : Within ps s (if c then t else u).2 := by
  split
  · exact h
  · exact g

theorem Within.matchPP {ps : List Part} {α β : Type} {s : State} {v : β × State} {b : β → State → α × State}
    (h : Within ps s v.2) (g : ∀ a t, Within ps s t → Within ps s (b a t).2) :
    Within ps s (match v with | (a, t) => b a t).2 := g v.1 v.2 h

/-! ## One part is set -/

/-- An operation that changes neither the security state nor the engines. -/
theorem Within.of_same {ps : List Part} {s t : State} (h : s.sameBut t ps) (hs : t.sec = s.sec) (ht : t.tilth = s.tilth) :
    Within ps s t :=
  ⟨h, hs ▸ .refl _, ht ▸ id⟩

theorem Within.regs (s : State) (x : List (Nat × Word)) : Within [] s { s with regs := x } :=
  .of_same (fun p _ => by cases p <;> rfl) rfl rfl

theorem Within.draws (s : State) (x : Nat) : Within [.draws] s { s with draws := x } :=
  .of_same (fun p hp => by cases p <;> simp_all [State.samePart]) rfl rfl

theorem Within.outbox (s : State) (x : List Output) : Within [.outbox] s { s with outbox := x } :=
  .of_same (fun p hp => by cases p <;> simp_all [State.samePart]) rfl rfl

theorem Within.timers (s : State) (x : List (Timer × Nat)) : Within [.timers] s { s with timers := x } :=
  .of_same (fun p hp => by cases p <;> simp_all [State.samePart]) rfl rfl

theorem Within.evWait (s : State) (x : List (Nat × Word)) : Within [.evWait] s { s with evWait := x } :=
  .of_same (fun p hp => by cases p <;> simp_all [State.samePart]) rfl rfl

theorem Within.pmuNext (s : State) (x : List (Nat × Nat)) : Within [.pmuNext] s { s with pmuNext := x } :=
  .of_same (fun p hp => by cases p <;> simp_all [State.samePart]) rfl rfl

theorem Within.pwr (s : State) (x : Pwr) : Within [.pwr] s { s with pwr := x } :=
  .of_same (fun p hp => by cases p <;> simp_all [State.samePart]) rfl rfl

theorem Within.lanes (s : State) (x : List (Nat × LaneSt)) : Within [.lanes] s { s with lanes := x } :=
  .of_same (fun p hp => by cases p <;> simp_all [State.samePart]) rfl rfl

theorem Within.ports (s : State) (x : List (Nat × PortSt)) : Within [.ports] s { s with ports := x } :=
  .of_same (fun p hp => by cases p <;> simp_all [State.samePart]) rfl rfl

theorem Within.macs (s : State) (x : List (Nat × MacSt)) : Within [.macs] s { s with macs := x } :=
  .of_same (fun p hp => by cases p <;> simp_all [State.samePart]) rfl rfl

theorem Within.mgmt (s : State) (x : MgmtSt) : Within [.mgmt] s { s with mgmt := x } :=
  .of_same (fun p hp => by cases p <;> simp_all [State.samePart]) rfl rfl

theorem Within.shadow (s : State) (x : List (Nat × Option Word)) : Within [.shadow] s { s with shadow := x } :=
  .of_same (fun p hp => by cases p <;> simp_all [State.samePart]) rfl rfl

theorem Within.frames (s : State) (x : List (Nat × Option Frame)) : Within [.frames] s { s with frames := x } :=
  .of_same (fun p hp => by cases p <;> simp_all [State.samePart]) rfl rfl

theorem Within.copies (s : State) (x : List (Nat × Option Copy)) : Within [.copies] s { s with copies := x } :=
  .of_same (fun p hp => by cases p <;> simp_all [State.samePart]) rfl rfl

theorem Within.nextId (s : State) (x : Nat) : Within [.nextId] s { s with nextId := x } :=
  .of_same (fun p hp => by cases p <;> simp_all [State.samePart]) rfl rfl

theorem Within.mesh (s : State) (x : Mesh) : Within [.mesh] s { s with mesh := x } :=
  .of_same (fun p hp => by cases p <;> simp_all [State.samePart]) rfl rfl

theorem Within.adm (s : State) (x : Adm) : Within [.adm] s { s with adm := x } :=
  .of_same (fun p hp => by cases p <;> simp_all [State.samePart]) rfl rfl

theorem Within.sched (s : State) (x : Sched) : Within [.sched] s { s with sched := x } :=
  .of_same (fun p hp => by cases p <;> simp_all [State.samePart]) rfl rfl

theorem Within.gates (s : State) (x : Gates) : Within [.gates] s { s with gates := x } :=
  .of_same (fun p hp => by cases p <;> simp_all [State.samePart]) rfl rfl

theorem Within.time (s : State) (x : TimeSt) : Within [.time] s { s with time := x } :=
  .of_same (fun p hp => by cases p <;> simp_all [State.samePart]) rfl rfl

theorem Within.tel (s : State) (x : Tel) : Within [.tel] s { s with tel := x } :=
  .of_same (fun p hp => by cases p <;> simp_all [State.samePart]) rfl rfl

theorem Within.fabric (s : State) (x : List (Nat × Nat)) : Within [.fabric] s { s with fabric := x } :=
  .of_same (fun p hp => by cases p <;> simp_all [State.samePart]) rfl rfl

theorem Within.assay (s : State) (x : Assay) : Within [.assay] s { s with assay := x } :=
  .of_same (fun p hp => by cases p <;> simp_all [State.samePart]) rfl rfl

theorem Within.rings (s : State) (x : Rings) : Within [.rings] s { s with rings := x } :=
  .of_same (fun p hp => by cases p <;> simp_all [State.samePart]) rfl rfl

theorem Within.aug (s : State) (x : List (Nat × AugCh)) : Within [.aug] s { s with aug := x } :=
  .of_same (fun p hp => by cases p <;> simp_all [State.samePart]) rfl rfl

theorem Within.augTurn (s : State) (x : Nat) : Within [.augTurn] s { s with augTurn := x } :=
  .of_same (fun p hp => by cases p <;> simp_all [State.samePart]) rfl rfl

theorem Within.silt (s : State) (x : List (Nat × SiltSt)) : Within [.silt] s { s with silt := x } :=
  .of_same (fun p hp => by cases p <;> simp_all [State.samePart]) rfl rfl

theorem Within.harm (s : State) (x : Harm) : Within [.harm] s { s with harm := x } :=
  .of_same (fun p hp => by cases p <;> simp_all [State.samePart]) rfl rfl

theorem Within.fates (s : State) (x : List (Nat × Nat)) : Within [.fates] s { s with fates := x } :=
  .of_same (fun p hp => by cases p <;> simp_all [State.samePart]) rfl rfl

theorem Within.sec (s : State) (x : Sec) (h : Sec.LockStep s.sec x) : Within [.sec] s { s with sec := x } :=
  ⟨fun p hp => by cases p <;> simp_all [State.samePart], h, id⟩

theorem Within.tilth (s : State) (x : Tilth) (h : s.tilth.loadOk → x.loadOk) : Within [.tilth] s { s with tilth := x } :=
  ⟨fun p hp => by cases p <;> simp_all [State.samePart], .refl _, h⟩

/-! ## For a command's answer -/

/-- If the answer is a next state, it is as `Within` says. -/
def WithinO (ps : List Part) (s : State) (o : Host.Outcome State Fault Refusal) : Prop := ∀ t, o = .next t → Within ps s t

theorem WithinO.next {ps : List Part} {s t : State} (h : Within ps s t) : WithinO ps s (.next t) := fun _ e => by cases e; exact h

theorem WithinO.cut {ps : List Part} {s v : State} {o : Host.Outcome State Fault Refusal} (g : Within ps s v → WithinO ps s o)
    (h : Within ps s v) : WithinO ps s o := g h

theorem WithinO.mono {ps qs : List Part} {s : State} {o : Host.Outcome State Fault Refusal} (h : WithinO ps s o)
    (hs : partSub ps qs = true := by rfl) : WithinO qs s o := fun t e => (h t e).mono hs

theorem WithinO.ite {ps : List Part} {s : State} {o p : Host.Outcome State Fault Refusal} {c : Prop} [Decidable c]
    (h : WithinO ps s o) (g : WithinO ps s p) : WithinO ps s (if c then o else p) := by
  split
  · exact h
  · exact g

theorem WithinO.trans {ps : List Part} {s t : State} {o : Host.Outcome State Fault Refusal} (h : Within ps s t)
    (g : WithinO ps t o) : WithinO ps s o := fun u e => h.trans (g u e)

theorem WithinO.matchP {ps : List Part} {α : Type} {s : State} {v : α × State}
    {b : α → State → Host.Outcome State Fault Refusal} (h : Within ps s v.2)
    (g : ∀ a t, Within ps s t → WithinO ps s (b a t)) : WithinO ps s (match v with | (a, t) => b a t) := g v.1 v.2 h

end Sys2Proof.Machine
end

section
/-! SUPPORT. The part of the state that each operation can change, one lemma per operation, in the order of the definitions. The
lemmas are checked one after the other: side by side they start more threads than the check has memory for. -/

set_option Elab.async false

namespace Sys2Proof.Machine

theorem State.wr_within (s : State) (off) (w) : Within [] s (State.wr s off w) := by
  exact Within.regs _ _

theorem State.wrf_within (s : State) (off) (hi) (lo) (n) : Within [] s (State.wrf s off hi lo n) := by
  unfold State.wrf
  exact (State.wr_within _ _ _).mono

theorem State.wrb_within (s : State) (off) (i) (v) : Within [] s (State.wrb s off i v) := by
  unfold State.wrb
  exact (State.wr_within _ _ _).mono

theorem State.wr2_within (s : State) (off) (n) : Within [] s (State.wr2 s off n) := by
  unfold State.wr2
  exact ((State.wr_within _ _ _).mono).trans ((State.wr_within _ _ _).mono)

theorem State.wrs_within (s : State) (off) (u2) : Within [] s (State.wrs s off u2) := by
  induction u2 generalizing s off with
  | nil => exact Within.refl _
  | cons w ws ih => exact ((State.wr_within _ _ _).mono).trans (ih _ _)

theorem State.emit_within (s : State) (o) : Within [.outbox] s (State.emit s o) := Within.outbox _ _

theorem State.draw_within (s : State) : Within [.draws] s (State.draw s).2 := Within.draws _ _

theorem State.stopTimer_within (s : State) (t) : Within [.timers] s (State.stopTimer s t) := by
  unfold State.stopTimer
  exact (Within.timers _ _).mono

theorem State.startTimer_within (s : State) (t) (ns) : Within [.timers] s (State.startTimer s t ns) := by
  unfold State.startTimer
  exact (Within.timers _ _).mono

theorem State.raiseEvt_within (s : State) (evt) (i) : Within [.evWait] s (State.raiseEvt s evt i) := by
  unfold State.raiseEvt
  exact Within.ite (Within.refl _) (Within.cut (fun h1 => Within.ite (h1) ((h1).trans (Within.evWait _ _).mono))
    ((State.wrb_within _ _ _ _).mono))

theorem State.shAck_within (s : State) (b) (p) (gen) : Within [] s (State.shAck s b p gen) := by
  unfold State.shAck
  exact (State.wr_within _ _ _).mono

theorem State.setCnt_within (s : State) (off) (n) : Within [] s (State.setCnt s off n) := by
  unfold State.setCnt
  exact ((State.wr_within _ _ _).mono).trans ((State.wr_within _ _ _).mono)

theorem State.addCnt_within (s : State) (off) (n) (evt) (wrapBit) : Within [.evWait] s (State.addCnt s off n evt wrapBit)
    := by
  unfold State.addCnt
  exact Within.cut (fun h1 => Within.ite ((h1).trans ((State.raiseEvt_within _ _ _).mono)) (h1)) ((State.setCnt_within _
    _ _).mono)

theorem State.inc_within (s : State) (off) (evt) (wrapBit) : Within [.evWait] s (State.inc s off evt wrapBit) := by
  unfold State.inc
  exact (State.addCnt_within _ _ _ _ _).mono

theorem State.dropTel_within (s : State) (n) (cause) : Within [.evWait] s (State.dropTel s n cause) := by
  unfold State.dropTel
  exact (State.inc_within _ _ _ _).mono

theorem State.statAt_within (s : State) (cnt) (half) (wrap) (evt) (i) (n) : Within [.evWait] s (State.statAt s cnt half
    wrap evt i
  n) := by
  unfold State.statAt
  exact Within.cut (fun h1 => Within.cut (fun h2 => Within.ite (((h2).trans ((State.wrb_within _ _ _ _).mono)).trans
    ((State.raiseEvt_within _ _ _).mono)) (h2)) (Within.ite (((h1).trans ((State.wrb_within _ _ _ _).mono)).trans
    ((State.raiseEvt_within _ _ _).mono)) (h1))) ((State.setCnt_within _ _ _).mono)

theorem State.stat_within (s : State) (b) (p) (i) (n) : Within [.evWait] s (State.stat s b p i n) := by
  unfold State.stat
  exact (State.statAt_within _ _ _ _ _ _ _).mono

theorem State.mgmtStat_within (s : State) (i) (n) : Within [.evWait] s (State.mgmtStat s i n) := by
  unfold State.mgmtStat
  exact (State.statAt_within _ _ _ _ _ _ _).mono

theorem State.shadowSet_within (s : State) (off) (v) : Within [.shadow] s (State.shadowSet s off v) := by
  unfold State.shadowSet
  exact (Within.shadow _ _).mono

theorem State.sendFate_within (s : State) (send) (fate) : Within [.fates] s (State.sendFate s send fate) := by
  unfold State.sendFate
  exact (Within.fates _ _).mono

theorem State.pmuLine_within (s : State) (i) : Within [.outbox, .pmuNext] s (State.pmuLine s i) := by
  unfold State.pmuLine
  exact Within.ite ((State.wrb_within _ _ _ _).mono) (Within.cut (fun h1 => (h1).trans (Within.pmuNext _ _).mono)
    ((State.emit_within _ _).mono))

theorem State.pmuOcc_within (s : State) (src) (pos) : Within [.outbox, .pmuNext] s (State.pmuOcc s src pos) := by
  unfold State.pmuOcc
  exact Within.foldl (Within.refl _) (fun _ _ => Within.ite ((State.pmuLine_within _ _).mono) (Within.refl _))

theorem State.monSee_within (s : State) : Within [.pwr] s (State.monSee s) := by
  unfold State.monSee
  exact (Within.pwr _ _).mono

theorem State.setIslAt_within (s : State) (i) (v) : Within [.pwr] s (State.setIslAt s i v) := by
  unfold State.setIslAt
  have h : Within [.pwr] s { s with pwr := { s.pwr with isl := sset (fun _ => .off) s.pwr.isl i v } } :=
    (Within.pwr _ _).mono
  exact h.trans ((State.monSee_within _).mono)

theorem State.safeEvt_within (s : State) (i) : Within [.evWait] s (State.safeEvt s i) := by
  unfold State.safeEvt
  exact Within.ite ((State.raiseEvt_within _ _ _).mono) (Within.refl _)

theorem State.safeInc_within (s : State) (i) (n) : Within [.evWait] s (State.safeInc s i n) := by
  unfold State.safeInc
  exact Within.ite ((State.addCnt_within _ _ _ _ _).mono) (Within.refl _)

theorem State.loadImage_within (s : State) (b) (img) : Within [.mesh, .gates] s (State.loadImage s b img) :=
  .of_same (fun p hp => by cases p <;> simp_all [State.samePart, State.loadImage]) rfl rfl

theorem State.harmMod_within (s : State) (f) : Within [.harm] s (State.harmMod s f) := by
  unfold State.harmMod
  exact (Within.harm _ _).mono

theorem State.keepRegion_within (s : State) (p) (img) : Within [.harm] s (State.keepRegion s p img) := by
  unfold State.keepRegion
  exact (State.harmMod_within _ _).mono

theorem State.marlBump_within (s : State) (r) : Within [] s (State.marlBump s r) := by
  unfold State.marlBump
  exact (State.wr_within _ _ _).mono

theorem State.writeThrough_within (s : State) (t : State) (off) : Within [.mesh, .gates] t (State.writeThrough s t off) := by
  unfold State.writeThrough
  split
  · exact Within.refl _
  · exact Within.ite (Within.refl _) (Within.cut (fun h1 => Within.ite (h1) ((by split; exact (h1).trans ((State.loadImage_within _ _ _).mono); exact h1))) ((State.marlBump_within _ _).mono))

theorem State.ownChange_within (s : State) (b) : Within [.mesh, .gates] s (State.ownChange s b) := by
  unfold State.ownChange
  split
  · exact Within.cut (fun h1 => (by (try extract_lets); split; exact (h1).trans ((State.loadImage_within _ _ _).mono); exact h1)) ((State.marlBump_within _ _).mono)
  · exact Within.refl _

theorem State.copyPortRegs_within (s : State) (a) (b) (p) (stats) : Within [] s (State.copyPortRegs s a b p stats) := by
  unfold State.copyPortRegs
  exact Within.regs _ _

theorem State.carryPort_within (s : State) (a) (b) (p) (stats) :
    Within [.timers, .ports, .macs, .shadow, .gates, .time] s (State.carryPort s a b p stats) :=
  (State.copyPortRegs_within s a b p stats).mono.trans
    (.of_same (fun p hp => by cases p <;> simp_all [State.samePart, State.carryPort]) rfl rfl)

theorem State.setSwap_within (s : State) (st) : Within [] s (State.setSwap s st) := by
  unfold State.setSwap
  exact (State.wrf_within _ _ _ _ _).mono

theorem State.swapDone_within (s : State) : Within [.evWait, .harm] s (State.swapDone s) := by
  unfold State.swapDone
  exact Within.ite ((((State.setSwap_within _ _).mono).trans ((State.harmMod_within _ _).mono)).trans
    ((State.safeEvt_within _ _).mono)) (Within.cut (fun h1 => ((h1).trans ((State.safeInc_within _ _ _).mono)).trans
    ((State.safeEvt_within _ _).mono)) (((State.setSwap_within _ _).mono).trans ((State.harmMod_within _ _).mono)))

theorem State.swapAbort_within (s : State) (cause) : Within [.evWait, .harm] s (State.swapAbort s cause) := by
  unfold State.swapAbort
  exact Within.cut (fun h1 => ((h1).trans ((State.wrf_within _ _ _ _ _).mono)).trans ((State.safeEvt_within _ _).mono))
    (((State.setSwap_within _ _).mono).trans ((State.harmMod_within _ _).mono))

theorem State.shadowMiss_within (s : State) : Within [.evWait, .harm] s (State.shadowMiss s) := by
  unfold State.shadowMiss
  exact Within.ite (Within.refl _) (Within.ite ((State.swapAbort_within _ _).mono) ((((State.setSwap_within _
    _).mono).trans ((State.wrf_within _ _ _ _ _).mono)).trans ((State.harmMod_within _ _).mono)))

theorem State.swapBegin_within (s : State) (p) (st) : Within [.evWait, .harm] s (State.swapBegin s p st) := by
  unfold State.swapBegin
  exact Within.cut (fun h1 => Within.cut (fun h2 => Within.ite ((h2).trans ((State.safeEvt_within _ _).mono)) (h2))
    ((h1).trans ((State.harmMod_within _ _).mono))) ((State.wr_within _ _ _).mono)

theorem State.answer_within (s : State) (error) (data) : Within [.outbox] s (State.answer s error data) := by
  unfold State.answer
  exact (State.emit_within _ _).mono

theorem State.cfg_within {ps : List Part} (s : State) (off) (f) (hf : ∀ x, Within ps x (f x)) (h : partSub [.outbox,
    .mesh, .gates] ps = true := by rfl) : Within ps s (State.cfg s off f) := by
  unfold State.cfg
  split
  · exact Within.refl _
  · exact (State.answer_within _ _ _).monoOf h
  · exact (State.answer_within _ _ _).monoOf h
  · exact ((hf _).trans ((State.writeThrough_within _ _ _).monoOf h)).trans ((State.answer_within _ _ _).monoOf h)

theorem State.wmapRefuse_within (s : State) (port) (off) : Within [.evWait] s (State.wmapRefuse s port off) := by
  unfold State.wmapRefuse
  exact (((State.inc_within _ _ _ _).mono).trans ((State.wr_within _ _ _).mono)).trans ((State.raiseEvt_within _ _ _).mono)

theorem State.lk_within {ps : List Part} (s : State) (port) (off) (g) (f) (hf : ∀ x, Within ps x (f x)) (h : partSub
    [.evWait] ps = true := by rfl) : Within ps s (State.lk s port off g f)
  := by
  unfold State.lk
  exact Within.ite (hf _) ((State.wmapRefuse_within _ _ _).monoOf h)

theorem State.pStat_within (s : State) (b) (p) (hi) (lo) (n) : Within [] s (State.pStat s b p hi lo n) := by
  unfold State.pStat
  exact (State.wrf_within _ _ _ _ _).mono

theorem State.macMod_within (s : State) (m) (f) : Within [.macs] s (State.macMod s m f) := by
  unfold State.macMod
  exact (Within.macs _ _).mono

theorem State.mmDisable_within (s : State) (b) (p) : Within [.timers, .macs] s (State.mmDisable s b p) := by
  unfold State.mmDisable
  exact Within.cut (fun h1 => Within.ite ((h1).trans ((State.macMod_within _ _ _).mono)) ((h1).trans ((State.wrb_within _
    _ _ _).mono))) ((((State.wrf_within _ _ _ _ _).mono).trans ((State.wrf_within _ _ _ _ _).mono)).trans
    ((State.stopTimer_within _ _).mono))

theorem State.openEnd_within (s : State) (b) (p) : Within [.macs] s (State.openEnd s b p) := by
  unfold State.openEnd
  exact Within.cut (fun h1 => (h1).trans ((State.macMod_within _ _ _).mono)) (Within.ite ((State.wrb_within _ _ _
    _).mono) (Within.refl _))

theorem State.cutCount_within (s : State) (b) (p) (sent) : Within [.evWait] s (State.cutCount s b p sent) := by
  unfold State.cutCount
  exact (((State.stat_within _ _ _ _ _).mono).trans ((State.stat_within _ _ _ _ _).mono)).trans ((State.stat_within _ _ _
    _ _).mono)

theorem State.unsignal_within (s : State) (b) (p) : Within [.timers, .macs] s (State.unsignal s b p) := by
  unfold State.unsignal
  exact Within.foldl ((State.macMod_within _ _ _).mono) (fun _ _ => (State.stopTimer_within _ _).mono)

theorem State.pGo_within (s : State) (b) (p) (st) : Within [.timers, .macs] s (State.pGo s b p st) := by
  unfold State.pGo
  exact Within.cut (fun h1 => ((h1).trans ((State.pStat_within _ _ _ _ _ _).mono)).trans ((State.pStat_within _ _ _ _ _
    _).mono)) (Within.ite ((State.mmDisable_within _ _ _).mono) (Within.refl _))

theorem State.portMod_within (s : State) (b) (p) (f) : Within [.ports] s (State.portMod s b p f) := by
  unfold State.portMod
  exact (Within.ports _ _).mono

theorem State.laneMod_within (s : State) (base) (f) : Within [.lanes] s (State.laneMod s base f) := by
  unfold State.laneMod
  exact (Within.lanes _ _).mono

theorem State.laneUnlock_within (s : State) (base) : Within [] s (State.laneUnlock s base) := by
  unfold State.laneUnlock
  exact (State.wrf_within _ _ _ _ _).mono

theorem State.laneLockAll_within (s : State) (base) : Within [] s (State.laneLockAll s base) := by
  unfold State.laneLockAll
  exact (State.wrf_within _ _ _ _ _).mono

theorem State.laneUntrain_within (s : State) (base) : Within [.lanes] s (State.laneUntrain s base) := by
  unfold State.laneUntrain
  exact (State.laneMod_within _ _ _).mono

theorem State.lanePower_within (s : State) (base) (on) : Within [.lanes] s (State.lanePower s base on) := by
  unfold State.lanePower
  exact Within.ite (((State.wrb_within _ _ _ _).mono).trans ((State.wrb_within _ _ _ _).mono)) (((((State.wrb_within _ _
    _ _).mono).trans ((State.wrb_within _ _ _ _).mono)).trans ((State.laneUnlock_within _ _).mono)).trans
    ((State.laneUntrain_within _ _).mono))

theorem State.laneDormant_within (s : State) (base) : Within [.lanes] s (State.laneDormant s base) := by
  unfold State.laneDormant
  exact Within.ite ((((State.wrb_within _ _ _ _).mono).trans ((State.laneUnlock_within _ _).mono)).trans
    ((State.laneUntrain_within _ _).mono)) (Within.refl _)

theorem State.laneForget_within (s : State) (base) : Within [.lanes] s (State.laneForget s base) := by
  unfold State.laneForget
  exact ((State.wrb_within _ _ _ _).mono).trans ((State.laneMod_within _ _ _).mono)

theorem State.laneStore_within (s : State) (base) : Within [.lanes] s (State.laneStore s base) := by
  unfold State.laneStore
  exact ((State.wrb_within _ _ _ _).mono).trans ((State.laneMod_within _ _ _).mono)

theorem State.onLanes_within {ps : List Part} (s : State) (b) (ls) (f) (hf : ∀ x y, Within ps x (f x y)) (h : partSub []
    ps = true := by rfl) : Within ps s (State.onLanes s b ls f)
  := by
  unfold State.onLanes
  exact Within.foldl (Within.refl _) (fun _ _ => (by split; exact hf _ _; exact Within.refl _))

theorem State.laneTrain_within (s : State) (base) (a) : Within [.outbox, .evWait, .lanes] s (State.laneTrain s base a) := by
  unfold State.laneTrain
  exact Within.cut (fun h1 => Within.cut (fun h2 => Within.cut (fun h3 => Within.ite ((h3).trans ((State.raiseEvt_within
    _ _ _).mono)) (h3)) ((h2).trans ((State.emit_within _ _).mono))) (((h1).trans ((State.wr_within _ _ _).mono)).trans
    ((State.laneMod_within _ _ _).mono))) (((State.wr_within _ _ _).mono).trans ((State.wr_within _ _ _).mono))

theorem State.laneLoad_within (s : State) (base) (ctle) (dfe) (f0) (f1) : Within [.lanes] s (State.laneLoad s base ctle
    dfe f0
  f1) := by
  unfold State.laneLoad
  exact Within.cut (fun h1 => (((h1).trans ((State.wr_within _ _ _).mono)).trans ((State.wr_within _ _ _).mono)).trans
    ((State.laneMod_within _ _ _).mono)) ((State.wr_within _ _ _).mono)

theorem State.laneUseBoard_within (s : State) (base) : Within [.lanes] s (State.laneUseBoard s base) := by
  unfold State.laneUseBoard
  exact (State.laneLoad_within _ _ _ _ _ _).mono

theorem State.laneUseStored_within (s : State) (base) : Within [.lanes] s (State.laneUseStored s base) := by
  unfold State.laneUseStored
  split
  · exact (State.laneLoad_within _ _ _ _ _ _).mono
  · exact (State.laneUseBoard_within _ _).mono

theorem State.laneFec_within (s : State) (b) (p) (corr) (uncorr) (sym) : Within [.evWait] s (State.laneFec s b p corr
    uncorr sym)
  := by
  unfold State.laneFec
  exact Within.cut (fun h2 => Within.foldl (h2) (fun _ _ => (State.onLanes_within _ _ _ _ (fun _ _ =>
    (State.addCnt_within _ _ _ _ _).mono)))) ((State.onLanes_within _ _ _ _ (fun _ _ => Within.cut (fun h1 => Within.ite
    (h1) ((h1).trans ((State.raiseEvt_within _ _ _).mono))) (((State.addCnt_within _ _ _ _ _).mono).trans
    ((State.addCnt_within _ _ _ _ _).mono)))))

theorem State.mst_within (s : State) (m) (i) (n) : Within [.evWait] s (State.mst s m i n) := by
  unfold State.mst
  exact Within.ite ((State.mgmtStat_within _ _ _).mono) ((State.stat_within _ _ _ _ _).mono)

theorem State.gatesMod_within (s : State) (f) : Within [.gates] s (State.gatesMod s f) := by
  unfold State.gatesMod
  exact (Within.gates _ _).mono

theorem State.gateMod_within (s : State) (b) (p) (f) : Within [.gates] s (State.gateMod s b p f) := by
  unfold State.gateMod
  exact (State.gatesMod_within _ _).mono

theorem State.wireTake_within (s : State) (b) (p) (start) (bytes) : Within [.gates] s (State.wireTake s b p start bytes)
    := by
  unfold State.wireTake
  exact (State.gateMod_within _ _ _ _).mono

theorem State.wireControl_within (s : State) (b) (p) : Within [.gates] s (State.wireControl s b p) := by
  unfold State.wireControl
  exact (State.wireTake_within _ _ _ _ _).mono

theorem State.pauseBit_within (s : State) (m) (i) (v) : Within [] s (State.pauseBit s m i v) := by
  unfold State.pauseBit
  exact Within.ite (Within.refl _) ((State.wrb_within _ _ _ _).mono)

theorem State.pauseEnd_within (s : State) (m) (i) : Within [.timers] s (State.pauseEnd s m i) := by
  unfold State.pauseEnd
  exact (((State.pauseBit_within _ _ _ _).mono).trans ((State.stopTimer_within _ _).mono)).trans ((State.stopTimer_within
    _ _).mono)

theorem State.pauseChange_within {ps : List Part} (s : State) (m) (f) (hf : ∀ x, Within ps x (f x)) (h : partSub
    [.evWait, .macs] ps = true := by rfl) : Within ps s (State.pauseChange s m f) := by
  unfold State.pauseChange
  exact Within.cut (fun h1 => (by (try extract_lets); split; exact (h1).trans ((State.macMod_within _ _ _).monoOf h); exact ((h1).trans ((State.mst_within _ _ _ _).monoOf h)).trans ((State.macMod_within _ _ _).monoOf h); exact h1)) (hf _)

theorem State.pauseLoad_within (s : State) (m) (i) (quanta) : Within [.timers] s (State.pauseLoad s m i quanta) := by
  unfold State.pauseLoad
  exact Within.ite ((State.pauseEnd_within _ _ _).mono) (Within.cut (fun h1 => Within.ite (h1) ((h1).trans
    ((State.startTimer_within _ _ _).mono))) (((State.pauseBit_within _ _ _ _).mono).trans ((State.startTimer_within _ _
    _).mono)))

theorem State.pauseApply_within (s : State) (m) (prios) (quanta) : Within [.timers, .evWait, .macs] s (State.pauseApply s
    m prios quanta) := by
  unfold State.pauseApply
  exact Within.cut (fun h1 => Within.ite ((h1).trans ((State.mst_within _ _ _ _).mono)) (h1)) ((State.pauseChange_within
    _ _ _ (fun _ => Within.foldl (Within.refl _) (fun _ _ => Within.ite (Within.refl _) ((State.pauseLoad_within _ _ _
    _).mono)))))

theorem State.ctlCount_within (s : State) (m) (octets) (pfc) : Within [.evWait] s (State.ctlCount s m octets pfc) := by
  unfold State.ctlCount
  exact (((State.mst_within _ _ _ _).mono).trans ((State.mst_within _ _ _ _).mono)).trans ((State.mst_within _ _ _ _).mono)

theorem State.rxDiscard_within (s : State) (m) (cause) : Within [.evWait] s (State.rxDiscard s m cause) := by
  unfold State.rxDiscard
  exact ((State.dropTel_within _ _ _).mono).trans ((State.mst_within _ _ _ _).mono)

theorem State.ctlFrame_within (s : State) (b) (p) (octets) (pfc) (prios) (quanta) : Within [.timers, .evWait, .macs] s
    (State.ctlFrame s b p
  octets pfc prios quanta) := by
  unfold State.ctlFrame
  exact Within.ite (Within.refl _) (Within.cut (fun h1 => Within.ite ((h1).trans ((State.rxDiscard_within _ _ _).mono))
    (Within.ite ((h1).trans ((State.pauseApply_within _ _ _ _).mono)) ((h1).trans ((State.rxDiscard_within _ _
    _).mono)))) ((State.ctlCount_within _ _ _ _).mono))

theorem execPfcFrameReceive_within (b) (p) (enable) (quanta) (s : State) : WithinO [.timers, .evWait, .macs] s
    (execPfcFrameReceive b p enable
  quanta s) := by
  unfold execPfcFrameReceive
  exact WithinO.next ((State.ctlFrame_within _ _ _ _ _ _ _).mono)

theorem execPauseTimerExpire_within (m) (i) (s : State) : WithinO [.timers, .evWait, .macs] s (execPauseTimerExpire m i
    s) := by
  unfold execPauseTimerExpire
  exact WithinO.ite (WithinO.next ((State.pauseChange_within _ _ _ (fun _ => Within.foldl (Within.refl _) (fun _ _ =>
    (State.pauseEnd_within _ _ _).mono))))) (WithinO.next (Within.refl _))

theorem execPauseWatchdogTrip_within (b) (p) (i) (s : State) : WithinO [.timers, .evWait, .macs] s (execPauseWatchdogTrip
    b p i s) := by
  unfold execPauseWatchdogTrip
  exact WithinO.ite (WithinO.cut (fun h1 => WithinO.next (((h1).trans ((State.stat_within _ _ _ _ _).mono)).trans
    ((State.raiseEvt_within _ _ _).mono))) ((State.pauseChange_within _ _ _ (fun _ => Within.foldl (Within.refl _) (fun _
    _ => (((State.pauseEnd_within _ _ _).mono).trans ((State.wrb_within _ _ _ _).mono)).trans ((State.startTimer_within _
    _ _).mono)))))) (WithinO.next (Within.refl _))

theorem execWatchdogHoldEnd_within (b) (p) (i) (s : State) : WithinO [.timers] s (execWatchdogHoldEnd b p i s) := by
  unfold execWatchdogHoldEnd
  exact WithinO.ite (WithinO.next (Within.foldl (Within.refl _) (fun _ _ => ((State.wrb_within _ _ _ _).mono).trans
    ((State.stopTimer_within _ _).mono)))) (WithinO.next (Within.refl _))

theorem State.fcSend_within (s : State) (m) (enable) (xoff) : Within [.outbox, .evWait, .gates] s (State.fcSend s m
    enable xoff) := by
  unfold State.fcSend
  exact Within.cut (fun h1 => Within.ite (h1) ((h1).trans ((State.wireControl_within _ _ _).mono))) (((State.emit_within
    _ _).mono).trans ((State.mst_within _ _ _ _).mono))

theorem execPauseSend_within (bed) (p) (s : State) : WithinO [.outbox, .timers, .evWait, .macs, .gates] s (execPauseSend
    bed p s) := by
  unfold execPauseSend
  exact WithinO.ite (WithinO.next (Within.refl _)) (WithinO.cut (fun h1 => WithinO.next (Within.foldl (h1) (fun _ _ =>
    Within.ite ((State.startTimer_within _ _ _).mono) ((State.stopTimer_within _ _).mono)))) (((State.fcSend_within _ _ _
    _).mono).trans ((State.macMod_within _ _ _).mono)))

theorem execPauseRefresh_within (bed) (p) (c) (s : State) : WithinO [.outbox, .timers, .evWait, .gates] s
    (execPauseRefresh bed p c s) := by
  unfold execPauseRefresh
  exact WithinO.ite (WithinO.next (((State.fcSend_within _ _ _ _).mono).trans ((State.startTimer_within _ _ _).mono)))
    (WithinO.next (Within.refl _))

theorem State.mmSet_within (s : State) (b) (p) (st) : Within [.macs] s (State.mmSet s b p st) := by
  unfold State.mmSet
  exact (((State.wrf_within _ _ _ _ _).mono).trans ((State.wrb_within _ _ _ _).mono)).trans ((State.macMod_within _ _
    _).mono)

theorem State.mmSend_within (s : State) (b) (p) (respond) : Within [.outbox, .evWait, .gates] s (State.mmSend s b p
    respond) := by
  unfold State.mmSend
  exact Within.ite ((((State.emit_within _ _).mono).trans ((State.stat_within _ _ _ _ _).mono)).trans
    ((State.wireControl_within _ _ _).mono)) (Within.refl _)

theorem State.mmTimer_within (s : State) (b) (p) : Within [.timers] s (State.mmTimer s b p) := by
  unfold State.mmTimer
  exact (State.startTimer_within _ _ _).mono

theorem State.mmVerifying_within (s : State) (b) (p) : Within [.outbox, .timers, .evWait, .macs, .gates] s
    (State.mmVerifying s b p) := by
  unfold State.mmVerifying
  exact ((((State.mmSet_within _ _ _ _).mono).trans ((State.wrf_within _ _ _ _ _).mono)).trans ((State.mmSend_within _ _
    _ _).mono)).trans ((State.mmTimer_within _ _ _).mono)

theorem execMergeVerifyStart_within (b) (p) (s : State) : WithinO [.outbox, .timers, .evWait, .macs, .gates] s
    (execMergeVerifyStart b p s) := by
  unfold execMergeVerifyStart
  exact WithinO.ite (WithinO.next (Within.ite ((State.mmVerifying_within _ _ _).mono) ((State.mmSet_within _ _ _
    _).mono))) (WithinO.next (Within.refl _))

theorem State.mmReceive_within {ps : List Part} (s : State) (b) (p) (f) (hf : ∀ x, Within ps x (f x)) (h : partSub
    [.evWait] ps = true := by rfl) : Within ps s (State.mmReceive s b p f) := by
  unfold State.mmReceive
  exact Within.ite (Within.refl _) (Within.cut (fun h1 => Within.ite ((h1).trans (hf _)) (h1)) ((State.stat_within _ _ _
    _ _).monoOf h))

theorem execMergeRespondReceive_within (b) (p) (s : State) : WithinO [.timers, .evWait, .macs] s (execMergeRespondReceive
    b p s) := by
  unfold execMergeRespondReceive
  exact WithinO.next ((State.mmReceive_within _ _ _ _ (fun _ => Within.ite ((((State.mmSet_within _ _ _ _).mono).trans
    ((State.stopTimer_within _ _).mono)).trans ((State.raiseEvt_within _ _ _).mono)) (Within.refl _))))

theorem execMergeVerifyTimeout_within (b) (p) (s : State) : WithinO [.outbox, .timers, .evWait, .macs, .gates] s
    (execMergeVerifyTimeout b p s) := by
  unfold execMergeVerifyTimeout
  exact WithinO.ite (WithinO.ite (WithinO.next ((((State.wrf_within _ _ _ _ _).mono).trans ((State.mmSend_within _ _ _
    _).mono)).trans ((State.mmTimer_within _ _ _).mono))) (WithinO.next ((((State.mmSet_within _ _ _ _).mono).trans
    ((State.stopTimer_within _ _).mono)).trans ((State.raiseEvt_within _ _ _).mono)))) (WithinO.next (Within.refl _))

theorem State.mmCtlWrite_within (s : State) (b) (p) (v) : Within [.outbox, .timers, .evWait, .macs, .gates] s
    (State.mmCtlWrite s b p v) := by
  unfold State.mmCtlWrite
  exact Within.cut (fun h1 => Within.ite ((h1).trans ((State.mmDisable_within _ _ _).mono)) (Within.ite ((h1).trans
    ((State.mmVerifying_within _ _ _).mono)) (h1))) ((State.wr_within _ _ _).mono)

theorem execMergeVerifyRestart_within (b) (p) (v) (s : State) : WithinO [.outbox, .timers, .evWait, .macs, .mesh, .gates]
    s (execMergeVerifyRestart b p v s) := by
  unfold execMergeVerifyRestart
  exact WithinO.next ((State.cfg_within _ _ _ (fun _ => (State.mmCtlWrite_within _ _ _ _).mono)))

theorem execMergeVerifyFrameReceive_within (b) (p) (s : State) : WithinO [.outbox, .evWait, .gates] s
    (execMergeVerifyFrameReceive b p s) := by
  unfold execMergeVerifyFrameReceive
  exact WithinO.next ((State.mmReceive_within _ _ _ _ (fun _ => Within.ite ((State.mmSend_within _ _ _ _).mono)
    (Within.refl _))))

theorem State.snap_within (s : State) (m) (clear) : Within [] s (State.snap s m clear) := by
  unfold State.snap
  exact Within.cut (fun h1 => Within.ite ((h1).trans ((State.wrs_within _ _ _).mono)) (h1)) ((State.wrs_within _ _ _).mono)

theorem execStatSnap_within (m) (s : State) : WithinO [.outbox, .mesh, .gates] s (execStatSnap m s) := by
  unfold execStatSnap
  exact WithinO.next ((State.cfg_within _ _ _ (fun _ => (State.snap_within _ _ _).mono)))

theorem execStatSnapClear_within (m) (s : State) : WithinO [.outbox, .mesh, .gates] s (execStatSnapClear m s) := by
  unfold execStatSnapClear
  exact WithinO.next ((State.cfg_within _ _ _ (fun _ => (State.snap_within _ _ _).mono)))

theorem State.mgmtMod_within (s : State) (f) : Within [.mgmt] s (State.mgmtMod s f) := by
  unfold State.mgmtMod
  exact (Within.mgmt _ _).mono

theorem State.mgmtGiveUp_within (s : State) : Within [.timers, .mgmt] s (State.mgmtGiveUp s) := by
  unfold State.mgmtGiveUp
  exact ((State.mgmtMod_within _ _).mono).trans ((State.stopTimer_within _ _).mono)

theorem State.mgmtBroken_within (s : State) (bits) : Within [.timers, .evWait, .mgmt] s (State.mgmtBroken s bits) := by
  unfold State.mgmtBroken
  exact (((State.mgmtStat_within _ _ _).mono).trans ((State.mgmtStat_within _ _ _).mono)).trans ((State.mgmtGiveUp_within
    _).mono)

theorem execMgmtCollision_within (bits) (s : State) : WithinO [.draws, .outbox, .timers, .evWait, .mgmt] s
    (execMgmtCollision bits s) := by
  unfold execMgmtCollision
  exact WithinO.ite (WithinO.next (Within.refl _)) (WithinO.cut (fun h1 => WithinO.ite (WithinO.next (((h1).trans
    ((State.mgmtBroken_within _ _).mono)).trans ((State.mgmtStat_within _ _ _).mono))) (WithinO.ite (WithinO.next
    (((h1).trans ((State.mgmtBroken_within _ _).mono)).trans ((State.mgmtStat_within _ _ _).mono))) (WithinO.matchP
    ((h1).trans ((State.draw_within _).mono)) fun _ _ h2 => WithinO.next (((h2).trans ((State.mgmtMod_within _
    _).mono)).trans ((State.startTimer_within _ _ _).mono))))) ((State.emit_within _ _).mono))

theorem execMgmtBackoffEnd_within (s : State) : WithinO [.timers, .mgmt] s (execMgmtBackoffEnd s) := by
  unfold execMgmtBackoffEnd
  exact WithinO.ite (WithinO.next (((State.mgmtMod_within _ _).mono).trans ((State.stopTimer_within _ _).mono)))
    (WithinO.next (Within.refl _))

theorem execMgmtDeferEnd_within (s : State) : WithinO [.timers, .mgmt] s (execMgmtDeferEnd s) := by
  unfold execMgmtDeferEnd
  exact WithinO.ite (WithinO.next (((State.mgmtMod_within _ _).mono).trans ((State.stopTimer_within _ _).mono)))
    (WithinO.next (Within.refl _))

theorem State.mdioWrite_within (s : State) (v) : Within [.outbox, .timers, .mgmt] s (State.mdioWrite s v) := by
  unfold State.mdioWrite
  exact Within.cut (fun h1 => Within.ite (h1) (Within.ite ((h1).trans ((State.wrb_within _ _ _ _).mono)) (Within.cut (fun
    h2 => Within.cut (fun h3 => ((h3).trans ((State.emit_within _ _).mono)).trans ((State.startTimer_within _ _ _).mono))
    ((h2).trans ((State.mgmtMod_within _ _).mono))) (((h1).trans ((State.wrb_within _ _ _ _).mono)).trans
    ((State.wrb_within _ _ _ _).mono))))) ((State.wr_within _ _ _).mono)

theorem execMdioStart_within (v) (s : State) : WithinO [.outbox, .timers, .mgmt, .mesh, .gates] s (execMdioStart v s) := by
  unfold execMdioStart
  exact WithinO.next ((State.cfg_within _ _ _ (fun _ => (State.mdioWrite_within _ _).mono)))

theorem execMdioDone_within (data) (s : State) : WithinO [.timers] s (execMdioDone data s) := by
  unfold execMdioDone
  exact WithinO.ite (WithinO.cut (fun h1 => WithinO.next (Within.ite ((h1).trans ((State.wr_within _ _ _).mono)) (h1)))
    (((State.stopTimer_within _ _).mono).trans ((State.wrb_within _ _ _ _).mono))) (WithinO.next (Within.refl _))

theorem execWakeFrame_within (frame) (fcsGood) (s : State) : WithinO [.outbox, .pwr] s (execWakeFrame frame fcsGood s) := by
  unfold execWakeFrame
  exact WithinO.ite (WithinO.next (Within.refl _)) ((by split; exact WithinO.cut (fun h1 => WithinO.next ((h1).trans (Within.pwr _ _).mono)) ((((State.wrb_within _ _ _ _).mono).trans ((State.wrf_within _ _ _ _ _).mono)).trans ((State.emit_within _ _).mono)); exact WithinO.next (Within.refl _)))

theorem State.timeMod_within (s : State) (f) : Within [.time] s (State.timeMod s f) := by
  unfold State.timeMod
  exact (Within.time _ _).mono

theorem State.tbMod_within (s : State) (k) (f) : Within [.time] s (State.tbMod s k f) := by
  unfold State.tbMod
  exact (State.timeMod_within _ _).mono

theorem State.ownTick_within (s : State) (k) : Within [.time] s (State.ownTick s k) := by
  unfold State.ownTick
  exact Within.ite ((State.tbMod_within _ _ _).mono) (Within.ite ((State.tbMod_within _ _ _).mono) (Within.refl _))

theorem State.pairFollow_within (s : State) (k) : Within [.evWait, .time] s (State.pairFollow s k) := by
  unfold State.pairFollow
  exact (((State.tbMod_within _ _ _).mono).trans ((State.wrf_within _ _ _ _ _).mono)).trans ((State.raiseEvt_within _ _
    _).mono)

theorem State.telMod_within (s : State) (f) : Within [.tel] s (State.telMod s f) := by
  unfold State.telMod
  exact (Within.tel _ _).mono

theorem State.telOpen_within (s : State) : Within [.tel] s (State.telOpen s) := by
  unfold State.telOpen
  exact Within.ite (Within.refl _) (Within.ite (Within.refl _) ((State.telMod_within _ _).mono))

theorem State.telHappen_within (s : State) (port) (cls) (depth) (f) : Within [.evWait, .tel] s (State.telHappen s port
    cls depth f) := by
  unfold State.telHappen
  exact Within.ite (Within.refl _) (Within.cut (fun h1 => (by (try extract_lets); split; exact h1; exact Within.cut (fun h2 => Within.ite (((h2).trans ((State.inc_within _ _ _ _).mono)).trans ((State.raiseEvt_within _ _ _).mono)) (h2)) ((h1).trans ((State.telMod_within _ _).mono)))) ((State.telOpen_within _).mono))

theorem State.telDepth_within (s : State) (port) (cls) (old) (new) : Within [.evWait, .tel] s (State.telDepth s port cls
    old new) := by
  unfold State.telDepth
  exact (State.telHappen_within _ _ _ _ _).mono

theorem State.telSelect_within (s : State) (port) (cls) (depth) (charged) (sojourn) : Within [.evWait, .tel] s
    (State.telSelect s port
  cls depth charged sojourn) := by
  unfold State.telSelect
  exact (State.telHappen_within _ _ _ _ _).mono

theorem State.telStep_within (s : State) (k) : Within [.tel] s (State.telStep s k) := by
  unfold State.telStep
  exact Within.ite ((State.telMod_within _ _).mono) (Within.refl _)

theorem State.telWrap_within (s : State) (k) (cap) : Within [.evWait, .tel] s (State.telWrap s k cap) := by
  unfold State.telWrap
  exact Within.ite (((State.telMod_within _ _).mono).trans ((State.raiseEvt_within _ _ _).mono)) (Within.refl _)

theorem State.telFlowRecord_within (s : State) (words) : Within [.evWait, .tel] s (State.telFlowRecord s words) := by
  unfold State.telFlowRecord
  exact Within.ite (Within.refl _) (Within.cut (fun h1 => ((h1).trans ((State.telMod_within _ _).mono)).trans
    ((State.telWrap_within _ _ _).mono)) ((State.inc_within _ _ _ _).mono))

theorem execIntervalEnd_within (s : State) : WithinO [.tel] s (execIntervalEnd s) := by
  unfold execIntervalEnd
  exact WithinO.cut (fun h1 => (by (try extract_lets); split; exact WithinO.next (h1); exact WithinO.cut (fun h2 => WithinO.next (Within.ite ((h2).trans ((State.telOpen_within _).mono)) (h2))) ((h1).trans ((State.telMod_within _ _).mono)))) (Within.ite ((State.telOpen_within _).mono) (Within.refl _))

theorem execIntervalSettle_within (s : State) : WithinO [.evWait, .tel] s (execIntervalSettle s) := by
  unfold execIntervalSettle
  extract_lets
  split
  · exact WithinO.next (Within.refl _)
  · exact WithinO.ite (WithinO.next (Within.refl _)) (WithinO.cut (fun h1 => WithinO.ite (WithinO.next (h1)) (WithinO.cut
      (fun h2 => WithinO.next (((h2).trans ((State.telMod_within _ _).mono)).trans ((State.telWrap_within _ _ _).mono)))
      ((h1).trans ((State.addCnt_within _ _ _ _ _).mono)))) ((State.telMod_within _ _).mono))

theorem State.flowAck_within (s : State) : Within [.tel] s (State.flowAck s) := by
  unfold State.flowAck
  split
  · exact Within.refl _
  · exact ((State.telMod_within _ _).mono).trans ((State.setCnt_within _ _ _).mono)

theorem State.classAck_within (s : State) : Within [.tel] s (State.classAck s) := by
  unfold State.classAck
  split
  · exact Within.refl _
  · exact Within.cut (fun h1 => Within.ite ((h1).trans ((State.telMod_within _ _).mono)) (Within.cut (fun h2 =>
      ((h2).trans ((State.setCnt_within _ _ _).mono)).trans ((State.wr2_within _ _ _).mono)) ((h1).trans
      ((State.telMod_within _ _).mono)))) ((State.telMod_within _ _).mono)

theorem execArchiveWriteAck_within (classRing) (s : State) : WithinO [.tel] s (execArchiveWriteAck classRing s) := by
  unfold execArchiveWriteAck
  exact WithinO.next (Within.ite ((State.classAck_within _).mono) ((State.flowAck_within _).mono))

theorem State.setFrame_within (s : State) (f) (x) : Within [.frames] s (State.setFrame s f x) := by
  unfold State.setFrame
  exact (Within.frames _ _).mono

theorem State.setCopy_within (s : State) (c) (x) : Within [.copies] s (State.setCopy s c x) := by
  unfold State.setCopy
  exact (Within.copies _ _).mono

theorem State.frameMod_within (s : State) (f) (g) : Within [.frames] s (State.frameMod s f g) := by
  unfold State.frameMod
  exact (State.setFrame_within _ _ _).mono

theorem State.copyMod_within (s : State) (c) (g) : Within [.copies] s (State.copyMod s c g) := by
  unfold State.copyMod
  exact (State.setCopy_within _ _ _).mono

theorem State.occAdd_within (s : State) (t) (g) : Within [] s (State.occAdd s t g) := by
  unfold State.occAdd
  exact (State.wr2_within _ _ _).mono

theorem State.writeNow_within (s : State) (f) (x) : Within [.timers, .frames] s (State.writeNow s f x) := by
  unfold State.writeNow
  exact Within.cut (fun h1 => (by (try extract_lets); split; exact (h1).trans ((State.startTimer_within _ _ _).mono); exact h1)) (((State.occAdd_within _ _ _).mono).trans ((State.setFrame_within _ _ _).mono))

theorem State.writeHeld_within (s : State) (f) : Within [.timers, .frames] s (State.writeHeld s f) := by
  unfold State.writeHeld
  split
  · exact Within.ite ((State.writeNow_within _ _ _).mono) (Within.refl _)
  · exact Within.refl _

theorem State.writeWaiting_within (s : State) : Within [.timers, .frames] s (State.writeWaiting s) := by
  unfold State.writeWaiting
  exact Within.foldl (Within.refl _) (fun _ _ => (State.writeHeld_within _ _).mono)

theorem State.occSub_within (s : State) (t) (g) : Within [.timers, .frames] s (State.occSub s t g) := by
  unfold State.occSub
  exact Within.cut (fun h1 => Within.ite ((h1).trans ((State.writeWaiting_within _).mono)) (h1)) ((State.wr2_within _ _
    _).mono)

theorem State.setClassCount_within (s : State) (port) (cls) (n) : Within [.evWait, .tel] s (State.setClassCount s port
    cls n) := by
  unfold State.setClassCount
  exact ((State.wr2_within _ _ _).mono).trans ((State.telDepth_within _ _ _ _ _).mono)

theorem State.flowMod_within (s : State) (f) (g) : Within [.sched] s (State.flowMod s f g) := by
  unfold State.flowMod
  exact (Within.sched _ _).mono

theorem State.clodMod_within (s : State) (c) (g) : Within [.sched] s (State.clodMod s c g) := by
  unfold State.clodMod
  exact (Within.sched _ _).mono

theorem State.setIngress_within (s : State) (port) (cls) (n) (rising) : Within [.adm] s (State.setIngress s port cls n
    rising)
  := by
  unfold State.setIngress
  exact Within.cut (fun h1 => Within.ite ((h1).trans ((State.wrb_within _ _ _ _).mono)) (Within.ite ((h1).trans
    ((State.wrb_within _ _ _ _).mono)) (h1))) ((Within.adm _ _).mono)

theorem State.countCopy_within (s : State) (c) (g) : Within [.evWait, .sched, .tel] s (State.countCopy s c g) := by
  unfold State.countCopy
  exact Within.cut (fun h1 => (h1).trans ((State.setClassCount_within _ _ _ _).mono)) (((State.flowMod_within _ _
    _).mono).trans ((State.clodMod_within _ _ _).mono))

theorem State.uncountCopy_within (s : State) (c) (g) : Within [.evWait, .sched, .tel] s (State.uncountCopy s c g) := by
  unfold State.uncountCopy
  exact Within.cut (fun h1 => (h1).trans ((State.setClassCount_within _ _ _ _).mono)) (((State.flowMod_within _ _
    _).mono).trans ((State.clodMod_within _ _ _).mono))

theorem State.freeMoved_within (s : State) (x) : Within [.timers, .frames] s (State.freeMoved s x) := by
  unfold State.freeMoved
  exact Within.ite (Within.refl _) ((State.occSub_within _ _ _).mono)

theorem State.freeFrame_within (s : State) (f) (x) : Within [.timers, .frames, .adm] s (State.freeFrame s f x) := by
  unfold State.freeFrame
  exact Within.cut (fun h1 => (by (try extract_lets); split; exact Within.ite ((h1).trans ((State.setIngress_within _ _ _ _ _).mono)) (h1); exact h1)) (Within.ite ((State.setFrame_within _ _ _).mono) ((((State.setFrame_within _ _ _).mono).trans ((State.freeMoved_within _ _).mono)).trans ((State.occSub_within _ _ _).mono)))

theorem State.unref_within (s : State) (f) : Within [.timers, .frames, .adm] s (State.unref s f) := by
  unfold State.unref
  split
  · exact Within.refl _
  · exact Within.ite ((State.setFrame_within _ _ _).mono) (Within.ite ((State.setFrame_within _ _ _).mono)
      ((State.freeFrame_within _ _ _).mono))

theorem State.pathEnd_within (s : State) (f) : Within [.timers, .frames, .adm] s (State.pathEnd s f) := by
  unfold State.pathEnd
  exact ((State.frameMod_within _ _ _).mono).trans ((State.unref_within _ _).mono)

theorem State.discardAll_within (s : State) (f) : Within [.timers, .frames, .adm] s (State.discardAll s f) := by
  unfold State.discardAll
  exact Within.cut (fun h1 => (h1).trans ((State.pathEnd_within _ _).mono)) ((by split; exact ((State.frameMod_within _ _ _).mono).trans ((State.unref_within _ _).mono); exact Within.refl _))

theorem State.reportDrop_within (s : State) (f) : Within [.fates] s (State.reportDrop s f) := by
  unfold State.reportDrop
  split
  · exact (State.sendFate_within _ _ _).mono
  · exact Within.refl _

theorem State.discard_within (s : State) (f) : Within [.timers, .frames, .adm, .fates] s (State.discard s f) := by
  unfold State.discard
  exact ((State.reportDrop_within _ _).mono).trans ((State.pathEnd_within _ _).mono)

theorem State.endCopy_within (s : State) (c) : Within [.timers, .evWait, .frames, .copies, .adm, .sched, .tel] s
    (State.endCopy s c) := by
  unfold State.endCopy
  split
  · exact Within.refl _
  · exact Within.ite ((State.setCopy_within _ _ _).mono) ((((State.uncountCopy_within _ _ _).mono).trans
      ((State.setCopy_within _ _ _).mono)).trans ((State.unref_within _ _).mono))

theorem State.readOut_within (s : State) (c) : Within [.timers, .evWait, .frames, .copies, .adm, .sched, .tel] s
    (State.readOut s c) := by
  unfold State.readOut
  split
  · exact Within.refl _
  · split
    · exact Within.refl _
    · exact (((State.uncountCopy_within _ _ _).mono).trans ((State.setCopy_within _ _ _).mono)).trans
        ((State.unref_within _ _).mono)

theorem State.copyFate_within (s : State) (x) (fate) : Within [.fates] s (State.copyFate s x fate) := by
  unfold State.copyFate
  split
  · exact (State.sendFate_within _ _ _).mono
  · exact Within.refl _

theorem State.discardCopy_within (s : State) (c) : Within [.timers, .evWait, .frames, .copies, .adm, .sched, .tel,
    .fates] s (State.discardCopy s c) := by
  unfold State.discardCopy
  split
  · exact Within.refl _
  · exact ((State.copyFate_within _ _ _).mono).trans ((State.endCopy_within _ _).mono)

theorem State.writeFrame_within (s : State) (f) (x) : Within [.timers, .frames] s (State.writeFrame s f x) := by
  unfold State.writeFrame
  exact Within.ite ((State.writeNow_within _ _ _).mono) ((State.setFrame_within _ _ _).mono)

theorem State.addFrame_within (s : State) (x) : Within [.timers, .frames, .nextId] s (State.addFrame s x).2 := by
  unfold State.addFrame
  exact Within.cut (fun h1 => Within.ite ((h1).trans ((State.setFrame_within _ _ _).mono)) ((h1).trans
    ((State.writeFrame_within _ _ _).mono))) ((Within.nextId _ _).mono)

theorem State.addCopy_within (s : State) (c) : Within [.frames, .copies, .nextId] s (State.addCopy s c).2 := by
  unfold State.addCopy
  exact (Within.cut (fun h1 => (h1).trans (Within.nextId _ _).mono) ((State.setCopy_within _ _ _).mono)).trans
    ((State.frameMod_within _ _ _).mono)

theorem State.setMeter_within (s : State) (id) (m) : Within [.adm] s (State.setMeter s id m) := by
  unfold State.setMeter
  exact (Within.adm _ _).mono

theorem State.meterHostWrite_within (s : State) (b) (w) (v) : Within [] s (State.meterHostWrite s b w v) := by
  unfold State.meterHostWrite
  exact (State.wr_within _ _ _).mono

theorem State.meterRun_within {s t : State} {id pre b c : Nat} {rd : Bool} (h : s.meterRun id pre b = some (c, rd, t)) :
    Within [.adm] s t := by
  unfold State.meterRun at h
  dsimp only at h
  split at h
  · cases h
    exact (State.setMeter_within _ _ _).mono
  · cases h

theorem State.meterOf_within {s t : State} {x : Frame} {c : Nat} {rd : Bool} (h : s.meterOf x = some (c, rd, t)) :
    Within [.adm] s t := by
  unfold State.meterOf at h
  extract_lets cfg a0 id at h
  split at h
  · exact (State.meterRun_within h).mono
  · cases h

theorem State.meterFrame_within (s : State) (f) : Within [.frames, .adm] s (State.meterFrame s f) := by
  unfold State.meterFrame
  split
  · exact Within.refl _
  · split
    · rename_i h
      exact (((State.meterOf_within h).mono).trans ((State.setCnt_within _ _ _).mono)).trans ((State.frameMod_within _ _
        _).mono)
    · exact (State.frameMod_within _ _ _).mono

theorem State.meterOverride_within (s : State) (f) (id) : Within [.frames, .adm] s (State.meterOverride s f id) := by
  unfold State.meterOverride
  split
  · exact Within.refl _
  · split
    · rename_i h
      exact ((State.meterRun_within h).mono).trans ((State.frameMod_within _ _ _).mono)
    · exact Within.refl _

theorem State.meterOp_within (s : State) (op) : Within [] s (State.meterOp s op) := by
  unfold State.meterOp
  exact (State.wr_within _ _ _).mono

theorem State.meterRead_within (s : State) : Within [.adm] s (State.meterRead s) := by
  unfold State.meterRead
  exact ((State.setMeter_within _ _ _).mono).trans ((State.wrs_within _ _ _).mono)

theorem State.meterWrite_within (s : State) (full) : Within [.adm] s (State.meterWrite s full) := by
  unfold State.meterWrite
  exact (State.setMeter_within _ _ _).mono

theorem execMeterRead_within (s : State) : WithinO [.outbox, .mesh, .adm, .gates] s (execMeterRead s) := by
  unfold execMeterRead
  exact WithinO.next ((State.cfg_within _ _ _ (fun _ => ((State.meterOp_within _ _).mono).trans ((State.meterRead_within
    _).mono))))

theorem execMeterWriteFull_within (s : State) : WithinO [.outbox, .mesh, .adm, .gates] s (execMeterWriteFull s) := by
  unfold execMeterWriteFull
  exact WithinO.next ((State.cfg_within _ _ _ (fun _ => ((State.meterOp_within _ _).mono).trans ((State.meterWrite_within
    _ _).mono))))

theorem execMeterWriteKeep_within (s : State) : WithinO [.outbox, .mesh, .adm, .gates] s (execMeterWriteKeep s) := by
  unfold execMeterWriteKeep
  exact WithinO.next ((State.cfg_within _ _ _ (fun _ => ((State.meterOp_within _ _).mono).trans ((State.meterWrite_within
    _ _).mono))))

theorem execMeterRefresh_within (id) (s : State) : WithinO [.adm] s (execMeterRefresh id s) := by
  unfold execMeterRefresh
  exact WithinO.next (Within.ite ((State.setMeter_within _ _ _).mono) (Within.refl _))

theorem State.admCount_within (s : State) (i) : Within [.evWait] s (State.admCount s i) := by
  unfold State.admCount
  exact Within.cut (fun h1 => Within.ite ((h1).trans ((State.raiseEvt_within _ _ _).mono)) (h1)) ((State.inc_within _ _ _
    _).mono)

theorem State.admFail_within (s : State) (x) (i) : Within [.outbox, .evWait, .pmuNext] s (State.admFail s x i) := by
  unfold State.admFail
  exact ((State.admCount_within _ _).mono).trans ((State.pmuOcc_within _ _ _).mono)

theorem State.ecnDraw_within (s : State) (port) (cls) (q) : Within [.adm] s (State.ecnDraw s port cls q).2 := by
  unfold State.ecnDraw
  exact Within.iteP (Within.refl _) (Within.cut (fun h1 => Within.iteP h1 (Within.iteP h1 h1)) (Within.adm _ _))

theorem State.admitTests_within (s : State) (x) (c) (colour) (lossless) : Within [.adm] s (State.admitTests s x c colour
  lossless).2 := by
  unfold State.admitTests
  split
  · exact Within.refl _
  · exact Within.cut (fun h1 => Within.iteP (h1) (h1)) ((State.ecnDraw_within _ _ _ _).mono)

theorem State.admitNow_within (s : State) (f) (c) (mark) : Within [.outbox, .evWait, .pmuNext, .frames, .copies, .nextId,
    .adm, .sched, .tel] s (State.admitNow s f c mark) := by
  unfold State.admitNow
  split
  · exact Within.refl _
  · exact Within.cut (fun h1 => Within.cut (fun h2 => Within.cut (fun h3 => Within.ite (((h3).trans
      ((State.frameMod_within _ _ _).mono)).trans ((State.setIngress_within _ _ _ _ _).mono)) (h3)) (Within.ite
      (((h2).trans ((State.admCount_within _ _).mono)).trans ((State.pmuOcc_within _ _ _).mono)) (h2))) ((((h1).trans
      ((State.countCopy_within _ _ _).mono)).trans ((State.admCount_within _ _).mono)).trans ((State.pmuOcc_within _ _
      _).mono))) ((State.addCopy_within _ _).mono)

theorem State.admitCopy_within (s : State) (f) (c) (colour) (lossless) : Within [.outbox, .evWait, .pmuNext, .frames,
    .copies, .nextId, .adm, .sched, .tel, .fates] s (State.admitCopy s f c colour
  lossless) := by
  unfold State.admitCopy
  split
  · exact Within.refl _
  · have h : ∀ x, Within [.outbox, .evWait, .pmuNext, .frames, .copies, .nextId, .adm, .sched, .tel, .fates] s _ := fun x
      => (State.admitTests_within s x c colour lossless).mono
    split
    · rename_i e
      exact ((Prod.mk.inj e).2 ▸ h _ : Within [.outbox, .evWait, .pmuNext, .frames, .copies, .nextId, .adm, .sched, .tel,
        .fates] s _).trans (((State.admFail_within _ _ _).mono).trans ((State.reportDrop_within _ _).mono))
    · rename_i e
      exact ((Prod.mk.inj e).2 ▸ h _ : Within [.outbox, .evWait, .pmuNext, .frames, .copies, .nextId, .adm, .sched, .tel,
        .fates] s _).trans ((State.admitNow_within _ _ _ _).mono)

theorem State.admitOne_within (s : State) (f) (c) (colour) (lossless) : Within [.outbox, .evWait, .pmuNext, .frames,
    .copies, .nextId, .adm, .sched, .tel, .fates] s (State.admitOne s f c colour lossless)
  := by
  unfold State.admitOne
  split
  · exact Within.refl _
  · exact Within.cut (fun h1 => (by (try extract_lets); split; exact ((h1).trans ((State.admFail_within _ _ _).mono)).trans ((State.reportDrop_within _ _).mono); exact ((h1).trans ((State.frameMod_within _ _ _).mono)).trans ((State.admitCopy_within _ _ _ _ _).mono))) (Within.ite ((State.raiseEvt_within _ _ _).mono) (Within.refl _))

theorem State.direct_within (s : State) (f) (c) : Within [.outbox, .evWait, .pmuNext, .frames, .copies, .nextId, .adm,
    .sched, .tel, .fates] s (State.direct s f c) := by
  unfold State.direct
  exact (State.admitOne_within _ _ _ _ _).mono

theorem State.meshMod_within (s : State) (f) : Within [.mesh] s (State.meshMod s f) := by
  unfold State.meshMod
  exact (Within.mesh _ _).mono

theorem State.meshCommit_within (s : State) (b) : Within [.evWait] s (State.meshCommit s b) := by
  unfold State.meshCommit
  exact Within.ite (((State.wrb_within _ _ _ _).mono).trans ((State.raiseEvt_within _ _ _).mono)) (Within.cut (fun h1 =>
    Within.ite ((h1).trans ((State.raiseEvt_within _ _ _).mono)) ((h1).trans ((State.wrb_within _ _ _ _).mono)))
    ((State.wrf_within _ _ _ _ _).mono))

theorem State.commitOnce_within {ps : List Part} (s : State) (k) (pulse) (f) (hf : ∀ x, Within ps x (f x)) (h : partSub
    [.mesh] ps = true := by rfl) : Within ps s (State.commitOnce s k
  pulse f) := by
  unfold State.commitOnce
  exact Within.ite (Within.refl _) ((hf _).trans ((State.meshMod_within _ _).monoOf h))

theorem State.meshCommitBy_within (s : State) (b) (pulse) : Within [.evWait, .mesh] s (State.meshCommitBy s b pulse) := by
  unfold State.meshCommitBy
  exact (State.commitOnce_within _ _ _ _ (fun _ => (State.meshCommit_within _ _).mono))

theorem State.meshCtlWrite_within (s : State) (b) (v) : Within [.evWait, .mesh] s (State.meshCtlWrite s b v) := by
  unfold State.meshCtlWrite
  exact Within.cut (fun h1 => Within.ite ((h1).trans ((State.meshCommitBy_within _ _ _).mono)) (h1)) ((State.wr_within _
    _ _).mono)

theorem execMeshCommit_within (b) (v) (s : State) : WithinO [.outbox, .evWait, .mesh, .gates] s (execMeshCommit b v s) := by
  unfold execMeshCommit
  exact WithinO.next ((State.cfg_within _ _ _ (fun _ => (State.meshCtlWrite_within _ _ _).mono)))

theorem execMeshDrained_within (b) (s : State) : WithinO [.evWait] s (execMeshDrained b s) := by
  unfold execMeshDrained
  exact WithinO.ite (WithinO.next (((State.wrb_within _ _ _ _).mono).trans ((State.raiseEvt_within _ _ _).mono)))
    (WithinO.next (Within.refl _))

theorem State.setRule_within (s : State) (k) (r) : Within [.mesh] s (State.setRule s k r) := by
  unfold State.setRule
  exact (State.meshMod_within _ _).mono

theorem State.tblShow_within (s : State) (b) (r) : Within [] s (State.tblShow s b r) := by
  unfold State.tblShow
  exact (State.wrs_within _ _ _).mono

theorem State.tblOp_within (s : State) (b) (op) : Within [] s (State.tblOp s b op) := by
  unfold State.tblOp
  exact (State.wrf_within _ _ _ _ _).mono

theorem State.tblRefuse_within (s : State) (b) : Within [.evWait] s (State.tblRefuse s b) := by
  unfold State.tblRefuse
  exact ((State.wrb_within _ _ _ _).mono).trans ((State.raiseEvt_within _ _ _).mono)

theorem State.tblRead_within (s : State) (b) : Within [] s (State.tblRead s b) := by
  unfold State.tblRead
  exact (State.tblShow_within _ _ _).mono

theorem State.tblWrite_within (s : State) (b) : Within [.evWait, .mesh] s (State.tblWrite s b) := by
  unfold State.tblWrite
  exact (by (try extract_lets); split <;> exact Within.ite ((State.tblRefuse_within _ _).mono) ((State.setRule_within _ _ _).mono))

theorem State.tblClear_within (s : State) (b) : Within [.evWait, .mesh] s (State.tblClear s b) := by
  unfold State.tblClear
  exact Within.ite ((State.tblRefuse_within _ _).mono) ((State.setRule_within _ _ _).mono)

theorem execMeshTblRead_within (b) (s : State) : WithinO [.outbox, .mesh, .gates] s (execMeshTblRead b s) := by
  unfold execMeshTblRead
  exact WithinO.next ((State.cfg_within _ _ _ (fun _ => ((State.tblOp_within _ _ _).mono).trans ((State.tblRead_within _
    _).mono))))

theorem execMeshTblWrite_within (b) (s : State) : WithinO [.outbox, .evWait, .mesh, .gates] s (execMeshTblWrite b s) := by
  unfold execMeshTblWrite
  exact WithinO.next ((State.cfg_within _ _ _ (fun _ => ((State.tblOp_within _ _ _).mono).trans ((State.tblWrite_within _
    _).mono))))

theorem execMeshTblClear_within (b) (s : State) : WithinO [.outbox, .evWait, .mesh, .gates] s (execMeshTblClear b s) := by
  unfold execMeshTblClear
  exact WithinO.next ((State.cfg_within _ _ _ (fun _ => ((State.tblOp_within _ _ _).mono).trans ((State.tblClear_within _
    _).mono))))

theorem execPayloadMatchFinal_within (f) (s : State) : WithinO [.frames] s (execPayloadMatchFinal f s) := by
  unfold execPayloadMatchFinal
  split
  · exact WithinO.ite (WithinO.next ((State.frameMod_within _ _ _).mono)) (WithinO.next (Within.refl _))
  · exact WithinO.next (Within.refl _)

theorem State.rewCommit_within (s : State) (b) : Within [.evWait] s (State.rewCommit s b) := by
  unfold State.rewCommit
  exact Within.ite (((State.wrb_within _ _ _ _).mono).trans ((State.raiseEvt_within _ _ _).mono)) (((State.wrf_within _ _
    _ _ _).mono).trans ((State.wrb_within _ _ _ _).mono))

theorem State.rewCommitBy_within (s : State) (b) (pulse) : Within [.evWait, .mesh] s (State.rewCommitBy s b pulse) := by
  unfold State.rewCommitBy
  exact (State.commitOnce_within _ _ _ _ (fun _ => (State.rewCommit_within _ _).mono))

theorem State.rewCtlWrite_within (s : State) (b) (v) : Within [.evWait, .mesh] s (State.rewCtlWrite s b v) := by
  unfold State.rewCtlWrite
  exact Within.cut (fun h1 => Within.ite ((h1).trans ((State.rewCommitBy_within _ _ _).mono)) (h1)) ((State.wr_within _ _
    _).mono)

theorem execRewriteCommit_within (b) (v) (s : State) : WithinO [.outbox, .evWait, .mesh, .gates] s (execRewriteCommit b v
    s) := by
  unfold execRewriteCommit
  exact WithinO.next ((State.cfg_within _ _ _ (fun _ => (State.rewCtlWrite_within _ _ _).mono)))

theorem execRewriteDrained_within (b) (s : State) : WithinO [] s (execRewriteDrained b s) := by
  unfold execRewriteDrained
  exact WithinO.ite (WithinO.next ((State.wrb_within _ _ _ _).mono)) (WithinO.next (Within.refl _))

theorem State.replOp_within (s : State) (op) : Within [] s (State.replOp s op) := by
  unfold State.replOp
  exact (State.wrf_within _ _ _ _ _).mono

theorem State.replRead_within (s : State) : Within [] s (State.replRead s) := by
  unfold State.replRead
  exact (by split <;> exact (State.wrs_within _ _ _).mono)

theorem State.setGroup_within (s : State) (g) (w) : Within [.mesh] s (State.setGroup s g w) := by
  unfold State.setGroup
  exact (State.meshMod_within _ _).mono

theorem State.setMember_within (s : State) (i) (ws) : Within [.mesh] s (State.setMember s i ws) := by
  unfold State.setMember
  exact (State.meshMod_within _ _).mono

theorem State.replWrite_within (s : State) : Within [.mesh] s (State.replWrite s) := by
  unfold State.replWrite
  exact (by split <;> exact Within.ite ((State.setMember_within _ _ _).mono) ((State.setGroup_within _ _ _).mono))

theorem State.replClear_within (s : State) : Within [.mesh] s (State.replClear s) := by
  unfold State.replClear
  exact (by split <;> exact Within.ite ((State.setMember_within _ _ _).mono) ((State.setGroup_within _ _ _).mono))

theorem execReplRead_within (s : State) : WithinO [.outbox, .mesh, .gates] s (execReplRead s) := by
  unfold execReplRead
  exact WithinO.next ((State.cfg_within _ _ _ (fun _ => ((State.replOp_within _ _).mono).trans ((State.replRead_within
    _).mono))))

theorem execReplWrite_within (s : State) : WithinO [.outbox, .mesh, .gates] s (execReplWrite s) := by
  unfold execReplWrite
  exact WithinO.next ((State.cfg_within _ _ _ (fun _ => ((State.replOp_within _ _).mono).trans ((State.replWrite_within
    _).mono))))

theorem execReplClear_within (s : State) : WithinO [.outbox, .mesh, .gates] s (execReplClear s) := by
  unfold execReplClear
  exact WithinO.next ((State.cfg_within _ _ _ (fun _ => ((State.replOp_within _ _).mono).trans ((State.replClear_within
    _).mono))))

theorem State.setTrial_within (s : State) (b) (k) (v) : Within [.mesh] s (State.setTrial s b k v) := by
  unfold State.setTrial
  exact (State.meshMod_within _ _).mono

theorem State.setPipeMap_within (s : State) (b) (w) : Within [] s (State.setPipeMap s b w) := by
  unfold State.setPipeMap
  exact Within.cut (fun h1 => Within.foldl (h1) (fun _ _ => (State.wrb_within _ _ _ _).mono)) ((State.wr_within _ _ _).mono)

theorem State.pipeMapWrite_within (s : State) (b) (v) : Within [.evWait, .mesh] s (State.pipeMapWrite s b v) := by
  unfold State.pipeMapWrite
  exact Within.ite (((State.wrb_within _ _ _ _).mono).trans ((State.raiseEvt_within _ _ _).mono)) (Within.cut (fun h1 =>
    Within.ite ((h1).trans ((State.meshMod_within _ _).mono)) (h1)) ((State.setPipeMap_within _ _ _).mono))

theorem State.parseCtlWrite_within (s : State) (b) (v) : Within [.evWait] s (State.parseCtlWrite s b v) := by
  unfold State.parseCtlWrite
  exact Within.cut (fun h1 => Within.ite ((h1).trans ((State.raiseEvt_within _ _ _).mono)) (h1)) ((State.wr_within _ _
    _).mono)

theorem execPipeMapWrite_within (b) (v) (s : State) : WithinO [.outbox, .evWait, .mesh, .gates] s (execPipeMapWrite b v
    s) := by
  unfold execPipeMapWrite
  exact WithinO.next ((State.cfg_within _ _ _ (fun _ => (State.pipeMapWrite_within _ _ _).mono)))

theorem State.parseFault_within (s : State) (f) (b) : Within [.timers, .evWait, .frames, .adm, .fates] s
    (State.parseFault s f b) := by
  unfold State.parseFault
  exact (((State.inc_within _ _ _ _).mono).trans ((State.reportDrop_within _ _).mono)).trans ((State.discardAll_within _
    _).mono)

theorem State.pipeFault_within (s : State) (b) (k) : Within [.evWait] s (State.pipeFault s b k) := by
  unfold State.pipeFault
  exact Within.cut (fun h1 => (by (try extract_lets); split; exact h1; exact (by (try extract_lets); split; exact ((h1).trans ((State.setPipeMap_within _ _ _).mono)).trans ((State.raiseEvt_within _ _ _).mono); exact (h1).trans ((State.setPipeMap_within _ _ _).mono)))) (((State.wrb_within _ _ _ _).mono).trans ((State.raiseEvt_within _ _ _).mono))

theorem execPipeTrialPass_within (b) (pipe) (s : State) : WithinO [.mesh] s (execPipeTrialPass b pipe s) := by
  unfold execPipeTrialPass
  split
  · exact WithinO.ite (WithinO.next ((State.setTrial_within _ _ _ _).mono)) (WithinO.next (Within.refl _))
  · exact WithinO.next (Within.refl _)

theorem State.auditDue_within (s : State) (b) (pslot) : Within [.mesh] s (State.auditDue s b pslot).2 := by
  unfold State.auditDue
  refine Within.iteP (Within.refl _) ?_
  split
  dsimp only
  exact (State.meshMod_within _ _).mono

theorem State.dropWindows_within (s : State) (b) (held) : Within [.timers, .evWait, .frames, .adm, .fates] s
    (State.dropWindows s b held) := by
  unfold State.dropWindows
  exact Within.foldl (Within.refl _) (fun _ _ => (State.parseFault_within _ _ _).mono)

theorem State.trialWindow_within (s : State) (b) (pipe) (bad) : Within [.evWait, .mesh] s (State.trialWindow s b pipe
    bad) := by
  unfold State.trialWindow
  split
  · exact Within.ite (Within.refl _) (Within.ite ((((State.setTrial_within _ _ _ _).mono).trans ((State.wrb_within _ _ _
      _).mono)).trans ((State.raiseEvt_within _ _ _).mono)) ((State.setTrial_within _ _ _ _).mono))
  · exact Within.refl _

theorem State.auditWindow_within (s : State) (f) (b) (pslot) (bad) (held) : Within [.timers, .evWait, .frames, .mesh,
    .adm, .fates] s (State.auditWindow s f b pslot bad
  held).2 := by
  have hd : ∀ v t, s.auditDue b pslot = (v, t) → Within [.timers, .evWait, .frames, .mesh, .adm, .fates] s t := fun v t h
    => by
    have : Within [.timers, .evWait, .frames, .mesh, .adm, .fates] s _ := (State.auditDue_within s b pslot).mono
    rwa [h] at this
  unfold State.auditWindow
  extract_lets k
  split
  · exact hd _ _ ‹_›
  · have h := (hd _ _ ‹_›).trans ((State.inc_within _ (offParseCnt b 2) (offParseEvt b) 6).mono)
    refine Within.iteP h ?_
    have g := (h.trans ((State.wrb_within _ (offParsePipeStatus b) (8 + k) true).mono)).trans
      ((State.raiseEvt_within _ (offParseEvt b) 2).mono)
    exact Within.ite ((g.trans ((State.dropWindows_within _ _ _).mono)).trans ((State.pipeFault_within _ _ _).mono)) g

theorem State.recheck_within (s : State) (f) (b) (pslot) (recheck) : Within [.timers, .evWait, .frames, .mesh, .adm,
    .fates] s (State.recheck s f b pslot recheck).2 := by
  unfold State.recheck
  exact Within.cut (fun h1 => (h1).trans ((State.auditWindow_within _ _ _ _ _ _).mono)) ((by split; exact (State.trialWindow_within _ _ _ _).mono; exact Within.refl _))

theorem State.deliver_within (s : State) (f) (c) : Within [.outbox, .timers, .evWait, .pmuNext, .frames, .copies,
    .nextId, .adm, .sched, .tel, .fates] s (State.deliver s f c) := by
  unfold State.deliver
  exact ((State.direct_within _ _ _).mono).trans ((State.pathEnd_within _ _).mono)

theorem State.mfFound_within (s : State) (b) (c) : Within [.evWait] s (State.mfFound s b c) := by
  unfold State.mfFound
  exact Within.cut (fun h1 => Within.ite (h1) (((h1).trans ((State.wrb_within _ _ _ _).mono)).trans
    ((State.raiseEvt_within _ _ _).mono))) ((State.inc_within _ _ _ _).mono)

theorem State.mfApply_within {ps : List Part} (s : State) (f) (b) (c) (k) (hk : ∀ x, Within ps x (k x))
    (h : partSub [.outbox, .timers, .evWait, .pmuNext, .frames, .copies, .nextId, .adm, .sched, .tel, .fates] ps = true
      := by rfl) : Within ps s (State.mfApply s f b c k) := by
  unfold State.mfApply
  extract_lets a t
  have h1 : Within ps s t := (State.frameMod_within _ _ _).monoOf h
  clear_value t
  split
  · exact (h1.trans ((State.reportDrop_within _ _).monoOf h)).trans ((State.discardAll_within _ _).monoOf h)
  · exact h1.trans ((State.deliver_within _ _ _).monoOf h)
  · exact h1.trans (hk _)

theorem State.timeoutAction_within (s : State) (f) (b) (counted) : Within [.outbox, .timers, .evWait, .pmuNext, .frames,
    .copies, .nextId, .adm, .sched, .tel, .fates] s (State.timeoutAction s f b counted) := by
  unfold State.timeoutAction
  exact Within.cut (fun h1 => id ((by (try extract_lets); split; exact (h1).trans ((State.deliver_within _ _ _).mono); exact Within.ite ((h1).trans ((State.deliver_within _ _ _).mono)) (((h1).trans ((State.dropTel_within _ _ _).mono)).trans ((State.discard_within _ _).mono)); exact ((h1).trans ((State.dropTel_within _ _ _).mono)).trans ((State.discard_within _ _).mono)))) (Within.ite (((State.inc_within _ _ _ _).mono).trans ((State.raiseEvt_within _ _ _).mono)) (Within.refl _))

theorem State.meshPunt_within (s : State) (f) (x) : Within [.outbox, .timers, .evWait, .pmuNext, .frames, .copies,
    .nextId, .adm, .sched, .tel, .fates] s (State.meshPunt s f x) := by
  unfold State.meshPunt
  exact (State.deliver_within _ _ _).mono

theorem State.toReplicator_within (s : State) (f) (x) (g) : Within [.outbox, .timers, .evWait, .pmuNext, .frames, .adm,
    .fates] s (State.toReplicator s f x g) := by
  unfold State.toReplicator
  exact Within.ite (((State.dropTel_within _ _ _).mono).trans ((State.discard_within _ _).mono)) (Within.cut (fun h1 => (by (try extract_lets); split; exact ((h1).trans ((State.admFail_within _ _ _).mono)).trans ((State.discard_within _ _).mono); exact (h1).trans ((State.frameMod_within _ _ _).mono))) (Within.ite ((State.raiseEvt_within _ _ _).mono) (Within.refl _)))

theorem State.verdictAction_within (s : State) (f) (m) : Within [.outbox, .timers, .evWait, .pmuNext, .frames, .copies,
    .nextId, .adm, .sched, .tel, .fates] s (State.verdictAction s f m) := by
  unfold State.verdictAction
  split
  · exact Within.refl _
  · exact Within.cut (fun h1 => (by (try extract_lets); split; exact h1; exact Within.ite (((h1).trans ((State.admFail_within _ _ _).mono)).trans ((State.discard_within _ _).mono)) (Within.ite ((((h1).trans ((State.inc_within _ _ _ _).mono)).trans ((State.raiseEvt_within _ _ _).mono)).trans ((State.discard_within _ _).mono)) (Within.ite (((h1).trans ((State.inc_within _ _ _ _).mono)).trans ((State.discard_within _ _).mono)) (Within.ite ((h1).trans ((State.toReplicator_within _ _ _ _).mono)) (((h1).trans ((State.admitOne_within _ _ _ _ _).mono)).trans ((State.pathEnd_within _ _).mono))))))) (Within.ite ((State.meterOverride_within _ _ _).mono) (Within.refl _))

theorem State.settleNow_within (s : State) (f) : Within [.outbox, .timers, .evWait, .pmuNext, .frames, .copies, .nextId,
    .adm, .sched, .tel, .fates] s (State.settleNow s f) := by
  unfold State.settleNow
  split
  · exact Within.refl _
  · extract_lets go
    have hgo : ∀ v, Within [.outbox, .timers, .evWait, .pmuNext, .frames, .copies, .nextId, .adm, .sched, .tel, .fates] v
      (go v) := fun v => by
      dsimp only [go]
      split
      · exact (State.verdictAction_within _ _ _).mono
      · exact (State.timeoutAction_within _ _ _ _).mono
      · exact (State.timeoutAction_within _ _ _ _).mono
      · exact (State.meshPunt_within _ _ _).mono
      · exact Within.refl _
    exact Within.ite (hgo _) ((State.mfApply_within _ _ _ _ _) fun _ => (Within.ite (Within.refl _)
      ((State.frameMod_within _ _ _).mono)).trans (hgo _))

theorem State.settleFate_within (s : State) (f) : Within [.outbox, .timers, .evWait, .pmuNext, .frames, .copies, .nextId,
    .adm, .sched, .tel, .fates] s (State.settleFate s f) := by
  unfold State.settleFate
  split
  · exact Within.ite (Within.refl _) ((State.settleNow_within _ _).mono)
  · exact Within.refl _

theorem State.releaseHeld_within (s : State) : Within [.outbox, .timers, .evWait, .pmuNext, .frames, .copies, .nextId,
    .adm, .sched, .tel, .fates] s (State.releaseHeld s) := by
  unfold State.releaseHeld
  exact Within.foldl (Within.refl _) (fun _ _ => (State.settleFate_within _ _).mono)

theorem State.fateKnown_within (s : State) (f) (v) : Within [.outbox, .timers, .evWait, .pmuNext, .frames, .copies,
    .nextId, .adm, .sched, .tel, .fates] s (State.fateKnown s f v) := by
  unfold State.fateKnown
  split
  · exact Within.refl _
  · exact Within.cut (fun h1 => Within.ite (h1) ((h1).trans ((State.settleFate_within _ _).mono)))
      ((State.setFrame_within _ _ _).mono)

theorem State.setHandle_within (s : State) (k) (h) : Within [.mesh] s (State.setHandle s k h) := by
  unfold State.setHandle
  exact (State.meshMod_within _ _).mono

theorem State.setKeyQueue_within (s : State) (b) (c) (q) : Within [.mesh] s (State.setKeyQueue s b c q) := by
  unfold State.setKeyQueue
  exact (State.meshMod_within _ _).mono

theorem State.freeHandle_within (s : State) (k) : Within [.timers, .mesh] s (State.freeHandle s k) := by
  unfold State.freeHandle
  exact Within.cut (fun h1 => (h1).trans ((State.meshMod_within _ _).mono)) (((State.setHandle_within _ _ _).mono).trans
    ((State.stopTimer_within _ _).mono))

theorem State.handOff_within (s : State) (f) (start) : Within [.outbox, .timers, .evWait, .pmuNext, .frames, .copies,
    .nextId, .mesh, .adm, .sched, .tel, .fates] s (State.handOff s f start) := by
  unfold State.handOff
  split
  · exact Within.refl _
  · split
    · exact (((State.inc_within _ _ _ _).mono).trans ((State.raiseEvt_within _ _ _).mono)).trans ((State.fateKnown_within
        _ _ _).mono)
    · exact Within.cut (fun h1 => Within.cut (fun h2 => Within.cut (fun h3 => (h3).trans ((State.startTimer_within _ _
        _).mono)) ((h2).trans ((State.frameMod_within _ _ _).mono))) (((h1).trans ((State.setHandle_within _ _
        _).mono)).trans ((State.setKeyQueue_within _ _ _ _).mono))) ((State.meterFrame_within _ _).mono)

theorem State.trace_within (s : State) (x) : Within [] s (State.trace s x) := by
  unfold State.trace
  exact Within.ite ((((State.wrs_within _ _ _).mono).trans ((State.wrb_within _ _ _ _).mono)).trans ((State.wrb_within _
    _ _ _).mono)) (Within.refl _)

theorem State.finalAction_within (s : State) (f) (op) (start) : Within [.outbox, .timers, .evWait, .pmuNext, .frames,
    .copies, .nextId, .mesh, .adm, .sched, .tel, .fates] s (State.finalAction s f op start) := by
  unfold State.finalAction
  split
  · exact Within.refl _
  · exact Within.cut (fun h1 => (by (try extract_lets); split; exact (h1).trans ((State.handOff_within _ _ _).mono); exact ((h1).trans ((State.inc_within _ _ _ _).mono)).trans ((State.fateKnown_within _ _ _).mono); exact ((h1).trans ((State.inc_within _ _ _ _).mono)).trans ((State.discard_within _ _).mono))) (Within.ite ((State.frameMod_within _ _ _).mono) (Within.refl _))

theorem State.classify_within (s : State) (f) (start) : Within [.outbox, .timers, .evWait, .pmuNext, .frames, .copies,
    .nextId, .mesh, .adm, .sched, .tel, .fates] s (State.classify s f start) := by
  unfold State.classify
  split
  · exact Within.refl _
  · exact (by (try extract_lets); split <;> exact Within.cut (fun h1 => Within.cut (fun h2 => Within.ite (Within.ite ((h2).trans ((State.frameMod_within _ _ _).mono)) (Within.cut (fun h3 => (h3).trans ((State.mfApply_within _ _ _ _ _ (fun _ => (State.finalAction_within _ _ _ _).mono)))) (((h2).trans ((State.mfFound_within _ _ _).mono)).trans ((State.frameMod_within _ _ _).mono)))) ((h2).trans ((State.finalAction_within _ _ _ _).mono))) ((h1).trans ((State.frameMod_within _ _ _).mono))) ((State.inc_within _ _ _ _).mono))

theorem State.shadowSeen_within (s : State) (x) : Within [.evWait, .harm] s (State.shadowSeen s x) := by
  unfold State.shadowSeen
  exact Within.ite (Within.ite ((State.harmMod_within _ _).mono) ((State.shadowMiss_within _).mono)) (Within.refl _)

theorem State.firstPass_within (s : State) (f) (start) : Within [.outbox, .timers, .evWait, .pmuNext, .frames, .copies,
    .nextId, .mesh, .adm, .sched, .tel, .harm, .fates] s (State.firstPass s f start) := by
  unfold State.firstPass
  split
  · exact Within.refl _
  · exact Within.cut (fun h1 => Within.ite ((h1).trans ((State.classify_within _ _ _).mono)) (((h1).trans
      ((State.mfFound_within _ _ _).mono)).trans ((State.mfApply_within _ _ _ _ _ (fun _ => (State.classify_within _ _
      _).mono))))) ((((State.setFrame_within _ _ _).mono).trans ((State.trace_within _ _).mono)).trans
      ((State.shadowSeen_within _ _).mono))

theorem State.laterPass_within (s : State) (f) (start) : Within [.outbox, .timers, .evWait, .pmuNext, .frames, .copies,
    .nextId, .mesh, .adm, .sched, .tel, .fates] s (State.laterPass s f start) := by
  unfold State.laterPass
  exact ((State.frameMod_within _ _ _).mono).trans ((State.classify_within _ _ _).mono)

theorem State.beatTake_within (s : State) (b) : Within [.mesh] s (State.beatTake s b) := by
  unfold State.beatTake
  exact (State.meshMod_within _ _).mono

theorem State.toWindow_within (s : State) (f) (x) : Within [.timers, .frames, .mesh] s (State.toWindow s f x) := by
  unfold State.toWindow
  split
  · exact ((State.beatTake_within _ _).mono).trans ((State.writeFrame_within _ _ _).mono)
  · exact (State.setFrame_within _ _ _).mono
  · exact Within.refl _

theorem execParseWindow_within (f) (pslot) (recheck) (start) (s : State) : WithinO [.outbox, .timers, .evWait, .pmuNext,
    .frames, .copies, .nextId, .mesh, .adm, .sched, .tel, .harm, .fates] s (execParseWindow f pslot recheck
  start s) := by
  unfold execParseWindow
  split
  · exact WithinO.next (Within.refl _)
  · exact WithinO.ite (WithinO.next (((State.dropTel_within _ _ _).mono).trans ((State.discard_within _ _).mono)))
      (WithinO.ite (WithinO.next (Within.refl _)) (WithinO.ite (WithinO.next (((State.rxDiscard_within _ _ _).mono).trans
      ((State.setFrame_within _ _ _).mono))) (WithinO.cut (fun h1 => WithinO.cut (fun h2 => WithinO.ite (WithinO.next
      (((h2).trans ((State.parseFault_within _ _ _).mono)).trans ((State.releaseHeld_within _).mono))) (WithinO.ite
      (WithinO.next (((h2).trans ((State.firstPass_within _ _ _).mono)).trans ((State.releaseHeld_within _).mono)))
      (WithinO.next (((h2).trans ((State.laterPass_within _ _ _).mono)).trans ((State.releaseHeld_within _).mono)))))
      ((h1).trans ((State.recheck_within _ _ _ _ _).mono))) ((State.toWindow_within _ _ _).mono))))

theorem execTailCheck_within (f) (s : State) : WithinO [.outbox, .timers, .evWait, .pmuNext, .frames, .copies, .nextId,
    .adm, .sched, .tel, .fates] s (execTailCheck f s) := by
  unfold execTailCheck
  split
  · exact WithinO.next (Within.refl _)
  · exact WithinO.ite (WithinO.next (Within.refl _)) (WithinO.cut (fun h1 => WithinO.cut (fun h2 => WithinO.cut (fun h3
      => WithinO.next (Within.ite (((h3).trans ((State.settleFate_within _ _).mono)).trans ((State.releaseHeld_within
      _).mono)) (h3))) (Within.ite (h2) ((h2).trans ((State.mfFound_within _ _ _).mono)))) ((h1).trans
      ((State.setFrame_within _ _ _).mono))) ((State.inc_within _ _ _ _).mono))

theorem execPipeParityError_within (b) (pipe) (held) (s : State) : WithinO [.outbox, .timers, .evWait, .pmuNext, .frames,
    .copies, .nextId, .adm, .sched, .tel, .fates] s (execPipeParityError b pipe held s) := by
  unfold execPipeParityError
  exact WithinO.next ((((State.dropWindows_within _ _ _).mono).trans ((State.pipeFault_within _ _ _).mono)).trans
    ((State.releaseHeld_within _).mono))

theorem execKeySend_within (b) (c) (s : State) : WithinO [.outbox, .evWait, .pmuNext, .mesh] s (execKeySend b c s) := by
  unfold execKeySend
  extract_lets
  split
  · exact WithinO.next (Within.refl _)
  · split
    · exact WithinO.next (Within.refl _)
    · exact WithinO.ite (WithinO.next (Within.refl _)) (WithinO.cut (fun h1 => WithinO.cut (fun h2 => WithinO.cut (fun h3 => (by (try extract_lets); split; exact WithinO.next ((h3).trans ((State.emit_within _ _).mono)); exact WithinO.next (h3))) (((h2).trans ((State.inc_within _ _ _ _).mono)).trans ((State.pmuOcc_within _ _ _).mono))) ((h1).trans ((State.meshMod_within _ _).mono))) (((State.setKeyQueue_within _ _ _ _).mono).trans ((State.setHandle_within _ _ _).mono)))

theorem execKeyCreditReturn_within (b) (c) (s : State) : WithinO [.mesh] s (execKeyCreditReturn b c s) := by
  unfold execKeyCreditReturn
  exact WithinO.next ((State.meshMod_within _ _).mono)

theorem execVerdictReceive_within (b) (c) (msg) (s : State) : WithinO [.outbox, .timers, .evWait, .pmuNext, .frames,
    .copies, .nextId, .mesh, .adm, .sched, .tel, .fates] s (execVerdictReceive b c msg s) := by
  unfold execVerdictReceive
  exact WithinO.cut (fun h1 => (by (try extract_lets); split; exact WithinO.next (h1); exact WithinO.ite (WithinO.next (h1)) (WithinO.cut (fun h2 => (by (try extract_lets); split; exact WithinO.ite (WithinO.next (h2)) (WithinO.cut (fun h3 => WithinO.next (((h3).trans ((State.fateKnown_within _ _ _).mono)).trans ((State.releaseHeld_within _).mono))) (((h2).trans ((State.meshMod_within _ _).mono)).trans ((State.frameMod_within _ _ _).mono))); exact WithinO.next (h2))) (((State.freeHandle_within _ _).mono).trans ((State.inc_within _ _ _ _).mono))))) ((((State.inc_within _ _ _ _).mono).trans ((State.raiseEvt_within _ _ _).mono)).trans ((State.pmuOcc_within _ _ _).mono))

theorem execHandoffTimeout_within (b) (slot) (s : State) : WithinO [.outbox, .timers, .evWait, .pmuNext, .frames,
    .copies, .nextId, .mesh, .adm, .sched, .tel, .fates] s (execHandoffTimeout b slot s) := by
  unfold execHandoffTimeout
  extract_lets
  split
  · exact WithinO.next (Within.refl _)
  · exact WithinO.ite (WithinO.next (Within.refl _)) (WithinO.cut (fun h1 => WithinO.cut (fun h2 => (by (try extract_lets); split; exact WithinO.next (Within.ite (((h2).trans ((State.fateKnown_within _ _ _).mono)).trans ((State.releaseHeld_within _).mono)) (h2)); exact WithinO.next (h2))) ((h1).trans ((State.pmuOcc_within _ _ _).mono))) (((State.setKeyQueue_within _ _ _ _).mono).trans ((State.freeHandle_within _ _).mono)))

theorem State.replicateOne_within (s : State) (f) (base) (m) : Within [.outbox, .evWait, .pmuNext, .frames, .copies,
    .nextId, .adm, .sched, .tel, .fates] s (State.replicateOne s f base m) := by
  unfold State.replicateOne
  exact Within.ite ((State.dropTel_within _ _ _).mono) ((by split; exact (State.admitCopy_within _ _ _ _ _).mono; exact Within.refl _))

theorem execMulticastReplicate_within (f) (s : State) : WithinO [.outbox, .timers, .evWait, .pmuNext, .frames, .copies,
    .nextId, .adm, .sched, .tel, .fates] s (execMulticastReplicate f s) := by
  unfold execMulticastReplicate
  split
  · exact WithinO.next (Within.refl _)
  · split
    · exact WithinO.next (((Within.foldl (Within.refl _) (fun _ _ => (State.replicateOne_within _ _ _ _).mono)).trans
        ((State.pathEnd_within _ _).mono)).trans ((State.releaseHeld_within _).mono))
    · exact WithinO.next (Within.refl _)

theorem execMirrorCopy_within (f) (s : State) : WithinO [.outbox, .timers, .evWait, .pmuNext, .frames, .copies, .nextId,
    .adm, .sched, .tel, .fates] s (execMirrorCopy f s) := by
  unfold execMirrorCopy
  split
  · exact WithinO.next (Within.refl _)
  · split
    · exact WithinO.next (Within.refl _)
    · exact WithinO.ite (WithinO.next (Within.refl _)) (WithinO.cut (fun h1 => WithinO.cut (fun h2 => WithinO.next
        ((h2).trans ((State.unref_within _ _).mono))) (Within.ite ((h1).trans ((State.dropTel_within _ _ _).mono))
        (((h1).trans ((State.inc_within _ _ _ _).mono)).trans ((State.direct_within _ _ _).mono))))
        ((State.frameMod_within _ _ _).mono))

theorem State.schedMod_within (s : State) (f) : Within [.sched] s (State.schedMod s f) := by
  unfold State.schedMod
  exact (Within.sched _ _).mono

theorem State.setPortSch_within (s : State) (port) (x) : Within [.sched] s (State.setPortSch s port x) := by
  unfold State.setPortSch
  exact (State.schedMod_within _ _).mono

theorem State.nextRound_within (s : State) (port) (cls) : Within [.sched] s (State.nextRound s port cls) := by
  unfold State.nextRound
  exact (State.schedMod_within _ _).mono

theorem State.setFlowList_within (s : State) (k) (l) : Within [.sched] s (State.setFlowList s k l) := by
  unfold State.setFlowList
  exact (State.schedMod_within _ _).mono

theorem State.setClodList_within (s : State) (port) (cls) (tier) (l) : Within [.sched] s (State.setClodList s port cls
    tier l) := by
  unfold State.setClodList
  exact (State.schedMod_within _ _).mono

theorem State.setClodDef_within (s : State) (k) (n) : Within [.sched] s (State.setClodDef s k n) := by
  unfold State.setClodDef
  exact (State.schedMod_within _ _).mono

theorem State.clodNext_within (s : State) (port) (cls) (tier) : Within [.sched] s (State.clodNext s port cls tier) := by
  unfold State.clodNext
  exact Within.ite ((State.setClodList_within _ _ _ _ _).mono) (((State.setClodList_within _ _ _ _ _).mono).trans
    ((State.nextRound_within _ _ _).mono))

theorem State.clodLeave_within (s : State) (port) (cls) (tier) (clod) : Within [.sched] s (State.clodLeave s port cls
    tier clod)
  := by
  unfold State.clodLeave
  extract_lets
  split
  · exact Within.refl _
  · exact Within.cut (fun h1 => Within.ite ((h1).trans ((State.nextRound_within _ _ _).mono)) (h1))
      ((State.setClodList_within _ _ _ _ _).mono)

theorem State.clodJoin_within (s : State) (port) (cls) (tier) (clod) : Within [.sched] s (State.clodJoin s port cls tier
    clod) := by
  unfold State.clodJoin
  exact ((State.setClodDef_within _ _ _).mono).trans ((State.setClodList_within _ _ _ _ _).mono)

theorem State.clodNow_within (s : State) (c) : Within [.sched] s (State.clodNow s c) := by
  unfold State.clodNow
  exact (State.clodMod_within _ _ _).mono

theorem State.retierAt_within (s : State) (c) (port) (cls) (rejoin) : Within [.sched] s (State.retierAt s c port cls
    rejoin) := by
  unfold State.retierAt
  exact Within.ite (Within.refl _) (Within.cut (fun h1 => Within.ite ((h1).trans ((State.clodJoin_within _ _ _ _ _).mono)) (h1)) ((by split; exact (State.clodLeave_within _ _ _ _ _).mono; exact Within.refl _)))

theorem State.retier_within (s : State) (c) (rejoin) : Within [.sched] s (State.retier s c rejoin) := by
  unfold State.retier
  exact Within.foldl (Within.refl _) (fun _ _ => (State.retierAt_within _ _ _ _ _).mono)

theorem execClodRefresh_within (id) (s : State) : WithinO [.sched] s (execClodRefresh id s) := by
  unfold execClodRefresh
  exact WithinO.next (Within.ite (((State.clodNow_within _ _).mono).trans ((State.retier_within _ _ _).mono))
    (Within.refl _))

theorem execClodRejoin_within (id) (s : State) : WithinO [.sched] s (execClodRejoin id s) := by
  unfold execClodRejoin
  exact WithinO.cut (fun h1 => WithinO.next (Within.ite ((h1).trans ((State.retier_within _ _ _).mono)) (Within.refl _)))
    ((State.clodNow_within _ _).mono)

theorem State.touch_within (s : State) (pos) (flow) : Within [.sched] s (State.touch s pos flow) := by
  unfold State.touch
  exact Within.ite ((State.schedMod_within _ _).mono) (Within.refl _)

theorem State.fetchFlow_within (s : State) (pos) (flow) : Within [.outbox, .evWait, .pmuNext, .sched] s (State.fetchFlow
    s pos flow) := by
  unfold State.fetchFlow
  exact Within.ite (Within.refl _) ((((State.inc_within _ _ _ _).mono).trans ((State.pmuOcc_within _ _ _).mono)).trans
    ((State.schedMod_within _ _).mono))

theorem State.evict_within (s : State) (pos) : Within [.evWait, .sched] s (State.evict s pos) := by
  unfold State.evict
  exact Within.ite (Within.refl _) ((by split; exact ((State.inc_within _ _ _ _).mono).trans ((State.schedMod_within _ _).mono); exact Within.refl _))

theorem execCacheFetchDone_within (pos) (flow) (s : State) : WithinO [.evWait, .sched] s (execCacheFetchDone pos flow s)
    := by
  unfold execCacheFetchDone
  exact WithinO.ite (WithinO.next (((State.schedMod_within _ _).mono).trans ((State.evict_within _ _).mono)))
    (WithinO.next (Within.refl _))

theorem State.sampleBind_within (s : State) (flow) (cls) : Within [.draws, .sched] s (State.sampleBind s flow cls) := by
  unfold State.sampleBind
  exact Within.matchP ((State.draw_within _).mono) fun _ _ h1 => (h1).trans ((State.flowMod_within _ _ _).mono)

theorem State.bindFlow_within (s : State) (c) : Within [.draws, .sched] s (State.bindFlow s c) := by
  unfold State.bindFlow
  exact Within.cut (fun h1 => Within.cut (fun h2 => Within.ite (h2) (Within.ite ((h2).trans ((State.clodJoin_within _ _ _
    _ _).mono)) (((h2).trans ((State.clodNow_within _ _).mono)).trans ((State.retierAt_within _ _ _ _ _).mono))))
    (((h1).trans ((State.setFlowList_within _ _ _).mono)).trans ((State.sampleBind_within _ _ _).mono)))
    ((State.flowMod_within _ _ _).mono)

theorem State.bindDrop_within (s : State) (i) (c) (cause) : Within [.timers, .evWait, .frames, .copies, .adm, .sched,
    .tel, .fates] s (State.bindDrop s i c cause) := by
  unfold State.bindDrop
  exact Within.cut (fun h1 => (Within.ite ((h1).trans ((State.raiseEvt_within _ _ _).mono)) (h1)).trans
    ((State.discardCopy_within _ _).mono)) ((State.inc_within _ _ _ _).mono)

theorem State.enqueue_within (s : State) (i) (c) : Within [.draws, .outbox, .timers, .evWait, .pmuNext, .frames, .copies,
    .nextId, .adm, .sched, .tel, .fates] s (State.enqueue s i c) := by
  unfold State.enqueue
  split
  · exact (State.bindDrop_within _ _ _ _).mono
  · exact Within.cut (fun h1 => Within.cut (fun h2 => Within.cut (fun h3 => Within.cut (fun h4 => ((h4).trans
      ((State.fetchFlow_within _ _ _).mono)).trans ((State.touch_within _ _ _).mono)) ((h3).trans (Within.nextId _
      _).mono)) ((h2).trans ((State.copyMod_within _ _ _).mono))) ((h1).trans ((State.flowMod_within _ _ _).mono)))
      (Within.ite ((State.bindFlow_within _ _).mono) (Within.refl _))

theorem execEnqueue_within (c) (s : State) : WithinO [.draws, .outbox, .timers, .evWait, .pmuNext, .frames, .copies,
    .nextId, .adm, .sched, .tel, .fates] s (execEnqueue c s) := by
  unfold execEnqueue
  split
  · exact WithinO.next (Within.ite ((State.enqueue_within _ _ _).mono) (Within.refl _))
  · exact WithinO.next (Within.refl _)

theorem State.flowEmptied_within (s : State) (flow) : Within [.sched] s (State.flowEmptied s flow) := by
  unfold State.flowEmptied
  exact Within.cut (fun h1 => Within.ite ((((h1).trans ((State.clodLeave_within _ _ _ _ _).mono)).trans
    ((State.clodLeave_within _ _ _ _ _).mono)).trans ((State.setClodDef_within _ _ _).mono)) (h1))
    (((State.flowMod_within _ _ _).mono).trans ((State.setFlowList_within _ _ _).mono))

theorem State.classDrained_within (s : State) (port) (cls) : Within [.sched] s (State.classDrained s port cls) := by
  unfold State.classDrained
  exact Within.ite ((State.setPortSch_within _ _ _).mono) (Within.refl _)

theorem State.unqueue_within (s : State) (i) : Within [.copies, .sched] s (State.unqueue s i) := by
  unfold State.unqueue
  split
  · exact Within.refl _
  · exact Within.ite (Within.refl _) (Within.cut (fun h1 => Within.cut (fun h2 => (h2).trans ((State.classDrained_within
      _ _ _).mono)) (Within.ite ((h1).trans ((State.flowEmptied_within _ _).mono)) (h1))) (((State.flowMod_within _ _
      _).mono).trans ((State.copyMod_within _ _ _).mono)))

theorem State.discardCopies_within (s : State) (f) (k) (hk : ∀ x, Within [.timers, .evWait, .frames, .copies, .adm,
    .sched, .tel, .fates] x (k x)) : Within [.timers, .evWait, .frames, .copies, .adm, .sched, .tel, .fates] s
    (State.discardCopies s f k)
  := by
  unfold State.discardCopies
  exact Within.foldl (Within.refl _) (fun _ _ => ((hk _).trans ((State.unqueue_within _ _).mono)).trans
    ((State.discardCopy_within _ _).mono))

theorem State.shWrite_within (s : State) (p) (r) (v) : Within [.shadow] s (State.shWrite s p r v) := by
  unfold State.shWrite
  refine Within.ite (Within.refl _) ?_
  extract_lets gen t
  have h : Within [.shadow] s t := ((State.shadowSet_within _ _ _).mono).trans ((State.wrb_within _ _ _ _).mono)
  split <;> exact h.trans ((State.wr_within _ _ _).mono)

theorem execShadowWrite_within (p) (r) (v) (s : State) : WithinO [.outbox, .shadow, .mesh, .gates] s (execShadowWrite p r
    v s) := by
  unfold execShadowWrite
  exact WithinO.next ((State.cfg_within _ _ _ (fun _ => (State.shWrite_within _ _ _ _).mono)))

theorem State.applyShadow_within (s : State) (u1) : Within [.sched] s (State.applyShadow s u1) := by
  unfold State.applyShadow
  split
  · exact (State.flowMod_within _ _ _).mono
  · exact Within.cut (fun h1 => (h1).trans ((State.retier_within _ _ _).mono)) (((State.clodNow_within _ _).mono).trans
      ((State.clodMod_within _ _ _).mono))

theorem State.pacerUp_within (s : State) (port) : Within [.sched] s (State.pacerUp s port) := by
  unfold State.pacerUp
  exact (State.setPortSch_within _ _ _).mono

theorem State.handOver_within (s : State) (p) : Within [.evWait, .shadow, .mesh, .sched, .gates] s (State.handOver s p) := by
  unfold State.handOver
  refine Within.ite (Within.refl _) ?_
  extract_lets t1 t2 mine t3 t4 t5
  have h1 : Within [.evWait, .shadow, .mesh, .sched, .gates] s t1 := Within.foldl ((State.pacerUp_within _ _).mono) fun _
    _ => by
    split
    · exact (State.wr_within _ _ _).mono
    · exact Within.refl _
  have h2 : Within [.evWait, .shadow, .mesh, .sched, .gates] s t2 := h1.trans (Within.shadow _ _).mono
  have h3 : Within [.evWait, .shadow, .mesh, .sched, .gates] s t3 := Within.foldl h2 fun _ _ => (State.applyShadow_within
    _ _).mono
  have h5 : Within [.evWait, .shadow, .mesh, .sched, .gates] s t5 :=
    ((h3.trans ((State.schedMod_within _ _).mono)).trans ((State.wrf_within _ _ _ _ _).mono)).trans ((State.wrb_within _
      _ _ _).mono)
  split
  · exact (h5.trans ((State.inc_within _ _ _ _).mono)).trans ((State.ownChange_within _ _).mono)
  · exact h5

theorem execHandover_within (p) (s : State) : WithinO [.evWait, .shadow, .mesh, .sched, .gates] s (execHandover p s) := by
  unfold execHandover
  exact WithinO.next (Within.ite ((State.handOver_within _ _).mono) (Within.refl _))

theorem State.recOp_within (s : State) (cmd) (op) (hport) : Within [] s (State.recOp s cmd op hport) := by
  unfold State.recOp
  exact ((State.wrf_within _ _ _ _ _).mono).trans ((State.wrf_within _ _ _ _ _).mono)

theorem State.recRefuse_within (s : State) (cmd) : Within [] s (State.recRefuse s cmd) := by
  unfold State.recRefuse
  exact (State.wrb_within _ _ _ _).mono

theorem State.indirectWrite_within (s : State) (cmd) (hport) (pos) (op) : Within [.evWait, .sched] s (State.indirectWrite
    s cmd hport pos
  op) := by
  unfold State.indirectWrite
  exact Within.ite ((State.recRefuse_within _ _).mono) (Within.ite (((State.recRefuse_within _ _).mono).trans
    ((State.raiseEvt_within _ _ _).mono)) (Within.ite ((((State.recRefuse_within _ _).mono).trans ((State.inc_within _ _
    _ _).mono)).trans ((State.raiseEvt_within _ _ _).mono)) (Within.cut (fun h1 => ((h1).trans ((State.wrf_within _ _ _ _
    _).mono)).trans ((State.wrb_within _ _ _ _).mono)) ((State.schedMod_within _ _).mono))))

theorem State.flowRead_within (s : State) : Within [] s (State.flowRead s) := by
  unfold State.flowRead
  exact Within.ite ((State.wrs_within _ _ _).mono) ((State.recRefuse_within _ _).mono)

theorem execFlowRead_within (s : State) : WithinO [.outbox, .mesh, .gates] s (execFlowRead s) := by
  unfold execFlowRead
  exact WithinO.next ((State.cfg_within _ _ _ (fun _ => ((State.wrf_within _ _ _ _ _).mono).trans ((State.flowRead_within
    _).mono))))

theorem State.flowQuantum_within (s : State) (hport) : Within [.evWait, .sched] s (State.flowQuantum s hport) := by
  unfold State.flowQuantum
  exact (State.indirectWrite_within _ _ _ _ _).mono

theorem execFlowWriteQuantum_within (hport) (s : State) : WithinO [.outbox, .evWait, .mesh, .sched, .gates] s
    (execFlowWriteQuantum hport s) := by
  unfold execFlowWriteQuantum
  exact WithinO.next ((State.cfg_within _ _ _ (fun _ => ((State.recOp_within _ _ _ _).mono).trans
    ((State.flowQuantum_within _ _).mono))))

theorem State.flowZero_within (s : State) : Within [.sched] s (State.flowZero s) := by
  unfold State.flowZero
  exact Within.ite ((State.flowMod_within _ _ _).mono) ((State.recRefuse_within _ _).mono)

theorem execFlowZeroDeq_within (s : State) : WithinO [.outbox, .mesh, .sched, .gates] s (execFlowZeroDeq s) := by
  unfold execFlowZeroDeq
  exact WithinO.next ((State.cfg_within _ _ _ (fun _ => ((State.wrf_within _ _ _ _ _).mono).trans ((State.flowZero_within
    _).mono))))

theorem State.clodRead_within (s : State) : Within [.sched] s (State.clodRead s) := by
  unfold State.clodRead
  exact Within.ite (Within.cut (fun h1 => (h1).trans ((State.wrs_within _ _ _).mono)) ((State.clodNow_within _ _).mono))
    ((State.recRefuse_within _ _).mono)

theorem execClodRead_within (s : State) : WithinO [.outbox, .mesh, .sched, .gates] s (execClodRead s) := by
  unfold execClodRead
  exact WithinO.next ((State.cfg_within _ _ _ (fun _ => ((State.wrf_within _ _ _ _ _).mono).trans ((State.clodRead_within
    _).mono))))

theorem State.clodWrite_within (s : State) (hport) (full) : Within [.evWait, .sched] s (State.clodWrite s hport full) := by
  unfold State.clodWrite
  exact Within.cut (fun h1 => (h1).trans ((State.indirectWrite_within _ _ _ _ _).mono)) ((State.recOp_within _ _ _ _).mono)

theorem execClodWrite_within (hport) (s : State) : WithinO [.outbox, .evWait, .mesh, .sched, .gates] s (execClodWrite
    hport s) := by
  unfold execClodWrite
  exact WithinO.next ((State.cfg_within _ _ _ (fun _ => (State.clodWrite_within _ _ _).mono)))

theorem execClodWriteFull_within (hport) (s : State) : WithinO [.outbox, .evWait, .mesh, .sched, .gates] s
    (execClodWriteFull hport s) := by
  unfold execClodWriteFull
  exact WithinO.next ((State.cfg_within _ _ _ (fun _ => (State.clodWrite_within _ _ _).mono)))

theorem State.schedClear_within (s : State) : Within [.sched] s (State.schedClear s) := by
  unfold State.schedClear
  exact (Within.sched _ _).mono

theorem execSchedInit_within (s : State) : WithinO [.timers, .sched] s (execSchedInit s) := by
  unfold execSchedInit
  exact WithinO.ite (WithinO.next (((State.schedClear_within _).mono).trans ((State.startTimer_within _ _ _).mono)))
    (WithinO.next (Within.refl _))

theorem execSchedInitDone_within (s : State) : WithinO [.timers, .evWait] s (execSchedInitDone s) := by
  unfold execSchedInitDone
  exact WithinO.ite (WithinO.next ((((State.stopTimer_within _ _).mono).trans ((State.wrb_within _ _ _ _).mono)).trans
    ((State.raiseEvt_within _ _ _).mono))) (WithinO.next (Within.refl _))

theorem State.siltMod_within (s : State) (k) (f) : Within [.silt] s (State.siltMod s k f) := by
  unfold State.siltMod
  exact (Within.silt _ _).mono

theorem State.siltGo_within (s : State) (k) (st) : Within [] s (State.siltGo s k st) := by
  unfold State.siltGo
  exact (State.wrf_within _ _ _ _ _).mono

theorem State.siltCnt_within (s : State) (k) (i) (n) : Within [.evWait] s (State.siltCnt s k i n) := by
  unfold State.siltCnt
  exact (State.addCnt_within _ _ _ _ _).mono

theorem State.siltEvent_within (s : State) (k) (i) : Within [.evWait] s (State.siltEvent s k i) := by
  unfold State.siltEvent
  exact (State.raiseEvt_within _ _ _).mono

theorem State.siltEmit_within (s : State) (k) (type) (seq) (arg) (body) : Within [.draws, .outbox, .timers, .evWait,
    .silt] s (State.siltEmit s k type seq arg
  body) := by
  unfold State.siltEmit
  exact Within.cut (fun h1 => Within.matchP ((h1).trans ((State.draw_within _).mono)) fun _ _ h2 => Within.cut (fun h3 =>
    Within.cut (fun h4 => Within.ite ((h4).trans ((State.startTimer_within _ _ _).mono)) (h4)) ((h3).trans
    ((State.siltMod_within _ _ _).mono))) ((h2).trans ((State.addCnt_within _ _ _ _ _).mono))) ((State.emit_within _
    _).mono)

theorem State.siltUnseq_within (s : State) (k) (type) (arg) (body) : Within [.draws, .outbox, .timers, .evWait, .silt] s
    (State.siltUnseq s k type arg body) := by
  unfold State.siltUnseq
  exact (State.siltEmit_within _ _ _ _ _ _).mono

theorem State.siltMgmt_within (s : State) (k) (op) (operand) (body) : Within [.draws, .outbox, .timers, .evWait, .silt] s
    (State.siltMgmt s k op operand body) := by
  unfold State.siltMgmt
  exact (State.siltUnseq_within _ _ _ _ _).mono

theorem State.siltTimers_within (s : State) (k) : Within [.timers] s (State.siltTimers s k) := by
  unfold State.siltTimers
  exact Within.cut (fun h1 => Within.ite ((h1).trans ((State.stopTimer_within _ _).mono)) (Within.ite (h1) ((h1).trans
    ((State.startTimer_within _ _ _).mono)))) (Within.ite ((State.stopTimer_within _ _).mono) (Within.ite (Within.refl _)
    ((State.startTimer_within _ _ _).mono)))

theorem State.siltSendOne_within (s : State) (k) (f) : Within [.draws, .outbox, .timers, .evWait, .silt] s
    (State.siltSendOne s k f) := by
  unfold State.siltSendOne
  exact Within.cut (fun h1 => (h1).trans ((State.siltMod_within _ _ _).mono)) (((State.siltEmit_within _ _ _ _ _
    _).mono).trans ((State.siltCnt_within _ _ _ _).mono))

theorem State.siltPump_within (s : State) (k) (u2) : Within [.draws, .outbox, .timers, .evWait, .silt] s (State.siltPump
    s k u2) := by
  induction u2 generalizing s with
  | zero => exact Within.refl _
  | succ n ih =>
    unfold State.siltPump
    split
    · exact Within.refl _
    · exact Within.ite (((State.siltSendOne_within _ _ _).mono).trans (ih _)) (Within.refl _)

theorem State.siltPumpAll_within (s : State) (k) : Within [.draws, .outbox, .timers, .evWait, .silt] s (State.siltPumpAll
    s k) := by
  unfold State.siltPumpAll
  exact ((State.siltPump_within _ _ _).mono).trans ((State.siltTimers_within _ _).mono)

theorem State.siltPut_within (s : State) (k) (fs) : Within [.draws, .outbox, .timers, .evWait, .silt] s (State.siltPut s
    k fs) := by
  unfold State.siltPut
  exact ((State.siltMod_within _ _ _).mono).trans ((State.siltPumpAll_within _ _).mono)

theorem State.siltWrites_within (s : State) (k) (f) (x) : Within [.draws, .outbox, .timers, .evWait, .silt] s
    (State.siltWrites s k f x) := by
  unfold State.siltWrites
  exact Within.cut (fun h1 => (h1).trans ((State.siltPut_within _ _ _).mono)) ((State.siltMod_within _ _ _).mono)

theorem State.siltReads_within (s : State) (k) (f) : Within [.draws, .outbox, .timers, .evWait, .silt] s (State.siltReads
    s k f) := by
  unfold State.siltReads
  exact Within.cut (fun h1 => (h1).trans ((State.siltPut_within _ _ _).mono)) ((State.siltMod_within _ _ _).mono)

theorem State.tierLoss_within (s : State) (f) : Within [.timers, .evWait, .frames, .copies, .adm, .sched, .tel, .fates] s
    (State.tierLoss s f) := by
  unfold State.tierLoss
  exact (State.discardCopies_within _ _ _ (fun _ => (State.admCount_within _ _).mono)).mono

theorem State.moveBack_within (s : State) (k) (f) : Within [.timers, .evWait, .frames, .copies, .adm, .sched, .tel,
    .fates] s (State.moveBack s k f) := by
  unfold State.moveBack
  split
  · exact Within.refl _
  · exact Within.ite ((State.freeFrame_within _ _ _).mono) (Within.ite ((State.setFrame_within _ _ _).mono) (Within.ite
      ((((State.setFrame_within _ _ _).mono).trans ((State.freeMoved_within _ _).mono)).trans ((State.tierLoss_within _
      _).mono)) (((State.setFrame_within _ _ _).mono).trans ((State.freeMoved_within _ _).mono))))

theorem State.moduleLoss_within (s : State) (f) : Within [.timers, .evWait, .frames, .copies, .adm, .sched, .tel, .fates]
    s (State.moduleLoss s f) := by
  unfold State.moduleLoss
  split
  · exact Within.refl _
  · exact Within.ite ((State.freeFrame_within _ _ _).mono) ((((State.setFrame_within _ _ _).mono).trans
      ((State.freeMoved_within _ _).mono)).trans ((State.tierLoss_within _ _).mono))

theorem State.capJoin_within (s : State) (k) : Within [] s (State.capJoin s k) := by
  unfold State.capJoin
  exact (State.wr2_within _ _ _).mono

theorem State.capLeave_within (s : State) (k) : Within [] s (State.capLeave s k) := by
  unfold State.capLeave
  exact Within.ite ((State.wr2_within _ _ _).mono) (Within.refl _)

theorem State.siltUnlink_within (s : State) (k) : Within [.timers, .silt] s (State.siltUnlink s k) := by
  unfold State.siltUnlink
  exact Within.cut (fun h1 => (h1).trans (Within.timers _ _).mono) (((State.capLeave_within _ _).mono).trans
    ((State.siltMod_within _ _ _).mono))

theorem State.siltVoid_within (s : State) (k) : Within [.timers, .evWait, .frames, .copies, .adm, .sched, .tel, .silt,
    .fates] s (State.siltVoid s k) := by
  unfold State.siltVoid
  exact Within.cut (fun h1 => Within.cut (fun h2 => Within.cut (fun h3 => Within.cut (fun h4 => Within.foldl (h4) (fun _
    _ => (State.moveBack_within _ _ _).mono)) (Within.foldl (h3) (fun _ _ => (State.moduleLoss_within _ _).mono)))
    (Within.ite (h2) ((h2).trans ((State.raiseEvt_within _ _ _).mono)))) ((h1).trans (Within.adm _ _).mono))
    ((State.siltUnlink_within _ _).mono)

theorem State.resetRegs_within (s : State) (p) : Within [] s (State.resetRegs s p) := by
  exact Within.regs _ _

theorem State.dropTimers_within (s : State) (p) : Within [.timers] s (State.dropTimers s p) := by
  unfold State.dropTimers
  exact (Within.timers _ _).mono

theorem State.augMod_within (s : State) (c) (f) : Within [.aug] s (State.augMod s c f) := by
  unfold State.augMod
  exact (Within.aug _ _).mono

theorem State.augGo_within (s : State) (c) (st) : Within [] s (State.augGo s c st) := by
  unfold State.augGo
  exact (State.wrf_within _ _ _ _ _).mono

theorem State.augFaulted_within (s : State) (c) (cause) : Within [.evWait, .rings, .aug] s (State.augFaulted s c cause) := by
  unfold State.augFaulted
  exact Within.cut (fun h1 => Within.cut (fun h2 => ((((h2).trans ((State.augGo_within _ _ _).mono)).trans
    ((State.wrf_within _ _ _ _ _).mono)).trans ((State.inc_within _ _ _ _).mono)).trans ((State.raiseEvt_within _ _
    _).mono)) ((h1).trans (Within.rings _ _).mono)) ((State.augMod_within _ _ _).mono)

theorem State.augLineDown_within (s : State) : Within [.evWait, .rings, .aug] s (State.augLineDown s) := by
  unfold State.augLineDown
  exact Within.foldl (Within.refl _) (fun _ _ => Within.ite ((State.augFaulted_within _ _ _).mono) (Within.refl _))

/-- A change of the security state that leaves the lock-out alone, or moves it as R471 says. -/
theorem State.secMod_within (s : State) (f) (h : Sec.LockStep s.sec (f s.sec) := by exact .same rfl rfl) :
    Within [.sec] s (State.secMod s f) := Within.sec _ _ h

theorem State.dbgMod_within (s : State) (port) (f) : Within [.sec] s (State.dbgMod s port f) := by
  unfold State.dbgMod
  exact State.secMod_within _ _ (by cases port <;> exact .same rfl rfl)

theorem State.dbgClose_within (s : State) (port) : Within [.timers, .evWait, .sec] s (State.dbgClose s port) := by
  unfold State.dbgClose
  exact Within.ite (Within.refl _) ((((State.dbgMod_within _ _ _).mono).trans ((State.stopTimer_within _ _).mono)).trans
    ((State.raiseEvt_within _ _ _).mono))

theorem State.ppsClamp_within (s : State) : Within [.outbox] s (State.ppsClamp s) := by
  unfold State.ppsClamp
  exact Within.foldl (Within.refl _) (fun _ _ => Within.ite ((State.emit_within _ _).mono) (Within.refl _))

theorem State.resetLine_within (s : State) : Within [.timers, .evWait, .pmuNext, .lanes, .ports, .macs, .shadow, .frames,
    .copies,
    .mesh, .adm, .sched, .gates, .time, .tel, .fabric, .assay, .silt, .tilth, .harm, .fates] s (State.resetLine s) :=
  ((State.resetRegs_within s _).mono.trans (State.dropTimers_within _ lineTimer).mono).trans
    ⟨fun p hp => by cases p <;> first | exact rfl | simp at hp, .refl _, fun _ _ _ h => by cases h⟩

theorem State.countHostDown_within (s : State) : Within [.evWait] s (State.countHostDown s) := by
  unfold State.countHostDown
  exact Within.ite ((State.addCnt_within _ _ _ _ _).mono) (Within.refl _)

theorem State.resetHost_within (s : State) : Within [.timers, .evWait, .macs, .mgmt, .rings, .aug, .augTurn, .sec] s
    (State.resetHost s) := by
  unfold State.resetHost
  extract_lets t lost u
  have ht : Within [.timers, .evWait, .macs, .mgmt, .rings, .aug, .augTurn, .sec] s t :=
    ((State.dbgClose_within _ _).mono.trans (State.dbgClose_within _ _).mono).trans (State.countHostDown_within _).mono
  have hu : Within [.timers, .evWait, .macs, .mgmt, .rings, .aug, .augTurn, .sec] s u :=
    ((ht.trans (State.resetRegs_within _ _).mono).trans (State.dropTimers_within _ _).mono).trans (State.wrb_within _ _ _
      _).mono
  clear_value u
  exact hu.trans ⟨fun p hp => by cases p <;> first | exact rfl | simp at hp, .same rfl rfl, id⟩

theorem State.clearBed_within (s : State) (n) : Within [.timers, .evWait, .ports, .macs, .shadow, .mesh, .gates, .time] s
    (State.clearBed s n) := by
  unfold State.clearBed
  extract_lets mine t u m
  have ht : Within [.timers, .evWait, .ports, .macs, .shadow, .mesh, .gates, .time] s t := (State.dropTimers_within _ _).mono
  have hu : Within [.timers, .evWait, .ports, .macs, .shadow, .mesh, .gates, .time] s u :=
    (ht.trans (State.resetRegs_within _ _).mono).trans (State.loadImage_within _ _ _).mono
  clear_value m u
  exact hu.trans (.of_same (fun p hp => by cases p <;> first | exact rfl | simp at hp) rfl rfl)

theorem State.swapCut_within (s : State) (n) : Within [.harm] s (State.swapCut s n) := by
  unfold State.swapCut
  exact Within.ite (((State.setSwap_within _ _).mono).trans ((State.harmMod_within _ _).mono)) (Within.ite
    (((State.setSwap_within _ _).mono).trans ((State.harmMod_within _ _).mono)) (Within.refl _))

theorem State.resetBed_within (s : State) (n) : Within [.timers, .evWait, .ports, .macs, .shadow, .mesh, .gates, .time,
    .harm] s (State.resetBed s n) := by
  unfold State.resetBed
  exact Within.ite ((State.clearBed_within _ _).mono) (Within.cut (fun h1 => Within.cut (fun h2 => ((h2).trans
    ((State.swapCut_within _ _).mono)).trans ((State.clearBed_within _ _).mono)) ((h1).trans ((State.harmMod_within _
    _).mono))) (Within.ite ((State.keepRegion_within _ _ _).mono) (Within.refl _)))

theorem State.resetSilt_within (s : State) (k) : Within [.timers, .evWait, .lanes, .frames, .copies, .adm, .sched, .tel,
    .silt, .fates]
    s (State.resetSilt s k) := by
  unfold State.resetSilt
  extract_lets t
  have ht : Within [.timers, .evWait, .lanes, .frames, .copies, .adm, .sched, .tel, .silt, .fates] s t :=
    Within.foldl (State.siltVoid_within _ _).mono fun _ _ => (State.lanePower_within _ _ _).mono
  clear_value t
  have hr := ht.trans (State.resetRegs_within t fun h => h == .silt k).mono
  exact hr.trans (.of_same (fun p hp => by cases p <;> first | exact rfl | simp at hp) rfl rfl)

theorem State.resetIsland_within (s : State) (i) : Within allParts s (State.resetIsland s i) := by
  unfold State.resetIsland
  exact Within.ite ((State.resetHost_within _).mono) (Within.ite ((State.resetLine_within _).mono) (Within.ite
    ((State.resetBed_within _ _).mono) ((State.resetSilt_within _ _).mono)))

theorem State.toHeld_within (s : State) (i) : Within allParts s (State.toHeld s i) := by
  unfold State.toHeld
  exact Within.cut (fun h1 => Within.ite (h1) ((h1).trans ((State.setIslAt_within _ _ _).mono)))
    (((State.resetIsland_within _ _).mono).trans ((State.setIslAt_within _ _ _).mono))

theorem State.countLineLoss_within (s : State) : Within [] s (State.countLineLoss s) := by
  unfold State.countLineLoss
  exact (State.setCnt_within _ _ _).mono

theorem State.lineDown_within (s : State) : Within allParts s (State.lineDown s) := by
  unfold State.lineDown
  exact Within.cut (fun h1 => Within.cut (fun h2 => Within.foldl (h2) (fun _ _ => (State.toHeld_within _ _).mono))
    ((h1).trans ((State.toHeld_within _ _).mono))) ((((((State.countLineLoss_within _).mono).trans
    ((State.ppsClamp_within _).mono)).trans ((State.augLineDown_within _).mono)).trans ((State.dbgClose_within _
    _).mono)).trans ((State.wrs_within _ _ _).mono))

theorem State.hostDown_within (s : State) : Within allParts s (State.hostDown s) := by
  unfold State.hostDown
  exact (State.toHeld_within _ _).mono

theorem State.islandDown_within (s : State) (i) : Within allParts s (State.islandDown s i) := by
  unfold State.islandDown
  exact Within.ite ((State.hostDown_within _).mono) (Within.ite ((State.lineDown_within _).mono) ((State.toHeld_within _
    _).mono))

theorem State.settle_within (s : State) (i) (was) : Within allParts s (State.settle s i was) := by
  unfold State.settle
  split
  · exact Within.ite (((State.setIslAt_within _ _ _).mono).trans ((State.startTimer_within _ _ _).mono)) (Within.refl _)
  · exact Within.refl _
  · exact Within.ite (Within.refl _) ((State.setIslAt_within _ _ _).mono)
  · exact Within.ite (((State.resetIsland_within _ _).mono).trans ((State.setIslAt_within _ _ _).mono)) (Within.refl _)
  · exact Within.ite ((State.islandDown_within _ _).mono) (Within.refl _)

theorem State.settleAll_within (s : State) (before : State) : Within allParts s (State.settleAll s before) := by
  unfold State.settleAll
  exact Within.cut (fun h1 => Within.foldl (h1) (fun _ _ => (State.settle_within _ _ _).mono)) (Within.foldl (Within.refl
    _) (fun _ _ => Within.ite ((State.settle_within _ _ _).mono) (Within.refl _)))

theorem State.pwrRefused_within (s : State) : Within [.evWait] s (State.pwrRefused s) := by
  unfold State.pwrRefused
  exact ((State.wrb_within _ _ _ _).mono).trans ((State.raiseEvt_within _ _ _).mono)

theorem State.rstBedWrite_within (s : State) (v) : Within allParts s (State.rstBedWrite s v) := by
  unfold State.rstBedWrite
  exact Within.cut (fun h1 => Within.ite ((h1).trans ((State.pwrRefused_within _).mono)) (h1)) (((State.wr_within _ _
    _).mono).trans ((State.settleAll_within _ _).mono))

theorem State.islandCtlWrite_within (s : State) (v) : Within allParts s (State.islandCtlWrite s v) := by
  unfold State.islandCtlWrite
  exact Within.cut (fun h1 => Within.ite ((h1).trans ((State.pwrRefused_within _).mono)) (h1)) (((State.wr_within _ _
    _).mono).trans ((State.settleAll_within _ _).mono))

theorem State.bed16Up_within (s : State) : Within allParts s (State.bed16Up s) := by
  unfold State.bed16Up
  exact (((State.wrb_within _ _ _ _).mono).trans ((State.wrb_within _ _ _ _).mono)).trans ((State.settle_within _ _ _).mono)

theorem State.harmRecord_within (s : State) (head) (count) : Within [.harm] s (State.harmRecord s head count) := by
  unfold State.harmRecord
  exact Within.cut (fun h1 => Within.cut (fun h2 => Within.cut (fun h3 => Within.ite ((h3).trans ((State.wrb_within _ _ _
    _).mono)) (h3)) (((h2).trans ((State.wrb_within _ _ _ _).mono)).trans ((State.harmMod_within _ _).mono)))
    (((h1).trans ((State.wrf_within _ _ _ _ _).mono)).trans ((State.wrf_within _ _ _ _ _).mono))) ((State.wrs_within _ _
    _).mono)

theorem State.harmReport_within (s : State) (word0) : Within [.harm] s (State.harmReport s word0) := by
  unfold State.harmReport
  exact Within.ite (((State.harmMod_within _ _).mono).trans ((State.wrb_within _ _ _ _).mono)) ((State.harmMod_within _
    _).mono)

theorem State.pllRecord_within (s : State) : Within [.harm] s (State.pllRecord s) := by
  unfold State.pllRecord
  exact Within.cut (fun h1 => Within.ite (((h1).trans ((State.harmMod_within _ _).mono)).trans ((State.harmRecord_within
    _ _ _).mono)) (h1)) ((State.harmMod_within _ _).mono)

theorem State.reachOn_within (s : State) (i) : Within allParts s (State.reachOn s i) := by
  unfold State.reachOn
  extract_lets t1 cfg now x y t2
  have h1 : Within allParts s t1 := (State.setIslAt_within _ _ _).mono
  clear_value t1
  refine Within.ite ?_ (Within.ite ?_ (Within.ite ?_ h1))
  · have hw := (h1.trans (State.raiseEvt_within t1 offTimeEvt 3).mono).trans (State.wr_within _ offTelArchNow (w32 now)).mono
    have h2 : Within allParts s t2 := hw.trans (.of_same (fun p hp => absurd (by cases p <;> decide) hp) rfl rfl)
    clear_value t2
    split
    · exact (h2.trans (State.swapBegin_within _ _ _).mono).trans (State.bed16Up_within _)
    · exact h2
  · split
    · exact (h1.trans (State.loadImage_within _ _ _).mono).trans (State.harmMod_within _ _).mono
    · exact h1
  · refine Within.foldl (Within.ite (h1.trans (State.pllRecord_within _).mono) h1) fun _ _ => ?_
    extract_lets
    split
    · exact Within.ite (Within.evWait _ _).mono (Within.refl _)
    · exact Within.refl _

theorem execRailGood_within (i) (s : State) : WithinO allParts s (execRailGood i s) := by
  unfold execRailGood
  exact WithinO.ite (WithinO.cut (fun h1 => WithinO.next (Within.ite (Within.foldl (h1) (fun _ _ => (State.settle_within
    _ _ _).mono)) (h1))) ((((State.setIslAt_within _ _ _).mono).trans ((State.stopTimer_within _ _).mono)).trans
    ((State.settle_within _ _ _).mono))) (WithinO.next (Within.refl _))

theorem execRampTimeout_within (i) (s : State) : WithinO [.timers, .evWait, .pwr] s (execRampTimeout i s) := by
  unfold execRampTimeout
  exact WithinO.ite (WithinO.next (((((State.setIslAt_within _ _ _).mono).trans ((State.stopTimer_within _
    _).mono)).trans ((State.wrb_within _ _ _ _).mono)).trans ((State.raiseEvt_within _ _ _).mono))) (WithinO.next
    (Within.refl _))

theorem execIslandResetRelease_within (i) (s : State) : WithinO [.pwr] s (execIslandResetRelease i s) := by
  unfold execIslandResetRelease
  exact WithinO.ite (WithinO.cut (fun h1 => WithinO.ite (WithinO.next ((h1).trans (Within.pwr _ _).mono)) (WithinO.ite
    (WithinO.next ((h1).trans (Within.pwr _ _).mono)) (WithinO.next (h1)))) ((State.setIslAt_within _ _ _).mono))
    (WithinO.next (Within.refl _))

theorem execBridgeCentred_within (i) (s : State) : WithinO allParts s (execBridgeCentred i s) := by
  unfold execBridgeCentred
  exact WithinO.ite (WithinO.next (((State.reachOn_within _ _).mono).trans ((State.settle_within _ _ _).mono)))
    (WithinO.next (Within.refl _))

theorem State.cause_within (s : State) (i) : Within [] s (State.cause s i) := by
  unfold State.cause
  exact (State.wrb_within _ _ _ _).mono

theorem State.blowCut_within (s : State) : Within [.draws, .pwr] s (State.blowCut s) := by
  unfold State.blowCut
  extract_lets v p p1 p2 p3
  clear_value p3
  exact .of_same (fun p hp => by cases p <;> first | exact rfl | simp at hp) rfl rfl



theorem State.powerReleased_within (s : State) : Within [.timers, .pwr] s (State.powerReleased s) := by
  unfold State.powerReleased
  exact Within.cut (fun h1 => Within.foldl (h1) (fun _ _ => Within.ite (((State.setIslAt_within _ _ _).mono).trans
    ((State.startTimer_within _ _ _).mono)) (Within.refl _))) ((Within.pwr _ _).mono)





theorem execLineResetPin_within (level) (s : State) : WithinO allParts s (execLineResetPin level s) := by
  unfold execLineResetPin
  exact WithinO.cut (fun h1 => WithinO.ite (WithinO.next (h1)) (WithinO.next (((h1).trans ((State.cause_within _
    _).mono)).trans ((State.settleAll_within _ _).mono)))) ((Within.pwr _ _).mono)

theorem State.setLineHold_within (s : State) (hold) : Within allParts s (State.setLineHold s hold) := by
  unfold State.setLineHold
  exact Within.cut (fun h1 => Within.ite (((h1).trans ((State.cause_within _ _).mono)).trans ((State.settleAll_within _
    _).mono)) (h1)) ((State.wrb_within _ _ _ _).mono)

theorem execRstCtlLineHold_within (hold) (s : State) : WithinO allParts s (execRstCtlLineHold hold s) := by
  unfold execRstCtlLineHold
  exact WithinO.next ((State.cfg_within _ _ _ (fun _ => (State.setLineHold_within _ _).mono)))

theorem execRstBedWrite_within (v) (s : State) : WithinO allParts s (execRstBedWrite v s) := by
  unfold execRstBedWrite
  exact WithinO.next ((State.cfg_within _ _ _ (fun _ => (State.rstBedWrite_within _ _).mono)))

theorem execPwrIslandCtlWrite_within (v) (s : State) : WithinO allParts s (execPwrIslandCtlWrite v s) := by
  unfold execPwrIslandCtlWrite
  exact WithinO.next ((State.cfg_within _ _ _ (fun _ => (State.islandCtlWrite_within _ _).mono)))

theorem State.pllLost_within (s : State) : Within allParts s (State.pllLost s) := by
  unfold State.pllLost
  exact ((((Within.pwr _ _).mono.trans (State.wrb_within _ _ _ _).mono).trans (State.raiseEvt_within _ _ _).mono).trans
    (State.cause_within _ _).mono).trans (State.settleAll_within _ _).mono

theorem execPllRelock_within (s : State) : WithinO [.pwr] s (execPllRelock s) := by
  unfold execPllRelock
  exact WithinO.ite (WithinO.next (Within.after ((State.monSee_within _).mono) ((Within.pwr _ _).mono))) (WithinO.next
    (Within.refl _))

theorem State.monSel_within (s : State) (v) : Within [.timers, .pwr] s (State.monSel s v) := by
  unfold State.monSel
  exact Within.cut (fun h1 => Within.ite (Within.ite (Within.cut (fun h2 => (h2).trans (Within.pwr _ _).mono)
    (((h1).trans ((State.wr_within _ _ _).mono)).trans ((State.startTimer_within _ _ _).mono))) (Within.cut (fun h3 =>
    (h3).trans (Within.pwr _ _).mono) (((h1).trans ((State.wr_within _ _ _).mono)).trans ((State.stopTimer_within _
    _).mono)))) (h1)) ((State.wrf_within _ _ _ _ _).mono)

theorem execClkMonStart_within (v) (s : State) : WithinO [.outbox, .timers, .pwr, .mesh, .gates] s (execClkMonStart v s)
    := by
  unfold execClkMonStart
  exact WithinO.next ((State.cfg_within _ _ _ (fun _ => (State.monSel_within _ _).mono)))

theorem execClkMonWindowEnd_within (count) (s : State) : WithinO [.timers, .pwr] s (execClkMonWindowEnd count s) := by
  unfold execClkMonWindowEnd
  split
  · exact WithinO.next (Within.refl _)
  · exact WithinO.cut (fun h1 => WithinO.next ((h1).trans (Within.pwr _ _).mono)) (((State.stopTimer_within _
      _).mono).trans ((State.wr_within _ _ _).mono))

theorem State.countFenced_within (s : State) : Within [.evWait] s (State.countFenced s) := by
  unfold State.countFenced
  exact (State.safeInc_within _ _ _).mono

theorem State.countGrain_within (s : State) : Within [.evWait] s (State.countGrain s) := by
  unfold State.countGrain
  exact (State.safeInc_within _ _ _).mono

theorem State.dropHandle_within (s : State) (f) : Within [.timers, .mesh] s (State.dropHandle s f) := by
  unfold State.dropHandle
  split
  · split
    · exact Within.ite (((State.setKeyQueue_within _ _ _ _).mono).trans ((State.freeHandle_within _ _).mono)) (Within.refl _)
    · exact Within.refl _
  · exact Within.refl _

theorem State.fenceFrames_within (s : State) (b) : Within [.timers, .evWait, .frames, .mesh, .adm, .fates] s
    (State.fenceFrames s b) := by
  unfold State.fenceFrames
  exact Within.foldl (Within.refl _) (fun _ _ => ((((State.countFenced_within _).mono).trans ((State.reportDrop_within _
    _).mono)).trans ((State.dropHandle_within _ _).mono)).trans ((State.discardAll_within _ _).mono))

theorem State.fenceCopies_within (s : State) (p) : Within [.timers, .evWait, .frames, .copies, .adm, .sched, .tel,
    .fates] s (State.fenceCopies s p) := by
  unfold State.fenceCopies
  exact Within.foldl (Within.refl _) (fun _ _ => ((State.countFenced_within _).mono).trans ((State.discardCopy_within _
    _).mono))

theorem State.portCut_within (s : State) (b) (p) : Within [.evWait, .macs] s (State.portCut s b p) := by
  unfold State.portCut
  split
  · exact ((State.cutCount_within _ _ _ _).mono).trans ((State.openEnd_within _ _ _).mono)
  · exact Within.refl _

theorem State.closeTx_within (s : State) (b) : Within [.evWait, .macs] s (State.closeTx s b) := by
  unfold State.closeTx
  exact Within.foldl (Within.refl _) (fun _ _ => (State.portCut_within _ _ _).mono)

theorem State.marlMark_within (s : State) (copy) : Within [.evWait] s (State.marlMark s copy) := by
  unfold State.marlMark
  exact Within.cut (fun h1 => Within.ite ((h1).trans ((State.wrb_within _ _ _ _).mono)) (h1)) (((State.wrb_within _ _ _
    _).mono).trans ((State.safeEvt_within _ _).mono))

theorem State.fencePort_within (s : State) (p) : Within [.timers, .evWait, .macs, .frames, .copies, .adm, .sched, .tel,
    .fates] s (State.fencePort s p) := by
  unfold State.fencePort
  exact Within.cut (fun h1 => (by (try extract_lets); split; exact (by split; exact (((h1).trans ((State.countFenced_within _).mono)).trans ((State.portCut_within _ _ _).mono)).trans ((State.discardCopy_within _ _).mono); exact h1); exact h1)) ((State.wrb_within _ _ _ _).mono)

theorem State.fencePosition_within (s : State) (p) (on) : Within [] s (State.fencePosition s p on) := by
  unfold State.fencePosition
  exact (State.wrf_within _ _ _ _ _).mono

theorem State.freshMacs_within (s : State) (b) : Within [.timers, .macs] s (State.freshMacs s b) := by
  unfold State.freshMacs
  refine Within.foldl (Within.refl _) fun u p => ?_
  extract_lets t
  have ht : Within [.timers, .macs] u t := (State.mmDisable_within _ _ _).mono.trans (State.wr_within _ _ _).mono
  exact ht.trans (.of_same (fun p hp => by cases p <;> first | exact rfl | simp at hp) rfl rfl)

theorem State.switchAll_within (s : State) (stats) : Within [.timers, .ports, .macs, .shadow, .gates, .time] s
    (State.switchAll s stats) := by
  unfold State.switchAll
  exact Within.foldl (Within.refl _) (fun _ _ => Within.ite (Within.refl _) (Within.cut (fun h1 => Within.ite (h1)
    ((h1).trans ((State.wrb_within _ _ _ _).mono))) (((State.carryPort_within _ _ _ _ _).mono).trans ((State.wrb_within _
    _ _ _).mono))))

theorem State.finishSwap_within (s : State) (stats) : Within [.timers, .evWait, .ports, .macs, .shadow, .gates, .time,
    .harm] s (State.finishSwap s stats) := by
  unfold State.finishSwap
  exact Within.cut (fun h1 => ((h1).trans ((State.freshMacs_within _ _).mono)).trans ((State.swapDone_within _).mono))
    ((State.switchAll_within _ _).mono)

theorem State.fallowLost_within (s : State) : Within [.mesh, .gates, .harm] s (State.fallowLost s) := by
  unfold State.fallowLost
  exact Within.cut (fun h1 => Within.cut (fun h2 => ((h2).trans ((State.fencePosition_within _ _ _).mono)).trans
    ((State.harmMod_within _ _).mono)) (Within.ite ((h1).trans ((State.loadImage_within _ _ _).mono)) ((h1).trans
    ((State.keepRegion_within _ _ _).mono)))) (((State.setSwap_within _ _).mono).trans ((State.harmMod_within _ _).mono))

theorem State.swapOnFence_within (s : State) (b) : Within allParts s (State.swapOnFence s b) := by
  unfold State.swapOnFence
  exact Within.ite (Within.ite ((State.fallowLost_within _).mono) (Within.ite ((State.finishSwap_within _ _).mono)
    (Within.ite ((State.swapAbort_within _ _).mono) (Within.ite ((State.swapAbort_within _ _).mono) (Within.refl _)))))
    (Within.ite ((State.swapAbort_within _ _).mono) (Within.ite ((State.finishSwap_within _ _).mono) (Within.ite
    (((State.setSwap_within _ _).mono).trans ((State.safeEvt_within _ _).mono)) (Within.ite (Within.ite
    ((State.wrf_within _ _ _ _ _).mono) (((State.swapBegin_within _ _ _).mono).trans ((State.bed16Up_within _).mono)))
    (Within.refl _)))))

theorem State.fenceBed_within (s : State) (b) : Within allParts s (State.fenceBed s b) := by
  unfold State.fenceBed
  exact Within.ite (Within.refl _) (Within.cut (fun h1 => Within.cut (fun h2 => Within.cut (fun h3 => Within.cut (fun h4 => (h4).trans ((State.swapOnFence_within _ _).mono)) ((h3).trans ((State.harmMod_within _ _).mono))) ((by split; exact (h2).trans ((State.emit_within _ _).mono); exact h2))) (((h1).trans ((State.closeTx_within _ _).mono)).trans ((State.wrb_within _ _ _ _).mono))) (((State.fenceFrames_within _ _).mono).trans ((State.fenceCopies_within _ _).mono)))

theorem State.fence_within (s : State) (cls) (t) (ports) : Within allParts s (State.fence s cls t ports) := by
  unfold State.fence
  exact Within.ite (Within.refl _) (Within.ite (Within.foldl (Within.refl _) (fun _ _ => (State.fencePort_within _ _).mono)) ((by split; exact Within.ite ((State.fencePort_within _ _).mono) ((by split; exact (State.fenceBed_within _ _).mono; exact (State.fencePort_within _ _).mono)); exact Within.ite ((by split; exact Within.foldl (Within.refl _) (fun _ _ => (State.fencePort_within _ _).mono); exact Within.refl _)) ((State.fenceBed_within _ _).mono); exact Within.refl _)))

theorem State.declare_within (s : State) (cls) (t) (count) (ports) : Within allParts s (State.declare s cls t count
    ports) := by
  unfold State.declare
  exact Within.cut (fun h1 => ((h1).trans ((State.harmReport_within _ _).mono)).trans ((State.fence_within _ _ _
    _).mono)) ((((State.harmRecord_within _ _ _).mono).trans ((State.safeInc_within _ _ _).mono)).trans
    ((State.safeEvt_within _ _).mono))

theorem State.detectOn_within (s : State) (cls) (t) (ports) : Within allParts s (State.detectOn s cls t ports) := by
  unfold State.detectOn
  exact Within.ite (Within.refl _) (Within.ite ((((State.harmMod_within _ _).mono).trans ((State.stopTimer_within _
    _).mono)).trans ((State.declare_within _ _ _ _ _).mono)) (Within.cut (fun h1 => Within.ite (h1) ((h1).trans
    ((State.startTimer_within _ _ _).mono))) ((State.harmMod_within _ _).mono)))

theorem State.detect_within (s : State) (cls) (t) : Within allParts s (State.detect s cls t) := by
  unfold State.detect
  exact (State.detectOn_within _ _ _ _).mono

theorem State.detectTime_within (s : State) (k) : Within allParts s (State.detectTime s k) := by
  unfold State.detectTime
  exact (State.detectOn_within _ _ _ _).mono

theorem State.detectEngine_within (s : State) (e) : Within [.evWait, .harm] s (State.detectEngine s e) := by
  unfold State.detectEngine
  exact Within.ite (Within.refl _) (((((State.harmRecord_within _ _ _).mono).trans ((State.safeInc_within _ _
    _).mono)).trans ((State.safeEvt_within _ _).mono)).trans ((State.harmReport_within _ _).mono))

theorem State.cutCopies_within (s : State) (f) : Within [.evWait, .macs] s (State.cutCopies s f) := by
  unfold State.cutCopies
  exact Within.foldl (Within.refl _) (fun _ _ => (by split; exact Within.ite ((State.portCut_within _ _ _).mono) (Within.refl _); exact Within.refl _))

theorem State.loseFrame_within (s : State) (f) : Within [.timers, .evWait, .macs, .frames, .copies, .mesh, .adm, .sched,
    .tel, .fates] s (State.loseFrame s f) := by
  unfold State.loseFrame
  exact Within.cut (fun h1 => (by (try extract_lets); split; exact Within.ite (((((h1).trans ((State.countGrain_within _).mono)).trans ((State.reportDrop_within _ _).mono)).trans ((State.dropHandle_within _ _).mono)).trans ((State.discardAll_within _ _).mono)) (h1); exact h1)) (((State.cutCopies_within _ _).mono).trans ((State.discardCopies_within _ _ _ (fun _ => (State.countGrain_within _).mono)).mono))

theorem State.grainFail_within (s : State) (t) (f) : Within allParts s (State.grainFail s t f) := by
  unfold State.grainFail
  exact ((State.loseFrame_within _ _).mono).trans ((State.detect_within _ _ _).mono)

theorem State.assayMod_within (s : State) (f) : Within [.assay] s (State.assayMod s f) := by
  unfold State.assayMod
  exact (Within.assay _ _).mono

theorem State.assayCommit_within (s : State) (u1) : Within [.evWait, .assay] s (State.assayCommit s u1) := by
  unfold State.assayCommit
  exact Within.ite ((State.assayMod_within _ _).mono) (((State.wrb_within _ _ _ _).mono).trans ((State.raiseEvt_within _
    _ _).mono))

theorem State.unitCfgWrite_within (s : State) (u1) (v) : Within [.evWait, .assay] s (State.unitCfgWrite s u1 v) := by
  unfold State.unitCfgWrite
  exact Within.cut (fun h1 => Within.ite ((h1).trans ((State.assayCommit_within _ _).mono)) (h1)) ((State.wr_within _ _
    _).mono)

theorem execAssayCommit_within (u0) (v) (s : State) : WithinO [.outbox, .evWait, .mesh, .gates, .assay] s
    (execAssayCommit u0 v s) := by
  unfold execAssayCommit
  exact WithinO.next ((State.cfg_within _ _ _ (fun _ => (State.unitCfgWrite_within _ _ _).mono)))

theorem execAssayParityError_within (u0) (s : State) : WithinO [.evWait, .assay] s (execAssayParityError u0 s) := by
  unfold execAssayParityError
  exact WithinO.ite (WithinO.cut (fun h1 => WithinO.next (((h1).trans ((State.assayMod_within _ _).mono)).trans
    ((State.marlBump_within _ _).mono))) (((State.wrb_within _ _ _ _).mono).trans ((State.raiseEvt_within _ _ _).mono)))
    (WithinO.next (Within.refl _))

theorem State.assayResync_within (s : State) (u1) : Within [.assay] s (State.assayResync s u1) := by
  unfold State.assayResync
  exact (State.assayMod_within _ _).mono

theorem execAssayResync_within (u0) (v) (s : State) : WithinO [.outbox, .mesh, .gates, .assay] s (execAssayResync u0 v s)
    := by
  unfold execAssayResync
  exact WithinO.next ((State.cfg_within _ _ _ (fun _ => Within.ite ((State.assayResync_within _ _).mono) (Within.refl _))))

theorem State.assayCnt_within (s : State) (u1) (i) (n) : Within [.evWait] s (State.assayCnt s u1 i n) := by
  unfold State.assayCnt
  exact (State.addCnt_within _ _ _ _ _).mono

theorem State.assayAppend_within (s : State) (u1) (port) (bytes) : Within [.evWait, .assay] s (State.assayAppend s u1
    port bytes).2 := by
  unfold State.assayAppend
  exact Within.cut (fun h1 => Within.ite ((h1).trans ((State.assayCnt_within _ _ _ _).mono)) (h1))
    (((State.assayMod_within _ _).mono).trans ((State.assayCnt_within _ _ _ _).mono))

theorem State.assayIngress_within (s : State) (cfg) (port) (bytes) : Within [.evWait, .assay] s (State.assayIngress s cfg
    port bytes).2 := by
  unfold State.assayIngress
  refine Within.iteP (Within.refl _) ?_
  extract_lets u c n t m k a ok
  have h : Within [.evWait, .assay] s t := Within.ite ((State.assayCnt_within _ _ _ _).mono) (Within.refl _)
  refine Within.iteP ((h.trans ((State.assayCnt_within _ _ _ _).mono)).trans ((State.raiseEvt_within _ _ _).mono)) ?_
  have hok : ∀ v, Within [.evWait, .assay] v (ok v).2 := fun v => ((State.assayMod_within _ _).mono).trans
    ((State.assayCnt_within _ _ _ _).mono)
  split
  · exact h.trans (hok _)
  · extract_lets d
    refine Within.iteP (h.trans (hok _)) (Within.iteP ?_ ?_)
    · exact (h.trans (((State.assayCnt_within _ _ _ _).mono).trans ((State.raiseEvt_within _ _ _).mono))).trans (hok _)
    · exact h.trans (((State.assayCnt_within _ _ _ _).mono).trans ((State.raiseEvt_within _ _ _).mono))

theorem State.scanRead_within (s : State) (run) : Within [.assay] s (State.scanRead s run) := by
  unfold State.scanRead
  exact (State.assayMod_within _ _).mono

theorem State.scanTimer_within (s : State) : Within [.timers] s (State.scanTimer s) := by
  unfold State.scanTimer
  exact (State.startTimer_within _ _ _).mono

theorem State.scanBegin_within (s : State) : Within [.timers, .evWait, .assay] s (State.scanBegin s) := by
  unfold State.scanBegin
  exact Within.cut (fun h1 => Within.cut (fun h2 => Within.ite ((h2).trans ((State.raiseEvt_within _ _ _).mono))
    (((h2).trans ((State.scanRead_within _ _).mono)).trans ((State.wrb_within _ _ _ _).mono))) (Within.foldl (h1) (fun _
    _ => (State.wrb_within _ _ _ _).mono))) (Within.ite ((State.scanTimer_within _).mono) (Within.refl _))

theorem State.scanGo_within (s : State) : Within [.timers, .evWait, .assay] s (State.scanGo s) := by
  unfold State.scanGo
  exact Within.ite ((State.assayMod_within _ _).mono) ((State.scanBegin_within _).mono)

theorem State.scanCtlWrite_within (s : State) (v) : Within [.timers, .evWait, .assay] s (State.scanCtlWrite s v) := by
  unfold State.scanCtlWrite
  exact Within.cut (fun h1 => Within.cut (fun h2 => Within.ite ((h2).trans ((State.scanGo_within _).mono)) (h2))
    (Within.ite ((h1).trans ((State.stopTimer_within _ _).mono)) (Within.ite (h1) ((h1).trans ((State.scanTimer_within
    _).mono))))) ((State.wr_within _ _ _).mono)

theorem State.scanPeriod_within (s : State) : Within [.timers, .evWait, .assay] s (State.scanPeriod s) := by
  unfold State.scanPeriod
  exact Within.cut (fun h1 => (Within.ite (((h1).trans ((State.wrb_within _ _ _ _).mono)).trans ((State.raiseEvt_within _
    _ _).mono)) (h1)).trans ((State.scanGo_within _).mono)) ((State.stopTimer_within _ _).mono)

theorem execScanStart_within (written) (s : State) : WithinO [.outbox, .timers, .evWait, .mesh, .gates, .assay] s
    (execScanStart written s) := by
  unfold execScanStart
  split
  · exact WithinO.next ((State.cfg_within _ _ _ (fun _ => (State.scanCtlWrite_within _ _).mono)))
  · exact WithinO.ite (WithinO.next ((State.scanPeriod_within _).mono)) (WithinO.next (Within.refl _))

theorem State.scanNext_within (s : State) (rest) : Within [.timers, .evWait, .assay] s (State.scanNext s rest) := by
  unfold State.scanNext
  exact Within.ite ((State.scanRead_within _ _).mono) (Within.cut (fun h1 => Within.ite ((h1).trans
    ((State.scanBegin_within _).mono)) (h1)) ((((State.assayMod_within _ _).mono).trans ((State.wrb_within _ _ _
    _).mono)).trans ((State.raiseEvt_within _ _ _).mono)))

theorem State.scanJudge_within (s : State) (e) (check) : Within allParts s (State.scanJudge s e check) := by
  unfold State.scanJudge
  exact Within.cut (fun h1 => Within.ite (((h1).trans ((State.wr2_within _ _ _).mono)).trans ((State.wrb_within _ _ _
    _).mono)) (Within.ite (h1) (Within.cut (fun h2 => Within.cut (fun h3 => Within.ite (h3) ((h3).trans
    ((State.detect_within _ _ _).mono))) (Within.ite ((h2).trans ((State.marlMark_within _ _).mono)) (h2))) (((h1).trans
    ((State.wrb_within _ _ _ _).mono)).trans ((State.raiseEvt_within _ _ _).mono))))) ((State.wr2_within _ _ _).mono)

theorem State.signalFault_within (s : State) (b) (p) : Within [.outbox] s (State.signalFault s b p) := by
  unfold State.signalFault
  exact Within.ite (Within.refl _) ((State.emit_within _ _).mono)

theorem State.frameCut_within (s : State) (b) (p) (i) (sent) : Within [.timers, .evWait, .macs, .frames, .copies, .adm,
    .sched, .tel, .fates] s (State.frameCut s b p i sent) := by
  unfold State.frameCut
  exact Within.cut (fun h1 => Within.cut (fun h2 => ((h2).trans ((State.dropTel_within _ _ _).mono)).trans
    ((State.discardCopy_within _ _).mono)) (Within.ite ((h1).trans ((State.openEnd_within _ _ _).mono)) (h1)))
    ((State.cutCount_within _ _ _ _).mono)

theorem State.cutOpen_within (s : State) (b) (p) : Within [.timers, .evWait, .macs, .frames, .copies, .adm, .sched, .tel,
    .fates] s (State.cutOpen s b p) := by
  unfold State.cutOpen
  split
  · exact (State.frameCut_within _ _ _ _ _).mono
  · exact Within.refl _

theorem State.linkFault_within (s : State) (b) (p) (v) : Within [.outbox, .timers, .evWait, .ports, .macs, .frames,
    .copies, .adm, .sched, .tel, .fates] s (State.linkFault s b p v) := by
  unfold State.linkFault
  exact Within.ite (Within.refl _) (Within.cut (fun h1 => Within.ite ((((h1).trans ((State.raiseEvt_within _ _
    _).mono)).trans ((State.stopTimer_within _ _).mono)).trans ((State.portMod_within _ _ _ _).mono)) (Within.cut (fun h2
    => Within.cut (fun h3 => Within.cut (fun h4 => Within.ite ((h4).trans ((State.startTimer_within _ _ _).mono)) (h4))
    (((h3).trans ((State.stat_within _ _ _ _ _).mono)).trans ((State.signalFault_within _ _ _).mono))) (((h2).trans
    ((State.unsignal_within _ _ _).mono)).trans ((State.raiseEvt_within _ _ _).mono))) (Within.ite ((h1).trans
    ((State.cutOpen_within _ _ _).mono)) (h1)))) ((State.wrf_within _ _ _ _ _).mono))

theorem execRemoteFaultChange_within (b) (p) (remote) (s : State) : WithinO [.outbox, .timers, .evWait, .ports, .macs,
    .frames, .copies, .adm, .sched, .tel, .fates] s (execRemoteFaultChange b p remote s) := by
  unfold execRemoteFaultChange
  exact WithinO.ite (WithinO.next ((State.linkFault_within _ _ _ _).mono)) (WithinO.next (Within.refl _))

theorem State.toDetect_within (s : State) (b) (p) : Within [.outbox, .timers, .lanes, .macs] s (State.toDetect s b p) := by
  unfold State.toDetect
  exact Within.cut (fun h1 => Within.cut (fun h2 => ((h2).trans ((State.startTimer_within _ _ _).mono)).trans
    ((State.signalFault_within _ _ _).mono)) ((h1).trans ((State.onLanes_within _ _ _ _ (fun _ _ =>
    (((State.lanePower_within _ _ _).mono).trans ((State.laneUntrain_within _ _).mono)).trans ((State.laneMod_within _ _
    _).mono)))))) ((State.pGo_within _ _ _ _).mono)

theorem State.toLock_within (s : State) (b) (p) : Within [.timers, .macs] s (State.toLock s b p) := by
  unfold State.toLock
  exact ((State.pGo_within _ _ _ _).mono).trans ((State.startTimer_within _ _ _).mono)

theorem State.toDormant_within (s : State) (b) (p) : Within [.outbox, .timers, .evWait, .lanes, .ports, .macs, .frames,
    .copies, .adm, .sched, .tel, .fates] s (State.toDormant s b p) := by
  unfold State.toDormant
  exact Within.cut (fun h1 => Within.cut (fun h2 => (h2).trans ((State.onLanes_within _ _ _ _ (fun _ _ =>
    (State.laneDormant_within _ _).mono)))) (((h1).trans ((State.stopTimer_within _ _).mono)).trans
    ((State.linkFault_within _ _ _ _).mono))) ((((State.pGo_within _ _ _ _).mono).trans ((State.stopTimer_within _
    _).mono)).trans ((State.stopTimer_within _ _).mono))

theorem State.leaveDisabled_within (s : State) (b) (p) : Within [.outbox, .timers, .lanes, .ports, .macs] s
    (State.leaveDisabled s b p) := by
  unfold State.leaveDisabled
  exact Within.ite (Within.cut (fun h1 => Within.cut (fun h2 => Within.ite (((h2).trans ((State.pGo_within _ _ _
    _).mono)).trans ((State.onLanes_within _ _ _ _ (fun _ _ => ((State.lanePower_within _ _ _).mono).trans
    ((State.laneDormant_within _ _).mono))))) ((h2).trans ((State.toDetect_within _ _ _).mono))) (((h1).trans
    ((State.pStat_within _ _ _ _ _ _).mono)).trans ((State.pStat_within _ _ _ _ _ _).mono))) ((State.portMod_within _ _ _
    _).mono)) (Within.refl _)

theorem State.toDisabled_within (s : State) (b) (p) (lanes) : Within [.outbox, .timers, .evWait, .lanes, .ports, .macs,
    .frames, .copies, .adm, .sched, .tel, .fates] s (State.toDisabled s b p lanes) := by
  unfold State.toDisabled
  exact Within.cut (fun h1 => Within.cut (fun h2 => Within.cut (fun h3 => Within.cut (fun h4 => (h4).trans
    ((State.portMod_within _ _ _ _).mono)) (((h3).trans ((State.wr_within _ _ _).mono)).trans ((State.wrf_within _ _ _ _
    _).mono))) (((h2).trans ((State.pGo_within _ _ _ _).mono)).trans ((State.linkFault_within _ _ _ _).mono)))
    (((((h1).trans ((State.stopTimer_within _ _).mono)).trans ((State.stopTimer_within _ _).mono)).trans
    ((State.stopTimer_within _ _).mono)).trans ((State.stopTimer_within _ _).mono))) ((State.onLanes_within _ _ _ _ (fun
    _ _ => ((State.lanePower_within _ _ _).mono).trans ((State.laneForget_within _ _).mono))))

theorem State.satInc16_within (s : State) (off) (hi) (lo) : Within [] s (State.satInc16 s off hi lo) := by
  unfold State.satInc16
  exact (State.wrf_within _ _ _ _ _).mono

theorem State.toGap_within (s : State) (b) (p) (lastFail) : Within [.timers, .ports, .macs] s (State.toGap s b p
    lastFail) := by
  unfold State.toGap
  exact Within.cut (fun h1 => Within.cut (fun h2 => Within.cut (fun h3 => (h3).trans ((State.startTimer_within _ _
    _).mono)) ((h2).trans ((State.portMod_within _ _ _ _).mono))) (((h1).trans ((State.stopTimer_within _ _).mono)).trans
    ((State.satInc16_within _ _ _ _).mono))) ((((State.pGo_within _ _ _ _).mono).trans ((State.pStat_within _ _ _ _ _
    _).mono)).trans ((State.stopTimer_within _ _).mono))

theorem State.reformToGap_within (s : State) (b) (p) (lastFail) : Within [.timers, .ports, .macs] s (State.reformToGap s
    b p lastFail) := by
  unfold State.reformToGap
  exact ((((State.toGap_within _ _ _ _).mono).trans ((State.wrb_within _ _ _ _).mono)).trans ((State.pStat_within _ _ _ _
    _ _).mono)).trans ((State.pStat_within _ _ _ _ _ _).mono)

theorem State.toActive_within (s : State) (b) (p) : Within [.outbox, .timers, .evWait, .lanes, .ports, .macs, .shadow,
    .frames, .copies, .adm, .sched, .tel, .fates] s (State.toActive s b p) := by
  unfold State.toActive
  exact Within.cut (fun h1 => Within.cut (fun h2 => Within.cut (fun h3 => Within.cut (fun h4 => ((h4).trans
    ((State.shAck_within _ _ _ _).mono)).trans ((State.raiseEvt_within _ _ _).mono)) (((h3).trans
    ((State.shadowSet_within _ _ _).mono)).trans ((State.wrb_within _ _ _ _).mono))) (((h2).trans
    ((State.stopTimer_within _ _).mono)).trans ((State.linkFault_within _ _ _ _).mono))) (((((h1).trans
    ((State.pGo_within _ _ _ _).mono)).trans ((State.pStat_within _ _ _ _ _ _).mono)).trans ((State.pStat_within _ _ _ _
    _ _).mono)).trans ((State.stopTimer_within _ _).mono))) ((State.onLanes_within _ _ _ _ (fun _ _ =>
    (State.laneStore_within _ _).mono)))

theorem State.lockDone_within (s : State) (b) (p) : Within [.outbox, .timers, .evWait, .lanes, .ports, .macs, .shadow,
    .frames, .copies, .adm, .sched, .tel, .fates] s (State.lockDone s b p) := by
  unfold State.lockDone
  exact Within.ite (((State.pGo_within _ _ _ _).mono).trans ((State.startTimer_within _ _ _).mono))
    ((State.toActive_within _ _ _).mono)

theorem State.wakeLanes_within (s : State) (b) (p) : Within [.lanes] s (State.wakeLanes s b p) := by
  unfold State.wakeLanes
  exact Within.cut (fun h1 => (h1).trans ((State.onLanes_within _ _ _ _ (fun _ _ => (State.laneUseStored_within _
    _).mono)))) ((State.onLanes_within _ _ _ _ (fun _ _ => (State.lanePower_within _ _ _).mono)))

theorem State.formDormant_within (s : State) (b) (p) : Within [.outbox, .timers, .evWait, .lanes, .ports, .macs, .frames,
    .copies, .adm, .sched, .tel, .fates] s (State.formDormant s b p) := by
  unfold State.formDormant
  exact Within.ite (Within.refl _) (Within.ite (Within.ite ((State.toDormant_within _ _ _).mono) (Within.refl _))
    (Within.ite (Within.ite ((((State.pGo_within _ _ _ _).mono).trans ((State.wakeLanes_within _ _ _).mono)).trans
    ((State.startTimer_within _ _ _).mono)) ((State.toDetect_within _ _ _).mono)) (Within.refl _)))

theorem State.openDone_within (s : State) (b) (p) : Within [.outbox, .timers, .evWait, .lanes, .ports, .macs, .frames,
    .copies, .adm, .sched, .tel, .fates] s (State.openDone s b p) := by
  unfold State.openDone
  exact ((State.openEnd_within _ _ _).mono).trans ((State.formDormant_within _ _ _).mono)

theorem State.formDue_within (s : State) (b) (p) : Within [.outbox, .timers, .evWait, .lanes, .ports, .macs, .frames,
    .copies, .adm, .sched, .tel, .fates] s (State.formDue s b p) := by
  unfold State.formDue
  split
  · exact (((State.portMod_within _ _ _ _).mono).trans ((State.toDisabled_within _ _ _ _).mono)).trans
      ((State.leaveDisabled_within _ _ _).mono)
  · exact Within.refl _

theorem State.formWrite_within (s : State) (b) (p) (v) : Within [.outbox, .timers, .evWait, .lanes, .ports, .macs,
    .frames, .copies, .adm, .sched, .tel, .fates] s (State.formWrite s b p v) := by
  unfold State.formWrite
  exact Within.ite (Within.cut (fun h1 => (((h1).trans ((State.wrb_within _ _ _ _).mono)).trans ((State.raiseEvt_within _
    _ _).mono)).trans ((State.formDormant_within _ _ _).mono)) ((State.wr_within _ _ _).mono)) (Within.ite (Within.cut
    (fun h2 => Within.cut (fun h3 => Within.ite ((h3).trans ((State.formDue_within _ _ _).mono)) (h3)) ((h2).trans
    ((State.wr_within _ _ _).mono))) ((State.portMod_within _ _ _ _).mono)) (((State.wr_within _ _ _).mono).trans
    ((State.formDormant_within _ _ _).mono)))

theorem State.portWake_within (s : State) (b) (p) : Within [.outbox, .timers, .evWait, .lanes, .ports, .macs, .frames,
    .copies, .adm, .sched, .tel, .fates] s (State.portWake s b p) := by
  unfold State.portWake
  exact Within.ite ((State.formDue_within _ _ _).mono) (Within.ite ((State.leaveDisabled_within _ _ _).mono)
    ((State.formDormant_within _ _ _).mono))

theorem execPortFormWrite_within (b) (p) (v) (s : State) : WithinO [.outbox, .timers, .evWait, .lanes, .ports, .macs,
    .frames, .copies, .mesh, .adm, .sched, .gates, .tel, .fates] s (execPortFormWrite b p v s) := by
  unfold execPortFormWrite
  exact WithinO.next ((State.cfg_within _ _ _ (fun _ => (State.formWrite_within _ _ _ _).mono)))

theorem execPortDetectDone_within (b) (p) (s : State) : WithinO [.timers, .lanes, .macs] s (execPortDetectDone b p s) := by
  unfold execPortDetectDone
  exact WithinO.ite (WithinO.cut (fun h1 => WithinO.ite (WithinO.next (((h1).trans ((State.pGo_within _ _ _
    _).mono)).trans ((State.startTimer_within _ _ _).mono))) (WithinO.next ((h1).trans ((State.toLock_within _ _
    _).mono)))) ((State.onLanes_within _ _ _ _ (fun _ _ => (State.laneUseBoard_within _ _).mono)))) (WithinO.next
    (Within.refl _))

theorem State.trainLanes_within (s : State) (b) (p) (asks) : Within [.outbox, .evWait, .lanes] s (State.trainLanes s b p
    asks) := by
  unfold State.trainLanes
  exact Within.foldl (Within.refl _) (fun _ _ => (by split; exact (State.laneTrain_within _ _ _).mono; exact Within.refl _))

theorem execPortTrainDone_within (b) (p) (asks) (s : State) : WithinO [.outbox, .timers, .evWait, .lanes, .macs] s
    (execPortTrainDone b p asks s) := by
  unfold execPortTrainDone
  exact WithinO.ite (WithinO.next (((State.trainLanes_within _ _ _ _).mono).trans ((State.toLock_within _ _ _).mono)))
    (WithinO.next (Within.refl _))

theorem State.lockSpan_within (s : State) (b) (p) : Within [] s (State.lockSpan s b p) := by
  unfold State.lockSpan
  exact (State.onLanes_within _ _ _ _ (fun _ _ => (State.laneLockAll_within _ _).mono))

theorem execPortLockDone_within (b) (p) (skewNs) (s : State) : WithinO [.outbox, .timers, .evWait, .lanes, .ports, .macs,
    .shadow, .frames, .copies, .adm, .sched, .tel, .fates] s (execPortLockDone b p skewNs s) := by
  unfold execPortLockDone
  exact WithinO.ite (WithinO.ite (WithinO.next (((State.lockSpan_within _ _ _).mono).trans ((State.lockDone_within _ _
    _).mono))) (WithinO.ite (WithinO.next ((State.lockSpan_within _ _ _).mono)) (WithinO.next (Within.refl _))))
    (WithinO.next (Within.refl _))

theorem execPortExchangeConfirm_within (b) (p) (form) (fec) (s : State) : WithinO [.outbox, .timers, .evWait, .lanes,
    .ports, .macs, .shadow, .frames, .copies, .adm, .sched, .tel, .fates] s (execPortExchangeConfirm b p form
  fec s) := by
  unfold execPortExchangeConfirm
  exact WithinO.ite (WithinO.ite (WithinO.next ((State.toActive_within _ _ _).mono)) (WithinO.ite (WithinO.next
    ((State.portMod_within _ _ _ _).mono)) (WithinO.next (Within.refl _)))) (WithinO.next (Within.refl _))

theorem execPortExchangeMismatch_within (b) (p) (form) (fec) (s : State) : WithinO [.timers, .evWait, .ports, .macs] s
    (execPortExchangeMismatch b p form
  fec s) := by
  unfold execPortExchangeMismatch
  exact WithinO.ite (WithinO.next (Within.refl _)) (WithinO.ite (WithinO.next (((State.toGap_within _ _ _ _).mono).trans
    ((State.raiseEvt_within _ _ _).mono))) (WithinO.ite (WithinO.next (((State.reformToGap_within _ _ _ _).mono).trans
    ((State.raiseEvt_within _ _ _).mono))) (WithinO.next (Within.refl _))))

theorem execPortStageTimeout_within (b) (p) (s : State) : WithinO [.timers, .evWait, .ports, .macs] s
    (execPortStageTimeout b p s) := by
  unfold execPortStageTimeout
  exact WithinO.ite (WithinO.next (((State.toGap_within _ _ _ _).mono).trans ((State.raiseEvt_within _ _ _).mono)))
    (WithinO.next (Within.refl _))

theorem State.lossFields_within (s : State) (b) (p) (lane) : Within [] s (State.lossFields s b p lane) := by
  unfold State.lossFields
  exact (((State.pStat_within _ _ _ _ _ _).mono).trans ((State.wrb_within _ _ _ _).mono)).trans ((State.satInc16_within _
    _ _ _).mono)

theorem State.choose_within (s : State) (b) (p) (form) (first) : Within [.lanes, .ports] s (State.choose s b p form
    first) := by
  unfold State.choose
  exact Within.cut (fun h1 => (h1).trans ((State.onLanes_within _ _ _ _ (fun _ _ => (State.laneUseStored_within _
    _).mono)))) ((State.portMod_within _ _ _ _).mono)

theorem State.portLoss_within (s : State) (b) (p) (lane) : Within [.outbox, .timers, .evWait, .lanes, .ports, .macs,
    .frames, .copies, .adm, .sched, .tel, .fates] s (State.portLoss s b p lane) := by
  unfold State.portLoss
  exact Within.ite (Within.cut (fun h1 => Within.cut (fun h2 => (by (try extract_lets); split; exact Within.cut (fun h3 => (h3).trans ((State.startTimer_within _ _ _).mono)) ((((h2).trans ((State.pGo_within _ _ _ _).mono)).trans ((State.choose_within _ _ _ _ _).mono)).trans ((State.linkFault_within _ _ _ _).mono)); exact ((h2).trans ((State.toGap_within _ _ _ _).mono)).trans ((State.linkFault_within _ _ _ _).mono))) (Within.ite ((h1).trans ((State.wrb_within _ _ _ _).mono)) (h1))) (((State.lossFields_within _ _ _ _).mono).trans ((State.raiseEvt_within _ _ _).mono))) (Within.ite (Within.cut (fun h4 => (by (try extract_lets); split; exact (h4).trans ((State.choose_within _ _ _ _ _).mono); exact ((h4).trans ((State.reformToGap_within _ _ _ _).mono)).trans ((State.raiseEvt_within _ _ _).mono))) ((State.lossFields_within _ _ _ _).mono)) (Within.refl _))

theorem State.lanesLost_within (s : State) (b) (lost) : Within [.outbox, .timers, .evWait, .lanes, .ports, .macs,
    .frames, .copies, .adm, .sched, .tel, .fates] s (State.lanesLost s b lost) := by
  unfold State.lanesLost
  exact Within.cut (fun h1 => Within.foldl (h1) (fun _ _ => (by split; exact (State.portLoss_within _ _ _ _).mono; exact Within.refl _))) ((State.onLanes_within _ _ _ _ (fun _ _ => ((State.laneUnlock_within _ _).mono).trans ((State.laneMod_within _ _ _).mono))))

theorem execLaneLockLoss_within (b) (lost) (s : State) : WithinO [.outbox, .timers, .evWait, .lanes, .ports, .macs,
    .frames, .copies, .adm, .sched, .tel, .fates] s (execLaneLockLoss b lost s) := by
  unfold execLaneLockLoss
  exact WithinO.next (Within.ite ((State.lanesLost_within _ _ _).mono) (Within.refl _))

theorem execReformDone_within (b) (p) (asks) (s : State) : WithinO [.outbox, .timers, .evWait, .lanes, .ports, .macs,
    .shadow, .frames, .copies, .adm, .sched, .tel, .fates] s (execReformDone b p asks s) := by
  unfold execReformDone
  exact WithinO.ite (WithinO.next ((((((State.trainLanes_within _ _ _ _).mono).trans ((State.lockSpan_within _ _
    _).mono)).trans ((State.toActive_within _ _ _).mono)).trans ((State.wrb_within _ _ _ _).mono)).trans
    ((State.raiseEvt_within _ _ _).mono))) (WithinO.next (Within.refl _))

theorem execReformLimitExpire_within (b) (p) (s : State) : WithinO [.timers, .ports, .macs] s (execReformLimitExpire b p
    s) := by
  unfold execReformLimitExpire
  exact WithinO.ite (WithinO.next ((State.reformToGap_within _ _ _ _).mono)) (WithinO.next (Within.refl _))

theorem execGapRetry_within (b) (p) (s : State) : WithinO [.outbox, .timers, .evWait, .lanes, .macs] s (execGapRetry b p
    s) := by
  unfold execGapRetry
  exact WithinO.ite (WithinO.cut (fun h1 => WithinO.ite (WithinO.next ((h1).trans ((State.toDetect_within _ _ _).mono)))
    (WithinO.next ((((h1).trans ((State.pGo_within _ _ _ _).mono)).trans ((State.onLanes_within _ _ _ _ (fun _ _ =>
    (State.lanePower_within _ _ _).mono)))).trans ((State.raiseEvt_within _ _ _).mono)))) ((State.stopTimer_within _
    _).mono)) (WithinO.next (Within.refl _))

theorem execDormantWakeDone_within (b) (p) (s : State) : WithinO [.outbox, .timers, .evWait, .lanes, .ports, .macs,
    .frames, .copies, .adm, .sched, .tel, .fates] s (execDormantWakeDone b p s) := by
  unfold execDormantWakeDone
  exact WithinO.ite (WithinO.next ((((State.stopTimer_within _ _).mono).trans ((State.toLock_within _ _ _).mono)).trans
    ((State.formDormant_within _ _ _).mono))) (WithinO.next (Within.refl _))

theorem execLaneRecovered_within (b) (l) (s : State) : WithinO [.evWait, .lanes] s (execLaneRecovered b l s) := by
  unfold execLaneRecovered
  split
  · exact WithinO.ite (WithinO.next ((((State.laneLockAll_within _ _).mono).trans ((State.laneMod_within _ _
      _).mono)).trans ((State.raiseEvt_within _ _ _).mono))) (WithinO.next (Within.refl _))
  · exact WithinO.next (Within.refl _)

theorem execFaultHoldExpire_within (b) (p) (s : State) : WithinO [.timers, .ports] s (execFaultHoldExpire b p s) := by
  unfold execFaultHoldExpire
  exact WithinO.ite (WithinO.next (((State.stopTimer_within _ _).mono).trans ((State.portMod_within _ _ _ _).mono)))
    (WithinO.next (Within.refl _))

theorem State.setGateEntry_within (s : State) (k) (e) : Within [.gates] s (State.setGateEntry s k e) := by
  unfold State.setGateEntry
  exact (State.gatesMod_within _ _).mono

theorem State.gateRefresh_within (s : State) (b) (p) : Within [.evWait, .gates] s (State.gateRefresh s b p) := by
  unfold State.gateRefresh
  exact Within.cut (fun h1 => Within.cut (fun h2 => Within.cut (fun h3 => Within.ite (h3) ((h3).trans
    ((State.gateMod_within _ _ _ _).mono))) (Within.ite ((h2).trans ((State.stat_within _ _ _ _ _).mono)) (h2)))
    ((h1).trans ((State.wrb_within _ _ _ _).mono))) ((((State.wrf_within _ _ _ _ _).mono).trans ((State.wrb_within _ _ _
    _).mono)).trans ((State.wrf_within _ _ _ _ _).mono))

theorem State.gateCommit_within (s : State) (b) (p) : Within [.evWait] s (State.gateCommit s b p) := by
  unfold State.gateCommit
  exact Within.ite (((State.wrb_within _ _ _ _).mono).trans ((State.raiseEvt_within _ _ _).mono)) (Within.cut (fun h1 =>
    Within.cut (fun h2 => Within.ite ((((h2).trans ((State.wrb_within _ _ _ _).mono)).trans ((State.inc_within _ _ _
    _).mono)).trans ((State.raiseEvt_within _ _ _).mono)) (h2)) ((h1).trans ((State.wrf_within _ _ _ _ _).mono)))
    ((State.wrs_within _ _ _).mono))

theorem State.gateCommitBy_within (s : State) (b) (p) (pulse) : Within [.evWait, .gates] s (State.gateCommitBy s b p
    pulse) := by
  unfold State.gateCommitBy
  exact Within.ite (Within.refl _) (((State.gateCommit_within _ _ _).mono).trans ((State.gateMod_within _ _ _ _).mono))

theorem State.gateAbort_within (s : State) (b) (p) : Within [] s (State.gateAbort s b p) := by
  unfold State.gateAbort
  exact Within.ite ((State.wrf_within _ _ _ _ _).mono) (Within.refl _)

theorem State.gateCtlWrite_within (s : State) (b) (p) (v) : Within [.evWait, .gates] s (State.gateCtlWrite s b p v) := by
  unfold State.gateCtlWrite
  exact Within.cut (fun h1 => Within.cut (fun h2 => Within.ite ((h2).trans ((State.gateCommitBy_within _ _ _ _).mono))
    (h2)) (Within.ite ((h1).trans ((State.gateAbort_within _ _ _).mono)) (h1))) (((State.wr_within _ _ _).mono).trans
    ((State.gateRefresh_within _ _ _).mono))

theorem State.gateAdopt_within (s : State) (b) (p) : Within [.evWait, .mesh, .gates] s (State.gateAdopt s b p) := by
  unfold State.gateAdopt
  exact Within.cut (fun h1 => (((h1).trans ((State.gateRefresh_within _ _ _).mono)).trans ((State.raiseEvt_within _ _
    _).mono)).trans ((State.ownChange_within _ _).mono)) (((State.wrs_within _ _ _).mono).trans ((State.wrf_within _ _ _
    _ _).mono))

theorem execGateCommit_within (b) (p) (v) (s : State) : WithinO [.outbox, .evWait, .mesh, .gates] s (execGateCommit b p v
    s) := by
  unfold execGateCommit
  exact WithinO.next ((State.cfg_within _ _ _ (fun _ => (State.gateCtlWrite_within _ _ _ _).mono)))

theorem execGateAbort_within (b) (p) (v) (s : State) : WithinO [.outbox, .evWait, .mesh, .gates] s (execGateAbort b p v
    s) := by
  unfold execGateAbort
  exact WithinO.next ((State.cfg_within _ _ _ (fun _ => (State.gateCtlWrite_within _ _ _ _).mono)))

theorem execGateAdopt_within (b) (p) (s : State) : WithinO [.evWait, .mesh, .gates] s (execGateAdopt b p s) := by
  unfold execGateAdopt
  exact WithinO.next (Within.ite ((State.gateAdopt_within _ _ _).mono) (Within.refl _))

theorem execGateBoundary_within (b) (p) (s : State) : WithinO [.evWait, .gates] s (execGateBoundary b p s) := by
  unfold execGateBoundary
  exact WithinO.next ((State.gateRefresh_within _ _ _).mono)

theorem execGateHoldAdvance_within (b) (p) (s : State) : WithinO [.evWait, .gates] s (execGateHoldAdvance b p s) := by
  unfold execGateHoldAdvance
  exact WithinO.next (Within.ite ((State.gateRefresh_within _ _ _).mono) (Within.refl _))

theorem State.gateMiss_within (s : State) (b) (p) : Within [.evWait] s (State.gateMiss s b p) := by
  unfold State.gateMiss
  exact ((State.inc_within _ _ _ _).mono).trans ((State.raiseEvt_within _ _ _).mono)

theorem State.gateJudge_within (s : State) (b) (p) (w) : Within allParts s (State.gateJudge s b p w) := by
  unfold State.gateJudge
  exact Within.ite (Within.refl _) (Within.cut (fun h1 => (h1).trans ((State.detect_within _ _ _).mono))
    ((((State.inc_within _ _ _ _).mono).trans ((State.raiseEvt_within _ _ _).mono)).trans ((State.pmuOcc_within _ _
    _).mono)))

theorem State.gateStep_within (s : State) (k) : Within [.evWait, .gates] s (State.gateStep s k) := by
  unfold State.gateStep
  exact Within.foldl (Within.refl _) (fun _ _ => Within.ite (Within.cut (fun h1 => Within.ite (Within.cut (fun h2 =>
    Within.ite (((h2).trans ((State.inc_within _ _ _ _).mono)).trans ((State.raiseEvt_within _ _ _).mono)) (h2))
    ((h1).trans ((State.gateMod_within _ _ _ _).mono))) (h1)) ((State.gateRefresh_within _ _ _).mono)) (Within.refl _))

theorem execGateAbandon_within (b) (p) (s : State) : WithinO [.outbox, .timers, .evWait, .lanes, .ports, .macs, .frames,
    .copies, .adm, .sched, .tel, .fates] s (execGateAbandon b p s) := by
  unfold execGateAbandon
  split
  · exact WithinO.next (Within.refl _)
  · split
    · exact WithinO.next (Within.refl _)
    · exact WithinO.ite (WithinO.next (((((State.gateMiss_within _ _ _).mono).trans ((State.cutCount_within _ _ _
        _).mono)).trans ((State.openDone_within _ _ _).mono)).trans ((State.discardCopy_within _ _).mono))) (WithinO.next
        (Within.refl _))

theorem State.gateWatch_within (s : State) (b) (p) : Within allParts s (State.gateWatch s b p) := by
  unfold State.gateWatch
  exact Within.cut (fun h1 => Within.ite ((h1).trans ((State.gateMod_within _ _ _ _).mono)) (h1)) (Within.ite
    (Within.refl _) (Within.foldl ((State.gateMod_within _ _ _ _).mono) (fun _ _ => (State.gateJudge_within _ _ _
    _).mono)))

theorem State.gateTick_within (s : State) : Within allParts s (State.gateTick s) := by
  unfold State.gateTick
  exact Within.foldl (Within.refl _) (fun _ _ => (State.gateWatch_within _ _ _).mono)

theorem State.shadowListRefused_within (s : State) (b) (p) : Within [.evWait] s (State.shadowListRefused s b p) := by
  unfold State.shadowListRefused
  exact ((State.wrb_within _ _ _ _).mono).trans ((State.raiseEvt_within _ _ _).mono)

theorem State.gateListRead_within (s : State) (b) : Within [] s (State.gateListRead s b) := by
  unfold State.gateListRead
  exact (((State.wrf_within _ _ _ _ _).mono).trans ((State.wr_within _ _ _).mono)).trans ((State.wr_within _ _ _).mono)

theorem execGateListRead_within (b) (s : State) : WithinO [.outbox, .mesh, .gates] s (execGateListRead b s) := by
  unfold execGateListRead
  exact WithinO.next ((State.cfg_within _ _ _ (fun _ => (State.gateListRead_within _ _).mono)))

theorem State.gateListWrite_within (s : State) (b) : Within [.evWait, .gates] s (State.gateListWrite s b) := by
  unfold State.gateListWrite
  exact Within.cut (fun h1 => (by (try extract_lets); split <;> exact Within.ite ((h1).trans ((State.shadowListRefused_within _ _ _).mono)) ((h1).trans ((State.setGateEntry_within _ _ _).mono)))) ((State.wrf_within _ _ _ _ _).mono)

theorem execGateListWrite_within (b) (s : State) : WithinO [.outbox, .evWait, .mesh, .gates] s (execGateListWrite b s) := by
  unfold execGateListWrite
  exact WithinO.next ((State.cfg_within _ _ _ (fun _ => (State.gateListWrite_within _ _).mono)))

theorem State.addendWrite_within (s : State) (k) (v) : Within [.evWait, .time] s (State.addendWrite s k v) := by
  unfold State.addendWrite
  exact Within.cut (fun h1 => ((h1).trans ((State.wr_within _ _ _).mono)).trans ((State.wr_within _ _ _).mono))
    (Within.ite ((State.tbMod_within _ _ _).mono) (((State.wrb_within _ _ _ _).mono).trans ((State.raiseEvt_within _ _
    _).mono)))

theorem execAddendWrite_within (k) (v) (s : State) : WithinO [.outbox, .evWait, .mesh, .gates, .time] s (execAddendWrite
    k v s) := by
  unfold execAddendWrite
  exact WithinO.next ((State.cfg_within _ _ _ (fun _ => (State.addendWrite_within _ _ _).mono)))

theorem State.nowCapture_within (s : State) (k) : Within [] s (State.nowCapture s k) := by
  unfold State.nowCapture
  exact (State.wrs_within _ _ _).mono

theorem State.captureAll_within (s : State) : Within [] s (State.captureAll s) := by
  unfold State.captureAll
  exact (Within.foldl (Within.refl _) (fun _ _ => (State.wrs_within _ _ _).mono)).trans ((State.wrb_within _ _ _ _).mono)

theorem execCaptureAll_within (s : State) : WithinO [.outbox, .mesh, .gates] s (execCaptureAll s) := by
  unfold execCaptureAll
  exact WithinO.next ((State.cfg_within _ _ _ (fun _ => (State.captureAll_within _).mono)))

theorem State.actMod_within (s : State) (a) (f) : Within [.time] s (State.actMod s a f) := by
  unfold State.actMod
  exact (State.timeMod_within _ _).mono

theorem State.pulse_within (s : State) (line) : Within [.fabric] s (State.pulse s line) := by
  unfold State.pulse
  exact (Within.fabric _ _).mono

theorem State.ppsPulse_within (s : State) (j) : Within [.outbox, .timers] s (State.ppsPulse s j) := by
  unfold State.ppsPulse
  exact Within.ite (Within.refl _) (((State.emit_within _ _).mono).trans ((State.startTimer_within _ _ _).mono))

theorem State.actDo_within (s : State) (a) : Within [.outbox, .timers, .evWait, .time, .fabric] s (State.actDo s a) := by
  unfold State.actDo
  exact Within.cut (fun h1 => Within.cut (fun h2 => Within.cut (fun h3 => (h3).trans ((State.actMod_within _ _ _).mono))
    (Within.ite ((h2).trans ((State.raiseEvt_within _ _ _).mono)) (h2))) (Within.ite ((h1).trans ((State.ppsPulse_within
    _ _).mono)) (h1))) (Within.ite ((State.pulse_within _ _).mono) (Within.refl _))

theorem State.actFire_within (s : State) (a) : Within [.outbox, .timers, .evWait, .time, .fabric] s (State.actFire s a) := by
  unfold State.actFire
  exact ((State.actDo_within _ _).mono).trans ((State.actMod_within _ _ _).mono)

theorem State.actLate_within (s : State) (a) (v) : Within [.outbox, .timers, .evWait, .time, .fabric] s (State.actLate s
    a v) := by
  unfold State.actLate
  exact Within.cut (fun h1 => (h1).trans ((State.actMod_within _ _ _).mono)) ((((State.actDo_within _ _).mono).trans
    ((State.raiseEvt_within _ _ _).mono)).trans ((State.actMod_within _ _ _).mono))

theorem State.actArm_within (s : State) (a) : Within [.outbox, .timers, .evWait, .time, .fabric] s (State.actArm s a) := by
  unfold State.actArm
  exact Within.cut (fun h1 => Within.ite ((h1).trans ((State.actLate_within _ _ _).mono)) (h1)) ((State.actMod_within _ _
    _).mono)

theorem State.actStep_within (s : State) (k) : Within [.outbox, .timers, .evWait, .time, .fabric] s (State.actStep s k) := by
  unfold State.actStep
  exact Within.foldl (Within.refl _) (fun _ _ => (State.actLate_within _ _ _).mono)

theorem State.actOp_within (s : State) (op) : Within [.outbox, .timers, .evWait, .time, .fabric] s (State.actOp s op) := by
  unfold State.actOp
  have h : Within [.outbox, .timers, .evWait, .time, .fabric] s (s.wrf offActCmd 1 0 op) := (State.wrf_within _ _ _ _ _).mono
  generalize s.wrf offActCmd 1 0 op = t at h
  dsimp only
  split
  · exact h.trans ((State.wrs_within _ _ _).mono)
  · exact Within.ite (h.trans ((State.wrb_within _ _ _ _).mono)) (h.trans ((State.actMod_within _ _ _).mono))
  · exact h.trans ((State.actArm_within _ _).mono)
  · exact h.trans ((State.actMod_within _ _ _).mono)

theorem execActRead_within (s : State) : WithinO [.outbox, .timers, .evWait, .mesh, .gates, .time, .fabric] s
    (execActRead s) := by
  unfold execActRead
  exact WithinO.next ((State.cfg_within _ _ _ (fun _ => (State.actOp_within _ _).mono)))

theorem execActWrite_within (s : State) : WithinO [.outbox, .timers, .evWait, .mesh, .gates, .time, .fabric] s
    (execActWrite s) := by
  unfold execActWrite
  exact WithinO.next ((State.cfg_within _ _ _ (fun _ => (State.actOp_within _ _).mono)))

theorem execActArm_within (s : State) : WithinO [.outbox, .timers, .evWait, .mesh, .gates, .time, .fabric] s (execActArm
    s) := by
  unfold execActArm
  exact WithinO.next ((State.cfg_within _ _ _ (fun _ => (State.actOp_within _ _).mono)))

theorem execActDisarm_within (s : State) : WithinO [.outbox, .timers, .evWait, .mesh, .gates, .time, .fabric] s
    (execActDisarm s) := by
  unfold execActDisarm
  exact WithinO.next ((State.cfg_within _ _ _ (fun _ => (State.actOp_within _ _).mono)))

theorem execActFire_within (k) (slot) (s : State) : WithinO [.outbox, .timers, .evWait, .time, .fabric] s (execActFire k
    slot s) := by
  unfold execActFire
  exact WithinO.next (Within.ite ((State.actFire_within _ _).mono) (Within.refl _))

theorem State.unlockOff_within (s : State) (k) : Within [.timers] s (State.unlockOff s k) := by
  unfold State.unlockOff
  exact ((State.stopTimer_within _ _).mono).trans ((State.wrb_within _ _ _ _).mono)

theorem State.jumpRefused_within (s : State) (k) (mag) : Within [.evWait] s (State.jumpRefused s k mag) := by
  unfold State.jumpRefused
  exact (((State.wrb_within _ _ _ _).mono).trans ((State.wr_within _ _ _).mono)).trans ((State.raiseEvt_within _ _ _).mono)

theorem State.stepped_within (s : State) (k) : Within [.outbox, .timers, .evWait, .gates, .time, .tel, .fabric] s
    (State.stepped s k) := by
  unfold State.stepped
  exact Within.ite (Within.ite ((State.wrf_within _ _ _ _ _).mono) (Within.refl _)) ((((State.actStep_within _
    _).mono).trans ((State.telStep_within _ _).mono)).trans ((State.gateStep_within _ _).mono))

theorem State.tbGo_within (s : State) (k) (v) (mag) (op) : Within [.timers, .evWait, .time] s (State.tbGo s k v mag op) := by
  unfold State.tbGo
  exact Within.cut (fun h1 => Within.ite (h1) (Within.ite ((h1).trans ((State.wrb_within _ _ _ _).mono)) (Within.cut (fun
    h2 => Within.ite ((h2).trans ((State.tbMod_within _ _ _).mono)) ((h2).trans ((State.jumpRefused_within _ _ _).mono)))
    ((h1).trans ((State.unlockOff_within _ _).mono))))) ((State.wr_within _ _ _).mono)

theorem State.tbSet_within (s : State) (k) (v) : Within [.timers, .evWait, .time] s (State.tbSet s k v) := by
  unfold State.tbSet
  exact (State.tbGo_within _ _ _ _ _).mono

theorem State.tbStep_within (s : State) (k) (v) : Within [.timers, .evWait, .time] s (State.tbStep s k v) := by
  unfold State.tbStep
  exact (State.tbGo_within _ _ _ _ _).mono

theorem State.tbSlew_within (s : State) (k) (v) : Within [.timers, .evWait, .time] s (State.tbSlew s k v) := by
  unfold State.tbSlew
  exact (State.tbGo_within _ _ _ _ _).mono

theorem State.tbNothing_within (s : State) (k) (v) : Within [.timers, .evWait, .time] s (State.tbNothing s k v) := by
  unfold State.tbNothing
  exact (State.tbGo_within _ _ _ _ _).mono

theorem execTbSet_within (k) (v) (s : State) : WithinO [.outbox, .timers, .evWait, .mesh, .gates, .time] s (execTbSet k v
    s) := by
  unfold execTbSet
  exact WithinO.next ((State.cfg_within _ _ _ (fun _ => (State.tbSet_within _ _ _).mono)))

theorem execTbStep_within (k) (v) (s : State) : WithinO [.outbox, .timers, .evWait, .mesh, .gates, .time] s (execTbStep k
    v s) := by
  unfold execTbStep
  exact WithinO.next ((State.cfg_within _ _ _ (fun _ => (State.tbStep_within _ _ _).mono)))

theorem execTbSlew_within (k) (v) (s : State) : WithinO [.outbox, .timers, .evWait, .mesh, .gates, .time] s (execTbSlew k
    v s) := by
  unfold execTbSlew
  exact WithinO.next ((State.cfg_within _ _ _ (fun _ => (State.tbSlew_within _ _ _).mono)))

theorem execSlewEnd_within (k) (s : State) : WithinO [.time] s (execSlewEnd k s) := by
  unfold execSlewEnd
  exact WithinO.ite (WithinO.next ((State.tbMod_within _ _ _).mono)) (WithinO.next (Within.refl _))

theorem State.unlockWrite_within (s : State) (port) (k) (v) : Within [.timers, .evWait] s (State.unlockWrite s port k v)
    := by
  unfold State.unlockWrite
  exact (State.lk_within _ _ _ _ _ (fun _ => Within.ite (((State.startTimer_within _ _ _).mono).trans ((State.wrb_within
    _ _ _ _).mono)) ((State.unlockOff_within _ _).mono)))

theorem execUnlockWrite_within (k) (v) (s : State) : WithinO [.outbox, .timers, .evWait, .mesh, .gates] s
    (execUnlockWrite k v s) := by
  unfold execUnlockWrite
  exact WithinO.next ((State.cfg_within _ _ _ (fun _ => (State.unlockWrite_within _ _ _ _).mono)))

theorem execUnlockExpire_within (k) (s : State) : WithinO [.timers, .evWait] s (execUnlockExpire k s) := by
  unfold execUnlockExpire
  exact WithinO.ite (WithinO.next (((State.unlockOff_within _ _).mono).trans ((State.raiseEvt_within _ _ _).mono)))
    (WithinO.next (Within.refl _))

theorem State.pairSwitch_within (s : State) (k) : Within [.evWait] s (State.pairSwitch s k) := by
  unfold State.pairSwitch
  exact Within.ite (Within.refl _) (Within.ite (((State.wr_within _ _ _).mono).trans ((State.wrf_within _ _ _ _ _).mono))
    (((State.wrb_within _ _ _ _).mono).trans ((State.raiseEvt_within _ _ _).mono)))

theorem State.pairReturn_within (s : State) (k) : Within [] s (State.pairReturn s k) := by
  unfold State.pairReturn
  exact (State.wrf_within _ _ _ _ _).mono

theorem State.pairCtlWrite_within (s : State) (k) (v) : Within [.evWait] s (State.pairCtlWrite s k v) := by
  unfold State.pairCtlWrite
  exact Within.cut (fun h1 => Within.cut (fun h2 => Within.ite ((h2).trans ((State.pairReturn_within _ _).mono)) (h2))
    (Within.ite ((h1).trans ((State.pairSwitch_within _ _).mono)) (h1))) ((State.wr_within _ _ _).mono)

theorem execPairSwitch_within (k) (v) (s : State) : WithinO [.outbox, .evWait, .mesh, .gates] s (execPairSwitch k v s) := by
  unfold execPairSwitch
  exact WithinO.next ((State.cfg_within _ _ _ (fun _ => (State.pairCtlWrite_within _ _ _).mono)))

theorem execPairReturn_within (k) (v) (s : State) : WithinO [.outbox, .evWait, .mesh, .gates] s (execPairReturn k v s) := by
  unfold execPairReturn
  exact WithinO.next ((State.cfg_within _ _ _ (fun _ => (State.pairCtlWrite_within _ _ _).mono)))

theorem execPairSwitchDone_within (k) (s : State) : WithinO [.evWait, .time] s (execPairSwitchDone k s) := by
  unfold execPairSwitchDone
  exact WithinO.ite (WithinO.next ((State.pairFollow_within _ _).mono)) (WithinO.next (Within.refl _))

theorem State.pairTick_within (s : State) (k) : Within [.evWait, .time] s (State.pairTick s k) := by
  unfold State.pairTick
  exact Within.cut (fun h1 => Within.ite ((h1).trans ((State.tbMod_within _ _ _).mono)) (Within.ite (h1) (Within.cut (fun
    h2 => Within.ite ((h2).trans ((State.pairFollow_within _ _).mono)) ((h2).trans ((State.tbMod_within _ _ _).mono)))
    ((h1).trans ((State.tbMod_within _ _ _).mono))))) (Within.ite (((State.tbMod_within _ _ _).mono).trans
    ((State.wrb_within _ _ _ _).mono)) (Within.refl _))

theorem State.tbApply_within (s : State) (k) (op) : Within [.outbox, .timers, .evWait, .gates, .time, .tel, .fabric] s
    (State.tbApply s k op) := by
  unfold State.tbApply
  exact Within.cut (fun h1 => (by (try extract_lets); split; exact (h1).trans ((State.ownTick_within _ _).mono); exact ((h1).trans ((State.tbMod_within _ _ _).mono)).trans ((State.stepped_within _ _).mono); exact ((h1).trans ((State.tbMod_within _ _ _).mono)).trans ((State.stepped_within _ _).mono); exact ((h1).trans ((State.tbMod_within _ _ _).mono)).trans ((State.ownTick_within _ _).mono))) ((State.tbMod_within _ _ _).mono)

theorem State.tbTick_within (s : State) (k) : Within [.outbox, .timers, .evWait, .gates, .time, .tel, .fabric] s
    (State.tbTick s k) := by
  unfold State.tbTick
  split
  · exact (State.tbApply_within _ _ _).mono
  · exact (State.ownTick_within _ _).mono

theorem State.timeTick_within (s : State) : Within [.outbox, .timers, .evWait, .gates, .time, .tel, .fabric] s
    (State.timeTick s) := by
  unfold State.timeTick
  exact Within.cut (fun h1 => Within.cut (fun h2 => Within.ite (h2) (Within.cut (fun h3 => Within.cut (fun h4 =>
    Within.foldl (h4) (fun _ _ => Within.ite (Within.refl _) ((State.pairTick_within _ _).mono))) (Within.foldl (h3) (fun
    _ _ => Within.ite ((State.tbMod_within _ _ _).mono) (Within.refl _)))) (Within.foldl (h2) (fun _ _ => Within.ite
    (Within.refl _) ((State.tbTick_within _ _).mono))))) (Within.foldl (h1) (fun _ _ => (State.tbTick_within _ _).mono)))
    (Within.foldl (Within.refl _) (fun _ _ => (State.tbTick_within _ _).mono))

theorem State.setTsq_within (s : State) (b) (p) (q) : Within [.time] s (State.setTsq s b p q) := by
  unfold State.setTsq
  exact Within.cut (fun h1 => ((h1).trans ((State.wrf_within _ _ _ _ _).mono)).trans ((State.wrs_within _ _ _).mono))
    ((State.timeMod_within _ _).mono)

theorem State.tsqWrite_within (s : State) (b) (p) (v) : Within [.time] s (State.tsqWrite s b p v) := by
  unfold State.tsqWrite
  exact Within.cut (fun h1 => Within.ite ((h1).trans ((State.setTsq_within _ _ _ _).mono)) (h1)) (Within.ite
    ((State.wrb_within _ _ _ _).mono) (Within.refl _))

theorem execTsqPop_within (b) (p) (v) (s : State) : WithinO [.outbox, .mesh, .gates, .time] s (execTsqPop b p v s) := by
  unfold execTsqPop
  exact WithinO.next ((State.cfg_within _ _ _ (fun _ => (State.tsqWrite_within _ _ _ _).mono)))

theorem State.tsCapture_within (s : State) (b) (p) (words) : Within [.evWait, .time] s (State.tsCapture s b p words).2 := by
  unfold State.tsCapture
  exact Within.cut (fun h1 => Within.iteP ((((h1).trans ((State.inc_within _ _ _ _).mono)).trans ((State.wrb_within _ _ _
    _).mono)).trans ((State.raiseEvt_within _ _ _).mono)) (Within.cut (fun h2 => Within.ite ((h2).trans
    ((State.raiseEvt_within _ _ _).mono)) (h2)) (((h1).trans ((State.setTsq_within _ _ _ _).mono)).trans
    ((State.inc_within _ _ _ _).mono)))) ((State.timeMod_within _ _).mono)

theorem State.setPpsQ_within (s : State) (i) (q) : Within [.time] s (State.setPpsQ s i q) := by
  unfold State.setPpsQ
  exact Within.cut (fun h1 => ((h1).trans ((State.wrf_within _ _ _ _ _).mono)).trans ((State.wrs_within _ _ _).mono))
    ((State.timeMod_within _ _).mono)

theorem execPpsInEdge_within (i) (falling) (s : State) : WithinO [.evWait, .time] s (execPpsInEdge i falling s) := by
  unfold execPpsInEdge
  exact WithinO.ite (WithinO.next (Within.refl _)) (WithinO.ite (WithinO.next (((State.wrb_within _ _ _ _).mono).trans
    ((State.raiseEvt_within _ _ _).mono))) (WithinO.next (((State.setPpsQ_within _ _ _).mono).trans
    ((State.raiseEvt_within _ _ _).mono))))

theorem execPpsInPop_within (i) (s : State) : WithinO [.outbox, .mesh, .gates, .time] s (execPpsInPop i s) := by
  unfold execPpsInPop
  exact WithinO.next ((State.cfg_within _ _ _ (fun _ => (State.setPpsQ_within _ _ _).mono)))

theorem execPpsOutEnd_within (j) (s : State) : WithinO [.outbox, .timers] s (execPpsOutEnd j s) := by
  unfold execPpsOutEnd
  exact WithinO.ite (WithinO.next (((State.stopTimer_within _ _).mono).trans ((State.emit_within _ _).mono)))
    (WithinO.next (Within.refl _))

theorem State.ref10Write_within (s : State) (v) : Within [.time] s (State.ref10Write s v) := by
  unfold State.ref10Write
  exact Within.cut (fun h1 => Within.ite (((h1).trans ((State.wrf_within _ _ _ _ _).mono)).trans ((State.timeMod_within _
    _).mono)) (h1)) ((State.wr_within _ _ _).mono)

theorem execRef10Go_within (v) (s : State) : WithinO [.outbox, .mesh, .gates, .time] s (execRef10Go v s) := by
  unfold execRef10Go
  exact WithinO.next ((State.cfg_within _ _ _ (fun _ => (State.ref10Write_within _ _).mono)))

theorem execRef10Done_within (elapsed) (noSignal) (s : State) : WithinO [.time] s (execRef10Done elapsed noSignal s) := by
  unfold execRef10Done
  exact WithinO.ite (WithinO.next (Within.refl _)) (WithinO.cut (fun h1 => WithinO.next (Within.ite ((h1).trans
    ((State.wrb_within _ _ _ _).mono)) ((h1).trans ((State.wr_within _ _ _).mono)))) (((State.wrb_within _ _ _
    _).mono).trans ((State.timeMod_within _ _).mono)))

theorem State.monJudge_within (s : State) (m) (bad) : Within allParts s (State.monJudge s m bad) := by
  unfold State.monJudge
  exact Within.cut (fun h1 => Within.ite (((h1).trans ((State.raiseEvt_within _ _ _).mono)).trans
    ((State.detectTime_within _ _).mono)) (h1)) ((State.timeMod_within _ _).mono)

theorem execTimeMonSample_within (m) (noEdge) (s : State) : WithinO allParts s (execTimeMonSample m noEdge s) := by
  unfold execTimeMonSample
  exact WithinO.ite (WithinO.next (Within.refl _)) (WithinO.ite (WithinO.next (Within.ite ((State.monJudge_within _ _
    _).mono) (Within.refl _))) (WithinO.cut (fun h1 => WithinO.next ((h1).trans ((State.monJudge_within _ _ _).mono)))
    ((State.wr_within _ _ _).mono)))

theorem State.typeCount_within (s : State) (m) (at0) (bins) (cfg) (bytes) (length) : Within [.evWait] s (State.typeCount
    s m at0
  bins cfg bytes length) := by
  unfold State.typeCount
  exact Within.cut (fun h1 => Within.cut (fun h2 => (h2).trans ((State.mst_within _ _ _ _).mono)) (Within.ite ((h1).trans
    ((State.mst_within _ _ _ _).mono)) (h1))) ((State.mst_within _ _ _ _).mono)

theorem State.rxCount_within (s : State) (m) (code) (cfg) (bytes) (e) : Within [.evWait] s (State.rxCount s m code cfg
    bytes e) := by
  unfold State.rxCount
  extract_lets length t1 t2 t3
  have h1 : Within [.evWait] s t1 := ((State.mst_within _ _ _ _).mono).trans ((State.mst_within _ _ _ _).mono)
  have h2 : Within [.evWait] s t2 := Within.ite
    (((h1.trans ((State.mst_within _ _ _ _).mono)).trans ((State.mst_within _ _ _ _).mono)).trans
      ((State.typeCount_within ..).mono)) h1
  have h3 : Within [.evWait] s t3 := Within.ite (h2.trans ((State.mst_within _ _ _ _).mono)) (Within.ite (h2.trans
    ((State.mst_within _ _ _ _).mono)) h2)
  clear_value t3
  split
  · exact h3.trans ((State.mst_within _ _ _ _).mono)
  · exact h3.trans ((State.mst_within _ _ _ _).mono)
  · exact h3.trans ((State.mst_within _ _ _ _).mono)
  · exact h3

theorem State.toParser_within (s : State) (b) (p) (bytes) (ago) : Within [.timers, .evWait, .frames, .nextId, .mesh] s
    (State.toParser s b p bytes ago) := by
  unfold State.toParser
  exact Within.ite (Within.ite ((State.rxDiscard_within _ _ _).mono) (((State.beatTake_within _ _).mono).trans
    ((State.addFrame_within _ _).mono))) (Within.ite ((State.inc_within _ _ _ _).mono) ((State.addFrame_within _ _).mono))

theorem State.deliverBad_within (s : State) (b) (p) (err) (bytes) (ago) : Within [.outbox, .timers, .evWait, .pmuNext,
    .frames, .copies, .nextId, .adm, .sched, .tel, .fates] s (State.deliverBad s b p err bytes
  ago) := by
  unfold State.deliverBad
  exact Within.ite ((State.rxDiscard_within _ _ _).mono) (Within.matchP (((State.mst_within _ _ _ _).mono).trans
    ((State.addFrame_within _ _).mono)) fun _ _ h1 => (h1).trans ((State.deliver_within _ _ _).mono))

theorem State.rxControl_within (s : State) (b) (p) (bytes) : Within [.timers, .evWait, .macs] s (State.rxControl s b p
    bytes) := by
  unfold State.rxControl
  extract_lets
  split
  · exact (State.ctlFrame_within _ _ _ _ _ _ _).mono
  · exact (State.ctlFrame_within _ _ _ _ _ _ _).mono
  · exact (((State.mst_within _ _ _ _).mono).trans ((State.mst_within _ _ _ _).mono)).trans ((State.rxDiscard_within _ _
      _).mono)

theorem State.rxGood_within (s : State) (b) (p) (bytes) (ago) : Within [.outbox, .timers, .evWait, .pmuNext, .frames,
    .copies, .nextId, .mesh, .adm, .sched, .tel, .assay, .fates] s (State.rxGood s b p bytes ago) := by
  unfold State.rxGood
  have h : Within [.outbox, .timers, .evWait, .pmuNext, .frames, .copies, .nextId, .mesh, .adm, .sched, .tel, .assay,
    .fates] s _ := (State.assayIngress_within s (s.parseCfg b) (s.portNo (16 * b + p)) bytes).mono
  split <;> rename_i e <;> rw [e] at h
  · exact h.trans ((State.toParser_within _ _ _ _ _).mono)
  · exact h.trans ((State.toParser_within _ _ _ _ _).mono)
  · exact Within.ite (h.trans ((State.deliverBad_within _ _ _ _ _ _).mono)) (h.trans ((State.assayCnt_within _ _ _ _).mono))
  · exact h

theorem State.rxWhole_within (s : State) (b) (p) (bytes) (e) (ago) : Within [.outbox, .timers, .evWait, .pmuNext, .macs,
    .frames, .copies, .nextId, .mesh, .adm, .sched, .tel, .assay, .fates] s (State.rxWhole s b p bytes e ago) := by
  unfold State.rxWhole
  exact Within.ite ((State.rxControl_within _ _ _ _).mono) (Within.cut (fun h1 => Within.ite ((h1).trans
    ((State.rxDiscard_within _ _ _).mono)) (Within.ite ((h1).trans ((State.rxGood_within _ _ _ _ _).mono)) (Within.ite
    ((h1).trans ((State.deliverBad_within _ _ _ _ _ _).mono)) ((h1).trans ((State.rxDiscard_within _ _ _).mono)))))
    ((State.rxCount_within _ _ _ _ _ _).mono))

theorem execMacReceiveFrame_within (b) (p) (smd) (bytes) (rest) (pcsErr) (cut) (gapPs) (fecCorr) (fecUncorr) (fecSym)
  (s : State) : WithinO [.outbox, .timers, .evWait, .pmuNext, .macs, .frames, .copies, .nextId, .mesh, .adm, .sched,
    .tel, .assay, .fates] s (execMacReceiveFrame b p smd bytes rest pcsErr cut gapPs fecCorr fecUncorr fecSym s) := by
  unfold execMacReceiveFrame
  exact WithinO.ite (WithinO.next (Within.refl _)) (WithinO.ite (WithinO.next ((State.rxDiscard_within _ _ _).mono))
    (WithinO.ite (WithinO.next (Within.refl _)) (WithinO.cut (fun h1 => WithinO.ite (WithinO.next (h1)) (WithinO.cut (fun
    h2 => WithinO.cut (fun h3 => WithinO.next ((h3).trans ((State.rxWhole_within _ _ _ _ _ _).mono))) (Within.ite
    ((h2).trans ((State.mst_within _ _ _ _).mono)) (h2))) (Within.ite (h1) ((h1).trans ((State.mst_within _ _ _
    _).mono))))) (Within.ite ((State.laneFec_within _ _ _ _ _ _).mono) (Within.refl _)))))

theorem State.admMod_within (s : State) (f) : Within [.adm] s (State.admMod s f) := by
  unfold State.admMod
  exact (Within.adm _ _).mono

theorem State.spillMod_within (s : State) (u1) (f) : Within [.adm] s (State.spillMod s u1 f) := by
  unfold State.spillMod
  exact (State.admMod_within _ _).mono

theorem State.fetchMod_within (s : State) (u1) (f) : Within [.adm] s (State.fetchMod s u1 f) := by
  unfold State.fetchMod
  exact (State.admMod_within _ _).mono

theorem State.moveCancel_within (s : State) (f) : Within [.evWait, .frames] s (State.moveCancel s f) := by
  unfold State.moveCancel
  exact ((State.frameMod_within _ _ _).mono).trans ((State.inc_within _ _ _ _).mono)

theorem State.pmuQueued_within (s : State) (src) (f) : Within [.outbox, .pmuNext] s (State.pmuQueued s src f) := by
  unfold State.pmuQueued
  split
  · exact (State.pmuOcc_within _ _ _).mono
  · exact Within.refl _

theorem State.issueMove_within (s : State) (f) (u2) (x) : Within [.draws, .outbox, .timers, .evWait, .pmuNext, .frames,
    .adm, .silt] s (State.issueMove s f u2 x) := by
  unfold State.issueMove
  exact Within.cut (fun h1 => Within.ite ((h1).trans ((State.admMod_within _ _).mono)) ((h1).trans
    ((State.siltWrites_within _ _ _ _).mono))) ((((State.pmuQueued_within _ _ _).mono).trans ((State.spillMod_within _ _
    _).mono)).trans ((State.frameMod_within _ _ _).mono))

theorem execSpillMove_within (f) (link) (grainBad) (s : State) : WithinO allParts s (execSpillMove f link grainBad s) := by
  unfold execSpillMove
  split
  · exact WithinO.next (Within.refl _)
  · exact WithinO.ite (WithinO.next (Within.refl _)) (WithinO.ite (WithinO.next ((State.moveCancel_within _ _).mono)) ((by split; exact WithinO.next (Within.refl _); exact WithinO.next (Within.ite ((State.grainFail_within _ _ _).mono) ((State.issueMove_within _ _ _ _).mono)))))

theorem State.movedTo_within (s : State) (f) (u2) (x) : Within [.timers, .evWait, .frames] s (State.movedTo s f u2 x) := by
  unfold State.movedTo
  exact Within.cut (fun h1 => (h1).trans ((State.frameMod_within _ _ _).mono)) (((State.occSub_within _ _ _).mono).trans
    ((State.inc_within _ _ _ _).mono))

theorem State.moveAcked_within (s : State) (f) (u2) (x) : Within [.timers, .evWait, .frames, .adm] s (State.moveAcked s f
    u2 x) := by
  unfold State.moveAcked
  exact Within.cut (fun h1 => Within.ite ((h1).trans ((State.freeFrame_within _ _ _).mono)) (Within.ite (((h1).trans
    ((State.setFrame_within _ _ _).mono)).trans ((State.freeMoved_within _ _).mono)) (Within.ite (((h1).trans
    ((State.setFrame_within _ _ _).mono)).trans ((State.freeMoved_within _ _).mono)) (((h1).trans ((State.setFrame_within
    _ _ _).mono)).trans ((State.movedTo_within _ _ _ _).mono))))) (((State.spillMod_within _ _ _).mono).trans
    ((State.occAdd_within _ _ _).mono))

theorem execMoveAck_within (f) (s : State) : WithinO [.timers, .evWait, .frames, .adm] s (execMoveAck f s) := by
  unfold execMoveAck
  split
  · exact WithinO.next (Within.refl _)
  · split
    · exact WithinO.next (Within.ite ((State.moveAcked_within _ _ _ _).mono) (Within.refl _))
    · exact WithinO.next (Within.refl _)

theorem execPrefetchIssue_within (f) (s : State) : WithinO [.draws, .outbox, .timers, .evWait, .pmuNext, .frames, .adm,
    .silt] s (execPrefetchIssue f s) := by
  unfold execPrefetchIssue
  split
  · exact WithinO.next (Within.refl _)
  · exact WithinO.next (Within.ite (Within.cut (fun h1 => Within.ite ((h1).trans ((State.siltReads_within _ _ _).mono))
      (h1)) ((((State.pmuQueued_within _ _ _).mono).trans ((State.fetchMod_within _ _ _).mono)).trans
      ((State.frameMod_within _ _ _).mono))) (Within.refl _))

theorem State.fetched_within (s : State) (f) (x) : Within [.timers, .evWait, .frames] s (State.fetched s f x) := by
  unfold State.fetched
  exact Within.cut (fun h1 => (h1).trans ((State.frameMod_within _ _ _).mono)) ((((State.occSub_within _ _ _).mono).trans
    ((State.occAdd_within _ _ _).mono)).trans ((State.inc_within _ _ _ _).mono))

theorem State.fetchDone_within (s : State) (f) (x) (grainBad) : Within allParts s (State.fetchDone s f x grainBad) := by
  unfold State.fetchDone
  exact Within.cut (fun h1 => Within.ite (((h1).trans ((State.freeFrame_within _ _ _).mono)).trans
    ((State.writeWaiting_within _).mono)) (Within.cut (fun h2 => Within.ite ((h2).trans ((State.grainFail_within _ _
    _).mono)) ((h2).trans ((State.fetched_within _ _ _).mono))) ((h1).trans ((State.frameMod_within _ _ _).mono))))
    ((State.fetchMod_within _ _ _).mono)

theorem execPrefetchComplete_within (f) (grainBad) (s : State) : WithinO allParts s (execPrefetchComplete f grainBad s) := by
  unfold execPrefetchComplete
  split
  · exact WithinO.next (Within.refl _)
  · exact WithinO.next (Within.ite ((State.fetchDone_within _ _ _ _).mono) (Within.refl _))

theorem execRecirculate_within (f) (grainBad) (s : State) : WithinO allParts s (execRecirculate f grainBad s) := by
  unfold execRecirculate
  split
  · exact WithinO.next (Within.refl _)
  · exact WithinO.ite (WithinO.next (Within.refl _)) (WithinO.ite (WithinO.next (((State.grainFail_within _ _
      _).mono).trans ((State.releaseHeld_within _).mono))) (WithinO.next (((State.inc_within _ _ _ _).mono).trans
      ((State.setFrame_within _ _ _).mono))))

theorem State.visit_within (ready) (charge) (may) (port) (cls) (key) (u6) (u7 : State) : Within [.sched] u7 (State.visit
    ready
  charge may port cls key u6 u7).2 := by
  induction u6 generalizing u7 with
  | zero => exact Within.refl _
  | succ n ih =>
    unfold State.visit
    extract_lets l r
    split
    · exact Within.refl _
    · extract_lets t
      have h : Within [.sched] u7 t := Within.ite (Within.refl _) ((State.flowMod_within _ _ _).mono)
      exact Within.iteP h (Within.iteP ((h.trans ((State.setFlowList_within _ _ _).mono)).trans (ih _)) h)

theorem State.passFlow_within (s : State) (port) (flow) : Within [.outbox, .evWait, .pmuNext, .sched] s (State.passFlow s
    port flow) := by
  unfold State.passFlow
  exact Within.ite (Within.cut (fun h1 => (by (try extract_lets); split; exact Within.ite (h1) (((h1).trans ((State.inc_within _ _ _ _).mono)).trans ((State.raiseEvt_within _ _ _).mono)); exact h1)) ((State.fetchFlow_within _ _ _).mono)) (Within.ite ((((State.inc_within _ _ _ _).mono).trans ((State.raiseEvt_within _ _ _).mono)).trans ((State.pmuOcc_within _ _ _).mono)) (Within.refl _))

theorem State.fetchAhead_within (s : State) (port) (key) : Within [.outbox, .evWait, .pmuNext, .sched] s
    (State.fetchAhead s port key) := by
  unfold State.fetchAhead
  exact Within.foldl (Within.refl _) (fun _ _ => (State.fetchFlow_within _ _ _).mono)

theorem State.sampleFlow_within (s : State) (k) (c) : Within [.evWait, .sched, .tel] s (State.sampleFlow s k c) := by
  unfold State.sampleFlow
  exact Within.ite (Within.refl _) (Within.ite ((State.flowMod_within _ _ _).mono) (Within.cut (fun h1 => (h1).trans
    ((State.telFlowRecord_within _ _).mono)) ((State.flowMod_within _ _ _).mono)))

theorem State.clodCharge_within (s : State) (port) (clod) (c) : Within [.evWait, .sched] s (State.clodCharge s port clod
    c) := by
  unfold State.clodCharge
  exact Within.ite (Within.refl _) (Within.cut (fun h1 => Within.cut (fun h2 => (h2).trans ((State.retier_within _ _ _).mono)) ((by split; exact Within.ite ((h1).trans ((State.inc_within _ _ _ _).mono)) (h1); exact h1))) (((State.clodNow_within _ _).mono).trans ((State.clodMod_within _ _ _).mono)))

theorem State.chargeAll_within (s : State) (port) (k) (c) (n) : Within [.outbox, .evWait, .pmuNext, .sched, .tel] s
    (State.chargeAll s port k c n) := by
  unfold State.chargeAll
  exact Within.cut (fun h1 => Within.cut (fun h2 => Within.cut (fun h3 => Within.cut (fun h4 => Within.cut (fun h5 => (h5).trans ((State.pmuOcc_within _ _ _).mono)) ((by split; exact Within.ite (h4) ((h4).trans ((State.inc_within _ _ _ _).mono)); exact h4))) ((h3).trans ((State.setPortSch_within _ _ _).mono))) (Within.ite (h2) (((h2).trans ((State.setClodDef_within _ _ _).mono)).trans ((State.clodCharge_within _ _ _ _).mono)))) (((h1).trans ((State.sampleFlow_within _ _ _).mono)).trans ((State.flowMod_within _ _ _).mono))) ((State.telSelect_within _ _ _ _ _ _).mono)

theorem State.takeCopy_within (s : State) (port) (mode) (i) : Within [.timers, .evWait, .frames, .copies, .nextId, .adm,
    .sched, .tel, .fates] s (State.takeCopy s port mode i) := by
  unfold State.takeCopy
  split
  · exact Within.cut (fun h1 => (h1).trans (Within.nextId _ _).mono) ((State.copyMod_within _ _ _).mono)
  · exact ((State.countFenced_within _).mono).trans ((State.discardCopy_within _ _).mono)
  · exact ((State.dropTel_within _ _ _).mono).trans ((State.discardCopy_within _ _).mono)
  · exact ((State.dropTel_within _ _ _).mono).trans ((State.discardCopy_within _ _).mono)

theorem State.clodWalk_within (ready) (charge) (port cls tier) (can) (n : Nat) (s : State) :
    Within [.sched] s (State.clodWalk ready charge port cls tier can n s).after := by
  induction n generalizing s with
  | zero => exact Within.refl _
  | succ n ih =>
    unfold State.clodWalk
    extract_lets l k key held t may
    split
    · exact ((State.clodNext_within _ _ _ _).mono).trans (ih _)
    · have h : Within [.sched] s t :=
        Within.ite (Within.refl _) (((State.setClodDef_within _ _ _).mono).trans ((State.setClodList_within _ _ _ _ _).mono))
      have hv := h.trans ((State.visit_within ready charge may port cls key (2 * (t.flowList key).length + 2) t).mono)
      split <;> rename_i e <;> rw [e] at hv
      · exact hv
      · exact (hv.trans ((State.clodNext_within _ _ _ _).mono)).trans (ih _)

theorem State.classWalk_within (s : State) (ready) (port cls) : Within [.sched] s (State.classWalk s ready port
    cls).after := by
  unfold State.classWalk
  extract_lets charge go can0 can1 none0 w
  have hg : ∀ t c, Within [.sched] s (go t c).after := fun t c => (State.clodWalk_within ..).mono
  split
  · exact hg _ _
  · show Within [.sched] s w.after
    by_cases h : can1 ≠ []
    · have : w = go 1 can1 := if_pos h
      exact this ▸ hg _ _
    · have : w.after = s := by simp only [w, if_neg h]
      exact this ▸ Within.refl _

theorem State.candidate_within {s : State} {ready : Nat → Bool} {port cls : Nat} {k : Pick}
    (h : (s.candidate ready port cls).pick = some k) : Within [.sched] s k.after := by
  unfold State.candidate at h
  extract_lets w pick at h
  have hw : Within [.sched] s _ := (State.classWalk_within s ready port cls).mono
  change pick = some k at h
  cases e : w.pick with
  | none => simp [pick, e] at h
  | some a =>
    simp only [pick, e] at h
    obtain ⟨x, -, rfl⟩ := Option.map_eq_some_iff.1 h
    exact hw

theorem State.classPick_within {s : State} {port : Nat} {mode : SelMode} {cls : Nat} {k : Pick}
    (h : (s.classPick port mode cls).pick = some k) : Within [.sched] s k.after := by
  unfold State.classPick at h
  split at h
  · cases h
  · exact (State.candidate_within (Option.filter_eq_some_iff.1 h).1).mono

theorem State.descend_within {s : State} {port : Nat} {mode : SelMode} {l : List Nat} {k : Pick} {y : PortSch}
    (h : (s.descend port mode l).1 = some (k, y)) : Within [.sched] s k.after := by
  induction l with
  | nil => cases h
  | cons c rest ih =>
    unfold State.descend at h
    extract_lets x group below one looks cand r at h
    split at h
    · split at h
      · rename_i e
        have hk := congrArg Prod.fst (Option.some.inj h)
        subst hk
        exact (State.classPick_within e).mono
      · exact ih h
    · split at h
      · exact ih h
      · split at h
        · exact ih h
        · obtain ⟨g, hg⟩ := groupWalk_cand h
          obtain ⟨v, hv, hk⟩ := Option.bind_eq_some_iff.1 hg
          exact (State.classPick_within ((List.lookup_map_self hv).symm ▸ hk)).mono

theorem State.select_within {ps : List Part} {s : State} (t : State) (port) (mode) (k) (x) (hk : Within ps s k.after) (ht
    : Within ps s t)
    (h : partSub [.outbox, .timers, .evWait, .pmuNext, .frames, .copies, .nextId, .adm, .sched, .tel, .fates] ps = true
      := by rfl) : Within ps s (State.select t port mode k x) := by
  unfold State.select
  split
  · exact ht
  · extract_lets n t1 t2
    have h1 : Within ps s t1 :=
      ((hk.trans ((State.setPortSch_within _ _ _).monoOf h)).trans ((State.chargeAll_within ..).monoOf h)).trans
        ((State.touch_within _ _ _).monoOf h)
    have h2 : Within ps s t2 := by
      simp only [t2]
      split
      · exact Within.ite (h1.trans ((State.moveCancel_within _ _).monoOf h)) h1
      · exact h1
    exact (h2.trans ((State.unqueue_within _ _).monoOf h)).trans ((State.takeCopy_within ..).monoOf h)

theorem State.clodsNow_within (s : State) (port) : Within [.sched] s (State.clodsNow s port) := by
  unfold State.clodsNow
  exact Within.ite (Within.refl _) (Within.foldl (Within.refl _) (fun _ _ => ((State.clodNow_within _ _).mono).trans
    ((State.retier_within _ _ _).mono)))

theorem State.atSelection_within (s : State) (port) : Within [.evWait, .shadow, .mesh, .sched, .gates] s
    (State.atSelection s port) := by
  unfold State.atSelection
  exact ((State.handOver_within _ _).mono).trans ((State.clodsNow_within _ _).mono)

theorem State.selection_within (s : State) (port) : Within [.outbox, .timers, .evWait, .pmuNext, .shadow, .frames,
    .copies, .nextId, .mesh, .adm, .sched, .gates, .tel, .fates] s (State.selection s port) := by
  unfold State.selection
  extract_lets t mode r t2 t3
  have h1 : Within [.outbox, .timers, .evWait, .pmuNext, .shadow, .frames, .copies, .nextId, .mesh, .adm, .sched, .gates,
    .tel, .fates] s t := (State.atSelection_within _ _).mono
  have h2 : Within [.outbox, .timers, .evWait, .pmuNext, .shadow, .frames, .copies, .nextId, .mesh, .adm, .sched, .gates,
    .tel, .fates] s t2 := by
    simp only [t2]
    split
    · rename_i e
      exact (State.select_within _ _ _ _ _ (h1.trans ((State.descend_within e).mono)) h1)
    · exact h1
  exact Within.foldl (Within.foldl h2 fun _ _ => (State.fetchAhead_within _ _ _).mono) fun _ _ => (State.passFlow_within
    _ _ _).mono

theorem execSelection_within (port) (s : State) : WithinO [.outbox, .timers, .evWait, .pmuNext, .shadow, .frames,
    .copies, .nextId, .mesh, .adm, .sched, .gates, .tel, .fates] s (execSelection port s) := by
  unfold execSelection
  exact WithinO.ite (WithinO.next (Within.refl _)) ((by split; exact WithinO.next (((State.selection_within _ _).mono).trans ((State.schedMod_within _ _).mono)); exact WithinO.next (Within.refl _)))

theorem State.editCopy_within (s : State) (i) (b) (c) (x) : Within [.timers, .evWait, .frames, .copies, .mesh, .adm,
    .sched, .tel, .fates] s (State.editCopy s i b c x) := by
  unfold State.editCopy
  exact Within.cut (fun h1 => (by (try extract_lets); split; exact ((h1).trans ((State.readOut_within _ _).mono)).trans ((State.copyMod_within _ _ _).mono); exact (((h1).trans ((State.inc_within _ _ _ _).mono)).trans ((State.raiseEvt_within _ _ _).mono)).trans ((State.discardCopy_within _ _).mono); exact (h1).trans ((State.discardCopy_within _ _).mono))) ((by split; exact (State.meshMod_within _ _).mono; exact Within.refl _))

theorem execEgressEdit_within (c) (grainBad) (s : State) : WithinO allParts s (execEgressEdit c grainBad s) := by
  unfold execEgressEdit
  split
  · exact WithinO.next (Within.refl _)
  · split
    · exact WithinO.next (Within.refl _)
    · exact WithinO.ite (WithinO.next (Within.refl _)) (WithinO.ite (WithinO.next (Within.refl _)) (WithinO.ite
        (WithinO.next (((State.dropTel_within _ _ _).mono).trans ((State.discardCopy_within _ _).mono))) (WithinO.ite
        (WithinO.next ((State.grainFail_within _ _ _).mono)) (WithinO.next ((State.editCopy_within _ _ _ _ _).mono)))))

theorem State.onWire_within (s : State) (b) (p) (cls) (start) (n) (ipg) : Within [.gates] s (State.onWire s b p cls start
    n ipg)
  := by
  unfold State.onWire
  exact (State.gateMod_within _ _ _ _).mono

theorem State.startFrame_within (s : State) (b) (p) (i) (stamp) (how) (c) (x) (e) (bytes) : Within [.evWait, .copies,
    .time] s (State.startFrame s
  b p i stamp how c x e bytes) := by
  unfold State.startFrame
  exact Within.cut (fun h1 => Within.ite (h1) (Within.matchP ((h1).trans ((State.tsCapture_within _ _ _ _).mono)) fun _ _
    h2 => Within.ite (h2) ((h2).trans ((State.copyMod_within _ _ _).mono)))) (Within.ite ((State.stat_within _ _ _ _
    _).mono) (Within.ite (((State.inc_within _ _ _ _).mono).trans ((State.raiseEvt_within _ _ _).mono)) (Within.refl _)))

theorem State.frameSent_within (s : State) (b) (p) (i) (c) (bytes) : Within [.outbox, .timers, .evWait, .lanes, .ports,
    .macs, .frames, .copies, .adm, .sched, .tel, .fates] s (State.frameSent s b p i c bytes) := by
  unfold State.frameSent
  exact Within.cut (fun h1 => Within.cut (fun h2 => Within.cut (fun h3 => Within.ite ((h3).trans ((State.openDone_within
    _ _ _).mono)) (h3)) (((h2).trans ((State.copyFate_within _ _ _).mono)).trans ((State.endCopy_within _ _).mono)))
    ((h1).trans ((State.typeCount_within _ _ _ _ _ _ _).mono))) (((((State.stat_within _ _ _ _ _).mono).trans
    ((State.stat_within _ _ _ _ _).mono)).trans ((State.stat_within _ _ _ _ _).mono)).trans ((State.stat_within _ _ _ _
    _).mono))

theorem State.emitFrag_within (s : State) (c) (o) (bytes) : Within [.outbox] s (State.emitFrag s c o bytes) := by
  unfold State.emitFrag
  exact (State.emit_within _ _).mono

theorem State.takeNumber_within (s : State) (b) (p) (o) : Within [.macs] s (State.takeNumber s b p o) := by
  unfold State.takeNumber
  exact Within.ite ((State.macMod_within _ _ _).mono) (Within.refl _)

theorem State.sendPiece_within (s : State) (b) (p) (i) (start) (o) (c) (bytes) (cut) : Within [.outbox, .timers, .evWait,
    .lanes, .ports, .macs, .frames, .copies, .adm, .sched, .gates, .tel, .fates] s (State.sendPiece s b p i
  start o c bytes cut) := by
  unfold State.sendPiece
  extract_lets
  split
  · exact (((State.onWire_within _ _ _ _ _ _ _).mono).trans ((State.emit_within _ _).mono)).trans
      ((State.frameSent_within _ _ _ _ _ _).mono)
  · exact Within.cut (fun h1 => (by (try extract_lets); split; exact Within.cut (fun h2 => Within.cut (fun h3 => Within.cut (fun h4 => ((h4).trans ((State.macMod_within _ _ _).mono)).trans ((State.copyMod_within _ _ _).mono)) (Within.ite ((h3).trans ((State.stat_within _ _ _ _ _).mono)) (h3))) ((h2).trans ((State.stat_within _ _ _ _ _).mono))) (((h1).trans ((State.onWire_within _ _ _ _ _ _ _).mono)).trans ((State.emitFrag_within _ _ _ _).mono)); exact Within.cut (fun h5 => (Within.ite (h5) ((h5).trans ((State.stat_within _ _ _ _ _).mono))).trans ((State.frameSent_within _ _ _ _ _ _).mono)) (((h1).trans ((State.onWire_within _ _ _ _ _ _ _).mono)).trans ((State.emitFrag_within _ _ _ _).mono)))) ((State.takeNumber_within _ _ _ _).mono)

theorem State.pieceCut_within (s : State) (b) (p) (i) (o) (c) (bytes) (n) : Within [.outbox, .timers, .evWait, .macs,
    .frames, .copies, .adm, .sched, .tel, .fates] s (State.pieceCut s b p i o c bytes
  n) := by
  unfold State.pieceCut
  exact ((State.emit_within _ _).mono).trans ((State.frameCut_within _ _ _ _ _).mono)

theorem State.wireFrame_within (s : State) (b p stamp : Nat) (c : Copy) (e : Edit) (x : Frame) :
    Within [.evWait, .assay] s (s.wireFrame b p stamp c e x).2.2 := by
  unfold State.wireFrame
  generalize s.oneStep b p stamp c e x = r
  cases c.assay with
  | none => exact Within.refl _
  | some u =>
    dsimp only
    split
    · exact (State.assayAppend_within _ _ _ _).mono
    · exact Within.refl _

theorem State.firstPiece_within (s : State) (b) (p) (i) (c) (x) (e) (cut) (lane) :
    Within [.outbox, .timers, .evWait, .lanes, .ports, .macs, .frames, .copies, .adm, .sched, .gates, .time, .tel,
      .assay, .fates] s (State.firstPiece s b p i c x e cut lane) := by
  unfold State.firstPiece
  extract_lets start stamp o
  have h : Within [.outbox, .timers, .evWait, .lanes, .ports, .macs, .frames, .copies, .adm, .sched, .gates, .time, .tel,
    .assay, .fates] s _ := (State.wireFrame_within s b p stamp c e x).mono
  generalize s.wireFrame b p stamp c e x = r at h
  obtain ⟨bytes, how, t⟩ := r
  dsimp only
  refine Within.ite ((h.trans ((State.gateMiss_within _ _ _).mono)).trans ((State.discardCopy_within _ _).mono)) (Within.ite
    ((h.trans ((State.dropTel_within _ _ _).mono)).trans (((State.stat_within _ _ _ _ _).mono).trans
      ((State.discardCopy_within _ _).mono))) ?_)
  split
  · exact h.trans ((State.pieceCut_within ..).mono)
  · exact (h.trans ((State.startFrame_within ..).mono)).trans ((State.sendPiece_within ..).mono)

theorem State.nextPiece_within (s : State) (b) (p) (i) (o) (c) (cut) (lane) : Within [.outbox, .timers, .evWait, .lanes,
    .ports, .macs, .frames, .copies, .adm, .sched, .gates, .tel, .fates] s (State.nextPiece s b p i o c cut
  lane) := by
  unfold State.nextPiece
  exact Within.ite (Within.refl _) ((by split; exact (State.pieceCut_within _ _ _ _ _ _ _ _).mono; exact (State.sendPiece_within _ _ _ _ _ _ _ _ _).mono))

theorem State.unless_within {ps : List Part} (s : State) (b p i : Nat) {whole : State → State} {part : OpenTx → State →
    State}
    (hw : ∀ t, Within ps t (whole t)) (hp : ∀ o t, Within ps t (part o t)) : Within ps s (s.unless b p i whole part) := by
  unfold State.unless
  split
  · exact Within.ite (hp _ _) (hw _)
  · exact hw _

theorem State.linkDrop_within (s : State) (b) (p) (i) : Within [.timers, .evWait, .macs, .frames, .copies, .adm, .sched,
    .tel, .fates] s (State.linkDrop s b p i) := by
  unfold State.linkDrop
  exact (State.unless_within _ _ _ _ (fun _ => ((State.dropTel_within _ _ _).mono).trans ((State.discardCopy_within _
    _).mono))) fun _ _ => (State.frameCut_within _ _ _ _ _).mono

theorem State.fenceDrop_within (s : State) (b) (p) (i) : Within [.timers, .evWait, .macs, .frames, .copies, .adm, .sched,
    .tel, .fates] s (State.fenceDrop s b p i) := by
  unfold State.fenceDrop
  exact (State.unless_within _ _ _ _ (fun _ => ((State.countFenced_within _).mono).trans ((State.discardCopy_within _
    _).mono))) fun _ _ => (((State.countFenced_within _).mono).trans ((State.portCut_within _ _ _).mono)).trans
    ((State.discardCopy_within _ _).mono)

theorem State.transmit_within (s : State) (i) (c) (cut) (lane) (tagBad) : Within allParts s (State.transmit s i c cut lane
  tagBad) := by
  unfold State.transmit
  split
  · extract_lets p marked t
    refine Within.ite (Within.refl _) (Within.ite ?_ ?_)
    · exact (((State.safeInc_within _ _ _).mono).trans ((State.unless_within _ _ _ _ (fun _ => (State.discardCopy_within
        _ _).mono)) fun _ _ => ((State.portCut_within _ _ _).mono).trans ((State.discardCopy_within _ _).mono))).trans
        ((State.detect_within _ _ _).mono)
    · split
      · exact (State.fenceDrop_within ..).mono
      · exact Within.refl _
      · exact Within.ite ((State.linkDrop_within ..).mono) (Within.refl _)
      · exact Within.ite (Within.refl _) ((State.unless_within _ _ _ _ (fun _ => (State.firstPiece_within ..).mono)) fun
          _ _ => (State.nextPiece_within ..).mono)
      · exact (State.linkDrop_within ..).mono
  · exact Within.refl _

theorem State.mgmtSend_within (s : State) : Within [.outbox, .timers, .evWait, .mgmt] s (State.mgmtSend s) := by
  unfold State.mgmtSend
  split
  · exact Within.refl _
  · exact Within.cut (fun h1 => Within.ite ((h1).trans ((State.mgmtStat_within _ _ _).mono)) (Within.cut (fun h2 =>
      Within.cut (fun h3 => Within.cut (fun h4 => Within.ite ((h4).trans ((State.mgmtStat_within _ _ _).mono))
      (Within.ite ((h4).trans ((State.mgmtStat_within _ _ _).mono)) (h4))) ((h3).trans ((State.typeCount_within _ _ _ _ _
      _ _).mono))) (((((h2).trans ((State.mgmtStat_within _ _ _).mono)).trans ((State.mgmtStat_within _ _ _).mono)).trans
      ((State.mgmtStat_within _ _ _).mono)).trans ((State.mgmtStat_within _ _ _).mono))) ((h1).trans ((State.emit_within
      _ _).mono)))) ((State.mgmtGiveUp_within _).mono)

theorem execMacTransmitFrame_within (c) (lane) (tagBad) (s : State) : WithinO allParts s (execMacTransmitFrame c lane
    tagBad s)
  := by
  unfold execMacTransmitFrame
  split
  · exact WithinO.next (Within.ite ((State.mgmtSend_within _).mono) (Within.refl _))
  · split
    · exact WithinO.next (Within.ite ((State.transmit_within _ _ _ _ _ _).mono) (Within.refl _))
    · exact WithinO.next (Within.refl _)

theorem execPreemptFragment_within (c) (ready) (s : State) : WithinO allParts s (execPreemptFragment c ready s) := by
  unfold execPreemptFragment
  split
  · exact WithinO.next (Within.ite ((State.transmit_within _ _ _ _ _ _).mono) (Within.refl _))
  · exact WithinO.next (Within.refl _)

theorem State.ringsMod_within (s : State) (f) : Within [.rings] s (State.ringsMod s f) := by
  unfold State.ringsMod
  exact (Within.rings _ _).mono

theorem State.ringMod_within (s : State) (k) (f) : Within [.rings] s (State.ringMod s k f) := by
  unfold State.ringMod
  exact (State.ringsMod_within _ _).mono

theorem State.ringCnt_within (s : State) (i) : Within [.evWait] s (State.ringCnt s i) := by
  unfold State.ringCnt
  exact (State.inc_within _ _ _ _).mono

theorem State.ringEvent_within (s : State) (k) (i) : Within [.evWait] s (State.ringEvent s k i) := by
  unfold State.ringEvent
  exact ((State.wr_within _ _ _).mono).trans ((State.raiseEvt_within _ _ _).mono)

theorem State.ringDrop_within (s : State) (k) (i) : Within [.evWait] s (State.ringDrop s k i) := by
  unfold State.ringDrop
  exact ((State.ringCnt_within _ _).mono).trans ((State.inc_within _ _ _ _).mono)

theorem State.readGo_within (s : State) (j) : Within [.outbox] s (State.readGo s j) := by
  unfold State.readGo
  exact Within.ite ((State.emit_within _ _).mono) ((by split; exact (State.emit_within _ _).mono; exact Within.refl _))

theorem State.readAsk_within (s : State) (j) : Within [.outbox, .rings] s (State.readAsk s j) := by
  unfold State.readAsk
  exact Within.ite ((State.readGo_within _ _).mono) ((State.ringsMod_within _ _).mono)

theorem State.readOver_within (s : State) (j) : Within [.outbox, .rings] s (State.readOver s j) := by
  unfold State.readOver
  exact Within.cut (fun h1 => (by (try extract_lets); split; exact h1; exact Within.ite (((h1).trans ((State.ringsMod_within _ _).mono)).trans ((State.readGo_within _ _).mono)) (h1))) ((State.ringsMod_within _ _).mono)

theorem State.fetchDb_within (s : State) (k) (nudge) : Within [.outbox, .rings] s (State.fetchDb s k nudge) := by
  unfold State.fetchDb
  exact Within.ite (Within.ite ((State.ringMod_within _ _ _).mono) (Within.refl _)) (((State.ringMod_within _ _
    _).mono).trans ((State.readAsk_within _ _).mono))

theorem State.fetchOver_within (s : State) (k) : Within [.outbox, .rings] s (State.fetchOver s k) := by
  unfold State.fetchOver
  exact ((State.ringMod_within _ _ _).mono).trans ((State.readOver_within _ _).mono)

theorem State.nudgeBad_within (s : State) (v) : Within [.evWait] s (State.nudgeBad s v) := by
  unfold State.nudgeBad
  exact Within.cut (fun h1 => Within.ite ((h1).trans ((State.raiseEvt_within _ _ _).mono)) ((h1).trans
    ((State.ringEvent_within _ _ _).mono))) ((State.ringCnt_within _ _).mono)

theorem State.nudge_within (s : State) (v) : Within [.outbox, .evWait, .rings] s (State.nudge s v) := by
  unfold State.nudge
  split
  · exact Within.ite ((State.fetchDb_within _ _ _).mono) ((State.nudgeBad_within _ _).mono)
  · exact (State.nudgeBad_within _ _).mono

theorem execNudge_within (v) (s : State) : WithinO [.outbox, .evWait, .mesh, .gates, .rings] s (execNudge v s) := by
  unfold execNudge
  exact WithinO.next ((State.cfg_within _ _ _ (fun _ => (State.nudge_within _ _).mono)))

theorem execDoorbellPoll_within (r) (s : State) : WithinO [.outbox, .rings] s (execDoorbellPoll r s) := by
  unfold execDoorbellPoll
  exact WithinO.next (Within.ite (((State.ringsMod_within _ _).mono).trans ((State.fetchDb_within _ _ _).mono))
    (Within.refl _))

theorem execTornRecordRefetch_within (r) (s : State) : WithinO [.outbox, .timers, .rings] s (execTornRecordRefetch r s) := by
  unfold execTornRecordRefetch
  exact WithinO.next (Within.ite (Within.ite (((State.stopTimer_within _ _).mono).trans ((State.fetchDb_within _ _
    _).mono)) ((State.stopTimer_within _ _).mono)) (Within.refl _))

theorem State.tsWaiting_within (s : State) (k) : Within [] s (State.tsWaiting s k) := by
  unfold State.tsWaiting
  exact Within.ite ((State.wrb_within _ _ _ _).mono) (Within.refl _)

theorem State.dropWork_within (s : State) (k) : Within [.outbox, .timers, .evWait, .rings] s (State.dropWork s k) := by
  unfold State.dropWork
  exact Within.cut (fun h1 => Within.cut (fun h2 => ((h2).trans ((State.ringMod_within _ _ _).mono)).trans
    ((State.fetchOver_within _ _).mono)) ((h1).trans (Within.timers _ _).mono)) (Within.foldl (Within.refl _) (fun _ _ =>
    (State.ringDrop_within _ _ _).mono))

theorem State.ringFault_within (s : State) (k) (cause) : Within [.outbox, .timers, .evWait, .rings] s (State.ringFault s
    k cause) := by
  unfold State.ringFault
  exact Within.ite (Within.refl _) (Within.cut (fun h1 => ((h1).trans ((State.wr_within _ _ _).mono)).trans
    ((State.ringEvent_within _ _ _).mono)) ((State.dropWork_within _ _).mono))

theorem State.ringReset_within (s : State) (k) : Within [.outbox, .timers, .evWait, .rings] s (State.ringReset s k) := by
  unfold State.ringReset
  exact Within.cut (fun h1 => Within.cut (fun h2 => (h2).trans ((State.ringMod_within _ _ _).mono)) ((h1).trans
    ((State.wrs_within _ _ _).mono))) (((State.dropWork_within _ _).mono).trans ((State.wrb_within _ _ _ _).mono))

theorem State.ringStart_within (s : State) (k) : Within [.outbox, .rings] s (State.ringStart s k) := by
  unfold State.ringStart
  exact Within.cut (fun h1 => Within.cut (fun h2 => (h2).trans ((State.fetchDb_within _ _ _).mono)) (((h1).trans
    ((State.fetchOver_within _ _).mono)).trans ((State.ringMod_within _ _ _).mono))) ((State.wrs_within _ _ _).mono)

theorem State.ringDrain_within (s : State) (k) : Within [.timers, .evWait, .rings] s (State.ringDrain s k) := by
  unfold State.ringDrain
  exact Within.cut (fun h1 => Within.cut (fun h2 => ((h2).trans ((State.ringMod_within _ _ _).mono)).trans
    ((State.wrf_within _ _ _ _ _).mono)) (Within.ite (h1) ((h1).trans ((State.stopTimer_within _ _).mono))))
    (Within.foldl (Within.refl _) (fun _ _ => ((State.ringDrop_within _ _ _).mono).trans ((State.ringEvent_within _ _
    _).mono)))

theorem State.setArmed_within (s : State) (v) (on) : Within [] s (State.setArmed s v on) := by
  unfold State.setArmed
  exact ((State.wrb_within _ _ _ _).mono).trans ((State.wrb_within _ _ _ _).mono)

theorem State.ringCtlWrite_within (s : State) (k) (v) : Within [.outbox, .timers, .evWait, .rings] s (State.ringCtlWrite
    s k v) := by
  unfold State.ringCtlWrite
  exact Within.cut (fun h1 => Within.cut (fun h2 => Within.ite ((h2).trans ((State.ringReset_within _ _).mono))
    (Within.ite ((h2).trans ((State.ringStart_within _ _).mono)) (Within.ite ((h2).trans ((State.ringDrain_within _
    _).mono)) (h2)))) (Within.ite ((h1).trans ((State.setArmed_within _ _ _).mono)) (h1))) (Within.ite ((State.wr_within
    _ _ _).mono) ((State.wr_within _ _ _).mono))

theorem execRingEnable_within (r) (v) (s : State) : WithinO [.outbox, .timers, .evWait, .mesh, .gates, .rings] s
    (execRingEnable r v s) := by
  unfold execRingEnable
  exact WithinO.next ((State.cfg_within _ _ _ (fun _ => (State.ringCtlWrite_within _ _ _).mono)))

theorem execRingDisable_within (r) (v) (s : State) : WithinO [.outbox, .timers, .evWait, .mesh, .gates, .rings] s
    (execRingDisable r v s) := by
  unfold execRingDisable
  exact WithinO.next ((State.cfg_within _ _ _ (fun _ => (State.ringCtlWrite_within _ _ _).mono)))

theorem execRingReset_within (r) (v) (s : State) : WithinO [.outbox, .timers, .evWait, .mesh, .gates, .rings] s
    (execRingReset r v s) := by
  unfold execRingReset
  exact WithinO.next ((State.cfg_within _ _ _ (fun _ => (State.ringCtlWrite_within _ _ _).mono)))

theorem execRingDrained_within (r) (s : State) : WithinO [.rings] s (execRingDrained r s) := by
  unfold execRingDrained
  exact WithinO.next (Within.ite (((State.ringMod_within _ _ _).mono).trans ((State.wrf_within _ _ _ _ _).mono))
    (Within.refl _))

theorem execHostReadTimeout_within (r) (s : State) : WithinO [.outbox, .timers, .evWait, .rings] s (execHostReadTimeout r
    s) := by
  unfold execHostReadTimeout
  exact WithinO.next (Within.ite ((State.ringFault_within _ _ _).mono) (Within.refl _))

theorem execHostErrorResponse_within (r) (write) (s : State) : WithinO [.outbox, .timers, .evWait, .rings] s
    (execHostErrorResponse r write s) := by
  unfold execHostErrorResponse
  exact WithinO.next (Within.ite ((State.ringFault_within _ _ _).mono) (Within.refl _))

theorem State.rxEmpty_within (s : State) (k) : Within [.evWait] s (State.rxEmpty s k) := by
  unfold State.rxEmpty
  exact (((State.ringDrop_within _ _ _).mono).trans ((State.ringEvent_within _ _ _).mono)).trans ((State.wrb_within _ _ _
    _).mono)

theorem State.rxFallShort_within (s : State) (k) (f) (behind) : Within [.outbox, .timers, .evWait, .rings] s
    (State.rxFallShort s k f behind).2 := by
  unfold State.rxFallShort
  exact Within.iteP ((State.rxEmpty_within _ _).mono) ((((State.ringMod_within _ _ _).mono).trans
    ((State.startTimer_within _ _ _).mono)).trans ((State.fetchDb_within _ _ _).mono))

theorem State.rxReserve_within {s t : State} {k : Nat} {f : HostFrame} (h : s.rxReserve k f = some t) : Within [.rings] s
    t := by
  unfold State.rxReserve at h
  dsimp only at h
  split at h
  · cases h
    exact ((State.ringMod_within _ _ _).mono).trans ((State.wr_within _ _ _).mono)
  · cases h

theorem State.rxServe_within (s : State) (k) (u2) : Within [.outbox, .timers, .evWait, .rings] s (State.rxServe s k u2) := by
  induction u2 generalizing s with
  | nil => exact (State.ringMod_within _ _ _).mono
  | cons f fs ih =>
    unfold State.rxServe
    split
    · rename_i e
      exact ((State.rxReserve_within e).mono).trans (ih _)
    · have h : Within [.outbox, .timers, .evWait, .rings] s _ := (State.rxFallShort_within s k f fs).mono
      split <;> rename_i e <;> rw [e] at h
      · exact h
      · exact h.trans (ih _)

theorem State.rxRetry_within (s : State) (k) : Within [.outbox, .timers, .evWait, .rings] s (State.rxRetry s k) := by
  unfold State.rxRetry
  split
  · exact Within.refl _
  · split
    · rename_i e
      exact (((State.rxReserve_within e).mono).trans ((State.stopTimer_within _ _).mono)).trans ((State.rxServe_within _
        _ _).mono)
    · exact Within.refl _

theorem execRxShortWaitExpire_within (r) (s : State) : WithinO [.outbox, .timers, .evWait, .rings] s
    (execRxShortWaitExpire r s) := by
  unfold execRxShortWaitExpire
  extract_lets
  split
  · exact WithinO.next (Within.refl _)
  · exact WithinO.next (Within.ite ((((State.stopTimer_within _ _).mono).trans ((State.rxEmpty_within _ _).mono)).trans
      ((State.rxServe_within _ _ _).mono)) (Within.refl _))

theorem State.dbAccept_within (s : State) (k) (count) (arm) : Within [.outbox, .timers, .evWait, .rings] s
    (State.dbAccept s k count arm) := by
  unfold State.dbAccept
  exact Within.cut (fun h1 => Within.ite (Within.ite ((h1).trans ((State.setArmed_within _ _ _).mono)) (h1)) (Within.ite
    ((Within.ite ((h1).trans ((State.wrb_within _ _ _ _).mono)) (h1)).trans ((State.rxRetry_within _ _).mono)) (h1)))
    ((State.wr_within _ _ _).mono)

theorem State.dbJudge_within (s : State) (k) (w) : Within [.outbox, .timers, .evWait, .rings] s (State.dbJudge s k w) := by
  unfold State.dbJudge
  exact Within.ite ((((State.ringCnt_within _ _).mono).trans ((State.ringEvent_within _ _ _).mono)).trans
    ((State.startTimer_within _ _ _).mono)) (Within.ite (Within.refl _) (Within.ite ((State.ringFault_within _ _ _).mono)
    ((State.dbAccept_within _ _ _ _).mono)))

theorem execDoorbellRecordArrive_within (r) (words) (s : State) : WithinO [.outbox, .timers, .evWait, .rings] s
    (execDoorbellRecordArrive r words s) := by
  unfold execDoorbellRecordArrive
  exact WithinO.ite (WithinO.next (Within.refl _)) (WithinO.cut (fun h1 => WithinO.cut (fun h2 => WithinO.next
    (Within.ite ((h2).trans ((State.fetchDb_within _ _ _).mono)) (h2))) (Within.ite ((h1).trans ((State.dbJudge_within _
    _ _).mono)) (h1))) ((State.fetchOver_within _ _).mono))

theorem State.setPending_within (s : State) (v) : Within [] s (State.setPending s v) := by
  unfold State.setPending
  exact (State.wrb_within _ _ _ _).mono

theorem State.ringIrq_within (s : State) (k) : Within [] s (State.ringIrq s k) := by
  unfold State.ringIrq
  exact Within.ite ((State.setPending_within _ _).mono) (Within.refl _)

theorem State.eventRecord_within (s : State) (evt) (bits) : Within [.outbox, .evWait, .rings] s (State.eventRecord s evt
    bits) := by
  unfold State.eventRecord
  exact Within.ite (Within.cut (fun h1 => Within.cut (fun h2 => (h2).trans (Within.evWait _ _).mono) ((((h1).trans
    ((State.wr_within _ _ _).mono)).trans ((State.wrb_within _ _ _ _).mono)).trans ((State.setPending_within _ _).mono)))
    ((State.emit_within _ _).mono)) (Within.ite (Within.refl _) (Within.cut (fun h3 => Within.ite ((h3).trans
    ((State.fetchDb_within _ _ _).mono)) (h3)) (((State.wrb_within _ _ _ _).mono).trans ((State.ringCnt_within _
    _).mono))))

theorem execEventRecordSend_within (evt) (s : State) : WithinO [.outbox, .evWait, .rings] s (execEventRecordSend evt s) := by
  unfold execEventRecordSend
  exact WithinO.next (Within.ite ((State.eventRecord_within _ _ _).mono) (Within.refl _))

theorem execVectorArmWrite_within (v) (w) (s : State) : WithinO [.outbox, .timers, .evWait, .mesh, .gates, .rings] s
    (execVectorArmWrite v w s) := by
  unfold execVectorArmWrite
  exact WithinO.next ((State.cfg_within _ _ _ (fun _ => (State.ringCtlWrite_within _ _ _).mono)))

theorem execVectorMessage_within (v) (s : State) : WithinO [.outbox, .evWait, .rings] s (execVectorMessage v s) := by
  unfold execVectorMessage
  exact WithinO.ite (WithinO.cut (fun h1 => WithinO.cut (fun h2 => WithinO.next ((h2).trans ((State.ringMod_within _ _
    _).mono))) (Within.ite (h1) ((h1).trans ((State.setArmed_within _ _ _).mono)))) ((((State.emit_within _
    _).mono).trans ((State.ringCnt_within _ _).mono)).trans ((State.wrb_within _ _ _ _).mono))) (WithinO.next
    (Within.refl _))

theorem execSieveFrameOut_within (c) (grainBad) (s : State) : WithinO allParts s (execSieveFrameOut c grainBad s) := by
  unfold execSieveFrameOut
  split
  · exact WithinO.next (Within.refl _)
  · split
    · exact WithinO.ite (WithinO.next (Within.refl _)) (WithinO.ite (WithinO.next (((State.dropTel_within _ _
        _).mono).trans ((State.discardCopy_within _ _).mono))) (WithinO.ite (WithinO.next (Within.refl _)) (WithinO.ite
        (WithinO.next ((State.grainFail_within _ _ _).mono)) (WithinO.ite (WithinO.next (((State.mgmtMod_within _
        _).mono).trans ((State.endCopy_within _ _).mono))) (WithinO.next (((State.ringsMod_within _ _).mono).trans
        ((State.endCopy_within _ _).mono)))))))
    · exact WithinO.next (Within.refl _)

theorem State.closeRun_within (s : State) (k) (first) (run) (cut) : Within [.evWait, .rings] s (State.closeRun s k first
    run cut) := by
  unfold State.closeRun
  exact Within.cut (fun h1 => (h1).trans ((State.ringMod_within _ _ _).mono)) (Within.ite (Within.refl _) (Within.ite
    ((State.ringDrop_within _ _ _).mono) (((State.ringDrop_within _ _ _).mono).trans ((State.ringEvent_within _ _
    _).mono))))

theorem State.takeDesc_within (s : State) (k) (count) (e) : Within [.evWait, .rings] s (State.takeDesc s k count e) := by
  unfold State.takeDesc
  exact Within.cut (fun h1 => Within.cut (fun h2 => Within.ite ((h2).trans ((State.closeRun_within _ _ _ _ _).mono))
    (h2)) ((h1).trans ((State.ringMod_within _ _ _).mono))) (Within.ite ((State.closeRun_within _ _ _ _ _).mono)
    (Within.refl _))

theorem execTxDescArrive_within (t) (descs) (s : State) : WithinO [.evWait, .rings] s (execTxDescArrive t descs s) := by
  unfold execTxDescArrive
  exact WithinO.ite (WithinO.next (Within.refl _)) (WithinO.next (Within.foldl (Within.refl _) (fun _ _ =>
    ((State.takeDesc_within _ _ _ _).mono).trans ((State.wr_within _ _ _).mono))))

theorem State.hostIn_within (s : State) (k) (first) (d) (bytes) (id) : Within [.outbox, .timers, .evWait, .pmuNext,
    .frames, .copies, .nextId, .adm, .sched, .tel, .fates] s (State.hostIn s k first d bytes id) := by
  unfold State.hostIn
  exact Within.ite (Within.matchP ((State.addFrame_within _ _).mono) fun _ _ h1 => (h1).trans ((State.deliver_within _ _
    _).mono)) (Within.matchP ((State.addFrame_within _ _).mono) fun _ _ h2 => Within.ite (h2) (((h2).trans
    ((State.dropTel_within _ _ _).mono)).trans ((State.discard_within _ _).mono)))

theorem State.txCrossed_within (s : State) (k) (id) : Within [.evWait, .nextId, .rings] s (State.txCrossed s k id) := by
  unfold State.txCrossed
  cases id with
  | none => exact ((State.ringCnt_within _ _).mono).trans ((State.ringMod_within _ _ _).mono)
  | some i =>
    have h : Within [.evWait, .nextId, .rings] s { s with nextId := i + 1 } := (Within.nextId _ _).mono
    exact ((h.trans ((State.ringCnt_within _ _).mono)).trans ((State.ringMod_within _ _ _).mono)).trans
      ((State.tsWaiting_within _ _).mono)

theorem State.txGrainBad_within (s : State) (id) : Within allParts s (State.txGrainBad s id) := by
  unfold State.txGrainBad
  cases id with
  | none => exact ((State.countGrain_within _).mono).trans ((State.detect_within _ _ _).mono)
  | some i => exact (((State.sendFate_within _ _ _).mono).trans ((State.countGrain_within _).mono)).trans ((State.detect_within _ _ _).mono)

theorem execTxFrameCross_within (grainBad) (s : State) : WithinO allParts s (execTxFrameCross grainBad s) := by
  unfold execTxFrameCross
  split
  · exact WithinO.next (Within.refl _)
  · split
    · exact WithinO.next (Within.refl _)
    · exact WithinO.cut (fun h1 => WithinO.ite (WithinO.next (((h1).trans ((State.ringDrop_within _ _ _).mono)).trans
        ((State.ringMod_within _ _ _).mono))) (WithinO.ite (WithinO.next (Within.refl _)) (WithinO.cut (fun h2 =>
        WithinO.next (Within.ite ((h2).trans ((State.txGrainBad_within _ _).mono)) ((h2).trans ((State.hostIn_within _ _
        _ _ _ _).mono)))) ((h1).trans ((State.txCrossed_within _ _ _).mono))))) ((State.ringsMod_within _ _).mono)

theorem State.reportSend_within (s : State) (k) (id) (report) : Within [.timers, .rings] s (State.reportSend s k id
    report) := by
  unfold State.reportSend
  exact (((State.ringMod_within _ _ _).mono).trans ((State.stopTimer_within _ _).mono)).trans ((State.tsWaiting_within _
    _).mono)

theorem execTxFateReport_within (s : State) : WithinO [.timers, .rings, .fates] s (execTxFateReport s) := by
  unfold execTxFateReport
  split
  · exact WithinO.next (Within.refl _)
  · rename_i id fate rest e
    have h : Within [.timers, .rings, .fates] s { s with fates := rest } := (Within.fates _ _).mono
    dsimp only
    split
    · exact WithinO.next (h.trans ((State.reportSend_within _ _ _ _).mono))
    · exact WithinO.next h

theorem execTsWaitExpire_within (t) (s : State) : WithinO [.timers, .evWait, .rings] s (execTsWaitExpire t s) := by
  unfold execTsWaitExpire
  extract_lets
  split
  · exact WithinO.next (Within.ite (((State.ringCnt_within _ _).mono).trans ((State.reportSend_within _ _ _ _).mono))
      (Within.refl _))
  · exact WithinO.next (Within.refl _)

theorem State.writeDescs_within (s : State) (k) (first) (ds) : Within [.outbox] s (State.writeDescs s k first ds) := by
  unfold State.writeDescs
  exact Within.foldl (Within.refl _) (fun _ _ => (State.emit_within _ _).mono)

theorem State.passSends_within (s : State) (k) : Within [.rings] s (State.passSends s k) := by
  unfold State.passSends
  exact ((State.ringMod_within _ _ _).mono).trans ((State.wr_within _ _ _).mono)

theorem execTxWriteback_within (t) (s : State) : WithinO [.outbox, .evWait, .rings] s (execTxWriteback t s) := by
  unfold execTxWriteback
  extract_lets
  split
  · exact WithinO.next (Within.refl _)
  · exact WithinO.cut (fun h1 => WithinO.cut (fun h2 => WithinO.next (((h2).trans ((State.ringIrq_within _
      _).mono)).trans ((State.passSends_within _ _).mono))) (((h1).trans ((State.ringCnt_within _ _).mono)).trans
      ((State.ringMod_within _ _ _).mono))) ((State.writeDescs_within _ _ _ _).mono)

theorem execRxFrameArrive_within (s : State) : WithinO [.outbox, .timers, .evWait, .rings] s (execRxFrameArrive s) := by
  unfold execRxFrameArrive
  split
  · exact WithinO.next (Within.refl _)
  · exact WithinO.cut (fun h1 => WithinO.ite (WithinO.next (((h1).trans ((State.ringDrop_within _ _ _).mono)).trans
      ((State.ringEvent_within _ _ _).mono))) (WithinO.ite (WithinO.next ((h1).trans ((State.ringMod_within _ _
      _).mono))) (WithinO.next ((h1).trans ((State.rxServe_within _ _ _).mono))))) ((State.ringsMod_within _ _).mono)

theorem execRxWriteback_within (r) (addrs) (s : State) : WithinO [.outbox, .evWait, .rings] s (execRxWriteback r addrs s)
    := by
  unfold execRxWriteback
  extract_lets
  split
  · exact WithinO.next (Within.refl _)
  · exact WithinO.cut (fun h1 => WithinO.cut (fun h2 => WithinO.cut (fun h3 => WithinO.next (((h3).trans
      ((State.ringCnt_within _ _).mono)).trans ((State.ringIrq_within _ _).mono))) (((h2).trans ((State.ringMod_within _
      _ _).mono)).trans ((State.wr_within _ _ _).mono))) ((h1).trans ((State.writeDescs_within _ _ _ _).mono)))
      (Within.foldl (Within.refl _) (fun _ _ => (State.emit_within _ _).mono))

theorem State.mgmtIn_within (s : State) (bytes) : Within [.timers, .evWait, .frames, .nextId, .adm, .fates] s
    (State.mgmtIn s bytes) := by
  unfold State.mgmtIn
  exact Within.ite ((State.mgmtStat_within _ _ _).mono) (Within.matchP ((State.addFrame_within _ _).mono) fun _ _ h1 =>
    Within.ite (h1) (((h1).trans ((State.dropTel_within _ _ _).mono)).trans ((State.discard_within _ _).mono)))

theorem State.mgmtBad_within (s : State) (bytes) (code) : Within [.evWait, .rings] s (State.mgmtBad s bytes code) := by
  unfold State.mgmtBad
  exact Within.ite (((State.mgmtStat_within _ _ _).mono).trans ((State.ringsMod_within _ _).mono))
    ((State.mgmtStat_within _ _ _).mono)

theorem State.mgmtControl_within (s : State) (bytes) : Within [.timers, .evWait, .macs, .frames, .nextId, .adm, .fates] s
    (State.mgmtControl s bytes) := by
  unfold State.mgmtControl
  exact Within.ite (Within.cut (fun h1 => Within.ite ((h1).trans ((State.mgmtStat_within _ _ _).mono)) (Within.ite
    ((h1).trans ((State.pauseApply_within _ _ _ _).mono)) (Within.ite ((h1).trans ((State.mgmtIn_within _ _).mono))
    ((h1).trans ((State.mgmtStat_within _ _ _).mono))))) ((State.ctlCount_within _ _ _ _).mono))
    ((((State.mgmtStat_within _ _ _).mono).trans ((State.mgmtStat_within _ _ _).mono)).trans ((State.mgmtStat_within _ _
    _).mono))

theorem State.mgmtReceive_within (s : State) (bytes) (fcsBad) (part) (rxEr) : Within [.timers, .evWait, .macs, .mgmt,
    .frames, .nextId, .adm, .rings, .fates] s (State.mgmtReceive s bytes fcsBad
  part rxEr) := by
  unfold State.mgmtReceive
  exact Within.cut (fun h1 => Within.ite ((h1).trans ((State.mgmtControl_within _ _).mono)) (Within.cut (fun h2 =>
    Within.ite ((h2).trans ((State.mgmtStat_within _ _ _).mono)) (Within.ite ((h2).trans ((State.mgmtBad_within _ _
    _).mono)) (Within.ite ((h2).trans ((State.mgmtIn_within _ _).mono)) ((h2).trans ((State.mgmtStat_within _ _
    _).mono))))) ((h1).trans ((State.rxCount_within _ _ _ _ _ _).mono)))) (Within.ite (((State.mgmtMod_within _
    _).mono).trans ((State.startTimer_within _ _ _).mono)) (Within.refl _))

theorem execMgmtFrameReceive_within (bytes) (part) (rxEr) (s : State) : WithinO [.timers, .evWait, .macs, .mgmt, .frames,
    .nextId, .adm, .rings, .fates] s (execMgmtFrameReceive bytes part rxEr
  s) := by
  unfold execMgmtFrameReceive
  exact WithinO.next (Within.ite ((State.mgmtReceive_within _ _ _ _ _).mono) (Within.refl _))

theorem execPauseFrameReceive_within (m) (da) (sa) (quanta) (s : State) : WithinO [.timers, .evWait, .macs, .mgmt,
    .frames, .nextId, .adm, .rings, .fates] s (execPauseFrameReceive m da sa
  quanta s) := by
  unfold execPauseFrameReceive
  split
  · exact WithinO.next ((State.ctlFrame_within _ _ _ _ _ _ _).mono)
  · exact WithinO.next (Within.ite ((State.mgmtReceive_within _ _ _ _ _).mono) (Within.refl _))

theorem State.augAt_within (s : State) (c) (addr) : Within [] s (State.augAt s c addr) := by
  unfold State.augAt
  exact ((State.wr2_within _ _ _).mono).trans ((State.wr_within _ _ _).mono)

theorem State.augFetch_within (s : State) (c) (what) (addr) : Within [.outbox, .rings, .aug] s (State.augFetch s c what
    addr) := by
  unfold State.augFetch
  exact ((State.augMod_within _ _ _).mono).trans ((State.readAsk_within _ _).mono)

theorem State.augGiveUp_within (s : State) (c) : Within [.outbox, .rings, .aug] s (State.augGiveUp s c) := by
  unfold State.augGiveUp
  exact Within.ite (((State.augMod_within _ _ _).mono).trans ((State.readOver_within _ _).mono)) (Within.refl _)

theorem State.augPos_within (s : State) (c) : Within [] s (State.augPos s c) := by
  unfold State.augPos
  split
  · exact Within.refl _
  · exact (State.wr_within _ _ _).mono

theorem State.augIdle_within (s : State) (c) (parked) : Within [.aug] s (State.augIdle s c parked) := by
  unfold State.augIdle
  exact Within.cut (fun h1 => (h1).trans ((State.augGo_within _ _ _).mono)) (((State.augMod_within _ _ _).mono).trans
    ((State.wrb_within _ _ _ _).mono))

theorem State.augDrain_within (s : State) (c) : Within [.outbox, .evWait, .rings, .aug] s (State.augDrain s c) := by
  unfold State.augDrain
  exact Within.cut (fun h1 => Within.ite (h1) (Within.ite (((h1).trans ((State.wrb_within _ _ _ _).mono)).trans ((State.augIdle_within _ _ _).mono)) ((by split; exact (h1).trans ((State.augFaulted_within _ _ _).mono); exact Within.ite (((h1).trans ((State.augMod_within _ _ _).mono)).trans ((State.augGo_within _ _ _).mono)) (h1))))) ((State.augGiveUp_within _ _).mono)

theorem State.augFail_within (s : State) (c) (cause) : Within [.outbox, .evWait, .rings, .aug] s (State.augFail s c
    cause) := by
  unfold State.augFail
  exact ((State.augMod_within _ _ _).mono).trans ((State.augDrain_within _ _).mono)

theorem State.augReread_within (s : State) (c) : Within [.outbox, .rings, .aug] s (State.augReread s c) := by
  unfold State.augReread
  exact (((State.wrb_within _ _ _ _).mono).trans ((State.augGo_within _ _ _).mono)).trans ((State.augFetch_within _ _ _
    _).mono)

theorem State.augComplete_within (s : State) (c) (u2) : Within [.outbox, .fabric, .rings, .aug] s (State.augComplete s c
    u2) := by
  induction u2 generalizing s with
  | zero => exact Within.refl _
  | succ n ih =>
    unfold State.augComplete
    extract_lets x
    split
    · exact Within.refl _
    · refine Within.ite (Within.refl _) ?_
      extract_lets t
      have h : Within [.outbox, .fabric, .rings, .aug] s t := Within.ite ((State.pulse_within _ _).mono) (Within.refl _)
      refine Within.ite (Within.ite (h.trans ((State.augMod_within _ _ _).mono)) (Within.ite ?_ (h.trans
        ((State.augIdle_within _ _ _).mono)))) ?_
      · exact ((h.trans ((State.wrb_within _ _ _ _).mono)).trans ((State.augMod_within _ _ _).mono)).trans
          ((State.augReread_within _ _).mono)
      · exact (((h.trans ((State.augAt_within _ _ _).mono)).trans ((State.augMod_within _ _ _).mono)).trans
          ((State.augPos_within _ _).mono)).trans (ih _)

theorem State.augStart_within (s : State) (c) : Within [.outbox, .evWait, .rings, .aug] s (State.augStart s c) := by
  unfold State.augStart
  split
  · exact Within.refl _
  · exact Within.ite (Within.refl _) ((by split; exact (State.augFail_within _ _ _).mono; exact (State.augMod_within _ _ _).mono))

theorem State.augAhead_within (s : State) (c) : Within [.outbox, .rings, .aug] s (State.augAhead s c) := by
  unfold State.augAhead
  extract_lets
  split
  · exact Within.ite ((State.augFetch_within _ _ _ _).mono) (Within.refl _)
  · exact Within.refl _

theorem State.augSettle_within (s : State) (c) : Within [.outbox, .evWait, .fabric, .rings, .aug] s (State.augSettle s c)
    := by
  unfold State.augSettle
  exact (((((State.augPos_within _ _).mono).trans ((State.augComplete_within _ _ _).mono)).trans ((State.augStart_within
    _ _).mono)).trans ((State.augAhead_within _ _).mono)).trans ((State.augDrain_within _ _).mono)

theorem State.augGoOn_within (s : State) (c) (new) : Within [.outbox, .rings, .aug] s (State.augGoOn s c new) := by
  unfold State.augGoOn
  exact Within.ite ((State.augReread_within _ _).mono) (((((State.wrb_within _ _ _ _).mono).trans ((State.augGo_within _
    _ _).mono)).trans ((State.augAt_within _ _ _).mono)).trans ((State.augFetch_within _ _ _ _).mono))

theorem State.augDoorbell_within (s : State) (c) (v) : Within [.outbox, .rings, .aug] s (State.augDoorbell s c v) := by
  unfold State.augDoorbell
  split
  · exact (State.augGoOn_within _ _ _).mono
  · exact Within.refl _
  · exact (State.wrb_within _ _ _ _).mono

theorem State.augResume_within (s : State) (c) : Within [.outbox, .rings, .aug] s (State.augResume s c) := by
  unfold State.augResume
  exact Within.cut (fun h1 => Within.ite (Within.cut (fun h2 => Within.ite (((h2).trans ((State.wrb_within _ _ _
    _).mono)).trans ((State.augGoOn_within _ _ _).mono)) (h2)) (((h1).trans ((State.augGo_within _ _ _).mono)).trans
    ((State.augMod_within _ _ _).mono))) (Within.ite ((h1).trans ((State.augReread_within _ _).mono)) (((h1).trans
    ((State.augGo_within _ _ _).mono)).trans ((State.augFetch_within _ _ _ _).mono)))) ((State.wrf_within _ _ _ _ _).mono)

theorem State.augAbort_within (s : State) (c) : Within [.outbox, .evWait, .rings, .aug] s (State.augAbort s c) := by
  unfold State.augAbort
  exact Within.cut (fun h1 => Within.ite (((h1).trans ((State.augMod_within _ _ _).mono)).trans ((State.augDrain_within _
    _).mono)) ((h1).trans ((State.augIdle_within _ _ _).mono))) (((State.wrb_within _ _ _ _).mono).trans
    ((State.wrf_within _ _ _ _ _).mono))

theorem State.augCtlWrite_within (s : State) (c) (v) : Within [.outbox, .evWait, .fabric, .rings, .aug] s
    (State.augCtlWrite s c v) := by
  unfold State.augCtlWrite
  exact Within.cut (fun h1 => Within.ite ((h1).trans ((State.augAbort_within _ _).mono)) ((by split; exact ((h1).trans ((State.augMod_within _ _ _).mono)).trans ((State.augGo_within _ _ _).mono); exact (h1).trans ((State.augDrain_within _ _).mono); exact (h1).trans ((State.augSettle_within _ _).mono); exact (h1).trans ((State.augResume_within _ _).mono); exact Within.ite ((h1).trans ((State.augResume_within _ _).mono)) (h1); exact h1))) ((State.wr_within _ _ _).mono)

theorem execAugDoorbell_within (c) (v) (s : State) : WithinO [.outbox, .mesh, .gates, .rings, .aug] s (execAugDoorbell c
    v s) := by
  unfold execAugDoorbell
  exact WithinO.next ((State.cfg_within _ _ _ (fun _ => (State.augDoorbell_within _ _ _).mono)))

theorem execAugPause_within (c) (v) (s : State) : WithinO [.outbox, .evWait, .mesh, .gates, .fabric, .rings, .aug] s
    (execAugPause c v s) := by
  unfold execAugPause
  exact WithinO.next ((State.cfg_within _ _ _ (fun _ => (State.augCtlWrite_within _ _ _).mono)))

theorem execAugUnpause_within (c) (v) (s : State) : WithinO [.outbox, .evWait, .mesh, .gates, .fabric, .rings, .aug] s
    (execAugUnpause c v s) := by
  unfold execAugUnpause
  exact WithinO.next ((State.cfg_within _ _ _ (fun _ => (State.augCtlWrite_within _ _ _).mono)))

theorem execAugResume_within (c) (v) (s : State) : WithinO [.outbox, .evWait, .mesh, .gates, .fabric, .rings, .aug] s
    (execAugResume c v s) := by
  unfold execAugResume
  exact WithinO.next ((State.cfg_within _ _ _ (fun _ => (State.augCtlWrite_within _ _ _).mono)))

theorem execAugAbort_within (c) (v) (s : State) : WithinO [.outbox, .evWait, .mesh, .gates, .fabric, .rings, .aug] s
    (execAugAbort c v s) := by
  unfold execAugAbort
  exact WithinO.next ((State.cfg_within _ _ _ (fun _ => (State.augCtlWrite_within _ _ _).mono)))

theorem State.augTake_within (s : State) (c) (what) (d) : Within [.outbox, .evWait, .fabric, .rings, .aug] s
    (State.augTake s c what d) := by
  unfold State.augTake
  split
  · exact Within.ite ((State.augFail_within _ _ _).mono) (Within.cut (fun h1 => Within.ite ((h1).trans
      ((State.augIdle_within _ _ _).mono)) (Within.cut (fun h2 => Within.ite ((h2).trans ((State.augDrain_within _
      _).mono)) ((h2).trans ((State.augFetch_within _ _ _ _).mono))) (((h1).trans ((State.wrb_within _ _ _
      _).mono)).trans ((State.augAt_within _ _ _).mono)))) ((State.augMod_within _ _ _).mono))
  · exact Within.ite ((State.augFail_within _ _ _).mono) (((State.augMod_within _ _ _).mono).trans
      ((State.augSettle_within _ _).mono))
  · exact Within.ite ((State.augFail_within _ _ _).mono) (((State.augMod_within _ _ _).mono).trans
      ((State.augSettle_within _ _).mono))

theorem execAugDescArrive_within (c) (words) (index) (err) (s : State) : WithinO [.outbox, .evWait, .fabric, .rings,
    .aug] s (execAugDescArrive c words index err
  s) := by
  unfold execAugDescArrive
  split
  · exact WithinO.next (Within.refl _)
  · exact WithinO.ite (WithinO.next (Within.refl _)) (WithinO.cut (fun h1 => WithinO.ite (WithinO.next ((h1).trans
      ((State.augDrain_within _ _).mono))) (WithinO.ite (WithinO.next ((h1).trans ((State.augFail_within _ _ _).mono)))
      (WithinO.next ((h1).trans ((State.augTake_within _ _ _ _).mono))))) (((State.augMod_within _ _ _).mono).trans
      ((State.readOver_within _ _).mono)))

theorem execAugSourceRead_within (c) (read) (err) (s : State) : WithinO [.outbox, .evWait, .fabric, .rings, .aug,
    .augTurn] s (execAugSourceRead c read err s) := by
  unfold execAugSourceRead
  refine WithinO.ite (WithinO.next (Within.refl _)) ?_
  have h : Within [.outbox, .evWait, .fabric, .rings, .aug, .augTurn] s { s with augTurn := (c.val + 1) % 32 } :=
    (Within.augTurn _ _).mono
  have hf : ∀ n, Within [.outbox, .evWait, .fabric, .rings, .aug, .augTurn] s (State.augFail { s with augTurn := (c.val +
    1) % 32 } c n) := fun _ =>
    h.trans ((State.augFail_within _ _ _).mono)
  dsimp only
  split
  · exact WithinO.next h
  · refine WithinO.ite (WithinO.next (h.trans ((State.augStart_within _ _).mono))) (WithinO.ite (WithinO.next (hf _)) ?_)
    split
    · exact WithinO.next (hf _)
    · exact WithinO.next (hf _)
    · exact WithinO.next (hf _)
    · exact WithinO.next (hf _)
    · exact WithinO.next (((h.trans ((State.emit_within _ _).mono)).trans ((State.augMod_within _ _ _).mono)).trans
        ((State.augSettle_within _ _).mono))

theorem execAugWriteResponse_within (c) (i) (err) (s : State) : WithinO [.outbox, .evWait, .fabric, .rings, .aug] s
    (execAugWriteResponse c i err s) := by
  unfold execAugWriteResponse
  exact WithinO.ite (WithinO.next (Within.refl _)) (WithinO.ite (WithinO.cut (fun h1 => WithinO.next (((h1).trans
    ((State.augPos_within _ _).mono)).trans ((State.augFail_within _ _ _).mono))) ((State.augMod_within _ _ _).mono))
    (WithinO.next (((State.augMod_within _ _ _).mono).trans ((State.augSettle_within _ _).mono))))

theorem State.siltLanes_within {ps : List Part} (s : State) (k) (m) (f) (hf : ∀ x y, Within ps x (f x y)) (h : partSub []
    ps = true := by rfl) : Within ps s (State.siltLanes s k m
  f) := by
  unfold State.siltLanes
  exact Within.foldl (Within.refl _) (fun _ _ => Within.ite (hf _ _) (Within.refl _))

theorem State.siltStage_within (s : State) (k) (st) (off) (hi) (lo) : Within [.timers] s (State.siltStage s k st off hi
    lo) := by
  unfold State.siltStage
  exact ((State.siltGo_within _ _ _).mono).trans ((State.startTimer_within _ _ _).mono)

theorem State.siltDetect_within (s : State) (k) : Within [.timers, .lanes, .silt] s (State.siltDetect s k) := by
  unfold State.siltDetect
  exact Within.cut (fun h1 => Within.cut (fun h2 => (h2).trans ((State.siltStage_within _ _ _ _ _ _).mono)) (((h1).trans
    ((State.wrf_within _ _ _ _ _).mono)).trans ((State.siltMod_within _ _ _).mono))) ((State.siltLanes_within _ _ _ _
    (fun _ _ => ((State.lanePower_within _ _ _).mono).trans ((State.laneUnlock_within _ _).mono))))

theorem State.siltClear_within (s : State) (k) : Within [] s (State.siltClear s k) := by
  unfold State.siltClear
  exact ((State.wr_within _ _ _).mono).trans ((State.wr_within _ _ _).mono)

theorem State.siltGap_within (s : State) (k) (lastFail) : Within [.timers] s (State.siltGap s k lastFail) := by
  unfold State.siltGap
  exact Within.cut (fun h1 => (((h1).trans ((State.stopTimer_within _ _).mono)).trans ((State.stopTimer_within _
    _).mono)).trans ((State.startTimer_within _ _ _).mono)) ((((State.siltGo_within _ _ _).mono).trans ((State.wrf_within
    _ _ _ _ _).mono)).trans ((State.siltClear_within _ _).mono))

theorem State.siltFailed_within (s : State) (k) : Within [.timers, .silt] s (State.siltFailed s k) := by
  unfold State.siltFailed
  exact ((State.siltGap_within _ _ _).mono).trans ((State.siltMod_within _ _ _).mono)

theorem State.siltSendCap_within (s : State) (k) : Within [.draws, .outbox, .timers, .evWait, .silt] s (State.siltSendCap
    s k) := by
  unfold State.siltSendCap
  exact ((State.siltMgmt_within _ _ _ _ _).mono).trans ((State.startTimer_within _ _ _).mono)

theorem State.siltNext_within (s : State) (k) (m) (asks) : Within [.draws, .outbox, .timers, .evWait, .lanes, .silt] s
    (State.siltNext s k m asks) := by
  unfold State.siltNext
  exact Within.cut (fun h1 => (by (try extract_lets); split; exact ((h1).trans ((State.siltLanes_within _ _ _ _ (fun _ _ => (State.laneUseBoard_within _ _).mono)))).trans ((State.siltStage_within _ _ _ _ _ _).mono); exact (Within.foldl (h1) (fun _ _ => (State.laneTrain_within _ _ _).mono)).trans ((State.siltStage_within _ _ _ _ _ _).mono); exact Within.cut (fun h2 => Within.cut (fun h3 => (h3).trans ((State.siltSendCap_within _ _).mono)) ((h2).trans ((State.siltMod_within _ _ _).mono))) (((h1).trans ((State.siltLanes_within _ _ _ _ (fun _ _ => (State.laneLockAll_within _ _).mono)))).trans ((State.siltStage_within _ _ _ _ _ _).mono)))) ((State.siltMod_within _ _ _).mono)

theorem execSiltStageDone_within (k) (lanes) (asks) (s : State) : WithinO [.draws, .outbox, .timers, .evWait, .lanes,
    .silt] s (execSiltStageDone k lanes asks s) := by
  unfold execSiltStageDone
  exact WithinO.next (Within.ite ((State.siltNext_within _ _ _ _).mono) (Within.refl _))

theorem execSiltStageTimeout_within (k) (lanes) (asks) (s : State) : WithinO [.draws, .outbox, .timers, .evWait, .lanes,
    .silt] s (execSiltStageTimeout k lanes asks s) := by
  unfold execSiltStageTimeout
  exact WithinO.ite (WithinO.next (Within.refl _)) (WithinO.ite (WithinO.next (Within.ite ((State.siltFailed_within _
    _).mono) (Within.ite ((State.siltNext_within _ _ _ _).mono) (Within.refl _)))) (WithinO.next (Within.ite
    ((State.siltGap_within _ _ _).mono) (Within.refl _))))

theorem execSiltCapSend_within (k) (s : State) : WithinO [.draws, .outbox, .timers, .evWait, .silt] s (execSiltCapSend k
    s) := by
  unfold execSiltCapSend
  exact WithinO.next (Within.ite ((State.siltSendCap_within _ _).mono) (Within.refl _))

theorem State.siltUse_within (s : State) (k) (ls) (spare) : Within [] s (State.siltUse s k ls spare) := by
  unfold State.siltUse
  exact Within.cut (fun h1 => (((h1).trans ((State.wrf_within _ _ _ _ _).mono)).trans ((State.wrf_within _ _ _ _
    _).mono)).trans ((State.wrb_within _ _ _ _).mono)) ((State.wr_within _ _ _).mono)

theorem State.siltToActive_within (s : State) (k) : Within [.timers, .evWait, .lanes, .silt] s (State.siltToActive s k) := by
  unfold State.siltToActive
  exact Within.cut (fun h1 => Within.cut (fun h2 => Within.cut (fun h3 => Within.cut (fun h4 => ((h4).trans
    ((State.siltEvent_within _ _ _).mono)).trans ((State.startTimer_within _ _ _).mono)) ((((h3).trans
    ((State.siltEvent_within _ _ _).mono)).trans ((State.wrf_within _ _ _ _ _).mono)).trans ((State.capJoin_within _
    _).mono))) ((h2).trans ((State.siltMod_within _ _ _).mono))) (((h1).trans ((State.siltUse_within _ _ _
    _).mono)).trans ((State.siltLanes_within _ _ _ _ (fun _ _ => (State.laneStore_within _ _).mono)))))
    ((((State.stopTimer_within _ _).mono).trans ((State.stopTimer_within _ _).mono)).trans ((State.siltGo_within _ _
    _).mono))

theorem State.siltEnd_within (s : State) (k) (code) (had) : Within [.timers, .evWait] s (State.siltEnd s k code had) := by
  unfold State.siltEnd
  exact Within.cut (fun h1 => Within.ite (((h1).trans ((State.wrf_within _ _ _ _ _).mono)).trans ((State.siltEvent_within
    _ _ _).mono)) (h1)) (((State.siltGap_within _ _ _).mono).trans ((State.siltEvent_within _ _ _).mono))

theorem State.siltFault_within (s : State) (k) (code) : Within [.timers, .evWait, .frames, .copies, .adm, .sched, .tel,
    .silt, .fates] s (State.siltFault s k code) := by
  unfold State.siltFault
  exact Within.ite (Within.refl _) (((State.siltVoid_within _ _).mono).trans ((State.siltEnd_within _ _ _ _).mono))

theorem State.siltExchanged_within (s : State) (k) : Within [.timers, .evWait, .lanes, .silt] s (State.siltExchanged s k)
    := by
  unfold State.siltExchanged
  exact Within.ite (Within.refl _) (Within.cut (fun h1 => Within.ite (((h1).trans ((State.siltUnlink_within _
    _).mono)).trans ((State.siltEnd_within _ _ _ _).mono)) (h1)) ((State.siltToActive_within _ _).mono))

theorem execSiltCapReceive_within (k) (words) (s : State) : WithinO [.draws, .outbox, .timers, .evWait, .lanes, .silt] s
    (execSiltCapReceive k words s) := by
  unfold execSiltCapReceive
  exact WithinO.ite (WithinO.next (Within.refl _)) (WithinO.cut (fun h1 => WithinO.ite (WithinO.next (((h1).trans
    ((State.siltMod_within _ _ _).mono)).trans ((State.siltExchanged_within _ _).mono))) (WithinO.next (((h1).trans
    ((State.siltGap_within _ _ _).mono)).trans ((State.siltEvent_within _ _ _).mono)))) (((State.siltMgmt_within _ _ _ _
    _).mono).trans ((State.wrs_within _ _ _).mono)))

theorem execSiltCapAckReceive_within (k) (s : State) : WithinO [.timers, .evWait, .lanes, .silt] s (execSiltCapAckReceive
    k s) := by
  unfold execSiltCapAckReceive
  exact WithinO.next (Within.ite (((State.siltMod_within _ _ _).mono).trans ((State.siltExchanged_within _ _).mono))
    (Within.refl _))

theorem State.siltDown_within (s : State) (k) : Within [.timers, .evWait, .lanes, .frames, .copies, .adm, .sched, .tel,
    .silt, .fates] s (State.siltDown s k) := by
  unfold State.siltDown
  exact Within.cut (fun h1 => Within.cut (fun h2 => ((h2).trans ((State.siltLanes_within _ _ _ _ (fun _ _ =>
    ((State.lanePower_within _ _ _).mono).trans ((State.laneForget_within _ _).mono))))).trans ((State.siltMod_within _ _
    _).mono)) (((h1).trans ((State.siltGo_within _ _ _).mono)).trans ((State.siltClear_within _ _).mono)))
    (((State.siltVoid_within _ _).mono).trans ((State.wrf_within _ _ _ _ _).mono))

theorem State.siltDetach_within (s : State) (k) : Within [.draws, .outbox, .timers, .evWait, .silt] s (State.siltDetach s
    k) := by
  unfold State.siltDetach
  exact Within.cut (fun h1 => Within.ite (((h1).trans ((State.wrf_within _ _ _ _ _).mono)).trans ((State.siltPut_within _
    _ _).mono)) (h1)) ((State.siltMod_within _ _ _).mono)

theorem State.siltDetached_within (s : State) (k) : Within [.draws, .outbox, .timers, .evWait, .silt] s
    (State.siltDetached s k) := by
  unfold State.siltDetached
  exact Within.cut (fun h1 => ((h1).trans ((State.siltPut_within _ _ _).mono)).trans ((State.siltEvent_within _ _
    _).mono)) (((State.capLeave_within _ _).mono).trans ((State.wrf_within _ _ _ _ _).mono))

theorem State.siltForce_within (s : State) (k) : Within [.draws, .outbox, .timers, .evWait, .frames, .copies, .adm,
    .sched, .tel, .silt, .fates] s (State.siltForce s k) := by
  unfold State.siltForce
  exact Within.ite (Within.refl _) (Within.cut (fun h1 => Within.cut (fun h2 => Within.cut (fun h3 => Within.cut (fun h4
    => (h4).trans ((State.siltDetached_within _ _).mono)) (Within.foldl (h3) (fun _ _ => (State.moveBack_within _ _
    _).mono))) ((h2).trans ((State.admMod_within _ _).mono))) (Within.foldl (h1) (fun _ _ => (State.moduleLoss_within _
    _).mono))) ((State.admMod_within _ _).mono))

theorem State.siltBegin_within (s : State) (k) : Within [.timers, .lanes, .silt] s (State.siltBegin s k) := by
  unfold State.siltBegin
  exact Within.ite ((State.siltDetect_within _ _).mono) (Within.refl _)

theorem State.siltCtlWrite_within (s : State) (k) (v) : Within [.draws, .outbox, .timers, .evWait, .lanes, .frames,
    .copies, .adm, .sched, .tel, .silt, .fates] s (State.siltCtlWrite s k v) := by
  unfold State.siltCtlWrite
  exact Within.cut (fun h1 => Within.cut (fun h2 => Within.cut (fun h3 => Within.ite (((h3).trans ((State.wrb_within _ _
    _ _).mono)).trans ((State.siltBegin_within _ _).mono)) (Within.ite (Within.ite (((h3).trans ((State.wrb_within _ _ _
    _).mono)).trans ((State.siltEvent_within _ _ _).mono)) (((h3).trans ((State.wrb_within _ _ _ _).mono)).trans
    ((State.siltDown_within _ _).mono))) (h3))) (Within.ite ((h2).trans ((State.siltForce_within _ _).mono)) (h2)))
    (Within.ite ((h1).trans ((State.siltDetach_within _ _).mono)) (h1))) ((State.wr_within _ _ _).mono)

theorem execSiltEnable_within (k) (v) (s : State) : WithinO [.draws, .outbox, .timers, .evWait, .lanes, .frames, .copies,
    .mesh, .adm, .sched, .gates, .tel, .silt, .fates] s (execSiltEnable k v s) := by
  unfold execSiltEnable
  exact WithinO.next ((State.cfg_within _ _ _ (fun _ => (State.siltCtlWrite_within _ _ _).mono)))

theorem execSiltDisable_within (k) (v) (s : State) : WithinO [.draws, .outbox, .timers, .evWait, .lanes, .frames,
    .copies, .mesh, .adm, .sched, .gates, .tel, .silt, .fates] s (execSiltDisable k v s) := by
  unfold execSiltDisable
  exact WithinO.next ((State.cfg_within _ _ _ (fun _ => (State.siltCtlWrite_within _ _ _).mono)))

theorem execSiltDetach_within (k) (v) (s : State) : WithinO [.draws, .outbox, .timers, .evWait, .lanes, .frames, .copies,
    .mesh, .adm, .sched, .gates, .tel, .silt, .fates] s (execSiltDetach k v s) := by
  unfold execSiltDetach
  exact WithinO.next ((State.cfg_within _ _ _ (fun _ => (State.siltCtlWrite_within _ _ _).mono)))

theorem execSiltDrainForce_within (k) (v) (s : State) : WithinO [.draws, .outbox, .timers, .evWait, .lanes, .frames,
    .copies, .mesh, .adm, .sched, .gates, .tel, .silt, .fates] s (execSiltDrainForce k v s) := by
  unfold execSiltDrainForce
  exact WithinO.next ((State.cfg_within _ _ _ (fun _ => (State.siltCtlWrite_within _ _ _).mono)))

theorem execSiltDetachDone_within (k) (s : State) : WithinO [.draws, .outbox, .timers, .evWait, .silt] s
    (execSiltDetachDone k s) := by
  unfold execSiltDetachDone
  exact WithinO.next (Within.ite ((State.siltDetached_within _ _).mono) (Within.refl _))

theorem execSiltGapRetry_within (k) (s : State) : WithinO [.timers, .lanes, .silt] s (execSiltGapRetry k s) := by
  unfold execSiltGapRetry
  exact WithinO.ite (WithinO.cut (fun h1 => WithinO.ite (WithinO.next ((h1).trans ((State.siltDetect_within _ _).mono)))
    (WithinO.next (((h1).trans ((State.siltGo_within _ _ _).mono)).trans ((State.siltLanes_within _ _ _ _ (fun _ _ =>
    (State.lanePower_within _ _ _).mono)))))) ((State.stopTimer_within _ _).mono)) (WithinO.next (Within.refl _))

theorem State.siltAck_within (s : State) (k) (ack) : Within [.draws, .outbox, .timers, .evWait, .silt] s (State.siltAck s
    k ack) := by
  unfold State.siltAck
  split
  · exact Within.refl _
  · exact Within.cut (fun h1 => (((h1).trans ((State.stopTimer_within _ _).mono)).trans ((State.stopTimer_within _
      _).mono)).trans ((State.siltPumpAll_within _ _).mono)) ((State.siltMod_within _ _ _).mono)

theorem State.siltResend_within (s : State) (k) (i) : Within [.draws, .outbox, .timers, .evWait, .frames, .copies, .adm,
    .sched, .tel, .silt, .fates] s (State.siltResend s k i) := by
  unfold State.siltResend
  exact Within.cut (fun h1 => Within.cut (fun h2 => Within.cut (fun h3 => Within.ite ((h3).trans ((State.siltFault_within
    _ _ _).mono)) (h3)) (Within.ite (h2) ((h2).trans ((State.startTimer_within _ _ _).mono)))) (((h1).trans
    ((State.siltCnt_within _ _ _ _).mono)).trans ((State.siltMod_within _ _ _).mono))) (Within.foldl (Within.refl _) (fun
    _ _ => (State.siltEmit_within _ _ _ _ _ _).mono))

theorem State.siltDiscard_within (s : State) (k) : Within [.draws, .outbox, .timers, .evWait, .silt] s (State.siltDiscard
    s k) := by
  unfold State.siltDiscard
  exact Within.cut (fun h1 => Within.ite (h1) (((h1).trans ((State.siltMod_within _ _ _).mono)).trans
    ((State.siltMgmt_within _ _ _ _ _).mono))) (((State.siltCnt_within _ _ _ _).mono).trans ((State.siltMod_within _ _
    _).mono))

theorem State.siltHear_within {ps : List Part} (s : State) (k) (ack) (f) (hf : ∀ x, Within ps x (f x)) (h : partSub
    [.draws, .outbox, .timers, .evWait, .silt] ps = true := by rfl) : Within ps s (State.siltHear s k ack f)
  := by
  unfold State.siltHear
  exact Within.ite (((State.siltAck_within _ _ _).monoOf h).trans (hf _)) (Within.refl _)

theorem State.writeAcked_within (s : State) (k) (u2) : Within [.timers, .evWait, .frames, .adm, .silt] s
    (State.writeAcked s k u2) := by
  induction u2 generalizing s with
  | zero => exact Within.refl _
  | succ n ih =>
    unfold State.writeAcked
    split
    · exact Within.refl _
    · extract_lets t1 t2
      have h1 : Within [.timers, .evWait, .frames, .adm, .silt] s t1 := (State.siltMod_within _ _ _).mono
      have h2 : Within [.timers, .evWait, .frames, .adm, .silt] s t2 := by
        refine h1.trans ?_
        dsimp only [t2]
        split
        · exact Within.ite (Within.refl _) (Within.ite ((((State.occAdd_within _ _ _).mono).trans ((State.spillMod_within
            _ _ _).mono)).trans ((State.setFrame_within _ _ _).mono)) ((State.moveAcked_within _ _ _ _).mono))
        · exact Within.refl _
      exact h2.trans (ih _)

theorem State.readBack_within (s : State) (k) (addr) (err) (grainBad) : Within allParts s (State.readBack s k addr err
    grainBad)
  := by
  unfold State.readBack
  split
  · exact Within.refl _
  · exact Within.ite (Within.refl _) (Within.cut (fun h1 => (by (try extract_lets); split; exact Within.ite ((h1).trans ((State.siltCnt_within _ _ _ _).mono)) (h1); exact Within.ite (Within.ite ((h1).trans ((State.siltCnt_within _ _ _ _).mono)) (h1)) (Within.ite ((((h1).trans ((State.siltCnt_within _ _ _ _).mono)).trans ((State.fetchMod_within _ _ _).mono)).trans ((State.moduleLoss_within _ _).mono)) (Within.ite ((h1).trans ((State.fetchDone_within _ _ _ _).mono)) (Within.ite ((((h1).trans ((State.occAdd_within _ _ _).mono)).trans ((State.fetchMod_within _ _ _).mono)).trans ((State.setFrame_within _ _ _).mono)) ((h1).trans ((State.fetchDone_within _ _ _ _).mono))))))) ((State.siltMod_within _ _ _).mono))

theorem State.siltAct_within (s : State) (k) (u2) : Within allParts s (State.siltAct s k u2) := by
  unfold State.siltAct
  split
  · exact ((State.writeAcked_within _ _ _).mono).trans ((State.readBack_within _ _ _ _ _).mono)
  · exact (State.writeAcked_within _ _ _).mono
  · exact ((State.siltMod_within _ _ _).mono).trans ((State.siltPumpAll_within _ _).mono)
  · exact Within.cut (fun h1 => (by (try extract_lets); split; exact h1; exact (h1).trans ((State.siltEvent_within _ _ _).mono); exact (h1).trans ((State.siltFault_within _ _ _).mono))) ((State.wrs_within _ _ _).mono)

theorem State.siltAccept_within (s : State) (k) (seq) (ack) (m) : Within allParts s (State.siltAccept s k seq ack m) := by
  unfold State.siltAccept
  exact Within.cut (fun h1 => Within.cut (fun h2 => Within.cut (fun h3 => Within.ite ((h3).trans
    ((State.siltTimers_within _ _).mono)) (h3)) (((h2).trans ((State.stopTimer_within _ _).mono)).trans
    ((State.siltAct_within _ _ _).mono))) ((h1).trans ((State.siltMod_within _ _ _).mono))) (((State.siltAck_within _ _
    _).mono).trans ((State.siltCnt_within _ _ _ _).mono))

theorem State.siltRelease_within (s : State) (k) (u2) : Within allParts s (State.siltRelease s k u2) := by
  induction u2 generalizing s with
  | zero => exact Within.refl _
  | succ n ih =>
    unfold State.siltRelease
    split
    · exact Within.refl _
    · exact (((State.siltMod_within _ _ _).mono).trans ((State.siltAccept_within _ _ _ _ _).mono)).trans (ih _)

theorem State.siltTake_within (s : State) (k) (seq) (ack) (m) : Within allParts s (State.siltTake s k seq ack m) := by
  unfold State.siltTake
  exact Within.ite (Within.refl _) (Within.ite (((State.siltAccept_within _ _ _ _ _).mono).trans
    ((State.siltRelease_within _ _ _).mono)) (Within.ite ((State.siltMod_within _ _ _).mono) ((State.siltDiscard_within _
    _).mono)))

theorem execWriteAckReceive_within (k) (seq) (ack) (count) (s : State) : WithinO allParts s (execWriteAckReceive k seq
    ack count
  s) := by
  unfold execWriteAckReceive
  exact WithinO.next ((State.siltTake_within _ _ _ _ _).mono)

theorem execReadDataReceive_within (k) (seq) (ack) (addr) (wack) (err) (grainBad) (s : State) : WithinO allParts s
  (execReadDataReceive k seq ack addr wack err grainBad s) := by
  unfold execReadDataReceive
  exact WithinO.next ((State.siltTake_within _ _ _ _ _).mono)

theorem execCreditReceive_within (k) (seq) (ack) (wcred) (rcred) (s : State) : WithinO allParts s (execCreditReceive k
    seq ack
  wcred rcred s) := by
  unfold execCreditReceive
  exact WithinO.next ((State.siltTake_within _ _ _ _ _).mono)

theorem execModuleStatusReceive_within (k) (seq) (ack) (words) (s : State) : WithinO allParts s (execModuleStatusReceive
    k seq
  ack words s) := by
  unfold execModuleStatusReceive
  exact WithinO.next ((State.siltTake_within _ _ _ _ _).mono)

theorem execNakReceive_within (k) (ack) (expected) (s : State) : WithinO [.draws, .outbox, .timers, .evWait, .frames,
    .copies, .adm, .sched, .tel, .silt, .fates] s (execNakReceive k ack expected s) := by
  unfold execNakReceive
  exact WithinO.next ((State.siltHear_within _ _ _ _ (fun _ => (by split; exact (State.siltResend_within _ _ _).mono; exact Within.refl _))))

theorem execNullFlitReceive_within (k) (ack) (s : State) : WithinO [.draws, .outbox, .timers, .evWait, .silt] s
    (execNullFlitReceive k ack s) := by
  unfold execNullFlitReceive
  exact WithinO.next ((State.siltHear_within _ _ _ _ (fun _ => Within.refl _)))

theorem execReplayTimeout_within (k) (s : State) : WithinO [.draws, .outbox, .timers, .evWait, .frames, .copies, .adm,
    .sched, .tel, .silt, .fates] s (execReplayTimeout k s) := by
  unfold execReplayTimeout
  exact WithinO.next (Within.ite ((State.siltResend_within _ _ _).mono) (Within.refl _))

theorem execSiltLossTimeout_within (k) (s : State) : WithinO [.timers, .evWait, .frames, .copies, .adm, .sched, .tel,
    .silt, .fates] s (execSiltLossTimeout k s) := by
  unfold execSiltLossTimeout
  exact WithinO.next (Within.ite ((State.siltFault_within _ _ _).mono) (Within.refl _))

theorem execSiltNullSend_within (k) (s : State) : WithinO [.draws, .outbox, .timers, .evWait, .silt] s (execSiltNullSend
    k s) := by
  unfold execSiltNullSend
  exact WithinO.next (Within.ite ((State.siltUnseq_within _ _ _ _ _).mono) (Within.refl _))

theorem State.siltSendMap_within (s : State) (k) : Within [.draws, .outbox, .timers, .evWait, .silt] s (State.siltSendMap
    s k) := by
  unfold State.siltSendMap
  split
  · exact ((State.siltMgmt_within _ _ _ _ _).mono).trans ((State.startTimer_within _ _ _).mono)
  · exact Within.refl _

theorem State.siltRemap_within (s : State) (k) (ls) (spare) : Within [.draws, .outbox, .timers, .evWait, .silt] s
    (State.siltRemap s k ls spare) := by
  unfold State.siltRemap
  exact Within.cut (fun h1 => ((h1).trans ((State.siltMod_within _ _ _).mono)).trans ((State.siltSendMap_within _
    _).mono)) ((State.siltUse_within _ _ _ _).mono)

theorem State.siltLost_within (s : State) (k) (i) : Within [.draws, .outbox, .timers, .evWait, .lanes, .frames, .copies,
    .adm, .sched, .tel, .silt, .fates] s (State.siltLost s k i) := by
  unfold State.siltLost
  exact Within.cut (fun h1 => Within.cut (fun h2 => Within.ite ((h2).trans ((State.wrb_within _ _ _ _).mono)) (Within.ite (h2) (Within.cut (fun h3 => (by (try extract_lets); split; exact ((h3).trans ((State.siltRemap_within _ _ _ _).mono)).trans ((State.siltEvent_within _ _ _).mono); exact Within.ite (((h3).trans ((State.siltRemap_within _ _ _ _).mono)).trans ((State.siltEvent_within _ _ _).mono)) ((h3).trans ((State.siltFault_within _ _ _).mono)))) ((h2).trans ((State.siltCnt_within _ _ _ _).mono))))) ((h1).trans ((State.siltMod_within _ _ _).mono))) (((State.laneUnlock_within _ _).mono).trans ((State.laneMod_within _ _ _).mono))

theorem State.siltWake_within (s : State) : Within [.draws, .outbox, .timers, .evWait, .lanes, .frames, .copies, .adm,
    .sched, .tel, .silt, .fates] s (State.siltWake s) := by
  unfold State.siltWake
  exact Within.foldl (Within.refl _) (fun _ _ => Within.cut (fun h1 => Within.foldl (h1) (fun _ _ => Within.ite
    ((State.siltLost_within _ _ _).mono) (Within.refl _))) (Within.ite ((State.siltBegin_within _ _).mono) (Within.refl
    _)))

theorem execSiltLaneLost_within (k) (i) (s : State) : WithinO [.draws, .outbox, .timers, .evWait, .lanes, .frames,
    .copies, .adm, .sched, .tel, .silt, .fates] s (execSiltLaneLost k i s) := by
  unfold execSiltLaneLost
  exact WithinO.next (Within.ite ((State.siltLost_within _ _ _).mono) (Within.refl _))

theorem execLaneFailReceive_within (k) (ack) (i) (s : State) : WithinO [.draws, .outbox, .timers, .evWait, .lanes,
    .frames, .copies, .adm, .sched, .tel, .silt, .fates] s (execLaneFailReceive k ack i s) := by
  unfold execLaneFailReceive
  exact WithinO.next ((State.siltHear_within _ _ _ _ (fun _ => Within.ite ((State.siltLost_within _ _ _).mono)
    (Within.refl _))))

theorem execLaneMapResend_within (k) (s : State) : WithinO [.draws, .outbox, .timers, .evWait, .silt] s
    (execLaneMapResend k s) := by
  unfold execLaneMapResend
  exact WithinO.next (Within.ite ((State.siltSendMap_within _ _).mono) (Within.refl _))

theorem execLaneMapAckReceive_within (k) (ack) (map) (s : State) : WithinO [.draws, .outbox, .timers, .evWait, .silt] s
    (execLaneMapAckReceive k ack map s) := by
  unfold execLaneMapAckReceive
  exact WithinO.next ((State.siltHear_within _ _ _ _ (fun _ => Within.ite (((State.siltMod_within _ _ _).mono).trans
    ((State.stopTimer_within _ _).mono)) (Within.refl _))))

theorem execSiltSpareRecover_within (k) (i) (s : State) : WithinO [.draws, .outbox, .timers, .evWait, .lanes, .silt] s
    (execSiltSpareRecover k i s) := by
  unfold execSiltSpareRecover
  exact WithinO.ite (WithinO.next (Within.refl _)) (WithinO.cut (fun h1 => WithinO.cut (fun h2 => WithinO.ite
    (WithinO.next ((h2).trans ((State.siltRemap_within _ _ _ _).mono))) (WithinO.next ((h2).trans ((State.wrb_within _ _
    _ _).mono)))) ((h1).trans ((State.siltEvent_within _ _ _).mono))) ((((State.lanePower_within _ _ _).mono).trans
    ((State.laneLockAll_within _ _).mono)).trans ((State.laneMod_within _ _ _).mono)))

theorem State.siltCrcError_within (s : State) (k) (i) : Within [.draws, .outbox, .timers, .evWait, .lanes, .frames,
    .copies, .adm, .sched, .tel, .silt, .fates] s (State.siltCrcError s k i) := by
  unfold State.siltCrcError
  exact Within.cut (fun h1 => Within.ite (((h1).trans ((State.siltMod_within _ _ _).mono)).trans ((State.siltLost_within
    _ _ _).mono)) ((h1).trans ((State.siltMod_within _ _ _).mono))) ((State.inc_within _ _ _ _).mono)

theorem execFlitDiscard_within (k) (lane) (errored) (bytes) (s : State) : WithinO [.draws, .outbox, .timers, .evWait,
    .lanes, .frames, .copies, .adm, .sched, .tel, .silt, .fates] s (execFlitDiscard k lane errored
  bytes s) := by
  unfold execFlitDiscard
  exact WithinO.ite (WithinO.next (Within.refl _)) (WithinO.ite (WithinO.next ((State.siltDiscard_within _ _).mono))
    (WithinO.ite (WithinO.next (((State.siltDiscard_within _ _).mono).trans ((State.siltCrcError_within _ _ _).mono)))
    (WithinO.ite (WithinO.next (((State.siltCnt_within _ _ _ _).mono).trans ((State.siltFault_within _ _ _).mono)))
    (WithinO.ite (WithinO.next ((State.siltDiscard_within _ _).mono)) (WithinO.next (Within.refl _))))))

theorem execStuffError_within (k) (i) (symbols) (s : State) : WithinO [.evWait] s (execStuffError k i symbols s) := by
  unfold execStuffError
  exact WithinO.next (Within.ite ((State.inc_within _ _ _ _).mono) (Within.refl _))

theorem State.laneDropped_within (s : State) (base) : Within [.draws, .outbox, .timers, .evWait, .lanes, .ports, .macs,
    .frames, .copies, .adm, .sched, .tel, .silt, .fates] s (State.laneDropped s base) := by
  unfold State.laneDropped
  exact Within.ite ((State.laneUnlock_within _ _).mono) (Within.ite ((State.siltLost_within _ _ _).mono) ((by split; exact (State.lanesLost_within _ _ _).mono; exact (State.laneUnlock_within _ _).mono)))

theorem State.testEnd_within (s : State) (base) : Within [.lanes] s (State.testEnd s base) := by
  unfold State.testEnd
  exact Within.ite ((((State.wrb_within _ _ _ _).mono).trans ((State.wrb_within _ _ _ _).mono)).trans
    ((State.lanePower_within _ _ _).mono)) (Within.refl _)

theorem State.genStart_within (s : State) (base) : Within [.draws, .lanes] s (State.genStart s base) := by
  unfold State.genStart
  exact Within.ite ((State.laneMod_within _ _ _).mono) (Within.matchP ((State.draw_within _).mono) fun _ _ h1 =>
    (h1).trans ((State.laneMod_within _ _ _).mono))

theorem State.testBegin_within (s : State) (base) : Within [.draws, .lanes] s (State.testBegin s base) := by
  unfold State.testBegin
  exact ((((State.laneUseStored_within _ _).mono).trans ((State.wrb_within _ _ _ _).mono)).trans ((State.wrb_within _ _ _
    _).mono)).trans ((State.genStart_within _ _).mono)

theorem State.laneToPort_within (s : State) (base) : Within [.lanes] s (State.laneToPort s base) := by
  unfold State.laneToPort
  exact Within.ite (Within.cut (fun h1 => Within.ite ((h1).trans ((State.laneMod_within _ _ _).mono)) (h1))
    ((State.lanePower_within _ _ _).mono)) (Within.ite (Within.refl _) (Within.cut (fun h2 => Within.ite ((h2).trans
    ((State.laneDormant_within _ _).mono)) (Within.ite ((h2).trans ((State.laneMod_within _ _ _).mono)) (Within.ite (h2)
    ((h2).trans ((State.laneMod_within _ _ _).mono))))) ((State.lanePower_within _ _ _).mono)))

theorem State.laneMode_within (s : State) (base) (old) (mode) : Within [.draws, .outbox, .timers, .evWait, .lanes,
    .ports, .macs, .frames, .copies, .adm, .sched, .tel, .silt, .fates] s (State.laneMode s base old mode) := by
  unfold State.laneMode
  exact Within.cut (fun h1 => Within.ite (Within.ite (h1) ((h1).trans ((State.testBegin_within _ _).mono))) (Within.ite
    ((((h1).trans ((State.testEnd_within _ _).mono)).trans ((State.laneDropped_within _ _).mono)).trans
    ((State.lanePower_within _ _ _).mono)) (Within.ite (h1) (Within.cut (fun h2 => ((h2).trans ((State.testEnd_within _
    _).mono)).trans ((State.laneToPort_within _ _).mono)) (Within.ite ((h1).trans ((State.laneDropped_within _ _).mono))
    (h1)))))) (Within.ite (((State.wrf_within _ _ _ _ _).mono).trans ((State.raiseEvt_within _ _ _).mono)) (Within.refl
    _))

theorem State.laneRestart_within (s : State) (base) : Within [.lanes] s (State.laneRestart s base) := by
  unfold State.laneRestart
  exact Within.ite ((State.laneUseBoard_within _ _).mono) (Within.refl _)

theorem State.laneCtlWrite_within (s : State) (base) (v) : Within [.draws, .outbox, .timers, .evWait, .lanes, .ports,
    .macs, .frames, .copies, .adm, .sched, .tel, .silt, .fates] s (State.laneCtlWrite s base v) := by
  unfold State.laneCtlWrite
  exact Within.cut (fun h1 => Within.ite ((((h1).trans ((State.laneDropped_within _ _).mono)).trans
    ((State.laneForget_within _ _).mono)).trans ((State.laneRestart_within _ _).mono)) (h1)) (((State.wr_within _ _
    _).mono).trans ((State.laneMode_within _ _ _ _).mono))

theorem State.laneCfg_within {ps : List Part} (s : State) (l) (r) (f) (hf : ∀ x y, Within ps x (f x y))
    (h : partSub [.outbox, .mesh, .gates] ps = true := by rfl) : Within ps s (State.laneCfg s l r f) := by
  unfold State.laneCfg
  refine State.cfg_within _ _ _ (fun _ => ?_) h
  split
  · exact hf _ _
  · exact Within.refl _

theorem execLaneModeOff_within (l) (v) (s : State) : WithinO [.draws, .outbox, .timers, .evWait, .lanes, .ports, .macs,
    .frames, .copies, .mesh, .adm, .sched, .gates, .tel, .silt, .fates] s (execLaneModeOff l v s) := by
  unfold execLaneModeOff
  exact WithinO.next ((State.laneCfg_within _ _ _ _ (fun _ _ => (State.laneCtlWrite_within _ _ _).mono)))

theorem execLaneModePort_within (l) (v) (s : State) : WithinO [.draws, .outbox, .timers, .evWait, .lanes, .ports, .macs,
    .frames, .copies, .mesh, .adm, .sched, .gates, .tel, .silt, .fates] s (execLaneModePort l v s) := by
  unfold execLaneModePort
  exact WithinO.next ((State.laneCfg_within _ _ _ _ (fun _ _ => (State.laneCtlWrite_within _ _ _).mono)))

theorem execLaneModeTest_within (l) (v) (s : State) : WithinO [.draws, .outbox, .timers, .evWait, .lanes, .ports, .macs,
    .frames, .copies, .mesh, .adm, .sched, .gates, .tel, .silt, .fates] s (execLaneModeTest l v s) := by
  unfold execLaneModeTest
  exact WithinO.next ((State.laneCfg_within _ _ _ _ (fun _ _ => (State.laneCtlWrite_within _ _ _).mono)))

theorem execLaneReset_within (l) (v) (s : State) : WithinO [.draws, .outbox, .timers, .evWait, .lanes, .ports, .macs,
    .frames, .copies, .mesh, .adm, .sched, .gates, .tel, .silt, .fates] s (execLaneReset l v s) := by
  unfold execLaneReset
  exact WithinO.next ((State.laneCfg_within _ _ _ _ (fun _ _ => (State.laneCtlWrite_within _ _ _).mono)))

theorem State.boardWrite_within (s : State) (base) (word) (v) : Within [.evWait, .lanes] s (State.boardWrite s base word
    v) := by
  unfold State.boardWrite
  exact Within.cut (fun h1 => Within.cut (fun h2 => Within.ite (h2) ((h2).trans ((State.raiseEvt_within _ _ _).mono)))
    (((h1).trans ((State.laneForget_within _ _).mono)).trans ((State.wrb_within _ _ _ _).mono))) (Within.ite
    ((State.wr_within _ _ _).mono) ((State.wr_within _ _ _).mono))

theorem execBoardTableWrite_within (l) (word) (v) (s : State) : WithinO [.outbox, .evWait, .lanes, .mesh, .gates] s
    (execBoardTableWrite l word v s) := by
  unfold execBoardTableWrite
  exact WithinO.next ((State.laneCfg_within _ _ _ _ (fun _ _ => (State.boardWrite_within _ _ _ _).mono)))

theorem State.genTick_within (s : State) (base) : Within [.outbox, .lanes] s (State.genTick s base) := by
  unfold State.genTick
  exact (by (try extract_lets); split <;> exact ((State.laneMod_within _ _ _).mono).trans ((State.emit_within _ _).mono))

theorem State.prbsCtlWrite_within (s : State) (base) (v) : Within [.draws, .lanes] s (State.prbsCtlWrite s base v) := by
  unfold State.prbsCtlWrite
  exact Within.cut (fun h1 => Within.cut (fun h2 => Within.ite (Within.cut (fun h3 => ((h3).trans ((State.wrb_within _ _
    _ _).mono)).trans ((State.laneMod_within _ _ _).mono)) ((((h2).trans ((State.setCnt_within _ _ _).mono)).trans
    ((State.setCnt_within _ _ _).mono)).trans ((State.setCnt_within _ _ _).mono))) (h2)) (Within.ite (h1) ((h1).trans
    ((State.wrb_within _ _ _ _).mono)))) (((State.wr_within _ _ _).mono).trans ((State.genStart_within _ _).mono))

theorem execPrbsChkClear_within (l) (v) (s : State) : WithinO [.draws, .outbox, .lanes, .mesh, .gates] s
    (execPrbsChkClear l v s) := by
  unfold execPrbsChkClear
  exact WithinO.next ((State.laneCfg_within _ _ _ _ (fun _ _ => (State.prbsCtlWrite_within _ _ _).mono)))

theorem execPrbsSyncAcquire_within (l) (s : State) : WithinO [] s (execPrbsSyncAcquire l s) := by
  unfold execPrbsSyncAcquire
  split
  · exact WithinO.next (Within.ite ((State.wrb_within _ _ _ _).mono) (Within.refl _))
  · exact WithinO.next (Within.refl _)

theorem execPrbsSyncLoss_within (l) (errors) (s : State) : WithinO [.evWait] s (execPrbsSyncLoss l errors s) := by
  unfold execPrbsSyncLoss
  split
  · exact WithinO.next (Within.ite (Within.cut (fun h1 => (((h1).trans ((State.wrb_within _ _ _ _).mono)).trans
      ((State.wrb_within _ _ _ _).mono)).trans ((State.raiseEvt_within _ _ _).mono)) ((State.addCnt_within _ _ _ _
      _).mono)) (Within.refl _))
  · exact WithinO.next (Within.refl _)

theorem State.chkTick_within (s : State) (base) : Within [.evWait, .lanes] s (State.chkTick s base) := by
  unfold State.chkTick
  exact Within.cut (fun h1 => Within.ite (h1) ((h1).trans ((State.addCnt_within _ _ _ _ _).mono)))
    (((State.laneMod_within _ _ _).mono).trans ((State.addCnt_within _ _ _ _ _).mono))

theorem State.prbsInjWrite_within (s : State) (base) (v) : Within [.lanes] s (State.prbsInjWrite s base v) := by
  unfold State.prbsInjWrite
  exact Within.cut (fun h1 => Within.ite (h1) ((h1).trans ((State.laneMod_within _ _ _).mono))) ((State.wr_within _ _
    _).mono)

theorem execPrbsErrorInject_within (l) (s : State) : WithinO [.outbox, .evWait, .lanes] s (execPrbsErrorInject l s) := by
  unfold execPrbsErrorInject
  split
  · exact WithinO.next (Within.refl _)
  · exact WithinO.ite (WithinO.next (Within.refl _)) ((by split <;> exact WithinO.cut (fun h1 => WithinO.cut (fun h2 => WithinO.next (Within.ite ((h2).trans ((State.addCnt_within _ _ _ _ _).mono)) (h2))) (((h1).trans ((State.inc_within _ _ _ _).mono)).trans ((State.emit_within _ _).mono))) ((State.laneMod_within _ _ _).mono)))

theorem State.laneTick_within (s : State) (base) : Within [.outbox, .evWait, .lanes] s (State.laneTick s base) := by
  unfold State.laneTick
  exact Within.cut (fun h1 => Within.cut (fun h2 => Within.ite ((h2).trans ((State.chkTick_within _ _).mono)) (h2))
    (Within.ite ((h1).trans ((State.laneMod_within _ _ _).mono)) (h1))) (Within.ite ((State.genTick_within _ _).mono)
    (Within.refl _))

theorem State.prbsTick_within (s : State) : Within [.outbox, .evWait, .lanes] s (State.prbsTick s) := by
  unfold State.prbsTick
  exact Within.ite (Within.foldl (Within.refl _) (fun _ _ => (State.laneTick_within _ _).mono)) (Within.refl _)

/-- A change of the engines that leaves the load port alone, or keeps its engine in range. -/
theorem State.tilthMod_within (s : State) (f) (h : s.tilth.loadOk → (f s.tilth).loadOk := by exact id) :
    Within [.tilth] s (State.tilthMod s f) := Within.tilth _ _ h

theorem State.engMod_within (s : State) (e) (f) : Within [.tilth] s (State.engMod s e f) := by
  unfold State.engMod
  exact (State.tilthMod_within _ _).mono

theorem State.roleMod_within (s : State) (r) (f) : Within [.tilth] s (State.roleMod s r f) := by
  unfold State.roleMod
  exact (State.tilthMod_within _ _).mono

theorem State.engGo_within (s : State) (e) (st) : Within [] s (State.engGo s e st) := by
  unfold State.engGo
  exact (State.wrf_within _ _ _ _ _).mono

theorem State.tilthEvt_within (s : State) (i) : Within [.evWait] s (State.tilthEvt s i) := by
  unfold State.tilthEvt
  exact (State.raiseEvt_within _ _ _).mono

theorem State.tilthCnt_within (s : State) (i) : Within [.evWait] s (State.tilthCnt s i) := by
  unfold State.tilthCnt
  exact (State.inc_within _ _ _ _).mono

theorem State.engEmpty_within (s : State) (e) : Within [.timers, .tilth] s (State.engEmpty s e) := by
  unfold State.engEmpty
  exact Within.cut (fun h1 => (((h1).trans ((State.wr_within _ _ _).mono)).trans ((State.wr_within _ _ _).mono)).trans
    ((State.engMod_within _ _ _).mono)) (((State.wr_within _ _ _).mono).trans ((State.stopTimer_within _ _).mono))

theorem State.engLoading_within (s : State) (e) : Within [.timers, .tilth] s (State.engLoading s e) := by
  unfold State.engLoading
  exact ((State.engEmpty_within _ _).mono).trans ((State.engGo_within _ _ _).mono)

theorem State.measExtend_within (s : State) (type) (digest) : Within [] s (State.measExtend s type digest) := by
  unfold State.measExtend
  exact ((State.wrs_within _ _ _).mono).trans ((State.wr_within _ _ _).mono)

theorem State.engReady_within (s : State) (e) (img) : Within [.evWait, .tilth] s (State.engReady s e img) := by
  unfold State.engReady
  exact Within.cut (fun h1 => Within.cut (fun h2 => ((h2).trans ((State.tilthEvt_within _ _).mono)).trans
    ((State.tilthCnt_within _ _).mono)) (((h1).trans ((State.wr_within _ _ _).mono)).trans ((State.wr_within _ _
    _).mono))) (((State.engGo_within _ _ _).mono).trans ((State.engMod_within _ _ _).mono))

theorem State.engFailed_within (s : State) (e) : Within [.timers, .evWait, .tilth] s (State.engFailed s e) := by
  unfold State.engFailed
  exact (((State.engEmpty_within _ _).mono).trans ((State.tilthEvt_within _ _).mono)).trans ((State.tilthCnt_within _
    _).mono)

theorem State.loadResult_within (s : State) (n) : Within [] s (State.loadResult s n) := by
  unfold State.loadResult
  exact (State.wrf_within _ _ _ _ _).mono

theorem State.loadStart_within (s : State) : Within [.timers, .tilth] s (State.loadStart s) := by
  unfold State.loadStart
  extract_lets e mine t
  refine Within.ite (Within.refl _) ?_
  by_cases he : 26 ≤ e
  · rw [if_pos (by simp [he])]
    exact (State.loadResult_within _ _).mono
  · have ht : Within [.timers, .tilth] s t := by
      simp only [t]
      split
      · exact (State.engEmpty_within _ _).mono
      · exact Within.refl _
    have hl : (t.engLoading e).tilth.loadOk → Tilth.loadOk { (t.engLoading e).tilth with load := some (e, []) } := by
      rintro - _ _ ⟨⟩
      exact Nat.lt_of_not_le he
    exact Within.ite (State.loadResult_within _ _).mono ((((ht.trans (State.engLoading_within _ _).mono).trans
      (State.tilthMod_within _ _ hl).mono).trans (State.wr_within _ _ _).mono).trans (State.loadResult_within _ _).mono)

theorem State.loadFinish_within (s : State) : Within [] s (State.loadFinish s) := by
  unfold State.loadFinish
  exact Within.ite ((State.wrb_within _ _ _ _).mono) (Within.refl _)

theorem State.loadAbort_within (s : State) : Within [.timers, .evWait, .tilth] s (State.loadAbort s) := by
  unfold State.loadAbort
  split
  · exact (((State.engFailed_within _ _).mono.trans (State.tilthMod_within _ _ fun _ _ _ h => by cases h).mono).trans
      (State.wrb_within _ _ _ _).mono).trans (State.loadResult_within _ _).mono
  · exact Within.refl _

theorem State.loadCtlWrite_within (s : State) (port) (v) : Within [.timers, .evWait, .tilth] s (State.loadCtlWrite s port
    v) := by
  unfold State.loadCtlWrite
  exact Within.cut (fun h1 => id (Within.cut (fun h3 => Within.ite ((h3).trans ((State.loadAbort_within _).mono)) (h3))
    (Within.ite ((h1).trans ((State.lk_within _ _ _ _ _ (fun _ => Within.cut (fun h2 => Within.ite ((h2).trans
    ((State.loadFinish_within _).mono)) (h2)) (Within.ite ((State.loadStart_within _).mono) (Within.refl _)))))) (h1))))
    ((State.wrf_within _ _ _ _ _).mono)

theorem State.loadDataWrite_within (s : State) (port) (v) : Within [.evWait, .tilth] s (State.loadDataWrite s port v) := by
  unfold State.loadDataWrite
  refine State.lk_within _ _ _ _ _ fun t => ?_
  split
  · rename_i e bs hl
    refine Within.ite (Within.refl _) ((State.tilthMod_within _ _ ?_).mono.trans (State.wr_within _ _ _).mono)
    rintro h _ _ ⟨⟩
    exact h _ _ hl
  · exact Within.refl _

theorem execLoadStart_within (v) (s : State) : WithinO [.outbox, .timers, .evWait, .mesh, .gates, .tilth] s
    (execLoadStart v s) := by
  unfold execLoadStart
  exact WithinO.next ((State.cfg_within _ _ _ (fun _ => (State.loadCtlWrite_within _ _ _).mono)))

theorem execLoadFinish_within (v) (s : State) : WithinO [.outbox, .timers, .evWait, .mesh, .gates, .tilth] s
    (execLoadFinish v s) := by
  unfold execLoadFinish
  exact WithinO.next ((State.cfg_within _ _ _ (fun _ => (State.loadCtlWrite_within _ _ _).mono)))

theorem execLoadAbort_within (v) (s : State) : WithinO [.outbox, .timers, .evWait, .mesh, .gates, .tilth] s
    (execLoadAbort v s) := by
  unfold execLoadAbort
  exact WithinO.next ((State.cfg_within _ _ _ (fun _ => (State.loadCtlWrite_within _ _ _).mono)))

theorem execLoadData_within (v) (s : State) : WithinO [.outbox, .evWait, .mesh, .gates, .tilth] s (execLoadData v s) := by
  unfold execLoadData
  exact WithinO.next ((State.cfg_within _ _ _ (fun _ => (State.loadDataWrite_within _ _ _).mono)))

theorem execLoadCheckDone_within (storeOk) (s : State) : WithinO [.timers, .evWait, .tilth] s (execLoadCheckDone storeOk
    s) := by
  unfold execLoadCheckDone
  split
  · extract_lets n t
    have h1 : Within [.timers, .evWait, .tilth] s t :=
      ((State.tilthMod_within _ _ fun _ _ _ h => by cases h).mono.trans (State.wrb_within _ _ _ _).mono).trans
        (State.loadResult_within _ _).mono
    refine WithinO.ite (WithinO.next (Within.refl _)) (WithinO.ite ?_ ?_)
    · exact WithinO.next (((h1.trans (State.engReady_within _ _ _).mono).trans (State.measExtend_within _ _
        _).mono).trans (State.marlBump_within _ _).mono)
    · exact WithinO.next (h1.trans (State.engFailed_within _ _).mono)
  · exact WithinO.next (Within.refl _)

theorem State.roleWork_within (s : State) (r) : Within [.draws, .outbox, .timers, .evWait, .lanes, .ports, .macs,
    .frames, .copies, .adm, .sched, .tel, .silt, .fates] s (State.roleWork s r) := by
  unfold State.roleWork
  exact Within.ite (Within.foldl (Within.refl _) (fun _ _ => (State.portWake_within _ _ _).mono)) (Within.ite
    ((State.siltWake_within _).mono) (Within.refl _))

theorem State.roleServe_within (s : State) (r) (e) : Within [.draws, .outbox, .timers, .evWait, .lanes, .ports, .macs,
    .frames, .copies, .adm, .sched, .tel, .silt, .tilth, .fates] s (State.roleServe s r e) := by
  unfold State.roleServe
  exact Within.cut (fun h1 => Within.cut (fun h2 => ((h2).trans ((State.roleMod_within _ _ _).mono)).trans
    ((State.roleWork_within _ _).mono)) ((h1).trans ((State.wr_within _ _ _).mono))) (((State.wr_within _ _
    _).mono).trans ((State.startTimer_within _ _ _).mono))

theorem State.roleIdle_within (s : State) (r) : Within [] s (State.roleIdle s r) := by
  unfold State.roleIdle
  exact (State.wr_within _ _ _).mono

theorem State.roleRefuse_within (s : State) (r) : Within [.evWait] s (State.roleRefuse s r) := by
  unfold State.roleRefuse
  exact ((State.wrb_within _ _ _ _).mono).trans ((State.tilthEvt_within _ _).mono)

theorem State.roleAssign_within (s : State) (r) (e) : Within [.draws, .outbox, .timers, .evWait, .lanes, .ports, .macs,
    .frames, .copies, .adm, .sched, .tel, .silt, .tilth, .fates] s (State.roleAssign s r e) := by
  unfold State.roleAssign
  exact Within.ite ((State.roleRefuse_within _ _).mono) (Within.cut (fun h1 => Within.cut (fun h2 => ((h2).trans ((State.roleMod_within _ _ _).mono)).trans ((State.roleServe_within _ _ _).mono)) ((h1).trans ((State.wrf_within _ _ _ _ _).mono))) ((by split; exact Within.ite ((State.engEmpty_within _ _).mono) (Within.refl _); exact Within.refl _)))

theorem State.roleHandover_within (s : State) (r) (e) : Within [.evWait, .tilth] s (State.roleHandover s r e) := by
  unfold State.roleHandover
  exact Within.ite ((State.roleRefuse_within _ _).mono) (((State.wrb_within _ _ _ _).mono).trans ((State.roleMod_within _
    _ _).mono))

theorem State.roleCtlWrite_within (s : State) (r) (v) : Within [.draws, .outbox, .timers, .evWait, .lanes, .ports, .macs,
    .frames, .copies, .adm, .sched, .tel, .silt, .tilth, .fates] s (State.roleCtlWrite s r v) := by
  unfold State.roleCtlWrite
  exact Within.cut (fun h1 => Within.cut (fun h2 => Within.cut (fun h3 => Within.ite ((h3).trans ((State.roleMod_within _
    _ _).mono)) (h3)) (Within.ite ((h2).trans ((State.roleHandover_within _ _ _).mono)) (h2))) (Within.ite ((h1).trans
    ((State.roleAssign_within _ _ _).mono)) (h1))) ((State.wr_within _ _ _).mono)

theorem execRoleAssign_within (r) (v) (s : State) : WithinO [.draws, .outbox, .timers, .evWait, .lanes, .ports, .macs,
    .frames, .copies, .mesh, .adm, .sched, .gates, .tel, .silt, .tilth, .fates] s (execRoleAssign r v s) := by
  unfold execRoleAssign
  exact WithinO.next ((State.cfg_within _ _ _ (fun _ => (State.roleCtlWrite_within _ _ _).mono)))

theorem execRoleHandover_within (r) (v) (s : State) : WithinO [.draws, .outbox, .timers, .evWait, .lanes, .ports, .macs,
    .frames, .copies, .mesh, .adm, .sched, .gates, .tel, .silt, .tilth, .fates] s (execRoleHandover r v s) := by
  unfold execRoleHandover
  exact WithinO.next ((State.cfg_within _ _ _ (fun _ => (State.roleCtlWrite_within _ _ _).mono)))

theorem execRoleAbort_within (r) (v) (s : State) : WithinO [.draws, .outbox, .timers, .evWait, .lanes, .ports, .macs,
    .frames, .copies, .mesh, .adm, .sched, .gates, .tel, .silt, .tilth, .fates] s (execRoleAbort r v s) := by
  unfold execRoleAbort
  exact WithinO.next ((State.cfg_within _ _ _ (fun _ => (State.roleCtlWrite_within _ _ _).mono)))

theorem execEngineClear_within (e) (s : State) : WithinO [.timers, .tilth] s (execEngineClear e s) := by
  unfold execEngineClear
  exact WithinO.next (Within.ite ((State.engEmpty_within _ _).mono) (Within.refl _))

theorem State.abortBed_within (s : State) (r) : Within [.outbox, .timers, .evWait, .lanes, .ports, .macs, .frames,
    .copies, .adm, .sched, .tel, .harm, .fates] s (State.abortBed s r) := by
  unfold State.abortBed
  exact Within.cut (fun h1 => Within.ite ((h1).trans ((State.swapAbort_within _ _).mono)) (h1)) (Within.foldl
    (Within.refl _) (fun _ _ => Within.ite ((State.toDisabled_within _ _ _ _).mono) (Within.refl _)))

theorem State.abortSilt_within (s : State) : Within [.timers, .evWait, .frames, .copies, .adm, .sched, .tel, .silt,
    .fates] s (State.abortSilt s) := by
  unfold State.abortSilt
  exact Within.foldl (Within.refl _) (fun _ _ => Within.ite ((State.siltGap_within _ _ _).mono) (Within.ite
    ((State.siltFault_within _ _ _).mono) (Within.ite ((State.siltMod_within _ _ _).mono) (Within.refl _))))

theorem State.roleAborted_within (s : State) (r) : Within [.outbox, .timers, .evWait, .lanes, .ports, .macs, .frames,
    .copies, .adm, .sched, .tel, .silt, .harm, .fates] s (State.roleAborted s r) := by
  unfold State.roleAborted
  exact Within.ite ((State.abortBed_within _ _).mono) (Within.ite ((State.harmMod_within _ _).mono) (Within.ite
    ((State.abortSilt_within _).mono) (Within.refl _)))

theorem State.laneRetune_within (s : State) (base) (ask) : Within [.outbox, .evWait, .lanes] s (State.laneRetune s base
    ask) := by
  unfold State.laneRetune
  exact ((State.laneTrain_within _ _ _).mono).trans ((State.laneMod_within _ _ _).mono)

theorem State.handOverRole_within (s : State) (r) (e) : Within [.draws, .outbox, .timers, .evWait, .lanes, .ports, .macs,
    .frames, .copies, .adm, .sched, .tel, .silt, .tilth, .fates] s (State.handOverRole s r e) := by
  unfold State.handOverRole
  exact Within.cut (fun h1 => Within.ite ((h1).trans ((State.roleRefuse_within _ _).mono)) (Within.cut (fun h2 =>
    ((h2).trans ((State.roleServe_within _ _ _).mono)).trans ((State.tilthEvt_within _ _).mono)) (((h1).trans
    ((State.engEmpty_within _ _).mono)).trans ((State.roleMod_within _ _ _).mono)))) ((State.wrb_within _ _ _ _).mono)

theorem State.safePoint_within (s : State) (r) (e) (addr) (id) (routine) (record) (sets) : Within [.draws, .outbox,
    .timers, .evWait, .lanes, .ports, .macs, .frames, .copies, .adm, .sched, .tel, .silt, .tilth, .harm, .fates] s
    (State.safePoint s r
  e addr id routine record sets) := by
  unfold State.safePoint
  exact Within.cut (fun h1 => Within.cut (fun h2 => Within.cut (fun h3 => Within.cut (fun h4 => Within.cut (fun h5 =>
    Within.cut (fun h6 => Within.cut (fun h7 => Within.ite ((h7).trans ((State.roleWork_within _ _).mono)) (h7))
    (Within.ite ((h6).trans ((State.handOverRole_within _ _ _).mono)) (h6))) (Within.ite ((h5).trans
    ((State.roleAborted_within _ _).mono)) (h5))) (Within.ite (Within.foldl (h4) (fun _ _ => (State.formDue_within _ _
    _).mono)) (h4))) ((h3).trans ((State.roleMod_within _ _ _).mono))) ((h2).trans ((State.wrf_within _ _ _ _ _).mono)))
    (Within.ite (Within.foldl (h1) (fun _ _ => (State.onLanes_within _ _ _ _ (fun _ _ => (State.laneRetune_within _ _
    _).mono)))) (h1))) (((State.wrf_within _ _ _ _ _).mono).trans ((State.startTimer_within _ _ _).mono))

theorem execSafePoint_within (e) (addr) (routine) (record) (sets) (s : State) : WithinO [.draws, .outbox, .timers,
    .evWait, .lanes, .ports, .macs, .frames, .copies, .adm, .sched, .tel, .silt, .tilth, .harm, .fates] s (execSafePoint
    e addr routine
  record sets s) := by
  unfold execSafePoint
  exact WithinO.ite (WithinO.next ((State.safePoint_within _ _ _ _ _ _ _ _).mono)) (WithinO.next (Within.refl _))

theorem State.roleUnserved_within (s : State) (r) : Within [.outbox, .evWait, .tilth] s (State.roleUnserved s r) := by
  unfold State.roleUnserved
  exact (((State.roleMod_within _ _ _).mono).trans ((State.tilthEvt_within _ _).mono)).trans ((State.emit_within _ _).mono)

theorem State.chooseTakeover_within (s : State) (r) : Within [.outbox, .timers, .evWait, .tilth] s (State.chooseTakeover
    s r) := by
  unfold State.chooseTakeover
  exact Within.ite ((State.roleUnserved_within _ _).mono) ((by split; exact (State.roleMod_within _ _ _).mono; exact ((State.engLoading_within _ _).mono).trans ((State.roleMod_within _ _ _).mono); exact (State.roleUnserved_within _ _).mono))

theorem State.roleLost_within (s : State) (r) : Within [.outbox, .timers, .evWait, .tilth] s (State.roleLost s r) := by
  unfold State.roleLost
  exact Within.cut (fun h1 => Within.ite ((h1).trans ((State.roleMod_within _ _ _).mono)) ((Within.ite ((h1).trans
    ((State.roleRefuse_within _ _).mono)) (h1)).trans ((State.chooseTakeover_within _ _).mono))) ((State.roleIdle_within
    _ _).mono)

theorem State.machineCheck_within (s : State) (e) (cause) (groups) (addr) : Within [.outbox, .timers, .evWait, .tilth,
    .harm] s (State.machineCheck s e cause
  groups addr) := by
  unfold State.machineCheck
  exact Within.cut (fun h1 => Within.cut (fun h2 => Within.cut (fun h3 => (Within.ite ((h3).trans
    ((State.detectEngine_within _ _).mono)) (h3)).trans ((State.roleLost_within _ _).mono)) (((h2).trans
    ((State.tilthCnt_within _ _).mono)).trans ((State.tilthEvt_within _ _).mono))) ((h1).trans ((State.wr_within _ _
    _).mono))) (((State.wr_within _ _ _).mono).trans ((State.stopTimer_within _ _).mono))

theorem execMachineCheck_within (e) (addr) (flips) (cfgErr) (s : State) : WithinO [.outbox, .timers, .evWait, .tilth,
    .harm] s (execMachineCheck e addr flips
  cfgErr s) := by
  unfold execMachineCheck
  exact WithinO.ite (WithinO.next (Within.refl _)) (WithinO.ite (WithinO.next ((State.machineCheck_within _ _ _ _
    _).mono)) (WithinO.ite (WithinO.next ((State.machineCheck_within _ _ _ _ _).mono)) (WithinO.ite (WithinO.next
    ((State.machineCheck_within _ _ _ _ _).mono)) (WithinO.next (Within.refl _)))))

theorem execTilthWatchdog_within (e) (addr) (s : State) : WithinO [.outbox, .timers, .evWait, .tilth, .harm] s
    (execTilthWatchdog e addr s) := by
  unfold execTilthWatchdog
  exact WithinO.next (Within.ite ((State.machineCheck_within _ _ _ _ _).mono) (Within.refl _))

theorem execTakeoverDone_within (r) (storeOk) (s : State) : WithinO [.draws, .outbox, .timers, .evWait, .lanes, .ports,
    .macs, .frames, .copies, .adm, .sched, .tel, .silt, .tilth, .fates] s (execTakeoverDone r storeOk s) := by
  unfold execTakeoverDone
  split
  · exact WithinO.next (Within.refl _)
  · exact id (id (WithinO.ite (WithinO.next (Within.ite ((((State.roleServe_within _ _ _).mono).trans
      ((State.tilthCnt_within _ _).mono)).trans ((State.tilthEvt_within _ _).mono)) (Within.ite
      ((State.roleUnserved_within _ _).mono) (((State.roleMod_within _ _ _).mono).trans ((State.chooseTakeover_within _
      _).mono))))) (WithinO.ite (WithinO.ite (WithinO.cut (fun h1 => WithinO.next (Within.ite ((((h1).trans
      ((State.roleServe_within _ _ _).mono)).trans ((State.tilthCnt_within _ _).mono)).trans ((State.tilthEvt_within _
      _).mono)) ((h1).trans ((State.roleUnserved_within _ _).mono)))) ((State.engReady_within _ _ _).mono)) (WithinO.next
      (((State.engFailed_within _ _).mono).trans ((State.roleUnserved_within _ _).mono)))) (WithinO.next
      (((State.roleMod_within _ _ _).mono).trans ((State.chooseTakeover_within _ _).mono))))))

theorem State.tilthWake_within (s : State) (line) : Within [.tilth] s (State.tilthWake s line) := by
  unfold State.tilthWake
  exact Within.foldl (Within.refl _) (fun _ _ => Within.ite ((State.roleMod_within _ _ _).mono) (Within.refl _))

theorem execHeartbeatSend_within (s : State) : WithinO [.timers] s (execHeartbeatSend s) := by
  unfold execHeartbeatSend
  exact WithinO.next (Within.ite (Within.foldl (Within.refl _) (fun _ _ => Within.ite ((State.stopTimer_within _ _).mono)
    (Within.ite (Within.refl _) ((State.startTimer_within _ _ _).mono)))) (Within.refl _))

theorem execHeartbeatTimeout_within (b) (s : State) : WithinO allParts s (execHeartbeatTimeout b s) := by
  unfold execHeartbeatTimeout
  exact WithinO.next (Within.ite (((State.stopTimer_within _ _).mono).trans ((State.detect_within _ _ _).mono))
    (Within.refl _))

theorem execHarmWindowEnd_within (cls) (at_) (s : State) : WithinO [.timers, .harm] s (execHarmWindowEnd cls at_ s) := by
  unfold execHarmWindowEnd
  exact WithinO.next (Within.ite (((State.stopTimer_within _ _).mono).trans ((State.harmMod_within _ _).mono))
    (Within.refl _))

theorem State.harmAck_within (s : State) (seq) : Within [] s (State.harmAck s seq) := by
  unfold State.harmAck
  exact Within.ite (Within.refl _) (Within.cut (fun h1 => Within.ite ((h1).trans ((State.wrb_within _ _ _ _).mono)) (h1))
    ((State.wrf_within _ _ _ _ _).mono))

theorem execHarmAck_within (v) (s : State) : WithinO [.outbox, .mesh, .gates] s (execHarmAck v s) := by
  unfold execHarmAck
  exact WithinO.next ((State.cfg_within _ _ _ (fun _ => (State.harmAck_within _ _).mono)))

theorem execFenceRelease_within (w) (v) (s : State) : WithinO [.outbox, .mesh, .gates] s (execFenceRelease w v s) := by
  unfold execFenceRelease
  exact WithinO.next ((State.cfg_within _ _ _ (fun _ => (State.wr_within _ _ _).mono)))

theorem execHarmTake_within (s : State) : WithinO [.harm] s (execHarmTake s) := by
  unfold execHarmTake
  exact WithinO.next ((State.harmMod_within _ _).mono)

theorem State.swapWarm_within (s : State) : Within allParts s (State.swapWarm s) := by
  unfold State.swapWarm
  exact Within.ite (((State.setSwap_within _ _).mono).trans ((State.bed16Up_within _).mono)) (Within.refl _)

theorem State.swapStart_within (s : State) : Within allParts s (State.swapStart s) := by
  unfold State.swapStart
  exact Within.cut (fun h1 => Within.ite (h1) (Within.ite (((h1).trans ((State.wrf_within _ _ _ _ _).mono)).trans
    ((State.safeEvt_within _ _).mono)) (((State.swapBegin_within _ _ _).mono).trans ((State.bed16Up_within _).mono))))
    ((State.wrb_within _ _ _ _).mono)

theorem State.swapStop_within (s : State) : Within [.evWait, .harm] s (State.swapStop s) := by
  unfold State.swapStop
  exact Within.ite ((State.swapAbort_within _ _).mono) (Within.refl _)

theorem State.swapReturn_within (s : State) : Within [.evWait, .harm] s (State.swapReturn s) := by
  unfold State.swapReturn
  exact Within.ite (((State.swapBegin_within _ _ _).mono).trans ((State.harmMod_within _ _).mono)) (Within.refl _)

theorem State.swapCtlWrite_within (s : State) (v) : Within allParts s (State.swapCtlWrite s v) := by
  unfold State.swapCtlWrite
  exact Within.cut (fun h1 => Within.cut (fun h2 => Within.cut (fun h3 => Within.cut (fun h4 => Within.ite ((h4).trans
    ((State.swapReturn_within _).mono)) (h4)) (Within.ite ((h3).trans ((State.swapStop_within _).mono)) (h3)))
    (Within.ite ((h2).trans ((State.swapStart_within _).mono)) (h2))) (Within.ite ((h1).trans ((State.swapWarm_within
    _).mono)) (h1))) ((State.wr_within _ _ _).mono)

theorem execSwapWarm_within (v) (s : State) : WithinO allParts s (execSwapWarm v s) := by
  unfold execSwapWarm
  exact WithinO.next ((State.cfg_within _ _ _ (fun _ => (State.swapCtlWrite_within _ _).mono)))

theorem execSwapStart_within (v) (s : State) : WithinO allParts s (execSwapStart v s) := by
  unfold execSwapStart
  exact WithinO.next ((State.cfg_within _ _ _ (fun _ => (State.swapCtlWrite_within _ _).mono)))

theorem execSwapAbort_within (v) (s : State) : WithinO allParts s (execSwapAbort v s) := by
  unfold execSwapAbort
  exact WithinO.next ((State.cfg_within _ _ _ (fun _ => (State.swapCtlWrite_within _ _).mono)))

theorem execSwapReturn_within (v) (s : State) : WithinO allParts s (execSwapReturn v s) := by
  unfold execSwapReturn
  exact WithinO.next ((State.cfg_within _ _ _ (fun _ => (State.swapCtlWrite_within _ _).mono)))

theorem State.bedFresh_within (s : State) (b) : Within [.timers, .macs, .mesh, .gates, .harm] s (State.bedFresh s b) := by
  unfold State.bedFresh
  exact Within.cut (fun h1 => Within.ite (((h1).trans ((State.fencePosition_within _ _ _).mono)).trans
    ((State.harmMod_within _ _).mono)) (h1)) ((((State.loadImage_within _ _ _).mono).trans ((State.freshMacs_within _
    _).mono)).trans ((State.harmMod_within _ _).mono))

theorem execReseedMatched_within (b) (s : State) : WithinO [.timers, .evWait, .ports, .macs, .shadow, .mesh, .gates,
    .time, .harm] s (execReseedMatched b s) := by
  unfold execReseedMatched
  exact WithinO.ite (WithinO.next (Within.refl _)) (WithinO.cut (fun h1 => WithinO.ite (WithinO.next ((((h1).trans
    ((State.loadImage_within _ _ _).mono)).trans ((State.setSwap_within _ _).mono)).trans ((State.harmMod_within _
    _).mono))) (WithinO.ite (WithinO.next (((h1).trans ((State.loadImage_within _ _ _).mono)).trans
    ((State.finishSwap_within _ _).mono))) (WithinO.ite (WithinO.next ((State.bedFresh_within _ _).mono)) (WithinO.next
    (Within.refl _))))) ((State.harmMod_within _ _).mono))

theorem State.switchPort_within (s : State) (p) : Within [.timers, .ports, .macs, .shadow, .gates, .time] s
    (State.switchPort s p) := by
  unfold State.switchPort
  exact ((State.carryPort_within _ _ _ _ _).mono).trans ((State.wrb_within _ _ _ _).mono)

theorem State.switchIdle_within (s : State) : Within [.timers, .ports, .macs, .shadow, .gates, .time] s (State.switchIdle
    s) := by
  unfold State.switchIdle
  exact Within.foldl (Within.refl _) (fun _ _ => Within.ite ((State.switchPort_within _ _).mono) (Within.refl _))

theorem execShadowMatched_within (s : State) : WithinO [.timers, .ports, .macs, .shadow, .mesh, .gates, .time] s
    (execShadowMatched s) := by
  unfold execShadowMatched
  exact WithinO.next (Within.ite (((((State.loadImage_within _ _ _).mono).trans ((State.setSwap_within _ _).mono)).trans
    ((State.wrf_within _ _ _ _ _).mono)).trans ((State.switchIdle_within _).mono)) (Within.refl _))

theorem execShadowMismatch_within (s : State) : WithinO [.evWait, .harm] s (execShadowMismatch s) := by
  unfold execShadowMismatch
  exact WithinO.next ((State.shadowMiss_within _).mono)

theorem execPortSwitch_within (p) (s : State) : WithinO [.timers, .ports, .macs, .shadow, .gates, .time] s
    (execPortSwitch p s) := by
  unfold execPortSwitch
  exact WithinO.next (Within.ite ((State.switchPort_within _ _).mono) (Within.refl _))

theorem execBedDrained_within (s : State) : WithinO [.outbox, .timers, .evWait, .pmuNext, .frames, .copies, .nextId,
    .adm, .sched, .tel, .harm, .fates] s (execBedDrained s) := by
  unfold execBedDrained
  exact WithinO.next (Within.ite (((State.swapDone_within _).mono).trans ((State.releaseHeld_within _).mono))
    (Within.refl _))

theorem execMarlRewriteDone_within (copy) (s : State) : WithinO [] s (execMarlRewriteDone copy s) := by
  unfold execMarlRewriteDone
  exact WithinO.next (Within.ite ((State.wrb_within _ _ _ _).mono) (Within.refl _))

theorem State.wearReach_within (s : State) (m) (i) (evt) (level) : Within [.evWait] s (State.wearReach s m i evt level) := by
  unfold State.wearReach
  exact Within.ite (((State.wrb_within _ _ _ _).mono).trans ((State.safeEvt_within _ _).mono)) (Within.refl _)

theorem execWearSample_within (m) (slow) (s : State) : WithinO [.evWait, .harm] s (execWearSample m slow s) := by
  unfold execWearSample
  exact WithinO.next (Within.ite (Within.cut (fun h1 => ((h1).trans ((State.wearReach_within _ _ _ _ _).mono)).trans
    ((State.wearReach_within _ _ _ _ _).mono)) (((State.harmMod_within _ _).mono).trans ((State.wrf_within _ _ _ _
    _).mono))) (Within.refl _))

theorem execSubsoilRepairStart_within (stack) (chan) (corrected) (uncorrectable) (s : State) : WithinO [.evWait, .harm] s
  (execSubsoilRepairStart stack chan corrected uncorrectable s) := by
  unfold execSubsoilRepairStart
  exact WithinO.ite (WithinO.next (Within.refl _)) (WithinO.cut (fun h1 => WithinO.ite (WithinO.next (h1)) (WithinO.ite
    (WithinO.next ((h1).trans ((State.safeEvt_within _ _).mono))) (WithinO.next ((h1).trans ((State.harmMod_within _
    _).mono))))) ((State.safeInc_within _ _ _).mono))

theorem execSubsoilRepairDone_within (stack) (chan) (s : State) : WithinO [.evWait, .harm] s (execSubsoilRepairDone stack
    chan s) := by
  unfold execSubsoilRepairDone
  exact WithinO.next (Within.ite (((State.harmMod_within _ _).mono).trans ((State.safeEvt_within _ _).mono)) (Within.refl _))

theorem State.flowLost_within (s : State) (id) : Within [.timers, .evWait, .frames, .copies, .adm, .sched, .tel, .fates]
    s (State.flowLost s id) := by
  unfold State.flowLost
  exact Within.cut (fun h1 => (h1).trans ((State.schedMod_within _ _).mono)) (Within.foldl (Within.refl _) (fun _ _ =>
    (((State.countGrain_within _).mono).trans ((State.unqueue_within _ _).mono)).trans ((State.discardCopy_within _
    _).mono)))

theorem execUncorrectableError_within (at_) (s : State) : WithinO allParts s (execUncorrectableError at_ s) := by
  unfold execUncorrectableError
  exact WithinO.ite (WithinO.next (Within.refl _)) ((by split; exact WithinO.next ((State.grainFail_within _ _ _).mono); exact WithinO.next ((State.flowLost_within _ _).mono); exact WithinO.next ((State.marlMark_within _ _).mono)))

theorem State.fuseGo_within (s : State) (v) : Within [.sec] s (State.fuseGo s v) := by
  unfold State.fuseGo
  refine Within.ite (Within.refl _) ?_
  split
  · exact (State.wrf_within _ _ _ _ _).mono
  · exact ((State.wrf_within _ _ _ _ _).mono.trans (State.wrb_within _ _ _ _).mono).trans (Within.sec _ _ (.same rfl rfl))

theorem State.fuseProgWrite_within (s : State) (port) (v) : Within [.evWait, .sec] s (State.fuseProgWrite s port v) := by
  unfold State.fuseProgWrite
  exact Within.ite ((State.lk_within _ _ _ _ _ (fun _ => (State.fuseGo_within _ _).mono))) (Within.refl _)

theorem execFuseProgGo_within (v) (s : State) : WithinO [.outbox, .evWait, .mesh, .gates, .sec] s (execFuseProgGo v s) := by
  unfold execFuseProgGo
  exact WithinO.next ((State.cfg_within _ _ _ (fun _ => (State.fuseProgWrite_within _ _ _).mono)))

theorem State.mapOut_within (s : State) (kind) (i) : Within [.timers, .lanes, .mesh, .tilth] s (State.mapOut s kind i) := by
  unfold State.mapOut
  split
  · exact ((State.wrb_within _ _ _ _).mono).trans ((State.setTrial_within _ _ _ _).mono)
  · exact ((State.wrb_within _ _ _ _).mono).trans ((State.lanePower_within _ _ _).mono)
  · exact (State.engEmpty_within _ _).mono
  · exact Within.refl _

theorem State.mapRtWrite_within (s : State) (i) (v) : Within allParts s (State.mapRtWrite s i v) := by
  unfold State.mapRtWrite
  split
  · exact Within.ite ((State.raiseEvt_within _ _ _).mono) ((((State.mapOut_within _ _ _).mono).trans ((State.wr_within _
      _ _).mono)).trans ((State.settleAll_within _ _).mono))
  · exact ((State.wr_within _ _ _).mono).trans ((State.settleAll_within _ _).mono)

theorem execMapRtWrite_within (i) (v) (s : State) : WithinO allParts s (execMapRtWrite i v s) := by
  unfold execMapRtWrite
  exact WithinO.next ((State.cfg_within _ _ _ (fun _ => (State.mapRtWrite_within _ _ _).mono)))

theorem State.dbgResult_within (s : State) (port) (n) : Within [.sec] s (State.dbgResult s port n) := by
  unfold State.dbgResult
  exact (State.dbgMod_within _ _ _).mono

theorem State.secAborted_within (s : State) (before : State) : Within [.sec] s (State.secAborted s before) := by
  unfold State.secAborted
  exact Within.cut (fun h1 => Within.cut (fun h2 => Within.cut (fun h3 => (h3).trans ((State.secMod_within _ _).mono)) (Within.ite (((h2).trans ((State.wrb_within _ _ _ _).mono)).trans ((State.wrf_within _ _ _ _ _).mono)) (h2))) ((by split; exact (h1).trans ((State.dbgResult_within _ _ _).mono); exact ((h1).trans ((State.wrb_within _ _ _ _).mono)).trans ((State.wrf_within _ _ _ _ _).mono); exact h1))) ((by split; exact (State.dbgResult_within _ _ _).mono; exact Within.refl _))

theorem State.fallowEnter_within (s : State) : Within allParts s (State.fallowEnter s) := by
  unfold State.fallowEnter
  exact Within.cut (fun h1 => Within.cut (fun h3 => Within.cut (fun h4 => Within.cut (fun h5 => Within.cut (fun h6 =>
    Within.cut (fun h7 => (h7).trans (Within.pwr _ _).mono) (Within.ite ((h6).trans ((State.wrb_within _ _ _ _).mono))
    (h6))) (((h5).trans ((State.dropTimers_within _ _).mono)).trans ((State.secAborted_within _ _).mono))) (Within.foldl
    (h4) (fun _ _ => Within.ite (Within.refl _) ((State.settle_within _ _ _).mono)))) ((h3).trans ((State.settle_within _
    _ _).mono))) (Within.cut (fun h2 => (h2).trans (Within.pwr _ _).mono) ((h1).trans ((State.wrb_within _ _ _
    _).mono)))) (((State.dbgClose_within _ _).mono).trans ((State.dbgClose_within _ _).mono))

theorem State.fallowIfDue_within (s : State) : Within allParts s (State.fallowIfDue s) := by
  unfold State.fallowIfDue
  exact Within.ite ((State.fallowEnter_within _).mono) (Within.refl _)

theorem State.trimEnter_within (s : State) : Within allParts s (State.trimEnter s) := by
  unfold State.trimEnter
  exact Within.cut (fun h1 => Within.cut (fun h2 => Within.ite (h2) ((h2).trans ((State.pwrRefused_within _).mono)))
    ((h1).trans ((State.settleAll_within _ _).mono))) (Within.foldl ((State.wr_within _ _ _).mono) (fun _ _ =>
    (State.wrb_within _ _ _ _).mono))

theorem State.pwrStateWrite_within (s : State) (n) : Within allParts s (State.pwrStateWrite s n) := by
  unfold State.pwrStateWrite
  exact Within.ite ((State.trimEnter_within _).mono) (Within.ite (((State.wr_within _ _ _).mono).trans
    ((State.settleAll_within _ _).mono)) (Within.ite (Within.cut (fun h1 => Within.ite ((h1).trans (Within.pwr _ _).mono)
    ((h1).trans ((State.fallowEnter_within _).mono))) (((State.dbgClose_within _ _).mono).trans ((State.dbgClose_within _
    _).mono))) (Within.refl _)))

theorem execPwrStateTrim_within (s : State) : WithinO allParts s (execPwrStateTrim s) := by
  unfold execPwrStateTrim
  exact WithinO.next ((State.cfg_within _ _ _ (fun _ => (State.pwrStateWrite_within _ _).mono)))

theorem execPwrStateRun_within (s : State) : WithinO allParts s (execPwrStateRun s) := by
  unfold execPwrStateRun
  exact WithinO.next ((State.cfg_within _ _ _ (fun _ => (State.pwrStateWrite_within _ _).mono)))

theorem execFallowEntry_within (s : State) : WithinO allParts s (execFallowEntry s) := by
  unfold execFallowEntry
  exact WithinO.next ((State.cfg_within _ _ _ (fun _ => (State.pwrStateWrite_within _ _).mono)))

theorem execFallowExit_within (s : State) : WithinO allParts s (execFallowExit s) := by
  unfold execFallowExit
  exact WithinO.ite (WithinO.cut (fun h1 => WithinO.next ((((h1).trans ((State.wr_within _ _ _).mono)).trans
    ((State.cause_within _ _).mono)).trans ((State.settleAll_within _ _).mono))) ((Within.pwr _ _).mono)) (WithinO.next
    (Within.refl _))

theorem execHostResetPin_within (level) (s : State) : WithinO allParts s (execHostResetPin level s) := by
  unfold execHostResetPin
  exact WithinO.cut (fun h1 => WithinO.ite (WithinO.next (h1)) (WithinO.next (((h1).trans ((State.cause_within _
    _).mono)).trans ((State.settleAll_within _ _).mono)))) ((Within.pwr _ _).mono)

theorem execRstCtlHostSelf_within (lineHold) (s : State) : WithinO allParts s (execRstCtlHostSelf lineHold s) := by
  unfold execRstCtlHostSelf
  exact WithinO.cut (fun h1 => WithinO.next (Within.ite (((h1).trans ((State.cause_within _ _).mono)).trans
    ((State.hostDown_within _).mono)) (h1))) ((State.cfg_within _ _ _ (fun _ => (State.setLineHold_within _ _).mono)))

theorem execPllLockLoss_within (s : State) : WithinO allParts s (execPllLockLoss s) := by
  unfold execPllLockLoss
  exact WithinO.ite (WithinO.next (Within.refl _)) (WithinO.next ((((State.pllLost_within _).mono).trans
    ((State.harmReport_within _ _).mono)).trans ((State.harmMod_within _ _).mono)))

theorem State.wipeBegin_within (s : State) (next) : Within allParts s (State.wipeBegin s next) := by
  unfold State.wipeBegin
  exact ((State.secMod_within _ _).mono).trans ((State.setLineHold_within _ _).mono)

theorem State.lcBlowBegin_within (s : State) (t) (req) : Within [.sec] s (State.lcBlowBegin s t req) := by
  unfold State.lcBlowBegin
  exact (State.secMod_within _ _).mono

theorem State.lcWipe_within (s : State) (t) (req) : Within allParts s (State.lcWipe s t req) := by
  unfold State.lcWipe
  exact Within.ite ((State.secMod_within _ _).mono) ((State.wipeBegin_within _ _).mono)

theorem State.lcGo_within (s : State) (v) : Within allParts s (State.lcGo s v) := by
  unfold State.lcGo
  exact Within.cut (fun h1 => Within.cut (fun h2 => (by (try extract_lets); split; exact (h1).trans ((State.lcBlowBegin_within _ _ _).mono); exact (h1).trans ((State.lcWipe_within _ _ _).mono); exact Within.ite ((h1).trans ((State.lcWipe_within _ _ _).mono)) (h2); exact h2)) ((State.wrf_within _ _ _ _ _).mono)) (((State.wrb_within _ _ _ _).mono).trans ((State.wrf_within _ _ _ _ _).mono))

theorem State.lcReqWrite_within (s : State) (port) (v) : Within allParts s (State.lcReqWrite s port v) := by
  unfold State.lcReqWrite
  exact Within.cut (fun h1 => Within.ite ((h1).trans ((State.lk_within _ _ _ _ _ (fun _ => (State.lcGo_within _
    _).mono)))) (h1)) ((State.wrf_within _ _ _ _ _).mono)

theorem execLcRequest_within (v) (s : State) : WithinO allParts s (execLcRequest v s) := by
  unfold execLcRequest
  exact WithinO.next ((State.cfg_within _ _ _ (fun _ => (State.lcReqWrite_within _ _ _).mono)))

theorem State.blowLife_within (s : State) (t) : Within [.pwr] s (State.blowLife s t) := Within.pwr _ _

theorem State.blowRevoked_within (s : State) (k) : Within [.pwr] s (State.blowRevoked s k) := Within.pwr _ _

theorem execLcBlowDone_within (good) (s : State) : WithinO allParts s (execLcBlowDone good s) := by
  unfold execLcBlowDone
  split
  · exact WithinO.next (Within.refl _)
  · exact WithinO.cut (fun h1 => WithinO.ite (WithinO.cut (fun h2 => WithinO.next (((h2).trans ((State.measExtend_within
      _ _ _).mono)).trans ((State.fallowIfDue_within _).mono))) (((((((h1).trans ((State.blowLife_within _
      _).mono)).trans ((State.dbgClose_within _ _).mono)).trans ((State.dbgClose_within _ _).mono)).trans
      ((State.stopTimer_within _ _).mono)).trans ((State.wrf_within _ _ _ _ _).mono)).trans ((State.raiseEvt_within _ _
      _).mono))) (WithinO.next (((h1).trans ((State.wrf_within _ _ _ _ _).mono)).trans ((State.fallowIfDue_within
      _).mono)))) (((State.secMod_within _ _).mono).trans ((State.wrb_within _ _ _ _).mono))

theorem State.keyRevokeWrite_within (s : State) (port) (v) : Within [.evWait, .sec] s (State.keyRevokeWrite s port v) := by
  unfold State.keyRevokeWrite
  exact Within.ite (Within.refl _) ((State.lk_within _ _ _ _ _ (fun _ => Within.ite (Within.refl _)
    (((State.secMod_within _ _).mono).trans ((State.wrb_within _ _ _ _).mono)))))

theorem execKeyRevoke_within (v) (s : State) : WithinO [.outbox, .evWait, .mesh, .gates, .sec] s (execKeyRevoke v s) := by
  unfold execKeyRevoke
  exact WithinO.next ((State.cfg_within _ _ _ (fun _ => (State.keyRevokeWrite_within _ _ _).mono)))

theorem execKeyRevokeDone_within (s : State) : WithinO allParts s (execKeyRevokeDone s) := by
  unfold execKeyRevokeDone
  split
  · exact WithinO.next (Within.refl _)
  · exact WithinO.cut (fun h1 => WithinO.next (((h1).trans ((State.blowRevoked_within _ _).mono)).trans
      ((State.fallowIfDue_within _).mono))) (((State.secMod_within _ _).mono).trans ((State.wrb_within _ _ _ _).mono))

theorem execFuseBlowDone_within (missed) (s : State) : WithinO allParts s (execFuseBlowDone missed s) := by
  unfold execFuseBlowDone
  split
  · exact WithinO.next (Within.refl _)
  · refine WithinO.next (Within.trans ?_ (State.fallowIfDue_within _).mono)
    exact ((State.wrf_within _ _ _ _ _).mono.trans (State.wrb_within _ _ _ _).mono).trans ⟨fun p hp => by cases p <;>
      first | exact rfl | simp [allParts] at hp, .same rfl rfl, id⟩

theorem State.chalReq_within (s : State) (port) : Within [.draws, .timers, .sec] s (State.chalReq s port) :=
  ((Within.draws s (s.draws + 1)).mono.trans (State.dbgMod_within _ _ _).mono).trans (State.startTimer_within _ _ _).mono

theorem State.dbgFail_within (s : State) (port) (n) : Within [.evWait, .sec] s (State.dbgFail s port n) := by
  unfold State.dbgFail
  refine Within.cut (fun h1 => Within.ite (h1.trans (State.secMod_within _ _ ⟨fun w => ⟨Nat.min_le_left _ _, ?_⟩,
    ?_⟩).mono) h1)
    ((State.dbgResult_within _ _ _).mono.trans (State.raiseEvt_within _ _ _).mono)
  · dsimp only
    intro h
    rw [Bool.or_eq_true, decide_eq_true_iff]
    exact .inr (by omega)
  · intro h
    dsimp only
    rw [h, Bool.true_or]

theorem State.dbgSubmit_within (s : State) (port) : Within [.timers, .evWait, .sec] s (State.dbgSubmit s port) := by
  unfold State.dbgSubmit
  exact Within.ite (Within.refl _) (Within.cut (fun h1 => Within.ite ((h1).trans ((State.dbgFail_within _ _ _).mono))
    (((h1).trans ((State.dbgResult_within _ _ _).mono)).trans ((State.secMod_within _ _).mono))) (((State.dbgMod_within _
    _ _).mono).trans ((State.stopTimer_within _ _).mono)))

theorem State.dbgCtlWrite_within (s : State) (port) (v) : Within [.draws, .timers, .evWait, .sec] s (State.dbgCtlWrite s
    port v) := by
  unfold State.dbgCtlWrite
  exact Within.cut (fun h1 => Within.cut (fun h2 => Within.ite ((h2).trans ((State.dbgClose_within _ _).mono)) (h2))
    (Within.ite ((h1).trans ((State.dbgSubmit_within _ _).mono)) (h1))) (Within.ite ((State.chalReq_within _ _).mono)
    (Within.refl _))

theorem State.dbgTokenWrite_within (s : State) (port) (v) : Within [.sec] s (State.dbgTokenWrite s port v) := by
  unfold State.dbgTokenWrite
  exact (State.dbgMod_within _ _ _).mono

theorem State.dpCtlWrite_within (s : State) (v) : Within allParts s (State.dpCtlWrite s v) := by
  unfold State.dpCtlWrite
  exact Within.ite (((State.dbgCtlWrite_within _ _ _).mono).trans ((State.emit_within _ _).mono)) (Within.ite
    ((State.emit_within _ _).mono) ((((State.setLineHold_within _ _).mono).trans ((State.dbgCtlWrite_within _ _
    _).mono)).trans ((State.emit_within _ _).mono)))

theorem State.onPath_within {ps : List Part} (s : State) (port) (off) (host) (dp) (hhost : ∀ x, Within ps x (host x))
    (hdp : ∀ x, Within ps x (dp x)) (h : partSub [.outbox, .mesh, .gates] ps = true := by rfl) :
    Within ps s (State.onPath s port off host dp) := by
  unfold State.onPath
  exact Within.ite (Within.ite (hdp _) (Within.refl _)) (State.cfg_within _ _ _ hhost h)

theorem execDbgChalReq_within (port) (v) (s : State) : WithinO allParts s (execDbgChalReq port v s) := by
  unfold execDbgChalReq
  exact WithinO.next ((State.onPath_within _ _ _ _ _ (fun _ => (State.dbgCtlWrite_within _ _ _).mono) (fun _ =>
    (State.dpCtlWrite_within _ _).mono)))

theorem execDbgSubmit_within (port) (v) (s : State) : WithinO allParts s (execDbgSubmit port v s) := by
  unfold execDbgSubmit
  exact WithinO.next ((State.onPath_within _ _ _ _ _ (fun _ => (State.dbgCtlWrite_within _ _ _).mono) (fun _ =>
    (State.dpCtlWrite_within _ _).mono)))

theorem execDbgClose_within (port) (v) (s : State) : WithinO allParts s (execDbgClose port v s) := by
  unfold execDbgClose
  exact WithinO.next ((State.onPath_within _ _ _ _ _ (fun _ => (State.dbgCtlWrite_within _ _ _).mono) (fun _ =>
    (State.dpCtlWrite_within _ _).mono)))

theorem execDpLineRelease_within (v) (s : State) : WithinO allParts s (execDpLineRelease v s) := by
  exact WithinO.next ((State.onPath_within _ _ _ _ _ (fun _ => Within.refl _)) fun _ => (State.dpCtlWrite_within _ _).mono)

theorem execDbgTokenWrite_within (port) (v) (s : State) : WithinO [.outbox, .mesh, .gates, .sec] s (execDbgTokenWrite
    port v s) := by
  unfold execDbgTokenWrite
  exact WithinO.next ((State.onPath_within _ _ _ _ _ (fun _ => (State.dbgTokenWrite_within _ _ _).mono) (fun _ =>
    ((State.dbgTokenWrite_within _ _ _).mono).trans ((State.emit_within _ _).mono))))

theorem State.dbgGrant_within (s : State) (port) (t) : Within [.timers, .evWait, .sec] s (State.dbgGrant s port t) := by
  unfold State.dbgGrant
  exact Within.cut (fun h1 => Within.cut (fun h2 => ((h2).trans ((State.raiseEvt_within _ _ _).mono)).trans
    ((State.measExtend_within _ _ _).mono)) (Within.ite ((h1).trans ((State.stopTimer_within _ _).mono)) ((h1).trans
    ((State.startTimer_within _ _ _).mono)))) ((State.dbgMod_within _ _ _).mono)

theorem State.tokenPass_within (s : State) (port) (t) : Within allParts s (State.tokenPass s port t) := by
  unfold State.tokenPass
  extract_lets u
  have h1 : Within allParts s u :=
    (State.secMod_within s _ ⟨fun _ => ⟨Nat.zero_le 8, fun h => by simp at h⟩, id⟩).mono
  refine Within.ite ?_ (Within.ite ?_ ?_)
  · exact (h1.trans (State.dbgResult_within _ _ _).mono).trans (State.startTimer_within _ _ _).mono
  · exact h1.trans (State.wipeBegin_within _ _).mono
  · exact h1.trans (State.dbgGrant_within _ _ _).mono

theorem execTokenCheckDone_within (s : State) : WithinO allParts s (execTokenCheckDone s) := by
  unfold execTokenCheckDone
  split
  · exact WithinO.next (Within.refl _)
  · exact WithinO.ite (WithinO.next (Within.refl _)) (WithinO.cut (fun h1 => WithinO.ite (WithinO.next ((h1).trans ((State.dbgResult_within _ _ _).mono))) ((by split; exact WithinO.next ((h1).trans ((State.tokenPass_within _ _ _).mono)); exact WithinO.next ((h1).trans ((State.dbgFail_within _ _ _).mono))))) ((State.secMod_within _ _).mono))

theorem execWipeDone_within (s : State) : WithinO allParts s (execWipeDone s) := by
  unfold execWipeDone
  split
  · exact WithinO.next (Within.refl _)
  · extract_lets due t t2
    clear_value due
    have h : Within allParts s t2 :=
      (((State.setLineHold_within _ _).mono).trans ((State.secMod_within _ _).mono)).trans ((State.harmMod_within _ _).mono)
    split
    · exact WithinO.next (h.trans ((State.lcBlowBegin_within _ _ _).mono))
    · have h3 : ∀ port tk, Within allParts s (if t2.lifecycle = 1 then t2.dbgFail port 7 else t2.dbgGrant port tk) := fun
        _ _ =>
        Within.ite (h.trans ((State.dbgFail_within _ _ _).mono)) (h.trans ((State.dbgGrant_within _ _ _).mono))
      refine WithinO.next ?_
      split
      · exact (h3 _ _).trans ((State.lcBlowBegin_within _ _ _).mono)
      · exact h3 _ _

theorem execSessionExpire_within (port) (s : State) : WithinO [.timers, .evWait, .sec] s (execSessionExpire port s) := by
  unfold execSessionExpire
  exact WithinO.next (Within.ite ((State.dbgClose_within _ _).mono) (Within.refl _))

theorem execChallengeExpire_within (port) (s : State) : WithinO [.timers, .sec] s (execChallengeExpire port s) := by
  unfold execChallengeExpire
  exact WithinO.next (Within.ite (((State.dbgMod_within _ _ _).mono).trans ((State.stopTimer_within _ _).mono))
    (Within.refl _))

theorem execReturnArmExpire_within (s : State) : WithinO [.timers] s (execReturnArmExpire s) := by
  unfold execReturnArmExpire
  exact WithinO.next ((State.stopTimer_within _ _).mono)

theorem State.readEffect_within (s : State) (off) : Within [] s (State.readEffect s off) := by
  unfold State.readEffect
  exact Within.ite (Within.refl _) ((by split; exact (State.nowCapture_within _ _).mono; exact (by split; exact Within.ite (Within.refl _) ((State.wr_within _ _ _).mono); exact Within.refl _)))

theorem State.hostRead_within (s : State) (addr) (be) : Within [.outbox] s (State.hostRead s addr be) := by
  unfold State.hostRead
  exact Within.ite (Within.ite ((State.answer_within _ _ _).mono) (Within.refl _)) ((by split; exact Within.refl _; exact (State.answer_within _ _ _).mono; exact (State.answer_within _ _ _).mono; exact ((State.readEffect_within _ _).mono).trans ((State.answer_within _ _ _).mono)))

theorem execTbNowRead_within (k) (s : State) : WithinO [.outbox] s (execTbNowRead k s) := by
  unfold execTbNowRead
  exact WithinO.next ((State.hostRead_within _ _ _).mono)

theorem State.maskWrite_within (s : State) (evt) (v) (rw) : Within [.evWait] s (State.maskWrite s evt v rw) := by
  unfold State.maskWrite
  exact Within.cut (fun h1 => Within.ite (h1) ((h1).trans (Within.evWait _ _).mono)) ((State.wr_within _ _ _).mono)

theorem State.codeWrite_within (s : State) (off) (key) (v) : Within [] s (State.codeWrite s off key v) := by
  unfold State.codeWrite
  split
  · exact (State.wr_within _ _ _).mono
  · exact Within.refl _

theorem State.bankWrite_within (s : State) (off) (bank) (v) : Within [.evWait] s (State.bankWrite s off bank v) := by
  unfold State.bankWrite
  exact Within.ite (Within.ite (((State.wrb_within _ _ _ _).mono).trans ((State.raiseEvt_within _ _ _).mono))
    ((State.codeWrite_within _ _ _ _).mono)) (Within.ite (((State.wrb_within _ _ _ _).mono).trans ((State.raiseEvt_within
    _ _ _).mono)) ((State.codeWrite_within _ _ _ _).mono))

theorem State.plainWrite_within (s : State) (off) (v) : Within [.evWait] s (State.plainWrite s off v) := by
  unfold State.plainWrite
  split
  · exact Within.refl _
  · exact Within.ite ((State.bankWrite_within _ _ _ _).mono) (Within.ite ((State.maskWrite_within _ _ _ _).mono)
      ((State.codeWrite_within _ _ _ _).mono))

theorem State.cmdWrite_within {ps : List Part} (s : State) (off) (v) (go) (hgo : ∀ x, Within ps x (go x))
    (h : partSub [.evWait] ps = true := by rfl) : Within ps s (State.cmdWrite s off v go) := by
  unfold State.cmdWrite
  exact Within.cut (fun h1 => Within.ite (h1.trans (hgo _)) h1) ((State.plainWrite_within _ _ _).monoOf h)

theorem State.pllWrite_within (s : State) (v) : Within [.evWait, .harm] s (State.pllWrite s v) := by
  unfold State.pllWrite
  exact Within.cut (fun h1 => Within.ite ((h1).trans ((State.harmMod_within _ _).mono)) (h1)) ((State.plainWrite_within _
    _ _).mono)

theorem State.rstCtlWrite_within (s : State) (v) : Within allParts s (State.rstCtlWrite s v) := by
  unfold State.rstCtlWrite
  exact Within.cut (fun h1 => Within.ite (((h1).trans ((State.cause_within _ _).mono)).trans ((State.hostDown_within
    _).mono)) (h1)) ((State.setLineHold_within _ _).mono)

theorem State.lowWrite_within (s : State) (port) (off) (v) : Within allParts s (State.lowWrite s port off v) := by
  unfold State.lowWrite
  exact Within.ite ((State.pllWrite_within _ _).mono) (Within.ite ((State.monSel_within _ _).mono) (Within.ite ((State.rstCtlWrite_within _ _).mono) (Within.ite ((State.rstBedWrite_within _ _).mono) (Within.ite ((State.pwrStateWrite_within _ _).mono) (Within.ite ((State.islandCtlWrite_within _ _).mono) (Within.ite ((State.fuseProgWrite_within _ _ _).mono) (Within.ite ((State.lcReqWrite_within _ _ _).mono) (Within.ite ((State.dbgCtlWrite_within _ _ _).mono) (Within.ite ((State.dbgTokenWrite_within _ _ _).mono) (Within.ite ((State.keyRevokeWrite_within _ _ _).mono) ((by split; exact (State.mapRtWrite_within _ _ _).mono; exact (State.plainWrite_within _ _ _).mono))))))))))))

theorem State.tbCmdWrite_within (s : State) (k) (v) : Within [.timers, .evWait, .time] s (State.tbCmdWrite s k v) := by
  unfold State.tbCmdWrite
  exact Within.ite ((State.plainWrite_within _ _ _).mono) ((by split; exact (State.tbSet_within _ _ _).mono; exact (State.tbStep_within _ _ _).mono; exact (State.tbSlew_within _ _ _).mono; exact (State.tbNothing_within _ _ _).mono))

theorem State.ppsOutWrite_within (s : State) (j) (v) : Within [.outbox, .timers, .evWait] s (State.ppsOutWrite s j v) := by
  unfold State.ppsOutWrite
  exact Within.cut (fun h1 => Within.cut (fun h2 => Within.ite (h2) ((h2).trans ((State.emit_within _ _).mono)))
    (Within.ite (h1) ((h1).trans ((State.stopTimer_within _ _).mono)))) ((State.plainWrite_within _ _ _).mono)

theorem State.timeWrite_within (s : State) (port) (off) (v) : Within [.outbox, .timers, .evWait, .time, .fabric] s
    (State.timeWrite s port off v) := by
  unfold State.timeWrite
  split
  · exact Within.ite ((State.addendWrite_within _ _ _).mono) (Within.ite ((State.tbCmdWrite_within _ _ _).mono)
      (Within.ite ((State.unlockWrite_within _ _ _ _).mono) ((State.plainWrite_within _ _ _).mono)))
  · exact Within.ite (Within.ite ((State.captureAll_within _).mono) (Within.refl _)) (Within.ite ((State.ref10Write_within _ _).mono) (Within.ite ((State.cmdWrite_within _ _ _ _ (fun _ => (State.actOp_within _ _).mono))) ((by split; exact Within.ite ((State.setPpsQ_within _ _ _).mono) (Within.refl _); exact (State.ppsOutWrite_within _ _ _).mono; exact (State.pairCtlWrite_within _ _ _).mono; exact (State.plainWrite_within _ _ _).mono))))

theorem State.ringWrite_within (s : State) (off) (v) : Within [.outbox, .timers, .evWait, .rings] s (State.ringWrite s
    off v) := by
  unfold State.ringWrite
  exact Within.ite ((State.nudge_within _ _).mono) ((by split; exact (State.ringCtlWrite_within _ _ _).mono; exact (State.ringCtlWrite_within _ _ _).mono; exact (State.ringCtlWrite_within _ _ _).mono; exact (State.plainWrite_within _ _ _).mono))

theorem State.exportWrite_within (s : State) (port) (v) : Within [.evWait] s (State.exportWrite s port v) := by
  unfold State.exportWrite
  exact Within.cut (fun h1 => Within.cut (fun h2 => Within.ite ((h2).trans ((State.wmapRefuse_within _ _ _).mono)) (h2))
    (Within.ite (h1) ((h1).trans ((State.wrb_within _ _ _ _).mono)))) (Within.ite (Within.refl _) ((State.wrb_within _ _
    _ _).mono))

theorem State.augWrite_within (s : State) (port) (off) (v) : Within [.outbox, .evWait, .fabric, .rings, .aug] s
    (State.augWrite s port off v) := by
  unfold State.augWrite
  exact Within.ite ((State.exportWrite_within _ _ _).mono) ((by split; exact (State.augCtlWrite_within _ _ _).mono; exact (State.augDoorbell_within _ _ _).mono; exact (State.plainWrite_within _ _ _).mono))

theorem State.assayWrite_within (s : State) (off) (v) : Within [.timers, .evWait, .assay] s (State.assayWrite s off v) := by
  unfold State.assayWrite
  exact Within.ite ((State.scanCtlWrite_within _ _).mono) ((by split; exact (State.unitCfgWrite_within _ _ _).mono; exact Within.ite ((State.assayResync_within _ _).mono) (Within.refl _); exact (State.plainWrite_within _ _ _).mono))

theorem State.meterGo_within (s : State) (op) : Within [.adm] s (State.meterGo s op) := by
  unfold State.meterGo
  split
  · exact (State.meterWrite_within _ _).mono
  · exact (State.meterWrite_within _ _).mono
  · exact (State.meterRead_within _).mono

theorem State.tblGo_within (s : State) (b) (op) : Within [.evWait, .mesh] s (State.tblGo s b op) := by
  unfold State.tblGo
  split
  · exact (State.tblWrite_within _ _).mono
  · exact (State.tblClear_within _ _).mono
  · exact (State.tblRead_within _ _).mono

theorem State.replGo_within (s : State) (op) : Within [.mesh] s (State.replGo s op) := by
  unfold State.replGo
  split
  · exact (State.replWrite_within _).mono
  · exact (State.replClear_within _).mono
  · exact (State.replRead_within _).mono

theorem State.flowGo_within (s : State) (v) : Within [.evWait, .sched] s (State.flowGo s v) := by
  unfold State.flowGo
  split
  · exact (State.flowQuantum_within _ _).mono
  · exact (State.flowZero_within _).mono
  · exact (State.flowRead_within _).mono

theorem State.clodGo_within (s : State) (v) : Within [.evWait, .sched] s (State.clodGo s v) := by
  unfold State.clodGo
  split
  · exact (State.clodWrite_within _ _ _).mono
  · exact (State.clodWrite_within _ _ _).mono
  · exact (State.clodRead_within _).mono

theorem State.schedWrite_within (s : State) (off) (v) : Within [.evWait, .shadow, .mesh, .sched] s (State.schedWrite s
    off v) := by
  unfold State.schedWrite
  exact Within.ite ((State.cmdWrite_within _ _ _ _ (fun _ => (State.flowGo_within _ _).mono))) (Within.ite ((State.cmdWrite_within _ _ _ _ (fun _ => (State.clodGo_within _ _).mono))) (Within.ite ((State.cmdWrite_within _ _ _ _ (fun _ => (State.replGo_within _ _).mono))) ((by split; exact (by split; exact (State.shWrite_within _ _ _ _).mono; exact (State.plainWrite_within _ _ _).mono); exact (State.plainWrite_within _ _ _).mono))))

theorem State.minVersionWrite_within (s : State) (port) (v) : Within [.evWait] s (State.minVersionWrite s port v) := by
  unfold State.minVersionWrite
  exact Within.ite (Within.refl _) ((State.lk_within _ _ _ _ _ (fun _ => Within.ite (Within.refl _) ((State.wr_within _ _
    _).mono))))

theorem State.tilthWrite_within (s : State) (port) (off) (v) : Within [.draws, .outbox, .timers, .evWait, .lanes, .ports,
    .macs, .frames, .copies, .adm, .sched, .tel, .silt, .tilth, .fates] s (State.tilthWrite s port off v) := by
  unfold State.tilthWrite
  exact Within.ite ((State.loadCtlWrite_within _ _ _).mono) (Within.ite ((State.loadDataWrite_within _ _ _).mono) (Within.ite ((State.minVersionWrite_within _ _ _).mono) ((by split; exact (State.roleCtlWrite_within _ _ _).mono; exact (State.plainWrite_within _ _ _).mono))))

theorem State.telCtlWrite_within (s : State) (v) : Within [.evWait, .tel] s (State.telCtlWrite s v) := by
  unfold State.telCtlWrite
  exact Within.cut (fun h1 => Within.ite ((h1).trans ((State.telMod_within _ _).mono)) (h1)) ((State.plainWrite_within _
    _ _).mono)

theorem State.archCfgWrite_within (s : State) (v) : Within [.evWait, .tel] s (State.archCfgWrite s v) := by
  unfold State.archCfgWrite
  exact Within.cut (fun h1 => (h1).trans ((State.telMod_within _ _).mono)) ((State.plainWrite_within _ _ _).mono)

theorem State.laneWrite_within (s : State) (base) (r) (v) : Within [.draws, .outbox, .timers, .evWait, .lanes, .ports,
    .macs, .frames, .copies, .adm, .sched, .tel, .silt, .fates] s (State.laneWrite s base r v) := by
  unfold State.laneWrite
  exact Within.ite ((State.laneCtlWrite_within _ _ _).mono) (Within.ite ((State.boardWrite_within _ _ _ _).mono)
    (Within.ite ((State.prbsCtlWrite_within _ _ _).mono) (Within.ite ((State.prbsInjWrite_within _ _ _).mono)
    ((State.plainWrite_within _ _ _).mono))))

theorem State.pipeStatusWrite_within (s : State) (b) (v) : Within [.evWait, .mesh] s (State.pipeStatusWrite s b v) := by
  unfold State.pipeStatusWrite
  exact Within.foldl ((State.plainWrite_within _ _ _).mono) (fun _ _ => (State.setTrial_within _ _ _ _).mono)

theorem State.gateShWrite_within (s : State) (b) (p) (off) (v) : Within [.evWait] s (State.gateShWrite s b p off v) := by
  unfold State.gateShWrite
  exact Within.ite ((State.shadowListRefused_within _ _ _).mono) ((State.plainWrite_within _ _ _).mono)

theorem State.bedWrite_within (s : State) (b) (off) (v) : Within [.outbox, .timers, .evWait, .lanes, .ports, .macs,
    .shadow, .frames, .copies, .mesh, .adm, .sched, .gates, .time, .tel, .fates] s (State.bedWrite s b off v) := by
  unfold State.bedWrite
  exact Within.ite ((State.pipeMapWrite_within _ _ _).mono) (Within.ite ((State.parseCtlWrite_within _ _ _).mono) (Within.ite ((State.pipeStatusWrite_within _ _ _).mono) (Within.ite ((State.meshCtlWrite_within _ _ _).mono) (Within.ite ((State.cmdWrite_within _ _ _ _ (fun _ => (State.tblGo_within _ _ _).mono))) (Within.ite ((State.rewCtlWrite_within _ _ _).mono) (Within.ite (((State.plainWrite_within _ _ _).mono).trans ((State.meterHostWrite_within _ _ _ _).mono)) (Within.ite (((State.plainWrite_within _ _ _).mono).trans ((State.meterHostWrite_within _ _ _ _).mono)) (Within.ite ((State.cmdWrite_within _ _ _ _ (fun _ => Within.ite ((State.gateListWrite_within _ _).mono) ((State.gateListRead_within _ _).mono)))) ((by split; exact (State.formWrite_within _ _ _ _).mono; exact (State.mmCtlWrite_within _ _ _ _).mono; exact (by split; exact (State.shWrite_within _ _ _ _).mono; exact (State.plainWrite_within _ _ _).mono); exact Within.ite ((State.gateCtlWrite_within _ _ _ _).mono) (Within.ite ((State.gateShWrite_within _ _ _ _ _).mono) ((State.plainWrite_within _ _ _).mono)); exact Within.ite ((State.snap_within _ _ _).mono) (Within.ite ((State.snap_within _ _ _).mono) (Within.refl _)); exact (State.tsqWrite_within _ _ _ _).mono; exact (State.plainWrite_within _ _ _).mono))))))))))

theorem State.restWrite_within (s : State) (off) (v) : Within allParts s (State.restWrite s off v) := by
  unfold State.restWrite
  exact Within.ite ((State.cmdWrite_within _ _ _ _ (fun _ => (State.meterGo_within _ _).mono))) (Within.ite ((State.harmAck_within _ _).mono) (Within.ite ((State.telCtlWrite_within _ _).mono) (Within.ite ((State.archCfgWrite_within _ _).mono) (Within.ite ((State.mdioWrite_within _ _).mono) (Within.ite (Within.ite ((State.snap_within _ _ _).mono) (Within.ite ((State.snap_within _ _ _).mono) (Within.refl _))) (Within.ite ((State.swapCtlWrite_within _ _).mono) ((by split; exact (State.siltCtlWrite_within _ _ _).mono; exact (State.plainWrite_within _ _ _).mono))))))))

theorem State.regWrite_within (s : State) (port) (off) (v) : Within allParts s (State.regWrite s port off v) := by
  unfold State.regWrite
  split
  · exact (State.laneWrite_within _ _ _ _).mono
  · exact Within.refl _
  · refine Within.ite ((State.lowWrite_within _ _ _ _).mono) (Within.ite ((State.timeWrite_within _ _ _ _).mono)
      (Within.ite ((State.ringWrite_within _ _ _).mono) (Within.ite ((State.augWrite_within _ _ _ _).mono)
        (Within.ite ((State.assayWrite_within _ _ _).mono) (Within.ite ((State.schedWrite_within _ _ _).mono)
          (Within.ite ((State.tilthWrite_within _ _ _ _).mono) ?_))))))
    split
    · exact (State.bedWrite_within _ _ _ _).mono
    · exact (State.restWrite_within _ _ _).mono

theorem execRegisterWrite_within (addr) (v) (be) (s : State) : WithinO allParts s (execRegisterWrite addr v be s) := by
  unfold execRegisterWrite
  exact WithinO.ite (WithinO.next (Within.ite ((State.answer_within _ _ _).mono) (Within.refl _))) (WithinO.next
    ((State.cfg_within _ _ _ (fun _ => (State.regWrite_within _ _ _ _).mono))))

theorem execCounterWrite_within (addr) (v) (s : State) : WithinO allParts s (execCounterWrite addr v s) := by
  unfold execCounterWrite
  exact WithinO.next (Within.ite ((State.cfg_within _ _ _ (fun _ => (State.regWrite_within _ _ _ _).mono))) (Within.refl _))

theorem execEvtMaskClear_within (evt) (v) (s : State) : WithinO allParts s (execEvtMaskClear evt v s) := by
  unfold execEvtMaskClear
  exact WithinO.next (Within.ite ((State.cfg_within _ _ _ (fun _ => (State.regWrite_within _ _ _ _).mono))) (Within.refl _))

theorem State.dpSet_within (s : State) (a) (v) : Within [.sec] s (State.dpSet s a v) := by
  unfold State.dpSet
  exact (State.secMod_within _ _).mono

theorem State.dpSets_within (s : State) (a) (u2) : Within [.sec] s (State.dpSets s a u2) := by
  induction u2 generalizing s a with
  | nil => exact Within.refl _
  | cons w ws ih => exact ((State.dpSet_within _ _ _).mono).trans (ih _ _)

theorem execDpAccess_within (addr) (data) (s : State) : WithinO allParts s (execDpAccess addr data s) := by
  unfold execDpAccess
  exact WithinO.ite (WithinO.next (Within.refl _)) (WithinO.ite (WithinO.next ((State.emit_within _ _).mono))
    (WithinO.cut (fun h1 => WithinO.ite (WithinO.next (((h1).trans ((State.dpSet_within _ _ _).mono)).trans
    ((State.emit_within _ _).mono))) (WithinO.ite (WithinO.next ((Within.ite (((h1).trans ((State.regWrite_within _ _ _
    _).mono)).trans ((State.writeThrough_within _ _ _).mono)) (h1)).trans ((State.emit_within _ _).mono))) (WithinO.next
    ((((h1).trans ((State.readEffect_within _ _).mono)).trans ((State.dpSet_within _ _ _).mono)).trans
    ((State.emit_within _ _).mono))))) (((State.dpSet_within _ _ _).mono).trans ((State.dpSet_within _ _ _).mono))))

theorem State.freeWords_within (s : State) (u1) : Within [.draws] s (State.freeWords s u1).2 := by
  induction u1 generalizing s with
  | zero => exact Within.refl _
  | succ n ih => exact ((State.draw_within s).mono).trans (ih _)

theorem State.memLine_within (s : State) (space) (addr) : Within [.draws] s (State.memLine s space addr).2 := by
  unfold State.memLine
  dsimp only
  generalize (if s.sec.linesAt = s.memStamp then sget (fun _ => none) s.sec.lines (lineKey space addr) else none) = o
  cases o with
  | some ws => exact Within.refl _
  | none =>
    dsimp only
    split
    · exact Within.refl _
    · exact (State.freeWords_within _ _).mono

theorem State.memStore_within (s : State) (space) (addr) (ws) : Within [.sec] s (State.memStore s space addr ws) := by
  unfold State.memStore
  exact (State.secMod_within _ _).mono

theorem State.grainSpoil_within (s : State) (space) (grain) : Within [.frames] s (State.grainSpoil s space grain) := by
  unfold State.grainSpoil
  split
  · exact (State.frameMod_within _ _ _).mono
  · exact Within.refl _

theorem State.memEnd_within (s : State) (ctl) (err) : Within [.outbox, .sec] s (State.memEnd s ctl err) := by
  unfold State.memEnd
  exact ((State.dpSet_within _ _ _).mono).trans ((State.emit_within _ _).mono)

theorem execDpMemAccess_within (addr64) (ctl) (data) (grain) (s : State) : WithinO [.draws, .outbox, .frames, .sec] s
    (execDpMemAccess addr64 ctl data
  grain s) := by
  unfold execDpMemAccess
  exact WithinO.ite (WithinO.next (Within.refl _)) (WithinO.ite (WithinO.next ((State.emit_within _ _).mono))
    (WithinO.cut (fun h1 => WithinO.ite (WithinO.next ((h1).trans ((State.memEnd_within _ _ _).mono))) (WithinO.ite
    (WithinO.ite (WithinO.next ((h1).trans ((State.memEnd_within _ _ _).mono))) (WithinO.next (((h1).trans
    ((State.dpSets_within _ _ _).mono)).trans ((State.memEnd_within _ _ _).mono)))) (WithinO.ite (WithinO.next
    ((h1).trans ((State.memEnd_within _ _ _).mono))) (WithinO.ite (WithinO.next ((((h1).trans ((State.memStore_within _ _
    _ _).mono)).trans ((State.grainSpoil_within _ _ _).mono)).trans ((State.memEnd_within _ _ _).mono))) (WithinO.matchP
    ((h1).trans ((State.memLine_within _ _ _).mono)) fun _ _ h2 => WithinO.next (((h2).trans ((State.dpSets_within _ _
    _).mono)).trans ((State.memEnd_within _ _ _).mono))))))) ((((State.dpSet_within _ _ _).mono).trans
    ((State.dpSet_within _ _ _).mono)).trans ((State.dpSets_within _ _ _).mono))))

theorem State.onBed_within {ps : List Part} (s : State) (off) (f) (hf : ∀ x, Within ps x (f x)) (h : partSub [.mesh,
    .gates] ps = true := by rfl) : Within ps s (State.onBed s off f) := by
  unfold State.onBed
  exact (hf _).trans ((State.writeThrough_within _ _ _).monoOf h)

theorem State.bedPulse_within (s : State) (b) (line) : Within [.evWait, .mesh, .gates] s (State.bedPulse s b line) := by
  unfold State.bedPulse
  exact Within.ite (Within.refl _) (Within.cut (fun h1 => Within.cut (fun h2 => Within.foldl (h2) (fun _ _ => Within.ite
    ((State.onBed_within _ _ _ (fun _ => (State.gateCommitBy_within _ _ _ _).mono))) (Within.refl _))) (Within.ite
    ((h1).trans ((State.onBed_within _ _ _ (fun _ => (State.rewCommitBy_within _ _ _).mono)))) (h1))) (Within.ite
    ((State.onBed_within _ _ _ (fun _ => (State.meshCommitBy_within _ _ _).mono))) (Within.refl _)))

theorem State.actPulse_within (s : State) (line) : Within [.outbox, .timers, .evWait, .time, .fabric] s (State.actPulse s
    line) := by
  unfold State.actPulse
  exact Within.foldl (Within.refl _) (fun _ _ => (State.actArm_within _ _).mono)

theorem State.linePulse_within (s : State) (line) : Within [.outbox, .timers, .evWait, .mesh, .gates, .time, .fabric,
    .assay, .tilth] s (State.linePulse s line) := by
  unfold State.linePulse
  exact Within.cut (fun h1 => Within.cut (fun h2 => Within.cut (fun h3 => Within.cut (fun h4 => (h4).trans
    ((State.tilthWake_within _ _).mono)) (Within.ite ((h3).trans ((State.scanGo_within _).mono)) (h3))) (Within.foldl
    (h2) (fun _ _ => Within.ite ((State.pairSwitch_within _ _).mono) (Within.refl _)))) ((h1).trans
    ((State.actPulse_within _ _).mono))) (Within.foldl (Within.refl _) (fun _ _ => (State.bedPulse_within _ _ _).mono))

theorem State.nudgePulse_within (s : State) (line) : Within [.outbox, .evWait, .rings] s (State.nudgePulse s line) := by
  unfold State.nudgePulse
  exact Within.foldl (Within.refl _) (fun _ _ => Within.ite ((State.nudge_within _ _).mono) (Within.refl _))

theorem execFabricPulse_within (line) (s : State) : WithinO [.outbox, .timers, .evWait, .mesh, .gates, .time, .fabric,
    .assay, .rings, .tilth] s (execFabricPulse line s) := by
  unfold execFabricPulse
  exact WithinO.ite (WithinO.next (Within.refl _)) (WithinO.cut (fun h1 => WithinO.cut (fun h2 => WithinO.next
    (Within.ite ((h2).trans ((State.nudgePulse_within _ _).mono)) (h2))) (Within.ite ((h1).trans ((State.linePulse_within
    _ _).mono)) (h1))) ((Within.fabric _ _).mono))

theorem execScanEntryEnd_within (data) (s : State) : WithinO allParts s (execScanEntryEnd data s) := by
  unfold execScanEntryEnd
  split
  · exact WithinO.ite (WithinO.next (Within.refl _)) (WithinO.next (((State.scanJudge_within _ _ _).mono).trans
      ((State.scanNext_within _ _).mono)))
  · exact WithinO.next (Within.refl _)

theorem State.idleTick_within (s : State) : Within allParts { s with now := s.now + 1 } s.idleTick := by
  have h : Within allParts { s with now := s.now + 1 } ({ s with now := s.now + 1 } : State).prbsTick.gateTick :=
    ((State.prbsTick_within _).mono).trans ((State.gateTick_within _).mono)
  exact Within.ite (h.trans ((State.timeTick_within _).mono)) h

end Sys2Proof.Machine
end

section
/-! SUPPORT. The lock-out of debug sessions and the load port's engine, over every command and every step. -/

set_option Elab.async false

namespace Sys2Proof.Machine

/-- LOT_POR_N goes low: by its pin, or by the supervisor at a rail's fault (R70, R495). -/
def losesPower : Instr → Bool
  | .powerOnReset false | .railFault _ => true
  | _ => false

/-- What `Within` says of a command that does not lose power: its own rule, by the command. -/
theorem exec_within (c : Instr) (s : State) (h : losesPower c = false) : WithinO allParts s (exec c s) :=
  match c, h with
  | .registerWrite .., _ => (execRegisterWrite_within _ _ _ s).mono
  | .counterWrite .., _ => (execCounterWrite_within _ _ s).mono
  | .macReceiveFrame .., _ => (execMacReceiveFrame_within _ _ _ _ _ _ _ _ _ _ _ s).mono
  | .parseWindow .., _ => (execParseWindow_within _ _ _ _ s).mono
  | .payloadMatchFinal .., _ => (execPayloadMatchFinal_within _ s).mono
  | .tailCheck .., _ => (execTailCheck_within _ s).mono
  | .keySend .., _ => (execKeySend_within _ _ s).mono
  | .keyCreditReturn .., _ => (execKeyCreditReturn_within _ _ s).mono
  | .verdictReceive .., _ => (execVerdictReceive_within _ _ _ s).mono
  | .handoffTimeout .., _ => (execHandoffTimeout_within _ _ s).mono
  | .enqueue .., _ => (execEnqueue_within _ s).mono
  | .multicastReplicate .., _ => (execMulticastReplicate_within _ s).mono
  | .mirrorCopy .., _ => (execMirrorCopy_within _ s).mono
  | .recirculate .., _ => (execRecirculate_within _ _ s).mono
  | .selection .., _ => (execSelection_within _ s).mono
  | .egressEdit .., _ => (execEgressEdit_within _ _ s).mono
  | .macTransmitFrame .., _ => (execMacTransmitFrame_within _ _ _ s).mono
  | .sieveFrameOut .., _ => (execSieveFrameOut_within _ _ s).mono
  | .powerOnReset true, _ => WithinO.ite (.next (.refl _)) (.next (State.powerReleased_within _).mono)
  | .hostResetPin .., _ => (execHostResetPin_within _ s).mono
  | .lineResetPin .., _ => (execLineResetPin_within _ s).mono
  | .rstCtlHostSelf .., _ => (execRstCtlHostSelf_within _ s).mono
  | .rstCtlLineHold .., _ => (execRstCtlLineHold_within _ s).mono
  | .rstBedWrite .., _ => (execRstBedWrite_within _ s).mono
  | .pwrIslandCtlWrite .., _ => (execPwrIslandCtlWrite_within _ s).mono
  | .railGood .., _ => (execRailGood_within _ s).mono
  | .rampTimeout .., _ => (execRampTimeout_within _ s).mono
  | .islandResetRelease .., _ => (execIslandResetRelease_within _ s).mono
  | .bridgeCentred .., _ => (execBridgeCentred_within _ s).mono
  | .pllLockLoss .., _ => (execPllLockLoss_within s).mono
  | .pllRelock .., _ => (execPllRelock_within s).mono
  | .clkMonStart .., _ => (execClkMonStart_within _ s).mono
  | .clkMonWindowEnd .., _ => (execClkMonWindowEnd_within _ s).mono
  | .portFormWrite .., _ => (execPortFormWrite_within _ _ _ s).mono
  | .portDetectDone .., _ => (execPortDetectDone_within _ _ s).mono
  | .portTrainDone .., _ => (execPortTrainDone_within _ _ _ s).mono
  | .portLockDone .., _ => (execPortLockDone_within _ _ _ s).mono
  | .portExchangeConfirm .., _ => (execPortExchangeConfirm_within _ _ _ _ s).mono
  | .portExchangeMismatch .., _ => (execPortExchangeMismatch_within _ _ _ _ s).mono
  | .portStageTimeout .., _ => (execPortStageTimeout_within _ _ s).mono
  | .laneLockLoss .., _ => (execLaneLockLoss_within _ _ s).mono
  | .reformDone .., _ => (execReformDone_within _ _ _ s).mono
  | .reformLimitExpire .., _ => (execReformLimitExpire_within _ _ s).mono
  | .gapRetry .., _ => (execGapRetry_within _ _ s).mono
  | .dormantWakeDone .., _ => (execDormantWakeDone_within _ _ s).mono
  | .laneRecovered .., _ => (execLaneRecovered_within _ _ s).mono
  | .faultHoldExpire .., _ => (execFaultHoldExpire_within _ _ s).mono
  | .laneModeOff .., _ => (execLaneModeOff_within _ _ s).mono
  | .laneModePort .., _ => (execLaneModePort_within _ _ s).mono
  | .laneModeTest .., _ => (execLaneModeTest_within _ _ s).mono
  | .laneReset .., _ => (execLaneReset_within _ _ s).mono
  | .boardTableWrite .., _ => (execBoardTableWrite_within _ _ _ s).mono
  | .prbsChkClear .., _ => (execPrbsChkClear_within _ _ s).mono
  | .prbsSyncAcquire .., _ => (execPrbsSyncAcquire_within _ s).mono
  | .prbsSyncLoss .., _ => (execPrbsSyncLoss_within _ _ s).mono
  | .prbsErrorInject .., _ => (execPrbsErrorInject_within _ s).mono
  | .pauseFrameReceive .., _ => (execPauseFrameReceive_within _ _ _ _ s).mono
  | .pfcFrameReceive .., _ => (execPfcFrameReceive_within _ _ _ _ s).mono
  | .pauseTimerExpire .., _ => (execPauseTimerExpire_within _ _ s).mono
  | .pauseWatchdogTrip .., _ => (execPauseWatchdogTrip_within _ _ _ s).mono
  | .watchdogHoldEnd .., _ => (execWatchdogHoldEnd_within _ _ _ s).mono
  | .pauseSend .., _ => (execPauseSend_within _ _ s).mono
  | .pauseRefresh .., _ => (execPauseRefresh_within _ _ _ s).mono
  | .remoteFaultChange .., _ => (execRemoteFaultChange_within _ _ _ s).mono
  | .mergeVerifyStart .., _ => (execMergeVerifyStart_within _ _ s).mono
  | .mergeRespondReceive .., _ => (execMergeRespondReceive_within _ _ s).mono
  | .mergeVerifyTimeout .., _ => (execMergeVerifyTimeout_within _ _ s).mono
  | .mergeVerifyRestart .., _ => (execMergeVerifyRestart_within _ _ _ s).mono
  | .mergeVerifyFrameReceive .., _ => (execMergeVerifyFrameReceive_within _ _ s).mono
  | .preemptFragment .., _ => (execPreemptFragment_within _ _ s).mono
  | .statSnap .., _ => (execStatSnap_within _ s).mono
  | .statSnapClear .., _ => (execStatSnapClear_within _ s).mono
  | .mgmtFrameReceive .., _ => (execMgmtFrameReceive_within _ _ _ s).mono
  | .mgmtCollision .., _ => (execMgmtCollision_within _ s).mono
  | .mgmtBackoffEnd .., _ => (execMgmtBackoffEnd_within s).mono
  | .mdioStart .., _ => (execMdioStart_within _ s).mono
  | .mdioDone .., _ => (execMdioDone_within _ s).mono
  | .wakeFrame .., _ => (execWakeFrame_within _ _ s).mono
  | .pipeMapWrite .., _ => (execPipeMapWrite_within _ _ s).mono
  | .pipeParityError .., _ => (execPipeParityError_within _ _ _ s).mono
  | .pipeTrialPass .., _ => (execPipeTrialPass_within _ _ s).mono
  | .meshCommit .., _ => (execMeshCommit_within _ _ s).mono
  | .meshDrained .., _ => (execMeshDrained_within _ s).mono
  | .meshTblRead .., _ => (execMeshTblRead_within _ s).mono
  | .meshTblWrite .., _ => (execMeshTblWrite_within _ s).mono
  | .meshTblClear .., _ => (execMeshTblClear_within _ s).mono
  | .rewriteCommit .., _ => (execRewriteCommit_within _ _ s).mono
  | .rewriteDrained .., _ => (execRewriteDrained_within _ s).mono
  | .replRead .., _ => (execReplRead_within s).mono
  | .replWrite .., _ => (execReplWrite_within s).mono
  | .replClear .., _ => (execReplClear_within s).mono
  | .meterRead .., _ => (execMeterRead_within s).mono
  | .meterWriteFull .., _ => (execMeterWriteFull_within s).mono
  | .meterWriteKeep .., _ => (execMeterWriteKeep_within s).mono
  | .meterRefresh .., _ => (execMeterRefresh_within _ s).mono
  | .spillMove .., _ => (execSpillMove_within _ _ _ s).mono
  | .moveAck .., _ => (execMoveAck_within _ s).mono
  | .prefetchIssue .., _ => (execPrefetchIssue_within _ s).mono
  | .prefetchComplete .., _ => (execPrefetchComplete_within _ _ s).mono
  | .shadowWrite .., _ => (execShadowWrite_within _ _ _ s).mono
  | .handover .., _ => (execHandover_within _ s).mono
  | .flowRead .., _ => (execFlowRead_within s).mono
  | .flowWriteQuantum .., _ => (execFlowWriteQuantum_within _ s).mono
  | .flowZeroDeq .., _ => (execFlowZeroDeq_within s).mono
  | .clodRead .., _ => (execClodRead_within s).mono
  | .clodWrite .., _ => (execClodWrite_within _ s).mono
  | .clodWriteFull .., _ => (execClodWriteFull_within _ s).mono
  | .schedInit .., _ => (execSchedInit_within s).mono
  | .schedInitDone .., _ => (execSchedInitDone_within s).mono
  | .clodRefresh .., _ => (execClodRefresh_within _ s).mono
  | .clodRejoin .., _ => (execClodRejoin_within _ s).mono
  | .cacheFetchDone .., _ => (execCacheFetchDone_within _ _ s).mono
  | .gateCommit .., _ => (execGateCommit_within _ _ _ s).mono
  | .gateAbort .., _ => (execGateAbort_within _ _ _ s).mono
  | .gateAdopt .., _ => (execGateAdopt_within _ _ s).mono
  | .gateBoundary .., _ => (execGateBoundary_within _ _ s).mono
  | .gateHoldAdvance .., _ => (execGateHoldAdvance_within _ _ s).mono
  | .gateAbandon .., _ => (execGateAbandon_within _ _ s).mono
  | .gateListRead .., _ => (execGateListRead_within _ s).mono
  | .gateListWrite .., _ => (execGateListWrite_within _ s).mono
  | .addendWrite .., _ => (execAddendWrite_within _ _ s).mono
  | .tbNowRead .., _ => (execTbNowRead_within _ s).mono
  | .captureAll .., _ => (execCaptureAll_within s).mono
  | .tbSet .., _ => (execTbSet_within _ _ s).mono
  | .tbStep .., _ => (execTbStep_within _ _ s).mono
  | .tbSlew .., _ => (execTbSlew_within _ _ s).mono
  | .slewEnd .., _ => (execSlewEnd_within _ s).mono
  | .unlockWrite .., _ => (execUnlockWrite_within _ _ s).mono
  | .unlockExpire .., _ => (execUnlockExpire_within _ s).mono
  | .actRead .., _ => (execActRead_within s).mono
  | .actWrite .., _ => (execActWrite_within s).mono
  | .actArm .., _ => (execActArm_within s).mono
  | .actDisarm .., _ => (execActDisarm_within s).mono
  | .actFire .., _ => (execActFire_within _ _ s).mono
  | .tsqPop .., _ => (execTsqPop_within _ _ _ s).mono
  | .ppsInEdge .., _ => (execPpsInEdge_within _ _ s).mono
  | .ppsInPop .., _ => (execPpsInPop_within _ s).mono
  | .ppsOutEnd .., _ => (execPpsOutEnd_within _ s).mono
  | .ref10Go .., _ => (execRef10Go_within _ s).mono
  | .ref10Done .., _ => (execRef10Done_within _ _ s).mono
  | .timeMonSample .., _ => (execTimeMonSample_within _ _ s).mono
  | .pairSwitch .., _ => (execPairSwitch_within _ _ s).mono
  | .pairReturn .., _ => (execPairReturn_within _ _ s).mono
  | .pairSwitchDone .., _ => (execPairSwitchDone_within _ s).mono
  | .intervalSettle .., _ => (execIntervalSettle_within s).mono
  | .archiveWriteAck .., _ => (execArchiveWriteAck_within _ s).mono
  | .eventRecordSend .., _ => (execEventRecordSend_within _ s).mono
  | .evtMaskClear .., _ => (execEvtMaskClear_within _ _ s).mono
  | .nudge .., _ => (execNudge_within _ s).mono
  | .doorbellPoll .., _ => (execDoorbellPoll_within _ s).mono
  | .doorbellRecordArrive .., _ => (execDoorbellRecordArrive_within _ _ s).mono
  | .hostReadTimeout .., _ => (execHostReadTimeout_within _ s).mono
  | .hostErrorResponse .., _ => (execHostErrorResponse_within _ _ s).mono
  | .ringEnable .., _ => (execRingEnable_within _ _ s).mono
  | .ringDisable .., _ => (execRingDisable_within _ _ s).mono
  | .ringReset .., _ => (execRingReset_within _ _ s).mono
  | .ringDrained .., _ => (execRingDrained_within _ s).mono
  | .txDescArrive .., _ => (execTxDescArrive_within _ _ s).mono
  | .txFrameCross .., _ => (execTxFrameCross_within _ s).mono
  | .txWriteback .., _ => (execTxWriteback_within _ s).mono
  | .txFateReport .., _ => (execTxFateReport_within s).mono
  | .tsWaitExpire .., _ => (execTsWaitExpire_within _ s).mono
  | .rxFrameArrive .., _ => (execRxFrameArrive_within s).mono
  | .rxShortWaitExpire .., _ => (execRxShortWaitExpire_within _ s).mono
  | .rxWriteback .., _ => (execRxWriteback_within _ _ s).mono
  | .vectorArmWrite .., _ => (execVectorArmWrite_within _ _ s).mono
  | .vectorMessage .., _ => (execVectorMessage_within _ s).mono
  | .augDoorbell .., _ => (execAugDoorbell_within _ _ s).mono
  | .augPause .., _ => (execAugPause_within _ _ s).mono
  | .augUnpause .., _ => (execAugUnpause_within _ _ s).mono
  | .augResume .., _ => (execAugResume_within _ _ s).mono
  | .augAbort .., _ => (execAugAbort_within _ _ s).mono
  | .augDescArrive .., _ => (execAugDescArrive_within _ _ _ _ s).mono
  | .augSourceRead .., _ => (execAugSourceRead_within _ _ _ s).mono
  | .augWriteResponse .., _ => (execAugWriteResponse_within _ _ _ s).mono
  | .fabricPulse .., _ => (execFabricPulse_within _ s).mono
  | .assayCommit .., _ => (execAssayCommit_within _ _ s).mono
  | .assayParityError .., _ => (execAssayParityError_within _ s).mono
  | .assayResync .., _ => (execAssayResync_within _ _ s).mono
  | .scanStart .., _ => (execScanStart_within _ s).mono
  | .scanEntryEnd .., _ => (execScanEntryEnd_within _ s).mono
  | .siltEnable .., _ => (execSiltEnable_within _ _ s).mono
  | .siltDisable .., _ => (execSiltDisable_within _ _ s).mono
  | .siltStageDone .., _ => (execSiltStageDone_within _ _ _ s).mono
  | .siltStageTimeout .., _ => (execSiltStageTimeout_within _ _ _ s).mono
  | .siltCapSend .., _ => (execSiltCapSend_within _ s).mono
  | .siltCapReceive .., _ => (execSiltCapReceive_within _ _ s).mono
  | .siltCapAckReceive .., _ => (execSiltCapAckReceive_within _ s).mono
  | .readDataReceive .., _ => (execReadDataReceive_within _ _ _ _ _ _ _ s).mono
  | .writeAckReceive .., _ => (execWriteAckReceive_within _ _ _ _ s).mono
  | .creditReceive .., _ => (execCreditReceive_within _ _ _ _ _ s).mono
  | .nakReceive .., _ => (execNakReceive_within _ _ _ s).mono
  | .laneFailReceive .., _ => (execLaneFailReceive_within _ _ _ s).mono
  | .laneMapAckReceive .., _ => (execLaneMapAckReceive_within _ _ _ s).mono
  | .moduleStatusReceive .., _ => (execModuleStatusReceive_within _ _ _ _ s).mono
  | .replayTimeout .., _ => (execReplayTimeout_within _ s).mono
  | .siltLossTimeout .., _ => (execSiltLossTimeout_within _ s).mono
  | .siltLaneLost .., _ => (execSiltLaneLost_within _ _ s).mono
  | .laneMapResend .., _ => (execLaneMapResend_within _ s).mono
  | .siltSpareRecover .., _ => (execSiltSpareRecover_within _ _ s).mono
  | .siltNullSend .., _ => (execSiltNullSend_within _ s).mono
  | .siltGapRetry .., _ => (execSiltGapRetry_within _ s).mono
  | .siltDetach .., _ => (execSiltDetach_within _ _ s).mono
  | .siltDrainForce .., _ => (execSiltDrainForce_within _ _ s).mono
  | .siltDetachDone .., _ => (execSiltDetachDone_within _ s).mono
  | .loadStart .., _ => (execLoadStart_within _ s).mono
  | .loadData .., _ => (execLoadData_within _ s).mono
  | .loadFinish .., _ => (execLoadFinish_within _ s).mono
  | .loadAbort .., _ => (execLoadAbort_within _ s).mono
  | .loadCheckDone .., _ => (execLoadCheckDone_within _ s).mono
  | .roleAssign .., _ => (execRoleAssign_within _ _ s).mono
  | .roleHandover .., _ => (execRoleHandover_within _ _ s).mono
  | .roleAbort .., _ => (execRoleAbort_within _ _ s).mono
  | .engineClear .., _ => (execEngineClear_within _ s).mono
  | .machineCheck .., _ => (execMachineCheck_within _ _ _ _ s).mono
  | .tilthWatchdog .., _ => (execTilthWatchdog_within _ _ s).mono
  | .safePoint .., _ => (execSafePoint_within _ _ _ _ _ s).mono
  | .takeoverDone .., _ => (execTakeoverDone_within _ _ s).mono
  | .heartbeatSend .., _ => (execHeartbeatSend_within s).mono
  | .heartbeatTimeout .., _ => (execHeartbeatTimeout_within _ s).mono
  | .harmWindowEnd .., _ => (execHarmWindowEnd_within _ _ s).mono
  | .harmAck .., _ => (execHarmAck_within _ s).mono
  | .fenceRelease .., _ => (execFenceRelease_within _ _ s).mono
  | .harmTake .., _ => (execHarmTake_within s).mono
  | .swapWarm .., _ => (execSwapWarm_within _ s).mono
  | .swapStart .., _ => (execSwapStart_within _ s).mono
  | .swapAbort .., _ => (execSwapAbort_within _ s).mono
  | .swapReturn .., _ => (execSwapReturn_within _ s).mono
  | .reseedMatched .., _ => (execReseedMatched_within _ s).mono
  | .shadowMatched .., _ => (execShadowMatched_within s).mono
  | .shadowMismatch .., _ => (execShadowMismatch_within s).mono
  | .portSwitch .., _ => (execPortSwitch_within _ s).mono
  | .bedDrained .., _ => (execBedDrained_within s).mono
  | .marlRewriteDone .., _ => (execMarlRewriteDone_within _ s).mono
  | .wearSample .., _ => (execWearSample_within _ _ s).mono
  | .subsoilRepairStart .., _ => (execSubsoilRepairStart_within _ _ _ _ s).mono
  | .subsoilRepairDone .., _ => (execSubsoilRepairDone_within _ _ s).mono
  | .uncorrectableError .., _ => (execUncorrectableError_within _ s).mono
  | .fuseProgGo .., _ => (execFuseProgGo_within _ s).mono
  | .fuseBlowDone .., _ => (execFuseBlowDone_within _ s).mono
  | .mapRtWrite .., _ => (execMapRtWrite_within _ _ s).mono
  | .lcRequest .., _ => (execLcRequest_within _ s).mono
  | .lcBlowDone .., _ => (execLcBlowDone_within _ s).mono
  | .keyRevoke .., _ => (execKeyRevoke_within _ s).mono
  | .dbgChalReq .., _ => (execDbgChalReq_within _ _ s).mono
  | .dbgTokenWrite .., _ => (execDbgTokenWrite_within _ _ s).mono
  | .dbgSubmit .., _ => (execDbgSubmit_within _ _ s).mono
  | .tokenCheckDone .., _ => (execTokenCheckDone_within s).mono
  | .wipeDone .., _ => (execWipeDone_within s).mono
  | .dbgClose .., _ => (execDbgClose_within _ _ s).mono
  | .sessionExpire .., _ => (execSessionExpire_within _ s).mono
  | .challengeExpire .., _ => (execChallengeExpire_within _ s).mono
  | .returnArmExpire .., _ => (execReturnArmExpire_within s).mono
  | .dpAccess .., _ => (execDpAccess_within _ _ s).mono
  | .dpMemAccess .., _ => (execDpMemAccess_within _ _ _ _ s).mono
  | .dpLineRelease .., _ => (execDpLineRelease_within _ s).mono
  | .pwrStateTrim .., _ => (execPwrStateTrim_within s).mono
  | .pwrStateRun .., _ => (execPwrStateRun_within s).mono
  | .fallowEntry .., _ => (execFallowEntry_within s).mono
  | .fallowExit .., _ => (execFallowExit_within s).mono
  | .flitDiscard .., _ => (execFlitDiscard_within _ _ _ _ s).mono
  | .nullFlitReceive .., _ => (execNullFlitReceive_within _ _ s).mono
  | .stuffError .., _ => (execStuffError_within _ _ _ s).mono
  | .mgmtDeferEnd .., _ => (execMgmtDeferEnd_within s).mono
  | .intervalEnd .., _ => (execIntervalEnd_within s).mono
  | .tornRecordRefetch .., _ => (execTornRecordRefetch_within _ s).mono
  | .keyRevokeDone .., _ => (execKeyRevokeDone_within s).mono

theorem exec_of_losesPower {c : Instr} (h : losesPower c = true) (s : State) : exec c s = .next s.powerLost := by
  unfold losesPower at h
  split at h
  · rfl
  · rfl
  · cases h

theorem State.powerLost_fails (s : State) : s.powerLost.sec.fails = 0 := rfl

theorem State.powerLost_load (s : State) : s.powerLost.tilth.load = none := rfl

/-- A step is a loss of power, or else it keeps the lock-out in step and the load port's engine in range. -/
theorem step_within_or_powerLost {s t : State} (h : step s = .next t) :
    (Sec.LockStep s.sec t.sec ∧ (s.tilth.loadOk → t.tilth.loadOk)) ∨
      ∃ c rest u, s.pending = c :: rest ∧ losesPower c = true ∧ t = State.powerLost u := by
  cases hq : s.pending with
  | nil =>
    rw [step_nil hq] at h
    cases h
    exact .inl ⟨s.idleTick_within.lock, s.idleTick_within.load⟩
  | cons c rest =>
    rw [step_cons hq] at h
    cases hc : losesPower c with
    | true =>
      rw [exec_of_losesPower hc] at h
      cases h
      exact .inr ⟨c, rest, _, rfl, hc, rfl⟩
    | false =>
      have hw := exec_within c _ hc t h
      exact .inl ⟨hw.lock, hw.load⟩

/-- Settles O7: FAILS and LOCKED go in step but for a loss of power, which leaves FAILS at 0 and which the second clause
excludes. -/
theorem lockOutHolds : Obligations.LockOutHolds := by
  intro s t hstep
  obtain ⟨hlock, -⟩ | ⟨c, rest, u, hq, hc, rfl⟩ := step_within_or_powerLost hstep
  · exact ⟨hlock.bound, fun hl _ _ => hlock.locked hl⟩
  · refine ⟨fun _ => ⟨Nat.zero_le 8, fun h => nomatch (State.powerLost_fails u).symm.trans h⟩, fun _ hpor hrail => ?_⟩
    unfold losesPower at hc
    split at hc
    · exact absurd hq (hpor rest)
    · exact absurd hq (hrail _ rest)
    · cases hc

/-- Settles O8: likewise, and a loss of power leaves the load port with no engine. -/
theorem loadEngineInRange : Obligations.LoadEngineInRange := by
  intro s t hstep hload
  obtain ⟨-, hkeep⟩ | ⟨c, rest, u, -, -, rfl⟩ := step_within_or_powerLost hstep
  · exact hkeep hload
  · intro e bs h
    exact nomatch (State.powerLost_load u).symm.trans h

end Sys2Proof.Machine
end

section
/-! SUPPORT. Frames of the rule tables and of the scheduler's records: what the bed that takes over a position picks up lies beyond
the block window too, where the second bank of a banked register is kept. -/

set_option Elab.async false

namespace Sys2Proof.Machine

/-- Every island ON, and BED16 in TAKEOVER of position 0, which a port of bed 0 has a pending generation for; the second bank of
bed 0's rewrite programs holds a word that BED16's does not. -/
def takeover : State :=
  (((Tests.up Tests.start).wrf offSwapStatus 31 28 4).wrb (schedIdBase (.net 0 0) + shGen) 30 true).wr
    (offRewriteProgramW0 0 0 0 + bankSpan) 1

/-- The key of the same word of BED16. -/
def takeoverKey : Nat := offRewriteProgramW0 16 0 0 + bankSpan

theorem takeoverKey_outside : ¬ inBeds takeoverKey ∧ 0x600000 ≤ takeoverKey := by
  unfold inBeds
  decide +kernel

theorem takeover_rd : takeover.rd takeoverKey = 0 := by decide +kernel

theorem takeover_meshCommit_rd :
    (takeover.cfg (offMeshCtl 0) fun s => s.meshCtlWrite 0 (setBit 31 true 0)).rd takeoverKey = 1 := by decide +kernel

theorem takeover_handOver_rd : (takeover.handOver (.net 0 0)).rd takeoverKey = 1 := by decide +kernel

theorem takeover_lineOn : takeover.lineOn = true := by decide +kernel

/-- Refutes O19: the statement excludes the bed windows but not the second banks of their registers. In `takeover` a commit of bed
0's rules is written through to BED16, second bank and all (R452, R454). -/
theorem not_tableFrame : ¬ Obligations.TableFrame := by
  unfold Obligations.TableFrame
  intro h
  obtain ⟨hbeds, hhigh⟩ := takeoverKey_outside
  obtain ⟨-, hrd⟩ := h takeover _ (.meshCommit 0 0) rfl rfl
  have kept := hrd takeoverKey hbeds (.inr (by omega)) (.inr hhigh)
  exact absurd ((takeover_meshCommit_rd.symm.trans kept).trans takeover_rd) (by decide)

/-- Refutes O20: likewise, by a hand-over of a port of bed 0. -/
theorem not_schedFrame : ¬ Obligations.SchedFrame := by
  unfold Obligations.SchedFrame
  intro h
  obtain ⟨hbeds, hhigh⟩ := takeoverKey_outside
  have hexec : exec (.handover (.net 0 0)) takeover = .next (takeover.handOver (.net 0 0)) := by
    rw [exec_handover, execHandover, if_pos takeover_lineOn]
  obtain ⟨-, hrd⟩ := h takeover _ (.handover (.net 0 0)) rfl hexec
  have kept := hrd takeoverKey hbeds (.inr (by omega)) (.inr hhigh)
  exact absurd ((takeover_handOver_rd.symm.trans kept).trans takeover_rd) (by decide)

end Sys2Proof.Machine
end

section
/-! SUPPORT. Which registers an operation leaves as they are. One relation and its rules; then one lemma per operation that touches
no register at all. -/

set_option Elab.async false

namespace Sys2Proof.Machine

/-- Every register of which K holds reads in t as in s. -/
def Untouched (K : Nat → Prop) (s t : State) : Prop := ∀ x, K x → t.rd x = s.rd x

section
variable {K : Nat → Prop}

theorem Untouched.refl (s : State) : Untouched K s s := fun _ _ => rfl

theorem Untouched.trans {s t u : State} (h : Untouched K s t) (g : Untouched K t u) : Untouched K s u :=
  fun x hx => (g x hx).trans (h x hx)

/-- The same, with the later part first: what it works on is read from it. -/
theorem Untouched.after {s t u : State} (g : Untouched K t u) (h : Untouched K s t) : Untouched K s u := h.trans g

theorem Untouched.of_regs {s t : State} (h : t.regs = s.regs) : Untouched K s t := fun x _ => State.rd_of_regs h x

theorem Untouched.mono {J : Nat → Prop} {s t : State} (h : Untouched J s t) (hs : ∀ x, K x → J x) : Untouched K s t :=
  fun x hx => h x (hs x hx)

/-- What an earlier part of an operation leaves, used for the rest of it. -/
theorem Untouched.cut {s t v : State} (g : Untouched K s v → Untouched K s t) (h : Untouched K s v) : Untouched K s t := g h

theorem Untouched.ite {s t u : State} {c : Prop} [Decidable c] (h : Untouched K s t) (g : Untouched K s u) :
    Untouched K s (if c then t else u) := by
  split
  · exact h
  · exact g

theorem Untouched.matchP {α : Type} {s : State} {v : α × State} {b : α → State → State} (h : Untouched K s v.2)
    (g : ∀ a t, Untouched K s t → Untouched K s (b a t)) : Untouched K s (match v with | (a, t) => b a t) := g v.1 v.2 h

theorem Untouched.foldl {α : Type} {s t : State} {f : State → α → State} {l : List α} (h : Untouched K s t)
    (g : ∀ u a, Untouched K u (f u a)) : Untouched K s (l.foldl f t) := by
  induction l generalizing t with
  | nil => exact h
  | cons a l ih => exact ih (h.trans (g t a))

/-- The same where what is done with an element leaves the registers because the element is of the list. -/
theorem Untouched.foldlMem {α : Type} {s t : State} {f : State → α → State} {l : List α} (h : Untouched K s t)
    (g : ∀ u, ∀ a ∈ l, Untouched K u (f u a)) : Untouched K s (l.foldl f t) := by
  induction l generalizing t with
  | nil => exact h
  | cons a l ih =>
    exact ih (h.trans (g t a List.mem_cons_self)) fun u a ha => g u a (List.mem_cons_of_mem _ ha)

theorem Untouched.foldlP {α β : Type} {s : State} {t : β × State} {f : β × State → α → β × State} {l : List α}
    (h : Untouched K s t.2) (g : ∀ u a, Untouched K u.2 (f u a).2) : Untouched K s (l.foldl f t).2 := by
  induction l generalizing t with
  | nil => exact h
  | cons a l ih => exact ih (h.trans (g t a))

theorem Untouched.iteP {α : Type} {s : State} {t u : α × State} {c : Prop} [Decidable c] (h : Untouched K s t.2)
    (g : Untouched K s u.2) : Untouched K s (if c then t else u).2 := by
  split
  · exact h
  · exact g

theorem Untouched.matchPP {α β : Type} {s : State} {v : β × State} {b : β → State → α × State}
    (h : Untouched K s v.2) (g : ∀ a t, Untouched K s t → Untouched K s (b a t).2) :
    Untouched K s (match v with | (a, t) => b a t).2 := g v.1 v.2 h

/-! ## For a command's answer -/

/-- If the answer is a next state, it leaves the registers of which K holds. -/
def UntouchedO (K : Nat → Prop) (s : State) (o : Host.Outcome State Fault Refusal) : Prop := ∀ t, o = .next t → Untouched
  K s t

theorem UntouchedO.next {s t : State} (h : Untouched K s t) : UntouchedO K s (.next t) := fun _ e => by cases e; exact h

theorem UntouchedO.cut {s v : State} {o : Host.Outcome State Fault Refusal} (g : Untouched K s v → UntouchedO K s o)
    (h : Untouched K s v) : UntouchedO K s o := g h

theorem UntouchedO.ite {s : State} {o p : Host.Outcome State Fault Refusal} {c : Prop} [Decidable c]
    (h : UntouchedO K s o) (g : UntouchedO K s p) : UntouchedO K s (if c then o else p) := by
  split
  · exact h
  · exact g

theorem UntouchedO.trans {s t : State} {o : Host.Outcome State Fault Refusal} (h : Untouched K s t) (g : UntouchedO K t o) :
    UntouchedO K s o := fun u e => h.trans (g u e)

theorem UntouchedO.matchP {α : Type} {s : State} {v : α × State} {b : α → State → Host.Outcome State Fault Refusal}
    (h : Untouched K s v.2) (g : ∀ a t, Untouched K s t → UntouchedO K s (b a t)) :
    UntouchedO K s (match v with | (a, t) => b a t) := g v.1 v.2 h

/-! ## Operations on one register -/

theorem Untouched.wr {off : Nat} (h : ¬ K off) (s : State) (w : Word) : Untouched K s (s.wr off w) :=
  fun _ hx => State.rd_wr_ne s w fun e => h (e ▸ hx)

theorem Untouched.raiseEvt {evt : Nat} (h : ¬ K evt) (s : State) (i : Nat) : Untouched K s (s.raiseEvt evt i) :=
  fun _ hx => State.rd_raiseEvt_ne s i fun e => h (e ▸ hx)

theorem Untouched.setCnt {off : Nat} (h : ¬ K off) (h4 : ¬ K (off + 4)) (s : State) (n : Nat) :
    Untouched K s (s.setCnt off n) :=
  (Untouched.wr h s _).trans (.wr h4 _ _)

theorem Untouched.addCnt {off evt : Nat} (h : ¬ K off) (h4 : ¬ K (off + 4)) (he : ¬ K evt) (s : State) (n wrapBit : Nat) :
    Untouched K s (s.addCnt off n evt wrapBit) :=
  fun _ hx => State.rd_addCnt_ne s n wrapBit (fun e => h (e ▸ hx)) (fun e => h4 (e ▸ hx)) fun e => he (e ▸ hx)

/-! ## Operations that touch no register -/

theorem State.emit_untouched (s : State) (o) : Untouched K s (State.emit s o) := .of_regs rfl

theorem State.draw_untouched (s : State) : Untouched K s (State.draw s).2 := .of_regs rfl

theorem State.stopTimer_untouched (s : State) (t) : Untouched K s (State.stopTimer s t) := by
  unfold State.stopTimer
  exact Untouched.of_regs rfl

theorem State.startTimer_untouched (s : State) (t) (ns) : Untouched K s (State.startTimer s t ns) := by
  unfold State.startTimer
  exact Untouched.of_regs rfl

theorem State.shadowSet_untouched (s : State) (off) (v) : Untouched K s (State.shadowSet s off v) := by
  unfold State.shadowSet
  exact Untouched.of_regs rfl

theorem State.sendFate_untouched (s : State) (send) (fate) : Untouched K s (State.sendFate s send fate) := by
  unfold State.sendFate
  exact Untouched.of_regs rfl

theorem State.harmMod_untouched (s : State) (f) : Untouched K s (State.harmMod s f) := by
  unfold State.harmMod
  exact Untouched.of_regs rfl

theorem State.answer_untouched (s : State) (error) (data) : Untouched K s (State.answer s error data) := by
  unfold State.answer
  exact State.emit_untouched _ _

theorem State.macMod_untouched (s : State) (m) (f) : Untouched K s (State.macMod s m f) := by
  unfold State.macMod
  exact Untouched.of_regs rfl

theorem State.unsignal_untouched (s : State) (b) (p) : Untouched K s (State.unsignal s b p) := by
  unfold State.unsignal
  exact Untouched.foldl (State.macMod_untouched _ _ _) (fun _ _ => State.stopTimer_untouched _ _)

theorem State.portMod_untouched (s : State) (b) (p) (f) : Untouched K s (State.portMod s b p f) := by
  unfold State.portMod
  exact Untouched.of_regs rfl

theorem State.laneMod_untouched (s : State) (base) (f) : Untouched K s (State.laneMod s base f) := by
  unfold State.laneMod
  exact Untouched.of_regs rfl

theorem State.laneUntrain_untouched (s : State) (base) : Untouched K s (State.laneUntrain s base) := by
  unfold State.laneUntrain
  exact State.laneMod_untouched _ _ _

theorem State.onLanes_untouched (s : State) (b) (ls) (f) (hf : ∀ x y, Untouched K x (f x y)) : Untouched K s
    (State.onLanes s b ls f)
  := by
  unfold State.onLanes
  exact Untouched.foldl (Untouched.refl _) (fun _ _ => (by split; exact hf _ _; exact Untouched.refl _))

theorem State.gatesMod_untouched (s : State) (f) : Untouched K s (State.gatesMod s f) := by
  unfold State.gatesMod
  exact Untouched.of_regs rfl

theorem State.gateMod_untouched (s : State) (b) (p) (f) : Untouched K s (State.gateMod s b p f) := by
  unfold State.gateMod
  exact State.gatesMod_untouched _ _

theorem State.wireTake_untouched (s : State) (b) (p) (start) (bytes) : Untouched K s (State.wireTake s b p start bytes) := by
  unfold State.wireTake
  exact State.gateMod_untouched _ _ _ _

theorem State.wireControl_untouched (s : State) (b) (p) : Untouched K s (State.wireControl s b p) := by
  unfold State.wireControl
  exact State.wireTake_untouched _ _ _ _ _

theorem State.mmTimer_untouched (s : State) (b) (p) : Untouched K s (State.mmTimer s b p) := by
  unfold State.mmTimer
  exact State.startTimer_untouched _ _ _

theorem State.mgmtMod_untouched (s : State) (f) : Untouched K s (State.mgmtMod s f) := by
  unfold State.mgmtMod
  exact Untouched.of_regs rfl

theorem State.mgmtGiveUp_untouched (s : State) : Untouched K s (State.mgmtGiveUp s) := by
  unfold State.mgmtGiveUp
  exact (State.mgmtMod_untouched _ _).trans (State.stopTimer_untouched _ _)

theorem execMgmtBackoffEnd_untouched (s : State) : UntouchedO K s (execMgmtBackoffEnd s) := by
  unfold execMgmtBackoffEnd
  exact UntouchedO.ite (UntouchedO.next ((State.mgmtMod_untouched _ _).trans (State.stopTimer_untouched _ _)))
    (UntouchedO.next (Untouched.refl _))

theorem execMgmtDeferEnd_untouched (s : State) : UntouchedO K s (execMgmtDeferEnd s) := by
  unfold execMgmtDeferEnd
  exact UntouchedO.ite (UntouchedO.next ((State.mgmtMod_untouched _ _).trans (State.stopTimer_untouched _ _)))
    (UntouchedO.next (Untouched.refl _))

theorem State.timeMod_untouched (s : State) (f) : Untouched K s (State.timeMod s f) := by
  unfold State.timeMod
  exact Untouched.of_regs rfl

theorem State.tbMod_untouched (s : State) (k) (f) : Untouched K s (State.tbMod s k f) := by
  unfold State.tbMod
  exact State.timeMod_untouched _ _

theorem State.telMod_untouched (s : State) (f) : Untouched K s (State.telMod s f) := by
  unfold State.telMod
  exact Untouched.of_regs rfl

theorem State.telOpen_untouched (s : State) : Untouched K s (State.telOpen s) := by
  unfold State.telOpen
  exact Untouched.ite (Untouched.refl _) (Untouched.ite (Untouched.refl _) (State.telMod_untouched _ _))

theorem State.setFrame_untouched (s : State) (f) (x) : Untouched K s (State.setFrame s f x) := by
  unfold State.setFrame
  exact Untouched.of_regs rfl

theorem State.setCopy_untouched (s : State) (c) (x) : Untouched K s (State.setCopy s c x) := by
  unfold State.setCopy
  exact Untouched.of_regs rfl

theorem State.flowMod_untouched (s : State) (f) (g) : Untouched K s (State.flowMod s f g) := by
  unfold State.flowMod
  exact Untouched.of_regs rfl

theorem State.clodMod_untouched (s : State) (c) (g) : Untouched K s (State.clodMod s c g) := by
  unfold State.clodMod
  exact Untouched.of_regs rfl

theorem State.copyFate_untouched (s : State) (x) (fate) : Untouched K s (State.copyFate s x fate) := by
  unfold State.copyFate
  split
  · exact State.sendFate_untouched _ _ _
  · exact Untouched.refl _

theorem State.siltMod_untouched (s : State) (k) (f) : Untouched K s (State.siltMod s k f) := by
  unfold State.siltMod
  exact Untouched.of_regs rfl

theorem State.siltTimers_untouched (s : State) (k) : Untouched K s (State.siltTimers s k) := by
  unfold State.siltTimers
  exact Untouched.cut (fun h1 => Untouched.ite ((h1).trans (State.stopTimer_untouched _ _)) (Untouched.ite (h1)
    ((h1).trans (State.startTimer_untouched _ _ _)))) (Untouched.ite (State.stopTimer_untouched _ _) (Untouched.ite
    (Untouched.refl _) (State.startTimer_untouched _ _ _)))

theorem State.augMod_untouched (s : State) (c) (f) : Untouched K s (State.augMod s c f) := by
  unfold State.augMod
  exact Untouched.of_regs rfl

theorem State.secMod_untouched (s : State) (f) : Untouched K s (State.secMod s f) := by
  unfold State.secMod
  exact Untouched.of_regs rfl

theorem State.dbgMod_untouched (s : State) (port) (f) : Untouched K s (State.dbgMod s port f) := by
  unfold State.dbgMod
  exact State.secMod_untouched _ _

theorem State.assayMod_untouched (s : State) (f) : Untouched K s (State.assayMod s f) := by
  unfold State.assayMod
  exact Untouched.of_regs rfl

theorem State.assayResync_untouched (s : State) (u1) : Untouched K s (State.assayResync s u1) := by
  unfold State.assayResync
  exact State.assayMod_untouched _ _

theorem State.scanRead_untouched (s : State) (run) : Untouched K s (State.scanRead s run) := by
  unfold State.scanRead
  exact State.assayMod_untouched _ _

theorem State.scanTimer_untouched (s : State) : Untouched K s (State.scanTimer s) := by
  unfold State.scanTimer
  exact State.startTimer_untouched _ _ _

theorem State.signalFault_untouched (s : State) (b) (p) : Untouched K s (State.signalFault s b p) := by
  unfold State.signalFault
  exact Untouched.ite (Untouched.refl _) (State.emit_untouched _ _)

theorem execFaultHoldExpire_untouched (b) (p) (s : State) : UntouchedO K s (execFaultHoldExpire b p s) := by
  unfold execFaultHoldExpire
  exact UntouchedO.ite (UntouchedO.next ((State.stopTimer_untouched _ _).trans (State.portMod_untouched _ _ _ _)))
    (UntouchedO.next (Untouched.refl _))

theorem State.actMod_untouched (s : State) (a) (f) : Untouched K s (State.actMod s a f) := by
  unfold State.actMod
  exact State.timeMod_untouched _ _

theorem State.pulse_untouched (s : State) (line) : Untouched K s (State.pulse s line) := by
  unfold State.pulse
  exact Untouched.of_regs rfl

theorem State.ppsPulse_untouched (s : State) (j) : Untouched K s (State.ppsPulse s j) := by
  unfold State.ppsPulse
  exact Untouched.ite (Untouched.refl _) ((State.emit_untouched _ _).trans (State.startTimer_untouched _ _ _))

theorem execSlewEnd_untouched (k) (s : State) : UntouchedO K s (execSlewEnd k s) := by
  unfold execSlewEnd
  exact UntouchedO.ite (UntouchedO.next (State.tbMod_untouched _ _ _)) (UntouchedO.next (Untouched.refl _))

theorem execPpsOutEnd_untouched (j) (s : State) : UntouchedO K s (execPpsOutEnd j s) := by
  unfold execPpsOutEnd
  exact UntouchedO.ite (UntouchedO.next ((State.stopTimer_untouched _ _).trans (State.emit_untouched _ _)))
    (UntouchedO.next (Untouched.refl _))

theorem State.ringsMod_untouched (s : State) (f) : Untouched K s (State.ringsMod s f) := by
  unfold State.ringsMod
  exact Untouched.of_regs rfl

theorem State.ringMod_untouched (s : State) (k) (f) : Untouched K s (State.ringMod s k f) := by
  unfold State.ringMod
  exact State.ringsMod_untouched _ _

theorem State.readGo_untouched (s : State) (j) : Untouched K s (State.readGo s j) := by
  unfold State.readGo
  exact Untouched.ite (State.emit_untouched _ _) ((by split; exact State.emit_untouched _ _; exact Untouched.refl _))

theorem State.readAsk_untouched (s : State) (j) : Untouched K s (State.readAsk s j) := by
  unfold State.readAsk
  exact Untouched.ite (State.readGo_untouched _ _) (State.ringsMod_untouched _ _)

theorem State.readOver_untouched (s : State) (j) : Untouched K s (State.readOver s j) := by
  unfold State.readOver
  exact Untouched.cut (fun h1 => (by (try extract_lets); split; exact h1; exact Untouched.ite (((h1).trans (State.ringsMod_untouched _ _)).trans (State.readGo_untouched _ _)) (h1))) (State.ringsMod_untouched _ _)

theorem State.fetchDb_untouched (s : State) (k) (nudge) : Untouched K s (State.fetchDb s k nudge) := by
  unfold State.fetchDb
  exact Untouched.ite (Untouched.ite (State.ringMod_untouched _ _ _) (Untouched.refl _)) ((State.ringMod_untouched _ _
    _).trans (State.readAsk_untouched _ _))

theorem State.fetchOver_untouched (s : State) (k) : Untouched K s (State.fetchOver s k) := by
  unfold State.fetchOver
  exact (State.ringMod_untouched _ _ _).trans (State.readOver_untouched _ _)

theorem execDoorbellPoll_untouched (r) (s : State) : UntouchedO K s (execDoorbellPoll r s) := by
  unfold execDoorbellPoll
  exact UntouchedO.next (Untouched.ite ((State.ringsMod_untouched _ _).trans (State.fetchDb_untouched _ _ _))
    (Untouched.refl _))

theorem execTornRecordRefetch_untouched (r) (s : State) : UntouchedO K s (execTornRecordRefetch r s) := by
  unfold execTornRecordRefetch
  exact UntouchedO.next (Untouched.ite (Untouched.ite ((State.stopTimer_untouched _ _).trans (State.fetchDb_untouched _ _
    _)) (State.stopTimer_untouched _ _)) (Untouched.refl _))

theorem State.writeDescs_untouched (s : State) (k) (first) (ds) : Untouched K s (State.writeDescs s k first ds) := by
  unfold State.writeDescs
  exact Untouched.foldl (Untouched.refl _) (fun _ _ => State.emit_untouched _ _)

theorem State.augFetch_untouched (s : State) (c) (what) (addr) : Untouched K s (State.augFetch s c what addr) := by
  unfold State.augFetch
  exact (State.augMod_untouched _ _ _).trans (State.readAsk_untouched _ _)

theorem State.augGiveUp_untouched (s : State) (c) : Untouched K s (State.augGiveUp s c) := by
  unfold State.augGiveUp
  exact Untouched.ite ((State.augMod_untouched _ _ _).trans (State.readOver_untouched _ _)) (Untouched.refl _)

theorem State.augAhead_untouched (s : State) (c) : Untouched K s (State.augAhead s c) := by
  unfold State.augAhead
  extract_lets
  split
  · exact Untouched.ite (State.augFetch_untouched _ _ _ _) (Untouched.refl _)
  · exact Untouched.refl _

theorem State.siltLanes_untouched (s : State) (k) (m) (f) (hf : ∀ x y, Untouched K x (f x y)) : Untouched K s
    (State.siltLanes s k m
  f) := by
  unfold State.siltLanes
  exact Untouched.foldl (Untouched.refl _) (fun _ _ => Untouched.ite (hf _ _) (Untouched.refl _))

theorem State.tilthMod_untouched (s : State) (f) : Untouched K s (State.tilthMod s f) := by
  unfold State.tilthMod
  exact Untouched.of_regs rfl

theorem State.engMod_untouched (s : State) (e) (f) : Untouched K s (State.engMod s e f) := by
  unfold State.engMod
  exact State.tilthMod_untouched _ _

theorem State.roleMod_untouched (s : State) (r) (f) : Untouched K s (State.roleMod s r f) := by
  unfold State.roleMod
  exact State.tilthMod_untouched _ _

theorem execHarmWindowEnd_untouched (cls) (at_) (s : State) : UntouchedO K s (execHarmWindowEnd cls at_ s) := by
  unfold execHarmWindowEnd
  exact UntouchedO.next (Untouched.ite ((State.stopTimer_untouched _ _).trans (State.harmMod_untouched _ _))
    (Untouched.refl _))

theorem execHarmTake_untouched (s : State) : UntouchedO K s (execHarmTake s) := by
  unfold execHarmTake
  exact UntouchedO.next (State.harmMod_untouched _ _)

theorem State.dbgTokenWrite_untouched (s : State) (port) (v) : Untouched K s (State.dbgTokenWrite s port v) := by
  unfold State.dbgTokenWrite
  exact State.dbgMod_untouched _ _ _

theorem execChallengeExpire_untouched (port) (s : State) : UntouchedO K s (execChallengeExpire port s) := by
  unfold execChallengeExpire
  exact UntouchedO.next (Untouched.ite ((State.dbgMod_untouched _ _ _).trans (State.stopTimer_untouched _ _))
    (Untouched.refl _))

theorem execReturnArmExpire_untouched (s : State) : UntouchedO K s (execReturnArmExpire s) := by
  unfold execReturnArmExpire
  exact UntouchedO.next (State.stopTimer_untouched _ _)

end

end Sys2Proof.Machine
end

section
/-! SUPPORT. A configuration access to an offset that belongs to no marl region: it is written through to nothing. -/

set_option Elab.async false

namespace Sys2Proof.Machine

/-- An offset below the bed windows, outside the blocks that region 16 keeps. -/
def noRegion (off : Nat) : Prop := (off < 0x380000 ∨ 0x480000 ≤ off) ∧ off < 0x1000000 ∧ off ≠ offReplCmd

theorem State.regionOf_of_noRegion (s : State) {off : Nat} (h : noRegion off) : s.regionOf off = none := by
  obtain ⟨hlow, hbeds, hrepl⟩ := h
  have himage : blockImage off = false := by
    simp only [blockImage, Bool.or_eq_false_iff, Bool.and_eq_false_iff, decide_eq_false_iff_not]
    omega
  rw [State.regionOf, if_neg (by simp; omega), if_neg (by simp [himage, hrepl])]

theorem State.writeThrough_of_noRegion (s t : State) {off : Nat} (h : noRegion off) : s.writeThrough t off = t := by
  rw [State.writeThrough, s.regionOf_of_noRegion h]

/-- Such an access runs its operation and answers, or answers alone, or has no effect. -/
theorem State.cfg_cases (s : State) {off : Nat} (f : State → State) (h : noRegion off) :
    s.cfg off f = s ∨ (∃ e, s.cfg off f = s.answer e 0) ∨ s.cfg off f = (f s).answer false 0 := by
  unfold State.cfg
  rw [s.writeThrough_of_noRegion _ h]
  cases s.door off with
  | shut => exact .inl rfl
  | absent => exact .inr (.inl ⟨false, rfl⟩)
  | down => exact .inr (.inl ⟨true, rfl⟩)
  | through => exact .inr (.inr rfl)

theorem State.cfg_within_noRegion {ps : List Part} (s : State) {off : Nat} (f : State → State) (h : noRegion off)
    (hf : ∀ x, Within ps x (f x)) (ho : partSub [.outbox] ps = true := by rfl) : Within ps s (s.cfg off f) := by
  obtain e | ⟨error, e⟩ | e := s.cfg_cases f h
  · rw [e]
    exact .refl s
  · rw [e]
    exact (s.answer_within error 0).monoOf ho
  · rw [e]
    exact (hf s).trans ((State.answer_within _ _ _).monoOf ho)

theorem State.cfg_untouched {K : Nat → Prop} (s : State) {off : Nat} (f : State → State) (h : noRegion off)
    (hf : ∀ x, Untouched K x (f x)) : Untouched K s (s.cfg off f) := by
  obtain e | ⟨error, e⟩ | e := s.cfg_cases f h
  · rw [e]
    exact .refl s
  · rw [e]
    exact s.answer_untouched error 0
  · rw [e]
    exact (hf s).trans (State.answer_untouched _ _ _)

theorem partSub_nil (ps : List Part) : partSub [] ps = true := by simp [partSub, partBits]

/-- An access below the bed windows runs its operation and then at most counts the generation of region 16. -/
theorem State.cfg_cases_line (s : State) {off : Nat} (f : State → State) (h : off < 0x1000000) :
    s.cfg off f = s ∨ (∃ e, s.cfg off f = s.answer e 0) ∨ s.cfg off f = (f s).answer false 0 ∨
      s.cfg off f = ((f s).marlBump 16).answer false 0 := by
  unfold State.cfg
  cases s.door off with
  | shut => exact .inl rfl
  | absent => exact .inr (.inl ⟨false, rfl⟩)
  | down => exact .inr (.inl ⟨true, rfl⟩)
  | through =>
    obtain e | e := State.writeThrough_line s (f s) (.inl h)
    · exact .inr (.inr (.inl (by simp only [e])))
    · exact .inr (.inr (.inr (by simp only [e])))

theorem State.cfg_within_line {ps : List Part} (s : State) {off : Nat} (f : State → State) (h : off < 0x1000000)
    (hf : ∀ x, Within ps x (f x)) (ho : partSub [.outbox] ps = true := by rfl) : Within ps s (s.cfg off f) := by
  obtain e | ⟨error, e⟩ | e | e := s.cfg_cases_line f h
  · rw [e]
    exact .refl s
  · rw [e]
    exact (s.answer_within error 0).monoOf ho
  · rw [e]
    exact (hf s).trans ((State.answer_within _ _ _).monoOf ho)
  · rw [e]
    exact ((hf s).trans ((State.marlBump_within _ _).mono (partSub_nil ps))).trans ((State.answer_within _ _ _).monoOf ho)

theorem State.cfg_untouched_line {K : Nat → Prop} (s : State) {off : Nat} (f : State → State) (h : off < 0x1000000)
    (hgen : ¬ K (offMarlGen 16)) (hf : ∀ x, Untouched K x (f x)) : Untouched K s (s.cfg off f) := by
  obtain e | ⟨error, e⟩ | e | e := s.cfg_cases_line f h
  · rw [e]
    exact .refl s
  · rw [e]
    exact s.answer_untouched error 0
  · rw [e]
    exact (hf s).trans (State.answer_untouched _ _ _)
  · rw [e]
    exact ((hf s).trans (.wr hgen _ _)).trans (State.answer_untouched _ _ _)

/-- A command's answer is within some parts and leaves some registers: the two halves of a frame. -/
theorem frame_of {ps : List Part} {K : Nat → Prop} {s t : State} {o : Host.Outcome State Fault Refusal} (hw : WithinO ps s o)
    (hu : UntouchedO K s o) (ht : o = .next t) : s.sameBut t ps ∧ ∀ x, K x → t.rd x = s.rd x :=
  ⟨(hw t ht).same, hu t ht⟩

end Sys2Proof.Machine
end

section
/-! SUPPORT. What commands on the host rings leave of the register file: one lemma per operation. -/

set_option Elab.async false

namespace Sys2Proof.Machine

/-- Outside the host port's block and the doorbell page. -/
def ringKept (x : Nat) : Prop := x < 0x200000 ∨ 0x300000 ≤ x

theorem ringKey_lt (r : RingId) : ringKey r < 1536 := by
  cases r <;> simp only [ringKey] <;> omega

/-- The registers of a ring lie in the host port's block. -/
theorem ringBase_window {k : Nat} (hk : k < 1536) : 0x200000 ≤ ringBase k ∧ ringBase k < 0x220000 := by
  unfold ringBase offTxBase offRxBase offVecBase
  split
  · omega
  · split <;> omega


/-- A register that these commands may change. Its proof is by its place in the map. -/
structure RingOff (off : Nat) : Prop where
  out : ¬ ringKept off := by
    simp only [ringKept, offRingCnt, offRingCtl, offRingEvt, offRingLast, offRingWait, offVecCtl, offVecStatus, rgCons,
      rgCtl,
    rgDrop, rgNext, rgParam, rgSeen, rgStatus] at *
    omega

theorem State.wr_ring (s : State) (off w) (h : ¬ ringKept off := by exact RingOff.out {}) :
    Untouched ringKept s (s.wr off w) := .wr h s w

theorem State.wrf_ring (s : State) (off hi lo n) (h : ¬ ringKept off := by exact RingOff.out {}) :
    Untouched ringKept s (s.wrf off hi lo n) := .wr h s _

theorem State.wrb_ring (s : State) (off i v) (h : ¬ ringKept off := by exact RingOff.out {}) :
    Untouched ringKept s (s.wrb off i v) := .wr h s _

theorem State.raiseEvt_ring (s : State) (evt i) (he : ¬ ringKept evt := by exact RingOff.out {}) :
    Untouched ringKept s (s.raiseEvt evt i) := .raiseEvt he s i

theorem State.setCnt_ring (s : State) (off n) (h : ¬ ringKept off := by exact RingOff.out {}) (h4 : ¬ ringKept (off + 4)
    := by exact RingOff.out {}) :
    Untouched ringKept s (s.setCnt off n) := .setCnt h h4 s n

theorem State.addCnt_ring (s : State) (off n evt wrapBit) (h : ¬ ringKept off := by exact RingOff.out {})
    (h4 : ¬ ringKept (off + 4) := by exact RingOff.out {}) (he : ¬ ringKept evt := by exact RingOff.out {}) :
    Untouched ringKept s (s.addCnt off n evt wrapBit) := .addCnt h h4 he s n wrapBit

theorem State.inc_ring (s : State) (off evt wrapBit) (h : ¬ ringKept off := by exact RingOff.out {})
    (h4 : ¬ ringKept (off + 4) := by exact RingOff.out {}) (he : ¬ ringKept evt := by exact RingOff.out {}) :
    Untouched ringKept s (s.inc off evt wrapBit) := .addCnt h h4 he s 1 wrapBit

theorem State.wrs_ring (s : State) (off) (ws : List Word)
    (h : 0x200000 ≤ off ∧ off + 4 * ws.length ≤ 0x300000 := by simp only [rgSeen, List.length]; omega) :
    Untouched ringKept s (s.wrs off ws) := by
  induction ws generalizing s off with
  | nil => exact Untouched.refl _
  | cons w ws ih =>
    rw [List.length_cons] at h
    exact (State.wr_ring _ _ _).trans (ih _ _ (by omega))

theorem State.cfg_ring (s : State) (off f) (hf : ∀ x, Untouched ringKept x (f x))
    (h : ¬ ringKept off := by exact RingOff.out {}) : Untouched ringKept s (s.cfg off f) :=
  State.cfg_untouched s f (by simp only [ringKept, noRegion, offReplCmd] at *; omega) hf

theorem State.ringCnt_ring (s : State) (i) (hi : i < 16 := by omega) : Untouched ringKept s (State.ringCnt s i) := by
  unfold State.ringCnt
  exact State.inc_ring _ _ _ _

theorem State.ringEvent_ring (s : State) (k) (i) : Untouched ringKept s (State.ringEvent s k i) := by
  unfold State.ringEvent
  exact (State.wr_ring _ _ _).trans (State.raiseEvt_ring _ _ _)

theorem State.ringDrop_ring (s : State) (k) (i) (hk : k < 1536 := by omega) (hi : i < 16 := by omega) : Untouched
    ringKept s (State.ringDrop s k i) := by
  unfold State.ringDrop
  have hbase := ringBase_window hk
  exact (State.ringCnt_ring _ _).trans (State.inc_ring _ _ _ _)

theorem State.nudgeBad_ring (s : State) (v) : Untouched ringKept s (State.nudgeBad s v) := by
  unfold State.nudgeBad
  exact Untouched.cut (fun h1 => Untouched.ite ((h1).trans (State.raiseEvt_ring _ _ _)) ((h1).trans (State.ringEvent_ring
    _ _ _))) (State.ringCnt_ring _ _)

theorem State.nudge_ring (s : State) (v) : Untouched ringKept s (State.nudge s v) := by
  unfold State.nudge
  split
  · exact Untouched.ite (State.fetchDb_untouched _ _ _) (State.nudgeBad_ring _ _)
  · exact State.nudgeBad_ring _ _

theorem execNudge_ring (v) (s : State) : UntouchedO ringKept s (execNudge v s) := by
  unfold execNudge
  exact UntouchedO.next (State.cfg_ring _ _ _ (fun _ => State.nudge_ring _ _))

theorem State.tsWaiting_ring (s : State) (k) (hk : k < 1536 := by omega) : Untouched ringKept s (State.tsWaiting s k) := by
  unfold State.tsWaiting
  have hbase := ringBase_window hk
  exact Untouched.ite (State.wrb_ring _ _ _ _) (Untouched.refl _)

theorem State.dropWork_ring (s : State) (k) (hk : k < 1536 := by omega) : Untouched ringKept s (State.dropWork s k) := by
  unfold State.dropWork
  have hbase := ringBase_window hk
  exact Untouched.cut (fun h1 => Untouched.cut (fun h2 => ((h2).trans (State.ringMod_untouched _ _ _)).trans
    (State.fetchOver_untouched _ _)) ((h1).trans (Untouched.of_regs rfl))) (Untouched.foldl (Untouched.refl _) (fun _ _
    => State.ringDrop_ring _ _ _))

theorem State.ringFault_ring (s : State) (k) (cause) (hk : k < 1536 := by omega) : Untouched ringKept s (State.ringFault
    s k cause) := by
  unfold State.ringFault
  have hbase := ringBase_window hk
  exact Untouched.ite (Untouched.refl _) (Untouched.cut (fun h1 => ((h1).trans (State.wr_ring _ _ _)).trans
    (State.ringEvent_ring _ _ _)) (State.dropWork_ring _ _))

theorem State.ringReset_ring (s : State) (k) (hk : k < 1536 := by omega) : Untouched ringKept s (State.ringReset s k) := by
  unfold State.ringReset
  have hbase := ringBase_window hk
  exact Untouched.cut (fun h1 => Untouched.cut (fun h2 => (h2).trans (State.ringMod_untouched _ _ _)) ((h1).trans
    (State.wrs_ring _ _ _))) ((State.dropWork_ring _ _).trans (State.wrb_ring _ _ _ _))

theorem State.ringStart_ring (s : State) (k) (hk : k < 1536 := by omega) : Untouched ringKept s (State.ringStart s k) := by
  unfold State.ringStart
  have hbase := ringBase_window hk
  exact Untouched.cut (fun h1 => Untouched.cut (fun h2 => (h2).trans (State.fetchDb_untouched _ _ _)) (((h1).trans
    (State.fetchOver_untouched _ _)).trans (State.ringMod_untouched _ _ _))) (State.wrs_ring _ _ _)

theorem State.ringDrain_ring (s : State) (k) (hk : k < 1536 := by omega) : Untouched ringKept s (State.ringDrain s k) := by
  unfold State.ringDrain
  have hbase := ringBase_window hk
  exact Untouched.cut (fun h1 => Untouched.cut (fun h2 => ((h2).trans (State.ringMod_untouched _ _ _)).trans
    (State.wrf_ring _ _ _ _ _)) (Untouched.ite (h1) ((h1).trans (State.stopTimer_untouched _ _)))) (Untouched.foldl
    (Untouched.refl _) (fun _ _ => (State.ringDrop_ring _ _ _).trans (State.ringEvent_ring _ _ _)))

theorem State.setArmed_ring (s : State) (v) (on) (hv : v < 512 := by omega) : Untouched ringKept s (State.setArmed s v
    on) := by
  unfold State.setArmed
  exact (State.wrb_ring _ _ _ _).trans (State.wrb_ring _ _ _ _)

theorem State.ringCtlWrite_ring (s : State) (k) (v) (hk : k < 1536 := by omega) : Untouched ringKept s
    (State.ringCtlWrite s k v) := by
  unfold State.ringCtlWrite
  have hbase := ringBase_window hk
  exact Untouched.cut (fun h1 => Untouched.cut (fun h2 => Untouched.ite ((h2).trans (State.ringReset_ring _ _))
    (Untouched.ite ((h2).trans (State.ringStart_ring _ _)) (Untouched.ite ((h2).trans (State.ringDrain_ring _ _)) (h2))))
    (Untouched.ite ((h1).trans (State.setArmed_ring _ _ _)) (h1))) (Untouched.ite (State.wr_ring _ _ _) (State.wr_ring _
    _ _))

theorem execRingEnable_ring (r) (v) (s : State) : UntouchedO ringKept s (execRingEnable r v s) := by
  unfold execRingEnable
  have hk := ringKey_lt r
  have hbase := ringBase_window (k := ringKey r) (by omega)
  exact UntouchedO.next (State.cfg_ring _ _ _ (fun _ => State.ringCtlWrite_ring _ _ _))

theorem execRingDisable_ring (r) (v) (s : State) : UntouchedO ringKept s (execRingDisable r v s) := by
  unfold execRingDisable
  have hk := ringKey_lt r
  have hbase := ringBase_window (k := ringKey r) (by omega)
  exact UntouchedO.next (State.cfg_ring _ _ _ (fun _ => State.ringCtlWrite_ring _ _ _))

theorem execRingReset_ring (r) (v) (s : State) : UntouchedO ringKept s (execRingReset r v s) := by
  unfold execRingReset
  have hk := ringKey_lt r
  have hbase := ringBase_window (k := ringKey r) (by omega)
  exact UntouchedO.next (State.cfg_ring _ _ _ (fun _ => State.ringCtlWrite_ring _ _ _))

theorem execRingDrained_ring (r) (s : State) : UntouchedO ringKept s (execRingDrained r s) := by
  unfold execRingDrained
  have hk := ringKey_lt r
  have hbase := ringBase_window (k := ringKey r) (by omega)
  exact UntouchedO.next (Untouched.ite ((State.ringMod_untouched _ _ _).trans (State.wrf_ring _ _ _ _ _)) (Untouched.refl _))

theorem execHostReadTimeout_ring (r) (s : State) : UntouchedO ringKept s (execHostReadTimeout r s) := by
  unfold execHostReadTimeout
  have hk := ringKey_lt r
  have hbase := ringBase_window (k := ringKey r) (by omega)
  exact UntouchedO.next (Untouched.ite (State.ringFault_ring _ _ _) (Untouched.refl _))

theorem execHostErrorResponse_ring (r) (write) (s : State) : UntouchedO ringKept s (execHostErrorResponse r write s) := by
  unfold execHostErrorResponse
  have hk := ringKey_lt r
  have hbase := ringBase_window (k := ringKey r) (by omega)
  exact UntouchedO.next (Untouched.ite (State.ringFault_ring _ _ _) (Untouched.refl _))

theorem State.rxEmpty_ring (s : State) (k) (hk : k < 1536 := by omega) : Untouched ringKept s (State.rxEmpty s k) := by
  unfold State.rxEmpty
  have hbase := ringBase_window hk
  exact ((State.ringDrop_ring _ _ _).trans (State.ringEvent_ring _ _ _)).trans (State.wrb_ring _ _ _ _)

theorem State.rxFallShort_ring (s : State) (k) (f) (behind) (hk : k < 1536 := by omega) : Untouched ringKept s
    (State.rxFallShort s k f behind).2 := by
  unfold State.rxFallShort
  have hbase := ringBase_window hk
  exact Untouched.iteP (State.rxEmpty_ring _ _) (((State.ringMod_untouched _ _ _).trans (State.startTimer_untouched _ _
    _)).trans (State.fetchDb_untouched _ _ _))

theorem State.rxReserve_ring {s t : State} {k : Nat} {f : HostFrame} (h : s.rxReserve k f = some t) (hk : k < 1536 := by
    omega) : Untouched ringKept s t := by
  unfold State.rxReserve at h
  have hbase := ringBase_window hk
  dsimp only at h
  split at h
  · cases h
    exact (State.ringMod_untouched _ _ _).trans (State.wr_ring _ _ _)
  · cases h

theorem State.rxServe_ring (s : State) (k) (u2) (hk : k < 1536 := by omega) : Untouched ringKept s (State.rxServe s k u2)
    := by
  have hbase := ringBase_window hk
  induction u2 generalizing s with
  | nil => exact State.ringMod_untouched _ _ _
  | cons f fs ih =>
    unfold State.rxServe
    split
    · rename_i e
      exact (State.rxReserve_ring e).trans (ih _)
    · have h := State.rxFallShort_ring s k f fs
      split <;> rename_i e <;> rw [e] at h
      · exact h
      · exact h.trans (ih _)

theorem State.rxRetry_ring (s : State) (k) (hk : k < 1536 := by omega) : Untouched ringKept s (State.rxRetry s k) := by
  unfold State.rxRetry
  have hbase := ringBase_window hk
  split
  · exact Untouched.refl _
  · split
    · rename_i e
      exact ((State.rxReserve_ring e).trans (State.stopTimer_untouched _ _)).trans (State.rxServe_ring _ _ _)
    · exact Untouched.refl _

theorem execRxShortWaitExpire_ring (r) (s : State) : UntouchedO ringKept s (execRxShortWaitExpire r s) := by
  unfold execRxShortWaitExpire
  extract_lets
  split
  · exact UntouchedO.next (Untouched.refl _)
  · exact UntouchedO.next (Untouched.ite (((State.stopTimer_untouched _ _).trans (State.rxEmpty_ring _ _)).trans
      (State.rxServe_ring _ _ _)) (Untouched.refl _))

theorem State.dbAccept_ring (s : State) (k) (count) (arm) (hk : k < 1536 := by omega) : Untouched ringKept s
    (State.dbAccept s k count arm) := by
  unfold State.dbAccept
  have hbase := ringBase_window hk
  exact Untouched.cut (fun h1 => Untouched.ite (Untouched.ite ((h1).trans (State.setArmed_ring _ _ _)) (h1))
    (Untouched.ite ((Untouched.ite ((h1).trans (State.wrb_ring _ _ _ _)) (h1)).trans (State.rxRetry_ring _ _)) (h1)))
    (State.wr_ring _ _ _)

theorem State.dbJudge_ring (s : State) (k) (w) (hk : k < 1536 := by omega) : Untouched ringKept s (State.dbJudge s k w) := by
  unfold State.dbJudge
  have hbase := ringBase_window hk
  exact Untouched.ite (((State.ringCnt_ring _ _).trans (State.ringEvent_ring _ _ _)).trans (State.startTimer_untouched _
    _ _)) (Untouched.ite (Untouched.refl _) (Untouched.ite (State.ringFault_ring _ _ _) (State.dbAccept_ring _ _ _ _)))

theorem execDoorbellRecordArrive_ring (r) (words) (s : State) : UntouchedO ringKept s (execDoorbellRecordArrive r words
    s) := by
  unfold execDoorbellRecordArrive
  have hk := ringKey_lt r
  have hbase := ringBase_window (k := ringKey r) (by omega)
  exact UntouchedO.ite (UntouchedO.next (Untouched.refl _)) (UntouchedO.cut (fun h1 => UntouchedO.cut (fun h2 =>
    UntouchedO.next (Untouched.ite ((h2).trans (State.fetchDb_untouched _ _ _)) (h2))) (Untouched.ite ((h1).trans
    (State.dbJudge_ring _ _ _)) (h1))) (State.fetchOver_untouched _ _))

theorem State.setPending_ring (s : State) (v) (hv : v < 512 := by omega) : Untouched ringKept s (State.setPending s v) := by
  unfold State.setPending
  exact State.wrb_ring _ _ _ _

theorem State.ringIrq_ring (s : State) (k) (hk : k < 1536 := by omega) : Untouched ringKept s (State.ringIrq s k) := by
  unfold State.ringIrq
  have hv : s.rdf (rgCtl k) 23 16 < 256 := fld_lt _ _ _
  exact Untouched.ite (State.setPending_ring _ _) (Untouched.refl _)

theorem execVectorArmWrite_ring (v) (w) (s : State) : UntouchedO ringKept s (execVectorArmWrite v w s) := by
  unfold execVectorArmWrite
  exact UntouchedO.next (State.cfg_ring _ _ _ (fun _ => State.ringCtlWrite_ring _ _ _))

theorem execVectorMessage_ring (v) (s : State) : UntouchedO ringKept s (execVectorMessage v s) := by
  unfold execVectorMessage
  exact UntouchedO.ite (UntouchedO.cut (fun h1 => UntouchedO.cut (fun h2 => UntouchedO.next ((h2).trans
    (State.ringMod_untouched _ _ _))) (Untouched.ite (h1) ((h1).trans (State.setArmed_ring _ _ _))))
    (((State.emit_untouched _ _).trans (State.ringCnt_ring _ _)).trans (State.wrb_ring _ _ _ _))) (UntouchedO.next
    (Untouched.refl _))

theorem State.closeRun_ring (s : State) (k) (first) (run) (cut) (hk : k < 1536 := by omega) : Untouched ringKept s
    (State.closeRun s k first run cut) := by
  unfold State.closeRun
  have hbase := ringBase_window hk
  exact Untouched.cut (fun h1 => (h1).trans (State.ringMod_untouched _ _ _)) (Untouched.ite (Untouched.refl _)
    (Untouched.ite (State.ringDrop_ring _ _ _) ((State.ringDrop_ring _ _ _).trans (State.ringEvent_ring _ _ _))))

theorem State.takeDesc_ring (s : State) (k) (count) (e) (hk : k < 1536 := by omega) : Untouched ringKept s
    (State.takeDesc s k count e) := by
  unfold State.takeDesc
  have hbase := ringBase_window hk
  exact Untouched.cut (fun h1 => Untouched.cut (fun h2 => Untouched.ite ((h2).trans (State.closeRun_ring _ _ _ _ _))
    (h2)) ((h1).trans (State.ringMod_untouched _ _ _))) (Untouched.ite (State.closeRun_ring _ _ _ _ _) (Untouched.refl _))

theorem execTxDescArrive_ring (t) (descs) (s : State) : UntouchedO ringKept s (execTxDescArrive t descs s) := by
  unfold execTxDescArrive
  have hbase := ringBase_window (k := t) (by omega)
  exact UntouchedO.ite (UntouchedO.next (Untouched.refl _)) (UntouchedO.next (Untouched.foldl (Untouched.refl _) (fun _ _
    => (State.takeDesc_ring _ _ _ _).trans (State.wr_ring _ _ _))))

theorem State.reportSend_ring (s : State) (k) (id) (report) (hk : k < 1536 := by omega) : Untouched ringKept s
    (State.reportSend s k id report) := by
  unfold State.reportSend
  have hbase := ringBase_window hk
  exact ((State.ringMod_untouched _ _ _).trans (State.stopTimer_untouched _ _)).trans (State.tsWaiting_ring _ _)

theorem execTsWaitExpire_ring (t) (s : State) : UntouchedO ringKept s (execTsWaitExpire t s) := by
  unfold execTsWaitExpire
  have hbase := ringBase_window (k := t) (by omega)
  extract_lets
  split
  · exact UntouchedO.next (Untouched.ite ((State.ringCnt_ring _ _).trans (State.reportSend_ring _ _ _ _)) (Untouched.refl _))
  · exact UntouchedO.next (Untouched.refl _)

theorem State.passSends_ring (s : State) (k) (hk : k < 1536 := by omega) : Untouched ringKept s (State.passSends s k) := by
  unfold State.passSends
  have hbase := ringBase_window hk
  exact (State.ringMod_untouched _ _ _).trans (State.wr_ring _ _ _)

theorem execTxWriteback_ring (t) (s : State) : UntouchedO ringKept s (execTxWriteback t s) := by
  unfold execTxWriteback
  have hbase := ringBase_window (k := t) (by omega)
  extract_lets
  split
  · exact UntouchedO.next (Untouched.refl _)
  · exact UntouchedO.cut (fun h1 => UntouchedO.cut (fun h2 => UntouchedO.next (((h2).trans (State.ringIrq_ring _
      _)).trans (State.passSends_ring _ _))) (((h1).trans (State.ringCnt_ring _ _)).trans (State.ringMod_untouched _ _
      _))) (State.writeDescs_untouched _ _ _ _)

theorem execRxWriteback_ring (r) (addrs) (s : State) : UntouchedO ringKept s (execRxWriteback r addrs s) := by
  unfold execRxWriteback
  have hbase := ringBase_window (k := 512 + r) (by omega)
  dsimp only
  split
  · exact UntouchedO.next (Untouched.refl _)
  · exact UntouchedO.cut (fun h1 => UntouchedO.cut (fun h2 => UntouchedO.cut (fun h3 => UntouchedO.next (((h3).trans
      (State.ringCnt_ring _ _)).trans (State.ringIrq_ring _ _))) (((h2).trans (State.ringMod_untouched _ _ _)).trans
      (State.wr_ring _ _ _))) ((h1).trans (State.writeDescs_untouched _ _ _ _))) (Untouched.foldl (Untouched.refl _) (fun
      _ _ => State.emit_untouched _ _))

theorem State.cfg_within_ring {ps : List Part} (s : State) (off f) (hf : ∀ x, Within ps x (f x))
    (h : ¬ ringKept off := by exact RingOff.out {}) (ho : partSub [.outbox] ps = true := by rfl) : Within ps s (s.cfg off
      f) :=
  State.cfg_within_noRegion s f (by simp only [ringKept, noRegion, offReplCmd] at *; omega) hf ho

/-- Settles O22: by the commands, each with the parts it is within and the registers it leaves. -/
theorem ringFrame : Obligations.RingFrame := by
  intro s t c hc ht
  cases c
  case nudge =>
    exact frame_of (.next (State.cfg_within_ring s _ _ fun _ => (State.nudge_within _ _).mono)) (execNudge_ring _ s) ht
  case doorbellPoll =>
    exact frame_of ((execDoorbellPoll_within _ s).mono) (execDoorbellPoll_untouched _ s) ht
  case doorbellRecordArrive =>
    exact frame_of ((execDoorbellRecordArrive_within _ _ s).mono) (execDoorbellRecordArrive_ring _ _ s) ht
  case hostReadTimeout =>
    exact frame_of ((execHostReadTimeout_within _ s).mono) (execHostReadTimeout_ring _ s) ht
  case hostErrorResponse =>
    exact frame_of ((execHostErrorResponse_within _ _ s).mono) (execHostErrorResponse_ring _ _ s) ht
  case ringEnable =>
    have hk := ringKey_lt ‹RingId›
    have hbase := ringBase_window (k := ringKey ‹RingId›) (by omega)
    exact frame_of (.next (State.cfg_within_ring s _ _ fun _ => (State.ringCtlWrite_within _ _ _).mono))
      (execRingEnable_ring _ _ s) ht
  case ringDisable =>
    have hk := ringKey_lt ‹RingId›
    have hbase := ringBase_window (k := ringKey ‹RingId›) (by omega)
    exact frame_of (.next (State.cfg_within_ring s _ _ fun _ => (State.ringCtlWrite_within _ _ _).mono))
      (execRingDisable_ring _ _ s) ht
  case ringReset =>
    have hk := ringKey_lt ‹RingId›
    have hbase := ringBase_window (k := ringKey ‹RingId›) (by omega)
    exact frame_of (.next (State.cfg_within_ring s _ _ fun _ => (State.ringCtlWrite_within _ _ _).mono))
      (execRingReset_ring _ _ s) ht
  case ringDrained =>
    exact frame_of ((execRingDrained_within _ s).mono) (execRingDrained_ring _ s) ht
  case txDescArrive =>
    exact frame_of ((execTxDescArrive_within _ _ s).mono) (execTxDescArrive_ring _ _ s) ht
  case txWriteback =>
    exact frame_of ((execTxWriteback_within _ s).mono) (execTxWriteback_ring _ s) ht
  case tsWaitExpire =>
    exact frame_of ((execTsWaitExpire_within _ s).mono) (execTsWaitExpire_ring _ s) ht
  case rxShortWaitExpire =>
    exact frame_of ((execRxShortWaitExpire_within _ s).mono) (execRxShortWaitExpire_ring _ s) ht
  case rxWriteback =>
    exact frame_of ((execRxWriteback_within _ _ s).mono) (execRxWriteback_ring _ _ s) ht
  case vectorArmWrite =>
    exact frame_of (.next (State.cfg_within_ring s _ _ fun _ => (State.ringCtlWrite_within _ _ _).mono))
      (execVectorArmWrite_ring _ _ s) ht
  case vectorMessage =>
    exact frame_of ((execVectorMessage_within _ s).mono) (execVectorMessage_ring _ s) ht
  case tornRecordRefetch =>
    exact frame_of ((execTornRecordRefetch_within _ s).mono) (execTornRecordRefetch_untouched _ s) ht
  all_goals cases hc

end Sys2Proof.Machine
end

section
/-! SUPPORT. What commands on the Auger channels leave of the register file: one lemma per operation. -/

set_option Elab.async false

namespace Sys2Proof.Machine

/-- Outside the Auger block. -/
def augerKept (x : Nat) : Prop := x < 0x300000 ∨ 0x380000 ≤ x

/-- A register that these commands may change. Its proof is by its place in the map. -/
structure AugerOff (off : Nat) : Prop where
  out : ¬ augerKept off := by
    simp only [augerKept, offAugEvt, offChCtl, offChCur, offChDoorbell, offChHeadLo, offChPos, offChState, offCntAugFault,
    offImportBaseLo] at *
    omega

theorem State.wr_auger (s : State) (off w) (h : ¬ augerKept off := by exact AugerOff.out {}) :
    Untouched augerKept s (s.wr off w) := .wr h s w

theorem State.wrf_auger (s : State) (off hi lo n) (h : ¬ augerKept off := by exact AugerOff.out {}) :
    Untouched augerKept s (s.wrf off hi lo n) := .wr h s _

theorem State.wrb_auger (s : State) (off i v) (h : ¬ augerKept off := by exact AugerOff.out {}) :
    Untouched augerKept s (s.wrb off i v) := .wr h s _

theorem State.wr2_auger (s : State) (off n) (h : ¬ augerKept off := by exact AugerOff.out {}) (h4 : ¬ augerKept (off + 4)
    := by exact AugerOff.out {}) :
    Untouched augerKept s (s.wr2 off n) := .trans (.wr h _ _) (.wr h4 _ _)

theorem State.raiseEvt_auger (s : State) (evt i) (he : ¬ augerKept evt := by exact AugerOff.out {}) :
    Untouched augerKept s (s.raiseEvt evt i) := .raiseEvt he s i

theorem State.setCnt_auger (s : State) (off n) (h : ¬ augerKept off := by exact AugerOff.out {}) (h4 : ¬ augerKept (off +
    4) := by exact AugerOff.out {}) :
    Untouched augerKept s (s.setCnt off n) := .setCnt h h4 s n

theorem State.addCnt_auger (s : State) (off n evt wrapBit) (h : ¬ augerKept off := by exact AugerOff.out {})
    (h4 : ¬ augerKept (off + 4) := by exact AugerOff.out {}) (he : ¬ augerKept evt := by exact AugerOff.out {}) :
    Untouched augerKept s (s.addCnt off n evt wrapBit) := .addCnt h h4 he s n wrapBit

theorem State.inc_auger (s : State) (off evt wrapBit) (h : ¬ augerKept off := by exact AugerOff.out {})
    (h4 : ¬ augerKept (off + 4) := by exact AugerOff.out {}) (he : ¬ augerKept evt := by exact AugerOff.out {}) :
    Untouched augerKept s (s.inc off evt wrapBit) := .addCnt h h4 he s 1 wrapBit

theorem State.cfg_auger (s : State) (off f) (hf : ∀ x, Untouched augerKept x (f x))
    (h : ¬ augerKept off := by exact AugerOff.out {}) : Untouched augerKept s (s.cfg off f) :=
  State.cfg_untouched s f (by simp only [augerKept, noRegion, offReplCmd] at *; omega) hf

theorem State.cfg_within_auger {ps : List Part} (s : State) (off f) (hf : ∀ x, Within ps x (f x))
    (h : ¬ augerKept off := by exact AugerOff.out {}) (ho : partSub [.outbox] ps = true := by rfl) : Within ps s (s.cfg
      off f) :=
  State.cfg_within_noRegion s f (by simp only [augerKept, noRegion, offReplCmd] at *; omega) hf ho

theorem State.augGo_auger (s : State) (c) (st) (hc : c < 32 := by omega) : Untouched augerKept s (State.augGo s c st) := by
  unfold State.augGo
  exact State.wrf_auger _ _ _ _ _

theorem State.augFaulted_auger (s : State) (c cause) (hc : c < 32 := by omega) :
    Untouched augerKept s (State.augFaulted s c cause) := by
  unfold State.augFaulted
  extract_lets t src u
  have ht : Untouched augerKept s t := State.augMod_untouched s c _
  have hu : Untouched augerKept s u := ht.trans (.of_regs rfl)
  exact (((hu.trans (State.augGo_auger _ _ _)).trans (State.wrf_auger _ _ _ _ _)).trans (State.inc_auger _ _ _ _)).trans
    (State.raiseEvt_auger _ _ _)

theorem State.augAt_auger (s : State) (c) (addr) (hc : c < 32 := by omega) : Untouched augerKept s (State.augAt s c addr)
    := by
  unfold State.augAt
  exact (State.wr2_auger _ _ _).trans (State.wr_auger _ _ _)

theorem State.augPos_auger (s : State) (c) (hc : c < 32 := by omega) : Untouched augerKept s (State.augPos s c) := by
  unfold State.augPos
  split
  · exact Untouched.refl _
  · exact State.wr_auger _ _ _

theorem State.augIdle_auger (s : State) (c) (parked) (hc : c < 32 := by omega) : Untouched augerKept s (State.augIdle s c
    parked) := by
  unfold State.augIdle
  exact Untouched.cut (fun h1 => (h1).trans (State.augGo_auger _ _ _)) ((State.augMod_untouched _ _ _).trans
    (State.wrb_auger _ _ _ _))

theorem State.augDrain_auger (s : State) (c) (hc : c < 32 := by omega) : Untouched augerKept s (State.augDrain s c) := by
  unfold State.augDrain
  exact Untouched.cut (fun h1 => Untouched.ite (h1) (Untouched.ite (((h1).trans (State.wrb_auger _ _ _ _)).trans (State.augIdle_auger _ _ _)) ((by split; exact (h1).trans (State.augFaulted_auger _ _ _); exact Untouched.ite (((h1).trans (State.augMod_untouched _ _ _)).trans (State.augGo_auger _ _ _)) (h1))))) (State.augGiveUp_untouched _ _)

theorem State.augFail_auger (s : State) (c) (cause) (hc : c < 32 := by omega) : Untouched augerKept s (State.augFail s c
    cause) := by
  unfold State.augFail
  exact (State.augMod_untouched _ _ _).trans (State.augDrain_auger _ _)

theorem State.augReread_auger (s : State) (c) (hc : c < 32 := by omega) : Untouched augerKept s (State.augReread s c) := by
  unfold State.augReread
  exact ((State.wrb_auger _ _ _ _).trans (State.augGo_auger _ _ _)).trans (State.augFetch_untouched _ _ _ _)

theorem State.augComplete_auger (s : State) (c) (u2) (hc : c < 32 := by omega) : Untouched augerKept s (State.augComplete
    s c u2) := by
  induction u2 generalizing s with
  | zero => exact Untouched.refl _
  | succ n ih =>
    unfold State.augComplete
    extract_lets x
    split
    · exact Untouched.refl _
    · refine Untouched.ite (Untouched.refl _) ?_
      extract_lets t
      have h : Untouched augerKept s t := Untouched.ite (State.pulse_untouched _ _) (Untouched.refl _)
      refine Untouched.ite (Untouched.ite (h.trans (State.augMod_untouched _ _ _)) (Untouched.ite ?_ (h.trans
        (State.augIdle_auger _ _ _)))) ?_
      · exact ((h.trans (State.wrb_auger _ _ _ _)).trans (State.augMod_untouched _ _ _)).trans (State.augReread_auger _ _)
      · exact (((h.trans (State.augAt_auger _ _ _)).trans (State.augMod_untouched _ _ _)).trans (State.augPos_auger _
          _)).trans (ih _)

theorem State.augStart_auger (s : State) (c) (hc : c < 32 := by omega) : Untouched augerKept s (State.augStart s c) := by
  unfold State.augStart
  split
  · exact Untouched.refl _
  · exact Untouched.ite (Untouched.refl _) ((by split; exact State.augFail_auger _ _ _; exact State.augMod_untouched _ _ _))

theorem State.augSettle_auger (s : State) (c) (hc : c < 32 := by omega) : Untouched augerKept s (State.augSettle s c) := by
  unfold State.augSettle
  exact ((((State.augPos_auger _ _).trans (State.augComplete_auger _ _ _)).trans (State.augStart_auger _ _)).trans
    (State.augAhead_untouched _ _)).trans (State.augDrain_auger _ _)

theorem State.augGoOn_auger (s : State) (c) (new) (hc : c < 32 := by omega) : Untouched augerKept s (State.augGoOn s c
    new) := by
  unfold State.augGoOn
  exact Untouched.ite (State.augReread_auger _ _) ((((State.wrb_auger _ _ _ _).trans (State.augGo_auger _ _ _)).trans
    (State.augAt_auger _ _ _)).trans (State.augFetch_untouched _ _ _ _))

theorem State.augDoorbell_auger (s : State) (c) (v) (hc : c < 32 := by omega) : Untouched augerKept s (State.augDoorbell
    s c v) := by
  unfold State.augDoorbell
  split
  · exact State.augGoOn_auger _ _ _
  · exact Untouched.refl _
  · exact State.wrb_auger _ _ _ _

theorem State.augResume_auger (s : State) (c) (hc : c < 32 := by omega) : Untouched augerKept s (State.augResume s c) := by
  unfold State.augResume
  exact Untouched.cut (fun h1 => Untouched.ite (Untouched.cut (fun h2 => Untouched.ite (((h2).trans (State.wrb_auger _ _
    _ _)).trans (State.augGoOn_auger _ _ _)) (h2)) (((h1).trans (State.augGo_auger _ _ _)).trans (State.augMod_untouched
    _ _ _))) (Untouched.ite ((h1).trans (State.augReread_auger _ _)) (((h1).trans (State.augGo_auger _ _ _)).trans
    (State.augFetch_untouched _ _ _ _)))) (State.wrf_auger _ _ _ _ _)

theorem State.augAbort_auger (s : State) (c) (hc : c < 32 := by omega) : Untouched augerKept s (State.augAbort s c) := by
  unfold State.augAbort
  exact Untouched.cut (fun h1 => Untouched.ite (((h1).trans (State.augMod_untouched _ _ _)).trans (State.augDrain_auger _
    _)) ((h1).trans (State.augIdle_auger _ _ _))) ((State.wrb_auger _ _ _ _).trans (State.wrf_auger _ _ _ _ _))

theorem State.augCtlWrite_auger (s : State) (c) (v) (hc : c < 32 := by omega) : Untouched augerKept s (State.augCtlWrite
    s c v) := by
  unfold State.augCtlWrite
  exact Untouched.cut (fun h1 => Untouched.ite ((h1).trans (State.augAbort_auger _ _)) ((by split; exact ((h1).trans (State.augMod_untouched _ _ _)).trans (State.augGo_auger _ _ _); exact (h1).trans (State.augDrain_auger _ _); exact (h1).trans (State.augSettle_auger _ _); exact (h1).trans (State.augResume_auger _ _); exact Untouched.ite ((h1).trans (State.augResume_auger _ _)) (h1); exact h1))) (State.wr_auger _ _ _)

theorem execAugDoorbell_auger (c) (v) (s : State) : UntouchedO augerKept s (execAugDoorbell c v s) := by
  unfold execAugDoorbell
  exact UntouchedO.next (State.cfg_auger _ _ _ (fun _ => State.augDoorbell_auger _ _ _))

theorem execAugPause_auger (c) (v) (s : State) : UntouchedO augerKept s (execAugPause c v s) := by
  unfold execAugPause
  exact UntouchedO.next (State.cfg_auger _ _ _ (fun _ => State.augCtlWrite_auger _ _ _))

theorem execAugUnpause_auger (c) (v) (s : State) : UntouchedO augerKept s (execAugUnpause c v s) := by
  unfold execAugUnpause
  exact UntouchedO.next (State.cfg_auger _ _ _ (fun _ => State.augCtlWrite_auger _ _ _))

theorem execAugResume_auger (c) (v) (s : State) : UntouchedO augerKept s (execAugResume c v s) := by
  unfold execAugResume
  exact UntouchedO.next (State.cfg_auger _ _ _ (fun _ => State.augCtlWrite_auger _ _ _))

theorem execAugAbort_auger (c) (v) (s : State) : UntouchedO augerKept s (execAugAbort c v s) := by
  unfold execAugAbort
  exact UntouchedO.next (State.cfg_auger _ _ _ (fun _ => State.augCtlWrite_auger _ _ _))

theorem State.augTake_auger (s : State) (c) (what) (d) (hc : c < 32 := by omega) : Untouched augerKept s (State.augTake s
    c what d) := by
  unfold State.augTake
  split
  · exact Untouched.ite (State.augFail_auger _ _ _) (Untouched.cut (fun h1 => Untouched.ite ((h1).trans
      (State.augIdle_auger _ _ _)) (Untouched.cut (fun h2 => Untouched.ite ((h2).trans (State.augDrain_auger _ _))
      ((h2).trans (State.augFetch_untouched _ _ _ _))) (((h1).trans (State.wrb_auger _ _ _ _)).trans (State.augAt_auger _
      _ _)))) (State.augMod_untouched _ _ _))
  · exact Untouched.ite (State.augFail_auger _ _ _) ((State.augMod_untouched _ _ _).trans (State.augSettle_auger _ _))
  · exact Untouched.ite (State.augFail_auger _ _ _) ((State.augMod_untouched _ _ _).trans (State.augSettle_auger _ _))

theorem execAugDescArrive_auger (c) (words) (index) (err) (s : State) : UntouchedO augerKept s (execAugDescArrive c words
    index err
  s) := by
  unfold execAugDescArrive
  split
  · exact UntouchedO.next (Untouched.refl _)
  · exact UntouchedO.ite (UntouchedO.next (Untouched.refl _)) (UntouchedO.cut (fun h1 => UntouchedO.ite (UntouchedO.next
      ((h1).trans (State.augDrain_auger _ _))) (UntouchedO.ite (UntouchedO.next ((h1).trans (State.augFail_auger _ _ _)))
      (UntouchedO.next ((h1).trans (State.augTake_auger _ _ _ _))))) ((State.augMod_untouched _ _ _).trans
      (State.readOver_untouched _ _)))

theorem execAugSourceRead_auger (c) (read) (err) (s : State) : UntouchedO augerKept s (execAugSourceRead c read err s) := by
  unfold execAugSourceRead
  refine UntouchedO.ite (UntouchedO.next (Untouched.refl _)) ?_
  have h : Untouched augerKept s { s with augTurn := (c.val + 1) % 32 } := Untouched.of_regs rfl
  have hf : ∀ n, Untouched augerKept s (State.augFail { s with augTurn := (c.val + 1) % 32 } c n) := fun _ =>
    h.trans (State.augFail_auger _ _ _)
  dsimp only
  split
  · exact UntouchedO.next h
  · refine UntouchedO.ite (UntouchedO.next (h.trans (State.augStart_auger _ _))) (UntouchedO.ite (UntouchedO.next (hf _)) ?_)
    split
    · exact UntouchedO.next (hf _)
    · exact UntouchedO.next (hf _)
    · exact UntouchedO.next (hf _)
    · exact UntouchedO.next (hf _)
    · exact UntouchedO.next (((h.trans (State.emit_untouched _ _)).trans (State.augMod_untouched _ _ _)).trans
        (State.augSettle_auger _ _))

theorem execAugWriteResponse_auger (c) (i) (err) (s : State) : UntouchedO augerKept s (execAugWriteResponse c i err s) := by
  unfold execAugWriteResponse
  exact UntouchedO.ite (UntouchedO.next (Untouched.refl _)) (UntouchedO.ite (UntouchedO.cut (fun h1 => UntouchedO.next
    (((h1).trans (State.augPos_auger _ _)).trans (State.augFail_auger _ _ _))) (State.augMod_untouched _ _ _))
    (UntouchedO.next ((State.augMod_untouched _ _ _).trans (State.augSettle_auger _ _))))

/-- Settles O23: by the commands, as RingFrame. -/
theorem augerFrame : Obligations.AugerFrame := by
  intro s t c hc ht
  cases c
  case augDoorbell =>
    exact frame_of (.next (State.cfg_within_auger s _ _ fun _ => (State.augDoorbell_within _ _ _).mono))
      (execAugDoorbell_auger _ _ s) ht
  case augPause =>
    exact frame_of (.next (State.cfg_within_auger s _ _ fun _ => (State.augCtlWrite_within _ _ _).mono))
      (execAugPause_auger _ _ s) ht
  case augUnpause =>
    exact frame_of (.next (State.cfg_within_auger s _ _ fun _ => (State.augCtlWrite_within _ _ _).mono))
      (execAugUnpause_auger _ _ s) ht
  case augResume =>
    exact frame_of (.next (State.cfg_within_auger s _ _ fun _ => (State.augCtlWrite_within _ _ _).mono))
      (execAugResume_auger _ _ s) ht
  case augAbort =>
    exact frame_of (.next (State.cfg_within_auger s _ _ fun _ => (State.augCtlWrite_within _ _ _).mono))
      (execAugAbort_auger _ _ s) ht
  case augDescArrive =>
    exact frame_of ((execAugDescArrive_within _ _ _ _ s).mono) (execAugDescArrive_auger _ _ _ _ s) ht
  case augSourceRead =>
    exact frame_of ((execAugSourceRead_within _ _ _ s).mono) (execAugSourceRead_auger _ _ _ s) ht
  case augWriteResponse =>
    exact frame_of ((execAugWriteResponse_within _ _ _ s).mono) (execAugWriteResponse_auger _ _ _ s) ht
  all_goals cases hc

end Sys2Proof.Machine
end

section
/-! SUPPORT. What commands on the Assay units leave of the register file: one lemma per operation. -/

set_option Elab.async false

namespace Sys2Proof.Machine

/-- Outside the Assay block and the tiers' block. -/
def assayKept (x : Nat) : Prop := x < 0x380000 ∨ 0x480000 ≤ x

/-- A register that these commands may change. Its proof is by its place in the map. -/
structure AssayOff (off : Nat) : Prop where
  out : ¬ assayKept off := by
    simp only [assayKept, offAssayEvt, offMarlGen, offScanCtl, offScanEntryCtl, offUnitCfg, offUnitResync] at *
    omega

theorem State.wr_assay (s : State) (off w) (h : ¬ assayKept off := by exact AssayOff.out {}) :
    Untouched assayKept s (s.wr off w) := .wr h s w

theorem State.wrb_assay (s : State) (off i v) (h : ¬ assayKept off := by exact AssayOff.out {}) :
    Untouched assayKept s (s.wrb off i v) := .wr h s _

theorem State.raiseEvt_assay (s : State) (evt i) (he : ¬ assayKept evt := by exact AssayOff.out {}) :
    Untouched assayKept s (s.raiseEvt evt i) := .raiseEvt he s i

theorem State.marlBump_assay (s : State) (r) (h : ¬ assayKept (offMarlGen r) := by exact AssayOff.out {}) :
    Untouched assayKept s (s.marlBump r) := .wr h s _

theorem State.cfg_assay (s : State) (off f) (hf : ∀ x, Untouched assayKept x (f x))
    (h : ¬ assayKept off := by exact AssayOff.out {}) : Untouched assayKept s (s.cfg off f) :=
  State.cfg_untouched_line s f (by simp only [assayKept] at *; omega) (by simp only [assayKept, offMarlGen]; omega) hf

theorem State.cfg_within_assay {ps : List Part} (s : State) (off f) (hf : ∀ x, Within ps x (f x))
    (h : ¬ assayKept off := by exact AssayOff.out {}) (ho : partSub [.outbox] ps = true := by rfl) : Within ps s (s.cfg
      off f) :=
  State.cfg_within_line s f (by simp only [assayKept] at *; omega) hf ho

theorem State.assayCommit_assay (s : State) (u1) (hu1 : u1 < 16 := by omega) : Untouched assayKept s (State.assayCommit s
    u1) := by
  unfold State.assayCommit
  exact Untouched.ite (State.assayMod_untouched _ _) ((State.wrb_assay _ _ _ _).trans (State.raiseEvt_assay _ _ _))

theorem State.unitCfgWrite_assay (s : State) (u1) (v) (hu1 : u1 < 16 := by omega) : Untouched assayKept s
    (State.unitCfgWrite s u1 v) := by
  unfold State.unitCfgWrite
  exact Untouched.cut (fun h1 => Untouched.ite ((h1).trans (State.assayCommit_assay _ _)) (h1)) (State.wr_assay _ _ _)

theorem execAssayCommit_assay (u0) (v) (s : State) : UntouchedO assayKept s (execAssayCommit u0 v s) := by
  unfold execAssayCommit
  exact UntouchedO.next (State.cfg_assay _ _ _ (fun _ => State.unitCfgWrite_assay _ _ _))

theorem execAssayParityError_assay (u0) (s : State) : UntouchedO assayKept s (execAssayParityError u0 s) := by
  unfold execAssayParityError
  exact UntouchedO.ite (UntouchedO.cut (fun h1 => UntouchedO.next (((h1).trans (State.assayMod_untouched _ _)).trans
    (State.marlBump_assay _ _))) ((State.wrb_assay _ _ _ _).trans (State.raiseEvt_assay _ _ _))) (UntouchedO.next
    (Untouched.refl _))

theorem execAssayResync_assay (u0) (v) (s : State) : UntouchedO assayKept s (execAssayResync u0 v s) := by
  unfold execAssayResync
  exact UntouchedO.next (State.cfg_assay _ _ _ (fun _ => Untouched.ite (State.assayResync_untouched _ _) (Untouched.refl _)))

theorem State.scanBegin_assay (s : State) : Untouched assayKept s (State.scanBegin s) := by
  unfold State.scanBegin
  extract_lets es t u run
  have ht : Untouched assayKept s t := .ite (State.scanTimer_untouched s) (.refl s)
  have hindex : ∀ e ∈ es, e.index < 32 := by
    intro e he
    obtain ⟨i, hi, rfl⟩ := List.mem_map.1 he
    exact List.mem_range.1 hi
  have hu : Untouched assayKept s u := .foldlMem ht fun v e he => by
    have hi := hindex e he
    exact State.wrb_assay _ _ _ _
  exact .ite (hu.trans (State.raiseEvt_assay _ _ _)) ((hu.trans (State.scanRead_untouched _ _)).trans (State.wrb_assay _
    _ _ _))

theorem State.scanGo_assay (s : State) : Untouched assayKept s (State.scanGo s) := by
  unfold State.scanGo
  exact Untouched.ite (State.assayMod_untouched _ _) (State.scanBegin_assay _)

theorem State.scanCtlWrite_assay (s : State) (v) : Untouched assayKept s (State.scanCtlWrite s v) := by
  unfold State.scanCtlWrite
  exact Untouched.cut (fun h1 => Untouched.cut (fun h2 => Untouched.ite ((h2).trans (State.scanGo_assay _)) (h2))
    (Untouched.ite ((h1).trans (State.stopTimer_untouched _ _)) (Untouched.ite (h1) ((h1).trans
    (State.scanTimer_untouched _))))) (State.wr_assay _ _ _)

theorem State.scanPeriod_assay (s : State) : Untouched assayKept s (State.scanPeriod s) := by
  unfold State.scanPeriod
  exact Untouched.cut (fun h1 => (Untouched.ite (((h1).trans (State.wrb_assay _ _ _ _)).trans (State.raiseEvt_assay _ _
    _)) (h1)).trans (State.scanGo_assay _)) (State.stopTimer_untouched _ _)

theorem execScanStart_assay (written) (s : State) : UntouchedO assayKept s (execScanStart written s) := by
  unfold execScanStart
  split
  · exact UntouchedO.next (State.cfg_assay _ _ _ (fun _ => State.scanCtlWrite_assay _ _))
  · exact UntouchedO.ite (UntouchedO.next (State.scanPeriod_assay _)) (UntouchedO.next (Untouched.refl _))

/-- Settles O24: by the commands, as RingFrame. -/
theorem assayFrame : Obligations.AssayFrame := by
  intro s t c hc ht
  cases c
  case assayCommit =>
    exact frame_of (.next (State.cfg_within_assay s _ _ fun _ => (State.unitCfgWrite_within _ _ _).mono))
      (execAssayCommit_assay _ _ s) ht
  case assayParityError =>
    exact frame_of ((execAssayParityError_within _ s).mono) (execAssayParityError_assay _ s) ht
  case assayResync =>
    exact frame_of (.next (State.cfg_within_assay s _ _ fun _ => .ite (State.assayResync_within _ _).mono (.refl _)))
      (execAssayResync_assay _ _ s) ht
  case scanStart =>
    refine frame_of ?_ (execScanStart_assay _ s) ht
    unfold execScanStart
    split
    · exact .next (State.cfg_within_assay s _ _ fun _ => (State.scanCtlWrite_within _ _).mono)
    · exact .ite (.next (State.scanPeriod_within s).mono) (.next (.refl s))
  all_goals cases hc

end Sys2Proof.Machine
end

section
/-! SUPPORT. What the management port's events leave of the register file: one lemma per operation. -/

set_option Elab.async false

namespace Sys2Proof.Machine

/-- Outside the management port's block. -/
def mgmtKept (x : Nat) : Prop := x < 0x800000 ∨ 0x900000 ≤ x

/-- A register that these commands may change. Its proof is by its place in the map. -/
structure MgmtOff (off : Nat) : Prop where
  out : ¬ mgmtKept off := by
    simp only [mgmtKept, offMdioClk, offMdioCtl, offMdioRdata, offMgmtEvt, offMgmtStatCnt, offMgmtStatHalf, offMgmtStatWrap,
    offWakeStatus] at *
    omega

theorem State.wr_mgmt (s : State) (off w) (h : ¬ mgmtKept off := by exact MgmtOff.out {}) :
    Untouched mgmtKept s (s.wr off w) := .wr h s w

theorem State.wrf_mgmt (s : State) (off hi lo n) (h : ¬ mgmtKept off := by exact MgmtOff.out {}) :
    Untouched mgmtKept s (s.wrf off hi lo n) := .wr h s _

theorem State.wrb_mgmt (s : State) (off i v) (h : ¬ mgmtKept off := by exact MgmtOff.out {}) :
    Untouched mgmtKept s (s.wrb off i v) := .wr h s _

theorem State.raiseEvt_mgmt (s : State) (evt i) (he : ¬ mgmtKept evt := by exact MgmtOff.out {}) :
    Untouched mgmtKept s (s.raiseEvt evt i) := .raiseEvt he s i

theorem State.setCnt_mgmt (s : State) (off n) (h : ¬ mgmtKept off := by exact MgmtOff.out {}) (h4 : ¬ mgmtKept (off + 4)
    := by exact MgmtOff.out {}) :
    Untouched mgmtKept s (s.setCnt off n) := .setCnt h h4 s n

theorem State.cfg_mgmt (s : State) (off f) (hf : ∀ x, Untouched mgmtKept x (f x))
    (h : ¬ mgmtKept off := by exact MgmtOff.out {}) : Untouched mgmtKept s (s.cfg off f) :=
  State.cfg_untouched s f (by simp only [mgmtKept, noRegion, offReplCmd] at *; omega) hf

theorem State.cfg_within_mgmt {ps : List Part} (s : State) (off f) (hf : ∀ x, Within ps x (f x))
    (h : ¬ mgmtKept off := by exact MgmtOff.out {}) (ho : partSub [.outbox] ps = true := by rfl) : Within ps s (s.cfg off
      f) :=
  State.cfg_within_noRegion s f (by simp only [mgmtKept, noRegion, offReplCmd] at *; omega) hf ho

theorem State.statAt_mgmt (s : State) (cnt half wrap evt i n) (h : ¬ mgmtKept cnt := by exact MgmtOff.out {})
    (h4 : ¬ mgmtKept (cnt + 4) := by exact MgmtOff.out {}) (he : ¬ mgmtKept evt := by exact MgmtOff.out {})
    (hhalf : ¬ mgmtKept (half + 4 * (i / 32)) := by exact MgmtOff.out {})
    (hwrap : ¬ mgmtKept (wrap + 4 * (i / 32)) := by exact MgmtOff.out {}) :
    Untouched mgmtKept s (State.statAt s cnt half wrap evt i n) := by
  unfold State.statAt
  extract_lets old new t u
  have ht : Untouched mgmtKept s t := State.setCnt_mgmt s _ _ h h4
  have hu : Untouched mgmtKept s u :=
    .ite ((ht.trans (State.wrb_mgmt _ _ _ _ hhalf)).trans (State.raiseEvt_mgmt _ _ _ he)) ht
  exact .ite ((hu.trans (State.wrb_mgmt _ _ _ _ hwrap)).trans (State.raiseEvt_mgmt _ _ _ he)) hu

theorem State.mgmtStat_mgmt (s : State) (i) (n) (hi : i < 64 := by omega) : Untouched mgmtKept s (State.mgmtStat s i n) := by
  unfold State.mgmtStat
  exact State.statAt_mgmt _ _ _ _ _ _ _

theorem State.mgmtBroken_mgmt (s : State) (bits) : Untouched mgmtKept s (State.mgmtBroken s bits) := by
  unfold State.mgmtBroken
  exact ((State.mgmtStat_mgmt _ _ _).trans (State.mgmtStat_mgmt _ _ _)).trans (State.mgmtGiveUp_untouched _)

theorem execMgmtCollision_mgmt (bits) (s : State) : UntouchedO mgmtKept s (execMgmtCollision bits s) := by
  unfold execMgmtCollision
  exact UntouchedO.ite (UntouchedO.next (Untouched.refl _)) (UntouchedO.cut (fun h1 => UntouchedO.ite (UntouchedO.next
    (((h1).trans (State.mgmtBroken_mgmt _ _)).trans (State.mgmtStat_mgmt _ _ _))) (UntouchedO.ite (UntouchedO.next
    (((h1).trans (State.mgmtBroken_mgmt _ _)).trans (State.mgmtStat_mgmt _ _ _))) (UntouchedO.matchP ((h1).trans
    (State.draw_untouched _)) fun _ _ h2 => UntouchedO.next (((h2).trans (State.mgmtMod_untouched _ _)).trans
    (State.startTimer_untouched _ _ _))))) (State.emit_untouched _ _))

theorem State.mdioWrite_mgmt (s : State) (v) : Untouched mgmtKept s (State.mdioWrite s v) := by
  unfold State.mdioWrite
  exact Untouched.cut (fun h1 => Untouched.ite (h1) (Untouched.ite ((h1).trans (State.wrb_mgmt _ _ _ _)) (Untouched.cut
    (fun h2 => Untouched.cut (fun h3 => ((h3).trans (State.emit_untouched _ _)).trans (State.startTimer_untouched _ _ _))
    ((h2).trans (State.mgmtMod_untouched _ _))) (((h1).trans (State.wrb_mgmt _ _ _ _)).trans (State.wrb_mgmt _ _ _ _)))))
    (State.wr_mgmt _ _ _)

theorem execMdioStart_mgmt (v) (s : State) : UntouchedO mgmtKept s (execMdioStart v s) := by
  unfold execMdioStart
  exact UntouchedO.next (State.cfg_mgmt _ _ _ (fun _ => State.mdioWrite_mgmt _ _))

theorem execMdioDone_mgmt (data) (s : State) : UntouchedO mgmtKept s (execMdioDone data s) := by
  unfold execMdioDone
  exact UntouchedO.ite (UntouchedO.cut (fun h1 => UntouchedO.next (Untouched.ite ((h1).trans (State.wr_mgmt _ _ _))
    (h1))) ((State.stopTimer_untouched _ _).trans (State.wrb_mgmt _ _ _ _))) (UntouchedO.next (Untouched.refl _))

theorem execWakeFrame_mgmt (frame) (fcsGood) (s : State) : UntouchedO mgmtKept s (execWakeFrame frame fcsGood s) := by
  unfold execWakeFrame
  refine .ite (.next (.refl s)) ?_
  split
  · extract_lets t
    have ht : Untouched mgmtKept s t :=
      ((State.wrb_mgmt _ _ _ _).trans (State.wrf_mgmt _ _ _ _ _)).trans (State.emit_untouched _ _)
    exact .next (ht.trans (.of_regs rfl))
  · exact .next (.refl s)

theorem mgmtCommand_frame {s t : State} {c : Instr} (hc : c.mgmtCommand = true) (ht : exec c s = .next t) :
    s.sameBut t [.draws, .outbox, .timers, .evWait, .pwr, .mgmt] ∧ ∀ x, mgmtKept x → t.rd x = s.rd x := by
  cases c
  case mgmtCollision =>
    exact frame_of ((execMgmtCollision_within _ s).mono) (execMgmtCollision_mgmt _ s) ht
  case mgmtBackoffEnd =>
    exact frame_of ((execMgmtBackoffEnd_within s).mono) (execMgmtBackoffEnd_untouched s) ht
  case mgmtDeferEnd =>
    exact frame_of ((execMgmtDeferEnd_within s).mono) (execMgmtDeferEnd_untouched s) ht
  case mdioStart =>
    exact frame_of (.next (State.cfg_within_mgmt s _ _ fun _ => (State.mdioWrite_within _ _).mono)) (execMdioStart_mgmt _
      s) ht
  case mdioDone =>
    exact frame_of ((execMdioDone_within _ s).mono) (execMdioDone_mgmt _ s) ht
  case wakeFrame =>
    exact frame_of ((execWakeFrame_within _ _ s).mono) (execWakeFrame_mgmt _ _ s) ht
  all_goals cases hc

end Sys2Proof.Machine
end

section
/-! SUPPORT. What service commands leave of the register file, one lemma per operation, and the statement about the host side. -/

set_option Elab.async false

namespace Sys2Proof.Machine

/-- Outside the first five blocks, the tiers' block and the safety monitors. -/
def serviceKept (x : Nat) : Prop := 0x5000 ≤ x ∧ (x < 0x400000 ∨ 0x480000 ≤ x) ∧ (x < 0x700000 ∨ 0x740000 ≤ x)

theorem fenceReg_window (w : Fin 9) : 0x700000 ≤ fenceReg w ∧ fenceReg w < 0x740000 := by
  unfold fenceReg offFencePort offFenceBed
  split <;> omega

/-- A register that these commands may change. Its proof is by its place in the map. -/
structure ServiceOff (off : Nat) : Prop where
  out : ¬ serviceKept off := by
    simp only [serviceKept, offClkMonCount, offClkMonSel, offCntWmapRefused, offDbgToken, offFenceBed, offFencePort,
    offFuseProg, offFuseStatus, offHarmAck, offHarmStatus, offKeyRevoke, offMarlGen, offMarlStatus, offMemCfg,
    offSafeCnt, offSafeEvt, offSecEvt, offWear, offWearThresh, offWmapLast] at *
    omega

theorem State.wr_service (s : State) (off w) (h : ¬ serviceKept off := by exact ServiceOff.out {}) :
    Untouched serviceKept s (s.wr off w) := .wr h s w

theorem State.wrf_service (s : State) (off hi lo n) (h : ¬ serviceKept off := by exact ServiceOff.out {}) :
    Untouched serviceKept s (s.wrf off hi lo n) := .wr h s _

theorem State.wrb_service (s : State) (off i v) (h : ¬ serviceKept off := by exact ServiceOff.out {}) :
    Untouched serviceKept s (s.wrb off i v) := .wr h s _

theorem State.raiseEvt_service (s : State) (evt i) (he : ¬ serviceKept evt := by exact ServiceOff.out {}) :
    Untouched serviceKept s (s.raiseEvt evt i) := .raiseEvt he s i

theorem State.setCnt_service (s : State) (off n) (h : ¬ serviceKept off := by exact ServiceOff.out {}) (h4 : ¬
    serviceKept (off + 4) := by exact ServiceOff.out {}) :
    Untouched serviceKept s (s.setCnt off n) := .setCnt h h4 s n

theorem State.addCnt_service (s : State) (off n evt wrapBit) (h : ¬ serviceKept off := by exact ServiceOff.out {})
    (h4 : ¬ serviceKept (off + 4) := by exact ServiceOff.out {}) (he : ¬ serviceKept evt := by exact ServiceOff.out {}) :
    Untouched serviceKept s (s.addCnt off n evt wrapBit) := .addCnt h h4 he s n wrapBit

theorem State.inc_service (s : State) (off evt wrapBit) (h : ¬ serviceKept off := by exact ServiceOff.out {})
    (h4 : ¬ serviceKept (off + 4) := by exact ServiceOff.out {}) (he : ¬ serviceKept evt := by exact ServiceOff.out {}) :
    Untouched serviceKept s (s.inc off evt wrapBit) := .addCnt h h4 he s 1 wrapBit

theorem State.cfg_service (s : State) (off f) (hf : ∀ x, Untouched serviceKept x (f x))
    (h : ¬ serviceKept off := by exact ServiceOff.out {}) : Untouched serviceKept s (s.cfg off f) :=
  State.cfg_untouched_line s f (by simp only [serviceKept] at *; omega) (by simp only [serviceKept, offMarlGen]; omega) hf

theorem State.cfg_within_service {ps : List Part} (s : State) (off f) (hf : ∀ x, Within ps x (f x))
    (h : ¬ serviceKept off := by exact ServiceOff.out {}) (ho : partSub [.outbox] ps = true := by rfl) : Within ps s
      (s.cfg off f) :=
  State.cfg_within_line s f (by simp only [serviceKept] at *; omega) hf ho

theorem State.safeEvt_service (s : State) (i) : Untouched serviceKept s (State.safeEvt s i) := by
  unfold State.safeEvt
  exact Untouched.ite (State.raiseEvt_service _ _ _) (Untouched.refl _)

theorem State.safeInc_service (s : State) (i) (n) (hi : i < 16 := by omega) : Untouched serviceKept s (State.safeInc s i
    n) := by
  unfold State.safeInc
  exact Untouched.ite (State.addCnt_service _ _ _ _ _) (Untouched.refl _)

theorem State.wmapRefuse_service (s : State) (port) (off) : Untouched serviceKept s (State.wmapRefuse s port off) := by
  unfold State.wmapRefuse
  exact ((State.inc_service _ _ _ _).trans (State.wr_service _ _ _)).trans (State.raiseEvt_service _ _ _)

theorem State.lk_service (s : State) (port) (off) (g) (f) (hf : ∀ x, Untouched serviceKept x (f x)) : Untouched
    serviceKept s (State.lk s port off g f)
  := by
  unfold State.lk
  exact Untouched.ite (hf _) (State.wmapRefuse_service _ _ _)

theorem State.dbgClose_service (s : State) (port) : Untouched serviceKept s (State.dbgClose s port) := by
  unfold State.dbgClose
  exact Untouched.ite (Untouched.refl _) (((State.dbgMod_untouched _ _ _).trans (State.stopTimer_untouched _ _)).trans
    (State.raiseEvt_service _ _ _))

theorem State.monSel_service (s : State) (v) : Untouched serviceKept s (State.monSel s v) := by
  unfold State.monSel
  extract_lets t
  have ht : Untouched serviceKept s t := State.wrf_service _ _ _ _ _
  refine .ite (.ite ?_ ?_) ht
  · exact (ht.trans (State.wr_service _ offClkMonCount 0)).trans (.of_regs rfl)
  · exact (ht.trans (State.wr_service _ offClkMonCount 0xA0000000)).trans (.of_regs rfl)

theorem execClkMonStart_service (v) (s : State) : UntouchedO serviceKept s (execClkMonStart v s) := by
  unfold execClkMonStart
  exact UntouchedO.next (State.cfg_service _ _ _ (fun _ => State.monSel_service _ _))

theorem execClkMonWindowEnd_service (count) (s : State) : UntouchedO serviceKept s (execClkMonWindowEnd count s) := by
  unfold execClkMonWindowEnd
  split
  · exact UntouchedO.next (Untouched.refl _)
  · exact UntouchedO.cut (fun h1 => UntouchedO.next ((h1).trans (Untouched.of_regs rfl))) ((State.stopTimer_untouched _
      _).trans (State.wr_service _ _ _))

theorem State.harmAck_service (s : State) (seq) : Untouched serviceKept s (State.harmAck s seq) := by
  unfold State.harmAck
  exact Untouched.ite (Untouched.refl _) (Untouched.cut (fun h1 => Untouched.ite ((h1).trans (State.wrb_service _ _ _ _))
    (h1)) (State.wrf_service _ _ _ _ _))

theorem execHarmAck_service (v) (s : State) : UntouchedO serviceKept s (execHarmAck v s) := by
  unfold execHarmAck
  exact UntouchedO.next (State.cfg_service _ _ _ (fun _ => State.harmAck_service _ _))

theorem execFenceRelease_service (w) (v) (s : State) : UntouchedO serviceKept s (execFenceRelease w v s) := by
  unfold execFenceRelease
  have hfence := fenceReg_window w
  exact UntouchedO.next (State.cfg_service _ _ _ (fun _ => State.wr_service _ _ _))

theorem execMarlRewriteDone_service (copy) (s : State) : UntouchedO serviceKept s (execMarlRewriteDone copy s) := by
  unfold execMarlRewriteDone
  exact UntouchedO.next (Untouched.ite (State.wrb_service _ _ _ _) (Untouched.refl _))

theorem State.wearReach_service (s : State) (m) (i) (evt) (level) (hm : m < 40 := by omega) : Untouched serviceKept s
    (State.wearReach s m i evt level) := by
  unfold State.wearReach
  exact Untouched.ite ((State.wrb_service _ _ _ _).trans (State.safeEvt_service _ _)) (Untouched.refl _)

theorem execWearSample_service (m) (slow) (s : State) : UntouchedO serviceKept s (execWearSample m slow s) := by
  unfold execWearSample
  exact UntouchedO.next (Untouched.ite (Untouched.cut (fun h1 => ((h1).trans (State.wearReach_service _ _ _ _ _)).trans
    (State.wearReach_service _ _ _ _ _)) ((State.harmMod_untouched _ _).trans (State.wrf_service _ _ _ _ _)))
    (Untouched.refl _))

theorem execSubsoilRepairStart_service (stack) (chan) (corrected) (uncorrectable) (s : State) : UntouchedO serviceKept s
  (execSubsoilRepairStart stack chan corrected uncorrectable s) := by
  unfold execSubsoilRepairStart
  exact UntouchedO.ite (UntouchedO.next (Untouched.refl _)) (UntouchedO.cut (fun h1 => UntouchedO.ite (UntouchedO.next
    (h1)) (UntouchedO.ite (UntouchedO.next ((h1).trans (State.safeEvt_service _ _))) (UntouchedO.next ((h1).trans
    (State.harmMod_untouched _ _))))) (State.safeInc_service _ _ _))

theorem execSubsoilRepairDone_service (stack) (chan) (s : State) : UntouchedO serviceKept s (execSubsoilRepairDone stack
    chan s) := by
  unfold execSubsoilRepairDone
  exact UntouchedO.next (Untouched.ite ((State.harmMod_untouched _ _).trans (State.safeEvt_service _ _)) (Untouched.refl _))

theorem State.fuseGo_service (s : State) (v) : Untouched serviceKept s (State.fuseGo s v) := by
  unfold State.fuseGo
  exact Untouched.ite (Untouched.refl _) ((by split; exact State.wrf_service _ _ _ _ _; exact Untouched.cut (fun h1 => (h1).trans (Untouched.of_regs rfl)) ((State.wrf_service _ _ _ _ _).trans (State.wrb_service _ _ _ _))))

theorem State.fuseProgWrite_service (s : State) (port) (v) : Untouched serviceKept s (State.fuseProgWrite s port v) := by
  unfold State.fuseProgWrite
  exact Untouched.ite (State.lk_service _ _ _ _ _ (fun _ => State.fuseGo_service _ _)) (Untouched.refl _)

theorem execFuseProgGo_service (v) (s : State) : UntouchedO serviceKept s (execFuseProgGo v s) := by
  unfold execFuseProgGo
  exact UntouchedO.next (State.cfg_service _ _ _ (fun _ => State.fuseProgWrite_service _ _ _))

theorem State.keyRevokeWrite_service (s : State) (port) (v) : Untouched serviceKept s (State.keyRevokeWrite s port v) := by
  unfold State.keyRevokeWrite
  exact Untouched.ite (Untouched.refl _) (State.lk_service _ _ _ _ _ (fun _ => Untouched.ite (Untouched.refl _)
    ((State.secMod_untouched _ _).trans (State.wrb_service _ _ _ _))))

theorem execKeyRevoke_service (v) (s : State) : UntouchedO serviceKept s (execKeyRevoke v s) := by
  unfold execKeyRevoke
  exact UntouchedO.next (State.cfg_service _ _ _ (fun _ => State.keyRevokeWrite_service _ _ _))

theorem State.onPath_service (s : State) (port) (off) (host) (dp) (hhost : ∀ x, Untouched serviceKept x (host x)) (hdp :
    ∀ x, Untouched serviceKept x
  (dp x)) (h : ¬ serviceKept off := by exact ServiceOff.out {}) : Untouched serviceKept s (State.onPath s port off host
    dp) := by
  unfold State.onPath
  exact Untouched.ite (Untouched.ite (hdp _) (Untouched.refl _)) (State.cfg_service _ _ _ (hhost))

theorem execDbgTokenWrite_service (port) (v) (s : State) : UntouchedO serviceKept s (execDbgTokenWrite port v s) := by
  unfold execDbgTokenWrite
  exact UntouchedO.next (State.onPath_service _ _ _ _ _ (fun _ => State.dbgTokenWrite_untouched _ _ _) (fun _ =>
    (State.dbgTokenWrite_untouched _ _ _).trans (State.emit_untouched _ _)))

theorem execSessionExpire_service (port) (s : State) : UntouchedO serviceKept s (execSessionExpire port s) := by
  unfold execSessionExpire
  exact UntouchedO.next (Untouched.ite (State.dbgClose_service _ _) (Untouched.refl _))

theorem execDbgTokenWrite_within_service (port) (v) (s : State) :
    WithinO [.outbox, .timers, .evWait, .pwr, .harm, .sec] s (execDbgTokenWrite port v s) := by
  unfold execDbgTokenWrite State.onPath
  refine .next (.ite (.ite ?_ (.refl s)) ?_)
  · exact (State.dbgTokenWrite_within _ _ _).mono.trans (State.emit_within _ _).mono
  · exact State.cfg_within_service s _ _ fun _ => (State.dbgTokenWrite_within _ _ _).mono

theorem serviceCommand_frame {s t : State} {c : Instr} (hc : c.serviceCommand = true) (ht : exec c s = .next t) :
    s.sameBut t [.outbox, .timers, .evWait, .pwr, .harm, .sec] ∧ ∀ x, serviceKept x → t.rd x = s.rd x := by
  cases c
  case clkMonStart =>
    exact frame_of (.next (State.cfg_within_service s _ _ fun _ => (State.monSel_within _ _).mono))
      (execClkMonStart_service _ s) ht
  case clkMonWindowEnd =>
    exact frame_of ((execClkMonWindowEnd_within _ s).mono) (execClkMonWindowEnd_service _ s) ht
  case harmWindowEnd =>
    exact frame_of ((execHarmWindowEnd_within _ _ s).mono) (execHarmWindowEnd_untouched _ _ s) ht
  case harmAck =>
    exact frame_of (.next (State.cfg_within_service s _ _ fun _ => (State.harmAck_within _ _).mono)) (execHarmAck_service
      _ s) ht
  case fenceRelease =>
    have hfence := fenceReg_window ‹Fin 9›
    exact frame_of (.next (State.cfg_within_service s _ _ fun _ => (State.wr_within _ _ _).mono))
      (execFenceRelease_service _ _ s) ht
  case harmTake =>
    exact frame_of ((execHarmTake_within s).mono) (execHarmTake_untouched s) ht
  case wearSample =>
    exact frame_of ((execWearSample_within _ _ s).mono) (execWearSample_service _ _ s) ht
  case subsoilRepairStart =>
    exact frame_of ((execSubsoilRepairStart_within _ _ _ _ s).mono) (execSubsoilRepairStart_service _ _ _ _ s) ht
  case subsoilRepairDone =>
    exact frame_of ((execSubsoilRepairDone_within _ _ s).mono) (execSubsoilRepairDone_service _ _ s) ht
  case marlRewriteDone =>
    exact frame_of ((execMarlRewriteDone_within _ s).mono) (execMarlRewriteDone_service _ s) ht
  case fuseProgGo =>
    exact frame_of (.next (State.cfg_within_service s _ _ fun _ => (State.fuseProgWrite_within _ _ _).mono))
      (execFuseProgGo_service _ s) ht
  case keyRevoke =>
    exact frame_of (.next (State.cfg_within_service s _ _ fun _ => (State.keyRevokeWrite_within _ _ _).mono))
      (execKeyRevoke_service _ s) ht
  case dbgTokenWrite =>
    exact frame_of (execDbgTokenWrite_within_service _ _ s) (execDbgTokenWrite_service _ _ s) ht
  case sessionExpire =>
    exact frame_of ((execSessionExpire_within _ s).mono) (execSessionExpire_service _ s) ht
  case challengeExpire =>
    exact frame_of ((execChallengeExpire_within _ s).mono) (execChallengeExpire_untouched _ s) ht
  case returnArmExpire =>
    exact frame_of ((execReturnArmExpire_within s).mono) (execReturnArmExpire_untouched s) ht
  all_goals cases hc

/-- Settles O28: the two halves, by the commands of each. -/
theorem hostSideFrame : Obligations.HostSideFrame := by
  refine fun s t c ht => ⟨fun hc => ?_, fun hc => mgmtCommand_frame hc ht⟩
  obtain ⟨hsame, hregs⟩ := serviceCommand_frame hc ht
  exact ⟨hsame, fun x h1 h2 h3 => hregs x ⟨h1, h2, h3⟩⟩

end Sys2Proof.Machine
end

section
/-! SUPPORT. Frame of the silt commands: the error counter of the lane that a flit leaves on is named by the link's lane map, which
no state is bound to keep within the link's eight lanes. -/

set_option Elab.async false

namespace Sys2Proof.Machine

/-- The high word of a counter that has counted is at most 16 bits wide. -/
theorem State.rd_addCnt_hi_ne (s : State) {off evt : Nat} (n wrapBit : Nat) (he : off + 4 ≠ evt) :
    (s.addCnt off n evt wrapBit).rd (off + 4) ≠ 0xFFFFFFFF := by
  have hset : (s.setCnt off (s.cnt off + n)).rd (off + 4) = w32 ((s.cnt off + n) % cntMod / 2 ^ 32) := by
    rw [State.setCnt, State.rd_wr_same]
  have hlt : (s.cnt off + n) % cntMod / 2 ^ 32 < 2 ^ 16 :=
    Nat.div_lt_of_lt_mul (Nat.mod_lt _ (by decide))
  have hne : w32 ((s.cnt off + n) % cntMod / 2 ^ 32) ≠ 0xFFFFFFFF := by
    intro h
    have := congrArg BitVec.toNat h
    rw [w32_toNat _ (by omega)] at this
    have hmax : (0xFFFFFFFF : Word).toNat = 4294967295 := rfl
    omega
  unfold State.addCnt
  dsimp only
  split
  · rw [State.rd_raiseEvt_ne _ _ he, hset]
    exact hne
  · rw [hset]
    exact hne

/-- A flit that leaves on a link touches the registers as the error counter of its lane does. -/
theorem State.rd_siltEmit (s : State) (k type seq arg : Nat) (body : List Byte) (x : Nat) :
    let base := siltLane k ((s.siltSt k).txMap.getD (s.siltSt k).turn (s.siltPhys k (s.siltSt k).turn))
    ∃ u : State, (s.siltEmit k type seq arg body).rd x =
      (u.addCnt (base + 0xE0) (Config.freeValue s.draws % 35) (lnEvt base) 6).rd x := by
  intro base
  refine ⟨(s.emit (.siltFlit k (flitBytes type seq (s.siltSt k).ack arg body))).draw.2, ?_⟩
  unfold State.siltEmit
  dsimp only
  split <;> exact State.rd_of_regs rfl _

/-- A link that is ACTIVE, its NULL flit due, with a lane map that names lane 0x70: that lane's counters would lie behind the silt
block, at the start of the scheduler's. -/
def strayLane : State :=
  (((((Tests.up Tests.start).wrf (offSiltStatus 0) 31 28 5).startTimer (.siltNull 0) 655).siltMod 0 fun x =>
    { x with txMap := [0x70] })).wr 0x5000E4 0xFFFFFFFF

theorem strayLane_sends : strayLane.siltActive 0 = true ∧ strayLane.timerOn (.siltNull 0) = true := by decide +kernel

theorem strayLane_rd : strayLane.rd 0x5000E4 = 0xFFFFFFFF := State.rd_wr_same _ _ _

theorem strayLane_base :
    siltLane 0 ((strayLane.siltSt 0).txMap.getD (strayLane.siltSt 0).turn (strayLane.siltPhys 0 (strayLane.siltSt 0).turn)) =
      0x500000 := by decide +kernel

/-- Refutes O25: in `strayLane` SILT_NULL_SEND counts errors of a lane outside the silt block. The statement has no premise that
the lane map names lanes of the link. -/
theorem not_siltFrame : ¬ Obligations.SiltFrame := by
  unfold Obligations.SiltFrame
  intro h
  have hexec : exec (.siltNullSend 0) strayLane =
      .next (strayLane.siltEmit 0 1 (strayLane.siltSt 0).nextSeq 0 []) := by
    obtain ⟨hactive, htimer⟩ := strayLane_sends
    rw [exec_siltNullSend, execSiltNullSend, if_pos (by simp [hactive, htimer])]
    rfl
  obtain ⟨-, hrd⟩ := h strayLane _ (.siltNullSend 0) rfl hexec
  have kept := (hrd 0x5000E4 (.inr (by decide))).trans strayLane_rd
  obtain ⟨u, hu⟩ := strayLane.rd_siltEmit 0 1 (strayLane.siltSt 0).nextSeq 0 [] 0x5000E4
  rw [strayLane_base] at hu
  exact State.rd_addCnt_hi_ne u _ 6 (by decide) (hu.symm.trans kept)

end Sys2Proof.Machine
end

section
/-! SUPPORT. What commands on the time unit leave of the register file: one lemma per operation. -/

set_option Elab.async false

namespace Sys2Proof.Machine

/-- Outside the time unit. -/
def timeKept (x : Nat) : Prop := x < 0x100000 ∨ 0x200000 ≤ x

/-- The first register of a base. -/
def tbHome (k : Nat) : Nat := if k < 8 then offTbCtl k else offTrkCtl (k - 8)

theorem tbReg_eq (k r : Nat) : tbReg k r = tbHome k + r := rfl

theorem tbHome_window {k : Nat} (hk : k < 10) : 0x100000 ≤ tbHome k ∧ tbHome k < 0x190000 := by
  unfold tbHome offTbCtl offTrkCtl
  split <;> omega

/-- Words that a command puts in a row of registers of the time unit. -/
structure TimeWords (off n : Nat) : Prop where
  window : 0x100000 ≤ off ∧ off + 4 * n ≤ 0x200000 := by
    simp only [offTimeCap, offActData0, offPpsInHead, nowWords, ActSlot.words, List.length, tbNowReg, tbReg_eq] at *
    omega

/-- A register that these commands may change. Its proof is by its place in the map. -/
structure TimeOff (off : Nat) : Prop where
  out : ¬ timeKept off := by
    simp only [timeKept, tbReg_eq, offActCmd, offActData0, offActData1, offActData4, offActData5, offPairCtl, offPairD,
    offPairStatus, offPpsInCtl, offPpsInHead, offPpsInPop, offRef10Ctl, offRef10Meas, offTimeCap, offTimeCaptureAll,
    offTimeEvt, tbCmd, tbCtl, tbFracReg, tbInt, tbNowReg, tbRefused] at *
    omega

theorem State.wr_time (s : State) (off w) (h : ¬ timeKept off := by exact TimeOff.out {}) :
    Untouched timeKept s (s.wr off w) := .wr h s w

theorem State.wrf_time (s : State) (off hi lo n) (h : ¬ timeKept off := by exact TimeOff.out {}) :
    Untouched timeKept s (s.wrf off hi lo n) := .wr h s _

theorem State.wrb_time (s : State) (off i v) (h : ¬ timeKept off := by exact TimeOff.out {}) :
    Untouched timeKept s (s.wrb off i v) := .wr h s _

theorem State.raiseEvt_time (s : State) (evt i) (he : ¬ timeKept evt := by exact TimeOff.out {}) :
    Untouched timeKept s (s.raiseEvt evt i) := .raiseEvt he s i

theorem State.cfg_time (s : State) (off f) (hf : ∀ x, Untouched timeKept x (f x))
    (h : ¬ timeKept off := by exact TimeOff.out {}) : Untouched timeKept s (s.cfg off f) :=
  State.cfg_untouched s f (by simp only [timeKept, noRegion, offReplCmd] at *; omega) hf

theorem State.cfg_within_time {ps : List Part} (s : State) (off f) (hf : ∀ x, Within ps x (f x))
    (h : ¬ timeKept off := by exact TimeOff.out {}) (ho : partSub [.outbox] ps = true := by rfl) : Within ps s (s.cfg off
      f) :=
  State.cfg_within_noRegion s f (by simp only [timeKept, noRegion, offReplCmd] at *; omega) hf ho

theorem State.wrs_time (s : State) (off) (ws : List Word)
    (h : 0x100000 ≤ off ∧ off + 4 * ws.length ≤ 0x200000 := by exact TimeWords.window {}) :
    Untouched timeKept s (s.wrs off ws) := by
  induction ws generalizing s off with
  | nil => exact Untouched.refl _
  | cons w ws ih =>
    rw [List.length_cons] at h
    exact (State.wr_time _ _ _).trans (ih _ _ (by omega))

theorem State.pairFollow_time (s : State) (k) (hk : k < 2 := by omega) : Untouched timeKept s (State.pairFollow s k) := by
  unfold State.pairFollow
  exact ((State.tbMod_untouched _ _ _).trans (State.wrf_time _ _ _ _ _)).trans (State.raiseEvt_time _ _ _)

theorem State.addendWrite_time (s : State) (k) (v) (hk : k < 10 := by omega) :
    Untouched timeKept s (State.addendWrite s k v) := by
  have hreg := tbHome_window hk
  unfold State.addendWrite
  extract_lets a t
  have ht : Untouched timeKept s t :=
    .ite (State.tbMod_untouched _ _ _) ((State.wrb_time _ _ _ _).trans (State.raiseEvt_time _ _ _))
  clear_value t a
  exact (ht.trans (State.wr_time _ _ _)).trans (State.wr_time _ _ _)

theorem execAddendWrite_time (k) (v) (s : State) : UntouchedO timeKept s (execAddendWrite k v s) := by
  unfold execAddendWrite
  have hreg := tbHome_window k.isLt
  exact UntouchedO.next (State.cfg_time _ _ _ (fun _ => State.addendWrite_time _ _ _))

theorem State.nowCapture_time (s : State) (k) (hk : k < 10 := by omega) : Untouched timeKept s (State.nowCapture s k) := by
  unfold State.nowCapture
  have hreg := tbHome_window hk
  exact State.wrs_time _ _ _

theorem State.captureAll_time (s : State) : Untouched timeKept s (State.captureAll s) := by
  unfold State.captureAll
  refine .trans (.foldlMem (.refl s) fun t k hk => ?_) (State.wrb_time _ _ _ _)
  have hk8 := List.mem_range.1 hk
  exact State.wrs_time _ _ _

theorem execCaptureAll_time (s : State) : UntouchedO timeKept s (execCaptureAll s) := by
  unfold execCaptureAll
  exact UntouchedO.next (State.cfg_time _ _ _ (fun _ => State.captureAll_time _))

theorem State.actDo_time (s : State) (a) : Untouched timeKept s (State.actDo s a) := by
  unfold State.actDo
  exact Untouched.cut (fun h1 => Untouched.cut (fun h2 => Untouched.cut (fun h3 => (h3).trans (State.actMod_untouched _ _
    _)) (Untouched.ite ((h2).trans (State.raiseEvt_time _ _ _)) (h2))) (Untouched.ite ((h1).trans
    (State.ppsPulse_untouched _ _)) (h1))) (Untouched.ite (State.pulse_untouched _ _) (Untouched.refl _))

theorem State.actFire_time (s : State) (a) : Untouched timeKept s (State.actFire s a) := by
  unfold State.actFire
  exact (State.actDo_time _ _).trans (State.actMod_untouched _ _ _)

theorem State.actLate_time (s : State) (a) (v) : Untouched timeKept s (State.actLate s a v) := by
  unfold State.actLate
  exact Untouched.cut (fun h1 => (h1).trans (State.actMod_untouched _ _ _)) (((State.actDo_time _ _).trans
    (State.raiseEvt_time _ _ _)).trans (State.actMod_untouched _ _ _))

theorem State.actArm_time (s : State) (a) : Untouched timeKept s (State.actArm s a) := by
  unfold State.actArm
  exact Untouched.cut (fun h1 => Untouched.ite ((h1).trans (State.actLate_time _ _ _)) (h1)) (State.actMod_untouched _ _ _)

theorem State.actOp_time (s : State) (op) : Untouched timeKept s (State.actOp s op) := by
  unfold State.actOp
  have h : Untouched timeKept s (s.wrf offActCmd 1 0 op) := State.wrf_time _ _ _ _ _
  generalize s.wrf offActCmd 1 0 op = t at h
  dsimp only
  split
  · exact h.trans (State.wrs_time _ _ _)
  · exact Untouched.ite (h.trans (State.wrb_time _ _ _ _)) (h.trans (State.actMod_untouched _ _ _))
  · exact h.trans (State.actArm_time _ _)
  · exact h.trans (State.actMod_untouched _ _ _)

theorem execActRead_time (s : State) : UntouchedO timeKept s (execActRead s) := by
  unfold execActRead
  exact UntouchedO.next (State.cfg_time _ _ _ (fun _ => State.actOp_time _ _))

theorem execActWrite_time (s : State) : UntouchedO timeKept s (execActWrite s) := by
  unfold execActWrite
  exact UntouchedO.next (State.cfg_time _ _ _ (fun _ => State.actOp_time _ _))

theorem execActArm_time (s : State) : UntouchedO timeKept s (execActArm s) := by
  unfold execActArm
  exact UntouchedO.next (State.cfg_time _ _ _ (fun _ => State.actOp_time _ _))

theorem execActDisarm_time (s : State) : UntouchedO timeKept s (execActDisarm s) := by
  unfold execActDisarm
  exact UntouchedO.next (State.cfg_time _ _ _ (fun _ => State.actOp_time _ _))

theorem execActFire_time (k) (slot) (s : State) : UntouchedO timeKept s (execActFire k slot s) := by
  unfold execActFire
  exact UntouchedO.next (Untouched.ite (State.actFire_time _ _) (Untouched.refl _))

theorem State.unlockOff_time (s : State) (k) (hk : k < 10 := by omega) : Untouched timeKept s (State.unlockOff s k) := by
  unfold State.unlockOff
  have hreg := tbHome_window hk
  exact (State.stopTimer_untouched _ _).trans (State.wrb_time _ _ _ _)

theorem State.jumpRefused_time (s : State) (k) (mag) (hk : k < 10 := by omega) : Untouched timeKept s (State.jumpRefused
    s k mag) := by
  unfold State.jumpRefused
  have hreg := tbHome_window hk
  exact ((State.wrb_time _ _ _ _).trans (State.wr_time _ _ _)).trans (State.raiseEvt_time _ _ _)

theorem State.tbGo_time (s : State) (k) (v) (mag) (op) (hk : k < 10 := by omega) : Untouched timeKept s (State.tbGo s k v
    mag op) := by
  unfold State.tbGo
  have hreg := tbHome_window hk
  exact Untouched.cut (fun h1 => Untouched.ite (h1) (Untouched.ite ((h1).trans (State.wrb_time _ _ _ _)) (Untouched.cut
    (fun h2 => Untouched.ite ((h2).trans (State.tbMod_untouched _ _ _)) ((h2).trans (State.jumpRefused_time _ _ _)))
    ((h1).trans (State.unlockOff_time _ _))))) (State.wr_time _ _ _)

theorem State.tbSet_time (s : State) (k) (v) (hk : k < 10 := by omega) : Untouched timeKept s (State.tbSet s k v) := by
  unfold State.tbSet
  have hreg := tbHome_window hk
  exact State.tbGo_time _ _ _ _ _

theorem State.tbStep_time (s : State) (k) (v) (hk : k < 10 := by omega) : Untouched timeKept s (State.tbStep s k v) := by
  unfold State.tbStep
  have hreg := tbHome_window hk
  exact State.tbGo_time _ _ _ _ _

theorem State.tbSlew_time (s : State) (k) (v) (hk : k < 10 := by omega) : Untouched timeKept s (State.tbSlew s k v) := by
  unfold State.tbSlew
  have hreg := tbHome_window hk
  exact State.tbGo_time _ _ _ _ _

theorem execTbSet_time (k) (v) (s : State) : UntouchedO timeKept s (execTbSet k v s) := by
  unfold execTbSet
  have hreg := tbHome_window k.isLt
  exact UntouchedO.next (State.cfg_time _ _ _ (fun _ => State.tbSet_time _ _ _))

theorem execTbStep_time (k) (v) (s : State) : UntouchedO timeKept s (execTbStep k v s) := by
  unfold execTbStep
  have hreg := tbHome_window k.isLt
  exact UntouchedO.next (State.cfg_time _ _ _ (fun _ => State.tbStep_time _ _ _))

theorem execTbSlew_time (k) (v) (s : State) : UntouchedO timeKept s (execTbSlew k v s) := by
  unfold execTbSlew
  have hreg := tbHome_window k.isLt
  exact UntouchedO.next (State.cfg_time _ _ _ (fun _ => State.tbSlew_time _ _ _))

theorem execUnlockExpire_time (k) (s : State) : UntouchedO timeKept s (execUnlockExpire k s) := by
  unfold execUnlockExpire
  have hreg := tbHome_window k.isLt
  exact UntouchedO.ite (UntouchedO.next ((State.unlockOff_time _ _).trans (State.raiseEvt_time _ _ _))) (UntouchedO.next
    (Untouched.refl _))

theorem State.pairSwitch_time (s : State) (k) (hk : k < 2 := by omega) : Untouched timeKept s (State.pairSwitch s k) := by
  unfold State.pairSwitch
  exact Untouched.ite (Untouched.refl _) (Untouched.ite ((State.wr_time _ _ _).trans (State.wrf_time _ _ _ _ _))
    ((State.wrb_time _ _ _ _).trans (State.raiseEvt_time _ _ _)))

theorem State.pairReturn_time (s : State) (k) (hk : k < 2 := by omega) : Untouched timeKept s (State.pairReturn s k) := by
  unfold State.pairReturn
  exact State.wrf_time _ _ _ _ _

theorem State.pairCtlWrite_time (s : State) (k) (v) (hk : k < 2 := by omega) : Untouched timeKept s (State.pairCtlWrite s
    k v) := by
  unfold State.pairCtlWrite
  exact Untouched.cut (fun h1 => Untouched.cut (fun h2 => Untouched.ite ((h2).trans (State.pairReturn_time _ _)) (h2))
    (Untouched.ite ((h1).trans (State.pairSwitch_time _ _)) (h1))) (State.wr_time _ _ _)

theorem execPairSwitch_time (k) (v) (s : State) : UntouchedO timeKept s (execPairSwitch k v s) := by
  unfold execPairSwitch
  exact UntouchedO.next (State.cfg_time _ _ _ (fun _ => State.pairCtlWrite_time _ _ _))

theorem execPairReturn_time (k) (v) (s : State) : UntouchedO timeKept s (execPairReturn k v s) := by
  unfold execPairReturn
  exact UntouchedO.next (State.cfg_time _ _ _ (fun _ => State.pairCtlWrite_time _ _ _))

theorem execPairSwitchDone_time (k) (s : State) : UntouchedO timeKept s (execPairSwitchDone k s) := by
  unfold execPairSwitchDone
  exact UntouchedO.ite (UntouchedO.next (State.pairFollow_time _ _)) (UntouchedO.next (Untouched.refl _))

theorem State.setPpsQ_time (s : State) (i) (q) (hi : i < 2 := by omega) : Untouched timeKept s (State.setPpsQ s i q) := by
  unfold State.setPpsQ
  extract_lets t
  have ht : Untouched timeKept s t := State.timeMod_untouched _ _
  have hu : Untouched timeKept s (t.wrf (offPpsInCtl i) 20 16 q.length) := ht.trans (State.wrf_time _ _ _ _ _)
  cases q with
  | nil => exact hu.trans (State.wrs_time _ _ _)
  | cons v rest => exact hu.trans (State.wrs_time _ _ _)

theorem execPpsInEdge_time (i) (falling) (s : State) : UntouchedO timeKept s (execPpsInEdge i falling s) := by
  unfold execPpsInEdge
  exact UntouchedO.ite (UntouchedO.next (Untouched.refl _)) (UntouchedO.ite (UntouchedO.next ((State.wrb_time _ _ _
    _).trans (State.raiseEvt_time _ _ _))) (UntouchedO.next ((State.setPpsQ_time _ _ _).trans (State.raiseEvt_time _ _
    _))))

theorem execPpsInPop_time (i) (s : State) : UntouchedO timeKept s (execPpsInPop i s) := by
  unfold execPpsInPop
  exact UntouchedO.next (State.cfg_time _ _ _ (fun _ => State.setPpsQ_time _ _ _))

theorem State.ref10Write_time (s : State) (v) : Untouched timeKept s (State.ref10Write s v) := by
  unfold State.ref10Write
  exact Untouched.cut (fun h1 => Untouched.ite (((h1).trans (State.wrf_time _ _ _ _ _)).trans (State.timeMod_untouched _
    _)) (h1)) (State.wr_time _ _ _)

theorem execRef10Go_time (v) (s : State) : UntouchedO timeKept s (execRef10Go v s) := by
  unfold execRef10Go
  exact UntouchedO.next (State.cfg_time _ _ _ (fun _ => State.ref10Write_time _ _))

theorem execRef10Done_time (elapsed) (noSignal) (s : State) : UntouchedO timeKept s (execRef10Done elapsed noSignal s) := by
  unfold execRef10Done
  exact UntouchedO.ite (UntouchedO.next (Untouched.refl _)) (UntouchedO.cut (fun h1 => UntouchedO.next (Untouched.ite
    ((h1).trans (State.wrb_time _ _ _ _)) ((h1).trans (State.wr_time _ _ _)))) ((State.wrb_time _ _ _ _).trans
    (State.timeMod_untouched _ _)))

/-- A read of NOW of a base captures the base, if its unit is there. -/
theorem State.readEffect_now_time (s : State) (k : Fin 10) : Untouched timeKept s (s.readEffect (tbNowReg k)) := by
  have hat : ∀ k : Fin 10, tbAt (tbNowReg k) = some (k.val, 0x30) := by decide
  unfold State.readEffect
  rw [hat k]
  exact .ite (.refl s) (State.nowCapture_time s k)

theorem execTbNowRead_time (k : Fin 10) (s : State) : UntouchedO timeKept s (execTbNowRead k s) := by
  have hnow : ∀ k : Fin 10, (BitVec.ofNat 26 (tbNowReg k)).toNat = tbNowReg k := by decide
  unfold execTbNowRead State.hostRead
  rw [hnow k]
  refine .next (.ite (.ite (State.answer_untouched _ _ _) (.refl s)) ?_)
  cases s.door (tbNowReg k) with
  | shut => exact .refl s
  | absent => exact State.answer_untouched _ _ _
  | down => exact State.answer_untouched _ _ _
  | through => exact (s.readEffect_now_time k).trans (State.answer_untouched _ _ _)

theorem timeCommand_frame {s t : State} {c : Instr} (hc : c.timeCommand = true) (ht : exec c s = .next t) :
    s.sameBut t [.outbox, .timers, .evWait, .gates, .time, .tel, .fabric] ∧ ∀ x, timeKept x → t.rd x = s.rd x := by
  cases c
  case addendWrite =>
    have hreg := tbHome_window (Fin.isLt ‹Fin 10›)
    exact frame_of (.next (State.cfg_within_time s _ _ fun _ => (State.addendWrite_within _ _ _).mono))
      (execAddendWrite_time _ _ s) ht
  case tbNowRead =>
    exact frame_of ((execTbNowRead_within _ s).mono) (execTbNowRead_time _ s) ht
  case captureAll =>
    exact frame_of (.next (State.cfg_within_time s _ _ fun _ => (State.captureAll_within _).mono)) (execCaptureAll_time s) ht
  case tbSet =>
    have hreg := tbHome_window (Fin.isLt ‹Fin 10›)
    exact frame_of (.next (State.cfg_within_time s _ _ fun _ => (State.tbSet_within _ _ _).mono)) (execTbSet_time _ _ s) ht
  case tbStep =>
    have hreg := tbHome_window (Fin.isLt ‹Fin 10›)
    exact frame_of (.next (State.cfg_within_time s _ _ fun _ => (State.tbStep_within _ _ _).mono)) (execTbStep_time _ _ s) ht
  case tbSlew =>
    have hreg := tbHome_window (Fin.isLt ‹Fin 10›)
    exact frame_of (.next (State.cfg_within_time s _ _ fun _ => (State.tbSlew_within _ _ _).mono)) (execTbSlew_time _ _ s) ht
  case slewEnd =>
    exact frame_of ((execSlewEnd_within _ s).mono) (execSlewEnd_untouched _ s) ht
  case unlockExpire =>
    exact frame_of ((execUnlockExpire_within _ s).mono) (execUnlockExpire_time _ s) ht
  case actRead =>
    exact frame_of (.next (State.cfg_within_time s _ _ fun _ => (State.actOp_within _ _).mono)) (execActRead_time s) ht
  case actWrite =>
    exact frame_of (.next (State.cfg_within_time s _ _ fun _ => (State.actOp_within _ _).mono)) (execActWrite_time s) ht
  case actArm =>
    exact frame_of (.next (State.cfg_within_time s _ _ fun _ => (State.actOp_within _ _).mono)) (execActArm_time s) ht
  case actDisarm =>
    exact frame_of (.next (State.cfg_within_time s _ _ fun _ => (State.actOp_within _ _).mono)) (execActDisarm_time s) ht
  case actFire =>
    exact frame_of ((execActFire_within _ _ s).mono) (execActFire_time _ _ s) ht
  case ppsInEdge =>
    exact frame_of ((execPpsInEdge_within _ _ s).mono) (execPpsInEdge_time _ _ s) ht
  case ppsInPop =>
    exact frame_of (.next (State.cfg_within_time s _ _ fun _ => (State.setPpsQ_within _ _ _).mono)) (execPpsInPop_time _
      s) ht
  case ppsOutEnd =>
    exact frame_of ((execPpsOutEnd_within _ s).mono) (execPpsOutEnd_untouched _ s) ht
  case ref10Go =>
    exact frame_of (.next (State.cfg_within_time s _ _ fun _ => (State.ref10Write_within _ _).mono)) (execRef10Go_time _
      s) ht
  case ref10Done =>
    exact frame_of ((execRef10Done_within _ _ s).mono) (execRef10Done_time _ _ s) ht
  case pairSwitch =>
    exact frame_of (.next (State.cfg_within_time s _ _ fun _ => (State.pairCtlWrite_within _ _ _).mono))
      (execPairSwitch_time _ _ s) ht
  case pairReturn =>
    exact frame_of (.next (State.cfg_within_time s _ _ fun _ => (State.pairCtlWrite_within _ _ _).mono))
      (execPairReturn_time _ _ s) ht
  case pairSwitchDone =>
    exact frame_of ((execPairSwitchDone_within _ s).mono) (execPairSwitchDone_time _ s) ht
  all_goals cases hc

/-- Settles O21: by the commands; they change no register outside the time unit at all. -/
theorem timeFrame : Obligations.TimeFrame := by
  intro s t c hc ht
  obtain ⟨hsame, hregs⟩ := timeCommand_frame hc ht
  exact ⟨hsame, fun x _ hx _ => hregs x hx⟩

end Sys2Proof.Machine
end

section
/-! SUPPORT. What port, pause and merge events of a bed leave as it is, while none of the bed's ports has sent a frame in part: one
relation, which carries that condition along, and one lemma per operation. -/

set_option Elab.async false

namespace Sys2Proof.Machine

/-- A register outside bed b's window and, for BED16, outside that of position pos; and SWAP.STATUS, which says that position. -/
def bedKept (b pos x : Nat) : Prop := x = offSwapStatus ∨ ¬ inBed b x ∧ (b = 16 → ¬ inBed pos x)

/-- None of bed b's ports has sent a frame in part, and if b is BED16, its position is pos. -/
structure BedInv (b pos : Nat) (s : State) : Prop where
  closed : ∀ p, p < 16 → (s.mac (16 * b + p)).openTx = none
  position : b = 16 → s.swapPos = pos

/-- The parts of the state that events of a bed change. -/
def bedParts : List Part := [.outbox, .timers, .evWait, .lanes, .ports, .macs, .shadow, .gates]

/-- From a state in which none of bed b's ports has sent a frame in part, an operation leads to such a state, and it changes no
register outside the bed and no other part of the state. -/
def BedStep (b pos : Nat) (s t : State) : Prop :=
  BedInv b pos s → BedInv b pos t ∧ Untouched (bedKept b pos) s t ∧ s.sameBut t bedParts

/-- The 4 KiB of a lane lie in bed b's window or, for BED16, in that of position pos. -/
def LaneIn (b pos base : Nat) : Prop :=
  (0x1010000 + b * 0x100000 ≤ base ∧ base + 0x1000 ≤ 0x1000000 + (b + 1) * 0x100000) ∨
    (b = 16 ∧ 0x1010000 + pos * 0x100000 ≤ base ∧ base + 0x1000 ≤ 0x1000000 + (pos + 1) * 0x100000)

variable {b pos : Nat}

theorem BedStep.refl (s : State) : BedStep b pos s s := fun h => ⟨h, .refl s, s.sameBut_refl _⟩

theorem BedStep.trans {s t u : State} (h : BedStep b pos s t) (g : BedStep b pos t u) : BedStep b pos s u := fun hs => by
  obtain ⟨ht, hregs, hsame⟩ := h hs
  obtain ⟨hu, hregs', hsame'⟩ := g ht
  exact ⟨hu, hregs.trans hregs', hsame.trans hsame'⟩

theorem BedStep.cut {s t v : State} (g : BedStep b pos s v → BedStep b pos s t) (h : BedStep b pos s v) : BedStep b pos s
    t := g h

theorem BedStep.ite {s t u : State} {c : Prop} [Decidable c] (h : BedStep b pos s t) (g : BedStep b pos s u) :
    BedStep b pos s (if c then t else u) := by
  split
  · exact h
  · exact g

theorem BedStep.foldl {α : Type} {s t : State} {f : State → α → State} {l : List α} (h : BedStep b pos s t)
    (g : ∀ u a, BedStep b pos u (f u a)) : BedStep b pos s (l.foldl f t) := by
  induction l generalizing t with
  | nil => exact h
  | cons a l ih => exact ih (h.trans (g t a))

/-- The same where what is done with an element leaves the registers because the element is of the list. -/
theorem BedStep.foldlMem {α : Type} {s t : State} {f : State → α → State} {l : List α} (h : BedStep b pos s t)
    (g : ∀ u, ∀ a ∈ l, BedStep b pos u (f u a)) : BedStep b pos s (l.foldl f t) := by
  induction l generalizing t with
  | nil => exact h
  | cons a l ih => exact ih (h.trans (g t a List.mem_cons_self)) fun u a ha => g u a (List.mem_cons_of_mem _ ha)

/-- If the answer is a next state, it is as `BedStep` says. -/
def BedStepO (b pos : Nat) (s : State) (o : Host.Outcome State Fault Refusal) : Prop := ∀ t, o = .next t → BedStep b pos s t

theorem BedStepO.next {s t : State} (h : BedStep b pos s t) : BedStepO b pos s (.next t) := fun _ e => by cases e; exact h

theorem BedStepO.cut {s v : State} {o : Host.Outcome State Fault Refusal} (g : BedStep b pos s v → BedStepO b pos s o)
    (h : BedStep b pos s v) : BedStepO b pos s o := g h

theorem BedStepO.ite {s : State} {o p : Host.Outcome State Fault Refusal} {c : Prop} [Decidable c]
    (h : BedStepO b pos s o) (g : BedStepO b pos s p) : BedStepO b pos s (if c then o else p) := by
  split
  · exact h
  · exact g

/-! ## Operations on one register or one part -/

theorem swapStatus_kept (b pos : Nat) : bedKept b pos offSwapStatus := .inl rfl

theorem Untouched.swapPos {s t : State} (h : Untouched (bedKept b pos) s t) : t.swapPos = s.swapPos := by
  rw [State.swapPos, State.rdf, h _ (swapStatus_kept b pos)]
  rfl

/-- An operation that leaves the registers outside the bed and the MACs. -/
theorem BedStep.of_regs {s t : State} (hregs : Untouched (bedKept b pos) s t) (hmacs : t.macs = s.macs)
    (hsame : s.sameBut t bedParts) : BedStep b pos s t := fun h =>
  ⟨⟨fun p hp => by rw [State.mac, hmacs]; exact h.closed p hp, fun hb => hregs.swapPos.trans (h.position hb)⟩, hregs, hsame⟩

/-- An operation on a part of the state that touches no register and no MAC. -/
theorem BedStep.of_within {ps : List Part} {s t : State} (h : Within ps s t) (hregs : t.regs = s.regs) (hmacs : t.macs =
    s.macs)
    (hs : partSub ps bedParts = true := by rfl) : BedStep b pos s t :=
  .of_regs (.of_regs hregs) hmacs (h.mono hs).same

theorem State.emit_bed (s : State) (o) : BedStep b pos s (s.emit o) := .of_within (s.emit_within o) rfl rfl

theorem State.startTimer_bed (s : State) (t ns) : BedStep b pos s (s.startTimer t ns) :=
  .of_within (s.startTimer_within t ns) rfl rfl

theorem State.stopTimer_bed (s : State) (t) : BedStep b pos s (s.stopTimer t) := .of_within (s.stopTimer_within t) rfl rfl

theorem State.shadowSet_bed (s : State) (off v) : BedStep b pos s (s.shadowSet off v) :=
  .of_within (s.shadowSet_within off v) rfl rfl

theorem State.portMod_bed (s : State) (a p f) : BedStep b pos s (s.portMod a p f) := .of_within (s.portMod_within a p f)
    rfl rfl

theorem State.laneMod_bed (s : State) (base f) : BedStep b pos s (s.laneMod base f) := .of_within (s.laneMod_within base
    f) rfl rfl

theorem State.gatesMod_bed (s : State) (f) : BedStep b pos s (s.gatesMod f) := .of_within (s.gatesMod_within f) rfl rfl

/-- A change of a MAC that leaves what is sent in part. -/
theorem State.macMod_bed (s : State) (m : Nat) (f : MacSt → MacSt) (hf : ∀ x, (f x).openTx = x.openTx := by exact fun _
    => rfl) :
    BedStep b pos s (s.macMod m f) := fun h => by
  have hregs : Untouched (bedKept b pos) s (s.macMod m f) := State.macMod_untouched s m f
  refine ⟨⟨fun p hp => ?_, fun hb => hregs.swapPos.trans (h.position hb)⟩, hregs, (s.macMod_within m f).mono.same⟩
  have hmac : (s.macMod m f).mac (16 * b + p) = if 16 * b + p = m then f (s.mac m) else s.mac (16 * b + p) := sget_smod _
    _ _ _ _
  rw [hmac]
  split
  · next e => rw [hf, ← e, h.closed p hp]
  · exact h.closed p hp

/-- A register that an event of bed b may change. Its proof is by its place in the map. -/
structure BedOff (b pos off : Nat) : Prop where
  out : ¬ bedKept b pos off := by
    simp only [bedKept, inBed, LaneIn, offSwapStatus, lnBoardEq, lnEqNow, lnEvt, lnFirNow, lnStatus, offMacCtl, offMacEvt,
      offMacFault, offMacMmCtl, offMacMmStatus, offMacPauseStat, offMacWd, offPortCount, offPortEvt, offPortForm,
      offPortRetry, offPortStatus, offPortTimeout0, offPortTimeout1, offSchedPortGen, offSchedPortRate, offSchedShAck,
      offStatCnt, offStatHalf, offStatWrap] at *
    omega

theorem State.wr_bed (s : State) (off w) (h : ¬ bedKept b pos off := by exact BedOff.out {}) : BedStep b pos s (s.wr off
    w) :=
  .of_regs (.wr h s w) rfl (s.wr_within off w).mono.same

theorem State.wrf_bed (s : State) (off hi lo n) (h : ¬ bedKept b pos off := by exact BedOff.out {}) :
    BedStep b pos s (s.wrf off hi lo n) := State.wr_bed s off _ h

theorem State.wrb_bed (s : State) (off i v) (h : ¬ bedKept b pos off := by exact BedOff.out {}) :
    BedStep b pos s (s.wrb off i v) := State.wr_bed s off _ h

theorem State.raiseEvt_bed (s : State) (evt i) (h : ¬ bedKept b pos evt := by exact BedOff.out {}) :
    BedStep b pos s (s.raiseEvt evt i) :=
  .of_regs (.raiseEvt h s i) (by simp) (s.raiseEvt_within evt i).mono.same

theorem State.setCnt_bed (s : State) (off n) (h : ¬ bedKept b pos off := by exact BedOff.out {})
    (h4 : ¬ bedKept b pos (off + 4) := by exact BedOff.out {}) : BedStep b pos s (s.setCnt off n) :=
  (State.wr_bed s off _ h).trans (State.wr_bed _ (off + 4) _ h4)

theorem State.shAck_bed (s : State) (b) (p) (gen) (hb : b < 17 := by omega) : BedStep b pos s (State.shAck s b p gen) := by
  unfold State.shAck
  exact State.wr_bed _ _ _

theorem State.statAt_bed (s : State) (cnt half wrap evt i n) (h : ¬ bedKept b pos cnt := by exact BedOff.out {})
    (h4 : ¬ bedKept b pos (cnt + 4) := by exact BedOff.out {}) (he : ¬ bedKept b pos evt := by exact BedOff.out {})
    (hhalf : ¬ bedKept b pos (half + 4 * (i / 32)) := by exact BedOff.out {})
    (hwrap : ¬ bedKept b pos (wrap + 4 * (i / 32)) := by exact BedOff.out {}) :
    BedStep b pos s (State.statAt s cnt half wrap evt i n) := by
  unfold State.statAt
  extract_lets old new t u
  have ht : BedStep b pos s t := State.setCnt_bed s _ _ h h4
  have hu : BedStep b pos s u :=
    .ite ((ht.trans (State.wrb_bed _ _ _ _ hhalf)).trans (State.raiseEvt_bed _ _ _ he)) ht
  exact .ite ((hu.trans (State.wrb_bed _ _ _ _ hwrap)).trans (State.raiseEvt_bed _ _ _ he)) hu

theorem State.stat_bed (s : State) (b) (p) (i) (n) (hb : b < 17 := by omega) (hp : p < 16 := by omega) (hi : i < 64 := by
    omega) : BedStep b pos s (State.stat s b p i n) := by
  unfold State.stat
  exact State.statAt_bed _ _ _ _ _ _ _

theorem State.pStat_bed (s : State) (b) (p) (hi) (lo) (n) (hb : b < 17 := by omega) (hp : p < 16 := by omega) : BedStep b
    pos s (State.pStat s b p hi lo n) := by
  unfold State.pStat
  exact State.wrf_bed _ _ _ _ _

theorem State.mmDisable_bed (s : State) (b) (p) (hb : b < 17 := by omega) (hp : p < 16 := by omega) : BedStep b pos s
    (State.mmDisable s b p) := by
  unfold State.mmDisable
  exact BedStep.cut (fun h1 => BedStep.ite ((h1).trans (State.macMod_bed _ _ _)) ((h1).trans (State.wrb_bed _ _ _ _)))
    (((State.wrf_bed _ _ _ _ _).trans (State.wrf_bed _ _ _ _ _)).trans (State.stopTimer_bed _ _))

theorem State.unsignal_bed (s : State) (b) (p) : BedStep b pos s (State.unsignal s b p) := by
  unfold State.unsignal
  exact BedStep.foldl (State.macMod_bed _ _ _) (fun _ _ => State.stopTimer_bed _ _)

theorem State.pGo_bed (s : State) (b) (p) (st) (hb : b < 17 := by omega) (hp : p < 16 := by omega) : BedStep b pos s
    (State.pGo s b p st) := by
  unfold State.pGo
  exact BedStep.cut (fun h1 => ((h1).trans (State.pStat_bed _ _ _ _ _ _)).trans (State.pStat_bed _ _ _ _ _ _))
    (BedStep.ite (State.mmDisable_bed _ _ _) (BedStep.refl _))

theorem State.laneUnlock_bed (s : State) (base) (hbase : LaneIn b pos base := by assumption) : BedStep b pos s
    (State.laneUnlock s base) := by
  unfold State.laneUnlock
  exact State.wrf_bed _ _ _ _ _

theorem State.laneLockAll_bed (s : State) (base) (hbase : LaneIn b pos base := by assumption) : BedStep b pos s
    (State.laneLockAll s base) := by
  unfold State.laneLockAll
  exact State.wrf_bed _ _ _ _ _

theorem State.laneUntrain_bed (s : State) (base) : BedStep b pos s (State.laneUntrain s base) := by
  unfold State.laneUntrain
  exact State.laneMod_bed _ _ _

theorem State.lanePower_bed (s : State) (base) (on) (hbase : LaneIn b pos base := by assumption) : BedStep b pos s
    (State.lanePower s base on) := by
  unfold State.lanePower
  exact BedStep.ite ((State.wrb_bed _ _ _ _).trans (State.wrb_bed _ _ _ _)) ((((State.wrb_bed _ _ _ _).trans
    (State.wrb_bed _ _ _ _)).trans (State.laneUnlock_bed _ _)).trans (State.laneUntrain_bed _ _))

theorem State.laneDormant_bed (s : State) (base) (hbase : LaneIn b pos base := by assumption) : BedStep b pos s
    (State.laneDormant s base) := by
  unfold State.laneDormant
  exact BedStep.ite (((State.wrb_bed _ _ _ _).trans (State.laneUnlock_bed _ _)).trans (State.laneUntrain_bed _ _))
    (BedStep.refl _)

theorem State.laneStore_bed (s : State) (base) (hbase : LaneIn b pos base := by assumption) : BedStep b pos s
    (State.laneStore s base) := by
  unfold State.laneStore
  exact (State.wrb_bed _ _ _ _).trans (State.laneMod_bed _ _ _)

theorem State.laneBase_in {s : State} (h : BedInv b pos s) {l base : Nat} (hb : b < 17) (hl : s.laneBase b l = some base) :
    LaneIn b pos base := by
  have hown : l < 16 → LaneIn b pos (offLaneCtl b l) := fun h16 => by
    unfold LaneIn offLaneCtl
    omega
  unfold State.laneBase State.laneReg at hl
  split at hl
  · next hc =>
    cases hl
    simp only [Bool.and_eq_true, decide_eq_true_iff] at hc
    exact hown hc.2
  · split at hl
    · cases hl
    · next hlt =>
      split at hl
      · split at hl <;> cases hl
        exact hown (by omega)
      · split at hl <;> cases hl
        rw [h.position (by omega)]
        unfold LaneIn offLaneCtl
        omega

/-- What is done on some lanes of the bed is as `BedStep` says, if it is on each of them. -/
theorem State.onLanes_bed (s : State) (b ls f) (hf : ∀ x y, LaneIn b pos y → BedStep b pos x (f x y)) (hb : b < 17 := by
    omega) :
    BedStep b pos s (State.onLanes s b ls f) := by
  refine .foldl (.refl s) fun u l hu => ?_
  split
  · next hl => exact hf _ _ (State.laneBase_in hu hb hl) hu
  · exact BedStep.refl u hu

theorem State.laneTrain_bed (s : State) (base) (a) (hbase : LaneIn b pos base := by assumption) : BedStep b pos s
    (State.laneTrain s base a) := by
  unfold State.laneTrain
  exact BedStep.cut (fun h1 => BedStep.cut (fun h2 => BedStep.cut (fun h3 => BedStep.ite ((h3).trans (State.raiseEvt_bed
    _ _ _)) (h3)) ((h2).trans (State.emit_bed _ _))) (((h1).trans (State.wr_bed _ _ _)).trans (State.laneMod_bed _ _ _)))
    ((State.wr_bed _ _ _).trans (State.wr_bed _ _ _))

theorem State.laneLoad_bed (s : State) (base) (ctle) (dfe) (f0) (f1) (hbase : LaneIn b pos base := by assumption) :
    BedStep b pos s (State.laneLoad s base ctle dfe f0
  f1) := by
  unfold State.laneLoad
  exact BedStep.cut (fun h1 => (((h1).trans (State.wr_bed _ _ _)).trans (State.wr_bed _ _ _)).trans (State.laneMod_bed _
    _ _)) (State.wr_bed _ _ _)

theorem State.laneUseBoard_bed (s : State) (base) (hbase : LaneIn b pos base := by assumption) : BedStep b pos s
    (State.laneUseBoard s base) := by
  unfold State.laneUseBoard
  exact State.laneLoad_bed _ _ _ _ _ _

theorem State.laneUseStored_bed (s : State) (base) (hbase : LaneIn b pos base := by assumption) : BedStep b pos s
    (State.laneUseStored s base) := by
  unfold State.laneUseStored
  split
  · exact State.laneLoad_bed _ _ _ _ _ _
  · exact State.laneUseBoard_bed _ _

theorem State.mst_bed (s : State) (m i n) (hm : m / 16 = b := by omega) (hb : b < 17 := by omega) (hi : i < 64 := by omega) :
    BedStep b pos s (State.mst s m i n) := by
  have hnet : m ≠ mgmtMac := by
    unfold mgmtMac
    omega
  subst hm
  rw [State.mst, if_neg hnet]
  exact State.stat_bed s _ _ _ _

theorem State.gateMod_bed (s : State) (b) (p) (f) : BedStep b pos s (State.gateMod s b p f) := by
  unfold State.gateMod
  exact State.gatesMod_bed _ _

theorem State.wireTake_bed (s : State) (b) (p) (start) (bytes) :
    BedStep b pos s (State.wireTake s b p start bytes) := by
  unfold State.wireTake
  exact State.gateMod_bed _ _ _ _

theorem State.wireControl_bed (s : State) (b) (p) : BedStep b pos s
    (State.wireControl s b p) := by
  unfold State.wireControl
  exact State.wireTake_bed _ _ _ _ _

theorem State.pauseBit_bed (s : State) (m i v) (hm : m / 16 = b := by omega) : BedStep b pos s (State.pauseBit s m i v) := by
  subst hm
  exact .ite (.refl s) (State.wrb_bed _ _ _ _)

theorem State.pauseEnd_bed (s : State) (m) (i) (hm : m / 16 = b := by omega) : BedStep b pos s (State.pauseEnd s m i) := by
  unfold State.pauseEnd
  exact ((State.pauseBit_bed _ _ _ _).trans (State.stopTimer_bed _ _)).trans (State.stopTimer_bed _ _)

theorem State.pauseChange_bed (s : State) (m) (f) (hf : ∀ x, BedStep b pos x (f x)) (hm : m / 16 = b := by omega) (hb : b
    < 17 := by omega) : BedStep b pos s (State.pauseChange s m f) :=
  by
  unfold State.pauseChange
  exact BedStep.cut (fun h1 => (by (try extract_lets); split; exact (h1).trans (State.macMod_bed _ _ _); exact ((h1).trans (State.mst_bed _ _ _ _)).trans (State.macMod_bed _ _ _); exact h1)) (hf _)

theorem execPauseWatchdogTrip_bed (b : BedIx) (p : LocalIx) (i) (s : State) : BedStepO b pos s (execPauseWatchdogTrip b p
    i s) := by
  unfold execPauseWatchdogTrip
  exact BedStepO.ite (BedStepO.cut (fun h1 => BedStepO.next (((h1).trans (State.stat_bed _ _ _ _ _)).trans
    (State.raiseEvt_bed _ _ _))) (State.pauseChange_bed _ _ _ (fun _ => BedStep.foldl (BedStep.refl _) (fun _ _ =>
    ((State.pauseEnd_bed _ _ _).trans (State.wrb_bed _ _ _ _)).trans (State.startTimer_bed _ _ _))))) (BedStepO.next
    (BedStep.refl _))

theorem execWatchdogHoldEnd_bed (b : BedIx) (p : LocalIx) (i) (s : State) : BedStepO b pos s (execWatchdogHoldEnd b p i
    s) := by
  unfold execWatchdogHoldEnd
  exact BedStepO.ite (BedStepO.next (BedStep.foldl (BedStep.refl _) (fun _ _ => (State.wrb_bed _ _ _ _).trans
    (State.stopTimer_bed _ _)))) (BedStepO.next (BedStep.refl _))

theorem State.fcSend_bed (s : State) (m enable xoff) (hm : m / 16 = b := by omega) (hb : b < 17 := by omega) :
    BedStep b pos s (State.fcSend s m enable xoff) := by
  unfold State.fcSend
  extract_lets pfc t
  have hi : (if pfc then 41 else 40) < 64 := by split <;> decide
  have ht : BedStep b pos s t := (State.emit_bed _ _).trans (State.mst_bed _ _ _ _)
  subst hm
  exact .ite ht (ht.trans (State.wireControl_bed _ _ _))

theorem execPauseSend_bed (b : BedIx) (p : LocalIx) (s : State) : BedStepO b pos s (execPauseSend (some b) p s) := by
  unfold execPauseSend macAt
  dsimp only
  refine .ite (.next (.refl s)) (.next (.foldl ?_ fun _ _ => .ite (State.startTimer_bed _ _ _) (State.stopTimer_bed _ _)))
  exact (State.fcSend_bed _ _ _ _).trans (State.macMod_bed _ _ _)

theorem execPauseRefresh_bed (b : BedIx) (p : LocalIx) (c) (s : State) : BedStepO b pos s (execPauseRefresh (some b) p c
    s) := by
  unfold execPauseRefresh macAt
  dsimp only
  exact .ite (.next ((State.fcSend_bed _ _ _ _).trans (State.startTimer_bed _ _ _))) (.next (.refl s))

theorem State.mmSet_bed (s : State) (b) (p) (st) (hb : b < 17 := by omega) (hp : p < 16 := by omega) : BedStep b pos s
    (State.mmSet s b p st) := by
  unfold State.mmSet
  exact ((State.wrf_bed _ _ _ _ _).trans (State.wrb_bed _ _ _ _)).trans (State.macMod_bed _ _ _)

theorem State.mmSend_bed (s : State) (b) (p) (respond) (hb : b < 17 := by omega) (hp : p < 16 := by omega) : BedStep b
    pos s (State.mmSend s b p respond) := by
  unfold State.mmSend
  exact BedStep.ite (((State.emit_bed _ _).trans (State.stat_bed _ _ _ _ _)).trans (State.wireControl_bed _ _ _))
    (BedStep.refl _)

theorem State.mmTimer_bed (s : State) (b) (p) : BedStep b pos s (State.mmTimer s b p) := by
  unfold State.mmTimer
  exact State.startTimer_bed _ _ _

theorem State.mmVerifying_bed (s : State) (b) (p) (hb : b < 17 := by omega) (hp : p < 16 := by omega) : BedStep b pos s
    (State.mmVerifying s b p) := by
  unfold State.mmVerifying
  exact (((State.mmSet_bed _ _ _ _).trans (State.wrf_bed _ _ _ _ _)).trans (State.mmSend_bed _ _ _ _)).trans
    (State.mmTimer_bed _ _ _)

theorem execMergeVerifyStart_bed (b : BedIx) (p : LocalIx) (s : State) : BedStepO b pos s (execMergeVerifyStart b p s) := by
  unfold execMergeVerifyStart
  exact BedStepO.ite (BedStepO.next (BedStep.ite (State.mmVerifying_bed _ _ _) (State.mmSet_bed _ _ _ _))) (BedStepO.next
    (BedStep.refl _))

theorem State.mmReceive_bed (s : State) (b) (p) (f) (hf : ∀ x, BedStep b pos x (f x)) (hb : b < 17 := by omega) (hp : p <
    16 := by omega) : BedStep b pos s (State.mmReceive s b p f) :=
  by
  unfold State.mmReceive
  exact BedStep.ite (BedStep.refl _) (BedStep.cut (fun h1 => BedStep.ite ((h1).trans (hf _)) (h1)) (State.stat_bed _ _ _
    _ _))

theorem execMergeRespondReceive_bed (b : BedIx) (p : LocalIx) (s : State) : BedStepO b pos s (execMergeRespondReceive b p
    s) := by
  unfold execMergeRespondReceive
  exact BedStepO.next (State.mmReceive_bed _ _ _ _ (fun _ => BedStep.ite (((State.mmSet_bed _ _ _ _).trans
    (State.stopTimer_bed _ _)).trans (State.raiseEvt_bed _ _ _)) (BedStep.refl _)))

theorem execMergeVerifyTimeout_bed (b : BedIx) (p : LocalIx) (s : State) : BedStepO b pos s (execMergeVerifyTimeout b p
    s) := by
  unfold execMergeVerifyTimeout
  exact BedStepO.ite (BedStepO.ite (BedStepO.next (((State.wrf_bed _ _ _ _ _).trans (State.mmSend_bed _ _ _ _)).trans
    (State.mmTimer_bed _ _ _))) (BedStepO.next (((State.mmSet_bed _ _ _ _).trans (State.stopTimer_bed _ _)).trans
    (State.raiseEvt_bed _ _ _)))) (BedStepO.next (BedStep.refl _))

theorem execMergeVerifyFrameReceive_bed (b : BedIx) (p : LocalIx) (s : State) : BedStepO b pos s
    (execMergeVerifyFrameReceive b p s) := by
  unfold execMergeVerifyFrameReceive
  exact BedStepO.next (State.mmReceive_bed _ _ _ _ (fun _ => BedStep.ite (State.mmSend_bed _ _ _ _) (BedStep.refl _)))

theorem State.signalFault_bed (s : State) (b) (p) : BedStep b pos s (State.signalFault s b p) := by
  unfold State.signalFault
  exact BedStep.ite (BedStep.refl _) (State.emit_bed _ _)

/-- Nothing is cut where nothing is sent in part. -/
theorem State.cutOpen_bed (s : State) (b p) (hp : p < 16 := by omega) : BedStep b pos s (State.cutOpen s b p) := fun h => by
  rw [State.cutOpen, h.closed p hp]
  exact BedStep.refl s h

theorem State.linkFault_bed (s : State) (b) (p) (v) (hb : b < 17 := by omega) (hp : p < 16 := by omega) : BedStep b pos s
    (State.linkFault s b p v) := by
  unfold State.linkFault
  have hi : (if v = 1 then 59 else 60) < 64 := by split <;> decide
  exact BedStep.ite (BedStep.refl _) (BedStep.cut (fun h1 => BedStep.ite ((((h1).trans (State.raiseEvt_bed _ _ _)).trans
    (State.stopTimer_bed _ _)).trans (State.portMod_bed _ _ _ _)) (BedStep.cut (fun h2 => BedStep.cut (fun h3 =>
    BedStep.cut (fun h4 => BedStep.ite ((h4).trans (State.startTimer_bed _ _ _)) (h4)) (((h3).trans (State.stat_bed _ _ _
    _ _)).trans (State.signalFault_bed _ _ _))) (((h2).trans (State.unsignal_bed _ _ _)).trans (State.raiseEvt_bed _ _
    _))) (BedStep.ite ((h1).trans (State.cutOpen_bed _ _ _)) (h1)))) (State.wrf_bed _ _ _ _ _))

theorem execRemoteFaultChange_bed (b : BedIx) (p : LocalIx) (remote) (s : State) : BedStepO b pos s
    (execRemoteFaultChange b p remote s) := by
  unfold execRemoteFaultChange
  exact BedStepO.ite (BedStepO.next (State.linkFault_bed _ _ _ _)) (BedStepO.next (BedStep.refl _))

theorem State.toDetect_bed (s : State) (b) (p) (hb : b < 17 := by omega) (hp : p < 16 := by omega) : BedStep b pos s
    (State.toDetect s b p) := by
  unfold State.toDetect
  exact BedStep.cut (fun h1 => BedStep.cut (fun h2 => ((h2).trans (State.startTimer_bed _ _ _)).trans
    (State.signalFault_bed _ _ _)) ((h1).trans (State.onLanes_bed _ _ _ _ (fun _ _ _ => ((State.lanePower_bed _ _
    _).trans (State.laneUntrain_bed _ _)).trans (State.laneMod_bed _ _ _))))) (State.pGo_bed _ _ _ _)

theorem State.toLock_bed (s : State) (b) (p) (hb : b < 17 := by omega) (hp : p < 16 := by omega) : BedStep b pos s
    (State.toLock s b p) := by
  unfold State.toLock
  exact (State.pGo_bed _ _ _ _).trans (State.startTimer_bed _ _ _)

theorem State.toDormant_bed (s : State) (b) (p) (hb : b < 17 := by omega) (hp : p < 16 := by omega) : BedStep b pos s
    (State.toDormant s b p) := by
  unfold State.toDormant
  exact BedStep.cut (fun h1 => BedStep.cut (fun h2 => (h2).trans (State.onLanes_bed _ _ _ _ (fun _ _ _ =>
    State.laneDormant_bed _ _))) (((h1).trans (State.stopTimer_bed _ _)).trans (State.linkFault_bed _ _ _ _)))
    (((State.pGo_bed _ _ _ _).trans (State.stopTimer_bed _ _)).trans (State.stopTimer_bed _ _))

theorem State.satInc16_bed (s : State) (off) (hi) (lo) (h : ¬ bedKept b pos off := by exact BedOff.out {}) : BedStep b
    pos s (State.satInc16 s off hi lo) := by
  unfold State.satInc16
  exact State.wrf_bed _ _ _ _ _

theorem State.toGap_bed (s : State) (b) (p) (lastFail) (hb : b < 17 := by omega) (hp : p < 16 := by omega) : BedStep b
    pos s (State.toGap s b p lastFail) := by
  unfold State.toGap
  exact BedStep.cut (fun h1 => BedStep.cut (fun h2 => BedStep.cut (fun h3 => (h3).trans (State.startTimer_bed _ _ _))
    ((h2).trans (State.portMod_bed _ _ _ _))) (((h1).trans (State.stopTimer_bed _ _)).trans (State.satInc16_bed _ _ _
    _))) (((State.pGo_bed _ _ _ _).trans (State.pStat_bed _ _ _ _ _ _)).trans (State.stopTimer_bed _ _))

theorem State.reformToGap_bed (s : State) (b) (p) (lastFail) (hb : b < 17 := by omega) (hp : p < 16 := by omega) :
    BedStep b pos s (State.reformToGap s b p lastFail) := by
  unfold State.reformToGap
  exact (((State.toGap_bed _ _ _ _).trans (State.wrb_bed _ _ _ _)).trans (State.pStat_bed _ _ _ _ _ _)).trans
    (State.pStat_bed _ _ _ _ _ _)

theorem State.toActive_bed (s : State) (b) (p) (hb : b < 17 := by omega) (hp : p < 16 := by omega) : BedStep b pos s
    (State.toActive s b p) := by
  unfold State.toActive
  exact BedStep.cut (fun h1 => BedStep.cut (fun h2 => BedStep.cut (fun h3 => BedStep.cut (fun h4 => ((h4).trans
    (State.shAck_bed _ _ _ _)).trans (State.raiseEvt_bed _ _ _)) (((h3).trans (State.shadowSet_bed _ _ _)).trans
    (State.wrb_bed _ _ _ _))) (((h2).trans (State.stopTimer_bed _ _)).trans (State.linkFault_bed _ _ _ _)))
    (((((h1).trans (State.pGo_bed _ _ _ _)).trans (State.pStat_bed _ _ _ _ _ _)).trans (State.pStat_bed _ _ _ _ _
    _)).trans (State.stopTimer_bed _ _))) (State.onLanes_bed _ _ _ _ (fun _ _ _ => State.laneStore_bed _ _))

theorem State.lockDone_bed (s : State) (b) (p) (hb : b < 17 := by omega) (hp : p < 16 := by omega) : BedStep b pos s
    (State.lockDone s b p) := by
  unfold State.lockDone
  exact BedStep.ite ((State.pGo_bed _ _ _ _).trans (State.startTimer_bed _ _ _)) (State.toActive_bed _ _ _)

theorem State.wakeLanes_bed (s : State) (b) (p) (hb : b < 17 := by omega) : BedStep b pos s (State.wakeLanes s b p) := by
  unfold State.wakeLanes
  exact BedStep.cut (fun h1 => (h1).trans (State.onLanes_bed _ _ _ _ (fun _ _ _ => State.laneUseStored_bed _ _)))
    (State.onLanes_bed _ _ _ _ (fun _ _ _ => State.lanePower_bed _ _ _))

theorem State.formDormant_bed (s : State) (b) (p) (hb : b < 17 := by omega) (hp : p < 16 := by omega) : BedStep b pos s
    (State.formDormant s b p) := by
  unfold State.formDormant
  exact BedStep.ite (BedStep.refl _) (BedStep.ite (BedStep.ite (State.toDormant_bed _ _ _) (BedStep.refl _)) (BedStep.ite
    (BedStep.ite (((State.pGo_bed _ _ _ _).trans (State.wakeLanes_bed _ _ _)).trans (State.startTimer_bed _ _ _))
    (State.toDetect_bed _ _ _)) (BedStep.refl _)))

theorem execPortDetectDone_bed (b : BedIx) (p : LocalIx) (s : State) : BedStepO b pos s (execPortDetectDone b p s) := by
  unfold execPortDetectDone
  exact BedStepO.ite (BedStepO.cut (fun h1 => BedStepO.ite (BedStepO.next (((h1).trans (State.pGo_bed _ _ _ _)).trans
    (State.startTimer_bed _ _ _))) (BedStepO.next ((h1).trans (State.toLock_bed _ _ _)))) (State.onLanes_bed _ _ _ _ (fun
    _ _ _ => State.laneUseBoard_bed _ _))) (BedStepO.next (BedStep.refl _))

theorem State.trainLanes_bed (s : State) (b p asks) (hb : b < 17 := by omega) :
    BedStep b pos s (State.trainLanes s b p asks) := by
  refine .foldl (.refl s) fun u e hu => ?_
  split
  · next hl =>
    have hbase := State.laneBase_in hu hb hl
    exact (State.laneTrain_bed _ _ _ : BedStep b pos u _) hu
  · exact BedStep.refl u hu

theorem execPortTrainDone_bed (b : BedIx) (p : LocalIx) (asks) (s : State) : BedStepO b pos s (execPortTrainDone b p asks
    s) := by
  unfold execPortTrainDone
  exact BedStepO.ite (BedStepO.next ((State.trainLanes_bed _ _ _ _).trans (State.toLock_bed _ _ _))) (BedStepO.next
    (BedStep.refl _))

theorem State.lockSpan_bed (s : State) (b) (p) (hb : b < 17 := by omega) : BedStep b pos s (State.lockSpan s b p) := by
  unfold State.lockSpan
  exact State.onLanes_bed _ _ _ _ (fun _ _ _ => State.laneLockAll_bed _ _)

theorem execPortLockDone_bed (b : BedIx) (p : LocalIx) (skewNs) (s : State) : BedStepO b pos s (execPortLockDone b p
    skewNs s) := by
  unfold execPortLockDone
  exact BedStepO.ite (BedStepO.ite (BedStepO.next ((State.lockSpan_bed _ _ _).trans (State.lockDone_bed _ _ _)))
    (BedStepO.ite (BedStepO.next (State.lockSpan_bed _ _ _)) (BedStepO.next (BedStep.refl _)))) (BedStepO.next
    (BedStep.refl _))

theorem execPortExchangeConfirm_bed (b : BedIx) (p : LocalIx) (form) (fec) (s : State) : BedStepO b pos s
    (execPortExchangeConfirm b p form
  fec s) := by
  unfold execPortExchangeConfirm
  exact BedStepO.ite (BedStepO.ite (BedStepO.next (State.toActive_bed _ _ _)) (BedStepO.ite (BedStepO.next
    (State.portMod_bed _ _ _ _)) (BedStepO.next (BedStep.refl _)))) (BedStepO.next (BedStep.refl _))

theorem execPortExchangeMismatch_bed (b : BedIx) (p : LocalIx) (form) (fec) (s : State) : BedStepO b pos s
    (execPortExchangeMismatch b p form
  fec s) := by
  unfold execPortExchangeMismatch
  exact BedStepO.ite (BedStepO.next (BedStep.refl _)) (BedStepO.ite (BedStepO.next ((State.toGap_bed _ _ _ _).trans
    (State.raiseEvt_bed _ _ _))) (BedStepO.ite (BedStepO.next ((State.reformToGap_bed _ _ _ _).trans (State.raiseEvt_bed
    _ _ _))) (BedStepO.next (BedStep.refl _))))

theorem execPortStageTimeout_bed (b : BedIx) (p : LocalIx) (s : State) : BedStepO b pos s (execPortStageTimeout b p s) := by
  unfold execPortStageTimeout
  exact BedStepO.ite (BedStepO.next ((State.toGap_bed _ _ _ _).trans (State.raiseEvt_bed _ _ _))) (BedStepO.next
    (BedStep.refl _))

theorem State.lossFields_bed (s : State) (b) (p) (lane) (hb : b < 17 := by omega) (hp : p < 16 := by omega) : BedStep b
    pos s (State.lossFields s b p lane) := by
  unfold State.lossFields
  exact ((State.pStat_bed _ _ _ _ _ _).trans (State.wrb_bed _ _ _ _)).trans (State.satInc16_bed _ _ _ _)

theorem State.choose_bed (s : State) (b) (p) (form) (first) (hb : b < 17 := by omega) : BedStep b pos s (State.choose s b
    p form first) := by
  unfold State.choose
  exact BedStep.cut (fun h1 => (h1).trans (State.onLanes_bed _ _ _ _ (fun _ _ _ => State.laneUseStored_bed _ _)))
    (State.portMod_bed _ _ _ _)

theorem State.portLoss_bed (s : State) (b) (p) (lane) (hb : b < 17 := by omega) (hp : p < 16 := by omega) : BedStep b pos
    s (State.portLoss s b p lane) := by
  unfold State.portLoss
  exact BedStep.ite (BedStep.cut (fun h1 => BedStep.cut (fun h2 => (by (try extract_lets); split; exact BedStep.cut (fun h3 => (h3).trans (State.startTimer_bed _ _ _)) ((((h2).trans (State.pGo_bed _ _ _ _)).trans (State.choose_bed _ _ _ _ _)).trans (State.linkFault_bed _ _ _ _)); exact ((h2).trans (State.toGap_bed _ _ _ _)).trans (State.linkFault_bed _ _ _ _))) (BedStep.ite ((h1).trans (State.wrb_bed _ _ _ _)) (h1))) ((State.lossFields_bed _ _ _ _).trans (State.raiseEvt_bed _ _ _))) (BedStep.ite (BedStep.cut (fun h4 => (by (try extract_lets); split; exact (h4).trans (State.choose_bed _ _ _ _ _); exact ((h4).trans (State.reformToGap_bed _ _ _ _)).trans (State.raiseEvt_bed _ _ _))) (State.lossFields_bed _ _ _ _)) (BedStep.refl _))

theorem State.lanesLost_bed (s : State) (b lost) (hb : b < 17 := by omega) : BedStep b pos s (State.lanesLost s b lost) := by
  unfold State.lanesLost
  extract_lets t
  have ht : BedStep b pos s t :=
    State.onLanes_bed _ _ _ _ fun _ _ _ => (State.laneUnlock_bed _ _).trans (State.laneMod_bed _ _ _)
  refine .foldlMem ht fun u p hp => ?_
  have hp16 := List.mem_range.1 hp
  split
  · exact State.portLoss_bed _ _ _ _
  · exact .refl u

theorem execLaneLockLoss_bed (b : BedIx) (lost) (s : State) : BedStepO b pos s (execLaneLockLoss b lost s) := by
  unfold execLaneLockLoss
  exact BedStepO.next (BedStep.ite (State.lanesLost_bed _ _ _) (BedStep.refl _))

theorem execReformDone_bed (b : BedIx) (p : LocalIx) (asks) (s : State) : BedStepO b pos s (execReformDone b p asks s) := by
  unfold execReformDone
  exact BedStepO.ite (BedStepO.next (((((State.trainLanes_bed _ _ _ _).trans (State.lockSpan_bed _ _ _)).trans
    (State.toActive_bed _ _ _)).trans (State.wrb_bed _ _ _ _)).trans (State.raiseEvt_bed _ _ _))) (BedStepO.next
    (BedStep.refl _))

theorem execReformLimitExpire_bed (b : BedIx) (p : LocalIx) (s : State) : BedStepO b pos s (execReformLimitExpire b p s)
    := by
  unfold execReformLimitExpire
  exact BedStepO.ite (BedStepO.next (State.reformToGap_bed _ _ _ _)) (BedStepO.next (BedStep.refl _))

theorem execGapRetry_bed (b : BedIx) (p : LocalIx) (s : State) : BedStepO b pos s (execGapRetry b p s) := by
  unfold execGapRetry
  exact BedStepO.ite (BedStepO.cut (fun h1 => BedStepO.ite (BedStepO.next ((h1).trans (State.toDetect_bed _ _ _)))
    (BedStepO.next ((((h1).trans (State.pGo_bed _ _ _ _)).trans (State.onLanes_bed _ _ _ _ (fun _ _ _ =>
    State.lanePower_bed _ _ _))).trans (State.raiseEvt_bed _ _ _)))) (State.stopTimer_bed _ _)) (BedStepO.next
    (BedStep.refl _))

theorem execDormantWakeDone_bed (b : BedIx) (p : LocalIx) (s : State) : BedStepO b pos s (execDormantWakeDone b p s) := by
  unfold execDormantWakeDone
  exact BedStepO.ite (BedStepO.next (((State.stopTimer_bed _ _).trans (State.toLock_bed _ _ _)).trans
    (State.formDormant_bed _ _ _))) (BedStepO.next (BedStep.refl _))

theorem execLaneRecovered_bed (b : BedIx) (l : LocalIx) (s : State) : BedStepO b pos s (execLaneRecovered b l s) := by
  intro t e h
  unfold execLaneRecovered at e
  split at e
  · next base hl =>
    have hbase := State.laneBase_in h b.isLt hl
    split at e <;> cases e
    · exact (((State.laneLockAll_bed _ _).trans (State.laneMod_bed _ _ _)).trans (State.raiseEvt_bed _ _ _)) h
    · exact BedStep.refl s h
  · cases e
    exact BedStep.refl s h

theorem execFaultHoldExpire_bed (b : BedIx) (p : LocalIx) (s : State) : BedStepO b pos s (execFaultHoldExpire b p s) := by
  unfold execFaultHoldExpire
  exact BedStepO.ite (BedStepO.next ((State.stopTimer_bed _ _).trans (State.portMod_bed _ _ _ _))) (BedStepO.next
    (BedStep.refl _))

theorem execGateAbandon_bed (b : BedIx) (p : LocalIx) (s : State) : BedStepO b pos s (execGateAbandon b p s) := fun t e h
    => by
  rw [execGateAbandon, h.closed p p.isLt] at e
  cases e
  exact BedStep.refl s h

/-- The two halves of the claim for one command. -/
theorem bed_frame_of {ps : List Part} {s t : State} {b : BedIx} {o : Host.Outcome State Fault Refusal} (hw : WithinO ps s o)
    (hs : BedStepO b s.swapPos s o) (ht : o = .next t)
    (hp : partSub ps [.draws, .outbox, .timers, .evWait, .pmuNext, .lanes, .ports, .macs, .shadow, .frames, .copies, .nextId,
      .mesh, .adm, .sched, .gates, .tel, .silt, .fates] = true := by rfl) :
    ((∀ p, p < 16 → (s.mac (16 * b.val + p)).openTx = none) →
      s.sameBut t bedParts ∧ ∀ x, ¬ inBed b x → (b.val = 16 → ¬ inBed s.swapPos x) → t.rd x = s.rd x) ∧
    s.sameBut t [.draws, .outbox, .timers, .evWait, .pmuNext, .lanes, .ports, .macs, .shadow, .frames, .copies, .nextId, .mesh,
      .adm, .sched, .gates, .tel, .silt, .fates] := by
  refine ⟨fun hc => ?_, ((hw t ht).mono hp).same⟩
  obtain ⟨-, hregs, hsame⟩ := hs t ht ⟨hc, fun _ => rfl⟩
  exact ⟨hsame, fun x hb hpos => hregs x (.inr ⟨hb, hpos⟩)⟩

/-- Settles O18: by the commands, each with the parts it changes and its `BedStep`. -/
theorem bedEventFrame : Obligations.BedEventFrame := by
  intro s t c b hc ht
  cases c
  case portDetectDone =>
    cases hc
    exact bed_frame_of (execPortDetectDone_within _ _ s) (execPortDetectDone_bed _ _ s) ht
  case portTrainDone =>
    cases hc
    exact bed_frame_of (execPortTrainDone_within _ _ _ s) (execPortTrainDone_bed _ _ _ s) ht
  case portLockDone =>
    cases hc
    exact bed_frame_of (execPortLockDone_within _ _ _ s) (execPortLockDone_bed _ _ _ s) ht
  case portExchangeConfirm =>
    cases hc
    exact bed_frame_of (execPortExchangeConfirm_within _ _ _ _ s) (execPortExchangeConfirm_bed _ _ _ _ s) ht
  case portExchangeMismatch =>
    cases hc
    exact bed_frame_of (execPortExchangeMismatch_within _ _ _ _ s) (execPortExchangeMismatch_bed _ _ _ _ s) ht
  case portStageTimeout =>
    cases hc
    exact bed_frame_of (execPortStageTimeout_within _ _ s) (execPortStageTimeout_bed _ _ s) ht
  case laneLockLoss =>
    cases hc
    exact bed_frame_of (execLaneLockLoss_within _ _ s) (execLaneLockLoss_bed _ _ s) ht
  case reformDone =>
    cases hc
    exact bed_frame_of (execReformDone_within _ _ _ s) (execReformDone_bed _ _ _ s) ht
  case reformLimitExpire =>
    cases hc
    exact bed_frame_of (execReformLimitExpire_within _ _ s) (execReformLimitExpire_bed _ _ s) ht
  case gapRetry =>
    cases hc
    exact bed_frame_of (execGapRetry_within _ _ s) (execGapRetry_bed _ _ s) ht
  case dormantWakeDone =>
    cases hc
    exact bed_frame_of (execDormantWakeDone_within _ _ s) (execDormantWakeDone_bed _ _ s) ht
  case laneRecovered =>
    cases hc
    exact bed_frame_of (execLaneRecovered_within _ _ s) (execLaneRecovered_bed _ _ s) ht
  case faultHoldExpire =>
    cases hc
    exact bed_frame_of (execFaultHoldExpire_within _ _ s) (execFaultHoldExpire_bed _ _ s) ht
  case pauseWatchdogTrip =>
    cases hc
    exact bed_frame_of (execPauseWatchdogTrip_within _ _ _ s) (execPauseWatchdogTrip_bed _ _ _ s) ht
  case watchdogHoldEnd =>
    cases hc
    exact bed_frame_of (execWatchdogHoldEnd_within _ _ _ s) (execWatchdogHoldEnd_bed _ _ _ s) ht
  case pauseSend bed _ =>
    cases bed with
    | none => cases hc
    | some b =>
      cases hc
      exact bed_frame_of (execPauseSend_within _ _ s) (execPauseSend_bed _ _ s) ht
  case pauseRefresh bed _ _ =>
    cases bed with
    | none => cases hc
    | some b =>
      cases hc
      exact bed_frame_of (execPauseRefresh_within _ _ _ s) (execPauseRefresh_bed _ _ _ s) ht
  case remoteFaultChange =>
    cases hc
    exact bed_frame_of (execRemoteFaultChange_within _ _ _ s) (execRemoteFaultChange_bed _ _ _ s) ht
  case mergeVerifyStart =>
    cases hc
    exact bed_frame_of (execMergeVerifyStart_within _ _ s) (execMergeVerifyStart_bed _ _ s) ht
  case mergeRespondReceive =>
    cases hc
    exact bed_frame_of (execMergeRespondReceive_within _ _ s) (execMergeRespondReceive_bed _ _ s) ht
  case mergeVerifyTimeout =>
    cases hc
    exact bed_frame_of (execMergeVerifyTimeout_within _ _ s) (execMergeVerifyTimeout_bed _ _ s) ht
  case mergeVerifyFrameReceive =>
    cases hc
    exact bed_frame_of (execMergeVerifyFrameReceive_within _ _ s) (execMergeVerifyFrameReceive_bed _ _ s) ht
  case gateAbandon =>
    cases hc
    exact bed_frame_of (execGateAbandon_within _ _ s) (execGateAbandon_bed _ _ s) ht
  all_goals cases hc

end Sys2Proof.Machine
end

section
/-! SUPPORT. Frame of the commands on frames inside the block: a selection hands over its port's shadow set, and that is written
through to the bed that is taking the position over, its gate lists with it. -/

set_option Elab.async false

namespace Sys2Proof.Machine

/-- A selection that takes place. -/
theorem execSelection_of_handEngine {s : State} {port : Fin 259} {turn : EngineTurn} (hline : s.lineOn = true)
    (hport : port.val ≠ 257) (hturn : s.handEngine port.val = some turn) :
    execSelection port s = .next ((s.selection port).schedMod fun h =>
      { h with turns := sset (fun _ => {}) h.turns (portPos port) turn }) := by
  unfold execSelection
  simp [hline, hport, hturn]

theorem State.gates_of_sameBut_schedMod {s t : State} {f : Sched → Sched} {ps : List Part} (h : s.sameBut (t.schedMod f) ps)
    (hp : .gates ∉ ps) : t.gates = s.gates := h .gates hp

/-- Port 18 has a frame to select and a pending generation; BED16 is in TAKEOVER of its position, whose bed holds a gate list entry
that BED16 does not. -/
def takeoverSelect : State :=
  let s := ((Tests.st13_5.wrf offSwapStatus 31 28 4).wrf offSwapStatus 27 24 1).wrb (schedIdBase (.net 1 2) + shGen) 30 true
  { s with gates := { s.gates with entries := [(32768 * 1, (5, 5))] } }

theorem takeoverSelect_lineOn : takeoverSelect.lineOn = true := by decide +kernel

theorem takeoverSelect_handEngine : (takeoverSelect.handEngine 18).isSome = true := by decide +kernel

theorem takeoverSelect_entries : (takeoverSelect.selection 18).gates.entries.length = 2 := by decide +kernel

/-- Refutes O27: the statement leaves the gate lists out. In `takeoverSelect` a selection hands over the port's shadow set, and BED16
picks up the gate lists of the bed it takes over (R244, R452, R454). -/
theorem not_trafficFrame : ¬ Obligations.TrafficFrame := by
  unfold Obligations.TrafficFrame
  intro h
  obtain ⟨turn, hturn⟩ := Option.isSome_iff_exists.1 takeoverSelect_handEngine
  have hexec := (exec_selection takeoverSelect).trans
    (execSelection_of_handEngine (port := 18) takeoverSelect_lineOn (by decide) hturn)
  have hgates := State.gates_of_sameBut_schedMod (h takeoverSelect _ (.selection 18) rfl hexec) (by decide)
  have hlen := takeoverSelect_entries
  rw [show ((18 : Fin 259) : Nat) = 18 from rfl] at hgates
  rw [hgates] at hlen
  exact absurd hlen (by decide)

end Sys2Proof.Machine
end

section
/-! SUPPORT. Clod records: what a change of a clod does to it, and that a clod's taking of its lists leaves its record. -/

set_option Elab.async false

namespace Sys2Proof.Machine

theorem State.clod_clodMod (s : State) (c : Nat) (g : Clod → Clod) (d : Nat) :
    (s.clodMod c g).clod d = if d = c then g (s.clod c) else s.clod d := sget_smod _ _ _ _ _

theorem State.clod_clodMod_same (s : State) (c : Nat) (g : Clod → Clod) : (s.clodMod c g).clod c = g (s.clod c) := by
  rw [State.clod_clodMod, if_pos rfl]

theorem State.clod_clodNow (s : State) (c : Nat) : (s.clodNow c).clod c = (s.clod c).upTo s.cycle :=
  State.clod_clodMod_same s c _

theorem State.clods_clodLeave (s : State) (port cls tier clod : Nat) :
    (s.clodLeave port cls tier clod).sched.clods = s.sched.clods := by
  unfold State.clodLeave
  dsimp only
  split
  · rfl
  · split <;> rfl

theorem State.clods_retierAt (s : State) (c port cls : Nat) (rejoin : Bool) :
    (s.retierAt c port cls rejoin).sched.clods = s.sched.clods := by
  unfold State.retierAt
  extract_lets tier here t
  have ht : t.sched.clods = s.sched.clods := by
    unfold t
    clear_value here
    cases here with
    | some i => exact State.clods_clodLeave _ _ _ _ _
    | none => rfl
  split
  · rfl
  · split
    · exact ht
    · exact ht

theorem State.clods_retier (s : State) (c : Nat) (rejoin : Bool) : (s.retier c rejoin).sched.clods = s.sched.clods := by
  unfold State.retier
  generalize s.clodPlaces c = places
  induction places generalizing s with
  | nil => rfl
  | cons e places ih => exact (ih _).trans (State.clods_retierAt _ _ _ _ _)

theorem State.clod_retier (s : State) (c : Nat) (rejoin : Bool) (d : Nat) : (s.retier c rejoin).clod d = s.clod d :=
  congrArg (sget _ · d) (State.clods_retier s c rejoin)

/-- A committed clod record (R236, R237). -/
theorem State.clod_applyShadow (s : State) (c : Nat) (ws : List Word) :
    (s.applyShadow (.clod c ws false)).clod c =
      let k := (s.clod c).upTo s.cycle
      let cbs := fld 23 0 (ws.getD 2 0)
      let pbs := fld 23 0 (ws.getD 3 0)
      { k with
        cir := (ws.getD 0 0).toNat, pir := (ws.getD 1 0).toNat, weight := fld 31 24 (ws.getD 2 0), cbs := cbs,
        en := bit 31 (ws.getD 3 0), pbs := pbs, tc := min k.tc (16 * cbs : Nat)
        tp := if ws.getD 1 0 = 0xFFFFFFFF then (16 * pbs : Nat) else min k.tp (16 * pbs : Nat) } := by
  unfold State.applyShadow
  simp only [State.clod_retier, State.clod_clodMod_same, State.clod_clodNow, Bool.false_or, beq_iff_eq, Bool.false_eq_true,
    if_false]

/-- Settles O15. -/
theorem committedBucketSizesClip : Obligations.CommittedBucketSizesClip := by
  intro s c ws
  rw [State.clod_applyShadow]
  refine ⟨rfl, rfl, rfl, rfl, rfl, fun h => Int.min_eq_left (by simpa using h), fun h => ?_, fun hpir h => ?_, fun hpir h => ?_,
    fun hpir => ?_⟩
  · exact (Int.min_eq_right (by simpa using Int.le_of_lt h)).trans (by simp)
  · exact (if_neg hpir).trans (Int.min_eq_left (by simpa using h))
  · exact ((if_neg hpir).trans (Int.min_eq_right (by simpa using Int.le_of_lt h))).trans (by simp)
  · exact (if_pos hpir).trans (by simp)

end Sys2Proof.Machine
end

section
/-! SUPPORT. How an access to an aligned word ends (R45, R54, R66). -/

set_option Elab.async false

namespace Sys2Proof.Machine

variable {s : State} {off : Nat}

theorem State.door_shut (h : s.hostOn = false) : s.door off = .shut := by simp [State.door, h]

theorem State.door_absent (h : s.hostOn = true) (hp : s.present off = false) : s.door off = .absent := by
  simp [State.door, h, hp]

theorem State.door_down (h : s.hostOn = true) (hp : s.present off = true) (hr : s.reach off = false) : s.door off = .down := by
  simp [State.door, h, hp, hr]

theorem State.hostOn_of_reach (h : s.reach off = true) : s.hostOn = true := (Bool.and_eq_true_iff.1 h).1

theorem State.door_through (h : s.serves off) : s.door off = .through := by
  obtain ⟨hr, hp⟩ := h
  simp [State.door, State.hostOn_of_reach hr, hp, hr]

theorem State.outbox_readEffect (s : State) (off : Nat) : (s.readEffect off).outbox = s.outbox := by
  have hw := s.readEffect_within off
  exact hw.same .outbox (by decide)

/-- A write of all four bytes of an aligned word goes through the register's unit. -/
theorem execRegisterWrite_aligned {a : BitVec 26} {be : BitVec 4} (v : Word) (hbe : be = 0xF) (ha : a.toNat % 4 = 0) :
    execRegisterWrite a v be s = .next (s.cfg a.toNat fun s => s.regWrite false a.toNat v) := by
  simp [execRegisterWrite, hbe, ha]

/-- A narrow or misaligned write. -/
theorem execRegisterWrite_bad {a : BitVec 26} {be : BitVec 4} (v : Word) (h : be ≠ 0xF ∨ a.toNat % 4 ≠ 0) :
    execRegisterWrite a v be s = .next (if s.hostOn then s.answer true 0 else s) := by
  have hc : (be ≠ 0xF || a.toNat % 4 ≠ 0) = true := by simpa using h
  rw [execRegisterWrite]
  exact if_pos hc

theorem State.cfg_shut (f : State → State) (h : s.door off = .shut) : s.cfg off f = s := by
  rw [State.cfg, h]

theorem State.cfg_absent (f : State → State) (h : s.door off = .absent) : s.cfg off f = s.answer false 0 := by
  rw [State.cfg, h]

theorem State.cfg_down (f : State → State) (h : s.door off = .down) : s.cfg off f = s.answer true 0 := by
  rw [State.cfg, h]

theorem State.cfg_through (f : State → State) (h : s.door off = .through) :
    s.cfg off f = (s.writeThrough (f s) off).answer false 0 := by
  rw [State.cfg, h]

theorem State.hostRead_bad {a : BitVec 26} {be : BitVec 4} (h : be ≠ 0xF ∨ a.toNat % 4 ≠ 0) :
    s.hostRead a be = if s.hostOn then s.answer true 0 else s := by
  have hc : (be ≠ 0xF || a.toNat % 4 ≠ 0) = true := by simpa using h
  rw [State.hostRead]
  exact if_pos hc

/-- A read of all four bytes of an aligned word goes by its door. -/
theorem State.hostRead_aligned {a : BitVec 26} {be : BitVec 4} (hbe : be = 0xF) (ha : a.toNat % 4 = 0) :
    s.hostRead a be = match s.door a.toNat with
      | .shut => s
      | .absent => s.answer false 0
      | .down => s.answer true 0
      | .through => (s.readEffect a.toNat).answer false (s.view a.toNat) := by
  have hc : ¬ (be ≠ 0xF || a.toNat % 4 ≠ 0) = true := by simp [hbe, ha]
  rw [State.hostRead]
  exact if_neg hc

/-- While the host island is not ON, an access has no effect, aligned or not. -/
theorem State.hostRead_shut (a : BitVec 26) (be : BitVec 4) (h : s.hostOn = false) : s.hostRead a be = s := by
  by_cases hbad : be ≠ 0xF ∨ a.toNat % 4 ≠ 0
  · rw [State.hostRead_bad hbad, h]
    rfl
  · obtain ⟨hbe, ha⟩ : be = 0xF ∧ a.toNat % 4 = 0 := by simpa using hbad
    rw [State.hostRead_aligned hbe ha, State.door_shut h]

theorem execRegisterWrite_shut (a : BitVec 26) (v : Word) (be : BitVec 4) (h : s.hostOn = false) :
    execRegisterWrite a v be s = .next s := by
  by_cases hbad : be ≠ 0xF ∨ a.toNat % 4 ≠ 0
  · rw [execRegisterWrite_bad v hbad, h]
    rfl
  · obtain ⟨hbe, ha⟩ : be = 0xF ∧ a.toNat % 4 = 0 := by simpa using hbad
    rw [execRegisterWrite_aligned v hbe ha, State.cfg_shut _ (State.door_shut h)]

/-- Settles O16: by how the access ends. -/
theorem accessOutcomes : Obligations.AccessOutcomes := by
  intro s t a v be
  refine ⟨fun ht => ?_, fun ht => ?_⟩
  · rw [exec_registerWrite] at ht
    refine ⟨fun hoff => ?_, fun hon hbad => ?_, fun hon hbe ha hp => ?_, fun hon hbe ha hp hr => ?_, fun hs hbe ha => ?_⟩
    · rw [execRegisterWrite_shut a v be hoff] at ht
      cases ht
      rfl
    · rw [execRegisterWrite_bad v hbad, hon] at ht
      cases ht
      rfl
    · rw [execRegisterWrite_aligned v hbe ha, State.cfg_absent _ (State.door_absent hon hp)] at ht
      cases ht
      rfl
    · rw [execRegisterWrite_aligned v hbe ha, State.cfg_down _ (State.door_down hon hp hr)] at ht
      cases ht
      rfl
    · rw [execRegisterWrite_aligned v hbe ha, State.cfg_through _ (State.door_through hs)] at ht
      cases ht
      rfl
  · subst ht
    refine ⟨fun hoff => s.hostRead_shut a be hoff, fun hon hbad => ?_, fun hon hbe ha hp => ?_, fun hon hbe ha hp hr => ?_,
      fun hs hbe ha => ?_⟩
    · rw [State.hostRead_bad hbad, hon]
      rfl
    · rw [State.hostRead_aligned hbe ha, State.door_absent hon hp]
    · rw [State.hostRead_aligned hbe ha, State.door_down hon hp hr]
    · rw [State.hostRead_aligned hbe ha, State.door_through hs]
      exact congrArg (_ :: ·) (s.outbox_readEffect _)

end Sys2Proof.Machine
end

section
/-! SUPPORT. Statements that fail in states whose tables hold what no run puts there: the statements are about every state, and the
model uses some numbers that the state holds as they stand. -/

set_option Elab.async false

namespace Sys2Proof.Machine

/-- What a statement says of the state a command leads to, of the state it is known to lead to. -/
theorem State.of_completes {s u : State} {c : Instr} {P : State → Prop} (h : s.completes c P) (hu : exec c s = .next u) : P u := by
  obtain ⟨t, ht, hp⟩ := h
  cases ht.symm.trans hu
  exact hp

/-! ## A frame in a tier that there is not -/

/-- Port 0 of bed 0 has no link fault and has sent a frame in part; the frame lies in a tier whose occupancy would be counted in
the register at an offset. -/
def State.strayFrame (s : State) (off : Nat) : State :=
  { s.wrf (offMacFault 0 0) 31 30 0 with
    macs := [(0, { openTx := some { copy := 1, sent := 0, frags := 0, number := 0, minFrag := 64, ipg := 12 } })]
    copies := [(1, some { frame := 1, port := 0, cls := 0, clod := 0, flow := 0 })]
    frames := [(1, some { bytes := [0], src := 256, tier := (off - offTierOcc 0 0) / 0x20 })] }

/-- Every island ON, bed 0's role served, and its port 0 with such a frame in FORM. -/
def strayTier : State := ((Tests.up Tests.start).wrb (offRoleStatus 0) 31 true).strayFrame (offPortForm 0 0)

theorem strayTier_serves : strayTier.serves (offPortForm 0 0) := by decide +kernel

theorem strayTier_formOk : strayTier.formOk 0 0 5 4 = true := by decide +kernel

theorem strayTier_form : (strayTier.cfg (offPortForm 0 0) fun s => s.formWrite 0 0 0x45).pForm 0 0 = 4 := by decide +kernel

/-- Refutes O29: in `strayTier` a write of FORM 5 cuts the frame that the port has sent in part, and freeing its one grain takes 1
from FORM. -/
theorem not_portBringUpAdvances : ¬ Obligations.PortBringUpAdvances := by
  unfold Obligations.PortBringUpAdvances
  intro h
  obtain ⟨hwrite, -⟩ := h strayTier 0 0
  obtain ⟨hform, -⟩ := State.of_completes (hwrite 0x45 strayTier_serves strayTier_formOk) rfl
  exact absurd (hform.symm.trans strayTier_form) (by decide)

/-- Every island ON, port 0 of bed 0 ACTIVE with its lane, which is in TEST all the same, and with such a frame in the lane's
EVT. -/
def strayLaneTier : State :=
  (((((Tests.up Tests.start).wrf (offPortStatus 0 0) 31 28 5).wrf (offPortStatus 0 0) 3 0 1).wrf (offLaneCtl 0 0) 1 0 1).portMod
    0 0 fun q => { q with form := 1 }).strayFrame (lnEvt (offLaneCtl 0 0))

theorem strayLaneTier_laneAt : strayLaneTier.laneAt (.net 0 0) = some (offLaneCtl 0 0) := by decide +kernel

theorem strayLaneTier_serves : strayLaneTier.serves (laneWindow (.net 0 0)) := by decide +kernel

theorem strayLaneTier_laneSpanned : strayLaneTier.laneSpanned (offLaneCtl 0 0) = true := by decide +kernel

theorem strayLaneTier_evt : (strayLaneTier.laneCfg (.net 0 0) 0 fun s base =>
    s.laneCtlWrite base (setFld 1 0 1 0)).rdb (lnEvt (offLaneCtl 0 0)) 4 = false := by decide +kernel

/-- Refutes O31: in `strayLaneTier` a request for TEST is refused and raises the lane's event, and the lane then leaves TEST, which
cuts the frame that its port has sent in part; freeing its one grain takes 1 from EVT, which clears the bit. -/
theorem not_laneCommandsAct : ¬ Obligations.LaneCommandsAct := by
  unfold Obligations.LaneCommandsAct
  intro h
  obtain ⟨-, -, htest, -⟩ := h strayLaneTier (.net 0 0) _ strayLaneTier_laneAt
  obtain ⟨-, hevt⟩ := State.of_completes (htest 0 strayLaneTier_serves (by decide) strayLaneTier_laneSpanned) rfl
  exact absurd (hevt.symm.trans strayLaneTier_evt) (by decide)

/-! ## An ACTIVE port of a line island that is not ON -/

/-- The line island is not ON, and PORT.STATUS of bed 0's port 0 says ACTIVE with one lane. -/
def activeWithoutLine : State := (Tests.start.wrf (offPortStatus 0 0) 31 28 5).wrf (offPortStatus 0 0) 3 0 1

theorem activeWithoutLine_lineOn : activeWithoutLine.lineOn = false := by decide +kernel

theorem activeWithoutLine_pState : activeWithoutLine.pState 0 0 = 5 := by decide +kernel

theorem activeWithoutLine_runLanes : 0 ∈ activeWithoutLine.runLanes 0 0 := by decide +kernel

/-- Refutes O30: LANE_LOCK_LOSS has no effect while the line island is not ON, and its clause has no premise that it is. -/
theorem not_portLossAndRetry : ¬ Obligations.PortLossAndRetry := by
  unfold Obligations.PortLossAndRetry
  intro h
  obtain ⟨-, -, hloss, -⟩ := h activeWithoutLine 0 0
  have hexec : exec (.laneLockLoss 0 1) activeWithoutLine = .next activeWithoutLine := by
    rw [exec_laneLockLoss, execLaneLockLoss, activeWithoutLine_lineOn]
    rfl
  obtain ⟨hstate, -⟩ := State.of_completes (hloss 1 0 rfl activeWithoutLine_pState activeWithoutLine_runLanes) hexec
  obtain hstate | hstate := hstate
  · exact absurd (activeWithoutLine_pState.symm.trans hstate) (by decide)
  · exact absurd (activeWithoutLine_pState.symm.trans hstate) (by decide)

/-! ## A malformed code that there is not -/

/-- A frame waits for its tail check with code 20 in its parse result, whose counter would be the tail checks' own. -/
def strayCode : State :=
  { Tests.start with frames := [(1, some { bytes := [0], src := 256, tail := true, parse := { code := 20 } })] }

/-- Refutes O35: in `strayCode` a tail check counts twice in its counter. -/
theorem not_receiveAndParseAct : ¬ Obligations.ReceiveAndParseAct := by
  unfold Obligations.ReceiveAndParseAct
  intro h
  obtain ⟨-, -, -, -, -, -, htail, -⟩ := h strayCode
  obtain ⟨-, -, -, hcnt⟩ := State.of_completes (htail 1 _ rfl rfl (by decide)) rfl
  exact absurd hcnt (by decide +kernel)

/-! ## A copy that its destination position discards -/

/-- Every island ON; a copy's flow is bound to another port, and its frame lies in a tier whose occupancy would be counted in the
counter of such discards. -/
def strayCopy : State :=
  { Tests.up Tests.start with
    copies := [(1, some { frame := 1, port := 0, cls := 0, clod := 0, flow := 0 })]
    frames := [(1, some { bytes := [0], src := 256, path := .copies, tier := (offSchedPoscnt 0 0 - offTierOcc 0 0) / 0x20 })]
    sched := { flows := [(0, { port := 1, q := [2] })] } }

/-- Refutes O40: in `strayCopy` an enqueue counts the discard, and freeing the frame's one grain takes it back. -/
theorem not_queuesAndRecordsAct : ¬ Obligations.QueuesAndRecordsAct := by
  unfold Obligations.QueuesAndRecordsAct
  intro h
  obtain ⟨-, hdrop, -⟩ := h strayCopy
  obtain ⟨-, hcnt⟩ := State.of_completes
    (hdrop 1 _ 0 rfl (by decide +kernel) (by decide +kernel) (by decide +kernel)) rfl
  exact absurd hcnt (by decide +kernel)

end Sys2Proof.Machine
end

section
/-! SUPPORT. A command that is refused still sets its register's status bit, and a bed that takes a position over then picks up all
of the image of the bed it takes it from, rules and all (R452, R454). -/

set_option Elab.async false

namespace Sys2Proof.Machine

/-- Every island ON, and BED16 in TAKEOVER of position 0, whose bed's rule tables are busy and hold a rule that BED16's do not. -/
def takeoverRule : State :=
  let s := ((Tests.up Tests.start).wrf offSwapStatus 31 28 4).wrb (offMeshEpoch 0) 22 true
  { s with mesh := { s.mesh with rules := [(0, some { key := [], mask := [], act := [], valid := false, override := false })] } }

theorem takeoverRule_serves : takeoverRule.serves (offMeshTblCmd 0) := by decide +kernel

theorem takeoverRule_busy : takeoverRule.meshBusy 0 = true := by decide +kernel

theorem takeoverRule_rules : ((takeoverRule.cfg (offMeshTblCmd 0) fun s => (s.tblOp 0 2).tblClear 0).mesh.rules).length = 2 := by
  decide +kernel

/-- Refutes O37: in `takeoverRule` a refused TBL_CMD leaves bed 0's rules and gives BED16 a copy of them. -/
theorem not_commitsAndRulesAct : ¬ Obligations.CommitsAndRulesAct := by
  unfold Obligations.CommitsAndRulesAct
  intro h
  obtain ⟨-, -, -, -, -, -, -, -, -, -, -, hclear, -⟩ := h takeoverRule 0
  obtain ⟨t, ht, hrules, -⟩ := hclear takeoverRule_serves takeoverRule_busy
  cases ht
  exact absurd ((congrArg List.length hrules).symm.trans takeoverRule_rules) (by decide)

end Sys2Proof.Machine
end

section
/-! SUPPORT. A refused write of a gate list sets GATE_STATUS of its bed, and a bed that takes a position over then picks up all of
the image of the bed it takes it from, gate entries too (R452, R454). -/

set_option Elab.async false

namespace Sys2Proof.Machine

/-- Every island ON, BED16 in TAKEOVER of position 0, whose bed has a gate entry that BED16 has not, and GATE.ADDR of bed 0 naming
an active list. -/
def takeoverEntry : State :=
  let s := ((Tests.up Tests.start).wrf offSwapStatus 31 28 4).wrb (offGateAddr 0) 31 true
  { s with gates := { s.gates with entries := [(0, (1, 1))] } }

theorem takeoverEntry_serves : takeoverEntry.serves (offGateCmd 0) := by decide +kernel

theorem takeoverEntry_active : takeoverEntry.rdb (offGateAddr 0) 31 = true := by decide +kernel

theorem takeoverEntry_entries :
    (takeoverEntry.cfg (offGateCmd 0) fun s => s.gateListWrite 0).gates.entries.length = 2 := by
  decide +kernel

/-- Refutes O42: in `takeoverEntry` a refused write of bed 0's list gives BED16 a copy of bed 0's entries. -/
theorem not_gatesAct : ¬ Obligations.GatesAct := by
  unfold Obligations.GatesAct
  intro h
  obtain ⟨-, -, -, -, -, -, -, -, -, -, -, -, hrefused⟩ := h takeoverEntry 0 0
  obtain ⟨t, ht, hentries, -⟩ := hrefused takeoverEntry_serves (.inl takeoverEntry_active)
  cases ht
  exact absurd ((congrArg List.length hentries).symm.trans takeoverEntry_entries) (by decide)

end Sys2Proof.Machine
end

section
/-! SUPPORT. The engine fetches no more than eight descriptors at a time (R321), so a longer run that arrives is taken in part. -/

set_option Elab.async false

namespace Sys2Proof.Machine

/-- Transmit ring 0 is RUNNING with nine descriptors posted. -/
def ninePosted : State := (Tests.start.wrf (rgStatus 0) 31 30 1).wr (rgSeen 0) 9

/-- Nine descriptors with nothing in them. -/
def nineDescs : List (List Word × List Byte) := List.replicate 9 ([], [])

theorem ninePosted_running : ninePosted.ringState 0 = 1 := by decide +kernel

theorem ninePosted_posted : nineDescs.length ≤ cntDiff (ninePosted.seen 0) (ninePosted.nextOf 0) := by decide +kernel

/-- Eight of the nine are taken. -/
theorem ninePosted_taken :
    (match execTxDescArrive 0 nineDescs ninePosted with | .next t => t.nextOf 0 | _ => 0) = 8 := by
  decide +kernel

/-- Refutes O47: of nine descriptors that arrive in `ninePosted`, NEXT passes eight. -/
theorem not_hostDataPathActs : ¬ Obligations.HostDataPathActs := by
  unfold Obligations.HostDataPathActs
  intro h
  obtain ⟨harrive, -⟩ := h ninePosted 0
  obtain ⟨t, ht, hnext⟩ := harrive nineDescs ninePosted_running ninePosted_posted
  have htaken := ninePosted_taken
  rw [show execTxDescArrive 0 nineDescs ninePosted = .next t from ht] at htaken
  exact absurd (hnext.symm.trans htaken) (by decide +kernel)

end Sys2Proof.Machine
end

section
/-! SUPPORT. A pulse reaches the beds in turn, so a bed that takes a position over has picked up the new bank of the bed it takes it
from (R454) before the pulse commits its own (R372). -/

set_option Elab.async false

namespace Sys2Proof.Machine

/-- Every island ON, BED16 in TAKEOVER of position 0, MESH.CTL of both beds bound to line 0, and a pulse waiting on it. -/
def takeoverPulse : State :=
  let s := (((Tests.up Tests.start).wrf offSwapStatus 31 28 4).wrb (offMeshCtl 0) 30 true).wrb (offMeshCtl 16) 30 true
  { s with fabric := [(0, 1)] }

theorem takeoverPulse_waits : sget (fun _ => 0) takeoverPulse.fabric 0 ≠ 0 := by decide +kernel

theorem takeoverPulse_lineOn : takeoverPulse.lineOn = true := by decide +kernel

theorem takeoverPulse_bed : takeoverPulse.bedOn 16 = true ∧ takeoverPulse.rdb (offMeshCtl 16) 30 = true ∧
    takeoverPulse.rdf (offMeshCtl 16) 29 24 = 0 ∧ takeoverPulse.meshBusy 16 = false ∧ takeoverPulse.meshBank 16 = 0 := by
  decide +kernel

/-- The pulse leaves BED16 on bank 0. -/
theorem takeoverPulse_bank : (match execFabricPulse 0 takeoverPulse with | .next t => t.meshBank 16 | _ => 1) = 0 := by
  decide +kernel

/-- Refutes O49: in `takeoverPulse` BED16 takes bed 0's bank and then commits, and is on the bank it had before. -/
theorem not_fabricAndAssayAct : ¬ Obligations.FabricAndAssayAct := by
  unfold Obligations.FabricAndAssayAct
  intro h
  obtain ⟨-, hcommit, -⟩ := h takeoverPulse
  obtain ⟨hon, hbound, hline, hbusy, hbank⟩ := takeoverPulse_bed
  obtain ⟨t, ht, hflip⟩ := hcommit 0 16 takeoverPulse_waits takeoverPulse_lineOn rfl hon hbound hline hbusy (by decide)
  have hkept := takeoverPulse_bank
  rw [show execFabricPulse 0 takeoverPulse = .next t from ht] at hkept
  have hzero : t.meshBank 16 = 0 := hkept
  exact absurd (hzero.symm.trans (hflip.trans (congrArg (1 - ·) hbank))) (by decide)

end Sys2Proof.Machine
end

section
/-! SUPPORT. Where a channel's table entry stands behind a greater key, a change of the channel goes before it and leaves the old
entry, which still counts as an outstanding read (R322, R365). -/

set_option Elab.async false

namespace Sys2Proof.Machine

/-- The words of a descriptor of 64 bytes from region 2 that is not the last of its chain. -/
def chainedWords : List Word := [0x02000000, 0, 0, 64]

/-- That descriptor as channel 0 takes it. -/
def chained : AugDesc := { num := 1, addr := 0, words := chainedWords, index := [] }

/-- Every island ON, region 2 exported and window 0 open; channel 0 is BUSY and fetches a descriptor, its entry behind that of
channel 1; with the records of 511 rings 512 reads are outstanding. -/
def fullReads : State :=
  let s := (((Tests.up Tests.start).wrb offAugExport 0 true).wrb (offImportCtl 0) 31 true).wr (offImportSize 0) 1
  let s := s.wrf (offChState 0) 31 30 1
  { s with
    aug := [(1, { nextNum := 1 }), (0, { fetch := some (.next, 0), nextNum := 1 })]
    rings := { s.rings with rings := (List.range 511).map fun k => (k, { fetching := true }) } }

theorem fullReads_fits : fullReads.augState 0 = 1 ∧ fullReads.augPause 0 = false ∧ chained.bad = false ∧
    chained.last = false ∧ fullReads.augStartBad chained = none ∧ fullReads.readsOut ≤ 512 := by
  decide +kernel

/-- The next descriptor's fetch waits. -/
theorem fullReads_waits : (match execAugDescArrive 0 chainedWords [] false fullReads with
    | .next t => t.outbox.length | _ => 1) = fullReads.outbox.length := by
  decide +kernel

/-- Refutes O48: in `fullReads` the fetch that follows the arrived descriptor is not issued. -/
theorem not_augerChannelsAct : ¬ Obligations.AugerChannelsAct := by
  unfold Obligations.AugerChannelsAct
  intro h
  obtain ⟨-, -, -, -, -, -, -, -, -, -, -, -, harrive, -⟩ := h fullReads 0
  obtain ⟨hbusy, hgoes, hgood, hmore, hfit, hreads⟩ := fullReads_fits
  obtain ⟨t, ht, -, -, -, hout⟩ := harrive chainedWords [] 0 chained hbusy rfl rfl rfl hgoes rfl rfl hgood hmore hfit rfl hreads
  have hwaits := fullReads_waits
  rw [show execAugDescArrive 0 chainedWords [] false fullReads = .next t from ht] at hwaits
  have hlength : t.outbox.length = fullReads.outbox.length := hwaits
  exact absurd (hlength.symm.trans (congrArg List.length hout)) (by simp)

end Sys2Proof.Machine
end

section
/-! SUPPORT. The frame in a stray tier of `State.strayFrame`, cut at an engine's safe point. -/

set_option Elab.async false

namespace Sys2Proof.Machine

/-- Every island ON and engine 0 RUNNING bed 0's role, with a store of safe-point words; bed 0's port 0 is owed a change of its FORM
and has a frame in part in a tier whose occupancy would be counted in the engine's STATUS. -/
def straySafePoint : State :=
  ((((Tests.up Tests.start).wr (offEngStatus 0) (w32 (3 * 2 ^ 29))).engMod 0 fun _ =>
    { store := List.replicate 8 (BitVec.ofNat 96 (7 * 2 ^ 91)) }).portMod 0 0 fun q => { q with owed := some [] }).strayFrame
      (offEngStatus 0)

theorem straySafePoint_runs : straySafePoint.engState 0 = 3 ∧ straySafePoint.rdf (offEngStatus 0) 28 24 = 0 ∧
    ((straySafePoint.eng 0).store.getD 5 0).toNat / 2 ^ 91 = 7 ∧ (straySafePoint.role 0).abort = false ∧
    (straySafePoint.role 0).wake = false ∧ straySafePoint.rdb (offRoleStatus 0) 30 = false := by
  decide +kernel

theorem straySafePoint_address : (match execSafePoint 0 5 0 [] [] straySafePoint with
    | .next t => t.rdf (offEngStatus 0) 13 0 | _ => 5) = 4 := by
  decide +kernel

/-- Refutes O53: in `straySafePoint` the safe point has the port's frame cut, and freeing its one grain takes 1 from the address that
the engine's STATUS shows. -/
theorem not_rolesAndEnginesAct : ¬ Obligations.RolesAndEnginesAct := by
  unfold Obligations.RolesAndEnginesAct
  intro h
  obtain ⟨-, -, -, -, -, -, -, hsafe, -⟩ := h straySafePoint 0 0
  obtain ⟨hrunning, hrole, hword, habort, hwake, hhandover⟩ := straySafePoint_runs
  obtain ⟨t, ht, -, haddr, -⟩ := hsafe 5 0 [] [] hrunning hrole hword habort hwake hhandover
  have hlower := straySafePoint_address
  rw [show execSafePoint 0 5 0 [] [] straySafePoint = .next t from ht] at hlower
  have hfour : t.rdf (offEngStatus 0) 13 0 = 4 := hlower
  exact absurd (hfour.symm.trans haddr) (by decide)

end Sys2Proof.Machine
end

section
/-! SUPPORT. A block without SAFETY_PACK raises no event of it (R54), and some clauses that promise one have no premise that the
pack is there. -/

set_option Elab.async false

namespace Sys2Proof.Machine

/-- The block right after power-on reset, built without any option. -/
def State.withoutOptions (s : State) : State := { s with pwr := { s.pwr with options := 0 } }

/-- No option is built, and a swap in SHADOW has used up its retries. -/
def barrenShadow : State := (Tests.start.withoutOptions.wrf offSwapStatus 31 28 4).wrf offSwapStatus 23 22 3

theorem barrenShadow_last : barrenShadow.swapState = 4 ∧ barrenShadow.rdf offSwapStatus 23 22 = 3 := by decide +kernel

theorem barrenShadow_evt : barrenShadow.shadowMiss.rdb offSafeEvt 5 = false := by decide +kernel

/-- Refutes O55: in `barrenShadow` the swap ends without its event. -/
theorem not_swapActs : ¬ Obligations.SwapActs := by
  unfold Obligations.SwapActs
  intro h
  obtain ⟨-, -, -, -, -, -, -, -, -, hmiss, -⟩ := h barrenShadow
  obtain ⟨hshadow, hlast⟩ := barrenShadow_last
  obtain ⟨-, -, hevt⟩ := State.of_completes (hmiss hshadow hlast) rfl
  exact absurd (hevt.symm.trans barrenShadow_evt) (by decide)

/-- No option is built, MEM0's role is served, and channel 0 of stack 0 is being copied to its spare. -/
def barrenRepair : State :=
  let s := Tests.start.withoutOptions.wrb (offRoleStatus 21) 31 true
  { s with harm := { s.harm with repairs := [(0, 32)] } }

theorem barrenRepair_served : barrenRepair.roleServed 21 = true := by decide +kernel

theorem barrenRepair_evt : (match execSubsoilRepairDone 0 0 barrenRepair with
    | .next t => t.rdb offSafeEvt 7 | _ => true) = false := by
  decide +kernel

/-- Refutes O56: in `barrenRepair` the copy ends without its event. -/
theorem not_serviceActs : ¬ Obligations.ServiceActs := by
  unfold Obligations.ServiceActs
  intro h
  obtain ⟨-, -, -, -, -, hdone, -⟩ := h barrenRepair
  obtain ⟨t, ht, -, -, hevt⟩ := hdone 0 0 barrenRepair_served rfl
  have hsilent := barrenRepair_evt
  rw [show execSubsoilRepairDone 0 0 barrenRepair = .next t from ht] at hsilent
  have hclear : t.rdb offSafeEvt 7 = false := hsilent
  exact absurd (hclear.symm.trans hevt) (by decide)

end Sys2Proof.Machine
end

section
/-! SUPPORT. A harm's fence discards the frames of its bed, and one of them may lie in a tier that there is not. -/

set_option Elab.async false

namespace Sys2Proof.Machine

/-- Every island ON; bed 0's marker is due, class 6 fences a bed at its first detection, and the bed holds a frame of one grain in a
tier whose occupancy would be counted in the first record of HARM.LOG. -/
def strayHarm : State :=
  let s := (Tests.up Tests.start).wrf (harmCtl 6) 31 30 2
  { s with
    timers := [(.heartbeat 0, 0)]
    frames := [(1, some { bytes := [0], src := 256, tier := (offHarmLog 0 0 - offTierOcc 0 0) / 0x20 })] }

theorem strayHarm_due : strayHarm.heartChecked 0 = true ∧ strayHarm.timerOn (.heartbeat 0) = true ∧
    strayHarm.hasSafety = true ∧
    max 1 (strayHarm.rdf (harmCtl 6) 7 0) ≤ sget (fun _ => 0) strayHarm.harm.counts (harmKey 6 (.bed 0)) + 1 := by
  decide +kernel

theorem strayHarm_record : (match execHeartbeatTimeout 0 strayHarm with
    | .next t => t.rd (offHarmLog (strayHarm.harm.seq % 16) 0) | _ => 0) ≠
      w32 (6 * 2 ^ 28 + (Target.bed 0).word + strayHarm.harm.seq) := by
  decide +kernel

/-- Refutes O54: in `strayHarm` the fence of the declared harm frees the frame, which takes 1 from the record. -/
theorem not_harmActs : ¬ Obligations.HarmActs := by
  unfold Obligations.HarmActs
  intro h
  obtain ⟨-, -, hdeclare, -⟩ := h strayHarm 0
  obtain ⟨hchecked, hdue, hpack, hthresh⟩ := strayHarm_due
  obtain ⟨t, ht, -, -, -, -, hrecord, -⟩ := hdeclare hchecked hdue hpack hthresh
  have hother := strayHarm_record
  rw [show execHeartbeatTimeout 0 strayHarm = .next t from ht] at hother
  exact hother hrecord

end Sys2Proof.Machine
end

section
/-! SUPPORT. Clauses that promise what the model does only under a further condition. -/

set_option Elab.async false

namespace Sys2Proof.Machine

/-- Every island ON, and a window of the clock monitor on a domain that was gated at its start and runs now. -/
def gatedWindow : State :=
  let s := Tests.up Tests.start
  { s with pwr := { s.pwr with monRun := some 0, monRan := false } }

theorem gatedWindow_runs : gatedWindow.clkRuns 0 = true := by decide +kernel

theorem gatedWindow_count : (match execClkMonWindowEnd 1 gatedWindow with
    | .next t => t.rdf offClkMonCount 19 0 | _ => 1) = 0 := by
  decide +kernel

/-- Refutes O60: in `gatedWindow` the window ends with COUNT 0, although its domain runs. -/
theorem not_islandsAndClocksAct : ¬ Obligations.IslandsAndClocksAct := by
  unfold Obligations.IslandsAndClocksAct
  intro h
  obtain ⟨-, -, -, -, -, -, -, -, -, hend, -⟩ := h gatedWindow .host
  obtain ⟨t, ht, -, -, hcount, -⟩ := hend 0 1 rfl (.inr gatedWindow_runs)
  have hzero := gatedWindow_count
  rw [show execClkMonWindowEnd 1 gatedWindow = .next t from ht] at hzero
  have hclear : t.rdf offClkMonCount 19 0 = 0 := hzero
  exact absurd (hclear.symm.trans hcount) (by decide)

/-- Every island ON: the debug port answers, and it has no session. -/
def sessionless : State := Tests.up Tests.start

theorem sessionless_answers : sessionless.dpAnswers = true := by decide +kernel

theorem sessionless_challenge : (match execDbgChalReq true 1 sessionless with
    | .next t => (t.dbg true).chalOk | _ => true) = false := by
  decide +kernel

/-- Refutes O58: in `sessionless` a write of DP.CTL with LINE_REL, which needs a level that no session has granted, has no effect, and
so asks for no challenge. -/
theorem not_debugSessionsAct : ¬ Obligations.DebugSessionsAct := by
  unfold Obligations.DebugSessionsAct
  intro h
  obtain ⟨hask, -⟩ := h sessionless true
  obtain ⟨t, ht, hok, -⟩ := hask 1 sessionless_answers (by decide) (by decide)
  have hnone := sessionless_challenge
  rw [show execDbgChalReq true 1 sessionless = .next t from ht] at hnone
  have hstale : (t.dbg true).chalOk = false := hnone
  exact absurd (hstale.symm.trans hok) (by decide)

end Sys2Proof.Machine
end

section
/-! SUPPORT. A copy whose program breaks a rule is discarded, and its frame may lie in a tier that there is not. -/

set_option Elab.async false

namespace Sys2Proof.Machine

/-- Every island ON; a selected copy's rewrite program of bed 0 names a header that there is not, and its frame of one grain lies in a
tier whose occupancy would be counted in the bed's counter of such discards. -/
def strayEdit : State :=
  let s := (Tests.up Tests.start).wr (offRewriteProgramW0 0 0 0) 0x10000000
  { s with
    copies := [(1, some { frame := 1, port := 0, cls := 0, clod := 0, flow := 0, prog := some 0, stage := .selected })]
    frames := [(1, some
      { bytes := [0], src := 256, path := .copies, tier := (offRewriteCntDropRewrite 0 - offTierOcc 0 0) / 0x20 })] }

theorem strayEdit_usable : strayEdit.bedUsable 0 = true := by decide +kernel

theorem strayEdit_count : (match execEgressEdit 1 false strayEdit with
    | .next t => t.cnt (offRewriteCntDropRewrite 0) | _ => 1) = 0 := by
  decide +kernel

/-- Refutes O41: in `strayEdit` the discard is counted, and freeing the frame's one grain takes it back. -/
theorem not_selectionAndTransmitAct : ¬ Obligations.SelectionAndTransmitAct := by
  unfold Obligations.SelectionAndTransmitAct
  intro h
  obtain ⟨-, -, -, -, -, -, -, hbreaks, -⟩ := h strayEdit
  obtain ⟨t, ht, -, -, hcnt⟩ := hbreaks 1 0 _ _ rfl rfl rfl (by decide +kernel) rfl (.inl ⟨by decide, strayEdit_usable⟩)
    (by decide +kernel)
  have hnone := strayEdit_count
  rw [show execEgressEdit 1 false strayEdit = .next t from ht] at hnone
  have hzero : t.cnt (offRewriteCntDropRewrite 0) = 0 := hnone
  exact absurd (hzero.symm.trans hcnt) (by decide +kernel)

end Sys2Proof.Machine
end

section
/-! SUPPORT. A link that is disabled frees the frames that no one refers to on their way to its module, and one of them may lie in a
tier that there is not. -/

set_option Elab.async false

namespace Sys2Proof.Machine

/-- Every island ON, link 0 enabled, and a frame of eleven grains that is on its way to the link's module and that nothing refers to, in a
tier whose occupancy would be counted in the link's CTL. -/
def strayLink : State :=
  { (Tests.up Tests.start).wr (offSiltCtl 0) 0x80000000 with
    frames := [(1, some
      { bytes := List.replicate 2816 0, src := 256, refs := 0, moving := some 8, tier := (offSiltCtl 0 - offTierOcc 0 0) / 0x20 })] }

theorem strayLink_serves : strayLink.serves (offSiltCtl 0) := by decide +kernel

theorem strayLink_enabled : strayLink.rdb (offSiltCtl 0) 31 = true ∧ strayLink.siltHolds 0 = false := by decide +kernel

theorem strayLink_ctl : (strayLink.cfg (offSiltCtl 0) fun s => s.siltCtlWrite 0 0).rdb (offSiltCtl 0) 31 = true := by
  decide +kernel

/-- Refutes O50: in `strayLink` the link is disabled, and freeing the frame's grains takes more from CTL than LOSS_US is, which sets EN again. -/
theorem not_siltLinksAct : ¬ Obligations.SiltLinksAct := by
  unfold Obligations.SiltLinksAct
  intro h
  obtain ⟨-, hdisable, -⟩ := h strayLink 0
  obtain ⟨hon, hempty⟩ := strayLink_enabled
  obtain ⟨t, ht, -, hen, -⟩ := hdisable 0 strayLink_serves (by decide) (by decide) hon hempty
  cases ht
  exact absurd (strayLink_ctl.symm.trans hen) (by decide)

end Sys2Proof.Machine
end

section
/-! SUPPORT. What registers read after the operations over the register file, in the form that rewriting uses: the same register, and
every other. -/

set_option Elab.async false

namespace Sys2Proof.Machine

/-- An access that is served, to an offset of no marl region, does what its unit does and answers. -/
theorem State.cfg_of_regionOf {s : State} {off : Nat} (hs : s.serves off) (h : s.regionOf off = none) (f : State → State) :
    s.cfg off f = (f s).answer false 0 := by
  rw [State.cfg_serves hs, State.writeThrough, h]

theorem State.cfg_noRegion {s : State} {off : Nat} (hs : s.serves off) (h : noRegion off) (f : State → State) :
    s.cfg off f = (f s).answer false 0 := State.cfg_of_regionOf hs (s.regionOf_of_noRegion h) f

theorem State.completes_of {s u : State} {c : Instr} {P : State → Prop} (hx : exec c s = .next u) (h : P u) : s.completes c P :=
  ⟨u, hx, h⟩

/-- A command that is such an access completes where what its unit does, answered, meets the statement. -/
theorem State.completes_cfg {s : State} {c : Instr} {off : Nat} {f : State → State} {P : State → Prop}
    (hx : exec c s = .next (s.cfg off f)) (hs : s.serves off) (hn : noRegion off) (h : P ((f s).answer false 0)) : s.completes c P :=
  ⟨_, hx.trans (by rw [State.cfg_noRegion hs hn]), h⟩

theorem State.answer_eq (s : State) (error : Bool) (data : Word) : s.answer error data = s.emit (.busResponse error data) := rfl

/-- An answer leaves every field but the output. -/
@[simp] theorem State.answer_fields (s : State) (error : Bool) (data : Word) :
    (s.answer error data).pending = s.pending ∧ (s.answer error data).now = s.now ∧ (s.answer error data).draws = s.draws ∧
    (s.answer error data).timers = s.timers ∧ (s.answer error data).evWait = s.evWait ∧ (s.answer error data).pmuNext = s.pmuNext
    ∧ (s.answer error data).pwr = s.pwr ∧ (s.answer error data).lanes = s.lanes ∧ (s.answer error data).ports = s.ports ∧
    (s.answer error data).macs = s.macs ∧ (s.answer error data).mgmt = s.mgmt ∧ (s.answer error data).shadow = s.shadow ∧
    (s.answer error data).frames = s.frames ∧ (s.answer error data).copies = s.copies ∧ (s.answer error data).nextId = s.nextId ∧
    (s.answer error data).mesh = s.mesh ∧ (s.answer error data).adm = s.adm ∧ (s.answer error data).sched = s.sched ∧ (s.answer
    error data).gates = s.gates ∧ (s.answer error data).time = s.time ∧ (s.answer error data).tel = s.tel ∧ (s.answer error
    data).fabric = s.fabric ∧ (s.answer error data).assay = s.assay ∧ (s.answer error data).rings = s.rings ∧ (s.answer error
    data).aug = s.aug ∧ (s.answer error data).augTurn = s.augTurn ∧ (s.answer error data).silt = s.silt ∧ (s.answer error
    data).tilth = s.tilth ∧ (s.answer error data).harm = s.harm ∧ (s.answer error data).sec = s.sec ∧ (s.answer error data).fates
    = s.fates :=
  ⟨rfl, rfl, rfl, rfl, rfl, rfl, rfl, rfl, rfl, rfl, rfl, rfl, rfl, rfl, rfl, rfl, rfl, rfl, rfl, rfl, rfl, rfl, rfl, rfl, rfl, rfl, rfl, rfl, rfl, rfl, rfl⟩

@[simp] theorem State.answer_rd (s : State) (error : Bool) (data : Word) (x : Nat) : (s.answer error data).rd x = s.rd x := by
  rw [State.answer_eq, State.emit_rd]

@[simp] theorem State.answer_rdb (s : State) (error : Bool) (data : Word) (x i : Nat) : (s.answer error data).rdb x i = s.rdb x i := by
  rw [State.rdb, State.answer_rd, State.rdb]

@[simp] theorem State.answer_rdf (s : State) (error : Bool) (data : Word) (x hi lo : Nat) :
    (s.answer error data).rdf x hi lo = s.rdf x hi lo := by
  rw [State.rdf, State.answer_rd, State.rdf]

@[simp] theorem State.answer_cnt (s : State) (error : Bool) (data : Word) (x : Nat) : (s.answer error data).cnt x = s.cnt x := by
  rw [State.cnt, State.answer_rd, State.answer_rdf, State.cnt]

@[simp] theorem State.answer_timerOn (s : State) (error : Bool) (data : Word) (x : Timer) : (s.answer error data).timerOn x = s.timerOn x := by
  rw [State.timerOn, State.timerOn, (s.answer_fields error data).2.2.2.1]

theorem State.rd_wrf_ne (s : State) {off x : Nat} (hi lo n : Nat) (h : x ≠ off) : (s.wrf off hi lo n).rd x = s.rd x :=
  s.rd_wr_ne _ h

theorem State.rd_wrb_ne (s : State) {off x : Nat} (i : Nat) (v : Bool) (h : x ≠ off) : (s.wrb off i v).rd x = s.rd x :=
  s.rd_wr_ne _ h

@[simp] theorem State.rd_wrf_same (s : State) (off hi lo n : Nat) : (s.wrf off hi lo n).rd off = setFld hi lo n (s.rd off) :=
  s.rd_wr_same _ _

@[simp] theorem State.rd_wrb_same (s : State) (off i : Nat) (v : Bool) : (s.wrb off i v).rd off = setBit i v (s.rd off) :=
  s.rd_wr_same _ _

theorem State.rd_wrs_ne (s : State) (off : Nat) (ws : List Word) {x : Nat} (h : x < off ∨ off + 4 * ws.length ≤ x) :
    (s.wrs off ws).rd x = s.rd x := by
  induction ws generalizing s off with
  | nil => rfl
  | cons w ws ih =>
    rw [List.length_cons] at h
    exact (ih (s.wr off w) (off + 4) (by omega)).trans (s.rd_wr_ne w (by omega))

/-- Consecutive registers read the words written to them. -/
theorem State.rd_wrs (s : State) (off : Nat) (ws : List Word) {i : Nat} (h : i < ws.length) :
    (s.wrs off ws).rd (off + 4 * i) = ws[i] := by
  induction ws generalizing s off i with
  | nil => exact absurd h (by simp)
  | cons w ws ih =>
    cases i with
    | zero => exact (State.rd_wrs_ne (s.wr off w) (off + 4) ws (by omega)).trans (s.rd_wr_same off w)
    | succ i =>
      have hi : i < ws.length := by simpa using h
      rw [show off + 4 * (i + 1) = off + 4 + 4 * i by omega]
      exact ih (s.wr off w) (off + 4) hi

theorem State.rds_wrs (s : State) (off : Nat) (ws : List Word) {n : Nat} (h : ws.length = n) : (s.wrs off ws).rds off n = ws := by
  refine List.ext_getElem (by simp [State.rds, h]) fun i h1 h2 => ?_
  simp only [State.rds, List.getElem_map, List.getElem_range]
  exact s.rd_wrs off ws h2

theorem State.rds_congr {s t : State} {off n : Nat} (h : ∀ i < n, t.rd (off + 4 * i) = s.rd (off + 4 * i)) : t.rds off n = s.rds off n :=
  List.map_congr_left fun i hi => h i (List.mem_range.1 hi)

theorem State.rd_inc_ne (s : State) {off evt x : Nat} (b : Nat) (h : x ≠ off) (g : x ≠ off + 4) (e : x ≠ evt) :
    (s.inc off evt b).rd x = s.rd x := s.rd_addCnt_ne 1 b h g e

theorem State.cnt_congr {s t : State} {off : Nat} (h : t.rd off = s.rd off) (h4 : t.rd (off + 4) = s.rd (off + 4)) :
    t.cnt off = s.cnt off := by
  rw [State.cnt, State.cnt, State.rdf, State.rdf, h, h4]

/-- A counter that counts one holds one more, modulo 2^48. -/
theorem State.cnt_inc (s : State) {off evt : Nat} (b : Nat) (h : off ≠ evt) (g : off + 4 ≠ evt) :
    (s.inc off evt b).cnt off = (s.cnt off + 1) % cntMod := s.cnt_addCnt 1 b h g

/-- Counting clears no bit of an event register. -/
theorem State.rdb_addCnt_keeps (s : State) {off evt j : Nat} (n b : Nat) (hj : j < 32) (h : evt ≠ off) (g : evt ≠ off + 4)
    (hb : s.rdb evt j = true) : (s.addCnt off n evt b).rdb evt j = true := by
  have hset : (s.setCnt off (s.cnt off + n)).rdb evt j = true := by rw [State.rdb, s.rd_setCnt_ne _ h g]; exact hb
  unfold State.addCnt
  dsimp only
  split
  · exact State.rdb_raiseEvt_keeps _ _ _ _ hj hset
  · exact hset

theorem State.rdb_inc_keeps (s : State) {off evt j : Nat} (b : Nat) (hj : j < 32) (h : evt ≠ off) (g : evt ≠ off + 4)
    (hb : s.rdb evt j = true) : (s.inc off evt b).rdb evt j = true := s.rdb_addCnt_keeps 1 b hj h g hb

/-- What is mapped out rests on the fuses' state and on the run-time map-outs alone. -/
theorem State.mapped_congr {s t : State} (hp : t.pwr = s.pwr) (hr : ∀ n < 64, t.rd (offMapRt n) = s.rd (offMapRt n)) (kind i : Nat) :
    t.mapped kind i = s.mapped kind i := by
  unfold State.mapped
  rw [hp]
  congr 1
  rw [Bool.eq_iff_iff, List.any_eq_true, List.any_eq_true]
  exact exists_congr fun n => and_congr_right fun hn => by rw [hr n (List.mem_range.1 hn)]

end Sys2Proof.Machine
end

section
/-! SUPPORT. The load port (R420 to R424), a lemma for each of its commands. -/

set_option Elab.async false

namespace Sys2Proof.Machine

theorem State.lkOk_load (s : State) (port : Bool) : s.lkOk port .load = true := by
  unfold State.lkOk
  split <;> simp_all

theorem State.lk_load (s : State) (port : Bool) (off : Nat) (f : State → State) : s.lk port off .load f = f s := by
  rw [State.lk, s.lkOk_load, if_pos rfl]

theorem noRegion_loadCtl : noRegion offLoadCtl := by simp [noRegion, offLoadCtl, offReplCmd]

theorem noRegion_loadData : noRegion offLoadData := by simp [noRegion, offLoadData, offReplCmd]

/-! ## What a write of LOAD.CTL does, by the bit that is set -/

theorem State.loadCtlWrite_start (s : State) (port : Bool) (v : Word) (h31 : bit 31 v = true) (h30 : bit 30 v = false)
    (h29 : bit 29 v = false) : s.loadCtlWrite port v = (s.wrf offLoadCtl 20 16 (fld 20 16 v)).loadStart := by
  simp [State.loadCtlWrite, h31, h30, h29, State.lk_load]

theorem State.loadCtlWrite_finish (s : State) (port : Bool) (v : Word) (h31 : bit 31 v = false) (h30 : bit 30 v = true)
    (h29 : bit 29 v = false) : s.loadCtlWrite port v = (s.wrf offLoadCtl 20 16 (fld 20 16 v)).loadFinish := by
  simp [State.loadCtlWrite, h31, h30, h29, State.lk_load]

theorem State.loadCtlWrite_abort (s : State) (port : Bool) (v : Word) (h31 : bit 31 v = false) (h30 : bit 30 v = false)
    (h29 : bit 29 v = true) : s.loadCtlWrite port v = (s.wrf offLoadCtl 20 16 (fld 20 16 v)).loadAbort := by
  simp [State.loadCtlWrite, h31, h30, h29]

/-! ## An engine's state -/

theorem State.engState_congr {s t : State} (e : Nat) (hp : t.pwr = s.pwr)
    (hr : ∀ n < 64, t.rd (offMapRt n) = s.rd (offMapRt n)) (he : t.rd (offEngStatus e) = s.rd (offEngStatus e)) :
    t.engState e = s.engState e := by
  rw [State.engState, State.engState, State.mapped_congr hp hr, State.rdf, State.rdf, he]

/-- The STATE of an engine that is not mapped out is the one in its status register. -/
theorem State.engState_of {s t : State} {e : Nat} (hm : s.mapped 5 e = false) (hp : t.pwr = s.pwr)
    (hr : ∀ n < 64, t.rd (offMapRt n) = s.rd (offMapRt n)) : t.engState e = t.rdf (offEngStatus e) 31 29 := by
  rw [State.engState, State.mapped_congr hp hr, hm]
  simp

theorem State.mapped_of_engState {s : State} {e : Nat} (h : s.engState e ≠ 5) : s.mapped 5 e = false := by
  refine Bool.eq_false_iff.2 fun hm => ?_
  exact h (by simp [State.engState, hm])

variable (s : State)

theorem State.loadStart_eq {s : State} {e : Nat} (h16 : s.rdf offLoadCtl 20 16 = e) (h28 : s.rdb offLoadCtl 28 = false)
    (he : e < 26) (hst : s.engState e = 0 ∨ s.engState e = 2 ∨ s.engState e = 4) (hl : s.tilth.load = none) :
    s.loadStart = (((s.engLoading e).tilthMod fun t => { t with load := some (e, []) }).wr offLoadCount 0).loadResult 0 := by
  have hfree : ¬ (26 ≤ e || s.engState e = 3 || s.engState e = 5 || (s.engState e = 1 && !(s.tilth.load.map (·.1) == some e))) = true := by
    simp
    omega
  unfold State.loadStart
  simp only [h16, h28]
  rw [if_neg (by simp), if_neg hfree, hl]

theorem State.loadStart_busy {s : State} {e : Nat} (h16 : s.rdf offLoadCtl 20 16 = e) (h28 : s.rdb offLoadCtl 28 = false)
    (h : 26 ≤ e ∨ s.engState e = 3 ∨ s.engState e = 5) : s.loadStart = s.loadResult 9 := by
  unfold State.loadStart
  simp only [h16, h28]
  rw [if_neg (by simp), if_pos (by simp; omega)]

/-- With the target engine written to LOAD.CTL, its field reads that engine, and the other bits and the engines are as before. -/
theorem State.rdf_loadTarget (s : State) (n : Nat) : (s.wrf offLoadCtl 20 16 n).rdf offLoadCtl 20 16 = n % 32 :=
  State.rdf_wrf _ _ _ _ _ (by omega) (by omega)

theorem State.rdb_loadTarget (s : State) (n : Nat) : (s.wrf offLoadCtl 20 16 n).rdb offLoadCtl 28 = s.rdb offLoadCtl 28 := by
  simp [State.rdb, bit_setFld]

theorem State.engState_loadTarget (s : State) {n e : Nat} (he : e < 0x100): (s.wrf offLoadCtl 20 16 n).engState e = s.engState e := by
  refine State.engState_congr _ (by simp) (fun n hn => State.rd_wrf_ne _ _ _ _ ?_) (State.rd_wrf_ne _ _ _ _ ?_)
  · simp only [offMapRt, offLoadCtl]
    omega
  · simp only [offEngStatus, offLoadCtl]
    omega

theorem loadPort_start (v : Word) (e : Fin 26) (hs : s.serves offLoadCtl) (h30 : bit 30 v = false) (h29 : bit 29 v = false)
    (hv : fld 20 16 v = e.val) (hbusy : s.rdb offLoadCtl 28 = false) (hl : s.tilth.load = none)
    (hst : s.engState e = 0 ∨ s.engState e = 2 ∨ s.engState e = 4) :
    s.completes (.loadStart v) fun t => t.engState e = 1 ∧ t.tilth.load = some (e.val, []) ∧ t.rd offLoadCount = 0 ∧
        t.rdf offLoadCtl 27 24 = 0 ∧ t.eng e = {} := by
  have he := e.isLt
  have hm : s.mapped 5 e = false := State.mapped_of_engState (by omega)
  refine State.completes_cfg (exec_loadStart s) hs noRegion_loadCtl ?_
  rw [State.loadCtlWrite_start _ _ _ (by simp [bit_setBit]) (by simp [bit_setBit, h30])
    (by simp [bit_setBit, h29]), fld_setBit_ne _ _ _ _ _ (by omega) (by omega), hv,
    State.loadStart_eq (e := e) (by rw [State.rdf_loadTarget]; omega) (by rw [State.rdb_loadTarget, hbusy]) he
      (by rw [State.engState_loadTarget _ (by omega)]; exact hst) (by simpa using hl)]
  simp only [State.loadResult, State.engLoading, State.engEmpty, State.engGo, State.engMod]
  refine ⟨?_, by simp [State.answer], ?_, ?_, by simp [State.eng, State.answer, sget_smod]⟩
  · rw [State.engState_of hm (by simp [State.answer]) (fun n hn => by simp (disch := omega) [State.answer, offMapRt, offLoadCtl, offLoadCount, offEngStatus, offEngVersion, offEngRoleMask, State.rd_wr_ne, State.rd_wrf_ne])]
    simp (disch := omega) [State.answer, State.rdf,  offLoadCtl, offLoadCount, offEngStatus, offEngVersion, offEngRoleMask, State.rd_wr_ne, State.rd_wrf_ne, fld_setFld]
  all_goals simp (disch := omega) [State.answer, State.rdf,  offLoadCtl, offLoadCount, offEngStatus, offEngVersion, offEngRoleMask, State.rd_wr_ne, State.rd_wrf_ne, fld_setFld]

theorem loadPort_busy (v : Word) (hs : s.serves offLoadCtl) (h30 : bit 30 v = false) (h29 : bit 29 v = false)
    (hbusy : s.rdb offLoadCtl 28 = false) (h : 26 ≤ fld 20 16 v ∨ s.engState (fld 20 16 v) = 3 ∨ s.engState (fld 20 16 v) = 5) :
    s.completes (.loadStart v) fun t => t.rdf offLoadCtl 27 24 = 9 ∧ t.tilth = s.tilth ∧
      t.engState (fld 20 16 v) = s.engState (fld 20 16 v) := by
  have hlt : fld 20 16 v < 32 := fld_lt 20 16 v
  refine State.completes_cfg (exec_loadStart s) hs noRegion_loadCtl ?_
  rw [State.loadCtlWrite_start _ _ _ (by simp [bit_setBit]) (by simp [bit_setBit, h30])
    (by simp [bit_setBit, h29]), fld_setBit_ne _ _ _ _ _ (by omega) (by omega),
    State.loadStart_busy (e := fld 20 16 v) (by rw [State.rdf_loadTarget]; omega) (by rw [State.rdb_loadTarget, hbusy])
      (by rw [State.engState_loadTarget _ (by omega)]; exact h)]
  refine ⟨?_, by simp [State.loadResult, State.answer], State.engState_congr _ (by simp [State.loadResult, State.answer]) (fun n hn => ?_) ?_⟩
  · simp [State.loadResult, State.answer, State.rdf, fld_setFld]
  · simp (disch := omega) [State.loadResult, State.answer, offMapRt, offLoadCtl, State.rd_wrf_ne]
  · simp (disch := omega) [State.loadResult, State.answer, offEngStatus, offLoadCtl, State.rd_wrf_ne]

theorem loadPort_data (v : Word) (e : Nat) (bs : List Byte) (hs : s.serves offLoadData) (hl : s.tilth.load = some (e, bs))
    (hbusy : s.rdb offLoadCtl 28 = false) :
    s.completes (.loadData v) fun t => t.tilth.load = some (e, bs ++ leBytes 4 v.toNat) ∧
      t.rd offLoadCount = s.rd offLoadCount + 4 := by
  refine State.completes_cfg (exec_loadData s) hs noRegion_loadData ?_
  simp [State.loadDataWrite, State.lk_load, hl, hbusy, State.answer]

theorem loadPort_finish (v : Word) (hs : s.serves offLoadCtl) (h31 : bit 31 v = false) (h29 : bit 29 v = false)
    (hl : s.tilth.load.isSome = true) :
    s.completes (.loadFinish v) fun t => t.rdb offLoadCtl 28 = true ∧ t.tilth = s.tilth := by
  refine State.completes_cfg (exec_loadFinish s) hs noRegion_loadCtl ?_
  rw [State.loadCtlWrite_finish _ _ _ (by simp [bit_setBit, h31]) (by simp [bit_setBit]) (by simp [bit_setBit, h29])]
  simp [State.loadFinish, hl, State.answer, State.rdb, bit_setBit]

/-- An engine whose load was given up: it is EMPTY, and the failure is counted and reported. -/
theorem State.engFailed_rd_ne (s : State) {e x : Nat} (hx : x < 0x600000 ∨ 0x603108 ≤ x ∧ (x < 0x603118 ∨ 0x603120 ≤ x)
    ∨ 0x601000 ≤ x ∧ x < 0x603000) (he : e < 26) : (s.engFailed e).rd x = s.rd x := by
  simp (disch := omega) [State.engFailed, State.tilthCnt, State.tilthEvt, State.engEmpty, State.engMod, offTilthCnt, offTilthEvt,
    offEngStatus, offEngVersion, offEngRoleMask, State.rd_inc_ne, State.rd_raiseEvt_ne, State.rd_wr_ne]

theorem State.engFailed_status (s : State) {e : Nat} (he : e < 26) : (s.engFailed e).rd (offEngStatus e) = 0x1F000000 := by
  simp (disch := omega) [State.engFailed, State.tilthCnt, State.tilthEvt, State.engEmpty, State.engMod, offTilthCnt, offTilthEvt,
    offEngStatus, offEngVersion, offEngRoleMask, State.rd_inc_ne, State.rd_raiseEvt_ne, State.rd_wr_ne]

theorem State.engFailed_engState {s : State} {e : Nat} (he : e < 26) (hm : s.mapped 5 e = false) : (s.engFailed e).engState e = 0 := by
  rw [State.engState_of hm (by simp [State.engFailed, State.tilthCnt, State.tilthEvt, State.engEmpty, State.engMod])
    (fun n hn => State.engFailed_rd_ne _ (by simp only [offMapRt]; omega) he), State.rdf, State.engFailed_status _ he]
  rfl

theorem State.engFailed_eng (s : State) (e : Nat) : (s.engFailed e).eng e = {} := by
  simp [State.engFailed, State.tilthCnt, State.tilthEvt, State.engEmpty, State.engMod, State.eng, sget_smod]

theorem State.engFailed_evt (s : State) (e : Nat) : (s.engFailed e).rdb offTilthEvt 4 = true :=
  State.rdb_inc_keeps _ _ (by omega) (by simp [offTilthEvt, offTilthCnt]) (by simp [offTilthEvt, offTilthCnt])
    (State.rdb_raiseEvt _ _ _ (by omega))

theorem State.engFailed_cnt (s : State) {e : Nat} (he : e < 26) :
    (s.engFailed e).cnt (offTilthCnt 3) = (s.cnt (offTilthCnt 3) + 1) % cntMod := by
  have hkeep : ((s.engEmpty e).tilthEvt 4).cnt (offTilthCnt 3) = s.cnt (offTilthCnt 3) := by
    refine State.cnt_congr ?_ ?_ <;>
    simp (disch := omega) [State.tilthEvt, State.engEmpty, State.engMod, offTilthCnt, offTilthEvt,
      offEngStatus, offEngVersion, offEngRoleMask, State.rd_raiseEvt_ne, State.rd_wr_ne]
  rw [State.engFailed, State.tilthCnt, State.cnt_inc _ _ (by simp [offTilthEvt, offTilthCnt]) (by simp [offTilthEvt, offTilthCnt]),
    hkeep]

theorem loadPort_abort (v : Word) (e : Fin 26) (bs : List Byte) (hs : s.serves offLoadCtl) (h31 : bit 31 v = false)
    (h30 : bit 30 v = false) (hl : s.tilth.load = some (e.val, bs)) (hm : s.mapped 5 e = false) :
    s.completes (.loadAbort v) fun t => t.engState e = 0 ∧ t.eng e = {} ∧ t.tilth.load = none ∧
      t.rdb offLoadCtl 28 = false ∧ t.rdf offLoadCtl 27 24 = 11 ∧ t.rdb offTilthEvt 4 = true ∧
      t.cnt (offTilthCnt 3) = (s.cnt (offTilthCnt 3) + 1) % cntMod := by
  refine State.completes_cfg (exec_loadAbort s) hs noRegion_loadCtl ?_
  rw [State.loadCtlWrite_abort _ _ _ (by simp [bit_setBit, h31]) (by simp [bit_setBit, h30]) (by simp [bit_setBit])]
  have he := e.isLt
  let u := s.wrf offLoadCtl 20 16 (fld 20 16 (setBit 29 true v))
  have hu : u = s.wrf offLoadCtl 20 16 (fld 20 16 (setBit 29 true v)) := rfl
  rw [← hu]
  have hmu : u.mapped 5 e = false := by
    rw [hu, ← hm]
    exact State.mapped_congr (by simp) (fun n hn => State.rd_wrf_ne _ _ _ _ (by simp only [offMapRt, offLoadCtl]; omega)) _ _
  have hcu : u.cnt (offTilthCnt 3) = s.cnt (offTilthCnt 3) :=
    State.cnt_congr (State.rd_wrf_ne _ _ _ _ (by simp [offTilthCnt, offLoadCtl])) (State.rd_wrf_ne _ _ _ _ (by simp [offTilthCnt, offLoadCtl]))
  have hlu : u.tilth.load = some (e.val, bs) := by simp [hu, hl]
  simp only [State.loadAbort, hlu, State.loadResult]
  refine ⟨?_, ?_, by simp [State.answer], ?_, ?_, ?_, ?_⟩
  · refine .trans (State.engState_congr e ?_ (fun n hn => ?_) ?_) (State.engFailed_engState he hmu)
    · simp [State.answer]
    all_goals simp (disch := omega) [State.answer, offMapRt, offEngStatus, offLoadCtl, State.rd_wrf_ne, State.rd_wrb_ne]
  · exact .trans (by simp [State.eng, State.answer]) (u.engFailed_eng e)
  · simp [State.answer, State.rdb, bit_setBit, bit_setFld]
  · simp [State.answer, State.rdf, fld_setFld]
  · refine .trans ?_ (u.engFailed_evt e)
    simp (disch := omega) [State.answer, State.rdb, offTilthEvt, offLoadCtl, State.rd_wrf_ne, State.rd_wrb_ne]
  · refine .trans (State.cnt_congr ?_ ?_) ((u.engFailed_cnt he).trans (by rw [hcu])) <;>
    simp (disch := omega) [State.answer, offTilthCnt, offLoadCtl, State.rd_wrf_ne, State.rd_wrb_ne]


/-! ## The measurements -/

theorem length_leWords_le (bs : List Byte) : (leWords bs).length ≤ (bs.length + 3) / 4 := by
  induction bs using leWords.induct with
  | case1 a b c d rest ih =>
    simp only [leWords, List.length_cons]
    omega
  | case2 => simp [leWords]
  | case3 bs hlong hne =>
    have hpos := List.length_pos_iff.2 hne
    rw [leWords]
    · simp only [List.length_singleton]
      omega
    all_goals assumption

theorem length_beBytes (n v : Nat) : (beBytes n v).length = n := by
  induction n with
  | zero => rfl
  | succ n ih => rw [beBytes, List.length_cons, ih]

theorem length_sha384_le (m : List Byte) : (sha384 m).length ≤ 48 := by
  unfold sha384
  dsimp only
  generalize List.foldl _ shaInit _ = h
  simp only [List.length_flatMap, length_beBytes, List.map_const', List.sum_replicate_nat]
  have := List.length_take_le 6 h
  omega

/-- A measurement changes the measurements' registers alone. -/
theorem State.rd_measExtend_ne (s : State) (type : Byte) (digest : List Byte) {x : Nat} (h : x < offMeas 0 ∨ offMeas 13 ≤ x) :
    (s.measExtend type digest).rd x = s.rd x := by
  have hlen := (length_leWords_le (sha384 (wordBytes (s.rds (offMeas 0) 12) ++ type :: digest)))
  have hsha := length_sha384_le (wordBytes (s.rds (offMeas 0) 12) ++ type :: digest)
  simp only [offMeas] at h
  simp only [State.measExtend]
  rw [State.rd_wr_ne _ _ (by simp only [offMeasCount]; omega), State.rd_wrs_ne _ _ _ (by simp only [offMeas] at *; omega)]


/-! ## The end of the checks -/

/-- The load port as the end of its checks leaves it: no load, and the RESULT. -/
def State.loadEnded (s : State) (n : Nat) : State :=
  ((s.tilthMod fun t => { t with load := none }).wrb offLoadCtl 28 false).loadResult n

theorem execLoadCheckDone_pass {ok : Bool} {e : Nat} {img : List Byte} (hl : s.tilth.load = some (e, img))
    (hbusy : s.rdb offLoadCtl 28 = true) (hn : s.imgCheck img ok = 1) : exec (.loadCheckDone ok) s =
      .next (((((s.loadEnded 1).engReady e img)).measExtend 1 (sha384 (img.take 256))).marlBump 16) := by
  simp [exec_loadCheckDone, execLoadCheckDone, hl, hbusy, hn, State.loadEnded]

theorem execLoadCheckDone_fail {ok : Bool} {e : Nat} {img : List Byte} (hl : s.tilth.load = some (e, img))
    (hbusy : s.rdb offLoadCtl 28 = true) (hn : s.imgCheck img ok ≠ 1) : exec (.loadCheckDone ok) s =
      .next ((s.loadEnded (s.imgCheck img ok)).engFailed e) := by
  simp [exec_loadCheckDone, execLoadCheckDone, hl, hbusy, hn, State.loadEnded]

theorem State.rd_loadEnded_ne (n : Nat) {x : Nat} (h : x ≠ offLoadCtl) : (s.loadEnded n).rd x = s.rd x := by
  simp [State.loadEnded, State.loadResult, State.rd_wrf_ne _ _ _ _ h, State.rd_wrb_ne _ _ _ h]

theorem State.mapped_loadEnded (n kind i : Nat) : (s.loadEnded n).mapped kind i = s.mapped kind i :=
  State.mapped_congr (by simp [State.loadEnded, State.loadResult])
    (fun k hk => s.rd_loadEnded_ne n (by simp only [offMapRt, offLoadCtl]; omega)) _ _

theorem State.rdb_loadEnded (n : Nat) : (s.loadEnded n).rdb offLoadCtl 28 = false := by
  simp [State.loadEnded, State.loadResult, State.rdb, bit_setFld, bit_setBit]

theorem State.rdf_loadEnded (n : Nat) : (s.loadEnded n).rdf offLoadCtl 27 24 = n % 16 := by
  simp [State.loadEnded, State.loadResult, State.rdf, fld_setFld]

/-- The results of the checks are the ten of R421. -/
theorem State.imgCheck_lt (img : List Byte) (ok : Bool) : s.imgCheck img ok < 16 := by
  unfold State.imgCheck
  repeat' split
  all_goals omega

/-- A read after an engine has become READY and the measurement of its image. -/
theorem State.rd_engMeasured_ne (e : Nat) (img : List Byte) {x : Nat} (he : e < 26)
    (hx : 0x3200 ≤ x ∧ x < 0x3300 ∨ 0x602000 ≤ x ∧ x < 0x603000) :
    (((s.engReady e img).measExtend 1 (sha384 (img.take 256))).marlBump 16).rd x = s.rd x := by
  rw [State.marlBump_rd _ (by omega) (by unfold notGen; omega), State.rd_measExtend_ne _ _ _ (by simp only [offMeas]; omega)]
  simp (disch := omega) [State.engReady, State.engGo, State.engMod, State.tilthEvt, State.tilthCnt, offTilthEvt, offTilthCnt,
    offEngStatus, offEngVersion, offEngRoleMask, State.rd_inc_ne, State.rd_raiseEvt_ne, State.rd_wr_ne, State.rd_wrf_ne]

/-- Past the map-outs, the measurements and region 16's generation, a read is of the engine that has become READY. -/
theorem State.rd_engMeasured (e : Nat) (img : List Byte) {x : Nat} (hx : 0x600000 ≤ x) :
    (((s.engReady e img).measExtend 1 (sha384 (img.take 256))).marlBump 16).rd x = (s.engReady e img).rd x := by
  rw [State.marlBump_rd _ (by omega) (by unfold notGen; omega), State.rd_measExtend_ne _ _ _ (by simp only [offMeas]; omega)]

theorem State.engReady_status (e : Nat) (img : List Byte) (he : e < 26) : (s.engReady e img).rdf (offEngStatus e) 31 29 = 2 := by
  simp (disch := omega) [State.engReady, State.engGo, State.engMod, State.tilthEvt, State.tilthCnt, offTilthEvt, offTilthCnt,
    offEngStatus, offEngVersion, offEngRoleMask, State.rd_inc_ne, State.rd_raiseEvt_ne, State.rd_wr_ne, State.rdf, fld_setFld]

theorem State.engReady_version (e : Nat) (img : List Byte) (he : e < 26) : (s.engReady e img).rd (offEngVersion e) = imgWord img 3 := by
  simp (disch := omega) [State.engReady, State.engGo, State.engMod, State.tilthEvt, State.tilthCnt, offTilthEvt, offTilthCnt,
    offEngStatus, offEngVersion, offEngRoleMask, State.rd_inc_ne, State.rd_raiseEvt_ne, State.rd_wr_ne]

theorem State.engReady_evt (e : Nat) (img : List Byte) : (s.engReady e img).rdb offTilthEvt 3 = true :=
  State.rdb_inc_keeps _ _ (by omega) (by simp [offTilthEvt, offTilthCnt]) (by simp [offTilthEvt, offTilthCnt])
    (State.rdb_raiseEvt _ _ _ (by omega))

theorem loadPort_checkDone (ok : Bool) (e : Fin 26) (img : List Byte) (hl : s.tilth.load = some (e.val, img))
    (hbusy : s.rdb offLoadCtl 28 = true) (hm : s.mapped 5 e = false) :
    s.completes (.loadCheckDone ok) fun t => t.tilth.load = none ∧ t.rdb offLoadCtl 28 = false ∧
      t.rdf offLoadCtl 27 24 = s.imgCheck img ok ∧
      (if s.imgCheck img ok = 1 then t.engState e = 2 ∧ (t.eng e).image = some img ∧
          t.rd (offEngVersion e) = imgWord img 3 ∧ t.rdb offTilthEvt 3 = true
        else t.engState e = 0 ∧ t.eng e = {} ∧ t.rdb offTilthEvt 4 = true) := by
  have he := e.isLt
  have hlt := s.imgCheck_lt img ok
  by_cases hn : s.imgCheck img ok = 1
  · refine State.completes_of (execLoadCheckDone_pass s hl hbusy hn) ?_
    rw [if_pos hn, hn]
    let u := s.loadEnded 1
    have hu : u = s.loadEnded 1 := rfl
    have hctl := u.rd_engMeasured_ne e img (x := offLoadCtl) he (by simp [offLoadCtl])
    refine ⟨?_, ?_, ?_, ?_, ?_, ?_, ?_⟩
    · simp [hu, State.marlBump, State.measExtend, State.engReady, State.engGo, State.engMod, State.tilthCnt, State.tilthEvt, State.loadEnded, State.loadResult]
    · rw [State.rdb, hctl]
      exact s.rdb_loadEnded 1
    · rw [State.rdf, hctl]
      exact s.rdf_loadEnded 1
    · rw [State.engState_of ((s.mapped_loadEnded 1 5 e).trans hm), State.rdf, State.rd_engMeasured _ _ _ (by simp [offEngStatus])]
      · exact u.engReady_status e img he
      · simp [hu, State.marlBump, State.measExtend, State.engReady, State.engGo, State.engMod, State.tilthCnt, State.tilthEvt]
      · exact fun n hn => u.rd_engMeasured_ne e img he (by simp only [offMapRt]; omega)
    · simp [State.eng, State.marlBump, State.measExtend, State.engReady, State.engGo, State.engMod, State.tilthCnt, State.tilthEvt, sget_smod]
    · rw [State.rd_engMeasured _ _ _ (by simp only [offEngVersion]; omega)]
      exact u.engReady_version e img he
    · rw [State.rdb, State.rd_engMeasured _ _ _ (by simp [offTilthEvt])]
      exact u.engReady_evt e img
  · refine State.completes_of (execLoadCheckDone_fail s hl hbusy hn) ?_
    rw [if_neg hn]
    have hctl := (s.loadEnded (s.imgCheck img ok)).engFailed_rd_ne (e := e) (x := offLoadCtl) (by simp [offLoadCtl]) he
    refine ⟨?_, ?_, ?_, ?_, State.engFailed_eng _ _, State.engFailed_evt _ _⟩
    · simp [State.engFailed, State.engEmpty, State.engMod, State.tilthCnt, State.tilthEvt, State.loadEnded, State.loadResult]
    · rw [State.rdb, hctl]
      exact s.rdb_loadEnded _
    · rw [State.rdf, hctl]
      exact (s.rdf_loadEnded _).trans (Nat.mod_eq_of_lt hlt)
    · exact State.engFailed_engState he ((s.mapped_loadEnded _ 5 e).trans hm)

/-- Settles O52: by the load port's commands, one lemma each. -/
theorem loadPortActs : Obligations.LoadPortActs := fun s =>
  ⟨loadPort_start s, loadPort_busy s, loadPort_data s, loadPort_finish s, loadPort_abort s, loadPort_checkDone s⟩

end Sys2Proof.Machine
end

section
/-! SUPPORT. The multicast lists and the meters by their commands (R195, R202). -/

set_option Elab.async false

namespace Sys2Proof.Machine

variable (s : State)

/-! ## Multicast groups and members -/

theorem State.replAddr_replOp (op : Nat) : (s.replOp op).replAddr = s.replAddr := by
  simp [State.replAddr, State.replOp, State.rdb, State.rdf, State.rd_wrf_ne, offReplAddr, offReplCmd]

theorem State.rd_replData_replOp (op i : Nat) : (s.replOp op).rd (offReplData i) = s.rd (offReplData i) :=
  State.rd_wrf_ne _ _ _ _ (by simp only [offReplData, offReplCmd]; omega)

theorem State.replGroup_replOp (op g : Nat) : (s.replOp op).replGroup g = s.replGroup g := rfl

theorem State.replMember_replOp (op i : Nat) : (s.replOp op).replMember i = s.replMember i := rfl

theorem State.replGroup_setGroup (g : Nat) (w : Word) : (s.setGroup g w).replGroup g = w := by
  simp [State.replGroup, State.setGroup, sget_sset]

theorem State.replMember_setMember (i : Nat) (ws : List Word) : (s.setMember i ws).replMember i = ws := by
  simp [State.replMember, State.setMember, sget_sset]

/-- What an access of REPL.CMD leaves in the lists and in the data registers is what its operation leaves. -/
theorem State.cfg_repl (hs : s.serves offReplCmd) (f : State → State) :
    (∀ g, (s.cfg offReplCmd f).replGroup g = (f s).replGroup g) ∧ (∀ i, (s.cfg offReplCmd f).replMember i = (f s).replMember i) ∧
      (s.cfg offReplCmd f).rds (offReplData 0) 4 = (f s).rds (offReplData 0) 4 := by
  obtain ⟨regs, rules, entries, e⟩ := State.cfg_same hs f
  refine ⟨fun g => by rw [e]; rfl, fun i => by rw [e]; rfl, State.rds_congr fun i hi => State.cfg_rd hs f ?_ (.inl ?_)⟩
  · unfold notGen offReplData
    omega
  · unfold offReplData bankSpan
    omega

theorem replication_read (hs : s.serves offReplCmd) :
    s.completes .replRead fun t => t.rds (offReplData 0) 4 =
      (s.replOp 0).replRead.rds (offReplData 0) 4 := ⟨_, exec_replRead s, (s.cfg_repl hs _).2.2⟩

theorem State.replRead_group (h : s.replAddr.1 = false) :
    (s.replOp 0).replRead.rds (offReplData 0) 4 = [s.replGroup s.replAddr.2, 0, 0, 0] := by
  simp only [State.replRead, s.replAddr_replOp, h]
  exact State.rds_wrs _ _ _ rfl

theorem State.replRead_member (h : s.replAddr.1 = true) (hlen : (s.replMember s.replAddr.2).length = 3) :
    (s.replOp 0).replRead.rds (offReplData 0) 4 = s.replMember s.replAddr.2 ++ [0] := by
  simp only [State.replRead, s.replAddr_replOp, h]
  exact State.rds_wrs _ _ _ (by simp [s.replMember_replOp, hlen])

theorem State.replWrite_group (h : s.replAddr.1 = false) :
    (s.replOp 1).replWrite.replGroup s.replAddr.2 = s.rd (offReplData 0) &&& 0x81FFFFFF := by
  simp [State.replWrite, s.replAddr_replOp, h, State.replGroup_setGroup, s.rd_replData_replOp]

theorem State.replWrite_member (h : s.replAddr.1 = true) :
    (s.replOp 1).replWrite.replMember s.replAddr.2 = [s.rd (offReplData 0),
        s.rd (offReplData 1) &&& 0x03FFFFFF, s.rd (offReplData 2) &&& 0xFE0001FF] := by
  simp [State.replWrite, s.replAddr_replOp, h, State.replMember_setMember, s.rd_replData_replOp]

theorem State.replClear_group (h : s.replAddr.1 = false) :
    (s.replOp 2).replClear.replGroup s.replAddr.2 = setBit 31 false (s.replGroup s.replAddr.2) := by
  simp [State.replClear, s.replAddr_replOp, h, State.replGroup_setGroup, s.replGroup_replOp]

theorem State.replClear_member (h : s.replAddr.1 = true) :
    (s.replOp 2).replClear.replMember s.replAddr.2 = [0, 0, 0] := by
  simp [State.replClear, s.replAddr_replOp, h, State.replMember_setMember]

/-! ## Meters -/

theorem State.meter_setMeter (id : Nat) (m : Meter) : (s.setMeter id m).meter id = m := by
  simp [State.meter, State.setMeter, sget_sset]

theorem State.meterId_meterOp (op : Nat) : (s.meterOp op).meterId = s.meterId := by
  simp [State.meterId, State.meterOp, State.rdf, State.rd_wr_ne, offMeterAddr, offMeterCmd]

theorem State.regionOf_meterCmd : s.regionOf offMeterCmd = none := by
  simp [State.regionOf, blockImage, offMeterCmd, offReplCmd]

theorem State.meter_meterOp (op id : Nat) : (s.meterOp op).meter id = s.meter id := rfl

theorem State.cycle_meterOp (op : Nat) : (s.meterOp op).cycle = s.cycle := rfl

theorem State.rd_meterData_meterOp (op i : Nat) : (s.meterOp op).rd (offMeterData0 i) = s.rd (offMeterData0 i) :=
  State.rd_wr_ne _ _ (by simp only [offMeterData0, offMeterCmd]; omega)

theorem State.meterFrom_meterOp (op : Nat) (old : Meter) (full : Bool) : (s.meterOp op).meterFrom old full = s.meterFrom old full := by
  have h2 : (s.meterOp op).rd offMeterData2 = s.rd offMeterData2 := s.rd_meterData_meterOp op 2
  have h3 : (s.meterOp op).rd offMeterData3 = s.rd offMeterData3 := s.rd_meterData_meterOp op 3
  simp only [State.meterFrom, State.rdb, s.rd_meterData_meterOp, s.cycle_meterOp, h2, h3]

theorem Meter.length_words (m : Meter) : m.words.length = 8 := by simp [Meter.words]

theorem State.rds_emit (o : Output) (off n : Nat) : (s.emit o).rds off n = s.rds off n := rfl

theorem State.meter_emit (o : Output) (id : Nat) : (s.emit o).meter id = s.meter id := rfl

/-- A command that is an access of METER.CMD. -/
theorem State.completes_meter {c : Instr} {f : State → State} {P : State → Prop} (hx : exec c s = .next (s.cfg offMeterCmd f))
    (hs : s.serves offMeterCmd) (h : P ((f s).answer false 0)) : s.completes c P :=
  State.completes_of (hx.trans (by rw [State.cfg_of_regionOf hs s.regionOf_meterCmd])) h

theorem State.meterRead_eq : (s.meterOp 0).meterRead = ((s.meterOp 0).setMeter s.meterId ((s.meter s.meterId).upTo s.cycle)).wrs
    (offMeterData0 0) ((s.meter s.meterId).upTo s.cycle).words := by
  rw [State.meterRead, s.meterId_meterOp, s.meter_meterOp, s.cycle_meterOp]

theorem State.meterRead_meter : (s.meterOp 0).meterRead.meter s.meterId = (s.meter s.meterId).upTo s.cycle := by
  simp [s.meterRead_eq, State.meter, State.setMeter, sget_sset]

theorem State.meterRead_words : (s.meterOp 0).meterRead.rds (offMeterData0 0) 8 = ((s.meter s.meterId).upTo s.cycle).words := by
  rw [s.meterRead_eq]
  exact State.rds_wrs _ _ _ (Meter.length_words _)

theorem meter_read (hs : s.serves offMeterCmd) :
    s.completes .meterRead fun t => t.meter s.meterId = (s.meter s.meterId).upTo s.cycle ∧
        t.rds (offMeterData0 0) 8 = (t.meter s.meterId).words := by
  refine s.completes_meter (exec_meterRead s) hs ?_
  rw [State.answer_eq, State.rds_emit, State.meter_emit, s.meterRead_words, s.meterRead_meter]
  exact ⟨rfl, rfl⟩

theorem State.meterWrite_meter (op : Nat) (full : Bool) : (((s.meterOp op).meterWrite full).answer false 0).meter s.meterId =
    s.meterFrom ((s.meter s.meterId).upTo s.cycle) full := by
  rw [State.meterWrite, s.meterId_meterOp, s.meter_meterOp, s.cycle_meterOp, s.meterFrom_meterOp]
  exact State.meter_setMeter _ _ _

theorem meter_writeFull (hs : s.serves offMeterCmd) :
    s.completes .meterWriteFull fun t => (t.meter s.meterId).tc = (t.meter s.meterId).cbs * 256 ∧
        (t.meter s.meterId).tp = (t.meter s.meterId).pbs * 256 ∧ (t.meter s.meterId).fracC = 0 ∧
        (t.meter s.meterId).fracP = 0 ∧ (t.meter s.meterId).stamp = s.cycle % 2 ^ 32 ∧
        (t.meter s.meterId).cir = (s.rd (offMeterData0 0)).toNat ∧ (t.meter s.meterId).pir = (s.rd (offMeterData0 1)).toNat ∧
        (t.meter s.meterId).en = s.rdb offMeterData2 31 ∧ (t.meter s.meterId).cbs = s.rdf offMeterData2 23 0 := by
  refine s.completes_meter (exec_meterWriteFull s) hs ?_
  rw [s.meterWrite_meter 1 true]
  exact ⟨rfl, rfl, rfl, rfl, rfl, rfl, rfl, rfl, rfl⟩

theorem meter_writeKeep (hs : s.serves offMeterCmd) :
    s.completes .meterWriteKeep fun t =>
        (t.meter s.meterId).tc = min ((s.meter s.meterId).upTo s.cycle).tc ((t.meter s.meterId).cbs * 256) ∧
        (t.meter s.meterId).tp = min ((s.meter s.meterId).upTo s.cycle).tp ((t.meter s.meterId).pbs * 256) ∧
        (t.meter s.meterId).fracC = ((s.meter s.meterId).upTo s.cycle).fracC ∧
        (t.meter s.meterId).cir = (s.rd (offMeterData0 0)).toNat ∧ (t.meter s.meterId).pir = (s.rd (offMeterData0 1)).toNat := by
  refine s.completes_meter (exec_meterWriteKeep s) hs ?_
  rw [s.meterWrite_meter 2 false]
  exact ⟨rfl, rfl, rfl, rfl, rfl⟩

theorem meter_refresh (id : BitVec 20) (hl : s.lineOn = true) :
    s.completes (.meterRefresh id) fun t => t.meter id.toNat = (s.meter id.toNat).upTo s.cycle := by
  refine State.completes_of (exec_meterRefresh s) ?_
  rw [if_pos hl, State.meter_setMeter]

/-- Settles O38: the lists by what an access of REPL.CMD leaves of its operation, the meters by a lemma for each command. -/
theorem replicationAndMetersAct : Obligations.ReplicationAndMetersAct := fun s =>
  ⟨fun hs h => ⟨_, exec_replRead s, (s.cfg_repl hs _).2.2.trans (s.replRead_group h)⟩,
   fun hs h hlen => ⟨_, exec_replRead s, (s.cfg_repl hs _).2.2.trans (s.replRead_member h hlen)⟩,
   fun hs h => ⟨_, exec_replWrite s, ((s.cfg_repl hs _).1 _).trans (s.replWrite_group h)⟩,
   fun hs h => ⟨_, exec_replWrite s, ((s.cfg_repl hs _).2.1 _).trans (s.replWrite_member h)⟩,
   fun hs h => ⟨_, exec_replClear s, ((s.cfg_repl hs _).1 _).trans (s.replClear_group h)⟩,
   fun hs h => ⟨_, exec_replClear s, ((s.cfg_repl hs _).2.1 _).trans (s.replClear_member h)⟩,
   meter_read s, meter_writeFull s, meter_writeKeep s, meter_refresh s⟩

end Sys2Proof.Machine
end

section
/-! SUPPORT. A host reset under which a silt sub-island goes down too, which frees a frame that lies in a tier that there is not. -/

set_option Elab.async false

namespace Sys2Proof.Machine

/-- Every island ON with the line island's hold released, but link 0's module built out, so that its sub-island goes down when the islands
next settle; and a frame on its way to that module that nothing refers to, in a tier whose occupancy would be counted in the management
port's CTL. -/
def strayHost : State :=
  let s := Tests.up Tests.start
  { s.wrb offRstCtl 0 false with
    pwr := { s.pwr with links := 254 }
    frames := [(1, some { bytes := [0], src := 256, refs := 0, moving := some 8, tier := (0x800000 - offTierOcc 0 0) / 0x20 })] }

theorem strayHost_on : strayHost.hostOn = true ∧ strayHost.pwr.fallow = false := by decide +kernel

theorem strayHost_home : homeOf 0x800000 = .host ∧ 0x800000 ≠ offClkPll := by decide +kernel

theorem strayHost_reset : (match execHostResetPin false strayHost with | .next t => t.rd 0x800000 | _ => 0) = 144705009 := by
  decide +kernel

theorem regReset_mgmtCtl : regReset 0x800000 = 144705010 := by decide +kernel

/-- Refutes O17: in `strayHost` the host island's reset gives MGMT.CTL its reset value, and then the link's sub-island goes down and the
frame's one grain is taken from it. -/
theorem not_resetsRestoreRegisters : ¬ Obligations.ResetsRestoreRegisters := by
  unfold Obligations.ResetsRestoreRegisters
  intro h
  obtain ⟨hon, hfallow⟩ := strayHost_on
  obtain ⟨hhome, hpll⟩ := strayHost_home
  obtain ⟨-, hhost, -⟩ := h strayHost 0x800000 (by decide)
  obtain ⟨t, ht, hreset⟩ := hhost hon hfallow hhome hpll
  have hval := strayHost_reset
  rw [show execHostResetPin false strayHost = .next t from ht] at hval
  exact absurd (hval.symm.trans (hreset.trans regReset_mgmtCtl)) (by decide)

end Sys2Proof.Machine
end

section
/-! SUPPORT. What the resets of the line side leave of the register file: the registers of the lowest window, one lemma per operation. -/

set_option Elab.async false

namespace Sys2Proof.Machine

section
variable {K : Nat → Prop}

theorem State.keepRegion_untouched (s : State) (p) (img) : Untouched K s (State.keepRegion s p img) := by
  unfold State.keepRegion
  exact State.harmMod_untouched _ _

theorem State.copyMod_untouched (s : State) (c) (g) : Untouched K s (State.copyMod s c g) := by
  unfold State.copyMod
  exact State.setCopy_untouched _ _ _

theorem State.schedMod_untouched (s : State) (f) : Untouched K s (State.schedMod s f) := by
  unfold State.schedMod
  exact Untouched.of_regs rfl

theorem State.setPortSch_untouched (s : State) (port) (x) : Untouched K s (State.setPortSch s port x) := by
  unfold State.setPortSch
  exact State.schedMod_untouched _ _

theorem State.nextRound_untouched (s : State) (port) (cls) : Untouched K s (State.nextRound s port cls) := by
  unfold State.nextRound
  exact State.schedMod_untouched _ _

theorem State.setFlowList_untouched (s : State) (k) (l) : Untouched K s (State.setFlowList s k l) := by
  unfold State.setFlowList
  exact State.schedMod_untouched _ _

theorem State.setClodList_untouched (s : State) (port) (cls) (tier) (l) : Untouched K s (State.setClodList s port cls
    tier l) :=
  by
  unfold State.setClodList
  exact State.schedMod_untouched _ _

theorem State.setClodDef_untouched (s : State) (k) (n) : Untouched K s (State.setClodDef s k n) := by
  unfold State.setClodDef
  exact State.schedMod_untouched _ _

theorem State.clodLeave_untouched (s : State) (port) (cls) (tier) (clod) : Untouched K s (State.clodLeave s port cls tier
    clod)
  := by
  unfold State.clodLeave
  extract_lets
  split
  · exact Untouched.refl _
  · exact Untouched.cut (fun h1 => Untouched.ite ((h1).trans (State.nextRound_untouched _ _ _)) (h1))
      (State.setClodList_untouched _ _ _ _ _)

theorem State.flowEmptied_untouched (s : State) (flow) : Untouched K s (State.flowEmptied s flow) := by
  unfold State.flowEmptied
  exact Untouched.cut (fun h1 => Untouched.ite ((((h1).trans (State.clodLeave_untouched _ _ _ _ _)).trans
    (State.clodLeave_untouched _ _ _ _ _)).trans (State.setClodDef_untouched _ _ _)) (h1)) ((State.flowMod_untouched _ _
    _).trans (State.setFlowList_untouched _ _ _))

theorem State.classDrained_untouched (s : State) (port) (cls) : Untouched K s (State.classDrained s port cls) := by
  unfold State.classDrained
  exact Untouched.ite (State.setPortSch_untouched _ _ _) (Untouched.refl _)

theorem State.unqueue_untouched (s : State) (i) : Untouched K s (State.unqueue s i) := by
  unfold State.unqueue
  split
  · exact Untouched.refl _
  · exact Untouched.ite (Untouched.refl _) (Untouched.cut (fun h1 => Untouched.cut (fun h2 => (h2).trans
      (State.classDrained_untouched _ _ _)) (Untouched.ite ((h1).trans (State.flowEmptied_untouched _ _)) (h1)))
      ((State.flowMod_untouched _ _ _).trans (State.copyMod_untouched _ _ _)))

theorem State.dropTimers_untouched (s : State) (p) : Untouched K s (State.dropTimers s p) := by
  unfold State.dropTimers
  exact Untouched.of_regs rfl

end

/-- In the lowest window, the wake island's and the first of the host side. -/
def bottomKept (x : Nat) : Prop := x < 0x100000

/-- In the lowest window, or among the registers of the time monitors. -/
def lowKept (x : Nat) : Prop := x < 0x100000 ∨ 0x104000 ≤ x ∧ x < 0x105000

theorem bottomKept.low {x : Nat} (h : bottomKept x) : lowKept x := .inl h

/-- A register that these commands may change. Its proof is by its place in the map. -/
structure LowOff (off : Nat) : Prop where
  out : ¬ lowKept off := by
    simp only [lowKept, lnStatus, offAdmCnt, offAdmEvt, offAdmIngressCtl, offAdmIngressXoff, offAdmPclassOcc, offRingWait,
    offSwapStatus, offTelCnt, offTelEvt, offTierCap2, offTierEvt, offTierOcc] at *
    omega

theorem State.wr_low (s : State) (off w) (h : ¬ lowKept off := by exact LowOff.out {}) :
    Untouched lowKept s (s.wr off w) := .wr h s w

theorem State.wrf_low (s : State) (off hi lo n) (h : ¬ lowKept off := by exact LowOff.out {}) :
    Untouched lowKept s (s.wrf off hi lo n) := .wr h s _

theorem State.wrb_low (s : State) (off i v) (h : ¬ lowKept off := by exact LowOff.out {}) :
    Untouched lowKept s (s.wrb off i v) := .wr h s _

theorem State.wr2_low (s : State) (off n) (h : ¬ lowKept off := by exact LowOff.out {}) (h4 : ¬ lowKept (off + 4) := by
    exact LowOff.out {}) :
    Untouched lowKept s (s.wr2 off n) := .trans (.wr h _ _) (.wr h4 _ _)

theorem State.raiseEvt_low (s : State) (evt i) (he : ¬ lowKept evt := by exact LowOff.out {}) :
    Untouched lowKept s (s.raiseEvt evt i) := .raiseEvt he s i

theorem State.setCnt_low (s : State) (off n) (h : ¬ lowKept off := by exact LowOff.out {}) (h4 : ¬ lowKept (off + 4) :=
    by exact LowOff.out {}) :
    Untouched lowKept s (s.setCnt off n) := .setCnt h h4 s n

theorem State.addCnt_low (s : State) (off n evt wrapBit) (h : ¬ lowKept off := by exact LowOff.out {})
    (h4 : ¬ lowKept (off + 4) := by exact LowOff.out {}) (he : ¬ lowKept evt := by exact LowOff.out {}) :
    Untouched lowKept s (s.addCnt off n evt wrapBit) := .addCnt h h4 he s n wrapBit

theorem State.inc_low (s : State) (off evt wrapBit) (h : ¬ lowKept off := by exact LowOff.out {})
    (h4 : ¬ lowKept (off + 4) := by exact LowOff.out {}) (he : ¬ lowKept evt := by exact LowOff.out {}) :
    Untouched lowKept s (s.inc off evt wrapBit) := .addCnt h h4 he s 1 wrapBit

theorem State.setSwap_low (s : State) (st) : Untouched lowKept s (State.setSwap s st) := by
  unfold State.setSwap
  exact State.wrf_low _ _ _ _ _

theorem State.laneUnlock_low (s : State) (base) (hb : 0x105000 ≤ base := by omega) :
    Untouched lowKept s (State.laneUnlock s base) := by
  unfold State.laneUnlock
  exact State.wrf_low _ _ _ _ _

theorem State.lanePower_low (s : State) (base) (on) (hb : 0x105000 ≤ base := by simp only [siltLane]; omega) :
    Untouched lowKept s (State.lanePower s base on) := by
  unfold State.lanePower
  exact Untouched.ite ((State.wrb_low _ _ _ _).trans (State.wrb_low _ _ _ _)) ((((State.wrb_low _ _ _ _).trans
    (State.wrb_low _ _ _ _)).trans (State.laneUnlock_low _ _)).trans (State.laneUntrain_untouched _ _))

/-- What freeing frames leaves: also the registers of a silt link that lie where no count of a tier and of a class can. -/
def freedKept (x : Nat) : Prop := lowKept x ∨ 0x480000 ≤ x ∧ x < 0x490000 ∧ (x % 0x20 = 0x8 ∨ x % 0x20 = 0xC ∨ x % 0x20 = 0x10)

/-- A register that freeing frames may change. Its proof is by its place in the map. -/
structure FreedOff (off : Nat) : Prop where
  out : ¬ freedKept off := by
    simp only [freedKept, lowKept, offAdmCnt, offAdmEvt, offAdmIngressCtl, offAdmPclassOcc, offTelCnt, offTelEvt, offTierCap2,
      offTierEvt, offTierOcc] at *
    omega

theorem State.wrb_freed (s : State) (off i v) (h : ¬ freedKept off := by exact FreedOff.out {}) :
    Untouched freedKept s (s.wrb off i v) := .wr h s _

theorem State.wr2_freed (s : State) (off n) (h : ¬ freedKept off := by exact FreedOff.out {}) (h4 : ¬ freedKept (off + 4) := by
    exact FreedOff.out {}) :
    Untouched freedKept s (s.wr2 off n) := .trans (.wr h _ _) (.wr h4 _ _)

theorem State.raiseEvt_freed (s : State) (evt i) (he : ¬ freedKept evt := by exact FreedOff.out {}) :
    Untouched freedKept s (s.raiseEvt evt i) := .raiseEvt he s i

theorem State.inc_freed (s : State) (off evt wrapBit) (h : ¬ freedKept off := by exact FreedOff.out {})
    (h4 : ¬ freedKept (off + 4) := by exact FreedOff.out {}) (he : ¬ freedKept evt := by exact FreedOff.out {}) :
    Untouched freedKept s (s.inc off evt wrapBit) := .addCnt h h4 he s 1 wrapBit

theorem State.telHappen_freed (s : State) (port) (cls) (depth) (f) : Untouched freedKept s (State.telHappen s port cls depth
    f) :=
  by
  unfold State.telHappen
  exact Untouched.ite (Untouched.refl _) (Untouched.cut (fun h1 => (by (try extract_lets); split; exact h1; exact Untouched.cut (fun h2 => Untouched.ite (((h2).trans (State.inc_freed _ _ _ _)).trans (State.raiseEvt_freed _ _ _)) (h2)) ((h1).trans (State.telMod_untouched _ _)))) (State.telOpen_untouched _))

theorem State.telDepth_freed (s : State) (port) (cls) (old) (new) : Untouched freedKept s (State.telDepth s port cls old new)
    := by
  unfold State.telDepth
  exact State.telHappen_freed _ _ _ _ _

theorem State.occAdd_freed (s : State) (t) (g) : Untouched freedKept s (State.occAdd s t g) := by
  unfold State.occAdd
  exact State.wr2_freed _ _ _

theorem State.writeNow_freed (s : State) (f) (x) : Untouched freedKept s (State.writeNow s f x) := by
  unfold State.writeNow
  exact Untouched.cut (fun h1 => (by (try extract_lets); split; exact (h1).trans (State.startTimer_untouched _ _ _); exact h1)) ((State.occAdd_freed _ _ _).trans (State.setFrame_untouched _ _ _))

theorem State.writeHeld_freed (s : State) (f) : Untouched freedKept s (State.writeHeld s f) := by
  unfold State.writeHeld
  split
  · exact Untouched.ite (State.writeNow_freed _ _ _) (Untouched.refl _)
  · exact Untouched.refl _

theorem State.writeWaiting_freed (s : State) : Untouched freedKept s (State.writeWaiting s) := by
  unfold State.writeWaiting
  exact Untouched.foldl (Untouched.refl _) (fun _ _ => State.writeHeld_freed _ _)

theorem State.occSub_freed (s : State) (t) (g) : Untouched freedKept s (State.occSub s t g) := by
  unfold State.occSub
  exact Untouched.cut (fun h1 => Untouched.ite ((h1).trans (State.writeWaiting_freed _)) (h1)) (State.wr2_freed _ _ _)

theorem State.setClassCount_freed (s : State) (port) (cls) (n) : Untouched freedKept s (State.setClassCount s port cls n) := by
  unfold State.setClassCount
  exact (State.wr2_freed _ _ _).trans (State.telDepth_freed _ _ _ _ _)

theorem State.setIngress_freed (s : State) (port) (cls) (n) (rising) (hp : port < 256) :
    Untouched freedKept s (State.setIngress s port cls n rising) := by
  unfold State.setIngress
  exact Untouched.cut (fun h1 => Untouched.ite ((h1).trans (State.wrb_freed _ _ _ _)) (Untouched.ite ((h1).trans
    (State.wrb_freed _ _ _ _)) (h1))) (Untouched.of_regs rfl)

theorem State.uncountCopy_freed (s : State) (c) (g) : Untouched freedKept s (State.uncountCopy s c g) := by
  unfold State.uncountCopy
  exact Untouched.cut (fun h1 => (h1).trans (State.setClassCount_freed _ _ _ _)) ((State.flowMod_untouched _ _ _).trans
    (State.clodMod_untouched _ _ _))

theorem State.freeMoved_freed (s : State) (x) : Untouched freedKept s (State.freeMoved s x) := by
  unfold State.freeMoved
  exact Untouched.ite (Untouched.refl _) (State.occSub_freed _ _ _)

theorem State.freeFrame_freed (s : State) (f) (x) : Untouched freedKept s (State.freeFrame s f x) := by
  unfold State.freeFrame
  extract_lets t
  have ht : Untouched freedKept s t := Untouched.ite (State.setFrame_untouched _ _ _)
    (((State.setFrame_untouched _ _ _).trans (State.freeMoved_freed _ _)).trans (State.occSub_freed _ _ _))
  split
  · split
    next hsrc => exact ht.trans (State.setIngress_freed _ _ _ _ _ hsrc)
    next => exact ht
  · exact ht

theorem State.unref_freed (s : State) (f) : Untouched freedKept s (State.unref s f) := by
  unfold State.unref
  split
  · exact Untouched.refl _
  · exact Untouched.ite (State.setFrame_untouched _ _ _) (Untouched.ite (State.setFrame_untouched _ _ _)
      (State.freeFrame_freed _ _ _))

theorem State.endCopy_freed (s : State) (c) : Untouched freedKept s (State.endCopy s c) := by
  unfold State.endCopy
  split
  · exact Untouched.refl _
  · exact Untouched.ite (State.setCopy_untouched _ _ _) (((State.uncountCopy_freed _ _ _).trans (State.setCopy_untouched _
      _ _)).trans (State.unref_freed _ _))

theorem State.discardCopy_freed (s : State) (c) : Untouched freedKept s (State.discardCopy s c) := by
  unfold State.discardCopy
  split
  · exact Untouched.refl _
  · exact (State.copyFate_untouched _ _ _).trans (State.endCopy_freed _ _)

theorem State.admCount_freed (s : State) (i) (hi : i < 9) : Untouched freedKept s (State.admCount s i) := by
  unfold State.admCount
  exact Untouched.cut (fun h1 => Untouched.ite ((h1).trans (State.raiseEvt_freed _ _ _)) (h1)) (State.inc_freed _ _ _ _)

theorem State.discardCopies_freed (s : State) (f) (k) (hk : ∀ x, Untouched freedKept x (k x)) : Untouched freedKept s
    (State.discardCopies s f k)
  := by
  unfold State.discardCopies
  exact Untouched.foldl (Untouched.refl _) (fun _ _ => ((hk _).trans (State.unqueue_untouched _ _)).trans
    (State.discardCopy_freed _ _))

theorem State.tierLoss_freed (s : State) (f) : Untouched freedKept s (State.tierLoss s f) := by
  unfold State.tierLoss
  exact State.discardCopies_freed _ _ _ (fun _ => State.admCount_freed _ _ (by decide))

theorem State.moveBack_freed (s : State) (k) (f) : Untouched freedKept s (State.moveBack s k f) := by
  unfold State.moveBack
  split
  · exact Untouched.refl _
  · exact Untouched.ite (State.freeFrame_freed _ _ _) (Untouched.ite (State.setFrame_untouched _ _ _) (Untouched.ite
      (((State.setFrame_untouched _ _ _).trans (State.freeMoved_freed _ _)).trans (State.tierLoss_freed _ _))
      ((State.setFrame_untouched _ _ _).trans (State.freeMoved_freed _ _))))

theorem State.moduleLoss_freed (s : State) (f) : Untouched freedKept s (State.moduleLoss s f) := by
  unfold State.moduleLoss
  split
  · exact Untouched.refl _
  · exact Untouched.ite (State.freeFrame_freed _ _ _) (((State.setFrame_untouched _ _ _).trans (State.freeMoved_freed _
      _)).trans (State.tierLoss_freed _ _))

theorem State.capLeave_freed (s : State) (k) : Untouched freedKept s (State.capLeave s k) := by
  unfold State.capLeave
  exact Untouched.ite (State.wr2_freed _ _ _) (Untouched.refl _)

theorem State.siltUnlink_freed (s : State) (k) : Untouched freedKept s (State.siltUnlink s k) := by
  unfold State.siltUnlink
  exact ((State.capLeave_freed _ _).trans (State.siltMod_untouched _ k fun x => { retries := x.retries })).trans
    (Untouched.of_regs rfl)

theorem State.siltVoid_freed (s : State) (k) : Untouched freedKept s (State.siltVoid s k) := by
  unfold State.siltVoid
  exact Untouched.cut (fun h1 => Untouched.cut (fun h2 => Untouched.cut (fun h3 => Untouched.cut (fun h4 =>
    Untouched.foldl (h4) (fun _ _ => State.moveBack_freed _ _ _)) (Untouched.foldl (h3) (fun _ _ => State.moduleLoss_freed _
    _))) (Untouched.ite (h2) ((h2).trans (State.raiseEvt_freed _ _ _)))) ((h1).trans (Untouched.of_regs rfl)))
    (State.siltUnlink_freed _ _)

theorem State.unref_low (s : State) (f) : Untouched lowKept s (State.unref s f) := (s.unref_freed f).mono fun _ => .inl

theorem State.discardCopy_low (s : State) (c) : Untouched lowKept s (State.discardCopy s c) := (s.discardCopy_freed c).mono fun _ => .inl

theorem State.siltVoid_low (s : State) (k) : Untouched lowKept s (State.siltVoid s k) := (s.siltVoid_freed k).mono fun _ => .inl

theorem State.resetRegs_rest {K : Nat → Prop} (s : State) (p) (hp : ∀ x, K x → p (homeOf (x % bankSpan)) = false) :
    Untouched K s (State.resetRegs s p) := by
  intro x hx
  unfold State.resetRegs State.rd
  rw [sget_sdrop, hp x hx]
  rfl

/-- A register of the lowest window is the wake island's or the host's. -/
theorem homeOf_bottom {x : Nat} (h : bottomKept x) : homeOf (x % bankSpan) = .wake ∨ homeOf (x % bankSpan) = .host := by
  unfold bottomKept at h
  have hx : x % bankSpan = x := Nat.mod_eq_of_lt (by unfold bankSpan; omega)
  rw [hx, homeOf]
  cases wakeHeld x with
  | true => exact .inl rfl
  | false => exact .inr (if_pos h)

theorem notHome_bottom {p : Home → Bool} {x : Nat} (h : bottomKept x) (hw : p .wake = false) (hh : p .host = false) :
    p (homeOf (x % bankSpan)) = false := by
  obtain e | e := homeOf_bottom h
  · rw [e, hw]
  · rw [e, hh]

/-- The time monitors are the line island's. -/
theorem notHome_low {p : Home → Bool} {x : Nat} (h : lowKept x) (hw : p .wake = false) (hh : p .host = false)
    (hl : p .line = false) : p (homeOf (x % bankSpan)) = false := by
  obtain h | ⟨h1, h2⟩ := h
  · exact notHome_bottom h hw hh
  · have hx : x % bankSpan = x := Nat.mod_eq_of_lt (by unfold bankSpan; omega)
    have hwake : wakeHeld x = false := by
      unfold wakeHeld
      simp
      omega
    have hline : homeOf x = .line := by
      simp only [homeOf, hwake]
      simp (disch := omega) only [if_neg, if_pos, Bool.false_eq_true, if_false]
    rw [hx, hline, hl]

/-- An empty image leaves the registers outside the bed windows as they are. -/
theorem State.loadImage_empty_low (s : State) (b) : Untouched lowKept s (State.loadImage s b {}) := by
  intro x hx
  have hb : inImage b x = false := by
    have hlow : ¬ bedBase b ≤ x % bankSpan := by
      unfold lowKept at hx
      unfold bedBase bankSpan
      omega
    simp [inImage, hlow]
  unfold State.loadImage State.rd
  simp only [List.foldl_nil]
  rw [sget_sdrop, hb]
  rfl

theorem State.resetLine_bottom (s : State) : Untouched bottomKept s (State.resetLine s) := by
  unfold State.resetLine
  extract_lets t
  have ht : Untouched bottomKept s t :=
    (State.resetRegs_rest s _ fun x hx => notHome_bottom hx rfl rfl).trans (State.dropTimers_untouched _ _)
  exact ht.trans (Untouched.of_regs rfl)

theorem State.clearBed_low (s : State) (n) : Untouched lowKept s (State.clearBed s n) := by
  unfold State.clearBed
  exact Untouched.cut (fun h1 => Untouched.cut (fun h2 => (h2).trans (Untouched.of_regs rfl)) (((h1).trans
    (State.resetRegs_rest _ _ fun x hx => notHome_low hx rfl rfl rfl)).trans
    (State.loadImage_empty_low _ _))) (State.dropTimers_untouched _ _)

theorem State.swapCut_low (s : State) (n) : Untouched lowKept s (State.swapCut s n) := by
  unfold State.swapCut
  exact Untouched.ite ((State.setSwap_low _ _).trans (State.harmMod_untouched _ _)) (Untouched.ite ((State.setSwap_low _
    _).trans (State.harmMod_untouched _ _)) (Untouched.refl _))

theorem State.resetBed_low (s : State) (n) : Untouched lowKept s (State.resetBed s n) := by
  unfold State.resetBed
  exact Untouched.ite (State.clearBed_low _ _) (Untouched.cut (fun h1 => Untouched.cut (fun h2 => ((h2).trans
    (State.swapCut_low _ _)).trans (State.clearBed_low _ _)) ((h1).trans (State.harmMod_untouched _ _))) (Untouched.ite
    (State.keepRegion_untouched _ _ _) (Untouched.refl _)))

theorem State.resetSilt_low (s : State) (k) : Untouched lowKept s (State.resetSilt s k) := by
  unfold State.resetSilt
  extract_lets t
  have ht : Untouched lowKept s t := Untouched.foldl (State.siltVoid_low _ _) (fun _ _ => State.lanePower_low _ _ _)
  clear_value t
  have hu : Untouched lowKept s (t.resetRegs fun h => h == .silt k) :=
    ht.trans (State.resetRegs_rest _ _ fun x hx => notHome_low (p := fun h => h == .silt k) hx rfl rfl rfl)
  exact hu.trans (Untouched.of_regs rfl)

end Sys2Proof.Machine
end

section
/-! SUPPORT. What the islands leave alone as they settle (R65 to R67): the registers of the wake island that control them, and the power
state but for the islands' own states; what the line side leaves of the host's; and which islands are ON or HELD after. -/

set_option Elab.async false

namespace Sys2Proof.Machine

/-- The power state without the islands' own states and without what the clock monitor has seen. -/
def Pwr.fixed (p : Pwr) : Pwr := { p with isl := [], monRan := false }

/-- The registers of the lowest window that no island of the line side changes as it goes down. -/
def lineKept (x : Nat) : Prop := x < 0x4400 ∧ x ≠ 0x101C ∧ x ≠ 0x1020

/-- Those of them that are the wake island's, but for CLK.PLL: no island changes them as it goes down. -/
def ctlKept (x : Nat) : Prop := lineKept x ∧ wakeHeld x = true ∧ x ≠ offClkPll

theorem lineKept.bottom {x : Nat} (h : lineKept x) : bottomKept x := by
  unfold lineKept at h
  unfold bottomKept
  omega

theorem lineKept.low {x : Nat} (h : lineKept x) : lowKept x := h.bottom.low

/-- What an island of the line side leaves as it was. -/
structure LineSettle (s t : State) : Prop where
  rd : Untouched lineKept s t
  fixed : t.pwr.fixed = s.pwr.fixed
  wipe : t.sec.wipe = s.sec.wipe

/-- What every island leaves as it was. -/
structure CtlSettle (s t : State) : Prop where
  rd : Untouched ctlKept s t
  fixed : t.pwr.fixed = s.pwr.fixed

theorem LineSettle.refl (s : State) : LineSettle s s := ⟨.refl s, rfl, rfl⟩

theorem LineSettle.trans {s t u : State} (h : LineSettle s t) (g : LineSettle t u) : LineSettle s u :=
  ⟨h.rd.trans g.rd, g.fixed.trans h.fixed, g.wipe.trans h.wipe⟩

theorem LineSettle.foldl {s t : State} {f : State → Nat → State} {l : List Nat} (h : LineSettle s t)
    (g : ∀ u, ∀ i ∈ l, LineSettle u (f u i)) : LineSettle s (l.foldl f t) := by
  induction l generalizing t with
  | nil => exact h
  | cons a l ih => exact ih (h.trans (g t a List.mem_cons_self)) fun u i hi => g u i (List.mem_cons_of_mem a hi)

theorem LineSettle.ctl {s t : State} (h : LineSettle s t) : CtlSettle s t := ⟨fun x hx => h.rd x hx.1, h.fixed⟩

theorem CtlSettle.refl (s : State) : CtlSettle s s := ⟨.refl s, rfl⟩

theorem CtlSettle.trans {s t u : State} (h : CtlSettle s t) (g : CtlSettle t u) : CtlSettle s u :=
  ⟨h.rd.trans g.rd, g.fixed.trans h.fixed⟩

theorem CtlSettle.foldl {s t : State} {f : State → Nat → State} {l : List Nat} (h : CtlSettle s t)
    (g : ∀ u, ∀ i ∈ l, CtlSettle u (f u i)) : CtlSettle s (l.foldl f t) := by
  induction l generalizing t with
  | nil => exact h
  | cons a l ih => exact ih (h.trans (g t a List.mem_cons_self)) fun u i hi => g u i (List.mem_cons_of_mem a hi)

/-! ## The pieces -/

/-- An operation that changes neither the power state nor the security state, and no register of the lowest window. -/
theorem LineSettle.of_within {ps : List Part} {s t : State} (hw : Within ps s t) (hr : Untouched lineKept s t) (hp : Part.pwr ∉ ps)
    (hs : Part.sec ∉ ps) : LineSettle s t := by
  have hpwr : t.pwr = s.pwr := hw.same .pwr hp
  have hsec : t.sec = s.sec := hw.same .sec hs
  exact ⟨hr, congrArg Pwr.fixed hpwr, congrArg Sec.wipe hsec⟩

theorem State.resetLine_settle (s : State) : LineSettle s s.resetLine :=
  .of_within s.resetLine_within (s.resetLine_bottom.mono fun _ => lineKept.bottom) (by decide) (by decide)

theorem State.resetBed_settle (s : State) (n : Nat) : LineSettle s (s.resetBed n) :=
  .of_within (s.resetBed_within n) ((s.resetBed_low n).mono fun _ => lineKept.low) (by decide) (by decide)

theorem State.resetSilt_settle (s : State) (k : Nat) : LineSettle s (s.resetSilt k) :=
  .of_within (s.resetSilt_within k) ((s.resetSilt_low k).mono fun _ => lineKept.low) (by decide) (by decide)

theorem State.setIslAt_settle (s : State) (i : Nat) (v : IslandSt) : LineSettle s (s.setIslAt i v) := ⟨.of_regs rfl, rfl, rfl⟩

theorem State.startTimer_settle (s : State) (t : Timer) (ns : Nat) : LineSettle s (s.startTimer t ns) := ⟨.of_regs rfl, rfl, rfl⟩

theorem State.resetIsland_settle (s : State) {i : Nat} (hi : i ≠ 0) : LineSettle s (s.resetIsland i) := by
  unfold State.resetIsland
  rw [if_neg hi]
  split
  · exact s.resetLine_settle
  · split
    · exact s.resetBed_settle _
    · exact s.resetSilt_settle _

theorem State.toHeld_settle (s : State) {i : Nat} (hi : i ≠ 0) : LineSettle s (s.toHeld i) := by
  have h : LineSettle s ((s.resetIsland i).setIslAt i .held) := (s.resetIsland_settle hi).trans (State.setIslAt_settle _ _ _)
  unfold State.toHeld
  extract_lets t
  split
  · exact h
  · exact h.trans (State.setIslAt_settle _ _ _)

theorem State.countLineLoss_settle (s : State) : LineSettle s s.countLineLoss :=
  .of_within s.countLineLoss_within (.setCnt (by simp [lineKept, offRstLineLossLo]) (by simp [lineKept, offRstLineLossLo]) _ _)
    (by decide) (by decide)

theorem State.ppsClamp_settle (s : State) : LineSettle s s.ppsClamp := by
  refine .of_within s.ppsClamp_within ?_ (by decide) (by decide)
  exact Untouched.foldl (.refl s) fun u j => .ite (State.emit_untouched _ _) (.refl u)

theorem State.augFaulted_line (s : State) (c cause : Nat) : Untouched lineKept s (s.augFaulted c cause) := by
  unfold State.augFaulted
  extract_lets t src u
  have ht : Untouched lineKept s t := State.augMod_untouched s c _
  have hu : Untouched lineKept s u := ht.trans (.of_regs rfl)
  refine hu.trans ((((Untouched.wr ?_ _ _).trans (.wr ?_ _ _)).trans (.addCnt ?_ ?_ ?_ _ _ _)).trans (.raiseEvt ?_ _ _)) <;>
  · simp only [lineKept, offChState, offCntAugFault, offAugEvt]
    omega

theorem State.augLineDown_settle (s : State) : LineSettle s s.augLineDown :=
  .of_within s.augLineDown_within (Untouched.foldl (.refl s) fun u c => .ite (u.augFaulted_line c 9) (.refl u)) (by decide) (by decide)

theorem State.dbgClose_settle (s : State) (port : Bool) : LineSettle s (s.dbgClose port) := by
  have hw := s.dbgClose_within port
  refine ⟨?_, congrArg Pwr.fixed (hw.same .pwr (by decide)), ?_⟩
  · unfold State.dbgClose
    refine .ite (.refl s) (.trans (.trans (State.dbgMod_untouched _ _ _) (State.stopTimer_untouched _ _)) (.raiseEvt ?_ _ _))
    simp [lineKept, offSecEvt]
  · unfold State.dbgClose
    split
    · rfl
    · cases port <;> simp [State.dbgMod]

theorem State.measZero_settle (s : State) : LineSettle s (s.wrs (offMeas 0) (List.replicate 12 0)) := by
  refine ⟨fun x hx => State.rd_wrs_ne _ _ _ (.inl ?_), by rw [(s.wrs_fields _ _).2.2.2.2.2.2.2.1], by simp⟩
  unfold lineKept at hx
  simp only [offMeas]
  omega

theorem mem_subIslands {i : Nat} : i ∈ subIslands ↔ 2 ≤ i ∧ i < 27 := by
  simp only [subIslands, List.mem_map, List.mem_range]
  constructor
  · rintro ⟨a, ha, rfl⟩
    omega
  · exact fun h => ⟨i - 2, by omega, by omega⟩

theorem State.lineDown_settle (s : State) : LineSettle s s.lineDown := by
  unfold State.lineDown
  refine .foldl ?_ fun u i hi => u.toHeld_settle (by have := mem_subIslands.1 hi; omega)
  exact (((((s.countLineLoss_settle.trans (State.ppsClamp_settle _)).trans (State.augLineDown_settle _)).trans
    (State.dbgClose_settle _ true)).trans (State.measZero_settle _)).trans (State.toHeld_settle _ (by omega)))

/-- An island of the line side settles. -/
theorem State.settle_line (s : State) {i : Nat} (was : Bool) (hi : i ≠ 0) : LineSettle s (s.settle i was) := by
  unfold State.settle
  split
  · split
    · exact (s.setIslAt_settle _ _).trans (State.startTimer_settle _ _ _)
    · exact .refl s
  · exact .refl s
  · split
    · exact .refl s
    · exact s.setIslAt_settle _ _
  · split
    · exact (s.resetIsland_settle hi).trans (State.setIslAt_settle _ _ _)
    · exact .refl s
  · split
    · unfold State.islandDown
      rw [if_neg hi]
      split
      · exact s.lineDown_settle
      · exact s.toHeld_settle hi
    · exact .refl s

/-! ## The host island -/

theorem State.resetHost_ctl (s : State) : CtlSettle s s.resetHost := by
  have hpwr : s.resetHost.pwr = s.pwr := s.resetHost_within.same .pwr (by decide)
  refine ⟨?_, congrArg Pwr.fixed hpwr⟩
  have hcount : Untouched ctlKept s ((s.dbgClose false).dbgClose true).countHostDown := by
    refine .trans (.trans (fun x hx => (s.dbgClose_settle false).rd x hx.1) fun x hx => (State.dbgClose_settle _ true).rd x hx.1) ?_
    unfold State.countHostDown
    refine .ite (.addCnt ?_ ?_ ?_ _ _ _) (.refl _) <;>
    · simp only [ctlKept, lineKept, offTelDrop, offTelEvt]
      omega
  have hregs : ∀ u : State, Untouched ctlKept u (u.resetRegs fun h => h == .host) := fun u x hx => by
    have hm : x % bankSpan = x := Nat.mod_eq_of_lt (by have := hx.1.1; unfold bankSpan; omega)
    have hw : homeOf (x % bankSpan) = .wake := by rw [hm, homeOf, if_pos hx.2.1]
    unfold State.resetRegs State.rd
    rw [sget_sdrop, hw]
    rfl
  unfold State.resetHost
  extract_lets t lost u
  have hu : Untouched ctlKept s u :=
    ((hcount.trans (hregs _)).trans (State.dropTimers_untouched _ _)).trans (.wr (by simp [ctlKept]) _ _)
  exact hu.trans (.of_regs rfl)

theorem State.hostDown_ctl (s : State) : CtlSettle s s.hostDown := by
  have h : CtlSettle s (s.resetHost.setIslAt 0 .held) := s.resetHost_ctl.trans (State.setIslAt_settle _ _ _).ctl
  unfold State.hostDown State.toHeld
  extract_lets t
  split
  · exact h
  · exact h.trans (State.setIslAt_settle _ _ _).ctl

/-- Any island settles. -/
theorem State.settle_ctl (s : State) (i : Nat) (was : Bool) : CtlSettle s (s.settle i was) := by
  by_cases hi : i = 0
  · subst hi
    unfold State.settle
    split
    · split
      · exact ((s.setIslAt_settle _ _).trans (State.startTimer_settle _ _ _)).ctl
      · exact .refl s
    · exact .refl s
    · split
      · exact .refl s
      · exact (s.setIslAt_settle _ _).ctl
    · split
      · exact s.resetHost_ctl.trans (State.setIslAt_settle _ _ _).ctl
      · exact .refl s
    · split
      · exact s.hostDown_ctl
      · exact .refl s
  · exact (s.settle_line was hi).ctl

theorem State.settleAll_ctl (s before : State) : CtlSettle s (s.settleAll before) :=
  .foldl (.foldl (.refl s) fun u i _ => by
    split
    · exact u.settle_ctl i true
    · exact .refl u) fun u i _ => u.settle_ctl i _

/-! ## Enables and holds -/

theorem State.isRun_congr {s t : State} (h : t.rd offPwrState = s.rd offPwrState) : t.isRun = s.isRun := by
  rw [State.isRun, State.isRun, State.rdf, State.rdf, h]

/-- An island's enable rests on what no island changes. -/
theorem CtlSettle.enabled {s t : State} (h : CtlSettle s t) (i : Nat) : t.enabled i = s.enabled i := by
  have hk : ∀ x, 0x2000 ≤ x ∧ x < 0x3000 ∨ 0x3200 ≤ x ∧ x < 0x330C → t.rd x = s.rd x := fun x hx =>
    h.rd x ⟨by unfold lineKept; omega, by unfold wakeHeld; simp; omega, by unfold offClkPll; omega⟩
  have hrun : t.isRun = s.isRun := State.isRun_congr (hk _ (by simp [offPwrState]))
  have hctl : t.rd offPwrIslandCtl = s.rd offPwrIslandCtl := hk _ (by simp [offPwrIslandCtl])
  have hmap : ∀ kind n, t.mapped kind n = s.mapped kind n := fun kind n => by
    have happ : t.pwr.applied = s.pwr.applied := congrArg (·.applied) h.fixed
    unfold State.mapped
    rw [happ]
    congr 1
    rw [Bool.eq_iff_iff, List.any_eq_true, List.any_eq_true]
    exact exists_congr fun m => and_congr_right fun hm => by
      rw [hk _ (by have := List.mem_range.1 hm; simp only [offMapRt]; omega)]
  have hfallow : t.pwr.fallow = s.pwr.fallow := congrArg (·.fallow) h.fixed
  have hopt : t.pwr.options = s.pwr.options := congrArg (·.options) h.fixed
  have hlinks : t.pwr.links = s.pwr.links := congrArg (·.links) h.fixed
  simp only [State.enabled, State.rdb, hrun, hctl, hmap, hfallow, State.hasFallow, State.hasLink, State.hasHardpan, hopt, hlinks]

end Sys2Proof.Machine
end

section
/-! SUPPORT. The lifecycle, the keys and the fuse ledger by their commands (R459, R464, R466). -/

set_option Elab.async false

namespace Sys2Proof.Machine

/-! ## A hold of the line island, while the host island stays up -/

/-- The host island is left in peace: it is enabled and not held, and the PLL is locked. -/
structure State.HostStays (s : State) : Prop where
  fallow : s.pwr.fallow = false
  locked : s.pwr.pllLocked = true
  free : s.held 0 = false

theorem State.HostStays.congr {s t : State} (h : s.HostStays) (hf : t.pwr.fixed = s.pwr.fixed) : t.HostStays := by
  have hfallow : t.pwr.fallow = s.pwr.fallow := congrArg (·.fallow) hf
  have hlocked : t.pwr.pllLocked = s.pwr.pllLocked := congrArg (·.pllLocked) hf
  have hpin : t.pwr.hostRstN = s.pwr.hostRstN := congrArg (·.hostRstN) hf
  have hfuses : t.pwr.fusesSensed = s.pwr.fusesSensed := congrArg (·.fusesSensed) hf
  have hheld : t.held 0 = s.held 0 := by simp only [State.held, if_true, hpin, hfuses]
  exact ⟨hfallow.trans h.fallow, hlocked.trans h.locked, hheld.trans h.free⟩

theorem State.HostStays.enabled {s : State} (h : s.HostStays) : s.enabled 0 = true := by simp [State.enabled, h.fallow]

theorem State.HostStays.settle {s : State} (h : s.HostStays) : s.settle 0 true = s := by
  have he := h.enabled
  unfold State.settle
  split <;> simp [he, h.locked, h.free]

theorem LineSettle.settleAll {s t : State} (h : LineSettle s t) (hs : s.HostStays) {before : State} (hb : before.enabled 0 = true) :
    LineSettle s (t.settleAll before) := by
  have hstep : ∀ (l : List Nat) (f : State → Nat → State) (u : State), LineSettle s u →
      (∀ v i, LineSettle s v → LineSettle v (f v i)) → LineSettle s (l.foldl f u) := by
    intro l f u hu hf
    induction l generalizing u with
    | nil => exact hu
    | cons i l ih => exact ih _ (hu.trans (hf u i hu))
  unfold State.settleAll
  refine hstep _ _ _ (h.foldl fun u i hi => ?_) fun v i hv => ?_
  · split
    · exact u.settle_line true (by have := mem_subIslands.1 hi; omega)
    · exact .refl u
  · by_cases hi : i = 0
    · subst hi
      rw [hb, (hs.congr hv.fixed).settle]
      exact .refl v
    · exact v.settle_line _ hi

/-- LINE_HOLD is set while the host island stays up. -/
theorem State.setLineHold_line {s : State} (hs : s.HostStays) : LineSettle (s.wrb offRstCtl 0 true) (s.setLineHold true) ∨
    LineSettle ((s.wrb offRstCtl 0 true).cause 4) (s.setLineHold true) := by
  unfold State.setLineHold
  extract_lets t
  have ht : t.HostStays := hs.congr rfl
  split
  · exact .inr ((LineSettle.refl _).settleAll (s := t.cause 4) (ht.congr rfl) hs.enabled)
  · exact .inl (.refl _)

theorem State.setLineHold_rd {s : State} (hs : s.HostStays) {x : Nat} (hx : lineKept x) (hc : x ≠ offRstCtl) (hc2 : x ≠ offRstCause) :
    (s.setLineHold true).rd x = s.rd x := by
  obtain h | h := State.setLineHold_line hs
  · rw [h.rd x hx, State.rd_wrb_ne _ _ _ hc]
  · rw [h.rd x hx, State.cause, State.rd_wrb_ne _ _ _ hc2, State.rd_wrb_ne _ _ _ hc]

theorem State.setLineHold_hold {s : State} (hs : s.HostStays) : (s.setLineHold true).rdb offRstCtl 0 = true := by
  have hk : lineKept offRstCtl := by simp [lineKept, offRstCtl]
  obtain h | h := State.setLineHold_line hs
  · rw [State.rdb, h.rd _ hk]
    simp [bit_setBit]
  · rw [State.rdb, h.rd _ hk, State.cause, State.rd_wrb_ne _ _ _ (by simp [offRstCtl, offRstCause])]
    simp [bit_setBit]

theorem State.setLineHold_fields {s : State} (hs : s.HostStays) :
    (s.setLineHold true).pwr.fixed = s.pwr.fixed ∧ (s.setLineHold true).sec.wipe = s.sec.wipe := by
  obtain h | h := State.setLineHold_line hs <;> exact ⟨h.fixed, h.wipe⟩

/-! ## LC.REQ -/

theorem noRegion_lcReq : noRegion offLcReq := by simp [noRegion, offLcReq, offReplCmd]

theorem noRegion_keyRevoke : noRegion offKeyRevoke := by simp [noRegion, offKeyRevoke, offReplCmd]

theorem State.lkOk_of_lifecycle {s : State} {g : LkGroup} (h : s.lifecycle = 0 ∨ s.lifecycle = 1) (hg : g = .life ∨ g = .keys) (port : Bool) :
    s.lkOk port g = true := by
  unfold State.lkOk
  obtain h | h := h <;> obtain rfl | rfl := hg <;> rw [h] <;> rfl

theorem State.lkOk_secured {s : State} {g : LkGroup} (h : s.lifecycle = 2) (hg : g = .life ∨ g = .keys) (port : Bool) :
    s.lkOk port g = false := by
  unfold State.lkOk
  obtain rfl | rfl := hg <;> rw [h] <;> rfl

/-- A request taken up: BUSY, with no RESULT. -/
def State.lcBusy (s : State) : State := (s.wrb offLcReq 30 true).wrf offLcReq 29 28 0

/-- The target of a request is stored. -/
def State.lcStore (s : State) (v : Word) : State := s.wrf offLcReq 1 0 (fld 1 0 v)

theorem State.rdb_lcStore (s : State) (v : Word) : (s.lcStore v).rdb offLcReq 30 = s.rdb offLcReq 30 := by
  simp [State.lcStore, State.rdb, bit_setFld]

/-- A request with GO while none is in progress is judged by the write map and then by the lifecycle. -/
theorem State.lcReqWrite_go (s : State) {v : Word} (hb : s.rdb offLcReq 30 = false) (hg : bit 31 v = true) :
    s.lcReqWrite false v = (s.lcStore v).lk false offLcReq .life fun s => s.lcGo v := by
  have h := (s.rdb_lcStore v).trans hb
  unfold State.lcReqWrite
  rw [hg, show s.wrf offLcReq 1 0 (fld 1 0 v) = s.lcStore v from rfl]
  dsimp only
  rw [h]
  rfl

theorem State.lifecycle_lcStore (s : State) (v : Word) : (s.lcStore v).lifecycle = s.lifecycle := by
  rw [State.lifecycle, State.lifecycle, State.lcStore, (s.wrf_fields _ _ _ _).2.2.2.2.2.2.2.1]

theorem State.timerOn_lcStore (s : State) (v : Word) (x : Timer) : (s.lcStore v).timerOn x = s.timerOn x := by
  rw [State.timerOn, State.timerOn, State.lcStore, (s.wrf_fields _ _ _ _).2.2.2.2.1]

/-- An access of LC.REQ with GO while none is in progress, where the map lets it act. -/
theorem State.completes_lcGo {s : State} {v : Word} {P : State → Prop} (hs : s.serves offLcReq) (hb : s.rdb offLcReq 30 = false)
    (hl : s.lifecycle = 0 ∨ s.lifecycle = 1) (h : P (((s.lcStore v).lcGo (setBit 31 true v)).answer false 0)) :
    s.completes (.lcRequest v) P := by
  refine State.completes_cfg (exec_lcRequest s) hs noRegion_lcReq ?_
  have hstore : s.lcStore (setBit 31 true v) = s.lcStore v := by
    unfold State.lcStore
    rw [fld_setBit_ne 1 0 31 true v (by omega) (by omega)]
  rw [s.lcReqWrite_go hb (by simp [bit_setBit]), hstore, State.lk, State.lkOk_of_lifecycle (by rwa [s.lifecycle_lcStore]) (.inl rfl), if_pos rfl]
  exact h

theorem State.lcGo_begin {s : State} {v : Word} (hv : fld 1 0 v = 1) (hl : s.lifecycle = 0) : s.lcGo v = s.lcBusy.lcBlowBegin 0 v := by
  unfold State.lcGo
  rw [hl, hv]
  rfl

theorem State.lcGo_wipe {s : State} {v : Word} (hv : fld 1 0 v = 2) (hl : s.lifecycle = 0 ∨ s.lifecycle = 1 ∧ s.timerOn .returnArm = true) :
    s.lcGo v = s.lcBusy.lcWipe (if s.lifecycle = 0 then 2 else 1) v := by
  unfold State.lcGo
  obtain h | ⟨h, harm⟩ := hl
  · rw [h, hv]
    rfl
  · rw [h, hv, harm]
    rfl

theorem State.lcGo_refused {s : State} {v : Word} (hl : s.lifecycle = 1) (hv : fld 1 0 v ≠ 2 ∨ s.timerOn .returnArm = false) :
    s.lcGo v = s.wrf offLcReq 29 28 2 := by
  unfold State.lcGo
  rw [hl]
  obtain h | h := hv
  · split <;> simp_all
  · split <;> simp_all

theorem lifecycle_begin (s : State) (v : Word) (hs : s.serves offLcReq) (hb : s.rdb offLcReq 30 = false) (hl : s.lifecycle = 0)
    (hv : fld 1 0 v = 1) :
    s.completes (.lcRequest v) fun t => t.sec.lcBlow = some (0, setBit 31 true v) ∧ t.rdb offLcReq 30 = true ∧
        t.rdf offLcReq 29 28 = 0 ∧ t.pwr = s.pwr := by
  refine State.completes_lcGo hs hb (.inl hl) ?_
  have hv' : fld 1 0 (setBit 31 true v) = 1 := by rw [fld_setBit_ne 1 0 31 true v (by omega) (by omega), hv]
  rw [State.lcGo_begin hv' ((s.lifecycle_lcStore v).trans hl)]
  simp [State.lcBlowBegin, State.lcBusy, State.lcStore, State.rdb, State.rdf, bit_setFld, bit_setBit, fld_setFld]

theorem lifecycle_refused (s : State) (v : Word) (hs : s.serves offLcReq) (hb : s.rdb offLcReq 30 = false) (hl : s.lifecycle = 1)
    (hv : fld 1 0 v ≠ 2 ∨ s.timerOn .returnArm = false) :
    s.completes (.lcRequest v) fun t => t.rdf offLcReq 29 28 = 2 ∧ t.sec = s.sec ∧ t.pwr = s.pwr := by
  refine State.completes_lcGo hs hb (.inr hl) ?_
  rw [State.lcGo_refused ((s.lifecycle_lcStore v).trans hl)
    (by rwa [s.timerOn_lcStore, fld_setBit_ne 1 0 31 true v (by omega) (by omega)])]
  simp [State.lcStore, State.rdf, fld_setFld]

theorem lifecycle_wipe (s : State) (v : Word) (hs : s.serves offLcReq) (hb : s.rdb offLcReq 30 = false) (hw : s.sec.wipe = none)
    (hv : fld 1 0 v = 2) (hl : s.lifecycle = 0 ∨ (s.lifecycle = 1 ∧ s.timerOn .returnArm = true)) (hstay : s.HostStays) :
    s.completes (.lcRequest v) fun t =>
        t.sec.wipe = some (.blow (if s.lifecycle = 0 then 2 else 1) (setBit 31 true v)) ∧ t.rdb offLcReq 30 = true ∧
        t.rdb offRstCtl 0 = true ∧ t.pwr.life = s.pwr.life := by
  refine State.completes_lcGo hs hb (hl.imp id And.left) ?_
  have hv' : fld 1 0 (setBit 31 true v) = 2 := by rw [fld_setBit_ne 1 0 31 true v (by omega) (by omega), hv]
  rw [State.lcGo_wipe hv' (by rwa [s.lifecycle_lcStore, s.timerOn_lcStore]), s.lifecycle_lcStore]
  generalize (if s.lifecycle = 0 then 2 else 1) = k
  have hnone : ((s.lcStore v).lcBusy).sec.wipe = none := by simpa [State.lcBusy, State.lcStore] using hw
  rw [State.lcWipe, hnone, if_neg (by simp), State.wipeBegin]
  let u := (s.lcStore v).lcBusy.secMod fun x => { x with wipe := some (.blow k (setBit 31 true v)) }
  have hu : u = (s.lcStore v).lcBusy.secMod fun x => { x with wipe := some (.blow k (setBit 31 true v)) } := rfl
  have hstayu : u.HostStays := hstay.congr (by simp [hu, State.lcBusy, State.lcStore])
  obtain ⟨hfixed, hwipe⟩ := State.setLineHold_fields hstayu
  have hlife : (u.setLineHold true).pwr.life = u.pwr.life := congrArg (·.life) hfixed
  simp only [State.answer_fields, State.answer_rdb]
  refine ⟨hwipe.trans (by simp [hu]), ?_, State.setLineHold_hold hstayu, hlife.trans (by simp [hu, State.lcBusy, State.lcStore])⟩
  rw [State.rdb, State.setLineHold_rd hstayu (by simp [lineKept, offLcReq]) (by simp [offLcReq, offRstCtl]) (by simp [offLcReq, offRstCause])]
  simp [hu, State.lcBusy, State.lcStore, bit_setFld, bit_setBit]

/-- A write that the map refuses is counted, recorded and reported. -/
theorem State.wmapRefuse_spec (s : State) (port : Bool) (off : Nat) :
    (s.wmapRefuse port off).rdb offSecEvt 0 = true ∧
      (s.wmapRefuse port off).rd offWmapLast = w32 (b2n port * 2 ^ 31 + off % 2 ^ 26) ∧
      (s.wmapRefuse port off).cnt offCntWmapRefused = (s.cnt offCntWmapRefused + 1) % cntMod ∧
      (s.wmapRefuse port off).sec = s.sec ∧ (s.wmapRefuse port off).pwr = s.pwr := by
  unfold State.wmapRefuse
  refine ⟨State.rdb_raiseEvt _ _ _ (by omega), ?_, ?_, by simp, by simp⟩
  · rw [State.rd_raiseEvt_ne _ _ (by simp [offWmapLast, offSecEvt])]
    exact State.rd_wr_same _ _ _
  · refine .trans (State.cnt_congr ?_ ?_) (s.cnt_inc (evt := offSecEvt) 5 (by simp [offCntWmapRefused, offSecEvt]) (by simp [offCntWmapRefused, offSecEvt])) <;>
    rw [State.rd_raiseEvt_ne _ _ (by simp [offCntWmapRefused, offSecEvt]), State.rd_wr_ne _ _ (by simp [offCntWmapRefused, offWmapLast])]

theorem lifecycle_secured (s : State) (v : Word) (hs : s.serves offLcReq) (hb : s.rdb offLcReq 30 = false) (hl : s.lifecycle = 2) :
    s.completes (.lcRequest v) fun t => t.rdb offSecEvt 0 = true ∧ t.rd offWmapLast = w32 offLcReq ∧
        t.cnt offCntWmapRefused = (s.cnt offCntWmapRefused + 1) % cntMod ∧ t.sec = s.sec ∧ t.pwr = s.pwr := by
  refine State.completes_cfg (exec_lcRequest s) hs noRegion_lcReq ?_
  rw [s.lcReqWrite_go hb (by simp [bit_setBit]), State.lk, State.lkOk_secured ((s.lifecycle_lcStore _).trans hl) (.inl rfl), if_neg (by simp)]
  obtain ⟨hevt, hlast, hcnt, hsec, hpwr⟩ := (s.lcStore (setBit 31 true v)).wmapRefuse_spec false offLcReq
  refine ⟨hevt, hlast.trans (by simp [b2n, offLcReq]), hcnt.trans ?_, hsec.trans (by simp [State.lcStore]),
    hpwr.trans (by simp [State.lcStore])⟩
  rw [State.lcStore, State.cnt_congr (State.rd_wrf_ne s _ _ _ (by simp [offCntWmapRefused, offLcReq]))
    (State.rd_wrf_ne s _ _ _ (by simp [offCntWmapRefused, offLcReq]))]

/-! ## The end of a session -/

theorem State.rd_dbgClose_ne (s : State) (port : Bool) {x : Nat} (h : x ≠ offSecEvt) : (s.dbgClose port).rd x = s.rd x := by
  unfold State.dbgClose
  split
  · rfl
  · rw [State.rd_raiseEvt_ne _ _ h]
    simp [State.dbgMod]

theorem State.dbgClose_pwr (s : State) (port : Bool) : (s.dbgClose port).pwr = s.pwr := (s.dbgClose_within port).same .pwr (by decide)

/-- Of the security state a session's end changes its own path alone. -/
theorem State.dbgClose_sec (s : State) (port : Bool) : (s.dbgClose port).sec =
    if (s.dbg port).level = 0 then s.sec
    else if port then { s.sec with port := { s.sec.port with level := 0, duration := 0 } }
    else { s.sec with host := { s.sec.host with level := 0, duration := 0 } } := by
  unfold State.dbgClose
  split
  · rfl
  · cases port <;> simp [State.dbgMod]

theorem State.dbgClose_both (s : State) : ((s.dbgClose false).dbgClose true).sec.host.level = 0 ∧
    ((s.dbgClose false).dbgClose true).sec.port.level = 0 ∧ ((s.dbgClose false).dbgClose true).sec.lcBlow = s.sec.lcBlow := by
  simp only [State.dbgClose_sec, State.dbg]
  refine ⟨?_, ?_, ?_⟩
  all_goals repeat' split
  all_goals simp_all

theorem State.measExtend_fields (s : State) (type : Byte) (digest : List Byte) :
    (s.measExtend type digest).pwr = s.pwr ∧ (s.measExtend type digest).sec = s.sec ∧ (s.measExtend type digest).timers = s.timers := by
  simp [State.measExtend]

theorem State.timerOn_stopTimer (s : State) (x : Timer) : (s.stopTimer x).timerOn x = false := by
  simp [State.timerOn, State.stopTimer]

theorem State.timerOn_congr {s t : State} (h : t.timers = s.timers) (x : Timer) : t.timerOn x = s.timerOn x := by
  rw [State.timerOn, State.timerOn, h]

theorem State.fallowIfDue_none {s : State} (h : s.pwr.fallowWait = false) : s.fallowIfDue = s := by
  rw [State.fallowIfDue, h]
  rfl

/-! ## The ends of the blows -/

/-- The state in which a lifecycle blow that has ended is judged. -/
def State.lcUnblown (s : State) : State := (s.secMod fun x => { x with lcBlow := none }).wrb offLcReq 30 false

/-- A lifecycle bit that reads back: the sessions and the arm of a return end with it. -/
def State.lcBlown (s : State) (k : Nat) : State :=
  (((((s.lcUnblown.blowLife k).dbgClose false).dbgClose true).stopTimer .returnArm).wrf offLcReq 29 28 1).raiseEvt offSecEvt 4

theorem State.lcBlown_fields (s : State) (k : Nat) : (s.lcBlown k).pwr = (s.lcUnblown.blowLife k).pwr ∧
    (s.lcBlown k).sec.lcBlow = none ∧ (s.lcBlown k).sec.host.level = 0 ∧ (s.lcBlown k).sec.port.level = 0 ∧
    (s.lcBlown k).timerOn .returnArm = false := by
  obtain ⟨hhost, hport, hblow⟩ := (s.lcUnblown.blowLife k).dbgClose_both
  simp only [State.lcBlown, State.raiseEvt_fields, State.wrf_fields, State.stopTimer_fields, hhost, hport, hblow]
  refine ⟨by rw [State.dbgClose_pwr, State.dbgClose_pwr], by simp [State.lcUnblown, State.blowLife], trivial, trivial, ?_⟩
  refine (State.timerOn_congr ?_ _).trans (State.timerOn_stopTimer ((s.lcUnblown.blowLife k).dbgClose false |>.dbgClose true) _)
  simp

theorem State.lcBlown_rd (s : State) (k : Nat) : (s.lcBlown k).rdb offLcReq 30 = false ∧ (s.lcBlown k).rdf offLcReq 29 28 = 1 ∧
    (s.lcBlown k).rdb offSecEvt 4 = true := by
  have hclose : (((s.lcUnblown.blowLife k).dbgClose false).dbgClose true).rd offLcReq = setBit 30 false (s.rd offLcReq) := by
    rw [State.rd_dbgClose_ne _ _ (by simp [offLcReq, offSecEvt]), State.rd_dbgClose_ne _ _ (by simp [offLcReq, offSecEvt])]
    refine (State.rd_of_regs (s := s.lcUnblown) rfl _).trans ?_
    simp [State.lcUnblown]
  have hreq : (s.lcBlown k).rd offLcReq = setFld 29 28 1 (setBit 30 false (s.rd offLcReq)) := by
    rw [State.lcBlown, State.rd_raiseEvt_ne _ _ (by simp [offLcReq, offSecEvt]), State.rd_wrf_same, State.stopTimer_rd, hclose]
  refine ⟨?_, ?_, State.rdb_raiseEvt _ _ _ (by omega)⟩
  · rw [State.rdb, hreq]
    simp [bit_setFld, bit_setBit]
  · rw [State.rdf, hreq]
    simp [fld_setFld]

theorem execLcBlowDone_good {s : State} {k : Nat} {req : Word} (h : s.sec.lcBlow = some (k, req)) (hw : s.pwr.fallowWait = false) :
    exec (.lcBlowDone true) s = .next ((s.lcBlown k).measExtend 3 (sha384 (wordBytes [req]))) := by
  have hwait : ((s.lcBlown k).measExtend 3 (sha384 (wordBytes [req]))).pwr.fallowWait = false := by
    rw [(State.measExtend_fields _ _ _).1, (s.lcBlown_fields k).1]
    simpa [State.blowLife, State.lcUnblown] using hw
  rw [exec_lcBlowDone, execLcBlowDone, h]
  exact congrArg _ (State.fallowIfDue_none hwait)

theorem execLcBlowDone_bad {s : State} {k : Nat} {req : Word} (h : s.sec.lcBlow = some (k, req)) (hw : s.pwr.fallowWait = false) :
    exec (.lcBlowDone false) s = .next (s.lcUnblown.wrf offLcReq 29 28 3) := by
  have hwait : (s.lcUnblown.wrf offLcReq 29 28 3).pwr.fallowWait = false := by simpa [State.lcUnblown] using hw
  rw [exec_lcBlowDone, execLcBlowDone, h]
  exact congrArg _ (State.fallowIfDue_none hwait)

theorem lifecycle_blown (s : State) (k : Fin 3) (req : Word) (h : s.sec.lcBlow = some (k.val, req)) (hw : s.pwr.fallowWait = false) :
    s.completes (.lcBlowDone true) fun t => t.pwr.life = s.pwr.life ||| BitVec.ofNat 3 (2 ^ k.val) ∧
        t.sec.lcBlow = none ∧ t.rdb offLcReq 30 = false ∧ t.rdf offLcReq 29 28 = 1 ∧ t.rdb offSecEvt 4 = true ∧
        t.sec.host.level = 0 ∧ t.sec.port.level = 0 ∧ t.timerOn .returnArm = false := by
  refine State.completes_of (execLcBlowDone_good h hw) ?_
  obtain ⟨hpwr, hsec, htimers⟩ := (s.lcBlown k).measExtend_fields 3 (sha384 (wordBytes [req]))
  obtain ⟨hlife, hblow, hhost, hport, harm⟩ := s.lcBlown_fields k
  obtain ⟨hbusy, hresult, hevt⟩ := s.lcBlown_rd k
  have hrd : ∀ x, x < offMeas 0 ∨ offMeas 13 ≤ x →
      ((s.lcBlown k).measExtend 3 (sha384 (wordBytes [req]))).rd x = (s.lcBlown k).rd x := fun x hx => State.rd_measExtend_ne _ _ _ hx
  rw [hpwr, hsec, hlife, State.timerOn_congr htimers, State.rdb, State.rdf, State.rdb, hrd _ (by simp [offLcReq, offMeas]),
    hrd _ (by simp [offSecEvt, offMeas])]
  exact ⟨by simp [State.blowLife, State.lcUnblown], hblow, hbusy, hresult, hevt, hhost, hport, harm⟩

theorem lifecycle_unblown (s : State) (k : Fin 3) (req : Word) (h : s.sec.lcBlow = some (k.val, req)) (hw : s.pwr.fallowWait = false) :
    s.completes (.lcBlowDone false) fun t => t.pwr = s.pwr ∧ t.sec.lcBlow = none ∧ t.rdb offLcReq 30 = false ∧
        t.rdf offLcReq 29 28 = 3 := by
  refine State.completes_of (execLcBlowDone_bad h hw) ?_
  simp [State.lcUnblown, State.rdb, State.rdf, bit_setFld, bit_setBit, fld_setFld]

/-! ## Keys -/

theorem keys_revoke (s : State) (v : Word) (hs : s.serves offKeyRevoke) (hl : s.lifecycle ≠ 2) (hb : s.sec.keyBlow = none)
    (hr : s.pwr.revoked.getLsbD (8 * fld 8 8 v + fld 2 0 v) = false) :
    s.completes (.keyRevoke v) fun t => t.sec.keyBlow = some (8 * fld 8 8 v + fld 2 0 v) ∧
        t.rdb offKeyRevoke 30 = true ∧ t.pwr = s.pwr := by
  have hlt : s.lifecycle = 0 ∨ s.lifecycle = 1 := by
    have hall : ∀ t : BitVec 3, lifecycleOf t ≠ 2 → lifecycleOf t = 0 ∨ lifecycleOf t = 1 := by decide
    exact hall _ hl
  refine State.completes_cfg (exec_keyRevoke s) hs noRegion_keyRevoke ?_
  unfold State.keyRevokeWrite
  rw [fld_setBit_ne 8 8 31 true v (by omega) (by omega), fld_setBit_ne 2 0 31 true v (by omega) (by omega)]
  simp only [bit_setBit 31 31 true v (by omega), State.lk, State.lkOk_of_lifecycle hlt (.inr rfl), hb, hr]
  simp [State.rdb, bit_setBit]

theorem keys_secured (s : State) (v : Word) (hs : s.serves offKeyRevoke) (hl : s.lifecycle = 2) :
    s.completes (.keyRevoke v) fun t => t.sec = s.sec ∧ t.pwr = s.pwr ∧ t.rdb offSecEvt 0 = true ∧
        t.rd offWmapLast = w32 offKeyRevoke := by
  refine State.completes_cfg (exec_keyRevoke s) hs noRegion_keyRevoke ?_
  unfold State.keyRevokeWrite
  simp only [bit_setBit 31 31 true v (by omega), State.lk, State.lkOk_secured hl (.inr rfl)]
  obtain ⟨hevt, hlast, -, hsec, hpwr⟩ := s.wmapRefuse_spec false offKeyRevoke
  simp only [if_true, Bool.not_true, Bool.false_eq_true, if_false, State.answer_rdb, State.answer_rd]
  exact ⟨hsec, hpwr, hevt, hlast.trans (by simp [b2n, offKeyRevoke])⟩

theorem keys_revoked (s : State) (k : Fin 16) (h : s.sec.keyBlow = some k.val) (hw : s.pwr.fallowWait = false) :
    s.completes .keyRevokeDone fun t => t.pwr.revoked = s.pwr.revoked ||| BitVec.ofNat 16 (2 ^ k.val) ∧
        t.sec.keyBlow = none ∧ t.rdb offKeyRevoke 30 = false := by
  let u := ((s.secMod fun x => { x with keyBlow := none }).wrb offKeyRevoke 30 false)
  have hu : u = ((s.secMod fun x => { x with keyBlow := none }).wrb offKeyRevoke 30 false) := rfl
  have hx : exec .keyRevokeDone s = .next (u.blowRevoked k) := by
    rw [exec_keyRevokeDone, execKeyRevokeDone, h]
    exact congrArg _ (State.fallowIfDue_none (by simpa [hu, State.blowRevoked] using hw))
  refine State.completes_of hx ⟨by simp [State.blowRevoked, hu], by simp [State.blowRevoked, hu], ?_⟩
  have hrd : (u.blowRevoked k).rd offKeyRevoke = u.rd offKeyRevoke := State.rd_of_regs (by rfl) _
  rw [State.rdb, hrd, hu]
  simp [bit_setBit]

/-! ## The fuse ledger -/

/-- An entry's blow ends with what it reads back. -/
def State.fuseBlown (s : State) (i : Nat) (w read : Word) : State :=
  let t := (s.wrf offFuseStatus 30 29 (if read = w then 1 else 2)).wrb offFuseStatus 31 false
  { t with
    sec := { t.sec with fuseBlow := none }
    pwr := { t.pwr with ledger := sset (fun _ => 0) t.pwr.ledger i read } }

theorem State.rd_fuseBlown (s : State) (i : Nat) (w read : Word) : (s.fuseBlown i w read).rd offFuseStatus =
    setBit 31 false (setFld 30 29 (if read = w then 1 else 2) (s.rd offFuseStatus)) := by
  refine (State.rd_of_regs (s := (s.wrf offFuseStatus 30 29 (if read = w then 1 else 2)).wrb offFuseStatus 31 false) (by rfl) _).trans ?_
  rw [State.rd_wrb_same, State.rd_wrf_same]

theorem fuses_blown (s : State) (missed w : Word) (i : Nat) (h : s.sec.fuseBlow = some (i, w)) (hw : s.pwr.fallowWait = false) :
    s.completes (.fuseBlowDone missed) fun t => t.fuseEntry i = w &&& ~~~missed ∧ t.sec.fuseBlow = none ∧
        t.rdb offFuseStatus 31 = false ∧ t.rdf offFuseStatus 30 29 = if w &&& ~~~missed = w then 1 else 2 := by
  have hx : exec (.fuseBlowDone missed) s = .next (s.fuseBlown i w (w &&& ~~~missed)) := by
    rw [exec_fuseBlowDone, execFuseBlowDone, h]
    exact congrArg _ (State.fallowIfDue_none (by simpa using hw))
  refine State.completes_of hx ⟨by simp [State.fuseEntry, State.fuseBlown, sget_sset], rfl, ?_, ?_⟩
  · rw [State.rdb, State.rd_fuseBlown]
    simp [bit_setBit]
  · rw [State.rdf, State.rd_fuseBlown, fld_setBit_ne 30 29 31 _ _ (by omega) (by omega), fld_setFld _ _ _ _ (by omega) (by omega)]
    split <;> rfl

/-- Settles O57: by the requests, the blows' ends, the keys and the ledger, one lemma for each clause. -/
theorem lifecycleAndFusesAct : Obligations.LifecycleAndFusesAct := fun s =>
  ⟨fun v hs hb _ _ hl hv => lifecycle_begin s v hs hb hl hv,
   fun v hs hb hw _ hv hl hf hp hh => lifecycle_wipe s v hs hb hw hv hl ⟨hf, hp, hh⟩,
   lifecycle_refused s, lifecycle_secured s, lifecycle_blown s, lifecycle_unblown s, keys_revoke s, keys_secured s, keys_revoked s,
   fuses_blown s⟩

end Sys2Proof.Machine
end

section
/-! SUPPORT. The bases and trackers by their commands (R271 to R279), and the timed actions (R290 to R293). -/

set_option Elab.async false

namespace Sys2Proof.Machine

variable (s : State)

/-! ## The map -/

/-- Where the blocks of the bases and trackers lie. -/
theorem tbHome_places {k : Nat} (hk : k < 10) :
    0x101000 ≤ tbHome k ∧ tbHome k ≤ 0x101700 ∨ 0x180000 ≤ tbHome k ∧ tbHome k ≤ 0x180100 := by
  unfold tbHome offTbCtl offTrkCtl
  split <;> omega

theorem noRegion_tbReg {k r : Nat} (hk : k < 10) (hr : r < 0x100) : noRegion (tbReg k r) := by
  have := tbHome_window hk
  rw [tbReg_eq]
  unfold noRegion offReplCmd
  omega

theorem noRegion_timeCaptureAll : noRegion offTimeCaptureAll := by simp [noRegion, offTimeCaptureAll, offReplCmd]

theorem noRegion_actCmd : noRegion offActCmd := by simp [noRegion, offActCmd, offReplCmd]

/-! ## Bases and slots -/

theorem State.tb_tbMod (k : Nat) (f : TimeBase → TimeBase) (j : Nat) : (s.tbMod k f).tb j = if j = k then f (s.tb k) else s.tb j := by
  simp [State.tb, State.tbMod, sget_smod]

theorem State.tb_congr {s t : State} (h : t.time.bases = s.time.bases) (k : Nat) : t.tb k = s.tb k := by
  rw [State.tb, State.tb, h]

theorem State.act_actMod (a : Nat) (f : ActSlot → ActSlot) : (s.actMod a f).act a = f (s.act a) := by
  simp [State.act, State.actMod, sget_smod]

theorem State.act_congr {s t : State} (h : t.time.slots = s.time.slots) (a : Nat) : t.act a = s.act a := by
  rw [State.act, State.act, h]

/-! ## Addends and captures -/

theorem State.addendWrite_ok (k : Nat) (v : Word) (h : addendOk (s.rdf (tbInt k) 3 0 * 2 ^ 32 + v.toNat) = true) :
    (s.addendWrite k v).tb k = { s.tb k with addend := s.rdf (tbInt k) 3 0 * 2 ^ 32 + v.toNat } ∧
      (s.addendWrite k v).rd (tbFracReg k) = v ∧ (s.addendWrite k v).rd (tbInt k) = w32 (s.rdf (tbInt k) 3 0) := by
  have hv : v.toNat < 2 ^ 32 := v.isLt
  let n := s.rdf (tbInt k) 3 0
  let u := s.tbMod k fun b => { b with addend := n * 2 ^ 32 + v.toNat }
  have hu : u = s.tbMod k fun b => { b with addend := n * 2 ^ 32 + v.toNat } := rfl
  have htb : u.tb k = { s.tb k with addend := n * 2 ^ 32 + v.toNat } := by rw [hu, State.tb_tbMod, if_pos rfl]
  have hw : s.addendWrite k v = (u.wr (tbInt k) (w32 ((u.tb k).addend / 2 ^ 32))).wr (tbFracReg k) (w32 (u.tb k).addend) := by
    unfold State.addendWrite
    dsimp only
    rw [if_pos h]
  rw [hw, htb]
  refine ⟨(State.tb_congr (by simp) k).trans htb, ?_, ?_⟩
  · rw [State.rd_wr_same]
    refine BitVec.eq_of_toNat_eq ?_
    simp only [w32, BitVec.toNat_ofNat]
    omega
  · rw [State.rd_wr_ne _ _ (by simp [tbInt, tbFracReg, tbReg]), State.rd_wr_same]
    have hq : (n * 2 ^ 32 + v.toNat) / 2 ^ 32 = n := by omega
    exact congrArg w32 hq

theorem State.addendWrite_bad (k : Nat) (hk : k < 10) (v : Word) (h : addendOk (s.rdf (tbInt k) 3 0 * 2 ^ 32 + v.toNat) = false) :
    (s.addendWrite k v).tb k = s.tb k ∧ (s.addendWrite k v).rdb (tbCtl k) 27 = true ∧ (s.addendWrite k v).rdb offTimeEvt 2 = true := by
  have hw := tbHome_places hk
  let u := (s.wrb (tbCtl k) 27 true).raiseEvt offTimeEvt 2
  have hu : u = (s.wrb (tbCtl k) 27 true).raiseEvt offTimeEvt 2 := rfl
  have he : s.addendWrite k v = (u.wr (tbInt k) (w32 ((u.tb k).addend / 2 ^ 32))).wr (tbFracReg k) (w32 (u.tb k).addend) := by
    unfold State.addendWrite
    dsimp only
    rw [h]
    rfl
  have hrd : ∀ x, x ≠ tbInt k → x ≠ tbFracReg k → (s.addendWrite k v).rd x = u.rd x := fun x h1 h2 => by
    rw [he, State.rd_wr_ne _ _ h2, State.rd_wr_ne _ _ h1]
  refine ⟨?_, ?_, ?_⟩
  · rw [he]
    exact State.tb_congr (by simp [hu]) k
  · rw [State.rdb, hrd _ (by simp [tbCtl, tbInt, tbReg]) (by simp [tbCtl, tbFracReg, tbReg]), hu, State.rd_raiseEvt_ne]
    · simp [bit_setBit]
    · simp only [tbCtl, tbReg_eq, offTimeEvt]
      omega
  · rw [State.rdb, hrd]
    · exact State.rdb_raiseEvt _ _ _ (by omega)
    all_goals
      simp only [tbInt, tbFracReg, tbReg_eq, offTimeEvt]
      omega

theorem time_addend (k : Fin 10) (v : Word) (hs : s.serves (tbFracReg k))
    (h : addendOk (s.rdf (tbInt k) 3 0 * 2 ^ 32 + v.toNat) = true) :
    s.completes (.addendWrite k v) fun t => (t.tb k).addend = s.rdf (tbInt k) 3 0 * 2 ^ 32 + v.toNat ∧
      t.rd (tbFracReg k) = v ∧ t.rd (tbInt k) = w32 (s.rdf (tbInt k) 3 0) := by
  obtain ⟨htb, hfrac, hint⟩ := s.addendWrite_ok k v h
  refine State.completes_cfg (exec_addendWrite s) hs (noRegion_tbReg k.isLt (by omega)) ?_
  rw [State.answer_rd, State.answer_rd, State.tb_congr (s := s.addendWrite k v) (by simp), htb]
  exact ⟨rfl, hfrac, hint⟩

theorem time_addend_refused (k : Fin 10) (v : Word) (hs : s.serves (tbFracReg k))
    (h : addendOk (s.rdf (tbInt k) 3 0 * 2 ^ 32 + v.toNat) = false) :
    s.completes (.addendWrite k v) fun t => (t.tb k).addend = (s.tb k).addend ∧ t.rdb (tbCtl k) 27 = true ∧
      t.rdb offTimeEvt 2 = true := by
  obtain ⟨htb, hctl, hevt⟩ := s.addendWrite_bad k k.isLt v h
  refine State.completes_cfg (exec_addendWrite s) hs (noRegion_tbReg k.isLt (by omega)) ?_
  rw [State.answer_rdb, State.answer_rdb, State.tb_congr (s := s.addendWrite k v) (by simp), htb]
  exact ⟨rfl, hctl, hevt⟩

theorem State.rds_nowCapture (k : Nat) : (s.nowCapture k).rds (tbNowReg k) 4 = nowWords (s.tb k).val := State.rds_wrs _ _ _ rfl

theorem tbNowReg_view {s : State} (k : Fin 10) (hp : s.present (tbNowReg k) = true) : s.view (tbNowReg k) = w32 (tbNs (s.tb k).val) := by
  have hat : ∀ k : Fin 10, tbAt (tbNowReg k) = some (k.val, 0x30) := by decide
  have hrow : ∀ k : Fin 10, (regRow (tbNowReg k)).map (·.bank) = some 0 := by decide +kernel
  have hlane : s.laneWord (tbNowReg k) = none := by
    have hw := tbHome_places k.isLt
    unfold State.laneWord
    rw [if_neg, if_neg] <;>
    · simp only [tbNowReg, tbReg_eq]
      omega
  have hrange : ¬ tbNowReg k < 0x8000 ∧ ¬ tbNowReg k < 0x100000 ∧ tbNowReg k < 0x200000 := by
    have hw := tbHome_places k.isLt
    simp only [tbNowReg, tbReg_eq]
    omega
  obtain ⟨row, hr, hbank⟩ := Option.map_eq_some_iff.1 (hrow k)
  have htime : s.viewTime (tbNowReg k) = w32 (tbNs (s.tb k).val) := by
    unfold State.viewTime
    rw [hat k]
    rfl
  unfold State.view
  rw [hlane, hr]
  simp only [hp, hbank, hrange, Bool.not_true, Bool.false_eq_true, if_false, if_true]
  exact htime

theorem time_now (k : Fin 10) (hs : s.serves (tbNowReg k)) :
    s.completes (.tbNowRead k) fun t => t.rds (tbNowReg k) 4 = nowWords (s.tb k).val ∧
      t.outbox = .busResponse false (w32 (tbNs (s.tb k).val)) :: s.outbox := by
  have hat : ∀ k : Fin 10, tbAt (tbNowReg k) = some (k.val, 0x30) := by decide
  have hnow : ∀ k : Fin 10, (BitVec.ofNat 26 (tbNowReg k)).toNat = tbNowReg k := by decide
  have halign : ∀ k : Fin 10, tbNowReg k % 4 = 0 := by decide
  have hread : s.readEffect (tbNowReg k) = s.nowCapture k := by
    unfold State.readEffect
    rw [hat k, hs.2]
    rfl
  have hx : exec (.tbNowRead k) s = .next ((s.nowCapture k).answer false (w32 (tbNs (s.tb k).val))) := by
    rw [exec_tbNowRead, execTbNowRead, State.hostRead_aligned rfl (by rw [hnow]; exact halign k), hnow, State.door_through hs]
    simp only [hread, tbNowReg_view k hs.2]
  refine State.completes_of hx ⟨?_, ?_⟩
  · rw [State.rds_congr fun i _ => State.answer_rd _ _ _ _]
    exact s.rds_nowCapture k
  · simp [State.answer_eq, State.nowCapture]

/-- Eight captures, one after another, in rows that lie apart. -/
theorem State.rds_captures (f : Nat → List Word) (hf : ∀ k, (f k).length = 4) (n j : Nat) (hj : j < n) :
    ((List.range n).foldl (fun u k => u.wrs (offTimeCap k 0) (f k)) s).rds (offTimeCap j 0) 4 = f j := by
  induction n with
  | zero => omega
  | succ n ih =>
    rw [List.range_succ, List.foldl_append, List.foldl_cons, List.foldl_nil]
    by_cases h : j = n
    · subst h
      exact State.rds_wrs _ _ _ (hf j)
    · refine (State.rds_congr fun i hi => State.rd_wrs_ne _ _ _ (.inl ?_)).trans (ih (by omega))
      simp only [offTimeCap]
      omega

theorem State.bases_captures (f : Nat → List Word) (l : List Nat) :
    (l.foldl (fun u k => u.wrs (offTimeCap k 0) (f k)) s).time.bases = s.time.bases := by
  induction l generalizing s with
  | nil => rfl
  | cons k l ih => exact (ih _).trans (by simp)

theorem State.captureAll_eq : s.captureAll =
    ((List.range 8).foldl (fun u k => u.wrs (offTimeCap k 0) (nowWords (s.tb k).val)) s).wrb offTimeCaptureAll 30 true := by
  have h : ∀ (l : List Nat) (t : State), t.time.bases = s.time.bases →
      l.foldl (fun u k => u.wrs (offTimeCap k 0) (nowWords (u.tb k).val)) t =
        l.foldl (fun u k => u.wrs (offTimeCap k 0) (nowWords (s.tb k).val)) t := by
    intro l
    induction l with
    | nil =>
      intro t _
      rw [List.foldl_nil, List.foldl_nil]
    | cons k l ih =>
      intro t ht
      rw [List.foldl_cons, List.foldl_cons, State.tb_congr ht k]
      exact ih _ (by simpa using ht)
  rw [State.captureAll, h _ s rfl]

theorem time_captureAll (hs : s.serves offTimeCaptureAll) :
    s.completes .captureAll fun t => t.rdb offTimeCaptureAll 30 = true ∧
      ∀ j : Fin 8, t.rds (offTimeCap j 0) 4 = nowWords (s.tb j).val := by
  refine State.completes_cfg (exec_captureAll s) hs noRegion_timeCaptureAll ?_
  rw [s.captureAll_eq]
  refine ⟨by simp [State.rdb, bit_setBit], fun j => ?_⟩
  refine (State.rds_congr fun i hi => ?_).trans (s.rds_captures (fun k => nowWords (s.tb k).val) (fun k => rfl) 8 j j.isLt)
  rw [State.answer_rd, State.rd_wrb_ne]
  simp only [offTimeCap, offTimeCaptureAll]
  omega

/-! ## Timed actions -/

/-- The state in which ACT.CMD's operation runs. -/
def State.actOpened (op : Nat) : State := s.wrf offActCmd 1 0 op

theorem State.actOpened_rd (op : Nat) {x : Nat} (h : x ≠ offActCmd) : (s.actOpened op).rd x = s.rd x := State.rd_wrf_ne _ _ _ _ h

theorem State.actOpened_act (op a : Nat) : (s.actOpened op).act a = s.act a := State.act_congr (by simp [State.actOpened]) a

theorem State.actOpened_addr (op : Nat) : (s.actOpened op).actAddr = s.actAddr := by
  simp only [State.actAddr, State.rdf, s.actOpened_rd op (show offActAddr ≠ offActCmd by simp [offActAddr, offActCmd])]

/-- What an arming tick's value rests on. -/
theorem State.armVal_congr {s t : State} {k : Nat} (hb : t.time.bases = s.time.bases) (hr : t.rd (tbCtl k) = s.rd (tbCtl k)) :
    t.armVal k = s.armVal k := by
  have hrun : t.tbRun k = s.tbRun k := by
    rw [State.tbRun, State.tbRun, State.rdb, State.rdb]
    exact congrArg _ hr
  simp only [State.armVal, State.tickAdd, State.tickVal, State.tb_congr hb, hrun]

theorem State.actOpened_armVal (op : Nat) : (s.actOpened op).armVal (s.actAddr / 256) = s.armVal (s.actAddr / 256) := by
  have hlt : s.actAddr / 256 < 10 := by
    have h1 := fld_lt 18 16 (s.rd offActAddr)
    have h2 := fld_lt 7 0 (s.rd offActAddr)
    simp only [State.actAddr, actKey, State.rdf]
    omega
  have hw := tbHome_places hlt
  refine State.armVal_congr (by simp [State.actOpened]) (s.actOpened_rd op ?_)
  simp only [tbCtl, tbReg_eq, offActCmd]
  omega

theorem State.actOp_read : s.actOp 0 = (s.actOpened 0).wrs offActData0 ((s.actOpened 0).act (s.actOpened 0).actAddr).words := by
  unfold State.actOp
  extract_lets u
  rw [show s.actOpened 0 = u from rfl]
  clear_value u
  rfl

theorem State.actOp_write (h : ((s.actOpened 1).act (s.actOpened 1).actAddr).armed = false) :
    s.actOp 1 = (s.actOpened 1).actMod (s.actOpened 1).actAddr fun x => { x with
      ns := (s.actOpened 1).rdf offActData0 29 0
      sec := ((s.actOpened 1).rd (offActData1 0)).toNat + 2 ^ 32 * ((s.actOpened 1).rd (offActData1 1)).toNat
      period := ((s.actOpened 1).rd (offActData1 2)).toNat, w4 := (s.actOpened 1).rd offActData4 &&& 0x00BFE000
      w5 := (s.actOpened 1).rd offActData5 &&& 0xBF000000 } := by
  unfold State.actOp
  extract_lets u
  rw [show s.actOpened 1 = u from rfl] at h ⊢
  clear_value u
  rw [h]
  exact if_neg Bool.false_ne_true

theorem State.actOp_write_armed (h : ((s.actOpened 1).act (s.actOpened 1).actAddr).armed = true) :
    s.actOp 1 = (s.actOpened 1).wrb offActCmd 29 true := by
  unfold State.actOp
  extract_lets u
  rw [show s.actOpened 1 = u from rfl] at h ⊢
  clear_value u
  exact if_pos h

theorem State.actOp_arm : s.actOp 2 = (s.actOpened 2).actArm (s.actOpened 2).actAddr := by
  unfold State.actOp
  extract_lets u
  rw [show s.actOpened 2 = u from rfl]
  clear_value u
  obtain ⟨t, ht⟩ : ∃ t, t = u.actArm u.actAddr := ⟨_, rfl⟩
  rw [← ht]
  rfl

theorem State.actOp_disarm : s.actOp 3 = (s.actOpened 3).actMod (s.actOpened 3).actAddr fun x => { x with armed := false } := by
  unfold State.actOp
  extract_lets u
  rw [show s.actOpened 3 = u from rfl]
  clear_value u
  rfl

/-- A command that is an access of ACT.CMD. -/
theorem State.completes_act {s : State} {c : Instr} {op : Nat} {P : State → Prop}
    (hx : exec c s = .next (s.cfg offActCmd fun s => s.actOp op)) (hs : s.serves offActCmd) (h : P ((s.actOp op).answer false 0)) :
    s.completes c P := State.completes_cfg hx hs noRegion_actCmd h

theorem State.act_answer (e : Bool) (d : Word) (a : Nat) : (s.answer e d).act a = s.act a := State.act_congr (by simp) a

theorem act_read (hs : s.serves offActCmd) :
    s.completes .actRead fun t => t.rds offActData0 8 = (s.act s.actAddr).words := by
  refine State.completes_act (exec_actRead s) hs ((State.rds_congr fun i _ => State.answer_rd _ _ _ _).trans ?_)
  rw [s.actOp_read, s.actOpened_addr, s.actOpened_act]
  exact State.rds_wrs _ _ _ (by simp [ActSlot.words])

theorem act_write (hs : s.serves offActCmd) (h : (s.act s.actAddr).armed = false) :
    s.completes .actWrite fun t => t.act s.actAddr = { s.act s.actAddr with
      ns := s.rdf offActData0 29 0, sec := (s.rd (offActData1 0)).toNat + 2 ^ 32 * (s.rd (offActData1 1)).toNat,
      period := (s.rd (offActData1 2)).toNat, w4 := s.rd offActData4 &&& 0x00BFE000,
      w5 := s.rd offActData5 &&& 0xBF000000 } := by
  refine State.completes_act (exec_actWrite s) hs ?_
  have hopen : ((s.actOpened 1).act (s.actOpened 1).actAddr).armed = false := by rw [s.actOpened_addr, s.actOpened_act, h]
  have hrd : ∀ i, (s.actOpened 1).rd (offActData1 i) = s.rd (offActData1 i) := fun i =>
    s.actOpened_rd 1 (by simp only [offActData1, offActCmd]; omega)
  rw [State.act_answer, s.actOp_write hopen, s.actOpened_addr, State.act_actMod, s.actOpened_act, State.rdf, hrd, hrd, hrd,
    s.actOpened_rd 1 (show offActData0 ≠ offActCmd by simp [offActData0, offActCmd]),
    s.actOpened_rd 1 (show offActData4 ≠ offActCmd by simp [offActData4, offActCmd]),
    s.actOpened_rd 1 (show offActData5 ≠ offActCmd by simp [offActData5, offActCmd]), State.rdf]

theorem act_write_armed (hs : s.serves offActCmd) (h : (s.act s.actAddr).armed = true) :
    s.completes .actWrite fun t => t.act s.actAddr = s.act s.actAddr ∧ t.rdb offActCmd 29 = true := by
  refine State.completes_act (exec_actWrite s) hs ?_
  have hopen : ((s.actOpened 1).act (s.actOpened 1).actAddr).armed = true := by rw [s.actOpened_addr, s.actOpened_act, h]
  rw [s.actOp_write_armed hopen, State.act_answer]
  refine ⟨(State.act_congr (by simp) _).trans (s.actOpened_act 1 _), by simp [State.rdb, bit_setBit]⟩

theorem act_disarm (hs : s.serves offActCmd) :
    s.completes .actDisarm fun t => t.act s.actAddr = { s.act s.actAddr with armed := false } := by
  refine State.completes_act (exec_actDisarm s) hs ?_
  rw [s.actOp_disarm, State.act_answer, s.actOpened_addr, State.act_actMod, s.actOpened_act]

/-- A slot that is armed on time. -/
theorem State.actArm_ok {s : State} {a : Nat} (h : s.armVal (a / 256) ≤ (s.act a).time) :
    (s.actArm a).act a = { s.act a with armed := true, late := false, lateness := 0 } := by
  have ht : ¬ ((s.actMod a fun x => { x with armed := true, late := false, lateness := 0 }).act a).time < s.armVal (a / 256) := by
    rw [State.act_actMod]
    exact Nat.not_lt.2 h
  unfold State.actArm
  dsimp only
  rw [if_neg ht, State.act_actMod]

/-- What a slot does as it fires counts one run and leaves the slots otherwise. -/
theorem State.actDo_act (a : Nat) : (s.actDo a).act a = { s.act a with runs := ((s.act a).runs + 1) % 2 ^ 32 } := by
  have hpps : ∀ (u : State) (j : Nat), (u.ppsPulse j).time = u.time := fun u j => by
    unfold State.ppsPulse
    dsimp only
    split <;> simp
  unfold State.actDo
  extract_lets w t1 t2 t3
  have h1 : t1.time = s.time := by
    simp only [t1]
    split <;> simp
  have h2 : t2.time = t1.time := by
    simp only [t2]
    split
    · exact hpps _ _
    · rfl
  have h3 : t3.time = t2.time := by
    simp only [t3]
    split <;> simp
  rw [State.act_actMod, State.act_congr (s := s) (by rw [h3, h2, h1])]

@[simp] theorem ActSlot.setTime_fields (x : ActSlot) (t : Nat) : (x.setTime t).armed = x.armed ∧ (x.setTime t).runs = x.runs ∧
    (x.setTime t).late = x.late := ⟨rfl, rfl, rfl⟩

theorem ActSlot.time_setTime (x : ActSlot) (n : Nat) : (x.setTime (n * nsUnit)).time = n * nsUnit := by
  have h : n * 2 ^ 32 / 2 ^ 32 = n := Nat.mul_div_cancel n (by omega)
  simp only [ActSlot.setTime, ActSlot.time, tbSec, tbNs, nsUnit, h]
  omega

theorem ActSlot.time_add (x : ActSlot) (n : Nat) : x.time + n * nsUnit = (x.sec * 1000000000 + x.ns + n) * nsUnit := by
  rw [ActSlot.time, Nat.add_mul _ n]

theorem ActSlot.time_congr {x y : ActSlot} (hs : x.sec = y.sec) (hn : x.ns = y.ns) : x.time = y.time := by
  rw [ActSlot.time, ActSlot.time, hs, hn]

theorem ActSlot.time_next {x y : ActSlot} (hs : x.sec = y.sec) (hn : x.ns = y.ns) (hp : x.period = y.period) :
    (x.setTime (x.time + x.period * nsUnit)).time = y.time + y.period * nsUnit := by
  rw [ActSlot.time_add, ActSlot.time_setTime, hs, hn, hp, ActSlot.time_add]

/-- A slot that fires on time: a one-shot disarms, a periodic one takes its next time. -/
theorem State.actFire_act (a : Nat) : ((s.actFire a).act a).runs = ((s.act a).runs + 1) % 2 ^ 32 ∧
    ((s.act a).armed = true → ((s.actFire a).act a).armed = ((s.act a).period != 0)) ∧
    ((s.actFire a).act a).time = (s.act a).time + (s.act a).period * nsUnit := by
  unfold State.actFire
  rw [State.act_actMod, s.actDo_act]
  dsimp only
  split
  · rename_i h
    exact ⟨rfl, fun _ => by rw [h]; rfl, by
      rw [h, Nat.zero_mul, Nat.add_zero (s.act a).time]
      exact ActSlot.time_congr rfl rfl⟩
  · rename_i h
    refine ⟨by simp, fun harm => by simp [harm, h], ?_⟩
    · exact ActSlot.time_next (x := { s.act a with runs := ((s.act a).runs + 1) % 2 ^ 32 }) rfl rfl rfl

/-- A slot that fires late. -/
theorem State.actLate_act (a v : Nat) : ((s.actLate a v).act a).late = true ∧
    ((s.actLate a v).act a).runs = ((s.act a).runs + 1) % 2 ^ 32 ∧
    ((s.act a).armed = true → ((s.actLate a v).act a).armed = ((s.act a).period != 0)) ∧ (s.actLate a v).rdb offTimeEvt 5 = true := by
  unfold State.actLate
  have hact : ((s.actDo a).raiseEvt offTimeEvt 5).act a = { s.act a with runs := ((s.act a).runs + 1) % 2 ^ 32 } :=
    (State.act_congr (by simp) a).trans (s.actDo_act a)
  dsimp only
  rw [State.act_actMod, State.act_actMod, hact]
  refine ⟨?_, ?_, fun harm => ?_, ?_⟩
  · split <;> simp
  · split <;> simp
  · split
    · rename_i h
      simp [h]
    · rename_i h
      simp [harm, h]
  · exact State.rdb_raiseEvt _ _ _ (by omega)

theorem act_arm (hs : s.serves offActCmd) (h : s.armVal (s.actAddr / 256) ≤ (s.act s.actAddr).time) :
    s.completes .actArm fun t => t.act s.actAddr = { s.act s.actAddr with armed := true, late := false, lateness := 0 } := by
  refine State.completes_act (exec_actArm s) hs ?_
  rw [s.actOp_arm, State.act_answer, s.actOpened_addr, State.actArm_ok (by rwa [s.actOpened_armVal, s.actOpened_act]), s.actOpened_act]

theorem act_arm_late (hs : s.serves offActCmd) (h : (s.act s.actAddr).time < s.armVal (s.actAddr / 256)) :
    s.completes .actArm fun t => (t.act s.actAddr).late = true ∧ t.rdb offTimeEvt 5 = true ∧
      (t.act s.actAddr).runs = ((s.act s.actAddr).runs + 1) % 2 ^ 32 ∧
      (t.act s.actAddr).armed = ((s.act s.actAddr).period != 0) := by
  refine State.completes_act (exec_actArm s) hs ?_
  let u := (s.actOpened 2).actMod s.actAddr fun x => { x with armed := true, late := false, lateness := 0 }
  have hu : u = (s.actOpened 2).actMod s.actAddr fun x => { x with armed := true, late := false, lateness := 0 } := rfl
  have hact : u.act s.actAddr = { s.act s.actAddr with armed := true, late := false, lateness := 0 } := by
    rw [hu, State.act_actMod, s.actOpened_act]
  have he : s.actOp 2 = u.actLate s.actAddr (s.armVal (s.actAddr / 256)) := by
    have hlate : (u.act s.actAddr).time < (s.actOpened 2).armVal (s.actAddr / 256) := by
      rw [hact, s.actOpened_armVal]
      exact h
    rw [s.actOp_arm, s.actOpened_addr]
    unfold State.actArm
    dsimp only
    rw [if_pos hlate, s.actOpened_armVal]
  obtain ⟨hl, hruns, harmed, hevt⟩ := u.actLate_act s.actAddr (s.armVal (s.actAddr / 256))
  rw [he, State.act_answer, State.answer_rdb]
  exact ⟨hl, hevt, hruns.trans (by rw [hact]), (harmed (by rw [hact])).trans (by rw [hact])⟩

theorem act_fire (j : Fin 8) (slot : Fin 256) (ha : (s.act (actKey j slot)).armed = true)
    (ht : (s.act (actKey j slot)).time ≤ s.tbNow j) :
    s.completes (.actFire j slot) fun t => (t.act (actKey j slot)).runs = ((s.act (actKey j slot)).runs + 1) % 2 ^ 32 ∧
      (t.act (actKey j slot)).armed = ((s.act (actKey j slot)).period != 0) ∧
      (t.act (actKey j slot)).time = (s.act (actKey j slot)).time + (s.act (actKey j slot)).period * nsUnit := by
  have hx : exec (.actFire j slot) s = .next (s.actFire (actKey j slot)) := by
    rw [exec_actFire, execActFire, ha, decide_eq_true ht]
    rfl
  obtain ⟨hruns, harmed, htime⟩ := s.actFire_act (actKey j slot)
  exact State.completes_of hx ⟨hruns, harmed ha, htime⟩

end Sys2Proof.Machine
end

section
/-! SUPPORT. The operations of the bases by their commands and at the tick (R275 to R279). -/

set_option Elab.async false

namespace Sys2Proof.Machine

variable (s : State)

/-! ## Commands -/

theorem noRegion_tbCmd (k : Fin 10) : noRegion (tbCmd k) := noRegion_tbReg k.isLt (by omega)

/-- The state in which an operation that a write of CMD gives is checked: BUSY is 0, the base runs on its own, and the unlock has
been consumed. -/
def State.tbOpened (k : Nat) (v : Word) : State := (s.wr (tbCmd k) (v &&& 0x03FF0007)).unlockOff k

theorem State.tbOpened_rd (k : Nat) (v : Word) {x : Nat} (h1 : x ≠ tbCmd k) (h2 : x ≠ tbCtl k) : (s.tbOpened k v).rd x = s.rd x := by
  rw [State.tbOpened, State.unlockOff, State.rd_wrb_ne _ _ _ h2]
  exact (State.rd_of_regs rfl _).trans (State.rd_wr_ne _ _ h1)

theorem State.tbOpened_ctl (k : Nat) (v : Word) {i : Nat} (hi : i < 32 ∧ i ≠ 28) : (s.tbOpened k v).rdb (tbCtl k) i = s.rdb (tbCtl k) i := by
  rw [State.tbOpened, State.unlockOff, State.rdb, State.rdb, State.wrb, State.rd_wr_same, bit_setBit _ _ _ _ hi.1, if_neg (by omega)]
  exact congrArg (bit i) ((State.rd_of_regs rfl _).trans (State.rd_wr_ne _ _ (by simp [tbCtl, tbCmd, tbReg])))

theorem State.tbOpened_tb (k : Nat) (v : Word) (j : Nat) : (s.tbOpened k v).tb j = s.tb j :=
  State.tb_congr (by simp [State.tbOpened, State.unlockOff]) j

theorem State.unlocked_wrb (x i : Nat) (v : Bool) (k : Nat) : (s.wrb x i v).unlocked k = s.unlocked k :=
  State.timerOn_congr (by simp) _

theorem State.tbOpened_unlocked (k : Nat) (v : Word) : (s.tbOpened k v).unlocked k = false := by
  rw [State.tbOpened, State.unlockOff, State.unlocked_wrb]
  exact State.timerOn_stopTimer _ _

theorem State.tbOpened_arg (k : Nat) (v : Word) (i : Nat) : (s.tbOpened k v).rd (tbArg k i) = s.rd (tbArg k i) := by
  refine s.tbOpened_rd k v ?_ ?_
  all_goals
    simp only [tbArg, tbCmd, tbCtl, tbReg_eq]
    omega

theorem State.tbOpened_setValue (k : Nat) (v : Word) : (s.tbOpened k v).setValue k = s.setValue k := by
  simp only [State.setValue, State.rdf, s.tbOpened_arg]

theorem State.tbOpened_tbOffset (k : Nat) (v : Word) : (s.tbOpened k v).tbOffset k = s.tbOffset k := by
  simp only [State.tbOffset, s.tbOpened_arg]

theorem State.tbOpened_tickVal (k : Nat) (v : Word) : (s.tbOpened k v).tickVal k = s.tickVal k := by
  have hrun : (s.tbOpened k v).tbRun k = s.tbRun k := s.tbOpened_ctl k v (i := 31) (by omega)
  simp only [State.tickVal, s.tbOpened_tb, hrun]

theorem State.tbOpened_jumpOk {k : Nat} (hk : k < 10) (v : Word) (m : Nat) (u : Bool) : (s.tbOpened k v).jumpOk k m u = s.jumpOk k m u := by
  have hlim : (s.tbOpened k v).rd (tbLimit k) = s.rd (tbLimit k) := by
    refine s.tbOpened_rd k v ?_ ?_
    all_goals simp [tbLimit, tbCmd, tbCtl, tbReg]
  have hcopy : (s.tbOpened k v).trkCopies k = s.trkCopies k := by
    rw [State.trkCopies, State.trkCopies, State.rdb, State.rdb, s.tbOpened_rd]
    all_goals
      have := tbHome_places hk
      simp only [tbCmd, tbCtl, tbReg_eq, offPairCtl]
      omega
  have hsync : (s.tbOpened k v).unsync k = s.unsync k := by
    simp only [State.unsync, s.tbOpened_ctl k v (i := 30) (by omega), hcopy, s.tbOpened_tb]
  simp only [State.jumpOk, hlim, hsync]

/-- What CMD's write leaves of the state of a pair. -/
theorem State.pairState_wr {k : Nat} (hk : k < 10) (w : Word) : (s.wr (tbCmd k) w).pairState k = s.pairState k := by
  have := tbHome_places hk
  simp only [State.pairState, State.rdf]
  rw [State.rd_wr_ne]
  simp only [offPairStatus, tbCmd, tbReg_eq]
  omega

theorem State.tb_wr (x : Nat) (w : Word) (k : Nat) : (s.wr x w).tb k = s.tb k := State.tb_congr (by simp) k

/-- An operation is given to a base that is not busy and runs on its own: it waits for the tick, or the jump limit refuses it. -/
theorem State.tbGo_free {k : Nat} (hk : k < 10) (v : Word) (mag : State → Nat) (op : State → TbOp) (hc : (s.tb k).cmd = none)
    (hp : s.pairState k = 0) :
    s.tbGo k v mag op = if s.jumpOk k (mag (s.tbOpened k v)) (s.unlocked k) then
        (s.tbOpened k v).tbMod k fun b => { b with cmd := some (op (s.tbOpened k v)) }
      else (s.tbOpened k v).jumpRefused k (mag (s.tbOpened k v)) := by
  have hun : (s.wr (tbCmd k) (v &&& 0x03FF0007)).unlocked k = s.unlocked k := State.timerOn_congr (by simp) _
  unfold State.tbGo
  dsimp only
  rw [s.tb_wr, s.pairState_wr hk, hc, hp, hun, if_neg (by simp), if_neg (by simp), ← State.tbOpened.eq_def, s.tbOpened_jumpOk hk]

theorem State.tbGo_ok {k : Nat} (hk : k < 10) (v : Word) (mag : State → Nat) (op : State → TbOp) (hc : (s.tb k).cmd = none)
    (hp : s.pairState k = 0) (hj : s.jumpOk k (mag (s.tbOpened k v)) (s.unlocked k) = true) :
    (s.tbGo k v mag op).tb k = { s.tb k with cmd := some (op (s.tbOpened k v)) } ∧ (s.tbGo k v mag op).unlocked k = false := by
  rw [s.tbGo_free hk v mag op hc hp, if_pos hj, State.tb_tbMod, if_pos rfl, s.tbOpened_tb]
  exact ⟨rfl, s.tbOpened_unlocked k v⟩

theorem State.jumpRefused_spec {k : Nat} (hk : k < 10) (m : Nat) : (s.jumpRefused k m).tb k = s.tb k ∧
    (s.jumpRefused k m).rdb (tbCtl k) 29 = true ∧ (s.jumpRefused k m).rdb offTimeEvt 0 = true ∧
    (s.jumpRefused k m).rd (tbRefused k) = w32 (min 0xFFFFFFFF (m / nsUnit)) := by
  have hp := tbHome_places hk
  unfold State.jumpRefused
  refine ⟨State.tb_congr (by simp) k, ?_, State.rdb_raiseEvt _ _ _ (by omega), ?_⟩
  · rw [State.rdb, State.rd_raiseEvt_ne, State.rd_wr_ne, State.wrb, State.rd_wr_same, bit_setBit]
    · simp
    · omega
    · simp [tbCtl, tbRefused, tbReg]
    · simp only [tbCtl, tbReg_eq, offTimeEvt]
      omega
  · rw [State.rd_raiseEvt_ne]
    · exact State.rd_wr_same _ _ _
    · simp only [tbRefused, tbReg_eq, offTimeEvt]
      omega

theorem State.tbGo_refused {k : Nat} (hk : k < 10) (v : Word) (mag : State → Nat) (op : State → TbOp) (hc : (s.tb k).cmd = none)
    (hp : s.pairState k = 0) (hj : s.jumpOk k (mag (s.tbOpened k v)) (s.unlocked k) = false) :
    (s.tbGo k v mag op).tb k = s.tb k ∧ (s.tbGo k v mag op).rdb (tbCtl k) 29 = true ∧
      (s.tbGo k v mag op).rdb offTimeEvt 0 = true ∧
      (s.tbGo k v mag op).rd (tbRefused k) = w32 (min 0xFFFFFFFF (mag (s.tbOpened k v) / nsUnit)) := by
  rw [s.tbGo_free hk v mag op hc hp, hj, if_neg (by simp)]
  obtain ⟨htb, hctl, hevt, href⟩ := (s.tbOpened k v).jumpRefused_spec hk (mag (s.tbOpened k v))
  exact ⟨htb.trans (s.tbOpened_tb k v k), hctl, hevt, href⟩

theorem State.tbGo_busy (k : Nat) (v : Word) (mag : State → Nat) (op : State → TbOp) (hc : (s.tb k).cmd.isSome = true) :
    (s.tbGo k v mag op).tb k = s.tb k := by
  unfold State.tbGo
  dsimp only
  rw [s.tb_wr, if_pos hc, s.tb_wr]

theorem State.tbGo_paired {k : Nat} (hk : k < 10) (v : Word) (mag : State → Nat) (op : State → TbOp) (hc : (s.tb k).cmd = none)
    (hp : s.pairState k ≠ 0) :
    (s.tbGo k v mag op).tb k = s.tb k ∧ (s.tbGo k v mag op).rdb (offPairStatus k) 29 = true := by
  unfold State.tbGo
  dsimp only
  rw [s.tb_wr, s.pairState_wr hk, hc, if_neg (by simp), if_pos hp]
  exact ⟨State.tb_congr (by simp) k, by simp [State.rdb, bit_setBit]⟩

theorem State.tb_answer (e : Bool) (d : Word) (k : Nat) : (s.answer e d).tb k = s.tb k := State.tb_congr (by simp) k

theorem State.unlocked_answer (e : Bool) (d : Word) (k : Nat) : (s.answer e d).unlocked k = s.unlocked k := State.answer_timerOn _ _ _ _

/-- A command that gives an operation. -/
theorem State.completes_tbGo {s : State} {c : Instr} {k : Fin 10} {v : Word} {mag : State → Nat} {op : State → TbOp} {P : State → Prop}
    (hx : exec c s = .next (s.cfg (tbCmd k) fun s => s.tbGo k v mag op)) (hs : s.serves (tbCmd k))
    (h : P ((s.tbGo k v mag op).answer false 0)) : s.completes c P := State.completes_cfg hx hs (noRegion_tbCmd k) h

theorem State.goes_ok {s : State} {c : Instr} {k : Fin 10} {v : Word} {mag : State → Nat} {op : State → TbOp} {o : TbOp}
    (hx : exec c s = .next (s.cfg (tbCmd k) fun s => s.tbGo k v mag op)) (hs : s.serves (tbCmd k)) (hc : (s.tb k).cmd = none)
    (hp : s.pairState k = 0) (hj : s.jumpOk k (mag (s.tbOpened k v)) (s.unlocked k) = true) (ho : op (s.tbOpened k v) = o) :
    s.completes c fun t => t.tb k = { s.tb k with cmd := some o } ∧ t.unlocked k = false := by
  refine State.completes_tbGo hx hs ?_
  rw [State.tb_answer, State.unlocked_answer, ← ho]
  exact s.tbGo_ok k.isLt v mag op hc hp hj

theorem State.goes_refused {s : State} {c : Instr} {k : Fin 10} {v : Word} {mag : State → Nat} {op : State → TbOp} {m : Nat}
    (hx : exec c s = .next (s.cfg (tbCmd k) fun s => s.tbGo k v mag op)) (hs : s.serves (tbCmd k)) (hc : (s.tb k).cmd = none)
    (hp : s.pairState k = 0) (hm : mag (s.tbOpened k v) = m) (hj : s.jumpOk k m (s.unlocked k) = false) :
    s.completes c fun t => t.tb k = s.tb k ∧ t.rdb (tbCtl k) 29 = true ∧ t.rdb offTimeEvt 0 = true ∧
      t.rd (tbRefused k) = w32 (min 0xFFFFFFFF (m / nsUnit)) := by
  refine State.completes_tbGo hx hs ?_
  rw [State.tb_answer, State.answer_rdb, State.answer_rdb, State.answer_rd, ← hm]
  exact s.tbGo_refused k.isLt v mag op hc hp (by rwa [hm])

theorem State.goes_busy {s : State} {c : Instr} {k : Fin 10} {v : Word} {mag : State → Nat} {op : State → TbOp}
    (hx : exec c s = .next (s.cfg (tbCmd k) fun s => s.tbGo k v mag op)) (hs : s.serves (tbCmd k))
    (hc : (s.tb k).cmd.isSome = true) : s.completes c fun t => t.tb k = s.tb k := by
  refine State.completes_tbGo hx hs ?_
  rw [State.tb_answer]
  exact s.tbGo_busy k v mag op hc

theorem State.goes_paired {s : State} {c : Instr} {k : Fin 10} {v : Word} {mag : State → Nat} {op : State → TbOp}
    (hx : exec c s = .next (s.cfg (tbCmd k) fun s => s.tbGo k v mag op)) (hs : s.serves (tbCmd k)) (hc : (s.tb k).cmd = none)
    (hp : s.pairState k ≠ 0) : s.completes c fun t => t.tb k = s.tb k ∧ t.rdb (offPairStatus k) 29 = true := by
  refine State.completes_tbGo hx hs ?_
  rw [State.tb_answer, State.answer_rdb]
  exact s.tbGo_paired k.isLt v mag op hc hp

theorem exec_tbSet_go (k : Fin 10) (v : Word) : exec (.tbSet k v) s = .next (s.cfg (tbCmd k) fun s =>
    s.tbGo k (goOp 1 v) (fun s => ((s.setValue k : Int) - s.tickVal k).natAbs) fun s => .set (s.setValue k)) := exec_tbSet s

theorem exec_tbStep_go (k : Fin 10) (v : Word) : exec (.tbStep k v) s = .next (s.cfg (tbCmd k) fun s =>
    s.tbGo k (goOp 2 v) (fun s => (s.tbOffset k).natAbs) fun s => .step (s.tbOffset k)) := exec_tbStep s

theorem exec_tbSlew_go (k : Fin 10) (v : Word) : exec (.tbSlew k v) s = .next (s.cfg (tbCmd k) fun s =>
    s.tbGo k (goOp 3 v) (fun s => ((s.tb k).slew + s.tbOffset k).natAbs) fun s =>
      .slew (s.tbOffset k) (clampTo 1 1000 (fld 25 16 (goOp 3 v)))) := exec_tbSlew s

/-- The magnitude of SET is told from the registers that CMD's write leaves. -/
theorem State.setMag_opened (k : Nat) (v : Word) : (((s.tbOpened k v).setValue k : Int) - (s.tbOpened k v).tickVal k).natAbs =
    ((s.setValue k : Int) - s.tickVal k).natAbs := by rw [s.tbOpened_setValue, s.tbOpened_tickVal]

theorem State.stepMag_opened (k : Nat) (v : Word) : ((s.tbOpened k v).tbOffset k).natAbs = (s.tbOffset k).natAbs := by
  rw [s.tbOpened_tbOffset]

theorem State.slewMag_opened (k : Nat) (v : Word) : (((s.tbOpened k v).tb k).slew + (s.tbOpened k v).tbOffset k).natAbs =
    ((s.tb k).slew + s.tbOffset k).natAbs := by rw [s.tbOpened_tb, s.tbOpened_tbOffset]

theorem fld_goOp_ppm (op : Nat) (v : Word) : fld 25 16 (goOp op v) = fld 25 16 v := by
  rw [goOp, fld_setBit_ne, fld_setFld_ne]
  all_goals omega

/-! ## Ticks -/

theorem State.actStep_bases (k : Nat) : (s.actStep k).time.bases = s.time.bases := by
  have hdo : ∀ (u : State) (a : Nat), (u.actDo a).time.bases = u.time.bases := fun u a => by
    have hpps : ∀ (u : State) (j : Nat), (u.ppsPulse j).time = u.time := fun u j => by
      unfold State.ppsPulse
      dsimp only
      split <;> simp
    unfold State.actDo State.actMod State.timeMod
    dsimp only
    split <;> split <;> split <;> simp [hpps, State.pulse]
  have hlate : ∀ (u : State) (a v : Nat), (u.actLate a v).time.bases = u.time.bases := fun u a v => by
    unfold State.actLate State.actMod State.timeMod
    simp [hdo]
  unfold State.actStep
  exact List.foldlRecOn (motive := fun u : State => u.time.bases = s.time.bases) _ _ rfl fun u h e _ => (hlate u e.1 _).trans h

theorem State.stepped_tb (k j : Nat) : (s.stepped k).tb j = s.tb j := by
  refine State.tb_congr ?_ j
  unfold State.stepped
  split
  · split <;> simp
  · have htel : ((s.actStep k).telStep k).time = (s.actStep k).time := (State.telStep_within _ _).same .time (by decide)
    have hgate : (((s.actStep k).telStep k).gateStep k).time = ((s.actStep k).telStep k).time :=
      (State.gateStep_within _ _).same .time (by decide)
    rw [hgate, htel, s.actStep_bases]

theorem State.tbTick_set {k v : Nat} (h : (s.tb k).cmd = some (.set v)) :
    ((s.tbTick k).tb k).val = v ∧ ((s.tbTick k).tb k).slew = 0 ∧ ((s.tbTick k).tb k).cmd = none := by
  rw [State.tbTick, h]
  simp only [State.tbApply, State.stepped_tb, State.tb_tbMod, if_true, and_self]

theorem State.tbTick_step {k : Nat} {d : Int} (h : (s.tb k).cmd = some (.step d)) :
    ((s.tbTick k).tb k).val = ((s.tb k).val + (s.tickAdd k : Int) + d).toNat ∧ ((s.tbTick k).tb k).slew = 0 ∧
      ((s.tbTick k).tb k).cmd = none := by
  have hrun : (s.tbMod k fun b => { b with cmd := none }).tbRun k = s.tbRun k := rfl
  have hadd : (s.tbMod k fun b => { b with cmd := none }).tickAdd k = s.tickAdd k := by
    simp only [State.tickAdd, hrun, State.tb_tbMod, if_true]
  rw [State.tbTick, h]
  simp only [State.tbApply, hadd, State.stepped_tb, State.tb_tbMod, if_true, and_self]

theorem State.tbTick_slew {k ppm : Nat} {d : Int} (h : (s.tb k).cmd = some (.slew d ppm)) (hr : s.tbRun k = true)
    (ht : (s.tb k).ticked = false) :
    (s.tbTick k).tb k = TimeBase.tick { s.tb k with cmd := none, slew := (s.tb k).slew + d, ppm := ppm } := by
  let u := (s.tbMod k fun b => { b with cmd := none }).tbMod k fun b => { b with slew := b.slew + d, ppm := ppm }
  have hu : u = (s.tbMod k fun b => { b with cmd := none }).tbMod k fun b => { b with slew := b.slew + d, ppm := ppm } := rfl
  have hrun : u.tbRun k = true := hr
  have htb : u.tb k = { s.tb k with cmd := none, slew := (s.tb k).slew + d, ppm := ppm } := by
    simp only [hu, State.tb_tbMod, if_true]
  have htick : s.tbTick k = u.ownTick k := by
    rw [State.tbTick, h]
    rfl
  have hfirst : (u.tb k).ticked = false := by
    rw [htb]
    exact ht
  rw [htick, State.ownTick, hfirst, hrun, if_neg (by simp), if_pos rfl, State.tb_tbMod, if_pos rfl, htb]

/-- The last of a slew goes whole in one tick. -/
theorem time_slewEnd (k : Fin 10) (hs : (s.tb k).slew ≠ 0) (hc : (s.tb k).cmd = none) (ht : (s.tb k).ticked = false)
    (hr : s.tbRun k = true) (hl : (s.tb k).slew.natAbs ≤ max 1 (slewShare (s.tb k).addend (s.tb k).ppm (0 < (s.tb k).slew))) :
    s.completes (.slewEnd k) fun t => (t.tb k).slew = 0 ∧
      (t.tb k).val = (((s.tb k).val : Int) + (s.tb k).addend + (s.tb k).slew).toNat := by
  have hx : exec (.slewEnd k) s = .next (s.tbMod k fun b => { b.tick with ticked := true }) := by
    rw [exec_slewEnd, execSlewEnd]
    dsimp only
    rw [if_pos]
    simp only [hc, ht, hr, decide_eq_true hl, decide_eq_true hs, Option.isNone_none, Bool.not_false, Bool.and_self]
  refine State.completes_of hx ?_
  rw [State.tb_tbMod, if_pos rfl]
  unfold TimeBase.tick
  dsimp only
  rw [if_pos hl]
  exact ⟨Int.sub_self _, rfl⟩

/-! ## The unlock -/

theorem noRegion_tbUnlock (k : Fin 10) : noRegion (tbUnlock k) := noRegion_tbReg k.isLt (by omega)

theorem State.unlockOff_spec (k : Nat) : (s.unlockOff k).unlocked k = false ∧ (s.unlockOff k).rdb (tbCtl k) 28 = false := by
  unfold State.unlockOff
  refine ⟨?_, by simp [State.rdb, bit_setBit]⟩
  rw [State.unlocked_wrb]
  exact State.timerOn_stopTimer _ _

theorem State.unlockOn_spec (k ns : Nat) : ((s.startTimer (.unlock k) ns).wrb (tbCtl k) 28 true).unlocked k = true ∧
    ((s.startTimer (.unlock k) ns).wrb (tbCtl k) 28 true).rdb (tbCtl k) 28 = true := by
  refine ⟨?_, by simp [State.rdb, bit_setBit]⟩
  rw [State.unlocked_wrb]
  simp [State.unlocked, State.timerOn, State.startTimer]

theorem time_unlock (k : Fin 10) (v : Word) (hs : s.serves (tbUnlock k)) (h : s.lkOk false .time = true) :
    s.completes (.unlockWrite k v) fun t => t.unlocked k = (v == 0x00000F0C) ∧ t.rdb (tbCtl k) 28 = (v == 0x00000F0C) := by
  refine State.completes_cfg (exec_unlockWrite s) hs (noRegion_tbUnlock k) ?_
  rw [State.unlocked_answer, State.answer_rdb, State.unlockWrite, State.lk, if_pos h]
  by_cases hv : v = 0x00000F0C
  · rw [if_pos hv, beq_iff_eq.2 hv]
    exact s.unlockOn_spec k _
  · rw [if_neg hv, beq_eq_false_iff_ne.2 hv]
    exact s.unlockOff_spec k

theorem time_unlock_refused (k : Fin 10) (v : Word) (hs : s.serves (tbUnlock k)) (h : s.lkOk false .time = false) :
    s.completes (.unlockWrite k v) fun t => t.unlocked k = s.unlocked k ∧ t.rdb offSecEvt 0 = true ∧
      t.rd offWmapLast = w32 (tbUnlock k) := by
  refine State.completes_cfg (exec_unlockWrite s) hs (noRegion_tbUnlock k) ?_
  have hsmall : tbUnlock k % 2 ^ 26 = tbUnlock k := by
    have := tbHome_places k.isLt
    simp only [tbUnlock, tbReg_eq]
    omega
  obtain ⟨hevt, hlast, -, -, -⟩ := s.wmapRefuse_spec false (tbUnlock k)
  rw [State.unlocked_answer, State.answer_rdb, State.answer_rd, State.unlockWrite, State.lk, h, if_neg (by simp)]
  refine ⟨?_, hevt, hlast.trans (by rw [hsmall]; simp [b2n])⟩
  refine State.timerOn_congr ?_ _
  unfold State.wmapRefuse
  simp

theorem time_unlockExpire (k : Fin 10) (h : s.unlocked k = true) :
    s.completes (.unlockExpire k) fun t => t.unlocked k = false ∧ t.rdb (tbCtl k) 28 = false ∧ t.rdb offTimeEvt 1 = true := by
  have hx : exec (.unlockExpire k) s = .next ((s.unlockOff k).raiseEvt offTimeEvt 1) := by
    rw [exec_unlockExpire, execUnlockExpire, if_pos h]
  obtain ⟨hoff, hctl⟩ := s.unlockOff_spec k
  refine State.completes_of hx ⟨?_, ?_, State.rdb_raiseEvt _ _ _ (by omega)⟩
  · exact (State.timerOn_congr (by simp) _).trans hoff
  · rw [State.rdb, State.rd_raiseEvt_ne]
    · exact hctl
    · have := tbHome_places k.isLt
      simp only [tbCtl, tbReg_eq, offTimeEvt]
      omega

/-- Settles O43: a write of CMD is told of the registers that it leaves, and the operation that waits is applied at the tick. -/
theorem timeBasesAct : Obligations.TimeBasesAct := by
  unfold Obligations.TimeBasesAct
  intro s k
  refine ⟨time_addend s k, time_addend_refused s k, time_now s k, time_captureAll s, act_read s, act_write s, act_write_armed s,
    act_arm s, act_arm_late s, act_disarm s, act_fire s,
    fun v hs hc hp hj => ?set, fun v hs hc hp hj => ?setRefused, fun v hs hc hp hj => ?stepRefused,
    fun v hs hc hp hj => ?slewRefused, fun v hs hc hp hj => ?step, fun v hs hc hp hj => ?slew,
    fun v hs hc => ⟨State.goes_busy (exec_tbSet_go s k v) hs hc, State.goes_busy (exec_tbStep_go s k v) hs hc,
      State.goes_busy (exec_tbSlew_go s k v) hs hc⟩,
    fun v hs hc hp => ⟨State.goes_paired (exec_tbSet_go s k v) hs hc hp, State.goes_paired (exec_tbStep_go s k v) hs hc hp,
      State.goes_paired (exec_tbSlew_go s k v) hs hc hp⟩,
    fun v t h ht => ht ▸ s.tbTick_set h, fun d t h ht => ht ▸ s.tbTick_step h,
    fun d ppm t h hr hk ht => ht ▸ s.tbTick_slew h hr hk, time_slewEnd s k, time_unlock s k, time_unlock_refused s k,
    time_unlockExpire s k⟩
  case set => exact State.goes_ok (exec_tbSet_go s k v) hs hc hp (by rwa [s.setMag_opened]) (by rw [s.tbOpened_setValue])
  case setRefused => exact State.goes_refused (exec_tbSet_go s k v) hs hc hp (s.setMag_opened k _) hj
  case stepRefused => exact State.goes_refused (exec_tbStep_go s k v) hs hc hp (s.stepMag_opened k _) hj
  case slewRefused => exact State.goes_refused (exec_tbSlew_go s k v) hs hc hp (s.slewMag_opened k _) hj
  case step => exact State.goes_ok (exec_tbStep_go s k v) hs hc hp (by rwa [s.stepMag_opened]) (by rw [s.tbOpened_tbOffset])
  case slew =>
    refine State.goes_ok (exec_tbSlew_go s k v) hs hc hp (by rwa [s.slewMag_opened]) ?_
    rw [s.tbOpened_tbOffset, fld_goOp_ppm]

end Sys2Proof.Machine
end

section
/-! SUPPORT. What a declared harm leaves of the register file: the time monitors, one lemma per operation. -/

set_option Elab.async false

namespace Sys2Proof.Machine

section
variable {K : Nat → Prop}

theorem State.monSee_untouched (s : State) : Untouched K s (State.monSee s) := by
  unfold State.monSee
  exact Untouched.of_regs rfl

theorem State.setIslAt_untouched (s : State) (i) (v) : Untouched K s (State.setIslAt s i v) := by
  unfold State.setIslAt
  have h : Untouched K s { s with pwr := { s.pwr with isl := sset (fun _ => .off) s.pwr.isl i v } } :=
    Untouched.of_regs rfl
  exact h.trans (State.monSee_untouched _)

theorem State.reportDrop_untouched (s : State) (f) : Untouched K s (State.reportDrop s f) := by
  unfold State.reportDrop
  exact (by split; exact State.sendFate_untouched _ _ _; exact Untouched.refl _)

theorem State.meshMod_untouched (s : State) (f) : Untouched K s (State.meshMod s f) := by
  unfold State.meshMod
  exact Untouched.of_regs rfl

theorem State.setHandle_untouched (s : State) (k) (h) : Untouched K s (State.setHandle s k h) := by
  unfold State.setHandle
  exact State.meshMod_untouched _ _

theorem State.setKeyQueue_untouched (s : State) (b) (c) (q) : Untouched K s (State.setKeyQueue s b c q) := by
  unfold State.setKeyQueue
  exact State.meshMod_untouched _ _

theorem State.freeHandle_untouched (s : State) (k) : Untouched K s (State.freeHandle s k) := by
  unfold State.freeHandle
  exact Untouched.cut (fun h1 => (h1).trans (State.meshMod_untouched _ _)) ((State.setHandle_untouched _ _ _).trans
    (State.stopTimer_untouched _ _))

theorem State.dropHandle_untouched (s : State) (f) : Untouched K s (State.dropHandle s f) := by
  unfold State.dropHandle
  exact (by split; exact (by split; exact Untouched.ite ((State.setKeyQueue_untouched _ _ _ _).trans (State.freeHandle_untouched _ _)) (Untouched.refl _); exact Untouched.refl _); exact Untouched.refl _)

end

/-- Among the registers of the time monitors. -/
def monKept (x : Nat) : Prop := 0x104000 ≤ x ∧ x < 0x105000

/-- A register that these commands may change. Its proof is by its place in the map. -/
structure MonOff (off : Nat) : Prop where
  out : ¬ monKept off := by
    simp only [monKept, offFenceBed, offFencePort, offHarmLog, offHarmStatus, offMacEvt, offMacMmStatus, offMacPauseStat,
    offPwrIslandCtl, offRstBed, offSafeCnt, offSafeEvt, offStatCnt, offStatHalf, offStatWrap, offSwapStatus] at *
    omega

theorem monKept.low {x : Nat} (h : monKept x) : lowKept x := .inr h

theorem State.wr_mon (s : State) (off w) (h : ¬ monKept off := by exact MonOff.out {}) :
    Untouched monKept s (s.wr off w) := .wr h s w

theorem State.wrf_mon (s : State) (off hi lo n) (h : ¬ monKept off := by exact MonOff.out {}) :
    Untouched monKept s (s.wrf off hi lo n) := .wr h s _

theorem State.wrb_mon (s : State) (off i v) (h : ¬ monKept off := by exact MonOff.out {}) :
    Untouched monKept s (s.wrb off i v) := .wr h s _

theorem State.wr2_mon (s : State) (off n) (h : ¬ monKept off := by exact MonOff.out {}) (h4 : ¬ monKept (off + 4) := by
    exact MonOff.out {}) :
    Untouched monKept s (s.wr2 off n) := .trans (.wr h _ _) (.wr h4 _ _)

theorem State.raiseEvt_mon (s : State) (evt i) (he : ¬ monKept evt := by exact MonOff.out {}) :
    Untouched monKept s (s.raiseEvt evt i) := .raiseEvt he s i

theorem State.setCnt_mon (s : State) (off n) (h : ¬ monKept off := by exact MonOff.out {}) (h4 : ¬ monKept (off + 4) :=
    by exact MonOff.out {}) :
    Untouched monKept s (s.setCnt off n) := .setCnt h h4 s n

theorem State.addCnt_mon (s : State) (off n evt wrapBit) (h : ¬ monKept off := by exact MonOff.out {})
    (h4 : ¬ monKept (off + 4) := by exact MonOff.out {}) (he : ¬ monKept evt := by exact MonOff.out {}) :
    Untouched monKept s (s.addCnt off n evt wrapBit) := .addCnt h h4 he s n wrapBit

theorem State.inc_mon (s : State) (off evt wrapBit) (h : ¬ monKept off := by exact MonOff.out {})
    (h4 : ¬ monKept (off + 4) := by exact MonOff.out {}) (he : ¬ monKept evt := by exact MonOff.out {}) :
    Untouched monKept s (s.inc off evt wrapBit) := .addCnt h h4 he s 1 wrapBit

theorem State.wrs_mon (s : State) (off) (ws : List Word) (h : 0x105000 ≤ off := by simp only [offHarmLog]; omega) :
    Untouched monKept s (s.wrs off ws) := fun x hx => by
  refine State.rd_wrs_ne _ _ _ (.inl ?_)
  unfold monKept at hx
  omega

theorem State.statAt_mon (s : State) (cnt half wrap evt i n) (hc : 0x105000 ≤ cnt := by simp only [offStatCnt]; omega)
    (hh : 0x105000 ≤ half := by simp only [offStatHalf]; omega) (hw : 0x105000 ≤ wrap := by simp only [offStatWrap]; omega)
    (he : 0x105000 ≤ evt := by simp only [offMacEvt]; omega) : Untouched monKept s (State.statAt s cnt half wrap evt i n) := by
  unfold State.statAt
  exact Untouched.cut (fun h1 => Untouched.cut (fun h2 => Untouched.ite (((h2).trans (State.wrb_mon _ _ _ _)).trans
    (State.raiseEvt_mon _ _ _)) (h2)) (Untouched.ite (((h1).trans (State.wrb_mon _ _ _ _)).trans (State.raiseEvt_mon _ _
    _)) (h1))) (State.setCnt_mon _ _ _)

theorem State.stat_mon (s : State) (b) (p) (i) (n) : Untouched monKept s (State.stat s b p i n) := by
  unfold State.stat
  exact State.statAt_mon _ _ _ _ _ _ _

theorem State.safeEvt_mon (s : State) (i) : Untouched monKept s (State.safeEvt s i) := by
  unfold State.safeEvt
  exact Untouched.ite (State.raiseEvt_mon _ _ _) (Untouched.refl _)

theorem State.safeInc_mon (s : State) (i) (n) : Untouched monKept s (State.safeInc s i n) := by
  unfold State.safeInc
  exact Untouched.ite (State.addCnt_mon _ _ _ _ _) (Untouched.refl _)

/-- A port's registers go from one bed window to another: none outside the bed windows changes. -/
theorem State.copyPortRegs_mon (s : State) (a b p stats) : Untouched monKept s (State.copyPortRegs s a b p stats) := by
  intro x hx
  have hlow : ¬ bedBase b ≤ x := by
    unfold monKept at hx
    unfold bedBase
    omega
  unfold State.copyPortRegs State.rd
  extract_lets mine regs
  have hmine : mine b x = false := by simp [mine, hlow]
  have hfold : ∀ (l : List (Nat × Word)) (m : List (Nat × Word)), sget regReset
      (l.foldl (fun m e => sset regReset m (bedBase b + (e.1 - bedBase a)) e.2) m) x = sget regReset m x := by
    intro l
    induction l with
    | nil => exact fun m => rfl
    | cons e l ih => exact fun m => (ih _).trans (by rw [sget_sset, if_neg (by omega)])
  rw [hfold, sget_sdrop, hmine]
  rfl

theorem State.carryPort_mon (s : State) (a) (b) (p) (stats) : Untouched monKept s (State.carryPort s a b p stats) := by
  unfold State.carryPort
  exact Untouched.cut (fun h1 => Untouched.cut (fun h2 => (h2).trans (Untouched.of_regs rfl)) ((h1).trans
    (Untouched.of_regs rfl))) (State.copyPortRegs_mon _ _ _ _ _)

theorem State.setSwap_mon (s : State) (st) : Untouched monKept s (State.setSwap s st) := by
  unfold State.setSwap
  exact State.wrf_mon _ _ _ _ _

theorem State.swapDone_mon (s : State) : Untouched monKept s (State.swapDone s) := by
  unfold State.swapDone
  exact Untouched.ite (((State.setSwap_mon _ _).trans (State.harmMod_untouched _ _)).trans (State.safeEvt_mon _ _))
    (Untouched.cut (fun h1 => ((h1).trans (State.safeInc_mon _ _ _)).trans (State.safeEvt_mon _ _)) ((State.setSwap_mon _
    _).trans (State.harmMod_untouched _ _)))

theorem State.swapAbort_mon (s : State) (cause) : Untouched monKept s (State.swapAbort s cause) := by
  unfold State.swapAbort
  exact Untouched.cut (fun h1 => ((h1).trans (State.wrf_mon _ _ _ _ _)).trans (State.safeEvt_mon _ _))
    ((State.setSwap_mon _ _).trans (State.harmMod_untouched _ _))

theorem State.swapBegin_mon (s : State) (p) (st) : Untouched monKept s (State.swapBegin s p st) := by
  unfold State.swapBegin
  exact Untouched.cut (fun h1 => Untouched.cut (fun h2 => Untouched.ite ((h2).trans (State.safeEvt_mon _ _)) (h2))
    ((h1).trans (State.harmMod_untouched _ _))) (State.wr_mon _ _ _)

theorem State.mmDisable_mon (s : State) (b) (p) : Untouched monKept s (State.mmDisable s b p) := by
  unfold State.mmDisable
  exact Untouched.cut (fun h1 => Untouched.ite ((h1).trans (State.macMod_untouched _ _ _)) ((h1).trans (State.wrb_mon _ _
    _ _))) (((State.wrf_mon _ _ _ _ _).trans (State.wrf_mon _ _ _ _ _)).trans (State.stopTimer_untouched _ _))

theorem State.openEnd_mon (s : State) (b) (p) : Untouched monKept s (State.openEnd s b p) := by
  unfold State.openEnd
  exact Untouched.cut (fun h1 => (h1).trans (State.macMod_untouched _ _ _)) (Untouched.ite (State.wrb_mon _ _ _ _)
    (Untouched.refl _))

theorem State.cutCount_mon (s : State) (b) (p) (sent) : Untouched monKept s (State.cutCount s b p sent) := by
  unfold State.cutCount
  exact ((State.stat_mon _ _ _ _ _).trans (State.stat_mon _ _ _ _ _)).trans (State.stat_mon _ _ _ _ _)

theorem State.frameMod_untouched {K : Nat → Prop} (s : State) (f) (g) : Untouched K s (State.frameMod s f g) := by
  unfold State.frameMod
  exact Untouched.of_regs rfl

theorem State.unref_mon (s : State) (f) : Untouched monKept s (State.unref s f) := (State.unref_low s f).mono fun _ => monKept.low

theorem State.pathEnd_mon (s : State) (f) : Untouched monKept s (State.pathEnd s f) := by
  unfold State.pathEnd
  exact (State.frameMod_untouched _ _ _).trans (State.unref_mon _ _)

theorem State.discardAll_mon (s : State) (f) : Untouched monKept s (State.discardAll s f) := by
  unfold State.discardAll
  exact Untouched.cut (fun h1 => (h1).trans (State.pathEnd_mon _ _)) ((by split; exact (State.frameMod_untouched _ _ _).trans (State.unref_mon _ _); exact Untouched.refl _))

theorem State.discardCopy_mon (s : State) (c) : Untouched monKept s (State.discardCopy s c) :=
  (State.discardCopy_low s c).mono fun _ => monKept.low

theorem State.resetBed_mon (s : State) (n) : Untouched monKept s (State.resetBed s n) :=
  (State.resetBed_low s n).mono fun _ => monKept.low

theorem State.toHeld16_mon (s : State) : Untouched monKept s (State.toHeld s 18) := by
  unfold State.toHeld
  exact Untouched.cut (fun h1 => Untouched.ite (h1) ((h1).trans (State.setIslAt_untouched _ _ _)))
    ((State.resetBed_mon _ _).trans (State.setIslAt_untouched _ _ _))

/-- BED16 settles. -/
theorem State.settle16_mon (s : State) (was) : Untouched monKept s (State.settle s 18 was) := by
  unfold State.settle
  split
  · exact Untouched.ite ((State.setIslAt_untouched _ _ _).trans (State.startTimer_untouched _ _ _)) (Untouched.refl _)
  · exact Untouched.refl _
  · exact Untouched.ite (Untouched.refl _) (State.setIslAt_untouched _ _ _)
  · exact Untouched.ite ((State.resetBed_mon _ _).trans (State.setIslAt_untouched _ _ _)) (Untouched.refl _)
  · exact Untouched.ite (State.toHeld16_mon _) (Untouched.refl _)

theorem State.bed16Up_mon (s : State) : Untouched monKept s (State.bed16Up s) := by
  unfold State.bed16Up
  exact ((State.wrb_mon _ _ _ _).trans (State.wrb_mon _ _ _ _)).trans (State.settle16_mon _ _)

theorem State.harmRecord_mon (s : State) (head) (count) : Untouched monKept s (State.harmRecord s head count) := by
  unfold State.harmRecord
  exact Untouched.cut (fun h1 => Untouched.cut (fun h2 => Untouched.cut (fun h3 => Untouched.ite ((h3).trans
    (State.wrb_mon _ _ _ _)) (h3)) (((h2).trans (State.wrb_mon _ _ _ _)).trans (State.harmMod_untouched _ _)))
    (((h1).trans (State.wrf_mon _ _ _ _ _)).trans (State.wrf_mon _ _ _ _ _))) (State.wrs_mon _ _ _)

theorem State.harmReport_mon (s : State) (word0) : Untouched monKept s (State.harmReport s word0) := by
  unfold State.harmReport
  exact Untouched.ite ((State.harmMod_untouched _ _).trans (State.wrb_mon _ _ _ _)) (State.harmMod_untouched _ _)

theorem State.countFenced_mon (s : State) : Untouched monKept s (State.countFenced s) := by
  unfold State.countFenced
  exact State.safeInc_mon _ _ _

theorem State.fenceFrames_mon (s : State) (b) : Untouched monKept s (State.fenceFrames s b) := by
  unfold State.fenceFrames
  exact Untouched.foldl (Untouched.refl _) (fun _ _ => (((State.countFenced_mon _).trans (State.reportDrop_untouched _
    _)).trans (State.dropHandle_untouched _ _)).trans (State.discardAll_mon _ _))

theorem State.fenceCopies_mon (s : State) (p) : Untouched monKept s (State.fenceCopies s p) := by
  unfold State.fenceCopies
  exact Untouched.foldl (Untouched.refl _) (fun _ _ => (State.countFenced_mon _).trans (State.discardCopy_mon _ _))

theorem State.portCut_mon (s : State) (b) (p) : Untouched monKept s (State.portCut s b p) := by
  unfold State.portCut
  split
  · exact (State.cutCount_mon _ _ _ _).trans (State.openEnd_mon _ _ _)
  · exact Untouched.refl _

theorem State.closeTx_mon (s : State) (b) : Untouched monKept s (State.closeTx s b) := by
  unfold State.closeTx
  exact Untouched.foldl (Untouched.refl _) (fun _ _ => State.portCut_mon _ _ _)

theorem State.fencePort_mon (s : State) (p) : Untouched monKept s (State.fencePort s p) := by
  unfold State.fencePort
  exact Untouched.cut (fun h1 => (by (try extract_lets); split; exact (by split; exact (((h1).trans (State.countFenced_mon _)).trans (State.portCut_mon _ _ _)).trans (State.discardCopy_mon _ _); exact h1); exact h1)) (State.wrb_mon _ _ _ _)

theorem State.fencePosition_mon (s : State) (p) (on) : Untouched monKept s (State.fencePosition s p on) := by
  unfold State.fencePosition
  exact State.wrf_mon _ _ _ _ _

theorem State.freshMacs_mon (s : State) (b) : Untouched monKept s (State.freshMacs s b) := by
  unfold State.freshMacs
  exact Untouched.foldl (Untouched.refl _) (fun _ _ => Untouched.cut (fun h1 => (h1).trans (Untouched.of_regs rfl))
    ((State.mmDisable_mon _ _ _).trans (State.wr_mon _ _ _)))

theorem State.switchAll_mon (s : State) (stats) : Untouched monKept s (State.switchAll s stats) := by
  unfold State.switchAll
  exact Untouched.foldl (Untouched.refl _) (fun _ _ => Untouched.ite (Untouched.refl _) (Untouched.cut (fun h1 =>
    Untouched.ite (h1) ((h1).trans (State.wrb_mon _ _ _ _))) ((State.carryPort_mon _ _ _ _ _).trans (State.wrb_mon _ _ _
    _))))

theorem State.finishSwap_mon (s : State) (stats) : Untouched monKept s (State.finishSwap s stats) := by
  unfold State.finishSwap
  exact Untouched.cut (fun h1 => ((h1).trans (State.freshMacs_mon _ _)).trans (State.swapDone_mon _))
    (State.switchAll_mon _ _)

/-- An image is of registers of its bed's window. -/
theorem State.loadImage_mon (s : State) (b img) : Untouched monKept s (State.loadImage s b img) := by
  intro x hx
  have hb : inImage b x = false := by
    have hlow : ¬ bedBase b ≤ x % bankSpan := by
      unfold monKept at hx
      unfold bedBase bankSpan
      omega
    simp [inImage, hlow]
  have hfold : ∀ (l : List (Nat × Word)) (m : List (Nat × Word)), sget regReset
      (l.foldl (fun m e => sset regReset m (bedBase b + e.1) e.2) m) x = sget regReset m x := by
    have hne : ∀ r, x ≠ bedBase b + r := fun r => by
      unfold monKept at hx
      unfold bedBase
      omega
    intro l
    induction l with
    | nil => exact fun m => rfl
    | cons e l ih => exact fun m => (ih _).trans (by rw [sget_sset, if_neg (hne _)])
  unfold State.loadImage State.rd
  dsimp only
  rw [hfold, sget_sdrop, hb]
  rfl

theorem State.fallowLost_mon (s : State) : Untouched monKept s (State.fallowLost s) := by
  unfold State.fallowLost
  exact Untouched.cut (fun h1 => Untouched.cut (fun h2 => ((h2).trans (State.fencePosition_mon _ _ _)).trans
    (State.harmMod_untouched _ _)) (Untouched.ite ((h1).trans (State.loadImage_mon _ _ _)) ((h1).trans
    (State.keepRegion_untouched _ _ _)))) ((State.setSwap_mon _ _).trans (State.harmMod_untouched _ _))

theorem State.swapOnFence_mon (s : State) (b) : Untouched monKept s (State.swapOnFence s b) := by
  unfold State.swapOnFence
  exact Untouched.ite (Untouched.ite (State.fallowLost_mon _) (Untouched.ite (State.finishSwap_mon _ _) (Untouched.ite
    (State.swapAbort_mon _ _) (Untouched.ite (State.swapAbort_mon _ _) (Untouched.refl _))))) (Untouched.ite
    (State.swapAbort_mon _ _) (Untouched.ite (State.finishSwap_mon _ _) (Untouched.ite ((State.setSwap_mon _ _).trans
    (State.safeEvt_mon _ _)) (Untouched.ite (Untouched.ite (State.wrf_mon _ _ _ _ _) ((State.swapBegin_mon _ _ _).trans
    (State.bed16Up_mon _))) (Untouched.refl _)))))

theorem State.fenceBed_mon (s : State) (b) : Untouched monKept s (State.fenceBed s b) := by
  unfold State.fenceBed
  exact Untouched.ite (Untouched.refl _) (Untouched.cut (fun h1 => Untouched.cut (fun h2 => Untouched.cut (fun h3 => Untouched.cut (fun h4 => (h4).trans (State.swapOnFence_mon _ _)) ((h3).trans (State.harmMod_untouched _ _))) ((by split; exact (h2).trans (State.emit_untouched _ _); exact h2))) (((h1).trans (State.closeTx_mon _ _)).trans (State.wrb_mon _ _ _ _))) ((State.fenceFrames_mon _ _).trans (State.fenceCopies_mon _ _)))

theorem State.fence_mon (s : State) (cls) (t) (ports) : Untouched monKept s (State.fence s cls t ports) := by
  unfold State.fence
  exact Untouched.ite (Untouched.refl _) (Untouched.ite (Untouched.foldl (Untouched.refl _) (fun _ _ => State.fencePort_mon _ _)) ((by split; exact Untouched.ite (State.fencePort_mon _ _) ((by split; exact State.fenceBed_mon _ _; exact State.fencePort_mon _ _)); exact Untouched.ite ((by split; exact Untouched.foldl (Untouched.refl _) (fun _ _ => State.fencePort_mon _ _); exact Untouched.refl _)) (State.fenceBed_mon _ _); exact Untouched.refl _)))

theorem State.declare_mon (s : State) (cls) (t) (count) (ports) : Untouched monKept s (State.declare s cls t count ports)
    := by
  unfold State.declare
  exact Untouched.cut (fun h1 => ((h1).trans (State.harmReport_mon _ _)).trans (State.fence_mon _ _ _ _))
    (((State.harmRecord_mon _ _ _).trans (State.safeInc_mon _ _ _)).trans (State.safeEvt_mon _ _))

theorem State.detectOn_mon (s : State) (cls) (t) (ports) : Untouched monKept s (State.detectOn s cls t ports) := by
  unfold State.detectOn
  exact Untouched.ite (Untouched.refl _) (Untouched.ite (((State.harmMod_untouched _ _).trans (State.stopTimer_untouched
    _ _)).trans (State.declare_mon _ _ _ _ _)) (Untouched.cut (fun h1 => Untouched.ite (h1) ((h1).trans
    (State.startTimer_untouched _ _ _))) (State.harmMod_untouched _ _)))

theorem State.detectTime_mon (s : State) (k) : Untouched monKept s (State.detectTime s k) := by
  unfold State.detectTime
  exact State.detectOn_mon _ _ _ _


end Sys2Proof.Machine
end

section
/-! SUPPORT. Pairs, timestamp queues, the time inputs and outputs, and the time monitors (R289, R295 to R299). -/

set_option Elab.async false

namespace Sys2Proof.Machine

variable (s : State)

/-! ## Pairs -/

theorem noRegion_pairCtl (k : Fin 2) : noRegion (offPairCtl k) := by
  unfold noRegion offPairCtl offReplCmd
  omega

/-- The fields of PAIR.CTL that a write leaves in it. -/
theorem bit_pairMask (v : Word) (i : Nat) (hi : i = 31 ∨ i = 21) : bit i (v &&& 0x9FE0000F) = bit i v := by
  obtain rfl | rfl := hi <;> simp [bit]

/-- PAIR[k].CTL holds a write's fields. -/
def State.pairOpened (k : Nat) (v : Word) : State := s.wr (offPairCtl k) (v &&& 0x9FE0000F)

theorem State.pairOpened_state (k : Nat) (v : Word) : (s.pairOpened k v).pairState k = s.pairState k := by
  simp only [State.pairState, State.rdf, State.pairOpened]
  rw [State.rd_wr_ne]
  simp only [offPairStatus, offPairCtl]
  omega

theorem State.pairOpened_rdb (k : Nat) (v : Word) {i : Nat} (hi : i = 31 ∨ i = 21) :
    (s.pairOpened k v).rdb (offPairCtl k) i = bit i v := by
  rw [State.rdb, State.pairOpened, State.rd_wr_same, bit_pairMask v i hi]

theorem State.pairOpened_tb (k : Nat) (v : Word) (j : Nat) : (s.pairOpened k v).tb j = s.tb j := State.tb_congr (by simp [State.pairOpened]) j

/-- The state of a pair whose STATUS takes a state. -/
theorem State.pairState_wrf {k n : Nat} (hk : k < 2) (hn : n < 4) : (s.wrf (offPairStatus k) 31 30 n).pairState k = n := by
  rw [State.pairState, if_pos hk, State.rdf, State.rd_wrf, if_pos rfl, fld_setFld 31 30 n _ (by omega) (by omega)]
  omega

theorem State.pairState_congr {s t : State} {k : Nat} (h : t.rd (offPairStatus k) = s.rd (offPairStatus k)) :
    t.pairState k = s.pairState k := by rw [State.pairState, State.pairState, State.rdf, State.rdf, h]

/-- SWITCH where the pair is enabled and in PRIMARY. -/
theorem State.pairSwitch_from {k : Nat} (he : s.rdb (offPairCtl k) 31 = true) (hp : s.pairState k = 0) :
    s.pairSwitch k = if s.rdb (offPairCtl k) 21 || (s.tb (8 + k)).valid then
        (s.wr (offPairD k) (signedNs (s.pairDiff k))).wrf (offPairStatus k) 31 30 1
      else (s.wrb (offPairStatus k) 28 true).raiseEvt offTimeEvt 10 := by
  have hcopy : s.trkCopies (8 + k) = s.rdb (offPairCtl k) 21 := by
    rw [State.trkCopies, Nat.add_sub_cancel_left, decide_eq_true (Nat.le_add_right 8 k), Bool.true_and]
  rw [State.pairSwitch, he, hp, hcopy]
  simp

/-- A write of SWITCH without RETURN. -/
theorem State.pairCtlWrite_switch {k : Nat} {v : Word} (he : bit 31 v = true) (hr : bit 29 v = false) :
    s.pairCtlWrite k (setBit 30 true v) = (s.pairOpened k (setBit 30 true v)).pairSwitch k := by
  have h30 : bit 30 (setBit 30 true v) = true := by simp [bit_setBit]
  have h31 : bit 31 (setBit 30 true v) = true := by simp [bit_setBit, he]
  have h29 : bit 29 (setBit 30 true v) = false := by simp [bit_setBit, hr]
  unfold State.pairCtlWrite
  rw [h30, h31, h29]
  rfl

theorem pair_switch (k : Fin 2) (v : Word) (hs : s.serves (offPairCtl k)) (he : bit 31 v = true) (hr : bit 29 v = false)
    (hp : s.pairState k = 0) (hv : bit 21 v = true ∨ (s.tb (8 + k.val)).valid = true) :
    s.completes (.pairSwitch k v) fun t => t.pairState k = 1 ∧ t.rd (offPairD k) = signedNs (s.pairDiff k) := by
  let u := s.pairOpened k (setBit 30 true v)
  have hu : u = s.pairOpened k (setBit 30 true v) := rfl
  have hen : u.rdb (offPairCtl k) 31 = true := by rw [hu, s.pairOpened_rdb k _ (.inl rfl), bit_setBit _ _ _ _ (by omega)]; simp [he]
  have hcopy : u.rdb (offPairCtl k) 21 = bit 21 v := by rw [hu, s.pairOpened_rdb k _ (.inr rfl), bit_setBit _ _ _ _ (by omega)]; simp
  have hdiff : u.pairDiff k = s.pairDiff k := by simp only [State.pairDiff, hu, s.pairOpened_tb]
  refine State.completes_cfg (exec_pairSwitch s) hs (noRegion_pairCtl k) ?_
  rw [s.pairCtlWrite_switch he hr, u.pairSwitch_from hen (by rw [hu, s.pairOpened_state, hp]), hcopy, hu, s.pairOpened_tb, ← hu, hdiff,
    if_pos (by simpa using hv), State.answer_rd, State.pairState_congr (State.answer_rd _ _ _ _), State.pairState_wrf _ k.isLt (by omega)]
  refine ⟨rfl, ?_⟩
  rw [State.rd_wrf_ne _ _ _ _ (by simp [offPairD, offPairStatus]), State.rd_wr_same]

theorem pair_switch_lost (k : Fin 2) (v : Word) (hs : s.serves (offPairCtl k)) (he : bit 31 v = true) (hr : bit 29 v = false)
    (hp : s.pairState k = 0) (hc : bit 21 v = false) (hv : (s.tb (8 + k.val)).valid = false) :
    s.completes (.pairSwitch k v) fun t => t.pairState k = 0 ∧ t.rdb (offPairStatus k) 28 = true ∧ t.rdb offTimeEvt 10 = true := by
  let u := s.pairOpened k (setBit 30 true v)
  have hu : u = s.pairOpened k (setBit 30 true v) := rfl
  have hen : u.rdb (offPairCtl k) 31 = true := by rw [hu, s.pairOpened_rdb k _ (.inl rfl), bit_setBit _ _ _ _ (by omega)]; simp [he]
  have hcopy : u.rdb (offPairCtl k) 21 = bit 21 v := by rw [hu, s.pairOpened_rdb k _ (.inr rfl), bit_setBit _ _ _ _ (by omega)]; simp
  have hst : u.pairState k = 0 := by rw [hu, s.pairOpened_state, hp]
  have hne : offPairStatus k ≠ offTimeEvt := by simp only [offPairStatus, offTimeEvt]; omega
  refine State.completes_cfg (exec_pairSwitch s) hs (noRegion_pairCtl k) ?_
  rw [s.pairCtlWrite_switch he hr, u.pairSwitch_from hen hst, hcopy, hu, s.pairOpened_tb, ← hu,
    if_neg (by simp [hc, hv]), State.answer_rdb, State.answer_rdb, State.pairState_congr (State.answer_rd _ _ _ _)]
  refine ⟨?_, ?_, State.rdb_raiseEvt _ _ _ (by omega)⟩
  · rw [State.pairState_congr (State.rd_raiseEvt_ne _ _ hne), State.pairState, if_pos k.isLt, State.rdf, State.wrb, State.rd_wr_same,
      fld_setBit_ne _ _ _ _ _ (by omega) (by omega)]
    simpa [State.pairState, State.rdf, k.isLt] using hst
  · rw [State.rdb, State.rd_raiseEvt_ne _ _ hne, State.wrb, State.rd_wr_same]
    simp [bit_setBit]

theorem pair_return (k : Fin 2) (v : Word) (hs : s.serves (offPairCtl k)) :
    s.completes (.pairReturn k v) fun t => t.pairState k = 0 := by
  let w := setBit 30 false (if bit 31 v then setBit 29 true v else v)
  have hw : w = setBit 30 false (if bit 31 v then setBit 29 true v else v) := rfl
  have hback : (bit 29 w || !bit 31 w) = true := by
    cases h : bit 31 v <;> simp [hw, h, bit_setBit]
  refine State.completes_cfg (exec_pairReturn s) hs (noRegion_pairCtl k) ?_
  rw [State.pairState_congr (State.answer_rd _ _ _ _), State.pairCtlWrite, if_pos hback, State.pairReturn]
  exact State.pairState_wrf _ k.isLt (by omega)

theorem State.tb_wrf_evt (x hi lo n evt i j : Nat) : ((s.wrf x hi lo n).raiseEvt evt i).tb j = s.tb j := State.tb_congr (by simp) j

theorem pair_done (k : Fin 2) (hp : s.pairState k = 1) (hd : (s.pairDiff k).natAbs ≤ s.pairShare k) :
    s.completes (.pairSwitchDone k) fun t => t.pairState k = 2 ∧ (t.tb k).val = (s.tb (8 + k.val)).val ∧
      t.rdb offTimeEvt 9 = true := by
  have hx : exec (.pairSwitchDone k) s = .next (s.pairFollow k) := by
    rw [exec_pairSwitchDone, execPairSwitchDone, hp, decide_eq_true hd]
    rfl
  have hne : offPairStatus k ≠ offTimeEvt := by simp only [offPairStatus, offTimeEvt]; omega
  unfold State.pairFollow at hx
  refine State.completes_of hx ⟨?_, ?_, State.rdb_raiseEvt _ _ _ (by omega)⟩
  · rw [State.pairState_congr (State.rd_raiseEvt_ne _ _ hne), State.pairState_wrf _ k.isLt (by omega)]
  · rw [State.tb_wrf_evt, State.tb_tbMod, if_pos rfl]

/-! ## Timestamp queues -/

theorem State.tsq_congr {s t : State} (h : t.time = s.time) (m : Nat) : t.tsq m = s.tsq m := by rw [State.tsq, State.tsq, h]

/-- What a queue reads after it takes a value of at most 64 captures. -/
theorem State.setTsq_spec (b p : Nat) (q : List (List Word)) (hq : q.length < 128) :
    (s.setTsq b p q).tsq (16 * b + p) = q ∧ (s.setTsq b p q).rdf (offTsqStatus b p) 6 0 = q.length := by
  have hst : offTsqStatus b p < offTsqEntry b p 0 := by simp [offTsqStatus, offTsqEntry]
  unfold State.setTsq
  refine ⟨?_, ?_⟩
  · simp [State.tsq, State.timeMod, sget_sset]
  · rw [State.rdf, State.rd_wrs_ne _ _ _ (.inl hst), State.rd_wrf, if_pos rfl, fld_setFld 6 0 _ _ (by omega) (by omega)]
    omega

theorem State.tsqWrite_pop (b p : Nat) (v : Word) (hq : (s.tsq (16 * b + p)).length ≤ 64) :
    (s.tsqWrite b p (setBit 31 true v)).tsq (16 * b + p) = (s.tsq (16 * b + p)).tail ∧
      (s.tsqWrite b p (setBit 31 true v)).rdf (offTsqStatus b p) 6 0 = (s.tsq (16 * b + p)).length - 1 := by
  have h31 : bit 31 (setBit 31 true v) = true := by simp [bit_setBit]
  let u := if bit 30 (setBit 31 true v) then s.wrb (offTsqStatus b p) 30 false else s
  have hu : u = if bit 30 (setBit 31 true v) then s.wrb (offTsqStatus b p) 30 false else s := rfl
  have htsq : u.tsq (16 * b + p) = s.tsq (16 * b + p) := by
    simp only [hu, State.tsq]
    split <;> simp
  have hw : s.tsqWrite b p (setBit 31 true v) = u.setTsq b p (s.tsq (16 * b + p)).tail := by
    unfold State.tsqWrite
    dsimp only
    rw [if_pos h31, ← hu, htsq]
  obtain ⟨h1, h2⟩ := u.setTsq_spec b p (s.tsq (16 * b + p)).tail (by rw [List.length_tail]; omega)
  rw [hw]
  exact ⟨h1, h2.trans List.length_tail⟩

/-- A command that is an access, to whatever offset: what its unit does is written through, and answered. -/
theorem State.completes_through {s : State} {c : Instr} {off : Nat} {f : State → State} {P : State → Prop}
    (hx : exec c s = .next (s.cfg off f)) (hs : s.serves off) (h : P ((s.writeThrough (f s) off).answer false 0)) : s.completes c P :=
  ⟨_, hx.trans (by rw [State.cfg_serves hs]), h⟩

theorem State.writeThrough_time (s t : State) (off : Nat) : (s.writeThrough t off).time = t.time := by
  obtain ⟨regs, rules, entries, h⟩ := State.writeThrough_same s t off
  rw [h]

theorem tsq_pop (b : BedIx) (p : LocalIx) (v : Word) (hs : s.serves (offTsqStatus b p))
    (hq : (s.tsq (16 * b.val + p.val)).length ≤ 64) :
    s.completes (.tsqPop b p v) fun t => t.tsq (16 * b.val + p.val) = (s.tsq (16 * b.val + p.val)).tail ∧
      t.rdf (offTsqStatus b p) 6 0 = (s.tsq (16 * b.val + p.val)).length - 1 := by
  obtain ⟨htsq, hst⟩ := s.tsqWrite_pop b p v hq
  have hb := b.isLt
  have hp := p.isLt
  refine State.completes_through (exec_tsqPop s) hs ⟨?_, ?_⟩
  · exact (State.tsq_congr (by simp [State.writeThrough_time]) _).trans htsq
  · rw [State.rdf, State.answer_rd, State.writeThrough_rd]
    · exact hst
    · simp only [notGen, offTsqStatus]
      omega
    · simp only [offTsqStatus, bankSpan]
      omega

/-! ## Time inputs and outputs -/

/-- The queue of a PPS input after it takes a value. -/
theorem State.ppsQ_setPpsQ (i : Nat) (q : List Nat) : (s.setPpsQ i q).ppsQ i = q := by
  unfold State.setPpsQ
  simp [State.ppsQ, State.timeMod, sget_sset]

theorem State.ppsQ_congr {s t : State} (h : t.time = s.time) (i : Nat) : t.ppsQ i = s.ppsQ i := by rw [State.ppsQ, State.ppsQ, h]

theorem pps_edge (k : Fin 2) (hl : s.lineOn = true) (he : s.rdb (offPpsInCtl k) 31 = true) (hq : (s.ppsQ k).length < 16) :
    s.completes (.ppsInEdge k (s.rdb (offPpsInCtl k) 30)) fun t => t.ppsQ k = s.ppsQ k ++
        [addPs (s.tbNow (s.rdf (offPpsInCtl k) 29 27)) (sword (s.rdf (offPpsInCtl k) 15 0))] ∧
      t.rdb offTimeEvt 6 = true := by
  have hen : bit 31 (s.rd (offPpsInCtl k)) = true := he
  have hx : exec (.ppsInEdge k (s.rdb (offPpsInCtl k) 30)) s = .next ((s.setPpsQ k (s.ppsQ k ++
      [addPs (s.tbNow (s.rdf (offPpsInCtl k) 29 27)) (sword (s.rdf (offPpsInCtl k) 15 0))])).raiseEvt offTimeEvt 6) := by
    rw [exec_ppsInEdge, execPpsInEdge]
    dsimp only
    rw [hl, hen, State.rdb, if_neg (by simp), if_neg (by omega)]
    rfl
  refine State.completes_of hx ⟨?_, State.rdb_raiseEvt _ _ _ (by omega)⟩
  exact (State.ppsQ_congr (by simp) _).trans (s.ppsQ_setPpsQ _ _)

theorem pps_edge_lost (k : Fin 2) (hl : s.lineOn = true) (he : s.rdb (offPpsInCtl k) 31 = true) (hq : 16 ≤ (s.ppsQ k).length) :
    s.completes (.ppsInEdge k (s.rdb (offPpsInCtl k) 30)) fun t => t.ppsQ k = s.ppsQ k ∧
      t.rdb (offPpsInCtl k) 26 = true ∧ t.rdb offTimeEvt 7 = true := by
  have hen : bit 31 (s.rd (offPpsInCtl k)) = true := he
  have hx : exec (.ppsInEdge k (s.rdb (offPpsInCtl k) 30)) s =
      .next ((s.wrb (offPpsInCtl k) 26 true).raiseEvt offTimeEvt 7) := by
    rw [exec_ppsInEdge, execPpsInEdge]
    dsimp only
    rw [hl, hen, State.rdb, if_neg (by simp), if_pos hq]
  have hne : offPpsInCtl k ≠ offTimeEvt := by simp only [offPpsInCtl, offTimeEvt]; omega
  refine State.completes_of hx ⟨State.ppsQ_congr (by simp) _, ?_, State.rdb_raiseEvt _ _ _ (by omega)⟩
  rw [State.rdb, State.rd_raiseEvt_ne _ _ hne, State.wrb, State.rd_wr_same]
  simp [bit_setBit]

theorem pps_pop (k : Fin 2) (hs : s.serves (offPpsInPop k)) : s.completes (.ppsInPop k) fun t => t.ppsQ k = (s.ppsQ k).tail := by
  have hn : noRegion (offPpsInPop k) := by
    unfold noRegion offPpsInPop offReplCmd
    omega
  exact State.completes_cfg (exec_ppsInPop s) hs hn ((State.ppsQ_congr (by simp) _).trans (s.ppsQ_setPpsQ _ _))

theorem pps_out_end (k : Fin 2) (h : s.timerOn (.ppsOut k) = true) :
    s.completes (.ppsOutEnd k) fun t => t.timerOn (.ppsOut k) = false ∧
      t.outbox = .ppsLevel k (s.rdb (offPpsOutCtl k) 30) :: s.outbox := by
  have hx : exec (.ppsOutEnd k) s = .next ((s.stopTimer (.ppsOut k)).emit (.ppsLevel k (s.rdb (offPpsOutCtl k) 30))) := by
    rw [exec_ppsOutEnd, execPpsOutEnd, if_pos h]
  exact State.completes_of hx ⟨s.timerOn_stopTimer _, rfl⟩

theorem noRegion_ref10 : noRegion offRef10Ctl := by simp [noRegion, offRef10Ctl, offReplCmd]

theorem ref10_go (v : Word) (hs : s.serves offRef10Ctl) : s.completes (.ref10Go v) fun t => t.time.measuring = true ∧
    t.rdf offRef10Ctl 30 29 = 0 ∧ t.rdf offRef10Ctl 4 0 = fld 4 0 v := by
  have h31 : bit 31 (setBit 31 true v) = true := by simp [bit_setBit]
  let w := (setBit 31 true v &&& 0x1C00001F) ||| (s.rd offRef10Ctl &&& 0x60000000)
  have hw : w = (setBit 31 true v &&& 0x1C00001F) ||| (s.rd offRef10Ctl &&& 0x60000000) := rfl
  have hlow : fld 4 0 w = fld 4 0 v := by
    refine Nat.eq_of_testBit_eq fun i => ?_
    rw [fld_testBit, fld_testBit]
    by_cases hi : i < 5
    · have hb : bit (0 + i) w = bit (0 + i) v := by
        obtain rfl | rfl | rfl | rfl | rfl : i = 0 ∨ i = 1 ∨ i = 2 ∨ i = 3 ∨ i = 4 := by omega
        all_goals simp [hw, bit, setBit]
      rw [hb]
    · simp [show ¬ i < 4 + 1 - 0 by omega]
  refine State.completes_cfg (exec_ref10Go s) hs noRegion_ref10 ?_
  rw [State.ref10Write, if_pos h31]
  let u := (s.wr offRef10Ctl w).wrf offRef10Ctl 30 29 0
  have hu : u = (s.wr offRef10Ctl w).wrf offRef10Ctl 30 29 0 := rfl
  have hrd : u.rd offRef10Ctl = setFld 30 29 0 w := by rw [hu, State.rd_wrf, if_pos rfl, State.rd_wr_same]
  have hmod : ∀ x, (u.timeMod fun t => { t with measuring := true }).rd x = u.rd x := fun x => rfl
  refine ⟨by simp [State.timeMod], ?_, ?_⟩
  · rewrite [State.rdf, State.answer_rd, hmod, hrd, fld_setFld 30 29 _ _ (by omega) (by omega)]
    rfl
  · rw [State.rdf, State.answer_rd, hmod, hrd, fld_setFld_ne 30 29 4 0 _ _ (by omega) (by omega) (by omega), hlow]

theorem ref10_done (elapsed : BitVec 64) (hm : s.time.measuring = true) (hr : s.roleServed 17 = true) :
    s.completes (.ref10Done elapsed false) fun t => t.time.measuring = false ∧ t.rdb offRef10Ctl 30 = true ∧
      t.rd offRef10Meas = BitVec.ofInt 32 ((elapsed.toNat : Int) - 2 ^ clampTo 10 24 (s.rdf offRef10Ctl 4 0) * 100 * 65536) := by
  let u := (s.wrb offRef10Ctl 30 true).timeMod fun t => { t with measuring := false }
  have hu : u = (s.wrb offRef10Ctl 30 true).timeMod fun t => { t with measuring := false } := rfl
  have hx : exec (.ref10Done elapsed false) s = .next (u.wr offRef10Meas (BitVec.ofInt 32
      ((elapsed.toNat : Int) - 2 ^ clampTo 10 24 (s.rdf offRef10Ctl 4 0) * 100 * 65536))) := by
    rw [exec_ref10Done, execRef10Done, hm, hr, if_neg (by simp)]
    rfl
  refine State.completes_of hx ⟨by simp [hu, State.timeMod], ?_, State.rd_wr_same _ _ _⟩
  have hmod : ∀ x, u.rd x = (s.wrb offRef10Ctl 30 true).rd x := fun x => rfl
  rw [State.rdb, State.rd_wr_ne _ _ (by simp [offRef10Ctl, offRef10Meas]), hmod, State.wrb, State.rd_wr_same]
  simp [bit_setBit]

theorem ref10_none (elapsed : BitVec 64) (hm : s.time.measuring = true) (hr : s.roleServed 17 = true) :
    s.completes (.ref10Done elapsed true) fun t => t.time.measuring = false ∧ t.rdf offRef10Ctl 30 29 = 3 := by
  let u := (s.wrb offRef10Ctl 30 true).timeMod fun t => { t with measuring := false }
  have hu : u = (s.wrb offRef10Ctl 30 true).timeMod fun t => { t with measuring := false } := rfl
  have hx : exec (.ref10Done elapsed true) s = .next (u.wrb offRef10Ctl 29 true) := by
    rw [exec_ref10Done, execRef10Done, hm, hr, if_neg (by simp)]
    rfl
  have hmod : u.rd offRef10Ctl = setBit 30 true (s.rd offRef10Ctl) := State.rd_wr_same s offRef10Ctl _
  refine State.completes_of hx ⟨by simp [hu, State.timeMod], ?_⟩
  rw [State.rdf, State.wrb, State.rd_wr_same, hmod]
  refine Nat.eq_of_testBit_eq fun i => ?_
  rw [fld_testBit]
  by_cases hi : i < 2
  · obtain rfl | rfl : i = 0 ∨ i = 1 := by omega
    · simp [bit_setBit]
    · simp [bit_setBit]
      decide
  · rw [show (3 : Nat) = 2 ^ 2 - 1 from rfl, Nat.testBit_two_pow_sub_one]
    simp [hi]

/-! ## Monitors -/

theorem mon_sample (m : Fin 4) (hr : s.roleServed 17 = true) (he : s.rdb (offMonCtl m) 31 = true)
    (hp : s.rdb (offMonCtl m) 30 = false) :
    s.completes (.timeMonSample m false) fun t => t.rd (offMonLastDiff m) = signedNs
      ((s.tbNow (s.rdf (offMonCtl m) 28 26) : Int) - s.tbNow (s.rdf (offMonCtl m) 25 23) -
        (s.rd (offMonOffset m)).toInt * nsUnit) := by
  have hin : monKept (offMonLastDiff m) := by
    unfold monKept offMonLastDiff
    omega
  have hjudge : ∀ (u : State) (bad : Bool), (u.monJudge m bad).rd (offMonLastDiff m) = u.rd (offMonLastDiff m) := fun u bad => by
    unfold State.monJudge
    extract_lets run t
    have ht : t.rd (offMonLastDiff m) = u.rd (offMonLastDiff m) := rfl
    split
    · rw [State.detectTime_mon _ _ _ hin, State.rd_raiseEvt_ne, ht]
      simp only [offMonLastDiff, offTimeEvt]
      omega
    · exact ht
  have hen : bit 31 (s.rd (offMonCtl m)) = true := he
  have hpps : bit 30 (s.rd (offMonCtl m)) = false := hp
  let d : Int := (s.tbNow (s.rdf (offMonCtl m) 28 26) : Int) - s.tbNow (s.rdf (offMonCtl m) 25 23) -
    (s.rd (offMonOffset m)).toInt * nsUnit
  have hd : d = (s.tbNow (s.rdf (offMonCtl m) 28 26) : Int) - s.tbNow (s.rdf (offMonCtl m) 25 23) -
    (s.rd (offMonOffset m)).toInt * nsUnit := rfl
  have hx : ∃ bad, exec (.timeMonSample m false) s = .next ((s.wr (offMonLastDiff m) (signedNs d)).monJudge m bad) := by
    rw [exec_timeMonSample, execTimeMonSample]
    dsimp only
    rw [hr, hen, hpps, if_neg (by simp), if_neg (by simp), if_neg (by simp)]
    exact ⟨_, rfl⟩
  obtain ⟨bad, hx⟩ := hx
  exact State.completes_of hx ((hjudge _ _).trans (State.rd_wr_same _ _ _))

/-- Settles O44: each command's registers lie apart from those it reads, and a declared harm leaves the monitors. -/
theorem timeInputsAndPairsAct : Obligations.TimeInputsAndPairsAct := by
  unfold Obligations.TimeInputsAndPairsAct
  intro s k
  exact ⟨pair_switch s k, pair_switch_lost s k, pair_return s k, pair_done s k, tsq_pop s, pps_edge s k, pps_edge_lost s k, pps_pop s k,
    pps_out_end s k, ref10_go s, ref10_done s, ref10_none s, mon_sample s⟩

end Sys2Proof.Machine
end

section
/-! SUPPORT. The host rings one operation at a time (R321 to R331): which of a ring's own registers each leaves, and what each does
to the ring beside its registers. -/

set_option Elab.async false

namespace Sys2Proof.Machine

variable (s : State)

/-! ## A ring's registers -/

/-- A ring's own registers, apart from its counter of discards. -/
def ringOwn (k x : Nat) : Prop := ringBase k ≤ x ∧ x < ringBase k + 0x28

theorem ringKey_lt1280 (r : RingId) : ringKey r < 1280 := by
  cases r <;> simp only [ringKey] <;> omega

theorem ringBase_place {k : Nat} (hk : k < 1280) : 0x200000 ≤ ringBase k ∧ ringBase k + 0x40 ≤ 0x214000 := by
  unfold ringBase offTxBase offRxBase offVecBase
  split
  · omega
  · split <;> omega

theorem noRegion_rgCtl {k : Nat} (hk : k < 1280) : noRegion (rgCtl k) := by
  have := ringBase_place hk
  unfold noRegion rgCtl offReplCmd
  omega

theorem State.inc_own {k off : Nat} (hk : k < 1280) (h : off + 4 < ringBase k ∨ ringBase k + 0x28 ≤ off) :
    Untouched (ringOwn k) s (s.inc off offRingEvt 6) := by
  have := ringBase_place hk
  refine .addCnt ?_ ?_ ?_ s 1 6 <;>
  · simp only [ringOwn, offRingEvt]
    omega

theorem State.ringCnt_own {k : Nat} (hk : k < 1280) (i : Nat) : Untouched (ringOwn k) s (s.ringCnt i) := by
  have := ringBase_place hk
  exact s.inc_own hk (.inr (by simp only [offRingCnt]; omega))

theorem State.ringDrop_own {k : Nat} (hk : k < 1280) (i : Nat) : Untouched (ringOwn k) s (s.ringDrop k i) :=
  (s.ringCnt_own hk i).trans (State.inc_own _ hk (.inr (by simp only [rgDrop]; omega)))

theorem State.ringEvent_own {k : Nat} (hk : k < 1280) (j i : Nat) : Untouched (ringOwn k) s (s.ringEvent j i) := by
  have := ringBase_place hk
  refine .trans (.wr ?_ _ _) (.raiseEvt ?_ _ _)
  · simp only [ringOwn, offRingLast]
    omega
  · simp only [ringOwn, offRingEvt]
    omega

theorem State.dropWork_own {k : Nat} (hk : k < 1280) : Untouched (ringOwn k) s (s.dropWork k) := by
  unfold State.dropWork
  extract_lets r n t u
  have ht : Untouched (ringOwn k) s t := .foldl (.refl s) fun v _ => v.ringDrop_own hk 2
  have hu : Untouched (ringOwn k) s u := ht.trans (.of_regs rfl)
  exact (hu.trans (State.ringMod_untouched _ _ _)).trans (State.fetchOver_untouched _ _)

theorem ringBase_vec (v : Nat) : ringBase (1024 + v) = 0x210000 + 0x40 * v := by
  rw [ringBase, if_neg (by omega), if_neg (by omega), Nat.add_sub_cancel_left, offVecBase]

theorem rgCtl_vec (v : Nat) : rgCtl (1024 + v) = offVecCtl v := by
  rw [rgCtl, ringBase_vec, offVecCtl]
  omega

theorem rgStatus_vec (v : Nat) : rgStatus (1024 + v) = offVecStatus v := by
  rw [rgStatus, ringBase_vec, offVecStatus]
  omega

theorem State.setArmed_state (v : Nat) (on : Bool) : (s.setArmed v on).ringState (1024 + v) = s.ringState (1024 + v) := by
  rw [State.ringState, State.ringState, State.rdf, State.rdf, rgStatus_vec, State.setArmed,
    State.rd_wrb_ne _ _ _ (by simp only [offVecStatus, offVecCtl]; omega), State.wrb, State.rd_wr_same,
    fld_setBit_ne _ _ _ _ _ (by omega) (by omega)]

/-! ## A ring beside its registers -/

theorem State.ring_congr {s t : State} (h : t.rings.rings = s.rings.rings) (k : Nat) : t.ring k = s.ring k := by
  rw [State.ring, State.ring, h]

theorem State.ring_ringMod (k : Nat) (f : RingSt → RingSt) (j : Nat) :
    (s.ringMod k f).ring j = if j = k then f (s.ring k) else s.ring j := by
  simp [State.ring, State.ringMod, State.ringsMod, sget_smod]

theorem State.readGo_rings (j : Nat) : (s.readGo j).rings = s.rings := (s.readGo_within j).same .rings (by decide)

theorem State.ring_readOver (j k : Nat) : (s.readOver j).ring k = s.ring k := by
  refine State.ring_congr ?_ k
  unfold State.readOver
  extract_lets t
  have ht : t.rings.rings = s.rings.rings := rfl
  split
  · exact ht
  · split
    · rw [State.readGo_rings]
      exact ht
    · exact ht

theorem State.ring_fetchOver (k : Nat) : (s.fetchOver k).ring k = { s.ring k with fetching := false, again := false } := by
  rw [State.fetchOver, State.ring_readOver, State.ring_ringMod, if_pos rfl]

theorem State.ring_readAsk (j k : Nat) : (s.readAsk j).ring k = s.ring k := by
  refine State.ring_congr ?_ k
  unfold State.readAsk
  split
  · rw [State.readGo_rings]
  · rfl

/-- A fetch that is asked for is in flight or waits, whatever else goes on. -/
theorem State.ring_fetchDb {k : Nat} (h : (s.ring k).fetching = false) (nudge : Bool) :
    (s.fetchDb k nudge).ring k = { s.ring k with fetching := true } := by
  rw [State.fetchDb, h, if_neg (by simp), State.ring_readAsk, State.ring_ringMod, if_pos rfl]

/-- The pairs of a table that a test takes, one more where the pair at a key that did not pass comes to pass it. -/
theorem length_filter_sput {V : Type} (d : Nat → V) (p : V → Bool) (m : List (Nat × V)) (k : Nat) (v : V) (ho : p (sget d m k) = false)
    (hv : p v = true) : ((sput k v m).filter fun e => p e.2).length = (m.filter fun e => p e.2).length + 1 := by
  induction m with
  | nil => simp [sput, hv]
  | cons e m ih =>
    rw [sget] at ho
    rw [sput]
    split
    · rename_i hlt
      rw [if_neg (by omega)] at ho
      rw [List.filter_cons, List.filter_cons]
      split <;> simp [ih ho]
    · split
      · rename_i heq
        rw [if_pos heq] at ho
        simp [List.filter_cons, hv, ho]
      · simp [hv]

/-- A ring that comes to fetch is one more read asked for. -/
theorem State.readsOut_fetching {k : Nat} (h : (s.ring k).fetching = false) :
    (s.ringMod k fun r => { r with fetching := true }).readsAsked = s.readsAsked + 1 ∧
      (s.ringMod k fun r => { r with fetching := true }).rings.readQ = s.rings.readQ := by
  refine ⟨?_, rfl⟩
  have hne : ({ s.ring k with fetching := true } : RingSt) ≠ {} := fun e => by simpa using congrArg RingSt.fetching e
  have hput : (s.ringMod k fun r => { r with fetching := true }).rings.rings = sput k { s.ring k with fetching := true } s.rings.rings := by
    simp only [State.ringMod, State.ringsMod, smod, sset]
    exact if_neg hne
  have haug : (s.ringMod k fun r => { r with fetching := true }).aug = s.aug := rfl
  rw [State.readsAsked, State.readsAsked, hput, haug,
    length_filter_sput (fun _ => ({} : RingSt)) RingSt.fetching s.rings.rings k { s.ring k with fetching := true } h rfl]
  omega

/-- With fewer than 512 reads outstanding a record is fetched at once. -/
theorem State.fetchDb_issued {k : Nat} (hk : k < 1280) (h : (s.ring k).fetching = false) (hr : s.readsOut < 512) (nudge : Bool) :
    s.fetchDb k nudge = (s.ringMod k fun r => { r with fetching := true }).emit (.doorbellFetch (s.ring k).db) := by
  obtain ⟨hasked, hq⟩ := s.readsOut_fetching h
  have hout : (s.ringMod k fun r => { r with fetching := true }).readsOut ≤ 512 := by
    unfold State.readsOut at hr ⊢
    rw [hasked, hq]
    omega
  rw [State.fetchDb, h, if_neg (by simp), State.readAsk, if_pos hout, State.readGo, if_pos (by omega), State.ring_ringMod, if_pos rfl]

/-- With 512 outstanding it waits. -/
theorem State.fetchDb_waits {k : Nat} (h : (s.ring k).fetching = false) (hr : 512 ≤ s.readsOut) (nudge : Bool) :
    s.fetchDb k nudge = (s.ringMod k fun r => { r with fetching := true }).ringsMod fun r => { r with readQ := r.readQ ++ [k] } := by
  obtain ⟨hasked, hq⟩ := s.readsOut_fetching h
  have hout : ¬ (s.ringMod k fun r => { r with fetching := true }).readsOut ≤ 512 := by
    unfold State.readsOut at hr ⊢
    rw [hasked, hq]
    omega
  rw [State.fetchDb, h, if_neg (by simp), State.readAsk, if_neg hout]

theorem State.fetchDb_again {k : Nat} (h : (s.ring k).fetching = true) : s.fetchDb k true = s.ringMod k fun r => { r with again := true } := by
  rw [State.fetchDb, h, if_pos rfl, if_pos rfl]

theorem State.ring_dropWork (k : Nat) : (s.dropWork k).ring k = { s.ring k with
    open_ := [], sends := [], waiting := [], reserved := [], fetching := false, again := false } := by
  unfold State.dropWork
  extract_lets r n t u
  have ht : t.rings = s.rings := by
    refine List.foldlRecOn (motive := fun v : State => v.rings = s.rings) _ _ rfl fun v hv a _ => ?_
    exact Eq.trans ((v.ringDrop_within k 2).same .rings (by decide)) hv
  have hu : u.ring k = s.ring k := State.ring_congr (congrArg Rings.rings ht) k
  rw [State.ring_fetchOver, State.ring_ringMod, if_pos rfl, hu]

/-! ## The registers that a state change writes -/

theorem State.rd_fetchDb (k : Nat) (nudge : Bool) (x : Nat) : (s.fetchDb k nudge).rd x = s.rd x :=
  State.fetchDb_untouched (K := fun _ => True) s k nudge x trivial

theorem State.rd_fetchOver (k x : Nat) : (s.fetchOver k).rd x = s.rd x := State.fetchOver_untouched (K := fun _ => True) s k x trivial

theorem State.rd_ringMod (k : Nat) (f : RingSt → RingSt) (x : Nat) : (s.ringMod k f).rd x = s.rd x := rfl

theorem ringOwn_status (k : Nat) : ringOwn k (rgStatus k) := by
  unfold ringOwn rgStatus
  omega

theorem ringOwn_ctl (k : Nat) : ringOwn k (rgCtl k) := by
  unfold ringOwn rgCtl
  omega

theorem State.ringState_congr {s t : State} {k : Nat} (h : t.rd (rgStatus k) = s.rd (rgStatus k)) : t.ringState k = s.ringState k := by
  rw [State.ringState, State.ringState, State.rdf, State.rdf, h]

/-- What a faulted ring reads (R331). -/
theorem State.ringFault_spec {k cause : Nat} (hk : k < 1280) (hc : cause < 8) (hw : s.ringWorks k = true) :
    (s.ringFault k cause).ringState k = 3 ∧ (s.ringFault k cause).rdf (rgStatus k) 29 27 = cause ∧
      (s.ringFault k cause).rdb offRingEvt 1 = true := by
  let w := setFld 31 27 (3 * 8 + cause) (s.rd (rgStatus k) &&& 0x06000000 &&& (if k < 1024 then 0 else 0xFFFFFFFF))
  have hwd : w = setFld 31 27 (3 * 8 + cause) (s.rd (rgStatus k) &&& 0x06000000 &&& (if k < 1024 then 0 else 0xFFFFFFFF)) := rfl
  have he : s.ringFault k cause = ((s.dropWork k).wr (rgStatus k) w).ringEvent k 1 := by
    unfold State.ringFault
    dsimp only
    rw [hw, if_neg (by simp), s.dropWork_own hk _ (ringOwn_status k)]
  have hrd : (s.ringFault k cause).rd (rgStatus k) = w := by
    rw [he, State.ringEvent_own _ hk k 1 _ (ringOwn_status k), State.rd_wr_same]
  have hfld : fld 31 27 w = 24 + cause := by
    rw [hwd, fld_setFld 31 27 _ _ (by omega) (by omega)]
    omega
  refine ⟨?_, ?_, ?_⟩
  · rw [State.ringState, State.rdf, hrd]
    simp only [fld] at hfld ⊢
    omega
  · rw [State.rdf, hrd]
    simp only [fld] at hfld ⊢
    omega
  · rw [he]
    exact State.rdb_raiseEvt _ _ _ (by omega)

end Sys2Proof.Machine
end

section
/-! SUPPORT. Rings and vectors by their commands (R328 to R331, R353). -/

set_option Elab.async false

namespace Sys2Proof.Machine

variable (s : State)

/-! ## Nudges and fetches -/

theorem noRegion_nudge : noRegion 0x2F0000 := by simp [noRegion, offReplCmd]

theorem State.ring_answer (e : Bool) (d : Word) (k : Nat) : (s.answer e d).ring k = s.ring k := State.ring_congr (by simp) k

theorem State.nudge_running {k : Nat} {v : Word} (h : nudgeRing v = some k) (hr : s.ringState k = 1) : s.nudge v = s.fetchDb k true := by
  rw [State.nudge, h]
  exact if_pos hr

theorem ring_nudge (r : RingId) (v : Word) (hs : s.serves 0x2F0000) (h : nudgeRing v = some (ringKey r))
    (hr : s.ringState (ringKey r) = 1) (hf : (s.ring (ringKey r)).fetching = false) (ho : s.readsOut < 512) :
    s.completes (.nudge v) fun t => (t.ring (ringKey r)).fetching = true ∧
      t.outbox = .busResponse false 0 :: .doorbellFetch (s.ring (ringKey r)).db :: s.outbox := by
  refine State.completes_cfg (exec_nudge s) hs noRegion_nudge ?_
  rw [s.nudge_running h hr, State.ring_answer, s.ring_fetchDb hf, s.fetchDb_issued (ringKey_lt1280 r) hf ho]
  exact ⟨rfl, rfl⟩

theorem ring_nudge_waits (r : RingId) (v : Word) (hs : s.serves 0x2F0000) (h : nudgeRing v = some (ringKey r))
    (hr : s.ringState (ringKey r) = 1) (hf : (s.ring (ringKey r)).fetching = false) (ho : 512 ≤ s.readsOut) :
    s.completes (.nudge v) fun t => (t.ring (ringKey r)).fetching = true ∧
      t.rings.readQ = s.rings.readQ ++ [ringKey r] ∧ t.outbox = .busResponse false 0 :: s.outbox := by
  refine State.completes_cfg (exec_nudge s) hs noRegion_nudge ?_
  rw [s.nudge_running h hr, State.ring_answer, s.ring_fetchDb hf, s.fetchDb_waits hf ho]
  exact ⟨rfl, rfl, rfl⟩

theorem ring_nudge_again (r : RingId) (v : Word) (hs : s.serves 0x2F0000) (h : nudgeRing v = some (ringKey r))
    (hr : s.ringState (ringKey r) = 1) (hf : (s.ring (ringKey r)).fetching = true) :
    s.completes (.nudge v) fun t => t.ring (ringKey r) = { s.ring (ringKey r) with again := true } ∧
      t.outbox = .busResponse false 0 :: s.outbox := by
  refine State.completes_cfg (exec_nudge s) hs noRegion_nudge ?_
  rw [s.nudge_running h hr, State.ring_answer, s.fetchDb_again hf, State.ring_ringMod, if_pos rfl]
  exact ⟨rfl, rfl⟩

/-- A nudge that is ignored is counted, with its event. -/
theorem State.nudgeBad_spec (v : Word) : (s.nudgeBad v).rings = s.rings ∧ (s.nudgeBad v).rdb offRingEvt 4 = true ∧
    (s.nudgeBad v).cnt (offRingCnt 8) = (s.cnt (offRingCnt 8) + 1) % cntMod := by
  have hcnt : (s.ringCnt 8).cnt (offRingCnt 8) = (s.cnt (offRingCnt 8) + 1) % cntMod :=
    s.cnt_inc 6 (by simp [offRingCnt, offRingEvt]) (by simp [offRingCnt, offRingEvt])
  unfold State.nudgeBad
  dsimp only
  split
  · refine ⟨by simp [State.ringCnt], State.rdb_raiseEvt _ _ _ (by omega), (State.cnt_congr ?_ ?_).trans hcnt⟩
    · exact State.rd_raiseEvt_ne _ _ (by simp [offRingCnt, offRingEvt])
    · exact State.rd_raiseEvt_ne _ _ (by simp [offRingCnt, offRingEvt])
  · unfold State.ringEvent
    refine ⟨by simp [State.ringCnt], State.rdb_raiseEvt _ _ _ (by omega), (State.cnt_congr ?_ ?_).trans hcnt⟩
    · exact (State.rd_raiseEvt_ne _ _ (by simp [offRingCnt, offRingEvt])).trans
        (State.rd_wr_ne _ _ (by simp [offRingCnt, offRingLast]))
    · exact (State.rd_raiseEvt_ne _ _ (by simp [offRingCnt, offRingEvt])).trans
        (State.rd_wr_ne _ _ (by simp [offRingCnt, offRingLast]))

theorem ring_nudge_ignored (r : RingId) (v : Word) (hs : s.serves 0x2F0000)
    (h : nudgeRing v = none ∨ nudgeRing v = some (ringKey r)) (hr : s.ringState (ringKey r) ≠ 1) :
    s.completes (.nudge v) fun t => t.rings = s.rings ∧ t.rdb offRingEvt 4 = true ∧
      t.cnt (offRingCnt 8) = (s.cnt (offRingCnt 8) + 1) % cntMod := by
  have hbad : s.nudge v = s.nudgeBad v := by
    obtain h | h := h
    · rw [State.nudge, h]
    · rw [State.nudge, h]
      exact if_neg hr
  obtain ⟨hrings, hevt, hcnt⟩ := s.nudgeBad_spec v
  refine State.completes_cfg (exec_nudge s) hs noRegion_nudge ?_
  rw [hbad, State.answer_rdb, State.answer_cnt]
  exact ⟨hrings, hevt, hcnt⟩

theorem ring_poll_other (r : RingId) (h : s.pollNext ≠ some (ringKey r)) : s.completes (.doorbellPoll r) fun t => t = s :=
  State.completes_of (by rw [exec_doorbellPoll, execDoorbellPoll]; exact congrArg _ (if_neg h)) rfl

theorem ring_poll (r : RingId) (h : s.pollNext = some (ringKey r)) (hf : (s.ring (ringKey r)).fetching = false)
    (ho : s.readsOut < 512) :
    s.completes (.doorbellPoll r) fun t => (t.ring (ringKey r)).fetching = true ∧
      t.rings.pollTurn = (ringKey r + 1) % 1280 ∧ t.outbox = .doorbellFetch (s.ring (ringKey r)).db :: s.outbox := by
  let u := s.ringsMod fun x => { x with pollTurn := (ringKey r + 1) % 1280 }
  have hu : u = s.ringsMod fun x => { x with pollTurn := (ringKey r + 1) % 1280 } := rfl
  have hx : exec (.doorbellPoll r) s = .next (u.fetchDb (ringKey r) false) := by
    rw [exec_doorbellPoll, execDoorbellPoll]
    exact congrArg _ (if_pos h)
  rw [u.fetchDb_issued (ringKey_lt1280 r) hf ho] at hx
  refine State.completes_of hx ⟨?_, rfl, rfl⟩
  have hring : (u.ringMod (ringKey r) fun x => { x with fetching := true }).ring (ringKey r) =
      { u.ring (ringKey r) with fetching := true } := by rw [State.ring_ringMod, if_pos rfl]
  exact congrArg RingSt.fetching hring

theorem ring_refetch (r : RingId) (ht : s.timerOn (.torn (ringKey r)) = true) (hw : s.ringWorks (ringKey r) = true)
    (hf : (s.ring (ringKey r)).fetching = false) (ho : s.readsOut < 512) :
    s.completes (.tornRecordRefetch r) fun t => t.timerOn (.torn (ringKey r)) = false ∧
      t.outbox = .doorbellFetch (s.ring (ringKey r)).db :: s.outbox := by
  have hx : exec (.tornRecordRefetch r) s = .next ((s.stopTimer (.torn (ringKey r))).fetchDb (ringKey r) false) := by
    rw [exec_tornRecordRefetch, execTornRecordRefetch, ht, hw, if_pos rfl, if_pos rfl]
  have hissue := (s.stopTimer (.torn (ringKey r))).fetchDb_issued (ringKey_lt1280 r) hf ho false
  rw [hissue] at hx
  exact State.completes_of hx ⟨s.timerOn_stopTimer _, rfl⟩

/-! ## Records -/

/-- The count that a ring's last accepted record gave. -/
def ringSeen (k x : Nat) : Prop := x = rgSeen k

theorem ringSeen.own {k x : Nat} (h : ringSeen k x) : ringOwn k x := by
  unfold ringSeen at h
  unfold ringOwn
  simp only [h, rgSeen]
  omega

theorem State.wr_seen {k x : Nat} (w : Word) (h : ¬ ringSeen k x) : Untouched (ringSeen k) s (s.wr x w) :=
  .wr h s w

theorem State.rxEmpty_seen {k : Nat} (hk : k < 1280) : Untouched (ringSeen k) s (s.rxEmpty k) := by
  unfold State.rxEmpty
  exact (((s.ringDrop_own hk 0).mono fun _ => ringSeen.own).trans ((State.ringEvent_own _ hk k 0).mono fun _ => ringSeen.own)).trans
    (State.wr_seen _ _ (by simp [ringSeen, rgStatus, rgSeen]))

theorem State.rxReserve_seen {s t : State} {k : Nat} {f : HostFrame} (h : s.rxReserve k f = some t) : Untouched (ringSeen k) s t := by
  unfold State.rxReserve at h
  dsimp only at h
  split at h
  · obtain rfl := Option.some.inj h
    exact (State.ringMod_untouched _ _ _).trans (State.wr_seen _ _ (by simp [ringSeen, rgNext, rgSeen]))
  · exact absurd h (by simp)

theorem State.rxFallShort_seen {k : Nat} (hk : k < 1280) (f : HostFrame) (behind : List HostFrame) :
    Untouched (ringSeen k) s (s.rxFallShort k f behind).2 := by
  unfold State.rxFallShort
  dsimp only
  split
  · exact s.rxEmpty_seen hk
  · exact ((State.ringMod_untouched _ _ _).trans (State.startTimer_untouched _ _ _)).trans (State.fetchDb_untouched _ _ _)

theorem State.rxServe_seen {k : Nat} (hk : k < 1280) (fs : List HostFrame) : Untouched (ringSeen k) s (s.rxServe k fs) := by
  induction fs generalizing s with
  | nil => exact State.ringMod_untouched _ _ _
  | cons f fs ih =>
    rw [State.rxServe]
    split
    · rename_i t h
      exact (State.rxReserve_seen h).trans (ih t)
    · have hshort := s.rxFallShort_seen hk f fs
      split
      · rename_i t h
        rw [h] at hshort
        exact hshort
      · rename_i t h
        rw [h] at hshort
        exact hshort.trans (ih t)

theorem State.rxRetry_seen {k : Nat} (hk : k < 1280) : Untouched (ringSeen k) s (s.rxRetry k) := by
  unfold State.rxRetry
  split
  · exact .refl s
  · split
    · rename_i t h
      exact ((State.rxReserve_seen h).trans (State.stopTimer_untouched _ _)).trans (State.rxServe_seen _ hk _)
    · exact .refl s

/-- An accepted record gives its count. -/
theorem State.dbAccept_seen {k : Nat} (hk : k < 1280) (count : Word) (arm : Bool) :
    (s.dbAccept k count.toNat arm).rd (rgSeen k) = count := by
  have hstart : ∀ u : State, Untouched (ringSeen k) (s.wr (rgSeen k) (w32 count.toNat)) u → u.rd (rgSeen k) = count := fun u hu => by
    rw [hu _ rfl, State.rd_wr_same]
    simp [w32]
  refine hstart _ ?_
  have hvec : 1024 ≤ k → rgSeen k ≠ offVecStatus (k - 1024) ∧ rgSeen k ≠ offVecCtl (k - 1024) := fun h => by
    have hb := ringBase_vec (k - 1024)
    rw [Nat.add_sub_cancel' h] at hb
    simp only [rgSeen, hb, offVecStatus, offVecCtl]
    omega
  unfold State.dbAccept
  extract_lets rise t
  split
  · rename_i h
    obtain ⟨h1, h2⟩ := hvec h
    split
    · exact (t.wr_seen _ fun e => h1 e.symm).trans (State.wr_seen _ _ fun e => h2 e.symm)
    · exact .refl t
  · split
    · refine .trans ?_ (State.rxRetry_seen _ hk)
      split
      · exact t.wr_seen _ (by simp [ringSeen, rgStatus, rgSeen])
      · exact .refl t
    · exact .refl t

theorem State.timerOn_fetchDb (k : Nat) (nudge : Bool) (x : Timer) : (s.fetchDb k nudge).timerOn x = s.timerOn x :=
  State.timerOn_congr ((s.fetchDb_within k nudge).same .timers (by decide)) x

theorem State.ringWorks_congr {s t : State} {k : Nat} (h : t.rd (rgStatus k) = s.rd (rgStatus k)) : t.ringWorks k = s.ringWorks k := by
  rw [State.ringWorks, State.ringWorks, State.ringState_congr h]

/-- What a ring's record arriving does: it is judged, and where a nudge has come meanwhile it is fetched once more. -/
theorem exec_record {k : Nat} {r : RingId} (hkr : ringKey r = k) {words : List Word} (hf : s.fetchOut k = true) (hw : s.ringWorks k = true) :
    ∃ again : Bool, exec (.doorbellRecordArrive r words) s = .next (if again then ((s.fetchOver k).dbJudge k words).fetchDb k false
      else (s.fetchOver k).dbJudge k words) := by
  subst hkr
  have hover : (s.fetchOver (ringKey r)).ringWorks (ringKey r) = true := by rw [State.ringWorks_congr (s.rd_fetchOver _ _), hw]
  rw [exec_doorbellRecordArrive, execDoorbellRecordArrive]
  dsimp only
  rw [hf, hover, if_neg (by simp), if_pos rfl]
  exact ⟨_, rfl⟩

theorem ring_record (r : RingId) (words : List Word) (hf : s.fetchOut (ringKey r) = true) (hw : s.ringWorks (ringKey r) = true)
    (hc : words.getD 3 0 = ~~~ words.getD 0 0) (hn : cntDiff (words.getD 0 0).toNat (s.seen (ringKey r)) < 2 ^ 31)
    (hfit : (if ringKey r < 1024 then cntDiff (words.getD 0 0).toNat (s.cons (ringKey r))
      else cntDiff (s.cons (ringKey r)) (words.getD 0 0).toNat) ≤ s.ringSize (ringKey r)) :
    s.completes (.doorbellRecordArrive r words) fun t => t.seen (ringKey r) = (words.getD 0 0).toNat := by
  obtain ⟨again, hx⟩ := exec_record s rfl (words := words) hf hw
  have hlt := ringKey_lt1280 r
  generalize ringKey r = k at hn hfit hx hlt ⊢
  have hseen : (s.fetchOver k).seen k = s.seen k := congrArg BitVec.toNat (s.rd_fetchOver _ _)
  have hcons : (s.fetchOver k).cons k = s.cons k := congrArg BitVec.toNat (s.rd_fetchOver _ _)
  have hsize : (s.fetchOver k).ringSize k = s.ringSize k := by simp only [State.ringSize, s.ring_fetchOver]
  have hjudge : (s.fetchOver k).dbJudge k words = (s.fetchOver k).dbAccept k (words.getD 0 0).toNat (bit 0 (words.getD 1 0)) := by
    unfold State.dbJudge
    dsimp only
    rw [hseen, hcons, hsize, hc, if_neg (by simp), if_neg (by omega), if_neg (by omega)]
  have hrd : ((s.fetchOver k).dbJudge k words).rd (rgSeen k) = words.getD 0 0 := by
    rw [hjudge, State.dbAccept_seen _ hlt]
  refine State.completes_of hx (congrArg BitVec.toNat ?_)
  split
  · rw [State.rd_fetchDb, hrd]
  · exact hrd

/-- A torn record is fetched again. -/
theorem State.dbJudge_torn {k : Nat} {w : List Word} (h : w.getD 3 0 ≠ ~~~ w.getD 0 0) : s.dbJudge k w =
    ((s.ringCnt 9).ringEvent k 5).startTimer (.torn k) (clampTo 250 65535 (s.rdf offRingCtl 15 0)) := by
  unfold State.dbJudge
  exact if_pos (bne_iff_ne.2 h)

theorem State.rd_startTimer (t : Timer) (n x : Nat) : (s.startTimer t n).rd x = s.rd x := rfl

theorem State.timerOn_startTimer (t : Timer) (n : Nat) : (s.startTimer t n).timerOn t = true := by
  simp [State.timerOn, State.startTimer]

/-- What a torn record leaves. -/
theorem State.dbJudge_torn_spec {k : Nat} (hk : k < 1280) {w : List Word} (h : w.getD 3 0 ≠ ~~~ w.getD 0 0) :
    (s.dbJudge k w).rd (rgSeen k) = s.rd (rgSeen k) ∧ (s.dbJudge k w).timerOn (.torn k) = true ∧
      (s.dbJudge k w).rdb offRingEvt 5 = true := by
  have hown : ringOwn k (rgSeen k) := ringSeen.own rfl
  rw [s.dbJudge_torn h]
  refine ⟨?_, State.timerOn_startTimer _ _ _, ?_⟩
  · rw [State.rd_startTimer, State.ringEvent_own _ hk _ _ _ hown, s.ringCnt_own hk _ _ hown]
  · rw [State.rdb, State.rd_startTimer]
    exact State.rdb_raiseEvt _ _ _ (by omega)

theorem ring_record_torn (r : RingId) (words : List Word) (hf : s.fetchOut (ringKey r) = true) (hw : s.ringWorks (ringKey r) = true)
    (hc : words.getD 3 0 ≠ ~~~ words.getD 0 0) :
    s.completes (.doorbellRecordArrive r words) fun t => t.seen (ringKey r) = s.seen (ringKey r) ∧
      t.timerOn (.torn (ringKey r)) = true ∧ t.rdb offRingEvt 5 = true := by
  obtain ⟨again, hx⟩ := exec_record s rfl (words := words) hf hw
  obtain ⟨hseen, hon, hevt⟩ := (s.fetchOver (ringKey r)).dbJudge_torn_spec (ringKey_lt1280 r) hc
  rw [s.rd_fetchOver] at hseen
  refine State.completes_of hx ?_
  split
  · rw [State.timerOn_fetchDb, State.rdb, State.rd_fetchDb]
    exact ⟨congrArg BitVec.toNat ((State.rd_fetchDb _ _ _ _).trans hseen), hon, hevt⟩
  · exact ⟨congrArg BitVec.toNat hseen, hon, hevt⟩

end Sys2Proof.Machine
end

section
/-! SUPPORT. Rings by their control registers, and vectors by their messages (R331, R353). -/

set_option Elab.async false

namespace Sys2Proof.Machine

variable (s : State)

/-! ## Faults -/

theorem ring_timeout (r : RingId) (hw : s.ringWorks (ringKey r) = true) (hr : s.ringReads (ringKey r) = true) :
    s.completes (.hostReadTimeout r) fun t => t.ringState (ringKey r) = 3 ∧ t.rdf (rgStatus (ringKey r)) 29 27 = 3 ∧
      t.rdb offRingEvt 1 = true :=
  State.completes_of (by rw [exec_hostReadTimeout, execHostReadTimeout, if_pos hr]) (s.ringFault_spec (ringKey_lt1280 r) (by omega) hw)

theorem ring_error (r : RingId) (write : Bool) (hw : s.ringWorks (ringKey r) = true)
    (hr : write = true ∨ s.ringReads (ringKey r) = true) :
    s.completes (.hostErrorResponse r write) fun t => t.ringState (ringKey r) = 3 ∧
      t.rdf (rgStatus (ringKey r)) 29 27 = (if write then 2 else 1) ∧ t.rdb offRingEvt 1 = true :=
  State.completes_of (by rw [exec_hostErrorResponse, execHostErrorResponse, if_pos (by simpa using hr)])
    (s.ringFault_spec (ringKey_lt1280 r) (by split <;> omega) hw)

/-! ## CTL -/

/-- A ring's CTL holds a write's fields; a vector's with ARM or ARMED is armed. -/
def State.ctlOpened (k : Nat) (v : Word) : State :=
  let u := if k < 1024 then s.wr (rgCtl k) (v &&& (if k < 512 then 0xDFFFF000 else 0xD0FFF000))
    else s.wr (rgCtl k) ((v &&& 0xD000F3FF) ||| (s.rd (rgCtl k) &&& 0x08000000))
  if 1024 ≤ k && (bit 27 v || bit 28 v) then u.setArmed (k - 1024) true else u

theorem State.setArmed_rings (v : Nat) (on : Bool) : (s.setArmed v on).rings = s.rings := by simp [State.setArmed]

theorem State.ctlOpened_rings (k : Nat) (v : Word) : (s.ctlOpened k v).rings = s.rings := by
  unfold State.ctlOpened
  extract_lets u
  have hu : u.rings = s.rings := by
    simp only [u]
    split <;> simp
  split
  · rw [State.setArmed_rings, hu]
  · exact hu

theorem State.ctlOpened_rd {k : Nat} (v : Word) {x : Nat} (hc : x ≠ rgCtl k) (hst : x ≠ rgStatus k) :
    (s.ctlOpened k v).rd x = s.rd x := by
  unfold State.ctlOpened
  extract_lets u
  have hu : u.rd x = s.rd x := by
    simp only [u]
    split <;> exact State.rd_wr_ne _ _ hc
  split
  · rename_i h
    have hk : 1024 ≤ k := by simp at h; exact h.1
    have hs : offVecStatus (k - 1024) = rgStatus k := by rw [← rgStatus_vec, Nat.add_sub_cancel' hk]
    have hc' : offVecCtl (k - 1024) = rgCtl k := by rw [← rgCtl_vec, Nat.add_sub_cancel' hk]
    rw [State.setArmed, State.rd_wrb_ne _ _ _ (by rwa [hc']), State.rd_wrb_ne _ _ _ (by rwa [hs]), hu]
  · exact hu

theorem State.ctlOpened_state (k : Nat) (v : Word) : (s.ctlOpened k v).ringState k = s.ringState k := by
  unfold State.ctlOpened
  extract_lets u
  have hu : u.ringState k = s.ringState k := by
    refine State.ringState_congr ?_
    simp only [u]
    split <;> exact State.rd_wr_ne _ _ (by simp [rgStatus, rgCtl])
  split
  · rename_i h
    have hk : 1024 ≤ k := by simp at h; exact h.1
    have harm := u.setArmed_state (k - 1024) true
    rw [Nat.add_sub_cancel' hk] at harm
    rw [harm, hu]
  · exact hu

theorem State.ctlOpened_ring (k : Nat) (v : Word) : (s.ctlOpened k v).ring k = s.ring k :=
  State.ring_congr (congrArg Rings.rings (s.ctlOpened_rings k v)) k

/-- A write of CTL: its fields, then RESET, a start or a drain. -/
theorem State.ringCtlWrite_eq (k : Nat) (v : Word) : s.ringCtlWrite k v =
    if bit 29 v then (s.ctlOpened k v).ringReset k else if s.ringState k = 0 && bit 31 v then (s.ctlOpened k v).ringStart k
    else if s.ringState k = 1 && !bit 31 v then (s.ctlOpened k v).ringDrain k else s.ctlOpened k v := by
  have h := s.ctlOpened_state k v
  unfold State.ctlOpened at h ⊢
  unfold State.ringCtlWrite
  dsimp only at h ⊢
  rw [h]

/-- What STATUS keeps as a ring starts or resets: no bit of STATE. -/
def State.statusKept (k : Nat) : Word := if k < 1024 then 0 else s.rd (rgStatus k) &&& 0x06000000

theorem State.statusKept_state (k : Nat) : fld 31 30 (s.statusKept k) = 0 := by
  unfold State.statusKept
  split
  · rfl
  · have h : (s.rd (rgStatus k) &&& (0x06000000 : Word)).toNat ≤ 0x06000000 := by
      rw [BitVec.toNat_and]
      exact Nat.and_le_right
    simp only [fld]
    omega

/-- A ring's counts and status, four words in a row. -/
theorem State.rd_counts (k : Nat) (w : Word) : (s.wrs (rgSeen k) [0, 0, 0, w]).rd (rgSeen k) = 0 ∧
    (s.wrs (rgSeen k) [0, 0, 0, w]).rd (rgCons k) = 0 ∧ (s.wrs (rgSeen k) [0, 0, 0, w]).rd (rgNext k) = 0 ∧
    (s.wrs (rgSeen k) [0, 0, 0, w]).rd (rgStatus k) = w := by
  have h : ∀ i (hi : i < [0, 0, 0, w].length), (s.wrs (rgSeen k) [0, 0, 0, w]).rd (rgSeen k + 4 * i) = [0, 0, 0, w][i] :=
    fun i hi => s.rd_wrs _ _ hi
  have hcons : rgCons k = rgSeen k + 4 * 1 := by simp only [rgCons, rgSeen]
  have hnext : rgNext k = rgSeen k + 4 * 2 := by simp only [rgNext, rgSeen]
  have hst : rgStatus k = rgSeen k + 4 * 3 := by simp only [rgStatus, rgSeen]
  refine ⟨h 0 (by simp), ?_, ?_, ?_⟩
  · rw [hcons, h 1 (by simp)]
    rfl
  · rw [hnext, h 2 (by simp)]
    rfl
  · rw [hst, h 3 (by simp)]
    rfl

theorem State.rd_counts_ne (k : Nat) (w : Word) {x : Nat} (h : x < rgSeen k) : (s.wrs (rgSeen k) [0, 0, 0, w]).rd x = s.rd x :=
  State.rd_wrs_ne _ _ _ (.inl h)

/-- The registers of a ring that is reset. -/
theorem State.ringReset_eq (k : Nat) : s.ringReset k = (((s.dropWork k).wrb (rgCtl k) 31 false).wrs (rgSeen k)
    [0, 0, 0, ((s.dropWork k).wrb (rgCtl k) 31 false).statusKept k]).ringMod k fun r => { lastMsg := r.lastMsg } := rfl

/-- A reset ring: DISABLED, its counts 0, nothing of it in progress. -/
theorem State.ringReset_spec (k : Nat) : (s.ringReset k).ringState k = 0 ∧ (s.ringReset k).seen k = 0 ∧
    (s.ringReset k).cons k = 0 ∧ (s.ringReset k).nextOf k = 0 ∧ (s.ringReset k).rdb (rgCtl k) 31 = false ∧
    ((s.ringReset k).ring k).sends = [] ∧ ((s.ringReset k).ring k).reserved = [] := by
  let u := (s.dropWork k).wrb (rgCtl k) 31 false
  have hu : u = (s.dropWork k).wrb (rgCtl k) 31 false := rfl
  have he : s.ringReset k = (u.wrs (rgSeen k) [0, 0, 0, u.statusKept k]).ringMod k fun r => { lastMsg := r.lastMsg } := s.ringReset_eq k
  obtain ⟨hseen, hcons, hnext, hst⟩ := u.rd_counts k (u.statusKept k)
  have hring : (s.ringReset k).ring k = { lastMsg := ((u.wrs (rgSeen k) [0, 0, 0, u.statusKept k]).ring k).lastMsg } := by
    rw [he, State.ring_ringMod, if_pos rfl]
  have hrd : ∀ x, (s.ringReset k).rd x = (u.wrs (rgSeen k) [0, 0, 0, u.statusKept k]).rd x := fun x => by rw [he, State.rd_ringMod]
  refine ⟨?_, ?_, ?_, ?_, ?_, by rw [hring], by rw [hring]⟩
  · rw [State.ringState, State.rdf, hrd, hst, State.statusKept_state]
  · rw [State.seen, hrd, hseen]
    rfl
  · rw [State.cons, hrd, hcons]
    rfl
  · rw [State.nextOf, hrd, hnext]
    rfl
  · rw [State.rdb, hrd, State.rd_counts_ne _ _ _ (by simp [rgCtl, rgSeen]), hu, State.wrb, State.rd_wr_same]
    simp [bit_setBit]

/-- The registers of a ring that starts. -/
def State.startedRegs (k : Nat) : State := s.wrs (rgSeen k) [0, 0, 0, setFld 31 30 1 (s.statusKept k)]

/-- A ring with what it reads of its registers as it starts, its fetch given up. -/
def State.readIn (k : Nat) : State := (s.fetchOver k).ringMod k fun r =>
  { base := s.rd2 (ringBase k), db := s.rd2 (ringBase k + 8), ctl := s.rd (rgCtl k), param := s.rd (rgParam k), lastMsg := r.lastMsg }

theorem State.ringStart_eq (k : Nat) : s.ringStart k = ((s.startedRegs k).readIn k).fetchDb k false := by
  unfold State.ringStart State.startedRegs State.statusKept State.readIn
  dsimp only

theorem State.ring_readIn (k : Nat) : ((s.readIn k).ring k).base = s.rd2 (ringBase k) ∧ ((s.readIn k).ring k).fetching = false := by
  rw [State.readIn, State.ring_ringMod, if_pos rfl]
  exact ⟨rfl, rfl⟩

theorem State.rd_ringStart (k x : Nat) : (s.ringStart k).rd x = (s.startedRegs k).rd x := by
  rw [s.ringStart_eq, State.rd_fetchDb, State.readIn, State.rd_ringMod, State.rd_fetchOver]

/-- A ring that starts: RUNNING, its counts 0, its record asked for. -/
theorem State.ringStart_spec (k : Nat) : (s.ringStart k).ringState k = 1 ∧ (s.ringStart k).seen k = 0 ∧
    (s.ringStart k).cons k = 0 ∧ (s.ringStart k).nextOf k = 0 ∧ ((s.ringStart k).ring k).fetching = true ∧
    ((s.ringStart k).ring k).base = s.rd2 (ringBase k) := by
  obtain ⟨hseen, hcons, hnext, hst⟩ := s.rd_counts k (setFld 31 30 1 (s.statusKept k))
  rw [← State.startedRegs.eq_def] at hseen hcons hnext hst
  obtain ⟨hbase, hidle⟩ := (s.startedRegs k).ring_readIn k
  have hring : (s.ringStart k).ring k = { ((s.startedRegs k).readIn k).ring k with fetching := true } := by
    rw [s.ringStart_eq, State.ring_fetchDb _ hidle]
  refine ⟨?_, ?_, ?_, ?_, by rw [hring], ?_⟩
  · rewrite [State.ringState, State.rdf, s.rd_ringStart, hst, fld_setFld 31 30 _ _ (by omega) (by omega)]
    rfl
  · rw [State.seen, s.rd_ringStart, hseen]
    rfl
  · rw [State.cons, s.rd_ringStart, hcons]
    rfl
  · rw [State.nextOf, s.rd_ringStart, hnext]
    rfl
  · refine (congrArg RingSt.base hring).trans (hbase.trans ?_)
    have hkeep : ∀ x, x < rgSeen k → (s.startedRegs k).rd x = s.rd x := fun x hx => s.rd_counts_ne k _ hx
    rw [State.rd2, State.rd2, hkeep _ (by simp only [rgSeen]; omega), hkeep _ (by simp only [rgSeen]; omega)]

/-- A ring that drains holds no frame for later. -/
theorem State.ringDrain_spec (k : Nat) : (s.ringDrain k).ringState k = 2 ∧ ((s.ringDrain k).ring k).waiting = [] := by
  unfold State.ringDrain
  extract_lets t u
  refine ⟨?_, ?_⟩
  · rewrite [State.ringState, State.rdf, State.rd_wrf, if_pos rfl, fld_setFld 31 30 _ _ (by omega) (by omega)]
    rfl
  · have hring : (u.ringMod k fun r => { r with waiting := [] }).ring k = { u.ring k with waiting := [] } := by
      rw [State.ring_ringMod, if_pos rfl]
    rw [State.ring_congr (s := u.ringMod k fun r => { r with waiting := [] }) (by simp), hring]

/-- A command that writes a ring's CTL. -/
theorem State.completes_ctl {s : State} {c : Instr} {k : Nat} {v : Word} {P : State → Prop} (hk : k < 1280)
    (hx : exec c s = .next (s.cfg (rgCtl k) fun s => s.ringCtlWrite k v)) (hs : s.serves (rgCtl k))
    (h : P ((s.ringCtlWrite k v).answer false 0)) : s.completes c P := State.completes_cfg hx hs (noRegion_rgCtl hk) h

theorem State.ringState_answer (e : Bool) (d : Word) (k : Nat) : (s.answer e d).ringState k = s.ringState k :=
  State.ringState_congr (State.answer_rd _ _ _ _)

theorem State.seen_answer (e : Bool) (d : Word) (k : Nat) : (s.answer e d).seen k = s.seen k := congrArg BitVec.toNat (State.answer_rd _ _ _ _)

theorem State.cons_answer (e : Bool) (d : Word) (k : Nat) : (s.answer e d).cons k = s.cons k := congrArg BitVec.toNat (State.answer_rd _ _ _ _)

theorem State.nextOf_answer (e : Bool) (d : Word) (k : Nat) : (s.answer e d).nextOf k = s.nextOf k :=
  congrArg BitVec.toNat (State.answer_rd _ _ _ _)

theorem ring_enable (r : RingId) (v : Word) (hs : s.serves (rgCtl (ringKey r))) (h29 : bit 29 v = false)
    (h0 : s.ringState (ringKey r) = 0) :
    s.completes (.ringEnable r v) fun t => t.ringState (ringKey r) = 1 ∧ t.seen (ringKey r) = 0 ∧
      t.cons (ringKey r) = 0 ∧ t.nextOf (ringKey r) = 0 ∧ (t.ring (ringKey r)).fetching = true ∧
      (t.ring (ringKey r)).base = s.rd2 (ringBase (ringKey r)) := by
  have h31 : bit 31 (setBit 31 true v) = true := by simp [bit_setBit]
  have h29' : bit 29 (setBit 31 true v) = false := by simp [bit_setBit, h29]
  obtain ⟨hst, hseen, hcons, hnext, hf, hbase⟩ := (s.ctlOpened (ringKey r) (setBit 31 true v)).ringStart_spec (ringKey r)
  refine State.completes_ctl (ringKey_lt1280 r) (exec_ringEnable s) hs ?_
  rw [s.ringCtlWrite_eq, h29', h31, h0, if_neg (by simp), if_pos (by simp), State.ringState_answer, State.seen_answer, State.cons_answer,
    State.nextOf_answer, State.ring_answer]
  refine ⟨hst, hseen, hcons, hnext, hf, hbase.trans ?_⟩
  rw [State.rd2, State.rd2, s.ctlOpened_rd, s.ctlOpened_rd] <;>
  · simp only [rgCtl, rgStatus]
    omega

theorem ring_disable (r : RingId) (v : Word) (hs : s.serves (rgCtl (ringKey r))) (h29 : bit 29 v = false)
    (h1 : s.ringState (ringKey r) = 1) :
    s.completes (.ringDisable r v) fun t => t.ringState (ringKey r) = 2 ∧ (t.ring (ringKey r)).waiting = [] := by
  have h31 : bit 31 (setBit 31 false v) = false := by simp [bit_setBit]
  have h29' : bit 29 (setBit 31 false v) = false := by simp [bit_setBit, h29]
  refine State.completes_ctl (ringKey_lt1280 r) (exec_ringDisable s) hs ?_
  rw [s.ringCtlWrite_eq, h29', h31, h1, if_neg (by simp), if_neg (by simp), if_pos (by simp), State.ringState_answer, State.ring_answer]
  exact State.ringDrain_spec _ _

theorem ring_reset (r : RingId) (v : Word) (hs : s.serves (rgCtl (ringKey r))) :
    s.completes (.ringReset r v) fun t => t.ringState (ringKey r) = 0 ∧ t.seen (ringKey r) = 0 ∧
      t.cons (ringKey r) = 0 ∧ t.nextOf (ringKey r) = 0 ∧ t.rdb (rgCtl (ringKey r)) 31 = false ∧
      (t.ring (ringKey r)).sends = [] ∧ (t.ring (ringKey r)).reserved = [] := by
  have h29 : bit 29 (setBit 29 true v) = true := by simp [bit_setBit]
  refine State.completes_ctl (ringKey_lt1280 r) (exec_ringReset s) hs ?_
  rw [s.ringCtlWrite_eq, h29, if_pos rfl, State.ringState_answer, State.seen_answer, State.cons_answer, State.nextOf_answer,
    State.ring_answer, State.answer_rdb]
  exact State.ringReset_spec _ _

theorem ring_drained (r : RingId) (h2 : s.ringState (ringKey r) = 2) (hr : (s.ring (ringKey r)).reserved = [])
    (hs : (s.ring (ringKey r)).sends = []) :
    s.completes (.ringDrained r) fun t => t.ringState (ringKey r) = 0 ∧ (t.ring (ringKey r)).open_ = [] := by
  let u := s.ringMod (ringKey r) fun x => { x with open_ := [] }
  have hu : u = s.ringMod (ringKey r) fun x => { x with open_ := [] } := rfl
  have hx : exec (.ringDrained r) s = .next (u.wrf (rgStatus (ringKey r)) 31 30 0) := by
    rw [exec_ringDrained, execRingDrained, h2, hr, hs]
    rfl
  refine State.completes_of hx ⟨?_, ?_⟩
  · rewrite [State.ringState, State.rdf, State.rd_wrf, if_pos rfl, fld_setFld 31 30 _ _ (by omega) (by omega)]
    rfl
  · rw [State.ring_congr (s := u) (by simp), hu, State.ring_ringMod, if_pos rfl]

/-! ## Vectors -/

/-- ARMED is set. -/
def State.armed (v : Nat) : Prop := s.rdb (offVecStatus v) 26 = true ∧ s.rdb (offVecCtl v) 27 = true

theorem State.setArmed_armed (v : Nat) : (s.setArmed v true).armed v := by
  refine ⟨?_, ?_⟩
  · rw [State.rdb, State.setArmed, State.rd_wrb_ne _ _ _ (by simp only [offVecStatus, offVecCtl]; omega), State.wrb, State.rd_wr_same]
    simp [bit_setBit]
  · rw [State.rdb, State.setArmed, State.wrb, State.rd_wr_same]
    simp [bit_setBit]

theorem State.ctlOpened_armed (v : Nat) (w : Word) (h : bit 27 w = true) : (s.ctlOpened (1024 + v) w).armed v := by
  unfold State.ctlOpened
  extract_lets u
  rw [if_pos (by simp [h]), Nat.add_sub_cancel_left]
  exact u.setArmed_armed v

theorem State.armed_of {s t : State} {v : Nat} (h : s.armed v) (hs : bit 26 (t.rd (offVecStatus v)) = bit 26 (s.rd (offVecStatus v)))
    (hc : bit 27 (t.rd (offVecCtl v)) = bit 27 (s.rd (offVecCtl v))) : t.armed v := ⟨hs.trans h.1, hc.trans h.2⟩

theorem State.statusKept_armed (v : Nat) : bit 26 (s.statusKept (1024 + v)) = bit 26 (s.rd (offVecStatus v)) := by
  rw [State.statusKept, if_neg (by omega), rgStatus_vec]
  simp [bit]

theorem State.ringReset_armed {v : Nat} (hv : v < 256) (h : s.armed v) : (s.ringReset (1024 + v)).armed v := by
  let k := 1024 + v
  have hk : k = 1024 + v := rfl
  have hown : ∀ x, ringOwn k x → (s.dropWork k).rd x = s.rd x := s.dropWork_own (by omega)
  let u := (s.dropWork k).wrb (rgCtl k) 31 false
  have hu : u = (s.dropWork k).wrb (rgCtl k) 31 false := rfl
  have hus : u.rd (rgStatus k) = s.rd (rgStatus k) := by
    rw [hu, State.rd_wrb_ne _ _ _ (by simp [rgStatus, rgCtl]), hown _ (ringOwn_status k)]
  obtain ⟨-, -, -, hst⟩ := u.rd_counts k (u.statusKept k)
  have hrd : ∀ x, (s.ringReset k).rd x = (u.wrs (rgSeen k) [0, 0, 0, u.statusKept k]).rd x := fun x => by
    rw [s.ringReset_eq, State.rd_ringMod]
  refine State.armed_of h ?_ ?_
  · rw [← rgStatus_vec, ← hk, hrd, hst, hk, State.statusKept_armed, ← rgStatus_vec, ← hk, hus]
  · rw [← rgCtl_vec, ← hk, hrd, State.rd_counts_ne _ _ _ (by simp [rgCtl, rgSeen]), hu, State.wrb, State.rd_wr_same,
      hown _ (ringOwn_ctl k), bit_setBit _ _ _ _ (by omega), if_neg (by omega)]

theorem State.ringStart_armed {v : Nat} (h : s.armed v) : (s.ringStart (1024 + v)).armed v := by
  let k := 1024 + v
  have hk : k = 1024 + v := rfl
  obtain ⟨-, -, -, hst⟩ := s.rd_counts k (setFld 31 30 1 (s.statusKept k))
  rw [← State.startedRegs.eq_def] at hst
  refine State.armed_of h ?_ ?_
  · rw [← rgStatus_vec, ← hk, s.rd_ringStart, hst, bit_setFld 31 30 1 26 _ (by omega) (by omega), if_neg (by omega), hk,
      State.statusKept_armed, ← rgStatus_vec]
  · rw [← rgCtl_vec, ← hk, s.rd_ringStart]
    exact congrArg (bit 27) (s.rd_counts_ne k _ (by simp [rgCtl, rgSeen]))

theorem State.ringDrain_armed {v : Nat} (hv : v < 256) (h : s.armed v) : (s.ringDrain (1024 + v)).armed v := by
  let k := 1024 + v
  have hk : k = 1024 + v := rfl
  unfold State.ringDrain
  extract_lets t u
  have ht : Untouched (ringOwn k) s t := .foldl (.refl s) fun w _ => (w.ringDrop_own (by omega) 1).trans (State.ringEvent_own _ (by omega) k 2)
  have hu : Untouched (ringOwn k) s u := by
    simp only [u]
    split
    · exact ht
    · exact ht.trans (State.stopTimer_untouched _ _)
  refine State.armed_of h ?_ ?_
  · rw [← rgStatus_vec, ← hk, State.rd_wrf, if_pos rfl, bit_setFld 31 30 2 26 _ (by omega) (by omega), if_neg (by omega),
      State.rd_ringMod, hu _ (ringOwn_status k)]
  · rw [← rgCtl_vec, ← hk, State.rd_wrf_ne _ _ _ _ (by simp [rgCtl, rgStatus]), State.rd_ringMod, hu _ (ringOwn_ctl k)]

theorem vector_arm (v : Fin 256) (w : Word) (hs : s.serves (offVecCtl v)) :
    s.completes (.vectorArmWrite v w) fun t => t.rdb (offVecStatus v) 26 = true ∧ t.rdb (offVecCtl v) 27 = true := by
  have harmed := s.ctlOpened_armed v (setBit 27 true w) (by simp [bit_setBit])
  have hx : exec (.vectorArmWrite v w) s = .next (s.cfg (rgCtl (1024 + v.val)) fun s =>
      s.ringCtlWrite (1024 + v.val) (setBit 27 true w)) := by rw [rgCtl_vec, exec_vectorArmWrite, execVectorArmWrite]
  refine State.completes_ctl (by omega) hx (by rwa [rgCtl_vec]) ?_
  have hall : (s.ringCtlWrite (1024 + v.val) (setBit 27 true w)).armed v := by
    rw [s.ringCtlWrite_eq]
    split
    · exact State.ringReset_armed _ v.isLt harmed
    · split
      · exact State.ringStart_armed _ harmed
      · split
        · exact State.ringDrain_armed _ v.isLt harmed
        · exact harmed
  rw [State.answer_rdb, State.answer_rdb]
  exact hall

theorem vector_message (v : Fin 256) (hh : s.hostOn = true) (he : s.rdb (offVecCtl v) 31 = true)
    (ha : s.rdb (offVecCtl v) 27 = true) (hp : s.rdb (offVecStatus v) 25 = true) (hm : (s.ring (1024 + v.val)).lastMsg = none) :
    s.completes (.vectorMessage v) fun t => t.outbox = .interrupt v :: s.outbox ∧ t.rdb (offVecStatus v) 25 = false ∧
      t.rdb (offVecCtl v) 27 = s.rdb (offVecCtl v) 28 ∧ (t.ring (1024 + v.val)).lastMsg = some s.ps := by
  have hk : 1024 + v.val < 1280 := by omega
  have hne : offVecStatus v ≠ offVecCtl v := by simp only [offVecStatus, offVecCtl]; omega
  let u := ((s.emit (.interrupt v)).ringCnt 11).wrb (offVecStatus v) 25 false
  have hu : u = ((s.emit (.interrupt v)).ringCnt 11).wrb (offVecStatus v) 25 false := rfl
  have hcnt : ((s.emit (.interrupt v)).ringCnt 11).rd (offVecCtl v) = s.rd (offVecCtl v) := by
    rw [← rgCtl_vec, State.ringCnt_own _ hk 11 _ (ringOwn_ctl _), State.emit_rd]
  have huc : u.rd (offVecCtl v) = s.rd (offVecCtl v) := by rw [hu, State.rd_wrb_ne _ _ _ hne.symm, hcnt]
  have hus : u.rdb (offVecStatus v) 25 = false := by
    rw [State.rdb, hu, State.wrb, State.rd_wr_same]
    simp [bit_setBit]
  let w := if bit 28 (s.rd (offVecCtl v)) then u else u.setArmed v false
  have hw : w = if bit 28 (s.rd (offVecCtl v)) then u else u.setArmed v false := rfl
  have hx : exec (.vectorMessage v) s = .next (w.ringMod (1024 + v.val) fun r => { r with lastMsg := some w.ps }) := by
    have hc31 : bit 31 (s.rd (offVecCtl v)) = true := he
    have hc27 : bit 27 (s.rd (offVecCtl v)) = true := ha
    rw [exec_vectorMessage, execVectorMessage]
    dsimp only
    rw [hh, hc31, hc27, hp, hm]
    rfl
  have hwo : w.outbox = .interrupt v :: s.outbox ∧ w.now = s.now := by
    simp only [hw]
    split <;> simp [State.setArmed, hu, State.ringCnt, State.emit]
  have hws : w.rdb (offVecStatus v) 25 = false := by
    simp only [hw]
    split
    · exact hus
    · rw [State.rdb, State.setArmed, State.rd_wrb_ne _ _ _ hne, State.wrb, State.rd_wr_same, bit_setBit _ _ _ _ (by omega),
        if_neg (by omega)]
      exact hus
  have hwc : w.rdb (offVecCtl v) 27 = s.rdb (offVecCtl v) 28 := by
    simp only [hw]
    split
    · rename_i h
      rw [State.rdb, huc, State.rdb, h]
      exact ha
    · rename_i h
      rw [State.rdb, State.setArmed, State.wrb, State.rd_wr_same, State.rdb]
      simpa [bit_setBit] using h
  have hps : w.ps = s.ps := by rw [State.ps, State.ps, hwo.2]
  refine State.completes_of hx ⟨hwo.1, hws, hwc, ?_⟩
  rw [State.ring_ringMod, if_pos rfl, hps]

/-- Settles O46: the registers of a ring lie apart from the engine's counters, and a state change of a ring is told from them. -/
theorem ringsAndVectorsAct : Obligations.RingsAndVectorsAct := by
  unfold Obligations.RingsAndVectorsAct
  intro s r
  exact ⟨ring_nudge s r, ring_nudge_waits s r, ring_nudge_again s r, ring_nudge_ignored s r, ring_poll_other s r, ring_poll s r,
    ring_refetch s r, ring_record s r, ring_record_torn s r, ring_timeout s r, ring_error s r, ring_enable s r, ring_disable s r,
    ring_reset s r, ring_drained s r, vector_arm s, vector_message s⟩

end Sys2Proof.Machine
end

section
/-! SUPPORT. Which registers a write changes by their access codes alone (R11): the masks of event registers and the words of counters
have no action of their own. The masks are listed from the register tables and checked one by one; the registers with an action are
checked to be no counters. -/

set_option Elab.async false

namespace Sys2Proof.Machine

/-! ## The registers of a row -/

/-- The distances beyond a row's base at which it holds registers. -/
def dimOffsets : List (Nat × Nat) → List Nat
  | [] => [0]
  | (st, ct) :: ds => (List.range ct).flatMap fun i => (dimOffsets ds).map (st * i + ·)

/-- The farthest of them. -/
def dimMax (ds : List (Nat × Nat)) : Nat := (ds.map fun d => d.1 * d.2).sum

theorem mem_dimOffsets {ds : List (Nat × Nat)} {r : Nat} (h : dimsHit ds r = true) : r ∈ dimOffsets ds := by
  induction ds generalizing r with
  | nil => simpa [dimsHit, dimOffsets] using h
  | cons d ds ih =>
    obtain ⟨st, ct⟩ := d
    rw [dimsHit, Bool.and_eq_true, decide_eq_true_eq] at h
    obtain ⟨hlt, hrest⟩ := h
    rw [dimOffsets, List.mem_flatMap]
    exact ⟨r / st, List.mem_range.2 hlt, List.mem_map.2 ⟨r % st, ih hrest, Nat.div_add_mod r st⟩⟩

theorem le_dimMax {ds : List (Nat × Nat)} {r : Nat} (h : dimsHit ds r = true) : r ≤ dimMax ds := by
  induction ds generalizing r with
  | nil => simpa [dimsHit, dimMax] using h
  | cons d ds ih =>
    obtain ⟨st, ct⟩ := d
    rw [dimsHit, Bool.and_eq_true, decide_eq_true_eq] at h
    obtain ⟨hlt, hrest⟩ := h
    have h1 : st * (r / st) ≤ st * ct := Nat.mul_le_mul_left st (by omega)
    have h2 := ih hrest
    have h3 := Nat.div_add_mod r st
    rw [dimMax, List.map_cons, List.sum_cons, ← dimMax]
    dsimp only
    omega

/-- The register tables. -/
def regionLists : List (List RegRow) := [rowsHostLow, rowsTime, rowsRings, rowsAuger, rowsAssay, rowsTiers, rowsSilt, rowsSched,
  rowsTilth, rowsSafety, rowsTel, rowsMgmt, rowsSwap, rowsBedCtl, rowsBedLane, rowsBedMac, rowsBedParse, rowsBedMesh, rowsBedPattern,
  rowsBedMeter, rowsBedSched, rowsBedGate, rowsBedStat, rowsBedTs]

theorem regionRows_mem (off : Nat) : regionRows off ∈ regionLists := by
  have hite : ∀ {c : Prop} [Decidable c] {x y : List RegRow}, x ∈ regionLists → y ∈ regionLists → (if c then x else y) ∈ regionLists :=
    fun hx hy => by
      split
      · exact hx
      · exact hy
  unfold regionRows
  dsimp only
  repeat' refine hite ?_ ?_
  all_goals simp only [regionLists, List.mem_cons, true_or, or_true]

/-- Every row of the register tables. -/
def allRows : List RegRow := regionLists.flatten

theorem mem_allRows {off : Nat} {row : RegRow} (h : regRow off = some row) : row ∈ allRows ∧ row.hit off = true :=
  ⟨List.mem_flatten.2 ⟨_, regionRows_mem off, List.mem_of_find?_eq_some h⟩, List.find?_some (p := fun r : RegRow => r.hit off) h⟩

/-- The masks of the event registers. -/
def masks : List Nat := (allRows.filter (·.evt)).flatMap fun row => (dimOffsets row.dims).map (row.base + · + 4)

theorem mem_masks {off : Nat} (h : isMask off = true) : off ∈ masks := by
  unfold isMask at h
  rw [Bool.and_eq_true, decide_eq_true_eq] at h
  obtain ⟨h4, hrow⟩ := h
  cases hr : regRow (off - 4) with
  | none => simp [hr] at hrow
  | some row =>
    rw [hr] at hrow
    obtain ⟨hall, hhit⟩ := mem_allRows hr
    rw [RegRow.hit, Bool.and_eq_true, decide_eq_true_eq] at hhit
    exact List.mem_flatMap.2 ⟨row, List.mem_filter.2 ⟨hall, hrow⟩, List.mem_map.2 ⟨_, mem_dimOffsets hhit.2, by omega⟩⟩

/-- The register is a word of a counter, by its row. -/
def cntAt (off : Nat) : Bool := (regRow off).any (·.cnt)

/-! ## The registers with an action -/

/-- At 0x1000 to 0x4FFF. -/
def actsLow (off : Nat) : Bool :=
  [offClkPll, offClkMonSel, offRstCtl, offRstBed, offPwrState, offPwrIslandCtl, offFuseProg, offLcReq, offDbgCtl, offDbgToken,
    offKeyRevoke].contains off || (regIx 0x3200 4 64 off).isSome

/-- Of the time unit. -/
def actsTime (off : Nat) : Bool :=
  match tbAt off with
  | some (_, r) => r == 0x8 || r == 0x10 || r == 0x24
  | none => [offTimeCaptureAll, offRef10Ctl, offActCmd].contains off || (regIx 0x102004 0x40 2 off).isSome ||
      (regIx 0x102100 0x10 2 off).isSome || (regIx 0x181000 0x10 2 off).isSome

/-- Of the rings, with the doorbell page. -/
def actsRing (off : Nat) : Bool :=
  decide (0x2F0000 ≤ off) || (regIx 0x200010 0x40 512 off).isSome || (regIx 0x208010 0x40 512 off).isSome ||
    (regIx 0x210010 0x40 256 off).isSome

/-- Of the Auger channels and the Assay units. -/
def actsAuger (off : Nat) : Bool :=
  off == offAugExport || (regIx 0x300000 0x40 32 off).isSome || (regIx 0x30000C 0x40 32 off).isSome

def actsAssay (off : Nat) : Bool :=
  off == offScanCtl || (regIx 0x380018 0x40 16 off).isSome || (regIx 0x38001C 0x40 16 off).isSome

/-- Of the scheduler's global window and of the tilth engines. -/
def actsSched (off : Nat) : Bool :=
  [offFlowCmd, offClodCmd, offReplCmd].contains off ||
    (slotOf 0x501000 0x100 2 off).isSome && (shIx (off % 0x100)).isSome

def actsTilth (off : Nat) : Bool :=
  [offLoadCtl, offLoadData, offMinVersion].contains off || (regIx 0x601000 0x20 24 off).isSome

/-- Of a bed window, by the offset in it. -/
def actsInBed (r : Nat) : Bool :=
  (regIx 0x1000 0x40 16 r).isSome || (regIx 0x20020 0x1000 16 r).isSome ||
    (slotOf 0x60000 0x100 16 r).isSome && (shIx (r % 0x100)).isSome ||
    (slotOf 0x70000 0x80 16 r).isSome && (r % 0x80 == 0 || decide (0x8 ≤ r % 0x80) && decide (r % 0x80 < 0x1C)) ||
    (regIx 0x80400 0x800 16 r).isSome || (regIx 0x90008 0x100 16 r).isSome

def actsBed (b : Nat) (off : Nat) : Bool :=
  [offParsePipeMap b, offParseCtl b, offParsePipeStatus b, offMeshCtl b, offMeshTblCmd b, offRewriteCtl b, offMeterDscpMap b 0,
    offMeterDscpMap b 1, offGateCmd b].contains off || actsInBed (off % 0x100000)

/-- Of the rest. -/
def actsRest (off : Nat) : Bool :=
  [offMeterCmd, offHarmAck, offTelCtl, offTelArchCfg, offMdioCtl, offMgmtStatCtl, offSwapCtl].contains off ||
    (regIx 0x480000 0x1000 8 off).isSome

/-- A register whose write has an action beside its fields. -/
def acts (off : Nat) : Bool :=
  if off < 0x100000 then actsLow off
  else if off < 0x200000 then actsTime off
  else if off < 0x300000 then actsRing off
  else if off < 0x380000 then actsAuger off
  else if off < 0x400000 then actsAssay off
  else if 0x500000 ≤ off ∧ off < 0x600000 then actsSched off
  else if 0x600000 ≤ off ∧ off < 0x700000 then actsTilth off
  else if 0x1000000 ≤ off ∧ off < 0x2100000 ∧ off ≠ offSwapCtl then actsBed ((off - 0x1000000) / 0x100000) off
  else actsRest off

/-- No mask has an action, is banked or counts. -/
theorem masks_plain : ∀ off ∈ masks, acts off = false ∧ (regRow off).all (fun row => row.bank == 0 && !row.cnt) = true := by
  decide +kernel

end Sys2Proof.Machine
end

section
/-! SUPPORT. No register with an action is a counter; a mask or a counter takes a write by its access codes alone. -/

set_option Elab.async false

namespace Sys2Proof.Machine

variable (s : State)

theorem eq_of_slotOf {base st n off : Nat} (hst : 0 < st) (h : (slotOf base st n off).isSome = true) :
    ∃ k : Fin n, ∃ q, q < st ∧ off = base + st * k + q ∧ off - base = st * k + q := by
  unfold slotOf at h
  split at h
  · rename_i hb
    have hd := Nat.div_add_mod (off - base) st
    exact ⟨⟨(off - base) / st, hb.2⟩, (off - base) % st, Nat.mod_lt _ hst, by dsimp only; omega, by dsimp only; omega⟩
  · exact absurd h (by simp)

theorem eq_of_regIx {base st n off : Nat} (hst : 0 < st) (h : (regIx base st n off).isSome = true) :
    ∃ k : Fin n, off = base + st * k := by
  unfold regIx at h
  split at h
  · rename_i hm
    obtain ⟨k, q, hq, hoff, hdist⟩ := eq_of_slotOf hst h
    rw [hdist, Nat.mul_add_mod, Nat.mod_eq_of_lt hq] at hm
    exact ⟨k, by omega⟩
  · exact absurd h (by simp)

theorem eq_of_shIx {x : Nat} (h : (shIx x).isSome = true) : ∃ i : Fin 19, shOff i = x := by
  unfold shIx at h
  obtain ⟨i, hi⟩ := Option.isSome_iff_exists.1 h
  have hmem := List.mem_range.1 (List.mem_of_find?_eq_some hi)
  exact ⟨⟨i, hmem⟩, by simpa using List.find?_some hi⟩

/-- A check of n registers, at one of them. -/
theorem noCnt_all {n : Nat} {f : Nat → Nat} (h : ((List.range n).all fun k => !cntAt (f k)) = true) (k : Fin n) : cntAt (f k) = false := by
  simpa using List.all_eq_true.1 h k (List.mem_range.2 k.isLt)

/-- A check of n registers of each bed window. -/
theorem noCnt_allBeds {n : Nat} {f : Nat → Nat → Nat}
    (h : ((List.range 17).all fun b => (List.range n).all fun p => !cntAt (f b p)) = true) (b : Fin 17) (p : Fin n) :
    cntAt (f b p) = false :=
  noCnt_all (List.all_eq_true.1 h b (List.mem_range.2 b.isLt)) p

/-! ## Each window -/

theorem noCnt_low {off : Nat} (h : actsLow off = true) : cntAt off = false := by
  rw [actsLow, Bool.or_eq_true, List.contains_iff_mem] at h
  obtain h | h := h
  · have hall : ∀ x ∈ [offClkPll, offClkMonSel, offRstCtl, offRstBed, offPwrState, offPwrIslandCtl, offFuseProg, offLcReq, offDbgCtl,
        offDbgToken, offKeyRevoke], cntAt x = false := by decide +kernel
    exact hall off h
  · obtain ⟨k, rfl⟩ := eq_of_regIx (by omega) h
    exact (by decide +kernel : ∀ k : Fin 64, cntAt (0x3200 + 4 * k) = false) k

theorem tbAt_some {off k r : Nat} (h : tbAt off = some (k, r)) : ∃ j : Fin 10, off = tbReg j r := by
  unfold tbAt at h
  split at h
  · rename_i i hi
    obtain ⟨j, q, hq, hoff, hdist⟩ := eq_of_slotOf (by omega) (Option.isSome_iff_exists.2 ⟨_, hi⟩)
    obtain ⟨-, rfl⟩ := Prod.mk.inj (Option.some.inj h)
    have hj := j.isLt
    refine ⟨⟨j, by omega⟩, ?_⟩
    rw [tbReg, if_pos j.isLt, offTbCtl]
    dsimp only
    omega
  · obtain ⟨i, hi, he⟩ := Option.map_eq_some_iff.1 h
    obtain ⟨j, q, hq, hoff, hdist⟩ := eq_of_slotOf (by omega) (Option.isSome_iff_exists.2 ⟨_, hi⟩)
    obtain ⟨-, rfl⟩ := Prod.mk.inj he
    refine ⟨⟨8 + j, by omega⟩, ?_⟩
    rw [tbReg, if_neg (by simp), offTrkCtl]
    dsimp only
    omega

theorem noCnt_time {off : Nat} (h : actsTime off = true) : cntAt off = false := by
  unfold actsTime at h
  split at h
  · rename_i k r hat
    obtain ⟨j, rfl⟩ := tbAt_some hat
    have hall : ∀ j : Fin 10, ∀ r ∈ [0x8, 0x10, 0x24], cntAt (tbReg j r) = false := by decide +kernel
    simp only [Bool.or_eq_true, beq_iff_eq] at h
    exact hall j r (by simp only [List.mem_cons, List.not_mem_nil, or_false]; omega)
  · rw [Bool.or_eq_true, Bool.or_eq_true, Bool.or_eq_true, List.contains_iff_mem] at h
    obtain ((h | h) | h) | h := h
    · exact (by decide +kernel : ∀ x ∈ [offTimeCaptureAll, offRef10Ctl, offActCmd], cntAt x = false) off h
    · obtain ⟨k, rfl⟩ := eq_of_regIx (by omega) h
      exact (by decide +kernel : ∀ k : Fin 2, cntAt (0x102004 + 0x40 * k) = false) k
    · obtain ⟨k, rfl⟩ := eq_of_regIx (by omega) h
      exact (by decide +kernel : ∀ k : Fin 2, cntAt (0x102100 + 0x10 * k) = false) k
    · obtain ⟨k, rfl⟩ := eq_of_regIx (by omega) h
      exact (by decide +kernel : ∀ k : Fin 2, cntAt (0x181000 + 0x10 * k) = false) k

/-- The counters of the rings lie before the doorbell page. -/
theorem noCnt_doorbell {off : Nat} (h1 : 0x2F0000 ≤ off) (h2 : off < 0x300000) : cntAt off = false := by
  have hbound : ∀ row ∈ rowsRings.filter (·.cnt), row.base + dimMax row.dims < 0x2F0000 := by decide +kernel
  have hrows : regionRows off = rowsRings := by
    unfold regionRows
    rw [if_neg (by omega), if_neg (by omega), if_pos h2]
  rw [cntAt]
  cases hr : regRow off with
  | none => rfl
  | some row =>
    refine Decidable.byContradiction fun hc => ?_
    have hcnt : row.cnt = true := by simpa using hc
    have hmem : row ∈ rowsRings := hrows ▸ List.mem_of_find?_eq_some hr
    have hhit := (mem_allRows hr).2
    rw [RegRow.hit, Bool.and_eq_true, decide_eq_true_eq] at hhit
    have h3 := le_dimMax hhit.2
    have h4 := hbound row (List.mem_filter.2 ⟨hmem, hcnt⟩)
    omega

theorem noCnt_ring {off : Nat} (h2 : off < 0x300000) (h : actsRing off = true) : cntAt off = false := by
  rw [actsRing, Bool.or_eq_true, Bool.or_eq_true, Bool.or_eq_true, decide_eq_true_eq] at h
  obtain ((h | h) | h) | h := h
  · exact noCnt_doorbell h h2
  · obtain ⟨k, rfl⟩ := eq_of_regIx (by omega) h
    exact noCnt_all (by decide +kernel : ((List.range 512).all fun k => !cntAt (0x200010 + 0x40 * k)) = true) k
  · obtain ⟨k, rfl⟩ := eq_of_regIx (by omega) h
    exact noCnt_all (by decide +kernel : ((List.range 512).all fun k => !cntAt (0x208010 + 0x40 * k)) = true) k
  · obtain ⟨k, rfl⟩ := eq_of_regIx (by omega) h
    exact noCnt_all (by decide +kernel : ((List.range 256).all fun k => !cntAt (0x210010 + 0x40 * k)) = true) k

theorem noCnt_auger {off : Nat} (h : actsAuger off = true) : cntAt off = false := by
  rw [actsAuger, Bool.or_eq_true, Bool.or_eq_true, beq_iff_eq] at h
  obtain (rfl | h) | h := h
  · decide +kernel
  · obtain ⟨k, rfl⟩ := eq_of_regIx (by omega) h
    exact (by decide +kernel : ∀ k : Fin 32, cntAt (0x300000 + 0x40 * k) = false) k
  · obtain ⟨k, rfl⟩ := eq_of_regIx (by omega) h
    exact (by decide +kernel : ∀ k : Fin 32, cntAt (0x30000C + 0x40 * k) = false) k

theorem noCnt_assay {off : Nat} (h : actsAssay off = true) : cntAt off = false := by
  rw [actsAssay, Bool.or_eq_true, Bool.or_eq_true, beq_iff_eq] at h
  obtain (rfl | h) | h := h
  · decide +kernel
  · obtain ⟨k, rfl⟩ := eq_of_regIx (by omega) h
    exact (by decide +kernel : ∀ k : Fin 16, cntAt (0x380018 + 0x40 * k) = false) k
  · obtain ⟨k, rfl⟩ := eq_of_regIx (by omega) h
    exact (by decide +kernel : ∀ k : Fin 16, cntAt (0x38001C + 0x40 * k) = false) k

theorem noCnt_sched {off : Nat} (h : actsSched off = true) : cntAt off = false := by
  rw [actsSched, Bool.or_eq_true, List.contains_iff_mem] at h
  obtain h | h := h
  · exact (by decide +kernel : ∀ x ∈ [offFlowCmd, offClodCmd, offReplCmd], cntAt x = false) off h
  · rw [Bool.and_eq_true] at h
    obtain ⟨hslot, hsh⟩ := h
    obtain ⟨k, q, hq, hoff, -⟩ := eq_of_slotOf (by omega) hslot
    obtain ⟨i, hi⟩ := eq_of_shIx hsh
    have he : off = 0x501000 + 0x100 * k + shOff i := by omega
    rw [he]
    exact (by decide +kernel : ∀ (k : Fin 2) (i : Fin 19), cntAt (0x501000 + 0x100 * k + shOff i) = false) k i

theorem noCnt_tilth {off : Nat} (h : actsTilth off = true) : cntAt off = false := by
  rw [actsTilth, Bool.or_eq_true, List.contains_iff_mem] at h
  obtain h | h := h
  · exact (by decide +kernel : ∀ x ∈ [offLoadCtl, offLoadData, offMinVersion], cntAt x = false) off h
  · obtain ⟨k, rfl⟩ := eq_of_regIx (by omega) h
    exact (by decide +kernel : ∀ k : Fin 24, cntAt (0x601000 + 0x20 * k) = false) k

theorem noCnt_rest {off : Nat} (h : actsRest off = true) : cntAt off = false := by
  rw [actsRest, Bool.or_eq_true, List.contains_iff_mem] at h
  obtain h | h := h
  · exact (by decide +kernel : ∀ x ∈ [offMeterCmd, offHarmAck, offTelCtl, offTelArchCfg, offMdioCtl, offMgmtStatCtl, offSwapCtl],
      cntAt x = false) off h
  · obtain ⟨k, rfl⟩ := eq_of_regIx (by omega) h
    exact (by decide +kernel : ∀ k : Fin 8, cntAt (0x480000 + 0x1000 * k) = false) k

/-- The first offset of bed window b. -/
def winBed (b : Nat) : Nat := 0x1000000 + 0x100000 * b

/-- The row is of a register of each bed window. -/
def bedRow (row : RegRow) : Bool :=
  match row.dims with
  | (st, _) :: ds => st == 0x100000 && decide (0x1000000 ≤ row.base) && decide (row.base - 0x1000000 + dimMax ds < 0x100000)
  | [] => false

/-- What such a row holds of one bed window it holds of the first. -/
theorem hit_of_bedRow {b : Fin 17} {r : Nat} {row : RegRow} (hr : r < 0x100000) (h : bedRow row = true)
    (hhit : row.hit (winBed b + r) = true) : row.hit (winBed 0 + r) = true := by
  rw [RegRow.hit, Bool.and_eq_true, decide_eq_true_eq] at hhit ⊢
  obtain ⟨hbase, hdims⟩ := hhit
  unfold bedRow at h
  split at h
  · rename_i st ct ds hd
    simp only [Bool.and_eq_true, beq_iff_eq, decide_eq_true_eq] at h
    obtain ⟨⟨rfl, hlo⟩, hfar⟩ := h
    rw [hd, dimsHit, Bool.and_eq_true, decide_eq_true_eq] at hdims
    obtain ⟨hct, hrest⟩ := hdims
    have hle := le_dimMax hrest
    have hdiv := Nat.div_add_mod (winBed b + r - row.base) 0x100000
    have hmod : (winBed b + r - row.base) % 0x100000 = r - (row.base - 0x1000000) ∧ row.base - 0x1000000 ≤ r := by
      unfold winBed at hbase hdiv hle ⊢
      omega
    have hfirst : winBed 0 + r - row.base = r - (row.base - 0x1000000) := by
      unfold winBed
      omega
    rw [hd, hfirst, dimsHit, Bool.and_eq_true, decide_eq_true_eq, Nat.div_eq_of_lt (by omega), Nat.mod_eq_of_lt (by omega)]
    refine ⟨by unfold winBed; omega, by omega, ?_⟩
    rw [← hmod.1]
    exact hrest
  · exact absurd h (by simp)

/-- An offset of a bed window is no counter where no counter's row holds the one of the first window. -/
theorem noCnt_bedRows {b : Fin 17} {r : Nat} {rows : List RegRow} (hr : r < 0x100000) (hrows : regionRows (winBed b + r) = rows)
    (hall : ∀ row ∈ rows, row.cnt = true → bedRow row = true)
    (hmiss : ((rows.filter (·.cnt)).all fun row => !row.hit (winBed 0 + r)) = true) : cntAt (winBed b + r) = false := by
  rw [cntAt]
  cases hrow : regRow (winBed b + r) with
  | none => rfl
  | some row =>
    refine Decidable.byContradiction fun hc => ?_
    have hcnt : row.cnt = true := by simpa using hc
    have hmem : row ∈ rows := hrows ▸ List.mem_of_find?_eq_some hrow
    have hhit := hit_of_bedRow hr (hall row hmem hcnt) (mem_allRows hrow).2
    have hno := List.all_eq_true.1 hmiss row (List.mem_filter.2 ⟨hmem, hcnt⟩)
    rw [hhit] at hno
    exact absurd hno (by simp)

/-- Which table an offset of a bed window is looked up in. -/
theorem regionRows_bed (b : Fin 17) {r : Nat} (h1 : 8 ≤ r) (h2 : r < 0x100000) :
    regionRows (winBed b + r) =
      if r < 0x10000 then rowsBedCtl else if r < 0x20000 then rowsBedLane else if r < 0x30000 then rowsBedMac
      else if r < 0x40000 then rowsBedParse else if r < 0x48000 then rowsBedMesh else if r < 0x50000 then rowsBedPattern
      else if r < 0x60000 then rowsBedMeter else if r < 0x70000 then rowsBedSched else if r < 0x80000 then rowsBedGate
      else if r < 0x90000 then rowsBedStat else rowsBedTs := by
  have hmod : (winBed b + r) % 0x100000 = r := by
    unfold winBed
    omega
  have hb := b.isLt
  have hge : 0x1000000 ≤ winBed b + r := Nat.le_add_right_of_le (Nat.le_add_right _ _)
  have hswap : ¬ (winBed b + r < 0x2000000 + 8 ∧ 0x2000000 ≤ winBed b + r) := by
    unfold winBed
    omega
  unfold regionRows
  iterate 12 rw [if_neg (by omega)]
  rw [if_neg hswap, hmod]

theorem noCnt_schedPorts (b : Fin 17) (p : Fin 16) (i : Fin 19) : cntAt (winBed b + (0x60000 + 0x100 * p + shOff i)) = false := by
  have hlt : ∀ i : Fin 19, shOff i < 0x100 := by decide
  have hi := hlt i
  have hall : ∀ row ∈ rowsBedSched, row.cnt = true → bedRow row = true := by decide +kernel
  have hmiss : ((List.range 16).all fun p => (List.range 19).all fun i => (rowsBedSched.filter (·.cnt)).all fun row =>
      !row.hit (winBed 0 + (0x60000 + 0x100 * p + shOff i))) = true := by decide +kernel
  refine noCnt_bedRows (by omega) ?_ hall ?_
  · rw [regionRows_bed b (by omega) (by omega)]
    simp (disch := omega) only [if_neg, if_pos]
  · exact List.all_eq_true.1 (List.all_eq_true.1 hmiss p (List.mem_range.2 p.isLt)) i (List.mem_range.2 i.isLt)

theorem noCnt_gatePorts (b : Fin 17) (p : Fin 16) {q : Nat} (hq : q < 0x1C) : cntAt (winBed b + (0x70000 + 0x80 * p + q)) = false := by
  have hall : ∀ row ∈ rowsBedGate, row.cnt = true → bedRow row = true := by decide +kernel
  have hmiss : ((List.range 16).all fun p => (List.range 0x1C).all fun q => (rowsBedGate.filter (·.cnt)).all fun row =>
      !row.hit (winBed 0 + (0x70000 + 0x80 * p + q))) = true := by decide +kernel
  refine noCnt_bedRows (by omega) ?_ hall ?_
  · rw [regionRows_bed b (by omega) (by omega)]
    simp (disch := omega) only [if_neg, if_pos]
  · exact List.all_eq_true.1 (List.all_eq_true.1 hmiss p (List.mem_range.2 p.isLt)) q (List.mem_range.2 hq)

theorem noCnt_inBed (b : Fin 17) {r : Nat} (h : actsInBed r = true) : cntAt (winBed b + r) = false := by
  simp only [actsInBed, Bool.or_eq_true, Bool.and_eq_true] at h
  obtain ((((h | h) | ⟨h, hsh⟩) | ⟨h, hq⟩) | h) | h := h
  · obtain ⟨p, rfl⟩ := eq_of_regIx (by omega) h
    exact noCnt_allBeds (n := 16) (f := fun b p => winBed b + (0x1000 + 0x40 * p)) (by decide +kernel) b p
  · obtain ⟨p, rfl⟩ := eq_of_regIx (by omega) h
    exact noCnt_allBeds (n := 16) (f := fun b p => winBed b + (0x20020 + 0x1000 * p)) (by decide +kernel) b p
  · obtain ⟨p, q, hlt, hoff, -⟩ := eq_of_slotOf (by omega) h
    obtain ⟨i, hi⟩ := eq_of_shIx hsh
    have he : r = 0x60000 + 0x100 * p + shOff i := by omega
    rw [he]
    exact noCnt_schedPorts b p i
  · obtain ⟨p, q, hlt, hoff, -⟩ := eq_of_slotOf (by omega) h
    simp only [beq_iff_eq, decide_eq_true_eq] at hq
    rw [hoff]
    exact noCnt_gatePorts b p (by omega)
  · obtain ⟨p, rfl⟩ := eq_of_regIx (by omega) h
    exact noCnt_allBeds (n := 16) (f := fun b p => winBed b + (0x80400 + 0x800 * p)) (by decide +kernel) b p
  · obtain ⟨p, rfl⟩ := eq_of_regIx (by omega) h
    exact noCnt_allBeds (n := 16) (f := fun b p => winBed b + (0x90008 + 0x100 * p)) (by decide +kernel) b p

theorem noCnt_bed {off : Nat} (h1 : 0x1000000 ≤ off) (h2 : off < 0x2100000) (h : actsBed ((off - 0x1000000) / 0x100000) off = true) :
    cntAt off = false := by
  let b : Fin 17 := ⟨(off - 0x1000000) / 0x100000, by omega⟩
  have hb : b = ⟨(off - 0x1000000) / 0x100000, by omega⟩ := rfl
  have hoff : off = winBed b + off % 0x100000 := by
    simp only [winBed, hb]
    omega
  rw [actsBed, Bool.or_eq_true, List.contains_iff_mem] at h
  obtain h | h := h
  · exact (by decide +kernel : ∀ b : Fin 17, ∀ x ∈ [offParsePipeMap b, offParseCtl b, offParsePipeStatus b, offMeshCtl b,
      offMeshTblCmd b, offRewriteCtl b, offMeterDscpMap b 0, offMeterDscpMap b 1, offGateCmd b], cntAt x = false) b off h
  · rw [hoff]
    exact noCnt_inBed b h

theorem noCnt_of_acts {off : Nat} (h : acts off = true) : cntAt off = false := by
  unfold acts at h
  split at h
  · exact noCnt_low h
  split at h
  · exact noCnt_time h
  split at h
  · exact noCnt_ring (by assumption) h
  split at h
  · exact noCnt_auger h
  split at h
  · exact noCnt_assay h
  split at h
  · exact noCnt_sched h
  split at h
  · exact noCnt_tilth h
  split at h
  · rename_i hbed
    exact noCnt_bed hbed.1 hbed.2.1 h
  · exact noCnt_rest h

/-- A counter has no action and is no mask, and no bank holds it twice. -/
theorem isCounter_plain {off : Nat} (h : isCounter off = true) {row : RegRow} (hr : regRow off = some row) :
    acts off = false ∧ isMask off = false ∧ row.bank = 0 := by
  have hbank : ∀ row ∈ allRows, row.cnt = true → row.bank = 0 := by decide +kernel
  have hloss : ∀ x ∈ [offRstLineLossLo, offRstLineLossHi], acts x = false ∧ isMask x = false ∧ (regRow x).all (·.bank == 0) = true := by
    decide +kernel
  have hcnt : (off = offRstLineLossLo ∨ off = offRstLineLossHi) ∨ row.cnt = true := by
    simpa [isCounter, hr] using h
  obtain hx | hc := hcnt
  · obtain ⟨h1, h2, h3⟩ := hloss off (by simpa using hx)
    rw [hr] at h3
    exact ⟨h1, h2, by simpa using h3⟩
  · have hat : cntAt off = true := by rw [cntAt, hr]; exact hc
    refine ⟨?_, ?_, hbank row (mem_allRows hr).1 hc⟩
    · refine Bool.eq_false_iff.2 fun ha => ?_
      rw [noCnt_of_acts (by simpa using ha)] at hat
      exact absurd hat (by simp)
    · refine Bool.eq_false_iff.2 fun hm => ?_
      have hp := (masks_plain off (mem_masks (by simpa using hm))).2
      rw [hr] at hp
      simp [hc] at hp

theorem isMask_plain {off : Nat} (h : isMask off = true) {row : RegRow} (hr : regRow off = some row) :
    acts off = false ∧ row.bank = 0 := by
  obtain ⟨h1, h2⟩ := masks_plain off (mem_masks h)
  rw [hr] at h2
  exact ⟨h1, by simpa using (Bool.and_eq_true_iff.1 h2).1⟩

end Sys2Proof.Machine
end

section
/-! SUPPORT. Telemetry's intervals and archive rings, event records, and writes of registers without an action (R11, R15, R304 to R317). -/

set_option Elab.async false

namespace Sys2Proof.Machine

variable (s : State)

/-! ## Writes of registers without an action -/

theorem not_isSome {α : Type} {o : Option α} (h : o.isSome = false) : o = none := by simpa using h

theorem State.lowWrite_plain {off : Nat} (port : Bool) (v : Word) (h : actsLow off = false) : s.lowWrite port off v = s.plainWrite off v := by
  simp only [actsLow, Bool.or_eq_false_iff, List.contains_eq_mem, List.mem_cons, List.not_mem_nil, or_false, decide_eq_false_iff_not,
    not_or, Option.isSome_eq_false_iff, Option.isNone_iff_eq_none] at h
  obtain ⟨⟨h1, h2, h3, h4, h5, h6, h7, h8, h9, h10, h11⟩, h12⟩ := h
  simp only [State.lowWrite, h1, h2, h3, h4, h5, h6, h7, h8, h9, h10, h11, h12, if_false]

theorem State.timeWrite_plain {off : Nat} (port : Bool) (v : Word) (h : actsTime off = false) : s.timeWrite port off v = s.plainWrite off v := by
  unfold actsTime at h
  unfold State.timeWrite
  cases hat : tbAt off with
  | some e =>
    rw [hat] at h
    simp only [Bool.or_eq_false_iff, beq_eq_false_iff_ne] at h
    obtain ⟨⟨h1, h2⟩, h3⟩ := h
    simp only [h1, h2, h3, if_false]
  | none =>
    rw [hat] at h
    simp only [Bool.or_eq_false_iff, List.contains_eq_mem, List.mem_cons, List.not_mem_nil, or_false, decide_eq_false_iff_not, not_or,
      Option.isSome_eq_false_iff, Option.isNone_iff_eq_none] at h
    obtain ⟨⟨⟨⟨h1, h2, h3⟩, h4⟩, h5⟩, h6⟩ := h
    simp only [h1, h2, h3, h4, h5, h6, if_false]

theorem State.ringWrite_plain {off : Nat} (v : Word) (h : actsRing off = false) : s.ringWrite off v = s.plainWrite off v := by
  simp only [actsRing, Bool.or_eq_false_iff, decide_eq_false_iff_not, Option.isSome_eq_false_iff, Option.isNone_iff_eq_none] at h
  obtain ⟨⟨⟨h1, h2⟩, h3⟩, h4⟩ := h
  simp only [State.ringWrite, h1, h2, h3, h4, if_false]

theorem State.augWrite_plain {off : Nat} (port : Bool) (v : Word) (h : actsAuger off = false) : s.augWrite port off v = s.plainWrite off v := by
  simp only [actsAuger, Bool.or_eq_false_iff, beq_eq_false_iff_ne, Option.isSome_eq_false_iff, Option.isNone_iff_eq_none] at h
  obtain ⟨⟨h1, h2⟩, h3⟩ := h
  simp only [State.augWrite, h1, h2, h3, if_false]

theorem State.assayWrite_plain {off : Nat} (v : Word) (h : actsAssay off = false) : s.assayWrite off v = s.plainWrite off v := by
  simp only [actsAssay, Bool.or_eq_false_iff, beq_eq_false_iff_ne, Option.isSome_eq_false_iff, Option.isNone_iff_eq_none] at h
  obtain ⟨⟨h1, h2⟩, h3⟩ := h
  simp only [State.assayWrite, h1, h2, h3, if_false]

theorem State.schedWrite_plain {off : Nat} (v : Word) (h : actsSched off = false) : s.schedWrite off v = s.plainWrite off v := by
  simp only [actsSched, Bool.or_eq_false_iff, List.contains_eq_mem, List.mem_cons, List.not_mem_nil, or_false, decide_eq_false_iff_not,
    not_or, Bool.and_eq_false_iff, Option.isSome_eq_false_iff, Option.isNone_iff_eq_none] at h
  obtain ⟨⟨h1, h2, h3⟩, h4⟩ := h
  simp only [State.schedWrite, h1, h2, h3, if_false]
  split
  · rename_i q hq
    rw [hq] at h4
    rw [h4.resolve_left (by simp)]
  · rfl

theorem State.tilthWrite_plain {off : Nat} (port : Bool) (v : Word) (h : actsTilth off = false) :
    s.tilthWrite port off v = s.plainWrite off v := by
  simp only [actsTilth, Bool.or_eq_false_iff, List.contains_eq_mem, List.mem_cons, List.not_mem_nil, or_false, decide_eq_false_iff_not,
    not_or, Option.isSome_eq_false_iff, Option.isNone_iff_eq_none] at h
  obtain ⟨⟨h1, h2, h3⟩, h4⟩ := h
  simp only [State.tilthWrite, h1, h2, h3, h4, if_false]

theorem State.restWrite_plain {off : Nat} (v : Word) (h : actsRest off = false) : s.restWrite off v = s.plainWrite off v := by
  simp only [actsRest, Bool.or_eq_false_iff, List.contains_eq_mem, List.mem_cons, List.not_mem_nil, or_false, decide_eq_false_iff_not,
    not_or, Option.isSome_eq_false_iff, Option.isNone_iff_eq_none] at h
  obtain ⟨⟨h1, h2, h3, h4, h5, h6, h7⟩, h8⟩ := h
  simp only [State.restWrite, h1, h2, h3, h4, h5, h6, h7, h8, if_false]

theorem State.bedWrite_plain {b : BedIx} {off : Nat} (v : Word) (h : actsBed b off = false) : s.bedWrite b off v = s.plainWrite off v := by
  simp only [actsBed, actsInBed, Bool.or_eq_false_iff, List.contains_eq_mem, List.mem_cons, List.not_mem_nil, or_false,
    decide_eq_false_iff_not, not_or, Bool.and_eq_false_iff, Option.isSome_eq_false_iff, Option.isNone_iff_eq_none] at h
  obtain ⟨⟨h1, h2, h3, h4, h5, h6, h7, h8, h9⟩, ⟨⟨⟨⟨hform, hmm⟩, hsh⟩, hgate⟩, hsnap⟩, htsq⟩ := h
  simp only [State.bedWrite, h1, h2, h3, h4, h5, h6, h7, h8, h9, hform, hmm, hsnap, htsq, if_false]
  cases hs : slotOf 0x60000 0x100 16 (off % 0x100000) with
  | some p =>
    rw [hs] at hsh
    rw [hsh.resolve_left (by simp)]
  | none =>
    cases hg : slotOf 0x70000 0x80 16 (off % 0x100000) with
    | some p =>
      rw [hg] at hgate
      obtain ⟨hq, hq'⟩ := hgate.resolve_left (by simp)
      have hq0 : ¬ off % 0x100000 % 0x80 = 0 := by simpa using hq
      have hsh' : (decide (0x8 ≤ off % 0x100000 % 0x80) && decide (off % 0x100000 % 0x80 < 0x1C)) = false := by
        rw [Bool.and_eq_false_iff]
        simpa using hq'
      dsimp only
      rw [if_neg hq0, hsh']
      rfl
    | none => rfl

/-- A write of a register without an action changes its fields alone. -/
theorem State.regWrite_plain {off : Nat} (port : Bool) (v : Word) (hl : s.laneWord off = none) (h : acts off = false) :
    s.regWrite port off v = s.plainWrite off v := by
  unfold acts at h
  unfold State.regWrite
  rw [hl]
  dsimp only
  split at h
  · rename_i h1
    rw [if_pos h1, s.lowWrite_plain port v h]
  rename_i h1
  rw [if_neg h1]
  split at h
  · rename_i h2
    rw [if_pos h2, s.timeWrite_plain port v h]
  rename_i h2
  rw [if_neg h2]
  split at h
  · rename_i h3
    rw [if_pos h3, s.ringWrite_plain v h]
  rename_i h3
  rw [if_neg h3]
  split at h
  · rename_i h4
    rw [if_pos h4, s.augWrite_plain port v h]
  rename_i h4
  rw [if_neg h4]
  split at h
  · rename_i h5
    rw [if_pos h5, s.assayWrite_plain v h]
  rename_i h5
  rw [if_neg h5]
  split at h
  · rename_i h6
    rw [if_pos h6, s.schedWrite_plain v h]
  rename_i h6
  rw [if_neg h6]
  split at h
  · rename_i h7
    rw [if_pos h7, s.tilthWrite_plain port v h]
  rename_i h7
  rw [if_neg h7]
  split at h
  · rename_i h8
    rw [dif_pos h8]
    exact s.bedWrite_plain (b := ⟨(off - 0x1000000) / 0x100000, by omega⟩) v h
  · rename_i h8
    rw [dif_neg h8, s.restWrite_plain v h]

theorem State.plainWrite_code {off : Nat} {row : RegRow} (v : Word) (hr : regRow off = some row) (hb : row.bank = 0)
    (hm : isMask off = false) : s.plainWrite off v = s.wr off (row.written (s.rd off) (clampReg off v)) := by
  unfold State.plainWrite State.codeWrite
  simp [hr, hb, hm]

theorem State.plainWrite_mask {off : Nat} {row : RegRow} (v : Word) (hr : regRow off = some row) (hb : row.bank = 0)
    (hm : isMask off = true) : s.plainWrite off v = s.maskWrite (off - 4) v row.rw := by
  unfold State.plainWrite
  simp [hr, hb, hm]

/-- No counter and no mask is a region's generation. -/
theorem notGen_plain {off : Nat} (h : isCounter off = true ∨ isMask off = true) : notGen off := by
  have hall : ((List.range 0x44).all fun k => !isCounter (0x404000 + k) && !isMask (0x404000 + k)) = true := by decide +kernel
  unfold notGen
  refine Decidable.byContradiction fun hn => ?_
  have hk := List.all_eq_true.1 hall (off - 0x404000) (List.mem_range.2 (by omega))
  rw [show 0x404000 + (off - 0x404000) = off by omega] at hk
  obtain h | h := h
  · rw [h] at hk
    exact absurd hk (by simp)
  · rw [h] at hk
    exact absurd hk (by simp)

/-- A register that is written through reads what its unit left, unless it is a region's generation. -/
theorem State.rd_writeThrough_self (t : State) {off : Nat} (h : notGen off) (hlt : off < bankSpan + 0x1000000) :
    (s.writeThrough t off).rd off = t.rd off := by
  refine State.writeThrough_rd s t h ?_
  unfold bankSpan at hlt ⊢
  omega

theorem counter_write (addr : BitVec 26) (v : Word) (row : RegRow) (hc : isCounter addr.toNat = true) (hs : s.serves addr.toNat)
    (hl : s.laneWord addr.toNat = none) (hr : regRow addr.toNat = some row) :
    s.completes (.counterWrite addr v) fun t => t.rd addr.toNat = row.written (s.rd addr.toNat) (clampReg addr.toNat v) := by
  obtain ⟨hacts, hmask, hbank⟩ := isCounter_plain hc hr
  have hx : exec (.counterWrite addr v) s = .next (s.cfg addr.toNat fun s => s.regWrite false addr.toNat v) := by
    rw [exec_counterWrite, execCounterWrite]
    exact congrArg _ (if_pos hc)
  refine State.completes_through hx hs ?_
  rw [s.regWrite_plain false v hl hacts, s.plainWrite_code v hr hbank hmask, State.answer_rd,
    s.rd_writeThrough_self _ (notGen_plain (.inl hc)) (by have := addr.isLt; unfold bankSpan; omega), State.rd_wr_same]

theorem State.writeThrough_evWait (t : State) (off : Nat) : (s.writeThrough t off).evWait = t.evWait := by
  obtain ⟨regs, rules, entries, h⟩ := State.writeThrough_same s t off
  rw [h]

/-- What a mask's write does: the mask takes the value, and a status bit that it uncovers waits to be sent. -/
theorem State.maskWrite_spec (evt : Nat) (v rw : Word) : (s.maskWrite evt v rw).rd (evt + 4) = v &&& rw ∧
    sget (fun _ => 0) (s.maskWrite evt v rw).evWait evt = sget (fun _ => 0) s.evWait evt |||
      (s.rd evt &&& s.rd (evt + 4) &&& ~~~v &&& rw) := by
  unfold State.maskWrite
  extract_lets due t
  split
  · rename_i h
    have hdue : s.rd evt &&& s.rd (evt + 4) &&& ~~~v &&& rw = 0 := h
    rw [hdue]
    exact ⟨State.rd_wr_same _ _ _, by simp [t]⟩
  · refine ⟨State.rd_wr_same _ _ _, ?_⟩
    dsimp only
    rw [sget_smod, if_pos rfl]
    simp [t, due]

theorem mask_write (evt : BitVec 26) (v : Word) (row : RegRow) (hm : isMask (evt.toNat + 4) = true) (hs : s.serves (evt.toNat + 4))
    (hl : s.laneWord (evt.toNat + 4) = none) (hr : regRow (evt.toNat + 4) = some row) :
    s.completes (.evtMaskClear evt v) fun t => t.rd (evt.toNat + 4) = v &&& row.rw ∧
      sget (fun _ => 0) t.evWait evt.toNat = sget (fun _ => 0) s.evWait evt.toNat |||
        (s.rd evt.toNat &&& s.rd (evt.toNat + 4) &&& ~~~v &&& row.rw) := by
  obtain ⟨hacts, hbank⟩ := isMask_plain hm hr
  have hx : exec (.evtMaskClear evt v) s = .next (s.cfg (evt.toNat + 4) fun s => s.regWrite false (evt.toNat + 4) v) := by
    rw [exec_evtMaskClear, execEvtMaskClear]
    exact congrArg _ (if_pos hm)
  obtain ⟨hrd, hwait⟩ := s.maskWrite_spec evt.toNat v row.rw
  refine State.completes_through hx hs ?_
  rw [s.regWrite_plain false v hl hacts, s.plainWrite_mask v hr hbank hm, Nat.add_sub_cancel, State.answer_rd,
    s.rd_writeThrough_self _ (notGen_plain (.inr hm)) (by have := evt.isLt; unfold bankSpan; omega), hrd]
  refine ⟨rfl, ?_⟩
  have he : ((s.writeThrough (s.maskWrite evt.toNat v row.rw) (evt.toNat + 4)).answer false 0).evWait =
      (s.maskWrite evt.toNat v row.rw).evWait := by simp [State.writeThrough_evWait]
  rw [he, hwait]

theorem register_write (addr : BitVec 26) (v : Word) (ha : addr.toNat % 4 = 0) (hs : s.serves addr.toNat) :
    s.completes (.registerWrite addr v 0xF) fun t => t.outbox.head? = some (.busResponse false 0) := by
  have hx : exec (.registerWrite addr v 0xF) s = .next (s.cfg addr.toNat fun s => s.regWrite false addr.toNat v) := by
    rw [exec_registerWrite, execRegisterWrite, if_neg (by simp [ha])]
  exact State.completes_through hx hs rfl

theorem register_write_error (addr : BitVec 26) (v : Word) (be : BitVec 4) (ha : be ≠ 0xF ∨ addr.toNat % 4 ≠ 0) (hh : s.hostOn = true) :
    s.completes (.registerWrite addr v be) fun t => t = { s with outbox := .busResponse true 0 :: s.outbox } := by
  have hx : exec (.registerWrite addr v be) s = .next (s.answer true 0) := by
    rw [exec_registerWrite, execRegisterWrite, if_pos (by simpa using ha), hh, if_pos rfl]
  exact State.completes_of hx rfl

theorem register_write_fields (addr : BitVec 26) (v : Word) (row : RegRow)
    (ha : addr.toNat = offBlkEvt ∨ addr.toNat = offBlkEvtRoute ∨ addr.toNat = offTierPrefetchAhead ∨ addr.toNat = offWakeStatus)
    (hs : s.serves addr.toNat) (hr : regRow addr.toNat = some row) :
    s.completes (.registerWrite addr v 0xF) fun t => t.rd addr.toNat = row.written (s.rd addr.toNat) (clampReg addr.toNat v) := by
  have hall : ∀ x ∈ [offBlkEvt, offBlkEvtRoute, offTierPrefetchAhead, offWakeStatus], acts x = false ∧ isMask x = false ∧
      (regRow x).all (·.bank == 0) = true ∧ x % 4 = 0 ∧ (x < 0x404000 ∨ 0x404044 ≤ x) ∧ (x < 0x490000 ∨ 0x4D0000 ≤ x) ∧
      x < 0x1000000 := by decide +kernel
  obtain ⟨hacts, hmask, hbank, halign, hgen, hlane, hlow⟩ := hall addr.toNat (by simpa using ha)
  have hl : s.laneWord addr.toNat = none := by
    unfold State.laneWord
    rw [if_neg (by omega), if_neg (by omega)]
  rw [hr] at hbank
  have hx : exec (.registerWrite addr v 0xF) s = .next (s.cfg addr.toNat fun s => s.regWrite false addr.toNat v) := by
    rw [exec_registerWrite, execRegisterWrite, if_neg (by simp [halign])]
  refine State.completes_through hx hs ?_
  rw [s.regWrite_plain false v hl hacts, s.plainWrite_code v hr (by simpa using hbank) hmask, State.answer_rd,
    s.rd_writeThrough_self _ hgen (by unfold bankSpan; omega), State.rd_wr_same]

/-! ## Event records -/

theorem event_record (evt : BitVec 26) (hh : s.hostOn = true) (hw : sget (fun _ => 0) s.evWait evt.toNat ≠ 0)
    (hr : s.ringState (1024 + s.rdf (evt.toNat + 8) 7 0) = 1)
    (hroom : cntDiff (s.cons (1024 + s.rdf (evt.toNat + 8) 7 0)) (s.seen (1024 + s.rdf (evt.toNat + 8) 7 0)) <
      s.ringSize (1024 + s.rdf (evt.toNat + 8) 7 0)) :
    s.completes (.eventRecordSend evt) fun t => sget (fun _ => 0) t.evWait evt.toNat = 0 ∧
      t.cons (1024 + s.rdf (evt.toNat + 8) 7 0) = (s.cons (1024 + s.rdf (evt.toNat + 8) 7 0) + 1) % 2 ^ 32 ∧
      t.rdb (offVecStatus (s.rdf (evt.toNat + 8) 7 0)) 25 = true ∧ t.outbox.length = s.outbox.length + 1 := by
  generalize hv : s.rdf (evt.toNat + 8) 7 0 = v at hr hroom ⊢
  let o : Output := .eventWrite (s.entryAddr (1024 + v) (s.cons (1024 + v)))
    [w32 (b2n (s.cons (1024 + v) / s.ringSize (1024 + v) % 2 = 0) * 2 ^ 31 + evt.toNat / 4 % 2 ^ 24),
      sget (fun _ => 0) s.evWait evt.toNat, w32 (s.cons (1024 + v)), 0]
  let u := (((s.emit o).wr (rgCons (1024 + v)) (w32 (s.cons (1024 + v) + 1))).wrb (rgStatus (1024 + v)) 24 false).setPending v
  have hu : u = (((s.emit o).wr (rgCons (1024 + v)) (w32 (s.cons (1024 + v) + 1))).wrb (rgStatus (1024 + v)) 24 false).setPending v := rfl
  have hx : exec (.eventRecordSend evt) s = .next { u with evWait := sset (fun _ => 0) u.evWait evt.toNat 0 } := by
    have hcond : (s.hostOn && sget (fun _ => 0) s.evWait evt.toNat != 0) = true := by
      rw [hh, Bool.true_and]
      exact bne_iff_ne.2 hw
    rewrite [exec_eventRecordSend, execEventRecordSend, if_pos hcond, State.eventRecord, hv, if_pos (by rw [hr]; simpa using hroom)]
    rfl
  have hrd : ∀ x, ({ u with evWait := sset (fun _ => 0) u.evWait evt.toNat 0 } : State).rd x = u.rd x := fun x => State.rd_of_regs rfl x
  have hcons : u.rd (rgCons (1024 + v)) = w32 (s.cons (1024 + v) + 1) := by
    rw [hu, State.setPending, ← rgStatus_vec, State.rd_wrb_ne _ _ _ (by simp [rgCons, rgStatus]),
      State.rd_wrb_ne _ _ _ (by simp [rgCons, rgStatus]), State.rd_wr_same]
  refine State.completes_of hx ⟨?_, ?_, ?_, ?_⟩
  · dsimp only
    rw [sget_sset, if_pos rfl]
  · rw [State.cons, hrd, hcons]
    simp [w32]
  · rw [State.rdb, hrd, hu, State.setPending, State.wrb, State.rd_wr_same]
    simp [bit_setBit]
  · have hout : u.outbox = o :: s.outbox := by simp [hu, State.setPending, State.emit]
    exact (congrArg List.length hout).trans List.length_cons

end Sys2Proof.Machine
end

section
/-! SUPPORT. Telemetry's intervals and its archive rings (R304 to R314). -/

set_option Elab.async false

namespace Sys2Proof.Machine

variable (s : State)

/-! ## Intervals -/

/-- Opening the interval of now adds at most one interval behind those that are open. -/
theorem State.telOpen_eq : ∃ e : Tel, s.telOpen = { s with tel := e } ∧
    (e.opened = s.tel.opened ∨ ∃ i, e.opened = s.tel.opened ++ [i]) := by
  unfold State.telOpen
  dsimp only
  split
  · exact ⟨s.tel, rfl, .inl rfl⟩
  · split
    · exact ⟨s.tel, rfl, .inl rfl⟩
    · exact ⟨_, rfl, .inr ⟨_, rfl⟩⟩

theorem State.telNow_congr {s t : State} (hr : t.regs = s.regs) (hn : t.now = s.now) (ht : t.time = s.time) :
    t.tbNow t.telTb = s.tbNow s.telTb := by
  have htb : t.telTb = s.telTb := by rw [State.telTb, State.telTb, State.rdf, State.rdf, State.rd_of_regs hr]
  have hrun : ∀ k, t.tbRun k = s.tbRun k := fun k => by rw [State.tbRun, State.tbRun, State.rdb, State.rdb, State.rd_of_regs hr]
  have hbase : ∀ k, t.tb k = s.tb k := fun k => by rw [State.tb, State.tb, ht]
  simp only [State.tbNow, htb, hrun, hbase, hn]

/-- The time that the intervals follow does not rest on the intervals. -/
theorem State.telNow_tel (e : Tel) : ({ s with tel := e } : State).tbNow ({ s with tel := e } : State).telTb = s.tbNow s.telTb :=
  State.telNow_congr rfl rfl rfl

/-- The front interval and what stands behind it, once the interval of now is open. -/
theorem State.telOpen_front {v : TelInterval} {rest : List TelInterval} (h : s.tel.opened = v :: rest) :
    ∃ (e : Tel) (rest' : List TelInterval), s.telOpen = { s with tel := e } ∧ e.opened = v :: rest' := by
  obtain ⟨e, he, ho | ⟨i, ho⟩⟩ := s.telOpen_eq
  · exact ⟨e, rest, he, ho.trans h⟩
  · exact ⟨e, rest ++ [i], he, by rw [ho, h, List.cons_append]⟩

/-- The interval of now opened or not, the registers and the front interval are as they were. -/
theorem State.telOpen_ite {v : TelInterval} {rest : List TelInterval} (on : Bool) (h : s.tel.opened = v :: rest) :
    ∃ (e : Tel) (rest' : List TelInterval), (if on then s.telOpen else s) = { s with tel := e } ∧ e.opened = v :: rest' := by
  cases on with
  | true => exact s.telOpen_front h
  | false => exact ⟨s.tel, rest, rfl, h⟩

/-- The class records that an interval ends with. -/
def closeRecs (keys : List Nat) (depth : Nat → Nat) (v : TelInterval) : List (Nat × Option ClassRec) :=
  (keys.foldl (fun m k => smod (fun _ => none) m k fun r => some (r.getD { maxDepth := depth k })) v.recs).map
    fun r => (r.1, r.2.map fun c => { c with endDepth := depth r.1 })

theorem closeRecs_depth (keys : List Nat) (depth : Nat → Nat) (v : TelInterval) :
    ((closeRecs keys depth v).all fun r => r.2.all fun c => c.endDepth == depth r.1) = true := by
  unfold closeRecs
  rw [List.all_map, List.all_eq_true]
  intro r _
  cases hr : r.2 <;> simp [hr]

/-- An interval that has ended, its class records made up. -/
def closedInterval (keys : List Nat) (depth : Nat → Nat) (v : TelInterval) : TelInterval :=
  { v with ended := true, recs := closeRecs keys depth v }

theorem interval_end (v : TelInterval) (rest : List TelInterval) (h : s.tel.opened = v :: rest) (hv : v.ended = false)
    (ht : v.closed = true ∨ v.stop ≤ s.tbNow s.telTb / nsUnit) :
    s.completes .intervalEnd fun t => t.tel.opened.head?.map (·.ended) = some true ∧
      (t.tel.opened.head?.all fun i => i.recs.all fun r => r.2.all fun c =>
        c.endDepth == s.rd2 (offAdmPclassOcc (r.1 / 8) (r.1 % 8) 0)) = true := by
  obtain ⟨e, rest', he, ho⟩ := s.telOpen_ite (s.rdb offTelCtl 31 && s.rdb offTelCtl 29) h
  have hfind : e.opened.findIdx? (fun i => !i.ended && (i.closed || decide (i.stop ≤ s.tbNow s.telTb / nsUnit))) = some 0 := by
    rw [ho, List.findIdx?_cons, if_pos]
    simpa [hv] using ht
  let depth := fun k => s.rd2 (offAdmPclassOcc (k / 8) (k % 8) 0)
  have hdepth : depth = fun k => s.rd2 (offAdmPclassOcc (k / 8) (k % 8) 0) := rfl
  obtain ⟨keys, hx⟩ : ∃ keys, exec .intervalEnd s = .next (if s.rdb offTelCtl 31 && s.rdb offTelCtl 29 then
      State.telOpen { s with tel := { e with opened := closedInterval keys depth v :: rest' } }
      else { s with tel := { e with opened := closedInterval keys depth v :: rest' } }) := by
    rw [exec_intervalEnd, execIntervalEnd]
    dsimp only
    rw [he, s.telNow_tel]
    dsimp only
    rw [hfind]
    dsimp only [State.telMod]
    rw [ho]
    exact ⟨_, rfl⟩
  obtain ⟨e', rest'', he', ho'⟩ := State.telOpen_ite { s with tel := { e with opened := closedInterval keys depth v :: rest' } }
    (s.rdb offTelCtl 31 && s.rdb offTelCtl 29) rfl
  rw [he'] at hx
  refine State.completes_of hx ?_
  dsimp only
  rw [ho']
  exact ⟨rfl, closeRecs_depth keys _ v⟩

/-- An overwrite is marked once; the intervals and what waits for the rings stay. -/
theorem State.telWrap_tel (k cap : Nat) : (s.telWrap k cap).tel.opened = s.tel.opened ∧
    (s.telWrap k cap).tel.classOut = s.tel.classOut := by
  unfold State.telWrap
  split <;> simp

theorem interval_settle (i : TelInterval) (rest : List TelInterval) (h : s.tel.opened = i :: rest) (hi : i.ended = true)
    (ht : i.closed = true ∨ i.stop + 4000 ≤ s.tbNow s.telTb / nsUnit)
    (hr : i.recs.filterMap (fun r => r.2.map fun c => c.words i r.1) ≠ []) (hc : s.classCap ≠ 0) :
    s.completes .intervalSettle fun t => t.tel.opened = rest ∧ t.tel.classOut = s.tel.classOut ++
      [(i.idx, 0, i.recs.filterMap fun r => r.2.map fun c => c.words i r.1)] := by
  have hdue : ¬ (!i.ended || !(i.closed || decide (i.stop + 4000 ≤ s.tbNow s.telTb / nsUnit))) = true := by
    obtain h | h := ht <;> simp [hi, h]
  have hcap : ∀ f, (s.telMod f).classCap = s.classCap := fun f => by
    rw [State.classCap, State.rdf, State.telMod_rd, State.classCap, State.rdf]
  obtain ⟨k, cap, hx⟩ : ∃ k cap, exec .intervalSettle s = .next ((((s.telMod fun e =>
      { e with opened := rest, lastFinal := if i.closed then e.lastFinal else i.stop }).addCnt (offTelCnt 2)
      (i.recs.filterMap fun r => r.2.map fun c => c.words i r.1).length offTelEvt 2).telMod fun e =>
      { e with classOut := e.classOut ++ [(i.idx, 0, i.recs.filterMap fun r => r.2.map fun c => c.words i r.1)] }).telWrap
      k cap) := by
    rw [exec_intervalSettle, execIntervalSettle, h]
    dsimp only
    rw [if_neg hdue, if_neg (by simp [hr, hcap, hc])]
    exact ⟨_, _, rfl⟩
  obtain ⟨hopened, hout⟩ := State.telWrap_tel (((s.telMod fun e =>
      { e with opened := rest, lastFinal := if i.closed then e.lastFinal else i.stop }).addCnt (offTelCnt 2)
      (i.recs.filterMap fun r => r.2.map fun c => c.words i r.1).length offTelEvt 2).telMod fun e =>
      { e with classOut := e.classOut ++ [(i.idx, 0, i.recs.filterMap fun r => r.2.map fun c => c.words i r.1)] }) k cap
  refine State.completes_of hx ?_
  rw [hopened, hout]
  simp

/-! ## The archive rings -/

theorem flow_ack (r : List Word) (rest : List (List Word)) (h : s.tel.flowOut = r :: rest) :
    s.completes (.archiveWriteAck false) fun t => t.tel.flowOut = rest ∧
      sget (fun _ => []) t.tel.flowRing (s.cnt (offTelFlowWr 0) % s.flowCap) = r ∧
      t.cnt (offTelFlowWr 0) = (s.cnt (offTelFlowWr 0) + 1) % cntMod := by
  refine State.completes_of (u := (s.telMod fun e => { e with flowOut := rest,
                                                                             flowRing := sset (fun _ => []) e.flowRing (s.cnt (offTelFlowWr 0) % s.flowCap) r }).setCnt (offTelFlowWr 0)
    (s.cnt (offTelFlowWr 0) + 1)) ?_ ⟨by simp, ?_, State.cnt_setCnt _ _ _⟩
  · rw [exec_archiveWriteAck, execArchiveWriteAck, if_neg (by simp), State.flowAck, h]
  · simp [sget_sset]

theorem class_ack (j last : Nat) (recs : List (List Word)) (rest : List (Nat × Nat × List (List Word)))
    (h : s.tel.classOut = (j, last, recs) :: rest) (hl : recs.length ≤ last + 1) :
    s.completes (.archiveWriteAck true) fun t => t.tel.classOut = rest ∧
      t.cnt (offTelClassWr 0) = (s.cnt (offTelClassWr 0) + recs.length) % cntMod ∧
      t.rd2 (offTelClassLast 0) = j % 2 ^ 64 := by
  refine State.completes_of (u := (((s.telMod fun e =>
    { e with classRing := sset (fun _ => []) e.classRing ((s.cnt (offTelClassWr 0) + last) % s.classCap) (recs.getD last []) }).telMod
    fun e => { e with classOut := rest }).setCnt (offTelClassWr 0) (s.cnt (offTelClassWr 0) + recs.length)).wr2
    (offTelClassLast 0) j) ?_ ⟨by simp [State.wr2], ?_, ?_⟩
  · rw [exec_archiveWriteAck, execArchiveWriteAck, if_pos rfl, State.classAck, h]
    dsimp only
    rw [if_neg (by omega)]
  · have hne : ∀ x ∈ [offTelClassWr 0, offTelClassWr 0 + 4], x ≠ offTelClassLast 0 ∧ x ≠ offTelClassLast 0 + 4 := by decide
    obtain ⟨h0, h1⟩ := hne (offTelClassWr 0) (by simp)
    obtain ⟨g0, g1⟩ := hne (offTelClassWr 0 + 4) (by simp)
    rw [State.wr2, State.cnt_congr (State.rd_wr_ne _ _ h1) (State.rd_wr_ne _ _ g1),
      State.cnt_congr (State.rd_wr_ne _ _ h0) (State.rd_wr_ne _ _ g0), State.cnt_setCnt]
  · rw [State.wr2, State.rd2, State.rd_wr_ne _ _ (by simp [offTelClassLast]), State.rd_wr_same, State.rd_wr_same]
    simp only [w32, BitVec.toNat_ofNat]
    omega

end Sys2Proof.Machine
end

section
/-! SUPPORT. What the commands of telemetry, event records and plain registers do. -/

set_option Elab.async false

namespace Sys2Proof.Machine

/-- Settles O45, clause by clause. -/
theorem telemetryEventsAndRegistersAct : Obligations.TelemetryEventsAndRegistersAct := by
  unfold Obligations.TelemetryEventsAndRegistersAct
  intro s
  exact ⟨interval_end s, interval_settle s, flow_ack s, class_ack s, event_record s, mask_write s, counter_write s, register_write s,
    register_write_error s, register_write_fields s⟩

end Sys2Proof.Machine
end

section
/-! SUPPORT. What counting a MAC statistic leaves, and what a port's number rests on (R126, R447). -/

set_option Elab.async false

namespace Sys2Proof.Machine

/-- Among the registers that counting a statistic of a network port leaves as they are. -/
def offStat (b p x : Nat) : Prop := (x < offStatCnt b p 0 ∨ offStatCnt b p 0 + 0x418 ≤ x) ∧ x ≠ offMacEvt b p

theorem offStat_low {b p x : Nat} (h : x < 0x1020000) : offStat b p x := by
  simp only [offStat, offStatCnt, offMacEvt]
  omega

variable (s : State)

theorem State.rd_stat_ne {b p i : Nat} (n : Nat) {x : Nat} (hi : i < 64) (h : offStat b p x) : (s.stat b p i n).rd x = s.rd x := by
  obtain ⟨hout, hevt⟩ := h
  simp only [offStatCnt] at hout
  have hcnt : x ≠ offStatCnt b p i ∧ x ≠ offStatCnt b p i + 4 := by simp only [offStatCnt]; omega
  have hhalf : x ≠ offStatHalf b p 0 + 4 * (i / 32) := by simp only [offStatHalf]; omega
  have hwrap : x ≠ offStatWrap b p 0 + 4 * (i / 32) := by simp only [offStatWrap]; omega
  unfold State.stat State.statAt
  extract_lets old new t u
  have ht : t.rd x = s.rd x := s.rd_setCnt_ne _ hcnt.1 hcnt.2
  have hu : u.rd x = s.rd x := by
    unfold u
    split
    · rw [State.rd_raiseEvt_ne _ _ hevt, State.rd_wrb_ne _ _ _ hhalf, ht]
    · exact ht
  split
  · rw [State.rd_raiseEvt_ne _ _ hevt, State.rd_wrb_ne _ _ _ hwrap, hu]
  · exact hu

theorem State.posOf_congr {s t : State} (hp : t.pwr = s.pwr) (hh : t.harm = s.harm) (hst : t.rd offSwapStatus = s.rd offSwapStatus)
    (hr : ∀ x < 0x1000000, t.rd x = s.rd x) (b : Nat) :
    t.posOf b = s.posOf b := by
  have hmap : ∀ kind i, t.mapped kind i = s.mapped kind i := State.mapped_congr hp fun n hn => hr _ (by simp only [offMapRt]; omega)
  simp only [State.posOf, State.homeServes, State.swapServes, State.swapHolds, State.swapState, State.swapPos, State.rdf, hst, hmap, hh]
  rfl

/-- A port's number rests on the swap's status, on what is mapped out and on the swap's record alone. -/
theorem State.portNo_congr {s t : State} (hp : t.pwr = s.pwr) (hh : t.harm = s.harm) (hst : t.rd offSwapStatus = s.rd offSwapStatus)
    (hr : ∀ x < 0x1000000, t.rd x = s.rd x) (m : Nat) : t.portNo m = s.portNo m := by
  rw [State.portNo, State.portNo, State.posN, State.posN, State.posOf_congr hp hh hst hr]

theorem State.pActive_congr {s t : State} {b p : Nat} (h : t.rd (offPortStatus b p) = s.rd (offPortStatus b p)) :
    t.pActive b p = s.pActive b p := by
  rw [State.pActive, State.pActive, State.pState, State.pState, State.rdf, State.rdf, h]

theorem State.mayTransmit_congr {s t : State} {b p : Nat} (h : t.rd (offPortStatus b p) = s.rd (offPortStatus b p))
    (hf : t.rd (offMacFault b p) = s.rd (offMacFault b p)) : t.mayTransmit b p = s.mayTransmit b p := by
  rw [State.mayTransmit, State.mayTransmit, State.pActive_congr h, State.rdf, State.rdf, hf]

end Sys2Proof.Machine
end
section
/-! SUPPORT. The merge sublayer's states and the statistics snapshots (R120, R127). -/

set_option Elab.async false

namespace Sys2Proof.Machine

variable (s : State)

/-! ## The merge state -/

theorem State.rd_mmSet (b p st x : Nat) : (s.mmSet b p st).rd x =
    if x = offMacMmStatus b p then setBit 28 (st == 2 || st == 4) (setFld 31 29 st (s.rd (offMacMmStatus b p))) else s.rd x := by
  rw [State.mmSet, State.macMod_rd, State.rd_wrb, State.rd_wrf, State.rd_wrf]
  by_cases h : x = offMacMmStatus b p <;> simp [h]

theorem State.mmState_mmSet (b p : Nat) {st : Nat} (h : st < 8) : (s.mmSet b p st).mmState b p = st := by
  rw [State.mmState, State.rdf, State.rd_mmSet, if_pos rfl, fld_setBit_ne 31 29 28 _ _ (by omega) (by omega),
    fld_setFld 31 29 st _ (by omega) (by omega)]
  omega

theorem State.preempting_mmSet (b p st : Nat) : (s.mmSet b p st).preempting b p = (st == 2 || st == 4) := by
  rw [State.preempting, State.rdb, State.rd_mmSet, if_pos rfl, bit_setBit 28 28 _ _ (by omega), if_pos rfl]

/-- Where a verify frame that is sent may leave its trace: the statistics, their event, and the gate's wire. -/
theorem State.rd_mmSend {b p x : Nat} (r : Bool) (h : offStat b p x) : (s.mmSend b p r).rd x = s.rd x := by
  unfold State.mmSend
  split
  · rw [State.wireControl, State.wireTake]
    exact ((State.rd_of_regs rfl x).trans (State.rd_stat_ne _ _ (by omega) h)).trans rfl
  · rfl

/-- The registers of a MAC and of its port, and what its number rests on, are apart from its statistics. -/
theorem offStat_mac (b : BedIx) (p : LocalIx) : ∀ x ∈ [offMacMmStatus b p, offMacMmCtl b p, offMacCtl b p, offMacFault b p,
    offPortStatus b p, offSwapStatus], offStat b p x := by
  have hb := b.isLt
  have hp := p.isLt
  intro x hx
  simp only [List.mem_cons, List.not_mem_nil, or_false] at hx
  simp only [offStat, offStatCnt, offMacEvt, offMacMmStatus, offMacMmCtl, offMacCtl, offMacFault, offPortStatus, offSwapStatus] at hx ⊢
  omega

theorem State.rd_mmTimer (b p x : Nat) : (s.mmTimer b p).rd x = s.rd x := rfl

theorem State.rd_mmVerifying (b : BedIx) (p : LocalIx) : (s.mmVerifying b p).rd (offMacMmStatus b p) =
    setFld 19 16 1 (setBit 28 false (setFld 31 29 1 (s.rd (offMacMmStatus b p)))) := by
  rw [State.mmVerifying, State.rd_mmTimer, State.rd_mmSend _ _ (offStat_mac b p _ (by simp)), State.rd_wrf_same, State.rd_mmSet,
    if_pos rfl]
  rfl

theorem State.mmVerifying_state (b : BedIx) (p : LocalIx) : (s.mmVerifying b p).mmState b p = 1 ∧ (s.mmVerifying b p).preempting b p = false ∧
    (s.mmVerifying b p).rdf (offMacMmStatus b p) 19 16 = 1 ∧
    (s.mmVerifying b p).timerOn (.mmVerify (16 * b.val + p.val)) = true := by
  refine ⟨?_, ?_, ?_, State.timerOn_startTimer _ _ _⟩
  · rewrite [State.mmState, State.rdf, s.rd_mmVerifying, fld_setFld_ne 19 16 31 29 _ _ (by omega) (by omega) (by omega),
      fld_setBit_ne 31 29 28 _ _ (by omega) (by omega), fld_setFld 31 29 1 _ (by omega) (by omega)]
    rfl
  · rw [State.preempting, State.rdb, s.rd_mmVerifying, bit_setFld 19 16 _ 28 _ (by omega) (by omega), if_neg (by omega),
      bit_setBit 28 28 _ _ (by omega), if_pos rfl]
  · rewrite [State.rdf, s.rd_mmVerifying, fld_setFld 19 16 1 _ (by omega) (by omega)]
    rfl

theorem merge_start (b : BedIx) (p : LocalIx) (hm : s.mmState b p = 0) (hen : s.rdb (offMacMmCtl b p) 31 = true)
    (ha : s.pActive b p = true) :
    s.completes (.mergeVerifyStart b p) fun t => t.mmState b p = (if s.rdb (offMacMmCtl b p) 30 then 1 else 4) ∧
      t.preempting b p = !s.rdb (offMacMmCtl b p) 30 := by
  have hx : exec (.mergeVerifyStart b p) s =
      .next (if s.rdb (offMacMmCtl b p) 30 then s.mmVerifying b p else s.mmSet b p 4) := by
    rw [exec_mergeVerifyStart, execMergeVerifyStart, if_pos (by simp [hm, hen, ha])]
  refine State.completes_of hx ?_
  cases s.rdb (offMacMmCtl b p) 30 with
  | true =>
    obtain ⟨hst, hpre, -⟩ := s.mmVerifying_state b p
    exact ⟨hst, hpre⟩
  | false => exact ⟨s.mmState_mmSet b p (by omega), s.preempting_mmSet b p 4⟩

theorem merge_respond (b : BedIx) (p : LocalIx) (hm : s.mmState b p = 1) (ha : s.pActive b p = true)
    (hen : s.rdb (offMacCtl b p) 31 = true) :
    s.completes (.mergeRespondReceive b p) fun t => t.mmState b p = 2 ∧ t.preempting b p = true ∧
      t.rdb (offMacEvt b p) 1 = true ∧ t.timerOn (.mmVerify (16 * b.val + p.val)) = false := by
  let u := s.stat b p 31 1
  have hu : u = s.stat b p 31 1 := rfl
  have hrd : ∀ x ∈ [offMacMmStatus b p, offMacMmCtl b p, offMacCtl b p, offMacFault b p, offPortStatus b p, offSwapStatus],
      u.rd x = s.rd x := fun x hx => s.rd_stat_ne _ (by omega) (offStat_mac b p x hx)
  have hm' : u.mmState b p = 1 := by rw [State.mmState, State.rdf, hrd _ (by simp)]; exact hm
  have hen' : u.rdb (offMacCtl b p) 31 = true := by rw [State.rdb, hrd _ (by simp)]; exact hen
  have hx : exec (.mergeRespondReceive b p) s =
      .next (((u.mmSet b p 2).stopTimer (.mmVerify (16 * b.val + p.val))).raiseEvt (offMacEvt b p) 1) := by
    rw [exec_mergeRespondReceive, execMergeRespondReceive, State.mmReceive, ha, if_neg (by simp)]
    dsimp only
    rw [← hu, if_pos hen', if_pos hm']
  have hne : offMacMmStatus b p ≠ offMacEvt b p := by simp only [offMacMmStatus, offMacEvt]; omega
  have hst : ((((u.mmSet b p 2).stopTimer (.mmVerify (16 * b.val + p.val))).raiseEvt (offMacEvt b p) 1).rd (offMacMmStatus b p)) =
      (u.mmSet b p 2).rd (offMacMmStatus b p) := by rw [State.rd_raiseEvt_ne _ _ hne, State.stopTimer_rd]
  refine State.completes_of hx ⟨?_, ?_, State.rdb_raiseEvt _ _ _ (by omega), ?_⟩
  · rw [State.mmState, State.rdf, hst]
    exact u.mmState_mmSet b p (by omega)
  · rw [State.preempting, State.rdb, hst]
    exact u.preempting_mmSet b p 2
  · rw [State.timerOn_congr (State.raiseEvt_fields _ _ _).2.2.2.2.1]
    exact State.timerOn_stopTimer _ _

theorem merge_retry (b : BedIx) (p : LocalIx) (hm : s.mmState b p = 1) (ht : s.timerOn (.mmVerify (16 * b.val + p.val)) = true)
    (hn : s.rdf (offMacMmStatus b p) 19 16 < max 1 (s.rdf (offMacMmCtl b p) 15 12)) :
    s.completes (.mergeVerifyTimeout b p) fun t => t.mmState b p = 1 ∧
      t.rdf (offMacMmStatus b p) 19 16 = s.rdf (offMacMmStatus b p) 19 16 + 1 := by
  have hx : exec (.mergeVerifyTimeout b p) s = .next (((s.wrf (offMacMmStatus b p) 19 16
      (s.rdf (offMacMmStatus b p) 19 16 + 1)).mmSend b p false).mmTimer b p) := by
    rw [exec_mergeVerifyTimeout, execMergeVerifyTimeout]
    rw [if_pos (by simp [hm, ht]), if_pos hn]
  have hlt : s.rdf (offMacMmCtl b p) 15 12 < 16 := fld_lt 15 12 _
  refine State.completes_of hx ⟨?_, ?_⟩
  · rw [State.mmState, State.rdf, State.rd_mmTimer, State.rd_mmSend _ _ (offStat_mac b p _ (by simp)), State.rd_wrf_same,
      fld_setFld_ne 19 16 31 29 _ _ (by omega) (by omega) (by omega)]
    exact hm
  · rw [State.rdf, State.rd_mmTimer, State.rd_mmSend _ _ (offStat_mac b p _ (by simp)), State.rd_wrf_same,
      fld_setFld 19 16 _ _ (by omega) (by omega)]
    exact Nat.mod_eq_of_lt (by omega)

theorem merge_fail (b : BedIx) (p : LocalIx) (hm : s.mmState b p = 1) (ht : s.timerOn (.mmVerify (16 * b.val + p.val)) = true)
    (hn : max 1 (s.rdf (offMacMmCtl b p) 15 12) ≤ s.rdf (offMacMmStatus b p) 19 16) :
    s.completes (.mergeVerifyTimeout b p) fun t => t.mmState b p = 3 ∧ t.preempting b p = false ∧
      t.rdb (offMacEvt b p) 2 = true := by
  have hx : exec (.mergeVerifyTimeout b p) s =
      .next (((s.mmSet b p 3).stopTimer (.mmVerify (16 * b.val + p.val))).raiseEvt (offMacEvt b p) 2) := by
    rw [exec_mergeVerifyTimeout, execMergeVerifyTimeout]
    rw [if_pos (by simp [hm, ht]), if_neg (by omega)]
  have hne : offMacMmStatus b p ≠ offMacEvt b p := by simp only [offMacMmStatus, offMacEvt]; omega
  refine State.completes_of hx ⟨?_, ?_, State.rdb_raiseEvt _ _ _ (by omega)⟩
  · rw [State.mmState, State.rdf, State.rd_raiseEvt_ne _ _ hne, State.stopTimer_rd]
    exact s.mmState_mmSet b p (by omega)
  · rw [State.preempting, State.rdb, State.rd_raiseEvt_ne _ _ hne, State.stopTimer_rd]
    exact s.preempting_mmSet b p 3

theorem clampsOf_mmCtl : ∀ (b : Fin 17) (p : Fin 16), clampsOf (offMacMmCtl b p) = [(15, 12, 1, 15), (7, 0, 1, 128)] := by decide +kernel

theorem merge_restart (b : BedIx) (p : LocalIx) (v : Word) (hs : s.serves (offMacMmCtl b p)) (hv : bit 31 v = true)
    (hm : s.mmState b p = 3) (ha : s.pActive b p = true) :
    s.completes (.mergeVerifyRestart b p v) fun t => t.mmState b p = 1 ∧ t.rdf (offMacMmStatus b p) 19 16 = 1 ∧
      t.timerOn (.mmVerify (16 * b.val + p.val)) = true := by
  have hb := b.isLt
  have hp := p.isLt
  have hclamp : ∀ i, 15 < i → i < 32 → bit i (clampReg (offMacMmCtl b p) (setBit 29 true v)) = bit i (setBit 29 true v) := by
    intro i h h32
    rw [clampReg_eq, clampsOf_mmCtl b p]
    simp only [List.foldl_cons, List.foldl_nil]
    rw [bit_clampField_ne _ _ _ (by simp) h32 (by simp; omega), bit_clampField_ne _ _ _ (by simp) h32 (by simp; omega)]
  have hen : bit 31 (clampReg (offMacMmCtl b p) (setBit 29 true v)) = true := by
    rw [hclamp 31 (by omega) (by omega), bit_setBit 29 31 _ _ (by omega), if_neg (by omega), hv]
  have hre : bit 29 (clampReg (offMacMmCtl b p) (setBit 29 true v)) = true := by
    rw [hclamp 29 (by omega) (by omega), bit_setBit 29 29 _ _ (by omega), if_pos rfl]
  let u := s.wr (offMacMmCtl b p) (clampReg (offMacMmCtl b p) (setBit 29 true v) &&& 0xC0FFF3FF)
  have hu : u = s.wr (offMacMmCtl b p) (clampReg (offMacMmCtl b p) (setBit 29 true v) &&& 0xC0FFF3FF) := rfl
  have hm' : u.mmState b p = 3 := by
    rw [State.mmState, State.rdf, hu, State.rd_wr_ne _ _ (by simp only [offMacMmStatus, offMacMmCtl]; omega)]
    exact hm
  have ha' : u.pActive b p = true := by
    rw [State.pActive_congr (State.rd_wr_ne s _ (by simp only [offPortStatus, offMacMmCtl]; omega))]
    exact ha
  have hx : s.mmCtlWrite b p (setBit 29 true v) = u.mmVerifying b p := by
    unfold State.mmCtlWrite
    dsimp only
    rw [hen, hre, ← hu, hm', ha']
    rfl
  obtain ⟨hst, -, hn, htimer⟩ := u.mmVerifying_state b p
  have hgen : notGen (offMacMmStatus b p) ∧ (offMacMmStatus b p % bankSpan - 0x1000000) / 0x100000 =
      (offMacMmCtl b p - 0x1000000) / 0x100000 := by
    simp only [notGen, bankSpan, offMacMmStatus, offMacMmCtl]
    omega
  refine State.completes_through (by rw [exec_mergeVerifyRestart, execMergeVerifyRestart]) hs ?_
  rw [hx]
  refine ⟨?_, ?_, ?_⟩
  · rw [State.mmState, State.rdf, State.answer_rd, State.writeThrough_rd _ _ hgen.1 (.inr hgen.2)]
    exact hst
  · rw [State.rdf, State.answer_rd, State.writeThrough_rd _ _ hgen.1 (.inr hgen.2)]
    exact hn
  · rw [State.answer_timerOn]
    obtain ⟨regs, rules, entries, h⟩ := State.writeThrough_same s (u.mmVerifying b p) (offMacMmCtl b p)
    rw [h]
    exact htimer

theorem merge_verify (b : BedIx) (p : LocalIx) (ha : s.pActive b p = true) (hen : s.rdb (offMacCtl b p) 31 = true)
    (hmm : s.rdb (offMacMmCtl b p) 31 = true) (hf : s.rdf (offMacFault b p) 31 30 = 0) :
    s.completes (.mergeVerifyFrameReceive b p) fun t =>
      t.outbox = .mergeVerify (s.portNo (16 * b.val + p.val)) true :: s.outbox := by
  let u := s.stat b p 31 1
  have hu : u = s.stat b p 31 1 := rfl
  have hrd : ∀ x ∈ [offMacMmStatus b p, offMacMmCtl b p, offMacCtl b p, offMacFault b p, offPortStatus b p, offSwapStatus],
      u.rd x = s.rd x := fun x hx => s.rd_stat_ne _ (by omega) (offStat_mac b p x hx)
  have hen' : u.rdb (offMacCtl b p) 31 = true := by rw [State.rdb, hrd _ (by simp)]; exact hen
  have hmm' : u.rdb (offMacMmCtl b p) 31 = true := by rw [State.rdb, hrd _ (by simp)]; exact hmm
  have hmay : u.mayTransmit b p = true := by
    rw [State.mayTransmit_congr (hrd _ (by simp)) (hrd _ (by simp)), State.mayTransmit, ha, hf]
    rfl
  have hno : u.portNo (16 * b.val + p.val) = s.portNo (16 * b.val + p.val) :=
    State.portNo_congr (by simp [hu]) (by simp [hu]) (hrd _ (by simp))
      (fun x hx => s.rd_stat_ne _ (by omega) (offStat_low (by omega))) _
  have hx : exec (.mergeVerifyFrameReceive b p) s = .next (u.mmSend b p true) := by
    rw [exec_mergeVerifyFrameReceive, execMergeVerifyFrameReceive, State.mmReceive, ha, if_neg (by simp)]
    dsimp only
    rw [← hu, if_pos hen', if_pos hmm']
  refine State.completes_of hx ?_
  rw [State.mmSend, if_pos hmay, hno]
  have hout : u.outbox = s.outbox := by simp [hu]
  simp only [State.wireControl, State.wireTake, State.gateMod, State.gatesMod, State.stat_fields, State.emit, hout]

/-! ## Snapshots -/

theorem State.rd_snap (m : Nat) (clear : Bool) (i : Nat) (hi : i < 128) :
    (s.snap m clear).rd (macStatBase m + 0x200 + 4 * i) = s.rd (macStatBase m + 4 * i) ∧
      (s.snap m clear).rd (macStatBase m + 4 * i) = if clear then 0 else s.rd (macStatBase m + 4 * i) := by
  unfold State.snap
  generalize macStatBase m = base
  dsimp only
  have hlen : (s.rds base 128).length = 128 := by simp [State.rds]
  have hbank : (s.wrs (base + 0x200) (s.rds base 128)).rd (base + 0x200 + 4 * i) = s.rd (base + 4 * i) := by
    rw [State.rd_wrs _ _ _ (by omega)]
    simp [State.rds]
  cases clear with
  | true =>
    rw [if_pos rfl, if_pos rfl, State.rd_wrs_ne _ _ _ (by rw [List.length_replicate]; omega), hbank,
      State.rd_wrs _ _ _ (by rw [List.length_replicate]; omega), List.getElem_replicate]
    exact ⟨rfl, rfl⟩
  | false =>
    rw [if_neg (by decide), if_neg (by decide), hbank, State.rd_wrs_ne _ _ _ (by omega)]
    exact ⟨rfl, rfl⟩

/-- The statistics of a MAC and its command stand together in one window. -/
theorem macStat_place (m : MacId) {n : Nat} (hn : n < 0x400) : notGen (macStatBase (macKey m) + n) ∧
    ((macStatBase (macKey m) + n) % bankSpan < 0x1000000 ∨
      ((macStatBase (macKey m) + n) % bankSpan - 0x1000000) / 0x100000 = (macStatBase (macKey m) + 0x400 - 0x1000000) / 0x100000) := by
  cases m with
  | net b p =>
    have hb := b.isLt
    have hp := p.isLt
    have hkey : macKey (.net b p) = 16 * b.val + p.val := rfl
    have hne : ¬ 16 * b.val + p.val = mgmtMac := by unfold mgmtMac; omega
    have hbase : macStatBase (macKey (.net b p)) = 0x1080000 + 0x100000 * b.val + 0x800 * p.val := by
      rw [hkey, macStatBase, if_neg hne, offStatCnt]
      omega
    simp only [hbase, notGen, bankSpan]
    omega
  | mgmt =>
    have hbase : macStatBase (macKey .mgmt) = 0x808000 := rfl
    simp only [hbase, notGen, bankSpan]
    omega

theorem stat_snap (m : MacId) (hs : s.serves (macStatBase (macKey m) + 0x400)) :
    s.completes (.statSnap m) fun t => ∀ i : Fin 128,
      t.rd (macStatBase (macKey m) + 0x200 + 4 * i.val) = s.rd (macStatBase (macKey m) + 4 * i.val) ∧
      t.rd (macStatBase (macKey m) + 4 * i.val) = s.rd (macStatBase (macKey m) + 4 * i.val) := by
  refine State.completes_through (by rw [exec_statSnap, execStatSnap]) hs fun i => ?_
  obtain ⟨hg1, hw1⟩ := macStat_place m (n := 0x200 + 4 * i.val) (by omega)
  obtain ⟨hg0, hw0⟩ := macStat_place m (n := 4 * i.val) (by omega)
  rw [← Nat.add_assoc] at hg1 hw1
  rw [State.answer_rd, State.answer_rd, State.writeThrough_rd _ _ hg1 hw1, State.writeThrough_rd _ _ hg0 hw0]
  exact s.rd_snap _ false i.val i.isLt

theorem stat_snap_clear (m : MacId) (hs : s.serves (macStatBase (macKey m) + 0x400)) :
    s.completes (.statSnapClear m) fun t => ∀ i : Fin 128,
      t.rd (macStatBase (macKey m) + 0x200 + 4 * i.val) = s.rd (macStatBase (macKey m) + 4 * i.val) ∧
      t.rd (macStatBase (macKey m) + 4 * i.val) = 0 := by
  refine State.completes_through (by rw [exec_statSnapClear, execStatSnapClear]) hs fun i => ?_
  obtain ⟨hg1, hw1⟩ := macStat_place m (n := 0x200 + 4 * i.val) (by omega)
  obtain ⟨hg0, hw0⟩ := macStat_place m (n := 4 * i.val) (by omega)
  rw [← Nat.add_assoc] at hg1 hw1
  rw [State.answer_rd, State.answer_rd, State.writeThrough_rd _ _ hg1 hw1, State.writeThrough_rd _ _ hg0 hw0]
  exact s.rd_snap _ true i.val i.isLt

/-- Settles O33, clause by clause. -/
theorem mergeAndSnapshotsAct : Obligations.MergeAndSnapshotsAct := by
  unfold Obligations.MergeAndSnapshotsAct
  intro s b p
  exact ⟨merge_start s b p, merge_respond s b p, merge_retry s b p, merge_fail s b p, merge_restart s b p, merge_verify s b p,
    stat_snap s, stat_snap_clear s⟩

end Sys2Proof.Machine
end

section
/-! SUPPORT. What a fence and a root tick leave: the tilth engines and the security state; without a monitor, all but the gate engines (R43, R264, R442). -/

set_option Elab.async false

namespace Sys2Proof.Machine

/-! ## A fence reaches neither the engines nor the security state -/

/-- The parts of the state that a fence may change: all but the tilth engines and the security state. -/
def quietParts : List Part := allParts.filter fun p => p != .tilth && p != .sec

/-- The swap bed comes up or goes down without a change of the engines or of the security state. -/
theorem State.settleBed16_quiet (s : State) (was : Bool) : Within quietParts s (s.settle 18 was) := by
  have hreset : ∀ u : State, Within quietParts u (u.resetIsland 18) := fun u => (u.resetBed_within 16).mono
  unfold State.settle
  split
  · exact .ite ((State.setIslAt_within _ _ _).mono.trans (State.startTimer_within _ _ _).mono) (.refl _)
  · exact .refl _
  · exact .ite (.refl _) (State.setIslAt_within _ _ _).mono
  · exact .ite ((hreset _).trans (State.setIslAt_within _ _ _).mono) (.refl _)
  · refine .ite ?_ (.refl _)
    rw [State.islandDown, if_neg (by decide), if_neg (by decide), State.toHeld]
    have hheld : Within quietParts s ((s.resetIsland 18).setIslAt 18 .held) := (hreset _).trans (State.setIslAt_within _ _ _).mono
    exact .ite hheld (hheld.trans (State.setIslAt_within _ _ _).mono)

theorem State.bed16Up_quiet (s : State) : Within quietParts s (State.bed16Up s) := by
  unfold State.bed16Up
  exact (((State.wrb_within _ _ _ _).mono).trans ((State.wrb_within _ _ _ _).mono)).trans ((State.settleBed16_quiet _ _).mono)

theorem State.swapOnFence_quiet (s : State) (b) : Within quietParts s (State.swapOnFence s b) := by
  unfold State.swapOnFence
  exact Within.ite (Within.ite ((State.fallowLost_within _).mono) (Within.ite ((State.finishSwap_within _ _).mono)
    (Within.ite ((State.swapAbort_within _ _).mono) (Within.ite ((State.swapAbort_within _ _).mono) (Within.refl _)))))
    (Within.ite ((State.swapAbort_within _ _).mono) (Within.ite ((State.finishSwap_within _ _).mono) (Within.ite
    (((State.setSwap_within _ _).mono).trans ((State.safeEvt_within _ _).mono)) (Within.ite (Within.ite
    ((State.wrf_within _ _ _ _ _).mono) (((State.swapBegin_within _ _ _).mono).trans ((State.bed16Up_quiet _).mono)))
    (Within.refl _)))))

theorem State.fenceBed_quiet (s : State) (b) : Within quietParts s (State.fenceBed s b) := by
  unfold State.fenceBed
  exact Within.ite (Within.refl _) (Within.cut (fun h1 => Within.cut (fun h2 => Within.cut (fun h3 => Within.cut (fun h4 => (h4).trans ((State.swapOnFence_quiet _ _).mono)) ((h3).trans ((State.harmMod_within _ _).mono))) ((by split; exact (h2).trans ((State.emit_within _ _).mono); exact h2))) (((h1).trans ((State.closeTx_within _ _).mono)).trans ((State.wrb_within _ _ _ _).mono))) (((State.fenceFrames_within _ _).mono).trans ((State.fenceCopies_within _ _).mono)))

theorem State.fence_quiet (s : State) (cls) (t) (ports) : Within quietParts s (State.fence s cls t ports) := by
  unfold State.fence
  exact Within.ite (Within.refl _) (Within.ite (Within.foldl (Within.refl _) (fun _ _ => (State.fencePort_within _ _).mono)) ((by split; exact Within.ite ((State.fencePort_within _ _).mono) ((by split; exact (State.fenceBed_quiet _ _).mono; exact (State.fencePort_within _ _).mono)); exact Within.ite ((by split; exact Within.foldl (Within.refl _) (fun _ _ => (State.fencePort_within _ _).mono); exact Within.refl _)) ((State.fenceBed_quiet _ _).mono); exact Within.refl _)))

theorem State.declare_quiet (s : State) (cls) (t) (count) (ports) : Within quietParts s (State.declare s cls t count
    ports) := by
  unfold State.declare
  exact Within.cut (fun h1 => ((h1).trans ((State.harmReport_within _ _).mono)).trans ((State.fence_quiet _ _ _
    _).mono)) ((((State.harmRecord_within _ _ _).mono).trans ((State.safeInc_within _ _ _).mono)).trans
    ((State.safeEvt_within _ _).mono))

theorem State.detectOn_quiet (s : State) (cls) (t) (ports) : Within quietParts s (State.detectOn s cls t ports) := by
  unfold State.detectOn
  exact Within.ite (Within.refl _) (Within.ite ((((State.harmMod_within _ _).mono).trans ((State.stopTimer_within _
    _).mono)).trans ((State.declare_quiet _ _ _ _ _).mono)) (Within.cut (fun h1 => Within.ite (h1) ((h1).trans
    ((State.startTimer_within _ _ _).mono))) ((State.harmMod_within _ _).mono)))

theorem State.detect_quiet (s : State) (cls) (t) : Within quietParts s (State.detect s cls t) := by
  unfold State.detect
  exact (State.detectOn_quiet _ _ _ _).mono

theorem State.gateJudge_quiet (s : State) (b) (p) (w) : Within quietParts s (State.gateJudge s b p w) := by
  unfold State.gateJudge
  exact Within.ite (Within.refl _) (Within.cut (fun h1 => (h1).trans ((State.detect_quiet _ _ _).mono))
    ((((State.inc_within _ _ _ _).mono).trans ((State.raiseEvt_within _ _ _).mono)).trans ((State.pmuOcc_within _ _
    _).mono)))

theorem State.gateWatch_quiet (s : State) (b) (p) : Within quietParts s (State.gateWatch s b p) := by
  unfold State.gateWatch
  exact Within.cut (fun h1 => Within.ite ((h1).trans ((State.gateMod_within _ _ _ _).mono)) (h1)) (Within.ite
    (Within.refl _) (Within.foldl ((State.gateMod_within _ _ _ _).mono) (fun _ _ => (State.gateJudge_quiet _ _ _
    _).mono)))

theorem State.gateTick_quiet (s : State) : Within quietParts s (State.gateTick s) := by
  unfold State.gateTick
  exact Within.foldl (Within.refl _) (fun _ _ => (State.gateWatch_quiet _ _ _).mono)

/-! ## A root tick of the lanes leaves the gate monitors -/

/-- Among the registers that a root tick of the lanes leaves: those of bed windows that are no lane's, and those below the silt lanes. -/
def prbsKept (x : Nat) : Prop := 0x1000000 ≤ x ∧ 0x20000 ≤ x % 0x100000

theorem State.chkTick_rd (s : State) {base x : Nat} (h : x < base + 0x40 ∨ base + 0xA8 ≤ x) : (s.chkTick base).rd x = s.rd x := by
  unfold State.chkTick
  extract_lets n errors t
  have ht : t.rd x = s.rd x := by
    unfold t
    rw [State.rd_addCnt_ne _ _ _ (by omega) (by omega) (by simp only [lnEvt]; omega)]
    exact State.rd_of_regs rfl x
  split
  · exact ht
  · rw [State.rd_addCnt_ne _ _ _ (by omega) (by omega) (by simp only [lnEvt]; omega), ht]

theorem State.laneTick_rd (s : State) {base x : Nat} (h : x < base + 0x40 ∨ base + 0xA8 ≤ x) : (s.laneTick base).rd x = s.rd x := by
  unfold State.laneTick
  extract_lets t u
  have ht : t.rd x = s.rd x := by unfold t; split <;> rfl
  have hu : u.rd x = t.rd x := by unfold u; split <;> rfl
  split
  · rw [State.chkTick_rd _ h, hu, ht]
  · rw [hu, ht]

theorem State.prbsTick_rd (s : State) {x : Nat} (h : prbsKept x) : s.prbsTick.rd x = s.rd x := by
  have hfold : ∀ (l : List Nat) (u : State), (∀ base ∈ l, x < base + 0x40 ∨ base + 0xA8 ≤ x) →
      (l.foldl (fun s base => s.laneTick base) u).rd x = u.rd x := by
    intro l
    induction l with
    | nil => exact fun _ _ => rfl
    | cons base l ih => exact fun u hl => (ih _ fun c hc => hl c (.tail _ hc)).trans (u.laneTick_rd (hl base (.head _)))
  unfold State.prbsTick
  split
  · refine hfold _ _ fun base hb => ?_
    obtain ⟨hx, hwin⟩ := h
    rw [allLaneRegs, List.mem_append, List.mem_map, List.mem_map] at hb
    obtain ⟨i, hi, rfl⟩ | ⟨i, hi, rfl⟩ := hb
    · have := List.mem_range.1 hi
      simp only [offLaneCtl]
      omega
    · have := List.mem_range.1 hi
      omega
  · rfl

/-- No lane is at a gate monitor. -/
theorem prbsKept_gateMon (k : Nat) : prbsKept (offGateMon (k / 16) (k % 16)) := by
  simp only [prbsKept, offGateMon]
  omega

/-! ## Gates without a monitor -/

/-- A gate that is not monitored is watched without a trace beside its own state. -/
theorem State.gateWatch_unmonitored (s : State) {b p : Nat} (h : s.rdb (offGateMon b p) 31 = false) :
    Within [.gates] s (s.gateWatch b p) ∧ (s.gateWatch b p).regs = s.regs := by
  have hjudge : ∀ (u : State) w, u.regs = s.regs → u.gateJudge b p w = u := by
    intro u w hu
    unfold State.gateJudge
    rw [show u.rdb (offGateMon b p) 31 = false from (congrArg _ (State.rd_of_regs hu _)).trans h]
    simp
  have hfold : ∀ (l : List WireSpan) (u : State), u.regs = s.regs → l.foldl (fun s w => s.gateJudge b p w) u = u := by
    intro l
    induction l with
    | nil => exact fun _ _ => rfl
    | cons w l ih => exact fun u hu => by rw [List.foldl_cons, hjudge u w hu, ih u hu]
  unfold State.gateWatch
  extract_lets ended done t passes
  have ht : Within [.gates] s t ∧ t.regs = s.regs := by
    unfold t
    split
    · exact ⟨.refl _, rfl⟩
    · rw [hfold done (State.gateMod ..) rfl]
      exact ⟨State.gateMod_within _ _ _ _, rfl⟩
  split
  · exact ⟨ht.1.trans (State.gateMod_within _ _ _ _), ht.2⟩
  · exact ht

/-- With no gate monitor enabled, the gate engines alone move. -/
theorem State.gateTick_unmonitored (s : State) (h : ∀ k ∈ s.gates.ports.map (·.1), s.rdb (offGateMon (k / 16) (k % 16)) 31 = false) :
    Within [.gates] s s.gateTick := by
  have hfold : ∀ (l : List Nat) (u : State), (∀ k ∈ l, u.rdb (offGateMon (k / 16) (k % 16)) 31 = false) →
      Within [.gates] u (l.foldl (fun s k => s.gateWatch (k / 16) (k % 16)) u) := by
    intro l
    induction l with
    | nil => exact fun u _ => .refl u
    | cons k l ih =>
      intro u hu
      obtain ⟨hw, hr⟩ := u.gateWatch_unmonitored (hu k (.head _))
      refine hw.trans (ih _ fun j hj => ?_)
      exact (congrArg _ (State.rd_of_regs hr _)).trans (hu j (.tail _ hj))
  exact hfold _ _ h

/-! ## The step on an empty queue -/

theorem State.lineOn_pwr {s t : State} (h : t.pwr = s.pwr) : t.lineOn = s.lineOn := by
  rw [State.lineOn, State.lineOn, State.islAt, State.islAt, h]

/-- A tick reaches neither the engines nor the security state, monitors or not. -/
theorem State.idleTick_quiet (s : State) : Within quietParts { s with now := s.now + 1 } s.idleTick := by
  unfold State.idleTick
  exact .cut (fun h => .ite (h.trans (State.timeTick_within _).mono) h)
    ((State.prbsTick_within _).mono.trans (State.gateTick_quiet _))

/-- Without a monitor, a tick moves the test checkers, the gate engines and the time unit with what a base's step sets going. -/
theorem State.idleTick_unmonitored (s : State) (h : ∀ k ∈ s.gates.ports.map (·.1), s.rdb (offGateMon (k / 16) (k % 16)) 31 = false) :
    Within [.outbox, .timers, .evWait, .lanes, .gates, .time, .tel, .fabric] { s with now := s.now + 1 } s.idleTick ∧
      (s.lineOn = false → Within [.gates] { s with now := s.now + 1 } s.idleTick) := by
  let u : State := { s with now := s.now + 1 }
  have hu : u = { s with now := s.now + 1 } := rfl
  have hp := u.prbsTick_within
  have hmon : ∀ k ∈ u.prbsTick.gates.ports.map (·.1), u.prbsTick.rdb (offGateMon (k / 16) (k % 16)) 31 = false := by
    intro k hk
    rw [show u.prbsTick.gates = s.gates from hp.same .gates (by decide)] at hk
    rw [State.rdb, u.prbsTick_rd (prbsKept_gateMon k)]
    exact h k hk
  have hg := u.prbsTick.gateTick_unmonitored hmon
  have hline : u.prbsTick.gateTick.lineOn = s.lineOn :=
    State.lineOn_pwr ((hg.same .pwr (by decide)).trans (hp.same .pwr (by decide)))
  unfold State.idleTick
  dsimp only
  refine ⟨.ite ((hp.mono.trans hg.mono).trans (State.timeTick_within _).mono) (hp.mono.trans hg.mono), fun hoff => ?_⟩
  have hprbs : u.prbsTick = u := by
    unfold State.prbsTick
    rw [show u.lineOn = false from hoff]
    rfl
  rw [← hu, hline, hoff, Bool.and_false, if_neg (by simp)]
  rw [hprbs] at hg ⊢
  exact hg

/-- Settles O2: the parts that a tick can reach, with monitors and without. -/
theorem emptyQueueTicks : Obligations.EmptyQueueTicks := by
  unfold Obligations.EmptyQueueTicks
  intro s hq
  have hk := s.idleTick_keeps
  have hquiet := s.idleTick_quiet
  refine ⟨s.idleTick, step_nil hq, hk.now, hk.pending.trans hq, hquiet.same .tilth (by decide), hquiet.same .sec (by decide),
    fun h => ?_⟩
  obtain ⟨hall, hoff⟩ := s.idleTick_unmonitored h
  exact ⟨hall.same, fun hline => (hoff hline).same⟩

end Sys2Proof.Machine
end

section
/-! SUPPORT. Where the islands stand once all have settled: which is ON, HELD or OFF, and what is gone with the line and the host island (R65 to R72). -/

set_option Elab.async false

namespace Sys2Proof.Machine

variable (s : State)

/-! ## The steps of settling all islands -/

/-- The released sub-islands settle first. -/
def State.heldPass (s : State) : State := subIslands.foldl (fun s i => if s.islAt i == .held then s.settle i true else s) s

/-- The sub-islands settle in their order, after the host island and the line island. -/
def State.subPass (s before : State) : State := subIslands.foldl (fun s i => s.settle i (before.enabled i)) s

theorem State.settleAll_eq (before : State) :
    s.settleAll before = ((s.heldPass.settle 0 (before.enabled 0)).settle 1 (before.enabled 1)).subPass before := by
  rw [State.settleAll, show List.range 27 = 0 :: 1 :: subIslands from by decide, List.foldl_cons, List.foldl_cons]
  rfl

/-- A property that the islands keep as each settles is kept as all sub-islands settle. -/
theorem State.subPass_inv {P : State → Prop} (h : ∀ u i was, P u → i ≠ 0 → i ≠ 1 → P (u.settle i was)) {u : State} (hu : P u)
    (before : State) : P (u.subPass before) := by
  have hfold : ∀ (l : List Nat) (v : State), (∀ i ∈ l, i ≠ 0 ∧ i ≠ 1) → P v → P (l.foldl (fun s i => s.settle i (before.enabled i)) v) := by
    intro l
    induction l with
    | nil => exact fun _ _ hv => hv
    | cons i l ih =>
      intro v hl hv
      exact ih _ (fun j hj => hl j (.tail _ hj)) (h v i _ hv (hl i (.head _)).1 (hl i (.head _)).2)
  exact hfold _ u (fun i hi => by have := mem_subIslands.1 hi; omega) hu

theorem State.heldPass_inv {P : State → Prop} (h : ∀ u i was, P u → i ≠ 0 → i ≠ 1 → P (u.settle i was)) {u : State} (hu : P u) :
    P u.heldPass := by
  have hfold : ∀ (l : List Nat) (v : State), (∀ i ∈ l, i ≠ 0 ∧ i ≠ 1) → P v →
      P (l.foldl (fun s i => if s.islAt i == .held then s.settle i true else s) v) := by
    intro l
    induction l with
    | nil => exact fun _ _ hv => hv
    | cons i l ih =>
      intro v hl hv
      refine ih _ (fun j hj => hl j (.tail _ hj)) ?_
      dsimp only
      split
      · exact h v i _ hv (hl i (.head _)).1 (hl i (.head _)).2
      · exact hv
  exact hfold _ u (fun i hi => by have := mem_subIslands.1 hi; omega) hu

/-- What every island keeps as it settles is kept as all do. -/
theorem State.settleAll_inv {P : State → Prop} (h : ∀ u i was, P u → P (u.settle i was)) {u : State} (hu : P u) (before : State) :
    P (u.settleAll before) := by
  rw [State.settleAll_eq]
  exact State.subPass_inv (fun u i was hv _ _ => h u i was hv)
    (h _ 1 _ (h _ 0 _ (State.heldPass_inv (fun u i was hv _ _ => h u i was hv) hu))) before

/-! ## Where the islands stand -/

theorem State.islAt_setIslAt (i j : Nat) (v : IslandSt) : (s.setIslAt i v).islAt j = if j = i then v else s.islAt j :=
  sget_sset _ _ _ _ _

theorem State.islAt_pwr {s t : State} (h : t.pwr = s.pwr) (j : Nat) : t.islAt j = s.islAt j := by rw [State.islAt, State.islAt, h]

theorem State.islAt_startTimer (x : Timer) (ns j : Nat) : (s.startTimer x ns).islAt j = s.islAt j := rfl

theorem State.resetIsland_pwr (i : Nat) : (s.resetIsland i).pwr = s.pwr := by
  unfold State.resetIsland
  split
  · exact s.resetHost_within.same .pwr (by decide)
  · split
    · exact s.resetLine_within.same .pwr (by decide)
    · split
      · exact (s.resetBed_within _).same .pwr (by decide)
      · exact (s.resetSilt_within _).same .pwr (by decide)

/-- An island that goes down is HELD while it is enabled, else OFF; no other moves. -/
theorem State.islAt_toHeld (i j : Nat) :
    (s.toHeld i).islAt j = if j = i then (if ((s.resetIsland i).setIslAt i .held).enabled i then .held else .off) else s.islAt j := by
  unfold State.toHeld
  extract_lets t
  have ht : t.islAt j = if j = i then .held else s.islAt j := by
    unfold t
    rw [State.islAt_setIslAt, State.islAt_pwr (s.resetIsland_pwr i)]
  split
  · rw [ht]
  · rw [State.islAt_setIslAt, ht]
    split <;> rfl

theorem State.toHeld_ctl (i : Nat) : CtlSettle s (s.toHeld i) := by
  by_cases hi : i = 0
  · subst hi
    exact s.hostDown_ctl
  · exact (s.toHeld_settle hi).ctl

theorem State.resetIsland_ctl (i : Nat) : CtlSettle s (s.resetIsland i) := by
  by_cases hi : i = 0
  · subst hi
    exact s.resetHost_ctl
  · exact (s.resetIsland_settle hi).ctl

/-- Where an island stands that goes down, by its enable. -/
theorem State.islAt_toHeld_self (i : Nat) : (s.toHeld i).islAt i = if s.enabled i then .held else .off := by
  rw [State.islAt_toHeld, if_pos rfl, CtlSettle.enabled ((s.resetIsland_ctl i).trans (State.setIslAt_settle _ _ _).ctl)]

theorem State.islAt_toHeld_ne {i j : Nat} (h : j ≠ i) : (s.toHeld i).islAt j = s.islAt j := by
  rw [State.islAt_toHeld, if_neg h]

theorem State.toHeld_notOn {i j : Nat} (h : j = i ∨ s.islAt j ≠ .on) : (s.toHeld i).islAt j ≠ .on := by
  rw [State.islAt_toHeld]
  obtain rfl | h := h
  · rw [if_pos rfl]
    split <;> simp
  · split
    · split <;> simp
    · exact h

/-- Before the sub-islands go down, the line island is HELD or OFF by its enable. -/
theorem State.lineDown_fold : ∃ u : State, s.lineDown = subIslands.foldl (fun s i => s.toHeld i) (u.toHeld 1) ∧ LineSettle s u ∧
    u.pwr = s.pwr ∧ u.rds (offMeas 0) 12 = List.replicate 12 0 := by
  refine ⟨((s.countLineLoss).ppsClamp.augLineDown.dbgClose true).wrs (offMeas 0) (List.replicate 12 0), rfl, ?_, ?_, ?_⟩
  · exact ((((s.countLineLoss_settle.trans (State.ppsClamp_settle _)).trans (State.augLineDown_settle _)).trans
      (State.dbgClose_settle _ true)).trans (State.measZero_settle _))
  · rw [(State.wrs_fields _ _ _).2.2.2.2.2.2.2.1, (State.dbgClose_within _ true).same .pwr (by decide),
      (State.augLineDown_within _).same .pwr (by decide), (State.ppsClamp_within _).same .pwr (by decide),
      s.countLineLoss_within.same .pwr (by decide)]
  · exact State.rds_wrs _ _ _ rfl

/-- The sub-islands go down: none of them stays ON, and no other moves. -/
theorem State.islAt_subsDown (u : State) (j : Nat) : (j ∈ subIslands → (subIslands.foldl (fun s i => s.toHeld i) u).islAt j ≠ .on) ∧
    (j ∉ subIslands → (subIslands.foldl (fun s i => s.toHeld i) u).islAt j = u.islAt j) := by
  generalize subIslands = l
  induction l generalizing u with
  | nil => exact ⟨fun h => absurd h (by simp), fun _ => rfl⟩
  | cons i l ih =>
    obtain ⟨hin, hout⟩ := ih (u.toHeld i)
    rw [List.foldl_cons]
    refine ⟨fun hj => ?_, fun hj => ?_⟩
    · by_cases hl : j ∈ l
      · exact hin hl
      · have hji : j = i := by simpa [hl] using hj
        rw [hout hl]
        exact u.toHeld_notOn (.inl hji)
    · rw [hout fun h => hj (.tail _ h), State.islAt_toHeld_ne _ fun h => hj (by rw [h]; exact .head _)]

/-- The line island that goes down is HELD or OFF by its enable, none of its sub-islands is ON, and the host island stays. -/
theorem State.islAt_lineDown : s.lineDown.islAt 1 = (if s.enabled 1 then .held else .off) ∧
    (∀ i ∈ subIslands, s.lineDown.islAt i ≠ .on) ∧ s.lineDown.islAt 0 = s.islAt 0 := by
  obtain ⟨u, hd, hline, hpwr, -⟩ := s.lineDown_fold
  rw [hd]
  refine ⟨?_, fun i hi => (State.islAt_subsDown _ i).1 hi, ?_⟩
  · rw [(State.islAt_subsDown _ 1).2 (by simp [mem_subIslands]), State.islAt_toHeld_self, hline.ctl.enabled]
  · rw [(State.islAt_subsDown _ 0).2 (by simp [mem_subIslands]), State.islAt_toHeld_ne _ (by decide), State.islAt_pwr hpwr]

/-- An island that settles moves no other, but for the line island, under which the sub-islands go down. -/
theorem State.islAt_settle_ne {i j : Nat} (was : Bool) (h : j ≠ i) (h1 : i = 1 → j = 0) : (s.settle i was).islAt j = s.islAt j := by
  unfold State.settle
  split
  · split
    · rw [State.islAt_startTimer, State.islAt_setIslAt, if_neg h]
    · rfl
  · rfl
  · split
    · rfl
    · rw [State.islAt_setIslAt, if_neg h]
  · split
    · rw [State.islAt_setIslAt, if_neg h, State.islAt_pwr (s.resetIsland_pwr i)]
    · rfl
  · split
    · unfold State.islandDown State.hostDown
      split
      · rename_i hi
        subst hi
        exact s.islAt_toHeld_ne h
      · split
        · rename_i hi
          rw [h1 hi]
          exact s.islAt_lineDown.2.2
        · exact s.islAt_toHeld_ne h
    · rfl

/-- No island comes to be ON as one settles. -/
theorem State.settle_notOn {j : Nat} (i : Nat) (was : Bool) (h : s.islAt j ≠ .on) (hj : j < 27) : (s.settle i was).islAt j ≠ .on := by
  by_cases hji : j = i
  · subst hji
    unfold State.settle
    split
    · split
      · rw [State.islAt_startTimer, State.islAt_setIslAt, if_pos rfl]
        simp
      · exact h
    · exact h
    · split
      · exact h
      · rw [State.islAt_setIslAt, if_pos rfl]
        simp
    · split
      · rw [State.islAt_setIslAt, if_pos rfl]
        simp
      · exact h
    · rename_i hon
      exact absurd hon h
  · by_cases hi : i = 1
    · subst hi
      by_cases hj0 : j = 0
      · rw [s.islAt_settle_ne was hji fun _ => hj0]
        exact h
      · have hsub : j ∈ subIslands := mem_subIslands.2 (by omega)
        unfold State.settle
        split
        · split
          · rw [State.islAt_startTimer, State.islAt_setIslAt, if_neg hji]
            exact h
          · exact h
        · exact h
        · split
          · exact h
          · rw [State.islAt_setIslAt, if_neg hji]
            exact h
        · split
          · rw [State.islAt_setIslAt, if_neg hji, State.islAt_pwr (s.resetIsland_pwr 1)]
            exact h
          · exact h
        · split
          · exact s.islAt_lineDown.2.1 j hsub
          · exact h
    · rw [s.islAt_settle_ne was hji fun c => absurd c hi]
      exact h

/-- An island that is held, or not enabled, is not ON once it has settled. -/
theorem State.settle_down {i : Nat} (was : Bool) (h : s.held i = true ∨ s.enabled i = false) : (s.settle i was).islAt i ≠ .on := by
  have hcond : (s.held i || !s.enabled i || !s.pwr.pllLocked) = true := by
    obtain h | h := h <;> simp [h]
  unfold State.settle
  split
  · rename_i hoff
    split
    · rw [State.islAt_startTimer, State.islAt_setIslAt, if_pos rfl]
      simp
    · rw [hoff]
      simp
  · rename_i hramp
    rw [hramp]
    simp
  · rename_i hheld
    split
    · rw [hheld]
      simp
    · rw [State.islAt_setIslAt, if_pos rfl]
      simp
  · rename_i hsync
    split
    · rw [State.islAt_setIslAt, if_pos rfl]
      simp
    · rw [hsync]
      simp
  · rw [if_pos hcond]
    unfold State.islandDown State.hostDown
    split
    · rename_i hi
      rw [hi]
      exact s.toHeld_notOn (.inl rfl)
    · split
      · rename_i hi
        rw [hi, s.islAt_lineDown.1]
        split <;> simp
      · exact s.toHeld_notOn (.inl rfl)

theorem CtlSettle.held {s t : State} (h : CtlSettle s t) {i : Nat} (hi : 2 ≤ i ∧ i < 19) : t.held i = s.held i := by
  have hbed : t.rd offRstBed = s.rd offRstBed := h.rd _ (by simp [ctlKept, lineKept, wakeHeld, offRstBed, offClkPll])
  rw [State.held, State.held, if_neg (by omega), if_neg (by omega), if_pos hi.2, if_neg (by omega), if_neg (by omega), if_pos hi.2,
    State.rdb, State.rdb, hbed]

/-- A bed's sub-island that is held is not ON once all have settled. -/
theorem State.settleAll_bedDown {i : Nat} (before : State) (hi : 2 ≤ i ∧ i < 19) (h : s.held i = true) :
    (s.settleAll before).islAt i ≠ .on := by
  have hmid : CtlSettle s ((s.heldPass.settle 0 (before.enabled 0)).settle 1 (before.enabled 1)) := by
    refine .trans (.trans (State.heldPass_inv (P := CtlSettle s) (fun u i was hu _ _ => hu.trans (u.settle_ctl i was)) (.refl s))
      (State.settle_ctl _ _ _)) (State.settle_ctl _ _ _)
  rw [State.settleAll_eq]
  obtain ⟨l₁, l₂, hl⟩ := List.append_of_mem (mem_subIslands.2 (show 2 ≤ i ∧ i < 27 by omega))
  generalize (s.heldPass.settle 0 (before.enabled 0)).settle 1 (before.enabled 1) = u at hmid ⊢
  have hfirst : ∀ (l : List Nat) (v : State), CtlSettle s v → CtlSettle s (l.foldl (fun s i => s.settle i (before.enabled i)) v) := by
    intro l
    induction l with
    | nil => exact fun _ hv => hv
    | cons j l ih => exact fun v hv => ih _ (hv.trans (v.settle_ctl j _))
  have hlast : ∀ (l : List Nat) (v : State), v.islAt i ≠ .on → (l.foldl (fun s i => s.settle i (before.enabled i)) v).islAt i ≠ .on := by
    intro l
    induction l with
    | nil => exact fun _ hv => hv
    | cons j l ih => exact fun v hv => ih _ (v.settle_notOn j _ hv (by omega))
  rw [State.subPass, hl, List.foldl_append, List.foldl_cons]
  refine hlast _ _ (State.settle_down _ _ (.inl ?_))
  rw [(hfirst l₁ u hmid).held hi, h]

/-- The host island is where the settling of its own leaves it. -/
theorem State.islAt_settleAll_host (before : State) : (s.settleAll before).islAt 0 = (s.heldPass.settle 0 (before.enabled 0)).islAt 0 ∧
    s.heldPass.islAt 0 = s.islAt 0 := by
  have hsub : ∀ (t : State) u i was, u.islAt 0 = t.islAt 0 → i ≠ 0 → i ≠ 1 → (State.settle u i was).islAt 0 = t.islAt 0 :=
    fun t u i was hu h0 _ => (u.islAt_settle_ne was (Ne.symm h0) fun _ => rfl).trans hu
  refine ⟨?_, State.heldPass_inv (P := fun u => u.islAt 0 = s.islAt 0) (hsub s) rfl⟩
  rw [State.settleAll_eq]
  refine State.subPass_inv (P := fun u => u.islAt 0 = (s.heldPass.settle 0 (before.enabled 0)).islAt 0) (hsub _) ?_ before
  exact State.islAt_settle_ne _ _ (by decide) fun _ => rfl

/-- The line island is where the settling of its own leaves it. -/
theorem State.islAt_settleAll_line (before : State) :
    (s.settleAll before).islAt 1 = ((s.heldPass.settle 0 (before.enabled 0)).settle 1 (before.enabled 1)).islAt 1 ∧
      (s.heldPass.settle 0 (before.enabled 0)).islAt 1 = s.islAt 1 := by
  have hsub : ∀ (t : State) u i was, u.islAt 1 = t.islAt 1 → i ≠ 0 → i ≠ 1 → (State.settle u i was).islAt 1 = t.islAt 1 :=
    fun t u i was hu _ h1 => (u.islAt_settle_ne was (Ne.symm h1) fun h => absurd h h1).trans hu
  refine ⟨?_, ?_⟩
  · rw [State.settleAll_eq]
    exact State.subPass_inv (P := fun u => u.islAt 1 = _) (hsub _) rfl before
  · rw [State.islAt_settle_ne _ _ (by decide) (by decide)]
    exact State.heldPass_inv (P := fun u => u.islAt 1 = s.islAt 1) (hsub s) rfl

end Sys2Proof.Machine
end

section
/-! SUPPORT. What is gone with the line island and with the host island, and stays gone as the islands settle (R65, R69, R72). -/

set_option Elab.async false

namespace Sys2Proof.Machine

/-! ## What a settling island keeps -/

/-- The line island's last acts before it goes down: losses are counted, outputs clamped, the debug session closed, MEAS cleared. -/
def State.lineQuit (s : State) : State :=
  ((s.countLineLoss).ppsClamp.augLineDown.dbgClose true).wrs (offMeas 0) (List.replicate 12 0)

theorem State.lineDown_eq (s : State) : s.lineDown = subIslands.foldl (fun s i => s.toHeld i) (s.lineQuit.toHeld 1) := rfl

/-- A property of the state that the pieces keep of which an island's settling is made. -/
structure IslandKept (P : State → Prop) : Prop where
  reset : ∀ u i, P u → P (State.resetIsland u i)
  set : ∀ u i v, P u → P (State.setIslAt u i v)
  timer : ∀ u x ns, P u → P (State.startTimer u x ns)
  quit : ∀ u, P u → P (State.lineQuit u)

section
variable {P : State → Prop} (hk : IslandKept P)
include hk

theorem IslandKept.toHeld_of {u : State} {i : Nat} (h : P (u.resetIsland i)) : P (u.toHeld i) := by
  have hheld : P ((u.resetIsland i).setIslAt i .held) := hk.set _ _ _ h
  unfold State.toHeld
  extract_lets t
  split
  · exact hheld
  · exact hk.set _ _ _ hheld

theorem IslandKept.toHeld {u : State} (i : Nat) (h : P u) : P (u.toHeld i) := hk.toHeld_of (hk.reset _ _ h)

theorem IslandKept.subsDown {u : State} (l : List Nat) (h : P u) : P (l.foldl (fun s i => s.toHeld i) u) := by
  induction l generalizing u with
  | nil => exact h
  | cons i l ih => exact ih (hk.toHeld i h)

theorem IslandKept.islandDown {u : State} (i : Nat) (h : P u) : P (u.islandDown i) := by
  unfold State.islandDown State.hostDown
  split
  · exact hk.toHeld 0 h
  · split
    · rw [State.lineDown_eq]
      exact hk.subsDown _ (hk.toHeld 1 (hk.quit _ h))
    · exact hk.toHeld i h

theorem IslandKept.settle {u : State} (i : Nat) (was : Bool) (h : P u) : P (u.settle i was) := by
  unfold State.settle
  split
  · split
    · exact hk.timer _ _ _ (hk.set _ _ _ h)
    · exact h
  · exact h
  · split
    · exact h
    · exact hk.set _ _ _ h
  · split
    · exact hk.set _ _ _ (hk.reset _ _ h)
    · exact h
  · split
    · exact hk.islandDown i h
    · exact h

theorem IslandKept.subPass {u : State} (before : State) (h : P u) : P (u.subPass before) :=
  State.subPass_inv (fun _ i was hu _ _ => hk.settle i was hu) h before

theorem IslandKept.heldPass {u : State} (h : P u) : P u.heldPass :=
  State.heldPass_inv (fun _ i was hu _ _ => hk.settle i was hu) h

theorem IslandKept.settleAll {u : State} (before : State) (h : P u) : P (u.settleAll before) :=
  State.settleAll_inv (fun _ i was hu => hk.settle i was hu) h before

end

/-- What the line island's last acts leave: all but the output, timers, waiting events, the reads that wait, the Auger channels and the security state. -/
theorem State.lineQuit_within (s : State) : Within [.outbox, .timers, .evWait, .rings, .aug, .sec] s s.lineQuit :=
  ((((s.countLineLoss_within.mono).trans (State.ppsClamp_within _).mono).trans (State.augLineDown_within _).mono).trans
    (State.dbgClose_within _ true).mono).trans (State.wrs_within _ _ _).mono

theorem State.resetIsland_host (s : State) : s.resetIsland 0 = s.resetHost := by rw [State.resetIsland, if_pos rfl]

theorem State.resetIsland_line (s : State) : s.resetIsland 1 = s.resetLine := by
  rw [State.resetIsland, if_neg (by decide), if_pos rfl]

/-! ## Frames -/

/-- No frame and no copy is in the block. -/
def State.NoFrames (s : State) : Prop := s.frames = [] ∧ s.copies = []

theorem State.NoFrames.within {ps : List Part} {s t : State} (h : s.NoFrames) (hw : Within ps s t) (hf : Part.frames ∉ ps)
    (hc : Part.copies ∉ ps) : t.NoFrames :=
  ⟨(hw.same .frames hf).trans h.1, (hw.same .copies hc).trans h.2⟩

theorem State.resetLine_noFrames (s : State) : s.resetLine.NoFrames := ⟨rfl, rfl⟩

/-- A link that goes down frees no frame where there is none. -/
theorem State.resetSilt_noFrames {s : State} (k : Nat) (h : s.NoFrames) : (s.resetSilt k).NoFrames := by
  have hun : (s.siltUnlink k).NoFrames := h.within (s.siltUnlink_within k) (by decide) (by decide)
  have hvoid : (s.siltVoid k).NoFrames := by
    have hwhere : ∀ (u : State) (q : Frame → Bool), u.frames = [] → u.framesWhere q = [] := fun u q hu => by
      rw [State.framesWhere, hu]
      rfl
    unfold State.siltVoid
    extract_lets t src u lost partly v w
    have hu : u.NoFrames := hun
    have hlost : lost = [] := hwhere u _ hu.1
    have hpart : partly = [] := by
      unfold partly
      rw [hwhere u _ hu.1]
      rfl
    have hv : v = u := by
      unfold v
      rw [hlost, hpart]
      rfl
    have hw : w = u := by
      unfold w
      rw [hlost, hv]
      rfl
    rw [hw, hwhere u _ hu.1]
    exact hu
  have hlanes : ((List.range 8).foldl (fun s i => s.lanePower (siltLane k i) false) (s.siltVoid k)).NoFrames :=
    hvoid.within (Within.foldl (Within.refl _) fun _ _ => State.lanePower_within _ _ _) (by decide) (by decide)
  unfold State.resetSilt
  extract_lets t
  have ht : t.NoFrames := hlanes
  clear_value t
  exact ⟨ht.1, ht.2⟩

theorem islandKept_noFrames : IslandKept State.NoFrames where
  reset u i h := by
    unfold State.resetIsland
    split
    · exact h.within u.resetHost_within (by decide) (by decide)
    · split
      · exact u.resetLine_noFrames
      · split
        · exact h.within (u.resetBed_within _) (by decide) (by decide)
        · exact u.resetSilt_noFrames _ h
  set _ _ _ h := h
  timer _ _ _ h := h
  quit u h := h.within u.lineQuit_within (by decide) (by decide)

/-- With the line island goes every frame. -/
theorem State.lineDown_noFrames (s : State) : s.lineDown.NoFrames := by
  rw [State.lineDown_eq]
  refine islandKept_noFrames.subsDown _ (islandKept_noFrames.toHeld_of ?_)
  rw [State.resetIsland_line]
  exact State.resetLine_noFrames _

/-! ## The rings and the management port -/

/-- The rings and the management port are as after the host island's reset. -/
def State.HostGone (s : State) : Prop := s.rings = {} ∧ s.mgmt = {}

theorem State.HostGone.within {ps : List Part} {s t : State} (h : s.HostGone) (hw : Within ps s t) (hr : Part.rings ∉ ps)
    (hm : Part.mgmt ∉ ps) : t.HostGone :=
  ⟨(hw.same .rings hr).trans h.1, (hw.same .mgmt hm).trans h.2⟩

theorem State.resetHost_hostGone (s : State) : s.resetHost.HostGone := by
  unfold State.resetHost
  extract_lets t lost u
  clear_value u
  exact ⟨rfl, rfl⟩

/-- An Auger channel that faults takes no more than its own read from the rings. -/
theorem State.augFaulted_hostGone {s : State} (c cause : Nat) (h : s.HostGone) : (s.augFaulted c cause).HostGone := by
  unfold State.augFaulted
  extract_lets t src u
  have ht : t.HostGone := h
  have hu : u.HostGone := by
    refine ⟨?_, ht.2⟩
    unfold u src
    dsimp only
    rw [ht.1]
    rfl
  exact hu.within ((((State.augGo_within _ _ _).mono.trans (State.wrf_within _ _ _ _ _).mono).trans (State.inc_within _ _ _ _).mono).trans
    (State.raiseEvt_within _ _ _).mono : Within [.evWait, .aug] _ _) (by decide) (by decide)

theorem State.augLineDown_hostGone {s : State} (h : s.HostGone) : s.augLineDown.HostGone := by
  have hfold : ∀ (l : List Nat) (u : State), u.HostGone →
      (l.foldl (fun s c => if s.augState c = 1 || s.augState c = 2 then s.augFaulted c 9 else s) u).HostGone := by
    intro l
    induction l with
    | nil => exact fun _ hu => hu
    | cons c l ih =>
      refine fun u hu => ih _ ?_
      dsimp only
      split
      · exact State.augFaulted_hostGone c 9 hu
      · exact hu
  exact hfold _ s h

theorem islandKept_hostGone : IslandKept State.HostGone where
  reset u i h := by
    unfold State.resetIsland
    split
    · exact u.resetHost_hostGone
    · split
      · exact h.within u.resetLine_within (by decide) (by decide)
      · split
        · exact h.within (u.resetBed_within _) (by decide) (by decide)
        · exact h.within (u.resetSilt_within _) (by decide) (by decide)
  set _ _ _ h := h
  timer _ _ _ h := h
  quit u h := by
    have hin : u.countLineLoss.ppsClamp.HostGone :=
      (h.within u.countLineLoss_within (by decide) (by decide)).within (State.ppsClamp_within _) (by decide) (by decide)
    exact ((State.augLineDown_hostGone hin).within (State.dbgClose_within _ true) (by decide) (by decide)).within
      (State.wrs_within _ _ _) (by decide) (by decide)

theorem State.hostDown_eq (s : State) : s.hostDown = s.toHeld 0 := rfl

theorem State.hostDown_hostGone (s : State) : s.hostDown.HostGone := by
  rw [State.hostDown_eq]
  refine islandKept_hostGone.toHeld_of ?_
  rw [State.resetIsland_host]
  exact s.resetHost_hostGone

/-! ## Debug sessions -/

/-- Both debug paths are closed. -/
def State.DbgShut (s : State) : Prop := s.sec.host.level = 0 ∧ s.sec.port.level = 0

theorem State.DbgShut.within {ps : List Part} {s t : State} (h : s.DbgShut) (hw : Within ps s t) (hs : Part.sec ∉ ps) : t.DbgShut := by
  have hsec : t.sec = s.sec := hw.same .sec hs
  unfold State.DbgShut
  rw [hsec]
  exact h

/-- Closing a path closes it and leaves the other as it was. -/
theorem State.dbgClose_level (s : State) (port : Bool) : ((s.dbgClose port).sec.host.level = if port then s.sec.host.level else 0) ∧
    ((s.dbgClose port).sec.port.level = if port then 0 else s.sec.port.level) := by
  rw [State.dbgClose_sec]
  cases port with
  | true =>
    split
    · rename_i h
      exact ⟨rfl, h⟩
    · exact ⟨rfl, rfl⟩
  | false =>
    split
    · rename_i h
      exact ⟨h, rfl⟩
    · exact ⟨rfl, rfl⟩

theorem State.dbgCloseBoth_shut (s : State) : ((s.dbgClose false).dbgClose true).DbgShut := by
  obtain ⟨hh, hp, -⟩ := s.dbgClose_both
  exact ⟨hh, hp⟩

theorem State.dbgClose_shut {s : State} (port : Bool) (h : s.DbgShut) : (s.dbgClose port).DbgShut := by
  obtain ⟨hh, hp⟩ := s.dbgClose_level port
  unfold State.DbgShut
  rw [hh, hp, h.1, h.2]
  simp

/-- With the host island close both debug paths. -/
theorem State.resetHost_shut (s : State) : s.resetHost.DbgShut := by
  have h := s.dbgCloseBoth_shut
  have hc : ((s.dbgClose false).dbgClose true).countHostDown.DbgShut := h.within (State.countHostDown_within _) (by decide)
  unfold State.resetHost
  extract_lets t lost u
  have hu : u.sec.port.level = 0 := by
    have hsec : u.sec = t.sec := (State.wrb_within _ _ _ _).same .sec (by decide)
    rw [hsec]
    exact hc.2
  clear_value u
  exact ⟨rfl, hu⟩

theorem islandKept_shut : IslandKept State.DbgShut where
  reset u i h := by
    unfold State.resetIsland
    split
    · exact u.resetHost_shut
    · split
      · exact h.within u.resetLine_within (by decide)
      · split
        · exact h.within (u.resetBed_within _) (by decide)
        · exact h.within (u.resetSilt_within _) (by decide)
  set _ _ _ h := h
  timer _ _ _ h := h
  quit u h := by
    have hin : u.countLineLoss.ppsClamp.augLineDown.DbgShut :=
      ((h.within u.countLineLoss_within (by decide)).within (State.ppsClamp_within _) (by decide)).within
        (State.augLineDown_within _) (by decide)
    exact (State.dbgClose_shut true hin).within (State.wrs_within _ _ _) (by decide)

theorem State.hostDown_shut (s : State) : s.hostDown.DbgShut := by
  rw [State.hostDown_eq]
  refine islandKept_shut.toHeld_of ?_
  rw [State.resetIsland_host]
  exact s.resetHost_shut

/-! ## The measurements -/

/-- MEAS reads zero. -/
def State.MeasZero (s : State) : Prop := s.rds (offMeas 0) 12 = List.replicate 12 0

theorem State.MeasZero.untouched {K : Nat → Prop} {s t : State} (h : s.MeasZero) (hu : Untouched K s t)
    (hk : ∀ x, offMeas 0 ≤ x ∧ x < offMeas 0 + 48 → K x) : t.MeasZero :=
  (State.rds_congr fun i hi => hu _ (hk _ (by omega))).trans h

theorem State.toHeld_measZero {s : State} {i : Nat} (hi : i ≠ 0) (h : s.MeasZero) : (s.toHeld i).MeasZero := by
  have hbottom : ∀ x, offMeas 0 ≤ x ∧ x < offMeas 0 + 48 → bottomKept x := fun x hx => by
    simp only [offMeas] at hx
    unfold bottomKept
    omega
  have hreset : (s.resetIsland i).MeasZero := by
    unfold State.resetIsland
    rw [if_neg hi]
    split
    · exact h.untouched s.resetLine_bottom hbottom
    · split
      · exact h.untouched (s.resetBed_low _) fun x hx => (hbottom x hx).low
      · exact h.untouched (s.resetSilt_low _) fun x hx => (hbottom x hx).low
  unfold State.toHeld
  extract_lets t
  split <;> exact hreset

theorem State.lineDown_measZero (s : State) : s.lineDown.MeasZero := by
  have hfold : ∀ (l : List Nat) (u : State), (∀ i ∈ l, i ≠ 0) → u.MeasZero → (l.foldl (fun s i => s.toHeld i) u).MeasZero := by
    intro l
    induction l with
    | nil => exact fun _ _ hu => hu
    | cons i l ih => exact fun u hl hu => ih _ (fun j hj => hl j (.tail _ hj)) (State.toHeld_measZero (hl i (.head _)) hu)
  rw [State.lineDown_eq]
  exact hfold _ _ (fun i hi => by have := mem_subIslands.1 hi; omega)
    (State.toHeld_measZero (by decide) (State.rds_wrs _ _ _ rfl))

/-- A sub-island that settles leaves MEAS. -/
theorem State.settle_measZero {s : State} {i : Nat} (was : Bool) (h0 : i ≠ 0) (h1 : i ≠ 1) (h : s.MeasZero) : (s.settle i was).MeasZero := by
  have hreset : (s.resetIsland i).MeasZero := by
    have hbottom : ∀ x, offMeas 0 ≤ x ∧ x < offMeas 0 + 48 → bottomKept x := fun x hx => by
      simp only [offMeas] at hx
      unfold bottomKept
      omega
    unfold State.resetIsland
    rw [if_neg h0, if_neg h1]
    split
    · exact h.untouched (s.resetBed_low _) fun x hx => (hbottom x hx).low
    · exact h.untouched (s.resetSilt_low _) fun x hx => (hbottom x hx).low
  unfold State.settle
  split
  · split <;> exact h
  · exact h
  · split <;> exact h
  · split
    · exact hreset
    · exact h
  · split
    · unfold State.islandDown
      rw [if_neg h0, if_neg h1]
      exact State.toHeld_measZero h0 h
    · exact h

end Sys2Proof.Machine
end

section
/-! SUPPORT. A ramp timer that runs goes on as the line side's islands settle (R67). -/

set_option Elab.async false

namespace Sys2Proof.Machine

/-- Every ramp timer that runs goes on. -/
def RampKept (s t : State) : Prop := ∀ i, s.timerOn (.ramp i) = true → t.timerOn (.ramp i) = true

theorem RampKept.refl (s : State) : RampKept s s := fun _ h => h

theorem RampKept.trans {s t u : State} (h : RampKept s t) (g : RampKept t u) : RampKept s u := fun i hi => g i (h i hi)

theorem RampKept.ite {s t u : State} {c : Prop} [Decidable c] (h : RampKept s t) (g : RampKept s u) :
    RampKept s (if c then t else u) := by
  split
  · exact h
  · exact g

theorem RampKept.foldl {α : Type} {s t : State} {f : State → α → State} {l : List α} (h : RampKept s t)
    (g : ∀ u a, RampKept u (f u a)) : RampKept s (l.foldl f t) := by
  induction l generalizing t with
  | nil => exact h
  | cons a l ih => exact ih (h.trans (g t a))

theorem RampKept.of_timers {s t : State} (h : t.timers = s.timers) : RampKept s t := fun i hi => by rw [State.timerOn_congr h]; exact hi

/-- An operation that changes no timer. -/
theorem Within.ramp {ps : List Part} {s t : State} (h : Within ps s t) (hp : Part.timers ∉ ps := by decide) : RampKept s t :=
  .of_timers (h.same .timers hp)

/-- A timer that starts stops none but itself. -/
theorem State.startTimer_ramp (s : State) (x : Timer) (ns : Nat) : RampKept s (s.startTimer x ns) := by
  intro i hi
  by_cases hx : Timer.ramp i = x
  · rw [hx]
    exact State.timerOn_startTimer _ _ _
  · rw [State.timerOn, List.any_eq_true] at hi ⊢
    obtain ⟨e, he, heq⟩ := hi
    have hne : (e.1 != x) = true := by
      rw [eq_of_beq heq]
      simpa using hx
    exact ⟨e, List.mem_cons_of_mem _ (List.mem_filter.2 ⟨he, hne⟩), heq⟩

/-- Timers are dropped, none of them a ramp timer. -/
theorem RampKept.of_filter {s t : State} {p : Timer → Bool} (h : t.timers = s.timers.filter fun e => p e.1) (hp : ∀ i, p (.ramp i) = true) :
    RampKept s t := by
  intro i hi
  rw [State.timerOn, List.any_eq_true] at hi ⊢
  obtain ⟨e, he, heq⟩ := hi
  refine ⟨e, ?_, heq⟩
  rw [h, List.mem_filter, eq_of_beq heq]
  exact ⟨he, hp i⟩

theorem State.dropTimers_ramp (s : State) {p : Timer → Bool} (hp : ∀ i, p (.ramp i) = false) : RampKept s (s.dropTimers p) :=
  .of_filter (p := fun x => !p x) rfl fun i => by rw [hp i]; rfl

/-! ## Frames that a link's module loses -/

theorem State.writeNow_ramp (s : State) (f : Nat) (x : Frame) : RampKept s (s.writeNow f x) := by
  have h : RampKept s ((s.occAdd 0 x.grains).setFrame f (some { x with held := false })) :=
    (State.occAdd_within _ _ _).ramp.trans (State.setFrame_within _ _ _).ramp
  unfold State.writeNow
  extract_lets t
  split
  · exact h.trans (State.startTimer_ramp _ _ _)
  · exact h

theorem State.writeHeld_ramp (s : State) (f : Nat) : RampKept s (s.writeHeld f) := by
  unfold State.writeHeld
  split
  · exact .ite (s.writeNow_ramp _ _) (.refl s)
  · exact .refl s

theorem State.occSub_ramp (s : State) (t g : Nat) : RampKept s (s.occSub t g) := by
  have h : RampKept s (s.wr2 (offTierOcc t 0) (s.occ t - g)) := (State.wr2_within _ _ _).ramp
  unfold State.occSub State.writeWaiting
  exact .ite (h.trans (.foldl (.refl _) fun u f => u.writeHeld_ramp f)) h

theorem State.freeMoved_ramp (s : State) (x : Frame) : RampKept s (s.freeMoved x) := by
  unfold State.freeMoved
  exact .ite (.refl s) (s.occSub_ramp _ _)

theorem State.freeFrame_ramp (s : State) (f : Nat) (x : Frame) : RampKept s (s.freeFrame f x) := by
  have hset : RampKept s (s.setFrame f none) := (State.setFrame_within _ _ _).ramp
  unfold State.freeFrame
  extract_lets t
  have ht : RampKept s t := .ite hset ((hset.trans (State.freeMoved_ramp _ _)).trans (State.occSub_ramp _ _ _))
  split
  · exact .ite (ht.trans (State.setIngress_within _ _ _ _ _).ramp) ht
  · exact ht

theorem State.unref_ramp (s : State) (f : Nat) : RampKept s (s.unref f) := by
  unfold State.unref
  split
  · exact .refl s
  · exact .ite (State.setFrame_within _ _ _).ramp (.ite (State.setFrame_within _ _ _).ramp (s.freeFrame_ramp _ _))

theorem State.endCopy_ramp (s : State) (c : Nat) : RampKept s (s.endCopy c) := by
  unfold State.endCopy
  split
  · exact .refl s
  · exact .ite (State.setCopy_within _ _ _).ramp
      (((State.uncountCopy_within _ _ _).ramp.trans (State.setCopy_within _ _ _).ramp).trans (State.unref_ramp _ _))

theorem State.discardCopy_ramp (s : State) (c : Nat) : RampKept s (s.discardCopy c) := by
  unfold State.discardCopy
  split
  · exact .refl s
  · exact (State.copyFate_within _ _ _).ramp.trans (State.endCopy_ramp _ _)

theorem State.tierLoss_ramp (s : State) (f : Nat) : RampKept s (s.tierLoss f) := by
  unfold State.tierLoss State.discardCopies
  exact .foldl (.refl s) fun u i =>
    ((State.admCount_within u _).ramp.trans (State.unqueue_within _ _).ramp).trans (State.discardCopy_ramp _ _)

theorem State.moveBack_ramp (s : State) (k f : Nat) : RampKept s (s.moveBack k f) := by
  unfold State.moveBack
  split
  · exact .refl s
  · have hset : ∀ y, RampKept s (s.setFrame f y) := fun _ => (State.setFrame_within _ _ _).ramp
    exact .ite (s.freeFrame_ramp _ _) (.ite (hset _) (.ite (((hset _).trans (State.freeMoved_ramp _ _)).trans (State.tierLoss_ramp _ _))
      ((hset _).trans (State.freeMoved_ramp _ _))))

theorem State.moduleLoss_ramp (s : State) (f : Nat) : RampKept s (s.moduleLoss f) := by
  unfold State.moduleLoss
  split
  · exact .refl s
  · exact .ite (s.freeFrame_ramp _ _)
      (((State.setFrame_within _ _ _).ramp.trans (State.freeMoved_ramp _ _)).trans (State.tierLoss_ramp _ _))

/-! ## Islands of the line side -/

theorem State.siltUnlink_ramp (s : State) (k : Nat) : RampKept s (s.siltUnlink k) := by
  unfold State.siltUnlink
  extract_lets t
  have ht : RampKept s t := (State.capLeave_within _ _).ramp.trans (State.siltMod_within _ _ _).ramp
  exact ht.trans (.of_filter (p := fun x => !siltTimer k x) rfl fun _ => rfl)

theorem State.siltVoid_ramp (s : State) (k : Nat) : RampKept s (s.siltVoid k) := by
  unfold State.siltVoid
  extract_lets t src u lost partly v w
  have hu : RampKept s u := (s.siltUnlink_ramp k).trans (.of_timers rfl)
  have hv : RampKept s v := .ite hu (hu.trans (State.raiseEvt_within _ _ _).ramp)
  exact .foldl (hv.trans (.foldl (.refl _) fun x f => x.moduleLoss_ramp f)) fun x f => x.moveBack_ramp k f

theorem State.resetSilt_ramp (s : State) (k : Nat) : RampKept s (s.resetSilt k) := by
  unfold State.resetSilt
  extract_lets t
  have ht : RampKept s t := .foldl (s.siltVoid_ramp k) fun u i => (State.lanePower_within _ _ _).ramp
  clear_value t
  exact ht.trans (.of_timers rfl)

theorem State.clearBed_ramp (s : State) (n : Nat) : RampKept s (s.clearBed n) := by
  unfold State.clearBed
  extract_lets mine t u m
  have ht : RampKept s t := s.dropTimers_ramp fun _ => rfl
  have hu : RampKept s u := (ht.trans (State.resetRegs_within _ _).ramp).trans (State.loadImage_within _ _ _).ramp
  clear_value m u
  exact hu.trans (.of_timers rfl)

theorem State.resetBed_ramp (s : State) (n : Nat) : RampKept s (s.resetBed n) := by
  unfold State.resetBed
  extract_lets t u
  have ht : RampKept s t := .ite (State.keepRegion_within _ _ _).ramp (.refl s)
  have hu : RampKept s u := ht.trans (State.harmMod_within _ _).ramp
  exact .ite (s.clearBed_ramp n) ((hu.trans (State.swapCut_within _ _).ramp).trans (State.clearBed_ramp _ _))

theorem State.resetLine_ramp (s : State) : RampKept s s.resetLine := by
  unfold State.resetLine
  extract_lets t
  have ht : RampKept s t := (State.resetRegs_within _ _).ramp.trans (State.dropTimers_ramp _ fun _ => rfl)
  clear_value t
  exact ht.trans (.of_timers rfl)

theorem State.dbgClose_ramp (s : State) (port : Bool) : RampKept s (s.dbgClose port) := by
  unfold State.dbgClose
  refine .ite (.refl s) (.trans ?_ (State.raiseEvt_within _ _ _).ramp)
  refine (State.dbgMod_within s port fun d => { d with level := 0, duration := 0 }).ramp.trans ?_
  exact .of_filter (p := fun x => x != .session port) rfl fun _ => rfl

theorem State.lineQuit_ramp (s : State) : RampKept s s.lineQuit :=
  (((s.countLineLoss_within.ramp.trans (State.ppsClamp_within _).ramp).trans (State.augLineDown_within _).ramp).trans
    (State.dbgClose_ramp _ true)).trans (State.wrs_within _ _ _).ramp

theorem State.toHeld_ramp (s : State) {i : Nat} (hi : i ≠ 0) : RampKept s (s.toHeld i) := by
  have hreset : RampKept s (s.resetIsland i) := by
    unfold State.resetIsland
    rw [if_neg hi]
    exact .ite s.resetLine_ramp (.ite (s.resetBed_ramp _) (s.resetSilt_ramp _))
  have hheld := hreset.trans (State.setIslAt_within _ i .held).ramp
  unfold State.toHeld
  exact .ite hheld (hheld.trans (State.setIslAt_within _ _ _).ramp)

theorem State.settle_ramp (s : State) {i : Nat} (was : Bool) (hi : i ≠ 0) : RampKept s (s.settle i was) := by
  have hset : ∀ (u : State) v, RampKept u (u.setIslAt i v) := fun u v => (State.setIslAt_within _ _ _).ramp
  unfold State.settle
  split
  · exact .ite ((hset _ _).trans (State.startTimer_ramp _ _ _)) (.refl s)
  · exact .refl s
  · exact .ite (.refl s) (hset _ _)
  · refine .ite (.trans ?_ (hset _ _)) (.refl s)
    unfold State.resetIsland
    rw [if_neg hi]
    exact .ite s.resetLine_ramp (.ite (s.resetBed_ramp _) (s.resetSilt_ramp _))
  · refine .ite ?_ (.refl s)
    unfold State.islandDown
    rw [if_neg hi]
    refine .ite ?_ (s.toHeld_ramp hi)
    have hfold : ∀ (l : List Nat) (u : State), (∀ j ∈ l, j ≠ 0) → RampKept u (l.foldl (fun s i => s.toHeld i) u) := by
      intro l
      induction l with
      | nil => exact fun u _ => .refl u
      | cons j l ih => exact fun u hl => (u.toHeld_ramp (hl j (.head _))).trans (ih _ fun m hm => hl m (.tail _ hm))
    rw [State.lineDown_eq]
    exact (s.lineQuit_ramp.trans (State.toHeld_ramp _ (by decide))).trans
      (hfold _ _ fun j hj => by have := mem_subIslands.1 hj; omega)

end Sys2Proof.Machine
end

section
/-! SUPPORT. Resets, island control and the power states (R67 to R72, R476 to R479, R495). -/

set_option Elab.async false

namespace Sys2Proof.Machine

variable (s : State)

/-! ## Bits and registers of the wake island -/

/-- Kept bits are as they were, the others as they are written. -/
theorem bit_keepBits (n : Nat) (p : Nat → Bool) (old new : Word) {i : Nat} (hi : i < 32) :
    bit i (keepBits n p old new) = if i < n ∧ p i = true then bit i old else bit i new := by
  unfold keepBits
  induction n with
  | zero => simp
  | succ n ih =>
    rw [List.range_succ, List.foldl_append, List.foldl_cons, List.foldl_nil]
    by_cases hin : i = n
    · subst hin
      by_cases hp : p i = true
      · rw [if_pos hp, bit_setBit i i _ _ hi, if_pos rfl, if_pos ⟨by omega, hp⟩]
      · rw [if_neg hp, ih, if_neg (by simp), if_neg (by simp [hp])]
    · have hsame : bit i (if p n = true then setBit n (bit n old) ((List.range n).foldl (fun w i => if p i = true then
          setBit i (bit i old) w else w) new) else (List.range n).foldl (fun w i => if p i = true then setBit i (bit i old) w else w) new) =
          bit i ((List.range n).foldl (fun w i => if p i = true then setBit i (bit i old) w else w) new) := by
        split
        · rw [bit_setBit n i _ _ hi, if_neg hin]
        · rfl
      rw [hsame, ih]
      exact ite_congr (propext (and_congr_left fun _ => by omega)) (fun _ => rfl) fun _ => rfl

/-- The island controls and the power state are the wake island's. -/
theorem ctlKept_ctl : ∀ x ∈ [offRstCtl, offRstBed, offRstCause, offPwrIslandCtl, offPwrState], ctlKept x := by
  intro x hx
  simp only [List.mem_cons, List.not_mem_nil, or_false] at hx
  obtain rfl | rfl | rfl | rfl | rfl := hx <;>
  · simp [ctlKept, lineKept, wakeHeld, offRstCtl, offRstBed, offRstCause, offPwrIslandCtl, offPwrState, offClkPll]

theorem noRegion_ctl : ∀ x ∈ [offRstCtl, offRstBed, offPwrIslandCtl, offPwrState], noRegion x := by
  intro x hx
  simp only [List.mem_cons, List.not_mem_nil, or_false] at hx
  obtain rfl | rfl | rfl | rfl := hx <;>
  · simp [noRegion, offRstCtl, offRstBed, offPwrIslandCtl, offPwrState, offReplCmd]

theorem State.rdb_settleAll {x : Nat} (hx : x ∈ [offRstCtl, offRstBed, offRstCause, offPwrIslandCtl, offPwrState]) (before : State) (i : Nat) :
    (s.settleAll before).rdb x i = s.rdb x i := congrArg (bit i) ((s.settleAll_ctl before).rd x (ctlKept_ctl x hx))

/-- A refusal marks the fault and raises the block's event, and changes no other register. -/
theorem State.rd_pwrRefused_ne {x : Nat} (h : x ≠ offPwrFault) (h' : x ≠ offBlkEvt) : s.pwrRefused.rd x = s.rd x := by
  rw [State.pwrRefused, State.rd_raiseEvt_ne _ _ h', State.rd_wrb_ne _ _ _ h]

theorem State.pwrRefused_marks : s.pwrRefused.rdb offPwrFault 31 = true ∧ s.pwrRefused.rdb offBlkEvt 2 = true := by
  refine ⟨?_, State.rdb_raiseEvt _ _ _ (by omega)⟩
  rw [State.pwrRefused, State.rdb, State.rd_raiseEvt_ne _ _ (by simp [offPwrFault, offBlkEvt]), State.rd_wrb_same,
    bit_setBit 31 31 _ _ (by omega), if_pos rfl]

theorem State.pwrRefused_pwr : s.pwrRefused.pwr = s.pwr := (State.pwrRefused_within s).same .pwr (by decide)

/-- With a refusal or without, the controls read the same. -/
theorem State.rdb_refusedIf (c : Prop) [Decidable c] {x : Nat} (h : x ∈ [offRstBed, offPwrIslandCtl, offPwrState]) (i : Nat) :
    (if c then s.pwrRefused else s).rdb x i = s.rdb x i := by
  split
  · refine congrArg (bit i) (s.rd_pwrRefused_ne ?_ ?_) <;>
    · rintro rfl
      revert h
      decide
  · rfl

theorem State.refusedIf_pwr (c : Prop) [Decidable c] : (if c then s.pwrRefused else s).pwr = s.pwr := by
  split
  · exact s.pwrRefused_pwr
  · rfl

/-! ## Down by a hold or without an enable -/

/-- An island that is ON goes down when it is held or not enabled. -/
theorem State.settle_on {i : Nat} (was : Bool) (hon : s.islAt i = .on) (h : s.held i = true ∨ s.enabled i = false) :
    s.settle i was = s.islandDown i := by
  have hcond : (s.held i || !s.enabled i || !s.pwr.pllLocked) = true := by
    obtain h | h := h <;> simp [h]
  unfold State.settle
  rw [hon]
  dsimp only
  rw [if_pos hcond]

/-- Before the line island settles, it is where it was, and what controls the islands is as it was. -/
theorem State.preLine_spec (before : State) : (s.heldPass.settle 0 (before.enabled 0)).islAt 1 = s.islAt 1 ∧
    CtlSettle s (s.heldPass.settle 0 (before.enabled 0)) :=
  ⟨(s.islAt_settleAll_line before).2, .trans (State.heldPass_inv (P := CtlSettle s) (fun u i was hu _ _ => hu.trans (u.settle_ctl i was))
    (.refl s)) (State.settle_ctl _ _ _)⟩

/-- The line island, ON before, goes down: it is HELD or OFF, no sub-island is ON, no frame is left, and MEAS reads zero. -/
theorem State.settle_lineDown (was : Bool) (hon : s.islAt 1 = .on) (h : s.held 1 = true ∨ s.enabled 1 = false) :
    (s.settle 1 was).islAt 1 = (if s.enabled 1 then .held else .off) ∧ (∀ i ∈ subIslands, (s.settle 1 was).islAt i ≠ .on) ∧
      (s.settle 1 was).NoFrames ∧ (s.settle 1 was).MeasZero := by
  rw [s.settle_on was hon h, State.islandDown, if_neg (by decide), if_pos rfl]
  obtain ⟨hline, hsubs, -⟩ := s.islAt_lineDown
  exact ⟨hline, hsubs, s.lineDown_noFrames, s.lineDown_measZero⟩

/-- The same once all islands have settled, of a line island that what controls it holds or disables. -/
theorem State.settleAll_lineDown (before : State) (hon : s.lineOn = true) (h : ∀ u, CtlSettle s u → u.held 1 = true ∨ u.enabled 1 = false) :
    (s.settleAll before).islAt 1 = (if s.enabled 1 then .held else .off) ∧ (∀ i ∈ subIslands, (s.settleAll before).islAt i ≠ .on) ∧
      (s.settleAll before).NoFrames ∧ (s.settleAll before).MeasZero := by
  obtain ⟨hisl, hctl⟩ := s.preLine_spec before
  obtain ⟨hline, hsubs, hframes, hmeas⟩ := State.settle_lineDown _ (before.enabled 1) (hisl.trans (eq_of_beq hon)) (h _ hctl)
  have hall := s.settleAll_eq before
  have hall1 := (s.islAt_settleAll_line before).1
  generalize (s.heldPass.settle 0 (before.enabled 0)).settle 1 (before.enabled 1) = u at hline hsubs hframes hmeas hall hall1
  refine ⟨?_, fun i hi => ?_, ?_, ?_⟩
  · rw [hall1, hline, hctl.enabled]
  · have hlt := (mem_subIslands.1 hi).2
    rw [hall]
    exact State.subPass_inv (P := fun v => v.islAt i ≠ .on) (fun v j was hv _ _ => v.settle_notOn j was hv hlt) (hsubs i hi) before
  · rw [hall]
    exact islandKept_noFrames.subPass before hframes
  · rw [hall]
    exact State.subPass_inv (P := State.MeasZero) (fun v j was hv h0 h1 => State.settle_measZero was h0 h1 hv) hmeas before

/-! ## The power-on reset and the rails -/

theorem State.powerLost_fields : s.powerLost.regs = [] ∧ s.powerLost.pwr.porN = false ∧ s.powerLost.pwr.isl = [] ∧
    s.powerLost.pwr.pllOn = false ∧ s.powerLost.pwr.fallow = false ∧ s.powerLost.frames = [] ∧ s.powerLost.copies = [] ∧
    s.powerLost.timers = [] ∧ s.powerLost.outbox = s.outbox := by
  unfold State.powerLost
  exact ⟨rfl, rfl, rfl, rfl, rfl, rfl, rfl, rfl, rfl⟩

theorem State.powerLost_fuses : (s.sec.fuseBlow = none → s.powerLost.pwr.ledger = s.pwr.ledger) ∧
    (s.sec.lcBlow = none → s.powerLost.pwr.life = s.pwr.life) ∧ (s.sec.keyBlow = none → s.powerLost.pwr.revoked = s.pwr.revoked) := by
  have hp : s.powerLost.pwr.ledger = s.blowCut.pwr.ledger ∧ s.powerLost.pwr.life = s.blowCut.pwr.life ∧
      s.powerLost.pwr.revoked = s.blowCut.pwr.revoked := ⟨rfl, rfl, rfl⟩
  rw [hp.1, hp.2.1, hp.2.2]
  unfold State.blowCut
  extract_lets v p₀ p₁ p₂ p₃
  have h₁ : p₁.life = s.pwr.life ∧ p₁.revoked = s.pwr.revoked := by
    unfold p₁
    split <;> exact ⟨rfl, rfl⟩
  have h₂ : p₂.ledger = p₁.ledger ∧ p₂.revoked = p₁.revoked := by
    unfold p₂
    split
    · split <;> exact ⟨rfl, rfl⟩
    · exact ⟨rfl, rfl⟩
  have h₃ : p₃.ledger = p₂.ledger ∧ p₃.life = p₂.life := by
    unfold p₃
    split
    · split <;> exact ⟨rfl, rfl⟩
    · exact ⟨rfl, rfl⟩
  dsimp only
  refine ⟨fun h => (h₃.1.trans h₂.1).trans ?_, fun h => h₃.2.trans (.trans ?_ h₁.1), fun h => .trans ?_ (h₂.2.trans h₁.2)⟩
  · unfold p₁
    rw [h]
  · unfold p₂
    rw [h]
  · unfold p₃
    rw [h]

end Sys2Proof.Machine
end

section
/-! SUPPORT. The resets, the islands' controls and the power states, command by command (R67 to R72, R476 to R479, R495). -/

set_option Elab.async false

namespace Sys2Proof.Machine

variable (s : State)

/-! ## Power-on and the rails -/

theorem power_lost : s.completes (.powerOnReset false) fun t => t.regs = [] ∧ t.pwr.porN = false ∧ t.pwr.isl = [] ∧ t.pwr.pllOn = false ∧
    t.pwr.fallow = false ∧ t.frames = [] ∧ t.copies = [] ∧ t.timers = [] ∧ t.outbox = s.outbox ∧
    (s.sec.fuseBlow = none → t.pwr.ledger = s.pwr.ledger) ∧ (s.sec.lcBlow = none → t.pwr.life = s.pwr.life) ∧
    (s.sec.keyBlow = none → t.pwr.revoked = s.pwr.revoked) := by
  have hx : exec (.powerOnReset false) s = .next s.powerLost := by rw [exec_powerOnReset, execPowerOnReset, if_neg (by simp)]
  obtain ⟨hregs, hpor, hisl, hpll, hfallow, hframes, hcopies, htimers, hout⟩ := s.powerLost_fields
  exact State.completes_of hx ⟨hregs, hpor, hisl, hpll, hfallow, hframes, hcopies, htimers, hout, s.powerLost_fuses⟩

theorem rail_fault (rail : Fin 7) : s.completes (.railFault rail) fun t => t.regs = [] ∧ t.pwr.porN = false ∧ t.pwr.isl = [] ∧
    t.frames = [] ∧ t.timers = [] ∧ t.outbox = s.outbox := by
  have hx : exec (.railFault rail) s = .next s.powerLost := by rw [exec_railFault, execRailFault]
  obtain ⟨hregs, hpor, hisl, -, -, hframes, -, htimers, hout⟩ := s.powerLost_fields
  exact State.completes_of hx ⟨hregs, hpor, hisl, hframes, htimers, hout⟩

/-- An island that is enabled starts its ramp. -/
def State.rampUp (i : Nat) : State := if s.enabled i then (s.setIslAt i .ramp).startTimer (.ramp i) (us 100) else s

theorem State.rampUp_ctl (i : Nat) : CtlSettle s (s.rampUp i) := by
  unfold State.rampUp
  split
  · exact ((s.setIslAt_settle _ _).trans (State.startTimer_settle _ _ _)).ctl
  · exact .refl s

/-- An island that ramps goes on as another starts to. -/
theorem State.rampUp_keeps {i : Nat} (j : Nat) (h : s.islAt i = .ramp ∧ s.timerOn (.ramp i) = true) :
    (s.rampUp j).islAt i = .ramp ∧ (s.rampUp j).timerOn (.ramp i) = true := by
  unfold State.rampUp
  split
  · refine ⟨?_, State.startTimer_ramp _ _ _ i h.2⟩
    rw [State.islAt_startTimer, State.islAt_setIslAt]
    split
    · rfl
    · exact h.1
  · exact h

theorem State.rampUp_self {i : Nat} (h : s.enabled i = true) : (s.rampUp i).islAt i = .ramp ∧ (s.rampUp i).timerOn (.ramp i) = true := by
  unfold State.rampUp
  rw [if_pos h]
  refine ⟨?_, State.timerOn_startTimer _ _ _⟩
  rw [State.islAt_startTimer, State.islAt_setIslAt, if_pos rfl]

theorem State.rampUps_spec (l : List Nat) : CtlSettle s (l.foldl State.rampUp s) ∧ (∀ i ∈ l, s.enabled i = true →
    (l.foldl State.rampUp s).islAt i = .ramp ∧ (l.foldl State.rampUp s).timerOn (.ramp i) = true) := by
  have hkeeps : ∀ (l : List Nat) (u : State) (i : Nat), u.islAt i = .ramp ∧ u.timerOn (.ramp i) = true →
      (l.foldl State.rampUp u).islAt i = .ramp ∧ (l.foldl State.rampUp u).timerOn (.ramp i) = true := by
    intro l
    induction l with
    | nil => exact fun _ _ h => h
    | cons j l ih => exact fun u i h => ih _ i (u.rampUp_keeps j h)
  induction l generalizing s with
  | nil => exact ⟨.refl s, fun _ h => absurd h (by simp)⟩
  | cons j l ih =>
    obtain ⟨hctl, hall⟩ := ih (s.rampUp j)
    refine ⟨(s.rampUp_ctl j).trans hctl, fun i hi he => ?_⟩
    obtain rfl | hi := List.mem_cons.1 hi
    · exact hkeeps l _ i (s.rampUp_self he)
    · exact hall i hi ((s.rampUp_ctl j).enabled i |>.trans he)

/-- The power is good and the fuses are sensed. -/
def State.powerGood : State :=
  { s with pwr := { s.pwr with porN := true, pllOn := true, fusesSensed := true, lifeSensed := s.pwr.life } }

theorem State.powerReleased_eq : s.powerReleased = (List.range 27).foldl State.rampUp s.powerGood := rfl

theorem State.powerGood_enabled (i : Nat) : s.powerGood.enabled i = s.enabled i := rfl

theorem power_on (i : Fin 27) (hp : s.pwr.porN = false) :
    s.completes (.powerOnReset true) fun t => t.pwr.porN = true ∧ t.pwr.pllOn = true ∧ t.pwr.fusesSensed = true ∧
      t.pwr.lifeSensed = s.pwr.life ∧ (s.enabled i = true → t.islAt i = .ramp ∧ t.timerOn (.ramp i.val) = true) := by
  have hx : exec (.powerOnReset true) s = .next ((List.range 27).foldl State.rampUp s.powerGood) := by
    rw [exec_powerOnReset, execPowerOnReset, if_pos rfl, if_neg (by simp [hp]), State.powerReleased_eq]
  obtain ⟨hctl, hall⟩ := s.powerGood.rampUps_spec (List.range 27)
  have hall := hall i.val (List.mem_range.2 i.isLt)
  generalize (List.range 27).foldl State.rampUp s.powerGood = u at hx hctl hall
  refine State.completes_of hx ⟨congrArg (·.porN) hctl.fixed, congrArg (·.pllOn) hctl.fixed, congrArg (·.fusesSensed) hctl.fixed,
    congrArg (·.lifeSensed) hctl.fixed, hall⟩

/-! ## The reset pins -/

/-- The host reset pin is low, and the cause is marked. -/
def State.hostPinned : State := State.cause { s with pwr := { s.pwr with hostRstN := false } } 1

/-- The host island, ON before and enabled, is held: it is HELD, its rings and its management port are gone, and no debug path is open. -/
theorem State.settleAll_hostDown (before : State) (hon : s.hostOn = true) (he : s.enabled 0 = true)
    (h : ∀ u, CtlSettle s u → u.held 0 = true) :
    (s.settleAll before).islAt 0 = .held ∧ (s.settleAll before).HostGone ∧ (s.settleAll before).DbgShut := by
  have hctl : CtlSettle s s.heldPass :=
    State.heldPass_inv (P := CtlSettle s) (fun u i was hu _ _ => hu.trans (u.settle_ctl i was)) (.refl s)
  obtain ⟨hall, hheld⟩ := s.islAt_settleAll_host before
  have hdown : s.heldPass.settle 0 (before.enabled 0) = s.heldPass.hostDown := by
    rw [State.settle_on _ _ (hheld.trans (eq_of_beq hon)) (.inl (h _ hctl)), State.islandDown, if_pos rfl]
  rw [hdown] at hall
  refine ⟨?_, ?_, ?_⟩
  · rw [hall, State.hostDown_eq, State.islAt_toHeld_self, hctl.enabled, he, if_pos rfl]
  · rw [State.settleAll_eq, hdown]
    exact islandKept_hostGone.subPass before (islandKept_hostGone.settle 1 _ s.heldPass.hostDown_hostGone)
  · rw [State.settleAll_eq, hdown]
    exact islandKept_shut.subPass before (islandKept_shut.settle 1 _ s.heldPass.hostDown_shut)

theorem host_pin_low (hon : s.hostOn = true) (hf : s.pwr.fallow = false) :
    s.completes (.hostResetPin false) fun t => t.pwr.hostRstN = false ∧ t.islAt 0 = .held ∧ t.rdb offRstCause 1 = true ∧
      t.rings = {} ∧ t.mgmt = {} ∧ t.sec.host.level = 0 ∧ t.sec.port.level = 0 := by
  have hx : exec (.hostResetPin false) s = .next (s.hostPinned.settleAll s) := by
    rw [exec_hostResetPin, execHostResetPin, if_neg (by simp)]
    rfl
  have hpin : ∀ u, CtlSettle s.hostPinned u → u.pwr.hostRstN = false := fun u hu => congrArg (·.hostRstN) hu.fixed
  have hen : s.hostPinned.enabled 0 = true := by
    have hfallow : s.hostPinned.pwr.fallow = false := hf
    simp [State.enabled, hfallow]
  obtain ⟨hheld, hgone, hshut⟩ := s.hostPinned.settleAll_hostDown s hon hen fun u hu => by
    simp [State.held, hpin u hu]
  refine State.completes_of hx ⟨hpin _ (State.settleAll_ctl _ _), hheld, ?_, hgone.1, hgone.2, hshut.1, hshut.2⟩
  rw [State.rdb_settleAll _ (by simp), State.hostPinned, State.cause, State.rdb_wrb _ _ _ _ (by omega)]

theorem host_pin_high : s.completes (.hostResetPin true) fun t => t = { s with pwr := { s.pwr with hostRstN := true } } := by
  have hx : exec (.hostResetPin true) s = .next { s with pwr := { s.pwr with hostRstN := true } } := by
    rw [exec_hostResetPin, execHostResetPin, if_pos rfl]
  exact State.completes_of hx rfl

/-- The line reset pin is low, and the cause is marked. -/
def State.linePinned : State := State.cause { s with pwr := { s.pwr with lineRstN := false } } 3

theorem line_pin_low (i : Fin 25) (hon : s.lineOn = true) (he : s.enabled 1 = true) :
    s.completes (.lineResetPin false) fun t => t.pwr.lineRstN = false ∧ t.islAt 1 = .held ∧ t.islAt (2 + i.val) ≠ .on ∧
      t.rdb offRstCause 3 = true ∧ t.frames = [] ∧ t.copies = [] ∧ t.rds (offMeas 0) 12 = List.replicate 12 0 := by
  have hx : exec (.lineResetPin false) s = .next (s.linePinned.settleAll s) := by
    rw [exec_lineResetPin, execLineResetPin, if_neg (by simp)]
    rfl
  have hpin : ∀ u, CtlSettle s.linePinned u → u.pwr.lineRstN = false := fun u hu => congrArg (·.lineRstN) hu.fixed
  have hen : s.linePinned.enabled 1 = true := by
    have hfallow : s.linePinned.pwr.fallow = s.pwr.fallow := rfl
    have hctl : s.linePinned.rdb offPwrIslandCtl 31 = s.rdb offPwrIslandCtl 31 :=
      congrArg (bit 31) (State.rd_wrb_ne _ _ _ (by simp [offPwrIslandCtl, offRstCause]))
    simpa [State.enabled, hfallow, hctl] using he
  obtain ⟨hline, hsubs, hframes, hmeas⟩ := s.linePinned.settleAll_lineDown s hon fun u hu => .inl (by
    simp [State.held, State.lineHold, hpin u hu])
  rw [hen, if_pos rfl] at hline
  refine State.completes_of hx ⟨hpin _ (State.settleAll_ctl _ _), hline, hsubs _ (mem_subIslands.2 (by omega)), ?_, hframes.1, hframes.2,
    hmeas⟩
  rw [State.rdb_settleAll _ (by simp), State.linePinned, State.cause, State.rdb_wrb _ _ _ _ (by omega)]

theorem line_pin_high : s.completes (.lineResetPin true) fun t => t = { s with pwr := { s.pwr with lineRstN := true } } := by
  have hx : exec (.lineResetPin true) s = .next { s with pwr := { s.pwr with lineRstN := true } } := by
    rw [exec_lineResetPin, execLineResetPin, if_pos rfl]
  exact State.completes_of hx rfl

/-! ## RST.CTL -/

/-- LINE_HOLD reads what it is set to; the power state but for the islands is as it was. -/
theorem State.setLineHold_spec (hold : Bool) : (s.setLineHold hold).rdb offRstCtl 0 = hold ∧
    (s.setLineHold hold).pwr.fixed = s.pwr.fixed := by
  have hself : (s.wrb offRstCtl 0 hold).rdb offRstCtl 0 = hold := State.rdb_wrb _ _ _ _ (by omega)
  unfold State.setLineHold
  extract_lets t
  split
  · refine ⟨?_, (State.settleAll_ctl _ _).fixed⟩
    rw [State.rdb_settleAll _ (by simp), State.cause, State.rdb, State.rd_wrb_ne _ _ _ (by simp [offRstCtl, offRstCause])]
    exact hself
  · exact ⟨hself, rfl⟩

theorem self_reset (hold : Bool) (hs : s.serves offRstCtl) (hf : s.pwr.fallow = false) :
    s.completes (.rstCtlHostSelf hold) fun t => t.islAt 0 = .held ∧ t.rdb offRstCause 2 = true ∧
      t.rdb offRstCtl 0 = hold ∧ t.rings = {} ∧ t.mgmt = {} := by
  let u := (((s.setLineHold hold).answer false 0).cause 2)
  have hu : u = (((s.setLineHold hold).answer false 0).cause 2) := rfl
  have hx : exec (.rstCtlHostSelf hold) s = .next u.hostDown := by
    rw [exec_rstCtlHostSelf, execRstCtlHostSelf, if_pos hs.1, State.cfg_noRegion hs (noRegion_ctl _ (by simp))]
  obtain ⟨hbit, hfixed⟩ := s.setLineHold_spec hold
  have hen : u.enabled 0 = true := by
    have hpwr : u.pwr = (s.setLineHold hold).pwr := by
      rw [hu, (State.cause_within _ _).same .pwr (by decide)]
      simp
    have hfallow : u.pwr.fallow = false := by rw [hpwr]; exact (congrArg (·.fallow) hfixed).trans hf
    simp [State.enabled, hfallow]
  have hctl := u.hostDown_ctl
  have hrd : ∀ x ∈ [offRstCtl, offRstBed, offRstCause, offPwrIslandCtl, offPwrState], u.hostDown.rd x = u.rd x :=
    fun x hx => hctl.rd x (ctlKept_ctl x hx)
  refine State.completes_of hx ⟨?_, ?_, ?_, u.hostDown_hostGone.1, u.hostDown_hostGone.2⟩
  · rw [State.hostDown_eq, State.islAt_toHeld_self, hen, if_pos rfl]
  · rw [State.rdb, hrd _ (by simp)]
    exact State.rdb_wrb _ _ _ _ (by omega)
  · rw [State.rdb, hrd _ (by simp), hu, State.cause, State.rd_wrb_ne _ _ _ (by simp [offRstCtl, offRstCause]), State.answer_rd]
    exact hbit

theorem line_hold (i : Fin 25) (hs : s.serves offRstCtl) (hon : s.lineOn = true) (hb : s.rdb offRstCtl 0 = false) :
    s.completes (.rstCtlLineHold true) fun t => t.rdb offRstCtl 0 = true ∧ t.rdb offRstCause 4 = true ∧
      t.islAt 1 ≠ .on ∧ t.islAt (2 + i.val) ≠ .on := by
  let u := (s.wrb offRstCtl 0 true).cause 4
  have hu : u = (s.wrb offRstCtl 0 true).cause 4 := rfl
  have hset : s.setLineHold true = u.settleAll s := by
    rw [State.setLineHold, if_pos (by simp [hb])]
  have hbit : u.rdb offRstCtl 0 = true := by
    rw [hu, State.cause, State.rdb, State.rd_wrb_ne _ _ _ (by simp [offRstCtl, offRstCause])]
    exact State.rdb_wrb _ _ _ _ (by omega)
  obtain ⟨hline, hsubs, -, -⟩ := u.settleAll_lineDown s hon fun v hv => .inl (by
    have hv' : v.rdb offRstCtl 0 = true := (congrArg (bit 0) (hv.rd _ (ctlKept_ctl _ (by simp)))).trans hbit
    simp [State.held, State.lineHold, hv'])
  refine State.completes_cfg (by rw [exec_rstCtlLineHold, execRstCtlLineHold]) hs (noRegion_ctl _ (by simp)) ?_
  rw [hset]
  have hisl : ∀ j, ((u.settleAll s).answer false 0).islAt j = (u.settleAll s).islAt j := fun j => State.islAt_pwr (by simp) j
  refine ⟨?_, ?_, ?_, ?_⟩
  · rw [State.answer_rdb, State.rdb_settleAll _ (by simp)]
    exact hbit
  · rw [State.answer_rdb, State.rdb_settleAll _ (by simp), hu, State.cause, State.rdb_wrb _ _ _ _ (by omega)]
  · rw [hisl, hline]
    split <;> simp
  · rw [hisl]
    exact hsubs _ (mem_subIslands.2 (by omega))

theorem line_release (hs : s.serves offRstCtl) :
    s.completes (.rstCtlLineHold false) fun t => t.rdb offRstCtl 0 = false ∧ t.pwr = s.pwr := by
  have hset : s.setLineHold false = s.wrb offRstCtl 0 false := by rw [State.setLineHold, if_neg (by simp)]
  refine State.completes_cfg (by rw [exec_rstCtlLineHold, execRstCtlLineHold]) hs (noRegion_ctl _ (by simp)) ?_
  rw [hset]
  exact ⟨by rw [State.answer_rdb, State.rdb_wrb _ _ _ _ (by omega)], by simp⟩

end Sys2Proof.Machine
end

section
/-! SUPPORT. RST.BED, PWR.ISLAND_CTL and the power states, command by command (R68, R71, R72, R476 to R479). -/

set_option Elab.async false

namespace Sys2Proof.Machine

variable (s : State)

theorem bit_and (i : Nat) (a b : Word) : bit i (a &&& b) = (bit i a && bit i b) := by simp [bit]

theorem State.answer_islAt (e : Bool) (d : Word) (j : Nat) : (s.answer e d).islAt j = s.islAt j := State.islAt_pwr (by simp) j

/-! ## RST.BED -/

/-- The word that a write of RST.BED leaves: a guarded bed's bit that it would set stays. -/
def State.rstBedWord (v : Word) : Word :=
  keepBits 17 (fun i => decide (i < 17) && !bit i (s.rd offRstBed) && bit i v && s.bedGuarded i) (s.rd offRstBed) (v &&& 0x1FFFF)

theorem State.rstBedWrite_eq (v : Word) : ∃ (c : Prop) (_ : Decidable c), s.rstBedWrite v =
    (if c then ((s.wr offRstBed (s.rstBedWord v)).settleAll s).pwrRefused else (s.wr offRstBed (s.rstBedWord v)).settleAll s) ∧
    (∀ i : Fin 17, s.rdb offRstBed i = false → bit i v = true → s.bedGuarded i = true → c) := by
  refine ⟨_, _, rfl, fun i h hv hg => List.any_eq_true.2 ⟨i.val, List.mem_range.2 i.isLt, ?_⟩⟩
  have h' : bit i (s.rd offRstBed) = false := h
  simp [h', hv, hg, i.isLt]

theorem State.bit_rstBedWord (v : Word) (i : Fin 17) : bit i (s.rstBedWord v) =
    if s.rdb offRstBed i = false ∧ bit i v = true ∧ s.bedGuarded i = true then false else bit i v := by
  have hi := i.isLt
  have hmask : bit i (0x1FFFF : Word) = true := by revert i; decide
  rw [State.rstBedWord, bit_keepBits _ _ _ _ (by omega), bit_and, hmask, Bool.and_true, State.rdb]
  by_cases h : bit i (s.rd offRstBed) = false ∧ bit i v = true ∧ s.bedGuarded i = true
  · rw [if_pos h, if_pos (by simp [hi, h])]
    exact h.1
  · rw [if_neg h, if_neg (by simpa [hi] using h)]

theorem State.rdb_rstBed_after (v : Word) (i : Fin 17) (c : Prop) [Decidable c] :
    (if c then ((s.wr offRstBed (s.rstBedWord v)).settleAll s).pwrRefused else (s.wr offRstBed (s.rstBedWord v)).settleAll s).rdb
      offRstBed i = bit i (s.rstBedWord v) := by
  rw [State.rdb_refusedIf _ _ (by simp), State.rdb_settleAll _ (by simp), State.rdb, State.rd_wr_same]

theorem rst_bed_refused (i : Fin 17) (v : Word) (hs : s.serves offRstBed) (hb : s.rdb offRstBed i = false) (hv : bit i v = true)
    (hg : s.bedGuarded i = true) :
    s.completes (.rstBedWrite v) fun t => t.rdb offRstBed i = false ∧ t.rdb offPwrFault 31 = true ∧ t.rdb offBlkEvt 2 = true := by
  obtain ⟨c, _, heq, hc⟩ := s.rstBedWrite_eq v
  refine State.completes_cfg (by rw [exec_rstBedWrite, execRstBedWrite]) hs (noRegion_ctl _ (by simp)) ?_
  rw [State.answer_rdb, State.answer_rdb, State.answer_rdb, heq]
  refine ⟨?_, ?_⟩
  · rw [s.rdb_rstBed_after, s.bit_rstBedWord, if_pos ⟨hb, hv, hg⟩]
  · rw [if_pos (hc i hb hv hg)]
    exact State.pwrRefused_marks _

theorem rst_bed_write (i : Fin 17) (v : Word) (hs : s.serves offRstBed)
    (h : s.rdb offRstBed i = true ∨ bit i v = false ∨ s.bedGuarded i = false) :
    s.completes (.rstBedWrite v) fun t => t.rdb offRstBed i = bit i v ∧ (bit i v = true → t.islAt (2 + i.val) ≠ .on) := by
  have hi := i.isLt
  obtain ⟨c, _, heq, -⟩ := s.rstBedWrite_eq v
  have hword : bit i (s.rstBedWord v) = bit i v := by
    rw [s.bit_rstBedWord, if_neg]
    rintro ⟨h1, h2, h3⟩
    simp [h1, h2, h3] at h
  refine State.completes_cfg (by rw [exec_rstBedWrite, execRstBedWrite]) hs (noRegion_ctl _ (by simp)) ?_
  rw [State.answer_rdb, heq]
  refine ⟨(s.rdb_rstBed_after v i c).trans hword, fun hv => ?_⟩
  rw [State.answer_islAt, State.islAt_pwr (State.refusedIf_pwr _ _)]
  refine State.settleAll_bedDown _ s (by omega) ?_
  rw [State.held, if_neg (by omega), if_neg (by omega), if_pos (by omega), Nat.add_sub_cancel_left, State.rdb, State.rd_wr_same, hword, hv]

/-! ## PWR.ISLAND_CTL -/

/-- The word that a write of PWR.ISLAND_CTL leaves: a guarded island's bit that it would clear stays. -/
def State.islandCtlWord (v : Word) : Word :=
  keepBits 25 (fun i => !(!bit 31 v) && bit i (s.rd offPwrIslandCtl) && !bit i v &&
    (if i < 17 then s.bedGuarded i else s.siltGuarded (i - 17))) (s.rd offPwrIslandCtl) (v &&& s.islandCtlMask)

theorem State.islandCtlWrite_eq (v : Word) : ∃ (c : Prop) (_ : Decidable c), s.islandCtlWrite v =
    (if c then ((s.wr offPwrIslandCtl (s.islandCtlWord v)).settleAll s).pwrRefused
      else (s.wr offPwrIslandCtl (s.islandCtlWord v)).settleAll s) ∧
    (∀ i : Fin 17, bit 31 v = true → s.rdb offPwrIslandCtl i = true → bit i v = false → s.bedGuarded i = true → c) := by
  refine ⟨_, _, rfl, fun i h31 h hv hg => List.any_eq_true.2 ⟨i.val, List.mem_range.2 (by omega), ?_⟩⟩
  have h' : bit i (s.rd offPwrIslandCtl) = true := h
  simp [h31, h', hv, hg, i.isLt]

theorem State.bit_islandCtlMask {i : Nat} (h : i < 16 ∨ i = 31) : bit i s.islandCtlMask = true := by
  have hmask : bit i (0x81FFFFFF : Word) = true := by
    have hall : ((List.range 32).all fun i => decide (i < 16 ∨ i = 31) → bit i (0x81FFFFFF : Word) = true) = true := by decide
    simpa [h] using List.all_eq_true.1 hall i (List.mem_range.2 (by omega))
  rw [State.islandCtlMask, bit_keepBits _ _ _ _ (by omega), if_neg, hmask]
  rintro ⟨hlt, hp⟩
  simp only [Bool.or_eq_true, Bool.and_eq_true, beq_iff_eq, decide_eq_true_eq] at hp
  omega

/-- A bit that is written 1 reads 1, and bit 31 what is written to it. -/
theorem State.bit_islandCtlWord {v : Word} {i : Nat} (h : i < 16 ∧ bit i v = true ∨ i = 31) : bit i (s.islandCtlWord v) = bit i v := by
  rw [State.islandCtlWord, bit_keepBits _ _ _ _ (by omega), bit_and, s.bit_islandCtlMask (by omega), Bool.and_true, if_neg]
  rintro ⟨hlt, hp⟩
  obtain ⟨-, hv⟩ | rfl := h
  · simp [hv] at hp
  · omega

theorem State.rdb_islandCtl_after (v : Word) (i : Nat) (c : Prop) [Decidable c] :
    (if c then ((s.wr offPwrIslandCtl (s.islandCtlWord v)).settleAll s).pwrRefused
      else (s.wr offPwrIslandCtl (s.islandCtlWord v)).settleAll s).rdb offPwrIslandCtl i = bit i (s.islandCtlWord v) := by
  rw [State.rdb_refusedIf _ _ (by simp), State.rdb_settleAll _ (by simp), State.rdb, State.rd_wr_same]

theorem island_ctl_refused (i : Fin 17) (v : Word) (hs : s.serves offPwrIslandCtl) (h31 : bit 31 v = true)
    (hb : s.rdb offPwrIslandCtl i = true) (hv : bit i v = false) (hg : s.bedGuarded i = true) :
    s.completes (.pwrIslandCtlWrite v) fun t => t.rdb offPwrIslandCtl i = true ∧ t.rdb offPwrFault 31 = true ∧
      t.rdb offBlkEvt 2 = true := by
  have hi := i.isLt
  have hb' : bit i (s.rd offPwrIslandCtl) = true := hb
  obtain ⟨c, _, heq, hc⟩ := s.islandCtlWrite_eq v
  refine State.completes_cfg (by rw [exec_pwrIslandCtlWrite, execPwrIslandCtlWrite]) hs (noRegion_ctl _ (by simp)) ?_
  rw [State.answer_rdb, State.answer_rdb, State.answer_rdb, heq]
  refine ⟨?_, ?_⟩
  · rw [s.rdb_islandCtl_after, State.islandCtlWord, bit_keepBits _ _ _ _ (by omega), if_pos, hb']
    exact ⟨by omega, by simp [h31, hb', hv, hg, hi]⟩
  · rw [if_pos (hc i h31 hb hv hg)]
    exact State.pwrRefused_marks _

theorem island_ctl_on (i : Fin 17) (v : Word) (hs : s.serves offPwrIslandCtl) (h16 : i.val ≠ 16) (h31 : bit 31 v = true)
    (hv : bit i v = true) :
    s.completes (.pwrIslandCtlWrite v) fun t => t.rdb offPwrIslandCtl i = true ∧ t.rdb offPwrIslandCtl 31 = true := by
  obtain ⟨c, _, heq, -⟩ := s.islandCtlWrite_eq v
  refine State.completes_cfg (by rw [exec_pwrIslandCtlWrite, execPwrIslandCtlWrite]) hs (noRegion_ctl _ (by simp)) ?_
  rw [State.answer_rdb, State.answer_rdb, heq, s.rdb_islandCtl_after, s.rdb_islandCtl_after,
    s.bit_islandCtlWord (.inl ⟨by omega, hv⟩), s.bit_islandCtlWord (.inr rfl)]
  exact ⟨hv, h31⟩

/-- Frames are where they were, a refusal or not. -/
theorem State.refusedIf_noFrames (c : Prop) [Decidable c] {s : State} (h : s.NoFrames) : (if c then s.pwrRefused else s).NoFrames := by
  split
  · exact h.within s.pwrRefused_within (by decide) (by decide)
  · exact h

theorem island_ctl_line (v : Word) (hs : s.serves offPwrIslandCtl) (h31 : bit 31 v = false) (hon : s.lineOn = true) :
    s.completes (.pwrIslandCtlWrite v) fun t => t.rdb offPwrIslandCtl 31 = false ∧ t.islAt 1 = .off ∧
      t.frames = [] ∧ t.copies = [] := by
  obtain ⟨c, _, heq, -⟩ := s.islandCtlWrite_eq v
  let u := s.wr offPwrIslandCtl (s.islandCtlWord v)
  have hu : u = s.wr offPwrIslandCtl (s.islandCtlWord v) := rfl
  have hbit : u.rdb offPwrIslandCtl 31 = false := by
    rw [hu, State.rdb, State.rd_wr_same, s.bit_islandCtlWord (.inr rfl), h31]
  have hen : ∀ w, CtlSettle u w → w.enabled 1 = false := fun w hw => by
    rw [hw.enabled]
    simp [State.enabled, hbit]
  obtain ⟨hline, -, hframes, -⟩ := u.settleAll_lineDown s hon fun w hw => .inr (hen w hw)
  rw [hen u (.refl u), if_neg (by decide)] at hline
  refine State.completes_cfg (by rw [exec_pwrIslandCtlWrite, execPwrIslandCtlWrite]) hs (noRegion_ctl _ (by simp)) ?_
  rw [State.answer_rdb, State.answer_islAt, heq]
  obtain ⟨hf, hc⟩ := State.refusedIf_noFrames c hframes
  refine ⟨?_, ?_, by simpa using hf, by simpa using hc⟩
  · rw [s.rdb_islandCtl_after, s.bit_islandCtlWord (.inr rfl), h31]
  · rw [State.islAt_pwr (State.refusedIf_pwr _ _)]
    exact hline

/-! ## PWR.STATE -/

theorem CtlSettle.fallow {s t : State} (h : CtlSettle s t) : t.pwr.fallow = s.pwr.fallow := congrArg (·.fallow) h.fixed

theorem CtlSettle.pllOn {s t : State} (h : CtlSettle s t) : t.pwr.pllOn = s.pwr.pllOn := congrArg (·.pllOn) h.fixed

/-- Islands' bits are set, and no other register changes. -/
theorem State.setIslands_spec (l : List Nat) : (∀ x ≠ offPwrIslandCtl, (l.foldl (fun t i => t.wrb offPwrIslandCtl i true) s).rd x = s.rd x) ∧
    (∀ i < 32, (l.foldl (fun t i => t.wrb offPwrIslandCtl i true) s).rdb offPwrIslandCtl i = (s.rdb offPwrIslandCtl i || l.contains i)) := by
  induction l generalizing s with
  | nil => exact ⟨fun _ _ => rfl, fun _ _ => by simp⟩
  | cons j l ih =>
    obtain ⟨hrd, hbit⟩ := ih (s.wrb offPwrIslandCtl j true)
    refine ⟨fun x hx => (hrd x hx).trans (State.rd_wrb_ne _ _ _ hx), fun i hi => ?_⟩
    rw [List.foldl_cons, hbit i hi, State.rdb, State.rd_wrb_same, bit_setBit j i _ _ hi, List.contains_cons]
    by_cases hij : i = j
    · simp [hij]
    · have hbeq : (i == j) = false := by simpa using hij
      rw [if_neg hij, hbeq, Bool.false_or]
      rfl

theorem pwr_trim (i : Fin 17) (hs : s.serves offPwrState) (hrun : s.isRun = true) :
    s.completes .pwrStateTrim fun t => t.rdf offPwrState 31 30 = 1 ∧ (s.bedGuarded i = true → t.rdb offPwrIslandCtl i = true) := by
  have hi := i.isLt
  have hx : s.pwrStateWrite 1 = s.trimEnter := by rw [State.pwrStateWrite, if_pos (by simp [hrun])]
  refine State.completes_cfg (by rw [exec_pwrStateTrim, execPwrStateTrim]) hs (noRegion_ctl _ (by simp)) ?_
  rw [hx, State.answer_rdf, State.answer_rdb]
  unfold State.trimEnter
  extract_lets bad t u
  obtain ⟨hrd, hbit⟩ := (s.wr offPwrState 0x40000001).setIslands_spec bad
  have hout : ∀ x ∈ [offPwrIslandCtl, offPwrState], (if bad = [] then u else u.pwrRefused).rd x = t.rd x := by
    intro x hx
    have hall : u.rd x = t.rd x := (State.settleAll_ctl _ _).rd x (ctlKept_ctl x (by simp at hx; simp [hx]))
    split
    · exact hall
    · refine (State.rd_pwrRefused_ne _ ?_ ?_).trans hall <;>
      · rintro rfl
        revert hx
        decide
  refine ⟨?_, fun hg => ?_⟩
  · rw [State.rdf, hout _ (by simp)]
    unfold t
    rw [hrd _ (by simp [offPwrState, offPwrIslandCtl]), State.rd_wr_same]
    rfl
  · rw [State.rdb, hout _ (by simp)]
    refine (hbit i (by omega)).trans ?_
    rw [State.rdb, State.rd_wr_ne _ _ (by simp [offPwrState, offPwrIslandCtl])]
    by_cases hb : bit i (s.rd offPwrIslandCtl) = true
    · simp [hb]
    · have hmem : i.val ∈ bad := List.mem_filter.2 ⟨List.mem_range.2 (by omega), by simp [State.rdb, hb, hi, hg]⟩
      simp [hmem]

theorem pwr_run (hs : s.serves offPwrState) (hrun : s.isRun = false) :
    s.completes .pwrStateRun fun t => t.rdf offPwrState 31 30 = 0 := by
  have hx : s.pwrStateWrite 0 = (s.wr offPwrState 0).settleAll s := by
    rw [State.pwrStateWrite, if_neg (by simp), if_pos (by simp [hrun])]
  refine State.completes_cfg (by rw [exec_pwrStateRun, execPwrStateRun]) hs (noRegion_ctl _ (by simp)) ?_
  rw [hx, State.answer_rdf, State.rdf, (State.settleAll_ctl _ _).rd _ (ctlKept_ctl _ (by simp)), State.rd_wr_same]
  rfl

/-! ## FALLOW -/

/-- What the entry into FALLOW ends beside the islands changes registers of no island's control, no power state and no level. -/
theorem State.secAborted_spec (before : State) : (s.secAborted before).rd offRstCtl = s.rd offRstCtl ∧
    (s.secAborted before).pwr = s.pwr ∧ (s.DbgShut → (s.secAborted before).DbgShut) := by
  have hres : ∀ (u : State) port n, u.DbgShut → (u.dbgResult port n).DbgShut := fun u port n h => by
    cases port <;> exact h
  have hreq : ∀ u : State, ((u.wrb offLcReq 30 false).wrf offLcReq 29 28 2).rd offRstCtl = u.rd offRstCtl := fun u => by
    rw [State.rd_wrf_ne _ _ _ _ (by simp [offLcReq, offRstCtl]), State.rd_wrb_ne _ _ _ (by simp [offLcReq, offRstCtl])]
  unfold State.secAborted
  extract_lets t u v
  have ht : t.rd offRstCtl = s.rd offRstCtl ∧ t.pwr = s.pwr ∧ (s.DbgShut → t.DbgShut) := by
    unfold t
    split
    · exact ⟨rfl, rfl, hres _ _ _⟩
    · exact ⟨rfl, rfl, id⟩
  have hu : u.rd offRstCtl = t.rd offRstCtl ∧ u.pwr = t.pwr ∧ (t.DbgShut → u.DbgShut) := by
    unfold u
    split
    · exact ⟨rfl, rfl, hres _ _ _⟩
    · exact ⟨hreq t, rfl, id⟩
    · exact ⟨rfl, rfl, id⟩
  have hv : v.rd offRstCtl = u.rd offRstCtl ∧ v.pwr = u.pwr ∧ (u.DbgShut → v.DbgShut) := by
    unfold v
    split
    · exact ⟨hreq u, rfl, id⟩
    · exact ⟨rfl, rfl, id⟩
  exact ⟨hv.1.trans (hu.1.trans ht.1), hv.2.1.trans (hu.2.1.trans ht.2.1), fun h => hv.2.2 (hu.2.2 (ht.2.2 h))⟩

theorem State.fallowEnter_spec : s.fallowEnter.pwr.fallow = true ∧ s.fallowEnter.pwr.isl = [] ∧ s.fallowEnter.pwr.pllOn = false ∧
    s.fallowEnter.pwr.pllLocked = false ∧ s.fallowEnter.pwr.wakeArmed = true ∧ s.fallowEnter.rdb offRstCtl 0 = true ∧
    s.fallowEnter.DbgShut := by
  unfold State.fallowEnter
  extract_lets c deaf t₀ src p t₁ t₂ t₃ t₄ t₅
  have h₁ : t₁.pwr.fallow = true ∧ t₁.rdb offRstCtl 0 = true ∧ t₁.DbgShut :=
    ⟨rfl, State.rdb_wrb t₀ _ _ _ (by omega), s.dbgCloseBoth_shut⟩
  have hctl : CtlSettle t₁ t₃ := by
    refine (t₁.settle_ctl 1 true).trans (CtlSettle.foldl (.refl _) fun u i _ => ?_)
    split
    · exact .refl u
    · exact u.settle_ctl i true
  have hshut : t₃.DbgShut := by
    have hfold : ∀ (l : List Nat) (u : State), u.DbgShut → (l.foldl (fun t i => if i = 1 then t else t.settle i true) u).DbgShut := by
      intro l
      induction l with
      | nil => exact fun _ h => h
      | cons i l ih =>
        refine fun u h => ih _ ?_
        dsimp only
        split
        · exact h
        · exact islandKept_shut.settle i true h
    exact hfold _ _ (islandKept_shut.settle 1 true h₁.2.2)
  clear_value t₃
  have h₃ : t₃.pwr.fallow = true ∧ t₃.rdb offRstCtl 0 = true :=
    ⟨(congrArg (·.fallow) hctl.fixed).trans h₁.1, (congrArg (bit 0) (hctl.rd _ (ctlKept_ctl _ (by simp)))).trans h₁.2.1⟩
  obtain ⟨hrd, hpwr, hdbg⟩ := (t₃.dropTimers fun x => match x with | .ramp _ => true | _ => false).secAborted_spec s
  have h₄ : t₄.pwr.fallow = true ∧ t₄.rdb offRstCtl 0 = true ∧ t₄.DbgShut := by
    refine ⟨?_, (congrArg (bit 0) hrd).trans h₃.2, hdbg hshut⟩
    exact (congrArg (·.fallow) hpwr).trans h₃.1
  clear_value t₄
  have h₅ : t₅.pwr.fallow = true ∧ t₅.rdb offRstCtl 0 = true ∧ t₅.DbgShut := by
    unfold t₅
    split
    · exact ⟨h₄.1, (congrArg (bit 0) (State.rd_wrb_ne _ _ _ (by simp [offRstCtl, offWakeStatus]))).trans h₄.2.1, h₄.2.2⟩
    · exact h₄
  clear_value t₅
  exact ⟨h₅.1, rfl, rfl, rfl, rfl, h₅.2.1, h₅.2.2⟩

/-- A request of FALLOW closes both debug paths first. -/
theorem State.pwrStateWrite_fallow : s.pwrStateWrite 2 = (if ((s.dbgClose false).dbgClose true).blowing then
    { ((s.dbgClose false).dbgClose true) with pwr := { ((s.dbgClose false).dbgClose true).pwr with fallowWait := true } }
    else ((s.dbgClose false).dbgClose true).fallowEnter) := by
  rw [State.pwrStateWrite, if_neg (by simp), if_neg (by simp), if_pos rfl]

theorem State.blowing_dbgClose : ((s.dbgClose false).dbgClose true).blowing = s.blowing := by
  have hone : ∀ (u : State) port, (u.dbgClose port).blowing = u.blowing := fun u port => by
    rw [State.blowing, State.blowing, State.dbgClose_sec]
    split
    · rfl
    · cases port <;> rfl
  rw [hone, hone]

theorem fallow_entry (hs : s.serves offPwrState) (hb : s.blowing = false) :
    s.completes .fallowEntry fun t => t.pwr.fallow = true ∧ t.pwr.isl = [] ∧ t.pwr.pllOn = false ∧
      t.pwr.pllLocked = false ∧ t.pwr.wakeArmed = true ∧ t.rdb offRstCtl 0 = true ∧ t.sec.host.level = 0 ∧
      t.sec.port.level = 0 := by
  refine State.completes_cfg (by rw [exec_fallowEntry, execFallowEntry]) hs (noRegion_ctl _ (by simp)) ?_
  rw [State.pwrStateWrite_fallow, s.blowing_dbgClose, hb, if_neg (by simp)]
  obtain ⟨hfallow, hisl, hon, hlocked, harmed, hhold, hshut⟩ := State.fallowEnter_spec ((s.dbgClose false).dbgClose true)
  generalize ((s.dbgClose false).dbgClose true).fallowEnter = u at *
  rw [State.answer_rdb]
  simp only [State.answer_fields]
  exact ⟨hfallow, hisl, hon, hlocked, harmed, hhold, hshut⟩

theorem fallow_wait (hs : s.serves offPwrState) (hb : s.blowing = true) :
    s.completes .fallowEntry fun t => t.pwr.fallowWait = true ∧ t.pwr.isl = s.pwr.isl ∧ t.pwr.fallow = s.pwr.fallow ∧
      t.frames = s.frames ∧ t.sec.host.level = 0 ∧ t.sec.port.level = 0 := by
  refine State.completes_cfg (by rw [exec_fallowEntry, execFallowEntry]) hs (noRegion_ctl _ (by simp)) ?_
  rw [State.pwrStateWrite_fallow, s.blowing_dbgClose, hb, if_pos rfl]
  have hw := (s.dbgClose_within false).trans (State.dbgClose_within _ true)
  have hpwr : ((s.dbgClose false).dbgClose true).pwr = s.pwr := hw.same .pwr (by decide)
  have hframes : ((s.dbgClose false).dbgClose true).frames = s.frames := hw.same .frames (by decide)
  have hshut := s.dbgCloseBoth_shut
  generalize (s.dbgClose false).dbgClose true = u at *
  simp only [State.answer_fields]
  exact ⟨trivial, congrArg (·.isl) hpwr, congrArg (·.fallow) hpwr, hframes, hshut⟩

/-- The power state once FALLOW ends: the PLL is on again. -/
def State.fallowLeft : State :=
  { s with pwr := { s.pwr with fallow := false, wakeReq := false, wakeArmed := false, wakeDeaf := false, pllOn := true } }

theorem fallow_exit (hf : s.pwr.fallow = true) (hw : s.pwr.wakeReq = true ∨ s.pwr.hostRstN = false) (hoff : s.islAt 0 = .off) :
    s.completes .fallowExit fun t => t.pwr.fallow = false ∧ t.pwr.pllOn = true ∧ t.rdf offPwrState 31 30 = 0 ∧
      t.rdb offRstCause 6 = true ∧ t.islAt 0 = .ramp ∧ t.timerOn (.ramp 0) = true := by
  let u := (s.fallowLeft.wr offPwrState 0).cause 6
  have hu : u = (s.fallowLeft.wr offPwrState 0).cause 6 := rfl
  have hx : exec .fallowExit s = .next (u.settleAll s) := by
    rw [exec_fallowExit, execFallowExit, if_pos (by obtain h | h := hw <;> simp [hf, h]), hu, State.fallowLeft]
  have hall := u.settleAll_ctl s
  have hpre : CtlSettle u u.heldPass ∧ u.heldPass.islAt 0 = .off :=
    ⟨State.heldPass_inv (P := CtlSettle u) (fun v i was hv _ _ => hv.trans (v.settle_ctl i was)) (.refl u),
      (u.islAt_settleAll_host s).2.trans hoff⟩
  have hfallow : u.heldPass.pwr.fallow = false := hpre.1.fallow.trans rfl
  have hhost : u.heldPass.settle 0 (s.enabled 0) = (u.heldPass.setIslAt 0 .ramp).startTimer (.ramp 0) (us 100) := by
    have hbefore : s.enabled 0 = false := by simp [State.enabled, hf]
    have hen : u.heldPass.enabled 0 = true := by simp [State.enabled, hfallow]
    unfold State.settle
    rw [hpre.2, hbefore]
    dsimp only
    rw [if_pos (by simp [hen])]
  refine State.completes_of hx ⟨hall.fallow.trans rfl, hall.pllOn.trans rfl, ?_, ?_, ?_, ?_⟩
  · rw [State.rdf, hall.rd _ (ctlKept_ctl _ (by simp)), hu, State.cause, State.rd_wrb_ne _ _ _ (by simp [offPwrState, offRstCause]),
      State.rd_wr_same]
    rfl
  · rw [State.rdb_settleAll _ (by simp), hu, State.cause, State.rdb_wrb _ _ _ _ (by omega)]
  · rw [(u.islAt_settleAll_host s).1, hhost, State.islAt_startTimer, State.islAt_setIslAt, if_pos rfl]
  · rw [State.settleAll_eq, hhost]
    refine State.subPass_inv (P := fun v => v.timerOn (.ramp 0) = true) (fun v i was hv h0 _ => v.settle_ramp was h0 0 hv) ?_ s
    exact State.settle_ramp _ _ (by decide) 0 (State.timerOn_startTimer _ _ _)

/-- Settles O59, clause by clause. -/
theorem resetsAndPowerStatesAct : Obligations.ResetsAndPowerStatesAct := by
  unfold Obligations.ResetsAndPowerStatesAct
  intro s
  exact ⟨power_lost s, rail_fault s, power_on s, host_pin_low s, host_pin_high s, line_pin_low s, line_pin_high s, self_reset s,
    line_hold s, line_release s, rst_bed_refused s, rst_bed_write s, island_ctl_refused s, island_ctl_on s, island_ctl_line s,
    fun i hs hrun _ _ _ => pwr_trim s i hs hrun, pwr_run s, fallow_entry s, fallow_wait s, fallow_exit s⟩

end Sys2Proof.Machine
end

section
/-! SUPPORT. The tier mover: moves to subsoil and to modules, and prefetches back (R29, R211 to R215). -/

set_option Elab.async false

namespace Sys2Proof.Machine

variable (s : State)

/-! ## Frames and occupancy -/

theorem State.frame_congr {s t : State} (h : t.frames = s.frames) (f : Nat) : t.frame f = s.frame f := by rw [State.frame, State.frame, h]

theorem State.frame_setFrame (f g : Nat) (x : Option Frame) : (s.setFrame f x).frame g = if g = f then x else s.frame g :=
  sget_sset _ _ _ _ _

theorem State.frame_frameMod (f : Nat) (k : Frame → Frame) : (s.frameMod f k).frame f = (s.frame f).map k := by
  rw [State.frameMod, State.frame_setFrame, if_pos rfl]

theorem State.cnt_frameMod (f off : Nat) (k : Frame → Frame) : (s.frameMod f k).cnt off = s.cnt off := rfl

theorem State.spillingTo_spillMod (u : Nat) (k : Nat → Nat) : (s.spillMod u k).spillingTo u = k (s.spillingTo u) := by
  rw [State.spillingTo, State.spillMod, State.spillingTo]
  exact (sget_smod _ _ _ _ _).trans (if_pos rfl)

theorem State.fetchingFrom_fetchMod (u : Nat) (k : Nat → Nat) : (s.fetchMod u k).fetchingFrom u = k (s.fetchingFrom u) := by
  rw [State.fetchingFrom, State.fetchMod, State.fetchingFrom]
  exact (sget_smod _ _ _ _ _).trans (if_pos rfl)

/-- What is written to topsoil as room comes free leaves a frame that is not held, and all registers but topsoil's occupancy. -/
structure WaitKept (s t : State) : Prop where
  frame : ∀ f x, s.frame f = some x → x.held = false → t.frame f = some x
  rd : ∀ x, x ≠ offTierOcc 0 0 → x ≠ offTierOcc 0 0 + 4 → t.rd x = s.rd x

theorem WaitKept.refl : WaitKept s s := ⟨fun _ _ h _ => h, fun _ _ _ => rfl⟩

theorem WaitKept.trans {s t u : State} (h : WaitKept s t) (g : WaitKept t u) : WaitKept s u :=
  ⟨fun f x hf hx => g.frame f x (h.frame f x hf hx) hx, fun x h0 h4 => (g.rd x h0 h4).trans (h.rd x h0 h4)⟩

theorem State.rd_occAdd {t x : Nat} (g : Nat) (h0 : x ≠ offTierOcc t 0) (h4 : x ≠ offTierOcc t 0 + 4) : (s.occAdd t g).rd x = s.rd x := by
  rw [State.occAdd, State.wr2, State.rd_wr_ne _ _ h4, State.rd_wr_ne _ _ h0]

theorem State.frame_occAdd (t g f : Nat) : (s.occAdd t g).frame f = s.frame f := State.frame_congr (by simp [State.occAdd, State.wr2]) f

theorem State.writeHeld_kept (f : Nat) : WaitKept s (s.writeHeld f) := by
  unfold State.writeHeld
  split
  · rename_i y hy
    split
    · rename_i hroom
      have hheld : y.held = true := (Bool.and_eq_true_iff.1 hroom).1
      have hset : WaitKept s ((s.occAdd 0 y.grains).setFrame f (some { y with held := false })) := by
        refine ⟨fun g x hg hx => ?_, fun x h0 h4 => s.rd_occAdd _ h0 h4⟩
        rw [State.frame_setFrame, if_neg, State.frame_occAdd, hg]
        rintro rfl
        rw [hg, Option.some.injEq] at hy
        rw [hy, hheld] at hx
        exact absurd hx (by simp)
      unfold State.writeNow
      extract_lets t
      split
      · exact hset.trans ⟨fun _ _ h _ => h, fun _ _ _ => rfl⟩
      · exact hset
    · exact .refl s
  · exact .refl s

theorem State.writeWaiting_kept : WaitKept s s.writeWaiting := by
  have hfold : ∀ (l : List Nat) (u : State), WaitKept u (l.foldl (fun s f => s.writeHeld f) u) := by
    intro l
    induction l with
    | nil => exact fun u => .refl u
    | cons f l ih => exact fun u => (u.writeHeld_kept f).trans (ih _)
  exact hfold _ s

/-- A tier's occupancy falls: a frame that is not held stays as it is, and so do all registers but the occupancies. -/
theorem State.occSub_kept (t g : Nat) : (∀ f x, s.frame f = some x → x.held = false → (s.occSub t g).frame f = some x) ∧
    (t ≠ 0 → ∀ f, (s.occSub t g).frame f = s.frame f) ∧
    (∀ x, x ≠ offTierOcc t 0 → x ≠ offTierOcc t 0 + 4 → x ≠ offTierOcc 0 0 → x ≠ offTierOcc 0 0 + 4 → (s.occSub t g).rd x = s.rd x) := by
  have hframe : ∀ f, (s.wr2 (offTierOcc t 0) (s.occ t - g)).frame f = s.frame f := fun f => State.frame_congr (by simp [State.wr2]) f
  have hrd : ∀ x, x ≠ offTierOcc t 0 → x ≠ offTierOcc t 0 + 4 → (s.wr2 (offTierOcc t 0) (s.occ t - g)).rd x = s.rd x := fun x h0 h4 => by
    rw [State.wr2, State.rd_wr_ne _ _ h4, State.rd_wr_ne _ _ h0]
  have hkept := State.writeWaiting_kept (s.wr2 (offTierOcc t 0) (s.occ t - g))
  unfold State.occSub
  extract_lets u
  refine ⟨fun f x hf hx => ?_, fun ht f => ?_, fun x h0 h4 g0 g4 => ?_⟩
  · split
    · exact hkept.frame f x ((hframe f).trans hf) hx
    · exact (hframe f).trans hf
  · rw [if_neg ht]
    exact hframe f
  · split
    · exact (hkept.rd x g0 g4).trans (hrd x h0 h4)
    · exact hrd x h0 h4

theorem State.freeMoved_frame {x : Frame} (h : x.toTier ≠ 0) (f : Nat) : (s.freeMoved x).frame f = s.frame f := by
  unfold State.freeMoved
  split
  · rfl
  · exact (s.occSub_kept _ _).2.1 h f

/-! ## Moves -/

theorem spill_move (f : Nat) (x : Frame) (hf : s.frame f = some x) (link : Fin 8) (u : Nat) (hp : x.movePending = true)
    (ht : s.moveTurn f x = true) (hr : x.refs ≤ 1) (hsp : x.spoiled = false) (hn : s.nearFront f = false)
    (hu : s.moveUnit x link = some u) :
    s.completes (.spillMove f link false) fun t => t.frame f = some { x with moving := some u } ∧
      t.spillingTo u = s.spillingTo u + x.grains ∧ t.adm.nextStack = if u < 8 then (u + 1) % 8 else s.adm.nextStack := by
  have hx : exec (.spillMove f link false) s = .next (s.issueMove f u x) := by
    rw [exec_spillMove, execSpillMove, hf]
    dsimp only
    rw [if_neg (by simp [hp, ht]), if_neg (by simp [hn]; omega), hu]
    dsimp only
    rw [if_neg (by simp [hsp])]
  let v := ((s.pmuQueued 6 f).spillMod u (· + x.grains)).frameMod f (fun x => { x with moving := some u })
  have hv : v = ((s.pmuQueued 6 f).spillMod u (· + x.grains)).frameMod f (fun x => { x with moving := some u }) := rfl
  have hq := s.pmuQueued_within 6 f
  have hfr : v.frame f = some { x with moving := some u } := by
    rw [hv, State.frame_frameMod, State.frame_congr ((State.spillMod_within _ _ _).same .frames (by decide)),
      State.frame_congr (hq.same .frames (by decide)), hf]
    rfl
  have hadm : v.adm = ((s.pmuQueued 6 f).spillMod u (· + x.grains)).adm := (State.frameMod_within _ _ _).same .adm (by decide)
  have hspill : v.spillingTo u = s.spillingTo u + x.grains := by
    have hsame : (s.pmuQueued 6 f).spillingTo u = s.spillingTo u := by
      rw [State.spillingTo, State.spillingTo, show (s.pmuQueued 6 f).adm = s.adm from hq.same .adm (by decide)]
    rw [State.spillingTo, hadm, ← State.spillingTo, State.spillingTo_spillMod, hsame]
  have hnext : v.adm.nextStack = s.adm.nextStack := by
    rw [hadm, ← show (s.pmuQueued 6 f).adm = s.adm from hq.same .adm (by decide)]
    rfl
  refine State.completes_of hx ?_
  unfold State.issueMove
  dsimp only
  rw [← hv]
  split
  · exact ⟨hfr, hspill, rfl⟩
  · have hw := v.siltWrites_within (u - 8) f x
    have hadm' : (v.siltWrites (u - 8) f x).adm = v.adm := hw.same .adm (by decide)
    refine ⟨(State.frame_congr (hw.same .frames (by decide)) f).trans hfr, ?_, by rw [hadm', hnext]⟩
    rw [State.spillingTo, hadm']
    exact hspill

theorem spill_cancel (f : Nat) (x : Frame) (hf : s.frame f = some x) (link : Fin 8) (hp : x.movePending = true)
    (ht : s.moveTurn f x = true) (h : 1 < x.refs ∨ s.nearFront f = true) :
    s.completes (.spillMove f link false) fun t => t.frame f = some { x with dest := 0, drain := none } ∧
      t.cnt (offTierCnt 4) = (s.cnt (offTierCnt 4) + 1) % cntMod := by
  have hx : exec (.spillMove f link false) s = .next (s.moveCancel f) := by
    rw [exec_spillMove, execSpillMove, hf]
    dsimp only
    rw [if_neg (by simp [hp, ht]), if_pos (by simpa using h)]
  refine State.completes_of hx ⟨?_, ?_⟩
  · rw [State.moveCancel, State.frame_congr ((State.inc_within _ _ _ _).same .frames (by decide)), State.frame_frameMod, hf]
    rfl
  · rw [State.moveCancel, State.cnt_inc _ _ (by simp [offTierCnt, offTierEvt]) (by simp [offTierCnt, offTierEvt])]
    rfl

/-- What an acknowledged move looks at: neither what is on its way nor an occupancy is among it. -/
theorem State.moveQueue_congr {s t : State} (hc : t.copies = s.copies) (hs : t.sched = s.sched) (hf : t.frames = s.frames)
    (hr : t.rd offTierPrefetchAhead = s.rd offTierPrefetchAhead) (f : Nat) :
    t.isQueued f = s.isQueued f ∧ t.nearFront f = s.nearFront f := by
  have hcopy : ∀ i, t.copy i = s.copy i := fun i => by rw [State.copy, State.copy, hc]
  have hwhere : ∀ q, t.copiesWhere q = s.copiesWhere q := fun q => by rw [State.copiesWhere, State.copiesWhere, hc]
  have hgrains : ∀ c, t.copyGrains c = s.copyGrains c := fun c => by
    simp only [State.copyGrains, State.frame_congr hf]
  have hidx : ∀ i c, t.indexOf i c = s.indexOf i c := fun i c => by
    simp only [State.indexOf, State.flow, hs, hcopy]
    congr 2
    funext j
    cases s.copy j <;> simp [hgrains]
  refine ⟨by rw [State.isQueued, State.isQueued, hwhere], ?_⟩
  have hq : t.queuedCopy f = s.queuedCopy f := by
    rw [State.queuedCopy, State.queuedCopy, hwhere]
    congr 1
    funext i
    rw [hcopy]
  rw [State.nearFront, State.nearFront, hq]
  cases s.queuedCopy f with
  | none => rfl
  | some e =>
    have hahead : t.prefetchAhead = s.prefetchAhead := by rw [State.prefetchAhead, State.prefetchAhead, hr]
    simp only [hidx, hahead]

/-- The state in which an acknowledged move is settled: the grains that were on their way are counted in the tier they came to. -/
def State.moveCounted (u : Nat) (x : Frame) : State :=
  (s.spillMod u (· - (x.grains - x.moved))).occAdd x.toTier (x.grains - x.moved)

theorem State.moveCounted_spec {u : Nat} {x : Frame} (hx : x.toTier = 1) (f : Nat) : (s.moveCounted u x).frame f = s.frame f ∧
    (s.moveCounted u x).isQueued f = s.isQueued f ∧ (s.moveCounted u x).nearFront f = s.nearFront f ∧
    (∀ y, offTierOcc 2 0 ≤ y → (s.moveCounted u x).rd y = s.rd y) := by
  have hw : Within [.adm] s (s.moveCounted u x) := (State.spillMod_within _ _ _).trans (State.occAdd_within _ _ _).mono
  have hrd : ∀ y, offTierOcc 2 0 ≤ y → (s.moveCounted u x).rd y = s.rd y := fun y hy => by
    rw [State.moveCounted, hx, State.rd_occAdd _ _ (by simp only [offTierOcc] at *; omega) (by simp only [offTierOcc] at *; omega)]
    rfl
  have hahead : (s.moveCounted u x).rd offTierPrefetchAhead = s.rd offTierPrefetchAhead := by
    rw [State.moveCounted, hx, State.rd_occAdd _ _ (by simp [offTierOcc, offTierPrefetchAhead]) (by simp [offTierOcc, offTierPrefetchAhead])]
    rfl
  obtain ⟨hq, hn⟩ := State.moveQueue_congr (hw.same .copies (by decide)) (hw.same .sched (by decide)) (hw.same .frames (by decide)) hahead f
  exact ⟨State.frame_congr (hw.same .frames (by decide)) f, hq, hn, hrd⟩

theorem exec_moveAck_subsoil {f u : Nat} {x : Frame} (hf : s.frame f = some x) (hm : x.moving = some u) (hu : u < 8) :
    exec (.moveAck f) s = .next (s.moveAcked f u x) := by
  rw [exec_moveAck, execMoveAck, hf]
  dsimp only
  rw [hm]
  dsimp only
  rw [if_pos hu]

theorem toTier_subsoil {u : Nat} {x : Frame} (hm : x.moving = some u) (hu : u < 8) : x.toTier = 1 := by
  rw [Frame.toTier, hm]
  dsimp only
  rw [if_pos hu]

theorem move_ack (f : Nat) (x : Frame) (hf : s.frame f = some x) (u : Nat) (hm : x.moving = some u) (hu : u < 8) (hr : x.refs ≠ 0)
    (hh : x.held = false) (hq : s.isQueued f = true) (hn : s.nearFront f = false) :
    s.completes (.moveAck f) fun t => t.frame f = some { x with
        moving := none, moved := 0, tier := 1, unit := u, dest := 0, drain := none } ∧
      t.cnt (offTierCnt 0) = (s.cnt (offTierCnt 0) + 1) % cntMod := by
  obtain ⟨-, hq', hn', hrd⟩ := s.moveCounted_spec (u := u) (toTier_subsoil hm hu) f
  let v := (s.moveCounted u x).setFrame f (some { x with moving := none, moved := 0 })
  have hv : v = (s.moveCounted u x).setFrame f (some { x with moving := none, moved := 0 }) := rfl
  have hacked : s.moveAcked f u x = v.movedTo f u x := by
    unfold State.moveAcked
    dsimp only
    rw [← State.moveCounted, if_neg hr, hq', hn', hq, hn, if_neg (by simp), if_neg (by simp)]
  obtain ⟨hframe, -, hocc⟩ := v.occSub_kept 0 x.grains
  have hvf : (v.occSub 0 x.grains).frame f = some { x with moving := none, moved := 0 } :=
    hframe f _ (by rw [hv, State.frame_setFrame, if_pos rfl]) hh
  have hcnt : (v.occSub 0 x.grains).cnt (offTierCnt 0) = s.cnt (offTierCnt 0) := by
    have hne : ∀ y ∈ [offTierCnt 0, offTierCnt 0 + 4], offTierOcc 2 0 ≤ y ∧ y ≠ offTierOcc 0 0 ∧ y ≠ offTierOcc 0 0 + 4 := by decide
    have hall : ∀ y ∈ [offTierCnt 0, offTierCnt 0 + 4], (v.occSub 0 x.grains).rd y = s.rd y := fun y hy => by
      obtain ⟨h2, h0, h4⟩ := hne y hy
      exact (hocc y h0 h4 h0 h4).trans (hrd y h2)
    exact State.cnt_congr (hall _ (by simp)) (hall _ (by simp))
  refine State.completes_of (exec_moveAck_subsoil s hf hm hu) ?_
  rw [hacked, State.movedTo, if_pos hu]
  refine ⟨?_, ?_⟩
  · rw [State.frame_frameMod, State.frame_congr ((State.inc_within _ _ _ _).same .frames (by decide)), hvf, Nat.mod_eq_of_lt hu]
    rfl
  · rw [State.cnt_frameMod, Nat.sub_self,
      State.cnt_inc _ _ (by simp [offTierCnt, offTierEvt]) (by simp [offTierCnt, offTierEvt]), hcnt]

theorem move_ack_front (f : Nat) (x : Frame) (hf : s.frame f = some x) (u : Nat) (hm : x.moving = some u) (hu : u < 8)
    (hr : x.refs ≠ 0) (hq : s.isQueued f = true) (hn : s.nearFront f = true) :
    s.completes (.moveAck f) fun t => t.frame f = some { x with moving := none, moved := 0, dest := 0, drain := none } := by
  have htier := toTier_subsoil hm hu
  obtain ⟨-, hq', hn', -⟩ := s.moveCounted_spec (u := u) htier f
  have hacked : s.moveAcked f u x = ((s.moveCounted u x).setFrame f (some { x with moving := none, moved := 0, dest := 0, drain := none })).freeMoved
      { x with moved := x.grains } := by
    unfold State.moveAcked
    dsimp only
    rw [← State.moveCounted, if_neg hr, hq', hn', hq, hn, if_neg (by simp), if_pos rfl]
  refine State.completes_of (exec_moveAck_subsoil s hf hm hu) ?_
  have hne : Frame.toTier { x with moved := x.grains } ≠ 0 := by
    rw [show Frame.toTier { x with moved := x.grains } = x.toTier from rfl, htier]
    decide
  rw [hacked, State.freeMoved_frame _ hne, State.frame_setFrame, if_pos rfl]

/-! ## Prefetches -/

theorem prefetch_issue (f : Nat) (x : Frame) (hf : s.frame f = some x) (hm : s.mayFetch f x = true) :
    s.completes (.prefetchIssue f) fun t => (t.frame f).map (·.fetching) = some true ∧
      t.fetchingFrom x.home = s.fetchingFrom x.home + x.grains := by
  let v := ((s.pmuQueued 7 f).fetchMod x.home (· + x.grains)).frameMod f (fun x => { x with fetching := true })
  have hv : v = ((s.pmuQueued 7 f).fetchMod x.home (· + x.grains)).frameMod f (fun x => { x with fetching := true }) := rfl
  have hx : exec (.prefetchIssue f) s = .next (if x.tier = 2 then v.siltReads x.unit f else v) := by
    rw [exec_prefetchIssue, execPrefetchIssue, hf]
    dsimp only
    rw [if_pos hm]
  have hq := s.pmuQueued_within 7 f
  have hfr : (v.frame f).map (·.fetching) = some true := by
    rw [hv, State.frame_frameMod, State.frame_congr ((State.fetchMod_within _ _ _).same .frames (by decide)),
      State.frame_congr (hq.same .frames (by decide)), hf]
    rfl
  have hfetch : v.fetchingFrom x.home = s.fetchingFrom x.home + x.grains := by
    have hadm : v.adm = ((s.pmuQueued 7 f).fetchMod x.home (· + x.grains)).adm := (State.frameMod_within _ _ _).same .adm (by decide)
    have hsame : (s.pmuQueued 7 f).fetchingFrom x.home = s.fetchingFrom x.home := by
      rw [State.fetchingFrom, State.fetchingFrom, show (s.pmuQueued 7 f).adm = s.adm from hq.same .adm (by decide)]
    rw [State.fetchingFrom, hadm, ← State.fetchingFrom, State.fetchingFrom_fetchMod, hsame]
  refine State.completes_of hx ?_
  split
  · have hw := v.siltReads_within x.unit f
    refine ⟨?_, ?_⟩
    · rw [State.frame_congr (hw.same .frames (by decide))]
      exact hfr
    · rw [State.fetchingFrom, show (v.siltReads x.unit f).adm = v.adm from hw.same .adm (by decide)]
      exact hfetch
  · exact ⟨hfr, hfetch⟩

theorem prefetch_complete (f : Nat) (x : Frame) (hf : s.frame f = some x) (hfe : x.fetching = true) (ht : x.tier = 1) (hr : x.refs ≠ 0)
    (hsp : x.spoiled = false) :
    s.completes (.prefetchComplete f false) fun t => t.frame f = some { x with
        fetching := false, moved := 0, tier := 0, unit := 0, dest := 0, drain := none } ∧
      t.cnt (offTierCnt 2) = (s.cnt (offTierCnt 2) + 1) % cntMod := by
  let v := (s.fetchMod x.home (· - (x.grains - x.moved))).frameMod f (fun x => { x with fetching := false })
  have hv : v = (s.fetchMod x.home (· - (x.grains - x.moved))).frameMod f (fun x => { x with fetching := false }) := rfl
  have hx : exec (.prefetchComplete f false) s = .next (v.fetched f x) := by
    rw [exec_prefetchComplete, execPrefetchComplete, hf]
    dsimp only
    rw [if_pos (by simp [hfe, ht]), State.fetchDone]
    dsimp only
    rw [if_neg hr, if_neg (by simp [hsp])]
  have hvf : v.frame f = some { x with fetching := false } := by
    rw [hv, State.frame_frameMod, State.frame_congr ((State.fetchMod_within _ _ _).same .frames (by decide)), hf]
    rfl
  obtain ⟨-, hframe, hocc⟩ := v.occSub_kept 1 x.grains
  have hcnt : ((v.occSub 1 x.grains).occAdd 0 (x.grains - x.moved)).cnt (offTierCnt 2) = s.cnt (offTierCnt 2) := by
    have hne : ∀ y ∈ [offTierCnt 2, offTierCnt 2 + 4], y ≠ offTierOcc 1 0 ∧ y ≠ offTierOcc 1 0 + 4 ∧ y ≠ offTierOcc 0 0 ∧
        y ≠ offTierOcc 0 0 + 4 := by decide
    have hall : ∀ y ∈ [offTierCnt 2, offTierCnt 2 + 4], ((v.occSub 1 x.grains).occAdd 0 (x.grains - x.moved)).rd y = s.rd y :=
      fun y hy => by
        obtain ⟨h0, h4, g0, g4⟩ := hne y hy
        exact (State.rd_occAdd _ _ g0 g4).trans (hocc y h0 h4 g0 g4)
    exact State.cnt_congr (hall _ (by simp)) (hall _ (by simp))
  refine State.completes_of hx ?_
  rw [State.fetched, ht, if_neg (by simp), if_pos rfl]
  refine ⟨?_, ?_⟩
  · rw [State.frame_frameMod, State.frame_congr ((State.inc_within _ _ _ _).same .frames (by decide)), State.frame_occAdd,
      hframe (by decide), hvf]
    rfl
  · rw [State.cnt_frameMod, show 1 + 1 = 2 from rfl,
      State.cnt_inc _ _ (by simp [offTierCnt, offTierEvt]) (by simp [offTierCnt, offTierEvt]), hcnt]

/-- Settles O39, clause by clause. -/
theorem tierMoverActs : Obligations.TierMoverActs := by
  unfold Obligations.TierMoverActs
  intro s f x hf
  exact ⟨spill_move s f x hf, spill_cancel s f x hf, move_ack s f x hf, move_ack_front s f x hf, prefetch_issue s f x hf,
    prefetch_complete s f x hf⟩

end Sys2Proof.Machine
end

section
/-! SUPPORT. Pause timers and watchdog holds: what each operation does to them (R114, R117, R118). -/

set_option Elab.async false

namespace Sys2Proof.Machine

variable (s : State)

/-! ## Timers -/

theorem State.timerOn_startTimer_eq (t : Timer) (ns : Nat) (x : Timer) : (s.startTimer t ns).timerOn x = (x == t || s.timerOn x) := by
  by_cases h : x = t
  · rw [h, State.timerOn_startTimer]
    simp
  · rw [show (x == t) = false by simpa using h, Bool.false_or, Bool.eq_iff_iff, State.timerOn, State.timerOn, List.any_eq_true,
      List.any_eq_true]
    constructor
    · rintro ⟨e, he, hx⟩
      obtain rfl | he := List.mem_cons.1 he
      · exact absurd (eq_of_beq hx).symm h
      · exact ⟨e, (List.mem_filter.1 he).1, hx⟩
    · rintro ⟨e, he, hx⟩
      refine ⟨e, List.mem_cons_of_mem _ (List.mem_filter.2 ⟨he, ?_⟩), hx⟩
      rw [eq_of_beq hx]
      simpa using h

theorem State.timerOn_stopTimer_eq (t x : Timer) : (s.stopTimer t).timerOn x = (x != t && s.timerOn x) := by
  by_cases h : x = t
  · rw [h, State.timerOn_stopTimer]
    simp
  · rw [show (x != t) = true by simpa using h, Bool.true_and, Bool.eq_iff_iff, State.timerOn, State.timerOn, List.any_eq_true,
      List.any_eq_true]
    constructor
    · rintro ⟨e, he, hx⟩
      exact ⟨e, (List.mem_filter.1 he).1, hx⟩
    · rintro ⟨e, he, hx⟩
      refine ⟨e, List.mem_filter.2 ⟨he, ?_⟩, hx⟩
      rw [eq_of_beq hx]
      simpa using h

theorem State.paused_congr {s t : State} (h : t.timers = s.timers) (m i : Nat) : t.paused m i = s.paused m i := State.timerOn_congr h _

/-! ## Statistics of any MAC -/

/-- Among the registers that counting a statistic of MAC m leaves as they are. -/
def offMst (m x : Nat) : Prop :=
  if m = mgmtMac then (x < 0x808000 ∨ 0x808418 ≤ x) ∧ x ≠ offMgmtEvt else offStat (m / 16) (m % 16) x

theorem offMst_net {b : BedIx} {p : LocalIx} {x : Nat} (h : offStat b p x) : offMst (16 * b.val + p.val) x := by
  have hb := b.isLt
  have hp := p.isLt
  have hne : ¬ 16 * b.val + p.val = mgmtMac := by unfold mgmtMac; omega
  rw [offMst, if_neg hne, show (16 * b.val + p.val) / 16 = b.val by omega, show (16 * b.val + p.val) % 16 = p.val by omega]
  exact h

theorem State.rd_mst_ne {m i : Nat} (n : Nat) {x : Nat} (hi : i < 64) (h : offMst m x) : (s.mst m i n).rd x = s.rd x := by
  unfold State.mst
  unfold offMst at h
  by_cases hm : m = mgmtMac
  · rw [if_pos hm] at h ⊢
    obtain ⟨hout, hevt⟩ := h
    have hcnt : x ≠ offMgmtStatCnt i ∧ x ≠ offMgmtStatCnt i + 4 := by simp only [offMgmtStatCnt]; omega
    have hhalf : x ≠ offMgmtStatHalf 0 + 4 * (i / 32) := by simp only [offMgmtStatHalf]; omega
    have hwrap : x ≠ offMgmtStatWrap 0 + 4 * (i / 32) := by simp only [offMgmtStatWrap]; omega
    unfold State.mgmtStat State.statAt
    extract_lets old new t u
    have ht : t.rd x = s.rd x := s.rd_setCnt_ne _ hcnt.1 hcnt.2
    have hu : u.rd x = s.rd x := by
      unfold u
      split
      · rw [State.rd_raiseEvt_ne _ _ hevt, State.rd_wrb_ne _ _ _ hhalf, ht]
      · exact ht
    split
    · rw [State.rd_raiseEvt_ne _ _ hevt, State.rd_wrb_ne _ _ _ hwrap, hu]
    · exact hu
  · rw [if_neg hm] at h ⊢
    exact s.rd_stat_ne n hi h

/-- A MAC's pause register is apart from its statistics. -/
theorem offMst_pauseStat {m : Nat} (hm : m ≠ mgmtMac) : offMst m (offMacPauseStat (m / 16) (m % 16)) := by
  rw [offMst, if_neg hm]
  simp only [offStat, offStatCnt, offMacEvt, offMacPauseStat]
  omega

theorem State.wdHolding_congr {s t : State} {m : Nat}
    (h : m ≠ mgmtMac → t.rd (offMacPauseStat (m / 16) (m % 16)) = s.rd (offMacPauseStat (m / 16) (m % 16))) (i : Nat) :
    t.wdHolding m i = s.wdHolding m i := by
  unfold State.wdHolding
  by_cases hm : m = mgmtMac
  · simp [hm]
  · rw [State.rdb, State.rdb, h hm]

/-- Counting a statistic leaves the pause timers and the watchdog's holds. -/
theorem State.pause_mst {m k : Nat} (n : Nat) (hk : k < 64) : (∀ i, (s.mst m k n).paused m i = s.paused m i) ∧
    (∀ i, (s.mst m k n).wdHolding m i = s.wdHolding m i) :=
  ⟨fun i => State.paused_congr ((s.mst_within m k n).same .timers (by decide)) m i,
    fun i => State.wdHolding_congr (fun hm => s.rd_mst_ne n hk (offMst_pauseStat hm)) i⟩

/-! ## Pause timers -/

theorem State.pauseBit_timers (m i : Nat) (v : Bool) : (s.pauseBit m i v).timers = s.timers := by
  unfold State.pauseBit
  split
  · rfl
  · simp [State.wrb]

/-- A PAUSED bit that is set or cleared is apart from the watchdog's holds. -/
theorem State.wdHolding_pauseBit (m : Nat) {i j : Nat} (v : Bool) (hi : i < 8) (hj : j < 8) :
    (s.pauseBit m i v).wdHolding m j = s.wdHolding m j := by
  unfold State.pauseBit
  split
  · rfl
  · rw [State.wdHolding, State.wdHolding, State.rdb, State.rd_wrb_same, bit_setBit i _ _ _ (by omega), if_neg (by omega)]
    rfl

theorem State.pauseEnd_spec (m : Nat) {i : Nat} (hi : i < 8) : (∀ j, (s.pauseEnd m i).paused m j = (j != i && s.paused m j)) ∧
    (∀ j < 8, (s.pauseEnd m i).wdHolding m j = s.wdHolding m j) := by
  refine ⟨fun j => ?_, fun j hj => s.wdHolding_pauseBit m false hi hj⟩
  rw [State.paused, State.pauseEnd, State.timerOn_stopTimer_eq, State.timerOn_stopTimer_eq,
    State.timerOn_congr (s.pauseBit_timers m i false)]
  by_cases h : j = i
  · simp [h]
  · rw [show (Timer.pauseLeft m j != Timer.wdRun m i) = true by simp, show (Timer.pauseLeft m j != Timer.pauseLeft m i) = true by simp [h],
      show (j != i) = true by simpa using h]
    rfl

theorem State.pauseLoad_spec (m q : Nat) {i : Nat} (hi : i < 8) :
    (∀ j, (s.pauseLoad m i q).paused m j = if j = i then q != 0 else s.paused m j) ∧
    (∀ j < 8, (s.pauseLoad m i q).wdHolding m j = s.wdHolding m j) := by
  unfold State.pauseLoad
  by_cases hq : q = 0
  · rw [if_pos hq]
    obtain ⟨hp, hw⟩ := s.pauseEnd_spec m hi
    refine ⟨fun j => ?_, hw⟩
    rw [hp j]
    by_cases h : j = i <;> simp [h, hq]
  · rw [if_neg hq]
    extract_lets was t
    have ht : ∀ j, t.paused m j = if j = i then q != 0 else s.paused m j := fun j => by
      rw [State.paused, State.timerOn_startTimer_eq, State.timerOn_congr (s.pauseBit_timers m i true)]
      by_cases h : j = i
      · simp [h, hq]
      · simp [h, State.paused]
    have hw : ∀ j < 8, t.wdHolding m j = s.wdHolding m j := fun j hj => s.wdHolding_pauseBit m true hi hj
    split
    · exact ⟨ht, hw⟩
    · refine ⟨fun j => .trans ?_ (ht j), hw⟩
      rw [State.paused, State.timerOn_startTimer_eq]
      rfl

/-- Priorities load their quanta, but for those in a watchdog hold. -/
theorem State.pauseLoads_spec (m : Nat) (q : Nat → Nat) (l : List Nat) (hl : ∀ i ∈ l, i < 8) :
    (∀ j < 8, (l.foldl (fun s i => if s.wdHolding m i then s else s.pauseLoad m i (q i)) s).paused m j =
      if j ∈ l ∧ s.wdHolding m j = false then q j != 0 else s.paused m j) ∧
    (∀ j < 8, (l.foldl (fun s i => if s.wdHolding m i then s else s.pauseLoad m i (q i)) s).wdHolding m j = s.wdHolding m j) := by
  induction l generalizing s with
  | nil => exact ⟨fun j _ => by simp, fun j _ => rfl⟩
  | cons i l ih =>
    have hi := hl i (.head _)
    rw [List.foldl_cons]
    by_cases hw : s.wdHolding m i = true
    · rw [if_pos hw]
      obtain ⟨hp, hh⟩ := ih s fun k hk => hl k (.tail _ hk)
      refine ⟨fun j hj => ?_, hh⟩
      rw [hp j hj]
      by_cases hji : j = i
      · simp [hji, hw]
      · simp [hji]
    · rw [if_neg hw]
      obtain ⟨hp, hh⟩ := ih (s.pauseLoad m i (q i)) fun k hk => hl k (.tail _ hk)
      obtain ⟨hp', hh'⟩ := s.pauseLoad_spec m (q i) hi
      refine ⟨fun j hj => ?_, fun j hj => (hh j hj).trans (hh' j hj)⟩
      rw [hp j hj, hh' j hj, hp' j]
      by_cases hji : j = i
      · subst hji
        simp [hw]
      · simp [hji]

/-- What a change of pauses counts leaves the pauses. -/
theorem State.pauseChange_spec (m : Nat) (f : State → State) : (∀ i, (s.pauseChange m f).paused m i = (f s).paused m i) ∧
    (∀ i, (s.pauseChange m f).wdHolding m i = (f s).wdHolding m i) ∧ (s.pauseChange m f).timers = (f s).timers := by
  unfold State.pauseChange
  extract_lets t
  split
  · exact ⟨fun _ => rfl, fun _ => rfl, rfl⟩
  · generalize (t.now - (t.mac m).pausedSince.getD t.now) * 16 * t.macRate m / 51200000 = n
    obtain ⟨hp, hw⟩ := t.pause_mst (m := m) (k := 61) n (by omega)
    exact ⟨hp, hw, (State.mst_within t m 61 _).same .timers (by decide)⟩
  · exact ⟨fun _ => rfl, fun _ => rfl, rfl⟩

theorem State.pauseApply_spec (m : Nat) (q : Nat → Nat) (l : List Nat) (hl : ∀ i ∈ l, i < 8) : ∀ j < 8, (s.pauseApply m l q).paused m j =
    if j ∈ l ∧ s.wdHolding m j = false then q j != 0 else s.paused m j := by
  intro j hj
  unfold State.pauseApply
  extract_lets t
  have ht : t.paused m j = if j ∈ l ∧ s.wdHolding m j = false then q j != 0 else s.paused m j :=
    ((s.pauseChange_spec m _).1 j).trans ((s.pauseLoads_spec m q l hl).1 j hj)
  split
  · exact ((t.pause_mst 1 (by omega)).1 j).trans ht
  · exact ht

theorem State.ctlCount_spec (m octets : Nat) (pfc : Bool) : (∀ i, (s.ctlCount m octets pfc).paused m i = s.paused m i) ∧
    (∀ i, (s.ctlCount m octets pfc).wdHolding m i = s.wdHolding m i) ∧
    (∀ x, offMst m x → (s.ctlCount m octets pfc).rd x = s.rd x) := by
  have hk : (if pfc then 9 else 8) < 64 := by cases pfc <;> decide
  obtain ⟨hp1, hw1⟩ := s.pause_mst (m := m) (k := 1) octets (by omega)
  obtain ⟨hp2, hw2⟩ := (s.mst m 1 octets).pause_mst (m := m) (k := 3) 1 (by omega)
  obtain ⟨hp3, hw3⟩ := ((s.mst m 1 octets).mst m 3 1).pause_mst (m := m) 1 hk
  exact ⟨fun i => (hp3 i).trans ((hp2 i).trans (hp1 i)), fun i => (hw3 i).trans ((hw2 i).trans (hw1 i)), fun x hx =>
    (State.rd_mst_ne _ _ hk hx).trans ((State.rd_mst_ne _ _ (by omega) hx).trans (State.rd_mst_ne _ _ (by omega) hx))⟩

end Sys2Proof.Machine
end
section
/-! SUPPORT. Received and sent pause, command by command (R112, R114 to R118). -/

set_option Elab.async false

namespace Sys2Proof.Machine

variable (s : State)

/-! ## Received frames -/

theorem State.fcMode_congr {s t : State} {b p : Nat} (h : t.rd (offMacCtl b p) = s.rd (offMacCtl b p)) : t.fcMode b p = s.fcMode b p := by
  rw [State.fcMode, State.fcMode, State.rdf, State.rdf, h]

/-- A PAUSE or PFC frame that a port hears and receives: consumed by its mode, else discarded. -/
theorem State.ctlFrame_eq {b : BedIx} {p : LocalIx} (octets : Nat) (pfc : Bool) (l : List Nat) (q : Nat → Nat)
    {mode : Nat} (hmode : mode = if pfc then 2 else 1) (hh : s.macHears b p = true) (ha : s.pActive b p = true) (hr : s.rdb (offMacCtl b p) 31 = true) :
    s.ctlFrame b p octets pfc l q = if s.fcMode b p = mode
      then (s.ctlCount (16 * b.val + p.val) octets pfc).pauseApply (16 * b.val + p.val) l q
      else (s.ctlCount (16 * b.val + p.val) octets pfc).rxDiscard (16 * b.val + p.val) 4 := by
  have hrd := (s.ctlCount_spec (16 * b.val + p.val) octets pfc).2.2 _ (offMst_net (offStat_mac b p (offMacCtl b p) (by simp)))
  rw [hmode]
  unfold State.ctlFrame
  rw [hh, ha, if_neg (by simp)]
  dsimp only
  rw [State.fcMode_congr hrd, State.rdb, hrd, ← State.rdb, hr, if_neg (by simp)]

theorem pause_receive (b : BedIx) (p : LocalIx) (da sa : BitVec 48) (quanta : BitVec 16) (hh : s.macHears b p = true)
    (ha : s.pActive b p = true) (hr : s.rdb (offMacCtl b p) 31 = true) (hm : s.fcMode b p = 1) :
    s.completes (.pauseFrameReceive (.net b p) da sa quanta) fun t => ∀ i : Fin 8,
      t.paused (16 * b.val + p.val) i = if s.wdHolding (16 * b.val + p.val) i then s.paused (16 * b.val + p.val) i else quanta != 0 := by
  have hx : exec (.pauseFrameReceive (.net b p) da sa quanta) s = .next ((s.ctlCount (16 * b.val + p.val) 64 false).pauseApply
      (16 * b.val + p.val) (List.range 8) fun _ => quanta.toNat) := by
    rw [exec_pauseFrameReceive, execPauseFrameReceive]
    rw [s.ctlFrame_eq 64 false _ _ (mode := 1) rfl hh ha hr, if_pos hm]
  obtain ⟨hp, hw, -⟩ := s.ctlCount_spec (16 * b.val + p.val) 64 false
  have hq : (quanta.toNat != 0) = (quanta != 0) := by
    rw [Bool.eq_iff_iff, bne_iff_ne, bne_iff_ne, ne_eq, ne_eq, ← BitVec.toNat_inj]
    rfl
  refine State.completes_of hx fun i => ?_
  rw [State.pauseApply_spec _ _ _ _ (fun j hj => List.mem_range.1 hj) i i.isLt, hp, hw, hq]
  cases s.wdHolding (16 * b.val + p.val) i <;> simp

theorem pause_discard (b : BedIx) (p : LocalIx) (da sa : BitVec 48) (quanta : BitVec 16) (hh : s.macHears b p = true)
    (ha : s.pActive b p = true) (hr : s.rdb (offMacCtl b p) 31 = true) (hm : s.fcMode b p ≠ 1) :
    s.completes (.pauseFrameReceive (.net b p) da sa quanta) fun t =>
      t.cnt (offTelDrop (s.posN b) 4) = (s.cnt (offTelDrop (s.posN b) 4) + 1) % cntMod ∧
      ∀ i : Fin 8, t.paused (16 * b.val + p.val) i = s.paused (16 * b.val + p.val) i := by
  have hb := b.isLt
  have hlt := p.isLt
  let u := s.ctlCount (16 * b.val + p.val) 64 false
  have hu : u = s.ctlCount (16 * b.val + p.val) 64 false := rfl
  have hx : exec (.pauseFrameReceive (.net b p) da sa quanta) s = .next (u.rxDiscard (16 * b.val + p.val) 4) := by
    rw [exec_pauseFrameReceive, execPauseFrameReceive]
    rw [s.ctlFrame_eq 64 false _ _ (mode := 1) rfl hh ha hr, if_neg hm]
  obtain ⟨hp, -, hrd⟩ := s.ctlCount_spec (16 * b.val + p.val) 64 false
  have hwithin := s.ctlCount_within (16 * b.val + p.val) 64 false
  have hpos : u.posN b = s.posN b := by
    rw [State.posN, State.posN, State.posOf_congr (hwithin.same .pwr (by decide)) (hwithin.same .harm (by decide))
      (hrd _ (offMst_net (offStat_mac b p _ (by simp)))) fun x hx => hrd x (offMst_net (offStat_low (by omega)))]
  have hn : s.posN b < 17 := by
    unfold State.posN State.posOf
    split
    · split
      · simp only [Option.getD_some]; omega
      · simp only [Option.getD_none]; omega
    · split
      · rw [Option.getD_some, State.swapPos]
        exact Nat.lt_of_lt_of_le (fld_lt 27 24 _) (by decide)
      · simp only [Option.getD_none]; omega
  have hdrop : offTelDrop (s.posN b) 4 + 4 < 0x1000000 := by simp only [offTelDrop]; omega
  refine State.completes_of hx ?_
  rw [State.rxDiscard, show (16 * b.val + p.val) / 16 = b.val by omega, hpos, State.dropTel]
  refine ⟨?_, fun i => ?_⟩
  · rw [State.cnt_congr (State.rd_mst_ne _ _ (by omega) (offMst_net (offStat_low (by omega))))
      (State.rd_mst_ne _ _ (by omega) (offMst_net (offStat_low (by omega)))),
      State.cnt_inc _ _ (by simp only [offTelDrop, offTelEvt]; omega) (by simp only [offTelDrop, offTelEvt]; omega),
      State.cnt_congr (hrd _ (offMst_net (offStat_low (by omega)))) (hrd _ (offMst_net (offStat_low (by omega))))]
  · rw [(State.pause_mst _ 1 (by omega)).1 i, State.paused_congr ((State.inc_within _ _ _ _).same .timers (by decide)), hp i]

/-- The bytes of a PAUSE frame without its FCS. -/
def pauseBytes (da sa : BitVec 48) (quanta : BitVec 16) : List Byte :=
  beBytes 6 da.toNat ++ beBytes 6 sa.toNat ++ beBytes 2 0x8808 ++ beBytes 2 1 ++ beBytes 2 quanta.toNat ++ List.replicate 42 0

theorem pauseBytes_spec (da sa : BitVec 48) (quanta : BitVec 16) : (pauseBytes da sa quanta).length = 60 ∧
    beAt (pauseBytes da sa quanta) 12 2 = 0x8808 ∧ beAt (pauseBytes da sa quanta) 14 2 = 1 ∧
    beAt (pauseBytes da sa quanta) 16 2 = quanta.toNat := by
  have hq : quanta.toNat < 65536 := quanta.isLt
  refine ⟨by simp [pauseBytes, beBytes], by simp [pauseBytes, beAt, bytesAt, beBytes, beNat],
    by simp [pauseBytes, beAt, bytesAt, beBytes, beNat], ?_⟩
  simp [pauseBytes, beAt, bytesAt, beBytes, beNat]
  omega

/-- At full duplex the management port hands a good MAC control frame to its control sublayer. -/
theorem State.mgmtReceive_control {bytes : List Byte} (hhalf : s.halfDuplex = false) (hcode : s.rxCode mgmtMac (bytes.length + 4) {} = 0)
    (htype : beAt bytes 12 2 = 0x8808) : s.mgmtReceive bytes false false false = s.mgmtControl bytes := by
  unfold State.mgmtReceive
  extract_lets e code t
  have hc : code = 0 := hcode
  have ht : t = s := if_neg (by simp [hhalf])
  rw [hc, htype, if_pos (by decide), ht]

theorem pause_receive_mgmt (da sa : BitVec 48) (quanta : BitVec 16) (hh : s.hostOn = true) (hr : s.rdb offMgmtCtl 31 = true)
    (hp : s.rdb offMgmtCtl 25 = true) (hf : s.rdb offMgmtCtl 21 = true) (hl : 64 ≤ s.maxFrame mgmtMac) :
    s.completes (.pauseFrameReceive .mgmt da sa quanta) fun t => ∀ i : Fin 8, t.paused mgmtMac i = (quanta != 0) := by
  obtain ⟨hlen, htype, hop, hquanta⟩ := pauseBytes_spec da sa quanta
  obtain ⟨-, -, hrd⟩ := s.ctlCount_spec mgmtMac 64 false
  have hctl : (s.ctlCount mgmtMac 64 false).rd offMgmtCtl = s.rd offMgmtCtl := hrd _ (by simp [offMst, offMgmtCtl, offMgmtEvt])
  have hr' : (s.ctlCount mgmtMac 64 false).rdb offMgmtCtl 31 = true := (congrArg (bit 31) hctl).trans hr
  have hhalf : s.halfDuplex = false := by simp [State.halfDuplex, hf]
  have hfc : (s.ctlCount mgmtMac 64 false).macFc mgmtMac = 1 := by
    have h25 : (s.ctlCount mgmtMac 64 false).rdb offMgmtCtl 25 = true := (congrArg (bit 25) hctl).trans hp
    have h21 : (s.ctlCount mgmtMac 64 false).rdb offMgmtCtl 21 = true := (congrArg (bit 21) hctl).trans hf
    simp [State.macFc, State.halfDuplex, h25, h21]
  have hcode : s.rxCode mgmtMac ((pauseBytes da sa quanta).length + 4) {} = 0 := by
    rw [hlen, State.rxCode]
    simp
    omega
  have hx : exec (.pauseFrameReceive .mgmt da sa quanta) s = .next ((s.ctlCount mgmtMac 64 false).pauseApply mgmtMac (List.range 8)
      fun _ => quanta.toNat) := by
    rw [exec_pauseFrameReceive, execPauseFrameReceive]
    rw [if_pos hh, ← pauseBytes, s.mgmtReceive_control hhalf hcode htype, State.mgmtControl, hop, if_pos rfl, hlen]
    dsimp only
    rw [hr', if_neg (by simp), hfc, if_pos rfl, hquanta]
  have hq : (quanta.toNat != 0) = (quanta != 0) := by
    rw [Bool.eq_iff_iff, bne_iff_ne, bne_iff_ne, ne_eq, ne_eq, ← BitVec.toNat_inj]
    rfl
  refine State.completes_of hx fun i => ?_
  have hwd : (s.ctlCount mgmtMac 64 false).wdHolding mgmtMac i = false := by simp [State.wdHolding]
  rw [State.pauseApply_spec _ _ _ _ (fun j hj => List.mem_range.1 hj) i i.isLt, hwd, if_pos ⟨List.mem_range.2 i.isLt, rfl⟩, hq]

theorem pfc_receive (b : BedIx) (p : LocalIx) (enable : BitVec 8) (quanta : List (BitVec 16)) (hh : s.macHears b p = true)
    (ha : s.pActive b p = true) (hr : s.rdb (offMacCtl b p) 31 = true) (hm : s.fcMode b p = 2) :
    s.completes (.pfcFrameReceive b p enable quanta) fun t => ∀ i : Fin 8,
      t.paused (16 * b.val + p.val) i =
        if enable.getLsbD i && s.rdb (offMacFcMask b p) i && !s.wdHolding (16 * b.val + p.val) i then quanta.getD i 0 != 0
        else s.paused (16 * b.val + p.val) i := by
  let on := (List.range 8).filter fun i => enable.getLsbD i && s.rdb (offMacFcMask b p) i
  have hon : on = (List.range 8).filter fun i => enable.getLsbD i && s.rdb (offMacFcMask b p) i := rfl
  have hx : exec (.pfcFrameReceive b p enable quanta) s = .next ((s.ctlCount (16 * b.val + p.val) 64 true).pauseApply
      (16 * b.val + p.val) on fun i => (quanta.getD i 0).toNat) := by
    rw [exec_pfcFrameReceive, execPfcFrameReceive]
    rw [s.ctlFrame_eq 64 true _ _ (mode := 2) rfl hh ha hr, if_pos hm]
  obtain ⟨hp, hw, -⟩ := s.ctlCount_spec (16 * b.val + p.val) 64 true
  have hmem : ∀ i : Fin 8, i.val ∈ on ↔ (enable.getLsbD i && s.rdb (offMacFcMask b p) i) = true := fun i => by
    rw [hon, List.mem_filter]
    exact and_iff_right (List.mem_range.2 i.isLt)
  refine State.completes_of hx fun i => ?_
  have hq : ((quanta.getD i 0).toNat != 0) = (quanta.getD i 0 != 0) := by
    rw [Bool.eq_iff_iff, bne_iff_ne, bne_iff_ne, ne_eq, ne_eq, ← BitVec.toNat_inj]
    rfl
  rw [State.pauseApply_spec _ _ _ _ (fun j hj => List.mem_range.1 (List.mem_filter.1 hj).1) i i.isLt, hp, hw, hq]
  refine ite_congr (propext ?_) (fun _ => rfl) fun _ => rfl
  rw [hmem, Bool.and_eq_true (_ && _), Bool.not_eq_true']

/-! ## The end of a pause, and the watchdog -/

/-- What one step of a fold sets up for an element of its list, and every step keeps, holds after the fold. -/
theorem foldl_establishes {α β : Type} {f : α → β → α} {P : α → Prop} {l : List β} {i : β} (hset : ∀ a, P (f a i))
    (hkeep : ∀ a, ∀ j ∈ l, P a → P (f a j)) (a : α) (hi : i ∈ l) : P (l.foldl f a) := by
  induction l generalizing a with
  | nil => exact absurd hi (by simp)
  | cons k l ih =>
    rw [List.foldl_cons]
    obtain rfl | hi := List.mem_cons.1 hi
    · exact List.foldlRecOn l f (hset a) fun b hb j hj => hkeep b j (.tail _ hj) hb
    · exact ih (fun b j hj => hkeep b j (.tail _ hj)) _ hi

/-- A group of priorities ends its pauses. -/
theorem State.pauseEnds_paused (m : Nat) (l : List Nat) (hl : ∀ i ∈ l, i < 8) (j : Nat) :
    (l.foldl (fun s i => s.pauseEnd m i) s).paused m j = if j ∈ l then false else s.paused m j := by
  induction l generalizing s with
  | nil => simp
  | cons i l ih =>
    rw [List.foldl_cons, ih _ fun k hk => hl k (.tail _ hk), (s.pauseEnd_spec m (hl i (.head _))).1 j]
    by_cases h : j = i
    · simp [h]
    · simp [h, show (j != i) = true by simpa using h]

theorem State.prioGroup_lt (m : Nat) (i : Fin 8) : ∀ j ∈ s.prioGroup m i, j < 8 := by
  intro j hj
  rw [State.prioGroup] at hj
  split at hj
  · exact List.mem_range.1 hj
  · rw [List.mem_singleton.1 hj]
    exact i.isLt

theorem State.mem_prioGroup (m : Nat) (i j : Fin 8) : j.val ∈ s.prioGroup m i ↔ s.macFc m = 1 ∨ j = i := by
  rw [State.prioGroup]
  split
  next h => simp [h]
  next h => simp [h, Fin.ext_iff]

theorem pause_expire (m : MacId) (i : Fin 8) (h : s.paused (macKey m) i = true) :
    s.completes (.pauseTimerExpire m i) fun t => ∀ j : Fin 8,
      t.paused (macKey m) j = if s.macFc (macKey m) = 1 ∨ j = i then false else s.paused (macKey m) j := by
  have hx : exec (.pauseTimerExpire m i) s = .next (s.pauseChange (macKey m) fun s =>
      (s.prioGroup (macKey m) i).foldl (fun s i => s.pauseEnd (macKey m) i) s) := by
    rw [exec_pauseTimerExpire, execPauseTimerExpire]
    exact if_pos h
  refine State.completes_of hx fun j => ?_
  rw [(s.pauseChange_spec _ _).1, s.pauseEnds_paused _ _ (s.prioGroup_lt _ i)]
  exact ite_congr (propext (s.mem_prioGroup _ i j)) (fun _ => rfl) fun _ => rfl

/-- The watchdog ends the pause of priority i and holds it. -/
def State.watchdogHold (s : State) (b : BedIx) (p : LocalIx) (i : Nat) : State :=
  ((s.pauseEnd (16 * b.val + p.val) i).wrb (offMacPauseStat b p) (16 + i) true).startTimer (.wdHold (16 * b.val + p.val) i)
    (ms (max 1 (s.rdf (offMacWd b p) 31 16)))

section
variable (b : BedIx) (p : LocalIx)

theorem net_ne_mgmt : ¬ 16 * b.val + p.val = mgmtMac := by
  have := b.isLt
  have := p.isLt
  unfold mgmtMac
  omega

theorem State.wdHolding_net (i : Nat) : s.wdHolding (16 * b.val + p.val) i = s.rdb (offMacPauseStat b p) (16 + i) := by
  have := p.isLt
  rw [State.wdHolding, show (16 * b.val + p.val) / 16 = b.val by omega, show (16 * b.val + p.val) % 16 = p.val by omega,
    bne_iff_ne.2 (net_ne_mgmt b p), Bool.true_and]

theorem offStat_pauseStat : offStat b p (offMacPauseStat b p) := by
  simp only [offStat, offStatCnt, offMacEvt, offMacPauseStat]
  omega

theorem State.mst_net (i n : Nat) : s.mst (16 * b.val + p.val) i n = s.stat b p i n := by
  have := p.isLt
  rw [State.mst, if_neg (net_ne_mgmt b p), show (16 * b.val + p.val) / 16 = b.val by omega,
    show (16 * b.val + p.val) % 16 = p.val by omega]

theorem State.pauseEnd_keepsTimer (m i : Nat) {x : Timer} (h1 : (x != .wdRun m i) = true) (h2 : (x != .pauseLeft m i) = true) :
    (s.pauseEnd m i).timerOn x = s.timerOn x := by
  rw [State.pauseEnd, State.timerOn_stopTimer_eq, State.timerOn_stopTimer_eq, h1, h2, State.timerOn_congr (s.pauseBit_timers m i false)]
  rfl

theorem State.watchdogHold_spec {i : Nat} (hi : i < 8) :
    (∀ j, (s.watchdogHold b p i).paused (16 * b.val + p.val) j = (j != i && s.paused (16 * b.val + p.val) j)) ∧
    (∀ j < 8, (s.watchdogHold b p i).wdHolding (16 * b.val + p.val) j = (j == i || s.wdHolding (16 * b.val + p.val) j)) ∧
    ∀ j, (s.watchdogHold b p i).timerOn (.wdHold (16 * b.val + p.val) j) =
      (j == i || s.timerOn (.wdHold (16 * b.val + p.val) j)) := by
  unfold State.watchdogHold
  generalize ms (max 1 (s.rdf (offMacWd b p) 31 16)) = ns
  obtain ⟨hp, hw⟩ := s.pauseEnd_spec (16 * b.val + p.val) hi
  have hkept := fun j => s.pauseEnd_keepsTimer (16 * b.val + p.val) i (x := .wdHold (16 * b.val + p.val) j) (by simp) (by simp)
  generalize s.pauseEnd (16 * b.val + p.val) i = u at hp hw hkept
  have hu : (u.wrb (offMacPauseStat b p) (16 + i) true).timers = u.timers := rfl
  refine ⟨fun j => ?_, fun j hj => ?_, fun j => ?_⟩
  · rw [← hp j, State.paused, State.timerOn_startTimer_eq, State.timerOn_congr hu]
    rfl
  · rw [← hw j hj, State.wdHolding_net, State.wdHolding_net, State.rdb,
      State.rd_of_regs (t := State.startTimer _ _ _) (s := u.wrb (offMacPauseStat b p) (16 + i) true) rfl, State.rd_wrb_same,
      bit_setBit _ _ _ _ (by omega)]
    by_cases h : j = i
    · simp [h]
    · rw [if_neg (by omega), show (j == i) = false by simpa using h]
      rfl
  · rw [← hkept j, State.timerOn_startTimer_eq, State.timerOn_congr hu]
    by_cases h : j = i
    · simp [h]
    · rw [show (Timer.wdHold (16 * b.val + p.val) j == Timer.wdHold (16 * b.val + p.val) i) = false by simpa using h,
        show (j == i) = false by simpa using h]

theorem pause_watchdog (i : Fin 8) (h : s.timerOn (.wdRun (16 * b.val + p.val) i) = true) :
    s.completes (.pauseWatchdogTrip b p i) fun t => t.paused (16 * b.val + p.val) i = false ∧
      t.wdHolding (16 * b.val + p.val) i = true ∧ t.timerOn (.wdHold (16 * b.val + p.val) i) = true ∧
      t.rdb (offMacEvt b p) 0 = true := by
  let m := 16 * b.val + p.val
  have hm : m = 16 * b.val + p.val := rfl
  let f : State → State := fun s => (s.prioGroup m i).foldl (fun s i => s.watchdogHold b p i) s
  have hf : f = fun s => (s.prioGroup m i).foldl (fun s i => s.watchdogHold b p i) s := rfl
  have hx : exec (.pauseWatchdogTrip b p i) s = .next (((s.pauseChange m f).stat b p 58 1).raiseEvt (offMacEvt b p) 0) := by
    rw [exec_pauseWatchdogTrip, execPauseWatchdogTrip]
    exact if_pos h
  have hmem := (s.mem_prioGroup m i i).2 (.inr rfl)
  have hlt := s.prioGroup_lt m i
  have hpaused : (f s).paused m i = false :=
    foldl_establishes (P := fun s => s.paused m i = false)
      (fun a => by rw [(a.watchdogHold_spec b p i.isLt).1]; simp)
      (fun a j hj ha => by rw [(a.watchdogHold_spec b p (hlt j hj)).1, ha, Bool.and_false]) s hmem
  have hhold : (f s).wdHolding m i = true :=
    foldl_establishes (P := fun s => s.wdHolding m i = true)
      (fun a => by rw [(a.watchdogHold_spec b p i.isLt).2.1 i i.isLt]; simp)
      (fun a j hj ha => by rw [(a.watchdogHold_spec b p (hlt j hj)).2.1 i i.isLt, ha, Bool.or_true]) s hmem
  have htimer : (f s).timerOn (.wdHold m i) = true :=
    foldl_establishes (P := fun s => s.timerOn (.wdHold m i) = true)
      (fun a => by rw [(a.watchdogHold_spec b p i.isLt).2.2]; simp)
      (fun a j hj ha => by rw [(a.watchdogHold_spec b p (hlt j hj)).2.2, ha, Bool.or_true]) s hmem
  obtain ⟨hp, hw, ht⟩ := s.pauseChange_spec m f
  have hsame : (((s.pauseChange m f).stat b p 58 1).raiseEvt (offMacEvt b p) 0).timers = (f s).timers :=
    ((State.raiseEvt_within _ _ _).same .timers (by decide)).trans (((State.stat_within _ _ _ _ _).same .timers (by decide)).trans ht)
  refine State.completes_of hx ⟨?_, ?_, ?_, State.rdb_raiseEvt _ _ _ (by decide)⟩
  · rw [State.paused_congr hsame, hpaused]
  · rw [← hhold, ← hw, State.wdHolding_net, State.wdHolding_net, State.rdb,
      State.rd_raiseEvt_ne _ _ (by simp only [offMacPauseStat, offMacEvt]; omega),
      State.rd_stat_ne _ _ (by omega) (offStat_pauseStat b p)]
    rfl
  · rw [State.timerOn_congr hsame, htimer]

/-- The watchdog's hold of priority i ends. -/
def State.watchdogRelease (s : State) (b : BedIx) (p : LocalIx) (i : Nat) : State :=
  (s.wrb (offMacPauseStat b p) (16 + i) false).stopTimer (.wdHold (16 * b.val + p.val) i)

theorem State.watchdogRelease_spec (i : Nat) :
    (∀ j < 8, (s.watchdogRelease b p i).wdHolding (16 * b.val + p.val) j = (j != i && s.wdHolding (16 * b.val + p.val) j)) ∧
    ∀ j, (s.watchdogRelease b p i).timerOn (.wdHold (16 * b.val + p.val) j) =
      (j != i && s.timerOn (.wdHold (16 * b.val + p.val) j)) := by
  unfold State.watchdogRelease
  refine ⟨fun j hj => ?_, fun j => ?_⟩
  · rw [State.wdHolding_net, State.wdHolding_net, State.rdb,
      State.rd_of_regs (t := State.stopTimer _ _) (s := s.wrb (offMacPauseStat b p) (16 + i) false) rfl, State.rd_wrb_same, bit_setBit _ _ _ _ (by omega)]
    by_cases h : j = i
    · simp [h]
    · rw [if_neg (by omega), show (j != i) = true by simpa using h]
      rfl
  · rw [State.timerOn_stopTimer_eq, State.timerOn_congr (t := s.wrb _ _ _) (s := s) rfl]
    by_cases h : j = i
    · simp [h]
    · rw [show (Timer.wdHold (16 * b.val + p.val) j != Timer.wdHold (16 * b.val + p.val) i) = true by simpa using h,
        show (j != i) = true by simpa using h]

theorem pause_holdEnd (i : Fin 8) (h : s.timerOn (.wdHold (16 * b.val + p.val) i) = true) :
    s.completes (.watchdogHoldEnd b p i) fun t => t.wdHolding (16 * b.val + p.val) i = false ∧
      t.timerOn (.wdHold (16 * b.val + p.val) i) = false := by
  have hx : exec (.watchdogHoldEnd b p i) s = .next ((s.prioGroup (16 * b.val + p.val) i).foldl
      (fun s i => s.watchdogRelease b p i) s) := by
    rw [exec_watchdogHoldEnd, execWatchdogHoldEnd]
    exact if_pos h
  have hmem := (s.mem_prioGroup (16 * b.val + p.val) i i).2 (.inr rfl)
  have hlt := s.prioGroup_lt (16 * b.val + p.val) i
  refine State.completes_of hx ⟨?_, ?_⟩
  · exact foldl_establishes (P := fun s => s.wdHolding (16 * b.val + p.val) i = false)
      (fun a => by rw [(a.watchdogRelease_spec b p i).1 i i.isLt]; simp)
      (fun a j hj ha => by rw [(a.watchdogRelease_spec b p j).1 i i.isLt, ha, Bool.and_false]) s hmem
  · exact foldl_establishes (P := fun s => s.timerOn (.wdHold (16 * b.val + p.val) i) = false)
      (fun a => by rw [(a.watchdogRelease_spec b p i).2]; simp)
      (fun a j hj ha => by rw [(a.watchdogRelease_spec b p j).2, ha, Bool.and_false]) s hmem

end

/-! ## Sent pause -/

theorem State.fcSend_outbox (m : Nat) (enable xoff : BitVec 8) :
    (s.fcSend m enable xoff).outbox = .pauseFrame (s.portNo m) (s.macFc m == 2) enable xoff (s.txQuanta m) :: s.outbox := by
  unfold State.fcSend
  extract_lets pfc t
  have ht : t.outbox = .pauseFrame (s.portNo m) (s.macFc m == 2) enable xoff (s.txQuanta m) :: s.outbox :=
    (State.mst_within _ _ _ _).same .outbox (by decide)
  split
  · exact ht
  · exact ((State.wireControl_within _ _ _).same .outbox (by decide)).trans ht

theorem pause_send (bed : Option BedIx) (q : LocalIx) (m : Nat) (hm : m = macAt bed q) (hfc : s.macFc m ≠ 0) (hmay : s.fcMay m = true)
    (hne : s.fcWanted m ≠ (s.mac m).signalled) :
    s.completes (.pauseSend bed q) fun t => (t.mac m).signalled = s.fcWanted m ∧
      t.outbox = .pauseFrame (s.portNo m) (s.macFc m == 2) (s.fcWanted m ^^^ (s.mac m).signalled)
        (s.fcWanted m &&& ~~~(s.mac m).signalled) (s.txQuanta m) :: s.outbox := by
  subst hm
  generalize hw : s.fcWanted (macAt bed q) = want at hne ⊢
  generalize hg : (s.mac (macAt bed q)).signalled = was at hne ⊢
  have hxoff : (want ^^^ was) &&& want = want &&& ~~~was := by
    ext i
    simp
    cases want[i] <;> simp
  have hout := s.fcSend_outbox (macAt bed q) (want ^^^ was) ((want ^^^ was) &&& want)
  let u := s.fcSend (macAt bed q) (want ^^^ was) ((want ^^^ was) &&& want)
  have hu : u = s.fcSend (macAt bed q) (want ^^^ was) ((want ^^^ was) &&& want) := rfl
  have hx : ∃ (classes : List Nat) (ns : Nat), exec (.pauseSend bed q) s = .next (classes.foldl (fun s c =>
      if want.getLsbD c then s.startTimer (.pauseRefresh (macAt bed q) c) ns else s.stopTimer (.pauseRefresh (macAt bed q) c))
      (u.macMod (macAt bed q) fun x => { x with signalled := want })) := by
    rw [exec_pauseSend, execPauseSend, hw, hg]
    extract_lets ns classes t
    exact ⟨classes, ns, if_neg (by simp [hfc, hmay, hne])⟩
  obtain ⟨classes, ns, hx⟩ := hx
  have hkept : Within [.timers] (u.macMod (macAt bed q) fun x => { x with signalled := want }) (classes.foldl (fun s c =>
      if want.getLsbD c then s.startTimer (.pauseRefresh (macAt bed q) c) ns else s.stopTimer (.pauseRefresh (macAt bed q) c))
      (u.macMod (macAt bed q) fun x => { x with signalled := want })) :=
    Within.foldl (Within.refl _) fun t c => Within.ite (State.startTimer_within _ _ _) (State.stopTimer_within _ _)
  refine State.completes_of hx ⟨?_, ?_⟩
  · rw [State.mac, hkept.same .macs (by decide), State.macMod, sget_smod, if_pos rfl]
  · rw [hkept.same .outbox (by decide)]
    exact hout.trans (by rw [hxoff])

theorem pause_refresh (bed : Option BedIx) (q : LocalIx) (c : Fin 8) (m : Nat) (hm : m = macAt bed q)
    (hon : s.timerOn (.pauseRefresh m c) = true) (hmay : s.fcMay m = true) (hw : (s.fcWanted m).getLsbD c = true) :
    s.completes (.pauseRefresh bed q c) fun t => t.timerOn (.pauseRefresh m c) = true ∧
      t.outbox = .pauseFrame (s.portNo m) (s.macFc m == 2) (if s.macFc m = 1 then 0xFF else 1 <<< c.val)
        (if s.macFc m = 1 then 0xFF else 1 <<< c.val) (s.txQuanta m) :: s.outbox := by
  subst hm
  let g : BitVec 8 := if s.macFc (macAt bed q) = 1 then 0xFF else 1 <<< c.val
  have hg : g = (if s.macFc (macAt bed q) = 1 then 0xFF else 1 <<< c.val : BitVec 8) := rfl
  have hx : exec (.pauseRefresh bed q c) s = .next ((s.fcSend (macAt bed q) g g).startTimer (.pauseRefresh (macAt bed q) c)
      (s.refreshNs (macAt bed q))) := by
    rw [exec_pauseRefresh, execPauseRefresh]
    exact if_pos (by rw [hon, hmay, hw]; rfl)
  exact State.completes_of hx ⟨State.timerOn_startTimer _ _ _, s.fcSend_outbox _ g g⟩

/-! ## Link faults -/

theorem State.rdf_fault_wrf (b : BedIx) (p : LocalIx) {v : Nat} (hv : v < 4) :
    (s.wrf (offMacFault b p) 31 30 v).rdf (offMacFault b p) 31 30 = v := by
  rw [State.rdf, State.rd_wrf_same, fld_setFld _ _ _ _ (by decide) (by decide)]
  exact Nat.mod_eq_of_lt hv

theorem offMacFault_ne_evt (b p : Nat) : offMacFault b p ≠ offMacEvt b p := by
  simp only [offMacFault, offMacEvt]
  omega

theorem State.linkFault_ends (b : BedIx) (p : LocalIx) : (s.linkFault b p 0).rdf (offMacFault b p) 31 30 = 0 := by
  unfold State.linkFault
  extract_lets old t
  have ht : t.rdf (offMacFault b p) 31 30 = 0 := s.rdf_fault_wrf b p (by decide)
  clear_value t
  split
  · assumption
  · rw [if_pos rfl, State.rdf, State.portMod_rd, State.rd_of_regs (t := State.stopTimer _ _) (s := t.raiseEvt (offMacEvt b p) 7) rfl,
      State.rd_raiseEvt_ne _ _ (offMacFault_ne_evt b p)]
    exact ht

theorem State.linkFault_remote (b : BedIx) (p : LocalIx) : (s.linkFault b p 2).rdf (offMacFault b p) 31 30 = 2 := by
  unfold State.linkFault
  extract_lets old t u w x fa
  have ht : t.rd (offMacFault b p) = (s.wrf (offMacFault b p) 31 30 2).rd (offMacFault b p) := rfl
  have hu : u.rd (offMacFault b p) = t.rd (offMacFault b p) := by
    unfold u
    rw [if_neg (by decide)]
  have hw : w.rd (offMacFault b p) = u.rd (offMacFault b p) :=
    (State.rd_raiseEvt_ne _ _ (offMacFault_ne_evt b p)).trans (State.unsignal_untouched (K := fun _ => True) u b p _ trivial)
  have hx : x.rd (offMacFault b p) = w.rd (offMacFault b p) :=
    (State.signalFault_untouched (K := fun _ => True) _ b p _ trivial).trans
      (State.rd_stat_ne _ _ (by decide) (offStat_mac b p _ (by simp)))
  have hread : x.rdf (offMacFault b p) 31 30 = 2 := by
    rw [State.rdf, hx, hw, hu, ht]
    exact s.rdf_fault_wrf b p (by decide)
  clear_value x
  split
  · assumption
  · rw [if_neg (by decide)]
    split
    · rw [State.rdf, State.rd_of_regs (t := State.startTimer _ _ _) rfl]
      exact hread
    · exact hread

theorem pause_remoteFault (b : BedIx) (p : LocalIx) (remote : Bool) (ha : s.pActive b p = true) :
    s.completes (.remoteFaultChange b p remote) fun t => t.rdf (offMacFault b p) 31 30 = if remote then 2 else 0 := by
  have hx : exec (.remoteFaultChange b p remote) s = .next (s.linkFault b p (if remote then 2 else 0)) := by
    rw [exec_remoteFaultChange, execRemoteFaultChange, if_pos ha]
  refine State.completes_of hx ?_
  cases remote with
  | false => exact s.linkFault_ends b p
  | true => exact s.linkFault_remote b p

end Sys2Proof.Machine

namespace Sys2Proof.Machine

/-- Settles O32: each frame of pause, each timer and each fault of a port by the rule of its own command. -/
theorem pauseActs : Obligations.PauseActs := by
  intro s b p
  exact ⟨fun da sa quanta => pause_receive s b p da sa quanta, fun da sa quanta => pause_discard s b p da sa quanta,
    fun da sa quanta => pause_receive_mgmt s da sa quanta, fun enable quanta => pfc_receive s b p enable quanta, pause_expire s,
    pause_watchdog s b p, pause_holdEnd s b p, pause_send s, pause_refresh s, pause_remoteFault s b p⟩

end Sys2Proof.Machine
end

section
/-! SUPPORT. The management port: its statistics, and what a received frame rests on (R128). -/

set_option Elab.async false

namespace Sys2Proof.Machine

variable (s : State)

/-! ## Statistics -/

/-- The registers that hold the halves and the wraps of the management port's statistics, and its events. -/
def offMgmtMarks (x : Nat) : Prop := (x < 0x808408 ∨ 0x808418 ≤ x) ∧ x ≠ offMgmtEvt

theorem State.rd_statAt_ne {cnt half wrap evt i n x : Nat} (hhalf : x ≠ half + 4 * (i / 32)) (hwrap : x ≠ wrap + 4 * (i / 32))
    (hevt : x ≠ evt) : (s.statAt cnt half wrap evt i n).rd x = (s.setCnt cnt (s.cnt cnt + n)).rd x := by
  unfold State.statAt
  extract_lets old new t u
  have hu : u.rd x = t.rd x := by
    unfold u
    split
    · rw [State.rd_raiseEvt_ne _ _ hevt, State.rd_wrb_ne _ _ _ hhalf]
    · rfl
  split
  · rw [State.rd_raiseEvt_ne _ _ hevt, State.rd_wrb_ne _ _ _ hwrap, hu]
  · exact hu

theorem State.rd_mgmtStat {i : Nat} (n : Nat) {x : Nat} (hi : i < 64) (h : offMgmtMarks x) :
    (s.mgmtStat i n).rd x = (s.setCnt (offMgmtStatCnt i) (s.cnt (offMgmtStatCnt i) + n)).rd x := by
  obtain ⟨hmarks, hevt⟩ := h
  exact s.rd_statAt_ne (by simp only [offMgmtStatHalf]; omega) (by simp only [offMgmtStatWrap]; omega) hevt

theorem offMgmtMarks_cnt {i : Nat} (hi : i < 64) : offMgmtMarks (offMgmtStatCnt i) ∧ offMgmtMarks (offMgmtStatCnt i + 4) := by
  simp only [offMgmtMarks, offMgmtStatCnt, offMgmtEvt]
  omega

theorem State.cnt_mgmtStat {i : Nat} (n : Nat) (hi : i < 64) :
    (s.mgmtStat i n).cnt (offMgmtStatCnt i) = (s.cnt (offMgmtStatCnt i) + n) % cntMod := by
  obtain ⟨h, h4⟩ := offMgmtMarks_cnt hi
  rw [State.cnt_congr (s.rd_mgmtStat n hi h) (s.rd_mgmtStat n hi h4), State.cnt_setCnt]

theorem State.cnt_mgmtStat_ne {i j : Nat} (n : Nat) (hi : i < 64) (hj : j < 64) (hne : j ≠ i) :
    (s.mgmtStat i n).cnt (offMgmtStatCnt j) = s.cnt (offMgmtStatCnt j) := by
  obtain ⟨h, h4⟩ := offMgmtMarks_cnt hj
  rw [State.cnt_congr (s.rd_mgmtStat n hi h) (s.rd_mgmtStat n hi h4),
    State.cnt_setCnt_ne _ _ (by simp only [offMgmtStatCnt]; omega) (by simp only [offMgmtStatCnt]; omega)
      (by simp only [offMgmtStatCnt]; omega)]

/-! ## A good frame is counted -/

theorem State.mst_mgmt (i n : Nat) : s.mst mgmtMac i n = s.mgmtStat i n := if_pos rfl

/-- Beside the counters below number 26, as they count a good frame, the registers of the port are as they were. -/
def mgmtCounted (s t : State) : Prop :=
  (∀ x, offMst mgmtMac x → t.rd x = s.rd x) ∧ t.cnt (offMgmtStatCnt 26) = s.cnt (offMgmtStatCnt 26)

section
variable {s}

theorem mgmtCounted.trans {t u : State} (h : mgmtCounted s t) (g : mgmtCounted t u) : mgmtCounted s u := by
  obtain ⟨hrd, hcnt⟩ := h
  obtain ⟨grd, gcnt⟩ := g
  exact ⟨fun x hx => (grd x hx).trans (hrd x hx), gcnt.trans hcnt⟩

theorem mgmtCounted.of_regs {t : State} (h : t.regs = s.regs) : mgmtCounted s t :=
  ⟨fun x _ => State.rd_of_regs h x, State.cnt_congr (State.rd_of_regs h _) (State.rd_of_regs h _)⟩

end

theorem State.mst_counted {i : Nat} (n : Nat) (hi : i < 26) : mgmtCounted s (s.mst mgmtMac i n) := by
  refine ⟨fun x hx => s.rd_mst_ne n (by omega) hx, ?_⟩
  rw [State.mst_mgmt]
  exact s.cnt_mgmtStat_ne n (by omega) (by omega) (by omega)

theorem State.typeCount_counted (cfg : ParseCfg) (bytes : List Byte) (length : Nat) :
    mgmtCounted s (s.typeCount mgmtMac 4 10 cfg bytes length) := by
  have hcast : castOf bytes < 3 := by
    unfold castOf
    repeat' split
    all_goals decide
  have hbin : sizeBin length < 10 := by
    unfold sizeBin
    repeat' split
    all_goals decide
  unfold State.typeCount
  extract_lets t u
  have ht : mgmtCounted s t := s.mst_counted 1 (by omega)
  have hu : mgmtCounted s u := by
    unfold u
    split
    · exact ht.trans (t.mst_counted 1 (by decide))
    · exact ht
  exact hu.trans (u.mst_counted 1 (by omega))

/-- What counting a frame without an error leaves. -/
theorem State.rxCount_counted (cfg : ParseCfg) (bytes : List Byte) (h : s.rxCode mgmtMac (bytes.length + 4) {} = 0) :
    mgmtCounted s (s.rxCount mgmtMac 0 cfg bytes {}) := by
  have hlow : ¬ bytes.length + 4 < 64 := fun hlt => by simp [State.rxCode, hlt] at h
  have hmax : ¬ s.maxFrame mgmtMac < bytes.length + 4 := fun hlt => by simp [State.rxCode, hlow, hlt] at h
  unfold State.rxCount
  extract_lets length t u v
  have ht : mgmtCounted s t := (s.mst_counted length (by decide)).trans (State.mst_counted _ 1 (by decide))
  have hu : mgmtCounted s u := by
    unfold u
    rw [if_pos rfl]
    exact ((ht.trans (State.mst_counted _ _ (by decide))).trans (State.mst_counted _ 1 (by decide))).trans
      (State.typeCount_counted _ _ _ _)
  have hmax' : ¬ u.maxFrame mgmtMac < length := by
    obtain ⟨hrd, -⟩ := hu
    rwa [State.maxFrame, if_pos rfl, State.rdf, hrd _ (by simp [offMst, offMgmtCtl, offMgmtEvt]), ← State.rdf] at *
  have hv : v = u := by
    unfold v
    rw [if_neg hlow, if_neg hmax']
  rw [hv]
  exact hu

/-! ## What a received frame rests on -/

theorem fcsFails_ethFcs (bytes : List Byte) : fcsFails [{ smd := .sfd, bytes := bytes ++ ethFcs bytes }] = false ∧
    pieceBody { smd := .sfd, bytes := bytes ++ ethFcs bytes } = bytes := by
  have hlen : (ethFcs bytes).length = 4 := rfl
  have hn : (bytes ++ ethFcs bytes).length - 4 = bytes.length := by
    rw [List.length_append, hlen]
    omega
  have hbody : pieceBody { smd := .sfd, bytes := bytes ++ ethFcs bytes } = bytes := by
    rw [pieceBody, hn, List.take_left]
  have hend : pieceEnd { smd := .sfd, bytes := bytes ++ ethFcs bytes } = ethFcs bytes := by
    rw [pieceEnd, hn, List.drop_left]
  refine ⟨?_, hbody⟩
  rw [fcsFails, joined, List.map_singleton, hbody, List.flatten_singleton]
  dsimp only [List.getLast?_singleton]
  rw [hend]
  simp

theorem State.mgmtAccepts_congr {s t : State} (h : ∀ x, offMst mgmtMac x → t.rd x = s.rd x) (bytes : List Byte) :
    t.mgmtAccepts bytes = s.mgmtAccepts bytes := by
  have hctl := h offMgmtCtl (by simp [offMst, offMgmtCtl, offMgmtEvt])
  have hhi : ∀ i < 32, t.rd (offMgmtDafHi i) = s.rd (offMgmtDafHi i) := fun i hi => h _ (by
    rw [offMst, if_pos rfl]
    simp only [offMgmtDafHi, offMgmtEvt]
    omega)
  have hlo : ∀ i < 32, t.rd (offMgmtDafLo i) = s.rd (offMgmtDafLo i) := fun i hi => h _ (by
    rw [offMst, if_pos rfl]
    simp only [offMgmtDafLo, offMgmtEvt]
    omega)
  have hany : ((List.range 32).any fun i => t.rdb (offMgmtDafHi i) 31 && t.dafAddr i == bytesAt bytes 0 6) =
      (List.range 32).any fun i => s.rdb (offMgmtDafHi i) 31 && s.dafAddr i == bytesAt bytes 0 6 := by
    rw [Bool.eq_iff_iff, List.any_eq_true, List.any_eq_true]
    refine exists_congr fun i => and_congr_right fun hi => ?_
    have hi := List.mem_range.1 hi
    rw [State.rdb, State.rdb, State.dafAddr, State.dafAddr, State.rdf, State.rdf, hhi i hi, hlo i hi]
  rw [State.mgmtAccepts, State.mgmtAccepts, hany, hctl]

/-- Whether the crossing into topsoil may take a frame of the management port does not depend on the frame's bed. -/
theorem State.mayTake_mgmt {s t : State} (hf : t.frames = s.frames) (ha : t.adm = s.adm) (hp : t.pwr = s.pwr)
    (h : t.rd2 (offTierOcc 0 0) = s.rd2 (offTierOcc 0 0)) (bytes : List Byte) (home b : Nat) :
    t.mayTake { bytes := bytes, src := 258, pos := some home, bed := b } = s.mayTake { bytes := bytes, src := 258, pos := some home } := by
  simp only [State.mayTake, State.mayWrite, State.topsoilRoom, State.gateGrains, State.mayCross, State.granted, State.inUse,
    State.grainsWhere, State.framesWhere, State.frame, State.occ, State.fetchingAll, State.lineOn, State.hostOn, State.islAt, hf, ha,
    hp, h]
  rfl

theorem State.posUsable_congr {s t : State} (hp : t.pwr = s.pwr) (hh : t.harm = s.harm) (hst : t.rd offSwapStatus = s.rd offSwapStatus)
    (hfence : t.rd offFenceBed = s.rd offFenceBed) (hmap : ∀ n < 64, t.rd (offMapRt n) = s.rd (offMapRt n)) (p : Nat) :
    t.posUsable p = s.posUsable p := by
  have hmapped := State.mapped_congr hp hmap
  have hbed : t.bedOf p = s.bedOf p := by
    simp only [State.bedOf, State.homeServes, State.fallowServes, State.swapServes, State.swapHolds, State.swapState, State.swapPos,
      State.rdf, hst, hmapped, hh]
    rfl
  have husable : ∀ b, t.bedUsable b = s.bedUsable b := fun b => by
    simp only [State.bedUsable, State.bedOn, State.islAt, State.bedFenced, State.rdb, hfence, hp, hh]
  simp only [State.posUsable, hbed, husable]

/-! ## A frame that enters the block -/

/-- A frame takes the next number, written to topsoil or waiting for room there. -/
theorem State.addFrame_spec (x : Frame) : (s.addFrame x).1 = s.nextId ∧ (s.addFrame x).2.nextId = s.nextId + 1 ∧
    (∃ held, (s.addFrame x).2.frame s.nextId = some { x with held := held }) ∧
    ∀ y, y ≠ offTierOcc 0 0 → y ≠ offTierOcc 0 0 + 4 → (s.addFrame x).2.rd y = s.rd y := by
  unfold State.addFrame
  extract_lets t
  have hn : t.nextId = s.nextId + 1 := rfl
  have ht : ∀ y, t.rd y = s.rd y := fun y => rfl
  clear_value t
  refine ⟨rfl, ?_⟩
  dsimp only
  split
  · exact ⟨hn, ⟨x.held, by rw [State.frame_setFrame, if_pos rfl]⟩, fun y _ _ => (State.setFrame_rd ..).trans (ht y)⟩
  · unfold State.writeFrame
    split
    · unfold State.writeNow
      extract_lets u
      have hu : u.nextId = s.nextId + 1 := hn
      have hf : u.frame s.nextId = some { x with held := false } := by
        unfold u
        rw [State.frame_setFrame, if_pos rfl]
      have hrd : ∀ y, y ≠ offTierOcc 0 0 → y ≠ offTierOcc 0 0 + 4 → u.rd y = s.rd y := fun y h h4 => by
        unfold u State.occAdd State.wr2
        rw [State.setFrame_rd, State.rd_wr_ne _ _ h4, State.rd_wr_ne _ _ h, ht]
      clear_value u
      split
      · exact ⟨hu, ⟨false, hf⟩, hrd⟩
      · exact ⟨hu, ⟨false, hf⟩, hrd⟩
    · exact ⟨hn, ⟨true, by rw [State.frame_setFrame, if_pos rfl]⟩, fun y _ _ => (State.setFrame_rd ..).trans (ht y)⟩

end Sys2Proof.Machine
end
section
/-! SUPPORT. The management port, command by command (R101, R128, R131, R133). -/

set_option Elab.async false

namespace Sys2Proof.Machine

variable (s : State)

/-! ## Received frames -/

/-- A frame without an error that is no MAC control frame: counted, then let in or discarded by the destination filter. -/
theorem State.mgmtReceive_good {bytes : List Byte} (part : Bool) (h31 : s.rdb offMgmtCtl 31 = true)
    (hcode : s.rxCode mgmtMac (bytes.length + 4) {} = 0) (htype : beAt bytes 12 2 ≠ 0x8808) :
    ∃ t, s.mgmtReceive bytes false part false = (if s.mgmtAccepts bytes then t.mgmtIn bytes else t.mgmtStat 26 1) ∧
      Within [.evWait, .mgmt, .timers] s t ∧ mgmtCounted s t := by
  unfold State.mgmtReceive
  extract_lets e code t u
  have he : e = {} := by
    unfold e
    rw [Bool.and_false, Bool.false_and]
  have hc : code = 0 := by
    unfold code
    rw [he, hcode]
  have hregs : t.regs = s.regs := by
    unfold t
    split <;> rfl
  have ht : Within [.evWait, .mgmt, .timers] s t := Within.ite ((State.mgmtMod_within _ _).mono.trans (State.startTimer_within _ _ _).mono)
    (Within.refl _)
  have hcode' : t.rxCode mgmtMac (bytes.length + 4) {} = 0 := by
    rw [← hcode]
    simp only [State.rxCode, State.maxFrame, if_true, State.rdf, State.rd_of_regs hregs]
  have hu : mgmtCounted s u := by
    unfold u
    rw [hc, he]
    exact (mgmtCounted.of_regs hregs).trans (t.rxCount_counted mgmtParse bytes hcode')
  refine ⟨u, ?_, ht.trans (State.rxCount_within _ _ _ _ _ _).mono, hu⟩
  obtain ⟨hrd, -⟩ := hu
  have hu31 : u.rdb offMgmtCtl 31 = true := (congrArg (bit 31) (hrd _ (by simp [offMst, offMgmtCtl, offMgmtEvt]))).trans h31
  rw [if_neg (by simp [htype]), hu31, if_neg (by simp), if_neg (by simp [hc]), State.mgmtAccepts_congr hrd]

theorem mgmt_exec {bytes : List Byte} (part : Bool) (hh : s.hostOn = true) : exec (.mgmtFrameReceive (bytes ++ ethFcs bytes) part false) s =
    .next (s.mgmtReceive bytes false part false) := by
  obtain ⟨hfcs, hbody⟩ := fcsFails_ethFcs bytes
  rw [exec_mgmtFrameReceive, execMgmtFrameReceive, if_pos hh, hfcs, hbody]

/-- A frame for a usable home position that topsoil takes stays in the block. -/
theorem State.mgmtIn_taken {bytes : List Byte} {x : Frame}
    (hx : x = { bytes := bytes, src := 258, pos := some (s.rdf offMgmtCtl 19 16)
                bed := (s.bedOf (s.rdf offMgmtCtl 19 16)).getD (s.rdf offMgmtCtl 19 16) })
    (hline : s.lineOn = true) (hmay : s.mayTake x = true)
    (hpos : (s.addFrame { x with path := s.slotPath x }).2.posUsable (s.rdf offMgmtCtl 19 16) = true) :
    s.mgmtIn bytes = (s.addFrame { x with path := s.slotPath x }).2 := by
  unfold State.mgmtIn
  extract_lets home y
  obtain rfl : y = x := hx.symm
  rw [hline, hmay, if_neg (by simp)]
  generalize s.addFrame { y with path := s.slotPath y } = v at hpos ⊢
  obtain ⟨f, u⟩ := v
  exact if_pos hpos

theorem mgmt_frameIn (bytes : List Byte) (part : Bool) (hh : s.hostOn = true) (h31 : s.rdb offMgmtCtl 31 = true)
    (hcode : s.rxCode mgmtMac (bytes.length + 4) {} = 0) (htype : beAt bytes 12 2 ≠ 0x8808) (hacc : s.mgmtAccepts bytes = true)
    (hl : s.lineOn = true) (hpos : s.posUsable (s.rdf offMgmtCtl 19 16) = true)
    (htake : s.mayTake { bytes := bytes, src := 258, pos := some (s.rdf offMgmtCtl 19 16) } = true) :
    s.completes (.mgmtFrameReceive (bytes ++ ethFcs bytes) part false) fun t => t.nextId = s.nextId + 1 ∧
      (t.frame s.nextId).map (·.src) = some 258 ∧ (t.frame s.nextId).map (·.bytes) = some bytes := by
  obtain ⟨t, hx, hin, hrd, -⟩ := s.mgmtReceive_good part h31 hcode htype
  rw [if_pos hacc] at hx
  have hid : t.nextId = s.nextId := hin.same .nextId (by decide)
  have hhome : t.rdf offMgmtCtl 19 16 = s.rdf offMgmtCtl 19 16 :=
    congrArg (fld 19 16) (hrd _ (by simp [offMst, offMgmtCtl, offMgmtEvt]))
  have hlow : ∀ x < 0x800000, t.rd x = s.rd x := fun x hx => hrd x (by
    rw [offMst, if_pos rfl]
    simp only [offMgmtEvt]
    omega)
  have hpwr : t.pwr = s.pwr := hin.same .pwr (by decide)
  let home := s.rdf offMgmtCtl 19 16
  have hh : home = s.rdf offMgmtCtl 19 16 := rfl
  have hmay : t.mayTake { bytes := bytes, src := 258, pos := some home, bed := (t.bedOf home).getD home } = true := by
    rw [State.mayTake_mgmt (hin.same .frames (by decide)) (hin.same .adm (by decide)) hpwr _ bytes home, htake]
    rw [State.rd2, State.rd2, hlow _ (by simp only [offTierOcc]; omega), hlow _ (by simp only [offTierOcc]; omega)]
  have hline : t.lineOn = true := by
    rw [State.lineOn, State.islAt, hpwr]
    exact hl
  let x : Frame := { bytes := bytes, src := 258, pos := some home, bed := (t.bedOf home).getD home }
  have hx0 : x = { bytes := bytes, src := 258, pos := some home, bed := (t.bedOf home).getD home } := rfl
  obtain ⟨hfst, hnext, ⟨held, hframe⟩, hkept⟩ := t.addFrame_spec { x with path := t.slotPath x }
  let u := (t.addFrame { x with path := t.slotPath x }).2
  have hu : u = (t.addFrame { x with path := t.slotPath x }).2 := rfl
  have hwithin := t.addFrame_within { x with path := t.slotPath x }
  have hposT : u.posUsable home = true := by
    have hregs : ∀ y, y < 0x400000 ∨ 0x500000 ≤ y → u.rd y = t.rd y := fun y hy =>
      hkept y (by simp only [offTierOcc]; omega) (by simp only [offTierOcc]; omega)
    rw [State.posUsable_congr (hwithin.same .pwr (by decide)) (hwithin.same .harm (by decide))
        (hregs _ (by simp [offSwapStatus])) (hregs _ (by simp [offFenceBed])) (fun n hn => hregs _ (by simp only [offMapRt]; omega)),
      State.posUsable_congr hpwr (hin.same .harm (by decide)) (hrd _ (by simp [offMst, offSwapStatus, offMgmtEvt]))
        (hlow _ (by simp [offFenceBed])) (fun n hn => hlow _ (by simp only [offMapRt]; omega)), hpos]
  have hin' : t.mgmtIn bytes = u := t.mgmtIn_taken (by rw [hhome]) hline hmay (by rw [hhome]; exact hposT)
  refine State.completes_of ((mgmt_exec s part ‹_›).trans (by rw [hx, hin'])) ?_
  rw [hnext, ← hid, hframe]
  exact ⟨rfl, rfl, rfl⟩

theorem mgmt_filtered (bytes : List Byte) (part : Bool) (hh : s.hostOn = true) (h31 : s.rdb offMgmtCtl 31 = true)
    (hcode : s.rxCode mgmtMac (bytes.length + 4) {} = 0) (htype : beAt bytes 12 2 ≠ 0x8808) (hacc : s.mgmtAccepts bytes = false) :
    s.completes (.mgmtFrameReceive (bytes ++ ethFcs bytes) part false) fun t => t.nextId = s.nextId ∧ t.frames = s.frames ∧
      t.cnt (offMgmtStatCnt 26) = (s.cnt (offMgmtStatCnt 26) + 1) % cntMod := by
  obtain ⟨t, hx, hin, -, hcnt⟩ := s.mgmtReceive_good part h31 hcode htype
  have hstat := State.mgmtStat_within t 26 1
  refine State.completes_of ((mgmt_exec s part hh).trans (by rw [hx, hacc, if_neg (by simp)])) ⟨?_, ?_, ?_⟩
  · exact (hstat.same .nextId (by decide)).trans (hin.same .nextId (by decide))
  · exact (hstat.same .frames (by decide)).trans (hin.same .frames (by decide))
  · rw [State.cnt_mgmtStat _ _ (by decide), hcnt]

/-! ## Half duplex (R131) -/

/-- A frame that a collision broke is given up: it leaves the queue, and the next begins with attempt 0. -/
theorem State.mgmtBroken_spec (bits i : Nat) : ((s.mgmtBroken bits).mgmtStat i 1).mgmt.txq = s.mgmt.txq.tail ∧
    ((s.mgmtBroken bits).mgmtStat i 1).mgmt.attempts = 0 ∧ ((s.mgmtBroken bits).mgmtStat i 1).outbox = s.outbox := by
  have hmgmt : (s.mgmtBroken bits).mgmt.txq = s.mgmt.txq.tail ∧ (s.mgmtBroken bits).mgmt.attempts = 0 := by
    unfold State.mgmtBroken
    extract_lets n
    have h : ((s.mgmtStat 33 (min n (bits / 8 - 8))).mgmtStat 35 1).mgmt = s.mgmt :=
      ((State.mgmtStat_within _ _ _).same .mgmt (by decide)).trans ((State.mgmtStat_within _ _ _).same .mgmt (by decide))
    generalize (s.mgmtStat 33 (min n (bits / 8 - 8))).mgmtStat 35 1 = t at h
    exact ⟨congrArg (fun g : MgmtSt => g.txq.tail) h, rfl⟩
  have hstat : ((s.mgmtBroken bits).mgmtStat i 1).mgmt = (s.mgmtBroken bits).mgmt := (State.mgmtStat_within _ _ _).same .mgmt (by decide)
  obtain ⟨htx, hatt⟩ := hmgmt
  rw [hstat]
  exact ⟨htx, hatt,
    ((State.mgmtStat_within _ _ _).same .outbox (by decide)).trans ((s.mgmtBroken_within bits).same .outbox (by decide))⟩

theorem State.mgmtBroken_cnt (bits : Nat) {i : Nat} (hi : 36 ≤ i) (hi' : i < 64) :
    (s.mgmtBroken bits).cnt (offMgmtStatCnt i) = s.cnt (offMgmtStatCnt i) := by
  unfold State.mgmtBroken
  extract_lets n
  have h : ((s.mgmtStat 33 (min n (bits / 8 - 8))).mgmtStat 35 1).cnt (offMgmtStatCnt i) = s.cnt (offMgmtStatCnt i) :=
    (State.cnt_mgmtStat_ne _ _ (by omega) hi' (by omega)).trans (State.cnt_mgmtStat_ne _ _ (by omega) hi' (by omega))
  generalize (s.mgmtStat 33 (min n (bits / 8 - 8))).mgmtStat 35 1 = t at h
  rw [← h]
  rfl

theorem mgmt_lateCollision (bits : Nat) (hd : s.halfDuplex = true) (hs : s.mgmtSending = true) (hb : 512 ≤ bits) :
    s.completes (.mgmtCollision bits) fun t => t.mgmt.txq = s.mgmt.txq.tail ∧ t.mgmt.attempts = 0 ∧
      t.outbox = .mgmtJam :: s.outbox := by
  have hx : exec (.mgmtCollision bits) s = .next (((s.emit .mgmtJam).mgmtBroken bits).mgmtStat 56 1) := by
    rw [exec_mgmtCollision, execMgmtCollision, hd, hs, if_neg (by simp)]
    exact if_pos hb
  exact State.completes_of hx ((s.emit .mgmtJam).mgmtBroken_spec bits 56)

theorem mgmt_collision (bits : Nat) (hd : s.halfDuplex = true) (hs : s.mgmtSending = true) (hb : bits < 512)
    (ha : s.mgmt.attempts ≠ 15) : s.completes (.mgmtCollision bits) fun t => t.mgmt.attempts = s.mgmt.attempts + 1 ∧
      t.mgmt.txq = s.mgmt.txq ∧ t.mgmt.backingOff = true ∧ t.timerOn .backoff = true ∧ t.draws = s.draws + 1 ∧
      t.outbox = .mgmtJam :: s.outbox := by
  obtain ⟨ns, hx⟩ : ∃ ns, exec (.mgmtCollision bits) s = .next (((s.emit .mgmtJam).draw.2.mgmtMod fun g =>
      { g with attempts := s.mgmt.attempts + 1, backingOff := true }).startTimer .backoff ns) := by
    rw [exec_mgmtCollision, execMgmtCollision, hd, hs, if_neg (by simp)]
    dsimp only
    rw [if_neg (by omega), if_neg (by exact fun h => ha (Nat.succ.inj h))]
    exact ⟨_, rfl⟩
  exact State.completes_of hx ⟨rfl, rfl, rfl, State.timerOn_startTimer _ _ _, rfl, rfl⟩

theorem mgmt_lastCollision (bits : Nat) (hd : s.halfDuplex = true) (hs : s.mgmtSending = true) (hb : bits < 512)
    (ha : s.mgmt.attempts = 15) : s.completes (.mgmtCollision bits) fun t => t.mgmt.txq = s.mgmt.txq.tail ∧ t.mgmt.attempts = 0 ∧
      t.cnt (offMgmtStatCnt 57) = (s.cnt (offMgmtStatCnt 57) + 1) % cntMod := by
  have hx : exec (.mgmtCollision bits) s = .next (((s.emit .mgmtJam).mgmtBroken bits).mgmtStat 57 1) := by
    rw [exec_mgmtCollision, execMgmtCollision, hd, hs, if_neg (by simp)]
    dsimp only
    rw [if_neg (by omega), if_pos (show (s.emit .mgmtJam).mgmt.attempts + 1 = 16 from congrArg (· + 1) ha)]
  obtain ⟨htx, hatt, -⟩ := (s.emit .mgmtJam).mgmtBroken_spec bits 57
  refine State.completes_of hx ⟨htx, hatt, ?_⟩
  rw [State.cnt_mgmtStat _ _ (by decide), State.mgmtBroken_cnt _ _ (by decide) (by decide)]
  rfl

theorem mgmt_backoffEnd (h : s.timerOn .backoff = true) :
    s.completes .mgmtBackoffEnd fun t => t.mgmt.backingOff = false ∧ t.timerOn .backoff = false := by
  refine State.completes_of (u := (s.mgmtMod fun g => { g with backingOff := false }).stopTimer .backoff) ?_
    ⟨rfl, State.timerOn_stopTimer _ _⟩
  rw [exec_mgmtBackoffEnd, execMgmtBackoffEnd, if_pos h]

theorem mgmt_deferEnd (h : s.timerOn .defer = true) :
    s.completes .mgmtDeferEnd fun t => t.mgmt.deferring = false ∧ t.timerOn .defer = false := by
  refine State.completes_of (u := (s.mgmtMod fun g => { g with deferring := false }).stopTimer .defer) ?_
    ⟨rfl, State.timerOn_stopTimer _ _⟩
  rw [exec_mgmtDeferEnd, execMgmtDeferEnd, if_pos h]

/-! ## MDIO (R101) -/

theorem noRegion_mdioCtl : noRegion offMdioCtl := by simp [noRegion, offMdioCtl, offReplCmd]

/-- MDIO.CTL with what a write gives and what the write leaves. -/
def State.mdioWritten (s : State) (v : Word) : State :=
  s.wr offMdioCtl ((v &&& 0x3FFEFFFF) ||| (s.rd offMdioCtl &&& 0x40010000))

theorem State.mdioWritten_busy (v : Word) : (s.mdioWritten v).rdb offMdioCtl 30 = s.rdb offMdioCtl 30 := by
  rw [State.mdioWritten, State.rdb, State.rd_wr_same, State.rdb]
  simp [bit]

theorem mdio_start (v : Word) (hs : s.serves offMdioCtl) (hbusy : s.rdb offMdioCtl 30 = false)
    (hop : bit 29 v = true ∨ fld 28 27 v = 1 ∨ fld 28 27 v = 2) :
    s.completes (.mdioStart v) fun t => t.rdb offMdioCtl 30 = true ∧ t.rdb offMdioCtl 16 = false ∧
      t.timerOn .mdio = true ∧ t.mgmt.mdioRead = if bit 29 v then decide (2 ≤ fld 28 27 v) else decide (fld 28 27 v = 2) := by
  have h31 : bit 31 (setBit 31 true v) = true := by simp [bit_setBit]
  have h29 : bit 29 (setBit 31 true v) = bit 29 v := by simp [bit_setBit]
  have hf : fld 28 27 (setBit 31 true v) = fld 28 27 v := fld_setBit_ne 28 27 31 true v (by decide) (by decide)
  have hgo : (!bit 29 v && (fld 28 27 v == 0 || fld 28 27 v == 3)) = false := by
    obtain h | h | h := hop <;> rw [h] <;> simp
  let w := setBit 31 true v
  have hw : w = setBit 31 true v := rfl
  obtain ⟨o, ns, hx⟩ : ∃ o ns, s.mdioWrite w = (((((s.mdioWritten w).wrb offMdioCtl 16 false).wrb offMdioCtl 30 true).mgmtMod fun g =>
      { g with mdioRead := if bit 29 v then 2 ≤ fld 28 27 v else fld 28 27 v = 2 }).emit o).startTimer .mdio ns := by
    unfold State.mdioWrite
    dsimp only
    rw [h31, hbusy, h29, hf, if_neg (by simp), hgo, if_neg (by simp)]
    exact ⟨_, _, rfl⟩
  refine State.completes_cfg (by rw [exec_mdioStart, execMdioStart]) hs noRegion_mdioCtl ?_
  rw [hx, State.answer_rdb, State.answer_rdb, State.answer_timerOn, State.timerOn_startTimer]
  have hrd : ∀ i, ((((((s.mdioWritten w).wrb offMdioCtl 16 false).wrb offMdioCtl 30 true).mgmtMod fun g =>
      { g with mdioRead := if bit 29 v then 2 ≤ fld 28 27 v else fld 28 27 v = 2 }).emit o).startTimer .mdio ns).rdb offMdioCtl i =
      bit i (setBit 30 true (setBit 16 false ((s.mdioWritten w).rd offMdioCtl))) := fun i => by
    rw [State.rdb, State.rd_of_regs (t := State.startTimer _ _ _) (s := ((s.mdioWritten w).wrb offMdioCtl 16 false).wrb offMdioCtl 30 true) rfl, State.rd_wrb_same,
      State.rd_wrb_same]
  refine ⟨?_, ?_, rfl, ?_⟩
  · rw [hrd, bit_setBit _ _ _ _ (by decide), if_pos rfl]
  · rw [hrd, bit_setBit _ _ _ _ (by decide), if_neg (by decide), bit_setBit _ _ _ _ (by decide), if_pos rfl]
  · change (if bit 29 v then decide (2 ≤ fld 28 27 v) else decide (fld 28 27 v = 2)) = _
    rfl

theorem mdio_badOp (v : Word) (hs : s.serves offMdioCtl) (hbusy : s.rdb offMdioCtl 30 = false) (hc : bit 29 v = false)
    (hop : fld 28 27 v = 0 ∨ fld 28 27 v = 3) :
    s.completes (.mdioStart v) fun t => t.rdb offMdioCtl 30 = false ∧ t.rdb offMdioCtl 16 = true := by
  have h31 : bit 31 (setBit 31 true v) = true := by simp [bit_setBit]
  have h29 : bit 29 (setBit 31 true v) = false := by simp [bit_setBit, hc]
  have hf : fld 28 27 (setBit 31 true v) = fld 28 27 v := fld_setBit_ne 28 27 31 true v (by decide) (by decide)
  let w := setBit 31 true v
  have hw : w = setBit 31 true v := rfl
  have hx : s.mdioWrite w = (s.mdioWritten w).wrb offMdioCtl 16 true := by
    unfold State.mdioWrite
    dsimp only
    rw [h31, hbusy, h29, hf, if_neg (by simp), if_pos (by obtain h | h := hop <;> simp [h])]
    rfl
  refine State.completes_cfg (by rw [exec_mdioStart, execMdioStart]) hs noRegion_mdioCtl ?_
  rw [hx, State.answer_rdb, State.answer_rdb]
  refine ⟨?_, State.rdb_wrb _ _ _ _ (by decide)⟩
  rw [State.rdb, State.rd_wrb_same, bit_setBit _ _ _ _ (by decide), if_neg (by decide), ← State.rdb, State.mdioWritten_busy, hbusy]

theorem mdio_done (data : BitVec 16) (h : s.timerOn .mdio = true) :
    s.completes (.mdioDone data) fun t => t.rdb offMdioCtl 30 = false ∧ t.timerOn .mdio = false ∧
      t.rd offMdioRdata = if s.mgmt.mdioRead then w32 data.toNat else s.rd offMdioRdata := by
  let u := (s.stopTimer .mdio).wrb offMdioCtl 30 false
  have hu : u = (s.stopTimer .mdio).wrb offMdioCtl 30 false := rfl
  have hx : exec (.mdioDone data) s = .next (if s.mgmt.mdioRead then u.wr offMdioRdata (w32 data.toNat) else u) := by
    rw [exec_mdioDone, execMdioDone, if_pos h]
    rfl
  have h30 : u.rdb offMdioCtl 30 = false := State.rdb_wrb _ _ _ _ (by decide)
  have hoff : u.timerOn .mdio = false := State.timerOn_stopTimer _ _
  have hkept : u.rd offMdioRdata = s.rd offMdioRdata :=
    (State.rd_wrb_ne _ _ _ (by decide)).trans (State.rd_of_regs (t := s.stopTimer .mdio) rfl _)
  clear_value u
  refine State.completes_of hx ?_
  cases s.mgmt.mdioRead with
  | true => exact ⟨(congrArg (bit 30) (State.rd_wr_ne _ _ (by decide))).trans h30, hoff, State.rd_wr_same _ _ _⟩
  | false => exact ⟨h30, hoff, hkept⟩

/-! ## The wake detector (R133) -/

theorem State.wakeCause_lt {frame : List Byte} {c : Nat} (h : s.wakeCause frame = some c) : c < 16 := by
  rw [State.wakeCause] at h
  split at h
  · rw [← Option.some.inj h]
    decide
  · obtain ⟨k, hk, rfl⟩ := Option.map_eq_some_iff.1 h
    have := List.mem_range.1 (List.mem_of_find?_eq_some hk)
    omega

theorem wake_frame (frame : List Byte) (c : Nat) (ha : s.pwr.wakeArmed = true) (hd : s.pwr.wakeDeaf = false)
    (hc : s.wakeCause frame = some c) : s.completes (.wakeFrame frame true) fun t => t.rdb offWakeStatus 31 = true ∧
      t.rdf offWakeStatus 3 0 = c ∧ t.pwr.wakeReq = true ∧ t.outbox = .wakeRequest :: s.outbox := by
  let u := ((s.wrb offWakeStatus 31 true).wrf offWakeStatus 3 0 c).emit .wakeRequest
  have hu : u = ((s.wrb offWakeStatus 31 true).wrf offWakeStatus 3 0 c).emit .wakeRequest := rfl
  have hx : exec (.wakeFrame frame true) s = .next { u with pwr := { u.pwr with wakeReq := true } } := by
    rw [exec_wakeFrame, execWakeFrame, ha, hd, if_neg (by simp), hc]
  have hrd : u.rd offWakeStatus = setFld 3 0 c (setBit 31 true (s.rd offWakeStatus)) := by
    rw [hu, State.emit_rd, State.rd_wrf_same, State.rd_wrb_same]
  have hlt := s.wakeCause_lt hc
  have hrd' : ({ u with pwr := { u.pwr with wakeReq := true } } : State).rd offWakeStatus = u.rd offWakeStatus := rfl
  refine State.completes_of hx ⟨?_, ?_, rfl, rfl⟩
  · rw [State.rdb, hrd', hrd, bit_setFld _ _ _ _ _ (by decide) (by decide), if_neg (by decide), bit_setBit _ _ _ _ (by decide), if_pos rfl]
  · rw [State.rdf, hrd', hrd, fld_setFld _ _ _ _ (by decide) (by decide)]
    exact Nat.mod_eq_of_lt hlt

/-- Settles O34: each command of the management port by the rule of its own. -/
theorem managementPortActs : Obligations.ManagementPortActs := by
  intro s
  exact ⟨mgmt_frameIn s, mgmt_filtered s, mgmt_lateCollision s, mgmt_collision s, mgmt_lastCollision s, mgmt_backoffEnd s,
    mgmt_deferEnd s, mdio_start s, mdio_badOp s, mdio_done s, wake_frame s⟩

end Sys2Proof.Machine
end

section
/-! SUPPORT. A silt link's flits: what sending, acknowledging and accepting change (R396, R399, R400). -/

set_option Elab.async false

namespace Sys2Proof.Machine

variable (s : State) (k : Nat)

/-! ## What sending a flit leaves -/

/-- Not among the registers in which a lane counts what it sends. -/
def offEmit (x : Nat) : Prop := x < 0x490000 ∨ x % 0x1000 ≠ 0x40 ∧ x % 0x1000 ≠ 0xE0 ∧ x % 0x1000 ≠ 0xE4

theorem State.siltSt_siltMod (f : SiltSt → SiltSt) : (s.siltMod k f).siltSt k = f (s.siltSt k) := by
  rw [State.siltSt, State.siltMod, sget_smod, if_pos rfl]
  rfl

theorem State.siltSt_congr {s t : State} (h : t.silt = s.silt) (k : Nat) : t.siltSt k = s.siltSt k := by
  rw [State.siltSt, State.siltSt, h]

theorem State.siltEmit_spec (type seq arg : Nat) (body : List Byte) : (∀ x, offEmit x → (s.siltEmit k type seq arg body).rd x = s.rd x) ∧
    (∃ n, (s.siltEmit k type seq arg body).siltSt k = { s.siltSt k with turn := n }) ∧
    ∃ o, (s.siltEmit k type seq arg body).outbox = o :: s.outbox := by
  unfold State.siltEmit
  extract_lets x base t
  have hbase : base % 0x1000 = 0 ∧ 0x490000 ≤ base := by
    unfold base siltLane
    omega
  clear_value base
  obtain ⟨hmod, hlow⟩ := hbase
  dsimp only
  have hrd : ∀ y, offEmit y → (t.draw.2.addCnt (base + 0xE0) (t.draw.1 % 35) (lnEvt base) 6).rd y = s.rd y := fun y hy => by
    unfold offEmit at hy
    exact State.rd_addCnt_ne _ _ _ (by omega) (by omega) (by unfold lnEvt; omega)
  have hst : (t.draw.2.addCnt (base + 0xE0) (t.draw.1 % 35) (lnEvt base) 6).siltSt k = s.siltSt k :=
    State.siltSt_congr ((State.addCnt_within _ _ _ _ _).same .silt (by decide)) k
  have hout : (t.draw.2.addCnt (base + 0xE0) (t.draw.1 % 35) (lnEvt base) 6).outbox =
      .siltFlit k (flitBytes type seq x.ack arg body) :: s.outbox := (State.addCnt_within _ _ _ _ _).same .outbox (by decide)
  generalize t.draw.2.addCnt (base + 0xE0) (t.draw.1 % 35) (lnEvt base) 6 = u at hrd hst hout
  have hmodst : (u.siltMod k fun y => { y with turn := (y.turn + 1) % max 1 y.txMap.length }).siltSt k =
      { s.siltSt k with turn := ((s.siltSt k).turn + 1) % max 1 (s.siltSt k).txMap.length } := by
    rw [State.siltSt_siltMod, hst]
  split
  · exact ⟨hrd, ⟨_, hmodst⟩, _, hout⟩
  · exact ⟨hrd, ⟨_, hmodst⟩, _, hout⟩

theorem State.siltTimers_spec : (∀ x, (s.siltTimers k).rd x = s.rd x) ∧ (s.siltTimers k).siltSt k = s.siltSt k ∧
    (s.siltTimers k).outbox = s.outbox := by
  refine ⟨fun x => ?_, State.siltSt_congr ((s.siltTimers_within k).same .silt (by decide)) k, (s.siltTimers_within k).same .outbox (by decide)⟩
  unfold State.siltTimers
  extract_lets y t
  have ht : t.rd x = s.rd x := by
    unfold t
    split
    · rfl
    · split
      · rfl
      · rfl
  clear_value t
  rw [← ht]
  split
  · rfl
  · split
    · rfl
    · rfl

/-- What sending leaves of a link beside its registers. -/
def SiltSt.carried (x : SiltSt) : SiltSt := { x with txq := [], nextSeq := 0, replay := [], wcred := 0, rcred := 0, turn := 0 }

/-- What sending leaves of the registers: all but those that count what is sent. -/
def sentKept (x : Nat) : Prop := offEmit x ∧ x ≠ offSiltCnt k 0 ∧ x ≠ offSiltCnt k 0 + 4 ∧ x ≠ offSiltEvt k

/-- From s to t the link has sent flits, or none. -/
structure SiltSent (s t : State) : Prop where
  rd : ∀ x, sentKept k x → t.rd x = s.rd x
  st : (t.siltSt k).carried = (s.siltSt k).carried
  within : Within [.draws, .outbox, .timers, .evWait, .silt] s t

section
variable {k} {s}

theorem SiltSent.refl : SiltSent k s s := ⟨fun _ _ => rfl, rfl, Within.refl s⟩

theorem SiltSent.trans {t u : State} (h : SiltSent k s t) (g : SiltSent k t u) : SiltSent k s u :=
  ⟨fun x hx => (g.rd x hx).trans (h.rd x hx), g.st.trans h.st, h.within.trans g.within⟩

end

theorem State.siltSendOne_sent (f : SiltFlit) : SiltSent k s (s.siltSendOne k f) := by
  unfold State.siltSendOne
  extract_lets q t
  obtain ⟨hrd, ⟨n, hst⟩, -⟩ := s.siltEmit_spec k f.type q f.arg f.body
  have ht : SiltSent k s t := by
    refine ⟨fun x hx => ?_, ?_, (s.siltEmit_within _ _ _ _ _).trans (State.siltCnt_within _ _ _ _).mono⟩
    · obtain ⟨hemit, h0, h4, hevt⟩ := hx
      exact (State.rd_addCnt_ne _ _ _ h0 h4 hevt).trans (hrd x hemit)
    · rw [State.siltSt_congr ((State.siltCnt_within _ _ _ _).same .silt (by decide)) k, hst]
      rfl
  refine ht.trans ⟨fun x _ => rfl, ?_, (State.siltMod_within _ _ _).mono⟩
  rw [State.siltSt_siltMod]
  rfl

theorem State.siltPump_sent (n : Nat) : SiltSent k s (s.siltPump k n) := by
  induction n generalizing s with
  | zero => exact .refl
  | succ n ih =>
    unfold State.siltPump
    split
    · exact .refl
    next f _ _ =>
      split
      · exact (s.siltSendOne_sent k f).trans (ih _)
      · exact .refl

theorem State.siltPumpAll_sent : SiltSent k s (s.siltPumpAll k) := by
  unfold State.siltPumpAll
  obtain ⟨hrd, hst, -⟩ := State.siltTimers_spec (s.siltPump k (s.siltSt k).txq.length) k
  exact (s.siltPump_sent k _).trans ⟨fun x _ => hrd x, congrArg _ hst, (State.siltTimers_within _ _).mono⟩

/-! ## An acknowledgement -/

/-- The flits that an acknowledgement covers have left the replay buffer, and their timers stop. -/
def State.siltCovered (s : State) (k i : Nat) : State :=
  ((s.siltMod k fun x => { x with replay := (x.replay.drop (i + 1)).map fun e => (e.1, e.2.1, 0) }).stopTimer (.siltReplay k)).stopTimer
    (.siltLoss k)

theorem State.siltAck_none {ack : Nat} (h : ((s.siltSt k).replay.findIdx? fun e => e.1 == ack) = none) : s.siltAck k ack = s := by
  rw [State.siltAck, h]

theorem State.siltAck_some {ack i : Nat} (h : ((s.siltSt k).replay.findIdx? fun e => e.1 == ack) = some i) :
    s.siltAck k ack = (s.siltCovered k i).siltPumpAll k := by
  rw [State.siltAck, h]
  rfl

theorem State.siltCovered_st (i : Nat) : (s.siltCovered k i).siltSt k =
    { s.siltSt k with replay := ((s.siltSt k).replay.drop (i + 1)).map fun e => (e.1, e.2.1, 0) } :=
  s.siltSt_siltMod k fun x => { x with replay := (x.replay.drop (i + 1)).map fun e => (e.1, e.2.1, 0) }

theorem State.siltAck_sent (ack : Nat) : SiltSent k s (s.siltAck k ack) := by
  cases h : (s.siltSt k).replay.findIdx? fun e => e.1 == ack with
  | none =>
    rw [s.siltAck_none k h]
    exact .refl
  | some i =>
    rw [s.siltAck_some k h]
    refine SiltSent.trans (t := s.siltCovered k i) ⟨fun x _ => rfl, ?_, ?_⟩ ((s.siltCovered k i).siltPumpAll_sent k)
    · rw [State.siltCovered_st]
      rfl
    · exact ((State.siltMod_within _ _ _).mono.trans (State.stopTimer_within _ _).mono).trans (State.stopTimer_within _ _).mono

/-- With nothing that waits to be sent an acknowledgement takes from the replay buffer only. -/
theorem State.siltAck_quiet {ack : Nat} (h : (s.siltSt k).txq = []) : (∀ x, (s.siltAck k ack).rd x = s.rd x) ∧
    (s.siltAck k ack).outbox = s.outbox ∧ ∃ r, (s.siltAck k ack).siltSt k = { s.siltSt k with replay := r } ∧
      ∀ i, ((s.siltSt k).replay.findIdx? fun e => e.1 == ack) = some i →
        r = ((s.siltSt k).replay.drop (i + 1)).map fun e => (e.1, e.2.1, 0) := by
  cases hi : (s.siltSt k).replay.findIdx? fun e => e.1 == ack with
  | none =>
    rw [s.siltAck_none k hi]
    exact ⟨fun _ => rfl, rfl, _, rfl, fun i hn => by simp at hn⟩
  | some i =>
    have hst := s.siltCovered_st k i
    have hrd : ∀ x, (s.siltCovered k i).rd x = s.rd x := fun _ => rfl
    have hout : (s.siltCovered k i).outbox = s.outbox := rfl
    rw [s.siltAck_some k hi, State.siltPumpAll, hst, h]
    obtain ⟨trd, tst, tout⟩ := (s.siltCovered k i).siltTimers_spec k
    refine ⟨fun x => (trd x).trans (hrd x), tout.trans hout, _, tst.trans hst, fun j hj => ?_⟩
    rw [Option.some.inj hj]

/-! ## A sequenced flit is accepted -/

/-- The flit with the SEQ expected has been accepted, and has not acted. -/
def State.siltTaken (s : State) (k seq ack : Nat) : State :=
  (((s.siltAck k ack).siltCnt k 1 1).siltMod k fun x => { x with expect := (seq + 1) % 4096, ack := seq, naked := false }).stopTimer
    (.siltLoss k)

/-- Once the flit has acted, an ACTIVE link's timers run by what is outstanding. -/
def State.siltArmed (s : State) (k : Nat) : State := if s.siltActive k then s.siltTimers k else s

theorem State.siltAccept_eq (seq ack : Nat) (m : ModFlit) : s.siltAccept k seq ack m = ((s.siltTaken k seq ack).siltAct k m).siltArmed k := rfl

theorem State.siltArmed_spec : (∀ x, (s.siltArmed k).rd x = s.rd x) ∧ (s.siltArmed k).siltSt k = s.siltSt k ∧
    (s.siltArmed k).outbox = s.outbox := by
  unfold State.siltArmed
  split
  · exact s.siltTimers_spec k
  · exact ⟨fun _ => rfl, rfl, rfl⟩

/-- A flit that is accepted counts, and sets what the link expects next. -/
theorem State.siltTaken_sent (seq ack : Nat) :
    (∀ x, sentKept k x → x ≠ offSiltCnt k 1 → x ≠ offSiltCnt k 1 + 4 → (s.siltTaken k seq ack).rd x = s.rd x) ∧
    ((s.siltTaken k seq ack).siltSt k).carried =
      { (s.siltSt k).carried with expect := (seq + 1) % 4096, ack := seq, naked := false } ∧
    Within [.draws, .outbox, .timers, .evWait, .silt] s (s.siltTaken k seq ack) := by
  obtain ⟨hrd, hst, hin⟩ := s.siltAck_sent k ack
  have hcnt : ((s.siltAck k ack).siltCnt k 1 1).siltSt k = (s.siltAck k ack).siltSt k :=
    State.siltSt_congr ((State.siltCnt_within _ _ _ _).same .silt (by decide)) k
  have htaken : (s.siltTaken k seq ack).siltSt k =
      { (s.siltAck k ack).siltSt k with expect := (seq + 1) % 4096, ack := seq, naked := false } := by
    rw [← hcnt]
    exact State.siltSt_siltMod _ k fun x => { x with expect := (seq + 1) % 4096, ack := seq, naked := false }
  refine ⟨fun x hx h1 h4 => ?_, ?_, ?_⟩
  · exact (State.rd_addCnt_ne _ _ _ h1 h4 hx.2.2.2).trans (hrd x hx)
  · rw [htaken, ← hst]
    rfl
  · exact ((hin.trans (State.siltCnt_within _ _ _ _).mono).trans (State.siltMod_within _ _ _).mono).trans
      (State.stopTimer_within _ _).mono

theorem offSiltCnt_apart {k i : Nat} (hi : i < 8) : offSiltCnt k i ≠ offSiltEvt k ∧ offSiltCnt k i + 4 ≠ offSiltEvt k := by
  simp only [offSiltCnt, offSiltEvt]
  omega

/-- With nothing that waits to be sent, only the replay buffer changes beside. -/
theorem State.siltTaken_quiet {seq ack : Nat} (h : (s.siltSt k).txq = []) :
    (∃ r, (s.siltTaken k seq ack).siltSt k =
      { s.siltSt k with replay := r, expect := (seq + 1) % 4096, ack := seq, naked := false }) ∧
    (s.siltTaken k seq ack).cnt (offSiltCnt k 1) = (s.cnt (offSiltCnt k 1) + 1) % cntMod := by
  obtain ⟨hrd, -, r, hst, -⟩ := s.siltAck_quiet k (ack := ack) h
  have hcnt : ((s.siltAck k ack).siltCnt k 1 1).siltSt k = (s.siltAck k ack).siltSt k :=
    State.siltSt_congr ((State.siltCnt_within _ _ _ _).same .silt (by decide)) k
  obtain ⟨h1, h4⟩ := offSiltCnt_apart (k := k) (i := 1) (by decide)
  refine ⟨⟨r, ?_⟩, ?_⟩
  · refine (State.siltSt_siltMod _ k fun x => { x with expect := (seq + 1) % 4096, ack := seq, naked := false }).trans ?_
    rw [hcnt, hst]
  · refine (State.cnt_addCnt _ 1 11 h1 h4).trans ?_
    rw [State.cnt_congr (hrd _) (hrd _)]

theorem State.siltTake_next {seq ack : Nat} {m : ModFlit} (ha : s.siltActive k = true) (hs : seq = (s.siltSt k).expect) :
    s.siltTake k seq ack m = (s.siltAccept k seq ack m).siltRelease k (s.siltSt k).early.length := by
  rw [State.siltTake, ha, if_neg (by simp), if_pos (by omega)]

/-- With none held behind it an accepted flit is the last. -/
theorem State.siltTake_last {seq ack : Nat} {m : ModFlit} (ha : s.siltActive k = true) (hs : seq = (s.siltSt k).expect)
    (he : (s.siltSt k).early = []) : s.siltTake k seq ack m = s.siltAccept k seq ack m := by
  rw [s.siltTake_next k ha hs, he]
  rfl

/-! ## What a flit does -/

/-- A grain that is not the last of its frame leaves the reads that wait, and may be counted in topsoil. -/
theorem State.readBack_more {f a : Nat} {rest : List (Nat × Nat)} (h : (s.siltSt k).reads = (f, a) :: rest)
    (hmore : rest.any (fun e => e.1 == f) = true) : (s.readBack k a false false).siltSt k = { s.siltSt k with reads := rest } ∧
    ∀ x, x ≠ offTierOcc 0 0 → x ≠ offTierOcc 0 0 + 4 → (s.readBack k a false false).rd x = s.rd x := by
  have hst : (s.siltMod k fun x => { x with reads := rest }).siltSt k = { s.siltSt k with reads := rest } :=
    s.siltSt_siltMod k fun x => { x with reads := rest }
  have hrd : ∀ x, (s.siltMod k fun x => { x with reads := rest }).rd x = s.rd x := fun _ => rfl
  unfold State.readBack
  rw [h]
  dsimp only
  rw [if_neg (by simp), hmore]
  generalize s.siltMod k (fun x => { x with reads := rest }) = t at hst hrd
  split
  · exact ⟨hst, fun x _ _ => hrd x⟩
  · split
    · exact ⟨hst, fun x _ _ => hrd x⟩
    · refine ⟨hst, fun x h0 h4 => ?_⟩
      exact ((State.rd_wr_ne _ _ h4).trans (State.rd_wr_ne _ _ h0)).trans (hrd x)

/-- With no frame in the block the writes that a module acknowledges are only forgotten. -/
theorem State.writeAcked_noFrames (n : Nat) (h : s.frames = []) :
    ((s.writeAcked k n).siltSt k).writes = (s.siltSt k).writes.drop n ∧
    ((s.writeAcked k n).siltSt k).expect = (s.siltSt k).expect := by
  induction n generalizing s with
  | zero => exact ⟨rfl, rfl⟩
  | succ n ih =>
    unfold State.writeAcked
    generalize hw : (s.siltSt k).writes = l
    cases l with
    | nil => exact ⟨hw, rfl⟩
    | cons e rest =>
      have hst := s.siltSt_siltMod k fun x => { x with writes := rest }
      have hframes : (s.siltMod k fun x => { x with writes := rest }).frames = [] := h
      dsimp only
      generalize s.siltMod k (fun x => { x with writes := rest }) = t at hst hframes
      have hframe : t.frame e.1 = none := by
        rw [State.frame, hframes]
        rfl
      rw [hframe]
      obtain ⟨hwrites, hexp⟩ := ih t hframes
      exact ⟨hwrites.trans (by rw [hst, List.drop_succ_cons]), hexp.trans (by rw [hst])⟩

/-- A CREDIT flit that is accepted, with nothing that waits to be sent. -/
theorem State.siltAccept_credit {seq ack w r : Nat} (h : (s.siltSt k).txq = []) : ∃ p,
    (s.siltAccept k seq ack (.credit w r)).siltSt k = { s.siltSt k with
      replay := p, expect := (seq + 1) % 4096, ack := seq, naked := false
      wcred := (s.siltSt k).wcred + w, rcred := (s.siltSt k).rcred + r } := by
  obtain ⟨⟨p, htaken⟩, -⟩ := s.siltTaken_quiet k (seq := seq) (ack := ack) h
  generalize ht : s.siltTaken k seq ack = t at htaken
  have hu : (t.siltMod k fun x => { x with wcred := x.wcred + w, rcred := x.rcred + r }).siltSt k = { t.siltSt k with
      wcred := (t.siltSt k).wcred + w, rcred := (t.siltSt k).rcred + r } :=
    t.siltSt_siltMod k fun x => { x with wcred := x.wcred + w, rcred := x.rcred + r }
  have hact : t.siltAct k (.credit w r) = (t.siltMod k fun x => { x with wcred := x.wcred + w, rcred := x.rcred + r }).siltTimers k := by
    rw [State.siltAct, State.siltPumpAll, hu, htaken, h]
    rfl
  refine ⟨p, ?_⟩
  obtain ⟨-, harmed, -⟩ := (t.siltAct k (.credit w r)).siltArmed_spec k
  rw [State.siltAccept_eq, ht, harmed, hact, (State.siltTimers_spec _ k).2.1, hu, htaken]

end Sys2Proof.Machine
end
section
/-! SUPPORT. Flits that a silt link accepts, command by command (R399 to R403, R410). -/

set_option Elab.async false

namespace Sys2Proof.Machine

variable (s : State) (k : Fin 8)

theorem silt_read (ha : s.siltActive k = true) (seq ack : BitVec 12) (a : BitVec 30) (f : Nat) (rest : List (Nat × Nat))
    (hs : seq.toNat = (s.siltSt k).expect) (hr : (s.siltSt k).reads = (f, a.toNat) :: rest)
    (hmore : rest.any (fun e => e.1 == f) = true) (hq : (s.siltSt k).txq = []) (he : (s.siltSt k).early = []) :
    s.completes (.readDataReceive k seq ack a 0 false false) fun t => (t.siltSt k).reads = rest ∧
      (t.siltSt k).expect = (seq.toNat + 1) % 4096 ∧ (t.siltSt k).ack = seq.toNat ∧ (t.siltSt k).naked = false ∧
      t.cnt (offSiltCnt k 1) = (s.cnt (offSiltCnt k 1) + 1) % cntMod := by
  obtain ⟨⟨r, hst⟩, hcnt⟩ := s.siltTaken_quiet k (seq := seq.toNat) (ack := ack.toNat) hq
  have hx : exec (.readDataReceive k seq ack a 0 false false) s = .next (((s.siltTaken k seq.toNat ack.toNat).readBack k a.toNat false
      false).siltArmed k) := by
    rw [exec_readDataReceive, execReadDataReceive, s.siltTake_last k ha hs he, State.siltAccept_eq, State.siltAct]
    rw [show (0 : BitVec 5).toNat = 0 from rfl, Nat.zero_min, State.writeAcked]
  generalize s.siltTaken k seq.toNat ack.toNat = t at hst hcnt hx
  obtain ⟨hback, hrd⟩ := t.readBack_more k (f := f) (a := a.toNat) (by rw [hst]; exact hr) hmore
  obtain ⟨ard, ast, -⟩ := (t.readBack k a.toNat false false).siltArmed_spec k
  refine State.completes_of hx ?_
  rw [ast, hback, hst, ← hcnt]
  refine ⟨rfl, rfl, rfl, rfl, State.cnt_congr ((ard _).trans (hrd _ ?_ ?_)) ((ard _).trans (hrd _ ?_ ?_))⟩
  all_goals
    simp only [offSiltCnt, offTierOcc]
    omega

theorem silt_writeAck (ha : s.siltActive k = true) (seq ack : BitVec 12) (cnt : BitVec 16) (hs : seq.toNat = (s.siltSt k).expect)
    (hf : s.frames = []) (hq : (s.siltSt k).txq = []) (he : (s.siltSt k).early = []) :
    s.completes (.writeAckReceive k seq ack cnt) fun t => (t.siltSt k).writes = (s.siltSt k).writes.drop cnt.toNat ∧
      (t.siltSt k).expect = (seq.toNat + 1) % 4096 := by
  obtain ⟨⟨r, hst⟩, -⟩ := s.siltTaken_quiet k (seq := seq.toNat) (ack := ack.toNat) hq
  obtain ⟨-, -, hin⟩ := s.siltTaken_sent k seq.toNat ack.toNat
  have hframes : (s.siltTaken k seq.toNat ack.toNat).frames = [] := (hin.same .frames (by decide)).trans hf
  refine State.completes_of (by rw [exec_writeAckReceive, execWriteAckReceive, s.siltTake_last k ha hs he, State.siltAccept_eq]) ?_
  obtain ⟨-, harmed, -⟩ := (((s.siltTaken k seq.toNat ack.toNat).siltAct k (.writeAck cnt.toNat))).siltArmed_spec k
  obtain ⟨hwrites, hexp⟩ := State.writeAcked_noFrames _ k (min cnt.toNat ((s.siltTaken k seq.toNat ack.toNat).siltSt k).writes.length)
    hframes
  rw [harmed, State.siltAct, hwrites, hexp, hst]
  refine ⟨?_, rfl⟩
  dsimp only
  obtain hlt | hle := Nat.lt_or_ge cnt.toNat (s.siltSt k).writes.length
  · rw [Nat.min_eq_left (Nat.le_of_lt hlt)]
  · rw [Nat.min_eq_right hle, List.drop_length, List.drop_eq_nil_of_le hle]

theorem silt_credit (ha : s.siltActive k = true) (seq ack : BitVec 12) (w r : BitVec 18) (hs : seq.toNat = (s.siltSt k).expect)
    (hq : (s.siltSt k).txq = []) (he : (s.siltSt k).early = []) :
    s.completes (.creditReceive k seq ack w r) fun t => (t.siltSt k).wcred = (s.siltSt k).wcred + w.toNat ∧
      (t.siltSt k).rcred = (s.siltSt k).rcred + r.toNat ∧ (t.siltSt k).expect = (seq.toNat + 1) % 4096 := by
  obtain ⟨p, hst⟩ := s.siltAccept_credit k (seq := seq.toNat) (ack := ack.toNat) (w := w.toNat) (r := r.toNat) hq
  refine State.completes_of (by rw [exec_creditReceive, execCreditReceive, s.siltTake_last k ha hs he]) ?_
  rw [hst]
  exact ⟨rfl, rfl, rfl⟩

theorem silt_creditHeld (ha : s.siltActive k = true) (seq ack ack' : BitVec 12) (w r w' r' : BitVec 18)
    (hs : seq.toNat = (s.siltSt k).expect) (hq : (s.siltSt k).txq = [])
    (he : (s.siltSt k).early = [((seq.toNat + 1) % 4096, ack'.toNat, .credit w'.toNat r'.toNat)]) :
    s.completes (.creditReceive k seq ack w r) fun t => (t.siltSt k).wcred = (s.siltSt k).wcred + w.toNat + w'.toNat ∧
      (t.siltSt k).rcred = (s.siltSt k).rcred + r.toNat + r'.toNat ∧ (t.siltSt k).expect = (seq.toNat + 2) % 4096 ∧
      (t.siltSt k).early = [] := by
  obtain ⟨p, hst⟩ := s.siltAccept_credit k (seq := seq.toNat) (ack := ack.toNat) (w := w.toNat) (r := r.toNat) hq
  have hx : exec (.creditReceive k seq ack w r) s = .next ((s.siltAccept k seq.toNat ack.toNat (.credit w.toNat r.toNat)).siltRelease
      k 1) := by
    rw [exec_creditReceive, execCreditReceive, s.siltTake_next k ha hs, he]
    rfl
  generalize s.siltAccept k seq.toNat ack.toNat (.credit w.toNat r.toNat) = t at hst hx
  have hearly : (t.siltSt k).early = [((seq.toNat + 1) % 4096, ack'.toNat, .credit w'.toNat r'.toNat)] := by rw [hst]; exact he
  have hexp : (t.siltSt k).expect = (seq.toNat + 1) % 4096 := by rw [hst]
  let u := t.siltMod k fun x => { x with early := x.early.filter fun d => d.1 != (seq.toNat + 1) % 4096 }
  have hu : u = t.siltMod k fun x => { x with early := x.early.filter fun d => d.1 != (seq.toNat + 1) % 4096 } := rfl
  have hust : u.siltSt k = { t.siltSt k with early := [] } := by
    refine (t.siltSt_siltMod k fun x => { x with early := x.early.filter fun d => d.1 != (seq.toNat + 1) % 4096 }).trans ?_
    rw [hearly]
    simp
  have hrelease : t.siltRelease k 1 = u.siltAccept k ((seq.toNat + 1) % 4096) ack'.toNat (.credit w'.toNat r'.toNat) := by
    rw [State.siltRelease, hearly, hexp, List.find?_singleton, if_pos (by simp)]
    rfl
  obtain ⟨p', hst'⟩ := u.siltAccept_credit k (seq := (seq.toNat + 1) % 4096) (ack := ack'.toNat) (w := w'.toNat) (r := r'.toNat)
    (by rw [hust, hst]; exact hq)
  refine State.completes_of (hx.trans (by rw [hrelease])) ?_
  rw [hst', hust, hst]
  refine ⟨rfl, rfl, ?_, rfl⟩
  dsimp only
  omega

/-! ## Unsequenced flits -/

theorem State.siltHear_active (ha : s.siltActive k = true) (ack : Nat) (f : State → State) : s.siltHear k ack f = f (s.siltAck k ack) := if_pos ha

theorem silt_nullAck (ha : s.siltActive k = true) (ack : BitVec 12) (i : Nat)
    (hi : ((s.siltSt k).replay.findIdx? fun e => e.1 == ack.toNat) = some i) (hq : (s.siltSt k).txq = []) :
    s.completes (.nullFlitReceive k ack) fun t =>
      (t.siltSt k).replay = ((s.siltSt k).replay.drop (i + 1)).map fun e => (e.1, e.2.1, 0) := by
  obtain ⟨-, -, r, hst, hr⟩ := s.siltAck_quiet k (ack := ack.toNat) hq
  refine State.completes_of (by rw [exec_nullFlitReceive, execNullFlitReceive, s.siltHear_active k ha]) ?_
  rw [hst]
  exact hr i hi

theorem silt_null (ha : s.siltActive k = true) (ack : BitVec 12) (hi : ((s.siltSt k).replay.findIdx? fun e => e.1 == ack.toNat) = none) :
    s.completes (.nullFlitReceive k ack) fun t => t = s := by
  refine State.completes_of (by rw [exec_nullFlitReceive, execNullFlitReceive, s.siltHear_active k ha]) ?_
  exact s.siltAck_none k hi

theorem silt_mapAck (ha : s.siltActive k = true) (ack : BitVec 12) (map : BitVec 21) (hp : (s.siltSt k).mapPending = some map.toNat) :
    s.completes (.laneMapAckReceive k ack map) fun t => (t.siltSt k).mapPending = none ∧ t.timerOn (.siltMap k) = false ∧
      (t.siltSt k).txMap = s.siltInUse k := by
  obtain ⟨hrd, hst, -⟩ := s.siltAck_sent k ack.toNat
  let t := s.siltAck k ack.toNat
  have ht : t = s.siltAck k ack.toNat := rfl
  have hpend : (t.siltSt k).mapPending = some map.toNat := (congrArg SiltSt.mapPending hst).trans hp
  have hmap : t.rd (offSiltMap k) = s.rd (offSiltMap k) := hrd _ (by
    unfold sentKept offEmit offSiltMap offSiltCnt offSiltEvt
    omega)
  have huse : t.siltInUse k = s.siltInUse k := by
    simp only [State.siltInUse, State.siltN, State.siltPhys, State.rdf, hmap]
  have hx : exec (.laneMapAckReceive k ack map) s = .next ((t.siltMod k fun x =>
      { x with mapPending := none, txMap := t.siltInUse k, turn := 0 }).stopTimer (.siltMap k)) := by
    rw [exec_laneMapAckReceive, execLaneMapAckReceive, s.siltHear_active k ha, ← ht, hpend, if_pos rfl]
  have hu := t.siltSt_siltMod k fun x => { x with mapPending := none, txMap := t.siltInUse k, turn := 0 }
  refine State.completes_of hx ⟨congrArg SiltSt.mapPending hu, State.timerOn_stopTimer _ _, ?_⟩
  exact (congrArg SiltSt.txMap hu).trans huse

theorem silt_stuffError (ha : s.siltActive k = true) (i : Fin 8) (symbols : List (Fin 4)) (hl : s.laneLocked (siltLane k i) = true)
    (hu : unstuff (symbols.map (·.val)) = none) :
    s.completes (.stuffError k i symbols) fun t => t.cnt (siltLane k i + 0xE8) = (s.cnt (siltLane k i + 0xE8) + 1) % cntMod := by
  have hon : s.siltOn k = true := (Bool.and_eq_true _ _ ▸ ha : s.siltOn k = true ∧ _).1
  refine State.completes_of (u := s.inc (siltLane k i + 0xE8) (lnEvt (siltLane k i)) 6) ?_
    (State.cnt_inc _ _ (by unfold lnEvt; omega) (by unfold lnEvt; omega))
  rw [exec_stuffError, execStuffError, hon, hl, hu]
  rfl

end Sys2Proof.Machine
end

section
/-! SUPPORT. Flits that a silt link holds early or discards, resent flits and faults of the link (R399, R400, R409, R412). -/

set_option Elab.async false

namespace Sys2Proof.Machine

variable (s : State) (k : Nat)

/-! ## Discards -/

theorem State.siltMgmt_spec (op operand : Nat) (body : List Byte) : (∀ x, offEmit x → (s.siltMgmt k op operand body).rd x = s.rd x) ∧
    (∃ n, (s.siltMgmt k op operand body).siltSt k = { s.siltSt k with turn := n }) ∧
    ∃ o, (s.siltMgmt k op operand body).outbox = o :: s.outbox := s.siltEmit_spec k 7 (s.siltSt k).nextSeq (op * 2 ^ 32 + operand) body

/-- The link asks once for the flit that it expects. -/
theorem State.siltDiscard_spec : (∀ x, sentKept k x → x ≠ offSiltCnt k 2 → x ≠ offSiltCnt k 2 + 4 → (s.siltDiscard k).rd x = s.rd x) ∧
    (s.siltDiscard k).cnt (offSiltCnt k 2) = (s.cnt (offSiltCnt k 2) + 1) % cntMod ∧
    (∃ n, (s.siltDiscard k).siltSt k = { s.siltSt k with early := [], naked := true, turn := n }) ∧
    (s.siltDiscard k).outbox.length = s.outbox.length + (if (s.siltSt k).naked then 0 else 1) := by
  unfold State.siltDiscard
  extract_lets t
  obtain ⟨h2, h24⟩ := offSiltCnt_apart (k := k) (i := 2) (by decide)
  have hcnt : t.cnt (offSiltCnt k 2) = (s.cnt (offSiltCnt k 2) + 1) % cntMod := State.cnt_addCnt s 1 11 h2 h24
  have hrd : ∀ x, x ≠ offSiltCnt k 2 → x ≠ offSiltCnt k 2 + 4 → x ≠ offSiltEvt k → t.rd x = s.rd x := fun x a b c =>
    State.rd_addCnt_ne s 1 11 a b c
  have hst : t.siltSt k = { s.siltSt k with early := [] } := by
    refine (State.siltSt_siltMod _ k fun x => { x with early := [] }).trans ?_
    rw [State.siltSt_congr ((State.siltCnt_within s k 2 1).same .silt (by decide))]
  have hout : t.outbox = s.outbox := (State.siltCnt_within s k 2 1).same .outbox (by decide)
  clear_value t
  have hnaked : (t.siltSt k).naked = (s.siltSt k).naked := by rw [hst]
  rw [hnaked]
  cases hn : (s.siltSt k).naked with
  | true =>
    rw [if_pos rfl, if_pos rfl]
    refine ⟨fun x hx a b => hrd x a b hx.2.2.2, hcnt, ⟨(s.siltSt k).turn, ?_⟩, congrArg List.length hout⟩
    rw [hst, ← hn]
  | false =>
    rw [if_neg (by simp), if_neg (by simp)]
    have hu := t.siltSt_siltMod k fun x => { x with naked := true }
    have hurd : ∀ x, (t.siltMod k fun x => { x with naked := true }).rd x = t.rd x := fun _ => rfl
    have huout : (t.siltMod k fun x => { x with naked := true }).outbox = t.outbox := rfl
    generalize t.siltMod k (fun x => { x with naked := true }) = u at hu hurd huout
    obtain ⟨erd, ⟨n, est⟩, o, eout⟩ := u.siltMgmt_spec k 0 (t.siltSt k).expect []
    have hemit : offEmit (offSiltCnt k 2) ∧ offEmit (offSiltCnt k 2 + 4) := by
      unfold offEmit offSiltCnt
      omega
    refine ⟨fun x hx a b => ?_, ?_, ⟨n, ?_⟩, ?_⟩
    · exact ((erd x hx.1).trans (hurd x)).trans (hrd x a b hx.2.2.2)
    · rw [State.cnt_congr (erd _ hemit.1) (erd _ hemit.2), State.cnt_congr (hurd _) (hurd _), hcnt]
    · rw [est, hu, hst]
    · rw [eout, huout, hout, List.length_cons]

/-! ## Resent flits -/

/-- Flits sent one after another. -/
theorem State.siltEmits_spec (l : List (Nat × SiltFlit × Nat)) :
    (∀ x, offEmit x → (l.foldl (fun s e => s.siltEmit k e.2.1.type e.1 e.2.1.arg e.2.1.body) s).rd x = s.rd x) ∧
    (∃ n, (l.foldl (fun s e => s.siltEmit k e.2.1.type e.1 e.2.1.arg e.2.1.body) s).siltSt k = { s.siltSt k with turn := n }) ∧
    (l.foldl (fun s e => s.siltEmit k e.2.1.type e.1 e.2.1.arg e.2.1.body) s).outbox.length = s.outbox.length + l.length ∧
    Within [.draws, .outbox, .timers, .evWait, .silt] s (l.foldl (fun s e => s.siltEmit k e.2.1.type e.1 e.2.1.arg e.2.1.body) s) := by
  induction l generalizing s with
  | nil => exact ⟨fun _ _ => rfl, ⟨_, rfl⟩, rfl, Within.refl s⟩
  | cons e l ih =>
    obtain ⟨erd, ⟨m, est⟩, o, eout⟩ := s.siltEmit_spec k e.2.1.type e.1 e.2.1.arg e.2.1.body
    have ein := s.siltEmit_within k e.2.1.type e.1 e.2.1.arg e.2.1.body
    obtain ⟨hrd, ⟨n, hst⟩, hout, hin⟩ := ih (s.siltEmit k e.2.1.type e.1 e.2.1.arg e.2.1.body)
    rw [List.foldl_cons]
    refine ⟨fun x hx => (hrd x hx).trans (erd x hx), ⟨n, ?_⟩, ?_, ein.trans hin⟩
    · rw [hst, est]
    · rw [hout, eout, List.length_cons, List.length_cons]
      omega

/-- The replay buffer with one more resend of each flit from place i on. -/
def resent (i : Nat) (l : List (Nat × SiltFlit × Nat)) : List (Nat × SiltFlit × Nat) :=
  l.mapIdx fun j e => if i ≤ j then (e.1, e.2.1, e.2.2 + 1) else e

theorem resent_map_fst (i : Nat) (l : List (Nat × SiltFlit × Nat)) : (resent i l).map (·.1) = l.map (·.1) := by
  unfold resent
  refine List.ext_getElem (by simp) fun j h1 h2 => ?_
  rw [List.getElem_map, List.getElem_map, List.getElem_mapIdx]
  split <;> rfl

/-- The link has resent the flits from place i on; it has not been checked for how often. -/
theorem State.siltResend_spec (i : Nat) : ∃ t, s.siltResend k i =
      (if (t.siltSt k).replay.any (fun e => decide (max 1 (s.rdf (offSiltReplay k) 31 28) ≤ e.2.2)) then t.siltFault k 7 else t) ∧
    (∀ x, sentKept k x → x ≠ offSiltCnt k 3 → x ≠ offSiltCnt k 3 + 4 → t.rd x = s.rd x) ∧
    t.cnt (offSiltCnt k 3) = (s.cnt (offSiltCnt k 3) + ((s.siltSt k).replay.length - i)) % cntMod ∧
    (t.siltSt k).replay = resent i (s.siltSt k).replay ∧
    t.outbox.length = s.outbox.length + ((s.siltSt k).replay.length - i) ∧
    Within [.draws, .outbox, .timers, .evWait, .silt] s t := by
  unfold State.siltResend
  extract_lets again u v w
  obtain ⟨hrd, ⟨n, hst⟩, hout, hin⟩ := s.siltEmits_spec k again
  change (∀ x, offEmit x → u.rd x = s.rd x) at hrd
  change u.siltSt k = _ at hst
  change u.outbox.length = _ at hout
  change Within _ s u at hin
  have hlen : again.length = (s.siltSt k).replay.length - i := List.length_drop
  obtain ⟨h3, h34⟩ := offSiltCnt_apart (k := k) (i := 3) (by decide)
  have hemit : offEmit (offSiltCnt k 3) ∧ offEmit (offSiltCnt k 3 + 4) ∧ sentKept k (offSiltReplay k) := by
    unfold sentKept offEmit offSiltCnt offSiltReplay offSiltEvt
    omega
  obtain ⟨he, he4, hreplay⟩ := hemit
  have hcntst : (u.siltCnt k 3 again.length).siltSt k = u.siltSt k :=
    State.siltSt_congr ((State.siltCnt_within _ _ _ _).same .silt (by decide)) k
  have hvrd : ∀ x, sentKept k x → x ≠ offSiltCnt k 3 → x ≠ offSiltCnt k 3 + 4 → v.rd x = s.rd x := fun x hx a b =>
    (State.rd_addCnt_ne u again.length 11 a b hx.2.2.2).trans (hrd x hx.1)
  have hvcnt : v.cnt (offSiltCnt k 3) = (s.cnt (offSiltCnt k 3) + ((s.siltSt k).replay.length - i)) % cntMod := by
    refine (State.cnt_addCnt u again.length 11 h3 h34).trans ?_
    rw [State.cnt_congr (hrd _ he) (hrd _ he4), hlen]
  have hvst : (v.siltSt k).replay = resent i (s.siltSt k).replay := by
    refine (congrArg SiltSt.replay (State.siltSt_siltMod (u.siltCnt k 3 again.length) k fun x =>
      { x with replay := x.replay.mapIdx fun j e => if i ≤ j then (e.1, e.2.1, e.2.2 + 1) else e })).trans ?_
    rw [hcntst, hst]
    rfl
  have hvout : v.outbox.length = s.outbox.length + ((s.siltSt k).replay.length - i) := by
    rw [← hlen, ← hout]
    exact congrArg List.length ((State.siltCnt_within _ _ _ _).same .outbox (by decide))
  have hvin : Within [.draws, .outbox, .timers, .evWait, .silt] s v :=
    (hin.trans (State.siltCnt_within _ _ _ _).mono).trans (State.siltMod_within _ _ _).mono
  have hw : (∀ x, w.rd x = v.rd x) ∧ w.siltSt k = v.siltSt k ∧ w.outbox = v.outbox ∧ Within [.timers] v w := by
    unfold w
    split
    · exact ⟨fun _ => rfl, rfl, rfl, Within.refl v⟩
    · exact ⟨fun _ => rfl, rfl, rfl, State.startTimer_within _ _ _⟩
  clear_value w v
  obtain ⟨hwrd, hwst, hwout, hwin⟩ := hw
  have h3' : sentKept k (offSiltReplay k) ∧ offSiltReplay k ≠ offSiltCnt k 3 ∧ offSiltReplay k ≠ offSiltCnt k 3 + 4 :=
    ⟨hreplay, by unfold offSiltReplay offSiltCnt; omega, by unfold offSiltReplay offSiltCnt; omega⟩
  have hmax : w.rdf (offSiltReplay k) 31 28 = s.rdf (offSiltReplay k) 31 28 :=
    congrArg (fld 31 28) ((hwrd _).trans (hvrd _ h3'.1 h3'.2.1 h3'.2.2))
  refine ⟨w, by rw [hmax], fun x hx a b => (hwrd x).trans (hvrd x hx a b), ?_, ?_, ?_, hvin.trans hwin.mono⟩
  · rw [State.cnt_congr (hwrd _) (hwrd _), hvcnt]
  · rw [hwst, hvst]
  · rw [hwout, hvout]

/-- None is resent too often. -/
theorem resent_few {l : List (Nat × SiltFlit × Nat)} {n : Nat} (i : Nat) (h : l.all (fun e => decide (e.2.2 + 1 < n)) = true) :
    (resent i l).any (fun e => decide (max 1 n ≤ e.2.2)) = false := by
  rw [List.any_eq_false]
  intro e he
  obtain ⟨j, hj, rfl⟩ := List.mem_mapIdx.1 he
  have hlt := of_decide_eq_true (List.all_eq_true.1 h l[j] (List.getElem_mem hj))
  simp only [decide_eq_true_eq]
  split
  · dsimp only
    omega
  · omega

/-- One has been resent too often. -/
theorem resent_many {l : List (Nat × SiltFlit × Nat)} {n : Nat} (h : l.any (fun e => decide (n ≤ e.2.2 + 1)) = true) :
    (resent 0 l).any (fun e => decide (max 1 n ≤ e.2.2)) = true := by
  obtain ⟨e, he, hn⟩ := List.any_eq_true.1 h
  obtain ⟨j, hj, rfl⟩ := List.mem_iff_getElem.1 he
  have hn := of_decide_eq_true hn
  refine List.any_eq_true.2 ⟨(l[j].1, l[j].2.1, l[j].2.2 + 1), List.mem_mapIdx.2 ⟨j, hj, if_pos (Nat.zero_le j)⟩, ?_⟩
  simp only [decide_eq_true_eq]
  omega

/-! ## Faults -/

theorem fld_and_keep (hi lo : Nat) (w m : Word) (hm : ∀ j < hi + 1 - lo, bit (lo + j) m = true) : fld hi lo (w &&& m) = fld hi lo w := by
  refine Nat.eq_of_testBit_eq fun j => ?_
  rw [fld_testBit, fld_testBit, bit_and]
  by_cases hj : j < hi + 1 - lo
  · rw [hm j hj, Bool.and_true]
  · simp [hj]

/-- The link goes to GAP for a reason, and its module's state stays. -/
theorem State.siltGap_spec (code : Nat) (hc : code < 16) : (s.siltGap k code).siltState k = 6 ∧
    (s.siltGap k code).rdf (offSiltStatus k) 27 24 = code ∧ (s.siltGap k code).modState k = s.modState k ∧
    ∀ x, x ≠ offSiltStatus k → x ≠ offSiltMap k → (s.siltGap k code).rd x = s.rd x := by
  have hne : offSiltStatus k ≠ offSiltMap k := by
    unfold offSiltStatus offSiltMap
    omega
  have hst : (s.siltGap k code).rd (offSiltStatus k) =
      setFld 27 24 code (setFld 31 28 6 (s.rd (offSiltStatus k))) &&& 0xFFE00000 := by
    refine (State.rd_wr_ne _ _ hne).trans ((State.rd_wr_same _ _ _).trans ?_)
    rw [State.siltGo, State.rd_wrf_same, State.rd_wrf_same]
  have hrest : ∀ x, x ≠ offSiltStatus k → x ≠ offSiltMap k → (s.siltGap k code).rd x = s.rd x := fun x h g =>
    ((State.rd_wr_ne _ _ g).trans (State.rd_wr_ne _ _ h)).trans ((State.rd_wrf_ne _ _ _ _ h).trans (State.rd_wrf_ne _ _ _ _ h))
  refine ⟨?_, ?_, ?_, hrest⟩
  · rewrite [State.siltState, State.rdf, hst, fld_and_keep _ _ _ _ (by decide), fld_setFld_ne _ _ _ _ _ _ (by decide) (by decide) (by decide),
      fld_setFld _ _ _ _ (by decide) (by decide)]
    rfl
  · rw [State.rdf, hst, fld_and_keep _ _ _ _ (by decide), fld_setFld _ _ _ _ (by decide) (by decide)]
    exact Nat.mod_eq_of_lt hc
  · rw [State.modState, State.rdf, hst, fld_and_keep _ _ _ _ (by decide),
      fld_setFld_ne _ _ _ _ _ _ (by decide) (by decide) (by decide),
      fld_setFld_ne _ _ _ _ _ _ (by decide) (by decide) (by decide)]
    rfl

theorem freedKept_silt (k : Fin 8) : freedKept (offSiltStatus k) ∧ freedKept (offSiltCnt k 5) ∧ freedKept (offSiltCnt k 5 + 4) := by
  have := k.isLt
  simp only [freedKept, lowKept, offSiltStatus, offSiltCnt]
  omega

/-- A link that ends says so, and the module that it had is LOST. -/
theorem State.siltEnd_spec (code : Nat) (had : Bool) (hc : code < 16) : (s.siltEnd k code had).siltState k = 6 ∧
    (s.siltEnd k code had).rdf (offSiltStatus k) 27 24 = code ∧ (s.siltEnd k code had).rdb (offSiltEvt k) 1 = true ∧
    (if had then (s.siltEnd k code had).modState k = 4 ∧ (s.siltEnd k code had).rdb (offSiltEvt k) 4 = true
      else (s.siltEnd k code had).modState k = s.modState k) ∧
    (∀ x, x ≠ offSiltStatus k → x ≠ offSiltMap k → x ≠ offSiltEvt k → (s.siltEnd k code had).rd x = s.rd x) := by
  obtain ⟨hstate, hcode, hmod, hrd⟩ := s.siltGap_spec k code hc
  unfold State.siltEnd
  extract_lets t
  have hne : offSiltStatus k ≠ offSiltEvt k := by
    unfold offSiltStatus offSiltEvt
    omega
  have ht : t.rd (offSiltStatus k) = (s.siltGap k code).rd (offSiltStatus k) := State.rd_raiseEvt_ne _ _ hne
  have ht1 : t.rdb (offSiltEvt k) 1 = true := State.rdb_raiseEvt _ _ _ (by decide)
  have htrd : ∀ x, x ≠ offSiltEvt k → t.rd x = (s.siltGap k code).rd x := fun x hx => State.rd_raiseEvt_ne _ _ hx
  clear_value t
  rw [State.siltState, State.rdf, ← ht] at hstate
  rw [State.rdf, ← ht] at hcode
  rw [State.modState, State.rdf, ← ht] at hmod
  cases had with
  | false =>
    rw [if_neg (by simp), if_neg (by simp)]
    exact ⟨hstate, hcode, ht1, hmod, fun x a b c => (htrd x c).trans (hrd x a b)⟩
  | true =>
    rw [if_pos rfl, if_pos rfl]
    have hu : ((t.wrf (offSiltStatus k) 23 21 4).siltEvent k 4).rd (offSiltStatus k) = setFld 23 21 4 (t.rd (offSiltStatus k)) :=
      (State.rd_raiseEvt_ne _ _ hne).trans (State.rd_wrf_same _ _ _ _ _)
    refine ⟨?_, ?_, ?_, ⟨?_, State.rdb_raiseEvt _ _ _ (by decide)⟩, fun x a b c => ?_⟩
    · rw [State.siltState, State.rdf, hu, fld_setFld_ne _ _ _ _ _ _ (by decide) (by decide) (by decide), hstate]
    · rw [State.rdf, hu, fld_setFld_ne _ _ _ _ _ _ (by decide) (by decide) (by decide), hcode]
    · refine State.rdb_raiseEvt_keeps _ _ _ _ (by decide) ?_
      exact (congrArg (bit 1) (State.rd_wrf_ne _ _ _ _ hne.symm)).trans ht1
    · rewrite [State.modState, State.rdf, hu, fld_setFld _ _ _ _ (by decide) (by decide)]
      rfl
    · exact ((State.rd_raiseEvt_ne _ _ c).trans (State.rd_wrf_ne _ _ _ _ a)).trans ((htrd x c).trans (hrd x a b))

/-- What a link carried is void: of its own state RETRIES is left. -/
theorem State.siltVoid_st : (s.siltVoid k).siltSt k = { retries := (s.siltSt k).retries } := by
  have hunlink : (s.siltUnlink k).siltSt k = { retries := (s.siltSt k).retries } := by
    refine (State.siltSt_siltMod (s.capLeave k) k fun x => { retries := x.retries }).trans ?_
    rw [State.siltSt_congr ((s.capLeave_within k).same .silt (by decide))]
  unfold State.siltVoid
  extract_lets t src u lost partly v w
  have hin : Within [.timers, .evWait, .frames, .copies, .adm, .sched, .tel, .fates] t w := by
    refine Within.foldl (Within.ite ?_ ?_) fun x f => x.moduleLoss_within f
    · exact (Within.adm _ _).mono
    · exact (Within.adm _ _).mono.trans (State.raiseEvt_within _ _ _).mono
  have hmoved : Within [.timers, .evWait, .frames, .copies, .adm, .sched, .tel, .fates] w
      ((w.framesWhere fun x => x.moving == some (8 + k) ).foldl (fun s f => s.moveBack k f) w) :=
    Within.foldl (Within.refl w) fun x f => x.moveBack_within k f
  exact (State.siltSt_congr ((hin.trans hmoved).same .silt (by decide)) k).trans hunlink

/-- A fault of an ACTIVE link. -/
theorem State.siltFault_spec (k : Fin 8) (code : Nat) (hc : code < 16) (ha : s.siltActive k = true) :
    (s.siltFault k code).siltState k = 6 ∧ (s.siltFault k code).rdf (offSiltStatus k) 27 24 = code ∧
    (s.siltFault k code).rdb (offSiltEvt k) 1 = true ∧ (s.siltFault k code).siltSt k = { retries := (s.siltSt k).retries } ∧
    (if s.modState k = 1 ∨ s.modState k = 2 then (s.siltFault k code).modState k = 4 ∧ (s.siltFault k code).rdb (offSiltEvt k) 4 = true
      else (s.siltFault k code).modState k = s.modState k) ∧
    (s.siltFault k code).cnt (offSiltCnt k 5) = s.cnt (offSiltCnt k 5) := by
  obtain ⟨kst, kcnt, kcnt4⟩ := freedKept_silt k
  have hvoid := s.siltVoid_freed k
  have hx : s.siltFault k code = (s.siltVoid k).siltEnd k code (decide (s.modState k = 1) || decide (s.modState k = 2)) := by
    rw [State.siltFault, ha]
    rfl
  have hvst := s.siltVoid_st k
  generalize s.siltVoid k = t at hvoid hx hvst
  obtain ⟨hstate, hcode, hevt, hmod, hrd⟩ := t.siltEnd_spec k code (decide (s.modState k = 1) || decide (s.modState k = 2)) hc
  have hend := t.siltEnd_within k code (decide (s.modState k = 1) || decide (s.modState k = 2))
  have hkept : t.modState k = s.modState k := congrArg (fld 23 21) (hvoid _ kst)
  rw [hx]
  refine ⟨hstate, hcode, hevt, (State.siltSt_congr (hend.same .silt (by decide)) k).trans hvst, ?_, ?_⟩
  · rw [hkept] at hmod
    refine Eq.mp (ite_congr (propext ?_) (fun _ => rfl) fun _ => rfl) hmod
    rw [Bool.or_eq_true, decide_eq_true_eq, decide_eq_true_eq]
  · rw [State.cnt_congr (hrd _ ?_ ?_ ?_) (hrd _ ?_ ?_ ?_), State.cnt_congr (hvoid _ kcnt) (hvoid _ kcnt4)]
    all_goals
      simp only [offSiltCnt, offSiltStatus, offSiltMap, offSiltEvt]
      omega

end Sys2Proof.Machine
end

section
/-! SUPPORT. Flits that a silt link holds, discards, resends or faults on, command by command (R394, R397, R399, R400, R409, R410). -/

set_option Elab.async false

namespace Sys2Proof.Machine

variable (s : State) (k : Fin 8)

/-- Registers of a link that sending and counting leave. -/
theorem sentKept_silt (k : Fin 8) : sentKept k (offSiltStatus k) ∧ sentKept k (offSiltMap k) ∧
    ∀ j, 1 ≤ j → j < 8 → sentKept k (offSiltCnt k j) ∧ sentKept k (offSiltCnt k j + 4) := by
  have := k.isLt
  refine ⟨?_, ?_, fun j h1 h8 => ?_⟩
  all_goals
    simp only [sentKept, offEmit, offSiltStatus, offSiltMap, offSiltCnt, offSiltEvt]
    omega

theorem offSiltStatus_cnt (k j : Nat) : offSiltStatus k ≠ offSiltCnt k j ∧ offSiltStatus k ≠ offSiltCnt k j + 4 := by
  simp only [offSiltStatus, offSiltCnt]
  omega

theorem State.siltState_congr {s t : State} (h : t.rd (offSiltStatus k) = s.rd (offSiltStatus k)) : t.siltState k = s.siltState k :=
  congrArg (fld 31 28) h

theorem State.siltActive_congr {s t : State} (hp : t.pwr = s.pwr) (h : t.rd (offSiltStatus k) = s.rd (offSiltStatus k)) :
    t.siltActive k = s.siltActive k := by
  rw [State.siltActive, State.siltActive, State.siltOn, State.siltOn, State.islAt, State.islAt, hp, State.siltState_congr k h]

theorem State.siltState_active (ha : s.siltActive k = true) : s.siltState k = 5 := by
  rw [State.siltActive, Bool.and_eq_true] at ha
  exact eq_of_beq ha.2

/-! ## Out of order -/

theorem silt_early (ha : s.siltActive k = true) (seq ack : BitVec 12) (a : BitVec 30) (w : BitVec 5) (err bad : Bool)
    (hne : seq.toNat ≠ (s.siltSt k).expect) (hd : (seq.toNat + 4096 - (s.siltSt k).expect) % 4096 < 512)
    (he : (s.siltSt k).expect < 4096) (hn : (s.siltSt k).naked = false) :
    s.completes (.readDataReceive k seq ack a w err bad) fun t => t.outbox = s.outbox ∧
      t.siltSt k = { s.siltSt k with early := ((s.siltSt k).early.filter fun e => e.1 != seq.toNat) ++
        [(seq.toNat, ack.toNat, .readData a.toNat w.toNat err bad)] } := by
  have hseq := seq.isLt
  have hx : exec (.readDataReceive k seq ack a w err bad) s = .next (s.siltMod k fun x => { x with
      early := (x.early.filter fun e => e.1 != seq.toNat) ++ [(seq.toNat, ack.toNat, .readData a.toNat w.toNat err bad)] }) := by
    rw [exec_readDataReceive, execReadDataReceive, State.siltTake, ha, if_neg (by simp), if_neg (by omega), hn,
      if_pos (by simpa using hd)]
  exact State.completes_of hx ⟨rfl, s.siltSt_siltMod k fun x => { x with
    early := (x.early.filter fun e => e.1 != seq.toNat) ++ [(seq.toNat, ack.toNat, .readData a.toNat w.toNat err bad)] }⟩

theorem silt_late (ha : s.siltActive k = true) (seq ack : BitVec 12) (a : BitVec 30) (w : BitVec 5) (err bad : Bool)
    (hne : seq.toNat ≠ (s.siltSt k).expect) (he : (s.siltSt k).expect < 4096)
    (hd : 512 ≤ (seq.toNat + 4096 - (s.siltSt k).expect) % 4096 ∨ (s.siltSt k).naked = true) :
    s.completes (.readDataReceive k seq ack a w err bad) fun t => (t.siltSt k).expect = (s.siltSt k).expect ∧
      (t.siltSt k).reads = (s.siltSt k).reads ∧ (t.siltSt k).naked = true ∧ (t.siltSt k).early = [] ∧
      t.cnt (offSiltCnt k 2) = (s.cnt (offSiltCnt k 2) + 1) % cntMod ∧
      t.outbox.length = s.outbox.length + (if (s.siltSt k).naked then 0 else 1) := by
  have hseq := seq.isLt
  have hx : exec (.readDataReceive k seq ack a w err bad) s = .next (s.siltDiscard k) := by
    rw [exec_readDataReceive, execReadDataReceive, State.siltTake, ha, if_neg (by simp), if_neg (by omega), if_neg]
    obtain hd | hd := hd
    · simp [Nat.not_lt.2 hd]
    · simp [hd]
  obtain ⟨-, hcnt, ⟨n, hst⟩, hout⟩ := s.siltDiscard_spec k
  refine State.completes_of hx ⟨?_, ?_, ?_, ?_, hcnt, hout⟩ <;> rw [hst]

theorem silt_errored (ha : s.siltActive k = true) (lane : Fin 8) (bytes : List Byte) :
    s.completes (.flitDiscard k lane true bytes) fun t => (t.siltSt k).naked = true ∧
      (t.siltSt k).expect = (s.siltSt k).expect ∧ t.cnt (offSiltCnt k 2) = (s.cnt (offSiltCnt k 2) + 1) % cntMod := by
  have hx : exec (.flitDiscard k lane true bytes) s = .next (s.siltDiscard k) := by
    rw [exec_flitDiscard, execFlitDiscard, ha]
    rfl
  obtain ⟨-, hcnt, ⟨n, hst⟩, -⟩ := s.siltDiscard_spec k
  refine State.completes_of hx ⟨?_, ?_, hcnt⟩ <;> rw [hst]

theorem silt_badCrc (ha : s.siltActive k = true) (lane : Fin 8) (bytes : List Byte)
    (hbad : ethFcs (bytesAt bytes 0 264) ≠ bytesAt bytes 264 4) (hout : (s.siltInUse k).contains lane.val = false) :
    s.completes (.flitDiscard k lane false bytes) fun t => (t.siltSt k).naked = true ∧
      t.cnt (siltLane k lane + 0xF0) = (s.cnt (siltLane k lane + 0xF0) + 1) % cntMod := by
  obtain ⟨hrd, -, ⟨n, hst⟩, -⟩ := s.siltDiscard_spec k
  have hx : exec (.flitDiscard k lane false bytes) s = .next ((s.siltDiscard k).siltCrcError k lane) := by
    rw [exec_flitDiscard, execFlitDiscard, ha]
    rw [if_neg (by simp), if_neg (by simp), if_pos (by simpa using hbad)]
  obtain ⟨-, kmap, -⟩ := sentKept_silt k
  have hlane := lane.isLt
  have hk := k.isLt
  generalize s.siltDiscard k = t at hrd hst hx
  have hF0 : ∀ x, x = siltLane k lane + 0xF0 ∨ x = siltLane k lane + 0xF0 + 4 → t.rd x = s.rd x := fun x hx => hrd x
    (by
      simp only [sentKept, offEmit, offSiltCnt, offSiltEvt, siltLane] at hx ⊢
      omega)
    (by
      simp only [offSiltCnt, siltLane] at hx ⊢
      omega)
    (by
      simp only [offSiltCnt, siltLane] at hx ⊢
      omega)
  have hmap : t.rd (offSiltMap k) = s.rd (offSiltMap k) := hrd _ kmap
    (by simp only [offSiltMap, offSiltCnt]; omega) (by simp only [offSiltMap, offSiltCnt]; omega)
  let u := t.inc (siltLane k lane + 0xF0) (lnEvt (siltLane k lane)) 6
  have hu : u = t.inc (siltLane k lane + 0xF0) (lnEvt (siltLane k lane)) 6 := rfl
  have hcnt : u.cnt (siltLane k lane + 0xF0) = (s.cnt (siltLane k lane + 0xF0) + 1) % cntMod := by
    rw [hu, State.cnt_inc _ _ (by unfold lnEvt; omega) (by unfold lnEvt; omega), State.cnt_congr (hF0 _ (.inl rfl)) (hF0 _ (.inr rfl))]
  have huse : (u.siltInUse k).contains lane.val = false := by
    have : u.rd (offSiltMap k) = s.rd (offSiltMap k) := (State.rd_inc_ne _ _
      (by simp only [offSiltMap, siltLane]; omega) (by simp only [offSiltMap, siltLane]; omega)
      (by simp only [offSiltMap, siltLane, lnEvt]; omega)).trans hmap
    rw [← hout]
    simp only [State.siltInUse, State.siltN, State.siltPhys, State.rdf, this]
  have hust : (u.siltSt k).naked = true := by
    rw [State.siltSt_congr ((State.inc_within _ _ _ _).same .silt (by decide)), hst]
  obtain ⟨ts, hcrc⟩ : ∃ ts, t.siltCrcError k lane = u.siltMod k fun x => { x with crcErr := sset (fun _ => []) x.crcErr lane ts } := by
    unfold State.siltCrcError
    extract_lets w ts
    refine ⟨ts, ?_⟩
    rw [huse, Bool.and_false, if_neg (by simp)]
  refine State.completes_of (hx.trans (by rw [hcrc])) ?_
  rw [State.siltSt_siltMod]
  exact ⟨hust, hcnt⟩

/-! ## Faults -/

theorem silt_protocol (ha : s.siltActive k = true) (lane : Fin 8) (bytes : List Byte)
    (hfcs : ethFcs (bytesAt bytes 0 264) = bytesAt bytes 264 4) (hp : flitProto bytes = true) :
    s.completes (.flitDiscard k lane false bytes) fun t => t.siltState k = 6 ∧
      t.rdf (offSiltStatus k) 27 24 = 9 ∧ t.cnt (offSiltCnt k 5) = (s.cnt (offSiltCnt k 5) + 1) % cntMod := by
  have hx : exec (.flitDiscard k lane false bytes) s = .next ((s.siltCnt k 5 1).siltFault k 9) := by
    rw [exec_flitDiscard, execFlitDiscard, ha]
    rw [if_neg (by simp), if_neg (by simp), if_neg (by simp [hfcs]), if_pos hp]
  obtain ⟨h5, h54⟩ := offSiltCnt_apart (k := k) (i := 5) (by decide)
  obtain ⟨hst, hst4⟩ := offSiltStatus_cnt k 5
  have hact : (s.siltCnt k 5 1).siltActive k = true := by
    rw [State.siltActive_congr k ((State.siltCnt_within _ _ _ _).same .pwr (by decide))
      (State.rd_addCnt_ne _ _ _ hst hst4 (by simp only [offSiltStatus, offSiltEvt]; omega)), ha]
  obtain ⟨hstate, hcode, -, -, -, hcnt⟩ := State.siltFault_spec _ k 9 (by decide) hact
  refine State.completes_of hx ⟨hstate, hcode, hcnt.trans ?_⟩
  exact State.cnt_addCnt _ _ _ h5 h54

theorem silt_loss (ha : s.siltActive k = true) (ht : s.timerOn (.siltLoss k) = true) :
    s.completes (.siltLossTimeout k) fun t => t.siltState k = 6 ∧ t.rdf (offSiltStatus k) 27 24 = 8 ∧
      t.rdb (offSiltEvt k) 1 = true ∧ (t.siltSt k) = { retries := (s.siltSt k).retries } := by
  obtain ⟨hstate, hcode, hevt, hst, -⟩ := s.siltFault_spec k 8 (by decide) ha
  refine State.completes_of ?_ ⟨hstate, hcode, hevt, hst⟩
  rw [exec_siltLossTimeout, execSiltLossTimeout, ha, ht]
  rfl

/-! ## Resent flits -/

theorem silt_nak (ha : s.siltActive k = true) (ack expected : BitVec 12) (i : Nat)
    (hack : ((s.siltSt k).replay.findIdx? fun e => e.1 == ack.toNat) = none)
    (hi : ((s.siltSt k).replay.findIdx? fun e => e.1 == expected.toNat) = some i)
    (hfew : (s.siltSt k).replay.all (fun e => decide (e.2.2 + 1 < s.rdf (offSiltReplay k) 31 28)) = true) :
    s.completes (.nakReceive k ack expected) fun t => t.siltState k = 5 ∧
      t.outbox.length = s.outbox.length + ((s.siltSt k).replay.length - i) ∧
      t.cnt (offSiltCnt k 3) = (s.cnt (offSiltCnt k 3) + ((s.siltSt k).replay.length - i)) % cntMod ∧
      (t.siltSt k).replay.map (·.1) = (s.siltSt k).replay.map (·.1) := by
  obtain ⟨t, hx, hrd, hcnt, hst, hout, -⟩ := s.siltResend_spec k i
  obtain ⟨kst, -, -⟩ := sentKept_silt k
  obtain ⟨h3, h34⟩ := offSiltStatus_cnt k 3
  rw [hst, resent_few i hfew, if_neg (by simp)] at hx
  refine State.completes_of (u := t) ?_ ⟨?_, hout, hcnt, by rw [hst, resent_map_fst]⟩
  · rw [exec_nakReceive, execNakReceive, s.siltHear_active k ha, s.siltAck_none k hack]
    rw [hi, ← hx]
  · rw [State.siltState_congr k (hrd _ kst h3 h34), s.siltState_active k ha]

theorem silt_replay (ha : s.siltActive k = true) (ht : s.timerOn (.siltReplay k) = true)
    (hfew : (s.siltSt k).replay.all (fun e => decide (e.2.2 + 1 < s.rdf (offSiltReplay k) 31 28)) = true) :
    s.completes (.replayTimeout k) fun t => t.siltState k = 5 ∧
      t.outbox.length = s.outbox.length + (s.siltSt k).replay.length ∧
      t.cnt (offSiltCnt k 3) = (s.cnt (offSiltCnt k 3) + (s.siltSt k).replay.length) % cntMod := by
  obtain ⟨t, hx, hrd, hcnt, hst, hout, -⟩ := s.siltResend_spec k 0
  obtain ⟨kst, -, -⟩ := sentKept_silt k
  obtain ⟨h3, h34⟩ := offSiltStatus_cnt k 3
  rw [hst, resent_few 0 hfew, if_neg (by simp)] at hx
  refine State.completes_of (u := t) ?_ ⟨?_, hout, hcnt⟩
  · rw [exec_replayTimeout, execReplayTimeout, ha, ht, ← hx]
    rfl
  · rw [State.siltState_congr k (hrd _ kst h3 h34), s.siltState_active k ha]

theorem silt_replayMax (ha : s.siltActive k = true) (ht : s.timerOn (.siltReplay k) = true)
    (hmany : (s.siltSt k).replay.any (fun e => decide (s.rdf (offSiltReplay k) 31 28 ≤ e.2.2 + 1)) = true) :
    s.completes (.replayTimeout k) fun t => t.siltState k = 6 ∧ t.rdf (offSiltStatus k) 27 24 = 7 ∧
      t.rdb (offSiltEvt k) 1 = true := by
  obtain ⟨t, hx, hrd, -, hst, -, hin⟩ := s.siltResend_spec k 0
  obtain ⟨kst, -, -⟩ := sentKept_silt k
  obtain ⟨h3, h34⟩ := offSiltStatus_cnt k 3
  rw [hst, resent_many hmany, if_pos rfl] at hx
  have hact : t.siltActive k = true := (State.siltActive_congr k (hin.same .pwr (by decide)) (hrd _ kst h3 h34)).trans ha
  obtain ⟨hstate, hcode, hevt, -⟩ := t.siltFault_spec k 7 (by decide) hact
  refine State.completes_of (u := t.siltFault k 7) ?_ ⟨hstate, hcode, hevt⟩
  rw [exec_replayTimeout, execReplayTimeout, ha, ht, ← hx]
  rfl

/-! ## The module's status -/

/-- The module's words, as a status flit gives them. -/
def State.siltModWords (s : State) (k : Nat) (words : List Word) : State :=
  s.wrs (offSiltModStatus k 0) ((List.range 3).map fun i => words.getD i 0)

theorem State.siltModWords_spec (words : List Word) :
    (∀ x, x < offSiltModStatus k 0 ∨ offSiltModStatus k 0 + 12 ≤ x → (s.siltModWords k words).rd x = s.rd x) ∧
    ∀ i < 3, (s.siltModWords k words).rd (offSiltModStatus k i) = words.getD i 0 := by
  refine ⟨fun x hx => State.rd_wrs_ne _ _ _ (by simpa using hx), fun i hi => ?_⟩
  have h := s.rd_wrs (offSiltModStatus k 0) ((List.range 3).map fun i => words.getD i 0) (i := i) (by simpa using hi)
  rw [List.getElem_map, List.getElem_range] at h
  rw [← h, show offSiltModStatus k i = offSiltModStatus k 0 + 4 * i by simp only [offSiltModStatus]; omega]
  rfl

theorem offSiltStatus_modStatus (k : Nat) : offSiltStatus k < offSiltModStatus k 0 := by
  simp only [offSiltStatus, offSiltModStatus]
  omega

theorem silt_statusEvent (ha : s.siltActive k = true) (seq ack : BitVec 12) (words : List Word) (hs : seq.toNat = (s.siltSt k).expect)
    (hw : fld 31 30 (words.getD 0 0) = 1) (he : (s.siltSt k).early = []) :
    s.completes (.moduleStatusReceive k seq ack words) fun t => t.rdb (offSiltEvt k) 8 = true ∧ t.siltState k = 5 ∧
      t.rd (offSiltModStatus k 0) = words.getD 0 0 ∧ t.rd (offSiltModStatus k 1) = words.getD 1 0 ∧
      t.rd (offSiltModStatus k 2) = words.getD 2 0 := by
  obtain ⟨hrd, -, -⟩ := s.siltTaken_sent k seq.toNat ack.toNat
  obtain ⟨kst, -, -⟩ := sentKept_silt k
  obtain ⟨h1, h14⟩ := offSiltStatus_cnt k 1
  have hst := hrd _ kst h1 h14
  have hx : exec (.moduleStatusReceive k seq ack words) s =
      .next ((((s.siltTaken k seq.toNat ack.toNat).siltModWords k words).siltEvent k 8).siltArmed k) := by
    rw [exec_moduleStatusReceive, execModuleStatusReceive, s.siltTake_last k ha hs he, State.siltAccept_eq, State.siltAct, hw]
    rfl
  generalize s.siltTaken k seq.toNat ack.toNat = t at hst hx
  obtain ⟨wrest, wwords⟩ := t.siltModWords_spec k words
  obtain ⟨hrd, -, -⟩ := ((t.siltModWords k words).siltEvent k 8).siltArmed_spec k
  have hevt : ∀ x, x ≠ offSiltEvt k → (((t.siltModWords k words).siltEvent k 8).siltArmed k).rd x = (t.siltModWords k words).rd x :=
    fun x h => (hrd x).trans (State.rd_raiseEvt_ne _ _ h)
  have hword : ∀ i < 3, (((t.siltModWords k words).siltEvent k 8).siltArmed k).rd (offSiltModStatus k i) = words.getD i 0 := fun i hi =>
    (hevt _ (by simp only [offSiltModStatus, offSiltEvt]; omega)).trans (wwords i hi)
  refine State.completes_of hx ⟨?_, ?_, hword 0 (by decide), hword 1 (by decide), hword 2 (by decide)⟩
  · exact (congrArg (bit 8) (hrd _)).trans (State.rdb_raiseEvt _ _ _ (by decide))
  · refine (State.siltState_congr k ?_).trans (s.siltState_active k ha)
    exact ((hevt _ (by simp only [offSiltStatus, offSiltEvt]; omega)).trans (wrest _ (.inl (offSiltStatus_modStatus k)))).trans hst

/-- A link with nothing held accepts nothing more. -/
theorem State.siltRelease_none (n : Nat) (h : (s.siltSt k).early = []) : s.siltRelease k n = s := by
  cases n with
  | zero => rfl
  | succ n => rw [State.siltRelease, h, List.find?_nil]

theorem silt_statusFault (ha : s.siltActive k = true) (seq ack : BitVec 12) (words : List Word) (hs : seq.toNat = (s.siltSt k).expect)
    (hw : 2 ≤ fld 31 30 (words.getD 0 0)) :
    s.completes (.moduleStatusReceive k seq ack words) fun t => t.siltState k = 6 ∧
      t.rdf (offSiltStatus k) 27 24 = 10 ∧ t.rdb (offSiltEvt k) 1 = true ∧
      (if s.modState k = 1 ∨ s.modState k = 2 then t.modState k = 4 ∧ t.rdb (offSiltEvt k) 4 = true
        else t.modState k = s.modState k) := by
  obtain ⟨hrd, -, hin⟩ := s.siltTaken_sent k seq.toNat ack.toNat
  obtain ⟨kst, -, -⟩ := sentKept_silt k
  obtain ⟨h1, h14⟩ := offSiltStatus_cnt k 1
  let t := (s.siltTaken k seq.toNat ack.toNat).siltModWords k words
  have ht : t = (s.siltTaken k seq.toNat ack.toNat).siltModWords k words := rfl
  have hst : t.rd (offSiltStatus k) = s.rd (offSiltStatus k) :=
    ((State.siltModWords_spec _ k words).1 _ (.inl (offSiltStatus_modStatus k))).trans (hrd _ kst h1 h14)
  have hpwr : t.pwr = s.pwr := ((State.wrs_within _ _ _).same .pwr (by decide)).trans (hin.same .pwr (by decide))
  have hact : t.siltActive k = true := (State.siltActive_congr k hpwr hst).trans ha
  have hmod : t.modState k = s.modState k := congrArg (fld 23 21) hst
  have hx : exec (.moduleStatusReceive k seq ack words) s =
      .next (((t.siltFault k 10).siltArmed k).siltRelease k (s.siltSt k).early.length) := by
    rw [exec_moduleStatusReceive, execModuleStatusReceive, s.siltTake_next k ha hs, State.siltAccept_eq, State.siltAct]
    split
    · omega
    · omega
    · rfl
  clear_value t
  obtain ⟨hstate, hcode, hevt, hlink, hlost, -⟩ := t.siltFault_spec k 10 (by decide) hact
  generalize t.siltFault k 10 = u at hstate hcode hevt hlink hlost hx
  obtain ⟨ard, ast, -⟩ := u.siltArmed_spec k
  have hnone : ((u.siltArmed k).siltSt k).early = [] := by rw [ast, hlink]
  rw [State.siltRelease_none _ _ _ hnone] at hx
  rw [hmod] at hlost
  have hmodstate : (u.siltArmed k).modState k = u.modState k := congrArg (fld 23 21) (ard _)
  have hevt4 : (u.siltArmed k).rdb (offSiltEvt k) 4 = u.rdb (offSiltEvt k) 4 := congrArg (bit 4) (ard _)
  refine State.completes_of hx ⟨(State.siltState_congr k (ard _)).trans hstate, (congrArg (fld 27 24) (ard _)).trans hcode,
    (congrArg (bit 1) (ard _)).trans hevt, ?_⟩
  rw [hmodstate, hevt4]
  exact hlost

/-! ## A lane lost at the module -/

/-- A list of lanes as MAP holds it: three bits each, the first the lowest. -/
def mapDigits (l : List Nat) : Nat := (l.mapIdx fun j i => i * 8 ^ j).sum

theorem sum_map_mul (c : Nat) (l : List Nat) : (l.map (c * ·)).sum = c * l.sum := by
  induction l with
  | nil => rfl
  | cons d l ih => rw [List.map_cons, List.sum_cons, List.sum_cons, ih, Nat.mul_add]

theorem mapDigits_cons (d : Nat) (l : List Nat) : mapDigits (d :: l) = d + 8 * mapDigits l := by
  have hshift : (fun j i : Nat => i * 8 ^ (j + 1)) = fun j i => 8 * (i * 8 ^ j) := by
    funext j i
    rw [Nat.pow_succ', Nat.mul_left_comm]
  have hmap : l.mapIdx (fun j i => 8 * (i * 8 ^ j)) = (l.mapIdx fun j i => i * 8 ^ j).map (8 * ·) :=
    List.ext_getElem (by simp) fun j h1 h2 => by simp
  rw [mapDigits, List.mapIdx_cons, List.sum_cons, Nat.pow_zero, Nat.mul_one, mapDigits, ← sum_map_mul, hshift, hmap]

theorem mapDigits_lt {l : List Nat} (h : ∀ i ∈ l, i < 8) : mapDigits l < 8 ^ l.length := by
  induction l with
  | nil => decide
  | cons d l ih =>
    have hd := h d (.head _)
    have hl := ih fun i hi => h i (.tail _ hi)
    rw [mapDigits_cons, List.length_cons, Nat.pow_succ]
    omega

theorem mapDigits_div_mod {l : List Nat} (h : ∀ i ∈ l, i < 8) {j : Nat} (hj : j < l.length) : mapDigits l / 8 ^ j % 8 = l[j] := by
  induction l generalizing j with
  | nil => exact absurd hj (by simp)
  | cons d l ih =>
    have hd := h d (.head _)
    rw [mapDigits_cons]
    cases j with
    | zero =>
      rw [Nat.pow_zero, Nat.div_one, List.getElem_cons_zero]
      omega
    | succ j =>
      have hj : j < l.length := by simpa using hj
      rw [Nat.pow_succ', ← Nat.div_div_eq_div_mul, show (d + 8 * mapDigits l) / 8 = mapDigits l by omega]
      exact ih (fun i hi => h i (.tail _ hi)) hj

theorem State.siltInUse_congr {s t : State} {k : Nat} (h : t.rd (offSiltMap k) = s.rd (offSiltMap k)) : t.siltInUse k = s.siltInUse k := by
  simp only [State.siltInUse, State.siltN, State.siltPhys, State.rdf, h]

/-- MAP shows the lanes that it was set to. -/
theorem State.siltInUse_of_map {ls : List Nat} (hlen : ls.length < 8) (hlt : ∀ i ∈ ls, i < 8)
    (h : s.rd (offSiltMap k) = w32 (ls.length * 2 ^ 24 + mapDigits ls)) : s.siltInUse k = ls := by
  have hmap : mapDigits ls < 2 ^ 24 := by
    have hpow : 8 ^ ls.length ≤ 8 ^ 7 := Nat.pow_le_pow_right (by decide) (by omega)
    have := mapDigits_lt hlt
    omega
  have hN : s.siltN k = ls.length := by
    rw [State.siltN, State.rdf, h, fld_w32 _ _ _ (by decide)]
    omega
  have hphys : ∀ j (hj : j < ls.length), s.siltPhys k j = ls[j] := fun j hj => by
    rw [State.siltPhys, State.rdf, h, fld_w32 _ _ _ (by omega), ← mapDigits_div_mod hlt hj,
      show 3 * j + 2 + 1 - 3 * j = 3 by omega, Nat.pow_mul]
    generalize mapDigits ls = m at hmap
    have hj7 : j < 7 := by omega
    obtain rfl | rfl | rfl | rfl | rfl | rfl | rfl : j = 0 ∨ j = 1 ∨ j = 2 ∨ j = 3 ∨ j = 4 ∨ j = 5 ∨ j = 6 := by omega
    all_goals omega
  rw [State.siltInUse, hN]
  refine List.ext_getElem (by simp) fun j h1 h2 => ?_
  rw [List.getElem_map, List.getElem_range]
  exact hphys j h2

theorem State.siltInUse_bounds : (s.siltInUse k).length < 8 ∧ ∀ i ∈ s.siltInUse k, i < 8 := by
  have hN : s.siltN k < 8 := fld_lt 26 24 _
  refine ⟨by simpa [State.siltInUse] using hN, fun i hi => ?_⟩
  obtain ⟨j, -, rfl⟩ := List.mem_map.1 hi
  have hlt := fld_lt (3 * j + 2) (3 * j) (s.rd (offSiltMap k))
  rw [show 3 * j + 2 + 1 - 3 * j = 3 by omega] at hlt
  exact hlt

/-- A new lane map takes the place of the old, and the module is told. -/
theorem State.siltRemap_inUse {ls : List Nat} (spare : List Nat) (hlen : ls.length < 8) (hlt : ∀ i ∈ ls, i < 8) :
    (s.siltRemap k ls spare).siltInUse k = ls := by
  have huse : (s.siltUse k ls spare).rd (offSiltMap k) = w32 (ls.length * 2 ^ 24 + mapDigits ls) := by
    have hne : offSiltMap k ≠ offSiltStatus k := by
      unfold offSiltMap offSiltStatus
      omega
    unfold State.siltUse
    extract_lets mask map t
    have ht : t.rd (offSiltMap k) = w32 (ls.length * 2 ^ 24 + map) := State.rd_wr_same _ _ _
    have hm : map = mapDigits ls := rfl
    clear_value t map mask
    rw [State.rd_wrb_ne _ _ _ hne, State.rd_wrf_ne _ _ _ _ hne, State.rd_wrf_ne _ _ _ _ hne, ht, hm]
  refine State.siltInUse_of_map _ k hlen hlt (Eq.trans ?_ huse)
  unfold State.siltRemap
  extract_lets t m
  change _ = t.rd (offSiltMap k)
  clear_value t m
  have hpend : ((t.siltMod k fun x => { x with mapPending := some m }).siltSt k).mapPending = some m := by
    rw [State.siltSt_siltMod]
  have hrd0 : (t.siltMod k fun x => { x with mapPending := some m }).rd (offSiltMap k) = t.rd (offSiltMap k) := State.siltMod_rd ..
  generalize (t.siltMod k fun x => { x with mapPending := some m }) = u at hpend hrd0
  rw [State.siltSendMap, hpend]
  dsimp only
  obtain ⟨hrd, -⟩ := u.siltMgmt_spec k 3 m []
  rw [State.startTimer_rd]
  exact (hrd _ (by unfold offEmit offSiltMap; omega)).trans hrd0

theorem silt_laneFail (ha : s.siltActive k = true) (ack : BitVec 12) (i sp : Fin 8)
    (hack : ((s.siltSt k).replay.findIdx? fun e => e.1 == ack.toNat) = none) (hr : s.roleServed 22 = true)
    (hi : (s.siltInUse k).contains i.val = true) (hsp : ((s.siltSpares k).filter (· != i.val)).head? = some sp.val) :
    s.completes (.laneFailReceive k ack i) fun t =>
      t.siltInUse k = ((s.siltInUse k).map fun p => if p = i.val then sp.val else p) ∧ t.rdb (offSiltEvt k) 5 = true := by
  obtain ⟨hlen, hlt⟩ := s.siltInUse_bounds k
  obtain ⟨more, hspare⟩ := List.head?_eq_some_iff.1 hsp
  obtain ⟨u, hx⟩ : ∃ u, exec (.laneFailReceive k ack i) s =
      .next ((State.siltRemap u k ((s.siltInUse k).map fun p => if p = i.val then sp.val else p) more).siltEvent k 5) := by
    rw [exec_laneFailReceive, execLaneFailReceive, s.siltHear_active k ha, s.siltAck_none k hack,
      if_pos (by rw [List.contains_iff_mem] at hi ⊢; exact List.mem_append_left _ hi)]
    unfold State.siltLost
    extract_lets ls spare v w x
    have hrole : w.roleServed 22 = true := by
      have hk := k.isLt
      have hi := i.isLt
      refine (congrArg (bit 31) ?_).trans hr
      exact State.rd_wrf_ne s _ _ _ (by unfold offRoleStatus lnStatus siltLane; omega)
    rw [show ls.contains i.val = true from hi, if_neg (by simp), hrole, if_neg (by simp), show spare = sp.val :: more from hspare]
    exact ⟨_, rfl⟩
  refine State.completes_of hx ⟨?_, State.rdb_raiseEvt _ _ _ (by decide)⟩
  let ls := (s.siltInUse k).map fun p => if p = i.val then sp.val else p
  have hls : ls = (s.siltInUse k).map fun p => if p = i.val then sp.val else p := rfl
  have hmap := u.siltRemap_inUse k more (ls := ls) (by rw [hls, List.length_map]; exact hlen) fun j hj => by
    obtain ⟨p, hp, rfl⟩ := List.mem_map.1 hj
    split
    · exact sp.isLt
    · exact hlt p hp
  refine (State.siltInUse_congr ?_).trans hmap
  exact State.rd_raiseEvt_ne _ _ (by unfold offSiltMap offSiltEvt; omega)

/-- Settles O51: each flit of a silt link by the rule of its own command. -/
theorem siltFlitsAct : Obligations.SiltFlitsAct := by
  intro s k ha
  exact ⟨silt_read s k ha, silt_early s k ha, silt_late s k ha, silt_writeAck s k ha, silt_creditHeld s k ha, silt_credit s k ha,
    silt_nak s k ha, silt_laneFail s k ha, silt_mapAck s k ha, silt_statusEvent s k ha, silt_statusFault s k ha, silt_replay s k ha,
    silt_replayMax s k ha, silt_loss s k ha, silt_errored s k ha, silt_protocol s k ha, silt_badCrc s k ha, silt_nullAck s k ha,
    silt_null s k ha, silt_stuffError s k ha⟩

end Sys2Proof.Machine
end

section
/-! SUPPORT. The replicator ends a frame's own path, and the frames that wait for admission are then acted on: the list of frames may
hold a number twice, as no run puts it there, and the frame is found to wait by the second entry. -/

set_option Elab.async false

namespace Sys2Proof.Machine

/-- A frame of a verdict that names group 0, to which a copy still refers. -/
def replicated : Frame :=
  { bytes := [], src := 256, path := .repl, fate := some (.verdict [0x00, 0x02]), group := 0x00010000, refs := 2 }

/-- The line island is ON and group 0 is valid; number 1 is listed as `replicated` and again as a frame that waits for admission. -/
def frameTwice : State :=
  { Tests.up Tests.start with
    frames := [(1, some replicated), (1, some { replicated with path := .settle })]
    mesh := { groups := [(0, 0x80010000)] } }

theorem frameTwice_path : (match execMulticastReplicate 1 frameTwice with
    | .next t => (t.frame 1).map (·.path) | _ => none) = some .repl := by
  decide +kernel

/-- Refutes O36: in `frameTwice` the replicator is done with frame 1, which is then acted on as a frame that waits for admission: its
verdict sends it to the replicator again. -/
theorem not_handoffActs : ¬ Obligations.HandoffActs := by
  unfold Obligations.HandoffActs
  intro h
  obtain ⟨-, -, -, -, -, hrepl, -⟩ := h frameTwice
  obtain ⟨t, ht, -, -, hcopies⟩ := hrepl 1 replicated [0x00, 0x02] rfl rfl rfl
  have hpath := frameTwice_path
  rw [show execMulticastReplicate 1 frameTwice = .next t from ht] at hpath
  obtain ⟨x, hx, hagain⟩ := Option.map_eq_some_iff.1 hpath
  rw [hx] at hcopies
  exact absurd (hagain.symm.trans (eq_of_beq hcopies)) (by decide)

end Sys2Proof.Machine
end

section
/-! SUPPORT. What commands on the load port and on one engine leave of the register file, one lemma per operation, and what EngineFrame
rests on: whether an image passes the checks of R421. -/

set_option Elab.async false

namespace Sys2Proof.Machine

/-- Outside the tilth block and the safety monitors. -/
def engineKept (x : Nat) : Prop := x < 0x600000 ∨ 0x740000 ≤ x

/-- A register that these commands may change. Its proof is by its place in the map. -/
structure EngineOff (off : Nat) : Prop where
  out : ¬ engineKept off := by
    simp only [engineKept, offEngMc, offEngRoleMask, offEngStatus, offEngVersion, offHarmStatus, offLoadCount, offLoadCtl,
      offLoadData, offRoleStatus, offSafeCnt, offSafeEvt, offTilthCnt, offTilthEvt] at *
    omega

theorem State.wr_engine (s : State) (off w) (h : ¬ engineKept off := by exact EngineOff.out {}) :
    Untouched engineKept s (s.wr off w) := .wr h s w

theorem State.wrf_engine (s : State) (off hi lo n) (h : ¬ engineKept off := by exact EngineOff.out {}) :
    Untouched engineKept s (s.wrf off hi lo n) := .wr h s _

theorem State.wrb_engine (s : State) (off i v) (h : ¬ engineKept off := by exact EngineOff.out {}) :
    Untouched engineKept s (s.wrb off i v) := .wr h s _

theorem State.cfg_engine (s : State) {off : Nat} {f : State → State} (h : noRegion off) (hf : Untouched engineKept s (f s)) :
    Untouched engineKept s (s.cfg off f) := by
  obtain e | ⟨error, e⟩ | e := s.cfg_cases f h
  · rw [e]
    exact .refl s
  · rw [e]
    exact s.answer_untouched error 0
  · rw [e]
    exact hf.trans (State.answer_untouched _ _ _)

theorem State.tilthEvt_engine (s : State) (i) : Untouched engineKept s (s.tilthEvt i) :=
  .raiseEvt (EngineOff.out {}) s i

theorem State.tilthCnt_engine (s : State) (i) (hi : i < 16 := by omega) : Untouched engineKept s (s.tilthCnt i) :=
  .addCnt (EngineOff.out {}) (EngineOff.out {}) (EngineOff.out {}) s 1 7

theorem State.engEmpty_engine (s : State) (e) (he : e < 26 := by omega) : Untouched engineKept s (s.engEmpty e) := by
  unfold State.engEmpty
  exact ((((s.wr_engine _ _).trans (State.stopTimer_untouched _ _)).trans (State.wr_engine _ _ _)).trans
    (State.wr_engine _ _ _)).trans (State.engMod_untouched _ _ _)

theorem State.engLoading_engine (s : State) (e) (he : e < 26 := by omega) : Untouched engineKept s (s.engLoading e) := by
  unfold State.engLoading State.engGo
  exact (s.engEmpty_engine e).trans (State.wrf_engine _ _ _ _ _)

theorem State.engFailed_engine (s : State) (e) (he : e < 26 := by omega) : Untouched engineKept s (s.engFailed e) :=
  ((s.engEmpty_engine e).trans (State.tilthEvt_engine _ _)).trans (State.tilthCnt_engine _ _)

theorem State.loadResult_engine (s : State) (n) : Untouched engineKept s (s.loadResult n) := s.wrf_engine _ _ _ _

/-! ## The load port, while its engine is one of the 26 -/

theorem State.loadStart_engine (s : State) (h : s.tilth.loadOk) : Untouched engineKept s s.loadStart := by
  unfold State.loadStart
  extract_lets e mine t
  refine .ite (.refl s) ?_
  by_cases he : 26 ≤ e
  · rw [if_pos (by simp [he])]
    exact s.loadResult_engine 9
  · have hlt : e < 26 := by omega
    have ht : Untouched engineKept s t := by
      simp only [t]
      split
      · rename_i old _ hl
        have hold := h old _ hl
        exact s.engEmpty_engine old
      · exact .refl s
    clear_value t
    exact .ite (s.loadResult_engine 9) ((((ht.trans (t.engLoading_engine e)).trans (State.tilthMod_untouched _ _)).trans
      (State.wr_engine _ _ _)).trans (State.loadResult_engine _ _))

theorem State.loadFinish_engine (s : State) : Untouched engineKept s s.loadFinish := .ite (s.wrb_engine _ _ _) (.refl s)

theorem State.loadAbort_engine (s : State) (h : s.tilth.loadOk) : Untouched engineKept s s.loadAbort := by
  unfold State.loadAbort
  split
  · rename_i e _ hl
    have he := h e _ hl
    exact (((s.engFailed_engine e).trans (State.tilthMod_untouched _ _)).trans (State.wrb_engine _ _ _ _)).trans
      (State.loadResult_engine _ _)
  · exact .refl s

theorem State.loadStart_loadOk {s : State} (h : s.tilth.loadOk) : s.loadStart.tilth.loadOk := s.loadStart_within.load h

/-- START, then FINISH, each where it is written. -/
theorem State.loadAct_engine {s t : State} {c d : Prop} [Decidable c] [Decidable d] (h : s.tilth.loadOk)
    (ht : t = if c then s.loadStart else s) :
    Untouched engineKept s (if d then t.loadFinish else t) ∧ (if d then t.loadFinish else t).tilth.loadOk := by
  have hstart : Untouched engineKept s t ∧ t.tilth.loadOk := by
    rw [ht]
    split
    · exact ⟨s.loadStart_engine h, State.loadStart_loadOk h⟩
    · exact ⟨.refl s, h⟩
  obtain ⟨hu, hok⟩ := hstart
  split
  · exact ⟨hu.trans t.loadFinish_engine, t.loadFinish_within.load hok⟩
  · exact ⟨hu, hok⟩

theorem State.loadCtlWrite_engine (s : State) (port) (v) (h : s.tilth.loadOk) : Untouched engineKept s (s.loadCtlWrite port v) := by
  unfold State.loadCtlWrite
  extract_lets t act u
  have ht : Untouched engineKept s t := s.wrf_engine _ _ _ _
  have hu : Untouched engineKept s u ∧ u.tilth.loadOk := by
    unfold u
    split
    · obtain ⟨hact, hok⟩ := State.loadAct_engine (s := t) (c := bit 31 v = true) (d := bit 30 v = true) h rfl
      rw [State.lk_load]
      exact ⟨ht.trans hact, hok⟩
    · exact ⟨ht, h⟩
  obtain ⟨hu, huok⟩ := hu
  exact .ite (hu.trans (u.loadAbort_engine huok)) hu

theorem State.loadDataWrite_engine (s : State) (port) (v) : Untouched engineKept s (s.loadDataWrite port v) := by
  rw [State.loadDataWrite, State.lk_load]
  split
  · exact .ite (.refl s) ((State.tilthMod_untouched _ _).trans (State.wr_engine _ _ _))
  · exact .refl s

/-! ## Machine checks -/

theorem State.safeEvt_engine (s : State) (i) : Untouched engineKept s (s.safeEvt i) :=
  .ite (.raiseEvt (EngineOff.out {}) s i) (.refl s)

theorem State.safeInc_engine (s : State) (i) (n) (hi : i < 16 := by omega) : Untouched engineKept s (s.safeInc i n) :=
  .ite (.addCnt (EngineOff.out {}) (EngineOff.out {}) (EngineOff.out {}) s n 9) (.refl s)

theorem State.harmRecord_engine (s : State) (head) (count) : Untouched engineKept s (s.harmRecord head count) := by
  unfold State.harmRecord
  extract_lets q v words full t u w
  have ht : Untouched engineKept s t := fun x hx => by
    refine State.rd_wrs_ne _ _ _ ?_
    have hlen : words.length = 4 := rfl
    unfold engineKept at hx
    unfold offHarmLog
    omega
  have hu : Untouched engineKept s u := (ht.trans (State.wrf_engine _ _ _ _ _)).trans (State.wrf_engine _ _ _ _ _)
  have hw : Untouched engineKept s w := (hu.trans (State.wrb_engine _ _ _ _)).trans (State.harmMod_untouched _ _)
  exact .ite (hw.trans (State.wrb_engine _ _ _ _)) hw

theorem State.harmReport_engine (s : State) (word0) : Untouched engineKept s (s.harmReport word0) := by
  unfold State.harmReport
  exact .ite ((State.harmMod_untouched _ _).trans (State.wrb_engine _ _ _ _)) (State.harmMod_untouched _ _)

theorem State.detectEngine_engine (s : State) (e) : Untouched engineKept s (s.detectEngine e) := by
  unfold State.detectEngine
  exact .ite (.refl s) ((((s.harmRecord_engine _ _).trans (State.safeInc_engine _ _ _)).trans (State.safeEvt_engine _ _)).trans
    (State.harmReport_engine _ _))

theorem State.roleIdle_engine (s : State) (r) (hr : r < 32 := by omega) : Untouched engineKept s (s.roleIdle r) := s.wr_engine _ _

theorem State.roleRefuse_engine (s : State) (r) (hr : r < 32 := by omega) : Untouched engineKept s (s.roleRefuse r) :=
  (s.wrb_engine _ _ _).trans (State.tilthEvt_engine _ _)

theorem State.roleUnserved_engine (s : State) (r) : Untouched engineKept s (s.roleUnserved r) :=
  ((s.roleMod_untouched _ _).trans (State.tilthEvt_engine _ _)).trans (State.emit_untouched _ _)

theorem State.chooseTakeover_engine (s : State) (r) : Untouched engineKept s (s.chooseTakeover r) := by
  unfold State.chooseTakeover
  extract_lets recallImg ready empty
  have hlt : ∀ e, empty = some e → e < 26 := fun e he => List.mem_range.1 (List.mem_of_find?_eq_some he)
  clear_value ready empty
  refine .ite (s.roleUnserved_engine r) ?_
  cases ready with
  | some e => exact s.roleMod_untouched _ _
  | none =>
    cases empty with
    | some e =>
      have he := hlt e rfl
      exact (s.engLoading_engine e).trans (State.roleMod_untouched _ _ _)
    | none => exact s.roleUnserved_engine r

theorem State.roleLost_engine (s : State) (r) (hr : r < 32 := by omega) : Untouched engineKept s (s.roleLost r) := by
  unfold State.roleLost
  extract_lets pend n t
  have ht : Untouched engineKept s t := s.roleIdle_engine r
  exact .ite (ht.trans (State.roleMod_untouched _ _ _))
    ((Untouched.ite (ht.trans (t.roleRefuse_engine r)) ht).trans (State.chooseTakeover_engine _ _))

theorem State.machineCheck_engine (s : State) (e) (cause) (groups) (addr) (he : e < 26 := by omega) :
    Untouched engineKept s (s.machineCheck e cause groups addr) := by
  have hr : s.rdf (offEngStatus e) 28 24 < 32 := fld_lt 28 24 _
  unfold State.machineCheck
  extract_lets r t u v
  have hv : Untouched engineKept s v := ((((s.wr_engine _ _).trans (State.stopTimer_untouched _ _)).trans (State.wr_engine _ _ _)).trans
    (State.tilthCnt_engine _ _)).trans (State.tilthEvt_engine _ _)
  exact (Untouched.ite (hv.trans (v.detectEngine_engine e)) hv).trans (State.roleLost_engine _ _)

/-! ## The commands -/

theorem execMachineCheck_engine (e addr flips cfgErr) (s : State) : UntouchedO engineKept s (execMachineCheck e addr flips cfgErr s) := by
  have hcheck : ∀ cause groups addr, Untouched engineKept s (s.machineCheck e.val cause groups addr) := fun cause groups addr =>
    s.machineCheck_engine e cause groups addr
  unfold execMachineCheck
  exact .ite (.next (.refl s)) (.ite (.next (hcheck _ _ _)) (.ite (.next (hcheck _ _ _)) (.ite (.next (hcheck _ _ _)) (.next (.refl s)))))

theorem execLoadCheckDone_within_fail {s : State} {ok : Bool} (h : ∀ e img, s.tilth.load = some (e, img) → s.imgCheck img ok ≠ 1) :
    WithinO [.timers, .evWait, .tilth] s (execLoadCheckDone ok s) := by
  unfold execLoadCheckDone
  split
  · rename_i e img hl
    dsimp only
    rw [if_neg (h e img hl)]
    exact .ite (.next (.refl s)) (.next ((((State.tilthMod_within _ _ fun _ _ _ h => by cases h).mono.trans
      (State.wrb_within _ _ _ _).mono).trans (State.loadResult_within _ _).mono).trans (State.engFailed_within _ _).mono))
  · exact .next (.refl s)

theorem execLoadCheckDone_engine {s : State} {ok : Bool} (hok : s.tilth.loadOk)
    (h : ∀ e img, s.tilth.load = some (e, img) → s.imgCheck img ok ≠ 1) : UntouchedO engineKept s (execLoadCheckDone ok s) := by
  unfold execLoadCheckDone
  split
  · rename_i e img hl
    have he := hok e img hl
    dsimp only
    rw [if_neg (h e img hl)]
    exact .ite (.next (.refl s)) (.next ((((State.tilthMod_untouched _ _).trans (State.wrb_engine _ _ _ _)).trans
      (State.loadResult_engine _ _)).trans (State.engFailed_engine _ e)))
  · exact .next (.refl s)

/-- The frame of EngineFrame holds of every command but the end of the checks of an image that passes them. -/
theorem engineFrame_of_not_pass {s t : State} {c : Instr} (hc : c.engineCommand = true) (hok : s.tilth.loadOk)
    (h : ∀ ok e img, s.tilth.load = some (e, img) → s.imgCheck img ok ≠ 1) (ht : exec c s = .next t) :
    s.sameBut t [.outbox, .timers, .evWait, .tilth, .harm] ∧ ∀ x, engineKept x → t.rd x = s.rd x := by
  have hctl : ∀ v, s.sameBut (s.cfg offLoadCtl fun s => s.loadCtlWrite false v) [.outbox, .timers, .evWait, .tilth, .harm] ∧
      Untouched engineKept s (s.cfg offLoadCtl fun s => s.loadCtlWrite false v) := fun v =>
    ⟨(State.cfg_within_noRegion s _ noRegion_loadCtl fun _ => (State.loadCtlWrite_within _ _ _).mono).same,
      s.cfg_engine noRegion_loadCtl (s.loadCtlWrite_engine false v hok)⟩
  cases c
  case loadStart => cases ht; exact hctl _
  case loadFinish => cases ht; exact hctl _
  case loadAbort => cases ht; exact hctl _
  case loadData =>
    exact frame_of (.next (State.cfg_within_noRegion s _ noRegion_loadData fun _ => (State.loadDataWrite_within _ _ _).mono))
      (.next (s.cfg_engine noRegion_loadData (s.loadDataWrite_engine false _))) ht
  case loadCheckDone => exact frame_of (execLoadCheckDone_within_fail (h _)).mono (execLoadCheckDone_engine hok (h _)) ht
  case engineClear e =>
    exact frame_of (execEngineClear_within e s).mono (.next (.ite (s.engEmpty_engine e) (.refl s))) ht
  case machineCheck => exact frame_of (execMachineCheck_within _ _ _ _ s) (execMachineCheck_engine _ _ _ _ s) ht
  case tilthWatchdog e _ =>
    exact frame_of (execTilthWatchdog_within e _ s) (.next (.ite (s.machineCheck_engine e _ _ _) (.refl s))) ht
  all_goals cases hc

/-! ## An image that passes -/

theorem State.engReady_rd_low (s : State) {e x : Nat} (he : e < 26) (img : List Byte) (hx : x < 0x600000) :
    (s.engReady e img).rd x = s.rd x := by
  simp (disch := omega) [State.engReady, State.engGo, State.engMod, State.tilthEvt, State.tilthCnt, offTilthEvt, offTilthCnt,
    offEngStatus, offEngVersion, offEngRoleMask, State.rd_inc_ne, State.rd_raiseEvt_ne, State.rd_wr_ne, State.rd_wrf_ne]

/-- A state in which the checks of an image are under way. -/
def State.checking (s : State) (img : List Byte) : State :=
  { s with
    tilth := { s.tilth with load := some (0, img) }
    regs := (s.wrb offLoadCtl 28 true).regs }

theorem State.rd_checking (s : State) (img : List Byte) {x : Nat} (h : x ≠ offLoadCtl) : (s.checking img).rd x = s.rd x :=
  (State.rd_of_regs (s := s.wrb offLoadCtl 28 true) rfl x).trans (s.rd_wrb_ne _ _ h)

theorem State.imgCheck_checking (s : State) (img : List Byte) (ok : Bool) : (s.checking img).imgCheck img ok = s.imgCheck img ok := by
  unfold State.imgCheck
  rw [s.rd_checking img (by decide)]
  rfl

/-- O26, EngineFrame, says that no image passes the checks: one that does is measured, which counts outside the frame (R481), and the
rest of the commands keep to the frame. Whether one does rests on the hashes of the keys that the fuses hold, which are a free value
of the model (assumption 17), so the statement stays unsettled. -/
theorem engineFrame_iff : Obligations.EngineFrame ↔ ∀ (s : State) (img : List Byte) (ok : Bool), s.imgCheck img ok ≠ 1 := by
  unfold Obligations.EngineFrame
  refine ⟨fun h s img ok hpass => ?_, fun h s t c hc hok ht => engineFrame_of_not_pass hc hok (fun ok _ img _ => h s img ok) ht⟩
  have hbusy : (s.checking img).rdb offLoadCtl 28 = true := by
    rw [State.rdb, State.rd_of_regs (t := s.checking img) (s := s.wrb offLoadCtl 28 true) rfl, State.rd_wrb_same, bit_setBit _ _ _ _ (by decide), if_pos rfl]
  obtain ⟨-, hkept⟩ := h (s.checking img) _ (.loadCheckDone ok) rfl
    (by rintro e bs ⟨⟩; decide) (execLoadCheckDone_pass _ rfl hbusy (by rw [s.imgCheck_checking, hpass]))
  have hcount := hkept offMeasCount (.inl (by decide))
  rw [State.marlBump_rd _ (by decide) (by unfold notGen offMeasCount; omega), State.measExtend, State.rd_wr_same] at hcount
  have hready : (((s.checking img).loadEnded 1).engReady 0 img).rd offMeasCount = (s.checking img).rd offMeasCount :=
    (State.engReady_rd_low _ (by decide) img (by decide)).trans (State.rd_loadEnded_ne _ 1 (by decide))
  rw [hready] at hcount
  exact absurd hcount (by bv_omega)

end Sys2Proof.Machine
end
